-- ==== Sys2Proof/Word.lean ====
section
/-! DEFINITION. The words of the block and the sparse map that holds every repeated thing. -/

namespace Sys2Proof

/-- A register, 32 bits (R10). -/
abbrev Word := BitVec 32

/-- A byte of a stream, a descriptor, the settings memory or a line. -/
abbrev Byte := BitVec 8

/-- The content of one configuration frame, 4,096 bits (R85). -/
abbrev Frame := BitVec 4096

/-- A sparse map: pairs of a key and a value, keys strictly rising, no value equal to what an unlisted key reads as. -/
abbrev SMap (α : Type) := List (Nat × α)

end Sys2Proof
end

