-- ==== Sys2Proof/Syntax.lean ====
section
/-! DEFINITION. The commands of the block: one constructor of `Instr` per row of spec/opcode_table.json, with the operands that come
from outside the block (what a host wrote, what a line carried, what was measured, what instant an edge had). -/

namespace Sys2Proof

/-- Who gave an admin command: a slot of the command ring with its command identifier, the mailbox of R397, the console under the name of
a command (R483), or a slot of a ring that a reset of the host interface has since taken away, in that generation (R396). -/
inductive CmdSrc where
  | ring (cid slot : Nat)
  | mailbox
  | console (name : Nat)
  | gone (gen cid slot : Nat)
  deriving DecidableEq, Repr

/-- Where the event crossings stand that count pulses toward a clocked domain: the event-out lines of a region (R176), or the crossings from
one domain of Table 01.2 to another (R177). -/
inductive EvGroup where
  | region (n : Fin 16)
  | domains (src dst : Fin 71)
  deriving DecidableEq, Repr

/-- A value crossing from one domain of Table 01.2 to another (R178). -/
structure Crossing where
  src : Fin 71
  dst : Fin 71
  index : BitVec 8
  deriving DecidableEq, Repr

/-- One side of a queue. -/
structure XqSide where
  queue : Fin 64
  writer : Bool
  deriving DecidableEq, Repr

/-- The access paths of R517. -/
inductive Path where
  | bar0
  | console
  | mgmt
  deriving DecidableEq, Repr

/-- The host address spaces of R515 and R518. -/
inductive Bar where
  | bar0
  | bar2
  deriving DecidableEq, Repr

/-- What the straps and the fuse reader give at a start from COLD (R260, R262, R341, R482). `good` is false on a fuse read error or a
failed built-in check; `units` has bit u - 1 set where unit u of Table 01.7 works; the last three say whether the 3.3 V rail and the lane
rails reach their windows (R467). -/
structure PowerUp where
  vin : Nat
  pup : BitVec 8
  vsel : Bool
  leadStrap : Bool
  altStrap : Bool
  good : Bool
  units : BitVec 11
  rail33 : Bool := true
  rail09 : Bool := true
  rail12 : Bool := true
  deriving DecidableEq, Repr

/-- A host access to the configuration space of the endpoint (Table 13.1): a write of the Command register, a write of what else it configures, or
a read. -/
inductive CfgAccess where
  | command
  | control (payload : Fin 3) (readReq : Fin 6) (d3 mask : Bool)
  | read (off : BitVec 12)
  deriving DecidableEq, Repr

/-- What one admin command or its completion is made of (Table 13.3), host addresses and lengths as numbers. -/
structure AdminDesc where
  opcode : BitVec 8
  arg0 : BitVec 32
  arg1 : BitVec 32
  arg2 : BitVec 32
  arg3 : BitVec 32
  addr : BitVec 64
  len : BitVec 32
  deriving DecidableEq, Repr

/-- What an access to host memory that failed was for (R385, R396): a descriptor or command, the data of a descriptor, the stream of a
load, the buffer of an admin command. -/
inductive DmaAccess where
  | descriptor
  | data
  | stream
  | buffer
  deriving DecidableEq, Repr

/-- Sensor readings of R474: the junctions in degrees Celsius, region 0 first, and the baseplate. -/
structure Temps where
  junction : List Int
  base : Int
  deriving DecidableEq, Repr

/-- A unit that Moraine retires (R427, R428). -/
inductive RetUnit where
  | region (n : Fin 16)
  | spoke (u : Fin 48)
  | lane (n : Fin 60)
  | port (p : Fin 4)
  deriving DecidableEq, Repr

/-- A failed unit that a Sprocket or Firn test found (R415): a slice or a block, its region, its column, its physical index; for a block the
failing physical rows, repair rows from 512 on, with their failing bits. -/
structure TestFault where
  block : Bool
  region : Fin 16
  column : Fin 4
  index : Fin 76
  rows : List (Fin 514 × BitVec 72)
  deriving DecidableEq, Repr

/-- What a console line meets outside the block: SVC_WR_N low (R482), whether a pull test would find its pin open (R449), what a Sprocket
and Firn test would find (R415), the bytes that a fuse reads back after it was programmed, none where nothing was blown (R484). -/
structure ConEnv where
  wrLow : Bool
  isOpen : Bool := false
  found : List TestFault := []
  blown : Option (List Byte) := none
  deriving DecidableEq, Repr

/-- What a REPORT line asks for (Table 17.1). -/
inductive RepKind where
  | bist (id : Nat) (compat : Bool)
  | scrub
  | map
  deriving DecidableEq, Repr

/-- The commands, in the order of the table. -/
inductive Instr where
  /-- VIN_START (R19) -/
  | vinStart (p : PowerUp)
  /-- VIN_STOP (R19), with VIN in millivolts, 0 where no reading is given -/
  | vinStop (vin : BitVec 16 := 0)
  /-- UNDERVOLTAGE (R472) -/
  | undervoltage (vin : BitVec 16)
  /-- AUTO_RESTART (R473), with VIN in millivolts, the start threshold where no reading is given -/
  | autoRestart (vin : BitVec 16 := 5700)
  /-- OVERVOLTAGE (R463) -/
  | overvoltage (vin : BitVec 16)
  /-- INPUT_HARD_LIMIT (R465) -/
  | inputHardLimit (ma : BitVec 16)
  /-- RAIL_OUT_OF_WINDOW (R466) -/
  | railOutOfWindow (rail : Fin 5) (mv : BitVec 16)
  /-- VCORE_PHASE_CHECK (R468) -/
  | vcorePhaseCheck (phase : Fin 10)
  /-- TEMPERATURE_READ (R474) -/
  | temperatureRead (t : Temps)
  /-- SUPERVISOR_FAILOVER (R29) -/
  | supervisorFailover
  /-- LAST_SUPERVISOR_FAIL (R30) -/
  | lastSupervisorFail
  /-- HOLD_STAGE_TOKEN_MOVE (R40) -/
  | holdStageTokenMove (n : Fin 16) (c : Fin 64) (r : Fin 72) (x : Fin 128) (extra : BitVec 4)
  /-- MUTEX_GRANT (R56) -/
  | mutexGrant (n : Fin 16) (c : Fin 64) (r : Fin 72) (k : Fin 4) (pickB : Bool)
  /-- FUNCTION (R70) -/
  | function (n : Fin 16) (c : Fin 64) (r : Fin 72) (i : Fin 32)
  /-- FUNCTION5 (R71) -/
  | function5 (n : Fin 16) (c : Fin 64) (r : Fin 72) (i : Fin 32)
  /-- FORK (R70) -/
  | fork (n : Fin 16) (c : Fin 64) (r : Fin 72) (i : Fin 32)
  /-- JOIN (R70) -/
  | join (n : Fin 16) (c : Fin 64) (r : Fin 72) (i : Fin 32)
  /-- SPLIT (R73) -/
  | split (n : Fin 16) (c : Fin 64) (r : Fin 72) (i : Fin 32)
  /-- SELECT_MERGE (R74) -/
  | selectMerge (n : Fin 16) (c : Fin 64) (r : Fin 72) (i : Fin 32)
  /-- ARB_MERGE (R58) -/
  | arbMerge (n : Fin 16) (c : Fin 64) (r : Fin 72) (i : Fin 32)
  /-- SOURCE (R75) -/
  | source (n : Fin 16) (c : Fin 64) (r : Fin 72) (i : Fin 32)
  /-- SINK (R76) -/
  | sink (n : Fin 16) (c : Fin 64) (r : Fin 72) (i : Fin 32) (p : Fin 2)
  /-- CONST (R76) -/
  | const (n : Fin 16) (c : Fin 64) (r : Fin 72) (i : Fin 32)
  /-- MUX (R78) -/
  | mux (n : Fin 16) (c : Fin 64) (r : Fin 72) (i : Fin 32)
  /-- ISO_ABSORB (R111) -/
  | isoAbsorb (n : Fin 16) (e : Fin 4) (i : Fin 1152)
  /-- ISO_DEFAULT_SUPPLY (R111) -/
  | isoDefaultSupply (n : Fin 16) (e : Fin 4) (i : Fin 1152)
  /-- LT_CONTENTION (R101) -/
  | ltContention (n : Fin 16) (vert : Bool) (line : Fin 72) (track : Fin 24) (seg : Fin 4)
  /-- REGION_FREEZE_SET (R49) -/
  | regionFreezeSet (n : Fin 16)
  /-- REGION_FREEZE_SETTLED (R49) -/
  | regionFreezeSettled (n : Fin 16)
  /-- REGION_FREEZE_CLEAR (R50) -/
  | regionFreezeClear (n : Fin 16)
  /-- WATCHDOG_ENABLE (R65) -/
  | watchdogEnable (n : Fin 16) (k : Fin 32) (v : BitVec 32)
  /-- WATCHDOG_STALL (R61) -/
  | watchdogStall (n : Fin 16) (k : Fin 32)
  /-- SPROCKET_MAC (R128) -/
  | sprocketMac (n : Fin 16) (c : Fin 4) (sl : Fin 60)
  /-- SPROCKET_CALIBRATE (R132) -/
  | sprocketCalibrate (n : Fin 16) (c : Fin 4) (sl : Fin 60) (holds : Bool)
  /-- FIRN_READ (R135) -/
  | firnRead (n : Fin 16) (f : Fin 2) (b : Fin 72) (p : Fin 2) (flips : BitVec 72)
  /-- FIRN_WRITE (R135) -/
  | firnWrite (n : Fin 16) (f : Fin 2) (b : Fin 72) (p : Fin 2) (flips : BitVec 72)
  /-- FIRN_SCRUB_ROW (R141) -/
  | firnScrubRow (n : Fin 16) (f : Fin 2) (b : Fin 72) (row : Fin 512) (flips : BitVec 72)
  /-- XQ_PUSH_CLOCKED (R161) -/
  | xqPushClocked (q : Fin 32) (d : BitVec 128) (sb : BitVec 16)
  /-- XQ_PUSH_FABRIC (R154) -/
  | xqPushFabric (q : Fin 32)
  /-- XQ_WORD_OFFER (R167) -/
  | xqWordOffer (q : Fin 32) (flips : BitVec 128)
  /-- XQ_POP_FABRIC (R154) -/
  | xqPopFabric (q : Fin 32)
  /-- XQ_POP_CLOCKED (R161) -/
  | xqPopClocked (q : Fin 32) (flips : BitVec 128)
  /-- XQ_FLUSH (R171) -/
  | xqFlush (q : Fin 64)
  /-- XQ_FLUSH_DONE (R171) -/
  | xqFlushDone (q : Fin 64)
  /-- XQ_PAUSE (R170) -/
  | xqPause (q : Fin 64)
  /-- XQ_PAUSE_SETTLED (R170) -/
  | xqPauseSettled (q : Fin 64)
  /-- XQ_UNPAUSE (R170) -/
  | xqUnpause (q : Fin 64)
  /-- XQ_CLR_CNT (R186) -/
  | xqClrCnt (q : Fin 64)
  /-- XQ_SIDE_RESET (R184) -/
  | xqSideReset (q : Fin 64) (writer : Bool)
  /-- XQ_SIDE_RESET_END (R184) -/
  | xqSideResetEnd (x : XqSide)
  /-- REGION_EVX_FIRE (R175) -/
  | regionEvxFire (n : Fin 16) (mask : BitVec 8)
  /-- EVENT_IN_ROUND_TRIP (R174) -/
  | eventInRoundTrip (n : Fin 16) (k : Fin 8)
  /-- EVENT_IN_ACK (R175) -/
  | eventInAck (n : Fin 16) (k : Fin 8)
  /-- EVENT_OUT_TOKEN (R176) -/
  | eventOutToken (g : EvGroup) (k : BitVec 8)
  /-- EVENT_OUT_ROUND_TRIP (R176) -/
  | eventOutRoundTrip (g : EvGroup) (k : BitVec 8)
  /-- VALUE_CROSSING_TRANSFER (R178) -/
  | valueCrossingTransfer (x : Crossing) (v : Option (BitVec 32))
  /-- CLOCK_STOPPED (R180) -/
  | clockStopped (d : Fin 71)
  /-- CLOCK_RETURNED (R180) -/
  | clockReturned (d : Fin 71)
  /-- ACCESS_HANG (R181) -/
  | accessHang (d : Fin 71)
  /-- TRACK_UPDATE (R204) -/
  | trackUpdate
  /-- COAST_LIMIT (R217) -/
  | coastLimit (t : Fin 8)
  /-- ACQUIRE_COMPLETE (R213) -/
  | acquireComplete (t : Fin 8)
  /-- PLL_LOCK_LOST (R190) -/
  | pllLockLost
  /-- PLL_LOCKED (R189) -/
  | pllLocked
  /-- QUAD_EDGE (R195) -/
  | quadEdge (n : Fin 4) (a : Bool) (b : Bool) (stamp : BitVec 64)
  /-- PULSE_EDGE (R195) -/
  | pulseEdge (n : Fin 4) (stamp : BitVec 64)
  /-- INDEX_EDGE (R196) -/
  | indexEdge (n : Fin 4)
  /-- ANALOG_MEASUREMENT (R197) -/
  | analogMeasurement (n : Fin 4) (a : BitVec 16) (b : BitVec 16) (neg : Bool) (stamp : BitVec 64)
  /-- MAINS_SINGLE_SAMPLE (R199) -/
  | mainsSingleSample (n : Fin 4) (code : BitVec 16) (stamp : BitVec 64)
  /-- ANALOG_SOURCE_TRIGGER (R198) -/
  | analogSourceTrigger (n : Fin 4)
  /-- SOURCE_LOST (R215) -/
  | sourceLost (n : Fin 4)
  /-- SOURCE_RETURN (R219) -/
  | sourceReturn (n : Fin 4)
  /-- SOURCE_ENABLE (R193) -/
  | sourceEnable (n : Fin 4) (v : BitVec 32)
  /-- SOURCE_DISABLE (R211) -/
  | sourceDisable (n : Fin 4)
  /-- TRACK_ENABLE (R213) -/
  | trackEnable (t : Fin 8) (v : BitVec 32)
  /-- TRACK_DISABLE (R213) -/
  | trackDisable (t : Fin 8)
  /-- TRACK_HALT (R213) -/
  | trackHalt (t : Fin 8)
  /-- HALT_ALL (R213) -/
  | haltAll
  /-- TRACK_REARM (R220) -/
  | trackRearm (t : Fin 8)
  /-- TRACK_ADJUST (R222) -/
  | trackAdjust (t : Fin 8) (a : BitVec 32)
  /-- TRACK_SWITCH_GO (R223) -/
  | trackSwitchGo (t : Fin 8) (v : BitVec 32)
  /-- SWITCH_ACQUIRED (R223) -/
  | switchAcquired (t : Fin 8)
  /-- SWITCH_ABORT (R225) -/
  | switchAbort (t : Fin 8)
  /-- SLEW_COMPLETE (R223) -/
  | slewComplete (t : Fin 8)
  /-- SPOKE_EREQ (R237) -/
  | spokeEreq (u : Fin 48) (dt : Fin 4000)
  /-- SPK_PUSH_HI (R237) -/
  | spkPushHi (u : Fin 48) (dt : Fin 4000) (v : BitVec 32)
  /-- EDGE (R239) -/
  | edge (u : Fin 48) (dt : Fin 4000)
  /-- TICK (R246) -/
  | tick (u : Fin 48) (dt : Fin 4000)
  /-- TRIG (R250) -/
  | trig (u : Fin 48) (dt : Fin 4000)
  /-- NOP (R236) -/
  | nop (u : Fin 48) (dt : Fin 4000)
  /-- TICK_DELIVER (R246) -/
  | tickDeliver (u : Fin 48) (k : Fin 16)
  /-- DONE_COMPLETION (R247) -/
  | doneCompletion (u : Fin 48) (k : Fin 16) (dt : Fin 4000)
  /-- DEADLINE_MISS (R247) -/
  | deadlineMiss (u : Fin 48) (k : Fin 16) (dt : Fin 4000)
  /-- SLACK_TRANSFER (R248) -/
  | slackTransfer
  /-- CAPTURE_EDGE (R249) -/
  | captureEdge (u : Fin 48) (p : Fin 8) (level : Bool) (dt : Fin 4000)
  /-- CAPTURE_RECORD_TAKEN (R249) -/
  | captureRecordTaken (u : Fin 48)
  /-- SPOKE_SNAP (R242) -/
  | spokeSnap (u : Fin 48)
  /-- SPOKE_FLUSH (R242) -/
  | spokeFlush (u : Fin 48)
  /-- SPOKE_DISABLE (R245) -/
  | spokeDisable (u : Fin 48)
  /-- SOC_TRIGGER (R250), with its instant after the last update in picoseconds -/
  | socTrigger (c : Fin 8) (dt : Fin 4000 := 0)
  /-- CONVERSION_COMPLETE (R251) -/
  | conversionComplete (c : Fin 8) (code : BitVec 16)
  /-- RESULT_TAKEN (R252) -/
  | resultTaken (c : Fin 8)
  /-- DERAILLEUR_EVALUATE (R253) -/
  | derailleurEvaluate
  /-- DERAILLEUR_WINDOW_END (R254) -/
  | derailleurWindowEnd
  /-- VCORE_SLEW_STEP (R253) -/
  | vcoreSlewStep
  /-- CAP_CEILING_STEP (R255) -/
  | capCeilingStep (pin : BitVec 16) (pcore : BitVec 16)
  /-- THERMAL_CEILING_STEP (R255) -/
  | thermalCeilingStep
  /-- CAP_UNMET (R471) -/
  | capUnmet
  /-- FULL_LOAD_START (R278) -/
  | fullLoadStart
  /-- STARTUP_SELFTEST_DONE (R415) -/
  | startupSelftestDone (found : List TestFault) (wrOk : Bool)
  /-- MANIFEST_VERIFIED (R271) -/
  | manifestVerified (host : Option (List Byte))
  /-- CHUNK_RECEIVED (R272) -/
  | chunkReceived (read : Option (List Byte))
  /-- LOCK_PHASE_COMPLETE (R286) -/
  | lockPhaseComplete
  /-- LOCK_TIMEOUT (R287) -/
  | lockTimeout
  /-- PHASE_WAIT_EXPIRY (R286) -/
  | phaseWaitExpiry
  /-- REGION_ISOLATE_STEP (R300) -/
  | regionIsolateStep (n : Fin 16)
  /-- REGION_PHASE_ADVANCE (R304) -/
  | regionPhaseAdvance (set : BitVec 16) (late : Bool)
  /-- SEC_REVOKE_FIRST (R269) -/
  | secRevokeFirst
  /-- SEC_REVOKE_SECOND (R269) -/
  | secRevokeSecond (mask : BitVec 4)
  /-- REVOKE_PAIR_TIMEOUT (R269) -/
  | revokePairTimeout
  /-- LANE_SIGNAL_DETECT (R317) -/
  | laneSignalDetect (n : Fin 60)
  /-- LANE_CDR_LOCK (R317) -/
  | laneCdrLock (n : Fin 60)
  /-- TRAINING_FRAME_RECEIVED (R320) -/
  | trainingFrameReceived (n : Fin 60) (w : BitVec 64) (ctl : Bool) (eyeDone : Bool)
  /-- TRAIN_REQUEST_TIMEOUT (R321) -/
  | trainRequestTimeout (n : Fin 60)
  /-- LANE_TRAIN_COMPLETE (R321) -/
  | laneTrainComplete (n : Fin 60)
  /-- LANE_ALIGN_LOCK (R324) -/
  | laneAlignLock (n : Fin 60)
  /-- LANE_DESKEW_DONE (R324) -/
  | laneDeskewDone (g : Fin 12) (skew : BitVec 8)
  /-- LANE_STATE_TIMEOUT (R318) -/
  | laneStateTimeout (n : Fin 60)
  /-- LANE_RETRY (R318) -/
  | laneRetry (n : Fin 60)
  /-- GROUP_PLL_LOCK (R313) -/
  | groupPllLock (g : Fin 12)
  /-- GROUP_PLL_LOST (R313) -/
  | groupPllLost (g : Fin 12)
  /-- FILLER_RECEIVED (R316) -/
  | fillerReceived (n : Fin 60) (fill : Fin 33)
  /-- LANE_RX_WORD (R315) -/
  | laneRxWord (n : Fin 60) (d : BitVec 128) (sb : BitVec 16)
  /-- LANE_FAILURE (R330) -/
  | laneFailure (n : Fin 60) (cause : Fin 5)
  /-- SUBSTITUTION_SWITCH (R331) -/
  | substitutionSwitch (g : Fin 12)
  /-- SUBSTITUTION_TIMEOUT (R332) -/
  | substitutionTimeout (g : Fin 12)
  /-- PCIE_LANE_FAILOVER (R333) -/
  | pcieLaneFailover (n : Fin 60)
  /-- LANE_RESTART (R318) -/
  | laneRestart (n : Fin 60)
  /-- GROUP_RESTART (R318) -/
  | groupRestart (g : Fin 12)
  /-- LANE_SLIP (R324) -/
  | laneSlip (n : Fin 60)
  /-- LANE_ALIGNED (R324) -/
  | laneAligned (n : Fin 60)
  /-- LANE_SUBSTITUTE (R334) -/
  | laneSubstitute (n : Fin 60)
  /-- LANE_POWER_REQUEST (R328) -/
  | lanePowerRequest (n : Fin 60) (v : BitVec 2)
  /-- POWER_NOTICE_RECEIVED (R328) -/
  | powerNoticeReceived (n : Fin 60) (deep : Bool)
  /-- ADAPT_WINDOW (R326) -/
  | adaptWindow (n : Fin 60) (transitions : Fin 101) (fillers : Bool)
  /-- EYE_SCAN_START (R327) -/
  | eyeScanStart (n : Fin 60) (margin : Bool := false)
  /-- EYE_SCAN_DONE (R327) -/
  | eyeScanDone (n : Fin 60) (errors : BitVec 48)
  /-- EYE_MONITOR (R327) -/
  | eyeMonitor (n : Fin 60) (height : BitVec 8) (width : BitVec 8)
  /-- PORT_ENABLE (R342) -/
  | portEnable (p : Fin 4)
  /-- INIT_RECEIVED (R342) -/
  | initReceived (p : Fin 4) (allot : BitVec 32)
  /-- HEARTBEAT_SEND (R343) -/
  | heartbeatSend (p : Fin 4)
  /-- HEARTBEAT_RECEIVED (R343) -/
  | heartbeatReceived (p : Fin 4) (addr : BitVec 12)
  /-- HOP_FAULT (R343) -/
  | hopFault (p : Fin 4)
  /-- STRIPE (R344) -/
  | stripe (p : Fin 4) (mask : BitVec 4)
  /-- FRAME_HDR (R348) -/
  | frameHdr (p : Fin 4) (hdr : BitVec 56)
  /-- FRAME_TRAILER (R349) -/
  | frameTrailer (p : Fin 4) (payload : List (BitVec 8)) (e2e : BitVec 32) (hop : BitVec 32) (short : Bool)
  /-- PELOTON_ITEM_SEND (R350) -/
  | pelotonItemSend (q : Fin 32)
  /-- CREDIT (R358) -/
  | credit (p : Fin 4) (totals : BitVec 56)
  /-- CREDIT_RETURN (R358) -/
  | creditReturn (p : Fin 4)
  /-- DELAY_MEASURE (R364) -/
  | delayMeasure (p : Fin 4)
  /-- DELAY_REQ (R364) -/
  | delayReq (p : Fin 4) (id : BitVec 8) (turnaround : BitVec 32)
  /-- DELAY_RESP (R364) -/
  | delayResp (p : Fin 4) (id : BitVec 8) (turnaround : BitVec 32) (roundTrip : BitVec 32)
  /-- PEL_LEDGER (R360) -/
  | pelLedger (p : Fin 4)
  /-- LEDGER_MARK (R360) -/
  | ledgerMark (p : Fin 4)
  /-- LEDGER_ANS (R360) -/
  | ledgerAns (p : Fin 4) (held : BitVec 44)
  /-- LEDGER_TIMEOUT (R360) -/
  | ledgerTimeout (p : Fin 4)
  /-- PEL_FLUSH (R361) -/
  | pelFlush (p : Fin 4)
  /-- PHASE_SEND (R362) -/
  | phaseSend
  /-- PHASE_RECEIVED (R363) -/
  | phaseReceived (p : Fin 4) (hdr : BitVec 56) (payload : List (BitVec 8)) (e2e : BitVec 32) (hop : BitVec 32) (stamp : BitVec 64) (t : BitVec 32)
  /-- PEL_ENUM (R352) -/
  | pelEnum
  /-- ENUM_TRIGGER_DELAY (R352) -/
  | enumTriggerDelay
  /-- ENUM (R352) -/
  | enum (second : Bool := false)
  /-- ENUM_REPLY (R352) -/
  | enumReply
  /-- ENUM_DONE (R352) -/
  | enumDone
  /-- MGMT_READ (R356) -/
  | mgmtRead
  /-- MGMT_WRITE (R356) -/
  | mgmtWrite
  /-- COMPLETION (R356) -/
  | completion
  /-- MGMT_EVENT (R394) -/
  | mgmtEvent
  /-- HANDBACK (R368) -/
  | handback
  /-- PEL_HANDBACK_WRITE (R368) -/
  | pelHandbackWrite
  /-- LEAD_LISTEN_END (R366) -/
  | leadListenEnd
  /-- LEAD_LOST (R367) -/
  | leadLost
  /-- DOORBELL (R380) -/
  | doorbell (off : BitVec 19) (v : BitVec 32) (read : Bool := false)
  /-- DESCRIPTOR_FETCHED (R377) -/
  | descriptorFetched (n : Fin 96) (raw : List Byte)
  /-- STALE_RECHECK (R381) -/
  | staleRecheck (n : Fin 96) (raw : List Byte)
  /-- H2F_DATA_READ (R383) -/
  | h2fDataRead (r : Fin 32) (data : List Byte)
  /-- F2H_WORD_POP (R384) -/
  | f2hWordPop (r : Fin 32)
  /-- DMA_ERROR (R385) -/
  | dmaError (n : Fin 96) (what : DmaAccess)
  /-- IRQ_COALESCE_TIMEOUT (R382) -/
  | irqCoalesceTimeout (n : Fin 96)
  /-- RING_ENABLE (R395) -/
  | ringEnable (n : Fin 96) (v : BitVec 32)
  /-- RING_DISABLE (R395) -/
  | ringDisable (n : Fin 96)
  /-- ADMIN_FETCH (R387) -/
  | adminFetch (raw : List Byte)
  /-- QUERY (R387) -/
  | query
  /-- LOAD_FULL (R278) -/
  | loadFull (list : List Byte)
  /-- LOAD_PARTIAL (R298) -/
  | loadPartial (list : List Byte)
  /-- ACTIVATE_REGION (R306) -/
  | activateRegion
  /-- ISOLATE_REGION (R306) -/
  | isolateRegion
  /-- CAD_TABLE_WRITE (R230) -/
  | cadTableWrite (data : List Byte)
  /-- CAD_SOURCE_SWITCH (R223) -/
  | cadSourceSwitch
  /-- BIST_RUN (R417) -/
  | bistRun (found : List TestFault)
  /-- BIST_REPORT (R418) -/
  | bistReport
  /-- SCRUB_REPORT (R387) -/
  | scrubReport
  /-- SPARE_MAP (R432) -/
  | spareMap
  /-- SPARE_MAP_RESET (R433) -/
  | spareMapReset (ok : Bool)
  /-- SETTINGS_WRITE (R392) -/
  | settingsWrite (data : List Byte) (ok : Bool)
  /-- MODE_REQUEST_HOLD (R393) -/
  | modeRequestHold
  /-- MODE_REQUEST_RESTART (R393) -/
  | modeRequestRestart
  /-- ATTEST (R493) -/
  | attest (nonce : List Byte)
  /-- NOP_COMMAND (R387) -/
  | nopCommand
  /-- ADMIN_COMMAND_DONE (R388) -/
  | adminCommandDone
  /-- MAILBOX_GO (R397) -/
  | mailboxGo (op : BitVec 8)
  /-- FUNCTION_LEVEL_RESET (R396) -/
  | functionLevelReset
  /-- LINK_DOWN (R396) -/
  | linkDown
  /-- GROOMER_FRAME_CHECK (R399) -/
  | groomerFrameCheck (n : Fin 16) (col : BitVec 8) (minor : BitVec 8) (flips : BitVec 4096) (out : Option (Fin 3)) (latch : Bool) (last : Bool)
      (held : Bool := false)
  /-- MBU_REPAIR_DONE (R402) -/
  | mbuRepairDone (addr : BitVec 20)
  /-- SCRUB_OVERRUN (R406) -/
  | scrubOverrun (n : Fin 16)
  /-- COLUMN_TEST_START (R412) -/
  | columnTestStart
  /-- COLUMN_TEST_DONE (R408) -/
  | columnTestDone (ok : Bool)
  /-- COLUMN_DIAGNOSIS_DONE (R408) -/
  | columnDiagnosisDone (row : Fin 72) (cell : Fin 32) (bit : Fin 112)
  /-- MIGRATION_COPY_DONE (R411) -/
  | migrationCopyDone
  /-- MIGRATION (R411) -/
  | migration
  /-- WINDOW_WAIT_EXPIRY (R410) -/
  | windowWaitExpiry (n : Fin 16)
  /-- MORAINE_SUBSTITUTION (R427) -/
  | moraineSubstitution
  /-- UNIT_RETIRE (R428) -/
  | unitRetire (u : RetUnit)
  /-- REPAIR_MAP_WRITE (R430) -/
  | repairMapWrite (ok : Bool)
  /-- LOCKSTEP_ARM (R423) -/
  | lockstepArm (k : Fin 8) (v : BitVec 32)
  /-- LOCKSTEP_COMPARE (R424) -/
  | lockstepCompare (k : Fin 8) (tap : Fin 64)
  /-- LOCKSTEP_SHORT_GROUP (R424) -/
  | lockstepShortGroup (k : Fin 8) (tap : Fin 64)
  /-- LOCKSTEP_LAG (R424) -/
  | lockstepLag (k : Fin 8) (tap : Fin 64) (byTime : Bool)
  /-- PIN_CLAIM_EVALUATE (R440) -/
  | pinClaimEvaluate
  /-- PIN_FUNCTION_SWITCH (R447) -/
  | pinFunctionSwitch (p : Fin 64)
  /-- PIN_SET (R444) -/
  | pinSet (port : Fin 4) (mask : BitVec 16)
  /-- PIN_CLR (R444) -/
  | pinClr (port : Fin 4) (mask : BitVec 16)
  /-- PIN_LOCK_FIRST (R446) -/
  | pinLockFirst (port : Fin 4)
  /-- PIN_LOCK_SECOND (R446) -/
  | pinLockSecond (port : Fin 4) (mask : BitVec 16)
  /-- PIN_LOCK_TIMEOUT (R446) -/
  | pinLockTimeout
  /-- PIN_IRQ_EDGE (R445) -/
  | pinIrqEdge (n : Fin 16) (rising : Bool)
  /-- SHORT_DETECT (R448) -/
  | shortDetect (fabric : Bool) (pin : Fin 384) (sensed : Bool)
  /-- OPEN_WIRE_TEST (R449) -/
  | openWireTest (found : BitVec 64)
  /-- BANK_SUPPLY_CHANGE (R451) -/
  | bankSupplyChange (b : Fin 8) (mv : BitVec 12)
  /-- UART_TX (R454) -/
  | uartTx (k : Fin 2) (b : BitVec 8)
  /-- UART_BYTE_RECEIVED (R454) -/
  | uartByteReceived (k : Fin 2) (b : BitVec 8) (ferr : Bool) (perr : Bool) (brk : Bool)
  /-- UART_RX (R461) -/
  | uartRx (k : Fin 2)
  /-- SPI_TX (R455) -/
  | spiTx (k : Fin 2) (w : BitVec 32)
  /-- SPI_WORD_DONE (R455) -/
  | spiWordDone (k : Fin 2) (w : BitVec 32)
  /-- SPI_RX (R461) -/
  | spiRx (k : Fin 2)
  /-- I2C_CMD (R456) -/
  | i2cCmd (k : Fin 2) (v : BitVec 32) (low : Bool := false)
  /-- I2C_TRANSACTION_END (R456) -/
  | i2cTransactionEnd (k : Fin 2) (nack : Bool) (arb : Bool) (timeout : Bool) (data : List (BitVec 8))
  /-- I2C_RX (R461) -/
  | i2cRx (k : Fin 2)
  /-- SSI_TRIG (R457) -/
  | ssiTrig (k : Fin 2)
  /-- SSI_PERIOD (R457) -/
  | ssiPeriod (k : Fin 2)
  /-- SSI_READ_DONE (R457) -/
  | ssiReadDone (k : Fin 2) (raw : BitVec 32) (startHigh : Bool) (endLow : Bool)
  /-- SSI_POS_READ (R457) -/
  | ssiPosRead (p : Path) (k : Fin 2)
  /-- TRACK_ANGLE_READ (R210) -/
  | trackAngleRead (p : Path) (t : Fin 8)
  /-- LO_READ_CAPTURE (R522) -/
  | loReadCapture (p : Path) (i : Fin 57)
  /-- COUNTER_CLEAR (R521) -/
  | counterClear (p : Path) (off : BitVec 24)
  /-- REGISTER_WRITE (R10) -/
  | registerWrite (p : Path) (off : BitVec 24) (v : BitVec 32)
  /-- BAR_BAD_ACCESS (R516) -/
  | barBadAccess (b : Bar) (off : BitVec 32)
  /-- FRAME_READBACK (R88) -/
  | frameReadback (p : Path) (n : Fin 16) (col : BitVec 8) (minor : BitVec 8)
  /-- TAP_INTERNAL_TEST (R490) -/
  | tapInternalTest
  /-- CONSOLE_LINE (R480) -/
  | consoleLine (line : List Byte) (env : ConEnv)
  /-- CONSOLE_PIN_DETECT (R479) -/
  | consolePinDetect (onTx : Bool)
  /-- CONSOLE_BREAK (R481) -/
  | consoleBreak
  /-- BAUD_REVERT (R481) -/
  | baudRevert
  /-- CONSOLE_STOP_OUTPUT (R480) -/
  | consoleStopOutput
  /-- HELP (R483) -/
  | help (w : Bool)
  /-- STATUS (R483) -/
  | status (w : Bool)
  /-- LOG (R483) -/
  | log (n : Nat) (w : Bool)
  /-- SPARE (R483) -/
  | spare (w : Bool)
  /-- REPORT (R483) -/
  | report (kind : RepKind) (w : Bool)
  /-- LANE (R483) -/
  | lane (n : Nat) (restart : Bool) (w : Bool)
  /-- PIN (R483) -/
  | pin (p : Fin 64) (w : Bool)
  /-- METER (R487) -/
  | meter (src : BitVec 4) (i : Nat) (w : Bool)
  /-- RD (R483) -/
  | rd (off : Nat) (w : Bool)
  /-- WR (R483) -/
  | wr (off : Nat) (v : Nat) (w : Bool)
  /-- ADMIN (R483) -/
  | admin (op : Nat) (a0 : Nat) (a1 : Nat) (a2 : Nat) (a3 : Nat) (w : Bool)
  /-- CONSOLE_LOAD (R483) -/
  | consoleLoad (golden : Bool) (w : Bool)
  /-- CONSOLE_LOAD_PARTIAL (R483) -/
  | consoleLoadPartial (set : Nat) (entry : Nat) (act : Bool) (w : Bool)
  /-- CONSOLE_ISOLATE_REGION (R483) -/
  | consoleIsolateRegion (set : Nat) (w : Bool)
  /-- CONSOLE_ACTIVATE_REGION (R483) -/
  | consoleActivateRegion (set : Nat) (w : Bool)
  /-- HOLD (R483) -/
  | hold (w : Bool)
  /-- RESTART (R483) -/
  | restart (w : Bool)
  /-- CONSOLE_ATTEST (R493) -/
  | consoleAttest (nonce : List Byte) (w : Bool)
  /-- FUSE_HASH (R484) -/
  | fuseHash (line : List Byte) (w : Bool)
  /-- FUSE_KEY (R484) -/
  | fuseKey (line : List Byte) (w : Bool)
  /-- FUSE_ENC (R484) -/
  | fuseEnc (line : List Byte) (w : Bool)
  /-- FUSE_REVOKE (R484) -/
  | fuseRevoke (line : List Byte) (w : Bool)
  /-- FUSE_CLOSE (R491) -/
  | fuseClose (line : List Byte) (w : Bool)
  /-- CONFIRM (R484) -/
  | confirm (v : BitVec 16) (blown : Option (List Byte)) (w : Bool)
  /-- CONFIRM_TIMEOUT (R484) -/
  | confirmTimeout
  /-- BAUD (R481) -/
  | baud (rate : Nat) (w : Bool)
  /-- ECHO (R480) -/
  | echo (on : Bool) (w : Bool)
  /-- EVT (R480) -/
  | evt (on : Bool) (w : Bool)
  /-- TEST_SUP (R489) -/
  | testSup (w : Bool)
  /-- TEST_FUSE (R489) -/
  | testFuse (w : Bool)
  /-- TEST_SM (R489) -/
  | testSm (w : Bool)
  /-- TEST_IMAGE (R489) -/
  | testImage (golden : Bool) (w : Bool)
  /-- TEST_PLL (R489) -/
  | testPll (w : Bool)
  /-- TEST_SCRUB (R489) -/
  | testScrub (w : Bool)
  /-- TEST_BIST (R489) -/
  | testBist (w : Bool)
  /-- TEST_HARD (R489) -/
  | testHard (set : Nat) (found : List TestFault) (w : Bool)
  /-- TEST_LS (R489) -/
  | testLs (k : Nat) (w : Bool)
  /-- TEST_SRC (R489) -/
  | testSrc (n : Nat) (w : Bool)
  /-- TEST_OWT (R489) -/
  | testOwt (p : Fin 64) (isOpen : Bool) (w : Bool)
  /-- TEST_PAD (R489) -/
  | testPad (u : Nat) (w : Bool)
  /-- TEST_LANE (R489) -/
  | testLane (n : Nat) (w : Bool)
  /-- TEST_PCIE (R489) -/
  | testPcie (w : Bool)
  /-- TEST_PEL (R489) -/
  | testPel (p : Nat) (w : Bool)
  /-- TEST_SPARE (R489) -/
  | testSpare (w : Bool)
  /-- METER_UPDATE (R485) -/
  | meterUpdate (rail : BitVec 16)
  /-- INPUT_LIMIT (R469) -/
  | inputLimit (vin : BitVec 16)
  /-- INIT_BLOCK_SEND (R342) -/
  | initBlockSend (p : Fin 4)
  /-- PCIE_LINK_UP (R323) -/
  | pcieLinkUp (speed : Fin 4) (width : Fin 4) (reversed : Bool := false) (inv : BitVec 8 := 0)
  /-- BUS_MASTER_ENABLE (R374) -/
  | busMasterEnable (on : Bool) (cfg : CfgAccess := .command)
  /-- UART_BYTE_SENT (R454) -/
  | uartByteSent (k : Fin 2)
  /-- FIELD_TEST_END (R489) -/
  | fieldTestEnd
  deriving DecidableEq, Repr

end Sys2Proof
end

