-- ==== Sys2Proof/Config.lean ====
section
/-! DEFINITION. What an implementation fixes and the spec does not: the free values, and the cryptographic functions that the spec
takes from other standards. None has a body, so that nothing proved of the model rests on a value of them. -/

namespace Sys2Proof

/-- An open value of the spec: the n-th one drawn (State.freeCtr counts them). -/
opaque Config.freeValue : Nat → Nat

/-- What the configuration space of the endpoint reads where Table 13.1 gives no register (log entry 162). -/
opaque Config.freeConfig : Nat → BitVec 32

/-- The value that a long-track segment with two drivers delivers (R101), by its key and the free values drawn before. -/
opaque Config.contention : Nat → Nat → BitVec 2

/-- SHA-384 (R268, R271, R272, R493), as bytes. -/
opaque Config.sha384 : List Byte → List Byte

/-- HMAC-SHA-384 of key and message (R273, R430, R492). -/
opaque Config.hmac384 : List Byte → List Byte → List Byte

/-- Ed25519 verification of RFC 8032: public key, message, signature (R271). -/
opaque Config.ed25519Verify : List Byte → List Byte → List Byte → Bool

/-- ML-DSA-65 verification of FIPS 204 with a context string: public key, context, message, signature (R271). -/
opaque Config.mlDsaVerify : List Byte → List Byte → List Byte → List Byte → Bool

/-- Ed25519 public key of a private key, and signature (R492, R493). -/
opaque Config.ed25519Public : List Byte → List Byte
opaque Config.ed25519Sign : List Byte → List Byte → List Byte

/-- ML-DSA-65 public key of a seed, and signature under a context string (R492, R493). -/
opaque Config.mlDsaPublic : List Byte → List Byte
opaque Config.mlDsaSign : List Byte → List Byte → List Byte → List Byte

/-- AES-256-GCM opening: key, IV, additional data, ciphertext with its tag; none where the tag fails (R272, R273). -/
opaque Config.gcmOpen : List Byte → List Byte → List Byte → List Byte → Option (List Byte)

/-- AES-256-GCM sealing: key, IV, additional data, plaintext; ciphertext with its tag (R391). -/
opaque Config.gcmSeal : List Byte → List Byte → List Byte → List Byte → List Byte

/-- The nonce that the security engine draws for the n-th store (R391). -/
opaque Config.storeNonce : Nat → List Byte

/-- The input power in milliwatts at which the averaged VCORE current equals a number of milliamperes, at a VCORE code: the VCORE term
of the effective cap (R469). The spec gives no conversion efficiency for it. -/
opaque Config.vcoreInputPower : Nat → Nat → Nat

/-- Whether a product of the observer (R204), a rational number given as numerator and denominator, is taken up to the next unit of the
estimate or down: the spec states the gains and no rounding. -/
opaque Config.observerUp : Int → Int → Bool

/-- The CTLE and DFE values of a receiver, in steps, that its adaptation comes to (R321, R326): how many there are and what moves them is
left open. -/
opaque Config.eqTaps : Nat → List Int

/-- The converter code at which a phase source takes its signal as zero: R197 works with an amplitude in converter LSB, and R504 makes the
code linear from 0 V up; the zero between them is not stated. -/
opaque Config.phaseZero : Int

/-- The phase of an excitation channel at update 0, in 1/250,000,000 of its period (R198): the spec locks it to the timebase and does not
state it. -/
opaque Config.excitationPhase : Nat → Nat

/-- Single-phase MAINS (R199): the sample that the angle of a source's bound track predicts at the sample instant, whose amplitude the spec
leaves open, and the fraction of X that a passed sample gives there. -/
opaque Config.mainsPredicted : Nat → BitVec 32 → Int
opaque Config.mainsFraction : Int → BitVec 32 → BitVec 32

end Sys2Proof
end

