-- ==== Sys2Proof/Machine/Bytes.lean ====
section
/-! DEFINITION. Byte order (R4) and the check codes that the spec computes. -/

namespace Sys2Proof.Machine

/-- The n bytes of a number, least significant first (R4). -/
def le : Nat → Nat → List Byte
  | 0, _ => []
  | n + 1, v => BitVec.ofNat 8 v :: le n (v / 256)

/-- The number that bytes spell, least significant first (R4). -/
def leNat : List Byte → Nat
  | [] => 0
  | b :: bs => b.toNat + 256 * leNat bs

/-- The n bytes of a number, most significant first (the input strings of R273). -/
def be (n v : Nat) : List Byte := (le n v).reverse

/-- `n` bytes from an offset of a byte string, as a number (R4). -/
def fieldAt (bs : List Byte) (off n : Nat) : Nat := leNat ((bs.drop off).take n)

/-- `n` bytes from an offset of a byte string. -/
def slice (bs : List Byte) (off n : Nat) : List Byte := (bs.drop off).take n

/-- The bytes of an ASCII string. -/
def ascii (cs : List Nat) : List Byte := cs.map (BitVec.ofNat 8)

/-- One bit of a reflected CRC with polynomial `p` (bit-reversed). -/
def crcBit (p : Nat) (c : Nat) : Nat := if c % 2 = 1 then (c / 2) ^^^ p else c / 2

/-- One byte of a reflected CRC. -/
def crcByte (p : Nat) (c : Nat) (b : Byte) : Nat :=
  crcBit p (crcBit p (crcBit p (crcBit p (crcBit p (crcBit p (crcBit p (crcBit p (c ^^^ b.toNat))))))))

/-- The register of a reflected CRC after bytes. -/
def crcRun (p : Nat) : Nat → List Byte → Nat
  | c, [] => c
  | c, b :: bs => crcRun p (crcByte p c b) bs

/-- CRC-32C: Castagnoli polynomial 0x1EDC_6F41, reflected, initial value and final XOR 0xFFFF_FFFF (after R263). -/
def crc32c (bs : List Byte) : BitVec 32 := BitVec.ofNat 32 (crcRun 0x82F63B78 0xFFFFFFFF bs ^^^ 0xFFFFFFFF)

/-- CRC-32C of a message whose first part gave `c` (the empty first part gives 0). -/
def crc32cMore (c : BitVec 32) (bs : List Byte) : BitVec 32 :=
  BitVec.ofNat 32 (crcRun 0x82F63B78 (c.toNat ^^^ 0xFFFFFFFF) bs ^^^ 0xFFFFFFFF)

/-- The bytes of a frame: bit b lies in byte b / 8 at bit b mod 8 (Table 09.8). -/
def frameBytes (f : Frame) : List Byte := le 512 f.toNat

end Sys2Proof.Machine
end

