-- ==== Sys2Proof/Machine/Registers.lean ====
section
/-! DEFINITION. The register map: one field reference per register field of the spec (register, lowest bit, width), one
offset function per register, and the register table (pages of Table 19.1, fields by type, reset values), every line taken from
the register tables of the chapters (R10, R515, R519, R520). -/

namespace Sys2Proof.Machine

/-- A field of a register: the BAR0 offset of its register, its lowest bit and its width. -/
structure RF where
  off : Nat
  lo : Nat
  w : Nat
  deriving DecidableEq, Repr

/-- One register of a page (R10): its offset in the page, how many there are and their stride, the value it shows after a reset,
and the masks of its fields by type (Table 19.6). -/
structure RegRow where
  off : Nat
  cnt : Nat
  stride : Nat
  reset : Nat
  rw : Nat
  ro : Nat
  w1c : Nat
  w1s : Nat
  wo : Nat
  rwl : Nat
  rws : Nat
  deriving DecidableEq, Repr

/-- A page slot of Table 19.1: first offset, stride, number of pages, and the registers of one page. -/
structure RegPage where
  base : Nat
  stride : Nat
  count : Nat
  rows : List RegRow
  deriving DecidableEq, Repr

namespace R

/-- Table 02.10. -/
def REGION_WDG_CTL (n k : Nat) : Nat := 0x100800 + 0x10000 * n + 0x8 * k
/-- Table 02.11. -/
def REGION_WDG_STS (n k : Nat) : Nat := 0x100804 + 0x10000 * n + 0x8 * k
/-- Table 02.12. -/
def REGION_FREEZE (n : Nat) : Nat := 0x100900 + 0x10000 * n
/-- Table 02.13. -/
def REGION_CODE_ERR (n : Nat) : Nat := 0x100904 + 0x10000 * n
/-- Table 04.10. -/
def REGION_COLMAP (n : Nat) : Nat := 0x100A00 + 0x10000 * n
/-- Table 04.11. -/
def REGION_LT_CTL (n : Nat) : Nat := 0x100A04 + 0x10000 * n
/-- Table 04.12. -/
def REGION_LT_FAULT (n : Nat) : Nat := 0x100A08 + 0x10000 * n
/-- Table 04.13. -/
def REGION_ISO_STS (n : Nat) : Nat := 0x100A0C + 0x10000 * n
/-- Table 05.8. -/
def REGION_SPR_MAP (n k : Nat) : Nat := 0x100B00 + 0x10000 * n + 0x4 * k
/-- Table 05.9. -/
def REGION_FIRN_MAP (n k : Nat) : Nat := 0x100B10 + 0x10000 * n + 0x4 * k
/-- Table 05.10. -/
def REGION_FIRN_ECC (n : Nat) : Nat := 0x100B18 + 0x10000 * n
/-- Table 05.11. -/
def REGION_FIRN_UE (n : Nat) : Nat := 0x100B1C + 0x10000 * n
/-- Table 05.12. -/
def REGION_FIRN_COLL (n : Nat) : Nat := 0x100B20 + 0x10000 * n
/-- Table 05.13. -/
def REGION_MSCRUB (n : Nat) : Nat := 0x100B24 + 0x10000 * n
/-- Table 05.13. -/
def REGION_SPR_STS (n : Nat) : Nat := 0x100B28 + 0x10000 * n
/-- Table 06.8. -/
def XQ_CTL (n : Nat) : Nat := 0xA0000 + 0x400 * n
/-- Table 06.9. -/
def XQ_BIND (n : Nat) : Nat := 0xA0004 + 0x400 * n
/-- Table 06.10. -/
def XQ_STS (n : Nat) : Nat := 0xA0008 + 0x400 * n
/-- Table 06.11. -/
def XQ_PUSHED (n : Nat) : Nat := 0xA000C + 0x400 * n
/-- Table 06.11. -/
def XQ_POPPED (n : Nat) : Nat := 0xA0010 + 0x400 * n
/-- Table 06.11. -/
def XQ_FLUSHED (n : Nat) : Nat := 0xA0014 + 0x400 * n
/-- Table 06.11. -/
def XQ_DISCARD (n : Nat) : Nat := 0xA0018 + 0x400 * n
/-- Table 06.11. -/
def XQ_ERR (n : Nat) : Nat := 0xA001C + 0x400 * n
/-- Table 06.12. -/
def REGION_EVX_FIRE (n : Nat) : Nat := 0x100C00 + 0x10000 * n
/-- Table 06.12. -/
def REGION_EVX_STS (n : Nat) : Nat := 0x100C04 + 0x10000 * n
/-- Table 06.12. -/
def REGION_EVX_OUT (n k : Nat) : Nat := 0x100C10 + 0x10000 * n + 0x4 * k
/-- Table 06.12. -/
def REGION_EVX_IN (n k : Nat) : Nat := 0x100C30 + 0x10000 * n + 0x4 * k
/-- Table 06.13. -/
def SUP_CROSS_CTL : Nat := 0x400
/-- Table 06.13. -/
def SUP_CROSS_STS : Nat := 0x404
/-- Table 06.13. -/
def SUP_CROSS_ADDR : Nat := 0x408
/-- Table 07.8. -/
def CAD_CTL : Nat := 0x40000
/-- Table 07.8. -/
def CAD_STS : Nat := 0x40004
/-- Table 07.8. -/
def CAD_PEL_CTL : Nat := 0x40008
/-- Table 07.8. -/
def CAD_UPD_LO : Nat := 0x4000C
/-- Table 07.8. -/
def CAD_UPD_HI : Nat := 0x40010
/-- Table 07.9. -/
def CAD_SRC_CTL (k : Nat) : Nat := 0x40100 + 0x40 * k
/-- Table 07.9. -/
def CAD_SRC_ANA (k : Nat) : Nat := 0x40104 + 0x40 * k
/-- Table 07.9. -/
def CAD_SRC_EXC (k : Nat) : Nat := 0x40108 + 0x40 * k
/-- Table 07.9. -/
def CAD_SRC_COMP (k : Nat) : Nat := 0x4010C + 0x40 * k
/-- Table 07.9. -/
def CAD_SRC_LOSS (k : Nat) : Nat := 0x40110 + 0x40 * k
/-- Table 07.9. -/
def CAD_SRC_FREE (k : Nat) : Nat := 0x40114 + 0x40 * k
/-- Table 07.9. -/
def CAD_SRC_POS_LO (k : Nat) : Nat := 0x40118 + 0x40 * k
/-- Table 07.9. -/
def CAD_SRC_POS_HI (k : Nat) : Nat := 0x4011C + 0x40 * k
/-- Table 07.9. -/
def CAD_SRC_ZHOME (k : Nat) : Nat := 0x40120 + 0x40 * k
/-- Table 07.9. -/
def CAD_SRC_ZCAP (k : Nat) : Nat := 0x40124 + 0x40 * k
/-- Table 07.9. -/
def CAD_SRC_ZPER (k : Nat) : Nat := 0x40128 + 0x40 * k
/-- Table 07.9. -/
def CAD_SRC_STS (k : Nat) : Nat := 0x4012C + 0x40 * k
/-- Table 07.10. -/
def CAD_TRK_CTL (k : Nat) : Nat := 0x40400 + 0x80 * k
/-- Table 07.10. -/
def CAD_TRK_DIV (k : Nat) : Nat := 0x40404 + 0x80 * k
/-- Table 07.10. -/
def CAD_TRK_OFS (k : Nat) : Nat := 0x40408 + 0x80 * k
/-- Table 07.10. -/
def CAD_TRK_COAST (k : Nat) : Nat := 0x4040C + 0x80 * k
/-- Table 07.10. -/
def CAD_TRK_LIM (k : Nat) : Nat := 0x40410 + 0x80 * k
/-- Table 07.10. -/
def CAD_TRK_STEP (k : Nat) : Nat := 0x40414 + 0x80 * k
/-- Table 07.10. -/
def CAD_TRK_ANG (k : Nat) : Nat := 0x40418 + 0x80 * k
/-- Table 07.10. -/
def CAD_TRK_TURN (k : Nat) : Nat := 0x4041C + 0x80 * k
/-- Table 07.10. -/
def CAD_TRK_VEL (k : Nat) : Nat := 0x40420 + 0x80 * k
/-- Table 07.10. -/
def CAD_TRK_ERR (k : Nat) : Nat := 0x40424 + 0x80 * k
/-- Table 07.10. -/
def CAD_TRK_DREM (k : Nat) : Nat := 0x40428 + 0x80 * k
/-- Table 07.10. -/
def CAD_TRK_STS (k : Nat) : Nat := 0x4042C + 0x80 * k
/-- Table 07.10. -/
def CAD_TRK_ADJ (k : Nat) : Nat := 0x40430 + 0x80 * k
/-- Table 07.10. -/
def CAD_TRK_SW (k : Nat) : Nat := 0x40434 + 0x80 * k
/-- Table 07.10. -/
def CAD_TRK_SWDIV (k : Nat) : Nat := 0x40438 + 0x80 * k
/-- Table 07.10. -/
def CAD_TRK_SWOFS (k : Nat) : Nat := 0x4043C + 0x80 * k
/-- Table 08.7. -/
def SPK_CTL (n : Nat) : Nat := 0x50000 + 0x1000 * n
/-- Table 08.7. -/
def SPK_STS (n : Nat) : Nat := 0x50004 + 0x1000 * n
/-- Table 08.7. -/
def SPK_PUSH_LO (n : Nat) : Nat := 0x50008 + 0x1000 * n
/-- Table 08.7. -/
def SPK_PUSH_HI (n : Nat) : Nat := 0x5000C + 0x1000 * n
/-- Table 08.7. -/
def SPK_HEAD_LO (n : Nat) : Nat := 0x50010 + 0x1000 * n
/-- Table 08.7. -/
def SPK_HEAD_HI (n : Nat) : Nat := 0x50014 + 0x1000 * n
/-- Table 08.7. -/
def SPK_WRITTEN (n : Nat) : Nat := 0x50018 + 0x1000 * n
/-- Table 08.7. -/
def SPK_FIRED (n : Nat) : Nat := 0x5001C + 0x1000 * n
/-- Table 08.7. -/
def SPK_DROPPED (n : Nat) : Nat := 0x50020 + 0x1000 * n
/-- Table 08.7. -/
def SPK_LATE (n : Nat) : Nat := 0x50024 + 0x1000 * n
/-- Table 08.7. -/
def SPK_PINCFG (n k : Nat) : Nat := 0x50028 + 0x1000 * n + 0x4 * k
/-- Table 08.7. -/
def SPK_PAIR (n : Nat) : Nat := 0x50030 + 0x1000 * n
/-- Table 08.7. -/
def SPK_TICK_STS (n : Nat) : Nat := 0x50034 + 0x1000 * n
/-- Table 08.7. -/
def SPK_MON_CNT (n : Nat) : Nat := 0x50038 + 0x1000 * n
/-- Table 08.7. -/
def SPK_MON_MIN (n : Nat) : Nat := 0x5003C + 0x1000 * n
/-- Table 08.7. -/
def SPK_SLACK (n k : Nat) : Nat := 0x50040 + 0x1000 * n + 0x4 * k
/-- Table 08.8. -/
def ADC_CTL (k : Nat) : Nat := 0x80000 + 0x40 * k
/-- Table 08.8. -/
def ADC_STS (k : Nat) : Nat := 0x80004 + 0x40 * k
/-- Table 08.8. -/
def ADC_LAST (k : Nat) : Nat := 0x80008 + 0x40 * k
/-- Table 08.9. -/
def PWR_DRL_CTL : Nat := 0x2E0200
/-- Table 08.9. -/
def PWR_DRL_TGT : Nat := 0x2E0204
/-- Table 08.9. -/
def PWR_DRL_VLIM : Nat := 0x2E0208
/-- Table 08.9. -/
def PWR_DRL_WIN : Nat := 0x2E020C
/-- Table 08.9. -/
def PWR_DRL_STS : Nat := 0x2E0210
/-- Table 08.9. -/
def PWR_DRL_SMIN : Nat := 0x2E0214
/-- Table 08.9. -/
def PWR_DRL_CNT : Nat := 0x2E0218
/-- Table 09.16. -/
def LDR_CTL : Nat := 0x10000
/-- Table 09.16. -/
def LDR_STS : Nat := 0x10004
/-- Table 09.16. -/
def LDR_ERR : Nat := 0x10008
/-- Table 09.16. -/
def LDR_ERRPOS : Nat := 0x1000C
/-- Table 09.16. -/
def LDR_FRAMES : Nat := 0x10010
/-- Table 09.16. -/
def LDR_SKIPPED : Nat := 0x10014
/-- Table 09.16. -/
def LDR_MAN : Nat := 0x10018
/-- Table 09.16. -/
def LDR_DESIGN : Nat := 0x1001C
/-- Table 09.16. -/
def LDR_IMGVER : Nat := 0x10020
/-- Table 09.16. -/
def LDR_TIME : Nat := 0x10024
/-- Table 09.16. -/
def LDR_STRAP : Nat := 0x10028
/-- Table 09.17. -/
def SEC_FUSE_STS : Nat := 0x10800
/-- Table 09.17. -/
def SEC_REVOKE : Nat := 0x10804
/-- Table 10.8. -/
def REGION_PR_STS (n : Nat) : Nat := 0x100D00 + 0x10000 * n
/-- Table 10.8. -/
def REGION_PR_ERR (n : Nat) : Nat := 0x100D04 + 0x10000 * n
/-- Table 10.8. -/
def REGION_PR_IMG (n : Nat) : Nat := 0x100D08 + 0x10000 * n
/-- Table 10.8. -/
def REGION_PR_VER (n : Nat) : Nat := 0x100D0C + 0x10000 * n
/-- Table 10.8. -/
def REGION_PR_TIME (n : Nat) : Nat := 0x100D10 + 0x10000 * n
/-- Table 11.10. -/
def GRP_CTL (n : Nat) : Nat := 0x240000 + 0x1000 * n
/-- Table 11.10. -/
def GRP_RATE (n : Nat) : Nat := 0x240004 + 0x1000 * n
/-- Table 11.10. -/
def GRP_REF (n : Nat) : Nat := 0x240008 + 0x1000 * n
/-- Table 11.10. -/
def GRP_STS (n : Nat) : Nat := 0x24000C + 0x1000 * n
/-- Table 11.10. -/
def GRP_MAP (n : Nat) : Nat := 0x240010 + 0x1000 * n
/-- Table 11.11. -/
def LANE_CTL (n : Nat) : Nat := 0x200000 + 0x1000 * n
/-- Table 11.11. -/
def LANE_STS (n : Nat) : Nat := 0x200004 + 0x1000 * n
/-- Table 11.11. -/
def LANE_FFE (n : Nat) : Nat := 0x200008 + 0x1000 * n
/-- Table 11.11. -/
def LANE_ERR (n : Nat) : Nat := 0x20000C + 0x1000 * n
/-- Table 11.11. -/
def LANE_RM (n : Nat) : Nat := 0x200010 + 0x1000 * n
/-- Table 11.11. -/
def LANE_RM_CNT (n : Nat) : Nat := 0x200014 + 0x1000 * n
/-- Table 11.11. -/
def LANE_ES_CTL (n : Nat) : Nat := 0x200018 + 0x1000 * n
/-- Table 11.11. -/
def LANE_ES_ERR (n : Nat) : Nat := 0x20001C + 0x1000 * n
/-- Table 11.11. -/
def LANE_EYE (n : Nat) : Nat := 0x200020 + 0x1000 * n
/-- Table 12.11. -/
def PEL_PCTL (n : Nat) : Nat := 0x280000 + 0x1000 * n
/-- Table 12.11. -/
def PEL_PSTS (n : Nat) : Nat := 0x280004 + 0x1000 * n
/-- Table 12.11. -/
def PEL_CRSPLIT (n : Nat) : Nat := 0x280008 + 0x1000 * n
/-- Table 12.11. -/
def PEL_DELAY (n : Nat) : Nat := 0x28000C + 0x1000 * n
/-- Table 12.11. -/
def PEL_ASYM (n : Nat) : Nat := 0x280010 + 0x1000 * n
/-- Table 12.11. -/
def PEL_ERR (n : Nat) : Nat := 0x280014 + 0x1000 * n
/-- Table 12.11. -/
def PEL_LEDGER (n k : Nat) : Nat := 0x280020 + 0x1000 * n + 0x4 * k
/-- Table 12.11. -/
def PEL_RANGE (n : Nat) : Nat := 0x280030 + 0x1000 * n
/-- Table 12.11. -/
def PEL_FRAMES_TX (n : Nat) : Nat := 0x280034 + 0x1000 * n
/-- Table 12.11. -/
def PEL_FRAMES_RX (n : Nat) : Nat := 0x280038 + 0x1000 * n
/-- Table 12.12. -/
def PEL_CFG : Nat := 0x280800
/-- Table 12.12. -/
def PEL_ADDR : Nat := 0x280804
/-- Table 12.12. -/
def PEL_CTL : Nat := 0x280808
/-- Table 12.12. -/
def PEL_PHASE : Nat := 0x28080C
/-- Table 12.12. -/
def PEL_AGE : Nat := 0x280810
/-- Table 12.12. -/
def PEL_RTIME_LO : Nat := 0x280814
/-- Table 12.12. -/
def PEL_RTIME_HI : Nat := 0x280818
/-- Table 13.12. -/
def HIF_STS : Nat := 0x20000
/-- Table 13.12. -/
def HIF_EVT_MASK : Nat := 0x20004
/-- Table 13.12. -/
def HIF_EVT_LOST : Nat := 0x20008
/-- Table 13.12. -/
def HIF_MBOX_CMD : Nat := 0x20100
/-- Table 13.12. -/
def HIF_MBOX_ARG (k : Nat) : Nat := 0x20104 + 0x4 * k
/-- Table 13.12. -/
def HIF_MBOX_DET : Nat := 0x20114
/-- Table 13.12. -/
def HIF_MBOX_RES (k : Nat) : Nat := 0x20118 + 0x4 * k
/-- Table 13.13. -/
def HIF_RING_BASE_LO (k : Nat) : Nat := 0x21000 + 0x40 * k
/-- Table 13.13. -/
def HIF_RING_BASE_HI (k : Nat) : Nat := 0x21004 + 0x40 * k
/-- Table 13.13. -/
def HIF_RING_CFG (k : Nat) : Nat := 0x21008 + 0x40 * k
/-- Table 13.13. -/
def HIF_RING_STS (k : Nat) : Nat := 0x2100C + 0x40 * k
/-- Table 13.13. -/
def HIF_RING_CNT (k : Nat) : Nat := 0x21010 + 0x40 * k
/-- Table 13.13. -/
def HIF_RING_OWN (k : Nat) : Nat := 0x21014 + 0x40 * k
/-- Table 14.12. -/
def GRM_CFG : Nat := 0x2C0000
/-- Table 14.12. -/
def GRM_STS : Nat := 0x2C0004
/-- Table 14.12. -/
def GRM_SBU : Nat := 0x2C0008
/-- Table 14.12. -/
def GRM_MBU : Nat := 0x2C000C
/-- Table 14.12. -/
def GRM_MBU_POS : Nat := 0x2C0010
/-- Table 14.12. -/
def GRM_SELF : Nat := 0x2C0014
/-- Table 14.12. -/
def GRM_PERSIST : Nat := 0x2C0018
/-- Table 14.12. -/
def GRM_RCYC (k : Nat) : Nat := 0x2C0040 + 0x4 * k
/-- Table 14.13. -/
def FLT_LS_CTL (k : Nat) : Nat := 0x2C0100 + 0x10 * k
/-- Table 14.13. -/
def FLT_LS_STS (k : Nat) : Nat := 0x2C0104 + 0x10 * k
/-- Table 14.13. -/
def FLT_LS_POS (k : Nat) : Nat := 0x2C0108 + 0x10 * k
/-- Table 14.14. -/
def FLT_MOR_STS : Nat := 0x2C0200
/-- Table 14.14. -/
def FLT_RET_REG : Nat := 0x2C0204
/-- Table 14.14. -/
def FLT_RET_SPK0 : Nat := 0x2C0208
/-- Table 14.14. -/
def FLT_RET_SPK1 : Nat := 0x2C020C
/-- Table 14.14. -/
def FLT_RET_MISC : Nat := 0x2C0210
/-- Table 14.15. -/
def BIST_CTL : Nat := 0x2D0000
/-- Table 14.15. -/
def BIST_STS : Nat := 0x2D0004
/-- Table 14.15. -/
def BIST_PASS : Nat := 0x2D0008
/-- Table 14.15. -/
def BIST_PAT : Nat := 0x2D000C
/-- Table 14.15. -/
def BIST_LAST : Nat := 0x2D0010
/-- Table 14.15. -/
def BIST_WAIT : Nat := 0x2D0014
/-- Table 14.15. -/
def BIST_WIN_CTL (k : Nat) : Nat := 0x2D0100 + 0x10 * k
/-- Table 14.15. -/
def BIST_WIN_START (k : Nat) : Nat := 0x2D0104 + 0x10 * k
/-- Table 14.15. -/
def BIST_WIN_END (k : Nat) : Nat := 0x2D0108 + 0x10 * k
/-- Table 15.7. -/
def PIN_CFG (k : Nat) : Nat := 0x90000 + 0x4 * k
/-- Table 15.7. -/
def PIN_IN (k : Nat) : Nat := 0x90100 + 0x4 * k
/-- Table 15.7. -/
def PIN_OUT (k : Nat) : Nat := 0x90110 + 0x4 * k
/-- Table 15.7. -/
def PIN_SET (k : Nat) : Nat := 0x90120 + 0x4 * k
/-- Table 15.7. -/
def PIN_CLR (k : Nat) : Nat := 0x90130 + 0x4 * k
/-- Table 15.7. -/
def PIN_LOCK (k : Nat) : Nat := 0x90140 + 0x4 * k
/-- Table 15.7. -/
def PIN_IRQ_SEL : Nat := 0x90180
/-- Table 15.7. -/
def PIN_IRQ_EDGE : Nat := 0x90184
/-- Table 15.7. -/
def PIN_IRQ_STS : Nat := 0x90188
/-- Table 15.7. -/
def PIN_OWT_CFG : Nat := 0x90190
/-- Table 15.7. -/
def PER_EN : Nat := 0x90200
/-- Table 15.7. -/
def PER_CONFLICT : Nat := 0x90204
/-- Table 15.7. -/
def UART_CFG (k : Nat) : Nat := 0x90400 + 0x40 * k
/-- Table 15.7. -/
def UART_TX (k : Nat) : Nat := 0x90404 + 0x40 * k
/-- Table 15.7. -/
def UART_RX (k : Nat) : Nat := 0x90408 + 0x40 * k
/-- Table 15.7. -/
def UART_STS (k : Nat) : Nat := 0x9040C + 0x40 * k
/-- Table 15.7. -/
def SPI_CFG (k : Nat) : Nat := 0x90500 + 0x40 * k
/-- Table 15.7. -/
def SPI_TX (k : Nat) : Nat := 0x90504 + 0x40 * k
/-- Table 15.7. -/
def SPI_RX (k : Nat) : Nat := 0x90508 + 0x40 * k
/-- Table 15.7. -/
def SPI_STS (k : Nat) : Nat := 0x9050C + 0x40 * k
/-- Table 15.7. -/
def I2C_CFG (k : Nat) : Nat := 0x90600 + 0x40 * k
/-- Table 15.7. -/
def I2C_CMD (k : Nat) : Nat := 0x90604 + 0x40 * k
/-- Table 15.7. -/
def I2C_TX (k : Nat) : Nat := 0x90608 + 0x40 * k
/-- Table 15.7. -/
def I2C_RX (k : Nat) : Nat := 0x9060C + 0x40 * k
/-- Table 15.7. -/
def I2C_STS (k : Nat) : Nat := 0x90610 + 0x40 * k
/-- Table 15.7. -/
def SSI_CFG (k : Nat) : Nat := 0x90700 + 0x40 * k
/-- Table 15.7. -/
def SSI_CTL (k : Nat) : Nat := 0x90704 + 0x40 * k
/-- Table 15.7. -/
def SSI_POS (k : Nat) : Nat := 0x90708 + 0x40 * k
/-- Table 15.7. -/
def SSI_STAMP_LO (k : Nat) : Nat := 0x9070C + 0x40 * k
/-- Table 15.7. -/
def SSI_STAMP_HI (k : Nat) : Nat := 0x90710 + 0x40 * k
/-- Table 15.7. -/
def SSI_STS (k : Nat) : Nat := 0x90714 + 0x40 * k
/-- Table 15.7. -/
def BANK_CFG (k : Nat) : Nat := 0x90800 + 0x10 * k
/-- Table 15.7. -/
def BANK_DIFF (k : Nat) : Nat := 0x90804 + 0x10 * k
/-- Table 15.7. -/
def BANK_PINV (k : Nat) : Nat := 0x90808 + 0x10 * k
/-- Table 15.8. -/
def SPK_PAD (n k : Nat) : Nat := 0x50080 + 0x1000 * n + 0x4 * k
/-- Table 16.6. -/
def PWR_CAP : Nat := 0x2E0000
/-- Table 16.6. -/
def PWR_STS : Nat := 0x2E0004
/-- Table 16.6. -/
def PWR_VIN : Nat := 0x2E0008
/-- Table 16.6. -/
def PWR_PIN : Nat := 0x2E000C
/-- Table 16.6. -/
def PWR_TEMP : Nat := 0x2E0010
/-- Table 16.6. -/
def PWR_RAIL : Nat := 0x2E0014
/-- Table 16.6. -/
def PWR_PHASE : Nat := 0x2E0018
/-- Table 17.8. -/
def SUP_SVC_CFG : Nat := 0x600
/-- Table 17.8. -/
def SUP_SVC_STS : Nat := 0x604
/-- Table 17.8. -/
def SUP_MTR_CTL : Nat := 0x608
/-- Table 17.8. -/
def SUP_MTR_STS : Nat := 0x60C
/-- Table 19.3. -/
def SYS_ID : Nat := 0x0
/-- Table 19.4. -/
def SUP_MODE : Nat := 0x10
/-- Table 19.5. -/
def SYS_SERIAL_LO : Nat := 0x4
/-- Table 19.5. -/
def SYS_SERIAL_HI : Nat := 0x8
/-- Table 19.5. -/
def SUP_TIME_LO : Nat := 0x14
/-- Table 19.5. -/
def SUP_TIME_HI : Nat := 0x18
/-- Table 19.5. -/
def SUP_RESET : Nat := 0x1C

end R

namespace F

def REGION_WDG_CTL_limit (n k : Nat) : RF := ⟨(R.REGION_WDG_CTL n k), 0, 24⟩
def REGION_WDG_CTL_arm_first (n k : Nat) : RF := ⟨(R.REGION_WDG_CTL n k), 28, 1⟩
def REGION_WDG_CTL_reaction (n k : Nat) : RF := ⟨(R.REGION_WDG_CTL n k), 29, 1⟩
def REGION_WDG_CTL_enable (n k : Nat) : RF := ⟨(R.REGION_WDG_CTL n k), 31, 1⟩
def REGION_WDG_STS_elapsed (n k : Nat) : RF := ⟨(R.REGION_WDG_STS n k), 0, 24⟩
def REGION_WDG_STS_tapped (n k : Nat) : RF := ⟨(R.REGION_WDG_STS n k), 29, 1⟩
def REGION_WDG_STS_held (n k : Nat) : RF := ⟨(R.REGION_WDG_STS n k), 30, 1⟩
def REGION_WDG_STS_stalled (n k : Nat) : RF := ⟨(R.REGION_WDG_STS n k), 31, 1⟩
def REGION_FREEZE_freeze (n : Nat) : RF := ⟨(R.REGION_FREEZE n), 0, 1⟩
def REGION_FREEZE_settled (n : Nat) : RF := ⟨(R.REGION_FREEZE n), 1, 1⟩
def REGION_FREEZE_hold_freeze (n : Nat) : RF := ⟨(R.REGION_FREEZE n), 2, 1⟩
def REGION_CODE_ERR_count (n : Nat) : RF := ⟨(R.REGION_CODE_ERR n), 0, 16⟩
def REGION_CODE_ERR_clear (n : Nat) : RF := ⟨(R.REGION_CODE_ERR n), 31, 1⟩
def REGION_COLMAP_moving (n : Nat) : RF := ⟨(R.REGION_COLMAP n), 31, 1⟩
def REGION_COLMAP_gap (n j : Nat) : RF := ⟨(R.REGION_COLMAP n), 0 + 8 * j, 5⟩
def REGION_COLMAP_ret (n j : Nat) : RF := ⟨(R.REGION_COLMAP n), 5 + 8 * j, 1⟩
def REGION_LT_CTL_reaction (n : Nat) : RF := ⟨(R.REGION_LT_CTL n), 0, 1⟩
def REGION_LT_FAULT_track (n : Nat) : RF := ⟨(R.REGION_LT_FAULT n), 0, 5⟩
def REGION_LT_FAULT_vertical (n : Nat) : RF := ⟨(R.REGION_LT_FAULT n), 5, 1⟩
def REGION_LT_FAULT_segment (n : Nat) : RF := ⟨(R.REGION_LT_FAULT n), 6, 2⟩
def REGION_LT_FAULT_line (n : Nat) : RF := ⟨(R.REGION_LT_FAULT n), 8, 7⟩
def REGION_LT_FAULT_count (n : Nat) : RF := ⟨(R.REGION_LT_FAULT n), 16, 8⟩
def REGION_LT_FAULT_valid (n : Nat) : RF := ⟨(R.REGION_LT_FAULT n), 31, 1⟩
def REGION_ISO_STS_nbr_iso (n : Nat) : RF := ⟨(R.REGION_ISO_STS n), 0, 4⟩
def REGION_ISO_STS_busy (n : Nat) : RF := ⟨(R.REGION_ISO_STS n), 4, 4⟩
def REGION_ISO_STS_own_cut (n : Nat) : RF := ⟨(R.REGION_ISO_STS n), 8, 1⟩
def REGION_SPR_MAP_gap (n k j : Nat) : RF := ⟨(R.REGION_SPR_MAP n k), 0 + 8 * j, 4⟩
def REGION_SPR_MAP_ret (n k j : Nat) : RF := ⟨(R.REGION_SPR_MAP n k), 4 + 8 * j, 1⟩
def REGION_FIRN_MAP_gap (n k j : Nat) : RF := ⟨(R.REGION_FIRN_MAP n k), 0 + 8 * j, 5⟩
def REGION_FIRN_MAP_ret (n k j : Nat) : RF := ⟨(R.REGION_FIRN_MAP n k), 5 + 8 * j, 1⟩
def REGION_FIRN_ECC_corrected (n : Nat) : RF := ⟨(R.REGION_FIRN_ECC n), 0, 16⟩
def REGION_FIRN_ECC_uncorrectable (n : Nat) : RF := ⟨(R.REGION_FIRN_ECC n), 16, 8⟩
def REGION_FIRN_ECC_clear (n : Nat) : RF := ⟨(R.REGION_FIRN_ECC n), 31, 1⟩
def REGION_FIRN_UE_row (n : Nat) : RF := ⟨(R.REGION_FIRN_UE n), 0, 9⟩
def REGION_FIRN_UE_block (n : Nat) : RF := ⟨(R.REGION_FIRN_UE n), 9, 7⟩
def REGION_FIRN_UE_column (n : Nat) : RF := ⟨(R.REGION_FIRN_UE n), 16, 1⟩
def REGION_FIRN_UE_source (n : Nat) : RF := ⟨(R.REGION_FIRN_UE n), 17, 2⟩
def REGION_FIRN_UE_valid (n : Nat) : RF := ⟨(R.REGION_FIRN_UE n), 31, 1⟩
def REGION_FIRN_COLL_count (n : Nat) : RF := ⟨(R.REGION_FIRN_COLL n), 0, 24⟩
def REGION_FIRN_COLL_clear (n : Nat) : RF := ⟨(R.REGION_FIRN_COLL n), 31, 1⟩
def REGION_MSCRUB_period (n : Nat) : RF := ⟨(R.REGION_MSCRUB n), 0, 6⟩
def REGION_MSCRUB_pass (n : Nat) : RF := ⟨(R.REGION_MSCRUB n), 6, 1⟩
def REGION_MSCRUB_enable (n : Nat) : RF := ⟨(R.REGION_MSCRUB n), 7, 1⟩
def REGION_SPR_STS_slice (n : Nat) : RF := ⟨(R.REGION_SPR_STS n), 0, 6⟩
def REGION_SPR_STS_column (n : Nat) : RF := ⟨(R.REGION_SPR_STS n), 6, 2⟩
def REGION_SPR_STS_count (n : Nat) : RF := ⟨(R.REGION_SPR_STS n), 8, 8⟩
def REGION_SPR_STS_valid (n : Nat) : RF := ⟨(R.REGION_SPR_STS n), 31, 1⟩
def XQ_CTL_enable (n : Nat) : RF := ⟨(R.XQ_CTL n), 0, 1⟩
def XQ_CTL_flush (n : Nat) : RF := ⟨(R.XQ_CTL n), 1, 1⟩
def XQ_CTL_pause (n : Nat) : RF := ⟨(R.XQ_CTL n), 2, 1⟩
def XQ_CTL_clr_cnt (n : Nat) : RF := ⟨(R.XQ_CTL n), 3, 1⟩
def XQ_CTL_lvl_thr (n : Nat) : RF := ⟨(R.XQ_CTL n), 16, 9⟩
def XQ_BIND_kind (n : Nat) : RF := ⟨(R.XQ_BIND n), 0, 3⟩
def XQ_BIND_index (n : Nat) : RF := ⟨(R.XQ_BIND n), 3, 5⟩
def XQ_BIND_vc (n : Nat) : RF := ⟨(R.XQ_BIND n), 8, 2⟩
def XQ_STS_wview (n : Nat) : RF := ⟨(R.XQ_STS n), 0, 10⟩
def XQ_STS_rview (n : Nat) : RF := ⟨(R.XQ_STS n), 10, 10⟩
def XQ_STS_full (n : Nat) : RF := ⟨(R.XQ_STS n), 20, 1⟩
def XQ_STS_empty (n : Nat) : RF := ⟨(R.XQ_STS n), 21, 1⟩
def XQ_STS_flushing (n : Nat) : RF := ⟨(R.XQ_STS n), 22, 1⟩
def XQ_STS_paused (n : Nat) : RF := ⟨(R.XQ_STS n), 23, 1⟩
def XQ_STS_open_w (n : Nat) : RF := ⟨(R.XQ_STS n), 24, 1⟩
def XQ_STS_open_r (n : Nat) : RF := ⟨(R.XQ_STS n), 25, 1⟩
def XQ_STS_clk_stopped (n : Nat) : RF := ⟨(R.XQ_STS n), 26, 1⟩
def XQ_STS_level (n : Nat) : RF := ⟨(R.XQ_STS n), 27, 1⟩
def XQ_STS_far_reset (n : Nat) : RF := ⟨(R.XQ_STS n), 28, 1⟩
def XQ_STS_offer (n : Nat) : RF := ⟨(R.XQ_STS n), 29, 1⟩
def XQ_PUSHED_count (n : Nat) : RF := ⟨(R.XQ_PUSHED n), 0, 32⟩
def XQ_POPPED_count (n : Nat) : RF := ⟨(R.XQ_POPPED n), 0, 32⟩
def XQ_FLUSHED_count (n : Nat) : RF := ⟨(R.XQ_FLUSHED n), 0, 32⟩
def XQ_DISCARD_count (n : Nat) : RF := ⟨(R.XQ_DISCARD n), 0, 32⟩
def XQ_ERR_perr (n : Nat) : RF := ⟨(R.XQ_ERR n), 0, 16⟩
def XQ_ERR_clear (n : Nat) : RF := ⟨(R.XQ_ERR n), 31, 1⟩
def REGION_EVX_FIRE_fire (n : Nat) : RF := ⟨(R.REGION_EVX_FIRE n), 0, 8⟩
def REGION_EVX_STS_in_sat (n : Nat) : RF := ⟨(R.REGION_EVX_STS n), 0, 8⟩
def REGION_EVX_STS_out_sat (n : Nat) : RF := ⟨(R.REGION_EVX_STS n), 8, 8⟩
def REGION_EVX_STS_in_busy (n : Nat) : RF := ⟨(R.REGION_EVX_STS n), 16, 8⟩
def REGION_EVX_OUT_count (n k : Nat) : RF := ⟨(R.REGION_EVX_OUT n k), 0, 32⟩
def REGION_EVX_IN_pending (n k : Nat) : RF := ⟨(R.REGION_EVX_IN n k), 0, 8⟩
def REGION_EVX_IN_delivered (n k : Nat) : RF := ⟨(R.REGION_EVX_IN n k), 8, 24⟩
def SUP_CROSS_CTL_hang_limit : RF := ⟨R.SUP_CROSS_CTL, 0, 10⟩
def SUP_CROSS_CTL_force_en : RF := ⟨R.SUP_CROSS_CTL, 16, 1⟩
def SUP_CROSS_STS_forced : RF := ⟨R.SUP_CROSS_STS, 0, 16⟩
def SUP_CROSS_STS_hangs : RF := ⟨R.SUP_CROSS_STS, 16, 8⟩
def SUP_CROSS_STS_dead : RF := ⟨R.SUP_CROSS_STS, 24, 1⟩
def SUP_CROSS_STS_valid : RF := ⟨R.SUP_CROSS_STS, 31, 1⟩
def SUP_CROSS_ADDR_addr : RF := ⟨R.SUP_CROSS_ADDR, 0, 24⟩
def SUP_CROSS_ADDR_write : RF := ⟨R.SUP_CROSS_ADDR, 24, 1⟩
def CAD_CTL_halt_all : RF := ⟨R.CAD_CTL, 0, 1⟩
def CAD_STS_pll_lock : RF := ⟨R.CAD_STS, 0, 1⟩
def CAD_STS_pll_lost : RF := ⟨R.CAD_STS, 1, 1⟩
def CAD_STS_src_valid : RF := ⟨R.CAD_STS, 4, 4⟩
def CAD_STS_trk_coast : RF := ⟨R.CAD_STS, 8, 8⟩
def CAD_STS_trk_halt : RF := ⟨R.CAD_STS, 16, 8⟩
def CAD_PEL_CTL_tx_en : RF := ⟨R.CAD_PEL_CTL, 0, 1⟩
def CAD_PEL_CTL_tx_track : RF := ⟨R.CAD_PEL_CTL, 1, 3⟩
def CAD_UPD_LO_count : RF := ⟨R.CAD_UPD_LO, 0, 32⟩
def CAD_UPD_HI_count : RF := ⟨R.CAD_UPD_HI, 0, 32⟩
def CAD_SRC_CTL_enable (k : Nat) : RF := ⟨(R.CAD_SRC_CTL k), 0, 1⟩
def CAD_SRC_CTL_type (k : Nat) : RF := ⟨(R.CAD_SRC_CTL k), 1, 3⟩
def CAD_SRC_CTL_unit (k : Nat) : RF := ⟨(R.CAD_SRC_CTL k), 4, 2⟩
def CAD_SRC_CTL_dir_inv (k : Nat) : RF := ⟨(R.CAD_SRC_CTL k), 6, 1⟩
def CAD_SRC_CTL_exp_dir (k : Nat) : RF := ⟨(R.CAD_SRC_CTL k), 7, 1⟩
def CAD_SRC_CTL_dir_chk (k : Nat) : RF := ⟨(R.CAD_SRC_CTL k), 8, 1⟩
def CAD_SRC_CTL_z_en (k : Nat) : RF := ⟨(R.CAD_SRC_CTL k), 9, 1⟩
def CAD_SRC_CTL_z_home (k : Nat) : RF := ⟨(R.CAD_SRC_CTL k), 10, 1⟩
def CAD_SRC_CTL_flt (k : Nat) : RF := ⟨(R.CAD_SRC_CTL k), 11, 5⟩
def CAD_SRC_CTL_z_tol (k : Nat) : RF := ⟨(R.CAD_SRC_CTL k), 16, 8⟩
def CAD_SRC_ANA_conv_a (k : Nat) : RF := ⟨(R.CAD_SRC_ANA k), 0, 3⟩
def CAD_SRC_ANA_mux_a (k : Nat) : RF := ⟨(R.CAD_SRC_ANA k), 3, 2⟩
def CAD_SRC_ANA_b_en (k : Nat) : RF := ⟨(R.CAD_SRC_ANA k), 5, 1⟩
def CAD_SRC_ANA_conv_b (k : Nat) : RF := ⟨(R.CAD_SRC_ANA k), 6, 3⟩
def CAD_SRC_ANA_mux_b (k : Nat) : RF := ⟨(R.CAD_SRC_ANA k), 9, 2⟩
def CAD_SRC_ANA_rate_div (k : Nat) : RF := ⟨(R.CAD_SRC_ANA k), 16, 8⟩
def CAD_SRC_EXC_f_ex (k : Nat) : RF := ⟨(R.CAD_SRC_EXC k), 0, 15⟩
def CAD_SRC_EXC_pwm (k : Nat) : RF := ⟨(R.CAD_SRC_EXC k), 16, 2⟩
def CAD_SRC_COMP_comp (k : Nat) : RF := ⟨(R.CAD_SRC_COMP k), 0, 32⟩
def CAD_SRC_LOSS_loss_win (k : Nat) : RF := ⟨(R.CAD_SRC_LOSS k), 0, 7⟩
def CAD_SRC_LOSS_lo (k : Nat) : RF := ⟨(R.CAD_SRC_LOSS k), 8, 8⟩
def CAD_SRC_LOSS_hi (k : Nat) : RF := ⟨(R.CAD_SRC_LOSS k), 16, 8⟩
def CAD_SRC_FREE_freq (k : Nat) : RF := ⟨(R.CAD_SRC_FREE k), 0, 32⟩
def CAD_SRC_POS_LO_x (k : Nat) : RF := ⟨(R.CAD_SRC_POS_LO k), 0, 32⟩
def CAD_SRC_POS_HI_x (k : Nat) : RF := ⟨(R.CAD_SRC_POS_HI k), 0, 32⟩
def CAD_SRC_ZHOME_home (k : Nat) : RF := ⟨(R.CAD_SRC_ZHOME k), 0, 32⟩
def CAD_SRC_ZCAP_cap (k : Nat) : RF := ⟨(R.CAD_SRC_ZCAP k), 0, 32⟩
def CAD_SRC_ZPER_per (k : Nat) : RF := ⟨(R.CAD_SRC_ZPER k), 0, 32⟩
def CAD_SRC_STS_valid (k : Nat) : RF := ⟨(R.CAD_SRC_STS k), 0, 1⟩
def CAD_SRC_STS_low_speed (k : Nat) : RF := ⟨(R.CAD_SRC_STS k), 1, 1⟩
def CAD_SRC_STS_homed (k : Nat) : RF := ⟨(R.CAD_SRC_STS k), 2, 1⟩
def CAD_SRC_STS_conflict (k : Nat) : RF := ⟨(R.CAD_SRC_STS k), 3, 1⟩
def CAD_SRC_STS_lost (k : Nat) : RF := ⟨(R.CAD_SRC_STS k), 4, 1⟩
def CAD_SRC_STS_illegal (k : Nat) : RF := ⟨(R.CAD_SRC_STS k), 5, 1⟩
def CAD_SRC_STS_amp_fault (k : Nat) : RF := ⟨(R.CAD_SRC_STS k), 6, 1⟩
def CAD_SRC_STS_unwrap (k : Nat) : RF := ⟨(R.CAD_SRC_STS k), 7, 1⟩
def CAD_SRC_STS_z_err (k : Nat) : RF := ⟨(R.CAD_SRC_STS k), 8, 1⟩
def CAD_SRC_STS_dir_err (k : Nat) : RF := ⟨(R.CAD_SRC_STS k), 9, 1⟩
def CAD_SRC_STS_meas (k : Nat) : RF := ⟨(R.CAD_SRC_STS k), 16, 16⟩
def CAD_TRK_CTL_enable (k : Nat) : RF := ⟨(R.CAD_TRK_CTL k), 0, 1⟩
def CAD_TRK_CTL_src (k : Nat) : RF := ⟨(R.CAD_TRK_CTL k), 1, 2⟩
def CAD_TRK_CTL_bw (k : Nat) : RF := ⟨(R.CAD_TRK_CTL k), 3, 4⟩
def CAD_TRK_CTL_damp (k : Nat) : RF := ⟨(R.CAD_TRK_CTL k), 7, 1⟩
def CAD_TRK_CTL_lock_wait (k : Nat) : RF := ⟨(R.CAD_TRK_CTL k), 8, 1⟩
def CAD_TRK_CTL_rearm (k : Nat) : RF := ⟨(R.CAD_TRK_CTL k), 9, 1⟩
def CAD_TRK_CTL_halt (k : Nat) : RF := ⟨(R.CAD_TRK_CTL k), 10, 1⟩
def CAD_TRK_CTL_mul (k : Nat) : RF := ⟨(R.CAD_TRK_CTL k), 16, 16⟩
def CAD_TRK_DIV_div (k : Nat) : RF := ⟨(R.CAD_TRK_DIV k), 0, 24⟩
def CAD_TRK_DIV_ovs (k : Nat) : RF := ⟨(R.CAD_TRK_DIV k), 24, 8⟩
def CAD_TRK_OFS_offset (k : Nat) : RF := ⟨(R.CAD_TRK_OFS k), 0, 32⟩
def CAD_TRK_COAST_angle (k : Nat) : RF := ⟨(R.CAD_TRK_COAST k), 0, 32⟩
def CAD_TRK_LIM_coast_time (k : Nat) : RF := ⟨(R.CAD_TRK_LIM k), 0, 16⟩
def CAD_TRK_LIM_slew (k : Nat) : RF := ⟨(R.CAD_TRK_LIM k), 16, 16⟩
def CAD_TRK_STEP_step_max (k : Nat) : RF := ⟨(R.CAD_TRK_STEP k), 0, 32⟩
def CAD_TRK_ANG_angle (k : Nat) : RF := ⟨(R.CAD_TRK_ANG k), 0, 32⟩
def CAD_TRK_TURN_turn (k : Nat) : RF := ⟨(R.CAD_TRK_TURN k), 0, 32⟩
def CAD_TRK_VEL_vel (k : Nat) : RF := ⟨(R.CAD_TRK_VEL k), 0, 32⟩
def CAD_TRK_ERR_err (k : Nat) : RF := ⟨(R.CAD_TRK_ERR k), 0, 32⟩
def CAD_TRK_DREM_rem (k : Nat) : RF := ⟨(R.CAD_TRK_DREM k), 0, 32⟩
def CAD_TRK_STS_state (k : Nat) : RF := ⟨(R.CAD_TRK_STS k), 0, 3⟩
def CAD_TRK_STS_switching (k : Nat) : RF := ⟨(R.CAD_TRK_STS k), 3, 1⟩
def CAD_TRK_STS_slewing (k : Nat) : RF := ⟨(R.CAD_TRK_STS k), 4, 1⟩
def CAD_TRK_STS_bw_eff (k : Nat) : RF := ⟨(R.CAD_TRK_STS k), 6, 4⟩
def CAD_TRK_STS_halt_cause (k : Nat) : RF := ⟨(R.CAD_TRK_STS k), 12, 4⟩
def CAD_TRK_STS_lost (k : Nat) : RF := ⟨(R.CAD_TRK_STS k), 16, 1⟩
def CAD_TRK_STS_ovs (k : Nat) : RF := ⟨(R.CAD_TRK_STS k), 17, 1⟩
def CAD_TRK_STS_step (k : Nat) : RF := ⟨(R.CAD_TRK_STS k), 18, 1⟩
def CAD_TRK_ADJ_adj (k : Nat) : RF := ⟨(R.CAD_TRK_ADJ k), 0, 32⟩
def CAD_TRK_SW_src (k : Nat) : RF := ⟨(R.CAD_TRK_SW k), 0, 2⟩
def CAD_TRK_SW_align (k : Nat) : RF := ⟨(R.CAD_TRK_SW k), 2, 1⟩
def CAD_TRK_SW_go (k : Nat) : RF := ⟨(R.CAD_TRK_SW k), 3, 1⟩
def CAD_TRK_SW_busy (k : Nat) : RF := ⟨(R.CAD_TRK_SW k), 4, 1⟩
def CAD_TRK_SW_result (k : Nat) : RF := ⟨(R.CAD_TRK_SW k), 5, 2⟩
def CAD_TRK_SW_timeout (k : Nat) : RF := ⟨(R.CAD_TRK_SW k), 8, 8⟩
def CAD_TRK_SW_mul (k : Nat) : RF := ⟨(R.CAD_TRK_SW k), 16, 16⟩
def CAD_TRK_SWDIV_div (k : Nat) : RF := ⟨(R.CAD_TRK_SWDIV k), 0, 24⟩
def CAD_TRK_SWOFS_offset (k : Nat) : RF := ⟨(R.CAD_TRK_SWOFS k), 0, 32⟩
def SPK_CTL_enable (n : Nat) : RF := ⟨(R.SPK_CTL n), 0, 1⟩
def SPK_CTL_track (n : Nat) : RF := ⟨(R.SPK_CTL n), 1, 3⟩
def SPK_CTL_flush (n : Nat) : RF := ⟨(R.SPK_CTL n), 4, 1⟩
def SPK_CTL_snap (n : Nat) : RF := ⟨(R.SPK_CTL n), 5, 1⟩
def SPK_CTL_cap_flt (n : Nat) : RF := ⟨(R.SPK_CTL n), 6, 4⟩
def SPK_STS_occ (n : Nat) : RF := ⟨(R.SPK_STS n), 0, 7⟩
def SPK_STS_armed (n : Nat) : RF := ⟨(R.SPK_STS n), 7, 1⟩
def SPK_STS_parked (n : Nat) : RF := ⟨(R.SPK_STS n), 8, 1⟩
def SPK_STS_push_lost (n : Nat) : RF := ⟨(R.SPK_STS n), 9, 1⟩
def SPK_STS_cap_ovf (n : Nat) : RF := ⟨(R.SPK_STS n), 10, 1⟩
def SPK_STS_occ_snap (n : Nat) : RF := ⟨(R.SPK_STS n), 12, 7⟩
def SPK_PUSH_LO_entry (n : Nat) : RF := ⟨(R.SPK_PUSH_LO n), 0, 32⟩
def SPK_PUSH_HI_entry (n : Nat) : RF := ⟨(R.SPK_PUSH_HI n), 0, 32⟩
def SPK_HEAD_LO_entry (n : Nat) : RF := ⟨(R.SPK_HEAD_LO n), 0, 32⟩
def SPK_HEAD_HI_entry (n : Nat) : RF := ⟨(R.SPK_HEAD_HI n), 0, 32⟩
def SPK_WRITTEN_count (n : Nat) : RF := ⟨(R.SPK_WRITTEN n), 0, 32⟩
def SPK_FIRED_count (n : Nat) : RF := ⟨(R.SPK_FIRED n), 0, 32⟩
def SPK_DROPPED_count (n : Nat) : RF := ⟨(R.SPK_DROPPED n), 0, 32⟩
def SPK_LATE_late (n : Nat) : RF := ⟨(R.SPK_LATE n), 0, 16⟩
def SPK_LATE_ilk (n : Nat) : RF := ⟨(R.SPK_LATE n), 16, 15⟩
def SPK_LATE_clear (n : Nat) : RF := ⟨(R.SPK_LATE n), 31, 1⟩
def SPK_PINCFG_out (n k j : Nat) : RF := ⟨(R.SPK_PINCFG n k), 0 + 8 * j, 1⟩
def SPK_PINCFG_pol (n k j : Nat) : RF := ⟨(R.SPK_PINCFG n k), 1 + 8 * j, 1⟩
def SPK_PINCFG_park (n k j : Nat) : RF := ⟨(R.SPK_PINCFG n k), 2 + 8 * j, 2⟩
def SPK_PINCFG_cap_rise (n k j : Nat) : RF := ⟨(R.SPK_PINCFG n k), 4 + 8 * j, 1⟩
def SPK_PINCFG_cap_fall (n k j : Nat) : RF := ⟨(R.SPK_PINCFG n k), 5 + 8 * j, 1⟩
def SPK_PINCFG_level (n k j : Nat) : RF := ⟨(R.SPK_PINCFG n k), 7 + 8 * j, 1⟩
def SPK_PAIR_ilk (n : Nat) : RF := ⟨(R.SPK_PAIR n), 0, 4⟩
def SPK_PAIR_dead_min (n : Nat) : RF := ⟨(R.SPK_PAIR n), 4, 8⟩
def SPK_TICK_STS_ovr (n : Nat) : RF := ⟨(R.SPK_TICK_STS n), 0, 16⟩
def SPK_TICK_STS_spur (n : Nat) : RF := ⟨(R.SPK_TICK_STS n), 16, 16⟩
def SPK_MON_CNT_done (n : Nat) : RF := ⟨(R.SPK_MON_CNT n), 0, 16⟩
def SPK_MON_CNT_miss (n : Nat) : RF := ⟨(R.SPK_MON_CNT n), 16, 16⟩
def SPK_MON_MIN_slack (n : Nat) : RF := ⟨(R.SPK_MON_MIN n), 0, 16⟩
def SPK_MON_MIN_chan (n : Nat) : RF := ⟨(R.SPK_MON_MIN n), 16, 4⟩
def SPK_MON_MIN_clear (n : Nat) : RF := ⟨(R.SPK_MON_MIN n), 31, 1⟩
def SPK_SLACK_last0 (n k : Nat) : RF := ⟨(R.SPK_SLACK n k), 0, 16⟩
def SPK_SLACK_last1 (n k : Nat) : RF := ⟨(R.SPK_SLACK n k), 16, 16⟩
def ADC_CTL_enable (k : Nat) : RF := ⟨(R.ADC_CTL k), 0, 1⟩
def ADC_CTL_unit (k : Nat) : RF := ⟨(R.ADC_CTL k), 1, 6⟩
def ADC_CTL_slot (k : Nat) : RF := ⟨(R.ADC_CTL k), 7, 1⟩
def ADC_CTL_soc_en (k : Nat) : RF := ⟨(R.ADC_CTL k), 8, 1⟩
def ADC_STS_busy (k : Nat) : RF := ⟨(R.ADC_STS k), 0, 1⟩
def ADC_STS_held (k : Nat) : RF := ⟨(R.ADC_STS k), 1, 1⟩
def ADC_STS_pend (k : Nat) : RF := ⟨(R.ADC_STS k), 2, 1⟩
def ADC_STS_trig_lost (k : Nat) : RF := ⟨(R.ADC_STS k), 8, 8⟩
def ADC_STS_res_ovf (k : Nat) : RF := ⟨(R.ADC_STS k), 16, 8⟩
def ADC_STS_clear (k : Nat) : RF := ⟨(R.ADC_STS k), 31, 1⟩
def ADC_LAST_code (k : Nat) : RF := ⟨(R.ADC_LAST k), 0, 16⟩
def ADC_LAST_mux (k : Nat) : RF := ⟨(R.ADC_LAST k), 16, 2⟩
def PWR_DRL_CTL_enable : RF := ⟨R.PWR_DRL_CTL, 0, 1⟩
def PWR_DRL_CTL_idle_lower : RF := ⟨R.PWR_DRL_CTL, 1, 1⟩
def PWR_DRL_TGT_target : RF := ⟨R.PWR_DRL_TGT, 0, 16⟩
def PWR_DRL_TGT_hyst : RF := ⟨R.PWR_DRL_TGT, 16, 16⟩
def PWR_DRL_VLIM_v_min : RF := ⟨R.PWR_DRL_VLIM, 0, 7⟩
def PWR_DRL_VLIM_v_max : RF := ⟨R.PWR_DRL_VLIM, 8, 7⟩
def PWR_DRL_VLIM_v_fix : RF := ⟨R.PWR_DRL_VLIM, 16, 7⟩
def PWR_DRL_VLIM_up_step : RF := ⟨R.PWR_DRL_VLIM, 24, 4⟩
def PWR_DRL_WIN_window : RF := ⟨R.PWR_DRL_WIN, 0, 8⟩
def PWR_DRL_WIN_tj_lim : RF := ⟨R.PWR_DRL_WIN, 8, 8⟩
def PWR_DRL_STS_vcore : RF := ⟨R.PWR_DRL_STS, 0, 7⟩
def PWR_DRL_STS_demand : RF := ⟨R.PWR_DRL_STS, 8, 7⟩
def PWR_DRL_STS_ceiling : RF := ⟨R.PWR_DRL_STS, 16, 7⟩
def PWR_DRL_STS_limiter : RF := ⟨R.PWR_DRL_STS, 24, 2⟩
def PWR_DRL_STS_slewing : RF := ⟨R.PWR_DRL_STS, 26, 1⟩
def PWR_DRL_SMIN_smin : RF := ⟨R.PWR_DRL_SMIN, 0, 16⟩
def PWR_DRL_SMIN_samples : RF := ⟨R.PWR_DRL_SMIN, 16, 16⟩
def PWR_DRL_CNT_raises : RF := ⟨R.PWR_DRL_CNT, 0, 16⟩
def PWR_DRL_CNT_lowers : RF := ⟨R.PWR_DRL_CNT, 16, 16⟩
def LDR_CTL_golden_wr : RF := ⟨R.LDR_CTL, 0, 1⟩
def LDR_STS_state : RF := ⟨R.LDR_STS, 0, 4⟩
def LDR_STS_source : RF := ⟨R.LDR_STS, 4, 2⟩
def LDR_STS_fallback : RF := ⟨R.LDR_STS, 6, 1⟩
def LDR_STS_lock_late : RF := ⟨R.LDR_STS, 7, 1⟩
def LDR_STS_phases : RF := ⟨R.LDR_STS, 8, 4⟩
def LDR_STS_dir_copy : RF := ⟨R.LDR_STS, 12, 1⟩
def LDR_STS_dir_single : RF := ⟨R.LDR_STS, 13, 1⟩
def LDR_STS_set_copy : RF := ⟨R.LDR_STS, 14, 1⟩
def LDR_STS_set_single : RF := ⟨R.LDR_STS, 15, 1⟩
def LDR_ERR_code : RF := ⟨R.LDR_ERR, 0, 8⟩
def LDR_ERR_status : RF := ⟨R.LDR_ERR, 8, 8⟩
def LDR_ERR_chunk : RF := ⟨R.LDR_ERR, 16, 16⟩
def LDR_ERRPOS_addr : RF := ⟨R.LDR_ERRPOS, 0, 20⟩
def LDR_ERRPOS_valid : RF := ⟨R.LDR_ERRPOS, 31, 1⟩
def LDR_FRAMES_count : RF := ⟨R.LDR_FRAMES, 0, 32⟩
def LDR_SKIPPED_count : RF := ⟨R.LDR_SKIPPED, 0, 32⟩
def LDR_MAN_regions : RF := ⟨R.LDR_MAN, 0, 16⟩
def LDR_MAN_order : RF := ⟨R.LDR_MAN, 16, 8⟩
def LDR_MAN_key_slot : RF := ⟨R.LDR_MAN, 24, 2⟩
def LDR_MAN_key_sel : RF := ⟨R.LDR_MAN, 26, 2⟩
def LDR_DESIGN_design : RF := ⟨R.LDR_DESIGN, 0, 32⟩
def LDR_IMGVER_version : RF := ⟨R.LDR_IMGVER, 0, 32⟩
def LDR_TIME_us : RF := ⟨R.LDR_TIME, 0, 32⟩
def LDR_STRAP_pup : RF := ⟨R.LDR_STRAP, 0, 8⟩
def LDR_STRAP_vsel : RF := ⟨R.LDR_STRAP, 8, 1⟩
def SEC_FUSE_STS_hash_prog : RF := ⟨R.SEC_FUSE_STS, 0, 4⟩
def SEC_FUSE_STS_revoked : RF := ⟨R.SEC_FUSE_STS, 4, 4⟩
def SEC_FUSE_STS_cust_prog : RF := ⟨R.SEC_FUSE_STS, 8, 2⟩
def SEC_FUSE_STS_enc_required : RF := ⟨R.SEC_FUSE_STS, 10, 1⟩
def SEC_FUSE_STS_test_close : RF := ⟨R.SEC_FUSE_STS, 11, 1⟩
def SEC_FUSE_STS_rev_refused : RF := ⟨R.SEC_FUSE_STS, 12, 1⟩
def SEC_REVOKE_mask : RF := ⟨R.SEC_REVOKE, 0, 4⟩
def SEC_REVOKE_key : RF := ⟨R.SEC_REVOKE, 24, 8⟩
def REGION_PR_STS_state (n : Nat) : RF := ⟨(R.REGION_PR_STS n), 0, 3⟩
def REGION_PR_STS_cfg_valid (n : Nat) : RF := ⟨(R.REGION_PR_STS n), 3, 1⟩
def REGION_PR_STS_phases (n : Nat) : RF := ⟨(R.REGION_PR_STS n), 4, 4⟩
def REGION_PR_STS_lock_late (n : Nat) : RF := ⟨(R.REGION_PR_STS n), 8, 1⟩
def REGION_PR_STS_by_full (n : Nat) : RF := ⟨(R.REGION_PR_STS n), 9, 1⟩
def REGION_PR_STS_loads (n : Nat) : RF := ⟨(R.REGION_PR_STS n), 16, 8⟩
def REGION_PR_STS_fault (n : Nat) : RF := ⟨(R.REGION_PR_STS n), 31, 1⟩
def REGION_PR_ERR_code (n : Nat) : RF := ⟨(R.REGION_PR_ERR n), 0, 8⟩
def REGION_PR_ERR_status (n : Nat) : RF := ⟨(R.REGION_PR_ERR n), 8, 8⟩
def REGION_PR_ERR_chunk (n : Nat) : RF := ⟨(R.REGION_PR_ERR n), 16, 16⟩
def REGION_PR_IMG_design (n : Nat) : RF := ⟨(R.REGION_PR_IMG n), 0, 32⟩
def REGION_PR_VER_version (n : Nat) : RF := ⟨(R.REGION_PR_VER n), 0, 32⟩
def REGION_PR_TIME_us (n : Nat) : RF := ⟨(R.REGION_PR_TIME n), 0, 32⟩
def GRP_CTL_enable (n : Nat) : RF := ⟨(R.GRP_CTL n), 0, 1⟩
def GRP_CTL_pcs (n : Nat) : RF := ⟨(R.GRP_CTL n), 1, 2⟩
def GRP_CTL_bond (n : Nat) : RF := ⟨(R.GRP_CTL n), 3, 1⟩
def GRP_CTL_train (n : Nat) : RF := ⟨(R.GRP_CTL n), 4, 1⟩
def GRP_CTL_rate_match (n : Nat) : RF := ⟨(R.GRP_CTL n), 5, 1⟩
def GRP_CTL_spare_auto (n : Nat) : RF := ⟨(R.GRP_CTL n), 6, 1⟩
def GRP_CTL_ref_sel (n : Nat) : RF := ⟨(R.GRP_CTL n), 7, 1⟩
def GRP_CTL_restart (n : Nat) : RF := ⟨(R.GRP_CTL n), 8, 1⟩
def GRP_RATE_rate (n : Nat) : RF := ⟨(R.GRP_RATE n), 0, 25⟩
def GRP_REF_ref_khz (n : Nat) : RF := ⟨(R.GRP_REF n), 0, 19⟩
def GRP_STS_pll_lock (n : Nat) : RF := ⟨(R.GRP_STS n), 0, 1⟩
def GRP_STS_ready (n : Nat) : RF := ⟨(R.GRP_STS n), 1, 1⟩
def GRP_STS_reversed (n : Nat) : RF := ⟨(R.GRP_STS n), 2, 1⟩
def GRP_STS_spare_ok (n : Nat) : RF := ⟨(R.GRP_STS n), 3, 1⟩
def GRP_STS_retired (n : Nat) : RF := ⟨(R.GRP_STS n), 4, 1⟩
def GRP_STS_lane_ready (n : Nat) : RF := ⟨(R.GRP_STS n), 8, 4⟩
def GRP_STS_pll_lost (n : Nat) : RF := ⟨(R.GRP_STS n), 16, 1⟩
def GRP_STS_order_err (n : Nat) : RF := ⟨(R.GRP_STS n), 17, 1⟩
def GRP_STS_deskew_err (n : Nat) : RF := ⟨(R.GRP_STS n), 18, 1⟩
def GRP_MAP_spare (n : Nat) : RF := ⟨(R.GRP_MAP n), 12, 3⟩
def GRP_MAP_spare_none (n : Nat) : RF := ⟨(R.GRP_MAP n), 15, 1⟩
def GRP_MAP_phys (n j : Nat) : RF := ⟨(R.GRP_MAP n), 0 + 3 * j, 3⟩
def LANE_CTL_enable (n : Nat) : RF := ⟨(R.LANE_CTL n), 0, 1⟩
def LANE_CTL_rx_inv (n : Nat) : RF := ⟨(R.LANE_CTL n), 1, 1⟩
def LANE_CTL_tx_inv (n : Nat) : RF := ⟨(R.LANE_CTL n), 2, 1⟩
def LANE_CTL_power (n : Nat) : RF := ⟨(R.LANE_CTL n), 3, 2⟩
def LANE_CTL_restart (n : Nat) : RF := ⟨(R.LANE_CTL n), 5, 1⟩
def LANE_CTL_slip (n : Nat) : RF := ⟨(R.LANE_CTL n), 6, 1⟩
def LANE_CTL_aligned (n : Nat) : RF := ⟨(R.LANE_CTL n), 7, 1⟩
def LANE_CTL_substitute (n : Nat) : RF := ⟨(R.LANE_CTL n), 8, 1⟩
def LANE_STS_state (n : Nat) : RF := ⟨(R.LANE_STS n), 0, 4⟩
def LANE_STS_logical (n : Nat) : RF := ⟨(R.LANE_STS n), 4, 3⟩
def LANE_STS_pol_inv (n : Nat) : RF := ⟨(R.LANE_STS n), 7, 1⟩
def LANE_STS_sig_det (n : Nat) : RF := ⟨(R.LANE_STS n), 8, 1⟩
def LANE_STS_cdr_lock (n : Nat) : RF := ⟨(R.LANE_STS n), 9, 1⟩
def LANE_STS_align_lock (n : Nat) : RF := ⟨(R.LANE_STS n), 10, 1⟩
def LANE_STS_qualified (n : Nat) : RF := ⟨(R.LANE_STS n), 11, 1⟩
def LANE_STS_clamped (n : Nat) : RF := ⟨(R.LANE_STS n), 12, 1⟩
def LANE_STS_rx_pwr (n : Nat) : RF := ⟨(R.LANE_STS n), 13, 2⟩
def LANE_STS_pwr_refused (n : Nat) : RF := ⟨(R.LANE_STS n), 15, 1⟩
def LANE_STS_fail_cause (n : Nat) : RF := ⟨(R.LANE_STS n), 16, 4⟩
def LANE_STS_attempts (n : Nat) : RF := ⟨(R.LANE_STS n), 20, 4⟩
def LANE_FFE_pre (n : Nat) : RF := ⟨(R.LANE_FFE n), 0, 4⟩
def LANE_FFE_main (n : Nat) : RF := ⟨(R.LANE_FFE n), 4, 6⟩
def LANE_FFE_post (n : Nat) : RF := ⟨(R.LANE_FFE n), 10, 5⟩
def LANE_FFE_preset (n : Nat) : RF := ⟨(R.LANE_FFE n), 16, 4⟩
def LANE_ERR_code_err (n : Nat) : RF := ⟨(R.LANE_ERR n), 0, 12⟩
def LANE_ERR_rx_drop (n : Nat) : RF := ⟨(R.LANE_ERR n), 12, 8⟩
def LANE_ERR_tx_drop (n : Nat) : RF := ⟨(R.LANE_ERR n), 20, 8⟩
def LANE_ERR_elastic (n : Nat) : RF := ⟨(R.LANE_ERR n), 28, 3⟩
def LANE_ERR_clear (n : Nat) : RF := ⟨(R.LANE_ERR n), 31, 1⟩
def LANE_RM_fill (n : Nat) : RF := ⟨(R.LANE_RM n), 0, 5⟩
def LANE_RM_CNT_repeated (n : Nat) : RF := ⟨(R.LANE_RM_CNT n), 0, 16⟩
def LANE_RM_CNT_deleted (n : Nat) : RF := ⟨(R.LANE_RM_CNT n), 16, 16⟩
def LANE_ES_CTL_start (n : Nat) : RF := ⟨(R.LANE_ES_CTL n), 0, 1⟩
def LANE_ES_CTL_dwell (n : Nat) : RF := ⟨(R.LANE_ES_CTL n), 1, 5⟩
def LANE_ES_CTL_v (n : Nat) : RF := ⟨(R.LANE_ES_CTL n), 6, 6⟩
def LANE_ES_CTL_h (n : Nat) : RF := ⟨(R.LANE_ES_CTL n), 12, 7⟩
def LANE_ES_CTL_done (n : Nat) : RF := ⟨(R.LANE_ES_CTL n), 19, 1⟩
def LANE_ES_CTL_aborted (n : Nat) : RF := ⟨(R.LANE_ES_CTL n), 20, 1⟩
def LANE_ES_ERR_errors (n : Nat) : RF := ⟨(R.LANE_ES_ERR n), 0, 32⟩
def LANE_EYE_height (n : Nat) : RF := ⟨(R.LANE_EYE n), 0, 8⟩
def LANE_EYE_width (n : Nat) : RF := ⟨(R.LANE_EYE n), 8, 8⟩
def LANE_EYE_valid (n : Nat) : RF := ⟨(R.LANE_EYE n), 16, 1⟩
def PEL_PCTL_enable (n : Nat) : RF := ⟨(R.PEL_PCTL n), 0, 1⟩
def PEL_PCTL_flush (n : Nat) : RF := ⟨(R.PEL_PCTL n), 1, 1⟩
def PEL_PCTL_ledger (n : Nat) : RF := ⟨(R.PEL_PCTL n), 2, 1⟩
def PEL_PCTL_quiesce (n : Nat) : RF := ⟨(R.PEL_PCTL n), 4, 4⟩
def PEL_PSTS_state (n : Nat) : RF := ⟨(R.PEL_PSTS n), 0, 3⟩
def PEL_PSTS_lanes (n : Nat) : RF := ⟨(R.PEL_PSTS n), 4, 4⟩
def PEL_PSTS_partner (n : Nat) : RF := ⟨(R.PEL_PSTS n), 8, 12⟩
def PEL_PSTS_fault (n : Nat) : RF := ⟨(R.PEL_PSTS n), 20, 1⟩
def PEL_PSTS_wrap (n : Nat) : RF := ⟨(R.PEL_PSTS n), 21, 1⟩
def PEL_CRSPLIT_phase (n : Nat) : RF := ⟨(R.PEL_CRSPLIT n), 0, 8⟩
def PEL_CRSPLIT_control (n : Nat) : RF := ⟨(R.PEL_CRSPLIT n), 8, 8⟩
def PEL_CRSPLIT_data (n : Nat) : RF := ⟨(R.PEL_CRSPLIT n), 16, 8⟩
def PEL_CRSPLIT_mgmt (n : Nat) : RF := ⟨(R.PEL_CRSPLIT n), 24, 8⟩
def PEL_DELAY_delay (n : Nat) : RF := ⟨(R.PEL_DELAY n), 0, 20⟩
def PEL_DELAY_valid (n : Nat) : RF := ⟨(R.PEL_DELAY n), 31, 1⟩
def PEL_ASYM_asym (n : Nat) : RF := ⟨(R.PEL_ASYM n), 0, 16⟩
def PEL_ERR_hop_crc (n : Nat) : RF := ⟨(R.PEL_ERR n), 0, 8⟩
def PEL_ERR_stomped (n : Nat) : RF := ⟨(R.PEL_ERR n), 8, 8⟩
def PEL_ERR_e2e (n : Nat) : RF := ⟨(R.PEL_ERR n), 16, 8⟩
def PEL_ERR_dropped (n : Nat) : RF := ⟨(R.PEL_ERR n), 24, 7⟩
def PEL_ERR_clear (n : Nat) : RF := ⟨(R.PEL_ERR n), 31, 1⟩
def PEL_LEDGER_tx_cr (n k : Nat) : RF := ⟨(R.PEL_LEDGER n k), 0, 11⟩
def PEL_LEDGER_held (n k : Nat) : RF := ⟨(R.PEL_LEDGER n k), 11, 11⟩
def PEL_LEDGER_balanced (n k : Nat) : RF := ⟨(R.PEL_LEDGER n k), 30, 1⟩
def PEL_LEDGER_valid (n k : Nat) : RF := ⟨(R.PEL_LEDGER n k), 31, 1⟩
def PEL_RANGE_lo (n : Nat) : RF := ⟨(R.PEL_RANGE n), 0, 12⟩
def PEL_RANGE_hi (n : Nat) : RF := ⟨(R.PEL_RANGE n), 12, 12⟩
def PEL_RANGE_valid (n : Nat) : RF := ⟨(R.PEL_RANGE n), 24, 1⟩
def PEL_FRAMES_TX_count (n : Nat) : RF := ⟨(R.PEL_FRAMES_TX n), 0, 32⟩
def PEL_FRAMES_RX_count (n : Nat) : RF := ⟨(R.PEL_FRAMES_RX n), 0, 32⟩
def PEL_CFG_role : RF := ⟨R.PEL_CFG, 0, 2⟩
def PEL_CFG_lead_strap : RF := ⟨R.PEL_CFG, 2, 1⟩
def PEL_CFG_alt_strap : RF := ⟨R.PEL_CFG, 3, 1⟩
def PEL_CFG_mgmt_wr : RF := ⟨R.PEL_CFG, 4, 1⟩
def PEL_CFG_evt_fwd : RF := ⟨R.PEL_CFG, 5, 1⟩
def PEL_ADDR_addr : RF := ⟨R.PEL_ADDR, 0, 12⟩
def PEL_ADDR_valid : RF := ⟨R.PEL_ADDR, 12, 1⟩
def PEL_ADDR_members : RF := ⟨R.PEL_ADDR, 13, 12⟩
def PEL_ADDR_acting_lead : RF := ⟨R.PEL_ADDR, 25, 1⟩
def PEL_ADDR_is_lead : RF := ⟨R.PEL_ADDR, 26, 1⟩
def PEL_CTL_enum : RF := ⟨R.PEL_CTL, 0, 1⟩
def PEL_CTL_handback : RF := ⟨R.PEL_CTL, 1, 1⟩
def PEL_PHASE_epoch : RF := ⟨R.PEL_PHASE, 0, 8⟩
def PEL_PHASE_port : RF := ⟨R.PEL_PHASE, 8, 2⟩
def PEL_PHASE_hops : RF := ⟨R.PEL_PHASE, 10, 12⟩
def PEL_AGE_age : RF := ⟨R.PEL_AGE, 0, 32⟩
def PEL_RTIME_LO_time : RF := ⟨R.PEL_RTIME_LO, 0, 32⟩
def PEL_RTIME_HI_time : RF := ⟨R.PEL_RTIME_HI, 0, 32⟩
def HIF_STS_link_up : RF := ⟨R.HIF_STS, 0, 1⟩
def HIF_STS_speed : RF := ⟨R.HIF_STS, 1, 3⟩
def HIF_STS_width : RF := ⟨R.HIF_STS, 4, 4⟩
def HIF_STS_generation : RF := ⟨R.HIF_STS, 8, 8⟩
def HIF_STS_dma_err : RF := ⟨R.HIF_STS, 16, 1⟩
def HIF_EVT_MASK_mask : RF := ⟨R.HIF_EVT_MASK, 0, 16⟩
def HIF_EVT_LOST_count : RF := ⟨R.HIF_EVT_LOST, 0, 32⟩
def HIF_MBOX_CMD_opcode : RF := ⟨R.HIF_MBOX_CMD, 0, 8⟩
def HIF_MBOX_CMD_go : RF := ⟨R.HIF_MBOX_CMD, 8, 1⟩
def HIF_MBOX_CMD_busy : RF := ⟨R.HIF_MBOX_CMD, 9, 1⟩
def HIF_MBOX_CMD_status : RF := ⟨R.HIF_MBOX_CMD, 16, 8⟩
def HIF_MBOX_ARG_arg (k : Nat) : RF := ⟨(R.HIF_MBOX_ARG k), 0, 32⟩
def HIF_MBOX_DET_detail : RF := ⟨R.HIF_MBOX_DET, 0, 16⟩
def HIF_MBOX_RES_res (k : Nat) : RF := ⟨(R.HIF_MBOX_RES k), 0, 32⟩
def HIF_RING_BASE_LO_base (k : Nat) : RF := ⟨(R.HIF_RING_BASE_LO k), 0, 32⟩
def HIF_RING_BASE_HI_base (k : Nat) : RF := ⟨(R.HIF_RING_BASE_HI k), 0, 32⟩
def HIF_RING_CFG_enable (k : Nat) : RF := ⟨(R.HIF_RING_CFG k), 0, 1⟩
def HIF_RING_CFG_size (k : Nat) : RF := ⟨(R.HIF_RING_CFG k), 1, 4⟩
def HIF_RING_CFG_vector (k : Nat) : RF := ⟨(R.HIF_RING_CFG k), 6, 6⟩
def HIF_RING_CFG_irq_en (k : Nat) : RF := ⟨(R.HIF_RING_CFG k), 12, 1⟩
def HIF_RING_CFG_coal_cnt (k : Nat) : RF := ⟨(R.HIF_RING_CFG k), 16, 8⟩
def HIF_RING_CFG_coal_us (k : Nat) : RF := ⟨(R.HIF_RING_CFG k), 24, 8⟩
def HIF_RING_STS_pos (k : Nat) : RF := ⟨(R.HIF_RING_STS k), 0, 12⟩
def HIF_RING_STS_phase (k : Nat) : RF := ⟨(R.HIF_RING_STS k), 12, 1⟩
def HIF_RING_STS_active (k : Nat) : RF := ⟨(R.HIF_RING_STS k), 13, 1⟩
def HIF_RING_STS_stale (k : Nat) : RF := ⟨(R.HIF_RING_STS k), 14, 1⟩
def HIF_RING_STS_dma_err (k : Nat) : RF := ⟨(R.HIF_RING_STS k), 15, 1⟩
def HIF_RING_STS_full (k : Nat) : RF := ⟨(R.HIF_RING_STS k), 16, 1⟩
def HIF_RING_CNT_count (k : Nat) : RF := ⟨(R.HIF_RING_CNT k), 0, 32⟩
def HIF_RING_OWN_dev_owned (k : Nat) : RF := ⟨(R.HIF_RING_OWN k), 0, 13⟩
def GRM_CFG_enable : RF := ⟨R.GRM_CFG, 0, 1⟩
def GRM_CFG_period : RF := ⟨R.GRM_CFG, 1, 4⟩
def GRM_CFG_reaction : RF := ⟨R.GRM_CFG, 5, 1⟩
def GRM_STS_active : RF := ⟨R.GRM_STS, 0, 16⟩
def GRM_STS_overrun : RF := ⟨R.GRM_STS, 16, 16⟩
def GRM_SBU_count : RF := ⟨R.GRM_SBU, 0, 24⟩
def GRM_SBU_clear : RF := ⟨R.GRM_SBU, 31, 1⟩
def GRM_MBU_detected : RF := ⟨R.GRM_MBU, 0, 8⟩
def GRM_MBU_repaired : RF := ⟨R.GRM_MBU, 8, 8⟩
def GRM_MBU_unrepairable : RF := ⟨R.GRM_MBU, 16, 8⟩
def GRM_MBU_clear : RF := ⟨R.GRM_MBU, 31, 1⟩
def GRM_MBU_POS_addr : RF := ⟨R.GRM_MBU_POS, 0, 20⟩
def GRM_MBU_POS_outcome : RF := ⟨R.GRM_MBU_POS, 20, 2⟩
def GRM_MBU_POS_valid : RF := ⟨R.GRM_MBU_POS, 31, 1⟩
def GRM_SELF_vote : RF := ⟨R.GRM_SELF, 0, 8⟩
def GRM_SELF_latch : RF := ⟨R.GRM_SELF, 8, 8⟩
def GRM_SELF_copies : RF := ⟨R.GRM_SELF, 16, 3⟩
def GRM_SELF_clear : RF := ⟨R.GRM_SELF, 31, 1⟩
def GRM_PERSIST_addr : RF := ⟨R.GRM_PERSIST, 0, 20⟩
def GRM_PERSIST_valid : RF := ⟨R.GRM_PERSIST, 31, 1⟩
def GRM_RCYC_last (k : Nat) : RF := ⟨(R.GRM_RCYC k), 0, 16⟩
def GRM_RCYC_passes (k : Nat) : RF := ⟨(R.GRM_RCYC k), 16, 16⟩
def FLT_LS_CTL_arm (k : Nat) : RF := ⟨(R.FLT_LS_CTL k), 0, 1⟩
def FLT_LS_CTL_reaction (k : Nat) : RF := ⟨(R.FLT_LS_CTL k), 1, 1⟩
def FLT_LS_CTL_lag_tokens (k : Nat) : RF := ⟨(R.FLT_LS_CTL k), 2, 6⟩
def FLT_LS_CTL_lag_time (k : Nat) : RF := ⟨(R.FLT_LS_CTL k), 10, 20⟩
def FLT_LS_STS_comparing (k : Nat) : RF := ⟨(R.FLT_LS_STS k), 0, 1⟩
def FLT_LS_STS_mismatch (k : Nat) : RF := ⟨(R.FLT_LS_STS k), 1, 1⟩
def FLT_LS_STS_lag (k : Nat) : RF := ⟨(R.FLT_LS_STS k), 2, 1⟩
def FLT_LS_STS_broken (k : Nat) : RF := ⟨(R.FLT_LS_STS k), 3, 1⟩
def FLT_LS_STS_groups (k : Nat) : RF := ⟨(R.FLT_LS_STS k), 16, 16⟩
def FLT_LS_POS_tap (k : Nat) : RF := ⟨(R.FLT_LS_POS k), 0, 6⟩
def FLT_LS_POS_position (k : Nat) : RF := ⟨(R.FLT_LS_POS k), 8, 24⟩
def FLT_MOR_STS_seq : RF := ⟨R.FLT_MOR_STS, 0, 16⟩
def FLT_MOR_STS_map_ok : RF := ⟨R.FLT_MOR_STS, 16, 1⟩
def FLT_MOR_STS_copy : RF := ⟨R.FLT_MOR_STS, 17, 1⟩
def FLT_MOR_STS_pending : RF := ⟨R.FLT_MOR_STS, 18, 1⟩
def FLT_MOR_STS_write_err : RF := ⟨R.FLT_MOR_STS, 19, 1⟩
def FLT_MOR_STS_empty : RF := ⟨R.FLT_MOR_STS, 20, 1⟩
def FLT_RET_REG_regions : RF := ⟨R.FLT_RET_REG, 0, 16⟩
def FLT_RET_SPK0_units : RF := ⟨R.FLT_RET_SPK0, 0, 32⟩
def FLT_RET_SPK1_units : RF := ⟨R.FLT_RET_SPK1, 0, 16⟩
def FLT_RET_MISC_ports : RF := ⟨R.FLT_RET_MISC, 0, 4⟩
def FLT_RET_MISC_phases : RF := ⟨R.FLT_RET_MISC, 4, 10⟩
def FLT_RET_MISC_sup : RF := ⟨R.FLT_RET_MISC, 14, 2⟩
def BIST_CTL_duty : RF := ⟨R.BIST_CTL, 0, 7⟩
def BIST_CTL_enable : RF := ⟨R.BIST_CTL, 7, 1⟩
def BIST_CTL_diag_en : RF := ⟨R.BIST_CTL, 8, 1⟩
def BIST_STS_phase : RF := ⟨R.BIST_STS, 0, 3⟩
def BIST_STS_region : RF := ⟨R.BIST_STS, 4, 4⟩
def BIST_STS_group : RF := ⟨R.BIST_STS, 8, 2⟩
def BIST_STS_column : RF := ⟨R.BIST_STS, 10, 7⟩
def BIST_PASS_passes : RF := ⟨R.BIST_PASS, 0, 16⟩
def BIST_PASS_last : RF := ⟨R.BIST_PASS, 16, 16⟩
def BIST_PAT_applied : RF := ⟨R.BIST_PAT, 0, 17⟩
def BIST_PAT_personality : RF := ⟨R.BIST_PAT, 17, 1⟩
def BIST_LAST_result : RF := ⟨R.BIST_LAST, 0, 8⟩
def BIST_LAST_region : RF := ⟨R.BIST_LAST, 8, 4⟩
def BIST_LAST_group : RF := ⟨R.BIST_LAST, 12, 2⟩
def BIST_LAST_column : RF := ⟨R.BIST_LAST, 14, 7⟩
def BIST_WAIT_count : RF := ⟨R.BIST_WAIT, 0, 16⟩
def BIST_WIN_CTL_enable (k : Nat) : RF := ⟨(R.BIST_WIN_CTL k), 0, 1⟩
def BIST_WIN_CTL_track (k : Nat) : RF := ⟨(R.BIST_WIN_CTL k), 1, 3⟩
def BIST_WIN_CTL_rep (k : Nat) : RF := ⟨(R.BIST_WIN_CTL k), 16, 16⟩
def BIST_WIN_START_start (k : Nat) : RF := ⟨(R.BIST_WIN_START k), 0, 32⟩
def BIST_WIN_END_end (k : Nat) : RF := ⟨(R.BIST_WIN_END k), 0, 32⟩
def PIN_CFG_ana (k : Nat) : RF := ⟨(R.PIN_CFG k), 0, 1⟩
def PIN_CFG_thr (k : Nat) : RF := ⟨(R.PIN_CFG k), 1, 2⟩
def PIN_CFG_hyst (k : Nat) : RF := ⟨(R.PIN_CFG k), 3, 1⟩
def PIN_CFG_pull (k : Nat) : RF := ⟨(R.PIN_CFG k), 4, 2⟩
def PIN_CFG_od (k : Nat) : RF := ⟨(R.PIN_CFG k), 6, 1⟩
def PIN_CFG_drive (k : Nat) : RF := ⟨(R.PIN_CFG k), 7, 1⟩
def PIN_CFG_park (k : Nat) : RF := ⟨(R.PIN_CFG k), 8, 2⟩
def PIN_CFG_dir (k : Nat) : RF := ⟨(R.PIN_CFG k), 10, 1⟩
def PIN_CFG_owt_en (k : Nat) : RF := ⟨(R.PIN_CFG k), 11, 1⟩
def PIN_CFG_claim (k : Nat) : RF := ⟨(R.PIN_CFG k), 16, 3⟩
def PIN_CFG_locked (k : Nat) : RF := ⟨(R.PIN_CFG k), 20, 1⟩
def PIN_CFG_short (k : Nat) : RF := ⟨(R.PIN_CFG k), 21, 1⟩
def PIN_CFG_open (k : Nat) : RF := ⟨(R.PIN_CFG k), 22, 1⟩
def PIN_IN_level (k : Nat) : RF := ⟨(R.PIN_IN k), 0, 16⟩
def PIN_OUT_out (k : Nat) : RF := ⟨(R.PIN_OUT k), 0, 16⟩
def PIN_SET_mask (k : Nat) : RF := ⟨(R.PIN_SET k), 0, 16⟩
def PIN_CLR_mask (k : Nat) : RF := ⟨(R.PIN_CLR k), 0, 16⟩
def PIN_LOCK_mask (k : Nat) : RF := ⟨(R.PIN_LOCK k), 0, 16⟩
def PIN_LOCK_key (k : Nat) : RF := ⟨(R.PIN_LOCK k), 24, 8⟩
def PIN_IRQ_SEL_port (j : Nat) : RF := ⟨R.PIN_IRQ_SEL, 0 + 2 * j, 2⟩
def PIN_IRQ_EDGE_edge (j : Nat) : RF := ⟨R.PIN_IRQ_EDGE, 0 + 2 * j, 2⟩
def PIN_IRQ_STS_line : RF := ⟨R.PIN_IRQ_STS, 0, 16⟩
def PIN_OWT_CFG_period : RF := ⟨R.PIN_OWT_CFG, 0, 8⟩
def PER_EN_en : RF := ⟨R.PER_EN, 0, 8⟩
def PER_EN_qei : RF := ⟨R.PER_EN, 8, 4⟩
def PER_EN_qei_z : RF := ⟨R.PER_EN, 12, 4⟩
def PER_EN_pwm : RF := ⟨R.PER_EN, 16, 4⟩
def PER_CONFLICT_lost : RF := ⟨R.PER_CONFLICT, 0, 20⟩
def UART_CFG_div (k : Nat) : RF := ⟨(R.UART_CFG k), 0, 21⟩
def UART_CFG_parity (k : Nat) : RF := ⟨(R.UART_CFG k), 21, 2⟩
def UART_CFG_stop2 (k : Nat) : RF := ⟨(R.UART_CFG k), 23, 1⟩
def UART_CFG_bits7 (k : Nat) : RF := ⟨(R.UART_CFG k), 24, 1⟩
def UART_TX_byte (k : Nat) : RF := ⟨(R.UART_TX k), 0, 8⟩
def UART_RX_byte (k : Nat) : RF := ⟨(R.UART_RX k), 0, 8⟩
def UART_RX_valid (k : Nat) : RF := ⟨(R.UART_RX k), 8, 1⟩
def UART_RX_ferr (k : Nat) : RF := ⟨(R.UART_RX k), 9, 1⟩
def UART_RX_perr (k : Nat) : RF := ⟨(R.UART_RX k), 10, 1⟩
def UART_RX_brk (k : Nat) : RF := ⟨(R.UART_RX k), 11, 1⟩
def UART_STS_tx_lvl (k : Nat) : RF := ⟨(R.UART_STS k), 0, 7⟩
def UART_STS_rx_lvl (k : Nat) : RF := ⟨(R.UART_STS k), 8, 7⟩
def UART_STS_overrun (k : Nat) : RF := ⟨(R.UART_STS k), 16, 1⟩
def UART_STS_tx_lost (k : Nat) : RF := ⟨(R.UART_STS k), 17, 1⟩
def UART_STS_busy (k : Nat) : RF := ⟨(R.UART_STS k), 18, 1⟩
def SPI_CFG_div (k : Nat) : RF := ⟨(R.SPI_CFG k), 0, 8⟩
def SPI_CFG_mode (k : Nat) : RF := ⟨(R.SPI_CFG k), 8, 2⟩
def SPI_CFG_bits (k : Nat) : RF := ⟨(R.SPI_CFG k), 10, 5⟩
def SPI_CFG_lsb_first (k : Nat) : RF := ⟨(R.SPI_CFG k), 15, 1⟩
def SPI_CFG_cs (k : Nat) : RF := ⟨(R.SPI_CFG k), 16, 1⟩
def SPI_CFG_cs_hold (k : Nat) : RF := ⟨(R.SPI_CFG k), 17, 1⟩
def SPI_TX_word (k : Nat) : RF := ⟨(R.SPI_TX k), 0, 32⟩
def SPI_RX_word (k : Nat) : RF := ⟨(R.SPI_RX k), 0, 32⟩
def SPI_STS_tx_lvl (k : Nat) : RF := ⟨(R.SPI_STS k), 0, 5⟩
def SPI_STS_rx_lvl (k : Nat) : RF := ⟨(R.SPI_STS k), 8, 5⟩
def SPI_STS_busy (k : Nat) : RF := ⟨(R.SPI_STS k), 16, 1⟩
def SPI_STS_tx_lost (k : Nat) : RF := ⟨(R.SPI_STS k), 17, 1⟩
def I2C_CFG_speed (k : Nat) : RF := ⟨(R.I2C_CFG k), 0, 2⟩
def I2C_CFG_addr10 (k : Nat) : RF := ⟨(R.I2C_CFG k), 2, 1⟩
def I2C_CMD_addr (k : Nat) : RF := ⟨(R.I2C_CMD k), 0, 10⟩
def I2C_CMD_rd (k : Nat) : RF := ⟨(R.I2C_CMD k), 10, 1⟩
def I2C_CMD_len (k : Nat) : RF := ⟨(R.I2C_CMD k), 11, 8⟩
def I2C_CMD_rep (k : Nat) : RF := ⟨(R.I2C_CMD k), 19, 1⟩
def I2C_TX_byte (k : Nat) : RF := ⟨(R.I2C_TX k), 0, 8⟩
def I2C_RX_byte (k : Nat) : RF := ⟨(R.I2C_RX k), 0, 8⟩
def I2C_STS_busy (k : Nat) : RF := ⟨(R.I2C_STS k), 0, 1⟩
def I2C_STS_nack (k : Nat) : RF := ⟨(R.I2C_STS k), 1, 1⟩
def I2C_STS_arb (k : Nat) : RF := ⟨(R.I2C_STS k), 2, 1⟩
def I2C_STS_timeout (k : Nat) : RF := ⟨(R.I2C_STS k), 3, 1⟩
def I2C_STS_rx_lvl (k : Nat) : RF := ⟨(R.I2C_STS k), 4, 9⟩
def I2C_STS_tx_lvl (k : Nat) : RF := ⟨(R.I2C_STS k), 13, 9⟩
def SSI_CFG_div (k : Nat) : RF := ⟨(R.SSI_CFG k), 0, 8⟩
def SSI_CFG_bits (k : Nat) : RF := ⟨(R.SSI_CFG k), 8, 5⟩
def SSI_CFG_gray (k : Nat) : RF := ⟨(R.SSI_CFG k), 13, 1⟩
def SSI_CFG_period (k : Nat) : RF := ⟨(R.SSI_CFG k), 16, 16⟩
def SSI_CTL_trig (k : Nat) : RF := ⟨(R.SSI_CTL k), 0, 1⟩
def SSI_POS_pos (k : Nat) : RF := ⟨(R.SSI_POS k), 0, 32⟩
def SSI_STAMP_LO_upd (k : Nat) : RF := ⟨(R.SSI_STAMP_LO k), 0, 32⟩
def SSI_STAMP_HI_upd (k : Nat) : RF := ⟨(R.SSI_STAMP_HI k), 0, 32⟩
def SSI_STS_busy (k : Nat) : RF := ⟨(R.SSI_STS k), 0, 1⟩
def SSI_STS_err (k : Nat) : RF := ⟨(R.SSI_STS k), 1, 1⟩
def BANK_CFG_std (k : Nat) : RF := ⟨(R.BANK_CFG k), 0, 3⟩
def BANK_CFG_vio_src (k : Nat) : RF := ⟨(R.BANK_CFG k), 3, 1⟩
def BANK_CFG_vio_ok (k : Nat) : RF := ⟨(R.BANK_CFG k), 4, 1⟩
def BANK_CFG_vio (k : Nat) : RF := ⟨(R.BANK_CFG k), 16, 12⟩
def BANK_DIFF_diff (k : Nat) : RF := ⟨(R.BANK_DIFF k), 0, 24⟩
def BANK_PINV_inv (k : Nat) : RF := ⟨(R.BANK_PINV k), 0, 24⟩
def SPK_PAD_drive (n k : Nat) : RF := ⟨(R.SPK_PAD n k), 0, 2⟩
def SPK_PAD_pull (n k : Nat) : RF := ⟨(R.SPK_PAD n k), 2, 2⟩
def SPK_PAD_term (n k : Nat) : RF := ⟨(R.SPK_PAD n k), 4, 1⟩
def SPK_PAD_short (n k : Nat) : RF := ⟨(R.SPK_PAD n k), 5, 1⟩
def PWR_CAP_cap : RF := ⟨R.PWR_CAP, 0, 7⟩
def PWR_CAP_over_act : RF := ⟨R.PWR_CAP, 8, 1⟩
def PWR_STS_eff_cap : RF := ⟨R.PWR_STS, 0, 7⟩
def PWR_STS_limit : RF := ⟨R.PWR_STS, 8, 2⟩
def PWR_STS_vin_lim : RF := ⟨R.PWR_STS, 10, 1⟩
def PWR_STS_uv : RF := ⟨R.PWR_STS, 11, 1⟩
def PWR_STS_ovp : RF := ⟨R.PWR_STS, 12, 1⟩
def PWR_STS_hard_lim : RF := ⟨R.PWR_STS, 13, 1⟩
def PWR_STS_phases : RF := ⟨R.PWR_STS, 14, 4⟩
def PWR_VIN_vin : RF := ⟨R.PWR_VIN, 0, 16⟩
def PWR_VIN_iin : RF := ⟨R.PWR_VIN, 16, 16⟩
def PWR_PIN_pin : RF := ⟨R.PWR_PIN, 0, 16⟩
def PWR_PIN_pcore : RF := ⟨R.PWR_PIN, 16, 16⟩
def PWR_TEMP_tj_max : RF := ⟨R.PWR_TEMP, 0, 8⟩
def PWR_TEMP_tj_region : RF := ⟨R.PWR_TEMP, 8, 4⟩
def PWR_TEMP_tbase : RF := ⟨R.PWR_TEMP, 16, 8⟩
def PWR_RAIL_vcore_mv : RF := ⟨R.PWR_RAIL, 0, 16⟩
def PWR_RAIL_rail_ok : RF := ⟨R.PWR_RAIL, 16, 5⟩
def PWR_PHASE_active : RF := ⟨R.PWR_PHASE, 0, 10⟩
def PWR_PHASE_failed : RF := ⟨R.PWR_PHASE, 16, 10⟩
def SUP_SVC_CFG_rate : RF := ⟨R.SUP_SVC_CFG, 0, 3⟩
def SUP_SVC_CFG_echo : RF := ⟨R.SUP_SVC_CFG, 3, 1⟩
def SUP_SVC_CFG_evt : RF := ⟨R.SUP_SVC_CFG, 4, 1⟩
def SUP_SVC_STS_swapped : RF := ⟨R.SUP_SVC_STS, 0, 1⟩
def SUP_SVC_STS_detected : RF := ⟨R.SUP_SVC_STS, 1, 1⟩
def SUP_SVC_STS_wr_en : RF := ⟨R.SUP_SVC_STS, 2, 1⟩
def SUP_SVC_STS_syntax : RF := ⟨R.SUP_SVC_STS, 8, 8⟩
def SUP_SVC_STS_refused : RF := ⟨R.SUP_SVC_STS, 16, 8⟩
def SUP_SVC_STS_clear : RF := ⟨R.SUP_SVC_STS, 31, 1⟩
def SUP_MTR_CTL_src : RF := ⟨R.SUP_MTR_CTL, 0, 4⟩
def SUP_MTR_CTL_index : RF := ⟨R.SUP_MTR_CTL, 4, 6⟩
def SUP_MTR_STS_out_mv : RF := ⟨R.SUP_MTR_STS, 0, 12⟩
def SUP_MTR_STS_code : RF := ⟨R.SUP_MTR_STS, 12, 5⟩
def SYS_ID_one : RF := ⟨R.SYS_ID, 0, 1⟩
def SYS_ID_maker : RF := ⟨R.SYS_ID, 1, 11⟩
def SYS_ID_part : RF := ⟨R.SYS_ID, 12, 16⟩
def SYS_ID_version : RF := ⟨R.SYS_ID, 28, 4⟩
def SUP_MODE_mode : RF := ⟨R.SUP_MODE, 0, 3⟩
def SUP_MODE_in_transition : RF := ⟨R.SUP_MODE, 3, 1⟩
def SUP_MODE_hold_cause : RF := ⟨R.SUP_MODE, 4, 4⟩
def SUP_MODE_missing : RF := ⟨R.SUP_MODE, 8, 4⟩
def SUP_MODE_active_half : RF := ⟨R.SUP_MODE, 12, 1⟩
def SUP_MODE_twin_ok : RF := ⟨R.SUP_MODE, 13, 1⟩
def SUP_MODE_transitions : RF := ⟨R.SUP_MODE, 16, 8⟩
def SYS_SERIAL_LO_serial : RF := ⟨R.SYS_SERIAL_LO, 0, 32⟩
def SYS_SERIAL_HI_serial : RF := ⟨R.SYS_SERIAL_HI, 0, 32⟩
def SUP_TIME_LO_us : RF := ⟨R.SUP_TIME_LO, 0, 32⟩
def SUP_TIME_HI_us : RF := ⟨R.SUP_TIME_HI, 0, 32⟩
def SUP_RESET_cause : RF := ⟨R.SUP_RESET, 0, 2⟩
def SUP_RESET_warm : RF := ⟨R.SUP_RESET, 8, 8⟩

end F

/-- The registers of a page SYS/SUP. -/
def sysRows : List RegRow :=
  [/- SUP_CROSS_CTL -/ ⟨0x400, 1, 0x0, 0x32, 0x103FF, 0x0, 0x0, 0x0, 0x0, 0x0, 0x0⟩,
   /- SUP_CROSS_STS -/ ⟨0x404, 1, 0x0, 0x0, 0x0, 0x1FFFFFF, 0x80000000, 0x0, 0x0, 0x0, 0x0⟩,
   /- SUP_CROSS_ADDR -/ ⟨0x408, 1, 0x0, 0x0, 0x0, 0x1FFFFFF, 0x0, 0x0, 0x0, 0x0, 0x0⟩,
   /- SUP_SVC_CFG -/ ⟨0x600, 1, 0x0, 0x0, 0x1F, 0x0, 0x0, 0x0, 0x0, 0x0, 0x0⟩,
   /- SUP_SVC_STS -/ ⟨0x604, 1, 0x0, 0x0, 0x0, 0xFFFF07, 0x0, 0x0, 0x80000000, 0x0, 0x0⟩,
   /- SUP_MTR_CTL -/ ⟨0x608, 1, 0x0, 0x0, 0x3FF, 0x0, 0x0, 0x0, 0x0, 0x0, 0x0⟩,
   /- SUP_MTR_STS -/ ⟨0x60C, 1, 0x0, 0x0, 0x0, 0x1FFFF, 0x0, 0x0, 0x0, 0x0, 0x0⟩,
   /- SYS_ID -/ ⟨0x0, 1, 0x0, 0x1236063D, 0x0, 0xFFFFFFFF, 0x0, 0x0, 0x0, 0x0, 0x0⟩,
   /- SUP_MODE -/ ⟨0x10, 1, 0x0, 0x2001, 0x0, 0xFF3FFF, 0x0, 0x0, 0x0, 0x0, 0x0⟩,
   /- SYS_SERIAL_LO -/ ⟨0x4, 1, 0x0, 0x0, 0x0, 0xFFFFFFFF, 0x0, 0x0, 0x0, 0x0, 0x0⟩,
   /- SYS_SERIAL_HI -/ ⟨0x8, 1, 0x0, 0x0, 0x0, 0xFFFFFFFF, 0x0, 0x0, 0x0, 0x0, 0x0⟩,
   /- SUP_TIME_LO -/ ⟨0x14, 1, 0x0, 0x0, 0x0, 0xFFFFFFFF, 0x0, 0x0, 0x0, 0x0, 0x0⟩,
   /- SUP_TIME_HI -/ ⟨0x18, 1, 0x0, 0x0, 0x0, 0xFFFFFFFF, 0x0, 0x0, 0x0, 0x0, 0x0⟩,
   /- SUP_RESET -/ ⟨0x1C, 1, 0x0, 0x0, 0x0, 0xFF03, 0x0, 0x0, 0x0, 0x0, 0x0⟩]

/-- The registers of a page LDR/SEC. -/
def ldrRows : List RegRow :=
  [/- LDR_CTL -/ ⟨0x0, 1, 0x0, 0x0, 0x1, 0x0, 0x0, 0x0, 0x0, 0x0, 0x0⟩,
   /- LDR_STS -/ ⟨0x4, 1, 0x0, 0x0, 0x0, 0xFF7F, 0x80, 0x0, 0x0, 0x0, 0x0⟩,
   /- LDR_ERR -/ ⟨0x8, 1, 0x0, 0xFFFF0000, 0x0, 0xFFFFFFFF, 0x0, 0x0, 0x0, 0x0, 0x0⟩,
   /- LDR_ERRPOS -/ ⟨0xC, 1, 0x0, 0x0, 0x0, 0xFFFFF, 0x80000000, 0x0, 0x0, 0x0, 0x0⟩,
   /- LDR_FRAMES -/ ⟨0x10, 1, 0x0, 0x0, 0x0, 0xFFFFFFFF, 0x0, 0x0, 0x0, 0x0, 0x0⟩,
   /- LDR_SKIPPED -/ ⟨0x14, 1, 0x0, 0x0, 0x0, 0xFFFFFFFF, 0x0, 0x0, 0x0, 0x0, 0x0⟩,
   /- LDR_MAN -/ ⟨0x18, 1, 0x0, 0x0, 0x0, 0xFFFFFFF, 0x0, 0x0, 0x0, 0x0, 0x0⟩,
   /- LDR_DESIGN -/ ⟨0x1C, 1, 0x0, 0x0, 0x0, 0xFFFFFFFF, 0x0, 0x0, 0x0, 0x0, 0x0⟩,
   /- LDR_IMGVER -/ ⟨0x20, 1, 0x0, 0x0, 0x0, 0xFFFFFFFF, 0x0, 0x0, 0x0, 0x0, 0x0⟩,
   /- LDR_TIME -/ ⟨0x24, 1, 0x0, 0x0, 0x0, 0xFFFFFFFF, 0x0, 0x0, 0x0, 0x0, 0x0⟩,
   /- LDR_STRAP -/ ⟨0x28, 1, 0x0, 0x0, 0x0, 0x1FF, 0x0, 0x0, 0x0, 0x0, 0x0⟩,
   /- SEC_FUSE_STS -/ ⟨0x800, 1, 0x0, 0x0, 0x0, 0xFFF, 0x1000, 0x0, 0x0, 0x0, 0x0⟩,
   /- SEC_REVOKE -/ ⟨0x804, 1, 0x0, 0x0, 0x0, 0x0, 0x0, 0x0, 0xFF00000F, 0x0, 0x0⟩]

/-- The registers of a page HIF. -/
def hifRows : List RegRow :=
  [/- HIF_STS -/ ⟨0x0, 1, 0x0, 0x0, 0x0, 0xFFFF, 0x10000, 0x0, 0x0, 0x0, 0x0⟩,
   /- HIF_EVT_MASK -/ ⟨0x4, 1, 0x0, 0x0, 0xFFFF, 0x0, 0x0, 0x0, 0x0, 0x0, 0x0⟩,
   /- HIF_EVT_LOST -/ ⟨0x8, 1, 0x0, 0x0, 0x0, 0xFFFFFFFF, 0x0, 0x0, 0x0, 0x0, 0x0⟩,
   /- HIF_MBOX_CMD -/ ⟨0x100, 1, 0x0, 0x0, 0xFF, 0xFF0200, 0x0, 0x0, 0x100, 0x0, 0x0⟩,
   /- HIF_MBOX_ARGk -/ ⟨0x104, 4, 0x4, 0x0, 0xFFFFFFFF, 0x0, 0x0, 0x0, 0x0, 0x0, 0x0⟩,
   /- HIF_MBOX_DET -/ ⟨0x114, 1, 0x0, 0x0, 0x0, 0xFFFF, 0x0, 0x0, 0x0, 0x0, 0x0⟩,
   /- HIF_MBOX_RESk -/ ⟨0x118, 2, 0x4, 0x0, 0x0, 0xFFFFFFFF, 0x0, 0x0, 0x0, 0x0, 0x0⟩,
   /- HIF_RINGn_BASE_LO -/ ⟨0x1000, 3, 0x40, 0x0, 0xFFFFFFFF, 0x0, 0x0, 0x0, 0x0, 0x0, 0x0⟩,
   /- HIF_RINGn_BASE_LO -/ ⟨0x1800, 64, 0x40, 0x0, 0xFFFFFFFF, 0x0, 0x0, 0x0, 0x0, 0x0, 0x0⟩,
   /- HIF_RINGn_BASE_HI -/ ⟨0x1004, 3, 0x40, 0x0, 0xFFFFFFFF, 0x0, 0x0, 0x0, 0x0, 0x0, 0x0⟩,
   /- HIF_RINGn_BASE_HI -/ ⟨0x1804, 64, 0x40, 0x0, 0xFFFFFFFF, 0x0, 0x0, 0x0, 0x0, 0x0, 0x0⟩,
   /- HIF_RINGn_CFG -/ ⟨0x1008, 3, 0x40, 0x10010, 0xFFFF1FDF, 0x0, 0x0, 0x0, 0x0, 0x0, 0x0⟩,
   /- HIF_RINGn_CFG -/ ⟨0x1808, 64, 0x40, 0x10010, 0xFFFF1FDF, 0x0, 0x0, 0x0, 0x0, 0x0, 0x0⟩,
   /- HIF_RINGn_STS -/ ⟨0x100C, 3, 0x40, 0x1000, 0x0, 0x13FFF, 0xC000, 0x0, 0x0, 0x0, 0x0⟩,
   /- HIF_RINGn_STS -/ ⟨0x180C, 64, 0x40, 0x1000, 0x0, 0x13FFF, 0xC000, 0x0, 0x0, 0x0, 0x0⟩,
   /- HIF_RINGn_CNT -/ ⟨0x1010, 3, 0x40, 0x0, 0x0, 0xFFFFFFFF, 0x0, 0x0, 0x0, 0x0, 0x0⟩,
   /- HIF_RINGn_CNT -/ ⟨0x1810, 64, 0x40, 0x0, 0x0, 0xFFFFFFFF, 0x0, 0x0, 0x0, 0x0, 0x0⟩,
   /- HIF_RINGn_OWN -/ ⟨0x1014, 3, 0x40, 0x0, 0x0, 0x1FFF, 0x0, 0x0, 0x0, 0x0, 0x0⟩,
   /- HIF_RINGn_OWN -/ ⟨0x1814, 64, 0x40, 0x0, 0x0, 0x1FFF, 0x0, 0x0, 0x0, 0x0, 0x0⟩]

/-- The registers of a page CAD. -/
def cadRows : List RegRow :=
  [/- CAD_CTL -/ ⟨0x0, 1, 0x0, 0x0, 0x0, 0x0, 0x0, 0x0, 0x1, 0x0, 0x0⟩,
   /- CAD_STS -/ ⟨0x4, 1, 0x0, 0x0, 0x0, 0xFFFFF1, 0x2, 0x0, 0x0, 0x0, 0x0⟩,
   /- CAD_PEL_CTL -/ ⟨0x8, 1, 0x0, 0x0, 0xF, 0x0, 0x0, 0x0, 0x0, 0x0, 0x0⟩,
   /- CAD_UPD_LO -/ ⟨0xC, 1, 0x0, 0x0, 0x0, 0xFFFFFFFF, 0x0, 0x0, 0x0, 0x0, 0x0⟩,
   /- CAD_UPD_HI -/ ⟨0x10, 1, 0x0, 0x0, 0x0, 0xFFFFFFFF, 0x0, 0x0, 0x0, 0x0, 0x0⟩,
   /- CAD_SRCn_CTL -/ ⟨0x100, 4, 0x40, 0x2280C, 0xFFFFFF, 0x0, 0x0, 0x0, 0x0, 0x0, 0x0⟩,
   /- CAD_SRCn_ANA -/ ⟨0x104, 4, 0x40, 0x310040, 0xFF07FF, 0x0, 0x0, 0x0, 0x0, 0x0, 0x0⟩,
   /- CAD_SRCn_EXC -/ ⟨0x108, 4, 0x40, 0x2710, 0x37FFF, 0x0, 0x0, 0x0, 0x0, 0x0, 0x0⟩,
   /- CAD_SRCn_COMP -/ ⟨0x10C, 4, 0x40, 0x0, 0xFFFFFFFF, 0x0, 0x0, 0x0, 0x0, 0x0, 0x0⟩,
   /- CAD_SRCn_LOSS -/ ⟨0x110, 4, 0x40, 0xF01032, 0xFFFF7F, 0x0, 0x0, 0x0, 0x0, 0x0, 0x0⟩,
   /- CAD_SRCn_FREE -/ ⟨0x114, 4, 0x40, 0x0, 0xFFFFFFFF, 0x0, 0x0, 0x0, 0x0, 0x0, 0x0⟩,
   /- CAD_SRCn_POS_LO -/ ⟨0x118, 4, 0x40, 0x0, 0x0, 0xFFFFFFFF, 0x0, 0x0, 0x0, 0x0, 0x0⟩,
   /- CAD_SRCn_POS_HI -/ ⟨0x11C, 4, 0x40, 0x0, 0x0, 0xFFFFFFFF, 0x0, 0x0, 0x0, 0x0, 0x0⟩,
   /- CAD_SRCn_ZHOME -/ ⟨0x120, 4, 0x40, 0x0, 0xFFFFFFFF, 0x0, 0x0, 0x0, 0x0, 0x0, 0x0⟩,
   /- CAD_SRCn_ZCAP -/ ⟨0x124, 4, 0x40, 0x0, 0x0, 0xFFFFFFFF, 0x0, 0x0, 0x0, 0x0, 0x0⟩,
   /- CAD_SRCn_ZPER -/ ⟨0x128, 4, 0x40, 0x0, 0xFFFFFFFF, 0x0, 0x0, 0x0, 0x0, 0x0, 0x0⟩,
   /- CAD_SRCn_STS -/ ⟨0x12C, 4, 0x40, 0x0, 0x0, 0xFFFF0007, 0x3F8, 0x0, 0x0, 0x0, 0x0⟩,
   /- CAD_TRKn_CTL -/ ⟨0x400, 8, 0x80, 0x10018, 0xFFFF01FF, 0x0, 0x0, 0x0, 0x600, 0x0, 0x0⟩,
   /- CAD_TRKn_DIV -/ ⟨0x404, 8, 0x80, 0xFA000001, 0xFFFFFFFF, 0x0, 0x0, 0x0, 0x0, 0x0, 0x0⟩,
   /- CAD_TRKn_OFS -/ ⟨0x408, 8, 0x80, 0x0, 0xFFFFFFFF, 0x0, 0x0, 0x0, 0x0, 0x0, 0x0⟩,
   /- CAD_TRKn_COAST -/ ⟨0x40C, 8, 0x80, 0x100000, 0xFFFFFFFF, 0x0, 0x0, 0x0, 0x0, 0x0, 0x0⟩,
   /- CAD_TRKn_LIM -/ ⟨0x410, 8, 0x80, 0x4003E8, 0xFFFFFFFF, 0x0, 0x0, 0x0, 0x0, 0x0, 0x0⟩,
   /- CAD_TRKn_STEP -/ ⟨0x414, 8, 0x80, 0x0, 0xFFFFFFFF, 0x0, 0x0, 0x0, 0x0, 0x0, 0x0⟩,
   /- CAD_TRKn_ANG -/ ⟨0x418, 8, 0x80, 0x0, 0x0, 0xFFFFFFFF, 0x0, 0x0, 0x0, 0x0, 0x0⟩,
   /- CAD_TRKn_TURN -/ ⟨0x41C, 8, 0x80, 0x0, 0x0, 0xFFFFFFFF, 0x0, 0x0, 0x0, 0x0, 0x0⟩,
   /- CAD_TRKn_VEL -/ ⟨0x420, 8, 0x80, 0x0, 0x0, 0xFFFFFFFF, 0x0, 0x0, 0x0, 0x0, 0x0⟩,
   /- CAD_TRKn_ERR -/ ⟨0x424, 8, 0x80, 0x0, 0x0, 0xFFFFFFFF, 0x0, 0x0, 0x0, 0x0, 0x0⟩,
   /- CAD_TRKn_DREM -/ ⟨0x428, 8, 0x80, 0x0, 0x0, 0xFFFFFFFF, 0x0, 0x0, 0x0, 0x0, 0x0⟩,
   /- CAD_TRKn_STS -/ ⟨0x42C, 8, 0x80, 0xC0, 0x0, 0xF3DF, 0x70000, 0x0, 0x0, 0x0, 0x0⟩,
   /- CAD_TRKn_ADJ -/ ⟨0x430, 8, 0x80, 0x0, 0x0, 0x0, 0x0, 0x0, 0xFFFFFFFF, 0x0, 0x0⟩,
   /- CAD_TRKn_SW -/ ⟨0x434, 8, 0x80, 0x16400, 0xFFFFFF07, 0x70, 0x0, 0x0, 0x8, 0x0, 0x0⟩,
   /- CAD_TRKn_SWDIV -/ ⟨0x438, 8, 0x80, 0x1, 0xFFFFFF, 0x0, 0x0, 0x0, 0x0, 0x0, 0x0⟩,
   /- CAD_TRKn_SWOFS -/ ⟨0x43C, 8, 0x80, 0x0, 0xFFFFFFFF, 0x0, 0x0, 0x0, 0x0, 0x0, 0x0⟩]

/-- The registers of a page SPK. -/
def spkRows : List RegRow :=
  [/- SPK_CTL -/ ⟨0x0, 1, 0x0, 0x80, 0x3CF, 0x0, 0x0, 0x10, 0x20, 0x0, 0x0⟩,
   /- SPK_STS -/ ⟨0x4, 1, 0x0, 0x0, 0x0, 0x7F1FF, 0x600, 0x0, 0x0, 0x0, 0x0⟩,
   /- SPK_PUSH_LO -/ ⟨0x8, 1, 0x0, 0x0, 0x0, 0x0, 0x0, 0x0, 0xFFFFFFFF, 0x0, 0x0⟩,
   /- SPK_PUSH_HI -/ ⟨0xC, 1, 0x0, 0x0, 0x0, 0x0, 0x0, 0x0, 0xFFFFFFFF, 0x0, 0x0⟩,
   /- SPK_HEAD_LO -/ ⟨0x10, 1, 0x0, 0x0, 0x0, 0xFFFFFFFF, 0x0, 0x0, 0x0, 0x0, 0x0⟩,
   /- SPK_HEAD_HI -/ ⟨0x14, 1, 0x0, 0x0, 0x0, 0xFFFFFFFF, 0x0, 0x0, 0x0, 0x0, 0x0⟩,
   /- SPK_WRITTEN -/ ⟨0x18, 1, 0x0, 0x0, 0x0, 0xFFFFFFFF, 0x0, 0x0, 0x0, 0x0, 0x0⟩,
   /- SPK_FIRED -/ ⟨0x1C, 1, 0x0, 0x0, 0x0, 0xFFFFFFFF, 0x0, 0x0, 0x0, 0x0, 0x0⟩,
   /- SPK_DROPPED -/ ⟨0x20, 1, 0x0, 0x0, 0x0, 0xFFFFFFFF, 0x0, 0x0, 0x0, 0x0, 0x0⟩,
   /- SPK_LATE -/ ⟨0x24, 1, 0x0, 0x0, 0x0, 0x7FFFFFFF, 0x0, 0x0, 0x80000000, 0x0, 0x0⟩,
   /- SPK_PINCFGr -/ ⟨0x28, 2, 0x4, 0x8080808, 0x3F3F3F3F, 0x80808080, 0x0, 0x0, 0x0, 0x0, 0x0⟩,
   /- SPK_PAIR -/ ⟨0x30, 1, 0x0, 0x0, 0xFFF, 0x0, 0x0, 0x0, 0x0, 0x0, 0x0⟩,
   /- SPK_TICK_STS -/ ⟨0x34, 1, 0x0, 0x0, 0x0, 0x0, 0xFFFFFFFF, 0x0, 0x0, 0x0, 0x0⟩,
   /- SPK_MON_CNT -/ ⟨0x38, 1, 0x0, 0x0, 0x0, 0xFFFFFFFF, 0x0, 0x0, 0x0, 0x0, 0x0⟩,
   /- SPK_MON_MIN -/ ⟨0x3C, 1, 0x0, 0x7FFF, 0x0, 0xFFFFF, 0x0, 0x0, 0x80000000, 0x0, 0x0⟩,
   /- SPK_SLACKm -/ ⟨0x40, 8, 0x4, 0x0, 0x0, 0xFFFFFFFF, 0x0, 0x0, 0x0, 0x0, 0x0⟩,
   /- SPK_PADp -/ ⟨0x80, 8, 0x4, 0x1, 0x1F, 0x0, 0x20, 0x0, 0x0, 0x0, 0x0⟩]

/-- The registers of a page ADC. -/
def adcRows : List RegRow :=
  [/- ADC_CTLc -/ ⟨0x0, 8, 0x40, 0x0, 0x1FF, 0x0, 0x0, 0x0, 0x0, 0x0, 0x0⟩,
   /- ADC_STSc -/ ⟨0x4, 8, 0x40, 0x0, 0x0, 0xFFFF07, 0x0, 0x0, 0x80000000, 0x0, 0x0⟩,
   /- ADC_LASTc -/ ⟨0x8, 8, 0x40, 0x0, 0x0, 0x3FFFF, 0x0, 0x0, 0x0, 0x0, 0x0⟩]

/-- The registers of a page PIN/PER. -/
def pinRows : List RegRow :=
  [/- PIN_CFGx_n -/ ⟨0x0, 64, 0x4, 0x218, 0x0, 0x170000, 0x600000, 0x0, 0x0, 0xFFF, 0x0⟩,
   /- PIN_INx -/ ⟨0x100, 4, 0x4, 0x0, 0x0, 0xFFFF, 0x0, 0x0, 0x0, 0x0, 0x0⟩,
   /- PIN_OUTx -/ ⟨0x110, 4, 0x4, 0x0, 0xFFFF, 0x0, 0x0, 0x0, 0x0, 0x0, 0x0⟩,
   /- PIN_SETx -/ ⟨0x120, 4, 0x4, 0x0, 0x0, 0x0, 0x0, 0x0, 0xFFFF, 0x0, 0x0⟩,
   /- PIN_CLRx -/ ⟨0x130, 4, 0x4, 0x0, 0x0, 0x0, 0x0, 0x0, 0xFFFF, 0x0, 0x0⟩,
   /- PIN_LOCKx -/ ⟨0x140, 4, 0x4, 0x0, 0x0, 0x0, 0x0, 0x0, 0xFF00FFFF, 0x0, 0x0⟩,
   /- PIN_IRQ_SEL -/ ⟨0x180, 1, 0x0, 0x0, 0xFFFFFFFF, 0x0, 0x0, 0x0, 0x0, 0x0, 0x0⟩,
   /- PIN_IRQ_EDGE -/ ⟨0x184, 1, 0x0, 0x0, 0xFFFFFFFF, 0x0, 0x0, 0x0, 0x0, 0x0, 0x0⟩,
   /- PIN_IRQ_STS -/ ⟨0x188, 1, 0x0, 0x0, 0x0, 0x0, 0xFFFF, 0x0, 0x0, 0x0, 0x0⟩,
   /- PIN_OWT_CFG -/ ⟨0x190, 1, 0x0, 0xA, 0xFF, 0x0, 0x0, 0x0, 0x0, 0x0, 0x0⟩,
   /- PER_EN -/ ⟨0x200, 1, 0x0, 0x0, 0x0, 0xF0000, 0x0, 0x0, 0x0, 0xFFFF, 0x0⟩,
   /- PER_CONFLICT -/ ⟨0x204, 1, 0x0, 0x0, 0x0, 0x0, 0xFFFFF, 0x0, 0x0, 0x0, 0x0⟩,
   /- UART_CFG -/ ⟨0x400, 2, 0x40, 0x3641, 0x1FFFFFF, 0x0, 0x0, 0x0, 0x0, 0x0, 0x0⟩,
   /- UART_TX -/ ⟨0x404, 2, 0x40, 0x0, 0x0, 0x0, 0x0, 0x0, 0xFF, 0x0, 0x0⟩,
   /- UART_RX -/ ⟨0x408, 2, 0x40, 0x0, 0x0, 0xFFF, 0x0, 0x0, 0x0, 0x0, 0x0⟩,
   /- UART_STS -/ ⟨0x40C, 2, 0x40, 0x0, 0x0, 0x47F7F, 0x30000, 0x0, 0x0, 0x0, 0x0⟩,
   /- SPI_CFG -/ ⟨0x500, 2, 0x40, 0x1C31, 0x3FFFF, 0x0, 0x0, 0x0, 0x0, 0x0, 0x0⟩,
   /- SPI_TX -/ ⟨0x504, 2, 0x40, 0x0, 0x0, 0x0, 0x0, 0x0, 0xFFFFFFFF, 0x0, 0x0⟩,
   /- SPI_RX -/ ⟨0x508, 2, 0x40, 0x0, 0x0, 0xFFFFFFFF, 0x0, 0x0, 0x0, 0x0, 0x0⟩,
   /- SPI_STS -/ ⟨0x50C, 2, 0x40, 0x0, 0x0, 0x11F1F, 0x20000, 0x0, 0x0, 0x0, 0x0⟩,
   /- I2C_CFG -/ ⟨0x600, 2, 0x40, 0x0, 0x7, 0x0, 0x0, 0x0, 0x0, 0x0, 0x0⟩,
   /- I2C_CMD -/ ⟨0x604, 2, 0x40, 0x0, 0x0, 0x0, 0x0, 0x0, 0xFFFFF, 0x0, 0x0⟩,
   /- I2C_TX -/ ⟨0x608, 2, 0x40, 0x0, 0x0, 0x0, 0x0, 0x0, 0xFF, 0x0, 0x0⟩,
   /- I2C_RX -/ ⟨0x60C, 2, 0x40, 0x0, 0x0, 0xFF, 0x0, 0x0, 0x0, 0x0, 0x0⟩,
   /- I2C_STS -/ ⟨0x610, 2, 0x40, 0x0, 0x0, 0x3FFFF1, 0xE, 0x0, 0x0, 0x0, 0x0⟩,
   /- SSI_CFG -/ ⟨0x700, 2, 0x40, 0x1704, 0xFFFF3FFF, 0x0, 0x0, 0x0, 0x0, 0x0, 0x0⟩,
   /- SSI_CTL -/ ⟨0x704, 2, 0x40, 0x0, 0x0, 0x0, 0x0, 0x0, 0x1, 0x0, 0x0⟩,
   /- SSI_POS -/ ⟨0x708, 2, 0x40, 0x0, 0x0, 0xFFFFFFFF, 0x0, 0x0, 0x0, 0x0, 0x0⟩,
   /- SSI_STAMP_LO -/ ⟨0x70C, 2, 0x40, 0x0, 0x0, 0xFFFFFFFF, 0x0, 0x0, 0x0, 0x0, 0x0⟩,
   /- SSI_STAMP_HI -/ ⟨0x710, 2, 0x40, 0x0, 0x0, 0xFFFFFFFF, 0x0, 0x0, 0x0, 0x0, 0x0⟩,
   /- SSI_STS -/ ⟨0x714, 2, 0x40, 0x0, 0x0, 0x1, 0x2, 0x0, 0x0, 0x0, 0x0⟩,
   /- BANK_CFGb -/ ⟨0x800, 8, 0x10, 0x0, 0xF, 0xFFF0010, 0x0, 0x0, 0x0, 0x0, 0x0⟩,
   /- BANK_DIFFb -/ ⟨0x804, 8, 0x10, 0x0, 0xFFFFFF, 0x0, 0x0, 0x0, 0x0, 0x0, 0x0⟩,
   /- BANK_PINVb -/ ⟨0x808, 8, 0x10, 0x0, 0xFFFFFF, 0x0, 0x0, 0x0, 0x0, 0x0, 0x0⟩]

/-- The registers of a page XQ. -/
def xqRows : List RegRow :=
  [/- XQ_CTL -/ ⟨0x0, 1, 0x0, 0x1000000, 0x1FF0005, 0x0, 0x0, 0x2, 0x8, 0x0, 0x0⟩,
   /- XQ_BIND -/ ⟨0x4, 1, 0x0, 0x0, 0x3FF, 0x0, 0x0, 0x0, 0x0, 0x0, 0x0⟩,
   /- XQ_STS -/ ⟨0x8, 1, 0x0, 0x200000, 0x0, 0x2FFFFFFF, 0x10000000, 0x0, 0x0, 0x0, 0x0⟩,
   /- XQ_PUSHED -/ ⟨0xC, 1, 0x0, 0x0, 0x0, 0xFFFFFFFF, 0x0, 0x0, 0x0, 0x0, 0x0⟩,
   /- XQ_POPPED -/ ⟨0x10, 1, 0x0, 0x0, 0x0, 0xFFFFFFFF, 0x0, 0x0, 0x0, 0x0, 0x0⟩,
   /- XQ_FLUSHED -/ ⟨0x14, 1, 0x0, 0x0, 0x0, 0xFFFFFFFF, 0x0, 0x0, 0x0, 0x0, 0x0⟩,
   /- XQ_DISCARD -/ ⟨0x18, 1, 0x0, 0x0, 0x0, 0xFFFFFFFF, 0x0, 0x0, 0x0, 0x0, 0x0⟩,
   /- XQ_ERR -/ ⟨0x1C, 1, 0x0, 0x0, 0x0, 0xFFFF, 0x0, 0x0, 0x80000000, 0x0, 0x0⟩]

/-- The registers of a page REGION. -/
def regionRows : List RegRow :=
  [/- REGION_WDG_CTLk -/ ⟨0x800, 32, 0x8, 0x2710, 0xB0FFFFFF, 0x0, 0x0, 0x0, 0x0, 0x0, 0x0⟩,
   /- REGION_WDG_STSk -/ ⟨0x804, 32, 0x8, 0x0, 0x0, 0x60FFFFFF, 0x80000000, 0x0, 0x0, 0x0, 0x0⟩,
   /- REGION_FREEZE -/ ⟨0x900, 1, 0x0, 0x0, 0x1, 0x6, 0x0, 0x0, 0x0, 0x0, 0x0⟩,
   /- REGION_CODE_ERR -/ ⟨0x904, 1, 0x0, 0x0, 0x0, 0xFFFF, 0x0, 0x0, 0x80000000, 0x0, 0x0⟩,
   /- REGION_COLMAP -/ ⟨0xA00, 1, 0x0, 0x10101010, 0x0, 0xBF3F3F3F, 0x0, 0x0, 0x0, 0x0, 0x0⟩,
   /- REGION_LT_CTL -/ ⟨0xA04, 1, 0x0, 0x0, 0x1, 0x0, 0x0, 0x0, 0x0, 0x0, 0x0⟩,
   /- REGION_LT_FAULT -/ ⟨0xA08, 1, 0x0, 0x0, 0x0, 0xFF7FFF, 0x80000000, 0x0, 0x0, 0x0, 0x0⟩,
   /- REGION_ISO_STS -/ ⟨0xA0C, 1, 0x0, 0x100, 0x0, 0x1FF, 0x0, 0x0, 0x0, 0x0, 0x0⟩,
   /- REGION_SPR_MAPc -/ ⟨0xB00, 4, 0x4, 0xF0F0F0F, 0x0, 0x1F1F1F1F, 0x0, 0x0, 0x0, 0x0, 0x0⟩,
   /- REGION_FIRN_MAPf -/ ⟨0xB10, 2, 0x4, 0x12121212, 0x0, 0x3F3F3F3F, 0x0, 0x0, 0x0, 0x0, 0x0⟩,
   /- REGION_FIRN_ECC -/ ⟨0xB18, 1, 0x0, 0x0, 0x0, 0xFFFFFF, 0x0, 0x0, 0x80000000, 0x0, 0x0⟩,
   /- REGION_FIRN_UE -/ ⟨0xB1C, 1, 0x0, 0x0, 0x0, 0x7FFFF, 0x80000000, 0x0, 0x0, 0x0, 0x0⟩,
   /- REGION_FIRN_COLL -/ ⟨0xB20, 1, 0x0, 0x0, 0x0, 0xFFFFFF, 0x0, 0x0, 0x80000000, 0x0, 0x0⟩,
   /- REGION_MSCRUB -/ ⟨0xB24, 1, 0x0, 0xA8, 0xBF, 0x40, 0x0, 0x0, 0x0, 0x0, 0x0⟩,
   /- REGION_SPR_STS -/ ⟨0xB28, 1, 0x0, 0x0, 0x0, 0xFFFF, 0x80000000, 0x0, 0x0, 0x0, 0x0⟩,
   /- REGION_EVX_FIRE -/ ⟨0xC00, 1, 0x0, 0x0, 0x0, 0x0, 0x0, 0x0, 0xFF, 0x0, 0x0⟩,
   /- REGION_EVX_STS -/ ⟨0xC04, 1, 0x0, 0x0, 0x0, 0xFF0000, 0x0, 0x0, 0x0, 0x0, 0xFFFF⟩,
   /- REGION_EVX_OUTk -/ ⟨0xC10, 8, 0x4, 0x0, 0x0, 0xFFFFFFFF, 0x0, 0x0, 0x0, 0x0, 0x0⟩,
   /- REGION_EVX_INk -/ ⟨0xC30, 8, 0x4, 0x0, 0x0, 0xFFFFFFFF, 0x0, 0x0, 0x0, 0x0, 0x0⟩,
   /- REGION_PR_STS -/ ⟨0xD00, 1, 0x0, 0x0, 0x0, 0xFF02FF, 0x80000100, 0x0, 0x0, 0x0, 0x0⟩,
   /- REGION_PR_ERR -/ ⟨0xD04, 1, 0x0, 0xFFFF0000, 0x0, 0xFFFFFFFF, 0x0, 0x0, 0x0, 0x0, 0x0⟩,
   /- REGION_PR_IMG -/ ⟨0xD08, 1, 0x0, 0x0, 0x0, 0xFFFFFFFF, 0x0, 0x0, 0x0, 0x0, 0x0⟩,
   /- REGION_PR_VER -/ ⟨0xD0C, 1, 0x0, 0x0, 0x0, 0xFFFFFFFF, 0x0, 0x0, 0x0, 0x0, 0x0⟩,
   /- REGION_PR_TIME -/ ⟨0xD10, 1, 0x0, 0x0, 0x0, 0xFFFFFFFF, 0x0, 0x0, 0x0, 0x0, 0x0⟩]

/-- The registers of a page LANE. -/
def laneRows : List RegRow :=
  [/- LANE_CTL -/ ⟨0x0, 1, 0x0, 0x0, 0x1F, 0x0, 0x0, 0x0, 0x1E0, 0x0, 0x0⟩,
   /- LANE_STS -/ ⟨0x4, 1, 0x0, 0x0, 0x0, 0xFF7FFF, 0x8000, 0x0, 0x0, 0x0, 0x0⟩,
   /- LANE_FFE -/ ⟨0x8, 1, 0x0, 0x12370, 0xF7FFF, 0x0, 0x0, 0x0, 0x0, 0x0, 0x0⟩,
   /- LANE_ERR -/ ⟨0xC, 1, 0x0, 0x0, 0x0, 0x7FFFFFFF, 0x0, 0x0, 0x80000000, 0x0, 0x0⟩,
   /- LANE_RM -/ ⟨0x10, 1, 0x0, 0x10, 0x0, 0x1F, 0x0, 0x0, 0x0, 0x0, 0x0⟩,
   /- LANE_RM_CNT -/ ⟨0x14, 1, 0x0, 0x0, 0x0, 0xFFFFFFFF, 0x0, 0x0, 0x0, 0x0, 0x0⟩,
   /- LANE_ES_CTL -/ ⟨0x18, 1, 0x0, 0x0, 0x7FFFE, 0x80000, 0x100000, 0x1, 0x0, 0x0, 0x0⟩,
   /- LANE_ES_ERR -/ ⟨0x1C, 1, 0x0, 0x0, 0x0, 0xFFFFFFFF, 0x0, 0x0, 0x0, 0x0, 0x0⟩,
   /- LANE_EYE -/ ⟨0x20, 1, 0x0, 0x0, 0x0, 0x1FFFF, 0x0, 0x0, 0x0, 0x0, 0x0⟩]

/-- The registers of a page GRP. -/
def grpRows : List RegRow :=
  [/- GRP_CTL -/ ⟨0x0, 1, 0x0, 0x70, 0xFF, 0x0, 0x0, 0x0, 0x100, 0x0, 0x0⟩,
   /- GRP_RATE -/ ⟨0x4, 1, 0x0, 0x9D5B34, 0x1FFFFFF, 0x0, 0x0, 0x0, 0x0, 0x0, 0x0⟩,
   /- GRP_REF -/ ⟨0x8, 1, 0x0, 0x2625A, 0x7FFFF, 0x0, 0x0, 0x0, 0x0, 0x0, 0x0⟩,
   /- GRP_STS -/ ⟨0xC, 1, 0x0, 0x0, 0x0, 0xF1F, 0x70000, 0x0, 0x0, 0x0, 0x0⟩,
   /- GRP_MAP -/ ⟨0x10, 1, 0x0, 0x4688, 0x0, 0xFFFF, 0x0, 0x0, 0x0, 0x0, 0x0⟩]

/-- The registers of a page PEL. -/
def pelRows : List RegRow :=
  [/- PEL_PCTL -/ ⟨0x0, 1, 0x0, 0x0, 0xF1, 0x0, 0x0, 0x6, 0x0, 0x0, 0x0⟩,
   /- PEL_PSTS -/ ⟨0x4, 1, 0x0, 0xFFF00, 0x0, 0x2FFFF7, 0x100000, 0x0, 0x0, 0x0, 0x0⟩,
   /- PEL_CRSPLIT -/ ⟨0x8, 1, 0x0, 0x10CC2004, 0xFFFFFFFF, 0x0, 0x0, 0x0, 0x0, 0x0, 0x0⟩,
   /- PEL_DELAY -/ ⟨0xC, 1, 0x0, 0x0, 0x0, 0x800FFFFF, 0x0, 0x0, 0x0, 0x0, 0x0⟩,
   /- PEL_ASYM -/ ⟨0x10, 1, 0x0, 0x0, 0xFFFF, 0x0, 0x0, 0x0, 0x0, 0x0, 0x0⟩,
   /- PEL_ERR -/ ⟨0x14, 1, 0x0, 0x0, 0x0, 0x7FFFFFFF, 0x0, 0x0, 0x80000000, 0x0, 0x0⟩,
   /- PEL_LEDGERv -/ ⟨0x20, 4, 0x4, 0x0, 0x0, 0xC03FFFFF, 0x0, 0x0, 0x0, 0x0, 0x0⟩,
   /- PEL_RANGE -/ ⟨0x30, 1, 0x0, 0x0, 0x0, 0x1FFFFFF, 0x0, 0x0, 0x0, 0x0, 0x0⟩,
   /- PEL_FRAMES_TX -/ ⟨0x34, 1, 0x0, 0x0, 0x0, 0xFFFFFFFF, 0x0, 0x0, 0x0, 0x0, 0x0⟩,
   /- PEL_FRAMES_RX -/ ⟨0x38, 1, 0x0, 0x0, 0x0, 0xFFFFFFFF, 0x0, 0x0, 0x0, 0x0, 0x0⟩]

/-- The registers of a page PEL 0. -/
def pelnetRows : List RegRow :=
  [/- PEL_CFG -/ ⟨0x800, 1, 0x0, 0x0, 0x33, 0xC, 0x0, 0x0, 0x0, 0x0, 0x0⟩,
   /- PEL_ADDR -/ ⟨0x804, 1, 0x0, 0xFFF, 0x0, 0x7FFFFFF, 0x0, 0x0, 0x0, 0x0, 0x0⟩,
   /- PEL_CTL -/ ⟨0x808, 1, 0x0, 0x0, 0x0, 0x0, 0x0, 0x0, 0x3, 0x0, 0x0⟩,
   /- PEL_PHASE -/ ⟨0x80C, 1, 0x0, 0x0, 0x0, 0x3FFFFF, 0x0, 0x0, 0x0, 0x0, 0x0⟩,
   /- PEL_AGE -/ ⟨0x810, 1, 0x0, 0x0, 0x0, 0xFFFFFFFF, 0x0, 0x0, 0x0, 0x0, 0x0⟩,
   /- PEL_RTIME_LO -/ ⟨0x814, 1, 0x0, 0x0, 0x0, 0xFFFFFFFF, 0x0, 0x0, 0x0, 0x0, 0x0⟩,
   /- PEL_RTIME_HI -/ ⟨0x818, 1, 0x0, 0x0, 0x0, 0xFFFFFFFF, 0x0, 0x0, 0x0, 0x0, 0x0⟩]

/-- The registers of a page GRM/FLT. -/
def grmRows : List RegRow :=
  [/- GRM_CFG -/ ⟨0x0, 1, 0x0, 0x31, 0x0, 0x3F, 0x0, 0x0, 0x0, 0x0, 0x0⟩,
   /- GRM_STS -/ ⟨0x4, 1, 0x0, 0x0, 0x0, 0xFFFF, 0xFFFF0000, 0x0, 0x0, 0x0, 0x0⟩,
   /- GRM_SBU -/ ⟨0x8, 1, 0x0, 0x0, 0x0, 0xFFFFFF, 0x0, 0x0, 0x80000000, 0x0, 0x0⟩,
   /- GRM_MBU -/ ⟨0xC, 1, 0x0, 0x0, 0x0, 0xFFFFFF, 0x0, 0x0, 0x80000000, 0x0, 0x0⟩,
   /- GRM_MBU_POS -/ ⟨0x10, 1, 0x0, 0x0, 0x0, 0x3FFFFF, 0x80000000, 0x0, 0x0, 0x0, 0x0⟩,
   /- GRM_SELF -/ ⟨0x14, 1, 0x0, 0x0, 0x0, 0xFFFF, 0x70000, 0x0, 0x80000000, 0x0, 0x0⟩,
   /- GRM_PERSIST -/ ⟨0x18, 1, 0x0, 0x0, 0x0, 0xFFFFF, 0x80000000, 0x0, 0x0, 0x0, 0x0⟩,
   /- GRM_RCYCn -/ ⟨0x40, 16, 0x4, 0x0, 0x0, 0xFFFFFFFF, 0x0, 0x0, 0x0, 0x0, 0x0⟩,
   /- FLT_LSk_CTL -/ ⟨0x100, 8, 0x10, 0x19042, 0x3FFFFCFF, 0x0, 0x0, 0x0, 0x0, 0x0, 0x0⟩,
   /- FLT_LSk_STS -/ ⟨0x104, 8, 0x10, 0x0, 0x0, 0xFFFF0001, 0xE, 0x0, 0x0, 0x0, 0x0⟩,
   /- FLT_LSk_POS -/ ⟨0x108, 8, 0x10, 0x0, 0x0, 0xFFFFFF3F, 0x0, 0x0, 0x0, 0x0, 0x0⟩,
   /- FLT_MOR_STS -/ ⟨0x200, 1, 0x0, 0x100000, 0x0, 0x17FFFF, 0x80000, 0x0, 0x0, 0x0, 0x0⟩,
   /- FLT_RET_REG -/ ⟨0x204, 1, 0x0, 0x0, 0x0, 0xFFFF, 0x0, 0x0, 0x0, 0x0, 0x0⟩,
   /- FLT_RET_SPK0 -/ ⟨0x208, 1, 0x0, 0x0, 0x0, 0xFFFFFFFF, 0x0, 0x0, 0x0, 0x0, 0x0⟩,
   /- FLT_RET_SPK1 -/ ⟨0x20C, 1, 0x0, 0x0, 0x0, 0xFFFF, 0x0, 0x0, 0x0, 0x0, 0x0⟩,
   /- FLT_RET_MISC -/ ⟨0x210, 1, 0x0, 0x0, 0x0, 0xFFFF, 0x0, 0x0, 0x0, 0x0, 0x0⟩]

/-- The registers of a page BIST. -/
def bistRows : List RegRow :=
  [/- BIST_CTL -/ ⟨0x0, 1, 0x0, 0x8A, 0x1FF, 0x0, 0x0, 0x0, 0x0, 0x0, 0x0⟩,
   /- BIST_STS -/ ⟨0x4, 1, 0x0, 0x0, 0x0, 0x1FFF7, 0x0, 0x0, 0x0, 0x0, 0x0⟩,
   /- BIST_PASS -/ ⟨0x8, 1, 0x0, 0x0, 0x0, 0xFFFFFFFF, 0x0, 0x0, 0x0, 0x0, 0x0⟩,
   /- BIST_PAT -/ ⟨0xC, 1, 0x0, 0x0, 0x0, 0x3FFFF, 0x0, 0x0, 0x0, 0x0, 0x0⟩,
   /- BIST_LAST -/ ⟨0x10, 1, 0x0, 0x0, 0x0, 0x1FFFFF, 0x0, 0x0, 0x0, 0x0, 0x0⟩,
   /- BIST_WAIT -/ ⟨0x14, 1, 0x0, 0x0, 0x0, 0xFFFF, 0x0, 0x0, 0x0, 0x0, 0x0⟩,
   /- BIST_WINn_CTL -/ ⟨0x100, 16, 0x10, 0x10000, 0xFFFF000F, 0x0, 0x0, 0x0, 0x0, 0x0, 0x0⟩,
   /- BIST_WINn_START -/ ⟨0x104, 16, 0x10, 0x0, 0xFFFFFFFF, 0x0, 0x0, 0x0, 0x0, 0x0, 0x0⟩,
   /- BIST_WINn_END -/ ⟨0x108, 16, 0x10, 0x0, 0xFFFFFFFF, 0x0, 0x0, 0x0, 0x0, 0x0, 0x0⟩]

/-- The registers of a page PWR. -/
def pwrRows : List RegRow :=
  [/- PWR_DRL_CTL -/ ⟨0x200, 1, 0x0, 0x1, 0x3, 0x0, 0x0, 0x0, 0x0, 0x0, 0x0⟩,
   /- PWR_DRL_TGT -/ ⟨0x204, 1, 0x0, 0x19A0400, 0xFFFFFFFF, 0x0, 0x0, 0x0, 0x0, 0x0, 0x0⟩,
   /- PWR_DRL_VLIM -/ ⟨0x208, 1, 0x0, 0x4285000, 0xF7F7F7F, 0x0, 0x0, 0x0, 0x0, 0x0, 0x0⟩,
   /- PWR_DRL_WIN -/ ⟨0x20C, 1, 0x0, 0x6E0A, 0xFFFF, 0x0, 0x0, 0x0, 0x0, 0x0, 0x0⟩,
   /- PWR_DRL_STS -/ ⟨0x210, 1, 0x0, 0x500000, 0x0, 0x77F7F7F, 0x0, 0x0, 0x0, 0x0, 0x0⟩,
   /- PWR_DRL_SMIN -/ ⟨0x214, 1, 0x0, 0x7FFF, 0x0, 0xFFFFFFFF, 0x0, 0x0, 0x0, 0x0, 0x0⟩,
   /- PWR_DRL_CNT -/ ⟨0x218, 1, 0x0, 0x0, 0x0, 0xFFFFFFFF, 0x0, 0x0, 0x0, 0x0, 0x0⟩,
   /- PWR_CAP -/ ⟨0x0, 1, 0x0, 0x41, 0x17F, 0x0, 0x0, 0x0, 0x0, 0x0, 0x0⟩,
   /- PWR_STS -/ ⟨0x4, 1, 0x0, 0x20041, 0x0, 0x3C77F, 0x1000, 0x0, 0x0, 0x0, 0x2800⟩,
   /- PWR_VIN -/ ⟨0x8, 1, 0x0, 0x0, 0x0, 0xFFFFFFFF, 0x0, 0x0, 0x0, 0x0, 0x0⟩,
   /- PWR_PIN -/ ⟨0xC, 1, 0x0, 0x0, 0x0, 0xFFFFFFFF, 0x0, 0x0, 0x0, 0x0, 0x0⟩,
   /- PWR_TEMP -/ ⟨0x10, 1, 0x0, 0x0, 0x0, 0xFF0FFF, 0x0, 0x0, 0x0, 0x0, 0x0⟩,
   /- PWR_RAIL -/ ⟨0x14, 1, 0x0, 0x0, 0x0, 0x1FFFFF, 0x0, 0x0, 0x0, 0x0, 0x0⟩,
   /- PWR_PHASE -/ ⟨0x18, 1, 0x0, 0xFF, 0x0, 0x3FF03FF, 0x0, 0x0, 0x0, 0x0, 0x0⟩]

/-- The pages of Table 19.1 that hold registers. -/
def regPages : List RegPage :=
  [⟨0x0, 0x10000, 1, sysRows⟩,
   ⟨0x10000, 0x10000, 1, ldrRows⟩,
   ⟨0x20000, 0x10000, 1, hifRows⟩,
   ⟨0x40000, 0x10000, 1, cadRows⟩,
   ⟨0x50000, 0x1000, 48, spkRows⟩,
   ⟨0x80000, 0x10000, 1, adcRows⟩,
   ⟨0x90000, 0x10000, 1, pinRows⟩,
   ⟨0xA0000, 0x400, 64, xqRows⟩,
   ⟨0x100000, 0x10000, 16, regionRows⟩,
   ⟨0x200000, 0x1000, 60, laneRows⟩,
   ⟨0x240000, 0x1000, 12, grpRows⟩,
   ⟨0x280000, 0x1000, 4, pelRows⟩,
   ⟨0x280000, 0x1000, 1, pelnetRows⟩,
   ⟨0x2C0000, 0x10000, 1, grmRows⟩,
   ⟨0x2D0000, 0x10000, 1, bistRows⟩,
   ⟨0x2E0000, 0x10000, 1, pwrRows⟩]

/-- The row of a register table that an offset within the page falls on. -/
def RegRow.has (r : RegRow) (rel : Nat) : Bool :=
  r.off ≤ rel && (if r.stride = 0 then rel == r.off else (rel - r.off) % r.stride == 0 && (rel - r.off) / r.stride < r.cnt)

/-- The register of a page slot that holds the BAR0 offset `off`. -/
def RegPage.row? (p : RegPage) (off : Nat) : Option RegRow :=
  if p.base ≤ off && off < p.base + p.stride * p.count then p.rows.find? (·.has ((off - p.base) % p.stride)) else none

/-- The register at a BAR0 offset; none outside every page, at an unimplemented address and off a doubleword (R10, R515). -/
def regRow? (off : Nat) : Option RegRow := regPages.findSome? (·.row? off)

/-- What a register that nothing has written since reset reads as: its value of the Reset column; 0 where there is no register
(R10, R515). -/
def regReset (off : Nat) : BitVec 32 :=
  match regRow? off with
  | some r => BitVec.ofNat 32 r.reset
  | none => 0#32

/-- The bits of a register that any field covers; every other bit is reserved and reads 0 (R10). -/
def RegRow.defined (r : RegRow) : Nat := r.rw ||| r.ro ||| r.w1c ||| r.w1s ||| r.rwl ||| r.rws

end Sys2Proof.Machine
end

