-- ==== Sys2Proof/Machine/State.lean ====
section
/-! DEFINITION. The state of the VA2360: plain data. Everything a register shows lives in the register file `regs`; what no register
shows lives in the records beside it. -/

namespace Sys2Proof.Machine

/-- The modes of Table 01.3. -/
inductive Mode where
  | cold
  | supervise
  | load
  | run
  | limp
  | hold
  deriving DecidableEq, Repr

/-- What a pad is driven to: a level, or not at all. -/
inductive Pad where
  | low
  | high
  | z
  deriving DecidableEq, Repr

/-- The security fuses of Table 09.5, the device-unique key, whether the fuse reader's check was good at the start from COLD, and the
Device Serial Number (R260, R268, R519). -/
structure Fuses where
  hashProg : BitVec 4 := 0
  hashes : SMap (List Byte) := []
  revoked : BitVec 4 := 0
  custProg : BitVec 2 := 0
  cust : SMap (List Byte) := []
  encRequired : Bool := false
  testClose : Bool := false
  duk : List Byte := []
  readGood : Bool := true
  serial : BitVec 64 := 0
  deriving DecidableEq, Repr

/-- An entry of the fault log ring: an event (R394), a loader failure (R283) or a cause that another outranked (R23). -/
inductive LogKind where
  | event (id param : Nat)
  | failure (code : Nat)
  | outranked (cause : Nat)
  deriving DecidableEq, Repr

/-- An entry of the fault log ring with the time of SUP_TIME. -/
structure LogEntry where
  kind : LogKind
  time : Nat
  deriving DecidableEq, Repr

/-- What the console printed, line by line (R480). -/
inductive ConOut where
  | ok
  | err (code : Nat)
  | accepted
  | doneOk (name : Nat)
  | doneErr (name code : Nat)
  | doneTest (name : Nat) (pass : Bool)
  | evt (id param : Nat)
  | confirm (v : Nat)
  | echo (line : List Byte)
  | help
  | values (vs : List Nat)
  | log (es : List LogEntry)
  | report (bytes : List Byte) (crc : BitVec 32)
  deriving DecidableEq, Repr

/-- A fuse command that awaits its CONFIRM line (R484). -/
inductive FuseReq where
  | hash (slot : Nat) (value : List Byte)
  | key (k : Nat) (value : List Byte)
  | enc
  | revoke (mask : BitVec 4)
  | close
  deriving DecidableEq, Repr

/-- A field test that observes over an interval (R489): its number, its argument, the counts at its start. -/
structure FieldTest where
  name : Nat
  index : Nat
  a : Nat
  b : Nat
  deriving DecidableEq, Repr

/-- The console (R479 to R488): the printed lines, the fuse request with its check value and the instant it was asked, whether the rate
has changed and no valid line has followed, the field tests that run, the code that the meter source TEST shows, the name under which a
command of its own runs in the mailbox. -/
structure Console where
  out : List ConOut := []
  fuse : Option (FuseReq × Nat × Nat) := none
  rateChanged : Bool := false
  tests : List FieldTest := []
  result : Nat := 0
  mbox : Option Nat := none
  deriving DecidableEq, Repr

/-- A write into host memory: address and bytes (R375). -/
structure HostWrite where
  addr : Nat
  data : List Byte
  deriving DecidableEq, Repr

/-- A descriptor of a data ring that the VA2360 has taken and not yet returned (Table 13.5). -/
structure DataDesc where
  slot : Nat
  addr : Nat
  len : Nat
  flags : BitVec 8
  tag : BitVec 4
  words : Nat
  bytes : Nat
  deriving DecidableEq, Repr

/-- The hidden state of a ring: the tail (host-produced) or head (device-produced) of its doorbell, the rereads of the slot at its
position, what it has taken, the finished descriptors with their status whose write-back waits for Bus Master Enable (R374), whether it is
stopped, its open item with its tag, and its unsignalled entries (R379 to R385). -/
structure Ring where
  door : Nat := 0
  rereads : Nat := 0
  stopped : Bool := false
  owned : List DataDesc := []
  late : List (DataDesc × Nat) := []
  openItem : Bool := false
  openTag : BitVec 4 := 0
  unsig : Nat := 0
  deriving DecidableEq, Repr

/-- An admin command that has passed R387 checks 1 to 4. -/
structure AdminCmd where
  src : CmdSrc
  d : AdminDesc
  deriving DecidableEq, Repr

/-- A completion of an admin command (Table 13.4); `due` once only a free slot is missing (R388). -/
structure Completion where
  src : CmdSrc
  due : Bool
  status : Nat
  detail : Nat
  res0 : Nat
  res1 : Nat
  deriving DecidableEq, Repr

/-- The state of the PCI Express link (R323): down, in L0, in L1, or in Recovery. -/
inductive Link where
  | down
  | l0
  | l1
  | recovery
  deriving DecidableEq, Repr

/-- The configuration space of the endpoint beside Bus Master Enable (Table 13.1): the codes of Max_Payload_Size (0 to 2 for 128, 256, 512
bytes) and Max_Read_Request_Size (0 to 5 for 128 to 4,096 bytes), D3hot, the function mask of MSI-X. PRESUMED (log entry 162): the values after
reset are those of the PCI Express Base Specification. -/
structure EndCfg where
  payload : Nat := 0
  readReq : Nat := 2
  d3 : Bool := false
  mask : Bool := false
  deriving DecidableEq, Repr

/-- The host interface beside its registers: whether host memory may be accessed (Bus Master Enable at 1, in D0), the rings, the commands accepted, running and finished, what was
written to host memory and which MSI-X vectors were sent, oldest first, the MSI-X table words, the vectors whose message waits while they are masked, the rest of the configuration space, the state of the link,
and the event bookkeeping of R389. -/
structure Hif where
  bme : Bool := false
  rings : SMap Ring := []
  accepted : List AdminCmd := []
  running : List AdminCmd := []
  finished : List Completion := []
  writes : List HostWrite := []
  msix : List Nat := []
  table : SMap Word := []
  pba : List Nat := []
  cfg : EndCfg := {}
  link : Link := .down
  evtSeq : BitVec 32 := 0
  evtLost : BitVec 32 := 0
  deriving DecidableEq, Repr

/-- A section of a settings record (R264): type and body. -/
structure Section where
  type : Nat
  body : List Byte
  deriving DecidableEq, Repr

/-- What a region or the module runs: the manifest that configured it (Table 09.7). -/
structure Image where
  order : BitVec 8 := 0
  waits : List Nat := []
  lockTimeout : Nat := 0
  design : BitVec 32 := 0
  version : BitVec 32 := 0
  hash : List Byte := []
  deriving DecidableEq, Repr

/-- The steps of a load (Tables 09.9 and 10.3): entered, waiting for header and manifest, isolating, taking chunks, starting up. -/
inductive LoadStep where
  | entered
  | manifest
  | isolate
  | stream
  | startup
  deriving DecidableEq, Repr

/-- A load in progress: what was asked (Table 13.7), the settings copy (R266), whether step 3 of Table 09.9 is done and the golden image
runs after a failure, what the manifest gave, where the stream stands (R270 to R277): segment key, expected hash, next chunk, bytes
consumed, the base of the stream in the settings memory, the bytes of an unfinished record with the chunk in which it begins, the content
of the last FRAME record with its chunk, the CRC of each region, the copy of a store (R391), the regions still to isolate, the start-up
phase. -/
structure Load where
  region : Bool
  source : BitVec 2
  fromEntry : Nat
  set : BitVec 16
  activate : Bool
  store : Bool
  src : Option CmdSrc
  step : LoadStep := .entered
  selftest : Bool := false
  fallback : Bool := false
  settings : List Section := []
  started : Nat := 0
  image : Image := {}
  crcs : List Nat := []
  chunks : Nat := 0
  length : Nat := 0
  keySlot : Nat := 0
  keySel : Nat := 0
  key : List Byte := []
  nonce : List Byte := []
  expect : List Byte := []
  next : Nat := 0
  consumed : Nat := 0
  base : Nat := 0
  carry : List Byte := []
  carryChunk : Nat := 0
  last : Option Frame := none
  lastChunk : Nat := 0
  lastSpans : Bool := false
  crc : SMap (BitVec 32) := []
  skipped : Bool := false
  storeOk : Bool := true
  storePos : Nat := 0
  storeKey : List Byte := []
  storeNonce : List Byte := []
  waiting : BitVec 16 := 0
  pos : Nat := 0
  phaseDone : Bool := false
  deriving DecidableEq, Repr

/-- A start-up of regions in progress: step 6 of Table 10.3, or ACTIVATE_REGION (R304, R306). -/
structure Activation where
  set : BitVec 16
  byLoad : Bool
  src : Option CmdSrc
  image : Image
  settings : List Section
  pos : Nat := 0
  phaseDone : Bool := false
  deriving DecidableEq, Repr

/-- The loader and the security engine beside their registers. -/
structure Loader where
  load : Option Load := none
  regionLoad : Option Load := none
  acts : List Activation := []
  full : Option Image := none
  images : SMap Image := []
  isoAt : SMap Nat := []
  segs : SMap Nat := []
  revoke : Bool := false
  fuseBlocked : Bool := false
  deriving DecidableEq, Repr

/-- An open deadline of a monitor (R247): the angle and turn bits of L, the offset D, the tick's direction, whether it was missed. -/
structure Deadline where
  l : BitVec 40
  d : BitVec 32
  dir : Bool
  missed : Bool
  deriving DecidableEq, Repr

/-- A Spoke unit beside its registers (R237 to R249); `lateAt` is the slot at which a late head with the policy FIRE fires (R241). `delayed`
holds, by pin, the slot plus 1 at which a pin that the dead time holds back becomes active (R244); `shortAt` the level at which a pin with
a short found is parked (R448). -/
structure Spk where
  queue : List (BitVec 64) := []
  written : BitVec 32 := 0
  fired : BitVec 32 := 0
  dropped : BitVec 32 := 0
  pushLo : Word := 0
  firedNow : Nat := 0
  lateAt : Option Nat := none
  pads : SMap Pad := []
  changed : SMap Nat := []
  delayed : SMap Nat := []
  shortAt : SMap Pad := []
  ticks : SMap (List (BitVec 2)) := []
  deadlines : SMap (List Deadline) := []
  captures : List (BitVec 48) := []
  sample : Option Int := none
  misses : Nat := 0
  quietUntil : Nat := 0
  out : Bool := false
  deriving DecidableEq, Repr

/-- A sampling converter beside its registers (R250 to R252): the mux input in conversion, the held trigger, the slot at which it was held
where it is a SOC token, the results not yet acknowledged, whether the first of them stands on its RES channel, whether an OUT phase has
started it (R289). -/
structure Adc where
  mux : BitVec 2 := 0
  held : Option (BitVec 2) := none
  heldSoc : Option Nat := none
  results : List (BitVec 18) := []
  offered : Bool := false
  out : Bool := false
  deriving DecidableEq, Repr

/-- The Derailleur and the power block beside their registers (R253 to R257, R465 to R475). -/
structure Pwr where
  capCeil : Nat := 80
  thermCeil : Nat := 80
  demand : Nat := 40
  goal : Nat := 0
  lowSample : Bool := false
  smin : Int := 32767
  samples : Nat := 0
  window : Nat := 0
  on : Bool := false
  hot : Bool := false
  derating : Bool := false
  junction : List Int := []
  holdLatch : Bool := false
  deriving DecidableEq, Repr

/-- A byte in a UART receive FIFO with its flags: framing, parity, break (R454). -/
structure UartByte where
  byte : Byte
  ferr : Bool
  perr : Bool
  brk : Bool
  deriving DecidableEq, Repr

/-- A frame that a UART has sent: its data bits, its parity bit where it has one, its stop bits (R454). -/
structure UartFrame where
  data : Byte
  parity : Option Bool
  stops : Nat
  deriving DecidableEq, Repr

/-- A word that an SPI master has sent: its bits in the order of sending, the chip select asserted, whether it stays asserted after the word
(R455). -/
structure SpiFrame where
  bits : List Bool
  cs : Nat
  held : Bool
  deriving DecidableEq, Repr

/-- The start of a transaction that an I2C block has put on its bus: target address, 10-bit addressing, read, repeated start (R456). -/
structure I2cStart where
  addr : BitVec 10
  ten : Bool
  read : Bool
  rep : Bool
  deriving DecidableEq, Repr

/-- The system pins and peripherals beside their registers (R440 to R457): the peripheral id plus 1 that holds each pin, what a GPIO
pin is driven to, the pins in the keeper step, the losing peripherals, the lock pair and the PER_EN bits it froze, the last pull test, whether the pins
park in HOLD, whether they have left the reset defaults (OUT phase), the FIFOs, the CAD_UPD latched by an SSI read, the excitation pins
that have parked with their source disabled (R458), and what the peripherals have sent. -/
structure Pins where
  holder : SMap Nat := []
  drive : SMap Pad := []
  keeper : BitVec 64 := 0
  losing : BitVec 20 := 0
  lockArmed : Option Nat := none
  frozen : BitVec 20 := 0
  lastOpen : BitVec 64 := 0
  parked : Bool := false
  conf : Bool := false
  uartTx : SMap (List Byte) := []
  uartRx : SMap (List UartByte) := []
  spiTx : SMap (List Word) := []
  spiRx : SMap (List Word) := []
  i2cTx : SMap (List Byte) := []
  i2cRx : SMap (List Byte) := []
  i2cCmd : SMap Word := []
  i2cClears : SMap Nat := []
  i2cSent : SMap (List Byte) := []
  ssiBusy : SMap Nat := []
  excParked : BitVec 4 := 0
  uartSent : SMap (List UartFrame) := []
  spiSent : SMap (List SpiFrame) := []
  i2cStarts : SMap (List I2cStart) := []
  deriving DecidableEq, Repr

/-- A tile (R7): region, logical column, row. -/
structure Tile where
  n : Nat
  c : Nat
  r : Nat
  deriving DecidableEq, Repr

/-- A channel between the fabric and what is attached to it (R124): a Sprocket slice (ports U, V, K, OP, Q, QF as 0 to 5), a Firn block
(commands and data of ports A and B as 0 to 3), a crossing queue (DATA, SB as 0, 1), an event line, a Spoke unit (EREQ 0, CAP 1, RES 2
and 3, SOC 4 and 5, TICK 16 to 31, DONE 32 to 47). -/
inductive Chan where
  | slice (n c sl port : Nat)
  | firn (n f b port : Nat)
  | queue (q port : Nat)
  | evIn (n k : Nat)
  | evOut (n k : Nat)
  | spoke (u port : Nat)
  deriving DecidableEq, Repr

/-- What offers tokens: a cell, an inbound or outbound digit behind its slack stage, a segment start behind its slack stage, a
long-track segment (R98), a digit of a channel into the fabric, an isolation cell in DEFAULT (Table 04.5). -/
inductive Src where
  | cell (t : Tile) (i : Nat)
  | inb (t : Tile) (k : Nat)
  | out (t : Tile) (o : Nat)
  | seg (t : Tile) (st : Nat)
  | track (n : Nat) (vert : Bool) (line tr sg : Nat)
  | digit (ch : Chan) (d : Nat)
  | iso (n e i : Nat)
  deriving DecidableEq, Repr

/-- What takes tokens: a port of a cell (A 0, B 1, chain input 2, its share of an MSEL 3), an MSEL digit, an element that is itself a
source, a digit of a channel out of the fabric, an isolation cell in ABSORB, a lockstep compare tap (region, tap). -/
inductive Dst where
  | port (t : Tile) (i p : Nat)
  | msel (t : Tile) (m k : Nat)
  | elem (x : Src)
  | digit (ch : Chan) (d : Nat)
  | iso (n e i : Nat)
  | tap (n j : Nat)
  deriving DecidableEq, Repr

/-- The state of a source: the token it holds with its chain output and SPLIT branch, the destinations that have acknowledged it,
whether all have (a channel digit), the SOURCE tokens left, the grant of an ARB-MERGE, its last grant, and the port that must come
next (R58). -/
structure Node where
  tok : Option (BitVec 2) := none
  chain : BitVec 2 := 0
  branch : Option Nat := none
  acked : List Dst := []
  done : Bool := false
  left : Nat := 0
  grant : Option Bool := none
  last : Bool := false
  turn : Option Bool := none
  deriving DecidableEq, Repr

/-- The state of a Sprocket slice (Table 05.6): accumulator, operand delay, flags, calibration, cascade tokens. -/
structure SliceSt where
  acc : BitVec 64
  uPrev : BitVec 27
  preOvf : Bool := false
  accOvf : Bool := false
  cal : Bool := false
  stopped : Bool := false
  sco : Option (BitVec 64) := none
  uco : Option (BitVec 27) := none
  deriving DecidableEq, Repr

/-- A stall watchdog beside its registers (R61 to R64, R152): a stall has been reported since the last handshake; a handshake has completed
since it was armed; the count it held when it last stopped, in units of 100 ns; whether it counts, and since which microsecond; whether a
handshake waits for a stopped clock of its domain. -/
structure Wdg where
  reported : Bool := false
  seen : Bool := false
  kept : Nat := 0
  runs : Bool := false
  since : Nat := 0
  pulse : Bool := false
  deriving DecidableEq, Repr

/-- The count of an isolation cell (R115). -/
structure IsoCnt where
  count : BitVec 24 := 0
  sat : Bool := false
  deriving DecidableEq, Repr

/-- The fabric: configuration and Firn contents by logical frame address (R116), set-reset and the WEN phase by region, the sources
whose state has changed since set-reset, ports that wait for their completion tree (R82), slices, disabled long-track segments (R102),
isolation counts, watchdogs, the Firn blocks cleared and not written since (R144), repair rows in use by block (R142), what the physical
gap columns still hold (R411), the Firn rows that memory scrubbing rewrote with the pass that did, the scrub passes by region (R416), the
side buffers of the lockstep compare taps (R422), the channels that can never complete a handshake (R43). -/
structure Fab where
  frames : SMap Frame := []
  setReset : BitVec 16 := 0xFFFF
  wen : BitVec 16 := 0
  nodes : SMap (Option Node) := []
  joined : SMap (List Dst) := []
  slices : SMap (Option SliceSt) := []
  ltOff : SMap Bool := []
  iso : SMap IsoCnt := []
  wdg : SMap Wdg := []
  cleared : SMap Bool := []
  repair : SMap Nat := []
  gapFrames : SMap Frame := []
  rowErr : SMap Nat := []
  scrubPass : SMap Nat := []
  side : SMap (List Nat) := []
  stuck : SMap Bool := []
  deriving DecidableEq, Repr

/-- A stored word of a crossing queue: 128 data bits, the side band of Table 06.3, the two parity bits (R160). -/
structure XWord where
  data : BitVec 128
  sb : BitVec 16
  par : BitVec 2
  deriving DecidableEq, Repr

/-- A crossing queue beside its registers: the stored words, oldest first, discard mode and whether its next discarded word is the first
of a flush or reset (R172), the tag of the reader's open item, whether the writer side and the reader side are in reset, whether a flush
waits for a stopped clock before it discards (R183), the word last handed to the bound block, the words that the bound block holds ready and that have not been pushed yet (R165), the words of an item that a Peloton port
has read and not yet sent (R350). -/
structure Xq where
  words : List XWord := []
  discard : Bool := false
  fresh : Bool := false
  tag : BitVec 4 := 0
  wReset : Bool := false
  rReset : Bool := false
  flushDue : Bool := false
  last : Option XWord := none
  wait : List (BitVec 128 × BitVec 16) := []
  got : List XWord := []
  deriving DecidableEq, Repr

/-- An event crossing line beside its registers (R174): the pulses counted on an event-out line, the count in flight, whether the
saturation has been reported since the last round trip, the pulses delivered by a crossing between two clocked domains. -/
structure EvLine where
  count : Nat := 0
  flight : Nat := 0
  reported : Bool := false
  delivered : Nat := 0
  deriving DecidableEq, Repr

/-- A register access that waits for a stopped clock (R181), and whom to answer: the Peloton address of a MGMT
access, any number for a console command, none where nothing is sent back. -/
structure Access where
  path : Path
  addr : Nat
  write : Option Word
  ret : Option Nat
  deriving DecidableEq, Repr

/-- A value crossing (R178): the source's value, its holding register, whether a request stands unacknowledged, the destination's copy. -/
structure ValX where
  src : Word := 0
  hold : Word := 0
  req : Bool := false
  copy : Word := 0
  deriving DecidableEq, Repr

/-- The clocks: which of the 71 domains of Table 01.2 are stopped, the domains that force accesses on arrival (R182), those
whose hang has been reported, the accesses that wait, the value crossings (R178) and the event crossings between clocked domains (R174). -/
structure Clk where
  stopped : BitVec 71 := 0
  dead : BitVec 71 := 0
  hung : BitVec 71 := 0
  waits : List Access := []
  copies : SMap ValX := []
  events : SMap EvLine := []
  deriving DecidableEq, Repr

/-- A phase source beside its registers (R191 to R202): the 12 bits of X below its fraction, the levels of A and B, the stamp of the last
measurement and the last interval in 125 ps slots, X[63:32] at the last index edge, the run of edges in one direction with that
direction, whether the direction check is done, the last fraction of an analog vector, the good and failed measurements in a row, the last
and the last but one good measurement (X with the instant at which it is valid, R220), and the last single-phase sample with its stamp
(R199). -/
structure CadSrc where
  low : BitVec 12 := 0
  ab : BitVec 2 := 0
  stamp : Nat := 0
  interval : Nat := 0
  edges : Nat := 0
  zLast : Option (BitVec 32) := none
  run : Nat := 0
  runUp : Bool := true
  checked : Bool := false
  frac : Option (BitVec 32) := none
  good : Nat := 0
  bad : Nat := 0
  m0 : Option (BitVec 76 × Int) := none
  m1 : Option (BitVec 76 × Int) := none
  sample : Option (Int × Int) := none
  deriving DecidableEq, Repr

/-- A tracking observer (R203, R204): its source and scaling, the whole turns that a switch has added, the estimate in units of 2^-49
counts and the velocity in units of 2^-44 counts per update, the measurements taken (at most 3), the last one with its stamp and the
interval before it in 125 ps slots, the measurements in a row below the acquire threshold, and the motion in units of 2^-49 counts that
the hold at the next edge has kept back (R207). -/
structure Observer where
  src : Nat := 0
  mul : Nat := 1
  div : Nat := 1
  ofs : BitVec 32 := 0
  bias : BitVec 64 := 0
  theta : BitVec 113 := 0
  omega : Int := 0
  taken : Nat := 0
  lastM : BitVec 64 := 0
  stamp : Int := 0
  interval : Nat := 0
  good : Nat := 0
  lost : Int := 0
  deriving DecidableEq, Repr

/-- A track beside its registers (R204 to R225): its observer, the shadow observer of a switch or a return, whether the shadow is a
return, the align of the switch, the updates since step 2, the remainder in counts, whether a completed switch waits for it to reach 0, the angle in units of
2^-44 counts and the updates since COAST began, the error of the last measurement, and the live position and velocity that
registers show when they are captured (R210). -/
structure Trk where
  obs : Observer := {}
  shadow : Option Observer := none
  isReturn : Bool := false
  swAlign : Bool := false
  swUpd : Nat := 0
  rem : Int := 0
  slewDone : Bool := false
  coastAng : Nat := 0
  coastUpd : Nat := 0
  err : Int := 0
  deriving DecidableEq, Repr

/-- Cadence beside its registers: whether the LOCK phase has started it (R229), sources, tracks. -/
structure Cad where
  run : Bool := false
  srcs : SMap CadSrc := []
  trks : SMap Trk := []
  deriving DecidableEq, Repr

/-- What a lane's transmitter sends where it has no word (R315, R320, R335): nothing, its training frame over and over, fillers, or PRBS31. -/
inductive LaneTx where
  | quiet
  | training (word : BitVec 64)
  | fillers
  | prbs31
  deriving DecidableEq, Repr

/-- What a lane's transmitter has sent (R316, R320, R325, R328): a 64b/66b block with its header, scrambled; an 8b/10b character, a K character
where `k` says so; 128 raw bits; a training frame, which is the control block of its word and 15 data blocks of the running PRBS31. -/
inductive LaneItem where
  | block (hdr : BitVec 2) (w : BitVec 64)
  | char (k : Bool) (b : Byte)
  | raw (w : BitVec 128)
  | frame (word : BitVec 64) (prbs : List (BitVec 64))
  deriving DecidableEq, Repr

/-- One thing sent; `inv` says that LANE_CTL.tx_inv inverted it on the line (R319). -/
structure LaneOut where
  inv : Bool
  item : LaneItem
  deriving DecidableEq, Repr

/-- A lane beside its registers (R317 to R334): markers in a row in POLARITY, the partner's lane number, the answers sent to the
partner's requests, the request of its own receiver (tap 0 to 2 with a code, or 3 with a preset), whether that request has been answered,
the requests made, its readiness, the frames in a row with both sides ready, the stored taps, the attempts in a row that failed, whether
it stays FAILED until a restart, the one-bit slips, the words of its internal queue, whether a spare has been
woken from STANDBY, or a lane from DEEP. Before those: the CTLE and DFE values in steps, those stored after training, those at the last
qualified window, the windows since then (R321, R326); what the transmitter sends without a word, what it has sent, the state of its
scrambler, the blocks since its last filler (R316); whether the PLL bound has passed (R318); the last 31 bits of the PRBS31 of its training
frames, oldest in bit 30 (R320); whether the host margins the lane with its offset sampler (R327). -/
structure Lane where
  slips : Nat := 0
  eq : List Int := []
  eqStored : Option (List Int) := none
  eqQual : List Int := []
  slow : Nat := 0
  tx : LaneTx := .quiet
  out : List LaneOut := []
  scr : BitVec 58 := 0
  slot : Nat := 0
  pllLate : Bool := false
  prbs : BitVec 31 := 0
  margin : Bool := false
  marks : Nat := 0
  partner : Option Nat := none
  sts : BitVec 6 := 0
  req : Option (Nat × Nat) := none
  answered : Bool := false
  reqs : Nat := 0
  rxReady : Bool := false
  both : Nat := 0
  stored : Option (BitVec 15) := none
  fails : Nat := 0
  heldFail : Bool := false
  rx : List (BitVec 128 × BitVec 16) := []
  woken : Bool := false
  deriving DecidableEq, Repr

/-- A substitution in progress (R331): the logical lane, the physical index it left, whether this side declared the failure, whether the
partner's subst_ack has been seen, whether the partner has declared the failure too, whether only its assignment is kept (R335). -/
structure Subst where
  k : Nat
  old : Nat
  declared : Bool
  ack : Bool := false
  asked : Bool := false
  kept : Bool := false
  deriving DecidableEq, Repr

/-- A lane group beside its registers: the lane that its next outbound block, and its next inbound block, belongs to where it is bonded
(R325); the 8b/10b item that arrives over its bonded lanes, with whether its first word is still to come and the bytes of its next word;
whether its PLL has been started, its substitution, the logical lanes that failed meanwhile. -/
structure Grp where
  txNext : Nat := 0
  rxNext : Nat := 0
  item : Option (Bool × List Byte) := none
  live : Bool := false
  sub : Option Subst := none
  waiting : List Nat := []
  deriving DecidableEq, Repr

/-- A Peloton frame (R346, R347): the header fields, the L payload bytes, the end-to-end check. -/
structure PFrame where
  dst : Nat
  src : Nat
  len : Nat
  vc : Nat
  type : Nat
  wrapped : Bool := false
  hops : Nat := 0
  payload : List Byte := []
  e2e : BitVec 32 := 0
  deriving DecidableEq, Repr

/-- A frame that waits for an egress port, with the ingress port whose buffer holds it and its number there (R348). -/
structure TxFrame where
  f : PFrame
  held : Option (Nat × Nat) := none
  deriving DecidableEq, Repr

/-- A frame in the receive buffer: its number, VC and cost in credits, and how many ways out it still has to take (R358). -/
structure BufFrame where
  f : PFrame
  id : Nat
  cost : Nat
  left : Nat
  deriving DecidableEq, Repr

/-- What becomes of a frame whose header has arrived (R348, R349, R355): the ports on which it is being sent, the ports for which it
waits whole, the queue that takes it, whether the supervisor takes it, whether it is dropped, and for want of a queue, whether it is
turned at a ring break, whether its item has been opened in the queue. -/
structure RxFrame where
  f : PFrame
  id : Nat
  cut : List Nat := []
  held : List Nat := []
  queue : Option Nat := none
  mgmt : Bool := false
  drop : Bool := false
  unbound : Bool := false
  turned : Bool := false
  opened : Bool := false
  deriving DecidableEq, Repr

/-- A block or a frame sent on a port (Tables 12.3 and 12.4): the block type, its 7 content bytes as a number, the payload of a frame,
whether its hop CRC was sent stomped, and the trailer of a frame: end-to-end check and hop CRC (R346). -/
structure PelSent where
  port : Nat
  type : Nat
  body : BitVec 56
  payload : List Byte := []
  stomped : Bool := false
  trailer : Option (BitVec 32 × BitVec 32) := none
  deriving DecidableEq, Repr

/-- A whole frame that waits in a receive buffer for its turn to leave it (R357): its number, the queue that it goes to, or the supervisor,
its words for the queue, the frame. -/
structure LateFrame where
  id : Nat
  queue : Option Nat
  ws : List (BitVec 128 × BitVec 16)
  f : PFrame
  deriving DecidableEq, Repr

/-- A Peloton port beside its registers (R342 to R364). Lists of four run over the virtual channels. `stalled` are the frames whose words
wait at a full queue, `todo` those that wait for their turn; `hold` the VCs held for a ledger, `phases` the PHASE frames held with them (R360). -/
structure Port where
  split : Word := 0
  txCr : List Nat := [0, 0, 0, 0]
  lastTot : List Nat := [0, 0, 0, 0]
  freed : List Nat := [0, 0, 0, 0]
  unret : List Nat := [0, 0, 0, 0]
  partnerAllot : List Nat := [0, 0, 0, 0]
  gotInit : Bool := false
  rx : Option RxFrame := none
  buf : List BufFrame := []
  nextId : Nat := 0
  busy : Option Nat := none
  waiting : List TxFrame := []
  turn : Nat := 0
  reqId : BitVec 8 := 0
  reqOpen : Bool := false
  delays : List Int := []
  marked : Bool := false
  mask : BitVec 4 := 0
  noAddr : Bool := false
  wrapSaid : Bool := false
  stalled : List (Nat × Nat) := []
  todo : List LateFrame := []
  hold : BitVec 4 := 0
  phases : List PFrame := []
  deriving DecidableEq, Repr

/-- An enumeration in progress (R352): the next free address, the ports still to enumerate, the port in work with the address sent, the
address to answer to. -/
structure Enumr where
  next : Nat
  ports : List Nat
  cur : Option (Nat × Nat) := none
  parent : Option Nat := none
  deriving DecidableEq, Repr

/-- The Peloton beside its registers: ports, what was sent on them, oldest first, the MGMT frames for the supervisor, the events to
forward, the remote completions received, the enumeration, the epoch of this sender, its next sequence number, the last sequence
accepted, whether the strap lead listens; whether it has yielded to another lead (R366), whether a second alternate acts as a member (R341);
the ring time of the last accepted frame and the update at which it was taken (R363). -/
structure Pel where
  ports : SMap Port := []
  sent : List PelSent := []
  mgmt : List (Nat × PFrame) := []
  events : List (Nat × Nat) := []
  completions : List (Nat × Nat × Nat) := []
  en : Option Enumr := none
  epoch : BitVec 8 := 0
  seq : BitVec 16 := 0
  lastSeq : Option (BitVec 16) := none
  listening : Bool := false
  yielded : Bool := false
  altOff : Bool := false
  ring : Option (Nat × Nat) := none
  deriving DecidableEq, Repr

/-- An entry of the repair map (Table 14.9): kind, byte 1, bytes 2 to 3, bytes 4 to 7. -/
structure MapEntry where
  kind : Nat
  inst : Nat
  pos : Nat
  info : Nat
  deriving DecidableEq, Repr

/-- A native report record (Table 14.4). -/
structure TestRec where
  unit : Nat
  region : Nat
  pos : Nat
  planned : Nat
  applied : Nat
  complete : Bool
  coverage : Nat
  result : Nat
  deriving DecidableEq, Repr

/-- A test kept for BIST_REPORT (R418, R419): identifier, start and duration in milliseconds, overall code, records, failing bits. A
Sprocket and Firn test records the regions it tested with one coverage figure, and beside them only the units that did not pass. -/
structure TestRun where
  id : Nat
  start : Nat
  dur : Nat
  code : Nat
  recs : List TestRec
  bits : List (BitVec 64)
  set : Nat := 0
  cov : Nat := 0
  deriving DecidableEq, Repr

/-- Where a frame can be read again (R402): the settings-memory offset of the stream and the chunk, none for the host, and the content
that the record gave. -/
structure RepairRec where
  zero : Bool
  host : Bool
  base : Nat
  chunk : Nat
  spans : Bool
  good : Frame
  deriving DecidableEq, Repr

/-- What the repair of a stream's chunks needs: its nonce, its key select and the recorded hash of each chunk (R401, R402). -/
structure StreamRec where
  nonce : List Byte
  keySel : Nat
  hashes : List (List Byte)
  deriving DecidableEq, Repr

/-- The rolling self-test beside its registers (R407 to R414): the group in work
(region times 4 plus group), the
signature mismatch of a first run, time spent testing and the start of the pass and of the test in microseconds, the migration whose
step 0 is done, the patterns planned, the tests left at 100 % duty with their worst
result so far, whether a pass is open. `begun` says that the group in work has been entered with its gap at the top (R407); `tPlanned` and
`tFull` are the planned count of the test in progress and whether it counts toward a BIST_RUN (R408, R414). -/
structure Bist where
  cur : Nat := 0
  retest : Bool := false
  spent : Nat := 0
  passAt : Nat := 0
  testAt : Nat := 0
  open_ : Bool := false
  waiting : Bool := false
  planned : Nat := 16384
  full : Nat := 0
  fullCode : Nat := 0
  run : Option TestRun := none
  begun : Bool := false
  tPlanned : Nat := 16384
  tFull : Bool := false
  deriving DecidableEq, Repr

/-- A compare tap of a pair (R424): the position of the next token, the tokens of a held stall still to pass. -/
structure LsTap where
  pos : BitVec 32 := 0
  deriving DecidableEq, Repr

/-- Groomer, self-test, lockstep and Moraine beside their registers: the books (the entries in use with those made since), the faults
reported and not yet answered, the tests kept by kind, the next sequence by kind, the start of each Groomer pass, the correction history
by frame (bit, passes in a row, pass number), the error of each frame that no correction has removed, the frames under repair, the repair
index, its streams, the lockstep taps. `kept` holds the entries that an erase of the map took out of the books while the hardware keeps their
state (R433); `checked` and `owed` hold, by region and column, the minors that the pass in progress has checked and those that a moved
column has its engine check first (R399, R404); `held` is the settings copy that the supervisor holds for the Groomer (R405). -/
structure Flt where
  books : List MapEntry := []
  kept : List MapEntry := []
  checked : SMap Nat := []
  owed : SMap Nat := []
  held : List Section := []
  reports : List MapEntry := []
  tests : SMap (List TestRun) := []
  seqs : SMap Nat := []
  passStart : SMap Nat := []
  corr : SMap (Nat × Nat × Nat) := []
  bad : SMap Frame := []
  repairs : List Nat := []
  index : SMap (Option RepairRec) := []
  streams : SMap (Option StreamRec) := []
  bist : Bist := {}
  ls : SMap LsTap := []
  deriving DecidableEq, Repr

/-- Stops of the block. None of its commands is stopped by a fault. -/
inductive Fault where
  /-- No command raises it: the type has one name so that it is not empty. Safe. -/
  | none
  deriving DecidableEq, Repr

/-- Commands without a meaning. -/
inductive Refusal where
  /-- Raised by a command that has no meaning yet, with its mnemonic. Safe. -/
  | notModelled (mnemonic : String)
  deriving DecidableEq, Repr

/-- The state: the commands that wait, the mode, the register file by BAR0 offset, the fuses, the settings memory and its size, which
units of Table 01.7 work, the fault log ring, when each limited event was last raised, then the blocks; last the captures of R522 by
access path, what the last read and the last readback returned, and how many free values have been drawn. -/
structure State where
  pending : List Instr := []
  mode : Mode := .cold
  regs : SMap Word := []
  fuses : Fuses := {}
  nor : SMap Byte := []
  norSize : Nat := 0
  units : BitVec 11 := 0
  log : List LogEntry := []
  evtLast : SMap Nat := []
  con : Console := {}
  hif : Hif := {}
  ldr : Loader := {}
  cad : Cad := {}
  fab : Fab := {}
  xq : SMap Xq := []
  evx : SMap EvLine := []
  clk : Clk := {}
  spk : SMap Spk := []
  adc : SMap Adc := []
  pwr : Pwr := {}
  pins : Pins := {}
  pel : Pel := {}
  lane : SMap Lane := []
  grp : SMap Grp := []
  flt : Flt := {}
  caps : SMap (Option Word) := []
  readData : Word := 0
  frameData : Frame := 0
  freeCtr : Nat := 0
  deriving DecidableEq, Repr

/-- The machine at reset: without supply, in COLD, with a blank settings memory of 2 Gbit and no fuse blown. VIN_START starts it. -/
def State.reset : State := { norSize := 0x10000000 }

end Sys2Proof.Machine
end

