-- ==== Sys2Proof/Machine/Ops.lean ====
section
/-! DEFINITION. The named operations every block uses: the register file, time, free values, the event path (R394), rings and
interrupts (R379, R382), modes. -/

namespace Sys2Proof.Machine

/-- What a meaning answers. -/
abbrev Out := Host.Outcome State Fault Refusal

/-! ## Registers -/

/-- The value of the register at a BAR0 offset. -/
def State.rd (s : State) (off : Nat) : Word := SMap.get regReset s.regs off

/-- The state with a whole register written by the hardware. -/
def State.wr (s : State) (off : Nat) (v : Word) : State := { s with regs := SMap.set regReset s.regs off v }

/-- The mask of a field in its register. -/
def RF.mask (f : RF) : Word := BitVec.ofNat 32 ((2 ^ f.w - 1) <<< f.lo)

/-- The value of a field. -/
def State.get (s : State) (f : RF) : Nat := (s.rd f.off).toNat >>> f.lo % 2 ^ f.w

/-- A field with a value in a word; bits beyond the width are dropped. -/
def RF.ins (f : RF) (r : Word) (v : Nat) : Word :=
  (r &&& ~~~ f.mask) ||| BitVec.ofNat 32 ((v % 2 ^ f.w) <<< f.lo)

/-- The state with a field written by the hardware. -/
def State.put (s : State) (f : RF) (v : Nat) : State := s.wr f.off (f.ins (s.rd f.off) v)

/-- A one-bit field, or any field, is not 0. -/
def State.on (s : State) (f : RF) : Bool := s.get f != 0

/-- A one-bit field written with a truth value. -/
def State.putB (s : State) (f : RF) (b : Bool) : State := s.put f (if b then 1 else 0)

/-- A wrapping count, plus n. -/
def State.inc (s : State) (f : RF) (n : Nat := 1) : State := s.put f (s.get f + n)

/-- A saturating count, plus n: it holds its maximum until it is cleared (R521). -/
def State.sat (s : State) (f : RF) (n : Nat := 1) : State := s.put f (min (s.get f + n) (2 ^ f.w - 1))

/-- A field read as a two's complement number. -/
def State.getS (s : State) (f : RF) : Int :=
  if s.get f < 2 ^ (f.w - 1) then (s.get f : Int) else (s.get f : Int) - (2 ^ f.w : Nat)

/-- A number as the bits of a field of width w. -/
def enc2 (w : Nat) (v : Int) : Nat := (v % ((2 ^ w : Nat) : Int)).toNat

/-- A field written with a two's complement number. -/
def State.putS (s : State) (f : RF) (v : Int) : State := s.put f (enc2 f.w v)

/-- A number brought into a range. -/
def clamp (lo hi v : Nat) : Nat := if v < lo then lo else if hi < v then hi else v

/-- Bit n of a number. -/
def bitOf (v n : Nat) : Bool := v.testBit n

/-- A number with bit n set, and with it clear. -/
def setBit (v n : Nat) : Nat := if bitOf v n then v else v + 2 ^ n
def clrBit (v n : Nat) : Nat := if bitOf v n then v - 2 ^ n else v

/-- The number of bits set below n. -/
def popBelow (v : Nat) : Nat → Nat
  | 0 => 0
  | n + 1 => popBelow v n + (if bitOf v n then 1 else 0)

/-- The lowest bit set below n, n when there is none. -/
def lowestBit (v n : Nat) : Nat := ((List.range n).find? (bitOf v ·)).getD n

/-! ## Time, free values -/

/-- Microseconds since the start from COLD (Table 19.5). -/
def State.time (s : State) : Nat := (s.rd R.SUP_TIME_LO).toNat + 2 ^ 32 * (s.rd R.SUP_TIME_HI).toNat

/-- SUP_TIME set. -/
def State.setTime (s : State) (t : Nat) : State :=
  (s.wr R.SUP_TIME_LO (BitVec.ofNat 32 t)).wr R.SUP_TIME_HI (BitVec.ofNat 32 (t / 2 ^ 32))

/-- 1 us passes: SUP_TIME counts it while the module is not in COLD. -/
def State.idle (s : State) : State := if s.mode = .cold then s else s.setTime (s.time + 1)

/-- The next free value and the state with the counter moved on. -/
def State.draw (s : State) : Nat × State := (Config.freeValue s.freeCtr, { s with freeCtr := s.freeCtr + 1 })

/-- The clock of a domain of Table 01.2 is stopped (R180). -/
def State.clkStopped (s : State) (d : Nat) : Bool := s.clk.stopped.getLsbD d

/-- A clock of the Groomer voting copies is stopped: what their domains watch is held (R152, R183). -/
def State.groomHeld (s : State) : Bool := s.clkStopped 5 || s.clkStopped 6 || s.clkStopped 7

/-- The offset lies in a range. -/
def within (lo hi off : Nat) : Bool := decide (lo ≤ off) && decide (off < hi)

/-- The clocked domain of a page, for the blocks of Table 01.2 whose page lies in one domain. The pages of the supervisor, of lanes and
ports, of queues, of regions and of converters are reached without the clock that they describe. -/
def domainOf (off : Nat) : Option Nat :=
  if within 0x10000 0x10800 off then some 3
  else if within 0x10800 0x20000 off then some 4
  else if within 0x20000 0x30000 off then some 32
  else if within 0x40000 0x50000 off then some 10
  else if within 0x50000 0x80000 off then some (11 + (off - 0x50000) / 0x1000 / 4)
  else if within 0x90000 0xA0000 off then some 31
  else if within 0x2D0000 0x2E0000 off then some 8
  else if within 0x2E0000 0x2F0000 off then some 9
  else none

def State.setClk (s : State) (c : Clk) : State := { s with clk := c }

/-- An access completed by force (R182): counted, a read of all ones; a write never takes effect. -/
def State.countForced (s : State) (a : Access) : State :=
  let s := s.sat F.SUP_CROSS_STS_forced
  if a.write.isSome then s else { s with readData := 0xFFFFFFFF }

/-- An access reaches its register at once: not in COLD (Table 01.3), not while the clock of its domain is stopped (R181). -/
def State.barOpen (s : State) (off : Nat) : Bool := s.mode != .cold && (domainOf off).all (fun d => ! s.clkStopped d)

/-- A command that is one host access of a register: its effect `t` where the access reaches the register; else it is lost in COLD, waits
for the clock (R181), or is forced (R182). -/
def State.bar (s : State) (off : Nat) (w : Option Word) (t : State) : State :=
  let a : Access := ⟨.bar0, off, w, none⟩
  if s.barOpen off then t
  else if s.mode = .cold then s
  else if (domainOf off).any s.clk.dead.getLsbD then s.countForced a
  else s.setClk { s.clk with waits := s.clk.waits ++ [a] }

/-! ## Console output, host memory, interrupts -/

/-- No supervisor half is left (R30): the console is silent. -/
def State.latched (s : State) : Bool := s.pwr.holdLatch

/-- Lines printed on the console. It is silent in COLD and in the state of R30. -/
def State.print (s : State) (ls : List ConOut) : State :=
  if s.mode = .cold ∨ s.latched then s else { s with con := { s.con with out := s.con.out ++ ls } }

/-- Bytes written to host memory. -/
def State.hostWrite (s : State) (addr : Nat) (data : List Byte) : State :=
  { s with hif := { s.hif with writes := s.hif.writes ++ [⟨addr, data⟩] } }

/-- The hidden state of a ring. -/
def State.ring (s : State) (n : Nat) : Ring := SMap.get (fun _ => {}) s.hif.rings n

/-- The state with the hidden state of a ring written. -/
def State.setRing (s : State) (n : Nat) (r : Ring) : State :=
  { s with hif := { s.hif with rings := SMap.set (fun _ => {}) s.hif.rings n r } }

/-- The slots of a ring: 2 ^ size, the size held between 4 and 12 (Table 13.13). -/
def State.ringSlots (s : State) (n : Nat) : Nat := 2 ^ clamp 4 12 (s.get (F.HIF_RING_CFG_size n))

/-- The host address of a slot of a ring: the base with its low 12 bits read as 0, plus 32 bytes a slot (R376). -/
def State.slotAddr (s : State) (n slot : Nat) : Nat :=
  (s.get (F.HIF_RING_BASE_LO_base n) / 4096 * 4096) + 2 ^ 32 * s.get (F.HIF_RING_BASE_HI_base n) + 32 * slot

/-- The position moves to the next slot; the pass phase toggles at the wrap from the last slot to slot 0. -/
def State.ringAdvance (s : State) (n : Nat) : State :=
  if s.get (F.HIF_RING_STS_pos n) + 1 = s.ringSlots n then
    (s.put (F.HIF_RING_STS_pos n) 0).put (F.HIF_RING_STS_phase n) (1 - s.get (F.HIF_RING_STS_phase n))
  else s.inc (F.HIF_RING_STS_pos n)

/-- The words of the MSI-X table and the vectors it masks: bit 0 of the last word of an entry, or the function mask (Table 13.1). -/
def State.tableWord (s : State) (off : Nat) : Word := SMap.get (fun _ => 0) s.hif.table off
def State.msixMasked (s : State) (v : Nat) : Bool := s.hif.cfg.mask || (s.tableWord (0x7E000 + 16 * v + 12)).getLsbD 0

/-- An MSI-X message sent; that of a masked vector stands in the pending bits. -/
def State.msixSend (s : State) (v : Nat) : State :=
  { s with hif := if s.msixMasked v then { s.hif with pba := (s.hif.pba.filter (· != v)) ++ [v] } else { s.hif with msix := s.hif.msix ++ [v] } }

/-- The pending messages whose vectors are no longer masked are sent. -/
def State.msixPending (s : State) : State :=
  let go := s.hif.pba.filter (fun v => ! s.msixMasked v)
  { s with hif := { s.hif with pba := s.hif.pba.filter (s.msixMasked ·), msix := s.hif.msix ++ go } }

/-- One more unsignalled entry of a ring; the MSI-X message goes once coal_cnt of them stand (R382). -/
def State.ringEntry (s : State) (n : Nat) : State :=
  let r := s.ring n
  if s.on (F.HIF_RING_CFG_irq_en n) ∧ max 1 (s.get (F.HIF_RING_CFG_coal_cnt n)) ≤ r.unsig + 1 then
    let s := s.setRing n { r with unsig := 0 }
    s.msixSend (s.get (F.HIF_RING_CFG_vector n))
  else s.setRing n { r with unsig := r.unsig + 1 }

/-- The slots of a device-produced ring that the host has not returned: from its head to the position (R379). -/
def State.ringUsed (s : State) (n : Nat) : Nat :=
  if s.on (F.HIF_RING_STS_active n) then s.ringSlots n - s.get (F.HIF_RING_OWN_dev_owned n) else 0

/-- A device-produced ring can take an entry: enabled, Bus Master Enable at 1, a slot free (R374, R394). -/
def State.ringFree (s : State) (n : Nat) : Bool :=
  s.hif.bme && s.on (F.HIF_RING_CFG_enable n) && s.on (F.HIF_RING_STS_active n) && s.on (F.HIF_RING_OWN_dev_owned n)

/-- An entry of 32 bytes written at the position of a device-produced ring with the pass phase in its flags byte at `flagOff`,
counted, and signalled (R379, R382). -/
def State.ringWrite (s : State) (n flagOff : Nat) (entry : List Byte) : State :=
  let ph := s.get (F.HIF_RING_STS_phase n)
  let e := entry.take flagOff ++ [entry.getD flagOff 0 ||| BitVec.ofNat 8 ph] ++ entry.drop (flagOff + 1)
  let s := s.hostWrite (s.slotAddr n (s.get (F.HIF_RING_STS_pos n))) e
  let s := (s.ringAdvance n).inc (F.HIF_RING_CNT_count n)
  let s := s.put (F.HIF_RING_OWN_dev_owned n) (s.get (F.HIF_RING_OWN_dev_owned n) - 1)
  let s := s.putB (F.HIF_RING_STS_full n) (s.get (F.HIF_RING_OWN_dev_owned n) = 0)
  s.ringEntry n

/-! ## Events -/

/-- An event written to the event ring, or counted as lost (R394, Table 13.6). -/
def State.eventRing (s : State) (id param : Nat) (remote : Bool) (origin : Nat) : State :=
  if bitOf (s.get F.HIF_EVT_MASK_mask) (id / 256) then s
  else if s.ringFree 2 then
    let e := le 2 id ++ le 2 param ++ le 1 (if remote then 2 else 0) ++ [0] ++ le 2 origin ++ le 8 s.time ++
      le 4 s.hif.evtSeq.toNat ++ le 4 s.hif.evtLost.toNat ++ le 8 0
    let s := s.ringWrite 2 4 e
    { s with hif := { s.hif with evtSeq := s.hif.evtSeq + 1, evtLost := 0 } }
  else
    let s := s.inc F.HIF_EVT_LOST_count
    { s with hif := { s.hif with evtLost := s.hif.evtLost + 1 } }

/-- The address of this module in event entries: 0xFFF when it has none (Table 13.6). -/
def State.origin (s : State) : Nat := if s.on F.PEL_ADDR_valid then s.get F.PEL_ADDR_addr else 0xFFF

/-- An entry of the fault log ring. -/
def State.logAdd (s : State) (k : LogKind) : State := { s with log := s.log ++ [⟨k, s.time⟩] }

/-- An event raised: into the fault log, onto the console when EVT is on (R480), toward the lead when evt_fwd is 1 and this module is
not the lead (Table 12.12), and into the event ring (R394). -/
def State.raise (s : State) (id param : Nat) : State :=
  let s := s.logAdd (.event id param)
  let s := if s.on F.SUP_SVC_CFG_evt then s.print [.evt id param] else s
  let s := if s.on F.PEL_CFG_evt_fwd ∧ ¬ s.on F.PEL_ADDR_is_lead then
    { s with pel := { s.pel with events := s.pel.events ++ [(id, param)] } } else s
  s.eventRing id param false s.origin

/-- An event raised at most once per `us` microseconds per unit (R258, R337, R371, R400, R477, R482): the key of the limit is the event
with the unit it names. -/
def State.raiseLim (s : State) (us id unit param : Nat) : State :=
  let key := id * 65536 + unit
  let last := SMap.get (fun _ => 0) s.evtLast key
  if last ≠ 0 ∧ s.time + 1 < last + us then s
  else (s.raise id param) |> fun t => { t with evtLast := SMap.set (fun _ => 0) t.evtLast key (s.time + 1) }

/-- An event whose parameter the spec does not state: a free value. -/
def State.raiseFree (s : State) (id : Nat) : State :=
  let d := s.draw
  d.2.raise id (d.1 % 65536)

/-- The same, at most once per `us` microseconds per unit. -/
def State.raiseFreeLim (s : State) (us id unit : Nat) : State :=
  let d := s.draw
  d.2.raiseLim us id unit (d.1 % 65536)

/-! ## Modes -/

/-- The code of a mode (Table 01.3); COLD has none. -/
def Mode.code : Mode → Nat
  | .cold => 0
  | .supervise => 1
  | .load => 2
  | .run => 3
  | .limp => 4
  | .hold => 5

/-- The module is in RUN or LIMP, with a supervisor half left (R30). -/
def State.running (s : State) : Bool := (s.mode = .run || s.mode = .limp) && ! s.latched

/-- The Spoke units and pins stand still: HOLD (Table 08.5), or the state of R30. -/
def State.halted (s : State) : Bool := s.mode = .hold || s.latched

/-- A mode entered: SUP_MODE reads its code, the transition count moves on, and hold_cause reads 0 outside HOLD (Table 19.4). -/
def State.setMode (s : State) (m : Mode) : State :=
  let s := ({ s with mode := m }.put F.SUP_MODE_mode m.code).inc F.SUP_MODE_transitions
  if m = .hold then s else s.put F.SUP_MODE_hold_cause 0

/-- The unit of an order number 1 to 11 of Table 01.7 works. -/
def State.unitOk (s : State) (u : Nat) : Bool := s.units.getLsbD (u - 1)

/-- Unit u of Table 01.7 works, and so do the units that it depends on: no other unit is started (R33). -/
def State.unitUp (s : State) (u : Nat) : Bool :=
  s.unitOk u && (match u with
    | 4 | 11 => s.unitOk 3
    | 7 => (s.unitOk 1 || s.unitOk 3) && s.unitOk 5 && s.unitOk 6
    | 8 => s.unitOk 6
    | 9 | 10 => s.unitOk 5 && s.unitOk 6
    | _ => true)

/-- The order of the first missing unit, 0 when none (R33). -/
def State.firstMissing (s : State) : Nat := ((List.range 11).find? (fun u => ! s.units.getLsbD u)).elim 0 (· + 1)

/-- A unit found missing or working again; SUP_MODE.missing follows (R33). -/
def State.setUnit (s : State) (u : Nat) (ok : Bool) : State :=
  let m : BitVec 11 := BitVec.ofNat 11 (2 ^ (u - 1))
  let s := { s with units := if ok then s.units ||| m else s.units &&& ~~~ m }
  s.put F.SUP_MODE_missing s.firstMissing

end Sys2Proof.Machine
end

