-- ==== Sys2Proof/Machine/Complete.lean ====
section
/-! DEFINITION. Completions of admin commands (R388, R393, R396, R397, R480). -/

namespace Sys2Proof.Machine

def State.setHif (s : State) (h : Hif) : State := { s with hif := h }

/-- The 32-byte completion entry (Table 13.4). -/
def State.completionEntry (s : State) (cid slot : Nat) (c : Completion) : List Byte :=
  le 1 c.status ++ [0] ++ le 2 cid ++ le 2 slot ++ le 2 c.detail ++ le 4 c.res0 ++ le 4 c.res1 ++ le 8 s.time ++ le 8 0

/-- The names under which the console runs commands: an admin opcode that runs beside others, 0x200 and an opcode for one answered at once,
TEST BIST and TEST HARD (R480, R483). -/
def nameTestBist : Nat := 0x130
def nameTestHard : Nat := 0x131

/-- A console command has its status: a line DONE, or the answer itself; a test shows its result on the meter, which passes with PASS or
FAULT with spare, not with SKIPPED (R480, R488, Table 17.4; DEDUCED, log entry 169). -/
def State.conAnswer (s : State) (name status detail : Nat) : State :=
  if 0x200 ≤ name then s.print [if status = 0 then .ok else .err status]
  else
    let s := if name = nameTestBist ∨ name = nameTestHard then { s with con := { s.con with result := if status = 0 ∧ detail ≤ 1 then 23 else 24 } } else s
    s.print [if status = 0 then .doneOk name else .doneErr name status]

/-- A completion delivered to who gave the command. -/
def State.deliver (s : State) (c : Completion) : State :=
  let s := s.setHif { s.hif with running := s.hif.running.filter (fun a => a.src != c.src) }
  match c.src with
  | .ring cid slot => s.ringWrite 1 1 (s.completionEntry cid slot c)
  | .mailbox =>
    let s := (s.put F.HIF_MBOX_CMD_busy 0).put F.HIF_MBOX_CMD_status c.status
    let s := ((s.put F.HIF_MBOX_DET_detail c.detail).put (F.HIF_MBOX_RES_res 0) c.res0).put (F.HIF_MBOX_RES_res 1) c.res1
    match s.con.mbox with
    | some name => { s with con := { s.con with mbox := none } }.conAnswer name c.status c.detail
    | none => s
  | .console name => s.conAnswer name c.status c.detail
  | .gone _ _ _ => s

/-- A completion can be delivered now: the completion ring has a free slot (R388). -/
def State.deliverable (s : State) (c : Completion) : Bool :=
  match c.src with
  | .ring _ _ => s.ringFree 1
  | _ => true

/-- A completion of the ring waits for a slot. -/
def State.completionsWait (s : State) : Bool :=
  s.hif.finished.any (fun c => c.due && (match c.src with | .ring _ _ => true | _ => false))

/-- A command completes: delivered at once, or kept in order until the completion ring has a free slot (R388). -/
def State.complete (s : State) (src : CmdSrc) (status detail : Nat) (res0 : Nat := 0) (res1 : Nat := 0) : State :=
  let c : Completion := ⟨src, true, status, detail, res0, res1⟩
  let s := s.setHif { s.hif with finished := s.hif.finished.filter (fun d => d.src != src) }
  if s.deliverable c && (! s.completionsWait || (match src with | .ring _ _ => false | _ => true)) then s.deliver c
  else
    s.setHif { s.hif with running := s.hif.running.filter (fun a => a.src != src), finished := s.hif.finished ++ [c] }

/-- A command that runs has its result: it is delivered when it finishes (ADMIN_COMMAND_DONE). -/
def State.finishLater (s : State) (src : CmdSrc) (status detail : Nat) (res0 : Nat := 0) (res1 : Nat := 0) : State :=
  s.setHif { s.hif with finished := s.hif.finished ++ [⟨src, false, status, detail, res0, res1⟩] }

/-- The source of a command that may be absent (autoload). -/
def State.completeSrc (s : State) (src : Option CmdSrc) (status detail : Nat) : State :=
  match src with
  | some c => s.complete c status detail
  | none => s

/-- A command starts to run. -/
def State.runCmd (s : State) (c : AdminCmd) : State := s.setHif { s.hif with running := s.hif.running ++ [c] }

/-- The opcodes that run beside later commands (Table 13.7). -/
def runningOps : List Nat := [0x10, 0x11, 0x12, 0x13, 0x21, 0x30, 0x60, 0x71]

/-- The first command that satisfies a test. A command of the ring that does not run beside others holds those fetched after it (R387). -/
def firstTurn (p : AdminDesc → Bool) : Bool → List AdminCmd → Option AdminCmd
  | _, [] => none
  | held, c :: cs =>
    let ring := match c.src with | .ring _ _ => true | _ => false
    if p c.d && ! (held && ring) then some c else firstTurn p (held || (ring && ! runningOps.contains c.d.opcode.toNat)) cs

/-- The first accepted command in its turn that satisfies a test, and the state without it. -/
def State.takeCmd (s : State) (p : AdminDesc → Bool) : Option (AdminCmd × State) :=
  match firstTurn p false s.hif.accepted with
  | none => none
  | some c => some (c, s.setHif { s.hif with accepted := s.hif.accepted.erase c })

end Sys2Proof.Machine
end

