-- ==== Sys2Proof/Machine/Moraine.lean ====
section
/-! DEFINITION. The books of Moraine (R426, R427, R430, R432): what has been retired and substituted, and what a retirement does to the
mode (R17, R21). -/

namespace Sys2Proof.Machine

def State.setFlt (s : State) (f : Flt) : State := { s with flt := f }

/-- The books hold an entry of a kind, instance and position. -/
def State.morHas (s : State) (kind inst pos : Nat) : Bool :=
  s.flt.books.any (fun e => e.kind == kind && e.inst == inst && e.pos == pos)

/-- What the hardware has applied: the books, and before them what an erase of the map has taken out of the books (R433). -/
def State.applied (s : State) : List MapEntry := s.flt.kept ++ s.flt.books

/-- The entries of a kind and instance that the hardware has applied. -/
def State.morOf (s : State) (kind inst : Nat) : List MapEntry := s.applied.filter (fun e => e.kind == kind && e.inst == inst)

/-- A change entered in the books: it waits for its record (R430). A lane substitution moves to the end of the books, since the last one of a
logical lane holds (R311). -/
def State.morAdd (s : State) (kind inst pos cause : Nat) : State :=
  if s.morHas kind inst pos then
    if kind = 5 then
      let l := s.flt.books.filter (fun e => ! (e.kind == 5 && e.inst == inst && e.pos == pos))
      (s.setFlt { s.flt with books := l ++ [⟨kind, inst, pos, cause⟩] }).put F.FLT_MOR_STS_pending 1
    else s
  else (s.setFlt { s.flt with books := s.flt.books ++ [⟨kind, inst, pos, cause⟩] }).put F.FLT_MOR_STS_pending 1

/-- A substitution made (R427): event 0x0C01 with the pool instance (R436). -/
def State.morSubstituted (s : State) (kind inst pos cause : Nat) : State := (s.morAdd kind inst pos cause).raise 0x0C01 inst

/-- A unit retired (R427): event 0x0C02 with the pool instance. -/
def State.morRetired (s : State) (kind inst pos cause : Nat) : State := (s.morAdd kind inst pos cause).raise 0x0C02 inst

/-- A fault reported to Moraine that waits for its answer. -/
def State.morReport (s : State) (kind inst pos cause : Nat) : State :=
  if s.flt.reports.contains ⟨kind, inst, pos, cause⟩ then s
  else s.setFlt { s.flt with reports := s.flt.reports ++ [⟨kind, inst, pos, cause⟩] }

/-- Loads that were asked for and have not begun, outranked by a transition to HOLD or LIMP (R23): each is recorded and completes ABORTED. -/
def State.endAskedLoads (s : State) : State :=
  let isLoad (c : AdminCmd) : Bool := c.d.opcode == 0x10
  let l := s.hif.accepted.filter isLoad
  l.foldl (fun s c => (s.logAdd (.outranked Mode.load.code)).complete c.src 7 0x13)
    (s.setHif { s.hif with accepted := s.hif.accepted.filter (fun c => ! isLoad c) })

/-- Region n is retired. -/
def State.regionRetired (s : State) (n : Nat) : Bool := bitOf (s.get F.FLT_RET_REG_regions) n

/-- The books give the assignment of a group: the last substitution of each logical lane, the retired indices, the spare that is left. -/
def State.grpMap (s : State) (g : Nat) : List Nat × Option Nat × List Nat :=
  let retired := (s.morOf 6 g).map (·.pos)
  let subs := s.morOf 5 g
  let phys := (List.range 4).map (fun k => ((subs.filter (fun e => e.pos / 256 == k)).getLast?.map (fun e => e.pos % 256)).getD k)
  let spare := (List.range 5).reverse.find? (fun i => ! phys.contains i && ! retired.contains i)
  (phys, spare, retired)

/-- A logical lane of a group has no lane in its place: the index that the books give it is retired (R332). -/
def State.grpRetired (s : State) (g : Nat) : Bool := (s.grpMap g).1.any ((s.grpMap g).2.2.contains ·)

/-- A unit is retired in the sense of R17: a region, a Spoke unit, a port, fewer than 8 working VCORE phases, or a logical lane without a
lane in its place. -/
def State.anyRetired (s : State) : Bool :=
  s.get F.FLT_RET_REG_regions != 0 || s.get F.FLT_RET_SPK0_units != 0 || s.get F.FLT_RET_SPK1_units != 0 ||
    s.get F.FLT_RET_MISC_ports != 0 || decide (2 < popBelow (s.get F.FLT_RET_MISC_phases) 10) ||
    (List.range 12).any (fun g => s.grpRetired g)

end Sys2Proof.Machine
end

