-- ==== Sys2Proof/Machine/Media.lean ====
section
/-! DEFINITION. The settings memory: bytes, directory (R262, R263), settings records (R264, R265), the repair map as it is stored
(R267, R431), erasing and writing. -/

namespace Sys2Proof.Machine

/-- The settings memory answers (unit 1 of Table 01.7). -/
def State.norOk (s : State) : Bool := s.unitOk 1

/-- Bytes of the settings memory; an erased byte reads 0xFF, and so does an address beyond the device. -/
def State.norByte (s : State) (a : Nat) : Byte := if a < s.norSize then SMap.get (fun _ => 0xFF) s.nor a else 0xFF
def State.norRead (s : State) (a n : Nat) : List Byte := (List.range n).map (fun i => s.norByte (a + i))
def State.norNat (s : State) (a n : Nat) : Nat := leNat (s.norRead a n)

/-- Bytes programmed from an address. -/
def State.norWrite (s : State) (a : Nat) : List Byte → State
  | [] => s
  | b :: bs => State.norWrite { s with nor := SMap.set (fun _ => 0xFF) s.nor a b } (a + 1) bs

/-- Addresses erased. -/
def State.norErase (s : State) (a n : Nat) : State := { s with nor := SMap.keep s.nor (fun k => decide (k < a) || decide (a + n ≤ k)) }

/-- Sequence a is higher than b, as a signed difference modulo 2^32 (R262, R264). -/
def seqHigher (a b : Nat) : Bool := decide (0 < (BitVec.ofNat 32 a - BitVec.ofNat 32 b).toInt)

/-- The copy in use of two, each with its sequence where it is valid. -/
def pickCopy (c0 c1 : Option Nat) : Option Nat :=
  match c0, c1 with
  | some a, some b => some (if seqHigher b a then 1 else 0)
  | some _, none => some 0
  | none, some _ => some 1
  | none, none => none

/-! ## Directory -/

/-- A directory entry (Table 09.3). -/
structure DirEntry where
  type : Nat
  sub : Nat
  off : Nat
  len : Nat
  version : Nat
  deriving DecidableEq, Repr

def DirEntry.ofBytes (bs : List Byte) : DirEntry := ⟨fieldAt bs 0 1, fieldAt bs 1 1, fieldAt bs 4 4, fieldAt bs 8 4, fieldAt bs 12 4⟩
def DirEntry.bytes (e : DirEntry) : List Byte := le 1 e.type ++ le 1 e.sub ++ le 2 0 ++ le 4 e.off ++ le 4 e.len ++ le 4 e.version ++ le 16 0

/-- Where an entry lies: the golden image at 0x0800_0000 whatever its offset field holds (R262, R263). -/
def DirEntry.start (e : DirEntry) : Nat := if e.type = 2 then 0x08000000 else e.off
def DirEntry.stop (e : DirEntry) : Nat := e.start + e.len

/-- Two address ranges share an address. -/
def overlaps (a la b lb : Nat) : Bool := decide (a < b + lb) && decide (b < a + la) && decide (0 < la) && decide (0 < lb)

/-- No entry overlaps another entry or the directory blocks. -/
def entriesApart : List DirEntry → Bool
  | [] => true
  | e :: es => ! overlaps e.start e.len 0 0x20000 && es.all (fun f => ! overlaps e.start e.len f.start f.len) && entriesApart es

/-- A directory copy that is valid under R262: its sequence and entries. -/
def dirOf (bs : List Byte) : Option (Nat × List DirEntry) :=
  let n := fieldAt bs 8 2
  if fieldAt bs 0 4 ≠ 0x6A5C0D17 ∨ n = 0 ∨ 32 < n ∨ fieldAt bs (0x10 + 32 * n) 4 ≠ (crc32c (bs.take (0x10 + 32 * n))).toNat then none
  else
    let es := (List.range n).map (fun i => DirEntry.ofBytes (slice bs (0x10 + 32 * i) 32))
    if entriesApart es then some (fieldAt bs 4 4, es) else none

def State.dirCopy (s : State) (c : Nat) : Option (Nat × List DirEntry) :=
  if s.norOk then dirOf (s.norRead (0x10000 * c) (0x10 + 32 * 32 + 4)) else none

/-- The entries of the directory copy in use. -/
def State.directory (s : State) : List DirEntry :=
  match s.dirCopy (s.get F.LDR_STS_dir_copy) with
  | some d => d.2
  | none => []

/-- The first entry of a type. -/
def State.dirEntry (s : State) (type : Nat) : Option DirEntry := s.directory.find? (fun e => e.type == type)

/-- The bytes of a directory copy. -/
def dirBytes (seq : Nat) (es : List DirEntry) : List Byte :=
  let body := le 4 0x6A5C0D17 ++ le 4 seq ++ le 2 es.length ++ le 6 0 ++ es.flatMap DirEntry.bytes
  body ++ le 4 (crc32c body).toNat

/-- LDR_STS.dir_single: one copy of the directory is valid and the other is not (Table 09.16). -/
def State.dirSingle (s : State) : State := s.putB F.LDR_STS_dir_single ((s.dirCopy 0).isSome != (s.dirCopy 1).isSome)

/-- The directory copy not in use rewritten, with the sequence incremented, and taken into use (R391, R392); where the write fails it is left
erased. -/
def State.dirWrite (s : State) (es : List DirEntry) (ok : Bool) : State :=
  let use := s.get F.LDR_STS_dir_copy
  let seq := match s.dirCopy use with | some d => d.1 | none => 0
  let c := 1 - use
  let s := s.norErase (0x10000 * c) 0x10000
  (if ok then (s.norWrite (0x10000 * c) (dirBytes (seq + 1) es)).put F.LDR_STS_dir_copy c else s).dirSingle

/-! ## Settings records -/

/-- The sections of a body; none unless they fill it exactly (R265). -/
def sectionsOf : Nat → List Byte → Option (List Section)
  | 0, bs => if bs.isEmpty then some [] else none
  | k + 1, bs =>
    if bs.isEmpty then some []
    else if bs.length < 4 then none
    else
      let n := fieldAt bs 2 2
      if bs.length < 4 + n then none
      else (sectionsOf k (bs.drop (4 + n))).map (fun l => ⟨fieldAt bs 0 2, slice bs 4 n⟩ :: l)

/-- The fuses as the loader and the Groomer's repair read them: the read path that the clear before a scan has blocked gives nothing
programmed until the next start from COLD (R421; DEDUCED, log entry 166). -/
def State.fuseView (s : State) : Fuses :=
  if s.ldr.fuseBlocked then { s.fuses with hashProg := 0, hashes := [], custProg := 0, cust := [], duk := [] } else s.fuses

/-- The settings area, where the directory holds one. -/
def State.settingsAt (s : State) : Option Nat := (s.dirEntry 0x20).map DirEntry.start

/-- A settings record that is valid under R264 and R265: its sequence and sections. -/
def State.settingsRecord (s : State) (c : Nat) : Option (Nat × List Section) :=
  match s.settingsAt with
  | none => none
  | some base =>
    let a := base + 0x10000 * c
    let n := s.norNat (a + 8) 4
    if ! s.norOk ∨ s.norNat a 4 ≠ 0x6A5C5E77 ∨ 65520 < n then none
    else
      let body := s.norRead (a + 16) n
      if s.norNat (a + 12) 4 ≠ (crc32c body).toNat then none
      else (sectionsOf n body).map (fun l => (s.norNat (a + 4) 4, l))

/-- The sections of the settings record in use; none when both are invalid (R264). -/
def State.settings (s : State) : List Section :=
  match s.settingsRecord (s.get F.LDR_STS_set_copy) with
  | some r => r.2
  | none => []

/-- A section that is skipped (R265). -/
def Section.skipped (x : Section) : Bool :=
  if x.type = 7 then x.body.length != 8
  else if (1 ≤ x.type ∧ x.type ≤ 6) ∨ x.type = 8 then x.body.length % 8 != 0
  else true

/-- Event 0x020B for each skipped section, once per load (R265). -/
def State.skipEvents (s : State) (l : List Section) : State :=
  (l.filter Section.skipped).foldl (fun s x => s.raise 0x020B x.type) s

/-- The entries of a list section: BAR0 offset and value (R336). -/
def entriesOf : Nat → List Byte → List (Nat × Word)
  | 0, _ => []
  | k + 1, bs => (fieldAt bs 0 4, BitVec.ofNat 32 (fieldAt bs 4 4)) :: entriesOf k (bs.drop 8)

/-- The entries of every section of a list type, in record order (R265). -/
def listEntries (l : List Section) (type : Nat) : List (Nat × Word) :=
  (l.filter (fun x => x.type == type && ! x.skipped)).flatMap (fun x => entriesOf (x.body.length / 8) x.body)

/-- The start-up section in force: the last that is not skipped, else all zero (R264, R265, Table 09.4). -/
def startupSection (l : List Section) : List Byte :=
  match (l.filter (fun x => x.type == 7 && ! x.skipped)).getLast? with
  | some x => x.body
  | none => le 8 0xE400

def autoloadOn (l : List Section) : Bool := bitOf (fieldAt (startupSection l) 0 1) 0
def autoRestartOn (l : List Section) : Bool := bitOf (fieldAt (startupSection l) 0 1) 1
def essentialSet (l : List Section) : Nat := fieldAt (startupSection l) 2 2
def lockGroups (l : List Section) : Nat := fieldAt (startupSection l) 4 2 % 4096 / 4 * 4

/-- The phase code in position k of an order. -/
def phaseAt (order k : Nat) : Nat := order / 4 ^ k % 4

/-- An order names each code once (R285). -/
def orderLegal (order : Nat) : Bool :=
  decide (order < 256) && [0, 1, 2, 3].all (fun c => (List.range 4).any (fun k => phaseAt order k == c))

/-- The order of a manifest, or of the start-up section when it is 0x00 (Table 09.4, R285). -/
def orderInForce (man : BitVec 8) (l : List Section) : Nat :=
  if man = 0 then (let o := fieldAt (startupSection l) 1 1; if orderLegal o then o else 0xE4) else man.toNat

/-! ## The repair map as it is stored (R431) -/

/-- The key of the repair map (R431). -/
def mapKey (duk : List Byte) : List Byte :=
  (Config.hmac384 duk (be 4 1 ++ ascii [0x56, 0x41, 0x32, 0x33, 0x36, 0x30, 0x20, 0x4D, 0x41, 0x50] ++ [0] ++ be 4 0x100)).take 32

/-- A record: erased, not verifying, or verifying with its sequence and entries. -/
inductive MapRecord where
  | erased
  | bad
  | good (seq : Nat) (entries : List MapEntry)
  deriving DecidableEq, Repr

/-- The entry of Table 14.9 in 8 bytes. -/
def MapEntry.ofBytes (bs : List Byte) : MapEntry := ⟨fieldAt bs 0 1, fieldAt bs 1 1, fieldAt bs 2 2, fieldAt bs 4 4⟩
def MapEntry.bytes (e : MapEntry) : List Byte := le 1 e.kind ++ le 1 e.inst ++ le 2 e.pos ++ le 4 e.info

/-- The bytes of a record without its tag, and the whole record. -/
def mapBody (seq : Nat) (es : List MapEntry) : List Byte :=
  le 4 0x6A5C3A90 ++ le 2 1 ++ le 2 es.length ++ le 4 seq ++ le 52 0 ++ es.flatMap MapEntry.bytes
def mapBytes (duk : List Byte) (seq : Nat) (es : List MapEntry) : List Byte :=
  mapBody seq es ++ Config.hmac384 (mapKey duk) (mapBody seq es)

/-- The repair-map area, where it can be read (R267). -/
def State.mapAt (s : State) : Option Nat := if s.norOk then (s.dirEntry 0x30).map DirEntry.start else none

/-- Record c of the area. -/
def State.mapRecord (s : State) (base c : Nat) : MapRecord :=
  let a := base + 0x10000 * c
  let n := s.norNat (a + 6) 2
  if s.norNat a 4 = 0xFFFFFFFF then .erased
  else if s.norNat a 4 ≠ 0x6A5C3A90 ∨ s.norNat (a + 4) 2 ≠ 1 ∨ 4096 < n then .bad
  else
    let body := s.norRead a (64 + 8 * n)
    if s.norRead (a + 64 + 8 * n) 48 = Config.hmac384 (mapKey s.fuses.duk) body then
      .good (fieldAt body 8 4) ((List.range n).map (fun i => MapEntry.ofBytes (slice body (64 + 8 * i) 8)))
    else .bad

def MapRecord.seq? : MapRecord → Option Nat
  | .good q _ => some q
  | _ => none

/-- What the area holds: whether the map is sound (erased or verifying), the copy in use, its sequence and entries (R267, R431). -/
structure MapView where
  ok : Bool
  use : Option Nat
  seq : Nat
  entries : List MapEntry
  empty : Bool
  deriving DecidableEq, Repr

def State.mapView (s : State) : MapView :=
  match s.mapAt with
  | none => ⟨true, none, 0, [], true⟩
  | some base =>
    let r0 := s.mapRecord base 0
    let r1 := s.mapRecord base 1
    match pickCopy r0.seq? r1.seq? with
    | some c => match (if c = 0 then r0 else r1) with
      | .good q es => ⟨true, some c, q, es, false⟩
      | _ => ⟨false, none, 0, [], false⟩
    | none => if r0 = .erased ∧ r1 = .erased then ⟨true, none, 0, [], true⟩ else ⟨false, none, 0, [], false⟩

/-- FLT_MOR_STS follows the area. -/
def State.mapShow (s : State) : State :=
  let v := s.mapView
  let s := (s.put F.FLT_MOR_STS_seq v.seq).putB F.FLT_MOR_STS_map_ok v.use.isSome
  (s.put F.FLT_MOR_STS_copy (v.use.getD 0)).putB F.FLT_MOR_STS_empty v.empty

/-- The repair-map record of the books written to the copy not in use (R430); none where there is no area. -/
def State.mapWrite (s : State) : Option State :=
  match s.mapAt with
  | none => none
  | some base =>
    let v := s.mapView
    let c := match v.use with | some u => 1 - u | none => 0
    let a := base + 0x10000 * c
    some (((s.norErase a 0x10000).norWrite a (mapBytes s.fuses.duk (v.seq + 1) s.flt.books)).mapShow)

end Sys2Proof.Machine
end

