-- ==== Sys2Proof/Machine/AdminOps.lean ====
section
/-! DEFINITION. How admin commands are checked and accepted (R387, R390, R397): opcode, arguments, mode, the same opcode running. -/

namespace Sys2Proof

open Machine

/-- The opcodes of Table 13.7. -/
def adminOpcodes : List Nat := [0x01, 0x02, 0x10, 0x11, 0x12, 0x13, 0x20, 0x21, 0x30, 0x31, 0x40, 0x50, 0x60, 0x70, 0x71]

def AdminDesc.op (d : AdminDesc) : Nat := d.opcode.toNat

/-- The descriptor of Table 13.3 that 32 bytes hold, with its command identifier. -/
def AdminDesc.ofBytes (raw : List Byte) : AdminDesc := {
  opcode := raw.getD 0 0
  arg0 := BitVec.ofNat 32 (fieldAt raw 4 4)
  arg1 := BitVec.ofNat 32 (fieldAt raw 0x14 4)
  arg2 := BitVec.ofNat 32 (fieldAt raw 0x18 4)
  arg3 := BitVec.ofNat 32 (fieldAt raw 0x1C 4)
  addr := BitVec.ofNat 64 (fieldAt raw 8 8)
  len := BitVec.ofNat 32 (fieldAt raw 0x10 4) }

/-- The fields of arg0 (Table 13.7). -/
def AdminDesc.source (d : AdminDesc) : Nat := d.arg0.toNat % 4
def AdminDesc.store (d : AdminDesc) : Bool := d.arg0.getLsbD 2
def AdminDesc.set (d : AdminDesc) : Nat := d.arg0.toNat % 65536
def AdminDesc.fromEntry (d : AdminDesc) : Bool := d.arg0.getLsbD 17

/-- The command takes a host buffer or list (R397). -/
def AdminDesc.needsHost (d : AdminDesc) : Bool :=
  match d.op with
  | 0x02 | 0x31 | 0x40 | 0x60 | 0x20 | 0x71 => true
  | 0x50 => ! d.arg0.getLsbD 1
  | 0x10 => d.source == 0
  | 0x11 => ! d.fromEntry
  | _ => false

/-- A host list: an array of 16-byte entries, at most 4,096 of them (after R388). -/
def AdminDesc.listOk (d : AdminDesc) : Bool := d.len.toNat % 16 == 0 && decide (16 ≤ d.len.toNat) && decide (d.len.toNat ≤ 65536)

/-- Check 2 of R387: the arguments and lengths of Table 13.7. The buffer that a short one would have needed, 0 for no such complaint; none
where the arguments stand. -/
def AdminDesc.badArg (d : AdminDesc) : Option Nat :=
  let bad (b : Bool) : Option Nat := if b then some 0 else none
  match d.op with
  | 0x02 => if d.len.toNat < 64 then some 64 else none
  | 0x10 => bad (d.source == 3 || (d.store && d.source != 0) || (d.source == 0 && ! d.listOk))
  | 0x11 => bad (d.set == 0 || (! d.fromEntry && ! d.listOk))
  | 0x12 | 0x13 => bad (d.set == 0 || d.set != d.arg0.toNat)
  | 0x20 => bad (d.len.toNat % 8 != 0 || decide (4096 < d.len.toNat))
  | 0x30 => bad (decide (1 < d.source))
  | 0x60 => bad (d.source == 3 || (d.source == 0 && decide (65520 < d.len.toNat)))
  | 0x70 => bad (d.arg0.toNat % 8 != 1 && d.arg0.toNat % 8 != 2)
  | 0x71 => if d.len.toNat < 8192 then some 8192 else none
  | _ => none

end Sys2Proof

namespace Sys2Proof.Machine

/-- Every region of a set is EMPTY, ISOLATED or PARTIAL_FAULT (Table 13.9). -/
def State.setIdle (s : State) (set : Nat) : Bool :=
  (List.range 16).all (fun n => ! bitOf set n || [0, 2, 5].contains (s.get (F.REGION_PR_STS_state n)))

/-- The load in progress reads the settings memory: every source but the host, which LDR_STS codes 3 (R284). -/
def State.loadReadsNor (s : State) : Bool :=
  match s.ldr.load with
  | some l => l.source != 3
  | none => false

/-- Check 3 of R387: the status of a command in the present mode, 0 where it is allowed (Table 13.9). -/
def State.modeStatus (s : State) (d : AdminDesc) : Nat :=
  let run := s.running
  let ok (b : Bool) : Nat := if b then 0 else 3
  match d.op with
  | 0x10 => if s.mode = .load then 6 else 0
  | 0x11 => if s.mode = .load then 6 else ok run
  | 0x12 | 0x13 => ok run
  | 0x20 | 0x21 | 0x71 => ok (run || s.mode = .hold)
  | 0x30 =>
    if d.source = 0 then ok run
    else ok ((run || (s.mode = .hold && s.pwr.on)) && s.setIdle (d.arg1.toNat % 65536))
  | 0x50 => if d.arg0.getLsbD 1 then ok (s.mode = .supervise || s.mode = .hold) else 0
  | 0x60 => if s.mode = .load ∧ s.loadReadsNor then 6 else 0
  | 0x70 => if d.arg0.toNat % 8 = 1 then ok (s.mode != .supervise) else ok (s.mode = .hold)
  | _ => 0

/-- Check 4 of R387: a command of the same opcode is still running; for CAD_SOURCE_SWITCH, of the same track. -/
def State.sameRuns (s : State) (d : AdminDesc) : Bool :=
  let same (c : AdminCmd) : Bool := c.d.opcode == d.opcode && (d.op != 0x21 || c.d.arg0.toNat % 8 == d.arg0.toNat % 8)
  s.hif.running.any same || (runningOps.contains d.op && s.hif.accepted.any same)

/-- The directory entry that a LOAD_PARTIAL names is a region image of its set (R297). -/
def State.entryFits (s : State) (d : AdminDesc) : Bool :=
  d.op != 0x11 || ! d.fromEntry ||
    (match s.directory[d.arg1.toNat]? with
    | some e => e.type == 0x10 && e.sub == lowestBit d.set 16
    | none => false)

/-- The first failed check of R387, with the length that a short buffer would have needed: status and res0; status 0 for none. Check 4
follows the mode, and a command of the mailbox or the console that needs a host buffer breaks check 2 (R397). The entries of a CAD_TABLE_WRITE
are arguments too (Table 13.7): its mode is checked once they have been read. -/
def State.firstCheck (s : State) (host : Bool) (d : AdminDesc) : Nat × Nat :=
  if ! adminOpcodes.contains d.op then (1, 0)
  else if ! host && d.needsHost then (2, 0)
  else match d.badArg with
    | some n => (2, n)
    | none =>
      if ! s.entryFits d then (2, 0)
      else if d.op ≠ 0x20 ∧ s.modeStatus d ≠ 0 then (s.modeStatus d, 0)
      else if s.sameRuns d then (6, 0)
      else (0, 0)

/-- A command fetched: completed with the status of its first failed check, or accepted (R387). -/
def State.enroll (s : State) (src : CmdSrc) (d : AdminDesc) : State :=
  let host := match src with | .ring _ _ => true | _ => false
  let r := s.firstCheck host d
  if r.1 ≠ 0 then s.complete src r.1 0 r.2
  else s.setHif { s.hif with accepted := s.hif.accepted ++ [⟨src, d⟩] }

/-- The command that the mailbox registers describe (Table 13.12). -/
def State.mboxDesc (s : State) : AdminDesc := {
  opcode := BitVec.ofNat 8 (s.get F.HIF_MBOX_CMD_opcode)
  arg0 := s.rd (R.HIF_MBOX_ARG 0)
  arg1 := s.rd (R.HIF_MBOX_ARG 1)
  arg2 := s.rd (R.HIF_MBOX_ARG 2)
  arg3 := s.rd (R.HIF_MBOX_ARG 3)
  addr := 0
  len := 0 }

/-- A write of HIF_MBOX_CMD (R397): go is discarded while busy reads 1. -/
def State.mboxWrite (s : State) (v : Word) : State :=
  let s := s.put F.HIF_MBOX_CMD_opcode v.toNat
  if ! v.getLsbD 8 ∨ s.on F.HIF_MBOX_CMD_busy then s
  else (s.put F.HIF_MBOX_CMD_busy 1).enroll .mailbox s.mboxDesc

/-- The first accepted command that satisfies a test runs: its mode is checked again, since it may have changed since the command was
accepted (R24, R390); what its buffer holds may break check 2 of R387 before that. No supervisor half, no command (R30). -/
def State.runAccepted (s : State) (p : AdminDesc → Bool) (f : AdminCmd → State → State) (bad : Bool := false) : Out :=
  match (if s.latched then none else s.takeCmd p) with
  | none => .next s
  | some (c, t) => if bad then .next (t.complete c.src 2 0) else if t.modeStatus c.d ≠ 0 then .next (t.complete c.src (t.modeStatus c.d) 0) else .next (f c t)

/-- The bytes that a list of 16-byte entries names, up to the entry marked last; none without one (after R388). -/
def listBytes : Nat → List Byte → Option Nat
  | 0, _ => none
  | k + 1, bs =>
    let n := fieldAt bs 8 4
    if (bs.getD 12 0).getLsbD 0 then some n else (listBytes k (bs.drop 16)).map (n + ·)

/-- The list of a host stream as it was read: as long as the command says, with its last entry marked. -/
def hostList (d : AdminDesc) (bs : List Byte) : Option Nat := if bs.length = d.len.toNat then listBytes (bs.length / 16) bs else none

/-- An opcode test. -/
def isOp (n : Nat) (d : AdminDesc) : Bool := d.op == n

end Sys2Proof.Machine
end

