-- ==== Sys2Proof/Machine/Fabric.lean ====
section
/-! DEFINITION. The configuration of the fabric and its routing: frames (R85, R116 to R120, R149), selectors (R80, R93, R94, R99), the
segments that cross a region edge (R92, R110, R111), the attachment of channels (R124, R125, R153 to R155, R235). -/

namespace Sys2Proof.Machine

/-! ## Frames -/

/-- The number of a frame address (R116). -/
def frameAddr (n col minor : Nat) : Nat := n * 65536 + col * 256 + minor

/-- The content of a frame: 0 where nothing has been written. -/
def State.frame (s : State) (n col minor : Nat) : Frame := SMap.get (fun _ => 0) s.fab.frames (frameAddr n col minor)

/-- The state with a frame written. -/
def State.setFrame (s : State) (addr : Nat) (f : Frame) : State :=
  { s with fab := { s.fab with frames := SMap.set (fun _ => 0) s.fab.frames addr f } }

/-- `w` bits of the vector that the minors of a column form, from bit `off` (R149); `w` is at most 4,096. -/
def State.vget (s : State) (n col off w : Nat) : Nat :=
  let m := off / 4096
  ((s.frame n col m).toNat + 2 ^ 4096 * (s.frame n col (m + 1)).toNat) >>> (off % 4096) % 2 ^ w

/-- The same bits written. -/
def State.vset (s : State) (n col off w v : Nat) : State :=
  let m := off / 4096
  let lo := off % 4096
  let x := (s.frame n col m).toNat + 2 ^ 4096 * (s.frame n col (m + 1)).toNat
  let y := x - (x >>> lo % 2 ^ w) <<< lo + (v % 2 ^ w) <<< lo
  let s := s.setFrame (frameAddr n col m) (BitVec.ofNat 4096 y)
  if lo + w ≤ 4096 then s else s.setFrame (frameAddr n col (m + 1)) (BitVec.ofNat 4096 (y >>> 4096))

/-- A field of the region control column (Table 04.6). -/
def State.ctl (s : State) (n minor lo w : Nat) : Nat := (s.frame n 0x4D minor).toNat >>> lo % 2 ^ w

/-- `w` bits of the slot of a tile, counted over consecutive minors of 56 bits each (R85). -/
def State.slotBits (s : State) (t : Tile) (minor off w : Nat) : Nat :=
  let one (m : Nat) : Nat := (s.frame t.n t.c m).toNat >>> (56 * t.r) % 2 ^ 56
  (one (minor + off / 56) + 2 ^ 56 * one (minor + off / 56 + 1)) >>> (off % 56) % 2 ^ w

/-- A field of the word of cell i (Table 03.5). -/
def State.cellF (s : State) (t : Tile) (i lo w : Nat) : Nat := s.slotBits t (2 * i) lo w

/-- The crossbar vector (Table 03.8). -/
def State.xbar (s : State) (t : Tile) (v w : Nat) : Nat := s.slotBits t 0x49 v w

/-- The switch-point vector (Table 04.7). -/
def State.switch (s : State) (t : Tile) (v w : Nat) : Nat := s.slotBits t 0x56 v w

/-- The word of slack stage x of a tile (Table 03.6), x = 32 to 63 for the outbound digits. -/
def State.slackF (s : State) (t : Tile) (x lo w : Nat) : Nat := s.slotBits t (0x40 + x / 8) (7 * (x % 8) + lo) w

/-- The word of the switch-point slack stage of a start. -/
def State.switchSlackF (s : State) (t : Tile) (st lo w : Nat) : Nat := s.switch t (320 + 7 * st + lo) w

/-- The modes of Table 03.1; the reserved codes act as OFF (R70). -/
inductive CellMode where
  | off | function | function5 | fork | join | split | selectMerge | arbMerge | source | sink | const | mux
  deriving DecidableEq, Repr

/-- The mode of a code. -/
def CellMode.ofCode : Nat → CellMode
  | 1 => .function
  | 2 => .function5
  | 3 => .fork
  | 4 => .join
  | 5 => .split
  | 6 => .selectMerge
  | 7 => .arbMerge
  | 8 => .source
  | 9 => .sink
  | 10 => .const
  | 11 => .mux
  | _ => .off

def State.cellMode (s : State) (t : Tile) (i : Nat) : CellMode := .ofCode (s.cellF t i 32 4)
def State.cellSub (s : State) (t : Tile) (i : Nat) : Nat := s.cellF t i 36 2
def State.chainSrc (s : State) (t : Tile) (i : Nat) : Nat := s.cellF t i 38 2
def State.holdEn (s : State) (t : Tile) (i : Nat) : Bool := s.cellF t i 57 1 == 1

/-- A cell drives a chain output only in FUNCTION5 and MUX (R67). -/
def State.drivesChain (s : State) (t : Tile) (i : Nat) : Bool := s.cellMode t i == .function5 || s.cellMode t i == .mux

/-! ## Positions -/

/-- The length of a segment of a slot (Table 04.1). -/
def segLen (slot : Nat) : Nat := if slot < 4 then 1 else if slot < 6 then 2 else if slot = 6 then 4 else 12

/-- The tile `len` tiles away in a direction (0 north, 1 east, 2 south, 3 west), none outside the 4 x 4 grid (R90). -/
def Tile.move (t : Tile) (d len : Nat) : Option Tile :=
  match d with
  | 0 => if t.r + len < 72 then some { t with r := t.r + len } else if t.n < 12 then some ⟨t.n + 4, t.c, t.r + len - 72⟩ else none
  | 1 => if t.c + len < 64 then some { t with c := t.c + len } else if t.n % 4 < 3 then some ⟨t.n + 1, t.c + len - 64, t.r⟩ else none
  | 2 => if len ≤ t.r then some { t with r := t.r - len } else if 4 ≤ t.n then some ⟨t.n - 4, t.c, t.r + 72 - len⟩ else none
  | _ => if len ≤ t.c then some { t with c := t.c - len } else if 0 < t.n % 4 then some ⟨t.n - 1, t.c + 64 - len, t.r⟩ else none

/-- The far tile of a segment with a wire: a length 2 or 12 segment does not cross a region edge (R92). -/
def Tile.far (t : Tile) (d slot : Nat) : Option Tile :=
  match t.move d (segLen slot) with
  | none => none
  | some u => if u.n = t.n ∨ slot < 4 ∨ slot = 6 then some u else none

/-- The region across an edge (R90). -/
def neighbour (n e : Nat) : Option Nat :=
  match e with
  | 0 => if n < 12 then some (n + 4) else none
  | 1 => if n % 4 < 3 then some (n + 1) else none
  | 2 => if 4 ≤ n then some (n - 4) else none
  | _ => if 0 < n % 4 then some (n - 1) else none

/-- The crossing track of a segment that starts at a tile and crosses the edge in direction d (R110). -/
def crossTrack (t : Tile) (d slot : Nat) : Nat :=
  if slot < 4 then slot else
  4 + (match d with
    | 0 => 71 - t.r
    | 1 => 63 - t.c
    | 2 => t.r
    | _ => t.c)

/-- The index of an isolation cell on edge e (R110): `dir` 0 leaving, 1 entering. -/
def isoIndex (t : Tile) (e dir track : Nat) : Nat := 16 * (if e % 2 = 1 then t.r else t.c) + 8 * dir + track

/-- A field of an isolation cell word (R119, Table 04.8). -/
def State.isoF (s : State) (n e i lo w : Nat) : Nat := (s.frame n 0x4C (12 * e + i / 128)).toNat >>> (32 * (i % 128) + lo) % 2 ^ w

/-- The ring of a region is cut (R111). -/
def State.cut (s : State) (n : Nat) : Bool := s.on (F.REGION_ISO_STS_own_cut n)

/-! ## Channels (R124, R153 to R155, R235) -/

/-- A field of a slice word (Table 05.6). -/
def State.sliceF (s : State) (n c sl lo w : Nat) : Nat := s.vget n (0x40 + c) (3072 * sl + lo) w

/-- A field of a Firn block word (Table 05.7). -/
def State.firnF (s : State) (n f b lo w : Nat) : Nat := s.vget n (0x44 + 4 * f + b / 18) (700416 + 1024 * (b % 18) + lo) w

/-- The data digits of a Firn shape (Table 05.2). -/
def State.firnDigits (s : State) (n f b : Nat) : Nat :=
  match s.firnF n f b 0 2 with
  | 0 => 5
  | 1 => 9
  | 2 => 18
  | _ => if s.firnF n f b 2 1 = 1 then 32 else 36

/-- The region of a queue and its attachment there (R153). -/
def queueRegion (q : Nat) : Nat := q % 32 / 2
def queueAttach (q : Nat) : Nat := 2 * (q / 32) + q % 2

/-- The edge regions in the order of R233. -/
def edgeRegions : List Nat := [0, 1, 2, 3, 4, 7, 8, 11, 12, 13, 14, 15]

/-- The region of Spoke unit u (R233). -/
def unitRegion (u : Nat) : Nat := edgeRegions.getD (u / 4) 0

/-- The region of a channel. -/
def Chan.region : Chan → Nat
  | .slice n _ _ _ => n
  | .firn n _ _ _ => n
  | .queue q _ => queueRegion q
  | .evIn n _ => n
  | .evOut n _ => n
  | .spoke u _ => unitRegion u

/-- The interface column of a channel. -/
def Chan.col : Chan → Nat
  | .slice _ c _ _ => if c = 0 then 15 else if c = 1 then 16 else if c = 2 then 47 else 48
  | .firn _ f _ p => (if f = 0 then 15 else 47) + (if p < 2 then 0 else 1)
  | .queue q _ => if q < 32 then 31 else 32
  | .evIn _ _ => 31
  | .evOut _ _ => 32
  | .spoke u _ => if u % 4 < 2 then 0 else 63

/-- The home row of a channel. -/
def Chan.home : Chan → Nat
  | .slice _ _ sl _ => 6 * sl / 5
  | .firn _ _ b _ => b
  | .queue q _ => 18 * queueAttach q + 8
  | .evIn _ k => 9 * k + 4
  | .evOut _ k => 9 * k + 4
  | .spoke u _ => 36 * (u % 4 % 2) + 16

/-- The base code of a channel. -/
def State.chanBase (s : State) : Chan → Nat
  | .slice n c sl p => s.sliceF n c sl (32 + 7 * p) 7
  | .firn n f b p => s.firnF n f b (24 + 7 * p) 7
  | .queue q p => s.ctl (queueRegion q) 1 (32 * queueAttach q + 7 * p) 7
  | .evIn n k => s.ctl n 1 (32 * (4 + k)) 7
  | .evOut n k => s.ctl n 1 (32 * (12 + k)) 7
  | .spoke u p =>
    let m := 2 + u % 4
    if p < 6 then s.ctl (unitRegion u) m (7 * p) 7
    else if p < 32 then s.ctl (unitRegion u) m (64 * (p - 16) + 64) 7
    else s.ctl (unitRegion u) m (64 * (p - 32) + 71) 7

/-- The digits of a channel. -/
def State.chanDigits (s : State) : Chan → Nat
  | .slice n c sl p => if p < 2 then 14 else if p = 2 then 12 else if p = 4 then s.sliceF n c sl 18 5 + 1 else 1
  | .firn n f b p =>
    let d := s.firnDigits n f b
    if p % 2 = 0 then 7 + (if s.firnF n f b (9 + 4 * p) 1 = 1 then d else 0) else d + s.firnF n f b (11 + 4 * (p - 1)) 1
  | .queue _ p => if p = 0 then 64 else 8
  | .evIn _ _ => 4
  | .evOut _ _ => 1
  | .spoke _ p => if p = 0 then 32 else if p = 1 then 24 else if p < 4 then 9 else 1

/-- A channel that carries tokens into the fabric. -/
def Chan.inward : Chan → Bool
  | .slice _ _ _ p => p == 4 || p == 5
  | .firn _ _ _ p => p % 2 == 1
  | .queue q _ => decide (q < 32)
  | .evIn _ _ => true
  | .evOut _ _ => false
  | .spoke _ p => (1 ≤ p && p ≤ 3) || (16 ≤ p && p < 32)

/-- A base code selects a row (R124). -/
def baseSelects (code : Nat) : Bool := decide (32 ≤ code % 128)

/-- The tile and digit index that digit d of a channel uses, none where the channel is not connected (R124). -/
def State.digitAt (s : State) (ch : Chan) (d : Nat) : Option (Tile × Nat) :=
  let code := s.chanBase ch
  let h := ch.home
  let n := s.chanDigits ch
  if ! baseSelects code ∨ n ≤ d ∨ (code / 32 = 1 ∧ h = 0) then none
  else
    let r0 := h + code / 32 - 2
    let last := r0 + (code % 32 + n - 1) / 32
    if h + 1 < last ∨ 71 < last then none
    else some (⟨ch.region, ch.col, r0 + (code % 32 + d) / 32⟩, (code % 32 + d) % 32)

/-- The rows whose home row lies within one of a row. -/
def near (row h : Nat) : Bool := decide (row ≤ h + 1) && decide (h ≤ row + 1)

/-- The Spoke units attached at a column of a region, in rising order. -/
def unitsAt (n col : Nat) : List Nat := (List.range 48).filter (fun u => unitRegion u == n && (if u % 4 < 2 then 0 else 63) == col && edgeRegions.contains n)

/-- The channels whose digits can use a tile, in the order of precedence of R125, R155 and R235. -/
def chansAt (t : Tile) : List Chan :=
  let hard (f c half : Nat) : List Chan :=
    ((List.range 72).filter (near t.r)).flatMap (fun b => [.firn t.n f b (2 * half), .firn t.n f b (2 * half + 1)]) ++
    ((List.range 60).filter (fun sl => near t.r (6 * sl / 5))).flatMap (fun sl => (List.range 6).map (fun p => .slice t.n c sl p))
  let queues (base j0 : Nat) : List Chan :=
    ([0, 1].filter (fun j => near t.r (18 * (j0 + j) + 8))).flatMap (fun j => [.queue (base + 2 * t.n + j) 0]) ++
    ([0, 1].filter (fun j => near t.r (18 * (j0 + j) + 8))).flatMap (fun j => [.queue (base + 2 * t.n + j) 1])
  let lines := (List.range 8).filter (fun k => near t.r (9 * k + 4))
  match t.c with
  | 15 => hard 0 0 0
  | 16 => hard 0 1 1
  | 47 => hard 1 2 0
  | 48 => hard 1 3 1
  | 31 => queues 0 0 ++ lines.map (fun k => .evIn t.n k)
  | 32 => queues 32 2 ++ lines.map (fun k => .evOut t.n k)
  | 0 | 63 => (unitsAt t.n t.c).flatMap (fun u =>
      if near t.r (36 * (u % 4 % 2) + 16) then
        [.spoke u 0] ++ (List.range 16).map (fun k => .spoke u (16 + k)) ++ (List.range 16).map (fun k => .spoke u (32 + k)) ++
          [.spoke u 1, .spoke u 2, .spoke u 3, .spoke u 4, .spoke u 5]
      else [])
  | _ => []

/-- The digit of a channel that uses digit index k of a tile. -/
def State.digitOn (s : State) (t : Tile) (k : Nat) (ch : Chan) : Option Nat :=
  (List.range (s.chanDigits ch)).find? (fun d => s.digitAt ch d == some (t, k))

/-- The channel digit that drives inbound digit k of a tile, by precedence (R124, R125, R155, R235). -/
def State.hardDriver (s : State) (t : Tile) (k : Nat) : Option Src :=
  ((chansAt t).filter Chan.inward).findSome? (fun ch => (s.digitOn t k ch).map (.digit ch))

/-- The channel digits that take outbound digit k of a tile (R124). -/
def State.hardTakers (s : State) (t : Tile) (k : Nat) : List Dst :=
  ((chansAt t).filter (fun ch => ! ch.inward)).filterMap (fun ch => (s.digitOn t k ch).map (.digit ch))

/-! ## Selectors -/

/-- What a crossbar selector of base b with code j chooses (R80). -/
def crossChoice (t : Tile) (b j : Nat) : Src := if j < 16 then .cell t ((b + j) % 32) else .inb t ((b + j) % 32)

/-- The cell before cell i on the chain (R66). -/
def chainPrev (t : Tile) (i : Nat) : Option (Tile × Nat) :=
  if 0 < i then some (t, i - 1) else if 0 < t.r then some ({ t with r := t.r - 1 }, 31) else none

/-- The cell after cell i on the chain (R66). -/
def chainNext (t : Tile) (i : Nat) : Option (Tile × Nat) :=
  if i < 31 then some (t, i + 1) else if t.r < 71 then some ({ t with r := t.r + 1 }, 0) else none

/-- The horizontal or vertical long track of a tap with a code 25 to 28 of an element of index x, as its segment (R93, R94, R98). -/
def trackSeg (vert : Bool) (tr : Nat) (t : Tile) : Nat :=
  if vert then (if tr < 12 then 0 else t.r / 36) else if tr < 8 then 0 else if tr < 16 then t.c / 32 else t.c / 16

def trackSrc (t : Tile) (vert : Bool) (tr : Nat) : Src := .track t.n vert (if vert then t.c else t.r) tr (trackSeg vert tr t)

/-- The long track that a tap code names, for the element of index x. -/
def tapTrack (t : Tile) (x j : Nat) : Option Src :=
  if j = 25 ∨ j = 26 then some (trackSrc t false (2 * (x % 12) + (j - 25)))
  else if j = 27 ∨ j = 28 then some (trackSrc t true (2 * (x % 12) + (j - 27)))
  else none

/-- What arrives as end e of a tile (R91): the segment, or across an edge what the two rings let through (R111). -/
def State.endSrc (s : State) (t : Tile) (e : Nat) : Option Src :=
  let d := e / 8
  match t.far ((d + 2) % 4) (e % 8) with
  | none => none
  | some u =>
    if u.n = t.n then some (.seg u e)
    else if ! s.cut t.n ∧ ! s.cut u.n then some (.seg u e)
    else if s.cut t.n then none
    else
      let i := isoIndex t ((d + 2) % 4) 1 (crossTrack u d (e % 8))
      if s.isoF t.n ((d + 2) % 4) i 0 2 = 2 then some (.iso t.n ((d + 2) % 4) i) else none

/-- The tiles of a long-track segment (Table 04.4). -/
def trackTiles (n : Nat) (vert : Bool) (line tr sg : Nat) : List Tile :=
  if vert then
    if tr < 12 then (List.range 72).map (fun r => ⟨n, line, r⟩) else (List.range 36).map (fun r => ⟨n, line, 36 * sg + r⟩)
  else
    let w := if tr < 8 then 64 else if tr < 16 then 32 else 16
    (List.range w).map (fun c => ⟨n, w * sg + c, line⟩)

/-- The entry of a tile: enable, track, source (Table 04.7). An entry with a track above 23 acts as disabled (R100). -/
def State.entryOn (s : State) (t : Tile) (vert : Bool) (tr : Nat) : Bool :=
  let e := s.switch t (if vert then 552 else 544) 8
  e % 2 == 1 && decide (tr < 24) && e / 2 % 32 == tr

def State.entryOut (s : State) (t : Tile) (vert : Bool) : Nat :=
  s.switch t ((if vert then 552 else 544) + 6) 2 + (if vert then 28 else 24)

/-- The key of a long-track segment. -/
def trackKey (n : Nat) (vert : Bool) (line tr sg : Nat) : Nat := (((n * 2 + (if vert then 1 else 0)) * 128 + line) * 32 + tr) * 4 + sg

/-- The tiles whose entries drive a long-track segment (R99). -/
def State.trackEntries (s : State) (n : Nat) (v : Bool) (line tr sg : Nat) : List Tile :=
  (trackTiles n v line tr sg).filter (fun t => s.entryOn t v tr)

/-- A long-track segment that exists (Table 04.4). -/
def trackIs (vert : Bool) (line tr sg : Nat) : Bool :=
  if vert then decide (line < 64) && decide (sg < if tr < 12 then 1 else 2)
  else decide (line < 72) && decide (sg < if tr < 8 then 1 else if tr < 16 then 2 else 4)

/-- Two or more entries drive a segment that its sensor has not disabled (R101). -/
def State.contended (s : State) : Src → Bool
  | .track n v line tr sg =>
    trackIs v line tr sg && ! SMap.get (fun _ => false) s.fab.ltOff (trackKey n v line tr sg) &&
      decide (2 ≤ (s.trackEntries n v line tr sg).length)
  | _ => false

/-- The arriving end that the selector of an element names, whatever the rings let through (Tables 04.2 and 04.3). -/
def State.endOf (s : State) : Src → Option (Tile × Nat)
  | .inb t k =>
    let j := s.switch t (160 + 5 * k) 5
    if (s.hardDriver t k).isNone ∧ 1 ≤ j ∧ j ≤ 24 then some (t, (k + j - 1) % 32) else none
  | .seg t st =>
    let j := s.switch t (5 * st) 5
    if (t.far (st / 8) (st % 8)).isSome ∧ 9 ≤ j ∧ j ≤ 24 then some (t, (st + 2 * (j - 9)) % 32) else none
  | _ => none

/-- What feeds an element that is itself a source. -/
def State.feeds (s : State) : Src → Option Src
  | .inb t k =>
    match s.hardDriver t k with
    | some x => some x
    | none =>
      let j := s.switch t (160 + 5 * k) 5
      if j = 0 then none
      else if j ≤ 24 then s.endSrc t ((k + j - 1) % 32)
      else tapTrack t k j
  | .out t o =>
    let v := s.xbar t (510 + 6 * o) 6
    if 32 ≤ v then some (.cell t (v % 32)) else none
  | .seg t st =>
    if (t.far (st / 8) (st % 8)).isNone then none
    else
      let j := s.switch t (5 * st) 5
      if j = 0 then none
      else if j ≤ 8 then some (.out t ((st + 4 * (j - 1)) % 32))
      else if j ≤ 24 then s.endSrc t ((st + 2 * (j - 9)) % 32)
      else tapTrack t st j
  | .track n v line tr sg =>
    if SMap.get (fun _ => false) s.fab.ltOff (trackKey n v line tr sg) then none
    else (s.trackEntries n v line tr sg).head?.map (fun t => .out t (s.entryOut t v))
  | .cell _ _ => none
  | .digit _ _ => none
  | .iso _ _ _ => none

/-- A MUX cell of the tile names an MSEL (R80). -/
def State.mselUsers (s : State) (t : Tile) (m : Nat) : List Nat :=
  (List.range 32).filter (fun i => s.cellMode t i == .mux && s.cellF t i 56 1 == m)

/-- The slack stage tapped by watchdog k of a region: valid, and the stage enabled (R120). -/
def State.tapStage (s : State) (n k : Nat) : Option (Tile × Nat) :=
  let e := s.ctl n 0 (32 * k) 32
  let t : Tile := ⟨n, e % 64, e / 64 % 128⟩
  let st := e / 8192 % 32
  if e / 2 ^ 31 = 1 ∧ t.r < 72 ∧ s.switchSlackF t st 0 1 = 1 then some (t, st) else none

/-- The start whose slack stage a lockstep compare tap names: entry j of minor 0x07, laid out as the entry of
Table 04.9 (R422). -/
def State.compareStage (s : State) (n j : Nat) : Option (Tile × Nat) :=
  let e := s.ctl n 7 (32 * j) 32
  let t : Tile := ⟨n, e % 64, e / 64 % 128⟩
  let st := e / 8192 % 32
  if e / 2 ^ 31 = 1 ∧ t.r < 72 ∧ s.switchSlackF t st 0 1 = 1 then some (t, st) else none

/-- The segment start that leaves a region through an isolation cell for the leaving direction (R110). -/
def isoStart (n e i : Nat) : Option (Tile × Nat) :=
  if i / 8 % 2 = 1 then none
  else
    let line := i / 16
    let track := i % 8
    let slot := if track < 4 then track else 6
    let inside := if track < 4 then 0 else track - 4
    let t : Tile := match e with
      | 0 => ⟨n, line, 71 - inside⟩
      | 1 => ⟨n, 63 - inside, line⟩
      | 2 => ⟨n, line, inside⟩
      | _ => ⟨n, inside, line⟩
    some (t, 8 * e + slot)

/-- What feeds a destination. -/
def State.srcOf (s : State) : Dst → Option Src
  | .port t i 0 => if s.cellF t i 40 1 = 1 then some (crossChoice t i (s.xbar t (15 * i) 5)) else none
  | .port t i 1 => if s.cellF t i 41 1 = 1 then some (crossChoice t (i + 8) (s.xbar t (15 * i + 5) 5)) else none
  | .port t i 2 =>
    match s.chainSrc t i with
    | 2 => match chainPrev t i with
      | some (u, j) => if s.drivesChain u j then some (.cell u j) else none
      | none => none
    | 3 => some (crossChoice t (i + 16) (s.xbar t (15 * i + 10) 5))
    | _ => none
  | .port _ _ _ => none
  | .msel t m k => if (s.mselUsers t m).isEmpty then none else some (crossChoice t (16 * m + k) (s.xbar t (480 + 5 * (3 * m + k)) 5))
  | .elem x => s.feeds x
  | .digit ch d => (s.digitAt ch d).map (fun p => .out p.1 p.2)
  | .iso n e i => (isoStart n e i).map (fun p => .seg p.1 p.2)
  | .tap n j => (s.compareStage n j).map (fun p => .seg p.1 p.2)

/-- The other region of a lockstep pair (R422). -/
def mate (n : Nat) : Nat := n / 2 * 2 + (1 - n % 2)

/-- The lockstep compare taps in use that watch a segment start: both entries of the tap pair are valid and the pair compares (R422). Each is
one more consumer of its stage (R152). -/
def State.tapsOn (s : State) (t : Tile) (st : Nat) : List Dst :=
  if s.on (F.FLT_LS_STS_comparing (t.n / 2)) then
    ((List.range 64).filter (fun j => s.compareStage t.n j == some (t, st) && (s.compareStage (mate t.n) j).isSome)).map (.tap t.n)
  else []

/-- The destinations within a tile that its crossbar gives a source, in vector order (Table 03.8). DESIGN CHOICE (log entry 110): for the
branches of a SPLIT cell (R73) only connected ports count. -/
def State.crossDests (s : State) (t : Tile) (x : Src) : List Dst :=
  let ports := (List.range 32).flatMap (fun i => ([0, 1, 2].filter (fun p => (p != 2 || s.chainSrc t i == 3) &&
    s.srcOf (.port t i p) == some x)).map (.port t i))
  let sel := (List.range 2).flatMap (fun m => ((List.range 3).filter (fun k => s.srcOf (.msel t m k) == some x)).map (.msel t m))
  let outs := ((List.range 32).filter (fun o => s.feeds (.out t o) == some x)).map (fun o => .elem (.out t o))
  ports ++ sel ++ outs

/-- The destinations of an arriving end at a tile. -/
def State.endDests (s : State) (t : Tile) (x : Src) : List Dst :=
  ((List.range 32).filter (fun st => s.feeds (.seg t st) == some x)).map (fun st => .elem (.seg t st)) ++
  ((List.range 32).filter (fun k => s.feeds (.inb t k) == some x)).map (fun k => .elem (.inb t k))

/-- The destinations of a source (R69, R81, R95, R99); those of a SPLIT cell before its branch is chosen (R73). A long-track segment stays a
destination when its sensor has disabled it: what drives it then waits (R102). -/
def State.dests (s : State) : Src → List Dst
  | .cell t i =>
    let cross := s.crossDests t (.cell t i)
    let chain := if s.drivesChain t i then match chainNext t i with
      | some (u, j) => if s.chainSrc u j = 2 then [.port u j 2] else []
      | none => [] else []
    cross ++ chain
  | .inb t k => s.crossDests t (.inb t k)
  | .out t o =>
    let x : Src := .out t o
    ((List.range 32).filter (fun st => s.feeds (.seg t st) == some x)).map (fun st => .elem (.seg t st)) ++
    ([false, true].flatMap (fun v =>
      let e := s.switch t (if v then 552 else 544) 8
      let y := trackSrc t v (e / 2 % 32)
      if e % 2 = 1 ∧ e / 2 % 32 < 24 ∧ s.entryOut t v = o then [.elem y] else [])) ++
    s.hardTakers t o
  | .seg t st =>
    let d := st / 8
    (match t.far d (st % 8) with
      | none => []
      | some u =>
        if u.n = t.n ∨ (! s.cut t.n ∧ ! s.cut u.n) then s.endDests u (.seg t st)
        else if s.cut t.n then []
        else
          let i := isoIndex t d 0 (crossTrack t d (st % 8))
          if s.isoF t.n d i 0 2 = 1 then [.iso t.n d i] else []) ++ s.tapsOn t st
  | .track n v line tr sg => (trackTiles n v line tr sg).flatMap (fun t => s.endDests t (.track n v line tr sg))
  | .digit ch d =>
    match s.digitAt ch d with
    | some (t, k) => if s.hardDriver t k = some (.digit ch d) then [.elem (.inb t k)] else []
    | none => []
  | .iso n e i =>
    let line := i / 16
    let track := i % 8
    let inside := if track < 4 then 0 else 7 - track
    let t : Tile := match e with
      | 0 => ⟨n, line, 71 - inside⟩
      | 1 => ⟨n, 63 - inside, line⟩
      | 2 => ⟨n, line, inside⟩
      | _ => ⟨n, inside, line⟩
    s.endDests t (.iso n e i)

end Sys2Proof.Machine
end

