-- ==== Sys2Proof/Machine/Tokens.lean ====
section
/-! DEFINITION. Tokens in motion: what a source offers, when a stage may take, and what an acknowledge does (R35, R38, R40 to R42, R68 to
R74, R81, R82, R95). Each step is one whole four-phase handshake. -/

namespace Sys2Proof.Machine

/-- The bound on a path of elements without a stage: more than the fabric holds. A path that closes on itself never becomes valid. -/
def fabricFuel : Nat := 16777216

/-- The number of a tile in its region. -/
def Tile.idx (t : Tile) : Nat := t.c * 72 + t.r

/-- A number for each channel of a region. -/
def Chan.idx : Chan → Nat
  | .slice _ c sl p => (c * 64 + sl) * 8 + p
  | .firn _ f b p => 4096 + (f * 128 + b) * 4 + p
  | .queue q p => 8192 + q * 2 + p
  | .evIn _ k => 8448 + k
  | .evOut _ k => 8464 + k
  | .spoke u p => 8704 + u * 64 + p

/-- The key of a source: its region in front, so that the sources of a region stand together. -/
def Src.key : Src → Nat
  | .cell t i => t.n * 2 ^ 32 + t.idx * 128 + i
  | .inb t k => t.n * 2 ^ 32 + t.idx * 128 + 32 + k
  | .out t o => t.n * 2 ^ 32 + t.idx * 128 + 64 + o
  | .seg t st => t.n * 2 ^ 32 + t.idx * 128 + 96 + st
  | .track n v line tr sg => n * 2 ^ 32 + 2 ^ 28 + trackKey 0 v line tr sg
  | .digit ch d => ch.region * 2 ^ 32 + 2 * 2 ^ 28 + ch.idx * 64 + d
  | .iso n e i => n * 2 ^ 32 + 3 * 2 ^ 28 + e * 2048 + i

/-- The region of a destination. -/
def Dst.region : Dst → Nat
  | .port t _ _ => t.n
  | .msel t _ _ => t.n
  | .elem x => x.key / 2 ^ 32
  | .digit ch _ => ch.region
  | .iso n _ _ => n
  | .tap n _ => n

/-- The element of a number in its tile: cells, inbound, outbound, segment starts. -/
def elemOf (t : Tile) (x : Nat) : Src :=
  if x < 32 then .cell t x else if x < 64 then .inb t (x - 32) else if x < 96 then .out t (x - 64) else .seg t (x - 96)

/-- The source of a key; none for a digit of a channel, which has one destination. -/
def srcAt (k : Nat) : Option Src :=
  let n := k / 2 ^ 32
  let r := k % 2 ^ 32
  if r < 2 ^ 28 then some (elemOf ⟨n, r / 128 / 72, r / 128 % 72⟩ (r % 128))
  else if r < 2 * 2 ^ 28 then
    let y := r - 2 ^ 28
    some (.track n (y / 4 / 32 / 128 == 1) (y / 4 / 32 % 128) (y / 4 % 32) (y % 4))
  else if r < 3 * 2 ^ 28 then none
  else some (.iso n ((r - 3 * 2 ^ 28) / 2048) ((r - 3 * 2 ^ 28) % 2048))

/-- A source that is a hold stage with its initial state, or an idle source of its own (R41, R69, R75, R83): none for a wire. -/
def State.stageInit (s : State) : Src → Option Node
  | .cell t i =>
    if s.holdEn t i ∨ s.cellMode t i = .source ∨ s.cellMode t i = .const then
      let p := s.cellF t i 63 8
      some {
        tok := if s.holdEn t i ∧ s.cellF t i 58 1 = 1 then some (BitVec.ofNat 2 (s.cellF t i 59 2)) else none
        branch := if s.cellMode t i = .split then some 0 else none
        left := if s.cellMode t i = .source then (if p = 0 then 256 else p) else 0 }
    else none
  | .inb t k => if s.slackF t k 0 1 = 1 then
      some { tok := if s.slackF t k 1 1 = 1 then some (BitVec.ofNat 2 (s.slackF t k 2 2)) else none } else none
  | .out t o => if s.slackF t (32 + o) 0 1 = 1 then
      some { tok := if s.slackF t (32 + o) 1 1 = 1 then some (BitVec.ofNat 2 (s.slackF t (32 + o) 2 2)) else none } else none
  | .seg t st => if s.switchSlackF t st 0 1 = 1 then
      some { tok := if s.switchSlackF t st 1 1 = 1 then some (BitVec.ofNat 2 (s.switchSlackF t st 2 2)) else none } else none
  | .track _ _ _ _ _ => none
  | .digit _ _ => some {}
  | .iso _ _ _ => some {}

/-- The state of a source: what has happened since set-reset; while set-reset is asserted its initial state; after release a bubble where
nothing has happened, since release has written every stage that starts with a token and every SOURCE count (R41, R87). -/
def State.node (s : State) (x : Src) : Node :=
  match SMap.get (fun _ => none) s.fab.nodes x.key with
  | some nd => nd
  | none => if s.fab.setReset.getLsbD (x.key / 2 ^ 32) then (s.stageInit x).getD {} else {}

/-- The state with the state of a source written. -/
def State.setNode (s : State) (x : Src) (nd : Node) : State :=
  { s with fab := { s.fab with nodes := SMap.set (fun _ => none) s.fab.nodes x.key (some nd) } }

/-- The region of a tile or channel takes tokens: released from set-reset and not frozen (R41, R49, R148). -/
def State.fabOn (s : State) (n : Nat) : Bool :=
  ! s.fab.setReset.getLsbD n && ! s.on (F.REGION_FREEZE_freeze n) && ! s.on (F.REGION_FREEZE_hold_freeze n)

/-- The ports of a tile that have acknowledged and wait for the rest of their completion tree (R82). -/
def State.joined (s : State) (t : Tile) : List Dst := SMap.get (fun _ => []) s.fab.joined (t.n * 8192 + t.idx)

def State.setJoined (s : State) (t : Tile) (l : List Dst) : State :=
  { s with fab := { s.fab with joined := SMap.set (fun _ => []) s.fab.joined (t.n * 8192 + t.idx) l } }

/-- What one set of inputs makes of a cell: output value, chain output, branch, and the ports it consumes. -/
structure Fire where
  val : Nat
  chain : Nat := 0
  branch : Option Nat := none
  ports : List Nat
  deriving DecidableEq, Repr

/-- FUNCTION5 (R71): output and chain output. -/
def function5 (sub table a b c : Nat) : Nat × Nat :=
  match sub with
  | 1 => ((a + b + c) % 4, (a + b + c) / 4)
  | 2 => ((a + (3 - b) + c) % 4, (a + (3 - b) + c) / 4)
  | _ => let x := table >>> (a + 4 * b + 16 * c) % 2; (x, x)

/-- The behaviour of a cell (R70 to R78) on the values its ports offer: A 0, B 1, chain input 2, MSEL 3. DESIGN CHOICE (log entries 109 and
111): chain_src 0b10 after a cell that drives no chain stalls only a mode that takes the chain input; a body or tail MUX cell that breaks
R77 takes its spine from where chain_src and the cell's place point. -/
def State.fire (s : State) (t : Tile) (i : Nat) (v : Nat → Option Nat) : Option Fire :=
  let table := s.cellF t i 0 32
  let sub := s.cellSub t i
  match s.cellMode t i with
  | .function => match v 0, v 1 with
    | some a, some b => some { val := table >>> (a + 4 * b) % 2 + 2 * (table >>> (16 + a + 4 * b) % 2), ports := [0, 1] }
    | _, _ => none
  | .function5 => match v 0, v 1, v 2 with
    | some a, some b, some c =>
      let r := function5 sub table a b (c % 2)
      some { val := r.1, chain := r.2, ports := [0, 1, 2] }
    | _, _, _ => none
  | .fork => (v 0).map (fun a => { val := a, ports := [0] })
  | .join => match v 0, v 1 with
    | some a, some b => some { val := if sub = 1 then b else a, ports := [0, 1] }
    | _, _ => none
  | .split => match v 0, v 1 with
    | some a, some b => some { val := a, branch := some (if sub = 1 then b else b % 2), ports := [0, 1] }
    | _, _ => none
  | .selectMerge => match v 2 with
    | some c =>
      let p := c % 2
      if s.cellF t i (40 + p) 1 = 1 then (v p).map (fun a => { val := a, ports := [2, p] }) else none
    | none => none
  | .arbMerge => match (s.node (.cell t i)).grant with
    | some g =>
      let p := if g then 1 else 0
      (v p).map (fun a => { val := if sub = 1 then p else a, ports := [p] })
    | none => none
  | .mux =>
    let p := s.cellF t i 63 5
    match v 0, v 1, v 3 with
    | some a, some b, some m =>
      let spine := if sub = 1 ∨ sub = 2 then v 2 else some 0
      spine.map (fun c =>
        let r := if m = 2 * p then a else if m = 2 * p + 1 then b else c
        { val := r, chain := r, ports := if sub = 1 ∨ sub = 2 then [0, 1, 2, 3] else [0, 1, 3] })
    | _, _, _ => none
  | _ => none

/-- A destination that has acknowledged the token before it and waits for its completion tree sees no new token. -/
def State.waits (s : State) : Dst → Bool
  | .port t i p => (s.joined t).contains (.port t i p)
  | _ => false

/-- The value at port p of a cell, given what sources offer: a constant where the port is disabled or the chain input is constant (R68);
port 3 is the select of the MSEL that a MUX cell names. -/
def State.portVal (s : State) (off : Src → Dst → Option Nat) (t : Tile) (i p : Nat) : Option Nat :=
  let via (d : Dst) : Option Nat := (s.srcOf d).bind (fun y => off y d)
  if p = 3 then
    let m := s.cellF t i 56 1
    if s.waits (.port t i 3) then none
    else match via (.msel t m 0), via (.msel t m 1), via (.msel t m 2) with
      | some a, some b, some c => some (a + 4 * b + 16 * c)
      | _, _, _ => none
  else if (p = 0 ∧ s.cellF t i 40 1 = 0) ∨ (p = 1 ∧ s.cellF t i 41 1 = 0) then some 0
  else if p = 2 ∧ s.chainSrc t i < 2 then some (s.chainSrc t i)
  else if s.waits (.port t i p) then none
  else via (.port t i p)

/-- A destination that takes the chain output of a cell (R67). -/
def State.takesChain (s : State) (x : Src) (d : Dst) : Bool :=
  match x, d with
  | .cell t i, .port u j 2 => s.drivesChain t i && s.chainSrc u j == 2
  | _, _ => false

/-- The output of a cell stays neutral: OFF, the reserved codes, and SINK, which has no output value (R70, Table 03.1). -/
def State.mute (s : State) : Src → Bool
  | .cell t i => s.cellMode t i == .off || s.cellMode t i == .sink
  | _ => false

/-- The branch on which a SPLIT cell offers its token, of the branch it chose; none for every other source, whatever it was at the capture
(R73, R89). DESIGN CHOICE (log entry 140): a SPLIT cell whose stage was filled while an upset had it in another mode offers that token on
branch 0, like an initial token. -/
def State.branchOf (s : State) (x : Src) (branch : Option Nat) : Option Nat :=
  match x with
  | .cell t i => if s.cellMode t i = .split then some (branch.getD 0) else none
  | _ => none

/-- A value as a source shows it to one destination: the chain output on a chain link, nothing off the branch of a SPLIT (R73) and nothing
from a cell without an output. -/
def State.showTo (s : State) (x : Src) (d : Dst) (val chain : Nat) (branch : Option Nat) : Option Nat :=
  if s.mute x then none
  else if s.takesChain x d then some chain
  else match s.branchOf x branch with
    | some b => if (s.dests x)[b]? = some d then some val else none
    | none => some val

/-- The token that a source offers to a destination. A stage offers what it holds; a wire or a cell without a stage offers what its
inputs make (R68, R69, R73, R81). Of a long-track segment with more than one driver the value is a free one (R101). -/
def State.offer : Nat → State → Src → Dst → Option Nat
  | 0, _, _, _ => none
  | f + 1, s, x, d =>
    let nd := s.node x
    if nd.acked.contains d then none
    else if (s.stageInit x).isSome then nd.tok.bind (fun v => s.showTo x d v.toNat nd.chain.toNat nd.branch)
    else match x with
      | .cell t i => (s.fire t i (s.portVal (State.offer f s) t i)).bind (fun r => s.showTo x d r.val r.chain r.branch)
      | _ =>
        let v := (s.feeds x).bind (fun y => State.offer f s y (.elem x))
        if s.contended x then v.map (fun _ => (Config.contention x.key s.freeCtr).toNat) else v

/-- The value that a destination sees offered; a region in set-reset offers nothing (R41). -/
def State.seen (s : State) (d : Dst) : Option Nat :=
  (s.srcOf d).bind (fun y => if s.fab.setReset.getLsbD (y.key / 2 ^ 32) then none else s.offer fabricFuel y d)

/-- What the inputs of a cell make now. -/
def State.fireNow (s : State) (t : Tile) (i : Nat) : Option Fire := s.fire t i (s.portVal (s.offer fabricFuel) t i)

/-- The destinations to which a source offers its present token: of a SPLIT only the branch (R73). -/
def State.offeredTo (s : State) (x : Src) : List Dst :=
  let br := if (s.stageInit x).isSome then (s.node x).branch else match x with
    | .cell t i => (s.fireNow t i).bind Fire.branch
    | _ => none
  match s.branchOf x br with
  | some b => ((s.dests x)[b]?).toList
  | none => s.dests x

/-- The channel into the fabric holds no token: none was offered, or every digit has been acknowledged. -/
def State.chanFree (s : State) (ch : Chan) : Bool :=
  (List.range (s.chanDigits ch)).all (fun d => (s.node (.digit ch d)).tok.isNone || (s.node (.digit ch d)).done)

/-- Whether what a destination feeds holds a bubble (R40); a wire passes the question on. A slice or a Firn port is full while its output
holds a token; the blocks beyond a boundary are no hold stages. DESIGN CHOICE (log entry 141): of a SPLIT cell without a stage every branch
counts, the chosen one alone does not do. -/
def State.bubble : Nat → State → Dst → Bool
  | 0, _, _ => false
  | f + 1, s, d =>
    let beyond (x : Src) : Bool :=
      if (s.stageInit x).isSome then (s.node x).tok.isNone else (s.dests x).all (State.bubble f s)
    match d with
    | .port t i _ => if s.cellMode t i = .sink ∨ s.cellMode t i = .off then true else beyond (.cell t i)
    | .msel t m _ => (s.mselUsers t m).all (fun i => beyond (.cell t i))
    | .elem x => beyond x
    | .digit (.slice n c sl _) _ => s.chanFree (.slice n c sl 4) && s.chanFree (.slice n c sl 5)
    | .digit (.firn n fc b p) _ => s.chanFree (.firn n fc b (p + 1))
    | _ => true

/-- The stages that a source feeds all hold bubbles (R40), for the branch given. -/
def State.roomAhead (s : State) (x : Src) (branch : Option Nat) : Bool :=
  (match branch with
    | some b => ((s.dests x)[b]?).toList
    | none => s.dests x).all (s.bubble fabricFuel)

/-- The other members of the completion tree of a port, itself included; none outside every tree (R82). Only connected ports A, B
and C are members, a chain link is none (R67, R80).
For an MSEL the join is over the MUX cells that name it (R79). DESIGN CHOICE (log entry 142): a port that is not connected is left out of
its tree whatever its tree field says. -/
def State.treeOf (s : State) : Dst → Option (List Dst)
  | .port t i 3 => some ((s.mselUsers t (s.cellF t i 56 1)).map (fun j => .port t j 3))
  | .port t i p =>
    let tr := s.cellF t i (42 + 4 * p) 4
    if tr < 8 ∨ (p = 2 ∧ s.chainSrc t i ≠ 3) then none
    else some ((List.range 32).flatMap (fun j => ([0, 1, 2].filter (fun q =>
      s.cellF t j (42 + 4 * q) 4 == tr && (s.srcOf (.port t j q)).isSome && (q != 2 || s.chainSrc t j == 3))).map (.port t j)))
  | _ => none

/-- A stall watchdog of a region. -/
def State.wdgAt (s : State) (n k : Nat) : Wdg := SMap.get (fun _ => {}) s.fab.wdg (n * 32 + k)
def State.setWdg (s : State) (n k : Nat) (w : Wdg) : State :=
  { s with fab := { s.fab with wdg := SMap.set (fun _ => {}) s.fab.wdg (n * 32 + k) w } }

/-- The count of a watchdog in units of 100 ns (R61): it stands at its limit once it has reported. -/
def State.wdgCount (s : State) (w : Wdg) : Nat := w.kept + (if w.runs then 10 * (s.time - w.since) else 0)

/-- The count of the watchdogs of a region is held (R64). -/
def State.wdgHeld (s : State) (n : Nat) : Bool :=
  s.on (F.REGION_FREEZE_freeze n) || s.on (F.REGION_FREEZE_hold_freeze n) || s.cut n || s.fab.setReset.getLsbD n

/-- A watchdog counts: enabled, not held, its clock running, its stall not yet reported, and armed where it waits for a first handshake
(R61 to R64, R152). -/
def State.wdgRuns (s : State) (n k : Nat) (w : Wdg) : Bool :=
  s.on (F.REGION_WDG_CTL_enable n k) && ! s.wdgHeld n && ! s.groomHeld && ! w.reported &&
    (! s.on (F.REGION_WDG_CTL_arm_first n k) || w.seen)

/-- The limit in force (Table 02.10). -/
def State.wdgLimit (s : State) (n k : Nat) : Nat := clamp 10 10000000 (s.get (F.REGION_WDG_CTL_limit n k))

/-- A watchdog starts or stops to count, from the value it holds (R64). -/
def State.wdgTurn (s : State) (n k : Nat) (w : Wdg) : State :=
  let go := s.wdgRuns n k w
  if go == w.runs then s.setWdg n k w else s.setWdg n k { w with kept := s.wdgCount w, runs := go, since := s.time }

/-- A completed handshake restarts the count (R61 to R63); a stopped clock of the watchdog's domain holds the pulse (R152). -/
def State.wdgRestart (s : State) (n k : Nat) : State :=
  let w := s.wdgAt n k
  if s.groomHeld then s.setWdg n k { w with pulse := true }
  else s.wdgTurn n k { w with reported := false, seen := true, kept := 0, since := s.time, pulse := false }

/-- A completed handshake on a stage that stall watchdogs watch. -/
def State.wdgPulse (s : State) (t : Tile) (st : Nat) : State :=
  (List.range 32).foldl (fun s k => if s.tapStage t.n k = some (t, st) then s.wdgRestart t.n k else s) s

/-! ## Isolation counts (R115) -/

def isoKey (n e i : Nat) : Nat := (n * 4 + e) * 2048 + i

/-- One more token absorbed or supplied (R115). -/
def State.isoCount (s : State) (n e i : Nat) : State :=
  let k := SMap.get (fun _ => {}) s.fab.iso (isoKey n e i)
  let k : IsoCnt := if k.count = 0xFFFFFF then { k with sat := true } else { count := k.count + 1, sat := k.sat || k.count == 0xFFFFFE }
  { s with fab := { s.fab with iso := SMap.set (fun _ => {}) s.fab.iso (isoKey n e i) k } }

/-- The inputs of a stage: what it captures through. A cell reads what its mode consumes (Table 03.1). DESIGN CHOICE (log entry 143): of a
SELECT-MERGE or ARB-MERGE stage that starts with a token every one of these shows its acknowledge high at release (R42), the unselected
port and the input without a grant too. -/
def State.stageInputs (s : State) : Src → List Dst
  | .cell t i =>
    let ps : List Nat := match s.cellMode t i with
      | .function | .join | .split | .arbMerge => [0, 1]
      | .function5 | .selectMerge => [0, 1, 2]
      | .fork => [0]
      | .mux => if s.cellSub t i = 1 ∨ s.cellSub t i = 2 then [0, 1, 2, 3] else [0, 1, 3]
      | _ => []
    ps.map (.port t i)
  | x => [.elem x]

/-- A token leaves a stage; one that an isolation cell supplied counts as it is acknowledged (R115). DESIGN CHOICE (log entry 139): a stall
watchdog takes the handshake at the output of the stage it taps as that of the watched channel (R61, R152). -/
def State.leave (s : State) (x : Src) : State :=
  let nd := s.node x
  match x with
  | .digit _ _ => s.setNode x { nd with done := true }
  | .iso n e i => (s.setNode x {}).isoCount n e i
  | .seg t st => (s.setNode x { nd with tok := none, acked := [] }).wdgPulse t st
  | _ => s.setNode x { nd with tok := none, acked := [], branch := none, chain := 0 }

/-- An ARB-MERGE cell releases its grant; a request pending on the other input goes next (R58). -/
def State.release (s : State) (t : Tile) (i : Nat) : State :=
  let x : Src := .cell t i
  let nd := s.node x
  match nd.grant with
  | none => s
  | some g =>
    let q := if g then 0 else 1
    let pending := s.cellF t i (40 + q) 1 = 1 ∧ (s.portVal (s.offer fabricFuel) t i q).isSome
    s.setNode x { nd with grant := none, last := g, turn := if pending then some (! g) else none }

/-- A lockstep compare tap. -/
def Dst.isTap : Dst → Bool
  | .tap _ _ => true
  | _ => false

/-- These acknowledges make up the join over the destinations of a source (R81, R95). A compare tap is one more consumer; where nothing else
is connected the join never completes (R95). -/
def State.joinDone (s : State) (x : Src) (acked : List Dst) : Bool :=
  (s.offeredTo x).any (fun e => ! e.isTap) && (s.offeredTo x).all (fun e => acked.contains e)

/-- The join over the destinations of a source is complete: a stage loses its token, and a wire or a cell without a stage passes the
acknowledge to its own inputs (R69). `go` passes it on. -/
def State.ackDone (go : State → Dst → State) (s : State) (x : Src) (acked : List Dst) : State :=
  if (s.stageInit x).isSome then (s.setNode x { s.node x with acked := acked }).leave x
  else match x with
    | .cell t i =>
      let r := s.fireNow t i
      let s := s.setNode x { s.node x with acked := [], branch := r.bind Fire.branch }
      let s := (r.elim [] Fire.ports).foldl (fun s p => go s (.port t i p)) s
      if s.cellMode t i = .arbMerge then s.release t i else s
    | _ => go (s.setNode x { s.node x with acked := [] }) (.elem x)

/-- The acknowledge of one destination reaches its source, where it is joined over the destinations of the source (R81, R95). -/
def State.ackOne (go : State → Dst → State) (s : State) (d : Dst) : State :=
  match s.srcOf d with
  | none => s
  | some x =>
    let acked := (s.node x).acked ++ [d]
    if s.joinDone x acked then s.ackDone go x acked else s.setNode x { s.node x with acked := acked }

/-- A multi-digit channel by its consumer (R38): a completion tree of a tile (0 to 7) or one of its MSELs (8, 9), or a channel of an attached
block. -/
inductive Group where
  | tree (t : Tile) (k : Nat)
  | block (ch : Chan)
  deriving DecidableEq, Repr

/-- The key of a multi-digit channel, its region in front. -/
def Group.key : Group → Nat
  | .tree t k => t.n * 2 ^ 32 + t.idx * 16 + k
  | .block ch => ch.region * 2 ^ 32 + 2 ^ 28 + ch.idx

/-- The multi-digit channel that a destination belongs to (R79, R82, R124). -/
def State.groupOf (s : State) : Dst → Option Group
  | .port t i 3 => some (.tree t (8 + s.cellF t i 56 1))
  | .port t i p =>
    let tr := s.cellF t i (42 + 4 * p) 4
    if tr < 8 ∨ (p = 2 ∧ s.chainSrc t i ≠ 3) then none else some (.tree t (tr % 8))
  | .msel t m _ => some (.tree t (8 + m))
  | .digit ch _ => some (.block ch)
  | _ => none

/-- The channel was started partly with tokens and partly with bubbles: it never completes a handshake (R43). -/
def State.isStuck (s : State) (d : Dst) : Bool := (s.groupOf d).any (fun g => SMap.get (fun _ => false) s.fab.stuck g.key)

/-- The acknowledge of a destination, joined over its completion tree first (R82). A channel that R43 stops is never acknowledged. -/
def State.ackJoin (go : State → Dst → State) (s : State) (t : Tile) (i p : Nat) (ms : List Dst) : State :=
  let d : Dst := .port t i p
  if p ≠ 3 ∧ (s.srcOf d).isNone then s
  else
    let j := s.joined t ++ [d]
    if ! s.isStuck d && ms.all (fun e => j.contains e) then
      let s := s.setJoined t (j.filter (fun e => ! ms.contains e))
      if p = 3 then [0, 1, 2].foldl (fun s k => s.ackOne go (.msel t (s.cellF t i 56 1) k)) s else ms.foldl (fun s e => s.ackOne go e) s
    else s.setJoined t j

/-- The acknowledge of a destination, over at most so many elements. -/
def State.ack : Nat → State → Dst → State
  | 0, s, _ => s
  | f + 1, s, d =>
    match s.treeOf d with
    | none => s.ackOne (State.ack f) d
    | some ms =>
      match d with
      | .port t i p => s.ackJoin (State.ack f) t i p ms
      | _ => s

/-- The acknowledge of a destination, run to its end. -/
def State.ackDst (s : State) (d : Dst) : State := s.ack fabricFuel d

/-! ## Configuration that changes under a handshake (R89) -/

/-- The join of a source is taken again over the destinations that it has now. -/
def State.rejoin (s : State) (x : Src) : State :=
  let acked := (s.node x).acked
  if ! acked.isEmpty && s.joinDone x acked then s.ackDone (State.ack fabricFuel) x acked else s

/-- A port that has acknowledged and waits for its completion tree goes on where the tree is complete, or is none any more. -/
def State.retree (s : State) (d : Dst) : State :=
  match d with
  | .port t _ _ =>
    let l := s.joined t
    if l.contains d && (match s.treeOf d with
      | none => true
      | some ms => ms.all (fun e => l.contains e)) then (s.setJoined t (l.erase d)).ackDst d else s
  | _ => s

/-- Handshakes in progress go on under the configuration as it now is (R89). -/
def State.fabSettle (s : State) : State :=
  let s := (s.fab.nodes.filter (fun e => e.2.any (fun nd => ! nd.acked.isEmpty))).foldl (fun s e => (srcAt e.1).elim s s.rejoin) s
  (s.fab.joined.flatMap (·.2)).foldl State.retree s

/-- A capture into a stage: the token is held and its inputs are acknowledged. The compare taps of a start take it at once where their
side has room (R152, R422). -/
def State.capture (s : State) (x : Src) (v chain : Nat) (branch : Option Nat) : State :=
  let nd := s.node x
  s.setNode x { nd with tok := some (BitVec.ofNat 2 v), chain := BitVec.ofNat 2 chain, branch := branch, acked := [] }

/-- The cell that mutex k of a tile serves, where no lower mutex names the same cell (R74, Table 03.7). -/
def State.mutexCell (s : State) (t : Tile) (k : Nat) : Option Nat :=
  let w (j : Nat) : Nat := s.slotBits t 0x48 (6 * j) 6
  if w k < 32 then none
  else if (List.range k).any (fun j => w j == w k) then none
  else some (w k % 32)

end Sys2Proof.Machine
end

