-- ==== Sys2Proof/Machine/Iface.lean ====
section
/-! DEFINITION. The fabric as the attached blocks see it: values on channels out of the fabric, tokens on channels into it (R124, R236),
and what Cadence publishes to the Spoke clusters (R234). -/

namespace Sys2Proof.Machine

/-- The n digits of a value, digit k carrying bits 2k and 2k + 1 (R34). -/
def digitsOf : Nat → Nat → List Nat
  | 0, _ => []
  | n + 1, v => v % 4 :: digitsOf n (v / 4)

/-- The value of digits. -/
def ofDigits : List Nat → Nat
  | [] => 0
  | d :: ds => d + 4 * ofDigits ds

/-- The value offered on the first n digits of a channel out of the fabric: none until every digit is valid (R38), and never on a channel
that R43 stops. -/
def State.inValue (s : State) (ch : Chan) (n : Nat) : Option Nat :=
  if s.isStuck (.digit ch 0) then none else ((List.range n).mapM (fun d => s.seen (.digit ch d))).map ofDigits

/-- The first n digits of a channel out of the fabric acknowledged. -/
def State.ackIn (s : State) (ch : Chan) (n : Nat) : State :=
  (List.range n).foldl (fun s d => s.ackDst (.digit ch d)) s

/-- A token offered on a channel into the fabric, digit by digit. -/
def State.offerOut (s : State) (ch : Chan) (ds : List Nat) : State :=
  (ds.zipIdx).foldl (fun s p => s.setNode (.digit ch p.2) { tok := some (BitVec.ofNat 2 p.1) }) s

/-- The fabric has acknowledged every one of the first n digits of a channel into it. -/
def State.outTaken (s : State) (ch : Chan) (n : Nat) : Bool :=
  (List.range n).all (fun d => (s.node (.digit ch d)).done)

/-- A channel into the fabric returned to neutral. -/
def State.clearOut (s : State) (ch : Chan) (n : Nat) : State :=
  (List.range n).foldl (fun s d => { s with fab := { s.fab with nodes := SMap.erase s.fab.nodes (Src.digit ch d).key } }) s

def chEreq (u : Nat) : Chan := .spoke u 0
def chCap (u : Nat) : Chan := .spoke u 1
def chRes (u m : Nat) : Chan := .spoke u (2 + m)
def chSoc (u m : Nat) : Chan := .spoke u (4 + m)
def chTick (u k : Nat) : Chan := .spoke u (16 + k)
def chDone (u k : Nat) : Chan := .spoke u (32 + k)

/-! ## What a track publishes (R203, R221, R234) -/

def State.trkT (s : State) (t : Nat) : Trk := SMap.get (fun _ => {}) s.cad.trks t
def State.setTrk (s : State) (t : Nat) (x : Trk) : State := { s with cad := { s.cad with trks := SMap.set (fun _ => {}) s.cad.trks t x } }

/-- The state of a track (Table 07.3). -/
def State.trkState (s : State) (t : Nat) : Nat := s.get (F.CAD_TRK_STS_state t)

/-- The updates since the start of the last LOCK phase. -/
def State.updates (s : State) : Nat := (s.rd R.CAD_UPD_LO).toNat + 2 ^ 32 * (s.rd R.CAD_UPD_HI).toNat

/-- The published position: the estimate rounded to the nearest count (R5) less the remainder, bits 63 to 32 turns, 31 to 0 angle. DESIGN
CHOICE (log entry 145): an estimate exactly half-way between two counts is rounded up. -/
def Trk.position (x : Trk) : BitVec 64 := BitVec.ofNat 64 ((x.obs.theta.toNat + 2 ^ 48) >>> 49) - BitVec.ofInt 64 x.rem

/-- The published velocity in units of 2^-12 counts per update. -/
def Trk.velocity (x : Trk) : Int := (x.obs.omega + 2 ^ 31) / 2 ^ 32

def State.velocity (s : State) (t : Nat) : Int := if s.trkState t = 0 then 0 else (s.trkT t).velocity

/-- The estimate of a track `dt` picoseconds after the last update, rounded to the nearest count, as the 40 bits that stamps are held
against (R234, R238). -/
def State.estimate (s : State) (t dt : Nat) : BitVec 40 :=
  let x := s.trkT t
  let move : Int := (x.velocity * dt * 2 + 4096 * 4000) / (2 * 4096 * 4000)
  (x.position + BitVec.ofInt 64 move).setWidth 40

/-! ## Spoke units -/

/-- The hidden state of Spoke unit u. -/
def State.spkU (s : State) (u : Nat) : Spk := SMap.get (fun _ => {}) s.spk u

/-- The state with the hidden state of Spoke unit u written. -/
def State.setSpk (s : State) (u : Nat) (k : Spk) : State := { s with spk := SMap.set (fun _ => {}) s.spk u k }

/-- The Spoke units of a region: four for an edge region, none for a central one (R14, R233). -/
def unitsOf (region : Nat) : List Nat :=
  (List.range 48).filter (fun u => unitRegion u = region)

end Sys2Proof.Machine
end

