-- ==== Sys2Proof/Machine/PinOps.lean ====
section
/-! DEFINITION. System pins and peripherals: claims, switching, parking, locks, FIFOs (R438 to R461). -/

namespace Sys2Proof.Machine

/-- A PIN/PER write other than the second of a lock pair cancels the pair (R446). -/
def State.pinWrite (s : State) : State := { s with pins := { s.pins with lockArmed := none } }

/-- The peripheral id that holds a pin (Table 15.2; 32 for the analog input), none for GPIO. -/
def State.holder (s : State) (p : Nat) : Option Nat :=
  match SMap.get (fun _ => 0) s.pins.holder p with
  | 0 => none
  | n + 1 => some n

/-- The Cadence source n is enabled with a type of Table 07.1. -/
def State.srcIs (s : State) (n type : Nat) : Bool := s.on (F.CAD_SRC_CTL_enable n) && s.get (F.CAD_SRC_CTL_type n) == type

/-- The pins that quadrature unit u claims: A and B for PER_EN.qei or a QUAD source that names it, A alone for a PULSE source, Z for
PER_EN.qei_z or such a source with z_en (R440). -/
def State.qeiPins (s : State) (u : Nat) : List Nat :=
  let srcs := (List.range 4).filter (fun n => s.get (F.CAD_SRC_CTL_unit n) = u)
  let quad := bitOf (s.get F.PER_EN_qei) u || srcs.any (fun n => s.srcIs n 0)
  let pulse := srcs.any (fun n => s.srcIs n 4)
  let z := bitOf (s.get F.PER_EN_qei_z) u || srcs.any (fun n => (s.srcIs n 0 || s.srcIs n 4) && s.on (F.CAD_SRC_CTL_z_en n))
  let base := 32 + 3 * u
  (if quad || pulse then [base] else []) ++ (if quad then [base + 1] else []) ++ (if z then [base + 2] else [])

/-- The pins that a peripheral id claims now (R440, Tables 15.1 and 15.2). -/
def State.claimPins (s : State) (id : Nat) : List Nat :=
  let en := bitOf (s.get F.PER_EN_en) id
  match id with
  | 0 => if en then [48, 49] else []
  | 1 => if en then [50, 51] else []
  | 2 => if en then [52, 53, 54, 55, 56] else []
  | 3 => if en then [57, 58, 59, 60, 61] else []
  | 4 => if en then [62, 63] else []
  | 5 => if en then [42, 43] else []
  | 6 => if en then [44, 45] else []
  | 7 => if en then [46, 47] else []
  | 8 => s.qeiPins 0
  | 9 => s.qeiPins 1
  | 10 => s.qeiPins 2
  | 11 => s.qeiPins 3
  | k => if 16 ≤ k ∧ k < 20 ∧ (List.range 4).any (fun n => s.srcIs n 2 && s.get (F.CAD_SRC_EXC_pwm n) == k - 16) then [28 + (k - 16)] else []

/-- The peripherals in the priority order of Table 15.2. -/
def claimOrder : List Nat := [8, 9, 10, 11, 6, 7, 16, 17, 18, 19, 4, 5, 2, 3, 0, 1]

/-- The claim code of a peripheral id (Table 15.2). -/
def claimCode (id : Nat) : Nat :=
  if id = 32 then 7 else if id ≤ 1 then 6 else if id ≤ 3 then 5 else if id ≤ 5 then 4 else if id ≤ 7 then 2 else if id ≤ 11 then 1 else 3

/-- A pin locked by R446. -/
def State.pinLocked (s : State) (p : Nat) : Bool := s.on (F.PIN_CFG_locked p)

/-- The first pin of a claim that it cannot take: taken by a higher claim, or locked and held otherwise (R440, R446). -/
def State.firstLost (s : State) (taken : List (Nat × Nat)) (id : Nat) (pins : List Nat) : Option Nat :=
  pins.find? (fun p => taken.any (fun t => t.1 == p) || (s.pinLocked p && s.holder p != some id))

/-- One claim evaluated: what is taken so far, what has lost (R440). -/
def State.claimStep (s : State) (acc : List (Nat × Nat) × List (Nat × Nat)) (id : Nat) : List (Nat × Nat) × List (Nat × Nat) :=
  let pins := s.claimPins id
  match s.firstLost acc.1 id pins with
  | some p => (acc.1, acc.2 ++ [(id, p)])
  | none => (acc.1 ++ pins.map (fun p => (p, id)), acc.2)

/-- The claims of the analog inputs: PIN_CFG.ana of ports PA and PB, the lowest class but GPIO. -/
def State.anaClaims (s : State) (taken : List (Nat × Nat)) : List (Nat × Nat) :=
  ((List.range 32).filter (fun p => s.on (F.PIN_CFG_ana p) && (s.firstLost taken 32 [p]).isNone)).map (fun p => (p, 32))

/-- A claim that has lost: PER_CONFLICT, and event 0x0B01 when it was not losing already (R440). -/
def State.claimLost (s : State) (l : Nat × Nat) : State :=
  let t := s.put F.PER_CONFLICT_lost (s.get F.PER_CONFLICT_lost ||| 2 ^ l.1)
  if s.pins.losing.getLsbD l.1 then s
  else t.raise 0x0B01 (l.1 * 256 + l.2)

/-- A pin is claimed for analog input. -/
def State.pinAnalog (s : State) (p : Nat) : Bool := s.get (F.PIN_CFG_claim p) == 7

/-- The park level of a system pin: PIN_CFG.park (Table 15.7). -/
def State.sysPark (s : State) (p : Nat) : Pad :=
  match s.get (F.PIN_CFG_park p) with
  | 0 => .low
  | 1 => .high
  | 2 => .z
  | _ => SMap.get (fun _ => .z) s.pins.drive p

/-- A system pin driven, with its level read back in PIN_IN (R443); without the 3.3 V rail, unit 2 of Table 01.7, it is high-impedance (R438,
Table 16.1). -/
def State.setSysPad (s : State) (p : Nat) (v : Pad) : State :=
  let v := if s.unitOk 2 then v else .z
  let s := { s with pins := { s.pins with drive := SMap.set (fun _ => .z) s.pins.drive p v } }
  match v with
  | .low => s.put ⟨R.PIN_IN (p / 16), p % 16, 1⟩ 0
  | .high => s.put ⟨R.PIN_IN (p / 16), p % 16, 1⟩ 1
  | .z => s

/-- A claim that the pin's function only takes as an input: a quadrature unit, SSI DATA, UART RX, SPI MISO, an analog input (R459). -/
def State.claimIsInput (s : State) (p : Nat) : Bool :=
  match s.holder p with
  | none => false
  | some id => (8 ≤ id && id ≤ 11) || id == 32 || (id == 6 && p == 45) || (id == 7 && p == 47) || (id == 0 && p == 49) || (id == 1 && p == 51) ||
      (id == 2 && p == 54) || (id == 3 && p == 59)

/-- What a GPIO pin drives: PIN_OUT while it is an output, low or nothing when open-drain (R442, R444). -/
def State.gpioPad (s : State) (p : Nat) : Pad :=
  if ! s.on (F.PIN_CFG_dir p) then .z
  else if bitOf (s.get (F.PIN_OUT_out (p / 16))) (p % 16) then if s.on (F.PIN_CFG_od p) then .z else .high
  else .low

/-- What excitation channel k drives (R198, R458): a 50 % square wave of f_ex, held between 2,000 and 20,000 Hz, with its phase locked to the
timebase, high in its first half; without an enabled source the pin parks (R446, R458). DESIGN CHOICE (log entry 124): the phase at update 0 is
open, and a new f_ex takes its phase from the same count. -/
def State.excPad (s : State) (k : Nat) : Pad :=
  match (List.range 4).find? (fun n => s.srcIs n 2 && s.get (F.CAD_SRC_EXC_pwm n) == k) with
  | none => s.sysPark (28 + k)
  | some n =>
    let f := clamp 2000 20000 (s.get (F.CAD_SRC_EXC_f_ex n))
    if (s.updates * f + Config.excitationPhase k) % 250000000 < 125000000 then .high else .low

/-- The pin of an excitation channel that stands parked since its source was disabled (R458). -/
def State.excStopped (s : State) (p : Nat) : Bool := decide (28 ≤ p) && decide (p < 32) && s.pins.excParked.getLsbD (p - 28)

/-- The pad of a system pin follows what commands it: high-impedance at the reset defaults (R438), the keeper step holds it (R447), a short or the HOLD park sets its park level
(R448, R459), a GPIO pin its output. An excitation channel keeps running in HOLD (R458), but parks with no supervisor half (R30). -/
def State.pinRefresh (s : State) (p : Nat) : State :=
  if s.pins.keeper.getLsbD p then s
  else if ! s.pins.conf then s.setSysPad p .z
  else if s.on (F.PIN_CFG_short p) then s
  else if s.pins.parked && ! s.claimIsInput p && (s.latched || ! ((s.holder p).elim false (fun id => 16 ≤ id && id < 20))) then s.setSysPad p (s.sysPark p)
  else match s.holder p with
    | none => s.setSysPad p (if s.excStopped p then s.sysPark p else s.gpioPad p)
    | some id => if 16 ≤ id ∧ id < 20 then s.setSysPad p (s.excPad (id - 16)) else s.setSysPad p .z

def State.pinRefreshAll (s : State) : State := (List.range 64).foldl (fun s p => s.pinRefresh p) s

/-- A pin whose claim has changed: the code is written and the keeper holds the pad until the function switch (R447). -/
def State.pinClaim (s : State) (p id : Nat) : State :=
  let s := s.put (F.PIN_CFG_claim p) (if id = 33 then 0 else claimCode id)
  let h := if id = 33 then 0 else id + 1
  let bit : BitVec 64 := BitVec.ofNat 64 (2 ^ p)
  let exc : BitVec 4 := if 28 ≤ p ∧ p < 32 then BitVec.ofNat 4 (2 ^ (p - 28)) else 0
  let stops := id == 33 && (s.holder p).any (fun k => 16 ≤ k && k < 20)
  let s := { s with pins := { s.pins with
    holder := SMap.set (fun _ => 0) s.pins.holder p h
    keeper := s.pins.keeper ||| bit
    excParked := if stops then s.pins.excParked ||| exc else s.pins.excParked &&& ~~~ exc } }
  if claimCode id = 7 ∧ id = 32 then s.put ⟨R.PIN_IN (p / 16), p % 16, 1⟩ 0 else s

/-- A FIFO of the peripherals. -/
def fifo {α : Type} (m : SMap (List α)) (k : Nat) : List α := SMap.get (fun _ => []) m k
def fifoSet {α : Type} [DecidableEq α] (m : SMap (List α)) (k : Nat) (l : List α) : SMap (List α) := SMap.set (fun _ => []) m k l

/-- A peripheral runs: enabled, with its pins, the pins configured, and not stopped by HOLD (R440, R459). -/
def State.perRuns (s : State) (id : Nat) : Bool :=
  bitOf (s.get F.PER_EN_en) id && (s.claimPins id).all (fun p => s.holder p == some id) && s.pins.conf && ! s.pins.parked

/-- A UART or an SPI master that has gained its pins sends what its transmit FIFO holds (R454, R455). -/
def State.perKick (s : State) : State :=
  (List.range 2).foldl (fun s k =>
    let s := if ! (fifo s.pins.uartTx k).isEmpty && s.perRuns k then s.put (F.UART_STS_busy k) 1 else s
    if ! (fifo s.pins.spiTx k).isEmpty && s.perRuns (2 + k) && decide ((fifo s.pins.spiRx k).length < 16) then s.put (F.SPI_STS_busy k) 1
    else s) s

/-- The evaluation of all claims at a pin-clock edge (R440, R446): locked pins keep their claim. -/
def State.claimsNow (s : State) : State :=
  let r := claimOrder.foldl s.claimStep ([], [])
  let taken := r.1 ++ s.anaClaims r.1
  let t := r.2.foldl (fun t l => t.claimLost l) s
  let lose := r.2.foldl (fun (m : BitVec 20) l => m ||| BitVec.ofNat 20 (2 ^ l.1)) 0
  let t := { t with pins := { t.pins with losing := lose } }
  let t := (List.range 4).foldl (fun t k => t.put ⟨R.PER_EN, 16 + k, 1⟩ (if taken.any (fun x => x.2 == 16 + k) then 1 else 0)) t
  (List.range 64).foldl (fun t p =>
    let want := (taken.find? (fun x => x.1 == p)).map (·.2)
    if t.pinLocked p || want == t.holder p then t else t.pinClaim p (want.getD 33)) t

/-- The claims evaluated: at the reset defaults no pin has one (R438, R459). -/
def State.evalClaims (s : State) : State := if s.pins.conf then s.claimsNow.perKick else s

/-- The system pins park in HOLD (R459). -/
def State.pinsPark (s : State) : State := ({ s with pins := { s.pins with parked := true, conf := true } }).pinRefreshAll

/-- The system pins are configured at the OUT phase (R459). -/
def State.pinsConfigure (s : State) : State := ({ s with pins := { s.pins with conf := true } }).pinRefreshAll

/-- A pin without a lock loses its claim. -/
def State.pinRelease (s : State) (p : Nat) : State :=
  if s.pinLocked p then s
  else
    let s := s.put (F.PIN_CFG_claim p) 0
    { s with pins := { s.pins with holder := SMap.set (fun _ => 0) s.pins.holder p 0 } }

/-- The pins that a function holds or that are driven: their change to the reset defaults goes through the keeper (R447). -/
def State.pinsHeld (s : State) : BitVec 64 :=
  (List.range 64).foldl (fun (m : BitVec 64) p =>
    if (s.holder p).isSome ∨ SMap.get (fun _ => .z) s.pins.drive p ≠ .z then m ||| BitVec.ofNat 64 (2 ^ p) else m) 0

/-- A full load begins: until its OUT phase the system pins hold the reset defaults, which those that leave a function take through the
keeper; the registers stay as they are, and a lock holds (R446, R447, R459, Table 19.6). -/
def State.pinsDefault (s : State) : State :=
  let held := s.pinsHeld
  let s := (List.range 64).foldl (fun s p => s.pinRelease p) s
  let s := (List.range 4).foldl (fun s k => s.put ⟨R.PER_EN, 16 + k, 1⟩ (if s.holder (28 + k) = some (16 + k) then 1 else 0)) s
  ({ s with pins := { s.pins with conf := false, parked := false, keeper := held, losing := 0, excParked := 0 } }).pinRefreshAll

/-- A bit of PIN_OUT changed, and the pads that follow it (R444). -/
def State.setPinOut (s : State) (port v : Nat) : State :=
  let s := s.put (F.PIN_OUT_out port) v
  (List.range 16).foldl (fun s n => s.pinRefresh (16 * port + n)) s

/-- The first write of a lock pair (R446). -/
def State.lockFirst (s : State) (port : Nat) : State := { s with pins := { s.pins with lockArmed := some port } }

/-- The second write of a lock pair (R446): with the pair armed for the port, the masked pins are locked and the PER_EN bits of the
peripherals that hold them frozen; otherwise nothing. -/
def State.lockSecond (s : State) (port mask : Nat) : State :=
  if s.pins.lockArmed ≠ some port then s.pinWrite
  else
    let pins := ((List.range 16).filter (bitOf mask ·)).map (16 * port + ·)
    let t := pins.foldl (fun t p => t.put (F.PIN_CFG_locked p) 1) s
    let fr := pins.foldl (fun (m : BitVec 20) p => match s.holder p with
      | some id => if id < 20 then m ||| BitVec.ofNat 20 (2 ^ id) else m
      | none => m) t.pins.frozen
    { t with pins := { t.pins with lockArmed := none, frozen := fr } }

/-- The bits of PER_EN that a lock has frozen: ids 0 to 7 as they stand, a quadrature unit's qei and qei_z bits (R446, Table 15.7). -/
def State.perFrozen (s : State) : Word :=
  let f := s.pins.frozen.toNat
  BitVec.ofNat 32 (f % 256 + (f / 256 % 16) * 256 + (f / 256 % 16) * 4096)

/-- One byte pushed to a UART (R454). -/
def State.uartPush (s : State) (k : Nat) (b : Byte) : State :=
  let q := fifo s.pins.uartTx k
  if 64 ≤ q.length then s.put (F.UART_STS_tx_lost k) 1
  else
    let s := { s with pins := { s.pins with uartTx := fifoSet s.pins.uartTx k (q ++ [b]) } }
    let s := s.put (F.UART_STS_tx_lvl k) (q.length + 1)
    if s.perRuns k then s.put (F.UART_STS_busy k) 1 else s

/-- One word pushed to an SPI master (R455). -/
def State.spiPush (s : State) (k : Nat) (w : Word) : State :=
  let q := fifo s.pins.spiTx k
  if 16 ≤ q.length then s.put (F.SPI_STS_tx_lost k) 1
  else
    let s := { s with pins := { s.pins with spiTx := fifoSet s.pins.spiTx k (q ++ [w]) } }
    let s := s.put (F.SPI_STS_tx_lvl k) (q.length + 1)
    if s.perRuns (2 + k) && decide ((fifo s.pins.spiRx k).length < 16) then s.put (F.SPI_STS_busy k) 1 else s

/-- An I2C block runs the bus clear (R456). -/
def State.i2cClear (s : State) (k : Nat) : State :=
  { s with pins := { s.pins with i2cClears := SMap.set (fun _ => 0) s.pins.i2cClears k (SMap.get (fun _ => 0) s.pins.i2cClears k + 1) } }

/-- A transaction of an I2C block started (R456): it needs the block's pins, the bus clear of their claim behind it, and none running; `low`
says that SDA or SCL is held low, for which the bus clear runs. DESIGN CHOICE (log entry 151): a command written when none can be taken is
lost, and `rep` makes the start of its own transaction a repeated one. -/
def State.i2cStart (s : State) (k : Nat) (cmd : Word) (low : Bool := false) : State :=
  if s.on (F.I2C_STS_busy k) || ! s.perRuns (4 + k) || (s.claimPins (4 + k)).any (fun p => s.pins.keeper.getLsbD p) then s
  else
    let st : I2cStart := ⟨cmd.extractLsb' 0 10, s.on (F.I2C_CFG_addr10 k), cmd.getLsbD 10, cmd.getLsbD 19⟩
    let s := { s with pins := { s.pins with
      i2cCmd := SMap.set (fun _ => 0) s.pins.i2cCmd k cmd
      i2cStarts := fifoSet s.pins.i2cStarts k (fifo s.pins.i2cStarts k ++ [st]) } }
    (if low then s.i2cClear k else s).put (F.I2C_STS_busy k) 1

/-- A byte pushed to the transmit FIFO of an I2C block, 256 deep (R456). -/
def State.i2cPush (s : State) (k : Nat) (b : Byte) : State :=
  let q := fifo s.pins.i2cTx k
  if 256 ≤ q.length then s
  else ({ s with pins := { s.pins with i2cTx := fifoSet s.pins.i2cTx k (q ++ [b]) } }).put (F.I2C_STS_tx_lvl k) (q.length + 1)

/-- One SSI read started: the position is latched at its first clock edge, and SSI_STAMP takes the CAD_UPD of that instant (R457). -/
def State.ssiStart (s : State) (k : Nat) : State :=
  if s.on (F.SSI_STS_busy k) || ! s.perRuns (6 + k) then s
  else
    let upd := (s.rd R.CAD_UPD_LO).toNat + 2 ^ 32 * (s.rd R.CAD_UPD_HI).toNat
    let s := { s with pins := { s.pins with ssiBusy := SMap.set (fun _ => 0) s.pins.ssiBusy k upd } }
    ((s.wr (R.SSI_STAMP_LO k) (BitVec.ofNat 32 upd)).wr (R.SSI_STAMP_HI k) (BitVec.ofNat 32 (upd / 2 ^ 32))).put (F.SSI_STS_busy k) 1

/-- The word of UART_RX for an entry (Table 15.7). -/
def uartWord (e : UartByte) : Nat :=
  e.byte.toNat + 256 + (if e.ferr then 512 else 0) + (if e.perr then 1024 else 0) + (if e.brk then 2048 else 0)

/-- A read of UART_RX pops one byte with its flags; an empty FIFO reads 0 (R461). -/
def State.uartPop (s : State) (k : Nat) : State :=
  match fifo s.pins.uartRx k with
  | [] => { s with readData := 0 }
  | e :: q =>
    let s := { s with pins := { s.pins with uartRx := fifoSet s.pins.uartRx k q }, readData := BitVec.ofNat 32 (uartWord e) }
    s.put (F.UART_STS_rx_lvl k) q.length

/-- A read of SPI_RX pops one word; with room again, the master goes on (R455, R461). -/
def State.spiPop (s : State) (k : Nat) : State :=
  match fifo s.pins.spiRx k with
  | [] => { s with readData := 0 }
  | w :: q =>
    let s := { s with pins := { s.pins with spiRx := fifoSet s.pins.spiRx k q }, readData := w }
    let s := s.put (F.SPI_STS_rx_lvl k) q.length
    if ! (fifo s.pins.spiTx k).isEmpty && s.perRuns (2 + k) then s.put (F.SPI_STS_busy k) 1 else s

/-- A read of I2C_RX pops one byte (R461). -/
def State.i2cPop (s : State) (k : Nat) : State :=
  match fifo s.pins.i2cRx k with
  | [] => { s with readData := 0 }
  | b :: q =>
    let s := { s with pins := { s.pins with i2cRx := fifoSet s.pins.i2cRx k q }, readData := b.setWidth 32 }
    s.put (F.I2C_STS_rx_lvl k) q.length

end Sys2Proof.Machine
end

