-- ==== Sys2Proof/Machine/SpokeOps.lean ====
section
/-! DEFINITION. Spoke units: entries, pads, parking, interlock, ticks, captures, resets (R233 to R249), and the converters that their
entries trigger (R250 to R252). -/

namespace Sys2Proof.Machine

/-- A field of the region control column, minor 0x02 + j, of unit u (Table 08.2). -/
def State.unitCtl (s : State) (u lo w : Nat) : Nat := s.ctl (unitRegion u) (2 + u % 4) lo w

/-- Monitor k of unit u is active: done_base selects a row (R247). -/
def State.monActive (s : State) (u k : Nat) : Bool := baseSelects (s.unitCtl u (64 * k + 71) 7)

/-- The unit is retired (Table 14.14). -/
def State.spkRetired (s : State) (u : Nat) : Bool :=
  if u < 32 then bitOf (s.get F.FLT_RET_SPK0_units) u else bitOf (s.get F.FLT_RET_SPK1_units) (u - 32)

/-! ## Entries (Table 08.3) -/

def entryStamp (e : BitVec 64) : BitVec 40 := e.setWidth 40
def entryKind (e : BitVec 64) : Nat := (e.extractLsb' 40 2).toNat
def entryLate (e : BitVec 64) : Nat := (e.extractLsb' 42 2).toNat
def entryDir (e : BitVec 64) : Bool := e.getLsbD 44
def entryArg0 (e : BitVec 64) : Nat := (e.extractLsb' 48 8).toNat
def entryArg1 (e : BitVec 64) : Nat := (e.extractLsb' 56 8).toNat

/-- How far ahead of the estimate a position lies in the direction of `dir`: the 40-bit difference as a signed value, negated when dir
is 1 (R238, R247). -/
def ahead (pos theta : BitVec 40) (dir : Bool) : Int := if dir then - (pos - theta).toInt else (pos - theta).toInt

/-- The queue registers follow the queue: SPK_STS.occ, SPK_HEAD_LO, SPK_HEAD_HI (Table 08.7). -/
def State.spkSync (s : State) (u : Nat) : State :=
  let q := (s.spkU u).queue
  let s := s.put (F.SPK_STS_occ u) q.length
  let e := q.headD 0
  (s.put (F.SPK_HEAD_LO_entry u) e.toNat).put (F.SPK_HEAD_HI_entry u) (e.toNat / 2 ^ 32)

/-- The head of unit u may be armed: enabled, started, not retired, its track in TRACK or COAST, the module not in HOLD or in the state of
R30 (R238, R428, Table 08.5). -/
def State.spkArmable (s : State) (u : Nat) : Bool :=
  s.on (F.SPK_CTL_enable u) && (s.spkU u).out && ! s.spkRetired u && ! s.halted &&
    (s.trkState (s.get (F.SPK_CTL_track u)) == 2 || s.trkState (s.get (F.SPK_CTL_track u)) == 3)

/-- A position less the estimate of a track `dt` picoseconds after the last update, in the direction of `dir`, in units of 1/16,384,000 of a
count (R234, R238): it is not rounded, so its sign says whether the estimate has reached the position. -/
def State.aheadFine (s : State) (t dt : Nat) (pos : BitVec 40) (dir : Bool) : Int :=
  let x := s.trkT t
  let v : Int := if dir then -x.velocity else x.velocity
  ahead pos (x.position.setWidth 40) dir * 16384000 - v * dt

/-- The 125 ps slot nearest an instant: `dt` picoseconds after the last update of 4 ns (R239). -/
def State.slotAt (s : State) (dt : Nat) : Nat := s.updates * 32 + (dt + 62) / 125

/-! ## Pads (R243, R244, R448, R452) -/

/-- Pin p of unit u is an output. -/
def State.pinOut (s : State) (u p : Nat) : Bool := s.on (F.SPK_PINCFG_out u (p / 4) (p % 4))

/-- What pin p is driven to. -/
def State.pad (s : State) (u p : Nat) : Pad := SMap.get (fun _ => .z) (s.spkU u).pads p

/-- Pin p is at its active level (R244): low with pol at 1, high with pol at 0. -/
def State.pinActive (s : State) (u p : Nat) : Bool :=
  s.pad u p == (if s.on (F.SPK_PINCFG_pol u (p / 4) (p % 4)) then Pad.low else Pad.high)

/-- The pad level of pin p for active or inactive. -/
def State.padFor (s : State) (u p : Nat) (active : Bool) : Pad :=
  if active != s.on (F.SPK_PINCFG_pol u (p / 4) (p % 4)) then .high else .low

/-- The slot plus 1 at which the dead time lets pin p become active; 0 where it holds back nothing (R244). -/
def State.padDelay (s : State) (u p : Nat) : Nat := SMap.get (fun _ => 0) (s.spkU u).delayed p

def State.setDelay (s : State) (u p v : Nat) : State :=
  let k := s.spkU u
  s.setSpk u { k with delayed := SMap.set (fun _ => 0) k.delayed p v }

/-- The pull and termination of pin p that are applied (R453): those of SPK_PAD from the OUT phase on, before it the pull of the strap. -/
def State.padPull (s : State) (u p : Nat) : Nat × Bool :=
  if (s.spkU u).out then (s.get (F.SPK_PAD_pull u p), s.on (F.SPK_PAD_term u p))
  else (if bitOf (s.get F.LDR_STRAP_pup) (u / 6) then 2 else 1, false)

/-- A pad driven, with its read-back level; what was held back for it is void. Outside its bank's supply window every pad is high-impedance
(R451). -/
def State.setPad (s : State) (u p : Nat) (v : Pad) : State :=
  let k := s.spkU u
  let v := if s.on (F.BANK_CFG_vio_ok (u / 6)) then v else .z
  let s := s.setSpk u { k with pads := SMap.set (fun _ => .z) k.pads p v, delayed := SMap.set (fun _ => 0) k.delayed p 0 }
  match v with
  | .low => s.put (F.SPK_PINCFG_level u (p / 4) (p % 4)) 0
  | .high => s.put (F.SPK_PINCFG_level u (p / 4) (p % 4)) 1
  | .z => s

/-- The bank of unit u and its pair q (R450, R452). -/
def State.isDiff (s : State) (u q : Nat) : Bool :=
  s.get (F.BANK_CFG_std (u / 6)) == 5 && bitOf (s.get (F.BANK_DIFF_diff (u / 6))) (4 * (u % 6) + q)

/-- Pins 2q and 2q + 1 are an interlocked pair: bit q of SPK_PAIR.ilk, without effect on a differential pair. -/
def State.interlocked (s : State) (u q : Nat) : Bool := bitOf (s.get (F.SPK_PAIR_ilk u)) q && ! s.isDiff u q

/-- The parameter of an event of Table 08.6: the unit and the channel. DESIGN CHOICE (log entry 150): R258 names the two and no layout; the
model packs the unit times 16 plus the channel, with 0 where the event concerns no channel. -/
def unitChan (u k : Nat) : Nat := u * 16 + k

/-- One interlock action: SPK_LATE.ilk and event 0x0605 (R244). -/
def State.ilkAct (s : State) (u q : Nat) : State :=
  (s.sat (F.SPK_LATE_ilk u)).raiseLim 1000 0x0605 u (unitChan u q)

/-- Pin p was driven inactive (key p) or active (key 8 + p) last at this slot, plus 1. -/
def State.padAt (s : State) (u key : Nat) : Nat := SMap.get (fun _ => 0) (s.spkU u).changed key

def State.setPadAt (s : State) (u key v : Nat) : State :=
  let k := s.spkU u
  s.setSpk u { k with changed := SMap.set (fun _ => 0) k.changed key v }

/-- A pin made inactive at a slot. -/
def State.pinOff (s : State) (u p slot : Nat) : State :=
  let was := s.pinActive u p
  let s := s.setPad u p (s.padFor u p false)
  if was then s.setPadAt u p (slot + 1) else s

/-- A pin made active at a slot, under the interlock (R244): less than the dead time after its partner became inactive it stays inactive and
is held back. `both` says that the partner would become active in the same entry. -/
def State.pinOn (s : State) (u p slot : Nat) (both : Bool) : State :=
  let q := p / 2
  let o := if p % 2 = 0 then p + 1 else p - 1
  if s.pinActive u p then s
  else if ! s.interlocked u q then (s.setPad u p (s.padFor u p true)).setPadAt u (8 + p) (slot + 1)
  else if s.padDelay u p != 0 then s
  else if both then if p % 2 = 0 then (s.pinOff u p slot).ilkAct u q else s.pinOff u p slot
  else if s.pinActive u o then
    let s := if s.padAt u (8 + o) = slot + 1 then s.pinOff u o slot else s
    (s.pinOff u p slot).ilkAct u q
  else
    let free := s.padAt u o + s.get (F.SPK_PAIR_dead_min u)
    if s.padAt u o ≠ 0 ∧ slot + 1 < free then (s.setDelay u p free).ilkAct u q
    else (s.setPad u p (s.padFor u p true)).setPadAt u (8 + p) (slot + 1)

/-- A pin that has been held back until its slot becomes active there, under the interlock as it then stands (R244). -/
def State.pinDue (s : State) (u slot p : Nat) : State :=
  let due := s.padDelay u p
  if due = 0 ∨ slot + 1 < due then s else (s.setDelay u p 0).pinOn u p (due - 1) false

/-- The pins of pair q held back until a slot at most this one, the earlier first; both at one slot stay inactive (R244). -/
def State.pairDue (s : State) (u slot q : Nat) : State :=
  let a := s.padDelay u (2 * q)
  let b := s.padDelay u (2 * q + 1)
  if a ≠ 0 ∧ a = b ∧ a ≤ slot + 1 ∧ s.interlocked u q then ((s.setDelay u (2 * q) 0).setDelay u (2 * q + 1) 0).ilkAct u q
  else if b ≠ 0 ∧ b < a then (s.pinDue u slot (2 * q + 1)).pinDue u slot (2 * q)
  else (s.pinDue u slot (2 * q)).pinDue u slot (2 * q + 1)

/-- Every pin of unit u that the dead time has held back until now. -/
def State.padsDue (s : State) (u slot : Nat) : State :=
  if (s.spkU u).delayed.isEmpty then s else (List.range 4).foldl (fun s q => s.pairDue u slot q) s

/-- The pins an EDGE entry drives: outputs in the mask with no short found; of a differential pair only pin 2q (R243, R448, R452). -/
def State.edgeDrives (s : State) (u mask p : Nat) : Bool :=
  bitOf mask p && s.pinOut u p && ! s.on (F.SPK_PAD_short u p) && ! (s.isDiff u (p / 2) && p % 2 = 1)

/-- The level an EDGE entry asks of pin p is the active one. -/
def State.edgeActive (s : State) (u levels p : Nat) : Bool := bitOf levels p != s.on (F.SPK_PINCFG_pol u (p / 4) (p % 4))

/-- A differential pair driven through bit 2q; BANK_PINV inverts it (R452). -/
def State.drivePair (s : State) (u q : Nat) (level : Bool) : State :=
  let v := level != bitOf (s.get (F.BANK_PINV_inv (u / 6))) (4 * (u % 6) + q)
  (s.setPad u (2 * q) (if v then .high else .low)).setPad u (2 * q + 1) (if v then .low else .high)

/-- One pin of an EDGE entry. -/
def State.edgePin (s : State) (u mask levels slot p : Nat) (active : Bool) : State :=
  if ! s.edgeDrives u mask p then s
  else if s.isDiff u (p / 2) then if active then s.drivePair u (p / 2) (bitOf levels p) else s
  else if s.edgeActive u levels p != active then s
  else if active then
    let o := if p % 2 = 0 then p + 1 else p - 1
    s.pinOn u p slot (s.edgeDrives u mask o && s.edgeActive u levels o && ! s.pinActive u o)
  else s.pinOff u p slot

/-- An EDGE entry at its slot: the pins that become inactive, then the pins that become active (R239, R244). -/
def State.edgeFire (s : State) (u mask levels slot : Nat) : State :=
  let s := s.padsDue u slot
  let s := (List.range 8).foldl (fun s p => s.edgePin u mask levels slot p false) s
  let s := (List.range 8).foldl (fun s p => s.edgePin u mask levels slot p true) s
  s.put (F.SPK_STS_parked u) 0

/-- The park level of an output pin (R243); an input is never driven, and a pin with a short found stays at its level (R448). -/
def State.parkPad (s : State) (u p : Nat) : Pad :=
  if ! s.pinOut u p then .z
  else if s.on (F.SPK_PAD_short u p) then SMap.get (fun _ => .z) (s.spkU u).shortAt p
  else
  match s.get (F.SPK_PINCFG_park u (p / 4) (p % 4)) with
  | 0 => .low
  | 1 => .high
  | 2 => .z
  | _ => s.pad u p

/-- Both park levels of an interlocked pair of outputs are active (R244). -/
def State.parkClash (s : State) (u q : Nat) : Bool :=
  s.interlocked u q && s.parkPad u (2 * q) == s.padFor u (2 * q) true && s.parkPad u (2 * q + 1) == s.padFor u (2 * q + 1) true

/-- A pin brought to a level that is no entry's: where it would become active, under the interlock; where it becomes inactive, at the
present slot (R244). -/
def State.parkPin (s : State) (u p : Nat) (v : Pad) : State :=
  let slot := s.updates * 32
  if s.pinOut u p ∧ v = s.padFor u p true then s.pinOn u p slot false
  else
    let t := s.setPad u p v
    if s.pinActive u p then t.setPadAt u p (slot + 1) else t

/-- One pair of pins parked, the pin that parks inactive first. -/
def State.parkPair (s : State) (u q : Nat) : State :=
  if s.parkClash u q then
    ((s.pinOff u (2 * q) (s.updates * 32)).pinOff u (2 * q + 1) (s.updates * 32)).ilkAct u q
  else
    let a := s.parkPad u (2 * q)
    let b := s.parkPad u (2 * q + 1)
    if s.pinOut u (2 * q) ∧ a = s.padFor u (2 * q) true then (s.parkPin u (2 * q + 1) b).parkPin u (2 * q) a
    else (s.parkPin u (2 * q) a).parkPin u (2 * q + 1) b

/-- The pins of unit u have left the pull state of Table 09.14: its OUT phase has run, or HOLD has come after the GSR phase (R284). -/
def State.spkParks (s : State) (u : Nat) : Bool := (s.spkU u).out || (s.mode == .hold && bitOf (s.get F.LDR_STS_phases) 2)

/-- The pins of unit u park (R243). Park levels apply from the OUT phase; before it the pins stay in their pull state (R289). -/
def State.spkPark (s : State) (u : Nat) : State :=
  let s := s.padsDue u (s.updates * 32)
  if s.spkParks u then
    ((List.range 4).foldl (fun s q => s.parkPair u q) s).put (F.SPK_STS_parked u) 1
  else s

/-! ## Converters (R250 to R252) -/

def State.adcC (s : State) (c : Nat) : Adc := SMap.get (fun _ => {}) s.adc c
def State.setAdc (s : State) (c : Nat) (a : Adc) : State := { s with adc := SMap.set (fun _ => {}) s.adc c a }

/-- A trigger lost (R252). -/
def State.trigLost (s : State) (c : Nat) : State := (s.sat (F.ADC_STS_trig_lost c)).raiseLim 1000 0x0607 c c

/-- The system pin of mux input m of converter c (Table 15.1): converters 0 to 3 on port PA, 4 to 7 on PB. -/
def muxPin (c m : Nat) : Nat := 4 * c + m

/-- What a conversion of mux input m of converter c delivers: 0 where its pin has no analog claim (R441). -/
def State.convCode (s : State) (c m : Nat) (code : BitVec 16) : BitVec 16 :=
  if s.get (F.PIN_CFG_claim (muxPin c m)) = 7 then code else 0

/-- A conversion started. -/
def State.adcStart (s : State) (c : Nat) (mux : BitVec 2) : State :=
  (s.setAdc c { s.adcC c with mux := mux }).put (F.ADC_STS_busy c) 1

/-- A converter is on: started by an OUT phase (R289), enabled, with an existing unit (Table 08.8). -/
def State.adcOn (s : State) (c : Nat) : Bool := (s.adcC c).out && s.on (F.ADC_CTL_enable c) && decide (s.get (F.ADC_CTL_unit c) < 48)

/-- A trigger of a converter that is on: it starts a conversion, is held during one, or is lost (R252). `soc` is the slot of a SOC token. -/
def State.adcTrigger (s : State) (c : Nat) (mux : BitVec 2) (soc : Option Nat) : State :=
  if ! s.adcOn c then s
  else if ! s.on (F.ADC_STS_busy c) then s.adcStart c mux
  else if (s.adcC c).held.isNone then (s.setAdc c { s.adcC c with held := some mux, heldSoc := soc }).put (F.ADC_STS_pend c) 1
  else s.trigLost c

/-- A SOC token at a slot: lost when Cadence holds the converter (R252). -/
def State.adcTrigSoc (s : State) (c : Nat) (mux : BitVec 2) (slot : Nat) : State :=
  if s.on (F.ADC_STS_held c) then s.trigLost c else s.adcTrigger c mux (some slot)

/-- A TRIG entry at a slot: lost when Cadence holds the converter; it takes the place of a SOC token held at the same slot, which is then
lost (R252). -/
def State.adcTrigEntry (s : State) (c : Nat) (mux : BitVec 2) (slot : Nat) : State :=
  let a := s.adcC c
  if s.on (F.ADC_STS_held c) then s.trigLost c
  else if s.adcOn c ∧ a.held.isSome ∧ a.heldSoc = some slot then (s.setAdc c { a with held := some mux, heldSoc := none }).trigLost c
  else s.adcTrigger c mux none

/-- The converter of a slot: the lower-numbered one that names it (R250). -/
def State.slotOwner (s : State) (c : Nat) : Bool :=
  decide (s.get (F.ADC_CTL_unit c) < 48) &&
  (List.range c).all (fun d => ! (s.on (F.ADC_CTL_enable d) && s.get (F.ADC_CTL_unit d) == s.get (F.ADC_CTL_unit c) &&
    s.get (F.ADC_CTL_slot d) == s.get (F.ADC_CTL_slot c)))

/-- The RES channel of a converter. -/
def State.chAdc (s : State) (c : Nat) : Chan := chRes (s.get (F.ADC_CTL_unit c)) (s.get (F.ADC_CTL_slot c))

/-- The first result of a converter offered, once its channel is neutral (R236, R250). -/
def State.resOffer (s : State) (c : Nat) : State :=
  let a := s.adcC c
  let ch := s.chAdc c
  match a.results with
  | [] => s
  | r :: _ =>
    if a.offered || ! s.slotOwner c || ! (s.spkU (s.get (F.ADC_CTL_unit c))).out ||
        ((s.node (.digit ch 0)).tok.isSome && ! s.outTaken ch 9) then s
    else ((s.clearOut ch 9).setAdc c { a with offered := true }).offerOut ch (digitsOf 9 r.toNat)

/-- The converter leaves its channel: a result that stands there stays there and is the converter's no more (R35). -/
def State.resLeave (s : State) (c : Nat) : State :=
  let a := s.adcC c
  if a.offered then s.setAdc c { a with results := a.results.tail, offered := false } else s

/-- The results of the converters of a unit that is reset go (R305). -/
def State.resDrop (s : State) (u : Nat) : State :=
  (List.range 8).foldl (fun s c =>
    if s.get (F.ADC_CTL_unit c) = u then s.setAdc c { s.adcC c with results := [], offered := false } else s) s

/-! ## Ticks and deadlines (R246, R247) -/

def State.ticksOf (s : State) (u k : Nat) : List (BitVec 2) := SMap.get (fun _ => []) (s.spkU u).ticks k
def State.setTicks (s : State) (u k : Nat) (l : List (BitVec 2)) : State :=
  let x := s.spkU u
  s.setSpk u { x with ticks := SMap.set (fun _ => []) x.ticks k l }

def State.deadlinesOf (s : State) (u k : Nat) : List Deadline := SMap.get (fun _ => []) (s.spkU u).deadlines k
def State.setDeadlines (s : State) (u k : Nat) (l : List Deadline) : State :=
  let x := s.spkU u
  s.setSpk u { x with deadlines := SMap.set (fun _ => []) x.deadlines k l }

/-- A TICK entry fired on channel k with a token value (R246, R247). -/
def State.tickFire (s : State) (u : Nat) (e : BitVec 64) : State :=
  let k := entryArg0 e % 16
  let v := BitVec.ofNat 2 (entryArg0 e / 16)
  let d := BitVec.ofNat 32 (s.unitCtl u (64 * k + 80) 32)
  let active := s.monActive u k
  if 4 ≤ (s.ticksOf u k).length ∨ (active ∧ 8 ≤ (s.deadlinesOf u k).length) then
    (s.put (F.SPK_TICK_STS_ovr u) (s.get (F.SPK_TICK_STS_ovr u) ||| 2 ^ k)).raiseLim 1000 0x0603 u (unitChan u k)
  else
    let s := if (s.ticksOf u k).isEmpty then s.offerOut (chTick u k) [v.toNat] else s
    let s := s.setTicks u k (s.ticksOf u k ++ [v])
    if active then
      let off : BitVec 40 := d.setWidth 40
      let l := if entryDir e then entryStamp e - off else entryStamp e + off
      s.setDeadlines u k (s.deadlinesOf u k ++ [⟨l, d, entryDir e, false⟩])
    else s

/-- The effect of an entry that fires, at a slot, by its kind (Table 08.3). -/
def State.fireEntry (s : State) (u slot : Nat) (e : BitVec 64) : State :=
  match entryKind e with
  | 0 => s.edgeFire u (entryArg0 e) (entryArg1 e) slot
  | 1 => s.tickFire u e
  | 2 => s.adcTrigEntry (entryArg0 e % 8) (BitVec.ofNat 2 (entryArg0 e / 8)) slot
  | _ => s

/-- The head removed from the queue and counted as fired or dropped; the next head is not yet armed. -/
def State.takeHead (s : State) (u : Nat) (fired : Bool) : State :=
  let k := s.spkU u
  let k := if fired then { k with queue := k.queue.tail, fired := k.fired + 1 } else { k with queue := k.queue.tail, dropped := k.dropped + 1 }
  ((s.setSpk u { k with lateAt := none }).put (F.SPK_STS_armed u) 0).spkSync u

/-- A late entry at the head, armed `dt` picoseconds after the update (R241): counted, and dropped, or kept armed for the first slot at least
8 ns later, as its LATE policy says. -/
def State.lateHead (s : State) (u dt : Nat) (e : BitVec 64) : State :=
  let s := s.sat (F.SPK_LATE_late u)
  match entryLate e with
  | 0 => (s.setSpk u { s.spkU u with lateAt := some (s.updates * 32 + (dt + 124) / 125 + 64) }).put (F.SPK_STS_armed u) 1
  | 1 => s.takeHead u false
  | _ => (s.takeHead u false).raiseLim 1000 0x0601 u (unitChan u 0)

/-- The head is no longer armed. -/
def State.disarm (s : State) (u : Nat) : State := (s.setSpk u { s.spkU u with lateAt := none }).put (F.SPK_STS_armed u) 0

/-- The head is armed where the unit may arm one: it takes the test of R238. A late one that is dropped uncovers the entry behind it,
which is armed in turn (R240, R241). -/
def State.armHead : Nat → State → Nat → Nat → State
  | 0, s, _, _ => s
  | n + 1, s, u, dt =>
    match (s.spkU u).queue with
    | [] => s
    | e :: _ =>
      if ! s.spkArmable u || s.on (F.SPK_STS_armed u) || decide (5 ≤ (s.spkU u).firedNow) then s
      else if s.aheadFine (s.get (F.SPK_CTL_track u)) dt (entryStamp e) (entryDir e) < 0 then
        State.armHead n (s.lateHead u dt e) u dt
      else s.put (F.SPK_STS_armed u) 1

/-- The estimate of a track is moving in a direction at an instant. -/
def State.movingDir (s : State) (t : Nat) (dir : Bool) : Bool := if dir then decide (s.velocity t < 0) else decide (0 < s.velocity t)

/-- The slot and the instant at which an armed head fires, `dt` picoseconds after the last update, none where it does not yet (R239, R241):
a late one at its slot; another once the estimate has reached its stamp while moving in its direction, in the slot nearest the crossing. An
entry more than 2^38 counts behind has come round from ahead by motion against its direction, which fires none. -/
def State.fireAt (s : State) (u dt : Nat) (e : BitVec 64) : Option (Nat × Nat) :=
  let t := s.get (F.SPK_CTL_track u)
  match (s.spkU u).lateAt with
  | some slot => if slot * 125 ≤ s.updates * 4000 + dt then some (slot, dt) else none
  | none =>
    let d := s.aheadFine t dt (entryStamp e) (entryDir e)
    let d0 := s.aheadFine t 0 (entryStamp e) (entryDir e)
    let v := (s.velocity t).natAbs
    if 0 < d ∨ d ≤ -(2 ^ 38 * 16384000) ∨ ! s.movingDir t (entryDir e) then none
    else some (s.updates * 32 + (2 * d0.toNat + 125 * v) / (250 * v), d0.toNat / v)

/-- The armed head of unit u, where it is of the kind given, at an instant: it fires when `fireAt` says, at most 4 entries in one update
(R240); the entry behind it is armed at that instant. A fifth waits to be armed at the next update (`firedNow` at 5). -/
def State.headInstant (s : State) (u kind dt : Nat) : State :=
  let s := s.armHead 65 u dt
  match (s.spkU u).queue with
  | [] => s
  | e :: _ =>
    if entryKind e ≠ kind ∨ ! s.spkArmable u ∨ ! s.on (F.SPK_STS_armed u) then s
    else match s.fireAt u dt e with
      | none => s
      | some (slot, at_) =>
        if 4 ≤ (s.spkU u).firedNow then (s.setSpk u { s.spkU u with firedNow := 5 }).disarm u
        else
          let s := s.takeHead u true
          let s := s.setSpk u { s.spkU u with firedNow := (s.spkU u).firedNow + 1 }
          (s.fireEntry u slot e).armHead 65 u at_

/-- Whether unit u acknowledges a new entry (Tables 08.5 and 09.14): not in HOLD, not before its OUT phase, not retired (R428). -/
def State.spkTakes (s : State) (u : Nat) : Bool := ! s.halted && (s.spkU u).out && ! s.spkRetired u

/-- Whether unit u counts a new entry as written and dropped: not enabled, or its track in OFF or HALT (Table 08.5). -/
def State.spkDrops (s : State) (u : Nat) : Bool :=
  ! s.on (F.SPK_CTL_enable u) || s.trkState (s.get (F.SPK_CTL_track u)) == 0 || s.trkState (s.get (F.SPK_CTL_track u)) == 4

/-- A new entry that the unit acknowledges: queued, or counted as written and dropped (R237). -/
def State.pushEntry (s : State) (u dt : Nat) (e : BitVec 64) : State :=
  let k := s.spkU u
  if s.spkDrops u then s.setSpk u { k with written := k.written + 1, dropped := k.dropped + 1 }
  else ((s.setSpk u { k with written := k.written + 1, queue := k.queue ++ [e] }).spkSync u).armHead 65 u dt

/-- A host push by SPK_PUSH_HI: committed, or discarded with push_lost (R237). -/
def State.hostPush (s : State) (u dt : Nat) (hi : Word) : State :=
  let k := s.spkU u
  if ! s.spkTakes u || (! s.spkDrops u && decide (64 ≤ k.queue.length)) then s.put (F.SPK_STS_push_lost u) 1
  else s.pushEntry u dt (hi ++ k.pushLo)

/-- Every entry removed and counted as dropped (R242, Table 08.5). -/
def State.dropAll (s : State) (u : Nat) : State :=
  let k := s.spkU u
  ((s.setSpk u { k with queue := [], lateAt := none, dropped := k.dropped + BitVec.ofNat 32 k.queue.length }).put (F.SPK_STS_armed u) 0).spkSync u

/-- The pending ticks discarded and the open deadlines ended (Table 08.5). -/
def State.endTicks (s : State) (u : Nat) : State :=
  let k := s.spkU u
  let s := (List.range 16).foldl (fun s c => s.clearOut (chTick u c) 1) s
  s.setSpk u { k with ticks := [], deadlines := [] }

/-- Its track enters HALT or OFF, or SPK_CTL.enable is written 0: the row of Table 08.5. -/
def State.spkStop (s : State) (u : Nat) : State := ((s.dropAll u).endTicks u).spkPark u

/-- A unit reset (R242, R305, Table 08.5): the queue, counts, ticks, monitors and records go; the pins park. Its channels are not
served until the next OUT phase. -/
def State.spkReset (s : State) (u : Nat) : State :=
  let s := s.spkPark u
  let s := ((s.endTicks u).clearOut (chCap u) 24).resDrop u
  let k := s.spkU u
  let s := s.setSpk u { ({} : Spk) with pads := k.pads, changed := k.changed, delayed := k.delayed, shortAt := k.shortAt, pushLo := k.pushLo, quietUntil := k.quietUntil }
  let s := s.put (F.SPK_CTL_enable u) 0
  let s := ((s.wr (R.SPK_WRITTEN u) 0).wr (R.SPK_FIRED u) 0).wr (R.SPK_DROPPED u) 0
  let s := ((s.put (F.SPK_STS_armed u) 0).put (F.SPK_STS_occ_snap u) 0).spkSync u
  let s := (s.wr (R.SPK_LATE u) 0).wr (R.SPK_MON_CNT u) 0
  let s := (s.wr (R.SPK_TICK_STS u) 0).wr (R.SPK_MON_MIN u) 0x7FFF
  (List.range 8).foldl (fun s m => s.wr (R.SPK_SLACK u m) 0) s

/-- A snap (R242). -/
def State.spkSnap (s : State) (u : Nat) : State :=
  let k := s.spkU u
  let s := ((s.wr (R.SPK_WRITTEN u) k.written).wr (R.SPK_FIRED u) k.fired).wr (R.SPK_DROPPED u) k.dropped
  s.put (F.SPK_STS_occ_snap u) k.queue.length

/-- Unit u sends nothing to the Derailleur: its region is frozen or isolated, or less than 1 ms has passed since the release (R248). -/
def State.unitQuiet (s : State) (u : Nat) : Bool :=
  s.on (F.REGION_FREEZE_freeze (unitRegion u)) || s.get (F.REGION_PR_STS_state (unitRegion u)) != 1 || decide (s.time < (s.spkU u).quietUntil)

/-- A monitor sends its slack to the Derailleur (R248). -/
def State.monSends (s : State) (u k : Nat) : Bool := s.unitCtl u (64 * k + 78) 1 == 1 && ! s.unitQuiet u

/-- The slack fraction of R247: 2^12 times the slack over the offset, rounded toward minus infinity, saturated to 16 bits. -/
def slackFraction (sigma : Int) (d : Nat) : Int :=
  let f := (4096 * sigma) / (d : Int)
  if f < -32768 then -32768 else if 32767 < f then 32767 else f

/-- Everything the HOLD row of Table 08.5 does to unit u at entry: the head is no longer armed, the pins park. -/
def State.spkHold (s : State) (u : Nat) : State := (s.disarm u).spkPark u

/-! ## Bank supplies (R450, R451, R464) -/

/-- The supply window of a bank standard in millivolts (Table 15.4). -/
def vioWindow (std : Nat) : Nat × Nat :=
  match std with
  | 1 => (2300, 2700)
  | 2 => (1650, 1950)
  | 3 => (1400, 1600)
  | 4 => (1140, 1300)
  | 5 => (1650, 2700)
  | _ => (3000, 3600)

/-- The supply of bank b lies in the window of its standard (R450, R451); with vio_src at 1 it is the 3.3 V rail, unit 2 of Table 01.7, which
only LVCMOS33 takes. -/
def State.vioGood (s : State) (b mv : Nat) : Bool :=
  let std := s.get (F.BANK_CFG_std b)
  if s.on (F.BANK_CFG_vio_src b) then (std == 0 || std == 6 || std == 7) && s.unitOk 2
  else decide ((vioWindow std).1 ≤ mv) && decide (mv ≤ (vioWindow std).2)

/-- The supply of a bank as it stands compared with its window: outside it every pin goes high-impedance with event 0x0B05. -/
def State.bankCheck (s : State) (b : Nat) : State :=
  let ok := s.vioGood b (s.get (F.BANK_CFG_vio b))
  let was := s.on (F.BANK_CFG_vio_ok b)
  let s := s.putB (F.BANK_CFG_vio_ok b) ok
  let us := (List.range 6).map (6 * b + ·)
  if ok then (if was then s else us.foldl (fun s u => s.spkPark u) s)
  else (us.foldl (fun s u => (List.range 8).foldl (fun s p => s.setPad u p .z) s) s).raise 0x0B05 b

/-- The measured supply of a bank. It may come and go before VIN does (R464): in COLD nothing acts on it. -/
def State.bankSupply (s : State) (b mv : Nat) : State :=
  let s := s.put (F.BANK_CFG_vio b) mv
  if s.mode = .cold then s else s.bankCheck b

/-- The banks whose supply no longer agrees with what vio_ok shows compared again: the 3.3 V rail has moved, or a reset has changed their
standards. -/
def State.banksCheck (s : State) : State :=
  (List.range 8).foldl (fun s b => if s.vioGood b (s.get (F.BANK_CFG_vio b)) != s.on (F.BANK_CFG_vio_ok b) then s.bankCheck b else s) s

end Sys2Proof.Machine
end

