-- ==== Sys2Proof/Machine/CadenceOps.lean ====
section
/-! DEFINITION. Cadence: sources, observers, corrections, states, switches (R189 to R230). Stamps count 125 ps slots from the start of the
LOCK phase, 32 to an update. -/

namespace Sys2Proof.Machine

def State.cadSrc (s : State) (n : Nat) : CadSrc := SMap.get (fun _ => {}) s.cad.srcs n
def State.setCadSrc (s : State) (n : Nat) (x : CadSrc) : State := { s with cad := { s.cad with srcs := SMap.set (fun _ => {}) s.cad.srcs n x } }

/-- X of a source with its 12 further bits (R192, R200). -/
def State.srcX (s : State) (n : Nat) : BitVec 76 :=
  (s.rd (R.CAD_SRC_POS_HI n)) ++ (s.rd (R.CAD_SRC_POS_LO n)) ++ (s.cadSrc n).low

def State.setSrcX (s : State) (n : Nat) (x : BitVec 76) : State :=
  let s := (s.wr (R.CAD_SRC_POS_HI n) (x.extractLsb' 44 32)).wr (R.CAD_SRC_POS_LO n) (x.extractLsb' 12 32)
  s.setCadSrc n { s.cadSrc n with low := x.extractLsb' 0 12 }

/-- A source is enabled and not lost. -/
def State.srcValid (s : State) (n : Nat) : Bool := s.on (F.CAD_SRC_STS_valid n)

/-- valid written, with its copy in CAD_STS. -/
def State.setValid (s : State) (n : Nat) (v : Bool) : State :=
  (s.putB (F.CAD_SRC_STS_valid n) v).putB ⟨R.CAD_STS, 4 + n, 1⟩ v

/-- QUAD or PULSE. -/
def State.srcDigital (s : State) (n : Nat) : Bool := s.get (F.CAD_SRC_CTL_type n) == 0 || s.get (F.CAD_SRC_CTL_type n) == 4

/-! ## The observer (R203 to R208) -/

/-- The measured position of a source under a scaling (R203): X taken as signed, so that it passes 0 without a jump; 0 acts as 1. -/
def Observer.scaled (o : Observer) (x : BitVec 76) : BitVec 64 :=
  let x64 : Int := x.toInt / 4096
  BitVec.ofInt 64 (x64 * (max 1 o.mul : Nat) / ((max 1 o.div : Nat) : Int)) + o.ofs.setWidth 64 + o.bias

/-- Twice fn of a bandwidth code (Table 07.2). -/
def fnTwice (bw : Nat) : Nat := 5 * 2 ^ min bw 13

/-- The code in use (R206): bw, or the highest below it whose fn meets the interval in slots. -/
def bwInUse (bw interval : Nat) : Nat :=
  let ok (c : Nat) : Bool := decide (fnTwice c * interval ≤ 800000000)
  if ok (min bw 13) then min bw 13 else ((List.range (min bw 13)).reverse.find? ok).getD 0

/-- pi to 30 digits. -/
def pi30 : Nat := 3141592653589793238462643383280

/-- A product of the observer brought to a whole number of units. -/
def observerRound (num den : Int) : Int := num / den + (if Config.observerUp num den then 1 else 0)

/-- kp x e, in the units of e: kp = 2 zeta wn T (R204). -/
def kpTimes (code : Nat) (damp : Bool) (slots : Nat) (e : Int) : Int :=
  observerRound (2 * (if damp then 1000 else 707) * pi30 * fnTwice code * slots * 125 * e) (10 ^ 45)

/-- ki x e, e in 2^-49 counts and the result in 2^-44 counts per update: ki = wn^2 T x 4 ns (R204). -/
def kiTimes (code slots : Nat) (e : Int) : Int :=
  observerRound ((pi30 : Int) ^ 2 * fnTwice code ^ 2 * slots * 500 * e) (10 ^ 81 * 32)

/-- Counts as units of the estimate. -/
def fine (m : BitVec 64) : BitVec 113 := m.setWidth 113 <<< 49

/-- How far a position lies ahead of the estimate, in units of 2^-49 counts. -/
def Observer.gap (o : Observer) (m : BitVec 64) : Int := (fine m - o.theta).toInt

/-- One update without a measurement. -/
def Observer.advance (o : Observer) : Observer := { o with theta := o.theta + BitVec.ofInt 113 (o.omega * 32), lost := 0 }

/-- One update of a track on a digital source: the estimate holds at the next edge, where each update acts as a measurement with the gains
of the code in use (R204, R207). What the hold keeps back is kept for the measurement of that edge; with the velocity at 0 nothing is. -/
def Observer.advanceHeld (o : Observer) (bw : Nat) (x : BitVec 76) : Observer :=
  let edge := o.scaled (if 0 < o.omega then x + BitVec.ofNat 76 (2 ^ 44) else x - BitVec.ofNat 76 (2 ^ 44))
  let gap := o.gap edge
  let step := o.omega * 32
  if o.omega ≠ 0 ∧ ((0 < o.omega ∧ gap ≤ step) ∨ (o.omega < 0 ∧ step ≤ gap)) then
    { o with theta := fine edge, omega := o.omega + kiTimes (bwInUse bw o.interval) 32 (gap - step), lost := o.lost + (step - gap) }
  else o.advance

/-- The error of a measurement `back` behind the present estimate (R204). DEDUCED (log entry 156): after a hold the estimate that is compared is
the one that the hold kept back, extrapolated without it, so that the loop of R204 keeps the bounds of R208. -/
def Observer.error (o : Observer) (m : BitVec 64) (back : Int) : Int := o.gap m - o.lost + back

/-- The position of the next edge of a digital source in the direction of the estimate (R207). -/
def Observer.nextEdge (o : Observer) (x : BitVec 76) : BitVec 64 :=
  o.scaled (if 0 < o.omega then x + BitVec.ofNat 76 (2 ^ 44) else x - BitVec.ofNat 76 (2 ^ 44))

/-- An estimate that a measurement has put past the next edge stands at that edge (R207; DEDUCED, log entry 125). -/
def Observer.clampEdge (o : Observer) (x : BitVec 76) : Observer :=
  let gap := o.gap (o.nextEdge x)
  if (0 < o.omega ∧ gap < 0) ∨ (o.omega < 0 ∧ 0 < gap) then { o with theta := fine (o.nextEdge x), lost := o.lost - gap } else o

/-- A measurement at a position, stamped so many slots ago, fewer than none where its stamp lies ahead (R204): the observer after it, and
the error in units of 2^-49 counts. The first sets the estimate, the second of a start by enable the velocity. -/
def Observer.measure (o : Observer) (m : BitVec 64) (stamp ago : Int) (bw : Nat) (damp : Bool) : Observer × Int :=
  let back : Int := o.omega * ago
  let slots := max 1 (stamp - o.stamp).toNat
  match o.taken with
  | 0 => ({ o with theta := fine m + BitVec.ofInt 113 back, taken := 1, lastM := m, stamp := stamp, lost := 0 }, 0)
  | 1 =>
    let w : Int := (m - o.lastM).toInt * 2 ^ 44 * 32 / (slots : Int)
    ({ o with theta := fine m + BitVec.ofInt 113 (w * ago), omega := w, taken := 2, lastM := m, stamp := stamp, interval := slots
              lost := 0 }, 0)
  | _ =>
    let code := bwInUse bw slots
    let e := o.error m back
    ({ o with theta := fine m + BitVec.ofInt 113 (back - e + kpTimes code damp slots e), omega := o.omega + kiTimes code slots e
              taken := 2, lastM := m, stamp := stamp, interval := slots, lost := 0 }, e)

/-- The acquire threshold in units of 2^-49 counts: 2^20 counts or two source periods (Table 07.4). -/
def Observer.threshold (o : Observer) : Nat := max (2 ^ 20) (2 * (2 ^ 32 * max 1 o.mul / max 1 o.div)) * 2 ^ 49

/-! ## Publishing -/

/-- What the registers show of a track now: ANG, DREM, bw_eff, slewing (TURN, VEL and ERR show what a read of ANG captured). -/
def State.trkShow (s : State) (t : Nat) : State :=
  let x := s.trkT t
  let off := s.trkState t == 0
  let s := s.put (F.CAD_TRK_ANG_angle t) (if off then 0 else x.position.toNat)
  let lim : Int := 2 ^ 31 - 1
  let s := s.putS (F.CAD_TRK_DREM_rem t) (if x.rem < -lim then -lim else if lim < x.rem then lim else x.rem)
  let s := s.putB (F.CAD_TRK_STS_slewing t) (x.rem != 0)
  s.put (F.CAD_TRK_STS_bw_eff t) (bwInUse (s.get (F.CAD_TRK_CTL_bw t)) x.obs.interval)

/-- The state of a track written, with its copies in CAD_STS. -/
def State.setTrkState (s : State) (t v : Nat) : State :=
  ((s.put (F.CAD_TRK_STS_state t) v).putB ⟨R.CAD_STS, 8 + t, 1⟩ (v == 3)).putB ⟨R.CAD_STS, 16 + t, 1⟩ (v == 4)

/-- The Spoke units of a track stop (Table 08.5). -/
def State.trkSpokes (s : State) (t : Nat) : State :=
  (List.range 48).foldl (fun s u => if s.get (F.SPK_CTL_track u) = t ∧ (s.spkU u).out then s.spkStop u else s) s

/-! ## Switches (R223 to R225) -/

/-- A switch ends without taking effect: aborted or rejected, event 0x0506. A return is only dropped. -/
def State.switchAbort (s : State) (t : Nat) : State :=
  let x := s.trkT t
  if x.shadow.isNone then s
  else
    let s := s.setTrk t { x with shadow := none, isReturn := false, swUpd := 0 }
    if x.isReturn then s
    else (((s.put (F.CAD_TRK_STS_switching t) 0).put (F.CAD_TRK_SW_busy t) 0).put (F.CAD_TRK_SW_result t) 2).raise 0x0506 t

/-- HALT with a cause (R218): the switch is aborted, event 0x0503, the Spoke units stop. -/
def State.trkHalt (s : State) (t cause : Nat) : State :=
  let s := (s.setTrkState t 4).put (F.CAD_TRK_STS_halt_cause t) cause
  let s := (s.switchAbort t).raise 0x0503 t
  (s.trkSpokes t).trkShow t

/-- A running track. -/
def State.trkRuns (s : State) (t : Nat) : Bool := 1 ≤ s.trkState t && s.trkState t ≤ 3

/-- A track to OFF (R213); no remainder is left, so a switch at step 4 then completes. -/
def State.trkOff (s : State) (t : Nat) : State :=
  if s.trkState t = 0 then s
  else
    let s := s.switchAbort t
    let s := (s.setTrkState t 0).setTrk t { slewDone := (s.trkT t).slewDone }
    let s := ((s.put (F.CAD_TRK_TURN_turn t) 0).put (F.CAD_TRK_VEL_vel t) 0).put (F.CAD_TRK_ERR_err t) 0
    (s.trkSpokes t).trkShow t

/-- A track enters COAST (R217). -/
def State.trkCoast (s : State) (t : Nat) : State :=
  (s.setTrkState t 3).setTrk t { s.trkT t with coastAng := 0, coastUpd := 0 }

/-- A correction of d counts (R221); none where it would bring the remainder beyond 2^39. That of a switch while the remainder is not 0 is
added to the remainder (R224). -/
def State.correct (s : State) (t : Nat) (d : Int) (switch : Bool) : Option State :=
  let x := s.trkT t
  let st := s.trkState t
  let move (o : Observer) : Observer := { o with theta := o.theta + fine (BitVec.ofInt 64 d), lastM := o.lastM + BitVec.ofInt 64 d }
  if st = 2 ∨ st = 3 then
    let lim : Int := s.get (F.CAD_TRK_STEP_step_max t)
    let step := if switch ∧ x.rem ≠ 0 then 0 else if d < -lim then -lim else if lim < d then lim else d
    let r := x.rem + d - step
    if r < -(2 ^ 39) ∨ 2 ^ 39 < r then none
    else
      let s := s.setTrk t { x with obs := move x.obs, rem := r }
      let s := if step ≠ 0 then s.put (F.CAD_TRK_STS_step t) 1 else s
      some (s.trkShow t)
  else some ((s.setTrk t { x with obs := move x.obs }).trkShow t)

/-- Step 3 of Table 07.6 for the shadow of a track. The turn count continues from the track; align keeps the angle. The correction runs from
-2^31 to 2^31 - 1 counts. -/
def State.switchTake (s : State) (t : Nat) (sh : Observer) (align : Bool) : Option State :=
  let x := s.trkT t
  let near : Int := ((sh.theta - x.obs.theta).setWidth 81).toInt
  let diff : Int := if 2 ^ 80 ≤ near + 2 ^ 48 then near - 2 ^ 81 else near
  let d : Int := (diff + 2 ^ 48) / 2 ^ 49
  let dd : BitVec 64 := BitVec.ofInt 64 d
  let target : BitVec 113 := x.obs.theta + BitVec.ofInt 113 diff
  let turns : BitVec 64 := (target - sh.theta).extractLsb' 49 64
  let bound (s : State) (o : Observer) : State :=
    let s := s.setTrk t { s.trkT t with obs := { o with good := 0 }, shadow := none, isReturn := false, swUpd := 0 }
    let s := (s.put (F.CAD_TRK_CTL_src t) o.src).put (F.CAD_TRK_CTL_mul t) o.mul
    (s.put (F.CAD_TRK_DIV_div t) o.div).put (F.CAD_TRK_OFS_offset t) o.ofs.toNat
  if align then
    let ofs := sh.ofs - dd.setWidth 32
    let o := { sh with ofs := ofs, theta := target - fine dd, bias := sh.bias + turns - dd + sh.ofs.setWidth 64 - ofs.setWidth 64 }
    some ((bound s o).trkShow t)
  else
    match s.correct t d (! x.isReturn) with
    | none => none
    | some s => some ((bound s { sh with theta := target, bias := sh.bias + turns }).trkShow t)

/-- The limit that a coasting track has reached: 1 the coast angle, 2 the coast time, 0 neither (R217); a limit of 0 acts as 1. -/
def State.coastCause (s : State) (t : Nat) : Nat :=
  let x := s.trkT t
  if s.trkState t ≠ 3 then 0
  else if max 1 (s.get (F.CAD_TRK_COAST_angle t)) * 4096 * 2 ^ 44 ≤ x.coastAng then 1
  else if max 1 (s.get (F.CAD_TRK_LIM_coast_time t)) * 2500 ≤ x.coastUpd then 2
  else 0

/-- The shadow of a track has acquired: step 3 of a switch, or the end of a return whose source is valid again (R219, R223 to R225). The
coast limit of the same update comes first (R214). -/
def State.switchAcquired (s : State) (t : Nat) : State :=
  let x := s.trkT t
  match x.shadow with
  | none => s
  | some sh =>
    if sh.good < 16 then s
    else if s.coastCause t ≠ 0 then s.trkHalt t (s.coastCause t)
    else if x.isReturn then
      if ! s.srcValid sh.src then s
      else match s.switchTake t sh false with
      | none => s.setTrk t { x with shadow := none, isReturn := false }
      | some s => ((s.setTrkState t 2).setTrk t { s.trkT t with slewDone := true }).raise 0x0504 t
    else
      match s.switchTake t sh x.swAlign with
      | none => s.switchAbort t
      | some s =>
        let s := s.put (F.CAD_TRK_STS_switching t) 0
        if s.trkState t = 4 then ((s.put (F.CAD_TRK_SW_busy t) 0).put (F.CAD_TRK_SW_result t) 1).raise 0x0505 t
        else
          let s := if s.trkState t = 3 then s.setTrkState t 2 else s
          s.setTrk t { s.trkT t with slewDone := true }

/-- A switch of the track is in progress, step 4 included (Table 07.6). -/
def State.switchBusy (s : State) (t : Nat) : Bool :=
  s.on (F.CAD_TRK_SW_busy t) || ((s.trkT t).shadow.isSome && ! (s.trkT t).isReturn)

/-- A request to switch to source n under R224: 0 accepted, 1 the track is OFF or the new source is not valid, 2 a switch is in progress. DESIGN
CHOICE (log entry 154): where both hold the first is answered; for the admin command see execCadSourceSwitch. -/
def State.switchCheck (s : State) (t n : Nat) : Nat :=
  if s.trkState t = 0 ∨ ! s.srcValid n then 1 else if s.switchBusy t then 2 else 0

/-- A request rejected (R224): result and event, and no other effect. -/
def State.switchReject (s : State) (t : Nat) : State := (s.put (F.CAD_TRK_SW_result t) 3).raise 0x0506 t

/-- Step 1 of Table 07.6, of a request that R224 accepts: the shadow observer is set up, and a return at step 2 dropped (R219). -/
def State.switchGo (s : State) (t : Nat) : State :=
  let x := s.trkT t
  let sh : Observer := {
    src := s.get (F.CAD_TRK_SW_src t), mul := s.get (F.CAD_TRK_SW_mul t), div := s.get (F.CAD_TRK_SWDIV_div t)
    ofs := BitVec.ofNat 32 (s.get (F.CAD_TRK_SWOFS_offset t)) }
  let s := s.setTrk t { x with shadow := some sh, isReturn := false, swAlign := s.on (F.CAD_TRK_SW_align t), swUpd := 0 }
  ((s.put (F.CAD_TRK_STS_switching t) 1).put (F.CAD_TRK_SW_busy t) 1).put (F.CAD_TRK_SW_result t) 0

/-! ## Measurements -/

/-- A measurement reaches the shadow of a track: the first starts it with the track's present velocity and counts as within the threshold
(R219, R223). -/
def shadowMeasure (o : Observer) (omega : Int) (x : BitVec 76) (stamp ago : Int) (bw : Nat) (damp : Bool) : Observer :=
  let first := o.taken = 0
  let o := if first then { o with omega := omega } else o
  let r := o.measure (o.scaled x) stamp ago bw damp
  let o' := if first then { r.1 with taken := 2 } else r.1
  { o' with good := if r.2.natAbs < o.threshold then o.good + 1 else 0 }

/-- A measurement of source n reaches track t: its observer while it follows the source, a shadow on that source, and a return begun for
a track that coasts on it (R204, R216 to R219, R223). -/
def State.trkMeasure (s : State) (n t : Nat) (stamp : Int) : State :=
  let x := s.trkT t
  let st := s.trkState t
  if st = 0 then s
  else
    let pos := s.srcX n
    let ago : Int := s.updates * 32 - stamp
    let bound := s.get (F.CAD_TRK_CTL_src t) = n
    let bw := s.get (F.CAD_TRK_CTL_bw t)
    let damp := s.on (F.CAD_TRK_CTL_damp t)
    let x :=
      if bound ∧ st ≠ 3 ∧ s.srcValid n then
        let r := x.obs.measure (x.obs.scaled pos) stamp ago bw damp
        let counted := 2 ≤ x.obs.taken
        let good := if ! counted then 0 else if r.2.natAbs < x.obs.threshold then x.obs.good + 1 else 0
        let o := if s.srcDigital n ∧ counted then r.1.clampEdge pos else r.1
        { x with obs := { o with good := good }, err := if counted then (r.2 + 2 ^ 48) / 2 ^ 49 else x.err }
      else if bound ∧ st = 3 ∧ x.shadow.isNone then
        { x with isReturn := true, shadow := some { x.obs with taken := 0, good := 0 } }
      else x
    let x := match x.shadow with
      | none => x
      | some o =>
        if o.src ≠ n then x
        else { x with shadow := some (shadowMeasure o x.obs.omega pos stamp ago bw damp) }
    (s.setTrk t x).trkShow t

/-- A good measurement of source n: counted, and delivered to the tracks (R216). -/
def State.measured (s : State) (n stamp : Nat) : State :=
  let x := s.cadSrc n
  let stamp := (stamp : Int) - (BitVec.ofNat 32 (s.get (F.CAD_SRC_COMP_comp n))).toInt
  let stamp := if s.get (F.CAD_SRC_CTL_type n) = 5 then stamp + (BitVec.ofNat 32 (s.get (F.CAD_SRC_COMP_comp n))).toInt else stamp
  let x := { x with good := x.good + 1, bad := 0, m0 := x.m1, m1 := some (s.srcX n, stamp) }
  let s := (s.setCadSrc n x).inc (F.CAD_SRC_STS_meas n)
  (List.range 8).foldl (fun s t => s.trkMeasure n t stamp) s

/-- A measurement that fails corrects nothing; a return on it starts again (R216, R219). -/
def State.measureFailed (s : State) (n : Nat) : State :=
  let x := s.cadSrc n
  let s := s.setCadSrc n { x with good := 0, bad := x.bad + 1 }
  (List.range 8).foldl (fun s t =>
    let y := s.trkT t
    match y.shadow with
    | some o => if o.src = n then
        (if y.isReturn then s.setTrk t { y with shadow := none, isReturn := false } else s.setTrk t { y with shadow := some { o with good := 0 } })
      else s
    | none => s) s

/-- The tracks bound to a source leave it: TRACK becomes COAST, ACQUIRE counts anew, switches toward it are aborted, returns on it
dropped (R213 to R215, R225). -/
def State.tracksLose (s : State) (n : Nat) (lost : Bool) : State :=
  (List.range 8).foldl (fun s t =>
    let x := s.trkT t
    let s := match x.shadow with
      | some o => if o.src = n then s.switchAbort t else s
      | none => s
    if s.get (F.CAD_TRK_CTL_src t) ≠ n ∨ s.trkState t = 0 then s
    else
      let s := if lost then s.put (F.CAD_TRK_STS_lost t) 1 else s
      match s.trkState t with
      | 1 => s.setTrk t { s.trkT t with obs := { (s.trkT t).obs with good := 0 } }
      | 2 => s.trkCoast t
      | _ => s) s

/-- A source is lost (R215). -/
def State.sourceLost (s : State) (n : Nat) : State :=
  let s := (s.setValid n false).put (F.CAD_SRC_STS_lost n) 1
  let s := s.setCadSrc n { s.cadSrc n with good := 0, m0 := none, m1 := none }
  (s.tracksLose n true).raise 0x0502 n

/-! ## Enabling (R191, R193, R211, R213, R228, R229) -/

/-- The converters that a source names: the second one unless it is single-phase MAINS (Table 07.1). -/
def State.srcConvs (s : State) (n : Nat) : List Nat :=
  let ty := s.get (F.CAD_SRC_CTL_type n)
  if ty = 1 ∨ ty = 2 ∨ (ty = 3 ∧ s.on (F.CAD_SRC_ANA_b_en n)) then [s.get (F.CAD_SRC_ANA_conv_a n), s.get (F.CAD_SRC_ANA_conv_b n)]
  else if ty = 3 then [s.get (F.CAD_SRC_ANA_conv_a n)] else []

/-- ADC_STS.held follows the enabled sources (R193, R252). -/
def State.adcHeld (s : State) : State :=
  let held := (List.range 4).flatMap (fun n => if s.on (F.CAD_SRC_CTL_enable n) then s.srcConvs n else [])
  (List.range 8).foldl (fun s c => s.putB (F.ADC_STS_held c) (held.contains c)) s

/-- A converter of the source is named by another enabled source (R193). -/
def State.srcConflict (s : State) (n : Nat) : Bool :=
  let mine := s.srcConvs n
  (List.range 4).any (fun m => m != n && s.on (F.CAD_SRC_CTL_enable m) && (s.srcConvs m).any (mine.contains ·))

/-- A source that its registers describe is started, a digital one at a whole number of periods (R192), or the enable is discarded: reserved type, Cadence stopped, converter conflict. -/
def State.srcStart (s : State) (n : Nat) : State :=
  if s.on (F.CAD_SRC_CTL_enable n) ∨ s.get (F.CAD_SRC_CTL_type n) = 7 ∨ ! s.cad.run then s
  else if s.srcConflict n then s.put (F.CAD_SRC_STS_conflict n) 1
  else
    let base := 32 + 3 * s.get (F.CAD_SRC_CTL_unit n)
    let lvl (p : Nat) : Nat := s.get ⟨R.PIN_IN (p / 16), p % 16, 1⟩
    let x := s.srcX n
    let s := s.setCadSrc n { low := (s.cadSrc n).low, ab := BitVec.ofNat 2 (lvl base + 2 * lvl (base + 1)) }
    let s := if s.srcDigital n then s.setSrcX n (x.extractLsb' 44 32 ++ (0 : BitVec 44)) else s
    let s := ((s.put (F.CAD_SRC_CTL_enable n) 1).put (F.CAD_SRC_STS_homed n) 0).put (F.CAD_SRC_STS_low_speed n) 0
    (s.setValid n true).adcHeld

/-- A source stopped (R211, R213). -/
def State.srcStop (s : State) (n : Nat) : State :=
  if ! s.on (F.CAD_SRC_CTL_enable n) then s
  else ((s.put (F.CAD_SRC_CTL_enable n) 0).setValid n false |>.tracksLose n false).adcHeld

/-- A write of CAD_SRCn_CTL (R211, R229). -/
def State.srcCtlWrite (s : State) (n : Nat) (v : BitVec 32) : State :=
  if s.on (F.CAD_SRC_CTL_enable n) then if v.getLsbD 0 then s else s.srcStop n
  else if v.getLsbD 0 ∧ v.toNat / 2 % 8 = 7 ∧ s.cad.run then s
  else
    let old := s.rd (R.CAD_SRC_CTL n)
    let t := s.wr (R.CAD_SRC_CTL n) (v &&& 0x00FFFFFE)
    if ! v.getLsbD 0 ∨ ! s.cad.run then t
    else
      let u := t.srcStart n
      if u.on (F.CAD_SRC_CTL_enable n) then u else u.wr (R.CAD_SRC_CTL n) old

/-- The observer that the registers of a track describe. -/
def State.trkObserver (s : State) (t : Nat) : Observer := {
  src := s.get (F.CAD_TRK_CTL_src t), mul := s.get (F.CAD_TRK_CTL_mul t), div := s.get (F.CAD_TRK_DIV_div t)
  ofs := BitVec.ofNat 32 (s.get (F.CAD_TRK_OFS_offset t)) }

/-- A track from OFF to ACQUIRE (R204, R213); a switch whose step 4 has yet to be shown complete stays so (R223). -/
def State.trkStart (s : State) (t : Nat) : State :=
  if s.trkState t ≠ 0 ∨ ! s.cad.run then s
  else
    let s := (s.put (F.CAD_TRK_CTL_enable t) 1).setTrk t { obs := s.trkObserver t, slewDone := (s.trkT t).slewDone }
    (s.setTrkState t 1).trkShow t

/-- A halt request (R213): from any running state. -/
def State.trkHaltReq (s : State) (t : Nat) : State := if s.trkRuns t then s.trkHalt t 4 else s

/-- The observer of a track at its source's measured position and velocity (R220): the last two measurements give both; with one the
velocity follows at the next, with none the observer starts at the first. On a digital source it starts no farther than the next edge
(R207). -/
def State.trkRestart (s : State) (t : Nat) : Observer :=
  let n := s.get (F.CAD_TRK_CTL_src t)
  let y := s.cadSrc n
  let o := { s.trkObserver t with bias := (s.trkT t).obs.bias }
  let now : Int := s.updates * 32
  match y.m1 with
  | none => o
  | some (p, at1) =>
    let m := o.scaled p
    match y.m0 with
    | none => { o with theta := fine m, taken := 1, lastM := m, stamp := at1 }
    | some (q, at0) =>
      let slots := max 1 (at1 - at0).toNat
      let w : Int := (m - o.scaled q).toInt * 2 ^ 44 * 32 / (slots : Int)
      let o := { o with theta := fine m + BitVec.ofInt 113 (w * (now - at1)), omega := w, taken := 2, lastM := m, stamp := at1, interval := slots }
      if s.srcDigital n then { o.clampEdge (s.srcX n) with lost := 0 } else o

/-- A rearm (R190, R220): HALT, source valid, PLL locked; else discarded. -/
def State.trkRearm (s : State) (t : Nat) : State :=
  let x := s.trkT t
  let n := s.get (F.CAD_TRK_CTL_src t)
  if s.trkState t ≠ 4 ∨ ! s.srcValid n ∨ ! s.on F.CAD_STS_pll_lock ∨ ! s.cad.run then s
  else
    let s := (s.setTrk t { x with obs := s.trkRestart t, rem := 0 }).put (F.CAD_TRK_STS_halt_cause t) 0
    (s.setTrkState t 1).trkShow t

/-- A write of CAD_TRKn_CTL (R211, R213, R220, R229): src and mul only in OFF; disable before halt before rearm (R214). DESIGN CHOICE (log
entry 153): R214 does not rank rearm; beside halt it is dropped, in HALT too, where the halt changes nothing. -/
def State.trkCtlWrite (s : State) (t : Nat) (v : BitVec 32) : State :=
  let off := s.trkState t = 0
  let s := ((s.put (F.CAD_TRK_CTL_bw t) (v.toNat / 8)).putB (F.CAD_TRK_CTL_damp t) (v.getLsbD 7)).putB (F.CAD_TRK_CTL_lock_wait t) (v.getLsbD 8)
  let s := if off then (s.put (F.CAD_TRK_CTL_src t) (v.toNat / 2)).put (F.CAD_TRK_CTL_mul t) (v.toNat / 65536) else s
  if ! v.getLsbD 0 then (s.put (F.CAD_TRK_CTL_enable t) 0).trkOff t
  else
    let s := if off then s.trkStart t else s
    let s := if v.getLsbD 10 ∧ s.cad.run then s.trkHaltReq t else s
    let s := if v.getLsbD 9 ∧ ! v.getLsbD 10 then s.trkRearm t else s
    s.trkShow t

/-- A write of CAD_TRKn_ADJ (R222, R229). A return in progress has the track's present scaling, so its shadow takes the same. -/
def State.trkAdjust (s : State) (t : Nat) (a : BitVec 32) : State :=
  if s.trkState t = 0 ∨ ! s.cad.run then s
  else match s.correct t a.toInt false with
    | none => s
    | some s' =>
      let x := s'.trkT t
      let s' := s'.put (F.CAD_TRK_OFS_offset t) (s'.get (F.CAD_TRK_OFS_offset t) + a.toNat)
      let ofs := BitVec.ofNat 32 (s'.get (F.CAD_TRK_OFS_offset t))
      let carry : BitVec 64 := x.obs.ofs.setWidth 64 + a.signExtend 64 - ofs.setWidth 64
      let sh := if x.isReturn then x.shadow.map (fun o => { o with
          ofs := ofs, bias := o.bias + carry, theta := o.theta + fine (a.signExtend 64), lastM := o.lastM + a.signExtend 64 })
        else x.shadow
      (s'.setTrk t { x with obs := { x.obs with ofs := ofs, bias := x.obs.bias + carry }, shadow := sh }).trkShow t

/-- A write of CAD_TRKn_SW (R223, R224, R229). -/
def State.trkSwWrite (s : State) (t : Nat) (v : BitVec 32) : State :=
  let u := (((s.put (F.CAD_TRK_SW_src t) v.toNat).putB (F.CAD_TRK_SW_align t) (v.getLsbD 2)).put (F.CAD_TRK_SW_timeout t) (v.toNat / 256)).put
    (F.CAD_TRK_SW_mul t) (v.toNat / 65536)
  if ! v.getLsbD 3 ∨ ! s.cad.run then u else if s.switchCheck t (v.toNat % 4) ≠ 0 then s.switchReject t else u.switchGo t

/-- Every source and track stopped (R229). -/
def State.cadStop (s : State) : State :=
  let s := (List.range 8).foldl (fun s t => (((s.put (F.CAD_TRK_CTL_enable t) 0).trkOff t).setTrk t {}).put (F.CAD_TRK_SW_busy t) 0) s
  let s := (List.range 4).foldl (fun s n => s.srcStop n) s
  { s with cad := { s.cad with run := false } }

/-! ## One update (R200, R204, R207, R209, R217, R221) -/

/-- The remainder one update nearer to 0. -/
def slewed (r : Int) (slew : Nat) : Int :=
  if r.natAbs ≤ slew then 0 else if 0 < r then r - slew else r + slew

/-- The faster of overspeed: |omega| above ovs x 40 turns/s (R209). -/
def State.overspeed (s : State) (t : Nat) : Bool :=
  let o := s.get (F.CAD_TRK_DIV_ovs t)
  let lim := if o = 0 ∨ 250 < o then 250 else o
  decide (lim * 40 * 2 ^ 76 < (s.trkT t).obs.omega.natAbs * 250000000)

/-- One update of one track. -/
def State.trkUpdate (s : State) (t : Nat) : State :=
  let st := s.trkState t
  if st = 0 then s
  else
    let x := s.trkT t
    let n := s.get (F.CAD_TRK_CTL_src t)
    let bw := s.get (F.CAD_TRK_CTL_bw t)
    let moving := st ≠ 4 ∨ s.srcValid n
    let obs := if ! moving then x.obs
      else if st ≠ 3 ∧ s.srcDigital n ∧ 2 ≤ x.obs.taken then x.obs.advanceHeld bw (s.srcX n)
      else x.obs.advance
    let shadow : Option Observer := x.shadow.map (fun o => if s.srcDigital o.src ∧ 2 ≤ o.taken then o.advanceHeld bw (s.srcX o.src) else o.advance)
    let x : Trk := { x with obs := obs, shadow := shadow, rem := slewed x.rem (max 1 (s.get (F.CAD_TRK_LIM_slew t))) }
    let x : Trk := if x.shadow.isSome ∧ ! x.isReturn then { x with swUpd := x.swUpd + 1 } else x
    let x : Trk := if st = 3 then { x with coastAng := x.coastAng + x.obs.omega.natAbs, coastUpd := x.coastUpd + 1 } else x
    let s := (s.setTrk t x).trkShow t
    if st ≤ 3 ∧ s.overspeed t then ((s.put (F.CAD_TRK_STS_ovs t) 1).raise 0x0507 t).trkHalt t 3 else s

/-- One update of every FREE source: X moves and is measured (R200, R204). -/
def State.freeUpdate (s : State) (n : Nat) : State :=
  if s.on (F.CAD_SRC_CTL_enable n) ∧ s.get (F.CAD_SRC_CTL_type n) = 6 then
    let s := s.setSrcX n (s.srcX n + BitVec.ofInt 76 (BitVec.ofNat 32 (s.get (F.CAD_SRC_FREE_freq n))).toInt)
    s.measured n (s.updates * 32)
  else s

/-- Every track one update on, CAD_UPD counted, the excitation channels at their next level (R198), the Spoke units free to fire 4 entries more and to arm a head (R189, R240). -/
def State.cadUpdate (s : State) : State :=
  if ! s.cad.run ∨ ! s.on F.CAD_STS_pll_lock then s
  else
    let u := s.updates + 1
    let s := (s.wr R.CAD_UPD_LO (BitVec.ofNat 32 u)).wr R.CAD_UPD_HI (BitVec.ofNat 32 (u / 2 ^ 32))
    let s := (List.range 8).foldl (fun s t => s.trkUpdate t) s
    let s := (List.range 4).foldl (fun s n => s.freeUpdate n) s
    let s := (List.range 4).foldl (fun s k => if s.holder (28 + k) = some (16 + k) then s.pinRefresh (28 + k) else s) s
    (s.spk.map (·.1)).foldl (fun s u => ((s.setSpk u { s.spkU u with firedNow := 0 }).padsDue u (s.updates * 32)).armHead 65 u 0) s

end Sys2Proof.Machine
end

