-- ==== Sys2Proof/Machine/Cadence.lean ====
section
/-! DEFINITION. The commands of Cadence (chapter 07). -/

namespace Sys2Proof.Machine

/-- TRACK_UPDATE (R189, R204, R209, R221): one update of 4 ns, for every track. -/
def execTrackUpdate (s : State) : Out := .next s.cadUpdate

/-- COAST_LIMIT (R217): the coast angle (cause 1) or the coast time (cause 2) is reached. -/
def execCoastLimit (t : Fin 8) (s : State) : Out :=
  .next (if s.coastCause t = 0 then s else s.trkHalt t (s.coastCause t))

/-- ACQUIRE_COMPLETE (R213). -/
def execAcquireComplete (t : Fin 8) (s : State) : Out :=
  .next (if s.trkState t = 1 ∧ 16 ≤ (s.trkT t).obs.good then (s.setTrkState t 2).trkShow t else s)

/-- PLL_LOCK_LOST (R190): every track that is not OFF enters HALT with cause 5. DESIGN CHOICE (log entry 155): event 0x0501, which concerns no
source and no track, has parameter 0. -/
def execPllLockLost (s : State) : Out :=
  let s := ((s.put F.CAD_STS_pll_lock 0).put F.CAD_STS_pll_lost 1).raise 0x0501 0
  .next ((List.range 8).foldl (fun s t => if s.trkRuns t then s.trkHalt t 5 else s) s)

/-- PLL_LOCKED (R189): in any mode but SUPERVISE and COLD. -/
def execPllLocked (s : State) : Out := .next (if s.mode = .supervise ∨ s.mode = .cold then s else s.put F.CAD_STS_pll_lock 1)

/-- The place of the levels of A and B in the order that X counts up (R195). -/
def quadPlace (ab : BitVec 2) : Nat :=
  match ab.toNat with
  | 0 => 0
  | 1 => 1
  | 3 => 2
  | _ => 3

/-- The direction check (R202): the first 64 edges in one direction after enable against exp_dir, once per enable. -/
def State.dirCheck (s : State) (n : Nat) (up : Bool) : State :=
  let x := s.cadSrc n
  if x.checked ∨ ! s.on (F.CAD_SRC_CTL_dir_chk n) then s
  else
    let run := if x.runUp = up then x.run + 1 else 1
    let s := s.setCadSrc n { x with run := run, runUp := up, checked := decide (64 ≤ run) }
    if 64 ≤ run ∧ up = s.on (F.CAD_SRC_CTL_exp_dir n) then (s.put (F.CAD_SRC_STS_dir_err n) 1).raise 0x0509 n else s

/-- An accepted edge or pulse: X moves by one period and is measured (R192, R194, R215). -/
def State.digitalEdge (s : State) (n : Nat) (up : Bool) (stamp : Nat) : State :=
  let up := up != s.on (F.CAD_SRC_CTL_dir_inv n)
  let s := s.setSrcX n (if up then s.srcX n + BitVec.ofNat 76 (2 ^ 44) else s.srcX n - BitVec.ofNat 76 (2 ^ 44))
  let s := s.dirCheck n up
  let x := s.cadSrc n
  let gap := stamp - x.stamp
  let s := if x.edges = 0 then s else s.putB (F.CAD_SRC_STS_low_speed n) (decide (400000 < gap))
  let s := s.setCadSrc n { x with stamp := stamp, interval := if x.edges = 0 then x.interval else gap, edges := x.edges + 1 }
  s.measured n stamp

/-- The quadrature input unit of source n has lost a pin to a higher claim: no edge comes from it (R440). -/
def State.qeiLost (s : State) (n : Nat) : Bool := s.pins.losing.getLsbD (8 + s.get (F.CAD_SRC_CTL_unit n))

/-- QUAD_EDGE (R195): new levels of A and B; both changed with one stamp is illegal, and the source is lost. -/
def execQuadEdge (n : Fin 4) (a b : Bool) (stamp : BitVec 64) (s : State) : Out :=
  if ! s.srcIs n 0 || s.qeiLost n then .next s
  else
    let x := s.cadSrc n
    let ab : BitVec 2 := BitVec.ofNat 2 ((if a then 1 else 0) + (if b then 2 else 0))
    let step := (quadPlace ab + 4 - quadPlace x.ab) % 4
    let t := s.setCadSrc n { x with ab := ab }
    match step with
    | 0 => .next s
    | 1 => .next (t.digitalEdge n true stamp.toNat)
    | 3 => .next (t.digitalEdge n false stamp.toNat)
    | _ =>
      let t := (t.put (F.CAD_SRC_STS_illegal n) 1).raise 0x050B n
      .next (if t.srcValid n then t.sourceLost n else t)

/-- PULSE_EDGE (R195). -/
def execPulseEdge (n : Fin 4) (stamp : BitVec 64) (s : State) : Out :=
  .next (if s.srcIs n 4 && ! s.qeiLost n then s.digitalEdge n true stamp.toNat else s)

/-- The change of X at a homing as a correction of every bound track (R196, R221). -/
def State.homeTracks (s : State) (n : Nat) (old : BitVec 76) : State :=
  (List.range 8).foldl (fun s t =>
    if s.get (F.CAD_TRK_CTL_src t) = n ∧ s.trkState t ≠ 0 then
      let o := (s.trkT t).obs
      (s.correct t (o.scaled (s.srcX n) - o.scaled old).toInt false).getD s
    else s) s

/-- INDEX_EDGE (R196): X[63:32] is recorded; the first edge after enable homes, a later one is checked against ZPER. -/
def execIndexEdge (n : Fin 4) (s : State) : Out :=
  if ! s.on (F.CAD_SRC_CTL_enable n) ∨ ! s.on (F.CAD_SRC_CTL_z_en n) ∨ ! s.srcDigital n ∨ s.qeiLost n then .next s
  else
    let old := s.srcX n
    let hi : BitVec 32 := old.extractLsb' 44 32
    let x := s.cadSrc n
    let s := s.wr (R.CAD_SRC_ZCAP n) hi
    if s.on (F.CAD_SRC_CTL_z_home n) ∧ ! s.on (F.CAD_SRC_STS_homed n) then
      let home := s.rd (R.CAD_SRC_ZHOME n)
      let s := s.setSrcX n (home ++ old.extractLsb' 0 44)
      let moved (m : BitVec 76 × Int) : BitVec 76 × Int := (m.1 + (s.srcX n - old), m.2)
      let y := s.cadSrc n
      let s := (s.put (F.CAD_SRC_STS_homed n) 1).setCadSrc n { y with zLast := some home, m0 := y.m0.map moved, m1 := y.m1.map moved }
      .next ((s.homeTracks n old).raise 0x0508 n)
    else
      let s := s.setCadSrc n { x with zLast := some hi }
      let per := s.get (F.CAD_SRC_ZPER_per n)
      match x.zLast with
      | none => .next s
      | some z =>
        let moved := (hi - z).toInt.natAbs
        let off := if per ≤ moved then moved - per else per - moved
        .next (if per ≠ 0 ∧ s.get (F.CAD_SRC_CTL_z_tol n) < off then (s.put (F.CAD_SRC_STS_z_err n) 1).raise 0x050A n else s)

/-- One step of the angle of a vector: the next binary digit of its angle in turns is whether it lies in the lower half plane, and squaring
the vector as a complex number doubles its angle. The vector is brought to 160 bits before each squaring. -/
def angleBits : Nat → Int → Int → Nat → Nat
  | 0, _, _, acc => acc
  | k + 1, x, y, acc =>
    let b : Nat := if y < 0 ∨ (y = 0 ∧ x < 0) then 1 else 0
    let d : Nat := Nat.log2 (max x.natAbs y.natAbs) - 160
    let x' := x / (2 ^ d : Nat)
    let y' := y / (2 ^ d : Nat)
    angleBits k (x' * x' - y' * y') (2 * x' * y') (2 * acc + b)

/-- The angle of a vector in 2^-32 turns, rounded to the nearest count (R5): 33 binary digits, the last one rounding. The vector is scaled
so that what the steps lose lies far below a count. -/
def vectorAngle (x y : Int) : BitVec 32 := BitVec.ofNat 32 ((angleBits 33 (x * 2 ^ 256) (y * 2 ^ 256) 0 + 1) / 2)

/-- The square root of 3 times 10^30. -/
def sqrt3e30 : Int := 1732050807568877293527446341505

/-- The angle of the space vector of v_ab and v_bc (R197): 0 at the positive-going zero crossing of v_a = (2 v_ab + v_bc) / 3, rising with
the phase order a, b, c (DEDUCED, log 121). -/
def mainsAngle (vab vbc : Int) : BitVec 32 := vectorAngle (-(sqrt3e30 * vbc)) ((2 * vab + vbc) * 10 ^ 30)

/-- A fraction measured by an analog source: X takes it, and the period count changes by one where it passes from the last quarter to the
first or back (R192). -/
def State.unwrapX (s : State) (n : Nat) (frac : BitVec 32) : State :=
  let x := s.srcX n
  let q : BitVec 32 := x.extractLsb' 12 32
  let hi : BitVec 32 := x.extractLsb' 44 32
  let hi := if 3 * 2 ^ 30 ≤ q.toNat ∧ frac.toNat < 2 ^ 30 then hi + 1 else if q.toNat < 2 ^ 30 ∧ 3 * 2 ^ 30 ≤ frac.toNat then hi - 1 else hi
  s.setSrcX n (hi ++ frac ++ (0 : BitVec 12))

/-- A vector with its squared amplitude (four ninths of the given sum for three-phase MAINS) and its angle, judged and measured (R197). -/
def State.vectorMeasure (s : State) (n num den : Nat) (frac : BitVec 32) (stamp : Nat) : State :=
  let lo := 256 * s.get (F.CAD_SRC_LOSS_lo n)
  let hi := 256 * s.get (F.CAD_SRC_LOSS_hi n)
  if num < lo * lo * den ∨ hi * hi * den < num then ((s.put (F.CAD_SRC_STS_amp_fault n) 1).raise 0x050C n).measureFailed n
  else
    let x := s.cadSrc n
    let jump := match x.frac with
      | none => 0
      | some f => (frac - f).toInt.natAbs
    let s := s.setCadSrc n { x with frac := some frac }
    if 2 ^ 30 ≤ jump then ((s.put (F.CAD_SRC_STS_unwrap n) 1).raise 0x050C n).measureFailed n
    else (s.unwrapX n frac).measured n stamp

/-- A converter code as the signed value that a phase source works with, in converter LSB (R197, R251). -/
def phaseLevel (code : BitVec 16) : Int := code.toNat - Config.phaseZero

/-- The level that converter a of source n delivers (R441), and that of converter b. -/
def State.levelA (s : State) (n : Nat) (code : BitVec 16) : Int :=
  phaseLevel (s.convCode (s.get (F.CAD_SRC_ANA_conv_a n)) (s.get (F.CAD_SRC_ANA_mux_a n)) code)
def State.levelB (s : State) (n : Nat) (code : BitVec 16) : Int :=
  phaseLevel (s.convCode (s.get (F.CAD_SRC_ANA_conv_b n)) (s.get (F.CAD_SRC_ANA_mux_b n)) code)

/-- ANALOG_MEASUREMENT (R197, R198): the results of conv_a (the sine) and conv_b (the cosine); `neg` says a negative peak of a RESOLVER's excitation. -/
def execAnalogMeasurement (n : Fin 4) (a b : BitVec 16) (neg : Bool) (stamp : BitVec 64) (s : State) : Out :=
  let u := s.levelA n a
  let v := s.levelB n b
  if s.srcIs n 1 then .next (s.vectorMeasure n (u * u + v * v).natAbs 1 (vectorAngle v u) stamp.toNat)
  else if s.srcIs n 2 then
    let u := if neg then -u else u
    let v := if neg then -v else v
    .next (s.vectorMeasure n (u * u + v * v).natAbs 1 (vectorAngle v u) stamp.toNat)
  else if s.srcIs n 3 ∧ s.on (F.CAD_SRC_ANA_b_en n) then
    .next (s.vectorMeasure n (4 * (u * u + u * v + v * v)).natAbs 9 (mainsAngle u v) stamp.toNat)
  else .next s

/-- The angle of a track's estimate at an instant (R199, R204). -/
def State.angleAt (s : State) (t : Nat) (at_ : Int) : BitVec 32 :=
  let o := (s.trkT t).obs
  ((o.theta - BitVec.ofInt 113 (o.omega * (s.updates * 32 - at_)) + BitVec.ofNat 113 (2 ^ 48)) >>> 49).setWidth 32

/-- A fraction 0 or 1/2 measured at a zero crossing of mains, which runs forward: from the second half of a period to its end a period is
complete (R192). -/
def State.crossX (s : State) (n : Nat) (rising : Bool) : State :=
  let x := s.srcX n
  let hi : BitVec 32 := x.extractLsb' 44 32
  let half := x.getLsbD 43
  s.setSrcX n ((if rising && half then hi + 1 else hi) ++ (if rising then (0 : BitVec 44) else BitVec.ofNat 44 (2 ^ 43)))

/-- A sample of single-phase mains before a bound track has left ACQUIRE (R199): where v passes 0 since the last sample, the instant is
interpolated, and X is measured there at angle 0 (rising) or half a period (falling). -/
def State.zeroCross (s : State) (n : Nat) (v at_ : Int) : State :=
  match (s.cadSrc n).sample with
  | none => s
  | some (u, at0) =>
    let cross : Int := at0 + (at_ - at0) * u.natAbs / (max 1 (u.natAbs + v.natAbs) : Nat)
    if u < 0 ∧ 0 ≤ v then (s.crossX n true).measured n cross.toNat
    else if 0 ≤ u ∧ v < 0 then (s.crossX n false).measured n cross.toNat
    else s

/-- A sample that neither fails nor passes is a measurement that counts neither way (R199, Table 07.1; DEDUCED, log entry 123). -/
def State.sampleExempt (s : State) (n : Nat) (frac : BitVec 32) (stamp : Nat) : State :=
  let c := s.cadSrc n
  let t := (s.unwrapX n frac).measured n stamp
  t.setCadSrc n { t.cadSrc n with good := c.good, bad := c.bad }

/-- MAINS_SINGLE_SAMPLE (R199): the sample against the value that a bound track predicts at its instant, the lowest-numbered track that has
left ACQUIRE (DESIGN CHOICE, log 122); a small prediction decides nothing. -/
def execMainsSingleSample (n : Fin 4) (code : BitVec 16) (stamp : BitVec 64) (s : State) : Out :=
  if ! s.srcIs n 3 ∨ s.on (F.CAD_SRC_ANA_b_en n) then .next s
  else
    let v := s.levelA n code
    let t := ((List.range 8).find? (fun t => s.get (F.CAD_TRK_CTL_src t) = n.val ∧ 2 ≤ s.trkState t)).getD 8
    let keep (s : State) : State := s.setCadSrc n { s.cadSrc n with sample := some (v, stamp.toNat) }
    let lim := 256 * s.get (F.CAD_SRC_LOSS_hi n)
    let angle := s.angleAt t stamp.toNat
    let pred := Config.mainsPredicted n angle
    if t = 8 then .next (keep (s.zeroCross n v stamp.toNat))
    else if pred.natAbs < lim then .next (keep (s.sampleExempt n (Config.mainsFraction v angle) stamp.toNat))
    else if lim < (v - pred).natAbs then .next (keep (s.measureFailed n))
    else .next (keep ((s.unwrapX n (Config.mainsFraction v angle)).measured n stamp.toNat))

/-- ANALOG_SOURCE_TRIGGER (R193, R198): the source triggers its converters. -/
def execAnalogSourceTrigger (n : Fin 4) (s : State) : Out :=
  if ! s.on (F.CAD_SRC_CTL_enable n) then .next s
  else
    let muxes := [s.get (F.CAD_SRC_ANA_mux_a n), s.get (F.CAD_SRC_ANA_mux_b n)]
    .next (((s.srcConvs n).zip muxes).foldl (fun s p => s.adcTrigger p.1 (BitVec.ofNat 2 p.2) none) s)

/-- The interval between measurements of a vector source is at most loss_win (Table 07.5): (rate_div + 1) x 200 ns, or half a period of the
excitation of a RESOLVER. -/
def State.lossInTime (s : State) (n : Nat) : Bool :=
  let win := clamp 1 100 (s.get (F.CAD_SRC_LOSS_loss_win n))
  if s.get (F.CAD_SRC_CTL_type n) = 2 then decide (1000000 ≤ 2 * win * clamp 2000 20000 (s.get (F.CAD_SRC_EXC_f_ex n)))
  else decide ((s.get (F.CAD_SRC_ANA_rate_div n) + 1) * 200 ≤ win * 1000)

/-- SOURCE_LOST (R215): the deadline or the window has passed. Not in the low-speed region of a digital source, not while an analog
source's last measurement was good nor where its measurements come too rarely for loss_win, never for FREE. -/
def execSourceLost (n : Fin 4) (s : State) : Out :=
  let ty := s.get (F.CAD_SRC_CTL_type n)
  if ! s.srcValid n ∨ ty = 6 then .next s
  else if s.srcDigital n ∧ (s.on (F.CAD_SRC_STS_low_speed n) ∨ (s.cadSrc n).edges < 2) then .next s
  else if (ty = 1 ∨ ty = 2 ∨ ty = 3) ∧ (s.cadSrc n).bad = 0 then .next s
  else if (ty = 1 ∨ ty = 2 ∨ (ty = 3 ∧ s.on (F.CAD_SRC_ANA_b_en n))) ∧ ! s.lossInTime n then .next s
  else .next (s.sourceLost n)

/-- SOURCE_RETURN (R219): 16 good measurements in a row, one edge for a digital source; a coasting track whose shadow has acquired
returns at once, another when it acquires. -/
def execSourceReturn (n : Fin 4) (s : State) : Out :=
  let need := if s.srcDigital n then 1 else 16
  if s.srcValid n ∨ ! s.on (F.CAD_SRC_CTL_enable n) ∨ (s.cadSrc n).good < need then .next s
  else
    let s := s.setValid n true
    .next ((List.range 8).foldl (fun s t => if s.trkState t = 3 ∧ (s.trkT t).isReturn then s.switchAcquired t else s) s)

/-- SOURCE_ENABLE (R191, R193, R211, R229): a write of CAD_SRCn_CTL with enable = 1. -/
def execSourceEnable (n : Fin 4) (v : BitVec 32) (s : State) : Out :=
  .next (s.bar (R.CAD_SRC_CTL n) (some (v ||| 1)) (s.srcCtlWrite n (v ||| 1)))

/-- SOURCE_DISABLE (R211). -/
def execSourceDisable (n : Fin 4) (s : State) : Out :=
  .next (s.bar (R.CAD_SRC_CTL n) (some (s.rd (R.CAD_SRC_CTL n) &&& 0xFFFFFFFE)) (s.srcStop n))

/-- TRACK_ENABLE (R211, R213): a write of CAD_TRKn_CTL with enable = 1. -/
def execTrackEnable (t : Fin 8) (v : BitVec 32) (s : State) : Out :=
  .next (s.bar (R.CAD_TRK_CTL t) (some (v ||| 1)) (s.trkCtlWrite t (v ||| 1)))

/-- TRACK_DISABLE (R213). -/
def execTrackDisable (t : Fin 8) (s : State) : Out :=
  .next (s.bar (R.CAD_TRK_CTL t) (some (s.rd (R.CAD_TRK_CTL t) &&& 0xFFFFFFFE)) ((s.put (F.CAD_TRK_CTL_enable t) 0).trkOff t))

/-- TRACK_HALT (R213). -/
def execTrackHalt (t : Fin 8) (s : State) : Out :=
  .next (s.bar (R.CAD_TRK_CTL t) (some (s.rd (R.CAD_TRK_CTL t) ||| (F.CAD_TRK_CTL_halt t).mask)) (s.trkHaltReq t))

/-- HALT_ALL (R213). -/
def execHaltAll (s : State) : Out :=
  .next (s.bar R.CAD_CTL (some F.CAD_CTL_halt_all.mask) ((List.range 8).foldl (fun s t => s.trkHaltReq t) s))

/-- TRACK_REARM (R220). -/
def execTrackRearm (t : Fin 8) (s : State) : Out :=
  .next (s.bar (R.CAD_TRK_CTL t) (some (s.rd (R.CAD_TRK_CTL t) ||| (F.CAD_TRK_CTL_rearm t).mask)) (s.trkRearm t))

/-- TRACK_ADJUST (R222). -/
def execTrackAdjust (t : Fin 8) (a : BitVec 32) (s : State) : Out :=
  .next (s.bar (R.CAD_TRK_ADJ t) (some a) (s.trkAdjust t a))

/-- TRACK_SWITCH_GO (R223, R224): a write of CAD_TRKn_SW with go = 1. -/
def execTrackSwitchGo (t : Fin 8) (v : BitVec 32) (s : State) : Out :=
  .next (s.bar (R.CAD_TRK_SW t) (some (v ||| 8)) (s.trkSwWrite t (v ||| 8)))

/-- SWITCH_ACQUIRED (R219, R223): step 3, once the shadow meets the acquire criterion. -/
def execSwitchAcquired (t : Fin 8) (s : State) : Out := .next (s.switchAcquired t)

/-- SWITCH_ABORT (R225): step 2 has exceeded its timeout. -/
def execSwitchAbort (t : Fin 8) (s : State) : Out :=
  let x := s.trkT t
  .next (if x.shadow.isSome ∧ ! x.isReturn ∧ max 1 (s.get (F.CAD_TRK_SW_timeout t)) * 250000 ≤ x.swUpd then s.switchAbort t else s)

/-- SLEW_COMPLETE (R223): the remainder is 0; a switch reads done and event 0x0505 is raised. -/
def execSlewComplete (t : Fin 8) (s : State) : Out :=
  let x := s.trkT t
  if ! x.slewDone ∨ x.rem ≠ 0 then .next s
  else
    let s := s.setTrk t { x with slewDone := false }
    let s := if s.on (F.CAD_TRK_SW_busy t) ∧ ! s.on (F.CAD_TRK_STS_switching t) then (s.put (F.CAD_TRK_SW_busy t) 0).put (F.CAD_TRK_SW_result t) 1 else s
    .next (s.raise 0x0505 t)

end Sys2Proof.Machine
end

