-- ==== Sys2Proof/Machine/Cells.lean ====
section
/-! DEFINITION. The commands of the cells, the stages, the isolation cells and the freeze (chapters 02 to 04). -/

namespace Sys2Proof.Machine

/-- The compare taps of a start take its token into their side buffers where there is room for it (R152, R422). -/
def State.tapsTake (s : State) (t : Tile) (st : Nat) : State :=
  (List.range 64).foldl (fun s j =>
    let q := SMap.get (fun _ => []) s.fab.side (t.n * 64 + j)
    if (s.tapsOn t st).contains (.tap t.n j) ∧ q.length < 64 then
      match s.seen (.tap t.n j) with
      | none => s
      | some v =>
        ({ s with fab := { s.fab with side := SMap.set (fun _ => []) s.fab.side (t.n * 64 + j) (q ++ [v]) } }).ackDst (.tap t.n j)
    else s) s

/-- The starts that the taps of a pair of regions watch. -/
def State.pairStages (s : State) (k : Nat) : List (Tile × Nat) :=
  [2 * k, 2 * k + 1].flatMap (fun n => (List.range 64).filterMap (s.compareStage n))

/-- The comparison of a pair begins: its taps take the tokens with which their stages start (R422, R423). -/
def State.tapsBegin (s : State) (k : Nat) : State := (s.pairStages k).foldl (fun s p => s.tapsTake p.1 p.2) s

/-- The comparison of a pair has ended: a token that only a full side withheld leaves its stage (R423). -/
def State.tapsFree (s : State) (k : Nat) : State := (s.pairStages k).foldl (fun s p => s.rejoin (.seg p.1 p.2)) s

/-- A digit captured with extra data wires high: the lowest high wire counts, and the violation is counted and reported (R60). -/
def violated (v : Nat) (extra : BitVec 4) : Nat := lowestBit (2 ^ v ||| extra.toNat) 4

def State.codeError (s : State) (n v : Nat) (extra : BitVec 4) : State :=
  if 2 ^ v ||| extra.toNat = 2 ^ v then s else (s.sat (F.REGION_CODE_ERR_count n)).raise 0x0341 n

/-- A cell whose stage holds a bubble and feeds bubbles consumes its inputs and holds its output token (R40, R70). -/
def State.cellTake (s : State) (t : Tile) (i : Nat) (extra : BitVec 4) : State :=
  let x : Src := .cell t i
  if ! s.fabOn t.n ∨ ! s.holdEn t i ∨ (s.node x).tok.isSome then s
  else match s.fireNow t i with
    | none => s
    | some r =>
      if ! s.roomAhead x r.branch then s
      else
        let arb := s.cellMode t i == .arbMerge
        let s := s.capture x (violated r.val extra) r.chain r.branch
        let s := r.ports.foldl (fun s p => s.ackDst (.port t i p)) s
        let s := if arb then s.release t i else s
        s.codeError t.n r.val extra

/-- The step of a cell in one mode; a cell in another mode or without its stage does nothing of its own (R69, R70). -/
def State.cellStep (s : State) (t : Tile) (i : Nat) (m : CellMode) : State := if s.cellMode t i = m then s.cellTake t i 0 else s

/-- A slack stage that holds a bubble and feeds bubbles takes the token of its input (R40, R83). -/
def State.slackTake (s : State) (x : Src) (extra : BitVec 4) : State :=
  let n := x.key / 2 ^ 32
  if ! s.fabOn n ∨ (s.stageInit x).isNone ∨ (s.node x).tok.isSome then s
  else match s.seen (.elem x) with
    | none => s
    | some v =>
      if ! s.roomAhead x none then s
      else
        let s := s.capture x (violated v extra) 0 none
        let s := s.ackDst (.elem x)
        let s := s.codeError n v extra
        match x with
        | .seg t st => s.tapsTake t st
        | _ => s

/-- HOLD_STAGE_TOKEN_MOVE (R40): one token moves into a stage of a tile; `extra` are data wires that an upset holds high at the
capture (R60). -/
def execHoldStageTokenMove (n : Fin 16) (c : Fin 64) (r : Fin 72) (x : Fin 128) (extra : BitVec 4) (s : State) : Out :=
  let t : Tile := ⟨n, c, r⟩
  .next (if x.val < 32 then s.cellTake t x extra else s.slackTake (elemOf t x) extra)

/-- MUTEX_GRANT (R56, R58): one grant of mutex k becomes visible; of two pending requests the one that R58 puts next, else `pickB`. -/
def execMutexGrant (n : Fin 16) (c : Fin 64) (r : Fin 72) (k : Fin 4) (pickB : Bool) (s : State) : Out :=
  let t : Tile := ⟨n, c, r⟩
  match s.mutexCell t k with
  | none => .next s
  | some i =>
    let nd := s.node (.cell t i)
    let req (p : Nat) : Bool := s.cellF t i (40 + p) 1 == 1 && (s.portVal (s.offer fabricFuel) t i p).isSome
    if s.cellMode t i ≠ .arbMerge ∨ ! s.fabOn t.n ∨ nd.grant.isSome ∨ (! req 0 ∧ ! req 1) then .next s
    else
      let g := if req 0 && req 1 then nd.turn.getD pickB else req 1
      .next (s.setNode (.cell t i) { nd with grant := some g, turn := none })

/-- FUNCTION (R70). -/
def execFunction (n : Fin 16) (c : Fin 64) (r : Fin 72) (i : Fin 32) (s : State) : Out := .next (s.cellStep ⟨n, c, r⟩ i .function)

/-- FUNCTION5 (R71, R72). -/
def execFunction5 (n : Fin 16) (c : Fin 64) (r : Fin 72) (i : Fin 32) (s : State) : Out := .next (s.cellStep ⟨n, c, r⟩ i .function5)

/-- FORK (R70, R81). -/
def execFork (n : Fin 16) (c : Fin 64) (r : Fin 72) (i : Fin 32) (s : State) : Out := .next (s.cellStep ⟨n, c, r⟩ i .fork)

/-- JOIN (R70). -/
def execJoin (n : Fin 16) (c : Fin 64) (r : Fin 72) (i : Fin 32) (s : State) : Out := .next (s.cellStep ⟨n, c, r⟩ i .join)

/-- SPLIT (R73). -/
def execSplit (n : Fin 16) (c : Fin 64) (r : Fin 72) (i : Fin 32) (s : State) : Out := .next (s.cellStep ⟨n, c, r⟩ i .split)

/-- SELECT_MERGE (R74). -/
def execSelectMerge (n : Fin 16) (c : Fin 64) (r : Fin 72) (i : Fin 32) (s : State) : Out := .next (s.cellStep ⟨n, c, r⟩ i .selectMerge)

/-- ARB_MERGE (R58, R74): the granted token passes and the grant is released. -/
def execArbMerge (n : Fin 16) (c : Fin 64) (r : Fin 72) (i : Fin 32) (s : State) : Out := .next (s.cellStep ⟨n, c, r⟩ i .arbMerge)

/-- MUX (R78, R79): the step of a MUX cell with a stage; the cells before it without one are consumed with it. -/
def execMux (n : Fin 16) (c : Fin 64) (r : Fin 72) (i : Fin 32) (s : State) : Out := .next (s.cellStep ⟨n, c, r⟩ i .mux)

/-- A SOURCE or CONST cell offers const_val while it is idle; with its stage it keeps R40. -/
def State.constOffer (s : State) (t : Tile) (i left : Nat) : State :=
  let x : Src := .cell t i
  let nd := s.node x
  if ! s.fabOn t.n ∨ nd.tok.isSome ∨ (s.holdEn t i ∧ ! s.roomAhead x none) then s
  else s.setNode x { nd with tok := some (BitVec.ofNat 2 (s.cellF t i 61 2)), acked := [], left := left }

/-- SOURCE (R75). -/
def execSource (n : Fin 16) (c : Fin 64) (r : Fin 72) (i : Fin 32) (s : State) : Out :=
  let t : Tile := ⟨n, c, r⟩
  let left := (s.node (.cell t i)).left
  .next (if s.cellMode t i = .source ∧ left ≠ 0 then s.constOffer t i (left - 1) else s)

/-- SINK (R76): a token on an enabled port (0 A, 1 B) is acknowledged and discarded. -/
def execSink (n : Fin 16) (c : Fin 64) (r : Fin 72) (i : Fin 32) (p : Fin 2) (s : State) : Out :=
  let t : Tile := ⟨n, c, r⟩
  let d : Dst := .port t i p
  .next (if s.cellMode t i = .sink ∧ s.fabOn t.n ∧ ! s.waits d ∧ (s.seen d).isSome then s.ackDst d else s)

/-- CONST (R76). -/
def execConst (n : Fin 16) (c : Fin 64) (r : Fin 72) (i : Fin 32) (s : State) : Out :=
  let t : Tile := ⟨n, c, r⟩
  .next (if s.cellMode t i = .const then s.constOffer t i 0 else s)

/-! ## Isolation cells (R111, R115) -/

/-- The cells of region n on edge e act with their behaviour: the neighbour is cut and n is not. -/
def State.isoActive (s : State) (n e : Nat) : Bool := ! s.cut n && bitOf (s.get (F.REGION_ISO_STS_nbr_iso n)) e

/-- The behaviour of an isolation cell that acts: its code, or HOLD for every boundary channel of a region that HOLD has frozen (R27). -/
def State.isoBehaviour (s : State) (n e i : Nat) : Nat := if s.on (F.REGION_FREEZE_hold_freeze n) then 0 else s.isoF n e i 0 2

/-- ISO_ABSORB (R111): a leaving cell in ABSORB acknowledges and discards a token. -/
def execIsoAbsorb (n : Fin 16) (e : Fin 4) (i : Fin 1152) (s : State) : Out :=
  let d : Dst := .iso n e i
  .next (if s.isoActive n e ∧ s.isoBehaviour n e i = 1 ∧ (s.seen d).isSome then (s.ackDst d).isoCount n e i else s)

/-- ISO_DEFAULT_SUPPLY (R111): an entering cell in DEFAULT offers default_val while it is idle. The token counts when it
is acknowledged (R115). -/
def execIsoDefaultSupply (n : Fin 16) (e : Fin 4) (i : Fin 1152) (s : State) : Out :=
  let x : Src := .iso n e i
  .next (if s.isoActive n e ∧ i.val / 8 % 2 = 1 ∧ s.isoBehaviour n e i = 2 ∧ ! s.fab.setReset.getLsbD n ∧ (s.node x).tok.isNone then
    s.setNode x { tok := some (BitVec.ofNat 2 (s.isoF n e i 2 2)) }
  else s)

/-! ## Freeze (R49, R50, R64) -/

/-- What REGION_WDG_STSk shows: tapped and held follow configuration and state (R64, R120), elapsed the count up to the limit (R61). DESIGN
CHOICE (log entry 108): held reads 0 for a watchdog that is not enabled, whatever its region does. -/
def State.wdgShow (s : State) (n k : Nat) : State :=
  let s := (s.putB (F.REGION_WDG_STS_tapped n k) (s.tapStage n k).isSome).putB (F.REGION_WDG_STS_held n k)
    (s.wdgHeld n && s.on (F.REGION_WDG_CTL_enable n k))
  s.put (F.REGION_WDG_STS_elapsed n k) (min (s.wdgLimit n k) (s.wdgCount (s.wdgAt n k)))

/-- The watchdogs of a region start or stop to count as its state tells them; their registers follow. -/
def State.wdgSync (s : State) (n : Nat) : State :=
  (List.range 32).foldl (fun s k => (s.wdgTurn n k (s.wdgAt n k)).wdgShow n k) s

/-- The clocks of the Groomer domains have stopped or returned: counts are held, and a handshake that waited for a clock restarts its count
(R152, R183). -/
def State.wdgClock (s : State) : State :=
  (List.range 16).foldl (fun s n => ((List.range 32).foldl (fun s k => if (s.wdgAt n k).pulse then s.wdgRestart n k else s) s).wdgSync n) s

/-- The regions that a write of the freeze bit of a region acts on: both of a lockstep pair that runs (R50). -/
def State.freezeSet (s : State) (n : Nat) : List Nat :=
  if s.on (F.FLT_LS_STS_comparing (n / 2)) then [n / 2 * 2, n / 2 * 2 + 1] else [n]

/-- The Spoke units of a region send nothing to the Derailleur for 1 ms after a release (R248). -/
def State.spokesQuiet (s : State) (n : Nat) : State :=
  (unitsOf n).foldl (fun s u => s.setSpk u { s.spkU u with quietUntil := s.time + 1000 }) s

/-- The freeze bit written. -/
def State.freeze (s : State) (n : Nat) (v : Bool) : State :=
  (s.freezeSet n).foldl (fun s m =>
    let s := if s.on (F.REGION_FREEZE_freeze m) && ! v then s.spokesQuiet m else s
    let s := s.putB (F.REGION_FREEZE_freeze m) v
    let s := if v || s.on (F.REGION_FREEZE_hold_freeze m) then s else s.put (F.REGION_FREEZE_settled m) 0
    s.wdgSync m) s

/-- The region is isolated or in the set of a region load, so that writes of its freeze bit are discarded (Tables 10.4 and 10.6). -/
def State.freezeShut (s : State) (n : Nat) : Bool :=
  [2, 3, 4, 5].contains (s.get (F.REGION_PR_STS_state n)) || s.ldr.regionLoad.any (fun l => l.set.getLsbD n)

/-- A write of the freeze bit of a region. -/
def State.freezeWrite (s : State) (n : Nat) (v : Bool) : State := if s.freezeShut n then s else s.freeze n v

/-- REGION_FREEZE_SET (R49). -/
def execRegionFreezeSet (n : Fin 16) (s : State) : Out := .next (s.freezeWrite n true)

/-- REGION_FREEZE_SETTLED (R49): not while a migration of the region has yet to release its column. -/
def execRegionFreezeSettled (n : Fin 16) (s : State) : Out :=
  .next (if (s.on (F.REGION_FREEZE_freeze n) ∨ s.on (F.REGION_FREEZE_hold_freeze n)) ∧ ! s.on (F.REGION_COLMAP_moving n) then
    s.put (F.REGION_FREEZE_settled n) 1 else s)

/-- REGION_FREEZE_CLEAR (R50): a region frozen by HOLD is not released. -/
def execRegionFreezeClear (n : Fin 16) (s : State) : Out := .next (s.freezeWrite n false)

/-- A write of REGION_WDG_CTLk (R61, R65): an untapped watchdog is not enabled; one that is enabled counts from 0. DESIGN CHOICE (log entry
107): of a write with enable = 1 to an untapped watchdog only the enable bit is discarded, and limit, arm_first and reaction take their
values. -/
def State.wdgWrite (s : State) (n k : Nat) (v : BitVec 32) : State :=
  let tapped := (s.tapStage n k).isSome
  let was := s.on (F.REGION_WDG_CTL_enable n k)
  let en := v.getLsbD 31 && tapped
  let s := ((s.put (F.REGION_WDG_CTL_limit n k) v.toNat).putB (F.REGION_WDG_CTL_arm_first n k) (v.getLsbD 28)).putB
    (F.REGION_WDG_CTL_reaction n k) (v.getLsbD 29)
  let s := s.putB (F.REGION_WDG_CTL_enable n k) en
  let s := if en && ! was then s.setWdg n k {} else s
  s.wdgSync n

/-- WATCHDOG_ENABLE (R65): the write of REGION_WDG_CTLk. -/
def execWatchdogEnable (n : Fin 16) (k : Fin 32) (v : BitVec 32) (s : State) : Out := .next (s.wdgWrite n k v)

end Sys2Proof.Machine
end

