-- ==== Sys2Proof/Machine/Hard.lean ====
section
/-! DEFINITION. Sprocket slices and Firn blocks (chapter 05). -/

namespace Sys2Proof.Machine

/-! ## Sprocket -/

/-- The key of a slice. -/
def sliceKey (n c sl : Nat) : Nat := (n * 4 + c) * 64 + sl

/-- The state of a slice: what its last token left, or its state at set-reset (R131). -/
def State.slice (s : State) (n c sl : Nat) : SliceSt :=
  match SMap.get (fun _ => none) s.fab.slices (sliceKey n c sl) with
  | some x => x
  | none => { acc := BitVec.ofNat 64 (s.sliceF n c sl 256 64), uPrev := BitVec.ofNat 27 (s.sliceF n c sl 320 27) }

def State.setSlice (s : State) (n c sl : Nat) (x : SliceSt) : State :=
  { s with fab := { s.fab with slices := SMap.set (fun _ => none) s.fab.slices (sliceKey n c sl) (some x) } }

/-- A number of w bits read as signed or unsigned. -/
def signedIf (signed : Bool) (w v : Nat) : Int := if signed && decide (2 ^ (w - 1) ≤ v) then (v : Int) - (2 ^ w : Nat) else v

/-- An exact sum brought into 64 bits: saturated or wrapped (R128). -/
def acc64 (satur : Bool) (x : Int) : BitVec 64 :=
  if satur then BitVec.ofInt 64 (if x < -(2 ^ 63) then -(2 ^ 63) else if 2 ^ 63 - 1 < x then 2 ^ 63 - 1 else x) else BitVec.ofInt 64 x

/-- The value of the window before the range test (R129). -/
def rounded (mode s : Nat) (acc : Int) : Int :=
  if s = 0 then acc
  else
    let t := acc / 2 ^ s
    let up := (acc + 2 ^ (s - 1)) / 2 ^ s
    match mode with
    | 1 => up
    | 2 => if acc % 2 ^ s = 2 ^ (s - 1) ∧ up % 2 = 1 then up - 1 else up
    | _ => t

/-- Q and the overflow of its window (R129): W bits, signed or not, saturated or cut. -/
def window (signed satur : Bool) (w : Nat) (v : Int) : Nat × Bool :=
  let lo : Int := if signed then -(2 ^ (w - 1)) else 0
  let hi : Int := if signed then 2 ^ (w - 1) - 1 else 2 ^ w - 1
  let past := decide (v < lo) || decide (hi < v)
  let x := if satur && decide (v < lo) then lo else if satur && decide (hi < v) then hi else v
  (enc2 w x, past)

/-- The inputs of a slice for one token: U or UCI, V, K, OP, SCI (Table 05.1); none while one it consumes is not valid. -/
structure MacIn where
  u : Nat
  v : Nat := 0
  k : Nat
  op : Nat := 0
  sci : BitVec 64 := 0
  deriving DecidableEq, Repr

def State.macIn (s : State) (n c sl : Nat) : Option MacIn :=
  let f (lo w : Nat) : Nat := s.sliceF n c sl lo w
  let prev : Option SliceSt := if sl = 0 then none else some (s.slice n c (sl - 1))
  let u : Option Nat := if f 3 1 = 1 then (prev.bind SliceSt.uco).map BitVec.toNat else (s.inValue (.slice n c sl 0) 14).map (· % 2 ^ 27)
  let v : Option Nat := if f 4 1 = 1 then (s.inValue (.slice n c sl 1) 14).map (· % 2 ^ 27) else some 0
  let k : Option Nat := if f 6 1 = 1 then some (f 96 24) else s.inValue (.slice n c sl 2) 12
  let op : Option Nat := if f 7 1 = 1 then s.inValue (.slice n c sl 3) 1 else some 0
  let sci : Option (BitVec 64) := if 2 ≤ f 8 2 then prev.bind SliceSt.sco else some 0
  match u, v, k, op, sci with
  | some u, some v, some k, some op, some sci => some ⟨u, v, k, op, sci⟩
  | _, _, _, _, _ => none

/-- The slice after one token and its Q and QF (R128, R129). -/
def State.macOut (s : State) (n c sl : Nat) (a : MacIn) : SliceSt × Nat × Nat :=
  let f (lo w : Nat) : Nat := s.sliceF n c sl lo w
  let x := s.slice n c sl
  let us := f 1 1 == 1
  let u := signedIf us 27 a.u
  let v := signedIf us 27 a.v
  let exact := if f 5 1 = 1 then v - u else v + u
  let pre := if f 4 1 = 1 then signedIf us 27 (enc2 27 exact) else u
  let preOvf := x.preOvf || (f 4 1 == 1 && pre != exact)
  let k := signedIf (f 2 1 == 1) 24 a.k
  let m := pre * k
  let acc : Int := x.acc.toInt
  let base : Int := if a.op % 2 = 1 then 0 else match f 8 2 with
    | 0 => 0
    | 1 => acc
    | 2 => a.sci.toInt
    | _ => (a.sci + x.acc).toInt
  let neg := (f 10 1 + a.op / 2) % 2 = 1
  let sum := if neg then base - m else base + m
  let acc' := acc64 (f 11 1 == 1) sum
  let st : SliceSt := { x with
    acc := acc'
    uPrev := BitVec.ofNat 27 a.u
    preOvf := preOvf
    accOvf := x.accOvf || acc'.toInt != sum
    sco := if f 12 1 = 1 then some acc' else none
    uco := if f 13 1 = 1 then some x.uPrev else none }
  let w := 2 * (f 18 5 + 1)
  let q := window (f 14 1 == 1) (f 17 1 == 1) w (rounded (f 15 2) (f 23 6) acc'.toInt)
  let ign : BitVec 64 := BitVec.ofNat 64 (f 192 64)
  let hit := (acc' &&& ~~~ ign) == (BitVec.ofNat 64 (f 128 64) &&& ~~~ ign)
  (st, q.1, (if hit then 1 else 0) + (if q.2 then 2 else 0))

/-- The outputs of a slice are free: its offered channels and its cascade outputs hold no token. -/
def State.macFree (s : State) (n c sl : Nat) : Bool :=
  let x := s.slice n c sl
  s.chanFree (.slice n c sl 4) && s.chanFree (.slice n c sl 5) && x.sco.isNone && x.uco.isNone

/-- The slice may take a token: in use, calibrated, its region on, and past the WEN phase where it holds state (R131 to R133). -/
def State.macReady (s : State) (n c sl : Nat) : Bool :=
  s.fabOn n && s.sliceF n c sl 0 1 == 1 && (s.slice n c sl).cal && ! (s.slice n c sl).stopped &&
    (s.fab.wen.getLsbD n || (s.sliceF n c sl 8 2 == 0 && s.sliceF n c sl 13 1 == 0)) && s.macFree n c sl

/-- The inputs of a token acknowledged, the cascade outputs of the slice before it taken. -/
def State.macAck (s : State) (n c sl : Nat) : State :=
  let f (lo w : Nat) : Nat := s.sliceF n c sl lo w
  let s := if f 3 1 = 1 then s.setSlice n c (sl - 1) { s.slice n c (sl - 1) with uco := none } else s.ackIn (.slice n c sl 0) 14
  let s := if f 4 1 = 1 then s.ackIn (.slice n c sl 1) 14 else s
  let s := if f 6 1 = 1 then s else s.ackIn (.slice n c sl 2) 12
  let s := if f 7 1 = 1 then s.ackIn (.slice n c sl 3) 1 else s
  if 2 ≤ f 8 2 then s.setSlice n c (sl - 1) { s.slice n c (sl - 1) with sco := none } else s

/-- SPROCKET_MAC (R127 to R131). -/
def execSprocketMac (n : Fin 16) (c : Fin 4) (sl : Fin 60) (s : State) : Out :=
  if ! s.macReady n c sl then .next s
  else match s.macIn n c sl with
    | none => .next s
    | some a =>
      let r := s.macOut n c sl a
      let t := (s.macAck n c sl).setSlice n c sl r.1
      let t := if baseSelects (s.chanBase (.slice n c sl 4)) then t.offerOut (.slice n c sl 4) (digitsOf (s.chanDigits (.slice n c sl 4)) r.2.1) else t
      .next (if baseSelects (s.chanBase (.slice n c sl 5)) then t.offerOut (.slice n c sl 5) [r.2.2] else t)

/-- The physical slice and block of a logical one (R143). -/
def State.physSlice (s : State) (n c sl : Nat) : Nat :=
  16 * (sl / 15) + (if sl % 15 < s.get (F.REGION_SPR_MAP_gap n c (sl / 15)) then sl % 15 else sl % 15 + 1)
def State.physBlock (s : State) (n f b : Nat) : Nat :=
  19 * (b / 18) + (if b % 18 < s.get (F.REGION_FIRN_MAP_gap n f (b / 18)) then b % 18 else b % 18 + 1)

/-- SPROCKET_CALIBRATE (R132, R133): the calibration holds its margin, or the slice stops and reports itself to Moraine. DESIGN CHOICE (log
entry 116): a slice with en = 0 does not calibrate. -/
def execSprocketCalibrate (n : Fin 16) (c : Fin 4) (sl : Fin 60) (holds : Bool) (s : State) : Out :=
  let x := s.slice n c sl
  if s.fab.setReset.getLsbD n ∨ s.sliceF n c sl 0 1 = 0 ∨ x.stopped then .next s
  else if holds then .next (s.setSlice n c sl { x with cal := true })
  else
    let s := s.setSlice n c sl { x with cal := false, stopped := true }
    let s := s.sat (F.REGION_SPR_STS_count n)
    let s := if s.on (F.REGION_SPR_STS_valid n) then s else
      ((s.put (F.REGION_SPR_STS_slice n) sl).put (F.REGION_SPR_STS_column n) c).put (F.REGION_SPR_STS_valid n) 1
    .next ((s.raiseFree 0x0352).morReport 2 n (c * 256 + s.physSlice n c sl) 0x0352)

/-! ## Firn -/

/-- The width and the words in a row of a Firn shape (Table 05.2). -/
def firnWidth (shape : Nat) (ecc : Bool) : Nat :=
  match shape with
  | 0 => 9
  | 1 => 18
  | 2 => 36
  | _ => if ecc then 64 else 72

/-- The words of a row: 2 to this power. -/
def firnShift (shape : Nat) : Nat := 3 - shape

/-- The block is an ECC block (R139). -/
def State.firnEcc (s : State) (n f b : Nat) : Bool := s.firnF n f b 0 2 == 3 && s.firnF n f b 2 1 == 1

/-- A row of a block (R149). -/
def State.firnRow (s : State) (n f b row : Nat) : BitVec 72 :=
  BitVec.ofNat 72 (s.vget n (0x44 + 4 * f + b / 18) (36864 * (b % 18) + 72 * row) 72)

def State.setFirnRow (s : State) (n f b row : Nat) (v : BitVec 72) : State :=
  s.vset n (0x44 + 4 * f + b / 18) (36864 * (b % 18) + 72 * row) 72 v.toNat

/-- The codeword positions of the data bits: 1 to 71 without the powers of two (R139). -/
def eccPos : List Nat := (List.range 72).filter (fun p => ! [0, 1, 2, 4, 8, 16, 32, 64].contains p)

/-- The parity of the bits of a list. -/
def parity (bs : List Bool) : Bool := bs.foldl xor false

/-- Check bit k of 64 data bits, k = 0 to 6 (R139). -/
def eccCheck (data : BitVec 64) (k : Nat) : Bool :=
  parity ((eccPos.zipIdx).filterMap (fun p => if bitOf p.1 k then some (data.getLsbD p.2) else none))

/-- The check bits c0 to c7 of 64 data bits. -/
def eccBits (data : BitVec 64) : BitVec 8 :=
  let c := (List.range 7).map (eccCheck data)
  let c7 := parity (c ++ (List.range 64).map data.getLsbD)
  BitVec.ofNat 8 (((c ++ [c7]).zipIdx).foldl (fun n p => if p.1 then n + 2 ^ p.2 else n) 0)

/-- A row with the check bits of its data. -/
def eccRow (data : BitVec 64) : BitVec 72 := eccBits data ++ data

/-- What an ECC row reads as: its data, corrected where one bit is wrong, and the status digit 0, 1 or 2 (R140). DESIGN CHOICE (log entry
115): an error of odd weight whose syndrome names no position of the codeword counts as a double-bit error. -/
def eccRead (row : BitVec 72) : BitVec 64 × Nat :=
  let data : BitVec 64 := row.extractLsb' 0 64
  let chk : BitVec 8 := row.extractLsb' 64 8
  let syn := (List.range 7).foldl (fun n k => if eccCheck data k != chk.getLsbD k then n + 2 ^ k else n) 0
  let odd := parity ((List.range 72).map row.getLsbD)
  if odd then
    if syn = 0 ∨ [1, 2, 4, 8, 16, 32, 64].contains syn then (data, 1)
    else match eccPos.idxOf? syn with
      | some i => (data ^^^ BitVec.ofNat 64 (2 ^ i), 1)
      | none => (data, 2)
  else if syn = 0 then (data, 0) else (data, 2)

/-- The command channel of port p of a block, its address and data: command digit, 6 address digits, data digits (R135). -/
structure FirnCmd where
  write : Bool
  word : Nat
  data : Nat
  deriving DecidableEq, Repr

/-- The command pending on a port in use. -/
def State.firnCmd (s : State) (n f b p : Nat) : Option FirnCmd :=
  let ch : Chan := .firn n f b (2 * p)
  if s.firnF n f b (8 + 8 * p) 1 = 0 then none
  else (s.inValue ch (s.chanDigits ch)).map (fun v =>
    let depth := 512 * 2 ^ firnShift (s.firnF n f b 0 2)
    ⟨v % 4 == 1 && s.firnF n f b (9 + 8 * p) 1 == 1, v / 4 % 4096 % depth, v / 2 ^ 14⟩)

/-- The row of a word. -/
def State.firnRowOf (s : State) (n f b word : Nat) : Nat := word / 2 ^ firnShift (s.firnF n f b 0 2)

/-- The request that a port makes for its row: its pending command, with its data channel free, a WRITE only from the WEN phase on (R136). -/
def State.firnReq (s : State) (n f b p : Nat) : Option FirnCmd :=
  if ! s.fabOn n || ! s.chanFree (.firn n f b (2 * p + 1)) then none
  else (s.firnCmd n f b p).filter (fun c => ! c.write || s.fab.wen.getLsbD n)

/-- The other port of the block requests the same row, and one of the two writes (R137). -/
def State.firnCollides (s : State) (n f b p : Nat) (c : FirnCmd) : Bool :=
  match s.firnReq n f b (1 - p) with
  | none => false
  | some o => s.firnRowOf n f b o.word == s.firnRowOf n f b c.word && (c.write || o.write)

/-- An ECC error of a row on a read or a scrub (R140): counted, captured, reported. `src` is 0 port A, 1 port B, 2 scrub. -/
def State.firnError (s : State) (n f b row src status : Nat) : State :=
  match status with
  | 1 => (s.sat (F.REGION_FIRN_ECC_corrected n)).raiseFreeLim 1000 0x0350 n
  | 2 =>
    let s := s.sat (F.REGION_FIRN_ECC_uncorrectable n)
    let s := if s.on (F.REGION_FIRN_UE_valid n) then s else
      ((((s.put (F.REGION_FIRN_UE_row n) row).put (F.REGION_FIRN_UE_block n) b).put (F.REGION_FIRN_UE_column n) f).put
        (F.REGION_FIRN_UE_source n) src).put (F.REGION_FIRN_UE_valid n) 1
    s.raiseFree 0x0351
  | _ => s

/-- A word of a row as a port sees it, with its status digit. -/
def State.firnWord (s : State) (n f b row word : Nat) : Nat × Nat :=
  let r := s.firnRow n f b row
  if s.firnEcc n f b then ((eccRead r).1.toNat, (eccRead r).2)
  else
    let w := firnWidth (s.firnF n f b 0 2) false
    (r.toNat >>> (w * word % 72) % 2 ^ w, 0)

/-- The row with a word written; the check bits are computed on every write (R139). -/
def State.firnPut (s : State) (n f b row word data : Nat) : State :=
  let s :=
    if s.firnEcc n f b then s.setFirnRow n f b row (eccRow (BitVec.ofNat 64 data))
    else
      let w := firnWidth (s.firnF n f b 0 2) false
      let lo := w * word % 72
      let r := (s.firnRow n f b row).toNat
      s.setFirnRow n f b row (BitVec.ofNat 72 (r - (r >>> lo % 2 ^ w) <<< lo + (data % 2 ^ w) <<< lo))
  { s with fab := { s.fab with cleared := SMap.set (fun _ => false) s.fab.cleared ((n * 2 + f) * 128 + b) false } }

/-- A port of the block writes it (R145). -/
def State.firnWritten (s : State) (n f b : Nat) : Bool := s.firnF n f b 9 1 == 1 || s.firnF n f b 17 1 == 1

/-- Bits of a row that differ from what the loader wrote change the frame error of a block that no port writes (R145). -/
def State.firnDrift (s : State) (n f b row : Nat) (d : BitVec 72) : State :=
  if s.firnWritten n f b then s
  else
    let lo := 36864 * (b % 18) + 72 * row
    let v := d.toNat <<< (lo % 4096)
    let a := frameAddr n (0x44 + 4 * f + b / 18) (lo / 4096)
    let bad := SMap.set (fun _ => 0) s.flt.bad a (SMap.get (fun _ => 0) s.flt.bad a ^^^ BitVec.ofNat 4096 v)
    let bad := if v < 2 ^ 4096 then bad
      else SMap.set (fun _ => 0) bad (a + 1) (SMap.get (fun _ => 0) bad (a + 1) ^^^ BitVec.ofNat 4096 (v >>> 4096))
    { s with flt := { s.flt with bad := bad } }

/-- Upsets that a row has taken since it was last accessed. -/
def State.firnUpset (s : State) (n f b row : Nat) (flips : BitVec 72) : State :=
  if flips = 0 then s else (s.setFirnRow n f b row (s.firnRow n f b row ^^^ flips)).firnDrift n f b row flips

/-- The access of a port runs whole (R135, R137, R140): it needs its command, a free data channel, and after a collision its turn. It offers
one data token, connected or not (R124). DESIGN CHOICE (log entry 113): the old word that a WRITE with wr_echo = 0 offers is corrected like
a word read, with status 0 and no count. -/
def State.firnAccess (s : State) (n f b p : Nat) (write : Bool) (flips : BitVec 72) : State :=
  let data : Chan := .firn n f b (2 * p + 1)
  match s.firnReq n f b p with
    | none => s
    | some c =>
      let coll := s.firnCollides n f b p c
      if c.write ≠ write ∨ (coll ∧ p = 1 ∧ s.firnF n f b 4 1 = 1) then s
      else
        let row := s.firnRowOf n f b c.word
        let s := s.firnUpset n f b row flips
        let old := s.firnWord n f b row c.word
        let s := if coll then s.sat (F.REGION_FIRN_COLL_count n) else s
        let s := s.ackIn (.firn n f b (2 * p)) (s.chanDigits (.firn n f b (2 * p)))
        let s := if write then s.firnPut n f b row c.word c.data else s
        let w := firnWidth (s.firnF n f b 0 2) (s.firnEcc n f b)
        let v := if write ∧ s.firnF n f b (10 + 8 * p) 1 = 1 then c.data % 2 ^ w else old.1
        let status := if write then 0 else old.2
        let ds := digitsOf (s.firnDigits n f b) v ++ (if s.firnF n f b (11 + 8 * p) 1 = 1 then [status] else [])
        let s := if write then s else s.firnError n f b row p status
        s.offerOut data ds

/-- FIRN_READ (R135, R140): the port consumes a READ and offers the word; `flips` are upsets of the row. -/
def execFirnRead (n : Fin 16) (f : Fin 2) (b : Fin 72) (p : Fin 2) (flips : BitVec 72) (s : State) : Out :=
  .next (s.firnAccess n f b p false flips)

/-- FIRN_WRITE (R135, R136): the port consumes a WRITE, writes the word and offers the old or the new one. -/
def execFirnWrite (n : Fin 16) (f : Fin 2) (b : Fin 72) (p : Fin 2) (flips : BitVec 72) (s : State) : Out :=
  .next (s.firnAccess n f b p true flips)

/-- A row rewritten by memory scrubbing: in 2 passes in a row it is a failing row and goes to Moraine (R416). -/
def State.rowRewritten (s : State) (n f b row : Nat) : State :=
  let pass := SMap.get (fun _ => 0) s.fab.scrubPass n + 1
  let key := ((n * 2 + f) * 128 + b) * 512 + row
  let again := SMap.get (fun _ => 0) s.fab.rowErr key + 1 == pass && decide (1 < pass)
  let s := { s with fab := { s.fab with rowErr := SMap.set (fun _ => 0) s.fab.rowErr key pass } }
  if again then s.morReport 4 n (f * 256 + s.physBlock n f b) (row + 65536 * 0x0350) else s

/-- One row of an ECC block read by memory scrubbing, and rewritten when one bit of it is wrong (R141). -/
def State.scrubRow (s : State) (n f b row : Nat) (flips : BitVec 72) : State :=
  let s := s.firnUpset n f b row flips
  let r := eccRead (s.firnRow n f b row)
  let s := if r.2 = 1 then ((s.setFirnRow n f b row (eccRow r.1)).firnDrift n f b row (s.firnRow n f b row ^^^ eccRow r.1)).rowRewritten n f b row
    else s
  s.firnError n f b row 2 r.2

/-- FIRN_SCRUB_ROW (R141): the scrubber is at a row. A row of a block without ECC is left; the pass ends with the last row of the region. -/
def execFirnScrubRow (n : Fin 16) (f : Fin 2) (b : Fin 72) (row : Fin 512) (flips : BitVec 72) (s : State) : Out :=
  if ! s.on (F.REGION_MSCRUB_enable n) ∨ s.cut n then .next s
  else
    let s := if s.firnEcc n f b then s.scrubRow n f b row flips else s
    .next (if f.val = 1 ∧ b.val = 71 ∧ row.val = 511 then
      let s := s.put (F.REGION_MSCRUB_pass n) (1 - s.get (F.REGION_MSCRUB_pass n))
      { s with fab := { s.fab with scrubPass := SMap.set (fun _ => 0) s.fab.scrubPass n (SMap.get (fun _ => 0) s.fab.scrubPass n + 1) } }
    else s)

/-- A secret block cleared: all its bits 0 (R144). -/
def State.firnClear (s : State) (n f b : Nat) : State :=
  let s := (List.range 512).foldl (fun s row => s.setFirnRow n f b row 0) s
  { s with fab := { s.fab with cleared := SMap.set (fun _ => false) s.fab.cleared ((n * 2 + f) * 128 + b) true } }

/-- The columns of Firn quarters that hold frames of a region: only they can hold a secret block. -/
def State.firnQuarters (s : State) (n : Nat) : List Nat :=
  (List.range 8).filter (fun q => s.fab.frames.any (fun e => e.1 / 256 == n * 256 + 0x44 + q))

/-- Every secret block of a region cleared (R144). -/
def State.secretClear (s : State) (n : Nat) : State :=
  (s.firnQuarters n).foldl (fun s q => (List.range 18).foldl (fun s j =>
    let f := q / 4
    let b := 18 * (q % 4) + j
    if s.firnF n f b 3 1 = 1 then s.firnClear n f b else s) s) s

/-- A load has written every block of a region, with 0 where its image gives nothing: no block reads cleared any more (R144, R145). -/
def State.firnUncleared (s : State) (n : Nat) : State :=
  { s with fab := { s.fab with cleared := SMap.keep s.fab.cleared (fun k => k / 256 != n) } }

/-- The check bits of every ECC row computed after a load of its frames (R139). -/
def State.firnChecks (s : State) (n : Nat) : State :=
  (s.firnQuarters n).foldl (fun s q => (List.range 18).foldl (fun s j =>
    let f := q / 4
    let b := 18 * (q % 4) + j
    if s.firnEcc n f b then (List.range 512).foldl (fun s row =>
      s.setFirnRow n f b row (eccRow ((s.firnRow n f b row).extractLsb' 0 64))) s else s) s) s

/-- The Firn blocks of a region once a load has written them. -/
def State.firnLoaded (s : State) (n : Nat) : State := (s.firnChecks n).firnUncleared n

/-- The repair index of a region takes the frames of Firn contents with their computed check bits (R139, R402). -/
def State.firnIndexed (s : State) (n : Nat) : State :=
  { s with flt := { s.flt with index := s.flt.index.map (fun e =>
    if e.1 / 65536 = n ∧ 0x44 ≤ e.1 / 256 % 256 ∧ e.1 / 256 % 256 < 0x4C ∧ e.1 % 256 < 171
    then (e.1, e.2.map (fun r => { r with good := s.frame n (e.1 / 256 % 256) (e.1 % 256) })) else e) } }

/-- The rows of a block in ECC shape copied to another physical block: a row with a single-bit error is corrected (R427, Table 14.8). -/
def State.firnCorrect (s : State) (n f b : Nat) : State :=
  if ! s.firnEcc n f b then s
  else (List.range 512).foldl (fun s row =>
    let r := eccRead (s.firnRow n f b row)
    if r.2 = 1 then (s.setFirnRow n f b row (eccRow r.1)).firnDrift n f b row (s.firnRow n f b row ^^^ eccRow r.1) else s) s

end Sys2Proof.Machine
end

