-- ==== Sys2Proof/Machine/Frames.lean ====
section
/-! DEFINITION. Frames as they are written and read back (R87, R88, R116, R117, R121, R149): which addresses exist, which bits are state,
and the frame that a readback returns. -/

namespace Sys2Proof.Machine

/-- The number of minors of a column code (Table 04.6); none at a reserved or a physical code. -/
def minorsOf (col : Nat) : Nat :=
  if col < 0x40 then 0x60 else if col < 0x44 then 0x30 else if col < 0x4C then 0xB0 else if col = 0x4C then 0x30 else if col = 0x4D then 0x10
  else 0

/-- A frame address that a stream may name (R275, item 1). -/
def frameLegal (addr : Nat) : Bool := decide (addr % 256 < minorsOf (addr / 256 % 256))

/-- The sum over a list of values, each at its bit position. -/
def atBits (l : List (Nat × Nat)) : Nat := l.foldl (fun a x => a + x.2 <<< x.1) 0

/-- The bits of a frame of a logic column that are not configuration, by minor: state bits and reserved bits of Tables 03.5 to 03.8, R118,
and the reserved bits beyond the slots (R85). -/
def logicState (m : Nat) : Nat :=
  let slot : Nat :=
    if m < 0x40 then (if m % 2 = 1 then 0xFFFFFFFFFF8000 else 0xC0000000000000)
    else if m < 0x48 then atBits ((List.range 8).map (fun i => (7 * i + 4, 7)))
    else if m = 0x48 then 0xFFFFFFFF000000
    else if m < 0x55 then 0
    else if m = 0x55 then 0xFFFFFFC0000000
    else atBits (((List.range 56).filter (fun b =>
      let v := 56 * (m - 0x56) + b
      decide (320 ≤ v) && decide (v < 544) && decide (4 ≤ (v - 320) % 7))).map (fun b => (b, 1)))
  atBits ((List.range 72).map (fun r => (56 * r, slot))) + (2 ^ 64 - 1) <<< 4032

/-- The bits `lo` to `hi - 1` of a vector that fall into minor m, as bits of that minor. -/
def spanIn (m lo hi : Nat) : Nat :=
  let a := max lo (4096 * m)
  let b := min hi (4096 * (m + 1))
  if a < b then (2 ^ (b - a) - 1) <<< (a - 4096 * m) else 0

/-- The minors that the isolation cells of an edge use (R119). -/
def isoMinors (e : Nat) : Nat := if e % 2 = 1 then 9 else 8

/-- The reserved bits of the channel and tap minors of the region control column (Tables 06.2, 08.2, 04.9, R421); those of a central
region's Spoke minors are all of them (R235). -/
def ctlReserved (n minor : Nat) : Nat :=
  let all := 2 ^ 4096 - 1
  match minor with
  | 0 => atBits ((List.range 128).map (fun k => (32 * k, if k < 32 then 0x7FFC0000 else 0xFFFFFFFF)))
  | 1 => all - atBits ((List.range 20).map (fun k => (32 * k, if k < 4 then 0x3FFF else 0x7F)))
  | 6 => all - 1
  | 7 => atBits ((List.range 64).map (fun k => (32 * k, 0x7FFC0000)))
  | m => if m < 6 then
      (if edgeRegions.contains n then all - (2 ^ 42 - 1) - atBits ((List.range 16).map (fun k => (64 * k + 64, 0xFFFFFFFF7FFF)))
      else all) else all

/-- The reserved bits of a slice word and of a block word (Tables 05.6, 05.7). -/
def sliceReserved : List (Nat × Nat) := [(29, 32), (74, 96), (120, 128), (347, 1024), (1120, 3072)]
def blockReserved : List (Nat × Nat) := [(5, 8), (12, 16), (20, 24), (52, 96), (100, 1024)]

/-- The bits of a frame that hold no configuration of an image: state bits, and what reads 0 whatever is written (R87, R116, R119, R121,
R149). -/
def stateBits (n col minor : Nat) : Nat :=
  if col < 0x40 then logicState minor
  else if col < 0x44 then
    ((List.range 60).flatMap (fun j => ((1024, 1120) :: sliceReserved).map (fun r => spanIn minor (3072 * j + r.1) (3072 * j + r.2)))).foldl
      (· + ·) 0 + spanIn minor (3072 * 60) (3072 * 64)
  else if col < 0x4C then
    ((List.range 18).flatMap (fun j =>
      ((96, 100) :: blockReserved).map (fun r => spanIn minor (700416 + 1024 * j + r.1) (700416 + 1024 * j + r.2)))).foldl (· + ·) 0 +
      spanIn minor (36864 * 18) (36864 * 19) + spanIn minor (700416 + 1024 * 18) 720896
  else if col = 0x4C then
    if (neighbour n (minor / 12)).isNone ∨ isoMinors (minor / 12) ≤ minor % 12 then 2 ^ 4096 - 1
    else atBits ((List.range 128).map (fun i => (32 * i, 0xFFFFFFF0)))
  else ctlReserved n minor

/-- The configuration content of a frame. -/
def cfgBits (n col minor : Nat) (f : Frame) : Frame := f &&& ~~~ BitVec.ofNat 4096 (stateBits n col minor)

/-- One frame written by the loader or the Groomer: its configuration content only. -/
def State.frameWrite (s : State) (addr : Nat) (f : Frame) : State := s.setFrame addr (cfgBits (addr / 65536) (addr / 256 % 256) (addr % 256) f)

/-! ## Readback -/

/-- The token and value bits of a stage (Tables 03.5, 03.6). DESIGN CHOICE (log entry 112): with a bubble the value reads 0b00 while set-reset
is asserted too, as the Meaning of hs_val says. -/
def tokBits (nd : Node) : Nat :=
  match nd.tok with
  | some v => 1 + 2 * v.toNat
  | none => 0

/-- Some acknowledge is high: a destination has taken a token that its source still offers to others, or waits for its completion tree.
Elsewhere every command of the model is a whole handshake, and acknowledges are low between commands. -/
def State.acksPend (s : State) : Bool := s.fab.joined.any (fun e => ! e.2.isEmpty) || s.fab.nodes.any (fun e => e.2.any (fun nd => ! nd.acked.isEmpty))

/-- A destination has acknowledged a token that is still offered: it waits for its tree, its source holds the acknowledge while others have not
taken the token, or a wire or a cell without a stage has passed it on to a source that does (R69, R81, R82). -/
def State.acksUp : Nat → State → Dst → Bool
  | 0, _, _ => false
  | f + 1, s, d =>
    let up (x : Src) : Bool :=
      if (s.node x).acked.contains d then true
      else if (s.stageInit x).isSome then false
      else match s.branchOf x (s.node x).branch with
        | some b => (s.dests x)[b]? == some d && (s.stageInputs x).any (State.acksUp f s)
        | none => (s.stageInputs x).any (State.acksUp f s)
    match d with
    | .port t i 3 => (s.joined t).contains d || (List.range 3).any (fun k => State.acksUp f s (.msel t (s.cellF t i 56 1) k))
    | .port t _ _ => (s.joined t).contains d || (s.srcOf d).any up
    | _ => (s.srcOf d).any up

/-- The acknowledge that a destination shows its source is high: a wire's follows its own destinations, a cell's without a stage that of its
output, which is high while one of its inputs is acknowledged (R69, R81). -/
def State.acksDown : Nat → State → Dst → Bool
  | 0, _, _ => false
  | f + 1, s, d =>
    let held (x : Src) : Bool := (s.stageInit x).isNone && (s.stageInputs x).any (s.acksUp fabricFuel)
    s.acksUp fabricFuel d || (match d with
      | .elem x => (s.stageInit x).isNone && ! (s.dests x).isEmpty && (s.dests x).all (State.acksDown f s)
      | .port t i _ => held (.cell t i)
      | .msel t m _ => ! (s.mselUsers t m).isEmpty && (s.mselUsers t m).all (fun i => held (.cell t i))
      | _ => false)

/-- The acknowledge seen on the output of a cell is high: that of the branch of a SPLIT, of every destination otherwise. -/
def State.outAck (s : State) (t : Tile) (i : Nat) : Bool :=
  let ds := s.dests (.cell t i)
  if s.cellMode t i = .split then ds.any (s.acksDown fabricFuel) else ! ds.isEmpty && ds.all (s.acksDown fabricFuel)

/-- The state bits of the cell word (Table 03.5), from bit 96. -/
def State.cellState (s : State) (t : Tile) (i : Nat) : Nat :=
  let nd := s.node (.cell t i)
  let inAck := s.acksPend && (List.range 4).any (fun p => s.acksUp fabricFuel (.port t i p))
  atBits [(0, if s.holdEn t i then tokBits nd else 0), (3, if inAck then 1 else 0), (4, if s.acksPend && s.outAck t i then 1 else 0),
    (5, if s.cellMode t i = .source then nd.left else 0), (14, if nd.last then 1 else 0), (15, s.get (F.REGION_FREEZE_settled t.n))]

/-- The mutex states of a tile (Table 03.7), from bit 32: that of a mutex that serves no cell reads free. -/
def State.mutexState (s : State) (t : Tile) : Nat :=
  atBits ((List.range 4).map (fun k =>
    (2 * k, match (s.mutexCell t k).bind (fun i => (s.node (.cell t i)).grant) with
      | none => 0
      | some false => 1
      | some true => 2)))

/-- The state bits of one slot of a logic frame. -/
def State.slotState (s : State) (t : Tile) (m : Nat) : Nat :=
  if m < 0x40 then (if m % 2 = 1 then s.cellState t (m / 2) <<< 40 else 0)
  else if m < 0x48 then atBits ((List.range 8).map (fun i =>
    let x := 8 * (m - 0x40) + i
    (7 * i + 4, tokBits (s.node (if x < 32 then .inb t x else .out t (x - 32))))))
  else if m = 0x48 then s.mutexState t <<< 32
  else if m < 0x56 then 0
  else
    (atBits ((List.range 32).map (fun st => (7 * st + 4, tokBits (s.node (.seg t st))))) <<< 320) >>> (56 * (m - 0x56)) % 2 ^ 56

/-- The state bits of a slice word (Table 05.6), from bit 1024. -/
def State.sliceState (s : State) (n c sl : Nat) : Nat :=
  let x := s.slice n c sl
  let q := ! s.chanFree (.slice n c sl 4)
  atBits [(0, x.acc.toNat), (64, x.uPrev.toNat), (91, if q then 1 else 0), (92, if x.preOvf then 1 else 0),
    (93, if x.accOvf then 1 else 0), (94, if x.cal then 1 else 0), (95, s.get (F.REGION_FREEZE_settled n))]

/-- The state bits of a Firn block word (Table 05.7), from bit 96. -/
def State.firnState (s : State) (n f b : Nat) : Nat :=
  let key := (n * 2 + f) * 128 + b
  atBits [(0, s.get (F.REGION_FREEZE_settled n)), (1, if SMap.get (fun _ => false) s.fab.cleared key then 1 else 0),
    (2, SMap.get (fun _ => 0) s.fab.repair key % 4)]

/-- The state bits of an isolation cell word (Table 04.8). -/
def State.isoState (s : State) (n e i : Nat) : Nat :=
  let k := SMap.get (fun _ => {}) s.fab.iso ((n * 4 + e) * 2048 + i)
  atBits [(4, if ! s.cut n && bitOf (s.get (F.REGION_ISO_STS_nbr_iso n)) e then 1 else 0), (5, if s.cut n then 1 else 0),
    (7, if k.sat then 1 else 0), (8, k.count.toNat)]

/-- The state bits of a frame at a logical address. -/
def State.frameState (s : State) (n col minor : Nat) : Nat :=
  if col < 0x40 then atBits ((List.range 72).map (fun r => (56 * r, s.slotState ⟨n, col, r⟩ minor)))
  else if col < 0x44 then
    ((List.range 60).map (fun j =>
      let lo := 3072 * j + 1024
      if spanIn minor lo (lo + 96) = 0 then 0
      else if 4096 * minor ≤ lo then s.sliceState n (col - 0x40) j <<< (lo - 4096 * minor)
      else s.sliceState n (col - 0x40) j >>> (4096 * minor - lo))).foldl (· + ·) 0
  else if col < 0x4C then
    ((List.range 18).map (fun j =>
      let lo := 700416 + 1024 * j + 96
      if spanIn minor lo (lo + 4) = 0 then 0
      else s.firnState n ((col - 0x44) / 4) (18 * ((col - 0x44) % 4) + j) <<< (lo - 4096 * minor))).foldl (· + ·) 0
  else if col = 0x4C then
    let e := minor / 12
    if (neighbour n e).isNone ∨ isoMinors e ≤ minor % 12 then 0
    else atBits ((List.range 128).map (fun i => (32 * i, s.isoState n e (128 * (minor % 12) + i))))
  else 0

/-- The content bits of secret blocks in a frame, which a readback returns as 0 (R144). -/
def State.secretBits (s : State) (n col minor : Nat) : Nat :=
  if 0x44 ≤ col ∧ col < 0x4C then
    ((List.range 18).map (fun j =>
      if s.firnF n ((col - 0x44) / 4) (18 * ((col - 0x44) % 4) + j) 3 1 = 1 then spanIn minor (36864 * j) (36864 * (j + 1)) else 0)).foldl (· + ·) 0
  else 0

/-- The frame at a logical address as a readback returns it; zeros where there is none (R116) and for the contents of secret blocks. -/
def State.readLogical (s : State) (n col minor : Nat) : Frame :=
  if minorsOf col ≤ minor then 0
  else (cfgBits n col minor (s.frame n col minor) &&& ~~~ BitVec.ofNat 4096 (s.secretBits n col minor)) |||
    BitVec.ofNat 4096 (s.frameState n col minor)

/-- The gap of group g of a region, and the logical column of a physical one; none for the gap (R103). -/
def State.colGap (s : State) (n g : Nat) : Nat := s.get (F.REGION_COLMAP_gap n g)
def State.logicalCol (s : State) (n p : Nat) : Option Nat :=
  let g := p / 17
  let k := p % 17
  let gap := s.colGap n g
  if k = gap then none else some (16 * g + (if k < gap then k else k - 1))

/-- The logical column that a migration has copied into the gap of its group and not yet switched to (Table 14.1). -/
def State.copiedCol (s : State) (n g : Nat) : Option Nat :=
  let ph := s.get F.BIST_STS_phase
  if s.flt.bist.waiting && s.get F.BIST_STS_region == n && s.get F.BIST_STS_group == g && (ph == 3 || ph == 5) then
    some (16 * g + (if ph = 5 then s.colGap n g else s.colGap n g - 1))
  else none

/-- A readback at any address (R116): a physical logic column goes through the column map; a gap column reads what it still holds, or once
a migration has configured it what the migrating column holds (Table 02.4). -/
def State.readFrame (s : State) (n col minor : Nat) : Frame :=
  if 0x80 ≤ col ∧ col < 0xC4 then
    if 0x60 ≤ minor then 0
    else match s.logicalCol n (col - 0x80) with
      | some c => s.readLogical n c minor
      | none => match s.copiedCol n ((col - 0x80) / 17) with
        | some c => s.readLogical n c minor
        | none => SMap.get (fun _ => 0) s.fab.gapFrames (frameAddr n col minor)
  else s.readLogical n col minor

/-- Frames of the gap column at a physical address replaced by those of a logical column as they stand. -/
def State.gapKeep (s : State) (n c p : Nat) : State :=
  let clear := SMap.keep s.fab.gapFrames (fun k => k / 256 != n * 256 + 0x80 + p)
  if ! s.fab.frames.any (fun e => e.1 / 256 == n * 256 + c) then { s with fab := { s.fab with gapFrames := clear } }
  else { s with fab := { s.fab with gapFrames := (List.range 0x60).foldl (fun m i =>
    SMap.set (fun _ => 0) m (frameAddr n (0x80 + p) i) (s.readLogical n c i)) clear } }

/-- The gap column cleared (R408). -/
def State.gapClear (s : State) (n p : Nat) : State :=
  { s with fab := { s.fab with gapFrames := SMap.keep s.fab.gapFrames (fun k => k / 256 != n * 256 + 0x80 + p) } }

end Sys2Proof.Machine
end

