-- ==== Sys2Proof/Machine/QueueBase.lean ====
section
/-! DEFINITION. Crossing queues and event crossings (R153 to R177, R184, R185, R524). The views of both sides are those after the
crossing latencies of Table 06.5: each command finds them settled. -/

namespace Sys2Proof.Machine

def State.xqQ (s : State) (q : Nat) : Xq := SMap.get (fun _ => {}) s.xq q
def State.setXq (s : State) (q : Nat) (x : Xq) : State := { s with xq := SMap.set (fun _ => {}) s.xq q x }

/-! ## Clocked domains (R16, Table 01.2) -/

/-- What a queue names as its bound unit: kind, index, virtual channel; none where it acts as kind none (Table 06.9). -/
def State.xqNames (s : State) (q : Nat) : Option (Nat × Nat × Nat) :=
  let i := s.get (F.XQ_BIND_index q)
  let vc := s.get (F.XQ_BIND_vc q)
  match s.get (F.XQ_BIND_kind q) with
  | 1 => if i < 32 then some (1, i, 0) else none
  | 2 => if i < 4 ∧ vc ≠ 0 then some (2, i, vc) else none
  | 3 => if 6 ≤ i ∧ i < 12 then some (3, i, 0) else none
  | _ => none

/-- The bound unit of a queue: of two queues of one direction that name the same unit the lower one is bound (R186). -/
def State.xqBound (s : State) (q : Nat) : Option (Nat × Nat × Nat) :=
  match s.xqNames q with
  | none => none
  | some u => if ((List.range q).filter (fun r => r / 32 == q / 32)).any (fun r => s.xqNames r == some u) then none else some u

/-- The domain of a clocked side: the host, a Peloton port by direction, the core clock of a user group (R315); none without a bound
unit. -/
def State.xqDomain (s : State) (q : Nat) : Option Nat :=
  match s.xqBound q with
  | some (1, _, _) => some 32
  | some (2, i, _) => some (33 + 2 * i + (if q < 32 then 1 else 0))
  | some (3, i, _) => some (41 + (i - 6))
  | _ => none

/-- The queue of a direction (0 inbound, 32 outbound) bound to a unit. -/
def State.queueOf (s : State) (base : Nat) (u : Nat × Nat × Nat) : Option Nat :=
  ((List.range 32).map (base + ·)).find? (fun q => s.xqNames q == some u)

/-! ## Side band and parity -/

def sbSoi (sb : BitVec 16) : Bool := sb.getLsbD 0
def sbEoi (sb : BitVec 16) : Bool := sb.getLsbD 1
def sbTag (sb : BitVec 16) : BitVec 4 := sb.extractLsb' 12 4

/-- A side band from its fields (Table 06.3). -/
def sbOf (soi eoi : Bool) (nbytes tag : Nat) : BitVec 16 :=
  BitVec.ofNat 16 ((if soi then 1 else 0) + (if eoi then 2 else 0) + 256 * (nbytes % 16) + 4096 * (tag % 16))

/-- The even parity of each half of a data word (R160). -/
def wordParity (d : BitVec 128) : BitVec 2 :=
  let p (lo : Nat) : Bool := ((List.range 64).map (fun i => d.getLsbD (lo + i))).foldl xor false
  BitVec.ofNat 2 ((if p 0 then 1 else 0) + (if p 64 then 2 else 0))

def xword (d : BitVec 128) (sb : BitVec 16) : XWord := ⟨d, sb, wordParity d⟩

/-- The ABT marker of an item with a tag, and the RST marker (R158). -/
def abtMarker (tag : BitVec 4) : XWord := xword 0 (BitVec.ofNat 16 (2 + 4) ||| (tag ++ (0 : BitVec 12)))
def rstMarker : XWord := xword 0 (BitVec.ofNat 16 (1 + 2 + 8))

/-! ## Commits -/

/-- The status fields that follow the depth (R164, Table 06.10). -/
def State.xqSync (s : State) (q : Nat) : State :=
  let d := (s.xqQ q).words.length
  let s := (s.put (F.XQ_STS_wview q) d).put (F.XQ_STS_rview q) d
  let s := (s.putB (F.XQ_STS_full q) (d == 512)).putB (F.XQ_STS_empty q) (d == 0)
  s.putB (F.XQ_STS_level q) (decide (s.get (F.XQ_CTL_lvl_thr q) ≤ d))

/-- Commits are stopped: not enabled, paused, flushing (R170, R171, R186). -/
def State.xqStopped (s : State) (q : Nat) : Bool :=
  ! s.on (F.XQ_CTL_enable q) || s.on (F.XQ_CTL_pause q) || s.on (F.XQ_STS_flushing q)

/-- A side of a queue is in reset: the writer side, or the reader side. -/
def Xq.inReset (x : Xq) (writer : Bool) : Bool := if writer then x.wReset else x.rReset

/-- A side put in reset, or out of it. -/
def Xq.setReset (x : Xq) (writer b : Bool) : Xq := if writer then { x with wReset := b } else { x with rReset := b }

/-- The fabric side of a queue is the writer of an outbound queue and the reader of an inbound one (R153). -/
def fabricWrites (q : Nat) : Bool := decide (32 ≤ q)

/-- The fabric side of a queue is in reset: by a reset of that side, or by the set-reset of its region (R184). -/
def State.xqFabricReset (s : State) (q : Nat) : Bool :=
  (s.xqQ q).inReset (fabricWrites q) || s.fab.setReset.getLsbD (q % 32 / 2)

/-- One word stored and counted. -/
def State.xqStore (s : State) (q : Nat) (w : XWord) : State :=
  let x := s.xqQ q
  ((s.setXq q { x with words := x.words ++ [w] }).inc (F.XQ_PUSHED_count q)).xqSync q

/-- A push that the queue takes: stored, or discarded in discard mode up to the next soi (R161, R172). -/
def State.xqPush (s : State) (q : Nat) (d : BitVec 128) (sb : BitVec 16) : State :=
  let x := s.xqQ q
  if x.discard && ! sbSoi sb then
    let s := (s.setXq q { x with fresh := false }).inc (F.XQ_DISCARD_count q)
    if x.fresh then s.raiseFree 0x0702 else s
  else ((s.setXq q { x with discard := false, fresh := false }).putB (F.XQ_STS_open_w q) (! sbEoi sb)).xqStore q (xword d sb)

/-- The queue takes a word now: discard mode takes any but a soi, else there must be room (R165, R172). -/
def State.xqTakes (s : State) (q : Nat) (sb : BitVec 16) : Bool :=
  ((s.xqQ q).discard && ! sbSoi sb) || decide ((s.xqQ q).words.length < 512)

/-- The word as it is read: perr where it fails its parity check (R160). -/
def XWord.read (w : XWord) : XWord := if wordParity w.data = w.par then w else { w with sb := w.sb ||| 16 }

/-- The head word taken out, counted, its parity failure reported, the reader's open state moved (R160, R168). -/
def State.xqPop (s : State) (q : Nat) : State :=
  let x := s.xqQ q
  match x.words with
  | [] => s
  | w :: ws =>
    let r := w.read
    let s := (s.setXq q { x with words := ws, tag := sbTag r.sb, last := some r }).inc (F.XQ_POPPED_count q)
    let s := (s.putB (F.XQ_STS_open_r q) (! sbEoi r.sb)).xqSync q
    if wordParity w.data = w.par then s else (s.sat (F.XQ_ERR_perr q)).raiseFree 0x0701

/-- Words of the bound block pushed while the queue takes them; the rest waits (R161, R165). -/
def State.xqDrain : Nat → State → Nat → State
  | 0, s, _ => s
  | n + 1, s, q =>
    match (s.xqQ q).wait with
    | [] => s
    | w :: ws =>
      if s.xqStopped q || s.on (F.XQ_STS_clk_stopped q) || (s.xqQ q).wReset || ! s.xqTakes q w.2 then s
      else State.xqDrain n ((s.setXq q { s.xqQ q with wait := ws }).xqPush q w.1 w.2) q

/-- Words handed to an inbound queue by its bound block. -/
def State.xqFeed (s : State) (q : Nat) (ws : List (BitVec 128 × BitVec 16)) : State :=
  let l := (s.xqQ q).wait ++ ws
  (s.setXq q { s.xqQ q with wait := l }).xqDrain l.length q

/-- Upsets of the data bits of the stored head word. -/
def State.xqUpset (s : State) (q : Nat) (flips : BitVec 128) : State :=
  let x := s.xqQ q
  match x.words with
  | [] => s
  | w :: ws => s.setXq q { x with words := { w with data := w.data ^^^ flips } :: ws }

/-! ## The fabric port -/

def chData (q : Nat) : Chan := .queue q 0
def chSb (q : Nat) : Chan := .queue q 1

/-- The side band channel is connected (R159). -/
def State.sbUsed (s : State) (q : Nat) : Bool := baseSelects (s.chanBase (chSb q))

/-- The fabric has acknowledged the word that an inbound queue offers, on both channels. -/
def State.offerTaken (s : State) (q : Nat) : Bool :=
  s.outTaken (chData q) 64 && (! s.sbUsed q || s.outTaken (chSb q) 8)

/-- The standing offer withdrawn or completed. -/
def State.offerEnd (s : State) (q : Nat) : State :=
  ((s.clearOut (chData q) 64).clearOut (chSb q) 8).put (F.XQ_STS_offer q) 0

/-- The word that the fabric offers an outbound queue (R154, R159). -/
def State.xqFabricWord (s : State) (q : Nat) : Option (BitVec 128 × BitVec 16) :=
  match s.inValue (chData q) 64 with
  | none => none
  | some d =>
    if s.sbUsed q then (s.inValue (chSb q) 8).map (fun b => (BitVec.ofNat 128 d, BitVec.ofNat 16 b &&& 0xFF0F))
    else some (BitVec.ofNat 128 d, sbOf true true 0 0)

end Sys2Proof.Machine
end

