-- ==== Sys2Proof/Machine/RingOps.lean ====
section
/-! DEFINITION. The descriptor rings (R376 to R386): taking, filling and returning data descriptors, enabling and disabling. -/

namespace Sys2Proof.Machine

/-- The ring numbers of Table 13.2. -/
def isRing (n : Nat) : Bool := decide (n < 3) || (decide (0x20 ≤ n) && decide (n < 0x60))
def isH2f (n : Nat) : Bool := decide (0x20 ≤ n) && decide (n < 0x40)
def isF2h (n : Nat) : Bool := decide (0x40 ≤ n) && decide (n < 0x60)
/-- The host gives slots on it: the command ring and the data rings. -/
def hostProduced (n : Nat) : Bool := n == 0 || isH2f n || isF2h n

/-- The crossing queue of a data ring (R376, R186). -/
def State.ringQueue (s : State) (n : Nat) : Option Nat := if isH2f n then s.queueOf 0 (1, n - 0x20, 0) else s.queueOf 32 (1, n - 0x40, 0)

/-- The ring of a queue bound to the host. -/
def State.queueRing (s : State) (q : Nat) : Option Nat :=
  match s.xqBound q with
  | some (1, r, _) => some (if q < 32 then 0x20 + r else 0x40 + r)
  | _ => none

/-- Host memory may be accessed and the ring runs (R374, R395). -/
def State.ringRuns (s : State) (n : Nat) : Bool :=
  s.hif.bme && s.on (F.HIF_RING_CFG_enable n) && s.on (F.HIF_RING_STS_active n)

/-- The ring reads the slot at its position: running, not stopped, below the tail (R380). -/
def State.ringFetches (s : State) (n : Nat) : Bool :=
  hostProduced n && s.ringRuns n && ! (s.ring n).stopped && s.get (F.HIF_RING_STS_pos n) != (s.ring n).door

/-- A slot with a flags byte belongs to the VA2360: give_ph equals the pass phase and done_ph does not (R377). -/
def State.slotOwned (s : State) (n : Nat) (flags : Byte) : Bool :=
  let ph := s.on (F.HIF_RING_STS_phase n)
  flags.getLsbD 0 == ph && flags.getLsbD 1 != ph

/-- One more read of a slot that is not owned: after 8 the ring stops with stale and event 0x0120 (R381). -/
def State.slotStale (s : State) (n : Nat) : State :=
  let r := s.ring n
  if 8 ≤ r.rereads + 1 then ((s.setRing n { r with rereads := 0, stopped := true }).put (F.HIF_RING_STS_stale n) 1).raise 0x0120 n
  else s.setRing n { r with rereads := r.rereads + 1 }

/-- The data descriptor of Table 13.5 that 32 bytes hold, at a slot. -/
def dataDesc (slot : Nat) (raw : List Byte) : DataDesc := {
  slot := slot
  addr := fieldAt raw 0 8
  len := fieldAt raw 8 4
  flags := raw.getD 0xC 0
  tag := (raw.getD 0xD 0).setWidth 4
  words := 0
  bytes := 0 }

/-- The write-back of a data descriptor, bytes 0x08 or 0x0C to 0x13 (Table 13.5), counted and signalled (R382); done_ph takes the value of
give_ph, which is the pass phase of the slot. -/
def State.descReturn (s : State) (n : Nat) (d : DataDesc) (status : Nat) : State :=
  let flags : Byte := (d.flags &&& 0xFD) ||| (if d.flags.getLsbD 0 then 2 else 0)
  let tail := [flags, d.tag.setWidth 8, BitVec.ofNat 8 status, 0] ++ le 4 d.words
  let s := if isH2f n then s.hostWrite (s.slotAddr n d.slot + 0xC) tail else s.hostWrite (s.slotAddr n d.slot + 8) (le 4 d.bytes ++ tail)
  let s := (s.inc (F.HIF_RING_CNT_count n)).put (F.HIF_RING_OWN_dev_owned n) (s.get (F.HIF_RING_OWN_dev_owned n) - 1)
  if isF2h n || d.flags.getLsbD 4 then s.ringEntry n else s

/-- The front descriptor of a ring returned; its write-back waits while Bus Master Enable is 0 (R374). -/
def State.ringReturn (s : State) (n : Nat) (d : DataDesc) (status : Nat) : State :=
  let r := s.ring n
  if s.hif.bme then (s.setRing n { r with owned := r.owned.tail }).descReturn n d status
  else s.setRing n { r with owned := r.owned.tail, late := r.late ++ [(d, status)] }

/-- The write-backs that have waited for Bus Master Enable. -/
def State.ringLate (s : State) (n : Nat) : State :=
  let r := s.ring n
  r.late.foldl (fun s x => s.descReturn n x.1 x.2) (s.setRing n { r with late := [] })

/-- The item that a host-to-fabric ring has open is abandoned: the words it still holds back go, and an ABT marker with its tag is pushed
(R158, R385). -/
def State.h2fAbandon (s : State) (n : Nat) : State :=
  match s.ringQueue n with
  | none => s.setRing n { s.ring n with openItem := false }
  | some q =>
    let s := s.setXq q { s.xqQ q with wait := [] }
    if ! (s.ring n).openItem then s
    else
      let m := abtMarker (s.ring n).openTag
      (s.setRing n { s.ring n with openItem := false }).xqFeed q [(m.data, m.sb)]

/-- The status that a data descriptor is returned with before it moves a word: its own fields (R383, Table 13.5), then the queue of its
ring (R385). -/
def State.descBad (s : State) (n : Nat) (d : DataDesc) : Option Nat :=
  let bad := if isH2f n then d.len == 0 || decide (1048576 < d.len) || (! d.flags.getLsbD 3 && d.len % 16 != 0)
    else decide (d.len < 16) || decide (1048576 < d.len) || d.len % 16 != 0
  if bad then some 2
  else match s.ringQueue n with
    | none => some 3
    | some q => if s.on (F.XQ_CTL_enable q) then none else some 3

/-- Descriptors at the front that cannot start are returned (R385). -/
def State.ringSettle : Nat → State → Nat → State
  | 0, s, _ => s
  | k + 1, s, n =>
    match (s.ring n).owned with
    | [] => s
    | d :: _ =>
      if d.words ≠ 0 then s
      else match s.descBad n d with
        | none => s
        | some st => State.ringSettle k ((if isH2f n then s.h2fAbandon n else s).ringReturn n d st) n

def State.settle (s : State) (n : Nat) : State := s.ringSettle (s.ring n).owned.length n

/-- The slot at the position taken: a data descriptor joins those the ring owns (R377, R378). -/
def State.slotTake (s : State) (n : Nat) (raw : List Byte) : State :=
  let d := dataDesc (s.get (F.HIF_RING_STS_pos n)) raw
  let d := if isF2h n then { d with flags := d.flags &&& 3 } else d
  let r := s.ring n
  let s := (s.setRing n { r with owned := r.owned ++ [d], rereads := 0 }).ringAdvance n
  (s.inc (F.HIF_RING_OWN_dev_owned n)).settle n

/-- The 128-bit words of a host-to-fabric buffer (R383). -/
def h2fWords (soi eoi : Bool) (tag : Nat) : Bool → List Byte → Nat → List (BitVec 128 × BitVec 16)
  | _, _, 0 => []
  | first, bs, k + 1 =>
    let last := decide (bs.length ≤ 16)
    let n := if last then bs.length % 16 else 0
    (BitVec.ofNat 128 (leNat (bs.take 16)), sbOf (first && soi) (last && eoi) n tag) ::
      (if last then [] else h2fWords soi eoi tag false (bs.drop 16) k)

/-- The descriptor in progress is returned once its last word has committed (R383). -/
def State.h2fSettle (s : State) (q : Nat) : State :=
  match s.queueRing q with
  | none => s
  | some n =>
    match (s.ring n).owned with
    | [] => s
    | d :: _ =>
      if ! isH2f n || d.words == 0 || ! (s.xqQ q).wait.isEmpty then s
      else ((s.setRing n { s.ring n with openItem := ! d.flags.getLsbD 3 }).ringReturn n d 0).settle n

/-- The data of the front descriptor of a host-to-fabric ring pushed; a full queue holds the rest (R383). -/
def State.h2fData (s : State) (n : Nat) (data : List Byte) : State :=
  match (s.ring n).owned, s.ringQueue n with
  | d :: ds, some q =>
    if d.words ≠ 0 ∨ data.length ≠ d.len then s
    else
      let ws := h2fWords (d.flags.getLsbD 2) (d.flags.getLsbD 3) d.tag.toNat true data ((d.len + 15) / 16)
      let s := s.setRing n { s.ring n with owned := { d with words := ws.length } :: ds, openItem := true, openTag := d.tag }
      (s.xqFeed q ws).h2fSettle q
  | _, _ => s

/-- The first word that a fabric-to-host ring has popped, written to the front buffer or turned into its markers (R384). DESIGN CHOICE (log
entry 164): a word that what is left of the buffer cannot hold goes whole to the next one. -/
def State.f2hWord (s : State) (n : Nat) : State :=
  match s.ringQueue n, (s.ring n).owned with
  | some q, d :: ds =>
    match (s.xqQ q).got with
    | [] => s
    | w :: ws =>
      let gone (s : State) : State := s.setXq q { s.xqQ q with got := ws }
      if w.sb.getLsbD 3 then
        if d.words ≠ 0 then s.ringReturn n d 0
        else ((gone s).ringReturn n { d with flags := d.flags ||| 0x40, words := 1 } 0).settle n
      else if w.sb.getLsbD 2 then
        ((gone s).ringReturn n { d with flags := d.flags ||| 0x28, words := d.words + 1, tag := sbTag w.sb } 7).settle n
      else
        let nb := (w.sb.extractLsb' 8 4).toNat
        let nb := if nb = 0 then 16 else nb
        if d.len < d.bytes + nb then (s.ringReturn n d 0).settle n else
        let s := (gone s).hostWrite (d.addr + d.bytes) (le nb w.data.toNat)
        let f : Byte := (if sbSoi w.sb then 4 else 0) ||| (if sbEoi w.sb then 8 else 0) ||| (if w.sb.getLsbD 4 then 0x80 else 0)
        let d := { d with flags := d.flags ||| f, words := d.words + 1, bytes := d.bytes + nb, tag := sbTag w.sb }
        if sbEoi w.sb ∨ w.sb.getLsbD 4 ∨ d.len ≤ d.bytes then (s.ringReturn n d 0).settle n
        else s.setRing n { s.ring n with owned := d :: ds }
  | _, _ => s

/-- A flush or a reset of one side of a queue meets its ring: the descriptor in progress is returned with ABORTED (R385). -/
def State.ringBroken (s : State) (q : Nat) : State :=
  match s.queueRing q with
  | none => s
  | some n =>
    match (s.ring n).owned with
    | [] => s
    | d :: _ =>
      if d.words = 0 then s
      else ((if isH2f n then s.h2fAbandon n else s).ringReturn n d 7).settle n

/-- Every owned descriptor returned with a status. -/
def State.ringBackAll : Nat → State → Nat → Nat → State
  | 0, s, _, _ => s
  | k + 1, s, n, st =>
    match (s.ring n).owned with
    | [] => s
    | d :: _ => State.ringBackAll k (s.ringReturn n d st) n st

/-- A ring whose queue is not bound or not enabled returns what it owns with BAD_STATE (R385). -/
def State.ringCheck (s : State) (n : Nat) : State :=
  if (s.ring n).owned.isEmpty || (s.ringQueue n).any (fun q => s.on (F.XQ_CTL_enable q)) then s
  else (if isH2f n then s.h2fAbandon n else s).ringBackAll (s.ring n).owned.length n 3

/-- Every data ring after a change of a binding or of an enable. -/
def State.ringsCheck (s : State) : State := (List.range 64).foldl (fun s i => s.ringCheck (0x20 + i)) s

/-- A disabled ring is no longer active once its descriptors are back (R395). -/
def State.ringIdle (s : State) (n : Nat) : State :=
  if (s.ring n).late.isEmpty then (s.put (F.HIF_RING_STS_active n) 0).put (F.HIF_RING_OWN_dev_owned n) 0 else s

/-- A ring disabled (R395): the word in progress is completed first, which takes an access to host memory (R374), and what is owned is returned
with ABORTED. -/
def State.ringDisable (s : State) (n : Nat) : State :=
  let s := s.put (F.HIF_RING_CFG_enable n) 0
  if ! s.on (F.HIF_RING_STS_active n) then s
  else
    let s := if isF2h n then (if s.hif.bme then (s.f2hWord n).f2hWord n else s) else if isH2f n then s.h2fAbandon n else s
    (s.ringBackAll (s.ring n).owned.length n 7).ringIdle n

/-- Bus Master Enable at 1 again: every ring returns what has waited, and one that was disabled meanwhile is then idle (R374, R395). -/
def State.ringsResume (s : State) : State :=
  (List.range 96).foldl (fun s n =>
    if (s.ring n).late.isEmpty then s
    else
      let s := s.ringLate n
      if s.on (F.HIF_RING_CFG_enable n) then s else s.ringIdle n) s

/-- A write of HIF_RINGn_CFG (R395): while enable is 1 only a write that clears enable and nothing else acts; an enable sets position 0
and phase 1. -/
def State.ringCfgWrite (s : State) (n : Nat) (v : Word) : State :=
  if ! isRing n then s
  else
    let old := s.rd (R.HIF_RING_CFG n)
    let v := v &&& 0xFFFFFFDF#32 &&& ~~~ 0xE000#32
    if old.getLsbD 0 then (if v = old &&& 0xFFFF1FDE then s.ringDisable n else s)
    else
      let s := s.wr (R.HIF_RING_CFG n) v
      if ! v.getLsbD 0 then s
      else
        let s := ((s.put (F.HIF_RING_STS_pos n) 0).put (F.HIF_RING_STS_phase n) 1).put (F.HIF_RING_STS_active n) 1
        let s := (s.setRing n {}).put (F.HIF_RING_STS_full n) 0
        s.put (F.HIF_RING_OWN_dev_owned n) (if hostProduced n then 0 else s.ringSlots n)

/-- A doorbell write (R379, R380): a tail starts a fetch, a head returns slots. -/
def State.doorbell (s : State) (n idx : Nat) : State :=
  if ! isRing n || ! s.on (F.HIF_RING_CFG_enable n) || decide (s.ringSlots n ≤ idx) then s
  else if hostProduced n then s.setRing n { s.ring n with door := idx, stopped := false, rereads := 0 }
  else
    let slots := s.ringSlots n
    let s := (s.setRing n { s.ring n with door := idx }).put (F.HIF_RING_OWN_dev_owned n)
      (slots - (s.get (F.HIF_RING_STS_pos n) + slots - idx) % slots)
    s.putB (F.HIF_RING_STS_full n) (s.get (F.HIF_RING_OWN_dev_owned n) = 0)

end Sys2Proof.Machine
end

