-- ==== Sys2Proof/Machine/QueueOps.lean ====
section
/-! DEFINITION. FLUSH and the reset of one side of a crossing queue (R171, R172, R184, R185), the event crossings (R174 to R177). -/

namespace Sys2Proof.Machine

/-! ## FLUSH and the reset of one side -/

/-- Every stored word removed and counted as flushed, but for one that stands offered (R171, R524). -/
def State.xqDrop (s : State) (q : Nat) : State :=
  let x := s.xqQ q
  let kept := if s.on (F.XQ_STS_offer q) then x.words.take 1 else []
  ((s.setXq q { x with words := kept }).inc (F.XQ_FLUSHED_count q) (x.words.length - kept.length)).xqSync q

/-- The reader's open item and its tag, tested as if a standing offer had been popped (R171, R524). -/
def State.xqOpenR (s : State) (q : Nat) : Option (BitVec 4) :=
  match s.on (F.XQ_STS_offer q), (s.xqQ q).words with
  | true, w :: _ => if sbEoi w.sb then none else some (sbTag w.sb)
  | _, _ => if s.on (F.XQ_STS_open_r q) then some (s.xqQ q).tag else none

/-- An ABT marker where the reader is open. -/
def State.xqAbt (s : State) (q : Nat) : State :=
  match s.xqOpenR q with
  | some tag => s.xqStore q (abtMarker tag)
  | none => s

/-- Discard mode where the writer is open. DESIGN CHOICE (log entry 163): the first word discarded raises event 0x0702 after a reset of the
reader side (Table 06.6, step 6) as after a flush (R172). -/
def State.xqEnterDiscard (s : State) (q : Nat) : State :=
  if s.on (F.XQ_STS_open_w q) then s.setXq q { s.xqQ q with discard := true, fresh := true } else s

/-- Steps 2 to 4 of a flush (R171). -/
def State.xqFlushRun (s : State) (q : Nat) : State :=
  (((s.setXq q { s.xqQ q with flushDue := false }).xqDrop q |>.xqAbt q).xqEnterDiscard q).ringBroken q

/-- A flush begins (R171). While the clock of the clocked side is stopped the queue keeps its words until it returns (R183). -/
def State.xqFlush (s : State) (q : Nat) : State :=
  if s.on (F.XQ_STS_flushing q) then s
  else
    let s := (s.put (F.XQ_CTL_flush q) 1).put (F.XQ_STS_flushing q) 1
    if s.on (F.XQ_STS_clk_stopped q) then s.setXq q { s.xqQ q with flushDue := true } else s.xqFlushRun q

/-- One side of a queue reset: steps 1 to 7 of Table 06.6. `writer` says which side; the words that the bound block holds go with the reset of
its side. A flush that waits for a stopped clock ends here: the
words that it would discard are gone (DESIGN CHOICE, log 119). -/
def State.xqSideReset (s : State) (q : Nat) (writer : Bool) : State :=
  let s := if decide (q < 32) && ! writer then s.offerEnd q else s
  let clocked := writer == decide (q < 32)
  let s := s.setXq q { s.xqQ q with
    flushDue := false
    wait := if clocked && writer then [] else (s.xqQ q).wait
    got := if clocked && ! writer then [] else (s.xqQ q).got }
  let s := s.xqDrop q
  let s :=
    if writer then
      let s := (s.xqAbt q).xqStore q rstMarker
      (s.setXq q { s.xqQ q with discard := false, fresh := false }).put (F.XQ_STS_open_w q) 0
    else (s.xqEnterDiscard q).put (F.XQ_STS_open_r q) 0
  let s := s.setXq q ((s.xqQ q).setReset writer true)
  ((s.put (F.XQ_STS_far_reset q) 1).raiseFree 0x0706).ringBroken q

/-- A resetting side leaves reset (step 9). What a writer pushed meanwhile (step 8) stays stored, though Table 06.7 says of a reader's reset
that no word is (DESIGN CHOICE, log 117). -/
def State.xqSideEnd (s : State) (q : Nat) (writer : Bool) : State := s.setXq q ((s.xqQ q).setReset writer false)

/-- The queues of a region: their fabric sides are reset with its set-reset or its isolation for a load (R184). -/
def regionQueues (n : Nat) : List Nat := [2 * n, 2 * n + 1, 32 + 2 * n, 33 + 2 * n]

/-- The fabric sides of a region's queues reset. -/
def State.regionQueueReset (s : State) (n : Nat) : State :=
  (regionQueues n).foldl (fun s q => if (s.xqQ q).inReset (fabricWrites q) then s else s.xqSideReset q (fabricWrites q)) s

/-- They leave reset. -/
def State.regionQueueEnd (s : State) (n : Nat) : State :=
  (regionQueues n).foldl (fun s q => s.xqSideEnd q (fabricWrites q)) s

/-- Every queue returned to its reset value, with no markers (warm reset, R185). -/
def State.xqResetAll (s : State) : State :=
  let s := (List.range 32).foldl (fun s q => s.offerEnd q) s
  { s with xq := [], regs := SMap.keep s.regs (fun o => ! (decide (0xA0000 ≤ o) && decide (o < 0xB0000))) }

/-! ## Event crossings (R174 to R177) -/

/-- Event line k of region n; 0 to 7 event-in, 8 to 15 event-out. -/
def State.evLine (s : State) (n k : Nat) : EvLine := SMap.get (fun _ => {}) s.evx (n * 16 + k)
def State.setEvLine (s : State) (n k : Nat) (x : EvLine) : State := { s with evx := SMap.set (fun _ => {}) s.evx (n * 16 + k) x }

/-- A pulse lost at a counter of 255 (R174). -/
def State.evLost (s : State) (n k : Nat) : State :=
  let x := s.evLine n k
  let f : RF := ⟨R.REGION_EVX_STS n, k, 1⟩
  let s := s.put f 1
  if x.reported then s else (s.setEvLine n k { x with reported := true }).raise 0x0703 (n * 256 + k)

/-- One pulse on event-in line k. -/
def State.evInPulse (s : State) (n k : Nat) : State :=
  if s.get (F.REGION_EVX_IN_pending n k) = 255 then s.evLost n k else s.inc (F.REGION_EVX_IN_pending n k)

/-- A write of REGION_EVX_FIRE (R175). -/
def State.evFire (s : State) (n mask : Nat) : State :=
  (List.range 8).foldl (fun s k => if bitOf mask k then s.evInPulse n k else s) s

/-- One pulse on event-out line k. -/
def State.evOutPulse (s : State) (n k : Nat) : State :=
  let x := s.evLine n (8 + k)
  if x.count = 255 then s.evLost n (8 + k) else s.setEvLine n (8 + k) { x with count := x.count + 1 }

/-! ## Crossings between two clocked domains (R174, R177, R178) -/

/-- The number of a crossing: its source and destination domains (Table 01.2), and which of those between them. -/
def crossKey (src dst x : Nat) : Nat := (src * 71 + dst) * 256 + x

def State.clkEv (s : State) (k : Nat) : EvLine := SMap.get (fun _ => {}) s.clk.events k
def State.setClkEv (s : State) (k : Nat) (x : EvLine) : State := s.setClk { s.clk with events := SMap.set (fun _ => {}) s.clk.events k x }

/-- One pulse at the source of an event crossing; a source whose clock is stopped gives none. At 255 the pulse is lost, which event 0x0703
with parameter 0xFFFF reports once until the next round trip. -/
def State.clkPulse (s : State) (src dst x : Nat) : State :=
  let k := crossKey src dst x
  let l := s.clkEv k
  if s.clkStopped src then s
  else if l.count < 255 then s.setClkEv k { l with count := l.count + 1 }
  else if l.reported then s
  else (s.setClkEv k { l with reported := true }).raise 0x0703 0xFFFF

/-- A round trip of an event crossing, with its acknowledge: the count is delivered and the counter starts again. It waits for both clocks
(R183). -/
def State.clkTrip (s : State) (src dst x : Nat) : State :=
  let k := crossKey src dst x
  let l := s.clkEv k
  if s.clkStopped src || s.clkStopped dst then s else s.setClkEv k { delivered := l.delivered + l.count }

def State.clkVal (s : State) (k : Nat) : ValX := SMap.get (fun _ => {}) s.clk.copies k
def State.setClkVal (s : State) (k : Nat) (x : ValX) : State := s.setClk { s.clk with copies := SMap.set (fun _ => {}) s.clk.copies k x }

/-- The source loads the holding register and raises the request: only where the last transfer has been acknowledged, and only for a
value that has not been sent. -/
def ValX.load (x : ValX) : ValX := if x.req || x.src == x.hold then x else { x with hold := x.src, req := true }

/-- The source takes a value. -/
def State.valSource (s : State) (src dst x : Nat) (v : Word) : State :=
  let k := crossKey src dst x
  if s.clkStopped src then s else s.setClkVal k ({ s.clkVal k with src := v } : ValX).load

/-- The destination captures the holding register, and its acknowledge lets the source load the latest value. A stopped clock holds its
side (R183). -/
def State.valCapture (s : State) (src dst x : Nat) : State :=
  let k := crossKey src dst x
  let l := s.clkVal k
  let l := if l.req && ! s.clkStopped dst then { l with copy := l.hold, req := false } else l
  s.setClkVal k (if s.clkStopped src then l else l.load)

end Sys2Proof.Machine
end

