-- ==== Sys2Proof/Machine/LaneTx.lean ====
section
/-! DEFINITION. Lanes and groups: their roles, and what a lane sends slot by slot (R311, R316, R319, R320). Lanes are numbered 0 to 59 and
groups 0 to 11. -/

namespace Sys2Proof.Machine

def State.laneL (s : State) (n : Nat) : Lane := SMap.get (fun _ => {}) s.lane n
def State.setLane (s : State) (n : Nat) (x : Lane) : State := { s with lane := SMap.set (fun _ => {}) s.lane n x }
def State.grpG (s : State) (g : Nat) : Grp := SMap.get (fun _ => {}) s.grp g
def State.setGrp (s : State) (g : Nat) (x : Grp) : State := { s with grp := SMap.set (fun _ => {}) s.grp g x }

def State.laneState (s : State) (n : Nat) : Nat := s.get (F.LANE_STS_state n)

/-- LANE_STS.logical: 0 to 3 in service, 4 spare, 5 retired. -/
def State.laneLogical (s : State) (n : Nat) : Nat := s.get (F.LANE_STS_logical n)

/-! ## Roles (Table 11.1) -/

def isPcie (g : Nat) : Bool := decide (g < 2)
def isPelGrp (g : Nat) : Bool := decide (2 ≤ g) && decide (g < 6)
def isUserGrp (g : Nat) : Bool := decide (6 ≤ g)

/-- Raw coding: a user group with pcs 0b10. -/
def State.grpRaw (s : State) (g : Nat) : Bool := isUserGrp g && s.get (F.GRP_CTL_pcs g) == 2

/-- The lanes of the group are bonded: Peloton groups, and user groups with bond at 1 and a coding other than raw (R325). -/
def State.grpBonded (s : State) (g : Nat) : Bool := isPelGrp g || (isUserGrp g && s.on (F.GRP_CTL_bond g) && ! s.grpRaw g)

/-- The training protocol runs; always in a Peloton group. -/
def State.grpTrain (s : State) (g : Nat) : Bool := isPelGrp g || s.on (F.GRP_CTL_train g)
def State.grpAuto (s : State) (g : Nat) : Bool := isPelGrp g || s.on (F.GRP_CTL_spare_auto g)

/-- The physical lane of logical lane k, and the spare; the lanes in service. -/
def State.lanePhys (s : State) (g k : Nat) : Nat := 5 * g + s.get (F.GRP_MAP_phys g k)
def State.spareLane (s : State) (g : Nat) : Option Nat :=
  if s.on (F.GRP_MAP_spare_none g) then none else some (5 * g + s.get (F.GRP_MAP_spare g))
def State.inService (s : State) (g : Nat) : List Nat :=
  (List.range 4).filter (fun k => s.laneLogical (s.lanePhys g k) == k)

/-! ## What a lane has sent (R316, R319, R325, R328) -/

/-- The scrambler x^58 + x^39 + 1 over the 64 bits of a block, bit 0 first: its next state and the scrambled bits. -/
def scramble (st : BitVec 58) (w : BitVec 64) : BitVec 58 × BitVec 64 :=
  (List.range 64).foldl (fun a i =>
    let b := (w.getLsbD i != a.1.getLsbD 38) != a.1.getLsbD 57
    (a.1 <<< 1 ||| (if b then 1 else 0), a.2 ||| (if b then BitVec.ofNat 64 (2 ^ i) else 0))) (st, 0)

/-- One thing sent, as it stands. -/
def State.laneItem (s : State) (n : Nat) (it : LaneItem) : State :=
  s.setLane n { s.laneL n with out := (s.laneL n).out ++ [⟨s.on (F.LANE_CTL_tx_inv n), it⟩] }

/-- A 64b/66b block sent, control or data: its payload goes through the scrambler. -/
def State.laneBlock (s : State) (n : Nat) (ctl : Bool) (w : BitVec 64) : State :=
  let r := scramble (s.laneL n).scr w
  (s.setLane n { s.laneL n with scr := r.1 }).laneItem n (.block (if ctl then 2 else 1) r.2)

/-- The group codes its lanes in 8b/10b. -/
def State.grp8b (s : State) (g : Nat) : Bool := isUserGrp g && s.get (F.GRP_CTL_pcs g) == 1

/-- A filler: a block of type 0xD2, or the pair K28.5, K28.0 (R316). -/
def State.laneFiller (s : State) (n : Nat) : State :=
  if s.grp8b (n / 5) then (s.laneItem n (.char true 0xBC)).laneItem n (.char true 0x1C) else s.laneBlock n true 0xD2

/-- The group runs fillers and elastic buffers (R316). -/
def State.rateMatched (s : State) (g : Nat) : Bool := isPelGrp g || (isUserGrp g && s.on (F.GRP_CTL_rate_match g) && ! s.grpRaw g)

/-- The slot of a block or character passes: where the group matches rates, every 1,024th is a filler, sent before what goes next, in the
same slot on every READY lane in service (R316). Lanes that have sent less sent fillers in the slots between (log entry 133). -/
def State.laneSlot (s : State) (n : Nat) : State :=
  let g := n / 5
  let x := s.laneL n
  if ! s.rateMatched g then s
  else if x.slot < 1023 then s.setLane n { x with slot := x.slot + 1 }
  else
    let ms := ((s.inService g).map (s.lanePhys g)).filter (fun m => s.laneState m == 9 || m == n)
    let s := ms.foldl (fun s m => (s.setLane m { s.laneL m with slot := 0 }).laneFiller m) s
    s.setLane n { s.laneL n with slot := 1 }

/-- The lane that the next block of a bonded group goes to (R325), and the state with the turn passed on. -/
def State.stripeLane (s : State) (g : Nat) : Nat × State :=
  let x := s.grpG g
  (s.lanePhys g (x.txNext % 4), s.setGrp g { x with txNext := (x.txNext + 1) % 4 })

/-- The logical lane of a Peloton port that the next block goes to: the next one in use (R344, R346), and the state with the turn passed on. -/
def State.portLane (s : State) (p : Nat) : Option (Nat × State) :=
  let x := s.grpG (p + 2)
  let use := s.get (F.PEL_PSTS_lanes p)
  (((List.range 4).map (fun i => (x.txNext + i) % 4)).find? (bitOf use ·)).map (fun k =>
    (s.lanePhys (p + 2) k, s.setGrp (p + 2) { x with txNext := (k + 1) % 4 }))

/-- The slots that n blocks of a port take, one after another over its lanes in use. -/
def State.portSlots : Nat → State → Nat → State
  | 0, s, _ => s
  | n + 1, s, p => match s.portLane p with
    | none => s
    | some r => State.portSlots n (r.2.laneSlot r.1) p

/-- One slot on every lane in use. -/
def State.portSlotAll (s : State) (p : Nat) : State :=
  (List.range 4).foldl (fun s k => if bitOf (s.get (F.PEL_PSTS_lanes p)) k then s.laneSlot (s.lanePhys (p + 2) k) else s) s

/-! ## Training frames (R320) -/

/-- 64 bits of PRBS31, x^31 + x^28 + 1, bit 0 first: the last 31 bits, and the block. -/
def prbsBlock (st : BitVec 31) : BitVec 31 × BitVec 64 :=
  (List.range 64).foldl (fun a i =>
    let b := a.1.getLsbD 30 != a.1.getLsbD 27
    (a.1 <<< 1 ||| (if b then 1 else 0), a.2 ||| (if b then BitVec.ofNat 64 (2 ^ i) else 0))) (st, 0)

/-- The data blocks of a training frame: the sequence runs on from one to the next. -/
def prbsBlocks : Nat → BitVec 31 → BitVec 31 × List (BitVec 64)
  | 0, st => (st, [])
  | n + 1, st => let b := prbsBlock st; let r := prbsBlocks n b.1; (r.1, b.2 :: r.2)

/-- A training frame sent: the control block with its word, then 15 data blocks of PRBS31, unscrambled; the PRBS runs on. -/
def State.laneFrame (s : State) (n : Nat) (w : BitVec 64) : State :=
  let r := prbsBlocks 15 (s.laneL n).prbs
  (s.setLane n { s.laneL n with prbs := r.1 }).laneItem n (.frame w r.2)

end Sys2Proof.Machine
end

