-- ==== Sys2Proof/Machine/PowerOps.lean ====
section
/-! DEFINITION. The effective cap, the ceilings and the VCORE goal (R253 to R257, R469). -/

namespace Sys2Proof.Machine

def State.setPwr (s : State) (p : Pwr) : State := { s with pwr := p }

/-- The working VCORE phases: 10 less those that have failed, at most 8 in service (R468). -/
def State.workingPhases (s : State) : Nat := 10 - popBelow (s.get F.PWR_PHASE_failed) 10

/-- PWR_CAP.cap in milliwatts; outside 10 to 65 W it acts as the nearer limit (Table 16.6). -/
def State.capTerm (s : State) : Nat := 1000 * clamp 10 65 (s.get F.PWR_CAP_cap)

/-- The input term in milliwatts: VIN times 6.5 A while the input limit is engaged, no limit otherwise (R469). -/
def State.inputTerm (s : State) : Option Nat :=
  if s.on F.PWR_STS_vin_lim then some (s.get F.PWR_VIN_vin * 65 / 10) else none

/-- The baseplate term in milliwatts: 65 W at 85 degrees and below, falling linearly to 43 W at 100 degrees (R469). -/
def baseTerm (t : Int) : Nat := if t ≤ 85 then 65000 else (65000 - (t - 85) * 22000 / 15).toNat

/-- The VCORE term: with n < 8 working phases, the input power at 0.95 x n x 10 A (R469). -/
def State.phaseTerm (s : State) : Option Nat :=
  if s.workingPhases < 8 then some (Config.vcoreInputPower (9500 * s.workingPhases) (s.get F.PWR_DRL_STS_vcore)) else none

/-- The lower of a term and the lowest so far, with its code of PWR_STS.limit. -/
def lowerTerm (best : Nat × Nat) (code : Nat) : Option Nat → Nat × Nat
  | none => best
  | some v => if v < best.1 then (v, code) else best

/-- The effective cap in milliwatts and the code of its lowest term (R469). -/
def State.effCap (s : State) : Nat × Nat :=
  lowerTerm (lowerTerm (lowerTerm (s.capTerm, 0) 1 s.inputTerm) 2 (some (baseTerm (s.getS F.PWR_TEMP_tbase)))) 3 s.phaseTerm

/-- PWR_STS.eff_cap and PWR_STS.limit follow the terms. -/
def State.capUpdate (s : State) : State := (s.put F.PWR_STS_eff_cap (s.effCap.1 / 1000)).put F.PWR_STS_limit s.effCap.2

/-- v_min, v_max and v_fix; a code above 80 acts as 80 (R253). -/
def State.vMin (s : State) : Nat := min 80 (s.get F.PWR_DRL_VLIM_v_min)
def State.vMax (s : State) : Nat := min 80 (s.get F.PWR_DRL_VLIM_v_max)

/-- The ceiling: the lowest of v_max, the cap ceiling and the thermal ceiling (R253, R255). -/
def State.ceiling (s : State) : Nat := min s.vMax (min s.pwr.capCeil s.pwr.thermCeil)

/-- The first limit that equals the lowest, in the order v_max, cap, thermal (R255). -/
def State.limiter (s : State) : Nat :=
  if s.vMax = s.ceiling then 1 else if s.pwr.capCeil = s.ceiling then 2 else 3

/-- VCORE aimed at a wanted code, no lower than a floor and no higher than the ceiling; a wanted code above the ceiling names the limiter
and raises event 0x0A20 (R253, R255). -/
def State.aim (s : State) (want floor : Nat) : State :=
  let goal := min (max want floor) s.ceiling
  let s := (s.put F.PWR_DRL_STS_demand want).put F.PWR_DRL_STS_ceiling s.ceiling
  let s := s.setPwr { s.pwr with goal := goal }
  let s := s.putB F.PWR_DRL_STS_slewing (goal != s.get F.PWR_DRL_STS_vcore)
  if s.ceiling < want then (s.put F.PWR_DRL_STS_limiter s.limiter).raiseLim 1000 0x0A20 0 0
  else s.put F.PWR_DRL_STS_limiter 0

/-- The goal of VCORE in RUN and LIMP: the demand, no lower than v_min; with enable at 0, v_fix (R253, R254). -/
def State.aimRun (s : State) : State :=
  if s.on F.PWR_DRL_CTL_enable then s.aim s.pwr.demand s.vMin else s.aim (min 80 (s.get F.PWR_DRL_VLIM_v_fix)) 0

/-- The goal for a demand; raises and lowers of the goal count (R253). -/
def State.setGoal (s : State) (demand : Nat) : State :=
  let t := (s.setPwr { s.pwr with demand := min 80 demand }).aimRun
  if s.pwr.goal < t.pwr.goal then t.inc F.PWR_DRL_CNT_raises else if t.pwr.goal < s.pwr.goal then t.inc F.PWR_DRL_CNT_lowers else t

/-- A new Derailleur window (R253): no sample yet. -/
def State.restartWindow (s : State) : State := s.setPwr { s.pwr with samples := 0, smin := 32767, lowSample := false, window := s.pwr.window + 1 }

/-- A window ends: its figures go to PWR_DRL_SMIN, and a new one begins. -/
def State.closeWindow (s : State) : State :=
  ((s.putS F.PWR_DRL_SMIN_smin s.pwr.smin).put F.PWR_DRL_SMIN_samples (min 65535 s.pwr.samples)).restartWindow

/-- VCORE switched on at a fixed code: from off it rises to it with the fabric in set-reset, from another code it slews; the ceilings keep
acting (R257, R467). -/
def State.vcoreFixed (s : State) (code : Nat) : State :=
  let s := if s.pwr.on then s else s.put F.PWR_DRL_STS_vcore code
  ((s.setPwr { s.pwr with on := true, demand := code }).put ⟨R.PWR_RAIL, 20, 1⟩ 1).aim code 0

/-- VCORE ramps to 0 V (R466, R472, R475). -/
def State.vcoreOff (s : State) : State :=
  let s := s.setPwr { s.pwr with on := false, goal := 0 }
  ((s.put F.PWR_DRL_STS_vcore 0).put F.PWR_DRL_STS_slewing 0).put ⟨R.PWR_RAIL, 20, 1⟩ 0

/-- Entry to RUN or LIMP: the Derailleur starts at 0.75 V with the demand at code 40 and a new window (R257). -/
def State.drlStart (s : State) : State := (s.setPwr { s.pwr with on := true, demand := 40 }).restartWindow.aimRun

end Sys2Proof.Machine
end

