-- ==== Sys2Proof/Machine/PelOps.lean ====
section
/-! DEFINITION. The Peloton ports: blocks, frames, credits, routes, flush (R342 to R361). The virtual channels are numbered as Table 12.4
does: PHASE 0, CONTROL 1, DATA 2, MGMT 3. -/

namespace Sys2Proof.Machine

def State.portP (s : State) (p : Nat) : Port := SMap.get (fun _ => {}) s.pel.ports p
def State.setPort (s : State) (p : Nat) (x : Port) : State :=
  { s with pel := { s.pel with ports := SMap.set (fun _ => {}) s.pel.ports p x } }
def State.setPel (s : State) (x : Pel) : State := { s with pel := x }

/-- PEL_PSTS.state (Table 12.2). -/
def State.portState (s : State) (p : Nat) : Nat := s.get (F.PEL_PSTS_state p)
def State.portUp (s : State) (p : Nat) : Bool := s.portState p == 3 && ! s.latched
def State.portRetired (s : State) (p : Nat) : Bool := bitOf (s.get F.FLT_RET_MISC_ports) p

/-- An entry of a list of four, and the list with it written. -/
def vcGet (l : List Nat) (v : Nat) : Nat := l.getD v 0
def vcAdd (l : List Nat) (v n : Nat) : List Nat := l.set v (vcGet l v + n)

/-- A number of blocks of content put side by side, w bits each. -/
def packVc (w : Nat) (l : List Nat) : Nat := (l.mapIdx (fun i x => (x % 2 ^ w) <<< (w * i))).foldl (· + ·) 0

/-- A block sent on a port: a HEARTBEAT or a STRIPE block on every lane in use, another on one of them (Table 12.3). -/
def State.pelSend (s : State) (p type : Nat) (body : Nat) : State :=
  let s := if type = 0xE6 ∨ type = 0xEB then s.portSlotAll p else s.portSlots 1 p
  s.setPel { s.pel with sent := s.pel.sent ++ [{ port := p, type := type, body := BitVec.ofNat 56 body }] }

/-! ## Roles and addresses (R340, R351, Table 12.1) -/

def State.isTree (s : State) : Bool := s.get F.PEL_CFG_role == 2
def State.isRing (s : State) : Bool := s.get F.PEL_CFG_role == 1

/-- The ports a role uses. -/
def State.rolePorts (s : State) : List Nat := if s.isTree then [0, 1, 2, 3] else [0, 1]

/-- The module holds an address, and whether a destination is its own: an acting lead answers to 0 too (R367). -/
def State.hasAddr (s : State) : Bool := s.on F.PEL_ADDR_valid
def State.ownAddr (s : State) (d : Nat) : Bool :=
  s.hasAddr && (d == s.get F.PEL_ADDR_addr || (s.on F.PEL_ADDR_acting_lead && d == 0))

/-- The module sends phase: lead or acting lead (R362, R367). -/
def State.leads (s : State) : Bool := s.on F.PEL_ADDR_is_lead || s.on F.PEL_ADDR_acting_lead

/-! ## Frames (R346, R347) -/

/-- The header block's 7 bytes as a number (Table 12.4). -/
def PFrame.body (f : PFrame) : Nat :=
  f.dst % 4096 + (f.src % 4096) <<< 12 + (f.len % 512) <<< 24 + (f.vc % 4) <<< 33 + (f.type % 16) <<< 35 +
    (if f.wrapped then 2 ^ 40 else 0) + (f.hops % 4096) <<< 44

/-- A header from its 7 bytes. -/
def PFrame.ofBody (b : BitVec 56) : PFrame := {
  dst := (b.extractLsb' 0 12).toNat, src := (b.extractLsb' 12 12).toNat, len := (b.extractLsb' 24 9).toNat
  vc := (b.extractLsb' 33 2).toNat, type := (b.extractLsb' 35 4).toNat, wrapped := b.getLsbD 40
  hops := (b.extractLsb' 44 12).toNat }

/-- The payload padded with zeros to whole blocks. -/
def padded (bs : List Byte) : List Byte := bs ++ List.replicate ((8 - bs.length % 8) % 8) 0

/-- The end-to-end check: CRC-32 over header bytes 0 to 4 and the payload. -/
def PFrame.check (f : PFrame) : BitVec 32 :=
  BitVec.ofNat 32 (crcRun 0xEDB88320 0xFFFFFFFF (le 5 (f.body % 2 ^ 40) ++ f.payload) ^^^ 0xFFFFFFFF)

/-- The hop CRC: CRC-32C over the header, the padded payload and the end-to-end check, as sent on that hop. -/
def PFrame.hopCrc (f : PFrame) : BitVec 32 := crc32c (le 7 f.body ++ padded f.payload ++ le 4 f.e2e.toNat)

/-- The cost of a frame in credits (R358). -/
def frameCost (len : Nat) : Nat := (2 + (len + 7) / 8 + 7) / 8

/-! ## Credits (R358, R359) -/

/-- The allotments of a credit split, in credits. -/
def allots (split : Word) : List Nat := (List.range 4).map (fun v => 4 * (split.toNat >>> (8 * v) % 256))

/-- The credits held in the receive buffer of a VC. -/
def Port.held (x : Port) (v : Nat) : Nat := ((x.buf.filter (fun b => b.f.vc == v)).map (·.cost)).foldl (· + ·) 0

/-- A CREDIT block with the running totals. -/
def State.pelCredit (s : State) (p : Nat) : State :=
  let x := s.portP p
  (s.setPort p { x with unret := [0, 0, 0, 0] }).pelSend p 0xE3 (packVc 14 x.freed)

/-- Credits of a VC freed; at 16 unreturned the block goes at once. -/
def State.pelFree (s : State) (p v cost : Nat) : State :=
  let x := s.portP p
  let x := { x with freed := x.freed.set v ((vcGet x.freed v + cost) % 2 ^ 14), unret := vcAdd x.unret v cost }
  let s := s.setPort p x
  if 16 ≤ vcGet x.unret v then s.pelCredit p else s

/-- A frame in the receive buffer has gone one of its ways; after the last one it leaves the buffer and frees its credits. -/
def State.bufLeave (s : State) (p id : Nat) : State :=
  let x := s.portP p
  match x.buf.find? (·.id == id) with
  | none => s
  | some b =>
    if 1 < b.left then s.setPort p { x with buf := x.buf.map (fun c => if c.id = id then { c with left := c.left - 1 } else c) }
    else (s.setPort p { x with buf := x.buf.filter (·.id != id) }).pelFree p b.f.vc b.cost

/-- A frame or item dropped (R350, R355). -/
def State.pelDrop (s : State) (p : Nat) : State := (s.sat (F.PEL_ERR_dropped p)).raiseLim 1000 0x0904 p p

/-- Frames of one VC leave a receive buffer in the order of their arrival (R357): no earlier one of the VC is still in it. -/
def Port.inTurn (x : Port) (v id : Nat) : Bool := x.buf.all (fun b => b.f.vc != v || decide (id ≤ b.id))

/-! ## Delivery (R349) -/

/-- The inbound queue that takes a frame of a VC from a port: the one bound to it, else the one bound with port 0. -/
def State.pelQueue (s : State) (p v : Nat) : Option Nat :=
  match s.queueOf 0 (2, p, v) with
  | some q => some q
  | none => s.queueOf 0 (2, 0, v)

/-- The payload words of an item with their side bands; every one but the last. -/
def itemWords (tag : Nat) : List Byte → List (BitVec 128 × BitVec 16)
  | bs => (List.range ((bs.length + 15) / 16)).map (fun i =>
      let w := slice bs (16 * i) 16
      (BitVec.ofNat 128 (leNat w), sbOf false false (w.length % 16) tag))

/-- The words of a frame as an item: the header word, then the payload words; eoi is set on the last. -/
def PFrame.words (f : PFrame) : List (BitVec 128 × BitVec 16) :=
  (BitVec.ofNat 128 (f.src + f.dst <<< 12 + f.len <<< 24 + f.hops <<< 33), sbOf true false 0 f.type) :: itemWords f.type f.payload

/-- The last word of an item with eoi. -/
def withEoi (l : List (BitVec 128 × BitVec 16)) : List (BitVec 128 × BitVec 16) :=
  l.mapIdx (fun i w => if i + 1 = l.length then (w.1, w.2 ||| 2) else w)

/-- The credits of frames whose last word has been pushed (R349). -/
def State.pelDrained (s : State) (q : Nat) : State :=
  (List.range 4).foldl (fun s p =>
    let x := s.portP p
    if (s.xqQ q).wait.isEmpty then
      (x.stalled.filter (·.1 == q)).foldl (fun s e => s.bufLeave p e.2) (s.setPort p { x with stalled := x.stalled.filter (·.1 != q) })
    else s) s

/-- An item handed to a queue for a frame in the buffer. -/
def State.pelDeliver (s : State) (p q id : Nat) (ws : List (BitVec 128 × BitVec 16)) : State :=
  let s := s.xqFeed q ws
  let x := s.portP p
  (s.setPort p { x with stalled := x.stalled ++ [(q, id)] }).pelDrained q

/-- A queue takes another frame: no item of a port is open in it, and none waits at it (R349). -/
def State.pelQueueFree (s : State) (q : Nat) : Bool :=
  (List.range 4).all (fun p =>
    (s.portP p).stalled.all (·.1 != q) && (s.portP p).rx.all (fun r => ! (r.opened && r.queue == some q)))

/-- The next whole frame for this module whose turn has come in the buffer of a port. -/
def State.pelTodo (s : State) (p : Nat) : Option LateFrame :=
  (s.portP p).todo.find? (fun t => (s.portP p).inTurn t.f.vc t.id && t.queue.all s.pelQueueFree)

/-- It goes to its queue, or to the supervisor. -/
def State.pelTake (s : State) (p : Nat) (t : LateFrame) : State :=
  let s := s.setPort p { s.portP p with todo := (s.portP p).todo.erase t }
  match t.queue with
  | some q => s.pelDeliver p q t.id t.ws
  | none => (s.setPel { s.pel with mgmt := s.pel.mgmt ++ [(p, t.f)] }).bufLeave p t.id

/-- A whole frame for this module put behind those that wait for their turn. -/
def State.pelLate (s : State) (p : Nat) (t : LateFrame) : State :=
  s.setPort p { s.portP p with todo := (s.portP p).todo ++ [t] }

/-! ## Sending (R348, R357) -/

/-- A frame of a VC may start on a port now: UP, the egress free, credits for the whole frame, not held for the ledger (R348, R360). -/
def State.pelCanStart (s : State) (p v cost : Nat) : Bool :=
  let x := s.portP p
  s.portUp p && x.busy.isNone && decide (cost ≤ vcGet x.txCr v) && ! x.hold.getLsbD v

/-- The whole cost spent as the header is sent. -/
def State.pelSpend (s : State) (p v cost : Nat) : State :=
  let x := s.portP p
  s.setPort p { x with txCr := x.txCr.set v (vcGet x.txCr v - cost) }

/-- LEDGER_MARK goes once no frame is in progress (R360). -/
def State.pelMark (s : State) (p : Nat) : State :=
  let x := s.portP p
  if s.on (F.PEL_PCTL_ledger p) && ! x.marked && x.busy.isNone then (s.setPort p { x with marked := true }).pelSend p 0xE9 x.mask.toNat else s

/-- The trailer of a frame as it is sent: the end-to-end check as the source computed it, and the hop CRC of this hop, inverted where the
frame is stomped (R346 to R348). -/
def PFrame.trailer (f : PFrame) (stomped : Bool) : BitVec 32 × BitVec 32 := (f.e2e, if stomped then f.hopCrc ^^^ 0xFFFFFFFF else f.hopCrc)

/-- What is recorded of a frame sent whole, its hops incremented, and the slots that its blocks take. -/
def State.pelRecord (s : State) (p type : Nat) (f : PFrame) (stomped : Bool) : State :=
  let f := { f with hops := f.hops + 1 }
  let s := s.portSlots (2 + (f.payload.length + 7) / 8) p
  s.setPel { s.pel with sent := s.pel.sent ++
    [{ port := p, type := type, body := BitVec.ofNat 56 f.body, payload := f.payload, stomped := stomped, trailer := some (f.trailer stomped) }] }

/-- A frame's trailer sent: the frame is on the link whole. -/
def State.pelFinish (s : State) (p : Nat) (f : PFrame) (stomped : Bool) : State :=
  let s := (s.setPort p { s.portP p with busy := none }).pelRecord p 0xE1 f stomped
  (s.inc (F.PEL_FRAMES_TX_count p)).pelMark p

/-- The VCs in the order of service: MGMT, CONTROL, DATA, round robin. -/
def vcOrder (turn : Nat) : List Nat := if turn = 1 then [1, 2, 3] else if turn = 2 then [2, 3, 1] else [3, 1, 2]

/-- A frame that waited whole has left its ingress buffer. -/
def State.leaveHeld (s : State) (t : TxFrame) : State :=
  match t.held with
  | some e => s.bufLeave e.1 e.2
  | none => s

/-- The next frame that waits for a port and may start, its ingress buffer in order: its VC. -/
def State.pelNext (s : State) (p : Nat) : Option (Nat × TxFrame) :=
  let x := s.portP p
  (vcOrder x.turn).findSome? (fun v =>
    match x.waiting.find? (fun t => t.f.vc == v && t.held.all (fun h => (s.portP h.1).inTurn v h.2)) with
    | none => none
    | some t => if s.pelCanStart p v (frameCost t.f.len) then some (v, t) else none)

/-- A frame that waits for a port sent whole. -/
def State.pelGo (s : State) (p v : Nat) (t : TxFrame) : State :=
  let x := s.portP p
  let s := s.setPort p { x with waiting := x.waiting.erase t, turn := ([3, 1, 2].idxOf v + 1) % 3 }
  ((s.pelSpend p v (frameCost t.f.len)).pelFinish p t.f false).leaveHeld t

/-- The frames that wait go while one may: those for this module, then those for an egress port, port p first. -/
def State.pelServe : Nat → State → Nat → State
  | 0, s, _ => s
  | n + 1, s, p =>
    match [p, 0, 1, 2, 3].findSome? (fun q => (s.pelTodo q).map (fun t => (q, t))) with
    | some (q, t) => State.pelServe n (s.pelTake q t) p
    | none =>
      match [p, 0, 1, 2, 3].findSome? (fun q => (s.pelNext q).map (fun t => (q, t))) with
      | some (q, v, t) => State.pelServe n (s.pelGo q v t) p
      | none => s

/-- Service for as many frames as wait. -/
def State.serve (s : State) (p : Nat) : State :=
  s.pelServe ((List.range 4).foldl (fun a q => a + (s.portP q).waiting.length + (s.portP q).todo.length) 0) p

/-- Words of a queue have been pushed: the frames that end with them leave their buffers, and others may follow. -/
def State.pelPushed (s : State) (q : Nat) : State := (s.pelDrained q).serve 0

/-- A frame put behind those that wait for a port. -/
def State.enqueue (s : State) (p : Nat) (t : TxFrame) : State :=
  let x := s.portP p
  (s.setPort p { x with waiting := x.waiting ++ [t] }).serve p

/-! ## Routes (R353, R354) -/

/-- The port a ring frame takes before R354: 1 for at most half way round, else 0. -/
def State.ringPort (s : State) (d : Nat) : Nat :=
  let m := s.get F.PEL_ADDR_members
  let a := s.get F.PEL_ADDR_addr
  if m = 0 then 1 else if 2 * ((d + m - a % m) % m) ≤ m then 1 else 0

/-- The port of a chain or tree whose range holds an address, port 0 without one. -/
def State.treePort (s : State) (d : Nat) : Nat :=
  ([2, 3, 1].find? (fun p => s.rolePorts.contains p && s.on (F.PEL_RANGE_valid p) &&
    decide (s.get (F.PEL_RANGE_lo p) ≤ d) && decide (d ≤ s.get (F.PEL_RANGE_hi p)))).getD 0

/-- The ways out of a frame: the ports, and of a ring frame turned at a port that is not UP that port. `arr` is the arrival port. A member that
has no count M yet passes a ring broadcast on, so that the first ENUM_DONE reaches every member (R352; log entry 157). -/
def State.route (s : State) (f : PFrame) (arr : Option Nat) : List Nat × Option Nat :=
  if f.dst = 0xFFF then
    if s.isRing then (if s.portUp 1 ∧ (s.get F.PEL_ADDR_members = 0 ∨ f.hops + 1 < s.get F.PEL_ADDR_members) then [1] else [], none)
    else (s.rolePorts.filter (fun p => s.portUp p && some p != arr), none)
  else if s.isRing then
    let p := if f.wrapped || ! s.hasAddr then (match arr with | some 0 => 1 | some _ => 0 | none => s.ringPort f.dst) else s.ringPort f.dst
    if s.portUp p then ([p], none)
    else if f.wrapped then ([], none)
    else if s.portUp (1 - p) then ([1 - p], some p) else ([], none)
  else
    let p := s.treePort f.dst
    (if s.portUp p then [p] else [], none)

/-- A turn of frames away from a port (R354): wrap, and event 0x090B at the first one. -/
def State.pelWrap (s : State) (p : Nat) : State :=
  let s := s.put (F.PEL_PSTS_wrap p) 1
  let x := s.portP p
  if x.wrapSaid then s else (s.setPort p { x with wrapSaid := true }).raiseLim 1000 0x090B p p

/-- A frame of this module sent: on every port of its route. -/
def State.pelSendFrame (s : State) (cnt : Nat) (f : PFrame) : State :=
  let f := { f with e2e := f.check }
  let r := s.route f none
  match r.1 with
  | [] => s.pelDrop cnt
  | ps =>
    let s := match r.2 with | some p => s.pelWrap p | none => s
    let f := { f with wrapped := r.2.isSome }
    ps.foldl (fun s p => s.enqueue p ⟨f, none⟩) s

/-- A MGMT frame of the supervisor on one port (R352); without an address the module sends none (R351). -/
def State.mgmtOut (s : State) (p dst type : Nat) (payload : List Byte) : State :=
  if ! s.hasAddr then s else
  let f : PFrame := { dst := dst, src := s.get F.PEL_ADDR_addr, len := payload.length, vc := 3, type := type, payload := payload }
  s.enqueue p ⟨{ f with e2e := f.check }, none⟩

/-- A MGMT frame of the supervisor by its route; without an address the module sends none (R351). -/
def State.mgmtSend (s : State) (dst type : Nat) (payload : List Byte) : State :=
  if ! s.hasAddr then s else
  s.pelSendFrame 0 { dst := dst, src := s.get F.PEL_ADDR_addr, len := payload.length, vc := 3, type := type, payload := payload }

/-! ## Lanes in use (R344) -/

/-- A STRIPE block with a new lane mask; both ends stripe onto it from the next filler slot. -/
def State.pelStripe (s : State) (p mask : Nat) : State :=
  ((s.pelSend p 0xEB mask).put (F.PEL_PSTS_lanes p) mask).raiseLim 1000 0x0903 p p

/-- Logical lane k of an UP port is back. -/
def State.pelLaneBack (s : State) (p k : Nat) : State :=
  if s.portUp p ∧ ! bitOf (s.get (F.PEL_PSTS_lanes p)) k then s.pelStripe p (s.get (F.PEL_PSTS_lanes p) + 2 ^ k) else s

/-! ## FLUSH (R361) -/

/-- The ledger of a port ends with valid 0 (R360, R370). -/
def State.ledgerEnd (s : State) (p : Nat) : State :=
  let s := s.put (F.PEL_PCTL_ledger p) 0
  let s := s.setPort p { s.portP p with marked := false }
  (List.range 4).foldl (fun s v => s.put (F.PEL_LEDGER_valid p v) 0) s

/-- A ledger that runs ends with valid 0 (R370). -/
def State.ledgerBreak (s : State) (p : Nat) : State := if s.on (F.PEL_PCTL_ledger p) then s.ledgerEnd p else s

/-- A frame cut through from port q onto port p ends stomped, and is lost. -/
def State.cutStomp (s : State) (q p : Nat) : State :=
  match (s.portP q).rx with
  | none => s
  | some r =>
    if r.cut.contains p then
      (((s.setPort q { s.portP q with rx := some { r with cut := r.cut.filter (· != p) } }).pelFinish p
        { r.f with wrapped := r.f.wrapped || r.turned } true).bufLeave q r.id).pelDrop p
    else s

/-- A frame that waits for a flushed port: turned onto the other port in a ring, else lost. -/
def State.flushWaiting (s : State) (p : Nat) (t : TxFrame) : State :=
  if s.isRing && ! t.f.wrapped && t.f.dst != 0xFFF && s.portUp (1 - p) && decide (p < 2) then
    (s.pelWrap p).enqueue (1 - p) { t with f := { t.f with wrapped := true } }
  else
    let s := s.pelDrop p
    s.leaveHeld t

/-- A frame of a flushed port whose words wait at a full queue: those not pushed go, and an ABT marker closes the item where it is open. -/
def State.flushStalled (s : State) (p : Nat) (e : Nat × Nat) : State :=
  let type := (((s.portP p).buf.find? (·.id == e.2)).map (·.f.type)).getD 0
  let s := (s.setXq e.1 { s.xqQ e.1 with wait := [] }).pelDrop p
  if s.on (F.XQ_STS_open_w e.1) then s.xqFeed e.1 [((0 : BitVec 128), (abtMarker (BitVec.ofNat 4 type)).sb)] else s

/-- FLUSH: the egress, the receive buffer, the credits; the port is left in state `st`, INIT 2, FLUSH 4 or DOWN 0. Frames lost are counted. -/
def State.pelFlush (s : State) (p st : Nat) : State :=
  let s := (List.range 4).foldl (fun s q => s.cutStomp q p) s
  let ws := (s.portP p).waiting
  let s := s.setPort p { s.portP p with waiting := [], busy := none }
  let s := s.put (F.PEL_PSTS_state p) st
  let s := ws.foldl (fun s t => s.flushWaiting p t) s
  let r := (s.portP p).rx
  let s := match r with
    | none => s
    | some r =>
      let s := r.cut.foldl (fun (s : State) e => s.pelFinish e { r.f with wrapped := r.f.wrapped || r.turned } true) s
      let s := match r.queue with
        | some q => if r.opened then s.xqFeed q [((0 : BitVec 128), (abtMarker (BitVec.ofNat 4 r.f.type)).sb)] else s
        | none => s
      s.pelDrop p
  let s := (s.portP p).stalled.foldl (fun s e => s.flushStalled p e) s
  let s := (List.range ((s.portP p).todo.length + (s.portP p).phases.length)).foldl (fun s _ => s.pelDrop p) s
  let s := (List.range 4).foldl (fun s e =>
    let x := s.portP e
    let gone (t : TxFrame) : Bool := t.held.any (fun h => h.1 == p)
    let s := s.setPort e { x with waiting := x.waiting.filter (fun t => ! gone t) }
    (x.waiting.filter gone).foldl (fun s _ => s.pelDrop p) s) s
  let x := s.portP p
  let s := s.setPort p { x with
    rx := none, buf := [], stalled := [], todo := [], phases := [], gotInit := false, split := s.rd (R.PEL_CRSPLIT p)
    txCr := [0, 0, 0, 0], lastTot := [0, 0, 0, 0], freed := [0, 0, 0, 0], unret := [0, 0, 0, 0], partnerAllot := [0, 0, 0, 0] }
  let s := s.ledgerEnd p
  (if st = 2 then s.put (F.PEL_PCTL_flush p) 0 else s).serve 0

/-- A hop fault (R343): the port is flushed to DOWN, with its flag and event 0x0902. -/
def State.pelFault (s : State) (p : Nat) : State := ((s.pelFlush p 0).put (F.PEL_PSTS_fault p) 1).raiseLim 1000 0x0902 p p

/-- Logical lane k of a port has failed or gone: the port is striped over those that remain, and a ledger ends (R344, R370); with none left it
is a hop fault (R343). -/
def State.pelLaneLost (s : State) (p k : Nat) : State :=
  let use := s.get (F.PEL_PSTS_lanes p)
  if ! bitOf use k ∨ (s.portState p ≠ 2 ∧ s.portState p ≠ 3) then s
  else if use = 2 ^ k then (s.pelFault p).put (F.PEL_PSTS_lanes p) 0
  else if s.portUp p then (s.ledgerBreak p).pelStripe p (use - 2 ^ k)
  else s.put (F.PEL_PSTS_lanes p) (use - 2 ^ k)

/-- A port with no lane left is DOWN for good (R344, R428). -/
def State.portRetire (s : State) (p cause : Nat) : State :=
  let s := if s.portState p = 0 then s else s.pelFlush p 0
  (s.morRetired 0x0B 0 p cause).put F.FLT_RET_MISC_ports (setBit (s.get F.FLT_RET_MISC_ports) p)

/-- The port enters INIT with the lanes given in use (R342). -/
def State.pelInit (s : State) (p mask : Nat) : State :=
  (s.put (F.PEL_PSTS_lanes p) mask).pelFlush p 2

/-! ## Enumeration -/

/-- The ports that a module enumerates, in order: UP ones only. -/
def State.enumPorts (s : State) (lead : Bool) : List Nat :=
  (if s.isRing then [1] else if lead then (if s.isTree then [1, 2, 3, 0] else [1, 0]) else (if s.isTree then [2, 3, 1] else [1])).filter
    (fun p => s.portUp p)

/-- The next port of an enumeration, or its end: the lead sends ENUM_DONE with the member count, a member answers with the highest
address of its subtree. -/
def State.enumStep (s : State) : State :=
  match s.pel.en with
  | none => s
  | some e =>
    match e.ports with
    | p :: ps => (s.setPel { s.pel with en := some { e with ports := ps, cur := some (p, e.next) } }).mgmtOut p e.next 0 (le 2 e.next)
    | [] =>
      let s := s.setPel { s.pel with en := none }
      match e.parent with
      | some a => s.mgmtOut 0 a 1 (le 2 (e.next - 1))
      | none => ((s.put F.PEL_ADDR_members e.next).mgmtSend 0xFFF 2 (le 2 e.next)).raiseLim 1000 0x0905 0 e.next

/-- The lead enumerates; in HOLD it does not act as lead (Table 01.5), and in the state of R30 it does nothing. -/
def State.pelEnumerate (s : State) : State :=
  if ! s.on F.PEL_ADDR_is_lead ∨ s.halted then s
  else (s.setPel { s.pel with en := some { next := 1, ports := s.enumPorts true } }).enumStep

/-! ## LIMP -/

/-- A retirement under R17 takes RUN to LIMP (Table 01.4), where the Derailleur starts anew (R257) and the lead enumerates (R352). -/
def State.retireMode (s : State) : State :=
  if s.mode = .run ∧ ! s.latched then ((s.endAskedLoads.setMode .limp).drlStart).pelEnumerate else s

end Sys2Proof.Machine
end

