-- ==== Sys2Proof/Machine/LaneOps.lean ====
section
/-! DEFINITION. Serial lanes: groups, bring-up, failure and substitution (R311 to R335). Lanes are numbered 0 to 59 and groups 0 to 11;
states carry the codes of Table 11.2. -/

namespace Sys2Proof.Machine

/-- A lane may leave OFF: its unit of Table 01.7 up (R33), its group and itself enabled (Table 11.2); a Peloton lane needs its port enabled too
(R342). A user lane goes beyond PLL only in RUN and LIMP (R336). -/
def State.laneEnabled (s : State) (n : Nat) : Bool :=
  let g := n / 5
  s.unitUp (if isPelGrp g then 4 else 11) && s.laneLogical n != 5 && ! s.on (F.GRP_STS_retired g) &&
    s.on (F.LANE_CTL_enable n) && (if isPelGrp g then s.on (F.PEL_PCTL_enable (g - 2)) else isUserGrp g && s.on (F.GRP_CTL_enable g))
def State.laneMayRun (s : State) (g : Nat) : Bool := ! isUserGrp g || s.running

/-! ## Training words (R320, Table 11.3) -/

/-- CRC-16 with polynomial 0x1021 and initial value 0xFFFF, most significant bit first. -/
def crc16Bit (c : Nat) : Nat := if 0x8000 ≤ c then ((2 * c) % 65536) ^^^ 0x1021 else 2 * c
def crc16 (bs : List Byte) : Nat :=
  bs.foldl (fun c b => (List.range 8).foldl (fun c _ => crc16Bit c) (c ^^^ (b.toNat * 256))) 0xFFFF

/-- The CRC of a training word holds. -/
def trainingOk (w : BitVec 64) : Bool := crc16 (le 6 w.toNat) == (w.extractLsb' 48 16).toNat

/-- Lane n is the new lane, or the answering spare, of the substitution u of its group, which has not been cut to its assignment (R335). -/
def State.laneSub (s : State) (n : Nat) : Option Subst :=
  (s.grpG (n / 5)).sub.filter (fun u => s.lanePhys (n / 5) u.k == n && ! u.kept)

/-- The request fields [21:16] and the preset of what a receiver asks for: hold once it is answered. A preset is asked for in all three. -/
def Lane.request (x : Lane) : Nat :=
  match x.req with
  | some (i, c) => if x.answered then 0 else if i < 3 then (1 + c % 2) * 4 ^ i else 0x3F + c * 2 ^ 12
  | none => 0

/-- Bits [47:0] of the training word that lane n sends. DESIGN CHOICE (log entry 132): a spare that is in no substitution gives lane number 0. -/
def State.trainingBody (s : State) (n : Nat) : Nat :=
  let x := s.laneL n
  let sub := s.laneSub n
  let k := s.laneLogical n
  0xC5 + 256 * (if k < 4 then k else 0) + (if k = 4 ∨ sub.isSome then 2 ^ 11 else 0) +
    sub.elim 0 (fun u => 2 ^ 12 * (4 + u.k) + (if u.ack ∨ u.asked ∨ ! u.declared then 2 ^ 15 else 0)) +
    2 ^ 16 * x.request + 2 ^ 22 * x.sts.toNat + (if x.rxReady then 2 ^ 32 else 0)

/-- The training word that lane n sends. -/
def State.trainingWord (s : State) (n : Nat) : BitVec 64 :=
  BitVec.ofNat 64 (s.trainingBody n + 2 ^ 48 * crc16 (le 6 (s.trainingBody n)))

/-- What lane n sends without a word. DESIGN CHOICE (log entry 132): a FAILED lane is quiet, and a lane with train at 0, or in ALIGN or DESKEW
after training, sends what a READY lane would. -/
def State.laneTxNow (s : State) (n : Nat) : LaneTx :=
  let st := s.laneState n
  let data : LaneTx := if s.grpRaw (n / 5) then .prbs31 else .fillers
  if isPcie (n / 5) ∨ st < 2 ∨ 9 < st then .quiet
  else if s.grpTrain (n / 5) ∧ (st < 7 ∨ (st = 7 ∧ (s.laneSub n).isSome)) then .training (s.trainingWord n)
  else data

def State.laneShow (s : State) (n : Nat) : State := s.setLane n { s.laneL n with tx := s.laneTxNow n }

/-! ## What a lane has sent (R316, R319, R325, R328) -/

/-- A data or control block of a word, and a character. -/
def State.laneData (s : State) (n : Nat) (ctl : Bool) (w : BitVec 64) : State := (s.laneSlot n).laneBlock n ctl w
def State.laneChar (s : State) (n : Nat) (k : Bool) (b : Byte) : State := (s.laneSlot n).laneItem n (.char k b)

/-- Notices before a lane goes quiet (R328): 4 blocks of type 0xD4, or pairs of K28.5 with K28.3 or K28.6. -/
def State.laneNotices (s : State) (n : Nat) (deep : Bool) : State :=
  (List.range 4).foldl (fun s _ =>
    if s.grp8b (n / 5) then (s.laneItem n (.char true 0xBC)).laneItem n (.char true (if deep then 0xDC else 0x7C))
    else s.laneBlock n true (if deep then 0x2D4 else 0x1D4)) s

/-- The 8 fillers of an exit from a low-power state (R328). -/
def State.laneExit (s : State) (n : Nat) : State := (List.range 8).foldl (fun s _ => s.laneFiller n) s

/-- The K characters that 8b/10b has (Table 11.5). -/
def kCode (b : Byte) : Bool := b.toNat % 32 == 28 || [0xF7, 0xFB, 0xFD, 0xFE].contains b.toNat

/-- The characters of an outbound word (Table 11.5): an item stands between K27.7 and K29.7, a K28.5 follows it. -/
def wordChars (d : BitVec 128) (sb : BitVec 16) : List (Bool × Byte) :=
  let n := (sb.extractLsb' 8 4).toNat
  if sb.getLsbD 14 then [(true, if kCode (d.setWidth 8) then d.setWidth 8 else 0xBC)]
  else
    (if sb.getLsbD 0 then [(true, 0xFB)] else []) ++ ((le 16 d.toNat).take (if n = 0 then 16 else n)).map (fun b => (false, b)) ++
      (if sb.getLsbD 1 then [(true, 0xFD), (true, 0xBC)] else [])

/-- An outbound word of a user group sent (R325, Table 11.5): by the lane that its tag names, or striped over a bonded group. -/
def State.laneWord (s : State) (g : Nat) (d : BitVec 128) (sb : BitVec 16) : State :=
  let k := s.lanePhys g (sb.toNat / 4096 % 4)
  let bond := s.grpBonded g
  let at_ (s : State) : Nat × State := if bond then s.stripeLane g else (k, s)
  if s.grpRaw g then s.laneItem k (.raw d)
  else if s.grp8b g then (wordChars d sb).foldl (fun s c => (at_ s).2.laneChar (at_ s).1 c.1 c.2) s
  else
    let s := (at_ s).2.laneData (at_ s).1 (sb.getLsbD 14) (d.setWidth 64)
    if (sb.extractLsb' 8 4).toNat = 8 then s else (at_ s).2.laneData (at_ s).1 (sb.getLsbD 15) (d.extractLsb' 64 64)

/-- The lanes that a word goes to are READY, or its lane is retired and the word is to be discarded (R325, R331, R332). -/
def State.laneTakes (s : State) (g : Nat) (sb : BitVec 16) : Bool :=
  if s.grpBonded g then s.on (F.GRP_STS_ready g)
  else
    let k := sb.toNat / 4096 % 4
    ! (s.inService g).contains k || s.laneState (s.lanePhys g k) == 9

/-! ## State -/

/-- GRP_STS follows the lanes: lane_ready, ready, spare_ok. -/
def State.grpSync (s : State) (g : Nat) : State :=
  let rdy := (List.range 4).filter (fun k => s.laneState (s.lanePhys g k) == 9 && s.laneLogical (s.lanePhys g k) == k)
  let s := s.put (F.GRP_STS_lane_ready g) ((rdy.map (2 ^ ·)).foldl (· + ·) 0)
  let s := s.putB (F.GRP_STS_ready g) (! (s.inService g).isEmpty && (s.inService g).all (rdy.contains ·))
  s.putB (F.GRP_STS_spare_ok g) ((s.spareLane g).any (fun n => s.laneState n == 0xD))

/-- The port of a Peloton group enters INIT when every lane in use is READY (Table 12.2). -/
def State.portReady (s : State) (g : Nat) : State :=
  if isPelGrp g ∧ s.portState (g - 2) = 1 ∧ s.on (F.GRP_STS_ready g) then
    s.pelInit (g - 2) (((s.inService g).map (2 ^ ·)).foldl (· + ·) 0)
  else s

/-- The group PLL stops when every lane is DEEP, STANDBY or OFF (Table 11.6). -/
def State.pllRest (s : State) (g : Nat) : State :=
  if ! isPcie g && (List.range 5).all (fun i => [0, 11, 13].contains (s.laneState (5 * g + i))) then s.put (F.GRP_STS_pll_lock g) 0 else s

/-- A change of lane state ends an eye scan aborted, and margining (R335). -/
def State.scanAbort (s : State) (n : Nat) : State :=
  let s := if (s.laneL n).margin then s.setLane n { s.laneL n with margin := false } else s
  if s.on (F.LANE_ES_CTL_start n) then (s.put (F.LANE_ES_CTL_start n) 0).put (F.LANE_ES_CTL_aborted n) 1 else s

/-- A lane that has left DEEP and is READY sends its 8 fillers first; where LANE_CTL.power asks for IDLE it goes on there (R328). -/
def State.laneAwake (s : State) (n : Nat) : State :=
  let s := s.laneExit n
  if s.get (F.LANE_CTL_power n) = 1 then (s.laneNotices n false).put (F.LANE_STS_state n) 10 else s

/-- A lane enters a state. An eye scan that runs ends aborted (R335); READY and STANDBY end the count of attempts, READY raises event 0x0801
and, after DEEP, sends its 8 fillers first (R328). -/
def State.laneEnter (s : State) (n st : Nat) : State :=
  if s.laneState n = st then s
  else
    let s := s.scanAbort n
    let s := s.put (F.LANE_STS_state n) st
    let s := if st < 9 ∨ st = 12 then (s.put (F.LANE_STS_align_lock n) 0).setLane n { s.laneL n with marks := 0, both := 0 } else s
    let s := if st < 4 then s.put (F.LANE_STS_cdr_lock n) 0 else s
    let s := if st < 3 then s.put (F.LANE_STS_sig_det n) 0 else s
    let s := if st = 9 ∨ st = 13 then
        ((s.put (F.LANE_STS_attempts n) 0).put (F.LANE_STS_fail_cause n) 0).setLane n { s.laneL n with fails := 0, heldFail := false }
      else s
    let s := if st = 9 then
        let x := s.laneL n
        let s := (s.setLane n { x with eqQual := x.eq, slow := 0, woken := false }).raiseLim 1000 0x0801 n n
        if x.woken then s.laneAwake n else s
      else s
    ((((s.laneShow n).pllRest (n / 5)).grpSync (n / 5)).portReady (n / 5))

/-- A lane starts bring-up: SIGDET once the group PLL is locked, PLL before that. -/
def State.laneStart (s : State) (n : Nat) : State :=
  let x := s.laneL n
  let s := s.setLane n { x with marks := 0, partner := none, sts := 0, req := none, answered := false, reqs := 0, rxReady := false, both := 0,
                                woken := false, pllLate := false, eq := x.eqStored.getD x.eq }
  if s.on (F.GRP_STS_pll_lock (n / 5)) ∧ s.laneMayRun (n / 5) then s.laneEnter n 2 else s.laneEnter n 1

/-- The lanes of a group that are enabled and OFF start, and those that waited in PLL go on where its PLL is locked (R336). -/
def State.grpStart (s : State) (g : Nat) : State :=
  (List.range 5).foldl (fun s i =>
    let n := 5 * g + i
    if s.laneEnabled n ∧ (s.laneState n = 0 ∨ (s.laneState n = 1 ∧ s.on (F.GRP_STS_pll_lock g) ∧ s.laneMayRun g)) then s.laneStart n else s) s

/-- The pair that the lane of a declared substitution left is retired (R332). -/
def State.oldRetire (s : State) (g old : Nat) : State :=
  (s.put (F.LANE_STS_logical (5 * g + old)) 5).morAdd 6 g old 0x0802

/-- A substitution is cut to its assignment of step 2, which bring-up completes (R335). -/
def State.substKeep (s : State) (g : Nat) : State :=
  match (s.grpG g).sub with
  | none => s
  | some u =>
    if u.kept then s
    else (if u.declared then s.oldRetire g u.old else s).setGrp g { s.grpG g with sub := some { u with kept := true, declared := false } }

/-- A restart (R318): attempts 0, bring-up from SIGDET. That of the new lane of a substitution runs with its assignment (R335). -/
def State.laneRestart (s : State) (n : Nat) : State :=
  if ! s.laneEnabled n ∨ s.laneState n = 0 then s
  else
    let s := if (s.laneSub n).isSome then s.substKeep (n / 5) else s
    let s := (s.put (F.LANE_STS_attempts n) 0).put (F.LANE_STS_fail_cause n) 0
    (s.setLane n { s.laneL n with fails := 0, heldFail := false }).laneStart n

/-- A DOWN port whose lanes restart trains again (Table 12.2). -/
def State.portTrain (s : State) (g : Nat) : State :=
  if isPelGrp g ∧ s.portState (g - 2) = 0 ∧ s.on (F.PEL_PCTL_enable (g - 2)) ∧ ! s.portRetired (g - 2) then s.put (F.PEL_PSTS_state (g - 2)) 1 else s

/-- A lane goes OFF: its stored taps and equaliser values stay (R335). -/
def State.laneOff (s : State) (n : Nat) : State :=
  let x := s.laneL n
  (s.setLane n { ({} : Lane) with stored := x.stored, eqStored := x.eqStored, slips := x.slips, out := x.out }).laneEnter n 0

/-- A lane whose enable is written 0 goes OFF; a Peloton port goes on over its other lanes (R338; DEDUCED, log entry 168). -/
def State.laneDisable (s : State) (n : Nat) : State :=
  let g := n / 5
  let s := if isPelGrp g ∧ s.laneLogical n < 4 then s.pelLaneLost (g - 2) (s.laneLogical n) else s
  s.laneOff n

/-- The user lanes enter electrical idle and their PLLs stop (R26, R335). -/
def State.userLanesIdle (s : State) : State :=
  (List.range 6).foldl (fun s i =>
    let g := 6 + i
    let s := (List.range 5).foldl (fun s j => s.laneOff (5 * g + j)) s
    (s.setGrp g {}).put (F.GRP_STS_pll_lock g) 0) s

/-! ## The repair map (R311) -/

/-- GRP_MAP and LANE_STS.logical from the books. -/
def State.grpApply (s : State) (g : Nat) : State :=
  let m := s.grpMap g
  let s := (List.range 4).foldl (fun s k => s.put (F.GRP_MAP_phys g k) (m.1.getD k 0)) s
  let s := (s.put (F.GRP_MAP_spare g) (m.2.1.getD 4)).putB (F.GRP_MAP_spare_none g) m.2.1.isNone
  let s := (List.range 5).foldl (fun s i =>
    s.put (F.LANE_STS_logical (5 * g + i))
      (if m.2.2.contains i then 5 else if m.2.1 = some i then 4 else (m.1.idxOf? i).getD 5)) s
  s.grpSync g

/-! ## Failure and substitution (R330 to R335) -/

/-- The lanes of G0 and G1: READY where the link is in L0 and has them configured, FAILED otherwise (R323). A scan of a lane that changes ends
aborted (R335). -/
def State.pcieLanes (s : State) (ready : List Nat) : State :=
  (List.range 2).foldl (fun s g => s.grpSync g) ((List.range 10).foldl (fun s n =>
    let st := if ready.contains n then 9 else 12
    if s.laneState n = st then s else (s.scanAbort n).put (F.LANE_STS_state n) st) s)

/-- The link is in Recovery: not in L0 (R323, R333). PCIE_LINK_UP takes it back. -/
def State.linkRecover (s : State) : State :=
  if s.hif.link = .down then s
  else { (s.put F.HIF_STS_link_up 0).pcieLanes [] with hif := { s.hif with link := .recovery } }

/-- Logical lane k of a group is retired for want of a spare, with its effect by role (R332): the link of G0 and G1 trains anew, narrower. -/
def State.laneRetire (s : State) (g k : Nat) : State :=
  let n := s.lanePhys g k
  let s := ((s.put (F.LANE_STS_logical n) 5).morRetired 6 g (n % 5) 0x0802).raiseLim 1000 0x0804 n n
  let s := s.grpSync g
  let s :=
    if isUserGrp g then
      if s.grpBonded g then ((List.range 5).foldl (fun s i => s.laneOff (5 * g + i)) s).put (F.GRP_STS_retired g) 1 else s
    else if isPelGrp g then
      if (s.inService g).isEmpty then s.portRetire (g - 2) 0x0802 else s.portReady g
    else s.linkRecover
  s.retireMode

/-- The spare takes logical lane k (step 2 of Table 11.7). -/
def State.laneMove (s : State) (g k spare : Nat) : State :=
  ((s.put (F.GRP_MAP_phys g k) spare).put (F.LANE_STS_logical (5 * g + spare)) k).put (F.GRP_MAP_spare_none g) 1

/-- Moraine answers the failure of logical lane k: it assigns the spare, waits for a substitution in progress, or retires the lane; with
automatic substitution off the lane waits for a command (R331, R332, R334, R335). -/
def State.laneAnswer (s : State) (g k : Nat) : State :=
  let x := s.grpG g
  if ! s.grpAuto g || ! s.grpTrain g then s
  else if x.sub.isSome then s.setGrp g { x with waiting := x.waiting ++ [k] }
  else
    match s.spareLane g with
    | none => s.laneRetire g k
    | some sp =>
      if s.laneState sp ≠ 0xD then s.laneRetire g k
      else
        let old := s.get (F.GRP_MAP_phys g k)
        (((s.laneMove g k (sp % 5)).setGrp g { x with sub := some { k := k, old := old, declared := true } }).laneStart sp).laneShow sp

/-- The lanes that failed during a substitution are answered in turn. -/
def State.laneWaiters (s : State) (g : Nat) : State :=
  let w := (s.grpG g).waiting
  w.foldl (fun s k => s.laneAnswer g k) (s.setGrp g { s.grpG g with waiting := [] })

/-- A substitution is complete (step 6): event 0x0803, Moraine records it; the lanes that wait are answered. -/
def State.substDone (s : State) (g : Nat) : State :=
  match (s.grpG g).sub with
  | none => s
  | some u =>
    let n := s.lanePhys g u.k
    let s := (s.morSubstituted 5 g (256 * u.k + n % 5) 0x0802).raiseLim 1000 0x0803 n n
    let s := if u.declared then s.oldRetire g u.old else s
    let s := s.setGrp g { s.grpG g with sub := none }
    let s := s.grpSync g
    let s := if isPelGrp g then s.pelLaneBack (g - 2) u.k else s
    s.laneWaiters g

/-- A substitution fails (R332): the spare goes back, or is retired with it when it has failed, and logical lane k is retired. -/
def State.substFail (s : State) (g : Nat) (spareFailed : Bool) : State :=
  match (s.grpG g).sub with
  | none => s
  | some u =>
    let sp := s.get (F.GRP_MAP_phys g u.k)
    let s := s.setGrp g { s.grpG g with sub := none }
    let s := s.put (F.GRP_MAP_phys g u.k) u.old
    let s := if spareFailed then ((s.put (F.LANE_STS_logical (5 * g + sp)) 5).morRetired 6 g sp 0x0802)
      else (((s.put (F.LANE_STS_logical (5 * g + sp)) 4).put (F.GRP_MAP_spare_none g) 0).put (F.GRP_MAP_spare g) sp).laneEnter (5 * g + sp) 0xD
    (s.laneRetire g u.k).laneWaiters g

/-- A spare that fails bring-up is retired; the group has no spare (R329). -/
def State.spareRetire (s : State) (n : Nat) : State :=
  (((s.put (F.LANE_STS_logical n) 5).morRetired 6 (n / 5) (n % 5) 0x0802).put (F.GRP_MAP_spare_none (n / 5)) 1).grpSync (n / 5)

/-- A lane has failed under R330 and reports to Moraine. -/
def State.laneFailed (s : State) (n cause : Nat) : State :=
  let g := n / 5
  let k := s.laneLogical n
  let s := ((s.put (F.LANE_STS_fail_cause n) cause).setLane n { s.laneL n with heldFail := true }).laneEnter n 12
  let s := s.raiseLim 1000 0x0802 n n
  let s := if isPelGrp g ∧ k < 4 then s.pelLaneLost (g - 2) k else s
  if (s.grpG g).sub.any (fun u => s.lanePhys g u.k == n) then s.substFail g true
  else if k = 4 then s.spareRetire n
  else if isPcie g ∨ 3 < k then s
  else s.laneAnswer g k

/-- An attempt at bring-up has failed with a cause; the third in a row is a lane failure (R318). -/
def State.laneAttempt (s : State) (n cause : Nat) : State :=
  let x := s.laneL n
  if 3 ≤ x.fails + 1 then (s.setLane n { x with fails := 0 }).laneFailed n 5
  else ((s.setLane n { x with fails := x.fails + 1 }).put (F.LANE_STS_fail_cause n) cause).laneEnter n 12

/-- Every lane of the module fails with cause 9: a lane rail is out of its window (Table 16.1). -/
def State.lanesRailFail (s : State) : State :=
  let s := (List.range 60).foldl (fun s n => (s.put (F.LANE_STS_fail_cause n) 9).laneEnter n 12) s
  (List.range 12).foldl (fun s g => s.put (F.GRP_STS_pll_lock g) 0) (s.setUnit 3 false)

/-! ## Equaliser (R321, Table 11.4) -/

/-- The taps of a preset: c-1, c0, c+1. -/
def preset (p : Nat) : Nat × Nat × Nat :=
  match p with
  | 1 => (0, 55, 8)
  | 2 => (0, 47, 16)
  | 3 => (4, 51, 8)
  | 4 => (4, 43, 16)
  | 5 => (8, 47, 8)
  | 6 => (0, 40, 0)
  | 7 => (0, 32, 0)
  | _ => (0, 63, 0)

def State.taps (s : State) (n : Nat) : Nat × Nat × Nat := (s.get (F.LANE_FFE_pre n), s.get (F.LANE_FFE_main n), s.get (F.LANE_FFE_post n))
def State.setTaps (s : State) (n : Nat) (t : Nat × Nat × Nat) : State :=
  ((s.put (F.LANE_FFE_pre n) t.1).put (F.LANE_FFE_main n) t.2.1).put (F.LANE_FFE_post n) t.2.2

/-- The limits of the taps. -/
def tapsOk (t : Nat × Nat × Nat) : Bool :=
  decide (t.1 ≤ 15) && decide (24 ≤ t.2.1) && decide (t.2.1 ≤ 63) && decide (t.2.2 ≤ 31) && decide (t.1 + t.2.1 + t.2.2 ≤ 63)

/-- One tap raised, or lowered; a tap at 0 cannot be lowered. -/
def tapStep (t : Nat × Nat × Nat) (i : Nat) (up : Bool) : Option (Nat × Nat × Nat) :=
  let f (v : Nat) : Option Nat := if up then some (v + 1) else if v = 0 then none else some (v - 1)
  match i with
  | 0 => (f t.1).map (fun v => (v, t.2))
  | 1 => (f t.2.1).map (fun v => (t.1, v, t.2.2))
  | _ => (f t.2.2).map (fun v => (t.1, t.2.1, v))

/-- The answer to one tap of the partner's request: hold returns the status to 0, a request still standing keeps its answer, a new one is
applied, or answered at maximum or minimum where it would break a limit. -/
def State.tapRequest (s : State) (n : Nat) (w : BitVec 64) (i : Nat) : State :=
  let code := (w.extractLsb' (16 + 2 * i) 2).toNat
  let x := s.laneL n
  let st := (x.sts.toNat >>> (2 * i)) % 4
  let answer (s : State) (v : Nat) : State :=
    s.setLane n { s.laneL n with sts := BitVec.ofNat 6 (x.sts.toNat - (st <<< (2 * i)) + (v <<< (2 * i))) }
  if code = 0 then answer s 0
  else if st ≠ 0 then s
  else if code = 3 then answer (s.setTaps n (preset (w.extractLsb' 28 4).toNat)) 1
  else
    match tapStep (s.taps n) i (code = 1) with
    | some t => if tapsOk t then answer (s.setTaps n t) 1 else answer s (if code = 1 then 3 else 2)
    | none => answer s 2

end Sys2Proof.Machine
end

