-- ==== Sys2Proof/Machine/Release.lean ====
section
/-! DEFINITION. The release of set-reset (R41 to R43, R45, R73, R75): which stages start with a token, which of those tokens are discarded,
and which channels can never complete a handshake. -/

namespace Sys2Proof.Machine

/-! ## What starts with a token -/

/-- The rows of a logic frame whose slot holds a value in `w` bits from `lo` (R85). -/
def rowsWith (f lo w v : Nat) : List Nat := (List.range 72).filter (fun r => f >>> (56 * r + lo) % 2 ^ w == v)

/-- The stages that a logic frame starts with a token, and its SOURCE cells (Tables 03.5, 03.6 and 04.7). -/
def frameStarts (n c m f : Nat) : List Src :=
  if m < 0x40 then
    if m % 2 = 1 then (rowsWith f 1 2 3).map (fun r => .cell ⟨n, c, r⟩ (m / 2))
    else (rowsWith f 32 4 8).map (fun r => .cell ⟨n, c, r⟩ (m / 2))
  else if m < 0x48 then (List.range 8).flatMap (fun k =>
    let x := 8 * (m - 0x40) + k
    (rowsWith f (7 * k) 2 3).map (fun r => if x < 32 then .inb ⟨n, c, r⟩ x else .out ⟨n, c, r⟩ (x - 32)))
  else if 0x56 ≤ m then ((List.range 32).filter (fun st => 0x56 + (320 + 7 * st) / 56 == m)).flatMap (fun st =>
    (rowsWith f ((320 + 7 * st) % 56) 2 3).map (fun r => .seg ⟨n, c, r⟩ st))
  else []

/-- The same over the frames of a region. -/
def State.starts (s : State) (n : Nat) : List Src :=
  s.fab.frames.flatMap (fun e => if e.1 / 65536 = n ∧ e.1 / 256 % 256 < 64 then frameStarts n (e.1 / 256 % 256) (e.1 % 256) e.2.toNat else [])

/-! ## Tokens in front of tokens (R42) -/

/-- A token is offered at an input. -/
def State.offeredAt (s : State) (d : Dst) : Bool :=
  match d with
  | .port t i 3 => (s.portVal (s.offer fabricFuel) t i 3).isSome
  | _ => ! s.waits d && (s.seen d).isSome

/-! ## Channels started in part (R43) -/

/-- The first hold stage before a destination, through wires only. -/
def State.upStage : Nat → State → Dst → Option Src
  | 0, _, _ => none
  | f + 1, s, d => (s.srcOf d).bind (fun x =>
    if (s.stageInit x).isSome then some x
    else match x with
      | .cell _ _ => none
      | _ => State.upStage f s (.elem x))

/-- What a source reaches through wires only. -/
def State.downDsts : Nat → State → Src → List Dst
  | 0, _, _ => []
  | f + 1, s, x => (s.dests x).flatMap (fun d => match d with
    | .elem y => if (s.stageInit y).isSome then [d] else State.downDsts f s y
    | _ => [d])

/-- The digits of a multi-digit channel at its consumer. -/
def State.groupDigits (s : State) : Group → List Dst
  | .tree t k =>
    if k < 8 then (List.range 32).flatMap (fun j => ([0, 1, 2].map (.port t j)).filter (fun d =>
      s.groupOf d == some (.tree t k) && (s.srcOf d).isSome))
    else (List.range 3).map (.msel t (k - 8))
  | .block ch => (List.range (s.chanDigits ch)).map (.digit ch)

/-- The kind of a source: a cell, an inbound, an outbound, a segment start, or what lies outside the tiles. -/
def Src.kind (x : Src) : Nat := if x.key % 2 ^ 32 < 2 ^ 28 then x.key % 128 / 32 else 4

/-- Of the stages of one kind, in whatever tiles they lie, some start with a token and some with a bubble: they are one multi-digit hold
stage. DESIGN CHOICE (log entry 144): stages of different kinds on the digits of a channel are not taken as one. -/
def State.partly (s : State) (xs : List Src) : Bool :=
  let tok (x : Src) : Bool := ((s.stageInit x).bind Node.tok).isSome
  xs.any (fun x => tok x && xs.any (fun y => y.kind == x.kind && ! tok y))

/-- The channel belongs to a multi-digit hold stage that starts partly with tokens: the stage that feeds its digits, or, for a completion
tree, the stage whose ports are its members (R39). -/
def State.groupMixed (s : State) (g : Group) : Bool :=
  let ds := s.groupDigits g
  let members : List Src := ds.filterMap (fun d => match d with
    | .port t j _ => if s.holdEn t j then some (.cell t j) else none
    | _ => none)
  s.partly (ds.filterMap (s.upStage fabricFuel)) || s.partly members

/-- The multi-digit channels that a stage which starts with a token feeds or consumes. -/
def State.groupsAt (s : State) (x : Src) : List Group :=
  ((s.downDsts fabricFuel x) ++ s.stageInputs x).filterMap s.groupOf

/-! ## Release -/

/-- The fabric at release of set-reset in a set of regions, at one moment: every stage keeps the state it starts from whatever its
configuration becomes; a token whose destinations all start with a token is discarded; a channel started in part is stuck. A destination
that starts with a token has its acknowledge high, which reaches the first stage through wires and through cells without a stage alike
(R69; DEDUCED, log entry 36). -/
def State.fabRelease (s : State) (set : BitVec 16) : State :=
  let xs := ((List.range 16).filter (fun n => set.getLsbD n && s.fab.setReset.getLsbD n)).flatMap s.starts
  let toks := xs.filter (fun x => ((s.stageInit x).bind Node.tok).isSome)
  let gs := (toks.flatMap s.groupsAt).filter s.groupMixed
  let s := xs.foldl (fun s x => s.setNode x ((s.stageInit x).getD {})) s
  let s := { s with fab := { s.fab with
    setReset := s.fab.setReset &&& ~~~ set
    stuck := gs.foldl (fun m g => SMap.set (fun _ => false) m g.key true) s.fab.stuck } }
  (toks.flatMap s.stageInputs).foldl (fun s d => if s.offeredAt d then s.ackDst d else s) s

end Sys2Proof.Machine
end

