-- ==== Sys2Proof/Machine/FaultOps.lean ====
section
/-! DEFINITION. Gaps and retirement of columns, slices, blocks and regions (R103, R109, R143, R427, R428), the rolling test's books
(R407 to R419), lockstep pairs (R422 to R425), the windows of R410. -/

namespace Sys2Proof.Machine

/-! ## Regions -/

/-- The state of a region (Table 10.1): cfg_valid and own_cut follow it (Tables 10.8, 04.13). -/
def State.setRegion (s : State) (n st : Nat) : State :=
  let s := (s.put (F.REGION_PR_STS_state n) st).putB (F.REGION_PR_STS_cfg_valid n) (st == 1 || st == 2 || st == 4)
  s.putB (F.REGION_ISO_STS_own_cut n) (st != 1)

def State.regionState (s : State) (n : Nat) : Nat := s.get (F.REGION_PR_STS_state n)

/-- The acknowledges that a source remembers, when the cells of edge e of region n begin to act toward region m: what destinations in m had
acknowledged of an offer that has not completed is withdrawn with the offer (R112). -/
def ackedCut (m : Nat) (nd : Node) : Node := { nd with acked := nd.acked.filter (fun d => d.region != m) }

/-- The same when the cells pass again: a token that an isolation cell absorbed counts as acknowledged on the whole crossing (R46, R113). -/
def State.ackedPass (s : State) (n e m : Nat) (nd : Node) : Node :=
  { nd with acked := nd.acked.flatMap (fun d => match d with
    | .iso n' e' i => if n' = n ∧ e' = e then
        (isoStart n e i).elim [] (fun p => (s.dests (.seg p.1 p.2)).filter (fun d => d.region == m)) else [d]
    | _ => [d]) }

/-- What feeds a wire, or a cell without a stage, of region n comes over edge e (R110). -/
def State.fedOver : Nat → State → Nat → Nat → Src → Bool
  | 0, _, _, _, _ => false
  | f + 1, s, n, e, x =>
    if (s.stageInit x).isSome then false
    else match s.endOf x with
      | some (t, k) =>
        if t.n = n ∧ (k / 8 + 2) % 4 = e ∧ (t.far e (k % 8)).any (fun u => u.n != n) then true
        else (s.feeds x).any (State.fedOver f s n e)
      | none => (s.stageInputs x).any (fun d => (s.srcOf d).any (State.fedOver f s n e))

/-- Inside region n, what had been acknowledged of an offer over edge e is forgotten with the offer, which is withdrawn (R112, R113). -/
def State.withdrawn (s : State) (n e : Nat) : State :=
  let fed (x : Src) : Bool := s.fedOver fabricFuel n e x
  { s with fab := { s.fab with
    nodes := s.fab.nodes.map (fun x =>
      if x.1 / 2 ^ 32 = n ∧ x.2.any (fun nd => ! nd.acked.isEmpty) ∧ (srcAt x.1).any fed
      then (x.1, x.2.map (fun nd => { nd with acked := [] })) else x)
    joined := (s.fab.joined.map (fun x =>
      if x.1 / 8192 = n then (x.1, x.2.filter (fun d => ! (s.srcOf d).any fed)) else x)).filter (fun x => ! x.2.isEmpty) } }

/-- The rings follow the cut of every region: the cells of a passing region act toward each cut neighbour, their counts start at 0, and
cells that pass again withdraw what they offered (R111 to R115). -/
def State.ringsFollow (s : State) (n : Nat) : State :=
  (List.range 4).foldl (fun s e =>
    match neighbour n e with
    | none => s
    | some m =>
      let act := ! s.cut n && s.cut m
      let was := bitOf (s.get (F.REGION_ISO_STS_nbr_iso n)) e
      let bits := s.get (F.REGION_ISO_STS_nbr_iso n)
      if act == was then s
      else
        let lo := (n * 4 + e) * 2048
        let s := (s.withdrawn n e).put (F.REGION_ISO_STS_nbr_iso n) (if act then bits + 2 ^ e else bits - 2 ^ e)
        let key := n * 2 ^ 32 + 3 * 2 ^ 28 + e * 2048
        let nodes := SMap.keep s.fab.nodes (fun k => decide (k < key) || decide (key + 2048 ≤ k))
        { s with fab := { s.fab with
            iso := if act then SMap.keep s.fab.iso (fun k => decide (k < lo) || decide (lo + 2048 ≤ k)) else s.fab.iso
            nodes := nodes.map (fun x =>
              if x.1 / 2 ^ 32 = n then (x.1, x.2.map (if act then ackedCut m else s.ackedPass n e m)) else x) } }) s

def State.allRings (s : State) : State := (List.range 16).foldl (fun s n => s.ringsFollow n) s

/-- Set-reset asserted in a region (R41, R131): every stage takes its initial state, writes and inputs are held until WEN, the fabric sides
of its queues are reset (R184). Event counts in flight return to their counters (Table 10.4). DESIGN CHOICE (log entry 114): a counter
that this would take past 255 stays at 255, with no sat bit and no event. -/
def State.setResetOn (s : State) (n : Nat) : State :=
  let bit : BitVec 16 := BitVec.ofNat 16 (2 ^ n)
  let s := { s with fab := { s.fab with
    setReset := s.fab.setReset ||| bit
    wen := s.fab.wen &&& ~~~ bit
    nodes := SMap.keep s.fab.nodes (fun k => k / 2 ^ 32 != n)
    joined := SMap.keep s.fab.joined (fun k => k / 8192 != n)
    stuck := SMap.keep s.fab.stuck (fun k => k / 2 ^ 32 != n)
    slices := SMap.keep s.fab.slices (fun k => k / 256 != n) } }
  let s := (List.range 8).foldl (fun s k =>
    let x := s.evLine n k
    let busy : RF := ⟨R.REGION_EVX_STS n, 16 + k, 1⟩
    if s.on busy then
      ((s.put (F.REGION_EVX_IN_pending n k) (min 255 (s.get (F.REGION_EVX_IN_pending n k) + x.flight))).put busy 0).setEvLine n k
        { x with flight := 0 }
    else s) s
  (s.regionQueueReset n).wdgSync n

/-- Set-reset released in a set of regions at one instant: the stages start (R41 to R43), the queues' fabric sides leave reset (Table 06.6,
step 9), each watchdog goes on from the count it holds or waits for a first handshake again (R63, R64), and armed pairs with both regions
released start to compare (R423). -/
def State.setResetOff (s : State) (set : BitVec 16) : State :=
  let s := s.fabRelease set
  let s := (List.range 16).foldl (fun s n => if set.getLsbD n then
    (((List.range 32).foldl (fun s k => s.setWdg n k { s.wdgAt n k with seen := false }) s).regionQueueEnd n).wdgSync n else s) s
  (List.range 8).foldl (fun s k =>
    if set.getLsbD (2 * k) && set.getLsbD (2 * k + 1) && s.on (F.FLT_LS_CTL_arm k) then
      let s := s.setFlt { s.flt with ls := SMap.keep s.flt.ls (fun j => j / 64 != k) }
      (s.put (F.FLT_LS_STS_comparing k) 1).tapsBegin k
    else s) s

/-! ## Lockstep -/

/-- The comparison of a pair ends and its held values go (R423). -/
def State.lsEnd (s : State) (k : Nat) : State :=
  let s := s.put (F.FLT_LS_STS_comparing k) 0
  ({ s with fab := { s.fab with side := SMap.keep s.fab.side (fun j => j / 128 != k) } }).tapsFree k

/-! ## Gaps -/

/-- A gap of the column map. -/
def State.setColGap (s : State) (n g pos : Nat) (retired : Bool) : State :=
  (s.put (F.REGION_COLMAP_gap n g) pos).putB (F.REGION_COLMAP_ret n g) retired
def State.setSliceGap (s : State) (n c g pos : Nat) (retired : Bool) : State :=
  (s.put (F.REGION_SPR_MAP_gap n c g) pos).putB (F.REGION_SPR_MAP_ret n c g) retired
def State.setBlockGap (s : State) (n f q pos : Nat) (retired : Bool) : State :=
  (s.put (F.REGION_FIRN_MAP_gap n f q) pos).putB (F.REGION_FIRN_MAP_ret n f q) retired

/-- An entry of a lane or of a supervisor half: the map is applied to it at a start from COLD (R311, R29), to all else at a full load. -/
def MapEntry.atCold (e : MapEntry) : Bool := e.kind == 5 || e.kind == 6 || e.kind == 8

/-- The books without the entries that the next full load takes again from the map, and with the entries of the map; what an erase left
applied in the hardware ends with them (R433). DESIGN CHOICE (log entry 146): with a change of Moraine still pending, its record not yet
written, a full load takes the books with that change, not the record alone. -/
def State.booksFromMap (s : State) (all : Bool) : State :=
  let map := s.mapView.entries
  let keep := if s.on F.FLT_MOR_STS_pending then s.flt.books
    else if all then [] else s.flt.books.filter MapEntry.atCold
  let more := map.filter (fun e => ! keep.contains e && (all || ! e.atCold))
  s.setFlt { s.flt with books := keep ++ more, kept := if all then [] else s.flt.kept.filter MapEntry.atCold }

/-- The rows of a physical block that repair rows have taken. -/
def State.rowsUsed (s : State) (n f p : Nat) : Nat := (s.morOf 4 n).countP (fun e => e.pos == f * 256 + p)

/-- The repair rows in use that readback shows, by logical block (Table 05.7). -/
def State.rowsShow (s : State) : State :=
  let m := s.applied.foldl (fun m e =>
    if e.kind ≠ 4 then m
    else
      let f := e.pos / 256
      match (List.range 72).find? (fun b => s.physBlock e.inst f b == e.pos % 256) with
      | some b => SMap.set (fun _ => 0) m ((e.inst * 2 + f) * 128 + b) (s.rowsUsed e.inst f (e.pos % 256))
      | none => m) ([] : SMap Nat)
  { s with fab := { s.fab with repair := m } }

/-- Every gap set from the books (R109, R143), the repair rows in use (R142). -/
def State.gapsFromBooks (s : State) : State :=
  let ret (kind n : Nat) (p : Nat → Bool) : Option Nat := ((s.morOf kind n).find? (fun e => p e.pos)).map (·.pos)
  let s := (List.range 16).foldl (fun s n =>
    let s := (List.range 4).foldl (fun s g =>
      match ret 1 n (fun p => p / 17 == g) with
      | some p => s.setColGap n g (p % 17) true
      | none => s.setColGap n g 16 false) s
    let s := (List.range 4).foldl (fun s c => (List.range 4).foldl (fun s g =>
      match ret 2 n (fun p => p / 256 == c && p % 256 / 16 == g) with
      | some p => s.setSliceGap n c g (p % 16) true
      | none => s.setSliceGap n c g 15 false) s) s
    (List.range 2).foldl (fun s f => (List.range 4).foldl (fun s q =>
      match ret 3 n (fun p => p / 256 == f && p % 256 / 19 == q) with
      | some p => s.setBlockGap n f q (p % 256 % 19) true
      | none => s.setBlockGap n f q 18 false) s) s) s
  s.rowsShow

/-- The units that the books retire: registers of Table 14.14. -/
def State.retiredFromBooks (s : State) : State :=
  let bits (kind : Nat) : Nat := (s.applied.filter (fun e => e.kind == kind)).foldl (fun a e =>
    a ||| 2 ^ (if kind = 9 then e.inst else e.pos)) 0
  let s := s.put F.FLT_RET_REG_regions (bits 9)
  let s := (s.put F.FLT_RET_SPK0_units (bits 10 % 2 ^ 32)).put F.FLT_RET_SPK1_units (bits 10 / 2 ^ 32)
  ((s.put F.FLT_RET_MISC_ports (bits 11)).put F.FLT_RET_MISC_phases (bits 7)).put F.FLT_RET_MISC_sup (bits 8)

/-! ## Retirement (R428) -/

/-- A Spoke unit retired: it parks and acknowledges nothing. -/
def State.spokeRetire (s : State) (u cause : Nat) : State :=
  if s.spkRetired u then s
  else
    let s := ((s.spkHold u).morAdd 10 0 u cause).raise 0x0C02 0
    if u < 32 then s.put F.FLT_RET_SPK0_units (s.get F.FLT_RET_SPK0_units ||| 2 ^ u)
    else s.put F.FLT_RET_SPK1_units (s.get F.FLT_RET_SPK1_units ||| 2 ^ (u - 32))

/-- A region retired: it reads RETIRED, its ring is cut, its queues' fabric sides are reset, its Spoke units are retired with it; a running
comparison of its pair ends (R425). -/
def State.regionRetire (s : State) (n cause : Nat) : State :=
  if s.regionRetired n then s
  else
    let s := s.put F.FLT_RET_REG_regions (s.get F.FLT_RET_REG_regions ||| 2 ^ n)
    let s := ((s.setRegion n 6).allRings).setResetOn n
    let s := s.morRetired 9 n 0 cause
    let s := (unitsOf n).foldl (fun s u => s.spokeRetire u cause) s
    let s := s.put F.GRM_STS_active (clrBit (s.get F.GRM_STS_active) n)
    let s := s.setFlt { s.flt with reports := s.flt.reports.filter (fun e => e.inst != n || e.kind == 7) }
    if s.on (F.FLT_LS_STS_comparing (n / 2)) then ((s.lsEnd (n / 2)).put (F.FLT_LS_STS_broken (n / 2)) 1).raise 0x0362 (n / 2) else s

/-! ## Substitution of slices, blocks and rows (R142, R143, Table 14.8) -/

/-- A faulty physical slice becomes the retired gap of its group; none when the group has no spare. -/
def State.sliceSubst (s : State) (n c p cause : Nat) : Option State :=
  let g := p / 16
  if s.on (F.REGION_SPR_MAP_ret n c g) then none
  else
    let s := (s.setSliceGap n c g (p % 16) true).morSubstituted 2 n (c * 256 + p) cause
    some { s with fab := { s.fab with slices := s.fab.slices.map (fun e =>
      if e.1 / 64 == n * 4 + c && e.1 % 64 / 15 == g then (e.1, e.2.map (fun x => { x with stopped := false })) else e) } }

/-- A faulty physical block becomes the retired gap of its quarter. -/
def State.blockSubst (s : State) (n f p cause : Nat) : Option State :=
  let q := p / 19
  if s.on (F.REGION_FIRN_MAP_ret n f q) then none
  else some ((s.setBlockGap n f q (p % 19) true).morSubstituted 3 n (f * 256 + p) cause).rowsShow

/-- A repair row takes a failing row; none when the block has used both (R142). -/
def State.rowRepair (s : State) (n f p row cause : Nat) : Option State :=
  let e : MapEntry := ⟨4, n, f * 256 + p, row + 65536 * cause⟩
  if s.applied.any (fun x => x.kind == 4 && x.inst == n && x.pos == e.pos && x.info % 512 == row) then some s
  else if 2 ≤ s.rowsUsed n f p then none
  else
    let s := (s.setFlt { s.flt with books := s.flt.books ++ [e] }).put F.FLT_MOR_STS_pending 1
    some (s.raise 0x0C01 n).rowsShow

/-! ## The rolling test -/

def State.setBist (s : State) (b : Bist) : State := s.setFlt { s.flt with bist := b }

/-- The tests of a kind that BIST_REPORT may name: the last 4 (R418). -/
def State.testsOf (s : State) (kind : Nat) : List TestRun := SMap.get (fun _ => []) s.flt.tests kind

/-- A new test of a kind: its identifier, and the state with the sequence moved on. -/
def State.newTest (s : State) (kind : Nat) : Nat × State :=
  let q := SMap.get (fun _ => 0) s.flt.seqs kind
  (kind * 2 ^ 28 + q % 2 ^ 28, s.setFlt { s.flt with seqs := SMap.set (fun _ => 0) s.flt.seqs kind (q + 1) })

/-- A finished test kept (R418). -/
def State.keepTest (s : State) (t : TestRun) : State :=
  let l := s.testsOf (t.id / 2 ^ 28) ++ [t]
  s.setFlt { s.flt with tests := SMap.set (fun _ => []) s.flt.tests (t.id / 2 ^ 28) (l.drop (l.length - 4)) }

/-- The worst of two result codes of a test: no spare, then cut short, then a fault that a spare took (Table 14.3). -/
def worse (a b : Nat) : Nat :=
  let rank (c : Nat) : Nat := match c with
    | 2 => 4
    | 3 => 3
    | 1 => 2
    | _ => 0
  if rank a < rank b then b else a

/-- A record added to the pass in progress, and BIST_LAST (Table 14.15). -/
def State.bistRecord (s : State) (r : TestRec) (bits : List (BitVec 64)) : State :=
  let b := s.flt.bist
  let s := match b.run with
    | some t => s.setBist { b with run := some { t with recs := t.recs ++ [r], bits := t.bits ++ bits, code := worse t.code r.result } }
    | none => s
  let s := (s.put F.BIST_LAST_result r.result).put F.BIST_LAST_region r.region
  (s.put F.BIST_LAST_group (r.pos / 17)).put F.BIST_LAST_column r.pos

/-- A column test in progress or in diagnosis is cut short (R414): INCOMPLETE with the count reached, event 0x0403; it runs again from its
start. The count reached is a free value. -/
def State.bistCut (s : State) : State :=
  if s.get F.BIST_STS_phase ≠ 1 ∧ s.get F.BIST_STS_phase ≠ 6 then s
  else
    let d := s.draw
    let b := s.flt.bist
    let n := s.get F.BIST_STS_region
    let s := d.2.setBist { b with retest := false, spent := b.spent + (s.time - b.testAt) }
    let s := s.put F.BIST_STS_phase 0
    let k := b.tPlanned + 1
    let s := (s.put F.BIST_PAT_applied (d.1 % k)).put F.BIST_PAT_personality (d.1 / k)
    let s := s.bistRecord ⟨1, n, s.get F.BIST_STS_column, b.tPlanned, d.1 % k, false, 0, 3⟩ []
    s.raise 0x0403 n

/-- The test of a region is cut short (R414). -/
def State.bistCutIn (s : State) (n : Nat) : State := if s.get F.BIST_STS_region = n then s.bistCut else s

/-- The rolling test leaves a region that stops being ACTIVE: its test is cut short, a migration that has not begun is given up (R407, R414). -/
def State.bistLeave (s : State) (n : Nat) : State :=
  let s := s.bistCutIn n
  if s.get F.BIST_STS_region = n ∧ s.on F.BIST_STS_phase then
    (s.setBist { s.flt.bist with waiting := false }).put F.BIST_STS_phase 0
  else s

/-- The rolling test stops and forgets the pass: a full load starts a new one (R407); the BIST_RUN that waits for it ends as given. -/
def State.bistStop (s : State) : State :=
  let s := s.bistCut
  (s.setBist {}).put F.BIST_STS_phase 0

/-- A rolling pass starts (R407): a test of kind 0 that gathers its records. -/
def State.bistPass (s : State) : State :=
  let b := s.flt.bist
  let id := s.newTest 0
  id.2.setBist { planned := if 0 < b.full then b.planned else 16384, full := b.full, fullCode := b.fullCode, passAt := s.time, open_ := true,
                 run := some { id := id.1, start := s.time / 1000, dur := 0, code := 0, recs := [], bits := [] } }

/-! ## Windows (R410) -/

/-- The window of a region is open for a step of d microseconds. The velocity is in units of 2^-12 counts per update, 250 updates a
microsecond. -/
def State.windowOpen (s : State) (n d : Nat) : Bool :=
  if ! s.on (F.BIST_WIN_CTL_enable n) then true
  else
    let t := s.get (F.BIST_WIN_CTL_track n)
    let rep := max 1 (s.get (F.BIST_WIN_CTL_rep n))
    let w : Word := (s.trkT t).position.setWidth 32 * BitVec.ofNat 32 rep
    let a := s.rd (R.BIST_WIN_START n)
    let z := s.rd (R.BIST_WIN_END n)
    let v := s.velocity t
    let ahead := if v < 0 then w - z else z - w
    (s.trkState t == 2 || s.trkState t == 3) && decide (w - a < z - a) &&
      decide (250 * d * rep * v.natAbs ≤ ahead.toNat * 4096)

end Sys2Proof.Machine
end

