-- ==== Sys2Proof/Machine/Lanes.lean ====
section
/-! DEFINITION. The commands of the serial lanes (chapter 11). -/

namespace Sys2Proof.Machine

/-- The lane is the new lane, or the answering spare, of the substitution of its group. -/
def State.laneInSubst (s : State) (n : Nat) : Bool := (s.laneSub n).isSome

/-- LANE_SIGNAL_DETECT (R317, R331): a lane in SIGDET, or a spare in STANDBY whose partner's spare has woken. In G0 and G1 the host ends L1, which
goes through Recovery (R323). -/
def execLaneSignalDetect (n : Fin 60) (s : State) : Out :=
  let g := n.val / 5
  if isPcie g then .next (if s.hif.link = .l1 then s.linkRecover else s)
  else if s.laneState n = 2 ∨ (s.laneState n = 0xD ∧ s.grpAuto g ∧ s.grpTrain g) then
    let s := s.setLane n { s.laneL n with woken := s.laneState n == 0xD }
    .next (((s.laneEnter n 3).put (F.LANE_STS_sig_det n) 1).portTrain g)
  else .next s

/-- LANE_CDR_LOCK (R317, R322, R328, R331): on to POLARITY; to ALIGN with train at 0, for a spare with stored taps and for a lane that leaves
DEEP; a spare with train at 0 is in STANDBY. -/
def execLaneCdrLock (n : Fin 60) (s : State) : Out :=
  let g := n.val / 5
  if isPcie g ∨ s.laneState n ≠ 3 then .next s
  else
    let spare := s.laneLogical n == 4
    let st :=
      if s.laneInSubst n || (s.laneL n).woken then 7
      else if s.grpTrain g then 4
      else if spare then 0xD else 7
    let s := s.laneEnter n st
    let s := if s.grpTrain g then s else s.put (F.LANE_STS_pol_inv n) (s.get (F.LANE_CTL_rx_inv n))
    .next (s.put (F.LANE_STS_cdr_lock n) 1)

/-- A lane enters TRAIN with its transmitter at its preset; its receiver adapts its CTLE and DFE (R321). -/
def State.trainEnter (s : State) (n : Nat) : State :=
  let d := s.draw
  let s := d.2.setLane n { d.2.laneL n with eq := Config.eqTaps d.1 }
  (s.setTaps n (preset (s.get (F.LANE_FFE_preset n)))).laneEnter n 6

/-- LANE_ORDER_CHECK (R319): once every lane in service has given its number, the group keeps or reverses its order, or every lane of it that runs
fails. -/
def State.orderCheck (s : State) (g n : Nat) : State :=
  let ks := s.inService g
  let num (k : Nat) : Option Nat := (s.laneL (s.lanePhys g k)).partner
  let go (s : State) (rev : Nat) : State :=
    ks.foldl (fun s k => if s.laneState (s.lanePhys g k) = 5 then s.trainEnter (s.lanePhys g k) else s) (s.put (F.GRP_STS_reversed g) rev)
  if ! ks.all (fun k => (num k).isSome) then s
  else if ks.all (fun k => num k == some k) then go s 0
  else if ks.all (fun k => num k == some (3 - k)) then go s 1
  else
    let s := (s.put (F.GRP_STS_order_err g) 1).raiseLim 1000 0x0806 n n
    (List.range 5).foldl (fun s i =>
      let m := 5 * g + i
      if s.laneState m = 0 ∨ s.laneLogical m = 5 then s
      else ((s.setLane m { s.laneL m with heldFail := true }).put (F.LANE_STS_fail_cause m) 6).laneEnter m 12) s

/-- The receiver's own request (R321): it stands until it is answered, then holds until the status returns to 0; the receiver is ready
when the eye no longer improves or after 256 requests. Which tap it asks for next is the adaptation's, a free value. -/
def State.ownRequest (s : State) (n : Nat) (w : BitVec 64) (eyeDone : Bool) : State :=
  let x := s.laneL n
  match x.req with
  | some (i, _) =>
    let st := w.extractLsb' (22 + 2 * (i % 3)) 2
    if x.answered then if st = 0 then s.setLane n { x with req := none, answered := false } else s
    else if st ≠ 0 then s.setLane n { x with answered := true } else s
  | none =>
    if x.rxReady then s
    else if eyeDone || decide (256 ≤ x.reqs) then s.setLane n { x with rxReady := true }
    else
      let d := s.draw
      d.2.setLane n { x with req := some (d.1 % 4, d.1 / 4 % 16), reqs := x.reqs + 1 }

/-- A training word in TRAIN (R321). -/
def State.trainWord (s : State) (n : Nat) (w : BitVec 64) (eyeDone : Bool) : State :=
  let s := (List.range 3).foldl (fun s i => s.tapRequest n w i) s
  let s := s.ownRequest n w eyeDone
  let x := s.laneL n
  s.setLane n { x with both := if x.rxReady && w.getLsbD 32 then x.both + 1 else 0 }

/-- A training word at a spare or a new lane during a substitution (R331, R335): the partner's request moves logical lane kk onto the
spare, with the old pair as the new spare; subst_ack is noted, and so is a request of the partner's own, which is answered. -/
def State.substWord (s : State) (n : Nat) (w : BitVec 64) : State :=
  let g := n / 5
  let kk := (w.extractLsb' 12 2).toNat
  let x := s.grpG g
  if ! w.getLsbD 14 then s
  else
    match x.sub with
    | some u =>
      if u.k = kk ∧ ! u.kept then s.setGrp g { x with sub := some { u with ack := u.ack || w.getLsbD 15, asked := u.asked || ! w.getLsbD 15 } } else s
    | none =>
      if s.laneLogical n ≠ 4 ∨ ! s.grpAuto g ∨ ! s.grpTrain g ∨ ! (s.inService g).contains kk then s
      else
        let old := s.get (F.GRP_MAP_phys g kk)
        let s := s.laneMove g kk (n % 5)
        let s := ((s.put (F.GRP_MAP_spare g) old).put (F.GRP_MAP_spare_none g) 0).put (F.LANE_STS_logical (5 * g + old)) 4
        let s := s.setGrp g { s.grpG g with sub := some { k := kk, old := old, declared := false, ack := w.getLsbD 15 } }
        s.laneEnter (5 * g + old) 0xD

/-- A training word whose CRC holds, at a lane in a state of Table 11.2. -/
def State.trainingTaken (s : State) (n : Nat) (w : BitVec 64) (eyeDone : Bool) (st marks : Nat) : State :=
  let g := n / 5
  match st with
  | 4 =>
    let s := s.setLane n { s.laneL n with marks := marks + 1 }
    if marks + 1 < 16 then s
    else if s.grpBonded g ∧ s.laneLogical n < 4 then (s.laneEnter n 5).orderCheck g n
    else s.trainEnter n
  | 5 => s.orderCheck g n
  | 6 => s.trainWord n w eyeDone
  | 7 => s.substWord n w
  | _ => s

/-- TRAINING_FRAME_RECEIVED (R319 to R321, R331): the training word `w` behind the receiver's present inversion; `ctl` says that its header
was 0b10; `eyeDone` that the eye height no longer improves. A word that fails its CRC is ignored; the lane's next frame carries its answer. -/
def execTrainingFrameReceived (n : Fin 60) (w : BitVec 64) (ctl eyeDone : Bool) (s : State) : Out :=
  let g := n.val / 5
  let st := s.laneState n
  let x := s.laneL n
  if isPcie g ∨ ! s.grpTrain g then .next s
  else if ! ctl then
    if st = 4 ∧ w.extractLsb' 0 8 = 0x3A then
      .next ((s.put (F.LANE_STS_pol_inv n) (1 - s.get (F.LANE_STS_pol_inv n))).setLane n { x with marks := 0 })
    else .next s
  else if w.extractLsb' 0 8 ≠ 0xC5 then .next (if st = 4 then s.setLane n { x with marks := 0 } else s)
  else if ! trainingOk w then .next s
  else
    let s := s.setLane n { x with partner := some (w.extractLsb' 8 3).toNat }
    .next ((s.trainingTaken n w eyeDone st x.marks).laneShow n)

/-- TRAIN_REQUEST_TIMEOUT (R321). -/
def execTrainRequestTimeout (n : Fin 60) (s : State) : Out :=
  let x := s.laneL n
  if s.laneState n = 6 ∧ x.req.isSome ∧ ! x.answered then .next ((s.raiseLim 1000 0x0807 n n).laneAttempt n 7) else .next s

/-- LANE_TRAIN_COMPLETE (R321, R329): 16 frames in a row with both sides ready have passed and 16 more are sent; the taps, CTLE and DFE are
stored; a spare enters STANDBY. The scrambler's first state, and where the PRBS31 stands, are free values. -/
def execLaneTrainComplete (n : Fin 60) (s : State) : Out :=
  if s.laneState n ≠ 6 ∨ (s.laneL n).both < 16 then .next s
  else
    let t := (s.rd (R.LANE_FFE n)).extractLsb' 0 15
    let d := s.draw
    let s := d.2.setLane n { d.2.laneL n with prbs := BitVec.ofNat 31 (d.1 / 2 ^ 58) }
    let s := (List.range 16).foldl (fun s _ => s.laneFrame n (s.trainingWord n)) s
    let s := s.setLane n { s.laneL n with stored := some t, eqStored := some (s.laneL n).eq, scr := BitVec.ofNat 58 d.1 }
    .next (s.laneEnter n (if s.laneLogical n = 4 then 0xD else 7))

/-- A substitution cut to its assignment is complete once its new lane is READY (R335). -/
def State.keptDone (s : State) (g : Nat) : State :=
  if (s.grpG g).sub.any (fun u => u.kept && s.laneState (s.lanePhys g u.k) == 9) then s.substDone g else s

/-- A lane that is aligned goes on: to DESKEW in a bonded or Peloton group, else to READY. A lane of a substitution waits for the switch. -/
def State.alignDone (s : State) (n : Nat) : State :=
  if s.laneInSubst n ∨ s.laneLogical n = 4 then s
  else if s.grpBonded (n / 5) then (s.laneEnter n 8).put (F.LANE_STS_align_lock n) 1
  else (s.laneEnter n 9).keptDone (n / 5)

/-- LANE_ALIGN_LOCK (R324): block or comma lock; raw lanes have none. -/
def execLaneAlignLock (n : Fin 60) (s : State) : Out :=
  if s.laneState n ≠ 7 ∨ s.grpRaw (n.val / 5) then .next s
  else .next ((s.put (F.LANE_STS_align_lock n) 1).alignDone n |>.put (F.LANE_STS_align_lock n) 1)

/-- LANE_DESKEW_DONE (R324): `skew` in blocks. -/
def execLaneDeskewDone (g : Fin 12) (skew : BitVec 8) (s : State) : Out :=
  let ns := (s.inService g).map (s.lanePhys g ·)
  if ! s.grpBonded g ∨ ! ns.any (fun n => s.laneState n == 8) ∨ ! ns.all (fun n => s.laneState n == 8 || s.laneState n == 9) then .next s
  else if skew.toNat ≤ 16 then
    let s := ns.foldl (fun s n => (s.laneEnter n 9).put (F.LANE_STS_align_lock n) 1) s
    .next (if (s.grpG g).sub.any (fun u => s.laneState (s.lanePhys g u.k) == 9) then s.substDone g else s)
  else
    let s := s.put (F.GRP_STS_deskew_err g) 1
    .next (ns.foldl (fun s n => if s.laneState n = 8 then s.laneAttempt n 8 else (s.put (F.LANE_STS_fail_cause n) 8).laneEnter n 12) s)

/-- LANE_STATE_TIMEOUT (R317, R318): a bounded state has lasted too long; ALIGN has no bound in raw mode. -/
def execLaneStateTimeout (n : Fin 60) (s : State) : Out :=
  match s.laneState n with
  | 1 =>
    let s := (s.put (F.LANE_STS_fail_cause n) 9).laneEnter n 12
    .next (s.setLane n { s.laneL n with pllLate := true })
  | 3 => .next (s.laneAttempt n 2)
  | 4 => .next (s.laneAttempt n 3)
  | 5 => .next (s.laneAttempt n 6)
  | 6 => .next (s.laneAttempt n 7)
  | 7 => .next (if s.grpRaw (n.val / 5) then s else s.laneAttempt n 3)
  | 8 => .next (s.laneAttempt n 8)
  | _ => .next s

/-- LANE_RETRY (R318): not after an illegal order or a lane failure, and not while the group PLL is unlocked. -/
def execLaneRetry (n : Fin 60) (s : State) : Out :=
  if s.laneState n ≠ 12 ∨ (s.laneL n).heldFail ∨ ! s.laneEnabled n ∨ ! s.on (F.GRP_STS_pll_lock (n.val / 5)) then .next s
  else .next ((s.sat (F.LANE_STS_attempts n)).laneStart n)

/-- A lane whose PLL has locked: one in PLL goes on, one that leaves DEEP from its clock recovery; one that failed restarts, which counts where
the PLL bound had passed (R313, R318, R328). -/
def State.lanePllLocked (s : State) (n : Nat) : State :=
  if s.laneState n = 1 ∧ (s.laneL n).woken then s.laneEnter n 3
  else if (s.laneL n).pllLate then (s.sat (F.LANE_STS_attempts n)).laneStart n
  else s.laneStart n

/-- GROUP_PLL_LOCK (R313, R317). -/
def execGroupPllLock (g : Fin 12) (s : State) : Out :=
  if isUserGrp g ∧ ! (s.grpG g).live then .next s
  else
    let s := s.put (F.GRP_STS_pll_lock g) 1
    .next ((List.range 5).foldl (fun s i =>
      let n := 5 * g.val + i
      if isPcie g then s
      else if (s.laneState n = 1 ∨ (s.laneState n = 12 ∧ s.get (F.LANE_STS_fail_cause n) = 9)) ∧ s.laneEnabled n ∧ s.laneMayRun g
      then s.lanePllLocked n else s) s)

/-- GROUP_PLL_LOST (R313, R335, R337): every lane of the group that runs fails with cause 9, and event 0x080C is raised for it; a substitution
keeps its assignment, and a PCI Express link leaves L0. -/
def execGroupPllLost (g : Fin 12) (s : State) : Out :=
  if ! s.on (F.GRP_STS_pll_lock g) then .next s
  else
    let s := s.substKeep g
    let s := if isPcie g then s.linkRecover else s
    let s := (s.put (F.GRP_STS_pll_lock g) 0).put (F.GRP_STS_pll_lost g) 1
    let s := (List.range 5).foldl (fun s i =>
      let n := 5 * g.val + i
      if s.laneState n = 0 then s else ((s.put (F.LANE_STS_fail_cause n) 9).laneEnter n 12).raiseLim 1000 0x080C n n) s
    .next s

/-- FILLER_RECEIVED (R316, R328): a filler arrives with the buffer at a fill of 0 to 32 blocks. It is also the first filler after a
partner's low-power state, which a group takes whether or not it matches rates. -/
def execFillerReceived (n : Fin 60) (fill : Fin 33) (s : State) : Out :=
  let st := s.laneState n
  let s := if ! isPcie (n.val / 5) ∧ ! s.grpRaw (n.val / 5) ∧ 9 ≤ st ∧ st ≤ 11 then s.put (F.LANE_STS_rx_pwr n) 0 else s
  if ! s.rateMatched (n.val / 5) ∨ st ≠ 9 then .next s
  else
    let f := fill.val
    if f = 0 ∨ f = 32 then
      let s := ((s.sat (F.LANE_ERR_elastic n)).put (F.LANE_RM_fill n) 16).raiseLim 1000 0x0809 n n
      if f = 0 then
        let d := s.draw
        .next (d.2.inc (F.LANE_RM_CNT_repeated n) d.1)
      else .next s
    else if 16 < f then .next ((s.inc (F.LANE_RM_CNT_deleted n)).put (F.LANE_RM_fill n) (f - 1))
    else if f < 16 then .next ((s.inc (F.LANE_RM_CNT_repeated n)).put (F.LANE_RM_fill n) (f + 1))
    else .next (s.put (F.LANE_RM_fill n) f)

/-- LANE_RX_WORD (R315, R325): a word of a user lane with its side band; the tag carries the logical lane in an independent group. On a lane of a
bonded group it is one block, in data bits [63:0], or one character, in bits [7:0], with tag bit 2 at 1 for a control block or a K
character. -/
def execLaneRxWord (n : Fin 60) (d : BitVec 128) (sb : BitVec 16) (s : State) : Out :=
  let g := n.val / 5
  let x := s.laneL n
  if ! isUserGrp g ∨ s.laneState n ≠ 9 ∨ 3 < s.laneLogical n then .next s
  else if 64 ≤ x.rx.length then .next ((s.sat (F.LANE_ERR_rx_drop n)).raiseLim 1000 0x0808 n n)
  else
    let k := if s.on (F.GRP_STS_reversed g) then 3 - s.laneLogical n else s.laneLogical n
    let tag := if s.grpBonded g then sb &&& 0x4000 else (sb &&& 0xCF03) ||| BitVec.ofNat 16 (4096 * k)
    let tag := if s.grp8b g ∨ s.grpBonded g then tag else tag ||| 3
    .next (s.setLane n { x with rx := x.rx ++ [(d, tag)] })

/-- LANE_FAILURE (R318, R330): causes 1 signal, 2 clock recovery, 3 lock, 4 errors; 0 is a code or header error below those limits, which
counts. Signal lost after a notice is no failure; raw lanes know causes 1 and 2 only. -/
def execLaneFailure (n : Fin 60) (cause : Fin 5) (s : State) : Out :=
  let st := s.laneState n
  let g := n.val / 5
  if s.grpRaw g ∧ (cause.val = 0 ∨ 2 < cause.val) then .next s
  else if cause.val = 0 then .next (if ! isPcie g ∧ st = 9 then s.sat (F.LANE_ERR_code_err n) else s)
  else if st = 9 then
    if cause.val = 1 ∧ s.get (F.LANE_STS_rx_pwr n) ≠ 0 then .next s else .next (s.laneFailed n cause)
  else if 3 ≤ st ∧ st ≤ 8 ∧ cause.val ≤ 2 then
    if s.laneInSubst n then .next (s.laneFailed n cause) else .next (s.laneAttempt n cause)
  else .next s

/-- The new lane of a substitution is aligned (R331): by its lock, or in raw mode, which has none, by a training word that it has read (log entry
161). -/
def State.substAligned (s : State) (n : Nat) : Bool :=
  s.on (F.LANE_STS_align_lock n) || (s.grpRaw (n / 5) && (s.laneL n).partner.isSome)

/-- SUBSTITUTION_SWITCH (R331, step 6): both sides have seen subst_ack and the new lane is aligned. -/
def execSubstitutionSwitch (g : Fin 12) (s : State) : Out :=
  match (s.grpG g).sub with
  | none => .next s
  | some u =>
    let n := s.lanePhys g u.k
    if ! u.ack ∨ u.kept ∨ ! s.substAligned n ∨ s.laneState n ≠ 7 then .next s
    else if s.grpBonded g then .next ((s.laneEnter n 8).put (F.LANE_STS_align_lock n) 1)
    else .next (((s.laneEnter n 9).putB (F.LANE_STS_align_lock n) (! s.grpRaw g)).substDone g)

/-- SUBSTITUTION_TIMEOUT (R332): the partner has not answered. -/
def execSubstitutionTimeout (g : Fin 12) (s : State) : Out :=
  match (s.grpG g).sub with
  | some u => if u.declared ∧ ! u.ack ∧ s.laneState (s.lanePhys g u.k) ≠ 9 then .next (s.substFail g false) else .next s
  | none => .next s

/-- PCIE_LANE_FAILOVER (R312, R323, R332, R333): a lane has failed under R330 or by report of the link layer; its pads move onto the spare
transceiver, with the stored equaliser values, and the link goes into Recovery; with no spare the lane is retired and the link retrains
narrower. A lane that is FAILED only because the link is not in L0 has not failed. -/
def execPcieLaneFailover (n : Fin 60) (s : State) : Out :=
  let g := n.val / 5
  let k := s.laneLogical n
  if ! isPcie g ∨ (s.laneState n ≠ 9 ∧ ! (s.laneL n).heldFail) ∨ 3 < k then .next s
  else
    match s.spareLane g with
    | none => .next (s.laneRetire g k)
    | some sp =>
      let x := s.laneL n
      let s := s.setLane n { x with heldFail := false }
      let s := (s.laneMove g k (sp % 5)).setLane sp { s.laneL sp with eq := x.eq, eqStored := x.eqStored, stored := x.stored }
      let s := (s.setTaps sp (s.taps n)).setGrp g { s.grpG g with sub := some { k := k, old := n.val % 5, declared := true, ack := true } }
      .next ((s.substDone g).linkRecover)

/-- LANE_RESTART (R318): a write of LANE_CTL.restart. -/
def execLaneRestart (n : Fin 60) (s : State) : Out :=
  if isPcie (n.val / 5) then .next s else .next ((s.laneRestart n).portTrain (n.val / 5))

/-- A write of GRP_CTL.restart; during a substitution the assignment of step 2 stays (R335). -/
def State.grpRestart (s : State) (g : Nat) : State :=
  if isPcie g then s
  else
    let s := s.substKeep g
    ((List.range 5).foldl (fun s i => s.laneRestart (5 * g + i)) s).portTrain g

/-- GROUP_RESTART (R318). -/
def execGroupRestart (g : Fin 12) (s : State) : Out := .next (s.grpRestart g)

/-- LANE_SLIP (R324): raw lanes only. -/
def State.laneSlip (s : State) (n : Nat) : State :=
  if s.grpRaw (n / 5) then s.setLane n { s.laneL n with slips := (s.laneL n).slips + 1 } else s
def execLaneSlip (n : Fin 60) (s : State) : Out := .next (s.laneSlip n)

/-- LANE_ALIGNED (R324): ends ALIGN in raw mode. -/
def State.laneAligned (s : State) (n : Nat) : State :=
  if s.grpRaw (n / 5) ∧ s.laneState n = 7 then s.alignDone n else s
def execLaneAligned (n : Fin 60) (s : State) : Out := .next (s.laneAligned n)

/-- A write of LANE_CTL.substitute (R334). -/
def State.laneSubstitute (s : State) (n : Nat) : State :=
  let g := n / 5
  let k := s.laneLogical n
  match s.spareLane g with
  | none => s
  | some sp =>
    if isPcie g ∨ (s.grpAuto g ∧ s.grpTrain g) ∨ s.laneState n ≠ 12 ∨ 3 < k ∨ s.laneState sp ≠ 0xD then s
    else ((s.laneMove g k (sp % 5)).morSubstituted 5 g (256 * k + sp % 5) 0x0802 |>.oldRetire g (n % 5)).laneStart sp

/-- LANE_SUBSTITUTE (R334). -/
def execLaneSubstitute (n : Fin 60) (s : State) : Out := .next (s.laneSubstitute n)

/-- A write of LANE_CTL.power (R328): notices before the lane goes quiet; from IDLE 8 fillers, from DEEP bring-up from the clock recovery with
the stored state, once the PLL runs. -/
def State.lanePower (s : State) (n v : Nat) : State :=
  let g := n / 5
  let st := s.laneState n
  if ! isUserGrp g ∨ s.grpRaw g ∨ ¬ (9 ≤ st ∧ st ≤ 11) then s.put (F.LANE_STS_pwr_refused n) 1
  else
    let s := s.put (F.LANE_CTL_power n) v
    let goal := if v = 1 then 10 else if v = 2 then 11 else 9
    if st = goal then s
    else if st = 9 then (s.laneNotices n (goal == 11)).laneEnter n goal
    else if st = 11 then
      let s := s.setLane n { s.laneL n with woken := true, eq := (s.laneL n).eqStored.getD (s.laneL n).eq }
      s.laneEnter n (if s.on (F.GRP_STS_pll_lock g) then 3 else 1)
    else if goal = 9 then (s.laneExit n).laneEnter n 9
    else s.laneEnter n goal

/-- LANE_POWER_REQUEST (R328). -/
def execLanePowerRequest (n : Fin 60) (v : BitVec 2) (s : State) : Out := .next (s.lanePower n v.toNat)

/-- ASPM L1 (R323): the link leaves L0 for L1, its lanes as in DEEP, where the group PLLs stop (R328). -/
def State.linkL1 (s : State) : State :=
  let s := { s.pcieLanes [] with hif := { s.hif with link := .l1 } }
  (s.put (F.GRP_STS_pll_lock 0) 0).put (F.GRP_STS_pll_lock 1) 0

/-- POWER_NOTICE_RECEIVED (R328); in G0 and G1 the partner's entry to ASPM L1 (R323; log entry 131). -/
def execPowerNoticeReceived (n : Fin 60) (deep : Bool) (s : State) : Out :=
  let g := n.val / 5
  if isPcie g then .next (if deep ∧ s.hif.link = .l0 then s.linkL1 else s)
  else if ! isUserGrp g ∨ s.grpRaw g ∨ s.laneState n < 9 ∨ 11 < s.laneState n then .next s
  else .next (s.put (F.LANE_STS_rx_pwr n) (if deep then 2 else 1))

/-- The CTLE and DFE of a lane after a window (R326): they adapt in a window that qualifies; in others only in every 16th, each value held
within 2 steps of that of the last window that qualified. -/
def Lane.adapted (x : Lane) (q : Bool) (new : List Int) : Lane :=
  if q then { x with eq := new, eqQual := new, slow := 0 }
  else if x.slow % 16 = 15 then { x with eq := List.zipWith (fun a v => max (a - 2) (min (a + 2) v)) x.eqQual new, slow := 0 }
  else { x with slow := x.slow + 1 }

/-- ADAPT_WINDOW (R326): the share of transitions in percent and whether the blocks were fillers only. -/
def execAdaptWindow (n : Fin 60) (transitions : Fin 101) (fillers : Bool) (s : State) : Out :=
  if s.laneState n ≠ 9 then .next s
  else
    let q := decide (30 ≤ transitions.val) && (s.grpRaw (n.val / 5) || ! fillers)
    let s := (s.putB (F.LANE_STS_qualified n) q).putB (F.LANE_STS_clamped n) (! q)
    let d := s.draw
    .next (d.2.setLane n ((d.2.laneL n).adapted q (Config.eqTaps d.1)))

/-- A write of LANE_ES_CTL.start (R327). -/
def State.eyeStart (s : State) (n : Nat) : State :=
  if s.on (F.LANE_ES_CTL_start n) then s else (s.put (F.LANE_ES_CTL_start n) 1).put (F.LANE_ES_CTL_done n) 0

/-- Margining of a lane of G0 or G1 by the host begins with its offset sampler, where no scan uses it (R323, R327). -/
def State.marginStart (s : State) (n : Nat) : State :=
  if isPcie (n / 5) ∧ s.hif.link = .l0 ∧ s.laneState n = 9 ∧ ! s.on (F.LANE_ES_CTL_start n) then s.setLane n { s.laneL n with margin := true } else s

/-- EYE_SCAN_START (R327); `margin` says that the host starts to margin the lane (log entry 131). A scan requested during margining waits. -/
def execEyeScanStart (n : Fin 60) (s : State) (margin : Bool := false) : Out := .next (if margin then s.marginStart n else s.eyeStart n)

/-- EYE_SCAN_DONE (R327): the disagreements counted over the 2^(20 + dwell) bits of the scan. While the host margins the lane it is margining
that ends, and a scan that waited for it begins. -/
def execEyeScanDone (n : Fin 60) (errors : BitVec 48) (s : State) : Out :=
  if (s.laneL n).margin then .next (s.setLane n { s.laneL n with margin := false })
  else if ! s.on (F.LANE_ES_CTL_start n) then .next s
  else
    let bits := 2 ^ (20 + min 22 (s.get (F.LANE_ES_CTL_dwell n)))
    let s := (s.put (F.LANE_ES_ERR_errors n) (min (min errors.toNat bits) (2 ^ 32 - 1))).put (F.LANE_ES_CTL_done n) 1
    .next ((s.put (F.LANE_ES_CTL_start n) 0).raiseLim 1000 0x080A n n)

/-- EYE_MONITOR (R327): the eye of a READY lane with no scan running; another lane has no measurement of the last 100 ms. -/
def execEyeMonitor (n : Fin 60) (height width : BitVec 8) (s : State) : Out :=
  if s.laneState n = 9 ∧ ! s.on (F.LANE_ES_CTL_start n) then
    .next (((s.put (F.LANE_EYE_height n) height.toNat).put (F.LANE_EYE_width n) width.toNat).put (F.LANE_EYE_valid n) 1)
  else .next (s.put (F.LANE_EYE_valid n) 0)

end Sys2Proof.Machine
end

