-- ==== Sys2Proof/Machine/PelNet.lean ====
section
/-! DEFINITION. The Peloton as a network: enumeration (R352), phase frames (R362 to R364), lead and alternate (R366 to R368), arrival of
frames (R348, R349, R355). -/

namespace Sys2Proof.Machine

/-! ## Addresses -/

/-- An address taken (R351, R352). -/
def State.takeAddr (s : State) (a : Nat) : State :=
  let same := s.hasAddr && s.get F.PEL_ADDR_addr == a
  let s := (s.put F.PEL_ADDR_addr a).put F.PEL_ADDR_valid 1
  if same then s else s.raiseLim 1000 0x0906 0 a

/-- The strap lead takes the lead role (R366, R368): address 0, an epoch, its sequence from 0; from then on ENUM frames find it as lead. -/
def State.takeLead (s : State) (epoch : BitVec 8) : State :=
  let s := (s.takeAddr 0).put F.PEL_ADDR_is_lead 1
  s.setPel { s.pel with listening := false, yielded := false, epoch := epoch, seq := 0 }

/-! ## PHASE frames -/

/-- The byte fields of a PHASE payload (Table 12.7). -/
structure Phase where
  angle : BitVec 32
  turn : BitVec 32
  vel : BitVec 32
  state : Nat
  epoch : BitVec 8
  seq : BitVec 16
  ring : Nat
  age : Nat
  deriving DecidableEq, Repr

def Phase.ofBytes (bs : List Byte) : Phase := {
  angle := BitVec.ofNat 32 (fieldAt bs 0 4), turn := BitVec.ofNat 32 (fieldAt bs 4 4), vel := BitVec.ofNat 32 (fieldAt bs 8 4)
  state := fieldAt bs 12 1 % 8, epoch := BitVec.ofNat 8 (fieldAt bs 13 1), seq := BitVec.ofNat 16 (fieldAt bs 14 2)
  ring := fieldAt bs 16 8, age := fieldAt bs 24 8 }

def Phase.bytes (f : Phase) : List Byte :=
  le 4 f.angle.toNat ++ le 4 f.turn.toNat ++ le 4 f.vel.toNat ++ le 1 f.state ++ le 1 f.epoch.toNat ++ le 2 f.seq.toNat ++
    le 8 f.ring ++ le 8 f.age

/-- The frame of a PHASE payload: the end-to-end check takes the age as 0 (R362). -/
def Phase.frame (f : Phase) (src hops : Nat) : PFrame :=
  let h : PFrame := { dst := 0xFFF, src := src, len := 32, vc := 0, type := 0, hops := hops, payload := { f with age := 0 }.bytes }
  { h with payload := f.bytes, e2e := h.check }

/-- A PHASE frame on one port, at the cost of 1 credit; while VC 0 is held for a ledger it waits (R360; log entry 158). -/
def State.phaseOut (s : State) (p : Nat) (f : PFrame) : State :=
  let x := s.portP p
  if ! s.portUp p then s
  else if x.hold.getLsbD 0 then s.setPort p { x with phases := x.phases ++ [f] }
  else if vcGet x.txCr 0 = 0 then s
  else ((s.pelSpend p 0 1).pelRecord p 0xE5 f false).inc (F.PEL_FRAMES_TX_count p)

/-- The VCs held for a ledger after a write of PEL_PCTL.quiesce: those that it clears are released, and their frames go (R360). -/
def State.holdRelease (s : State) (p : Nat) : State :=
  let x := s.portP p
  let hold := x.hold &&& BitVec.ofNat 4 (s.get (F.PEL_PCTL_quiesce p))
  if hold.getLsbD 0 then (s.setPort p { x with hold := hold }).serve p
  else (x.phases.foldl (fun s f => s.phaseOut p f) (s.setPort p { x with hold := hold, phases := [] })).serve p

/-- The lead sends a PHASE frame out every UP port in its role (R226, R362). -/
def State.phaseSend (s : State) : State :=
  let t := s.get F.CAD_PEL_CTL_tx_track
  let en := s.on F.CAD_PEL_CTL_tx_en && s.trkState t != 0
  let pos := (s.trkT t).position
  let f : Phase := {
    angle := if en then pos.extractLsb' 0 32 else 0, turn := if en then pos.extractLsb' 32 32 else 0
    vel := if en then BitVec.ofInt 32 (s.velocity t) else 0, state := if en then s.trkState t else 0
    epoch := s.pel.epoch, seq := s.pel.seq, ring := s.updates * 4000, age := 0 }
  let s := s.setPel { s.pel with seq := s.pel.seq + 1 }
  let fr := f.frame (s.get F.PEL_ADDR_addr) 0
  (s.rolePorts.filter (s.portUp ·)).foldl (fun s p => s.phaseOut p fr) s

/-- The compensated path delay of a frame in picoseconds: age + d of the arrival port. -/
def State.pathDelay (s : State) (p : Nat) (f : Phase) : Nat := f.age + s.get (F.PEL_DELAY_delay p)

/-- A PELOTON source takes a frame as a measurement at its arrival stamp, to the nearest count (R5, R227); HALT or OFF of the lead's track loses the source. -/
def State.phaseMeasure (s : State) (n stamp delay : Nat) (f : Phase) : State :=
  if ! s.on (F.CAD_SRC_CTL_enable n) ∨ s.get (F.CAD_SRC_CTL_type n) ≠ 5 then s
  else if f.state = 0 ∨ f.state = 4 then if s.srcValid n then s.sourceLost n else s
  else
    let x : BitVec 64 := f.turn ++ f.angle
    let x := x + BitVec.ofInt 64 ((f.vel.toInt * delay + 4096 * 2000) / (4096 * 4000))
    (s.setSrcX n (x ++ (0 : BitVec 12))).measured n stamp

/-- A frame is accepted (R363): its epoch is not older than the newest seen, that of a lead's own frames among them, and its seq is newer than
the last of that epoch. -/
def State.phaseNew (s : State) (f : Phase) : Bool :=
  let e := (f.epoch - BitVec.ofNat 8 (s.get F.PEL_PHASE_epoch)).toInt
  (! s.leads || decide (0 ≤ (f.epoch - s.pel.epoch).toInt)) &&
    s.pel.lastSeq.all (fun q => decide (0 < e) || (e == 0 && decide (0 < (f.seq - q).toInt)))

/-- The lead, the acting lead or a listening strap lead yields to another sender, whose frame came on port p (R366, R368). -/
def State.phaseYield (s : State) (p : Nat) (newer : Bool) : State :=
  if s.pel.listening then (s.setPel { s.pel with listening := false, yielded := true }).raiseLim 1000 0x0909 p p
  else if newer ∧ s.leads then
    ((s.put F.PEL_ADDR_is_lead 0).put F.PEL_ADDR_acting_lead 0).raiseLim 1000 0x0909 p p
  else s

/-- The ring time now, in picoseconds: it counts on from ring_time + age + d of the last accepted frame with the updates since then (R363;
log entry 159). -/
def State.ringTime (s : State) : Option Nat := s.pel.ring.map (fun r => r.1 + 4000 * (s.updates - r.2))

/-- PEL_RTIME shows the ring time. -/
def State.ringShow (s : State) : State :=
  match s.ringTime with
  | none => s
  | some r => (s.wr R.PEL_RTIME_LO (BitVec.ofNat 32 r)).wr R.PEL_RTIME_HI (BitVec.ofNat 32 (r / 2 ^ 32))

/-- The count of updates is about to start again at 0 with a LOCK phase: the ring time counts on. -/
def State.ringRebase (s : State) : State := s.setPel { s.pel with ring := s.ringTime.map (fun r => (r, 0)) }

/-- A PHASE frame has arrived with both checks good: taken, used and forwarded, or neither. `t` is the time from its arrival stamp to its
departure stamp in picoseconds. -/
def State.phaseArrive (s : State) (p : Nat) (h : PFrame) (f : Phase) (stamp t : Nat) : State :=
  if ! s.phaseNew f ∨ (s.ownAddr h.src ∧ s.leads) then s
  else
    let newer := decide (0 < (f.epoch - (if s.leads then s.pel.epoch else BitVec.ofNat 8 (s.get F.PEL_PHASE_epoch))).toInt)
    let delay := s.pathDelay p f
    let s := s.setPel { s.pel with lastSeq := some f.seq, ring := some (f.ring + delay, s.updates) }
    let s := ((s.put F.PEL_PHASE_epoch f.epoch.toNat).put F.PEL_PHASE_port p).put F.PEL_PHASE_hops h.hops
    let s := s.put F.PEL_AGE_age delay
    let s := s.ringShow
    let s := s.phaseYield p newer
    let s := (List.range 4).foldl (fun s n => s.phaseMeasure n stamp delay f) s
    let fr := { f with age := delay + t }.frame h.src h.hops
    (s.rolePorts.filter (fun q => q != p && s.portUp q)).foldl (fun s q => s.phaseOut q { fr with wrapped := h.wrapped }) s

/-! ## Arrival of frames -/

/-- A forwarded frame that a module drops for its hop count or its own source (R355). -/
def State.hopsSpent (s : State) (f : PFrame) : Bool :=
  decide (4095 ≤ f.hops + 1) || (s.isRing && s.get F.PEL_ADDR_members != 0 && decide (2 * s.get F.PEL_ADDR_members < f.hops + 1)) ||
    s.ownAddr f.src

/-- What takes a frame for this module: a queue, the supervisor, or nothing (R349, R356, R357). -/
def State.takerOf (s : State) (p : Nat) (f : PFrame) : Option (Option Nat) :=
  if f.vc = 3 ∧ f.type < 8 then some none
  else if f.vc ≠ 3 ∧ ! s.running then none
  else (s.pelQueue p f.vc).map some

/-- The frame is for this module: its own address, a broadcast, or a frame of the enumeration, which goes from neighbour to neighbour. -/
def State.frameMine (s : State) (f : PFrame) : Bool :=
  f.dst == 0xFFF || s.ownAddr f.dst || (f.vc == 3 && decide (f.type < 2))

/-- A header has arrived (R348 to R355): the frame is in the buffer, its ways are chosen, cut-through starts where it can. -/
def State.frameHdr (s : State) (p : Nat) (f : PFrame) : State :=
  let x := s.portP p
  let id := x.nextId
  let cost := frameCost f.len
  let mine := s.frameMine f
  let pass := ! s.ownAddr f.dst && ! (f.vc == 3 && decide (f.type < 2))
  if 256 < f.len ∨ f.vc = 0 then
    (s.setPort p { x with rx := some { f := f, id := id, drop := true }, buf := x.buf ++ [⟨f, id, cost, 1⟩], nextId := id + 1 })
  else
    let r : List Nat × Option Nat := if pass && ! s.hopsSpent f then s.route f (some p) else ([], none)
    let lost := pass && (if f.dst = 0xFFF then s.ownAddr f.src || (s.hopsSpent f && ! (s.route f (some p)).1.isEmpty) else r.1.isEmpty)
    let taken := mine && ! (f.dst == 0xFFF && s.ownAddr f.src)
    let taker := if taken then s.takerOf p f else none
    let unbound := taken && taker.isNone && (f.vc == 3 || s.running)
    let s := match r.2 with | some q => s.pelWrap q | none => s
    let first := x.buf.all (fun b => b.f.vc != f.vc)
    let cut := if first then r.1.filter (fun q => s.pelCanStart q f.vc cost) else []
    let opened := first && f.len != 0 && taker.join.any s.pelQueueFree
    let left := r.1.length + (if taker.isSome then 1 else 0)
    let rx : RxFrame := { f := f, id := id, cut := cut, held := r.1.filter (fun q => ! cut.contains q)
                          queue := taker.join, mgmt := taker == some none
                          drop := lost || (taken && taker.isNone && ! unbound), unbound := unbound, turned := r.2.isSome, opened := opened }
    let s := s.setPort p { x with rx := some rx, buf := x.buf ++ [⟨f, id, cost, max 1 left⟩], nextId := id + 1 }
    let s := cut.foldl (fun s q =>
      let s := s.pelSpend q f.vc cost
      s.setPort q { s.portP q with busy := some p }) s
    match rx.queue with
    | some q => if opened then s.xqFeed q (f.words.take 1) else s
    | none => s

/-- The words of a frame for its queue: with its last word where both checks pass, else closed by an ABT marker in place of the last word
(R349). Of a payload that is cut short only whole words have come. -/
def RxFrame.item (r : RxFrame) (f : PFrame) (good : Bool) : List (BitVec 128 × BitVec 16) :=
  if good then withEoi f.words
  else
    let n := min (if f.payload.length = f.len then (f.len + 15) / 16 else f.payload.length / 16) ((r.f.len + 15) / 16 - 1)
    f.words.take (1 + n) ++ [((0 : BitVec 128), (abtMarker (BitVec.ofNat 4 r.f.type)).sb)]

/-- The words of a frame go to its queue: behind its header word where that has been pushed, else whole once its turn has come (R349, R357).
A frame without payload whose checks fail leaves nothing there. -/
def State.frameItem (s : State) (p q : Nat) (r : RxFrame) (f : PFrame) (good : Bool) : State :=
  if r.opened then s.pelDeliver p q r.id ((r.item f good).drop 1)
  else if ! good ∧ r.f.len = 0 then s.bufLeave p r.id
  else s.pelLate p ⟨r.id, some q, r.item f good, f⟩

/-- A whole frame is given up: cut parts end stomped, an open item is closed by an ABT marker. -/
def State.frameBad (s : State) (p : Nat) (r : RxFrame) : State :=
  let out := { r.f with wrapped := r.f.wrapped || r.turned }
  let s := r.cut.foldl (fun (s : State) q => (s.pelFinish q out true).bufLeave p r.id) s
  let s := r.held.foldl (fun (s : State) _ => s.bufLeave p r.id) s
  let s := match r.queue with
    | some q => (s.frameItem p q r r.f false).raiseLim 1000 0x0904 p p
    | none => if r.mgmt then s.bufLeave p r.id else s
  (if r.cut.isEmpty && r.held.isEmpty && r.queue.isNone && ! r.mgmt then s.bufLeave p r.id else s).serve p

/-- A whole frame whose hop CRC holds goes its ways. -/
def State.frameGood (s : State) (p : Nat) (r : RxFrame) (f : PFrame) (e2eOk : Bool) : State :=
  let out := { f with wrapped := f.wrapped || r.turned }
  let s := r.cut.foldl (fun (s : State) q => (s.pelFinish q out false).bufLeave p r.id) s
  let s := r.held.foldl (fun (s : State) q =>
    if s.portUp q then s.enqueue q ⟨out, some (p, r.id)⟩ else s.flushWaiting q ⟨out, some (p, r.id)⟩) s
  let bad (s : State) : State := (s.sat (F.PEL_ERR_e2e p)).raiseLim 1000 0x0904 p p
  let s := match r.queue with
    | some q =>
      (if e2eOk then s else bad s).frameItem p q r f e2eOk
    | none => s
  let s := if r.mgmt then
      if e2eOk then s.pelLate p ⟨r.id, none, [], f⟩ else (bad s).bufLeave p r.id
    else s
  let s := if r.drop then s.pelDrop p else s
  let s := if r.unbound then (s.sat (F.PEL_ERR_dropped p)).raiseLim 1000 0x090D p p else s
  (if r.cut.isEmpty && r.held.isEmpty && r.queue.isNone && ! r.mgmt then s.bufLeave p r.id else s).serve p

/-- A trailer has arrived, or the frame was cut short (R347 to R349). -/
def State.frameTrailer (s : State) (p : Nat) (payload : List Byte) (e2e hop : BitVec 32) (short : Bool) : State :=
  let x := s.portP p
  match x.rx with
  | none => s
  | some r =>
    let s := s.setPort p { x with rx := none }
    let f : PFrame := { r.f with payload := payload, e2e := e2e }
    let ok := hop == f.hopCrc
    let stomped := hop == (f.hopCrc ^^^ 0xFFFFFFFF)
    let s := s.inc (F.PEL_FRAMES_RX_count p)
    if short ∨ payload.length ≠ r.f.len ∨ ! ok then
      (s.sat (if stomped && ! short then F.PEL_ERR_stomped p else F.PEL_ERR_hop_crc p)).frameBad p { r with f := f }
    else s.frameGood p r f (f.check == e2e)

end Sys2Proof.Machine
end

