-- ==== Sys2Proof/Machine/Queues.lean ====
section
/-! DEFINITION. The commands of the crossing queues, the event crossings and the value crossings (chapter 06). -/

namespace Sys2Proof.Machine

/-- The clocked side of a queue runs: bound, its clock not stopped, and that side not in reset. -/
def State.xqClocked (s : State) (q : Nat) (writer : Bool) : Bool :=
  (s.xqBound q).isSome && ! s.on (F.XQ_STS_clk_stopped q) && ! (s.xqQ q).inReset writer

/-- A push of the bound block of an inbound queue, held while the queue is full (R161, R165). -/
def State.xqClockedPush (s : State) (q : Nat) (d : BitVec 128) (sb : BitVec 16) : State :=
  if s.xqStopped q ∨ ! s.xqClocked q true ∨ ! s.xqTakes q sb then s else s.xqPush q d sb

/-- The next word of the internal lane queues of an independent user group, and the state without it. Which lane comes first is open; a free
value picks it. -/
def State.laneNext (s : State) (g : Nat) : Option (State × (BitVec 128 × BitVec 16)) :=
  let d := s.draw
  let k := d.1 % 5
  let ns := ((List.range 5).drop k ++ (List.range 5).take k).map (5 * g + ·)
  ns.findSome? (fun n => (s.laneL n).rx.head?.map (fun w => (d.2.setLane n { d.2.laneL n with rx := (d.2.laneL n).rx.tail }, w)))

/-- The next block or character of a bonded group, in the order of the lanes as they are delivered (R319, R325), and the state without it. -/
def State.bondUnit (s : State) (g : Nat) : Option (State × (BitVec 128 × BitVec 16)) :=
  let x := s.grpG g
  let p := x.rxNext % 4
  let n := s.lanePhys g (if s.on (F.GRP_STS_reversed g) then 3 - p else p)
  match (s.laneL n).rx with
  | [] => none
  | w :: rest => some ((s.setLane n { s.laneL n with rx := rest }).setGrp g { x with rxNext := (p + 1) % 4 }, w)

/-- The word of a bonded 64b/66b group: two blocks, or one where no second has come (Table 11.5). -/
def State.bondBlocks (s : State) (g : Nat) : Option (State × (BitVec 128 × BitVec 16)) :=
  (s.bondUnit g).map (fun r =>
    let lo : BitVec 128 := r.2.1 &&& (2 ^ 64 - 1)
    match r.1.bondUnit g with
    | none => (r.1, (lo, 3 ||| 0x800 ||| r.2.2))
    | some q => (q.1, (lo ||| q.2.1 <<< 64, 3 ||| r.2.2 ||| q.2.2 <<< 1)))

/-- A word of an 8b/10b item from its bytes. -/
def itemWord (soi eoi : Bool) (bs : List Byte) : BitVec 128 × BitVec 16 :=
  (BitVec.ofNat 128 (fieldAt bs 0 16), sbOf soi eoi bs.length 0)

/-- One character of a bonded 8b/10b group: what it makes of the item so far, and the word that it completes (Table 11.5). -/
def itemChar (item : Option (Bool × List Byte)) (k : Bool) (b : Byte) : Option (Bool × List Byte) × Option (BitVec 128 × BitVec 16) :=
  if k then
    if b = 0xFB then (some (true, []), none)
    else if b = 0xFD then
      (none, item.bind (fun i => if i.2.isEmpty then none else some (itemWord i.1 true i.2)))
    else if b = 0xBC ∨ b = 0x1C then (item, none)
    else (item, some (BitVec.ofNat 128 b.toNat, sbOf true true 1 4))
  else
    match item with
    | none => (none, none)
    | some i => if 16 ≤ i.2.length then (some (false, [b]), some (itemWord i.1 false i.2)) else (some (i.1, i.2 ++ [b]), none)

/-- The characters of a bonded 8b/10b group taken until a word is complete. -/
def State.bondChars : Nat → State → Nat → Option (State × (BitVec 128 × BitVec 16))
  | 0, _, _ => none
  | f + 1, s, g =>
    match s.bondUnit g with
    | none => none
    | some r =>
      let c := itemChar (r.1.grpG g).item (r.2.2.getLsbD 14) (r.2.1.setWidth 8)
      let s := r.1.setGrp g { r.1.grpG g with item := c.1 }
      match c.2 with
      | some w => some (s, w)
      | none => State.bondChars f s g

/-- The next word that a user group has for its inbound queue. -/
def State.groupWord (s : State) (g : Nat) : Option (State × (BitVec 128 × BitVec 16)) :=
  if ! s.grpBonded g then s.laneNext g else if s.grp8b g then State.bondChars 260 s g else s.bondBlocks g

/-- XQ_PUSH_CLOCKED (R161, R165, R172, R315): queue q is one of 0 to 31. A user group pushes the next word of its lanes' internal queues; a
Peloton port or the host pushes a word that it holds back because the queue was full, if there is one, and else the word given. -/
def execXqPushClocked (q : Fin 32) (d : BitVec 128) (sb : BitVec 16) (s : State) : Out :=
  match s.xqBound q with
  | some (3, g, _) =>
    match s.groupWord g with
    | none => .next s
    | some (s', w) =>
      if s.xqStopped q ∨ ! s.xqClocked q true ∨ ! s.xqTakes q w.2 then .next s
      else .next (s'.xqPush q w.1 w.2)
  | _ =>
    if (s.xqQ q).wait.isEmpty then .next (s.xqClockedPush q d (sb &&& 0xFF0F))
    else .next (((State.xqDrain 1 s q).pelPushed q).h2fSettle q)

/-- XQ_PUSH_FABRIC (R154, R159, R172): outbound queue 32 + q. -/
def execXqPushFabric (q : Fin 32) (s : State) : Out :=
  let q := 32 + q.val
  match s.xqFabricWord q with
  | none => .next s
  | some w =>
    if s.xqStopped q ∨ s.xqFabricReset q ∨ ! s.xqTakes q w.2 then .next s
    else
      let s := s.ackIn (chData q) 64
      let s := if s.sbUsed q then s.ackIn (chSb q) 8 else s
      .next (s.xqPush q w.1 w.2)

/-- A marker word: abt or rst is set (R158). -/
def sbMarker (sb : BitVec 16) : Bool := sb.getLsbD 2 || sb.getLsbD 3

/-- XQ_WORD_OFFER (R154, R159, R160, R167): `flips` are upsets of the stored word. With SB unconnected a marker word is taken out and not
offered: the design receives no markers. -/
def execXqWordOffer (q : Fin 32) (flips : BitVec 128) (s : State) : Out :=
  let s' := s.xqUpset q flips
  match (s'.xqQ q).words with
  | [] => .next s
  | w :: _ =>
    if s.xqStopped q ∨ s.on (F.XQ_STS_offer q) ∨ s.xqFabricReset q then .next s
    else if ! s.sbUsed q ∧ sbMarker w.sb then .next (s'.xqPop q)
    else
      let r := w.read
      let s := s'.offerOut (chData q) (digitsOf 64 r.data.toNat)
      let s := if s.sbUsed q then s.offerOut (chSb q) (digitsOf 8 r.sb.toNat) else s
      .next (s.put (F.XQ_STS_offer q) 1)

/-- XQ_POP_FABRIC (R154, R160, R524): the pop commits once the fabric has acknowledged both tokens. -/
def execXqPopFabric (q : Fin 32) (s : State) : Out :=
  if ! s.on (F.XQ_STS_offer q) ∨ ! s.offerTaken q then .next s
  else .next ((s.offerEnd q).xqPop q)

/-- What the bound block does with a word popped (R325, R332, R350, R384): a Peloton port gathers the item and the host's ring the words for
its buffers; a user group sends it on its lanes, and drops and counts the words of a retired lane. -/
def State.xqHand (s : State) (q : Nat) : State :=
  match s.xqBound q, (s.xqQ q).last with
  | some (2, _, _), some w => s.setXq q { s.xqQ q with got := (s.xqQ q).got ++ [w] }
  | some (1, _, _), some w => s.setXq q { s.xqQ q with got := (s.xqQ q).got ++ [w] }
  | some (3, g, _), some w =>
    let k := (sbTag w.sb).toNat % 4
    if ! s.grpBonded g && ! (s.inService g).contains k then s.sat (F.LANE_ERR_tx_drop (s.lanePhys g k)) else s.laneWord g w.data w.sb
  | _, _ => s

/-- A queue that the host drains is popped only for a descriptor that its ring owns and has not finished (R374, R384). -/
def State.ringTakes (s : State) (q : Nat) : Bool :=
  match s.queueRing q with
  | none => true
  | some n => s.ringRuns n && ! (s.ring n).owned.isEmpty && (s.xqQ q).got.isEmpty

/-- A user group takes a word only while the lanes that it goes to are READY (R331). -/
def State.groupTakes (s : State) (q : Nat) : Bool :=
  match s.xqBound q, (s.xqQ q).words with
  | some (3, g, _), w :: _ => s.laneTakes g w.sb
  | _, _ => true

/-- XQ_POP_CLOCKED (R160, R161): outbound queue 32 + q; the word goes to the bound block. -/
def execXqPopClocked (q : Fin 32) (flips : BitVec 128) (s : State) : Out :=
  let q := 32 + q.val
  if s.xqStopped q ∨ ! s.xqClocked q false ∨ (s.xqQ q).words.isEmpty ∨ ! s.ringTakes q ∨ ! s.groupTakes q then .next s
  else .next (((s.xqUpset q flips).xqPop q).xqHand q)

/-- XQ_FLUSH (R171, R172, R524). -/
def execXqFlush (q : Fin 64) (s : State) : Out := .next (s.xqFlush q)

/-- XQ_FLUSH_DONE (R171, R183): not while the clock of the clocked side is stopped. -/
def execXqFlushDone (q : Fin 64) (s : State) : Out :=
  if ! s.on (F.XQ_STS_flushing q) ∨ s.on (F.XQ_STS_clk_stopped q) ∨ (s.xqQ q).flushDue then .next s
  else .next ((s.put (F.XQ_STS_flushing q) 0).put (F.XQ_CTL_flush q) 0)

/-- XQ_PAUSE (R170). -/
def execXqPause (q : Fin 64) (s : State) : Out := .next (s.put (F.XQ_CTL_pause q) 1)

/-- XQ_PAUSE_SETTLED (R170, R183, R524). -/
def execXqPauseSettled (q : Fin 64) (s : State) : Out :=
  if s.on (F.XQ_CTL_pause q) ∧ ! s.on (F.XQ_STS_offer q) ∧ ! s.on (F.XQ_STS_clk_stopped q) then .next (s.put (F.XQ_STS_paused q) 1)
  else .next s

/-- XQ_UNPAUSE (R170). -/
def execXqUnpause (q : Fin 64) (s : State) : Out := .next ((s.put (F.XQ_CTL_pause q) 0).put (F.XQ_STS_paused q) 0)

/-- The counts cleared while paused (R186). -/
def State.xqClrCnt (s : State) (q : Nat) : State :=
  if ! s.on (F.XQ_STS_paused q) then s
  else
    let s := s.put (F.XQ_PUSHED_count q) (s.xqQ q).words.length
    let s := (s.put (F.XQ_POPPED_count q) 0).put (F.XQ_FLUSHED_count q) 0
    (s.put (F.XQ_DISCARD_count q) 0).put (F.XQ_ERR_perr q) 0

/-- XQ_CLR_CNT (R186). -/
def execXqClrCnt (q : Fin 64) (s : State) : Out := .next (s.xqClrCnt q)

/-- XQ_SIDE_RESET (R184, R185): `writer` says which side is reset. -/
def execXqSideReset (q : Fin 64) (writer : Bool) (s : State) : Out :=
  if (s.xqQ q).inReset writer then .next s else .next ((s.xqSideReset q writer).pelPushed q)

/-- XQ_SIDE_RESET_END (R184): a side leaves its reset. -/
def execXqSideResetEnd (x : XqSide) (s : State) : Out := .next (s.xqSideEnd x.queue x.writer)

/-- REGION_EVX_FIRE (R174, R175). -/
def execRegionEvxFire (n : Fin 16) (mask : BitVec 8) (s : State) : Out := .next (s.evFire n mask.toNat)

/-- EVENT_IN_ROUND_TRIP (R174, R175): the count is offered as one 4-digit token and the counter cleared; none starts in set-reset
(Table 10.4). -/
def execEventInRoundTrip (n : Fin 16) (k : Fin 8) (s : State) : Out :=
  let c := s.get (F.REGION_EVX_IN_pending n k)
  let busy : RF := ⟨R.REGION_EVX_STS n, 16 + k, 1⟩
  if c = 0 ∨ s.on busy ∨ s.fab.setReset.getLsbD n then .next s
  else
    let s := (s.put (F.REGION_EVX_IN_pending n k) 0).put busy 1
    let s := s.setEvLine n k { count := 0, flight := c, reported := false }
    .next (s.offerOut (.evIn n k) (digitsOf 4 c))

/-- EVENT_IN_ACK (R175). -/
def execEventInAck (n : Fin 16) (k : Fin 8) (s : State) : Out :=
  let busy : RF := ⟨R.REGION_EVX_STS n, 16 + k, 1⟩
  if ! s.on busy ∨ ! s.outTaken (.evIn n k) 4 then .next s
  else
    let x := s.evLine n k
    let s := (s.inc (F.REGION_EVX_IN_delivered n k) x.flight).put busy 0
    .next ((s.setEvLine n k { x with flight := 0 }).clearOut (.evIn n k) 4)

/-- EVENT_OUT_TOKEN (R174, R176, R177): one pulse at the source of an event crossing. An event-out line takes it as a token of the fabric,
whose value is ignored. -/
def execEventOutToken (g : EvGroup) (k : BitVec 8) (s : State) : Out :=
  match g with
  | .region n =>
    if 8 ≤ k.toNat then .next s
    else match s.inValue (.evOut n k.toNat) 1 with
      | none => .next s
      | some _ => .next ((s.ackIn (.evOut n k.toNat) 1).evOutPulse n k.toNat)
  | .domains src dst => .next (s.clkPulse src dst k.toNat)

/-- The round trip of an event-out line (R176): the supervisor adds the count and raises event 0x0710, at most once per microsecond per
line. -/
def State.evOutTrip (s : State) (n k : Nat) : State :=
  let x := s.evLine n (8 + k)
  if x.count = 0 then s
  else
    let s := (s.inc (F.REGION_EVX_OUT_count n k) x.count).setEvLine n (8 + k) {}
    s.raiseFreeLim 1 0x0710 (n * 8 + k)

/-- EVENT_OUT_ROUND_TRIP (R174, R176, R177): the round trip of an event-out line, or of a crossing between two clocked domains. -/
def execEventOutRoundTrip (g : EvGroup) (k : BitVec 8) (s : State) : Out :=
  match g with
  | .region n => .next (if 8 ≤ k.toNat then s else s.evOutTrip n k.toNat)
  | .domains src dst => .next (s.clkTrip src dst k.toNat)

/-- VALUE_CROSSING_TRANSFER (R178): the source of a crossing takes a value (`some`), or the request that stands reaches the destination,
whose copy changes in one step to the held value (`none`). -/
def execValueCrossingTransfer (x : Crossing) (v : Option (BitVec 32)) (s : State) : Out :=
  match v with
  | some w => .next (s.valSource x.src x.dst x.index.toNat w)
  | none => .next (s.valCapture x.src x.dst x.index.toNat)

end Sys2Proof.Machine
end

