-- ==== Sys2Proof/Machine/Peloton.lean ====
section
/-! DEFINITION. The commands of the Peloton (chapter 12), but for the remote register accesses. -/

namespace Sys2Proof.Machine

/-- A write of PEL_PCTL.enable = 1 (R342): a DOWN port trains and its lanes start. -/
def State.portEnable (s : State) (p : Nat) : State :=
  if s.portRetired p then s
  else
    let s := s.put (F.PEL_PCTL_enable p) 1
    if s.portState p ≠ 0 then s else (s.put (F.PEL_PSTS_state p) 1).grpStart (p + 2)

/-- A write of PEL_PCTL.enable = 0: the port leaves for DOWN and its lanes go OFF. -/
def State.portDisable (s : State) (p : Nat) : State :=
  let s := s.put (F.PEL_PCTL_enable p) 0
  let s := if s.portState p = 0 then s else s.pelFlush p 0
  let s := s.put (F.PEL_PSTS_lanes p) 0
  (List.range 5).foldl (fun s i => if s.laneEnabled (5 * (p + 2) + i) then s else s.laneOff (5 * (p + 2) + i)) s

/-- PORT_ENABLE (R342). -/
def execPortEnable (p : Fin 4) (s : State) : Out := .next (s.portEnable p)

/-- A port in FLUSH enters INIT, where a changed credit split takes effect (R358, R361). -/
def State.flushEnd (s : State) (p : Nat) : State :=
  if s.portState p ≠ 4 then s
  else
    let s := (s.put (F.PEL_PSTS_state p) 2).put (F.PEL_PCTL_flush p) 0
    s.setPort p { s.portP p with split := s.rd (R.PEL_CRSPLIT p) }

/-- INIT_BLOCK_SEND (R342, R361): every 1 us in INIT, which FLUSH ends in; the first one sent after a received one takes the port UP. -/
def execInitBlockSend (p : Fin 4) (s : State) : Out :=
  let s := s.flushEnd p
  if s.portState p ≠ 2 then .next s
  else
    let x := s.portP p
    let addr := if s.hasAddr then s.get F.PEL_ADDR_addr else 0xFFF
    let ep := if s.leads then s.pel.epoch.toNat else s.get F.PEL_PHASE_epoch
    let s := s.pelSend p 0xEC (x.split.toNat + addr * 2 ^ 32 + ep * 2 ^ 44)
    if x.gotInit then
      let s := (s.put (F.PEL_PSTS_state p) 3).put (F.PEL_PSTS_wrap p) 0
      let s := s.setPort p { s.portP p with wrapSaid := false, noAddr := false, delays := [] }
      .next (((s.put (F.PEL_DELAY_valid p) 0).raiseLim 1000 0x0901 p p).serve p)
    else .next s

/-- INIT_RECEIVED (R342, R361): `allot` in units of 4 credits. -/
def execInitReceived (p : Fin 4) (allot : BitVec 32) (s : State) : Out :=
  if s.portState p = 2 then
    .next (s.setPort p { s.portP p with partnerAllot := allots allot, txCr := allots allot, gotInit := true })
  else if s.portState p = 3 then .next (s.pelFlush p 4)
  else .next s

/-- The events for the lead go out as MGMT EVENT frames (Table 12.5) once this module has an address. -/
def State.forwardEvents (s : State) : State :=
  if ! s.hasAddr ∨ s.pel.events.isEmpty then s
  else
    let es := s.pel.events
    es.foldl (fun s e => s.mgmtSend 0 6 (le 2 e.1 ++ le 2 e.2)) (s.setPel { s.pel with events := [] })

/-- HEARTBEAT_SEND (R343): in INIT and UP. Events that wait for the lead go with it. -/
def execHeartbeatSend (p : Fin 4) (s : State) : Out :=
  let st := s.portState p
  if st ≠ 2 ∧ st ≠ 3 then .next s
  else .next ((s.pelSend p 0xE6 ((if s.hasAddr then s.get F.PEL_ADDR_addr else 0xFFF) + 4096 * st)).forwardEvents)

/-- HEARTBEAT_RECEIVED (R343, R352): a member reports a neighbour without an address to the lead by MGMT EVENT; the spec gives that event
no number. -/
def execHeartbeatReceived (p : Fin 4) (addr : BitVec 12) (s : State) : Out :=
  let st := s.portState p
  if st ≠ 2 ∧ st ≠ 3 then .next s
  else
    let s := s.put (F.PEL_PSTS_partner p) addr.toNat
    let x := s.portP p
    if addr ≠ 0xFFF then .next (s.setPort p { x with noAddr := false })
    else if st = 3 ∧ ! x.noAddr then
      let s := s.setPort p { x with noAddr := true }
      if s.hasAddr ∧ ! s.on F.PEL_ADDR_is_lead then
        let d := s.draw
        .next (d.2.mgmtSend 0 6 (le 4 d.1))
      else .next s
    else .next s

/-- HOP_FAULT (R343, R361): the port is flushed to DOWN and its lanes restart at SIGDET. -/
def execHopFault (p : Fin 4) (s : State) : Out :=
  let st := s.portState p
  if st ≠ 2 ∧ st ≠ 3 then .next s
  else
    let s := s.pelFault p
    .next ((List.range 5).foldl (fun s i => s.laneRestart (5 * (p.val + 2) + i)) s)

/-- STRIPE (R344, R370): the lanes in use from the next filler slot, in both directions; a lane that fails at the partner ends a ledger. -/
def execStripe (p : Fin 4) (mask : BitVec 4) (s : State) : Out :=
  if ! s.portUp p then .next s
  else
    let s := if s.get (F.PEL_PSTS_lanes p) &&& mask.toNat = s.get (F.PEL_PSTS_lanes p) then s else s.ledgerBreak p
    .next ((s.put (F.PEL_PSTS_lanes p) mask.toNat).raiseLim 1000 0x0903 p p)

/-- FRAME_HDR (R346 to R355): the 7 header bytes of a frame that starts on an UP port. -/
def execFrameHdr (p : Fin 4) (hdr : BitVec 56) (s : State) : Out :=
  if ! s.portUp p then .next s
  else
    let s := if (s.portP p).rx.isSome then s.frameTrailer p [] 0 0 true else s
    .next (s.frameHdr p (PFrame.ofBody hdr))

/-- FRAME_TRAILER (R347 to R349): the L payload bytes, the end-to-end check and the hop CRC; `short` says that the frame was cut short. -/
def execFrameTrailer (p : Fin 4) (payload : List (BitVec 8)) (e2e hop : BitVec 32) (short : Bool) (s : State) : Out :=
  if ! s.portUp p then .next s else .next (s.frameTrailer p payload e2e hop short)

/-- The words of a whole item that a queue holds for its port, and the rest. -/
def takeItem : List XWord → Option (List XWord × List XWord)
  | [] => none
  | w :: ws => if sbEoi w.sb then some ([w], ws) else (takeItem ws).map (fun r => (w :: r.1, r.2))

/-- Words popped until the port holds an item whole. -/
def State.gatherItem : Nat → State → Nat → State
  | 0, s, _ => s
  | n + 1, s, q =>
    if (takeItem (s.xqQ q).got).isSome || (s.xqQ q).words.isEmpty then s else State.gatherItem n ((s.xqPop q).xqHand q) q

/-- The bytes of a payload word: nbytes of them, 0 standing for 16. -/
def wordBytes (w : XWord) : List Byte :=
  let n := (w.sb.extractLsb' 8 4).toNat
  (le 16 w.data.toNat).take (if n = 0 then 16 else n)

/-- PELOTON_ITEM_SEND (R350): outbound queue 32 + q, bound to a port. Outside RUN and LIMP only MGMT items go out (Table 01.5); others wait in
the queue. -/
def execPelotonItemSend (q : Fin 32) (s : State) : Out :=
  let q := 32 + q.val
  match s.xqBound q with
  | some (2, p, v) =>
    if s.xqStopped q ∨ ! s.xqClocked q false ∨ s.latched ∨ (v ≠ 3 ∧ ! s.running) then .next s
    else
      let s := s.gatherItem 600 q
      match takeItem (s.xqQ q).got with
      | none | some ([], _) => .next s
      | some (w :: ws, rest) =>
          let s := s.setXq q { s.xqQ q with got := rest }
          let dst := w.data.toNat % 4096
          let body := (ws.map wordBytes).flatten
          let abt := (w :: ws).any (fun x => x.sb.getLsbD 2)
          let outside := dst ≠ 0xFFF ∧ s.get F.PEL_ADDR_members ≤ dst
          if w.sb.getLsbD 3 then .next s
          else if ! sbSoi w.sb ∨ 256 < body.length ∨ abt ∨ ! s.hasAddr ∨ s.ownAddr dst ∨ outside then .next (s.pelDrop p)
          else
            .next (s.pelSendFrame p { dst := dst, src := s.get F.PEL_ADDR_addr, len := body.length, vc := v, type := (sbTag w.sb).toNat, payload := body })
  | _ => .next s

/-- CREDIT (R358): the running totals of the partner, modulo 2^14. -/
def execCredit (p : Fin 4) (totals : BitVec 56) (s : State) : Out :=
  if ! s.portUp p then .next s
  else
    let x := s.portP p
    let tot (v : Nat) : Nat := totals.toNat >>> (14 * v) % 2 ^ 14
    let tx := (List.range 4).map (fun v => vcGet x.txCr v + (tot v + 2 ^ 14 - vcGet x.lastTot v) % 2 ^ 14)
    .next ((s.setPort p { x with txCr := tx, lastTot := (List.range 4).map tot }).serve p)

/-- CREDIT_RETURN (R358). -/
def execCreditReturn (p : Fin 4) (s : State) : Out :=
  if s.portUp p ∧ (s.portP p).unret.any (· != 0) then .next (s.pelCredit p) else .next s

/-- DELAY_MEASURE (R364). -/
def execDelayMeasure (p : Fin 4) (s : State) : Out :=
  if ! s.portUp p then .next s
  else
    let x := s.portP p
    .next ((s.setPort p { x with reqId := x.reqId + 1, reqOpen := true }).pelSend p 0xE7 (x.reqId + 1).toNat)

/-- DELAY_REQ (R364): `turnaround` in ps, as measured. -/
def execDelayReq (p : Fin 4) (id : BitVec 8) (turnaround : BitVec 32) (s : State) : Out :=
  if ! s.portUp p then .next s else .next (s.pelSend p 0xE8 (id.toNat + 256 * turnaround.toNat))

/-- DELAY_RESP (R364): the round trip in ps, as measured, against the partner's turnaround; d is averaged over the last 16. -/
def execDelayResp (p : Fin 4) (id : BitVec 8) (turnaround roundTrip : BitVec 32) (s : State) : Out :=
  let x := s.portP p
  if ! s.portUp p ∨ ! x.reqOpen ∨ id ≠ x.reqId then .next s
  else
    let l := (x.delays ++ [(roundTrip.toNat : Int) - turnaround.toNat])
    let l := l.drop (l.length - 16)
    let asym := s.getS (F.PEL_ASYM_asym p)
    let d : Int := (l.foldl (· + ·) 0 + l.length * asym) / (2 * l.length)
    let s := s.setPort p { x with reqOpen := false, delays := l }
    .next ((s.putS (F.PEL_DELAY_delay p) d).putB (F.PEL_DELAY_valid p) (l.length == 16))

/-- A write of PEL_PCTL.ledger (R360, R370): the VCs set in quiesce are held until a write clears them there. -/
def State.ledgerStart (s : State) (p : Nat) : State :=
  if s.on (F.PEL_PCTL_ledger p) then s
  else
    let s := s.ledgerEnd p
    if ! s.portUp p then s
    else
      let s := s.put (F.PEL_PCTL_ledger p) 1
      let m := BitVec.ofNat 4 (s.get (F.PEL_PCTL_quiesce p))
      (s.setPort p { s.portP p with mask := m, hold := m, marked := false }).pelMark p

/-- PEL_LEDGER (R360). -/
def execPelLedger (p : Fin 4) (s : State) : Out := .next (s.ledgerStart p)

/-- LEDGER_MARK (R360): a CREDIT block, then the held counts. -/
def execLedgerMark (p : Fin 4) (s : State) : Out :=
  if ! s.portUp p then .next s
  else
    let s := s.pelCredit p
    .next (s.pelSend p 0xEA (packVc 11 ((List.range 4).map (s.portP p).held)))

/-- LEDGER_ANS (R360): the partner's held counts. -/
def execLedgerAns (p : Fin 4) (held : BitVec 44) (s : State) : Out :=
  let x := s.portP p
  if ! s.portUp p ∨ ! s.on (F.PEL_PCTL_ledger p) ∨ ! x.marked then .next s
  else
    let s := (List.range 4).foldl (fun s v =>
      if ! x.mask.getLsbD v then s
      else
        let h := held.toNat >>> (11 * v) % 2 ^ 11
        let c := vcGet x.txCr v
        let s := ((s.put (F.PEL_LEDGER_tx_cr p v) c).put (F.PEL_LEDGER_held p v) h).put (F.PEL_LEDGER_valid p v) 1
        s.putB (F.PEL_LEDGER_balanced p v) (c + h == vcGet x.partnerAllot v)) s
    .next (((s.put (F.PEL_PCTL_ledger p) 0).setPort p { x with marked := false }).serve p)

/-- LEDGER_TIMEOUT (R360). -/
def execLedgerTimeout (p : Fin 4) (s : State) : Out :=
  if s.on (F.PEL_PCTL_ledger p) then .next ((s.ledgerEnd p).serve p) else .next s

/-- A write of PEL_PCTL.flush (R361): the port goes through FLUSH; the bit reads 1 until INIT. -/
def State.flushWrite (s : State) (p : Nat) : State :=
  let s := s.put (F.PEL_PCTL_flush p) 1
  if s.portState p = 3 ∨ s.portState p = 2 then s.pelFlush p 4 else s

/-- PEL_FLUSH (R361). -/
def execPelFlush (p : Fin 4) (s : State) : Out := .next (s.flushWrite p)

/-- PHASE_SEND (R28, R226, R362): the lead or acting lead, in RUN and LIMP. -/
def execPhaseSend (s : State) : Out := if s.leads ∧ s.running then .next s.phaseSend else .next s

/-- PHASE_RECEIVED (R362, R363, R366, R368): a PHASE frame with its checks, its arrival stamp in 125 ps slots, and the time to its departure
stamp in ps. -/
def execPhaseReceived (p : Fin 4) (hdr : BitVec 56) (payload : List (BitVec 8)) (e2e hop : BitVec 32) (stamp : BitVec 64) (t : BitVec 32)
    (s : State) : Out :=
  if ! s.portUp p then .next s
  else
    let h := PFrame.ofBody hdr
    let f : PFrame := { h with payload := payload, e2e := e2e }
    let s := (s.pelFree p 0 1).inc (F.PEL_FRAMES_RX_count p)
    if hop = f.hopCrc ^^^ 0xFFFFFFFF then .next (s.sat (F.PEL_ERR_stomped p))
    else if hop ≠ f.hopCrc ∨ payload.length ≠ 32 then .next (s.sat (F.PEL_ERR_hop_crc p))
    else
      let x := Phase.ofBytes payload
      if { f with payload := payload.take 24 ++ le 8 0 }.check ≠ e2e then .next ((s.sat (F.PEL_ERR_e2e p)).raiseLim 1000 0x0904 p p)
      else .next (s.phaseArrive p h x stamp.toNat t.toNat)

/-- PEL_ENUM (R352): a write of PEL_CTL.enum, at the lead. -/
def execPelEnum (s : State) : Out := .next s.pelEnumerate

/-- ENUM_TRIGGER_DELAY (R352): 1 ms after a heartbeat with address 0xFFF appeared in the network. -/
def execEnumTriggerDelay (s : State) : Out := if s.running then .next s.pelEnumerate else .next s

/-- The first MGMT frame of a type that waits for the supervisor, and the state without it. -/
def State.takeMgmt (s : State) (type : Nat) : Option ((Nat × PFrame) × State) :=
  match s.pel.mgmt.find? (fun m => m.2.type == type) with
  | none => none
  | some m => some (m, s.setPel { s.pel with mgmt := s.pel.mgmt.erase m })

/-- A module enumerated as a member by an ENUM frame from `src` on port p: it takes the address and enumerates its own ports. A second lead or
a second alternate is reported and acts as a member (R341); a strap lead that has yielded takes no address (R366). -/
def State.enumTake (s : State) (p a src : Nat) (second : Bool) : State :=
  let lead := s.on F.PEL_CFG_lead_strap
  let alt := s.on F.PEL_CFG_alt_strap && ! lead && second
  let s := s.setPel { s.pel with altOff := alt }
  let s := if lead then (s.put F.PEL_ADDR_is_lead 0).setPel { s.pel with listening := false } else if alt then s.put F.PEL_ADDR_acting_lead 0 else s
  let s := if lead || alt then s.raiseLim 1000 0x090A p p else s
  if s.pel.yielded then s
  else
  let s := s.takeAddr a
  (s.setPel { s.pel with en := some { next := a + 1, ports := s.enumPorts false, parent := some src } }).enumStep

/-- ENUM (R341, R352, R366): a member takes the address of a frame on port 0; in a ring the frame that returns to the lead closes it.
DESIGN CHOICE (log entry 160): `second` says that the network has another alternate enumerated before this one, which the frame does not tell. -/
def execEnum (s : State) (second : Bool := false) : Out :=
  match s.takeMgmt 0 with
  | none => .next s
  | some ((p, f), s) =>
    let a := fieldAt f.payload 0 2
    if s.on F.PEL_ADDR_is_lead ∧ s.isRing ∧ p = 0 ∧ s.pel.en.isSome then
      let s := s.setPel { s.pel with en := none }
      .next (((s.put F.PEL_ADDR_members a).mgmtSend 0xFFF 2 (le 2 a)).raiseLim 1000 0x0905 0 a)
    else if p ≠ 0 then .next (s.raiseLim 1000 0x0907 p p)
    else .next (s.enumTake p a f.src second)

/-- ENUM_REPLY (R352): the range of the port, and the next port. -/
def execEnumReply (s : State) : Out :=
  match s.takeMgmt 1 with
  | none => .next s
  | some ((p, f), s) =>
    let hi := fieldAt f.payload 0 2
    match s.pel.en with
    | none => .next s
    | some e =>
      match e.cur with
      | none => .next s
      | some (q, lo) =>
        if q ≠ p then .next s
        else
          let s := ((s.put (F.PEL_RANGE_lo p) lo).put (F.PEL_RANGE_hi p) hi).put (F.PEL_RANGE_valid p) 1
          .next ((s.setPel { s.pel with en := some { e with cur := none, next := hi + 1 } }).enumStep)

/-- ENUM_DONE (R352). -/
def execEnumDone (s : State) : Out :=
  match s.takeMgmt 2 with
  | none => .next s
  | some ((_, f), s) => .next (s.put F.PEL_ADDR_members (fieldAt f.payload 0 2))

/-- COMPLETION (R356): the offset, value and status of a remote access. -/
def execCompletion (s : State) : Out :=
  match s.takeMgmt 5 with
  | none => .next s
  | some ((_, f), s) =>
    .next (s.setPel { s.pel with
      completions := s.pel.completions ++ [(fieldAt f.payload 0 4, fieldAt f.payload 4 4, fieldAt f.payload 8 1)] })

/-- MGMT_EVENT (R394): written to the lead's event ring as remote, with its origin. -/
def execMgmtEvent (s : State) : Out :=
  match s.takeMgmt 6 with
  | none => .next s
  | some ((_, f), s) =>
    .next (if s.leads then s.eventRing (fieldAt f.payload 0 2) (fieldAt f.payload 2 2) true f.src else s)

/-- HANDBACK (R368): the strap lead takes the role back with epoch + 2 when its own track runs on a local source. -/
def execHandback (s : State) : Out :=
  match s.takeMgmt 7 with
  | none => .next s
  | some ((p, f), s) =>
    if ! s.on F.PEL_CFG_lead_strap ∨ s.on F.PEL_ADDR_is_lead then .next s
    else
      let t := s.get F.CAD_PEL_CTL_tx_track
      let src := s.get (F.CAD_TRK_CTL_src t)
      if s.trkState t = 2 ∧ s.get (F.CAD_SRC_CTL_type src) ≠ 5 then
        .next (((s.takeLead (BitVec.ofNat 8 (fieldAt f.payload 0 1 + 2))).pelEnumerate).raiseLim 1000 0x090C p p)
      else .next (s.raiseLim 1000 0x090C 0 0xFFFF)

/-- A write of PEL_CTL.handback (R368), at the acting lead. -/
def State.handbackWrite (s : State) : State :=
  if s.on F.PEL_ADDR_acting_lead then s.mgmtSend 0xFFF 7 (le 1 s.pel.epoch.toNat) else s

/-- PEL_HANDBACK_WRITE (R368). -/
def execPelHandbackWrite (s : State) : Out := .next s.handbackWrite

/-- LEAD_LISTEN_END (R366). -/
def execLeadListenEnd (s : State) : Out := if s.pel.listening then .next (s.takeLead 0) else .next s

/-- LEAD_LOST (R341, R367): the alternate, no second one, in RUN or LIMP, acts as lead with the next epoch and sends its first frame. -/
def execLeadLost (s : State) : Out :=
  if ! s.on F.PEL_CFG_alt_strap ∨ s.on F.PEL_CFG_lead_strap ∨ s.pel.altOff ∨ ! s.running ∨ s.leads then .next s
  else
    let s := (s.put F.PEL_ADDR_acting_lead 1).setPel
      { s.pel with epoch := BitVec.ofNat 8 (s.get F.PEL_PHASE_epoch + 1), seq := 0 }
    .next ((s.raiseFreeLim 1000 0x0908 0).phaseSend)

end Sys2Proof.Machine
end

