-- ==== Sys2Proof/Machine/Pins.lean ====
section
/-! DEFINITION. The commands of the system pins, the fabric banks and the peripherals (chapter 15). -/

namespace Sys2Proof.Machine

/-- PIN_CLAIM_EVALUATE (R440). -/
def execPinClaimEvaluate (s : State) : Out := .next s.evalClaims

/-- PIN_FUNCTION_SWITCH (R447): at edge k + 2 the new function takes the pin and the keeper releases; an I2C block that has newly
taken its pins runs the bus clear (R456). -/
def execPinFunctionSwitch (p : Fin 64) (s : State) : Out :=
  if ! s.pins.keeper.getLsbD p then .next s
  else
    let s := { s with pins := { s.pins with keeper := s.pins.keeper &&& ~~~ (BitVec.ofNat 64 (2 ^ p.val)) } }
    let s := s.pinRefresh p
    .next (if ! s.pins.conf then s else match s.holder p with
      | some 4 => if p.val = 62 then s.i2cClear 0 else s
      | some 5 => if p.val = 42 then s.i2cClear 1 else s
      | _ => s)

/-- PIN_SET (R444). -/
def execPinSet (port : Fin 4) (mask : BitVec 16) (s : State) : Out :=
  .next (s.bar (R.PIN_SET port) (some (mask.setWidth 32)) (s.pinWrite.setPinOut port (s.get (F.PIN_OUT_out port) ||| mask.toNat)))

/-- PIN_CLR (R444). -/
def execPinClr (port : Fin 4) (mask : BitVec 16) (s : State) : Out :=
  .next (s.bar (R.PIN_CLR port) (some (mask.setWidth 32)) (s.pinWrite.setPinOut port (s.get (F.PIN_OUT_out port) &&& (~~~ mask).toNat)))

/-- PIN_LOCK_FIRST (R446). -/
def execPinLockFirst (port : Fin 4) (s : State) : Out :=
  .next (s.bar (R.PIN_LOCK port) (some 0x5A000000) (s.lockFirst port))

/-- PIN_LOCK_SECOND (R446). -/
def execPinLockSecond (port : Fin 4) (mask : BitVec 16) (s : State) : Out :=
  .next (s.bar (R.PIN_LOCK port) (some (0xA5000000 ||| mask.setWidth 32)) (s.lockSecond port mask.toNat))

/-- PIN_LOCK_TIMEOUT (R446). -/
def execPinLockTimeout (s : State) : Out := .next s.pinWrite

/-- PIN_IRQ_EDGE (R443, R445): a transition of pin n of the watched port. -/
def execPinIrqEdge (n : Fin 16) (rising : Bool) (s : State) : Out :=
  let port := s.get (F.PIN_IRQ_SEL_port n)
  let p := 16 * port + n
  if s.pinAnalog p then .next s
  else
    let s := s.put ⟨R.PIN_IN port, n, 1⟩ (if rising then 1 else 0)
    let kind := s.get (F.PIN_IRQ_EDGE_edge n)
    if (if rising then kind % 2 = 1 else 2 ≤ kind) then
      let s := s.put (F.PIN_IRQ_STS_line) (s.get F.PIN_IRQ_STS_line ||| 2 ^ n.val)
      .next (s.raiseLim 10 (0x0B10 + n) n p)
    else .next s

/-- The level a short prevents: the one opposite to what the pad was sensed at (R448). -/
def shortPad (park : Pad) (sensed : Bool) : Pad :=
  match park, sensed with
  | .high, false => .z
  | .low, true => .z
  | p, _ => p

/-- A pad driven to a level that the sensed one differs from. -/
def shortAgainst (driven : Pad) (sensed : Bool) : Bool :=
  match driven with
  | .low => sensed
  | .high => ! sensed
  | .z => false

/-- A serial peripheral drives pin p, at levels that the model does not follow: not an excitation channel; an I2C pin, open-drain, only
while a transaction runs. -/
def State.perDrives (s : State) (p : Nat) : Bool :=
  s.pins.conf && ! s.pins.parked && s.unitOk 2 && ! s.claimIsInput p && ! s.pins.keeper.getLsbD p && ! s.on (F.PIN_CFG_short p) &&
    (match s.holder p with
    | none => false
    | some id => decide (id < 16) && ((id != 4 && id != 5) || s.on (F.I2C_STS_busy (id - 4))))

/-- A system pin is found short: what it is driven to is not what was sensed; an open-drain pin only while it drives low (R448). -/
def State.sysShort (s : State) (p : Nat) (sensed : Bool) : Bool :=
  shortAgainst (SMap.get (fun _ => .z) s.pins.drive p) sensed ||
    (s.perDrives p && (sensed || (s.holder p != some 4 && s.holder p != some 5)))

/-- A short of a fabric pin: parked, flagged, reported; the interlock acts on the park level (R244, R448). -/
def State.fabricShort (s : State) (u p : Nat) (sensed : Bool) : State :=
  let park := shortPad (s.parkPad u p) sensed
  let k := s.spkU u
  let s := s.setSpk u { k with shortAt := SMap.set (fun _ => .z) k.shortAt p park }
  let s := (s.put (F.SPK_PAD_short u p) 1).parkPin u p park
  let pin := 48 * (u / 6) + 8 * (u % 6) + p
  s.raiseLim 1000 0x0B03 pin pin

/-- SHORT_DETECT (R448) on system pin `pin` (port x 16 + n), or on fabric pin 48b + nn; `sensed` is the level the pad was found at. -/
def execShortDetect (fabric : Bool) (pin : Fin 384) (sensed : Bool) (s : State) : Out :=
  if fabric then
    let u := 6 * (pin / 48) + (pin % 48) / 8
    let p := pin.val % 8
    let e := if s.isDiff u (p / 2) then p / 2 * 2 else p
    if s.pad u e = .z ∨ (e = p ∧ ! shortAgainst (s.pad u p) sensed) then .next s
    else
      let s := s.fabricShort u p sensed
      .next (if s.isDiff u (p / 2) then
          let o := if p % 2 = 0 then p + 1 else p - 1
          let k := s.spkU u
          let s := s.setSpk u { k with shortAt := SMap.set (fun _ => .z) k.shortAt o (s.parkPad u o) }
          (s.put (F.SPK_PAD_short u o) 1).parkPin u o (s.parkPad u o)
        else s)
  else
    let p := pin.val % 64
    if ! s.sysShort p sensed then .next s
    else
    let s := (s.put (F.PIN_CFG_short p) 1).put ⟨R.PIN_IN (p / 16), p % 16, 1⟩ (if sensed then 1 else 0)
    .next ((s.setSysPad p (shortPad (s.sysPark p) sensed)).raiseLim 1000 0x0B02 p p)

/-- A system pin that is driven: to a level, parked ones among them, or by a peripheral; a released open-drain pin is not. -/
def State.sysDriven (s : State) (p : Nat) : Bool := SMap.get (fun _ => .z) s.pins.drive p != .z || s.perDrives p

/-- An open wire at an input of a QUAD or PULSE source in its low-speed region loses the source (R215, R449). -/
def State.openInput (s : State) (p : Nat) : State :=
  (List.range 4).foldl (fun s n =>
    let base := 32 + 3 * s.get (F.CAD_SRC_CTL_unit n)
    let input := (s.srcIs n 0 && (p == base || p == base + 1)) || (s.srcIs n 4 && p == base)
    if input ∧ s.srcValid n ∧ s.on (F.CAD_SRC_STS_low_speed n) then s.sourceLost n else s) s

/-- One pin of a pull test (R449): tested when enabled, undriven and not in the keeper step. -/
def State.pullTest (s : State) (p : Nat) (isOpen : Bool) : State :=
  let bit : BitVec 64 := BitVec.ofNat 64 (2 ^ p)
  if ! s.on (F.PIN_CFG_owt_en p) || s.sysDriven p || s.pins.keeper.getLsbD p || ! isOpen then
    { s with pins := { s.pins with lastOpen := s.pins.lastOpen &&& ~~~ bit } }
  else
    let again := s.pins.lastOpen.getLsbD p
    let s := { s with pins := { s.pins with lastOpen := s.pins.lastOpen ||| bit } }
    if again && ! s.on (F.PIN_CFG_open p) then ((s.put (F.PIN_CFG_open p) 1).raise 0x0B04 p).openInput p else s

/-- OPEN_WIRE_TEST (R449): all enabled undriven pins at one instant; bit p of `found` says that pin p followed both pulls. -/
def execOpenWireTest (found : BitVec 64) (s : State) : Out :=
  .next ((List.range 64).foldl (fun s p => s.pullTest p (found.getLsbD p)) s)

/-- BANK_SUPPLY_CHANGE (R451, R464): the measured supply of a bank. -/
def execBankSupplyChange (b : Fin 8) (mv : BitVec 12) (s : State) : Out := .next (s.bankSupply b mv.toNat)

/-- UART_TX (R454). -/
def execUartTx (k : Fin 2) (b : BitVec 8) (s : State) : Out :=
  .next (s.bar (R.UART_TX k) (some (b.setWidth 32)) (s.pinWrite.uartPush k b))

/-- The frames of UART k have a parity bit (Table 15.7). -/
def State.uartParity (s : State) (k : Nat) : Bool := s.get (F.UART_CFG_parity k) == 1 || s.get (F.UART_CFG_parity k) == 2

/-- The frame in which UART k sends a byte (R454): 7 or 8 data bits, even or odd parity, 1 or 2 stop bits. -/
def State.uartFrame (s : State) (k : Nat) (b : Byte) : UartFrame :=
  let d := if s.on (F.UART_CFG_bits7 k) then b &&& 0x7F else b
  let odd := decide (popBelow d.toNat 8 % 2 = 1)
  { data := d
    parity := if s.uartParity k then some (odd != (s.get (F.UART_CFG_parity k) == 2)) else none
    stops := if s.on (F.UART_CFG_stop2 k) then 2 else 1 }

/-- UART_BYTE_RECEIVED (R454): into the FIFO with its flags, or lost on overrun with event 0x0B06. -/
def execUartByteReceived (k : Fin 2) (b : BitVec 8) (ferr perr brk : Bool) (s : State) : Out :=
  if ! s.perRuns k then .next s
  else
    let q := fifo s.pins.uartRx k
    if 64 ≤ q.length then .next ((s.put (F.UART_STS_overrun k) 1).raise 0x0B06 k)
    else
      let b := if s.on (F.UART_CFG_bits7 k) then b &&& 0x7F else b
      let e : UartByte := ⟨b, ferr, perr && s.uartParity k, brk⟩
      let s := { s with pins := { s.pins with uartRx := fifoSet s.pins.uartRx k (q ++ [e]) } }
      .next (s.put (F.UART_STS_rx_lvl k) (q.length + 1))

/-- UART_RX (R461). -/
def execUartRx (k : Fin 2) (s : State) : Out := .next (s.bar (R.UART_RX k) none (s.uartPop k))

/-- UART_BYTE_SENT (R454): the byte leaves the transmit FIFO; the next one starts or busy clears. -/
def execUartByteSent (k : Fin 2) (s : State) : Out :=
  match fifo s.pins.uartTx k with
  | [] => .next s
  | b :: q =>
    if ! s.on (F.UART_STS_busy k) then .next s
    else
      let s := { s with pins := { s.pins with
        uartTx := fifoSet s.pins.uartTx k q
        uartSent := fifoSet s.pins.uartSent k (fifo s.pins.uartSent k ++ [s.uartFrame k b]) } }
      .next ((s.put (F.UART_STS_tx_lvl k) q.length).putB (F.UART_STS_busy k) (! q.isEmpty && s.perRuns k))

/-- SPI_TX (R455). -/
def execSpiTx (k : Fin 2) (w : BitVec 32) (s : State) : Out :=
  .next (s.bar (R.SPI_TX k) (some w) (s.pinWrite.spiPush k w))

/-- The bits of an SPI word: the word length is the bits field plus 1, below 3 acting as 3 (Table 15.7). -/
def State.spiMask (s : State) (k : Nat) (w : Word) : Word :=
  BitVec.ofNat 32 (w.toNat % 2 ^ (max 3 (s.get (F.SPI_CFG_bits k)) + 1))

/-- How SPI master k sends a word (R455): its bits from the top or, with lsb_first, from the bottom; CS0 or CS1, kept asserted after the word
with cs_hold. -/
def State.spiFrame (s : State) (k : Nat) (w : Word) : SpiFrame :=
  let up := (List.range (max 3 (s.get (F.SPI_CFG_bits k)) + 1)).map w.getLsbD
  { bits := if s.on (F.SPI_CFG_lsb_first k) then up else up.reverse
    cs := s.get (F.SPI_CFG_cs k)
    held := s.on (F.SPI_CFG_cs_hold k) }

/-- SPI_WORD_DONE (R455): the received word enters the receive FIFO; the master stops between words while it is full. -/
def execSpiWordDone (k : Fin 2) (w : BitVec 32) (s : State) : Out :=
  match fifo s.pins.spiTx k with
  | [] => .next s
  | sent :: q =>
    let rx := fifo s.pins.spiRx k
    if ! s.on (F.SPI_STS_busy k) || decide (16 ≤ rx.length) then .next s
    else
      let s := { s with pins := { s.pins with 
        spiTx := fifoSet s.pins.spiTx k q
        spiRx := fifoSet s.pins.spiRx k (rx ++ [s.spiMask k w])
        spiSent := fifoSet s.pins.spiSent k (fifo s.pins.spiSent k ++ [s.spiFrame k sent]) } }
      let s := (s.put (F.SPI_STS_tx_lvl k) q.length).put (F.SPI_STS_rx_lvl k) (rx.length + 1)
      .next (s.putB (F.SPI_STS_busy k) (! q.isEmpty && s.perRuns (2 + k) && decide (rx.length + 1 < 16)))

/-- SPI_RX (R455, R461). -/
def execSpiRx (k : Fin 2) (s : State) : Out := .next (s.bar (R.SPI_RX k) none (s.spiPop k))

/-- I2C_CMD (R456); `low` says that SDA or SCL is held low at the start of the transaction. -/
def execI2cCmd (k : Fin 2) (v : BitVec 32) (s : State) (low : Bool := false) : Out :=
  .next (s.bar (R.I2C_CMD k) (some v) (s.pinWrite.i2cStart k v low))

/-- I2C_TRANSACTION_END (R456): data received on a read, the bytes sent on a write, or the flag of a nack, a lost arbitration or a
timeout with event 0x0B07. -/
def execI2cTransactionEnd (k : Fin 2) (nack arb timeout : Bool) (data : List (BitVec 8)) (s : State) : Out :=
  if ! s.on (F.I2C_STS_busy k) then .next s
  else
    let cmd := SMap.get (fun _ => 0) s.pins.i2cCmd k
    let n := (cmd.extractLsb' 11 8).toNat + 1
    let s := s.put (F.I2C_STS_busy k) 0
    if nack || arb || timeout then
      let s := if nack then s.put (F.I2C_STS_nack k) 1 else s
      let s := if arb then s.put (F.I2C_STS_arb k) 1 else s
      let s := if timeout then (s.put (F.I2C_STS_timeout k) 1).i2cClear k else s
      .next (s.raise 0x0B07 k)
    else if cmd.getLsbD 10 then
      let q := (fifo s.pins.i2cRx k ++ data.take n).take 256
      .next (({ s with pins := { s.pins with i2cRx := fifoSet s.pins.i2cRx k q } }).put (F.I2C_STS_rx_lvl k) q.length)
    else
      let q := fifo s.pins.i2cTx k
      let s := { s with pins := { s.pins with i2cTx := fifoSet s.pins.i2cTx k (q.drop n),
                                              i2cSent := fifoSet s.pins.i2cSent k (fifo s.pins.i2cSent k ++ q.take n) } }
      .next (s.put (F.I2C_STS_tx_lvl k) (q.drop n).length)

/-- I2C_RX (R461). -/
def execI2cRx (k : Fin 2) (s : State) : Out := .next (s.bar (R.I2C_RX k) none (s.i2cPop k))

/-- SSI_TRIG (R457). -/
def execSsiTrig (k : Fin 2) (s : State) : Out :=
  .next (s.bar (R.SSI_CTL k) (some 1) (s.pinWrite.ssiStart k))

/-- SSI_PERIOD (R457): the read period expires and a read starts; period 0 reads at trig only. -/
def execSsiPeriod (k : Fin 2) (s : State) : Out :=
  .next (if s.get (F.SSI_CFG_period k) = 0 then s else s.ssiStart k)

/-- Binary from Gray code: each bit is the exclusive or of the Gray bits from it upward. -/
def grayToBin (n v : Nat) : Nat :=
  (List.range n).foldl (fun acc i => acc + (if (popBelow (v >>> i) n) % 2 = 1 then 2 ^ i else 0)) 0

/-- The word length of an SSI read: the bits field plus 1, from 8 to 32 (Table 15.7). -/
def State.ssiBits (s : State) (k : Nat) : Nat := clamp 7 31 (s.get (F.SSI_CFG_bits k)) + 1

/-- SSI_READ_DONE (R457): DATA high before the first edge and low after the last bit store the position, whose stamp the latch took; otherwise
err is set and event 0x0B08 raised. -/
def execSsiReadDone (k : Fin 2) (raw : BitVec 32) (startHigh endLow : Bool) (s : State) : Out :=
  if ! s.on (F.SSI_STS_busy k) then .next s
  else
    let s := s.put (F.SSI_STS_busy k) 0
    if ! startHigh || ! endLow then .next ((s.put (F.SSI_STS_err k) 1).raise 0x0B08 k)
    else
      let v := raw.toNat % 2 ^ s.ssiBits k
      let v := if s.on (F.SSI_CFG_gray k) then grayToBin (s.ssiBits k) v else v
      .next (s.wr (R.SSI_POS k) (BitVec.ofNat 32 v))

end Sys2Proof.Machine
end

