-- ==== Sys2Proof/Machine/RegOps.lean ====
section
/-! DEFINITION. Register reads and writes (R10, R515 to R522): what a write of any register does, what a read captures or pops, and the
accesses into a domain whose clock has stopped (R181, R182). -/

namespace Sys2Proof.Machine

/-! ## Pages -/

/-- The slot of a page and the offset in it. -/
def pageSlot (base stride off : Nat) : Nat := (off - base) / stride
def pageRel (base stride off : Nat) : Nat := (off - base) % stride

/-- The page belongs to a retired region, lane, Spoke unit or Peloton port (R521). -/
def State.pageRetired (s : State) (off : Nat) : Bool :=
  if within 0x50000 0x80000 off then s.spkRetired (pageSlot 0x50000 0x1000 off)
  else if within 0x100000 0x200000 off then s.regionRetired (pageSlot 0x100000 0x10000 off)
  else if within 0x200000 0x23C000 off then s.laneLogical (pageSlot 0x200000 0x1000 off) == 5
  else if within 0x280000 0x284000 off && decide ((off - 0x280000) % 0x1000 < 0x800) then s.portRetired (pageSlot 0x280000 0x1000 off)
  else false

/-! ## Plain fields (R10, R520, R521) -/

/-- A write by field types: RW fields take the value, a 1 clears a W1C or RWS field, every other bit is as it was. -/
def RegRow.written (r : RegRow) (old v : Word) : Word :=
  ((old &&& ~~~ (BitVec.ofNat 32 r.rw)) ||| (v &&& BitVec.ofNat 32 r.rw)) &&& ~~~ (v &&& BitVec.ofNat 32 (r.w1c ||| r.rws))

/-- The same with nothing but the bits that clear. -/
def RegRow.cleared (r : RegRow) (old v : Word) : Word := old &&& ~~~ (v &&& BitVec.ofNat 32 (r.w1c ||| r.rws))

def State.plainWrite (s : State) (off : Nat) (v : Word) : State :=
  match regRow? off with
  | none => s
  | some r => s.wr off (r.written (s.rd off) v)

/-! ## Clear bits -/

/-- The counts that the clear bit of a register sets to 0; none where it has no clear bit. A clear of SPK_MON_MIN sets the lowest slack to
0x7FFF and the misses to 0. DESIGN CHOICE (log entry 152): it sets chan, the channel of that slack, to 0 too, which Table 08.7 leaves
unsaid. -/
def clearOf (off : Nat) : Option (Nat × List RF) :=
  if off = R.SUP_SVC_STS then some (31, [F.SUP_SVC_STS_syntax, F.SUP_SVC_STS_refused])
  else if within 0x50000 0x80000 off then
    let u := pageSlot 0x50000 0x1000 off
    if off = R.SPK_LATE u then some (31, [F.SPK_LATE_late u, F.SPK_LATE_ilk u])
    else if off = R.SPK_MON_MIN u then some (31, [F.SPK_MON_MIN_chan u, F.SPK_MON_CNT_miss u])
    else none
  else if within 0x80000 0x80200 off then
    let c := pageSlot 0x80000 0x40 off
    if off = R.ADC_STS c then some (31, [F.ADC_STS_trig_lost c, F.ADC_STS_res_ovf c]) else none
  else if within 0xA0000 0xB0000 off then
    let q := pageSlot 0xA0000 0x400 off
    if off = R.XQ_ERR q then some (31, [F.XQ_ERR_perr q]) else none
  else if within 0x100000 0x200000 off then
    let n := pageSlot 0x100000 0x10000 off
    if off = R.REGION_CODE_ERR n then some (31, [F.REGION_CODE_ERR_count n])
    else if off = R.REGION_FIRN_ECC n then some (31, [F.REGION_FIRN_ECC_corrected n, F.REGION_FIRN_ECC_uncorrectable n])
    else if off = R.REGION_FIRN_COLL n then some (31, [F.REGION_FIRN_COLL_count n])
    else none
  else if within 0x200000 0x23C000 off then
    let n := pageSlot 0x200000 0x1000 off
    if off = R.LANE_ERR n then some (31, [F.LANE_ERR_code_err n, F.LANE_ERR_rx_drop n, F.LANE_ERR_tx_drop n, F.LANE_ERR_elastic n]) else none
  else if within 0x280000 0x284000 off then
    let p := pageSlot 0x280000 0x1000 off
    if off = R.PEL_ERR p then some (31, [F.PEL_ERR_hop_crc p, F.PEL_ERR_stomped p, F.PEL_ERR_e2e p, F.PEL_ERR_dropped p]) else none
  else if off = R.GRM_SBU then some (31, [F.GRM_SBU_count])
  else if off = R.GRM_MBU then some (31, [F.GRM_MBU_detected, F.GRM_MBU_repaired, F.GRM_MBU_unrepairable])
  else if off = R.GRM_SELF then some (31, [F.GRM_SELF_vote, F.GRM_SELF_latch])
  else none

/-- The counts of a register cleared (R521). -/
def State.clearCounts (s : State) (off : Nat) : State :=
  match clearOf off with
  | none => s
  | some (_, fs) =>
    let s := fs.foldl (fun (s : State) f => s.put f 0) s
    if within 0x50000 0x80000 off && decide (off % 0x1000 = 0x3C) then s.put (F.SPK_MON_MIN_slack (pageSlot 0x50000 0x1000 off)) 0x7FFF else s

/-- The written word sets the clear bit of its register. -/
def clearsBy (off : Nat) (v : Word) : Bool :=
  match clearOf off with
  | some (b, _) => v.getLsbD b
  | none => false

/-- A plain write with its clear bit. -/
def State.fieldWrite (s : State) (off : Nat) (v : Word) : State :=
  let s := s.plainWrite off v
  if clearsBy off v then s.clearCounts off else s

/-- A write to a page of a retired unit: only the bits that clear act (R521). -/
def State.retiredWrite (s : State) (off : Nat) (v : Word) : State :=
  match regRow? off with
  | none => s
  | some r =>
    let s := s.wr off (r.cleared (s.rd off) v)
    if clearsBy off v then s.clearCounts off else s

/-! ## Stopped clocks (R180 to R182) -/

/-- XQ_STS.clk_stopped follows the clock of the clocked side (R180); a flush that waited for it discards its words (R183). -/
def State.clkShow (s : State) : State :=
  (List.range 64).foldl (fun s q =>
    let s := s.putB (F.XQ_STS_clk_stopped q) ((s.xqDomain q).any s.clkStopped)
    if (s.xqQ q).flushDue ∧ ! s.on (F.XQ_STS_clk_stopped q) then s.xqFlushRun q else s) s

/-- The stall watchdogs follow the clocks of the Groomer voting copies, domains 5 to 7 (R152). -/
def State.clkTaps (s : State) (d : Nat) : State := if 5 ≤ d ∧ d < 8 then s.wdgClock else s

/-! ## The revocation pair (R269) -/

/-- The slots that a fuse write revokes, and SEC_FUSE_STS. -/
def State.revokeSlots (s : State) (mask : BitVec 4) : State :=
  let f := s.fuses
  ({ s with fuses := { f with revoked := f.revoked ||| mask } }).put F.SEC_FUSE_STS_revoked (f.revoked ||| mask).toNat

/-- The second write of a pair: refused where it would leave no programmed slot unrevoked. -/
def State.revokePair (s : State) (mask : BitVec 4) : State :=
  if s.fuses.hashProg &&& ~~~ (s.fuses.revoked ||| mask) = 0 then s.put F.SEC_FUSE_STS_rev_refused 1 else s.revokeSlots mask

def State.setRevoke (s : State) (b : Bool) : State := { s with ldr := { s.ldr with revoke := b } }

/-- A write of SEC_REVOKE. -/
def State.revokeWrite (s : State) (v : Word) : State :=
  let key := v.toNat / 2 ^ 24
  if key = 0x5A then s.setRevoke true
  else if key = 0xA5 ∧ s.ldr.revoke then (s.setRevoke false).revokePair (v.setWidth 4)
  else s.setRevoke false

/-- A write to the LDR/SEC page: any but the second of a pair cancels the pair. -/
def State.ldrWrite (s : State) (off : Nat) (v : Word) : State :=
  if off = R.SEC_REVOKE then s.revokeWrite v else (s.setRevoke false).fieldWrite off v

/-! ## The HIF page -/

/-- A write to the HIF page (R395, R397). -/
def State.hifWrite (s : State) (off : Nat) (v : Word) : State :=
  if off = R.HIF_MBOX_CMD then s.mboxWrite v
  else if within 0x21000 0x22800 off then
    let n := pageSlot 0x21000 0x40 off
    let busy := s.on (F.HIF_RING_CFG_enable n)
    if off = R.HIF_RING_CFG n then s.ringCfgWrite n v
    else if off = R.HIF_RING_BASE_LO n then (if busy then s else s.fieldWrite off (v &&& 0xFFFFF000))
    else if off = R.HIF_RING_BASE_HI n then (if busy then s else s.fieldWrite off v)
    else s.fieldWrite off v
  else s.fieldWrite off v

/-! ## Cadence -/

/-- A write to the registers of a source (R211). -/
def State.cadSrcWrite (s : State) (n off : Nat) (v : Word) : State :=
  if off = R.CAD_SRC_CTL n then s.srcCtlWrite n v
  else if (off = R.CAD_SRC_ANA n ∨ off = R.CAD_SRC_EXC n ∨ off = R.CAD_SRC_LOSS n) ∧ s.on (F.CAD_SRC_CTL_enable n) then s
  else s.fieldWrite off v

/-- A write to the registers of a track (R211, R222, R223): div and OFS only in OFF. -/
def State.cadTrkWrite (s : State) (t off : Nat) (v : Word) : State :=
  let idle := s.trkState t = 0
  if off = R.CAD_TRK_CTL t then s.trkCtlWrite t v
  else if off = R.CAD_TRK_ADJ t then s.trkAdjust t v
  else if off = R.CAD_TRK_SW t then s.trkSwWrite t v
  else if off = R.CAD_TRK_OFS t then (if idle then s.fieldWrite off v else s)
  else if off = R.CAD_TRK_DIV t then
    (if idle then s.fieldWrite off v else s.put (F.CAD_TRK_DIV_ovs t) (v.toNat / 2 ^ 24))
  else s.fieldWrite off v

/-- A write to the CAD page. -/
def State.cadWrite (s : State) (off : Nat) (v : Word) : State :=
  if off = R.CAD_CTL then (if v.getLsbD F.CAD_CTL_halt_all.lo ∧ s.cad.run then (List.range 8).foldl (fun s t => s.trkHaltReq t) s else s)
  else if within 0x40100 0x40200 off then s.cadSrcWrite (pageSlot 0x40100 0x40 off) off v
  else if within 0x40400 0x40800 off then s.cadTrkWrite (pageSlot 0x40400 0x80 off) off v
  else s.fieldWrite off v

/-- R211 discards a setting that a write to a CAD offset carries (R230). -/
def State.cadDiscards (s : State) (off : Nat) (v : Word) : Bool :=
  if within 0x40100 0x40200 off then
    let n := pageSlot 0x40100 0x40 off
    s.on (F.CAD_SRC_CTL_enable n) &&
      ((off == R.CAD_SRC_CTL n && v.getLsbD 0) || off == R.CAD_SRC_ANA n || off == R.CAD_SRC_EXC n || off == R.CAD_SRC_LOSS n)
  else if within 0x40400 0x40800 off then
    let t := pageSlot 0x40400 0x80 off
    s.trkState t != 0 &&
      ((off == R.CAD_TRK_CTL t && (v.toNat / 2 % 4 != s.get (F.CAD_TRK_CTL_src t) || v.toNat / 65536 != s.get (F.CAD_TRK_CTL_mul t))) ||
        off == R.CAD_TRK_OFS t || (off == R.CAD_TRK_DIV t && v.toNat % 2 ^ 24 != s.get (F.CAD_TRK_DIV_div t)))
  else false

/-! ## Spoke units -/

/-- A write of SPK_CTL (R234, R237, R242, R245): track is not written while enable reads 1. -/
def State.spkCtlWrite (s : State) (u : Nat) (v : Word) : State :=
  let track := s.get (F.SPK_CTL_track u)
  let t := s.plainWrite (R.SPK_CTL u) v
  let s := if s.on (F.SPK_CTL_enable u) then t.put (F.SPK_CTL_track u) track else t
  let s := if v.getLsbD (F.SPK_CTL_enable u).lo then s else s.spkStop u
  let s := if v.getLsbD (F.SPK_CTL_flush u).lo then s.dropAll u else s
  if v.getLsbD (F.SPK_CTL_snap u).lo then s.spkSnap u else s

/-- A write to the page of Spoke unit u: a pin that becomes an input is no longer driven (R243). -/
def State.spkWrite (s : State) (u off : Nat) (v : Word) : State :=
  if off = R.SPK_CTL u then s.spkCtlWrite u v
  else if off = R.SPK_PUSH_LO u then s.setSpk u { s.spkU u with pushLo := v }
  else if off = R.SPK_PUSH_HI u then s.hostPush u 0 v
  else if off = R.SPK_PINCFG u 0 ∨ off = R.SPK_PINCFG u 1 then
    let t := s.fieldWrite off v
    (List.range 8).foldl (fun t p => if s.pinOut u p && ! t.pinOut u p then t.setPad u p .z else t) t
  else s.fieldWrite off v

/-- A write to the page of a converter: one that names another RES channel leaves its old one, and any may then offer its first result
(R250). -/
def State.adcWrite (s : State) (c off : Nat) (v : Word) : State :=
  let t := s.fieldWrite off v
  if off = R.ADC_CTL c then
    let t := if s.chAdc c = t.chAdc c then t else t.resLeave c
    (List.range 8).foldl (fun t d => t.resOffer d) t
  else t

/-! ## Pins and peripherals (R444 to R461) -/

/-- A write of PIN_CFG of pin p (R446 to R448): a locked pin keeps its RWL fields; a new direction goes through the keeper. -/
def State.pinCfgWrite (s : State) (p off : Nat) (v : Word) : State :=
  match regRow? off with
  | none => s
  | some r =>
    let old := s.rd off
    let m : Word := if s.pinLocked p then 0 else BitVec.ofNat 32 r.rwl
    let dir := s.on (F.PIN_CFG_dir p)
    let t := s.wr off (r.cleared ((old &&& ~~~ m) ||| (v &&& m)) v)
    let t := if t.on (F.PIN_CFG_dir p) != dir ∧ (t.holder p).isNone then
        { t with pins := { t.pins with
          keeper := t.pins.keeper ||| BitVec.ofNat 64 (2 ^ p)
          excParked := if 28 ≤ p ∧ p < 32 then t.pins.excParked &&& ~~~ BitVec.ofNat 4 (2 ^ (p - 28)) else t.pins.excParked } }
      else t
    t.pinRefresh p

/-- A write to the registers of a UART, an SPI, an I2C or an SSI block, or of a bank. -/
def State.perWrite (s : State) (off : Nat) (v : Word) : State :=
  if within 0x90400 0x90480 off then
    let k := pageSlot 0x90400 0x40 off
    if off = R.UART_TX k then s.uartPush k (v.setWidth 8) else s.fieldWrite off v
  else if within 0x90500 0x90580 off then
    let k := pageSlot 0x90500 0x40 off
    if off = R.SPI_TX k then s.spiPush k v else s.fieldWrite off v
  else if within 0x90600 0x90680 off then
    let k := pageSlot 0x90600 0x40 off
    if off = R.I2C_CMD k then s.i2cStart k v else if off = R.I2C_TX k then s.i2cPush k (v.setWidth 8) else s.fieldWrite off v
  else if within 0x90700 0x90780 off then
    let k := pageSlot 0x90700 0x40 off
    if off = R.SSI_CTL k then (if v.getLsbD 0 then s.ssiStart k else s) else s.fieldWrite off v
  else if within 0x90800 0x90880 off then
    let b := pageSlot 0x90800 0x10 off
    let s := s.fieldWrite off v
    if off = R.BANK_CFG b then s.banksCheck else s
  else s.fieldWrite off v

/-- A write to the PIN/PER page: any but the second of a lock pair cancels the pair (R446). -/
def State.pinPageWrite (s : State) (off : Nat) (v : Word) : State :=
  if within 0x90140 0x90150 off then
    let x := pageSlot 0x90140 4 off
    let key := v.toNat / 2 ^ 24
    if key = 0x5A then s.lockFirst x else if key = 0xA5 then s.lockSecond x (v.toNat % 65536) else s.pinWrite
  else
    let s := s.pinWrite
    if off < 0x90100 then s.pinCfgWrite ((off - 0x90000) / 4) off v
    else
      match (List.range 4).find? (fun x => off == R.PIN_OUT x || off == R.PIN_SET x || off == R.PIN_CLR x) with
      | some x =>
        let out := s.get (F.PIN_OUT_out x)
        let m := v.toNat % 65536
        if off = R.PIN_SET x then s.setPinOut x (out ||| m)
        else if off = R.PIN_CLR x then s.setPinOut x (out - (out &&& m))
        else s.setPinOut x m
      | none =>
        if off = R.PER_EN then
          let m : Word := 0xFFFF &&& ~~~ s.perFrozen
          s.wr off ((s.rd off &&& ~~~ m) ||| (v &&& m))
        else s.perWrite off v

/-! ## Queues and regions -/

/-- A write to the page of queue q (R170, R171, R186). -/
def State.xqWrite (s : State) (q off : Nat) (v : Word) : State :=
  if off = R.XQ_BIND q then (if s.on (F.XQ_CTL_enable q) then s else (s.fieldWrite off v).clkShow.ringsCheck)
  else if off = R.XQ_CTL q then
    let s := if v.getLsbD (F.XQ_CTL_clr_cnt q).lo then s.xqClrCnt q else s
    let s := s.plainWrite off v
    let s := if s.on (F.XQ_CTL_enable q) then s else s.ringsCheck
    let s := if s.on (F.XQ_CTL_pause q) then s else s.put (F.XQ_STS_paused q) 0
    let s := if v.getLsbD (F.XQ_CTL_flush q).lo ∧ ! s.on (F.XQ_STS_flushing q) then s.xqFlush q else s
    s.xqSync q
  else s.fieldWrite off v

/-- A write to the page of region n. -/
def State.regionWrite (s : State) (n off : Nat) (v : Word) : State :=
  if within (R.REGION_WDG_CTL n 0) (R.REGION_WDG_CTL n 0 + 256) off then
    match (List.range 32).find? (fun k => off == R.REGION_WDG_CTL n k) with
    | some k => s.wdgWrite n k v
    | none => s.fieldWrite off v
  else if off = R.REGION_FREEZE n then s.freezeWrite n (v.getLsbD (F.REGION_FREEZE_freeze n).lo)
  else if off = R.REGION_EVX_FIRE n then s.evFire n (v.toNat % 256)
  else s.fieldWrite off v

/-! ## Lanes, groups, ports -/

/-- A write to the page of lane n (R318, R324, R327, R328, R334). -/
def State.laneWrite (s : State) (n off : Nat) (v : Word) : State :=
  let g := n / 5
  if off = R.LANE_CTL n then
    let pw := v.toNat / 8 % 4
    let ask := decide (pw ≠ s.get (F.LANE_CTL_power n))
    let keep : Word := (v &&& ~~~ 0x18) ||| (s.rd off &&& 0x18)
    let s := s.plainWrite off keep
    let s := if s.on (F.LANE_CTL_enable n) then s.grpStart g else if ! isPcie g ∧ s.laneState n ≠ 0 then s.laneDisable n else s
    let s := if ask then s.lanePower n pw else s
    let s := if v.getLsbD (F.LANE_CTL_restart n).lo then (s.laneRestart n).portTrain g else s
    let s := if v.getLsbD (F.LANE_CTL_slip n).lo then s.laneSlip n else s
    let s := if v.getLsbD (F.LANE_CTL_aligned n).lo then s.laneAligned n else s
    if v.getLsbD (F.LANE_CTL_substitute n).lo then s.laneSubstitute n else s
  else if off = R.LANE_FFE n then s.fieldWrite off (if s.grpTrain g then (v &&& ~~~ 0x7FFF) ||| (s.rd off &&& 0x7FFF) else v)
  else if off = R.LANE_ES_CTL n then
    let s := s.plainWrite off v
    if v.getLsbD (F.LANE_ES_CTL_start n).lo then s.eyeStart n else s
  else s.fieldWrite off v

/-- A user group enabled: its PLL starts and its lanes leave OFF. -/
def State.grpEnable (s : State) (g : Nat) : State :=
  ((s.put (F.GRP_CTL_enable g) 1).setGrp g { s.grpG g with live := true }).grpStart g

/-- A write to the page of group g (Table 11.8, R338). -/
def State.grpWrite (s : State) (g off : Nat) (v : Word) : State :=
  let fixed := ! isUserGrp g || s.on (F.GRP_CTL_enable g)
  if off = R.GRP_CTL g then
    let s := if fixed then s else
      let s := s.plainWrite off v
      if s.on (F.GRP_CTL_enable g) then s.grpEnable g else s
    if v.getLsbD (F.GRP_CTL_restart g).lo then s.grpRestart g else s
  else if (off = R.GRP_RATE g ∨ off = R.GRP_REF g) ∧ fixed then s
  else s.fieldWrite off v

/-- A port is UP. -/
def State.anyPortUp (s : State) : Bool := (List.range 4).any (fun p => s.portUp p)

/-- A write to the page of port p, or to the network registers (R342, R352, R358, R360, R361, R368, Table 12.9). -/
def State.pelWrite (s : State) (p off : Nat) (v : Word) : State :=
  if off = R.PEL_PCTL p then
    let s := s.plainWrite off ((v &&& ~~~ 1) ||| (s.rd off &&& 1))
    let s := s.holdRelease p
    let s := if v.getLsbD 0 then s.portEnable p else if s.on (F.PEL_PCTL_enable p) then s.portDisable p else s
    let s := if v.getLsbD (F.PEL_PCTL_ledger p).lo then s.ledgerStart p else s
    if v.getLsbD (F.PEL_PCTL_flush p).lo then s.flushWrite p else s
  else if off = R.PEL_CRSPLIT p then
    (if 256 < (List.range 4).foldl (fun a i => a + v.toNat / 256 ^ i % 256) 0 then s else s.fieldWrite off v)
  else if off = R.PEL_CFG then
    s.fieldWrite off (if s.anyPortUp then (v &&& ~~~ 3) ||| (s.rd off &&& 3) else v)
  else if off = R.PEL_CTL then
    let s := if v.getLsbD F.PEL_CTL_enum.lo then s.pelEnumerate else s
    if v.getLsbD F.PEL_CTL_handback.lo then s.handbackWrite else s
  else s.fieldWrite off v

/-! ## Groomer, lockstep, self-test -/

/-- A write of FLT_LSk_CTL (R423): arm at 0 ends the comparison. -/
def State.lsWrite (s : State) (k off : Nat) (v : Word) : State :=
  let s := s.fieldWrite off v
  if off = R.FLT_LS_CTL k ∧ ! s.on (F.FLT_LS_CTL_arm k) then s.lsEnd k else s

/-- A write to the BIST page (R408, R414, Table 17.5): enable at 0 and a change of a region's window cut a test short; diag_en is not set
once TEST_CLOSE is blown. -/
def State.bistWrite (s : State) (off : Nat) (v : Word) : State :=
  if off = R.BIST_CTL then
    let v := if s.fuses.testClose then v &&& ~~~ F.BIST_CTL_diag_en.mask else v
    let s := s.fieldWrite off v
    if s.on F.BIST_CTL_enable then s else s.bistCut
  else if within 0x2D0100 0x2D0200 off then
    let t := s.fieldWrite off v
    if t.rd off = s.rd off then s else t.bistCutIn (pageSlot 0x2D0100 0x10 off)
  else s.fieldWrite off v

/-! ## Any register -/

/-- One register written (R10, R515, R520, R521); an offset that is no aligned doubleword is no register (R10, R516). -/
def State.regWrite (s : State) (off : Nat) (v : Word) : State :=
  if off % 4 ≠ 0 then s
  else if within 0x10000 0x20000 off then s.ldrWrite off v
  else if within 0x90000 0xA0000 off then s.pinPageWrite off v
  else if s.pageRetired off then s.retiredWrite off v
  else if within 0x20000 0x30000 off then s.hifWrite off v
  else if within 0x40000 0x50000 off then s.cadWrite off v
  else if within 0x50000 0x80000 off then s.spkWrite (pageSlot 0x50000 0x1000 off) off v
  else if within 0x80000 0x80200 off then s.adcWrite (pageSlot 0x80000 0x40 off) off v
  else if within 0xA0000 0xB0000 off then s.xqWrite (pageSlot 0xA0000 0x400 off) off v
  else if within 0x100000 0x200000 off then s.regionWrite (pageSlot 0x100000 0x10000 off) off v
  else if within 0x200000 0x23C000 off then s.laneWrite (pageSlot 0x200000 0x1000 off) off v
  else if within 0x240000 0x24C000 off then s.grpWrite (pageSlot 0x240000 0x1000 off) off v
  else if within 0x280000 0x284000 off then s.pelWrite (pageSlot 0x280000 0x1000 off) off v
  else if within 0x2C0100 0x2C0180 off then s.lsWrite (pageSlot 0x2C0100 0x10 off) off v
  else if within 0x2D0000 0x2E0000 off then s.bistWrite off v
  else if off = R.SUP_SVC_CFG then
    let t := s.fieldWrite off v
    if t.get F.SUP_SVC_CFG_rate = s.get F.SUP_SVC_CFG_rate then t else { t with con := { t.con with rateChanged := true } }
  else s.fieldWrite off v

/-! ## Reads (R210, R457, R461, R522) -/

def capKey (p : Path) (off : Nat) : Nat := (match p with | .bar0 => 0 | .console => 1 | .mgmt => 2) * 2 ^ 24 + off

/-- What an access path has captured of a register. -/
def State.capOf (s : State) (p : Path) (off : Nat) : Option Word := SMap.get (fun _ => none) s.caps (capKey p off)
def State.capSet (s : State) (p : Path) (off : Nat) (v : Word) : State :=
  { s with caps := SMap.set (fun _ => none) s.caps (capKey p off) (some v) }

/-- The _LO registers of the pairs of R522; each _HI lies at the next offset. -/
def pairLow : List Nat :=
  [R.CAD_UPD_LO, R.SUP_TIME_LO, R.PEL_RTIME_LO, R.SSI_STAMP_LO 0, R.SSI_STAMP_LO 1] ++
    (List.range 4).map R.CAD_SRC_POS_LO ++ (List.range 48).map R.SPK_HEAD_LO

/-- The turn, velocity and error of a track now (R210); all 0 in OFF. -/
def State.trkTurn (s : State) (t : Nat) : Word := if s.trkState t = 0 then 0 else (s.trkT t).position.extractLsb' 32 32
def State.trkVel (s : State) (t : Nat) : Word := if s.trkState t = 0 then 0 else BitVec.ofInt 32 (s.trkT t).velocity
def State.trkErr (s : State) (t : Nat) : Word :=
  let e := (s.trkT t).err
  let lim : Int := 2 ^ 31 - 1
  if s.trkState t = 0 then 0 else BitVec.ofInt 32 (if e < -lim then -lim else if lim < e then lim else e)

/-- The value of a register now, with nothing captured. -/
def State.regLive (s : State) (off : Nat) : Word :=
  if within 0x40400 0x40800 off then
    let t := pageSlot 0x40400 0x80 off
    if off = R.CAD_TRK_TURN t then s.trkTurn t else if off = R.CAD_TRK_VEL t then s.trkVel t
    else if off = R.CAD_TRK_ERR t then s.trkErr t else s.rd off
  else s.rd off

/-- A read of CAD_TRKn_ANG by a path captures turn, velocity and error of the same update (R210). -/
def State.angleRead (s : State) (p : Path) (t : Nat) : State :=
  let c := ((s.capSet p (R.CAD_TRK_TURN t) (s.trkTurn t)).capSet p (R.CAD_TRK_VEL t) (s.trkVel t)).capSet p (R.CAD_TRK_ERR t) (s.trkErr t)
  { c with readData := s.rd (R.CAD_TRK_ANG t) }

/-- A read of SSI_POS by a path captures both halves of the stamp (R457). -/
def State.ssiPosRead (s : State) (p : Path) (k : Nat) : State :=
  let c := (s.capSet p (R.SSI_STAMP_LO k) (s.rd (R.SSI_STAMP_LO k))).capSet p (R.SSI_STAMP_HI k) (s.rd (R.SSI_STAMP_HI k))
  { c with readData := s.rd (R.SSI_POS k) }

/-- A read of a _LO register by a path: what SSI_POS captured, or the live value, whose _HI is then captured (R522). -/
def State.lowRead (s : State) (p : Path) (off : Nat) : State :=
  match s.capOf p off with
  | some v => { s with readData := v }
  | none => { s.capSet p (off + 4) (s.rd (off + 4)) with readData := s.rd off }

/-- A read of REGION_WDG_STSk finds the watchdog as it stands (R61, R64, R65). -/
def State.wdgRead (s : State) (off : Nat) : State :=
  let n := pageSlot 0x100000 0x10000 off
  if within 0x100000 0x200000 off then
    match (List.range 32).find? (fun k => off == R.REGION_WDG_STS n k) with
    | some k => s.wdgShow n k
    | none => s
  else s

/-- A read of BIST_PAT while a column test runs finds the patterns applied so far, a free value (Table 14.15, R408; DESIGN CHOICE, log entry 167). -/
def State.bistRead (s : State) (off : Nat) : State :=
  if off ≠ R.BIST_PAT ∨ s.get F.BIST_STS_phase ≠ 1 then s
  else
    let d := s.draw
    let k := s.flt.bist.tPlanned + 1
    (d.2.put F.BIST_PAT_applied (d.1 % k)).put F.BIST_PAT_personality (d.1 / k)

/-- A read of PIN_IN finds the pad levels (R443): of a driven pin what it is driven to, of an analog pin 0; the level of another is that of the
last edge where an interrupt line watches its port, else a free value (DESIGN CHOICE, log entry 165). -/
def State.pinRead (s : State) (off : Nat) : State :=
  match (List.range 4).find? (fun x => off == R.PIN_IN x) with
  | none => s
  | some x =>
    let d := s.draw
    (List.range 16).foldl (fun s n =>
      let bit : RF := ⟨R.PIN_IN x, n, 1⟩
      if s.pinAnalog (16 * x + n) then s.put bit 0
      else match SMap.get (fun _ => .z) s.pins.drive (16 * x + n) with
        | .low => s.put bit 0
        | .high => s.put bit 1
        | .z => if s.get (F.PIN_IRQ_SEL_port n) = x then s else s.put bit (d.1 / 2 ^ n % 2)) d.2

/-- A read of PEL_RTIME finds the ring time as it has counted on (R363). -/
def State.ringRead (s : State) (off : Nat) : State := if off = R.PEL_RTIME_LO ∨ off = R.PEL_RTIME_HI then s.ringShow else s

/-- One register read by a path; the value goes to readData. -/
def State.regRead (s : State) (p : Path) (off : Nat) : State :=
  let s := (((s.wdgRead off).bistRead off).pinRead off).ringRead off
  if (regRow? off).isNone then { s with readData := 0 }
  else if pairLow.contains off then s.lowRead p off
  else match (List.range 8).find? (fun t => off == R.CAD_TRK_ANG t) with
    | some t => s.angleRead p t
    | none => match (List.range 2).find? (fun k => off == R.SSI_POS k || off == R.UART_RX k || off == R.SPI_RX k || off == R.I2C_RX k) with
      | some k =>
        if off = R.SSI_POS k then s.ssiPosRead p k
        else if off = R.UART_RX k then s.uartPop k
        else if off = R.SPI_RX k then s.spiPop k
        else s.i2cPop k
      | none => { s with readData := (s.capOf p off).getD (s.regLive off) }

/-! ## Accesses (R181, R182, R517) -/

/-- An access is answered: the console prints, MGMT answers with COMPLETION of offset, value and status. -/
def State.answer (s : State) (a : Access) (v : Word) (status : Nat) : State :=
  match a.path, a.ret with
  | .console, some _ =>
    if status ≠ 0 then s.print [.values [v.toNat], .err status] else if a.write.isSome then s.print [.ok] else s.print [.values [v.toNat], .ok]
  | .mgmt, some d => s.mgmtSend d 5 (le 4 a.addr ++ le 4 v.toNat ++ le 1 status)
  | _, _ => s

/-- An access done. -/
def State.accessDo (s : State) (a : Access) : State :=
  match a.write with
  | some v => (s.regWrite a.addr v).answer a v 0
  | none =>
    let s := s.regRead a.path a.addr
    s.answer a s.readData 0

/-- An access forced, answered with an error status (a free value among the statuses above 0). -/
def State.accessForce (s : State) (a : Access) : State :=
  let d := s.draw
  (d.2.countForced a).answer a 0xFFFFFFFF (1 + d.1 % 10)

/-- The waiting accesses to a domain forced, and new ones forced on arrival until its clock returns. -/
def State.forceDomain (s : State) (d : Nat) : State :=
  let mine := s.clk.waits.filter (fun a => domainOf a.addr == some d)
  let s := s.setClk { s.clk with
    waits := s.clk.waits.filter (fun a => domainOf a.addr != some d)
    dead := s.clk.dead ||| BitVec.ofNat 71 (2 ^ d) }
  mine.foldl (fun s a => s.accessForce a) (s.put F.SUP_CROSS_STS_dead 1)

/-- An access arrives: nothing is readable in COLD (Table 01.3); elsewhere it is done, held while the clock of its domain is stopped, or forced there. A write of force_en = 1 forces the domains
whose hang has been reported. -/
def State.access (s : State) (a : Access) : State :=
  if s.mode = .cold then s
  else match domainOf a.addr with
  | some d =>
    if ! s.clkStopped d then s.accessDo a
    else if s.clk.dead.getLsbD d then s.accessForce a
    else s.setClk { s.clk with waits := s.clk.waits ++ [a] }
  | none =>
    let t := s.accessDo a
    if a.addr = R.SUP_CROSS_CTL ∧ a.write.isSome ∧ t.on F.SUP_CROSS_CTL_force_en then
      (List.range 71).foldl (fun t d => if t.clk.hung.getLsbD d && ! t.clk.dead.getLsbD d then t.forceDomain d else t) t
    else t

end Sys2Proof.Machine
end

