-- ==== Sys2Proof/Machine/Access.lean ====
section
/-! DEFINITION. The commands that read and write registers by their paths, the clock monitors, readback, and the revocation pair
(R88, R116, R180 to R182, R210, R269, R356, R457, R515 to R522). -/

namespace Sys2Proof.Machine

/-- CLOCK_STOPPED (R180): domain d has had no edge for 1 us; its queues show it. -/
def execClockStopped (d : Fin 71) (s : State) : Out :=
  if s.clkStopped d then .next s
  else .next ((((s.setClk { s.clk with stopped := s.clk.stopped ||| BitVec.ofNat 71 (2 ^ d.val) }).clkShow).clkTaps d).raiseFree 0x0707)

/-- CLOCK_RETURNED (R180 to R182): the accesses that wait complete in the order of their arrival; none is forced any more. -/
def execClockReturned (d : Fin 71) (s : State) : Out :=
  if ! s.clkStopped d then .next s
  else
    let bit : BitVec 71 := BitVec.ofNat 71 (2 ^ d.val)
    let mine := s.clk.waits.filter (fun a => domainOf a.addr == some d.val)
    let dead := s.clk.dead &&& ~~~ bit
    let s := (s.setClk { s.clk with
      stopped := s.clk.stopped &&& ~~~ bit
      dead := dead
      hung := s.clk.hung &&& ~~~ bit
      waits := s.clk.waits.filter (fun a => domainOf a.addr != some d.val) }).clkShow
    let s := ((s.putB F.SUP_CROSS_STS_dead (dead != 0)).clkTaps d).raiseFree 0x0708
    .next (mine.foldl (fun s a => s.accessDo a) s)

/-- ACCESS_HANG (R181, R182): the oldest access to domain d has waited hang_limit. -/
def execAccessHang (d : Fin 71) (s : State) : Out :=
  match s.clk.waits.find? (fun a => domainOf a.addr == some d.val) with
  | none => .next s
  | some a =>
    if s.clk.hung.getLsbD d then .next s
    else
      let s := (s.setClk { s.clk with hung := s.clk.hung ||| BitVec.ofNat 71 (2 ^ d.val) }).sat F.SUP_CROSS_STS_hangs
      let s := if s.on F.SUP_CROSS_STS_valid then s
        else ((s.put F.SUP_CROSS_STS_valid 1).put F.SUP_CROSS_ADDR_addr a.addr).putB F.SUP_CROSS_ADDR_write a.write.isSome
      let s := s.raiseFree 0x0704
      .next (if s.on F.SUP_CROSS_CTL_force_en then s.forceDomain d else s)

/-- MGMT_READ (R356): the supervisor executes a READ and answers with COMPLETION. -/
def execMgmtRead (s : State) : Out :=
  match s.takeMgmt 3 with
  | none => .next s
  | some ((_, f), s) => .next (s.access ⟨.mgmt, fieldAt f.payload 0 4, none, some f.src⟩)

/-- MGMT_WRITE (R356): executed while mgmt_wr is 1, else completed with BAD_STATE. -/
def execMgmtWrite (s : State) : Out :=
  match s.takeMgmt 4 with
  | none => .next s
  | some ((_, f), s) =>
    let a : Access := ⟨.mgmt, fieldAt f.payload 0 4, some (BitVec.ofNat 32 (fieldAt f.payload 4 4)), some f.src⟩
    .next (if s.on F.PEL_CFG_mgmt_wr then s.access a else s.answer a (BitVec.ofNat 32 (fieldAt f.payload 4 4)) 3)

/-- SSI_POS_READ (R457). -/
def execSsiPosRead (p : Path) (k : Fin 2) (s : State) : Out := .next (s.access ⟨p, R.SSI_POS k, none, none⟩)

/-- TRACK_ANGLE_READ (R210). -/
def execTrackAngleRead (p : Path) (t : Fin 8) (s : State) : Out := .next (s.access ⟨p, R.CAD_TRK_ANG t, none, none⟩)

/-- LO_READ_CAPTURE (R522): pair i of `pairLow`. -/
def execLoReadCapture (p : Path) (i : Fin 57) (s : State) : Out := .next (s.access ⟨p, pairLow.getD i 0, none, none⟩)

/-- COUNTER_CLEAR (R521): a write of the clear bit of a register, alone; without effect where the register has none. -/
def execCounterClear (p : Path) (off : BitVec 24) (s : State) : Out :=
  match clearOf off.toNat with
  | none => .next s
  | some (b, _) => .next (s.access ⟨p, off.toNat, some (BitVec.ofNat 32 (2 ^ b)), none⟩)

/-- REGISTER_WRITE (R10, R517): one register write by an access path. -/
def execRegisterWrite (p : Path) (off : BitVec 24) (v : BitVec 32) (s : State) : Out :=
  .next (s.access ⟨p, off.toNat, some v, none⟩)

/-- BAR_BAD_ACCESS (R516): the endpoint completes the request with Unsupported Request and nothing else happens. -/
def execBarBadAccess (b : Bar) (off : BitVec 32) (s : State) : Out :=
  match b, off with
  | _, _ => .next s

/-- FRAME_READBACK (R88, R116): the frame at an address goes to frameData with its state bits at one instant. The console is refused it once
TEST_CLOSE is blown (Table 17.5). -/
def execFrameReadback (p : Path) (n : Fin 16) (col minor : BitVec 8) (s : State) : Out :=
  if p = .console ∧ s.fuses.testClose then .next (s.print [.err 3])
  else
    let s := { s with frameData := s.readFrame n col.toNat minor.toNat }
    .next (if p = .console then s.print [.values [s.frameData.toNat], .ok] else s)

/-- SEC_REVOKE_FIRST (R269). -/
def execSecRevokeFirst (s : State) : Out := .next (s.bar R.SEC_REVOKE (some 0x5A000000) (s.setRevoke true))

/-- SEC_REVOKE_SECOND (R269). -/
def execSecRevokeSecond (mask : BitVec 4) (s : State) : Out :=
  .next (s.bar R.SEC_REVOKE (some (0xA5000000 ||| mask.setWidth 32)) (if s.ldr.revoke then (s.setRevoke false).revokePair mask else s))

/-- REVOKE_PAIR_TIMEOUT (R269). -/
def execRevokePairTimeout (s : State) : Out := .next (s.setRevoke false)

end Sys2Proof.Machine
end

