-- ==== Sys2Proof/Machine/Modes.lean ====
section
/-! DEFINITION. Loader failures (R283), how a HOLD cause or a full load ends what a load has in progress (R23, R284, R295, R296, R306,
R308), the entry to HOLD (R19, R26, R27), and retirement with its effect on the mode (R17, R428). -/

namespace Sys2Proof.Machine

def State.setLdr (s : State) (l : Loader) : State := { s with ldr := l }
def State.setLoad (s : State) (l : Option Load) : State := s.setLdr { s.ldr with load := l }
def State.setRegionLoad (s : State) (l : Option Load) : State := s.setLdr { s.ldr with regionLoad := l }

/-! ## Failures -/

/-- The admin status of a loader code (Table 09.11). -/
def codeStatus (code : Nat) : Nat :=
  match code with
  | 0 => 0
  | 0x01 | 0x11 => 8
  | 0x04 | 0x05 | 0x06 | 0x07 | 0x08 => 4
  | 0x0D => 5
  | 0x12 => 0x0A
  | 0x13 => 7
  | 0x14 => 3
  | _ => 9

/-- LDR_ERR and the fault log take a failure (R283); `chunk` is 0xFFFF when none failed. -/
def State.ldrError (s : State) (code chunk : Nat) : State :=
  (((s.put F.LDR_ERR_code code).put F.LDR_ERR_status (codeStatus code)).put F.LDR_ERR_chunk chunk).logAdd (.failure code)

/-- REGION_PR_ERR of every region of a set (Table 10.8). -/
def State.prError (s : State) (set code chunk : Nat) : State :=
  (List.range 16).foldl (fun s n => if bitOf set n then
    ((s.put (F.REGION_PR_ERR_code n) code).put (F.REGION_PR_ERR_status n) (codeStatus code)).put (F.REGION_PR_ERR_chunk n) chunk else s) s

/-- The regions of a set that are not retired, lowest first. -/
def State.liveOf (s : State) (set : Nat) : List Nat := (List.range 16).filter (fun n => bitOf set n && ! s.regionRetired n)

/-! ## Isolation (R300, R305, R306) -/

/-- A region isolated: frozen no more, its ring cut and its neighbours' cells switched, set-reset asserted, its Spoke units and the fabric
sides of its queues reset, its test cut short, its Groomer engine suspended. -/
def State.isolate (s : State) (n st : Nat) : State :=
  let s := s.bistLeave n
  let s := (s.put (F.REGION_FREEZE_freeze n) 0).put (F.REGION_FREEZE_settled n) 0
  let s := ((s.setRegion n st).allRings).setResetOn n
  let s := (unitsOf n).foldl (fun s u => if s.spkRetired u then s else s.spkReset u) s
  s.put F.GRM_STS_active (clrBit (s.get F.GRM_STS_active) n)

/-- The instant from which REGION_PR_TIME of a region counts: the start of step 3, or the isolation by ISOLATE_REGION (R304). -/
def State.isoSince (s : State) (n : Nat) : State := s.setLdr { s.ldr with isoAt := SMap.set (fun _ => 0) s.ldr.isoAt n s.time }

/-- What the isolation for a load does beside it: watchdogs disabled, secret blocks cleared, the region's segments removed from the
one-driver table and enabled again, its frames cleared with their records, its repairs abandoned (R300, R403). -/
def State.isolateForLoad (s : State) (n : Nat) : State :=
  let s := (List.range 32).foldl (fun s k => s.put (F.REGION_WDG_CTL_enable n k) 0) s
  let s := (s.isolate n 3).secretClear n
  let s := s.setLdr { s.ldr with segs := SMap.keep s.ldr.segs (fun k => k / 32768 != n) }
  let s := { s with fab := { s.fab with
    frames := SMap.keep s.fab.frames (fun a => a / 65536 != n)
    ltOff := SMap.keep s.fab.ltOff (fun k => k / 32768 != n)
    gapFrames := SMap.keep s.fab.gapFrames (fun a => a / 65536 != n)
    rowErr := SMap.keep s.fab.rowErr (fun k => k / (256 * 512) != n) } }
  let s := s.setFlt { s.flt with
    repairs := s.flt.repairs.filter (fun a => a / 65536 != n)
    index := SMap.keep s.flt.index (fun a => a / 65536 != n)
    corr := SMap.keep s.flt.corr (fun a => a / 65536 != n)
    bad := SMap.keep s.flt.bad (fun a => a / 65536 != n) }
  (s.put (F.REGION_LT_FAULT_count n) 0).wdgSync n

/-- A region load has ended after the start of step 3 (R302, R303, R308): PARTIAL_FAULT in every region of its set that is not retired, with
every state of Table 10.4. DEDUCED (log entry 147): a region whose isolation had not yet been done is isolated then, its frames cleared. -/
def State.partialFault (s : State) (set : Nat) (waiting : BitVec 16) : State :=
  (((s.liveOf set).foldl (fun s n =>
    let s := if waiting.getLsbD n then s.isolateForLoad n else s
    ((s.setRegion n 5).put (F.REGION_PR_STS_fault n) 1).setResetOn n) s).allRings).raise 0x0212 set

/-- The loader is idle. -/
def State.ldrIdle (s : State) : State := s.put F.LDR_STS_state 0

/-- The loader is idle and no golden image runs (R280). -/
def State.ldrNone (s : State) : State := s.ldrIdle.put F.LDR_STS_fallback 0

/-! ## What a HOLD cause or a full load ends -/

/-- A region load in progress before its start-up phases ends with code 0x13 (Table 10.6, R306). From step 3 on, a HOLD cause leaves
its regions in PARTIAL_FAULT; a full load sets every region state itself. -/
def State.endRegionLoad (s : State) (hold : Bool) : State :=
  match s.ldr.regionLoad with
  | none => s
  | some l =>
    let s := (s.ldrError 0x13 0xFFFF).prError l.set.toNat 0x13 0xFFFF
    let s := if hold && l.step != .entered && l.step != .manifest then s.partialFault l.set.toNat l.waiting else s
    ((s.setRegionLoad none).ldrIdle).completeSrc l.src 7 0x13

/-- A start-up of regions in progress ends: that of a region load as the load does, that of ACTIVATE_REGION with its regions ISOLATED
and in set-reset again (R306). -/
def State.endActivation (s : State) (hold : Bool) (a : Activation) : State :=
  let set := a.set.toNat
  let s :=
    if a.byLoad then
      let s := ((s.ldrError 0x13 0xFFFF).prError set 0x13 0xFFFF).ldrIdle
      if hold then s.partialFault set 0 else s
    else (s.liveOf set).foldl (fun s n => (s.setRegion n 2).setResetOn n) s
  s.completeSrc a.src 7 0x13

/-- Every region command in progress ends. -/
def State.endRegions (s : State) (hold : Bool) : State :=
  let as := s.ldr.acts
  as.foldl (fun s a => s.endActivation hold a) ((s.endRegionLoad hold).setLdr { (s.endRegionLoad hold).ldr with acts := [] })

/-- The GSR phase of the present full load has completed: the design is running (R27, R284). -/
def State.gsrDone (s : State) : Bool := bitOf (s.get F.LDR_STS_phases) 2
def State.outDone (s : State) : Bool := bitOf (s.get F.LDR_STS_phases) 1

/-- The states of all regions once a design of a set runs (R295). -/
def State.regionsRun (s : State) (set : Nat) : State :=
  ((List.range 16).foldl (fun s n =>
    if s.regionRetired n then s.setRegion n 6 else s.setRegion n (if bitOf set n then 1 else 0)) s).allRings

/-- The same with what the regions of the set report of the full image that configured them (Table 10.8). -/
def State.designRuns (s : State) (l : Load) : State :=
  let set := l.set.toNat
  let s := s.regionsRun set
  let s := (s.liveOf set).foldl (fun s n =>
    ((s.wr (R.REGION_PR_IMG n) l.image.design).wr (R.REGION_PR_VER n) l.image.version).put (F.REGION_PR_STS_by_full n) 1) s
  s.setLdr { s.ldr with images := (s.liveOf set).foldl (fun m n => SMap.set (fun _ => {}) m n l.image) [] }

/-- A full load ends in HOLD before its GSR phase has completed: every region that is not retired reads PARTIAL_FAULT (R295). -/
def State.regionsFail (s : State) : State := ((s.liveOf 0xFFFF).foldl (fun s n => s.setRegion n 5) s).allRings

/-- A full load in progress ends with code 0x13 (R284): no further frame is written and no further phase runs. -/
def State.endFullLoad (s : State) : State :=
  match s.ldr.load with
  | none => s
  | some l =>
    let s := if s.gsrDone then (s.designRuns l).ldrIdle else (s.regionsFail).ldrNone
    ((s.ldrError 0x13 0xFFFF).setLoad none).completeSrc l.src 7 0x13

/-- The rolling test ends with its pass (R407, R414): what it recorded is kept, and a BIST_RUN of kind 0 completes INCOMPLETE. -/
def State.bistEnd (s : State) : State :=
  let s := s.bistCut
  let s := match s.flt.bist.run with
    | some t => s.keepTest { t with code := worse t.code 3, dur := s.time / 1000 - t.start }
    | none => s
  let s := s.bistStop
  let l := s.hif.running.filter (fun c => c.d.op == 0x30 && c.d.source == 0)
  l.foldl (fun s c => s.complete c.src 7 3) s

/-! ## HOLD -/

/-- Global set-reset in every region that is not retired; the Groomer is off (R26, R27). -/
def State.holdReset (s : State) : State :=
  ((s.liveOf 0xFFFF).foldl (fun s n => (s.put (F.REGION_FREEZE_hold_freeze n) 0).setResetOn n) s).put F.GRM_STS_active 0

/-- Every region whose fabric runs is frozen, one still starting up too (R27, R30, R50). -/
def State.holdFreeze (s : State) : State :=
  (List.range 16).foldl (fun s n =>
    if s.fab.setReset.getLsbD n then s else (s.put (F.REGION_FREEZE_hold_freeze n) 1).wdgSync n) s

/-- The Groomer scrubs where it is enabled and has what it depends on (R33, R399). -/
def State.grmRuns (s : State) : Bool := s.unitUp 8 && s.on F.GRM_CFG_enable

/-- Engine n starts a pass: no frame of it is checked yet. -/
def State.grmFresh (s : State) (n : Nat) : State :=
  s.setFlt { s.flt with
    passStart := SMap.set (fun _ => 0) s.flt.passStart n s.time
    checked := SMap.keep s.flt.checked (fun k => k / 256 != n)
    owed := SMap.keep s.flt.owed (fun k => k / 256 != n) }

/-- The engines of the regions that HOLD froze scrub, those that did not before from a new pass on (R399). -/
def State.grmHold (s : State) : State :=
  (List.range 16).foldl (fun s n =>
    if s.grmRuns && s.on (F.REGION_FREEZE_hold_freeze n) && ! bitOf (s.get F.GRM_STS_active) n then
      (s.put F.GRM_STS_active (setBit (s.get F.GRM_STS_active) n)).grmFresh n
    else s) s

/-- VCORE in HOLD: 0.65 V, or off (Table 01.5). -/
def State.holdVcore (s : State) (off : Bool) : State := if off || ! s.unitOk 6 then s.vcoreOff else s.vcoreFixed 20

/-- HOLD entered with a cause of SUP_MODE.hold_cause (R19, R26, R27, R284). In HOLD already, a cause that asks for set-reset or for VCORE
off still gets it, and an undervoltage names the HOLD its own (R473). -/
def State.enterHold (s : State) (cause : Nat) (setReset vcoreOff : Bool) : State :=
  if s.mode = .cold ∨ s.latched then s
  else if s.mode = .hold then
    let s := if setReset then s.holdReset else s
    let s := if vcoreOff then s.vcoreOff else s
    if cause = 3 then s.put F.SUP_MODE_hold_cause 3 else s
  else
    let loading := s.mode == .load
    let gsr := s.gsrDone
    let out := s.outDone
    let reset := setReset || s.mode == .supervise || (loading && ! gsr)
    let s := ((s.endFullLoad).endRegions true).endAskedLoads
    let s := (s.setMode .hold).put F.SUP_MODE_hold_cause cause
    let s := (if reset then s.holdReset else s.holdFreeze.grmHold).bistEnd
    let s := if s.pwr.on || ! vcoreOff then s.holdVcore vcoreOff else s
    let parks := ! loading || gsr || out
    let s := if parks then (List.range 48).foldl (fun s u => s.spkHold u) s else s
    let s := if ! loading || (gsr && s.pins.conf) then s.pinsPark else s
    s.userLanesIdle

/-- A fault whose reaction is HOLD (Table 01.4): from LOAD, RUN and LIMP. -/
def State.faultHold (s : State) : State := if s.running || s.mode == .load then s.enterHold 2 false false else s

/-- A HOLD cause that is a retirement too: HOLD outranks LIMP, which is recorded (R23). -/
def State.faultRetire (s : State) : State :=
  let t := s.faultHold.retireMode
  if s.mode = .run ∧ t.mode = .hold then t.logAdd (.outranked Mode.limp.code) else t

/-! ## Repairs that end with their region (R403) -/

/-- The outcome of a repair, where the captured frame is this one. -/
def State.repairOutcome (s : State) (a v : Nat) : State :=
  if s.get F.GRM_MBU_POS_addr = a ∧ s.on F.GRM_MBU_POS_valid then s.put F.GRM_MBU_POS_outcome v else s

/-- The reaction of the Groomer (R403, R406). -/
def State.grmReact (s : State) : State := if s.on F.GRM_CFG_reaction then s.faultHold else s

/-- A repair fails (R403). -/
def State.repairFail (s : State) (a : Nat) : State :=
  let s := s.setFlt { s.flt with repairs := s.flt.repairs.erase a }
  (((s.sat F.GRM_MBU_unrepairable).raise 0x0304 (a / 65536)).repairOutcome a 2).grmReact

/-- The repairs of a region that has left ACTIVE fail (R403). -/
def State.repairsFail (s : State) (n : Nat) : State :=
  (s.flt.repairs.filter (fun a => a / 65536 == n)).foldl State.repairFail s

/-! ## Retirement -/

/-- The essential set in force: that of the load in progress, else that of the settings record in use. -/
def State.essential (s : State) : Nat :=
  match s.ldr.load with
  | some l => essentialSet l.settings
  | none => essentialSet s.settings

/-- What Moraine's retirement of a region does to the mode: HOLD for an essential one, LIMP otherwise (R428, Table 01.4). -/
def State.regionOut (s : State) (n cause : Nat) : State :=
  if s.regionRetired n then s
  else
    let broke := s.on (F.FLT_LS_STS_comparing (n / 2)) && s.on (F.FLT_LS_CTL_reaction (n / 2))
    let s := ((s.bistLeave n).regionRetire n cause).repairsFail n
    if bitOf s.essential n || broke then s.faultRetire else s.retireMode

/-- A unit retired by Moraine (R427, R428): with what it does to the mode. -/
def State.unitOut (s : State) (u : RetUnit) (cause : Nat) : State :=
  match u with
  | .region n => s.regionOut n cause
  | .spoke u => (s.spokeRetire u cause).retireMode
  | .lane n =>
    if s.laneLogical n < 4 then s.laneRetire (n / 5) (s.laneLogical n) else if s.laneLogical n = 4 then s.spareRetire n else s
  | .port p =>
    if s.portRetired p then s
    else (s.portRetire p cause).retireMode

end Sys2Proof.Machine
end

