-- ==== Sys2Proof/Machine/HardTest.lean ====
section
/-! DEFINITION. The Sprocket and Firn tests of the start-up self-test and of BIST_RUN kind 0b01 (R415, R417, R427). -/

namespace Sys2Proof

open Machine

/-- The position of a unit in a native record (Table 14.4). -/
def TestFault.pos (t : TestFault) : Nat := t.column.val * 256 + t.index.val

/-- The record of a unit that did not pass. -/
def TestFault.record (t : TestFault) (cov result : Nat) : TestRec := {
  unit := if t.block then 3 else 2
  region := t.region
  pos := t.pos
  planned := if t.block then 5120 else 4096
  applied := if t.block then 5120 else 4096
  complete := true
  coverage := cov
  result := result }

/-- The failing bits in compatibility form (Table 14.5): the address field takes rows 0 to 511. DESIGN CHOICE (log entry 149): a failure in a
repair row (512, 513), which the field cannot name, has no record. -/
def TestFault.failing (t : TestFault) : List (BitVec 64) :=
  let head := t.region.val + t.column.val * 2 ^ 6 + t.index.val * 2 ^ 13
  if ! t.block then [BitVec.ofNat 64 (head + 1 * 2 ^ 4 + 0xFFFF * 2 ^ 48)]
  else (t.rows.filter (fun r => decide (r.1.val < 512))).flatMap (fun r => (List.range 72).filterMap (fun b =>
    if r.2.getLsbD b then some (BitVec.ofNat 64 (head + 2 * 2 ^ 4 + r.1.val * 2 ^ 25 + b * 2 ^ 48)) else none))

end Sys2Proof

namespace Sys2Proof.Machine

/-- The records of the units of a set of regions that were retired before, with no spare to test (Table 14.3). -/
def State.skipRecords (s : State) (set : Nat) : List TestRec :=
  (s.applied.filter (fun e => (e.kind == 2 || e.kind == 3) && bitOf set e.inst)).map (fun e =>
    ⟨e.kind, e.inst, e.pos, if e.kind = 3 then 5120 else 4096, 0, false, 0, 4⟩)

/-- Rows taken by repair rows, none once a block has no more (R142). -/
def State.rowsRepair : List (Fin 514 × BitVec 72) → State → Nat → Nat → Nat → Option State
  | [], s, _, _, _ => some s
  | r :: rs, s, n, f, p =>
    if 512 ≤ r.1.val then none
    else match s.rowRepair n f p r.1 0x0405 with
      | some t => State.rowsRepair rs t n f p
      | none => none

/-- Moraine's answer to a unit that failed: the state, and whether no spare was left for it (Table 14.8). -/
def State.hardAnswer (s : State) (t : TestFault) : State × Bool :=
  let n := t.region.val
  let go (r : Option State) : State × Bool := match r with
    | some u => (u, true)
    | none => (s, false)
  if ! t.block then go (s.sliceSubst n t.column t.index 0x0405)
  else match s.rowsRepair t.rows n t.column t.index with
    | some u => (u, true)
    | none => go (s.blockSubst n t.column t.index 0x0405)

/-- One failed unit: event 0x0405, the answer, the record. The region to retire is added where no spare is left. -/
def State.hardFault (cov : Nat) (acc : State × TestRun × List Nat) (t : TestFault) : State × TestRun × List Nat :=
  let s := acc.1
  let run := acc.2.1
  if ! bitOf run.set t.region then acc
  else if run.recs.any (fun r => r.result == 4 && r.unit == (t.record 0 0).unit && r.region == t.region.val && r.pos == t.pos) then acc
  else
    let a := (s.raise 0x0405 t.region).hardAnswer t
    let code := if a.2 then 1 else 2
    (a.1, { run with recs := run.recs ++ [t.record cov code], bits := run.bits ++ t.failing, code := worse run.code code },
      if a.2 then acc.2.2 else acc.2.2 ++ [t.region.val])

/-- A test of a set of regions that found these failures: the run, kept for BIST_REPORT, and the regions to retire. The coverage, which the
spec does not state, is a free value. -/
def State.hardTest (s : State) (kind set start : Nat) (l : List TestFault) : State × TestRun × List Nat :=
  let d := s.draw
  let id := d.2.newTest kind
  let cov := d.1 % 10001
  let r := l.foldl (State.hardFault cov)
    (id.2, { id := id.1, start := start / 1000, dur := (s.time - start) / 1000, code := 0, recs := id.2.skipRecords set, bits := [], set := set, cov := cov }, [])
  (r.1.keepTest r.2.1, r.2.1, r.2.2)

/-- The Firn contents of a set of regions lost to the test: zero (R415). Content lies below minor 171 of a Firn quarter. -/
def State.firnLost (s : State) (set : Nat) : State :=
  { s with fab := { s.fab with frames := SMap.keep s.fab.frames (fun a =>
      ! (bitOf set (a / 65536) && decide (0x44 ≤ a / 256 % 256) && decide (a / 256 % 256 < 0x4C) && decide (a % 256 < 171))) } }

end Sys2Proof.Machine
end

