-- ==== Sys2Proof/Machine/Startup.lean ====
section
/-! DEFINITION. How a load begins (R19, R24, R523), the settings that the supervisor writes (R265, R336, R339, R459, R478), the warm reset
and the start from COLD (R25, R520). -/

namespace Sys2Proof.Machine

/-! ## The beginning of a full load -/

/-- A unit that a full load from a source needs is missing (R523). -/
def State.loadMissing (s : State) (host : Bool) : Bool :=
  ! s.unitOk 5 || ! s.unitOk 6 || ! s.unitOk 7 || (if host then ! s.unitOk 3 else ! s.unitOk 1)

/-- A full load refused for a missing unit (R523). -/
def State.loadRefused (s : State) : State := (s.ldrError 0x14 0xFFFF).raise 0x0203 0x14

/-- A full load asked for: 1 slot A, 2 golden, 3 host, as LDR_STS.source codes them. The module enters LOAD, ending every region command
in progress; where a unit is missing the module stays as it is. The settings are copied, the phases of the present load are none (R266,
Table 09.16). -/
def State.beginFull (s : State) (source : BitVec 2) (store : Bool) (src : Option CmdSrc) : State :=
  if s.latched then s
  else if s.loadMissing (source == 3) then (s.loadRefused).completeSrc src 3 0x14
  else
    let s := s.endRegions false
    ((s.setMode .load).put F.LDR_STS_phases 0).setLoad (some {
      region := false
      source := source
      fromEntry := 0
      set := 0
      activate := true
      store := store
      src := src
      settings := s.settings
      started := s.time })

/-! ## Settings -/

/-- Entries of a settings list written in order, those that a test passes. -/
def State.applyList (s : State) (l : List (Nat × Word)) (p : Nat → Bool) : State :=
  (l.filter (fun e => p e.1)).foldl (fun s e => s.regWrite e.1 e.2) s

/-- Group of a GRP page or of a lane's page; 12 elsewhere. -/
def offGroup (off : Nat) : Nat :=
  if within 0x240000 0x24C000 off then pageSlot 0x240000 0x1000 off
  else if within 0x200000 0x23C000 off then pageSlot 0x200000 0x1000 off / 5
  else 12

/-- A list of a section with the enable bit of some registers held at 0. -/
def heldEnable (hold : Nat → Bool) (l : List (Nat × Word)) : List (Nat × Word) :=
  l.map (fun e => if hold e.1 then (e.1, e.2 &&& ~~~ 1) else e)

/-- What the supervisor writes in SUPERVISE: the entries of G2 to G5, the Peloton ports, PWR_CAP. It enables no port whose lanes have a
missing unit (R33). -/
def State.superviseSettings (s : State) : State :=
  let l := s.settings
  let s := s.applyList (listEntries l 3) (fun o => isPelGrp (offGroup o))
  let ports := heldEnable (fun o => ! s.unitUp 4 && (List.range 4).any (fun p => o == R.PEL_PCTL p)) (listEntries l 4)
  let s := s.applyList ports (within 0x280000 0x290000)
  let s := (s.applyList (listEntries l 6) (fun o => o == R.PWR_CAP)).capUpdate
  (List.range 4).foldl (fun s p => s.portReady (p + 2)) s

/-! ## Entry to SUPERVISE -/

/-- The directory and the settings records as they are read in SUPERVISE (R262, R264). -/
def State.readMedia (s : State) : State :=
  let d0 := (s.dirCopy 0).map (·.1)
  let d1 := (s.dirCopy 1).map (·.1)
  let s := s.put F.LDR_STS_dir_copy ((pickCopy d0 d1).getD 0)
  let single := d0.isSome != d1.isSome
  let s := s.putB F.LDR_STS_dir_single single
  let s := if single then s.raise 0x0206 (if d0.isSome then 1 else 0) else s
  let r0 := (s.settingsRecord 0).map (·.1)
  let r1 := (s.settingsRecord 1).map (·.1)
  let s := s.put F.LDR_STS_set_copy ((pickCopy r0 r1).getD 0)
  let one := r0.isSome != r1.isSome
  let s := s.putB F.LDR_STS_set_single one
  if one then s.raise 0x0208 (if r0.isSome then 1 else 0) else s

/-- The values of the roles of G0 to G5 (R338) and what the repair map gives to every group (R311). -/
def State.groupRoles (s : State) : State :=
  let s := (List.range 2).foldl (fun s g => ((s.put (F.GRP_CTL_enable g) 1).put (F.GRP_RATE_rate g) 16000000).put (F.GRP_REF_ref_khz g) 100000) s
  let s := (List.range 4).foldl (fun s p => (s.wr (R.GRP_CTL (p + 2)) 0x79).put (F.GRP_RATE_rate (p + 2)) 25781250) s
  let s := if s.hif.link = .l0 then s else s.pcieLanes []
  (List.range 12).foldl (fun s g => s.grpApply g) s

/-- SPK_PAD.pull from the sampled straps (Table 15.8): up where the bank's strap was high. -/
def State.strapPulls (s : State) : State :=
  let pup := s.get F.LDR_STRAP_pup
  (List.range 48).foldl (fun s u => (List.range 8).foldl (fun s p => s.put (F.SPK_PAD_pull u p) (if bitOf pup (u / 6) then 2 else 1)) s) s

/-- The fuses as SEC_FUSE_STS and SYS_SERIAL show them (R268, R519). -/
def State.fuseShow (s : State) : State :=
  let f := s.fuses
  let s := (s.put F.SEC_FUSE_STS_hash_prog f.hashProg.toNat).put F.SEC_FUSE_STS_revoked f.revoked.toNat
  let s := (s.put F.SEC_FUSE_STS_cust_prog f.custProg.toNat).putB F.SEC_FUSE_STS_enc_required f.encRequired
  let s := s.putB F.SEC_FUSE_STS_test_close f.testClose
  (s.wr R.SYS_SERIAL_LO (f.serial.setWidth 32)).wr R.SYS_SERIAL_HI ((f.serial >>> 32).setWidth 32)

/-- SUPERVISE entered with its registers at reset: the map, directory and settings are read, ports enabled, and the module goes on to
HOLD or to an autoload where Table 01.4 says so; an autoload that HOLD outranks is recorded (R23). `cold` takes the books from the repair map (R29, R311, R433). -/
def State.supervise (s : State) (cold good : Bool) : State :=
  let s := { s with mode := .supervise }
  let s := (s.put F.SUP_MODE_mode 1).put F.SUP_MODE_missing s.firstMissing
  let s := s.fuseShow.readMedia.mapShow
  let s := if cold then (s.booksFromMap true).retiredFromBooks else s
  let out := s.get F.FLT_RET_MISC_sup
  let s := if cold then (s.putB F.SUP_MODE_active_half (bitOf out 0)).putB F.SUP_MODE_twin_ok (out == 0) else s
  let s := s.groupRoles.strapPulls.superviseSettings
  let none := (s.dirCopy 0).isNone && (s.dirCopy 1).isNone
  if ! good then (if autoloadOn s.settings ∧ ! none then s.logAdd (.outranked Mode.load.code) else s).enterHold 7 false false
  else if none then s.enterHold 5 false false
  else if autoloadOn s.settings then s.beginFull 1 false Option.none
  else s

/-! ## Warm reset -/

/-- What a reset leaves of a lane that it takes to OFF: what it has sent, and in a warm reset its stored taps and equaliser values (R335). -/
def Lane.afterReset (x : Lane) (warm : Bool) : Lane :=
  if warm then { ({} : Lane) with out := x.out, stored := x.stored, eqStored := x.eqStored } else { ({} : Lane) with out := x.out }

/-- What a reset leaves of the lanes: those of G0 to G5 in a warm reset (Table 11.8), and of the others what they keep. -/
def State.laneSent (s : State) (warm : Bool) : SMap Lane :=
  s.lane.filterMap (fun e =>
    if warm ∧ e.1 < 30 then some e
    else let x := e.2.afterReset warm; if x = {} then none else some (e.1, x))

/-- A register whose RO fields show a source that a warm reset does not touch (Table 19.6). -/
def sourceKept (off : Nat) : Bool :=
  [R.SUP_MODE, R.SUP_TIME_LO, R.SUP_TIME_HI, R.SUP_RESET, R.LDR_STRAP, R.HIF_STS, R.PEL_CFG, R.FLT_RET_REG, R.FLT_RET_SPK0, R.FLT_RET_SPK1,
    R.FLT_RET_MISC, R.FLT_MOR_STS, R.PWR_STS, R.PWR_VIN, R.PWR_PIN, R.PWR_TEMP, R.PWR_RAIL, R.PWR_PHASE].contains off ||
    (List.range 8).any (fun b => off == R.BANK_CFG b) || within 0x200000 0x21E000 off || within 0x240000 0x246000 off

/-- The value of a register after a warm reset: RWS fields are kept, RO fields show their source, all else is at its reset value. -/
def warmValue (off : Nat) (v : Word) : Word :=
  match regRow? off with
  | none => 0
  | some r =>
    let keep := BitVec.ofNat 32 (r.rws ||| (if sourceKept off then r.ro else 0))
    (BitVec.ofNat 32 r.reset &&& ~~~ keep) ||| (v &&& keep)

/-- Every register after a warm reset. -/
def warmRegs (m : SMap Word) : SMap Word :=
  (m.map (fun e => (e.1, warmValue e.1 e.2))).filter (fun e => e.2 != regReset e.1)

/-- A warm reset (R25, R520). DESIGN CHOICE (log entry 106): it does not read the fuses again and its built-in check passes. 1 MODE_REQUEST RESTART, 2 console RESTART, 3 auto-restart. The service core's own state, the repair map, the
fault log, the PCI Express link, the lanes of G0 to G5 and what only a start from COLD sets are kept (R393, Table 11.8); each bank's supply is compared with the window of
its standard as reset leaves it (R451). -/
def State.warmReset (s : State) (cause : Nat) : State :=
  let s := (List.range 16).foldl (fun s n => s.secretClear n) s
  let warm := min 255 (s.get F.SUP_RESET_warm + 1)
  let gen := s.get F.HIF_STS_generation + 1
  let t : State := { State.reset with
    pending := s.pending
    mode := .supervise
    regs := warmRegs s.regs
    fuses := s.fuses
    nor := s.nor
    norSize := s.norSize
    units := s.units
    log := s.log
    evtLast := s.evtLast
    con := { s.con with fuse := none, rateChanged := false, tests := [], result := 0, mbox := none }
    hif := { ({} : Hif) with bme := s.hif.bme, link := s.hif.link, cfg := s.hif.cfg, writes := s.hif.writes, msix := s.hif.msix, table := s.hif.table }
    ldr := { ({} : Loader) with fuseBlocked := s.ldr.fuseBlocked }
    fab := { ({} : Fab) with cleared := s.fab.cleared }
    clk := { ({} : Clk) with stopped := s.clk.stopped }
    pwr := { s.pwr with capCeil := 80, thermCeil := 80, goal := 0, lowSample := false, smin := 32767, samples := 0, window := 0, on := false }
    pins := { ({} : Pins) with
      keeper := s.pinsHeld
      drive := SMap.keep s.pins.drive (fun p => s.pinsHeld.getLsbD p) }
    pel := { ({} : Pel) with sent := s.pel.sent, events := s.pel.events, completions := s.pel.completions, listening := s.on F.PEL_CFG_lead_strap }
    lane := s.laneSent true
    grp := SMap.keep s.grp (fun g => decide (g < 6))
    flt := { ({} : Flt) with books := s.flt.books }
    readData := s.readData
    frameData := s.frameData
    freeCtr := s.freeCtr }
  let t := ((t.put F.HIF_STS_generation gen).put F.SUP_RESET_cause cause).put F.SUP_RESET_warm warm
  let t := ((t.put F.SUP_MODE_transitions 0).put F.SUP_MODE_hold_cause 0).put F.SUP_MODE_in_transition 0
  (t.banksCheck.clkShow.vcoreOff).supervise false true

/-! ## COLD -/

/-- COLD: every rail off, nothing readable. What no supply holds is kept: fuses, settings memory, fault log ring, and what has already
left the module; so are the bank supplies, which come and go on their own (R464). The loads that it outranks are recorded (R23). -/
def State.toCold (s : State) : State :=
  let s := s.endAskedLoads
  let vio (b : Nat) : RF := F.BANK_CFG_vio b
  let t : State := { State.reset with
    pending := s.pending
    fuses := s.fuses
    nor := s.nor
    norSize := s.norSize
    log := s.log
    con := { ({} : Console) with out := s.con.out }
    hif := { ({} : Hif) with writes := s.hif.writes, msix := s.hif.msix }
    pel := { ({} : Pel) with sent := s.pel.sent }
    lane := s.laneSent false
    readData := s.readData
    frameData := s.frameData
    freeCtr := s.freeCtr }
  (List.range 8).foldl (fun t b => t.put (vio b) (s.get (vio b))) t

/-- The VIN thresholds of R18 in millivolts, rising for start, falling for undervoltage and stop, and their tolerance: a crossing that a
command reports lies within it. -/
def vinStartMv : Nat := 5700
def vinUnderMv : Nat := 5500
def vinStopMv : Nat := 4800
def vinTolMv : Nat := 100

/-- The units that work as the rails and straps leave them (R260, R467): without the 3.3 V rail unit 2, and the settings memory that it
supplies; without a lane rail the lanes, units 3, 4 and 11. -/
def unitsWorking (p : PowerUp) : BitVec 11 :=
  let u := if p.rail33 then p.units else p.units &&& ~~~ 2
  let u := if p.rail09 && p.rail12 then u else u &&& ~~~ 0x40C
  if p.vsel && ! u.getLsbD 1 then u &&& ~~~ 1 else u

/-- VIN has come to a block in COLD: the units that work and the good fuse read copies are known and the block is in SUPERVISE (R18, R33). -/
def State.poweredUp (s : State) (p : PowerUp) : State :=
  { s with units := unitsWorking p, mode := .supervise, fuses := { s.fuses with readGood := p.good } }

/-- The straps are taken and VIN, the rails and the banks are measured (R29, R341, R451, R466). -/
def State.strapsTaken (s : State) (p : PowerUp) : State :=
  let s := (s.put F.LDR_STRAP_pup p.pup.toNat).putB F.LDR_STRAP_vsel p.vsel
  let s := (s.putB F.PEL_CFG_lead_strap p.leadStrap).putB F.PEL_CFG_alt_strap p.altStrap
  let s := s.setPel { s.pel with listening := p.leadStrap }
  let s := (s.put F.PWR_VIN_vin p.vin).put ⟨R.PWR_RAIL, 16, 5⟩
    (1 + (if s.unitOk 2 then 2 else 0) + (if p.rail09 then 4 else 0) + (if p.rail12 then 8 else 0))
  s.banksCheck

/-- VIN_START (R18, R19, R29, R33, R260 to R262, R341, R467): straps, fuses and units are taken, SUP_TIME starts at 0, and the module enters
SUPERVISE. -/
def execVinStart (p : PowerUp) (s : State) : Out :=
  if s.mode ≠ .cold ∨ p.vin + vinTolMv < vinStartMv then .next s
  else .next (((s.toCold.poweredUp p).strapsTaken p).supervise true p.good)

/-- VIN_STOP (R18, R19, Table 16.3): VIN, in millivolts, below the stop threshold. -/
def execVinStop (s : State) (vin : BitVec 16 := 0) : Out := .next (if vin.toNat ≤ vinStopMv + vinTolMv then s.toCold else s)

/-- The auto-restart setting of the settings record in use (Table 09.4). -/
def State.autoRestart (s : State) : Bool := autoRestartOn s.settings

/-! ## Supervisor halves -/

/-- SUPERVISOR_FAILOVER (R29): the active half fails; the other takes over with event 0x0101 naming the failed half, and Moraine records
the retirement. Without a twin the row does not arise. -/
def execSupervisorFailover (s : State) : Out :=
  if s.mode = .cold ∨ s.latched ∨ ! s.on F.SUP_MODE_twin_ok then .next s
  else
    let h := s.get F.SUP_MODE_active_half
    let s := (s.put F.SUP_MODE_active_half (1 - h)).put F.SUP_MODE_twin_ok 0
    let s := s.put F.FLT_RET_MISC_sup (setBit (s.get F.FLT_RET_MISC_sup) h)
    .next ((s.raise 0x0101 h).morSubstituted 8 0 h 0x0101)

/-- LAST_SUPERVISOR_FAIL (R30): the hold latch parks all pins, freezes the fabric and idles the user lanes; the console falls silent and
the meter pin holds 0 V. -/
def execLastSupervisorFail (s : State) : Out :=
  if s.mode = .cold ∨ s.on F.SUP_MODE_twin_ok then .next s
  else
    let s := (List.range 48).foldl (fun s u => s.spkHold u) s
    let s := s.holdFreeze.setPwr { s.pwr with holdLatch := true }
    .next ((s.pinsPark).userLanesIdle.put F.SUP_MTR_STS_out_mv 0)

end Sys2Proof.Machine
end

