-- ==== Sys2Proof/Machine/LoaderOps.lean ====
section
/-! DEFINITION. The stream: header and manifest (R270, R271, R299), chunks and their keys (R272, R273), frame records (R274 to R276), the
one-driver table (R100), the region CRCs (R277), the copy into slot A (R391). -/

namespace Sys2Proof.Machine

/-! ## Header and manifest -/

/-- The base key that a key select names (Table 09.6). -/
def baseKey (f : Fuses) (sel : Nat) : List Byte :=
  if sel = 1 then SMap.get (fun _ => []) f.cust 0 else if sel = 2 then SMap.get (fun _ => []) f.cust 1 else if sel = 3 then f.duk else []

/-- A base key is there to use: no key, a programmed customer key, the device-unique key. -/
def keyThere (f : Fuses) (sel : Nat) : Bool :=
  sel == 0 || (sel == 1 && f.custProg.getLsbD 0) || (sel == 2 && f.custProg.getLsbD 1) || sel == 3

/-- What the checks of R271 and R299 need beside the bytes. -/
structure ManView where
  hdr : List Byte
  man : List Byte

def ManView.kind (v : ManView) : Nat := fieldAt v.hdr 6 1
def ManView.keySel (v : ManView) : Nat := fieldAt v.hdr 7 1
def ManView.chunks (v : ManView) : Nat := fieldAt v.hdr 0x0C 4
def ManView.length (v : ManView) : Nat := fieldAt v.hdr 0x10 8
def ManView.slot (v : ManView) : Nat := fieldAt v.man 7 1
def ManView.order (v : ManView) : Nat := fieldAt v.man 8 1
def ManView.regions (v : ManView) : Nat := fieldAt v.man 0x0A 2
def ManView.pkEd (v : ManView) : List Byte := slice v.man 0x100 32
def ManView.pkMl (v : ManView) : List Byte := slice v.man 0x120 1952
def ManView.signed (v : ManView) : List Byte := v.man.take 0x8C0

/-- The header stands (R271 item 1): magic, format, CRC, and the agreement with the manifest. -/
def ManView.headerOk (v : ManView) : Bool :=
  fieldAt v.hdr 0 4 == 0xA2360F10 && fieldAt v.hdr 4 2 == 1 && fieldAt v.hdr 0x3C 4 == (crc32c (v.hdr.take 0x3C)).toNat &&
    fieldAt v.hdr 8 4 == 5632 && v.kind == fieldAt v.man 6 1 && v.chunks == fieldAt v.man 0x0C 4 && v.length == fieldAt v.man 0x10 8

/-- The manifest's own fields stand (R271 items 5 to 7): format, order, chunk limit, kind, region set. -/
def ManView.fieldsOk (v : ManView) (region : Bool) : Bool :=
  fieldAt v.man 0 4 == 0xA2360F20 && fieldAt v.man 4 2 == 1 && (v.order == 0 || orderLegal v.order) &&
    decide (v.chunks ≤ if region then 66 * popBelow v.regions 16 else 1040) && v.kind == (if region then 2 else 1) && v.regions != 0

/-- The lowest code of Table 09.11 among the failed checks of R271 and R299; 0 when the manifest is accepted. -/
def manifestCode (f : Fuses) (v : ManView) (region : Bool) (set : Nat) : Nat :=
  if ! v.headerOk then 0x02
  else if ! v.fieldsOk region then 0x03
  else if 3 < v.slot || ! f.hashProg.getLsbD v.slot || f.revoked.getLsbD v.slot then 0x04
  else if SMap.get (fun _ => []) f.hashes v.slot ≠ Config.sha384 (v.pkEd ++ v.pkMl) then 0x05
  else if ! Config.ed25519Verify v.pkEd v.signed (slice v.man 0x8C0 64) then 0x06
  else if ! Config.mlDsaVerify v.pkMl [] v.signed (slice v.man 0x900 3309) then 0x07
  else if (v.keySel == 0 && (f.encRequired || fieldAt v.man 9 1 % 2 == 1)) || ! keyThere f v.keySel then 0x08
  else if region && v.regions != set then 0x0D
  else if v.chunks = 0 then 0x10
  else 0

/-- The image that a manifest describes (Table 09.7). -/
def ManView.image (v : ManView) : Image := {
  order := BitVec.ofNat 8 v.order
  waits := (List.range 4).map (fun k => fieldAt v.man (0x88 + 2 * k) 2)
  lockTimeout := fieldAt v.man 0x90 2
  design := BitVec.ofNat 32 (fieldAt v.man 0x94 4)
  version := BitVec.ofNat 32 (fieldAt v.man 0x98 4)
  hash := Config.sha384 v.signed }

/-- The load after its manifest was accepted. -/
def Load.accept (l : Load) (f : Fuses) (v : ManView) : Load := { l with
  step := if l.region then .isolate else .stream
  set := BitVec.ofNat 16 v.regions
  waiting := BitVec.ofNat 16 v.regions
  image := v.image
  crcs := (List.range 16).map (fun n => fieldAt v.man (0x48 + 4 * n) 4)
  chunks := v.chunks
  length := v.length
  keySlot := v.slot
  keySel := v.keySel
  key := baseKey f v.keySel
  nonce := slice v.hdr 0x18 16
  expect := slice v.man 0x18 48
  next := 0
  consumed := 5696 }

/-! ## Chunks -/

/-- The derivation of R273: key Ki and IV Vi from the key before it. -/
def segmentKey (key : List Byte) (i : Nat) (nonce : List Byte) : List Byte × List Byte :=
  let m := Config.hmac384 key
    (be 4 1 ++ ascii [0x56, 0x41, 0x32, 0x33, 0x36, 0x30, 0x20, 0x53, 0x45, 0x47] ++ [0] ++ be 4 i ++ nonce ++ be 4 0x160)
  (m.take 32, slice m 32 12)

/-- The hash of chunk i (R272). -/
def chunkHash (i : Nat) (body : List Byte) : List Byte := Config.sha384 (le 4 i ++ body)

/-- The bytes that a chunk occupies. -/
def chunkSize (keySel p : Nat) : Nat := 16 + p + (if keySel = 0 then 0 else 16)

/-- Steps 1 to 3 of R272 on the bytes of a chunk: the code of the first that fails, 0 for none, and the body. -/
def Load.chunkCheck (l : Load) (raw : List Byte) : Nat × List Byte :=
  let i := l.next
  let p := fieldAt raw 4 4
  let ok := if i + 1 < l.chunks then p == 65504 else decide (49 ≤ p) && decide (p ≤ 65504)
  if raw.length < 16 then (0x10, [])
  else if fieldAt raw 0 4 ≠ i || ! ok then (0x0A, [])
  else if raw.length < chunkSize l.keySel p then (0x10, [])
  else
    let body := if l.keySel = 0 then some (slice raw 16 p)
      else
        let k := segmentKey l.key i l.nonce
        Config.gcmOpen k.1 k.2 (raw.take 16) (slice raw 16 (p + 16))
    match body with
    | none => (0x09, [])
    | some b => if chunkHash i b = l.expect then (0, b) else (0x0B, [])

/-! ## The one-driver table (R100) -/

/-- The segments that the enabled entries of a logic frame drive, with repeats: the entries lie in minor 0x5F, slot bits 40 to 55. -/
def frameSegs (n col minor : Nat) (f : Frame) : List Nat :=
  if 0x40 ≤ col ∨ minor ≠ 0x5F then []
  else (List.range 72).flatMap (fun r => [false, true].filterMap (fun vert =>
    let e := f.toNat >>> (56 * r + (if vert then 48 else 40)) % 256
    let tr := e / 2 % 32
    if e % 2 = 1 ∧ tr < 24 then some (trackKey n vert (if vert then col else r) tr (trackSeg vert tr ⟨n, col, r⟩)) else none))

/-- A list names no segment twice. -/
def allApart : List Nat → Bool
  | [] => true
  | k :: ks => ! ks.contains k && allApart ks

/-- The table with the entries of a frame's old content removed and those of its new content added; none where one is there already. -/
def segsTake (t : SMap Nat) (old new : List Nat) : Option (SMap Nat) :=
  let t := old.foldl (fun t k => SMap.set (fun _ => 0) t k 0) t
  if allApart new && new.all (fun k => SMap.get (fun _ => 0) t k == 0) then some (new.foldl (fun t k => SMap.set (fun _ => 0) t k 1) t)
  else none

/-! ## Frame writes -/

/-- Where a frame of this load can be read again (the repair index, R402). -/
def Load.repairRec (l : Load) (zero : Bool) (chunk : Nat) (spans : Bool) (f : Frame) : RepairRec :=
  { zero := zero, host := l.source == 3, base := l.base, chunk := chunk, spans := spans, good := f }

/-- One frame of a record (R275 to R277): the code, 0 when it was written or skipped. -/
def State.loadFrame (s : State) (l : Load) (addr : Nat) (f : Frame) (r : RepairRec) : State × Load × Nat :=
  let n := addr / 65536 % 16
  let col := addr / 256 % 256
  let minor := addr % 256
  if ! frameLegal addr || ! l.set.getLsbD n then ((s.put F.LDR_ERRPOS_addr addr).put F.LDR_ERRPOS_valid 1, l, 0x0D)
  else if s.regionRetired n then
    let s := s.inc F.LDR_SKIPPED_count
    (if l.skipped then s else s.raise 0x0209 n, { l with skipped := true }, 0)
  else
    match segsTake s.ldr.segs (frameSegs n col minor (s.frame n col minor)) (frameSegs n col minor f) with
    | none => ((s.put F.LDR_ERRPOS_addr addr).put F.LDR_ERRPOS_valid 1, l, 0x0E)
    | some t =>
      let s := ((s.setLdr { s.ldr with segs := t }).frameWrite addr f).inc F.LDR_FRAMES_count
      let g := s.frame n col minor
      let crc := crc32cMore (SMap.get (fun _ => 0) l.crc n) (le 4 addr ++ frameBytes (cfgBits n col minor g))
      let s := s.setFlt { s.flt with index := SMap.set (fun _ => none) s.flt.index addr (some { r with good := g }) }
      (s, { l with crc := SMap.set (fun _ => 0) l.crc n crc }, 0)

/-- The frames of a record: `k` minors from m of a region and column. A minor beyond the column has no address of its own. -/
def State.loadMinors : Nat → State → Load → Nat → Nat → Frame → RepairRec → State × Load × Nat
  | 0, s, l, _, _, _, _ => (s, l, 0)
  | k + 1, s, l, top, m, f, r =>
    if 255 < m then ((s.put F.LDR_ERRPOS_addr (top * 256 + m)).put F.LDR_ERRPOS_valid 1, l, 0x0D)
    else
      let a := s.loadFrame l (top * 256 + m) f r
      if a.2.2 ≠ 0 then a else State.loadMinors k a.1 a.2.1 top (m + 1) f r

/-- The records of the bytes at hand (R274): `i` is the present chunk, `at_` the chunk in which the next record begins. What is left of an
unfinished record is carried. -/
def State.loadRecords : Nat → State → Load → List Byte → Nat → Nat → Bool → State × Load × Nat
  | 0, s, l, _, _, _, _ => (s, l, 0x0C)
  | fuel + 1, s, l, bs, i, at_, isLast =>
    let wait : State × Load × Nat := if isLast then (s, l, 0x10) else (s, { l with carry := bs, carryChunk := at_ }, 0)
    if bs.isEmpty then (if isLast then (s, l, 0x10) else (s, { l with carry := [], carryChunk := 0 }, 0))
    else if bs.length < 4 then wait
    else
      let w := fieldAt bs 0 4
      let addr := w % 2 ^ 20
      let count := w / 2 ^ 20 % 256 + 1
      let rest := bs.drop 4
      match w / 2 ^ 28 with
      | 1 =>
        if count ≠ 1 then (s, l, 0x0C)
        else if rest.length < 512 then wait
        else
          let f : Frame := BitVec.ofNat 4096 (leNat (rest.take 512))
          let spans := at_ != i
          let a := s.loadFrame { l with last := some f, lastChunk := at_, lastSpans := spans } addr f (l.repairRec false at_ spans f)
          if a.2.2 ≠ 0 then a else State.loadRecords fuel a.1 a.2.1 (rest.drop 512) i i isLast
      | 2 =>
        match l.last with
        | none => (s, l, 0x0C)
        | some f =>
          let a := s.loadMinors count l (addr / 256) (addr % 256) f (l.repairRec false l.lastChunk l.lastSpans f)
          if a.2.2 ≠ 0 then a else State.loadRecords fuel a.1 a.2.1 rest i i isLast
      | 3 =>
        let a := s.loadMinors count l (addr / 256) (addr % 256) 0 (l.repairRec true at_ false 0)
        if a.2.2 ≠ 0 then a else State.loadRecords fuel a.1 a.2.1 rest i i isLast
      | 14 =>
        if ! isLast then (s, { l with carry := [], carryChunk := 0 }, 0)
        else if rest.length < 4 then (s, l, 0x10)
        else State.loadRecords fuel s l (rest.drop (rest.length - 4)) i i isLast
      | 15 => if isLast && rest.isEmpty then (s, { l with carry := [] }, 0) else (s, l, 0x10)
      | _ => (s, l, 0x0C)

/-! ## The copy into slot A (R391) -/

/-- The slot A entry of the directory. -/
def State.slotA (s : State) : Option DirEntry := s.dirEntry 1

/-- The slot A area erased and the header and manifest of the copy written: key_sel 3, the nonce drawn for this store. -/
def State.storeBegin (s : State) (l : Load) (v : ManView) : State × Load :=
  match s.slotA with
  | none => (s, { l with storeOk := false })
  | some e =>
    if ! s.norOk then (s, { l with storeOk := false })
    else
      let nonce := Config.storeNonce s.freeCtr
      let h := v.hdr.take 7 ++ [3] ++ Machine.slice v.hdr 8 16 ++ nonce ++ Machine.slice v.hdr 0x28 20
      let h := h ++ le 4 (crc32c h).toNat
      let s := { s with freeCtr := s.freeCtr + 1 }
      (((s.norErase e.start e.len).norWrite e.start (h ++ v.man)),
        { l with storePos := 5696, storeKey := s.fuseView.duk, storeNonce := nonce })

/-- One verified chunk written to the copy. -/
def State.storeChunk (s : State) (l : Load) (hdr body : List Byte) : State × Load :=
  match s.slotA with
  | none => (s, { l with storeOk := false })
  | some e =>
    let n := 16 + body.length + 16
    if ! l.storeOk || ! s.norOk || decide (e.len < l.storePos + n) then (s, { l with storeOk := false })
    else
      let k := segmentKey l.storeKey l.next l.storeNonce
      (s.norWrite (e.start + l.storePos) (hdr ++ Config.gcmSeal k.1 k.2 hdr body), { l with storePos := l.storePos + n, storeKey := k.1 })

/-- The store ends with the load: a new directory copy with the new length and version, and slot A named as the source of the frames
(R391, R402). -/
def State.storeEnd (s : State) (l : Load) : State :=
  let a := match s.slotA with | some e => e.start | none => 0
  let es := s.directory.map (fun e => if e.type == 1 then { e with len := l.storePos, version := l.image.version.toNat } else e)
  let s := s.dirWrite es true
  let hashes := match SMap.get (fun _ => none) s.flt.streams l.base with | some t => t.hashes | none => []
  s.setFlt { s.flt with
    index := s.flt.index.map (fun e => (e.1, e.2.map (fun r => { r with host := false, base := a })))
    streams := SMap.set (fun _ => none) s.flt.streams a (some ⟨l.storeNonce, 3, hashes⟩) }

end Sys2Proof.Machine
end

