-- ==== Sys2Proof/Machine/Load.lean ====
section
/-! DEFINITION. The full load (R278 to R289, R295): start, self-test, manifest, chunks, closing check, golden fallback, start-up phases and
the entry to RUN or LIMP. The row of a chunk serves the region load as well (R302). -/

namespace Sys2Proof.Machine

/-- The loads that go on: none in the state of R30. -/
def State.fullLoad (s : State) : Option Load := if s.latched then none else s.ldr.load
def State.partLoad (s : State) : Option Load := if s.latched then none else s.ldr.regionLoad

/-! ## Steps 1 and 2 -/

/-- LDR_STS.state of a load before its start-up (Table 09.16). -/
def State.ldrShow (s : State) (l : Load) : State :=
  s.put F.LDR_STS_state (if l.region then 7 else if ! l.selftest then 1 else if l.step = .stream then 3 else if l.fallback then 6 else 2)

/-- Step 2 of Table 09.9: all frames cleared with what hangs on them, the one-driver table and the repair index cleared, the gaps set from
the repair map, which the loader reads again. -/
def State.fabricClear (s : State) : State :=
  let s := { s with fab := { s.fab with
    frames := [], nodes := [], joined := [], slices := [], ltOff := [], iso := [], stuck := [], gapFrames := [], rowErr := [],
    scrubPass := [], side := [] } }
  let s := s.setLdr { s.ldr with segs := [] }
  let s := s.setFlt { s.flt with
    index := [], streams := [], corr := [], bad := [], repairs := [], reports := [], passStart := [], checked := [], owed := [] }
  let s := (List.range 16).foldl (fun s n => s.put (F.REGION_LT_FAULT_count n) 0) s
  (((s.booksFromMap false).mapShow).retiredFromBooks).gapsFromBooks

/-- The start of a full load: what freezes, watches and compares stops (R50, R65, R422). -/
def State.loadQuiets (s : State) : State :=
  let s := (List.range 16).foldl (fun s n =>
    let s := (s.put (F.REGION_FREEZE_freeze n) 0).put (F.REGION_FREEZE_hold_freeze n) 0
    let s := s.put (F.REGION_FREEZE_settled n) 0
    (List.range 32).foldl (fun s k => s.put (F.REGION_WDG_CTL_enable n k) 0) s) s
  (List.range 8).foldl (fun s k => s.lsEnd k) s

/-- Every fabric pad high-impedance and every converter at rest, as a full load begins (R289). -/
def State.padsAway (s : State) : State :=
  (List.range 48).foldl (fun s u => let s := (List.range 8).foldl (fun s p => s.setPad u p .z) s
    s.setSpk u { s.spkU u with changed := [] }) { s with adc := [] }

/-- The start of a full load: Spokes, converters and pads reset, Cadence and the user lanes stop (R229, R252). -/
def State.loadParks (s : State) : State :=
  let s := ((List.range 48).foldl (fun s u => s.spkReset u) s).padsAway
  let s := (List.range 8).foldl (fun s c => (s.put (F.ADC_STS_busy c) 0).put (F.ADC_STS_pend c) 0) s
  let s := ((s.cadStop).pinsDefault).userLanesIdle
  (s.vcoreFixed 40).put F.GRM_STS_active 0

/-- The start of a full load: the fabric is cleared and every region is LOADING in set-reset, retired ones RETIRED (R289, R290). -/
def State.loadRegions (s : State) : State :=
  let s := s.fabricClear
  let s := if s.unitUp 9 then s else (List.range 48).foldl (fun s u => s.spokeRetire u 0) s
  let s := (s.liveOf 0xFFFF).foldl (fun s n => (s.setRegion n 3).setResetOn n) s
  (List.range 16).foldl (fun s n =>
    let s := if s.regionRetired n then (s.setRegion n 6).setResetOn n else s
    s.put (F.REGION_PR_STS_loads n) 0) s

/-- FULL_LOAD_START (R278, R189, R289, R467): steps 1 and 2 of Table 09.9. Without unit 9 the Spoke units are retired (R33); DESIGN CHOICE
(log entry 130): with cause 0, since no event names that cause. -/
def execFullLoadStart (s : State) : Out :=
  match s.fullLoad with
  | none => .next s
  | some l =>
    if l.step ≠ .entered then .next s
    else
      let sets := l.settings
      let s := (s.skipEvents sets).raise 0x0201 l.source.toNat
      let s := (s.put F.LDR_STS_source l.source.toNat).put F.LDR_STS_fallback 0
      let s := ((s.put F.LDR_STS_phases 0).put F.LDR_FRAMES_count 0).put F.LDR_SKIPPED_count 0
      let s := s.bistEnd.loadQuiets.loadParks.loadRegions
      let l := { l with step := .manifest }
      .next ((s.allRings.setLoad (some l)).ldrShow l)

/-! ## Ends -/

/-- The load ends in HOLD before its GSR phase (R280, R281, R295). -/
def State.fullFails (s : State) (l : Load) (code hold : Nat) : State :=
  let s := ((s.regionsFail).setLoad none).ldrNone
  (s.completeSrc l.src (codeStatus code) code).enterHold hold true false

/-- Table 09.14: once its manifest has declared the set of a full load, the isolation cells of that set pass; those of the other regions stay
cut (R288). DEDUCED (log entry 31): Table 09.14 is of a full load, the LOADING row of Table 10.1 of any. -/
def State.declaredPass (s : State) (set : Nat) : State :=
  ((s.liveOf 0xFFFF).foldl (fun s n => s.putB (F.REGION_ISO_STS_own_cut n) (! bitOf set n)) s).allRings

/-- An image failed in steps 4 to 6 (R280): the golden image follows that of slot A or of the host, HOLD follows the golden image. -/
def State.imageFailed (s : State) (l : Load) (code chunk : Nat) : State :=
  let s := s.ldrError code chunk
  if l.source = 2 then (s.raise 0x0205 code).fullFails l code 5
  else
    let s := (s.raise 0x0203 code).raise 0x0204 code
    let s := s.completeSrc l.src (codeStatus code) code
    let s := (s.put F.LDR_STS_source 2).put F.LDR_STS_fallback 1
    let g : Load := {
      region := false, source := 2, fromEntry := 0, set := 0, activate := true, store := false, src := none
      step := .manifest, selftest := l.selftest, fallback := true, settings := l.settings, started := l.started }
    ((s.fabricClear.declaredPass 0).setLoad (some g)).ldrShow g

/-- A region load failed before isolation (R299), or after it (R302). -/
def State.regionFailed (s : State) (l : Load) (code chunk : Nat) : State :=
  let s := (s.ldrError code chunk).prError l.set.toNat code chunk
  let s := if l.step = .entered ∨ l.step = .manifest then s.raise 0x0214 l.set.toNat else s.partialFault l.set.toNat l.waiting
  ((s.setRegionLoad none).ldrIdle).completeSrc l.src (codeStatus code) code

/-- A load failed with a code. -/
def State.loadFailed (s : State) (l : Load) (code chunk : Nat) : State :=
  if l.region then s.regionFailed l code chunk else s.imageFailed l code chunk

/-- The load kept after a step. -/
def State.keepLoad (s : State) (l : Load) : State := if l.region then s.setRegionLoad (some l) else s.setLoad (some l)

/-! ## Step 3 -/

/-- STARTUP_SELFTEST_DONE (R267, R281, R415, R429): the test has found these failures; `wrOk` says whether Moraine could write the map for a
retirement that the test made. -/
def execStartupSelftestDone (found : List TestFault) (wrOk : Bool) (s : State) : Out :=
  match s.fullLoad with
  | none => .next s
  | some l =>
    if l.selftest ∨ l.step = .entered then .next s
    else
      let mapOk := s.mapView.ok
      let s := (s.liveOf 0xFFFF).foldl (fun s n => s.secretClear n) s
      let live := (s.liveOf 0xFFFF).foldl (fun a n => a + 2 ^ n) 0
      let r := s.hardTest 2 live l.started found
      let out := r.2.2.eraseDups
      let ess := out.any (fun n => bitOf (essentialSet l.settings) n)
      let wrote := r.1.mapAt.isSome && wrOk
      let fail := ! mapOk || ess || (! out.isEmpty && ! wrote)
      if fail then .next ((r.1.ldrError 0x12 0xFFFF).fullFails l 0x12 6)
      else
        let s := out.foldl (fun s n => s.regionRetire n 0x0405) r.1
        let s := if out.isEmpty then s else (match s.mapWrite with
          | some t => t.put F.FLT_MOR_STS_pending 0
          | none => s)
        let l := { l with selftest := true }
        .next ((s.setLoad (some l)).ldrShow l)

/-! ## Step 4 -/

/-- The load whose header and manifest are awaited. -/
def State.manifestLoad (s : State) : Option Load :=
  match s.fullLoad with
  | some l => if l.step = .manifest ∧ s.on F.CAD_STS_pll_lock then some l else none
  | none => match s.partLoad with
    | some l => if l.step = .entered ∨ l.step = .manifest then some l else none
    | none => none

/-- Where a stream lies in the settings memory; none where it cannot be read (code 0x01). -/
def State.streamBase (s : State) (l : Load) : Option Nat :=
  if ! s.norOk then none
  else if l.region then (s.directory[l.fromEntry]?).map DirEntry.start
  else if l.source = 1 then s.slotA.map DirEntry.start
  else
    let blank := (s.norRead 0x08000000 64).all (· == 0xFF)
    if (s.dirEntry 2).isNone || blank then none else some 0x08000000

/-- MANIFEST_VERIFIED (R271, R299, R374): the header and manifest have been read, from the settings memory or as the host delivered them, and
checked. -/
def execManifestVerified (host : Option (List Byte)) (s : State) : Out :=
  match s.manifestLoad with
  | none => .next s
  | some l =>
    let fromHost := l.source = 3
    let base := if fromHost then some 0 else s.streamBase l
    match base, (if fromHost then host else some []) with
    | _, none => .next s
    | none, _ => .next (s.loadFailed l 0x01 0xFFFF)
    | some b, some h =>
      if fromHost ∧ ! s.hif.bme then .next s else
      let raw := if fromHost then h else s.norRead b 5696
      let v : ManView := ⟨raw.take 64, slice raw 64 5632⟩
      let code := if raw.length < 5696 then 0x10 else manifestCode s.fuseView v l.region l.set.toNat
      if code ≠ 0 then .next (s.loadFailed l code 0xFFFF)
      else
        let l := { l.accept s.fuseView v with base := b }
        let a := if l.store then s.storeBegin l v else (s, l)
        let s := a.1.setFlt { a.1.flt with streams := SMap.set (fun _ => none) a.1.flt.streams b (some ⟨a.2.nonce, a.2.keySel, []⟩) }
        let s := if a.2.region then (s.liveOf a.2.set.toNat).foldl (fun s n => s.isoSince n) s else s.declaredPass a.2.set.toNat
        .next ((s.keepLoad a.2).ldrShow a.2)

/-! ## Start-up of a full load -/

/-- The order in force (R285). -/
def Load.order (l : Load) : Nat := orderInForce l.image.order l.settings

/-- The last entry at an offset enables what it names. -/
def entryEnables (l : List (Nat × Word)) (off : Nat) : Bool :=
  match (l.filter (fun e => e.1 == off)).getLast? with
  | some e => e.2.getLsbD 0
  | none => false

/-- A register with an enable that the LOCK phase holds: sources, tracks, user groups. -/
def lockHolds (off : Nat) : Bool :=
  (List.range 4).any (fun n => off == R.CAD_SRC_CTL n) || (List.range 8).any (fun t => off == R.CAD_TRK_CTL t) ||
    (List.range 12).any (fun g => off == R.GRP_CTL g)

/-- The LOCK phase (R189, R228, R336): Cadence and the user groups are set up and started, the updates are counted anew. -/
def State.lockPhase (s : State) (sets : List Section) : State :=
  let cad := listEntries sets 5
  let s := s.applyList (heldEnable lockHolds cad) (within 0x40000 0x50000)
  let s := s.ringRebase
  let s := ({ s with cad := { s.cad with run := true } }.wr R.CAD_UPD_LO 0).wr R.CAD_UPD_HI 0
  let s := (List.range 4).foldl (fun s n => if entryEnables cad (R.CAD_SRC_CTL n) then s.srcStart n else s) s
  let s := (List.range 8).foldl (fun s t => if entryEnables cad (R.CAD_TRK_CTL t) then s.trkStart t else s) s
  let s := s.applyList (heldEnable lockHolds (listEntries sets 3)) (fun o => decide (6 ≤ offGroup o) && decide (offGroup o < 12))
  (List.range 12).foldl (fun s g => if bitOf (lockGroups sets) g && isUserGrp g then s.grpEnable g else s) s

/-- The timebase PLL is locked, every track with lock_wait is in TRACK, and every named group PLL is locked (Table 09.13). -/
def State.lockDone (s : State) (groups : Nat) : Bool :=
  s.on F.CAD_STS_pll_lock && (List.range 8).all (fun t => ! s.on (F.CAD_TRK_CTL_lock_wait t) || s.trkState t == 2) &&
    (List.range 12).all (fun g => ! (bitOf groups g && ! isPcie g) || s.on (F.GRP_STS_pll_lock g))

/-- A unit begins to run at its OUT phase: its pads leave the pull state for their park levels (R286, R243). -/
def State.unitGo (s : State) (u : Nat) : State := (s.setSpk u { s.spkU u with out := true }).spkPark u

/-- An offset in the pages of the Spoke units or converters, or of a bank (R459, R259; the converters DEDUCED, log entry 22). -/
def spokePage (off : Nat) : Bool := within 0x50000 0x80200 off || within 0x90800 0x90880 off

/-- The OUT phase (R259, R286, R459, R478). A retired unit takes part with its pins alone, which park (R428). -/
def State.outPhase (s : State) (sets : List Section) : State :=
  let s := (s.applyList (listEntries sets 1) (within 0x90000 0xA0000)).pinsConfigure
  let s := s.applyList (listEntries sets 2) spokePage
  let s := s.applyList (listEntries sets 6) (fun o => within 0x2E0000 0x2F0000 o && o != R.PWR_CAP)
  let s := (List.range 48).foldl (fun s u => s.unitGo u) s
  (List.range 8).foldl (fun s c => s.setAdc c { s.adcC c with out := true }) s

/-- Groomer, lockstep and self-test settings: GRM_CFG is RO to the host and written only from the settings copy that the supervisor holds
(R405, chapter 14). -/
def State.faultSettings (s : State) (sets : List Section) : State :=
  let s := s.setFlt { s.flt with held := sets }
  (listEntries sets 8).foldl (fun s e =>
    if e.1 = R.GRM_CFG then s.wr R.GRM_CFG (e.2 &&& 0x3F)
    else if within 0x2C0000 0x2E0000 e.1 then s.regWrite e.1 e.2 else s) s

/-- The GSR phase: set-reset released in the declared set. -/
def State.gsrPhase (s : State) (l : Load) : State :=
  let live := s.liveOf l.set.toNat
  let s := s.faultSettings l.settings
  s.setResetOff (live.foldl (fun a n => a ||| BitVec.ofNat 16 (2 ^ n)) 0)

/-- The WEN phase in a set of regions (R131, R136). -/
def State.wenPhase (s : State) (set : Nat) : State :=
  { s with fab := { s.fab with wen := (s.liveOf set).foldl (fun a n => a ||| BitVec.ofNat 16 (2 ^ n)) s.fab.wen } }

/-- Entry to RUN or LIMP (R278 step 8, R257, R286, R295, R336, R352, R399, R407). -/
def State.enterRun (s : State) (l : Load) : State :=
  let set := l.set.toNat
  let s := s.designRuns l
  let s := (((s.put F.LDR_MAN_regions set).put F.LDR_MAN_order l.order).put F.LDR_MAN_key_slot l.keySlot).put F.LDR_MAN_key_sel l.keySel
  let s := (s.wr R.LDR_DESIGN l.image.design).wr R.LDR_IMGVER l.image.version
  let s := if l.fallback then s else ((s.put F.LDR_ERR_code 0).put F.LDR_ERR_status 0).put F.LDR_ERR_chunk 0xFFFF
  let s := s.setLdr { s.ldr with
    load := none
    full := some l.image }
  let s := s.setMode (if s.anyRetired then .limp else .run)
  let s := (s.ldrIdle).raise 0x0202 l.source.toNat
  let s := (s.drlStart).put F.GRM_STS_active (if s.grmRuns then (s.liveOf set).foldl (fun a n => a + 2 ^ n) 0 else 0)
  let s := (s.liveOf set).foldl State.grmFresh s
  let s := if s.unitUp 10 then s.bistPass else s
  let groups := listEntries l.settings 3
  let s := (List.range 12).foldl (fun s g =>
    if ! isUserGrp g then s
    else if s.on (F.GRP_CTL_enable g) ∨ entryEnables groups (R.GRP_CTL g) then s.grpEnable g else s) s
  let s := s.pelEnumerate
  s.completeSrc l.src (if l.store && ! l.storeOk then 8 else 0) (if l.store && ! l.storeOk then 0x0100 else 0)

/-- A phase code complete; the last phase ends the time of the load (Table 09.16). -/
def State.phaseShow (s : State) (l : Load) (code : Nat) : State :=
  let s := s.put F.LDR_STS_phases (setBit (s.get F.LDR_STS_phases) code)
  if l.pos = 3 then s.wr R.LDR_TIME (BitVec.ofNat 32 (s.time - l.started)) else s

/-- The phases from position `pos` on: each runs, and the next follows when its wait is 0 (R286). LOCK ends with its own rows. -/
def State.phases : Nat → State → Load → State
  | 0, s, l => s.enterRun l
  | k + 1, s, l =>
    if 4 ≤ l.pos then s.enterRun l
    else
      let code := phaseAt l.order l.pos
      if code = 0 then (s.lockPhase l.settings).setLoad (some { l with phaseDone := false })
      else
        let s := if code = 1 then s.outPhase l.settings else if code = 2 then s.gsrPhase l else s.wenPhase l.set.toNat
        let s := s.phaseShow l code
        if l.image.waits.getD l.pos 0 = 0 then State.phases k s { l with pos := l.pos + 1 }
        else s.setLoad (some { l with phaseDone := true })

/-- The LOCK phase is complete: its wait begins. -/
def State.lockEnd (s : State) (l : Load) : State :=
  let s := s.phaseShow l 0
  if l.image.waits.getD l.pos 0 = 0 then s.phases 4 { l with pos := l.pos + 1 } else s.setLoad (some { l with phaseDone := true })

/-- The full load whose LOCK phase runs. -/
def State.lockLoad (s : State) : Option Load :=
  match s.fullLoad with
  | some l => if l.step = .startup ∧ ! l.phaseDone ∧ l.pos < 4 ∧ phaseAt l.order l.pos = 0 then some l else none
  | none => none

/-- LOCK_PHASE_COMPLETE (R286). -/
def execLockPhaseComplete (s : State) : Out :=
  match s.lockLoad with
  | none => .next s
  | some l => .next (if s.lockDone (lockGroups l.settings) then s.lockEnd l else s)

/-- LOCK_TIMEOUT (R287). -/
def execLockTimeout (s : State) : Out :=
  match s.lockLoad with
  | none => .next s
  | some l => .next (((s.put F.LDR_STS_lock_late 1).raiseFree 0x0207).lockEnd l)

/-- PHASE_WAIT_EXPIRY (R286): the wait after the phase in position k has passed. -/
def execPhaseWaitExpiry (s : State) : Out :=
  match s.fullLoad with
  | none => .next s
  | some l =>
    if l.step ≠ .startup ∨ ! l.phaseDone then .next s
    else .next (s.phases 4 { l with pos := l.pos + 1, phaseDone := false })

/-! ## Steps 5 and 6 -/

/-- The closing check (R277): 0, 0x10 for a wrong count or length, 0x0F for a region whose CRC differs. -/
def State.closingCheck (s : State) (l : Load) : Nat :=
  if l.next ≠ l.chunks ∨ l.consumed ≠ l.length then 0x10
  else if (s.liveOf l.set.toNat).all (fun n => (SMap.get (fun _ => 0) l.crc n).toNat == l.crcs.getD n 0) then 0 else 0x0F

/-- A stream has ended well: Firn check bits, the store, then start-up. A region load hands its regions to a start-up of regions, or leaves
them ISOLATED (R298 step 6). -/
def State.streamDone (s : State) (l : Load) : State :=
  let s := (s.liveOf l.set.toNat).foldl (fun s n => (s.firnLoaded n).firnIndexed n) s
  if ! l.region then
    let s := if l.store && l.storeOk then s.storeEnd l else s
    (s.put F.LDR_STS_state 5).phases 4 { l with step := .startup, pos := 0, phaseDone := false }
  else
    let set := l.set.toNat
    let s := (s.liveOf set).foldl (fun s n =>
      let s := ((s.wr (R.REGION_PR_IMG n) l.image.design).wr (R.REGION_PR_VER n) l.image.version).put (F.REGION_PR_STS_by_full n) 0
      s.setLdr { s.ldr with images := SMap.set (fun _ => {}) s.ldr.images n l.image }) s
    let s := s.setRegionLoad none
    if l.activate then
      let s := (s.liveOf set).foldl (fun s n => (s.setRegion n 4).put (F.REGION_PR_STS_phases n) 0) s
      s.setLdr { s.ldr with acts := s.ldr.acts ++ [⟨l.set, true, l.src, l.image, l.settings, 0, false⟩] }
    else
      let s := (s.liveOf set).foldl (fun s n => (s.setRegion n 2).inc (F.REGION_PR_STS_loads n)) s
      ((s.prError set 0 0xFFFF).ldrIdle).completeSrc l.src 0 0

/-- The load that takes chunks. -/
def State.chunkLoad (s : State) : Option Load :=
  match s.fullLoad with
  | some l => if l.step = .stream ∧ l.selftest then some l else none
  | none => match s.partLoad with
    | some l => if l.step = .stream then some l else none
    | none => none

/-- A verified chunk: its records written, its hash kept, its copy stored, the next segment's key derived; after the last one the closing
check. -/
def State.chunkGood (s : State) (l : Load) (raw body : List Byte) : State :=
  let i := l.next
  let isLast := decide (l.chunks ≤ i + 1)
  let recs := body.take (body.length - 48)
  let a := if l.store then s.storeChunk l (raw.take 16) body else (s, l)
  let l := a.2
  let s := match SMap.get (fun _ => none) a.1.flt.streams l.base with
    | some t => a.1.setFlt { a.1.flt with streams := SMap.set (fun _ => none) a.1.flt.streams l.base (some { t with hashes := t.hashes ++ [chunkHash i body] }) }
    | none => a.1
  let bs := l.carry ++ recs
  let r := s.loadRecords (bs.length + 2) l bs i (if l.carry.isEmpty then i else l.carryChunk) isLast
  if r.2.2 ≠ 0 then r.1.loadFailed r.2.1 r.2.2 i
  else
    let l := { r.2.1 with
      next := i + 1
      consumed := l.consumed + chunkSize l.keySel body.length
      key := (segmentKey l.key i l.nonce).1
      expect := body.drop (body.length - 48) }
    if ! isLast then r.1.keepLoad l
    else
      let s : State := if l.region then r.1 else r.1.put F.LDR_STS_state 4
      let c : Nat := s.closingCheck l
      if c ≠ 0 then s.loadFailed l c 0xFFFF else s.streamDone l

/-- CHUNK_RECEIVED (R272, R282, R374): one chunk arrives whole, from the host or as the settings memory delivered it; without bytes, as it stands in
the settings memory. One from the settings memory that fails is read once more. -/
def execChunkReceived (read : Option (List Byte)) (s : State) : Out :=
  match s.chunkLoad with
  | none => .next s
  | some l =>
    if l.source = 3 then
      match read with
      | none => .next s
      | some raw =>
        if ! s.hif.bme then .next s else
        let c := l.chunkCheck raw
        .next (if c.1 = 0 then s.chunkGood l raw c.2 else s.loadFailed l c.1 l.next)
    else if ! s.norOk then .next (s.loadFailed l 0x01 l.next)
    else
      let at_ := l.base + l.consumed
      let mem := s.norRead at_ (chunkSize l.keySel (min 65504 (s.norNat (at_ + 4) 4)))
      let raw := read.getD mem
      let c := l.chunkCheck raw
      if c.1 = 0 then .next (s.chunkGood l raw c.2)
      else
        let s := s.raise 0x020A l.next
        let d := l.chunkCheck mem
        .next (if d.1 = 0 then s.chunkGood l mem d.2 else s.loadFailed l d.1 l.next)

end Sys2Proof.Machine
end

