-- ==== Sys2Proof/Machine/Partial.lean ====
section
/-! DEFINITION. Loading, isolating and activating regions (chapter 10). -/

namespace Sys2Proof.Machine

/-- REGION_ISOLATE_STEP (R300): step 3 of Table 10.3 on one region, once a migration has released its column. -/
def execRegionIsolateStep (n : Fin 16) (s : State) : Out :=
  match s.partLoad with
  | none => .next s
  | some l =>
    if l.step ≠ .isolate ∨ ! l.waiting.getLsbD n ∨ s.on (F.REGION_COLMAP_moving n) then .next s
    else
      let w := l.waiting &&& ~~~ BitVec.ofNat 16 (2 ^ n.val)
      let s := if s.regionRetired n then s else s.isolateForLoad n
      let rest := (s.liveOf w.toNat).isEmpty
      .next (s.setRegionLoad (some { l with waiting := w, step := if rest then .stream else .isolate }))

/-! ## Commands -/

/-- A region of a set belongs to a pair that compares (R297). -/
def State.setCompares (s : State) (set : Nat) : Bool := (List.range 16).any (fun n => bitOf set n && s.on (F.FLT_LS_STS_comparing (n / 2)))

/-- A region load in progress names a region of a set (Table 10.6). -/
def State.setLoads (s : State) (set : Nat) : Bool := s.ldr.regionLoad.any (fun l => l.set.toNat &&& set != 0)

/-- Every region of a set is in one of some states (Table 10.2). -/
def State.setIn (s : State) (set : Nat) (states : List Nat) : Bool :=
  (List.range 16).all (fun n => ! bitOf set n || states.contains (s.regionState n))

/-- A region load is in progress, its start-up included. -/
def State.regionLoads (s : State) : Bool := s.ldr.regionLoad.isSome || s.ldr.acts.any (·.byLoad)

/-- LOAD_PARTIAL (R297, R298, R374, R523); `list` is the host list as it was read. -/
def execLoadPartial (list : List Byte) (s : State) : Out :=
  s.runAccepted (fun d => isOp 0x11 d && (d.fromEntry || s.hif.bme)) (fun c s =>
    let set := c.d.set
    if ! c.d.fromEntry && (hostList c.d list).isNone then s.complete c.src 2 0
    else if s.regionLoads then s.complete c.src 6 0
    else if ! s.setIn set [0, 1, 2, 5] || s.setCompares set then s.complete c.src 3 0
    else if ! s.unitOk 7 then s.complete c.src 3 0x14
    else
      let sets := s.settings
      let s := ((s.skipEvents sets).raise 0x0210 set).runCmd c
      let s := ((s.put F.LDR_STS_state 7).put F.LDR_FRAMES_count 0).put F.LDR_SKIPPED_count 0
      s.setRegionLoad (some {
        region := true
        source := if c.d.fromEntry then 0 else 3
        fromEntry := c.d.arg1.toNat
        set := BitVec.ofNat 16 set
        activate := c.d.arg0.getLsbD 16
        store := false
        src := some c.src
        step := .manifest
        settings := sets
        started := s.time }))

/-- ISOLATE_REGION (R306): it waits for a migration of its regions as a load does. -/
def execIsolateRegion (s : State) : Out :=
  s.runAccepted (fun d => isOp 0x13 d && (List.range 16).all (fun n => ! bitOf d.set n || ! s.on (F.REGION_COLMAP_moving n))) (fun c s =>
    let set := c.d.set
    if ! s.setIn set [1] || s.setCompares set || s.setLoads set then s.complete c.src 3 0
    else
      let s := (s.liveOf set).foldl (fun s n => (s.isolate n 2).isoSince n) s
      let s := (s.raise 0x0213 set).complete c.src 0 0
      (List.range 16).foldl (fun s n => if bitOf set n then s.repairsFail n else s) s)

/-- The regions of a set were loaded with the same order and waits (R306). -/
def State.sameStart (s : State) (set : Nat) : Bool :=
  let img (n : Nat) : Image := SMap.get (fun _ => {}) s.ldr.images n
  let a := img (lowestBit set 16)
  (List.range 16).all (fun n => ! bitOf set n || ((img n).order == a.order && (img n).waits == a.waits))

/-- ACTIVATE_REGION (R297, R306): the start-up of its regions begins. -/
def execActivateRegion (s : State) : Out :=
  s.runAccepted (isOp 0x12) (fun c s =>
    let set := c.d.set
    if ! s.setIn set [2] || s.setCompares set || s.setLoads set then s.complete c.src 3 0
    else if ! s.sameStart set then s.complete c.src 2 0
    else
      let s := ((s.liveOf set).foldl (fun s n => (s.setRegion n 4).put (F.REGION_PR_STS_phases n) 0) s).runCmd c
      s.setLdr { s.ldr with acts := s.ldr.acts ++
        [⟨BitVec.ofNat 16 set, false, some c.src, SMap.get (fun _ => {}) s.ldr.images (lowestBit set 16), s.settings, 0, false⟩] })

/-! ## Start-up of regions (R304) -/

/-- The converters whose settings or registers bind them to units of a set of regions. -/
def State.convOf (s : State) (live : List Nat) (sets : List (Nat × Word)) (c : Nat) : Bool :=
  let u := match (sets.filter (fun e => e.1 == R.ADC_CTL c)).getLast? with
    | some e => e.2.toNat / 2 % 64
    | none => s.get (F.ADC_CTL_unit c)
  decide (u < 48) && live.contains (unitRegion u)

/-- The OUT phase of regions (Table 10.5). -/
def State.regionOutPhase (s : State) (live : List Nat) (sets : List Section) : State :=
  let l := listEntries sets 2
  let s := s.applyList l (fun o =>
    (within 0x50000 0x80000 o && live.contains (unitRegion (pageSlot 0x50000 0x1000 o))) ||
      (within 0x80000 0x80200 o && s.convOf live l (pageSlot 0x80000 0x40 o)))
  live.foldl (fun s n => (unitsOf n).foldl (fun s u => s.unitGo u) s) s

/-- De-isolation (R304): the rings leave the cut state, the regions read ACTIVE, the Groomer resumes, event 0x0211. -/
def State.deIsolate (s : State) (a : Activation) : State :=
  let live := s.liveOf a.set.toNat
  let s := (live.foldl (fun s n => s.setRegion n 1) s).allRings
  let s := live.foldl (fun s n =>
    let s := s.wr (R.REGION_PR_TIME n) (BitVec.ofNat 32 (s.time - SMap.get (fun _ => 0) s.ldr.isoAt n))
    let s := if a.byLoad then s.inc (F.REGION_PR_STS_loads n) else s
    let s := s.spokesQuiet n
    let s := if s.grmRuns then s.put F.GRM_STS_active (setBit (s.get F.GRM_STS_active) n) else s
    (s.grmFresh n).wdgSync n) s
  let s := s.raise 0x0211 a.set.toNat
  let s := if a.byLoad then (s.prError a.set.toNat 0 0xFFFF).ldrIdle else s
  s.completeSrc a.src 0 0

/-- One phase of a start-up of regions, for the regions of its set that are not retired. -/
def State.regionPhase (s : State) (a : Activation) (code : Nat) : State :=
  let live := s.liveOf a.set.toNat
  let s := match code with
    | 1 => s.regionOutPhase live a.settings
    | 2 => s.setResetOff (live.foldl (fun b n => b ||| BitVec.ofNat 16 (2 ^ n)) 0)
    | 3 => s.wenPhase a.set.toNat
    | _ => s
  live.foldl (fun s n => s.put (F.REGION_PR_STS_phases n) (setBit (s.get (F.REGION_PR_STS_phases n)) code)) s

/-- A start-up of regions kept, or ended with de-isolation after its last phase and wait. -/
def State.actKeep (s : State) (old a : Activation) : State :=
  if 4 ≤ a.pos then (s.setLdr { s.ldr with acts := s.ldr.acts.erase old }).deIsolate a
  else s.setLdr { s.ldr with acts := s.ldr.acts.map (fun b => if b == old then a else b) }

/-- REGION_PHASE_ADVANCE (R304, Table 10.5): the start-up of the regions of a set goes on by one phase, or by the wait that follows it;
`late` says that lock_timeout has passed (R287). -/
def execRegionPhaseAdvance (set : BitVec 16) (late : Bool) (s : State) : Out :=
  match (if s.latched then none else s.ldr.acts.find? (fun a => a.set == set)) with
  | none => .next s
  | some a =>
    if a.phaseDone then .next (s.actKeep a { a with pos := a.pos + 1, phaseDone := false })
    else
      let code := phaseAt (orderInForce a.image.order a.settings) a.pos
      if code = 0 ∧ ! s.lockDone 0 ∧ ! late then .next s
      else
        let s := if code = 0 ∧ ! s.lockDone 0 then
            ((s.liveOf set.toNat).foldl (fun s n => s.put (F.REGION_PR_STS_lock_late n) 1) (s.put F.LDR_STS_lock_late 1)).raiseFree 0x0207
          else s
        let s := s.regionPhase a code
        if a.image.waits.getD a.pos 0 = 0 then .next (s.actKeep a { a with pos := a.pos + 1 })
        else .next (s.actKeep a { a with phaseDone := true })

end Sys2Proof.Machine
end

