-- ==== Sys2Proof/Machine/Groomer.lean ====
section
/-! DEFINITION. The Groomer (R399 to R406), the long-track sensors (R101, R102) and the stall watchdogs (R61 to R64). -/

namespace Sys2Proof.Machine

/-! ## Errors of a frame -/

/-- A number without its lowest bit set. -/
def dropBit (v : Nat) : Nat := v &&& (v - 1)

/-- One bit is wrong. -/
def oneBit (e : Nat) : Bool := e != 0 && dropBit e == 0

/-- The code detects the error (R399): 2 or 3 bits, or a burst of at most 32 adjacent bits. -/
def sureDetect (e : Nat) : Bool := dropBit (dropBit (dropBit e)) == 0 || decide (Nat.log2 e < Nat.log2 (e ^^^ dropBit e) + 32)

/-- The bits of a frame that the ECC covers: its configuration, with the contents of Firn blocks that a port writes taken as 0 from the WEN
phase on (R87, R121, R145, R399). -/
def State.groomBits (s : State) (n col minor : Nat) (f : Frame) : Frame :=
  if 0x44 ≤ col ∧ col < 0x4C ∧ minor < 171 ∧ s.fab.wen.getLsbD n ∧ s.firnWritten n ((col - 0x44) / 4) (18 * ((col - 0x44) % 4) + minor / 9)
  then 0 else cfgBits n col minor f

/-- The logical column that a migration of region n is about to move: the live column next to the gap (R404, R411). -/
def State.movingCol (s : State) (n : Nat) : Option Nat :=
  let ph := s.get F.BIST_STS_phase
  if s.get F.BIST_STS_region ≠ n ∨ (ph ≠ 2 ∧ ph ≠ 3 ∧ ph ≠ 5) then none
  else
    let g := s.get F.BIST_STS_group
    let gap := s.colGap n g
    some (16 * g + (if ph = 5 then gap else gap - 1))

/-- The physical column of a logical one (R103). -/
def State.physCol (s : State) (n c : Nat) : Nat := 17 * (c / 16) + (if c % 16 < s.colGap n (c / 16) then c % 16 else c % 16 + 1)

/-! ## Findings -/

/-- A single-bit error corrected; in 3 consecutive passes the frame is reported (R400). -/
def State.sbu (s : State) (n col minor : Nat) (e : Frame) : State :=
  let a := frameAddr n col minor
  let bit := Nat.log2 e.toNat
  let pass := s.get (F.GRM_RCYC_passes n)
  let h := SMap.get (fun _ => (0, 0, 0)) s.flt.corr a
  let k := if h.2.1 = 0 ∨ h.1 ≠ bit then 1
    else if h.2.2 = pass then h.2.1 else if (h.2.2 + 1) % 65536 = pass then h.2.1 + 1 else 1
  let s := s.setFlt { s.flt with
    bad := SMap.set (fun _ => 0) s.flt.bad a 0
    corr := SMap.set (fun _ => (0, 0, 0)) s.flt.corr a (bit, k, pass) }
  let s := (s.sat F.GRM_SBU_count).raiseLim 1000 0x0301 n n
  if k < 3 then s
  else
    let s := ((s.put F.GRM_PERSIST_addr a).put F.GRM_PERSIST_valid 1).raise 0x0307 n
    let s := s.setFlt { s.flt with corr := SMap.set (fun _ => (0, 0, 0)) s.flt.corr a (0, 0, 0) }
    if col < 0x40 then s.morReport 1 n (s.physCol n col) 0x0307 else s

/-- An uncorrectable error found and a repair started (R401). -/
def State.mbu (s : State) (n a : Nat) : State :=
  if s.flt.repairs.contains a then s
  else
    let s := (s.sat F.GRM_MBU_detected).raise 0x0302 n
    let s := if s.on F.GRM_MBU_POS_valid then s
      else ((s.put F.GRM_MBU_POS_addr a).put F.GRM_MBU_POS_outcome 0).put F.GRM_MBU_POS_valid 1
    s.setFlt { s.flt with repairs := s.flt.repairs ++ [a] }

/-- A copy outvoted (R405). -/
def State.groomVote (s : State) (n : Nat) (out : Option (Fin 3)) : State :=
  match out with
  | some c => ((s.sat F.GRM_SELF_vote).put F.GRM_SELF_copies (setBit (s.get F.GRM_SELF_copies) c.val)).raise 0x0305 n
  | none => s

/-- What the held settings copy gives GRM_CFG: its last entry of section 0x0008, else the reset value. -/
def State.heldCfg (s : State) : Word :=
  match ((listEntries s.flt.held 8).filter (fun e => e.1 == R.GRM_CFG)).getLast? with
  | some e => e.2 &&& 0x3F
  | none => 0x31

/-- The setting latches rewritten from the held settings copy; one that disagreed is reported (R405). -/
def State.latchesRewrite (s : State) (n : Nat) (latch : Bool) : State :=
  let s := s.wr R.GRM_CFG s.heldCfg
  let s := if s.on F.GRM_CFG_enable then s else s.put F.GRM_STS_active 0
  if latch then (s.sat F.GRM_SELF_latch).raise 0x0305 n else s

/-- A pass of engine n is under way: it has checked a frame. -/
def State.passOpen (s : State) (n : Nat) : Bool := s.flt.checked.any (fun e => e.1 / 256 == n)

/-- The start of a pass (R405): the latches are rewritten from the held copy. Where its CRC fails (`bad`), the supervisor reads the settings
record again; where that read fails too, the latches keep their values. -/
def State.passBegin (s : State) (n : Nat) (bad latch : Bool) : State :=
  if s.passOpen n then s
  else if ! bad then s.latchesRewrite n latch
  else match s.settingsRecord (s.get F.LDR_STS_set_copy) with
    | some r => (s.setFlt { s.flt with held := r.2 }).latchesRewrite n latch
    | none => s

/-- A frame that engine n may check now: while frames of a moved column wait, one of those (R404). -/
def State.frameDue (s : State) (n c m : Nat) : Bool :=
  ! s.flt.owed.any (fun e => e.1 / 256 == n) || bitOf (SMap.get (fun _ => 0) s.flt.owed (n * 256 + c)) m

/-- A frame checked. -/
def State.frameChecked (s : State) (n c m : Nat) : State :=
  let k := n * 256 + c
  s.setFlt { s.flt with
    checked := SMap.set (fun _ => 0) s.flt.checked k (setBit (SMap.get (fun _ => 0) s.flt.checked k) m)
    owed := SMap.set (fun _ => 0) s.flt.owed k (clrBit (SMap.get (fun _ => 0) s.flt.owed k) m) }

/-- Engine n has checked every frame of its region but those of a column in migration (R399, R404). -/
def State.passFull (s : State) (n : Nat) : Bool :=
  (List.range 0x4E).all (fun c =>
    s.movingCol n == some c || SMap.get (fun _ => 0) s.flt.checked (n * 256 + c) == 2 ^ minorsOf c - 1)

/-- New content of a frame; what waits in the cells follows the new configuration (R89). -/
def State.frameNew (s : State) (a : Nat) (v : Frame) : State :=
  if s.frame (a / 65536) (a / 256 % 256) (a % 256) = v then s else (s.setFrame a v).fabSettle

/-- A pass of an engine completed (Table 14.12), its time in units of 10 microseconds. -/
def State.grmPass (s : State) (n : Nat) : State :=
  let start := SMap.get (fun _ => 0) s.flt.passStart n
  let s := (s.put (F.GRM_RCYC_last n) ((s.time - start) / 10)).inc (F.GRM_RCYC_passes n)
  s.setFlt { s.flt with
    passStart := SMap.set (fun _ => 0) s.flt.passStart n s.time
    checked := SMap.keep s.flt.checked (fun k => k / 256 != n) }

/-- GROOMER_FRAME_CHECK (R399 to R401, R404, R405): engine n checks a frame in which these bits have flipped; `out` names an outvoted copy,
`latch` a latch that disagreed and `held` a held settings copy whose CRC fails, where a pass starts; `last` ends the pass once every frame
is checked. A frame of a
migrating column is not checked: its flips stay. Whether an error of more than 3 bits that is no short burst is detected is open. -/
def execGroomerFrameCheck (n : Fin 16) (col minor : BitVec 8) (flips : BitVec 4096) (out : Option (Fin 3)) (latch last : Bool) (s : State)
    (held : Bool := false) : Out :=
  let c := col.toNat
  let m := minor.toNat
  if ! s.on F.GRM_CFG_enable || ! bitOf (s.get F.GRM_STS_active) n || decide (minorsOf c ≤ m) || ! s.frameDue n c m then .next s
  else
    let a := frameAddr n c m
    let s := (s.passBegin n held latch).groomVote n out
    let f := s.groomBits n c m flips
    let e := SMap.get (fun _ => 0) s.flt.bad a ^^^ f
    let s := if s.movingCol n = some c then
        (s.setFlt { s.flt with bad := SMap.set (fun _ => 0) s.flt.bad a e }).frameNew a (s.frame n c m ^^^ f)
      else if oneBit e.toNat then ((s.frameChecked n c m).frameNew a (s.frame n c m ^^^ f ^^^ e)).sbu n c m e
      else
        let s := ((s.frameChecked n c m).setFlt { (s.frameChecked n c m).flt with bad := SMap.set (fun _ => 0) s.flt.bad a e }).frameNew a
          (s.frame n c m ^^^ f)
        if e = 0 then s
        else if sureDetect e.toNat then s.mbu n a
        else
          let d := s.draw
          if d.1 % 2 = 1 then d.2.mbu n a else d.2
    .next (if last && s.passFull n then s.grmPass n else s)

/-! ## Repair (R402, R403) -/

/-- The key of segment i in the chain of R273. -/
def segKeyAt : Nat → Nat → List Byte → List Byte → List Byte
  | 0, _, key, _ => key
  | k + 1, i, key, nonce => segKeyAt k (i + 1) (segmentKey key i nonce).1 nonce

/-- Chunk i of a stream stands in the settings memory as its recorded hash says. -/
def State.chunkStands (s : State) (base : Nat) (t : StreamRec) (i : Nat) : Bool :=
  let at_ := base + 5696 + i * chunkSize t.keySel 65504
  let p := s.norNat (at_ + 4) 4
  let hdr := s.norRead at_ 16
  let body := if t.keySel = 0 then some (s.norRead (at_ + 16) (min 65504 p))
    else
      let k := segmentKey (segKeyAt i 0 (baseKey s.fuseView t.keySel) t.nonce) i t.nonce
      Config.gcmOpen k.1 k.2 hdr (s.norRead (at_ + 16) (min 65504 p + 16))
  match body, t.hashes[i]? with
  | some b, some h => chunkHash i b == h
  | _, _ => false

/-- The content that a repair of a frame finds; none where the repair fails. -/
def State.repairFrame (s : State) (a : Nat) : Option Frame :=
  match SMap.get (fun _ => none) s.flt.index a with
  | none => none
  | some r =>
    if s.regionState (a / 65536) ≠ 1 then none
    else if r.zero then some 0
    else if r.host || ! s.norOk then none
    else match SMap.get (fun _ => none) s.flt.streams r.base with
      | none => none
      | some t => if s.chunkStands r.base t r.chunk && (! r.spans || s.chunkStands r.base t (r.chunk + 1)) then some r.good else none

/-- MBU_REPAIR_DONE (R402, R403): the repair of a frame ends. -/
def execMbuRepairDone (addr : BitVec 20) (s : State) : Out :=
  let a := addr.toNat
  let n := a / 65536
  if ! s.flt.repairs.contains a then .next s
  else
    match s.repairFrame a with
    | some f =>
      let s := (s.setFlt { s.flt with repairs := s.flt.repairs.erase a, bad := SMap.set (fun _ => 0) s.flt.bad a 0 }).frameNew a f
      .next (((s.sat F.GRM_MBU_repaired).raise 0x0303 n).repairOutcome a 1)
    | none => .next (s.repairFail a)

/-- SCRUB_OVERRUN (R406): no pass of engine n has completed for twice the period. -/
def execScrubOverrun (n : Fin 16) (s : State) : Out :=
  let since := s.time - SMap.get (fun _ => 0) s.flt.passStart n
  if ! s.on F.GRM_CFG_enable || ! bitOf (s.get F.GRM_STS_active) n || decide (since ≤ 2000 * clamp 4 8 (s.get F.GRM_CFG_period)) then .next s
  else .next ((s.put F.GRM_STS_overrun (setBit (s.get F.GRM_STS_overrun) n)).raise 0x0306 n).grmReact

/-! ## Long tracks -/

/-- LT_CONTENTION (R101, R102): the sensor of a segment with two or more enabled entries disables all its entries. -/
def execLtContention (n : Fin 16) (vert : Bool) (line : Fin 72) (track : Fin 24) (seg : Fin 4) (s : State) : Out :=
  if ! s.contended (.track n vert line track seg) then .next s else
  let k := trackKey n vert line track seg
  let s := { s with fab := { s.fab with ltOff := SMap.set (fun _ => false) s.fab.ltOff k true } }
  let s := s.sat (F.REGION_LT_FAULT_count n)
  let s := if s.on (F.REGION_LT_FAULT_valid n) then s
    else
      let s := (s.put (F.REGION_LT_FAULT_track n) track).putB (F.REGION_LT_FAULT_vertical n) vert
      ((s.put (F.REGION_LT_FAULT_segment n) seg).put (F.REGION_LT_FAULT_line n) line).put (F.REGION_LT_FAULT_valid n) 1
  let s := s.raiseFree 0x0342
  .next (if s.on (F.REGION_LT_CTL_reaction n) then s.faultHold else s)

/-! ## Stall watchdogs -/

/-- WATCHDOG_STALL (R61 to R64, R152): the count of watchdog k of region n reaches its limit. SUP_TIME moves by whole microseconds: the
stall falls into the one in which the count comes to the limit (log entry 118). -/
def execWatchdogStall (n : Fin 16) (k : Fin 32) (s : State) : Out :=
  let w := s.wdgAt n k
  if ! s.wdgRuns n k w || decide (s.wdgCount w + 9 < s.wdgLimit n k) then .next s
  else
    let s := s.setWdg n k { w with reported := true, runs := false, kept := s.wdgLimit n k }
    let s := (s.put (F.REGION_WDG_STS_stalled n k) 1).put (F.REGION_WDG_STS_elapsed n k) (s.wdgLimit n k)
    let s := s.raise 0x0340 (n.val * 256 + k.val)
    .next (if s.on (F.REGION_WDG_CTL_reaction n k) then s.faultHold else s)

end Sys2Proof.Machine
end

