-- ==== Sys2Proof/Machine/SelfTest.lean ====
section
/-! DEFINITION. The rolling self-test (R407 to R414), the answers of Moraine (R427 to R430) and the lockstep comparator (R422 to R424). -/

namespace Sys2Proof.Machine

/-! ## Rolling test -/

/-- The region and group that the rolling test works on. -/
def State.bistAt (s : State) : Nat × Nat := (s.flt.bist.cur / 4, s.flt.bist.cur % 4)

/-- A group that a pass tests (R407). -/
def State.groupTestable (s : State) (x : Nat) : Bool :=
  let n := x / 4
  let pair := s.on (F.FLT_LS_CTL_arm (n / 2))
  let loading := (List.range 16).any (fun m => m / 2 == n / 2 &&
    (s.ldr.regionLoad.any (fun l => l.set.getLsbD m) || s.ldr.acts.any (fun a => a.byLoad && a.set.getLsbD m)))
  s.regionState n == 1 && ! s.on (F.REGION_COLMAP_ret n (x % 4)) && ! (pair && loading)

/-- The next group to test, from the one in work on. -/
def State.nextGroup (s : State) : Option Nat := (List.range 64).find? (fun x => decide (s.flt.bist.cur ≤ x) && s.groupTestable x)

/-- The time spent testing lies within the duty (R412). -/
def State.dutyAllows (s : State) : Bool :=
  let b := s.flt.bist
  decide (0 < b.full) || decide (b.spent * 100 ≤ clamp 1 100 (s.get F.BIST_CTL_duty) * (s.time - b.passAt))

/-- The columns of a group that the pass leaves untested take a record SKIPPED (Table 14.3). DESIGN CHOICE (log entry 148): one record for
each physical column, and BIST_LAST keeps the last result of a test. -/
def State.bistSkip (s : State) (x : Nat) : State :=
  let b := s.flt.bist
  match b.run with
  | none => s
  | some t =>
    let left := ((List.range 17).map (fun i => 17 * (x % 4) + 16 - i)).filter (fun p =>
      ! t.recs.any (fun r => r.region == x / 4 && r.pos == p && r.result != 3))
    s.setBist { b with run := some { t with recs := t.recs ++ left.map (fun p =>
      ⟨1, x / 4, p, if 0 < b.full then b.planned else 16384, 0, false, 0, 4⟩) } }

/-- The groups skipped from the one in work up to another. -/
def State.bistSkipTo (s : State) (x : Nat) : State :=
  (List.range (x - s.flt.bist.cur)).foldl (fun t i => t.bistSkip (s.flt.bist.cur + i)) s

/-- A BIST_RUN of kind 0 ends with a result code (Table 14.3). -/
def State.fullEnd (s : State) (code : Nat) : State :=
  let b := s.flt.bist
  let s := s.setBist { b with full := 0, fullCode := 0, planned := 16384 }
  let id := match b.run with | some t => t.id | none => 0
  (s.hif.running.filter (fun c => c.d.op == 0x30 && c.d.source == 0)).foldl (fun s a =>
    s.complete a.src (if code = 2 then 0x0A else if code = 3 then 7 else 0) code id) s

/-- A pass ends and the next one starts (R407). -/
def State.bistPassEnd (s : State) : State :=
  let s := s.bistSkipTo 64
  let b := s.flt.bist
  let s := match b.run with
    | some t => s.keepTest { t with dur := s.time / 1000 - t.start }
    | none => s
  let s := ((s.inc F.BIST_PASS_passes).put F.BIST_PASS_last ((s.time - b.passAt) / 100000)).raiseFree 0x0401
  s.bistPass

/-- COLUMN_TEST_START (R407, R408, R412): a group is entered with its gap at the top, after a return sweep where an abandoned pass left it
lower. A BIST_RUN that waits ends where nothing can be tested. -/
def execColumnTestStart (s : State) : Out :=
  let b := s.flt.bist
  if ! s.running || ! s.on F.BIST_CTL_enable || s.on F.BIST_STS_phase || ! b.open_ || ! s.dutyAllows then .next s
  else match s.nextGroup with
    | none =>
      if b.cur ≠ 0 then .next s.bistPassEnd
      else .next (if 0 < b.full then s.fullEnd (if b.full = 1088 then 4 else b.fullCode) else s)
    | some x =>
      let n := x / 4
      let s := s.bistSkipTo x
      let b := { s.flt.bist with cur := x, retest := false, waiting := false, begun := x == s.flt.bist.cur && s.flt.bist.begun }
      let s := (s.put F.BIST_STS_region n).put F.BIST_STS_group (x % 4)
      if ! b.begun && s.colGap n (x % 4) != 16 then .next ((s.setBist b).put F.BIST_STS_phase 5)
      else
        let p := 17 * (x % 4) + s.colGap n (x % 4)
        let full := decide (0 < b.full)
        let s := (s.gapClear n p).setBist
          { b with begun := true, testAt := s.time, tPlanned := if full then b.planned else 16384, tFull := full }
        .next ((((s.put F.BIST_STS_phase 1).put F.BIST_STS_column p).put F.BIST_PAT_applied 0).put F.BIST_PAT_personality 0)

/-- A test that started at 100 % duty counts toward the BIST_RUN of kind 0, which ends with its last (Table 14.2, Table 14.3). -/
def State.fullCount (s : State) (code : Nat) : State :=
  let b := s.flt.bist
  if b.full = 0 || ! b.tFull then s
  else
    let c := worse b.fullCode code
    if 1 < b.full then s.setBist { b with full := b.full - 1, fullCode := c } else s.fullEnd c

/-- The group in work is done: the next one follows. -/
def State.groupDone (s : State) : State :=
  let s := s.bistSkip s.flt.bist.cur
  (s.setBist { s.flt.bist with cur := s.flt.bist.cur + 1, waiting := false, begun := false }).put F.BIST_STS_phase 0

/-- A column test has run to its end with a result; the coverage is a free value, at least 97.50 % with the default count (R408). -/
def State.columnResult (s : State) (code : Nat) (bits : List (BitVec 64)) : State :=
  let d := s.draw
  let s := d.2
  let b := s.flt.bist
  let cov := if b.tPlanned = 16384 then 9750 + d.1 % 251 else d.1 % 10001
  let col := s.get F.BIST_STS_column
  let s := s.setBist { b with spent := b.spent + (s.time - b.testAt), retest := false }
  let s := (s.put F.BIST_PAT_applied b.tPlanned).put F.BIST_PAT_personality 1
  (s.bistRecord ⟨1, s.get F.BIST_STS_region, col, b.tPlanned, b.tPlanned, true, cov, code⟩ bits).fullCount code

/-- A faulty column stays the gap and is retired (R409); its group has no spare from then on. -/
def State.columnRetire (s : State) (bits : List (BitVec 64)) : State :=
  let n := s.get F.BIST_STS_region
  let g := s.get F.BIST_STS_group
  let p := s.get F.BIST_STS_column
  let s := s.columnResult 1 bits
  ((s.setColGap n g (p % 17) true).morSubstituted 1 n p 0x0402).groupDone

/-- COLUMN_TEST_DONE (R408, R409): the two signatures of a run are right, or one differs. -/
def execColumnTestDone (ok : Bool) (s : State) : Out :=
  if s.get F.BIST_STS_phase ≠ 1 then .next s
  else
    let b := s.flt.bist
    let n := s.get F.BIST_STS_region
    if ! ok ∧ ! b.retest then .next (((s.setBist { b with retest := true }).put F.BIST_PAT_applied 0).put F.BIST_PAT_personality 0)
    else if ! ok then
      let s := s.raise 0x0402 n
      .next (if s.on F.BIST_CTL_diag_en && ! s.fuses.testClose then s.put F.BIST_STS_phase 6 else s.columnRetire [])
    else
      let s := s.columnResult 0 []
      if s.colGap n (s.get F.BIST_STS_group) = 0 then .next (s.put F.BIST_STS_phase 5)
      else .next (s.put F.BIST_STS_phase 2)

/-- COLUMN_DIAGNOSIS_DONE (R408, Table 14.5): the diagnosis has located the failing tile, cell and bit. -/
def execColumnDiagnosisDone (row : Fin 72) (cell : Fin 32) (bit : Fin 112) (s : State) : Out :=
  if s.get F.BIST_STS_phase ≠ 6 then .next s
  else
    let r := s.get F.BIST_STS_region + s.get F.BIST_STS_column * 2 ^ 6 + row.val * 2 ^ 13 + cell.val * 2 ^ 20 + bit.val * 2 ^ 48
    .next (s.columnRetire [BitVec.ofNat 64 r])

/-- A region is frozen: no new migration starts in it (R50). -/
def State.frozen (s : State) (n : Nat) : Bool := s.on (F.REGION_FREEZE_freeze n) || s.on (F.REGION_FREEZE_hold_freeze n)

/-- MIGRATION_COPY_DONE (R50, R411): step 0 is done and the migration waits for its window. -/
def execMigrationCopyDone (s : State) : Out :=
  let b := s.flt.bist
  if s.frozen (s.get F.BIST_STS_region) then .next s
  else if s.get F.BIST_STS_phase = 2 then .next ((s.setBist { b with waiting := true }).put F.BIST_STS_phase 3)
  else if s.get F.BIST_STS_phase = 5 ∧ ! b.waiting then .next (s.setBist { b with waiting := true })
  else .next s

/-- The engine of a region checks the frames of the columns that have moved before any other, from where they now stand (R404). -/
def State.owesCheck (s : State) (n lo hi : Nat) : State :=
  s.setFlt { s.flt with owed := (List.range (hi - lo)).foldl (fun m i => SMap.set (fun _ => 0) m (n * 256 + lo + i) (2 ^ 96 - 1)) s.flt.owed }

/-- The gap of a group moves to another position: the frames of the column that becomes the gap stay in it (R109, R411). -/
def State.gapMove (s : State) (n g pos : Nat) (retired : Bool) : State :=
  let gap := s.colGap n g
  let c := 16 * g + (if pos < gap then pos else pos - 1)
  let t := if pos = gap then s else (s.gapClear n (17 * g + gap)).gapKeep n c (17 * g + pos)
  (t.setColGap n g pos retired).owesCheck n (16 * g + min pos gap) (16 * g + max pos gap)

/-- MIGRATION (R50, R410, R411): with the window of its region open, steps 1 to 6. Tokens and state follow the logical column. -/
def execMigration (s : State) : Out :=
  let b := s.flt.bist
  let ph := s.get F.BIST_STS_phase
  let n := s.get F.BIST_STS_region
  let g := s.get F.BIST_STS_group
  if (ph ≠ 3 ∧ ph ≠ 5) ∨ ! b.waiting ∨ s.frozen n ∨ ! s.windowOpen n 3 then .next s
  else if ph = 3 then .next (((s.gapMove n g (s.colGap n g - 1) false).setBist { b with waiting := false }).put F.BIST_STS_phase 0)
  else
    let s := (s.gapMove n g (s.colGap n g + 1) false).setBist { b with waiting := false }
    .next (if s.colGap n g ≠ 16 then s
      else if s.flt.bist.begun then s.groupDone
      else (s.setBist { s.flt.bist with begun := true }).put F.BIST_STS_phase 0)

/-! ## Moraine -/

/-- The rolling test has a migration of region n under way, for which a substitution waits (R427). -/
def State.migrates (s : State) (n : Nat) : Bool :=
  s.get F.BIST_STS_region == n && [2, 3, 4, 5].contains (s.get F.BIST_STS_phase)

/-- A spare is left for a reported fault (Table 14.8). -/
def State.spareFor (s : State) (e : MapEntry) : Bool :=
  let n := e.inst
  let block := ! s.on (F.REGION_FIRN_MAP_ret n (e.pos / 256) (e.pos % 256 / 19))
  match e.kind with
  | 1 => ! s.on (F.REGION_COLMAP_ret n (e.pos / 17))
  | 2 => ! s.on (F.REGION_SPR_MAP_ret n (e.pos / 256) (e.pos % 256 / 16))
  | 3 => block
  | 4 => decide (s.rowsUsed n (e.pos / 256) (e.pos % 256) < 2) || block
  | _ => false

/-- The stall bound of the answer to a report in microseconds; none where nothing stalls. -/
def State.stallOf (s : State) (e : MapEntry) : Option Nat :=
  match e.kind with
  | 1 => some 3
  | 4 => if s.rowsUsed e.inst (e.pos / 256) (e.pos % 256) < 2 then none else some 10
  | _ => some 10

/-- The report can be answered now by a substitution: a spare is left, no migration of its region is under way, its window is open. -/
def State.answerable (s : State) (e : MapEntry) : Bool :=
  s.spareFor e && ! s.migrates e.inst && (match s.stallOf e with | none => true | some d => s.windowOpen e.inst d)

/-- A block substitution in a running region: the contents that move are corrected in ECC shape (Table 14.8). -/
def State.blockMove (s : State) (n f p cause : Nat) : State :=
  match s.blockSubst n f p cause with
  | none => s
  | some t => (List.range 72).foldl (fun t b => if s.physBlock n f b = t.physBlock n f b then t else t.firnCorrect n f b) t

/-- The substitution that answers a report. -/
def State.substitute (s : State) (e : MapEntry) : State :=
  let n := e.inst
  let a := e.pos / 256
  let p := e.pos % 256
  match e.kind with
  | 1 => (s.gapMove n (e.pos / 17) (e.pos % 17) true).morSubstituted 1 n e.pos 0x0307
  | 2 => (s.sliceSubst n a p e.info).getD s
  | 3 => s.blockMove n a p e.info
  | 4 => match s.rowRepair n a p (e.info % 512) (e.info / 65536) with
    | some t => t
    | none => s.blockMove n a p (e.info / 65536)
  | _ => s

/-- MORAINE_SUBSTITUTION (R410, R427, Table 14.8): the first report that can be answered. The test of the group is cut short. -/
def execMoraineSubstitution (s : State) : Out :=
  match s.flt.reports.find? (fun e => s.answerable e) with
  | none => .next s
  | some e =>
    let s := s.setFlt { s.flt with reports := s.flt.reports.erase e }
    .next ((s.bistCutIn e.inst).substitute e)

/-- WINDOW_WAIT_EXPIRY (R410): a migration or a substitution of region n has waited 1 s. -/
def execWindowWaitExpiry (n : Fin 16) (s : State) : Out :=
  let mig := s.flt.bist.waiting && s.get F.BIST_STS_region == n.val && ! s.windowOpen n 3
  let sub := s.flt.reports.any (fun e => e.inst == n.val && s.spareFor e &&
    (match s.stallOf e with | none => false | some d => ! s.windowOpen n d))
  .next (if mig || sub then (s.sat F.BIST_WAIT_count).raise 0x0404 n else s)

/-- UNIT_RETIRE (R427, R428): a unit without a spare is retired. A region needs a report that no spare answers, a lane its failure in a group
without a spare, a port the loss of every lane; a Spoke unit is reported by its cluster's self-check. -/
def execUnitRetire (u : RetUnit) (s : State) : Out :=
  match u with
  | .region n =>
    match s.flt.reports.find? (fun e => e.inst == n.val && ! s.spareFor e) with
    | none => .next s
    | some e => .next (s.unitOut u (if e.kind = 4 then e.info / 65536 else e.info % 65536))
  | .spoke _ =>
    let d := s.draw
    .next (d.2.unitOut u (d.1 % 65536))
  | .lane n => .next (if s.laneState n = 12 ∧ ((s.spareLane (n.val / 5)).isNone ∨ s.laneLogical n = 4) then s.unitOut u 0x0802 else s)
  | .port p => .next (if (s.inService (p.val + 2)).isEmpty then s.unitOut u 0x0802 else s)

/-- REPAIR_MAP_WRITE (R430): the record is written, or the write fails. -/
def execRepairMapWrite (ok : Bool) (s : State) : Out :=
  if ! s.on F.FLT_MOR_STS_pending then .next s
  else match (if ok then s.mapWrite else none) with
    | some t => .next (t.put F.FLT_MOR_STS_pending 0)
    | none => .next ((s.put F.FLT_MOR_STS_write_err 1).raiseFree 0x0C03)

/-! ## Lockstep -/

/-- LOCKSTEP_ARM (R423): a write of FLT_LSk_CTL. -/
def execLockstepArm (k : Fin 8) (v : BitVec 32) (s : State) : Out := .next (s.lsWrite k (R.FLT_LS_CTL k) v)

/-- The values that a side of a tap holds. -/
def State.sideOf (s : State) (n tap : Nat) : List Nat := SMap.get (fun _ => []) s.fab.side (n * 64 + tap)
def State.setSide (s : State) (n tap : Nat) (l : List Nat) : State :=
  { s with fab := { s.fab with side := SMap.set (fun _ => []) s.fab.side (n * 64 + tap) l } }

/-- The tap pair is in use and compared, its clocks running (R152, R183). -/
def State.tapUsed (s : State) (k tap : Nat) : Bool :=
  ! s.groomHeld && s.on (F.FLT_LS_STS_comparing k) && (s.compareStage (2 * k) tap).isSome && (s.compareStage (2 * k + 1) tap).isSome

/-- The first place at which two lists differ. -/
def firstDiff : List Nat → List Nat → Option Nat
  | a :: as, b :: bs => if a = b then (firstDiff as bs).map (· + 1) else some 0
  | _, _ => none

/-- The reaction of a pair (R424). -/
def State.lsReact (s : State) (k : Nat) : State := if s.on (F.FLT_LS_CTL_reaction k) then s.faultHold else s

/-- A group of m tokens compared and consumed (R422, R424): both stages may go on. -/
def State.lsGroup (s : State) (k tap m : Nat) : State :=
  let a := s.sideOf (2 * k) tap
  let b := s.sideOf (2 * k + 1) tap
  let key := k * 64 + tap
  let pos := (SMap.get (fun _ => {}) s.flt.ls key).pos
  let s := (s.setSide (2 * k) tap (a.drop m)).setSide (2 * k + 1) tap (b.drop m)
  let s := s.setFlt { s.flt with ls := SMap.set (fun _ => {}) s.flt.ls key ⟨pos + BitVec.ofNat 32 m⟩ }
  let s := s.inc (F.FLT_LS_STS_groups k)
  let go (s : State) (n : Nat) : State := match s.compareStage n tap with
    | some (t, st) => s.tapsTake t st
    | none => s
  let s := go (go s (2 * k)) (2 * k + 1)
  match firstDiff (a.take m) (b.take m) with
  | none => s
  | some i =>
    let s := if s.on (F.FLT_LS_STS_mismatch k) then s
      else (s.put (F.FLT_LS_POS_tap k) tap).put (F.FLT_LS_POS_position k) (pos.toNat + i)
    ((s.put (F.FLT_LS_STS_mismatch k) 1).raise 0x0360 k).lsReact k

/-- LOCKSTEP_COMPARE (R424): both sides of a tap pair have passed 4 tokens. -/
def execLockstepCompare (k : Fin 8) (tap : Fin 64) (s : State) : Out :=
  .next (if s.tapUsed k tap ∧ 4 ≤ (s.sideOf (2 * k.val) tap).length ∧ 4 ≤ (s.sideOf (2 * k.val + 1) tap).length then s.lsGroup k tap 4 else s)

/-- LOCKSTEP_SHORT_GROUP (R424): 1 us after the later side's last token a group of fewer than 4 is compared. -/
def execLockstepShortGroup (k : Fin 8) (tap : Fin 64) (s : State) : Out :=
  let m := min (s.sideOf (2 * k.val) tap).length (s.sideOf (2 * k.val + 1) tap).length
  .next (if s.tapUsed k tap ∧ 0 < m ∧ m < 4 then s.lsGroup k tap m else s)

/-- LOCKSTEP_LAG (R424): one side leads by more than lag_tokens, or has held a token unmatched for lag_time; held while a region of the pair is
frozen. -/
def execLockstepLag (k : Fin 8) (tap : Fin 64) (byTime : Bool) (s : State) : Out :=
  let a := (s.sideOf (2 * k.val) tap).length
  let b := (s.sideOf (2 * k.val + 1) tap).length
  let frozen := [2 * k.val, 2 * k.val + 1].any (fun n => s.on (F.REGION_FREEZE_freeze n) || s.on (F.REGION_FREEZE_hold_freeze n))
  let lead := decide (clamp 1 60 (s.get (F.FLT_LS_CTL_lag_tokens k)) < max a b - min a b) || (byTime && a != b)
  if ! s.tapUsed k tap || frozen || ! lead then .next s
  else .next (((s.put (F.FLT_LS_STS_lag k) 1).raise 0x0361 k).lsReact k)

end Sys2Proof.Machine
end

