-- ==== Sys2Proof/Machine/Rings.lean ====
section
/-! DEFINITION. The commands of the host interface that move descriptors and data (R374 to R386, R395, R396), and the link (R323). -/

namespace Sys2Proof.Machine

/-- The word that a read of BAR2 returns (R380, Table 13.1): of the MSI-X table, of the pending bits, else 0. -/
def State.bar2Read (s : State) (o : Nat) : Word :=
  if within 0x7E000 0x7E400 o then s.tableWord (o / 4 * 4)
  else if within 0x7F000 0x7F008 o then
    BitVec.ofNat 32 (((List.range 32).map (fun i => if s.hif.pba.contains ((o - 0x7F000) / 4 * 32 + i) then 2 ^ i else 0)).foldl (· + ·) 0)
  else 0

/-- DOORBELL (R380): a write to BAR2, or a read. The first word of a ring's page is its doorbell, with the
index in bits [11:0], the MSI-X table stands at 0x7_E000 (Table 13.1); any
other write is discarded. In D3hot the function takes none. -/
def execDoorbell (off : BitVec 19) (v : BitVec 32) (s : State) (read : Bool := false) : Out :=
  let o := off.toNat
  if s.mode = .cold ∨ s.hif.cfg.d3 then .next s
  else if read then .next { s with readData := s.bar2Read o }
  else if within 0x7E000 0x7E400 o then
    .next (s.setHif { s.hif with table := SMap.set (fun _ => 0) s.hif.table (o / 4 * 4) v }).msixPending
  else if o % 4096 = 0 then .next (s.doorbell (o / 4096) (v.toNat % 4096))
  else .next s

/-- The flags byte of a slot of a data ring. -/
def dataFlags (raw : List Byte) : Byte := raw.getD 0xC 0

/-- DESCRIPTOR_FETCHED (R377, R381): the 32 bytes at the position of data ring n have been read. -/
def execDescriptorFetched (n : Fin 96) (raw : List Byte) (s : State) : Out :=
  if n.val = 0 ∨ ! s.ringFetches n ∨ (s.ring n).rereads ≠ 0 then .next s
  else .next (if s.slotOwned n (dataFlags raw) then s.slotTake n raw else s.slotStale n)

/-- The command ring may fetch: while the completion ring has a free slot and no completion waits (R388). -/
def State.mayFetch (s : State) : Bool := s.ringFetches 0 && s.ringFree 1 && ! s.completionsWait

/-- A command at the position of the command ring taken: its slot is returned at once (R377), and the command is checked (R387). -/
def State.commandTake (s : State) (raw : List Byte) : State :=
  let slot := s.get (F.HIF_RING_STS_pos 0)
  let flags : Byte := (raw.getD 1 0 &&& 0xFD) ||| (if s.on (F.HIF_RING_STS_phase 0) then 2 else 0)
  let s := (s.hostWrite (s.slotAddr 0 slot + 1) [flags]).inc (F.HIF_RING_CNT_count 0)
  let s := (s.setRing 0 { s.ring 0 with rereads := 0 }).ringAdvance 0
  s.enroll (.ring (fieldAt raw 2 2) slot) (AdminDesc.ofBytes raw)

/-- ADMIN_FETCH (R377, R387, R388). -/
def execAdminFetch (raw : List Byte) (s : State) : Out :=
  if ! s.mayFetch ∨ (s.ring 0).rereads ≠ 0 then .next s
  else .next (if s.slotOwned 0 (raw.getD 1 0) then s.commandTake raw else s.slotStale 0)

/-- STALE_RECHECK (R381): a slot that was not owned is read again. -/
def execStaleRecheck (n : Fin 96) (raw : List Byte) (s : State) : Out :=
  if ! s.ringFetches n ∨ (s.ring n).rereads = 0 ∨ (n.val = 0 ∧ ! s.mayFetch) then .next s
  else if n.val = 0 then .next (if s.slotOwned 0 (raw.getD 1 0) then s.commandTake raw else s.slotStale 0)
  else .next (if s.slotOwned n (dataFlags raw) then s.slotTake n raw else s.slotStale n)

/-- H2F_DATA_READ (R374, R383): the data of the front descriptor of host-to-fabric ring 0x20 + r has arrived. -/
def execH2fDataRead (r : Fin 32) (data : List Byte) (s : State) : Out :=
  .next (if s.hif.bme then s.h2fData (0x20 + r.val) data else s)

/-- F2H_WORD_POP (R374, R384): a word popped for fabric-to-host ring 0x40 + r goes to its buffer. -/
def execF2hWordPop (r : Fin 32) (s : State) : Out := .next (if s.hif.bme then s.f2hWord (0x40 + r.val) else s)

/-- An access to host memory has failed for ring n (R385). -/
def State.dmaErr (s : State) (n : Nat) : State :=
  ((s.put (F.HIF_RING_STS_dma_err n) 1).put F.HIF_STS_dma_err 1).raise 0x0121 n

/-- DMA_ERROR (R385, R391, R396): the read of a descriptor or command, the write of a completion or event entry, the read or write of the data of a descriptor, of a load's stream, or of the buffer of
an admin command ends in an error. -/
def execDmaError (n : Fin 96) (what : DmaAccess) (s : State) : Out :=
  if ! s.hif.bme then .next s
  else match what with
  | .descriptor =>
    if n.val = 1 ∨ n.val = 2 then .next (if s.ringRuns n then s.dmaErr n else s)
    else if ! s.ringFetches n then .next s else .next ((s.setRing n { s.ring n with stopped := true, rereads := 0 }).dmaErr n)
  | .data =>
    match (s.ring n).owned with
    | [] => .next s
    | d :: _ =>
      let s := s.dmaErr n
      .next (((if isH2f n then s.h2fAbandon n else s).ringReturn n d 8).settle n)
  | .stream =>
    match s.ldr.load, s.ldr.regionLoad with
    | some l, _ => .next (if l.source = 3 ∧ l.step ≠ .startup then (s.dmaErr 0).loadFailed l 0x11 0xFFFF else s)
    | none, some l => .next (if l.source = 3 then (s.dmaErr 0).loadFailed l 0x11 0xFFFF else s)
    | none, none => .next s
  | .buffer =>
    match s.takeCmd (fun d => d.needsHost && d.op != 0x10 && d.op != 0x11) with
    | none => .next s
    | some (c, t) => .next ((t.dmaErr 0).complete c.src 8 0)

/-- IRQ_COALESCE_TIMEOUT (R382): coal_us have passed since the first unsignalled entry of ring n. A message is a write into host memory and
waits for Bus Master Enable (R374). -/
def execIrqCoalesceTimeout (n : Fin 96) (s : State) : Out :=
  if ! s.hif.bme || ! s.on (F.HIF_RING_CFG_irq_en n) || ! s.on (F.HIF_RING_CFG_coal_us n) || (s.ring n).unsig == 0 then .next s
  else
    .next ((s.setRing n { s.ring n with unsig := 0 }).msixSend (s.get (F.HIF_RING_CFG_vector n)))

/-- RING_ENABLE (R395): a write of HIF_RINGn_CFG with enable at 1. -/
def execRingEnable (n : Fin 96) (v : BitVec 32) (s : State) : Out :=
  .next (s.bar (R.HIF_RING_CFG n) (some (v ||| 1)) (s.ringCfgWrite n (v ||| 1)))

/-- RING_DISABLE (R395): a write of HIF_RINGn_CFG that clears enable and nothing else. -/
def execRingDisable (n : Fin 96) (s : State) : Out :=
  let w : Word := s.rd (R.HIF_RING_CFG n) &&& 0xFFFFFFFE
  .next (s.bar (R.HIF_RING_CFG n) (some w) (s.ringCfgWrite n w))

/-- What the configuration space reads at an offset (Table 13.1): Device and Vendor ID 0x2360 and 0x1F4C, the Command register, the class code
0x12_0000; DESIGN CHOICE (log entry 162): the registers that the table gives no place are free values. -/
def State.cfgRead (s : State) (off : Nat) : Word :=
  match off / 4 with
  | 0 => 0x23601F4C
  | 1 => if s.hif.bme then 6 else 2
  | 2 => 0x12000000
  | _ => Config.freeConfig off

/-- BUS_MASTER_ENABLE (R373, R374): the host writes Bus Master Enable in the Command register, or accesses another part of the configuration
space. In D3hot the function makes no access to host memory. -/
def execBusMasterEnable (on : Bool) (s : State) (cfg : CfgAccess := .command) : Out :=
  match cfg with
  | .read off => .next { s with readData := s.cfgRead off.toNat }
  | .command =>
    let s := s.setHif { s.hif with bme := on && ! s.hif.cfg.d3 }
    .next (if s.hif.bme then s.ringsResume else s)
  | .control payload readReq d3 mask =>
    let s := s.setHif { s.hif with bme := on && ! d3, cfg := { payload := payload, readReq := readReq, d3 := d3, mask := mask } }
    let s := s.msixPending
    .next (if s.hif.bme then s.ringsResume else s)

/-! ## Resets of the host interface (R396) -/

/-- A source that a reset of the rings takes away, in a generation. -/
def ringGone (gen : Nat) : CmdSrc → CmdSrc
  | .ring cid slot => .gone gen cid slot
  | x => x

/-- The registers and the record of the host interface at their reset values, one generation on; the commands it gave that are not done
answer to no ring any more (R396). -/
def State.hifReset (s : State) (down : Bool) : State :=
  let h := s.hif
  let gone := ringGone (s.get F.HIF_STS_generation)
  let go (c : AdminCmd) : AdminCmd := { c with src := gone c.src }
  let sts := s.rd R.HIF_STS
  let gen := s.get F.HIF_STS_generation + 1
  let t : State := { s with
    regs := SMap.keep s.regs (fun o => ! within 0x20000 0x30000 o)
    hif := { ({} : Hif) with
      accepted := h.accepted.map go
      running := h.running.map go
      finished := (h.finished.filter (fun c => ! c.due)).map (fun c => { c with src := gone c.src })
      link := if down then .down else h.link
      writes := h.writes
      msix := h.msix }
    ldr := { s.ldr with
      load := s.ldr.load.map (fun l => { l with src := l.src.map gone })
      regionLoad := s.ldr.regionLoad.map (fun l => { l with src := l.src.map gone })
      acts := s.ldr.acts.map (fun a => { a with src := a.src.map gone }) } }
  (t.wr R.HIF_STS (sts &&& 0xFF)).put F.HIF_STS_generation gen

/-- The sides of the clocked queues that are bound to a ring are reset. -/
def State.hostSides (s : State) : State :=
  (List.range 64).foldl (fun (s : State) q => match s.xqBound q with
    | some (1, _, _) => (s.xqSideReset q (decide (q < 32))).xqSideEnd q (decide (q < 32))
    | _ => s) s

/-- The host-interface domain reset: every ring and register of the page at its reset value, the clocked sides of the bound queues reset,
admin commands left running into no ring, a host stream failed. -/
def State.hostReset (s : State) (param : Nat) : State :=
  let t := ((s.hifReset (param == 1)).hostSides).raise 0x0122 param
  match t.ldr.load, t.ldr.regionLoad with
  | some l, _ => if l.source = 3 ∧ l.step ≠ .startup then t.loadFailed l 0x11 0xFFFF else t
  | none, some l => if l.source = 3 then t.loadFailed l 0x11 0xFFFF else t
  | none, none => t

/-- FUNCTION_LEVEL_RESET (R396). -/
def execFunctionLevelReset (s : State) : Out := .next (if s.mode = .cold then s else s.hostReset 0)

/-- LINK_DOWN (R323, R396). -/
def execLinkDown (s : State) : Out :=
  if s.hif.link = .down then .next s
  else
    let s := ((s.put F.HIF_STS_link_up 0).put F.HIF_STS_speed 0).put F.HIF_STS_width 0
    .next ((s.pcieLanes []).hostReset 1)

/-- The PCIe lanes of a link, its lane 0 first: lanes 0 to 7, or with lane reversal 7 to 0 (R311, R323). -/
def linkLanes (reversed : Bool) (width : Nat) : List Nat := (if reversed then (List.range 8).reverse else List.range 8).take width

/-- PCIE_LINK_UP (R312, R323, R332): the link of G0 and G1 trains to L0 at a speed of Table 13.12 with 1, 2, 4 or 8 lanes, from its first training,
from Recovery or from L1, in the order or the reversed order of its lanes, bit i of `inv` saying that PCIe lane i arrives inverted. It does not
train over a lane that is retired. -/
def execPcieLinkUp (speed width : Fin 4) (s : State) (reversed : Bool := false) (inv : BitVec 8 := 0) : Out :=
  let link := linkLanes reversed (2 ^ width.val)
  if s.mode = .cold ∨ ! s.unitOk 3 ∨ ! link.all (fun i => (s.inService (i / 4)).contains (i % 4)) then .next s
  else
    let phys (i : Nat) : Nat := s.lanePhys (i / 4) (i % 4)
    let s := s.pcieLanes (link.map phys)
    let s := link.foldl (fun s i =>
      (s.putB (F.LANE_STS_pol_inv (phys i)) (inv.getLsbD i)).setLane (phys i) { s.laneL (phys i) with heldFail := false }) s
    let s := (List.range 2).foldl (fun s g => (s.putB (F.GRP_STS_reversed g) reversed).put (F.GRP_STS_pll_lock g) 1) s
    let s := s.setHif { s.hif with link := .l0 }
    .next (((s.put F.HIF_STS_link_up 1).put F.HIF_STS_speed (speed.val + 1)).put F.HIF_STS_width (2 ^ width.val))

end Sys2Proof.Machine
end

