-- ==== Sys2Proof/Machine/Admin.lean ====
section
/-! DEFINITION. The admin commands of the host interface (R387 to R393, R397) but for LOAD_PARTIAL, ACTIVATE_REGION, ISOLATE_REGION and
ATTEST. -/

namespace Sys2Proof.Machine

/-! ## Host memory -/

/-- A command with a report: written to the buffer, or refused with the length that it needs (R387). -/
def State.report (s : State) (c : AdminCmd) (bytes : List Byte) : State :=
  if c.d.len.toNat < bytes.length then s.complete c.src 2 0 bytes.length
  else (s.hostWrite c.d.addr.toNat bytes).complete c.src 0 0 bytes.length

/-- A command that uses a host buffer waits while Bus Master Enable is 0 (R374). -/
def State.opHost (s : State) (op : Nat) (d : AdminDesc) : Bool := d.op == op && s.hif.bme

/-! ## Commands -/

/-- NOP_COMMAND. -/
def execNopCommand (s : State) : Out := s.runAccepted (isOp 0x01) (fun c s => s.complete c.src 0 0)

/-- The QUERY record (Table 13.10). -/
def State.queryRecord (s : State) : List Byte :=
  let w (r : Nat) : List Byte := le 4 (s.rd r).toNat
  w R.SUP_MODE ++ w R.LDR_STS ++ w R.LDR_ERR ++ w R.LDR_DESIGN ++ w R.LDR_IMGVER ++ w R.LDR_MAN ++
    (List.range 16).flatMap (fun n => le 1 (s.regionState n)) ++
    w R.PWR_DRL_STS ++ w R.CAD_STS ++ w R.PEL_ADDR ++ w R.HIF_STS ++ le 8 s.time

/-- QUERY. -/
def execQuery (s : State) : Out :=
  s.runAccepted (s.opHost 0x02) (fun c s => (s.hostWrite c.d.addr.toNat s.queryRecord).complete c.src 0 0)

/-- LOAD_FULL (R278, R374, R391, R523); `list` is the host list as it was read. -/
def execLoadFull (list : List Byte) (s : State) : Out :=
  s.runAccepted (fun d => isOp 0x10 d && (d.source != 0 || s.hif.bme)) (fun c s =>
    let host := c.d.source == 0
    let len := if host then hostList c.d list else some 0
    match len with
    | none => s.complete c.src 2 0
    | some n =>
      if c.d.store && ! s.slotA.any (fun e => decide (n ≤ e.len)) then s.complete c.src 2 0
      else if s.loadMissing host then (s.loadRefused).complete c.src 3 0x14
      else (s.runCmd c).beginFull (if host then 3 else BitVec.ofNat 2 c.d.source) c.d.store (some c.src))

/-- The entries of a CAD_TABLE_WRITE. -/
def tableEntries (bs : List Byte) : List (Nat × Word) := entriesOf (bs.length / 8) bs

/-- One entry of a CAD_TABLE_WRITE: what R211 discards of it is discarded, the rest takes effect; an entry of which R211 discards a setting
counts as discarded (DESIGN CHOICE, log 120). -/
def State.tableEntry (a : State × Nat × Nat) (e : Nat × Word) : State × Nat × Nat :=
  let off := 0x40000 + e.1
  let s := a.1.cadWrite off e.2
  if a.1.cadDiscards off e.2 then (s, a.2.1, a.2.2 + 1) else (s, a.2.1 + 1, a.2.2)

/-- An entry breaks Table 13.7: its offset is no multiple of 4 below 0x1000. -/
def tableBad (es : List (Nat × Word)) : Bool := es.any (fun e => e.1 % 4 != 0 || decide (0x1000 ≤ e.1))

/-- CAD_TABLE_WRITE (R230, R387): entries that break Table 13.7 come before the mode. -/
def execCadTableWrite (data : List Byte) (s : State) : Out :=
  s.runAccepted (fun d => s.opHost 0x20 d && d.len.toNat == data.length) (fun c s =>
    let r := (tableEntries data).foldl State.tableEntry (s, 0, 0)
    r.1.complete c.src 0 0 r.2.1 r.2.2) (tableBad (tableEntries data))

/-- CAD_SOURCE_SWITCH (R223, R224). DESIGN CHOICE (log entry 154): while a switch of the track is in progress the answer is BUSY, whatever else
would reject the new one. -/
def execCadSourceSwitch (s : State) : Out :=
  s.runAccepted (isOp 0x21) (fun c s =>
    let a := c.d.arg0.toNat
    let t := a % 8
    if s.switchBusy t then (s.switchReject t).complete c.src 6 0
    else if s.switchCheck t (a / 8 % 4) ≠ 0 then (s.switchReject t).complete c.src 3 0
    else
      let s := ((s.put (F.CAD_TRK_SW_src t) (a / 8)).put (F.CAD_TRK_SW_align t) (a / 32)).put (F.CAD_TRK_SW_timeout t) (a / 256)
      let s := (s.put (F.CAD_TRK_SW_mul t) c.d.arg1.toNat).put (F.CAD_TRK_SWDIV_div t) c.d.arg2.toNat
      let s := s.put (F.CAD_TRK_SWOFS_offset t) c.d.arg3.toNat
      (s.switchGo t).runCmd c)

/-! ## Tests and reports -/

/-- The admin status of a test result (Table 14.3). -/
def testStatus (code : Nat) : Nat := if code = 2 then 0x0A else if code = 3 then 7 else 0

/-- BIST_RUN (R407, R415, R417): a rolling pass at 100 % duty, or the Sprocket and Firn test of the named regions, which finds these failures
and completes with ADMIN_COMMAND_DONE. -/
def execBistRun (found : List TestFault) (s : State) : Out :=
  s.runAccepted (isOp 0x30) (fun c s =>
    let n := c.d.arg2.toNat
    if c.d.source = 0 then
      let id := match s.flt.bist.run with | some t => t.id | none => 0
      if ! (List.range 64).any s.groupTestable then s.complete c.src 0 4 id
      else (s.runCmd c).setBist { s.flt.bist with full := 1088, fullCode := 0, planned := if n = 0 then 16384 else n }
    else
      let set := c.d.arg1.toNat % 65536
      let s := (s.liveOf set).foldl (fun s n => s.secretClear n) (s.runCmd c)
      let r := s.hardTest 1 ((s.liveOf set).foldl (fun a n => a + 2 ^ n) 0) s.time found
      let s := r.1.firnLost set
      let s := r.2.2.eraseDups.foldl (fun s n => s.regionOut n 0x0405) s
      s.finishLater c.src (testStatus r.2.1.code) r.2.1.code r.2.1.id)

/-- A native record (Table 14.4). -/
def TestRec.bytes (r : TestRec) : List Byte :=
  le 1 r.unit ++ le 1 r.region ++ le 2 r.pos ++ le 4 r.planned ++ le 4 (r.applied % 2 ^ 31 + if r.complete then 2 ^ 31 else 0) ++
    le 2 r.coverage ++ le 2 r.result

/-- The record of a unit of a Sprocket and Firn test: the one kept, else a pass. -/
def TestRun.recordOf (t : TestRun) (unit n pos : Nat) : TestRec :=
  match t.recs.find? (fun r => r.unit == unit && r.region == n && r.pos == pos) with
  | some r => r
  | none =>
    let p := if unit = 3 then 5120 else 4096
    ⟨unit, n, pos, p, p, true, t.cov, 0⟩

/-- The records of a test: as they were made, or for a Sprocket and Firn test one for each unit, slices before blocks in each region. -/
def TestRun.records (t : TestRun) : List TestRec :=
  if t.id / 2 ^ 28 = 0 then t.recs
  else ((List.range 16).filter (fun n => bitOf t.set n)).flatMap (fun n =>
    (List.range 4).flatMap (fun c => (List.range 64).map (fun p => t.recordOf 2 n (c * 256 + p))) ++
    (List.range 2).flatMap (fun f => (List.range 76).map (fun p => t.recordOf 3 n (f * 256 + p))))

/-- The report of a test in native format (R418) or in compatibility format (R419). -/
def TestRun.native (t : TestRun) : List Byte :=
  le 4 t.id ++ le 4 t.records.length ++ le 4 t.start ++ le 4 t.dur ++ le 2 t.code ++ le 14 0 ++ t.records.flatMap TestRec.bytes
def TestRun.compat (t : TestRun) : List Byte := le 4 t.id ++ le 4 t.bits.length ++ le 8 0 ++ t.bits.flatMap (fun b => le 8 b.toNat)

/-- The report of BIST_REPORT: a status with its detail, or the bytes (R418, R419). -/
def State.bistReport (s : State) (compat : Bool) (id : Nat) : Except (Nat × Nat) (List Byte) :=
  match (s.testsOf (id / 2 ^ 28)).find? (fun t => t.id == id) with
  | none => .error (2, 0)
  | some t =>
    if compat && s.fuses.testClose && id / 2 ^ 28 == 0 then .error (2, 1)
    else .ok (if compat then t.compat else t.native)

/-- BIST_REPORT. -/
def execBistReport (s : State) : Out :=
  s.runAccepted (s.opHost 0x31) (fun c s =>
    match s.bistReport (c.d.arg0.getLsbD 0) c.d.arg1.toNat with
    | .error e => s.complete c.src e.1 e.2
    | .ok bytes => s.report c bytes)

/-- `n` free bytes. -/
def freeBytes (ctr : Nat) (n : Nat) : List Byte := (List.range n).map (fun i => BitVec.ofNat 8 (Config.freeValue (ctr + i)))

/-- The Groomer report of SCRUB_REPORT: chapter 14 gives it no content and no length, so both are free values. -/
def State.scrubReport (s : State) (most : Nat) : List Byte × State :=
  let d := s.draw
  let n := d.1 % (most + 1)
  (freeBytes d.2.freeCtr n, { d.2 with freeCtr := d.2.freeCtr + n })

/-- SCRUB_REPORT. -/
def execScrubReport (s : State) : Out :=
  s.runAccepted (s.opHost 0x40) (fun c s =>
    let r := s.scrubReport c.d.len.toNat
    r.2.report c r.1)

/-! ## The repair map -/

/-- The books that the counts come from (R432): what has been applied; in SUPERVISE, where no load has yet applied the map, the map as it is
stored with what has been made since. -/
def State.countBooks (s : State) : List MapEntry :=
  if s.mode = .supervise then
    let map := s.mapView.entries
    map ++ s.applied.filter (fun e => ! map.any (fun m => m.kind == e.kind && m.inst == e.inst && m.pos == e.pos))
  else s.applied

/-- Physical, in service, spare and retired units of a pool instance (Table 14.7, R432). -/
def State.poolCounts (s : State) (pool inst : Nat) : Nat × Nat × Nat × Nat :=
  let books := s.countBooks
  let of (kind : Nat) : Nat := (books.filter (fun e => e.kind == kind && e.inst == inst)).length
  let all (kind : Nat) : Nat := (books.filter (fun e => e.kind == kind)).length
  match pool with
  | 1 => (68, 64, 4 - of 1, of 1)
  | 2 => (256, 240, 16 - of 2, of 2)
  | 3 => (152, 144, 8 - of 3, of 3)
  | 4 =>
    let out := 2 * of 3
    let used := (books.filter (fun e => e.kind == 4 && e.inst == inst &&
      ! books.any (fun b => b.kind == 3 && b.inst == inst && b.pos == e.pos))).length
    (304, used, 304 - out - used, out)
  | 5 =>
    let m := ({ s with flt := { s.flt with kept := [], books := books } } : State).grpMap inst
    let inService := (m.1.filter (fun i => ! m.2.2.contains i)).length
    let spare := if m.2.1.isSome then 1 else 0
    (5, inService, spare, 5 - inService - spare)
  | 6 => (10, min 8 (10 - all 7), 2 - min 2 (all 7), all 7)
  | 7 => (2, 1, 1 - min 1 (all 8), all 8)
  | 8 => (16, 16 - all 9, 0, all 9)
  | _ => (48, 48 - all 10, 0, all 10)

/-- The pool instances in the order of Table 14.7. -/
def poolList : List (Nat × Nat) :=
  [1, 2, 3, 4].flatMap (fun p => (List.range 16).map (fun i => (p, i))) ++ (List.range 12).map (fun i => (5, i)) ++
    [(6, 0), (7, 0), (8, 0), (9, 0)]

/-- The count record (R432). -/
def State.countRecord (s : State) : List Byte :=
  poolList.flatMap (fun p =>
    let c := s.poolCounts p.1 p.2
    le 1 p.1 ++ le 1 p.2 ++ le 2 0 ++ le 2 c.1 ++ le 2 c.2.1 ++ le 2 c.2.2.1 ++ le 2 c.2.2.2)

/-- The repair-map record in use, its tag included (R431); nothing where there is none. -/
def State.mapBytesInUse (s : State) : List Byte :=
  let v := s.mapView
  match v.use, s.mapAt with
  | some c, some base => s.norRead (base + 0x10000 * c) (64 + 8 * v.entries.length + 48)
  | _, _ => []

/-- SPARE_MAP (R431, R432). -/
def execSpareMap (s : State) : Out :=
  s.runAccepted (fun d => s.opHost 0x50 d && ! d.arg0.getLsbD 1) (fun c s =>
    s.report c (if c.d.arg0.getLsbD 0 then s.mapBytesInUse else s.countRecord))

/-- Both records erased (R433). The books are empty; what the hardware has applied stays until the next full load, for lanes and supervisor
halves until COLD. -/
def State.mapErase (s : State) (base : Nat) : State :=
  let s := s.norErase base 0x20000
  let s := s.setFlt { s.flt with kept := s.applied, books := [] }
  (s.put F.FLT_MOR_STS_pending 0).mapShow.raiseFree 0x0C04

/-- SPARE_MAP_RESET (R433): the erase works, or fails. -/
def execSpareMapReset (ok : Bool) (s : State) : Out :=
  s.runAccepted (fun d => isOp 0x50 d && d.arg0.getLsbD 1) (fun c s =>
    match s.mapAt with
    | some base => if ok then (s.mapErase base).complete c.src 0 0 else s.complete c.src 8 0
    | none => s.complete c.src 8 0)

/-! ## SETTINGS_WRITE (R264, R392) -/

/-- A settings record with a sequence (R264). -/
def settingsBytes (seq : Nat) (body : List Byte) : List Byte :=
  le 4 0x6A5C5E77 ++ le 4 seq ++ le 4 body.length ++ le 4 (crc32c body).toNat ++ body

/-- LDR_STS.set_single: one settings record is valid and the other is not (Table 09.16). -/
def State.setSingle (s : State) : State := s.putB F.LDR_STS_set_single ((s.settingsRecord 0).isSome != (s.settingsRecord 1).isSome)

/-- The record not in use written with the sequence incremented, and taken into use; erased only where the write fails. -/
def State.settingsStore (s : State) (base : Nat) (body : List Byte) (ok : Bool) : State :=
  let use := s.get F.LDR_STS_set_copy
  let seq := match s.settingsRecord use with | some r => r.1 | none => 0
  let c := 1 - use
  let a := base + 0x10000 * c
  let s := s.norErase a 0x10000
  (if ok then (s.norWrite a (settingsBytes (seq + 1) body)).put F.LDR_STS_set_copy c else s).setSingle

/-- What stops a raw write of n bytes at an offset: BAD_ARG, BUSY, or nothing (R392). -/
def State.rawStatus (s : State) (a n : Nat) : Nat :=
  let m := (n + 65535) / 65536 * 65536
  let touches (e : DirEntry) : Bool := overlaps a m e.start e.len
  let es := s.directory
  let held (e : DirEntry) : Bool := e.type == 0x20 || e.type == 0x30 || (e.type == 2 && ! s.on F.LDR_CTL_golden_wr)
  let reading := match s.ldr.regionLoad with
    | some l => l.source != 3 && (es[l.fromEntry]?).any touches
    | none => false
  if a % 65536 ≠ 0 || overlaps a m 0 0x20000 || es.any (fun e => held e && touches e) then 2 else if reading then 6 else 0

/-- A raw write: every erase block that the range touches is erased first. -/
def State.rawStore (s : State) (a : Nat) (bs : List Byte) (ok : Bool) : State :=
  let s := s.norErase a ((bs.length + 65535) / 65536 * 65536)
  if ok then s.norWrite a bs else s

/-- The entries of a directory that the host gives. -/
def dirEntries (bs : List Byte) : List DirEntry := (List.range (bs.length / 32)).map (fun i => DirEntry.ofBytes (slice bs (32 * i) 32))

/-- SETTINGS_WRITE (R392) with the bytes of its buffer; `ok` says that writing and reading back work. The completion follows with
ADMIN_COMMAND_DONE. -/
def execSettingsWrite (data : List Byte) (ok : Bool) (s : State) : Out :=
  s.runAccepted (fun d => s.opHost 0x60 d && d.len.toNat == data.length) (fun c s =>
    let good := ok && s.norOk
    let run (s : State) (b : Bool) : State := (s.runCmd c).finishLater c.src (if b then 0 else 8) 0
    match c.d.source with
    | 0 =>
      match s.settingsAt, sectionsOf data.length data with
      | some base, some _ => run (if s.norOk then s.settingsStore base data good else s) good
      | _, _ => s.complete c.src 2 0
    | 1 =>
      let a := c.d.arg1.toNat
      let st := s.rawStatus a data.length
      if st ≠ 0 then s.complete c.src st 0
      else
        let fits := good && decide (a + data.length ≤ s.norSize)
        run (if s.norOk && decide (a + data.length ≤ s.norSize) then s.rawStore a data good else s) fits
    | _ =>
      let es := dirEntries data
      if data.length % 32 ≠ 0 ∨ (dirOf (dirBytes 0 es)).isNone then s.complete c.src 2 0
      else run (if s.norOk then s.dirWrite es good else s) good)

/-! ## MODE_REQUEST (R393) -/

/-- MODE_REQUEST_HOLD. -/
def execModeRequestHold (s : State) : Out :=
  s.runAccepted (fun d => isOp 0x70 d && d.arg0.toNat % 8 == 1) (fun c s => (s.enterHold 1 false false).complete c.src 0 0)

/-- Every command that runs or waits ends ABORTED (R393). -/
def State.abortAll (s : State) : State :=
  let l := s.hif.running.map (·.src) ++ s.hif.accepted.map (·.src)
  l.foldl (fun s c => s.complete c 7 0) (s.setHif { s.hif with accepted := [] })

/-- MODE_REQUEST_RESTART. -/
def execModeRequestRestart (s : State) : Out :=
  s.runAccepted (fun d => isOp 0x70 d && d.arg0.toNat % 8 == 2) (fun c s => ((s.complete c.src 0 0).abortAll).warmReset 1)

/-! ## Completions (R388) -/

/-- The switches that have ended: OK at done, ABORTED when aborted. -/
def State.switchesDone (s : State) : State :=
  let l := s.hif.running.filter (fun c => c.d.op == 0x21 && ! s.on (F.CAD_TRK_SW_busy (c.d.arg0.toNat % 8)) &&
    ! s.hif.finished.any (fun f => f.src == c.src))
  l.foldl (fun s c => s.finishLater c.src (if s.get (F.CAD_TRK_SW_result (c.d.arg0.toNat % 8)) = 1 then 0 else 7) 0) s

/-- ADMIN_COMMAND_DONE (R388): the first completion that can be written is written. -/
def execAdminCommandDone (s : State) : Out :=
  let s := s.switchesDone
  match s.hif.finished.find? (fun c => s.deliverable c) with
  | none => .next s
  | some c => .next ((s.setHif { s.hif with finished := s.hif.finished.erase c }).deliver c)

/-- MAILBOX_GO (R397): a write of HIF_MBOX_CMD with go at 1. -/
def execMailboxGo (op : BitVec 8) (s : State) : Out :=
  let w : Word := BitVec.ofNat 32 (op.toNat + 256)
  .next (s.bar R.HIF_MBOX_CMD (some w) (s.mboxWrite w))

end Sys2Proof.Machine
end

