-- ==== Sys2Proof/Machine/Attest.lean ====
section
/-! DEFINITION. Attestation (R492 to R494) and the internal test instructions (R420, R421, R490, R491). -/

namespace Sys2Proof.Machine

/-- Bytes brought to a length. -/
def fit (n : Nat) (l : List Byte) : List Byte := (l ++ List.replicate n 0).take n

/-- A value derived from the device-unique key under a label of 10 characters (R492). -/
def deviceKey (duk : List Byte) (label : List Nat) : List Byte :=
  (Config.hmac384 duk (be 4 1 ++ ascii label ++ [0] ++ be 4 0x100)).take 32

/-- "VA2360 AED", "VA2360 AML" and "VA2360-ATT". -/
def labelEd : List Nat := [0x56, 0x41, 0x32, 0x33, 0x36, 0x30, 0x20, 0x41, 0x45, 0x44]
def labelMl : List Nat := [0x56, 0x41, 0x32, 0x33, 0x36, 0x30, 0x20, 0x41, 0x4D, 0x4C]
def labelAtt : List Nat := [0x56, 0x41, 0x32, 0x33, 0x36, 0x30, 0x2D, 0x41, 0x54, 0x54]

/-- The manifest hash of a region: zero unless it is ACTIVE or ISOLATED (R493). -/
def State.regionHash (s : State) (n : Nat) : List Byte :=
  let st := s.regionState n
  if st = 1 ∨ st = 2 then fit 48 (SMap.get (fun _ => {}) s.ldr.images n).hash else fit 48 []

/-- Bytes 0x000 to 0xB8F of the report (Table 17.6). -/
def State.attestBody (s : State) (nonce : List Byte) : List Byte :=
  let w (r : Nat) : List Byte := le 4 (s.rd r).toNat
  let map := s.mapBytesInUse
  let head := le 4 0xA2360F30 ++ le 2 1 ++ le 2 2960 ++ fit 32 nonce ++ le 8 s.fuses.serial.toNat ++ w R.SEC_FUSE_STS ++ w R.SUP_MODE ++
    le 8 s.time ++ (match s.ldr.full with | some i => fit 48 i.hash | none => fit 48 []) ++ w R.LDR_DESIGN ++ w R.LDR_IMGVER ++ w R.LDR_MAN ++
    le 2 (s.get F.PEL_ADDR_addr) ++ le 2 0
  let regions := (List.range 16).flatMap (fun n => le 1 (s.regionState n)) ++ (List.range 16).flatMap (fun n => s.regionHash n)
  let maps := le 4 s.mapView.seq ++ (if map.isEmpty then fit 48 [] else fit 48 (Config.sha384 map)) ++ le 12 0
  head ++ regions ++ maps ++ fit 32 (Config.ed25519Public (deviceKey s.fuses.duk labelEd)) ++
    fit 1952 (Config.mlDsaPublic (deviceKey s.fuses.duk labelMl))

/-- The 6,336 bytes of the report, signed with both algorithms (R493). -/
def State.attestReport (s : State) (nonce : List Byte) : List Byte :=
  let body := s.attestBody nonce
  body ++ fit 64 (Config.ed25519Sign (deviceKey s.fuses.duk labelEd) body) ++
    fit 3309 (Config.mlDsaSign (deviceKey s.fuses.duk labelMl) (ascii labelAtt) body) ++ le 3 0

/-- ATTEST from the host (R493, R494), with the nonce that the buffer holds. The completion follows with ADMIN_COMMAND_DONE. Without unit 7
of Table 01.7, which adds attestation, it ends with BAD_STATE. -/
def execAttest (nonce : List Byte) (s : State) : Out :=
  s.runAccepted (fun d => s.opHost 0x71 d && nonce.length == 32) (fun c s =>
    if s.ldr.fuseBlocked then s.complete c.src 3 2
    else if ! s.unitOk 7 then s.complete c.src 3 0
    else
      let r := s.attestReport nonce
      (((s.runCmd c).hostWrite c.d.addr.toNat r).raise 0x0133 0).finishLater c.src 0 0 r.length)

/-- The secret flag of a region (R421). -/
def State.regionSecret (s : State) (n : Nat) : Bool := s.ctl n 6 0 1 == 1

/-- The clear before scan (Table 14.6): the fuse read path blocked, secret blocks cleared, regions with the secret flag in set-reset. The key
registers belong to loads, of which none runs in SUPERVISE and HOLD. -/
def State.scanClear (s : State) : State :=
  let s := s.setLdr { s.ldr with fuseBlocked := true }
  let s := (List.range 16).foldl (fun s n => s.secretClear n) s
  (List.range 16).foldl (fun s n => if s.regionSecret n then s.setResetOn n else s) s

/-- TAP_INTERNAL_TEST (R420, R490, R491): accepted in SUPERVISE and HOLD while TEST_CLOSE is intact; it acts as BYPASS otherwise. -/
def execTapInternalTest (s : State) : Out :=
  .next (if (s.mode = .supervise ∨ s.mode = .hold) ∧ ! s.fuses.testClose ∧ ! s.latched then s.scanClear else s)

end Sys2Proof.Machine
end

