-- ==== Sys2Proof/Machine/ConParse.lean ====
section
/-! DEFINITION. The lines of the Slomond console as commands (R480, R483, R484, Tables 17.1, 17.3 and 17.4). -/

namespace Sys2Proof.Machine

/-- A field test of Table 17.4. -/
inductive TestCmd where
  | sup
  | fuse
  | sm
  | image (golden : Bool)
  | pll
  | scrub
  | bist
  | hard (set : Nat)
  | ls (k : Nat)
  | src (n : Nat)
  | owt (p : Nat)
  | pad (u : Nat)
  | lane (n : Nat)
  | pcie
  | pel (p : Nat)
  | spare
  deriving DecidableEq, Repr

/-- A console command of Table 17.1, or the confirmation of R484. -/
inductive ConCmd where
  | help
  | status
  | log (n : Nat)
  | spare
  | reportBist (id : Nat) (compat : Bool)
  | reportScrub
  | reportMap
  | lane (n : Nat) (restart : Bool)
  | pin (p : Nat)
  | meter (src index : Nat)
  | test (t : TestCmd)
  | rd (off : Nat)
  | wr (off v : Nat)
  | admin (op a0 a1 a2 a3 : Nat)
  | load (golden : Bool)
  | loadPartial (set entry : Nat) (act : Bool)
  | isolate (set : Nat)
  | activate (set : Nat)
  | hold
  | restart
  | attest (nonce : List Byte)
  | fuse (r : FuseReq)
  | confirm (v : Nat)
  | baud (rate : Nat)
  | echo (on : Bool)
  | evt (on : Bool)
  deriving DecidableEq, Repr

/-! ## Fields -/

/-- The fields of a line: what stands between spaces. -/
def fieldsOf (l : List Byte) : List (List Byte) :=
  let a := l.foldr (fun (b : Byte) (acc : List Byte × List (List Byte)) =>
    if b = 32 then ([], if acc.1.isEmpty then acc.2 else acc.1 :: acc.2) else (b :: acc.1, acc.2)) ([], [])
  if a.1.isEmpty then a.2 else a.1 :: a.2

/-- A word as its bytes. -/
def kw (cs : List Char) : List Byte := cs.map (fun c => BitVec.ofNat 8 c.toNat)

def decDigit (b : Byte) : Option Nat := if 48 ≤ b.toNat ∧ b.toNat ≤ 57 then some (b.toNat - 48) else none
def hexDigit (b : Byte) : Option Nat :=
  let v := b.toNat
  if 48 ≤ v ∧ v ≤ 57 then some (v - 48) else if 65 ≤ v ∧ v ≤ 70 then some (v - 55) else if 97 ≤ v ∧ v ≤ 102 then some (v - 87) else none

/-- Digits of a base, none where one is none. -/
def digitsIn (base : Nat) (digit : Byte → Option Nat) (l : List Byte) : Option Nat :=
  if l.isEmpty then none else (l.mapM digit).map (fun ds => ds.foldl (fun a d => a * base + d) 0)

/-- A number: decimal, or hexadecimal after 0x, where underscores are ignored. -/
def numOf (l : List Byte) : Option Nat :=
  if l.take 2 = kw ['0', 'x'] then digitsIn 16 hexDigit ((l.drop 2).filter (· != 95)) else digitsIn 10 decDigit l

/-- A group of 8 hexadecimal digits as 4 bytes, first byte first. -/
def groupOf (l : List Byte) : Option (List Byte) := if l.length = 8 then (digitsIn 16 hexDigit l).map (be 4) else none

/-- `n` groups as a byte string. -/
def groupsOf (n : Nat) (ws : List (List Byte)) : Option (List Byte) := if ws.length = n then (ws.mapM groupOf).map List.flatten else none

/-- A system pin: PA0 to PD15. -/
def pinOf (l : List Byte) : Option Nat :=
  match l with
  | p :: x :: n => if p = 80 ∧ 65 ≤ x.toNat ∧ x.toNat ≤ 68 then (digitsIn 10 decDigit n).bind (fun k => if k < 16 then some (16 * (x.toNat - 65) + k) else none)
    else none
  | _ => none

/-- ON or OFF. -/
def onOff (l : List Byte) : Option Bool := if l = kw ['O', 'N'] then some true else if l = kw ['O', 'F', 'F'] then some false else none

/-- A or GOLDEN. -/
def imageOf (l : List Byte) : Option Bool :=
  if l = kw ['A'] then some false else if l = kw ['G', 'O', 'L', 'D', 'E', 'N'] then some true else none

/-! ## Commands -/

/-- The sources of METER in the order of Table 17.3. -/
def meterNames : List (List Byte) :=
  [kw ['S', 'T', 'A', 'T', 'U', 'S'], kw ['V', 'I', 'N'], kw ['R', 'A', 'I', 'L'], kw ['V', 'I', 'O'], kw ['T', 'J'],
    kw ['T', 'B', 'A', 'S', 'E'], kw ['T', 'R', 'E', 'G'], kw ['E', 'Y', 'E'], kw ['A', 'D', 'C'], kw ['T', 'R', 'K'], kw ['P', 'W', 'R'],
    kw ['T', 'E', 'S', 'T']]

/-- The arguments of METER. -/
def parseMeter (ws : List (List Byte)) : Option ConCmd :=
  match ws with
  | [w] => (meterNames.idxOf? w).map (fun i => .meter i 0)
  | [w, n] => match meterNames.idxOf? w, numOf n with
    | some i, some k => some (.meter i k)
    | _, _ => none
  | _ => none

/-- The arguments of TEST. -/
def parseTest (ws : List (List Byte)) : Option TestCmd :=
  match ws with
  | [w] =>
    if w = kw ['S', 'U', 'P'] then some .sup
    else if w = kw ['F', 'U', 'S', 'E'] then some .fuse
    else if w = kw ['S', 'M'] then some .sm
    else if w = kw ['P', 'L', 'L'] then some .pll
    else if w = kw ['S', 'C', 'R', 'U', 'B'] then some .scrub
    else if w = kw ['B', 'I', 'S', 'T'] then some .bist
    else if w = kw ['P', 'C', 'I', 'E'] then some .pcie
    else if w = kw ['S', 'P', 'A', 'R', 'E'] then some .spare
    else none
  | [w, a] =>
    if w = kw ['I', 'M', 'A', 'G', 'E'] then (imageOf a).map .image
    else if w = kw ['O', 'W', 'T'] then (pinOf a).map .owt
    else if w = kw ['H', 'A', 'R', 'D'] then (numOf a).map .hard
    else if w = kw ['L', 'S'] then (numOf a).map .ls
    else if w = kw ['S', 'R', 'C'] then (numOf a).map .src
    else if w = kw ['P', 'A', 'D'] then (numOf a).map .pad
    else if w = kw ['L', 'A', 'N', 'E'] then (numOf a).map .lane
    else if w = kw ['P', 'E', 'L'] then (numOf a).map .pel
    else none
  | _ => none

/-- The arguments of FUSE. -/
def parseFuse (ws : List (List Byte)) : Option FuseReq :=
  match ws with
  | [w] => if w = kw ['E', 'N', 'C'] then some .enc else if w = kw ['C', 'L', 'O', 'S', 'E'] then some .close else none
  | w :: n :: gs =>
    match numOf n with
    | none => none
    | some k =>
      if w = kw ['H', 'A', 'S', 'H'] then (groupsOf 12 gs).map (.hash k)
      else if w = kw ['K', 'E', 'Y'] then (groupsOf 8 gs).map (.key k)
      else if w = kw ['R', 'E', 'V', 'O', 'K', 'E'] ∧ gs.isEmpty ∧ k < 16 then some (.revoke (BitVec.ofNat 4 k))
      else none
  | [] => none

/-- The arguments of REPORT. -/
def parseReport (ws : List (List Byte)) : Option ConCmd :=
  match ws with
  | [w] => if w = kw ['S', 'C', 'R', 'U', 'B'] then some .reportScrub else if w = kw ['M', 'A', 'P'] then some .reportMap else none
  | [w, n] => if w = kw ['B', 'I', 'S', 'T'] then (numOf n).map (fun k => .reportBist k false) else none
  | [w, n, c] => if w = kw ['B', 'I', 'S', 'T'] ∧ c = kw ['C', 'O', 'M', 'P', 'A', 'T'] then (numOf n).map (fun k => .reportBist k true) else none
  | _ => none

/-- The arguments of ADMIN: an opcode and up to four arguments, those left out 0. -/
def parseAdmin (ws : List (List Byte)) : Option ConCmd :=
  match ws.mapM numOf with
  | some (op :: as) => if as.length ≤ 4 then some (.admin op (as.getD 0 0) (as.getD 1 0) (as.getD 2 0) (as.getD 3 0)) else none
  | _ => none

/-- The arguments of the commands that take numbers. -/
def parseNums (w : List Byte) (ns : List Nat) : Option ConCmd :=
  match ns with
  | [] => if w = kw ['L', 'O', 'G'] then some (.log 16) else none
  | [n] =>
    if w = kw ['L', 'O', 'G'] then some (.log n)
    else if w = kw ['L', 'A', 'N', 'E'] then some (.lane n false)
    else if w = kw ['R', 'D'] then some (.rd n)
    else if w = kw ['B', 'A', 'U', 'D'] then some (.baud n)
    else if w = kw ['I', 'S', 'O', 'L', 'A', 'T', 'E', '_', 'R', 'E', 'G', 'I', 'O', 'N'] then some (.isolate n)
    else if w = kw ['A', 'C', 'T', 'I', 'V', 'A', 'T', 'E', '_', 'R', 'E', 'G', 'I', 'O', 'N'] then some (.activate n)
    else none
  | [a, b] =>
    if w = kw ['W', 'R'] then some (.wr a b)
    else if w = kw ['L', 'O', 'A', 'D', '_', 'P', 'A', 'R', 'T', 'I', 'A', 'L'] then some (.loadPartial a b false)
    else none
  | _ => none

/-- The commands without arguments. -/
def plainCmds : List (List Byte × ConCmd) :=
  [(kw ['H', 'E', 'L', 'P'], .help), (kw ['S', 'T', 'A', 'T', 'U', 'S'], .status), (kw ['S', 'P', 'A', 'R', 'E'], .spare),
    (kw ['H', 'O', 'L', 'D'], .hold), (kw ['R', 'E', 'S', 'T', 'A', 'R', 'T'], .restart)]

/-- The names of the commands that take numbers only. -/
def numCmds : List (List Byte) :=
  [kw ['L', 'O', 'G'], kw ['L', 'A', 'N', 'E'], kw ['R', 'D'], kw ['W', 'R'], kw ['B', 'A', 'U', 'D'],
    kw ['L', 'O', 'A', 'D', '_', 'P', 'A', 'R', 'T', 'I', 'A', 'L'],
    kw ['I', 'S', 'O', 'L', 'A', 'T', 'E', '_', 'R', 'E', 'G', 'I', 'O', 'N'],
    kw ['A', 'C', 'T', 'I', 'V', 'A', 'T', 'E', '_', 'R', 'E', 'G', 'I', 'O', 'N']]

/-- What a line says: a command, or the code of its error: 01 for a name that Table 17.1 does not hold, 80 for a malformed line. -/
def parseCmd (w : List Byte) (ws : List (List Byte)) : Except Nat ConCmd :=
  let or80 (c : Option ConCmd) : Except Nat ConCmd := match c with
    | some c => .ok c
    | none => .error 0x80
  match plainCmds.find? (fun p => p.1 == w) with
  | some p => if ws.isEmpty then .ok p.2 else .error 0x80
  | none =>
    if w = kw ['M', 'E', 'T', 'E', 'R'] then or80 (parseMeter ws)
    else if w = kw ['T', 'E', 'S', 'T'] then or80 ((parseTest ws).map .test)
    else if w = kw ['F', 'U', 'S', 'E'] then or80 ((parseFuse ws).map .fuse)
    else if w = kw ['R', 'E', 'P', 'O', 'R', 'T'] then or80 (parseReport ws)
    else if w = kw ['A', 'D', 'M', 'I', 'N'] then or80 (parseAdmin ws)
    else if w = kw ['A', 'T', 'T', 'E', 'S', 'T'] then or80 ((groupsOf 8 ws).map .attest)
    else if w = kw ['P', 'I', 'N'] then or80 (match ws with | [p] => (pinOf p).map .pin | _ => none)
    else if w = kw ['L', 'O', 'A', 'D'] then or80 (match ws with | [i] => (imageOf i).map .load | _ => none)
    else if w = kw ['E', 'C', 'H', 'O'] then or80 (match ws with | [x] => (onOff x).map .echo | _ => none)
    else if w = kw ['E', 'V', 'T'] then or80 (match ws with | [x] => (onOff x).map .evt | _ => none)
    else if w = kw ['C', 'O', 'N', 'F', 'I', 'R', 'M'] then
      or80 (match ws with | [x] => if x.length = 4 then (digitsIn 16 hexDigit x).map .confirm else none | _ => none)
    else if numCmds.contains w then
      or80 (match ws with
        | [n, r] =>
          if w = kw ['L', 'A', 'N', 'E'] ∧ r = kw ['R', 'E', 'S', 'T', 'A', 'R', 'T'] then (numOf n).map (fun k => .lane k true)
          else ([n, r].mapM numOf).bind (parseNums w)
        | [a, b, c] =>
          if w = kw ['L', 'O', 'A', 'D', '_', 'P', 'A', 'R', 'T', 'I', 'A', 'L'] ∧ c = kw ['A', 'C', 'T'] then
            match numOf a, numOf b with
            | some x, some y => some (.loadPartial x y true)
            | _, _ => none
          else none
        | ws => (ws.mapM numOf).bind (parseNums w))
    else .error 1

/-- A line of up to 200 characters; nothing where it is empty. -/
def parseLine (line : List Byte) : Option (Except Nat ConCmd) :=
  if 200 < line.length then some (.error 0x80)
  else match fieldsOf line with
    | [] => none
    | w :: ws => some (parseCmd w ws)

/-- The line of a FUSE KEY command, which is never echoed. -/
def isFuseKey (line : List Byte) : Bool := (fieldsOf line).take 2 == [kw ['F', 'U', 'S', 'E'], kw ['K', 'E', 'Y']]

/-- The commands marked W in Table 17.1. -/
def ConCmd.isW : ConCmd → Bool
  | .lane _ r => r
  | .wr _ _ => true
  | .admin op _ _ _ _ => op != 0x01
  | .load _ => true
  | .loadPartial _ _ _ => true
  | .isolate _ => true
  | .activate _ => true
  | .restart => true
  | .fuse _ => true
  | _ => false

end Sys2Proof.Machine
end

