-- ==== Sys2Proof/Machine/FieldTest.lean ====
section
/-! DEFINITION. The meter pin (R485 to R487) and the field tests (R488, R489, Table 17.4). -/

namespace Sys2Proof.Machine

/-! ## Meter -/

/-- The code of Table 17.2 for source STATUS. -/
def State.statusCode (s : State) : Nat :=
  let missing := s.get F.SUP_MODE_missing
  if s.mode = .cold ∨ s.latched then 0
  else if missing ≠ 0 then 10 + missing
  else match s.mode with
    | .hold => match s.get F.SUP_MODE_hold_cause with
      | 7 => 22
      | c => 4 + c
    | m => m.code

/-- 0.50 V and 10 mV for each degree, in millivolts. -/
def tempMv (t : Int) : Int := 500 + 10 * t

/-- The millivolts that a source shows before clipping; `rail` is the measured voltage of the rail that source RAIL names (Table 17.3). -/
def State.meterMv (s : State) (rail : Nat) : Int :=
  let i := s.get F.SUP_MTR_CTL_index
  match s.get F.SUP_MTR_CTL_src with
  | 1 => (s.get F.PWR_VIN_vin / 20 : Nat)
  | 2 => if i < 5 then (rail / 4 : Nat) else 0
  | 3 => if i < 8 then (s.get (F.BANK_CFG_vio i) / 4 : Nat) else 0
  | 4 => tempMv (s.getS F.PWR_TEMP_tj_max)
  | 5 => tempMv (s.getS F.PWR_TEMP_tbase)
  | 6 => match s.pwr.junction[i]? with | some t => tempMv t | none => 0
  | 7 => if i < 60 ∧ s.on (F.LANE_EYE_valid i) then (10 * s.get (F.LANE_EYE_height i) : Nat) else 0
  | 8 => if i < 8 ∧ s.on (F.ADC_CTL_enable i) then (2500 * s.get (F.ADC_LAST_code i) / 65536 : Nat) else 0
  | 9 => if i < 8 then (2400 * (s.rd (R.CAD_TRK_ANG i)).toNat / 2 ^ 32 : Nat) else 0
  | 10 => (30 * s.get F.PWR_PIN_pin / 100 : Nat)
  | 11 => (100 * s.con.result : Nat)
  | _ => (100 * s.statusCode : Nat)

/-- METER_UPDATE (R485 to R487): the meter pin takes the value of its source. -/
def execMeterUpdate (rail : BitVec 16) (s : State) : Out :=
  if s.mode = .cold ∨ s.latched then .next ((s.put F.SUP_MTR_STS_out_mv 0).put F.SUP_MTR_STS_code 0)
  else
    let src := s.get F.SUP_MTR_CTL_src
    let v := s.meterMv rail.toNat
    let mv := if v < 0 then 0 else if 2500 < v then 2500 else v.toNat
    .next ((s.put F.SUP_MTR_STS_out_mv mv).put F.SUP_MTR_STS_code (if 0 < src ∧ src < 11 then 0 else mv / 100))

/-! ## Checks of an image without a load (TEST IMAGE) -/

/-- The records of the bytes at hand (R274): what is carried to the next chunk, whether a FRAME record has come, whether the END record has. -/
def walkRecords : Nat → List Byte → Bool → Bool → Option (List Byte × Bool × Bool)
  | 0, _, _, _ => none
  | k + 1, bs, isLast, has =>
    let wait : Option (List Byte × Bool × Bool) := if isLast then none else some (bs, has, false)
    if bs.length < 4 then wait
    else
      let w := fieldAt bs 0 4
      let rest := bs.drop 4
      match w / 2 ^ 28 with
      | 1 => if w / 2 ^ 20 % 256 ≠ 0 then none else if rest.length < 512 then wait else walkRecords k (rest.drop 512) isLast true
      | 2 => if has then walkRecords k rest isLast has else none
      | 3 => walkRecords k rest isLast has
      | 14 => if ! isLast then some ([], has, false) else if rest.length < 4 then none else walkRecords k (rest.drop (rest.length - 4)) isLast has
      | 15 => if isLast && rest.isEmpty then some ([], has, true) else none
      | _ => none

/-- The chunk chain of an image in the settings memory verifies from the chunk that a load awaits on. -/
def State.imageChunks (s : State) : Nat → Load → List Byte → Bool → Bool
  | 0, _, _, _ => false
  | k + 1, l, carry, has =>
    let at_ := l.base + l.consumed
    let raw := s.norRead at_ (chunkSize l.keySel (min 65504 (s.norNat (at_ + 4) 4)))
    let c := l.chunkCheck raw
    let isLast := decide (l.chunks ≤ l.next + 1)
    if c.1 ≠ 0 then false
    else
      let bs := carry ++ c.2.take (c.2.length - 48)
      match walkRecords (bs.length + 2) bs isLast has with
      | none => false
      | some (rest, has, ended) =>
        let l := { l with
          next := l.next + 1
          consumed := l.consumed + chunkSize l.keySel c.2.length
          key := (segmentKey l.key l.next l.nonce).1
          expect := c.2.drop (c.2.length - 48) }
        if isLast then ended && l.consumed == l.length else s.imageChunks k l rest has

/-- The image of slot A or the golden image verifies (R271, R272, R274), with no frame written. -/
def State.imageVerifies (s : State) (golden : Bool) : Bool :=
  let l : Load := { region := false, source := if golden then 2 else 1, fromEntry := 0, set := 0, activate := true, store := false, src := none }
  match s.streamBase l with
  | none => false
  | some b =>
    let raw := s.norRead b 5696
    let v : ManView := ⟨raw.take 64, Machine.slice raw 64 5632⟩
    manifestCode s.fuseView v false 0 == 0 && s.imageChunks 1040 { l.accept s.fuseView v with base := b } [] false

/-! ## Tests -/

/-- A test takes the meter: source TEST, with the code that it shows. -/
def State.testMeter (s : State) (code : Nat) : State :=
  let s := s.put F.SUP_MTR_CTL_src 0xB
  { s with con := { s.con with result := code } }

/-- A test that is over at once; a FAIL prints the register values behind it. -/
def State.testNow (s : State) (pass : Bool) (vs : List Nat) : State :=
  (s.testMeter (if pass then 23 else 24)).print (if pass then [.ok] else [.values vs, .ok])

/-- A test of more than 1 ms begins: it answers ACCEPTED. -/
def State.testLong (s : State) (t : FieldTest) : State :=
  let s := (s.testMeter 25).print [.accepted]
  { s with con := { s.con with tests := s.con.tests ++ [t] } }

/-- A test that runs an admin command of its own. -/
def State.testAdmin (s : State) (name : Nat) (d : AdminDesc) (run : State → AdminCmd → State) : State :=
  let r := s.firstCheck false d
  if r.1 ≠ 0 then s.print [.err r.1]
  else
    let c : AdminCmd := ⟨.console name, d⟩
    run (((s.testMeter 25).print [.accepted]).runCmd c) c

/-- A descriptor with an opcode and arguments, without a buffer. -/
def plainDesc (op a0 a1 a2 a3 : Nat) : AdminDesc :=
  ⟨BitVec.ofNat 8 op, BitVec.ofNat 32 a0, BitVec.ofNat 32 a1, BitVec.ofNat 32 a2, BitVec.ofNat 32 a3, 0, 0⟩

def testImage : Nat := 0x123
def testLane : Nat := 0x12C
def testPel : Nat := 0x12E

/-- The pool instances in service that hold no spare; the pools of regions and Spoke units have none by their nature. -/
def State.poolsBare (s : State) : List (Nat × Nat) :=
  poolList.filter (fun p => decide (p.1 < 8) && ! (decide (p.1 < 5) && s.regionRetired p.2) && (s.poolCounts p.1 p.2).2.2.1 == 0)

/-- Every ACTIVE region is scrubbed. -/
def State.allScrubbed (s : State) : Bool := (List.range 16).all (fun n => s.regionState n != 1 || bitOf (s.get F.GRM_STS_active) n)

/-- The fault bits of a source (Table 17.4). -/
def srcFaults (n : Nat) : List RF :=
  [F.CAD_SRC_STS_conflict n, F.CAD_SRC_STS_lost n, F.CAD_SRC_STS_illegal n, F.CAD_SRC_STS_amp_fault n, F.CAD_SRC_STS_unwrap n,
    F.CAD_SRC_STS_z_err n, F.CAD_SRC_STS_dir_err n]

/-- A TEST in a mode that its row does not list. -/
def State.testMode (s : State) (ok : Bool) (f : State → State) : State := if ok then f s else s.print [.err 3]

/-- A TEST with an argument that names nothing. -/
def State.testArg (s : State) (ok : Bool) (f : State → State) : State := if ok then f s else s.print [.err 2]

/-- The TEST command (Table 17.4). -/
def State.conTest (s : State) (env : ConEnv) (t : TestCmd) : State :=
  let w (r : Nat) : Nat := (s.rd r).toNat
  match t with
  | .sup => s.testNow (s.on F.SUP_MODE_twin_ok) [w R.SUP_MODE]
  | .fuse => (s.print [.values [w R.SEC_FUSE_STS]]).testNow s.fuses.readGood []
  | .sm => s.testMode (s.mode != .load) (fun s =>
      s.testNow ((s.dirCopy 0).isSome && (s.dirCopy 1).isSome && (s.settingsRecord 0).isSome && (s.settingsRecord 1).isSome && s.mapView.ok)
        [w R.LDR_STS, w R.FLT_MOR_STS])
  | .image g => s.testMode (s.mode != .load) (fun s => s.testLong ⟨testImage, if g then 1 else 0, 0, 0⟩)
  | .pll => s.testMode (s.mode != .supervise) (fun s => s.testNow (s.on F.CAD_STS_pll_lock && ! s.on F.CAD_STS_pll_lost) [w R.CAD_STS])
  | .scrub => s.testMode s.running (fun s =>
      s.testNow (s.allScrubbed && ! s.on F.GRM_STS_overrun && ! s.on F.GRM_MBU_unrepairable) [w R.GRM_STS, w R.GRM_MBU])
  | .bist => s.testAdmin nameTestBist (plainDesc 0x30 0 0 0 0) (fun s c =>
      if ! (List.range 64).any s.groupTestable then s.complete c.src 0 4 (match s.flt.bist.run with | some t => t.id | none => 0)
      else s.setBist { s.flt.bist with full := 1088, fullCode := 0, planned := 16384 })
  | .hard set => s.testAdmin nameTestHard (plainDesc 0x30 1 set 0 0) (fun s c =>
      let set := set % 65536
      let s := (s.liveOf set).foldl (fun s n => s.secretClear n) s
      let r := s.hardTest 1 ((s.liveOf set).foldl (fun a n => a + 2 ^ n) 0) s.time env.found
      let s := r.1.firnLost set
      let s := r.2.2.eraseDups.foldl (fun s n => s.regionOut n 0x0405) s
      s.finishLater c.src (testStatus r.2.1.code) r.2.1.code r.2.1.id)
  | .ls k => s.testArg (decide (k < 8)) (fun s => s.testMode s.running (fun s =>
      s.testNow (s.on (F.FLT_LS_STS_comparing k) && ! s.on (F.FLT_LS_STS_mismatch k) && ! s.on (F.FLT_LS_STS_lag k) &&
        ! s.on (F.FLT_LS_STS_broken k)) [w (R.FLT_LS_STS k)]))
  | .src n => s.testArg (decide (n < 4)) (fun s => s.testMode (s.running || s.mode == .hold) (fun s =>
      s.testNow (s.on (F.CAD_SRC_STS_valid n) && (srcFaults n).all (fun f => ! s.on f)) [w (R.CAD_SRC_STS n)]))
  | .owt p => (s.pullTest p env.isOpen).testNow (! env.isOpen) [w (R.PIN_CFG p)]
  | .pad u => s.testArg (decide (u < 48)) (fun s =>
      s.testNow (s.on (F.BANK_CFG_vio_ok (u / 6)) && (List.range 8).all (fun p => ! s.on (F.SPK_PAD_short u p)))
        (w (R.BANK_CFG (u / 6)) :: (List.range 8).map (fun p => w (R.SPK_PAD u p))))
  | .lane n => s.testArg (decide (n < 60)) (fun s => s.testMode (s.laneState n == 9) (fun s =>
      s.testLong ⟨testLane, n, s.get (F.LANE_ERR_code_err n), 0⟩))
  | .pcie => s.testNow (s.on F.HIF_STS_link_up && s.get F.HIF_STS_width == 8 && s.get F.HIF_STS_speed == 4) [w R.HIF_STS]
  | .pel p => s.testArg (decide (p < 4)) (fun s =>
      if ! s.portUp p then s.testNow false [w (R.PEL_PSTS p)]
      else ((s.put (F.PEL_PCTL_quiesce p) 8).ledgerStart p).testLong ⟨testPel, p, s.get (F.PEL_ERR_hop_crc p), s.get (F.PEL_ERR_stomped p)⟩)
  | .spare => s.testNow s.poolsBare.isEmpty (s.poolsBare.map (fun p => p.1 * 256 + p.2))

/-- The result of a test that has observed over its interval, with the registers behind it. -/
def State.testResult (s : State) (t : FieldTest) : Bool × List Nat :=
  let w (r : Nat) : Nat := (s.rd r).toNat
  if t.name = testImage then (s.imageVerifies (t.index == 1), [w R.LDR_STS])
  else if t.name = testLane then
    (s.on (F.LANE_EYE_valid t.index) && s.get (F.LANE_ERR_code_err t.index) == t.a, [w (R.LANE_EYE t.index), w (R.LANE_ERR t.index)])
  else
    let ok := s.portUp t.index && (List.range 4).all (fun c => s.on (F.PEL_LEDGER_valid t.index c) && s.on (F.PEL_LEDGER_balanced t.index c)) &&
      s.get (F.PEL_ERR_hop_crc t.index) == t.a && s.get (F.PEL_ERR_stomped t.index) == t.b
    (ok, [w (R.PEL_PSTS t.index), w (R.PEL_ERR t.index), w (R.PEL_LEDGER t.index 3)])

/-- FIELD_TEST_END (R480, R488, R489): the oldest test that runs ends with a line DONE. -/
def execFieldTestEnd (s : State) : Out :=
  match s.con.tests with
  | [] => .next s
  | t :: ts =>
    let r := s.testResult t
    let s := { s with con := { s.con with tests := ts, result := if r.1 then 23 else 24 } }
    .next (s.print ((if r.1 then [] else [.values r.2]) ++ [.doneTest t.name r.1]))

end Sys2Proof.Machine
end

