-- ==== Sys2Proof/Machine/Console.lean ====
section
/-! DEFINITION. The Slomond console (R479 to R484, Table 17.1) and its fuse commands. -/

namespace Sys2Proof.Machine

/-- The state a meaning goes to, or the one it began with. -/
def State.after (s : State) (o : Out) : State :=
  match o with
  | .next t => t
  | _ => s

/-- A console record. -/
def State.setCon (s : State) (c : Console) : State := { s with con := c }

/-- An answer ERR; 80 and 81 are counted (Table 17.8). -/
def State.conErr (s : State) (code : Nat) : State :=
  let s := if code = 0x80 then s.sat F.SUP_SVC_STS_syntax else if code = 0x81 then s.sat F.SUP_SVC_STS_refused else s
  s.print [.err code]

/-! ## Admin commands -/

/-- A command of the console under the checks of R387: refused, or accepted, with ACCEPTED where Table 13.7 lets it run beside others. -/
def State.conAdmit (s : State) (d : AdminDesc) : State :=
  let r := s.firstCheck false d
  if r.1 ≠ 0 then s.conErr r.1
  else
    let s := s.print [.accepted]
    s.setHif { s.hif with accepted := s.hif.accepted ++ [⟨.console d.op, d⟩] }

/-- ADMIN: a command through the mailbox, whose registers it writes; BUSY while the mailbox is. -/
def State.conAdmin (s : State) (op a0 a1 a2 a3 : Nat) : State :=
  if s.on F.HIF_MBOX_CMD_busy then s.conErr 6
  else
    let d := plainDesc op a0 a1 a2 a3
    let s := (s.put F.HIF_MBOX_CMD_opcode op).put F.HIF_MBOX_CMD_busy 1
    let s := (((s.wr (R.HIF_MBOX_ARG 0) d.arg0).wr (R.HIF_MBOX_ARG 1) d.arg1).wr (R.HIF_MBOX_ARG 2) d.arg2).wr (R.HIF_MBOX_ARG 3) d.arg3
    let long := (s.firstCheck false d).1 == 0 && runningOps.contains d.op
    let s := s.setCon { s.con with mbox := some (if long then d.op else 0x200 + d.op) }
    (if long then s.print [.accepted] else s).enroll .mailbox d

/-- LOAD: a full load from slot A or the golden image. -/
def State.conLoad (s : State) (golden : Bool) : State :=
  let d := plainDesc 0x10 (if golden then 2 else 1) 0 0 0
  let r := s.firstCheck false d
  if r.1 ≠ 0 then s.conErr r.1
  else if s.loadMissing false then s.loadRefused.conErr 3
  else ((s.print [.accepted]).runCmd ⟨.console 0x10, d⟩).beginFull (if golden then 2 else 1) false (some (.console 0x10))

/-- ATTEST: the report printed with its CRC. -/
def State.conAttest (s : State) (nonce : List Byte) : State :=
  let d := plainDesc 0x71 0 0 0 0
  if s.modeStatus d ≠ 0 then s.conErr (s.modeStatus d)
  else if s.sameRuns d then s.conErr 6
  else if s.ldr.fuseBlocked || ! s.unitOk 7 then s.conErr 3
  else
    let r := s.attestReport nonce
    let s := ((s.print [.accepted, .report r (crc32c r)]).runCmd ⟨.console 0x71, d⟩).raise 0x0133 1
    s.finishLater (.console 0x71) 0 0

/-- A report printed with its CRC. -/
def State.conReport (s : State) (bytes : List Byte) : State := s.print [.report bytes (crc32c bytes), .ok]

/-! ## Fuses -/

/-- A fuse command that names a slot, a key or a mask that there is. -/
def fuseArg (r : FuseReq) : Bool :=
  match r with
  | .hash k v => decide (k < 4) && v.length == 48
  | .key k v => decide (k < 2) && v.length == 32
  | _ => true

/-- FUSE: legal in SUPERVISE and HOLD; it answers CONFIRM with bits [15:0] of the CRC of its line. -/
def State.conFuse (s : State) (line : List Byte) (r : FuseReq) : State :=
  if s.mode ≠ .supervise ∧ s.mode ≠ .hold then s.conErr 3
  else if ! fuseArg r then s.conErr 2
  else
    let v := (crc32c line).toNat % 65536
    (s.setCon { s.con with fuse := some (r, v, s.time) }).print [.confirm v]

/-- A fuse has been programmed: SEC_FUSE_STS shows it. -/
def State.fuseSet (s : State) (f : Fuses) : State := ({ s with fuses := f }).fuseShow

/-- A confirmed fuse command (R484): `blown` is what reads back of the bytes that were programmed, nothing where none was blown. -/
def State.fuseDo (s : State) (r : FuseReq) (blown : Option (List Byte)) : State :=
  let f := s.fuses
  let done (s : State) (good : Bool) : State := if good then s.print [.ok] else s.conErr 8
  if s.mode ≠ .supervise ∧ s.mode ≠ .hold then s.conErr 3
  else match r, blown with
    | .hash k v, b =>
      if f.hashProg.getLsbD k then s.conErr 3
      else match b with
        | none => s.conErr 8
        | some b =>
          let s := s.fuseSet { f with hashProg := f.hashProg ||| BitVec.ofNat 4 (2 ^ k), hashes := SMap.set (fun _ => []) f.hashes k b }
          done (s.raise 0x0130 k) (b == v)
    | .key k v, b =>
      if f.custProg.getLsbD k then s.conErr 3
      else match b with
        | none => s.conErr 8
        | some b =>
          let s := s.fuseSet { f with custProg := f.custProg ||| BitVec.ofNat 2 (2 ^ k), cust := SMap.set (fun _ => []) f.cust k b }
          done (s.raise 0x0130 (0x10 + k)) (b == v)
    | .enc, b =>
      if f.encRequired then s.conErr 3
      else if b.isNone then s.conErr 8
      else done ((s.fuseSet { f with encRequired := true }).raise 0x0130 0x20) true
    | .revoke m, b =>
      if m &&& ~~~ f.revoked = 0 then s.conErr 3
      else if f.hashProg &&& ~~~ (f.revoked ||| m) = 0 then (s.revokePair m).conErr 3
      else if b.isNone then s.conErr 8
      else done ((s.revokePair m).raise 0x0130 (0x30 + m.toNat)) true
    | .close, b =>
      if f.testClose then s.conErr 3
      else if b.isNone then s.conErr 8
      else done ((s.fuseSet { f with testClose := true }).raiseFree 0x0131) true

/-- CONFIRM: the pending fuse command acts when the value is its own and the line comes within 30 s. -/
def State.conConfirm (s : State) (v : Nat) (blown : Option (List Byte)) : State :=
  match s.con.fuse with
  | none => s.conErr 1
  | some (r, w, t) =>
    let s := s.setCon { s.con with fuse := none }
    if w = v ∧ s.time ≤ t + 30000000 then s.fuseDo r blown else s.conErr 7

/-! ## Readouts -/

/-- The level of a system pin. -/
def State.pinLevel (s : State) (p : Nat) : Nat := if bitOf (s.get (F.PIN_IN_level (p / 16))) (p % 16) then 1 else 0

/-- STATUS: mode, first missing unit, LDR_ERR, region states, PWR_STS, meter code. -/
def State.statusValues (s : State) : List Nat :=
  [s.get F.SUP_MODE_mode, s.get F.SUP_MODE_missing, (s.rd R.LDR_ERR).toNat] ++ (List.range 16).map (fun n => s.regionState n) ++
    [(s.rd R.PWR_STS).toNat, s.statusCode]

/-- SPARE: the counts of R432 in the order of Table 14.7. -/
def State.spareValues (s : State) : List Nat :=
  poolList.flatMap (fun p =>
    let c := s.poolCounts p.1 p.2
    [p.1, p.2, c.1, c.2.1, c.2.2.1, c.2.2.2])

/-- The last n entries of the fault log ring. -/
def State.lastLog (s : State) (n : Nat) : List LogEntry := s.log.drop (s.log.length - n)

/-- The rates of R481 in the order of Table 17.8. -/
def bauds : List Nat := [115200, 230400, 460800, 921600, 1000000, 2000000, 3000000]

/-- BAUD: the rate changes after the answer OK. -/
def State.conBaud (s : State) (rate : Nat) : State :=
  match bauds.idxOf? rate with
  | none => s.conErr 2
  | some i =>
    let s := s.print [.ok]
    let s := if s.get F.SUP_SVC_CFG_rate = i then s else s.setCon { s.con with rateChanged := true }
    s.put F.SUP_SVC_CFG_rate i

/-- A register access of RD or WR. -/
def State.conAccess (s : State) (off : Nat) (w : Option Word) : State :=
  if off % 4 ≠ 0 ∨ 2 ^ 24 ≤ off then s.conErr 2 else s.access ⟨.console, off, w, some 0⟩

/-- LANE: the registers of a physical lane, or its restart (R318). -/
def State.conLane (s : State) (n : Nat) (restart : Bool) : State :=
  if 60 ≤ n then s.conErr 2
  else if restart then
    (if isPcie (n / 5) then s else (s.laneRestart n).portTrain (n / 5)).print [.ok]
  else s.print [.values [(s.rd (R.LANE_STS n)).toNat, (s.rd (R.LANE_EYE n)).toNat, (s.rd (R.LANE_ERR n)).toNat], .ok]

/-- HOLD: MODE_REQUEST HOLD, under the mode check of Table 13.9. -/
def State.conHold (s : State) : State :=
  let st := s.modeStatus (plainDesc 0x70 1 0 0 0)
  if st ≠ 0 then s.conErr st else (s.enterHold 1 false false).print [.ok]

/-- RESTART: MODE_REQUEST RESTART (R393). -/
def State.conRestart (s : State) : State :=
  let st := s.modeStatus (plainDesc 0x70 2 0 0 0)
  if st ≠ 0 then s.conErr st else ((s.print [.ok]).abortAll).warmReset 2

/-! ## A command -/

/-- What a command of Table 17.1 does once it is let through. -/
def State.conDo (s : State) (env : ConEnv) (line : List Byte) (c : ConCmd) : State :=
  match c with
  | .help => s.print [.help, .ok]
  | .status => s.print [.values s.statusValues, .ok]
  | .log n => s.print [.log (s.lastLog n), .ok]
  | .spare => s.print [.values s.spareValues, .ok]
  | .reportBist id compat =>
    match s.bistReport compat id with
    | .error e => s.conErr e.1
    | .ok bytes => s.conReport bytes
  | .reportScrub =>
    let r := s.scrubReport 65536
    r.2.conReport r.1
  | .reportMap => s.conReport s.mapBytesInUse
  | .lane n r => s.conLane n r
  | .pin p => s.print [.values [(s.rd (R.PIN_CFG p)).toNat, s.pinLevel p], .ok]
  | .meter src i => ((s.put F.SUP_MTR_CTL_src src).put F.SUP_MTR_CTL_index i).print [.ok]
  | .test t => s.conTest env t
  | .rd off => s.conAccess off none
  | .wr off v => s.conAccess off (some (BitVec.ofNat 32 v))
  | .admin op a0 a1 a2 a3 => s.conAdmin op a0 a1 a2 a3
  | .load g => s.conLoad g
  | .loadPartial set e act =>
    if 65535 < set then s.conErr 2 else
    let t := s.conAdmit (plainDesc 0x11 (set % 65536 + (if act then 65536 else 0) + 131072) e 0 0)
    if t.hif.accepted.length = s.hif.accepted.length then t else t.after (execLoadPartial [] t)
  | .isolate set =>
    if 2 ^ 32 ≤ set then s.conErr 2 else
    let t := s.conAdmit (plainDesc 0x13 set 0 0 0)
    if t.hif.accepted.length = s.hif.accepted.length then t else t.after (execIsolateRegion t)
  | .activate set =>
    if 2 ^ 32 ≤ set then s.conErr 2 else
    let t := s.conAdmit (plainDesc 0x12 set 0 0 0)
    if t.hif.accepted.length = s.hif.accepted.length then t else t.after (execActivateRegion t)
  | .hold => s.conHold
  | .restart => s.conRestart
  | .attest nonce => s.conAttest nonce
  | .fuse r => s.conFuse line r
  | .confirm v => s.conConfirm v env.blown
  | .baud rate => s.conBaud rate
  | .echo on => (s.putB F.SUP_SVC_CFG_echo on).print [.ok]
  | .evt on => (s.putB F.SUP_SVC_CFG_evt on).print [.ok]

/-- The console runs: VIN is above the start threshold and a supervisor half is left (R30, R479). -/
def State.conLive (s : State) : Bool := s.mode != .cold && ! s.latched

/-- A valid line: the strap is sampled (R482), the rate stands (R481). -/
def State.conValid (s : State) (wrLow : Bool) : State :=
  (s.putB F.SUP_SVC_STS_wr_en wrLow).setCon { s.con with rateChanged := false }

/-- A command marked W while SVC_WR_N is high (R482). -/
def State.conRefuse (s : State) : State := (s.conErr 0x81).raiseFreeLim 1000000 0x0132 0

/-- A line other than CONFIRM cancels a pending fuse command (R484). -/
def State.conCancel (s : State) : State := (s.setCon { s.con with fuse := none }).conErr 7

/-- One command of the console. -/
def State.conRun (s : State) (env : ConEnv) (line : List Byte) (c : ConCmd) : State :=
  if ! s.conLive then s
  else
    let s := s.conValid env.wrLow
    match c with
    | .confirm v => s.conConfirm v env.blown
    | c =>
      if s.con.fuse.isSome then s.conCancel
      else if c.isW && ! env.wrLow then s.conRefuse
      else s.conDo env line c

/-- A line that is no command. -/
def State.conBad (s : State) (wrLow : Bool) (code : Nat) : State :=
  let s := s.putB F.SUP_SVC_STS_wr_en wrLow
  if s.con.fuse.isSome then s.conCancel else s.conErr code

/-- The characters of a line sent back (R480). -/
def State.conEcho (s : State) (line : List Byte) : State :=
  if s.on F.SUP_SVC_CFG_echo && ! isFuseKey line then s.print [.echo line] else s

/-- A line as it was received. -/
def State.conLine (s : State) (env : ConEnv) (line : List Byte) : State :=
  if ! s.conLive then s
  else
    let s := s.conEcho line
    match parseLine line with
    | none => s
    | some (.error code) => s.conBad env.wrLow code
    | some (.ok c) => s.conRun env line c

/-! ## Rows: the line -/

/-- CONSOLE_LINE (R480, R483). -/
def execConsoleLine (line : List Byte) (env : ConEnv) (s : State) : Out := .next (s.conLine env line)

/-- CONSOLE_PIN_DETECT (R479): the first carriage return at the present rate. -/
def execConsolePinDetect (onTx : Bool) (s : State) : Out :=
  .next (if s.conLive && ! s.on F.SUP_SVC_STS_detected then (s.put F.SUP_SVC_STS_detected 1).putB F.SUP_SVC_STS_swapped onTx else s)

/-- The rate at 115,200 baud again. -/
def State.baudBack (s : State) : State := (s.put F.SUP_SVC_CFG_rate 0).setCon { s.con with rateChanged := false }

/-- CONSOLE_BREAK (R481): a break of 100 ms on the receiver. -/
def execConsoleBreak (s : State) : Out :=
  .next (if s.conLive then (s.baudBack.put F.SUP_SVC_STS_detected 0).put F.SUP_SVC_STS_swapped 0 else s)

/-- BAUD_REVERT (R481): 10 s without a valid line after a change of the rate. -/
def execBaudRevert (s : State) : Out := .next (if s.con.rateChanged then s.baudBack else s)

/-- CONSOLE_STOP_OUTPUT (R480): the character 0x03. Answers are whole in this model, so no output is in progress between two commands. -/
def execConsoleStopOutput (s : State) : Out := .next s

/-! ## Rows: Table 17.1; `w` says that SVC_WR_N is low -/

/-- HELP. -/
def execHelp (w : Bool) (s : State) : Out := .next (s.conRun { wrLow := w } [] .help)
/-- STATUS. -/
def execStatus (w : Bool) (s : State) : Out := .next (s.conRun { wrLow := w } [] .status)
/-- LOG. -/
def execLog (n : Nat) (w : Bool) (s : State) : Out := .next (s.conRun { wrLow := w } [] (.log n))
/-- SPARE. -/
def execSpare (w : Bool) (s : State) : Out := .next (s.conRun { wrLow := w } [] .spare)
/-- REPORT: the report of a test, in compatibility format where asked; of the Groomer; the repair map. -/
def execReport (kind : RepKind) (w : Bool) (s : State) : Out :=
  .next (s.conRun { wrLow := w } [] (match kind with
    | .bist id compat => .reportBist id compat
    | .scrub => .reportScrub
    | .map => .reportMap))
/-- LANE. -/
def execLane (n : Nat) (restart : Bool) (w : Bool) (s : State) : Out := .next (s.conRun { wrLow := w } [] (.lane n restart))
/-- PIN. -/
def execPin (p : Fin 64) (w : Bool) (s : State) : Out := .next (s.conRun { wrLow := w } [] (.pin p))
/-- METER. -/
def execMeter (src : BitVec 4) (i : Nat) (w : Bool) (s : State) : Out := .next (s.conRun { wrLow := w } [] (.meter src.toNat i))
/-- RD. -/
def execRd (off : Nat) (w : Bool) (s : State) : Out := .next (s.conRun { wrLow := w } [] (.rd off))
/-- WR. -/
def execWr (off v : Nat) (w : Bool) (s : State) : Out := .next (s.conRun { wrLow := w } [] (.wr off v))
/-- ADMIN. -/
def execAdmin (op a0 a1 a2 a3 : Nat) (w : Bool) (s : State) : Out := .next (s.conRun { wrLow := w } [] (.admin op a0 a1 a2 a3))
/-- LOAD. -/
def execConsoleLoad (golden w : Bool) (s : State) : Out := .next (s.conRun { wrLow := w } [] (.load golden))
/-- LOAD_PARTIAL. -/
def execConsoleLoadPartial (set entry : Nat) (act w : Bool) (s : State) : Out :=
  .next (s.conRun { wrLow := w } [] (.loadPartial set entry act))
/-- ISOLATE_REGION. -/
def execConsoleIsolateRegion (set : Nat) (w : Bool) (s : State) : Out := .next (s.conRun { wrLow := w } [] (.isolate set))
/-- ACTIVATE_REGION. -/
def execConsoleActivateRegion (set : Nat) (w : Bool) (s : State) : Out := .next (s.conRun { wrLow := w } [] (.activate set))
/-- HOLD. -/
def execHold (w : Bool) (s : State) : Out := .next (s.conRun { wrLow := w } [] .hold)
/-- RESTART. -/
def execRestart (w : Bool) (s : State) : Out := .next (s.conRun { wrLow := w } [] .restart)
/-- ATTEST: a nonce of 32 bytes, brought to that length. -/
def execConsoleAttest (nonce : List Byte) (w : Bool) (s : State) : Out := .next (s.conRun { wrLow := w } [] (.attest (fit 32 nonce)))

/-! ## Rows: fuses. The line is the one received, since its CRC is the confirmation value -/

/-- A line that is a fuse command of one kind; another line is no such command and does nothing here. -/
def State.fuseLine (s : State) (line : List Byte) (w : Bool) (p : FuseReq → Bool) : State :=
  match parseLine line with
  | some (.ok (.fuse r)) => if p r then s.conLine { wrLow := w } line else s
  | _ => s

/-- FUSE_HASH (R484). -/
def execFuseHash (line : List Byte) (w : Bool) (s : State) : Out :=
  .next (s.fuseLine line w (fun r => match r with | .hash _ _ => true | _ => false))
/-- FUSE_KEY (R484). -/
def execFuseKey (line : List Byte) (w : Bool) (s : State) : Out :=
  .next (s.fuseLine line w (fun r => match r with | .key _ _ => true | _ => false))
/-- FUSE_ENC (R484). -/
def execFuseEnc (line : List Byte) (w : Bool) (s : State) : Out := .next (s.fuseLine line w (fun r => r == .enc))
/-- FUSE_REVOKE (R269, R484). -/
def execFuseRevoke (line : List Byte) (w : Bool) (s : State) : Out :=
  .next (s.fuseLine line w (fun r => match r with | .revoke _ => true | _ => false))
/-- FUSE_CLOSE (R484, R491). -/
def execFuseClose (line : List Byte) (w : Bool) (s : State) : Out := .next (s.fuseLine line w (fun r => r == .close))
/-- CONFIRM (R484), with what reads back of what was programmed. -/
def execConfirm (v : BitVec 16) (blown : Option (List Byte)) (w : Bool) (s : State) : Out :=
  .next (s.conRun { wrLow := w, blown := blown } [] (.confirm v.toNat))
/-- CONFIRM_TIMEOUT (R484): 30 s have passed. -/
def execConfirmTimeout (s : State) : Out := .next (if s.con.fuse.isSome then s.conCancel else s)
/-- BAUD. -/
def execBaud (rate : Nat) (w : Bool) (s : State) : Out := .next (s.conRun { wrLow := w } [] (.baud rate))
/-- ECHO. -/
def execEcho (on w : Bool) (s : State) : Out := .next (s.conRun { wrLow := w } [] (.echo on))
/-- EVT. -/
def execEvt (on w : Bool) (s : State) : Out := .next (s.conRun { wrLow := w } [] (.evt on))

/-! ## Rows: field tests (Table 17.4) -/

/-- TEST_SUP. -/
def execTestSup (w : Bool) (s : State) : Out := .next (s.conRun { wrLow := w } [] (.test .sup))
/-- TEST_FUSE. -/
def execTestFuse (w : Bool) (s : State) : Out := .next (s.conRun { wrLow := w } [] (.test .fuse))
/-- TEST_SM. -/
def execTestSm (w : Bool) (s : State) : Out := .next (s.conRun { wrLow := w } [] (.test .sm))
/-- TEST_IMAGE. -/
def execTestImage (golden w : Bool) (s : State) : Out := .next (s.conRun { wrLow := w } [] (.test (.image golden)))
/-- TEST_PLL. -/
def execTestPll (w : Bool) (s : State) : Out := .next (s.conRun { wrLow := w } [] (.test .pll))
/-- TEST_SCRUB. -/
def execTestScrub (w : Bool) (s : State) : Out := .next (s.conRun { wrLow := w } [] (.test .scrub))
/-- TEST_BIST. -/
def execTestBist (w : Bool) (s : State) : Out := .next (s.conRun { wrLow := w } [] (.test .bist))
/-- TEST_HARD, with the failures that it finds. -/
def execTestHard (set : Nat) (found : List TestFault) (w : Bool) (s : State) : Out :=
  .next (s.conRun { wrLow := w, found := found } [] (.test (.hard set)))
/-- TEST_LS. -/
def execTestLs (k : Nat) (w : Bool) (s : State) : Out := .next (s.conRun { wrLow := w } [] (.test (.ls k)))
/-- TEST_SRC. -/
def execTestSrc (n : Nat) (w : Bool) (s : State) : Out := .next (s.conRun { wrLow := w } [] (.test (.src n)))
/-- TEST_OWT, with what the pull test finds. -/
def execTestOwt (p : Fin 64) (isOpen w : Bool) (s : State) : Out :=
  .next (s.conRun { wrLow := w, isOpen := isOpen } [] (.test (.owt p)))
/-- TEST_PAD. -/
def execTestPad (u : Nat) (w : Bool) (s : State) : Out := .next (s.conRun { wrLow := w } [] (.test (.pad u)))
/-- TEST_LANE. -/
def execTestLane (n : Nat) (w : Bool) (s : State) : Out := .next (s.conRun { wrLow := w } [] (.test (.lane n)))
/-- TEST_PCIE. -/
def execTestPcie (w : Bool) (s : State) : Out := .next (s.conRun { wrLow := w } [] (.test .pcie))
/-- TEST_PEL. -/
def execTestPel (p : Nat) (w : Bool) (s : State) : Out := .next (s.conRun { wrLow := w } [] (.test (.pel p)))
/-- TEST_SPARE. -/
def execTestSpare (w : Bool) (s : State) : Out := .next (s.conRun { wrLow := w } [] (.test .spare))

end Sys2Proof.Machine
end

