-- ==== Sys2Proof/Machine/Derailleur.lean ====
section
/-! DEFINITION. The commands of the Derailleur (R253 to R257, R471). -/

namespace Sys2Proof.Machine

/-- A low sample received since the last evaluation raises the demand and ends the window (R253). -/
def State.drlRaise (s : State) : State :=
  (s.setGoal (s.get F.PWR_DRL_STS_vcore + max 1 (s.get F.PWR_DRL_VLIM_up_step))).closeWindow

/-- DERAILLEUR_EVALUATE (R253): every 10 us, in RUN and LIMP. -/
def execDerailleurEvaluate (s : State) : Out :=
  if ! s.running then .next s
  else if s.pwr.lowSample && s.on F.PWR_DRL_CTL_enable then .next s.drlRaise
  else .next (({ s with pwr := { s.pwr with lowSample := false } }).setGoal s.pwr.demand)

/-- DERAILLEUR_WINDOW_END (R253, R254): the evaluation at which a window ends. VCORE is lowered by one code when every sample cleared target
plus hysteresis, or in a window with no sample when idle_lower is 1; a low sample comes first. -/
def execDerailleurWindowEnd (s : State) : Out :=
  if ! s.running then .next s
  else if s.pwr.lowSample && s.on F.PWR_DRL_CTL_enable then .next s.drlRaise
  else
    let lower := if s.pwr.samples = 0 then s.on F.PWR_DRL_CTL_idle_lower
      else decide (s.getS F.PWR_DRL_TGT_target + s.get F.PWR_DRL_TGT_hyst ≤ s.pwr.smin)
    .next (if lower && s.on F.PWR_DRL_CTL_enable then (s.setGoal (s.get F.PWR_DRL_STS_vcore - 1)).closeWindow
      else (s.setGoal s.pwr.demand).closeWindow)

/-- VCORE_SLEW_STEP (R253, R257): one code toward the goal each microsecond, in every mode in which VCORE is on. -/
def execVcoreSlewStep (s : State) : Out :=
  if ! s.pwr.on then .next s
  else
    let v := s.get F.PWR_DRL_STS_vcore
    let v := if v < s.pwr.goal then v + 1 else if s.pwr.goal < v then v - 1 else v
    .next ((s.put F.PWR_DRL_STS_vcore v).putB F.PWR_DRL_STS_slewing (v != s.pwr.goal))

/-- The ceilings changed: the ceiling reads, and VCORE follows it at once where the demand lies above, in every mode in which it is on
(R255, R257). -/
def State.ceilingMoved (s : State) : State :=
  let s := s.put F.PWR_DRL_STS_ceiling s.ceiling
  if ! s.pwr.on then s else if s.running then s.setGoal s.pwr.demand else s.aim s.pwr.demand 0

/-- CAP_CEILING_STEP (R255, R469, R470): the averaged input power, in units of 10 mW, against the effective cap. -/
def execCapCeilingStep (pin pcore : BitVec 16) (s : State) : Out :=
  let s := ((s.put F.PWR_PIN_pin pin.toNat).put F.PWR_PIN_pcore pcore.toNat).capUpdate
  let cap := s.effCap.1
  let mw := 10 * pin.toNat
  let c := s.pwr.capCeil
  let c := if cap < mw then max s.vMin (c - 1) else if 100 * mw < 95 * cap then min 80 (c + 1) else c
  .next (s.setPwr { s.pwr with capCeil := c }).ceilingMoved

/-- THERMAL_CEILING_STEP (R255): the hottest junction against tj_lim, 85 to 115 degrees. -/
def execThermalCeilingStep (s : State) : Out :=
  let lim : Int := clamp 85 115 (s.get F.PWR_DRL_WIN_tj_lim)
  let tj := s.getS F.PWR_TEMP_tj_max
  let c := s.pwr.thermCeil
  let c := if lim ≤ tj then max s.vMin (c - 1) else if tj < lim - 3 then min 80 (c + 1) else c
  .next (s.setPwr { s.pwr with thermCeil := c }).ceilingMoved

/-- CAP_UNMET (R255, R471): input power above the cap for 1 ms at v_min; HOLD when over_act is 1. -/
def execCapUnmet (s : State) : Out :=
  if ! s.pwr.on || s.get F.PWR_DRL_STS_vcore != s.vMin || ! decide (s.effCap.1 < 10 * s.get F.PWR_PIN_pin) then .next s
  else
    let s := s.raiseLim 1000 0x0A21 0 0
    .next (if s.on F.PWR_CAP_over_act then s.faultHold else s)

end Sys2Proof.Machine
end

