-- ==== Sys2Proof/Machine/Power.lean ====
section
/-! DEFINITION. The commands of the input stage, the rails and the sensors (chapter 16). -/

namespace Sys2Proof.Machine

/-- UNDERVOLTAGE (R18, R472, Table 16.3): VIN, in millivolts, below the undervoltage threshold. In SUPERVISE VCORE is already off and a dip
causes no transition (R473). -/
def execUndervoltage (vin : BitVec 16) (s : State) : Out :=
  if s.mode = .cold ∨ s.latched ∨ vinUnderMv + vinTolMv < vin.toNat then .next s
  else
    let s := s.put F.PWR_VIN_vin vin.toNat
    if s.mode = .supervise then .next s
    else
      let s := (s.put F.PWR_STS_uv 1).raiseLim 1000 0x0A01 0 (vin.toNat / 10)
      .next (s.enterHold 3 true true)

/-- AUTO_RESTART (R18, R473): VIN, in millivolts, has stayed above the start threshold for 10 ms after an undervoltage HOLD with
auto_restart set. -/
def execAutoRestart (s : State) (vin : BitVec 16 := 5700) : Out :=
  if s.mode = .hold ∧ s.get F.SUP_MODE_hold_cause = 3 ∧ s.autoRestart ∧ ! s.latched ∧ vinStartMv ≤ vin.toNat + vinTolMv then
    .next ((s.put F.PWR_VIN_vin vin.toNat).warmReset 3)
  else .next s

/-- OVERVOLTAGE (R463): VIN, in millivolts, above 41.0 V, within the tolerance of 0.5 V. -/
def execOvervoltage (vin : BitVec 16) (s : State) : Out :=
  if s.mode = .cold ∨ vin.toNat + 500 < 41000 then .next s
  else .next (((s.put F.PWR_VIN_vin vin.toNat).put F.PWR_STS_ovp 1).raiseLim 1000 0x0A02 0 (vin.toNat / 10))

/-- INPUT_HARD_LIMIT (R465): the current, in milliamperes, has held the hard limit of 11.0 A for 10 us. -/
def execInputHardLimit (ma : BitVec 16) (s : State) : Out :=
  if s.mode = .cold ∨ ma.toNat < 11000 then .next s
  else
    let s := ((s.put F.PWR_VIN_iin ma.toNat).put F.PWR_STS_hard_lim 1).raiseLim 1000 0x0A22 0 (ma.toNat / 10)
    .next s.faultHold

/-- VCORE rises in step 1 of a full load; where it does not reach its window, unit 6 is missing (R33, R467). -/
def State.vcoreMissed (s : State) : State :=
  if s.mode = .load ∧ s.ldr.load.any (fun l => l.step == .entered) then s.setUnit 6 false else s

/-- RAIL_OUT_OF_WINDOW (R466, R467, Table 16.1): rail 0 auxiliary, 1 3.3 V, 2 lane 0.9 V, 3 lane 1.2 V, 4 VCORE. -/
def execRailOutOfWindow (rail : Fin 5) (mv : BitVec 16) (s : State) : Out :=
  if s.mode = .cold then .next s
  else
    let s := s.put ⟨R.PWR_RAIL, 16 + rail, 1⟩ 0
    match rail.val with
    | 0 => .next s.toCold
    | 1 =>
      let s := (s.raiseLim 1000 0x0A03 1 1).setUnit 2 false
      let s := if s.on F.LDR_STRAP_vsel then s.setUnit 1 false else s
      .next (((List.range 64).foldl (fun s p => s.setSysPad p .z) s).banksCheck)
    | 4 => if s.pwr.on then .next (((s.put F.PWR_RAIL_vcore_mv mv.toNat).raiseLim 1000 0x0A03 4 4).vcoreMissed.enterHold 2 true true) else .next s
    | r => .next ((s.raiseLim 1000 0x0A03 r r).lanesRailFail)

/-- VCORE_PHASE_CHECK (R468, R470): the check finds one phase in service failed. A spare takes its place with event 0x0A04 and
Moraine records the change; with no spare the phase is retired and the module enters LIMP, or HOLD with fewer than 5 working phases. -/
def execVcorePhaseCheck (phase : Fin 10) (s : State) : Out :=
  let act := s.get F.PWR_PHASE_active
  if ! bitOf act phase then .next s
  else
    let bit := 2 ^ phase.val
    let failed := s.get F.PWR_PHASE_failed ||| bit
    let s := s.put F.PWR_PHASE_failed failed
    let s := s.put F.FLT_RET_MISC_phases (s.get F.FLT_RET_MISC_phases ||| bit)
    let left := act - bit
    match (List.range 10).find? (fun i => ! bitOf left i && ! bitOf failed i) with
    | some i => .next (((s.put F.PWR_PHASE_active (left + 2 ^ i)).raiseLim 1000 0x0A04 0 phase).morSubstituted 7 0 phase 0x0A04)
    | none =>
      let s := (s.put F.PWR_PHASE_active left).put F.PWR_STS_phases (popBelow left 10)
      let s := (s.morRetired 7 0 phase 0x0A04).capUpdate
      if popBelow left 10 < 5 then .next (s.raiseLim 1000 0x0A05 0 (popBelow left 10)).faultRetire
      else .next s.retireMode

/-- The hottest junction and its region, the lowest region on a tie. -/
def hottest : List Int → Nat → Int × Nat → Int × Nat
  | [], _, b => b
  | t :: ts, i, b => hottest ts (i + 1) (if b.1 < t then (t, i) else b)

/-- TEMPERATURE_READ (R474, R475): the 10 us reading. The second reading in a row above 120 degrees raises event 0x0A11 and gives HOLD
with the fabric in set-reset; the baseplate term of the cap raises event 0x0A12 once when it starts to act. -/
def execTemperatureRead (t : Temps) (s : State) : Out :=
  if s.mode = .cold then .next s
  else
    let h := hottest t.junction 0 (-128, 0)
    let s := ((s.putS F.PWR_TEMP_tj_max h.1).put F.PWR_TEMP_tj_region h.2).putS F.PWR_TEMP_tbase t.base
    let derate := decide (baseTerm (s.getS F.PWR_TEMP_tbase) < 65000)
    let started := derate && ! s.pwr.derating
    let hot := decide (120 < h.1)
    let again := hot && s.pwr.hot
    let s := { s with pwr := { s.pwr with junction := t.junction, hot := hot, derating := derate } }
    let s := s.capUpdate
    let s := if started then s.raiseLim 1000 0x0A12 0 (enc2 16 t.base) else s
    if again && (s.running || s.mode = .load) then .next ((s.raiseLim 1000 0x0A11 0 h.2).enterHold 4 true true)
    else .next s

/-- INPUT_LIMIT (R469): VIN, in millivolts, has fallen below 8.8 V or risen to 9.0 V. -/
def execInputLimit (vin : BitVec 16) (s : State) : Out :=
  if s.mode = .cold then .next s
  else
    let s := s.put F.PWR_VIN_vin vin.toNat
    let s := if vin.toNat < 8800 then s.put F.PWR_STS_vin_lim 1 else if 9000 ≤ vin.toNat then s.put F.PWR_STS_vin_lim 0 else s
    .next s.capUpdate

end Sys2Proof.Machine
end

