-- ==== Sys2Proof/Machine/Spoke.lean ====
section
/-! DEFINITION. The commands of the Spoke units and the sampling converters (chapter 08). -/

namespace Sys2Proof.Machine

/-- SPOKE_EREQ (R237): the unit takes one entry from EREQ, or holds it while its queue is full and where it acknowledges nothing. -/
def execSpokeEreq (u : Fin 48) (dt : Fin 4000) (s : State) : Out :=
  if ! s.spkTakes u || (! s.spkDrops u && decide (64 ≤ (s.spkU u).queue.length)) then .next s
  else match s.inValue (chEreq u) 32 with
    | none => .next s
    | some v => .next ((s.ackIn (chEreq u) 32).pushEntry u dt (BitVec.ofNat 64 v))

/-- SPK_PUSH_HI (R237): the host write commits the entry, or is discarded with push_lost; a retired unit's page discards it (R521). -/
def execSpkPushHi (u : Fin 48) (dt : Fin 4000) (v : BitVec 32) (s : State) : Out :=
  .next (s.bar (R.SPK_PUSH_HI u) (some v) (if s.spkRetired u then s else s.hostPush u dt v))

/-- EDGE (R239): the armed EDGE entry fires when the estimate reaches its stamp. -/
def execEdge (u : Fin 48) (dt : Fin 4000) (s : State) : Out := .next (s.headInstant u 0 dt)

/-- TICK (R246). -/
def execTick (u : Fin 48) (dt : Fin 4000) (s : State) : Out := .next (s.headInstant u 1 dt)

/-- TRIG (R250). -/
def execTrig (u : Fin 48) (dt : Fin 4000) (s : State) : Out := .next (s.headInstant u 2 dt)

/-- NOP (R236, Table 08.3): fires with no effect. -/
def execNop (u : Fin 48) (dt : Fin 4000) (s : State) : Out := .next (s.headInstant u 3 dt)

/-- TICK_DELIVER (R236, R246): the fabric has acknowledged the pending tick token; the next one is offered, in HOLD none (Table 08.5). -/
def execTickDeliver (u : Fin 48) (k : Fin 16) (s : State) : Out :=
  if ! s.outTaken (chTick u k) 1 then .next s
  else
    let rest := (s.ticksOf u k).tail
    let s := (s.clearOut (chTick u k) 1).setTicks u k rest
    .next (match rest with
      | [] => s
      | v :: _ => if s.halted then s else s.offerOut (chTick u k) [v.toNat])

/-- The record of a completion that closes deadline `d` at an estimate (R247). -/
def State.recordSlack (s : State) (u k : Nat) (d : Deadline) (theta : BitVec 40) : State :=
  if d.d = 0 then s
  else
    let f := slackFraction (ahead d.l theta d.dir) d.d.toNat
    let s := s.putS ⟨R.SPK_SLACK u (k / 2), 16 * (k % 2), 16⟩ f
    let s := if f < s.getS (F.SPK_MON_MIN_slack u) then (s.putS (F.SPK_MON_MIN_slack u) f).put (F.SPK_MON_MIN_chan u) k else s
    let s := s.inc (F.SPK_MON_CNT_done u)
    if s.monSends u k then
      let x := s.spkU u
      s.setSpk u { x with sample := some (min f (x.sample.getD f)) }
    else s

/-- DONE_COMPLETION (R247): a token on DONEk closes the oldest deadline and records its slack, or is spurious. -/
def execDoneCompletion (u : Fin 48) (k : Fin 16) (dt : Fin 4000) (s : State) : Out :=
  if ! (s.spkU u).out || s.spkRetired u then .next s
  else match s.inValue (chDone u k) 1 with
    | none => .next s
    | some _ =>
      let s := s.ackIn (chDone u k) 1
      if s.halted then .next s
      else match s.deadlinesOf u k with
        | [] => .next ((s.put (F.SPK_TICK_STS_spur u) (s.get (F.SPK_TICK_STS_spur u) ||| 2 ^ k.val)).raiseLim 1000 0x0606 u (unitChan u k))
        | d :: rest => .next ((s.setDeadlines u k rest).recordSlack u k d (s.estimate (s.get (F.SPK_CTL_track u)) dt))

/-- The first open deadline that the estimate has reached and that has not been missed yet, marked as missed. -/
def markMissed (reached : Deadline → Bool) : List Deadline → Option (List Deadline)
  | [] => none
  | d :: ds =>
    if d.d ≠ 0 ∧ ! d.missed ∧ reached d then some ({ d with missed := true } :: ds)
    else (markMissed reached ds).map (d :: ·)

/-- The estimate, `dt` picoseconds after the update, has reached the angle of a deadline while it moves in the tick's direction (R247). One more
than 2^38 counts behind has come round from ahead by motion against that direction, which reaches none. -/
def State.reaches (s : State) (t dt : Nat) (d : Deadline) : Bool :=
  let a := s.aheadFine t dt d.l d.dir
  decide (a ≤ 0) && decide (-(2 ^ 38 * 16384000) < a) && s.movingDir t d.dir

/-- DEADLINE_MISS (R247). In HOLD monitors count nothing (Table 08.5). -/
def execDeadlineMiss (u : Fin 48) (k : Fin 16) (dt : Fin 4000) (s : State) : Out :=
  if s.halted then .next s
  else match markMissed (s.reaches (s.get (F.SPK_CTL_track u)) dt) (s.deadlinesOf u k) with
    | none => .next s
    | some ds =>
      let s := ((s.setDeadlines u k ds).sat (F.SPK_MON_CNT_miss u)).raiseLim 1000 0x0602 u (unitChan u k)
      let x := s.spkU u
      .next (if s.monSends u k then s.setSpk u { x with misses := x.misses + 1 } else s)

/-- A slack sample or a miss received by the Derailleur (R253). -/
def State.drlSample (s : State) (v : Int) : State :=
  let p := s.pwr
  { s with pwr := { p with
      samples := p.samples + 1
      smin := min v p.smin
      lowSample := p.lowSample || decide (v < s.getS F.PWR_DRL_TGT_target) } }

/-- What one cluster (region i of R233) passes on: the minimum of its samples, and each miss as -1.0 (R248). What a quiet unit has not sent
stays with it (DESIGN CHOICE, log 128). -/
def State.clusterSend (s : State) (i : Nat) : State :=
  let us := ((List.range 4).map (4 * i + ·)).filter (fun u => ! s.unitQuiet u)
  let samples := us.filterMap (fun u => (s.spkU u).sample)
  let misses := us.foldl (fun n u => n + (s.spkU u).misses) 0
  let s := us.foldl (fun s u => s.setSpk u { s.spkU u with sample := none, misses := 0 }) s
  let s := match samples with
    | [] => s
    | v :: vs => s.drlSample (vs.foldl min v)
  (List.range misses).foldl (fun s _ => s.drlSample (-4096)) s

/-- SLACK_TRANSFER (R248): once per microsecond each cluster passes its samples to the Derailleur. -/
def execSlackTransfer (s : State) : Out :=
  if s.halted then .next s
  else .next ((List.range 12).foldl (fun s i => s.clusterSend i) s)

/-- The capture record of R249. -/
def captureRecord (pos : BitVec 40) (pin : Nat) (level tracked : Bool) : BitVec 48 :=
  BitVec.ofNat 48 (pos.toNat + 2 ^ 40 * pin + (if level then 2 ^ 43 else 0) + (if tracked then 2 ^ 44 else 0))

/-- CAPTURE_EDGE (R249): a filtered transition of an input pin whose edge is enabled makes a record, or is discarded with cap_ovf. Without its
bank's supply the input buffer is off (R451); a pair of BANK_PINV takes its input inverted (R452). -/
def execCaptureEdge (u : Fin 48) (p : Fin 8) (level : Bool) (dt : Fin 4000) (s : State) : Out :=
  if ! s.on (F.BANK_CFG_vio_ok (u / 6)) then .next s
  else
  let s := s.putB (F.SPK_PINCFG_level u (p / 4) (p % 4)) level
  let level := level != (s.isDiff u (p / 2) && bitOf (s.get (F.BANK_PINV_inv (u / 6))) (4 * (u % 6) + p / 2))
  let want := if level then s.on (F.SPK_PINCFG_cap_rise u (p / 4) (p % 4)) else s.on (F.SPK_PINCFG_cap_fall u (p / 4) (p % 4))
  if ! want || s.pinOut u p || ! (s.spkU u).out || (s.isDiff u (p / 2) && p.val % 2 = 1) then .next s
  else
    let t := s.get (F.SPK_CTL_track u)
    let tracked := s.trkState t == 2 || s.trkState t == 3
    let pos := if tracked then s.estimate t ((dt + 62) / 125 * 125) else s.estimate t 0
    let k := s.spkU u
    if 16 ≤ k.captures.length then .next ((s.put (F.SPK_STS_cap_ovf u) 1).raiseLim 1000 0x0604 u (unitChan u p))
    else
      let r := captureRecord pos p level tracked
      let s := if k.captures.isEmpty then s.offerOut (chCap u) (digitsOf 24 r.toNat) else s
      .next (s.setSpk u { k with captures := k.captures ++ [r] })

/-- CAPTURE_RECORD_TAKEN (R249). -/
def execCaptureRecordTaken (u : Fin 48) (s : State) : Out :=
  if ! s.outTaken (chCap u) 24 then .next s
  else
    let k := s.spkU u
    let s := (s.clearOut (chCap u) 24).setSpk u { k with captures := k.captures.tail }
    .next (match k.captures.tail with
      | [] => s
      | r :: _ => s.offerOut (chCap u) (digitsOf 24 r.toNat))

/-- SPOKE_SNAP (R242); a retired unit's page discards it (R521). -/
def execSpokeSnap (u : Fin 48) (s : State) : Out :=
  .next (s.bar (R.SPK_CTL u) (some (s.rd (R.SPK_CTL u) ||| (F.SPK_CTL_snap u).mask)) (if s.spkRetired u then s else s.spkSnap u))

/-- SPOKE_FLUSH (R242): every entry removed and counted as dropped; the pins keep their levels. -/
def execSpokeFlush (u : Fin 48) (s : State) : Out :=
  .next (s.bar (R.SPK_CTL u) (some (s.rd (R.SPK_CTL u) ||| (F.SPK_CTL_flush u).mask)) (if s.spkRetired u then s else s.dropAll u))

/-- SPOKE_DISABLE (R245). -/
def execSpokeDisable (u : Fin 48) (s : State) : Out :=
  .next (s.bar (R.SPK_CTL u) (some (s.rd (R.SPK_CTL u) &&& 0xFFFFFFFE))
    (if s.spkRetired u then s else (s.put (F.SPK_CTL_enable u) 0).spkStop u))

/-- SOC_TRIGGER (R250, R252): a SOC token committed starts or holds a conversion with its value as mux input. -/
def execSocTrigger (c : Fin 8) (s : State) (dt : Fin 4000 := 0) : Out :=
  let u := s.get (F.ADC_CTL_unit c)
  let ch := chSoc u (s.get (F.ADC_CTL_slot c))
  if ! s.on (F.ADC_CTL_enable c) || ! s.on (F.ADC_CTL_soc_en c) || ! s.slotOwner c || ! s.spkTakes u then .next s
  else match s.inValue ch 1 with
    | none => .next s
    | some v => .next ((s.ackIn ch 1).adcTrigSoc c (BitVec.ofNat 2 v) (s.slotAt dt))

/-- A result delivered on the converter's slot (R250, R252): held while the fabric has not acknowledged 8, discarded beyond; toward
an isolated region it is discarded without counting (Table 10.4). -/
def State.deliverResult (s : State) (c : Nat) (r : BitVec 18) : State :=
  let u := s.get (F.ADC_CTL_unit c)
  let a := s.adcC c
  if ! s.slotOwner c || ! (s.spkU u).out then s
  else if 8 ≤ a.results.length then (s.sat (F.ADC_STS_res_ovf c)).raiseLim 1000 0x0608 c c
  else
    (s.setAdc c { a with results := a.results ++ [r] }).resOffer c

/-- CONVERSION_COMPLETE (R251, R252, R441): the result goes to ADC_LASTc and RESm, and a held trigger starts the next conversion. -/
def execConversionComplete (c : Fin 8) (code : BitVec 16) (s : State) : Out :=
  if ! s.on (F.ADC_STS_busy c) then .next s
  else
    let a := s.adcC c
    let code := s.convCode c a.mux.toNat code
    let s := (s.put (F.ADC_LAST_code c) code.toNat).put (F.ADC_LAST_mux c) a.mux.toNat
    let s := if s.on (F.ADC_STS_held c) then s else s.deliverResult c (a.mux ++ code)
    .next (match (s.adcC c).held with
      | none => s.put (F.ADC_STS_busy c) 0
      | some m => ((s.setAdc c { s.adcC c with held := none, heldSoc := none, mux := m }).put (F.ADC_STS_pend c) 0).put (F.ADC_STS_busy c) 1)

/-- RESULT_TAKEN (R252): the fabric has acknowledged the result that stands; the next one is offered. -/
def execResultTaken (c : Fin 8) (s : State) : Out :=
  let a := s.adcC c
  if ! a.offered then .next (s.resOffer c)
  else if ! s.outTaken (s.chAdc c) 9 then .next s
  else .next (((s.clearOut (s.chAdc c) 9).setAdc c { a with results := a.results.tail, offered := false }).resOffer c)

end Sys2Proof.Machine
end

