-- ==== Sys2Proof/Machine/Dispatch.lean ====
section
/-! DEFINITION. One arm per command. -/

namespace Sys2Proof.Machine

def exec (i : Instr) (s : State) : Host.Outcome State Fault Refusal :=
  match i with
  | .vinStart p => Sys2Proof.Machine.execVinStart p s
  | .vinStop vin => Sys2Proof.Machine.execVinStop s vin
  | .undervoltage vin => Sys2Proof.Machine.execUndervoltage vin s
  | .autoRestart vin => Sys2Proof.Machine.execAutoRestart s vin
  | .overvoltage vin => Sys2Proof.Machine.execOvervoltage vin s
  | .inputHardLimit ma => Sys2Proof.Machine.execInputHardLimit ma s
  | .railOutOfWindow rail mv => Sys2Proof.Machine.execRailOutOfWindow rail mv s
  | .vcorePhaseCheck phase => Sys2Proof.Machine.execVcorePhaseCheck phase s
  | .temperatureRead t => Sys2Proof.Machine.execTemperatureRead t s
  | .supervisorFailover => Sys2Proof.Machine.execSupervisorFailover s
  | .lastSupervisorFail => Sys2Proof.Machine.execLastSupervisorFail s
  | .holdStageTokenMove n c r x extra => Sys2Proof.Machine.execHoldStageTokenMove n c r x extra s
  | .mutexGrant n c r k pickB => Sys2Proof.Machine.execMutexGrant n c r k pickB s
  | .function n c r cell => Sys2Proof.Machine.execFunction n c r cell s
  | .function5 n c r cell => Sys2Proof.Machine.execFunction5 n c r cell s
  | .fork n c r cell => Sys2Proof.Machine.execFork n c r cell s
  | .join n c r cell => Sys2Proof.Machine.execJoin n c r cell s
  | .split n c r cell => Sys2Proof.Machine.execSplit n c r cell s
  | .selectMerge n c r cell => Sys2Proof.Machine.execSelectMerge n c r cell s
  | .arbMerge n c r cell => Sys2Proof.Machine.execArbMerge n c r cell s
  | .source n c r cell => Sys2Proof.Machine.execSource n c r cell s
  | .sink n c r cell p => Sys2Proof.Machine.execSink n c r cell p s
  | .const n c r cell => Sys2Proof.Machine.execConst n c r cell s
  | .mux n c r cell => Sys2Proof.Machine.execMux n c r cell s
  | .isoAbsorb n e index => Sys2Proof.Machine.execIsoAbsorb n e index s
  | .isoDefaultSupply n e index => Sys2Proof.Machine.execIsoDefaultSupply n e index s
  | .ltContention n vert line track seg => Sys2Proof.Machine.execLtContention n vert line track seg s
  | .regionFreezeSet n => Sys2Proof.Machine.execRegionFreezeSet n s
  | .regionFreezeSettled n => Sys2Proof.Machine.execRegionFreezeSettled n s
  | .regionFreezeClear n => Sys2Proof.Machine.execRegionFreezeClear n s
  | .watchdogEnable n k v => Sys2Proof.Machine.execWatchdogEnable n k v s
  | .watchdogStall n k => Sys2Proof.Machine.execWatchdogStall n k s
  | .sprocketMac n c sl => Sys2Proof.Machine.execSprocketMac n c sl s
  | .sprocketCalibrate n c sl holds => Sys2Proof.Machine.execSprocketCalibrate n c sl holds s
  | .firnRead n f b p flips => Sys2Proof.Machine.execFirnRead n f b p flips s
  | .firnWrite n f b p flips => Sys2Proof.Machine.execFirnWrite n f b p flips s
  | .firnScrubRow n f b row flips => Sys2Proof.Machine.execFirnScrubRow n f b row flips s
  | .xqPushClocked q d sb => Sys2Proof.Machine.execXqPushClocked q d sb s
  | .xqPushFabric q => Sys2Proof.Machine.execXqPushFabric q s
  | .xqWordOffer q flips => Sys2Proof.Machine.execXqWordOffer q flips s
  | .xqPopFabric q => Sys2Proof.Machine.execXqPopFabric q s
  | .xqPopClocked q flips => Sys2Proof.Machine.execXqPopClocked q flips s
  | .xqFlush q => Sys2Proof.Machine.execXqFlush q s
  | .xqFlushDone q => Sys2Proof.Machine.execXqFlushDone q s
  | .xqPause q => Sys2Proof.Machine.execXqPause q s
  | .xqPauseSettled q => Sys2Proof.Machine.execXqPauseSettled q s
  | .xqUnpause q => Sys2Proof.Machine.execXqUnpause q s
  | .xqClrCnt q => Sys2Proof.Machine.execXqClrCnt q s
  | .xqSideReset q writer => Sys2Proof.Machine.execXqSideReset q writer s
  | .xqSideResetEnd x => Sys2Proof.Machine.execXqSideResetEnd x s
  | .regionEvxFire n mask => Sys2Proof.Machine.execRegionEvxFire n mask s
  | .eventInRoundTrip n k => Sys2Proof.Machine.execEventInRoundTrip n k s
  | .eventInAck n k => Sys2Proof.Machine.execEventInAck n k s
  | .eventOutToken g k => Sys2Proof.Machine.execEventOutToken g k s
  | .eventOutRoundTrip g k => Sys2Proof.Machine.execEventOutRoundTrip g k s
  | .valueCrossingTransfer x v => Sys2Proof.Machine.execValueCrossingTransfer x v s
  | .clockStopped d => Sys2Proof.Machine.execClockStopped d s
  | .clockReturned d => Sys2Proof.Machine.execClockReturned d s
  | .accessHang d => Sys2Proof.Machine.execAccessHang d s
  | .trackUpdate => Sys2Proof.Machine.execTrackUpdate s
  | .coastLimit t => Sys2Proof.Machine.execCoastLimit t s
  | .acquireComplete t => Sys2Proof.Machine.execAcquireComplete t s
  | .pllLockLost => Sys2Proof.Machine.execPllLockLost s
  | .pllLocked => Sys2Proof.Machine.execPllLocked s
  | .quadEdge n a b stamp => Sys2Proof.Machine.execQuadEdge n a b stamp s
  | .pulseEdge n stamp => Sys2Proof.Machine.execPulseEdge n stamp s
  | .indexEdge n => Sys2Proof.Machine.execIndexEdge n s
  | .analogMeasurement n a b neg stamp => Sys2Proof.Machine.execAnalogMeasurement n a b neg stamp s
  | .mainsSingleSample n code stamp => Sys2Proof.Machine.execMainsSingleSample n code stamp s
  | .analogSourceTrigger n => Sys2Proof.Machine.execAnalogSourceTrigger n s
  | .sourceLost n => Sys2Proof.Machine.execSourceLost n s
  | .sourceReturn n => Sys2Proof.Machine.execSourceReturn n s
  | .sourceEnable n v => Sys2Proof.Machine.execSourceEnable n v s
  | .sourceDisable n => Sys2Proof.Machine.execSourceDisable n s
  | .trackEnable t v => Sys2Proof.Machine.execTrackEnable t v s
  | .trackDisable t => Sys2Proof.Machine.execTrackDisable t s
  | .trackHalt t => Sys2Proof.Machine.execTrackHalt t s
  | .haltAll => Sys2Proof.Machine.execHaltAll s
  | .trackRearm t => Sys2Proof.Machine.execTrackRearm t s
  | .trackAdjust t a => Sys2Proof.Machine.execTrackAdjust t a s
  | .trackSwitchGo t v => Sys2Proof.Machine.execTrackSwitchGo t v s
  | .switchAcquired t => Sys2Proof.Machine.execSwitchAcquired t s
  | .switchAbort t => Sys2Proof.Machine.execSwitchAbort t s
  | .slewComplete t => Sys2Proof.Machine.execSlewComplete t s
  | .spokeEreq u dt => Sys2Proof.Machine.execSpokeEreq u dt s
  | .spkPushHi u dt v => Sys2Proof.Machine.execSpkPushHi u dt v s
  | .edge u dt => Sys2Proof.Machine.execEdge u dt s
  | .tick u dt => Sys2Proof.Machine.execTick u dt s
  | .trig u dt => Sys2Proof.Machine.execTrig u dt s
  | .nop u dt => Sys2Proof.Machine.execNop u dt s
  | .tickDeliver u k => Sys2Proof.Machine.execTickDeliver u k s
  | .doneCompletion u k dt => Sys2Proof.Machine.execDoneCompletion u k dt s
  | .deadlineMiss u k dt => Sys2Proof.Machine.execDeadlineMiss u k dt s
  | .slackTransfer => Sys2Proof.Machine.execSlackTransfer s
  | .captureEdge u p level dt => Sys2Proof.Machine.execCaptureEdge u p level dt s
  | .captureRecordTaken u => Sys2Proof.Machine.execCaptureRecordTaken u s
  | .spokeSnap u => Sys2Proof.Machine.execSpokeSnap u s
  | .spokeFlush u => Sys2Proof.Machine.execSpokeFlush u s
  | .spokeDisable u => Sys2Proof.Machine.execSpokeDisable u s
  | .socTrigger c dt => Sys2Proof.Machine.execSocTrigger c s dt
  | .conversionComplete c code => Sys2Proof.Machine.execConversionComplete c code s
  | .resultTaken c => Sys2Proof.Machine.execResultTaken c s
  | .derailleurEvaluate => Sys2Proof.Machine.execDerailleurEvaluate s
  | .derailleurWindowEnd => Sys2Proof.Machine.execDerailleurWindowEnd s
  | .vcoreSlewStep => Sys2Proof.Machine.execVcoreSlewStep s
  | .capCeilingStep pin pcore => Sys2Proof.Machine.execCapCeilingStep pin pcore s
  | .thermalCeilingStep => Sys2Proof.Machine.execThermalCeilingStep s
  | .capUnmet => Sys2Proof.Machine.execCapUnmet s
  | .fullLoadStart => Sys2Proof.Machine.execFullLoadStart s
  | .startupSelftestDone found wrOk => Sys2Proof.Machine.execStartupSelftestDone found wrOk s
  | .manifestVerified host => Sys2Proof.Machine.execManifestVerified host s
  | .chunkReceived read => Sys2Proof.Machine.execChunkReceived read s
  | .lockPhaseComplete => Sys2Proof.Machine.execLockPhaseComplete s
  | .lockTimeout => Sys2Proof.Machine.execLockTimeout s
  | .phaseWaitExpiry => Sys2Proof.Machine.execPhaseWaitExpiry s
  | .regionIsolateStep n => Sys2Proof.Machine.execRegionIsolateStep n s
  | .regionPhaseAdvance set late => Sys2Proof.Machine.execRegionPhaseAdvance set late s
  | .secRevokeFirst => Sys2Proof.Machine.execSecRevokeFirst s
  | .secRevokeSecond mask => Sys2Proof.Machine.execSecRevokeSecond mask s
  | .revokePairTimeout => Sys2Proof.Machine.execRevokePairTimeout s
  | .laneSignalDetect n => Sys2Proof.Machine.execLaneSignalDetect n s
  | .laneCdrLock n => Sys2Proof.Machine.execLaneCdrLock n s
  | .trainingFrameReceived n w ctl eyeDone => Sys2Proof.Machine.execTrainingFrameReceived n w ctl eyeDone s
  | .trainRequestTimeout n => Sys2Proof.Machine.execTrainRequestTimeout n s
  | .laneTrainComplete n => Sys2Proof.Machine.execLaneTrainComplete n s
  | .laneAlignLock n => Sys2Proof.Machine.execLaneAlignLock n s
  | .laneDeskewDone g skew => Sys2Proof.Machine.execLaneDeskewDone g skew s
  | .laneStateTimeout n => Sys2Proof.Machine.execLaneStateTimeout n s
  | .laneRetry n => Sys2Proof.Machine.execLaneRetry n s
  | .groupPllLock g => Sys2Proof.Machine.execGroupPllLock g s
  | .groupPllLost g => Sys2Proof.Machine.execGroupPllLost g s
  | .fillerReceived n fill => Sys2Proof.Machine.execFillerReceived n fill s
  | .laneRxWord n d sb => Sys2Proof.Machine.execLaneRxWord n d sb s
  | .laneFailure n cause => Sys2Proof.Machine.execLaneFailure n cause s
  | .substitutionSwitch g => Sys2Proof.Machine.execSubstitutionSwitch g s
  | .substitutionTimeout g => Sys2Proof.Machine.execSubstitutionTimeout g s
  | .pcieLaneFailover n => Sys2Proof.Machine.execPcieLaneFailover n s
  | .laneRestart n => Sys2Proof.Machine.execLaneRestart n s
  | .groupRestart g => Sys2Proof.Machine.execGroupRestart g s
  | .laneSlip n => Sys2Proof.Machine.execLaneSlip n s
  | .laneAligned n => Sys2Proof.Machine.execLaneAligned n s
  | .laneSubstitute n => Sys2Proof.Machine.execLaneSubstitute n s
  | .lanePowerRequest n v => Sys2Proof.Machine.execLanePowerRequest n v s
  | .powerNoticeReceived n deep => Sys2Proof.Machine.execPowerNoticeReceived n deep s
  | .adaptWindow n transitions fillers => Sys2Proof.Machine.execAdaptWindow n transitions fillers s
  | .eyeScanStart n margin => Sys2Proof.Machine.execEyeScanStart n s margin
  | .eyeScanDone n errors => Sys2Proof.Machine.execEyeScanDone n errors s
  | .eyeMonitor n height width => Sys2Proof.Machine.execEyeMonitor n height width s
  | .portEnable p => Sys2Proof.Machine.execPortEnable p s
  | .initReceived p allot => Sys2Proof.Machine.execInitReceived p allot s
  | .heartbeatSend p => Sys2Proof.Machine.execHeartbeatSend p s
  | .heartbeatReceived p addr => Sys2Proof.Machine.execHeartbeatReceived p addr s
  | .hopFault p => Sys2Proof.Machine.execHopFault p s
  | .stripe p mask => Sys2Proof.Machine.execStripe p mask s
  | .frameHdr p hdr => Sys2Proof.Machine.execFrameHdr p hdr s
  | .frameTrailer p payload e2e hop short => Sys2Proof.Machine.execFrameTrailer p payload e2e hop short s
  | .pelotonItemSend q => Sys2Proof.Machine.execPelotonItemSend q s
  | .credit p totals => Sys2Proof.Machine.execCredit p totals s
  | .creditReturn p => Sys2Proof.Machine.execCreditReturn p s
  | .delayMeasure p => Sys2Proof.Machine.execDelayMeasure p s
  | .delayReq p id turnaround => Sys2Proof.Machine.execDelayReq p id turnaround s
  | .delayResp p id turnaround roundTrip => Sys2Proof.Machine.execDelayResp p id turnaround roundTrip s
  | .pelLedger p => Sys2Proof.Machine.execPelLedger p s
  | .ledgerMark p => Sys2Proof.Machine.execLedgerMark p s
  | .ledgerAns p held => Sys2Proof.Machine.execLedgerAns p held s
  | .ledgerTimeout p => Sys2Proof.Machine.execLedgerTimeout p s
  | .pelFlush p => Sys2Proof.Machine.execPelFlush p s
  | .phaseSend => Sys2Proof.Machine.execPhaseSend s
  | .phaseReceived p hdr payload e2e hop stamp t => Sys2Proof.Machine.execPhaseReceived p hdr payload e2e hop stamp t s
  | .pelEnum => Sys2Proof.Machine.execPelEnum s
  | .enumTriggerDelay => Sys2Proof.Machine.execEnumTriggerDelay s
  | .enum second => Sys2Proof.Machine.execEnum s second
  | .enumReply => Sys2Proof.Machine.execEnumReply s
  | .enumDone => Sys2Proof.Machine.execEnumDone s
  | .mgmtRead => Sys2Proof.Machine.execMgmtRead s
  | .mgmtWrite => Sys2Proof.Machine.execMgmtWrite s
  | .completion => Sys2Proof.Machine.execCompletion s
  | .mgmtEvent => Sys2Proof.Machine.execMgmtEvent s
  | .handback => Sys2Proof.Machine.execHandback s
  | .pelHandbackWrite => Sys2Proof.Machine.execPelHandbackWrite s
  | .leadListenEnd => Sys2Proof.Machine.execLeadListenEnd s
  | .leadLost => Sys2Proof.Machine.execLeadLost s
  | .doorbell off v read => Sys2Proof.Machine.execDoorbell off v s read
  | .descriptorFetched n raw => Sys2Proof.Machine.execDescriptorFetched n raw s
  | .staleRecheck n raw => Sys2Proof.Machine.execStaleRecheck n raw s
  | .h2fDataRead r data => Sys2Proof.Machine.execH2fDataRead r data s
  | .f2hWordPop r => Sys2Proof.Machine.execF2hWordPop r s
  | .dmaError n what => Sys2Proof.Machine.execDmaError n what s
  | .irqCoalesceTimeout n => Sys2Proof.Machine.execIrqCoalesceTimeout n s
  | .ringEnable n v => Sys2Proof.Machine.execRingEnable n v s
  | .ringDisable n => Sys2Proof.Machine.execRingDisable n s
  | .adminFetch raw => Sys2Proof.Machine.execAdminFetch raw s
  | .query => Sys2Proof.Machine.execQuery s
  | .loadFull list => Sys2Proof.Machine.execLoadFull list s
  | .loadPartial list => Sys2Proof.Machine.execLoadPartial list s
  | .activateRegion => Sys2Proof.Machine.execActivateRegion s
  | .isolateRegion => Sys2Proof.Machine.execIsolateRegion s
  | .cadTableWrite data => Sys2Proof.Machine.execCadTableWrite data s
  | .cadSourceSwitch => Sys2Proof.Machine.execCadSourceSwitch s
  | .bistRun found => Sys2Proof.Machine.execBistRun found s
  | .bistReport => Sys2Proof.Machine.execBistReport s
  | .scrubReport => Sys2Proof.Machine.execScrubReport s
  | .spareMap => Sys2Proof.Machine.execSpareMap s
  | .spareMapReset ok => Sys2Proof.Machine.execSpareMapReset ok s
  | .settingsWrite data ok => Sys2Proof.Machine.execSettingsWrite data ok s
  | .modeRequestHold => Sys2Proof.Machine.execModeRequestHold s
  | .modeRequestRestart => Sys2Proof.Machine.execModeRequestRestart s
  | .attest nonce => Sys2Proof.Machine.execAttest nonce s
  | .nopCommand => Sys2Proof.Machine.execNopCommand s
  | .adminCommandDone => Sys2Proof.Machine.execAdminCommandDone s
  | .mailboxGo op => Sys2Proof.Machine.execMailboxGo op s
  | .functionLevelReset => Sys2Proof.Machine.execFunctionLevelReset s
  | .linkDown => Sys2Proof.Machine.execLinkDown s
  | .groomerFrameCheck n col minor flips out latch last held => Sys2Proof.Machine.execGroomerFrameCheck n col minor flips out latch last s held
  | .mbuRepairDone addr => Sys2Proof.Machine.execMbuRepairDone addr s
  | .scrubOverrun n => Sys2Proof.Machine.execScrubOverrun n s
  | .columnTestStart => Sys2Proof.Machine.execColumnTestStart s
  | .columnTestDone ok => Sys2Proof.Machine.execColumnTestDone ok s
  | .columnDiagnosisDone row cell bit => Sys2Proof.Machine.execColumnDiagnosisDone row cell bit s
  | .migrationCopyDone => Sys2Proof.Machine.execMigrationCopyDone s
  | .migration => Sys2Proof.Machine.execMigration s
  | .windowWaitExpiry n => Sys2Proof.Machine.execWindowWaitExpiry n s
  | .moraineSubstitution => Sys2Proof.Machine.execMoraineSubstitution s
  | .unitRetire u => Sys2Proof.Machine.execUnitRetire u s
  | .repairMapWrite ok => Sys2Proof.Machine.execRepairMapWrite ok s
  | .lockstepArm k v => Sys2Proof.Machine.execLockstepArm k v s
  | .lockstepCompare k tap => Sys2Proof.Machine.execLockstepCompare k tap s
  | .lockstepShortGroup k tap => Sys2Proof.Machine.execLockstepShortGroup k tap s
  | .lockstepLag k tap byTime => Sys2Proof.Machine.execLockstepLag k tap byTime s
  | .pinClaimEvaluate => Sys2Proof.Machine.execPinClaimEvaluate s
  | .pinFunctionSwitch p => Sys2Proof.Machine.execPinFunctionSwitch p s
  | .pinSet port mask => Sys2Proof.Machine.execPinSet port mask s
  | .pinClr port mask => Sys2Proof.Machine.execPinClr port mask s
  | .pinLockFirst port => Sys2Proof.Machine.execPinLockFirst port s
  | .pinLockSecond port mask => Sys2Proof.Machine.execPinLockSecond port mask s
  | .pinLockTimeout => Sys2Proof.Machine.execPinLockTimeout s
  | .pinIrqEdge n rising => Sys2Proof.Machine.execPinIrqEdge n rising s
  | .shortDetect fabric pin sensed => Sys2Proof.Machine.execShortDetect fabric pin sensed s
  | .openWireTest found => Sys2Proof.Machine.execOpenWireTest found s
  | .bankSupplyChange b mv => Sys2Proof.Machine.execBankSupplyChange b mv s
  | .uartTx k b => Sys2Proof.Machine.execUartTx k b s
  | .uartByteReceived k b ferr perr brk => Sys2Proof.Machine.execUartByteReceived k b ferr perr brk s
  | .uartRx k => Sys2Proof.Machine.execUartRx k s
  | .spiTx k w => Sys2Proof.Machine.execSpiTx k w s
  | .spiWordDone k w => Sys2Proof.Machine.execSpiWordDone k w s
  | .spiRx k => Sys2Proof.Machine.execSpiRx k s
  | .i2cCmd k v low => Sys2Proof.Machine.execI2cCmd k v s low
  | .i2cTransactionEnd k nack arb timeout data => Sys2Proof.Machine.execI2cTransactionEnd k nack arb timeout data s
  | .i2cRx k => Sys2Proof.Machine.execI2cRx k s
  | .ssiTrig k => Sys2Proof.Machine.execSsiTrig k s
  | .ssiPeriod k => Sys2Proof.Machine.execSsiPeriod k s
  | .ssiReadDone k raw startHigh endLow => Sys2Proof.Machine.execSsiReadDone k raw startHigh endLow s
  | .ssiPosRead p k => Sys2Proof.Machine.execSsiPosRead p k s
  | .trackAngleRead p t => Sys2Proof.Machine.execTrackAngleRead p t s
  | .loReadCapture p index => Sys2Proof.Machine.execLoReadCapture p index s
  | .counterClear p off => Sys2Proof.Machine.execCounterClear p off s
  | .registerWrite p off v => Sys2Proof.Machine.execRegisterWrite p off v s
  | .barBadAccess b off => Sys2Proof.Machine.execBarBadAccess b off s
  | .frameReadback p n col minor => Sys2Proof.Machine.execFrameReadback p n col minor s
  | .tapInternalTest => Sys2Proof.Machine.execTapInternalTest s
  | .consoleLine line env => Sys2Proof.Machine.execConsoleLine line env s
  | .consolePinDetect onTx => Sys2Proof.Machine.execConsolePinDetect onTx s
  | .consoleBreak => Sys2Proof.Machine.execConsoleBreak s
  | .baudRevert => Sys2Proof.Machine.execBaudRevert s
  | .consoleStopOutput => Sys2Proof.Machine.execConsoleStopOutput s
  | .help w => Sys2Proof.Machine.execHelp w s
  | .status w => Sys2Proof.Machine.execStatus w s
  | .log n w => Sys2Proof.Machine.execLog n w s
  | .spare w => Sys2Proof.Machine.execSpare w s
  | .report kind w => Sys2Proof.Machine.execReport kind w s
  | .lane n restart w => Sys2Proof.Machine.execLane n restart w s
  | .pin p w => Sys2Proof.Machine.execPin p w s
  | .meter src index w => Sys2Proof.Machine.execMeter src index w s
  | .rd off w => Sys2Proof.Machine.execRd off w s
  | .wr off v w => Sys2Proof.Machine.execWr off v w s
  | .admin op a0 a1 a2 a3 w => Sys2Proof.Machine.execAdmin op a0 a1 a2 a3 w s
  | .consoleLoad golden w => Sys2Proof.Machine.execConsoleLoad golden w s
  | .consoleLoadPartial set entry act w => Sys2Proof.Machine.execConsoleLoadPartial set entry act w s
  | .consoleIsolateRegion set w => Sys2Proof.Machine.execConsoleIsolateRegion set w s
  | .consoleActivateRegion set w => Sys2Proof.Machine.execConsoleActivateRegion set w s
  | .hold w => Sys2Proof.Machine.execHold w s
  | .restart w => Sys2Proof.Machine.execRestart w s
  | .consoleAttest nonce w => Sys2Proof.Machine.execConsoleAttest nonce w s
  | .fuseHash line w => Sys2Proof.Machine.execFuseHash line w s
  | .fuseKey line w => Sys2Proof.Machine.execFuseKey line w s
  | .fuseEnc line w => Sys2Proof.Machine.execFuseEnc line w s
  | .fuseRevoke line w => Sys2Proof.Machine.execFuseRevoke line w s
  | .fuseClose line w => Sys2Proof.Machine.execFuseClose line w s
  | .confirm v blown w => Sys2Proof.Machine.execConfirm v blown w s
  | .confirmTimeout => Sys2Proof.Machine.execConfirmTimeout s
  | .baud rate w => Sys2Proof.Machine.execBaud rate w s
  | .echo on w => Sys2Proof.Machine.execEcho on w s
  | .evt on w => Sys2Proof.Machine.execEvt on w s
  | .testSup w => Sys2Proof.Machine.execTestSup w s
  | .testFuse w => Sys2Proof.Machine.execTestFuse w s
  | .testSm w => Sys2Proof.Machine.execTestSm w s
  | .testImage golden w => Sys2Proof.Machine.execTestImage golden w s
  | .testPll w => Sys2Proof.Machine.execTestPll w s
  | .testScrub w => Sys2Proof.Machine.execTestScrub w s
  | .testBist w => Sys2Proof.Machine.execTestBist w s
  | .testHard set found w => Sys2Proof.Machine.execTestHard set found w s
  | .testLs k w => Sys2Proof.Machine.execTestLs k w s
  | .testSrc n w => Sys2Proof.Machine.execTestSrc n w s
  | .testOwt p isOpen w => Sys2Proof.Machine.execTestOwt p isOpen w s
  | .testPad u w => Sys2Proof.Machine.execTestPad u w s
  | .testLane n w => Sys2Proof.Machine.execTestLane n w s
  | .testPcie w => Sys2Proof.Machine.execTestPcie w s
  | .testPel p w => Sys2Proof.Machine.execTestPel p w s
  | .testSpare w => Sys2Proof.Machine.execTestSpare w s
  | .meterUpdate rail => Sys2Proof.Machine.execMeterUpdate rail s
  | .inputLimit vin => Sys2Proof.Machine.execInputLimit vin s
  | .initBlockSend p => Sys2Proof.Machine.execInitBlockSend p s
  | .pcieLinkUp speed width reversed inv => Sys2Proof.Machine.execPcieLinkUp speed width s reversed inv
  | .busMasterEnable on cfg => Sys2Proof.Machine.execBusMasterEnable on s cfg
  | .uartByteSent k => Sys2Proof.Machine.execUartByteSent k s
  | .fieldTestEnd => Sys2Proof.Machine.execFieldTestEnd s

end Sys2Proof.Machine
end

