-- ==== Sys2Proof/Safety.lean ====
section
/-! DEFINITION. The terms in which claims are stated: a command that completes, an event in the fault log, and what is kept. -/

namespace Sys2Proof.Machine

/-- The command completes: it takes a next state, and of that state P holds. -/
def Completes (i : Instr) (s : State) (P : State → Prop) : Prop := ∃ t, exec i s = .next t ∧ P t

/-- An event stands in the fault log ring with its parameter. -/
def State.logged (s : State) (id param : Nat) : Prop := ∃ e ∈ s.log, e.kind = .event id param

/-- An event stands in the fault log ring with some parameter. -/
def State.loggedSome (s : State) (id : Nat) : Prop := ∃ p, s.logged id p

/-- Every register outside a set of offsets reads as before. -/
def State.regsKeptBut (s t : State) (p : Nat → Prop) : Prop := ∀ off, ¬ p off → t.rd off = s.rd off

/-! ## What lasts -/

/-- Some programmed key-hash slot is not revoked, or none is programmed and none revoked (R269). -/
def Fuses.usable (f : Fuses) : Prop := (f.hashProg = 0 ∧ f.revoked = 0) ∨ f.hashProg &&& ~~~ f.revoked ≠ 0

/-- Fuses as they may become: a blown one stays blown, the identity of the device stays. -/
def Fuses.grows (f g : Fuses) : Prop :=
  g.duk = f.duk ∧ g.serial = f.serial ∧ f.hashProg &&& ~~~ g.hashProg = 0 ∧ f.revoked &&& ~~~ g.revoked = 0 ∧ f.custProg &&& ~~~ g.custProg = 0 ∧
    (f.encRequired = true → g.encRequired = true) ∧ (f.testClose = true → g.testClose = true)

/-- The settings memory is in its canonical form: addresses rising, and no byte listed that reads as an erased one. -/
def State.norWf (s : State) : Prop := SMap.wf (fun _ => (0xFF : Byte)) s.nor = true

/-- The commands whose effect may reach a fuse or the settings memory: register accesses, console lines, loads, admin commands that write
settings or maps, phase ends and restarts (the settings record that they apply may write SEC_REVOKE). Every other command leaves both alone. -/
def mayStore : Instr → Bool
  | .vinStart _ | .autoRestart _ | .clockReturned _ | .startupSelftestDone _ _ | .manifestVerified _ | .chunkReceived _
  | .lockPhaseComplete | .lockTimeout | .phaseWaitExpiry | .regionPhaseAdvance _ _ | .secRevokeSecond _ | .mgmtRead | .mgmtWrite
  | .spareMapReset _ | .settingsWrite _ _ | .modeRequestRestart | .repairMapWrite _ | .ssiPosRead _ _ | .trackAngleRead _ _
  | .loReadCapture _ _ | .counterClear _ _ | .registerWrite _ _ _ | .consoleLine _ _ | .help _ | .status _ | .log _ _ | .spare _
  | .report _ _ | .lane _ _ _ | .pin _ _ | .meter _ _ _ | .rd _ _ | .wr _ _ _ | .admin _ _ _ _ _ _ | .consoleLoad _ _
  | .consoleLoadPartial _ _ _ _ | .consoleIsolateRegion _ _ | .consoleActivateRegion _ _ | .hold _ | .restart _ | .consoleAttest _ _
  | .fuseHash _ _ | .fuseKey _ _ | .fuseEnc _ _ | .fuseRevoke _ _ | .fuseClose _ _ | .confirm _ _ _ | .baud _ _ | .echo _ _ | .evt _ _
  | .testSup _ | .testFuse _ | .testSm _ | .testImage _ _ | .testPll _ | .testScrub _ | .testBist _ | .testHard _ _ _ | .testLs _ _
  | .testSrc _ _ | .testOwt _ _ _ | .testPad _ _ | .testLane _ _ | .testPcie _ | .testPel _ _ | .testSpare _ => true
  | _ => false

/-! ## Admin commands -/

/-- One admin command waits and nothing stands in its way: a supervisor half works, its mode allows it, and where it came through the command
ring its completion can be written. -/
def State.waitsFor (s : State) (src : CmdSrc) (d : AdminDesc) : Prop :=
  s.latched = false ∧ s.hif.accepted = [⟨src, d⟩] ∧ s.modeStatus d = 0 ∧ s.hif.finished = [] ∧
    ∀ cid slot, src = .ring cid slot → s.ringFree 1 = true

/-- What the sender of an admin command reads after its completion: from the ring, the entry of Table 13.4 that was written last into host
memory; in the mailbox, its registers. Nothing is said of a command of the console, whose lines have statements of their own, or of one whose
ring is gone. -/
def State.says (t : State) (src : CmdSrc) (status detail res0 res1 : Nat) : Prop :=
  match src with
  | .ring cid _ => ∃ w, t.hif.writes.getLast? = some w ∧ w.data.getD 0 0 = BitVec.ofNat 8 status ∧ (w.data.drop 2).take 2 = le 2 cid ∧
      (w.data.drop 6).take 2 = le 2 detail ∧ (w.data.drop 8).take 8 = le 4 res0 ++ le 4 res1
  | .mailbox => t.get F.HIF_MBOX_CMD_busy = 0 ∧ t.get F.HIF_MBOX_CMD_status = status % 2 ^ 8 ∧ t.get F.HIF_MBOX_DET_detail = detail % 2 ^ 16 ∧
      t.get (F.HIF_MBOX_RES_res 0) = res0 % 2 ^ 32 ∧ t.get (F.HIF_MBOX_RES_res 1) = res1 % 2 ^ 32
  | _ => True

/-! ## The console -/

/-- The console runs and no fuse command awaits its confirmation. -/
def State.atPrompt (s : State) : Prop := s.conLive = true ∧ s.con.fuse = none

/-- The commands marked W in Table 17.1, with SVC_WR_N low or not; ADMIN is not marked for NOP. -/
def ConsoleMarkedW (w : Bool) (i : Instr) : Prop :=
  (∃ off v, i = .wr off v w) ∨ (∃ op a b c d, i = .admin op a b c d w ∧ op ≠ 1) ∨ (∃ g, i = .consoleLoad g w) ∨
    (∃ set e act, i = .consoleLoadPartial set e act w) ∨ (∃ set, i = .consoleIsolateRegion set w) ∨ (∃ set, i = .consoleActivateRegion set w) ∨
    i = .restart w ∨ (∃ n, i = .lane n true w)

/-- The console has printed these lines since a state. -/
def State.printed (s t : State) (ls : List ConOut) : Prop := t.con.out = s.con.out ++ ls

/-- It has printed these lines, and then what events printed. -/
def State.printedFirst (s t : State) (ls : List ConOut) : Prop := ∃ more, t.con.out = s.con.out ++ ls ++ more

/-- A field test that is over at once: it takes the meter, and prints the registers behind a FAIL. -/
def State.testedNow (s t : State) (good : Bool) (vs : List Nat) : Prop :=
  t.get F.SUP_MTR_CTL_src = 0xB ∧ t.con.result = (if good then 23 else 24) ∧ t.fab = s.fab ∧
    s.printed t (if good then [.ok] else [.values vs, .ok])

/-- A field test that observes over an interval has begun. -/
def State.testBegan (s t : State) (x : FieldTest) : Prop :=
  t.get F.SUP_MTR_CTL_src = 0xB ∧ t.con.result = 25 ∧ s.printedFirst t [.accepted] ∧ t.con.tests = s.con.tests ++ [x]

/-- The answer to the line of a fuse command (R484): its confirmation value in SUPERVISE and HOLD, ERR 2 for an argument that names nothing,
ERR 3 in another mode, and ERR 7 where one was pending, which is cancelled. -/
def State.fuseAnswered (s t : State) (line : List (BitVec 8)) (r : FuseReq) : Prop :=
  let v := (crc32c line).toNat % 65536
  let answer : ConOut :=
    if s.con.fuse.isSome then .err 7
    else if s.mode ≠ .supervise ∧ s.mode ≠ .hold then .err 3
    else if fuseArg r then .confirm v else .err 2
  s.printed t ((if s.on F.SUP_SVC_CFG_echo && ! isFuseKey line then [.echo line] else []) ++ [answer]) ∧
    t.con.fuse = (if answer = .confirm v then some (r, v, s.time) else none) ∧ t.fuses = s.fuses ∧ t.mode = s.mode

/-! ## Tokens -/

/-- The value that port p of a cell offers it now: A 0, B 1, chain input 2, MSEL 3. -/
def State.port (s : State) (t : Tile) (i p : Nat) : Option Nat := s.portVal (s.offer fabricFuel) t i p

/-- A cell in a mode that may take a token: its region runs, its hold stage is enabled and holds a bubble (R40, R69). -/
def State.cellReady (s : State) (t : Tile) (i : Nat) (m : CellMode) : Prop :=
  s.cellMode t i = m ∧ s.fabOn t.n = true ∧ s.holdEn t i = true ∧ (s.node (.cell t i)).tok = none

/-- The state after a cell has captured a value with its chain output and branch and acknowledged some of its ports (R40, R70). -/
def State.cellGives (s : State) (t : Tile) (i v chain : Nat) (branch : Option Nat) (ports : List Nat) : State :=
  ports.foldl (fun s p => s.ackDst (.port t i p)) (s.capture (.cell t i) v chain branch)

end Sys2Proof.Machine
end

