-- ==== Sys2Proof/Certificates/Slice0/Obligations.lean ====
section
/-! DEFINITION. The statements for the provers. A clause of the form Completes i s P says that command i completes in state s, and P of the
state it leads to. -/

open Sys2Proof Sys2Proof.Machine

/-! ## Supply, rails, supervisor (chapters 01 and 16) -/

/-- R18, R19, R23, R25, R29, R30, R260, Table 16.3: VIN_START at a VIN of the start threshold leaves COLD with the units that work, a 3.3 V settings
memory only with its rail, no lane without both lane rails, and SUP_TIME at 0; VIN_STOP enters COLD, where no register holds anything but
the supply of each bank, which comes on its own, and fuses, settings memory and fault
log stay, the loads asked for recorded in it; an auto-restart is a warm reset with its cause; a VIN on the other side of a threshold does none of these. The other supervisor half takes
over with event 0x0101 naming the failed one; the loss of the last half sets the hold latch and holds the meter at 0 V. -/
def Obligations.TheModuleStartsStopsRestartsAndFailsOver : Prop :=
  (∀ (p : PowerUp) (s : State), s.mode = .cold →
    (5600 ≤ p.vin → Completes (.vinStart p) s (fun t => t.mode ≠ .cold ∧ t.time = 0 ∧ t.nor = s.nor ∧
      ∀ u : Fin 11, t.units.getLsbD u = (p.units.getLsbD u && (u.val != 1 || p.rail33) &&
        (! [2, 3, 10].contains u.val || (p.rail09 && p.rail12)) && (u.val != 0 || ! p.vsel || (p.units.getLsbD 1 && p.rail33))))) ∧
    (p.vin < 5600 → Completes (.vinStart p) s (fun t => t = s))) ∧
  (∀ (vin : BitVec 16) (s : State),
    (vin.toNat ≤ 4900 → Completes (.vinStop vin) s (fun t => t.mode = .cold ∧ t.fuses = s.fuses ∧ t.nor = s.nor ∧
      (∀ off, (∀ b : Fin 8, off ≠ R.BANK_CFG b) → t.rd off = regReset off) ∧
      (∀ b : Fin 8, t.get (F.BANK_CFG_vio b) = s.get (F.BANK_CFG_vio b)) ∧
      t.log = s.log ++ (s.hif.accepted.filter (fun c => c.d.opcode == 0x10)).map (fun _ => ⟨.outranked 2, s.time⟩))) ∧
    (4900 < vin.toNat → Completes (.vinStop vin) s (fun t => t = s)) ∧
    (5600 < vin.toNat → Completes (.undervoltage vin) s (fun t => t = s))) ∧
  (∀ (vin : BitVec 16) (s : State), s.mode = .hold → s.get F.SUP_MODE_hold_cause = 3 → s.autoRestart = true → s.latched = false → 5600 ≤ vin.toNat →
    Completes (.autoRestart vin) s (fun t => t.get F.SUP_RESET_cause = 3 ∧ t.get F.SUP_RESET_warm = min 255 (s.get F.SUP_RESET_warm + 1))) ∧
  (∀ s : State, s.mode ≠ .cold → s.latched = false → s.get F.SUP_MODE_twin_ok = 1 →
    Completes .supervisorFailover s (fun t => t.get F.SUP_MODE_active_half = 1 - s.get F.SUP_MODE_active_half ∧
      t.get F.SUP_MODE_twin_ok = 0 ∧ t.logged 0x0101 (s.get F.SUP_MODE_active_half) ∧ t.mode = s.mode)) ∧
  (∀ s : State, s.mode ≠ .cold → s.get F.SUP_MODE_twin_ok = 0 →
    Completes .lastSupervisorFail s (fun t => t.latched = true ∧ t.get F.SUP_MTR_STS_out_mv = 0 ∧ t.mode = s.mode))

/-- R463, R465, R466, R472: an undervoltage gives HOLD with cause 3 and VCORE off; an overvoltage is recorded; the hard limit and VCORE out
of its window give HOLD with cause 2 where a design runs; the auxiliary rail gives COLD, the 3.3 V rail takes unit 2 away. -/
def Obligations.SupplyFaultsAreRecordedAndGiveHold : Prop :=
  (∀ (vin : BitVec 16) (s : State), s.running = true → vin.toNat ≤ 5600 →
    Completes (.undervoltage vin) s (fun t => t.mode = .hold ∧ t.get F.SUP_MODE_hold_cause = 3 ∧ t.pwr.on = false ∧
      t.get F.PWR_VIN_vin = vin.toNat)) ∧
  (∀ (vin : BitVec 16) (s : State), s.mode ≠ .cold → 40500 ≤ vin.toNat →
    Completes (.overvoltage vin) s (fun t => t.mode = s.mode ∧ t.get F.PWR_STS_ovp = 1 ∧ t.get F.PWR_VIN_vin = vin.toNat)) ∧
  (∀ (ma : BitVec 16) (s : State), s.running = true → 11000 ≤ ma.toNat →
    Completes (.inputHardLimit ma) s (fun t => t.mode = .hold ∧ t.get F.SUP_MODE_hold_cause = 2 ∧ t.get F.PWR_STS_hard_lim = 1 ∧
      t.get F.PWR_VIN_iin = ma.toNat)) ∧
  (∀ (mv : BitVec 16) (s : State), s.mode ≠ .cold →
    Completes (.railOutOfWindow 0 mv) s (fun t => t.mode = .cold) ∧
    Completes (.railOutOfWindow 1 mv) s (fun t => t.unitOk 2 = false ∧ t.mode = s.mode) ∧
    (s.running = true → s.pwr.on = true →
      Completes (.railOutOfWindow 4 mv) s (fun t => t.mode = .hold ∧ t.get F.SUP_MODE_hold_cause = 2 ∧ t.pwr.on = false)))

/-- R468, R469, R470, R474, R475: a failed phase gives its place to a spare; the input limit follows VIN; a reading below the thresholds is
recorded, and the second reading in a row above 120 degrees gives HOLD with cause 4. -/
def Obligations.PhasesInputLimitAndTemperaturesAreTracked : Prop :=
  (∀ (phase : Fin 10) (i : Nat) (s : State), bitOf (s.get F.PWR_PHASE_active) phase = true →
    (List.range 10).find? (fun j => ! bitOf (s.get F.PWR_PHASE_active - 2 ^ phase.val) j &&
      ! bitOf (s.get F.PWR_PHASE_failed ||| 2 ^ phase.val) j) = some i →
    Completes (.vcorePhaseCheck phase) s (fun t => t.mode = s.mode ∧
      t.get F.PWR_PHASE_active = s.get F.PWR_PHASE_active - 2 ^ phase.val + 2 ^ i ∧
      t.get F.PWR_PHASE_failed = s.get F.PWR_PHASE_failed ||| 2 ^ phase.val)) ∧
  (∀ (vin : BitVec 16) (s : State), s.mode ≠ .cold → vin.toNat < 8800 →
    Completes (.inputLimit vin) s (fun t => t.get F.PWR_STS_vin_lim = 1 ∧ t.get F.PWR_VIN_vin = vin.toNat)) ∧
  (∀ (vin : BitVec 16) (s : State), s.mode ≠ .cold → 9000 ≤ vin.toNat →
    Completes (.inputLimit vin) s (fun t => t.get F.PWR_STS_vin_lim = 0)) ∧
  (∀ (r : Temps) (s : State), s.mode ≠ .cold → (∀ x ∈ r.junction, x ≤ 120) →
    Completes (.temperatureRead r) s (fun t => t.mode = s.mode ∧ t.pwr.junction = r.junction ∧ t.pwr.hot = false)) ∧
  (∀ (r : Temps) (s : State), s.running = true → s.pwr.hot = true → (∃ x ∈ r.junction, 120 < x) →
    Completes (.temperatureRead r) s (fun t => t.mode = .hold ∧ t.get F.SUP_MODE_hold_cause = 4 ∧ t.pwr.on = false))

/-- R253, R255, R257, R471: what the Derailleur does at each of its instants. -/
def Obligations.DerailleurMovesVcoreWithinItsLimits : Prop :=
  (∀ s : State, s.running = true → s.pwr.lowSample = true → s.get F.PWR_DRL_CTL_enable = 1 →
    Completes .derailleurEvaluate s (fun t => t.pwr.samples = 0 ∧ t.pwr.lowSample = false ∧
      t.pwr.goal = min (max (min 80 (s.get F.PWR_DRL_STS_vcore + max 1 (s.get F.PWR_DRL_VLIM_up_step))) s.vMin) s.ceiling)) ∧
  (∀ s : State, s.running = true →
    Completes .derailleurWindowEnd s (fun t => t.pwr.samples = 0 ∧ t.pwr.smin = 32767 ∧ t.pwr.window = s.pwr.window + 1 ∧
      t.get F.PWR_DRL_SMIN_samples = min 65535 s.pwr.samples)) ∧
  (∀ s : State, s.pwr.on = true → s.get F.PWR_DRL_STS_vcore < s.pwr.goal →
    Completes .vcoreSlewStep s (fun t => t.get F.PWR_DRL_STS_vcore = (s.get F.PWR_DRL_STS_vcore + 1) % 128)) ∧
  (∀ s : State, s.pwr.on = true → s.pwr.goal < s.get F.PWR_DRL_STS_vcore →
    Completes .vcoreSlewStep s (fun t => t.get F.PWR_DRL_STS_vcore = s.get F.PWR_DRL_STS_vcore - 1)) ∧
  (∀ (pin pcore : BitVec 16) (s : State),
    Completes (.capCeilingStep pin pcore) s (fun t => t.get F.PWR_PIN_pin = pin.toNat ∧ t.get F.PWR_PIN_pcore = pcore.toNat ∧
      (s.pwr.capCeil ≤ 80 → t.pwr.capCeil ≤ 80))) ∧
  (∀ s : State, s.getS F.PWR_TEMP_tj_max < 82 → s.pwr.thermCeil ≤ 80 →
    Completes .thermalCeilingStep s (fun t => t.pwr.thermCeil = min 80 (s.pwr.thermCeil + 1))) ∧
  (∀ s : State, 115 ≤ s.getS F.PWR_TEMP_tj_max →
    Completes .thermalCeilingStep s (fun t => t.pwr.thermCeil = max s.vMin (s.pwr.thermCeil - 1))) ∧
  (∀ s : State, s.pwr.on = true → s.get F.PWR_DRL_STS_vcore = s.vMin → s.effCap.1 < 10 * s.get F.PWR_PIN_pin →
    s.get F.PWR_CAP_over_act = 1 → s.running = true →
    Completes .capUnmet s (fun t => t.mode = .hold ∧ t.get F.SUP_MODE_hold_cause = 2))

/-! ## Cells and stages (chapters 02 and 03) -/

/-- R70: a FUNCTION cell holds the entry of each of its two tables that its inputs select; FORK and JOIN pass an input on. -/
def Obligations.FunctionForkAndJoinHoldTheirResult : Prop :=
  (∀ (n : Fin 16) (c : Fin 64) (r : Fin 72) (i : Fin 32) (a b : Nat) (s : State), s.cellReady ⟨n, c, r⟩ i .function →
    s.port ⟨n, c, r⟩ i 0 = some a → s.port ⟨n, c, r⟩ i 1 = some b → s.roomAhead (.cell ⟨n, c, r⟩ i) none = true →
    Completes (.function n c r i) s (fun t => t = s.cellGives ⟨n, c, r⟩ i
      ((s.cellF ⟨n, c, r⟩ i 0 32 / 2 ^ (a + 4 * b)) % 2 + 2 * ((s.cellF ⟨n, c, r⟩ i 0 32 / 2 ^ (16 + a + 4 * b)) % 2)) 0 none [0, 1])) ∧
  (∀ (n : Fin 16) (c : Fin 64) (r : Fin 72) (i : Fin 32) (a : Nat) (s : State), s.cellReady ⟨n, c, r⟩ i .fork →
    s.port ⟨n, c, r⟩ i 0 = some a → a < 4 → s.roomAhead (.cell ⟨n, c, r⟩ i) none = true →
    Completes (.fork n c r i) s (fun t => t = s.cellGives ⟨n, c, r⟩ i a 0 none [0])) ∧
  (∀ (n : Fin 16) (c : Fin 64) (r : Fin 72) (i : Fin 32) (a b : Nat) (s : State), s.cellReady ⟨n, c, r⟩ i .join →
    s.port ⟨n, c, r⟩ i 0 = some a → s.port ⟨n, c, r⟩ i 1 = some b → a < 4 → b < 4 → s.roomAhead (.cell ⟨n, c, r⟩ i) none = true →
    Completes (.join n c r i) s (fun t => t = s.cellGives ⟨n, c, r⟩ i (if s.cellSub ⟨n, c, r⟩ i = 1 then b else a) 0 none [0, 1]))

/-- R71, R77 to R79: FUNCTION5 in ADD gives the digit sum and its carry as chain output, in SUB that of the complement, in every other sub the
entry of its one table that the inputs select, as both; a MUX cell passes the input that its select names, else what its spine brings, which is
0 for a head and a single cell. -/
def Obligations.Function5AddsAndMuxSelects : Prop :=
  (∀ (n : Fin 16) (c : Fin 64) (r : Fin 72) (i : Fin 32) (a b d : Nat) (s : State), s.cellReady ⟨n, c, r⟩ i .function5 →
    s.port ⟨n, c, r⟩ i 0 = some a → s.port ⟨n, c, r⟩ i 1 = some b → s.port ⟨n, c, r⟩ i 2 = some d →
    s.roomAhead (.cell ⟨n, c, r⟩ i) none = true →
    (s.cellSub ⟨n, c, r⟩ i = 1 → Completes (.function5 n c r i) s (fun t => t = s.cellGives ⟨n, c, r⟩ i ((a + b + d % 2) % 4)
      ((a + b + d % 2) / 4) none [0, 1, 2])) ∧
    (s.cellSub ⟨n, c, r⟩ i = 2 → Completes (.function5 n c r i) s (fun t => t = s.cellGives ⟨n, c, r⟩ i ((a + (3 - b) + d % 2) % 4)
      ((a + (3 - b) + d % 2) / 4) none [0, 1, 2]))) ∧
  (∀ (n : Fin 16) (c : Fin 64) (r : Fin 72) (i : Fin 32) (a b d : Nat) (s : State), s.cellReady ⟨n, c, r⟩ i .function5 →
    s.port ⟨n, c, r⟩ i 0 = some a → s.port ⟨n, c, r⟩ i 1 = some b → s.port ⟨n, c, r⟩ i 2 = some d →
    s.roomAhead (.cell ⟨n, c, r⟩ i) none = true →
    Completes (.function5 n c r i) s (fun t => t = (let x := s.cellF ⟨n, c, r⟩ i 0 32 / 2 ^ (a + 4 * b + 16 * (d % 2)) % 2
      let q := if s.cellSub ⟨n, c, r⟩ i = 1 then ((a + b + d % 2) % 4, (a + b + d % 2) / 4)
        else if s.cellSub ⟨n, c, r⟩ i = 2 then ((a + (3 - b) + d % 2) % 4, (a + (3 - b) + d % 2) / 4) else (x, x)
      s.cellGives ⟨n, c, r⟩ i q.1 q.2 none [0, 1, 2]))) ∧
  (∀ (n : Fin 16) (c : Fin 64) (r : Fin 72) (i : Fin 32) (a b m : Nat) (s : State), s.cellReady ⟨n, c, r⟩ i .mux →
    s.port ⟨n, c, r⟩ i 0 = some a → s.port ⟨n, c, r⟩ i 1 = some b → s.port ⟨n, c, r⟩ i 3 = some m → a < 4 → b < 4 →
    s.cellSub ⟨n, c, r⟩ i = 0 → s.roomAhead (.cell ⟨n, c, r⟩ i) none = true →
    Completes (.mux n c r i) s (fun t =>
      t = (let v := if m = 2 * s.cellF ⟨n, c, r⟩ i 63 5 then a else if m = 2 * s.cellF ⟨n, c, r⟩ i 63 5 + 1 then b else 0
        s.cellGives ⟨n, c, r⟩ i v v none [0, 1, 3]))) ∧
  (∀ (n : Fin 16) (c : Fin 64) (r : Fin 72) (i : Fin 32) (a b m x : Nat) (s : State), s.cellReady ⟨n, c, r⟩ i .mux →
    s.port ⟨n, c, r⟩ i 0 = some a → s.port ⟨n, c, r⟩ i 1 = some b → s.port ⟨n, c, r⟩ i 3 = some m → a < 4 → b < 4 → x < 4 →
    s.roomAhead (.cell ⟨n, c, r⟩ i) none = true →
    (if s.cellSub ⟨n, c, r⟩ i = 1 ∨ s.cellSub ⟨n, c, r⟩ i = 2 then s.port ⟨n, c, r⟩ i 2 = some x else x = 0) →
    Completes (.mux n c r i) s (fun t =>
      t = (let v := if m = 2 * s.cellF ⟨n, c, r⟩ i 63 5 then a else if m = 2 * s.cellF ⟨n, c, r⟩ i 63 5 + 1 then b else x
        s.cellGives ⟨n, c, r⟩ i v v none
          (if s.cellSub ⟨n, c, r⟩ i = 1 ∨ s.cellSub ⟨n, c, r⟩ i = 2 then [0, 1, 2, 3] else [0, 1, 3]))))

/-- R58, R73, R74: SPLIT gives its data to the branch that its control names, SELECT-MERGE passes the input that its control names, ARB-MERGE
the one that was granted, after which the grant is released. -/
def Obligations.SteeringCellsRouteTokens : Prop :=
  (∀ (n : Fin 16) (c : Fin 64) (r : Fin 72) (i : Fin 32) (a b : Nat) (s : State), s.cellReady ⟨n, c, r⟩ i .split →
    s.port ⟨n, c, r⟩ i 0 = some a → s.port ⟨n, c, r⟩ i 1 = some b → a < 4 →
    s.roomAhead (.cell ⟨n, c, r⟩ i) (some (if s.cellSub ⟨n, c, r⟩ i = 1 then b else b % 2)) = true →
    Completes (.split n c r i) s (fun t => t = s.cellGives ⟨n, c, r⟩ i a 0 (some (if s.cellSub ⟨n, c, r⟩ i = 1 then b else b % 2)) [0, 1])) ∧
  (∀ (n : Fin 16) (c : Fin 64) (r : Fin 72) (i : Fin 32) (a d : Nat) (s : State), s.cellReady ⟨n, c, r⟩ i .selectMerge →
    s.port ⟨n, c, r⟩ i 2 = some d → s.cellF ⟨n, c, r⟩ i (40 + d % 2) 1 = 1 → s.port ⟨n, c, r⟩ i (d % 2) = some a → a < 4 →
    s.roomAhead (.cell ⟨n, c, r⟩ i) none = true →
    Completes (.selectMerge n c r i) s (fun t => t = s.cellGives ⟨n, c, r⟩ i a 0 none [2, d % 2])) ∧
  (∀ (n : Fin 16) (c : Fin 64) (r : Fin 72) (i : Fin 32) (g : Bool) (a : Nat) (s : State), s.cellReady ⟨n, c, r⟩ i .arbMerge →
    (s.node (.cell ⟨n, c, r⟩ i)).grant = some g → s.port ⟨n, c, r⟩ i g.toNat = some a → a < 4 →
    s.roomAhead (.cell ⟨n, c, r⟩ i) none = true →
    Completes (.arbMerge n c r i) s (fun t => t = (s.cellGives ⟨n, c, r⟩ i (if s.cellSub ⟨n, c, r⟩ i = 1 then g.toNat else a) 0 none
      [g.toNat]).release ⟨n, c, r⟩ i))

/-- R40, R56, R60: a slack stage with a bubble takes the token before it; wires that an upset holds high at a capture are reported with event
0x0341; a mutex grants the only request, and of two the one whose turn it is. -/
def Obligations.StagesTakeTokensAndMutexesGrant : Prop :=
  (∀ (n : Fin 16) (c : Fin 64) (r : Fin 72) (k : Fin 32) (v : Nat) (s : State), s.fabOn n = true →
    (s.stageInit (.inb ⟨n, c, r⟩ k)).isSome = true → (s.node (.inb ⟨n, c, r⟩ k)).tok = none →
    s.seen (.elem (.inb ⟨n, c, r⟩ k)) = some v → v < 4 → s.roomAhead (.inb ⟨n, c, r⟩ k) none = true →
    Completes (.holdStageTokenMove n c r ⟨32 + k.val, by omega⟩ 0) s (fun t =>
      t = (s.capture (.inb ⟨n, c, r⟩ k) v 0 none).ackDst (.elem (.inb ⟨n, c, r⟩ k))) ∧
    (∀ extra : BitVec 4, 2 ^ v ||| extra.toNat ≠ 2 ^ v →
      Completes (.holdStageTokenMove n c r ⟨32 + k.val, by omega⟩ extra) s (fun t => t.logged 0x0341 n))) ∧
  (∀ (n : Fin 16) (c : Fin 64) (r : Fin 72) (k : Fin 4) (pickB : Bool) (i : Nat) (s : State),
    s.mutexCell ⟨n, c, r⟩ k = some i → s.cellMode ⟨n, c, r⟩ i = .arbMerge → s.fabOn n = true →
    (s.node (.cell ⟨n, c, r⟩ i)).grant = none →
    s.cellF ⟨n, c, r⟩ i 40 1 = 1 → s.cellF ⟨n, c, r⟩ i 41 1 = 1 →
    ((s.port ⟨n, c, r⟩ i 0).isSome = true → s.port ⟨n, c, r⟩ i 1 = none →
      Completes (.mutexGrant n c r k pickB) s (fun t => (t.node (.cell ⟨n, c, r⟩ i)).grant = some false)) ∧
    (s.port ⟨n, c, r⟩ i 0 = none → (s.port ⟨n, c, r⟩ i 1).isSome = true →
      Completes (.mutexGrant n c r k pickB) s (fun t => (t.node (.cell ⟨n, c, r⟩ i)).grant = some true)) ∧
    (∀ g, (s.port ⟨n, c, r⟩ i 0).isSome = true → (s.port ⟨n, c, r⟩ i 1).isSome = true → (s.node (.cell ⟨n, c, r⟩ i)).turn = some g →
      Completes (.mutexGrant n c r k pickB) s (fun t => (t.node (.cell ⟨n, c, r⟩ i)).grant = some g)))

/-- R60: a hold stage that captures a digit with more than one data wire high takes the lowest of them, counts the violation in its region up to
0xFFFF and raises event 0x0341 with the region. -/
def Obligations.AViolatedCaptureTakesTheLowestWire : Prop :=
  (∀ (v w : Fin 4) (extra : BitVec 4), (2 ^ v.val ||| extra.toNat).testBit w = true → (∀ j, j < w.val → (2 ^ v.val ||| extra.toNat).testBit j = false) →
    violated v extra = w) ∧
  (∀ (x : Src) (v : Fin 4) (chain : Nat) (branch : Option Nat) (s : State), ((s.capture x v chain branch).node x).tok = some (BitVec.ofNat 2 v.val)) ∧
  (∀ (n : Fin 16) (c : Fin 64) (r : Fin 72) (k : Fin 64) (v : Nat) (extra : BitVec 4) (s : State), s.fabOn n = true →
    let x := elemOf ⟨n, c, r⟩ (32 + k.val)
    (s.stageInit x).isSome = true → (s.node x).tok = none → s.seen (.elem x) = some v → v < 4 → s.roomAhead x none = true →
    2 ^ v ||| extra.toNat ≠ 2 ^ v →
    Completes (.holdStageTokenMove n c r ⟨32 + k.val, by omega⟩ extra) s (fun t =>
      t.fab = ((s.capture x (violated v extra) 0 none).ackDst (.elem x)).fab ∧ t.logged 0x0341 n ∧
      t.get (F.REGION_CODE_ERR_count n) = min (s.get (F.REGION_CODE_ERR_count n) + 1) 0xFFFF)) ∧
  (∀ (n : Fin 16) (c : Fin 64) (r : Fin 72) (k : Fin 32) (v : Nat) (extra : BitVec 4) (s : State), s.fabOn n = true →
    let x : Src := .seg ⟨n, c, r⟩ k
    (s.stageInit x).isSome = true → (s.node x).tok = none → s.seen (.elem x) = some v → v < 4 → s.roomAhead x none = true →
    2 ^ v ||| extra.toNat ≠ 2 ^ v →
    Completes (.holdStageTokenMove n c r ⟨96 + k.val, by omega⟩ extra) s (fun t => t.logged 0x0341 n ∧
      t.fab = (((((s.capture x (violated v extra) 0 none).ackDst (.elem x)).codeError n v extra)).tapsTake ⟨n, c, r⟩ k).fab ∧
      t.get (F.REGION_CODE_ERR_count n) = min (s.get (F.REGION_CODE_ERR_count n) + 1) 0xFFFF)) ∧
  (∀ (n : Fin 16) (c : Fin 64) (r : Fin 72) (i : Fin 32) (g : Fire) (extra : BitVec 4) (s : State), s.fabOn n = true → s.holdEn ⟨n, c, r⟩ i = true →
    (s.node (.cell ⟨n, c, r⟩ i)).tok = none → s.fireNow ⟨n, c, r⟩ i = some g → s.roomAhead (.cell ⟨n, c, r⟩ i) g.branch = true →
    s.cellMode ⟨n, c, r⟩ i ≠ .arbMerge → 2 ^ g.val ||| extra.toNat ≠ 2 ^ g.val →
    Completes (.holdStageTokenMove n c r ⟨i.val, by omega⟩ extra) s (fun t => t.logged 0x0341 n ∧
      t.fab = (s.cellGives ⟨n, c, r⟩ i (violated g.val extra) g.chain g.branch g.ports).fab ∧
      t.get (F.REGION_CODE_ERR_count n) = min (s.get (F.REGION_CODE_ERR_count n) + 1) 0xFFFF))

/-- R75, R76: SOURCE and CONST offer their constant while idle, SOURCE with one token less to give; SINK acknowledges and discards. -/
def Obligations.SourcesOfferConstantsAndSinksDiscard : Prop :=
  (∀ (n : Fin 16) (c : Fin 64) (r : Fin 72) (i : Fin 32) (s : State), s.cellMode ⟨n, c, r⟩ i = .source → s.fabOn n = true →
    (s.node (.cell ⟨n, c, r⟩ i)).left ≠ 0 → (s.node (.cell ⟨n, c, r⟩ i)).tok = none → s.holdEn ⟨n, c, r⟩ i = false →
    Completes (.source n c r i) s (fun t => (t.node (.cell ⟨n, c, r⟩ i)).tok = some (BitVec.ofNat 2 (s.cellF ⟨n, c, r⟩ i 61 2)) ∧
      (t.node (.cell ⟨n, c, r⟩ i)).left = (s.node (.cell ⟨n, c, r⟩ i)).left - 1 ∧ t.regs = s.regs)) ∧
  (∀ (n : Fin 16) (c : Fin 64) (r : Fin 72) (i : Fin 32) (s : State), s.cellMode ⟨n, c, r⟩ i = .const → s.fabOn n = true →
    (s.node (.cell ⟨n, c, r⟩ i)).tok = none → s.holdEn ⟨n, c, r⟩ i = false →
    Completes (.const n c r i) s (fun t => (t.node (.cell ⟨n, c, r⟩ i)).tok = some (BitVec.ofNat 2 (s.cellF ⟨n, c, r⟩ i 61 2)) ∧
      t.regs = s.regs)) ∧
  (∀ (n : Fin 16) (c : Fin 64) (r : Fin 72) (i : Fin 32) (p : Fin 2) (s : State), s.cellMode ⟨n, c, r⟩ i = .sink → s.fabOn n = true →
    s.waits (.port ⟨n, c, r⟩ i p) = false → (s.seen (.port ⟨n, c, r⟩ i p)).isSome = true →
    Completes (.sink n c r i p) s (fun t => t = s.ackDst (.port ⟨n, c, r⟩ i p)))

/-! ## Isolation cells, freeze, watchdogs, long tracks (chapters 02 and 04) -/

/-- R27, R49, R50, R111, R115, Tables 10.4 and 10.6: on an edge whose neighbour is cut an isolation cell in ABSORB acknowledges and counts a
token, one in DEFAULT offers its default value, and neither acts in a region that HOLD has frozen; the freeze bit of a region, its settling, and its release, which clears settled unless HOLD freezes the region too; of an isolated region
or one in the set of a region load the bit is not written. -/
def Obligations.IsolationCellsAndFreezeFollowTheirCommands : Prop :=
  (∀ (n : Fin 16) (e : Fin 4) (i : Fin 1152) (s : State), s.get (F.REGION_ISO_STS_own_cut n) = 0 →
    bitOf (s.get (F.REGION_ISO_STS_nbr_iso n)) e = true → s.get (F.REGION_FREEZE_hold_freeze n) = 0 → s.isoF n e i 0 2 = 1 →
    (s.seen (.iso n e i)).isSome = true →
    Completes (.isoAbsorb n e i) s (fun t => t = (s.ackDst (.iso n e i)).isoCount n e i)) ∧
  (∀ (n : Fin 16) (e : Fin 4) (i : Fin 1152) (s : State), s.get (F.REGION_ISO_STS_own_cut n) = 0 →
    bitOf (s.get (F.REGION_ISO_STS_nbr_iso n)) e = true → s.get (F.REGION_FREEZE_hold_freeze n) = 0 → i.val / 8 % 2 = 1 → s.isoF n e i 0 2 = 2 →
    s.fab.setReset.getLsbD n = false → (s.node (.iso n e i)).tok = none →
    Completes (.isoDefaultSupply n e i) s (fun t => (t.node (.iso n e i)).tok = some (BitVec.ofNat 2 (s.isoF n e i 2 2)) ∧
      t.regs = s.regs)) ∧
  (∀ (n : Fin 16) (e : Fin 4) (i : Fin 1152) (s : State), s.get (F.REGION_FREEZE_hold_freeze n) = 1 →
    Completes (.isoAbsorb n e i) s (fun t => t = s) ∧ Completes (.isoDefaultSupply n e i) s (fun t => t = s)) ∧
  (∀ (n : Fin 16) (s : State), s.freezeShut n = false →
    Completes (.regionFreezeSet n) s (fun t => t.get (F.REGION_FREEZE_freeze n) = 1 ∧ t.mode = s.mode)) ∧
  (∀ (n : Fin 16) (s : State), s.freezeShut n = true →
    Completes (.regionFreezeSet n) s (fun t => t = s) ∧ Completes (.regionFreezeClear n) s (fun t => t = s)) ∧
  (∀ (n : Fin 16) (s : State), (s.get (F.REGION_FREEZE_freeze n) = 1 ∨ s.get (F.REGION_FREEZE_hold_freeze n) = 1) →
    s.get (F.REGION_COLMAP_moving n) = 0 →
    Completes (.regionFreezeSettled n) s (fun t => t.get (F.REGION_FREEZE_settled n) = 1)) ∧
  (∀ (n : Fin 16) (s : State), s.freezeShut n = false →
    Completes (.regionFreezeClear n) s (fun t => t.get (F.REGION_FREEZE_freeze n) = 0 ∧
      t.get (F.REGION_FREEZE_hold_freeze n) = s.get (F.REGION_FREEZE_hold_freeze n) ∧
      (s.get (F.REGION_FREEZE_hold_freeze n) = 0 → t.get (F.REGION_FREEZE_settled n) = 0)))

/-- R61 to R65, R101, R102: a watchdog on a tapped stage is enabled with its limit and counts from 0, one that is not tapped is not; one that
runs reports event 0x0340 with region and number in the microsecond in which its count comes to the limit, and not before; a segment with two or
more enabled entries is disabled, counted and captured, any other is left. -/
def Obligations.WatchdogsAndTrackSensorsReport : Prop :=
  (∀ (n : Fin 16) (k : Fin 32) (v : BitVec 32) (s : State),
    Completes (.watchdogEnable n k v) s (fun t =>
      t.get (F.REGION_WDG_CTL_limit n k) = v.toNat % 2 ^ (F.REGION_WDG_CTL_limit n k).w ∧
      t.get (F.REGION_WDG_CTL_enable n k) = (if v.getLsbD 31 = true ∧ (s.tapStage n k).isSome = true then 1 else 0) ∧
      (v.getLsbD 31 = true → (s.tapStage n k).isSome = true → s.get (F.REGION_WDG_CTL_enable n k) = 0 →
        t.get (F.REGION_WDG_STS_elapsed n k) = 0))) ∧
  (∀ (n : Fin 16) (k : Fin 32) (s : State), s.get (F.REGION_WDG_CTL_enable n k) = 1 → s.wdgHeld n = false → s.groomHeld = false →
    (s.wdgAt n k).reported = false → (s.get (F.REGION_WDG_CTL_arm_first n k) = 0 ∨ (s.wdgAt n k).seen = true) →
    (s.wdgLimit n k ≤ s.wdgCount (s.wdgAt n k) + 9 → s.get (F.REGION_WDG_CTL_reaction n k) = 0 →
      Completes (.watchdogStall n k) s (fun t => t.get (F.REGION_WDG_STS_stalled n k) = 1 ∧ t.logged 0x0340 (n.val * 256 + k.val) ∧
        (t.wdgAt n k).reported = true ∧ t.mode = s.mode)) ∧
    (s.wdgCount (s.wdgAt n k) + 9 < s.wdgLimit n k → Completes (.watchdogStall n k) s (fun t => t = s))) ∧
  (∀ (n : Fin 16) (vert : Bool) (line : Fin 72) (track : Fin 24) (seg : Fin 4) (s : State),
    (s.contended (.track n vert line track seg) = true → s.get (F.REGION_LT_CTL_reaction n) = 0 →
      Completes (.ltContention n vert line track seg) s (fun t =>
        SMap.get (fun _ => false) t.fab.ltOff (trackKey n vert line track seg) = true ∧ t.loggedSome 0x0342 ∧
        t.get (F.REGION_LT_FAULT_count n) = min (s.get (F.REGION_LT_FAULT_count n) + 1) (2 ^ (F.REGION_LT_FAULT_count n).w - 1) ∧
        t.get (F.REGION_LT_FAULT_valid n) = 1)) ∧
    (s.contended (.track n vert line track seg) = false → Completes (.ltContention n vert line track seg) s (fun t => t = s)))

/-! ## Sprocket and Firn (chapter 05) -/

/-- R127, R128, R131: a slice in accumulation with plain operands adds the exact product to its accumulator and brings the sum into 64 bits. -/
def Obligations.SprocketAccumulatesExactProducts : Prop :=
  (∀ (n : Fin 16) (c : Fin 4) (sl : Fin 60) (a : MacIn) (s : State), s.macReady n c sl = true → s.macIn n c sl = some a →
    s.sliceF n c sl 4 1 = 0 → s.sliceF n c sl 8 2 = 1 → s.sliceF n c sl 10 1 = 0 → a.op = 0 →
    Completes (.sprocketMac n c sl) s (fun t => (t.slice n c sl).acc = acc64 (s.sliceF n c sl 11 1 == 1)
      ((s.slice n c sl).acc.toInt + signedIf (s.sliceF n c sl 1 1 == 1) 27 a.u * signedIf (s.sliceF n c sl 2 1 == 1) 24 a.k))) ∧
  (∀ (n : Fin 16) (c : Fin 4) (sl : Fin 60) (s : State), s.fab.setReset.getLsbD n = false → s.sliceF n c sl 0 1 = 1 →
    (s.slice n c sl).stopped = false →
    Completes (.sprocketCalibrate n c sl true) s (fun t => (t.slice n c sl).cal = true ∧ t.regs = s.regs) ∧
    Completes (.sprocketCalibrate n c sl false) s (fun t => (t.slice n c sl).stopped = true ∧ (t.slice n c sl).cal = false ∧
      t.loggedSome 0x0352))

/-- R135 to R137: a port with a READ pending offers its word and acknowledges the command with the block unchanged; a WRITE goes to its own
row and word. -/
def Obligations.FirnPortsReadAndWriteTheirWord : Prop :=
  (∀ (n : Fin 16) (f : Fin 2) (b : Fin 72) (p : Fin 2) (c : FirnCmd) (s : State), s.fabOn n = true →
    s.chanFree (.firn n f b (2 * p.val + 1)) = true → s.firnCmd n f b p = some c → c.write = false → s.firnCollides n f b p c = false →
    s.firnEcc n f b = false → s.firnF n f b (11 + 8 * p.val) 1 = 0 →
    Completes (.firnRead n f b p 0) s (fun t =>
      t = (s.ackIn (.firn n f b (2 * p.val)) (s.chanDigits (.firn n f b (2 * p.val)))).offerOut (.firn n f b (2 * p.val + 1))
        (digitsOf (s.firnDigits n f b) (s.firnWord n f b (s.firnRowOf n f b c.word) c.word).1))) ∧
  (∀ (n : Fin 16) (f : Fin 2) (b : Fin 72) (p : Fin 2) (c : FirnCmd) (s : State), s.fabOn n = true →
    s.chanFree (.firn n f b (2 * p.val + 1)) = true → s.firnCmd n f b p = some c → c.write = false → s.firnCollides n f b p c = false →
    Completes (.firnRead n f b p 0) s (fun t => let w := s.firnWord n f b (s.firnRowOf n f b c.word) c.word
      t = ((s.ackIn (.firn n f b (2 * p.val)) (s.chanDigits (.firn n f b (2 * p.val)))).firnError n f b (s.firnRowOf n f b c.word) p w.2).offerOut
        (.firn n f b (2 * p.val + 1))
        (digitsOf (s.firnDigits n f b) w.1 ++ (if s.firnF n f b (11 + 8 * p.val) 1 = 1 then [w.2] else [])))) ∧
  (∀ (n : Fin 16) (f : Fin 2) (b : Fin 72) (p : Fin 2) (c : FirnCmd) (s : State), s.fabOn n = true →
    s.chanFree (.firn n f b (2 * p.val + 1)) = true → s.firnCmd n f b p = some c → c.write = true → s.firnCollides n f b p c = false →
    s.fab.wen.getLsbD n = true →
    Completes (.firnWrite n f b p 0) s (fun t => t.fab.frames =
      ((s.ackIn (.firn n f b (2 * p.val)) (s.chanDigits (.firn n f b (2 * p.val)))).firnPut n f b (s.firnRowOf n f b c.word) c.word
        c.data).fab.frames)) ∧
  (∀ (n : Fin 16) (f : Fin 2) (b : Fin 72) (row : Fin 512) (s : State), s.get (F.REGION_MSCRUB_enable n) = 1 → s.firnEcc n f b = true →
    s.cut n = false → (eccRead (s.firnRow n f b row)).2 = 0 → ¬ (f.val = 1 ∧ b.val = 71 ∧ row.val = 511) →
    Completes (.firnScrubRow n f b row 0) s (fun t => t = s)) ∧
  (∀ (n : Fin 16) (f : Fin 2) (b : Fin 72) (row : Fin 512) (s : State), s.get (F.REGION_MSCRUB_enable n) = 1 → s.firnEcc n f b = true →
    s.cut n = false → (eccRead (s.firnRow n f b row)).2 = 1 → ¬ (f.val = 1 ∧ b.val = 71 ∧ row.val = 511) →
    Completes (.firnScrubRow n f b row 0) s (fun t => t.fab.frames = (s.setFirnRow n f b row (eccRow (eccRead (s.firnRow n f b row)).1)).fab.frames ∧
      t.get (F.REGION_FIRN_ECC_corrected n) =
        min (s.get (F.REGION_FIRN_ECC_corrected n) + 1) (2 ^ (F.REGION_FIRN_ECC_corrected n).w - 1)))

/-- R139, R140: a row with the check bits of its data reads as that data without an error; with any one bit wrong it reads as that data,
corrected. -/
def Obligations.FirnEccCorrectsEverySingleBitError : Prop :=
  ∀ d : BitVec 64, eccRead (eccRow d) = (d, 0) ∧ ∀ i : Fin 72, eccRead (eccRow d ^^^ BitVec.ofNat 72 (2 ^ i.val)) = (d, 1)

/-! ## Crossing queues (chapter 06) -/

/-- R159 to R161, R165, R172: a push that commits stores the word with its parity and counts it; in discard mode a word that is no soi is
counted as discarded and not stored; the oldest word is offered, or taken out where it is a marker and the side band is unconnected; a pop takes
the oldest word. -/
def Obligations.QueuesStoreAndGiveWordsInOrder : Prop :=
  (∀ (q : Fin 32) (d : BitVec 128) (sb : BitVec 16) (k i v : Nat) (s : State), s.xqBound q = some (k, i, v) → k ≠ 3 →
    (s.xqQ q).wait = [] → s.xqStopped q = false → s.xqClocked q true = true → (s.xqQ q).discard = false → (s.xqQ q).words.length < 512 →
    Completes (.xqPushClocked q d sb) s (fun t => (t.xqQ q).words = (s.xqQ q).words ++ [xword d (sb &&& 0xFF0F)] ∧
      t.get (F.XQ_PUSHED_count q) = (s.get (F.XQ_PUSHED_count q) + 1) % 2 ^ 32 ∧
      t.get (F.XQ_STS_open_w q) = (if sb.getLsbD 1 then 0 else 1))) ∧
  (∀ (q : Fin 32) (d : BitVec 128) (sb : BitVec 16) (k i v : Nat) (s : State), s.xqBound q = some (k, i, v) → k ≠ 3 →
    (s.xqQ q).wait = [] → s.xqStopped q = false → s.xqClocked q true = true → (s.xqQ q).discard = true → sb.getLsbD 0 = false →
    Completes (.xqPushClocked q d sb) s (fun t => (t.xqQ q).words = (s.xqQ q).words ∧
      t.get (F.XQ_DISCARD_count q) = (s.get (F.XQ_DISCARD_count q) + 1) % 2 ^ 32)) ∧
  (∀ (q : Fin 32) (w : BitVec 128 × BitVec 16) (s : State), s.xqFabricWord (32 + q.val) = some w → s.xqStopped (32 + q.val) = false →
    s.xqFabricReset (32 + q.val) = false → (s.xqQ (32 + q.val)).discard = false → (s.xqQ (32 + q.val)).words.length < 512 →
    Completes (.xqPushFabric q) s (fun t => (t.xqQ (32 + q.val)).words = (s.xqQ (32 + q.val)).words ++ [xword w.1 w.2] ∧
      t.get (F.XQ_PUSHED_count (32 + q.val)) = (s.get (F.XQ_PUSHED_count (32 + q.val)) + 1) % 2 ^ 32)) ∧
  (∀ (q : Fin 32) (w : XWord) (ws : List XWord) (s : State), (s.xqQ q).words = w :: ws → s.xqStopped q = false →
    s.get (F.XQ_STS_offer q) = 0 → s.xqFabricReset q = false →
    (s.sbUsed q = true ∨ sbMarker w.sb = false →
      Completes (.xqWordOffer q 0) s (fun t => t.get (F.XQ_STS_offer q) = 1 ∧ t.xqQ q = s.xqQ q)) ∧
    (s.sbUsed q = false → sbMarker w.sb = true →
      Completes (.xqWordOffer q 0) s (fun t => t.get (F.XQ_STS_offer q) = 0 ∧ (t.xqQ q).words = ws ∧
        t.get (F.XQ_POPPED_count q) = (s.get (F.XQ_POPPED_count q) + 1) % 2 ^ 32 ∧ t.fab = s.fab))) ∧
  (∀ (q : Fin 32) (w : XWord) (ws : List XWord) (s : State), (s.xqQ q).words = w :: ws → s.get (F.XQ_STS_offer q) = 1 →
    s.offerTaken q = true →
    Completes (.xqPopFabric q) s (fun t => (t.xqQ q).words = ws ∧ t.get (F.XQ_STS_offer q) = 0 ∧
      t.get (F.XQ_POPPED_count q) = (s.get (F.XQ_POPPED_count q) + 1) % 2 ^ 32)) ∧
  (∀ (q : Fin 32) (w : XWord) (ws : List XWord) (s : State), (s.xqQ (32 + q.val)).words = w :: ws → s.xqStopped (32 + q.val) = false →
    s.xqClocked (32 + q.val) false = true → s.ringTakes (32 + q.val) = true → s.groupTakes (32 + q.val) = true →
    Completes (.xqPopClocked q 0) s (fun t => (t.xqQ (32 + q.val)).words = ws ∧ (t.xqQ (32 + q.val)).last = some w.read ∧
      t.get (F.XQ_POPPED_count (32 + q.val)) = (s.get (F.XQ_POPPED_count (32 + q.val)) + 1) % 2 ^ 32))

/-- R170, R171, R183 to R186, Table 06.6: pause and flush set and clear their bits; a flush of a queue without a ring and without an offer, whose reader is
not open, removes every word, but while the clock of the clocked side is stopped the words stay and the flush does not end; the clear of a paused
queue leaves PUSHED at its depth and the other counts at 0. The reset of one side is seen by the other with event 0x0706, that of the writer
leaves an RST marker as the last word; it ends for its side alone. -/
def Obligations.QueuesPauseFlushClearAndReset : Prop :=
  (∀ (q : Fin 64) (s : State), s.get (F.XQ_STS_flushing q) = 0 →
    Completes (.xqFlush q) s (fun t => t.get (F.XQ_STS_flushing q) = 1 ∧ t.get (F.XQ_CTL_flush q) = 1)) ∧
  (∀ (q : Fin 64) (s : State), s.get (F.XQ_STS_flushing q) = 0 → s.queueRing q = none → s.get (F.XQ_STS_offer q) = 0 →
    s.get (F.XQ_STS_open_r q) = 0 → s.get (F.XQ_STS_clk_stopped q) = 0 →
    Completes (.xqFlush q) s (fun t => (t.xqQ q).words = [] ∧
      t.get (F.XQ_FLUSHED_count q) = (s.get (F.XQ_FLUSHED_count q) + (s.xqQ q).words.length) % 2 ^ 32)) ∧
  (∀ (q : Fin 64) (s : State), s.get (F.XQ_STS_flushing q) = 0 → s.get (F.XQ_STS_clk_stopped q) = 1 →
    Completes (.xqFlush q) s (fun t => (t.xqQ q).words = (s.xqQ q).words ∧ (t.xqQ q).flushDue = true ∧
      t.get (F.XQ_FLUSHED_count q) = s.get (F.XQ_FLUSHED_count q))) ∧
  (∀ (q : Fin 64) (s : State), s.get (F.XQ_STS_clk_stopped q) = 1 → Completes (.xqFlushDone q) s (fun t => t = s)) ∧
  (∀ (q : Fin 64) (s : State), s.get (F.XQ_STS_flushing q) = 1 → s.get (F.XQ_STS_clk_stopped q) = 0 → (s.xqQ q).flushDue = false →
    Completes (.xqFlushDone q) s (fun t => t.get (F.XQ_STS_flushing q) = 0 ∧ t.get (F.XQ_CTL_flush q) = 0)) ∧
  (∀ (q : Fin 64) (s : State), Completes (.xqPause q) s (fun t => t.get (F.XQ_CTL_pause q) = 1 ∧ t.xq = s.xq)) ∧
  (∀ (q : Fin 64) (s : State), s.get (F.XQ_CTL_pause q) = 1 → s.get (F.XQ_STS_offer q) = 0 → s.get (F.XQ_STS_clk_stopped q) = 0 →
    Completes (.xqPauseSettled q) s (fun t => t.get (F.XQ_STS_paused q) = 1)) ∧
  (∀ (q : Fin 64) (s : State), Completes (.xqUnpause q) s (fun t => t.get (F.XQ_CTL_pause q) = 0 ∧ t.get (F.XQ_STS_paused q) = 0)) ∧
  (∀ (q : Fin 64) (s : State), s.get (F.XQ_STS_paused q) = 1 →
    Completes (.xqClrCnt q) s (fun t => t.get (F.XQ_PUSHED_count q) = (s.xqQ q).words.length % 2 ^ 32 ∧ t.get (F.XQ_POPPED_count q) = 0 ∧
      t.get (F.XQ_FLUSHED_count q) = 0 ∧ t.get (F.XQ_DISCARD_count q) = 0 ∧ t.get (F.XQ_ERR_perr q) = 0 ∧ t.xq = s.xq)) ∧
  (∀ (q : Fin 64) (writer : Bool) (s : State), (s.xqQ q).inReset writer = false → s.queueRing q = none →
    Completes (.xqSideReset q writer) s (fun t => (t.xqQ q).inReset writer = true ∧ (t.xqQ q).inReset (! writer) = (s.xqQ q).inReset (! writer) ∧
      t.get (F.XQ_STS_far_reset q) = 1 ∧ t.loggedSome 0x0706 ∧ (writer = true → (t.xqQ q).words.getLast? = some rstMarker))) ∧
  (∀ (q : Fin 64) (writer : Bool) (s : State), Completes (.xqSideResetEnd ⟨q, writer⟩) s (fun t => (t.xqQ q).inReset writer = false ∧
    (t.xqQ q).inReset (! writer) = (s.xqQ q).inReset (! writer) ∧ (t.xqQ q).words = (s.xqQ q).words ∧ t.regs = s.regs))

/-- R174 to R178, R183: pulses count up to 255, a round trip into the fabric offers and clears them, its acknowledge counts them as delivered; a
token on an event-out line is one pulse, a round trip adds the pulses to the count. Between two clocked domains a pulse beyond 255 is lost with
event 0x0703 and parameter 0xFFFF, and a round trip delivers the count. A value crossing holds the value it has requested until the destination
has taken it, whole, and then requests the latest one. -/
def Obligations.EventAndValueCrossingsCount : Prop :=
  (∀ (n : Fin 16) (mask : BitVec 8) (k : Fin 8) (s : State),
    Completes (.regionEvxFire n mask) s (fun t => t.get (F.REGION_EVX_IN_pending n k) =
      (if mask.getLsbD k then min 255 (s.get (F.REGION_EVX_IN_pending n k) + 1) else s.get (F.REGION_EVX_IN_pending n k)))) ∧
  (∀ (n : Fin 16) (k : Fin 8) (s : State), s.get (F.REGION_EVX_IN_pending n k) ≠ 0 →
    bitOf (s.get (F.REGION_EVX_STS_in_busy n)) k = false → s.fab.setReset.getLsbD n = false →
    Completes (.eventInRoundTrip n k) s (fun t => t.get (F.REGION_EVX_IN_pending n k) = 0 ∧
      bitOf (t.get (F.REGION_EVX_STS_in_busy n)) k = true ∧ (t.evLine n k).flight = s.get (F.REGION_EVX_IN_pending n k))) ∧
  (∀ (n : Fin 16) (k : Fin 8) (s : State), bitOf (s.get (F.REGION_EVX_STS_in_busy n)) k = true → s.outTaken (.evIn n k) 4 = true →
    Completes (.eventInAck n k) s (fun t => bitOf (t.get (F.REGION_EVX_STS_in_busy n)) k = false ∧ (t.evLine n k).flight = 0 ∧
      t.get (F.REGION_EVX_IN_delivered n k) = (s.get (F.REGION_EVX_IN_delivered n k) + (s.evLine n k).flight) % 2 ^ 24)) ∧
  (∀ (n : Fin 16) (k : Fin 8) (s : State), (s.inValue (.evOut n k) 1).isSome = true → (s.evLine n (8 + k.val)).count < 255 →
    Completes (.eventOutToken (.region n) (BitVec.ofNat 8 k)) s (fun t => (t.evLine n (8 + k.val)).count = (s.evLine n (8 + k.val)).count + 1)) ∧
  (∀ (n : Fin 16) (k : Fin 8) (s : State), (s.evLine n (8 + k.val)).count ≠ 0 →
    Completes (.eventOutRoundTrip (.region n) (BitVec.ofNat 8 k)) s (fun t => (t.evLine n (8 + k.val)).count = 0 ∧
      t.get (F.REGION_EVX_OUT_count n k) = (s.get (F.REGION_EVX_OUT_count n k) + (s.evLine n (8 + k.val)).count) % 2 ^ 32)) ∧
  (∀ (n : Fin 16) (k : BitVec 8) (s : State), 8 ≤ k.toNat →
    Completes (.eventOutToken (.region n) k) s (fun t => t = s) ∧ Completes (.eventOutRoundTrip (.region n) k) s (fun t => t = s)) ∧
  (∀ (src dst : Fin 71) (x : BitVec 8) (s : State), s.clkStopped src = false → let k := crossKey src dst x.toNat
    ((s.clkEv k).count < 255 →
      Completes (.eventOutToken (.domains src dst) x) s (fun t => (t.clkEv k).count = (s.clkEv k).count + 1 ∧ t.regs = s.regs)) ∧
    (255 ≤ (s.clkEv k).count → (s.clkEv k).reported = false →
      Completes (.eventOutToken (.domains src dst) x) s (fun t => (t.clkEv k).count = (s.clkEv k).count ∧ t.logged 0x0703 0xFFFF)) ∧
    (s.clkStopped dst = false →
      Completes (.eventOutRoundTrip (.domains src dst) x) s (fun t => (t.clkEv k).count = 0 ∧
        (t.clkEv k).delivered = (s.clkEv k).delivered + (s.clkEv k).count ∧ t.regs = s.regs))) ∧
  (∀ (src dst : Fin 71) (x : BitVec 8) (v : BitVec 32) (s : State), s.clkStopped src = false → let k := crossKey src dst x.toNat
    Completes (.valueCrossingTransfer ⟨src, dst, x⟩ (some v)) s (fun t => (t.clkVal k).src = v ∧ (t.clkVal k).copy = (s.clkVal k).copy ∧
      ((s.clkVal k).req = true → (t.clkVal k).hold = (s.clkVal k).hold ∧ (t.clkVal k).req = true) ∧
      ((s.clkVal k).req = false → (t.clkVal k).hold = v) ∧ t.regs = s.regs) ∧
    (s.clkStopped dst = false → (s.clkVal k).req = true →
      Completes (.valueCrossingTransfer ⟨src, dst, x⟩ none) s (fun t => (t.clkVal k).copy = (s.clkVal k).hold ∧
        (t.clkVal k).hold = (s.clkVal k).src ∧ t.regs = s.regs)))

/-- R180 to R182: a clock that stops and returns is known and reported; a register access that waits too long is counted, captured and
reported. -/
def Obligations.StoppedClocksAreReported : Prop :=
  (∀ (d : Fin 71) (s : State), s.clkStopped d = false →
    Completes (.clockStopped d) s (fun t => t.clkStopped d = true ∧ t.loggedSome 0x0707)) ∧
  (∀ (d : Fin 71) (s : State), s.clkStopped d = true → s.clk.waits = [] →
    Completes (.clockReturned d) s (fun t => t.clkStopped d = false ∧ t.loggedSome 0x0708)) ∧
  (∀ (d : Fin 71) (a : Access) (s : State), s.clk.waits.find? (fun a => domainOf a.addr == some d.val) = some a →
    s.clk.hung.getLsbD d = false → s.get F.SUP_CROSS_CTL_force_en = 0 →
    Completes (.accessHang d) s (fun t => t.get F.SUP_CROSS_STS_hangs = min (s.get F.SUP_CROSS_STS_hangs + 1) 255 ∧
      t.get F.SUP_CROSS_STS_valid = 1 ∧ t.loggedSome 0x0704 ∧ t.clk.hung.getLsbD d = true ∧
      (s.get F.SUP_CROSS_STS_valid = 0 → t.get F.SUP_CROSS_ADDR_addr = a.addr % 2 ^ 24)))

/-! ## Cadence (chapter 07) -/

/-- R190, R209, R213, R217, R218, R220: what takes a track from state to state (0 OFF, 1 ACQUIRE, 2 TRACK, 3 COAST, 4 HALT), with the halt
causes 1 coast angle, 2 coast time, 4 request, 5 lock lost; register writes take effect where they reach Cadence (R181). -/
def Obligations.TracksChangeStateOnTheirCauses : Prop :=
  (∀ (k : Fin 8) (v : BitVec 32) (s : State), s.barOpen (R.CAD_TRK_CTL k) = true → s.trkState k = 0 → s.cad.run = true →
    v.getLsbD 10 = false →
    Completes (.trackEnable k v) s (fun t => t.trkState k = 1 ∧ t.get (F.CAD_TRK_CTL_enable k) = 1 ∧
      t.get (F.CAD_TRK_CTL_src k) = v.toNat / 2 % 4 ∧ t.get (F.CAD_TRK_CTL_mul k) = v.toNat / 65536)) ∧
  (∀ (k : Fin 8) (s : State), s.barOpen (R.CAD_TRK_CTL k) = true →
    Completes (.trackDisable k) s (fun t => t.trkState k = 0 ∧ t.get (F.CAD_TRK_CTL_enable k) = 0)) ∧
  (∀ (k : Fin 8) (s : State), s.trkState k = 1 → 16 ≤ (s.trkT k).obs.good →
    Completes (.acquireComplete k) s (fun t => t.trkState k = 2)) ∧
  (∀ (k : Fin 8) (s : State), s.barOpen (R.CAD_TRK_CTL k) = true → s.trkRuns k = true →
    Completes (.trackHalt k) s (fun t => t.trkState k = 4 ∧ t.get (F.CAD_TRK_STS_halt_cause k) = 4 ∧ t.logged 0x0503 k)) ∧
  (∀ s : State, s.barOpen R.CAD_CTL = true → Completes .haltAll s (fun t => ∀ k : Fin 8, s.trkRuns k = true →
    t.trkState k = 4 ∧ t.get (F.CAD_TRK_STS_halt_cause k) = 4 ∧ t.logged 0x0503 k)) ∧
  (∀ s : State, Completes .pllLockLost s (fun t => t.get F.CAD_STS_pll_lock = 0 ∧ t.get F.CAD_STS_pll_lost = 1 ∧ t.loggedSome 0x0501 ∧
    ∀ k : Fin 8, s.trkRuns k = true → t.trkState k = 4 ∧ t.get (F.CAD_TRK_STS_halt_cause k) = 5)) ∧
  (∀ s : State, s.mode ≠ .supervise → s.mode ≠ .cold →
    Completes .pllLocked s (fun t => t.get F.CAD_STS_pll_lock = 1 ∧ ∀ k : Fin 8, t.trkState k = s.trkState k)) ∧
  (∀ (k : Fin 8) (s : State), s.trkState k = 3 →
    (max 1 (s.get (F.CAD_TRK_COAST_angle k)) * 4096 * 2 ^ 44 ≤ (s.trkT k).coastAng →
      Completes (.coastLimit k) s (fun t => t.trkState k = 4 ∧ t.get (F.CAD_TRK_STS_halt_cause k) = 1)) ∧
    ((s.trkT k).coastAng < max 1 (s.get (F.CAD_TRK_COAST_angle k)) * 4096 * 2 ^ 44 →
      max 1 (s.get (F.CAD_TRK_LIM_coast_time k)) * 2500 ≤ (s.trkT k).coastUpd →
      Completes (.coastLimit k) s (fun t => t.trkState k = 4 ∧ t.get (F.CAD_TRK_STS_halt_cause k) = 2))) ∧
  (∀ (k : Fin 8) (s : State), s.barOpen (R.CAD_TRK_CTL k) = true → s.trkState k = 4 → s.srcValid (s.get (F.CAD_TRK_CTL_src k)) = true → s.get F.CAD_STS_pll_lock = 1 →
    s.cad.run = true →
    Completes (.trackRearm k) s (fun t => t.trkState k = 1 ∧ (t.trkT k).rem = 0 ∧ t.get (F.CAD_TRK_STS_slewing k) = 0 ∧
      t.get (F.CAD_TRK_STS_halt_cause k) = 0)) ∧
  (∀ (k : Fin 8) (s : State), s.barOpen (R.CAD_TRK_CTL k) = true → s.trkState k = 4 → s.srcValid (s.get (F.CAD_TRK_CTL_src k)) = false →
    Completes (.trackRearm k) s (fun t => t = s))

/-- R189, R217, R221 to R225: one update counts and lets a coasting track run on at its velocity; a correction moves the estimate at once and
leaves what exceeds the largest step as remainder; a switch is accepted or rejected, takes effect, is aborted, or ends. -/
def Obligations.UpdatesCorrectionsAndSwitchesMoveTracks : Prop :=
  (∀ s : State, s.cad.run = true → s.get F.CAD_STS_pll_lock = 1 →
    Completes .trackUpdate s (fun t => t.updates = (s.updates + 1) % 2 ^ 64 ∧
      ∀ k : Fin 8, s.trkState k = 3 → s.overspeed k = false →
        (t.trkT k).obs.theta = (s.trkT k).obs.theta + BitVec.ofInt 113 ((s.trkT k).obs.omega * 32) ∧
        (t.trkT k).coastUpd = (s.trkT k).coastUpd + 1)) ∧
  (∀ (k : Fin 8) (a : BitVec 32) (s : State), s.barOpen (R.CAD_TRK_ADJ k) = true → s.cad.run = true → s.trkState k = 2 ∨ s.trkState k = 3 →
    a.toInt.natAbs ≤ s.get (F.CAD_TRK_STEP_step_max k) → (s.trkT k).rem.natAbs ≤ 2 ^ 39 →
    Completes (.trackAdjust k a) s (fun t => (t.trkT k).obs.theta = (s.trkT k).obs.theta + fine (BitVec.ofInt 64 a.toInt) ∧
      (t.trkT k).rem = (s.trkT k).rem ∧ t.get (F.CAD_TRK_OFS_offset k) = (s.get (F.CAD_TRK_OFS_offset k) + a.toNat) % 2 ^ 32)) ∧
  (∀ (k : Fin 8) (a : BitVec 32) (s : State), s.barOpen (R.CAD_TRK_ADJ k) = true → s.cad.run = true → s.trkState k = 2 ∨ s.trkState k = 3 →
    s.get (F.CAD_TRK_STEP_step_max k) < a.toNat → a.toNat < 2 ^ 31 → (s.trkT k).rem = 0 →
    Completes (.trackAdjust k a) s (fun t => (t.trkT k).rem = a.toNat - s.get (F.CAD_TRK_STEP_step_max k) ∧
      t.get (F.CAD_TRK_STS_slewing k) = 1)) ∧
  (∀ (k : Fin 8) (v : BitVec 32) (s : State), s.barOpen (R.CAD_TRK_SW k) = true → s.cad.run = true → s.switchBusy k = false →
    s.trkState k ≠ 0 → s.srcValid (v.toNat % 4) = true →
    Completes (.trackSwitchGo k v) s (fun t => t.get (F.CAD_TRK_SW_busy k) = 1 ∧ t.get (F.CAD_TRK_STS_switching k) = 1 ∧
      t.get (F.CAD_TRK_SW_result k) = 0 ∧ t.trkState k = s.trkState k)) ∧
  (∀ (k : Fin 8) (v : BitVec 32) (s : State), s.barOpen (R.CAD_TRK_SW k) = true → s.cad.run = true →
    s.srcValid (v.toNat % 4) = false ∨ s.trkState k = 0 ∨ s.switchBusy k = true →
    Completes (.trackSwitchGo k v) s (fun t => t.get (F.CAD_TRK_SW_result k) = 3 ∧ t.logged 0x0506 k ∧ t.cad = s.cad ∧
      t.get (F.CAD_TRK_SW_busy k) = s.get (F.CAD_TRK_SW_busy k) ∧ t.get (F.CAD_TRK_SW_timeout k) = s.get (F.CAD_TRK_SW_timeout k) ∧
      t.get (F.CAD_TRK_SW_src k) = s.get (F.CAD_TRK_SW_src k))) ∧
  (∀ (k : Fin 8) (o : Observer) (s : State), (s.trkT k).shadow = some o → 16 ≤ o.good → (s.trkT k).isReturn = false →
    (s.trkT k).swAlign = true → s.trkState k = 2 ∨ s.trkState k = 3 → s.coastCause k = 0 →
    Completes (.switchAcquired k) s (fun t => t.trkState k = 2 ∧ t.get (F.CAD_TRK_CTL_src k) = o.src % 4 ∧
      t.get (F.CAD_TRK_STS_switching k) = 0 ∧ (t.trkT k).shadow = none ∧ (t.trkT k).slewDone = true ∧ (t.trkT k).rem = (s.trkT k).rem)) ∧
  (∀ (k : Fin 8) (o : Observer) (s : State), (s.trkT k).shadow = some o → 16 ≤ o.good → s.coastCause k ≠ 0 →
    Completes (.switchAcquired k) s (fun t => t.trkState k = 4 ∧ t.get (F.CAD_TRK_STS_halt_cause k) = s.coastCause k ∧ t.logged 0x0503 k)) ∧
  (∀ (k : Fin 8) (o : Observer) (s : State), (s.trkT k).shadow = some o → (s.trkT k).isReturn = false →
    max 1 (s.get (F.CAD_TRK_SW_timeout k)) * 250000 ≤ (s.trkT k).swUpd →
    Completes (.switchAbort k) s (fun t => t.get (F.CAD_TRK_SW_result k) = 2 ∧ t.get (F.CAD_TRK_SW_busy k) = 0 ∧ t.logged 0x0506 k ∧
      t.get (F.CAD_TRK_CTL_src k) = s.get (F.CAD_TRK_CTL_src k) ∧ t.trkState k = s.trkState k)) ∧
  (∀ (k : Fin 8) (s : State), (s.trkT k).slewDone = true → (s.trkT k).rem = 0 → s.get (F.CAD_TRK_SW_busy k) = 1 →
    s.get (F.CAD_TRK_STS_switching k) = 0 →
    Completes (.slewComplete k) s (fun t => t.get (F.CAD_TRK_SW_busy k) = 0 ∧ t.get (F.CAD_TRK_SW_result k) = 1 ∧ t.logged 0x0505 k))

/-- R191 to R199, R211, R215, R219, R440, R441: how a source starts, counts edges, homes, takes fractions of vectors and samples, is lost and returns;
of a quadrature unit whose pin a higher claim has taken no edge counts, and the levels are those that the converters deliver. The
last clauses cover every edge and every measurement of an enabled source of its type; the levels of A (bit 0) and B run 0b00, 0b01, 0b11,
0b10 as X increases. -/
def Obligations.SourcesMeasureLoseAndReturn : Prop :=
  (∀ (n : Fin 4) (v : BitVec 32) (s : State), s.barOpen (R.CAD_SRC_CTL n) = true → s.get (F.CAD_SRC_CTL_enable n) = 0 → s.cad.run = true →
    v.toNat / 2 % 8 = 0 ∨ v.toNat / 2 % 8 = 4 ∨ v.toNat / 2 % 8 = 6 →
    Completes (.sourceEnable n v) s (fun t => t.get (F.CAD_SRC_CTL_enable n) = 1 ∧ t.srcValid n = true ∧
      t.get (F.CAD_SRC_CTL_type n) = v.toNat / 2 % 8)) ∧
  (∀ (n : Fin 4) (s : State), s.barOpen (R.CAD_SRC_CTL n) = true → s.get (F.CAD_SRC_CTL_enable n) = 1 →
    Completes (.sourceDisable n) s (fun t => t.get (F.CAD_SRC_CTL_enable n) = 0 ∧ t.srcValid n = false ∧
      ∀ k : Fin 8, s.get (F.CAD_TRK_CTL_src k) = n → s.trkState k = 2 → t.trkState k = 3)) ∧
  (∀ (n : Fin 4) (a b : Bool) (stamp : BitVec 64) (s : State), s.srcIs n 0 = true → s.qeiLost n = false →
    quadPlace (BitVec.ofNat 2 (a.toNat + 2 * b.toNat)) = (quadPlace (s.cadSrc n).ab + 1) % 4 → s.get (F.CAD_SRC_CTL_dir_inv n) = 0 →
    Completes (.quadEdge n a b stamp) s (fun t => t.srcX n = s.srcX n + BitVec.ofNat 76 (2 ^ 44))) ∧
  (∀ (n : Fin 4) (a b : Bool) (stamp : BitVec 64) (s : State), s.srcIs n 0 = true → s.qeiLost n = false →
    quadPlace (BitVec.ofNat 2 (a.toNat + 2 * b.toNat)) = (quadPlace (s.cadSrc n).ab + 2) % 4 → s.srcValid n = true →
    Completes (.quadEdge n a b stamp) s (fun t => t.srcX n = s.srcX n ∧ t.get (F.CAD_SRC_STS_illegal n) = 1 ∧ t.srcValid n = false ∧
      t.logged 0x050B n)) ∧
  (∀ (n : Fin 4) (stamp : BitVec 64) (s : State), s.srcIs n 4 = true → s.qeiLost n = false →
    Completes (.pulseEdge n stamp) s (fun t => t.srcX n = if s.get (F.CAD_SRC_CTL_dir_inv n) = 0 then s.srcX n + BitVec.ofNat 76 (2 ^ 44)
      else s.srcX n - BitVec.ofNat 76 (2 ^ 44))) ∧
  (∀ (n : Fin 4) (s : State), s.get (F.CAD_SRC_CTL_enable n) = 1 → s.get (F.CAD_SRC_CTL_z_en n) = 1 → s.srcDigital n = true → s.qeiLost n = false →
    Completes (.indexEdge n) s (fun t => t.rd (R.CAD_SRC_ZCAP n) = s.rd (R.CAD_SRC_POS_HI n) ∧
      (s.get (F.CAD_SRC_CTL_z_home n) = 1 → s.get (F.CAD_SRC_STS_homed n) = 0 →
        t.rd (R.CAD_SRC_POS_HI n) = s.rd (R.CAD_SRC_ZHOME n) ∧ t.rd (R.CAD_SRC_POS_LO n) = s.rd (R.CAD_SRC_POS_LO n) ∧
        t.get (F.CAD_SRC_STS_homed n) = 1 ∧ t.logged 0x0508 n))) ∧
  (∀ (n : Fin 4) (a b : BitVec 16) (neg : Bool) (stamp : BitVec 64) (s : State), s.srcIs n 1 = true → (s.cadSrc n).frac = none →
    Completes (.analogMeasurement n a b neg stamp) s (fun t =>
      let amp := (s.levelA n a * s.levelA n a + s.levelB n b * s.levelB n b).natAbs
      if amp < (256 * s.get (F.CAD_SRC_LOSS_lo n)) ^ 2 ∨ (256 * s.get (F.CAD_SRC_LOSS_hi n)) ^ 2 < amp then
        t.srcX n = s.srcX n ∧ t.get (F.CAD_SRC_STS_amp_fault n) = 1 ∧ t.logged 0x050C n
      else t.rd (R.CAD_SRC_POS_LO n) = vectorAngle (s.levelB n b) (s.levelA n a))) ∧
  (∀ (n : Fin 4) (code : BitVec 16) (stamp : BitVec 64) (k : Nat) (s : State), s.srcIs n 3 = true → s.get (F.CAD_SRC_ANA_b_en n) = 0 →
    (List.range 8).find? (fun k => s.get (F.CAD_TRK_CTL_src k) = n.val ∧ 2 ≤ s.trkState k) = some k →
    Completes (.mainsSingleSample n code stamp) s (fun t =>
      let angle := s.angleAt k stamp.toNat
      let pred := Config.mainsPredicted n angle
      if pred.natAbs < 256 * s.get (F.CAD_SRC_LOSS_hi n) then (t.cadSrc n).bad = (s.cadSrc n).bad ∧ (t.cadSrc n).good = (s.cadSrc n).good ∧
        t.rd (R.CAD_SRC_POS_LO n) = Config.mainsFraction (s.levelA n code) angle
      else if 256 * s.get (F.CAD_SRC_LOSS_hi n) < (s.levelA n code - pred).natAbs then
        t.srcX n = s.srcX n ∧ (t.cadSrc n).bad = (s.cadSrc n).bad + 1 ∧ (t.cadSrc n).good = 0
      else t.rd (R.CAD_SRC_POS_LO n) = Config.mainsFraction (s.levelA n code) angle)) ∧
  (∀ (n : Fin 4) (code : BitVec 16) (stamp : BitVec 64) (u : Int) (at0 : Int) (s : State), s.srcIs n 3 = true → s.get (F.CAD_SRC_ANA_b_en n) = 0 →
    (List.range 8).find? (fun k => s.get (F.CAD_TRK_CTL_src k) = n.val ∧ 2 ≤ s.trkState k) = none → (s.cadSrc n).sample = some (u, at0) →
    Completes (.mainsSingleSample n code stamp) s (fun t => (t.cadSrc n).sample = some (s.levelA n code, (stamp.toNat : Int)) ∧
      (u < 0 ∧ 0 ≤ s.levelA n code → t.rd (R.CAD_SRC_POS_LO n) = 0 ∧ t.rd (R.CAD_SRC_POS_HI n) =
        if (s.rd (R.CAD_SRC_POS_LO n)).getLsbD 31 = true then s.rd (R.CAD_SRC_POS_HI n) + 1 else s.rd (R.CAD_SRC_POS_HI n)) ∧
      (0 ≤ u ∧ s.levelA n code < 0 → t.rd (R.CAD_SRC_POS_LO n) = BitVec.ofNat 32 (2 ^ 31)) ∧
      ((u < 0 ↔ s.levelA n code < 0) → t.srcX n = s.srcX n))) ∧
  (∀ (n : Fin 4) (s : State), s.srcIs n 3 = true → s.get (F.CAD_SRC_ANA_b_en n) = 0 →
    s.adcOn (s.get (F.CAD_SRC_ANA_conv_a n)) = true → s.get (F.ADC_STS_busy (s.get (F.CAD_SRC_ANA_conv_a n))) = 0 →
    Completes (.analogSourceTrigger n) s (fun t => t.get (F.ADC_STS_busy (s.get (F.CAD_SRC_ANA_conv_a n))) = 1 ∧ t.cad = s.cad)) ∧
  (∀ (n : Fin 4) (s : State), s.srcValid n = true → s.srcIs n 1 = true → (s.cadSrc n).bad ≠ 0 →
    s.lossInTime n = true →
    Completes (.sourceLost n) s (fun t => t.srcValid n = false ∧ t.get (F.CAD_SRC_STS_lost n) = 1 ∧ t.logged 0x0502 n ∧
      ∀ k : Fin 8, s.get (F.CAD_TRK_CTL_src k) = n → s.trkState k = 2 → t.trkState k = 3 ∧ t.get (F.CAD_TRK_STS_lost k) = 1)) ∧
  (∀ (n : Fin 4) (s : State), s.srcValid n = false → s.get (F.CAD_SRC_CTL_enable n) = 1 → 16 ≤ (s.cadSrc n).good →
    Completes (.sourceReturn n) s (fun t => t.srcValid n = true)) ∧
  (∀ (n : Fin 4) (a b : Bool) (stamp : BitVec 64) (s : State), s.srcIs n 0 = true → s.qeiLost n = false →
    Completes (.quadEdge n a b stamp) s (fun t =>
      let step := (quadPlace (BitVec.ofNat 2 (a.toNat + 2 * b.toNat)) + 4 - quadPlace (s.cadSrc n).ab) % 4
      (t.cadSrc n).ab = BitVec.ofNat 2 (a.toNat + 2 * b.toNat) ∧
      (step = 0 ∨ step = 2 → t.srcX n = s.srcX n) ∧
      (step = 1 ∨ step = 3 → t.srcX n = if step = 1 ↔ s.get (F.CAD_SRC_CTL_dir_inv n) = 0 then s.srcX n + BitVec.ofNat 76 (2 ^ 44)
        else s.srcX n - BitVec.ofNat 76 (2 ^ 44)) ∧
      (step = 2 → t.get (F.CAD_SRC_STS_illegal n) = 1 ∧ t.srcValid n = false ∧ t.logged 0x050B n))) ∧
  (∀ (n : Fin 4) (stamp : BitVec 64) (s : State), s.srcIs n 4 = true → s.qeiLost n = false → s.get (F.CAD_SRC_CTL_dir_inv n) = 0 →
    Completes (.pulseEdge n stamp) s (fun t => t.srcX n = s.srcX n + BitVec.ofNat 76 (2 ^ 44) ∧ (t.cadSrc n).good = (s.cadSrc n).good + 1)) ∧
  (∀ (n : Fin 4) (stamp : BitVec 64) (s : State), s.srcIs n 4 = true → s.qeiLost n = false → s.get (F.CAD_SRC_CTL_dir_inv n) = 1 →
    Completes (.pulseEdge n stamp) s (fun t => t.srcX n = s.srcX n - BitVec.ofNat 76 (2 ^ 44) ∧ (t.cadSrc n).good = (s.cadSrc n).good + 1)) ∧
  (∀ (n : Fin 4) (s : State), s.get (F.CAD_SRC_CTL_enable n) = 1 → s.get (F.CAD_SRC_CTL_z_en n) = 1 → s.srcDigital n = true → s.qeiLost n = false →
    (s.get (F.CAD_SRC_CTL_z_home n) = 0 ∨ s.get (F.CAD_SRC_STS_homed n) = 1 →
      Completes (.indexEdge n) s (fun t => t.rd (R.CAD_SRC_ZCAP n) = s.rd (R.CAD_SRC_POS_HI n) ∧ t.srcX n = s.srcX n ∧
        (t.cadSrc n).zLast = some (s.rd (R.CAD_SRC_POS_HI n)))) ∧
    (s.get (F.CAD_SRC_CTL_z_home n) = 1 → s.get (F.CAD_SRC_STS_homed n) = 0 →
      Completes (.indexEdge n) s (fun t => t.rd (R.CAD_SRC_ZCAP n) = s.rd (R.CAD_SRC_POS_HI n) ∧
        t.rd (R.CAD_SRC_POS_HI n) = s.rd (R.CAD_SRC_ZHOME n) ∧ t.get (F.CAD_SRC_STS_homed n) = 1 ∧ t.logged 0x0508 n))) ∧
  (∀ (n : Fin 4) (a b : BitVec 16) (neg : Bool) (stamp : BitVec 64) (type : Nat) (s : State), s.srcIs n type = true →
    type = 1 ∨ type = 2 ∨ (type = 3 ∧ s.get (F.CAD_SRC_ANA_b_en n) = 1) →
    Completes (.analogMeasurement n a b neg stamp) s (fun t =>
      let g : Int := if type = 2 ∧ neg = true then -1 else 1
      let u := g * s.levelA n a
      let v := g * s.levelB n b
      let amp := if type = 3 then (4 * (u * u + u * v + v * v)).natAbs else (u * u + v * v).natAbs
      let den := if type = 3 then 9 else 1
      let angle := if type = 3 then mainsAngle u v else vectorAngle v u
      let jump := match (s.cadSrc n).frac with
        | none => 0
        | some f => (angle - f).toInt.natAbs
      if amp < (256 * s.get (F.CAD_SRC_LOSS_lo n)) ^ 2 * den ∨ (256 * s.get (F.CAD_SRC_LOSS_hi n)) ^ 2 * den < amp then
        t.srcX n = s.srcX n ∧ t.get (F.CAD_SRC_STS_amp_fault n) = 1 ∧ t.logged 0x050C n ∧ (t.cadSrc n).bad = (s.cadSrc n).bad + 1
      else if 2 ^ 30 ≤ jump then t.srcX n = s.srcX n ∧ t.get (F.CAD_SRC_STS_unwrap n) = 1 ∧ t.logged 0x050C n
      else t.rd (R.CAD_SRC_POS_LO n) = angle ∧ (t.cadSrc n).frac = some angle ∧ (t.cadSrc n).good = (s.cadSrc n).good + 1)) ∧
  (∀ (n : Fin 4) (a b : Bool) (stamp : BitVec 64) (s : State), s.qeiLost n = true →
    Completes (.quadEdge n a b stamp) s (fun t => t = s) ∧ Completes (.pulseEdge n stamp) s (fun t => t = s) ∧
    Completes (.indexEdge n) s (fun t => t = s))

/-! ## Spoke units and converters (chapter 08) -/

/-- R237, R242, R245, R428: an entry from EREQ or the host goes behind the queue and is counted as written; a unit that drops counts it as dropped too;
a full queue discards a host push; a retired unit takes none; snap, flush and disable. The host's accesses reach the unit while its clock runs (R181). -/
def Obligations.SpokeUnitsQueueCountAndDropEntries : Prop :=
  (∀ (u : Fin 48) (dt : Fin 4000) (v : Nat) (s : State), s.spkTakes u = true → s.inValue (chEreq u) 32 = some v →
    (s.spkDrops u = false → (s.spkU u).queue.length < 64 → (s.spkU u).queue ≠ [] → s.get (F.SPK_STS_armed u) = 1 →
      Completes (.spokeEreq u dt) s (fun t => (t.spkU u).queue = (s.spkU u).queue ++ [BitVec.ofNat 64 v] ∧
        (t.spkU u).written = (s.spkU u).written + 1 ∧ (t.spkU u).dropped = (s.spkU u).dropped)) ∧
    (s.spkDrops u = true →
      Completes (.spokeEreq u dt) s (fun t => (t.spkU u).queue = (s.spkU u).queue ∧ (t.spkU u).written = (s.spkU u).written + 1 ∧
        (t.spkU u).dropped = (s.spkU u).dropped + 1))) ∧
  (∀ (u : Fin 48) (dt : Fin 4000) (s : State), s.spkRetired u = true → Completes (.spokeEreq u dt) s (fun t => t = s)) ∧
  (∀ (u : Fin 48) (dt : Fin 4000) (v : BitVec 32) (s : State), s.spkRetired u = false → s.barOpen (R.SPK_PUSH_HI u) = true → s.spkTakes u = true → s.spkDrops u = false →
    ((s.spkU u).queue.length < 64 → (s.spkU u).queue ≠ [] → s.get (F.SPK_STS_armed u) = 1 →
      Completes (.spkPushHi u dt v) s (fun t => (t.spkU u).queue = (s.spkU u).queue ++ [v ++ (s.spkU u).pushLo] ∧
        (t.spkU u).written = (s.spkU u).written + 1)) ∧
    ((s.spkU u).queue.length = 64 →
      Completes (.spkPushHi u dt v) s (fun t => t.get (F.SPK_STS_push_lost u) = 1 ∧ t.spk = s.spk))) ∧
  (∀ (u : Fin 48) (s : State), s.spkRetired u = false → s.barOpen (R.SPK_CTL u) = true →
    Completes (.spokeSnap u) s (fun t => t.rd (R.SPK_WRITTEN u) = (s.spkU u).written ∧ t.rd (R.SPK_FIRED u) = (s.spkU u).fired ∧
      t.rd (R.SPK_DROPPED u) = (s.spkU u).dropped ∧ t.spk = s.spk) ∧
    Completes (.spokeFlush u) s (fun t => (t.spkU u).queue = [] ∧
      (t.spkU u).dropped = (s.spkU u).dropped + BitVec.ofNat 32 (s.spkU u).queue.length ∧ (t.spkU u).pads = (s.spkU u).pads) ∧
    Completes (.spokeDisable u) s (fun t => t.get (F.SPK_CTL_enable u) = 0 ∧ (t.spkU u).queue = [] ∧
      (t.spkU u).dropped = (s.spkU u).dropped + BitVec.ofNat 32 (s.spkU u).queue.length ∧ (t.spkU u).ticks = [] ∧ (t.spkU u).deadlines = [] ∧
      ((s.spkU u).out = true → t.get (F.SPK_STS_parked u) = 1)))

/-- R236, R239, R246, R250, Table 08.3: the last armed entry of a queue fires once the estimate has reached its stamp while moving in its direction
(a late one at its slot, R241): EDGE drives a single-ended output in its mask to its level, TICK adds a tick, TRIG starts its converter or is held
during a conversion, NOP does nothing more; the entry leaves the queue and is counted as fired. -/
def Obligations.ArmedEntriesFireByTheirKind : Prop :=
  ∀ (u : Fin 48) (dt : Fin 4000) (e : BitVec 64) (s : State), (s.spkU u).queue = [e] → s.spkArmable u = true →
    s.get (F.SPK_STS_armed u) = 1 → (s.spkU u).firedNow < 4 →
    (∃ slot, (s.spkU u).lateAt = some slot ∧ slot * 125 ≤ s.updates * 4000 + dt) ∨
      ((s.spkU u).lateAt = none ∧ s.aheadFine (s.get (F.SPK_CTL_track u)) dt (entryStamp e) (entryDir e) ≤ 0 ∧
        -(2 ^ 38 * 16384000) < s.aheadFine (s.get (F.SPK_CTL_track u)) dt (entryStamp e) (entryDir e) ∧
        s.movingDir (s.get (F.SPK_CTL_track u)) (entryDir e) = true) →
    (entryKind e = 0 → Completes (.edge u dt) s (fun t => (t.spkU u).queue = [] ∧ (t.spkU u).fired = (s.spkU u).fired + 1 ∧
      t.get (F.SPK_STS_parked u) = 0 ∧
      ∀ p : Fin 8, bitOf (entryArg0 e) p = true → s.pinOut u p = true → s.isDiff u (p / 2) = false → s.interlocked u (p / 2) = false →
        s.on (F.SPK_PAD_short u p) = false → s.get (F.BANK_CFG_vio_ok (u / 6)) = 1 →
        t.pad u p = if bitOf (entryArg1 e) p then .high else .low)) ∧
    (entryKind e = 1 → (s.ticksOf u (entryArg0 e % 16)).length < 4 → s.monActive u (entryArg0 e % 16) = false →
      Completes (.tick u dt) s (fun t => (t.spkU u).queue = [] ∧ (t.spkU u).fired = (s.spkU u).fired + 1 ∧
        t.ticksOf u (entryArg0 e % 16) = s.ticksOf u (entryArg0 e % 16) ++ [BitVec.ofNat 2 (entryArg0 e / 16)])) ∧
    (entryKind e = 2 → s.get (F.ADC_CTL_enable (entryArg0 e % 8)) = 1 → s.get (F.ADC_CTL_unit (entryArg0 e % 8)) < 48 →
      s.get (F.ADC_STS_held (entryArg0 e % 8)) = 0 → (s.adcC (entryArg0 e % 8)).held = none → (s.adcC (entryArg0 e % 8)).out = true →
      Completes (.trig u dt) s (fun t => (t.spkU u).queue = [] ∧ (t.spkU u).fired = (s.spkU u).fired + 1 ∧
        t.get (F.ADC_STS_busy (entryArg0 e % 8)) = 1 ∧
        (s.get (F.ADC_STS_busy (entryArg0 e % 8)) = 0 → (t.adcC (entryArg0 e % 8)).mux = BitVec.ofNat 2 (entryArg0 e / 8)) ∧
        (s.get (F.ADC_STS_busy (entryArg0 e % 8)) = 1 → t.get (F.ADC_STS_pend (entryArg0 e % 8)) = 1 ∧
          (t.adcC (entryArg0 e % 8)).held = some (BitVec.ofNat 2 (entryArg0 e / 8))))) ∧
    (entryKind e = 3 → Completes (.nop u dt) s (fun t => (t.spkU u).queue = [] ∧ (t.spkU u).fired = (s.spkU u).fired + 1 ∧
      (t.spkU u).pads = (s.spkU u).pads ∧ t.adc = s.adc))

/-- R246 to R250, R252: ticks and records give way to the next once taken; a completion closes the oldest deadline with its slack, a deadline
that the estimate reaches in its direction is missed once; each cluster passes its samples on; a filtered edge makes a record; a converter starts, completes and delivers. -/
def Obligations.MonitorsCapturesAndConvertersReport : Prop :=
  (∀ (u : Fin 48) (k : Fin 16) (s : State), s.outTaken (chTick u k) 1 = true →
    Completes (.tickDeliver u k) s (fun t => t.ticksOf u k = (s.ticksOf u k).tail)) ∧
  (∀ (u : Fin 48) (k : Fin 16) (dt : Fin 4000) (d : Deadline) (ds : List Deadline) (s : State), (s.spkU u).out = true → s.spkRetired u = false →
    (s.inValue (chDone u k) 1).isSome = true → s.halted = false → s.deadlinesOf u k = d :: ds → d.d ≠ 0 →
    Completes (.doneCompletion u k dt) s (fun t => t.deadlinesOf u k = ds ∧
      t.getS ⟨R.SPK_SLACK u (k / 2), 16 * (k % 2), 16⟩ =
        slackFraction (ahead d.l (s.estimate (s.get (F.SPK_CTL_track u)) dt) d.dir) d.d.toNat)) ∧
  (∀ (u : Fin 48) (k : Fin 16) (dt : Fin 4000) (s : State), (s.spkU u).out = true → s.spkRetired u = false → (s.inValue (chDone u k) 1).isSome = true →
    s.halted = false → s.deadlinesOf u k = [] →
    Completes (.doneCompletion u k dt) s (fun t => bitOf (t.get (F.SPK_TICK_STS_spur u)) k = true)) ∧
  (∀ (u : Fin 48) (k : Fin 16) (dt : Fin 4000) (d : Deadline) (ds : List Deadline) (s : State), s.halted = false →
    s.deadlinesOf u k = d :: ds → d.d ≠ 0 → d.missed = false →
    s.aheadFine (s.get (F.SPK_CTL_track u)) dt d.l d.dir ≤ 0 → -(2 ^ 38 * 16384000) < s.aheadFine (s.get (F.SPK_CTL_track u)) dt d.l d.dir →
    s.movingDir (s.get (F.SPK_CTL_track u)) d.dir = true →
    Completes (.deadlineMiss u k dt) s (fun t => t.deadlinesOf u k = { d with missed := true } :: ds ∧
      t.get (F.SPK_MON_CNT_miss u) = min (s.get (F.SPK_MON_CNT_miss u) + 1) (2 ^ (F.SPK_MON_CNT_miss u).w - 1))) ∧
  (∀ s : State, s.halted = false →
    Completes .slackTransfer s (fun t =>
      (∀ u : Fin 48, if s.unitQuiet u then t.spkU u = s.spkU u else (t.spkU u).sample = none ∧ (t.spkU u).misses = 0) ∧
      t.pwr.samples = s.pwr.samples +
        ((List.range 12).filter (fun i => (List.range 4).any (fun j => ! s.unitQuiet (4 * i + j) && (s.spkU (4 * i + j)).sample.isSome))).length +
        ((List.range 48).map (fun u => if s.unitQuiet u then 0 else (s.spkU u).misses)).sum)) ∧
  (∀ (u : Fin 48) (p : Fin 8) (level : Bool) (dt : Fin 4000) (s : State), s.pinOut u p = false → (s.spkU u).out = true →
    s.get (F.BANK_CFG_vio_ok (u / 6)) = 1 → s.isDiff u (p / 2) = false → (s.spkU u).captures.length < 16 → s.trkState (s.get (F.SPK_CTL_track u)) = 2 →
    s.on (if level then F.SPK_PINCFG_cap_rise u (p / 4) (p % 4) else F.SPK_PINCFG_cap_fall u (p / 4) (p % 4)) = true →
    Completes (.captureEdge u p level dt) s (fun t => t.get (F.SPK_PINCFG_level u (p / 4) (p % 4)) = level.toNat ∧
      (t.spkU u).captures = (s.spkU u).captures ++ [captureRecord (s.estimate (s.get (F.SPK_CTL_track u)) ((dt + 62) / 125 * 125)) p level true])) ∧
  (∀ (u : Fin 48) (s : State), s.outTaken (chCap u) 24 = true →
    Completes (.captureRecordTaken u) s (fun t => (t.spkU u).captures = (s.spkU u).captures.tail)) ∧
  (∀ (c : Fin 8) (dt : Fin 4000) (v : Nat) (s : State), s.get (F.ADC_CTL_enable c) = 1 → s.get (F.ADC_CTL_soc_en c) = 1 → s.slotOwner c = true →
    s.spkTakes (s.get (F.ADC_CTL_unit c)) = true → s.inValue (chSoc (s.get (F.ADC_CTL_unit c)) (s.get (F.ADC_CTL_slot c))) 1 = some v →
    s.get (F.ADC_STS_held c) = 0 → s.get (F.ADC_STS_busy c) = 0 → (s.adcC c).out = true →
    Completes (.socTrigger c dt) s (fun t => t.get (F.ADC_STS_busy c) = 1 ∧ (t.adcC c).mux = BitVec.ofNat 2 v)) ∧
  (∀ (c : Fin 8) (code : BitVec 16) (s : State), s.get (F.ADC_STS_busy c) = 1 →
    s.get (F.PIN_CFG_claim (muxPin c (s.adcC c).mux.toNat)) = 7 →
    Completes (.conversionComplete c code) s (fun t => t.get (F.ADC_LAST_code c) = code.toNat ∧
      t.get (F.ADC_LAST_mux c) = (s.adcC c).mux.toNat ∧ (t.adcC c).held = none ∧
      t.get (F.ADC_STS_busy c) = (if (s.adcC c).held.isSome then 1 else 0) ∧ ∀ m, (s.adcC c).held = some m → (t.adcC c).mux = m)) ∧
  (∀ (c : Fin 8) (s : State), s.outTaken (chRes (s.get (F.ADC_CTL_unit c)) (s.get (F.ADC_CTL_slot c))) 9 = true →
    (s.adcC c).offered = true →
    Completes (.resultTaken c) s (fun t => (t.adcC c).results = (s.adcC c).results.tail)) ∧
  (∀ (c : Fin 8) (s : State), (s.adcC c).offered = false →
    Completes (.resultTaken c) s (fun t => (t.adcC c).results = (s.adcC c).results))

/-! ## Loads (chapters 09 and 10) -/

/-- R271, R272, R278, R280, R281: the start of a full load clears the configuration and asserts set-reset everywhere; the self-test goes on or gives
HOLD with cause 6; a manifest and a chunk from the host are accepted when their checks pass, else the golden image follows; with Bus Master Enable
0 (R374) the host's bytes wait. In the state of R30 no load goes on. -/
def Obligations.FullLoadsClearTheFabricAndCheckWhatTheyTake : Prop :=
  (∀ (l : Load) (s : State), s.ldr.load = some l → l.step = .entered → s.latched = false →
    Completes .fullLoadStart s (fun t => t.ldr.load = some { l with step := .manifest } ∧ t.get F.LDR_STS_phases = 0 ∧
      t.ldr.segs = [] ∧ t.fab.setReset = 0xFFFF ∧ t.fab.wen = 0 ∧ t.cad.run = false ∧ t.get F.LDR_FRAMES_count = 0 ∧
      t.get F.LDR_STS_source = l.source.toNat ∧ t.loggedSome 0x0201 ∧
      ∀ n : Fin 16, t.regionState n = if t.regionRetired n then 6 else 3)) ∧
  (∀ (l : Load) (wrOk : Bool) (s : State), s.ldr.load = some l → s.latched = false → l.step ≠ .entered → l.selftest = false →
    (s.mapView.ok = true →
      Completes (.startupSelftestDone [] wrOk) s (fun t => t.ldr.load = some { l with selftest := true } ∧ t.mode = s.mode)) ∧
    (s.mapView.ok = false → s.mode = .load →
      Completes (.startupSelftestDone [] wrOk) s (fun t => t.mode = .hold ∧ t.get F.SUP_MODE_hold_cause = 6 ∧ t.ldr.load = none))) ∧
  (∀ (l : Load) (h : List Byte) (s : State), s.ldr.load = some l → s.latched = false → l.step = .manifest → s.get F.CAD_STS_pll_lock = 1 → l.source = 3 →
    l.region = false → l.store = false → s.hif.bme = true → 5696 ≤ h.length →
    Completes (.manifestVerified (some h)) s (fun t =>
      let v : ManView := ⟨h.take 64, slice h 64 5632⟩
      let code := manifestCode s.fuseView v false l.set.toNat
      if code = 0 then t.ldr.load = some { l.accept s.fuseView v with base := 0 } ∧ t.mode = s.mode
      else t.get F.LDR_ERR_code = code ∧ t.get F.LDR_ERR_status = codeStatus code ∧ t.get F.LDR_STS_source = 2 ∧
        t.get F.LDR_STS_fallback = 1 ∧ t.fab.nodes = [])) ∧
  (∀ (l : Load) (raw : List Byte) (s : State), s.ldr.load = some l → s.latched = false → l.step = .stream → l.selftest = true → l.source = 3 →
    l.region = false → l.store = false → SMap.get (fun _ => none) s.flt.streams l.base = none → l.next + 1 < l.chunks → l.next < 65535 →
    s.hif.bme = true →
    Completes (.chunkReceived (some raw)) s (fun t =>
      let c := l.chunkCheck raw
      let bs := l.carry ++ c.2.take (c.2.length - 48)
      let r := s.loadRecords (bs.length + 2) l bs l.next (if l.carry.isEmpty then l.next else l.carryChunk) false
      let code := if c.1 ≠ 0 then c.1 else r.2.2
      if code = 0 then ∃ m, t.ldr.load = some m ∧ m.next = l.next + 1 ∧ m.expect = c.2.drop (c.2.length - 48) ∧
        m.key = (segmentKey r.2.1.key l.next r.2.1.nonce).1 ∧ t.fab = r.1.fab
      else t.get F.LDR_ERR_code = code % 256 ∧ t.get F.LDR_ERR_chunk = l.next ∧ t.get F.LDR_STS_fallback = 1)) ∧
  (∀ (l : Load) (h : Option (List Byte)) (s : State), s.ldr.load = some l → l.source = 3 → s.hif.bme = false →
    Completes (.manifestVerified h) s (fun t => t = s) ∧ Completes (.chunkReceived h) s (fun t => t = s))

/-- R274 to R277: the segments of the one-driver table that other frames hold refuse a frame with code 0x0E; a frame of a region outside the set
is refused with 0x0D; one of a retired region is skipped and counted; any other is written, counted, and enters its region's CRC. -/
def Obligations.FramesAreWrittenSkippedOrRefused : Prop :=
  ∀ (l : Load) (addr : Nat) (f : Frame) (r : RepairRec) (s : State),
    (l.set.getLsbD (addr / 65536 % 16) = false → (s.loadFrame l addr f r).2.2 = 0x0D ∧ (s.loadFrame l addr f r).1.fab = s.fab) ∧
    (frameLegal addr = true → l.set.getLsbD (addr / 65536 % 16) = true → s.regionRetired (addr / 65536 % 16) = true →
      (s.loadFrame l addr f r).2.2 = 0 ∧ (s.loadFrame l addr f r).1.fab = s.fab ∧
      (s.loadFrame l addr f r).1.get F.LDR_SKIPPED_count = (s.get F.LDR_SKIPPED_count + 1) % 2 ^ F.LDR_SKIPPED_count.w) ∧
    (frameLegal addr = true → l.set.getLsbD (addr / 65536 % 16) = true → s.regionRetired (addr / 65536 % 16) = false →
      let n := addr / 65536 % 16
      match segsTake s.ldr.segs (frameSegs n (addr / 256 % 256) (addr % 256) (s.frame n (addr / 256 % 256) (addr % 256)))
        (frameSegs n (addr / 256 % 256) (addr % 256) f) with
      | none => (s.loadFrame l addr f r).2.2 = 0x0E ∧ (s.loadFrame l addr f r).1.fab = s.fab ∧
          (s.loadFrame l addr f r).1.get F.LDR_ERRPOS_addr = addr % 2 ^ F.LDR_ERRPOS_addr.w
      | some t => (s.loadFrame l addr f r).2.2 = 0 ∧ (s.loadFrame l addr f r).1.ldr.segs = t ∧
          (s.loadFrame l addr f r).1.fab = ((s.setLdr { s.ldr with segs := t }).frameWrite addr f).fab ∧
          (s.loadFrame l addr f r).1.get F.LDR_FRAMES_count = (s.get F.LDR_FRAMES_count + 1) % 2 ^ F.LDR_FRAMES_count.w)

/-- R285 to R287: the LOCK phase ends when its conditions hold or late; the wait after a phase leads to the next one; after the last the module
runs, in LIMP where a unit is retired. -/
def Obligations.StartUpPhasesLeadToRun : Prop :=
  (∀ (l : Load) (s : State), s.lockLoad = some l → l.image.waits.getD l.pos 0 ≠ 0 →
    (s.lockDone (lockGroups l.settings) = true →
      Completes .lockPhaseComplete s (fun t => t.ldr.load = some { l with phaseDone := true } ∧ bitOf (t.get F.LDR_STS_phases) 0 = true)) ∧
    Completes .lockTimeout s (fun t => t.ldr.load = some { l with phaseDone := true } ∧ bitOf (t.get F.LDR_STS_phases) 0 = true ∧
      t.get F.LDR_STS_lock_late = 1 ∧ t.loggedSome 0x0207)) ∧
  (∀ (l : Load) (s : State), s.ldr.load = some l → s.latched = false → l.step = .startup → l.phaseDone = true →
    (l.pos < 3 → phaseAt l.order (l.pos + 1) = 3 → l.image.waits.getD (l.pos + 1) 0 ≠ 0 →
      Completes .phaseWaitExpiry s (fun t => bitOf (t.get F.LDR_STS_phases) 3 = true ∧ t.ldr.load = some { l with pos := l.pos + 1 } ∧
        ∀ n : Fin 16, n.val ∈ s.liveOf l.set.toNat → t.fab.wen.getLsbD n = true)) ∧
    (l.pos < 3 → phaseAt l.order (l.pos + 1) = 2 → l.image.waits.getD (l.pos + 1) 0 ≠ 0 → listEntries l.settings 8 = [] →
      Completes .phaseWaitExpiry s (fun t => bitOf (t.get F.LDR_STS_phases) 2 = true ∧ t.ldr.load = some { l with pos := l.pos + 1 } ∧
        ∀ n : Fin 16, n.val ∈ s.liveOf l.set.toNat → t.fab.setReset.getLsbD n = false)) ∧
    (l.pos = 3 →
      Completes .phaseWaitExpiry s (fun t => t.mode = (if s.anyRetired then .limp else .run) ∧ t.ldr.load = none ∧ t.loggedSome 0x0202 ∧
        t.ldr.full = some l.image)))

/-- R297 to R306: a region load begins when its regions allow it; a region is isolated for it, or by command; an activation runs its phases and
ends with de-isolation. -/
def Obligations.RegionsAreLoadedIsolatedAndActivated : Prop :=
  (∀ (d : AdminDesc) (src : CmdSrc) (s : State), s.running = true → s.hif.accepted = [⟨src, d⟩] →
    s.setCompares d.set = false →
    (d.op = 0x11 → d.fromEntry = true → s.regionLoads = false → s.setIn d.set [0, 1, 2, 5] = true → s.unitOk 7 = true →
      Completes (.loadPartial []) s (fun t => t.logged 0x0210 d.set ∧ t.get F.LDR_STS_state = 7 ∧
        ∃ l, t.ldr.regionLoad = some l ∧ l.step = .manifest ∧ l.set.toNat = d.set ∧ l.activate = d.arg0.getLsbD 16 ∧ l.src = some src)) ∧
    (d.op = 0x13 → s.setIn d.set [1] = true → s.setLoads d.set = false → (∀ n : Fin 16, s.get (F.REGION_COLMAP_moving n) = 0) →
      Completes .isolateRegion s (fun t => t.logged 0x0213 d.set ∧ (∀ n : Fin 16, n.val ∈ s.liveOf d.set → t.fab.setReset.getLsbD n = true) ∧
        ((∀ a ∈ s.flt.repairs, bitOf d.set (a / 65536) = false) → ∀ n : Fin 16, n.val ∈ s.liveOf d.set → t.regionState n = 2))) ∧
    (d.op = 0x12 → s.setIn d.set [2] = true → s.setLoads d.set = false → s.sameStart d.set = true →
      Completes .activateRegion s (fun t => ∀ n : Fin 16, n.val ∈ s.liveOf d.set → t.regionState n = 4)) ∧
    (d.op = 0x13 → s.setIn d.set [1] = false ∨ s.setLoads d.set = true → src = .mailbox → (∀ n : Fin 16, s.get (F.REGION_COLMAP_moving n) = 0) →
      Completes .isolateRegion s (fun t => t.get F.HIF_MBOX_CMD_status = 3 ∧ t.get F.HIF_MBOX_CMD_busy = 0 ∧ t.fab = s.fab))) ∧
  (∀ (n : Fin 16) (l : Load) (s : State), s.ldr.regionLoad = some l → s.latched = false → l.step = .isolate → l.waiting.getLsbD n = true →
    s.get (F.REGION_COLMAP_moving n) = 0 → s.regionRetired n = false →
    Completes (.regionIsolateStep n) s (fun t => t.regionState n = 3 ∧ t.fab.setReset.getLsbD n = true ∧
      (t.fab.frames.all (fun e => e.1 / 65536 != n)) = true ∧ (∀ k : Fin 32, t.get (F.REGION_WDG_CTL_enable n k) = 0) ∧
      ∃ m, t.ldr.regionLoad = some m ∧ m.waiting.getLsbD n = false)) ∧
  (∀ (a : Activation) (late : Bool) (s : State), s.ldr.acts = [a] → s.latched = false →
    (a.phaseDone = true → a.pos = 3 →
      Completes (.regionPhaseAdvance a.set late) s (fun t => t.ldr.acts = [] ∧ t.logged 0x0211 a.set.toNat ∧
        ∀ n : Fin 16, n.val ∈ s.liveOf a.set.toNat → t.regionState n = 1)) ∧
    (a.phaseDone = false → phaseAt (orderInForce a.image.order a.settings) a.pos = 2 → a.image.waits.getD a.pos 0 ≠ 0 → a.pos < 4 →
      Completes (.regionPhaseAdvance a.set late) s (fun t => t.ldr.acts = [{ a with phaseDone := true }] ∧
        ∀ n : Fin 16, n.val ∈ s.liveOf a.set.toNat → t.fab.setReset.getLsbD n = false)))

/-- R269: the second write of a pair revokes the slots of its mask, unless no programmed slot would be left unrevoked; without the first, or after
its timeout, it does nothing. The writes act while the clock of their domain runs (R181); until then they do nothing. -/
def Obligations.RevocationTakesAPairAndLeavesASlot : Prop :=
  (∀ s : State, s.barOpen R.SEC_REVOKE = true → Completes .secRevokeFirst s (fun t => t.ldr.revoke = true ∧ t.fuses = s.fuses ∧ t.regs = s.regs)) ∧
  (∀ s : State, Completes .revokePairTimeout s (fun t => t.ldr.revoke = false ∧ t.fuses = s.fuses ∧ t.regs = s.regs)) ∧
  (∀ (mask : BitVec 4) (s : State), s.barOpen R.SEC_REVOKE = false →
    Completes .secRevokeFirst s (fun t => t.ldr = s.ldr ∧ t.fuses = s.fuses) ∧
    Completes (.secRevokeSecond mask) s (fun t => t.ldr = s.ldr ∧ t.fuses = s.fuses)) ∧
  (∀ (mask : BitVec 4) (s : State), s.barOpen R.SEC_REVOKE = true →
    Completes (.secRevokeSecond mask) s (fun t => t.ldr.revoke = false ∧
      if s.ldr.revoke = false then t.fuses = s.fuses ∧ t.regs = s.regs
      else if s.fuses.hashProg &&& ~~~ (s.fuses.revoked ||| mask) = 0 then t.fuses = s.fuses ∧ t.get F.SEC_FUSE_STS_rev_refused = 1
      else t.fuses = { s.fuses with revoked := s.fuses.revoked ||| mask } ∧
        t.get F.SEC_FUSE_STS_revoked = (s.fuses.revoked ||| mask).toNat))

/-! ## Serial lanes (chapter 11) -/

/-- R317 to R324, R329, Table 11.2: the states that a lane runs through (1 PLL, 2 SIGDET, 3 CDR, 4 POLARITY, 5 ORDER, 6 TRAIN, 7 ALIGN, 8 DESKEW,
9 READY, 12 FAILED, 13 STANDBY), what ends each, and its restarts. -/
def Obligations.LanesRunThroughBringUp : Prop :=
  (∀ (n : Fin 60) (s : State), 10 ≤ n.val →
    (s.laneState n = 2 → Completes (.laneSignalDetect n) s (fun t => t.laneState n = 3 ∧ t.get (F.LANE_STS_sig_det n) = 1)) ∧
    (s.laneState n = 3 → s.laneInSubst n = false → (s.laneL n).woken = false → s.grpTrain (n / 5) = true →
      Completes (.laneCdrLock n) s (fun t => t.laneState n = 4 ∧ t.get (F.LANE_STS_cdr_lock n) = 1)) ∧
    (s.laneState n = 3 → s.laneInSubst n = false → s.laneLogical n ≠ 4 → s.grpTrain (n / 5) = false →
      Completes (.laneCdrLock n) s (fun t => t.laneState n = 7 ∧ t.get (F.LANE_STS_pol_inv n) = s.get (F.LANE_CTL_rx_inv n)))) ∧
  (∀ (n : Fin 60) (w : BitVec 64) (eye : Bool) (s : State), 10 ≤ n.val → s.grpTrain (n / 5) = true → s.laneState n = 4 →
    (w.extractLsb' 0 8 = 0x3A →
      Completes (.trainingFrameReceived n w false eye) s (fun t => t.get (F.LANE_STS_pol_inv n) = 1 - s.get (F.LANE_STS_pol_inv n) ∧
        t.laneState n = 4)) ∧
    (w.extractLsb' 0 8 = 0xC5 → trainingOk w = true → (s.laneL n).marks + 1 < 16 →
      Completes (.trainingFrameReceived n w true eye) s (fun t => (t.laneL n).marks = (s.laneL n).marks + 1 ∧ t.laneState n = 4)) ∧
    (w.extractLsb' 0 8 = 0xC5 → trainingOk w = true → (s.laneL n).marks = 15 → s.grpBonded (n / 5) = false →
      Completes (.trainingFrameReceived n w true eye) s (fun t => t.laneState n = 6 ∧ t.taps n = preset (s.get (F.LANE_FFE_preset n)))) ∧
    (w.extractLsb' 0 8 = 0xC5 → trainingOk w = false → Completes (.trainingFrameReceived n w true eye) s (fun t => t = s))) ∧
  (∀ (n : Fin 60) (s : State), s.laneState n = 6 →
    ((s.laneL n).req.isSome = true → (s.laneL n).answered = false → (s.laneL n).fails < 2 →
      Completes (.trainRequestTimeout n) s (fun t => t.laneState n = 12 ∧ t.get (F.LANE_STS_fail_cause n) = 7)) ∧
    (16 ≤ (s.laneL n).both →
      Completes (.laneTrainComplete n) s (fun t => (t.laneL n).stored = some ((s.rd (R.LANE_FFE n)).extractLsb' 0 15) ∧
        t.laneState n = if s.laneLogical n = 4 then 13 else 7))) ∧
  (∀ (n : Fin 60) (s : State), 10 ≤ n.val → s.laneState n = 7 → s.laneInSubst n = false → s.laneLogical n ≠ 4 →
    (s.grpRaw (n / 5) = false →
      Completes (.laneAlignLock n) s (fun t => t.laneState n = (if s.grpBonded (n / 5) then 8 else
        if (s.laneL n).woken = true ∧ s.get (F.LANE_CTL_power n) = 1 then 10 else 9) ∧ t.get (F.LANE_STS_align_lock n) = 1)) ∧
    (s.grpRaw (n / 5) = true → Completes (.laneAligned n) s (fun t => t.laneState n =
      if (s.laneL n).woken = true ∧ s.get (F.LANE_CTL_power n) = 1 then 10 else 9))) ∧
  (∀ (g : Fin 12) (skew : BitVec 8) (s : State), s.grpBonded g = true → s.inService g ≠ [] →
    (∀ k ∈ s.inService g, s.laneState (s.lanePhys g k) = 8) → (s.grpG g).sub = none →
    (skew.toNat ≤ 16 → Completes (.laneDeskewDone g skew) s (fun t => ∀ k ∈ s.inService g, t.laneState (s.lanePhys g k) =
      if (s.laneL (s.lanePhys g k)).woken = true ∧ s.get (F.LANE_CTL_power (s.lanePhys g k)) = 1 then 10 else 9)) ∧
    (16 < skew.toNat → (∀ k ∈ s.inService g, (s.laneL (s.lanePhys g k)).fails < 2) →
      Completes (.laneDeskewDone g skew) s (fun t => t.get (F.GRP_STS_deskew_err g) = 1 ∧
        ∀ k ∈ s.inService g, t.laneState (s.lanePhys g k) = 12 ∧ t.get (F.LANE_STS_fail_cause (s.lanePhys g k)) = 8))) ∧
  (∀ (n : Fin 60) (s : State), s.laneState n = 3 → (s.laneL n).fails < 2 →
    Completes (.laneStateTimeout n) s (fun t => t.laneState n = 12 ∧ t.get (F.LANE_STS_fail_cause n) = 2)) ∧
  (∀ (n : Fin 60) (s : State), s.laneEnabled n = true → s.get (F.GRP_STS_pll_lock (n / 5)) = 1 → s.laneMayRun (n / 5) = true →
    (s.laneState n = 12 → (s.laneL n).heldFail = false →
      Completes (.laneRetry n) s (fun t => t.laneState n = 2 ∧
        t.get (F.LANE_STS_attempts n) = min (s.get (F.LANE_STS_attempts n) + 1) (2 ^ (F.LANE_STS_attempts n).w - 1))) ∧
    (s.laneState n ≠ 0 → 10 ≤ n.val →
      Completes (.laneRestart n) s (fun t => t.laneState n = 2 ∧ t.get (F.LANE_STS_attempts n) = 0))) ∧
  (∀ (g : Fin 12) (s : State), 2 ≤ g.val → (6 ≤ g.val → (s.grpG g).live = true) →
    Completes (.groupPllLock g) s (fun t => t.get (F.GRP_STS_pll_lock g) = 1 ∧
      ∀ i : Fin 5, s.laneState (5 * g + i) = 1 → s.laneEnabled (5 * g + i) = true → s.laneMayRun g = true →
        t.laneState (5 * g + i) = if (s.laneL (5 * g + i)).woken then 3 else 2)) ∧
  (∀ (g : Fin 12) (s : State), s.get (F.GRP_STS_pll_lock g) = 1 →
    Completes (.groupPllLost g) s (fun t => t.get (F.GRP_STS_pll_lock g) = 0 ∧ t.get (F.GRP_STS_pll_lost g) = 1 ∧
      ∀ i : Fin 5, s.laneState (5 * g + i) ≠ 0 → t.laneState (5 * g + i) = 12 ∧ t.get (F.LANE_STS_fail_cause (5 * g + i)) = 9)) ∧
  (∀ (g : Fin 12) (s : State), 2 ≤ g.val → (s.grpG g).sub = none → s.get (F.GRP_STS_pll_lock g) = 1 → s.laneMayRun g = true →
    Completes (.groupRestart g) s (fun t => ∀ i : Fin 5, s.laneEnabled (5 * g + i) = true → s.laneState (5 * g + i) ≠ 0 →
      t.laneState (5 * g + i) = 2))

/-- R330 to R334: a READY lane that fails is replaced by the spare of its group, which is switched in when both sides are ready; where that fails,
or without a spare, the logical lane is retired; PCI Express lanes and groups without automatic substitution. -/
def Obligations.FailedLanesAreReplacedBySpares : Prop :=
  (∀ (n : Fin 60) (cause : Fin 5) (s : State), 30 ≤ n.val → s.laneState n = 9 → cause.val ≠ 0 → s.grpRaw (n / 5) = false →
    s.get (F.LANE_STS_rx_pwr n) = 0 → (s.grpG (n / 5)).sub = none →
    (s.grpAuto (n / 5) = false → s.laneLogical n ≠ 4 →
      Completes (.laneFailure n cause) s (fun t => t.laneState n = 12 ∧ t.get (F.LANE_STS_fail_cause n) = cause.val ∧
        (t.laneL n).heldFail = true)) ∧
    (s.grpAuto (n / 5) = true → s.grpTrain (n / 5) = true → s.laneLogical n < 4 → s.get (F.GRP_MAP_spare_none (n / 5)) = 0 →
      s.get (F.GRP_MAP_spare (n / 5)) < 5 → s.laneState (5 * (n / 5) + s.get (F.GRP_MAP_spare (n / 5))) = 13 →
      Completes (.laneFailure n cause) s (fun t => t.laneState n = 12 ∧
        t.get (F.GRP_MAP_phys (n / 5) (s.laneLogical n)) = s.get (F.GRP_MAP_spare (n / 5)) ∧
        (t.grpG (n / 5)).sub = some ⟨s.laneLogical n, s.get (F.GRP_MAP_phys (n / 5) (s.laneLogical n)), true, false, false, false⟩))) ∧
  (∀ (g : Fin 12) (u : Subst) (s : State), (s.grpG g).sub = some u → (s.grpG g).waiting = [] → u.k < 4 → u.old < 5 →
    (u.ack = true → u.kept = false → s.laneState (s.lanePhys g u.k) = 7 →
      s.get (F.LANE_STS_align_lock (s.lanePhys g u.k)) = 1 ∨ (s.grpRaw g = true ∧ (s.laneL (s.lanePhys g u.k)).partner.isSome = true) →
      (s.grpBonded g = false → Completes (.substitutionSwitch g) s (fun t => (t.grpG g).sub = none ∧
        t.laneState (s.lanePhys g u.k) = (if (s.laneL (s.lanePhys g u.k)).woken = true ∧ s.get (F.LANE_CTL_power (s.lanePhys g u.k)) = 1 then 10 else 9) ∧
        (u.declared = true → t.laneLogical (5 * g + u.old) = 5))) ∧
      (s.grpBonded g = true → Completes (.substitutionSwitch g) s (fun t => t.laneState (s.lanePhys g u.k) = 8))) ∧
    (u.declared = true → u.ack = false → s.laneState (s.lanePhys g u.k) ≠ 9 →
      Completes (.substitutionTimeout g) s (fun t => (t.grpG g).sub = none ∧ t.get (F.GRP_MAP_phys g u.k) = u.old ∧
        t.laneLogical (5 * g + u.old) = 5 ∧ (s.mode = .run → s.latched = false → t.mode = .limp)))) ∧
  (∀ (n : Fin 60) (s : State), n.val < 10 → s.laneLogical n < 4 → (s.grpG (n / 5)).waiting = [] →
    s.lanePhys (n / 5) (s.laneLogical n) = n.val →
    (s.laneState n = 9 ∨ (s.laneL n).heldFail = true →
      (s.get (F.GRP_MAP_spare_none (n / 5)) = 0 → s.get (F.GRP_MAP_spare (n / 5)) < 5 →
        Completes (.pcieLaneFailover n) s (fun t => t.get (F.GRP_MAP_phys (n / 5) (s.laneLogical n)) = s.get (F.GRP_MAP_spare (n / 5)) ∧
          t.laneLogical n = 5 ∧ (t.laneL (5 * (n / 5) + s.get (F.GRP_MAP_spare (n / 5)))).stored = (s.laneL n).stored ∧
          t.taps (5 * (n / 5) + s.get (F.GRP_MAP_spare (n / 5))) = s.taps n ∧
          (s.hif.link ≠ .down → t.hif.link = .recovery ∧ ∀ m : Fin 10, t.laneState m = 12))) ∧
      (s.get (F.GRP_MAP_spare_none (n / 5)) = 1 → Completes (.pcieLaneFailover n) s (fun t => t.laneLogical n = 5 ∧
        (s.hif.link ≠ .down → t.hif.link = .recovery ∧ ∀ m : Fin 10, t.laneState m = 12)))) ∧
    (s.laneState n = 12 → (s.laneL n).heldFail = false → Completes (.pcieLaneFailover n) s (fun t => t = s))) ∧
  (∀ (n : Fin 60) (s : State), 30 ≤ n.val → s.grpAuto (n / 5) = false → s.laneState n = 12 → s.laneLogical n < 4 →
    s.get (F.GRP_MAP_spare_none (n / 5)) = 0 → s.get (F.GRP_MAP_spare (n / 5)) < 5 →
    s.laneState (5 * (n / 5) + s.get (F.GRP_MAP_spare (n / 5))) = 13 →
    Completes (.laneSubstitute n) s (fun t => t.get (F.GRP_MAP_phys (n / 5) (s.laneLogical n)) = s.get (F.GRP_MAP_spare (n / 5)) ∧
      t.laneLogical (5 * (n / 5) + s.get (F.GRP_MAP_spare (n / 5))) = s.laneLogical n ∧ t.laneLogical n = 5))

/-- R315, R316, R323 to R328: fillers keep the elastic buffer near 16 blocks; a word goes to the lane's queue or is dropped; power states and
notices (from DEEP a lane goes back to its clock recovery, once the PLL runs); adaptation, errors below the limits, and the eye;
the lanes of PCI Express are margined in L0 and fail over to their spare, and are FAILED outside L0. -/
def Obligations.ReadyLanesCarryWordsAndMeasure : Prop :=
  (∀ (n : Fin 60) (f : Fin 33) (s : State), s.rateMatched (n / 5) = true → s.laneState n = 9 →
    Completes (.fillerReceived n f) s (fun t => t.get (F.LANE_STS_rx_pwr n) = 0 ∧
      t.get (F.LANE_RM_fill n) = (if f.val = 0 ∨ f.val = 32 then 16 else if 16 < f.val then f.val - 1 else if f.val < 16 then f.val + 1 else 16) ∧
      (16 < f.val → f.val < 32 → t.get (F.LANE_RM_CNT_deleted n) = (s.get (F.LANE_RM_CNT_deleted n) + 1) % 2 ^ (F.LANE_RM_CNT_deleted n).w) ∧
      (0 < f.val → f.val < 16 → t.get (F.LANE_RM_CNT_repeated n) = (s.get (F.LANE_RM_CNT_repeated n) + 1) % 2 ^ (F.LANE_RM_CNT_repeated n).w))) ∧
  (∀ (n : Fin 60) (d : BitVec 128) (sb : BitVec 16) (s : State), 30 ≤ n.val → s.laneState n = 9 → s.laneLogical n < 4 →
    ((s.laneL n).rx.length < 64 → s.grpBonded (n / 5) = true →
      Completes (.laneRxWord n d sb) s (fun t => (t.laneL n).rx = (s.laneL n).rx ++ [(d, sb &&& 0x4000)])) ∧
    ((s.laneL n).rx.length < 64 → s.grpBonded (n / 5) = false → s.get (F.GRP_CTL_pcs (n / 5)) = 1 → s.get (F.GRP_STS_reversed (n / 5)) = 0 →
      Completes (.laneRxWord n d sb) s (fun t =>
        (t.laneL n).rx = (s.laneL n).rx ++ [(d, (sb &&& 0xCF03) ||| BitVec.ofNat 16 (4096 * s.laneLogical n))])) ∧
    (64 ≤ (s.laneL n).rx.length →
      Completes (.laneRxWord n d sb) s (fun t => t.lane = s.lane ∧
        t.get (F.LANE_ERR_rx_drop n) = min (s.get (F.LANE_ERR_rx_drop n) + 1) (2 ^ (F.LANE_ERR_rx_drop n).w - 1)))) ∧
  (∀ (n : Fin 60) (s : State), s.grpRaw (n / 5) = true →
    Completes (.laneSlip n) s (fun t => (t.laneL n).slips = (s.laneL n).slips + 1 ∧ t.regs = s.regs)) ∧
  (∀ (n : Fin 60) (v : BitVec 2) (s : State),
    (30 ≤ n.val → s.grpRaw (n / 5) = false → 9 ≤ s.laneState n → s.laneState n ≤ 11 →
      Completes (.lanePowerRequest n v) s (fun t => t.laneState n =
          (if s.laneState n = 11 ∧ v ≠ 2 then (if s.get (F.GRP_STS_pll_lock (n / 5)) = 1 then 3 else 1)
            else if v = 1 then 10 else if v = 2 then 11 else 9) ∧
        t.get (F.LANE_CTL_power n) = v.toNat)) ∧
    (s.laneState n < 9 ∨ 11 < s.laneState n →
      Completes (.lanePowerRequest n v) s (fun t => t.get (F.LANE_STS_pwr_refused n) = 1 ∧ t.laneState n = s.laneState n))) ∧
  (∀ (n : Fin 60) (deep : Bool) (s : State), 30 ≤ n.val → s.grpRaw (n / 5) = false → 9 ≤ s.laneState n → s.laneState n ≤ 11 →
    Completes (.powerNoticeReceived n deep) s (fun t => t.get (F.LANE_STS_rx_pwr n) = if deep then 2 else 1)) ∧
  (∀ (n : Fin 60) (tr : Fin 101) (fillers : Bool) (s : State), s.laneState n = 9 →
    Completes (.adaptWindow n tr fillers) s (fun t =>
      t.get (F.LANE_STS_qualified n) = (decide (30 ≤ tr.val) && (s.grpRaw (n / 5) || ! fillers)).toNat ∧
      t.get (F.LANE_STS_clamped n) = 1 - t.get (F.LANE_STS_qualified n) ∧
      (t.get (F.LANE_STS_qualified n) = 1 → (t.laneL n).eqQual = (t.laneL n).eq) ∧
      (t.get (F.LANE_STS_qualified n) = 0 → (s.laneL n).slow % 16 ≠ 15 → (t.laneL n).eq = (s.laneL n).eq))) ∧
  (∀ (n : Fin 60) (s : State), 10 ≤ n.val → s.laneState n = 9 → s.grpRaw (n / 5) = false →
    Completes (.laneFailure n 0) s (fun t =>
      t.get (F.LANE_ERR_code_err n) = min (s.get (F.LANE_ERR_code_err n) + 1) (2 ^ (F.LANE_ERR_code_err n).w - 1) ∧ t.lane = s.lane)) ∧
  (∀ (n : Fin 60) (s : State), s.get (F.LANE_ES_CTL_start n) = 0 →
    Completes (.eyeScanStart n) s (fun t => t.get (F.LANE_ES_CTL_start n) = 1 ∧ t.get (F.LANE_ES_CTL_done n) = 0)) ∧
  (∀ (n : Fin 60) (e : BitVec 48) (s : State), n.val < 10 →
    (s.hif.link = .l0 → s.laneState n = 9 → s.get (F.LANE_ES_CTL_start n) = 0 →
      Completes (.eyeScanStart n true) s (fun t => (t.laneL n).margin = true ∧ t.regs = s.regs)) ∧
    ((s.laneL n).margin = true → Completes (.eyeScanDone n e) s (fun t => (t.laneL n).margin = false ∧ t.regs = s.regs)) ∧
    (s.hif.link = .l0 → Completes (.powerNoticeReceived n true) s (fun t => t.hif.link = .l1 ∧ ∀ m : Fin 10, t.laneState m = 12))) ∧
  (∀ (n : Fin 60) (e : BitVec 48) (s : State), s.get (F.LANE_ES_CTL_start n) = 1 → (s.laneL n).margin = false →
    Completes (.eyeScanDone n e) s (fun t => t.get (F.LANE_ES_CTL_start n) = 0 ∧ t.get (F.LANE_ES_CTL_done n) = 1 ∧
      t.get (F.LANE_ES_ERR_errors n) = min (min e.toNat (2 ^ (20 + min 22 (s.get (F.LANE_ES_CTL_dwell n))))) (2 ^ 32 - 1))) ∧
  (∀ (n : Fin 60) (h w : BitVec 8) (s : State),
    (s.laneState n = 9 → s.get (F.LANE_ES_CTL_start n) = 0 →
      Completes (.eyeMonitor n h w) s (fun t => t.get (F.LANE_EYE_valid n) = 1 ∧ t.get (F.LANE_EYE_height n) = h.toNat ∧
        t.get (F.LANE_EYE_width n) = w.toNat)) ∧
    (s.laneState n ≠ 9 → Completes (.eyeMonitor n h w) s (fun t => t.get (F.LANE_EYE_valid n) = 0)))

/-! ## Peloton (chapter 12) -/

/-- R342 to R344, R361, Table 12.2: port states 0 DOWN, 1 TRAIN, 2 INIT, 3 UP, 4 FLUSH, and what moves a port between them; a lane that the
partner takes out of use ends a ledger. -/
def Obligations.PortsComeUpAndAreFlushed : Prop :=
  (∀ (p : Fin 4) (s : State), s.portRetired p = false → s.portState p = 0 →
    Completes (.portEnable p) s (fun t => t.get (F.PEL_PCTL_enable p) = 1 ∧ t.portState p ≠ 0)) ∧
  (∀ (p : Fin 4) (allot : BitVec 32) (s : State),
    (s.portState p = 2 → Completes (.initReceived p allot) s (fun t => (t.portP p).gotInit = true ∧ (t.portP p).txCr = allots allot ∧
      t.portState p = 2)) ∧
    (s.portState p = 3 → Completes (.initReceived p allot) s (fun t => t.portState p = 4 ∧ (t.portP p).gotInit = false))) ∧
  (∀ (p : Fin 4) (s : State), s.portState p = 2 →
    ((s.portP p).gotInit = true → Completes (.initBlockSend p) s (fun t => t.portState p = 3 ∧ t.get (F.PEL_DELAY_valid p) = 0)) ∧
    ((s.portP p).gotInit = false → Completes (.initBlockSend p) s (fun t => t.portState p = 2 ∧
      ∃ b, t.pel.sent = s.pel.sent ++ [b] ∧ b.port = p.val ∧ b.type = 0xEC))) ∧
  (∀ (p : Fin 4) (s : State), s.portState p = 4 → (s.portP p).gotInit = false →
    Completes (.initBlockSend p) s (fun t => t.portState p = 2 ∧ t.get (F.PEL_PCTL_flush p) = 0 ∧
      (t.portP p).split = s.rd (R.PEL_CRSPLIT p) ∧ ∃ b, t.pel.sent = s.pel.sent ++ [b] ∧ b.port = p.val ∧ b.type = 0xEC)) ∧
  (∀ (p : Fin 4) (s : State), s.portState p = 2 ∨ s.portState p = 3 → s.pel.events = [] →
    Completes (.heartbeatSend p) s (fun t => t.regs = s.regs ∧ ∃ b, t.pel.sent = s.pel.sent ++ [b] ∧ b.port = p.val ∧ b.type = 0xE6)) ∧
  (∀ (p : Fin 4) (a : BitVec 12) (s : State), s.portState p = 2 ∨ s.portState p = 3 →
    Completes (.heartbeatReceived p a) s (fun t => t.get (F.PEL_PSTS_partner p) = a.toNat)) ∧
  (∀ (p : Fin 4) (s : State), s.portState p = 2 ∨ s.portState p = 3 →
    Completes (.hopFault p) s (fun t => t.portState p = 0 ∧ t.get (F.PEL_PSTS_fault p) = 1 ∧ (t.portP p).buf = [])) ∧
  (∀ (p : Fin 4) (mask : BitVec 4) (s : State), s.portUp p = true →
    Completes (.stripe p mask) s (fun t => t.get (F.PEL_PSTS_lanes p) = mask.toNat ∧
      (s.get (F.PEL_PCTL_ledger p) = 0 → t.pel.ports = s.pel.ports) ∧
      (s.get (F.PEL_PSTS_lanes p) &&& mask.toNat ≠ s.get (F.PEL_PSTS_lanes p) → s.get (F.PEL_PCTL_ledger p) = 1 →
        t.get (F.PEL_PCTL_ledger p) = 0 ∧ ∀ v : Fin 4, t.get (F.PEL_LEDGER_valid p v) = 0))) ∧
  (∀ (p : Fin 4) (s : State), s.portUp p = true →
    Completes (.pelFlush p) s (fun t => t.portState p = 4 ∧ t.get (F.PEL_PCTL_flush p) = 1 ∧ (t.portP p).buf = [] ∧
      (t.portP p).txCr = [0, 0, 0, 0] ∧
      (∀ v : Fin 4, t.get (F.PEL_LEDGER_valid p v) = 0)))

/-- R347 to R350, R355, R358, R360, R364: a frame is taken in by its header, judged by its trailer, sent for an item; credits, the delay
measurement, and the ledger. Outside RUN and LIMP only MGMT items are sent (Table 01.5), and in the state of R30 nothing passes. -/
def Obligations.FramesCreditsDelaysAndLedgers : Prop :=
  (∀ (p : Fin 4) (hdr : BitVec 56) (s : State), s.portUp p = true → (s.portP p).rx = none →
    Completes (.frameHdr p hdr) s (fun t => (t.portP p).nextId = (s.portP p).nextId + 1 ∧
      ∃ r, (t.portP p).rx = some r ∧ r.f = PFrame.ofBody hdr ∧ r.id = (s.portP p).nextId)) ∧
  (∀ (p : Fin 4) (payload : List (BitVec 8)) (e2e hop : BitVec 32) (r : RxFrame) (s : State), s.portUp p = true →
    (s.portP p).rx = some r →
    let f : PFrame := { r.f with payload := payload, e2e := e2e }
    (hop ≠ f.hopCrc → hop ≠ f.hopCrc ^^^ 0xFFFFFFFF →
      Completes (.frameTrailer p payload e2e hop false) s (fun t => t.get (F.PEL_ERR_hop_crc p) = min (s.get (F.PEL_ERR_hop_crc p) + 1) 255 ∧
        t.get (F.PEL_FRAMES_RX_count p) = (s.get (F.PEL_FRAMES_RX_count p) + 1) % 2 ^ 32)) ∧
    (hop = f.hopCrc → payload.length = r.f.len → f.check = e2e → r.mgmt = true → r.queue = none → r.cut = [] → r.held = [] →
      r.drop = false → r.unbound = false → (s.portP p).inTurn r.f.vc r.id = true → (∀ q : Fin 4, (s.portP q).todo = []) →
      Completes (.frameTrailer p payload e2e hop false) s (fun t => t.pel.mgmt = s.pel.mgmt ++ [(p.val, f)] ∧
        t.get (F.PEL_FRAMES_RX_count p) = (s.get (F.PEL_FRAMES_RX_count p) + 1) % 2 ^ 32))) ∧
  (∀ (q : Fin 32) (p v o : Nat) (w : XWord) (s : State), s.xqBound (32 + q.val) = some (2, p, v) → s.xqStopped (32 + q.val) = false →
    s.xqClocked (32 + q.val) false = true → (s.xqQ (32 + q.val)).words = [w] → (s.xqQ (32 + q.val)).got = [] → wordParity w.data = w.par →
    sbSoi w.sb = true → sbEoi w.sb = true → w.sb.getLsbD 2 = false → w.sb.getLsbD 3 = false → s.hasAddr = true →
    s.ownAddr (w.data.toNat % 4096) = false → w.data.toNat % 4096 < s.get F.PEL_ADDR_members → w.data.toNat % 4096 ≠ 0xFFF →
    (∀ f : PFrame, f.dst = w.data.toNat % 4096 → f.wrapped = false → s.route f none = ([o], none)) → o < 4 → 1 ≤ v → v < 4 → v = 3 ∨ s.running = true →
    s.portUp o = true → (s.portP o).busy = none → (∀ q : Fin 4, (s.portP q).waiting = [] ∧ (s.portP q).todo = []) →
    1 ≤ vcGet (s.portP o).txCr v → s.get (F.PEL_PCTL_ledger o) = 0 → (s.portP o).hold.getLsbD v = false →
    Completes (.pelotonItemSend q) s (fun t => (t.xqQ (32 + q.val)).words = [] ∧
      ∃ b, t.pel.sent = s.pel.sent ++ [b] ∧ b.port = o ∧ b.type = 0xE1 ∧ (PFrame.ofBody b.body).dst = w.data.toNat % 4096 ∧
        b.trailer.isSome = true)) ∧
  (∀ (q : Fin 32) (p v : Nat) (s : State), s.xqBound (32 + q.val) = some (2, p, v) → v ≠ 3 → s.running = false →
    Completes (.pelotonItemSend q) s (fun t => t = s)) ∧
  (∀ (p : Fin 4) (hdr : BitVec 56) (payload : List (BitVec 8)) (e2e hop : BitVec 32) (short : Bool) (s : State), s.latched = true →
    Completes (.frameHdr p hdr) s (fun t => t = s) ∧ Completes (.frameTrailer p payload e2e hop short) s (fun t => t = s)) ∧
  (∀ (p : Fin 4) (totals : BitVec 56) (s : State), s.portUp p = true → (s.portP p).waiting = [] →
    Completes (.credit p totals) s (fun t => ∀ v : Fin 4, vcGet (t.portP p).txCr v = vcGet (s.portP p).txCr v +
      (totals.toNat >>> (14 * v.val) % 2 ^ 14 + 2 ^ 14 - vcGet (s.portP p).lastTot v) % 2 ^ 14)) ∧
  (∀ (p : Fin 4) (s : State), s.portUp p = true → (s.portP p).unret.any (· != 0) = true →
    Completes (.creditReturn p) s (fun t => (t.portP p).unret = [0, 0, 0, 0] ∧ t.pel.sent.length = s.pel.sent.length + 1)) ∧
  (∀ (p : Fin 4) (s : State), s.portUp p = true →
    Completes (.delayMeasure p) s (fun t => (t.portP p).reqId = (s.portP p).reqId + 1 ∧ (t.portP p).reqOpen = true)) ∧
  (∀ (p : Fin 4) (id : BitVec 8) (ta : BitVec 32) (s : State), s.portUp p = true →
    Completes (.delayReq p id ta) s (fun t => t.pel.sent = s.pel.sent ++ [⟨p, 0xE8, BitVec.ofNat 56 (id.toNat + 256 * ta.toNat), [], false, none⟩])) ∧
  (∀ (p : Fin 4) (ta rt : BitVec 32) (s : State), s.portUp p = true → (s.portP p).reqOpen = true → (s.portP p).delays = [] →
    Completes (.delayResp p (s.portP p).reqId ta rt) s (fun t => (t.portP p).reqOpen = false ∧ t.get (F.PEL_DELAY_valid p) = 0 ∧
      t.get (F.PEL_DELAY_delay p) = enc2 20 (((rt.toNat : Int) - ta.toNat + s.getS (F.PEL_ASYM_asym p)) / 2))) ∧
  (∀ (p : Fin 4) (s : State), s.portUp p = true → s.get (F.PEL_PCTL_ledger p) = 0 → (s.portP p).busy = none →
    Completes (.pelLedger p) s (fun t => t.get (F.PEL_PCTL_ledger p) = 1 ∧ (t.portP p).marked = true ∧
      (t.portP p).mask.toNat = s.get (F.PEL_PCTL_quiesce p))) ∧
  (∀ (p : Fin 4) (s : State), s.portUp p = true →
    Completes (.ledgerMark p) s (fun t => (t.portP p).unret = [0, 0, 0, 0] ∧ ∃ b c, t.pel.sent = s.pel.sent ++ [b, c] ∧ b.type = 0xE3 ∧
      c.type = 0xEA)) ∧
  (∀ (p : Fin 4) (held : BitVec 44) (s : State), s.portUp p = true → s.get (F.PEL_PCTL_ledger p) = 1 → (s.portP p).marked = true →
    Completes (.ledgerAns p held) s (fun t => t.get (F.PEL_PCTL_ledger p) = 0 ∧ ∀ v : Fin 4, (s.portP p).mask.getLsbD v = true →
      t.get (F.PEL_LEDGER_valid p v) = 1 ∧ t.get (F.PEL_LEDGER_held p v) = held.toNat >>> (11 * v.val) % 2 ^ 11 ∧
      t.get (F.PEL_LEDGER_balanced p v) =
        if vcGet (s.portP p).txCr v + held.toNat >>> (11 * v.val) % 2 ^ 11 = vcGet (s.portP p).partnerAllot v then 1 else 0)) ∧
  (∀ (p : Fin 4) (s : State), s.get (F.PEL_PCTL_ledger p) = 1 →
    Completes (.ledgerTimeout p) s (fun t => t.get (F.PEL_PCTL_ledger p) = 0 ∧ ∀ v : Fin 4, t.get (F.PEL_LEDGER_valid p v) = 0))

/-- R226, R341, R352, R356, R362 to R368, R394: phase frames out and in, enumeration, remote completions and events, and who leads. That an
alternate is the second one is an operand of ENUM, the model's choice (log entry 160). -/
def Obligations.TheNetworkIsEnumeratedAndLed : Prop :=
  (∀ (p : Fin 4) (s : State), s.leads = true → s.running = true → p.val ∈ s.rolePorts → s.portUp p = true → vcGet (s.portP p).txCr 0 ≠ 0 →
    (s.portP p).hold.getLsbD 0 = false → Completes .phaseSend s (fun t => t.pel.seq = s.pel.seq + 1 ∧ ∃ b ∈ t.pel.sent.drop s.pel.sent.length, b.port = p.val ∧ b.type = 0xE5)) ∧
  (∀ (p : Fin 4) (hdr : BitVec 56) (payload : List (BitVec 8)) (e2e : BitVec 32) (stamp : BitVec 64) (dt : BitVec 32) (s : State),
    let f : PFrame := { PFrame.ofBody hdr with payload := payload, e2e := e2e }
    let x := Phase.ofBytes payload
    s.portUp p = true → payload.length = 32 → { f with payload := payload.take 24 ++ le 8 0 }.check = e2e → s.leads = false →
    s.pel.listening = false → s.phaseNew x = true →
    Completes (.phaseReceived p hdr payload e2e f.hopCrc stamp dt) s (fun t => t.pel.lastSeq = some x.seq ∧
      t.get F.PEL_PHASE_epoch = x.epoch.toNat ∧ t.get F.PEL_PHASE_port = p ∧ t.get F.PEL_AGE_age = (s.pathDelay p x) % 2 ^ 32)) ∧
  (∀ s : State, s.on F.PEL_ADDR_is_lead = true →
    (∀ p ps, s.enumPorts true = p :: ps →
      (s.halted = false → Completes .pelEnum s (fun t => t.pel.en = some { next := 1, ports := ps, cur := some (p, 1) })) ∧
      (s.running = true → Completes .enumTriggerDelay s (fun t => t.pel.en = some { next := 1, ports := ps, cur := some (p, 1) }))) ∧
    (s.enumPorts true = [] → s.halted = false → Completes .pelEnum s (fun t => t.pel.en = none ∧ t.get F.PEL_ADDR_members = 1)) ∧
    (s.halted = true → Completes .pelEnum s (fun t => t = s))) ∧
  (∀ (p : Nat) (f : PFrame) (s : State), s.pel.mgmt = [(p, f)] →
    (f.type = 0 → p = 0 → s.get F.PEL_ADDR_is_lead = 0 →
      (s.pel.yielded = false → (∀ q : Fin 4, (s.portP q).todo = []) → ∀ second : Bool,
        Completes (.enum second) s (fun t => t.pel.mgmt = [] ∧ t.get F.PEL_ADDR_addr = fieldAt f.payload 0 2 % 4096 ∧ t.hasAddr = true ∧
          t.pel.altOff = (s.on F.PEL_CFG_alt_strap && ! s.on F.PEL_CFG_lead_strap && second) ∧
          (t.pel.altOff = true → t.get F.PEL_ADDR_acting_lead = 0))) ∧
      (s.pel.yielded = true → Completes .enum s (fun t => t.get F.PEL_ADDR_addr = s.get F.PEL_ADDR_addr ∧ t.hasAddr = s.hasAddr))) ∧
    (∀ e lo, f.type = 1 → s.pel.en = some e → e.cur = some (p, lo) → p < 4 →
      Completes .enumReply s (fun t => t.get (F.PEL_RANGE_lo p) = lo % 4096 ∧ t.get (F.PEL_RANGE_hi p) = fieldAt f.payload 0 2 % 4096 ∧
        t.get (F.PEL_RANGE_valid p) = 1)) ∧
    (f.type = 2 → Completes .enumDone s (fun t => t.get F.PEL_ADDR_members = fieldAt f.payload 0 2 % 4096 ∧ t.pel.mgmt = [])) ∧
    (f.type = 5 → Completes .completion s (fun t => t.pel.mgmt = [] ∧
      t.pel.completions = s.pel.completions ++ [(fieldAt f.payload 0 4, fieldAt f.payload 4 4, fieldAt f.payload 8 1)])) ∧
    (f.type = 6 → s.leads = true → s.ringFree 2 = true → bitOf (s.get F.HIF_EVT_MASK_mask) (fieldAt f.payload 0 2 / 256) = false →
      Completes .mgmtEvent s (fun t => t.hif.evtSeq = s.hif.evtSeq + 1 ∧ t.hif.writes.length = s.hif.writes.length + 1)) ∧
    (f.type = 7 → s.get F.PEL_CFG_lead_strap = 1 → s.get F.PEL_ADDR_is_lead = 0 → s.trkState (s.get F.CAD_PEL_CTL_tx_track) = 2 →
      s.get (F.CAD_SRC_CTL_type (s.get (F.CAD_TRK_CTL_src (s.get F.CAD_PEL_CTL_tx_track)))) ≠ 5 →
      Completes .handback s (fun t => t.get F.PEL_ADDR_is_lead = 1 ∧ t.get F.PEL_ADDR_addr = 0 ∧
        t.pel.epoch = BitVec.ofNat 8 (fieldAt f.payload 0 1 + 2)))) ∧
  (∀ s : State, s.get F.PEL_ADDR_acting_lead = 1 →
    Completes .pelHandbackWrite s (fun t => t = s.mgmtSend 0xFFF 7 (le 1 s.pel.epoch.toNat))) ∧
  (∀ s : State, s.pel.listening = true →
    Completes .leadListenEnd s (fun t => t.get F.PEL_ADDR_is_lead = 1 ∧ t.get F.PEL_ADDR_addr = 0 ∧ t.hasAddr = true ∧ t.pel.epoch = 0)) ∧
  (∀ s : State, s.get F.PEL_CFG_alt_strap = 1 → s.get F.PEL_CFG_lead_strap = 0 → s.pel.altOff = false → s.running = true →
    s.leads = false → Completes .leadLost s (fun t => t.get F.PEL_ADDR_acting_lead = 1 ∧ t.pel.epoch = BitVec.ofNat 8 (s.get F.PEL_PHASE_epoch + 1) ∧
      t.pel.seq = 1))

/-! ## Host interface: rings and link (chapter 13) -/

/-- R374, R377 to R381, R387, R388, R395: rings are enabled and disabled, doorbells move them, a slot that the VA2360 owns is taken and one it does
not own is read again, up to 8 times. A write of a ring's register acts while the clock of the host domain runs (R181). -/
def Obligations.RingsTakeTheSlotsTheyOwn : Prop :=
  (∀ (n : Fin 96) (v : BitVec 32) (s : State), s.barOpen (R.HIF_RING_CFG n) = true → isRing n = true → s.get (F.HIF_RING_CFG_enable n) = 0 →
    Completes (.ringEnable n v) s (fun t => t.rd (R.HIF_RING_CFG n) = (v ||| 1) &&& 0xFFFF1FDF ∧ t.get (F.HIF_RING_STS_pos n) = 0 ∧
      t.get (F.HIF_RING_STS_phase n) = 1 ∧ t.get (F.HIF_RING_STS_active n) = 1 ∧ (t.ring n).owned = [] ∧
      t.get (F.HIF_RING_OWN_dev_owned n) = if hostProduced n then 0 else t.ringSlots n)) ∧
  (∀ (n : Fin 96) (v : BitVec 32) (s : State), s.barOpen (R.HIF_RING_CFG n) = true → isRing n = false ∨ s.get (F.HIF_RING_CFG_enable n) = 1 →
    Completes (.ringEnable n v) s (fun t => t = s)) ∧
  (∀ (n : Fin 96) (s : State), s.barOpen (R.HIF_RING_CFG n) = true → isRing n = true → s.get (F.HIF_RING_CFG_enable n) = 1 → (s.ring n).late = [] →
    (s.hif.bme = true → Completes (.ringDisable n) s (fun t => t.get (F.HIF_RING_CFG_enable n) = 0 ∧ t.get (F.HIF_RING_STS_active n) = 0 ∧
      (s.get (F.HIF_RING_STS_active n) = 1 → (t.ring n).owned = [] ∧ t.get (F.HIF_RING_OWN_dev_owned n) = 0) ∧
      (s.get (F.HIF_RING_STS_active n) = 1 → isF2h n = true → (∀ q, s.ringQueue n = some q → (s.xqQ q).got = []) → t.hif.writes = s.hif.writes ++ (s.ring n).owned.map (fun d =>
        ⟨s.slotAddr n d.slot + 8, le 4 d.bytes ++ [(d.flags &&& 0xFD) ||| (if d.flags.getLsbD 0 then 2 else 0), d.tag.setWidth 8, 7, 0] ++
          le 4 d.words⟩)))) ∧
    (s.hif.bme = false → s.get (F.HIF_RING_STS_active n) = 1 → isF2h n = true → (s.ring n).owned ≠ [] →
      Completes (.ringDisable n) s (fun t => t.get (F.HIF_RING_CFG_enable n) = 0 ∧ t.get (F.HIF_RING_STS_active n) = 1 ∧
        t.hif.writes = s.hif.writes ∧ (t.ring n).owned = [] ∧ (t.ring n).late = (s.ring n).owned.map (fun d => (d, 7))))) ∧
  (∀ (b : Bool) (s : State), s.hif.cfg.d3 = false → (b = true → ∀ n : Fin 96, (s.ring n).late = []) →
    Completes (.busMasterEnable b) s (fun t => t = { s with hif := { s.hif with bme := b } })) ∧
  (∀ (b mask : Bool) (p : Fin 3) (q : Fin 6) (s : State),
    (s.hif.cfg.d3 = true → Completes (.busMasterEnable b) s (fun t => t.hif.bme = false ∧ t.regs = s.regs)) ∧
    Completes (.busMasterEnable b (.control p q true mask)) s (fun t => t.hif.bme = false ∧ t.hif.cfg.d3 = true ∧ t.regs = s.regs) ∧
    Completes (.busMasterEnable b (.read 0)) s (fun t => t = { s with readData := 0x23601F4C })) ∧
  (∀ (n : Fin 96) (d : DataDesc) (st : Nat) (s : State), s.hif.cfg.d3 = false → (s.ring n).late = [(d, st)] → (∀ m : Fin 96, m ≠ n → (s.ring m).late = []) →
    isH2f n = true ∨ isF2h n = true →
    Completes (.busMasterEnable true) s (fun t => t.hif.bme = true ∧ (t.ring n).late = [] ∧ ∃ w, t.hif.writes = s.hif.writes ++ [w] ∧
      w.data.getD (if isH2f n then 2 else 6) 0 = BitVec.ofNat 8 st)) ∧
  (∀ (off : BitVec 19) (v : BitVec 32) (s : State), s.mode ≠ .cold → s.hif.cfg.d3 = false → 0x7E000 ≤ off.toNat → off.toNat < 0x7E400 →
    Completes (.doorbell off v) s (fun t => SMap.get (fun _ => 0) t.hif.table (off.toNat / 4 * 4) = v ∧ t.regs = s.regs ∧
      t.hif.rings = s.hif.rings) ∧
    Completes (.doorbell off v true) s (fun t => t = { s with readData := SMap.get (fun _ => 0) s.hif.table (off.toNat / 4 * 4) })) ∧
  (∀ (n : Fin 96) (off : BitVec 19) (v : BitVec 32) (s : State), s.mode ≠ .cold → s.hif.cfg.d3 = false → off.toNat = 4096 * n.val → isRing n = true →
    s.get (F.HIF_RING_CFG_enable n) = 1 → v.toNat % 4096 < s.ringSlots n →
    (hostProduced n = true → Completes (.doorbell off v) s (fun t => (t.ring n).door = v.toNat % 4096 ∧ (t.ring n).stopped = false ∧ t.regs = s.regs)) ∧
    (hostProduced n = false → Completes (.doorbell off v) s (fun t => (t.ring n).door = v.toNat % 4096 ∧
      (s.get (F.HIF_RING_STS_pos n) < s.ringSlots n → t.get (F.HIF_RING_OWN_dev_owned n) =
        s.ringSlots n - (s.get (F.HIF_RING_STS_pos n) + s.ringSlots n - v.toNat % 4096) % s.ringSlots n)))) ∧
  (∀ (n : Fin 96) (off : BitVec 19) (v : BitVec 32) (s : State), off.toNat = 4096 * n.val → s.hif.cfg.d3 = true ∨ s.get (F.HIF_RING_CFG_enable n) = 0 ∨ s.ringSlots n ≤ v.toNat % 4096 → Completes (.doorbell off v) s (fun t => t = s)) ∧
  (∀ (n : Fin 96) (raw : List (BitVec 8)) (s : State), n.val ≠ 0 → s.ringFetches n = true → (s.ring n).rereads = 0 →
    (s.slotOwned n (raw.getD 0xC 0) = true → (s.ring n).owned = [] →
      let d := dataDesc (s.get (F.HIF_RING_STS_pos n)) raw
      let d := if isF2h n then { d with flags := d.flags &&& 3 } else d
      (s.descBad n d = none → Completes (.descriptorFetched n raw) s (fun t => (t.ring n).owned = [d] ∧
        t.get (F.HIF_RING_OWN_dev_owned n) = (s.get (F.HIF_RING_OWN_dev_owned n) + 1) % 2 ^ 13 ∧ t.hif.writes = s.hif.writes ∧
        t.get (F.HIF_RING_STS_pos n) = if s.get (F.HIF_RING_STS_pos n) + 1 = s.ringSlots n then 0 else (s.get (F.HIF_RING_STS_pos n) + 1) % 4096)) ∧
      (∀ st, s.descBad n d = some st → (s.ring n).openItem = false → Completes (.descriptorFetched n raw) s (fun t => (t.ring n).owned = [] ∧
        ∃ w, t.hif.writes = s.hif.writes ++ [w] ∧ w.data.getD (if isH2f n then 2 else 6) 0 = BitVec.ofNat 8 st))) ∧
    (s.slotOwned n (raw.getD 0xC 0) = false → Completes (.descriptorFetched n raw) s (fun t => (t.ring n).rereads = 1 ∧ t.regs = s.regs))) ∧
  (∀ (raw : List (BitVec 8)) (s : State), s.mayFetch = true → (s.ring 0).rereads = 0 → s.slotOwned 0 (raw.getD 1 0) = true →
    let d := AdminDesc.ofBytes raw
    Completes (.adminFetch raw) s (fun t => t.get (F.HIF_RING_CNT_count 0) = (s.get (F.HIF_RING_CNT_count 0) + 1) % 2 ^ 32 ∧
      (if (s.firstCheck true d).1 = 0 then
        t.hif.accepted = s.hif.accepted ++ [⟨.ring (fieldAt raw 2 2) (s.get (F.HIF_RING_STS_pos 0)), d⟩]
      else t.hif.accepted = s.hif.accepted ∧ t.hif.running = s.hif.running.filter (fun a => a.src != .ring (fieldAt raw 2 2)
        (s.get (F.HIF_RING_STS_pos 0))) ∧ ∃ w x, t.hif.writes = s.hif.writes ++ [w, x] ∧
          x.data.getD 0 0 = BitVec.ofNat 8 (s.firstCheck true d).1))) ∧
  (∀ (n : Fin 96) (raw : List (BitVec 8)) (s : State), s.ringFetches n = true → (s.ring n).rereads ≠ 0 → n.val ≠ 0 ∨ s.mayFetch = true →
    s.slotOwned n (if n.val = 0 then raw.getD 1 0 else raw.getD 0xC 0) = false →
    (8 ≤ (s.ring n).rereads + 1 → Completes (.staleRecheck n raw) s (fun t => (t.ring n).stopped = true ∧
      t.get (F.HIF_RING_STS_stale n) = 1 ∧ t.logged 0x0120 n)) ∧
    ((s.ring n).rereads + 1 < 8 → Completes (.staleRecheck n raw) s (fun t => (t.ring n).rereads = (s.ring n).rereads + 1 ∧ t.regs = s.regs)))

/-- R382 to R385: words of a buffer go to a queue in order and the descriptor is returned; words of a queue go to a buffer up to an end of item;
a timer sends the message of a ring; a failed access to host memory returns MEDIA, stops the ring or fails the load. -/
def Obligations.DataRingsMoveWordsAndReportErrors : Prop :=
  (∀ (r : Fin 32) (q : Nat) (d : DataDesc) (data : List (BitVec 8)) (s : State), s.hif.bme = true →
    let n := 0x20 + r.val
    let ws := h2fWords (d.flags.getLsbD 2) (d.flags.getLsbD 3) d.tag.toNat true data ((d.len + 15) / 16)
    s.ringQueue n = some q → s.queueRing q = some n → (s.ring n).owned = [d] → d.words = 0 → data.length = d.len → 1 ≤ d.len →
    s.xqStopped q = false → s.get (F.XQ_STS_clk_stopped q) = 0 → (s.xqQ q).wReset = false → (s.xqQ q).wait = [] →
    (s.xqQ q).discard = false → (s.xqQ q).words.length + (d.len + 15) / 16 ≤ 512 →
    Completes (.h2fDataRead r data) s (fun t => (t.xqQ q).words = (s.xqQ q).words ++ ws.map (fun w => xword w.1 w.2) ∧
      (t.ring n).owned = [] ∧ t.hif.writes = s.hif.writes ++ [⟨s.slotAddr n d.slot + 0xC,
        [(d.flags &&& 0xFD) ||| (if d.flags.getLsbD 0 then 2 else 0), d.tag.setWidth 8, 0, 0] ++ le 4 ((d.len + 15) / 16)⟩])) ∧
  (∀ (r : Fin 32) (q : Nat) (d : DataDesc) (w : XWord) (s : State), s.hif.bme = true →
    let n := 0x40 + r.val
    let nb := if (w.sb.extractLsb' 8 4).toNat = 0 then 16 else (w.sb.extractLsb' 8 4).toNat
    s.ringQueue n = some q → (s.ring n).owned = [d] → (s.xqQ q).got = [w] → w.sb.getLsbD 2 = false → w.sb.getLsbD 3 = false →
    (sbEoi w.sb = true → d.bytes + nb ≤ d.len → Completes (.f2hWordPop r) s (fun t => (t.ring n).owned = [] ∧ (t.xqQ q).got = [] ∧
      ∃ x, t.hif.writes = s.hif.writes ++ [⟨d.addr + d.bytes, le nb w.data.toNat⟩, x] ∧ x.addr = s.slotAddr n d.slot + 8 ∧
        x.data.take 4 = le 4 (d.bytes + nb) ∧ x.data.getD 6 0 = 0)) ∧
    (sbEoi w.sb = false → w.sb.getLsbD 4 = false → d.bytes + nb < d.len → Completes (.f2hWordPop r) s (fun t => (t.xqQ q).got = [] ∧
      t.hif.writes = s.hif.writes ++ [⟨d.addr + d.bytes, le nb w.data.toNat⟩] ∧
      ∃ e, (t.ring n).owned = [e] ∧ e.bytes = d.bytes + nb ∧ e.words = d.words + 1 ∧ e.tag = sbTag w.sb))) ∧
  (∀ (n : Fin 96) (s : State), s.hif.bme = true → s.get (F.HIF_RING_CFG_irq_en n) = 1 → s.get (F.HIF_RING_CFG_coal_us n) ≠ 0 → (s.ring n).unsig ≠ 0 →
    Completes (.irqCoalesceTimeout n) s (fun t => (t.ring n).unsig = 0 ∧ t.regs = s.regs ∧
      (s.msixMasked (s.get (F.HIF_RING_CFG_vector n)) = false → t.hif.msix = s.hif.msix ++ [s.get (F.HIF_RING_CFG_vector n)]) ∧
      (s.msixMasked (s.get (F.HIF_RING_CFG_vector n)) = true → t.hif.msix = s.hif.msix ∧ s.get (F.HIF_RING_CFG_vector n) ∈ t.hif.pba))) ∧
  (∀ (n : Fin 96) (s : State), s.hif.bme = true → s.ringFetches n = true →
    Completes (.dmaError n .descriptor) s (fun t => t.get (F.HIF_RING_STS_dma_err n) = 1 ∧ t.get F.HIF_STS_dma_err = 1 ∧
      (t.ring n).stopped = true ∧ (t.ring n).owned = (s.ring n).owned ∧ t.logged 0x0121 n)) ∧
  (∀ (n : Fin 96) (s : State), n.val = 1 ∨ n.val = 2 → s.ringRuns n = true →
    Completes (.dmaError n .descriptor) s (fun t => t.get (F.HIF_RING_STS_dma_err n) = 1 ∧ t.get F.HIF_STS_dma_err = 1 ∧ t.logged 0x0121 n)) ∧
  (∀ (n : Fin 96) (d : DataDesc) (s : State), s.hif.bme = true → isH2f n = true ∨ isF2h n = true → (s.ring n).owned = [d] →
    Completes (.dmaError n .data) s (fun t => t.get (F.HIF_RING_STS_dma_err n) = 1 ∧ (t.ring n).owned = [] ∧ t.logged 0x0121 n ∧
      ∃ w, t.hif.writes.getLast? = some w ∧ w.data.getD (if isH2f n then 2 else 6) 0 = 8)) ∧
  (∀ (n : Fin 96) (l : Load) (s : State), s.hif.bme = true → s.ldr.load = some l → l.source = 3 → l.step ≠ .startup → l.region = false →
    Completes (.dmaError n .stream) s (fun t => t.get F.LDR_ERR_code = 0x11 ∧ t.get F.HIF_STS_dma_err = 1)) ∧
  (∀ (n : Fin 96) (c : AdminCmd) (cid slot : Nat) (s : State), s.hif.bme = true → s.hif.accepted = [c] → c.src = .ring cid slot →
    c.d.needsHost = true → c.d.op ≠ 0x10 → c.d.op ≠ 0x11 → s.ringFree 1 = true → s.hif.finished = [] →
    Completes (.dmaError n .buffer) s (fun t => t.hif.accepted = [] ∧ t.get F.HIF_STS_dma_err = 1 ∧
      ∃ w, t.hif.writes.getLast? = some w ∧ w.data.getD 0 0 = 8))

/-- R323, R396: the link comes up at a speed and a width over lanes that are all in service, and goes down; a Function Level Reset or a link-down returns the ring registers to their
reset values, counts a generation and raises event 0x0122; the mode stays. -/
def Obligations.TheLinkComesUpGoesDownAndResets : Prop :=
  (∀ (speed width : Fin 4) (s : State), s.mode ≠ .cold → s.unitOk 3 = true → ∀ (reversed : Bool) (inv : BitVec 8),
    ((∀ i ∈ linkLanes reversed (2 ^ width.val), i % 4 ∈ s.inService (i / 4)) →
      Completes (.pcieLinkUp speed width reversed inv) s (fun t => t.get F.HIF_STS_link_up = 1 ∧ t.get F.HIF_STS_speed = speed.val + 1 ∧
        t.get F.HIF_STS_width = 2 ^ width.val ∧ t.hif = { s.hif with link := .l0 })) ∧
    ((∃ i ∈ linkLanes reversed (2 ^ width.val), i % 4 ∉ s.inService (i / 4)) →
      Completes (.pcieLinkUp speed width reversed inv) s (fun t => t = s))) ∧
  (∀ s : State, s.hif.link ≠ .down → s.ldr.load = none → s.ldr.regionLoad = none →
    Completes .linkDown s (fun t => t.hif.link = .down ∧ t.get F.HIF_STS_link_up = 0 ∧ t.get F.HIF_STS_width = 0 ∧ t.mode = s.mode ∧ t.logged 0x0122 1 ∧
      t.get F.HIF_STS_generation = (s.get F.HIF_STS_generation + 1) % 256 ∧
      (∀ n : Fin 96, t.rd (R.HIF_RING_CFG n) = regReset (R.HIF_RING_CFG n) ∧ t.rd (R.HIF_RING_STS n) = regReset (R.HIF_RING_STS n)))) ∧
  (∀ s : State, s.mode ≠ .cold → s.ldr.load = none → s.ldr.regionLoad = none →
    Completes .functionLevelReset s (fun t => t.mode = s.mode ∧ t.logged 0x0122 0 ∧ t.get F.HIF_STS_link_up = s.get F.HIF_STS_link_up ∧
      t.get F.HIF_STS_generation = (s.get F.HIF_STS_generation + 1) % 256 ∧ t.hif.accepted.length = s.hif.accepted.length ∧
      (∀ n : Fin 96, t.rd (R.HIF_RING_CFG n) = regReset (R.HIF_RING_CFG n) ∧ t.rd (R.HIF_RING_STS n) = regReset (R.HIF_RING_STS n))))

/-! ## Admin commands (chapter 13, R492 to R494) -/

/-- R387, R388, R397, R418, R431, Table 13.7: commands that answer at once, the mailbox, and completions that wait. -/
def Obligations.AdminCommandsAnswer : Prop :=
  (∀ (src : CmdSrc) (d : AdminDesc) (s : State), s.waitsFor src d → d.op = 0x01 →
    Completes .nopCommand s (fun t => t.says src 0 0 0 0 ∧ t.hif.accepted = [] ∧ t.mode = s.mode)) ∧
  (∀ (src : CmdSrc) (d : AdminDesc) (s : State), s.waitsFor src d → d.op = 0x02 → s.hif.bme = true →
    Completes .query s (fun t => t.says src 0 0 0 0 ∧ ∃ ws, t.hif.writes = s.hif.writes ++ ⟨d.addr.toNat, s.queryRecord⟩ :: ws)) ∧
  (∀ (src : CmdSrc) (d : AdminDesc) (s : State), s.waitsFor src d → d.op = 0x31 → s.hif.bme = true →
    (∀ e, s.bistReport (d.arg0.getLsbD 0) d.arg1.toNat = .error e → Completes .bistReport s (fun t => t.says src e.1 e.2 0 0)) ∧
    (∀ bytes, s.bistReport (d.arg0.getLsbD 0) d.arg1.toNat = .ok bytes →
      (d.len.toNat < bytes.length → Completes .bistReport s (fun t => t.says src 2 0 bytes.length 0)) ∧
      (bytes.length ≤ d.len.toNat → Completes .bistReport s (fun t => t.says src 0 0 bytes.length 0 ∧
        ∃ ws, t.hif.writes = s.hif.writes ++ ⟨d.addr.toNat, bytes⟩ :: ws)))) ∧
  (∀ (src : CmdSrc) (d : AdminDesc) (s : State), s.waitsFor src d → d.op = 0x40 → s.hif.bme = true →
    Completes .scrubReport s (fun t => ∃ bytes ws, bytes.length ≤ d.len.toNat ∧ t.says src 0 0 bytes.length 0 ∧
      t.hif.writes = s.hif.writes ++ ⟨d.addr.toNat, bytes⟩ :: ws)) ∧
  (∀ (src : CmdSrc) (d : AdminDesc) (s : State), s.waitsFor src d → d.op = 0x50 → d.arg0.getLsbD 1 = false → s.hif.bme = true →
    let bytes := if d.arg0.getLsbD 0 then s.mapBytesInUse else s.countRecord
    (d.len.toNat < bytes.length → Completes .spareMap s (fun t => t.says src 2 0 bytes.length 0)) ∧
    (bytes.length ≤ d.len.toNat → Completes .spareMap s (fun t => t.says src 0 0 bytes.length 0 ∧
      ∃ ws, t.hif.writes = s.hif.writes ++ ⟨d.addr.toNat, bytes⟩ :: ws))) ∧
  (∀ (op : BitVec 8) (s : State), s.barOpen R.HIF_MBOX_CMD = true →
    let d : AdminDesc := { s.mboxDesc with opcode := op }
    (s.get F.HIF_MBOX_CMD_busy = 1 → Completes (.mailboxGo op) s (fun t => t.hif = s.hif ∧ t.get F.HIF_MBOX_CMD_busy = 1)) ∧
    (s.get F.HIF_MBOX_CMD_busy = 0 → (s.firstCheck false d).1 = 0 → Completes (.mailboxGo op) s (fun t =>
      t.get F.HIF_MBOX_CMD_busy = 1 ∧ t.hif.accepted = s.hif.accepted ++ [⟨.mailbox, d⟩])) ∧
    (s.get F.HIF_MBOX_CMD_busy = 0 → (s.firstCheck false d).1 ≠ 0 → Completes (.mailboxGo op) s (fun t =>
      t.says .mailbox (s.firstCheck false d).1 0 (s.firstCheck false d).2 0 ∧ t.hif.accepted = s.hif.accepted))) ∧
  (∀ (c : Completion) (s : State), s.hif.finished = [c] → s.hif.running = [] → s.deliverable c = true →
    Completes .adminCommandDone s (fun t => t.hif.finished = [] ∧ t.says c.src c.status c.detail c.res0 c.res1)) ∧
  (∀ (src : CmdSrc) (d : AdminDesc) (s : State), s.hif.finished = [] → s.hif.running = [⟨src, d⟩] → d.op = 0x21 →
    s.get (F.CAD_TRK_SW_busy (d.arg0.toNat % 8)) = 0 → (∀ cid slot, src = .ring cid slot → s.ringFree 1 = true) →
    Completes .adminCommandDone s (fun t => t.hif.running = [] ∧
      t.says src (if s.get (F.CAD_TRK_SW_result (d.arg0.toNat % 8)) = 1 then 0 else 7) 0 0 0))

/-- R223, R230, R278, R391 to R393, R407, R433, R523: commands that load, write the Cadence table, switch a source, test, write the settings memory
or change the mode. -/
def Obligations.AdminCommandsActOnTheModule : Prop :=
  (∀ (list : List (BitVec 8)) (src : CmdSrc) (d : AdminDesc) (s : State), s.waitsFor src d → d.op = 0x10 → d.store = false → d.source ≠ 3 →
    (d.source = 0 → s.hif.bme = true) →
    (d.source = 0 → hostList d list = none → Completes (.loadFull list) s (fun t => t.says src 2 0 0 0 ∧ t.mode = s.mode)) ∧
    (d.source ≠ 0 ∨ (hostList d list).isSome = true →
      (s.loadMissing (d.source == 0) = true → Completes (.loadFull list) s (fun t => t.says src 3 0x14 0 0 ∧ t.mode = s.mode)) ∧
      (s.loadMissing (d.source == 0) = false → Completes (.loadFull list) s (fun t => t.mode = .load ∧ t.get F.SUP_MODE_mode = 2 ∧
        ∃ l, t.ldr.load = some l ∧ l.step = .entered ∧ l.src = some src ∧ l.source.toNat = if d.source = 0 then 3 else d.source)))) ∧
  (∀ (data : List (BitVec 8)) (src : CmdSrc) (d : AdminDesc) (s : State), s.waitsFor src d → d.op = 0x20 → s.hif.bme = true →
    d.len.toNat = data.length →
    ((∃ e ∈ tableEntries data, e.1 % 4 ≠ 0 ∨ 0x1000 ≤ e.1) →
      Completes (.cadTableWrite data) s (fun t => t.says src 2 0 0 0 ∧ t.cad = s.cad ∧ t.rd R.CAD_STS = s.rd R.CAD_STS)) ∧
    ((∀ e ∈ tableEntries data, e.1 % 4 = 0 ∧ e.1 < 0x1000) →
      let r := (tableEntries data).foldl State.tableEntry (s.setHif { s.hif with accepted := [] }, 0, 0)
      Completes (.cadTableWrite data) s (fun t => t.cad = r.1.cad ∧ ∀ off, 0x40000 ≤ off → off < 0x41000 → t.rd off = r.1.rd off)) ∧
    (∀ off v, tableEntries data = [(off, v)] → off % 4 = 0 → off < 0x1000 → s.cadDiscards (0x40000 + off) v = true →
      Completes (.cadTableWrite data) s (fun t => t.says src 0 0 0 1 ∧
        t.cad = ((s.setHif { s.hif with accepted := [] }).cadWrite (0x40000 + off) v).cad))) ∧
  (∀ (src : CmdSrc) (d : AdminDesc) (s : State), s.waitsFor src d → d.op = 0x21 →
    let k := d.arg0.toNat % 8
    (s.switchBusy k = true → Completes .cadSourceSwitch s (fun t => t.says src 6 0 0 0 ∧
      t.get (F.CAD_TRK_SW_result k) = 3 ∧ t.logged 0x0506 k)) ∧
    (s.switchBusy k = false → s.trkState k = 0 ∨ s.srcValid (d.arg0.toNat / 8 % 4) = false → Completes .cadSourceSwitch s (fun t =>
      t.says src 3 0 0 0 ∧ t.get (F.CAD_TRK_SW_result k) = 3 ∧ t.logged 0x0506 k)) ∧
    (s.switchBusy k = false → s.trkState k ≠ 0 → s.srcValid (d.arg0.toNat / 8 % 4) = true → Completes .cadSourceSwitch s (fun t =>
      t.get (F.CAD_TRK_SW_busy k) = 1 ∧ t.hif.running = s.hif.running ++ [⟨src, d⟩] ∧ ∃ o, (t.trkT k).shadow = some o ∧
        o.src = d.arg0.toNat / 8 % 4 ∧ o.mul = d.arg1.toNat % 2 ^ 16 ∧ o.div = d.arg2.toNat % 2 ^ 24 ∧ o.ofs = d.arg3))) ∧
  (∀ (found : List TestFault) (src : CmdSrc) (d : AdminDesc) (s : State), s.waitsFor src d → d.op = 0x30 →
    (d.source = 0 → (List.range 64).any s.groupTestable = false → Completes (.bistRun found) s (fun t =>
      t.says src 0 4 (match s.flt.bist.run with | some r => r.id | none => 0) 0)) ∧
    (d.source = 0 → (List.range 64).any s.groupTestable = true → Completes (.bistRun found) s (fun t => t.hif.running = s.hif.running ++ [⟨src, d⟩] ∧ t.flt.bist.full = 1088 ∧
      t.flt.bist.planned = if d.arg2 = 0 then 16384 else d.arg2.toNat)) ∧
    (d.source ≠ 0 → Completes (.bistRun []) s (fun t => t.mode = s.mode ∧ ∃ c, t.hif.finished = [c] ∧ c.src = src ∧ c.status = 0))) ∧
  (∀ (ok : Bool) (base : Nat) (src : CmdSrc) (d : AdminDesc) (s : State), s.waitsFor src d → d.op = 0x50 → d.arg0.getLsbD 1 = true →
    s.mapAt = some base → Completes (.spareMapReset ok) s (fun t => t.says src (if ok then 0 else 8) 0 0 0 ∧
      (ok = true → t.loggedSome 0x0C04 ∧ ∀ a, base ≤ a → a < base + 0x20000 → t.norByte a = 0xFF) ∧ (ok = false → t.nor = s.nor))) ∧
  (∀ (data : List (BitVec 8)) (src : CmdSrc) (d : AdminDesc) (s : State), s.waitsFor src d → d.op = 0x60 → s.hif.bme = true →
    d.len.toNat = data.length →
    (∀ base, d.source = 0 → s.settingsAt = some base → (sectionsOf data.length data).isSome = true → s.norOk = true → data.length ≤ 65520 →
      base + 0x20000 ≤ s.norSize → s.get F.LDR_STS_set_copy < 2 →
      let c := s.get F.LDR_STS_set_copy
      let seq := match s.settingsRecord c with | some r => r.1 | none => 0
      Completes (.settingsWrite data true) s (fun t => t.get F.LDR_STS_set_copy = 1 - c ∧
        (0x20000 ≤ base → t.get F.LDR_STS_set_single = if (s.settingsRecord c).isSome then 0 else 1) ∧
        t.hif.finished = [⟨src, false, 0, 0, 0, 0⟩] ∧
        t.norRead (base + 0x10000 * (1 - c)) (16 + data.length) = settingsBytes (seq + 1) data) ∧
      Completes (.settingsWrite data false) s (fun t => t.get F.LDR_STS_set_copy = c ∧ t.hif.finished = [⟨src, false, 8, 0, 0, 0⟩] ∧
        (0x20000 ≤ base → t.get F.LDR_STS_set_single = if (s.settingsRecord c).isSome then 1 else 0))) ∧
    (∀ ok, d.source = 0 → s.settingsAt = none ∨ sectionsOf data.length data = none →
      Completes (.settingsWrite data ok) s (fun t => t.says src 2 0 0 0 ∧ t.nor = s.nor)) ∧
    (∀ ok, d.source = 1 → s.rawStatus d.arg1.toNat data.length ≠ 0 →
      Completes (.settingsWrite data ok) s (fun t => t.says src (s.rawStatus d.arg1.toNat data.length) 0 0 0 ∧ t.nor = s.nor)) ∧
    (∀ ok, d.source = 2 → data.length % 32 ≠ 0 → Completes (.settingsWrite data ok) s (fun t => t.says src 2 0 0 0 ∧ t.nor = s.nor))) ∧
  (∀ (src : CmdSrc) (d : AdminDesc) (s : State), s.waitsFor src d → d.op = 0x70 →
    (d.arg0.toNat % 8 = 1 → s.running = true → Completes .modeRequestHold s (fun t => t.mode = .hold ∧ t.get F.SUP_MODE_hold_cause = 1 ∧
      t.get F.SUP_MODE_mode = 5)) ∧
    (d.arg0.toNat % 8 = 2 → Completes .modeRequestRestart s (fun t => t.get F.SUP_RESET_cause = 1 ∧
      t.get F.SUP_RESET_warm = min 255 (s.get F.SUP_RESET_warm + 1) ∧ t.get F.HIF_STS_generation = (s.get F.HIF_STS_generation + 1) % 256 ∧
      t.hif.accepted = [] ∧ t.hif.running = [])))

/-- R420, R421, R490 to R494: the report is written to the buffer with event 0x0133, BAD_STATE with detail 2 answers once the fuse read path is
blocked, which an internal test instruction does where it is accepted. -/
def Obligations.AttestationReportsUntilAnInternalTestBlocksIt : Prop :=
  (∀ (nonce : List (BitVec 8)) (src : CmdSrc) (d : AdminDesc) (s : State), s.waitsFor src d → d.op = 0x71 → s.hif.bme = true → nonce.length = 32 →
    (s.attestReport nonce).length = 6336 ∧
    (s.ldr.fuseBlocked = true → Completes (.attest nonce) s (fun t => t.says src 3 2 0 0)) ∧
    (s.ldr.fuseBlocked = false → s.unitOk 7 = true → Completes (.attest nonce) s (fun t => t.logged 0x0133 0 ∧
      t.hif.finished = [⟨src, false, 0, 0, 6336, 0⟩] ∧ ∃ ws, t.hif.writes = s.hif.writes ++ ⟨d.addr.toNat, s.attestReport nonce⟩ :: ws))) ∧
  (∀ s : State,
    ((s.mode = .supervise ∨ s.mode = .hold) → s.fuses.testClose = false → s.latched = false →
      Completes .tapInternalTest s (fun t => t.ldr.fuseBlocked = true ∧ t.mode = s.mode)) ∧
    (s.fuses.testClose = true ∨ (s.mode ≠ .supervise ∧ s.mode ≠ .hold) → Completes .tapInternalTest s (fun t => t = s)))

/-! ## Groomer, rolling test, Moraine, lockstep (chapter 14) -/

/-- R399 to R406: a clean frame is left, one wrong bit is corrected and counted, an error of 2 or 3 bits or a short burst starts a
repair; the repair restores the frame or fails; a pass that takes too long is reported. A pass starts with the latches
rewritten from the held settings copy, and frames of a column that has moved come first. -/
def Obligations.TheGroomerCorrectsDetectsAndRepairs : Prop :=
  (∀ (n : Fin 16) (col minor : BitVec 8) (flips : BitVec 4096) (latch last : Bool) (s : State), s.get F.GRM_CFG_enable = 1 →
    bitOf (s.get F.GRM_STS_active) n = true → minor.toNat < minorsOf col.toNat → s.movingCol n ≠ some col.toNat →
    s.frameDue n col.toNat minor.toNat = true →
    let a := frameAddr n col.toNat minor.toNat
    let old := SMap.get (fun _ => 0) s.flt.bad a
    let e := old ^^^ s.groomBits n col.toNat minor.toNat flips
    (old = 0 → e = 0 → Completes (.groomerFrameCheck n col minor flips none false last) s (fun t =>
      t.frame n col.toNat minor.toNat = s.frame n col.toNat minor.toNat ∧ t.log = s.log ∧
      t.get (F.GRM_RCYC_passes n) = if last && (s.frameChecked n col.toNat minor.toNat).passFull n
        then (s.get (F.GRM_RCYC_passes n) + 1) % 2 ^ 16 else s.get (F.GRM_RCYC_passes n))) ∧
    (s.passOpen n = false → Completes (.groomerFrameCheck n col minor flips none true last) s (fun t => t.rd R.GRM_CFG = s.heldCfg ∧
      t.get F.GRM_SELF_latch = min (s.get F.GRM_SELF_latch + 1) 255 ∧ t.logged 0x0305 n)) ∧
    (oneBit e.toNat = true → Completes (.groomerFrameCheck n col minor flips none false last) s (fun t =>
      t.frame n col.toNat minor.toNat = s.frame n col.toNat minor.toNat ^^^ old ∧ SMap.get (fun _ => 0) t.flt.bad a = 0 ∧
      t.get F.GRM_SBU_count = min (s.get F.GRM_SBU_count + 1) (2 ^ 24 - 1))) ∧
    (oneBit e.toNat = false → e ≠ 0 → sureDetect e.toNat = true → a ∉ s.flt.repairs →
      Completes (.groomerFrameCheck n col minor flips none false last) s (fun t => t.flt.repairs = s.flt.repairs ++ [a] ∧
        SMap.get (fun _ => 0) t.flt.bad a = e ∧ t.logged 0x0302 n ∧ t.get F.GRM_MBU_detected = min (s.get F.GRM_MBU_detected + 1) 255 ∧
        (s.get F.GRM_MBU_POS_valid = 0 → t.get F.GRM_MBU_POS_addr = a % 2 ^ 20 ∧ t.get F.GRM_MBU_POS_valid = 1))) ∧
    (∀ c, Completes (.groomerFrameCheck n col minor flips (some c) latch last) s (fun t => t.logged 0x0305 n ∧
      bitOf (t.get F.GRM_SELF_copies) c = true ∧ t.get F.GRM_SELF_vote = min (s.get F.GRM_SELF_vote + 1) 255))) ∧
  (∀ (n : Fin 16) (col minor : BitVec 8) (flips : BitVec 4096) (out : Option (Fin 3)) (latch last : Bool) (s : State),
    s.frameDue n col.toNat minor.toNat = false → Completes (.groomerFrameCheck n col minor flips out latch last) s (fun t => t = s)) ∧
  (∀ (addr : BitVec 20) (s : State), addr.toNat ∈ s.flt.repairs →
    Completes (.mbuRepairDone addr) s (fun t =>
      ((s.repairFrame addr.toNat).isSome = true ∨ s.get F.GRM_CFG_reaction = 0 ∨ s.ldr.regionLoad = none →
        t.flt.repairs = s.flt.repairs.erase addr.toNat) ∧
      match s.repairFrame addr.toNat with
      | some f => SMap.get (fun _ => 0) t.fab.frames addr.toNat = f ∧ SMap.get (fun _ => 0) t.flt.bad addr.toNat = 0 ∧
          t.logged 0x0303 (addr.toNat / 65536) ∧ t.get F.GRM_MBU_repaired = min (s.get F.GRM_MBU_repaired + 1) 255 ∧ t.mode = s.mode
      | none => t.logged 0x0304 (addr.toNat / 65536) ∧ t.get F.GRM_MBU_unrepairable = min (s.get F.GRM_MBU_unrepairable + 1) 255 ∧
          (s.get F.GRM_CFG_reaction = 0 → t.mode = s.mode) ∧
          (s.get F.GRM_CFG_reaction = 1 → s.running = true → s.latched = false → t.mode = .hold ∧ t.get F.SUP_MODE_hold_cause = 2))) ∧
  (∀ (n : Fin 16) (s : State), s.get F.GRM_CFG_enable = 1 → bitOf (s.get F.GRM_STS_active) n = true →
    2000 * clamp 4 8 (s.get F.GRM_CFG_period) < s.time - SMap.get (fun _ => 0) s.flt.passStart n →
    Completes (.scrubOverrun n) s (fun t => bitOf (t.get F.GRM_STS_overrun) n = true ∧ t.logged 0x0306 n ∧
      (s.get F.GRM_CFG_reaction = 0 → t.mode = s.mode)))

/-- R50, R407 to R412: the rolling test takes the next group, tests its gap column, retires it after two failures, and moves the gap on through the group
when the window is open and the region is not frozen; a wait of a second is counted. -/
def Obligations.TheRollingTestMovesTheGap : Prop :=
  (∀ s : State, s.running = true → s.get F.BIST_CTL_enable = 1 → s.get F.BIST_STS_phase = 0 → s.flt.bist.open_ = true → s.dutyAllows = true →
    (∀ x, s.nextGroup = some x → s.colGap (x / 4) (x % 4) ≠ 16 → ¬ (x = s.flt.bist.cur ∧ s.flt.bist.begun = true) →
      Completes .columnTestStart s (fun t => t.get F.BIST_STS_phase = 5 ∧ t.get F.BIST_STS_region = x / 4 ∧ t.get F.BIST_STS_group = x % 4)) ∧
    (∀ x, s.nextGroup = some x → s.colGap (x / 4) (x % 4) = 16 ∨ (x = s.flt.bist.cur ∧ s.flt.bist.begun = true) →
      Completes .columnTestStart s (fun t => t.get F.BIST_STS_phase = 1 ∧ t.get F.BIST_STS_region = x / 4 ∧
      t.get F.BIST_STS_group = x % 4 ∧ t.get F.BIST_STS_column = 17 * (x % 4) + s.colGap (x / 4) (x % 4) ∧ t.get F.BIST_PAT_applied = 0)) ∧
    (s.nextGroup = none → s.flt.bist.cur ≠ 0 → Completes .columnTestStart s (fun t => t.loggedSome 0x0401 ∧ t.flt.bist.cur = 0 ∧
      t.flt.bist.open_ = true ∧ t.get F.BIST_PASS_passes = (s.get F.BIST_PASS_passes + 1) % 2 ^ 16))) ∧
  (∀ s : State, s.get F.BIST_STS_phase = 1 →
    let n := s.get F.BIST_STS_region
    let g := s.get F.BIST_STS_group
    Completes (.columnTestDone true) s (fun t => t.get F.BIST_STS_phase = (if s.colGap n g = 0 then 5 else 2) ∧
      t.get F.BIST_LAST_result = 0 ∧ t.get F.BIST_PAT_applied = s.flt.bist.tPlanned % 2 ^ 17 ∧ t.colGap n g = s.colGap n g) ∧
    (s.flt.bist.retest = false → Completes (.columnTestDone false) s (fun t => t.flt.bist.retest = true ∧ t.get F.BIST_STS_phase = 1 ∧
      t.log = s.log)) ∧
    (s.flt.bist.retest = true → s.get F.BIST_CTL_diag_en = 1 → s.fuses.testClose = false →
      Completes (.columnTestDone false) s (fun t => t.get F.BIST_STS_phase = 6 ∧ t.logged 0x0402 n)) ∧
    (s.flt.bist.retest = true → s.get F.BIST_CTL_diag_en = 0 ∨ s.fuses.testClose = true →
      Completes (.columnTestDone false) s (fun t => t.get F.BIST_STS_phase = 0 ∧ t.logged 0x0402 n ∧ t.logged 0x0C01 n ∧
        t.get (F.REGION_COLMAP_ret n g) = 1 ∧ t.colGap n g = s.get F.BIST_STS_column % 17 ∧ t.flt.bist.cur = s.flt.bist.cur + 1))) ∧
  (∀ (row : Fin 72) (cell : Fin 32) (bit : Fin 112) (s : State), s.get F.BIST_STS_phase = 6 →
    Completes (.columnDiagnosisDone row cell bit) s (fun t => t.get F.BIST_STS_phase = 0 ∧ t.logged 0x0C01 (s.get F.BIST_STS_region) ∧
      t.get (F.REGION_COLMAP_ret (s.get F.BIST_STS_region) (s.get F.BIST_STS_group)) = 1 ∧ t.get F.BIST_LAST_result = 1)) ∧
  (∀ s : State,
    let still := s.get (F.REGION_FREEZE_freeze (s.get F.BIST_STS_region)) = 0 ∧ s.get (F.REGION_FREEZE_hold_freeze (s.get F.BIST_STS_region)) = 0
    (¬ still → Completes .migrationCopyDone s (fun t => t = s) ∧ Completes .migration s (fun t => t = s)) ∧
    (still → s.get F.BIST_STS_phase = 2 → Completes .migrationCopyDone s (fun t => t.get F.BIST_STS_phase = 3 ∧ t.flt.bist.waiting = true)) ∧
    (still → s.get F.BIST_STS_phase = 5 → Completes .migrationCopyDone s (fun t => t.get F.BIST_STS_phase = 5 ∧ t.flt.bist.waiting = true))) ∧
  (∀ s : State, s.flt.bist.waiting = true → s.windowOpen (s.get F.BIST_STS_region) 3 = true →
    let n := s.get F.BIST_STS_region
    let g := s.get F.BIST_STS_group
    s.get (F.REGION_FREEZE_freeze n) = 0 → s.get (F.REGION_FREEZE_hold_freeze n) = 0 →
    (s.get F.BIST_STS_phase = 3 → Completes .migration s (fun t => t.colGap n g = s.colGap n g - 1 ∧ t.get F.BIST_STS_phase = 0 ∧
      t.flt.bist.waiting = false ∧ t.fab.frames = s.fab.frames ∧ t.fab.nodes = s.fab.nodes)) ∧
    (s.get F.BIST_STS_phase = 5 → s.colGap n g < 16 → Completes .migration s (fun t => t.colGap n g = s.colGap n g + 1 ∧
      t.get F.BIST_STS_phase = (if s.colGap n g + 1 = 16 then 0 else 5) ∧ t.fab.frames = s.fab.frames ∧ t.fab.nodes = s.fab.nodes))) ∧
  (∀ (n : Fin 16) (s : State), s.flt.bist.waiting = true → s.get F.BIST_STS_region = n → s.windowOpen n 3 = false →
    Completes (.windowWaitExpiry n) s (fun t => t.get F.BIST_WAIT_count = min (s.get F.BIST_WAIT_count + 1) (2 ^ 16 - 1) ∧ t.logged 0x0404 n))

/-- R427, R428, R430: a report is answered by a spare of its kind with event 0x0C01, a unit without one is retired with event 0x0C02, and the record
of the books is written or its failure shown. -/
def Obligations.MoraineSubstitutesRetiresAndRecords : Prop :=
  (∀ (e : MapEntry) (s : State), s.flt.reports = [e] → s.answerable e = true → e.inst < 16 →
    (e.kind = 1 → e.pos < 68 → Completes .moraineSubstitution s (fun t => t.flt.reports = [] ∧ t.morHas 1 e.inst e.pos = true ∧
      t.colGap e.inst (e.pos / 17) = e.pos % 17 ∧ t.get (F.REGION_COLMAP_ret e.inst (e.pos / 17)) = 1)) ∧
    (e.kind = 2 → e.pos / 256 < 4 → e.pos % 256 < 64 → Completes .moraineSubstitution s (fun t => t.flt.reports = [] ∧
      t.morHas 2 e.inst e.pos = true ∧ t.get (F.REGION_SPR_MAP_ret e.inst (e.pos / 256) (e.pos % 256 / 16)) = 1)) ∧
    (e.kind = 3 → e.pos / 256 < 2 → e.pos % 256 < 76 → Completes .moraineSubstitution s (fun t => t.flt.reports = [] ∧
      t.morHas 3 e.inst e.pos = true ∧ t.get (F.REGION_FIRN_MAP_ret e.inst (e.pos / 256) (e.pos % 256 / 19)) = 1)) ∧
    (e.kind = 4 → s.rowsUsed e.inst (e.pos / 256) (e.pos % 256) < 2 → Completes .moraineSubstitution s (fun t => t.flt.reports = [] ∧
      t.flt.books.any (fun x => x.kind == 4 && x.inst == e.inst && x.pos == e.pos && x.info % 512 == e.info % 512) = true))) ∧
  (∀ (n : Fin 16) (e : MapEntry) (s : State), s.flt.reports = [e] → e.inst = n → s.spareFor e = false → s.regionRetired n = false → s.latched = false →
    Completes (.unitRetire (.region n)) s (fun t => t.regionRetired n = true ∧ t.logged 0x0C02 n ∧ t.mode ≠ .run)) ∧
  (∀ (u : Fin 48) (s : State), s.morHas 10 0 u = false → s.latched = false →
    Completes (.unitRetire (.spoke u)) s (fun t => t.morHas 10 0 u = true ∧ t.logged 0x0C02 0 ∧ t.mode ≠ .run ∧
      (if u.val < 32 then bitOf (t.get F.FLT_RET_SPK0_units) u.val else bitOf (t.get F.FLT_RET_SPK1_units) (u.val - 32)) = true)) ∧
  (∀ (n : Fin 60) (s : State), s.laneState n = 12 →
    s.laneLogical n = 4 ∨ (s.laneLogical n < 4 ∧ s.spareLane (n.val / 5) = none ∧ s.lanePhys (n.val / 5) (s.laneLogical n) = n) →
    Completes (.unitRetire (.lane n)) s (fun t => t.morHas 6 (n.val / 5) (n.val % 5) = true ∧ t.logged 0x0C02 (n.val / 5))) ∧
  (∀ (p : Fin 4) (s : State), s.inService (p.val + 2) = [] → s.portRetired p = false → s.latched = false →
    Completes (.unitRetire (.port p)) s (fun t => t.portRetired p = true ∧ t.portState p = 0 ∧ t.logged 0x0C02 0 ∧ t.mode ≠ .run)) ∧
  (∀ s : State, s.get F.FLT_MOR_STS_pending = 1 →
    Completes (.repairMapWrite false) s (fun t => t.get F.FLT_MOR_STS_write_err = 1 ∧ t.get F.FLT_MOR_STS_pending = 1 ∧ t.loggedSome 0x0C03) ∧
    ∀ base, s.mapAt = some base →
      let c := match s.mapView.use with | some u => 1 - u | none => 0
      let bytes := mapBytes s.fuses.duk (s.mapView.seq + 1) s.flt.books
      base + 0x10000 * c + bytes.length ≤ s.norSize →
      Completes (.repairMapWrite true) s (fun t => t.get F.FLT_MOR_STS_pending = 0 ∧ t.norRead (base + 0x10000 * c) bytes.length = bytes))

/-- R422 to R424: arming, the comparison of whole and short groups with event 0x0360 and the first position, the lag with event 0x0361. -/
def Obligations.LockstepPairsAreCompared : Prop :=
  (∀ (k : Fin 8) (v : BitVec 32) (s : State),
    Completes (.lockstepArm k v) s (fun t => t.get (F.FLT_LS_CTL_arm k) = v.toNat % 2 ∧ t.get (F.FLT_LS_CTL_lag_tokens k) = v.toNat / 4 % 64 ∧
      t.get (F.FLT_LS_STS_comparing k) = if v.getLsbD 0 then s.get (F.FLT_LS_STS_comparing k) else 0)) ∧
  (∀ (k : Fin 8) (tap : Fin 64) (s : State), s.tapUsed k tap = true →
    let a := s.sideOf (2 * k.val) tap
    let b := s.sideOf (2 * k.val + 1) tap
    let out (m : Nat) (t : State) : Prop := t.get (F.FLT_LS_STS_groups k) = (s.get (F.FLT_LS_STS_groups k) + 1) % 2 ^ 16 ∧
      match firstDiff (a.take m) (b.take m) with
      | none => t.get (F.FLT_LS_STS_mismatch k) = s.get (F.FLT_LS_STS_mismatch k) ∧ t.mode = s.mode ∧ t.log = s.log
      | some i => t.get (F.FLT_LS_STS_mismatch k) = 1 ∧ t.logged 0x0360 k ∧
          (s.get (F.FLT_LS_STS_mismatch k) = 0 → t.get (F.FLT_LS_POS_tap k) = tap ∧ t.get (F.FLT_LS_POS_position k) =
            ((SMap.get (fun _ => {}) s.flt.ls (k.val * 64 + tap.val)).pos.toNat + i) % 2 ^ 24) ∧
          (s.get (F.FLT_LS_CTL_reaction k) = 0 → t.mode = s.mode) ∧
          (s.get (F.FLT_LS_CTL_reaction k) = 1 → s.running = true → s.latched = false → t.mode = .hold)
    (4 ≤ a.length → 4 ≤ b.length → Completes (.lockstepCompare k tap) s (out 4)) ∧
    (0 < min a.length b.length → min a.length b.length < 4 →
      Completes (.lockstepShortGroup k tap) s (out (min a.length b.length)))) ∧
  (∀ (k : Fin 8) (tap : Fin 64) (byTime : Bool) (s : State), s.tapUsed k tap = true →
    (∀ n : Fin 2, s.get (F.REGION_FREEZE_freeze (2 * k.val + n.val)) = 0 ∧ s.get (F.REGION_FREEZE_hold_freeze (2 * k.val + n.val)) = 0) →
    let a := (s.sideOf (2 * k.val) tap).length
    let b := (s.sideOf (2 * k.val + 1) tap).length
    (clamp 1 60 (s.get (F.FLT_LS_CTL_lag_tokens k)) < max a b - min a b ∨ (byTime = true ∧ a ≠ b)) →
    Completes (.lockstepLag k tap byTime) s (fun t => t.get (F.FLT_LS_STS_lag k) = 1 ∧ t.logged 0x0361 k))

/-! ## System pins, banks, peripherals (chapter 15) -/

/-- R440, R443 to R449, R451: claims take pins in the order of Table 15.2, a switch hands a pin to its function, PIN_SET and PIN_CLR drive it, a lock
pair locks it, its edges are watched, shorts and open wires are found, a bank outside its window goes high-impedance. -/
def Obligations.PinsAreClaimedDrivenAndProtected : Prop :=
  (∀ (id p : Nat) (s : State), s.pins.conf = true → id ∈ claimOrder → p ∈ s.claimPins id →
    (∀ q ∈ s.claimPins id, s.pinLocked q = false ∧ ∀ j ∈ claimOrder, claimOrder.idxOf j < claimOrder.idxOf id → q ∉ s.claimPins j) →
    Completes .pinClaimEvaluate s (fun t => t.holder p = some id ∧ t.pins.losing.getLsbD id = false)) ∧
  (∀ (p : Fin 64) (s : State), s.pins.conf = true → s.pinLocked p = false → s.get (F.PIN_CFG_ana p) = 0 → (∀ id ∈ claimOrder, p.val ∉ s.claimPins id) →
    Completes .pinClaimEvaluate s (fun t => t.holder p = none)) ∧
  (∀ s : State, s.pins.conf = true → 42 ∈ s.claimPins 11 → (∀ q ∈ s.claimPins 11, s.pinLocked q = false) → bitOf (s.get F.PER_EN_en) 5 = true →
    s.pins.losing.getLsbD 5 = false →
    Completes .pinClaimEvaluate s (fun t => bitOf (t.get F.PER_CONFLICT_lost) 5 = true ∧ t.pins.losing.getLsbD 5 = true ∧ t.logged 0x0B01 (5 * 256 + 42))) ∧
  (∀ (p : Fin 64) (s : State), s.pins.keeper.getLsbD p = true →
    Completes (.pinFunctionSwitch p) s (fun t => t.pins.keeper.getLsbD p = false ∧ (s.get (F.PIN_CFG_short p) = 0 → s.pins.parked = false →
      s.pins.conf = true → s.holder p = none → s.unitOk 2 = true → s.excStopped p = false → SMap.get (fun _ => .z) t.pins.drive p = s.gpioPad p))) ∧
  (∀ (k : Fin 4) (p : Fin 64) (s : State), p.val = 28 + k.val → s.pins.keeper.getLsbD p = true → s.holder p = some (16 + k.val) → s.pins.conf = true →
    s.latched = false → s.unitOk 2 = true → s.get (F.PIN_CFG_short p) = 0 → Completes (.pinFunctionSwitch p) s (fun t => SMap.get (fun _ => .z) t.pins.drive p = s.excPad k)) ∧
  (∀ s : State, s.pins.conf = false → Completes .pinClaimEvaluate s (fun t => t = s)) ∧
  (∀ (port : Fin 4) (mask : BitVec 16) (s : State),
    (s.barOpen (R.PIN_SET port) = true → Completes (.pinSet port mask) s (fun t => t.get (F.PIN_OUT_out port) = s.get (F.PIN_OUT_out port) ||| mask.toNat ∧ t.pins.lockArmed = none)) ∧
    (s.barOpen (R.PIN_CLR port) = true → Completes (.pinClr port mask) s (fun t => t.get (F.PIN_OUT_out port) = s.get (F.PIN_OUT_out port) &&& (~~~ mask).toNat ∧
      t.pins.lockArmed = none))) ∧
  (∀ (port : Fin 4) (mask : BitVec 16) (s : State), s.barOpen (R.PIN_LOCK port) = true →
    Completes (.pinLockFirst port) s (fun t => t.pins.lockArmed = some port.val ∧ t.regs = s.regs) ∧
    (s.pins.lockArmed = some port.val → Completes (.pinLockSecond port mask) s (fun t => t.pins.lockArmed = none ∧ ∀ n : Fin 16,
      t.pinLocked (16 * port.val + n.val) = (mask.getLsbD n || s.pinLocked (16 * port.val + n.val)))) ∧
    (s.pins.lockArmed ≠ some port.val → Completes (.pinLockSecond port mask) s (fun t => t.pins.lockArmed = none ∧ t.regs = s.regs)) ∧
    Completes .pinLockTimeout s (fun t => t.pins.lockArmed = none ∧ t.regs = s.regs)) ∧
  (∀ (n : Fin 16) (rising : Bool) (s : State),
    let port := s.get (F.PIN_IRQ_SEL_port n)
    s.pinAnalog (16 * port + n.val) = false →
    Completes (.pinIrqEdge n rising) s (fun t => bitOf (t.get (F.PIN_IN_level port)) n = rising ∧ bitOf (t.get F.PIN_IRQ_STS_line) n =
      (bitOf (s.get F.PIN_IRQ_STS_line) n || (if rising then s.get (F.PIN_IRQ_EDGE_edge n) % 2 == 1 else decide (2 ≤ s.get (F.PIN_IRQ_EDGE_edge n)))))) ∧
  (∀ (pin : Fin 384) (sensed : Bool) (s : State),
    let p := pin.val % 64
    let u := 6 * (pin.val / 48) + (pin.val % 48) / 8
    let q := pin.val % 8
    (s.sysShort p sensed = true → Completes (.shortDetect false pin sensed) s (fun t => t.get (F.PIN_CFG_short p) = 1 ∧
      SMap.get (fun _ => .z) t.pins.drive p = (if s.unitOk 2 then shortPad (s.sysPark p) sensed else .z))) ∧
    (s.sysShort p sensed = false → Completes (.shortDetect false pin sensed) s (fun t => t = s)) ∧
    (shortAgainst (s.pad u q) sensed = true → (s.isDiff u (q / 2) = true → s.pad u (q / 2 * 2) ≠ .z) → Completes (.shortDetect true pin sensed) s (fun t => t.get (F.SPK_PAD_short u q) = 1 ∧
      (s.interlocked u (q / 2) = false → s.isDiff u (q / 2) = false → s.get (F.BANK_CFG_vio_ok (u / 6)) = 1 →
        t.pad u q = shortPad (s.parkPad u q) sensed)))) ∧
  (∀ (found : BitVec 64) (p : Fin 64) (s : State), s.get (F.PIN_CFG_owt_en p) = 1 → s.sysDriven p = false → s.pins.keeper.getLsbD p = false →
    Completes (.openWireTest found) s (fun t => t.pins.lastOpen.getLsbD p = found.getLsbD p ∧
      (found.getLsbD p = true → s.pins.lastOpen.getLsbD p = true → t.get (F.PIN_CFG_open p) = 1 ∧
        (s.get (F.PIN_CFG_open p) = 0 → t.logged 0x0B04 p)))) ∧
  (∀ (b : Fin 8) (mv : BitVec 12) (s : State), s.mode ≠ .cold → Completes (.bankSupplyChange b mv) s (fun t => t.get (F.BANK_CFG_vio b) = mv.toNat ∧
    t.get (F.BANK_CFG_vio_ok b) = (if s.vioGood b mv.toNat then 1 else 0) ∧
    (s.vioGood b mv.toNat = false → t.logged 0x0B05 b ∧ ∀ (i : Fin 6) (p : Fin 8), t.pad (6 * b.val + i.val) p = .z))) ∧
  (∀ (b : Fin 8) (mv : BitVec 12) (s : State), s.mode = .cold → Completes (.bankSupplyChange b mv) s (fun t =>
    t.get (F.BANK_CFG_vio b) = mv.toNat ∧ t.log = s.log))

/-- R454 to R457, R461: bytes and words enter and leave the FIFOs of the peripherals, in order; what does not fit, fails or is late is flagged. -/
def Obligations.PeripheralsMoveBytesAndWords : Prop :=
  (∀ (k : Fin 2) (b : BitVec 8) (s : State), s.barOpen (R.UART_TX k) = true →
    ((fifo s.pins.uartTx k).length < 64 → Completes (.uartTx k b) s (fun t => fifo t.pins.uartTx k = fifo s.pins.uartTx k ++ [b] ∧
      t.get (F.UART_STS_tx_lvl k) = (fifo s.pins.uartTx k).length + 1)) ∧
    (64 ≤ (fifo s.pins.uartTx k).length → Completes (.uartTx k b) s (fun t => t.pins.uartTx = s.pins.uartTx ∧ t.get (F.UART_STS_tx_lost k) = 1))) ∧
  (∀ (k : Fin 2) (b : BitVec 8) (q : List (BitVec 8)) (s : State), fifo s.pins.uartTx k = b :: q → s.get (F.UART_STS_busy k) = 1 → q.length < 128 →
    Completes (.uartByteSent k) s (fun t => fifo t.pins.uartTx k = q ∧ fifo t.pins.uartSent k = fifo s.pins.uartSent k ++ [s.uartFrame k b] ∧ t.get (F.UART_STS_tx_lvl k) = q.length ∧ (q = [] → t.get (F.UART_STS_busy k) = 0))) ∧
  (∀ (k : Fin 2) (b : BitVec 8) (ferr perr brk : Bool) (s : State), s.perRuns k = true →
    ((fifo s.pins.uartRx k).length < 64 → Completes (.uartByteReceived k b ferr perr brk) s (fun t =>
      fifo t.pins.uartRx k = fifo s.pins.uartRx k ++ [⟨if s.on (F.UART_CFG_bits7 k) then b &&& 0x7F else b, ferr, perr && s.uartParity k, brk⟩])) ∧
    (64 ≤ (fifo s.pins.uartRx k).length → Completes (.uartByteReceived k b ferr perr brk) s (fun t => t.pins.uartRx = s.pins.uartRx ∧
      t.get (F.UART_STS_overrun k) = 1 ∧ t.logged 0x0B06 k))) ∧
  (∀ (k : Fin 2) (e : UartByte) (q : List UartByte) (s : State), s.barOpen (R.UART_RX k) = true →
    (fifo s.pins.uartRx k = e :: q → Completes (.uartRx k) s (fun t => fifo t.pins.uartRx k = q ∧ t.readData.toNat = uartWord e)) ∧
    (fifo s.pins.uartRx k = [] → Completes (.uartRx k) s (fun t => t = { s with readData := 0 }))) ∧
  (∀ (k : Fin 2) (w : BitVec 32) (s : State), s.barOpen (R.SPI_TX k) = true →
    ((fifo s.pins.spiTx k).length < 16 → Completes (.spiTx k w) s (fun t => fifo t.pins.spiTx k = fifo s.pins.spiTx k ++ [w] ∧
      t.get (F.SPI_STS_tx_lvl k) = (fifo s.pins.spiTx k).length + 1)) ∧
    (16 ≤ (fifo s.pins.spiTx k).length → Completes (.spiTx k w) s (fun t => t.pins.spiTx = s.pins.spiTx ∧ t.get (F.SPI_STS_tx_lost k) = 1))) ∧
  (∀ (k : Fin 2) (v w : BitVec 32) (q : List (BitVec 32)) (s : State), fifo s.pins.spiTx k = v :: q → s.get (F.SPI_STS_busy k) = 1 →
    (fifo s.pins.spiRx k).length < 16 →
    Completes (.spiWordDone k w) s (fun t => fifo t.pins.spiTx k = q ∧ fifo t.pins.spiRx k = fifo s.pins.spiRx k ++ [s.spiMask k w] ∧
      t.get (F.SPI_STS_rx_lvl k) = (fifo s.pins.spiRx k).length + 1 ∧
      fifo t.pins.spiSent k = fifo s.pins.spiSent k ++ [s.spiFrame k v])) ∧
  (∀ (k : Fin 2) (w : BitVec 32) (q : List (BitVec 32)) (s : State), s.barOpen (R.SPI_RX k) = true →
    (fifo s.pins.spiRx k = w :: q → Completes (.spiRx k) s (fun t => fifo t.pins.spiRx k = q ∧ t.readData = w)) ∧
    (fifo s.pins.spiRx k = [] → Completes (.spiRx k) s (fun t => t = { s with readData := 0 }))) ∧
  (∀ (k : Fin 2) (v : BitVec 32) (low : Bool) (s : State), s.barOpen (R.I2C_CMD k) = true → s.get (F.I2C_STS_busy k) = 0 → s.perRuns (4 + k.val) = true →
    (∀ p ∈ s.claimPins (4 + k.val), s.pins.keeper.getLsbD p = false) →
    Completes (.i2cCmd k v low) s (fun t => t.get (F.I2C_STS_busy k) = 1 ∧ SMap.get (fun _ => 0) t.pins.i2cCmd k = v ∧
      SMap.get (fun _ => 0) t.pins.i2cClears k = SMap.get (fun _ => 0) s.pins.i2cClears k + if low then 1 else 0)) ∧
  (∀ (k : Fin 2) (nack arb timeout : Bool) (data : List (BitVec 8)) (s : State), s.get (F.I2C_STS_busy k) = 1 →
    let cmd := SMap.get (fun _ => 0) s.pins.i2cCmd k
    let n := (cmd.extractLsb' 11 8).toNat + 1
    ((nack || arb || timeout) = true → Completes (.i2cTransactionEnd k nack arb timeout data) s (fun t => t.get (F.I2C_STS_busy k) = 0 ∧
      t.logged 0x0B07 k ∧ (nack = true → t.get (F.I2C_STS_nack k) = 1) ∧ (arb = true → t.get (F.I2C_STS_arb k) = 1) ∧
      (timeout = true → t.get (F.I2C_STS_timeout k) = 1))) ∧
    (cmd.getLsbD 10 = true → Completes (.i2cTransactionEnd k false false false data) s (fun t => t.get (F.I2C_STS_busy k) = 0 ∧
      fifo t.pins.i2cRx k = (fifo s.pins.i2cRx k ++ data.take n).take 256)) ∧
    (cmd.getLsbD 10 = false → Completes (.i2cTransactionEnd k false false false data) s (fun t => t.get (F.I2C_STS_busy k) = 0 ∧
      fifo t.pins.i2cTx k = (fifo s.pins.i2cTx k).drop n ∧ fifo t.pins.i2cSent k = fifo s.pins.i2cSent k ++ (fifo s.pins.i2cTx k).take n))) ∧
  (∀ (k : Fin 2) (b : BitVec 8) (q : List (BitVec 8)) (s : State), s.barOpen (R.I2C_RX k) = true →
    (fifo s.pins.i2cRx k = b :: q → Completes (.i2cRx k) s (fun t => fifo t.pins.i2cRx k = q ∧ t.readData = b.setWidth 32)) ∧
    (fifo s.pins.i2cRx k = [] → Completes (.i2cRx k) s (fun t => t = { s with readData := 0 }))) ∧
  (∀ (k : Fin 2) (s : State), s.get (F.SSI_STS_busy k) = 0 → s.perRuns (6 + k.val) = true →
    let upd := (s.rd R.CAD_UPD_LO).toNat + 2 ^ 32 * (s.rd R.CAD_UPD_HI).toNat
    (s.barOpen (R.SSI_CTL k) = true → Completes (.ssiTrig k) s (fun t => t.get (F.SSI_STS_busy k) = 1 ∧ SMap.get (fun _ => 0) t.pins.ssiBusy k = upd ∧
      t.rd (R.SSI_STAMP_LO k) = s.rd R.CAD_UPD_LO ∧ t.rd (R.SSI_STAMP_HI k) = s.rd R.CAD_UPD_HI)) ∧
    (s.get (F.SSI_CFG_period k) ≠ 0 → Completes (.ssiPeriod k) s (fun t => t.get (F.SSI_STS_busy k) = 1 ∧
      SMap.get (fun _ => 0) t.pins.ssiBusy k = upd ∧ t.rd (R.SSI_STAMP_LO k) = s.rd R.CAD_UPD_LO ∧ t.rd (R.SSI_STAMP_HI k) = s.rd R.CAD_UPD_HI))) ∧
  (∀ (k : Fin 2) (raw : BitVec 32) (h l : Bool) (s : State), s.get (F.SSI_STS_busy k) = 1 →
    ((h && l) = false → Completes (.ssiReadDone k raw h l) s (fun t => t.get (F.SSI_STS_busy k) = 0 ∧ t.get (F.SSI_STS_err k) = 1 ∧
      t.logged 0x0B08 k ∧ t.rd (R.SSI_POS k) = s.rd (R.SSI_POS k))) ∧
    Completes (.ssiReadDone k raw true true) s (fun t => t.get (F.SSI_STS_busy k) = 0 ∧
      (s.get (F.SSI_CFG_gray k) = 0 → (t.rd (R.SSI_POS k)).toNat = raw.toNat % 2 ^ s.ssiBits k) ∧
      (s.get (F.SSI_CFG_gray k) = 1 → (t.rd (R.SSI_POS k)).toNat = grayToBin (s.ssiBits k) (raw.toNat % 2 ^ s.ssiBits k) % 2 ^ 32) ∧
      t.rd (R.SSI_STAMP_LO k) = s.rd (R.SSI_STAMP_LO k) ∧ t.rd (R.SSI_STAMP_HI k) = s.rd (R.SSI_STAMP_HI k)))

/-! ## Registers (chapter 19) -/

/-- R10, R181, R182, R356, R515, R517, R521 and the field types of Table 19.6: a write reaches a register by every path, RW bits take the value, a 1
clears W1C and RWS bits, other bits stay; in COLD nothing is reached, behind a stopped clock a write waits or is forced; a clear bit clears its counts. -/
def Obligations.WritesFollowTheFieldTypes : Prop :=
  (∀ (r : RegRow) (old v : BitVec 32) (i : Nat), i < 32 → (r.written old v).getLsbD i =
    ((if r.rw.testBit i then v.getLsbD i else old.getLsbD i) && ! (v.getLsbD i && (r.w1c.testBit i || r.rws.testBit i)))) ∧
  (∀ (p : Path) (off : BitVec 24) (v : BitVec 32) (r : RegRow) (s : State), s.mode ≠ .cold → off.toNat < 0x10000 → regRow? off.toNat = some r →
    off.toNat ≠ R.SUP_CROSS_CTL → clearsBy off.toNat v = false →
    Completes (.registerWrite p off v) s (fun t => t.rd off.toNat = r.written (s.rd off.toNat) v ∧ ∀ o, o ≠ off.toNat → t.rd o = s.rd o)) ∧
  (∀ (off : BitVec 24) (v : BitVec 32) (s : State), s.mode ≠ .cold → off.toNat ≠ R.SUP_CROSS_CTL →
    (∀ d, domainOf off.toNat = some d → s.clkStopped d = false) →
    Completes (.registerWrite .bar0 off v) s (fun t => t = s.regWrite off.toNat v)) ∧
  (∀ (p : Path) (off : BitVec 24) (v : BitVec 32) (s : State), s.mode = .cold → Completes (.registerWrite p off v) s (fun t => t = s)) ∧
  (∀ (p : Path) (off : BitVec 24) (v : BitVec 32) (d : Nat) (s : State), s.mode ≠ .cold → domainOf off.toNat = some d → s.clkStopped d = true →
    (s.clk.dead.getLsbD d = false → Completes (.registerWrite p off v) s (fun t => t.regs = s.regs ∧
      t.clk.waits = s.clk.waits ++ [⟨p, off.toNat, some v, none⟩])) ∧
    (s.clk.dead.getLsbD d = true → Completes (.registerWrite p off v) s (fun t => t.clk.waits = s.clk.waits ∧
      t.get F.SUP_CROSS_STS_forced = min (s.get F.SUP_CROSS_STS_forced + 1) (2 ^ 16 - 1)))) ∧
  (∀ (p : Path) (off : BitVec 24) (b : Nat) (fs : List RF) (f : RF) (s : State), s.mode ≠ .cold → clearOf off.toNat = some (b, fs) → f ∈ fs →
    (∀ d, domainOf off.toNat = some d → s.clkStopped d = false) → Completes (.counterClear p off) s (fun t => t.get f = 0)) ∧
  (∀ (f : PFrame) (r : RegRow) (s : State), s.mode ≠ .cold → s.pel.mgmt = [(0, f)] → f.type = 4 →
    let off := fieldAt f.payload 0 4
    let v : BitVec 32 := BitVec.ofNat 32 (fieldAt f.payload 4 4)
    off < 0x10000 → regRow? off = some r → off ≠ R.SUP_CROSS_CTL → clearsBy off v = false →
    (s.get F.PEL_CFG_mgmt_wr = 1 → Completes .mgmtWrite s (fun t => t.pel.mgmt = [] ∧ t.rd off = r.written (s.rd off) v)) ∧
    (s.get F.PEL_CFG_mgmt_wr = 0 → Completes .mgmtWrite s (fun t => t.pel.mgmt = [] ∧ t.rd off = s.rd off)))

/-- R515: every register lies in a page of Table 19.1, page slots 60 to 63 of the lanes hold none, a read at an offset without a register returns 0 and
a write there changes no register. -/
def Obligations.OffsetsOutsideEveryPageReadZero : Prop :=
  (∀ off, (regRow? off).isSome = true → off < 0x30000 ∨ (0x40000 ≤ off ∧ off < 0xB0000) ∨ (0x100000 ≤ off ∧ off < 0x23C000) ∨
    (0x240000 ≤ off ∧ off < 0x24C000) ∨ (0x280000 ≤ off ∧ off < 0x284000) ∨ (0x2C0000 ≤ off ∧ off < 0x2F0000)) ∧
  (∀ off, 0x23C000 ≤ off → off < 0x240000 → regRow? off = none) ∧
  (∀ (f : PFrame) (s : State), s.mode ≠ .cold → s.pel.mgmt = [(0, f)] → f.type = 3 → regRow? (fieldAt f.payload 0 4) = none →
    (∀ d, domainOf (fieldAt f.payload 0 4) = some d → s.clkStopped d = false) → Completes .mgmtRead s (fun t => t.readData = 0)) ∧
  (∀ (p : Path) (off : Nat) (s : State), regRow? off = none → s.regRead p off = { s with readData := 0 }) ∧
  (∀ (off : BitVec 24) (v : BitVec 32) (s : State), s.mode ≠ .cold → regRow? off.toNat = none →
    (∀ d, domainOf off.toNat = some d → s.clkStopped d = false) → Completes (.registerWrite .bar0 off v) s (fun t => t.regs = s.regs))

/-- R88, R116, R210, R356, R457, R516, R522: a read gives its register and captures what belongs to it for its path; readback gives a frame with its
state bits; a request that is no doubleword has no effect. -/
def Obligations.ReadsCaptureTheirCompanions : Prop :=
  (∀ (p : Path) (k : Fin 2) (s : State), s.mode ≠ .cold → s.clkStopped 31 = false →
    Completes (.ssiPosRead p k) s (fun t => t.readData = s.rd (R.SSI_POS k) ∧ t.capOf p (R.SSI_STAMP_LO k) = some (s.rd (R.SSI_STAMP_LO k)) ∧
      t.capOf p (R.SSI_STAMP_HI k) = some (s.rd (R.SSI_STAMP_HI k)) ∧ t.regs = s.regs)) ∧
  (∀ (p : Path) (k : Fin 8) (s : State), s.mode ≠ .cold → s.clkStopped 10 = false →
    Completes (.trackAngleRead p k) s (fun t => t.readData = s.rd (R.CAD_TRK_ANG k) ∧ t.capOf p (R.CAD_TRK_TURN k) = some (s.trkTurn k) ∧
      t.capOf p (R.CAD_TRK_VEL k) = some (s.trkVel k) ∧ t.capOf p (R.CAD_TRK_ERR k) = some (s.trkErr k) ∧ t.regs = s.regs)) ∧
  (∀ (p : Path) (i : Fin 57) (s : State), s.mode ≠ .cold →
    let off := pairLow.getD i 0
    (∀ d, domainOf off = some d → s.clkStopped d = false) →
    (s.capOf p off = none → off ≠ R.PEL_RTIME_LO ∨ s.ringTime = none → Completes (.loReadCapture p i) s (fun t => t.readData = s.rd off ∧
      t.capOf p (off + 4) = some (s.rd (off + 4)) ∧ t.regs = s.regs)) ∧
    (∀ v, s.capOf p off = some v → off ≠ R.PEL_RTIME_LO ∨ s.ringTime = none → Completes (.loReadCapture p i) s (fun t => t.readData = v ∧
      t.regs = s.regs)) ∧
    (∀ r, off = R.PEL_RTIME_LO → s.ringTime = some r → s.capOf p off = none → Completes (.loReadCapture p i) s (fun t =>
      t.readData = BitVec.ofNat 32 r ∧ t.capOf p R.PEL_RTIME_HI = some (BitVec.ofNat 32 (r / 2 ^ 32))))) ∧
  (∀ (b : Bar) (off : BitVec 32) (s : State), Completes (.barBadAccess b off) s (fun t => t = s)) ∧
  (∀ (p : Path) (n : Fin 16) (col minor : BitVec 8) (s : State),
    (p ≠ .console ∨ s.fuses.testClose = false → Completes (.frameReadback p n col minor) s (fun t =>
      t.frameData = s.readFrame n col.toNat minor.toNat ∧ t.fab = s.fab ∧ t.regs = s.regs)) ∧
    (p = .console → s.fuses.testClose = true → Completes (.frameReadback p n col minor) s (fun t => t.frameData = s.frameData ∧ t.regs = s.regs))) ∧
  (∀ (f : PFrame) (s : State), s.mode ≠ .cold → s.pel.mgmt = [(0, f)] → f.type = 3 →
    let off := fieldAt f.payload 0 4
    off < 0x10000 → (regRow? off).isSome = true → pairLow.contains off = false → s.capOf .mgmt off = none →
    Completes .mgmtRead s (fun t => t.pel.mgmt = [] ∧ t.readData = s.rd off ∧ t.rd off = s.rd off))

/-! ## Console, meter and field tests (chapter 17) -/

/-- R479 to R481, R483, Table 17.1: lines that are no command, pin detection, break and rate, and the commands that print. -/
def Obligations.ConsoleLinesAndReadoutsAnswer : Prop :=
  (∀ (line : List (BitVec 8)) (env : ConEnv) (s : State), s.atPrompt →
    let echoed := if s.on F.SUP_SVC_CFG_echo && ! isFuseKey line then [ConOut.echo line] else []
    (parseLine line = none → Completes (.consoleLine line env) s (fun t => s.printed t echoed ∧ t.regs = s.regs)) ∧
    (∀ code, parseLine line = some (.error code) → Completes (.consoleLine line env) s (fun t => s.printed t (echoed ++ [.err code]) ∧
      t.get F.SUP_SVC_STS_syntax = if code = 0x80 then min (s.get F.SUP_SVC_STS_syntax + 1) 255 else s.get F.SUP_SVC_STS_syntax)) ∧
    (fieldsOf line = [kw ['H', 'E', 'L', 'P']] → line.length ≤ 200 → Completes (.consoleLine line env) s (fun t =>
      s.printed t (echoed ++ [.help, .ok]))) ∧
    (200 < line.length → Completes (.consoleLine line env) s (fun t => s.printed t (echoed ++ [.err 0x80])))) ∧
  (∀ (line : List (BitVec 8)) (env : ConEnv) (s : State), s.conLive = false → Completes (.consoleLine line env) s (fun t => t = s)) ∧
  (∀ (onTx : Bool) (s : State), s.conLive = true →
    (s.get F.SUP_SVC_STS_detected = 0 → Completes (.consolePinDetect onTx) s (fun t => t.get F.SUP_SVC_STS_detected = 1 ∧
      t.get F.SUP_SVC_STS_swapped = if onTx then 1 else 0)) ∧
    (s.get F.SUP_SVC_STS_detected = 1 → Completes (.consolePinDetect onTx) s (fun t => t = s)) ∧
    Completes .consoleBreak s (fun t => t.get F.SUP_SVC_CFG_rate = 0 ∧ t.get F.SUP_SVC_STS_detected = 0 ∧ t.con.rateChanged = false)) ∧
  (∀ s : State,
    (s.con.rateChanged = true → Completes .baudRevert s (fun t => t.get F.SUP_SVC_CFG_rate = 0)) ∧
    (s.con.rateChanged = false → Completes .baudRevert s (fun t => t = s)) ∧
    Completes .consoleStopOutput s (fun t => t = s)) ∧
  (∀ (w : Bool) (s : State), s.atPrompt →
    Completes (.help w) s (fun t => s.printed t [.help, .ok]) ∧
    Completes (.status w) s (fun t => s.printed t [.values s.statusValues, .ok] ∧ t.mode = s.mode) ∧
    (∀ n, Completes (.log n w) s (fun t => s.printed t [.log (s.log.drop (s.log.length - n)), .ok] ∧ t.log = s.log)) ∧
    Completes (.spare w) s (fun t => s.printed t [.values s.spareValues, .ok]) ∧
    (∀ id compat e, s.bistReport compat id = .error e → Completes (.report (.bist id compat) w) s (fun t => s.printed t [.err e.1])) ∧
    (∀ id compat bs, s.bistReport compat id = .ok bs → Completes (.report (.bist id compat) w) s (fun t =>
      s.printed t [.report bs (crc32c bs), .ok])) ∧
    Completes (.report .scrub w) s (fun t => ∃ bs, s.printed t [.report bs (crc32c bs), .ok]) ∧
    Completes (.report .map w) s (fun t => s.printed t [.report s.mapBytesInUse (crc32c s.mapBytesInUse), .ok]) ∧
    (∀ n, Completes (.lane n false w) s (fun t => s.printed t (if n < 60 then
      [.values [(s.rd (R.LANE_STS n)).toNat, (s.rd (R.LANE_EYE n)).toNat, (s.rd (R.LANE_ERR n)).toNat], .ok] else [.err 2]))) ∧
    (∀ p, Completes (.pin p w) s (fun t => s.printed t [.values [(s.rd (R.PIN_CFG p)).toNat, s.pinLevel p], .ok])) ∧
    (∀ src i, i < 64 → Completes (.meter src i w) s (fun t => s.printed t [.ok] ∧ t.get F.SUP_MTR_CTL_src = src.toNat ∧
      t.get F.SUP_MTR_CTL_index = i)) ∧
    (∀ off, off % 4 ≠ 0 ∨ 2 ^ 24 ≤ off → Completes (.rd off w) s (fun t => s.printed t [.err 2])) ∧
    (∀ off, off % 4 = 0 → off < 0x10000 → off ≠ R.SUP_SVC_STS → (regRow? off).isSome = true → pairLow.contains off = false → s.capOf .console off = none →
      Completes (.rd off w) s (fun t => s.printed t [.values [(s.rd off).toNat], .ok] ∧ t.rd off = s.rd off)) ∧
    (∀ rate, bauds.idxOf? rate = none → Completes (.baud rate w) s (fun t => s.printed t [.err 2])) ∧
    (∀ rate i, bauds.idxOf? rate = some i → Completes (.baud rate w) s (fun t => s.printed t [.ok] ∧ t.get F.SUP_SVC_CFG_rate = i ∧
      (s.get F.SUP_SVC_CFG_rate ≠ i → t.con.rateChanged = true))) ∧
    (∀ on : Bool, Completes (.echo on w) s (fun t => s.printed t [.ok] ∧ t.get F.SUP_SVC_CFG_echo = if on then 1 else 0)) ∧
    (∀ on : Bool, Completes (.evt on w) s (fun t => s.printed t [.ok] ∧ t.get F.SUP_SVC_CFG_evt = if on then 1 else 0)))

/-- R393, R397, R482, R483: a W command is refused while SVC_WR_N is high; let through, it writes, admits a command under R387, loads, isolates,
activates, holds, restarts or attests. -/
def Obligations.ConsoleCommandsActUnderTheStrap : Prop :=
  (∀ (i : Instr) (s : State), s.atPrompt → ConsoleMarkedW false i → Completes i s (fun t => s.printedFirst t [.err 0x81] ∧ t.mode = s.mode ∧
    t.fab = s.fab ∧ t.get F.SUP_SVC_STS_refused = min (s.get F.SUP_SVC_STS_refused + 1) 255 ∧ t.get F.SUP_SVC_STS_wr_en = 0 ∧
    ∀ last, SMap.get (fun _ => 0) s.evtLast (0x0132 * 65536) = last →
      (last = 0 ∨ last + 1000000 ≤ s.time + 1 → t.loggedSome 0x0132) ∧ (last ≠ 0 → s.time + 1 < last + 1000000 → t.log = s.log))) ∧
  (∀ (off v : Nat) (s : State), s.atPrompt →
    (off % 4 ≠ 0 ∨ 2 ^ 24 ≤ off → Completes (.wr off v true) s (fun t => s.printed t [.err 2])) ∧
    (∀ r, off % 4 = 0 → off < 0x10000 → regRow? off = some r → off ≠ R.SUP_CROSS_CTL → off ≠ R.SUP_SVC_STS → clearsBy off (BitVec.ofNat 32 v) = false →
      Completes (.wr off v true) s (fun t => t.rd off = r.written (s.rd off) (BitVec.ofNat 32 v)))) ∧
  (∀ (op a0 a1 a2 a3 : Nat) (s : State), s.atPrompt →
    let d := plainDesc op a0 a1 a2 a3
    (s.get F.HIF_MBOX_CMD_busy = 1 → Completes (.admin op a0 a1 a2 a3 true) s (fun t => s.printed t [.err 6] ∧ t.hif = s.hif)) ∧
    (s.get F.HIF_MBOX_CMD_busy = 0 → (s.firstCheck false d).1 = 0 → Completes (.admin op a0 a1 a2 a3 true) s (fun t =>
      t.get F.HIF_MBOX_CMD_busy = 1 ∧ t.hif.accepted = s.hif.accepted ++ [⟨.mailbox, d⟩] ∧
      s.printed t (if runningOps.contains d.op then [.accepted] else []))) ∧
    (s.get F.HIF_MBOX_CMD_busy = 0 → (s.firstCheck false d).1 ≠ 0 → Completes (.admin op a0 a1 a2 a3 true) s (fun t =>
      s.printed t [.err (s.firstCheck false d).1] ∧ t.hif.accepted = s.hif.accepted))) ∧
  (∀ (g : Bool) (s : State), s.atPrompt →
    let d := plainDesc 0x10 (if g then 2 else 1) 0 0 0
    ((s.firstCheck false d).1 ≠ 0 → Completes (.consoleLoad g true) s (fun t => s.printed t [.err (s.firstCheck false d).1] ∧ t.mode = s.mode)) ∧
    ((s.firstCheck false d).1 = 0 → s.loadMissing false = false → Completes (.consoleLoad g true) s (fun t => t.mode = .load ∧
      s.printedFirst t [.accepted] ∧ ∃ l, t.ldr.load = some l ∧ l.source.toNat = if g then 2 else 1))) ∧
  (∀ (set e : Nat) (act : Bool) (s : State), s.atPrompt → set < 2 ^ 16 →
    let d := plainDesc 0x11 (set + (if act then 65536 else 0) + 131072) e 0 0
    ((s.firstCheck false d).1 ≠ 0 → Completes (.consoleLoadPartial set e act true) s (fun t => s.printed t [.err (s.firstCheck false d).1] ∧
      t.fab = s.fab)) ∧
    ((s.firstCheck false d).1 = 0 → s.hif.accepted = [] → s.regionLoads = false → s.setCompares set = false → s.setIn set [0, 1, 2, 5] = true →
      s.unitOk 7 = true → Completes (.consoleLoadPartial set e act true) s (fun t => s.printedFirst t [.accepted] ∧ t.logged 0x0210 set ∧
        ∃ l, t.ldr.regionLoad = some l ∧ l.set.toNat = set ∧ l.activate = act ∧ l.fromEntry = e % 2 ^ 32))) ∧
  (∀ (set : Nat) (s : State), s.atPrompt → set < 2 ^ 16 → s.hif.accepted = [] → s.setCompares set = false → s.setLoads set = false →
    (∀ n : Fin 16, s.get (F.REGION_COLMAP_moving n) = 0) →
    ((s.firstCheck false (plainDesc 0x13 set 0 0 0)).1 = 0 → s.setIn set [1] = true → Completes (.consoleIsolateRegion set true) s (fun t =>
      s.printedFirst t [.accepted] ∧ t.logged 0x0213 set ∧ (∀ n : Fin 16, n.val ∈ s.liveOf set → t.fab.setReset.getLsbD n = true) ∧
      ((∀ a ∈ s.flt.repairs, bitOf set (a / 65536) = false) → ∀ n : Fin 16, n.val ∈ s.liveOf set → t.regionState n = 2))) ∧
    ((s.firstCheck false (plainDesc 0x12 set 0 0 0)).1 = 0 → s.setIn set [2] = true → s.sameStart set = true →
      Completes (.consoleActivateRegion set true) s (fun t => s.printedFirst t [.accepted] ∧
        ∀ n : Fin 16, n.val ∈ s.liveOf set → t.regionState n = 4)) ∧
    ((s.firstCheck false (plainDesc 0x13 set 0 0 0)).1 ≠ 0 → Completes (.consoleIsolateRegion set true) s (fun t =>
      s.printed t [.err (s.firstCheck false (plainDesc 0x13 set 0 0 0)).1] ∧ t.fab = s.fab))) ∧
  (∀ (w : Bool) (s : State), s.atPrompt →
    (s.running = true → Completes (.hold w) s (fun t => t.mode = .hold ∧ t.get F.SUP_MODE_hold_cause = 1)) ∧
    (s.mode = .supervise → Completes (.hold w) s (fun t => s.printed t [.err 3] ∧ t.mode = .supervise)) ∧
    (s.mode = .hold → Completes (.hold w) s (fun t => s.printed t [.ok] ∧ t.mode = .hold ∧ t.get F.SUP_MODE_hold_cause = s.get F.SUP_MODE_hold_cause))) ∧
  (∀ s : State, s.atPrompt →
    (s.mode = .hold → Completes (.restart true) s (fun t => t.get F.SUP_RESET_cause = 2 ∧
      t.get F.SUP_RESET_warm = min 255 (s.get F.SUP_RESET_warm + 1))) ∧
    (∀ n, n < 60 → isPcie (n / 5) = false → s.laneEnabled n = true → s.laneState n ≠ 0 → Completes (.lane n true true) s (fun t =>
      t.get (F.LANE_STS_attempts n) = 0 ∧ t.get (F.LANE_STS_fail_cause n) = 0)) ∧
    (s.mode ≠ .hold → Completes (.restart true) s (fun t => s.printed t [.err 3] ∧ t.mode = s.mode))) ∧
  (∀ (nonce : List (BitVec 8)) (w : Bool) (s : State), s.atPrompt →
    (s.mode = .supervise → Completes (.consoleAttest nonce w) s (fun t => s.printed t [.err 3] ∧ t.log = s.log)) ∧
    ((s.running = true ∨ s.mode = .hold) → s.sameRuns (plainDesc 0x71 0 0 0 0) = false → s.ldr.fuseBlocked = false → s.unitOk 7 = true →
      Completes (.consoleAttest nonce w) s (fun t => t.logged 0x0133 1 ∧
        ∃ r, r.length = 6336 ∧ s.printedFirst t [.accepted, .report r (crc32c r)])))

/-- R269, R484, R491: a FUSE line asks for its confirmation in SUPERVISE and HOLD; the confirmation within 30 s programs the fuses, once; another
line, a wrong or a late value and the time-out cancel it. -/
def Obligations.FusesAreBlownOnConfirmation : Prop :=
  (∀ (line v : List (BitVec 8)) (k : Nat) (s : State), s.conLive = true →
    (parseLine line = some (.ok (.fuse (.hash k v))) → Completes (.fuseHash line true) s (fun t => s.fuseAnswered t line (.hash k v))) ∧
    (parseLine line = some (.ok (.fuse (.key k v))) → Completes (.fuseKey line true) s (fun t => s.fuseAnswered t line (.key k v)))) ∧
  (∀ (line : List (BitVec 8)) (m : BitVec 4) (s : State), s.conLive = true →
    (parseLine line = some (.ok (.fuse .enc)) → Completes (.fuseEnc line true) s (fun t => s.fuseAnswered t line .enc)) ∧
    (parseLine line = some (.ok (.fuse (.revoke m))) → Completes (.fuseRevoke line true) s (fun t => s.fuseAnswered t line (.revoke m))) ∧
    (parseLine line = some (.ok (.fuse .close)) → Completes (.fuseClose line true) s (fun t => s.fuseAnswered t line .close))) ∧
  (∀ (v : BitVec 16) (r : FuseReq) (t0 : Nat) (s : State), s.conLive = true → (s.mode = .supervise ∨ s.mode = .hold) →
    s.con.fuse = some (r, v.toNat, t0) → s.time ≤ t0 + 30000000 →
    (∀ k b, r = .hash k b → s.fuses.hashProg.getLsbD k = false → k < 4 → Completes (.confirm v (some b) true) s (fun t =>
      t.con.fuse = none ∧ t.con.out.getLast? = some .ok ∧ t.fuses.hashProg = s.fuses.hashProg ||| BitVec.ofNat 4 (2 ^ k) ∧
      SMap.get (fun _ => []) t.fuses.hashes k = b ∧ t.logged 0x0130 k)) ∧
    (∀ k b b', r = .hash k b → s.fuses.hashProg.getLsbD k = false → k < 4 → b' ≠ b → Completes (.confirm v (some b') true) s (fun t =>
      t.con.out.getLast? = some (.err 8) ∧ t.get F.SEC_FUSE_STS_hash_prog = t.fuses.hashProg.toNat ∧ t.fuses.hashProg.getLsbD k = true)) ∧
    (∀ k b, r = .key k b → s.fuses.custProg.getLsbD k = true → Completes (.confirm v (some b) true) s (fun t =>
      s.printed t [.err 3] ∧ t.fuses = s.fuses)) ∧
    (r = .enc ∧ s.fuses.encRequired = true ∨ r = .close ∧ s.fuses.testClose = true → Completes (.confirm v (some []) true) s (fun t =>
      s.printed t [.err 3] ∧ t.fuses = s.fuses)) ∧
    (∀ k b, r = .hash k b → s.fuses.hashProg.getLsbD k = true → Completes (.confirm v (some b) true) s (fun t =>
      s.printed t [.err 3] ∧ t.fuses = s.fuses)) ∧
    (∀ k b, r = .key k b → s.fuses.custProg.getLsbD k = false → k < 2 → Completes (.confirm v (some b) true) s (fun t =>
      t.con.fuse = none ∧ t.fuses.custProg = s.fuses.custProg ||| BitVec.ofNat 2 (2 ^ k) ∧ SMap.get (fun _ => []) t.fuses.cust k = b ∧
      t.logged 0x0130 (0x10 + k))) ∧
    (r = .enc → s.fuses.encRequired = false → Completes (.confirm v (some []) true) s (fun t =>
      t.fuses = { s.fuses with encRequired := true } ∧ t.logged 0x0130 0x20)) ∧
    (∀ m, r = .revoke m → m &&& ~~~ s.fuses.revoked ≠ 0 → s.fuses.hashProg &&& ~~~ (s.fuses.revoked ||| m) ≠ 0 →
      Completes (.confirm v (some []) true) s (fun t => t.fuses.revoked = s.fuses.revoked ||| m ∧ t.logged 0x0130 (0x30 + m.toNat))) ∧
    (∀ m, r = .revoke m → m &&& ~~~ s.fuses.revoked ≠ 0 → s.fuses.hashProg &&& ~~~ (s.fuses.revoked ||| m) = 0 →
      Completes (.confirm v (some []) true) s (fun t => t.fuses = s.fuses ∧ t.get F.SEC_FUSE_STS_rev_refused = 1 ∧ s.printed t [.err 3])) ∧
    (r = .close → s.fuses.testClose = false → Completes (.confirm v (some []) true) s (fun t =>
      t.fuses = { s.fuses with testClose := true } ∧ t.loggedSome 0x0131))) ∧
  (∀ (v : BitVec 16) (blown : Option (List (BitVec 8))) (w : Bool) (s : State), s.conLive = true →
    (s.con.fuse = none → Completes (.confirm v blown w) s (fun t => s.printed t [.err 1] ∧ t.fuses = s.fuses)) ∧
    (∀ r x t0, s.con.fuse = some (r, x, t0) → x ≠ v.toNat ∨ t0 + 30000000 < s.time → Completes (.confirm v blown w) s (fun t =>
      t.con.fuse = none ∧ s.printed t [.err 7] ∧ t.fuses = s.fuses))) ∧
  (∀ s : State, s.conLive = true →
    (s.con.fuse.isSome = true → Completes .confirmTimeout s (fun t => t.con.fuse = none ∧ s.printed t [.err 7] ∧ t.fuses = s.fuses)) ∧
    (s.con.fuse.isSome = true → ∀ w, Completes (.status w) s (fun t => t.con.fuse = none ∧ s.printed t [.err 7] ∧ t.fuses = s.fuses)))

/-- R485 to R489, Tables 17.2 to 17.4: the meter shows its source, and a field test prints its result and shows it on the meter. -/
def Obligations.FieldTestsReportThroughLineAndMeter : Prop :=
  (∀ (rail : BitVec 16) (s : State),
    (s.mode = .cold ∨ s.latched = true → Completes (.meterUpdate rail) s (fun t => t.get F.SUP_MTR_STS_out_mv = 0 ∧ t.get F.SUP_MTR_STS_code = 0)) ∧
    (s.mode ≠ .cold → s.latched = false →
      (s.get F.SUP_MTR_CTL_src = 0 → Completes (.meterUpdate rail) s (fun t => t.get F.SUP_MTR_STS_code = s.statusCode ∧
        t.get F.SUP_MTR_STS_out_mv = 100 * s.statusCode)) ∧
      (s.get F.SUP_MTR_CTL_src = 1 → Completes (.meterUpdate rail) s (fun t => t.get F.SUP_MTR_STS_out_mv = min 2500 (s.get F.PWR_VIN_vin / 20))) ∧
      (s.get F.SUP_MTR_CTL_src = 2 → s.get F.SUP_MTR_CTL_index < 5 → Completes (.meterUpdate rail) s (fun t =>
        t.get F.SUP_MTR_STS_out_mv = min 2500 (rail.toNat / 4))) ∧
      (s.get F.SUP_MTR_CTL_src = 4 → Completes (.meterUpdate rail) s (fun t =>
        (t.get F.SUP_MTR_STS_out_mv : Int) = max 0 (min 2500 (500 + 10 * s.getS F.PWR_TEMP_tj_max)))) ∧
      (∀ i, s.get F.SUP_MTR_CTL_src = 7 → s.get F.SUP_MTR_CTL_index = i → s.get (F.LANE_EYE_valid i) = 0 → Completes (.meterUpdate rail) s (fun t =>
        t.get F.SUP_MTR_STS_out_mv = 0))) ∧
    (∀ src, s.get F.SUP_MTR_CTL_src = src → Completes (.meterUpdate rail) s (fun t => t.get F.SUP_MTR_CTL_src = src ∧ t.mode = s.mode))) ∧
  (∀ (w : Bool) (s : State), s.atPrompt →
    let w32 (r : Nat) : Nat := (s.rd r).toNat
    Completes (.testSup w) s (fun t => s.testedNow t (s.on F.SUP_MODE_twin_ok) [w32 R.SUP_MODE]) ∧
    Completes (.testFuse w) s (fun t => t.con.result = (if s.fuses.readGood then 23 else 24) ∧ t.fab = s.fab ∧
      s.printedFirst t [.values [w32 R.SEC_FUSE_STS]]) ∧
    (s.mode ≠ .load → Completes (.testSm w) s (fun t => s.testedNow t ((s.dirCopy 0).isSome && (s.dirCopy 1).isSome && (s.settingsRecord 0).isSome && (s.settingsRecord 1).isSome &&
      s.mapView.ok) [w32 R.LDR_STS, w32 R.FLT_MOR_STS])) ∧
    (s.mode ≠ .supervise → Completes (.testPll w) s (fun t => s.testedNow t (s.on F.CAD_STS_pll_lock && ! s.on F.CAD_STS_pll_lost) [w32 R.CAD_STS])) ∧
    (s.running = true → Completes (.testScrub w) s (fun t => s.testedNow t (s.allScrubbed && ! s.on F.GRM_STS_overrun && ! s.on F.GRM_MBU_unrepairable) [w32 R.GRM_STS, w32 R.GRM_MBU])) ∧
    (∀ k, k < 8 → s.running = true → Completes (.testLs k w) s (fun t => s.testedNow t (s.on (F.FLT_LS_STS_comparing k) && ! s.on (F.FLT_LS_STS_mismatch k) &&
      ! s.on (F.FLT_LS_STS_lag k) && ! s.on (F.FLT_LS_STS_broken k)) [w32 (R.FLT_LS_STS k)])) ∧
    (∀ n, n < 4 → s.running = true ∨ s.mode = .hold → Completes (.testSrc n w) s (fun t => s.testedNow t (s.on (F.CAD_SRC_STS_valid n) && (srcFaults n).all (fun f => ! s.on f)) [w32 (R.CAD_SRC_STS n)])) ∧
    (∀ u, u < 48 → Completes (.testPad u w) s (fun t => s.testedNow t (s.on (F.BANK_CFG_vio_ok (u / 6)) && (List.range 8).all (fun p => ! s.on (F.SPK_PAD_short u p))) (w32 (R.BANK_CFG (u / 6)) :: (List.range 8).map (fun p => w32 (R.SPK_PAD u p))))) ∧
    Completes (.testPcie w) s (fun t => s.testedNow t (s.on F.HIF_STS_link_up && s.get F.HIF_STS_width == 8 && s.get F.HIF_STS_speed == 4) [w32 R.HIF_STS]) ∧
    (∀ p, p < 4 → s.portUp p = false → Completes (.testPel p w) s (fun t => s.testedNow t false [w32 (R.PEL_PSTS p)])) ∧
    Completes (.testSpare w) s (fun t => s.testedNow t s.poolsBare.isEmpty (s.poolsBare.map (fun p => p.1 * 256 + p.2))) ∧
    (∀ (p : Fin 64), s.get (F.PIN_CFG_owt_en p) = 0 → Completes (.testOwt p true w) s (fun t => t.con.result = 24 ∧
      s.printedFirst t [.values [w32 (R.PIN_CFG p)]])) ∧
    (∀ (p : Fin 64), Completes (.testOwt p false w) s (fun t => t.con.result = 23 ∧ s.printed t [.ok] ∧ t.pins.lastOpen.getLsbD p = false)) ∧
    (∀ i ∈ [Instr.testPll w, .testScrub w, .testLs 0 w, .testSrc 0 w], s.mode = .supervise → Completes i s (fun t => s.printed t [.err 3])) ∧
    (∀ i ∈ [Instr.testLs 8 w, .testSrc 4 w, .testPad 48 w, .testLane 60 w, .testPel 4 w], Completes i s (fun t => s.printed t [.err 2]))) ∧
  (∀ (w : Bool) (s : State), s.atPrompt →
    (∀ g : Bool, s.mode ≠ .load → Completes (.testImage g w) s (fun t => s.testBegan t ⟨testImage, if g then 1 else 0, 0, 0⟩)) ∧
    (∀ n, n < 60 → s.laneState n = 9 → Completes (.testLane n w) s (fun t => s.testBegan t ⟨testLane, n, s.get (F.LANE_ERR_code_err n), 0⟩)) ∧
    (∀ p, p < 4 → s.portUp p = true → Completes (.testPel p w) s (fun t => s.testBegan t ⟨testPel, p, s.get (F.PEL_ERR_hop_crc p), s.get (F.PEL_ERR_stomped p)⟩)) ∧
    ((s.firstCheck false (plainDesc 0x30 0 0 0 0)).1 = 0 → (List.range 64).any s.groupTestable = true → Completes (.testBist w) s (fun t =>
      t.con.result = 25 ∧ s.printed t [.accepted] ∧ t.flt.bist.full = 1088 ∧ t.flt.bist.planned = 16384)) ∧
    ((s.firstCheck false (plainDesc 0x30 0 0 0 0)).1 = 0 → (List.range 64).any s.groupTestable = false → Completes (.testBist w) s (fun t =>
      t.con.result = 24 ∧ s.printed t [.accepted, .doneOk nameTestBist] ∧ t.flt.bist = s.flt.bist)) ∧
    (∀ set, (s.firstCheck false (plainDesc 0x30 1 set 0 0)).1 = 0 → Completes (.testHard set [] w) s (fun t => t.mode = s.mode ∧ t.con.result = 25 ∧
      s.printedFirst t [.accepted] ∧ ∃ c, t.hif.finished = s.hif.finished ++ [c] ∧ c.status = 0))) ∧
  (∀ (x : FieldTest) (xs : List FieldTest) (s : State), s.conLive = true →
    (s.con.tests = [] → Completes .fieldTestEnd s (fun t => t = s)) ∧
    (s.con.tests = x :: xs → Completes .fieldTestEnd s (fun t => t.con.tests = xs ∧ t.regs = s.regs ∧
      t.con.result = (if (s.testResult x).1 then 23 else 24) ∧
      s.printed t ((if (s.testResult x).1 then [] else [.values (s.testResult x).2]) ++ [.doneTest x.name (s.testResult x).1]))))

/-! ## The block as a whole -/

/-- A step runs the command at the front of the queue on the state with the rest of the queue. On an empty queue 1 us of SUP_TIME passes, none in
COLD: that is the model's choice (log entry 2). -/
def Obligations.AStepRunsTheFrontCommand : Prop :=
  (∀ (c : Instr) (s : State), step (s.push c) = exec c s) ∧
  (∀ (c : Instr) (cs : List Instr) (s : State), s.pending = c :: cs → step s = exec c { s with pending := cs }) ∧
  (∀ s : State, s.pending = [] → ∃ t, step s = .next t ∧ t.pending = [] ∧ t.mode = s.mode ∧ (s.mode = .cold → t = s) ∧
    (s.mode ≠ .cold → t.time = (s.time + 1) % 2 ^ 64 ∧
      s.regsKeptBut t (fun off => off = R.SUP_TIME_LO ∨ off = R.SUP_TIME_HI) ∧ t = { s with regs := t.regs }))

/-- At reset the module is in COLD without supply, with no command waiting and an empty fault log, each register of chapter 19 at its reset value
(0 outside the pages), the fuses as they leave the factory and the settings memory blank: the last two are the model's choice (log entry 5). -/
def Obligations.ResetLeavesTheColdModule : Prop :=
  State.reset.mode = .cold ∧ State.reset.pending = [] ∧ State.reset.log = [] ∧ State.reset.units = 0 ∧
  (∀ off, State.reset.rd off = regReset off) ∧ (∀ off, regRow? off = none → State.reset.rd off = 0) ∧
  State.reset.fuses.hashProg = 0 ∧ State.reset.fuses.revoked = 0 ∧ State.reset.fuses.custProg = 0 ∧ State.reset.fuses.encRequired = false ∧
  State.reset.fuses.testClose = false ∧ State.reset.fuses.usable ∧ State.reset.norWf

/-- R269, R482, R484: no step unblows a fuse or changes the identity of the device, or revokes the last key-hash slot; every step keeps the
settings memory in its canonical form and of its size, and takes no command but the front one from the queue. -/
def Obligations.EveryStepKeepsFusesKeysAndTheMemoryForm : Prop :=
  ∀ s t : State, step s = .next t →
    t.pending = s.pending.tail ∧ t.norSize = s.norSize ∧ s.fuses.grows t.fuses ∧ (s.fuses.usable → t.fuses.usable) ∧ (s.norWf → t.norWf)

/-- No step ends in a fault or a refusal: every command has an effect in every state. -/
def Obligations.NoStepStops : Prop := ∀ s : State, ∃ t, step s = .next t

/-- The commands outside `mayStore` leave every fuse, every byte of the settings memory and the queue as they are. -/
def Obligations.MostCommandsLeaveFusesAndSettingsMemoryAlone : Prop :=
  ∀ (c : Instr) (s t : State), mayStore c = false → exec c s = .next t →
    t.fuses = s.fuses ∧ t.pending = s.pending ∧ t.norSize = s.norSize ∧
      ∀ a, SMap.get (fun _ => (0xFF : Byte)) t.nor a = SMap.get (fun _ => (0xFF : Byte)) s.nor a
end

