-- ==== Sys2Proof/Laws/SMap.lean ====
section
/-! SUPPORT. What a write of a sparse map does, said once: the key written reads the value, every other key reads as before, and the
canonical form is kept. -/

namespace Sys2Proof.Machine

theorem SMap.find_erase_same {α : Type} (m : SMap α) (k : Nat) : SMap.find (SMap.erase m k) k = none := by
  induction m with
  | nil => rfl
  | cons e m ih =>
    obtain ⟨j, v⟩ := e
    by_cases h : j = k
    · simpa [SMap.erase, h] using ih
    · simpa [SMap.erase, h, SMap.find] using ih

theorem SMap.find_erase_ne {α : Type} (m : SMap α) (k l : Nat) (h : l ≠ k) :
    SMap.find (SMap.erase m k) l = SMap.find m l := by
  induction m with
  | nil => rfl
  | cons e m ih =>
    obtain ⟨j, v⟩ := e
    by_cases hj : j = k
    · subst hj
      have : j ≠ l := fun x => h x.symm
      simpa [SMap.erase, SMap.find, this] using ih
    · by_cases hl : j = l
      · simp [SMap.erase, SMap.find, hl, h]
      · simpa [SMap.erase, hj, SMap.find, hl] using ih

theorem SMap.find_place_same {α : Type} (m : SMap α) (k : Nat) (v : α) (h : SMap.find m k = none) :
    SMap.find (SMap.place k v m) k = some v := by
  induction m with
  | nil => simp [SMap.place, SMap.find]
  | cons e m ih =>
    obtain ⟨j, w⟩ := e
    by_cases hj : j = k
    · simp [SMap.find, hj] at h
    · simp only [SMap.find, hj, if_false] at h
      by_cases hk : k < j
      · simp [SMap.place, hk, SMap.find]
      · simpa [SMap.place, hk, SMap.find, hj] using ih h

theorem SMap.find_place_ne {α : Type} (m : SMap α) (k l : Nat) (v : α) (h : l ≠ k) :
    SMap.find (SMap.place k v m) l = SMap.find m l := by
  induction m with
  | nil => simp [SMap.place, SMap.find, Ne.symm h]
  | cons e m ih =>
    obtain ⟨j, w⟩ := e
    by_cases hk : k < j
    · simp [SMap.place, hk, SMap.find, Ne.symm h]
    · by_cases hl : j = l
      · subst hl; simp [SMap.place, hk, SMap.find]
      · simpa [SMap.place, hk, SMap.find, hl] using ih

@[simp] theorem SMap.get_set_same {α : Type} [DecidableEq α] (d : Nat → α) (m : SMap α) (k : Nat) (v : α) :
    SMap.get d (SMap.set d m k v) k = v := by
  unfold SMap.set SMap.get
  split
  · rename_i h; simp [SMap.find_erase_same, h]
  · simp [SMap.find_place_same _ _ _ (SMap.find_erase_same m k)]

theorem SMap.get_set_ne {α : Type} [DecidableEq α] (d : Nat → α) (m : SMap α) (k l : Nat) (v : α) (h : l ≠ k) :
    SMap.get d (SMap.set d m k v) l = SMap.get d m l := by
  unfold SMap.set SMap.get
  split
  · rw [SMap.find_erase_ne _ _ _ h]
  · rw [SMap.find_place_ne _ _ _ _ h, SMap.find_erase_ne _ _ _ h]

theorem SMap.wf_iff {α : Type} [DecidableEq α] (d : Nat → α) (m : SMap α) :
    SMap.wf d m = true ↔ m.Pairwise (fun a b => a.1 < b.1) ∧ ∀ e ∈ m, e.2 ≠ d e.1 := by
  simp [SMap.wf]

theorem SMap.mem_place {α : Type} (m : SMap α) (k : Nat) (v : α) (e : Nat × α) :
    e ∈ SMap.place k v m ↔ e = (k, v) ∨ e ∈ m := by
  induction m with
  | nil => simp [SMap.place]
  | cons a m ih =>
    by_cases hk : k < a.1
    · simp [SMap.place, hk]
    · simp only [SMap.place, hk, if_false, List.mem_cons, ih]; tauto

theorem SMap.pairwise_place {α : Type} (m : SMap α) (k : Nat) (v : α) (hm : m.Pairwise (fun a b => a.1 < b.1))
    (hk : ∀ e ∈ m, e.1 ≠ k) : (SMap.place k v m).Pairwise (fun a b => a.1 < b.1) := by
  induction m with
  | nil => simp [SMap.place]
  | cons a m ih =>
    rw [List.pairwise_cons] at hm
    by_cases h : k < a.1
    · simp only [SMap.place, h, if_true, List.pairwise_cons, List.mem_cons]
      refine ⟨?_, hm.1, hm.2⟩
      rintro e (rfl | he)
      · exact h
      · exact lt_trans h (hm.1 e he)
    · simp only [SMap.place, h, if_false, List.pairwise_cons]
      refine ⟨?_, ih hm.2 (fun e he => hk e (List.mem_cons_of_mem _ he))⟩
      intro e he
      rcases (SMap.mem_place m k v e).1 he with rfl | he'
      · have := hk a (List.mem_cons_self ..)
        show a.1 < k
        omega
      · exact hm.1 e he'

/-- A write keeps the canonical form. -/
theorem SMap.wf_set {α : Type} [DecidableEq α] (d : Nat → α) (m : SMap α) (k : Nat) (v : α) (h : SMap.wf d m = true) :
    SMap.wf d (SMap.set d m k v) = true := by
  rw [SMap.wf_iff] at h ⊢
  have he : (SMap.erase m k).Pairwise (fun a b => a.1 < b.1) := h.1.filter _
  have hd : ∀ e ∈ SMap.erase m k, e.2 ≠ d e.1 := fun e he => h.2 e (List.mem_of_mem_filter he)
  unfold SMap.set
  split
  · exact ⟨he, hd⟩
  · rename_i hv
    refine ⟨SMap.pairwise_place _ _ _ he ?_, ?_⟩
    · intro e hm
      have := List.of_mem_filter hm
      simpa using this
    · intro e hm
      rcases (SMap.mem_place _ _ _ _).1 hm with rfl | h'
      · exact hv
      · exact hd e h'

/-- Dropping keys keeps the canonical form. -/
theorem SMap.wf_keep {α : Type} [DecidableEq α] (d : Nat → α) (m : SMap α) (p : Nat → Bool) (h : SMap.wf d m = true) :
    SMap.wf d (SMap.keep m p) = true := by
  rw [SMap.wf_iff] at h ⊢
  exact ⟨h.1.filter _, fun e he => h.2 e (List.mem_of_mem_filter he)⟩

end Sys2Proof.Machine
end

