-- ==== Sys2Proof/Laws/Quiet.lean ====
section
/-! SUPPORT. What operations and commands leave alone: the waiting commands, the fuses and the settings memory. One lemma per definition that
takes a state to a state; the definitions that may change a fuse or the settings memory are in Laws/Lasts.lean. -/

set_option linter.all false

namespace Sys2Proof.Machine
/-- What only few commands change. -/
structure Quiet where
  pending : List Instr
  fuses : Fuses
  nor : SMap Byte
  norSize : Nat

/-- It, of a state. -/
def State.quiet (s : State) : Quiet := ⟨s.pending, s.fuses, s.nor, s.norSize⟩

/-- An outcome that leaves it alone. -/
def Quiets (q : Quiet) (o : Out) : Prop := ∀ t, o = .next t → t.quiet = q
@[simp] theorem quiet_mk (pending_ : List Instr) (mode_ : Mode) (regs_ : SMap Word) (fuses_ : Fuses) (nor_ : SMap Byte) (norSize_ : Nat) (units_ : BitVec 11) (log_ : List LogEntry) (evtLast_ : SMap Nat) (con_ : Console) (hif_ : Hif) (ldr_ : Loader) (cad_ : Cad) (fab_ : Fab) (xq_ : SMap Xq) (evx_ : SMap EvLine) (clk_ : Clk) (spk_ : SMap Spk) (adc_ : SMap Adc) (pwr_ : Pwr) (pins_ : Pins) (pel_ : Pel) (lane_ : SMap Lane) (grp_ : SMap Grp) (flt_ : Flt) (caps_ : SMap (Option Word)) (readData_ : Word) (frameData_ : Frame) (freeCtr_ : Nat) : (State.mk pending_ mode_ regs_ fuses_ nor_ norSize_ units_ log_ evtLast_ con_ hif_ ldr_ cad_ fab_ xq_ evx_ clk_ spk_ adc_ pwr_ pins_ pel_ lane_ grp_ flt_ caps_ readData_ frameData_ freeCtr_).quiet = ⟨pending_, fuses_, nor_, norSize_⟩ := rfl
@[simp] theorem quiet_eta (s : State) : (⟨s.pending, s.fuses, s.nor, s.norSize⟩ : Quiet) = s.quiet := rfl
@[simp] theorem quiet_ite (c : Prop) [Decidable c] (a b : State) : (if c then a else b).quiet = if c then a.quiet else b.quiet := by split <;> rfl
@[simp] theorem foldl_quiet {α : Type} (f : State → α → State) (l : List α) (h : ∀ s a, (f s a).quiet = s.quiet) (s : State) : (l.foldl f s).quiet = s.quiet := by
  induction l generalizing s with
  | nil => rfl
  | cons a l ih => rw [List.foldl_cons, ih, h]
@[simp] theorem draw_quiet (s : State) : s.draw.2.quiet = s.quiet := Eq.trans rfl rfl
@[simp] theorem quiet_fab (s : State) (v : Fab) : ({ s with fab := v } : State).quiet = s.quiet := rfl
@[simp] theorem quiet_readData (s : State) (v : Word) : ({ s with readData := v } : State).quiet = s.quiet := rfl
@[simp] theorem quiets_next (q : Quiet) (s : State) : Quiets q (.next s) ↔ s.quiet = q := by
  constructor
  · intro h; exact h s rfl
  · intro h t e; cases e; exact h
@[simp] theorem quiets_ite (q : Quiet) (c : Prop) [Decidable c] (a b : Out) : Quiets q (if c then a else b) ↔ (c → Quiets q a) ∧ (¬ c → Quiets q b) := by
  split <;> simp [*]
@[simp] theorem State.wr_quiet (s : State) (off : Nat) (v : Word) : (State.wr s off v).quiet = s.quiet := Eq.trans rfl rfl
@[simp] theorem State.put_quiet (s : State) (f : RF) (v : Nat) : (State.put s f v).quiet = s.quiet := Eq.trans rfl rfl
@[simp] theorem State.putB_quiet (s : State) (f : RF) (b : Bool) : (State.putB s f b).quiet = s.quiet := Eq.trans rfl rfl
@[simp] theorem State.inc_quiet (s : State) (f : RF) (n : Nat) : (State.inc s f n).quiet = s.quiet := Eq.trans rfl rfl
@[simp] theorem State.sat_quiet (s : State) (f : RF) (n : Nat) : (State.sat s f n).quiet = s.quiet := Eq.trans rfl rfl
@[simp] theorem State.putS_quiet (s : State) (f : RF) (v : Int) : (State.putS s f v).quiet = s.quiet := Eq.trans rfl rfl
@[simp] theorem State.setTime_quiet (s : State) (t : Nat) : (State.setTime s t).quiet = s.quiet := Eq.trans rfl rfl
@[simp] theorem State.idle_quiet (s : State) : (State.idle s).quiet = s.quiet := by
  simp [State.idle]
@[simp] theorem State.setClk_quiet (s : State) (c : Clk) : (State.setClk s c).quiet = s.quiet := by
  rfl
@[simp] theorem State.countForced_quiet (s : State) (a : Access) : (State.countForced s a).quiet = s.quiet := by
  simp [State.countForced]
@[simp] theorem State.bar_quiet (s : State) (off : Nat) (w : Option Word) (t : State) (h : t.quiet = s.quiet) : (s.bar off w t).quiet = s.quiet := by
  unfold State.bar
  dsimp only
  (repeat' split) <;> simp [h]
@[simp] theorem State.print_quiet (s : State) (ls : List ConOut) : (State.print s ls).quiet = s.quiet := by
  simp [State.print]
@[simp] theorem State.hostWrite_quiet (s : State) (addr : Nat) (data : List Byte) : (State.hostWrite s addr data).quiet = s.quiet := by
  rfl
@[simp] theorem State.setRing_quiet (s : State) (n : Nat) (r : Ring) : (State.setRing s n r).quiet = s.quiet := by
  rfl
@[simp] theorem State.ringAdvance_quiet (s : State) (n : Nat) : (State.ringAdvance s n).quiet = s.quiet := by
  simp [State.ringAdvance]
@[simp] theorem State.msixSend_quiet (s : State) (v : Nat) : (State.msixSend s v).quiet = s.quiet := by
  simp [State.msixSend]
@[simp] theorem State.msixPending_quiet (s : State) : (State.msixPending s).quiet = s.quiet := by
  simp [State.msixPending]
@[simp] theorem State.ringEntry_quiet (s : State) (n : Nat) : (State.ringEntry s n).quiet = s.quiet := by
  simp [State.ringEntry]
@[simp] theorem State.ringWrite_quiet (s : State) (n flagOff : Nat) (entry : List Byte) : (State.ringWrite s n flagOff entry).quiet = s.quiet := by
  simp [State.ringWrite]
@[simp] theorem State.eventRing_quiet (s : State) (id param : Nat) (remote : Bool) (origin : Nat) : (State.eventRing s id param remote origin).quiet = s.quiet := by
  simp [State.eventRing]
@[simp] theorem State.logAdd_quiet (s : State) (k : LogKind) : (State.logAdd s k).quiet = s.quiet := by
  rfl
@[simp] theorem State.raise_quiet (s : State) (id param : Nat) : (State.raise s id param).quiet = s.quiet := by
  simp [State.raise]
@[simp] theorem State.raiseLim_quiet (s : State) (us id unit param : Nat) : (State.raiseLim s us id unit param).quiet = s.quiet := by
  simp [State.raiseLim]
@[simp] theorem State.raiseFree_quiet (s : State) (id : Nat) : (State.raiseFree s id).quiet = s.quiet := by
  simp [State.raiseFree]
@[simp] theorem State.raiseFreeLim_quiet (s : State) (us id unit : Nat) : (State.raiseFreeLim s us id unit).quiet = s.quiet := by
  simp [State.raiseFreeLim]
@[simp] theorem State.setMode_quiet (s : State) (m : Mode) : (State.setMode s m).quiet = s.quiet := by
  simp [State.setMode]
@[simp] theorem State.setUnit_quiet (s : State) (u : Nat) (ok : Bool) : (State.setUnit s u ok).quiet = s.quiet := by
  rfl
@[simp] theorem State.setHif_quiet (s : State) (h : Hif) : (State.setHif s h).quiet = s.quiet := by
  rfl
@[simp] theorem State.conAnswer_quiet (s : State) (name status detail : Nat) : (State.conAnswer s name status detail).quiet = s.quiet := by
  simp [State.conAnswer]
@[simp] theorem State.deliver_quiet (s : State) (c : Completion) : (State.deliver s c).quiet = s.quiet := by
  unfold State.deliver
  dsimp only
  (repeat' split) <;> simp
@[simp] theorem State.complete_quiet (s : State) (src : CmdSrc) (status detail : Nat) (res0 : Nat) (res1 : Nat) : (State.complete s src status detail res0 res1).quiet = s.quiet := by
  simp [State.complete]
@[simp] theorem State.finishLater_quiet (s : State) (src : CmdSrc) (status detail : Nat) (res0 : Nat) (res1 : Nat) : (State.finishLater s src status detail res0 res1).quiet = s.quiet := by
  rfl
@[simp] theorem State.completeSrc_quiet (s : State) (src : Option CmdSrc) (status detail : Nat) : (State.completeSrc s src status detail).quiet = s.quiet := by
  unfold State.completeSrc
  (repeat' split) <;> simp
@[simp] theorem State.runCmd_quiet (s : State) (c : AdminCmd) : (State.runCmd s c).quiet = s.quiet := by
  rfl
theorem State.takeCmd_quiet {s u : State} {p : AdminDesc → Bool} {c : AdminCmd} (h : s.takeCmd p = some (c, u)) : u.quiet = s.quiet := by
  unfold State.takeCmd at h
  split at h
  · cases h
  · cases h; rfl
@[simp] theorem State.setFlt_quiet (s : State) (f : Flt) : (State.setFlt s f).quiet = s.quiet := by
  rfl
@[simp] theorem State.morAdd_quiet (s : State) (kind inst pos cause : Nat) : (State.morAdd s kind inst pos cause).quiet = s.quiet := by
  simp [State.morAdd]
@[simp] theorem State.morSubstituted_quiet (s : State) (kind inst pos cause : Nat) : (State.morSubstituted s kind inst pos cause).quiet = s.quiet := by
  simp [State.morSubstituted]
@[simp] theorem State.morRetired_quiet (s : State) (kind inst pos cause : Nat) : (State.morRetired s kind inst pos cause).quiet = s.quiet := by
  simp [State.morRetired]
@[simp] theorem State.morReport_quiet (s : State) (kind inst pos cause : Nat) : (State.morReport s kind inst pos cause).quiet = s.quiet := by
  simp [State.morReport]
@[simp] theorem State.endAskedLoads_quiet (s : State) : (State.endAskedLoads s).quiet = s.quiet := by
  simp [State.endAskedLoads]
@[simp] theorem State.dirSingle_quiet (s : State) : (State.dirSingle s).quiet = s.quiet := by
  simp [State.dirSingle]
@[simp] theorem State.skipEvents_quiet (s : State) (l : List Section) : (State.skipEvents s l).quiet = s.quiet := by
  simp [State.skipEvents]
@[simp] theorem State.mapShow_quiet (s : State) : (State.mapShow s).quiet = s.quiet := by
  simp [State.mapShow]
@[simp] theorem State.setFrame_quiet (s : State) (addr : Nat) (f : Frame) : (State.setFrame s addr f).quiet = s.quiet := by
  rfl
@[simp] theorem State.vset_quiet (s : State) (n col off w v : Nat) : (State.vset s n col off w v).quiet = s.quiet := by
  simp [State.vset]
@[simp] theorem State.setNode_quiet (s : State) (x : Src) (nd : Node) : (State.setNode s x nd).quiet = s.quiet := by
  rfl
@[simp] theorem State.setJoined_quiet (s : State) (t : Tile) (l : List Dst) : (State.setJoined s t l).quiet = s.quiet := by
  rfl
@[simp] theorem State.setWdg_quiet (s : State) (n k : Nat) (w : Wdg) : (State.setWdg s n k w).quiet = s.quiet := by
  rfl
@[simp] theorem State.wdgTurn_quiet (s : State) (n k : Nat) (w : Wdg) : (State.wdgTurn s n k w).quiet = s.quiet := by
  simp [State.wdgTurn]
@[simp] theorem State.wdgRestart_quiet (s : State) (n k : Nat) : (State.wdgRestart s n k).quiet = s.quiet := by
  simp [State.wdgRestart]
@[simp] theorem State.wdgPulse_quiet (s : State) (t : Tile) (st : Nat) : (State.wdgPulse s t st).quiet = s.quiet := by
  simp [State.wdgPulse]
@[simp] theorem State.isoCount_quiet (s : State) (n e i : Nat) : (State.isoCount s n e i).quiet = s.quiet := by
  simp [State.isoCount]
@[simp] theorem State.leave_quiet (s : State) (x : Src) : (State.leave s x).quiet = s.quiet := by
  unfold State.leave
  (repeat' split) <;> simp
@[simp] theorem State.release_quiet (s : State) (t : Tile) (i : Nat) : (State.release s t i).quiet = s.quiet := by
  unfold State.release
  dsimp only
  (repeat' split) <;> simp
theorem State.ackDone_quiet (go : State → Dst → State) (hg : ∀ s d, (go s d).quiet = s.quiet) (s : State) (x : Src) (acked : List Dst) :
    (s.ackDone go x acked).quiet = s.quiet := by
  unfold State.ackDone
  split
  · simp
  · split
    · dsimp only
      split
      · rw [State.release_quiet, foldl_quiet _ _ (fun s p => hg _ _)]; rfl
      · rw [foldl_quiet _ _ (fun s p => hg _ _)]; rfl
    · exact (hg _ _).trans rfl
theorem State.ackOne_quiet (go : State → Dst → State) (hg : ∀ s d, (go s d).quiet = s.quiet) (s : State) (d : Dst) :
    (s.ackOne go d).quiet = s.quiet := by
  unfold State.ackOne
  split
  · rfl
  · dsimp only
    split
    · exact State.ackDone_quiet go hg s _ _
    · rfl
theorem State.ackJoin_quiet (go : State → Dst → State) (hg : ∀ s d, (go s d).quiet = s.quiet) (s : State) (t : Tile) (i p : Nat) (ms : List Dst) :
    (s.ackJoin go t i p ms).quiet = s.quiet := by
  have h := State.ackOne_quiet go hg
  unfold State.ackJoin
  dsimp only
  (repeat' split) <;> simp [h, foldl_quiet]
@[simp] theorem State.ack_quiet (n : Nat) : ∀ (s : State) (d : Dst), (State.ack n s d).quiet = s.quiet := by
  induction n with
  | zero => intro s d; rfl
  | succ n ih =>
    intro s d
    unfold State.ack
    (repeat' split) <;> simp [State.ackOne_quiet _ ih, State.ackJoin_quiet _ ih]
@[simp] theorem State.ackDst_quiet (s : State) (d : Dst) : (State.ackDst s d).quiet = s.quiet := State.ack_quiet _ s d
@[simp] theorem State.rejoin_quiet (s : State) (x : Src) : (s.rejoin x).quiet = s.quiet := by
  unfold State.rejoin
  dsimp only
  split
  · exact State.ackDone_quiet _ (State.ack_quiet _) s _ _
  · rfl
@[simp] theorem State.retree_quiet (s : State) (d : Dst) : (State.retree s d).quiet = s.quiet := by
  unfold State.retree
  (repeat' split) <;> simp
@[simp] theorem State.fabSettle_quiet (s : State) : (State.fabSettle s).quiet = s.quiet := by
  unfold State.fabSettle
  dsimp only
  rw [foldl_quiet _ _ State.retree_quiet]
  exact foldl_quiet _ _ (fun s e => by cases srcAt e.1 <;> simp) s
@[simp] theorem State.capture_quiet (s : State) (x : Src) (v chain : Nat) (branch : Option Nat) : (State.capture s x v chain branch).quiet = s.quiet := by
  rfl
@[simp] theorem State.fabRelease_quiet (s : State) (set : BitVec 16) : (State.fabRelease s set).quiet = s.quiet := by
  simp [State.fabRelease]
@[simp] theorem State.ackIn_quiet (s : State) (ch : Chan) (n : Nat) : (State.ackIn s ch n).quiet = s.quiet := by
  simp [State.ackIn]
@[simp] theorem State.offerOut_quiet (s : State) (ch : Chan) (ds : List Nat) : (State.offerOut s ch ds).quiet = s.quiet := by
  simp [State.offerOut]
@[simp] theorem State.clearOut_quiet (s : State) (ch : Chan) (n : Nat) : (State.clearOut s ch n).quiet = s.quiet := by
  unfold State.clearOut
  dsimp only
  refine foldl_quiet _ _ ?_ _
  intro s a
  (repeat' split) <;> simp
@[simp] theorem State.setTrk_quiet (s : State) (t : Nat) (x : Trk) : (State.setTrk s t x).quiet = s.quiet := by
  rfl
@[simp] theorem State.setSpk_quiet (s : State) (u : Nat) (k : Spk) : (State.setSpk s u k).quiet = s.quiet := by
  rfl
@[simp] theorem State.tapsTake_quiet (s : State) (t : Tile) (st : Nat) : (State.tapsTake s t st).quiet = s.quiet := by
  unfold State.tapsTake
  dsimp only
  refine foldl_quiet _ _ ?_ _
  intro s a
  (repeat' split) <;> simp
@[simp] theorem State.tapsBegin_quiet (s : State) (k : Nat) : (State.tapsBegin s k).quiet = s.quiet := by
  simp [State.tapsBegin]
@[simp] theorem State.tapsFree_quiet (s : State) (k : Nat) : (State.tapsFree s k).quiet = s.quiet := by
  simp [State.tapsFree]
@[simp] theorem State.codeError_quiet (s : State) (n v : Nat) (extra : BitVec 4) : (State.codeError s n v extra).quiet = s.quiet := by
  simp [State.codeError]
@[simp] theorem State.cellTake_quiet (s : State) (t : Tile) (i : Nat) (extra : BitVec 4) : (State.cellTake s t i extra).quiet = s.quiet := by
  unfold State.cellTake
  (repeat' split) <;> simp
@[simp] theorem State.cellStep_quiet (s : State) (t : Tile) (i : Nat) (m : CellMode) : (State.cellStep s t i m).quiet = s.quiet := by
  simp [State.cellStep]
@[simp] theorem State.slackTake_quiet (s : State) (x : Src) (extra : BitVec 4) : (State.slackTake s x extra).quiet = s.quiet := by
  unfold State.slackTake
  (repeat' split) <;> simp
@[simp] theorem execHoldStageTokenMove_quiet (n : Fin 16) (c : Fin 64) (r : Fin 72) (x : Fin 128) (extra : BitVec 4) (s : State) : Quiets s.quiet (execHoldStageTokenMove n c r x extra s) := by
  simp [execHoldStageTokenMove]
@[simp] theorem execMutexGrant_quiet (n : Fin 16) (c : Fin 64) (r : Fin 72) (k : Fin 4) (pickB : Bool) (s : State) : Quiets s.quiet (execMutexGrant n c r k pickB s) := by
  unfold execMutexGrant
  dsimp only
  (repeat' split) <;> simp
@[simp] theorem execFunction_quiet (n : Fin 16) (c : Fin 64) (r : Fin 72) (i : Fin 32) (s : State) : Quiets s.quiet (execFunction n c r i s) := by
  simp [execFunction]
@[simp] theorem execFunction5_quiet (n : Fin 16) (c : Fin 64) (r : Fin 72) (i : Fin 32) (s : State) : Quiets s.quiet (execFunction5 n c r i s) := by
  simp [execFunction5]
@[simp] theorem execFork_quiet (n : Fin 16) (c : Fin 64) (r : Fin 72) (i : Fin 32) (s : State) : Quiets s.quiet (execFork n c r i s) := by
  simp [execFork]
@[simp] theorem execJoin_quiet (n : Fin 16) (c : Fin 64) (r : Fin 72) (i : Fin 32) (s : State) : Quiets s.quiet (execJoin n c r i s) := by
  simp [execJoin]
@[simp] theorem execSplit_quiet (n : Fin 16) (c : Fin 64) (r : Fin 72) (i : Fin 32) (s : State) : Quiets s.quiet (execSplit n c r i s) := by
  simp [execSplit]
@[simp] theorem execSelectMerge_quiet (n : Fin 16) (c : Fin 64) (r : Fin 72) (i : Fin 32) (s : State) : Quiets s.quiet (execSelectMerge n c r i s) := by
  simp [execSelectMerge]
@[simp] theorem execArbMerge_quiet (n : Fin 16) (c : Fin 64) (r : Fin 72) (i : Fin 32) (s : State) : Quiets s.quiet (execArbMerge n c r i s) := by
  simp [execArbMerge]
@[simp] theorem execMux_quiet (n : Fin 16) (c : Fin 64) (r : Fin 72) (i : Fin 32) (s : State) : Quiets s.quiet (execMux n c r i s) := by
  simp [execMux]
@[simp] theorem State.constOffer_quiet (s : State) (t : Tile) (i left : Nat) : (State.constOffer s t i left).quiet = s.quiet := by
  simp [State.constOffer]
@[simp] theorem execSource_quiet (n : Fin 16) (c : Fin 64) (r : Fin 72) (i : Fin 32) (s : State) : Quiets s.quiet (execSource n c r i s) := by
  simp [execSource]
@[simp] theorem execSink_quiet (n : Fin 16) (c : Fin 64) (r : Fin 72) (i : Fin 32) (p : Fin 2) (s : State) : Quiets s.quiet (execSink n c r i p s) := by
  simp [execSink]
@[simp] theorem execConst_quiet (n : Fin 16) (c : Fin 64) (r : Fin 72) (i : Fin 32) (s : State) : Quiets s.quiet (execConst n c r i s) := by
  simp [execConst]
@[simp] theorem execIsoAbsorb_quiet (n : Fin 16) (e : Fin 4) (i : Fin 1152) (s : State) : Quiets s.quiet (execIsoAbsorb n e i s) := by
  simp [execIsoAbsorb]
@[simp] theorem execIsoDefaultSupply_quiet (n : Fin 16) (e : Fin 4) (i : Fin 1152) (s : State) : Quiets s.quiet (execIsoDefaultSupply n e i s) := by
  simp [execIsoDefaultSupply]
@[simp] theorem State.wdgShow_quiet (s : State) (n k : Nat) : (State.wdgShow s n k).quiet = s.quiet := by
  simp [State.wdgShow]
@[simp] theorem State.wdgSync_quiet (s : State) (n : Nat) : (State.wdgSync s n).quiet = s.quiet := by
  simp [State.wdgSync]
@[simp] theorem State.wdgClock_quiet (s : State) : (State.wdgClock s).quiet = s.quiet := by
  simp [State.wdgClock]
@[simp] theorem State.spokesQuiet_quiet (s : State) (n : Nat) : (State.spokesQuiet s n).quiet = s.quiet := by
  simp [State.spokesQuiet]
@[simp] theorem State.freeze_quiet (s : State) (n : Nat) (v : Bool) : (State.freeze s n v).quiet = s.quiet := by
  simp [State.freeze]
@[simp] theorem State.freezeWrite_quiet (s : State) (n : Nat) (v : Bool) : (State.freezeWrite s n v).quiet = s.quiet := by
  simp [State.freezeWrite]
@[simp] theorem execRegionFreezeSet_quiet (n : Fin 16) (s : State) : Quiets s.quiet (execRegionFreezeSet n s) := by
  simp [execRegionFreezeSet]
@[simp] theorem execRegionFreezeSettled_quiet (n : Fin 16) (s : State) : Quiets s.quiet (execRegionFreezeSettled n s) := by
  simp [execRegionFreezeSettled]
@[simp] theorem execRegionFreezeClear_quiet (n : Fin 16) (s : State) : Quiets s.quiet (execRegionFreezeClear n s) := by
  simp [execRegionFreezeClear]
@[simp] theorem State.wdgWrite_quiet (s : State) (n k : Nat) (v : BitVec 32) : (State.wdgWrite s n k v).quiet = s.quiet := by
  unfold State.wdgWrite
  simp only [State.wdgSync_quiet, quiet_ite]
  split
  · exact (quiet_fab _ _).trans (by simp only [State.put_quiet, State.putB_quiet])
  · simp only [State.put_quiet, State.putB_quiet]
@[simp] theorem execWatchdogEnable_quiet (n : Fin 16) (k : Fin 32) (v : BitVec 32) (s : State) : Quiets s.quiet (execWatchdogEnable n k v s) := by
  simp [execWatchdogEnable]
@[simp] theorem State.setSlice_quiet (s : State) (n c sl : Nat) (x : SliceSt) : (State.setSlice s n c sl x).quiet = s.quiet := by
  rfl
@[simp] theorem State.macAck_quiet (s : State) (n c sl : Nat) : (State.macAck s n c sl).quiet = s.quiet := by
  simp [State.macAck]
@[simp] theorem execSprocketMac_quiet (n : Fin 16) (c : Fin 4) (sl : Fin 60) (s : State) : Quiets s.quiet (execSprocketMac n c sl s) := by
  unfold execSprocketMac
  (repeat' split) <;> simp
@[simp] theorem execSprocketCalibrate_quiet (n : Fin 16) (c : Fin 4) (sl : Fin 60) (holds : Bool) (s : State) : Quiets s.quiet (execSprocketCalibrate n c sl holds s) := by
  simp [execSprocketCalibrate]
@[simp] theorem State.setFirnRow_quiet (s : State) (n f b row : Nat) (v : BitVec 72) : (State.setFirnRow s n f b row v).quiet = s.quiet := by
  simp [State.setFirnRow]
@[simp] theorem State.firnError_quiet (s : State) (n f b row src status : Nat) : (State.firnError s n f b row src status).quiet = s.quiet := by
  unfold State.firnError
  (repeat' split) <;> simp
@[simp] theorem State.firnPut_quiet (s : State) (n f b row word data : Nat) : (State.firnPut s n f b row word data).quiet = s.quiet := by
  simp [State.firnPut]
@[simp] theorem State.firnDrift_quiet (s : State) (n f b row : Nat) (d : BitVec 72) : (State.firnDrift s n f b row d).quiet = s.quiet := by
  simp [State.firnDrift]
@[simp] theorem State.firnUpset_quiet (s : State) (n f b row : Nat) (flips : BitVec 72) : (State.firnUpset s n f b row flips).quiet = s.quiet := by
  simp [State.firnUpset]
@[simp] theorem State.firnAccess_quiet (s : State) (n f b p : Nat) (write : Bool) (flips : BitVec 72) : (State.firnAccess s n f b p write flips).quiet = s.quiet := by
  unfold State.firnAccess
  (repeat' split) <;> simp
@[simp] theorem execFirnRead_quiet (n : Fin 16) (f : Fin 2) (b : Fin 72) (p : Fin 2) (flips : BitVec 72) (s : State) : Quiets s.quiet (execFirnRead n f b p flips s) := by
  simp [execFirnRead]
@[simp] theorem execFirnWrite_quiet (n : Fin 16) (f : Fin 2) (b : Fin 72) (p : Fin 2) (flips : BitVec 72) (s : State) : Quiets s.quiet (execFirnWrite n f b p flips s) := by
  simp [execFirnWrite]
@[simp] theorem State.rowRewritten_quiet (s : State) (n f b row : Nat) : (State.rowRewritten s n f b row).quiet = s.quiet := by
  simp [State.rowRewritten]
@[simp] theorem State.scrubRow_quiet (s : State) (n f b row : Nat) (flips : BitVec 72) : (State.scrubRow s n f b row flips).quiet = s.quiet := by
  unfold State.scrubRow
  dsimp only
  split <;> simp
@[simp] theorem execFirnScrubRow_quiet (n : Fin 16) (f : Fin 2) (b : Fin 72) (row : Fin 512) (flips : BitVec 72) (s : State) : Quiets s.quiet (execFirnScrubRow n f b row flips s) := by
  simp [execFirnScrubRow]
@[simp] theorem State.firnClear_quiet (s : State) (n f b : Nat) : (State.firnClear s n f b).quiet = s.quiet := by
  unfold State.firnClear
  dsimp only
  rw [quiet_mk, quiet_eta]
  exact foldl_quiet _ _ (fun s a => by simp) s
@[simp] theorem State.secretClear_quiet (s : State) (n : Nat) : (State.secretClear s n).quiet = s.quiet := by
  simp [State.secretClear]
@[simp] theorem State.firnUncleared_quiet (s : State) (n : Nat) : (State.firnUncleared s n).quiet = s.quiet := by
  simp [State.firnUncleared]
@[simp] theorem State.firnChecks_quiet (s : State) (n : Nat) : (State.firnChecks s n).quiet = s.quiet := by
  unfold State.firnChecks
  refine foldl_quiet _ _ (fun s q => foldl_quiet _ _ (fun s j => ?_) s) s
  dsimp only
  split
  · exact foldl_quiet _ _ (fun s a => by simp) s
  · rfl
@[simp] theorem State.firnLoaded_quiet (s : State) (n : Nat) : (State.firnLoaded s n).quiet = s.quiet := by
  simp [State.firnLoaded]
@[simp] theorem State.firnIndexed_quiet (s : State) (n : Nat) : (State.firnIndexed s n).quiet = s.quiet := by
  simp [State.firnIndexed]
@[simp] theorem State.firnCorrect_quiet (s : State) (n f b : Nat) : (State.firnCorrect s n f b).quiet = s.quiet := by
  simp [State.firnCorrect]
@[simp] theorem State.frameWrite_quiet (s : State) (addr : Nat) (f : Frame) : (State.frameWrite s addr f).quiet = s.quiet := by
  simp [State.frameWrite]
@[simp] theorem State.gapKeep_quiet (s : State) (n c p : Nat) : (State.gapKeep s n c p).quiet = s.quiet := by
  simp [State.gapKeep]
@[simp] theorem State.gapClear_quiet (s : State) (n p : Nat) : (State.gapClear s n p).quiet = s.quiet := by
  simp [State.gapClear]
@[simp] theorem State.setXq_quiet (s : State) (q : Nat) (x : Xq) : (State.setXq s q x).quiet = s.quiet := by
  rfl
@[simp] theorem State.xqSync_quiet (s : State) (q : Nat) : (State.xqSync s q).quiet = s.quiet := by
  simp [State.xqSync]
@[simp] theorem State.xqStore_quiet (s : State) (q : Nat) (w : XWord) : (State.xqStore s q w).quiet = s.quiet := by
  simp [State.xqStore]
@[simp] theorem State.xqPush_quiet (s : State) (q : Nat) (d : BitVec 128) (sb : BitVec 16) : (State.xqPush s q d sb).quiet = s.quiet := by
  simp [State.xqPush]
@[simp] theorem State.xqPop_quiet (s : State) (q : Nat) : (State.xqPop s q).quiet = s.quiet := by
  unfold State.xqPop
  dsimp only
  (repeat' split) <;> simp
@[simp] theorem State.xqDrain_quiet (n : Nat) : ∀ (s : State) (q : Nat), (State.xqDrain n s q).quiet = s.quiet := by
  induction n with
  | zero => intro s q; rfl
  | succ n ih => intro s q; unfold State.xqDrain; (repeat' split) <;> simp [ih]
@[simp] theorem State.xqFeed_quiet (s : State) (q : Nat) (ws : List (BitVec 128 × BitVec 16)) : (State.xqFeed s q ws).quiet = s.quiet := by
  simp [State.xqFeed]
@[simp] theorem State.xqUpset_quiet (s : State) (q : Nat) (flips : BitVec 128) : (State.xqUpset s q flips).quiet = s.quiet := by
  unfold State.xqUpset
  dsimp only
  (repeat' split) <;> simp
@[simp] theorem State.offerEnd_quiet (s : State) (q : Nat) : (State.offerEnd s q).quiet = s.quiet := by
  simp [State.offerEnd]
@[simp] theorem State.slotStale_quiet (s : State) (n : Nat) : (State.slotStale s n).quiet = s.quiet := by
  simp [State.slotStale]
@[simp] theorem State.descReturn_quiet (s : State) (n : Nat) (d : DataDesc) (status : Nat) : (State.descReturn s n d status).quiet = s.quiet := by
  simp [State.descReturn]
@[simp] theorem State.ringReturn_quiet (s : State) (n : Nat) (d : DataDesc) (status : Nat) : (State.ringReturn s n d status).quiet = s.quiet := by
  simp [State.ringReturn]
@[simp] theorem State.ringLate_quiet (s : State) (n : Nat) : (State.ringLate s n).quiet = s.quiet := by
  simp [State.ringLate]
@[simp] theorem State.h2fAbandon_quiet (s : State) (n : Nat) : (State.h2fAbandon s n).quiet = s.quiet := by
  unfold State.h2fAbandon
  (repeat' split) <;> simp
@[simp] theorem State.ringSettle_quiet (k : Nat) : ∀ (s : State) (n : Nat), (State.ringSettle k s n).quiet = s.quiet := by
  induction k with
  | zero => intro s n; rfl
  | succ k ih => intro s n; unfold State.ringSettle; (repeat' split) <;> simp [ih]
@[simp] theorem State.settle_quiet (s : State) (n : Nat) : (State.settle s n).quiet = s.quiet := by
  simp [State.settle]
@[simp] theorem State.slotTake_quiet (s : State) (n : Nat) (raw : List Byte) : (State.slotTake s n raw).quiet = s.quiet := by
  simp [State.slotTake]
@[simp] theorem State.h2fSettle_quiet (s : State) (q : Nat) : (State.h2fSettle s q).quiet = s.quiet := by
  unfold State.h2fSettle
  (repeat' split) <;> simp
@[simp] theorem State.h2fData_quiet (s : State) (n : Nat) (data : List Byte) : (State.h2fData s n data).quiet = s.quiet := by
  unfold State.h2fData
  (repeat' split) <;> simp
@[simp] theorem State.f2hWord_quiet (s : State) (n : Nat) : (State.f2hWord s n).quiet = s.quiet := by
  unfold State.f2hWord
  (repeat' split) <;> simp
@[simp] theorem State.ringBroken_quiet (s : State) (q : Nat) : (State.ringBroken s q).quiet = s.quiet := by
  unfold State.ringBroken
  (repeat' split) <;> simp
@[simp] theorem State.ringBackAll_quiet (k : Nat) : ∀ (s : State) (n st : Nat), (State.ringBackAll k s n st).quiet = s.quiet := by
  induction k with
  | zero => intro s n st; rfl
  | succ k ih => intro s n st; unfold State.ringBackAll; (repeat' split) <;> simp [ih]
@[simp] theorem State.ringCheck_quiet (s : State) (n : Nat) : (State.ringCheck s n).quiet = s.quiet := by
  simp [State.ringCheck]
@[simp] theorem State.ringsCheck_quiet (s : State) : (State.ringsCheck s).quiet = s.quiet := by
  unfold State.ringsCheck
  exact foldl_quiet _ _ (fun s i => State.ringCheck_quiet s _) s
@[simp] theorem State.ringIdle_quiet (s : State) (n : Nat) : (State.ringIdle s n).quiet = s.quiet := by
  simp [State.ringIdle]
@[simp] theorem State.ringDisable_quiet (s : State) (n : Nat) : (State.ringDisable s n).quiet = s.quiet := by
  unfold State.ringDisable
  dsimp only
  split
  · simp
  · (repeat' split) <;> simp
@[simp] theorem State.ringsResume_quiet (s : State) : (State.ringsResume s).quiet = s.quiet := by
  simp [State.ringsResume]
@[simp] theorem State.ringCfgWrite_quiet (s : State) (n : Nat) (v : Word) : (State.ringCfgWrite s n v).quiet = s.quiet := by
  simp [State.ringCfgWrite]
@[simp] theorem State.doorbell_quiet (s : State) (n idx : Nat) : (State.doorbell s n idx).quiet = s.quiet := by
  simp [State.doorbell]
@[simp] theorem State.xqDrop_quiet (s : State) (q : Nat) : (State.xqDrop s q).quiet = s.quiet := by
  simp [State.xqDrop]
@[simp] theorem State.xqAbt_quiet (s : State) (q : Nat) : (State.xqAbt s q).quiet = s.quiet := by
  unfold State.xqAbt
  (repeat' split) <;> simp
@[simp] theorem State.xqEnterDiscard_quiet (s : State) (q : Nat) : (State.xqEnterDiscard s q).quiet = s.quiet := by
  simp [State.xqEnterDiscard]
@[simp] theorem State.xqFlushRun_quiet (s : State) (q : Nat) : (State.xqFlushRun s q).quiet = s.quiet := by
  simp [State.xqFlushRun]
@[simp] theorem State.xqFlush_quiet (s : State) (q : Nat) : (State.xqFlush s q).quiet = s.quiet := by
  simp [State.xqFlush]
@[simp] theorem State.xqSideReset_quiet (s : State) (q : Nat) (writer : Bool) : (State.xqSideReset s q writer).quiet = s.quiet := by
  simp [State.xqSideReset]
@[simp] theorem State.xqSideEnd_quiet (s : State) (q : Nat) (writer : Bool) : (State.xqSideEnd s q writer).quiet = s.quiet := by
  simp [State.xqSideEnd]
@[simp] theorem State.regionQueueReset_quiet (s : State) (n : Nat) : (State.regionQueueReset s n).quiet = s.quiet := by
  simp [State.regionQueueReset]
@[simp] theorem State.regionQueueEnd_quiet (s : State) (n : Nat) : (State.regionQueueEnd s n).quiet = s.quiet := by
  simp [State.regionQueueEnd]
@[simp] theorem State.xqResetAll_quiet (s : State) : (State.xqResetAll s).quiet = s.quiet := by
  simp [State.xqResetAll]
@[simp] theorem State.setEvLine_quiet (s : State) (n k : Nat) (x : EvLine) : (State.setEvLine s n k x).quiet = s.quiet := by
  rfl
@[simp] theorem State.evLost_quiet (s : State) (n k : Nat) : (State.evLost s n k).quiet = s.quiet := by
  simp [State.evLost]
@[simp] theorem State.evInPulse_quiet (s : State) (n k : Nat) : (State.evInPulse s n k).quiet = s.quiet := by
  simp [State.evInPulse]
@[simp] theorem State.evFire_quiet (s : State) (n mask : Nat) : (State.evFire s n mask).quiet = s.quiet := by
  simp [State.evFire]
@[simp] theorem State.evOutPulse_quiet (s : State) (n k : Nat) : (State.evOutPulse s n k).quiet = s.quiet := by
  simp [State.evOutPulse]
@[simp] theorem State.setClkEv_quiet (s : State) (k : Nat) (x : EvLine) : (State.setClkEv s k x).quiet = s.quiet := by
  rfl
@[simp] theorem State.clkPulse_quiet (s : State) (src dst x : Nat) : (State.clkPulse s src dst x).quiet = s.quiet := by
  simp [State.clkPulse]
@[simp] theorem State.clkTrip_quiet (s : State) (src dst x : Nat) : (State.clkTrip s src dst x).quiet = s.quiet := by
  simp [State.clkTrip]
@[simp] theorem State.setClkVal_quiet (s : State) (k : Nat) (x : ValX) : (State.setClkVal s k x).quiet = s.quiet := by
  rfl
@[simp] theorem State.valSource_quiet (s : State) (src dst x : Nat) (v : Word) : (State.valSource s src dst x v).quiet = s.quiet := by
  simp [State.valSource]
@[simp] theorem State.valCapture_quiet (s : State) (src dst x : Nat) : (State.valCapture s src dst x).quiet = s.quiet := by
  simp [State.valCapture]
@[simp] theorem State.setPwr_quiet (s : State) (p : Pwr) : (State.setPwr s p).quiet = s.quiet := by
  rfl
@[simp] theorem State.capUpdate_quiet (s : State) : (State.capUpdate s).quiet = s.quiet := by
  simp [State.capUpdate]
@[simp] theorem State.aim_quiet (s : State) (want floor : Nat) : (State.aim s want floor).quiet = s.quiet := by
  unfold State.aim
  (repeat' split) <;> simp
@[simp] theorem State.aimRun_quiet (s : State) : (State.aimRun s).quiet = s.quiet := by
  unfold State.aimRun
  split <;> simp
@[simp] theorem State.setGoal_quiet (s : State) (demand : Nat) : (State.setGoal s demand).quiet = s.quiet := by
  simp [State.setGoal]
@[simp] theorem State.restartWindow_quiet (s : State) : (State.restartWindow s).quiet = s.quiet := by
  simp [State.restartWindow]
@[simp] theorem State.closeWindow_quiet (s : State) : (State.closeWindow s).quiet = s.quiet := by
  simp [State.closeWindow]
@[simp] theorem State.vcoreFixed_quiet (s : State) (code : Nat) : (State.vcoreFixed s code).quiet = s.quiet := by
  unfold State.vcoreFixed
  (repeat' split) <;> simp
@[simp] theorem State.vcoreOff_quiet (s : State) : (State.vcoreOff s).quiet = s.quiet := by
  simp [State.vcoreOff]
@[simp] theorem State.drlStart_quiet (s : State) : (State.drlStart s).quiet = s.quiet := by
  simp [State.drlStart]
@[simp] theorem State.setLane_quiet (s : State) (n : Nat) (x : Lane) : (State.setLane s n x).quiet = s.quiet := Eq.trans rfl rfl
@[simp] theorem State.setGrp_quiet (s : State) (g : Nat) (x : Grp) : (State.setGrp s g x).quiet = s.quiet := Eq.trans rfl rfl
@[simp] theorem State.laneItem_quiet (s : State) (n : Nat) (it : LaneItem) : (State.laneItem s n it).quiet = s.quiet := by
  simp [State.laneItem]
@[simp] theorem State.laneBlock_quiet (s : State) (n : Nat) (ctl : Bool) (w : BitVec 64) : (State.laneBlock s n ctl w).quiet = s.quiet := by
  simp [State.laneBlock]
@[simp] theorem State.laneFiller_quiet (s : State) (n : Nat) : (State.laneFiller s n).quiet = s.quiet := by
  simp [State.laneFiller]
@[simp] theorem State.laneSlot_quiet (s : State) (n : Nat) : (State.laneSlot s n).quiet = s.quiet := by
  simp [State.laneSlot]
@[simp] theorem State.stripeLane_quiet (s : State) (g : Nat) : (s.stripeLane g).2.quiet = s.quiet := by
  simp [State.stripeLane]
theorem State.portLane_quiet {s : State} {p : Nat} {r : Nat × State} (h : s.portLane p = some r) : r.2.quiet = s.quiet := by
  obtain ⟨k, -, e⟩ := Option.map_eq_some_iff.mp h
  rw [← e]; simp
@[simp] theorem State.portSlots_quiet (k : Nat) : ∀ (s : State) (p : Nat), (State.portSlots k s p).quiet = s.quiet := by
  induction k with
  | zero => intro s p; rfl
  | succ k ih =>
    intro s p; unfold State.portSlots; split
    · rfl
    · rename_i h; rw [ih, State.laneSlot_quiet, State.portLane_quiet h]
@[simp] theorem State.portSlotAll_quiet (s : State) (p : Nat) : (State.portSlotAll s p).quiet = s.quiet := by
  simp [State.portSlotAll]
@[simp] theorem State.laneFrame_quiet (s : State) (n : Nat) (w : BitVec 64) : (State.laneFrame s n w).quiet = s.quiet := by
  simp [State.laneFrame]
@[simp] theorem State.setPort_quiet (s : State) (p : Nat) (x : Port) : (State.setPort s p x).quiet = s.quiet := by
  rfl
@[simp] theorem State.setPel_quiet (s : State) (x : Pel) : (State.setPel s x).quiet = s.quiet := by
  rfl
@[simp] theorem State.pelSend_quiet (s : State) (p type : Nat) (body : Nat) : (State.pelSend s p type body).quiet = s.quiet := by
  simp [State.pelSend]
@[simp] theorem State.pelCredit_quiet (s : State) (p : Nat) : (State.pelCredit s p).quiet = s.quiet := by
  simp [State.pelCredit]
@[simp] theorem State.pelFree_quiet (s : State) (p v cost : Nat) : (State.pelFree s p v cost).quiet = s.quiet := by
  simp [State.pelFree]
@[simp] theorem State.bufLeave_quiet (s : State) (p id : Nat) : (State.bufLeave s p id).quiet = s.quiet := by
  unfold State.bufLeave
  dsimp only
  (repeat' split) <;> simp
@[simp] theorem State.pelDrop_quiet (s : State) (p : Nat) : (State.pelDrop s p).quiet = s.quiet := by
  simp [State.pelDrop]
@[simp] theorem State.pelDrained_quiet (s : State) (q : Nat) : (State.pelDrained s q).quiet = s.quiet := by
  simp [State.pelDrained]
@[simp] theorem State.pelDeliver_quiet (s : State) (p q id : Nat) (ws : List (BitVec 128 × BitVec 16)) : (State.pelDeliver s p q id ws).quiet = s.quiet := by
  simp [State.pelDeliver]
@[simp] theorem State.pelTake_quiet (s : State) (p : Nat) (t : LateFrame) : (State.pelTake s p t).quiet = s.quiet := by
  unfold State.pelTake
  (repeat' split) <;> simp
@[simp] theorem State.pelLate_quiet (s : State) (p : Nat) (t : LateFrame) : (State.pelLate s p t).quiet = s.quiet := by
  simp [State.pelLate]
@[simp] theorem State.pelSpend_quiet (s : State) (p v cost : Nat) : (State.pelSpend s p v cost).quiet = s.quiet := by
  simp [State.pelSpend]
@[simp] theorem State.pelMark_quiet (s : State) (p : Nat) : (State.pelMark s p).quiet = s.quiet := by
  simp [State.pelMark]
@[simp] theorem State.pelRecord_quiet (s : State) (p type : Nat) (f : PFrame) (stomped : Bool) : (State.pelRecord s p type f stomped).quiet = s.quiet := by
  simp [State.pelRecord]
@[simp] theorem State.pelFinish_quiet (s : State) (p : Nat) (f : PFrame) (stomped : Bool) : (State.pelFinish s p f stomped).quiet = s.quiet := by
  simp [State.pelFinish]
@[simp] theorem State.leaveHeld_quiet (s : State) (t : TxFrame) : (State.leaveHeld s t).quiet = s.quiet := by
  unfold State.leaveHeld
  (repeat' split) <;> simp
@[simp] theorem State.pelGo_quiet (s : State) (p v : Nat) (t : TxFrame) : (State.pelGo s p v t).quiet = s.quiet := by
  simp [State.pelGo]
@[simp] theorem State.pelServe_quiet (k : Nat) : ∀ (s : State) (p : Nat), (State.pelServe k s p).quiet = s.quiet := by
  induction k with
  | zero => intro s p; rfl
  | succ k ih => intro s p; unfold State.pelServe; (repeat' split) <;> simp [ih]
@[simp] theorem State.serve_quiet (s : State) (p : Nat) : (State.serve s p).quiet = s.quiet := by
  simp [State.serve]
@[simp] theorem State.pelPushed_quiet (s : State) (q : Nat) : (State.pelPushed s q).quiet = s.quiet := by
  simp [State.pelPushed]
@[simp] theorem State.enqueue_quiet (s : State) (p : Nat) (t : TxFrame) : (State.enqueue s p t).quiet = s.quiet := by
  simp [State.enqueue]
@[simp] theorem State.pelWrap_quiet (s : State) (p : Nat) : (State.pelWrap s p).quiet = s.quiet := by
  simp [State.pelWrap]
@[simp] theorem State.pelSendFrame_quiet (s : State) (cnt : Nat) (f : PFrame) : (State.pelSendFrame s cnt f).quiet = s.quiet := by
  unfold State.pelSendFrame
  dsimp only
  (repeat' split) <;> simp
@[simp] theorem State.mgmtOut_quiet (s : State) (p dst type : Nat) (payload : List Byte) : (State.mgmtOut s p dst type payload).quiet = s.quiet := by
  simp [State.mgmtOut]
@[simp] theorem State.mgmtSend_quiet (s : State) (dst type : Nat) (payload : List Byte) : (State.mgmtSend s dst type payload).quiet = s.quiet := by
  simp [State.mgmtSend]
@[simp] theorem State.pelStripe_quiet (s : State) (p mask : Nat) : (State.pelStripe s p mask).quiet = s.quiet := by
  simp [State.pelStripe]
@[simp] theorem State.pelLaneBack_quiet (s : State) (p k : Nat) : (State.pelLaneBack s p k).quiet = s.quiet := by
  simp [State.pelLaneBack]
@[simp] theorem State.ledgerEnd_quiet (s : State) (p : Nat) : (State.ledgerEnd s p).quiet = s.quiet := by
  simp [State.ledgerEnd]
@[simp] theorem State.ledgerBreak_quiet (s : State) (p : Nat) : (State.ledgerBreak s p).quiet = s.quiet := by
  simp [State.ledgerBreak]
@[simp] theorem State.cutStomp_quiet (s : State) (q p : Nat) : (State.cutStomp s q p).quiet = s.quiet := by
  unfold State.cutStomp
  (repeat' split) <;> simp
@[simp] theorem State.flushWaiting_quiet (s : State) (p : Nat) (t : TxFrame) : (State.flushWaiting s p t).quiet = s.quiet := by
  simp [State.flushWaiting]
@[simp] theorem State.flushStalled_quiet (s : State) (p : Nat) (e : Nat × Nat) : (State.flushStalled s p e).quiet = s.quiet := by
  simp [State.flushStalled]
@[simp] theorem State.pelFlush_quiet (s : State) (p st : Nat) : (State.pelFlush s p st).quiet = s.quiet := by
  unfold State.pelFlush
  dsimp only
  (repeat' split) <;> simp
@[simp] theorem State.pelFault_quiet (s : State) (p : Nat) : (State.pelFault s p).quiet = s.quiet := by
  simp [State.pelFault]
@[simp] theorem State.pelLaneLost_quiet (s : State) (p k : Nat) : (State.pelLaneLost s p k).quiet = s.quiet := by
  simp [State.pelLaneLost]
@[simp] theorem State.portRetire_quiet (s : State) (p cause : Nat) : (State.portRetire s p cause).quiet = s.quiet := by
  simp [State.portRetire]
@[simp] theorem State.pelInit_quiet (s : State) (p mask : Nat) : (State.pelInit s p mask).quiet = s.quiet := by
  simp [State.pelInit]
@[simp] theorem State.enumStep_quiet (s : State) : (State.enumStep s).quiet = s.quiet := by
  unfold State.enumStep
  (repeat' split) <;> simp
@[simp] theorem State.pelEnumerate_quiet (s : State) : (State.pelEnumerate s).quiet = s.quiet := by
  simp [State.pelEnumerate]
@[simp] theorem State.retireMode_quiet (s : State) : (State.retireMode s).quiet = s.quiet := by
  simp [State.retireMode]
@[simp] theorem State.laneShow_quiet (s : State) (n : Nat) : (State.laneShow s n).quiet = s.quiet := by
  simp [State.laneShow]
@[simp] theorem State.laneData_quiet (s : State) (n : Nat) (ctl : Bool) (w : BitVec 64) : (State.laneData s n ctl w).quiet = s.quiet := by
  simp [State.laneData]
@[simp] theorem State.laneChar_quiet (s : State) (n : Nat) (k : Bool) (b : Byte) : (State.laneChar s n k b).quiet = s.quiet := by
  simp [State.laneChar]
@[simp] theorem State.laneNotices_quiet (s : State) (n : Nat) (deep : Bool) : (State.laneNotices s n deep).quiet = s.quiet := by
  simp [State.laneNotices]
@[simp] theorem State.laneExit_quiet (s : State) (n : Nat) : (State.laneExit s n).quiet = s.quiet := by
  simp [State.laneExit]
@[simp] theorem State.laneWord_quiet (s : State) (g : Nat) (d : BitVec 128) (sb : BitVec 16) : (s.laneWord g d sb).quiet = s.quiet := by
  have hl : ∀ (b : Bool) (k : Nat) (s : State), (if b = true then s.stripeLane g else (k, s)).2.quiet = s.quiet := by
    intro b k s; split <;> simp
  unfold State.laneWord
  dsimp only
  split
  · simp
  · split
    · exact foldl_quiet _ _ (fun s c => by rw [State.laneChar_quiet]; exact hl _ _ s) _
    · split <;> simp only [State.laneData_quiet, hl]
@[simp] theorem State.grpSync_quiet (s : State) (g : Nat) : (State.grpSync s g).quiet = s.quiet := by
  simp [State.grpSync]
@[simp] theorem State.portReady_quiet (s : State) (g : Nat) : (State.portReady s g).quiet = s.quiet := by
  simp [State.portReady]
@[simp] theorem State.pllRest_quiet (s : State) (g : Nat) : (State.pllRest s g).quiet = s.quiet := by
  simp [State.pllRest]
@[simp] theorem State.scanAbort_quiet (s : State) (n : Nat) : (State.scanAbort s n).quiet = s.quiet := by
  simp [State.scanAbort]
@[simp] theorem State.laneAwake_quiet (s : State) (n : Nat) : (State.laneAwake s n).quiet = s.quiet := by
  simp [State.laneAwake]
@[simp] theorem State.laneEnter_quiet (s : State) (n st : Nat) : (State.laneEnter s n st).quiet = s.quiet := by
  simp [State.laneEnter]
@[simp] theorem State.laneStart_quiet (s : State) (n : Nat) : (State.laneStart s n).quiet = s.quiet := by
  simp [State.laneStart]
@[simp] theorem State.grpStart_quiet (s : State) (g : Nat) : (State.grpStart s g).quiet = s.quiet := by
  simp [State.grpStart]
@[simp] theorem State.oldRetire_quiet (s : State) (g old : Nat) : (State.oldRetire s g old).quiet = s.quiet := by
  simp [State.oldRetire]
@[simp] theorem State.substKeep_quiet (s : State) (g : Nat) : (State.substKeep s g).quiet = s.quiet := by
  unfold State.substKeep
  (repeat' split) <;> simp
@[simp] theorem State.laneRestart_quiet (s : State) (n : Nat) : (State.laneRestart s n).quiet = s.quiet := by
  simp [State.laneRestart]
@[simp] theorem State.portTrain_quiet (s : State) (g : Nat) : (State.portTrain s g).quiet = s.quiet := by
  simp [State.portTrain]
@[simp] theorem State.laneOff_quiet (s : State) (n : Nat) : (State.laneOff s n).quiet = s.quiet := by
  simp [State.laneOff]
@[simp] theorem State.laneDisable_quiet (s : State) (n : Nat) : (State.laneDisable s n).quiet = s.quiet := by
  simp [State.laneDisable]
@[simp] theorem State.userLanesIdle_quiet (s : State) : (State.userLanesIdle s).quiet = s.quiet := by
  simp [State.userLanesIdle]
@[simp] theorem State.grpApply_quiet (s : State) (g : Nat) : (State.grpApply s g).quiet = s.quiet := by
  simp [State.grpApply]
@[simp] theorem State.pcieLanes_quiet (s : State) (ready : List Nat) : (State.pcieLanes s ready).quiet = s.quiet := by
  simp [State.pcieLanes]
@[simp] theorem State.linkRecover_quiet (s : State) : (State.linkRecover s).quiet = s.quiet := by
  simp [State.linkRecover]
@[simp] theorem State.laneRetire_quiet (s : State) (g k : Nat) : (State.laneRetire s g k).quiet = s.quiet := by
  simp [State.laneRetire]
@[simp] theorem State.laneMove_quiet (s : State) (g k spare : Nat) : (State.laneMove s g k spare).quiet = s.quiet := by
  simp [State.laneMove]
@[simp] theorem State.laneAnswer_quiet (s : State) (g k : Nat) : (State.laneAnswer s g k).quiet = s.quiet := by
  unfold State.laneAnswer
  (repeat' split) <;> simp
@[simp] theorem State.laneWaiters_quiet (s : State) (g : Nat) : (State.laneWaiters s g).quiet = s.quiet := by
  simp [State.laneWaiters]
@[simp] theorem State.substDone_quiet (s : State) (g : Nat) : (State.substDone s g).quiet = s.quiet := by
  unfold State.substDone
  (repeat' split) <;> simp
@[simp] theorem State.substFail_quiet (s : State) (g : Nat) (spareFailed : Bool) : (State.substFail s g spareFailed).quiet = s.quiet := by
  unfold State.substFail
  (repeat' split) <;> simp
@[simp] theorem State.spareRetire_quiet (s : State) (n : Nat) : (State.spareRetire s n).quiet = s.quiet := by
  simp [State.spareRetire]
@[simp] theorem State.laneFailed_quiet (s : State) (n cause : Nat) : (State.laneFailed s n cause).quiet = s.quiet := by
  simp [State.laneFailed]
@[simp] theorem State.laneAttempt_quiet (s : State) (n cause : Nat) : (State.laneAttempt s n cause).quiet = s.quiet := by
  simp [State.laneAttempt]
@[simp] theorem State.lanesRailFail_quiet (s : State) : (State.lanesRailFail s).quiet = s.quiet := by
  simp [State.lanesRailFail]
@[simp] theorem State.setTaps_quiet (s : State) (n : Nat) (t : Nat × Nat × Nat) : (State.setTaps s n t).quiet = s.quiet := by
  rfl
@[simp] theorem State.tapRequest_quiet (s : State) (n : Nat) (w : BitVec 64) (i : Nat) : (State.tapRequest s n w i).quiet = s.quiet := by
  unfold State.tapRequest
  dsimp only
  (repeat' split) <;> simp
@[simp] theorem execLaneSignalDetect_quiet (n : Fin 60) (s : State) : Quiets s.quiet (execLaneSignalDetect n s) := by
  simp [execLaneSignalDetect]
@[simp] theorem execLaneCdrLock_quiet (n : Fin 60) (s : State) : Quiets s.quiet (execLaneCdrLock n s) := by
  simp [execLaneCdrLock]
@[simp] theorem State.trainEnter_quiet (s : State) (n : Nat) : (State.trainEnter s n).quiet = s.quiet := by
  simp [State.trainEnter]
@[simp] theorem State.orderCheck_quiet (s : State) (g n : Nat) : (State.orderCheck s g n).quiet = s.quiet := by
  simp [State.orderCheck]
@[simp] theorem State.ownRequest_quiet (s : State) (n : Nat) (w : BitVec 64) (eyeDone : Bool) : (State.ownRequest s n w eyeDone).quiet = s.quiet := by
  unfold State.ownRequest
  dsimp only
  (repeat' split) <;> simp
@[simp] theorem State.trainWord_quiet (s : State) (n : Nat) (w : BitVec 64) (eyeDone : Bool) : (State.trainWord s n w eyeDone).quiet = s.quiet := by
  simp [State.trainWord]
@[simp] theorem State.substWord_quiet (s : State) (n : Nat) (w : BitVec 64) : (State.substWord s n w).quiet = s.quiet := by
  unfold State.substWord
  dsimp only
  (repeat' split) <;> simp
@[simp] theorem State.trainingTaken_quiet (s : State) (n : Nat) (w : BitVec 64) (eyeDone : Bool) (st marks : Nat) : (State.trainingTaken s n w eyeDone st marks).quiet = s.quiet := by
  unfold State.trainingTaken
  (repeat' split) <;> simp
@[simp] theorem execTrainingFrameReceived_quiet (n : Fin 60) (w : BitVec 64) (ctl eyeDone : Bool) (s : State) : Quiets s.quiet (execTrainingFrameReceived n w ctl eyeDone s) := by
  unfold execTrainingFrameReceived
  dsimp only
  (repeat' split) <;> simp
@[simp] theorem execTrainRequestTimeout_quiet (n : Fin 60) (s : State) : Quiets s.quiet (execTrainRequestTimeout n s) := by
  simp [execTrainRequestTimeout]
@[simp] theorem execLaneTrainComplete_quiet (n : Fin 60) (s : State) : Quiets s.quiet (execLaneTrainComplete n s) := by
  simp [execLaneTrainComplete]
@[simp] theorem State.keptDone_quiet (s : State) (g : Nat) : (State.keptDone s g).quiet = s.quiet := by
  simp [State.keptDone]
@[simp] theorem State.alignDone_quiet (s : State) (n : Nat) : (State.alignDone s n).quiet = s.quiet := by
  simp [State.alignDone]
@[simp] theorem execLaneAlignLock_quiet (n : Fin 60) (s : State) : Quiets s.quiet (execLaneAlignLock n s) := by
  simp [execLaneAlignLock]
@[simp] theorem execLaneDeskewDone_quiet (g : Fin 12) (skew : BitVec 8) (s : State) : Quiets s.quiet (execLaneDeskewDone g skew s) := by
  simp [execLaneDeskewDone]
@[simp] theorem execLaneStateTimeout_quiet (n : Fin 60) (s : State) : Quiets s.quiet (execLaneStateTimeout n s) := by
  unfold execLaneStateTimeout
  (repeat' split) <;> simp
@[simp] theorem execLaneRetry_quiet (n : Fin 60) (s : State) : Quiets s.quiet (execLaneRetry n s) := by
  simp [execLaneRetry]
@[simp] theorem State.lanePllLocked_quiet (s : State) (n : Nat) : (State.lanePllLocked s n).quiet = s.quiet := by
  simp [State.lanePllLocked]
@[simp] theorem execGroupPllLock_quiet (g : Fin 12) (s : State) : Quiets s.quiet (execGroupPllLock g s) := by
  simp [execGroupPllLock]
@[simp] theorem execGroupPllLost_quiet (g : Fin 12) (s : State) : Quiets s.quiet (execGroupPllLost g s) := by
  simp [execGroupPllLost]
@[simp] theorem execFillerReceived_quiet (n : Fin 60) (fill : Fin 33) (s : State) : Quiets s.quiet (execFillerReceived n fill s) := by
  simp [execFillerReceived]
@[simp] theorem execLaneRxWord_quiet (n : Fin 60) (d : BitVec 128) (sb : BitVec 16) (s : State) : Quiets s.quiet (execLaneRxWord n d sb s) := by
  simp [execLaneRxWord]
@[simp] theorem execLaneFailure_quiet (n : Fin 60) (cause : Fin 5) (s : State) : Quiets s.quiet (execLaneFailure n cause s) := by
  simp [execLaneFailure]
@[simp] theorem execSubstitutionSwitch_quiet (g : Fin 12) (s : State) : Quiets s.quiet (execSubstitutionSwitch g s) := by
  unfold execSubstitutionSwitch
  (repeat' split) <;> simp
@[simp] theorem execSubstitutionTimeout_quiet (g : Fin 12) (s : State) : Quiets s.quiet (execSubstitutionTimeout g s) := by
  unfold execSubstitutionTimeout
  (repeat' split) <;> simp
@[simp] theorem execPcieLaneFailover_quiet (n : Fin 60) (s : State) : Quiets s.quiet (execPcieLaneFailover n s) := by
  unfold execPcieLaneFailover
  dsimp only
  (repeat' split) <;> simp
@[simp] theorem execLaneRestart_quiet (n : Fin 60) (s : State) : Quiets s.quiet (execLaneRestart n s) := by
  simp [execLaneRestart]
@[simp] theorem State.grpRestart_quiet (s : State) (g : Nat) : (State.grpRestart s g).quiet = s.quiet := by
  unfold State.grpRestart
  dsimp only
  (repeat' split) <;> simp
@[simp] theorem execGroupRestart_quiet (g : Fin 12) (s : State) : Quiets s.quiet (execGroupRestart g s) := by
  simp [execGroupRestart]
@[simp] theorem State.laneSlip_quiet (s : State) (n : Nat) : (State.laneSlip s n).quiet = s.quiet := by
  simp [State.laneSlip]
@[simp] theorem execLaneSlip_quiet (n : Fin 60) (s : State) : Quiets s.quiet (execLaneSlip n s) := by
  simp [execLaneSlip]
@[simp] theorem State.laneAligned_quiet (s : State) (n : Nat) : (State.laneAligned s n).quiet = s.quiet := by
  simp [State.laneAligned]
@[simp] theorem execLaneAligned_quiet (n : Fin 60) (s : State) : Quiets s.quiet (execLaneAligned n s) := by
  simp [execLaneAligned]
@[simp] theorem State.laneSubstitute_quiet (s : State) (n : Nat) : (State.laneSubstitute s n).quiet = s.quiet := by
  unfold State.laneSubstitute
  dsimp only
  (repeat' split) <;> simp
@[simp] theorem execLaneSubstitute_quiet (n : Fin 60) (s : State) : Quiets s.quiet (execLaneSubstitute n s) := by
  simp [execLaneSubstitute]
@[simp] theorem State.lanePower_quiet (s : State) (n v : Nat) : (State.lanePower s n v).quiet = s.quiet := by
  simp [State.lanePower]
@[simp] theorem execLanePowerRequest_quiet (n : Fin 60) (v : BitVec 2) (s : State) : Quiets s.quiet (execLanePowerRequest n v s) := by
  simp [execLanePowerRequest]
@[simp] theorem State.linkL1_quiet (s : State) : (State.linkL1 s).quiet = s.quiet := by
  simp [State.linkL1]
@[simp] theorem execPowerNoticeReceived_quiet (n : Fin 60) (deep : Bool) (s : State) : Quiets s.quiet (execPowerNoticeReceived n deep s) := by
  simp [execPowerNoticeReceived]
@[simp] theorem execAdaptWindow_quiet (n : Fin 60) (transitions : Fin 101) (fillers : Bool) (s : State) : Quiets s.quiet (execAdaptWindow n transitions fillers s) := by
  simp [execAdaptWindow]
@[simp] theorem State.eyeStart_quiet (s : State) (n : Nat) : (State.eyeStart s n).quiet = s.quiet := by
  simp [State.eyeStart]
@[simp] theorem State.marginStart_quiet (s : State) (n : Nat) : (State.marginStart s n).quiet = s.quiet := by
  simp [State.marginStart]
@[simp] theorem execEyeScanStart_quiet (n : Fin 60) (s : State) : Quiets s.quiet (execEyeScanStart n s) := by
  simp [execEyeScanStart]
@[simp] theorem execEyeScanDone_quiet (n : Fin 60) (errors : BitVec 48) (s : State) : Quiets s.quiet (execEyeScanDone n errors s) := by
  simp [execEyeScanDone]
@[simp] theorem execEyeMonitor_quiet (n : Fin 60) (height width : BitVec 8) (s : State) : Quiets s.quiet (execEyeMonitor n height width s) := by
  simp [execEyeMonitor]
@[simp] theorem State.xqClockedPush_quiet (s : State) (q : Nat) (d : BitVec 128) (sb : BitVec 16) : (State.xqClockedPush s q d sb).quiet = s.quiet := by
  simp [State.xqClockedPush]
theorem State.laneNext_quiet {s t : State} {g : Nat} {w : BitVec 128 × BitVec 16} (h : s.laneNext g = some (t, w)) : t.quiet = s.quiet := by
  obtain ⟨n, -, e⟩ := List.exists_of_findSome?_eq_some h
  obtain ⟨v, -, e⟩ := Option.map_eq_some_iff.mp e
  rw [← (Prod.mk.inj e).1, State.setLane_quiet, draw_quiet]
theorem State.bondUnit_quiet {s t : State} {g : Nat} {w : BitVec 128 × BitVec 16} (h : s.bondUnit g = some (t, w)) : t.quiet = s.quiet := by
  unfold State.bondUnit at h
  dsimp only at h
  split at h <;> cases h
  simp
theorem State.bondBlocks_quiet {s t : State} {g : Nat} {w : BitVec 128 × BitVec 16} (h : s.bondBlocks g = some (t, w)) : t.quiet = s.quiet := by
  unfold State.bondBlocks at h
  obtain ⟨r, hr, e⟩ := Option.map_eq_some_iff.mp h
  have h1 := State.bondUnit_quiet hr
  dsimp only at e
  split at e
  · cases e; exact h1
  · rename_i q hq
    cases e
    exact (State.bondUnit_quiet hq).trans h1
theorem State.bondChars_quiet (f : Nat) : ∀ {s t : State} {g : Nat} {w : BitVec 128 × BitVec 16}, State.bondChars f s g = some (t, w) →
    t.quiet = s.quiet := by
  induction f with
  | zero => intro s t g w h; cases h
  | succ f ih =>
    intro s t g w h
    unfold State.bondChars at h
    split at h
    · cases h
    · rename_i r hr
      have h1 := State.bondUnit_quiet hr
      dsimp only at h
      split at h
      · cases h; simpa using h1
      · exact (ih h).trans (by simpa using h1)
theorem State.groupWord_quiet {s t : State} {g : Nat} {w : BitVec 128 × BitVec 16} (h : s.groupWord g = some (t, w)) : t.quiet = s.quiet := by
  unfold State.groupWord at h
  (repeat' split at h)
  · exact State.laneNext_quiet h
  · exact State.bondChars_quiet _ h
  · exact State.bondBlocks_quiet h
@[simp] theorem execXqPushClocked_quiet (q : Fin 32) (d : BitVec 128) (sb : BitVec 16) (s : State) : Quiets s.quiet (execXqPushClocked q d sb s) := by
  unfold execXqPushClocked
  split
  · split
    · simp
    · rename_i h
      have k := State.groupWord_quiet h
      split <;> simp [k]
  · split <;> simp
@[simp] theorem execXqPushFabric_quiet (q : Fin 32) (s : State) : Quiets s.quiet (execXqPushFabric q s) := by
  unfold execXqPushFabric
  dsimp only
  (repeat' split) <;> simp
@[simp] theorem execXqWordOffer_quiet (q : Fin 32) (flips : BitVec 128) (s : State) : Quiets s.quiet (execXqWordOffer q flips s) := by
  unfold execXqWordOffer
  dsimp only
  (repeat' split) <;> simp
@[simp] theorem execXqPopFabric_quiet (q : Fin 32) (s : State) : Quiets s.quiet (execXqPopFabric q s) := by
  simp [execXqPopFabric]
@[simp] theorem State.xqHand_quiet (s : State) (q : Nat) : (State.xqHand s q).quiet = s.quiet := by
  unfold State.xqHand
  (repeat' split) <;> simp
@[simp] theorem execXqPopClocked_quiet (q : Fin 32) (flips : BitVec 128) (s : State) : Quiets s.quiet (execXqPopClocked q flips s) := by
  simp [execXqPopClocked]
@[simp] theorem execXqFlush_quiet (q : Fin 64) (s : State) : Quiets s.quiet (execXqFlush q s) := by
  simp [execXqFlush]
@[simp] theorem execXqFlushDone_quiet (q : Fin 64) (s : State) : Quiets s.quiet (execXqFlushDone q s) := by
  simp [execXqFlushDone]
@[simp] theorem execXqPause_quiet (q : Fin 64) (s : State) : Quiets s.quiet (execXqPause q s) := by
  simp [execXqPause]
@[simp] theorem execXqPauseSettled_quiet (q : Fin 64) (s : State) : Quiets s.quiet (execXqPauseSettled q s) := by
  simp [execXqPauseSettled]
@[simp] theorem execXqUnpause_quiet (q : Fin 64) (s : State) : Quiets s.quiet (execXqUnpause q s) := by
  simp [execXqUnpause]
@[simp] theorem State.xqClrCnt_quiet (s : State) (q : Nat) : (State.xqClrCnt s q).quiet = s.quiet := by
  simp [State.xqClrCnt]
@[simp] theorem execXqClrCnt_quiet (q : Fin 64) (s : State) : Quiets s.quiet (execXqClrCnt q s) := by
  simp [execXqClrCnt]
@[simp] theorem execXqSideReset_quiet (q : Fin 64) (writer : Bool) (s : State) : Quiets s.quiet (execXqSideReset q writer s) := by
  simp [execXqSideReset]
@[simp] theorem execXqSideResetEnd_quiet (x : XqSide) (s : State) : Quiets s.quiet (execXqSideResetEnd x s) := by
  simp [execXqSideResetEnd]
@[simp] theorem execRegionEvxFire_quiet (n : Fin 16) (mask : BitVec 8) (s : State) : Quiets s.quiet (execRegionEvxFire n mask s) := by
  simp [execRegionEvxFire]
@[simp] theorem execEventInRoundTrip_quiet (n : Fin 16) (k : Fin 8) (s : State) : Quiets s.quiet (execEventInRoundTrip n k s) := by
  simp [execEventInRoundTrip]
@[simp] theorem execEventInAck_quiet (n : Fin 16) (k : Fin 8) (s : State) : Quiets s.quiet (execEventInAck n k s) := by
  simp [execEventInAck]
@[simp] theorem execEventOutToken_quiet (g : EvGroup) (k : BitVec 8) (s : State) : Quiets s.quiet (execEventOutToken g k s) := by
  unfold execEventOutToken
  (repeat' split) <;> simp
@[simp] theorem State.evOutTrip_quiet (s : State) (n k : Nat) : (State.evOutTrip s n k).quiet = s.quiet := by
  simp [State.evOutTrip]
@[simp] theorem execEventOutRoundTrip_quiet (g : EvGroup) (k : BitVec 8) (s : State) : Quiets s.quiet (execEventOutRoundTrip g k s) := by
  unfold execEventOutRoundTrip
  (repeat' split) <;> simp
@[simp] theorem execValueCrossingTransfer_quiet (x : Crossing) (v : Option (BitVec 32)) (s : State) : Quiets s.quiet (execValueCrossingTransfer x v s) := by
  unfold execValueCrossingTransfer
  (repeat' split) <;> simp
@[simp] theorem State.spkSync_quiet (s : State) (u : Nat) : (State.spkSync s u).quiet = s.quiet := by
  simp [State.spkSync]
@[simp] theorem State.setDelay_quiet (s : State) (u p v : Nat) : (State.setDelay s u p v).quiet = s.quiet := by
  simp [State.setDelay]
@[simp] theorem State.setPad_quiet (s : State) (u p : Nat) (v : Pad) : (State.setPad s u p v).quiet = s.quiet := by
  unfold State.setPad
  dsimp only
  (repeat' split) <;> simp
@[simp] theorem State.ilkAct_quiet (s : State) (u q : Nat) : (State.ilkAct s u q).quiet = s.quiet := by
  simp [State.ilkAct]
@[simp] theorem State.setPadAt_quiet (s : State) (u key v : Nat) : (State.setPadAt s u key v).quiet = s.quiet := by
  rfl
@[simp] theorem State.pinOff_quiet (s : State) (u p slot : Nat) : (State.pinOff s u p slot).quiet = s.quiet := by
  simp [State.pinOff]
@[simp] theorem State.pinOn_quiet (s : State) (u p slot : Nat) (both : Bool) : (State.pinOn s u p slot both).quiet = s.quiet := by
  simp [State.pinOn]
@[simp] theorem State.pinDue_quiet (s : State) (u slot p : Nat) : (State.pinDue s u slot p).quiet = s.quiet := by
  simp [State.pinDue]
@[simp] theorem State.pairDue_quiet (s : State) (u slot q : Nat) : (State.pairDue s u slot q).quiet = s.quiet := by
  simp [State.pairDue]
@[simp] theorem State.padsDue_quiet (s : State) (u slot : Nat) : (State.padsDue s u slot).quiet = s.quiet := by
  simp [State.padsDue]
@[simp] theorem State.drivePair_quiet (s : State) (u q : Nat) (level : Bool) : (State.drivePair s u q level).quiet = s.quiet := by
  simp [State.drivePair]
@[simp] theorem State.edgePin_quiet (s : State) (u mask levels slot p : Nat) (active : Bool) : (State.edgePin s u mask levels slot p active).quiet = s.quiet := by
  simp [State.edgePin]
@[simp] theorem State.edgeFire_quiet (s : State) (u mask levels slot : Nat) : (State.edgeFire s u mask levels slot).quiet = s.quiet := by
  simp [State.edgeFire]
@[simp] theorem State.parkPin_quiet (s : State) (u p : Nat) (v : Pad) : (State.parkPin s u p v).quiet = s.quiet := by
  simp [State.parkPin]
@[simp] theorem State.parkPair_quiet (s : State) (u q : Nat) : (State.parkPair s u q).quiet = s.quiet := by
  simp [State.parkPair]
@[simp] theorem State.spkPark_quiet (s : State) (u : Nat) : (State.spkPark s u).quiet = s.quiet := by
  simp [State.spkPark]
@[simp] theorem State.setAdc_quiet (s : State) (c : Nat) (a : Adc) : (State.setAdc s c a).quiet = s.quiet := by
  rfl
@[simp] theorem State.trigLost_quiet (s : State) (c : Nat) : (State.trigLost s c).quiet = s.quiet := by
  simp [State.trigLost]
@[simp] theorem State.adcStart_quiet (s : State) (c : Nat) (mux : BitVec 2) : (State.adcStart s c mux).quiet = s.quiet := by
  simp [State.adcStart]
@[simp] theorem State.adcTrigger_quiet (s : State) (c : Nat) (mux : BitVec 2) (soc : Option Nat) : (State.adcTrigger s c mux soc).quiet = s.quiet := by
  simp [State.adcTrigger]
@[simp] theorem State.adcTrigSoc_quiet (s : State) (c : Nat) (mux : BitVec 2) (slot : Nat) : (State.adcTrigSoc s c mux slot).quiet = s.quiet := by
  simp [State.adcTrigSoc]
@[simp] theorem State.adcTrigEntry_quiet (s : State) (c : Nat) (mux : BitVec 2) (slot : Nat) : (State.adcTrigEntry s c mux slot).quiet = s.quiet := by
  simp [State.adcTrigEntry]
@[simp] theorem State.resOffer_quiet (s : State) (c : Nat) : (State.resOffer s c).quiet = s.quiet := by
  unfold State.resOffer
  dsimp only
  (repeat' split) <;> simp
@[simp] theorem State.resLeave_quiet (s : State) (c : Nat) : (State.resLeave s c).quiet = s.quiet := by
  simp [State.resLeave]
@[simp] theorem State.resDrop_quiet (s : State) (u : Nat) : (State.resDrop s u).quiet = s.quiet := by
  simp [State.resDrop]
@[simp] theorem State.setTicks_quiet (s : State) (u k : Nat) (l : List (BitVec 2)) : (State.setTicks s u k l).quiet = s.quiet := by
  rfl
@[simp] theorem State.setDeadlines_quiet (s : State) (u k : Nat) (l : List Deadline) : (State.setDeadlines s u k l).quiet = s.quiet := by
  rfl
@[simp] theorem State.tickFire_quiet (s : State) (u : Nat) (e : BitVec 64) : (State.tickFire s u e).quiet = s.quiet := by
  simp [State.tickFire]
@[simp] theorem State.fireEntry_quiet (s : State) (u slot : Nat) (e : BitVec 64) : (State.fireEntry s u slot e).quiet = s.quiet := by
  unfold State.fireEntry
  (repeat' split) <;> simp
@[simp] theorem State.takeHead_quiet (s : State) (u : Nat) (fired : Bool) : (State.takeHead s u fired).quiet = s.quiet := by
  simp [State.takeHead]
@[simp] theorem State.lateHead_quiet (s : State) (u slot : Nat) (e : BitVec 64) : (State.lateHead s u slot e).quiet = s.quiet := by
  unfold State.lateHead
  (repeat' split) <;> simp
@[simp] theorem State.disarm_quiet (s : State) (u : Nat) : (State.disarm s u).quiet = s.quiet := by
  simp [State.disarm]
@[simp] theorem State.armHead_quiet (k : Nat) : ∀ (s : State) (u dt : Nat), (State.armHead k s u dt).quiet = s.quiet := by
  induction k with
  | zero => intro s u dt; rfl
  | succ k ih => intro s u dt; unfold State.armHead; (repeat' split) <;> simp [ih]
@[simp] theorem State.headInstant_quiet (s : State) (u kind dt : Nat) : (State.headInstant s u kind dt).quiet = s.quiet := by
  unfold State.headInstant
  dsimp only
  (repeat' split) <;> simp
@[simp] theorem State.pushEntry_quiet (s : State) (u dt : Nat) (e : BitVec 64) : (s.pushEntry u dt e).quiet = s.quiet := by
  unfold State.pushEntry
  dsimp only
  split <;> simp
@[simp] theorem State.hostPush_quiet (s : State) (u dt : Nat) (hi : Word) : (State.hostPush s u dt hi).quiet = s.quiet := by
  simp [State.hostPush]
@[simp] theorem State.dropAll_quiet (s : State) (u : Nat) : (State.dropAll s u).quiet = s.quiet := by
  simp [State.dropAll]
@[simp] theorem State.endTicks_quiet (s : State) (u : Nat) : (State.endTicks s u).quiet = s.quiet := by
  simp [State.endTicks]
@[simp] theorem State.spkStop_quiet (s : State) (u : Nat) : (State.spkStop s u).quiet = s.quiet := by
  simp [State.spkStop]
@[simp] theorem State.spkReset_quiet (s : State) (u : Nat) : (State.spkReset s u).quiet = s.quiet := by
  simp [State.spkReset]
@[simp] theorem State.spkSnap_quiet (s : State) (u : Nat) : (State.spkSnap s u).quiet = s.quiet := by
  simp [State.spkSnap]
@[simp] theorem State.spkHold_quiet (s : State) (u : Nat) : (State.spkHold s u).quiet = s.quiet := by
  simp [State.spkHold]
@[simp] theorem State.bankCheck_quiet (s : State) (b : Nat) : (State.bankCheck s b).quiet = s.quiet := by
  simp [State.bankCheck]
@[simp] theorem State.bankSupply_quiet (s : State) (b mv : Nat) : (State.bankSupply s b mv).quiet = s.quiet := by
  simp [State.bankSupply]
@[simp] theorem State.banksCheck_quiet (s : State) : (State.banksCheck s).quiet = s.quiet := by
  simp [State.banksCheck]
@[simp] theorem State.pinWrite_quiet (s : State) : (State.pinWrite s).quiet = s.quiet := by
  simp [State.pinWrite]
@[simp] theorem State.claimLost_quiet (s : State) (l : Nat × Nat) : (State.claimLost s l).quiet = s.quiet := by
  simp [State.claimLost]
@[simp] theorem State.setSysPad_quiet (s : State) (p : Nat) (v : Pad) : (State.setSysPad s p v).quiet = s.quiet := by
  unfold State.setSysPad
  dsimp only
  (repeat' split) <;> simp
@[simp] theorem State.pinRefresh_quiet (s : State) (p : Nat) : (State.pinRefresh s p).quiet = s.quiet := by
  unfold State.pinRefresh
  (repeat' split) <;> simp
@[simp] theorem State.pinRefreshAll_quiet (s : State) : (State.pinRefreshAll s).quiet = s.quiet := by
  simp [State.pinRefreshAll]
@[simp] theorem State.pinClaim_quiet (s : State) (p id : Nat) : (State.pinClaim s p id).quiet = s.quiet := by
  simp [State.pinClaim]
@[simp] theorem State.perKick_quiet (s : State) : (State.perKick s).quiet = s.quiet := by
  simp [State.perKick]
@[simp] theorem State.claimsNow_quiet (s : State) : (State.claimsNow s).quiet = s.quiet := by
  simp [State.claimsNow]
@[simp] theorem State.evalClaims_quiet (s : State) : (State.evalClaims s).quiet = s.quiet := by
  simp [State.evalClaims]
@[simp] theorem State.pinsPark_quiet (s : State) : (State.pinsPark s).quiet = s.quiet := by
  simp [State.pinsPark]
@[simp] theorem State.pinsConfigure_quiet (s : State) : (State.pinsConfigure s).quiet = s.quiet := by
  simp [State.pinsConfigure]
@[simp] theorem State.pinRelease_quiet (s : State) (p : Nat) : (State.pinRelease s p).quiet = s.quiet := by
  unfold State.pinRelease
  split <;> simp
@[simp] theorem State.pinsDefault_quiet (s : State) : (State.pinsDefault s).quiet = s.quiet := by
  simp [State.pinsDefault]
@[simp] theorem State.setPinOut_quiet (s : State) (port v : Nat) : (State.setPinOut s port v).quiet = s.quiet := by
  simp [State.setPinOut]
@[simp] theorem State.lockFirst_quiet (s : State) (port : Nat) : (State.lockFirst s port).quiet = s.quiet := by
  simp [State.lockFirst]
@[simp] theorem State.lockSecond_quiet (s : State) (port mask : Nat) : (State.lockSecond s port mask).quiet = s.quiet := by
  simp [State.lockSecond]
@[simp] theorem State.uartPush_quiet (s : State) (k : Nat) (b : Byte) : (State.uartPush s k b).quiet = s.quiet := by
  simp [State.uartPush]
@[simp] theorem State.spiPush_quiet (s : State) (k : Nat) (w : Word) : (State.spiPush s k w).quiet = s.quiet := by
  simp [State.spiPush]
@[simp] theorem State.i2cClear_quiet (s : State) (k : Nat) : (State.i2cClear s k).quiet = s.quiet := by
  simp [State.i2cClear]
@[simp] theorem State.i2cStart_quiet (s : State) (k : Nat) (cmd : Word) : (State.i2cStart s k cmd).quiet = s.quiet := by
  simp [State.i2cStart]
@[simp] theorem State.i2cPush_quiet (s : State) (k : Nat) (b : Byte) : (State.i2cPush s k b).quiet = s.quiet := by
  simp [State.i2cPush]
@[simp] theorem State.ssiStart_quiet (s : State) (k : Nat) : (State.ssiStart s k).quiet = s.quiet := by
  simp [State.ssiStart]
@[simp] theorem State.uartPop_quiet (s : State) (k : Nat) : (State.uartPop s k).quiet = s.quiet := by
  unfold State.uartPop
  (repeat' split) <;> simp
@[simp] theorem State.spiPop_quiet (s : State) (k : Nat) : (State.spiPop s k).quiet = s.quiet := by
  unfold State.spiPop
  (repeat' split) <;> simp
@[simp] theorem State.i2cPop_quiet (s : State) (k : Nat) : (State.i2cPop s k).quiet = s.quiet := by
  unfold State.i2cPop
  (repeat' split) <;> simp
@[simp] theorem State.setCadSrc_quiet (s : State) (n : Nat) (x : CadSrc) : (State.setCadSrc s n x).quiet = s.quiet := by
  rfl
@[simp] theorem State.setSrcX_quiet (s : State) (n : Nat) (x : BitVec 76) : (State.setSrcX s n x).quiet = s.quiet := by
  rfl
@[simp] theorem State.setValid_quiet (s : State) (n : Nat) (v : Bool) : (State.setValid s n v).quiet = s.quiet := by
  simp [State.setValid]
@[simp] theorem State.trkShow_quiet (s : State) (t : Nat) : (State.trkShow s t).quiet = s.quiet := by
  simp [State.trkShow]
@[simp] theorem State.setTrkState_quiet (s : State) (t v : Nat) : (State.setTrkState s t v).quiet = s.quiet := by
  simp [State.setTrkState]
@[simp] theorem State.trkSpokes_quiet (s : State) (t : Nat) : (State.trkSpokes s t).quiet = s.quiet := by
  simp [State.trkSpokes]
@[simp] theorem State.switchAbort_quiet (s : State) (t : Nat) : (State.switchAbort s t).quiet = s.quiet := by
  simp [State.switchAbort]
@[simp] theorem State.trkHalt_quiet (s : State) (t cause : Nat) : (State.trkHalt s t cause).quiet = s.quiet := by
  simp [State.trkHalt]
@[simp] theorem State.trkOff_quiet (s : State) (t : Nat) : (State.trkOff s t).quiet = s.quiet := by
  simp [State.trkOff]
@[simp] theorem State.trkCoast_quiet (s : State) (t : Nat) : (State.trkCoast s t).quiet = s.quiet := by
  simp [State.trkCoast]
theorem State.correct_quiet {s u : State} {t : Nat} {d : Int} {b : Bool} (h : s.correct t d b = some u) : u.quiet = s.quiet := by
  unfold State.correct at h
  by_cases c : s.trkState t = 2 ∨ s.trkState t = 3
  · simp only [if_pos c, Option.ite_none_left_eq_some, Option.some.injEq] at h
    rw [← h.2]
    split <;> simp
  · simp only [if_neg c, Option.some.injEq] at h
    rw [← h]
    simp
theorem State.switchTake_quiet {s u : State} {t : Nat} {sh : Observer} {align : Bool} (h : s.switchTake t sh align = some u) :
    u.quiet = s.quiet := by
  unfold State.switchTake at h
  extract_lets x diff d dd target turns bound setT _ o at h
  have hb : ∀ s o, (setT s o).quiet = s.quiet := fun s o => by simp only [setT, State.put_quiet, State.setTrk_quiet]
  cases align with
  | true =>
    rw [if_pos rfl, Option.some.injEq] at h
    rw [← h, State.trkShow_quiet, hb]
  | false =>
    rw [if_neg Bool.false_ne_true] at h
    split at h
    · cases h
    · rename_i e
      rw [Option.some.injEq] at h
      rw [← h, State.trkShow_quiet, hb, State.correct_quiet e]
@[simp] theorem State.switchAcquired_quiet (s : State) (t : Nat) : (State.switchAcquired s t).quiet = s.quiet := by
  unfold State.switchAcquired
  dsimp only
  (repeat' split) <;>
    first
    | rfl
    | (simp; done)
    | (have h := State.switchTake_quiet (by assumption); simp [h])
@[simp] theorem State.switchReject_quiet (s : State) (t : Nat) : (State.switchReject s t).quiet = s.quiet := by
  simp [State.switchReject]
@[simp] theorem State.switchGo_quiet (s : State) (t : Nat) : (State.switchGo s t).quiet = s.quiet := by
  simp [State.switchGo]
@[simp] theorem State.trkMeasure_quiet (s : State) (n t : Nat) (stamp : Int) : (State.trkMeasure s n t stamp).quiet = s.quiet := by
  simp [State.trkMeasure]
@[simp] theorem State.measured_quiet (s : State) (n stamp : Nat) : (State.measured s n stamp).quiet = s.quiet := by
  simp [State.measured]
@[simp] theorem State.measureFailed_quiet (s : State) (n : Nat) : (State.measureFailed s n).quiet = s.quiet := by
  unfold State.measureFailed
  dsimp only
  rw [foldl_quiet]
  · simp
  · intro s a
    (repeat' split) <;> simp
@[simp] theorem State.tracksLose_quiet (s : State) (n : Nat) (lost : Bool) : (State.tracksLose s n lost).quiet = s.quiet := by
  unfold State.tracksLose
  dsimp only
  refine foldl_quiet _ _ ?_ _
  intro s a
  (repeat' split) <;> simp
@[simp] theorem State.sourceLost_quiet (s : State) (n : Nat) : (State.sourceLost s n).quiet = s.quiet := by
  simp [State.sourceLost]
@[simp] theorem State.adcHeld_quiet (s : State) : (State.adcHeld s).quiet = s.quiet := by
  simp [State.adcHeld]
@[simp] theorem State.srcStart_quiet (s : State) (n : Nat) : (State.srcStart s n).quiet = s.quiet := by
  simp [State.srcStart]
@[simp] theorem State.srcStop_quiet (s : State) (n : Nat) : (State.srcStop s n).quiet = s.quiet := by
  simp [State.srcStop]
@[simp] theorem State.srcCtlWrite_quiet (s : State) (n : Nat) (v : BitVec 32) : (State.srcCtlWrite s n v).quiet = s.quiet := by
  simp [State.srcCtlWrite]
@[simp] theorem State.trkStart_quiet (s : State) (t : Nat) : (State.trkStart s t).quiet = s.quiet := by
  simp [State.trkStart]
@[simp] theorem State.trkHaltReq_quiet (s : State) (t : Nat) : (State.trkHaltReq s t).quiet = s.quiet := by
  simp [State.trkHaltReq]
@[simp] theorem State.trkRearm_quiet (s : State) (t : Nat) : (State.trkRearm s t).quiet = s.quiet := by
  simp [State.trkRearm]
@[simp] theorem State.trkCtlWrite_quiet (s : State) (t : Nat) (v : BitVec 32) : (State.trkCtlWrite s t v).quiet = s.quiet := by
  simp [State.trkCtlWrite]
@[simp] theorem State.trkAdjust_quiet (s : State) (t : Nat) (a : BitVec 32) : (State.trkAdjust s t a).quiet = s.quiet := by
  unfold State.trkAdjust
  split
  · rfl
  · split
    · rfl
    · rename_i e
      simp [State.correct_quiet e]
@[simp] theorem State.trkSwWrite_quiet (s : State) (t : Nat) (v : BitVec 32) : (State.trkSwWrite s t v).quiet = s.quiet := by
  simp [State.trkSwWrite]
@[simp] theorem State.cadStop_quiet (s : State) : (State.cadStop s).quiet = s.quiet := by
  simp [State.cadStop]
@[simp] theorem State.trkUpdate_quiet (s : State) (t : Nat) : (State.trkUpdate s t).quiet = s.quiet := by
  simp [State.trkUpdate]
@[simp] theorem State.freeUpdate_quiet (s : State) (n : Nat) : (State.freeUpdate s n).quiet = s.quiet := by
  simp [State.freeUpdate]
@[simp] theorem State.cadUpdate_quiet (s : State) : (State.cadUpdate s).quiet = s.quiet := by
  unfold State.cadUpdate
  dsimp only
  split
  · rfl
  · rw [foldl_quiet _ _ (fun s u => by simp), foldl_quiet _ _ (fun s u => by simp), foldl_quiet _ _ (fun s u => by simp)]
    simp
@[simp] theorem execTrackUpdate_quiet (s : State) : Quiets s.quiet (execTrackUpdate s) := by
  simp [execTrackUpdate]
@[simp] theorem execCoastLimit_quiet (t : Fin 8) (s : State) : Quiets s.quiet (execCoastLimit t s) := by
  simp [execCoastLimit]
@[simp] theorem execAcquireComplete_quiet (t : Fin 8) (s : State) : Quiets s.quiet (execAcquireComplete t s) := by
  simp [execAcquireComplete]
@[simp] theorem execPllLockLost_quiet (s : State) : Quiets s.quiet (execPllLockLost s) := by
  simp [execPllLockLost]
@[simp] theorem execPllLocked_quiet (s : State) : Quiets s.quiet (execPllLocked s) := by
  simp [execPllLocked]
@[simp] theorem State.dirCheck_quiet (s : State) (n : Nat) (up : Bool) : (State.dirCheck s n up).quiet = s.quiet := by
  simp [State.dirCheck]
@[simp] theorem State.digitalEdge_quiet (s : State) (n : Nat) (up : Bool) (stamp : Nat) : (State.digitalEdge s n up stamp).quiet = s.quiet := by
  simp [State.digitalEdge]
@[simp] theorem execQuadEdge_quiet (n : Fin 4) (a b : Bool) (stamp : BitVec 64) (s : State) : Quiets s.quiet (execQuadEdge n a b stamp s) := by
  unfold execQuadEdge
  dsimp only
  (repeat' split) <;> simp
@[simp] theorem execPulseEdge_quiet (n : Fin 4) (stamp : BitVec 64) (s : State) : Quiets s.quiet (execPulseEdge n stamp s) := by
  simp [execPulseEdge]
@[simp] theorem State.homeTracks_quiet (s : State) (n : Nat) (old : BitVec 76) : (State.homeTracks s n old).quiet = s.quiet := by
  unfold State.homeTracks
  refine foldl_quiet _ _ (fun s t => ?_) s
  dsimp only
  split
  · cases e : s.correct t _ _ with
    | none => rfl
    | some u => exact State.correct_quiet e
  · rfl
@[simp] theorem execIndexEdge_quiet (n : Fin 4) (s : State) : Quiets s.quiet (execIndexEdge n s) := by
  unfold execIndexEdge
  dsimp only
  (repeat' split) <;> simp
@[simp] theorem State.unwrapX_quiet (s : State) (n : Nat) (frac : BitVec 32) : (State.unwrapX s n frac).quiet = s.quiet := by
  simp [State.unwrapX]
@[simp] theorem State.vectorMeasure_quiet (s : State) (n num den : Nat) (frac : BitVec 32) (stamp : Nat) : (State.vectorMeasure s n num den frac stamp).quiet = s.quiet := by
  simp [State.vectorMeasure]
@[simp] theorem execAnalogMeasurement_quiet (n : Fin 4) (a b : BitVec 16) (neg : Bool) (stamp : BitVec 64) (s : State) : Quiets s.quiet (execAnalogMeasurement n a b neg stamp s) := by
  simp [execAnalogMeasurement]
@[simp] theorem State.crossX_quiet (s : State) (n : Nat) (rising : Bool) : (State.crossX s n rising).quiet = s.quiet := by
  simp [State.crossX]
@[simp] theorem State.zeroCross_quiet (s : State) (n : Nat) (v at_ : Int) : (State.zeroCross s n v at_).quiet = s.quiet := by
  unfold State.zeroCross
  (repeat' split) <;> simp
@[simp] theorem State.sampleExempt_quiet (s : State) (n : Nat) (frac : BitVec 32) (stamp : Nat) : (State.sampleExempt s n frac stamp).quiet = s.quiet := by
  simp [State.sampleExempt]
@[simp] theorem execMainsSingleSample_quiet (n : Fin 4) (code : BitVec 16) (stamp : BitVec 64) (s : State) : Quiets s.quiet (execMainsSingleSample n code stamp s) := by
  simp [execMainsSingleSample]
@[simp] theorem execAnalogSourceTrigger_quiet (n : Fin 4) (s : State) : Quiets s.quiet (execAnalogSourceTrigger n s) := by
  simp [execAnalogSourceTrigger]
@[simp] theorem execSourceLost_quiet (n : Fin 4) (s : State) : Quiets s.quiet (execSourceLost n s) := by
  simp [execSourceLost]
@[simp] theorem execSourceReturn_quiet (n : Fin 4) (s : State) : Quiets s.quiet (execSourceReturn n s) := by
  simp [execSourceReturn]
@[simp] theorem execSourceEnable_quiet (n : Fin 4) (v : BitVec 32) (s : State) : Quiets s.quiet (execSourceEnable n v s) := by
  simp [execSourceEnable]
@[simp] theorem execSourceDisable_quiet (n : Fin 4) (s : State) : Quiets s.quiet (execSourceDisable n s) := by
  simp [execSourceDisable]
@[simp] theorem execTrackEnable_quiet (t : Fin 8) (v : BitVec 32) (s : State) : Quiets s.quiet (execTrackEnable t v s) := by
  simp [execTrackEnable]
@[simp] theorem execTrackDisable_quiet (t : Fin 8) (s : State) : Quiets s.quiet (execTrackDisable t s) := by
  simp [execTrackDisable]
@[simp] theorem execTrackHalt_quiet (t : Fin 8) (s : State) : Quiets s.quiet (execTrackHalt t s) := by
  simp [execTrackHalt]
@[simp] theorem execHaltAll_quiet (s : State) : Quiets s.quiet (execHaltAll s) := by
  simp [execHaltAll]
@[simp] theorem execTrackRearm_quiet (t : Fin 8) (s : State) : Quiets s.quiet (execTrackRearm t s) := by
  simp [execTrackRearm]
@[simp] theorem execTrackAdjust_quiet (t : Fin 8) (a : BitVec 32) (s : State) : Quiets s.quiet (execTrackAdjust t a s) := by
  simp [execTrackAdjust]
@[simp] theorem execTrackSwitchGo_quiet (t : Fin 8) (v : BitVec 32) (s : State) : Quiets s.quiet (execTrackSwitchGo t v s) := by
  simp [execTrackSwitchGo]
@[simp] theorem execSwitchAcquired_quiet (t : Fin 8) (s : State) : Quiets s.quiet (execSwitchAcquired t s) := by
  simp [execSwitchAcquired]
@[simp] theorem execSwitchAbort_quiet (t : Fin 8) (s : State) : Quiets s.quiet (execSwitchAbort t s) := by
  simp [execSwitchAbort]
@[simp] theorem execSlewComplete_quiet (t : Fin 8) (s : State) : Quiets s.quiet (execSlewComplete t s) := by
  simp [execSlewComplete]
@[simp] theorem execSpokeEreq_quiet (u : Fin 48) (dt : Fin 4000) (s : State) : Quiets s.quiet (execSpokeEreq u dt s) := by
  unfold execSpokeEreq
  (repeat' split) <;> simp
@[simp] theorem execSpkPushHi_quiet (u : Fin 48) (dt : Fin 4000) (v : BitVec 32) (s : State) : Quiets s.quiet (execSpkPushHi u dt v s) := by
  simp [execSpkPushHi]
@[simp] theorem execEdge_quiet (u : Fin 48) (dt : Fin 4000) (s : State) : Quiets s.quiet (execEdge u dt s) := by
  simp [execEdge]
@[simp] theorem execTick_quiet (u : Fin 48) (dt : Fin 4000) (s : State) : Quiets s.quiet (execTick u dt s) := by
  simp [execTick]
@[simp] theorem execTrig_quiet (u : Fin 48) (dt : Fin 4000) (s : State) : Quiets s.quiet (execTrig u dt s) := by
  simp [execTrig]
@[simp] theorem execNop_quiet (u : Fin 48) (dt : Fin 4000) (s : State) : Quiets s.quiet (execNop u dt s) := by
  simp [execNop]
@[simp] theorem execTickDeliver_quiet (u : Fin 48) (k : Fin 16) (s : State) : Quiets s.quiet (execTickDeliver u k s) := by
  unfold execTickDeliver
  dsimp only
  (repeat' split) <;> simp
@[simp] theorem State.recordSlack_quiet (s : State) (u k : Nat) (d : Deadline) (theta : BitVec 40) : (State.recordSlack s u k d theta).quiet = s.quiet := by
  simp [State.recordSlack]
@[simp] theorem execDoneCompletion_quiet (u : Fin 48) (k : Fin 16) (dt : Fin 4000) (s : State) : Quiets s.quiet (execDoneCompletion u k dt s) := by
  unfold execDoneCompletion
  dsimp only
  (repeat' split) <;> simp
@[simp] theorem execDeadlineMiss_quiet (u : Fin 48) (k : Fin 16) (dt : Fin 4000) (s : State) : Quiets s.quiet (execDeadlineMiss u k dt s) := by
  unfold execDeadlineMiss
  (repeat' split) <;> simp
@[simp] theorem State.drlSample_quiet (s : State) (v : Int) : (State.drlSample s v).quiet = s.quiet := by
  simp [State.drlSample]
@[simp] theorem State.clusterSend_quiet (s : State) (i : Nat) : (State.clusterSend s i).quiet = s.quiet := by
  unfold State.clusterSend
  dsimp only
  (repeat' split) <;> simp
@[simp] theorem execSlackTransfer_quiet (s : State) : Quiets s.quiet (execSlackTransfer s) := by
  simp [execSlackTransfer]
@[simp] theorem execCaptureEdge_quiet (u : Fin 48) (p : Fin 8) (level : Bool) (dt : Fin 4000) (s : State) : Quiets s.quiet (execCaptureEdge u p level dt s) := by
  simp [execCaptureEdge]
@[simp] theorem execCaptureRecordTaken_quiet (u : Fin 48) (s : State) : Quiets s.quiet (execCaptureRecordTaken u s) := by
  unfold execCaptureRecordTaken
  dsimp only
  (repeat' split) <;> simp
@[simp] theorem execSpokeSnap_quiet (u : Fin 48) (s : State) : Quiets s.quiet (execSpokeSnap u s) := by
  simp [execSpokeSnap]
@[simp] theorem execSpokeFlush_quiet (u : Fin 48) (s : State) : Quiets s.quiet (execSpokeFlush u s) := by
  simp [execSpokeFlush]
@[simp] theorem execSpokeDisable_quiet (u : Fin 48) (s : State) : Quiets s.quiet (execSpokeDisable u s) := by
  simp [execSpokeDisable]
@[simp] theorem execSocTrigger_quiet (c : Fin 8) (s : State) (dt : Fin 4000) : Quiets s.quiet (execSocTrigger c s dt) := by
  unfold execSocTrigger
  dsimp only
  (repeat' split) <;> simp
@[simp] theorem State.deliverResult_quiet (s : State) (c : Nat) (r : BitVec 18) : (State.deliverResult s c r).quiet = s.quiet := by
  simp [State.deliverResult]
@[simp] theorem execConversionComplete_quiet (c : Fin 8) (code : BitVec 16) (s : State) : Quiets s.quiet (execConversionComplete c code s) := by
  unfold execConversionComplete
  dsimp only
  (repeat' split) <;> simp
@[simp] theorem execResultTaken_quiet (c : Fin 8) (s : State) : Quiets s.quiet (execResultTaken c s) := by
  unfold execResultTaken
  dsimp only
  (repeat' split) <;> simp
@[simp] theorem execPinClaimEvaluate_quiet (s : State) : Quiets s.quiet (execPinClaimEvaluate s) := by
  simp [execPinClaimEvaluate]
@[simp] theorem execPinFunctionSwitch_quiet (p : Fin 64) (s : State) : Quiets s.quiet (execPinFunctionSwitch p s) := by
  unfold execPinFunctionSwitch
  dsimp only
  (repeat' split) <;> simp
@[simp] theorem execPinSet_quiet (port : Fin 4) (mask : BitVec 16) (s : State) : Quiets s.quiet (execPinSet port mask s) := by
  simp [execPinSet]
@[simp] theorem execPinClr_quiet (port : Fin 4) (mask : BitVec 16) (s : State) : Quiets s.quiet (execPinClr port mask s) := by
  simp [execPinClr]
@[simp] theorem execPinLockFirst_quiet (port : Fin 4) (s : State) : Quiets s.quiet (execPinLockFirst port s) := by
  simp [execPinLockFirst]
@[simp] theorem execPinLockSecond_quiet (port : Fin 4) (mask : BitVec 16) (s : State) : Quiets s.quiet (execPinLockSecond port mask s) := by
  simp [execPinLockSecond]
@[simp] theorem execPinLockTimeout_quiet (s : State) : Quiets s.quiet (execPinLockTimeout s) := by
  simp [execPinLockTimeout]
@[simp] theorem execPinIrqEdge_quiet (n : Fin 16) (rising : Bool) (s : State) : Quiets s.quiet (execPinIrqEdge n rising s) := by
  simp [execPinIrqEdge]
@[simp] theorem State.fabricShort_quiet (s : State) (u p : Nat) (sensed : Bool) : (State.fabricShort s u p sensed).quiet = s.quiet := by
  simp [State.fabricShort]
@[simp] theorem execShortDetect_quiet (fabric : Bool) (pin : Fin 384) (sensed : Bool) (s : State) : Quiets s.quiet (execShortDetect fabric pin sensed s) := by
  simp [execShortDetect]
@[simp] theorem State.openInput_quiet (s : State) (p : Nat) : (State.openInput s p).quiet = s.quiet := by
  simp [State.openInput]
@[simp] theorem State.pullTest_quiet (s : State) (p : Nat) (isOpen : Bool) : (State.pullTest s p isOpen).quiet = s.quiet := by
  simp [State.pullTest]
@[simp] theorem execOpenWireTest_quiet (found : BitVec 64) (s : State) : Quiets s.quiet (execOpenWireTest found s) := by
  simp [execOpenWireTest]
@[simp] theorem execBankSupplyChange_quiet (b : Fin 8) (mv : BitVec 12) (s : State) : Quiets s.quiet (execBankSupplyChange b mv s) := by
  simp [execBankSupplyChange]
@[simp] theorem execUartTx_quiet (k : Fin 2) (b : BitVec 8) (s : State) : Quiets s.quiet (execUartTx k b s) := by
  simp [execUartTx]
@[simp] theorem execUartByteReceived_quiet (k : Fin 2) (b : BitVec 8) (ferr perr brk : Bool) (s : State) : Quiets s.quiet (execUartByteReceived k b ferr perr brk s) := by
  simp [execUartByteReceived]
@[simp] theorem execUartRx_quiet (k : Fin 2) (s : State) : Quiets s.quiet (execUartRx k s) := by
  simp [execUartRx]
@[simp] theorem execUartByteSent_quiet (k : Fin 2) (s : State) : Quiets s.quiet (execUartByteSent k s) := by
  unfold execUartByteSent
  (repeat' split) <;> simp
@[simp] theorem execSpiTx_quiet (k : Fin 2) (w : BitVec 32) (s : State) : Quiets s.quiet (execSpiTx k w s) := by
  simp [execSpiTx]
@[simp] theorem execSpiWordDone_quiet (k : Fin 2) (w : BitVec 32) (s : State) : Quiets s.quiet (execSpiWordDone k w s) := by
  unfold execSpiWordDone
  (repeat' split) <;> simp
@[simp] theorem execSpiRx_quiet (k : Fin 2) (s : State) : Quiets s.quiet (execSpiRx k s) := by
  simp [execSpiRx]
@[simp] theorem execI2cCmd_quiet (k : Fin 2) (v : BitVec 32) (s : State) : Quiets s.quiet (execI2cCmd k v s) := by
  simp [execI2cCmd]
@[simp] theorem execI2cTransactionEnd_quiet (k : Fin 2) (nack arb timeout : Bool) (data : List (BitVec 8)) (s : State) : Quiets s.quiet (execI2cTransactionEnd k nack arb timeout data s) := by
  simp [execI2cTransactionEnd]
@[simp] theorem execI2cRx_quiet (k : Fin 2) (s : State) : Quiets s.quiet (execI2cRx k s) := by
  simp [execI2cRx]
@[simp] theorem execSsiTrig_quiet (k : Fin 2) (s : State) : Quiets s.quiet (execSsiTrig k s) := by
  simp [execSsiTrig]
@[simp] theorem execSsiPeriod_quiet (k : Fin 2) (s : State) : Quiets s.quiet (execSsiPeriod k s) := by
  simp [execSsiPeriod]
@[simp] theorem execSsiReadDone_quiet (k : Fin 2) (raw : BitVec 32) (startHigh endLow : Bool) (s : State) : Quiets s.quiet (execSsiReadDone k raw startHigh endLow s) := by
  simp [execSsiReadDone]
@[simp] theorem State.takeAddr_quiet (s : State) (a : Nat) : (State.takeAddr s a).quiet = s.quiet := by
  simp [State.takeAddr]
@[simp] theorem State.takeLead_quiet (s : State) (epoch : BitVec 8) : (State.takeLead s epoch).quiet = s.quiet := by
  simp [State.takeLead]
@[simp] theorem State.phaseOut_quiet (s : State) (p : Nat) (f : PFrame) : (State.phaseOut s p f).quiet = s.quiet := by
  simp [State.phaseOut]
@[simp] theorem State.holdRelease_quiet (s : State) (p : Nat) : (State.holdRelease s p).quiet = s.quiet := by
  simp [State.holdRelease]
@[simp] theorem State.phaseSend_quiet (s : State) : (State.phaseSend s).quiet = s.quiet := by
  simp [State.phaseSend]
@[simp] theorem State.phaseMeasure_quiet (s : State) (n stamp delay : Nat) (f : Phase) : (State.phaseMeasure s n stamp delay f).quiet = s.quiet := by
  simp [State.phaseMeasure]
@[simp] theorem State.phaseYield_quiet (s : State) (p : Nat) (newer : Bool) : (State.phaseYield s p newer).quiet = s.quiet := by
  simp [State.phaseYield]
@[simp] theorem State.ringShow_quiet (s : State) : (State.ringShow s).quiet = s.quiet := by
  unfold State.ringShow
  (repeat' split) <;> simp
@[simp] theorem State.ringRebase_quiet (s : State) : (State.ringRebase s).quiet = s.quiet := by
  simp [State.ringRebase]
@[simp] theorem State.phaseArrive_quiet (s : State) (p : Nat) (h : PFrame) (f : Phase) (stamp t : Nat) : (State.phaseArrive s p h f stamp t).quiet = s.quiet := by
  simp [State.phaseArrive]
@[simp] theorem State.frameHdr_quiet (s : State) (p : Nat) (f : PFrame) : (State.frameHdr s p f).quiet = s.quiet := by
  unfold State.frameHdr
  dsimp only
  (repeat' split) <;> simp
@[simp] theorem State.frameItem_quiet (s : State) (p q : Nat) (r : RxFrame) (f : PFrame) (good : Bool) : (State.frameItem s p q r f good).quiet = s.quiet := by
  simp [State.frameItem]
@[simp] theorem State.frameBad_quiet (s : State) (p : Nat) (r : RxFrame) : (State.frameBad s p r).quiet = s.quiet := by
  unfold State.frameBad
  dsimp only
  (repeat' split) <;> simp
@[simp] theorem State.frameGood_quiet (s : State) (p : Nat) (r : RxFrame) (f : PFrame) (e2eOk : Bool) : (State.frameGood s p r f e2eOk).quiet = s.quiet := by
  unfold State.frameGood
  (repeat' split) <;> simp
@[simp] theorem State.frameTrailer_quiet (s : State) (p : Nat) (payload : List Byte) (e2e hop : BitVec 32) (short : Bool) : (State.frameTrailer s p payload e2e hop short).quiet = s.quiet := by
  unfold State.frameTrailer
  dsimp only
  (repeat' split) <;> simp
@[simp] theorem State.portEnable_quiet (s : State) (p : Nat) : (State.portEnable s p).quiet = s.quiet := by
  simp [State.portEnable]
@[simp] theorem State.portDisable_quiet (s : State) (p : Nat) : (State.portDisable s p).quiet = s.quiet := by
  unfold State.portDisable
  dsimp only
  rw [foldl_quiet _ _ (fun s u => by split <;> simp)]
  split <;> simp
@[simp] theorem execPortEnable_quiet (p : Fin 4) (s : State) : Quiets s.quiet (execPortEnable p s) := by
  simp [execPortEnable]
@[simp] theorem State.flushEnd_quiet (s : State) (p : Nat) : (State.flushEnd s p).quiet = s.quiet := by
  simp [State.flushEnd]
@[simp] theorem execInitBlockSend_quiet (p : Fin 4) (s : State) : Quiets s.quiet (execInitBlockSend p s) := by
  simp [execInitBlockSend]
@[simp] theorem execInitReceived_quiet (p : Fin 4) (allot : BitVec 32) (s : State) : Quiets s.quiet (execInitReceived p allot s) := by
  simp [execInitReceived]
@[simp] theorem State.forwardEvents_quiet (s : State) : (State.forwardEvents s).quiet = s.quiet := by
  simp [State.forwardEvents]
@[simp] theorem execHeartbeatSend_quiet (p : Fin 4) (s : State) : Quiets s.quiet (execHeartbeatSend p s) := by
  simp [execHeartbeatSend]
@[simp] theorem execHeartbeatReceived_quiet (p : Fin 4) (addr : BitVec 12) (s : State) : Quiets s.quiet (execHeartbeatReceived p addr s) := by
  simp [execHeartbeatReceived]
@[simp] theorem execHopFault_quiet (p : Fin 4) (s : State) : Quiets s.quiet (execHopFault p s) := by
  simp [execHopFault]
@[simp] theorem execStripe_quiet (p : Fin 4) (mask : BitVec 4) (s : State) : Quiets s.quiet (execStripe p mask s) := by
  simp [execStripe]
@[simp] theorem execFrameHdr_quiet (p : Fin 4) (hdr : BitVec 56) (s : State) : Quiets s.quiet (execFrameHdr p hdr s) := by
  simp [execFrameHdr]
@[simp] theorem execFrameTrailer_quiet (p : Fin 4) (payload : List (BitVec 8)) (e2e hop : BitVec 32) (short : Bool) (s : State) : Quiets s.quiet (execFrameTrailer p payload e2e hop short s) := by
  simp [execFrameTrailer]
@[simp] theorem State.gatherItem_quiet (k : Nat) : ∀ (s : State) (q : Nat), (State.gatherItem k s q).quiet = s.quiet := by
  induction k with
  | zero => intro s q; rfl
  | succ k ih => intro s q; unfold State.gatherItem; (repeat' split) <;> simp [ih]
@[simp] theorem execPelotonItemSend_quiet (q : Fin 32) (s : State) : Quiets s.quiet (execPelotonItemSend q s) := by
  unfold execPelotonItemSend
  dsimp only
  (repeat' split) <;> simp
@[simp] theorem execCredit_quiet (p : Fin 4) (totals : BitVec 56) (s : State) : Quiets s.quiet (execCredit p totals s) := by
  simp [execCredit]
@[simp] theorem execCreditReturn_quiet (p : Fin 4) (s : State) : Quiets s.quiet (execCreditReturn p s) := by
  simp [execCreditReturn]
@[simp] theorem execDelayMeasure_quiet (p : Fin 4) (s : State) : Quiets s.quiet (execDelayMeasure p s) := by
  simp [execDelayMeasure]
@[simp] theorem execDelayReq_quiet (p : Fin 4) (id : BitVec 8) (turnaround : BitVec 32) (s : State) : Quiets s.quiet (execDelayReq p id turnaround s) := by
  simp [execDelayReq]
@[simp] theorem execDelayResp_quiet (p : Fin 4) (id : BitVec 8) (turnaround roundTrip : BitVec 32) (s : State) : Quiets s.quiet (execDelayResp p id turnaround roundTrip s) := by
  simp [execDelayResp]
@[simp] theorem State.ledgerStart_quiet (s : State) (p : Nat) : (State.ledgerStart s p).quiet = s.quiet := by
  simp [State.ledgerStart]
@[simp] theorem execPelLedger_quiet (p : Fin 4) (s : State) : Quiets s.quiet (execPelLedger p s) := by
  simp [execPelLedger]
@[simp] theorem execLedgerMark_quiet (p : Fin 4) (s : State) : Quiets s.quiet (execLedgerMark p s) := by
  simp [execLedgerMark]
@[simp] theorem execLedgerAns_quiet (p : Fin 4) (held : BitVec 44) (s : State) : Quiets s.quiet (execLedgerAns p held s) := by
  simp [execLedgerAns]
@[simp] theorem execLedgerTimeout_quiet (p : Fin 4) (s : State) : Quiets s.quiet (execLedgerTimeout p s) := by
  simp [execLedgerTimeout]
@[simp] theorem State.flushWrite_quiet (s : State) (p : Nat) : (State.flushWrite s p).quiet = s.quiet := by
  simp [State.flushWrite]
@[simp] theorem execPelFlush_quiet (p : Fin 4) (s : State) : Quiets s.quiet (execPelFlush p s) := by
  simp [execPelFlush]
@[simp] theorem execPhaseSend_quiet (s : State) : Quiets s.quiet (execPhaseSend s) := by
  simp [execPhaseSend]
@[simp] theorem execPhaseReceived_quiet (p : Fin 4) (hdr : BitVec 56) (payload : List (BitVec 8)) (e2e hop : BitVec 32) (stamp : BitVec 64) (t : BitVec 32) (s : State) : Quiets s.quiet (execPhaseReceived p hdr payload e2e hop stamp t s) := by
  simp [execPhaseReceived]
@[simp] theorem execPelEnum_quiet (s : State) : Quiets s.quiet (execPelEnum s) := by
  simp [execPelEnum]
@[simp] theorem execEnumTriggerDelay_quiet (s : State) : Quiets s.quiet (execEnumTriggerDelay s) := by
  simp [execEnumTriggerDelay]
theorem State.takeMgmt_quiet {s u : State} {type : Nat} {x : Nat × PFrame} (h : s.takeMgmt type = some (x, u)) : u.quiet = s.quiet := by
  unfold State.takeMgmt at h
  split at h
  · cases h
  · cases h; rfl
@[simp] theorem State.enumTake_quiet (s : State) (p a src : Nat) (second : Bool) : (State.enumTake s p a src second).quiet = s.quiet := by
  simp [State.enumTake]
@[simp] theorem execEnum_quiet (s : State) : Quiets s.quiet (execEnum s) := by
  unfold execEnum
  split
  · simp
  · rename_i e
    have h := State.takeMgmt_quiet e
    dsimp only
    (repeat' split) <;> simp [h]
@[simp] theorem execEnumReply_quiet (s : State) : Quiets s.quiet (execEnumReply s) := by
  unfold execEnumReply
  split
  · simp
  · rename_i e
    have h := State.takeMgmt_quiet e
    dsimp only
    (repeat' split) <;> simp [h]
@[simp] theorem execEnumDone_quiet (s : State) : Quiets s.quiet (execEnumDone s) := by
  unfold execEnumDone
  split
  · simp
  · rename_i e
    have h := State.takeMgmt_quiet e
    (repeat' split) <;> simp [h]
@[simp] theorem execCompletion_quiet (s : State) : Quiets s.quiet (execCompletion s) := by
  unfold execCompletion
  split
  · simp
  · rename_i e
    have h := State.takeMgmt_quiet e
    (repeat' split) <;> simp [h]
@[simp] theorem execMgmtEvent_quiet (s : State) : Quiets s.quiet (execMgmtEvent s) := by
  unfold execMgmtEvent
  split
  · simp
  · rename_i e
    have h := State.takeMgmt_quiet e
    (repeat' split) <;> simp [h]
@[simp] theorem execHandback_quiet (s : State) : Quiets s.quiet (execHandback s) := by
  unfold execHandback
  split
  · simp
  · rename_i e
    have h := State.takeMgmt_quiet e
    dsimp only
    (repeat' split) <;> simp [h]
@[simp] theorem State.handbackWrite_quiet (s : State) : (State.handbackWrite s).quiet = s.quiet := by
  simp [State.handbackWrite]
@[simp] theorem execPelHandbackWrite_quiet (s : State) : Quiets s.quiet (execPelHandbackWrite s) := by
  simp [execPelHandbackWrite]
@[simp] theorem execLeadListenEnd_quiet (s : State) : Quiets s.quiet (execLeadListenEnd s) := by
  simp [execLeadListenEnd]
@[simp] theorem execLeadLost_quiet (s : State) : Quiets s.quiet (execLeadLost s) := by
  simp [execLeadLost]
@[simp] theorem State.setRegion_quiet (s : State) (n st : Nat) : (State.setRegion s n st).quiet = s.quiet := by
  simp [State.setRegion]
@[simp] theorem State.withdrawn_quiet (s : State) (n e : Nat) : (State.withdrawn s n e).quiet = s.quiet := by
  simp [State.withdrawn]
@[simp] theorem State.ringsFollow_quiet (s : State) (n : Nat) : (State.ringsFollow s n).quiet = s.quiet := by
  unfold State.ringsFollow
  dsimp only
  refine foldl_quiet _ _ ?_ _
  intro s a
  (repeat' split) <;> simp
@[simp] theorem State.allRings_quiet (s : State) : (State.allRings s).quiet = s.quiet := by
  simp [State.allRings]
@[simp] theorem State.setResetOn_quiet (s : State) (n : Nat) : (State.setResetOn s n).quiet = s.quiet := by
  simp [State.setResetOn]
@[simp] theorem State.setResetOff_quiet (s : State) (set : BitVec 16) : (State.setResetOff s set).quiet = s.quiet := by
  unfold State.setResetOff
  dsimp only
  rw [foldl_quiet _ _ (fun s u => by split <;> simp)]
  rw [foldl_quiet _ _ (fun s u => by split <;> simp)]
  simp
@[simp] theorem State.lsEnd_quiet (s : State) (k : Nat) : (State.lsEnd s k).quiet = s.quiet := by
  simp [State.lsEnd]
@[simp] theorem State.setColGap_quiet (s : State) (n g pos : Nat) (retired : Bool) : (State.setColGap s n g pos retired).quiet = s.quiet := by
  rfl
@[simp] theorem State.setSliceGap_quiet (s : State) (n c g pos : Nat) (retired : Bool) : (State.setSliceGap s n c g pos retired).quiet = s.quiet := by
  rfl
@[simp] theorem State.setBlockGap_quiet (s : State) (n f q pos : Nat) (retired : Bool) : (State.setBlockGap s n f q pos retired).quiet = s.quiet := by
  rfl
@[simp] theorem State.booksFromMap_quiet (s : State) (all : Bool) : (State.booksFromMap s all).quiet = s.quiet := by
  simp [State.booksFromMap]
@[simp] theorem State.rowsShow_quiet (s : State) : (State.rowsShow s).quiet = s.quiet := by
  simp [State.rowsShow]
@[simp] theorem State.gapsFromBooks_quiet (s : State) : (State.gapsFromBooks s).quiet = s.quiet := by
  unfold State.gapsFromBooks
  dsimp only
  rw [State.rowsShow_quiet]
  refine foldl_quiet _ _ (fun s n => ?_) s
  rw [foldl_quiet _ _ (fun s f => foldl_quiet _ _ (fun s q => by split <;> simp) s)]
  rw [foldl_quiet _ _ (fun s f => foldl_quiet _ _ (fun s q => by split <;> simp) s)]
  rw [foldl_quiet _ _ (fun s q => by split <;> simp)]
@[simp] theorem State.retiredFromBooks_quiet (s : State) : (State.retiredFromBooks s).quiet = s.quiet := by
  simp [State.retiredFromBooks]
@[simp] theorem State.spokeRetire_quiet (s : State) (u cause : Nat) : (State.spokeRetire s u cause).quiet = s.quiet := by
  simp [State.spokeRetire]
@[simp] theorem State.regionRetire_quiet (s : State) (n cause : Nat) : (State.regionRetire s n cause).quiet = s.quiet := by
  simp [State.regionRetire]
theorem State.sliceSubst_quiet {s u : State} {n c p cause : Nat} (h : s.sliceSubst n c p cause = some u) : u.quiet = s.quiet := by
  unfold State.sliceSubst at h
  dsimp only at h
  split at h
  · cases h
  · obtain rfl := Option.some.inj h
    simp
theorem State.blockSubst_quiet {s u : State} {n f p cause : Nat} (h : s.blockSubst n f p cause = some u) : u.quiet = s.quiet := by
  unfold State.blockSubst at h
  dsimp only at h
  split at h
  · cases h
  · obtain rfl := Option.some.inj h
    simp
theorem State.rowRepair_quiet {s u : State} {n f p row cause : Nat} (h : s.rowRepair n f p row cause = some u) : u.quiet = s.quiet := by
  unfold State.rowRepair at h
  dsimp only at h
  split at h
  · obtain rfl := Option.some.inj h
    rfl
  · split at h
    · cases h
    · obtain rfl := Option.some.inj h
      simp
@[simp] theorem State.setBist_quiet (s : State) (b : Bist) : (State.setBist s b).quiet = s.quiet := by
  rfl
@[simp] theorem State.newTest_quiet (s : State) (kind : Nat) : (s.newTest kind).2.quiet = s.quiet := rfl
@[simp] theorem State.keepTest_quiet (s : State) (t : TestRun) : (State.keepTest s t).quiet = s.quiet := by
  simp [State.keepTest]
@[simp] theorem State.bistRecord_quiet (s : State) (r : TestRec) (bits : List (BitVec 64)) : (State.bistRecord s r bits).quiet = s.quiet := by
  unfold State.bistRecord
  dsimp only
  (repeat' split) <;> simp
@[simp] theorem State.bistCut_quiet (s : State) : (State.bistCut s).quiet = s.quiet := by
  simp [State.bistCut]
@[simp] theorem State.bistCutIn_quiet (s : State) (n : Nat) : (State.bistCutIn s n).quiet = s.quiet := by
  simp [State.bistCutIn]
@[simp] theorem State.bistLeave_quiet (s : State) (n : Nat) : (State.bistLeave s n).quiet = s.quiet := by
  simp [State.bistLeave]
@[simp] theorem State.bistStop_quiet (s : State) : (State.bistStop s).quiet = s.quiet := by
  simp [State.bistStop]
@[simp] theorem State.bistPass_quiet (s : State) : (State.bistPass s).quiet = s.quiet := by
  unfold State.bistPass
  simp
@[simp] theorem State.enroll_quiet (s : State) (src : CmdSrc) (d : AdminDesc) : (State.enroll s src d).quiet = s.quiet := by
  simp [State.enroll]
@[simp] theorem State.mboxWrite_quiet (s : State) (v : Word) : (State.mboxWrite s v).quiet = s.quiet := by
  simp [State.mboxWrite]
theorem State.runAccepted_quiet (s : State) (p : AdminDesc → Bool) (f : AdminCmd → State → State) (hf : ∀ c u, (f c u).quiet = u.quiet)
    (bad : Bool := false) : Quiets s.quiet (s.runAccepted p f bad) := by
  unfold State.runAccepted
  split
  · simp
  · rename_i c t e
    split at e
    · cases e
    · have h := State.takeCmd_quiet e
      (repeat' split) <;> simp [h, hf]
@[simp] theorem State.plainWrite_quiet (s : State) (off : Nat) (v : Word) : (State.plainWrite s off v).quiet = s.quiet := by
  unfold State.plainWrite
  (repeat' split) <;> simp
@[simp] theorem State.clearCounts_quiet (s : State) (off : Nat) : (State.clearCounts s off).quiet = s.quiet := by
  unfold State.clearCounts
  (repeat' split) <;> simp
@[simp] theorem State.fieldWrite_quiet (s : State) (off : Nat) (v : Word) : (State.fieldWrite s off v).quiet = s.quiet := by
  simp [State.fieldWrite]
@[simp] theorem State.retiredWrite_quiet (s : State) (off : Nat) (v : Word) : (State.retiredWrite s off v).quiet = s.quiet := by
  unfold State.retiredWrite
  (repeat' split) <;> simp
@[simp] theorem State.clkShow_quiet (s : State) : (State.clkShow s).quiet = s.quiet := by
  simp [State.clkShow]
@[simp] theorem State.clkTaps_quiet (s : State) (d : Nat) : (State.clkTaps s d).quiet = s.quiet := by
  simp [State.clkTaps]
@[simp] theorem State.setRevoke_quiet (s : State) (b : Bool) : (State.setRevoke s b).quiet = s.quiet := by
  rfl
@[simp] theorem State.hifWrite_quiet (s : State) (off : Nat) (v : Word) : (State.hifWrite s off v).quiet = s.quiet := by
  simp [State.hifWrite]
@[simp] theorem State.cadSrcWrite_quiet (s : State) (n off : Nat) (v : Word) : (State.cadSrcWrite s n off v).quiet = s.quiet := by
  simp [State.cadSrcWrite]
@[simp] theorem State.cadTrkWrite_quiet (s : State) (t off : Nat) (v : Word) : (State.cadTrkWrite s t off v).quiet = s.quiet := by
  simp [State.cadTrkWrite]
@[simp] theorem State.cadWrite_quiet (s : State) (off : Nat) (v : Word) : (State.cadWrite s off v).quiet = s.quiet := by
  simp [State.cadWrite]
@[simp] theorem State.spkCtlWrite_quiet (s : State) (u : Nat) (v : Word) : (State.spkCtlWrite s u v).quiet = s.quiet := by
  simp [State.spkCtlWrite]
@[simp] theorem State.spkWrite_quiet (s : State) (u off : Nat) (v : Word) : (State.spkWrite s u off v).quiet = s.quiet := by
  simp [State.spkWrite]
@[simp] theorem State.adcWrite_quiet (s : State) (c off : Nat) (v : Word) : (State.adcWrite s c off v).quiet = s.quiet := by
  simp [State.adcWrite]
@[simp] theorem State.pinCfgWrite_quiet (s : State) (p off : Nat) (v : Word) : (State.pinCfgWrite s p off v).quiet = s.quiet := by
  unfold State.pinCfgWrite
  (repeat' split) <;> simp
@[simp] theorem State.perWrite_quiet (s : State) (off : Nat) (v : Word) : (State.perWrite s off v).quiet = s.quiet := by
  simp [State.perWrite]
@[simp] theorem State.pinPageWrite_quiet (s : State) (off : Nat) (v : Word) : (State.pinPageWrite s off v).quiet = s.quiet := by
  unfold State.pinPageWrite
  (repeat' split) <;> simp
@[simp] theorem State.xqWrite_quiet (s : State) (q off : Nat) (v : Word) : (State.xqWrite s q off v).quiet = s.quiet := by
  simp [State.xqWrite]
@[simp] theorem State.regionWrite_quiet (s : State) (n off : Nat) (v : Word) : (State.regionWrite s n off v).quiet = s.quiet := by
  unfold State.regionWrite
  (repeat' split) <;> simp
@[simp] theorem State.laneWrite_quiet (s : State) (n off : Nat) (v : Word) : (State.laneWrite s n off v).quiet = s.quiet := by
  simp [State.laneWrite]
@[simp] theorem State.grpEnable_quiet (s : State) (g : Nat) : (State.grpEnable s g).quiet = s.quiet := by
  simp [State.grpEnable]
@[simp] theorem State.grpWrite_quiet (s : State) (g off : Nat) (v : Word) : (State.grpWrite s g off v).quiet = s.quiet := by
  simp [State.grpWrite]
@[simp] theorem State.pelWrite_quiet (s : State) (p off : Nat) (v : Word) : (State.pelWrite s p off v).quiet = s.quiet := by
  simp [State.pelWrite]
@[simp] theorem State.lsWrite_quiet (s : State) (k off : Nat) (v : Word) : (State.lsWrite s k off v).quiet = s.quiet := by
  simp [State.lsWrite]
@[simp] theorem State.bistWrite_quiet (s : State) (off : Nat) (v : Word) : (State.bistWrite s off v).quiet = s.quiet := by
  simp [State.bistWrite]
@[simp] theorem State.capSet_quiet (s : State) (p : Path) (off : Nat) (v : Word) : (State.capSet s p off v).quiet = s.quiet := by
  rfl
@[simp] theorem State.angleRead_quiet (s : State) (p : Path) (t : Nat) : (State.angleRead s p t).quiet = s.quiet := by
  unfold State.angleRead
  exact (quiet_readData _ _).trans (by rw [State.capSet_quiet, State.capSet_quiet, State.capSet_quiet])
@[simp] theorem State.ssiPosRead_quiet (s : State) (p : Path) (k : Nat) : (State.ssiPosRead s p k).quiet = s.quiet := by
  unfold State.ssiPosRead
  exact (quiet_readData _ _).trans (by rw [State.capSet_quiet, State.capSet_quiet])
@[simp] theorem State.lowRead_quiet (s : State) (p : Path) (off : Nat) : (State.lowRead s p off).quiet = s.quiet := by
  unfold State.lowRead
  (repeat' split) <;> simp
@[simp] theorem State.wdgRead_quiet (s : State) (off : Nat) : (State.wdgRead s off).quiet = s.quiet := by
  unfold State.wdgRead
  dsimp only
  (repeat' split) <;> simp
@[simp] theorem State.bistRead_quiet (s : State) (off : Nat) : (State.bistRead s off).quiet = s.quiet := by
  simp [State.bistRead]
@[simp] theorem State.pinRead_quiet (s : State) (off : Nat) : (State.pinRead s off).quiet = s.quiet := by
  unfold State.pinRead
  split
  · rfl
  · exact (foldl_quiet _ _ (fun s n => by dsimp only; (repeat' split) <;> simp) _).trans (draw_quiet s)
@[simp] theorem State.ringRead_quiet (s : State) (off : Nat) : (State.ringRead s off).quiet = s.quiet := by
  simp [State.ringRead]
@[simp] theorem State.regRead_quiet (s : State) (p : Path) (off : Nat) : (State.regRead s p off).quiet = s.quiet := by
  unfold State.regRead
  (repeat' split) <;> simp
@[simp] theorem State.answer_quiet (s : State) (a : Access) (v : Word) (status : Nat) : (State.answer s a v status).quiet = s.quiet := by
  unfold State.answer
  (repeat' split) <;> simp
@[simp] theorem State.accessForce_quiet (s : State) (a : Access) : (State.accessForce s a).quiet = s.quiet := by
  simp [State.accessForce]
@[simp] theorem State.forceDomain_quiet (s : State) (d : Nat) : (State.forceDomain s d).quiet = s.quiet := by
  simp [State.forceDomain]
@[simp] theorem execClockStopped_quiet (d : Fin 71) (s : State) : Quiets s.quiet (execClockStopped d s) := by
  simp [execClockStopped]
@[simp] theorem execAccessHang_quiet (d : Fin 71) (s : State) : Quiets s.quiet (execAccessHang d s) := by
  unfold execAccessHang
  (repeat' split) <;> simp
@[simp] theorem execBarBadAccess_quiet (b : Bar) (off : BitVec 32) (s : State) : Quiets s.quiet (execBarBadAccess b off s) := by
  simp [execBarBadAccess]
@[simp] theorem execFrameReadback_quiet (p : Path) (n : Fin 16) (col minor : BitVec 8) (s : State) : Quiets s.quiet (execFrameReadback p n col minor s) := by
  simp [execFrameReadback]
@[simp] theorem execSecRevokeFirst_quiet (s : State) : Quiets s.quiet (execSecRevokeFirst s) := by
  simp [execSecRevokeFirst]
@[simp] theorem execRevokePairTimeout_quiet (s : State) : Quiets s.quiet (execRevokePairTimeout s) := by
  simp [execRevokePairTimeout]
@[simp] theorem State.setLdr_quiet (s : State) (l : Loader) : (State.setLdr s l).quiet = s.quiet := by
  rfl
@[simp] theorem State.setLoad_quiet (s : State) (l : Option Load) : (State.setLoad s l).quiet = s.quiet := by
  rfl
@[simp] theorem State.setRegionLoad_quiet (s : State) (l : Option Load) : (State.setRegionLoad s l).quiet = s.quiet := by
  rfl
@[simp] theorem State.ldrError_quiet (s : State) (code chunk : Nat) : (State.ldrError s code chunk).quiet = s.quiet := by
  simp [State.ldrError]
@[simp] theorem State.prError_quiet (s : State) (set code chunk : Nat) : (State.prError s set code chunk).quiet = s.quiet := by
  simp [State.prError]
@[simp] theorem State.isolate_quiet (s : State) (n st : Nat) : (State.isolate s n st).quiet = s.quiet := by
  simp [State.isolate]
@[simp] theorem State.isoSince_quiet (s : State) (n : Nat) : (State.isoSince s n).quiet = s.quiet := by
  simp [State.isoSince]
@[simp] theorem State.isolateForLoad_quiet (s : State) (n : Nat) : (State.isolateForLoad s n).quiet = s.quiet := by
  simp [State.isolateForLoad]
@[simp] theorem State.partialFault_quiet (s : State) (set : Nat) (waiting : BitVec 16) : (State.partialFault s set waiting).quiet = s.quiet := by
  simp [State.partialFault]
@[simp] theorem State.ldrIdle_quiet (s : State) : (State.ldrIdle s).quiet = s.quiet := by
  simp [State.ldrIdle]
@[simp] theorem State.ldrNone_quiet (s : State) : (State.ldrNone s).quiet = s.quiet := by
  simp [State.ldrNone]
@[simp] theorem State.endRegionLoad_quiet (s : State) (hold : Bool) : (State.endRegionLoad s hold).quiet = s.quiet := by
  unfold State.endRegionLoad
  (repeat' split) <;> simp
@[simp] theorem State.endActivation_quiet (s : State) (hold : Bool) (a : Activation) : (State.endActivation s hold a).quiet = s.quiet := by
  simp [State.endActivation]
@[simp] theorem State.endRegions_quiet (s : State) (hold : Bool) : (State.endRegions s hold).quiet = s.quiet := by
  simp [State.endRegions]
@[simp] theorem State.regionsRun_quiet (s : State) (set : Nat) : (State.regionsRun s set).quiet = s.quiet := by
  simp [State.regionsRun]
@[simp] theorem State.designRuns_quiet (s : State) (l : Load) : (State.designRuns s l).quiet = s.quiet := by
  simp [State.designRuns]
@[simp] theorem State.regionsFail_quiet (s : State) : (State.regionsFail s).quiet = s.quiet := by
  simp [State.regionsFail]
@[simp] theorem State.endFullLoad_quiet (s : State) : (State.endFullLoad s).quiet = s.quiet := by
  unfold State.endFullLoad
  (repeat' split) <;> simp
@[simp] theorem State.bistEnd_quiet (s : State) : (State.bistEnd s).quiet = s.quiet := by
  unfold State.bistEnd
  dsimp only
  (repeat' split) <;> simp
@[simp] theorem State.holdReset_quiet (s : State) : (State.holdReset s).quiet = s.quiet := by
  simp [State.holdReset]
@[simp] theorem State.holdFreeze_quiet (s : State) : (State.holdFreeze s).quiet = s.quiet := by
  simp [State.holdFreeze]
@[simp] theorem State.grmFresh_quiet (s : State) (n : Nat) : (State.grmFresh s n).quiet = s.quiet := by
  simp [State.grmFresh]
@[simp] theorem State.grmHold_quiet (s : State) : (State.grmHold s).quiet = s.quiet := by
  simp [State.grmHold]
@[simp] theorem State.holdVcore_quiet (s : State) (off : Bool) : (State.holdVcore s off).quiet = s.quiet := by
  simp [State.holdVcore]
@[simp] theorem State.enterHold_quiet (s : State) (cause : Nat) (setReset vcoreOff : Bool) : (State.enterHold s cause setReset vcoreOff).quiet = s.quiet := by
  simp [State.enterHold]
@[simp] theorem State.faultHold_quiet (s : State) : (State.faultHold s).quiet = s.quiet := by
  simp [State.faultHold]
@[simp] theorem State.faultRetire_quiet (s : State) : (State.faultRetire s).quiet = s.quiet := by
  simp [State.faultRetire]
@[simp] theorem State.repairOutcome_quiet (s : State) (a v : Nat) : (State.repairOutcome s a v).quiet = s.quiet := by
  simp [State.repairOutcome]
@[simp] theorem State.grmReact_quiet (s : State) : (State.grmReact s).quiet = s.quiet := by
  simp [State.grmReact]
@[simp] theorem State.repairFail_quiet (s : State) (a : Nat) : (State.repairFail s a).quiet = s.quiet := by
  simp [State.repairFail]
@[simp] theorem State.repairsFail_quiet (s : State) (n : Nat) : (State.repairsFail s n).quiet = s.quiet := by
  simp [State.repairsFail]
@[simp] theorem State.regionOut_quiet (s : State) (n cause : Nat) : (State.regionOut s n cause).quiet = s.quiet := by
  simp [State.regionOut]
@[simp] theorem State.unitOut_quiet (s : State) (u : RetUnit) (cause : Nat) : (State.unitOut s u cause).quiet = s.quiet := by
  unfold State.unitOut
  (repeat' split) <;> simp
@[simp] theorem State.loadRefused_quiet (s : State) : (State.loadRefused s).quiet = s.quiet := by
  simp [State.loadRefused]
@[simp] theorem State.beginFull_quiet (s : State) (source : BitVec 2) (store : Bool) (src : Option CmdSrc) : (State.beginFull s source store src).quiet = s.quiet := by
  simp [State.beginFull]
@[simp] theorem State.readMedia_quiet (s : State) : (State.readMedia s).quiet = s.quiet := by
  simp [State.readMedia]
@[simp] theorem State.groupRoles_quiet (s : State) : (State.groupRoles s).quiet = s.quiet := by
  simp [State.groupRoles]
@[simp] theorem State.strapPulls_quiet (s : State) : (State.strapPulls s).quiet = s.quiet := by
  simp [State.strapPulls]
@[simp] theorem State.fuseShow_quiet (s : State) : (State.fuseShow s).quiet = s.quiet := by
  simp [State.fuseShow]
@[simp] theorem State.toCold_quiet (s : State) : (State.toCold s).quiet = s.quiet := by
  simp [State.toCold]
@[simp] theorem State.poweredUp_quiet (s : State) (p : PowerUp) :
    (State.poweredUp s p).quiet = { s.quiet with fuses := { s.fuses with readGood := p.good } } := rfl
@[simp] theorem State.strapsTaken_quiet (s : State) (p : PowerUp) : (State.strapsTaken s p).quiet = s.quiet := by
  simp [State.strapsTaken]
@[simp] theorem execVinStop_quiet (s : State) (vin : BitVec 16) : Quiets s.quiet (execVinStop s vin) := by
  simp [execVinStop]
@[simp] theorem execSupervisorFailover_quiet (s : State) : Quiets s.quiet (execSupervisorFailover s) := by
  simp [execSupervisorFailover]
@[simp] theorem execLastSupervisorFail_quiet (s : State) : Quiets s.quiet (execLastSupervisorFail s) := by
  simp [execLastSupervisorFail]
@[simp] theorem State.drlRaise_quiet (s : State) : (State.drlRaise s).quiet = s.quiet := by
  simp [State.drlRaise]
@[simp] theorem execDerailleurEvaluate_quiet (s : State) : Quiets s.quiet (execDerailleurEvaluate s) := by
  simp [execDerailleurEvaluate]
@[simp] theorem execDerailleurWindowEnd_quiet (s : State) : Quiets s.quiet (execDerailleurWindowEnd s) := by
  simp [execDerailleurWindowEnd]
@[simp] theorem execVcoreSlewStep_quiet (s : State) : Quiets s.quiet (execVcoreSlewStep s) := by
  simp [execVcoreSlewStep]
@[simp] theorem State.ceilingMoved_quiet (s : State) : (State.ceilingMoved s).quiet = s.quiet := by
  simp [State.ceilingMoved]
@[simp] theorem execCapCeilingStep_quiet (pin pcore : BitVec 16) (s : State) : Quiets s.quiet (execCapCeilingStep pin pcore s) := by
  simp [execCapCeilingStep]
@[simp] theorem execThermalCeilingStep_quiet (s : State) : Quiets s.quiet (execThermalCeilingStep s) := by
  simp [execThermalCeilingStep]
@[simp] theorem execCapUnmet_quiet (s : State) : Quiets s.quiet (execCapUnmet s) := by
  simp [execCapUnmet]
@[simp] theorem execUndervoltage_quiet (vin : BitVec 16) (s : State) : Quiets s.quiet (execUndervoltage vin s) := by
  simp [execUndervoltage]
@[simp] theorem execOvervoltage_quiet (vin : BitVec 16) (s : State) : Quiets s.quiet (execOvervoltage vin s) := by
  simp [execOvervoltage]
@[simp] theorem execInputHardLimit_quiet (ma : BitVec 16) (s : State) : Quiets s.quiet (execInputHardLimit ma s) := by
  simp [execInputHardLimit]
@[simp] theorem State.vcoreMissed_quiet (s : State) : (State.vcoreMissed s).quiet = s.quiet := by
  simp [State.vcoreMissed]
@[simp] theorem execRailOutOfWindow_quiet (rail : Fin 5) (mv : BitVec 16) (s : State) : Quiets s.quiet (execRailOutOfWindow rail mv s) := by
  unfold execRailOutOfWindow
  (repeat' split) <;> simp
@[simp] theorem execVcorePhaseCheck_quiet (phase : Fin 10) (s : State) : Quiets s.quiet (execVcorePhaseCheck phase s) := by
  unfold execVcorePhaseCheck
  dsimp only
  (repeat' split) <;> simp
@[simp] theorem execTemperatureRead_quiet (t : Temps) (s : State) : Quiets s.quiet (execTemperatureRead t s) := by
  simp [execTemperatureRead]
@[simp] theorem execInputLimit_quiet (vin : BitVec 16) (s : State) : Quiets s.quiet (execInputLimit vin s) := by
  simp [execInputLimit]
@[simp] theorem State.loadFrame_quiet (s : State) (l : Load) (addr : Nat) (f : Frame) (r : RepairRec) : (s.loadFrame l addr f r).1.quiet = s.quiet := by
  unfold State.loadFrame
  dsimp only
  (repeat' split) <;> simp
@[simp] theorem State.loadMinors_quiet (k : Nat) : ∀ (s : State) (l : Load) (top m : Nat) (f : Frame) (r : RepairRec),
    (State.loadMinors k s l top m f r).1.quiet = s.quiet := by
  induction k with
  | zero => intro s l top m f r; rfl
  | succ k ih => intro s l top m f r; unfold State.loadMinors; dsimp only; (repeat' split) <;> simp [ih]
@[simp] theorem State.loadRecords_quiet (k : Nat) : ∀ (s : State) (l : Load) (bs : List Byte) (i at_ : Nat) (isLast : Bool),
    (State.loadRecords k s l bs i at_ isLast).1.quiet = s.quiet := by
  induction k with
  | zero => intro s l bs i at_ isLast; rfl
  | succ k ih => intro s l bs i at_ isLast; unfold State.loadRecords; dsimp only; (repeat' split) <;> simp [ih]
theorem State.rowsRepair_quiet (l : List (Fin 514 × BitVec 72)) : ∀ {s t : State} {n f p : Nat}, State.rowsRepair l s n f p = some t → t.quiet = s.quiet := by
  induction l with
  | nil => intro s t n f p h; cases h; rfl
  | cons r l ih =>
    intro s t n f p h
    unfold State.rowsRepair at h
    (repeat' split at h)
    · cases h
    · rename_i e; exact (ih h).trans (State.rowRepair_quiet e)
    · cases h
@[simp] theorem State.hardAnswer_quiet (s : State) (t : TestFault) : (s.hardAnswer t).1.quiet = s.quiet := by
  have rows (l : List (Fin 514 × BitVec 72)) : ∀ (s u : State) (n f p : Nat), State.rowsRepair l s n f p = some u → u.quiet = s.quiet := by
    induction l with
    | nil => intro s u n f p h; cases h; rfl
    | cons r l ih =>
      intro s u n f p h
      unfold State.rowsRepair at h
      split at h
      · cases h
      · split at h
        · rename_i e; rw [ih _ _ _ _ _ h, State.rowRepair_quiet e]
        · cases h
  unfold State.hardAnswer
  dsimp only
  split
  · split
    · rename_i e; exact State.sliceSubst_quiet e
    · rfl
  · split
    · rename_i e; exact rows _ _ _ _ _ _ e
    · split
      · rename_i e; exact State.blockSubst_quiet e
      · rfl
@[simp] theorem State.hardFault_quiet (cov : Nat) (acc : State × TestRun × List Nat) (t : TestFault) :
    (State.hardFault cov acc t).1.quiet = acc.1.quiet := by
  unfold State.hardFault
  dsimp only
  (repeat' split) <;> simp
@[simp] theorem State.hardTest_quiet (s : State) (kind set start : Nat) (l : List TestFault) : (s.hardTest kind set start l).1.quiet = s.quiet := by
  have all (l : List TestFault) (cov : Nat) : ∀ acc : State × TestRun × List Nat, (l.foldl (State.hardFault cov) acc).1.quiet = acc.1.quiet := by
    induction l with
    | nil => intro acc; rfl
    | cons t l ih => intro acc; rw [List.foldl_cons, ih, State.hardFault_quiet]
  unfold State.hardTest
  dsimp only
  simp [all]
@[simp] theorem State.firnLost_quiet (s : State) (set : Nat) : (State.firnLost s set).quiet = s.quiet := by
  simp [State.firnLost]
@[simp] theorem State.ldrShow_quiet (s : State) (l : Load) : (State.ldrShow s l).quiet = s.quiet := by
  simp [State.ldrShow]
@[simp] theorem State.fabricClear_quiet (s : State) : (State.fabricClear s).quiet = s.quiet := by
  simp [State.fabricClear]
@[simp] theorem State.loadQuiets_quiet (s : State) : (State.loadQuiets s).quiet = s.quiet := by
  unfold State.loadQuiets
  dsimp only
  rw [foldl_quiet _ _ (fun s k => State.lsEnd_quiet s k)]
  refine foldl_quiet _ _ (fun s n => ?_) _
  rw [foldl_quiet _ _ (fun s k => State.put_quiet s _ _)]
  simp only [State.put_quiet]
@[simp] theorem State.padsAway_quiet (s : State) : (State.padsAway s).quiet = s.quiet := by
  unfold State.padsAway
  refine (foldl_quiet _ _ (fun s u => ?_) _).trans (b := ({ s with adc := [] } : State).quiet) rfl
  dsimp only
  rw [State.setSpk_quiet, foldl_quiet _ _ (fun s p => State.setPad_quiet _ _ _ _)]
@[simp] theorem State.loadParks_quiet (s : State) : (State.loadParks s).quiet = s.quiet := by
  simp [State.loadParks]
@[simp] theorem State.loadRegions_quiet (s : State) : (State.loadRegions s).quiet = s.quiet := by
  simp [State.loadRegions]
@[simp] theorem execFullLoadStart_quiet (s : State) : Quiets s.quiet (execFullLoadStart s) := by
  unfold execFullLoadStart
  (repeat' split) <;> simp
@[simp] theorem State.fullFails_quiet (s : State) (l : Load) (code hold : Nat) : (State.fullFails s l code hold).quiet = s.quiet := by
  simp [State.fullFails]
@[simp] theorem State.declaredPass_quiet (s : State) (set : Nat) : (State.declaredPass s set).quiet = s.quiet := by
  simp [State.declaredPass]
@[simp] theorem State.imageFailed_quiet (s : State) (l : Load) (code chunk : Nat) : (State.imageFailed s l code chunk).quiet = s.quiet := by
  simp [State.imageFailed]
@[simp] theorem State.regionFailed_quiet (s : State) (l : Load) (code chunk : Nat) : (State.regionFailed s l code chunk).quiet = s.quiet := by
  simp [State.regionFailed]
@[simp] theorem State.loadFailed_quiet (s : State) (l : Load) (code chunk : Nat) : (State.loadFailed s l code chunk).quiet = s.quiet := by
  simp [State.loadFailed]
@[simp] theorem State.keepLoad_quiet (s : State) (l : Load) : (State.keepLoad s l).quiet = s.quiet := by
  simp [State.keepLoad]
@[simp] theorem State.unitGo_quiet (s : State) (u : Nat) : (State.unitGo s u).quiet = s.quiet := by
  simp [State.unitGo]
@[simp] theorem State.wenPhase_quiet (s : State) (set : Nat) : (State.wenPhase s set).quiet = s.quiet := by
  simp [State.wenPhase]
@[simp] theorem State.enterRun_quiet (s : State) (l : Load) : (State.enterRun s l).quiet = s.quiet := by
  simp [State.enterRun]
@[simp] theorem State.phaseShow_quiet (s : State) (l : Load) (code : Nat) : (State.phaseShow s l code).quiet = s.quiet := by
  simp [State.phaseShow]
@[simp] theorem execRegionIsolateStep_quiet (n : Fin 16) (s : State) : Quiets s.quiet (execRegionIsolateStep n s) := by
  unfold execRegionIsolateStep
  (repeat' split) <;> simp
@[simp] theorem execLoadPartial_quiet (list : List Byte) (s : State) : Quiets s.quiet (execLoadPartial list s) := by
  unfold execLoadPartial
  refine State.runAccepted_quiet _ _ _ (fun c s => ?_)
  dsimp only
  (repeat' split) <;> simp
@[simp] theorem execIsolateRegion_quiet (s : State) : Quiets s.quiet (execIsolateRegion s) := by
  unfold execIsolateRegion
  refine State.runAccepted_quiet _ _ _ (fun c s => ?_)
  dsimp only
  (repeat' split) <;> simp
@[simp] theorem execActivateRegion_quiet (s : State) : Quiets s.quiet (execActivateRegion s) := by
  unfold execActivateRegion
  refine State.runAccepted_quiet _ _ _ (fun c s => ?_)
  dsimp only
  (repeat' split) <;> simp
@[simp] theorem State.deIsolate_quiet (s : State) (a : Activation) : (State.deIsolate s a).quiet = s.quiet := by
  simp [State.deIsolate]
@[simp] theorem State.actKeep_quiet (s : State) (old a : Activation) : (State.actKeep s old a).quiet = s.quiet := by
  simp [State.actKeep]
@[simp] theorem State.sbu_quiet (s : State) (n col minor : Nat) (e : Frame) : (State.sbu s n col minor e).quiet = s.quiet := by
  simp [State.sbu]
@[simp] theorem State.mbu_quiet (s : State) (n a : Nat) : (State.mbu s n a).quiet = s.quiet := by
  simp [State.mbu]
@[simp] theorem State.groomVote_quiet (s : State) (n : Nat) (out : Option (Fin 3)) : (State.groomVote s n out).quiet = s.quiet := by
  unfold State.groomVote
  (repeat' split) <;> simp
@[simp] theorem State.latchesRewrite_quiet (s : State) (n : Nat) (latch : Bool) : (State.latchesRewrite s n latch).quiet = s.quiet := by
  simp [State.latchesRewrite]
@[simp] theorem State.passBegin_quiet (s : State) (n : Nat) (bad latch : Bool) : (State.passBegin s n bad latch).quiet = s.quiet := by
  unfold State.passBegin
  (repeat' split) <;> simp
@[simp] theorem State.frameChecked_quiet (s : State) (n c m : Nat) : (State.frameChecked s n c m).quiet = s.quiet := by
  simp [State.frameChecked]
@[simp] theorem State.frameNew_quiet (s : State) (a : Nat) (v : Frame) : (State.frameNew s a v).quiet = s.quiet := by
  simp [State.frameNew]
@[simp] theorem State.grmPass_quiet (s : State) (n : Nat) : (State.grmPass s n).quiet = s.quiet := by
  simp [State.grmPass]
@[simp] theorem execGroomerFrameCheck_quiet (n : Fin 16) (col minor : BitVec 8) (flips : BitVec 4096) (out : Option (Fin 3)) (latch last : Bool) (s : State) : Quiets s.quiet (execGroomerFrameCheck n col minor flips out latch last s) := by
  simp [execGroomerFrameCheck]
@[simp] theorem execMbuRepairDone_quiet (addr : BitVec 20) (s : State) : Quiets s.quiet (execMbuRepairDone addr s) := by
  unfold execMbuRepairDone
  dsimp only
  (repeat' split) <;> simp
@[simp] theorem execScrubOverrun_quiet (n : Fin 16) (s : State) : Quiets s.quiet (execScrubOverrun n s) := by
  simp [execScrubOverrun]
@[simp] theorem execLtContention_quiet (n : Fin 16) (vert : Bool) (line : Fin 72) (track : Fin 24) (seg : Fin 4) (s : State) : Quiets s.quiet (execLtContention n vert line track seg s) := by
  simp [execLtContention]
@[simp] theorem execWatchdogStall_quiet (n : Fin 16) (k : Fin 32) (s : State) : Quiets s.quiet (execWatchdogStall n k s) := by
  simp [execWatchdogStall]
@[simp] theorem State.bistSkip_quiet (s : State) (x : Nat) : (State.bistSkip s x).quiet = s.quiet := by
  unfold State.bistSkip
  dsimp only
  (repeat' split) <;> simp
@[simp] theorem State.bistSkipTo_quiet (s : State) (x : Nat) : (State.bistSkipTo s x).quiet = s.quiet := by
  simp [State.bistSkipTo]
@[simp] theorem State.fullEnd_quiet (s : State) (code : Nat) : (State.fullEnd s code).quiet = s.quiet := by
  simp [State.fullEnd]
@[simp] theorem State.bistPassEnd_quiet (s : State) : (State.bistPassEnd s).quiet = s.quiet := by
  unfold State.bistPassEnd
  dsimp only
  (repeat' split) <;> simp
@[simp] theorem execColumnTestStart_quiet (s : State) : Quiets s.quiet (execColumnTestStart s) := by
  unfold execColumnTestStart
  (repeat' split) <;> simp
@[simp] theorem State.fullCount_quiet (s : State) (code : Nat) : (State.fullCount s code).quiet = s.quiet := by
  simp [State.fullCount]
@[simp] theorem State.groupDone_quiet (s : State) : (State.groupDone s).quiet = s.quiet := by
  simp [State.groupDone]
@[simp] theorem State.columnResult_quiet (s : State) (code : Nat) (bits : List (BitVec 64)) : (State.columnResult s code bits).quiet = s.quiet := by
  simp [State.columnResult]
@[simp] theorem State.columnRetire_quiet (s : State) (bits : List (BitVec 64)) : (State.columnRetire s bits).quiet = s.quiet := by
  simp [State.columnRetire]
@[simp] theorem execColumnTestDone_quiet (ok : Bool) (s : State) : Quiets s.quiet (execColumnTestDone ok s) := by
  simp [execColumnTestDone]
@[simp] theorem execColumnDiagnosisDone_quiet (row : Fin 72) (cell : Fin 32) (bit : Fin 112) (s : State) : Quiets s.quiet (execColumnDiagnosisDone row cell bit s) := by
  simp [execColumnDiagnosisDone]
@[simp] theorem execMigrationCopyDone_quiet (s : State) : Quiets s.quiet (execMigrationCopyDone s) := by
  simp [execMigrationCopyDone]
@[simp] theorem State.owesCheck_quiet (s : State) (n lo hi : Nat) : (State.owesCheck s n lo hi).quiet = s.quiet := by
  simp [State.owesCheck]
@[simp] theorem State.gapMove_quiet (s : State) (n g pos : Nat) (retired : Bool) : (State.gapMove s n g pos retired).quiet = s.quiet := by
  simp [State.gapMove]
@[simp] theorem execMigration_quiet (s : State) : Quiets s.quiet (execMigration s) := by
  simp [execMigration]
@[simp] theorem State.blockMove_quiet (s : State) (n f p cause : Nat) : (State.blockMove s n f p cause).quiet = s.quiet := by
  unfold State.blockMove
  split
  · rfl
  · rename_i h
    exact (foldl_quiet _ _ (fun t b => by split <;> simp) _).trans (State.blockSubst_quiet h)
@[simp] theorem State.substitute_quiet (s : State) (e : MapEntry) : (s.substitute e).quiet = s.quiet := by
  have slice (n c p x : Nat) : ((s.sliceSubst n c p x).getD s).quiet = s.quiet := by
    cases h : s.sliceSubst n c p x with
    | none => rfl
    | some u => exact State.sliceSubst_quiet h
  unfold State.substitute
  dsimp only
  split
  · simp
  · exact slice _ _ _ _
  · exact State.blockMove_quiet _ _ _ _ _
  · split
    · rename_i h; exact State.rowRepair_quiet h
    · exact State.blockMove_quiet _ _ _ _ _
  · rfl
@[simp] theorem execMoraineSubstitution_quiet (s : State) : Quiets s.quiet (execMoraineSubstitution s) := by
  unfold execMoraineSubstitution
  (repeat' split) <;> simp
@[simp] theorem execWindowWaitExpiry_quiet (n : Fin 16) (s : State) : Quiets s.quiet (execWindowWaitExpiry n s) := by
  simp [execWindowWaitExpiry]
@[simp] theorem execUnitRetire_quiet (u : RetUnit) (s : State) : Quiets s.quiet (execUnitRetire u s) := by
  unfold execUnitRetire
  (repeat' split) <;> simp
@[simp] theorem execLockstepArm_quiet (k : Fin 8) (v : BitVec 32) (s : State) : Quiets s.quiet (execLockstepArm k v s) := by
  simp [execLockstepArm]
@[simp] theorem State.setSide_quiet (s : State) (n tap : Nat) (l : List Nat) : (State.setSide s n tap l).quiet = s.quiet := by
  rfl
@[simp] theorem State.lsReact_quiet (s : State) (k : Nat) : (State.lsReact s k).quiet = s.quiet := by
  simp [State.lsReact]
@[simp] theorem State.lsGroup_quiet (s : State) (k tap m : Nat) : (State.lsGroup s k tap m).quiet = s.quiet := by
  unfold State.lsGroup
  dsimp only
  (repeat' split) <;> simp
@[simp] theorem execLockstepCompare_quiet (k : Fin 8) (tap : Fin 64) (s : State) : Quiets s.quiet (execLockstepCompare k tap s) := by
  simp [execLockstepCompare]
@[simp] theorem execLockstepShortGroup_quiet (k : Fin 8) (tap : Fin 64) (s : State) : Quiets s.quiet (execLockstepShortGroup k tap s) := by
  simp [execLockstepShortGroup]
@[simp] theorem execLockstepLag_quiet (k : Fin 8) (tap : Fin 64) (byTime : Bool) (s : State) : Quiets s.quiet (execLockstepLag k tap byTime s) := by
  simp [execLockstepLag]
@[simp] theorem execDoorbell_quiet (off : BitVec 19) (v : BitVec 32) (s : State) : Quiets s.quiet (execDoorbell off v s) := by
  simp [execDoorbell]
@[simp] theorem execDescriptorFetched_quiet (n : Fin 96) (raw : List Byte) (s : State) : Quiets s.quiet (execDescriptorFetched n raw s) := by
  simp [execDescriptorFetched]
@[simp] theorem State.commandTake_quiet (s : State) (raw : List Byte) : (State.commandTake s raw).quiet = s.quiet := by
  simp [State.commandTake]
@[simp] theorem execAdminFetch_quiet (raw : List Byte) (s : State) : Quiets s.quiet (execAdminFetch raw s) := by
  simp [execAdminFetch]
@[simp] theorem execStaleRecheck_quiet (n : Fin 96) (raw : List Byte) (s : State) : Quiets s.quiet (execStaleRecheck n raw s) := by
  simp [execStaleRecheck]
@[simp] theorem execH2fDataRead_quiet (r : Fin 32) (data : List Byte) (s : State) : Quiets s.quiet (execH2fDataRead r data s) := by
  simp [execH2fDataRead]
@[simp] theorem execF2hWordPop_quiet (r : Fin 32) (s : State) : Quiets s.quiet (execF2hWordPop r s) := by
  simp [execF2hWordPop]
@[simp] theorem State.dmaErr_quiet (s : State) (n : Nat) : (State.dmaErr s n).quiet = s.quiet := by
  simp [State.dmaErr]
@[simp] theorem execDmaError_quiet (n : Fin 96) (what : DmaAccess) (s : State) : Quiets s.quiet (execDmaError n what s) := by
  unfold execDmaError
  split
  · simp
  · cases what with
    | descriptor => dsimp only; split <;> simp
    | data => dsimp only; (repeat' split) <;> simp
    | stream => dsimp only; (repeat' split) <;> simp
    | buffer =>
      dsimp only
      split
      · simp
      · rename_i e; simp [State.takeCmd_quiet e]
@[simp] theorem execIrqCoalesceTimeout_quiet (n : Fin 96) (s : State) : Quiets s.quiet (execIrqCoalesceTimeout n s) := by
  simp [execIrqCoalesceTimeout]
@[simp] theorem execRingEnable_quiet (n : Fin 96) (v : BitVec 32) (s : State) : Quiets s.quiet (execRingEnable n v s) := by
  simp [execRingEnable]
@[simp] theorem execRingDisable_quiet (n : Fin 96) (s : State) : Quiets s.quiet (execRingDisable n s) := by
  simp [execRingDisable]
@[simp] theorem execBusMasterEnable_quiet (on : Bool) (s : State) : Quiets s.quiet (execBusMasterEnable on s) := by
  simp [execBusMasterEnable]
@[simp] theorem State.hifReset_quiet (s : State) (down : Bool) : (State.hifReset s down).quiet = s.quiet := by
  unfold State.hifReset
  extract_lets h gone go sts gen t
  rw [State.put_quiet, State.wr_quiet]
  rfl
@[simp] theorem State.hostSides_quiet (s : State) : (State.hostSides s).quiet = s.quiet := by
  unfold State.hostSides
  exact foldl_quiet _ _ (fun s q => by split <;> simp) s
@[simp] theorem State.hostReset_quiet (s : State) (param : Nat) : (State.hostReset s param).quiet = s.quiet := by
  have h : (((s.hifReset (param == 1)).hostSides).raise 0x0122 param).quiet = s.quiet := by simp
  unfold State.hostReset
  dsimp only
  (repeat' split) <;> simp [h]
@[simp] theorem execFunctionLevelReset_quiet (s : State) : Quiets s.quiet (execFunctionLevelReset s) := by
  simp [execFunctionLevelReset]
@[simp] theorem execLinkDown_quiet (s : State) : Quiets s.quiet (execLinkDown s) := by
  simp [execLinkDown]
@[simp] theorem execPcieLinkUp_quiet (speed width : Fin 4) (s : State) : Quiets s.quiet (execPcieLinkUp speed width s) := by
  simp [execPcieLinkUp]
@[simp] theorem State.report_quiet (s : State) (c : AdminCmd) (bytes : List Byte) : (State.report s c bytes).quiet = s.quiet := by
  simp [State.report]
@[simp] theorem execNopCommand_quiet (s : State) : Quiets s.quiet (execNopCommand s) := by
  unfold execNopCommand
  refine State.runAccepted_quiet _ _ _ (fun c s => ?_)
  (repeat' split) <;> simp
@[simp] theorem execQuery_quiet (s : State) : Quiets s.quiet (execQuery s) := by
  unfold execQuery
  refine State.runAccepted_quiet _ _ _ (fun c s => ?_)
  (repeat' split) <;> simp
@[simp] theorem execLoadFull_quiet (list : List Byte) (s : State) : Quiets s.quiet (execLoadFull list s) := by
  unfold execLoadFull
  refine State.runAccepted_quiet _ _ _ (fun c s => ?_)
  dsimp only
  (repeat' split) <;> simp
@[simp] theorem State.tableEntry_quiet (a : State × Nat × Nat) (e : Nat × Word) : (State.tableEntry a e).1.quiet = a.1.quiet := by
  unfold State.tableEntry
  dsimp only
  split <;> simp
@[simp] theorem State.tableEntries_quiet (l : List (Nat × Word)) (a : State × Nat × Nat) : (l.foldl State.tableEntry a).1.quiet = a.1.quiet := by
  induction l generalizing a with
  | nil => rfl
  | cons e l ih => rw [List.foldl_cons, ih, State.tableEntry_quiet]
@[simp] theorem execCadTableWrite_quiet (data : List Byte) (s : State) : Quiets s.quiet (execCadTableWrite data s) := by
  unfold execCadTableWrite
  refine State.runAccepted_quiet _ _ _ (fun c s => ?_) _
  simp
@[simp] theorem execCadSourceSwitch_quiet (s : State) : Quiets s.quiet (execCadSourceSwitch s) := by
  unfold execCadSourceSwitch
  refine State.runAccepted_quiet _ _ _ (fun c s => ?_)
  dsimp only
  (repeat' split) <;> simp
@[simp] theorem execBistRun_quiet (found : List TestFault) (s : State) : Quiets s.quiet (execBistRun found s) := by
  unfold execBistRun
  refine State.runAccepted_quiet _ _ _ (fun c s => ?_)
  dsimp only
  (repeat' split) <;> simp
@[simp] theorem execBistReport_quiet (s : State) : Quiets s.quiet (execBistReport s) := by
  unfold execBistReport
  refine State.runAccepted_quiet _ _ _ (fun c s => ?_)
  (repeat' split) <;> simp
@[simp] theorem State.scrubReport_quiet (s : State) (most : Nat) : (s.scrubReport most).2.quiet = s.quiet := rfl
@[simp] theorem execScrubReport_quiet (s : State) : Quiets s.quiet (execScrubReport s) := by
  unfold execScrubReport
  refine State.runAccepted_quiet _ _ _ (fun c s => ?_)
  dsimp only
  (repeat' split) <;> simp
@[simp] theorem execSpareMap_quiet (s : State) : Quiets s.quiet (execSpareMap s) := by
  unfold execSpareMap
  refine State.runAccepted_quiet _ _ _ (fun c s => ?_)
  (repeat' split) <;> simp
@[simp] theorem State.setSingle_quiet (s : State) : (State.setSingle s).quiet = s.quiet := by
  rfl
@[simp] theorem execModeRequestHold_quiet (s : State) : Quiets s.quiet (execModeRequestHold s) := by
  unfold execModeRequestHold
  refine State.runAccepted_quiet _ _ _ (fun c s => ?_)
  (repeat' split) <;> simp
@[simp] theorem State.abortAll_quiet (s : State) : (State.abortAll s).quiet = s.quiet := by
  simp [State.abortAll]
@[simp] theorem State.switchesDone_quiet (s : State) : (State.switchesDone s).quiet = s.quiet := by
  simp [State.switchesDone]
@[simp] theorem execAdminCommandDone_quiet (s : State) : Quiets s.quiet (execAdminCommandDone s) := by
  unfold execAdminCommandDone
  dsimp only
  (repeat' split) <;> simp
@[simp] theorem execMailboxGo_quiet (op : BitVec 8) (s : State) : Quiets s.quiet (execMailboxGo op s) := by
  simp [execMailboxGo]
@[simp] theorem execAttest_quiet (nonce : List Byte) (s : State) : Quiets s.quiet (execAttest nonce s) := by
  unfold execAttest
  refine State.runAccepted_quiet _ _ _ (fun c s => ?_)
  dsimp only
  (repeat' split) <;> simp
@[simp] theorem State.scanClear_quiet (s : State) : (State.scanClear s).quiet = s.quiet := by
  simp [State.scanClear]
@[simp] theorem execTapInternalTest_quiet (s : State) : Quiets s.quiet (execTapInternalTest s) := by
  simp [execTapInternalTest]
@[simp] theorem execMeterUpdate_quiet (rail : BitVec 16) (s : State) : Quiets s.quiet (execMeterUpdate rail s) := by
  simp [execMeterUpdate]
@[simp] theorem State.testMeter_quiet (s : State) (code : Nat) : (State.testMeter s code).quiet = s.quiet := by
  simp [State.testMeter]
@[simp] theorem State.testNow_quiet (s : State) (pass : Bool) (vs : List Nat) : (State.testNow s pass vs).quiet = s.quiet := by
  simp [State.testNow]
@[simp] theorem State.testLong_quiet (s : State) (t : FieldTest) : (State.testLong s t).quiet = s.quiet := by
  simp [State.testLong]
theorem State.testAdmin_quiet (s : State) (name : Nat) (d : AdminDesc) (run : State → AdminCmd → State) (hr : ∀ s c, (run s c).quiet = s.quiet) :
    (s.testAdmin name d run).quiet = s.quiet := by
  unfold State.testAdmin
  dsimp only
  split <;> simp [hr]
theorem State.testMode_quiet (s : State) (ok : Bool) (f : State → State) (hf : ∀ s, (f s).quiet = s.quiet) :
    (s.testMode ok f).quiet = s.quiet := by
  unfold State.testMode
  split <;> simp [hf]
theorem State.testArg_quiet (s : State) (ok : Bool) (f : State → State) (hf : ∀ s, (f s).quiet = s.quiet) :
    (s.testArg ok f).quiet = s.quiet := by
  unfold State.testArg
  split <;> simp [hf]
@[simp] theorem State.conTest_quiet (s : State) (env : ConEnv) (t : TestCmd) : (s.conTest env t).quiet = s.quiet := by
  unfold State.conTest
  dsimp only
  split
  all_goals first
    | simp; done
    | (apply State.testMode_quiet; intro s; simp; done)
    | (apply State.testArg_quiet; intro s; simp; done)
    | (apply State.testArg_quiet; intro s; split <;> simp; done)
    | (apply State.testArg_quiet; intro s; apply State.testMode_quiet; intro s; simp; done)
    | (apply State.testAdmin_quiet; intro s c; simp; done)
@[simp] theorem execFieldTestEnd_quiet (s : State) : Quiets s.quiet (execFieldTestEnd s) := by
  unfold execFieldTestEnd
  (repeat' split) <;> simp
theorem State.after_quiet (s : State) (o : Out) (h : Quiets s.quiet o) : (s.after o).quiet = s.quiet := by
  unfold State.after
  split
  · exact h _ rfl
  · rfl
@[simp] theorem State.setCon_quiet (s : State) (c : Console) : (State.setCon s c).quiet = s.quiet := by
  rfl
@[simp] theorem State.conErr_quiet (s : State) (code : Nat) : (State.conErr s code).quiet = s.quiet := by
  simp [State.conErr]
@[simp] theorem State.conAdmit_quiet (s : State) (d : AdminDesc) : (State.conAdmit s d).quiet = s.quiet := by
  simp [State.conAdmit]
@[simp] theorem State.conAdmin_quiet (s : State) (op a0 a1 a2 a3 : Nat) : (State.conAdmin s op a0 a1 a2 a3).quiet = s.quiet := by
  simp [State.conAdmin]
@[simp] theorem State.conLoad_quiet (s : State) (golden : Bool) : (State.conLoad s golden).quiet = s.quiet := by
  simp [State.conLoad]
@[simp] theorem State.conAttest_quiet (s : State) (nonce : List Byte) : (State.conAttest s nonce).quiet = s.quiet := by
  simp [State.conAttest]
@[simp] theorem State.conReport_quiet (s : State) (bytes : List Byte) : (State.conReport s bytes).quiet = s.quiet := by
  simp [State.conReport]
@[simp] theorem State.conFuse_quiet (s : State) (line : List Byte) (r : FuseReq) : (State.conFuse s line r).quiet = s.quiet := by
  simp [State.conFuse]
@[simp] theorem State.conBaud_quiet (s : State) (rate : Nat) : (State.conBaud s rate).quiet = s.quiet := by
  unfold State.conBaud
  (repeat' split) <;> simp
@[simp] theorem State.conLane_quiet (s : State) (n : Nat) (restart : Bool) : (State.conLane s n restart).quiet = s.quiet := by
  simp [State.conLane]
@[simp] theorem State.conHold_quiet (s : State) : (State.conHold s).quiet = s.quiet := by
  simp [State.conHold]
@[simp] theorem State.conValid_quiet (s : State) (wrLow : Bool) : (State.conValid s wrLow).quiet = s.quiet := by
  simp [State.conValid]
@[simp] theorem State.conRefuse_quiet (s : State) : (State.conRefuse s).quiet = s.quiet := by
  simp [State.conRefuse]
@[simp] theorem State.conCancel_quiet (s : State) : (State.conCancel s).quiet = s.quiet := by
  simp [State.conCancel]
@[simp] theorem State.conBad_quiet (s : State) (wrLow : Bool) (code : Nat) : (State.conBad s wrLow code).quiet = s.quiet := by
  simp [State.conBad]
@[simp] theorem State.conEcho_quiet (s : State) (line : List Byte) : (State.conEcho s line).quiet = s.quiet := by
  simp [State.conEcho]
@[simp] theorem execConsolePinDetect_quiet (onTx : Bool) (s : State) : Quiets s.quiet (execConsolePinDetect onTx s) := by
  simp [execConsolePinDetect]
@[simp] theorem State.baudBack_quiet (s : State) : (State.baudBack s).quiet = s.quiet := by
  simp [State.baudBack]
@[simp] theorem execConsoleBreak_quiet (s : State) : Quiets s.quiet (execConsoleBreak s) := by
  simp [execConsoleBreak]
@[simp] theorem execBaudRevert_quiet (s : State) : Quiets s.quiet (execBaudRevert s) := by
  simp [execBaudRevert]
@[simp] theorem execConsoleStopOutput_quiet (s : State) : Quiets s.quiet (execConsoleStopOutput s) := by
  simp [execConsoleStopOutput]
@[simp] theorem execConfirmTimeout_quiet (s : State) : Quiets s.quiet (execConfirmTimeout s) := by
  simp [execConfirmTimeout]





end Sys2Proof.Machine
end

