-- ==== Sys2Proof/Laws/Lasts.lean ====
section
/-! SUPPORT. What every operation and command keeps: the waiting commands, the size and canonical form of the settings memory, the identity of
the device, every blown fuse, and a usable key. One lemma per definition that may change a fuse or the settings memory. -/

set_option linter.all false

namespace Sys2Proof.Machine

/-- From p to q only what may change has changed. -/
def Lasts (p q : Quiet) : Prop :=
  q.pending = p.pending ∧ q.norSize = p.norSize ∧ p.fuses.grows q.fuses ∧ (p.fuses.usable → q.fuses.usable) ∧
    (SMap.wf (fun _ => (0xFF : Byte)) p.nor = true → SMap.wf (fun _ => (0xFF : Byte)) q.nor = true)

/-- An outcome after which only what may change has changed. -/
def Keeps (p : Quiet) (o : Out) : Prop := ∀ t, o = .next t → Lasts p t.quiet

theorem Fuses.grows_refl (f : Fuses) : f.grows f := ⟨rfl, rfl, by simp, by simp, by simp, id, id⟩

theorem BitVec.and_not_trans {n : Nat} {a b c : BitVec n} (h : a &&& ~~~ b = 0) (k : b &&& ~~~ c = 0) : a &&& ~~~ c = 0 := by
  apply BitVec.eq_of_getLsbD_eq
  intro i hi
  have h1 := congrArg (fun x => x.getLsbD i) h
  have k1 := congrArg (fun x => x.getLsbD i) k
  simp only [BitVec.getLsbD_and, BitVec.getLsbD_not, hi, decide_true, Bool.true_and] at h1 k1 ⊢
  revert h1 k1
  cases a.getLsbD i <;> cases b.getLsbD i <;> cases c.getLsbD i <;> simp

theorem Fuses.grows_trans {f g h : Fuses} (a : f.grows g) (b : g.grows h) : f.grows h := by
  obtain ⟨a1, a2, a3, a4, a5, a6, a7⟩ := a
  obtain ⟨b1, b2, b3, b4, b5, b6, b7⟩ := b
  exact ⟨b1.trans a1, b2.trans a2, BitVec.and_not_trans a3 b3, BitVec.and_not_trans a4 b4, BitVec.and_not_trans a5 b5, b6 ∘ a6, b7 ∘ a7⟩

@[simp] theorem Lasts.refl (p : Quiet) : Lasts p p := ⟨rfl, rfl, p.fuses.grows_refl, id, id⟩

theorem Lasts.trans {p q r : Quiet} (a : Lasts p q) (b : Lasts q r) : Lasts p r :=
  ⟨b.1.trans a.1, b.2.1.trans a.2.1, Fuses.grows_trans a.2.2.1 b.2.2.1, b.2.2.2.1 ∘ a.2.2.2.1, b.2.2.2.2 ∘ a.2.2.2.2⟩

@[simp] theorem lasts_ite (p : Quiet) (c : Prop) [Decidable c] (a b : Quiet) : Lasts p (if c then a else b) ↔ (c → Lasts p a) ∧ (¬ c → Lasts p b) := by
  split <;> simp [*]

theorem lasts_ite' (p : Quiet) (c : Prop) [Decidable c] (a b : State) : Lasts p (if c then a else b).quiet ↔ (c → Lasts p a.quiet) ∧ (¬ c → Lasts p b.quiet) := by
  split <;> simp [*]

@[simp] theorem keeps_next (p : Quiet) (s : State) : Keeps p (.next s) ↔ Lasts p s.quiet := by
  constructor
  · intro h; exact h s rfl
  · intro h t e; cases e; exact h

@[simp] theorem keeps_ite (p : Quiet) (c : Prop) [Decidable c] (a b : Out) : Keeps p (if c then a else b) ↔ (c → Keeps p a) ∧ (¬ c → Keeps p b) := by
  split <;> simp [*]

/-- What leaves everything alone keeps it. -/
theorem Quiets.keeps {s : State} {o : Out} (h : Quiets s.quiet o) : Keeps s.quiet o := fun t e => by rw [h t e]; exact Lasts.refl _

theorem foldl_lasts {α : Type} (p : Quiet) (f : State → α → State) (hf : ∀ s a, Lasts s.quiet (f s a).quiet) (l : List α) (s : State)
    (h : Lasts p s.quiet) : Lasts p (l.foldl f s).quiet := by
  induction l generalizing s with
  | nil => exact h
  | cons a l ih => exact ih _ (h.trans (hf s a))

/-- A step from a state that has lasted. -/
theorem Lasts.of {p : Quiet} {s t : State} (h : Lasts p s.quiet) (k : Lasts s.quiet t.quiet) : Lasts p t.quiet := h.trans k

/-! ## The settings memory -/

@[simp] theorem State.bar_lasts (p : Quiet) (s : State) (off : Nat) (w : Option Word) (t : State) (h : Lasts p s.quiet) (k : Lasts p t.quiet) :
    Lasts p (s.bar off w t).quiet := by
  unfold State.bar
  dsimp only
  (repeat' split) <;> simp [h, k]

theorem State.norWrite_lasts' (l : List Byte) : ∀ (s : State) (a : Nat), Lasts s.quiet (s.norWrite a l).quiet := by
  induction l with
  | nil => intro s a; exact Lasts.refl _
  | cons b l ih =>
    intro s a
    refine Lasts.trans ?_ (ih _ _)
    exact ⟨rfl, rfl, Fuses.grows_refl _, id, fun h => SMap.wf_set _ _ _ _ h⟩

@[simp] theorem State.norWrite_lasts (p : Quiet) (s : State) (a : Nat) (l : List Byte) (h : Lasts p s.quiet) : Lasts p (s.norWrite a l).quiet :=
  h.of (State.norWrite_lasts' l s a)

@[simp] theorem State.norErase_lasts (p : Quiet) (s : State) (a n : Nat) (h : Lasts p s.quiet) : Lasts p (s.norErase a n).quiet :=
  h.of ⟨rfl, rfl, Fuses.grows_refl _, id, fun h => SMap.wf_keep _ s.nor (fun k => decide (k < a) || decide (a + n ≤ k)) h⟩

@[simp] theorem State.dirWrite_lasts (p : Quiet) (s : State) (es : List DirEntry) (ok : Bool) (h : Lasts p s.quiet) :
    Lasts p (s.dirWrite es ok).quiet := by
  unfold State.dirWrite
  dsimp only
  rw [State.dirSingle_quiet]
  split <;> simp [h]

theorem State.mapWrite_lasts {s t : State} (e : s.mapWrite = some t) : Lasts s.quiet t.quiet := by
  unfold State.mapWrite at e
  split at e
  · cases e
  · simp only [Option.some.injEq] at e
    rw [← e]
    simp

@[simp] theorem State.mapErase_lasts (p : Quiet) (s : State) (b : Nat) (h : Lasts p s.quiet) : Lasts p (s.mapErase b).quiet := by
  unfold State.mapErase
  simp [h]

@[simp] theorem State.settingsStore_lasts (p : Quiet) (s : State) (b : Nat) (l : List Byte) (ok : Bool) (h : Lasts p s.quiet) :
    Lasts p (s.settingsStore b l ok).quiet := by
  unfold State.settingsStore
  simp [h]

@[simp] theorem State.rawStore_lasts (p : Quiet) (s : State) (a : Nat) (l : List Byte) (ok : Bool) (h : Lasts p s.quiet) :
    Lasts p (s.rawStore a l ok).quiet := by
  unfold State.rawStore
  simp [h]

/-! ## Fuses -/

@[simp] theorem State.fuseSet_lasts (p : Quiet) (s : State) (f : Fuses) (h : Lasts p s.quiet) (g : s.fuses.grows f) (u : s.fuses.usable → f.usable) :
    Lasts p (s.fuseSet f).quiet := by
  refine h.of ?_
  unfold State.fuseSet
  rw [State.fuseShow_quiet]
  exact ⟨rfl, rfl, g, u, id⟩

theorem BitVec.and_not_or (n : Nat) (a b : BitVec n) : a &&& ~~~ (a ||| b) = 0 := by
  apply BitVec.eq_of_getLsbD_eq
  intro i hi
  simp only [BitVec.getLsbD_and, BitVec.getLsbD_not, BitVec.getLsbD_or, hi, decide_true, Bool.true_and]
  cases a.getLsbD i <;> simp

theorem State.revokeSlots_lasts (s : State) (m : BitVec 4) (h : s.fuses.hashProg &&& ~~~ (s.fuses.revoked ||| m) ≠ 0) :
    Lasts s.quiet (s.revokeSlots m).quiet := by
  unfold State.revokeSlots
  simp only [State.put_quiet]
  exact ⟨rfl, rfl, ⟨rfl, rfl, (Fuses.grows_refl s.fuses).2.2.1, BitVec.and_not_or 4 _ _, (Fuses.grows_refl s.fuses).2.2.2.2.1, id, id⟩,
    fun _ => Or.inr h, id⟩

@[simp] theorem State.revokePair_lasts (p : Quiet) (s : State) (m : BitVec 4) (h : Lasts p s.quiet) : Lasts p (s.revokePair m).quiet := by
  unfold State.revokePair
  split
  · simpa using h
  · rename_i c
    exact h.of (State.revokeSlots_lasts s m c)

/-! ## Registers -/

@[simp] theorem State.revokeWrite_lasts (p : Quiet) (s : State) (v : Word) (h : Lasts p s.quiet) : Lasts p (s.revokeWrite v).quiet := by
  unfold State.revokeWrite
  simp [h]

@[simp] theorem State.ldrWrite_lasts (p : Quiet) (s : State) (off : Nat) (v : Word) (h : Lasts p s.quiet) : Lasts p (s.ldrWrite off v).quiet := by
  unfold State.ldrWrite
  simp [h]

@[simp] theorem State.regWrite_lasts (p : Quiet) (s : State) (off : Nat) (v : Word) (h : Lasts p s.quiet) : Lasts p (s.regWrite off v).quiet := by
  unfold State.regWrite
  simp [h]

@[simp] theorem State.accessDo_lasts (p : Quiet) (s : State) (a : Access) (h : Lasts p s.quiet) : Lasts p (s.accessDo a).quiet := by
  unfold State.accessDo
  split <;> simp [h]

@[simp] theorem State.access_lasts (p : Quiet) (s : State) (a : Access) (h : Lasts p s.quiet) : Lasts p (s.access a).quiet := by
  unfold State.access
  split
  · exact h
  · split
    · simp [h]
    · dsimp only
      split
      · rw [foldl_quiet _ _ (fun s d => by simp)]; simp [h]
      · simp [h]

@[simp] theorem State.applyList_lasts (p : Quiet) (s : State) (l : List (Nat × Word)) (q : Nat → Bool) (h : Lasts p s.quiet) :
    Lasts p (s.applyList l q).quiet :=
  foldl_lasts p _ (fun s e => by simp) _ s h

/-! ## Start and reset -/

@[simp] theorem State.superviseSettings_lasts (p : Quiet) (s : State) (h : Lasts p s.quiet) : Lasts p s.superviseSettings.quiet := by
  unfold State.superviseSettings
  dsimp only
  rw [foldl_quiet _ _ (fun s a => State.portReady_quiet _ _), State.capUpdate_quiet]
  exact State.applyList_lasts _ _ _ _ (State.applyList_lasts _ _ _ _ (State.applyList_lasts _ _ _ _ h))

@[simp] theorem State.supervise_lasts (p : Quiet) (s : State) (c g : Bool) (h : Lasts p s.quiet) : Lasts p (s.supervise c g).quiet := by
  unfold State.supervise
  simp [h]

@[simp] theorem State.warmReset_lasts (p : Quiet) (s : State) (c : Nat) (h : Lasts p s.quiet) : Lasts p (s.warmReset c).quiet := by
  unfold State.warmReset
  simp [h]

/-! ## Loads -/

@[simp] theorem State.storeBegin_lasts (p : Quiet) (s : State) (l : Load) (v : ManView) (h : Lasts p s.quiet) : Lasts p (s.storeBegin l v).1.quiet := by
  unfold State.storeBegin
  split
  · exact h
  · split
    · exact h
    · exact State.norWrite_lasts _ _ _ _ (State.norErase_lasts _ _ _ _ h)

@[simp] theorem State.storeChunk_lasts (p : Quiet) (s : State) (l : Load) (a b : List Byte) (h : Lasts p s.quiet) :
    Lasts p (s.storeChunk l a b).1.quiet := by
  unfold State.storeChunk
  split
  · exact h
  · dsimp only; split <;> simp [h]

@[simp] theorem State.storeEnd_lasts (p : Quiet) (s : State) (l : Load) (h : Lasts p s.quiet) : Lasts p (s.storeEnd l).quiet := by
  unfold State.storeEnd
  simp [h]

@[simp] theorem State.lockPhase_lasts (p : Quiet) (s : State) (l : List Section) (h : Lasts p s.quiet) : Lasts p (s.lockPhase l).quiet := by
  unfold State.lockPhase
  simp [h]

@[simp] theorem State.outPhase_lasts (p : Quiet) (s : State) (l : List Section) (h : Lasts p s.quiet) : Lasts p (s.outPhase l).quiet := by
  unfold State.outPhase
  dsimp only
  rw [foldl_quiet _ _ (fun s c => State.setAdc_quiet s _ _), foldl_quiet _ _ (fun s u => State.unitGo_quiet s u)]
  refine State.applyList_lasts _ _ _ _ (State.applyList_lasts _ _ _ _ ?_)
  rw [State.pinsConfigure_quiet]
  exact State.applyList_lasts _ _ _ _ h

@[simp] theorem State.faultSettings_lasts (p : Quiet) (s : State) (l : List Section) (h : Lasts p s.quiet) : Lasts p (s.faultSettings l).quiet :=
  foldl_lasts p _ (fun s e => by (repeat' split) <;> simp) _ (s.setFlt { s.flt with held := l }) h

@[simp] theorem State.gsrPhase_lasts (p : Quiet) (s : State) (l : Load) (h : Lasts p s.quiet) : Lasts p (s.gsrPhase l).quiet := by
  unfold State.gsrPhase
  simp [h]

theorem State.phases_lasts' (k : Nat) : ∀ (s : State) (l : Load), Lasts s.quiet (State.phases k s l).quiet := by
  induction k with
  | zero => intro s l; unfold State.phases; simp
  | succ k ih =>
    intro s l
    unfold State.phases
    split
    · simp
    · dsimp only
      split
      · simp
      · split
        · refine Lasts.of ?_ (ih _ _)
          simp
        · simp

@[simp] theorem State.phases_lasts (p : Quiet) (k : Nat) (s : State) (l : Load) (h : Lasts p s.quiet) : Lasts p (State.phases k s l).quiet :=
  h.of (State.phases_lasts' k s l)

@[simp] theorem State.lockEnd_lasts (p : Quiet) (s : State) (l : Load) (h : Lasts p s.quiet) : Lasts p (s.lockEnd l).quiet := by
  unfold State.lockEnd
  simp [h]

@[simp] theorem State.streamDone_lasts (p : Quiet) (s : State) (l : Load) (h : Lasts p s.quiet) : Lasts p (s.streamDone l).quiet := by
  unfold State.streamDone
  simp [h]

@[simp] theorem State.chunkGood_lasts (p : Quiet) (s : State) (l : Load) (raw body : List Byte) (h : Lasts p s.quiet) :
    Lasts p (s.chunkGood l raw body).quiet := by
  unfold State.chunkGood
  extract_lets i isLast recs a l1 _ s1 bs r _ l2 s2 c
  have ha : Lasts p a.1.quiet := by
    simp only [a]
    split <;> simp [h]
  have h1 : Lasts p s1.quiet := by
    simp only [s1]
    split <;> simp [ha]
  have hr : Lasts p r.1.quiet := by simp [r, h1]
  have h2 : Lasts p s2.quiet := by
    simp only [s2]
    split <;> simp [hr]
  (repeat' split) <;> simp [hr, h2]

@[simp] theorem State.regionOutPhase_lasts (p : Quiet) (s : State) (live : List Nat) (l : List Section) (h : Lasts p s.quiet) :
    Lasts p (s.regionOutPhase live l).quiet := by
  unfold State.regionOutPhase
  simp [h]

@[simp] theorem State.regionPhase_lasts (p : Quiet) (s : State) (a : Activation) (c : Nat) (h : Lasts p s.quiet) :
    Lasts p (s.regionPhase a c).quiet := by
  unfold State.regionPhase
  dsimp only
  split <;> simp [h]

/-! ## Console -/

theorem Fuses.usable_hash {f : Fuses} (b : BitVec 4) (hs : SMap (List Byte)) (u : f.usable) :
    ({ f with hashProg := f.hashProg ||| b, hashes := hs } : Fuses).usable := by
  unfold Fuses.usable at u ⊢
  rcases u with ⟨a, c⟩ | c
  · by_cases hb : b = 0
    · exact Or.inl ⟨by simp [a, hb], c⟩
    · refine Or.inr fun e => hb ?_
      have z : (0 : BitVec 4) ||| b = b := by simp
      have o : ~~~ (0 : BitVec 4) = BitVec.allOnes 4 := rfl
      have e : (f.hashProg ||| b) &&& ~~~ f.revoked = 0 := e
      rwa [a, c, z, o, BitVec.and_allOnes] at e
  · refine Or.inr fun e => c ?_
    apply BitVec.eq_of_getLsbD_eq
    intro i hi
    have h1 := congrArg (fun x => x.getLsbD i) e
    simp only [BitVec.getLsbD_and, BitVec.getLsbD_not, BitVec.getLsbD_or, hi, decide_true, Bool.true_and] at h1 ⊢
    revert h1
    cases f.hashProg.getLsbD i <;> cases f.revoked.getLsbD i <;> simp

@[simp] theorem State.fuseDo_lasts (p : Quiet) (s : State) (r : FuseReq) (b : Option (List Byte)) (h : Lasts p s.quiet) :
    Lasts p (s.fuseDo r b).quiet := by
  have close (t : State) (g : Bool) (h : Lasts p t.quiet) : Lasts p (if g then t.print [.ok] else t.conErr 8).quiet := by
    split <;> simp [h]
  unfold State.fuseDo
  split
  · simp [h]
  · cases r with
    | hash k v =>
      dsimp only
      split
      · simp [h]
      · split
        · simp [h]
        · refine close _ _ ?_
          rw [State.raise_quiet]
          exact State.fuseSet_lasts p s _ h ⟨rfl, rfl, BitVec.and_not_or 4 _ _, by simp, by simp, id, id⟩ (Fuses.usable_hash _ _)
    | key k v =>
      dsimp only
      split
      · simp [h]
      · split
        · simp [h]
        · refine close _ _ ?_
          rw [State.raise_quiet]
          exact State.fuseSet_lasts p s _ h ⟨rfl, rfl, by simp, by simp, BitVec.and_not_or 2 _ _, id, id⟩ id
    | enc =>
      dsimp only
      split
      · simp [h]
      · split
        · simp [h]
        · refine close _ _ ?_
          rw [State.raise_quiet]
          exact State.fuseSet_lasts p s _ h ⟨rfl, rfl, by simp, by simp, by simp, fun _ => rfl, id⟩ id
    | revoke m =>
      dsimp only
      (repeat' split) <;> first | simp [h]; done | (refine close _ _ ?_; simp [h])
    | close =>
      dsimp only
      split
      · simp [h]
      · split
        · simp [h]
        · refine close _ _ ?_
          rw [State.raiseFree_quiet]
          exact State.fuseSet_lasts p s _ h ⟨rfl, rfl, by simp, by simp, by simp, id, fun _ => rfl⟩ id

@[simp] theorem State.conConfirm_lasts (p : Quiet) (s : State) (v : Nat) (b : Option (List Byte)) (h : Lasts p s.quiet) :
    Lasts p (s.conConfirm v b).quiet := by
  unfold State.conConfirm
  split <;> simp [h]

@[simp] theorem State.conAccess_lasts (p : Quiet) (s : State) (off : Nat) (w : Option Word) (h : Lasts p s.quiet) :
    Lasts p (s.conAccess off w).quiet := by
  unfold State.conAccess
  simp [h]

@[simp] theorem State.conRestart_lasts (p : Quiet) (s : State) (h : Lasts p s.quiet) : Lasts p s.conRestart.quiet := by
  unfold State.conRestart
  simp [h]

theorem State.conDo_lasts' (s : State) (env : ConEnv) (line : List Byte) (c : ConCmd) : Lasts s.quiet (s.conDo env line c).quiet := by
  unfold State.conDo
  split
  all_goals first
    | simp; done
    | (split <;> simp; done)
    | (refine (lasts_ite' _ _ _ _).2 ⟨fun _ => ?_, fun _ => ?_⟩
       · simp
       · first
         | rw [State.after_quiet _ _ (execLoadPartial_quiet _ _)]; simp
         | rw [State.after_quiet _ _ (execIsolateRegion_quiet _)]; simp
         | rw [State.after_quiet _ _ (execActivateRegion_quiet _)]; simp
         | (dsimp only
            (repeat' split) <;>
              first
              | (simp; done)
              | (rw [State.after_quiet _ _ (execLoadPartial_quiet _ _)]; simp)
              | (rw [State.after_quiet _ _ (execIsolateRegion_quiet _)]; simp)
              | (rw [State.after_quiet _ _ (execActivateRegion_quiet _)]; simp)))

@[simp] theorem State.conDo_lasts (p : Quiet) (s : State) (env : ConEnv) (line : List Byte) (c : ConCmd) (h : Lasts p s.quiet) :
    Lasts p (s.conDo env line c).quiet := h.of (State.conDo_lasts' s env line c)

@[simp] theorem State.conRun_lasts (p : Quiet) (s : State) (env : ConEnv) (line : List Byte) (c : ConCmd) (h : Lasts p s.quiet) :
    Lasts p (s.conRun env line c).quiet := by
  unfold State.conRun
  split
  · exact h
  · dsimp only
    split <;> simp [h]

@[simp] theorem State.conLine_lasts (p : Quiet) (s : State) (env : ConEnv) (line : List Byte) (h : Lasts p s.quiet) :
    Lasts p (s.conLine env line).quiet := by
  unfold State.conLine
  split
  · exact h
  · dsimp only
    split <;> simp [h]

@[simp] theorem State.fuseLine_lasts (p : Quiet) (s : State) (line : List Byte) (w : Bool) (q : FuseReq → Bool) (h : Lasts p s.quiet) :
    Lasts p (s.fuseLine line w q).quiet := by
  unfold State.fuseLine
  split <;> simp [h]

end Sys2Proof.Machine
end

