-- ==== Sys2Proof/Laws/LastsExec.lean ====
section
/-! SUPPORT. The commands that may change a fuse or the settings memory, each with what it keeps. -/

set_option linter.all false

namespace Sys2Proof.Machine

theorem State.runAccepted_lasts (s : State) (p : AdminDesc → Bool) (f : AdminCmd → State → State) (hf : ∀ c u, Lasts u.quiet (f c u).quiet)
    (bad : Bool := false) : Keeps s.quiet (s.runAccepted p f bad) := by
  unfold State.runAccepted
  split
  · simp
  · rename_i c t e
    split at e
    · cases e
    · have h := State.takeCmd_quiet e
      split
      · simp [h]
      · split
        · simp [h]
        · rw [keeps_next, ← h]; exact hf c t

theorem execClockReturned_lasts (d : Fin 71) (s : State) : Keeps s.quiet (execClockReturned d s) := by
  unfold execClockReturned
  split
  · simp
  · dsimp only
    rw [keeps_next]
    exact foldl_lasts _ _ (fun s a => by simp) _ _ (by simp)

theorem execMgmtRead_lasts (s : State) : Keeps s.quiet (execMgmtRead s) := by
  unfold execMgmtRead
  split
  · simp
  · rename_i e
    simp [State.takeMgmt_quiet e]

theorem execMgmtWrite_lasts (s : State) : Keeps s.quiet (execMgmtWrite s) := by
  unfold execMgmtWrite
  split
  · simp
  · rename_i e
    simp [State.takeMgmt_quiet e]

theorem execSsiPosRead_lasts (p : Path) (k : Fin 2) (s : State) : Keeps s.quiet (execSsiPosRead p k s) := by
  unfold execSsiPosRead
  simp

theorem execTrackAngleRead_lasts (p : Path) (t : Fin 8) (s : State) : Keeps s.quiet (execTrackAngleRead p t s) := by
  unfold execTrackAngleRead
  simp

theorem execLoReadCapture_lasts (p : Path) (i : Fin 57) (s : State) : Keeps s.quiet (execLoReadCapture p i s) := by
  unfold execLoReadCapture
  simp

theorem execCounterClear_lasts (p : Path) (off : BitVec 24) (s : State) : Keeps s.quiet (execCounterClear p off s) := by
  unfold execCounterClear
  (repeat' split) <;> simp

theorem execRegisterWrite_lasts (p : Path) (off : BitVec 24) (v : BitVec 32) (s : State) : Keeps s.quiet (execRegisterWrite p off v s) := by
  unfold execRegisterWrite
  simp

theorem execSecRevokeSecond_lasts (mask : BitVec 4) (s : State) : Keeps s.quiet (execSecRevokeSecond mask s) := by
  unfold execSecRevokeSecond
  simp

theorem State.poweredUp_lasts (q : Quiet) (s : State) (p : PowerUp) (h : s.quiet = q) : Lasts q (s.poweredUp p).quiet := by
  rw [State.poweredUp_quiet, ← h]
  exact ⟨rfl, rfl, Fuses.grows_refl s.fuses, id, id⟩

theorem execVinStart_lasts (p : PowerUp) (s : State) : Keeps s.quiet (execVinStart p s) := by
  have h : Lasts s.quiet ((s.toCold.poweredUp p).strapsTaken p).quiet :=
    (State.strapsTaken_quiet _ p).symm ▸ State.poweredUp_lasts _ _ p (State.toCold_quiet s)
  unfold execVinStart
  split
  · exact (keeps_next _ _).mpr (Lasts.refl _)
  · exact (keeps_next _ _).mpr (State.supervise_lasts _ _ _ _ h)

theorem execAutoRestart_lasts (s : State) (vin : BitVec 16) : Keeps s.quiet (execAutoRestart s vin) := by
  unfold execAutoRestart
  simp

theorem execStartupSelftestDone_lasts (found : List TestFault) (wrOk : Bool) (s : State) : Keeps s.quiet (execStartupSelftestDone found wrOk s) := by
  unfold execStartupSelftestDone
  split
  · simp
  · split
    · simp
    · extract_lets mapOk s1 live r out ess wrote fail s2 s3 l
      have h1 : s1.quiet = s.quiet := foldl_quiet _ _ (fun s a => by simp) s
      have hr : r.1.quiet = s.quiet := by simp [r, h1]
      have h2 : s2.quiet = s.quiet := (foldl_quiet _ _ (fun s a => by simp) _).trans hr
      have h3 : Lasts s.quiet s3.quiet := by
        simp only [s3]
        split
        · rw [h2]; exact Lasts.refl _
        · split
          · rename_i e
            have := State.mapWrite_lasts e
            rw [h2] at this
            simpa using this
          · rw [h2]; exact Lasts.refl _
      split
      · simp [hr]
      · simp [h3]

theorem execManifestVerified_lasts (host : Option (List Byte)) (s : State) : Keeps s.quiet (execManifestVerified host s) := by
  unfold execManifestVerified
  dsimp only
  (repeat' split) <;> simp

theorem execLockPhaseComplete_lasts (s : State) : Keeps s.quiet (execLockPhaseComplete s) := by
  unfold execLockPhaseComplete
  (repeat' split) <;> simp

theorem execLockTimeout_lasts (s : State) : Keeps s.quiet (execLockTimeout s) := by
  unfold execLockTimeout
  (repeat' split) <;> simp

theorem execPhaseWaitExpiry_lasts (s : State) : Keeps s.quiet (execPhaseWaitExpiry s) := by
  unfold execPhaseWaitExpiry
  (repeat' split) <;> simp

theorem execChunkReceived_lasts (read : Option (List Byte)) (s : State) : Keeps s.quiet (execChunkReceived read s) := by
  unfold execChunkReceived
  dsimp only
  (repeat' split) <;> simp

theorem execRegionPhaseAdvance_lasts (set : BitVec 16) (late : Bool) (s : State) : Keeps s.quiet (execRegionPhaseAdvance set late s) := by
  unfold execRegionPhaseAdvance
  dsimp only
  (repeat' split) <;> simp

theorem execRepairMapWrite_lasts (ok : Bool) (s : State) : Keeps s.quiet (execRepairMapWrite ok s) := by
  unfold execRepairMapWrite
  split
  · simp
  · split
    · rename_i e
      split at e
      · simpa using State.mapWrite_lasts e
      · cases e
    · simp

theorem execSpareMapReset_lasts (ok : Bool) (s : State) : Keeps s.quiet (execSpareMapReset ok s) := by
  unfold execSpareMapReset
  refine State.runAccepted_lasts _ _ _ (fun c s => ?_)
  (repeat' split) <;> simp

theorem execSettingsWrite_lasts (data : List Byte) (ok : Bool) (s : State) : Keeps s.quiet (execSettingsWrite data ok s) := by
  unfold execSettingsWrite
  refine State.runAccepted_lasts _ _ _ (fun c s => ?_)
  dsimp only
  (repeat' split) <;> simp

theorem execModeRequestRestart_lasts (s : State) : Keeps s.quiet (execModeRequestRestart s) := by
  unfold execModeRequestRestart
  refine State.runAccepted_lasts _ _ _ (fun c s => ?_)
  (repeat' split) <;> simp

theorem execConsoleLine_lasts (line : List Byte) (env : ConEnv) (s : State) : Keeps s.quiet (execConsoleLine line env s) := by
  unfold execConsoleLine
  simp

theorem execHelp_lasts (w : Bool) (s : State) : Keeps s.quiet (execHelp w s) := by
  unfold execHelp
  simp

theorem execStatus_lasts (w : Bool) (s : State) : Keeps s.quiet (execStatus w s) := by
  unfold execStatus
  simp

theorem execLog_lasts (n : Nat) (w : Bool) (s : State) : Keeps s.quiet (execLog n w s) := by
  unfold execLog
  simp

theorem execSpare_lasts (w : Bool) (s : State) : Keeps s.quiet (execSpare w s) := by
  unfold execSpare
  simp

theorem execReport_lasts (kind : RepKind) (w : Bool) (s : State) : Keeps s.quiet (execReport kind w s) := by
  unfold execReport
  simp

theorem execLane_lasts (n : Nat) (restart : Bool) (w : Bool) (s : State) : Keeps s.quiet (execLane n restart w s) := by
  unfold execLane
  simp

theorem execPin_lasts (p : Fin 64) (w : Bool) (s : State) : Keeps s.quiet (execPin p w s) := by
  unfold execPin
  simp

theorem execMeter_lasts (src : BitVec 4) (i : Nat) (w : Bool) (s : State) : Keeps s.quiet (execMeter src i w s) := by
  unfold execMeter
  simp

theorem execRd_lasts (off : Nat) (w : Bool) (s : State) : Keeps s.quiet (execRd off w s) := by
  unfold execRd
  simp

theorem execWr_lasts (off v : Nat) (w : Bool) (s : State) : Keeps s.quiet (execWr off v w s) := by
  unfold execWr
  simp

theorem execAdmin_lasts (op a0 a1 a2 a3 : Nat) (w : Bool) (s : State) : Keeps s.quiet (execAdmin op a0 a1 a2 a3 w s) := by
  unfold execAdmin
  simp

theorem execConsoleLoad_lasts (golden w : Bool) (s : State) : Keeps s.quiet (execConsoleLoad golden w s) := by
  unfold execConsoleLoad
  simp

theorem execConsoleLoadPartial_lasts (set entry : Nat) (act w : Bool) (s : State) : Keeps s.quiet (execConsoleLoadPartial set entry act w s) := by
  unfold execConsoleLoadPartial
  simp

theorem execConsoleIsolateRegion_lasts (set : Nat) (w : Bool) (s : State) : Keeps s.quiet (execConsoleIsolateRegion set w s) := by
  unfold execConsoleIsolateRegion
  simp

theorem execConsoleActivateRegion_lasts (set : Nat) (w : Bool) (s : State) : Keeps s.quiet (execConsoleActivateRegion set w s) := by
  unfold execConsoleActivateRegion
  simp

theorem execHold_lasts (w : Bool) (s : State) : Keeps s.quiet (execHold w s) := by
  unfold execHold
  simp

theorem execRestart_lasts (w : Bool) (s : State) : Keeps s.quiet (execRestart w s) := by
  unfold execRestart
  simp

theorem execConsoleAttest_lasts (nonce : List Byte) (w : Bool) (s : State) : Keeps s.quiet (execConsoleAttest nonce w s) := by
  unfold execConsoleAttest
  simp

theorem execFuseHash_lasts (line : List Byte) (w : Bool) (s : State) : Keeps s.quiet (execFuseHash line w s) := by
  unfold execFuseHash
  simp

theorem execFuseKey_lasts (line : List Byte) (w : Bool) (s : State) : Keeps s.quiet (execFuseKey line w s) := by
  unfold execFuseKey
  simp

theorem execFuseEnc_lasts (line : List Byte) (w : Bool) (s : State) : Keeps s.quiet (execFuseEnc line w s) := by
  unfold execFuseEnc
  simp

theorem execFuseRevoke_lasts (line : List Byte) (w : Bool) (s : State) : Keeps s.quiet (execFuseRevoke line w s) := by
  unfold execFuseRevoke
  simp

theorem execFuseClose_lasts (line : List Byte) (w : Bool) (s : State) : Keeps s.quiet (execFuseClose line w s) := by
  unfold execFuseClose
  simp

theorem execConfirm_lasts (v : BitVec 16) (blown : Option (List Byte)) (w : Bool) (s : State) : Keeps s.quiet (execConfirm v blown w s) := by
  unfold execConfirm
  simp

theorem execBaud_lasts (rate : Nat) (w : Bool) (s : State) : Keeps s.quiet (execBaud rate w s) := by
  unfold execBaud
  simp

theorem execEcho_lasts (on w : Bool) (s : State) : Keeps s.quiet (execEcho on w s) := by
  unfold execEcho
  simp

theorem execEvt_lasts (on w : Bool) (s : State) : Keeps s.quiet (execEvt on w s) := by
  unfold execEvt
  simp

theorem execTestSup_lasts (w : Bool) (s : State) : Keeps s.quiet (execTestSup w s) := by
  unfold execTestSup
  simp

theorem execTestFuse_lasts (w : Bool) (s : State) : Keeps s.quiet (execTestFuse w s) := by
  unfold execTestFuse
  simp

theorem execTestSm_lasts (w : Bool) (s : State) : Keeps s.quiet (execTestSm w s) := by
  unfold execTestSm
  simp

theorem execTestImage_lasts (golden w : Bool) (s : State) : Keeps s.quiet (execTestImage golden w s) := by
  unfold execTestImage
  simp

theorem execTestPll_lasts (w : Bool) (s : State) : Keeps s.quiet (execTestPll w s) := by
  unfold execTestPll
  simp

theorem execTestScrub_lasts (w : Bool) (s : State) : Keeps s.quiet (execTestScrub w s) := by
  unfold execTestScrub
  simp

theorem execTestBist_lasts (w : Bool) (s : State) : Keeps s.quiet (execTestBist w s) := by
  unfold execTestBist
  simp

theorem execTestHard_lasts (set : Nat) (found : List TestFault) (w : Bool) (s : State) : Keeps s.quiet (execTestHard set found w s) := by
  unfold execTestHard
  simp

theorem execTestLs_lasts (k : Nat) (w : Bool) (s : State) : Keeps s.quiet (execTestLs k w s) := by
  unfold execTestLs
  simp

theorem execTestSrc_lasts (n : Nat) (w : Bool) (s : State) : Keeps s.quiet (execTestSrc n w s) := by
  unfold execTestSrc
  simp

theorem execTestOwt_lasts (p : Fin 64) (isOpen w : Bool) (s : State) : Keeps s.quiet (execTestOwt p isOpen w s) := by
  unfold execTestOwt
  simp

theorem execTestPad_lasts (u : Nat) (w : Bool) (s : State) : Keeps s.quiet (execTestPad u w s) := by
  unfold execTestPad
  simp

theorem execTestLane_lasts (n : Nat) (w : Bool) (s : State) : Keeps s.quiet (execTestLane n w s) := by
  unfold execTestLane
  simp

theorem execTestPcie_lasts (w : Bool) (s : State) : Keeps s.quiet (execTestPcie w s) := by
  unfold execTestPcie
  simp

theorem execTestPel_lasts (p : Nat) (w : Bool) (s : State) : Keeps s.quiet (execTestPel p w s) := by
  unfold execTestPel
  simp

theorem execTestSpare_lasts (w : Bool) (s : State) : Keeps s.quiet (execTestSpare w s) := by
  unfold execTestSpare
  simp

end Sys2Proof.Machine
end

