-- ==== Sys2Proof/Laws/Memory.lean ====
section
/-! SUPPORT. The settings memory: writing and erasing keep its canonical form, a write is read back, and other bytes stay. -/

namespace Sys2Proof.Machine

theorem State.norWrite_norWf (l : List Byte) : ∀ (s : State) (a : Nat), s.norWf → (s.norWrite a l).norWf := by
  induction l with
  | nil => exact fun _ _ h => h
  | cons b l ih => exact fun s a h => ih _ _ (SMap.wf_set _ _ _ _ h)

theorem State.norErase_norWf (s : State) (a n : Nat) (h : s.norWf) : (s.norErase a n).norWf :=
  SMap.wf_keep _ s.nor (fun k => decide (k < a) || decide (a + n ≤ k)) h

theorem State.reset_norWf : State.reset.norWf := rfl

theorem State.norWrite_norSize (l : List Byte) : ∀ (s : State) (a : Nat), (s.norWrite a l).norSize = s.norSize := by
  induction l with
  | nil => exact fun _ _ => rfl
  | cons b l ih => exact fun s a => ih _ _

/-- A byte before what was written stays. -/
theorem State.norWrite_before (l : List Byte) : ∀ (s : State) (a o : Nat), o < a → (s.norWrite a l).norByte o = s.norByte o := by
  induction l with
  | nil => exact fun _ _ _ _ => rfl
  | cons b l ih =>
    intro s a o h
    refine (ih _ _ _ (by omega)).trans ?_
    simp only [State.norByte]
    rw [SMap.get_set_ne _ _ _ _ _ (by omega)]

/-- A byte after what was written stays. -/
theorem State.norWrite_after (l : List Byte) : ∀ (s : State) (a o : Nat), a + l.length ≤ o → (s.norWrite a l).norByte o = s.norByte o := by
  induction l with
  | nil => exact fun _ _ _ _ => rfl
  | cons b l ih =>
    intro s a o h
    simp only [List.length_cons] at h
    refine (ih _ _ _ (by omega)).trans ?_
    simp only [State.norByte]
    rw [SMap.get_set_ne _ _ _ _ _ (by omega)]

/-- What was written is read back where the device has the address. -/
theorem State.norWrite_read (l : List Byte) : ∀ (s : State) (a i : Nat) (h : i < l.length), a + i < s.norSize →
    (s.norWrite a l).norByte (a + i) = l[i] := by
  induction l with
  | nil => intro s a i h; simp at h
  | cons b l ih =>
    intro s a i h hs
    cases i with
    | zero =>
      refine (State.norWrite_before l _ (a + 1) a (by omega)).trans ?_
      have : a < s.norSize := by omega
      simp [State.norByte, this]
    | succ i =>
      have k := ih { s with nor := SMap.set (fun _ => 0xFF) s.nor a b } (a + 1) i (by simpa using h) (by simpa using (by omega : a + 1 + i < s.norSize))
      rw [show a + 1 + i = a + (i + 1) by omega] at k
      exact k

end Sys2Proof.Machine
end

