-- ==== Sys2Proof/Laws/Regs.lean ====
section
/-! SUPPORT. The register file: what a write of a register or a field does, said once. -/

namespace Sys2Proof.Machine

/-! ## Whole registers -/

@[simp] theorem State.rd_wr_same (s : State) (off : Nat) (v : Word) : (s.wr off v).rd off = v := by
  simp [State.rd, State.wr]

theorem State.rd_wr_ne (s : State) (off o : Nat) (v : Word) (h : o ≠ off) : (s.wr off v).rd o = s.rd o := by
  simp [State.rd, State.wr, SMap.get_set_ne _ _ _ _ _ h]

theorem State.rd_put_ne (s : State) (f : RF) (v o : Nat) (h : o ≠ f.off) : (s.put f v).rd o = s.rd o := by
  simp [State.put, State.rd_wr_ne _ _ _ _ h]

/-! ## Fields -/

/-- A field lies inside its register. -/
def RF.fits (f : RF) : Prop := f.lo + f.w ≤ 32

theorem RF.ins_getLsbD (f : RF) (r : Word) (v i : Nat) (hi : i < 32) (h : f.fits) :
    (f.ins r v).getLsbD i = if f.lo ≤ i ∧ i < f.lo + f.w then v.testBit (i - f.lo) else r.getLsbD i := by
  have hf : f.lo + f.w ≤ 32 := h
  have m : f.mask.getLsbD i = decide (f.lo ≤ i ∧ i < f.lo + f.w) := by
    simp only [RF.mask, BitVec.getLsbD_ofNat, hi, decide_true, Bool.true_and, Nat.testBit_shiftLeft, Nat.testBit_two_pow_sub_one]
    by_cases a : f.lo ≤ i
    · by_cases b : i < f.lo + f.w
      · have : i - f.lo < f.w := by omega
        simp [a, b, this]
      · have : ¬ i - f.lo < f.w := by omega
        simp [a, b, this]
    · simp [a]
  simp only [RF.ins, BitVec.getLsbD_or, BitVec.getLsbD_and, BitVec.getLsbD_not, m, hi, decide_true, Bool.true_and,
    BitVec.getLsbD_ofNat, Nat.testBit_shiftLeft, Nat.testBit_mod_two_pow]
  by_cases a : f.lo ≤ i
  · by_cases b : i < f.lo + f.w
    · have : i - f.lo < f.w := by omega
      simp [a, b, this]
    · have : ¬ i - f.lo < f.w := by omega
      simp [a, b, this]
  · simp [a]

theorem State.get_testBit (s : State) (f : RF) (i : Nat) :
    (s.get f).testBit i = (decide (i < f.w) && (s.rd f.off).getLsbD (f.lo + i)) := by
  simp [State.get, Nat.testBit_mod_two_pow, Nat.testBit_shiftRight, BitVec.getLsbD]

/-- A field reads back what was written, cut to its width. -/
theorem State.get_put_same (s : State) (f : RF) (v : Nat) (h : f.fits) : (s.put f v).get f = v % 2 ^ f.w := by
  have hf : f.lo + f.w ≤ 32 := h
  apply Nat.eq_of_testBit_eq
  intro i
  rw [State.get_testBit, Nat.testBit_mod_two_pow]
  by_cases hi : i < f.w
  · have h32 : f.lo + i < 32 := by omega
    have hin : f.lo ≤ f.lo + i ∧ f.lo + i < f.lo + f.w := by omega
    have hsub : f.lo + i - f.lo = i := by omega
    simp [State.put, RF.ins_getLsbD f _ _ _ h32 h, hi]
  · simp [hi]

/-- A write of a field leaves the fields of other registers. -/
theorem State.get_put_off (s : State) (f g : RF) (v : Nat) (h : g.off ≠ f.off) : (s.put f v).get g = s.get g := by
  simp [State.get, State.rd_put_ne _ _ _ _ h]

/-- A write of a field leaves the other fields of its register. -/
theorem State.get_put_disjoint (s : State) (f g : RF) (v : Nat) (h : f.fits) (hg : g.fits)
    (hd : f.lo + f.w ≤ g.lo ∨ g.lo + g.w ≤ f.lo) : (s.put f v).get g = s.get g := by
  have hf : f.lo + f.w ≤ 32 := h
  have hg' : g.lo + g.w ≤ 32 := hg
  by_cases ho : g.off = f.off
  · apply Nat.eq_of_testBit_eq
    intro i
    rw [State.get_testBit, State.get_testBit]
    by_cases hi : i < g.w
    · have h32 : g.lo + i < 32 := by omega
      have hout : ¬ (f.lo ≤ g.lo + i ∧ g.lo + i < f.lo + f.w) := by omega
      simp [State.put, ho, RF.ins_getLsbD f _ _ _ h32 h, hi, hout]
    · simp [hi]
  · exact State.get_put_off s f g v ho

end Sys2Proof.Machine
end

