-- ==== Sys2Proof/Laws/State.lean ====
section
/-! SUPPORT. What each plain update of the state does to each field: it changes its own field as stated and no other. -/

namespace Sys2Proof.Machine

/-! ## wr -/

@[simp] theorem State.wr_pending (s : State) (off : Nat) (v : Word) : (s.wr off v).pending = s.pending := rfl
@[simp] theorem State.wr_mode (s : State) (off : Nat) (v : Word) : (s.wr off v).mode = s.mode := rfl
@[simp] theorem State.wr_regs (s : State) (off : Nat) (v : Word) : (s.wr off v).regs = SMap.set regReset s.regs off v := rfl
@[simp] theorem State.wr_fuses (s : State) (off : Nat) (v : Word) : (s.wr off v).fuses = s.fuses := rfl
@[simp] theorem State.wr_nor (s : State) (off : Nat) (v : Word) : (s.wr off v).nor = s.nor := rfl
@[simp] theorem State.wr_norSize (s : State) (off : Nat) (v : Word) : (s.wr off v).norSize = s.norSize := rfl
@[simp] theorem State.wr_units (s : State) (off : Nat) (v : Word) : (s.wr off v).units = s.units := rfl
@[simp] theorem State.wr_log (s : State) (off : Nat) (v : Word) : (s.wr off v).log = s.log := rfl
@[simp] theorem State.wr_evtLast (s : State) (off : Nat) (v : Word) : (s.wr off v).evtLast = s.evtLast := rfl
@[simp] theorem State.wr_con (s : State) (off : Nat) (v : Word) : (s.wr off v).con = s.con := rfl
@[simp] theorem State.wr_hif (s : State) (off : Nat) (v : Word) : (s.wr off v).hif = s.hif := rfl
@[simp] theorem State.wr_ldr (s : State) (off : Nat) (v : Word) : (s.wr off v).ldr = s.ldr := rfl
@[simp] theorem State.wr_cad (s : State) (off : Nat) (v : Word) : (s.wr off v).cad = s.cad := rfl
@[simp] theorem State.wr_fab (s : State) (off : Nat) (v : Word) : (s.wr off v).fab = s.fab := rfl
@[simp] theorem State.wr_xq (s : State) (off : Nat) (v : Word) : (s.wr off v).xq = s.xq := rfl
@[simp] theorem State.wr_evx (s : State) (off : Nat) (v : Word) : (s.wr off v).evx = s.evx := rfl
@[simp] theorem State.wr_clk (s : State) (off : Nat) (v : Word) : (s.wr off v).clk = s.clk := rfl
@[simp] theorem State.wr_spk (s : State) (off : Nat) (v : Word) : (s.wr off v).spk = s.spk := rfl
@[simp] theorem State.wr_adc (s : State) (off : Nat) (v : Word) : (s.wr off v).adc = s.adc := rfl
@[simp] theorem State.wr_pwr (s : State) (off : Nat) (v : Word) : (s.wr off v).pwr = s.pwr := rfl
@[simp] theorem State.wr_pins (s : State) (off : Nat) (v : Word) : (s.wr off v).pins = s.pins := rfl
@[simp] theorem State.wr_pel (s : State) (off : Nat) (v : Word) : (s.wr off v).pel = s.pel := rfl
@[simp] theorem State.wr_lane (s : State) (off : Nat) (v : Word) : (s.wr off v).lane = s.lane := rfl
@[simp] theorem State.wr_grp (s : State) (off : Nat) (v : Word) : (s.wr off v).grp = s.grp := rfl
@[simp] theorem State.wr_flt (s : State) (off : Nat) (v : Word) : (s.wr off v).flt = s.flt := rfl
@[simp] theorem State.wr_caps (s : State) (off : Nat) (v : Word) : (s.wr off v).caps = s.caps := rfl
@[simp] theorem State.wr_readData (s : State) (off : Nat) (v : Word) : (s.wr off v).readData = s.readData := rfl
@[simp] theorem State.wr_frameData (s : State) (off : Nat) (v : Word) : (s.wr off v).frameData = s.frameData := rfl
@[simp] theorem State.wr_freeCtr (s : State) (off : Nat) (v : Word) : (s.wr off v).freeCtr = s.freeCtr := rfl

/-! ## put -/

@[simp] theorem State.put_pending (s : State) (f : RF) (v : Nat) : (s.put f v).pending = s.pending := rfl
@[simp] theorem State.put_mode (s : State) (f : RF) (v : Nat) : (s.put f v).mode = s.mode := rfl
@[simp] theorem State.put_fuses (s : State) (f : RF) (v : Nat) : (s.put f v).fuses = s.fuses := rfl
@[simp] theorem State.put_nor (s : State) (f : RF) (v : Nat) : (s.put f v).nor = s.nor := rfl
@[simp] theorem State.put_norSize (s : State) (f : RF) (v : Nat) : (s.put f v).norSize = s.norSize := rfl
@[simp] theorem State.put_units (s : State) (f : RF) (v : Nat) : (s.put f v).units = s.units := rfl
@[simp] theorem State.put_log (s : State) (f : RF) (v : Nat) : (s.put f v).log = s.log := rfl
@[simp] theorem State.put_evtLast (s : State) (f : RF) (v : Nat) : (s.put f v).evtLast = s.evtLast := rfl
@[simp] theorem State.put_con (s : State) (f : RF) (v : Nat) : (s.put f v).con = s.con := rfl
@[simp] theorem State.put_hif (s : State) (f : RF) (v : Nat) : (s.put f v).hif = s.hif := rfl
@[simp] theorem State.put_ldr (s : State) (f : RF) (v : Nat) : (s.put f v).ldr = s.ldr := rfl
@[simp] theorem State.put_cad (s : State) (f : RF) (v : Nat) : (s.put f v).cad = s.cad := rfl
@[simp] theorem State.put_fab (s : State) (f : RF) (v : Nat) : (s.put f v).fab = s.fab := rfl
@[simp] theorem State.put_xq (s : State) (f : RF) (v : Nat) : (s.put f v).xq = s.xq := rfl
@[simp] theorem State.put_evx (s : State) (f : RF) (v : Nat) : (s.put f v).evx = s.evx := rfl
@[simp] theorem State.put_clk (s : State) (f : RF) (v : Nat) : (s.put f v).clk = s.clk := rfl
@[simp] theorem State.put_spk (s : State) (f : RF) (v : Nat) : (s.put f v).spk = s.spk := rfl
@[simp] theorem State.put_adc (s : State) (f : RF) (v : Nat) : (s.put f v).adc = s.adc := rfl
@[simp] theorem State.put_pwr (s : State) (f : RF) (v : Nat) : (s.put f v).pwr = s.pwr := rfl
@[simp] theorem State.put_pins (s : State) (f : RF) (v : Nat) : (s.put f v).pins = s.pins := rfl
@[simp] theorem State.put_pel (s : State) (f : RF) (v : Nat) : (s.put f v).pel = s.pel := rfl
@[simp] theorem State.put_lane (s : State) (f : RF) (v : Nat) : (s.put f v).lane = s.lane := rfl
@[simp] theorem State.put_grp (s : State) (f : RF) (v : Nat) : (s.put f v).grp = s.grp := rfl
@[simp] theorem State.put_flt (s : State) (f : RF) (v : Nat) : (s.put f v).flt = s.flt := rfl
@[simp] theorem State.put_caps (s : State) (f : RF) (v : Nat) : (s.put f v).caps = s.caps := rfl
@[simp] theorem State.put_readData (s : State) (f : RF) (v : Nat) : (s.put f v).readData = s.readData := rfl
@[simp] theorem State.put_frameData (s : State) (f : RF) (v : Nat) : (s.put f v).frameData = s.frameData := rfl
@[simp] theorem State.put_freeCtr (s : State) (f : RF) (v : Nat) : (s.put f v).freeCtr = s.freeCtr := rfl

/-! ## setHif -/

@[simp] theorem State.setHif_pending (s : State) (x : Hif) : (s.setHif x).pending = s.pending := rfl
@[simp] theorem State.setHif_mode (s : State) (x : Hif) : (s.setHif x).mode = s.mode := rfl
@[simp] theorem State.setHif_regs (s : State) (x : Hif) : (s.setHif x).regs = s.regs := rfl
@[simp] theorem State.setHif_fuses (s : State) (x : Hif) : (s.setHif x).fuses = s.fuses := rfl
@[simp] theorem State.setHif_nor (s : State) (x : Hif) : (s.setHif x).nor = s.nor := rfl
@[simp] theorem State.setHif_norSize (s : State) (x : Hif) : (s.setHif x).norSize = s.norSize := rfl
@[simp] theorem State.setHif_units (s : State) (x : Hif) : (s.setHif x).units = s.units := rfl
@[simp] theorem State.setHif_log (s : State) (x : Hif) : (s.setHif x).log = s.log := rfl
@[simp] theorem State.setHif_evtLast (s : State) (x : Hif) : (s.setHif x).evtLast = s.evtLast := rfl
@[simp] theorem State.setHif_con (s : State) (x : Hif) : (s.setHif x).con = s.con := rfl
@[simp] theorem State.setHif_hif (s : State) (x : Hif) : (s.setHif x).hif = x := rfl
@[simp] theorem State.setHif_ldr (s : State) (x : Hif) : (s.setHif x).ldr = s.ldr := rfl
@[simp] theorem State.setHif_cad (s : State) (x : Hif) : (s.setHif x).cad = s.cad := rfl
@[simp] theorem State.setHif_fab (s : State) (x : Hif) : (s.setHif x).fab = s.fab := rfl
@[simp] theorem State.setHif_xq (s : State) (x : Hif) : (s.setHif x).xq = s.xq := rfl
@[simp] theorem State.setHif_evx (s : State) (x : Hif) : (s.setHif x).evx = s.evx := rfl
@[simp] theorem State.setHif_clk (s : State) (x : Hif) : (s.setHif x).clk = s.clk := rfl
@[simp] theorem State.setHif_spk (s : State) (x : Hif) : (s.setHif x).spk = s.spk := rfl
@[simp] theorem State.setHif_adc (s : State) (x : Hif) : (s.setHif x).adc = s.adc := rfl
@[simp] theorem State.setHif_pwr (s : State) (x : Hif) : (s.setHif x).pwr = s.pwr := rfl
@[simp] theorem State.setHif_pins (s : State) (x : Hif) : (s.setHif x).pins = s.pins := rfl
@[simp] theorem State.setHif_pel (s : State) (x : Hif) : (s.setHif x).pel = s.pel := rfl
@[simp] theorem State.setHif_lane (s : State) (x : Hif) : (s.setHif x).lane = s.lane := rfl
@[simp] theorem State.setHif_grp (s : State) (x : Hif) : (s.setHif x).grp = s.grp := rfl
@[simp] theorem State.setHif_flt (s : State) (x : Hif) : (s.setHif x).flt = s.flt := rfl
@[simp] theorem State.setHif_caps (s : State) (x : Hif) : (s.setHif x).caps = s.caps := rfl
@[simp] theorem State.setHif_readData (s : State) (x : Hif) : (s.setHif x).readData = s.readData := rfl
@[simp] theorem State.setHif_frameData (s : State) (x : Hif) : (s.setHif x).frameData = s.frameData := rfl
@[simp] theorem State.setHif_freeCtr (s : State) (x : Hif) : (s.setHif x).freeCtr = s.freeCtr := rfl
@[simp] theorem State.setHif_rd (s : State) (x : Hif) (o : Nat) : (s.setHif x).rd o = s.rd o := rfl
@[simp] theorem State.setHif_get (s : State) (x : Hif) (g : RF) : (s.setHif x).get g = s.get g := rfl

/-! ## setRing -/

@[simp] theorem State.setRing_pending (s : State) (n : Nat) (x : Ring) : (s.setRing n x).pending = s.pending := rfl
@[simp] theorem State.setRing_mode (s : State) (n : Nat) (x : Ring) : (s.setRing n x).mode = s.mode := rfl
@[simp] theorem State.setRing_regs (s : State) (n : Nat) (x : Ring) : (s.setRing n x).regs = s.regs := rfl
@[simp] theorem State.setRing_fuses (s : State) (n : Nat) (x : Ring) : (s.setRing n x).fuses = s.fuses := rfl
@[simp] theorem State.setRing_nor (s : State) (n : Nat) (x : Ring) : (s.setRing n x).nor = s.nor := rfl
@[simp] theorem State.setRing_norSize (s : State) (n : Nat) (x : Ring) : (s.setRing n x).norSize = s.norSize := rfl
@[simp] theorem State.setRing_units (s : State) (n : Nat) (x : Ring) : (s.setRing n x).units = s.units := rfl
@[simp] theorem State.setRing_log (s : State) (n : Nat) (x : Ring) : (s.setRing n x).log = s.log := rfl
@[simp] theorem State.setRing_evtLast (s : State) (n : Nat) (x : Ring) : (s.setRing n x).evtLast = s.evtLast := rfl
@[simp] theorem State.setRing_con (s : State) (n : Nat) (x : Ring) : (s.setRing n x).con = s.con := rfl
@[simp] theorem State.setRing_hif (s : State) (n : Nat) (x : Ring) : (s.setRing n x).hif = { s.hif with rings := SMap.set (fun _ => {}) s.hif.rings n x } := rfl
@[simp] theorem State.setRing_ldr (s : State) (n : Nat) (x : Ring) : (s.setRing n x).ldr = s.ldr := rfl
@[simp] theorem State.setRing_cad (s : State) (n : Nat) (x : Ring) : (s.setRing n x).cad = s.cad := rfl
@[simp] theorem State.setRing_fab (s : State) (n : Nat) (x : Ring) : (s.setRing n x).fab = s.fab := rfl
@[simp] theorem State.setRing_xq (s : State) (n : Nat) (x : Ring) : (s.setRing n x).xq = s.xq := rfl
@[simp] theorem State.setRing_evx (s : State) (n : Nat) (x : Ring) : (s.setRing n x).evx = s.evx := rfl
@[simp] theorem State.setRing_clk (s : State) (n : Nat) (x : Ring) : (s.setRing n x).clk = s.clk := rfl
@[simp] theorem State.setRing_spk (s : State) (n : Nat) (x : Ring) : (s.setRing n x).spk = s.spk := rfl
@[simp] theorem State.setRing_adc (s : State) (n : Nat) (x : Ring) : (s.setRing n x).adc = s.adc := rfl
@[simp] theorem State.setRing_pwr (s : State) (n : Nat) (x : Ring) : (s.setRing n x).pwr = s.pwr := rfl
@[simp] theorem State.setRing_pins (s : State) (n : Nat) (x : Ring) : (s.setRing n x).pins = s.pins := rfl
@[simp] theorem State.setRing_pel (s : State) (n : Nat) (x : Ring) : (s.setRing n x).pel = s.pel := rfl
@[simp] theorem State.setRing_lane (s : State) (n : Nat) (x : Ring) : (s.setRing n x).lane = s.lane := rfl
@[simp] theorem State.setRing_grp (s : State) (n : Nat) (x : Ring) : (s.setRing n x).grp = s.grp := rfl
@[simp] theorem State.setRing_flt (s : State) (n : Nat) (x : Ring) : (s.setRing n x).flt = s.flt := rfl
@[simp] theorem State.setRing_caps (s : State) (n : Nat) (x : Ring) : (s.setRing n x).caps = s.caps := rfl
@[simp] theorem State.setRing_readData (s : State) (n : Nat) (x : Ring) : (s.setRing n x).readData = s.readData := rfl
@[simp] theorem State.setRing_frameData (s : State) (n : Nat) (x : Ring) : (s.setRing n x).frameData = s.frameData := rfl
@[simp] theorem State.setRing_freeCtr (s : State) (n : Nat) (x : Ring) : (s.setRing n x).freeCtr = s.freeCtr := rfl
@[simp] theorem State.setRing_rd (s : State) (n : Nat) (x : Ring) (o : Nat) : (s.setRing n x).rd o = s.rd o := rfl
@[simp] theorem State.setRing_get (s : State) (n : Nat) (x : Ring) (g : RF) : (s.setRing n x).get g = s.get g := rfl

/-! ## hostWrite -/

@[simp] theorem State.hostWrite_pending (s : State) (a : Nat) (d : List Byte) : (s.hostWrite a d).pending = s.pending := rfl
@[simp] theorem State.hostWrite_mode (s : State) (a : Nat) (d : List Byte) : (s.hostWrite a d).mode = s.mode := rfl
@[simp] theorem State.hostWrite_regs (s : State) (a : Nat) (d : List Byte) : (s.hostWrite a d).regs = s.regs := rfl
@[simp] theorem State.hostWrite_fuses (s : State) (a : Nat) (d : List Byte) : (s.hostWrite a d).fuses = s.fuses := rfl
@[simp] theorem State.hostWrite_nor (s : State) (a : Nat) (d : List Byte) : (s.hostWrite a d).nor = s.nor := rfl
@[simp] theorem State.hostWrite_norSize (s : State) (a : Nat) (d : List Byte) : (s.hostWrite a d).norSize = s.norSize := rfl
@[simp] theorem State.hostWrite_units (s : State) (a : Nat) (d : List Byte) : (s.hostWrite a d).units = s.units := rfl
@[simp] theorem State.hostWrite_log (s : State) (a : Nat) (d : List Byte) : (s.hostWrite a d).log = s.log := rfl
@[simp] theorem State.hostWrite_evtLast (s : State) (a : Nat) (d : List Byte) : (s.hostWrite a d).evtLast = s.evtLast := rfl
@[simp] theorem State.hostWrite_con (s : State) (a : Nat) (d : List Byte) : (s.hostWrite a d).con = s.con := rfl
@[simp] theorem State.hostWrite_hif (s : State) (a : Nat) (d : List Byte) : (s.hostWrite a d).hif = { s.hif with writes := s.hif.writes ++ [⟨a, d⟩] } := rfl
@[simp] theorem State.hostWrite_ldr (s : State) (a : Nat) (d : List Byte) : (s.hostWrite a d).ldr = s.ldr := rfl
@[simp] theorem State.hostWrite_cad (s : State) (a : Nat) (d : List Byte) : (s.hostWrite a d).cad = s.cad := rfl
@[simp] theorem State.hostWrite_fab (s : State) (a : Nat) (d : List Byte) : (s.hostWrite a d).fab = s.fab := rfl
@[simp] theorem State.hostWrite_xq (s : State) (a : Nat) (d : List Byte) : (s.hostWrite a d).xq = s.xq := rfl
@[simp] theorem State.hostWrite_evx (s : State) (a : Nat) (d : List Byte) : (s.hostWrite a d).evx = s.evx := rfl
@[simp] theorem State.hostWrite_clk (s : State) (a : Nat) (d : List Byte) : (s.hostWrite a d).clk = s.clk := rfl
@[simp] theorem State.hostWrite_spk (s : State) (a : Nat) (d : List Byte) : (s.hostWrite a d).spk = s.spk := rfl
@[simp] theorem State.hostWrite_adc (s : State) (a : Nat) (d : List Byte) : (s.hostWrite a d).adc = s.adc := rfl
@[simp] theorem State.hostWrite_pwr (s : State) (a : Nat) (d : List Byte) : (s.hostWrite a d).pwr = s.pwr := rfl
@[simp] theorem State.hostWrite_pins (s : State) (a : Nat) (d : List Byte) : (s.hostWrite a d).pins = s.pins := rfl
@[simp] theorem State.hostWrite_pel (s : State) (a : Nat) (d : List Byte) : (s.hostWrite a d).pel = s.pel := rfl
@[simp] theorem State.hostWrite_lane (s : State) (a : Nat) (d : List Byte) : (s.hostWrite a d).lane = s.lane := rfl
@[simp] theorem State.hostWrite_grp (s : State) (a : Nat) (d : List Byte) : (s.hostWrite a d).grp = s.grp := rfl
@[simp] theorem State.hostWrite_flt (s : State) (a : Nat) (d : List Byte) : (s.hostWrite a d).flt = s.flt := rfl
@[simp] theorem State.hostWrite_caps (s : State) (a : Nat) (d : List Byte) : (s.hostWrite a d).caps = s.caps := rfl
@[simp] theorem State.hostWrite_readData (s : State) (a : Nat) (d : List Byte) : (s.hostWrite a d).readData = s.readData := rfl
@[simp] theorem State.hostWrite_frameData (s : State) (a : Nat) (d : List Byte) : (s.hostWrite a d).frameData = s.frameData := rfl
@[simp] theorem State.hostWrite_freeCtr (s : State) (a : Nat) (d : List Byte) : (s.hostWrite a d).freeCtr = s.freeCtr := rfl
@[simp] theorem State.hostWrite_rd (s : State) (a : Nat) (d : List Byte) (o : Nat) : (s.hostWrite a d).rd o = s.rd o := rfl
@[simp] theorem State.hostWrite_get (s : State) (a : Nat) (d : List Byte) (g : RF) : (s.hostWrite a d).get g = s.get g := rfl

/-! ## setCon -/

@[simp] theorem State.setCon_pending (s : State) (x : Console) : (s.setCon x).pending = s.pending := rfl
@[simp] theorem State.setCon_mode (s : State) (x : Console) : (s.setCon x).mode = s.mode := rfl
@[simp] theorem State.setCon_regs (s : State) (x : Console) : (s.setCon x).regs = s.regs := rfl
@[simp] theorem State.setCon_fuses (s : State) (x : Console) : (s.setCon x).fuses = s.fuses := rfl
@[simp] theorem State.setCon_nor (s : State) (x : Console) : (s.setCon x).nor = s.nor := rfl
@[simp] theorem State.setCon_norSize (s : State) (x : Console) : (s.setCon x).norSize = s.norSize := rfl
@[simp] theorem State.setCon_units (s : State) (x : Console) : (s.setCon x).units = s.units := rfl
@[simp] theorem State.setCon_log (s : State) (x : Console) : (s.setCon x).log = s.log := rfl
@[simp] theorem State.setCon_evtLast (s : State) (x : Console) : (s.setCon x).evtLast = s.evtLast := rfl
@[simp] theorem State.setCon_con (s : State) (x : Console) : (s.setCon x).con = x := rfl
@[simp] theorem State.setCon_hif (s : State) (x : Console) : (s.setCon x).hif = s.hif := rfl
@[simp] theorem State.setCon_ldr (s : State) (x : Console) : (s.setCon x).ldr = s.ldr := rfl
@[simp] theorem State.setCon_cad (s : State) (x : Console) : (s.setCon x).cad = s.cad := rfl
@[simp] theorem State.setCon_fab (s : State) (x : Console) : (s.setCon x).fab = s.fab := rfl
@[simp] theorem State.setCon_xq (s : State) (x : Console) : (s.setCon x).xq = s.xq := rfl
@[simp] theorem State.setCon_evx (s : State) (x : Console) : (s.setCon x).evx = s.evx := rfl
@[simp] theorem State.setCon_clk (s : State) (x : Console) : (s.setCon x).clk = s.clk := rfl
@[simp] theorem State.setCon_spk (s : State) (x : Console) : (s.setCon x).spk = s.spk := rfl
@[simp] theorem State.setCon_adc (s : State) (x : Console) : (s.setCon x).adc = s.adc := rfl
@[simp] theorem State.setCon_pwr (s : State) (x : Console) : (s.setCon x).pwr = s.pwr := rfl
@[simp] theorem State.setCon_pins (s : State) (x : Console) : (s.setCon x).pins = s.pins := rfl
@[simp] theorem State.setCon_pel (s : State) (x : Console) : (s.setCon x).pel = s.pel := rfl
@[simp] theorem State.setCon_lane (s : State) (x : Console) : (s.setCon x).lane = s.lane := rfl
@[simp] theorem State.setCon_grp (s : State) (x : Console) : (s.setCon x).grp = s.grp := rfl
@[simp] theorem State.setCon_flt (s : State) (x : Console) : (s.setCon x).flt = s.flt := rfl
@[simp] theorem State.setCon_caps (s : State) (x : Console) : (s.setCon x).caps = s.caps := rfl
@[simp] theorem State.setCon_readData (s : State) (x : Console) : (s.setCon x).readData = s.readData := rfl
@[simp] theorem State.setCon_frameData (s : State) (x : Console) : (s.setCon x).frameData = s.frameData := rfl
@[simp] theorem State.setCon_freeCtr (s : State) (x : Console) : (s.setCon x).freeCtr = s.freeCtr := rfl
@[simp] theorem State.setCon_rd (s : State) (x : Console) (o : Nat) : (s.setCon x).rd o = s.rd o := rfl
@[simp] theorem State.setCon_get (s : State) (x : Console) (g : RF) : (s.setCon x).get g = s.get g := rfl

/-! ## setLdr -/

@[simp] theorem State.setLdr_pending (s : State) (x : Loader) : (s.setLdr x).pending = s.pending := rfl
@[simp] theorem State.setLdr_mode (s : State) (x : Loader) : (s.setLdr x).mode = s.mode := rfl
@[simp] theorem State.setLdr_regs (s : State) (x : Loader) : (s.setLdr x).regs = s.regs := rfl
@[simp] theorem State.setLdr_fuses (s : State) (x : Loader) : (s.setLdr x).fuses = s.fuses := rfl
@[simp] theorem State.setLdr_nor (s : State) (x : Loader) : (s.setLdr x).nor = s.nor := rfl
@[simp] theorem State.setLdr_norSize (s : State) (x : Loader) : (s.setLdr x).norSize = s.norSize := rfl
@[simp] theorem State.setLdr_units (s : State) (x : Loader) : (s.setLdr x).units = s.units := rfl
@[simp] theorem State.setLdr_log (s : State) (x : Loader) : (s.setLdr x).log = s.log := rfl
@[simp] theorem State.setLdr_evtLast (s : State) (x : Loader) : (s.setLdr x).evtLast = s.evtLast := rfl
@[simp] theorem State.setLdr_con (s : State) (x : Loader) : (s.setLdr x).con = s.con := rfl
@[simp] theorem State.setLdr_hif (s : State) (x : Loader) : (s.setLdr x).hif = s.hif := rfl
@[simp] theorem State.setLdr_ldr (s : State) (x : Loader) : (s.setLdr x).ldr = x := rfl
@[simp] theorem State.setLdr_cad (s : State) (x : Loader) : (s.setLdr x).cad = s.cad := rfl
@[simp] theorem State.setLdr_fab (s : State) (x : Loader) : (s.setLdr x).fab = s.fab := rfl
@[simp] theorem State.setLdr_xq (s : State) (x : Loader) : (s.setLdr x).xq = s.xq := rfl
@[simp] theorem State.setLdr_evx (s : State) (x : Loader) : (s.setLdr x).evx = s.evx := rfl
@[simp] theorem State.setLdr_clk (s : State) (x : Loader) : (s.setLdr x).clk = s.clk := rfl
@[simp] theorem State.setLdr_spk (s : State) (x : Loader) : (s.setLdr x).spk = s.spk := rfl
@[simp] theorem State.setLdr_adc (s : State) (x : Loader) : (s.setLdr x).adc = s.adc := rfl
@[simp] theorem State.setLdr_pwr (s : State) (x : Loader) : (s.setLdr x).pwr = s.pwr := rfl
@[simp] theorem State.setLdr_pins (s : State) (x : Loader) : (s.setLdr x).pins = s.pins := rfl
@[simp] theorem State.setLdr_pel (s : State) (x : Loader) : (s.setLdr x).pel = s.pel := rfl
@[simp] theorem State.setLdr_lane (s : State) (x : Loader) : (s.setLdr x).lane = s.lane := rfl
@[simp] theorem State.setLdr_grp (s : State) (x : Loader) : (s.setLdr x).grp = s.grp := rfl
@[simp] theorem State.setLdr_flt (s : State) (x : Loader) : (s.setLdr x).flt = s.flt := rfl
@[simp] theorem State.setLdr_caps (s : State) (x : Loader) : (s.setLdr x).caps = s.caps := rfl
@[simp] theorem State.setLdr_readData (s : State) (x : Loader) : (s.setLdr x).readData = s.readData := rfl
@[simp] theorem State.setLdr_frameData (s : State) (x : Loader) : (s.setLdr x).frameData = s.frameData := rfl
@[simp] theorem State.setLdr_freeCtr (s : State) (x : Loader) : (s.setLdr x).freeCtr = s.freeCtr := rfl
@[simp] theorem State.setLdr_rd (s : State) (x : Loader) (o : Nat) : (s.setLdr x).rd o = s.rd o := rfl
@[simp] theorem State.setLdr_get (s : State) (x : Loader) (g : RF) : (s.setLdr x).get g = s.get g := rfl

/-! ## setCadSrc -/

@[simp] theorem State.setCadSrc_pending (s : State) (n : Nat) (x : CadSrc) : (s.setCadSrc n x).pending = s.pending := rfl
@[simp] theorem State.setCadSrc_mode (s : State) (n : Nat) (x : CadSrc) : (s.setCadSrc n x).mode = s.mode := rfl
@[simp] theorem State.setCadSrc_regs (s : State) (n : Nat) (x : CadSrc) : (s.setCadSrc n x).regs = s.regs := rfl
@[simp] theorem State.setCadSrc_fuses (s : State) (n : Nat) (x : CadSrc) : (s.setCadSrc n x).fuses = s.fuses := rfl
@[simp] theorem State.setCadSrc_nor (s : State) (n : Nat) (x : CadSrc) : (s.setCadSrc n x).nor = s.nor := rfl
@[simp] theorem State.setCadSrc_norSize (s : State) (n : Nat) (x : CadSrc) : (s.setCadSrc n x).norSize = s.norSize := rfl
@[simp] theorem State.setCadSrc_units (s : State) (n : Nat) (x : CadSrc) : (s.setCadSrc n x).units = s.units := rfl
@[simp] theorem State.setCadSrc_log (s : State) (n : Nat) (x : CadSrc) : (s.setCadSrc n x).log = s.log := rfl
@[simp] theorem State.setCadSrc_evtLast (s : State) (n : Nat) (x : CadSrc) : (s.setCadSrc n x).evtLast = s.evtLast := rfl
@[simp] theorem State.setCadSrc_con (s : State) (n : Nat) (x : CadSrc) : (s.setCadSrc n x).con = s.con := rfl
@[simp] theorem State.setCadSrc_hif (s : State) (n : Nat) (x : CadSrc) : (s.setCadSrc n x).hif = s.hif := rfl
@[simp] theorem State.setCadSrc_ldr (s : State) (n : Nat) (x : CadSrc) : (s.setCadSrc n x).ldr = s.ldr := rfl
@[simp] theorem State.setCadSrc_cad (s : State) (n : Nat) (x : CadSrc) : (s.setCadSrc n x).cad = { s.cad with srcs := SMap.set (fun _ => {}) s.cad.srcs n x } := rfl
@[simp] theorem State.setCadSrc_fab (s : State) (n : Nat) (x : CadSrc) : (s.setCadSrc n x).fab = s.fab := rfl
@[simp] theorem State.setCadSrc_xq (s : State) (n : Nat) (x : CadSrc) : (s.setCadSrc n x).xq = s.xq := rfl
@[simp] theorem State.setCadSrc_evx (s : State) (n : Nat) (x : CadSrc) : (s.setCadSrc n x).evx = s.evx := rfl
@[simp] theorem State.setCadSrc_clk (s : State) (n : Nat) (x : CadSrc) : (s.setCadSrc n x).clk = s.clk := rfl
@[simp] theorem State.setCadSrc_spk (s : State) (n : Nat) (x : CadSrc) : (s.setCadSrc n x).spk = s.spk := rfl
@[simp] theorem State.setCadSrc_adc (s : State) (n : Nat) (x : CadSrc) : (s.setCadSrc n x).adc = s.adc := rfl
@[simp] theorem State.setCadSrc_pwr (s : State) (n : Nat) (x : CadSrc) : (s.setCadSrc n x).pwr = s.pwr := rfl
@[simp] theorem State.setCadSrc_pins (s : State) (n : Nat) (x : CadSrc) : (s.setCadSrc n x).pins = s.pins := rfl
@[simp] theorem State.setCadSrc_pel (s : State) (n : Nat) (x : CadSrc) : (s.setCadSrc n x).pel = s.pel := rfl
@[simp] theorem State.setCadSrc_lane (s : State) (n : Nat) (x : CadSrc) : (s.setCadSrc n x).lane = s.lane := rfl
@[simp] theorem State.setCadSrc_grp (s : State) (n : Nat) (x : CadSrc) : (s.setCadSrc n x).grp = s.grp := rfl
@[simp] theorem State.setCadSrc_flt (s : State) (n : Nat) (x : CadSrc) : (s.setCadSrc n x).flt = s.flt := rfl
@[simp] theorem State.setCadSrc_caps (s : State) (n : Nat) (x : CadSrc) : (s.setCadSrc n x).caps = s.caps := rfl
@[simp] theorem State.setCadSrc_readData (s : State) (n : Nat) (x : CadSrc) : (s.setCadSrc n x).readData = s.readData := rfl
@[simp] theorem State.setCadSrc_frameData (s : State) (n : Nat) (x : CadSrc) : (s.setCadSrc n x).frameData = s.frameData := rfl
@[simp] theorem State.setCadSrc_freeCtr (s : State) (n : Nat) (x : CadSrc) : (s.setCadSrc n x).freeCtr = s.freeCtr := rfl
@[simp] theorem State.setCadSrc_rd (s : State) (n : Nat) (x : CadSrc) (o : Nat) : (s.setCadSrc n x).rd o = s.rd o := rfl
@[simp] theorem State.setCadSrc_get (s : State) (n : Nat) (x : CadSrc) (g : RF) : (s.setCadSrc n x).get g = s.get g := rfl

/-! ## setTrk -/

@[simp] theorem State.setTrk_pending (s : State) (n : Nat) (x : Trk) : (s.setTrk n x).pending = s.pending := rfl
@[simp] theorem State.setTrk_mode (s : State) (n : Nat) (x : Trk) : (s.setTrk n x).mode = s.mode := rfl
@[simp] theorem State.setTrk_regs (s : State) (n : Nat) (x : Trk) : (s.setTrk n x).regs = s.regs := rfl
@[simp] theorem State.setTrk_fuses (s : State) (n : Nat) (x : Trk) : (s.setTrk n x).fuses = s.fuses := rfl
@[simp] theorem State.setTrk_nor (s : State) (n : Nat) (x : Trk) : (s.setTrk n x).nor = s.nor := rfl
@[simp] theorem State.setTrk_norSize (s : State) (n : Nat) (x : Trk) : (s.setTrk n x).norSize = s.norSize := rfl
@[simp] theorem State.setTrk_units (s : State) (n : Nat) (x : Trk) : (s.setTrk n x).units = s.units := rfl
@[simp] theorem State.setTrk_log (s : State) (n : Nat) (x : Trk) : (s.setTrk n x).log = s.log := rfl
@[simp] theorem State.setTrk_evtLast (s : State) (n : Nat) (x : Trk) : (s.setTrk n x).evtLast = s.evtLast := rfl
@[simp] theorem State.setTrk_con (s : State) (n : Nat) (x : Trk) : (s.setTrk n x).con = s.con := rfl
@[simp] theorem State.setTrk_hif (s : State) (n : Nat) (x : Trk) : (s.setTrk n x).hif = s.hif := rfl
@[simp] theorem State.setTrk_ldr (s : State) (n : Nat) (x : Trk) : (s.setTrk n x).ldr = s.ldr := rfl
@[simp] theorem State.setTrk_cad (s : State) (n : Nat) (x : Trk) : (s.setTrk n x).cad = { s.cad with trks := SMap.set (fun _ => {}) s.cad.trks n x } := rfl
@[simp] theorem State.setTrk_fab (s : State) (n : Nat) (x : Trk) : (s.setTrk n x).fab = s.fab := rfl
@[simp] theorem State.setTrk_xq (s : State) (n : Nat) (x : Trk) : (s.setTrk n x).xq = s.xq := rfl
@[simp] theorem State.setTrk_evx (s : State) (n : Nat) (x : Trk) : (s.setTrk n x).evx = s.evx := rfl
@[simp] theorem State.setTrk_clk (s : State) (n : Nat) (x : Trk) : (s.setTrk n x).clk = s.clk := rfl
@[simp] theorem State.setTrk_spk (s : State) (n : Nat) (x : Trk) : (s.setTrk n x).spk = s.spk := rfl
@[simp] theorem State.setTrk_adc (s : State) (n : Nat) (x : Trk) : (s.setTrk n x).adc = s.adc := rfl
@[simp] theorem State.setTrk_pwr (s : State) (n : Nat) (x : Trk) : (s.setTrk n x).pwr = s.pwr := rfl
@[simp] theorem State.setTrk_pins (s : State) (n : Nat) (x : Trk) : (s.setTrk n x).pins = s.pins := rfl
@[simp] theorem State.setTrk_pel (s : State) (n : Nat) (x : Trk) : (s.setTrk n x).pel = s.pel := rfl
@[simp] theorem State.setTrk_lane (s : State) (n : Nat) (x : Trk) : (s.setTrk n x).lane = s.lane := rfl
@[simp] theorem State.setTrk_grp (s : State) (n : Nat) (x : Trk) : (s.setTrk n x).grp = s.grp := rfl
@[simp] theorem State.setTrk_flt (s : State) (n : Nat) (x : Trk) : (s.setTrk n x).flt = s.flt := rfl
@[simp] theorem State.setTrk_caps (s : State) (n : Nat) (x : Trk) : (s.setTrk n x).caps = s.caps := rfl
@[simp] theorem State.setTrk_readData (s : State) (n : Nat) (x : Trk) : (s.setTrk n x).readData = s.readData := rfl
@[simp] theorem State.setTrk_frameData (s : State) (n : Nat) (x : Trk) : (s.setTrk n x).frameData = s.frameData := rfl
@[simp] theorem State.setTrk_freeCtr (s : State) (n : Nat) (x : Trk) : (s.setTrk n x).freeCtr = s.freeCtr := rfl
@[simp] theorem State.setTrk_rd (s : State) (n : Nat) (x : Trk) (o : Nat) : (s.setTrk n x).rd o = s.rd o := rfl
@[simp] theorem State.setTrk_get (s : State) (n : Nat) (x : Trk) (g : RF) : (s.setTrk n x).get g = s.get g := rfl

/-! ## setFrame -/

@[simp] theorem State.setFrame_pending (s : State) (a : Nat) (x : Frame) : (s.setFrame a x).pending = s.pending := rfl
@[simp] theorem State.setFrame_mode (s : State) (a : Nat) (x : Frame) : (s.setFrame a x).mode = s.mode := rfl
@[simp] theorem State.setFrame_regs (s : State) (a : Nat) (x : Frame) : (s.setFrame a x).regs = s.regs := rfl
@[simp] theorem State.setFrame_fuses (s : State) (a : Nat) (x : Frame) : (s.setFrame a x).fuses = s.fuses := rfl
@[simp] theorem State.setFrame_nor (s : State) (a : Nat) (x : Frame) : (s.setFrame a x).nor = s.nor := rfl
@[simp] theorem State.setFrame_norSize (s : State) (a : Nat) (x : Frame) : (s.setFrame a x).norSize = s.norSize := rfl
@[simp] theorem State.setFrame_units (s : State) (a : Nat) (x : Frame) : (s.setFrame a x).units = s.units := rfl
@[simp] theorem State.setFrame_log (s : State) (a : Nat) (x : Frame) : (s.setFrame a x).log = s.log := rfl
@[simp] theorem State.setFrame_evtLast (s : State) (a : Nat) (x : Frame) : (s.setFrame a x).evtLast = s.evtLast := rfl
@[simp] theorem State.setFrame_con (s : State) (a : Nat) (x : Frame) : (s.setFrame a x).con = s.con := rfl
@[simp] theorem State.setFrame_hif (s : State) (a : Nat) (x : Frame) : (s.setFrame a x).hif = s.hif := rfl
@[simp] theorem State.setFrame_ldr (s : State) (a : Nat) (x : Frame) : (s.setFrame a x).ldr = s.ldr := rfl
@[simp] theorem State.setFrame_cad (s : State) (a : Nat) (x : Frame) : (s.setFrame a x).cad = s.cad := rfl
@[simp] theorem State.setFrame_fab (s : State) (a : Nat) (x : Frame) : (s.setFrame a x).fab = { s.fab with frames := SMap.set (fun _ => 0) s.fab.frames a x } := rfl
@[simp] theorem State.setFrame_xq (s : State) (a : Nat) (x : Frame) : (s.setFrame a x).xq = s.xq := rfl
@[simp] theorem State.setFrame_evx (s : State) (a : Nat) (x : Frame) : (s.setFrame a x).evx = s.evx := rfl
@[simp] theorem State.setFrame_clk (s : State) (a : Nat) (x : Frame) : (s.setFrame a x).clk = s.clk := rfl
@[simp] theorem State.setFrame_spk (s : State) (a : Nat) (x : Frame) : (s.setFrame a x).spk = s.spk := rfl
@[simp] theorem State.setFrame_adc (s : State) (a : Nat) (x : Frame) : (s.setFrame a x).adc = s.adc := rfl
@[simp] theorem State.setFrame_pwr (s : State) (a : Nat) (x : Frame) : (s.setFrame a x).pwr = s.pwr := rfl
@[simp] theorem State.setFrame_pins (s : State) (a : Nat) (x : Frame) : (s.setFrame a x).pins = s.pins := rfl
@[simp] theorem State.setFrame_pel (s : State) (a : Nat) (x : Frame) : (s.setFrame a x).pel = s.pel := rfl
@[simp] theorem State.setFrame_lane (s : State) (a : Nat) (x : Frame) : (s.setFrame a x).lane = s.lane := rfl
@[simp] theorem State.setFrame_grp (s : State) (a : Nat) (x : Frame) : (s.setFrame a x).grp = s.grp := rfl
@[simp] theorem State.setFrame_flt (s : State) (a : Nat) (x : Frame) : (s.setFrame a x).flt = s.flt := rfl
@[simp] theorem State.setFrame_caps (s : State) (a : Nat) (x : Frame) : (s.setFrame a x).caps = s.caps := rfl
@[simp] theorem State.setFrame_readData (s : State) (a : Nat) (x : Frame) : (s.setFrame a x).readData = s.readData := rfl
@[simp] theorem State.setFrame_frameData (s : State) (a : Nat) (x : Frame) : (s.setFrame a x).frameData = s.frameData := rfl
@[simp] theorem State.setFrame_freeCtr (s : State) (a : Nat) (x : Frame) : (s.setFrame a x).freeCtr = s.freeCtr := rfl
@[simp] theorem State.setFrame_rd (s : State) (a : Nat) (x : Frame) (o : Nat) : (s.setFrame a x).rd o = s.rd o := rfl
@[simp] theorem State.setFrame_get (s : State) (a : Nat) (x : Frame) (g : RF) : (s.setFrame a x).get g = s.get g := rfl

/-! ## setNode -/

@[simp] theorem State.setNode_pending (s : State) (y : Src) (x : Node) : (s.setNode y x).pending = s.pending := rfl
@[simp] theorem State.setNode_mode (s : State) (y : Src) (x : Node) : (s.setNode y x).mode = s.mode := rfl
@[simp] theorem State.setNode_regs (s : State) (y : Src) (x : Node) : (s.setNode y x).regs = s.regs := rfl
@[simp] theorem State.setNode_fuses (s : State) (y : Src) (x : Node) : (s.setNode y x).fuses = s.fuses := rfl
@[simp] theorem State.setNode_nor (s : State) (y : Src) (x : Node) : (s.setNode y x).nor = s.nor := rfl
@[simp] theorem State.setNode_norSize (s : State) (y : Src) (x : Node) : (s.setNode y x).norSize = s.norSize := rfl
@[simp] theorem State.setNode_units (s : State) (y : Src) (x : Node) : (s.setNode y x).units = s.units := rfl
@[simp] theorem State.setNode_log (s : State) (y : Src) (x : Node) : (s.setNode y x).log = s.log := rfl
@[simp] theorem State.setNode_evtLast (s : State) (y : Src) (x : Node) : (s.setNode y x).evtLast = s.evtLast := rfl
@[simp] theorem State.setNode_con (s : State) (y : Src) (x : Node) : (s.setNode y x).con = s.con := rfl
@[simp] theorem State.setNode_hif (s : State) (y : Src) (x : Node) : (s.setNode y x).hif = s.hif := rfl
@[simp] theorem State.setNode_ldr (s : State) (y : Src) (x : Node) : (s.setNode y x).ldr = s.ldr := rfl
@[simp] theorem State.setNode_cad (s : State) (y : Src) (x : Node) : (s.setNode y x).cad = s.cad := rfl
@[simp] theorem State.setNode_fab (s : State) (y : Src) (x : Node) : (s.setNode y x).fab = { s.fab with nodes := SMap.set (fun _ => none) s.fab.nodes y.key (some x) } := rfl
@[simp] theorem State.setNode_xq (s : State) (y : Src) (x : Node) : (s.setNode y x).xq = s.xq := rfl
@[simp] theorem State.setNode_evx (s : State) (y : Src) (x : Node) : (s.setNode y x).evx = s.evx := rfl
@[simp] theorem State.setNode_clk (s : State) (y : Src) (x : Node) : (s.setNode y x).clk = s.clk := rfl
@[simp] theorem State.setNode_spk (s : State) (y : Src) (x : Node) : (s.setNode y x).spk = s.spk := rfl
@[simp] theorem State.setNode_adc (s : State) (y : Src) (x : Node) : (s.setNode y x).adc = s.adc := rfl
@[simp] theorem State.setNode_pwr (s : State) (y : Src) (x : Node) : (s.setNode y x).pwr = s.pwr := rfl
@[simp] theorem State.setNode_pins (s : State) (y : Src) (x : Node) : (s.setNode y x).pins = s.pins := rfl
@[simp] theorem State.setNode_pel (s : State) (y : Src) (x : Node) : (s.setNode y x).pel = s.pel := rfl
@[simp] theorem State.setNode_lane (s : State) (y : Src) (x : Node) : (s.setNode y x).lane = s.lane := rfl
@[simp] theorem State.setNode_grp (s : State) (y : Src) (x : Node) : (s.setNode y x).grp = s.grp := rfl
@[simp] theorem State.setNode_flt (s : State) (y : Src) (x : Node) : (s.setNode y x).flt = s.flt := rfl
@[simp] theorem State.setNode_caps (s : State) (y : Src) (x : Node) : (s.setNode y x).caps = s.caps := rfl
@[simp] theorem State.setNode_readData (s : State) (y : Src) (x : Node) : (s.setNode y x).readData = s.readData := rfl
@[simp] theorem State.setNode_frameData (s : State) (y : Src) (x : Node) : (s.setNode y x).frameData = s.frameData := rfl
@[simp] theorem State.setNode_freeCtr (s : State) (y : Src) (x : Node) : (s.setNode y x).freeCtr = s.freeCtr := rfl
@[simp] theorem State.setNode_rd (s : State) (y : Src) (x : Node) (o : Nat) : (s.setNode y x).rd o = s.rd o := rfl
@[simp] theorem State.setNode_get (s : State) (y : Src) (x : Node) (g : RF) : (s.setNode y x).get g = s.get g := rfl

/-! ## setJoined -/

@[simp] theorem State.setJoined_pending (s : State) (t : Tile) (l : List Dst) : (s.setJoined t l).pending = s.pending := rfl
@[simp] theorem State.setJoined_mode (s : State) (t : Tile) (l : List Dst) : (s.setJoined t l).mode = s.mode := rfl
@[simp] theorem State.setJoined_regs (s : State) (t : Tile) (l : List Dst) : (s.setJoined t l).regs = s.regs := rfl
@[simp] theorem State.setJoined_fuses (s : State) (t : Tile) (l : List Dst) : (s.setJoined t l).fuses = s.fuses := rfl
@[simp] theorem State.setJoined_nor (s : State) (t : Tile) (l : List Dst) : (s.setJoined t l).nor = s.nor := rfl
@[simp] theorem State.setJoined_norSize (s : State) (t : Tile) (l : List Dst) : (s.setJoined t l).norSize = s.norSize := rfl
@[simp] theorem State.setJoined_units (s : State) (t : Tile) (l : List Dst) : (s.setJoined t l).units = s.units := rfl
@[simp] theorem State.setJoined_log (s : State) (t : Tile) (l : List Dst) : (s.setJoined t l).log = s.log := rfl
@[simp] theorem State.setJoined_evtLast (s : State) (t : Tile) (l : List Dst) : (s.setJoined t l).evtLast = s.evtLast := rfl
@[simp] theorem State.setJoined_con (s : State) (t : Tile) (l : List Dst) : (s.setJoined t l).con = s.con := rfl
@[simp] theorem State.setJoined_hif (s : State) (t : Tile) (l : List Dst) : (s.setJoined t l).hif = s.hif := rfl
@[simp] theorem State.setJoined_ldr (s : State) (t : Tile) (l : List Dst) : (s.setJoined t l).ldr = s.ldr := rfl
@[simp] theorem State.setJoined_cad (s : State) (t : Tile) (l : List Dst) : (s.setJoined t l).cad = s.cad := rfl
@[simp] theorem State.setJoined_fab (s : State) (t : Tile) (l : List Dst) : (s.setJoined t l).fab = { s.fab with joined := SMap.set (fun _ => []) s.fab.joined (t.n * 8192 + t.idx) l } := rfl
@[simp] theorem State.setJoined_xq (s : State) (t : Tile) (l : List Dst) : (s.setJoined t l).xq = s.xq := rfl
@[simp] theorem State.setJoined_evx (s : State) (t : Tile) (l : List Dst) : (s.setJoined t l).evx = s.evx := rfl
@[simp] theorem State.setJoined_clk (s : State) (t : Tile) (l : List Dst) : (s.setJoined t l).clk = s.clk := rfl
@[simp] theorem State.setJoined_spk (s : State) (t : Tile) (l : List Dst) : (s.setJoined t l).spk = s.spk := rfl
@[simp] theorem State.setJoined_adc (s : State) (t : Tile) (l : List Dst) : (s.setJoined t l).adc = s.adc := rfl
@[simp] theorem State.setJoined_pwr (s : State) (t : Tile) (l : List Dst) : (s.setJoined t l).pwr = s.pwr := rfl
@[simp] theorem State.setJoined_pins (s : State) (t : Tile) (l : List Dst) : (s.setJoined t l).pins = s.pins := rfl
@[simp] theorem State.setJoined_pel (s : State) (t : Tile) (l : List Dst) : (s.setJoined t l).pel = s.pel := rfl
@[simp] theorem State.setJoined_lane (s : State) (t : Tile) (l : List Dst) : (s.setJoined t l).lane = s.lane := rfl
@[simp] theorem State.setJoined_grp (s : State) (t : Tile) (l : List Dst) : (s.setJoined t l).grp = s.grp := rfl
@[simp] theorem State.setJoined_flt (s : State) (t : Tile) (l : List Dst) : (s.setJoined t l).flt = s.flt := rfl
@[simp] theorem State.setJoined_caps (s : State) (t : Tile) (l : List Dst) : (s.setJoined t l).caps = s.caps := rfl
@[simp] theorem State.setJoined_readData (s : State) (t : Tile) (l : List Dst) : (s.setJoined t l).readData = s.readData := rfl
@[simp] theorem State.setJoined_frameData (s : State) (t : Tile) (l : List Dst) : (s.setJoined t l).frameData = s.frameData := rfl
@[simp] theorem State.setJoined_freeCtr (s : State) (t : Tile) (l : List Dst) : (s.setJoined t l).freeCtr = s.freeCtr := rfl
@[simp] theorem State.setJoined_rd (s : State) (t : Tile) (l : List Dst) (o : Nat) : (s.setJoined t l).rd o = s.rd o := rfl
@[simp] theorem State.setJoined_get (s : State) (t : Tile) (l : List Dst) (g : RF) : (s.setJoined t l).get g = s.get g := rfl

/-! ## setSlice -/

@[simp] theorem State.setSlice_pending (s : State) (n c sl : Nat) (x : SliceSt) : (s.setSlice n c sl x).pending = s.pending := rfl
@[simp] theorem State.setSlice_mode (s : State) (n c sl : Nat) (x : SliceSt) : (s.setSlice n c sl x).mode = s.mode := rfl
@[simp] theorem State.setSlice_regs (s : State) (n c sl : Nat) (x : SliceSt) : (s.setSlice n c sl x).regs = s.regs := rfl
@[simp] theorem State.setSlice_fuses (s : State) (n c sl : Nat) (x : SliceSt) : (s.setSlice n c sl x).fuses = s.fuses := rfl
@[simp] theorem State.setSlice_nor (s : State) (n c sl : Nat) (x : SliceSt) : (s.setSlice n c sl x).nor = s.nor := rfl
@[simp] theorem State.setSlice_norSize (s : State) (n c sl : Nat) (x : SliceSt) : (s.setSlice n c sl x).norSize = s.norSize := rfl
@[simp] theorem State.setSlice_units (s : State) (n c sl : Nat) (x : SliceSt) : (s.setSlice n c sl x).units = s.units := rfl
@[simp] theorem State.setSlice_log (s : State) (n c sl : Nat) (x : SliceSt) : (s.setSlice n c sl x).log = s.log := rfl
@[simp] theorem State.setSlice_evtLast (s : State) (n c sl : Nat) (x : SliceSt) : (s.setSlice n c sl x).evtLast = s.evtLast := rfl
@[simp] theorem State.setSlice_con (s : State) (n c sl : Nat) (x : SliceSt) : (s.setSlice n c sl x).con = s.con := rfl
@[simp] theorem State.setSlice_hif (s : State) (n c sl : Nat) (x : SliceSt) : (s.setSlice n c sl x).hif = s.hif := rfl
@[simp] theorem State.setSlice_ldr (s : State) (n c sl : Nat) (x : SliceSt) : (s.setSlice n c sl x).ldr = s.ldr := rfl
@[simp] theorem State.setSlice_cad (s : State) (n c sl : Nat) (x : SliceSt) : (s.setSlice n c sl x).cad = s.cad := rfl
@[simp] theorem State.setSlice_fab (s : State) (n c sl : Nat) (x : SliceSt) : (s.setSlice n c sl x).fab = { s.fab with slices := SMap.set (fun _ => none) s.fab.slices (sliceKey n c sl) (some x) } := rfl
@[simp] theorem State.setSlice_xq (s : State) (n c sl : Nat) (x : SliceSt) : (s.setSlice n c sl x).xq = s.xq := rfl
@[simp] theorem State.setSlice_evx (s : State) (n c sl : Nat) (x : SliceSt) : (s.setSlice n c sl x).evx = s.evx := rfl
@[simp] theorem State.setSlice_clk (s : State) (n c sl : Nat) (x : SliceSt) : (s.setSlice n c sl x).clk = s.clk := rfl
@[simp] theorem State.setSlice_spk (s : State) (n c sl : Nat) (x : SliceSt) : (s.setSlice n c sl x).spk = s.spk := rfl
@[simp] theorem State.setSlice_adc (s : State) (n c sl : Nat) (x : SliceSt) : (s.setSlice n c sl x).adc = s.adc := rfl
@[simp] theorem State.setSlice_pwr (s : State) (n c sl : Nat) (x : SliceSt) : (s.setSlice n c sl x).pwr = s.pwr := rfl
@[simp] theorem State.setSlice_pins (s : State) (n c sl : Nat) (x : SliceSt) : (s.setSlice n c sl x).pins = s.pins := rfl
@[simp] theorem State.setSlice_pel (s : State) (n c sl : Nat) (x : SliceSt) : (s.setSlice n c sl x).pel = s.pel := rfl
@[simp] theorem State.setSlice_lane (s : State) (n c sl : Nat) (x : SliceSt) : (s.setSlice n c sl x).lane = s.lane := rfl
@[simp] theorem State.setSlice_grp (s : State) (n c sl : Nat) (x : SliceSt) : (s.setSlice n c sl x).grp = s.grp := rfl
@[simp] theorem State.setSlice_flt (s : State) (n c sl : Nat) (x : SliceSt) : (s.setSlice n c sl x).flt = s.flt := rfl
@[simp] theorem State.setSlice_caps (s : State) (n c sl : Nat) (x : SliceSt) : (s.setSlice n c sl x).caps = s.caps := rfl
@[simp] theorem State.setSlice_readData (s : State) (n c sl : Nat) (x : SliceSt) : (s.setSlice n c sl x).readData = s.readData := rfl
@[simp] theorem State.setSlice_frameData (s : State) (n c sl : Nat) (x : SliceSt) : (s.setSlice n c sl x).frameData = s.frameData := rfl
@[simp] theorem State.setSlice_freeCtr (s : State) (n c sl : Nat) (x : SliceSt) : (s.setSlice n c sl x).freeCtr = s.freeCtr := rfl
@[simp] theorem State.setSlice_rd (s : State) (n c sl : Nat) (x : SliceSt) (o : Nat) : (s.setSlice n c sl x).rd o = s.rd o := rfl
@[simp] theorem State.setSlice_get (s : State) (n c sl : Nat) (x : SliceSt) (g : RF) : (s.setSlice n c sl x).get g = s.get g := rfl

/-! ## setSide -/

@[simp] theorem State.setSide_pending (s : State) (n j : Nat) (l : List Nat) : (s.setSide n j l).pending = s.pending := rfl
@[simp] theorem State.setSide_mode (s : State) (n j : Nat) (l : List Nat) : (s.setSide n j l).mode = s.mode := rfl
@[simp] theorem State.setSide_regs (s : State) (n j : Nat) (l : List Nat) : (s.setSide n j l).regs = s.regs := rfl
@[simp] theorem State.setSide_fuses (s : State) (n j : Nat) (l : List Nat) : (s.setSide n j l).fuses = s.fuses := rfl
@[simp] theorem State.setSide_nor (s : State) (n j : Nat) (l : List Nat) : (s.setSide n j l).nor = s.nor := rfl
@[simp] theorem State.setSide_norSize (s : State) (n j : Nat) (l : List Nat) : (s.setSide n j l).norSize = s.norSize := rfl
@[simp] theorem State.setSide_units (s : State) (n j : Nat) (l : List Nat) : (s.setSide n j l).units = s.units := rfl
@[simp] theorem State.setSide_log (s : State) (n j : Nat) (l : List Nat) : (s.setSide n j l).log = s.log := rfl
@[simp] theorem State.setSide_evtLast (s : State) (n j : Nat) (l : List Nat) : (s.setSide n j l).evtLast = s.evtLast := rfl
@[simp] theorem State.setSide_con (s : State) (n j : Nat) (l : List Nat) : (s.setSide n j l).con = s.con := rfl
@[simp] theorem State.setSide_hif (s : State) (n j : Nat) (l : List Nat) : (s.setSide n j l).hif = s.hif := rfl
@[simp] theorem State.setSide_ldr (s : State) (n j : Nat) (l : List Nat) : (s.setSide n j l).ldr = s.ldr := rfl
@[simp] theorem State.setSide_cad (s : State) (n j : Nat) (l : List Nat) : (s.setSide n j l).cad = s.cad := rfl
@[simp] theorem State.setSide_fab (s : State) (n j : Nat) (l : List Nat) : (s.setSide n j l).fab = { s.fab with side := SMap.set (fun _ => []) s.fab.side (n * 64 + j) l } := rfl
@[simp] theorem State.setSide_xq (s : State) (n j : Nat) (l : List Nat) : (s.setSide n j l).xq = s.xq := rfl
@[simp] theorem State.setSide_evx (s : State) (n j : Nat) (l : List Nat) : (s.setSide n j l).evx = s.evx := rfl
@[simp] theorem State.setSide_clk (s : State) (n j : Nat) (l : List Nat) : (s.setSide n j l).clk = s.clk := rfl
@[simp] theorem State.setSide_spk (s : State) (n j : Nat) (l : List Nat) : (s.setSide n j l).spk = s.spk := rfl
@[simp] theorem State.setSide_adc (s : State) (n j : Nat) (l : List Nat) : (s.setSide n j l).adc = s.adc := rfl
@[simp] theorem State.setSide_pwr (s : State) (n j : Nat) (l : List Nat) : (s.setSide n j l).pwr = s.pwr := rfl
@[simp] theorem State.setSide_pins (s : State) (n j : Nat) (l : List Nat) : (s.setSide n j l).pins = s.pins := rfl
@[simp] theorem State.setSide_pel (s : State) (n j : Nat) (l : List Nat) : (s.setSide n j l).pel = s.pel := rfl
@[simp] theorem State.setSide_lane (s : State) (n j : Nat) (l : List Nat) : (s.setSide n j l).lane = s.lane := rfl
@[simp] theorem State.setSide_grp (s : State) (n j : Nat) (l : List Nat) : (s.setSide n j l).grp = s.grp := rfl
@[simp] theorem State.setSide_flt (s : State) (n j : Nat) (l : List Nat) : (s.setSide n j l).flt = s.flt := rfl
@[simp] theorem State.setSide_caps (s : State) (n j : Nat) (l : List Nat) : (s.setSide n j l).caps = s.caps := rfl
@[simp] theorem State.setSide_readData (s : State) (n j : Nat) (l : List Nat) : (s.setSide n j l).readData = s.readData := rfl
@[simp] theorem State.setSide_frameData (s : State) (n j : Nat) (l : List Nat) : (s.setSide n j l).frameData = s.frameData := rfl
@[simp] theorem State.setSide_freeCtr (s : State) (n j : Nat) (l : List Nat) : (s.setSide n j l).freeCtr = s.freeCtr := rfl
@[simp] theorem State.setSide_rd (s : State) (n j : Nat) (l : List Nat) (o : Nat) : (s.setSide n j l).rd o = s.rd o := rfl
@[simp] theorem State.setSide_get (s : State) (n j : Nat) (l : List Nat) (g : RF) : (s.setSide n j l).get g = s.get g := rfl

/-! ## setXq -/

@[simp] theorem State.setXq_pending (s : State) (n : Nat) (x : Xq) : (s.setXq n x).pending = s.pending := rfl
@[simp] theorem State.setXq_mode (s : State) (n : Nat) (x : Xq) : (s.setXq n x).mode = s.mode := rfl
@[simp] theorem State.setXq_regs (s : State) (n : Nat) (x : Xq) : (s.setXq n x).regs = s.regs := rfl
@[simp] theorem State.setXq_fuses (s : State) (n : Nat) (x : Xq) : (s.setXq n x).fuses = s.fuses := rfl
@[simp] theorem State.setXq_nor (s : State) (n : Nat) (x : Xq) : (s.setXq n x).nor = s.nor := rfl
@[simp] theorem State.setXq_norSize (s : State) (n : Nat) (x : Xq) : (s.setXq n x).norSize = s.norSize := rfl
@[simp] theorem State.setXq_units (s : State) (n : Nat) (x : Xq) : (s.setXq n x).units = s.units := rfl
@[simp] theorem State.setXq_log (s : State) (n : Nat) (x : Xq) : (s.setXq n x).log = s.log := rfl
@[simp] theorem State.setXq_evtLast (s : State) (n : Nat) (x : Xq) : (s.setXq n x).evtLast = s.evtLast := rfl
@[simp] theorem State.setXq_con (s : State) (n : Nat) (x : Xq) : (s.setXq n x).con = s.con := rfl
@[simp] theorem State.setXq_hif (s : State) (n : Nat) (x : Xq) : (s.setXq n x).hif = s.hif := rfl
@[simp] theorem State.setXq_ldr (s : State) (n : Nat) (x : Xq) : (s.setXq n x).ldr = s.ldr := rfl
@[simp] theorem State.setXq_cad (s : State) (n : Nat) (x : Xq) : (s.setXq n x).cad = s.cad := rfl
@[simp] theorem State.setXq_fab (s : State) (n : Nat) (x : Xq) : (s.setXq n x).fab = s.fab := rfl
@[simp] theorem State.setXq_xq (s : State) (n : Nat) (x : Xq) : (s.setXq n x).xq = SMap.set (fun _ => {}) s.xq n x := rfl
@[simp] theorem State.setXq_evx (s : State) (n : Nat) (x : Xq) : (s.setXq n x).evx = s.evx := rfl
@[simp] theorem State.setXq_clk (s : State) (n : Nat) (x : Xq) : (s.setXq n x).clk = s.clk := rfl
@[simp] theorem State.setXq_spk (s : State) (n : Nat) (x : Xq) : (s.setXq n x).spk = s.spk := rfl
@[simp] theorem State.setXq_adc (s : State) (n : Nat) (x : Xq) : (s.setXq n x).adc = s.adc := rfl
@[simp] theorem State.setXq_pwr (s : State) (n : Nat) (x : Xq) : (s.setXq n x).pwr = s.pwr := rfl
@[simp] theorem State.setXq_pins (s : State) (n : Nat) (x : Xq) : (s.setXq n x).pins = s.pins := rfl
@[simp] theorem State.setXq_pel (s : State) (n : Nat) (x : Xq) : (s.setXq n x).pel = s.pel := rfl
@[simp] theorem State.setXq_lane (s : State) (n : Nat) (x : Xq) : (s.setXq n x).lane = s.lane := rfl
@[simp] theorem State.setXq_grp (s : State) (n : Nat) (x : Xq) : (s.setXq n x).grp = s.grp := rfl
@[simp] theorem State.setXq_flt (s : State) (n : Nat) (x : Xq) : (s.setXq n x).flt = s.flt := rfl
@[simp] theorem State.setXq_caps (s : State) (n : Nat) (x : Xq) : (s.setXq n x).caps = s.caps := rfl
@[simp] theorem State.setXq_readData (s : State) (n : Nat) (x : Xq) : (s.setXq n x).readData = s.readData := rfl
@[simp] theorem State.setXq_frameData (s : State) (n : Nat) (x : Xq) : (s.setXq n x).frameData = s.frameData := rfl
@[simp] theorem State.setXq_freeCtr (s : State) (n : Nat) (x : Xq) : (s.setXq n x).freeCtr = s.freeCtr := rfl
@[simp] theorem State.setXq_rd (s : State) (n : Nat) (x : Xq) (o : Nat) : (s.setXq n x).rd o = s.rd o := rfl
@[simp] theorem State.setXq_get (s : State) (n : Nat) (x : Xq) (g : RF) : (s.setXq n x).get g = s.get g := rfl

/-! ## setEvLine -/

@[simp] theorem State.setEvLine_pending (s : State) (n k : Nat) (x : EvLine) : (s.setEvLine n k x).pending = s.pending := rfl
@[simp] theorem State.setEvLine_mode (s : State) (n k : Nat) (x : EvLine) : (s.setEvLine n k x).mode = s.mode := rfl
@[simp] theorem State.setEvLine_regs (s : State) (n k : Nat) (x : EvLine) : (s.setEvLine n k x).regs = s.regs := rfl
@[simp] theorem State.setEvLine_fuses (s : State) (n k : Nat) (x : EvLine) : (s.setEvLine n k x).fuses = s.fuses := rfl
@[simp] theorem State.setEvLine_nor (s : State) (n k : Nat) (x : EvLine) : (s.setEvLine n k x).nor = s.nor := rfl
@[simp] theorem State.setEvLine_norSize (s : State) (n k : Nat) (x : EvLine) : (s.setEvLine n k x).norSize = s.norSize := rfl
@[simp] theorem State.setEvLine_units (s : State) (n k : Nat) (x : EvLine) : (s.setEvLine n k x).units = s.units := rfl
@[simp] theorem State.setEvLine_log (s : State) (n k : Nat) (x : EvLine) : (s.setEvLine n k x).log = s.log := rfl
@[simp] theorem State.setEvLine_evtLast (s : State) (n k : Nat) (x : EvLine) : (s.setEvLine n k x).evtLast = s.evtLast := rfl
@[simp] theorem State.setEvLine_con (s : State) (n k : Nat) (x : EvLine) : (s.setEvLine n k x).con = s.con := rfl
@[simp] theorem State.setEvLine_hif (s : State) (n k : Nat) (x : EvLine) : (s.setEvLine n k x).hif = s.hif := rfl
@[simp] theorem State.setEvLine_ldr (s : State) (n k : Nat) (x : EvLine) : (s.setEvLine n k x).ldr = s.ldr := rfl
@[simp] theorem State.setEvLine_cad (s : State) (n k : Nat) (x : EvLine) : (s.setEvLine n k x).cad = s.cad := rfl
@[simp] theorem State.setEvLine_fab (s : State) (n k : Nat) (x : EvLine) : (s.setEvLine n k x).fab = s.fab := rfl
@[simp] theorem State.setEvLine_xq (s : State) (n k : Nat) (x : EvLine) : (s.setEvLine n k x).xq = s.xq := rfl
@[simp] theorem State.setEvLine_evx (s : State) (n k : Nat) (x : EvLine) : (s.setEvLine n k x).evx = SMap.set (fun _ => {}) s.evx (n * 16 + k) x := rfl
@[simp] theorem State.setEvLine_clk (s : State) (n k : Nat) (x : EvLine) : (s.setEvLine n k x).clk = s.clk := rfl
@[simp] theorem State.setEvLine_spk (s : State) (n k : Nat) (x : EvLine) : (s.setEvLine n k x).spk = s.spk := rfl
@[simp] theorem State.setEvLine_adc (s : State) (n k : Nat) (x : EvLine) : (s.setEvLine n k x).adc = s.adc := rfl
@[simp] theorem State.setEvLine_pwr (s : State) (n k : Nat) (x : EvLine) : (s.setEvLine n k x).pwr = s.pwr := rfl
@[simp] theorem State.setEvLine_pins (s : State) (n k : Nat) (x : EvLine) : (s.setEvLine n k x).pins = s.pins := rfl
@[simp] theorem State.setEvLine_pel (s : State) (n k : Nat) (x : EvLine) : (s.setEvLine n k x).pel = s.pel := rfl
@[simp] theorem State.setEvLine_lane (s : State) (n k : Nat) (x : EvLine) : (s.setEvLine n k x).lane = s.lane := rfl
@[simp] theorem State.setEvLine_grp (s : State) (n k : Nat) (x : EvLine) : (s.setEvLine n k x).grp = s.grp := rfl
@[simp] theorem State.setEvLine_flt (s : State) (n k : Nat) (x : EvLine) : (s.setEvLine n k x).flt = s.flt := rfl
@[simp] theorem State.setEvLine_caps (s : State) (n k : Nat) (x : EvLine) : (s.setEvLine n k x).caps = s.caps := rfl
@[simp] theorem State.setEvLine_readData (s : State) (n k : Nat) (x : EvLine) : (s.setEvLine n k x).readData = s.readData := rfl
@[simp] theorem State.setEvLine_frameData (s : State) (n k : Nat) (x : EvLine) : (s.setEvLine n k x).frameData = s.frameData := rfl
@[simp] theorem State.setEvLine_freeCtr (s : State) (n k : Nat) (x : EvLine) : (s.setEvLine n k x).freeCtr = s.freeCtr := rfl
@[simp] theorem State.setEvLine_rd (s : State) (n k : Nat) (x : EvLine) (o : Nat) : (s.setEvLine n k x).rd o = s.rd o := rfl
@[simp] theorem State.setEvLine_get (s : State) (n k : Nat) (x : EvLine) (g : RF) : (s.setEvLine n k x).get g = s.get g := rfl

/-! ## setClk -/

@[simp] theorem State.setClk_pending (s : State) (x : Clk) : (s.setClk x).pending = s.pending := rfl
@[simp] theorem State.setClk_mode (s : State) (x : Clk) : (s.setClk x).mode = s.mode := rfl
@[simp] theorem State.setClk_regs (s : State) (x : Clk) : (s.setClk x).regs = s.regs := rfl
@[simp] theorem State.setClk_fuses (s : State) (x : Clk) : (s.setClk x).fuses = s.fuses := rfl
@[simp] theorem State.setClk_nor (s : State) (x : Clk) : (s.setClk x).nor = s.nor := rfl
@[simp] theorem State.setClk_norSize (s : State) (x : Clk) : (s.setClk x).norSize = s.norSize := rfl
@[simp] theorem State.setClk_units (s : State) (x : Clk) : (s.setClk x).units = s.units := rfl
@[simp] theorem State.setClk_log (s : State) (x : Clk) : (s.setClk x).log = s.log := rfl
@[simp] theorem State.setClk_evtLast (s : State) (x : Clk) : (s.setClk x).evtLast = s.evtLast := rfl
@[simp] theorem State.setClk_con (s : State) (x : Clk) : (s.setClk x).con = s.con := rfl
@[simp] theorem State.setClk_hif (s : State) (x : Clk) : (s.setClk x).hif = s.hif := rfl
@[simp] theorem State.setClk_ldr (s : State) (x : Clk) : (s.setClk x).ldr = s.ldr := rfl
@[simp] theorem State.setClk_cad (s : State) (x : Clk) : (s.setClk x).cad = s.cad := rfl
@[simp] theorem State.setClk_fab (s : State) (x : Clk) : (s.setClk x).fab = s.fab := rfl
@[simp] theorem State.setClk_xq (s : State) (x : Clk) : (s.setClk x).xq = s.xq := rfl
@[simp] theorem State.setClk_evx (s : State) (x : Clk) : (s.setClk x).evx = s.evx := rfl
@[simp] theorem State.setClk_clk (s : State) (x : Clk) : (s.setClk x).clk = x := rfl
@[simp] theorem State.setClk_spk (s : State) (x : Clk) : (s.setClk x).spk = s.spk := rfl
@[simp] theorem State.setClk_adc (s : State) (x : Clk) : (s.setClk x).adc = s.adc := rfl
@[simp] theorem State.setClk_pwr (s : State) (x : Clk) : (s.setClk x).pwr = s.pwr := rfl
@[simp] theorem State.setClk_pins (s : State) (x : Clk) : (s.setClk x).pins = s.pins := rfl
@[simp] theorem State.setClk_pel (s : State) (x : Clk) : (s.setClk x).pel = s.pel := rfl
@[simp] theorem State.setClk_lane (s : State) (x : Clk) : (s.setClk x).lane = s.lane := rfl
@[simp] theorem State.setClk_grp (s : State) (x : Clk) : (s.setClk x).grp = s.grp := rfl
@[simp] theorem State.setClk_flt (s : State) (x : Clk) : (s.setClk x).flt = s.flt := rfl
@[simp] theorem State.setClk_caps (s : State) (x : Clk) : (s.setClk x).caps = s.caps := rfl
@[simp] theorem State.setClk_readData (s : State) (x : Clk) : (s.setClk x).readData = s.readData := rfl
@[simp] theorem State.setClk_frameData (s : State) (x : Clk) : (s.setClk x).frameData = s.frameData := rfl
@[simp] theorem State.setClk_freeCtr (s : State) (x : Clk) : (s.setClk x).freeCtr = s.freeCtr := rfl
@[simp] theorem State.setClk_rd (s : State) (x : Clk) (o : Nat) : (s.setClk x).rd o = s.rd o := rfl
@[simp] theorem State.setClk_get (s : State) (x : Clk) (g : RF) : (s.setClk x).get g = s.get g := rfl

/-! ## setClkEv -/

@[simp] theorem State.setClkEv_pending (s : State) (k : Nat) (x : EvLine) : (s.setClkEv k x).pending = s.pending := rfl
@[simp] theorem State.setClkEv_mode (s : State) (k : Nat) (x : EvLine) : (s.setClkEv k x).mode = s.mode := rfl
@[simp] theorem State.setClkEv_regs (s : State) (k : Nat) (x : EvLine) : (s.setClkEv k x).regs = s.regs := rfl
@[simp] theorem State.setClkEv_fuses (s : State) (k : Nat) (x : EvLine) : (s.setClkEv k x).fuses = s.fuses := rfl
@[simp] theorem State.setClkEv_nor (s : State) (k : Nat) (x : EvLine) : (s.setClkEv k x).nor = s.nor := rfl
@[simp] theorem State.setClkEv_norSize (s : State) (k : Nat) (x : EvLine) : (s.setClkEv k x).norSize = s.norSize := rfl
@[simp] theorem State.setClkEv_units (s : State) (k : Nat) (x : EvLine) : (s.setClkEv k x).units = s.units := rfl
@[simp] theorem State.setClkEv_log (s : State) (k : Nat) (x : EvLine) : (s.setClkEv k x).log = s.log := rfl
@[simp] theorem State.setClkEv_evtLast (s : State) (k : Nat) (x : EvLine) : (s.setClkEv k x).evtLast = s.evtLast := rfl
@[simp] theorem State.setClkEv_con (s : State) (k : Nat) (x : EvLine) : (s.setClkEv k x).con = s.con := rfl
@[simp] theorem State.setClkEv_hif (s : State) (k : Nat) (x : EvLine) : (s.setClkEv k x).hif = s.hif := rfl
@[simp] theorem State.setClkEv_ldr (s : State) (k : Nat) (x : EvLine) : (s.setClkEv k x).ldr = s.ldr := rfl
@[simp] theorem State.setClkEv_cad (s : State) (k : Nat) (x : EvLine) : (s.setClkEv k x).cad = s.cad := rfl
@[simp] theorem State.setClkEv_fab (s : State) (k : Nat) (x : EvLine) : (s.setClkEv k x).fab = s.fab := rfl
@[simp] theorem State.setClkEv_xq (s : State) (k : Nat) (x : EvLine) : (s.setClkEv k x).xq = s.xq := rfl
@[simp] theorem State.setClkEv_evx (s : State) (k : Nat) (x : EvLine) : (s.setClkEv k x).evx = s.evx := rfl
@[simp] theorem State.setClkEv_clk (s : State) (k : Nat) (x : EvLine) : (s.setClkEv k x).clk = { s.clk with events := SMap.set (fun _ => {}) s.clk.events k x } := rfl
@[simp] theorem State.setClkEv_spk (s : State) (k : Nat) (x : EvLine) : (s.setClkEv k x).spk = s.spk := rfl
@[simp] theorem State.setClkEv_adc (s : State) (k : Nat) (x : EvLine) : (s.setClkEv k x).adc = s.adc := rfl
@[simp] theorem State.setClkEv_pwr (s : State) (k : Nat) (x : EvLine) : (s.setClkEv k x).pwr = s.pwr := rfl
@[simp] theorem State.setClkEv_pins (s : State) (k : Nat) (x : EvLine) : (s.setClkEv k x).pins = s.pins := rfl
@[simp] theorem State.setClkEv_pel (s : State) (k : Nat) (x : EvLine) : (s.setClkEv k x).pel = s.pel := rfl
@[simp] theorem State.setClkEv_lane (s : State) (k : Nat) (x : EvLine) : (s.setClkEv k x).lane = s.lane := rfl
@[simp] theorem State.setClkEv_grp (s : State) (k : Nat) (x : EvLine) : (s.setClkEv k x).grp = s.grp := rfl
@[simp] theorem State.setClkEv_flt (s : State) (k : Nat) (x : EvLine) : (s.setClkEv k x).flt = s.flt := rfl
@[simp] theorem State.setClkEv_caps (s : State) (k : Nat) (x : EvLine) : (s.setClkEv k x).caps = s.caps := rfl
@[simp] theorem State.setClkEv_readData (s : State) (k : Nat) (x : EvLine) : (s.setClkEv k x).readData = s.readData := rfl
@[simp] theorem State.setClkEv_frameData (s : State) (k : Nat) (x : EvLine) : (s.setClkEv k x).frameData = s.frameData := rfl
@[simp] theorem State.setClkEv_freeCtr (s : State) (k : Nat) (x : EvLine) : (s.setClkEv k x).freeCtr = s.freeCtr := rfl
@[simp] theorem State.setClkEv_rd (s : State) (k : Nat) (x : EvLine) (o : Nat) : (s.setClkEv k x).rd o = s.rd o := rfl
@[simp] theorem State.setClkEv_get (s : State) (k : Nat) (x : EvLine) (g : RF) : (s.setClkEv k x).get g = s.get g := rfl

/-! ## setClkVal -/

@[simp] theorem State.setClkVal_pending (s : State) (k : Nat) (x : ValX) : (s.setClkVal k x).pending = s.pending := rfl
@[simp] theorem State.setClkVal_mode (s : State) (k : Nat) (x : ValX) : (s.setClkVal k x).mode = s.mode := rfl
@[simp] theorem State.setClkVal_regs (s : State) (k : Nat) (x : ValX) : (s.setClkVal k x).regs = s.regs := rfl
@[simp] theorem State.setClkVal_fuses (s : State) (k : Nat) (x : ValX) : (s.setClkVal k x).fuses = s.fuses := rfl
@[simp] theorem State.setClkVal_nor (s : State) (k : Nat) (x : ValX) : (s.setClkVal k x).nor = s.nor := rfl
@[simp] theorem State.setClkVal_norSize (s : State) (k : Nat) (x : ValX) : (s.setClkVal k x).norSize = s.norSize := rfl
@[simp] theorem State.setClkVal_units (s : State) (k : Nat) (x : ValX) : (s.setClkVal k x).units = s.units := rfl
@[simp] theorem State.setClkVal_log (s : State) (k : Nat) (x : ValX) : (s.setClkVal k x).log = s.log := rfl
@[simp] theorem State.setClkVal_evtLast (s : State) (k : Nat) (x : ValX) : (s.setClkVal k x).evtLast = s.evtLast := rfl
@[simp] theorem State.setClkVal_con (s : State) (k : Nat) (x : ValX) : (s.setClkVal k x).con = s.con := rfl
@[simp] theorem State.setClkVal_hif (s : State) (k : Nat) (x : ValX) : (s.setClkVal k x).hif = s.hif := rfl
@[simp] theorem State.setClkVal_ldr (s : State) (k : Nat) (x : ValX) : (s.setClkVal k x).ldr = s.ldr := rfl
@[simp] theorem State.setClkVal_cad (s : State) (k : Nat) (x : ValX) : (s.setClkVal k x).cad = s.cad := rfl
@[simp] theorem State.setClkVal_fab (s : State) (k : Nat) (x : ValX) : (s.setClkVal k x).fab = s.fab := rfl
@[simp] theorem State.setClkVal_xq (s : State) (k : Nat) (x : ValX) : (s.setClkVal k x).xq = s.xq := rfl
@[simp] theorem State.setClkVal_evx (s : State) (k : Nat) (x : ValX) : (s.setClkVal k x).evx = s.evx := rfl
@[simp] theorem State.setClkVal_clk (s : State) (k : Nat) (x : ValX) : (s.setClkVal k x).clk = { s.clk with copies := SMap.set (fun _ => {}) s.clk.copies k x } := rfl
@[simp] theorem State.setClkVal_spk (s : State) (k : Nat) (x : ValX) : (s.setClkVal k x).spk = s.spk := rfl
@[simp] theorem State.setClkVal_adc (s : State) (k : Nat) (x : ValX) : (s.setClkVal k x).adc = s.adc := rfl
@[simp] theorem State.setClkVal_pwr (s : State) (k : Nat) (x : ValX) : (s.setClkVal k x).pwr = s.pwr := rfl
@[simp] theorem State.setClkVal_pins (s : State) (k : Nat) (x : ValX) : (s.setClkVal k x).pins = s.pins := rfl
@[simp] theorem State.setClkVal_pel (s : State) (k : Nat) (x : ValX) : (s.setClkVal k x).pel = s.pel := rfl
@[simp] theorem State.setClkVal_lane (s : State) (k : Nat) (x : ValX) : (s.setClkVal k x).lane = s.lane := rfl
@[simp] theorem State.setClkVal_grp (s : State) (k : Nat) (x : ValX) : (s.setClkVal k x).grp = s.grp := rfl
@[simp] theorem State.setClkVal_flt (s : State) (k : Nat) (x : ValX) : (s.setClkVal k x).flt = s.flt := rfl
@[simp] theorem State.setClkVal_caps (s : State) (k : Nat) (x : ValX) : (s.setClkVal k x).caps = s.caps := rfl
@[simp] theorem State.setClkVal_readData (s : State) (k : Nat) (x : ValX) : (s.setClkVal k x).readData = s.readData := rfl
@[simp] theorem State.setClkVal_frameData (s : State) (k : Nat) (x : ValX) : (s.setClkVal k x).frameData = s.frameData := rfl
@[simp] theorem State.setClkVal_freeCtr (s : State) (k : Nat) (x : ValX) : (s.setClkVal k x).freeCtr = s.freeCtr := rfl
@[simp] theorem State.setClkVal_rd (s : State) (k : Nat) (x : ValX) (o : Nat) : (s.setClkVal k x).rd o = s.rd o := rfl
@[simp] theorem State.setClkVal_get (s : State) (k : Nat) (x : ValX) (g : RF) : (s.setClkVal k x).get g = s.get g := rfl

/-! ## setWdg -/

@[simp] theorem State.setWdg_pending (s : State) (n k : Nat) (w : Wdg) : (s.setWdg n k w).pending = s.pending := rfl
@[simp] theorem State.setWdg_mode (s : State) (n k : Nat) (w : Wdg) : (s.setWdg n k w).mode = s.mode := rfl
@[simp] theorem State.setWdg_regs (s : State) (n k : Nat) (w : Wdg) : (s.setWdg n k w).regs = s.regs := rfl
@[simp] theorem State.setWdg_fuses (s : State) (n k : Nat) (w : Wdg) : (s.setWdg n k w).fuses = s.fuses := rfl
@[simp] theorem State.setWdg_nor (s : State) (n k : Nat) (w : Wdg) : (s.setWdg n k w).nor = s.nor := rfl
@[simp] theorem State.setWdg_norSize (s : State) (n k : Nat) (w : Wdg) : (s.setWdg n k w).norSize = s.norSize := rfl
@[simp] theorem State.setWdg_units (s : State) (n k : Nat) (w : Wdg) : (s.setWdg n k w).units = s.units := rfl
@[simp] theorem State.setWdg_log (s : State) (n k : Nat) (w : Wdg) : (s.setWdg n k w).log = s.log := rfl
@[simp] theorem State.setWdg_evtLast (s : State) (n k : Nat) (w : Wdg) : (s.setWdg n k w).evtLast = s.evtLast := rfl
@[simp] theorem State.setWdg_con (s : State) (n k : Nat) (w : Wdg) : (s.setWdg n k w).con = s.con := rfl
@[simp] theorem State.setWdg_hif (s : State) (n k : Nat) (w : Wdg) : (s.setWdg n k w).hif = s.hif := rfl
@[simp] theorem State.setWdg_ldr (s : State) (n k : Nat) (w : Wdg) : (s.setWdg n k w).ldr = s.ldr := rfl
@[simp] theorem State.setWdg_cad (s : State) (n k : Nat) (w : Wdg) : (s.setWdg n k w).cad = s.cad := rfl
@[simp] theorem State.setWdg_fab (s : State) (n k : Nat) (w : Wdg) : (s.setWdg n k w).fab = { s.fab with wdg := SMap.set (fun _ => {}) s.fab.wdg (n * 32 + k) w } := rfl
@[simp] theorem State.setWdg_xq (s : State) (n k : Nat) (w : Wdg) : (s.setWdg n k w).xq = s.xq := rfl
@[simp] theorem State.setWdg_evx (s : State) (n k : Nat) (w : Wdg) : (s.setWdg n k w).evx = s.evx := rfl
@[simp] theorem State.setWdg_clk (s : State) (n k : Nat) (w : Wdg) : (s.setWdg n k w).clk = s.clk := rfl
@[simp] theorem State.setWdg_spk (s : State) (n k : Nat) (w : Wdg) : (s.setWdg n k w).spk = s.spk := rfl
@[simp] theorem State.setWdg_adc (s : State) (n k : Nat) (w : Wdg) : (s.setWdg n k w).adc = s.adc := rfl
@[simp] theorem State.setWdg_pwr (s : State) (n k : Nat) (w : Wdg) : (s.setWdg n k w).pwr = s.pwr := rfl
@[simp] theorem State.setWdg_pins (s : State) (n k : Nat) (w : Wdg) : (s.setWdg n k w).pins = s.pins := rfl
@[simp] theorem State.setWdg_pel (s : State) (n k : Nat) (w : Wdg) : (s.setWdg n k w).pel = s.pel := rfl
@[simp] theorem State.setWdg_lane (s : State) (n k : Nat) (w : Wdg) : (s.setWdg n k w).lane = s.lane := rfl
@[simp] theorem State.setWdg_grp (s : State) (n k : Nat) (w : Wdg) : (s.setWdg n k w).grp = s.grp := rfl
@[simp] theorem State.setWdg_flt (s : State) (n k : Nat) (w : Wdg) : (s.setWdg n k w).flt = s.flt := rfl
@[simp] theorem State.setWdg_caps (s : State) (n k : Nat) (w : Wdg) : (s.setWdg n k w).caps = s.caps := rfl
@[simp] theorem State.setWdg_readData (s : State) (n k : Nat) (w : Wdg) : (s.setWdg n k w).readData = s.readData := rfl
@[simp] theorem State.setWdg_frameData (s : State) (n k : Nat) (w : Wdg) : (s.setWdg n k w).frameData = s.frameData := rfl
@[simp] theorem State.setWdg_freeCtr (s : State) (n k : Nat) (w : Wdg) : (s.setWdg n k w).freeCtr = s.freeCtr := rfl
@[simp] theorem State.setWdg_rd (s : State) (n k : Nat) (w : Wdg) (o : Nat) : (s.setWdg n k w).rd o = s.rd o := rfl
@[simp] theorem State.setWdg_get (s : State) (n k : Nat) (w : Wdg) (g : RF) : (s.setWdg n k w).get g = s.get g := rfl

/-! ## setSpk -/

@[simp] theorem State.setSpk_pending (s : State) (n : Nat) (x : Spk) : (s.setSpk n x).pending = s.pending := rfl
@[simp] theorem State.setSpk_mode (s : State) (n : Nat) (x : Spk) : (s.setSpk n x).mode = s.mode := rfl
@[simp] theorem State.setSpk_regs (s : State) (n : Nat) (x : Spk) : (s.setSpk n x).regs = s.regs := rfl
@[simp] theorem State.setSpk_fuses (s : State) (n : Nat) (x : Spk) : (s.setSpk n x).fuses = s.fuses := rfl
@[simp] theorem State.setSpk_nor (s : State) (n : Nat) (x : Spk) : (s.setSpk n x).nor = s.nor := rfl
@[simp] theorem State.setSpk_norSize (s : State) (n : Nat) (x : Spk) : (s.setSpk n x).norSize = s.norSize := rfl
@[simp] theorem State.setSpk_units (s : State) (n : Nat) (x : Spk) : (s.setSpk n x).units = s.units := rfl
@[simp] theorem State.setSpk_log (s : State) (n : Nat) (x : Spk) : (s.setSpk n x).log = s.log := rfl
@[simp] theorem State.setSpk_evtLast (s : State) (n : Nat) (x : Spk) : (s.setSpk n x).evtLast = s.evtLast := rfl
@[simp] theorem State.setSpk_con (s : State) (n : Nat) (x : Spk) : (s.setSpk n x).con = s.con := rfl
@[simp] theorem State.setSpk_hif (s : State) (n : Nat) (x : Spk) : (s.setSpk n x).hif = s.hif := rfl
@[simp] theorem State.setSpk_ldr (s : State) (n : Nat) (x : Spk) : (s.setSpk n x).ldr = s.ldr := rfl
@[simp] theorem State.setSpk_cad (s : State) (n : Nat) (x : Spk) : (s.setSpk n x).cad = s.cad := rfl
@[simp] theorem State.setSpk_fab (s : State) (n : Nat) (x : Spk) : (s.setSpk n x).fab = s.fab := rfl
@[simp] theorem State.setSpk_xq (s : State) (n : Nat) (x : Spk) : (s.setSpk n x).xq = s.xq := rfl
@[simp] theorem State.setSpk_evx (s : State) (n : Nat) (x : Spk) : (s.setSpk n x).evx = s.evx := rfl
@[simp] theorem State.setSpk_clk (s : State) (n : Nat) (x : Spk) : (s.setSpk n x).clk = s.clk := rfl
@[simp] theorem State.setSpk_spk (s : State) (n : Nat) (x : Spk) : (s.setSpk n x).spk = SMap.set (fun _ => {}) s.spk n x := rfl
@[simp] theorem State.setSpk_adc (s : State) (n : Nat) (x : Spk) : (s.setSpk n x).adc = s.adc := rfl
@[simp] theorem State.setSpk_pwr (s : State) (n : Nat) (x : Spk) : (s.setSpk n x).pwr = s.pwr := rfl
@[simp] theorem State.setSpk_pins (s : State) (n : Nat) (x : Spk) : (s.setSpk n x).pins = s.pins := rfl
@[simp] theorem State.setSpk_pel (s : State) (n : Nat) (x : Spk) : (s.setSpk n x).pel = s.pel := rfl
@[simp] theorem State.setSpk_lane (s : State) (n : Nat) (x : Spk) : (s.setSpk n x).lane = s.lane := rfl
@[simp] theorem State.setSpk_grp (s : State) (n : Nat) (x : Spk) : (s.setSpk n x).grp = s.grp := rfl
@[simp] theorem State.setSpk_flt (s : State) (n : Nat) (x : Spk) : (s.setSpk n x).flt = s.flt := rfl
@[simp] theorem State.setSpk_caps (s : State) (n : Nat) (x : Spk) : (s.setSpk n x).caps = s.caps := rfl
@[simp] theorem State.setSpk_readData (s : State) (n : Nat) (x : Spk) : (s.setSpk n x).readData = s.readData := rfl
@[simp] theorem State.setSpk_frameData (s : State) (n : Nat) (x : Spk) : (s.setSpk n x).frameData = s.frameData := rfl
@[simp] theorem State.setSpk_freeCtr (s : State) (n : Nat) (x : Spk) : (s.setSpk n x).freeCtr = s.freeCtr := rfl
@[simp] theorem State.setSpk_rd (s : State) (n : Nat) (x : Spk) (o : Nat) : (s.setSpk n x).rd o = s.rd o := rfl
@[simp] theorem State.setSpk_get (s : State) (n : Nat) (x : Spk) (g : RF) : (s.setSpk n x).get g = s.get g := rfl

/-! ## setAdc -/

@[simp] theorem State.setAdc_pending (s : State) (n : Nat) (x : Adc) : (s.setAdc n x).pending = s.pending := rfl
@[simp] theorem State.setAdc_mode (s : State) (n : Nat) (x : Adc) : (s.setAdc n x).mode = s.mode := rfl
@[simp] theorem State.setAdc_regs (s : State) (n : Nat) (x : Adc) : (s.setAdc n x).regs = s.regs := rfl
@[simp] theorem State.setAdc_fuses (s : State) (n : Nat) (x : Adc) : (s.setAdc n x).fuses = s.fuses := rfl
@[simp] theorem State.setAdc_nor (s : State) (n : Nat) (x : Adc) : (s.setAdc n x).nor = s.nor := rfl
@[simp] theorem State.setAdc_norSize (s : State) (n : Nat) (x : Adc) : (s.setAdc n x).norSize = s.norSize := rfl
@[simp] theorem State.setAdc_units (s : State) (n : Nat) (x : Adc) : (s.setAdc n x).units = s.units := rfl
@[simp] theorem State.setAdc_log (s : State) (n : Nat) (x : Adc) : (s.setAdc n x).log = s.log := rfl
@[simp] theorem State.setAdc_evtLast (s : State) (n : Nat) (x : Adc) : (s.setAdc n x).evtLast = s.evtLast := rfl
@[simp] theorem State.setAdc_con (s : State) (n : Nat) (x : Adc) : (s.setAdc n x).con = s.con := rfl
@[simp] theorem State.setAdc_hif (s : State) (n : Nat) (x : Adc) : (s.setAdc n x).hif = s.hif := rfl
@[simp] theorem State.setAdc_ldr (s : State) (n : Nat) (x : Adc) : (s.setAdc n x).ldr = s.ldr := rfl
@[simp] theorem State.setAdc_cad (s : State) (n : Nat) (x : Adc) : (s.setAdc n x).cad = s.cad := rfl
@[simp] theorem State.setAdc_fab (s : State) (n : Nat) (x : Adc) : (s.setAdc n x).fab = s.fab := rfl
@[simp] theorem State.setAdc_xq (s : State) (n : Nat) (x : Adc) : (s.setAdc n x).xq = s.xq := rfl
@[simp] theorem State.setAdc_evx (s : State) (n : Nat) (x : Adc) : (s.setAdc n x).evx = s.evx := rfl
@[simp] theorem State.setAdc_clk (s : State) (n : Nat) (x : Adc) : (s.setAdc n x).clk = s.clk := rfl
@[simp] theorem State.setAdc_spk (s : State) (n : Nat) (x : Adc) : (s.setAdc n x).spk = s.spk := rfl
@[simp] theorem State.setAdc_adc (s : State) (n : Nat) (x : Adc) : (s.setAdc n x).adc = SMap.set (fun _ => {}) s.adc n x := rfl
@[simp] theorem State.setAdc_pwr (s : State) (n : Nat) (x : Adc) : (s.setAdc n x).pwr = s.pwr := rfl
@[simp] theorem State.setAdc_pins (s : State) (n : Nat) (x : Adc) : (s.setAdc n x).pins = s.pins := rfl
@[simp] theorem State.setAdc_pel (s : State) (n : Nat) (x : Adc) : (s.setAdc n x).pel = s.pel := rfl
@[simp] theorem State.setAdc_lane (s : State) (n : Nat) (x : Adc) : (s.setAdc n x).lane = s.lane := rfl
@[simp] theorem State.setAdc_grp (s : State) (n : Nat) (x : Adc) : (s.setAdc n x).grp = s.grp := rfl
@[simp] theorem State.setAdc_flt (s : State) (n : Nat) (x : Adc) : (s.setAdc n x).flt = s.flt := rfl
@[simp] theorem State.setAdc_caps (s : State) (n : Nat) (x : Adc) : (s.setAdc n x).caps = s.caps := rfl
@[simp] theorem State.setAdc_readData (s : State) (n : Nat) (x : Adc) : (s.setAdc n x).readData = s.readData := rfl
@[simp] theorem State.setAdc_frameData (s : State) (n : Nat) (x : Adc) : (s.setAdc n x).frameData = s.frameData := rfl
@[simp] theorem State.setAdc_freeCtr (s : State) (n : Nat) (x : Adc) : (s.setAdc n x).freeCtr = s.freeCtr := rfl
@[simp] theorem State.setAdc_rd (s : State) (n : Nat) (x : Adc) (o : Nat) : (s.setAdc n x).rd o = s.rd o := rfl
@[simp] theorem State.setAdc_get (s : State) (n : Nat) (x : Adc) (g : RF) : (s.setAdc n x).get g = s.get g := rfl

/-! ## setPwr -/

@[simp] theorem State.setPwr_pending (s : State) (x : Pwr) : (s.setPwr x).pending = s.pending := rfl
@[simp] theorem State.setPwr_mode (s : State) (x : Pwr) : (s.setPwr x).mode = s.mode := rfl
@[simp] theorem State.setPwr_regs (s : State) (x : Pwr) : (s.setPwr x).regs = s.regs := rfl
@[simp] theorem State.setPwr_fuses (s : State) (x : Pwr) : (s.setPwr x).fuses = s.fuses := rfl
@[simp] theorem State.setPwr_nor (s : State) (x : Pwr) : (s.setPwr x).nor = s.nor := rfl
@[simp] theorem State.setPwr_norSize (s : State) (x : Pwr) : (s.setPwr x).norSize = s.norSize := rfl
@[simp] theorem State.setPwr_units (s : State) (x : Pwr) : (s.setPwr x).units = s.units := rfl
@[simp] theorem State.setPwr_log (s : State) (x : Pwr) : (s.setPwr x).log = s.log := rfl
@[simp] theorem State.setPwr_evtLast (s : State) (x : Pwr) : (s.setPwr x).evtLast = s.evtLast := rfl
@[simp] theorem State.setPwr_con (s : State) (x : Pwr) : (s.setPwr x).con = s.con := rfl
@[simp] theorem State.setPwr_hif (s : State) (x : Pwr) : (s.setPwr x).hif = s.hif := rfl
@[simp] theorem State.setPwr_ldr (s : State) (x : Pwr) : (s.setPwr x).ldr = s.ldr := rfl
@[simp] theorem State.setPwr_cad (s : State) (x : Pwr) : (s.setPwr x).cad = s.cad := rfl
@[simp] theorem State.setPwr_fab (s : State) (x : Pwr) : (s.setPwr x).fab = s.fab := rfl
@[simp] theorem State.setPwr_xq (s : State) (x : Pwr) : (s.setPwr x).xq = s.xq := rfl
@[simp] theorem State.setPwr_evx (s : State) (x : Pwr) : (s.setPwr x).evx = s.evx := rfl
@[simp] theorem State.setPwr_clk (s : State) (x : Pwr) : (s.setPwr x).clk = s.clk := rfl
@[simp] theorem State.setPwr_spk (s : State) (x : Pwr) : (s.setPwr x).spk = s.spk := rfl
@[simp] theorem State.setPwr_adc (s : State) (x : Pwr) : (s.setPwr x).adc = s.adc := rfl
@[simp] theorem State.setPwr_pwr (s : State) (x : Pwr) : (s.setPwr x).pwr = x := rfl
@[simp] theorem State.setPwr_pins (s : State) (x : Pwr) : (s.setPwr x).pins = s.pins := rfl
@[simp] theorem State.setPwr_pel (s : State) (x : Pwr) : (s.setPwr x).pel = s.pel := rfl
@[simp] theorem State.setPwr_lane (s : State) (x : Pwr) : (s.setPwr x).lane = s.lane := rfl
@[simp] theorem State.setPwr_grp (s : State) (x : Pwr) : (s.setPwr x).grp = s.grp := rfl
@[simp] theorem State.setPwr_flt (s : State) (x : Pwr) : (s.setPwr x).flt = s.flt := rfl
@[simp] theorem State.setPwr_caps (s : State) (x : Pwr) : (s.setPwr x).caps = s.caps := rfl
@[simp] theorem State.setPwr_readData (s : State) (x : Pwr) : (s.setPwr x).readData = s.readData := rfl
@[simp] theorem State.setPwr_frameData (s : State) (x : Pwr) : (s.setPwr x).frameData = s.frameData := rfl
@[simp] theorem State.setPwr_freeCtr (s : State) (x : Pwr) : (s.setPwr x).freeCtr = s.freeCtr := rfl
@[simp] theorem State.setPwr_rd (s : State) (x : Pwr) (o : Nat) : (s.setPwr x).rd o = s.rd o := rfl
@[simp] theorem State.setPwr_get (s : State) (x : Pwr) (g : RF) : (s.setPwr x).get g = s.get g := rfl

/-! ## pinWrite -/

@[simp] theorem State.pinWrite_pending (s : State) : (s.pinWrite).pending = s.pending := rfl
@[simp] theorem State.pinWrite_mode (s : State) : (s.pinWrite).mode = s.mode := rfl
@[simp] theorem State.pinWrite_regs (s : State) : (s.pinWrite).regs = s.regs := rfl
@[simp] theorem State.pinWrite_fuses (s : State) : (s.pinWrite).fuses = s.fuses := rfl
@[simp] theorem State.pinWrite_nor (s : State) : (s.pinWrite).nor = s.nor := rfl
@[simp] theorem State.pinWrite_norSize (s : State) : (s.pinWrite).norSize = s.norSize := rfl
@[simp] theorem State.pinWrite_units (s : State) : (s.pinWrite).units = s.units := rfl
@[simp] theorem State.pinWrite_log (s : State) : (s.pinWrite).log = s.log := rfl
@[simp] theorem State.pinWrite_evtLast (s : State) : (s.pinWrite).evtLast = s.evtLast := rfl
@[simp] theorem State.pinWrite_con (s : State) : (s.pinWrite).con = s.con := rfl
@[simp] theorem State.pinWrite_hif (s : State) : (s.pinWrite).hif = s.hif := rfl
@[simp] theorem State.pinWrite_ldr (s : State) : (s.pinWrite).ldr = s.ldr := rfl
@[simp] theorem State.pinWrite_cad (s : State) : (s.pinWrite).cad = s.cad := rfl
@[simp] theorem State.pinWrite_fab (s : State) : (s.pinWrite).fab = s.fab := rfl
@[simp] theorem State.pinWrite_xq (s : State) : (s.pinWrite).xq = s.xq := rfl
@[simp] theorem State.pinWrite_evx (s : State) : (s.pinWrite).evx = s.evx := rfl
@[simp] theorem State.pinWrite_clk (s : State) : (s.pinWrite).clk = s.clk := rfl
@[simp] theorem State.pinWrite_spk (s : State) : (s.pinWrite).spk = s.spk := rfl
@[simp] theorem State.pinWrite_adc (s : State) : (s.pinWrite).adc = s.adc := rfl
@[simp] theorem State.pinWrite_pwr (s : State) : (s.pinWrite).pwr = s.pwr := rfl
@[simp] theorem State.pinWrite_pins (s : State) : (s.pinWrite).pins = { s.pins with lockArmed := none } := rfl
@[simp] theorem State.pinWrite_pel (s : State) : (s.pinWrite).pel = s.pel := rfl
@[simp] theorem State.pinWrite_lane (s : State) : (s.pinWrite).lane = s.lane := rfl
@[simp] theorem State.pinWrite_grp (s : State) : (s.pinWrite).grp = s.grp := rfl
@[simp] theorem State.pinWrite_flt (s : State) : (s.pinWrite).flt = s.flt := rfl
@[simp] theorem State.pinWrite_caps (s : State) : (s.pinWrite).caps = s.caps := rfl
@[simp] theorem State.pinWrite_readData (s : State) : (s.pinWrite).readData = s.readData := rfl
@[simp] theorem State.pinWrite_frameData (s : State) : (s.pinWrite).frameData = s.frameData := rfl
@[simp] theorem State.pinWrite_freeCtr (s : State) : (s.pinWrite).freeCtr = s.freeCtr := rfl
@[simp] theorem State.pinWrite_rd (s : State) (o : Nat) : (s.pinWrite).rd o = s.rd o := rfl
@[simp] theorem State.pinWrite_get (s : State) (g : RF) : (s.pinWrite).get g = s.get g := rfl

/-! ## lockFirst -/

@[simp] theorem State.lockFirst_pending (s : State) (p : Nat) : (s.lockFirst p).pending = s.pending := rfl
@[simp] theorem State.lockFirst_mode (s : State) (p : Nat) : (s.lockFirst p).mode = s.mode := rfl
@[simp] theorem State.lockFirst_regs (s : State) (p : Nat) : (s.lockFirst p).regs = s.regs := rfl
@[simp] theorem State.lockFirst_fuses (s : State) (p : Nat) : (s.lockFirst p).fuses = s.fuses := rfl
@[simp] theorem State.lockFirst_nor (s : State) (p : Nat) : (s.lockFirst p).nor = s.nor := rfl
@[simp] theorem State.lockFirst_norSize (s : State) (p : Nat) : (s.lockFirst p).norSize = s.norSize := rfl
@[simp] theorem State.lockFirst_units (s : State) (p : Nat) : (s.lockFirst p).units = s.units := rfl
@[simp] theorem State.lockFirst_log (s : State) (p : Nat) : (s.lockFirst p).log = s.log := rfl
@[simp] theorem State.lockFirst_evtLast (s : State) (p : Nat) : (s.lockFirst p).evtLast = s.evtLast := rfl
@[simp] theorem State.lockFirst_con (s : State) (p : Nat) : (s.lockFirst p).con = s.con := rfl
@[simp] theorem State.lockFirst_hif (s : State) (p : Nat) : (s.lockFirst p).hif = s.hif := rfl
@[simp] theorem State.lockFirst_ldr (s : State) (p : Nat) : (s.lockFirst p).ldr = s.ldr := rfl
@[simp] theorem State.lockFirst_cad (s : State) (p : Nat) : (s.lockFirst p).cad = s.cad := rfl
@[simp] theorem State.lockFirst_fab (s : State) (p : Nat) : (s.lockFirst p).fab = s.fab := rfl
@[simp] theorem State.lockFirst_xq (s : State) (p : Nat) : (s.lockFirst p).xq = s.xq := rfl
@[simp] theorem State.lockFirst_evx (s : State) (p : Nat) : (s.lockFirst p).evx = s.evx := rfl
@[simp] theorem State.lockFirst_clk (s : State) (p : Nat) : (s.lockFirst p).clk = s.clk := rfl
@[simp] theorem State.lockFirst_spk (s : State) (p : Nat) : (s.lockFirst p).spk = s.spk := rfl
@[simp] theorem State.lockFirst_adc (s : State) (p : Nat) : (s.lockFirst p).adc = s.adc := rfl
@[simp] theorem State.lockFirst_pwr (s : State) (p : Nat) : (s.lockFirst p).pwr = s.pwr := rfl
@[simp] theorem State.lockFirst_pins (s : State) (p : Nat) : (s.lockFirst p).pins = { s.pins with lockArmed := some p } := rfl
@[simp] theorem State.lockFirst_pel (s : State) (p : Nat) : (s.lockFirst p).pel = s.pel := rfl
@[simp] theorem State.lockFirst_lane (s : State) (p : Nat) : (s.lockFirst p).lane = s.lane := rfl
@[simp] theorem State.lockFirst_grp (s : State) (p : Nat) : (s.lockFirst p).grp = s.grp := rfl
@[simp] theorem State.lockFirst_flt (s : State) (p : Nat) : (s.lockFirst p).flt = s.flt := rfl
@[simp] theorem State.lockFirst_caps (s : State) (p : Nat) : (s.lockFirst p).caps = s.caps := rfl
@[simp] theorem State.lockFirst_readData (s : State) (p : Nat) : (s.lockFirst p).readData = s.readData := rfl
@[simp] theorem State.lockFirst_frameData (s : State) (p : Nat) : (s.lockFirst p).frameData = s.frameData := rfl
@[simp] theorem State.lockFirst_freeCtr (s : State) (p : Nat) : (s.lockFirst p).freeCtr = s.freeCtr := rfl
@[simp] theorem State.lockFirst_rd (s : State) (p : Nat) (o : Nat) : (s.lockFirst p).rd o = s.rd o := rfl
@[simp] theorem State.lockFirst_get (s : State) (p : Nat) (g : RF) : (s.lockFirst p).get g = s.get g := rfl

/-! ## setPel -/

@[simp] theorem State.setPel_pending (s : State) (x : Pel) : (s.setPel x).pending = s.pending := rfl
@[simp] theorem State.setPel_mode (s : State) (x : Pel) : (s.setPel x).mode = s.mode := rfl
@[simp] theorem State.setPel_regs (s : State) (x : Pel) : (s.setPel x).regs = s.regs := rfl
@[simp] theorem State.setPel_fuses (s : State) (x : Pel) : (s.setPel x).fuses = s.fuses := rfl
@[simp] theorem State.setPel_nor (s : State) (x : Pel) : (s.setPel x).nor = s.nor := rfl
@[simp] theorem State.setPel_norSize (s : State) (x : Pel) : (s.setPel x).norSize = s.norSize := rfl
@[simp] theorem State.setPel_units (s : State) (x : Pel) : (s.setPel x).units = s.units := rfl
@[simp] theorem State.setPel_log (s : State) (x : Pel) : (s.setPel x).log = s.log := rfl
@[simp] theorem State.setPel_evtLast (s : State) (x : Pel) : (s.setPel x).evtLast = s.evtLast := rfl
@[simp] theorem State.setPel_con (s : State) (x : Pel) : (s.setPel x).con = s.con := rfl
@[simp] theorem State.setPel_hif (s : State) (x : Pel) : (s.setPel x).hif = s.hif := rfl
@[simp] theorem State.setPel_ldr (s : State) (x : Pel) : (s.setPel x).ldr = s.ldr := rfl
@[simp] theorem State.setPel_cad (s : State) (x : Pel) : (s.setPel x).cad = s.cad := rfl
@[simp] theorem State.setPel_fab (s : State) (x : Pel) : (s.setPel x).fab = s.fab := rfl
@[simp] theorem State.setPel_xq (s : State) (x : Pel) : (s.setPel x).xq = s.xq := rfl
@[simp] theorem State.setPel_evx (s : State) (x : Pel) : (s.setPel x).evx = s.evx := rfl
@[simp] theorem State.setPel_clk (s : State) (x : Pel) : (s.setPel x).clk = s.clk := rfl
@[simp] theorem State.setPel_spk (s : State) (x : Pel) : (s.setPel x).spk = s.spk := rfl
@[simp] theorem State.setPel_adc (s : State) (x : Pel) : (s.setPel x).adc = s.adc := rfl
@[simp] theorem State.setPel_pwr (s : State) (x : Pel) : (s.setPel x).pwr = s.pwr := rfl
@[simp] theorem State.setPel_pins (s : State) (x : Pel) : (s.setPel x).pins = s.pins := rfl
@[simp] theorem State.setPel_pel (s : State) (x : Pel) : (s.setPel x).pel = x := rfl
@[simp] theorem State.setPel_lane (s : State) (x : Pel) : (s.setPel x).lane = s.lane := rfl
@[simp] theorem State.setPel_grp (s : State) (x : Pel) : (s.setPel x).grp = s.grp := rfl
@[simp] theorem State.setPel_flt (s : State) (x : Pel) : (s.setPel x).flt = s.flt := rfl
@[simp] theorem State.setPel_caps (s : State) (x : Pel) : (s.setPel x).caps = s.caps := rfl
@[simp] theorem State.setPel_readData (s : State) (x : Pel) : (s.setPel x).readData = s.readData := rfl
@[simp] theorem State.setPel_frameData (s : State) (x : Pel) : (s.setPel x).frameData = s.frameData := rfl
@[simp] theorem State.setPel_freeCtr (s : State) (x : Pel) : (s.setPel x).freeCtr = s.freeCtr := rfl
@[simp] theorem State.setPel_rd (s : State) (x : Pel) (o : Nat) : (s.setPel x).rd o = s.rd o := rfl
@[simp] theorem State.setPel_get (s : State) (x : Pel) (g : RF) : (s.setPel x).get g = s.get g := rfl

/-! ## setPort -/

@[simp] theorem State.setPort_pending (s : State) (n : Nat) (x : Port) : (s.setPort n x).pending = s.pending := rfl
@[simp] theorem State.setPort_mode (s : State) (n : Nat) (x : Port) : (s.setPort n x).mode = s.mode := rfl
@[simp] theorem State.setPort_regs (s : State) (n : Nat) (x : Port) : (s.setPort n x).regs = s.regs := rfl
@[simp] theorem State.setPort_fuses (s : State) (n : Nat) (x : Port) : (s.setPort n x).fuses = s.fuses := rfl
@[simp] theorem State.setPort_nor (s : State) (n : Nat) (x : Port) : (s.setPort n x).nor = s.nor := rfl
@[simp] theorem State.setPort_norSize (s : State) (n : Nat) (x : Port) : (s.setPort n x).norSize = s.norSize := rfl
@[simp] theorem State.setPort_units (s : State) (n : Nat) (x : Port) : (s.setPort n x).units = s.units := rfl
@[simp] theorem State.setPort_log (s : State) (n : Nat) (x : Port) : (s.setPort n x).log = s.log := rfl
@[simp] theorem State.setPort_evtLast (s : State) (n : Nat) (x : Port) : (s.setPort n x).evtLast = s.evtLast := rfl
@[simp] theorem State.setPort_con (s : State) (n : Nat) (x : Port) : (s.setPort n x).con = s.con := rfl
@[simp] theorem State.setPort_hif (s : State) (n : Nat) (x : Port) : (s.setPort n x).hif = s.hif := rfl
@[simp] theorem State.setPort_ldr (s : State) (n : Nat) (x : Port) : (s.setPort n x).ldr = s.ldr := rfl
@[simp] theorem State.setPort_cad (s : State) (n : Nat) (x : Port) : (s.setPort n x).cad = s.cad := rfl
@[simp] theorem State.setPort_fab (s : State) (n : Nat) (x : Port) : (s.setPort n x).fab = s.fab := rfl
@[simp] theorem State.setPort_xq (s : State) (n : Nat) (x : Port) : (s.setPort n x).xq = s.xq := rfl
@[simp] theorem State.setPort_evx (s : State) (n : Nat) (x : Port) : (s.setPort n x).evx = s.evx := rfl
@[simp] theorem State.setPort_clk (s : State) (n : Nat) (x : Port) : (s.setPort n x).clk = s.clk := rfl
@[simp] theorem State.setPort_spk (s : State) (n : Nat) (x : Port) : (s.setPort n x).spk = s.spk := rfl
@[simp] theorem State.setPort_adc (s : State) (n : Nat) (x : Port) : (s.setPort n x).adc = s.adc := rfl
@[simp] theorem State.setPort_pwr (s : State) (n : Nat) (x : Port) : (s.setPort n x).pwr = s.pwr := rfl
@[simp] theorem State.setPort_pins (s : State) (n : Nat) (x : Port) : (s.setPort n x).pins = s.pins := rfl
@[simp] theorem State.setPort_pel (s : State) (n : Nat) (x : Port) : (s.setPort n x).pel = { s.pel with ports := SMap.set (fun _ => {}) s.pel.ports n x } := rfl
@[simp] theorem State.setPort_lane (s : State) (n : Nat) (x : Port) : (s.setPort n x).lane = s.lane := rfl
@[simp] theorem State.setPort_grp (s : State) (n : Nat) (x : Port) : (s.setPort n x).grp = s.grp := rfl
@[simp] theorem State.setPort_flt (s : State) (n : Nat) (x : Port) : (s.setPort n x).flt = s.flt := rfl
@[simp] theorem State.setPort_caps (s : State) (n : Nat) (x : Port) : (s.setPort n x).caps = s.caps := rfl
@[simp] theorem State.setPort_readData (s : State) (n : Nat) (x : Port) : (s.setPort n x).readData = s.readData := rfl
@[simp] theorem State.setPort_frameData (s : State) (n : Nat) (x : Port) : (s.setPort n x).frameData = s.frameData := rfl
@[simp] theorem State.setPort_freeCtr (s : State) (n : Nat) (x : Port) : (s.setPort n x).freeCtr = s.freeCtr := rfl
@[simp] theorem State.setPort_rd (s : State) (n : Nat) (x : Port) (o : Nat) : (s.setPort n x).rd o = s.rd o := rfl
@[simp] theorem State.setPort_get (s : State) (n : Nat) (x : Port) (g : RF) : (s.setPort n x).get g = s.get g := rfl

/-! ## setLane -/

@[simp] theorem State.setLane_pending (s : State) (n : Nat) (x : Lane) : (s.setLane n x).pending = s.pending := rfl
@[simp] theorem State.setLane_mode (s : State) (n : Nat) (x : Lane) : (s.setLane n x).mode = s.mode := rfl
@[simp] theorem State.setLane_regs (s : State) (n : Nat) (x : Lane) : (s.setLane n x).regs = s.regs := rfl
@[simp] theorem State.setLane_fuses (s : State) (n : Nat) (x : Lane) : (s.setLane n x).fuses = s.fuses := rfl
@[simp] theorem State.setLane_nor (s : State) (n : Nat) (x : Lane) : (s.setLane n x).nor = s.nor := rfl
@[simp] theorem State.setLane_norSize (s : State) (n : Nat) (x : Lane) : (s.setLane n x).norSize = s.norSize := rfl
@[simp] theorem State.setLane_units (s : State) (n : Nat) (x : Lane) : (s.setLane n x).units = s.units := rfl
@[simp] theorem State.setLane_log (s : State) (n : Nat) (x : Lane) : (s.setLane n x).log = s.log := rfl
@[simp] theorem State.setLane_evtLast (s : State) (n : Nat) (x : Lane) : (s.setLane n x).evtLast = s.evtLast := rfl
@[simp] theorem State.setLane_con (s : State) (n : Nat) (x : Lane) : (s.setLane n x).con = s.con := rfl
@[simp] theorem State.setLane_hif (s : State) (n : Nat) (x : Lane) : (s.setLane n x).hif = s.hif := rfl
@[simp] theorem State.setLane_ldr (s : State) (n : Nat) (x : Lane) : (s.setLane n x).ldr = s.ldr := rfl
@[simp] theorem State.setLane_cad (s : State) (n : Nat) (x : Lane) : (s.setLane n x).cad = s.cad := rfl
@[simp] theorem State.setLane_fab (s : State) (n : Nat) (x : Lane) : (s.setLane n x).fab = s.fab := rfl
@[simp] theorem State.setLane_xq (s : State) (n : Nat) (x : Lane) : (s.setLane n x).xq = s.xq := rfl
@[simp] theorem State.setLane_evx (s : State) (n : Nat) (x : Lane) : (s.setLane n x).evx = s.evx := rfl
@[simp] theorem State.setLane_clk (s : State) (n : Nat) (x : Lane) : (s.setLane n x).clk = s.clk := rfl
@[simp] theorem State.setLane_spk (s : State) (n : Nat) (x : Lane) : (s.setLane n x).spk = s.spk := rfl
@[simp] theorem State.setLane_adc (s : State) (n : Nat) (x : Lane) : (s.setLane n x).adc = s.adc := rfl
@[simp] theorem State.setLane_pwr (s : State) (n : Nat) (x : Lane) : (s.setLane n x).pwr = s.pwr := rfl
@[simp] theorem State.setLane_pins (s : State) (n : Nat) (x : Lane) : (s.setLane n x).pins = s.pins := rfl
@[simp] theorem State.setLane_pel (s : State) (n : Nat) (x : Lane) : (s.setLane n x).pel = s.pel := rfl
@[simp] theorem State.setLane_lane (s : State) (n : Nat) (x : Lane) : (s.setLane n x).lane = SMap.set (fun _ => {}) s.lane n x := rfl
@[simp] theorem State.setLane_grp (s : State) (n : Nat) (x : Lane) : (s.setLane n x).grp = s.grp := rfl
@[simp] theorem State.setLane_flt (s : State) (n : Nat) (x : Lane) : (s.setLane n x).flt = s.flt := rfl
@[simp] theorem State.setLane_caps (s : State) (n : Nat) (x : Lane) : (s.setLane n x).caps = s.caps := rfl
@[simp] theorem State.setLane_readData (s : State) (n : Nat) (x : Lane) : (s.setLane n x).readData = s.readData := rfl
@[simp] theorem State.setLane_frameData (s : State) (n : Nat) (x : Lane) : (s.setLane n x).frameData = s.frameData := rfl
@[simp] theorem State.setLane_freeCtr (s : State) (n : Nat) (x : Lane) : (s.setLane n x).freeCtr = s.freeCtr := rfl
@[simp] theorem State.setLane_rd (s : State) (n : Nat) (x : Lane) (o : Nat) : (s.setLane n x).rd o = s.rd o := rfl
@[simp] theorem State.setLane_get (s : State) (n : Nat) (x : Lane) (g : RF) : (s.setLane n x).get g = s.get g := rfl

/-! ## setGrp -/

@[simp] theorem State.setGrp_pending (s : State) (n : Nat) (x : Grp) : (s.setGrp n x).pending = s.pending := rfl
@[simp] theorem State.setGrp_mode (s : State) (n : Nat) (x : Grp) : (s.setGrp n x).mode = s.mode := rfl
@[simp] theorem State.setGrp_regs (s : State) (n : Nat) (x : Grp) : (s.setGrp n x).regs = s.regs := rfl
@[simp] theorem State.setGrp_fuses (s : State) (n : Nat) (x : Grp) : (s.setGrp n x).fuses = s.fuses := rfl
@[simp] theorem State.setGrp_nor (s : State) (n : Nat) (x : Grp) : (s.setGrp n x).nor = s.nor := rfl
@[simp] theorem State.setGrp_norSize (s : State) (n : Nat) (x : Grp) : (s.setGrp n x).norSize = s.norSize := rfl
@[simp] theorem State.setGrp_units (s : State) (n : Nat) (x : Grp) : (s.setGrp n x).units = s.units := rfl
@[simp] theorem State.setGrp_log (s : State) (n : Nat) (x : Grp) : (s.setGrp n x).log = s.log := rfl
@[simp] theorem State.setGrp_evtLast (s : State) (n : Nat) (x : Grp) : (s.setGrp n x).evtLast = s.evtLast := rfl
@[simp] theorem State.setGrp_con (s : State) (n : Nat) (x : Grp) : (s.setGrp n x).con = s.con := rfl
@[simp] theorem State.setGrp_hif (s : State) (n : Nat) (x : Grp) : (s.setGrp n x).hif = s.hif := rfl
@[simp] theorem State.setGrp_ldr (s : State) (n : Nat) (x : Grp) : (s.setGrp n x).ldr = s.ldr := rfl
@[simp] theorem State.setGrp_cad (s : State) (n : Nat) (x : Grp) : (s.setGrp n x).cad = s.cad := rfl
@[simp] theorem State.setGrp_fab (s : State) (n : Nat) (x : Grp) : (s.setGrp n x).fab = s.fab := rfl
@[simp] theorem State.setGrp_xq (s : State) (n : Nat) (x : Grp) : (s.setGrp n x).xq = s.xq := rfl
@[simp] theorem State.setGrp_evx (s : State) (n : Nat) (x : Grp) : (s.setGrp n x).evx = s.evx := rfl
@[simp] theorem State.setGrp_clk (s : State) (n : Nat) (x : Grp) : (s.setGrp n x).clk = s.clk := rfl
@[simp] theorem State.setGrp_spk (s : State) (n : Nat) (x : Grp) : (s.setGrp n x).spk = s.spk := rfl
@[simp] theorem State.setGrp_adc (s : State) (n : Nat) (x : Grp) : (s.setGrp n x).adc = s.adc := rfl
@[simp] theorem State.setGrp_pwr (s : State) (n : Nat) (x : Grp) : (s.setGrp n x).pwr = s.pwr := rfl
@[simp] theorem State.setGrp_pins (s : State) (n : Nat) (x : Grp) : (s.setGrp n x).pins = s.pins := rfl
@[simp] theorem State.setGrp_pel (s : State) (n : Nat) (x : Grp) : (s.setGrp n x).pel = s.pel := rfl
@[simp] theorem State.setGrp_lane (s : State) (n : Nat) (x : Grp) : (s.setGrp n x).lane = s.lane := rfl
@[simp] theorem State.setGrp_grp (s : State) (n : Nat) (x : Grp) : (s.setGrp n x).grp = SMap.set (fun _ => {}) s.grp n x := rfl
@[simp] theorem State.setGrp_flt (s : State) (n : Nat) (x : Grp) : (s.setGrp n x).flt = s.flt := rfl
@[simp] theorem State.setGrp_caps (s : State) (n : Nat) (x : Grp) : (s.setGrp n x).caps = s.caps := rfl
@[simp] theorem State.setGrp_readData (s : State) (n : Nat) (x : Grp) : (s.setGrp n x).readData = s.readData := rfl
@[simp] theorem State.setGrp_frameData (s : State) (n : Nat) (x : Grp) : (s.setGrp n x).frameData = s.frameData := rfl
@[simp] theorem State.setGrp_freeCtr (s : State) (n : Nat) (x : Grp) : (s.setGrp n x).freeCtr = s.freeCtr := rfl
@[simp] theorem State.setGrp_rd (s : State) (n : Nat) (x : Grp) (o : Nat) : (s.setGrp n x).rd o = s.rd o := rfl
@[simp] theorem State.setGrp_get (s : State) (n : Nat) (x : Grp) (g : RF) : (s.setGrp n x).get g = s.get g := rfl

/-! ## setFlt -/

@[simp] theorem State.setFlt_pending (s : State) (x : Flt) : (s.setFlt x).pending = s.pending := rfl
@[simp] theorem State.setFlt_mode (s : State) (x : Flt) : (s.setFlt x).mode = s.mode := rfl
@[simp] theorem State.setFlt_regs (s : State) (x : Flt) : (s.setFlt x).regs = s.regs := rfl
@[simp] theorem State.setFlt_fuses (s : State) (x : Flt) : (s.setFlt x).fuses = s.fuses := rfl
@[simp] theorem State.setFlt_nor (s : State) (x : Flt) : (s.setFlt x).nor = s.nor := rfl
@[simp] theorem State.setFlt_norSize (s : State) (x : Flt) : (s.setFlt x).norSize = s.norSize := rfl
@[simp] theorem State.setFlt_units (s : State) (x : Flt) : (s.setFlt x).units = s.units := rfl
@[simp] theorem State.setFlt_log (s : State) (x : Flt) : (s.setFlt x).log = s.log := rfl
@[simp] theorem State.setFlt_evtLast (s : State) (x : Flt) : (s.setFlt x).evtLast = s.evtLast := rfl
@[simp] theorem State.setFlt_con (s : State) (x : Flt) : (s.setFlt x).con = s.con := rfl
@[simp] theorem State.setFlt_hif (s : State) (x : Flt) : (s.setFlt x).hif = s.hif := rfl
@[simp] theorem State.setFlt_ldr (s : State) (x : Flt) : (s.setFlt x).ldr = s.ldr := rfl
@[simp] theorem State.setFlt_cad (s : State) (x : Flt) : (s.setFlt x).cad = s.cad := rfl
@[simp] theorem State.setFlt_fab (s : State) (x : Flt) : (s.setFlt x).fab = s.fab := rfl
@[simp] theorem State.setFlt_xq (s : State) (x : Flt) : (s.setFlt x).xq = s.xq := rfl
@[simp] theorem State.setFlt_evx (s : State) (x : Flt) : (s.setFlt x).evx = s.evx := rfl
@[simp] theorem State.setFlt_clk (s : State) (x : Flt) : (s.setFlt x).clk = s.clk := rfl
@[simp] theorem State.setFlt_spk (s : State) (x : Flt) : (s.setFlt x).spk = s.spk := rfl
@[simp] theorem State.setFlt_adc (s : State) (x : Flt) : (s.setFlt x).adc = s.adc := rfl
@[simp] theorem State.setFlt_pwr (s : State) (x : Flt) : (s.setFlt x).pwr = s.pwr := rfl
@[simp] theorem State.setFlt_pins (s : State) (x : Flt) : (s.setFlt x).pins = s.pins := rfl
@[simp] theorem State.setFlt_pel (s : State) (x : Flt) : (s.setFlt x).pel = s.pel := rfl
@[simp] theorem State.setFlt_lane (s : State) (x : Flt) : (s.setFlt x).lane = s.lane := rfl
@[simp] theorem State.setFlt_grp (s : State) (x : Flt) : (s.setFlt x).grp = s.grp := rfl
@[simp] theorem State.setFlt_flt (s : State) (x : Flt) : (s.setFlt x).flt = x := rfl
@[simp] theorem State.setFlt_caps (s : State) (x : Flt) : (s.setFlt x).caps = s.caps := rfl
@[simp] theorem State.setFlt_readData (s : State) (x : Flt) : (s.setFlt x).readData = s.readData := rfl
@[simp] theorem State.setFlt_frameData (s : State) (x : Flt) : (s.setFlt x).frameData = s.frameData := rfl
@[simp] theorem State.setFlt_freeCtr (s : State) (x : Flt) : (s.setFlt x).freeCtr = s.freeCtr := rfl
@[simp] theorem State.setFlt_rd (s : State) (x : Flt) (o : Nat) : (s.setFlt x).rd o = s.rd o := rfl
@[simp] theorem State.setFlt_get (s : State) (x : Flt) (g : RF) : (s.setFlt x).get g = s.get g := rfl

/-! ## logAdd -/

@[simp] theorem State.logAdd_pending (s : State) (k : LogKind) : (s.logAdd k).pending = s.pending := rfl
@[simp] theorem State.logAdd_mode (s : State) (k : LogKind) : (s.logAdd k).mode = s.mode := rfl
@[simp] theorem State.logAdd_regs (s : State) (k : LogKind) : (s.logAdd k).regs = s.regs := rfl
@[simp] theorem State.logAdd_fuses (s : State) (k : LogKind) : (s.logAdd k).fuses = s.fuses := rfl
@[simp] theorem State.logAdd_nor (s : State) (k : LogKind) : (s.logAdd k).nor = s.nor := rfl
@[simp] theorem State.logAdd_norSize (s : State) (k : LogKind) : (s.logAdd k).norSize = s.norSize := rfl
@[simp] theorem State.logAdd_units (s : State) (k : LogKind) : (s.logAdd k).units = s.units := rfl
@[simp] theorem State.logAdd_log (s : State) (k : LogKind) : (s.logAdd k).log = s.log ++ [⟨k, s.time⟩] := rfl
@[simp] theorem State.logAdd_evtLast (s : State) (k : LogKind) : (s.logAdd k).evtLast = s.evtLast := rfl
@[simp] theorem State.logAdd_con (s : State) (k : LogKind) : (s.logAdd k).con = s.con := rfl
@[simp] theorem State.logAdd_hif (s : State) (k : LogKind) : (s.logAdd k).hif = s.hif := rfl
@[simp] theorem State.logAdd_ldr (s : State) (k : LogKind) : (s.logAdd k).ldr = s.ldr := rfl
@[simp] theorem State.logAdd_cad (s : State) (k : LogKind) : (s.logAdd k).cad = s.cad := rfl
@[simp] theorem State.logAdd_fab (s : State) (k : LogKind) : (s.logAdd k).fab = s.fab := rfl
@[simp] theorem State.logAdd_xq (s : State) (k : LogKind) : (s.logAdd k).xq = s.xq := rfl
@[simp] theorem State.logAdd_evx (s : State) (k : LogKind) : (s.logAdd k).evx = s.evx := rfl
@[simp] theorem State.logAdd_clk (s : State) (k : LogKind) : (s.logAdd k).clk = s.clk := rfl
@[simp] theorem State.logAdd_spk (s : State) (k : LogKind) : (s.logAdd k).spk = s.spk := rfl
@[simp] theorem State.logAdd_adc (s : State) (k : LogKind) : (s.logAdd k).adc = s.adc := rfl
@[simp] theorem State.logAdd_pwr (s : State) (k : LogKind) : (s.logAdd k).pwr = s.pwr := rfl
@[simp] theorem State.logAdd_pins (s : State) (k : LogKind) : (s.logAdd k).pins = s.pins := rfl
@[simp] theorem State.logAdd_pel (s : State) (k : LogKind) : (s.logAdd k).pel = s.pel := rfl
@[simp] theorem State.logAdd_lane (s : State) (k : LogKind) : (s.logAdd k).lane = s.lane := rfl
@[simp] theorem State.logAdd_grp (s : State) (k : LogKind) : (s.logAdd k).grp = s.grp := rfl
@[simp] theorem State.logAdd_flt (s : State) (k : LogKind) : (s.logAdd k).flt = s.flt := rfl
@[simp] theorem State.logAdd_caps (s : State) (k : LogKind) : (s.logAdd k).caps = s.caps := rfl
@[simp] theorem State.logAdd_readData (s : State) (k : LogKind) : (s.logAdd k).readData = s.readData := rfl
@[simp] theorem State.logAdd_frameData (s : State) (k : LogKind) : (s.logAdd k).frameData = s.frameData := rfl
@[simp] theorem State.logAdd_freeCtr (s : State) (k : LogKind) : (s.logAdd k).freeCtr = s.freeCtr := rfl
@[simp] theorem State.logAdd_rd (s : State) (k : LogKind) (o : Nat) : (s.logAdd k).rd o = s.rd o := rfl
@[simp] theorem State.logAdd_get (s : State) (k : LogKind) (g : RF) : (s.logAdd k).get g = s.get g := rfl

/-! ## push -/

@[simp] theorem State.push_pending (s : State) (c : Instr) : (s.push c).pending = c :: s.pending := rfl
@[simp] theorem State.push_mode (s : State) (c : Instr) : (s.push c).mode = s.mode := rfl
@[simp] theorem State.push_regs (s : State) (c : Instr) : (s.push c).regs = s.regs := rfl
@[simp] theorem State.push_fuses (s : State) (c : Instr) : (s.push c).fuses = s.fuses := rfl
@[simp] theorem State.push_nor (s : State) (c : Instr) : (s.push c).nor = s.nor := rfl
@[simp] theorem State.push_norSize (s : State) (c : Instr) : (s.push c).norSize = s.norSize := rfl
@[simp] theorem State.push_units (s : State) (c : Instr) : (s.push c).units = s.units := rfl
@[simp] theorem State.push_log (s : State) (c : Instr) : (s.push c).log = s.log := rfl
@[simp] theorem State.push_evtLast (s : State) (c : Instr) : (s.push c).evtLast = s.evtLast := rfl
@[simp] theorem State.push_con (s : State) (c : Instr) : (s.push c).con = s.con := rfl
@[simp] theorem State.push_hif (s : State) (c : Instr) : (s.push c).hif = s.hif := rfl
@[simp] theorem State.push_ldr (s : State) (c : Instr) : (s.push c).ldr = s.ldr := rfl
@[simp] theorem State.push_cad (s : State) (c : Instr) : (s.push c).cad = s.cad := rfl
@[simp] theorem State.push_fab (s : State) (c : Instr) : (s.push c).fab = s.fab := rfl
@[simp] theorem State.push_xq (s : State) (c : Instr) : (s.push c).xq = s.xq := rfl
@[simp] theorem State.push_evx (s : State) (c : Instr) : (s.push c).evx = s.evx := rfl
@[simp] theorem State.push_clk (s : State) (c : Instr) : (s.push c).clk = s.clk := rfl
@[simp] theorem State.push_spk (s : State) (c : Instr) : (s.push c).spk = s.spk := rfl
@[simp] theorem State.push_adc (s : State) (c : Instr) : (s.push c).adc = s.adc := rfl
@[simp] theorem State.push_pwr (s : State) (c : Instr) : (s.push c).pwr = s.pwr := rfl
@[simp] theorem State.push_pins (s : State) (c : Instr) : (s.push c).pins = s.pins := rfl
@[simp] theorem State.push_pel (s : State) (c : Instr) : (s.push c).pel = s.pel := rfl
@[simp] theorem State.push_lane (s : State) (c : Instr) : (s.push c).lane = s.lane := rfl
@[simp] theorem State.push_grp (s : State) (c : Instr) : (s.push c).grp = s.grp := rfl
@[simp] theorem State.push_flt (s : State) (c : Instr) : (s.push c).flt = s.flt := rfl
@[simp] theorem State.push_caps (s : State) (c : Instr) : (s.push c).caps = s.caps := rfl
@[simp] theorem State.push_readData (s : State) (c : Instr) : (s.push c).readData = s.readData := rfl
@[simp] theorem State.push_frameData (s : State) (c : Instr) : (s.push c).frameData = s.frameData := rfl
@[simp] theorem State.push_freeCtr (s : State) (c : Instr) : (s.push c).freeCtr = s.freeCtr := rfl
@[simp] theorem State.push_rd (s : State) (c : Instr) (o : Nat) : (s.push c).rd o = s.rd o := rfl
@[simp] theorem State.push_get (s : State) (c : Instr) (g : RF) : (s.push c).get g = s.get g := rfl

end Sys2Proof.Machine
end

