-- ==== Sys2Proof/WellFormed.lean ====
section
/-! DEFINITION. Which commands are well formed: the facts about operands that their types do not say. The block never asks for them; a
sender of commands keeps to them. -/

namespace Sys2Proof

/-- A failure of the Sprocket and Firn test: Firn blocks lie in columns 0 and 1, Sprocket slices have 64 physical places and no rows
(R415, Table 14.7). -/
def TestFault.wf (f : TestFault) : Bool :=
  if f.block then decide (f.column.val < 2) else decide (f.index.val < 64) && f.rows.isEmpty

/-- The readings of R474: one junction for each of the 16 regions. -/
def Temps.wf (t : Temps) : Bool := t.junction.length == 16

/-- A console line fits the holding of 512 characters and contains no line end (R480). -/
def lineWf (line : List Byte) : Bool := decide (line.length ≤ 512) && line.all (fun b => b != 13 && b != 10)

/-- What a field test meets is well formed. -/
def ConEnv.wf (e : ConEnv) : Bool := e.found.all TestFault.wf

/-- The well-formed commands. Descriptors have 32 bytes (R376), a nonce 32 (R493), a command ring index is that of the command ring, the
numbers of a console line fit a register. -/
def Instr.wellFormed (i : Instr) : Bool :=
  match i with
  | .temperatureRead t => t.wf
  | .startupSelftestDone found _ => found.all TestFault.wf
  | .bistRun found => found.all TestFault.wf
  | .testHard set found _ => decide (set < 2 ^ 32) && found.all TestFault.wf
  | .descriptorFetched n raw => decide (32 ≤ n.val) && raw.length == 32
  | .staleRecheck n raw => (n.val == 0 || decide (32 ≤ n.val)) && raw.length == 32
  | .adminFetch raw => raw.length == 32
  | .attest nonce => nonce.length == 32
  | .consoleAttest nonce _ => nonce.length == 32
  | .consoleLine line env => lineWf line && env.wf
  | .fuseHash line _ => lineWf line
  | .fuseKey line _ => lineWf line
  | .fuseEnc line _ => lineWf line
  | .fuseRevoke line _ => lineWf line
  | .fuseClose line _ => lineWf line
  | .admin _ a0 a1 a2 a3 _ => [a0, a1, a2, a3].all (fun a => decide (a < 2 ^ 32))
  | .wr _ v _ => decide (v < 2 ^ 32)
  | .eventOutToken (.region _) k => decide (k.toNat < 8)
  | .eventOutRoundTrip (.region _) k => decide (k.toNat < 8)
  | .shortDetect fabric p _ => fabric || decide (p.val < 64)
  | _ => true

end Sys2Proof
end

