-- ==== Sys2Proof/Tests/Slice0.lean ====
section
/-! SUPPORT. Tests of single commands on small states. Each shows a state and operands that meet the hypotheses of a clause of the
statements, and what the command does there. -/

namespace Sys2Proof.Tests

open Sys2Proof Sys2Proof.Machine

set_option Elab.async false

/-- The command answers a next state that passes a check. -/
def after (i : Instr) (s : State) (p : State → Bool) : Bool :=
  match exec i s with
  | .next t => p t
  | _ => false

/-- An event stands in the fault log ring. -/
def inLog (s : State) (id param : Nat) : Bool := s.log.any (fun e => e.kind == .event id param)
def inLogSome (s : State) (id : Nat) : Bool := s.log.any (fun e => match e.kind with
  | .event j _ => j == id
  | _ => false)

/-- A module in a mode with every unit working and set-reset released. -/
def inMode (m : Mode) : State := ({ State.reset with units := 0x7FF, pins := { conf := true }, fab := { setReset := 0, wen := 0xFFFF } } : State).setMode m

/-- A module that runs, with VCORE at code 40. -/
def running : State := (({ inMode .run with pwr := { on := true, goal := 40 } } : State).put F.PWR_DRL_STS_vcore 40).put F.PWR_DRL_STS_demand 40

/-- The same with every region retired. -/
def bare : State := running.put F.FLT_RET_REG_regions 0xFFFF

/-- Bits of the word of a cell of a tile (Table 03.5) written. -/
def cfgCell (s : State) (t : Tile) (i lo w v : Nat) : State := s.vset t.n t.c (4096 * (2 * i + lo / 56) + 56 * t.r + lo % 56) w v

/-- Bits of the slot of a tile written, from a minor on. -/
def cfgSlot (s : State) (t : Tile) (minor lo w v : Nat) : State := s.vset t.n t.c (4096 * (minor + lo / 56) + 56 * t.r + lo % 56) w v

/-- A directory that holds a settings area, a repair-map area and slot A. -/
def media (s : State) : State :=
  s.dirWrite [⟨0x20, 0, 0x40000, 0x20000, 0⟩, ⟨0x30, 0, 0x60000, 0x20000, 0⟩, ⟨1, 0, 0x1000000, 0x1000000, 0⟩] true

/-- The same with a settings record of one section. -/
def withSection (s : State) (type : Nat) (body : List Byte) : State :=
  let b := le 2 type ++ le 2 body.length ++ body
  (media s).norWrite 0x40000 (le 4 0x6A5C5E77 ++ le 4 1 ++ le 4 b.length ++ le 4 (crc32c b).toNat ++ b)


/-- A full load from the host, at a step. -/
def hostLoad (step : LoadStep) : Load := { region := false, source := 3, fromEntry := 0, set := 0xFFFF, activate := true, store := false, src := none, step := step }

/-! ## Supply, rails, supervisor -/

def halves : State := running.put F.SUP_MODE_twin_ok 1
def phasesUp : State := running.put F.PWR_PHASE_active 0xFF

theorem test_undervoltage : bare.running = true ∧ bare.latched = false ∧
    after (.undervoltage 5600) bare (fun t => t.mode = .hold ∧ t.get F.SUP_MODE_hold_cause = 3 ∧ t.pwr.on = false ∧
      t.get F.PWR_VIN_vin = 5600) := by decide +kernel
theorem test_overvoltage : running.mode ≠ .cold ∧
    after (.overvoltage 41001) running (fun t => t.mode = .run ∧ t.get F.PWR_STS_ovp = 1 ∧ t.get F.PWR_VIN_vin = 41001) := by decide +kernel
theorem test_inputHardLimit : after (.inputHardLimit 11000) running (fun t => t.mode = .hold ∧ t.get F.SUP_MODE_hold_cause = 2 ∧
    t.get F.PWR_STS_hard_lim = 1 ∧ t.get F.PWR_VIN_iin = 11000) := by decide +kernel
theorem test_railOutOfWindow_aux : after (.railOutOfWindow 0 1500) running (fun t => t.mode = .cold) := by decide +kernel
theorem test_railOutOfWindow_33 : after (.railOutOfWindow 1 2900) running (fun t => t.unitOk 2 = false ∧ t.mode = .run) := by decide +kernel
theorem test_railOutOfWindow_vcore : bare.pwr.on = true ∧
    after (.railOutOfWindow 4 900) bare (fun t => t.mode = .hold ∧ t.get F.SUP_MODE_hold_cause = 2 ∧ t.pwr.on = false) := by decide +kernel
theorem test_vcorePhaseCheck : bitOf (phasesUp.get F.PWR_PHASE_active) 3 = true ∧
    (List.range 10).find? (fun j => ! bitOf (phasesUp.get F.PWR_PHASE_active - 2 ^ 3) j && ! bitOf (phasesUp.get F.PWR_PHASE_failed ||| 2 ^ 3) j)
      = some 8 ∧
    after (.vcorePhaseCheck 3) phasesUp (fun t => t.get F.PWR_PHASE_active = 0x1F7 ∧ t.get F.PWR_PHASE_failed = 8) := by decide +kernel
theorem test_inputLimit_low : after (.inputLimit 8799) running (fun t => t.get F.PWR_STS_vin_lim = 1) := by decide +kernel
theorem test_inputLimit_high : after (.inputLimit 9000) running (fun t => t.get F.PWR_STS_vin_lim = 0) := by decide +kernel
theorem test_temperatureRead_120 : (∀ x ∈ List.replicate 16 (120 : Int), x ≤ 120) ∧
    after (.temperatureRead ⟨List.replicate 16 120, 60⟩) running (fun t => t.mode = .run ∧ t.pwr.hot = false) := by decide +kernel
theorem test_temperatureRead_121 : after (.temperatureRead ⟨List.replicate 16 121, 60⟩)
    { bare with pwr := { bare.pwr with hot := true } } (fun t => t.mode = .hold ∧ t.get F.SUP_MODE_hold_cause = 4 ∧ t.pwr.on = false) := by
  decide +kernel
theorem test_supervisorFailover : halves.get F.SUP_MODE_twin_ok = 1 ∧ halves.latched = false ∧
    after .supervisorFailover halves (fun t => t.get F.SUP_MODE_active_half = 1 ∧ t.get F.SUP_MODE_twin_ok = 0 ∧ inLog t 0x0101 0) := by
  decide +kernel
theorem test_lastSupervisorFail : (running.put F.SUP_MODE_twin_ok 0).get F.SUP_MODE_twin_ok = 0 ∧
    after .lastSupervisorFail (running.put F.SUP_MODE_twin_ok 0) (fun t => t.latched = true ∧ t.get F.SUP_MTR_STS_out_mv = 0) := by decide +kernel
def restarting : State := withSection ((inMode .hold).put F.SUP_MODE_hold_cause 3) 7 [2, 0xE4, 0, 0, 0, 0, 0, 0]
theorem test_autoRestart : restarting.mode = .hold ∧ restarting.get F.SUP_MODE_hold_cause = 3 ∧ restarting.autoRestart = true ∧
    restarting.latched = false := by decide +kernel
theorem test_vinStop : after (.vinStop 4900) running (fun t => t.mode = .cold ∧ t.regs = [] ∧ t.log = running.log) := by decide +kernel
theorem test_vinStop_above : after (.vinStop 4901) running (fun t => t == running) ∧ after (.undervoltage 5601) running (fun t => t == running) := by
  decide +kernel
theorem test_vinStart_low : State.reset.mode = .cold ∧ after (.vinStart { vin := 5599, pup := 0, vsel := false, leadStrap := false, altStrap := false, good := true, units := 0x7FF }) State.reset (fun t => t == State.reset) := by
  decide +kernel

/-! ## Derailleur -/

def drl : State := ({ running with pwr := { running.pwr with lowSample := true, samples := 3 } } : State).put F.PWR_DRL_CTL_enable 1

theorem test_derailleurEvaluate : drl.running = true ∧ drl.pwr.lowSample = true ∧ drl.get F.PWR_DRL_CTL_enable = 1 ∧
    after .derailleurEvaluate drl (fun t => t.pwr.samples = 0 ∧ t.pwr.goal = min (max (min 80 (40 + max 1 (drl.get F.PWR_DRL_VLIM_up_step))) drl.vMin)
      drl.ceiling) := by decide +kernel
theorem test_derailleurWindowEnd : after .derailleurWindowEnd drl (fun t => t.pwr.samples = 0 ∧ t.get F.PWR_DRL_SMIN_samples = 3) := by
  decide +kernel
theorem test_vcoreSlewStep_up : after .vcoreSlewStep { running with pwr := { running.pwr with goal := 80 } }
    (fun t => t.get F.PWR_DRL_STS_vcore = 41) := by decide +kernel
theorem test_vcoreSlewStep_down : after .vcoreSlewStep { running with pwr := { running.pwr with goal := 0 } }
    (fun t => t.get F.PWR_DRL_STS_vcore = 39) := by decide +kernel
theorem test_capCeilingStep : after (.capCeilingStep 0xFFFF 5) running (fun t => t.get F.PWR_PIN_pin = 0xFFFF ∧ t.get F.PWR_PIN_pcore = 5 ∧
    t.pwr.capCeil ≤ 80) := by decide +kernel
theorem test_thermalCeilingStep_cool : (running.putS F.PWR_TEMP_tj_max 81).getS F.PWR_TEMP_tj_max < 82 ∧
    after .thermalCeilingStep { running.putS F.PWR_TEMP_tj_max 81 with pwr := { running.pwr with thermCeil := 70 } } (fun t => t.pwr.thermCeil = 71) := by
  decide +kernel
theorem test_thermalCeilingStep_hot : 115 ≤ (running.putS F.PWR_TEMP_tj_max 115).getS F.PWR_TEMP_tj_max ∧
    after .thermalCeilingStep (running.putS F.PWR_TEMP_tj_max 115) (fun t => t.pwr.thermCeil = 79) := by decide +kernel
def overCap : State := (((running.put F.PWR_CAP_over_act 1).put F.PWR_PIN_pin 7000).put F.PWR_DRL_VLIM_v_min 40)
theorem test_capUnmet : overCap.pwr.on = true ∧ overCap.get F.PWR_DRL_STS_vcore = overCap.vMin ∧
    overCap.effCap.1 < 10 * overCap.get F.PWR_PIN_pin ∧ overCap.get F.PWR_CAP_over_act = 1 ∧
    after .capUnmet overCap (fun t => t.mode = .hold ∧ t.get F.SUP_MODE_hold_cause = 2) := by decide +kernel

/-! ## Cells and stages -/

def t0 : Tile := ⟨0, 0, 0⟩

/-- Cell 0 of tile 0 in a mode with its hold stage; cells 8 to 10 are CONST cells that hold a token. -/
def cellIn (mode tok : Nat) : State :=
  let s := cfgCell (cfgCell running t0 0 32 4 mode) t0 0 57 1 1
  [8, 9, 10].foldl (fun s i => (cfgCell s t0 i 32 4 10).setNode (.cell t0 i) { tok := some (BitVec.ofNat 2 tok) }) s

def fn : State := cfgCell (cellIn 1 0) t0 0 0 32 0x10001
theorem test_function : fn.cellMode t0 0 = .function ∧ fn.fabOn 0 = true ∧ fn.holdEn t0 0 = true ∧ (fn.node (.cell t0 0)).tok = none ∧
    fn.port t0 0 0 = some 0 ∧ fn.port t0 0 1 = some 0 ∧ fn.roomAhead (.cell t0 0) none = true ∧
    after (.function 0 0 0 0) fn (fun t => (t.node (.cell t0 0)).tok = some 3) := by decide +kernel

def fn5 (sub : Nat) : State := cfgCell (cfgCell (cellIn 2 0) t0 0 36 2 sub) t0 0 38 2 1
theorem test_function5_add : (fn5 1).port t0 0 2 = some 1 ∧ (fn5 1).cellSub t0 0 = 1 ∧
    after (.function5 0 0 0 0) (fn5 1) (fun t => (t.node (.cell t0 0)).tok = some 1) := by decide +kernel
theorem test_function5_sub : (fn5 2).roomAhead (.cell t0 0) none = true ∧ (fn5 2).cellSub t0 0 = 2 ∧
    after (.function5 0 0 0 0) (fn5 2) (fun t => (t.node (.cell t0 0)).tok = some 0 ∧ (t.node (.cell t0 0)).chain = 1) := by decide +kernel

theorem test_function5_table : (fn5 0).cellReady t0 0 .function5 ∧ (fn5 0).port t0 0 0 = some 0 ∧ (fn5 0).port t0 0 1 = some 0 ∧
    (fn5 0).port t0 0 2 = some 1 ∧
    after (.function5 0 0 0 0) (cfgCell (fn5 0) t0 0 0 32 0x10000) (fun t => (t.node (.cell t0 0)).tok = some 1 ∧ (t.node (.cell t0 0)).chain = 1) := by
  unfold State.cellReady; decide +kernel

theorem test_fork : (cellIn 3 0).cellMode t0 0 = .fork ∧ (cellIn 3 0).port t0 0 0 = some 0 ∧ (cellIn 3 0).roomAhead (.cell t0 0) none = true ∧
    after (.fork 0 0 0 0) (cellIn 3 0) (fun t => (t.node (.cell t0 0)).tok = some 0) := by decide +kernel
theorem test_join : (cellIn 4 0).cellMode t0 0 = .join ∧ (cellIn 4 0).port t0 0 1 = some 0 ∧ (cellIn 4 0).roomAhead (.cell t0 0) none = true ∧
    after (.join 0 0 0 0) (cellIn 4 0) (fun t => (t.node (.cell t0 0)).tok = some 0) := by decide +kernel
theorem test_split : (cellIn 5 0).cellMode t0 0 = .split ∧ (cellIn 5 0).port t0 0 0 = some 0 ∧ (cellIn 5 0).port t0 0 1 = some 0 ∧
    (cellIn 5 0).roomAhead (.cell t0 0) (some 0) = true ∧
    after (.split 0 0 0 0) (cellIn 5 0) (fun t => (t.node (.cell t0 0)).branch = some 0) := by decide +kernel

/-- Cell 0 with port B enabled: its source is cell 8. -/
def withB (mode tok : Nat) : State := cfgCell (cellIn mode tok) t0 0 41 1 1
def sel : State := cfgCell (withB 6 3) t0 0 38 2 1
theorem test_selectMerge : sel.cellMode t0 0 = .selectMerge ∧ sel.port t0 0 2 = some 1 ∧ sel.cellF t0 0 41 1 = 1 ∧ sel.port t0 0 1 = some 3 ∧
    sel.roomAhead (.cell t0 0) none = true ∧
    after (.selectMerge 0 0 0 0) sel (fun t => (t.node (.cell t0 0)).tok = some 3 ∧ (t.node (.cell t0 8)).tok = none) := by decide +kernel
def arb : State := (withB 7 2).setNode (.cell t0 0) { grant := some true }
theorem test_arbMerge : arb.cellMode t0 0 = .arbMerge ∧ (arb.node (.cell t0 0)).grant = some true ∧ (arb.node (.cell t0 0)).tok = none ∧
    arb.port t0 0 1 = some 2 ∧ arb.roomAhead (.cell t0 0) none = true ∧
    after (.arbMerge 0 0 0 0) arb (fun t => (t.node (.cell t0 0)).tok = some 2 ∧ (t.node (.cell t0 0)).grant = none) := by decide +kernel
/-- Mutex 0 serves cell 0; port A comes from cell 1, which is OFF, or from cell 9. -/
def mtx (a : Nat) : State := cfgSlot (cfgSlot (cfgCell (withB 7 2) t0 0 40 1 1) t0 0x48 0 6 32) t0 0x49 0 5 a
theorem test_mutexGrant_b : (mtx 1).mutexCell t0 0 = some 0 ∧ (mtx 1).cellF t0 0 40 1 = 1 ∧ (mtx 1).cellF t0 0 41 1 = 1 ∧
    (mtx 1).port t0 0 0 = none ∧ ((mtx 1).port t0 0 1).isSome = true ∧ ((mtx 1).node (.cell t0 0)).grant = none ∧
    after (.mutexGrant 0 0 0 0 false) (mtx 1) (fun t => (t.node (.cell t0 0)).grant = some true) := by decide +kernel
def mtxTurn : State := (mtx 9).setNode (.cell t0 0) { turn := some false }
theorem test_mutexGrant_both : (mtxTurn.port t0 0 0).isSome = true ∧ (mtxTurn.port t0 0 1).isSome = true ∧
    (mtxTurn.node (.cell t0 0)).turn = some false ∧ (mtxTurn.node (.cell t0 0)).grant = none ∧
    after (.mutexGrant 0 0 0 0 true) mtxTurn (fun t => (t.node (.cell t0 0)).grant = some false) := by decide +kernel
theorem test_mutexGrant_a : ((cfgCell (mtx 9) t0 8 32 4 0).setNode (.cell t0 8) {}).port t0 0 1 = none ∧
    (((cfgCell (mtx 9) t0 8 32 4 0).setNode (.cell t0 8) {}).port t0 0 0).isSome = true := by decide +kernel
def muxIn : State := [0, 1, 2].foldl (fun s k => cfgSlot s t0 0x49 (480 + 5 * k) 5 8) (cellIn 11 0)
theorem test_mux : muxIn.cellMode t0 0 = .mux ∧ muxIn.port t0 0 3 = some 0 ∧ muxIn.cellSub t0 0 = 0 ∧
    muxIn.roomAhead (.cell t0 0) none = true ∧ after (.mux 0 0 0 0) muxIn (fun t => (t.node (.cell t0 0)).tok = some 0) := by decide +kernel
/-- A chain of two: cell 0 the head, cell 1 the tail with position 1, chained from it. -/
def muxChain : State :=
  let s := cfgCell (cfgCell muxIn t0 0 57 1 0) t0 1 32 4 11
  cfgCell (cfgCell (cfgCell (cfgCell s t0 1 57 1 1) t0 1 36 2 2) t0 1 38 2 2) t0 1 63 5 1
theorem test_mux_tail : muxChain.cellReady t0 1 .mux ∧ muxChain.cellSub t0 1 = 2 ∧ muxChain.port t0 1 0 = some 0 ∧
    muxChain.port t0 1 1 = some 0 ∧ muxChain.port t0 1 3 = some 0 ∧ muxChain.port t0 1 2 = some 0 ∧ muxChain.roomAhead (.cell t0 1) none = true := by
  unfold State.cellReady; decide +kernel
theorem test_mux_tail_takes : after (.mux 0 0 0 1) muxChain (fun t => (t.node (.cell t0 1)).tok = some 0) := by decide +kernel
def src (mode : Nat) : State := (cfgCell (cfgCell running t0 0 32 4 mode) t0 0 61 2 2).setNode (.cell t0 0) { left := 256 }
theorem test_source : (src 8).cellMode t0 0 = .source ∧ (src 8).fabOn 0 = true ∧ ((src 8).node (.cell t0 0)).left = 256 ∧
    ((src 8).node (.cell t0 0)).tok = none ∧ (src 8).holdEn t0 0 = false ∧
    after (.source 0 0 0 0) (src 8) (fun t => (t.node (.cell t0 0)).tok = some 2 ∧ (t.node (.cell t0 0)).left = 255) := by decide +kernel
theorem test_const : (src 10).cellMode t0 0 = .const ∧ ((src 10).node (.cell t0 0)).tok = none ∧ (src 10).holdEn t0 0 = false ∧
    after (.const 0 0 0 0) (src 10) (fun t => (t.node (.cell t0 0)).tok = some 2) := by decide +kernel
theorem test_sink : (withB 9 1).cellMode t0 0 = .sink ∧ (withB 9 1).waits (.port t0 0 1) = false ∧
    ((withB 9 1).seen (.port t0 0 1)).isSome = true ∧
    after (.sink 0 0 0 0 1) (withB 9 1) (fun t => (t.node (.cell t0 8)).tok = none) := by decide +kernel

/-- The slack stage of a segment start that holds a token. -/
def segTok (s : State) (t : Tile) (st tok : Nat) : State :=
  (cfgSlot s t 0x56 (320 + 7 * st) 1 1).setNode (.seg t st) { tok := some (BitVec.ofNat 2 tok) }
def t5 : Tile := ⟨0, 5, 5⟩
/-- Inbound digit 0 of tile (5, 5) with its slack stage, fed by start 0 of the tile south of it. -/
def hop : State := cfgSlot (cfgSlot (segTok running ⟨0, 5, 4⟩ 0 1) t5 0x40 0 1 1) t5 0x56 160 5 1
theorem test_holdStageTokenMove : (hop.stageInit (.inb t5 0)).isSome = true ∧ (hop.node (.inb t5 0)).tok = none ∧
    hop.seen (.elem (.inb t5 0)) = some 1 ∧ hop.roomAhead (.inb t5 0) none = true ∧
    after (.holdStageTokenMove 0 5 5 32 0) hop (fun t => (t.node (.inb t5 0)).tok = some 1 ∧ (t.node (.seg ⟨0, 5, 4⟩ 0)).tok = none) := by
  decide +kernel
theorem test_holdStageTokenMove_code : 2 ^ 1 ||| (8 : BitVec 4).toNat ≠ 2 ^ 1 ∧
    after (.holdStageTokenMove 0 5 5 32 8) hop (fun t => inLog t 0x0341 0) := by decide +kernel

/-! ## Isolation cells, freeze, watchdogs -/

/-- Region 0 passes toward its cut neighbour 1; isolation cell 0 on edge 1 in ABSORB with a token before it, cell 8 in DEFAULT. -/
def iso : State :=
  let s := ((running.put (F.REGION_ISO_STS_own_cut 0) 0).put (F.REGION_ISO_STS_own_cut 1) 1).put (F.REGION_ISO_STS_nbr_iso 0) 2
  let s := (s.vset 0 0x4C (4096 * 12) 2 1).vset 0 0x4C (4096 * 12 + 32 * 8) 4 (2 + 4 * 3)
  segTok s ⟨0, 63, 0⟩ 8 1
theorem test_isoAbsorb : iso.get (F.REGION_ISO_STS_own_cut 0) = 0 ∧ bitOf (iso.get (F.REGION_ISO_STS_nbr_iso 0)) 1 = true ∧
    iso.get (F.REGION_FREEZE_hold_freeze 0) = 0 ∧ iso.isoF 0 1 0 0 2 = 1 ∧ (iso.seen (.iso 0 1 0)).isSome = true ∧
    after (.isoAbsorb 0 1 0) iso (fun t => (t.node (.seg ⟨0, 63, 0⟩ 8)).tok = none ∧
      (SMap.get (fun _ => {}) t.fab.iso (isoKey 0 1 0)).count = 1) := by decide +kernel
theorem test_isoAbsorb_hold : (iso.put (F.REGION_FREEZE_hold_freeze 0) 1).get (F.REGION_FREEZE_hold_freeze 0) = 1 ∧
    after (.isoAbsorb 0 1 0) (iso.put (F.REGION_FREEZE_hold_freeze 0) 1) (fun t => (t.node (.seg ⟨0, 63, 0⟩ 8)).tok = some 1) := by decide +kernel
theorem test_isoDefaultSupply : iso.isoF 0 1 8 0 2 = 2 ∧ iso.fab.setReset.getLsbD 0 = false ∧ (iso.node (.iso 0 1 8)).tok = none ∧
    after (.isoDefaultSupply 0 1 8) iso (fun t => (t.node (.iso 0 1 8)).tok = some 3) := by decide +kernel
theorem test_regionFreezeSet : running.freezeShut 15 = false ∧ after (.regionFreezeSet 15) running (fun t => t.get (F.REGION_FREEZE_freeze 15) = 1) := by decide +kernel
theorem test_regionFreezeSettled : (running.put (F.REGION_FREEZE_freeze 0) 1).get (F.REGION_COLMAP_moving 0) = 0 ∧
    after (.regionFreezeSettled 0) (running.put (F.REGION_FREEZE_freeze 0) 1) (fun t => t.get (F.REGION_FREEZE_settled 0) = 1) := by decide +kernel
theorem test_regionFreeze_shut : (running.put (F.REGION_PR_STS_state 3) 4).freezeShut 3 = true := by decide +kernel
theorem test_regionFreezeClear : after (.regionFreezeClear 0) ((running.put (F.REGION_FREEZE_freeze 0) 1).put (F.REGION_FREEZE_settled 0) 1)
    (fun t => t.get (F.REGION_FREEZE_freeze 0) = 0 ∧ t.get (F.REGION_FREEZE_settled 0) = 0) := by decide +kernel
/-- Watchdog 31 of region 0 taps start 8 of tile (63, 0). -/
def wdg : State := iso.vset 0 0x4D (32 * 31) 32 (63 + 8 * 8192 + 2 ^ 31)
theorem test_watchdogEnable : (wdg.tapStage 0 31).isSome = true ∧ wdg.get (F.REGION_WDG_CTL_enable 0 31) = 0 ∧
    after (.watchdogEnable 0 31 0x80000007) wdg (fun t => t.get (F.REGION_WDG_CTL_enable 0 31) = 1 ∧ t.get (F.REGION_WDG_CTL_limit 0 31) = 7) := by
  decide +kernel
def wdgOn (kept : Nat) : State := (wdg.put (F.REGION_WDG_CTL_enable 0 31) 1).setWdg 0 31 { kept := kept }
theorem test_watchdogStall : (wdgOn 9991).wdgHeld 0 = false ∧ (wdgOn 9991).groomHeld = false ∧ ((wdgOn 9991).wdgAt 0 31).reported = false ∧
    (wdgOn 9991).get (F.REGION_WDG_CTL_arm_first 0 31) = 0 ∧ (wdgOn 9991).wdgLimit 0 31 ≤ (wdgOn 9991).wdgCount ((wdgOn 9991).wdgAt 0 31) + 9 ∧
    after (.watchdogStall 0 31) (wdgOn 9991) (fun t => t.get (F.REGION_WDG_STS_stalled 0 31) = 1 ∧ inLog t 0x0340 31) := by decide +kernel
theorem test_watchdogStall_early : (wdgOn 9990).wdgCount ((wdgOn 9990).wdgAt 0 31) + 9 < (wdgOn 9990).wdgLimit 0 31 := by decide +kernel
/-- Two tiles of row 63 drive vertical track 23, segment 1. -/
def lt : State := [40, 50].foldl (fun s r => cfgSlot s ⟨15, 63, r⟩ 0x56 552 8 (1 + 2 * 23)) running
theorem test_ltContention : lt.get (F.REGION_LT_CTL_reaction 15) = 0 ∧ lt.contended (.track 15 true 63 23 1) = true ∧
    after (.ltContention 15 true 63 23 1) lt (fun t =>
      SMap.get (fun _ => false) t.fab.ltOff (trackKey 15 true 63 23 1) = true ∧ t.get (F.REGION_LT_FAULT_count 15) = 1) := by decide +kernel
theorem test_ltContention_alone : lt.contended (.track 15 true 63 23 0) = false := by decide +kernel

/-! ## Sprocket and Firn -/

/-- Bits of a slice word and of a Firn block word. -/
def cfgSlice (s : State) (sl lo w v : Nat) : State := s.vset 0 0x40 (3072 * sl + lo) w v
def cfgFirn (s : State) (lo w v : Nat) : State := s.vset 0 0x44 (700416 + lo) w v

/-- Slice 1 in accumulation with U from the cascade, signed, K = -2 of its word; the slice before it holds U = 3. -/
def mac : State :=
  let s := [(0, 1, 1), (1, 1, 1), (2, 1, 1), (3, 1, 1), (6, 1, 1), (8, 2, 1), (96, 24, 0xFFFFFE)].foldl
    (fun s (p : Nat × Nat × Nat) => cfgSlice s 1 p.1 p.2.1 p.2.2) running
  (s.setSlice 0 0 1 { s.slice 0 0 1 with cal := true }).setSlice 0 0 0 { s.slice 0 0 0 with uco := some 3 }
theorem test_sprocketMac : mac.macReady 0 0 1 = true ∧ mac.macIn 0 0 1 = some ⟨3, 0, 0xFFFFFE, 0, 0⟩ ∧ mac.sliceF 0 0 1 4 1 = 0 ∧
    mac.sliceF 0 0 1 8 2 = 1 ∧ mac.sliceF 0 0 1 10 1 = 0 ∧
    after (.sprocketMac 0 0 1) mac (fun t => (t.slice 0 0 1).acc = BitVec.ofInt 64 (-6)) := by decide +kernel
theorem test_sprocketCalibrate : mac.fab.setReset.getLsbD 0 = false ∧ mac.sliceF 0 0 1 0 1 = 1 ∧ (mac.slice 0 0 1).stopped = false ∧
    after (.sprocketCalibrate 0 0 1 false) mac (fun t => (t.slice 0 0 1).stopped = true) := by decide +kernel

/-- Block 0 of column 0: shape 3 without ECC, port A in use; the command of the port stands in the outbound digits of the tiles before it:
`write` and 0 as word. Its data digits are all 1. -/
def firn (write : Nat) : State :=
  let s := [(0, 2, 3), (8, 1, 1), (9, 1, write), (24, 7, 64), (31, 7, 64)].foldl (fun s (p : Nat × Nat × Nat) => cfgFirn s p.1 p.2.1 p.2.2) running
  (List.range (if write = 1 then 43 else 7)).foldl (fun s d =>
    let t : Tile := ⟨0, 15, d / 32⟩
    let x : Src := .out t (d % 32)
    (cfgSlot s t (0x40 + (32 + d % 32) / 8) (7 * (d % 8)) 1 1).setNode x { tok := some (if d = 0 then BitVec.ofNat 2 write else if d < 7 then 0 else 1) }) s
theorem test_firnRead : (firn 0).chanFree (.firn 0 0 0 1) = true ∧ (firn 0).firnCmd 0 0 0 0 = some ⟨false, 0, 0⟩ ∧
    (firn 0).firnCollides 0 0 0 0 ⟨false, 0, 0⟩ = false ∧ (firn 0).firnEcc 0 0 0 = false ∧
    (firn 0).firnF 0 0 0 11 1 = 0 ∧ (firn 0).fabOn 0 = true := by decide +kernel
theorem test_firnWrite : (firn 1).chanFree (.firn 0 0 0 1) = true ∧ ((firn 1).firnCmd 0 0 0 0).any FirnCmd.write = true ∧
    (firn 1).fab.wen.getLsbD 0 = true ∧
    after (.firnWrite 0 0 0 0 0) (firn 1) (fun t => (t.firnRow 0 0 0 0).toNat = (2 ^ 72 - 1) / 3) := by decide +kernel
def ecc (row : BitVec 72) : State := ((cfgFirn running 0 3 7).put (F.REGION_MSCRUB_enable 0) 1 |>.put (F.REGION_ISO_STS_own_cut 0) 0).setFirnRow 0 0 0 0 row
theorem test_firnScrubRow_good : (ecc (eccRow 5)).firnEcc 0 0 0 = true ∧ (ecc (eccRow 5)).cut 0 = false ∧
    (eccRead ((ecc (eccRow 5)).firnRow 0 0 0 0)).2 = 0 := by decide +kernel
theorem test_firnScrubRow_flip : (eccRead ((ecc (eccRow 5 ^^^ 16)).firnRow 0 0 0 0)).2 = 1 ∧
    after (.firnScrubRow 0 0 0 0 0) (ecc (eccRow 5 ^^^ 16)) (fun t => t.firnRow 0 0 0 0 = eccRow 5 ∧ t.get (F.REGION_FIRN_ECC_corrected 0) = 1) := by
  decide +kernel
theorem test_violated : violated 2 0b1010 = 1 ∧ violated 3 0 = 3 := by decide +kernel
/-- The witnesses of the violated captures: cell 0, outbound digit 0 fed by cell 8, start 8 fed by outbound digit 12, which cell 8 feeds. -/
def outHop : State := cfgSlot (cfgSlot (cellIn 0 1) t0 0x49 510 6 40) t0 0x44 0 1 1
def segHop : State := cfgSlot (cfgSlot (cfgSlot (cellIn 0 1) t0 0x49 582 6 40) t0 0x56 40 5 2) t0 0x56 376 1 1
theorem test_violated_cell : fn.holdEn t0 0 = true ∧ (fn.fireNow t0 0).any (fun g => 2 ^ g.val ||| 1 != 2 ^ g.val) = true ∧
    after (.holdStageTokenMove 0 0 0 0 1) fn (fun t => inLog t 0x0341 0 ∧ (t.node (.cell t0 0)).tok = some 0) := by decide +kernel
theorem test_violated_out : (outHop.stageInit (.out t0 0)).isSome = true ∧ (outHop.node (.out t0 0)).tok = none ∧
    outHop.seen (.elem (.out t0 0)) = some 1 ∧ outHop.roomAhead (.out t0 0) none = true ∧
    after (.holdStageTokenMove 0 0 0 64 9) outHop (fun t => inLog t 0x0341 0 ∧ (t.node (.out t0 0)).tok = some 0) := by decide +kernel
theorem test_violated_seg : (segHop.stageInit (.seg t0 8)).isSome = true ∧ (segHop.node (.seg t0 8)).tok = none ∧
    segHop.seen (.elem (.seg t0 8)) = some 1 ∧ segHop.roomAhead (.seg t0 8) none = true ∧
    after (.holdStageTokenMove 0 0 0 104 8) segHop (fun t => inLog t 0x0341 0 ∧ (t.node (.seg t0 8)).tok = some 1 ∧
      t.get (F.REGION_CODE_ERR_count 0) = 1) := by decide +kernel

/-! ## Crossing queues and crossings -/

def w1 : XWord := xword 5 (sbOf true true 0 1)
/-- Queue q enabled and bound to ring or port index i of a kind. -/
def queue (q kind i vc : Nat) (ws : List XWord) : State :=
  ((((running.put (F.XQ_CTL_enable q) 1).put (F.XQ_BIND_kind q) kind).put (F.XQ_BIND_index q) i).put (F.XQ_BIND_vc q) vc).setXq q { words := ws }

theorem test_xqPushClocked : (queue 31 2 3 1 [w1]).xqBound 31 = some (2, 3, 1) ∧ ((queue 31 2 3 1 [w1]).xqQ 31).wait = [] ∧
    (queue 31 2 3 1 [w1]).xqStopped 31 = false ∧ (queue 31 2 3 1 [w1]).xqClocked 31 true = true ∧
    after (.xqPushClocked 31 7 0xF0F2) (queue 31 2 3 1 [w1]) (fun t => (t.xqQ 31).words = [w1, xword 7 0xF002] ∧ t.get (F.XQ_PUSHED_count 31) = 1 ∧
      t.get (F.XQ_STS_open_w 31) = 0) := by decide +kernel
def disc : State := (queue 0 1 0 0 []).setXq 0 { discard := true }
theorem test_xqPushClocked_discard : disc.xqBound 0 = some (1, 0, 0) ∧ disc.xqStopped 0 = false ∧ disc.xqClocked 0 true = true ∧
    after (.xqPushClocked 0 7 0) disc (fun t => (t.xqQ 0).words = [] ∧ t.get (F.XQ_DISCARD_count 0) = 1) := by decide +kernel
/-- Outbound queue 32: its DATA channel stands at tiles (32, 44) and (32, 45) of region 0 in the outbound digits, each a stage with token 1. -/
def out32 : State :=
  let s := (queue 32 1 0 0 []).vset 0 0x4D (4096 + 64) 7 64
  (List.range 64).foldl (fun s d =>
    let t : Tile := ⟨0, 32, 44 + d / 32⟩
    (cfgSlot s t (0x40 + (32 + d % 32) / 8) (7 * (d % 8)) 1 1).setNode (.out t (d % 32)) { tok := some 1 }) s
theorem test_xqPushFabric : out32.xqFabricWord 32 = some (BitVec.ofNat 128 ((2 ^ 128 - 1) / 3), sbOf true true 0 0) ∧ out32.xqStopped 32 = false ∧
    out32.xqFabricReset 32 = false ∧ (out32.xqQ 32).discard = false := by decide +kernel
theorem test_xqWordOffer : (queue 0 2 0 1 [w1]).xqStopped 0 = false ∧ (queue 0 2 0 1 [w1]).get (F.XQ_STS_offer 0) = 0 ∧ (queue 0 2 0 1 [w1]).xqFabricReset 0 = false ∧
    after (.xqWordOffer 0 0) (queue 0 2 0 1 [w1]) (fun t => t.get (F.XQ_STS_offer 0) = 1 ∧ (t.xqQ 0).words = [w1]) := by decide +kernel
def taken : State := (List.range 64).foldl (fun s d => s.setNode (.digit (chData 0) d) { tok := some 0, done := true })
  ((queue 0 2 0 1 [w1]).put (F.XQ_STS_offer 0) 1)
def marker : State := queue 0 2 0 1 [rstMarker, w1]
theorem test_xqWordOffer_marker : marker.sbUsed 0 = false ∧ sbMarker rstMarker.sb = true ∧ marker.get (F.XQ_STS_offer 0) = 0 ∧
    marker.xqStopped 0 = false ∧ marker.xqFabricReset 0 = false ∧
    after (.xqWordOffer 0 0) marker (fun t => t.get (F.XQ_STS_offer 0) = 0 ∧ (t.xqQ 0).words = [w1]) := by decide +kernel
theorem test_xqPopFabric : taken.offerTaken 0 = true ∧ taken.get (F.XQ_STS_offer 0) = 1 ∧
    after (.xqPopFabric 0) taken (fun t => (t.xqQ 0).words = [] ∧ t.get (F.XQ_POPPED_count 0) = 1 ∧ t.get (F.XQ_STS_offer 0) = 0) := by decide +kernel
theorem test_xqPopClocked : (queue 63 2 0 1 [w1]).xqClocked 63 false = true ∧ (queue 63 2 0 1 [w1]).ringTakes 63 = true ∧
    (queue 63 2 0 1 [w1]).groupTakes 63 = true ∧
    after (.xqPopClocked 31 0) (queue 63 2 0 1 [w1]) (fun t => (t.xqQ 63).words = [] ∧ (t.xqQ 63).got = [w1]) := by decide +kernel
theorem test_xqFlush : (queue 5 2 0 1 [w1]).get (F.XQ_STS_flushing 5) = 0 ∧ (queue 5 2 0 1 [w1]).queueRing 5 = none ∧
    (queue 5 2 0 1 [w1]).get (F.XQ_STS_open_r 5) = 0 ∧
    after (.xqFlush 5) (queue 5 2 0 1 [w1]) (fun t => (t.xqQ 5).words = [] ∧ t.get (F.XQ_FLUSHED_count 5) = 1 ∧ t.get (F.XQ_STS_flushing 5) = 1) := by
  decide +kernel
def flushHeld : State := (queue 5 2 0 1 [w1]).put (F.XQ_STS_clk_stopped 5) 1
theorem test_xqFlush_stopped : flushHeld.get (F.XQ_STS_flushing 5) = 0 ∧ flushHeld.get (F.XQ_STS_clk_stopped 5) = 1 ∧
    after (.xqFlush 5) flushHeld (fun t => (t.xqQ 5).words = [w1] ∧ (t.xqQ 5).flushDue = true ∧ t.get (F.XQ_STS_flushing 5) = 1 ∧
      after (.xqFlushDone 5) t (fun u => u.get (F.XQ_STS_flushing 5) = 1)) := by decide +kernel
theorem test_xqFlushDone : ((queue 5 2 0 1 []).xqQ 5).flushDue = false ∧ after (.xqFlushDone 5) ((queue 5 2 0 1 []).put (F.XQ_STS_flushing 5) 1) (fun t => t.get (F.XQ_STS_flushing 5) = 0) := by
  decide +kernel
theorem test_xqPause : after (.xqPause 63) running (fun t => t.get (F.XQ_CTL_pause 63) = 1) := by decide +kernel
theorem test_xqPauseSettled : after (.xqPauseSettled 63) (running.put (F.XQ_CTL_pause 63) 1) (fun t => t.get (F.XQ_STS_paused 63) = 1) := by
  decide +kernel
theorem test_xqUnpause : after (.xqUnpause 0) (running.put (F.XQ_CTL_pause 0) 1) (fun t => t.get (F.XQ_CTL_pause 0) = 0) := by decide +kernel
theorem test_xqClrCnt : after (.xqClrCnt 0) (((queue 0 2 0 1 [w1]).put (F.XQ_STS_paused 0) 1).put (F.XQ_PUSHED_count 0) 9)
    (fun t => t.get (F.XQ_PUSHED_count 0) = 1) := by decide +kernel
theorem test_xqSideReset : ((queue 40 2 0 1 [w1]).xqQ 40).inReset true = false ∧ (queue 40 2 0 1 [w1]).queueRing 40 = none ∧
    after (.xqSideReset 40 true) (queue 40 2 0 1 [w1]) (fun t => (t.xqQ 40).inReset true = true ∧ (t.xqQ 40).words = [rstMarker] ∧
      t.get (F.XQ_STS_far_reset 40) = 1) := by decide +kernel
theorem test_xqSideResetEnd : after (.xqSideResetEnd ⟨40, true⟩) ((queue 40 2 0 1 []).setXq 40 { wReset := true, rReset := true })
    (fun t => (t.xqQ 40).inReset true = false ∧ (t.xqQ 40).inReset false = true) := by decide +kernel

def evPend : State := running.put (F.REGION_EVX_IN_pending 15 7) 255
theorem test_regionEvxFire : after (.regionEvxFire 15 0xC0) evPend (fun t => t.get (F.REGION_EVX_IN_pending 15 7) = 255 ∧
    t.get (F.REGION_EVX_IN_pending 15 6) = 1 ∧ t.get (F.REGION_EVX_IN_pending 15 0) = 0) := by decide +kernel
theorem test_eventInRoundTrip : evPend.fab.setReset.getLsbD 15 = false ∧ bitOf (evPend.get (F.REGION_EVX_STS_in_busy 15)) 7 = false ∧
    after (.eventInRoundTrip 15 7) evPend (fun t => t.get (F.REGION_EVX_IN_pending 15 7) = 0 ∧ (t.evLine 15 7).flight = 255 ∧
      bitOf (t.get (F.REGION_EVX_STS_in_busy 15)) 7) := by decide +kernel
def evBusy : State := (List.range 4).foldl (fun s d => s.setNode (.digit (.evIn 0 0) d) { tok := some 0, done := true })
  ((running.put (F.REGION_EVX_STS_in_busy 0) 1).setEvLine 0 0 { flight := 3 })
theorem test_eventInAck : evBusy.outTaken (.evIn 0 0) 4 = true ∧ bitOf (evBusy.get (F.REGION_EVX_STS_in_busy 0)) 0 = true ∧
    after (.eventInAck 0 0) evBusy (fun t => t.get (F.REGION_EVX_IN_delivered 0 0) = 3 ∧ (t.evLine 0 0).flight = 0) := by decide +kernel
/-- Event-out line 0 of region 0 connected at tile (32, 4), whose outbound digit 0 holds a token. -/
def evTok : State :=
  let s := running.vset 0 0x4D (4096 + 32 * 12) 7 64
  (cfgSlot s ⟨0, 32, 4⟩ 0x44 0 1 1).setNode (.out ⟨0, 32, 4⟩ 0) { tok := some 1 }
theorem test_eventOutToken : (evTok.inValue (.evOut 0 0) 1).isSome = true ∧
    after (.eventOutToken (.region 0) 0) evTok (fun t => (t.evLine 0 8).count = 1) := by decide +kernel
theorem test_eventOutRoundTrip : after (.eventOutRoundTrip (.region 15) 7) (running.setEvLine 15 15 { count := 255 }) (fun t =>
    t.get (F.REGION_EVX_OUT_count 15 7) = 255 ∧ (t.evLine 15 15).count = 0) := by decide +kernel
/-- A crossing from domain 10 to domain 31 whose counter stands at 255, and one whose source has gone on from 4 to 9 after a request. -/
def crossed : State := (running.setClkEv (crossKey 10 31 5) { count := 255 }).setClkVal (crossKey 10 31 5) { src := 9, hold := 4, req := true }
theorem test_eventOutToken_clocked : running.clkStopped 10 = false ∧
    after (.eventOutToken (.domains 10 31) 5) running (fun t => (t.clkEv (crossKey 10 31 5)).count = 1) ∧
    after (.eventOutToken (.domains 10 31) 5) crossed (fun t => (t.clkEv (crossKey 10 31 5)).count = 255 ∧ inLog t 0x0703 0xFFFF) ∧
    after (.eventOutRoundTrip (.domains 10 31) 5) crossed (fun t => (t.clkEv (crossKey 10 31 5)).delivered = 255) := by decide +kernel
theorem test_eventOut_noLine : after (.eventOutToken (.region 0) 8) evTok (fun t => t == evTok) := by decide +kernel
theorem test_valueCrossingTransfer : crossed.clkStopped 31 = false ∧
    after (.valueCrossingTransfer ⟨10, 31, 5⟩ (some 7)) crossed (fun t => (t.clkVal (crossKey 10 31 5)).hold = 4 ∧ (t.clkVal (crossKey 10 31 5)).src = 7) ∧
    after (.valueCrossingTransfer ⟨10, 31, 5⟩ none) crossed (fun t => (t.clkVal (crossKey 10 31 5)).copy = 4 ∧ (t.clkVal (crossKey 10 31 5)).hold = 9 ∧
      (t.clkVal (crossKey 10 31 5)).req = true) ∧
    after (.valueCrossingTransfer ⟨10, 31, 5⟩ (some 7)) running (fun t => (t.clkVal (crossKey 10 31 5)).hold = 7) := by decide +kernel
theorem test_clockStopped : running.clkStopped 70 = false ∧ after (.clockStopped 70) running (fun t => t.clkStopped 70 ∧ inLogSome t 0x0707) := by
  decide +kernel
theorem test_clockReturned : after (.clockReturned 10) { running with clk := { stopped := 0x400 } } (fun t => t.clkStopped 10 = false ∧
    inLogSome t 0x0708) := by decide +kernel
def hang : State := { running with clk := { stopped := 0x400, waits := [⟨.bar0, 0x40000, none, none⟩] } }
theorem test_accessHang : hang.clk.waits.find? (fun a => domainOf a.addr == some 10) = some ⟨.bar0, 0x40000, none, none⟩ ∧
    hang.clk.hung.getLsbD 10 = false ∧ hang.get F.SUP_CROSS_CTL_force_en = 0 ∧
    after (.accessHang 10) hang (fun t => t.get F.SUP_CROSS_STS_hangs = 1 ∧ t.get F.SUP_CROSS_ADDR_addr = 0x40000 ∧ inLogSome t 0x0704) := by
  decide +kernel

/-! ## Cadence -/

/-- Cadence started, its PLL locked, and source 1 of a type, valid. -/
def cadence (type : Nat) : State :=
  let s := ({ running with cad := { run := true } } : State).put F.CAD_STS_pll_lock 1
  ((s.put (F.CAD_SRC_CTL_enable 1) 1).put (F.CAD_SRC_CTL_type 1) type).setValid 1 true
/-- Track 7 on source 1 in a state. -/
def track (type state : Nat) (x : Trk) : State :=
  ((cadence type).put (F.CAD_TRK_CTL_src 7) 1).setTrkState 7 state |>.setTrk 7 x

theorem test_trackEnable : after (.trackEnable 7 0x00020002) (cadence 0) (fun t => t.trkState 7 = 1 ∧ t.get (F.CAD_TRK_CTL_enable 7) = 1 ∧
    t.get (F.CAD_TRK_CTL_src 7) = 1 ∧ t.get (F.CAD_TRK_CTL_mul 7) = 2) := by decide +kernel
theorem test_trackDisable : after (.trackDisable 7) (track 0 4 {}) (fun t => t.trkState 7 = 0) := by decide +kernel
theorem test_acquireComplete : after (.acquireComplete 7) (track 0 1 { obs := { good := 16 } }) (fun t => t.trkState 7 = 2) := by decide +kernel
theorem test_trackHalt : (track 0 3 {}).trkRuns 7 = true ∧ after (.trackHalt 7) (track 0 3 {}) (fun t => t.trkState 7 = 4 ∧
    t.get (F.CAD_TRK_STS_halt_cause 7) = 4 ∧ inLog t 0x0503 7 ∧ t.get F.CAD_STS_trk_halt = 128) := by decide +kernel
theorem test_haltAll : after .haltAll (track 0 1 {}) (fun t => t.trkState 7 = 4 ∧ t.trkState 0 = 0) := by decide +kernel
theorem test_pllLockLost : after .pllLockLost (track 0 2 {}) (fun t => t.trkState 7 = 4 ∧ t.get (F.CAD_TRK_STS_halt_cause 7) = 5 ∧
    t.get F.CAD_STS_pll_lock = 0 ∧ t.get F.CAD_STS_pll_lost = 1) := by decide +kernel
theorem test_pllLocked : after .pllLocked running (fun t => t.get F.CAD_STS_pll_lock = 1) := by decide +kernel
theorem test_coastLimit : after (.coastLimit 7) (((track 0 3 { coastAng := 2 ^ 56 }).put (F.CAD_TRK_COAST_angle 7) 0)) (fun t => t.get (F.CAD_TRK_STS_halt_cause 7) = 1) ∧
    after (.coastLimit 7) ((track 0 3 { coastUpd := 2500 }).put (F.CAD_TRK_LIM_coast_time 7) 0) (fun t => t.get (F.CAD_TRK_STS_halt_cause 7) = 2) ∧
    after (.coastLimit 7) ((track 0 3 { coastUpd := 2499 }).put (F.CAD_TRK_LIM_coast_time 7) 0) (fun t => t.trkState 7 = 3) := by decide +kernel
theorem test_trackRearm : (track 0 4 { rem := 9 }).srcValid 1 = true ∧ after (.trackRearm 7) (track 0 4 { rem := 9 }) (fun t => t.trkState 7 = 1 ∧
    (t.trkT 7).rem = 0) ∧ after (.trackRearm 0) ((cadence 0).setTrkState 0 4) (fun t => t.trkState 0 = 4) := by decide +kernel
theorem test_trackUpdate : (track 0 3 { obs := { omega := 5 } }).overspeed 7 = false ∧
    after .trackUpdate (track 0 3 { obs := { omega := 5 } }) (fun t => t.updates = 1 ∧ (t.trkT 7).obs.theta = 160 ∧ (t.trkT 7).coastUpd = 1) := by
  decide +kernel
theorem test_trackAdjust : after (.trackAdjust 7 3) ((track 0 2 {}).put (F.CAD_TRK_STEP_step_max 7) 2) (fun t => (t.trkT 7).rem = 1 ∧
    t.get (F.CAD_TRK_STS_slewing 7) = 1 ∧ t.get (F.CAD_TRK_OFS_offset 7) = 3) ∧
    after (.trackAdjust 7 0xFFFFFFFF) ((track 0 2 {}).put (F.CAD_TRK_STEP_step_max 7) 2) (fun t => (t.trkT 7).rem = 0 ∧
    (t.trkT 7).obs.theta = 2 ^ 113 - 2 ^ 49) := by decide +kernel
theorem test_trackSwitchGo : after (.trackSwitchGo 7 1) (track 0 2 {}) (fun t => t.get (F.CAD_TRK_SW_busy 7) = 1 ∧ t.get (F.CAD_TRK_STS_switching 7) = 1) ∧
    (track 0 2 {}).srcValid 3 = false ∧ after (.trackSwitchGo 7 3) (track 0 2 {}) (fun t => t.get (F.CAD_TRK_SW_result 7) = 3 ∧
    inLog t 0x0506 7) := by decide +kernel
theorem test_switchAcquired : after (.switchAcquired 7) (track 0 3 { shadow := some { src := 2, good := 16 }, swAlign := true })
    (fun t => t.trkState 7 = 2 ∧ t.get (F.CAD_TRK_CTL_src 7) = 2 ∧ (t.trkT 7).slewDone) := by decide +kernel
theorem test_switchAcquired_limit : ((track 0 3 { shadow := some { src := 2, good := 16 }, coastAng := 2 ^ 88 }).coastCause 7) = 1 ∧
    after (.switchAcquired 7) (track 0 3 { shadow := some { src := 2, good := 16 }, coastAng := 2 ^ 88 }) (fun t => t.trkState 7 = 4) := by decide +kernel
theorem test_trackSwitchGo_busy : ((track 0 2 {}).put (F.CAD_TRK_SW_busy 7) 1).switchBusy 7 = true ∧
    after (.trackSwitchGo 7 0x701) ((track 0 2 {}).put (F.CAD_TRK_SW_busy 7) 1) (fun t => t.get (F.CAD_TRK_SW_result 7) = 3 ∧
      t.get (F.CAD_TRK_SW_timeout 7) = (track 0 2 {}).get (F.CAD_TRK_SW_timeout 7)) := by decide +kernel
theorem test_cadence_open : (cadence 0).barOpen (R.CAD_TRK_CTL 7) = true ∧ (cadence 0).barOpen R.CAD_CTL = true ∧
    (cadence 0).barOpen (R.CAD_SRC_CTL 3) = true ∧ (cadence 0).barOpen (R.CAD_TRK_SW 7) = true ∧ (cadence 0).barOpen (R.CAD_TRK_ADJ 0) = true := by
  decide +kernel
theorem test_switchAbort : after (.switchAbort 7) ((track 0 2 { shadow := some { src := 2 }, swUpd := 250000 }).put (F.CAD_TRK_SW_timeout 7) 1)
    (fun t => t.get (F.CAD_TRK_SW_result 7) = 2 ∧ inLog t 0x0506 7) := by decide +kernel
theorem test_slewComplete : after (.slewComplete 7) ((track 0 2 { slewDone := true }).put (F.CAD_TRK_SW_busy 7) 1)
    (fun t => t.get (F.CAD_TRK_SW_result 7) = 1 ∧ inLog t 0x0505 7) := by decide +kernel
theorem test_sourceEnable : after (.sourceEnable 3 8) (cadence 0) (fun t => t.get (F.CAD_SRC_CTL_enable 3) = 1 ∧ t.srcValid 3 ∧
    t.get (F.CAD_SRC_CTL_type 3) = 4) := by decide +kernel
theorem test_sourceDisable : after (.sourceDisable 1) (track 0 2 {}) (fun t => t.trkState 7 = 3 ∧ ! t.srcValid 1) := by decide +kernel
theorem test_quadEdge : (cadence 0).srcIs 1 0 = true ∧ after (.quadEdge 1 true false 7) (cadence 0) (fun t => t.srcX 1 = 2 ^ 44) ∧
    after (.quadEdge 1 true true 7) (cadence 0) (fun t => t.srcX 1 = 0 ∧ t.get (F.CAD_SRC_STS_illegal 1) = 1 ∧ inLog t 0x050B 1 ∧ ! t.srcValid 1) := by
  decide +kernel
theorem test_quadEdge_down : after (.quadEdge 1 false true 7) (cadence 0) (fun t => t.srcX 1 = 2 ^ 76 - 2 ^ 44 ∧ (t.cadSrc 1).ab = 2) ∧
    after (.quadEdge 1 false true 7) ((cadence 0).put (F.CAD_SRC_CTL_dir_inv 1) 1) (fun t => t.srcX 1 = 2 ^ 44) ∧
    after (.quadEdge 1 false false 7) (cadence 0) (fun t => t.srcX 1 = 0 ∧ t.srcValid 1) := by decide +kernel
theorem test_pulseEdge_up : (cadence 4).srcIs 1 4 = true ∧ (cadence 4).get (F.CAD_SRC_CTL_dir_inv 1) = 0 ∧
    after (.pulseEdge 1 7) (cadence 4) (fun t => t.srcX 1 = 2 ^ 44 ∧ (t.cadSrc 1).good = 1) := by decide +kernel
theorem test_pulseEdge : (cadence 4).srcIs 1 4 = true ∧ after (.pulseEdge 1 7) ((cadence 4).put (F.CAD_SRC_CTL_dir_inv 1) 1)
    (fun t => t.srcX 1 = 2 ^ 76 - 2 ^ 44) := by decide +kernel
theorem test_indexEdge : after (.indexEdge 1) ((((cadence 0).put (F.CAD_SRC_CTL_z_en 1) 1).put (F.CAD_SRC_CTL_z_home 1) 1).wr (R.CAD_SRC_ZHOME 1) 5
    |>.wr (R.CAD_SRC_POS_HI 1) 9) (fun t => t.rd (R.CAD_SRC_ZCAP 1) = 9 ∧ t.rd (R.CAD_SRC_POS_HI 1) = 5 ∧ inLog t 0x0508 1) := by decide +kernel
theorem test_indexEdge_later : after (.indexEdge 1) ((((cadence 0).put (F.CAD_SRC_CTL_z_en 1) 1)).wr (R.CAD_SRC_POS_HI 1) 9)
    (fun t => t.rd (R.CAD_SRC_ZCAP 1) = 9 ∧ t.rd (R.CAD_SRC_POS_HI 1) = 9 ∧ (t.cadSrc 1).zLast = some 9) := by decide +kernel
theorem test_analogMeasurement_types : (cadence 2).srcIs 1 2 = true ∧ ((cadence 3).put (F.CAD_SRC_ANA_b_en 1) 1).srcIs 1 3 = true ∧
    ((cadence 3).put (F.CAD_SRC_ANA_b_en 1) 1).get (F.CAD_SRC_ANA_b_en 1) = 1 := by decide +kernel
/-- Vectors along the axes and the diagonals, from hand. -/
theorem test_vectorAngle : vectorAngle 1 0 = 0 ∧ vectorAngle 3 3 = 2 ^ 29 ∧ vectorAngle 0 5 = 2 ^ 30 ∧ vectorAngle (-7) 0 = 2 ^ 31 ∧
    vectorAngle 0 (-1) = 3 * 2 ^ 30 := by decide +kernel
theorem test_analogMeasurement : (cadence 1).srcIs 1 1 = true ∧ ((cadence 1).cadSrc 1).frac = none := by decide +kernel
theorem test_mainsSingleSample : (track 3 2 {}).srcIs 1 3 = true ∧ (track 3 2 {}).get (F.CAD_SRC_ANA_b_en 1) = 0 ∧
    (List.range 8).find? (fun k => (track 3 2 {}).get (F.CAD_TRK_CTL_src k) = 1 ∧ 2 ≤ (track 3 2 {}).trkState k) = some 7 := by decide +kernel
theorem test_mainsSingleSample_early : (List.range 8).find? (fun k => (cadence 3).get (F.CAD_TRK_CTL_src k) = 1 ∧ 2 ≤ (cadence 3).trkState k) = none ∧
    ((((cadence 3).setCadSrc 1 { sample := some (-4, 0) }).cadSrc 1).sample) = some (-4, 0) := by decide +kernel
theorem test_qei : (cadence 0).qeiLost 1 = false ∧ ({ cadence 0 with pins := { losing := 0x100 } } : State).qeiLost 1 = true := by decide +kernel
theorem test_analogSourceTrigger : after (.analogSourceTrigger 1) ((((cadence 3).put (F.CAD_SRC_ANA_conv_a 1) 6).put (F.ADC_CTL_enable 6) 1).setAdc 6 { out := true })
    (fun t => t.get (F.ADC_STS_busy 6) = 1) := by decide +kernel
theorem test_sourceLost : after (.sourceLost 1) ((track 1 2 {}).setCadSrc 1 { bad := 1 }) (fun t => ! t.srcValid 1 ∧ t.trkState 7 = 3 ∧
    inLog t 0x0502 1 ∧ t.get (F.CAD_TRK_STS_lost 7) = 1) := by decide +kernel
theorem test_sourceReturn : after (.sourceReturn 1) (((cadence 1).setValid 1 false).setCadSrc 1 { good := 16 }) (fun t => t.srcValid 1) := by decide +kernel

/-! ## Spoke units and converters -/

/-- Spoke unit u started on track 3, which is in a state; an entry at its queue's head may be armed. -/
def spoke (u st : Nat) (k : Spk) : State :=
  (((running.setTrkState 3 st).put (F.SPK_CTL_track u) 3).put (F.SPK_CTL_enable u) 1).setSpk u { k with out := true }
/-- The digits of a channel of Spoke unit 0 that come out of the fabric, at the home row of its tiles, each with token 1. -/
def given (s : State) (bit n : Nat) : State :=
  (List.range n).foldl (fun s d => (cfgSlot s ⟨0, 0, 16⟩ (0x40 + (32 + d) / 8) (7 * (d % 8)) 1 1).setNode (.out ⟨0, 0, 16⟩ d) { tok := some 1 })
    (s.vset 0 0x4D (4096 * 2 + bit) 7 64)
/-- The digits of a channel of Spoke unit 0 into the fabric, all acknowledged. -/
def acked (s : State) (ch : Chan) (n : Nat) : State := (List.range n).foldl (fun s d => s.setNode (.digit ch d) { tok := some 0, done := true }) s
/-- An entry of a kind, for stamp 0, with its arguments. -/
def entry (kind a0 a1 : Nat) : BitVec 64 := BitVec.ofNat 64 (2 ^ 40 * kind + 2 ^ 48 * a0 + 2 ^ 56 * a1)
/-- A unit whose armed head is an entry that its track, 1 count on, has reached. -/
def armed (u : Nat) (e : BitVec 64) : State :=
  ((spoke u 2 { queue := [e] }).put (F.SPK_STS_armed u) 1).setTrk 3 { obs := { theta := 2 ^ 49, omega := 2 ^ 40 } }

theorem test_spokeEreq : (given ((spoke 0 2 { queue := [0] }).put (F.SPK_STS_armed 0) 1) 0 32).inValue (chEreq 0) 32 = some ((2 ^ 64 - 1) / 3) ∧
    (spoke 0 2 {}).spkTakes 0 = true ∧ (spoke 0 2 {}).spkDrops 0 = false ∧ (spoke 0 4 {}).spkDrops 0 = true ∧
    (given (spoke 0 4 {}) 0 32).inValue (chEreq 0) 32 = some ((2 ^ 64 - 1) / 3) := by decide +kernel
theorem test_spkPushHi : after (.spkPushHi 47 0 1) ((spoke 47 2 { queue := [0], pushLo := 2 }).put (F.SPK_STS_armed 47) 1)
    (fun t => (t.spkU 47).queue = [0, 0x100000002] ∧ (t.spkU 47).written = 1) ∧
    (spoke 47 2 { queue := List.replicate 64 0 }).spkDrops 47 = false ∧
    after (.spkPushHi 47 0 1) (spoke 47 2 { queue := List.replicate 64 0 }) (fun t => t.get (F.SPK_STS_push_lost 47) = 1) := by decide +kernel
theorem test_spokeSnap : after (.spokeSnap 5) (spoke 5 2 { written := 7, queue := [0] }) (fun t => t.rd (R.SPK_WRITTEN 5) = 7 ∧
    t.get (F.SPK_STS_occ_snap 5) = 1) := by decide +kernel
theorem test_spokeFlush : after (.spokeFlush 5) (spoke 5 2 { dropped := 7, queue := [0, 1] }) (fun t => (t.spkU 5).dropped = 9) := by decide +kernel
theorem test_spokeDisable : after (.spokeDisable 5) (spoke 5 2 { queue := [0, 1] }) (fun t => (t.spkU 5).dropped = 2 ∧
    t.get (F.SPK_CTL_enable 5) = 0 ∧ t.get (F.SPK_STS_parked 5) = 1) := by decide +kernel
theorem test_spoke_host : (spoke 5 2 {}).barOpen (R.SPK_CTL 5) = true ∧ (spoke 47 2 {}).barOpen (R.SPK_PUSH_HI 47) = true := by decide +kernel
/-- Pins 0 and 7 of unit 47 outputs, pin 7 active low. -/
def pins47 (s : State) : State := (((s.put (F.SPK_PINCFG_out 47 0 0) 1).put (F.SPK_PINCFG_out 47 1 3) 1).put (F.SPK_PINCFG_pol 47 1 3) 1).put
  (F.BANK_CFG_vio_ok 7) 1
theorem test_edge : (pins47 (armed 47 (entry 0 0x81 0x80))).spkArmable 47 = true ∧
    (pins47 (armed 47 (entry 0 0x81 0x80))).aheadFine 3 0 0 false < 0 ∧ (pins47 (armed 47 (entry 0 0x81 0x80))).movingDir 3 false = true ∧
    after (.edge 47 0) (pins47 (armed 47 (entry 0 0x81 0x80))) (fun t => t.pad 47 7 = .high ∧ t.pad 47 0 = .low ∧ (t.spkU 47).queue = [] ∧
      (t.spkU 47).fired = 1) := by decide +kernel
theorem test_tick : (armed 0 (entry 1 0x2F 0)).monActive 0 15 = false ∧ entryKind (entry 1 0x2F 0) = 1 ∧
    after (.tick 0 0) (armed 0 (entry 1 0x2F 0)) (fun t => t.ticksOf 0 15 = [2] ∧ (t.spkU 0).fired = 1) := by decide +kernel
theorem test_trig : after (.trig 0 0) (((armed 0 (entry 2 0x1F 0)).put (F.ADC_CTL_enable 7) 1).setAdc 7 { out := true }) (fun t => t.get (F.ADC_STS_busy 7) = 1 ∧
    (t.adcC 7).mux = 3) ∧
    after (.trig 0 0) ((((armed 0 (entry 2 0x1F 0)).put (F.ADC_CTL_enable 7) 1).put (F.ADC_STS_busy 7) 1).setAdc 7 { out := true }) (fun t => (t.adcC 7).held = some 3) ∧
    after (.nop 0 0) ((armed 0 (entry 3 0 0)).setSpk 0 { queue := [entry 3 0 0], out := true, lateAt := some 0 }) (fun t => (t.spkU 0).fired = 1) := by
  decide +kernel
theorem test_nop : after (.nop 0 0) (armed 0 (entry 3 0 0)) (fun t => (t.spkU 0).queue = [] ∧ (t.spkU 0).fired = 1) := by decide +kernel

theorem test_tickDeliver : (acked (spoke 0 2 { ticks := [(4, [1, 2])] }) (chTick 0 4) 1).outTaken (chTick 0 4) 1 = true ∧
    after (.tickDeliver 0 4) (acked (spoke 0 2 { ticks := [(4, [1, 2])] }) (chTick 0 4) 1) (fun t => t.ticksOf 0 4 = [2]) := by decide +kernel
theorem test_doneCompletion : (given (spoke 0 2 { deadlines := [(0, [⟨10, 5, false, false⟩])] }) 71 1).inValue (chDone 0 0) 1 = some 1 ∧
    after (.doneCompletion 0 0 0) (given (spoke 0 2 { deadlines := [(0, [⟨10, 5, false, false⟩])] }) 71 1)
      (fun t => t.deadlinesOf 0 0 = [] ∧ t.getS ⟨R.SPK_SLACK 0 0, 0, 16⟩ = 8192) ∧
    after (.doneCompletion 0 0 0) (given (spoke 0 2 {}) 71 1) (fun t => t.get (F.SPK_TICK_STS_spur 0) = 1) := by decide +kernel
/-- Track 3 moves up, 1 count past position 0. -/
def moving (s : State) : State := s.setTrk 3 { obs := { theta := 2 ^ 49, omega := 2 ^ 40 } }
theorem test_deadlineMiss : (moving (spoke 0 2 {})).movingDir 3 false = true ∧ (moving (spoke 0 2 {})).aheadFine 3 0 0 false = -16384000 ∧
    after (.deadlineMiss 0 3 0) (moving (spoke 0 2 { deadlines := [(3, [⟨0, 5, false, false⟩])] }))
    (fun t => t.get (F.SPK_MON_CNT_miss 0) = 1 ∧ inLog t 0x0602 3) := by decide +kernel
theorem test_slackTransfer : after .slackTransfer ((spoke 47 2 { sample := some 5, misses := 2 }).put (F.REGION_PR_STS_state (unitRegion 47)) 1) (fun t => t.pwr.samples = 3 ∧ t.pwr.smin = -4096 ∧
    (t.spkU 47).misses = 0) := by decide +kernel
theorem test_captureEdge : after (.captureEdge 5 7 true 0) (((spoke 5 2 {}).put (F.SPK_PINCFG_cap_rise 5 1 3) 1).put (F.BANK_CFG_vio_ok 0) 1)
    (fun t => (t.spkU 5).captures = [captureRecord 0 7 true true] ∧ t.get (F.SPK_PINCFG_level 5 1 3) = 1) := by decide +kernel
theorem test_captureRecordTaken : (acked (spoke 5 2 { captures := [1, 2] }) (chCap 5) 24).outTaken (chCap 5) 24 = true ∧
    after (.captureRecordTaken 5) (acked (spoke 5 2 { captures := [1, 2] }) (chCap 5) 24) (fun t => (t.spkU 5).captures = [2]) := by decide +kernel
/-- Converter 7 on slot 1 of Spoke unit 0. -/
def conv (s : State) : State :=
  (((((s.put (F.ADC_CTL_enable 7) 1).put (F.ADC_CTL_soc_en 7) 1).put (F.ADC_CTL_unit 7) 0).put (F.ADC_CTL_slot 7) 1)).setAdc 7 { out := true }
theorem test_socTrigger : (conv (given (spoke 0 2 {}) 35 1)).slotOwner 7 = true ∧ (conv (given (spoke 0 2 {}) 35 1)).inValue (chSoc 0 1) 1 = some 1 ∧
    after (.socTrigger 7 0) (conv (given (spoke 0 2 {}) 35 1)) (fun t => t.get (F.ADC_STS_busy 7) = 1 ∧ (t.adcC 7).mux = 1) := by decide +kernel
def converting : State := (((conv (spoke 0 2 {})).setAdc 7 { out := true, mux := 3, held := some 2 }).put (F.ADC_STS_busy 7) 1).put (F.PIN_CFG_claim 31) 7
theorem test_conversionComplete : after (.conversionComplete 7 0xFFFF) converting (fun t => t.get (F.ADC_LAST_code 7) = 0xFFFF ∧
    t.get (F.ADC_LAST_mux 7) = 3 ∧ t.get (F.ADC_STS_busy 7) = 1 ∧ (t.adcC 7).mux = 2 ∧ (t.adcC 7).results = [0x3FFFF]) := by decide +kernel
theorem test_resultTaken : (acked ((conv (spoke 0 2 {})).setAdc 7 { results := [1, 2], offered := true }) (chRes 0 1) 9).outTaken (chRes 0 1) 9 = true ∧
    after (.resultTaken 7) (acked ((conv (spoke 0 2 {})).setAdc 7 { results := [1, 2], offered := true }) (chRes 0 1) 9) (fun t => (t.adcC 7).results = [2]) := by
  decide +kernel

/-! ## Loads -/

def loading (l : Load) : State := { inMode .load with ldr := { load := some l }, hif := { bme := true } }

theorem test_fullLoadStart : (loading (hostLoad .entered)).ldr.load = some (hostLoad .entered) ∧ (hostLoad .entered).step = .entered := by decide +kernel
theorem test_startupSelftestDone : (loading (hostLoad .manifest)).mapView.ok = true ∧ (hostLoad .manifest).selftest = false ∧
    after (.startupSelftestDone [] true) (loading (hostLoad .manifest)) (fun t => t.ldr.load = some { hostLoad .manifest with selftest := true }) := by
  decide +kernel
theorem test_startupSelftestDone_map : ((media (loading (hostLoad .manifest))).norWrite 0x60000 [0]).mapView.ok = false ∧
    ((media (loading (hostLoad .manifest))).norWrite 0x60000 [0]).latched = false := by decide +kernel
theorem test_manifestVerified : ((loading (hostLoad .manifest)).put F.CAD_STS_pll_lock 1).get F.CAD_STS_pll_lock = 1 ∧
    (loading (hostLoad .manifest)).hif.bme = true ∧
    (List.replicate 5696 (0 : Byte)).length = 5696 ∧
    manifestCode {} ⟨(List.replicate 5696 0).take 64, slice (List.replicate 5696 0) 64 5632⟩ false 0 = 2 := by decide +kernel
def streaming : State := loading { hostLoad .stream with selftest := true, chunks := 2 }
theorem test_chunkReceived_waits : after (.chunkReceived none) { streaming with hif := {} } (fun t => t = { streaming with hif := {} }) := by decide +kernel
theorem test_chunkReceived : streaming.chunkLoad = some { hostLoad .stream with selftest := true, chunks := 2 } ∧
    SMap.get (fun _ => none) streaming.flt.streams 0 = none := by decide +kernel
theorem test_loadFrame : frameLegal 0x10105 = true ∧ (hostLoad .stream).set.getLsbD (0x10105 / 65536 % 16) = true ∧
    running.regionRetired 1 = false ∧ bare.regionRetired 1 = true ∧
    (running.loadFrame (hostLoad .stream) 0x10105 1 ((hostLoad .stream).repairRec false 0 false 1)).2.2 = 0 := by decide +kernel
theorem test_loadFrame_outside : (running.loadFrame { hostLoad .stream with set := 1 } 0x10105 1 ((hostLoad .stream).repairRec false 0 false 1)).2.2 =
    0x0D := by decide +kernel
/-- A start-up that stands at a phase of the order LOCK, OUT, GSR, WEN, with a wait after each. -/
def startup (pos : Nat) (done : Bool) : Load :=
  { hostLoad .startup with pos := pos, phaseDone := done, image := { order := 0xE4, waits := [1, 1, 1, 1] } }
theorem test_lockPhaseComplete : (loading (startup 0 false)).lockLoad = some (startup 0 false) ∧
    ((loading (startup 0 false)).put F.CAD_STS_pll_lock 1).lockDone (lockGroups []) = true ∧
    after .lockPhaseComplete ((loading (startup 0 false)).put F.CAD_STS_pll_lock 1) (fun t => t.ldr.load = some (startup 0 true) ∧
      t.get F.LDR_STS_phases = 1) := by decide +kernel
theorem test_lockTimeout : after .lockTimeout (loading (startup 0 false)) (fun t => t.ldr.load = some (startup 0 true) ∧
    t.get F.LDR_STS_lock_late = 1 ∧ inLogSome t 0x0207) := by decide +kernel
theorem test_phaseWaitExpiry_wen : phaseAt (startup 2 true).order 3 = 3 ∧ after .phaseWaitExpiry (loading (startup 2 true)) (fun t =>
    t.get F.LDR_STS_phases = 8 ∧ t.ldr.load = some (startup 3 true) ∧ t.fab.wen = 0xFFFF) := by decide +kernel
theorem test_phaseWaitExpiry_gsr : phaseAt (startup 1 true).order 2 = 2 ∧ listEntries (startup 1 true).settings 8 = [] ∧
    (loading (startup 1 true)).liveOf 0xFFFF = List.range 16 := by decide +kernel
theorem test_phaseWaitExpiry_run : (startup 3 true).pos = 3 ∧ (loading (startup 3 true)).anyRetired = false := by decide +kernel

/-- A running module with its regions in a state, and one accepted command of the mailbox. -/
def regionCmd (st : Nat) (op : BitVec 8) (arg0 arg1 : BitVec 32) : State :=
  let s := ({ bare with hif := { accepted := [⟨.mailbox, ⟨op, arg0, arg1, 0, 0, 0, 0⟩⟩] } } : State).put F.FLT_RET_REG_regions 0xFFFD
  s.put (F.REGION_PR_STS_state 1) st
theorem test_loadPartial : (regionCmd 1 0x11 0x30002 0).running = true ∧ (regionCmd 1 0x11 0x30002 0).setIn 2 [0, 1, 2, 5] = true ∧
    (regionCmd 1 0x11 0x30002 0).setCompares 2 = false ∧ (regionCmd 1 0x11 0x30002 0).unitOk 7 = true ∧
    after (.loadPartial []) (regionCmd 1 0x11 0x30002 0) (fun t => t.get F.LDR_STS_state = 7 ∧ inLog t 0x0210 2 ∧ t.ldr.regionLoad.isSome) := by
  decide +kernel
theorem test_isolateRegion : (regionCmd 1 0x13 2 0).setIn 2 [1] = true ∧ (regionCmd 1 0x13 2 0).liveOf 2 = [1] ∧ (regionCmd 1 0x13 2 0).setLoads 2 = false ∧
    after .isolateRegion (regionCmd 1 0x13 2 0) (fun t => t.regionState 1 = 2 ∧ t.fab.setReset = 2 ∧ inLog t 0x0213 2) ∧
    after .isolateRegion (regionCmd 0 0x13 2 0) (fun t => t.get F.HIF_MBOX_CMD_status = 3) := by decide +kernel
theorem test_activateRegion : (regionCmd 2 0x12 2 0).sameStart 2 = true ∧ after .activateRegion (regionCmd 2 0x12 2 0) (fun t => t.regionState 1 = 4 ∧
    t.ldr.acts.length = 1) := by decide +kernel
def regionLoad1 : Load := { hostLoad .isolate with region := true, set := 2, waiting := 2 }
def isolating : State := { bare.put F.FLT_RET_REG_regions 0xFFFD with ldr := { regionLoad := some regionLoad1 } }
theorem test_regionIsolateStep : isolating.regionRetired 1 = false ∧ isolating.get (F.REGION_COLMAP_moving 1) = 0 ∧
    isolating.partLoad = some regionLoad1 ∧ regionLoad1.waiting.getLsbD 1 = true ∧ regionLoad1.step = .isolate := by decide +kernel
def act1 (pos : Nat) (done : Bool) : Activation := ⟨2, true, none, { order := 0xE4, waits := [1, 1, 1, 1] }, [], pos, done⟩
def acting (a : Activation) : State := { bare.put F.FLT_RET_REG_regions 0xFFFD with fab := { setReset := 0xFFFF }, ldr := { acts := [a] } }
theorem test_regionPhaseAdvance : (acting (act1 3 true)).liveOf 2 = [1] ∧
    after (.regionPhaseAdvance 2 false) (acting (act1 3 true)) (fun t => t.ldr.acts = [] ∧ t.regionState 1 = 1 ∧ inLog t 0x0211 2) ∧
    after (.regionPhaseAdvance 2 false) (acting (act1 2 false)) (fun t => t.ldr.acts = [act1 2 true] ∧ t.fab.setReset = 0xFFFD) := by decide +kernel

def fused (h r : BitVec 4) : State := { running with fuses := { hashProg := h, revoked := r }, ldr := { revoke := true } }
theorem test_secRevoke_waits : running.barOpen R.SEC_REVOKE = true ∧ (fused 3 0).barOpen R.SEC_REVOKE = true ∧
    State.reset.barOpen R.SEC_REVOKE = false := by decide +kernel
theorem test_secRevokeFirst : after .secRevokeFirst running (fun t => t.ldr.revoke) := by decide +kernel
theorem test_secRevokeSecond : after (.secRevokeSecond 1) (fused 3 0) (fun t => t.fuses.revoked = 1 ∧ t.get F.SEC_FUSE_STS_revoked = 1) ∧
    after (.secRevokeSecond 2) (fused 3 1) (fun t => t.fuses.revoked = 1 ∧ t.get F.SEC_FUSE_STS_rev_refused = 1) ∧
    after (.secRevokeSecond 1) { fused 3 0 with ldr := {} } (fun t => t.fuses.revoked = 0) := by decide +kernel
theorem test_revokePairTimeout : after .revokePairTimeout (fused 3 0) (fun t => ! t.ldr.revoke) := by decide +kernel

/-! ## Serial lanes -/

/-- PCI Express in L0 with lane 5 READY, which the host margins. -/
def margining (m : Bool) : State :=
  { running.put (F.LANE_STS_state 5) 9 with hif := { link := .l0 } }.setLane 5 { margin := m }
/-- Group 11, a user group with training and automatic substitution as its lanes' registers say, its PLL locked; lane 55 is logical 0 and in a
state, lane 59 the spare in STANDBY. -/
def group (ctl : Nat) (st : Nat) (x : Lane) : State :=
  let s := ((running.wr (R.GRP_CTL 11) (BitVec.ofNat 32 ctl)).put (F.GRP_STS_pll_lock 11) 1).setGrp 11 { live := true }
  let s := (List.range 4).foldl (fun s k => (s.put (F.GRP_MAP_phys 11 k) k).put (F.LANE_STS_logical (55 + k)) k) s
  let s := ((s.put (F.GRP_MAP_spare 11) 4).put (F.LANE_STS_logical 59) 4).put (F.LANE_STS_state 59) 13
  ((s.put (F.LANE_CTL_enable 55) 1).put (F.LANE_STS_state 55) st).setLane 55 x
/-- Control fields: enable, training, automatic substitution, bonding; pcs 1 is the block coding, 2 raw. -/
def ctlOf (train auto bond pcs : Nat) : Nat :=
  let s := (((State.reset.put (F.GRP_CTL_enable 11) 1).put (F.GRP_CTL_train 11) train).put (F.GRP_CTL_spare_auto 11) auto).put (F.GRP_CTL_bond 11) bond
  ((s.put (F.GRP_CTL_pcs 11) pcs).rd (R.GRP_CTL 11)).toNat
/-- A training word with its CRC. -/
def trainingWord (body : Nat) : BitVec 64 := BitVec.ofNat 64 (body + 2 ^ 48 * crc16 (le 6 body))

theorem test_laneSignalDetect : after (.laneSignalDetect 55) (group (ctlOf 1 1 0 1) 2 {}) (fun t => t.laneState 55 = 3 ∧ t.get (F.LANE_STS_sig_det 55) = 1) := by
  decide +kernel
theorem test_laneCdrLock : (group (ctlOf 1 1 0 1) 3 {}).grpTrain 11 = true ∧ (group (ctlOf 0 0 0 1) 3 {}).grpTrain 11 = false ∧
    after (.laneCdrLock 55) (group (ctlOf 1 1 0 1) 3 {}) (fun t => t.laneState 55 = 4 ∧ t.get (F.LANE_STS_cdr_lock 55) = 1) ∧
    after (.laneCdrLock 55) ((group (ctlOf 0 0 0 1) 3 {}).put (F.LANE_CTL_rx_inv 55) 1) (fun t => t.laneState 55 = 7 ∧ t.get (F.LANE_STS_pol_inv 55) = 1) := by
  decide +kernel
theorem test_trainingFrameReceived : trainingOk (trainingWord 0xC5) = true ∧ trainingOk 0xC5 = false ∧
    after (.trainingFrameReceived 55 0x3A false false) (group (ctlOf 1 1 0 1) 4 {}) (fun t => t.get (F.LANE_STS_pol_inv 55) = 1) ∧
    after (.trainingFrameReceived 55 (trainingWord 0xC5) true false) (group (ctlOf 1 1 0 1) 4 {}) (fun t => (t.laneL 55).marks = 1) ∧
    after (.trainingFrameReceived 55 (trainingWord 0xC5) true false) ((group (ctlOf 1 1 0 1) 4 { marks := 15, slips := 1 }).put (F.LANE_FFE_preset 55) 4)
      (fun t => t.laneState 55 = 6 ∧ t.taps 55 = (4, 43, 16)) := by decide +kernel
theorem test_trainRequestTimeout : after (.trainRequestTimeout 55) (group (ctlOf 1 1 0 1) 6 { req := some (1, 1) }) (fun t => t.laneState 55 = 12 ∧
    t.get (F.LANE_STS_fail_cause 55) = 7) := by decide +kernel
theorem test_laneTrainComplete : after (.laneTrainComplete 55) ((group (ctlOf 1 1 0 1) 6 { both := 16, slips := 1 }).setTaps 55 (4, 43, 16)) (fun t =>
    t.laneState 55 = 7 ∧ (t.laneL 55).stored.isSome) := by decide +kernel
theorem test_laneAlignLock : (group (ctlOf 1 1 0 1) 7 {}).grpRaw 11 = false ∧
    after (.laneAlignLock 55) (group (ctlOf 1 1 0 1) 7 {}) (fun t => t.laneState 55 = 9 ∧ t.get (F.LANE_STS_align_lock 55) = 1) ∧
    after (.laneAlignLock 55) (group (ctlOf 1 1 1 1) 7 {}) (fun t => t.laneState 55 = 8) := by decide +kernel
theorem test_laneAligned : (group (ctlOf 0 0 0 2) 7 {}).grpRaw 11 = true ∧ after (.laneAligned 55) (group (ctlOf 0 0 0 2) 7 {}) (fun t => t.laneState 55 = 9) := by
  decide +kernel
/-- Four bonded lanes in DESKEW. -/
def deskew : State := (List.range 4).foldl (fun s k => s.put (F.LANE_STS_state (55 + k)) 8) (group (ctlOf 1 1 1 1) 8 {})
theorem test_laneDeskewDone : deskew.grpBonded 11 = true ∧ deskew.inService 11 = [0, 1, 2, 3] ∧
    after (.laneDeskewDone 11 16) deskew (fun t => t.laneState 55 = 9 ∧ t.laneState 58 = 9 ∧ t.get (F.GRP_STS_ready 11) = 1) ∧
    after (.laneDeskewDone 11 17) deskew (fun t => t.laneState 58 = 12 ∧ t.get (F.GRP_STS_deskew_err 11) = 1) := by decide +kernel
theorem test_laneStateTimeout : after (.laneStateTimeout 55) (group (ctlOf 1 1 0 1) 3 {}) (fun t => t.laneState 55 = 12 ∧
    t.get (F.LANE_STS_fail_cause 55) = 2) := by decide +kernel
theorem test_laneRetry : (group (ctlOf 1 1 0 1) 12 {}).laneEnabled 55 = true ∧ (group (ctlOf 1 1 0 1) 12 {}).laneMayRun 11 = true ∧
    after (.laneRetry 55) (group (ctlOf 1 1 0 1) 12 {}) (fun t => t.laneState 55 = 2 ∧ t.get (F.LANE_STS_attempts 55) = 1) := by decide +kernel
theorem test_laneRestart : after (.laneRestart 55) ((group (ctlOf 1 1 0 1) 9 {}).put (F.LANE_STS_attempts 55) 5) (fun t => t.laneState 55 = 2 ∧
    t.get (F.LANE_STS_attempts 55) = 0) := by decide +kernel
theorem test_groupPllLock : after (.groupPllLock 11) ((group (ctlOf 1 1 0 1) 1 {}).put (F.GRP_STS_pll_lock 11) 0) (fun t => t.laneState 55 = 2 ∧
    t.get (F.GRP_STS_pll_lock 11) = 1) := by decide +kernel
theorem test_groupPllLost : after (.groupPllLost 11) (group (ctlOf 1 1 0 1) 9 {}) (fun t => t.laneState 55 = 12 ∧ t.laneState 56 = 0 ∧
    t.get (F.LANE_STS_fail_cause 55) = 9) := by decide +kernel
theorem test_groupRestart : after (.groupRestart 11) (group (ctlOf 1 1 0 1) 9 {}) (fun t => t.laneState 55 = 2) := by decide +kernel

theorem test_laneFailure : (group (ctlOf 0 0 0 1) 9 {}).grpAuto 11 = false ∧ (group (ctlOf 1 1 0 1) 9 {}).grpAuto 11 = true ∧
    after (.laneFailure 55 4) (group (ctlOf 0 0 0 1) 9 {}) (fun t => t.laneState 55 = 12 ∧ t.get (F.LANE_STS_fail_cause 55) = 4) ∧
    after (.laneFailure 55 1) (group (ctlOf 1 1 0 1) 9 {}) (fun t => t.laneState 55 = 12 ∧ t.get (F.GRP_MAP_phys 11 0) = 4 ∧
      t.laneLogical 59 = 0 ∧ (t.grpG 11).sub = some ⟨0, 0, true, false, false, false⟩) := by decide +kernel
/-- Lane 59 takes the place of lane 55 as logical lane 0. -/
def switching (st : Nat) (ack : Bool) : State :=
  let s := ((group (ctlOf 1 1 0 1) 12 {}).laneMove 11 0 4).setGrp 11 { live := true, sub := some { k := 0, old := 0, declared := true, ack := ack } }
  (s.put (F.LANE_STS_state 59) st).put (F.LANE_STS_align_lock 59) 1
theorem test_substitutionSwitch : (switching 7 true).lanePhys 11 0 = 59 ∧ after (.substitutionSwitch 11) (switching 7 true) (fun t => t.laneState 59 = 9 ∧
    t.laneLogical 55 = 5 ∧ (t.grpG 11).sub = none) := by decide +kernel
theorem test_substitutionTimeout : (switching 7 false).latched = false ∧ after (.substitutionTimeout 11) (switching 7 false) (fun t => t.get (F.GRP_MAP_phys 11 0) = 0 ∧ t.laneLogical 55 = 5 ∧
    t.mode = .limp) := by decide +kernel
/-- Group 1 with lane 5 failed; the spare is lane 9, or none. -/
def pcieFail (none : Nat) : State :=
  ((({ running.put (F.LANE_STS_state 5) 9 with hif := { link := .l0 } }.setLane 5 { stored := some 7 }).put (F.GRP_MAP_spare 1) 4).put (F.GRP_MAP_spare_none 1) none).put (F.LANE_STS_logical 9) 4
theorem test_pcieLaneFailover : (pcieFail 0).lanePhys 1 ((pcieFail 0).laneLogical 5) = 5 ∧
    after (.pcieLaneFailover 5) (pcieFail 0) (fun t => t.laneState 9 = 12 ∧ t.hif.link = .recovery ∧ t.get (F.GRP_MAP_phys 1 0) = 4 ∧
      t.laneLogical 5 = 5 ∧ (t.laneL 9).stored = some 7) ∧
    after (.pcieLaneFailover 5) ((pcieFail 0).put (F.LANE_STS_state 5) 12) (fun t => t = (pcieFail 0).put (F.LANE_STS_state 5) 12) ∧
    (pcieFail 1).get (F.GRP_MAP_spare_none 1) = 1 := by decide +kernel
theorem test_laneSubstitute : after (.laneSubstitute 55) (group (ctlOf 0 0 0 1) 12 {}) (fun t => t.get (F.GRP_MAP_phys 11 0) = 4 ∧
    t.laneLogical 59 = 0 ∧ t.laneLogical 55 = 5 ∧ t.laneState 59 = 2) := by decide +kernel

theorem test_fillerReceived : ((group (ctlOf 1 1 0 1) 9 {}).put (F.GRP_CTL_rate_match 11) 1).rateMatched 11 = true ∧
    after (.fillerReceived 55 31) ((group (ctlOf 1 1 0 1) 9 {}).put (F.GRP_CTL_rate_match 11) 1) (fun t => t.get (F.LANE_RM_fill 55) = 30 ∧
      t.get (F.LANE_RM_CNT_deleted 55) = 1) ∧
    after (.fillerReceived 55 1) ((group (ctlOf 1 1 0 1) 9 {}).put (F.GRP_CTL_rate_match 11) 1) (fun t => t.get (F.LANE_RM_fill 55) = 2 ∧
      t.get (F.LANE_RM_CNT_repeated 55) = 1) ∧
    after (.fillerReceived 55 32) ((group (ctlOf 1 1 0 1) 9 {}).put (F.GRP_CTL_rate_match 11) 1) (fun t => t.get (F.LANE_RM_fill 55) = 16) := by
  decide +kernel
theorem test_laneRxWord : after (.laneRxWord 55 7 0xFFFF) (group (ctlOf 1 1 1 1) 9 {}) (fun t => (t.laneL 55).rx = [(7, 0x4000)]) ∧
    after (.laneRxWord 56 7 0xFFFF) ((group (ctlOf 1 1 0 1) 9 {}).put (F.LANE_STS_state 56) 9) (fun t => (t.laneL 56).rx = [(7, 0xDF03)]) ∧
    after (.laneRxWord 55 7 0) (group (ctlOf 1 1 1 1) 9 { rx := List.replicate 64 (0, 0) }) (fun t => t.get (F.LANE_ERR_rx_drop 55) = 1) := by
  decide +kernel
theorem test_laneSlip : after (.laneSlip 55) (group (ctlOf 0 0 0 2) 7 {}) (fun t => (t.laneL 55).slips = 1) := by decide +kernel
theorem test_lanePowerRequest : after (.lanePowerRequest 55 2) (group (ctlOf 1 1 1 1) 9 {}) (fun t => t.laneState 55 = 11 ∧ t.get (F.LANE_CTL_power 55) = 2) ∧
    after (.lanePowerRequest 55 3) (group (ctlOf 1 1 1 1) 11 {}) (fun t => t.laneState 55 = 3) ∧
    after (.lanePowerRequest 55 1) (group (ctlOf 1 1 1 1) 8 {}) (fun t => t.get (F.LANE_STS_pwr_refused 55) = 1) := by decide +kernel
theorem test_powerNoticeReceived : after (.powerNoticeReceived 55 true) (group (ctlOf 1 1 1 1) 11 {}) (fun t => t.get (F.LANE_STS_rx_pwr 55) = 2) := by
  decide +kernel
theorem test_adaptWindow : after (.adaptWindow 55 30 false) (group (ctlOf 1 1 1 1) 9 {}) (fun t => t.get (F.LANE_STS_qualified 55) = 1) ∧
    after (.adaptWindow 55 29 false) (group (ctlOf 1 1 1 1) 9 { eq := [3] }) (fun t => t.get (F.LANE_STS_clamped 55) = 1 ∧ (t.laneL 55).eq = [3]) ∧
    after (.laneFailure 55 0) (group (ctlOf 1 1 1 1) 9 {}) (fun t => t.get (F.LANE_ERR_code_err 55) = 1) := by decide +kernel
theorem test_eyeScanStart : after (.eyeScanStart 59) running (fun t => t.get (F.LANE_ES_CTL_start 59) = 1) := by decide +kernel
theorem test_eyeScanDone : after (.eyeScanDone 59 0xFFFFFFFFFFFF) (running.put (F.LANE_ES_CTL_start 59) 1) (fun t =>
    t.get (F.LANE_ES_ERR_errors 59) = 0x100000 ∧ t.get (F.LANE_ES_CTL_done 59) = 1) := by decide +kernel
theorem test_margin : after (.eyeScanStart 5 true) (margining false) (fun t => (t.laneL 5).margin) ∧
    after (.eyeScanDone 5 9) (margining true) (fun t => ! (t.laneL 5).margin) ∧
    after (.powerNoticeReceived 5 true) (margining false) (fun t => t.hif.link = .l1 ∧ t.laneState 5 = 12) := by decide +kernel
theorem test_eyeMonitor : after (.eyeMonitor 55 9 8) (group (ctlOf 1 1 1 1) 9 {}) (fun t => t.get (F.LANE_EYE_height 55) = 9 ∧ t.get (F.LANE_EYE_width 55) = 8) ∧
    after (.eyeMonitor 55 9 8) (group (ctlOf 1 1 1 1) 8 {}) (fun t => t.get (F.LANE_EYE_valid 55) = 0) := by decide +kernel

/-! ## Peloton -/

/-- Port p in a state. -/
def port (p st : Nat) (x : Port) : State := (running.put (F.PEL_PSTS_state p) st).setPort p x
/-- The sent blocks of a port, by type. -/
def sentOn (s : State) (p type : Nat) : Bool := s.pel.sent.any (fun b => b.port == p && b.type == type)

theorem test_portEnable : after (.portEnable 3) running (fun t => t.portState 3 = 1 ∧ t.get (F.PEL_PCTL_enable 3) = 1) := by decide +kernel
theorem test_initReceived : after (.initReceived 3 0x04030201) (port 3 2 {}) (fun t => (t.portP 3).gotInit ∧ (t.portP 3).txCr = [4, 8, 12, 16]) ∧
    after (.initReceived 3 0) (port 3 3 {}) (fun t => t.portState 3 = 4) := by decide +kernel
theorem test_initBlockSend : after (.initBlockSend 3) (port 3 2 { gotInit := true }) (fun t => t.portState 3 = 3) ∧
    after (.initBlockSend 3) (port 3 2 {}) (fun t => t.portState 3 = 2 ∧ sentOn t 3 0xEC) ∧
    after (.initBlockSend 3) (port 3 4 {}) (fun t => t.portState 3 = 2 ∧ sentOn t 3 0xEC) := by decide +kernel
theorem test_heartbeatSend : after (.heartbeatSend 3) (port 3 2 {}) (fun t => sentOn t 3 0xE6) ∧ (port 3 2 {}).pel.events = [] := by decide +kernel
theorem test_heartbeatReceived : after (.heartbeatReceived 3 0xFFE) (port 3 3 {}) (fun t => t.get (F.PEL_PSTS_partner 3) = 0xFFE) := by decide +kernel
theorem test_hopFault : after (.hopFault 0) (port 0 3 { buf := [⟨⟨1, 2, 0, 1, 0, false, 0, [], 0⟩, 0, 1, 1⟩] }) (fun t => t.portState 0 = 0 ∧
    t.get (F.PEL_PSTS_fault 0) = 1 ∧ (t.portP 0).buf = []) := by decide +kernel
theorem test_stripe : after (.stripe 0 7) (port 0 3 {}) (fun t => t.get (F.PEL_PSTS_lanes 0) = 7) ∧
    after (.stripe 0 7) (((port 0 3 {}).put (F.PEL_PSTS_lanes 0) 15).put (F.PEL_PCTL_ledger 0) 1) (fun t => t.get (F.PEL_PCTL_ledger 0) = 0) := by decide +kernel
theorem test_pelFlush : after (.pelFlush 0) (port 0 3 { txCr := [1, 2, 3, 4] }) (fun t => t.portState 0 = 4 ∧ (t.portP 0).txCr = [0, 0, 0, 0]) := by
  decide +kernel

theorem test_frameHdr : after (.frameHdr 0 0x00000800000005) (port 0 3 {}) (fun t => (t.portP 0).rx.isSome ∧ (t.portP 0).nextId = 1) := by decide +kernel
/-- A MGMT frame whose header has arrived on port 1. -/
def mgmtRx : RxFrame := { f := { dst := 0, src := 0, len := 2, vc := 3, type := 1 }, id := 0, mgmt := true }
def mgmtFrame : PFrame := { mgmtRx.f with payload := [1, 2], e2e := { mgmtRx.f with payload := [1, 2] }.check }
theorem test_frameTrailer : (port 1 3 { rx := some mgmtRx }).portUp 1 = true ∧ ((port 1 3 { rx := some mgmtRx }).portP 1).inTurn 3 0 = true ∧ mgmtFrame.check = mgmtFrame.e2e ∧
    after (.frameTrailer 1 [1, 2] mgmtFrame.e2e mgmtFrame.hopCrc false) (port 1 3 { rx := some mgmtRx })
      (fun t => t.pel.mgmt = [(1, mgmtFrame)] ∧ t.get (F.PEL_FRAMES_RX_count 1) = 1) ∧
    after (.frameTrailer 1 [1, 2] mgmtFrame.e2e (mgmtFrame.hopCrc + 1) false) (port 1 3 { rx := some mgmtRx })
      (fun t => t.pel.mgmt = [] ∧ t.get (F.PEL_ERR_hop_crc 1) = 1) := by decide +kernel
/-- Queue 32 bound to VC 1 of port 1, with an item of no payload for address 1, in a chain of two; this module is the lead. -/
def itemSend : State :=
  let s := ((port 1 3 { txCr := [1, 1, 1, 1] }).put (F.XQ_CTL_enable 32) 1).put (F.XQ_BIND_kind 32) 2
  let s := ((s.put (F.XQ_BIND_index 32) 1).put (F.XQ_BIND_vc 32) 1).setXq 32 { words := [xword 1 3] }
  let s := ((s.put F.PEL_ADDR_valid 1).put F.PEL_ADDR_is_lead 1).put F.PEL_ADDR_members 2
  ((s.put (F.PEL_RANGE_valid 1) 1).put (F.PEL_RANGE_lo 1) 1).put (F.PEL_RANGE_hi 1) 1
theorem test_itemSend_route (f : PFrame) (h : f.dst = 1) : itemSend.route f none = ([1], none) := by
  have h2 : itemSend.isRing = false := by decide +kernel
  have h3 : itemSend.treePort 1 = 1 := by decide +kernel
  have h4 : itemSend.portUp 1 = true := by decide +kernel
  simp [State.route, h, h2, h3, h4]
theorem test_pelotonItemSend : itemSend.xqBound 32 = some (2, 1, 1) ∧ itemSend.xqClocked 32 false = true ∧ itemSend.xqStopped 32 = false ∧
    itemSend.ownAddr 1 = false ∧ itemSend.get (F.PEL_PCTL_ledger 1) = 0 ∧
    after (.pelotonItemSend 0) itemSend (fun t => (t.xqQ 32).words = [] ∧ sentOn t 1 0xE1) := by decide +kernel
theorem test_credit : after (.credit 3 (BitVec.ofNat 56 (2 ^ 56 - 1))) (port 3 3 { txCr := [1, 2, 3, 4], lastTot := [16383, 0, 1, 16382] })
    (fun t => (t.portP 3).txCr = [1, 16385, 16385, 5]) := by decide +kernel
theorem test_creditReturn : after (.creditReturn 3) (port 3 3 { unret := [0, 0, 0, 1] }) (fun t => sentOn t 3 0xE3) := by decide +kernel
theorem test_delayMeasure : after (.delayMeasure 3) (port 3 3 { reqId := 255 }) (fun t => (t.portP 3).reqId = 0 ∧ sentOn t 3 0xE7) := by decide +kernel
theorem test_delayReq : after (.delayReq 3 7 1) (port 3 3 {}) (fun t => t.pel.sent = [⟨3, 0xE8, 263, [], false, none⟩]) := by decide +kernel
theorem test_delayResp : after (.delayResp 3 7 100 301) (port 3 3 { reqId := 7, reqOpen := true }) (fun t => t.get (F.PEL_DELAY_delay 3) = 100) := by
  decide +kernel
theorem test_pelLedger : after (.pelLedger 3) (port 3 3 {}) (fun t => t.get (F.PEL_PCTL_ledger 3) = 1 ∧ sentOn t 3 0xE9) := by decide +kernel
theorem test_ledgerMark : after (.ledgerMark 3) (port 3 3 {}) (fun t => sentOn t 3 0xEA) := by decide +kernel
def ledger : State := (port 3 3 { marked := true, mask := 8, txCr := [0, 0, 0, 3], partnerAllot := [0, 0, 0, 8] }).put (F.PEL_PCTL_ledger 3) 1
theorem test_ledgerAns : after (.ledgerAns 3 (BitVec.ofNat 44 (5 * 2 ^ 33))) ledger (fun t => t.get (F.PEL_LEDGER_balanced 3 3) = 1 ∧
    t.get (F.PEL_LEDGER_held 3 3) = 5 ∧ t.get (F.PEL_LEDGER_valid 3 0) = 0 ∧ t.get (F.PEL_PCTL_ledger 3) = 0) := by decide +kernel
theorem test_ledgerTimeout : after (.ledgerTimeout 3) ledger (fun t => t.get (F.PEL_PCTL_ledger 3) = 0) := by decide +kernel

theorem test_phaseSend : itemSend.leads = true ∧ 1 ∈ itemSend.rolePorts ∧ after .phaseSend itemSend (fun t => t.pel.seq = 1 ∧ sentOn t 1 0xE5) := by
  decide +kernel
/-- A PHASE frame of epoch 1. -/
def phase1 : Phase := ⟨1, 2, 3, 2, 1, 9, 4000, 17⟩
theorem test_phaseReceived : (port 1 3 {}).leads = false ∧ (port 1 3 {}).phaseNew phase1 = true ∧ phase1.bytes.length = 32 ∧
    Phase.ofBytes phase1.bytes = phase1 ∧
    after (.phaseReceived 1 (BitVec.ofNat 56 (phase1.frame 0 5).body) phase1.bytes (phase1.frame 0 5).e2e (phase1.frame 0 5).hopCrc 0 0)
      ((port 1 3 {}).put (F.PEL_DELAY_delay 1) 3) (fun t => t.get F.PEL_PHASE_epoch = 1 ∧ t.get F.PEL_AGE_age = 20 ∧ t.get F.PEL_PHASE_hops = 5) := by
  decide +kernel
theorem test_pelEnum : itemSend.enumPorts true = [1] ∧ after .pelEnum itemSend (fun t => t.pel.en = some { next := 1, ports := [], cur := some (1, 1) }) ∧
    (running.put F.PEL_ADDR_is_lead 1).enumPorts true = [] ∧
    after .pelEnum (running.put F.PEL_ADDR_is_lead 1) (fun t => t.get F.PEL_ADDR_members = 1) := by decide +kernel
theorem test_enumTriggerDelay : after .enumTriggerDelay itemSend (fun t => t.pel.en.isSome) := by decide +kernel
/-- A MGMT frame of a type for the supervisor. -/
def mgmt (p type : Nat) (payload : List Byte) : State :=
  { running with pel := { mgmt := [(p, { dst := 0, src := 9, len := payload.length, vc := 3, type := type, payload := payload })] } }
theorem test_enum : after .enum (mgmt 0 0 [0xFE, 0x0F]) (fun t => t.get F.PEL_ADDR_addr = 0xFFE ∧ t.hasAddr) := by decide +kernel
theorem test_enum_second : after (.enum true) ((mgmt 0 0 [1, 0]).put F.PEL_CFG_alt_strap 1) (fun t => t.pel.altOff) ∧
    after .enum { mgmt 0 0 [1, 0] with pel := { (mgmt 0 0 [1, 0]).pel with yielded := true } } (fun t => ! t.hasAddr) := by decide +kernel
theorem test_enumReply : after .enumReply ((mgmt 3 1 [7, 0]).setPel { (mgmt 3 1 [7, 0]).pel with en := some { next := 5, ports := [], cur := some (3, 5) } })
    (fun t => t.get (F.PEL_RANGE_lo 3) = 5 ∧ t.get (F.PEL_RANGE_hi 3) = 7) := by decide +kernel
theorem test_enumDone : after .enumDone (mgmt 0 2 [64, 0]) (fun t => t.get F.PEL_ADDR_members = 64) := by decide +kernel
theorem test_completion : after .completion (mgmt 0 5 [1, 0, 0, 0, 2, 0, 0, 0, 3]) (fun t => t.pel.completions = [(1, 2, 3)]) := by decide +kernel
/-- The event ring enabled with a slot free. -/
def evRing (s : State) : State :=
  { ((s.put (F.HIF_RING_CFG_enable 2) 1).put (F.HIF_RING_STS_active 2) 1).put (F.HIF_RING_OWN_dev_owned 2) 1 with hif := { s.hif with bme := true } }
theorem test_mgmtEvent : (evRing ((mgmt 0 6 [1, 5, 7, 0]).put F.PEL_ADDR_is_lead 1)).ringFree 2 = true ∧
    after .mgmtEvent (evRing ((mgmt 0 6 [1, 5, 7, 0]).put F.PEL_ADDR_is_lead 1)) (fun t => t.hif.evtSeq = 1 ∧ t.hif.writes.length = 1) := by
  decide +kernel
theorem test_handback : after .handback (((mgmt 0 7 [254]).put F.PEL_CFG_lead_strap 1).setTrkState 0 2) (fun t => t.get F.PEL_ADDR_is_lead = 1 ∧
    t.pel.epoch = 0 ∧ t.hasAddr) := by decide +kernel
theorem test_pelHandbackWrite : after .pelHandbackWrite (((port 1 3 { txCr := [1, 1, 1, 1] }).put F.PEL_ADDR_valid 1).put F.PEL_ADDR_acting_lead 1) (fun t => sentOn t 1 0xE1) := by
  decide +kernel
theorem test_leadListenEnd : after .leadListenEnd (running.setPel { listening := true }) (fun t => t.get F.PEL_ADDR_is_lead = 1 ∧ t.hasAddr) := by
  decide +kernel
theorem test_leadLost : (running.put F.PEL_CFG_alt_strap 1).leads = false ∧ after .leadLost (running.put F.PEL_CFG_alt_strap 1) (fun t =>
    t.get F.PEL_ADDR_acting_lead = 1 ∧ t.pel.epoch = 1) := by decide +kernel

/-! ## Rings and the link -/

/-- Ring n enabled with 16 slots at address 0x1000, its tail at slot 5, Bus Master Enable at 1. -/
def ring (n : Nat) : State :=
  let s := { running with hif := { bme := true } }
  (s.ringCfgWrite n 0x10009).doorbell n 5 |>.wr (R.HIF_RING_BASE_LO n) 0x1000

theorem test_ringEnable : isRing 0x5F = true ∧ running.barOpen (R.HIF_RING_CFG 0x5F) = true ∧ running.get (F.HIF_RING_CFG_enable 0x5F) = 0 ∧ isRing 0x1F = false ∧
    (ring 0x20).get (F.HIF_RING_CFG_enable 0x20) = 1 ∧
    after (.ringEnable 0x5F 0xFFFFFFF8) running (fun t => t.rd (R.HIF_RING_CFG 0x5F) = 0xFFFF1FD9 ∧ t.get (F.HIF_RING_STS_pos 0x5F) = 0) ∧
    after (.ringEnable 1 0x10012) running (fun t => t.get (F.HIF_RING_OWN_dev_owned 1) = 512) := by decide +kernel
/-- Ring 0x5F owns a descriptor at slot 1. -/
def owns (n : Nat) (len : Nat) : State := (ring n).setRing n { (ring n).ring n with owned := [⟨1, 0x9000, len, 0xD, 3, 0, 0⟩] }
theorem test_ringDisable : after (.ringDisable 0x5F) (owns 0x5F 64) (fun t => t.get (F.HIF_RING_CFG_enable 0x5F) = 0 ∧ (t.ring 0x5F).owned = [] ∧
    t.hif.writes = [⟨0x1028, [0, 0, 0, 0, 0xF, 3, 7, 0, 0, 0, 0, 0]⟩]) := by decide +kernel
theorem test_ringDisable_waits : after (.ringDisable 0x5F) { owns 0x5F 64 with hif := { (owns 0x5F 64).hif with bme := false } } (fun t =>
    t.get (F.HIF_RING_STS_active 0x5F) = 1 ∧ t.hif.writes = [] ∧ (t.ring 0x5F).late.length = 1) := by decide +kernel
theorem test_busMasterEnable : after (.busMasterEnable false) running (fun t => ! t.hif.bme) ∧ (running.ring 0x5F).late = [] ∧
    after (.busMasterEnable true) (running.setRing 0x5F { late := [(⟨1, 0, 16, 1, 0, 0, 0⟩, 7)] }) (fun t => t.hif.bme ∧
      t.hif.writes.map (fun w => w.data.getD 6 0) = [7] ∧ (t.ring 0x5F).late = []) := by decide +kernel
theorem test_configuration : after (.busMasterEnable true (.control 0 2 true false)) running (fun t => ! t.hif.bme ∧ t.hif.cfg.d3) ∧
    after (.busMasterEnable true (.read 0)) running (fun t => t.readData = 0x23601F4C) ∧ running.hif.cfg.d3 = false ∧
    after (.doorbell 0x7E004 0 true) { running with hif := { table := [(0x7E004, 9)] } } (fun t => t.readData = 9) := by decide +kernel
theorem test_doorbell : running.mode ≠ .cold ∧ after (.doorbell 0x7E3FC 7) running (fun t => SMap.get (fun _ => 0) t.hif.table 0x7E3FC = 7) ∧
    (ring 0x5F).ringSlots 0x5F = 16 ∧ after (.doorbell 0x5F000 15) (ring 0x5F) (fun t => (t.ring 0x5F).door = 15) ∧
    after (.doorbell 0x2000 15) ((ring 2).put (F.HIF_RING_STS_pos 2) 3) (fun t => t.get (F.HIF_RING_OWN_dev_owned 2) = 12) ∧
    after (.doorbell 0x5F000 16) (ring 0x5F) (fun t => (t.ring 0x5F).door = 5) := by decide +kernel
/-- A descriptor of Table 13.5 in 32 bytes. -/
def raw (len : Nat) (flags tag : Byte) : List Byte := le 8 0x9000 ++ le 4 len ++ [flags, tag] ++ List.replicate 18 0
/-- Queue q enabled and bound to the host ring r. -/
def bound (s : State) (q r : Nat) : State := ((s.put (F.XQ_CTL_enable q) 1).put (F.XQ_BIND_kind q) 1).put (F.XQ_BIND_index q) r
theorem test_descriptorFetched : (ring 0x5F).ringFetches 0x5F = true ∧ (ring 0x5F).slotOwned 0x5F 1 = true ∧ (ring 0x5F).slotOwned 0x5F 3 = false ∧
    ((bound (ring 0x5F) 32 31).descBad 0x5F (dataDesc 0 (raw 16 1 0))) = none ∧
    (ring 0x5F).descBad 0x5F { dataDesc 0 (raw 8 1 0) with flags := 1 } = some 2 ∧
    after (.descriptorFetched 0x5F (raw 16 1 0)) (bound (ring 0x5F) 32 31) (fun t => (t.ring 0x5F).owned.length = 1 ∧
      t.get (F.HIF_RING_STS_pos 0x5F) = 1 ∧ t.get (F.HIF_RING_OWN_dev_owned 0x5F) = 1) ∧
    after (.descriptorFetched 0x5F (raw 16 1 0)) (ring 0x5F) (fun t => t.hif.writes = [⟨0x1008, [0, 0, 0, 0, 3, 0, 3, 0, 0, 0, 0, 0]⟩]) ∧
    after (.descriptorFetched 0x5F (raw 16 3 0)) (ring 0x5F) (fun t => (t.ring 0x5F).rereads = 1) := by decide +kernel
/-- The command ring and the completion ring in use. -/
def admin : State :=
  let s := (ring 0).ringCfgWrite 1 0x10009
  s.doorbell 0 5
/-- A command of an opcode, in 32 bytes: QUERY is 2, NOP 1. -/
def cmd (op : Byte) : List Byte := [op, 1, 9, 0] ++ List.replicate 28 0
theorem test_adminFetch : admin.mayFetch = true ∧ admin.slotOwned 0 1 = true ∧
    after (.adminFetch (cmd 1)) admin (fun t => t.hif.accepted.length = 1 ∧ t.get (F.HIF_RING_STS_pos 0) = 1) ∧
    after (.adminFetch (cmd 0xEE)) admin (fun t => t.hif.accepted.length = 0 ∧ t.hif.writes.length = 2) := by decide +kernel
theorem test_staleRecheck : (ring 0x5F).slotOwned 0x5F 0 = false ∧
    after (.staleRecheck 0x5F (raw 16 0 0)) ((ring 0x5F).setRing 0x5F { (ring 0x5F).ring 0x5F with rereads := 7 }) (fun t =>
      (t.ring 0x5F).stopped ∧ t.get (F.HIF_RING_STS_stale 0x5F) = 1 ∧ inLog t 0x0120 0x5F) ∧
    after (.staleRecheck 0x5F (raw 16 0 0)) ((ring 0x5F).setRing 0x5F { (ring 0x5F).ring 0x5F with rereads := 6 }) (fun t =>
      (t.ring 0x5F).rereads = 7) := by decide +kernel

def h2f : State := bound (owns 0x20 17) 0 0
theorem test_h2fDataRead : h2f.ringQueue 0x20 = some 0 ∧ h2f.queueRing 0 = some 0x20 ∧ h2f.xqStopped 0 = false ∧
    h2f.get (F.XQ_STS_clk_stopped 0) = 0 ∧
    after (.h2fDataRead 0 (List.replicate 17 1)) h2f (fun t => (t.xqQ 0).words.map XWord.sb = [sbOf true false 0 3, sbOf false true 1 3] ∧
      (t.ring 0x20).owned = [] ∧ t.hif.writes = [⟨0x102C, [0xF, 3, 0, 0, 2, 0, 0, 0]⟩]) := by decide +kernel
def f2h (eoi : Bool) : State := (bound (owns 0x5F 32) 32 31).setXq 32 { got := [xword 0x0201 (sbOf true eoi 2 5)] }
theorem test_f2hWordPop : (f2h true).ringQueue 0x5F = some 32 ∧
    after (.f2hWordPop 31) (f2h true) (fun t => (t.ring 0x5F).owned = [] ∧
      t.hif.writes = [⟨0x9000, [1, 2]⟩, ⟨0x1028, [2, 0, 0, 0, 0xF, 5, 0, 0, 1, 0, 0, 0]⟩]) ∧
    after (.f2hWordPop 31) (f2h false) (fun t => (t.ring 0x5F).owned.map DataDesc.bytes = [2]) := by decide +kernel
theorem test_irqCoalesceTimeout : after (.irqCoalesceTimeout 0x5F) (((ring 0x5F).wr (R.HIF_RING_CFG 0x5F) 0x01011FD9).setRing 0x5F { unsig := 1 })
    (fun t => t.hif.msix = [0x3F] ∧ (t.ring 0x5F).unsig = 0) := by decide +kernel
theorem test_dmaError : after (.dmaError 0x5F .descriptor) (ring 0x5F) (fun t => (t.ring 0x5F).stopped ∧ t.get F.HIF_STS_dma_err = 1 ∧
      inLog t 0x0121 0x5F) ∧
    after (.dmaError 0x5F .data) (f2h true) (fun t => (t.ring 0x5F).owned = [] ∧ t.hif.writes.map (fun w => w.data.getD 6 0) = [8]) := by
  decide +kernel
theorem test_dmaError_event : (ring 2).ringRuns 2 = true ∧ after (.dmaError 2 .descriptor) (ring 2) (fun t =>
    t.get (F.HIF_RING_STS_dma_err 2) = 1 ∧ inLog t 0x0121 2) := by decide +kernel
theorem test_dmaError_stream : (inMode .load |>.setLoad (some (hostLoad .stream))).ldr.load = some (hostLoad .stream) ∧
    (hostLoad .stream).source = 3 ∧ (hostLoad .stream).step ≠ .startup ∧ (hostLoad .stream).region = false := by decide +kernel
/-- An admin command accepted from the command ring. -/
def accepted (d : AdminDesc) : State := { admin with hif := { admin.hif with accepted := [⟨.ring 9 0, d⟩] } }
def desc (op : Byte) : AdminDesc := { opcode := op, arg0 := 0, arg1 := 0, arg2 := 0, arg3 := 0, addr := 0x8000, len := 0x1000 }
theorem test_dmaError_buffer : (desc 2).needsHost = true ∧ (accepted (desc 2)).ringFree 1 = true ∧
    after (.dmaError 0 .buffer) (accepted (desc 2)) (fun t => t.hif.accepted = [] ∧ t.hif.writes.map (fun w => w.data.getD 0 0) = [8]) := by
  decide +kernel

/-- The lanes of G0 and G1 as the repair map gives them. -/
def mapped : State := (List.range 2).foldl State.grpApply running
theorem test_pcieLinkUp : mapped.unitOk 3 = true ∧ (linkLanes false 8).all (fun i => (mapped.inService (i / 4)).contains (i % 4)) = true ∧
    (linkLanes false 8).all (fun i => (running.inService (i / 4)).contains (i % 4)) = false ∧ after (.pcieLinkUp 3 3) mapped (fun t => t.get F.HIF_STS_link_up = 1 ∧
    t.get F.HIF_STS_speed = 4 ∧ t.get F.HIF_STS_width = 8) := by decide +kernel
theorem test_linkDown : after .linkDown { running.put F.HIF_STS_link_up 1 with hif := { link := .l0 } } (fun t => t.get F.HIF_STS_link_up = 0 ∧
    t.get F.HIF_STS_generation = 1 ∧ inLog t 0x0122 1) := by decide +kernel
theorem test_functionLevelReset : after .functionLevelReset ((ring 0x5F).put F.HIF_STS_generation 255) (fun t =>
    t.get F.HIF_STS_generation = 0 ∧ t.rd (R.HIF_RING_CFG 0x5F) = 0x10010 ∧ inLog t 0x0122 0) := by decide +kernel

/-! ## Admin commands -/

/-- An admin command that came through slot 0 of the command ring waits, alone. -/
def src0 : CmdSrc := .ring 9 0
def asked (s : State) (d : AdminDesc) : State := { s with hif := { s.hif with accepted := [⟨src0, d⟩] } }
/-- The terms of waitsFor as one check. -/
def ready (s : State) (d : AdminDesc) : Bool := ! s.latched && s.hif.accepted == [⟨src0, d⟩] && s.modeStatus d == 0 && s.hif.finished == [] && s.ringFree 1
theorem ready_waitsFor (s : State) (d : AdminDesc) (h : ready s d = true) : s.waitsFor src0 d := by
  simp only [ready, Bool.and_eq_true, Bool.not_eq_true', beq_iff_eq] at h
  exact ⟨h.1.1.1.1, h.1.1.1.2, h.1.1.2, h.1.2, fun _ _ _ => h.2⟩
/-- The command is ready, and it answers with a status, detail and results, and with this many writes into host memory. -/
def answers (i : Instr) (s : State) (d : AdminDesc) (n status detail res0 res1 : Nat) (p : State → Bool := fun _ => true) : Bool :=
  ready (asked s d) d && after i (asked s d) (fun t => t.hif.writes.length == n && p t && match t.hif.writes.getLast? with
    | none => false
    | some w => w.data.getD 0 0 == BitVec.ofNat 8 status && (w.data.drop 2).take 2 == le 2 9 && (w.data.drop 6).take 2 == le 2 detail &&
      (w.data.drop 8).take 8 == le 4 res0 ++ le 4 res1)
/-- The same module in HOLD. -/
def held : State := admin.setMode .hold

theorem test_nopCommand : answers .nopCommand admin (desc 1) 1 0 0 0 0 := by decide +kernel
theorem test_query : answers .query admin (desc 2) 2 0 0 0 0 (fun t => t.hif.writes.map (fun w => w.data.length) = [64, 32]) := by decide +kernel
def aRun : TestRun := { id := 0x10000001, start := 0, dur := 1, code := 0, recs := [], bits := [1, 2], set := 0, cov := 0 }
def tested : State := admin.setFlt { admin.flt with tests := SMap.set (fun _ => []) admin.flt.tests 1 [aRun] }
theorem test_bistReport : answers .bistReport admin (desc 0x31) 1 2 0 0 0 ∧
    answers .bistReport tested { desc 0x31 with arg0 := 1, arg1 := 0x10000001 } 2 0 0 32 0 ∧
    answers .bistReport tested { desc 0x31 with arg0 := 1, arg1 := 0x10000001, len := 31 } 1 2 0 32 0 := by decide +kernel
theorem test_scrubReport : ready (asked admin (desc 0x40)) (desc 0x40) = true := by decide +kernel
theorem test_spareMap : answers .spareMap admin (desc 0x50) 2 0 0 960 0 ∧ answers .spareMap admin { desc 0x50 with len := 959 } 1 2 0 960 0 ∧
    answers .spareMap admin { desc 0x50 with arg0 := 1 } 2 0 0 0 0 := by decide +kernel
theorem test_mailboxGo : (admin.firstCheck false (desc 1)).1 = 0 ∧ admin.barOpen R.HIF_MBOX_CMD = true ∧
    after (.mailboxGo 1) admin (fun t => t.hif.accepted.length = 1 ∧ t.get F.HIF_MBOX_CMD_busy = 1) ∧
    after (.mailboxGo 2) admin (fun t => t.hif.accepted.length = 0 ∧ t.get F.HIF_MBOX_CMD_status = 2) ∧
    after (.mailboxGo 1) (admin.put F.HIF_MBOX_CMD_busy 1) (fun t => t.hif.accepted.length = 0) := by decide +kernel
theorem test_adminCommandDone :
    after .adminCommandDone { admin with hif := { admin.hif with finished := [⟨src0, false, 7, 3, 1, 2⟩] } } (fun t => t.hif.finished = [] ∧
      t.hif.writes.map (fun w => w.data.take 12) = [[7, 1, 9, 0, 0, 0, 3, 0, 1, 0, 0, 0]]) ∧
    after .adminCommandDone ({ admin with hif := { admin.hif with running := [⟨src0, { desc 0x21 with arg0 := 7 }⟩] } }.put (F.CAD_TRK_SW_result 7) 1)
      (fun t => t.hif.running = [] ∧ t.hif.writes.length = 1) := by decide +kernel

theorem test_loadFull : answers (.loadFull []) held (desc 0x10) 1 2 0 0 0 ∧
    answers (.loadFull []) { held with units := 0 } { desc 0x10 with arg0 := 2 } 1 3 0x14 0 0 ∧
    ready (asked held { desc 0x10 with arg0 := 2 }) { desc 0x10 with arg0 := 2 } ∧ held.loadMissing false = false ∧
    after (.loadFull []) (asked held { desc 0x10 with arg0 := 2 }) (fun t => t.mode = .load ∧ t.get F.SUP_MODE_mode = 2) := by decide +kernel
/-- A CAD_TABLE_WRITE of one entry. -/
def table1 (off : Nat) (v : Nat) : List Byte := le 4 off ++ le 4 v
theorem test_cadTableWrite : tableEntries (table1 0x404 0) = [(0x404, 0)] ∧
    answers (.cadTableWrite (table1 0x1000 0)) admin { desc 0x20 with len := 8 } 1 2 0 0 0 ∧
    answers (.cadTableWrite (table1 0x404 5)) admin { desc 0x20 with len := 8 } 1 0 0 1 0 (fun t => t.rd 0x40404 = 5) ∧
    (admin.setTrkState 0 2).cadDiscards 0x40404 5 = true ∧
    answers (.cadTableWrite (table1 0x404 5)) (admin.setTrkState 0 2) { desc 0x20 with len := 8 } 1 0 0 0 1 := by decide +kernel
def switch : AdminDesc := { desc 0x21 with arg0 := 7 + 3 * 8, arg1 := 5, arg2 := 6, arg3 := 7 }
/-- Track 7 runs and source 3 is valid. -/
def tracks : State := (admin.setTrkState 7 2).setValid 3 true
theorem test_cadSourceSwitch : answers .cadSourceSwitch admin switch 1 3 0 0 0 (fun t => t.get (F.CAD_TRK_SW_result 7) = 3 ∧ inLog t 0x0506 7) ∧
    answers .cadSourceSwitch (tracks.setTrk 7 { tracks.trkT 7 with shadow := some {} }) switch 1 6 0 0 0 ∧
    ready (asked tracks switch) switch ∧
    after .cadSourceSwitch (asked tracks switch) (fun t => t.get (F.CAD_TRK_SW_busy 7) = 1 ∧
      (t.trkT 7).shadow.map (fun o => (o.src, o.mul, o.div, o.ofs)) = some (3, 5, 6, 7)) := by decide +kernel
theorem test_bistRun : (List.range 64).any (asked admin (desc 0x30)).groupTestable = false ∧ answers (.bistRun []) admin (desc 0x30) 1 0 4 0 0 ∧
    (List.range 64).any (asked (admin.setRegion 15 1) (desc 0x30)).groupTestable = true ∧
    after (.bistRun []) (asked (admin.setRegion 15 1) (desc 0x30)) (fun t => t.flt.bist.full = 1088 ∧ t.flt.bist.planned = 16384) ∧
    ready (asked admin { desc 0x30 with arg0 := 1 }) { desc 0x30 with arg0 := 1 } ∧
    after (.bistRun []) (asked admin { desc 0x30 with arg0 := 1 }) (fun t => t.hif.finished.map Completion.status = [0]) := by decide +kernel
theorem test_spareMapReset : (media held).mapAt = some 0x60000 ∧ answers (.spareMapReset false) (media held) { desc 0x50 with arg0 := 2 } 1 8 0 0 0 ∧
    ready (asked (media held) { desc 0x50 with arg0 := 2 }) { desc 0x50 with arg0 := 2 } := by decide +kernel
theorem test_settingsWrite : (media held).settingsAt = some 0x40000 ∧ (media held).norOk = true ∧ (sectionsOf 0 []).isSome = true ∧
    0x60000 ≤ (media held).norSize ∧ (media held).rawStatus 0x20000 0 = 0 ∧ (media held).rawStatus 0 1 = 2 ∧
    answers (.settingsWrite [] true) held { desc 0x60 with len := 0 } 1 2 0 0 0 ∧
    answers (.settingsWrite [1] true) (media held) { desc 0x60 with len := 1, arg0 := 1 } 1 2 0 0 0 ∧
    answers (.settingsWrite [1] true) (media held) { desc 0x60 with len := 1, arg0 := 2 } 1 2 0 0 0 ∧
    ready (asked (media held) { desc 0x60 with len := 0 }) { desc 0x60 with len := 0 } ∧
    after (.settingsWrite [] true) (asked (media held) { desc 0x60 with len := 0 }) (fun t => t.get F.LDR_STS_set_copy = 1 ∧
      t.norRead 0x50000 16 = settingsBytes 1 []) ∧
    after (.settingsWrite [] false) (asked (media held) { desc 0x60 with len := 0 }) (fun t => t.get F.LDR_STS_set_copy = 0 ∧
      t.hif.finished = [⟨src0, false, 8, 0, 0, 0⟩]) := by decide +kernel
theorem test_modeRequest : ready (asked admin { desc 0x70 with arg0 := 1 }) { desc 0x70 with arg0 := 1 } = true ∧
    (asked admin { desc 0x70 with arg0 := 1 }).running = true ∧ ready (asked held { desc 0x70 with arg0 := 2 }) { desc 0x70 with arg0 := 2 } = true := by
  decide +kernel
theorem test_modeRequestHold : after .modeRequestHold (asked (bare.put (F.SPK_CTL_enable 0) 0) { desc 0x70 with arg0 := 1 }) (fun t => t.mode = .hold ∧
    t.get F.SUP_MODE_hold_cause = 1) := by decide +kernel
theorem test_attest : ready (asked admin (desc 0x71)) (desc 0x71) ∧ (asked admin (desc 0x71)).ldr.fuseBlocked = false ∧ admin.unitOk 7 = true ∧
    answers (.attest (List.replicate 32 0)) (admin.setLdr { admin.ldr with fuseBlocked := true }) (desc 0x71) 1 3 2 0 0 := by decide +kernel
theorem test_tapInternalTest : held.latched = false ∧ held.fuses.testClose = false ∧
    after .tapInternalTest held (fun t => t.ldr.fuseBlocked) ∧ after .tapInternalTest running (fun t => t.ldr.fuseBlocked = false) := by decide +kernel

/-! ## Groomer, rolling test, Moraine, lockstep -/

/-- The Groomer of region 15 at work; `swept` has checked every frame of it. -/
def grooming : State := (running.put F.GRM_CFG_enable 1).put F.GRM_STS_active 0x8000
def swept : State := grooming.setFlt { grooming.flt with checked := (List.range 0x4E).map (fun c => (15 * 256 + c, 2 ^ minorsOf c - 1)) }
theorem test_groomerFrameCheck_pass : after (.groomerFrameCheck 15 0x4C 0x2C 0 none false true) swept (fun t =>
      t.get (F.GRM_RCYC_passes 15) = 1 ∧ t.flt.checked = []) ∧
    after (.groomerFrameCheck 15 0x4C 0x2C 0 none true false) (grooming.put F.GRM_CFG_period 8) (fun t => t.get F.GRM_SELF_latch = 1 ∧
      t.rd R.GRM_CFG = grooming.heldCfg) ∧
    ({ grooming with flt := { grooming.flt with owed := [(15 * 256, 1)] } } : State).frameDue 15 0x4C 0x2C = false := by decide +kernel
theorem test_groomerFrameCheck : grooming.movingCol 15 ≠ some 0x4C ∧ 0x2C < minorsOf 0x4C ∧
    sureDetect (grooming.groomBits 15 0x4C 0x2C 3).toNat = true ∧ oneBit (grooming.groomBits 15 0x4C 0x2C 1).toNat = true ∧
    after (.groomerFrameCheck 15 0x4C 0x2C 0 none false true) grooming (fun t => t.get (F.GRM_RCYC_passes 15) = 0 ∧ t.log = []) ∧
    after (.groomerFrameCheck 15 0x4C 0x2C 1 none false false) grooming (fun t => t.frame 15 0x4C 0x2C = 0 ∧ t.get F.GRM_SBU_count = 1) ∧
    after (.groomerFrameCheck 15 0x4C 0x2C 3 none false false) grooming (fun t => t.flt.repairs = [0xF4C2C] ∧ inLog t 0x0302 15 ∧
      t.get F.GRM_MBU_POS_addr = 0xF4C2C ∧ t.frame 15 0x4C 0x2C = 3) ∧
    after (.groomerFrameCheck 15 0x4C 0x2C 0 (some 2) true false) grooming (fun t => t.get F.GRM_SELF_copies = 4 ∧ inLog t 0x0305 15) := by
  decide +kernel
/-- A frame under repair that the image left at 0, in an ACTIVE region. -/
def repairing : State := (running.put (F.REGION_PR_STS_state 15) 1).setFlt { running.flt with
  repairs := [0xF4C2C], bad := [(0xF4C2C, 3)], index := [(0xF4C2C, some { base := 0, good := 0, chunk := 0, spans := false, zero := true, host := false })] }
theorem test_mbuRepairDone : repairing.repairFrame 0xF4C2C = some 0 ∧
    after (.mbuRepairDone 0xF4C2C) repairing (fun t => t.flt.repairs = [] ∧ inLog t 0x0303 15 ∧ t.flt.bad = []) ∧
    (repairing.setRegion 15 2).repairFrame 0xF4C2C = none ∧
    after (.mbuRepairDone 0xF4C2C) ((repairing.setRegion 15 2).put F.GRM_CFG_reaction 0) (fun t => inLog t 0x0304 15 ∧ t.mode = .run) := by decide +kernel
theorem test_scrubOverrun : after (.scrubOverrun 15) (grooming.setTime 16001) (fun t => t.get F.GRM_STS_overrun = 0x8000 ∧ inLog t 0x0306 15) ∧
    after (.scrubOverrun 15) (grooming.setTime 16000) (fun t => t.get F.GRM_STS_overrun = 0) := by decide +kernel

/-- The rolling test in a phase, in group 3 of ACTIVE region 15. -/
def rolling (ph : Nat) (b : Bist) : State :=
  let s := (((running.put F.BIST_CTL_enable 1).put F.BIST_STS_phase ph).put F.BIST_STS_region 15).put F.BIST_STS_group 3
  ((s.put F.BIST_STS_column 60).setBist b).setRegion 15 1
theorem test_columnTestStart : (rolling 0 { open_ := true }).dutyAllows = true ∧ (rolling 0 { open_ := true }).nextGroup = some 60 ∧
    after .columnTestStart (rolling 0 { open_ := true }) (fun t => t.get F.BIST_STS_phase = 1 ∧ t.get F.BIST_STS_region = 15 ∧
      t.get F.BIST_STS_group = 0 ∧ t.get F.BIST_STS_column = 16) ∧
    (rolling 0 { open_ := true, cur := 64 }).nextGroup = none ∧
    after .columnTestStart (rolling 0 { open_ := true, cur := 64 }) (fun t => t.get F.BIST_PASS_passes = 1 ∧ t.flt.bist.cur = 0) := by decide +kernel
theorem test_columnTestDone : after (.columnTestDone true) (rolling 1 {}) (fun t => t.get F.BIST_STS_phase = 2 ∧ t.get F.BIST_LAST_result = 0) ∧
    after (.columnTestDone true) ((rolling 1 {}).setColGap 15 3 0 false) (fun t => t.get F.BIST_STS_phase = 5) ∧
    after (.columnTestDone false) (rolling 1 {}) (fun t => t.flt.bist.retest ∧ t.get F.BIST_STS_phase = 1) ∧
    after (.columnTestDone false) ((rolling 1 { retest := true }).put F.BIST_CTL_diag_en 1) (fun t => t.get F.BIST_STS_phase = 6) ∧
    after (.columnTestDone false) ((rolling 1 { retest := true }).put F.BIST_CTL_diag_en 0) (fun t => t.get F.BIST_STS_phase = 0 ∧ t.colGap 15 3 = 9 ∧
      t.get (F.REGION_COLMAP_ret 15 3) = 1) := by decide +kernel
theorem test_columnDiagnosisDone : after (.columnDiagnosisDone 71 31 111) (rolling 6 {}) (fun t => t.get F.BIST_STS_phase = 0 ∧
    t.get (F.REGION_COLMAP_ret 15 3) = 1 ∧ inLog t 0x0C01 15) := by decide +kernel
theorem test_migrationCopyDone : after .migrationCopyDone (rolling 2 {}) (fun t => t.get F.BIST_STS_phase = 3 ∧ t.flt.bist.waiting) ∧
    after .migrationCopyDone (rolling 5 {}) (fun t => t.get F.BIST_STS_phase = 5 ∧ t.flt.bist.waiting) := by decide +kernel
theorem test_migration : (rolling 3 { waiting := true }).windowOpen 15 3 = true ∧
    after .migration (rolling 3 { waiting := true }) (fun t => t.colGap 15 3 = 15 ∧ t.get F.BIST_STS_phase = 0) ∧
    after .migration ((rolling 5 { waiting := true }).setColGap 15 3 15 false) (fun t => t.colGap 15 3 = 16 ∧ t.get F.BIST_STS_phase = 0) := by
  decide +kernel
theorem test_migration_frozen : after .migration ((rolling 3 { waiting := true }).put (F.REGION_FREEZE_freeze 15) 1) (fun t => t.colGap 15 3 = 16) ∧
    after .columnTestStart ((rolling 0 { open_ := true }).setColGap 15 0 7 false) (fun t => t.get F.BIST_STS_phase = 5 ∧ t.get F.BIST_STS_group = 0) := by
  decide +kernel
theorem test_windowWaitExpiry : ((rolling 3 { waiting := true }).put (F.BIST_WIN_CTL_enable 15) 1).windowOpen 15 3 = false ∧
    after (.windowWaitExpiry 15) ((rolling 3 { waiting := true }).put (F.BIST_WIN_CTL_enable 15) 1) (fun t => t.get F.BIST_WAIT_count = 1 ∧
      inLog t 0x0404 15) := by decide +kernel

/-- A report that waits. -/
def reported (kind pos info : Nat) : State := running.setFlt { running.flt with reports := [⟨kind, 15, pos, info⟩] }
theorem test_moraineSubstitution : (reported 1 67 0).answerable ⟨1, 15, 67, 0⟩ = true ∧ (reported 2 831 0).answerable ⟨2, 15, 831, 0⟩ = true ∧
    (reported 3 331 0).answerable ⟨3, 15, 331, 0⟩ = true ∧ (reported 4 331 5).answerable ⟨4, 15, 331, 5⟩ = true ∧
    (reported 4 331 5).rowsUsed 15 1 75 = 0 ∧
    after .moraineSubstitution (reported 1 67 0) (fun t => t.colGap 15 3 = 16 ∧ t.get (F.REGION_COLMAP_ret 15 3) = 1 ∧ t.morHas 1 15 67) ∧
    after .moraineSubstitution (reported 2 831 0) (fun t => t.get (F.REGION_SPR_MAP_ret 15 3 3) = 1 ∧ t.morHas 2 15 831) ∧
    after .moraineSubstitution (reported 3 331 0) (fun t => t.get (F.REGION_FIRN_MAP_ret 15 1 3) = 1 ∧ t.morHas 3 15 331) ∧
    after .moraineSubstitution (reported 4 331 5) (fun t => t.flt.books = [⟨4, 15, 331, 5⟩] ∧ t.flt.reports = []) := by decide +kernel
theorem test_unitRetire : ((reported 1 67 0).put (F.REGION_COLMAP_ret 15 3) 1).spareFor ⟨1, 15, 67, 0⟩ = false ∧
    after (.unitRetire (.spoke 47)) running (fun t => t.morHas 10 0 47 ∧ t.get F.FLT_RET_SPK1_units = 0x8000) ∧
    ((running.put (F.LANE_STS_state 34) 12).put (F.LANE_STS_logical 34) 4).laneLogical 34 = 4 ∧
    after (.unitRetire (.lane 34)) ((running.put (F.LANE_STS_state 34) 12).put (F.LANE_STS_logical 34) 4) (fun t => t.morHas 6 6 4) ∧
    ((running.put (F.LANE_STS_state 30) 12).put (F.GRP_MAP_spare_none 6) 1).spareLane 6 = none ∧ running.laneLogical 30 = 0 ∧ running.lanePhys 6 0 = 30 := by
  decide +kernel
theorem test_unitRetire_region : running.regionRetired 15 = false ∧ running.latched = false ∧
    after (.unitRetire (.region 15)) ((reported 1 67 0).put (F.REGION_COLMAP_ret 15 3) 1) (fun t => t.regionRetired 15) := by decide +kernel
/-- Port 0 with no lane in service. -/
def laneless : State := (List.range 5).foldl (fun s k => s.put (F.LANE_STS_logical (10 + k)) 5) running
theorem test_unitRetire_port : laneless.inService 2 = [] ∧ after (.unitRetire (.port 0)) laneless (fun t => t.portRetired 0 ∧ t.mode = .limp) := by
  decide +kernel
theorem test_repairMapWrite : (media running).mapAt = some 0x60000 ∧
    after (.repairMapWrite false) ((media running).put F.FLT_MOR_STS_pending 1) (fun t => t.get F.FLT_MOR_STS_write_err = 1) := by decide +kernel
/-- The length of a record follows from that of its tag, which is opaque, so this bound takes it as given. -/
theorem test_repairMapWrite_fits (h : (mapBytes [] 1 []).length ≤ 112) : 0x60000 + 0x10000 * 0 + (mapBytes [] 1 []).length ≤ running.norSize := by
  have : running.norSize = State.reset.norSize := rfl
  have : 0x70000 ≤ State.reset.norSize := by decide +kernel
  omega

/-- Compare stage 63 of a region of pair 7 at tile (63, 71), slack stage 0 in use, and its held values. -/
def lsSide (s : State) (n : Nat) (l : List Nat) : State :=
  let s := s.vset n 0x4D (7 * 4096 + 63 * 32) 32 (2 ^ 31 + 71 * 64 + 63)
  (cfgSlot s ⟨n, 63, 71⟩ 0x56 320 1 1).setSide n 63 l
def pair (a b : List Nat) : State := (lsSide (lsSide running 14 a) 15 b).put (F.FLT_LS_STS_comparing 7) 1
theorem test_lockstepArm : after (.lockstepArm 7 0xFD) running (fun t => t.get (F.FLT_LS_CTL_arm 7) = 1 ∧ t.get (F.FLT_LS_CTL_lag_tokens 7) = 63) ∧
    after (.lockstepArm 7 0) (pair [] []) (fun t => t.get (F.FLT_LS_STS_comparing 7) = 0) := by decide +kernel
theorem test_lockstepCompare : (pair [1, 2, 3, 0] [1, 2, 3, 1]).tapUsed 7 63 = true ∧
    after (.lockstepCompare 7 63) ((pair [1, 2, 3, 0] [1, 2, 3, 1]).put (F.FLT_LS_CTL_reaction 7) 0) (fun t => t.get (F.FLT_LS_STS_mismatch 7) = 1 ∧
      t.get (F.FLT_LS_POS_position 7) = 3 ∧ t.get (F.FLT_LS_POS_tap 7) = 63 ∧ inLog t 0x0360 7) ∧
    after (.lockstepCompare 7 63) (pair [1, 2, 3, 0] [1, 2, 3, 0]) (fun t => t.get (F.FLT_LS_STS_groups 7) = 1 ∧ t.log = []) := by decide +kernel
theorem test_lockstepShortGroup : after (.lockstepShortGroup 7 63) ((pair [1] [2, 3]).put (F.FLT_LS_CTL_reaction 7) 0) (fun t =>
    t.get (F.FLT_LS_STS_mismatch 7) = 1 ∧ t.get (F.FLT_LS_POS_position 7) = 0) := by decide +kernel
theorem test_lockstepLag : after (.lockstepLag 7 63 true) ((pair [1] []).put (F.FLT_LS_CTL_reaction 7) 0) (fun t => t.get (F.FLT_LS_STS_lag 7) = 1 ∧
    inLog t 0x0361 7) := by decide +kernel

/-! ## Pins and peripherals -/

/-- Quadrature unit 3 with its Z and I2C block 1 both want pins 42 and 43. -/
def claims : State := ((running.put F.PER_EN_qei 8).put F.PER_EN_qei_z 8).put F.PER_EN_en 0x20
theorem test_pinClaimEvaluate : claims.claimPins 11 = [41, 42, 43] ∧ claims.claimPins 5 = [42, 43] ∧
    (claimOrder.all (fun id => ! (claims.claimPins id).contains 0)) = true ∧
    after .pinClaimEvaluate claims (fun t => t.holder 43 = some 11 ∧ t.get F.PER_CONFLICT_lost = 0x20 ∧ inLog t 0x0B01 (5 * 256 + 42) ∧
      t.holder 0 = none ∧ t.get (F.PIN_CFG_claim 43) = 1) := by decide +kernel
theorem test_pinFunctionSwitch : after (.pinFunctionSwitch 63) (({ running with pins := { conf := true, keeper := 0x8000000000000000#64 } }.put (F.PIN_CFG_dir 63) 1).put
    (F.PIN_OUT_out 3) 0x8000) (fun t => t.pins.keeper = 0 ∧ SMap.get (fun _ => .z) t.pins.drive 63 = .high) := by decide +kernel
theorem test_pins_open : ([R.PIN_SET 3, R.PIN_CLR 3, R.PIN_LOCK 3, R.UART_TX 1, R.UART_RX 1, R.SPI_TX 1, R.SPI_RX 1, R.I2C_CMD 1, R.I2C_RX 1, R.SSI_CTL 1].all
    running.barOpen) = true := by decide +kernel
theorem test_pinExcitation : ({ running with pins := { conf := true, keeper := 0x80000000#64, holder := [(31, 20)] } } : State).holder 31 = some 19 ∧ (0x80000000#64).getLsbD 31 = true ∧
    running.get (F.PIN_CFG_short 31) = 0 ∧ running.latched = false ∧ running.unitOk 2 = true ∧ running.excStopped 63 = false := by decide +kernel
theorem test_pinSetClr : after (.pinSet 3 0x8001) (running.put (F.PIN_OUT_out 3) 2) (fun t => t.get (F.PIN_OUT_out 3) = 0x8003) ∧
    after (.pinClr 3 0x8001) (running.put (F.PIN_OUT_out 3) 0xFFFF) (fun t => t.get (F.PIN_OUT_out 3) = 0x7FFE) := by decide +kernel
theorem test_pinLock : after (.pinLockFirst 3) running (fun t => t.pins.lockArmed = some 3) ∧
    after (.pinLockSecond 3 0x8000) (running.lockFirst 3) (fun t => t.pinLocked 63 ∧ ! t.pinLocked 62 ∧ t.pins.lockArmed = none) ∧
    after (.pinLockSecond 3 0x8000) (running.lockFirst 2) (fun t => ! t.pinLocked 63) ∧
    after .pinLockTimeout (running.lockFirst 3) (fun t => t.pins.lockArmed = none) := by decide +kernel
theorem test_pinIrqEdge : ((running.put (F.PIN_IRQ_SEL_port 15) 3).put (F.PIN_IRQ_EDGE_edge 15) 2).pinAnalog 63 = false ∧
    after (.pinIrqEdge 15 false) ((running.put (F.PIN_IRQ_SEL_port 15) 3).put (F.PIN_IRQ_EDGE_edge 15) 2) (fun t => t.get F.PIN_IRQ_STS_line = 0x8000 ∧
      inLog t 0x0B1F 63) ∧
    after (.pinIrqEdge 15 true) ((running.put (F.PIN_IRQ_SEL_port 15) 3).put (F.PIN_IRQ_EDGE_edge 15) 2) (fun t => t.get F.PIN_IRQ_STS_line = 0 ∧
      t.get (F.PIN_IN_level 3) = 0x8000) := by decide +kernel
/-- Pin 7 of unit 47 driven high, its bank supplied. -/
def driven : State := (((running.put (F.BANK_CFG_vio_ok 7) 1).put (F.SPK_PINCFG_out 47 1 3) 1).put (F.SPK_PINCFG_park 47 1 3) 0).setPad 47 7 .high
theorem test_shortDetect : shortAgainst (driven.pad 47 7) false = true ∧ driven.interlocked 47 3 = false ∧ driven.isDiff 47 3 = false ∧
    after (.shortDetect true 383 false) driven (fun t => t.get (F.SPK_PAD_short 47 7) = 1 ∧ t.pad 47 7 = shortPad (driven.parkPad 47 7) false) ∧
    ((running.put (F.PIN_CFG_park 63) 0).setSysPad 63 .low).sysShort 63 true = true ∧
    after (.shortDetect false 63 true) running (fun t => t.get (F.PIN_CFG_short 63) = 0) ∧
    after (.shortDetect false 63 true) ((running.put (F.PIN_CFG_park 63) 0).setSysPad 63 .low) (fun t => t.get (F.PIN_CFG_short 63) = 1 ∧ inLog t 0x0B02 63 ∧
      SMap.get (fun _ => .z) t.pins.drive 63 = .z) := by decide +kernel
theorem test_openWireTest : ((running.put (F.PIN_CFG_owt_en 63) 1)).sysDriven 63 = false ∧
    after (.openWireTest 0x8000000000000000#64) (running.put (F.PIN_CFG_owt_en 63) 1) (fun t => t.pins.lastOpen = 0x8000000000000000#64 ∧
      t.get (F.PIN_CFG_open 63) = 0) ∧
    after (.openWireTest 0x8000000000000000#64) ({ running with pins := { conf := true, lastOpen := 0x8000000000000000#64 } }.put (F.PIN_CFG_owt_en 63) 1) (fun t =>
      t.get (F.PIN_CFG_open 63) = 1 ∧ inLog t 0x0B04 63) := by decide +kernel
theorem test_bankSupplyChange : driven.vioGood 7 0 = false ∧ driven.vioGood 7 3300 = true ∧
    after (.bankSupplyChange 7 0) driven (fun t => t.pad 47 7 = .z ∧ t.get (F.BANK_CFG_vio_ok 7) = 0 ∧ inLog t 0x0B05 7) ∧
    after (.bankSupplyChange 7 3300) driven (fun t => t.pad 47 7 = .high ∧ t.get (F.BANK_CFG_vio 7) = 3300) ∧
    after (.bankSupplyChange 7 3300) State.reset (fun t => t.get (F.BANK_CFG_vio 7) = 3300 ∧ t.log.isEmpty) := by decide +kernel

/-- Peripherals enabled, with pins of their own. -/
def per (p : Pins) : State := { running.put F.PER_EN_en 0xFF with
  pins := { p with conf := true, holder := [(42, 6), (43, 6), (44, 7), (45, 7), (46, 8), (47, 8), (48, 1), (49, 1), (50, 2), (51, 2), (52, 3), (53, 3), (54, 3),
    (55, 3), (56, 3), (57, 4), (58, 4), (59, 4), (60, 4), (61, 4), (62, 5), (63, 5)] } }
theorem test_uartTx : after (.uartTx 1 7) (per { uartTx := [(1, [5])] }) (fun t => fifo t.pins.uartTx 1 = [5, 7] ∧ t.get (F.UART_STS_tx_lvl 1) = 2) ∧
    after (.uartTx 1 7) (per { uartTx := [(1, List.replicate 64 5)] }) (fun t => t.get (F.UART_STS_tx_lost 1) = 1) := by decide +kernel
theorem test_uartByteSent : after (.uartByteSent 1) ((per { uartTx := [(1, [5])] }).put (F.UART_STS_busy 1) 1) (fun t => fifo t.pins.uartTx 1 = [] ∧
    t.get (F.UART_STS_busy 1) = 0) := by decide +kernel
theorem test_uartByteReceived : (per {}).perRuns 1 = true ∧
    after (.uartByteReceived 1 0x80 true false false) ((per {}).put (F.UART_CFG_bits7 1) 1) (fun t => fifo t.pins.uartRx 1 = [⟨0, true, false, false⟩]) ∧
    after (.uartByteReceived 1 0x80 true false false) (per { uartRx := [(1, List.replicate 64 ⟨0, false, false, false⟩)] }) (fun t =>
      t.get (F.UART_STS_overrun 1) = 1 ∧ inLog t 0x0B06 1) := by decide +kernel
theorem test_uartRx : after (.uartRx 1) (per { uartRx := [(1, [⟨7, false, true, false⟩])] }) (fun t => t.readData = 0x507 ∧ fifo t.pins.uartRx 1 = []) ∧
    after (.uartRx 1) { per {} with readData := 9 } (fun t => t.readData = 0) := by decide +kernel
theorem test_spi : after (.spiTx 1 7) (per { spiTx := [(1, [5])] }) (fun t => fifo t.pins.spiTx 1 = [5, 7]) ∧
    after (.spiTx 1 7) (per { spiTx := [(1, List.replicate 16 5)] }) (fun t => t.get (F.SPI_STS_tx_lost 1) = 1) ∧
    after (.spiWordDone 1 0xFF) (((per { spiTx := [(1, [5])] }).put (F.SPI_STS_busy 1) 1).put (F.SPI_CFG_bits 1) 0) (fun t => fifo t.pins.spiRx 1 = [0xF] ∧
      fifo t.pins.spiTx 1 = []) ∧
    after (.spiRx 1) (per { spiRx := [(1, [5, 6])] }) (fun t => t.readData = 5 ∧ fifo t.pins.spiRx 1 = [6]) ∧
    after (.spiRx 1) { per {} with readData := 9 } (fun t => t.readData = 0) := by decide +kernel
theorem test_i2c : (per {}).perRuns 5 = true ∧
    after (.i2cCmd 1 0xC00 true) (per {}) (fun t => t.get (F.I2C_STS_busy 1) = 1 ∧ SMap.get (fun _ => 0) t.pins.i2cClears 1 = 1) ∧
    (per {}).pins.keeper = 0 ∧
    after (.i2cTransactionEnd 1 true false true []) ((per {}).put (F.I2C_STS_busy 1) 1) (fun t => t.get (F.I2C_STS_nack 1) = 1 ∧ t.get (F.I2C_STS_arb 1) = 0 ∧
      t.get (F.I2C_STS_timeout 1) = 1 ∧ inLog t 0x0B07 1) ∧
    after (.i2cTransactionEnd 1 false false false [1, 2, 3]) ((per { i2cCmd := [(1, 0xC00)] }).put (F.I2C_STS_busy 1) 1) (fun t =>
      fifo t.pins.i2cRx 1 = [1, 2]) ∧
    after (.i2cTransactionEnd 1 false false false []) ((per { i2cTx := [(1, [8, 9])] }).put (F.I2C_STS_busy 1) 1) (fun t =>
      fifo t.pins.i2cTx 1 = [9] ∧ fifo t.pins.i2cSent 1 = [8]) ∧
    after (.i2cRx 1) (per { i2cRx := [(1, [8, 9])] }) (fun t => t.readData = 8) ∧ after (.i2cRx 1) { per {} with readData := 9 } (fun t => t.readData = 0) := by
  decide +kernel
theorem test_ssi : (per {}).perRuns 7 = true ∧ after (.ssiTrig 1) ((per {}).wr R.CAD_UPD_HI 7) (fun t => t.get (F.SSI_STS_busy 1) = 1 ∧ t.rd (R.SSI_STAMP_HI 1) = 7) ∧
    after (.ssiPeriod 1) ((per {}).put (F.SSI_CFG_period 1) 1) (fun t => t.get (F.SSI_STS_busy 1) = 1) ∧
    after (.ssiReadDone 1 0x1FF true true) (((per {}).put (F.SSI_STS_busy 1) 1).put (F.SSI_CFG_bits 1) 0) (fun t => t.rd (R.SSI_POS 1) = 0xFF) ∧
    after (.ssiReadDone 1 0xC0 true true) ((((per {}).put (F.SSI_STS_busy 1) 1).put (F.SSI_CFG_bits 1) 7).put (F.SSI_CFG_gray 1) 1) (fun t =>
      t.rd (R.SSI_POS 1) = 0x80) ∧
    after (.ssiReadDone 1 0 true false) ((per {}).put (F.SSI_STS_busy 1) 1) (fun t => t.get (F.SSI_STS_err 1) = 1 ∧ inLog t 0x0B08 1) := by decide +kernel

/-! ## Registers -/

theorem test_registerWrite : R.SUP_SVC_CFG < 0x10000 ∧ (regRow? R.SUP_SVC_CFG).isSome = true ∧ clearsBy R.SUP_SVC_CFG 0xFFFFFFFF = false ∧
    after (.registerWrite .mgmt (BitVec.ofNat 24 R.SUP_SVC_CFG) 3) running (fun t => t.rd R.SUP_SVC_CFG = 3) ∧
    domainOf R.PIN_IRQ_SEL = some 31 ∧ running.clkStopped 31 = false ∧
    after (.registerWrite .bar0 (BitVec.ofNat 24 R.PIN_IRQ_SEL) 0xC0000000) running (fun t => t.rd R.PIN_IRQ_SEL = 0xC0000000) ∧
    State.reset.mode = .cold ∧
    after (.registerWrite .bar0 (BitVec.ofNat 24 R.PIN_IRQ_SEL) 9) { running with clk := { stopped := 0x80000000 } } (fun t => t.clk.waits.length = 1 ∧
      t.rd R.PIN_IRQ_SEL = 0) ∧
    after (.registerWrite .bar0 (BitVec.ofNat 24 R.PIN_IRQ_SEL) 9) { running with clk := { stopped := 0x80000000, dead := 0x80000000 } } (fun t =>
      t.get F.SUP_CROSS_STS_forced = 1 ∧ t.rd R.PIN_IRQ_SEL = 0) := by decide +kernel
theorem test_counterClear : clearOf (R.XQ_ERR 63) = some (31, [F.XQ_ERR_perr 63]) ∧
    after (.counterClear .console (BitVec.ofNat 24 (R.XQ_ERR 63))) (running.put (F.XQ_ERR_perr 63) 9) (fun t => t.get (F.XQ_ERR_perr 63) = 0) := by
  decide +kernel
/-- An access by MGMT to an offset. -/
def mgmtAt (type off v : Nat) : State := mgmt 0 type (le 4 off ++ le 4 v)
theorem test_mgmtWrite : after .mgmtWrite ((mgmtAt 4 R.SUP_SVC_CFG 3).put F.PEL_CFG_mgmt_wr 1) (fun t => t.rd R.SUP_SVC_CFG = 3 ∧ t.pel.mgmt = []) ∧
    after .mgmtWrite ((mgmtAt 4 R.SUP_SVC_CFG 3).put F.PEL_CFG_mgmt_wr 0) (fun t => t.rd R.SUP_SVC_CFG = running.rd R.SUP_SVC_CFG) := by decide +kernel
theorem test_noRegister : regRow? 0x23C000 = none ∧ regRow? 0x30000 = none ∧
    after .mgmtRead { mgmtAt 3 0x30000 0 with readData := 5 } (fun t => t.readData = 0) ∧
    after (.registerWrite .bar0 0x30000 5) running (fun t => t.regs = running.regs) := by decide +kernel
theorem test_ssiPosRead : after (.ssiPosRead .console 1) ((running.wr (R.SSI_POS 1) 5).wr (R.SSI_STAMP_HI 1) 6) (fun t => t.readData = 5 ∧
    t.capOf .console (R.SSI_STAMP_HI 1) = some 6) := by decide +kernel
theorem test_trackAngleRead : running.clkStopped 10 = false ∧ after (.trackAngleRead .mgmt 7) (running.wr (R.CAD_TRK_ANG 7) 5) (fun t => t.readData = 5 ∧
    t.capOf .mgmt (R.CAD_TRK_VEL 7) = some 0) := by decide +kernel
theorem test_loReadCapture : pairLow.getD 56 0 = R.SPK_HEAD_LO 47 ∧ running.clkStopped 22 = false ∧
    after (.loReadCapture .bar0 1) ((running.wr R.SUP_TIME_LO 5).wr R.SUP_TIME_HI 6) (fun t => t.readData = 5 ∧ t.capOf .bar0 R.SUP_TIME_HI = some 6) ∧
    pairLow.getD 2 0 = R.PEL_RTIME_LO ∧ running.ringTime = none ∧
    after (.loReadCapture .bar0 2) ({ running with pel := { ring := some (2 ^ 40 + 7, 0) } } : State) (fun t => t.readData.toNat = (2 ^ 40 + 7 + 4000 * running.updates) % 2 ^ 32 ∧
      t.capOf .bar0 R.PEL_RTIME_HI = some (BitVec.ofNat 32 256)) ∧
    after (.loReadCapture .bar0 3) ((running.wr (R.SSI_STAMP_LO 0) 5).capSet .bar0 (R.SSI_STAMP_LO 0) 9) (fun t => t.readData = 9) := by decide +kernel
theorem test_frameReadback : after (.frameReadback .bar0 15 0x4D 0) (running.setFrame 0xF4D00 5) (fun t => t.frameData = 5) ∧
    after (.frameReadback .console 15 0x4D 0) { running.setFrame 0xF4D00 5 with fuses := { testClose := true } } (fun t => t.frameData = 0 ∧
      t.con.out = [.err 3]) := by decide +kernel
theorem test_mgmtRead : pairLow.contains R.SUP_SVC_CFG = false ∧ after .mgmtRead ((mgmtAt 3 R.SUP_SVC_CFG 0).wr R.SUP_SVC_CFG 7) (fun t =>
    t.readData = 7 ∧ t.pel.mgmt = []) := by decide +kernel

/-! ## Console and field tests -/

/-- A module at the prompt of its console, in a mode. -/
def prompt (m : Mode) : State := inMode m
theorem prompt_atPrompt : (prompt .run).atPrompt ∧ (prompt .hold).atPrompt ∧ (prompt .supervise).atPrompt := ⟨⟨rfl, rfl⟩, ⟨rfl, rfl⟩, ⟨rfl, rfl⟩⟩
/-- The command prints these lines. -/
def prints (i : Instr) (s : State) (ls : List ConOut) (p : State → Bool := fun _ => true) : Bool := after i s (fun t => t.con.out == ls && p t)
def up : State := prompt .run

def lineHelp : List Byte := kw ['H', 'E', 'L', 'P']
theorem test_consoleLine : prints (.consoleLine lineHelp ⟨false, false, [], none⟩) up [.help, .ok] ∧
    prints (.consoleLine (kw ['N', 'O']) { wrLow := true }) up [.err 1] ∧
    prints (.consoleLine (kw ['R', 'D', ' ', 'X']) { wrLow := true }) up [.err 0x80] (fun t => t.get F.SUP_SVC_STS_syntax = 1) ∧
    prints (.consoleLine (kw [' ']) { wrLow := true }) (up.put F.SUP_SVC_CFG_echo 1) [.echo [32]] ∧
    prints (.consoleLine (List.replicate 201 48) { wrLow := true }) up [.err 0x80] ∧
    State.reset.conLive = false := by decide +kernel
theorem test_consolePinDetect : after (.consolePinDetect true) up (fun t => t.get F.SUP_SVC_STS_detected = 1 ∧ t.get F.SUP_SVC_STS_swapped = 1) ∧
    after (.consolePinDetect false) (up.put F.SUP_SVC_STS_detected 1) (fun t => t.get F.SUP_SVC_STS_swapped = 0) ∧
    after .consoleBreak (up.put F.SUP_SVC_CFG_rate 5) (fun t => t.get F.SUP_SVC_CFG_rate = 0) ∧
    after .baudRevert { up.put F.SUP_SVC_CFG_rate 5 with con := { rateChanged := true } } (fun t => t.get F.SUP_SVC_CFG_rate = 0) := by decide +kernel
theorem test_help : prints (.help false) up [.help, .ok] := by decide +kernel
theorem test_status : after (.status true) up (fun t => match t.con.out with
    | [.values vs, .ok] => vs.length = 21 ∧ vs.getD 0 0 = 3 ∧ vs.getD 20 0 = 3
    | _ => false) := by decide +kernel
theorem test_log : prints (.log 1 true) { up with log := [⟨.event 0x101 0, 1⟩, ⟨.event 0x102 0, 2⟩] } [.log [⟨.event 0x102 0, 2⟩], .ok] := by decide +kernel
theorem test_report : prints (.report (.bist 5 false) true) up [.err 2] ∧ prints (.report .map true) up [.report [] (crc32c []), .ok] ∧
    (match up.bistReport false 5 with | .error e => e == (2, 0) | .ok _ => false) = true := by decide +kernel
theorem test_lane : prints (.lane 59 false true) (up.wr (R.LANE_EYE 59) 7) [.values [0, 7, 0], .ok] ∧ prints (.lane 60 false true) up [.err 2] := by
  decide +kernel
theorem test_pin : prints (.pin 63 true) (up.wr (R.PIN_CFG 63) 9) [.values [9, 0], .ok] := by decide +kernel
theorem test_meter : after (.meter 15 63 true) up (fun t => t.get F.SUP_MTR_CTL_src = 15 ∧ t.get F.SUP_MTR_CTL_index = 63) := by decide +kernel
theorem test_rd : prints (.rd (R.PIN_CFG 0 + 1) true) up [.err 2] ∧ (regRow? R.SUP_SVC_CFG).isSome = true ∧ pairLow.contains R.SUP_SVC_CFG = false ∧
    prints (.rd R.SUP_SVC_CFG true) (up.put F.SUP_SVC_CFG_rate 5) [.values [5], .ok] := by decide +kernel
theorem test_baud : prints (.baud 3000000 true) up [.ok] (fun t => t.get F.SUP_SVC_CFG_rate = 6 ∧ t.con.rateChanged) ∧
    prints (.baud 9600 true) up [.err 2] := by decide +kernel
theorem test_echo_evt : prints (.echo true true) up [.ok] (fun t => t.on F.SUP_SVC_CFG_echo) ∧
    prints (.evt true true) up [.ok] (fun t => t.on F.SUP_SVC_CFG_evt) := by decide +kernel

theorem test_strap : prints (.wr R.SUP_SVC_CFG 5 false) up [.err 0x81] (fun t => t.get F.SUP_SVC_STS_refused = 1 ∧ t.get F.SUP_SVC_CFG_rate = 0) ∧
    prints (.restart false) (prompt .hold) [.err 0x81] (fun t => t.mode = .hold) ∧
    prints (.wr R.SUP_SVC_CFG 5 true) up [.ok] (fun t => t.get F.SUP_SVC_CFG_rate = 5) := by decide +kernel
theorem test_admin : (up.firstCheck false (plainDesc 1 0 0 0 0)).1 = 0 ∧
    prints (.admin 1 0 0 0 0 true) up [] (fun t => t.hif.accepted.length = 1 ∧ t.get F.HIF_MBOX_CMD_busy = 1) ∧
    prints (.admin 2 0 0 0 0 true) up [.err 2] ∧ prints (.admin 1 0 0 0 0 true) (up.put F.HIF_MBOX_CMD_busy 1) [.err 6] := by decide +kernel
theorem test_consoleLoad : (up.firstCheck false (plainDesc 0x10 1 0 0 0)).1 = 0 ∧ up.loadMissing false = false ∧
    ((prompt .load).firstCheck false (plainDesc 0x10 1 0 0 0)).1 = 6 ∧
    after (.consoleLoad false true) up (fun t => t.mode = .load) ∧ prints (.consoleLoad false true) (prompt .load) [.err 6] := by decide +kernel
/-- A directory with a region image of region 0. -/
def withImage : State := up.dirWrite [⟨0x10, 0, 0x100000, 0x1000, 0⟩] true
theorem test_consoleLoadPartial : (withImage.firstCheck false (plainDesc 0x11 (1 + 0 + 131072) 0 0 0)).1 = 0 ∧ withImage.regionLoads = false ∧
    withImage.setCompares 1 = false ∧ withImage.setIn 1 [0, 1, 2, 5] = true ∧ withImage.unitOk 7 = true ∧
    after (.consoleLoadPartial 1 0 false true) withImage (fun t => inLog t 0x0210 1) ∧
    prints (.consoleLoadPartial 1 0 false true) up [.err 2] := by decide +kernel
theorem test_consoleRegions : (up.firstCheck false (plainDesc 0x13 1 0 0 0)).1 = 0 ∧ (up.setRegion 0 1).setIn 1 [1] = true ∧
    after (.consoleIsolateRegion 1 true) (up.setRegion 0 1) (fun t => t.regionState 0 = 2 ∧ inLog t 0x0213 1) ∧
    (up.setRegion 0 2).sameStart 1 = true ∧ up.setLoads 1 = false ∧
    after (.consoleActivateRegion 1 true) (up.setRegion 0 2) (fun t => t.regionState 0 = 4) ∧
    prints (.consoleIsolateRegion 1 true) (prompt .hold) [.err 3] := by decide +kernel
theorem test_hold : after (.hold false) (prompt .run) (fun t => t.mode = .hold ∧ t.get F.SUP_MODE_hold_cause = 1) ∧
    prints (.hold false) (prompt .supervise) [.err 3] ∧ prints (.hold false) (prompt .hold) [.ok] := by decide +kernel
theorem test_restart : prints (.restart true) up [.err 3] ∧ (prompt .hold).conLive = true := by decide +kernel
theorem test_consoleAttest : prints (.consoleAttest [] true) (prompt .supervise) [.err 3] ∧ up.sameRuns (plainDesc 0x71 0 0 0 0) = false ∧
    up.ldr.fuseBlocked = false ∧ up.unitOk 7 = true := by decide +kernel
theorem test_laneOfConsole : isPcie (15 / 5) = false ∧
    ((up.put (F.GRP_CTL_enable 3) 1).put (F.LANE_STS_state 15) 12).laneState 15 = 12 := by decide +kernel

def lineEnc : List Byte := kw ['F', 'U', 'S', 'E', ' ', 'E', 'N', 'C']
def lineRevoke : List Byte := kw ['F', 'U', 'S', 'E', ' ', 'R', 'E', 'V', 'O', 'K', 'E', ' ', '1']
def lineClose : List Byte := kw ['F', 'U', 'S', 'E', ' ', 'C', 'L', 'O', 'S', 'E']
def groups (n : Nat) : List Byte := (List.range n).flatMap (fun _ => kw [' ', '0', '0', '0', '0', '0', '0', '0', '1'])
def lineHash : List Byte := kw ['F', 'U', 'S', 'E', ' ', 'H', 'A', 'S', 'H', ' ', '3'] ++ groups 12
def lineKey : List Byte := kw ['F', 'U', 'S', 'E', ' ', 'K', 'E', 'Y', ' ', '1'] ++ groups 8
/-- The line asks for its confirmation. -/
def asks (i : Instr) (line : List Byte) : Bool :=
  prints i (prompt .hold) [.confirm ((crc32c line).toNat % 65536)] (fun t => t.con.fuse.isSome) && prints i (prompt .run) [.err 3]
theorem test_fuseHash : asks (.fuseHash lineHash true) lineHash := by decide +kernel
theorem test_fuseKey : asks (.fuseKey lineKey true) lineKey := by decide +kernel
theorem test_fuseEnc : asks (.fuseEnc lineEnc true) lineEnc := by decide +kernel
theorem test_fuseRevoke : asks (.fuseRevoke lineRevoke true) lineRevoke := by decide +kernel
theorem test_fuseClose : asks (.fuseClose lineClose true) lineClose := by decide +kernel
/-- A fuse command awaits the value 7. -/
def pendingFuse (r : FuseReq) : State := { prompt .hold with con := { fuse := some (r, 7, 0) }, fuses := { hashProg := 3 } }
theorem test_confirm :
    after (.confirm 7 (some [1]) true) (pendingFuse (.hash 3 [1])) (fun t => t.fuses.hashProg = 11 ∧ t.con.out = [.ok] ∧ inLog t 0x0130 3) ∧
    prints (.confirm 7 (some [1]) true) (pendingFuse (.hash 1 [1])) [.err 3] ∧
    after (.confirm 7 (some [1]) true) (pendingFuse (.key 1 [1])) (fun t => t.fuses.custProg = 2 ∧ inLog t 0x0130 0x11) ∧
    after (.confirm 7 (some []) true) (pendingFuse .enc) (fun t => t.fuses.encRequired) ∧
    after (.confirm 7 (some []) true) (pendingFuse (.revoke 1)) (fun t => t.fuses.revoked = 1 ∧ inLog t 0x0130 0x31) ∧
    prints (.confirm 7 (some []) true) (pendingFuse (.revoke 3)) [.err 3] (fun t => t.fuses.revoked = 0 ∧ t.get F.SEC_FUSE_STS_rev_refused = 1) ∧
    after (.confirm 7 (some []) true) (pendingFuse .close) (fun t => t.fuses.testClose) ∧
    prints (.confirm 8 (some []) true) (pendingFuse .close) [.err 7] ∧ prints (.confirm 8 none true) up [.err 1] := by decide +kernel
theorem test_confirmTimeout : prints .confirmTimeout (pendingFuse .close) [.err 7] ∧ prints (.status true) (pendingFuse .close) [.err 7] := by
  decide +kernel

theorem test_meterUpdate : after (.meterUpdate 0) up (fun t => t.get F.SUP_MTR_STS_code = 3 ∧ t.get F.SUP_MTR_STS_out_mv = 300) ∧
    after (.meterUpdate 0) ((up.put F.SUP_MTR_CTL_src 1).put F.PWR_VIN_vin 60000) (fun t => t.get F.SUP_MTR_STS_out_mv = 2500) ∧
    after (.meterUpdate 800) ((up.put F.SUP_MTR_CTL_src 2).put F.SUP_MTR_CTL_index 4) (fun t => t.get F.SUP_MTR_STS_out_mv = 200) ∧
    after (.meterUpdate 0) (up.put F.SUP_MTR_CTL_src 4) (fun t => t.get F.SUP_MTR_STS_out_mv = 500) ∧
    after (.meterUpdate 0) (up.put F.SUP_MTR_CTL_src 7) (fun t => t.get F.SUP_MTR_STS_out_mv = 0) ∧
    after (.meterUpdate 0) State.reset (fun t => t.get F.SUP_MTR_STS_code = 0) := by decide +kernel
/-- A field test that is over at once. -/
def testsNow (i : Instr) (s : State) (code : Nat) : Bool := after i s (fun t => t.con.result == code && t.get F.SUP_MTR_CTL_src == 0xB)
theorem test_fieldTests : testsNow (.testSup true) up 23 ∧ testsNow (.testFuse true) up 23 ∧ testsNow (.testSm true) up 24 ∧
    testsNow (.testPll true) (up.put F.CAD_STS_pll_lock 1) 23 ∧ testsNow (.testScrub true) up 23 ∧ testsNow (.testLs 7 true) up 24 ∧
    testsNow (.testSrc 3 true) up 24 ∧ testsNow (.testPad 47 true) (up.put (F.BANK_CFG_vio_ok 7) 1) 23 ∧ testsNow (.testPcie true) up 24 ∧
    testsNow (.testPel 3 true) up 24 ∧ testsNow (.testOwt 63 true true) up 24 ∧ testsNow (.testOwt 63 false true) up 23 := by decide +kernel
theorem test_testSpare : after (.testSpare true) bare (fun t => t.con.result = 23 ∨ t.con.result = 24) := by decide +kernel
theorem test_testMode : prints (.testPll true) (prompt .supervise) [.err 3] ∧ prints (.testSrc 0 true) (prompt .supervise) [.err 3] ∧
    prints (.testLs 8 true) up [.err 2] ∧ prints (.testPel 4 true) up [.err 2] := by decide +kernel
theorem test_longTests : prints (.testImage true true) up [.accepted] (fun t => t.con.tests = [⟨testImage, 1, 0, 0⟩]) ∧
    prints (.testLane 59 true) (up.put (F.LANE_STS_state 59) 9) [.accepted] (fun t => t.con.tests = [⟨testLane, 59, 0, 0⟩]) ∧
    after (.testPel 3 true) (up.put (F.PEL_PSTS_state 3) 3) (fun t => t.con.tests.length = 1 ∧ t.con.result = 25) ∧
    (up.put (F.PEL_PSTS_state 3) 3).portUp 3 = true := by decide +kernel
theorem test_testBist : ((up.setRegion 0 1).firstCheck false (plainDesc 0x30 0 0 0 0)).1 = 0 ∧
    prints (.testBist true) (up.setRegion 0 1) [.accepted] (fun t => t.flt.bist.full = 1088) ∧ (List.range 64).any (up.setRegion 0 1).groupTestable = true ∧
    prints (.testBist true) up [.accepted, .doneOk nameTestBist] (fun t => t.con.result = 24) ∧
    (up.firstCheck false (plainDesc 0x30 1 0x8000 0 0)).1 = 0 ∧
    after (.testHard 0x8000 [] true) up (fun t => t.con.result = 25 ∧ t.hif.finished.length = 1) := by decide +kernel
theorem test_fieldTestEnd : prints .fieldTestEnd { up with con := { tests := [⟨testLane, 59, 0, 0⟩] } } [.values [0, 0], .doneTest testLane false]
    (fun t => t.con.tests = [] ∧ t.con.result = 24) := by decide +kernel


/-! ## The block as a whole -/

/-- A step answers a next state that passes a check. -/
def stepAfter (s : State) (p : State → Bool) : Bool :=
  match step s with
  | .next t => p t
  | _ => false

theorem test_step_front : stepAfter (running.push (.regionFreezeSet 3)) (fun t => t.pending = [] ∧ t.get (F.REGION_FREEZE_freeze 3) = 1) := by
  decide +kernel
theorem test_step_idle : running.pending = [] ∧ running.mode ≠ .cold ∧ stepAfter running (fun t => t.time = 1) := by decide +kernel
theorem test_invariant : State.reset.fuses.usable ∧ State.reset.norWf := by
  unfold Fuses.usable State.norWf
  decide +kernel
/-- One more revocation would leave these fuses without a usable key. -/
theorem test_usable : Fuses.usable { hashProg := 3, revoked := 1 } ∧ ¬ Fuses.usable { hashProg := 3, revoked := 3 } := by
  unfold Fuses.usable
  decide +kernel
theorem test_mayStore : mayStore (.regionFreezeSet 3) = false ∧ mayStore (.hold true) = true := by decide +kernel

/-! ## WellFormed refuses an ill-formed term of each check -/

def aFault : TestFault := ⟨true, 0, 1, 5, [(3, 1)]⟩
theorem test_wf_block_column : aFault.wf = true ∧ TestFault.wf { aFault with column := 2 } = false := by decide +kernel
theorem test_wf_slice : TestFault.wf ⟨false, 0, 3, 63, []⟩ = true ∧ TestFault.wf ⟨false, 0, 3, 64, []⟩ = false ∧
    TestFault.wf ⟨false, 0, 3, 63, [(0, 1)]⟩ = false := by decide +kernel
theorem test_wf_temps : (Instr.temperatureRead ⟨List.replicate 16 40, 35⟩).wellFormed = true ∧
    (Instr.temperatureRead ⟨List.replicate 15 40, 35⟩).wellFormed = false := by decide +kernel
theorem test_wf_found : (Instr.startupSelftestDone [⟨false, 0, 0, 70, []⟩] true).wellFormed = false ∧
    (Instr.bistRun [⟨true, 0, 3, 0, []⟩]).wellFormed = false ∧ (Instr.testHard 1 [⟨true, 0, 3, 0, []⟩] false).wellFormed = false := by
  decide +kernel
theorem test_wf_testHard_set : (Instr.testHard (2 ^ 32 - 1) [] false).wellFormed = true ∧ (Instr.testHard (2 ^ 32) [] false).wellFormed = false := by
  decide +kernel
theorem test_wf_descriptors : (Instr.descriptorFetched 32 (List.replicate 32 0)).wellFormed = true ∧
    (Instr.descriptorFetched 31 (List.replicate 32 0)).wellFormed = false ∧
    (Instr.descriptorFetched 32 (List.replicate 31 0)).wellFormed = false ∧ (Instr.staleRecheck 5 (List.replicate 32 0)).wellFormed = false ∧
    (Instr.staleRecheck 0 (List.replicate 33 0)).wellFormed = false ∧ (Instr.adminFetch []).wellFormed = false := by decide +kernel
theorem test_wf_nonce : (Instr.attest (List.replicate 32 0)).wellFormed = true ∧ (Instr.attest []).wellFormed = false ∧
    (Instr.consoleAttest (List.replicate 31 0) false).wellFormed = false := by decide +kernel
theorem test_wf_line : lineWf (List.replicate 512 65) = true ∧ lineWf (List.replicate 513 65) = false ∧ lineWf [65, 13] = false ∧
    lineWf [10] = false ∧ (Instr.consoleLine [10] { wrLow := false }).wellFormed = false ∧
    (Instr.consoleLine [65] { wrLow := false, found := [⟨true, 0, 3, 0, []⟩] }).wellFormed = false ∧
    (Instr.fuseHash [13] true).wellFormed = false ∧ (Instr.fuseKey [13] true).wellFormed = false ∧ (Instr.fuseEnc [13] true).wellFormed = false ∧
    (Instr.fuseRevoke [13] true).wellFormed = false ∧ (Instr.fuseClose [13] true).wellFormed = false := by decide +kernel
theorem test_wf_numbers : (Instr.admin 1 0 0 0 (2 ^ 32) false).wellFormed = false ∧ (Instr.admin 1 0 0 0 (2 ^ 32 - 1) false).wellFormed = true ∧
    (Instr.wr 0 (2 ^ 32) false).wellFormed = false := by decide +kernel
theorem test_wf_line_of_region : (Instr.eventOutToken (.region 0) 7).wellFormed = true ∧ (Instr.eventOutToken (.region 0) 8).wellFormed = false ∧
    (Instr.eventOutRoundTrip (.region 0) 8).wellFormed = false := by decide +kernel
theorem test_wf_short : (Instr.shortDetect true 383 true).wellFormed = true ∧ (Instr.shortDetect false 63 true).wellFormed = true ∧
    (Instr.shortDetect false 64 true).wellFormed = false := by decide +kernel

/-! ## No word of the table spells a command -/

theorem test_no_words : decodeTableWord 32 0 = none ∧ running.withFetchWord 32 5 = running := ⟨rfl, rfl⟩

end Sys2Proof.Tests
end

section
/-! SUPPORT. What tokens in motion leave alone: an acknowledge, a capture and the compare taps change the fabric and nothing else. -/

namespace Sys2Proof.Machine

/-- The state with its fabric blanked: what a change of the fabric alone keeps. -/
def State.sansFab (s : State) : State := { s with fab := {} }

/-! ## What the fabric does not hold -/

theorem State.log_of_sansFab {s t : State} (h : t.sansFab = s.sansFab) : t.log = s.log :=
  show t.sansFab.log = s.sansFab.log by rw [h]

theorem State.get_of_sansFab {s t : State} (h : t.sansFab = s.sansFab) (f : RF) : t.get f = s.get f :=
  show t.sansFab.get f = s.sansFab.get f by rw [h]

/-! ## Operations on the fabric -/

@[simp] theorem State.sansFab_withFab (s : State) (f : Fab) : ({ s with fab := f } : State).sansFab = s.sansFab := rfl

theorem foldl_sansFab {α : Type} (f : State → α → State) (h : ∀ s a, (f s a).sansFab = s.sansFab) (l : List α) (s : State) :
    (l.foldl f s).sansFab = s.sansFab := by
  induction l generalizing s with
  | nil => rfl
  | cons a l ih => rw [List.foldl_cons, ih, h]

@[simp] theorem State.setNode_sansFab (s : State) (x : Src) (nd : Node) : (s.setNode x nd).sansFab = s.sansFab := rfl
@[simp] theorem State.setJoined_sansFab (s : State) (t : Tile) (l : List Dst) : (s.setJoined t l).sansFab = s.sansFab := rfl
@[simp] theorem State.setWdg_sansFab (s : State) (n k : Nat) (w : Wdg) : (s.setWdg n k w).sansFab = s.sansFab := rfl
@[simp] theorem State.isoCount_sansFab (s : State) (n e i : Nat) : (s.isoCount n e i).sansFab = s.sansFab := rfl
@[simp] theorem State.capture_sansFab (s : State) (x : Src) (v chain : Nat) (branch : Option Nat) :
    (s.capture x v chain branch).sansFab = s.sansFab := rfl

@[simp] theorem State.wdgTurn_sansFab (s : State) (n k : Nat) (w : Wdg) : (s.wdgTurn n k w).sansFab = s.sansFab := by
  unfold State.wdgTurn
  dsimp only
  split <;> simp

@[simp] theorem State.wdgRestart_sansFab (s : State) (n k : Nat) : (s.wdgRestart n k).sansFab = s.sansFab := by
  unfold State.wdgRestart
  dsimp only
  split <;> simp

@[simp] theorem State.wdgPulse_sansFab (s : State) (t : Tile) (st : Nat) : (s.wdgPulse t st).sansFab = s.sansFab :=
  foldl_sansFab _ (fun s k => by split <;> simp) _ s

@[simp] theorem State.leave_sansFab (s : State) (x : Src) : (s.leave x).sansFab = s.sansFab := by
  cases x <;> simp [State.leave]

@[simp] theorem State.release_sansFab (s : State) (t : Tile) (i : Nat) : (s.release t i).sansFab = s.sansFab := by
  unfold State.release
  dsimp only
  split <;> simp

/-! ## Acknowledges: `go` passes one on -/

section
variable {go : State → Dst → State} (hgo : ∀ s d, (go s d).sansFab = s.sansFab)
include hgo

theorem State.ackDone_sansFab (s : State) (x : Src) (acked : List Dst) : (s.ackDone go x acked).sansFab = s.sansFab := by
  have hports (t : Tile) (i : Nat) (ps : List Nat) (u : State) :
      (ps.foldl (fun s p => go s (.port t i p)) u).sansFab = u.sansFab := foldl_sansFab _ (fun s p => hgo s _) ps u
  unfold State.ackDone
  split
  · simp
  · cases x with
    | cell t i => dsimp only; split <;> simp [hports]
    | _ => simp [hgo]

theorem State.ackOne_sansFab (s : State) (d : Dst) : (s.ackOne go d).sansFab = s.sansFab := by
  unfold State.ackOne
  split
  · rfl
  · dsimp only
    split
    · exact State.ackDone_sansFab hgo s _ _
    · simp

theorem State.ackJoin_sansFab (s : State) (t : Tile) (i p : Nat) (ms : List Dst) :
    (s.ackJoin go t i p ms).sansFab = s.sansFab := by
  have hone := State.ackOne_sansFab hgo
  have hall (ds : List Dst) (u : State) : (ds.foldl (fun s e => s.ackOne go e) u).sansFab = u.sansFab := foldl_sansFab _ hone ds u
  unfold State.ackJoin
  dsimp only
  (repeat' split) <;> simp [hone, hall]

end

theorem State.ack_sansFab (f : Nat) : ∀ (s : State) (d : Dst), (s.ack f d).sansFab = s.sansFab := by
  induction f with
  | zero => intro s d; rfl
  | succ f ih =>
    intro s d
    unfold State.ack
    split
    · exact State.ackOne_sansFab ih s d
    · split
      · exact State.ackJoin_sansFab ih s _ _ _ _
      · rfl

@[simp] theorem State.ackDst_sansFab (s : State) (d : Dst) : (s.ackDst d).sansFab = s.sansFab := State.ack_sansFab _ s d

@[simp] theorem State.tapsTake_sansFab (s : State) (t : Tile) (st : Nat) : (s.tapsTake t st).sansFab = s.sansFab :=
  foldl_sansFab _ (fun s j => by dsimp only; (repeat' split) <;> simp) _ s

@[simp] theorem State.cellGives_sansFab (s : State) (t : Tile) (i v chain : Nat) (branch : Option Nat) (ports : List Nat) :
    (s.cellGives t i v chain branch ports).sansFab = s.sansFab := by
  unfold State.cellGives
  rw [foldl_sansFab _ (fun s p => State.ackDst_sansFab s _), State.capture_sansFab]

end Sys2Proof.Machine
end

section
/-! SUPPORT. What an event leaves alone (R394): beside its entry in the fault log it changes the event ring and what it is sent on, not the
fabric and no register of the pages from 0x100000 up. -/

namespace Sys2Proof.Machine

/-- What the writing of ring entries keeps: the fault log, the fabric and the registers of the pages from 0x100000 up. -/
def State.sansHost (s : State) : List LogEntry × Fab × (Nat → Word) := (s.log, s.fab, fun k => s.rd (0x100000 + k))

theorem State.log_of_sansHost {s t : State} (h : t.sansHost = s.sansHost) : t.log = s.log := congrArg (·.1) h

theorem State.fab_of_sansHost {s t : State} (h : t.sansHost = s.sansHost) : t.fab = s.fab := congrArg (·.2.1) h

theorem State.get_of_sansHost {s t : State} (h : t.sansHost = s.sansHost) (f : RF) (hf : 0x100000 ≤ f.off) : t.get f = s.get f := by
  have hrd : t.rd (0x100000 + (f.off - 0x100000)) = s.rd (0x100000 + (f.off - 0x100000)) :=
    congrArg (fun p => p.2.2 (f.off - 0x100000)) h
  rw [Nat.add_sub_cancel' hf] at hrd
  simp [State.get, hrd]

theorem State.put_sansHost (s : State) (f : RF) (v : Nat) (h : f.off < 0x100000) : (s.put f v).sansHost = s.sansHost := by
  have hrd (k : Nat) : (s.put f v).rd (0x100000 + k) = s.rd (0x100000 + k) := State.rd_put_ne s f v _ (by omega)
  simp [State.sansHost, hrd]

/-! ## Rings -/

/-- The registers that an entry of a ring changes lie below the pages from 0x100000 up (Table 19.1). -/
theorem ringRegs_lt {n : Nat} (hn : n < 4) : R.HIF_RING_STS n < 0x100000 ∧ R.HIF_RING_CNT n < 0x100000 ∧ R.HIF_RING_OWN n < 0x100000 := by
  simp only [R.HIF_RING_STS, R.HIF_RING_CNT, R.HIF_RING_OWN]
  omega

@[simp] theorem State.hostWrite_sansHost (s : State) (addr : Nat) (data : List Byte) : (s.hostWrite addr data).sansHost = s.sansHost := rfl
@[simp] theorem State.setRing_sansHost (s : State) (n : Nat) (r : Ring) : (s.setRing n r).sansHost = s.sansHost := rfl
@[simp] theorem State.msixSend_sansHost (s : State) (v : Nat) : (s.msixSend v).sansHost = s.sansHost := rfl

@[simp] theorem State.ringEntry_sansHost (s : State) (n : Nat) : (s.ringEntry n).sansHost = s.sansHost := by
  unfold State.ringEntry
  dsimp only
  split <;> simp

theorem State.ringAdvance_sansHost (s : State) {n : Nat} (hn : n < 4) : (s.ringAdvance n).sansHost = s.sansHost := by
  have hsts := (ringRegs_lt hn).1
  unfold State.ringAdvance
  split
  · rw [State.put_sansHost _ _ _ hsts, State.put_sansHost _ _ _ hsts]
  · exact State.put_sansHost _ _ _ hsts

theorem State.ringWrite_sansHost (s : State) {n : Nat} (hn : n < 4) (flagOff : Nat) (entry : List Byte) :
    (s.ringWrite n flagOff entry).sansHost = s.sansHost := by
  obtain ⟨hsts, hcnt, hown⟩ := ringRegs_lt hn
  unfold State.ringWrite State.putB State.inc
  dsimp only
  rw [State.ringEntry_sansHost, State.put_sansHost _ _ _ hsts, State.put_sansHost _ _ _ hown, State.put_sansHost _ _ _ hcnt,
    State.ringAdvance_sansHost _ hn, State.hostWrite_sansHost]

/-! ## Events -/

theorem State.eventRing_sansHost (s : State) (id param : Nat) (remote : Bool) (origin : Nat) :
    (s.eventRing id param remote origin).sansHost = s.sansHost := by
  unfold State.eventRing
  split
  · rfl
  · split
    · exact State.ringWrite_sansHost s (by decide) _ _
    · exact State.put_sansHost s _ _ (by decide)

theorem State.print_sansHost (s : State) (ls : List ConOut) : (s.print ls).sansHost = s.sansHost := by
  unfold State.print
  split <;> rfl

/-- An event changes, of what `sansHost` holds, only the fault log. -/
theorem State.raise_sansHost (s : State) (id param : Nat) : (s.raise id param).sansHost = (s.logAdd (.event id param)).sansHost := by
  have hpel (u : State) (p : Pel) : ({ u with pel := p } : State).sansHost = u.sansHost := rfl
  unfold State.raise
  dsimp only
  rw [State.eventRing_sansHost]
  (repeat' split) <;> simp only [hpel, State.print_sansHost]

@[simp] theorem State.raise_log (s : State) (id param : Nat) : (s.raise id param).log = s.log ++ [⟨.event id param, s.time⟩] :=
  State.log_of_sansHost (s.raise_sansHost id param)

@[simp] theorem State.raise_fab (s : State) (id param : Nat) : (s.raise id param).fab = s.fab :=
  (State.fab_of_sansHost (s.raise_sansHost id param)).trans rfl

theorem State.raise_get (s : State) (id param : Nat) (f : RF) (hf : 0x100000 ≤ f.off) : (s.raise id param).get f = s.get f :=
  State.get_of_sansHost (s.raise_sansHost id param) f hf

theorem State.raise_logged (s : State) (id param : Nat) : (s.raise id param).logged id param :=
  ⟨⟨.event id param, s.time⟩, by simp, rfl⟩

theorem State.logged_congr {s t : State} (h : t.log = s.log) (id param : Nat) : t.logged id param ↔ s.logged id param := by
  simp [State.logged, h]

/-- A saturating count of a field that fits reads one more, or its maximum (R521). -/
theorem State.get_sat_same (s : State) (f : RF) (n : Nat) (h : f.fits) :
    (s.sat f n).get f = min (s.get f + n) (2 ^ f.w - 1) := by
  have hpos := Nat.two_pow_pos f.w
  rw [State.sat, State.get_put_same _ _ _ h, Nat.mod_eq_of_lt (by omega)]

end Sys2Proof.Machine
end

section
/-! SUPPORT. R60: a capture with more than one data wire high. What a capture holds, which wire counts, what the violation counts and
reports, and the capture of a stage as one equation per kind of stage. -/

namespace Sys2Proof.Machine

/-! ## The wire that counts -/

/-- The lowest bit set is the one below which none is. -/
theorem lowestBit_eq {v n w : Nat} (hn : w < n) (hw : v.testBit w = true) (hlow : ∀ j, j < w → v.testBit j = false) :
    lowestBit v n = w := by
  have hfind : (List.range n).find? (bitOf v ·) = some w := by
    simpa [List.find?_range_eq_some, bitOf] using ⟨hw, hn, hlow⟩
  simp [lowestBit, hfind]

/-! ## The token held -/

@[simp] theorem State.node_setNode_same (s : State) (x : Src) (nd : Node) : (s.setNode x nd).node x = nd := by
  simp [State.node]

@[simp] theorem State.capture_tok (s : State) (x : Src) (v chain : Nat) (branch : Option Nat) :
    ((s.capture x v chain branch).node x).tok = some (BitVec.ofNat 2 v) := by
  simp [State.capture]

/-! ## The violation -/

@[simp] theorem State.codeError_fab (s : State) (n v : Nat) (extra : BitVec 4) : (s.codeError n v extra).fab = s.fab := by
  unfold State.codeError
  split
  · rfl
  · rw [State.raise_fab]; rfl

section
variable {v : Nat} {extra : BitVec 4} (hbad : 2 ^ v ||| extra.toNat ≠ 2 ^ v)
include hbad

theorem State.codeError_logged (s : State) (n : Nat) : (s.codeError n v extra).logged 0x0341 n := by
  rw [State.codeError, if_neg hbad]
  exact State.raise_logged _ _ _

theorem State.codeError_count (s : State) (n : Nat) :
    (s.codeError n v extra).get (F.REGION_CODE_ERR_count n) = min (s.get (F.REGION_CODE_ERR_count n) + 1) 0xFFFF := by
  have hpage : 0x100000 ≤ (F.REGION_CODE_ERR_count n).off := by
    simp only [F.REGION_CODE_ERR_count, R.REGION_CODE_ERR]; omega
  have hfits : (F.REGION_CODE_ERR_count n).fits := (by decide : 0 + 16 ≤ 32)
  rw [State.codeError, if_neg hbad, State.raise_get _ _ _ _ hpage, State.get_sat_same _ _ _ hfits]
  rfl

/-- The violation as it stands after a step: `u` is what the capture made of `s`, and `t` what the rest of the step makes of the report,
both of them by changes of the fabric alone. -/
theorem State.violation_reported {s u t : State} (n : Nat) (hu : u.sansFab = s.sansFab) (ht : t.sansFab = (u.codeError n v extra).sansFab) :
    t.logged 0x0341 n ∧ t.get (F.REGION_CODE_ERR_count n) = min (s.get (F.REGION_CODE_ERR_count n) + 1) 0xFFFF := by
  constructor
  · rw [State.logged_congr (State.log_of_sansFab ht)]
    exact State.codeError_logged hbad u n
  · rw [State.get_of_sansFab ht, State.codeError_count hbad, State.get_of_sansFab hu]

end

/-! ## The stages of a tile -/

/-- The region of an element of a tile stands in front of its key. -/
theorem elemOf_region (n : Fin 16) (c : Fin 64) (r : Fin 72) {x : Nat} (hx : x < 128) : (elemOf ⟨n, c, r⟩ x).key / 2 ^ 32 = n := by
  have hc := c.isLt
  have hr := r.isLt
  unfold elemOf
  (repeat' split) <;> simp only [Src.key, Tile.idx] <;> omega

theorem elemOf_start (t : Tile) (k : Nat) : elemOf t (96 + k) = .seg t k := by
  simp [elemOf, show ¬ 96 + k < 32 by omega, show ¬ 96 + k < 64 by omega]

/-- What the compare taps of a stage do with the token it has taken: only those of a segment start take it (R152, R422). -/
def State.startTaps (s : State) : Src → State
  | .seg t st => s.tapsTake t st
  | _ => s

@[simp] theorem State.startTaps_sansFab (s : State) (x : Src) : (s.startTaps x).sansFab = s.sansFab := by
  cases x <;> simp [State.startTaps]

theorem State.startTaps_elemOf (s : State) (t : Tile) {x : Nat} (hx : x < 96) : s.startTaps (elemOf t x) = s := by
  simp only [elemOf, if_pos hx]
  (repeat' split) <;> rfl

/-- A slack stage that holds a bubble, sees a token and feeds bubbles captures it, acknowledges it and reports a violation (R40, R60). -/
theorem State.slackTake_eq (s : State) (x : Src) (extra : BitVec 4) {v : Nat} (hon : s.fabOn (x.key / 2 ^ 32) = true)
    (hstage : (s.stageInit x).isSome = true) (htok : (s.node x).tok = none) (hseen : s.seen (.elem x) = some v)
    (hroom : s.roomAhead x none = true) :
    s.slackTake x extra =
      ((((s.capture x (violated v extra) 0 none).ackDst (.elem x)).codeError (x.key / 2 ^ 32) v extra)).startTaps x := by
  have hinit : s.stageInit x ≠ none := Option.isSome_iff_ne_none.mp hstage
  unfold State.slackTake
  simp only [hon, htok, hseen, hroom, hinit, Option.isNone_iff_eq_none, Option.isSome_none, Bool.not_true, Bool.false_eq_true, or_self,
    if_false]
  generalize ((s.capture x (violated v extra) 0 none).ackDst (.elem x)).codeError (x.key / 2 ^ 32) v extra = u
  cases x <;> rfl

/-- A cell whose stage holds a bubble, whose inputs fire and which feeds bubbles holds what they make and reports a violation (R40, R60, R70). -/
theorem State.cellTake_eq (s : State) (t : Tile) (i : Nat) (extra : BitVec 4) {g : Fire} (hon : s.fabOn t.n = true)
    (hhold : s.holdEn t i = true) (htok : (s.node (.cell t i)).tok = none) (hfire : s.fireNow t i = some g)
    (hroom : s.roomAhead (.cell t i) g.branch = true) (hmode : s.cellMode t i ≠ .arbMerge) :
    s.cellTake t i extra = (s.cellGives t i (violated g.val extra) g.chain g.branch g.ports).codeError t.n g.val extra := by
  simp [State.cellTake, State.cellGives, hon, hhold, htok, hfire, hroom, hmode]

/-! ## HOLD_STAGE_TOKEN_MOVE -/

theorem exec_holdStageTokenMove_cell (n : Fin 16) (c : Fin 64) (r : Fin 72) (x : Fin 128) (extra : BitVec 4) (s : State)
    (hx : x.val < 32) : exec (.holdStageTokenMove n c r x extra) s = .next (s.cellTake ⟨n, c, r⟩ x extra) := by
  show execHoldStageTokenMove n c r x extra s = _
  simp [execHoldStageTokenMove, hx]

theorem exec_holdStageTokenMove_slack (n : Fin 16) (c : Fin 64) (r : Fin 72) (x : Fin 128) (extra : BitVec 4) (s : State)
    (hx : 32 ≤ x.val) : exec (.holdStageTokenMove n c r x extra) s = .next (s.slackTake (elemOf ⟨n, c, r⟩ x) extra) := by
  show execHoldStageTokenMove n c r x extra s = _
  simp [execHoldStageTokenMove, Nat.not_lt.mpr hx]

/-- A violated move into a slack stage of a tile: the capture of the lowest wire, its acknowledge, the report, the compare taps. -/
theorem completes_violatedSlackMove (n : Fin 16) (c : Fin 64) (r : Fin 72) (y : Fin 128) (hy : 32 ≤ y.val) {x : Src}
    (hx : elemOf ⟨n, c, r⟩ y = x) {v : Nat} {extra : BitVec 4} {s : State} (hon : s.fabOn n = true)
    (hstage : (s.stageInit x).isSome = true) (htok : (s.node x).tok = none) (hseen : s.seen (.elem x) = some v)
    (hroom : s.roomAhead x none = true) (hbad : 2 ^ v ||| extra.toNat ≠ 2 ^ v) :
    Completes (.holdStageTokenMove n c r y extra) s (fun t =>
      t = ((((s.capture x (violated v extra) 0 none).ackDst (.elem x)).codeError n v extra)).startTaps x ∧
      t.logged 0x0341 n ∧ t.get (F.REGION_CODE_ERR_count n) = min (s.get (F.REGION_CODE_ERR_count n) + 1) 0xFFFF) := by
  have hkey : x.key / 2 ^ 32 = n := hx ▸ elemOf_region n c r y.isLt
  have hmove := State.slackTake_eq s x extra (hkey ▸ hon) hstage htok hseen hroom
  rw [hkey] at hmove
  refine ⟨s.slackTake x extra, hx ▸ exec_holdStageTokenMove_slack n c r y extra s hy, hmove, ?_⟩
  refine State.violation_reported hbad (u := (s.capture x (violated v extra) 0 none).ackDst (.elem x)) n ?_ ?_
  · rw [State.ackDst_sansFab, State.capture_sansFab]
  · rw [hmove, State.startTaps_sansFab]

/-- A violated capture of a cell: the lowest wire of what its inputs make, their acknowledges, the report. -/
theorem completes_violatedCellMove (n : Fin 16) (c : Fin 64) (r : Fin 72) (y : Fin 128) (hy : y.val < 32) {g : Fire} {extra : BitVec 4}
    {s : State} (hon : s.fabOn n = true) (hhold : s.holdEn ⟨n, c, r⟩ y = true) (htok : (s.node (.cell ⟨n, c, r⟩ y)).tok = none)
    (hfire : s.fireNow ⟨n, c, r⟩ y = some g) (hroom : s.roomAhead (.cell ⟨n, c, r⟩ y) g.branch = true)
    (hmode : s.cellMode ⟨n, c, r⟩ y ≠ .arbMerge) (hbad : 2 ^ g.val ||| extra.toNat ≠ 2 ^ g.val) :
    Completes (.holdStageTokenMove n c r y extra) s (fun t =>
      t = (s.cellGives ⟨n, c, r⟩ y (violated g.val extra) g.chain g.branch g.ports).codeError n g.val extra ∧
      t.logged 0x0341 n ∧ t.get (F.REGION_CODE_ERR_count n) = min (s.get (F.REGION_CODE_ERR_count n) + 1) 0xFFFF) := by
  have htake := State.cellTake_eq s ⟨n, c, r⟩ y extra hon hhold htok hfire hroom hmode
  refine ⟨_, exec_holdStageTokenMove_cell n c r y extra s hy, htake, ?_⟩
  exact State.violation_reported hbad n (State.cellGives_sansFab s _ _ _ _ _ _) (congrArg State.sansFab htake)

/-- Settles O9: each kind of stage captures by one equation, and what follows the capture leaves the count and the log of the report. -/
theorem aViolatedCaptureTakesTheLowestWire : Obligations.AViolatedCaptureTakesTheLowestWire := by
  unfold Obligations.AViolatedCaptureTakesTheLowestWire
  refine ⟨?_, ?_, ?_, ?_, ?_⟩
  · intro v w extra hw hlow
    exact lowestBit_eq w.isLt hw hlow
  · intro x v chain branch s
    exact State.capture_tok s x v chain branch
  · intro n c r k v extra s hon x hstage htok hseen _ hroom hbad
    obtain ⟨t, hexec, ht, hlog, hcount⟩ := completes_violatedSlackMove n c r ⟨32 + k.val, by omega⟩ (Nat.le_add_right _ _) (x := x)
      rfl hon hstage htok hseen hroom hbad
    refine ⟨t, hexec, ?_, hlog, hcount⟩
    rw [ht, State.startTaps_elemOf _ _ (by omega), State.codeError_fab]
  · intro n c r k v extra s hon x hstage htok hseen _ hroom hbad
    obtain ⟨t, hexec, ht, hlog, hcount⟩ := completes_violatedSlackMove n c r ⟨96 + k.val, by omega⟩ (by simp only; omega) (x := x)
      (elemOf_start _ _) hon hstage htok hseen hroom hbad
    exact ⟨t, hexec, hlog, congrArg State.fab ht, hcount⟩
  · intro n c r i g extra s hon hhold htok hfire hroom hmode hbad
    obtain ⟨t, hexec, ht, hlog, hcount⟩ := completes_violatedCellMove n c r ⟨i.val, by omega⟩ i.isLt
      hon hhold htok hfire hroom hmode hbad
    refine ⟨t, hexec, hlog, ?_, hcount⟩
    rw [ht, State.codeError_fab]

end Sys2Proof.Machine
end

section
/-! SUPPORT. The word that a read gives stands while the module sends: what a frame goes through on its way out (R316, R346 to R357) and the
events on that way (R394) leave `readData`. -/

namespace Sys2Proof.Machine

theorem foldl_readData {α : Type} (f : State → α → State) (h : ∀ s a, (f s a).readData = s.readData) (l : List α) (s : State) :
    (l.foldl f s).readData = s.readData := by
  induction l generalizing s with
  | nil => rfl
  | cons a l ih => rw [List.foldl_cons, ih, h]

@[simp] theorem State.putB_readData (s : State) (f : RF) (b : Bool) : (s.putB f b).readData = s.readData := rfl
@[simp] theorem State.inc_readData (s : State) (f : RF) (n : Nat) : (s.inc f n).readData = s.readData := rfl
@[simp] theorem State.sat_readData (s : State) (f : RF) (n : Nat) : (s.sat f n).readData = s.readData := rfl
@[simp] theorem State.draw_readData (s : State) : s.draw.2.readData = s.readData := rfl

/-! ## Events -/

@[simp] theorem State.msixSend_readData (s : State) (v : Nat) : (s.msixSend v).readData = s.readData := rfl

@[simp] theorem State.ringEntry_readData (s : State) (n : Nat) : (s.ringEntry n).readData = s.readData := by
  unfold State.ringEntry
  dsimp only
  split <;> simp

@[simp] theorem State.ringAdvance_readData (s : State) (n : Nat) : (s.ringAdvance n).readData = s.readData := by
  unfold State.ringAdvance
  split <;> simp

@[simp] theorem State.ringWrite_readData (s : State) (n flagOff : Nat) (entry : List Byte) :
    (s.ringWrite n flagOff entry).readData = s.readData := by
  simp [State.ringWrite]

@[simp] theorem State.eventRing_readData (s : State) (id param : Nat) (remote : Bool) (origin : Nat) :
    (s.eventRing id param remote origin).readData = s.readData := by
  unfold State.eventRing
  dsimp only
  (repeat' split) <;> simp

@[simp] theorem State.print_readData (s : State) (ls : List ConOut) : (s.print ls).readData = s.readData := by
  unfold State.print
  split <;> rfl

@[simp] theorem State.raise_readData (s : State) (id param : Nat) : (s.raise id param).readData = s.readData := by
  unfold State.raise
  dsimp only
  rw [State.eventRing_readData]
  (repeat' split) <;> simp

@[simp] theorem State.raiseLim_readData (s : State) (us id unit param : Nat) : (s.raiseLim us id unit param).readData = s.readData := by
  unfold State.raiseLim
  dsimp only
  split <;> simp

@[simp] theorem State.raiseFree_readData (s : State) (id : Nat) : (s.raiseFree id).readData = s.readData := by
  simp [State.raiseFree]

/-! ## Queues that take words -/

@[simp] theorem State.xqSync_readData (s : State) (q : Nat) : (s.xqSync q).readData = s.readData := by
  simp [State.xqSync]

@[simp] theorem State.xqStore_readData (s : State) (q : Nat) (w : XWord) : (s.xqStore q w).readData = s.readData := by
  simp [State.xqStore]

@[simp] theorem State.xqPush_readData (s : State) (q : Nat) (d : BitVec 128) (sb : BitVec 16) : (s.xqPush q d sb).readData = s.readData := by
  unfold State.xqPush
  dsimp only
  (repeat' split) <;> simp

@[simp] theorem State.xqDrain_readData (k : Nat) : ∀ (s : State) (q : Nat), (State.xqDrain k s q).readData = s.readData := by
  induction k with
  | zero => intro s q; rfl
  | succ k ih => intro s q; unfold State.xqDrain; (repeat' split) <;> simp [ih]

@[simp] theorem State.xqFeed_readData (s : State) (q : Nat) (ws : List (BitVec 128 × BitVec 16)) : (s.xqFeed q ws).readData = s.readData := by
  simp [State.xqFeed]

/-! ## Slots of lanes -/

@[simp] theorem State.laneItem_readData (s : State) (n : Nat) (it : LaneItem) : (s.laneItem n it).readData = s.readData := rfl

@[simp] theorem State.laneBlock_readData (s : State) (n : Nat) (ctl : Bool) (w : BitVec 64) : (s.laneBlock n ctl w).readData = s.readData := rfl

@[simp] theorem State.laneFiller_readData (s : State) (n : Nat) : (s.laneFiller n).readData = s.readData := by
  unfold State.laneFiller
  split <;> simp

@[simp] theorem State.laneSlot_readData (s : State) (n : Nat) : (s.laneSlot n).readData = s.readData := by
  unfold State.laneSlot
  dsimp only
  split
  · rfl
  · split
    · simp
    · rw [State.setLane_readData, foldl_readData _ fun u m => by simp]

theorem State.portLane_readData {s : State} {p : Nat} {r : Nat × State} (h : s.portLane p = some r) : r.2.readData = s.readData := by
  obtain ⟨k, -, hr⟩ := Option.map_eq_some_iff.mp h
  rw [← hr, State.setGrp_readData]

@[simp] theorem State.portSlots_readData (k : Nat) : ∀ (s : State) (p : Nat), (State.portSlots k s p).readData = s.readData := by
  induction k with
  | zero => intro s p; rfl
  | succ k ih =>
    intro s p
    unfold State.portSlots
    split
    · rfl
    · next h => rw [ih, State.laneSlot_readData, State.portLane_readData h]

@[simp] theorem State.portSlotAll_readData (s : State) (p : Nat) : (s.portSlotAll p).readData = s.readData :=
  foldl_readData _ (fun u k => by split <;> simp) _ s

/-! ## Ports -/

@[simp] theorem State.pelSend_readData (s : State) (p type body : Nat) : (s.pelSend p type body).readData = s.readData := by
  unfold State.pelSend
  dsimp only
  split <;> simp

@[simp] theorem State.pelCredit_readData (s : State) (p : Nat) : (s.pelCredit p).readData = s.readData := by
  simp [State.pelCredit]

@[simp] theorem State.pelFree_readData (s : State) (p v cost : Nat) : (s.pelFree p v cost).readData = s.readData := by
  unfold State.pelFree
  dsimp only
  split <;> simp

@[simp] theorem State.bufLeave_readData (s : State) (p id : Nat) : (s.bufLeave p id).readData = s.readData := by
  unfold State.bufLeave
  dsimp only
  (repeat' split) <;> simp

@[simp] theorem State.pelDrop_readData (s : State) (p : Nat) : (s.pelDrop p).readData = s.readData := by
  simp [State.pelDrop]

@[simp] theorem State.pelDrained_readData (s : State) (q : Nat) : (s.pelDrained q).readData = s.readData := by
  refine foldl_readData _ (fun u p => ?_) _ s
  dsimp only
  split
  · rw [foldl_readData _ fun t e => by simp, State.setPort_readData]
  · rfl

@[simp] theorem State.pelDeliver_readData (s : State) (p q id : Nat) (ws : List (BitVec 128 × BitVec 16)) :
    (s.pelDeliver p q id ws).readData = s.readData := by
  simp [State.pelDeliver]

@[simp] theorem State.pelTake_readData (s : State) (p : Nat) (t : LateFrame) : (s.pelTake p t).readData = s.readData := by
  unfold State.pelTake
  dsimp only
  split <;> simp

@[simp] theorem State.pelSpend_readData (s : State) (p v cost : Nat) : (s.pelSpend p v cost).readData = s.readData := rfl

@[simp] theorem State.pelMark_readData (s : State) (p : Nat) : (s.pelMark p).readData = s.readData := by
  unfold State.pelMark
  dsimp only
  split <;> simp

@[simp] theorem State.pelRecord_readData (s : State) (p type : Nat) (f : PFrame) (stomped : Bool) :
    (s.pelRecord p type f stomped).readData = s.readData := by
  simp [State.pelRecord]

@[simp] theorem State.pelFinish_readData (s : State) (p : Nat) (f : PFrame) (stomped : Bool) :
    (s.pelFinish p f stomped).readData = s.readData := by
  simp [State.pelFinish]

@[simp] theorem State.leaveHeld_readData (s : State) (t : TxFrame) : (s.leaveHeld t).readData = s.readData := by
  unfold State.leaveHeld
  split <;> simp

@[simp] theorem State.pelGo_readData (s : State) (p v : Nat) (t : TxFrame) : (s.pelGo p v t).readData = s.readData := by
  simp [State.pelGo]

@[simp] theorem State.pelServe_readData (k : Nat) : ∀ (s : State) (p : Nat), (State.pelServe k s p).readData = s.readData := by
  induction k with
  | zero => intro s p; rfl
  | succ k ih => intro s p; unfold State.pelServe; (repeat' split) <;> simp [ih]

@[simp] theorem State.enqueue_readData (s : State) (p : Nat) (t : TxFrame) : (s.enqueue p t).readData = s.readData := by
  simp [State.enqueue, State.serve]

@[simp] theorem State.pelWrap_readData (s : State) (p : Nat) : (s.pelWrap p).readData = s.readData := by
  unfold State.pelWrap
  dsimp only
  split <;> simp

/-! ## MGMT frames and answers -/

@[simp] theorem State.pelSendFrame_readData (s : State) (cnt : Nat) (f : PFrame) : (s.pelSendFrame cnt f).readData = s.readData := by
  unfold State.pelSendFrame
  dsimp only
  split
  · exact State.pelDrop_readData s cnt
  · rw [foldl_readData _ fun u p => by simp]
    split <;> simp

@[simp] theorem State.mgmtSend_readData (s : State) (dst type : Nat) (payload : List Byte) :
    (s.mgmtSend dst type payload).readData = s.readData := by
  unfold State.mgmtSend
  split <;> simp

/-- The answer of an access shows the word that it read and does not change it. -/
@[simp] theorem State.answer_readData (s : State) (a : Access) (v : Word) (status : Nat) : (s.answer a v status).readData = s.readData := by
  unfold State.answer
  (repeat' split) <;> simp

end Sys2Proof.Machine
end

section
/-! SUPPORT. The pages of Table 19.1 and the offsets that hold no register (R10, R515). -/

namespace Sys2Proof.Machine

/-! ## The pages by name -/

def sysPage : RegPage := ⟨0x0, 0x10000, 1, sysRows⟩
def ldrPage : RegPage := ⟨0x10000, 0x10000, 1, ldrRows⟩
def hifPage : RegPage := ⟨0x20000, 0x10000, 1, hifRows⟩
def cadPage : RegPage := ⟨0x40000, 0x10000, 1, cadRows⟩
def spkPage : RegPage := ⟨0x50000, 0x1000, 48, spkRows⟩
def adcPage : RegPage := ⟨0x80000, 0x10000, 1, adcRows⟩
def pinPage : RegPage := ⟨0x90000, 0x10000, 1, pinRows⟩
def xqPage : RegPage := ⟨0xA0000, 0x400, 64, xqRows⟩
def regionPage : RegPage := ⟨0x100000, 0x10000, 16, regionRows⟩
def lanePage : RegPage := ⟨0x200000, 0x1000, 60, laneRows⟩
def grpPage : RegPage := ⟨0x240000, 0x1000, 12, grpRows⟩
def pelPage : RegPage := ⟨0x280000, 0x1000, 4, pelRows⟩
def pelnetPage : RegPage := ⟨0x280000, 0x1000, 1, pelnetRows⟩
def grmPage : RegPage := ⟨0x2C0000, 0x10000, 1, grmRows⟩
def bistPage : RegPage := ⟨0x2D0000, 0x10000, 1, bistRows⟩
def pwrPage : RegPage := ⟨0x2E0000, 0x10000, 1, pwrRows⟩

theorem regPages_eq : regPages = [sysPage, ldrPage, hifPage, cadPage, spkPage, adcPage, pinPage, xqPage, regionPage, lanePage, grpPage,
    pelPage, pelnetPage, grmPage, bistPage, pwrPage] := rfl

/-! ## Where a register lies -/

theorem exists_page_of_regRow? {off : Nat} (h : (regRow? off).isSome = true) :
    ∃ p ∈ regPages, p.base ≤ off ∧ off < p.base + p.stride * p.count := by
  obtain ⟨r, hr⟩ := Option.isSome_iff_exists.mp h
  obtain ⟨p, hp, hrow⟩ := List.exists_of_findSome?_eq_some hr
  refine ⟨p, hp, ?_⟩
  by_contra hout
  simp [RegPage.row?, hout] at hrow

/-- The pages lie in the six ranges of Table 19.1 that are not reserved. -/
theorem regPages_ranges : ∀ p ∈ regPages, p.base + p.stride * p.count ≤ 0x30000 ∨
    (0x40000 ≤ p.base ∧ p.base + p.stride * p.count ≤ 0xB0000) ∨
    (0x100000 ≤ p.base ∧ p.base + p.stride * p.count ≤ 0x23C000) ∨ (0x240000 ≤ p.base ∧ p.base + p.stride * p.count ≤ 0x24C000) ∨
    (0x280000 ≤ p.base ∧ p.base + p.stride * p.count ≤ 0x284000) ∨ (0x2C0000 ≤ p.base ∧ p.base + p.stride * p.count ≤ 0x2F0000) := by
  decide

theorem regRow?_ranges {off : Nat} (h : (regRow? off).isSome = true) :
    off < 0x30000 ∨ (0x40000 ≤ off ∧ off < 0xB0000) ∨ (0x100000 ≤ off ∧ off < 0x23C000) ∨
      (0x240000 ≤ off ∧ off < 0x24C000) ∨ (0x280000 ≤ off ∧ off < 0x284000) ∨ (0x2C0000 ≤ off ∧ off < 0x2F0000) := by
  obtain ⟨p, hp, hlo, hhi⟩ := exists_page_of_regRow? h
  have hranges := regPages_ranges p hp
  omega

/-- The rows of a page give a register at an offset within its slots. -/
def RegPage.implements (p : RegPage) (rel : Nat) : Bool := decide (rel < p.stride) && p.rows.any (·.has rel)

theorem regRow?_isSome_of_implements {p : RegPage} (hp : p ∈ regPages) {i rel : Nat} (hi : i < p.count)
    (hrel : p.implements rel = true) : (regRow? (p.base + rel + p.stride * i)).isSome = true := by
  obtain ⟨hlt, hany⟩ : rel < p.stride ∧ p.rows.any (·.has rel) = true := by simpa [RegPage.implements] using hrel
  have hslot : p.stride * (i + 1) ≤ p.stride * p.count := Nat.mul_le_mul_left _ hi
  have hin : p.base ≤ p.base + rel + p.stride * i ∧ p.base + rel + p.stride * i < p.base + p.stride * p.count := by
    rw [Nat.mul_succ] at hslot
    omega
  have hmod : (p.base + rel + p.stride * i - p.base) % p.stride = rel := by
    rw [Nat.add_assoc, Nat.add_sub_cancel_left, Nat.add_mul_mod_self_left, Nat.mod_eq_of_lt hlt]
  have hrow : (p.row? (p.base + rel + p.stride * i)).isSome = true := by
    simpa [RegPage.row?, hin, hmod] using hany
  exact List.findSome?_isSome_iff.mpr ⟨p, hp, hrow⟩

/-! ## What an offset without a register is not -/

section
variable {off : Nat} (h : regRow? off = none)
include h

/-- It is not a register of a page slot. -/
theorem ne_register (p : RegPage) (rel : Nat) {i : Nat} (hi : i < p.count) (hp : p ∈ regPages := by simp [regPages_eq])
    (hrel : p.implements rel = true := by decide) : off ≠ p.base + rel + p.stride * i := by
  rintro rfl
  simpa [h] using regRow?_isSome_of_implements hp hi hrel

/-- It is not one of an array of registers in a page slot. -/
theorem ne_slot_array (p : RegPage) (rel stride cnt : Nat) {i k : Nat} (hi : i < p.count) (hk : k < cnt)
    (hp : p ∈ regPages := by simp [regPages_eq]) (hrel : ∀ j < cnt, p.implements (rel + stride * j) = true := by decide) :
    off ≠ p.base + rel + p.stride * i + stride * k := by
  have hne := ne_register h p (rel + stride * k) hi hp (hrel k hk)
  omega

/-- It is not one of an array of registers in a page of one slot. -/
theorem ne_array (p : RegPage) (rel stride cnt : Nat) {k : Nat} (hk : k < cnt) (hp : p ∈ regPages := by simp [regPages_eq])
    (hrel : ∀ j < cnt, p.implements (rel + stride * j) = true := by decide) (hcount : 0 < p.count := by decide) :
    off ≠ p.base + rel + stride * k :=
  ne_slot_array h p rel stride cnt (i := 0) hcount hk hp hrel

end

theorem within_iff (lo hi off : Nat) : within lo hi off = true ↔ lo ≤ off ∧ off < hi := by simp [within]

theorem pageSlot_lt {base stride off n : Nat} (h : within base (base + n * stride) off = true) : pageSlot base stride off < n := by
  obtain ⟨hlo, hhi⟩ := (within_iff _ _ _).mp h
  exact Nat.div_lt_of_lt_mul (by rw [Nat.mul_comm]; omega)

end Sys2Proof.Machine
end

section
/-! SUPPORT. A write or a read at an offset without a register (R10, R515). The operations of a page tell their offset from the registers
that they treat apart; these all exist, so such an offset is none of them, and what is left is a plain write, which finds no register. -/

namespace Sys2Proof.Machine

theorem State.regs_ite {c : Prop} [Decidable c] {s t u : State} (ht : c → t.regs = s.regs) (hu : ¬ c → u.regs = s.regs) :
    (if c then t else u).regs = s.regs := by
  by_cases hc : c
  · rw [if_pos hc, ht hc]
  · rw [if_neg hc, hu hc]

section
variable {off : Nat} (h : regRow? off = none)
include h

/-! ## Plain writes -/

theorem clearOf_of_no_register : clearOf off = none := by
  unfold clearOf
  have hsvc : off ≠ R.SUP_SVC_STS := ne_register h sysPage 0x604 (i := 0) (by decide)
  rw [if_neg hsvc]
  split
  · next hin =>
    have hu : pageSlot 0x50000 0x1000 off < 48 := pageSlot_lt hin
    have hlate : off ≠ R.SPK_LATE (pageSlot 0x50000 0x1000 off) := ne_register h spkPage 0x24 hu
    have hmin : off ≠ R.SPK_MON_MIN (pageSlot 0x50000 0x1000 off) := ne_register h spkPage 0x3C hu
    simp [hlate, hmin]
  split
  · next hin =>
    have hsts : off ≠ R.ADC_STS (pageSlot 0x80000 0x40 off) := ne_array h adcPage 0x4 0x40 8 (pageSlot_lt hin)
    simp [hsts]
  split
  · next hin =>
    have herr : off ≠ R.XQ_ERR (pageSlot 0xA0000 0x400 off) := ne_register h xqPage 0x1C (pageSlot_lt hin)
    simp [herr]
  split
  · next hin =>
    have hn : pageSlot 0x100000 0x10000 off < 16 := pageSlot_lt hin
    have hcode : off ≠ R.REGION_CODE_ERR (pageSlot 0x100000 0x10000 off) := ne_register h regionPage 0x904 hn
    have hecc : off ≠ R.REGION_FIRN_ECC (pageSlot 0x100000 0x10000 off) := ne_register h regionPage 0xB18 hn
    have hcoll : off ≠ R.REGION_FIRN_COLL (pageSlot 0x100000 0x10000 off) := ne_register h regionPage 0xB20 hn
    simp [hcode, hecc, hcoll]
  split
  · next hin =>
    have herr : off ≠ R.LANE_ERR (pageSlot 0x200000 0x1000 off) := ne_register h lanePage 0xC (pageSlot_lt hin)
    simp [herr]
  split
  · next hin =>
    have herr : off ≠ R.PEL_ERR (pageSlot 0x280000 0x1000 off) := ne_register h pelPage 0x14 (pageSlot_lt hin)
    simp [herr]
  · have hsbu : off ≠ R.GRM_SBU := ne_register h grmPage 0x8 (i := 0) (by decide)
    have hmbu : off ≠ R.GRM_MBU := ne_register h grmPage 0xC (i := 0) (by decide)
    have hself : off ≠ R.GRM_SELF := ne_register h grmPage 0x14 (i := 0) (by decide)
    simp [hsbu, hmbu, hself]

theorem State.fieldWrite_of_no_register (s : State) (v : Word) : s.fieldWrite off v = s := by
  simp [State.fieldWrite, State.plainWrite, clearsBy, clearOf_of_no_register h, h]

theorem State.retiredWrite_of_no_register (s : State) (v : Word) : s.retiredWrite off v = s := by
  simp [State.retiredWrite, h]

/-! ## Writes by page -/

theorem State.ldrWrite_regs_of_no_register (s : State) (v : Word) : (s.ldrWrite off v).regs = s.regs := by
  have hrevoke : off ≠ R.SEC_REVOKE := ne_register h ldrPage 0x804 (i := 0) (by decide)
  simp only [State.ldrWrite, hrevoke, if_false, State.fieldWrite_of_no_register h]
  rfl

/-- The rings of Table 13.2 have their registers: where HIF_RINGn_CFG would be and there is none, n is no ring. -/
theorem not_isRing_of_no_register {n : Nat} (hoff : off = R.HIF_RING_CFG n) : isRing n = false := by
  refine Bool.eq_false_iff.mpr fun hring => ?_
  have hnum : n < 3 ∨ 0x20 ≤ n ∧ n < 0x60 := by simpa [isRing] using hring
  rcases hnum with hlow | ⟨hge, hlt⟩
  · exact absurd hoff (ne_array h hifPage 0x1008 0x40 3 hlow)
  · have hne := ne_array h hifPage 0x1808 0x40 64 (k := n - 0x20) (by omega)
    simp only [R.HIF_RING_CFG] at hoff
    simp only [hifPage] at hne
    omega

theorem State.hifWrite_of_no_register (s : State) (v : Word) : s.hifWrite off v = s := by
  have hmbox : off ≠ R.HIF_MBOX_CMD := ne_register h hifPage 0x100 (i := 0) (by decide)
  have hcfg (n : Nat) (hoff : off = R.HIF_RING_CFG n) : s.ringCfgWrite n v = s := by
    simp only [State.ringCfgWrite, not_isRing_of_no_register h hoff, Bool.not_false, if_true]
  unfold State.hifWrite
  rw [if_neg hmbox]
  dsimp only
  simp only [State.fieldWrite_of_no_register h, ite_self]
  split
  · split
    · next hoff => exact hcfg _ hoff
    · rfl
  · rfl

theorem State.cadSrcWrite_of_no_register (s : State) {n : Nat} (hn : n < 4) (v : Word) : s.cadSrcWrite n off v = s := by
  have hctl : off ≠ R.CAD_SRC_CTL n := ne_array h cadPage 0x100 0x40 4 hn
  simp only [State.cadSrcWrite, hctl, if_false, State.fieldWrite_of_no_register h, ite_self]

theorem State.cadTrkWrite_of_no_register (s : State) {t : Nat} (ht : t < 8) (v : Word) : s.cadTrkWrite t off v = s := by
  have hctl : off ≠ R.CAD_TRK_CTL t := ne_array h cadPage 0x400 0x80 8 ht
  have hadj : off ≠ R.CAD_TRK_ADJ t := ne_array h cadPage 0x430 0x80 8 ht
  have hsw : off ≠ R.CAD_TRK_SW t := ne_array h cadPage 0x434 0x80 8 ht
  have hdiv : off ≠ R.CAD_TRK_DIV t := ne_array h cadPage 0x404 0x80 8 ht
  simp only [State.cadTrkWrite, hctl, hadj, hsw, hdiv, if_false, State.fieldWrite_of_no_register h, ite_self]

theorem State.cadWrite_of_no_register (s : State) (v : Word) : s.cadWrite off v = s := by
  have hctl : off ≠ R.CAD_CTL := ne_register h cadPage 0x0 (i := 0) (by decide)
  unfold State.cadWrite
  rw [if_neg hctl]
  split
  · next hin => exact State.cadSrcWrite_of_no_register h s (pageSlot_lt hin) v
  split
  · next hin => exact State.cadTrkWrite_of_no_register h s (pageSlot_lt hin) v
  · exact State.fieldWrite_of_no_register h s v

theorem State.spkWrite_of_no_register (s : State) {u : Nat} (hu : u < 48) (v : Word) : s.spkWrite u off v = s := by
  have hctl : off ≠ R.SPK_CTL u := ne_register h spkPage 0x0 hu
  have hlo : off ≠ R.SPK_PUSH_LO u := ne_register h spkPage 0x8 hu
  have hhi : off ≠ R.SPK_PUSH_HI u := ne_register h spkPage 0xC hu
  have hcfg (r : Nat) (hr : r < 2) : off ≠ R.SPK_PINCFG u r := ne_slot_array h spkPage 0x28 0x4 2 hu hr
  simp only [State.spkWrite, hctl, hlo, hhi, hcfg 0 (by decide), hcfg 1 (by decide), or_self, if_false, State.fieldWrite_of_no_register h]

theorem State.adcWrite_of_no_register (s : State) {c : Nat} (hc : c < 8) (v : Word) : s.adcWrite c off v = s := by
  have hctl : off ≠ R.ADC_CTL c := ne_array h adcPage 0x0 0x40 8 hc
  simp only [State.adcWrite, hctl, if_false, State.fieldWrite_of_no_register h]

theorem State.pinCfgWrite_of_no_register (s : State) (p : Nat) (v : Word) : s.pinCfgWrite p off v = s := by
  simp [State.pinCfgWrite, h]

theorem State.perWrite_of_no_register (s : State) (v : Word) : s.perWrite off v = s := by
  have hfield (u : State) : u.fieldWrite off v = u := State.fieldWrite_of_no_register h u v
  unfold State.perWrite
  split
  · next hin =>
    have htx : off ≠ R.UART_TX (pageSlot 0x90400 0x40 off) := ne_array h pinPage 0x404 0x40 2 (pageSlot_lt hin)
    simp only [htx, if_false, hfield]
  split
  · next hin =>
    have htx : off ≠ R.SPI_TX (pageSlot 0x90500 0x40 off) := ne_array h pinPage 0x504 0x40 2 (pageSlot_lt hin)
    simp only [htx, if_false, hfield]
  split
  · next hin =>
    have hk : pageSlot 0x90600 0x40 off < 2 := pageSlot_lt hin
    have hcmd : off ≠ R.I2C_CMD (pageSlot 0x90600 0x40 off) := ne_array h pinPage 0x604 0x40 2 hk
    have htx : off ≠ R.I2C_TX (pageSlot 0x90600 0x40 off) := ne_array h pinPage 0x608 0x40 2 hk
    simp only [hcmd, htx, if_false, hfield]
  split
  · next hin =>
    have hctl : off ≠ R.SSI_CTL (pageSlot 0x90700 0x40 off) := ne_array h pinPage 0x704 0x40 2 (pageSlot_lt hin)
    simp only [hctl, if_false, hfield]
  split
  · next hin =>
    have hcfg : off ≠ R.BANK_CFG (pageSlot 0x90800 0x10 off) := ne_array h pinPage 0x800 0x10 8 (pageSlot_lt hin)
    simp only [hcfg, if_false, hfield]
  · exact hfield s

/-- Only the doublewords of PIN_LOCK are in its range. -/
theorem not_within_pinLock (halign : off % 4 = 0) : ¬ within 0x90140 0x90150 off = true := by
  intro hin
  have hx : pageSlot 0x90140 4 off < 4 := pageSlot_lt hin
  have hne := ne_array h pinPage 0x140 0x4 4 hx
  have hlo := ((within_iff _ _ _).mp hin).1
  simp only [pinPage, pageSlot] at hne
  omega

theorem State.pinPageWrite_regs_of_no_register (s : State) (v : Word) (halign : off % 4 = 0) : (s.pinPageWrite off v).regs = s.regs := by
  have hport : (List.range 4).find? (fun x => off == R.PIN_OUT x || off == R.PIN_SET x || off == R.PIN_CLR x) = none := by
    refine List.find?_eq_none.mpr fun x hx => ?_
    have hx4 := List.mem_range.mp hx
    have hout : off ≠ R.PIN_OUT x := ne_array h pinPage 0x110 0x4 4 hx4
    have hset : off ≠ R.PIN_SET x := ne_array h pinPage 0x120 0x4 4 hx4
    have hclr : off ≠ R.PIN_CLR x := ne_array h pinPage 0x130 0x4 4 hx4
    simp [hout, hset, hclr]
  have hen : off ≠ R.PER_EN := ne_register h pinPage 0x200 (i := 0) (by decide)
  simp only [State.pinPageWrite, not_within_pinLock h halign, Bool.false_eq_true, if_false, hport, hen, State.pinCfgWrite_of_no_register h,
    State.perWrite_of_no_register h, ite_self, State.pinWrite_regs]

theorem State.xqWrite_of_no_register (s : State) {q : Nat} (hq : q < 64) (v : Word) : s.xqWrite q off v = s := by
  have hbind : off ≠ R.XQ_BIND q := ne_register h xqPage 0x4 hq
  have hctl : off ≠ R.XQ_CTL q := ne_register h xqPage 0x0 hq
  simp only [State.xqWrite, hbind, hctl, if_false, State.fieldWrite_of_no_register h]

theorem State.regionWrite_of_no_register (s : State) {n : Nat} (hn : n < 16) (v : Word) : s.regionWrite n off v = s := by
  have hwdg : (List.range 32).find? (fun k => off == R.REGION_WDG_CTL n k) = none := by
    refine List.find?_eq_none.mpr fun k hk => ?_
    have hne : off ≠ R.REGION_WDG_CTL n k := ne_slot_array h regionPage 0x800 0x8 32 hn (List.mem_range.mp hk)
    simpa using hne
  have hfreeze : off ≠ R.REGION_FREEZE n := ne_register h regionPage 0x900 hn
  have hfire : off ≠ R.REGION_EVX_FIRE n := ne_register h regionPage 0xC00 hn
  simp only [State.regionWrite, hwdg, hfreeze, hfire, if_false, State.fieldWrite_of_no_register h, ite_self]

theorem State.laneWrite_of_no_register (s : State) {n : Nat} (hn : n < 60) (v : Word) : s.laneWrite n off v = s := by
  have hctl : off ≠ R.LANE_CTL n := ne_register h lanePage 0x0 hn
  have heye : off ≠ R.LANE_ES_CTL n := ne_register h lanePage 0x18 hn
  simp only [State.laneWrite, hctl, heye, if_false, State.fieldWrite_of_no_register h, ite_self]

theorem State.grpWrite_of_no_register (s : State) {g : Nat} (hg : g < 12) (v : Word) : s.grpWrite g off v = s := by
  have hctl : off ≠ R.GRP_CTL g := ne_register h grpPage 0x0 hg
  simp only [State.grpWrite, hctl, if_false, State.fieldWrite_of_no_register h, ite_self]

theorem State.pelWrite_of_no_register (s : State) {p : Nat} (hp : p < 4) (v : Word) : s.pelWrite p off v = s := by
  have hpctl : off ≠ R.PEL_PCTL p := ne_register h pelPage 0x0 hp
  have hctl : off ≠ R.PEL_CTL := ne_register h pelnetPage 0x808 (i := 0) (by decide)
  simp only [State.pelWrite, hpctl, hctl, if_false, State.fieldWrite_of_no_register h, ite_self]

theorem State.lsWrite_of_no_register (s : State) {k : Nat} (hk : k < 8) (v : Word) : s.lsWrite k off v = s := by
  have hctl : off ≠ R.FLT_LS_CTL k := ne_array h grmPage 0x100 0x10 8 hk
  simp only [State.lsWrite, hctl, false_and, if_false, State.fieldWrite_of_no_register h]

theorem State.bistWrite_of_no_register (s : State) (v : Word) : s.bistWrite off v = s := by
  have hctl : off ≠ R.BIST_CTL := ne_register h bistPage 0x0 (i := 0) (by decide)
  simp only [State.bistWrite, hctl, if_false, State.fieldWrite_of_no_register h, if_true, ite_self]

/-- A write at an offset without a register changes none: it can end a pair of writes (R269, R446) and nothing else. -/
theorem State.regWrite_regs_of_no_register (s : State) (v : Word) : (s.regWrite off v).regs = s.regs := by
  unfold State.regWrite
  refine State.regs_ite (fun _ => rfl) fun halign => ?_
  refine State.regs_ite (fun _ => State.ldrWrite_regs_of_no_register h s v) fun _ => ?_
  refine State.regs_ite (fun _ => State.pinPageWrite_regs_of_no_register h s v (not_not.mp halign)) fun _ => ?_
  refine State.regs_ite (fun _ => congrArg _ (State.retiredWrite_of_no_register h s v)) fun _ => ?_
  refine State.regs_ite (fun _ => congrArg _ (State.hifWrite_of_no_register h s v)) fun _ => ?_
  refine State.regs_ite (fun _ => congrArg _ (State.cadWrite_of_no_register h s v)) fun _ => ?_
  refine State.regs_ite (fun hin => congrArg _ (State.spkWrite_of_no_register h s (pageSlot_lt hin) v)) fun _ => ?_
  refine State.regs_ite (fun hin => congrArg _ (State.adcWrite_of_no_register h s (pageSlot_lt hin) v)) fun _ => ?_
  refine State.regs_ite (fun hin => congrArg _ (State.xqWrite_of_no_register h s (pageSlot_lt hin) v)) fun _ => ?_
  refine State.regs_ite (fun hin => congrArg _ (State.regionWrite_of_no_register h s (pageSlot_lt hin) v)) fun _ => ?_
  refine State.regs_ite (fun hin => congrArg _ (State.laneWrite_of_no_register h s (pageSlot_lt hin) v)) fun _ => ?_
  refine State.regs_ite (fun hin => congrArg _ (State.grpWrite_of_no_register h s (pageSlot_lt hin) v)) fun _ => ?_
  refine State.regs_ite (fun hin => congrArg _ (State.pelWrite_of_no_register h s (pageSlot_lt hin) v)) fun _ => ?_
  refine State.regs_ite (fun hin => congrArg _ (State.lsWrite_of_no_register h s (pageSlot_lt hin) v)) fun _ => ?_
  refine State.regs_ite (fun _ => congrArg _ (State.bistWrite_of_no_register h s v)) fun _ => ?_
  have hcfg : off ≠ R.SUP_SVC_CFG := ne_register h sysPage 0x600 (i := 0) (by decide)
  exact State.regs_ite (fun hoff => absurd hoff hcfg) fun _ => congrArg _ (State.fieldWrite_of_no_register h s v)

/-! ## Reads -/

theorem State.wdgRead_of_no_register (s : State) : s.wdgRead off = s := by
  unfold State.wdgRead
  dsimp only
  split
  · next hin =>
    have hsts : (List.range 32).find? (fun k => off == R.REGION_WDG_STS (pageSlot 0x100000 0x10000 off) k) = none := by
      refine List.find?_eq_none.mpr fun k hk => ?_
      have hne : off ≠ R.REGION_WDG_STS (pageSlot 0x100000 0x10000 off) k :=
        ne_slot_array h regionPage 0x804 0x8 32 (pageSlot_lt hin) (List.mem_range.mp hk)
      simpa using hne
    rw [hsts]
  · rfl

theorem State.bistRead_of_no_register (s : State) : s.bistRead off = s := by
  have hpat : off ≠ R.BIST_PAT := ne_register h bistPage 0xC (i := 0) (by decide)
  simp [State.bistRead, hpat]

theorem State.pinRead_of_no_register (s : State) : s.pinRead off = s := by
  have hpin : (List.range 4).find? (fun x => off == R.PIN_IN x) = none := by
    refine List.find?_eq_none.mpr fun x hx => ?_
    have hne : off ≠ R.PIN_IN x := ne_array h pinPage 0x100 0x4 4 (List.mem_range.mp hx)
    simpa using hne
  simp [State.pinRead, hpin]

theorem State.ringRead_of_no_register (s : State) : s.ringRead off = s := by
  have hlo : off ≠ R.PEL_RTIME_LO := ne_register h pelnetPage 0x814 (i := 0) (by decide)
  have hhi : off ≠ R.PEL_RTIME_HI := ne_register h pelnetPage 0x818 (i := 0) (by decide)
  simp [State.ringRead, hlo, hhi]

theorem State.regRead_of_no_register (s : State) (p : Path) : s.regRead p off = { s with readData := 0 } := by
  simp [State.regRead, State.wdgRead_of_no_register h, State.bistRead_of_no_register h, State.pinRead_of_no_register h,
    State.ringRead_of_no_register h, h]

/-! ## Accesses -/

theorem ne_crossCtl : off ≠ R.SUP_CROSS_CTL := ne_register h sysPage 0x400 (i := 0) (by decide)

end

end Sys2Proof.Machine
end

section
/-! SUPPORT. R515: what an access does at an offset that holds no register. -/

namespace Sys2Proof.Machine

/-- An access outside COLD whose domain has its clock is done at once; what a write of force_en adds is SUP_CROSS_CTL's alone (R181, R182). -/
theorem State.access_eq_accessDo {s : State} (a : Access) (hmode : s.mode ≠ .cold)
    (hclk : ∀ d, domainOf a.addr = some d → s.clkStopped d = false) (hctl : a.addr ≠ R.SUP_CROSS_CTL) : s.access a = s.accessDo a := by
  unfold State.access
  rw [if_neg hmode]
  split
  · next d hd => simp [hclk d hd]
  · simp [hctl]

theorem State.accessDo_read_of_no_register {off : Nat} (h : regRow? off = none) (s : State) (p : Path) (ret : Option Nat) :
    (s.accessDo ⟨p, off, none, ret⟩).readData = 0 := by
  simp [State.accessDo, State.regRead_of_no_register h]

theorem State.accessDo_write_of_no_register {off : Nat} (h : regRow? off = none) (s : State) (p : Path) (v : Word) :
    (s.accessDo ⟨p, off, some v, none⟩).regs = s.regs := by
  have hanswer (u : State) : u.answer ⟨p, off, some v, none⟩ v 0 = u := by cases p <;> rfl
  simp only [State.accessDo, hanswer, State.regWrite_regs_of_no_register h]

/-- Where one MGMT frame waits and is a READ, MGMT_READ takes it and does its access (R356). -/
theorem exec_mgmtRead_of_single {s : State} {p : Nat} {f : PFrame} (hmgmt : s.pel.mgmt = [(p, f)]) (htype : f.type = 3) :
    exec .mgmtRead s = .next ((s.setPel { s.pel with mgmt := [] }).access ⟨.mgmt, fieldAt f.payload 0 4, none, some f.src⟩) := by
  show execMgmtRead s = _
  have htake : s.takeMgmt 3 = some ((p, f), s.setPel { s.pel with mgmt := [] }) := by
    simp [State.takeMgmt, hmgmt, htype]
  simp [execMgmtRead, htake]

theorem completes_mgmtRead_of_no_register {s : State} {f : PFrame} (hmode : s.mode ≠ .cold) (hmgmt : s.pel.mgmt = [(0, f)]) (htype : f.type = 3)
    (h : regRow? (fieldAt f.payload 0 4) = none) (hclk : ∀ d, domainOf (fieldAt f.payload 0 4) = some d → s.clkStopped d = false) :
    Completes .mgmtRead s (fun t => t.readData = 0) := by
  refine ⟨_, exec_mgmtRead_of_single hmgmt htype, ?_⟩
  have hdo := State.access_eq_accessDo (s := s.setPel { s.pel with mgmt := [] }) ⟨.mgmt, fieldAt f.payload 0 4, none, some f.src⟩ hmode
    hclk (ne_crossCtl h)
  rw [hdo]
  exact State.accessDo_read_of_no_register h _ _ _

theorem completes_registerWrite_of_no_register {s : State} (p : Path) {off : BitVec 24} (v : BitVec 32) (hmode : s.mode ≠ .cold)
    (h : regRow? off.toNat = none) (hclk : ∀ d, domainOf off.toNat = some d → s.clkStopped d = false) :
    Completes (.registerWrite p off v) s (fun t => t.regs = s.regs) := by
  refine ⟨s.access ⟨p, off.toNat, some v, none⟩, rfl, ?_⟩
  rw [State.access_eq_accessDo ⟨p, off.toNat, some v, none⟩ hmode hclk (ne_crossCtl h)]
  exact State.accessDo_write_of_no_register h s p v

/-- Settles O50: registers lie in the ranges of the pages, and at any other offset each operation that tells registers apart finds none. -/
theorem offsetsOutsideEveryPageReadZero : Obligations.OffsetsOutsideEveryPageReadZero := by
  unfold Obligations.OffsetsOutsideEveryPageReadZero
  refine ⟨?_, ?_, ?_, ?_, ?_⟩
  · intro off h
    exact regRow?_ranges h
  · intro off hlo hhi
    by_contra hreg
    have hranges := regRow?_ranges (Option.isSome_iff_ne_none.mpr hreg)
    omega
  · intro f s hmode hmgmt htype h hclk
    exact completes_mgmtRead_of_no_register hmode hmgmt htype h hclk
  · intro p off s h
    exact State.regRead_of_no_register h s p
  · intro off v s hmode h hclk
    exact completes_registerWrite_of_no_register .bar0 v hmode h hclk

end Sys2Proof.Machine
end

section
/-! SUPPORT. What every command and every step keeps: the lemmas of Laws/Quiet and Laws/Lasts about each meaning, put together over the
constructors of `Instr`. -/

namespace Sys2Proof.Machine

/-! ## Commands whose last operand the laws leave at its default -/

theorem execEyeScanStart_quiet_margin (n : Fin 60) (s : State) (margin : Bool) : Quiets s.quiet (execEyeScanStart n s margin) := by
  cases margin <;> simp [execEyeScanStart]

theorem execEnum_quiet_second (s : State) (second : Bool) : Quiets s.quiet (execEnum s second) := by
  unfold execEnum
  split
  · simp
  · next e =>
    have h := State.takeMgmt_quiet e
    dsimp only
    (repeat' split) <;> simp [h]

theorem execDoorbell_quiet_read (off : BitVec 19) (v : BitVec 32) (s : State) (read : Bool) : Quiets s.quiet (execDoorbell off v s read) := by
  cases read <;> simp [execDoorbell]

theorem execGroomerFrameCheck_quiet_held (n : Fin 16) (col minor : BitVec 8) (flips : BitVec 4096) (out : Option (Fin 3)) (latch last : Bool)
    (s : State) (held : Bool) : Quiets s.quiet (execGroomerFrameCheck n col minor flips out latch last s held) := by
  unfold execGroomerFrameCheck
  dsimp only
  (repeat' split) <;> simp

theorem State.i2cStart_quiet_low (s : State) (k : Nat) (cmd : Word) (low : Bool) : (s.i2cStart k cmd low).quiet = s.quiet := by
  simp [State.i2cStart]

theorem execI2cCmd_quiet_low (k : Fin 2) (v : BitVec 32) (s : State) (low : Bool) : Quiets s.quiet (execI2cCmd k v s low) := by
  simp [execI2cCmd, State.i2cStart_quiet_low]

theorem execPcieLinkUp_quiet_lanes (speed width : Fin 4) (s : State) (reversed : Bool) (inv : BitVec 8) :
    Quiets s.quiet (execPcieLinkUp speed width s reversed inv) := by
  simp [execPcieLinkUp]

theorem execBusMasterEnable_quiet_cfg (on : Bool) (s : State) (cfg : CfgAccess) : Quiets s.quiet (execBusMasterEnable on s cfg) := by
  cases cfg <;> simp [execBusMasterEnable]

/-! ## Every command -/

/-- A command outside `mayStore` leaves the queue, the fuses and the settings memory alone. -/
theorem exec_quiet (c : Instr) (s : State) (h : mayStore c = false) : Quiets s.quiet (exec c s) := by
  cases c with
  | vinStop _ => exact execVinStop_quiet _ _
  | undervoltage _ => exact execUndervoltage_quiet _ _
  | overvoltage _ => exact execOvervoltage_quiet _ _
  | inputHardLimit _ => exact execInputHardLimit_quiet _ _
  | railOutOfWindow _ _ => exact execRailOutOfWindow_quiet _ _ _
  | vcorePhaseCheck _ => exact execVcorePhaseCheck_quiet _ _
  | temperatureRead _ => exact execTemperatureRead_quiet _ _
  | supervisorFailover => exact execSupervisorFailover_quiet _
  | lastSupervisorFail => exact execLastSupervisorFail_quiet _
  | holdStageTokenMove _ _ _ _ _ => exact execHoldStageTokenMove_quiet _ _ _ _ _ _
  | mutexGrant _ _ _ _ _ => exact execMutexGrant_quiet _ _ _ _ _ _
  | function _ _ _ _ => exact execFunction_quiet _ _ _ _ _
  | function5 _ _ _ _ => exact execFunction5_quiet _ _ _ _ _
  | fork _ _ _ _ => exact execFork_quiet _ _ _ _ _
  | join _ _ _ _ => exact execJoin_quiet _ _ _ _ _
  | split _ _ _ _ => exact execSplit_quiet _ _ _ _ _
  | selectMerge _ _ _ _ => exact execSelectMerge_quiet _ _ _ _ _
  | arbMerge _ _ _ _ => exact execArbMerge_quiet _ _ _ _ _
  | source _ _ _ _ => exact execSource_quiet _ _ _ _ _
  | sink _ _ _ _ _ => exact execSink_quiet _ _ _ _ _ _
  | const _ _ _ _ => exact execConst_quiet _ _ _ _ _
  | mux _ _ _ _ => exact execMux_quiet _ _ _ _ _
  | isoAbsorb _ _ _ => exact execIsoAbsorb_quiet _ _ _ _
  | isoDefaultSupply _ _ _ => exact execIsoDefaultSupply_quiet _ _ _ _
  | ltContention _ _ _ _ _ => exact execLtContention_quiet _ _ _ _ _ _
  | regionFreezeSet _ => exact execRegionFreezeSet_quiet _ _
  | regionFreezeSettled _ => exact execRegionFreezeSettled_quiet _ _
  | regionFreezeClear _ => exact execRegionFreezeClear_quiet _ _
  | watchdogEnable _ _ _ => exact execWatchdogEnable_quiet _ _ _ _
  | watchdogStall _ _ => exact execWatchdogStall_quiet _ _ _
  | sprocketMac _ _ _ => exact execSprocketMac_quiet _ _ _ _
  | sprocketCalibrate _ _ _ _ => exact execSprocketCalibrate_quiet _ _ _ _ _
  | firnRead _ _ _ _ _ => exact execFirnRead_quiet _ _ _ _ _ _
  | firnWrite _ _ _ _ _ => exact execFirnWrite_quiet _ _ _ _ _ _
  | firnScrubRow _ _ _ _ _ => exact execFirnScrubRow_quiet _ _ _ _ _ _
  | xqPushClocked _ _ _ => exact execXqPushClocked_quiet _ _ _ _
  | xqPushFabric _ => exact execXqPushFabric_quiet _ _
  | xqWordOffer _ _ => exact execXqWordOffer_quiet _ _ _
  | xqPopFabric _ => exact execXqPopFabric_quiet _ _
  | xqPopClocked _ _ => exact execXqPopClocked_quiet _ _ _
  | xqFlush _ => exact execXqFlush_quiet _ _
  | xqFlushDone _ => exact execXqFlushDone_quiet _ _
  | xqPause _ => exact execXqPause_quiet _ _
  | xqPauseSettled _ => exact execXqPauseSettled_quiet _ _
  | xqUnpause _ => exact execXqUnpause_quiet _ _
  | xqClrCnt _ => exact execXqClrCnt_quiet _ _
  | xqSideReset _ _ => exact execXqSideReset_quiet _ _ _
  | xqSideResetEnd _ => exact execXqSideResetEnd_quiet _ _
  | regionEvxFire _ _ => exact execRegionEvxFire_quiet _ _ _
  | eventInRoundTrip _ _ => exact execEventInRoundTrip_quiet _ _ _
  | eventInAck _ _ => exact execEventInAck_quiet _ _ _
  | eventOutToken _ _ => exact execEventOutToken_quiet _ _ _
  | eventOutRoundTrip _ _ => exact execEventOutRoundTrip_quiet _ _ _
  | valueCrossingTransfer _ _ => exact execValueCrossingTransfer_quiet _ _ _
  | clockStopped _ => exact execClockStopped_quiet _ _
  | accessHang _ => exact execAccessHang_quiet _ _
  | trackUpdate => exact execTrackUpdate_quiet _
  | coastLimit _ => exact execCoastLimit_quiet _ _
  | acquireComplete _ => exact execAcquireComplete_quiet _ _
  | pllLockLost => exact execPllLockLost_quiet _
  | pllLocked => exact execPllLocked_quiet _
  | quadEdge _ _ _ _ => exact execQuadEdge_quiet _ _ _ _ _
  | pulseEdge _ _ => exact execPulseEdge_quiet _ _ _
  | indexEdge _ => exact execIndexEdge_quiet _ _
  | analogMeasurement _ _ _ _ _ => exact execAnalogMeasurement_quiet _ _ _ _ _ _
  | mainsSingleSample _ _ _ => exact execMainsSingleSample_quiet _ _ _ _
  | analogSourceTrigger _ => exact execAnalogSourceTrigger_quiet _ _
  | sourceLost _ => exact execSourceLost_quiet _ _
  | sourceReturn _ => exact execSourceReturn_quiet _ _
  | sourceEnable _ _ => exact execSourceEnable_quiet _ _ _
  | sourceDisable _ => exact execSourceDisable_quiet _ _
  | trackEnable _ _ => exact execTrackEnable_quiet _ _ _
  | trackDisable _ => exact execTrackDisable_quiet _ _
  | trackHalt _ => exact execTrackHalt_quiet _ _
  | haltAll => exact execHaltAll_quiet _
  | trackRearm _ => exact execTrackRearm_quiet _ _
  | trackAdjust _ _ => exact execTrackAdjust_quiet _ _ _
  | trackSwitchGo _ _ => exact execTrackSwitchGo_quiet _ _ _
  | switchAcquired _ => exact execSwitchAcquired_quiet _ _
  | switchAbort _ => exact execSwitchAbort_quiet _ _
  | slewComplete _ => exact execSlewComplete_quiet _ _
  | spokeEreq _ _ => exact execSpokeEreq_quiet _ _ _
  | spkPushHi _ _ _ => exact execSpkPushHi_quiet _ _ _ _
  | edge _ _ => exact execEdge_quiet _ _ _
  | tick _ _ => exact execTick_quiet _ _ _
  | trig _ _ => exact execTrig_quiet _ _ _
  | nop _ _ => exact execNop_quiet _ _ _
  | tickDeliver _ _ => exact execTickDeliver_quiet _ _ _
  | doneCompletion _ _ _ => exact execDoneCompletion_quiet _ _ _ _
  | deadlineMiss _ _ _ => exact execDeadlineMiss_quiet _ _ _ _
  | slackTransfer => exact execSlackTransfer_quiet _
  | captureEdge _ _ _ _ => exact execCaptureEdge_quiet _ _ _ _ _
  | captureRecordTaken _ => exact execCaptureRecordTaken_quiet _ _
  | spokeSnap _ => exact execSpokeSnap_quiet _ _
  | spokeFlush _ => exact execSpokeFlush_quiet _ _
  | spokeDisable _ => exact execSpokeDisable_quiet _ _
  | socTrigger _ _ => exact execSocTrigger_quiet _ _ _
  | conversionComplete _ _ => exact execConversionComplete_quiet _ _ _
  | resultTaken _ => exact execResultTaken_quiet _ _
  | derailleurEvaluate => exact execDerailleurEvaluate_quiet _
  | derailleurWindowEnd => exact execDerailleurWindowEnd_quiet _
  | vcoreSlewStep => exact execVcoreSlewStep_quiet _
  | capCeilingStep _ _ => exact execCapCeilingStep_quiet _ _ _
  | thermalCeilingStep => exact execThermalCeilingStep_quiet _
  | capUnmet => exact execCapUnmet_quiet _
  | fullLoadStart => exact execFullLoadStart_quiet _
  | regionIsolateStep _ => exact execRegionIsolateStep_quiet _ _
  | secRevokeFirst => exact execSecRevokeFirst_quiet _
  | revokePairTimeout => exact execRevokePairTimeout_quiet _
  | laneSignalDetect _ => exact execLaneSignalDetect_quiet _ _
  | laneCdrLock _ => exact execLaneCdrLock_quiet _ _
  | trainingFrameReceived _ _ _ _ => exact execTrainingFrameReceived_quiet _ _ _ _ _
  | trainRequestTimeout _ => exact execTrainRequestTimeout_quiet _ _
  | laneTrainComplete _ => exact execLaneTrainComplete_quiet _ _
  | laneAlignLock _ => exact execLaneAlignLock_quiet _ _
  | laneDeskewDone _ _ => exact execLaneDeskewDone_quiet _ _ _
  | laneStateTimeout _ => exact execLaneStateTimeout_quiet _ _
  | laneRetry _ => exact execLaneRetry_quiet _ _
  | groupPllLock _ => exact execGroupPllLock_quiet _ _
  | groupPllLost _ => exact execGroupPllLost_quiet _ _
  | fillerReceived _ _ => exact execFillerReceived_quiet _ _ _
  | laneRxWord _ _ _ => exact execLaneRxWord_quiet _ _ _ _
  | laneFailure _ _ => exact execLaneFailure_quiet _ _ _
  | substitutionSwitch _ => exact execSubstitutionSwitch_quiet _ _
  | substitutionTimeout _ => exact execSubstitutionTimeout_quiet _ _
  | pcieLaneFailover _ => exact execPcieLaneFailover_quiet _ _
  | laneRestart _ => exact execLaneRestart_quiet _ _
  | groupRestart _ => exact execGroupRestart_quiet _ _
  | laneSlip _ => exact execLaneSlip_quiet _ _
  | laneAligned _ => exact execLaneAligned_quiet _ _
  | laneSubstitute _ => exact execLaneSubstitute_quiet _ _
  | lanePowerRequest _ _ => exact execLanePowerRequest_quiet _ _ _
  | powerNoticeReceived _ _ => exact execPowerNoticeReceived_quiet _ _ _
  | adaptWindow _ _ _ => exact execAdaptWindow_quiet _ _ _ _
  | eyeScanStart _ _ => exact execEyeScanStart_quiet_margin _ _ _
  | eyeScanDone _ _ => exact execEyeScanDone_quiet _ _ _
  | eyeMonitor _ _ _ => exact execEyeMonitor_quiet _ _ _ _
  | portEnable _ => exact execPortEnable_quiet _ _
  | initReceived _ _ => exact execInitReceived_quiet _ _ _
  | heartbeatSend _ => exact execHeartbeatSend_quiet _ _
  | heartbeatReceived _ _ => exact execHeartbeatReceived_quiet _ _ _
  | hopFault _ => exact execHopFault_quiet _ _
  | stripe _ _ => exact execStripe_quiet _ _ _
  | frameHdr _ _ => exact execFrameHdr_quiet _ _ _
  | frameTrailer _ _ _ _ _ => exact execFrameTrailer_quiet _ _ _ _ _ _
  | pelotonItemSend _ => exact execPelotonItemSend_quiet _ _
  | credit _ _ => exact execCredit_quiet _ _ _
  | creditReturn _ => exact execCreditReturn_quiet _ _
  | delayMeasure _ => exact execDelayMeasure_quiet _ _
  | delayReq _ _ _ => exact execDelayReq_quiet _ _ _ _
  | delayResp _ _ _ _ => exact execDelayResp_quiet _ _ _ _ _
  | pelLedger _ => exact execPelLedger_quiet _ _
  | ledgerMark _ => exact execLedgerMark_quiet _ _
  | ledgerAns _ _ => exact execLedgerAns_quiet _ _ _
  | ledgerTimeout _ => exact execLedgerTimeout_quiet _ _
  | pelFlush _ => exact execPelFlush_quiet _ _
  | phaseSend => exact execPhaseSend_quiet _
  | phaseReceived _ _ _ _ _ _ _ => exact execPhaseReceived_quiet _ _ _ _ _ _ _ _
  | pelEnum => exact execPelEnum_quiet _
  | enumTriggerDelay => exact execEnumTriggerDelay_quiet _
  | enum _ => exact execEnum_quiet_second _ _
  | enumReply => exact execEnumReply_quiet _
  | enumDone => exact execEnumDone_quiet _
  | completion => exact execCompletion_quiet _
  | mgmtEvent => exact execMgmtEvent_quiet _
  | handback => exact execHandback_quiet _
  | pelHandbackWrite => exact execPelHandbackWrite_quiet _
  | leadListenEnd => exact execLeadListenEnd_quiet _
  | leadLost => exact execLeadLost_quiet _
  | doorbell _ _ _ => exact execDoorbell_quiet_read _ _ _ _
  | descriptorFetched _ _ => exact execDescriptorFetched_quiet _ _ _
  | staleRecheck _ _ => exact execStaleRecheck_quiet _ _ _
  | h2fDataRead _ _ => exact execH2fDataRead_quiet _ _ _
  | f2hWordPop _ => exact execF2hWordPop_quiet _ _
  | dmaError _ _ => exact execDmaError_quiet _ _ _
  | irqCoalesceTimeout _ => exact execIrqCoalesceTimeout_quiet _ _
  | ringEnable _ _ => exact execRingEnable_quiet _ _ _
  | ringDisable _ => exact execRingDisable_quiet _ _
  | adminFetch _ => exact execAdminFetch_quiet _ _
  | query => exact execQuery_quiet _
  | loadFull _ => exact execLoadFull_quiet _ _
  | loadPartial _ => exact execLoadPartial_quiet _ _
  | activateRegion => exact execActivateRegion_quiet _
  | isolateRegion => exact execIsolateRegion_quiet _
  | cadTableWrite _ => exact execCadTableWrite_quiet _ _
  | cadSourceSwitch => exact execCadSourceSwitch_quiet _
  | bistRun _ => exact execBistRun_quiet _ _
  | bistReport => exact execBistReport_quiet _
  | scrubReport => exact execScrubReport_quiet _
  | spareMap => exact execSpareMap_quiet _
  | modeRequestHold => exact execModeRequestHold_quiet _
  | attest _ => exact execAttest_quiet _ _
  | nopCommand => exact execNopCommand_quiet _
  | adminCommandDone => exact execAdminCommandDone_quiet _
  | mailboxGo _ => exact execMailboxGo_quiet _ _
  | functionLevelReset => exact execFunctionLevelReset_quiet _
  | linkDown => exact execLinkDown_quiet _
  | groomerFrameCheck _ _ _ _ _ _ _ _ => exact execGroomerFrameCheck_quiet_held _ _ _ _ _ _ _ _ _
  | mbuRepairDone _ => exact execMbuRepairDone_quiet _ _
  | scrubOverrun _ => exact execScrubOverrun_quiet _ _
  | columnTestStart => exact execColumnTestStart_quiet _
  | columnTestDone _ => exact execColumnTestDone_quiet _ _
  | columnDiagnosisDone _ _ _ => exact execColumnDiagnosisDone_quiet _ _ _ _
  | migrationCopyDone => exact execMigrationCopyDone_quiet _
  | migration => exact execMigration_quiet _
  | windowWaitExpiry _ => exact execWindowWaitExpiry_quiet _ _
  | moraineSubstitution => exact execMoraineSubstitution_quiet _
  | unitRetire _ => exact execUnitRetire_quiet _ _
  | lockstepArm _ _ => exact execLockstepArm_quiet _ _ _
  | lockstepCompare _ _ => exact execLockstepCompare_quiet _ _ _
  | lockstepShortGroup _ _ => exact execLockstepShortGroup_quiet _ _ _
  | lockstepLag _ _ _ => exact execLockstepLag_quiet _ _ _ _
  | pinClaimEvaluate => exact execPinClaimEvaluate_quiet _
  | pinFunctionSwitch _ => exact execPinFunctionSwitch_quiet _ _
  | pinSet _ _ => exact execPinSet_quiet _ _ _
  | pinClr _ _ => exact execPinClr_quiet _ _ _
  | pinLockFirst _ => exact execPinLockFirst_quiet _ _
  | pinLockSecond _ _ => exact execPinLockSecond_quiet _ _ _
  | pinLockTimeout => exact execPinLockTimeout_quiet _
  | pinIrqEdge _ _ => exact execPinIrqEdge_quiet _ _ _
  | shortDetect _ _ _ => exact execShortDetect_quiet _ _ _ _
  | openWireTest _ => exact execOpenWireTest_quiet _ _
  | bankSupplyChange _ _ => exact execBankSupplyChange_quiet _ _ _
  | uartTx _ _ => exact execUartTx_quiet _ _ _
  | uartByteReceived _ _ _ _ _ => exact execUartByteReceived_quiet _ _ _ _ _ _
  | uartRx _ => exact execUartRx_quiet _ _
  | spiTx _ _ => exact execSpiTx_quiet _ _ _
  | spiWordDone _ _ => exact execSpiWordDone_quiet _ _ _
  | spiRx _ => exact execSpiRx_quiet _ _
  | i2cCmd _ _ _ => exact execI2cCmd_quiet_low _ _ _ _
  | i2cTransactionEnd _ _ _ _ _ => exact execI2cTransactionEnd_quiet _ _ _ _ _ _
  | i2cRx _ => exact execI2cRx_quiet _ _
  | ssiTrig _ => exact execSsiTrig_quiet _ _
  | ssiPeriod _ => exact execSsiPeriod_quiet _ _
  | ssiReadDone _ _ _ _ => exact execSsiReadDone_quiet _ _ _ _ _
  | barBadAccess b off => exact execBarBadAccess_quiet b off s
  | frameReadback _ _ _ _ => exact execFrameReadback_quiet _ _ _ _ _
  | tapInternalTest => exact execTapInternalTest_quiet _
  | consolePinDetect _ => exact execConsolePinDetect_quiet _ _
  | consoleBreak => exact execConsoleBreak_quiet _
  | baudRevert => exact execBaudRevert_quiet _
  | consoleStopOutput => exact execConsoleStopOutput_quiet _
  | confirmTimeout => exact execConfirmTimeout_quiet _
  | meterUpdate _ => exact execMeterUpdate_quiet _ _
  | inputLimit _ => exact execInputLimit_quiet _ _
  | initBlockSend _ => exact execInitBlockSend_quiet _ _
  | pcieLinkUp _ _ _ _ => exact execPcieLinkUp_quiet_lanes _ _ _ _ _
  | busMasterEnable _ _ => exact execBusMasterEnable_quiet_cfg _ _ _
  | uartByteSent _ => exact execUartByteSent_quiet _ _
  | fieldTestEnd => exact execFieldTestEnd_quiet _
  | _ => cases h

/-- Every command keeps what lasts. -/
theorem exec_lasts (c : Instr) (s : State) : Keeps s.quiet (exec c s) := by
  cases h : mayStore c with
  | false => exact (exec_quiet c s h).keeps
  | true =>
    cases c with
    | vinStart _ => exact execVinStart_lasts _ _
    | autoRestart _ => exact execAutoRestart_lasts _ _
    | clockReturned _ => exact execClockReturned_lasts _ _
    | startupSelftestDone _ _ => exact execStartupSelftestDone_lasts _ _ _
    | manifestVerified _ => exact execManifestVerified_lasts _ _
    | chunkReceived _ => exact execChunkReceived_lasts _ _
    | lockPhaseComplete => exact execLockPhaseComplete_lasts _
    | lockTimeout => exact execLockTimeout_lasts _
    | phaseWaitExpiry => exact execPhaseWaitExpiry_lasts _
    | regionPhaseAdvance _ _ => exact execRegionPhaseAdvance_lasts _ _ _
    | secRevokeSecond _ => exact execSecRevokeSecond_lasts _ _
    | mgmtRead => exact execMgmtRead_lasts _
    | mgmtWrite => exact execMgmtWrite_lasts _
    | spareMapReset _ => exact execSpareMapReset_lasts _ _
    | settingsWrite _ _ => exact execSettingsWrite_lasts _ _ _
    | modeRequestRestart => exact execModeRequestRestart_lasts _
    | repairMapWrite _ => exact execRepairMapWrite_lasts _ _
    | ssiPosRead _ _ => exact execSsiPosRead_lasts _ _ _
    | trackAngleRead _ _ => exact execTrackAngleRead_lasts _ _ _
    | loReadCapture _ _ => exact execLoReadCapture_lasts _ _ _
    | counterClear _ _ => exact execCounterClear_lasts _ _ _
    | registerWrite _ _ _ => exact execRegisterWrite_lasts _ _ _ _
    | consoleLine _ _ => exact execConsoleLine_lasts _ _ _
    | help _ => exact execHelp_lasts _ _
    | status _ => exact execStatus_lasts _ _
    | log _ _ => exact execLog_lasts _ _ _
    | spare _ => exact execSpare_lasts _ _
    | report _ _ => exact execReport_lasts _ _ _
    | lane _ _ _ => exact execLane_lasts _ _ _ _
    | pin _ _ => exact execPin_lasts _ _ _
    | meter _ _ _ => exact execMeter_lasts _ _ _ _
    | rd _ _ => exact execRd_lasts _ _ _
    | wr _ _ _ => exact execWr_lasts _ _ _ _
    | admin _ _ _ _ _ _ => exact execAdmin_lasts _ _ _ _ _ _ _
    | consoleLoad _ _ => exact execConsoleLoad_lasts _ _ _
    | consoleLoadPartial _ _ _ _ => exact execConsoleLoadPartial_lasts _ _ _ _ _
    | consoleIsolateRegion _ _ => exact execConsoleIsolateRegion_lasts _ _ _
    | consoleActivateRegion _ _ => exact execConsoleActivateRegion_lasts _ _ _
    | hold _ => exact execHold_lasts _ _
    | restart _ => exact execRestart_lasts _ _
    | consoleAttest _ _ => exact execConsoleAttest_lasts _ _ _
    | fuseHash _ _ => exact execFuseHash_lasts _ _ _
    | fuseKey _ _ => exact execFuseKey_lasts _ _ _
    | fuseEnc _ _ => exact execFuseEnc_lasts _ _ _
    | fuseRevoke _ _ => exact execFuseRevoke_lasts _ _ _
    | fuseClose _ _ => exact execFuseClose_lasts _ _ _
    | confirm _ _ _ => exact execConfirm_lasts _ _ _ _
    | baud _ _ => exact execBaud_lasts _ _ _
    | echo _ _ => exact execEcho_lasts _ _ _
    | evt _ _ => exact execEvt_lasts _ _ _
    | testSup _ => exact execTestSup_lasts _ _
    | testFuse _ => exact execTestFuse_lasts _ _
    | testSm _ => exact execTestSm_lasts _ _
    | testImage _ _ => exact execTestImage_lasts _ _ _
    | testPll _ => exact execTestPll_lasts _ _
    | testScrub _ => exact execTestScrub_lasts _ _
    | testBist _ => exact execTestBist_lasts _ _
    | testHard _ _ _ => exact execTestHard_lasts _ _ _ _
    | testLs _ _ => exact execTestLs_lasts _ _ _
    | testSrc _ _ => exact execTestSrc_lasts _ _ _
    | testOwt _ _ _ => exact execTestOwt_lasts _ _ _ _
    | testPad _ _ => exact execTestPad_lasts _ _ _
    | testLane _ _ => exact execTestLane_lasts _ _ _
    | testPcie _ => exact execTestPcie_lasts _ _
    | testPel _ _ => exact execTestPel_lasts _ _ _
    | testSpare _ => exact execTestSpare_lasts _ _
    | _ => cases h

/-- Every step keeps what lasts, with the command at the front taken from the queue. -/
theorem step_lasts {s t : State} (h : step s = .next t) : Lasts { s.quiet with pending := s.pending.tail } t.quiet := by
  unfold step at h
  split at h
  · next hnil =>
    cases h
    rw [State.idle_quiet, State.quiet, hnil]
    exact Lasts.refl _
  · next c cs hcons =>
    have hlasts := exec_lasts c { s with pending := cs } t h
    rw [hcons]
    exact hlasts

/-- Settles O58: what every step keeps, taken apart. -/
theorem everyStepKeepsFusesKeysAndTheMemoryForm : Obligations.EveryStepKeepsFusesKeysAndTheMemoryForm := by
  unfold Obligations.EveryStepKeepsFusesKeysAndTheMemoryForm
  intro s t h
  obtain ⟨hpending, hsize, hgrows, husable, hwf⟩ := step_lasts h
  exact ⟨hpending, hsize, hgrows, husable, hwf⟩

/-- Settles O60: a command outside `mayStore` is quiet. -/
theorem mostCommandsLeaveFusesAndSettingsMemoryAlone : Obligations.MostCommandsLeaveFusesAndSettingsMemoryAlone := by
  unfold Obligations.MostCommandsLeaveFusesAndSettingsMemoryAlone
  intro c s t hstore hexec
  have hquiet : t.quiet = s.quiet := exec_quiet c s hstore t hexec
  exact ⟨congrArg Quiet.fuses hquiet, congrArg Quiet.pending hquiet, congrArg Quiet.norSize hquiet,
    fun a => congrArg (fun q => SMap.get _ q.nor a) hquiet⟩

end Sys2Proof.Machine
end

section
/-! SUPPORT. That every command answers a next state, what a step is on an empty queue, and the state after reset. -/

namespace Sys2Proof.Machine

/-- The outcome is a next state. -/
def Goes (o : Out) : Prop := ∃ t, o = .next t

theorem goes_next (s : State) : Goes (.next s) := ⟨s, rfl⟩

theorem State.runAccepted_goes (s : State) (p : AdminDesc → Bool) (f : AdminCmd → State → State) (bad : Bool) :
    Goes (s.runAccepted p f bad) := by
  unfold State.runAccepted
  (repeat' split) <;> exact goes_next _

/-- Every command answers a next state: each branch of its meaning ends in one. -/
theorem exec_goes (c : Instr) (s : State) : Goes (exec c s) := by
  cases c
  case vinStart | undervoltage | autoRestart | overvoltage | inputHardLimit | railOutOfWindow | vcorePhaseCheck | temperatureRead |
      supervisorFailover | lastSupervisorFail | mutexGrant | ltContention | watchdogStall | sprocketMac | sprocketCalibrate | firnScrubRow |
      xqPushClocked | xqPushFabric | xqWordOffer | xqPopFabric | xqPopClocked | xqFlushDone | xqPauseSettled | xqSideReset |
      eventInRoundTrip =>
    dsimp only [exec, execVinStart, execUndervoltage, execAutoRestart, execOvervoltage, execInputHardLimit, execRailOutOfWindow, execVcorePhaseCheck,
      execTemperatureRead, execSupervisorFailover, execLastSupervisorFail, execMutexGrant, execLtContention, execWatchdogStall,
      execSprocketMac, execSprocketCalibrate, execFirnScrubRow, execXqPushClocked, execXqPushFabric, execXqWordOffer, execXqPopFabric,
      execXqPopClocked, execXqFlushDone, execXqPauseSettled, execXqSideReset, execEventInRoundTrip]
    (repeat' split) <;> exact goes_next _
  case eventInAck | eventOutToken | eventOutRoundTrip | valueCrossingTransfer | clockStopped | clockReturned | accessHang | quadEdge |
      indexEdge | analogMeasurement | mainsSingleSample | analogSourceTrigger | sourceLost | sourceReturn | slewComplete | spokeEreq |
      tickDeliver | doneCompletion | deadlineMiss | slackTransfer | captureEdge | captureRecordTaken | socTrigger | conversionComplete |
      resultTaken =>
    dsimp only [exec, execEventInAck, execEventOutToken, execEventOutRoundTrip, execValueCrossingTransfer, execClockStopped, execClockReturned,
      execAccessHang, execQuadEdge, execIndexEdge, execAnalogMeasurement, execMainsSingleSample, execAnalogSourceTrigger, execSourceLost,
      execSourceReturn, execSlewComplete, execSpokeEreq, execTickDeliver, execDoneCompletion, execDeadlineMiss, execSlackTransfer,
      execCaptureEdge, execCaptureRecordTaken, execSocTrigger, execConversionComplete, execResultTaken]
    (repeat' split) <;> exact goes_next _
  case derailleurEvaluate | derailleurWindowEnd | vcoreSlewStep | capUnmet | fullLoadStart | startupSelftestDone | manifestVerified |
      chunkReceived | lockPhaseComplete | lockTimeout | phaseWaitExpiry | regionIsolateStep | regionPhaseAdvance | laneSignalDetect |
      laneCdrLock | trainingFrameReceived | trainRequestTimeout | laneTrainComplete | laneAlignLock | laneDeskewDone | laneStateTimeout |
      laneRetry | groupPllLock | groupPllLost | fillerReceived =>
    dsimp only [exec, execDerailleurEvaluate, execDerailleurWindowEnd, execVcoreSlewStep, execCapUnmet, execFullLoadStart, execStartupSelftestDone,
      execManifestVerified, execChunkReceived, execLockPhaseComplete, execLockTimeout, execPhaseWaitExpiry, execRegionIsolateStep,
      execRegionPhaseAdvance, execLaneSignalDetect, execLaneCdrLock, execTrainingFrameReceived, execTrainRequestTimeout,
      execLaneTrainComplete, execLaneAlignLock, execLaneDeskewDone, execLaneStateTimeout, execLaneRetry, execGroupPllLock, execGroupPllLost,
      execFillerReceived]
    (repeat' split) <;> exact goes_next _
  case laneRxWord | laneFailure | substitutionSwitch | substitutionTimeout | pcieLaneFailover | laneRestart | powerNoticeReceived |
      adaptWindow | eyeScanDone | eyeMonitor | initReceived | heartbeatSend | heartbeatReceived | hopFault | stripe | frameHdr |
      frameTrailer | pelotonItemSend | credit | creditReturn | delayMeasure | delayReq | delayResp | ledgerMark | ledgerAns =>
    dsimp only [exec, execLaneRxWord, execLaneFailure, execSubstitutionSwitch, execSubstitutionTimeout, execPcieLaneFailover, execLaneRestart,
      execPowerNoticeReceived, execAdaptWindow, execEyeScanDone, execEyeMonitor, execInitReceived, execHeartbeatSend, execHeartbeatReceived,
      execHopFault, execStripe, execFrameHdr, execFrameTrailer, execPelotonItemSend, execCredit, execCreditReturn, execDelayMeasure,
      execDelayReq, execDelayResp, execLedgerMark, execLedgerAns]
    (repeat' split) <;> exact goes_next _
  case ledgerTimeout | phaseSend | phaseReceived | enumTriggerDelay | enum | enumReply | enumDone | mgmtRead | mgmtWrite | completion |
      mgmtEvent | handback | leadListenEnd | leadLost | doorbell | descriptorFetched | staleRecheck | dmaError | irqCoalesceTimeout |
      adminFetch | adminCommandDone | linkDown | groomerFrameCheck | mbuRepairDone | scrubOverrun =>
    dsimp only [exec, execLedgerTimeout, execPhaseSend, execPhaseReceived, execEnumTriggerDelay, execEnum, execEnumReply, execEnumDone, execMgmtRead,
      execMgmtWrite, execCompletion, execMgmtEvent, execHandback, execLeadListenEnd, execLeadLost, execDoorbell, execDescriptorFetched,
      execStaleRecheck, execDmaError, execIrqCoalesceTimeout, execAdminFetch, execAdminCommandDone, execLinkDown, execGroomerFrameCheck,
      execMbuRepairDone, execScrubOverrun]
    (repeat' split) <;> exact goes_next _
  case columnTestStart | columnTestDone | columnDiagnosisDone | migrationCopyDone | migration | moraineSubstitution | unitRetire |
      repairMapWrite | lockstepLag | pinFunctionSwitch | pinIrqEdge | shortDetect | uartByteReceived | spiWordDone | i2cTransactionEnd |
      ssiReadDone | counterClear | frameReadback | meterUpdate | inputLimit | initBlockSend | pcieLinkUp | busMasterEnable | uartByteSent |
      fieldTestEnd =>
    dsimp only [exec, execColumnTestStart, execColumnTestDone, execColumnDiagnosisDone, execMigrationCopyDone, execMigration, execMoraineSubstitution,
      execUnitRetire, execRepairMapWrite, execLockstepLag, execPinFunctionSwitch, execPinIrqEdge, execShortDetect, execUartByteReceived,
      execSpiWordDone, execI2cTransactionEnd, execSsiReadDone, execCounterClear, execFrameReadback, execMeterUpdate, execInputLimit,
      execInitBlockSend, execPcieLinkUp, execBusMasterEnable, execUartByteSent, execFieldTestEnd]
    (repeat' split) <;> exact goes_next _
  case query | loadFull | loadPartial | activateRegion | isolateRegion | cadTableWrite | cadSourceSwitch | bistRun | bistReport |
      scrubReport | spareMap | spareMapReset | settingsWrite | modeRequestHold | modeRequestRestart | attest | nopCommand => exact State.runAccepted_goes _ _ _ _
  all_goals exact goes_next _

/-- Settles O59 (the totality of log entry 3): the passing of a microsecond and every command answer a next state. -/
theorem noStepStops : Obligations.NoStepStops := by
  unfold Obligations.NoStepStops
  intro s
  unfold step
  split
  · exact goes_next s.idle
  · next c cs _ => exact exec_goes c { s with pending := cs }

/-! ## The passing of a microsecond -/

theorem State.time_setTime (s : State) (t : Nat) : (s.setTime t).time = t % 2 ^ 64 := by
  have hne : R.SUP_TIME_LO ≠ R.SUP_TIME_HI := by decide
  simp only [State.setTime, State.time, State.rd_wr_same, State.rd_wr_ne _ _ _ _ hne, BitVec.toNat_ofNat]
  omega

theorem State.setTime_regsKeptBut (s : State) (t : Nat) :
    s.regsKeptBut (s.setTime t) (fun off => off = R.SUP_TIME_LO ∨ off = R.SUP_TIME_HI) := by
  intro off hoff
  obtain ⟨hlo, hhi⟩ := not_or.mp hoff
  rw [State.setTime, State.rd_wr_ne _ _ _ _ hhi, State.rd_wr_ne _ _ _ _ hlo]

theorem State.idle_cold {s : State} (h : s.mode = .cold) : s.idle = s := if_pos h

theorem State.idle_warm {s : State} (h : s.mode ≠ .cold) : s.idle = s.setTime (s.time + 1) := if_neg h

theorem State.idle_keeps (s : State) : s.idle.pending = s.pending ∧ s.idle.mode = s.mode := by
  unfold State.idle
  split <;> exact ⟨rfl, rfl⟩

/-- Settles O56: `step` by the queue, and SUP_TIME as the only thing that idling moves. -/
theorem aStepRunsTheFrontCommand : Obligations.AStepRunsTheFrontCommand := by
  unfold Obligations.AStepRunsTheFrontCommand
  refine ⟨fun c s => rfl, fun c cs s h => ?_, fun s h => ?_⟩
  · simp only [step, h]
  · have hstep : step s = .next s.idle := by simp only [step, h]
    obtain ⟨hpending, hmode⟩ := s.idle_keeps
    refine ⟨s.idle, hstep, hpending.trans h, hmode, State.idle_cold, fun hwarm => ?_⟩
    rw [State.idle_warm hwarm]
    exact ⟨s.time_setTime _, s.setTime_regsKeptBut _, rfl⟩

/-! ## Reset -/

theorem State.reset_rd (off : Nat) : State.reset.rd off = regReset off := rfl

theorem regReset_of_no_register {off : Nat} (h : regRow? off = none) : regReset off = 0 := by
  simp [regReset, h]

/-- Settles O57: the reset state lists no register, no blown fuse and no byte of the settings memory. -/
theorem resetLeavesTheColdModule : Obligations.ResetLeavesTheColdModule := by
  unfold Obligations.ResetLeavesTheColdModule
  refine ⟨rfl, rfl, rfl, rfl, State.reset_rd, fun off h => ?_, rfl, rfl, rfl, rfl, rfl, Or.inl ⟨rfl, rfl⟩, State.reset_norWf⟩
  exact (State.reset_rd off).trans (regReset_of_no_register h)

end Sys2Proof.Machine
end

section
/-! SUPPORT. R40, R58, R70 to R79: one equation for the step of a cell whose inputs fire, and what the inputs of each mode make (Table 03.1). -/

namespace Sys2Proof.Machine

/-! ## A capture with one data wire high -/

theorem violated_zero {v : Nat} (hv : v < 4) : violated v 0 = v := by
  refine lowestBit_eq hv ?_ fun j hj => ?_
  · simp
  · have hne : v ≠ j := by omega
    simpa using Nat.testBit_two_pow_of_ne hne

@[simp] theorem State.codeError_zero (s : State) (n v : Nat) : s.codeError n v 0 = s := by
  simp [State.codeError]

/-! ## The step of a cell -/

/-- A cell that may take and whose inputs fire holds what they make and acknowledges them (R40, R70). -/
theorem State.cellStep_eq {s : State} {t : Tile} {i : Nat} {m : CellMode} {g : Fire} (hready : s.cellReady t i m)
    (hfire : s.fireNow t i = some g) (hroom : s.roomAhead (.cell t i) g.branch = true) (hval : g.val < 4) (hm : m ≠ .arbMerge) :
    s.cellStep t i m = s.cellGives t i g.val g.chain g.branch g.ports := by
  obtain ⟨hmode, hon, hhold, htok⟩ := hready
  rw [State.cellStep, if_pos hmode, State.cellTake_eq s t i 0 hon hhold htok hfire hroom (hmode ▸ hm), violated_zero hval, State.codeError_zero]

/-- An ARB-MERGE cell releases its grant after the same (R58, R74). -/
theorem State.arbStep_eq {s : State} {t : Tile} {i : Nat} {g : Fire} (hready : s.cellReady t i .arbMerge) (hfire : s.fireNow t i = some g)
    (hroom : s.roomAhead (.cell t i) g.branch = true) (hval : g.val < 4) :
    s.cellStep t i .arbMerge = (s.cellGives t i g.val g.chain g.branch g.ports).release t i := by
  obtain ⟨hmode, hon, hhold, htok⟩ := hready
  have hv : violated g.val (0#4) = g.val := violated_zero hval
  have hc : ∀ (s : State) (n v : Nat), s.codeError n v (0#4) = s := State.codeError_zero
  simp [State.cellStep, State.cellTake, State.cellGives, hmode, hon, hhold, htok, hfire, hroom, hv, hc]

theorem completes_cellStep {ins : Instr} {s : State} {t : Tile} {i : Nat} {m : CellMode} (hexec : exec ins s = .next (s.cellStep t i m)) {g : Fire}
    (hready : s.cellReady t i m) (hm : m ≠ .arbMerge) (hfire : s.fireNow t i = some g)
    (hroom : s.roomAhead (.cell t i) g.branch = true) (hval : g.val < 4) {P : State → Prop} (hP : P (s.cellGives t i g.val g.chain g.branch g.ports)) :
    Completes ins s P :=
  ⟨_, hexec, State.cellStep_eq hready hfire hroom hval hm ▸ hP⟩

/-! ## What the inputs make -/

section
variable {s : State} {t : Tile} {i : Nat} {a b c m : Nat}

theorem State.fireNow_function (hmode : s.cellMode t i = .function) (ha : s.port t i 0 = some a) (hb : s.port t i 1 = some b) :
    s.fireNow t i = some ⟨(s.cellF t i 0 32 / 2 ^ (a + 4 * b)) % 2 + 2 * ((s.cellF t i 0 32 / 2 ^ (16 + a + 4 * b)) % 2), 0, none, [0, 1]⟩ := by
  simp only [State.port] at ha hb
  simp [State.fireNow, State.fire, hmode, ha, hb, Nat.shiftRight_eq_div_pow]

theorem State.fireNow_function5 (hmode : s.cellMode t i = .function5) (ha : s.port t i 0 = some a) (hb : s.port t i 1 = some b)
    (hc : s.port t i 2 = some c) :
    s.fireNow t i = some ⟨(Machine.function5 (s.cellSub t i) (s.cellF t i 0 32) a b (c % 2)).1,
      (Machine.function5 (s.cellSub t i) (s.cellF t i 0 32) a b (c % 2)).2, none, [0, 1, 2]⟩ := by
  simp only [State.port] at ha hb hc
  simp [State.fireNow, State.fire, hmode, ha, hb, hc]

theorem State.fireNow_fork (hmode : s.cellMode t i = .fork) (ha : s.port t i 0 = some a) : s.fireNow t i = some ⟨a, 0, none, [0]⟩ := by
  simp only [State.port] at ha
  simp [State.fireNow, State.fire, hmode, ha]

theorem State.fireNow_join (hmode : s.cellMode t i = .join) (ha : s.port t i 0 = some a) (hb : s.port t i 1 = some b) :
    s.fireNow t i = some ⟨if s.cellSub t i = 1 then b else a, 0, none, [0, 1]⟩ := by
  simp only [State.port] at ha hb
  simp [State.fireNow, State.fire, hmode, ha, hb]

theorem State.fireNow_split (hmode : s.cellMode t i = .split) (ha : s.port t i 0 = some a) (hb : s.port t i 1 = some b) :
    s.fireNow t i = some ⟨a, 0, some (if s.cellSub t i = 1 then b else b % 2), [0, 1]⟩ := by
  simp only [State.port] at ha hb
  simp [State.fireNow, State.fire, hmode, ha, hb]

theorem State.fireNow_selectMerge (hmode : s.cellMode t i = .selectMerge) (hc : s.port t i 2 = some c)
    (hen : s.cellF t i (40 + c % 2) 1 = 1) (ha : s.port t i (c % 2) = some a) : s.fireNow t i = some ⟨a, 0, none, [2, c % 2]⟩ := by
  simp only [State.port] at ha hc
  simp [State.fireNow, State.fire, hmode, ha, hc, hen]

theorem State.fireNow_arbMerge {g : Bool} (hmode : s.cellMode t i = .arbMerge) (hg : (s.node (.cell t i)).grant = some g)
    (ha : s.port t i g.toNat = some a) : s.fireNow t i = some ⟨if s.cellSub t i = 1 then g.toNat else a, 0, none, [g.toNat]⟩ := by
  simp only [State.port] at ha
  cases g <;> simp at ha <;> simp [State.fireNow, State.fire, hmode, hg, ha]

/-- A MUX cell passes the input that its select names, else what its spine brings: of a head and of a single cell nothing, which is 0 (R77, R78). -/
theorem State.fireNow_mux {x : Nat} (hmode : s.cellMode t i = .mux) (ha : s.port t i 0 = some a) (hb : s.port t i 1 = some b)
    (hm : s.port t i 3 = some m)
    (hspine : if s.cellSub t i = 1 ∨ s.cellSub t i = 2 then s.port t i 2 = some x else x = 0) :
    let v := if m = 2 * s.cellF t i 63 5 then a else if m = 2 * s.cellF t i 63 5 + 1 then b else x
    s.fireNow t i = some ⟨v, v, none, if s.cellSub t i = 1 ∨ s.cellSub t i = 2 then [0, 1, 2, 3] else [0, 1, 3]⟩ := by
  simp only [State.port] at ha hb hm hspine
  by_cases hsub : s.cellSub t i = 1 ∨ s.cellSub t i = 2
  · rw [if_pos hsub] at hspine
    simp [State.fireNow, State.fire, hmode, ha, hb, hm, hsub, hspine]
  · rw [if_neg hsub] at hspine
    simp [State.fireNow, State.fire, hmode, ha, hb, hm, hsub, hspine]

end

theorem function5_add (table a b c : Nat) : function5 1 table a b c = ((a + b + c) % 4, (a + b + c) / 4) := rfl

theorem function5_sub (table a b c : Nat) : function5 2 table a b c = ((a + (3 - b) + c) % 4, (a + (3 - b) + c) / 4) := rfl

theorem function5_table {sub : Nat} (h1 : sub ≠ 1) (h2 : sub ≠ 2) (table a b c : Nat) :
    function5 sub table a b c = (table / 2 ^ (a + 4 * b + 16 * c) % 2, table / 2 ^ (a + 4 * b + 16 * c) % 2) := by
  unfold function5
  split
  · exact absurd rfl h1
  · exact absurd rfl h2
  · rw [Nat.shiftRight_eq_div_pow]

/-- A FUNCTION5 cell holds a digit in every sub (R71). -/
theorem function5_lt (sub table a b c : Nat) : (function5 sub table a b c).1 < 4 := by
  unfold function5
  split <;> dsimp only <;> omega

/-! ## The cells of a tile -/

/-- Settles O5: each mode fires by its equation, and a ready cell holds what fires. -/
theorem functionForkAndJoinHoldTheirResult : Obligations.FunctionForkAndJoinHoldTheirResult := by
  unfold Obligations.FunctionForkAndJoinHoldTheirResult
  refine ⟨?_, ?_, ?_⟩
  · intro n c r i a b s hready ha hb hroom
    exact completes_cellStep rfl hready (by decide) (State.fireNow_function hready.1 ha hb) hroom (by dsimp only; omega) rfl
  · intro n c r i a s hready ha hlt hroom
    exact completes_cellStep rfl hready (by decide) (State.fireNow_fork hready.1 ha) hroom hlt rfl
  · intro n c r i a b s hready ha hb hlta hltb hroom
    exact completes_cellStep rfl hready (by decide) (State.fireNow_join hready.1 ha hb) hroom (by dsimp only; split <;> assumption) rfl

/-- A ready FUNCTION5 cell holds what Table 03.2 gives for its sub. -/
theorem completes_function5 {n : Fin 16} {c : Fin 64} {r : Fin 72} {i : Fin 32} {a b d : Nat} {s : State}
    (hready : s.cellReady ⟨n, c, r⟩ i .function5) (ha : s.port ⟨n, c, r⟩ i 0 = some a) (hb : s.port ⟨n, c, r⟩ i 1 = some b)
    (hd : s.port ⟨n, c, r⟩ i 2 = some d) (hroom : s.roomAhead (.cell ⟨n, c, r⟩ i) none = true) {v chain : Nat}
    (hq : function5 (s.cellSub ⟨n, c, r⟩ i) (s.cellF ⟨n, c, r⟩ i 0 32) a b (d % 2) = (v, chain)) :
    Completes (.function5 n c r i) s (fun t => t = s.cellGives ⟨n, c, r⟩ i v chain none [0, 1, 2]) := by
  obtain ⟨rfl, rfl⟩ := Prod.mk.inj hq
  exact completes_cellStep rfl hready (by decide) (State.fireNow_function5 hready.1 ha hb hd) hroom (function5_lt _ _ _ _ _) rfl

theorem completes_mux {n : Fin 16} {c : Fin 64} {r : Fin 72} {i : Fin 32} {a b m x : Nat} {s : State}
    (hready : s.cellReady ⟨n, c, r⟩ i .mux) (ha : s.port ⟨n, c, r⟩ i 0 = some a) (hb : s.port ⟨n, c, r⟩ i 1 = some b)
    (hm : s.port ⟨n, c, r⟩ i 3 = some m) (hlta : a < 4) (hltb : b < 4) (hltx : x < 4)
    (hroom : s.roomAhead (.cell ⟨n, c, r⟩ i) none = true)
    (hspine : if s.cellSub ⟨n, c, r⟩ i = 1 ∨ s.cellSub ⟨n, c, r⟩ i = 2 then s.port ⟨n, c, r⟩ i 2 = some x else x = 0) :
    Completes (.mux n c r i) s (fun t =>
      t = (let v := if m = 2 * s.cellF ⟨n, c, r⟩ i 63 5 then a else if m = 2 * s.cellF ⟨n, c, r⟩ i 63 5 + 1 then b else x
        s.cellGives ⟨n, c, r⟩ i v v none
          (if s.cellSub ⟨n, c, r⟩ i = 1 ∨ s.cellSub ⟨n, c, r⟩ i = 2 then [0, 1, 2, 3] else [0, 1, 3]))) := by
  refine completes_cellStep rfl hready (by decide) (State.fireNow_mux hready.1 ha hb hm hspine) hroom ?_ rfl
  dsimp only
  (repeat' split) <;> assumption

/-- Settles O6: ADD, SUB and the table of FUNCTION5, the select and the spine of MUX. -/
theorem function5AddsAndMuxSelects : Obligations.Function5AddsAndMuxSelects := by
  unfold Obligations.Function5AddsAndMuxSelects
  refine ⟨?_, ?_, ?_, ?_⟩
  · intro n c r i a b d s hready ha hb hd hroom
    refine ⟨fun hsub => ?_, fun hsub => ?_⟩
    · exact completes_function5 hready ha hb hd hroom (by rw [hsub, function5_add])
    · exact completes_function5 hready ha hb hd hroom (by rw [hsub, function5_sub])
  · intro n c r i a b d s hready ha hb hd hroom
    have hf := @completes_function5 n c r i a b d s hready ha hb hd hroom
    by_cases h1 : s.cellSub ⟨n, c, r⟩ i = 1
    · simpa only [h1, if_true] using hf (by rw [h1, function5_add])
    by_cases h2 : s.cellSub ⟨n, c, r⟩ i = 2
    · have hsub := hf (by rw [h2, function5_sub])
      simpa [h2] using hsub
    · simpa only [h1, h2, if_false] using hf (function5_table h1 h2 _ _ _ _)
  · intro n c r i a b m s hready ha hb hm hlta hltb hsub hroom
    have hmux := completes_mux (x := 0) hready ha hb hm hlta hltb (by decide) hroom (by simp [hsub])
    simpa [hsub] using hmux
  · intro n c r i a b m x s hready ha hb hm hlta hltb hltx hroom hspine
    exact completes_mux hready ha hb hm hlta hltb hltx hroom hspine

/-- Settles O7: SPLIT, SELECT-MERGE and ARB-MERGE by what they fire. -/
theorem steeringCellsRouteTokens : Obligations.SteeringCellsRouteTokens := by
  unfold Obligations.SteeringCellsRouteTokens
  refine ⟨?_, ?_, ?_⟩
  · intro n c r i a b s hready ha hb hlta hroom
    exact completes_cellStep rfl hready (by decide) (State.fireNow_split hready.1 ha hb) hroom hlta rfl
  · intro n c r i a d s hready hd hen ha hlta hroom
    exact completes_cellStep rfl hready (by decide) (State.fireNow_selectMerge hready.1 hd hen ha) hroom hlta rfl
  · intro n c r i g a s hready hg ha hlta hroom
    have hbit := g.toNat_lt
    have hval : (if s.cellSub ⟨n, c, r⟩ i = 1 then g.toNat else a) < 4 := by split <;> omega
    have hexec : exec (.arbMerge n c r i) s = .next (s.cellStep ⟨n, c, r⟩ i .arbMerge) := rfl
    have hstep := State.arbStep_eq hready (State.fireNow_arbMerge hready.1 hg ha) hroom hval
    exact ⟨_, hexec, hstep⟩

/-! ## Slack stages and mutexes -/

theorem elemOf_inb (t : Tile) {k : Nat} (hk : k < 32) : elemOf t (32 + k) = .inb t k := by
  simp [elemOf, show 32 + k < 64 by omega]

/-- The requests that a mutex sees are the enabled inputs of its cell that bring a token (R56). -/
theorem completes_mutexGrant {n : Fin 16} {c : Fin 64} {r : Fin 72} {k : Fin 4} {pickB : Bool} {i : Nat} {s : State}
    (hcell : s.mutexCell ⟨n, c, r⟩ k = some i) (hmode : s.cellMode ⟨n, c, r⟩ i = .arbMerge) (hon : s.fabOn n = true)
    (hgrant : (s.node (.cell ⟨n, c, r⟩ i)).grant = none) (hen0 : s.cellF ⟨n, c, r⟩ i 40 1 = 1) (hen1 : s.cellF ⟨n, c, r⟩ i 41 1 = 1)
    (hreq : (s.port ⟨n, c, r⟩ i 0).isSome = true ∨ (s.port ⟨n, c, r⟩ i 1).isSome = true) {g : Bool}
    (hg : (if (s.port ⟨n, c, r⟩ i 0).isSome && (s.port ⟨n, c, r⟩ i 1).isSome then (s.node (.cell ⟨n, c, r⟩ i)).turn.getD pickB
      else (s.port ⟨n, c, r⟩ i 1).isSome) = g) :
    Completes (.mutexGrant n c r k pickB) s (fun t => (t.node (.cell ⟨n, c, r⟩ i)).grant = some g) := by
  subst hg
  refine ⟨_, (show execMutexGrant n c r k pickB s = .next (s.setNode (.cell ⟨n, c, r⟩ i) { s.node (.cell ⟨n, c, r⟩ i) with
    grant := some (if (s.port ⟨n, c, r⟩ i 0).isSome && (s.port ⟨n, c, r⟩ i 1).isSome then (s.node (.cell ⟨n, c, r⟩ i)).turn.getD pickB
      else (s.port ⟨n, c, r⟩ i 1).isSome), turn := none }) from ?_), by simp only [State.node_setNode_same]⟩
  simp only [State.port] at hreq ⊢
  unfold execMutexGrant
  rcases hreq with hreq | hreq <;> simp [hcell, hmode, hon, hgrant, hen0, hen1, hreq]

/-- Settles O8: the capture of a slack stage with and without an upset, and the grant of a mutex. -/
theorem stagesTakeTokensAndMutexesGrant : Obligations.StagesTakeTokensAndMutexesGrant := by
  unfold Obligations.StagesTakeTokensAndMutexesGrant
  refine ⟨?_, ?_⟩
  · intro n c r k v s hon hstage htok hseen hv hroom
    have hx : elemOf ⟨n, c, r⟩ (32 + k.val) = .inb ⟨n, c, r⟩ k := elemOf_inb _ k.isLt
    refine ⟨?_, fun extra hbad => ?_⟩
    · have hkey : (Src.inb ⟨n, c, r⟩ k.val).key / 2 ^ 32 = n := by
        rw [← hx]
        exact elemOf_region n c r (by omega)
      have hexec := exec_holdStageTokenMove_slack n c r ⟨32 + k.val, by omega⟩ 0 s (Nat.le_add_right _ _)
      rw [hx, State.slackTake_eq s _ 0 (hkey.symm ▸ hon) hstage htok hseen hroom, violated_zero hv, State.codeError_zero] at hexec
      exact ⟨_, hexec, rfl⟩
    · obtain ⟨t, hexec, _, hlog, _⟩ := completes_violatedSlackMove n c r ⟨32 + k.val, by omega⟩ (Nat.le_add_right _ _) hx hon hstage htok
        hseen hroom hbad
      exact ⟨t, hexec, hlog⟩
  · intro n c r k pickB i s hcell hmode hon hgrant hen0 hen1
    refine ⟨fun h0 h1 => ?_, fun h0 h1 => ?_, fun g h0 h1 hturn => ?_⟩
    · exact completes_mutexGrant hcell hmode hon hgrant hen0 hen1 (Or.inl h0) (by simp [h1])
    · exact completes_mutexGrant hcell hmode hon hgrant hen0 hen1 (Or.inr h1) (by simp [h0, h1])
    · exact completes_mutexGrant hcell hmode hon hgrant hen0 hen1 (Or.inl h0) (by simp [h0, h1, hturn])

/-! ## SOURCE, CONST, SINK -/

/-- A cell without its stage that is idle offers its constant (R75, R76). -/
theorem State.constOffer_node {s : State} {t : Tile} {i left : Nat} (hon : s.fabOn t.n = true) (htok : (s.node (.cell t i)).tok = none)
    (hhold : s.holdEn t i = false) :
    (s.constOffer t i left).node (.cell t i) =
      { s.node (.cell t i) with tok := some (BitVec.ofNat 2 (s.cellF t i 61 2)), acked := [], left := left } := by
  simp [State.constOffer, hon, htok, hhold]

@[simp] theorem State.constOffer_regs (s : State) (t : Tile) (i left : Nat) : (s.constOffer t i left).regs = s.regs := by
  unfold State.constOffer
  dsimp only
  split <;> rfl

/-- Settles O10: what an idle SOURCE or CONST cell offers, what SINK acknowledges. -/
theorem sourcesOfferConstantsAndSinksDiscard : Obligations.SourcesOfferConstantsAndSinksDiscard := by
  unfold Obligations.SourcesOfferConstantsAndSinksDiscard
  refine ⟨?_, ?_, ?_⟩
  · intro n c r i s hmode hon hleft htok hhold
    have hexec : exec (.source n c r i) s = .next _ := congrArg Host.Outcome.next (if_pos ⟨hmode, hleft⟩)
    exact ⟨_, hexec, by simp only [State.constOffer_node hon htok hhold, State.constOffer_regs, and_self]⟩
  · intro n c r i s hmode hon htok hhold
    have hexec : exec (.const n c r i) s = .next _ := congrArg Host.Outcome.next (if_pos hmode)
    exact ⟨_, hexec, by simp only [State.constOffer_node hon htok hhold, State.constOffer_regs, and_self]⟩
  · intro n c r i p s hmode hon hwaits hseen
    refine ⟨_, rfl, if_pos ⟨hmode, hon, ?_, hseen⟩⟩
    simp [hwaits]

end Sys2Proof.Machine
end

section
/-! SUPPORT. Fields of registers: when a write of one is not read in another, and that a value that fits is read back. -/

namespace Sys2Proof.Machine

/-- A field lies within its register. -/
def RF.whole (f : RF) : Bool := decide (f.lo + f.w ≤ 32)

/-- Two fields side by side in a register, or in different ones. -/
def RF.apart (f g : RF) : Bool := (f.whole && g.whole && (decide (f.lo + f.w ≤ g.lo) || decide (g.lo + g.w ≤ f.lo))) || g.off != f.off

theorem RF.fits_of_whole {f : RF} (h : f.whole = true) : f.fits := by
  show f.lo + f.w ≤ 32
  simpa only [RF.whole, decide_eq_true_eq] using h

theorem State.get_put_apart (s : State) {f g : RF} (v : Nat) (h : f.apart g = true) : (s.put f v).get g = s.get g := by
  simp only [RF.apart, RF.whole, Bool.or_eq_true, Bool.and_eq_true, decide_eq_true_eq, bne_iff_ne] at h
  rcases h with ⟨⟨hf, hg⟩, hd⟩ | hoff
  · exact State.get_put_disjoint s f g v hf hg hd
  · exact State.get_put_off s f g v hoff

theorem State.get_put_self (s : State) {f : RF} (v : Nat) (hf : f.whole = true) : (s.put f v).get f = v % 2 ^ f.w :=
  State.get_put_same s f v (RF.fits_of_whole hf)

theorem State.get_put_lt (s : State) {f : RF} {v : Nat} (hf : f.whole = true) (hv : v < 2 ^ f.w) : (s.put f v).get f = v := by
  rw [State.get_put_self s v hf, Nat.mod_eq_of_lt hv]

/-- A literal that fits is read back. -/
theorem State.get_put_lit (s : State) {f : RF} {v : Nat} (h : (f.whole && decide (v < 2 ^ f.w)) = true) : (s.put f v).get f = v := by
  obtain ⟨hf, hv⟩ := Bool.and_eq_true_iff.mp h
  exact State.get_put_lt s hf (of_decide_eq_true hv)

theorem State.get_putB (s : State) {f : RF} (b : Bool) (h : (f.whole && decide (1 < 2 ^ f.w)) = true) : (s.putB f b).get f = if b then 1 else 0 := by
  obtain ⟨hf, hv⟩ := Bool.and_eq_true_iff.mp h
  cases b
  · exact State.get_put_lt s hf (Nat.two_pow_pos _)
  · exact State.get_put_lt s hf (of_decide_eq_true hv)

theorem State.get_putB_apart (s : State) {f g : RF} (b : Bool) (h : f.apart g = true) : (s.putB f b).get g = s.get g := State.get_put_apart s _ h
theorem State.get_inc_apart (s : State) {f g : RF} (v : Nat) (h : f.apart g = true) : (s.inc f v).get g = s.get g := State.get_put_apart s _ h
theorem State.get_sat_apart (s : State) {f g : RF} (v : Nat) (h : f.apart g = true) : (s.sat f v).get g = s.get g := State.get_put_apart s _ h

theorem State.get_sat (s : State) {f : RF} (n : Nat) (hf : f.whole = true) : (s.sat f n).get f = min (s.get f + n) (2 ^ f.w - 1) :=
  State.get_sat_same s f n (RF.fits_of_whole hf)

theorem State.get_inc (s : State) {f : RF} (n : Nat) (hf : f.whole = true) : (s.inc f n).get f = (s.get f + n) % 2 ^ f.w :=
  State.get_put_self s _ hf

theorem State.get_of_rd {s t : State} {f : RF} (h : t.rd f.off = s.rd f.off) : t.get f = s.get f := by rw [State.get, h, State.get]

theorem State.get_lt (s : State) (f : RF) : s.get f < 2 ^ f.w := Nat.mod_lt _ (Nat.two_pow_pos _)

/-- A one-bit field reads 0 or 1. -/
theorem State.get_bit (s : State) (f : RF) (hf : f.w = 1) : s.get f = 0 ∨ s.get f = 1 := by
  have hlt := s.get_lt f
  rw [hf] at hlt
  omega

/-- Registers at the same place of two arrays of one page, whose bases differ. -/
theorem ne_of_base {a b x o p : Nat} (ho : o = a + x) (hp : p = b + x) (h : a ≠ b) : o ≠ p := by omega

end Sys2Proof.Machine
end

section
/-! SUPPORT. What an event changes (R394): the fault log, the console, the event ring with its four registers, and what waits for the lead. Every
other part of the state is as before. -/

namespace Sys2Proof.Machine

/-- The registers that the writing of the event ring changes (Tables 13.2 and 13.6). -/
def eventReg (off : Nat) : Bool :=
  off == R.HIF_EVT_LOST || off == R.HIF_RING_STS 2 || off == R.HIF_RING_CNT 2 || off == R.HIF_RING_OWN 2

/-- The state without what an event changes. -/
def State.sansEvent (s : State) : State × (Nat → Word) :=
  ({ s with
      regs := [], log := [], con := { s.con with out := [] }, pel := { s.pel with events := [] }, evtLast := [], freeCtr := 0
      hif := { s.hif with rings := [], writes := [], msix := [], pba := [], evtSeq := 0, evtLost := 0 } }, fun off => if eventReg off then 0 else s.rd off)

theorem State.put_sansEvent (s : State) (f : RF) (v : Nat) (h : eventReg f.off = true) : (s.put f v).sansEvent = s.sansEvent := by
  refine Prod.ext rfl (funext fun off => ?_)
  show (if eventReg off then 0 else (s.put f v).rd off) = if eventReg off then 0 else s.rd off
  split
  · rfl
  · next hoff => exact State.rd_put_ne s f v off fun he => hoff (he ▸ h)

@[simp] theorem State.msixSend_sansEvent (s : State) (v : Nat) : (s.msixSend v).sansEvent = s.sansEvent := by
  unfold State.msixSend
  split <;> rfl

@[simp] theorem State.ringEntry_sansEvent (s : State) (n : Nat) : (s.ringEntry n).sansEvent = s.sansEvent := by
  unfold State.ringEntry
  dsimp only
  split
  · rw [State.msixSend_sansEvent]
    rfl
  · rfl

theorem State.ringAdvance_sansEvent (s : State) : (s.ringAdvance 2).sansEvent = s.sansEvent := by
  unfold State.ringAdvance State.inc
  split
  · rw [State.put_sansEvent _ _ _ rfl, State.put_sansEvent _ _ _ rfl]
  · exact State.put_sansEvent _ _ _ rfl

theorem State.ringWrite_sansEvent (s : State) (flagOff : Nat) (entry : List Byte) : (s.ringWrite 2 flagOff entry).sansEvent = s.sansEvent := by
  unfold State.ringWrite State.putB State.inc
  dsimp only
  rw [State.ringEntry_sansEvent, State.put_sansEvent _ _ _ rfl, State.put_sansEvent _ _ _ rfl, State.put_sansEvent _ _ _ rfl,
    State.ringAdvance_sansEvent]
  rfl

theorem State.eventRing_sansEvent (s : State) (id param : Nat) (remote : Bool) (origin : Nat) :
    (s.eventRing id param remote origin).sansEvent = s.sansEvent := by
  unfold State.eventRing
  split
  · rfl
  · split
    · exact State.ringWrite_sansEvent s _ _
    · exact State.put_sansEvent s _ _ rfl

theorem State.print_sansEvent (s : State) (ls : List ConOut) : (s.print ls).sansEvent = s.sansEvent := by
  unfold State.print
  split <;> rfl

theorem State.raise_sansEvent (s : State) (id param : Nat) : (s.raise id param).sansEvent = s.sansEvent := by
  have hpel (u : State) (e : List (Nat × Nat)) : ({ u with pel := { u.pel with events := e } } : State).sansEvent = u.sansEvent := rfl
  have hlog : (s.logAdd (.event id param)).sansEvent = s.sansEvent := rfl
  unfold State.raise
  dsimp only
  rw [State.eventRing_sansEvent]
  (repeat' split) <;> simp only [hpel, State.print_sansEvent, hlog]

theorem State.raiseLim_sansEvent (s : State) (us id unit param : Nat) : (s.raiseLim us id unit param).sansEvent = s.sansEvent := by
  unfold State.raiseLim
  dsimp only
  split
  · rfl
  · exact State.raise_sansEvent s id param

theorem State.raiseFree_sansEvent (s : State) (id : Nat) : (s.raiseFree id).sansEvent = s.sansEvent :=
  State.raise_sansEvent _ id _

theorem State.raiseFreeLim_sansEvent (s : State) (us id unit : Nat) : (s.raiseFreeLim us id unit).sansEvent = s.sansEvent :=
  State.raiseLim_sansEvent _ us id unit _

theorem State.rd_of_sansEvent {s t : State} (h : t.sansEvent = s.sansEvent) {off : Nat} (ho : eventReg off = false) : t.rd off = s.rd off := by
  have hrd : (if eventReg off then (0 : Word) else t.rd off) = if eventReg off then 0 else s.rd off := congrArg (fun p => p.2 off) h
  simpa [ho] using hrd

theorem State.get_of_sansEvent {s t : State} (h : t.sansEvent = s.sansEvent) {f : RF} (hf : eventReg f.off = false) : t.get f = s.get f := by
  simp only [State.get, State.rd_of_sansEvent h hf]

theorem State.time_of_sansEvent {s t : State} (h : t.sansEvent = s.sansEvent) : t.time = s.time := by
  rw [State.time, State.rd_of_sansEvent h (off := R.SUP_TIME_LO) rfl, State.rd_of_sansEvent h (off := R.SUP_TIME_HI) rfl, State.time]

/-- The pages above the host interface hold no register of the event ring (Table 19.1). -/
theorem eventReg_of_page {off : Nat} (h : 0x22000 ≤ off) : eventReg off = false := by
  have h1 : R.HIF_EVT_LOST < 0x22000 := by decide
  have h2 : R.HIF_RING_STS 2 < 0x22000 := by decide
  have h3 : R.HIF_RING_CNT 2 < 0x22000 := by decide
  have h4 : R.HIF_RING_OWN 2 < 0x22000 := by decide
  simp only [eventReg, Bool.or_eq_false_iff, beq_eq_false_iff_ne]
  omega

/-! ### What `raise` keeps -/

@[simp] theorem State.raise_pending (s : State) (id param : Nat) : (s.raise id param).pending = s.pending :=
  congrArg (fun p => p.1.pending) (s.raise_sansEvent id param)
@[simp] theorem State.raise_mode (s : State) (id param : Nat) : (s.raise id param).mode = s.mode :=
  congrArg (fun p => p.1.mode) (s.raise_sansEvent id param)
@[simp] theorem State.raise_units (s : State) (id param : Nat) : (s.raise id param).units = s.units :=
  congrArg (fun p => p.1.units) (s.raise_sansEvent id param)
@[simp] theorem State.raise_fuses (s : State) (id param : Nat) : (s.raise id param).fuses = s.fuses :=
  congrArg (fun p => p.1.fuses) (s.raise_sansEvent id param)
@[simp] theorem State.raise_nor (s : State) (id param : Nat) : (s.raise id param).nor = s.nor :=
  congrArg (fun p => p.1.nor) (s.raise_sansEvent id param)
@[simp] theorem State.raise_norSize (s : State) (id param : Nat) : (s.raise id param).norSize = s.norSize :=
  congrArg (fun p => p.1.norSize) (s.raise_sansEvent id param)
@[simp] theorem State.raise_ldr (s : State) (id param : Nat) : (s.raise id param).ldr = s.ldr :=
  congrArg (fun p => p.1.ldr) (s.raise_sansEvent id param)
@[simp] theorem State.raise_cad (s : State) (id param : Nat) : (s.raise id param).cad = s.cad :=
  congrArg (fun p => p.1.cad) (s.raise_sansEvent id param)
@[simp] theorem State.raise_xq (s : State) (id param : Nat) : (s.raise id param).xq = s.xq :=
  congrArg (fun p => p.1.xq) (s.raise_sansEvent id param)
@[simp] theorem State.raise_evx (s : State) (id param : Nat) : (s.raise id param).evx = s.evx :=
  congrArg (fun p => p.1.evx) (s.raise_sansEvent id param)
@[simp] theorem State.raise_clk (s : State) (id param : Nat) : (s.raise id param).clk = s.clk :=
  congrArg (fun p => p.1.clk) (s.raise_sansEvent id param)
@[simp] theorem State.raise_spk (s : State) (id param : Nat) : (s.raise id param).spk = s.spk :=
  congrArg (fun p => p.1.spk) (s.raise_sansEvent id param)
@[simp] theorem State.raise_adc (s : State) (id param : Nat) : (s.raise id param).adc = s.adc :=
  congrArg (fun p => p.1.adc) (s.raise_sansEvent id param)
@[simp] theorem State.raise_pwr (s : State) (id param : Nat) : (s.raise id param).pwr = s.pwr :=
  congrArg (fun p => p.1.pwr) (s.raise_sansEvent id param)
@[simp] theorem State.raise_pins (s : State) (id param : Nat) : (s.raise id param).pins = s.pins :=
  congrArg (fun p => p.1.pins) (s.raise_sansEvent id param)
@[simp] theorem State.raise_lane (s : State) (id param : Nat) : (s.raise id param).lane = s.lane :=
  congrArg (fun p => p.1.lane) (s.raise_sansEvent id param)
@[simp] theorem State.raise_grp (s : State) (id param : Nat) : (s.raise id param).grp = s.grp :=
  congrArg (fun p => p.1.grp) (s.raise_sansEvent id param)
@[simp] theorem State.raise_flt (s : State) (id param : Nat) : (s.raise id param).flt = s.flt :=
  congrArg (fun p => p.1.flt) (s.raise_sansEvent id param)
@[simp] theorem State.raise_caps (s : State) (id param : Nat) : (s.raise id param).caps = s.caps :=
  congrArg (fun p => p.1.caps) (s.raise_sansEvent id param)
@[simp] theorem State.raise_frameData (s : State) (id param : Nat) : (s.raise id param).frameData = s.frameData :=
  congrArg (fun p => p.1.frameData) (s.raise_sansEvent id param)
@[simp] theorem State.raise_accepted (s : State) (id param : Nat) : (s.raise id param).hif.accepted = s.hif.accepted :=
  congrArg (fun p => p.1.hif.accepted) (s.raise_sansEvent id param)
@[simp] theorem State.raise_hifRunning (s : State) (id param : Nat) : (s.raise id param).hif.running = s.hif.running :=
  congrArg (fun p => p.1.hif.running) (s.raise_sansEvent id param)
@[simp] theorem State.raise_finished (s : State) (id param : Nat) : (s.raise id param).hif.finished = s.hif.finished :=
  congrArg (fun p => p.1.hif.finished) (s.raise_sansEvent id param)
@[simp] theorem State.raise_bme (s : State) (id param : Nat) : (s.raise id param).hif.bme = s.hif.bme :=
  congrArg (fun p => p.1.hif.bme) (s.raise_sansEvent id param)
@[simp] theorem State.raise_link (s : State) (id param : Nat) : (s.raise id param).hif.link = s.hif.link :=
  congrArg (fun p => p.1.hif.link) (s.raise_sansEvent id param)
@[simp] theorem State.raise_cfg (s : State) (id param : Nat) : (s.raise id param).hif.cfg = s.hif.cfg :=
  congrArg (fun p => p.1.hif.cfg) (s.raise_sansEvent id param)
@[simp] theorem State.raise_table (s : State) (id param : Nat) : (s.raise id param).hif.table = s.hif.table :=
  congrArg (fun p => p.1.hif.table) (s.raise_sansEvent id param)
@[simp] theorem State.raise_con_fuse (s : State) (id param : Nat) : (s.raise id param).con.fuse = s.con.fuse :=
  congrArg (fun p => p.1.con.fuse) (s.raise_sansEvent id param)
@[simp] theorem State.raise_con_tests (s : State) (id param : Nat) : (s.raise id param).con.tests = s.con.tests :=
  congrArg (fun p => p.1.con.tests) (s.raise_sansEvent id param)
@[simp] theorem State.raise_con_result (s : State) (id param : Nat) : (s.raise id param).con.result = s.con.result :=
  congrArg (fun p => p.1.con.result) (s.raise_sansEvent id param)
@[simp] theorem State.raise_con_mbox (s : State) (id param : Nat) : (s.raise id param).con.mbox = s.con.mbox :=
  congrArg (fun p => p.1.con.mbox) (s.raise_sansEvent id param)
@[simp] theorem State.raise_con_rateChanged (s : State) (id param : Nat) : (s.raise id param).con.rateChanged = s.con.rateChanged :=
  congrArg (fun p => p.1.con.rateChanged) (s.raise_sansEvent id param)
@[simp] theorem State.raise_pel_ports (s : State) (id param : Nat) : (s.raise id param).pel.ports = s.pel.ports :=
  congrArg (fun p => p.1.pel.ports) (s.raise_sansEvent id param)
@[simp] theorem State.raise_pel_sent (s : State) (id param : Nat) : (s.raise id param).pel.sent = s.pel.sent :=
  congrArg (fun p => p.1.pel.sent) (s.raise_sansEvent id param)
@[simp] theorem State.raise_pel_mgmt (s : State) (id param : Nat) : (s.raise id param).pel.mgmt = s.pel.mgmt :=
  congrArg (fun p => p.1.pel.mgmt) (s.raise_sansEvent id param)
@[simp] theorem State.raise_pel_completions (s : State) (id param : Nat) : (s.raise id param).pel.completions = s.pel.completions :=
  congrArg (fun p => p.1.pel.completions) (s.raise_sansEvent id param)
@[simp] theorem State.raise_pel_en (s : State) (id param : Nat) : (s.raise id param).pel.en = s.pel.en :=
  congrArg (fun p => p.1.pel.en) (s.raise_sansEvent id param)
@[simp] theorem State.raise_pel_epoch (s : State) (id param : Nat) : (s.raise id param).pel.epoch = s.pel.epoch :=
  congrArg (fun p => p.1.pel.epoch) (s.raise_sansEvent id param)
@[simp] theorem State.raise_pel_seq (s : State) (id param : Nat) : (s.raise id param).pel.seq = s.pel.seq :=
  congrArg (fun p => p.1.pel.seq) (s.raise_sansEvent id param)
@[simp] theorem State.raise_pel_lastSeq (s : State) (id param : Nat) : (s.raise id param).pel.lastSeq = s.pel.lastSeq :=
  congrArg (fun p => p.1.pel.lastSeq) (s.raise_sansEvent id param)
@[simp] theorem State.raise_pel_listening (s : State) (id param : Nat) : (s.raise id param).pel.listening = s.pel.listening :=
  congrArg (fun p => p.1.pel.listening) (s.raise_sansEvent id param)
@[simp] theorem State.raise_pel_yielded (s : State) (id param : Nat) : (s.raise id param).pel.yielded = s.pel.yielded :=
  congrArg (fun p => p.1.pel.yielded) (s.raise_sansEvent id param)
@[simp] theorem State.raise_pel_altOff (s : State) (id param : Nat) : (s.raise id param).pel.altOff = s.pel.altOff :=
  congrArg (fun p => p.1.pel.altOff) (s.raise_sansEvent id param)
@[simp] theorem State.raise_pel_ring (s : State) (id param : Nat) : (s.raise id param).pel.ring = s.pel.ring :=
  congrArg (fun p => p.1.pel.ring) (s.raise_sansEvent id param)
@[simp] theorem State.raise_time (s : State) (id param : Nat) : (s.raise id param).time = s.time := State.time_of_sansEvent (s.raise_sansEvent id param)
theorem State.raise_rd (s : State) (id param : Nat) {off : Nat} (h : eventReg off = false) : (s.raise id param).rd off = s.rd off :=
  State.rd_of_sansEvent (s.raise_sansEvent id param) h
theorem State.raise_getKept (s : State) (id param : Nat) {f : RF} (h : eventReg f.off = false) : (s.raise id param).get f = s.get f :=
  State.get_of_sansEvent (s.raise_sansEvent id param) h

/-! ### What `raiseLim` keeps -/

@[simp] theorem State.raiseLim_pending (s : State) (us id unit param : Nat) : (s.raiseLim us id unit param).pending = s.pending :=
  congrArg (fun p => p.1.pending) (s.raiseLim_sansEvent us id unit param)
@[simp] theorem State.raiseLim_mode (s : State) (us id unit param : Nat) : (s.raiseLim us id unit param).mode = s.mode :=
  congrArg (fun p => p.1.mode) (s.raiseLim_sansEvent us id unit param)
@[simp] theorem State.raiseLim_units (s : State) (us id unit param : Nat) : (s.raiseLim us id unit param).units = s.units :=
  congrArg (fun p => p.1.units) (s.raiseLim_sansEvent us id unit param)
@[simp] theorem State.raiseLim_fuses (s : State) (us id unit param : Nat) : (s.raiseLim us id unit param).fuses = s.fuses :=
  congrArg (fun p => p.1.fuses) (s.raiseLim_sansEvent us id unit param)
@[simp] theorem State.raiseLim_nor (s : State) (us id unit param : Nat) : (s.raiseLim us id unit param).nor = s.nor :=
  congrArg (fun p => p.1.nor) (s.raiseLim_sansEvent us id unit param)
@[simp] theorem State.raiseLim_norSize (s : State) (us id unit param : Nat) : (s.raiseLim us id unit param).norSize = s.norSize :=
  congrArg (fun p => p.1.norSize) (s.raiseLim_sansEvent us id unit param)
@[simp] theorem State.raiseLim_ldr (s : State) (us id unit param : Nat) : (s.raiseLim us id unit param).ldr = s.ldr :=
  congrArg (fun p => p.1.ldr) (s.raiseLim_sansEvent us id unit param)
@[simp] theorem State.raiseLim_cad (s : State) (us id unit param : Nat) : (s.raiseLim us id unit param).cad = s.cad :=
  congrArg (fun p => p.1.cad) (s.raiseLim_sansEvent us id unit param)
@[simp] theorem State.raiseLim_fab (s : State) (us id unit param : Nat) : (s.raiseLim us id unit param).fab = s.fab :=
  congrArg (fun p => p.1.fab) (s.raiseLim_sansEvent us id unit param)
@[simp] theorem State.raiseLim_xq (s : State) (us id unit param : Nat) : (s.raiseLim us id unit param).xq = s.xq :=
  congrArg (fun p => p.1.xq) (s.raiseLim_sansEvent us id unit param)
@[simp] theorem State.raiseLim_evx (s : State) (us id unit param : Nat) : (s.raiseLim us id unit param).evx = s.evx :=
  congrArg (fun p => p.1.evx) (s.raiseLim_sansEvent us id unit param)
@[simp] theorem State.raiseLim_clk (s : State) (us id unit param : Nat) : (s.raiseLim us id unit param).clk = s.clk :=
  congrArg (fun p => p.1.clk) (s.raiseLim_sansEvent us id unit param)
@[simp] theorem State.raiseLim_spk (s : State) (us id unit param : Nat) : (s.raiseLim us id unit param).spk = s.spk :=
  congrArg (fun p => p.1.spk) (s.raiseLim_sansEvent us id unit param)
@[simp] theorem State.raiseLim_adc (s : State) (us id unit param : Nat) : (s.raiseLim us id unit param).adc = s.adc :=
  congrArg (fun p => p.1.adc) (s.raiseLim_sansEvent us id unit param)
@[simp] theorem State.raiseLim_pwr (s : State) (us id unit param : Nat) : (s.raiseLim us id unit param).pwr = s.pwr :=
  congrArg (fun p => p.1.pwr) (s.raiseLim_sansEvent us id unit param)
@[simp] theorem State.raiseLim_pins (s : State) (us id unit param : Nat) : (s.raiseLim us id unit param).pins = s.pins :=
  congrArg (fun p => p.1.pins) (s.raiseLim_sansEvent us id unit param)
@[simp] theorem State.raiseLim_lane (s : State) (us id unit param : Nat) : (s.raiseLim us id unit param).lane = s.lane :=
  congrArg (fun p => p.1.lane) (s.raiseLim_sansEvent us id unit param)
@[simp] theorem State.raiseLim_grp (s : State) (us id unit param : Nat) : (s.raiseLim us id unit param).grp = s.grp :=
  congrArg (fun p => p.1.grp) (s.raiseLim_sansEvent us id unit param)
@[simp] theorem State.raiseLim_flt (s : State) (us id unit param : Nat) : (s.raiseLim us id unit param).flt = s.flt :=
  congrArg (fun p => p.1.flt) (s.raiseLim_sansEvent us id unit param)
@[simp] theorem State.raiseLim_caps (s : State) (us id unit param : Nat) : (s.raiseLim us id unit param).caps = s.caps :=
  congrArg (fun p => p.1.caps) (s.raiseLim_sansEvent us id unit param)
@[simp] theorem State.raiseLim_frameData (s : State) (us id unit param : Nat) : (s.raiseLim us id unit param).frameData = s.frameData :=
  congrArg (fun p => p.1.frameData) (s.raiseLim_sansEvent us id unit param)
@[simp] theorem State.raiseLim_accepted (s : State) (us id unit param : Nat) : (s.raiseLim us id unit param).hif.accepted = s.hif.accepted :=
  congrArg (fun p => p.1.hif.accepted) (s.raiseLim_sansEvent us id unit param)
@[simp] theorem State.raiseLim_hifRunning (s : State) (us id unit param : Nat) : (s.raiseLim us id unit param).hif.running = s.hif.running :=
  congrArg (fun p => p.1.hif.running) (s.raiseLim_sansEvent us id unit param)
@[simp] theorem State.raiseLim_finished (s : State) (us id unit param : Nat) : (s.raiseLim us id unit param).hif.finished = s.hif.finished :=
  congrArg (fun p => p.1.hif.finished) (s.raiseLim_sansEvent us id unit param)
@[simp] theorem State.raiseLim_bme (s : State) (us id unit param : Nat) : (s.raiseLim us id unit param).hif.bme = s.hif.bme :=
  congrArg (fun p => p.1.hif.bme) (s.raiseLim_sansEvent us id unit param)
@[simp] theorem State.raiseLim_link (s : State) (us id unit param : Nat) : (s.raiseLim us id unit param).hif.link = s.hif.link :=
  congrArg (fun p => p.1.hif.link) (s.raiseLim_sansEvent us id unit param)
@[simp] theorem State.raiseLim_cfg (s : State) (us id unit param : Nat) : (s.raiseLim us id unit param).hif.cfg = s.hif.cfg :=
  congrArg (fun p => p.1.hif.cfg) (s.raiseLim_sansEvent us id unit param)
@[simp] theorem State.raiseLim_table (s : State) (us id unit param : Nat) : (s.raiseLim us id unit param).hif.table = s.hif.table :=
  congrArg (fun p => p.1.hif.table) (s.raiseLim_sansEvent us id unit param)
@[simp] theorem State.raiseLim_con_fuse (s : State) (us id unit param : Nat) : (s.raiseLim us id unit param).con.fuse = s.con.fuse :=
  congrArg (fun p => p.1.con.fuse) (s.raiseLim_sansEvent us id unit param)
@[simp] theorem State.raiseLim_con_tests (s : State) (us id unit param : Nat) : (s.raiseLim us id unit param).con.tests = s.con.tests :=
  congrArg (fun p => p.1.con.tests) (s.raiseLim_sansEvent us id unit param)
@[simp] theorem State.raiseLim_con_result (s : State) (us id unit param : Nat) : (s.raiseLim us id unit param).con.result = s.con.result :=
  congrArg (fun p => p.1.con.result) (s.raiseLim_sansEvent us id unit param)
@[simp] theorem State.raiseLim_con_mbox (s : State) (us id unit param : Nat) : (s.raiseLim us id unit param).con.mbox = s.con.mbox :=
  congrArg (fun p => p.1.con.mbox) (s.raiseLim_sansEvent us id unit param)
@[simp] theorem State.raiseLim_con_rateChanged (s : State) (us id unit param : Nat) : (s.raiseLim us id unit param).con.rateChanged = s.con.rateChanged :=
  congrArg (fun p => p.1.con.rateChanged) (s.raiseLim_sansEvent us id unit param)
@[simp] theorem State.raiseLim_pel_ports (s : State) (us id unit param : Nat) : (s.raiseLim us id unit param).pel.ports = s.pel.ports :=
  congrArg (fun p => p.1.pel.ports) (s.raiseLim_sansEvent us id unit param)
@[simp] theorem State.raiseLim_pel_sent (s : State) (us id unit param : Nat) : (s.raiseLim us id unit param).pel.sent = s.pel.sent :=
  congrArg (fun p => p.1.pel.sent) (s.raiseLim_sansEvent us id unit param)
@[simp] theorem State.raiseLim_pel_mgmt (s : State) (us id unit param : Nat) : (s.raiseLim us id unit param).pel.mgmt = s.pel.mgmt :=
  congrArg (fun p => p.1.pel.mgmt) (s.raiseLim_sansEvent us id unit param)
@[simp] theorem State.raiseLim_pel_completions (s : State) (us id unit param : Nat) : (s.raiseLim us id unit param).pel.completions = s.pel.completions :=
  congrArg (fun p => p.1.pel.completions) (s.raiseLim_sansEvent us id unit param)
@[simp] theorem State.raiseLim_pel_en (s : State) (us id unit param : Nat) : (s.raiseLim us id unit param).pel.en = s.pel.en :=
  congrArg (fun p => p.1.pel.en) (s.raiseLim_sansEvent us id unit param)
@[simp] theorem State.raiseLim_pel_epoch (s : State) (us id unit param : Nat) : (s.raiseLim us id unit param).pel.epoch = s.pel.epoch :=
  congrArg (fun p => p.1.pel.epoch) (s.raiseLim_sansEvent us id unit param)
@[simp] theorem State.raiseLim_pel_seq (s : State) (us id unit param : Nat) : (s.raiseLim us id unit param).pel.seq = s.pel.seq :=
  congrArg (fun p => p.1.pel.seq) (s.raiseLim_sansEvent us id unit param)
@[simp] theorem State.raiseLim_pel_lastSeq (s : State) (us id unit param : Nat) : (s.raiseLim us id unit param).pel.lastSeq = s.pel.lastSeq :=
  congrArg (fun p => p.1.pel.lastSeq) (s.raiseLim_sansEvent us id unit param)
@[simp] theorem State.raiseLim_pel_listening (s : State) (us id unit param : Nat) : (s.raiseLim us id unit param).pel.listening = s.pel.listening :=
  congrArg (fun p => p.1.pel.listening) (s.raiseLim_sansEvent us id unit param)
@[simp] theorem State.raiseLim_pel_yielded (s : State) (us id unit param : Nat) : (s.raiseLim us id unit param).pel.yielded = s.pel.yielded :=
  congrArg (fun p => p.1.pel.yielded) (s.raiseLim_sansEvent us id unit param)
@[simp] theorem State.raiseLim_pel_altOff (s : State) (us id unit param : Nat) : (s.raiseLim us id unit param).pel.altOff = s.pel.altOff :=
  congrArg (fun p => p.1.pel.altOff) (s.raiseLim_sansEvent us id unit param)
@[simp] theorem State.raiseLim_pel_ring (s : State) (us id unit param : Nat) : (s.raiseLim us id unit param).pel.ring = s.pel.ring :=
  congrArg (fun p => p.1.pel.ring) (s.raiseLim_sansEvent us id unit param)
@[simp] theorem State.raiseLim_time (s : State) (us id unit param : Nat) : (s.raiseLim us id unit param).time = s.time := State.time_of_sansEvent (s.raiseLim_sansEvent us id unit param)
theorem State.raiseLim_rd (s : State) (us id unit param : Nat) {off : Nat} (h : eventReg off = false) : (s.raiseLim us id unit param).rd off = s.rd off :=
  State.rd_of_sansEvent (s.raiseLim_sansEvent us id unit param) h
theorem State.raiseLim_getKept (s : State) (us id unit param : Nat) {f : RF} (h : eventReg f.off = false) : (s.raiseLim us id unit param).get f = s.get f :=
  State.get_of_sansEvent (s.raiseLim_sansEvent us id unit param) h

/-! ### What `raiseFree` keeps -/

@[simp] theorem State.raiseFree_pending (s : State) (id : Nat) : (s.raiseFree id).pending = s.pending :=
  congrArg (fun p => p.1.pending) (s.raiseFree_sansEvent id)
@[simp] theorem State.raiseFree_mode (s : State) (id : Nat) : (s.raiseFree id).mode = s.mode :=
  congrArg (fun p => p.1.mode) (s.raiseFree_sansEvent id)
@[simp] theorem State.raiseFree_units (s : State) (id : Nat) : (s.raiseFree id).units = s.units :=
  congrArg (fun p => p.1.units) (s.raiseFree_sansEvent id)
@[simp] theorem State.raiseFree_fuses (s : State) (id : Nat) : (s.raiseFree id).fuses = s.fuses :=
  congrArg (fun p => p.1.fuses) (s.raiseFree_sansEvent id)
@[simp] theorem State.raiseFree_nor (s : State) (id : Nat) : (s.raiseFree id).nor = s.nor :=
  congrArg (fun p => p.1.nor) (s.raiseFree_sansEvent id)
@[simp] theorem State.raiseFree_norSize (s : State) (id : Nat) : (s.raiseFree id).norSize = s.norSize :=
  congrArg (fun p => p.1.norSize) (s.raiseFree_sansEvent id)
@[simp] theorem State.raiseFree_ldr (s : State) (id : Nat) : (s.raiseFree id).ldr = s.ldr :=
  congrArg (fun p => p.1.ldr) (s.raiseFree_sansEvent id)
@[simp] theorem State.raiseFree_cad (s : State) (id : Nat) : (s.raiseFree id).cad = s.cad :=
  congrArg (fun p => p.1.cad) (s.raiseFree_sansEvent id)
@[simp] theorem State.raiseFree_fab (s : State) (id : Nat) : (s.raiseFree id).fab = s.fab :=
  congrArg (fun p => p.1.fab) (s.raiseFree_sansEvent id)
@[simp] theorem State.raiseFree_xq (s : State) (id : Nat) : (s.raiseFree id).xq = s.xq :=
  congrArg (fun p => p.1.xq) (s.raiseFree_sansEvent id)
@[simp] theorem State.raiseFree_evx (s : State) (id : Nat) : (s.raiseFree id).evx = s.evx :=
  congrArg (fun p => p.1.evx) (s.raiseFree_sansEvent id)
@[simp] theorem State.raiseFree_clk (s : State) (id : Nat) : (s.raiseFree id).clk = s.clk :=
  congrArg (fun p => p.1.clk) (s.raiseFree_sansEvent id)
@[simp] theorem State.raiseFree_spk (s : State) (id : Nat) : (s.raiseFree id).spk = s.spk :=
  congrArg (fun p => p.1.spk) (s.raiseFree_sansEvent id)
@[simp] theorem State.raiseFree_adc (s : State) (id : Nat) : (s.raiseFree id).adc = s.adc :=
  congrArg (fun p => p.1.adc) (s.raiseFree_sansEvent id)
@[simp] theorem State.raiseFree_pwr (s : State) (id : Nat) : (s.raiseFree id).pwr = s.pwr :=
  congrArg (fun p => p.1.pwr) (s.raiseFree_sansEvent id)
@[simp] theorem State.raiseFree_pins (s : State) (id : Nat) : (s.raiseFree id).pins = s.pins :=
  congrArg (fun p => p.1.pins) (s.raiseFree_sansEvent id)
@[simp] theorem State.raiseFree_lane (s : State) (id : Nat) : (s.raiseFree id).lane = s.lane :=
  congrArg (fun p => p.1.lane) (s.raiseFree_sansEvent id)
@[simp] theorem State.raiseFree_grp (s : State) (id : Nat) : (s.raiseFree id).grp = s.grp :=
  congrArg (fun p => p.1.grp) (s.raiseFree_sansEvent id)
@[simp] theorem State.raiseFree_flt (s : State) (id : Nat) : (s.raiseFree id).flt = s.flt :=
  congrArg (fun p => p.1.flt) (s.raiseFree_sansEvent id)
@[simp] theorem State.raiseFree_caps (s : State) (id : Nat) : (s.raiseFree id).caps = s.caps :=
  congrArg (fun p => p.1.caps) (s.raiseFree_sansEvent id)
@[simp] theorem State.raiseFree_frameData (s : State) (id : Nat) : (s.raiseFree id).frameData = s.frameData :=
  congrArg (fun p => p.1.frameData) (s.raiseFree_sansEvent id)
@[simp] theorem State.raiseFree_accepted (s : State) (id : Nat) : (s.raiseFree id).hif.accepted = s.hif.accepted :=
  congrArg (fun p => p.1.hif.accepted) (s.raiseFree_sansEvent id)
@[simp] theorem State.raiseFree_hifRunning (s : State) (id : Nat) : (s.raiseFree id).hif.running = s.hif.running :=
  congrArg (fun p => p.1.hif.running) (s.raiseFree_sansEvent id)
@[simp] theorem State.raiseFree_finished (s : State) (id : Nat) : (s.raiseFree id).hif.finished = s.hif.finished :=
  congrArg (fun p => p.1.hif.finished) (s.raiseFree_sansEvent id)
@[simp] theorem State.raiseFree_bme (s : State) (id : Nat) : (s.raiseFree id).hif.bme = s.hif.bme :=
  congrArg (fun p => p.1.hif.bme) (s.raiseFree_sansEvent id)
@[simp] theorem State.raiseFree_link (s : State) (id : Nat) : (s.raiseFree id).hif.link = s.hif.link :=
  congrArg (fun p => p.1.hif.link) (s.raiseFree_sansEvent id)
@[simp] theorem State.raiseFree_cfg (s : State) (id : Nat) : (s.raiseFree id).hif.cfg = s.hif.cfg :=
  congrArg (fun p => p.1.hif.cfg) (s.raiseFree_sansEvent id)
@[simp] theorem State.raiseFree_table (s : State) (id : Nat) : (s.raiseFree id).hif.table = s.hif.table :=
  congrArg (fun p => p.1.hif.table) (s.raiseFree_sansEvent id)
@[simp] theorem State.raiseFree_con_fuse (s : State) (id : Nat) : (s.raiseFree id).con.fuse = s.con.fuse :=
  congrArg (fun p => p.1.con.fuse) (s.raiseFree_sansEvent id)
@[simp] theorem State.raiseFree_con_tests (s : State) (id : Nat) : (s.raiseFree id).con.tests = s.con.tests :=
  congrArg (fun p => p.1.con.tests) (s.raiseFree_sansEvent id)
@[simp] theorem State.raiseFree_con_result (s : State) (id : Nat) : (s.raiseFree id).con.result = s.con.result :=
  congrArg (fun p => p.1.con.result) (s.raiseFree_sansEvent id)
@[simp] theorem State.raiseFree_con_mbox (s : State) (id : Nat) : (s.raiseFree id).con.mbox = s.con.mbox :=
  congrArg (fun p => p.1.con.mbox) (s.raiseFree_sansEvent id)
@[simp] theorem State.raiseFree_con_rateChanged (s : State) (id : Nat) : (s.raiseFree id).con.rateChanged = s.con.rateChanged :=
  congrArg (fun p => p.1.con.rateChanged) (s.raiseFree_sansEvent id)
@[simp] theorem State.raiseFree_pel_ports (s : State) (id : Nat) : (s.raiseFree id).pel.ports = s.pel.ports :=
  congrArg (fun p => p.1.pel.ports) (s.raiseFree_sansEvent id)
@[simp] theorem State.raiseFree_pel_sent (s : State) (id : Nat) : (s.raiseFree id).pel.sent = s.pel.sent :=
  congrArg (fun p => p.1.pel.sent) (s.raiseFree_sansEvent id)
@[simp] theorem State.raiseFree_pel_mgmt (s : State) (id : Nat) : (s.raiseFree id).pel.mgmt = s.pel.mgmt :=
  congrArg (fun p => p.1.pel.mgmt) (s.raiseFree_sansEvent id)
@[simp] theorem State.raiseFree_pel_completions (s : State) (id : Nat) : (s.raiseFree id).pel.completions = s.pel.completions :=
  congrArg (fun p => p.1.pel.completions) (s.raiseFree_sansEvent id)
@[simp] theorem State.raiseFree_pel_en (s : State) (id : Nat) : (s.raiseFree id).pel.en = s.pel.en :=
  congrArg (fun p => p.1.pel.en) (s.raiseFree_sansEvent id)
@[simp] theorem State.raiseFree_pel_epoch (s : State) (id : Nat) : (s.raiseFree id).pel.epoch = s.pel.epoch :=
  congrArg (fun p => p.1.pel.epoch) (s.raiseFree_sansEvent id)
@[simp] theorem State.raiseFree_pel_seq (s : State) (id : Nat) : (s.raiseFree id).pel.seq = s.pel.seq :=
  congrArg (fun p => p.1.pel.seq) (s.raiseFree_sansEvent id)
@[simp] theorem State.raiseFree_pel_lastSeq (s : State) (id : Nat) : (s.raiseFree id).pel.lastSeq = s.pel.lastSeq :=
  congrArg (fun p => p.1.pel.lastSeq) (s.raiseFree_sansEvent id)
@[simp] theorem State.raiseFree_pel_listening (s : State) (id : Nat) : (s.raiseFree id).pel.listening = s.pel.listening :=
  congrArg (fun p => p.1.pel.listening) (s.raiseFree_sansEvent id)
@[simp] theorem State.raiseFree_pel_yielded (s : State) (id : Nat) : (s.raiseFree id).pel.yielded = s.pel.yielded :=
  congrArg (fun p => p.1.pel.yielded) (s.raiseFree_sansEvent id)
@[simp] theorem State.raiseFree_pel_altOff (s : State) (id : Nat) : (s.raiseFree id).pel.altOff = s.pel.altOff :=
  congrArg (fun p => p.1.pel.altOff) (s.raiseFree_sansEvent id)
@[simp] theorem State.raiseFree_pel_ring (s : State) (id : Nat) : (s.raiseFree id).pel.ring = s.pel.ring :=
  congrArg (fun p => p.1.pel.ring) (s.raiseFree_sansEvent id)
@[simp] theorem State.raiseFree_time (s : State) (id : Nat) : (s.raiseFree id).time = s.time := State.time_of_sansEvent (s.raiseFree_sansEvent id)
theorem State.raiseFree_rd (s : State) (id : Nat) {off : Nat} (h : eventReg off = false) : (s.raiseFree id).rd off = s.rd off :=
  State.rd_of_sansEvent (s.raiseFree_sansEvent id) h
theorem State.raiseFree_getKept (s : State) (id : Nat) {f : RF} (h : eventReg f.off = false) : (s.raiseFree id).get f = s.get f :=
  State.get_of_sansEvent (s.raiseFree_sansEvent id) h

/-! ### What `raiseFreeLim` keeps -/

@[simp] theorem State.raiseFreeLim_pending (s : State) (us id unit : Nat) : (s.raiseFreeLim us id unit).pending = s.pending :=
  congrArg (fun p => p.1.pending) (s.raiseFreeLim_sansEvent us id unit)
@[simp] theorem State.raiseFreeLim_mode (s : State) (us id unit : Nat) : (s.raiseFreeLim us id unit).mode = s.mode :=
  congrArg (fun p => p.1.mode) (s.raiseFreeLim_sansEvent us id unit)
@[simp] theorem State.raiseFreeLim_units (s : State) (us id unit : Nat) : (s.raiseFreeLim us id unit).units = s.units :=
  congrArg (fun p => p.1.units) (s.raiseFreeLim_sansEvent us id unit)
@[simp] theorem State.raiseFreeLim_fuses (s : State) (us id unit : Nat) : (s.raiseFreeLim us id unit).fuses = s.fuses :=
  congrArg (fun p => p.1.fuses) (s.raiseFreeLim_sansEvent us id unit)
@[simp] theorem State.raiseFreeLim_nor (s : State) (us id unit : Nat) : (s.raiseFreeLim us id unit).nor = s.nor :=
  congrArg (fun p => p.1.nor) (s.raiseFreeLim_sansEvent us id unit)
@[simp] theorem State.raiseFreeLim_norSize (s : State) (us id unit : Nat) : (s.raiseFreeLim us id unit).norSize = s.norSize :=
  congrArg (fun p => p.1.norSize) (s.raiseFreeLim_sansEvent us id unit)
@[simp] theorem State.raiseFreeLim_ldr (s : State) (us id unit : Nat) : (s.raiseFreeLim us id unit).ldr = s.ldr :=
  congrArg (fun p => p.1.ldr) (s.raiseFreeLim_sansEvent us id unit)
@[simp] theorem State.raiseFreeLim_cad (s : State) (us id unit : Nat) : (s.raiseFreeLim us id unit).cad = s.cad :=
  congrArg (fun p => p.1.cad) (s.raiseFreeLim_sansEvent us id unit)
@[simp] theorem State.raiseFreeLim_fab (s : State) (us id unit : Nat) : (s.raiseFreeLim us id unit).fab = s.fab :=
  congrArg (fun p => p.1.fab) (s.raiseFreeLim_sansEvent us id unit)
@[simp] theorem State.raiseFreeLim_xq (s : State) (us id unit : Nat) : (s.raiseFreeLim us id unit).xq = s.xq :=
  congrArg (fun p => p.1.xq) (s.raiseFreeLim_sansEvent us id unit)
@[simp] theorem State.raiseFreeLim_evx (s : State) (us id unit : Nat) : (s.raiseFreeLim us id unit).evx = s.evx :=
  congrArg (fun p => p.1.evx) (s.raiseFreeLim_sansEvent us id unit)
@[simp] theorem State.raiseFreeLim_clk (s : State) (us id unit : Nat) : (s.raiseFreeLim us id unit).clk = s.clk :=
  congrArg (fun p => p.1.clk) (s.raiseFreeLim_sansEvent us id unit)
@[simp] theorem State.raiseFreeLim_spk (s : State) (us id unit : Nat) : (s.raiseFreeLim us id unit).spk = s.spk :=
  congrArg (fun p => p.1.spk) (s.raiseFreeLim_sansEvent us id unit)
@[simp] theorem State.raiseFreeLim_adc (s : State) (us id unit : Nat) : (s.raiseFreeLim us id unit).adc = s.adc :=
  congrArg (fun p => p.1.adc) (s.raiseFreeLim_sansEvent us id unit)
@[simp] theorem State.raiseFreeLim_pwr (s : State) (us id unit : Nat) : (s.raiseFreeLim us id unit).pwr = s.pwr :=
  congrArg (fun p => p.1.pwr) (s.raiseFreeLim_sansEvent us id unit)
@[simp] theorem State.raiseFreeLim_pins (s : State) (us id unit : Nat) : (s.raiseFreeLim us id unit).pins = s.pins :=
  congrArg (fun p => p.1.pins) (s.raiseFreeLim_sansEvent us id unit)
@[simp] theorem State.raiseFreeLim_lane (s : State) (us id unit : Nat) : (s.raiseFreeLim us id unit).lane = s.lane :=
  congrArg (fun p => p.1.lane) (s.raiseFreeLim_sansEvent us id unit)
@[simp] theorem State.raiseFreeLim_grp (s : State) (us id unit : Nat) : (s.raiseFreeLim us id unit).grp = s.grp :=
  congrArg (fun p => p.1.grp) (s.raiseFreeLim_sansEvent us id unit)
@[simp] theorem State.raiseFreeLim_flt (s : State) (us id unit : Nat) : (s.raiseFreeLim us id unit).flt = s.flt :=
  congrArg (fun p => p.1.flt) (s.raiseFreeLim_sansEvent us id unit)
@[simp] theorem State.raiseFreeLim_caps (s : State) (us id unit : Nat) : (s.raiseFreeLim us id unit).caps = s.caps :=
  congrArg (fun p => p.1.caps) (s.raiseFreeLim_sansEvent us id unit)
@[simp] theorem State.raiseFreeLim_readData (s : State) (us id unit : Nat) : (s.raiseFreeLim us id unit).readData = s.readData :=
  congrArg (fun p => p.1.readData) (s.raiseFreeLim_sansEvent us id unit)
@[simp] theorem State.raiseFreeLim_frameData (s : State) (us id unit : Nat) : (s.raiseFreeLim us id unit).frameData = s.frameData :=
  congrArg (fun p => p.1.frameData) (s.raiseFreeLim_sansEvent us id unit)
@[simp] theorem State.raiseFreeLim_accepted (s : State) (us id unit : Nat) : (s.raiseFreeLim us id unit).hif.accepted = s.hif.accepted :=
  congrArg (fun p => p.1.hif.accepted) (s.raiseFreeLim_sansEvent us id unit)
@[simp] theorem State.raiseFreeLim_hifRunning (s : State) (us id unit : Nat) : (s.raiseFreeLim us id unit).hif.running = s.hif.running :=
  congrArg (fun p => p.1.hif.running) (s.raiseFreeLim_sansEvent us id unit)
@[simp] theorem State.raiseFreeLim_finished (s : State) (us id unit : Nat) : (s.raiseFreeLim us id unit).hif.finished = s.hif.finished :=
  congrArg (fun p => p.1.hif.finished) (s.raiseFreeLim_sansEvent us id unit)
@[simp] theorem State.raiseFreeLim_bme (s : State) (us id unit : Nat) : (s.raiseFreeLim us id unit).hif.bme = s.hif.bme :=
  congrArg (fun p => p.1.hif.bme) (s.raiseFreeLim_sansEvent us id unit)
@[simp] theorem State.raiseFreeLim_link (s : State) (us id unit : Nat) : (s.raiseFreeLim us id unit).hif.link = s.hif.link :=
  congrArg (fun p => p.1.hif.link) (s.raiseFreeLim_sansEvent us id unit)
@[simp] theorem State.raiseFreeLim_cfg (s : State) (us id unit : Nat) : (s.raiseFreeLim us id unit).hif.cfg = s.hif.cfg :=
  congrArg (fun p => p.1.hif.cfg) (s.raiseFreeLim_sansEvent us id unit)
@[simp] theorem State.raiseFreeLim_table (s : State) (us id unit : Nat) : (s.raiseFreeLim us id unit).hif.table = s.hif.table :=
  congrArg (fun p => p.1.hif.table) (s.raiseFreeLim_sansEvent us id unit)
@[simp] theorem State.raiseFreeLim_con_fuse (s : State) (us id unit : Nat) : (s.raiseFreeLim us id unit).con.fuse = s.con.fuse :=
  congrArg (fun p => p.1.con.fuse) (s.raiseFreeLim_sansEvent us id unit)
@[simp] theorem State.raiseFreeLim_con_tests (s : State) (us id unit : Nat) : (s.raiseFreeLim us id unit).con.tests = s.con.tests :=
  congrArg (fun p => p.1.con.tests) (s.raiseFreeLim_sansEvent us id unit)
@[simp] theorem State.raiseFreeLim_con_result (s : State) (us id unit : Nat) : (s.raiseFreeLim us id unit).con.result = s.con.result :=
  congrArg (fun p => p.1.con.result) (s.raiseFreeLim_sansEvent us id unit)
@[simp] theorem State.raiseFreeLim_con_mbox (s : State) (us id unit : Nat) : (s.raiseFreeLim us id unit).con.mbox = s.con.mbox :=
  congrArg (fun p => p.1.con.mbox) (s.raiseFreeLim_sansEvent us id unit)
@[simp] theorem State.raiseFreeLim_con_rateChanged (s : State) (us id unit : Nat) : (s.raiseFreeLim us id unit).con.rateChanged = s.con.rateChanged :=
  congrArg (fun p => p.1.con.rateChanged) (s.raiseFreeLim_sansEvent us id unit)
@[simp] theorem State.raiseFreeLim_pel_ports (s : State) (us id unit : Nat) : (s.raiseFreeLim us id unit).pel.ports = s.pel.ports :=
  congrArg (fun p => p.1.pel.ports) (s.raiseFreeLim_sansEvent us id unit)
@[simp] theorem State.raiseFreeLim_pel_sent (s : State) (us id unit : Nat) : (s.raiseFreeLim us id unit).pel.sent = s.pel.sent :=
  congrArg (fun p => p.1.pel.sent) (s.raiseFreeLim_sansEvent us id unit)
@[simp] theorem State.raiseFreeLim_pel_mgmt (s : State) (us id unit : Nat) : (s.raiseFreeLim us id unit).pel.mgmt = s.pel.mgmt :=
  congrArg (fun p => p.1.pel.mgmt) (s.raiseFreeLim_sansEvent us id unit)
@[simp] theorem State.raiseFreeLim_pel_completions (s : State) (us id unit : Nat) : (s.raiseFreeLim us id unit).pel.completions = s.pel.completions :=
  congrArg (fun p => p.1.pel.completions) (s.raiseFreeLim_sansEvent us id unit)
@[simp] theorem State.raiseFreeLim_pel_en (s : State) (us id unit : Nat) : (s.raiseFreeLim us id unit).pel.en = s.pel.en :=
  congrArg (fun p => p.1.pel.en) (s.raiseFreeLim_sansEvent us id unit)
@[simp] theorem State.raiseFreeLim_pel_epoch (s : State) (us id unit : Nat) : (s.raiseFreeLim us id unit).pel.epoch = s.pel.epoch :=
  congrArg (fun p => p.1.pel.epoch) (s.raiseFreeLim_sansEvent us id unit)
@[simp] theorem State.raiseFreeLim_pel_seq (s : State) (us id unit : Nat) : (s.raiseFreeLim us id unit).pel.seq = s.pel.seq :=
  congrArg (fun p => p.1.pel.seq) (s.raiseFreeLim_sansEvent us id unit)
@[simp] theorem State.raiseFreeLim_pel_lastSeq (s : State) (us id unit : Nat) : (s.raiseFreeLim us id unit).pel.lastSeq = s.pel.lastSeq :=
  congrArg (fun p => p.1.pel.lastSeq) (s.raiseFreeLim_sansEvent us id unit)
@[simp] theorem State.raiseFreeLim_pel_listening (s : State) (us id unit : Nat) : (s.raiseFreeLim us id unit).pel.listening = s.pel.listening :=
  congrArg (fun p => p.1.pel.listening) (s.raiseFreeLim_sansEvent us id unit)
@[simp] theorem State.raiseFreeLim_pel_yielded (s : State) (us id unit : Nat) : (s.raiseFreeLim us id unit).pel.yielded = s.pel.yielded :=
  congrArg (fun p => p.1.pel.yielded) (s.raiseFreeLim_sansEvent us id unit)
@[simp] theorem State.raiseFreeLim_pel_altOff (s : State) (us id unit : Nat) : (s.raiseFreeLim us id unit).pel.altOff = s.pel.altOff :=
  congrArg (fun p => p.1.pel.altOff) (s.raiseFreeLim_sansEvent us id unit)
@[simp] theorem State.raiseFreeLim_pel_ring (s : State) (us id unit : Nat) : (s.raiseFreeLim us id unit).pel.ring = s.pel.ring :=
  congrArg (fun p => p.1.pel.ring) (s.raiseFreeLim_sansEvent us id unit)
@[simp] theorem State.raiseFreeLim_time (s : State) (us id unit : Nat) : (s.raiseFreeLim us id unit).time = s.time := State.time_of_sansEvent (s.raiseFreeLim_sansEvent us id unit)
theorem State.raiseFreeLim_rd (s : State) (us id unit : Nat) {off : Nat} (h : eventReg off = false) : (s.raiseFreeLim us id unit).rd off = s.rd off :=
  State.rd_of_sansEvent (s.raiseFreeLim_sansEvent us id unit) h
theorem State.raiseFreeLim_getKept (s : State) (us id unit : Nat) {f : RF} (h : eventReg f.off = false) : (s.raiseFreeLim us id unit).get f = s.get f :=
  State.get_of_sansEvent (s.raiseFreeLim_sansEvent us id unit) h

/-! ### Its entry in the fault log -/

theorem State.logged_of_log {s : State} {id param : Nat} {l : List LogEntry} {e : LogEntry} (h : s.log = l ++ [e]) (he : e.kind = .event id param) :
    s.logged id param := ⟨e, by simp [h], he⟩

/-- A log that is longer still holds the event. -/
theorem State.logged_mono {s t : State} {l : List LogEntry} (h : t.log = s.log ++ l) {id param : Nat} (hl : s.logged id param) : t.logged id param := by
  obtain ⟨e, he, hk⟩ := hl
  exact ⟨e, by simp [h, he], hk⟩

@[simp] theorem State.raise_raise_logged (s : State) (id param id' param' : Nat) : ((s.raise id param).raise id' param').logged id param :=
  State.logged_mono (State.raise_log _ _ _) (State.raise_logged s id param)

theorem State.raiseFree_loggedSome (s : State) (id : Nat) : (s.raiseFree id).loggedSome id := ⟨_, State.raise_logged _ _ _⟩

end Sys2Proof.Machine
end

section
/-! SUPPORT. R181: a register access through BAR0 acts while the clock of its domain runs; until then it waits or is forced, and the host's side of
the state stays. R269: the pair of writes that revokes key-hash slots. -/

namespace Sys2Proof.Machine

theorem State.bar_of_open {s : State} {off : Nat} (h : s.barOpen off = true) (w : Option Word) (t : State) : s.bar off w t = t := if_pos h

/-- An access that is not open changes no more than its own waiting and the count of forced accesses. -/
theorem State.bar_cases {s : State} {off : Nat} (h : s.barOpen off = false) (w : Option Word) (t : State) :
    s.bar off w t = s ∨ s.bar off w t = s.countForced ⟨.bar0, off, w, none⟩ ∨
      s.bar off w t = s.setClk { s.clk with waits := s.clk.waits ++ [⟨.bar0, off, w, none⟩] } := by
  unfold State.bar
  dsimp only
  rw [if_neg (by simp [h])]
  split
  · exact Or.inl rfl
  · split
    · exact Or.inr (Or.inl rfl)
    · exact Or.inr (Or.inr rfl)

theorem State.countForced_ldr (s : State) (a : Access) : (s.countForced a).ldr = s.ldr ∧ (s.countForced a).fuses = s.fuses := by
  unfold State.countForced
  dsimp only
  split <;> exact ⟨rfl, rfl⟩

theorem State.bar_ldr {s : State} {off : Nat} (h : s.barOpen off = false) (w : Option Word) (t : State) :
    (s.bar off w t).ldr = s.ldr ∧ (s.bar off w t).fuses = s.fuses := by
  rcases State.bar_cases h w t with heq | heq | heq <;> rw [heq]
  · exact ⟨rfl, rfl⟩
  · exact State.countForced_ldr _ _
  · exact ⟨rfl, rfl⟩

theorem completes_bar {i : Instr} {s u : State} {off : Nat} {w : Option Word} (hexec : exec i s = .next (s.bar off w u))
    (h : s.barOpen off = true) {P : State → Prop} (hP : P u) : Completes i s P :=
  ⟨_, hexec, (State.bar_of_open h w u).symm ▸ hP⟩

theorem completes_bar_closed {i : Instr} {s u : State} {off : Nat} {w : Option Word} (hexec : exec i s = .next (s.bar off w u))
    (h : s.barOpen off = false) : Completes i s (fun t => t.ldr = s.ldr ∧ t.fuses = s.fuses) :=
  ⟨_, hexec, State.bar_ldr h w u⟩

theorem revokeSlots_get (s : State) (mask : BitVec 4) :
    (s.revokeSlots mask).get F.SEC_FUSE_STS_revoked = (s.fuses.revoked ||| mask).toNat :=
  State.get_put_lt _ rfl (s.fuses.revoked ||| mask).isLt

/-- A pair leaves a programmed slot unrevoked or does nothing but say so (R269). -/
theorem State.revokePair_eq (s : State) (mask : BitVec 4) :
    if s.fuses.hashProg &&& ~~~ (s.fuses.revoked ||| mask) = 0 then
      (s.revokePair mask).fuses = s.fuses ∧ (s.revokePair mask).get F.SEC_FUSE_STS_rev_refused = 1
    else (s.revokePair mask).fuses = { s.fuses with revoked := s.fuses.revoked ||| mask } ∧
      (s.revokePair mask).get F.SEC_FUSE_STS_revoked = (s.fuses.revoked ||| mask).toNat := by
  unfold State.revokePair
  split
  · exact ⟨rfl, State.get_put_lt _ rfl (by decide)⟩
  · exact ⟨rfl, revokeSlots_get s mask⟩

theorem State.revokePair_revoke (s : State) (mask : BitVec 4) : (s.revokePair mask).ldr = s.ldr := by
  unfold State.revokePair
  split <;> rfl

/-- Settles O30: with the clock of its domain running the second write of a pair is `revokePair`, without the first it is nothing. -/
theorem revocationTakesAPairAndLeavesASlot : Obligations.RevocationTakesAPairAndLeavesASlot := by
  unfold Obligations.RevocationTakesAPairAndLeavesASlot
  refine ⟨fun s h => ?_, fun s => ⟨_, rfl, rfl, rfl, rfl⟩, fun mask s h => ⟨?_, ?_⟩, fun mask s h => ?_⟩
  · exact completes_bar (u := s.setRevoke true) rfl h ⟨rfl, rfl, rfl⟩
  · exact completes_bar_closed rfl h
  · exact completes_bar_closed rfl h
  · refine completes_bar rfl h ?_
    cases hfirst : s.ldr.revoke
    · exact ⟨hfirst, rfl, rfl⟩
    · simp only [if_true, if_false, Bool.true_eq_false, State.revokePair_revoke]
      exact ⟨rfl, State.revokePair_eq (s.setRevoke false) mask⟩

end Sys2Proof.Machine
end

section
/-! SUPPORT. R139, R140: the check bits of a FIRN row. The syndrome and the parity of a row are linear in its bits, so those of a row with one wrong
bit are those of that bit alone. -/

namespace Sys2Proof.Machine

/-! ## Parity -/

theorem foldl_xor_eq (l : List Bool) (b : Bool) : l.foldl xor b = xor b (parity l) := by
  induction l generalizing b with
  | nil => simp [parity]
  | cons x l ih =>
    have hx : parity (x :: l) = xor x (parity l) := by simpa [parity] using ih x
    rw [List.foldl_cons, ih, hx, Bool.xor_assoc]

@[simp] theorem parity_nil : parity [] = false := rfl

@[simp] theorem parity_cons (x : Bool) (l : List Bool) : parity (x :: l) = xor x (parity l) := by
  simpa [parity] using foldl_xor_eq l x

theorem parity_append (l m : List Bool) : parity (l ++ m) = xor (parity l) (parity m) := by
  induction l with
  | nil => simp
  | cons x l ih => simp [ih]

/-- A parity over chosen places is additive in what stands there. -/
theorem parity_filterMap_xor {ι : Type} (l : List ι) (c : ι → Bool) (f g : ι → Bool) :
    parity (l.filterMap fun p => if c p then some (xor (f p) (g p)) else none) =
      xor (parity (l.filterMap fun p => if c p then some (f p) else none)) (parity (l.filterMap fun p => if c p then some (g p) else none)) := by
  induction l with
  | nil => rfl
  | cons p l ih =>
    by_cases hp : c p = true
    · simp only [List.filterMap_cons, hp, if_true, parity_cons, ih]
      cases f p <;> cases g p <;> simp
    · simpa [hp] using ih

theorem parity_map_xor {ι : Type} (l : List ι) (f g : ι → Bool) :
    parity (l.map fun p => xor (f p) (g p)) = xor (parity (l.map f)) (parity (l.map g)) := by
  induction l with
  | nil => rfl
  | cons p l ih =>
    simp only [List.map_cons, parity_cons, ih]
    cases f p <;> cases g p <;> simp

/-! ## Syndrome and parity of a row -/

/-- Bit k of the syndrome of a row: its check bit against that of its data. -/
def eccWrong (row : BitVec 72) (k : Nat) : Bool := eccCheck (row.extractLsb' 0 64) k != (row.extractLsb' 64 8 : BitVec 8).getLsbD k

def eccSyndrome (row : BitVec 72) : Nat := (List.range 7).foldl (fun n k => if eccWrong row k then n + 2 ^ k else n) 0

def eccOdd (row : BitVec 72) : Bool := parity ((List.range 72).map row.getLsbD)

/-- What the data of a row is read as with a parity and a syndrome. -/
def eccDecode (data : BitVec 64) (odd : Bool) (syn : Nat) : BitVec 64 × Nat :=
  if odd then
    if syn = 0 ∨ [1, 2, 4, 8, 16, 32, 64].contains syn then (data, 1)
    else match eccPos.idxOf? syn with
      | some i => (data ^^^ BitVec.ofNat 64 (2 ^ i), 1)
      | none => (data, 2)
  else if syn = 0 then (data, 0) else (data, 2)

theorem eccRead_eq_decode (row : BitVec 72) : eccRead row = eccDecode (row.extractLsb' 0 64) (eccOdd row) (eccSyndrome row) := by
  simp only [eccRead, eccDecode, eccOdd, eccSyndrome, eccWrong] <;> rfl

/-- What a syndrome of odd parity names in the data: a bit, or none where a check bit is wrong. -/
def eccFlip (syn : Nat) : Option (BitVec 64) :=
  if syn = 0 ∨ [1, 2, 4, 8, 16, 32, 64].contains syn then some 0 else (eccPos.idxOf? syn).map fun i => BitVec.ofNat 64 (2 ^ i)

theorem eccDecode_odd (data : BitVec 64) {syn : Nat} {x : BitVec 64} (hx : eccFlip syn = some x) : eccDecode data true syn = (data ^^^ x, 1) := by
  simp only [eccFlip] at hx
  simp only [eccDecode, if_true]
  split at hx
  · next h =>
    rw [if_pos h, ← Option.some.inj hx, show data ^^^ 0 = data from BitVec.xor_zero]
  · next h =>
    rw [if_neg h]
    obtain ⟨i, hi, rfl⟩ := Option.map_eq_some_iff.mp hx
    rw [hi]

theorem eccCheck_xor (a b : BitVec 64) (k : Nat) : eccCheck (a ^^^ b) k = xor (eccCheck a k) (eccCheck b k) := by
  simp only [eccCheck, BitVec.getLsbD_xor]
  exact parity_filterMap_xor _ _ _ _

theorem eccData_xor (a b : BitVec 72) (lo n : Nat) : (a ^^^ b).extractLsb' lo n = a.extractLsb' lo n ^^^ b.extractLsb' lo n :=
  BitVec.eq_of_getLsbD_eq fun i hi => by simp [hi]

theorem eccWrong_xor (a b : BitVec 72) (k : Nat) : eccWrong (a ^^^ b) k = xor (eccWrong a k) (eccWrong b k) := by
  simp only [eccWrong, eccData_xor, eccCheck_xor, BitVec.getLsbD_xor]
  cases eccCheck (a.extractLsb' 0 64) k <;> cases eccCheck (b.extractLsb' 0 64) k <;>
    cases (a.extractLsb' 64 8 : BitVec 8).getLsbD k <;> cases (b.extractLsb' 64 8 : BitVec 8).getLsbD k <;> rfl

theorem eccOdd_xor (a b : BitVec 72) : eccOdd (a ^^^ b) = xor (eccOdd a) (eccOdd b) := by
  simp only [eccOdd, ← parity_map_xor, ← BitVec.getLsbD_xor]

/-! ## A row with the check bits of its data -/

/-- A byte put together from its bits holds them. -/
theorem getLsbD_byteOf : ∀ b0 b1 b2 b3 b4 b5 b6 b7 : Bool, ∀ k : Fin 8,
    (BitVec.ofNat 8 (([b0, b1, b2, b3, b4, b5, b6, b7].zipIdx).foldl (fun n p => if p.1 then n + 2 ^ p.2 else n) 0)).getLsbD k =
      [b0, b1, b2, b3, b4, b5, b6, b7].getD k false := by decide

theorem eccBits_getLsbD (d : BitVec 64) (k : Fin 8) : (eccBits d).getLsbD k =
    ((List.range 7).map (eccCheck d) ++ [parity ((List.range 7).map (eccCheck d) ++ (List.range 64).map d.getLsbD)]).getD k false :=
  getLsbD_byteOf (eccCheck d 0) (eccCheck d 1) (eccCheck d 2) (eccCheck d 3) (eccCheck d 4) (eccCheck d 5) (eccCheck d 6) _ k

theorem eccRow_getLsbD (d : BitVec 64) (i : Nat) : (eccRow d).getLsbD i = if i < 64 then d.getLsbD i else (eccBits d).getLsbD (i - 64) :=
  BitVec.getLsbD_append

theorem eccRow_data (d : BitVec 64) : (eccRow d).extractLsb' 0 64 = d :=
  BitVec.eq_of_getLsbD_eq fun i hi => by simp [eccRow_getLsbD, hi]

theorem eccRow_check (d : BitVec 64) : (eccRow d).extractLsb' 64 8 = eccBits d :=
  BitVec.eq_of_getLsbD_eq fun i hi => by simp [eccRow_getLsbD, hi]

theorem eccRow_right (d : BitVec 64) (k : Fin 7) : eccWrong (eccRow d) k = false := by
  have hbit := eccBits_getLsbD d k.castSucc
  have hk : eccCheck d k = (eccBits d).getLsbD k := by
    refine Eq.trans ?_ hbit.symm
    rw [List.getD_eq_getElem?_getD, List.getElem?_append_left (by simp)]
    simp
  simp [eccWrong, eccRow_data, eccRow_check, hk]

theorem eccRow_even (d : BitVec 64) : eccOdd (eccRow d) = false := by
  have hrow : (List.range 72).map (eccRow d).getLsbD = (List.range 64).map d.getLsbD ++ (List.range 8).map (eccBits d).getLsbD := by
    have h72 : List.range 72 = List.range 64 ++ (List.range 8).map (64 + ·) := by
      rw [← List.range_add]
    rw [h72, List.map_append, List.map_map]
    have hdata : ∀ i ∈ List.range 64, (eccRow d).getLsbD i = d.getLsbD i := fun i hi => by
      rw [eccRow_getLsbD, if_pos (List.mem_range.mp hi)]
    have hbits : ∀ i ∈ List.range 8, ((eccRow d).getLsbD ∘ (64 + ·)) i = (eccBits d).getLsbD i := fun i _ => by
      simp [eccRow_getLsbD]
    rw [List.map_congr_left hdata, List.map_congr_left hbits]
  have hchk : (List.range 8).map (eccBits d).getLsbD =
      (List.range 7).map (eccCheck d) ++ [parity ((List.range 7).map (eccCheck d) ++ (List.range 64).map d.getLsbD)] := by
    refine List.ext_getElem (by simp) fun i h1 h2 => ?_
    have hi : i < 8 := by simpa using h1
    have hbit := eccBits_getLsbD d ⟨i, hi⟩
    rw [List.getD_eq_getElem _ _ h2] at hbit
    simpa using hbit
  rw [eccOdd, hrow, hchk, parity_append, parity_append, parity_append, parity_cons, parity_nil]
  cases parity ((List.range 64).map d.getLsbD) <;> cases parity ((List.range 7).map (eccCheck d)) <;> rfl

/-- The syndrome of a row with its check bits and something added is that of what was added. -/
theorem eccSyndrome_eccRow_xor (d : BitVec 64) (e : BitVec 72) : eccSyndrome (eccRow d ^^^ e) = eccSyndrome e := by
  have hwrong (k : Fin 7) : eccWrong (eccRow d ^^^ e) k = eccWrong e k := by rw [eccWrong_xor, eccRow_right, Bool.false_xor]
  refine List.foldl_ext _ _ _ fun n k hk => ?_
  rw [hwrong ⟨k, List.mem_range.mp hk⟩]

/-- One wrong bit is odd, and its syndrome names it. -/
theorem eccFlip_single : ∀ i : Fin 72, eccOdd (BitVec.ofNat 72 (2 ^ i.val)) = true ∧
    eccFlip (eccSyndrome (BitVec.ofNat 72 (2 ^ i.val))) = some ((BitVec.ofNat 72 (2 ^ i.val)).extractLsb' 0 64) := by decide +kernel

/-- Settles O15: without an error the syndrome is 0; with one wrong bit it names the bit. -/
theorem firnEccCorrectsEverySingleBitError : Obligations.FirnEccCorrectsEverySingleBitError := by
  unfold Obligations.FirnEccCorrectsEverySingleBitError
  intro d
  refine ⟨?_, fun i => ?_⟩
  · have hsyn := eccSyndrome_eccRow_xor d 0
    rw [show eccRow d ^^^ 0 = eccRow d from BitVec.xor_zero] at hsyn
    rw [eccRead_eq_decode, hsyn.trans (by decide +kernel : eccSyndrome 0 = 0), eccRow_even, eccRow_data]
    rfl
  · obtain ⟨hodd, hflip⟩ := eccFlip_single i
    generalize BitVec.ofNat 72 (2 ^ i.val) = e at hodd hflip ⊢
    rw [eccRead_eq_decode, eccOdd_xor, eccRow_even, hodd, Bool.false_xor, eccSyndrome_eccRow_xor, eccDecode_odd _ hflip, eccData_xor, eccRow_data, BitVec.xor_assoc, BitVec.xor_self, BitVec.xor_zero]

end Sys2Proof.Machine
end

section
/-! SUPPORT. Folds over a list of places, and the watchdogs and the freeze of a region (R49, R50, R65, R115). -/

namespace Sys2Proof.Machine

/-- What every turn of a loop keeps, the loop keeps. -/
theorem foldl_kept {α β : Type} (p : State → β) {f : State → α → State} {l : List α} (h : ∀ s, ∀ a ∈ l, p (f s a) = p s) (s : State) :
    p (l.foldl f s) = p s := by
  induction l generalizing s with
  | nil => rfl
  | cons a l ih => rw [List.foldl_cons, ih (fun s b hb => h s b (List.mem_cons_of_mem a hb)), h s a List.mem_cons_self]

/-! ## Watchdogs -/

@[simp] theorem State.wdgAt_setWdg (s : State) (n k : Nat) (w : Wdg) : (s.setWdg n k w).wdgAt n k = w := SMap.get_set_same _ _ _ _

@[simp] theorem State.put_wdgAt (s : State) (f : RF) (v n k : Nat) : (s.put f v).wdgAt n k = s.wdgAt n k := rfl

theorem State.wdgTurn_rd (s : State) (n k : Nat) (w : Wdg) (off : Nat) : (s.wdgTurn n k w).rd off = s.rd off := by
  unfold State.wdgTurn
  dsimp only
  split <;> rfl

/-- What a watchdog shows is its own register (R65). -/
theorem State.wdgShow_rd (s : State) (n k : Nat) {off : Nat} (h : off ≠ R.REGION_WDG_STS n k) : (s.wdgShow n k).rd off = s.rd off := by
  simp only [State.wdgShow, State.putB]
  rw [State.rd_put_ne _ _ _ _ h, State.rd_put_ne _ _ _ _ h, State.rd_put_ne _ _ _ _ h]

theorem State.wdgSync_rd (s : State) (n : Nat) {off : Nat} (h : ∀ k < 32, off ≠ R.REGION_WDG_STS n k) : (s.wdgSync n).rd off = s.rd off :=
  foldl_kept (fun s => s.rd off) (fun s k hk => by
    rw [State.wdgShow_rd _ _ _ (h k (List.mem_range.mp hk)), State.wdgTurn_rd]) s

@[simp] theorem State.wdgTurn_mode (s : State) (n k : Nat) (w : Wdg) : (s.wdgTurn n k w).mode = s.mode := by
  unfold State.wdgTurn
  dsimp only
  split <;> rfl

@[simp] theorem State.wdgSync_mode (s : State) (n : Nat) : (s.wdgSync n).mode = s.mode := by
  unfold State.wdgSync
  exact foldl_kept State.mode (by intro s k _; exact State.wdgTurn_mode s n k _) s

/-! ## Freeze -/

theorem State.spokesQuiet_regs (s : State) (n : Nat) : (s.spokesQuiet n).regs = s.regs := by
  unfold State.spokesQuiet
  exact foldl_kept State.regs (by intro s u _; rfl) s

theorem State.spokesQuiet_mode (s : State) (n : Nat) : (s.spokesQuiet n).mode = s.mode := by
  unfold State.spokesQuiet
  exact foldl_kept State.mode (by intro s u _; rfl) s

/-- One region frozen or let go. -/
def State.freezeOne (s : State) (m : Nat) (v : Bool) : State :=
  let s := if s.on (F.REGION_FREEZE_freeze m) && ! v then s.spokesQuiet m else s
  let s := s.putB (F.REGION_FREEZE_freeze m) v
  let s := if v || s.on (F.REGION_FREEZE_hold_freeze m) then s else s.put (F.REGION_FREEZE_settled m) 0
  s.wdgSync m

theorem State.freeze_eq (s : State) (n : Nat) (v : Bool) : s.freeze n v = (s.freezeSet n).foldl (fun s m => s.freezeOne m v) s := rfl

theorem freezeReg_ne_wdg (n m k : Nat) (_ : k < 32) : R.REGION_FREEZE n ≠ R.REGION_WDG_STS m k := by
  simp only [R.REGION_FREEZE, R.REGION_WDG_STS]
  omega

theorem State.wdgSync_freeze (s : State) (n m : Nat) {f : RF} (hf : f.off = R.REGION_FREEZE n) : (s.wdgSync m).get f = s.get f := by
  simp only [State.get, hf, State.wdgSync_rd s m (freezeReg_ne_wdg n m)]

/-- Of another region the register stays. -/
theorem State.freezeOne_other (s : State) {n m : Nat} (v : Bool) (hm : m ≠ n) {f : RF} (hf : f.off = R.REGION_FREEZE n) :
    (s.freezeOne m v).get f = s.get f := by
  have hoff : f.off ≠ R.REGION_FREEZE m := by
    simp only [hf, R.REGION_FREEZE]
    omega
  have hput (u : State) (g : RF) (hg : g.off = R.REGION_FREEZE m) (x : Nat) : (u.put g x).get f = u.get f :=
    State.get_put_off u g f x (hg ▸ hoff)
  have hquiet (u : State) : (u.spokesQuiet m).get f = u.get f := by simp only [State.get, State.rd, State.spokesQuiet_regs]
  unfold State.freezeOne State.putB
  dsimp only
  rw [State.wdgSync_freeze _ n m hf]
  (repeat' split) <;> simp only [hput _ (F.REGION_FREEZE_freeze m) rfl, hput _ (F.REGION_FREEZE_settled m) rfl, hquiet]

theorem State.freezeOne_mode (s : State) (m : Nat) (v : Bool) : (s.freezeOne m v).mode = s.mode := by
  unfold State.freezeOne State.putB
  dsimp only
  rw [State.wdgSync_mode]
  (repeat' split) <;> simp [State.spokesQuiet_mode]

theorem State.freezeOne_get (s : State) (n : Nat) (v : Bool) :
    (s.freezeOne n v).get (F.REGION_FREEZE_freeze n) = v.toNat ∧
    (s.freezeOne n v).get (F.REGION_FREEZE_hold_freeze n) = s.get (F.REGION_FREEZE_hold_freeze n) ∧
    (v = false → s.get (F.REGION_FREEZE_hold_freeze n) = 0 → (s.freezeOne n v).get (F.REGION_FREEZE_settled n) = 0) := by
  have hquiet (u : State) (f : RF) : (u.spokesQuiet n).get f = u.get f := by simp only [State.get, State.rd, State.spokesQuiet_regs]
  have hhold (u : State) (x : Nat) : (u.put (F.REGION_FREEZE_freeze n) x).get (F.REGION_FREEZE_hold_freeze n) = u.get (F.REGION_FREEZE_hold_freeze n) :=
    State.get_put_apart u x rfl
  have hsettled (u : State) : (u.put (F.REGION_FREEZE_settled n) 0).get (F.REGION_FREEZE_settled n) = 0 := State.get_put_lit u rfl
  have hkept (u : State) : (u.put (F.REGION_FREEZE_settled n) 0).get (F.REGION_FREEZE_hold_freeze n) = u.get (F.REGION_FREEZE_hold_freeze n) :=
    State.get_put_apart u 0 rfl
  have hfirst (u : State) : (u.put (F.REGION_FREEZE_settled n) 0).get (F.REGION_FREEZE_freeze n) = u.get (F.REGION_FREEZE_freeze n) :=
    State.get_put_apart u 0 rfl
  have hset (u : State) (x : Nat) (hx : x < 2) : (u.put (F.REGION_FREEZE_freeze n) x).get (F.REGION_FREEZE_freeze n) = x :=
    State.get_put_lt u rfl hx
  unfold State.freezeOne State.putB
  dsimp only
  simp only [State.wdgSync_freeze _ n n (f := F.REGION_FREEZE_freeze n) rfl, State.wdgSync_freeze _ n n (f := F.REGION_FREEZE_hold_freeze n) rfl,
    State.wdgSync_freeze _ n n (f := F.REGION_FREEZE_settled n) rfl]
  cases v
  · cases hon : s.on (F.REGION_FREEZE_freeze n) <;> cases hh : s.on (F.REGION_FREEZE_hold_freeze n) <;>
      simp_all [State.on]
  · simp [hset, hhold]

/-- A freeze or its end, and what it leaves (R49, R50, R115). -/
theorem State.freeze_get (s : State) (n : Nat) (v : Bool) :
    (s.freeze n v).get (F.REGION_FREEZE_freeze n) = v.toNat ∧
    (s.freeze n v).get (F.REGION_FREEZE_hold_freeze n) = s.get (F.REGION_FREEZE_hold_freeze n) ∧
    (v = false → s.get (F.REGION_FREEZE_hold_freeze n) = 0 → (s.freeze n v).get (F.REGION_FREEZE_settled n) = 0) := by
  rw [State.freeze_eq, State.freezeSet]
  split
  · rcases Nat.mod_two_eq_zero_or_one n with hn | hn
    · have h1 : n / 2 * 2 = n := by omega
      have hne : n + 1 ≠ n := by omega
      simp only [h1, List.foldl_cons, List.foldl_nil, State.freezeOne_other _ v hne (f := F.REGION_FREEZE_freeze n) rfl,
        State.freezeOne_other _ v hne (f := F.REGION_FREEZE_hold_freeze n) rfl, State.freezeOne_other _ v hne (f := F.REGION_FREEZE_settled n) rfl]
      exact s.freezeOne_get n v
    · have h1 : n / 2 * 2 + 1 = n := by omega
      have hne : n / 2 * 2 ≠ n := by omega
      have hone := (s.freezeOne (n / 2 * 2) v).freezeOne_get n v
      simp only [State.freezeOne_other _ v hne (f := F.REGION_FREEZE_hold_freeze n) rfl] at hone
      simpa only [h1, List.foldl_cons, List.foldl_nil] using hone
  · simpa only [List.foldl_cons, List.foldl_nil] using s.freezeOne_get n v

theorem State.freeze_mode (s : State) (n : Nat) (v : Bool) : (s.freeze n v).mode = s.mode :=
  foldl_kept (f := fun s m => s.freezeOne m v) State.mode (fun s m _ => s.freezeOne_mode m v) s

/-- Settles O11: an isolation cell acts by its behaviour, and `freezeWrite` is `freeze` unless the region is shut. -/
theorem isolationCellsAndFreezeFollowTheirCommands : Obligations.IsolationCellsAndFreezeFollowTheirCommands := by
  unfold Obligations.IsolationCellsAndFreezeFollowTheirCommands
  refine ⟨?_, ?_, ?_, ?_, ?_, ?_, ?_⟩
  · intro n e i s hcut hnbr hhold hbeh hseen
    exact ⟨_, rfl, if_pos ⟨by simp [State.isoActive, State.cut, State.on, hcut, hnbr], by simp [State.isoBehaviour, State.on, hhold, hbeh], hseen⟩⟩
  · intro n e i s hcut hnbr hhold hlow hbeh hset htok
    have hdo : s.isoActive n e ∧ i.val / 8 % 2 = 1 ∧ s.isoBehaviour n e i = 2 ∧ ! s.fab.setReset.getLsbD n ∧ (s.node (.iso n e i)).tok.isNone :=
      ⟨by simp [State.isoActive, State.cut, State.on, hcut, hnbr], hlow, by simp [State.isoBehaviour, State.on, hhold, hbeh], by rw [hset]; rfl,
        by rw [htok]; rfl⟩
    refine ⟨_, congrArg Host.Outcome.next (if_pos hdo), ?_, rfl⟩
    simp only [State.node_setNode_same]
  · intro n e i s hhold
    have hbeh : s.isoBehaviour n e i = 0 := by simp [State.isoBehaviour, State.on, hhold]
    exact ⟨⟨_, rfl, if_neg (by simp [hbeh])⟩, ⟨_, rfl, if_neg (by simp [hbeh])⟩⟩
  · intro n s hopen
    have hexec : exec (.regionFreezeSet n) s = .next (s.freeze n true) := congrArg Host.Outcome.next (if_neg (by simp [hopen]))
    exact ⟨_, hexec, (s.freeze_get n true).1, s.freeze_mode n true⟩
  · intro n s hshut
    exact ⟨⟨_, rfl, if_pos hshut⟩, ⟨_, rfl, if_pos hshut⟩⟩
  · intro n s hfrozen hmoving
    refine ⟨_, congrArg Host.Outcome.next (if_pos ?_), State.get_put_lit _ rfl⟩
    rcases hfrozen with h | h <;> simp [State.on, h, hmoving]
  · intro n s hopen
    have hexec : exec (.regionFreezeClear n) s = .next (s.freeze n false) := congrArg Host.Outcome.next (if_neg (by simp [hopen]))
    obtain ⟨hfreeze, hhold, hsettled⟩ := s.freeze_get n false
    exact ⟨_, hexec, hfreeze, hhold, hsettled rfl⟩

end Sys2Proof.Machine
end

section
/-! SUPPORT. R65 to R68, R118: the enable of a watchdog, its report, and the sensors of the long tracks. -/

namespace Sys2Proof.Machine

/-- A loop over distinct places, seen from one of them: only its own turn counts. -/
theorem foldl_turn {α β : Type} (p : State → β) {f : State → α → State} {l : List α} {k : α} (hk : k ∈ l) (hl : l.Nodup)
    (h : ∀ s, ∀ a ∈ l, a ≠ k → p (f s a) = p s) (s : State) :
    ∃ l₁ : List α, (∀ a ∈ l₁, a ∈ l ∧ a ≠ k) ∧ p (l.foldl f s) = p (f (l₁.foldl f s) k) := by
  obtain ⟨l₁, l₂, rfl⟩ := List.append_of_mem hk
  obtain ⟨_, h₂, hd⟩ := List.nodup_append.mp hl
  have hafter : ∀ a ∈ l₂, a ≠ k := fun a ha he => (List.nodup_cons.mp h₂).1 (he ▸ ha)
  refine ⟨l₁, fun a (ha : a ∈ l₁) => ⟨by simp [ha], hd a ha k (by simp)⟩, ?_⟩
  rw [List.foldl_append, List.foldl_cons]
  exact foldl_kept p (fun u a ha => h u a (by simp [ha]) (hafter a ha)) _

theorem wdgSts_ne {n j k : Nat} (h : j ≠ k) : R.REGION_WDG_STS n k ≠ R.REGION_WDG_STS n j := by
  simp only [R.REGION_WDG_STS]
  omega

theorem wdgCtl_ne_sts (n m j k : Nat) : R.REGION_WDG_CTL n k ≠ R.REGION_WDG_STS m j := by
  simp only [R.REGION_WDG_CTL, R.REGION_WDG_STS]
  omega

theorem State.setWdg_wdgAt_ne (s : State) (n : Nat) {j k : Nat} (h : k ≠ j) (w : Wdg) : (s.setWdg n j w).wdgAt n k = s.wdgAt n k :=
  SMap.get_set_ne _ _ _ _ _ (by omega)

theorem State.wdgTurn_wdgAt_ne (s : State) (n : Nat) {j k : Nat} (h : k ≠ j) (w : Wdg) : (s.wdgTurn n j w).wdgAt n k = s.wdgAt n k := by
  unfold State.wdgTurn
  dsimp only
  split <;> exact State.setWdg_wdgAt_ne _ _ h _

/-- A watchdog that starts afresh has counted nothing. -/
theorem State.wdgTurn_fresh (s : State) (n k : Nat) : (s.wdgTurn n k {}).wdgCount ((s.wdgTurn n k {}).wdgAt n k) = 0 := by
  have htime : (s.wdgTurn n k {}).time = s.time := by simp only [State.time, State.wdgTurn_rd]
  unfold State.wdgCount
  rw [htime]
  unfold State.wdgTurn
  dsimp only
  split <;> simp [State.wdgCount]

theorem State.wdgShow_elapsed (s : State) (n k : Nat) (h : s.wdgCount (s.wdgAt n k) = 0) :
    (s.wdgShow n k).get (F.REGION_WDG_STS_elapsed n k) = 0 := by
  have hcount (f : RF) (hf : f.off = R.REGION_WDG_STS n k) (u : State) (v : Nat) : (u.put f v).wdgCount (u.wdgAt n k) = u.wdgCount (u.wdgAt n k) := by
    have htime : (u.put f v).time = u.time := by
      have hlo : R.SUP_TIME_LO ≠ f.off := by
        rw [hf]
        simp only [R.REGION_WDG_STS, R.SUP_TIME_LO]
        omega
      have hhi : R.SUP_TIME_HI ≠ f.off := by
        rw [hf]
        simp only [R.REGION_WDG_STS, R.SUP_TIME_HI]
        omega
      simp only [State.time, State.rd_put_ne u f v _ hlo, State.rd_put_ne u f v _ hhi]
    simp only [State.wdgCount, htime]
  unfold State.wdgShow State.putB
  dsimp only
  simp only [State.put_wdgAt]
  rw [← State.put_wdgAt s (F.REGION_WDG_STS_tapped n k) (if (s.tapStage n k).isSome = true then 1 else 0), hcount _ rfl, State.put_wdgAt, hcount _ rfl, h,
    Nat.min_zero]
  exact State.get_put_lit _ rfl

theorem State.wdgSync_elapsed (s : State) (n : Nat) {k : Nat} (hk : k < 32) (h : s.wdgAt n k = {}) :
    (s.wdgSync n).get (F.REGION_WDG_STS_elapsed n k) = 0 := by
  have hother : ∀ u : State, ∀ j ∈ List.range 32, j ≠ k →
      ((u.wdgTurn n j (u.wdgAt n j)).wdgShow n j).get (F.REGION_WDG_STS_elapsed n k) = u.get (F.REGION_WDG_STS_elapsed n k) := fun u j _ hj => by
    exact State.get_of_rd ((State.wdgShow_rd _ _ _ (wdgSts_ne hj)).trans (State.wdgTurn_rd _ _ _ _ _))
  obtain ⟨l₁, hl₁, heq⟩ := foldl_turn (fun u => u.get (F.REGION_WDG_STS_elapsed n k)) (List.mem_range.mpr hk) List.nodup_range hother s
  have hat : (l₁.foldl (fun u j => (u.wdgTurn n j (u.wdgAt n j)).wdgShow n j) s).wdgAt n k = {} := by
    rw [← h]
    exact foldl_kept (fun u => u.wdgAt n k) (by intro u j hj; exact State.wdgTurn_wdgAt_ne u n (hl₁ j hj).2.symm _) s
  refine heq.trans (State.wdgShow_elapsed _ n k ?_)
  rw [hat]
  exact State.wdgTurn_fresh _ n k

theorem State.wdgSync_ctl (s : State) (n k : Nat) {f : RF} (hf : f.off = R.REGION_WDG_CTL n k) : (s.wdgSync n).get f = s.get f := by
  simp only [State.get, hf, State.wdgSync_rd s n (fun j _ => wdgCtl_ne_sts n n j k)]

theorem completes_watchdogEnable (n : Fin 16) (k : Fin 32) (v : BitVec 32) (s : State) :
    Completes (.watchdogEnable n k v) s (fun t =>
      t.get (F.REGION_WDG_CTL_limit n k) = v.toNat % 2 ^ (F.REGION_WDG_CTL_limit n k).w ∧
      t.get (F.REGION_WDG_CTL_enable n k) = (if v.getLsbD 31 = true ∧ (s.tapStage n k).isSome = true then 1 else 0) ∧
      (v.getLsbD 31 = true → (s.tapStage n k).isSome = true → s.get (F.REGION_WDG_CTL_enable n k) = 0 →
        t.get (F.REGION_WDG_STS_elapsed n k) = 0)) := by
  refine ⟨s.wdgWrite n k v, rfl, ?_⟩
  have hset (u : State) (c : Bool) (f : RF) : (if c = true then u.setWdg n k {} else u).get f = u.get f := by cases c <;> rfl
  unfold State.wdgWrite
  dsimp only
  refine ⟨?_, ?_, fun h31 htap hoff => ?_⟩
  · rw [State.wdgSync_ctl _ n k rfl, hset]
    rw [State.get_putB_apart _ _ rfl, State.get_putB_apart _ _ rfl, State.get_putB_apart _ _ rfl, State.get_put_self _ _ rfl]
  · rw [State.wdgSync_ctl _ n k rfl, hset, State.get_putB _ _ rfl]
    simp only [Bool.and_eq_true]
  · refine State.wdgSync_elapsed _ n k.isLt ?_
    simp [h31, htap, State.on, hoff]

/-- The report of a watchdog without reaction (R65, R66). -/
theorem completes_watchdogStall {n : Fin 16} {k : Fin 32} {s : State} (hruns : s.wdgRuns n k (s.wdgAt n k) = true)
    (hlim : s.wdgLimit n k ≤ s.wdgCount (s.wdgAt n k) + 9) (hreact : s.get (F.REGION_WDG_CTL_reaction n k) = 0) :
    Completes (.watchdogStall n k) s (fun t => t.get (F.REGION_WDG_STS_stalled n k) = 1 ∧ t.logged 0x0340 (n.val * 256 + k.val) ∧
      (t.wdgAt n k).reported = true ∧ t.mode = s.mode) := by
  have hpage (f : RF) (hf : 0x22000 ≤ f.off) (u : State) (id p : Nat) : (u.raise id p).get f = u.get f := State.raise_getKept _ _ _ (eventReg_of_page hf)
  have hsts : 0x22000 ≤ (F.REGION_WDG_STS_stalled n k).off := Nat.le_add_right_of_le (Nat.le_add_right_of_le (by decide))
  have hctl : 0x22000 ≤ (F.REGION_WDG_CTL_reaction n k).off := Nat.le_add_right_of_le (Nat.le_add_right_of_le (by decide))
  have hoff (u : State) (f : RF) (hf : f.off = R.REGION_WDG_STS n k) (v : Nat) :
      (u.put f v).get (F.REGION_WDG_CTL_reaction n k) = u.get (F.REGION_WDG_CTL_reaction n k) :=
    State.get_put_off u f _ v (hf ▸ wdgCtl_ne_sts n n k k)
  have hwait : ¬ ((! s.wdgRuns n k (s.wdgAt n k) || decide (s.wdgCount (s.wdgAt n k) + 9 < s.wdgLimit n k)) = true) := by
    simp [hruns, Nat.not_lt.mpr hlim]
  refine ⟨_, if_neg hwait, ?_⟩
  have hlow (u : State) (v : Nat) : (u.put (F.REGION_WDG_STS_elapsed n k) v).get (F.REGION_WDG_STS_stalled n k) = u.get (F.REGION_WDG_STS_stalled n k) :=
    State.get_put_apart u v rfl
  have hone (u : State) : (u.put (F.REGION_WDG_STS_stalled n k) 1).get (F.REGION_WDG_STS_stalled n k) = 1 := State.get_put_lit u rfl
  have hwdg (w : Wdg) : (s.setWdg n k w).get (F.REGION_WDG_CTL_reaction n k) = 0 := hreact
  rw [if_neg (by simp [State.on, hpage _ hctl, hoff _ (F.REGION_WDG_STS_stalled n k) rfl, hoff _ (F.REGION_WDG_STS_elapsed n k) rfl, hwdg])]
  refine ⟨by rw [hpage _ hsts, hlow, hone], State.raise_logged _ _ _, ?_, by simp⟩
  simp [State.wdgAt]

/-- A segment of a long track disabled (R118). -/
def State.ltSwitchedOff (s : State) (key : Nat) : State :=
  { s with fab := { s.fab with ltOff := SMap.set (fun _ => false) s.fab.ltOff key true } }

/-- The count and the capture of a contention (R118). -/
def State.ltCaptured (s : State) (n : Nat) (vert : Bool) (line track seg : Nat) : State :=
  let s := s.sat (F.REGION_LT_FAULT_count n)
  if s.on (F.REGION_LT_FAULT_valid n) then s
  else
    let s := (s.put (F.REGION_LT_FAULT_track n) track).putB (F.REGION_LT_FAULT_vertical n) vert
    ((s.put (F.REGION_LT_FAULT_segment n) seg).put (F.REGION_LT_FAULT_line n) line).put (F.REGION_LT_FAULT_valid n) 1

theorem State.ltCaptured_spec (s : State) (n : Nat) (vert : Bool) (line track seg : Nat) :
    (s.ltCaptured n vert line track seg).fab = s.fab ∧
    (s.ltCaptured n vert line track seg).get (F.REGION_LT_CTL_reaction n) = s.get (F.REGION_LT_CTL_reaction n) ∧
    (s.ltCaptured n vert line track seg).get (F.REGION_LT_FAULT_count n) =
      min (s.get (F.REGION_LT_FAULT_count n) + 1) (2 ^ (F.REGION_LT_FAULT_count n).w - 1) ∧
    (s.ltCaptured n vert line track seg).get (F.REGION_LT_FAULT_valid n) = 1 := by
  have hoff (u : State) (f : RF) (v : Nat) (hf : f.off = R.REGION_LT_FAULT n) :
      (u.put f v).get (F.REGION_LT_CTL_reaction n) = u.get (F.REGION_LT_CTL_reaction n) :=
    State.get_put_off u f _ v (hf ▸ ne_of_base rfl rfl (by decide : 0x100A04 ≠ 0x100A08))
  unfold State.ltCaptured
  dsimp only
  split
  · next hv =>
    refine ⟨rfl, hoff _ _ _ rfl, State.get_sat _ _ rfl, ?_⟩
    have hbit := (s.sat (F.REGION_LT_FAULT_count n)).get_bit (F.REGION_LT_FAULT_valid n) rfl
    simp only [State.on, bne_iff_ne] at hv
    omega
  · refine ⟨rfl, ?_, ?_, State.get_put_lit _ rfl⟩
    · simp only [State.putB, State.sat, hoff _ (F.REGION_LT_FAULT_valid n) _ rfl, hoff _ (F.REGION_LT_FAULT_line n) _ rfl,
        hoff _ (F.REGION_LT_FAULT_segment n) _ rfl, hoff _ (F.REGION_LT_FAULT_vertical n) _ rfl, hoff _ (F.REGION_LT_FAULT_track n) _ rfl,
        hoff _ (F.REGION_LT_FAULT_count n) _ rfl]
    · rw [State.get_put_apart _ _ rfl, State.get_put_apart _ _ rfl, State.get_put_apart _ _ rfl, State.get_putB_apart _ _ rfl,
        State.get_put_apart _ _ rfl, State.get_sat _ _ rfl]

theorem completes_ltContention {n : Fin 16} {vert : Bool} {line : Fin 72} {track : Fin 24} {seg : Fin 4} {s : State}
    (hcont : s.contended (.track n vert line track seg) = true) (hreact : s.get (F.REGION_LT_CTL_reaction n) = 0) :
    Completes (.ltContention n vert line track seg) s (fun t =>
      SMap.get (fun _ => false) t.fab.ltOff (trackKey n vert line track seg) = true ∧ t.loggedSome 0x0342 ∧
      t.get (F.REGION_LT_FAULT_count n) = min (s.get (F.REGION_LT_FAULT_count n) + 1) (2 ^ (F.REGION_LT_FAULT_count n).w - 1) ∧
      t.get (F.REGION_LT_FAULT_valid n) = 1) := by
  have hpage (f : RF) (hf : 0x22000 ≤ f.off) (u : State) (id : Nat) : (u.raiseFree id).get f = u.get f := State.raiseFree_getKept _ _ (eventReg_of_page hf)
  have hvalid : 0x22000 ≤ (F.REGION_LT_FAULT_valid n).off := Nat.le_add_right_of_le (by decide)
  have hcount : 0x22000 ≤ (F.REGION_LT_FAULT_count n).off := Nat.le_add_right_of_le (by decide)
  have hctl : 0x22000 ≤ (F.REGION_LT_CTL_reaction n).off := Nat.le_add_right_of_le (by decide)
  obtain ⟨hfab, hr, hc, hv⟩ := (s.ltSwitchedOff (trackKey n vert line track seg)).ltCaptured_spec n vert line track seg
  have hstay : ¬ (((s.ltSwitchedOff (trackKey n vert line track seg)).ltCaptured n vert line track seg).raiseFree 0x0342).on (F.REGION_LT_CTL_reaction n) := by
    rw [State.on, hpage _ hctl, hr]
    have hzero : (s.ltSwitchedOff (trackKey n vert line track seg)).get (F.REGION_LT_CTL_reaction n) = 0 := hreact
    simp [hzero]
  refine ⟨((s.ltSwitchedOff (trackKey n vert line track seg)).ltCaptured n vert line track seg).raiseFree 0x0342, (if_neg (by simp [hcont])).trans (congrArg Host.Outcome.next (if_neg hstay)), ?_, State.raiseFree_loggedSome _ _,
    (hpage _ hcount _ _).trans hc, (hpage _ hvalid _ _).trans hv⟩
  rw [State.raiseFree_fab, hfab]
  exact SMap.get_set_same (fun _ => false) s.fab.ltOff _ true

/-- Settles O12: the enable, the report and the sensor, each by its own lemma; what does not hold its condition does nothing. -/
theorem watchdogsAndTrackSensorsReport : Obligations.WatchdogsAndTrackSensorsReport := by
  unfold Obligations.WatchdogsAndTrackSensorsReport
  refine ⟨completes_watchdogEnable, ?_, ?_⟩
  · intro n k s hen hheld hgroom hrep harm
    have hruns : s.wdgRuns n k (s.wdgAt n k) = true := by
      rcases harm with h | h <;> simp [State.wdgRuns, State.on, hen, hheld, hgroom, hrep, h]
    refine ⟨fun hlim hreact => completes_watchdogStall hruns hlim hreact, fun hlim => ⟨s, if_pos ?_, rfl⟩⟩
    simp [hlim]
  · intro n vert line track seg s
    exact ⟨fun hcont hreact => completes_ltContention hcont hreact, fun hcont => ⟨s, if_pos (by simp [hcont]), rfl⟩⟩

end Sys2Proof.Machine
end

section
/-! SUPPORT. What tokens in motion leave alone in the fabric: an acknowledge changes stages, joins, watchdogs and isolation counts, not a frame,
a slice or anything outside the fabric (R40, R70). -/

namespace Sys2Proof.Machine

/-- The state without what tokens in motion change. -/
def State.sansTokens (s : State) : State := { s with fab := { s.fab with nodes := [], joined := [], wdg := [], iso := [] } }

theorem foldl_sansTokens {α : Type} (f : State → α → State) (h : ∀ s a, (f s a).sansTokens = s.sansTokens) (l : List α) (s : State) :
    (l.foldl f s).sansTokens = s.sansTokens := foldl_kept State.sansTokens (fun s a _ => h s a) s

@[simp] theorem State.setNode_sansTokens (s : State) (x : Src) (nd : Node) : (s.setNode x nd).sansTokens = s.sansTokens := rfl
@[simp] theorem State.setJoined_sansTokens (s : State) (t : Tile) (l : List Dst) : (s.setJoined t l).sansTokens = s.sansTokens := rfl
@[simp] theorem State.setWdg_sansTokens (s : State) (n k : Nat) (w : Wdg) : (s.setWdg n k w).sansTokens = s.sansTokens := rfl
@[simp] theorem State.isoCount_sansTokens (s : State) (n e i : Nat) : (s.isoCount n e i).sansTokens = s.sansTokens := rfl

@[simp] theorem State.wdgTurn_sansTokens (s : State) (n k : Nat) (w : Wdg) : (s.wdgTurn n k w).sansTokens = s.sansTokens := by
  unfold State.wdgTurn
  dsimp only
  split <;> simp

@[simp] theorem State.wdgRestart_sansTokens (s : State) (n k : Nat) : (s.wdgRestart n k).sansTokens = s.sansTokens := by
  unfold State.wdgRestart
  dsimp only
  split <;> simp

@[simp] theorem State.wdgPulse_sansTokens (s : State) (t : Tile) (st : Nat) : (s.wdgPulse t st).sansTokens = s.sansTokens :=
  foldl_sansTokens _ (fun s k => by split <;> simp) _ s

@[simp] theorem State.leave_sansTokens (s : State) (x : Src) : (s.leave x).sansTokens = s.sansTokens := by
  cases x <;> simp [State.leave]

@[simp] theorem State.release_sansTokens (s : State) (t : Tile) (i : Nat) : (s.release t i).sansTokens = s.sansTokens := by
  unfold State.release
  dsimp only
  split <;> simp

section
variable {go : State → Dst → State} (hgo : ∀ s d, (go s d).sansTokens = s.sansTokens)
include hgo

theorem State.ackDone_sansTokens (s : State) (x : Src) (acked : List Dst) : (s.ackDone go x acked).sansTokens = s.sansTokens := by
  have hports (t : Tile) (i : Nat) (ps : List Nat) (u : State) :
      (ps.foldl (fun s p => go s (.port t i p)) u).sansTokens = u.sansTokens := foldl_sansTokens _ (fun s p => hgo s _) ps u
  unfold State.ackDone
  split
  · simp
  · cases x with
    | cell t i => dsimp only; split <;> simp [hports]
    | _ => simp [hgo]

theorem State.ackOne_sansTokens (s : State) (d : Dst) : (s.ackOne go d).sansTokens = s.sansTokens := by
  unfold State.ackOne
  split
  · rfl
  · dsimp only
    split
    · exact State.ackDone_sansTokens hgo s _ _
    · simp

theorem State.ackJoin_sansTokens (s : State) (t : Tile) (i p : Nat) (ms : List Dst) :
    (s.ackJoin go t i p ms).sansTokens = s.sansTokens := by
  have hone := State.ackOne_sansTokens hgo
  have hall (ds : List Dst) (u : State) : (ds.foldl (fun s e => s.ackOne go e) u).sansTokens = u.sansTokens := foldl_sansTokens _ hone ds u
  unfold State.ackJoin
  dsimp only
  (repeat' split) <;> simp [hone, hall]

end

theorem State.ack_sansTokens (f : Nat) : ∀ (s : State) (d : Dst), (s.ack f d).sansTokens = s.sansTokens := by
  induction f with
  | zero => intro s d; rfl
  | succ f ih =>
    intro s d
    unfold State.ack
    split
    · exact State.ackOne_sansTokens ih s d
    · split
      · exact State.ackJoin_sansTokens ih s _ _ _ _
      · rfl

@[simp] theorem State.ackDst_sansTokens (s : State) (d : Dst) : (s.ackDst d).sansTokens = s.sansTokens := State.ack_sansTokens _ s d

@[simp] theorem State.ackIn_sansTokens (s : State) (ch : Chan) (n : Nat) : (s.ackIn ch n).sansTokens = s.sansTokens :=
  foldl_sansTokens _ (fun s _ => State.ackDst_sansTokens s _) _ s

@[simp] theorem State.offerOut_sansTokens (s : State) (ch : Chan) (ds : List Nat) : (s.offerOut ch ds).sansTokens = s.sansTokens :=
  foldl_sansTokens _ (fun s _ => State.setNode_sansTokens s _ _) _ s

/-! ## What may be read of it -/

/-- The loop of offers stops where its list does. -/
theorem State.of_sansTokens {β : Type} {s t : State} (h : t.sansTokens = s.sansTokens) (p : State → β) (hp : ∀ u, p u.sansTokens = p u) : p t = p s := by
  rw [← hp t, h, hp]

@[simp] theorem State.ackIn_frames (s : State) (ch : Chan) (n : Nat) : (s.ackIn ch n).fab.frames = s.fab.frames :=
  State.of_sansTokens (s.ackIn_sansTokens ch n) (fun u => u.fab.frames) fun _ => rfl

@[simp] theorem State.offerOut_frames (s : State) (ch : Chan) (ds : List Nat) : (s.offerOut ch ds).fab.frames = s.fab.frames :=
  State.of_sansTokens (s.offerOut_sansTokens ch ds) (fun u => u.fab.frames) fun _ => rfl

@[simp] theorem State.offerOut_slices (s : State) (ch : Chan) (ds : List Nat) : (s.offerOut ch ds).fab.slices = s.fab.slices :=
  State.of_sansTokens (s.offerOut_sansTokens ch ds) (fun u => u.fab.slices) fun _ => rfl

@[simp] theorem State.offerOut_regs (s : State) (ch : Chan) (ds : List Nat) : (s.offerOut ch ds).regs = s.regs :=
  State.of_sansTokens (s.offerOut_sansTokens ch ds) (fun u => u.regs) fun _ => rfl

/-- What is read of the configuration depends on the frames alone. -/
theorem State.vget_congr {s t : State} (h : t.fab.frames = s.fab.frames) (n col off w : Nat) : t.vget n col off w = s.vget n col off w := by
  simp only [State.vget, State.frame, h]

theorem State.firnF_congr {s t : State} (h : t.fab.frames = s.fab.frames) (n f b lo w : Nat) : t.firnF n f b lo w = s.firnF n f b lo w :=
  State.vget_congr h _ _ _ _

theorem State.firnRow_congr {s t : State} (h : t.fab.frames = s.fab.frames) (n f b row : Nat) : t.firnRow n f b row = s.firnRow n f b row := by
  simp only [State.firnRow, State.vget_congr h]

theorem State.firnDigits_congr {s t : State} (h : t.fab.frames = s.fab.frames) (n f b : Nat) : t.firnDigits n f b = s.firnDigits n f b := by
  simp only [State.firnDigits, State.firnF_congr h]

theorem State.firnEcc_congr {s t : State} (h : t.fab.frames = s.fab.frames) (n f b : Nat) : t.firnEcc n f b = s.firnEcc n f b := by
  simp only [State.firnEcc, State.firnF_congr h]

/-! ## SPROCKET (R128) -/

@[simp] theorem State.slice_setSlice (s : State) (n c sl : Nat) (x : SliceSt) : (s.setSlice n c sl x).slice n c sl = x := by
  simp [State.slice, State.setSlice]

theorem State.slice_congr {s t : State} (hs : t.fab.slices = s.fab.slices) (hf : t.fab.frames = s.fab.frames) (n c sl : Nat) :
    t.slice n c sl = s.slice n c sl := by
  simp only [State.slice, hs, State.sliceF, State.vget_congr hf]

@[simp] theorem State.slice_offerOut (s : State) (n c sl : Nat) (ch : Chan) (ds : List Nat) : (s.offerOut ch ds).slice n c sl = s.slice n c sl :=
  State.slice_congr (by simp) (by simp) n c sl

/-- The step of a slice that may take its operands. -/
theorem execSprocketMac_slice {n : Fin 16} {c : Fin 4} {sl : Fin 60} {a : MacIn} {s : State} (hready : s.macReady n c sl = true)
    (hin : s.macIn n c sl = some a) : Completes (.sprocketMac n c sl) s (fun t => t.slice n c sl = (s.macOut n c sl a).1) := by
  show ∃ t, execSprocketMac n c sl s = .next t ∧ _
  simp only [execSprocketMac, hready, hin, Bool.not_true, Bool.false_eq_true, if_false]
  refine ⟨_, rfl, ?_⟩
  split <;> split <;> simp

/-- Accumulation with plain operands (R128): the exact product is added. -/
theorem State.macOut_acc {s : State} {n c sl : Nat} {a : MacIn} (hpre : s.sliceF n c sl 4 1 = 0) (hbase : s.sliceF n c sl 8 2 = 1)
    (hneg : s.sliceF n c sl 10 1 = 0) (hop : a.op = 0) :
    (s.macOut n c sl a).1.acc = acc64 (s.sliceF n c sl 11 1 == 1)
      ((s.slice n c sl).acc.toInt + signedIf (s.sliceF n c sl 1 1 == 1) 27 a.u * signedIf (s.sliceF n c sl 2 1 == 1) 24 a.k) := by
  simp [State.macOut, hpre, hbase, hneg, hop]

/-- Settles O13: `macOut` in accumulation, and the calibration of a slice. -/
theorem sprocketAccumulatesExactProducts : Obligations.SprocketAccumulatesExactProducts := by
  unfold Obligations.SprocketAccumulatesExactProducts
  refine ⟨?_, ?_⟩
  · intro n c sl a s hready hin hpre hbase hneg hop
    obtain ⟨t, hexec, hslice⟩ := execSprocketMac_slice hready hin
    exact ⟨t, hexec, (congrArg SliceSt.acc hslice).trans (State.macOut_acc hpre hbase hneg hop)⟩
  · intro n c sl s hset hon hstop
    have hrun : ¬ (s.fab.setReset.getLsbD n ∨ s.sliceF n c sl 0 1 = 0 ∨ (s.slice n c sl).stopped) := by simp only [hset, hon, hstop]; decide
    refine ⟨⟨_, (if_neg hrun).trans (if_pos rfl), by rw [State.slice_setSlice], rfl⟩, ?_⟩
    have hslice (u : State) (id kind inst pos cause : Nat) : ((u.raiseFree id).morReport kind inst pos cause).slice n c sl = u.slice n c sl :=
      State.slice_congr (by unfold State.morReport; split <;> simp) (by unfold State.morReport; split <;> simp) _ _ _
    have hlog (u : State) (id kind inst pos cause : Nat) : ((u.raiseFree id).morReport kind inst pos cause).loggedSome id := by
      unfold State.morReport
      split
      · exact State.raiseFree_loggedSome _ _
      · exact State.raiseFree_loggedSome _ _
    refine ⟨_, (if_neg hrun).trans (if_neg (by decide)), ?_, ?_, hlog _ _ _ _ _ _⟩
    · rw [hslice]
      split <;> simp [State.slice, State.sat, State.setSlice]
    · rw [hslice]
      split <;> simp [State.slice, State.sat, State.setSlice]

/-! ## FIRN (R135 to R139) -/

theorem State.firnReq_eq {s : State} {n f b p : Nat} {c : FirnCmd} (hon : s.fabOn n = true) (hfree : s.chanFree (.firn n f b (2 * p + 1)) = true)
    (hcmd : s.firnCmd n f b p = some c) (hwen : c.write = true → s.fab.wen.getLsbD n = true) : s.firnReq n f b p = some c := by
  have hpass : (! c.write || s.fab.wen.getLsbD n) = true := by
    cases hw : c.write
    · rfl
    · rw [hwen hw]
      rfl
  simp only [State.firnReq, hon, hfree, hcmd, Bool.not_true, Bool.or_self, Bool.false_eq_true, if_false, Option.filter_some, hpass, if_true]

@[simp] theorem State.firnUpset_zero (s : State) (n f b row : Nat) : s.firnUpset n f b row 0 = s := if_pos rfl

/-- The state after a port has taken its command from the fabric. -/
def State.firnTaken (s : State) (n f b p : Nat) : State := s.ackIn (.firn n f b (2 * p)) (s.chanDigits (.firn n f b (2 * p)))

theorem State.firnTaken_frames (s : State) (n f b p : Nat) : (s.firnTaken n f b p).fab.frames = s.fab.frames := s.ackIn_frames _ _

/-- A READ that collides with nothing (R135, R136). -/
theorem State.firnAccess_read {s : State} {n f b p : Nat} {c : FirnCmd} (hreq : s.firnReq n f b p = some c) (hw : c.write = false)
    (hcoll : s.firnCollides n f b p c = false) :
    s.firnAccess n f b p false 0 =
      ((s.firnTaken n f b p).firnError n f b (s.firnRowOf n f b c.word) p (s.firnWord n f b (s.firnRowOf n f b c.word) c.word).2).offerOut
        (.firn n f b (2 * p + 1)) (digitsOf (s.firnDigits n f b) (s.firnWord n f b (s.firnRowOf n f b c.word) c.word).1 ++
          (if s.firnF n f b (11 + 8 * p) 1 = 1 then [(s.firnWord n f b (s.firnRowOf n f b c.word) c.word).2] else [])) := by
  have hframes := s.firnTaken_frames n f b p
  unfold State.firnAccess
  simp only [hreq, hw, hcoll, State.firnUpset_zero, ne_eq, not_true_eq_false, Bool.false_eq_true, false_and, or_self, if_false]
  rw [← State.firnTaken, State.firnDigits_congr hframes, State.firnF_congr hframes]

/-- A WRITE that collides with nothing (R135, R137). -/
theorem State.firnAccess_write {s : State} {n f b p : Nat} {c : FirnCmd} (hreq : s.firnReq n f b p = some c) (hw : c.write = true)
    (hcoll : s.firnCollides n f b p c = false) :
    (s.firnAccess n f b p true 0).fab.frames =
      ((s.firnTaken n f b p).firnPut n f b (s.firnRowOf n f b c.word) c.word c.data).fab.frames := by
  unfold State.firnAccess
  simp only [hreq, hw, hcoll, State.firnUpset_zero, ne_eq, not_true_eq_false, Bool.false_eq_true, false_and, or_self, if_false, if_true,
    State.offerOut_frames, State.firnTaken]

theorem State.firnWord_status {s : State} {n f b : Nat} (hecc : s.firnEcc n f b = false) (row word : Nat) : (s.firnWord n f b row word).2 = 0 := by
  simp [State.firnWord, hecc]

@[simp] theorem State.firnDrift_frames (s : State) (n f b row : Nat) (d : BitVec 72) : (s.firnDrift n f b row d).fab.frames = s.fab.frames := by
  unfold State.firnDrift
  dsimp only
  split <;> rfl

theorem State.firnDrift_get (s : State) (n f b row : Nat) (d : BitVec 72) (g : RF) : (s.firnDrift n f b row d).get g = s.get g := by
  have hflt (x : Flt) : ({ s with flt := x } : State).get g = s.get g := rfl
  unfold State.firnDrift
  split
  · rfl
  · exact hflt _

@[simp] theorem State.morReport_fab (s : State) (kind inst pos cause : Nat) : (s.morReport kind inst pos cause).fab = s.fab := by
  unfold State.morReport
  split <;> rfl

theorem State.morReport_get (s : State) (kind inst pos cause : Nat) (g : RF) : (s.morReport kind inst pos cause).get g = s.get g := by
  unfold State.morReport
  split <;> rfl

@[simp] theorem State.rowRewritten_frames (s : State) (n f b row : Nat) : (s.rowRewritten n f b row).fab.frames = s.fab.frames := by
  unfold State.rowRewritten
  dsimp only
  split <;> simp

theorem State.rowRewritten_get (s : State) (n f b row : Nat) (g : RF) : (s.rowRewritten n f b row).get g = s.get g := by
  unfold State.rowRewritten
  dsimp only
  split
  · exact State.morReport_get _ _ _ _ _ _
  · rfl

theorem State.vset_get (s : State) (n col off w v : Nat) (g : RF) : (s.vset n col off w v).get g = s.get g := by
  have hframe (u : State) (a : Nat) (x : Frame) : (u.setFrame a x).get g = u.get g := rfl
  unfold State.vset
  dsimp only
  split
  · exact hframe _ _ _
  · exact (hframe _ _ _).trans (hframe _ _ _)

/-- A row that is read with a corrected error is written back and counted (R139). -/
theorem State.scrubRow_corrected {s : State} {n f b row : Nat} (h : (eccRead (s.firnRow n f b row)).2 = 1) :
    (s.scrubRow n f b row 0).fab.frames = (s.setFirnRow n f b row (eccRow (eccRead (s.firnRow n f b row)).1)).fab.frames ∧
    (s.scrubRow n f b row 0).get (F.REGION_FIRN_ECC_corrected n) =
      min (s.get (F.REGION_FIRN_ECC_corrected n) + 1) (2 ^ (F.REGION_FIRN_ECC_corrected n).w - 1) := by
  have hpage : 0x22000 ≤ (F.REGION_FIRN_ECC_corrected n).off := Nat.le_add_right_of_le (by decide)
  unfold State.scrubRow
  simp only [State.firnUpset_zero, h, if_true, State.firnError]
  refine ⟨by simp [State.sat], ?_⟩
  rw [State.raiseFreeLim_getKept _ _ _ _ (eventReg_of_page hpage), State.get_sat _ _ rfl, State.rowRewritten_get, State.firnDrift_get]
  exact congrArg (fun x => min (x + 1) _) (s.vset_get _ _ _ _ _ _)

/-- A row that is read without an error is left (R139). -/
theorem State.scrubRow_clean {s : State} {n f b row : Nat} (h : (eccRead (s.firnRow n f b row)).2 = 0) : s.scrubRow n f b row 0 = s := by
  unfold State.scrubRow
  simp only [State.firnUpset_zero, h, State.firnError, if_neg (by decide : ¬ (0 = 1))]

/-- A scrub of a row other than the last of a pass. -/
theorem exec_firnScrubRow {n : Fin 16} {f : Fin 2} {b : Fin 72} {row : Fin 512} {s : State} (hen : s.get (F.REGION_MSCRUB_enable n) = 1)
    (hecc : s.firnEcc n f b = true) (hcut : s.cut n = false) (hlast : ¬ (f.val = 1 ∧ b.val = 71 ∧ row.val = 511)) :
    exec (.firnScrubRow n f b row 0) s = .next (s.scrubRow n f b row 0) := by
  show execFirnScrubRow n f b row 0 s = _
  simp only [execFirnScrubRow, State.on, hen, hcut, hecc, if_neg hlast, if_true]
  rfl

/-- Settles O14: READ, WRITE and scrub by what `firnAccess` and `scrubRow` do where nothing collides. -/
theorem firnPortsReadAndWriteTheirWord : Obligations.FirnPortsReadAndWriteTheirWord := by
  unfold Obligations.FirnPortsReadAndWriteTheirWord
  refine ⟨?_, ?_, ?_, ?_, ?_⟩
  · intro n f b p c s hon hfree hcmd hw hcoll hecc hstatus
    have hread := State.firnAccess_read (State.firnReq_eq hon hfree hcmd (by simp [hw])) hw hcoll
    refine ⟨_, rfl, hread.trans ?_⟩
    rw [State.firnWord_status hecc, hstatus]
    simp only [State.firnError, if_neg (by decide : ¬ (0 = 1)), List.append_nil]
    rfl
  · intro n f b p c s hon hfree hcmd hw hcoll
    exact ⟨_, rfl, State.firnAccess_read (State.firnReq_eq hon hfree hcmd (by simp [hw])) hw hcoll⟩
  · intro n f b p c s hon hfree hcmd hw hcoll hwen
    exact ⟨_, rfl, State.firnAccess_write (State.firnReq_eq hon hfree hcmd fun _ => hwen) hw hcoll⟩
  · intro n f b row s hen hecc hcut hclean hlast
    exact ⟨_, exec_firnScrubRow hen hecc hcut hlast, State.scrubRow_clean hclean⟩
  · intro n f b row s hen hecc hcut herr hlast
    exact ⟨_, exec_firnScrubRow hen hecc hcut hlast, State.scrubRow_corrected herr⟩

end Sys2Proof.Machine
end

section
/-! SUPPORT. Fields of one unit of a page: registers at different bases, and registers below a page. -/

namespace Sys2Proof.Machine

theorem apart_base {f g : RF} {a b x : Nat} (hf : f.off = a + x) (hg : g.off = b + x) (h : (a == b) = false) : f.apart g = true := by
  have hne : g.off ≠ f.off := by
    have hab : a ≠ b := by simpa using h
    omega
  simp [RF.apart, hne]

/-- A field of a page and a field below it. -/
theorem apart_below {f g : RF} {a x : Nat} (hf : f.off = a + x) (h : Nat.ble a g.off = false) : f.apart g = true := by
  have hne : g.off ≠ f.off := by
    have hlt : ¬ a ≤ g.off := fun hle => by simp [Nat.ble_eq_true_of_le hle] at h
    omega
  simp [RF.apart, hne]

theorem apart_symm {f g : RF} (h : f.apart g = true) : g.apart f = true := by
  simp only [RF.apart, Bool.or_eq_true, Bool.and_eq_true, decide_eq_true_eq, bne_iff_ne] at h ⊢
  rcases h with ⟨⟨hf, hg⟩, hd⟩ | hne
  · exact Or.inl ⟨⟨hg, hf⟩, hd.symm⟩
  · exact Or.inr hne.symm

/-- Registers of one array at different places. -/
theorem apart_index {f g : RF} {a d i j : Nat} (hf : f.off = a + d * i) (hg : g.off = a + d * j) (hd : Nat.ble 1 d = true) (hij : i ≠ j) :
    f.apart g = true := by
  have hne : g.off ≠ f.off := by
    rw [hf, hg]
    intro he
    exact hij (Nat.eq_of_mul_eq_mul_left (Nat.le_of_ble_eq_true hd) (Nat.add_left_cancel he)).symm
  simp [RF.apart, hne]

end Sys2Proof.Machine
end

section
/-! SUPPORT. R154 to R172: the commits of the crossing queues, what each stores, takes out and counts. -/

namespace Sys2Proof.Machine

@[simp] theorem State.xqQ_setXq (s : State) (q : Nat) (x : Xq) : (s.setXq q x).xqQ q = x := SMap.get_set_same _ _ _ _

theorem State.xqQ_congr {s t : State} (h : t.xq = s.xq) (q : Nat) : t.xqQ q = s.xqQ q := by simp only [State.xqQ, h]

@[simp] theorem State.put_xqQ (s : State) (f : RF) (v q : Nat) : (s.put f v).xqQ q = s.xqQ q := Eq.trans rfl rfl
@[simp] theorem State.putB_xqQ (s : State) (f : RF) (b : Bool) (q : Nat) : (s.putB f b).xqQ q = s.xqQ q := Eq.trans rfl rfl
@[simp] theorem State.inc_xqQ (s : State) (f : RF) (v q : Nat) : (s.inc f v).xqQ q = s.xqQ q := Eq.trans rfl rfl
@[simp] theorem State.sat_xqQ (s : State) (f : RF) (v q : Nat) : (s.sat f v).xqQ q = s.xqQ q := Eq.trans rfl rfl
@[simp] theorem State.xqSync_xqQ (s : State) (q r : Nat) : (s.xqSync q).xqQ r = s.xqQ r := Eq.trans rfl rfl
@[simp] theorem State.putB_fab (s : State) (f : RF) (b : Bool) : (s.putB f b).fab = s.fab := Eq.trans rfl rfl
@[simp] theorem State.inc_fab (s : State) (f : RF) (v : Nat) : (s.inc f v).fab = s.fab := Eq.trans rfl rfl
@[simp] theorem State.sat_fab (s : State) (f : RF) (v : Nat) : (s.sat f v).fab = s.fab := Eq.trans rfl rfl
@[simp] theorem State.xqSync_xq (s : State) (q : Nat) : (s.xqSync q).xq = s.xq := Eq.trans rfl rfl
@[simp] theorem State.xqSync_fab (s : State) (q : Nat) : (s.xqSync q).fab = s.fab := Eq.trans rfl rfl
@[simp] theorem State.raiseFree_xqQ (s : State) (id q : Nat) : (s.raiseFree id).xqQ q = s.xqQ q := State.xqQ_congr (by simp) q

/-- The fields that follow the depth are five of the status register; every other field stays (R164). -/
theorem State.xqSync_get (s : State) (q : Nat) {g : RF} (hw : (F.XQ_STS_wview q).apart g = true) (hr : (F.XQ_STS_rview q).apart g = true)
    (hf : (F.XQ_STS_full q).apart g = true) (he : (F.XQ_STS_empty q).apart g = true) (hl : (F.XQ_STS_level q).apart g = true) :
    (s.xqSync q).get g = s.get g := by
  unfold State.xqSync
  rw [State.get_putB_apart _ _ hl, State.get_putB_apart _ _ he, State.get_putB_apart _ _ hf, State.get_put_apart _ _ hr, State.get_put_apart _ _ hw]

theorem State.xqSync_pushed (s : State) (q : Nat) : (s.xqSync q).get (F.XQ_PUSHED_count q) = s.get (F.XQ_PUSHED_count q) :=
  s.xqSync_get q (apart_base rfl rfl rfl) (apart_base rfl rfl rfl) (apart_base rfl rfl rfl) (apart_base rfl rfl rfl) (apart_base rfl rfl rfl)

theorem State.xqSync_popped (s : State) (q : Nat) : (s.xqSync q).get (F.XQ_POPPED_count q) = s.get (F.XQ_POPPED_count q) :=
  s.xqSync_get q (apart_base rfl rfl rfl) (apart_base rfl rfl rfl) (apart_base rfl rfl rfl) (apart_base rfl rfl rfl) (apart_base rfl rfl rfl)

theorem State.xqSync_offer (s : State) (q : Nat) : (s.xqSync q).get (F.XQ_STS_offer q) = s.get (F.XQ_STS_offer q) :=
  s.xqSync_get q rfl rfl rfl rfl rfl

theorem State.xqSync_open_w (s : State) (q : Nat) : (s.xqSync q).get (F.XQ_STS_open_w q) = s.get (F.XQ_STS_open_w q) :=
  s.xqSync_get q rfl rfl rfl rfl rfl

theorem xqReg_page (q : Nat) {f : RF} {a : Nat} (hf : f.off = a + 0x400 * q) (ha : Nat.ble 0x22000 a = true) : 0x22000 ≤ f.off :=
  hf ▸ Nat.le_add_right_of_le (Nat.le_of_ble_eq_true ha)

/-! ## Pushes -/

/-- A push outside discard mode, or of an soi, is stored (R161). -/
theorem State.xqPush_stored {s : State} {q : Nat} {d : BitVec 128} {sb : BitVec 16} (h : (s.xqQ q).discard = false) :
    ((s.xqPush q d sb).xqQ q).words = (s.xqQ q).words ++ [xword d sb] ∧
    (s.xqPush q d sb).get (F.XQ_PUSHED_count q) = (s.get (F.XQ_PUSHED_count q) + 1) % 2 ^ 32 ∧
    (s.xqPush q d sb).get (F.XQ_STS_open_w q) = if sb.getLsbD 1 then 0 else 1 := by
  have hcount (u : State) : (u.inc (F.XQ_PUSHED_count q)).get (F.XQ_PUSHED_count q) = (u.get (F.XQ_PUSHED_count q) + 1) % 2 ^ 32 :=
    State.get_inc _ _ rfl
  unfold State.xqPush
  simp only [h, Bool.false_and, Bool.false_eq_true, if_false, State.xqStore]
  refine ⟨by simp, ?_, ?_⟩
  · rw [State.xqSync_pushed, hcount, State.setXq_get, State.get_putB_apart _ _ (apart_base rfl rfl rfl), State.setXq_get]
  · rw [State.xqSync_open_w, State.get_inc_apart _ _ (apart_base rfl rfl rfl), State.setXq_get, State.get_putB _ _ rfl, sbEoi]
    cases sb.getLsbD 1 <;> rfl

/-- In discard mode a word that is no soi is counted and not stored (R172). -/
theorem State.xqPush_discarded {s : State} {q : Nat} {d : BitVec 128} {sb : BitVec 16} (h : (s.xqQ q).discard = true) (hsb : sb.getLsbD 0 = false) :
    ((s.xqPush q d sb).xqQ q).words = (s.xqQ q).words ∧
    (s.xqPush q d sb).get (F.XQ_DISCARD_count q) = (s.get (F.XQ_DISCARD_count q) + 1) % 2 ^ 32 := by
  have hcount (u : State) : (u.inc (F.XQ_DISCARD_count q)).get (F.XQ_DISCARD_count q) = (u.get (F.XQ_DISCARD_count q) + 1) % 2 ^ 32 :=
    State.get_inc _ _ rfl
  unfold State.xqPush
  simp only [h, sbSoi, hsb, Bool.not_false, Bool.and_self, if_true]
  split
  · refine ⟨by simp, ?_⟩
    rw [State.raiseFree_getKept _ _ (eventReg_of_page (xqReg_page q rfl rfl)), hcount, State.setXq_get]
  · exact ⟨by simp, by rw [hcount, State.setXq_get]⟩

/-! ## Pops -/

/-- A pop takes the oldest word, keeps it as the last one read, and counts it (R160, R168). -/
theorem State.xqPop_spec {s : State} {q : Nat} {w : XWord} {ws : List XWord} (h : (s.xqQ q).words = w :: ws) :
    ((s.xqPop q).xqQ q).words = ws ∧ ((s.xqPop q).xqQ q).last = some w.read ∧
    (s.xqPop q).get (F.XQ_POPPED_count q) = (s.get (F.XQ_POPPED_count q) + 1) % 2 ^ 32 ∧
    (s.xqPop q).get (F.XQ_STS_offer q) = s.get (F.XQ_STS_offer q) ∧ (s.xqPop q).fab = s.fab := by
  have hcount (u : State) : (u.inc (F.XQ_POPPED_count q)).get (F.XQ_POPPED_count q) = (u.get (F.XQ_POPPED_count q) + 1) % 2 ^ 32 :=
    State.get_inc _ _ rfl
  have hopenp (u : State) (b : Bool) : (u.putB (F.XQ_STS_open_r q) b).get (F.XQ_POPPED_count q) = u.get (F.XQ_POPPED_count q) :=
    State.get_putB_apart _ _ (apart_base rfl rfl rfl)
  have hopeno (u : State) (b : Bool) : (u.putB (F.XQ_STS_open_r q) b).get (F.XQ_STS_offer q) = u.get (F.XQ_STS_offer q) :=
    State.get_putB_apart _ _ rfl
  have hinc (u : State) : (u.inc (F.XQ_POPPED_count q)).get (F.XQ_STS_offer q) = u.get (F.XQ_STS_offer q) :=
    State.get_inc_apart _ _ (apart_base rfl rfl rfl)
  unfold State.xqPop
  simp only [h]
  split
  · refine ⟨by simp, by simp, ?_, ?_, by simp⟩
    · rw [State.xqSync_popped, hopenp, hcount, State.setXq_get]
    · rw [State.xqSync_offer, hopeno, hinc, State.setXq_get]
  · refine ⟨by simp, by simp, ?_, ?_, by simp⟩
    · rw [State.raiseFree_getKept _ _ (eventReg_of_page (xqReg_page q rfl rfl)), State.get_sat_apart _ _ (apart_base rfl rfl rfl),
        State.xqSync_popped, hopenp, hcount, State.setXq_get]
    · rw [State.raiseFree_getKept _ _ (eventReg_of_page (xqReg_page q rfl rfl)), State.get_sat_apart _ _ (apart_base rfl rfl rfl),
        State.xqSync_offer, hopeno, hinc, State.setXq_get]

/-! ## Upsets -/

theorem State.xqUpset_get (s : State) (q : Nat) (flips : BitVec 128) (f : RF) : (s.xqUpset q flips).get f = s.get f := by
  unfold State.xqUpset
  dsimp only
  split <;> rfl

theorem State.xqUpset_fab (s : State) (q : Nat) (flips : BitVec 128) : (s.xqUpset q flips).fab = s.fab := by
  unfold State.xqUpset
  dsimp only
  split <;> rfl

/-- No upset leaves the queue as it is. -/
theorem State.xqUpset_zero (s : State) (q : Nat) : (s.xqUpset q 0).xqQ q = s.xqQ q := by
  unfold State.xqUpset
  dsimp only
  split
  · rfl
  · next w ws hw =>
    have hdata : w.data ^^^ 0 = w.data := BitVec.xor_zero
    rw [State.xqQ_setXq, hdata, ← hw]

end Sys2Proof.Machine
end
section
/-! SUPPORT. R325: a word sent on the lanes of a group changes the lanes and their groups, nothing else. -/

namespace Sys2Proof.Machine

/-- The state without its lanes and groups. -/
def State.sansLanes (s : State) : State := { s with lane := [], grp := [] }

@[simp] theorem State.setLane_sansLanes (s : State) (n : Nat) (x : Lane) : (s.setLane n x).sansLanes = s.sansLanes := rfl
@[simp] theorem State.setGrp_sansLanes (s : State) (g : Nat) (x : Grp) : (s.setGrp g x).sansLanes = s.sansLanes := rfl
@[simp] theorem State.laneItem_sansLanes (s : State) (n : Nat) (it : LaneItem) : (s.laneItem n it).sansLanes = s.sansLanes := rfl
@[simp] theorem State.stripeLane_sansLanes (s : State) (g : Nat) : (s.stripeLane g).2.sansLanes = s.sansLanes := rfl
@[simp] theorem State.laneBlock_sansLanes (s : State) (n : Nat) (ctl : Bool) (w : BitVec 64) : (s.laneBlock n ctl w).sansLanes = s.sansLanes := rfl

@[simp] theorem State.laneFiller_sansLanes (s : State) (n : Nat) : (s.laneFiller n).sansLanes = s.sansLanes := by
  unfold State.laneFiller
  split <;> simp

@[simp] theorem State.laneSlot_sansLanes (s : State) (n : Nat) : (s.laneSlot n).sansLanes = s.sansLanes := by
  unfold State.laneSlot
  dsimp only
  split
  · rfl
  · split
    · rfl
    · rw [State.setLane_sansLanes]
      exact foldl_kept State.sansLanes (by intro u m _; simp) s

@[simp] theorem State.laneChar_sansLanes (s : State) (n : Nat) (k : Bool) (b : Byte) : (s.laneChar n k b).sansLanes = s.sansLanes := by
  simp [State.laneChar]

@[simp] theorem State.laneData_sansLanes (s : State) (n : Nat) (ctl : Bool) (w : BitVec 64) : (s.laneData n ctl w).sansLanes = s.sansLanes := by
  simp [State.laneData]

theorem State.laneWord_sansLanes (s : State) (g : Nat) (d : BitVec 128) (sb : BitVec 16) : (s.laneWord g d sb).sansLanes = s.sansLanes := by
  have hat (u : State) (c : Bool) (k : Nat) : (if c = true then u.stripeLane g else (k, u)).2.sansLanes = u.sansLanes := by cases c <;> rfl
  unfold State.laneWord
  dsimp only
  split
  · exact State.laneItem_sansLanes _ _ _
  · split
    · exact foldl_kept State.sansLanes (by intro u c _; simp only [State.laneChar_sansLanes, hat]) s
    · split <;> simp only [State.laneData_sansLanes, hat]

theorem State.laneWord_xqQ (s : State) (g : Nat) (d : BitVec 128) (sb : BitVec 16) (q : Nat) : (s.laneWord g d sb).xqQ q = s.xqQ q :=
  show (s.laneWord g d sb).sansLanes.xqQ q = s.sansLanes.xqQ q by rw [State.laneWord_sansLanes]

theorem State.laneWord_get (s : State) (g : Nat) (d : BitVec 128) (sb : BitVec 16) (f : RF) : (s.laneWord g d sb).get f = s.get f :=
  show (s.laneWord g d sb).sansLanes.get f = s.sansLanes.get f by rw [State.laneWord_sansLanes]

end Sys2Proof.Machine
end

section
/-! SUPPORT. R154 to R172: the commands that push and pop. -/

namespace Sys2Proof.Machine

theorem State.xqTakes_of_room {s : State} {q : Nat} (h : (s.xqQ q).words.length < 512) (sb : BitVec 16) : s.xqTakes q sb = true := by
  simp [State.xqTakes, h]

/-- A push of a bound block that is no user group, with nothing held back, is the push of its queue where that takes it. -/
theorem completes_xqPushClocked {q : Fin 32} {d : BitVec 128} {sb : BitVec 16} {k i v : Nat} {s : State} (hbound : s.xqBound q = some (k, i, v))
    (hk : k ≠ 3) (hwait : (s.xqQ q).wait = []) (hstop : s.xqStopped q = false) (hclk : s.xqClocked q true = true)
    (htakes : s.xqTakes q (sb &&& 0xFF0F) = true) {P : State → Prop} (hP : P (s.xqPush q d (sb &&& 0xFF0F))) :
    Completes (.xqPushClocked q d sb) s P := by
  refine ⟨s.xqPush q d (sb &&& 0xFF0F), ?_, hP⟩
  show execXqPushClocked q d sb s = _
  unfold execXqPushClocked
  rw [hbound]
  split
  · next heq => exact absurd (congrArg Prod.fst (Option.some.inj heq)) hk
  · simp only [hwait, List.isEmpty_nil, if_true, State.xqClockedPush, hstop, hclk, htakes, Bool.not_true, Bool.false_eq_true, or_self, if_false]

/-- What the bound block does with the word leaves the queue's words and counts (R325, R332, R350, R384). -/
theorem State.xqHand_spec (s : State) (q : Nat) (hq : q < 64) : ((s.xqHand q).xqQ q).words = (s.xqQ q).words ∧ ((s.xqHand q).xqQ q).last = (s.xqQ q).last ∧
    (s.xqHand q).get (F.XQ_POPPED_count q) = s.get (F.XQ_POPPED_count q) := by
  unfold State.xqHand
  split
  · exact ⟨by simp, by simp, rfl⟩
  · exact ⟨by simp, by simp, rfl⟩
  · dsimp only
    split
    · refine ⟨by simp, by simp, State.get_sat_apart _ _ (apart_below rfl ?_)⟩
      simp only [F.XQ_POPPED_count, R.XQ_POPPED]
      exact Bool.eq_false_iff.mpr fun h => absurd (Nat.le_of_ble_eq_true h) (by omega)
    · exact ⟨by rw [State.laneWord_xqQ], by rw [State.laneWord_xqQ], State.laneWord_get _ _ _ _ _⟩
  · exact ⟨rfl, rfl, rfl⟩

theorem State.ackIn_xqQ (s : State) (ch : Chan) (n q : Nat) : (s.ackIn ch n).xqQ q = s.xqQ q :=
  State.of_sansTokens (s.ackIn_sansTokens ch n) (fun u => u.xqQ q) fun _ => rfl

theorem State.ackIn_get (s : State) (ch : Chan) (n : Nat) (f : RF) : (s.ackIn ch n).get f = s.get f :=
  State.of_sansTokens (s.ackIn_sansTokens ch n) (fun u => u.get f) fun _ => rfl

theorem State.offerOut_xqQ (s : State) (ch : Chan) (ds : List Nat) (q : Nat) : (s.offerOut ch ds).xqQ q = s.xqQ q :=
  State.of_sansTokens (s.offerOut_sansTokens ch ds) (fun u => u.xqQ q) fun _ => rfl

theorem State.clearOut_regs (s : State) (ch : Chan) (n : Nat) : (s.clearOut ch n).regs = s.regs := by
  unfold State.clearOut
  exact foldl_kept State.regs (by intro u d _; rfl) s

theorem State.clearOut_xq (s : State) (ch : Chan) (n : Nat) : (s.clearOut ch n).xq = s.xq := by
  unfold State.clearOut
  exact foldl_kept State.xq (by intro u d _; rfl) s

theorem State.offerEnd_xqQ (s : State) (q r : Nat) : (s.offerEnd q).xqQ r = s.xqQ r :=
  State.xqQ_congr (by simp [State.offerEnd, State.clearOut_xq]) r

theorem State.get_of_regs {s t : State} (h : t.regs = s.regs) (f : RF) : t.get f = s.get f := by simp only [State.get, State.rd, h]

theorem State.offerEnd_popped (s : State) (q : Nat) : (s.offerEnd q).get (F.XQ_POPPED_count q) = s.get (F.XQ_POPPED_count q) := by
  rw [State.offerEnd, State.get_put_apart _ _ (apart_base rfl rfl rfl), State.get_of_regs (State.clearOut_regs _ _ _),
    State.get_of_regs (State.clearOut_regs _ _ _)]

/-- Settles O16: each command is a push or a pop of its queue. -/
theorem queuesStoreAndGiveWordsInOrder : Obligations.QueuesStoreAndGiveWordsInOrder := by
  unfold Obligations.QueuesStoreAndGiveWordsInOrder
  refine ⟨?_, ?_, ?_, ?_, ?_, ?_⟩
  · intro q d sb k i v s hbound hk hwait hstop hclk hdisc hroom
    obtain ⟨hwords, hcount, hopen⟩ := State.xqPush_stored (d := d) (sb := sb &&& 0xFF0F) hdisc
    exact completes_xqPushClocked hbound hk hwait hstop hclk (State.xqTakes_of_room hroom _) ⟨hwords, hcount, by simpa using hopen⟩
  · intro q d sb k i v s hbound hk hwait hstop hclk hdisc hsb
    have hsoi : (sb &&& 0xFF0F).getLsbD 0 = false := by rw [BitVec.getLsbD_and, hsb, Bool.false_and]
    have htakes : s.xqTakes q (sb &&& 0xFF0F) = true := by simp only [State.xqTakes, hdisc, sbSoi, hsoi, Bool.not_false, Bool.and_self, Bool.true_or]
    exact completes_xqPushClocked hbound hk hwait hstop hclk htakes (State.xqPush_discarded hdisc hsoi)
  · intro q w s hw hstop hreset hdisc hroom
    show ∃ t, execXqPushFabric q s = .next t ∧ _
    simp only [execXqPushFabric, hw, hstop, hreset, State.xqTakes_of_room hroom, Bool.not_true, Bool.false_eq_true, or_self, if_false]
    refine ⟨_, rfl, ?_⟩
    generalize hu : (if ((s.ackIn (chData (32 + q.val)) 64).sbUsed (32 + q.val)) = true then
      (s.ackIn (chData (32 + q.val)) 64).ackIn (chSb (32 + q.val)) 8 else s.ackIn (chData (32 + q.val)) 64) = u
    have hq : u.xqQ (32 + q.val) = s.xqQ (32 + q.val) := by rw [← hu]; split <;> simp only [State.ackIn_xqQ]
    have hg (f : RF) : u.get f = s.get f := by rw [← hu]; split <;> simp only [State.ackIn_get]
    obtain ⟨hwords, hcount, _⟩ := State.xqPush_stored (s := u) (q := 32 + q.val) (d := w.1) (sb := w.2) (by rw [hq, hdisc])
    exact ⟨by rw [hwords, hq], by rw [hcount, hg]⟩
  · intro q w ws s hw hstop hoffer hreset
    have hup : ((s.xqUpset q 0).xqQ q).words = w :: ws := by rw [State.xqUpset_zero, hw]
    have hgo : ¬ (s.xqStopped q ∨ s.on (F.XQ_STS_offer q) ∨ s.xqFabricReset q) := by simp [hstop, State.on, hoffer, hreset]
    refine ⟨fun hno => ?_, fun hsb hmark => ?_⟩
    · have hnot : ¬ ((! s.sbUsed q) = true ∧ sbMarker w.sb = true) := by rcases hno with h | h <;> simp [h]
      show ∃ t, execXqWordOffer q 0 s = .next t ∧ _
      simp only [execXqWordOffer, hup, if_neg hgo, if_neg hnot]
      refine ⟨_, rfl, State.get_put_lit _ rfl, ?_⟩
      rw [State.put_xqQ]
      split <;> simp only [State.offerOut_xqQ, State.xqUpset_zero]
    · show ∃ t, execXqWordOffer q 0 s = .next t ∧ _
      simp only [execXqWordOffer, hup, if_neg hgo, hsb, hmark, Bool.not_false, and_self, if_true]
      obtain ⟨hwords, _, hcount, hoff, hfab⟩ := State.xqPop_spec hup
      exact ⟨_, rfl, by rw [hoff, State.xqUpset_get, hoffer], hwords, by rw [hcount, State.xqUpset_get], by rw [hfab, State.xqUpset_fab]⟩
  · intro q w ws s hw hoffer htaken
    show ∃ t, execXqPopFabric q s = .next t ∧ _
    rw [execXqPopFabric, if_neg (by simp [State.on, hoffer, htaken])]
    obtain ⟨hwords, _, hcount, hoff, _⟩ := State.xqPop_spec (s := s.offerEnd q) (q := q) (by rw [State.offerEnd_xqQ, hw])
    exact ⟨_, rfl, hwords, hoff.trans (State.get_put_lit _ rfl), by rw [hcount, State.offerEnd_popped]⟩
  · intro q w ws s hw hstop hclk hring hgroup
    show ∃ t, execXqPopClocked q 0 s = .next t ∧ _
    rw [execXqPopClocked, if_neg (by simp [hstop, hclk, hring, hgroup, hw])]
    have hup : ((s.xqUpset (32 + q.val) 0).xqQ (32 + q.val)).words = w :: ws := by rw [State.xqUpset_zero, hw]
    obtain ⟨hwords, hlast, hcount, _, _⟩ := State.xqPop_spec hup
    obtain ⟨hw', hl', hc'⟩ := ((s.xqUpset (32 + q.val) 0).xqPop (32 + q.val)).xqHand_spec (32 + q.val) (by omega)
    exact ⟨_, rfl, hw'.trans hwords, hl'.trans hlast, by rw [hc', hcount, State.xqUpset_get]⟩

end Sys2Proof.Machine
end

section
/-! SUPPORT. R174 to R178: pulses, round trips and held values of the event and value crossings. -/

namespace Sys2Proof.Machine

/-! ## One bit of a field -/

/-- A one-bit field at bit k of another field is that bit. -/
theorem State.on_bit (s : State) {f g : RF} {k : Nat} (hoff : g.off = f.off) (hlo : g.lo = f.lo + k) (hw : g.w = 1) (hk : k < f.w) :
    s.on g = bitOf (s.get f) k := by
  have hg : s.on g = (s.get g).testBit 0 := by
    have hlt := s.get_bit g hw
    rcases hlt with h | h <;> simp [State.on, h]
  rw [hg, bitOf, State.get_testBit, State.get_testBit, hoff, hlo, hw]
  simp [hk]

theorem State.get_put_bit (s : State) {f g : RF} {k : Nat} (hoff : g.off = f.off) (hlo : g.lo = f.lo + k) (hw : g.w = 1) (hk : k < f.w)
    (hg : g.whole = true) (b : Bool) : bitOf ((s.putB g b).get f) k = b := by
  rw [← State.on_bit (s.putB g b) hoff hlo hw hk, State.on, State.get_putB s b (by simp [hg, hw])]
  cases b <;> rfl

/-! ## Event-in lines -/

theorem evIn_page (n k : Nat) {f : RF} (hf : f.off = R.REGION_EVX_IN n k) : 0x22000 ≤ f.off :=
  hf ▸ Nat.le_add_right_of_le (Nat.le_add_right_of_le (by decide))

theorem evIn_apart_sts (n m k : Nat) {f g : RF} (hf : f.off = R.REGION_EVX_STS n) (hg : g.off = R.REGION_EVX_IN m k) (hk : k < 8) : f.apart g = true := by
  have hne : g.off ≠ f.off := by
    simp only [hf, hg, R.REGION_EVX_STS, R.REGION_EVX_IN]
    omega
  simp [RF.apart, hne]

theorem State.evLost_pending (s : State) (n m j : Nat) {k : Nat} (hk : k < 8) :
    (s.evLost n j).get (F.REGION_EVX_IN_pending m k) = s.get (F.REGION_EVX_IN_pending m k) := by
  have hput (u : State) : (u.put ⟨R.REGION_EVX_STS n, j, 1⟩ 1).get (F.REGION_EVX_IN_pending m k) = u.get (F.REGION_EVX_IN_pending m k) :=
    State.get_put_apart _ _ (evIn_apart_sts n m k rfl rfl hk)
  unfold State.evLost
  dsimp only
  split
  · exact hput s
  · rw [State.raise_getKept _ _ _ (eventReg_of_page (evIn_page m k rfl))]
    exact hput s

theorem State.evInPulse_same (s : State) (n : Nat) {k : Nat} (hk : k < 8) :
    (s.evInPulse n k).get (F.REGION_EVX_IN_pending n k) = min 255 (s.get (F.REGION_EVX_IN_pending n k) + 1) := by
  have hlt : s.get (F.REGION_EVX_IN_pending n k) < 2 ^ 8 := s.get_lt _
  have hinc : (s.inc (F.REGION_EVX_IN_pending n k)).get (F.REGION_EVX_IN_pending n k) = (s.get (F.REGION_EVX_IN_pending n k) + 1) % 2 ^ 8 :=
    State.get_inc _ _ rfl
  unfold State.evInPulse
  split
  · rw [State.evLost_pending _ _ _ _ hk]
    omega
  · rw [hinc]
    omega

theorem State.evInPulse_other (s : State) (n : Nat) {j k : Nat} (hk : k < 8) (hj : j ≠ k) :
    (s.evInPulse n j).get (F.REGION_EVX_IN_pending n k) = s.get (F.REGION_EVX_IN_pending n k) := by
  unfold State.evInPulse
  split
  · exact State.evLost_pending _ _ _ _ hk
  · exact State.get_inc_apart _ _ (apart_index (a := 0x100C30 + 0x10000 * n) (d := 4) rfl rfl rfl hj)

theorem State.evFire_pending (s : State) (n mask : Nat) {k : Nat} (hk : k < 8) :
    (s.evFire n mask).get (F.REGION_EVX_IN_pending n k) =
      if bitOf mask k then min 255 (s.get (F.REGION_EVX_IN_pending n k) + 1) else s.get (F.REGION_EVX_IN_pending n k) := by
  have hother : ∀ u : State, ∀ j ∈ List.range 8, j ≠ k → (if bitOf mask j then u.evInPulse n j else u).get (F.REGION_EVX_IN_pending n k) =
      u.get (F.REGION_EVX_IN_pending n k) := fun u j _ hj => by
    split
    · exact u.evInPulse_other n hk hj
    · rfl
  obtain ⟨l, hl, heq⟩ := foldl_turn (fun u => u.get (F.REGION_EVX_IN_pending n k)) (List.mem_range.mpr hk) List.nodup_range hother s
  have hbefore := foldl_kept (fun u => u.get (F.REGION_EVX_IN_pending n k)) (fun u j hj => hother u j (hl j hj).1 (hl j hj).2) s
  refine heq.trans ?_
  split
  · rw [State.evInPulse_same _ _ hk, hbefore]
  · exact hbefore

@[simp] theorem State.evLine_setEvLine (s : State) (n k : Nat) (x : EvLine) : (s.setEvLine n k x).evLine n k = x := SMap.get_set_same _ _ _ _

theorem State.evLine_congr {s t : State} (h : t.evx = s.evx) (n k : Nat) : t.evLine n k = s.evLine n k := by simp only [State.evLine, h]

theorem State.offerOut_evx (s : State) (ch : Chan) (ds : List Nat) : (s.offerOut ch ds).evx = s.evx :=
  State.of_sansTokens (s.offerOut_sansTokens ch ds) (fun u => u.evx) fun _ => rfl

theorem State.clearOut_evx (s : State) (ch : Chan) (n : Nat) : (s.clearOut ch n).evx = s.evx := by
  unfold State.clearOut
  exact foldl_kept State.evx (by intro u d _; rfl) s

/-- A round trip into the fabric (R174, R175). -/
theorem completes_eventInRoundTrip {n : Fin 16} {k : Fin 8} {s : State} (hc : s.get (F.REGION_EVX_IN_pending n k) ≠ 0)
    (hbusy : bitOf (s.get (F.REGION_EVX_STS_in_busy n)) k = false) (hset : s.fab.setReset.getLsbD n = false) :
    Completes (.eventInRoundTrip n k) s (fun t => t.get (F.REGION_EVX_IN_pending n k) = 0 ∧
      bitOf (t.get (F.REGION_EVX_STS_in_busy n)) k = true ∧ (t.evLine n k).flight = s.get (F.REGION_EVX_IN_pending n k)) := by
  have hon : s.on ⟨R.REGION_EVX_STS n, 16 + k, 1⟩ = false := (s.on_bit (f := F.REGION_EVX_STS_in_busy n) (g := ⟨R.REGION_EVX_STS n, 16 + k, 1⟩) rfl rfl rfl k.isLt).trans hbusy
  show ∃ t, execEventInRoundTrip n k s = .next t ∧ _
  simp only [execEventInRoundTrip, hc, hon, hset, Bool.false_eq_true, or_self, if_false]
  refine ⟨_, rfl, ?_, ?_, ?_⟩
  · rw [State.get_of_regs (State.offerOut_regs _ _ _), State.setEvLine_get, State.get_put_apart _ _ (evIn_apart_sts n n k rfl rfl k.isLt), State.get_put_lit _ rfl]
  · rw [State.get_of_regs (State.offerOut_regs _ _ _), State.setEvLine_get]
    have hwhole : (⟨R.REGION_EVX_STS n, 16 + k, 1⟩ : RF).whole = true := by simp only [RF.whole, decide_eq_true_eq]; omega
    exact State.get_put_bit (s.put (F.REGION_EVX_IN_pending n k) 0) (f := F.REGION_EVX_STS_in_busy n) (g := ⟨R.REGION_EVX_STS n, 16 + k, 1⟩)
      rfl rfl rfl k.isLt hwhole true
  · rw [State.evLine_congr (State.offerOut_evx _ _ _), State.evLine_setEvLine]

/-- The acknowledge of a round trip (R175). -/
theorem completes_eventInAck {n : Fin 16} {k : Fin 8} {s : State} (hbusy : bitOf (s.get (F.REGION_EVX_STS_in_busy n)) k = true)
    (htaken : s.outTaken (.evIn n k) 4 = true) :
    Completes (.eventInAck n k) s (fun t => bitOf (t.get (F.REGION_EVX_STS_in_busy n)) k = false ∧ (t.evLine n k).flight = 0 ∧
      t.get (F.REGION_EVX_IN_delivered n k) = (s.get (F.REGION_EVX_IN_delivered n k) + (s.evLine n k).flight) % 2 ^ 24) := by
  have hon : s.on ⟨R.REGION_EVX_STS n, 16 + k, 1⟩ = true := (s.on_bit (f := F.REGION_EVX_STS_in_busy n) (g := ⟨R.REGION_EVX_STS n, 16 + k, 1⟩) rfl rfl rfl k.isLt).trans hbusy
  have hwhole : (⟨R.REGION_EVX_STS n, 16 + k, 1⟩ : RF).whole = true := by simp only [RF.whole, decide_eq_true_eq]; omega
  have hcount : (s.inc (F.REGION_EVX_IN_delivered n k) (s.evLine n k).flight).get (F.REGION_EVX_IN_delivered n k) =
    (s.get (F.REGION_EVX_IN_delivered n k) + (s.evLine n k).flight) % 2 ^ 24 := State.get_inc _ _ rfl
  show ∃ t, execEventInAck n k s = .next t ∧ _
  simp only [execEventInAck, hon, htaken, Bool.not_true, Bool.false_eq_true, or_self, if_false]
  refine ⟨_, rfl, ?_, ?_, ?_⟩
  · rw [State.get_of_regs (State.clearOut_regs _ _ _), State.setEvLine_get]
    exact State.get_put_bit (s.inc (F.REGION_EVX_IN_delivered n k) _) (f := F.REGION_EVX_STS_in_busy n) (g := ⟨R.REGION_EVX_STS n, 16 + k, 1⟩)
      rfl rfl rfl k.isLt hwhole false
  · rw [State.evLine_congr (State.clearOut_evx _ _ _), State.evLine_setEvLine]
  · rw [State.get_of_regs (State.clearOut_regs _ _ _), State.setEvLine_get, ← hcount]
    exact State.get_put_apart _ _ (evIn_apart_sts n n k rfl rfl k.isLt)

/-! ## Event-out lines -/

theorem completes_eventOutToken_region {n : Fin 16} {k : Fin 8} {s : State} (hin : (s.inValue (.evOut n k) 1).isSome = true)
    (hc : (s.evLine n (8 + k.val)).count < 255) :
    Completes (.eventOutToken (.region n) (BitVec.ofNat 8 k)) s (fun t =>
      (t.evLine n (8 + k.val)).count = (s.evLine n (8 + k.val)).count + 1) := by
  have hk : (BitVec.ofNat 8 k.val).toNat = k.val := by
    rw [BitVec.toNat_ofNat]
    omega
  obtain ⟨v, hv⟩ := Option.isSome_iff_exists.mp hin
  have hline : (s.ackIn (.evOut n k) 1).evLine n (8 + k.val) = s.evLine n (8 + k.val) :=
    State.of_sansTokens (s.ackIn_sansTokens (.evOut n k) 1) (fun u => u.evLine n (8 + k.val)) fun _ => rfl
  show ∃ t, execEventOutToken (.region n) (BitVec.ofNat 8 k) s = .next t ∧ _
  simp only [execEventOutToken, hk, hv, Nat.not_le.mpr k.isLt, if_false]
  refine ⟨_, rfl, ?_⟩
  simp only [State.evOutPulse, hline, Nat.ne_of_lt hc, if_false, State.evLine_setEvLine]

theorem completes_eventOutRoundTrip_region {n : Fin 16} {k : Fin 8} {s : State} (hc : (s.evLine n (8 + k.val)).count ≠ 0) :
    Completes (.eventOutRoundTrip (.region n) (BitVec.ofNat 8 k)) s (fun t => (t.evLine n (8 + k.val)).count = 0 ∧
      t.get (F.REGION_EVX_OUT_count n k) = (s.get (F.REGION_EVX_OUT_count n k) + (s.evLine n (8 + k.val)).count) % 2 ^ 32) := by
  have hk : (BitVec.ofNat 8 k.val).toNat = k.val := by
    rw [BitVec.toNat_ofNat]
    omega
  have hpage : 0x22000 ≤ (F.REGION_EVX_OUT_count n k).off := Nat.le_add_right_of_le (Nat.le_add_right_of_le (by decide))
  have hcount : (s.inc (F.REGION_EVX_OUT_count n k) (s.evLine n (8 + k.val)).count).get (F.REGION_EVX_OUT_count n k) =
    (s.get (F.REGION_EVX_OUT_count n k) + (s.evLine n (8 + k.val)).count) % 2 ^ 32 := State.get_inc _ _ rfl
  show ∃ t, execEventOutRoundTrip (.region n) (BitVec.ofNat 8 k) s = .next t ∧ _
  simp only [execEventOutRoundTrip, hk, Nat.not_le.mpr k.isLt, if_false, State.evOutTrip, hc]
  refine ⟨_, rfl, ?_, ?_⟩
  · rw [State.evLine_congr (State.raiseFreeLim_evx _ _ _ _), State.evLine_setEvLine]
  · rw [State.raiseFreeLim_getKept _ _ _ _ (eventReg_of_page hpage), State.setEvLine_get, hcount]

/-! ## Crossings between clocked domains -/

@[simp] theorem State.clkEv_setClkEv (s : State) (k : Nat) (x : EvLine) : (s.setClkEv k x).clkEv k = x := SMap.get_set_same _ _ _ _

@[simp] theorem State.clkVal_setClkVal (s : State) (k : Nat) (x : ValX) : (s.setClkVal k x).clkVal k = x := SMap.get_set_same _ _ _ _

theorem State.clkEv_congr {s t : State} (h : t.clk = s.clk) (k : Nat) : t.clkEv k = s.clkEv k := by simp only [State.clkEv, h]

theorem completes_eventOut_domains (src dst : Fin 71) (x : BitVec 8) (s : State) (hsrc : s.clkStopped src = false) :
    let k := crossKey src dst x.toNat
    ((s.clkEv k).count < 255 →
      Completes (.eventOutToken (.domains src dst) x) s (fun t => (t.clkEv k).count = (s.clkEv k).count + 1 ∧ t.regs = s.regs)) ∧
    (255 ≤ (s.clkEv k).count → (s.clkEv k).reported = false →
      Completes (.eventOutToken (.domains src dst) x) s (fun t => (t.clkEv k).count = (s.clkEv k).count ∧ t.logged 0x0703 0xFFFF)) ∧
    (s.clkStopped dst = false →
      Completes (.eventOutRoundTrip (.domains src dst) x) s (fun t => (t.clkEv k).count = 0 ∧
        (t.clkEv k).delivered = (s.clkEv k).delivered + (s.clkEv k).count ∧ t.regs = s.regs)) := by
  intro k
  refine ⟨fun hc => ?_, fun hc hrep => ?_, fun hdst => ?_⟩
  · refine ⟨s.clkPulse src dst x.toNat, rfl, ?_⟩
    simp only [State.clkPulse, hsrc, Bool.false_eq_true, if_false]
    rw [if_pos hc, State.clkEv_setClkEv]
    exact ⟨rfl, rfl⟩
  · refine ⟨s.clkPulse src dst x.toNat, rfl, ?_⟩
    simp only [State.clkPulse, hsrc, Bool.false_eq_true, if_false]
    rw [if_neg (Nat.not_lt.mpr hc), if_neg (by simp [k, hrep] at *), State.clkEv_congr (State.raise_clk _ _ _), State.clkEv_setClkEv]
    exact ⟨rfl, State.raise_logged _ _ _⟩
  · refine ⟨s.clkTrip src dst x.toNat, rfl, ?_⟩
    simp only [State.clkTrip, hsrc, hdst, Bool.or_self, Bool.false_eq_true, if_false]
    rw [State.clkEv_setClkEv]
    exact ⟨rfl, rfl, rfl⟩

/-- A source that loads: what has been requested is held, and the latest value stands at the source (R178). -/
theorem ValX.load_spec (x : ValX) : x.load.src = x.src ∧ x.load.copy = x.copy ∧ (x.req = true → x.load.hold = x.hold ∧ x.load.req = true) ∧
    (x.req = false → x.load.hold = x.src) := by
  unfold ValX.load
  split
  · next h =>
    refine ⟨rfl, rfl, fun hr => ⟨rfl, hr⟩, fun hr => ?_⟩
    simp only [hr, Bool.false_or, beq_iff_eq] at h
    exact h.symm
  · next h =>
    simp only [Bool.or_eq_true, not_or, Bool.not_eq_true] at h
    exact ⟨rfl, rfl, fun hr => absurd (hr.symm.trans h.1) (by decide), fun _ => rfl⟩

/-- Settles O18: the counts and round trips of event crossings, and the held value of a value crossing. -/
theorem eventAndValueCrossingsCount : Obligations.EventAndValueCrossingsCount := by
  unfold Obligations.EventAndValueCrossingsCount
  refine ⟨?_, ?_, ?_, ?_, ?_, ?_, completes_eventOut_domains, ?_⟩
  · intro n mask k s
    exact ⟨_, rfl, s.evFire_pending n mask.toNat k.isLt⟩
  · intro n k s hc hbusy hset
    exact completes_eventInRoundTrip hc hbusy hset
  · intro n k s hbusy htaken
    exact completes_eventInAck hbusy htaken
  · intro n k s hin hc
    exact completes_eventOutToken_region hin hc
  · intro n k s hc
    exact completes_eventOutRoundTrip_region hc
  · intro n k s hk
    exact ⟨⟨s, if_pos hk, rfl⟩, ⟨_, rfl, if_pos hk⟩⟩
  · intro src dst x v s hsrc k
    refine ⟨?_, fun hdst hreq => ?_⟩
    · refine ⟨s.valSource src dst x.toNat v, rfl, ?_⟩
      simp only [State.valSource, hsrc, Bool.false_eq_true, if_false, State.clkVal_setClkVal, k]
      obtain ⟨hs, hcopy, hheld, hfree⟩ := ({ s.clkVal (crossKey src dst x.toNat) with src := v } : ValX).load_spec
      exact ⟨hs, hcopy, hheld, hfree, rfl⟩
    · refine ⟨s.valCapture src dst x.toNat, rfl, ?_⟩
      simp only [State.valCapture, hsrc, hdst, hreq, k, Bool.not_false, Bool.and_self, Bool.false_eq_true, if_false, if_true, State.clkVal_setClkVal]
      obtain ⟨_, hcopy, _, hfree⟩ := ({ s.clkVal (crossKey src dst x.toNat) with copy := (s.clkVal (crossKey src dst x.toNat)).hold, req := false } : ValX).load_spec
      exact ⟨hcopy, hfree rfl, rfl⟩

end Sys2Proof.Machine
end

section
/-! SUPPORT. R161 to R186, R374 to R395: what the commits of queues and the rings they feed change: the queues with their counts, the rings,
what is sent on links and lanes, and events. The clocks, the modes and every register below the queues' page but the rings' stay, and so do the
control of each queue, the resets of its sides, and the words of a queue whose writer is in reset. -/

namespace Sys2Proof.Machine

/-- The registers that commits may change: those of the host interface's rings, and from the queues' page up. -/
def commitReg (off : Nat) : Bool := (decide (0x20000 ≤ off) && decide (off < 0x23000)) || decide (0xA0000 ≤ off)

/-- The state without what commits change. -/
def State.sansCommits (s : State) : State × (Nat → Word) :=
  ({ s with
      regs := [], xq := [], log := [], con := { s.con with out := [] }, lane := [], grp := [], evtLast := [], freeCtr := 0
      pel := { s.pel with ports := [], sent := [], mgmt := [], events := [] }
      hif := { s.hif with rings := [], writes := [], msix := [], pba := [], evtSeq := 0, evtLost := 0 } },
    fun off => if commitReg off then 0 else s.rd off)

/-- The status fields of a queue that commits leave alone. -/
def stsKept (q : Nat) : List RF :=
  [F.XQ_STS_flushing q, F.XQ_STS_paused q, F.XQ_STS_clk_stopped q, F.XQ_STS_far_reset q, F.XQ_STS_offer q]

/-- What commits leave alone of a state, but for what they leave alone of the queues' contents. -/
structure State.Controls (s t : State) : Prop where
  rest : t.sansCommits = s.sansCommits
  log : ∃ l, t.log = s.log ++ l
  ctl : ∀ q, t.rd (R.XQ_CTL q) = s.rd (R.XQ_CTL q)
  bind : ∀ q, t.rd (R.XQ_BIND q) = s.rd (R.XQ_BIND q)
  sts : ∀ q, ∀ f ∈ stsKept q, t.get f = s.get f

/-- Commits of queues and of their rings lead from one state to the other. -/
structure State.Commits (s t : State) : Prop extends State.Controls s t where
  reset : ∀ q b, (t.xqQ q).inReset b = (s.xqQ q).inReset b
  held : ∀ q, (s.xqQ q).wReset = true → (t.xqQ q).words = (s.xqQ q).words

theorem State.Controls.trans {s t u : State} (h : s.Controls t) (k : t.Controls u) : s.Controls u := by
  obtain ⟨l, hl⟩ := h.log
  obtain ⟨m, hm⟩ := k.log
  exact ⟨k.rest.trans h.rest, ⟨l ++ m, by rw [hm, hl, List.append_assoc]⟩, fun q => (k.ctl q).trans (h.ctl q), fun q => (k.bind q).trans (h.bind q),
    fun q f hf => (k.sts q f hf).trans (h.sts q f hf)⟩

theorem State.setXq_controls (s : State) (q : Nat) (x : Xq) : s.Controls (s.setXq q x) :=
  ⟨rfl, ⟨[], by simp⟩, fun _ => rfl, fun _ => rfl, fun _ f _ => State.setXq_get _ _ _ f⟩

namespace State.Commits

variable {s t u : State}

theorem refl (s : State) : s.Commits s := ⟨⟨rfl, ⟨[], by simp⟩, fun _ => rfl, fun _ => rfl, fun _ _ _ => rfl⟩, fun _ _ => rfl, fun _ _ => rfl⟩

theorem trans (h : s.Commits t) (k : t.Commits u) : s.Commits u := by
  have hw (q : Nat) : (t.xqQ q).wReset = (s.xqQ q).wReset := h.reset q true
  exact ⟨h.toControls.trans k.toControls, fun q b => (k.reset q b).trans (h.reset q b),
    fun q hq => (k.held q ((hw q).trans hq)).trans (h.held q hq)⟩

/-- A change of what no register, log or queue holds. -/
theorem of_same (hrest : t.sansCommits = s.sansCommits) (hregs : t.regs = s.regs) (hlog : t.log = s.log) (hxq : t.xq = s.xq) : s.Commits t := by
  have hrd (off : Nat) : t.rd off = s.rd off := by simp only [State.rd, hregs]
  have hq (q : Nat) : t.xqQ q = s.xqQ q := State.xqQ_congr hxq q
  exact ⟨⟨hrest, ⟨[], by simp [hlog]⟩, fun q => hrd _, fun q => hrd _, fun q f _ => State.get_of_rd (hrd _)⟩, fun q b => by rw [hq], fun q _ => by rw [hq]⟩

theorem ite {c : Prop} [Decidable c] (h : c → s.Commits t) (k : ¬ c → s.Commits u) : s.Commits (if c then t else u) := by
  split
  · next hc => exact h hc
  · next hc => exact k hc

theorem foldl {α : Type} {f : State → α → State} {l : List α} (h : ∀ s : State, ∀ a ∈ l, s.Commits (f s a)) (s : State) : s.Commits (l.foldl f s) := by
  induction l generalizing s with
  | nil => exact refl s
  | cons a l ih => exact (h s a List.mem_cons_self).trans (ih (fun s b hb => h s b (List.mem_cons_of_mem a hb)) _)

/-- A field that commits may change, and that none of those they leave shares a bit with. -/
theorem put {f : RF} (v : Nat) (hreg : commitReg f.off = true) (hctl : ∀ q, R.XQ_CTL q ≠ f.off) (hbind : ∀ q, R.XQ_BIND q ≠ f.off)
    (hsts : ∀ q, ∀ g ∈ stsKept q, f.apart g = true) : s.Commits (s.put f v) := by
  refine ⟨⟨Prod.ext rfl (funext fun off => ?_), ⟨[], by simp⟩, fun q => State.rd_put_ne _ _ _ _ (hctl q), fun q => State.rd_put_ne _ _ _ _ (hbind q),
    fun q g hg => State.get_put_apart _ _ (hsts q g hg)⟩, fun q b => by rw [State.put_xqQ], fun q _ => by rw [State.put_xqQ]⟩
  show (if commitReg off then 0 else (s.put f v).rd off) = if commitReg off then 0 else s.rd off
  split
  · rfl
  · next hoff => exact State.rd_put_ne s f v off fun he => hoff (he ▸ hreg)

end State.Commits

/-! ## Registers -/

theorem mem_stsKept_off {q : Nat} {g : RF} (hg : g ∈ stsKept q) : g.off = R.XQ_STS q := by
  simp only [stsKept, List.mem_cons, List.not_mem_nil, or_false] at hg
  rcases hg with rfl | rfl | rfl | rfl | rfl <;> rfl

/-- Another register of the queues' page. -/
theorem xqReg_commits {f : RF} {a q : Nat} (s : State) (v : Nat) (hf : f.off = a + 0x400 * q) (ha : 0xA000C ≤ a) (hb : a ≤ 0xA001C) :
    s.Commits (s.put f v) := by
  refine State.Commits.put v ?_ (fun r => ?_) (fun r => ?_) (fun r g hg => ?_)
  · simp only [hf, commitReg, Bool.or_eq_true, decide_eq_true_eq]
    omega
  · simp only [hf, R.XQ_CTL]
    omega
  · simp only [hf, R.XQ_BIND]
    omega
  · have hne : g.off ≠ f.off := by
      simp only [hf, mem_stsKept_off hg, R.XQ_STS]
      omega
    simp [RF.apart, hne]

/-- A status field that follows the commits. -/
theorem xqSts_commits {f : RF} {q : Nat} (s : State) (v : Nat) (hf : f.off = R.XQ_STS q) (h : (stsKept q).all f.apart = true) : s.Commits (s.put f v) := by
  refine State.Commits.put v ?_ (fun r => ?_) (fun r => ?_) (fun r g hg => ?_)
  · simp only [hf, R.XQ_STS, commitReg, Bool.or_eq_true, decide_eq_true_eq]
    omega
  · simp only [hf, R.XQ_CTL, R.XQ_STS]
    omega
  · simp only [hf, R.XQ_BIND, R.XQ_STS]
    omega
  · by_cases hq : r = q
    · exact List.all_eq_true.mp h g (hq ▸ hg)
    · have hne : g.off ≠ f.off := by
        simp only [hf, mem_stsKept_off hg, R.XQ_STS]
        omega
      simp [RF.apart, hne]

/-- A register of the rings. -/
theorem ringReg_commits {f : RF} (s : State) (v : Nat) (hlo : 0x20000 ≤ f.off) (hhi : f.off < 0x23000) : s.Commits (s.put f v) := by
  refine State.Commits.put v ?_ (fun r => ?_) (fun r => ?_) (fun r g hg => ?_)
  · simp only [commitReg, Bool.or_eq_true, Bool.and_eq_true, decide_eq_true_eq]
    omega
  · simp only [R.XQ_CTL]
    omega
  · simp only [R.XQ_BIND]
    omega
  · have hne : g.off ≠ f.off := by
      simp only [mem_stsKept_off hg, R.XQ_STS]
      omega
    simp [RF.apart, hne]

/-! ## Queues -/

theorem State.raiseFree_commits (s : State) (id : Nat) : s.Commits (s.raiseFree id) := by
  have hreg {off : Nat} (h : 0x22000 ≤ off) : (s.raiseFree id).rd off = s.rd off := State.raiseFree_rd _ _ (eventReg_of_page h)
  have hq (q : Nat) : (s.raiseFree id).xqQ q = s.xqQ q := State.raiseFree_xqQ _ _ _
  have hev := s.raiseFree_sansEvent id
  refine ⟨⟨Prod.ext ?_ (funext fun off => ?_), ⟨_, State.raise_log _ _ _⟩, fun q => hreg ?_, fun q => hreg ?_, fun q f hf => State.get_of_rd (hreg ?_)⟩,
    fun q b => by rw [hq], fun q _ => by rw [hq]⟩
  · exact congrArg (fun p : State × (Nat → Word) => ({ p.1 with
      xq := [], lane := [], grp := [], pel := { p.1.pel with ports := [], sent := [], mgmt := [] } } : State)) hev
  · show (if commitReg off then 0 else (s.raiseFree id).rd off) = if commitReg off then 0 else s.rd off
    split
    · rfl
    · next hoff =>
      refine State.raiseFree_rd _ _ (Bool.eq_false_iff.mpr fun hevt => hoff ?_)
      simp only [eventReg, Bool.or_eq_true, beq_iff_eq] at hevt
      rcases hevt with ((rfl | rfl) | rfl) | rfl <;> decide
  · simp only [R.XQ_CTL]; omega
  · simp only [R.XQ_BIND]; omega
  · simp only [mem_stsKept_off hf, R.XQ_STS]; omega

/-- A queue set to what keeps its resets, and its words where its writer is in reset. -/
theorem State.setXq_commits (s : State) (q : Nat) (x : Xq) (hreset : ∀ b, x.inReset b = (s.xqQ q).inReset b)
    (hheld : (s.xqQ q).wReset = true → x.words = (s.xqQ q).words) : s.Commits (s.setXq q x) := by
  have hat (r : Nat) : (s.setXq q x).xqQ r = if r = q then x else s.xqQ r := by
    split
    · next h => rw [h, State.xqQ_setXq]
    · next h => exact SMap.get_set_ne _ _ _ _ _ h
  refine ⟨s.setXq_controls q x, fun r b => ?_, fun r hr => ?_⟩
  · rw [hat]
    split
    · next h => rw [h, hreset]
    · rfl
  · rw [hat]
    split
    · next h => rw [hheld (h ▸ hr), h]
    · rfl

theorem State.xqSync_commits (s : State) (q : Nat) : s.Commits (s.xqSync q) := by
  unfold State.xqSync State.putB
  exact ((((xqSts_commits _ _ rfl rfl).trans (xqSts_commits _ _ rfl rfl)).trans (xqSts_commits _ _ rfl rfl)).trans
    (xqSts_commits _ _ rfl rfl)).trans (xqSts_commits _ _ rfl rfl)

theorem xqCount_commits {f : RF} {a q : Nat} (s : State) (v : Nat) (hf : f.off = a + 0x400 * q) (ha : (Nat.ble 0xA000C a && Nat.ble a 0xA001C) = true) :
    s.Commits (s.inc f v) := by
  obtain ⟨hlo, hhi⟩ := Bool.and_eq_true_iff.mp ha
  exact xqReg_commits s _ hf (Nat.le_of_ble_eq_true hlo) (Nat.le_of_ble_eq_true hhi)

theorem State.xqStore_commits (s : State) (q : Nat) (w : XWord) (h : (s.xqQ q).wReset = false) : s.Commits (s.xqStore q w) := by
  unfold State.xqStore
  refine .trans (.trans (s.setXq_commits q _ ?_ ?_) (xqCount_commits _ _ rfl rfl)) (State.xqSync_commits _ q)
  · intro b
    cases b <;> rfl
  · intro hr
    exact absurd (hr.symm.trans h) (by decide)

theorem State.xqPush_commits (s : State) (q : Nat) (d : BitVec 128) (sb : BitVec 16) (h : (s.xqQ q).wReset = false) : s.Commits (s.xqPush q d sb) := by
  have hflag (x : Xq) (hx : x.words = (s.xqQ q).words) (hw : ∀ b, x.inReset b = (s.xqQ q).inReset b) : s.Commits (s.setXq q x) :=
    s.setXq_commits q x hw fun _ => hx
  have hfresh : s.Commits (s.setXq q { s.xqQ q with fresh := false }) := hflag _ rfl (fun b => by cases b <;> rfl)
  have hsoi : s.Commits (s.setXq q { s.xqQ q with discard := false, fresh := false }) := hflag _ rfl (fun b => by cases b <;> rfl)
  unfold State.xqPush
  dsimp only
  refine .ite (fun _ => .ite (fun _ => ?_) (fun _ => ?_)) (fun _ => ?_)
  · exact .trans (.trans hfresh (xqCount_commits _ _ rfl rfl)) (State.raiseFree_commits _ _)
  · exact .trans hfresh (xqCount_commits _ _ rfl rfl)
  · refine .trans (.trans hsoi (xqSts_commits _ _ rfl rfl)) (State.xqStore_commits _ q _ ?_)
    rw [State.put_xqQ, State.xqQ_setXq]
    exact h

theorem State.xqDrain_commits (q : Nat) : ∀ (n : Nat) (s : State), s.Commits (State.xqDrain n s q)
  | 0, s => .refl s
  | n + 1, s => by
    unfold State.xqDrain
    split
    · exact .refl s
    · next w ws hw =>
      split
      · exact .refl s
      · next hgo =>
        have hr : (s.xqQ q).wReset = false := by
          simp only [Bool.or_eq_true, not_or, Bool.not_eq_true] at hgo
          exact hgo.1.2
        refine (s.setXq_commits q { s.xqQ q with wait := ws } (fun b => by cases b <;> rfl) (fun _ => rfl)).trans
          ((State.xqPush_commits _ q _ _ ?_).trans (State.xqDrain_commits q n _))
        rw [State.xqQ_setXq]
        exact hr

theorem State.xqFeed_commits (s : State) (q : Nat) (ws : List (BitVec 128 × BitVec 16)) : s.Commits (s.xqFeed q ws) := by
  unfold State.xqFeed
  dsimp only
  refine .trans (s.setXq_commits q _ ?_ ?_) (State.xqDrain_commits q _ _)
  · intro b
    cases b <;> rfl
  · intro _
    rfl

/-! ## Rings -/

theorem State.setRing_commits (s : State) (n : Nat) (r : Ring) : s.Commits (s.setRing n r) := .of_same rfl rfl rfl rfl

theorem State.hostWrite_commits (s : State) (addr : Nat) (data : List Byte) : s.Commits (s.hostWrite addr data) := .of_same rfl rfl rfl rfl

theorem State.msixSend_commits (s : State) (v : Nat) : s.Commits (s.msixSend v) := by
  unfold State.msixSend
  split <;> exact .of_same rfl rfl rfl rfl

theorem State.ringEntry_commits (s : State) (n : Nat) : s.Commits (s.ringEntry n) := by
  unfold State.ringEntry
  dsimp only
  exact .ite (fun _ => (s.setRing_commits n _).trans (State.msixSend_commits _ _)) (fun _ => s.setRing_commits n _)

/-- A register of ring n. -/
theorem ringPut_commits {f : RF} {a n : Nat} (s : State) (v : Nat) (hn : n < 96) (hf : f.off = a + 0x40 * n)
    (ha : (Nat.ble 0x20000 a && Nat.ble a 0x21080) = true) : s.Commits (s.put f v) := by
  obtain ⟨hlo, hhi⟩ := Bool.and_eq_true_iff.mp ha
  have hlo' := Nat.le_of_ble_eq_true hlo
  have hhi' := Nat.le_of_ble_eq_true hhi
  exact ringReg_commits s v (by omega) (by omega)

theorem State.descReturn_commits (s : State) {n : Nat} (hn : n < 96) (d : DataDesc) (status : Nat) : s.Commits (s.descReturn n d status) := by
  have hput (u : State) (v : Nat) : u.Commits ((u.inc (F.HIF_RING_CNT_count n)).put (F.HIF_RING_OWN_dev_owned n) v) :=
    .trans (ringPut_commits _ _ hn rfl rfl) (ringPut_commits _ _ hn rfl rfl)
  have hw (u : State) (a b : Nat) (x y : List Byte) (c : Bool) : u.Commits (if c = true then u.hostWrite a x else u.hostWrite b y) :=
    .ite (fun _ => u.hostWrite_commits _ _) (fun _ => u.hostWrite_commits _ _)
  unfold State.descReturn
  refine .ite (fun _ => ?_) (fun _ => ?_)
  · exact .trans (.trans (hw s _ _ _ _ _) (hput _ _)) (State.ringEntry_commits _ _)
  · exact .trans (hw s _ _ _ _ _) (hput _ _)

theorem State.ringReturn_commits (s : State) {n : Nat} (hn : n < 96) (d : DataDesc) (status : Nat) : s.Commits (s.ringReturn n d status) := by
  unfold State.ringReturn
  exact .ite (fun _ => (s.setRing_commits n _).trans (State.descReturn_commits _ hn d status)) (fun _ => s.setRing_commits n _)

theorem State.h2fAbandon_commits (s : State) (n : Nat) : s.Commits (s.h2fAbandon n) := by
  unfold State.h2fAbandon
  split
  · exact s.setRing_commits n _
  · next q _ =>
    have hq : s.Commits (s.setXq q { s.xqQ q with wait := [] }) := s.setXq_commits q _ (fun b => by cases b <;> rfl) (fun _ => rfl)
    exact .ite (fun _ => hq) (fun _ => (hq.trans (State.setRing_commits _ n _)).trans (State.xqFeed_commits _ q _))

theorem State.abandonIf_commits (s : State) (n : Nat) (c : Bool) : s.Commits (if c = true then s.h2fAbandon n else s) :=
  .ite (fun _ => s.h2fAbandon_commits n) (fun _ => .refl s)

theorem State.ringSettle_commits {n : Nat} (hn : n < 96) : ∀ (k : Nat) (s : State), s.Commits (State.ringSettle k s n)
  | 0, s => .refl s
  | k + 1, s => by
    unfold State.ringSettle
    split
    · exact .refl s
    · split
      · exact .refl s
      · split
        · exact .refl s
        · exact ((s.abandonIf_commits n _).trans (State.ringReturn_commits _ hn _ _)).trans (State.ringSettle_commits hn k _)

theorem State.settle_commits (s : State) {n : Nat} (hn : n < 96) : s.Commits (s.settle n) := State.ringSettle_commits hn _ s

/-- The rings of queues are those of Table 13.2. -/
theorem State.queueRing_lt {s : State} {q n : Nat} (h : s.queueRing q = some n) : n < 96 := by
  unfold State.queueRing at h
  split at h
  · next r _ hb =>
    have hr : r < 32 := by
      unfold State.xqBound at hb
      split at hb
      · exact absurd hb (by simp)
      · next u hu =>
        split at hb
        · exact absurd hb (by simp)
        · rw [Option.some.inj hb] at hu
          unfold State.xqNames at hu
          dsimp only at hu
          split at hu
          · split at hu
            · next hi =>
              have hindex : s.get (F.XQ_BIND_index q) = r := congrArg (fun p => p.2.1) (Option.some.inj hu)
              exact hindex ▸ hi
            · exact absurd hu (by simp)
          · split at hu <;> simp at hu
          · split at hu <;> simp at hu
          · exact absurd hu (by simp)
    have hn := Option.some.inj h
    split at hn <;> omega
  · exact absurd h (by simp)

theorem State.ringBroken_commits (s : State) (q : Nat) : s.Commits (s.ringBroken q) := by
  unfold State.ringBroken
  split
  · exact .refl s
  · next n hn =>
    have hlt := State.queueRing_lt hn
    split
    · exact .refl s
    · exact .ite (fun _ => .refl s) (fun _ =>
        ((s.abandonIf_commits n _).trans (State.ringReturn_commits _ hlt _ _)).trans (State.settle_commits _ hlt))

/-! ## Links -/

theorem State.setPort_commits (s : State) (p : Nat) (x : Port) : s.Commits (s.setPort p x) := .of_same rfl rfl rfl rfl

theorem State.laneSlot_commits (s : State) (n : Nat) : s.Commits (s.laneSlot n) := by
  have h := s.laneSlot_sansLanes n
  have hkept {β : Type} (f : State → β) (hf : ∀ u, f u.sansLanes = f u) : f (s.laneSlot n) = f s := by rw [← hf (s.laneSlot n), h, hf]
  exact .of_same (hkept State.sansCommits fun _ => rfl) (hkept State.regs fun _ => rfl) (hkept State.log fun _ => rfl) (hkept State.xq fun _ => rfl)

theorem State.portSlots_commits (p : Nat) : ∀ (n : Nat) (s : State), s.Commits (State.portSlots n s p)
  | 0, s => .refl s
  | n + 1, s => by
    unfold State.portSlots
    split
    · exact .refl s
    · next r hr =>
      have hlane : s.Commits r.2 := by
        unfold State.portLane at hr
        obtain ⟨k, _, rfl⟩ := Option.map_eq_some_iff.mp hr
        exact .of_same rfl rfl rfl rfl
      exact .trans (.trans hlane (State.laneSlot_commits _ _)) (State.portSlots_commits p n _)

theorem State.portSlotAll_commits (s : State) (p : Nat) : s.Commits (s.portSlotAll p) := by
  unfold State.portSlotAll
  exact .foldl (fun u k _ => .ite (fun _ => u.laneSlot_commits _) (fun _ => .refl u)) s

theorem State.pelSend_commits (s : State) (p type body : Nat) : s.Commits (s.pelSend p type body) := by
  have hsent (u : State) (l : List PelSent) : u.Commits (u.setPel { u.pel with sent := l }) := .of_same rfl rfl rfl rfl
  have hslots : s.Commits (if type = 0xE6 ∨ type = 0xEB then s.portSlotAll p else s.portSlots 1 p) :=
    .ite (fun _ => s.portSlotAll_commits p) (fun _ => State.portSlots_commits p 1 s)
  unfold State.pelSend
  exact .trans hslots (hsent _ _)

theorem State.pelCredit_commits (s : State) (p : Nat) : s.Commits (s.pelCredit p) := by
  unfold State.pelCredit
  exact .trans (s.setPort_commits p _) (State.pelSend_commits _ _ _ _)

theorem State.pelFree_commits (s : State) (p v cost : Nat) : s.Commits (s.pelFree p v cost) := by
  unfold State.pelFree
  dsimp only
  exact .ite (fun _ => .trans (s.setPort_commits p _) (State.pelCredit_commits _ _)) (fun _ => s.setPort_commits p _)

theorem State.bufLeave_commits (s : State) (p id : Nat) : s.Commits (s.bufLeave p id) := by
  unfold State.bufLeave
  dsimp only
  split
  · exact .refl s
  · exact .ite (fun _ => s.setPort_commits p _) (fun _ => .trans (s.setPort_commits p _) (State.pelFree_commits _ _ _ _))

theorem State.pelDrained_commits (s : State) (q : Nat) : s.Commits (s.pelDrained q) := by
  unfold State.pelDrained
  dsimp only
  refine .foldl (fun u p _ => .ite (fun _ => ?_) (fun _ => .refl u)) s
  exact .trans (u.setPort_commits p _) (.foldl (fun v e _ => v.bufLeave_commits p _) _)

theorem State.pelDeliver_commits (s : State) (p q id : Nat) (ws : List (BitVec 128 × BitVec 16)) : s.Commits (s.pelDeliver p q id ws) := by
  unfold State.pelDeliver
  exact .trans (.trans (s.xqFeed_commits q ws) (State.setPort_commits _ p _)) (State.pelDrained_commits _ q)

theorem State.pelTake_commits (s : State) (p : Nat) (t : LateFrame) : s.Commits (s.pelTake p t) := by
  have hmgmt (u : State) (l : List (Nat × PFrame)) : u.Commits (u.setPel { u.pel with mgmt := l }) := .of_same rfl rfl rfl rfl
  unfold State.pelTake
  dsimp only
  split
  · exact .trans (s.setPort_commits p _) (State.pelDeliver_commits _ _ _ _ _)
  · exact .trans (.trans (s.setPort_commits p _) (hmgmt _ _)) (State.bufLeave_commits _ _ _)

/-- A register above the queues' arrays that is at no queue's place. -/
theorem pelReg_commits {f : RF} (s : State) (v : Nat) (h : 0xA0000 ≤ f.off) (hmod : 0xC ≤ f.off % 0x400) : s.Commits (s.put f v) := by
  refine State.Commits.put v ?_ (fun r => ?_) (fun r => ?_) (fun r g hg => ?_)
  · simp only [commitReg, Bool.or_eq_true, Bool.and_eq_true, decide_eq_true_eq]
    omega
  · simp only [R.XQ_CTL]
    omega
  · simp only [R.XQ_BIND]
    omega
  · have hne : g.off ≠ f.off := by
      simp only [mem_stsKept_off hg, R.XQ_STS]
      omega
    simp [RF.apart, hne]

theorem State.pelMark_commits (s : State) (p : Nat) : s.Commits (s.pelMark p) := by
  unfold State.pelMark
  dsimp only
  exact .ite (fun _ => .trans (s.setPort_commits p _) (State.pelSend_commits _ _ _ _)) (fun _ => .refl s)

theorem State.pelFinish_commits (s : State) (p : Nat) (f : PFrame) (stomped : Bool) : s.Commits (s.pelFinish p f stomped) := by
  have hsent (u : State) (l : List PelSent) : u.Commits (u.setPel { u.pel with sent := l }) := .of_same rfl rfl rfl rfl
  unfold State.pelFinish State.pelRecord State.inc
  refine .trans (.trans (.trans (.trans (s.setPort_commits p _) (State.portSlots_commits p _ _)) (hsent _ _)) (pelReg_commits _ _ ?_ ?_))
    (State.pelMark_commits _ p)
  · simp only [F.PEL_FRAMES_TX_count, R.PEL_FRAMES_TX]
    omega
  · simp only [F.PEL_FRAMES_TX_count, R.PEL_FRAMES_TX]
    omega

theorem State.leaveHeld_commits (s : State) (t : TxFrame) : s.Commits (s.leaveHeld t) := by
  unfold State.leaveHeld
  split
  · exact s.bufLeave_commits _ _
  · exact .refl s

theorem State.pelGo_commits (s : State) (p v : Nat) (t : TxFrame) : s.Commits (s.pelGo p v t) := by
  unfold State.pelGo State.pelSpend
  exact .trans (.trans (.trans (s.setPort_commits p _) (State.setPort_commits _ p _)) (State.pelFinish_commits _ _ _ _)) (State.leaveHeld_commits _ t)

theorem State.pelServe_commits (p : Nat) : ∀ (n : Nat) (s : State), s.Commits (State.pelServe n s p)
  | 0, s => .refl s
  | n + 1, s => by
    unfold State.pelServe
    split
    · exact .trans (State.pelTake_commits _ _ _) (State.pelServe_commits p n _)
    · split
      · exact .trans (State.pelGo_commits _ _ _ _) (State.pelServe_commits p n _)
      · exact .refl s

theorem State.pelPushed_commits (s : State) (q : Nat) : s.Commits (s.pelPushed q) :=
  .trans (s.pelDrained_commits q) (State.pelServe_commits 0 _ _)

end Sys2Proof.Machine
end

section
/-! SUPPORT. R171, R184, R185: a flush, and the reset of one side. -/

namespace Sys2Proof.Machine

theorem State.Commits.get {s t : State} (h : s.Commits t) (q : Nat) {f : RF} (hf : f.off = R.XQ_CTL q) : t.get f = s.get f :=
  State.get_of_rd (hf ▸ h.ctl q)

theorem State.Controls.getCtl {s t : State} (h : s.Controls t) (q : Nat) {f : RF} (hf : f.off = R.XQ_CTL q) : t.get f = s.get f :=
  State.get_of_rd (hf ▸ h.ctl q)

/-- The ring of a queue follows from the bindings alone (R186). -/
theorem State.queueRing_congr {s t : State} (h : ∀ q, t.rd (R.XQ_BIND q) = s.rd (R.XQ_BIND q)) (q : Nat) : t.queueRing q = s.queueRing q := by
  have hget (r : Nat) (f : RF) (hf : f.off = R.XQ_BIND r) : t.get f = s.get f := State.get_of_rd (hf ▸ h r)
  have hnames (r : Nat) : t.xqNames r = s.xqNames r := by
    simp only [State.xqNames, hget r (F.XQ_BIND_index r) rfl, hget r (F.XQ_BIND_vc r) rfl, hget r (F.XQ_BIND_kind r) rfl]
  simp only [State.queueRing, State.xqBound, hnames]

theorem State.ringBroken_of_none {s : State} {q : Nat} (h : s.queueRing q = none) : s.ringBroken q = s := by
  simp only [State.ringBroken, h]

@[simp] theorem State.xqStore_xqQ (s : State) (q : Nat) (w : XWord) : (s.xqStore q w).xqQ q = { s.xqQ q with words := (s.xqQ q).words ++ [w] } := by
  simp [State.xqStore]

theorem State.xqDrop_xqQ (s : State) (q : Nat) :
    (s.xqDrop q).xqQ q = { s.xqQ q with words := if s.on (F.XQ_STS_offer q) then (s.xqQ q).words.take 1 else [] } := by
  simp [State.xqDrop]

theorem State.xqDrop_controls (s : State) (q : Nat) : s.Controls (s.xqDrop q) := by
  unfold State.xqDrop
  exact ((s.setXq_controls q _).trans (xqCount_commits _ _ rfl rfl).toControls).trans (State.xqSync_commits _ q).toControls

theorem State.xqStore_controls (s : State) (q : Nat) (w : XWord) : s.Controls (s.xqStore q w) := by
  unfold State.xqStore
  exact ((s.setXq_controls q _).trans (xqCount_commits _ _ rfl rfl).toControls).trans (State.xqSync_commits _ q).toControls

theorem State.xqAbt_controls (s : State) (q : Nat) : s.Controls (s.xqAbt q) := by
  unfold State.xqAbt
  split
  · exact s.xqStore_controls q _
  · exact (State.Commits.refl s).toControls

theorem State.xqEnterDiscard_controls (s : State) (q : Nat) : s.Controls (s.xqEnterDiscard q) := by
  unfold State.xqEnterDiscard
  split
  · exact s.setXq_controls q _
  · exact (State.Commits.refl s).toControls

theorem State.xqFlushRun_controls (s : State) (q : Nat) : s.Controls (s.xqFlushRun q) := by
  unfold State.xqFlushRun
  exact ((((s.setXq_controls q _).trans (State.xqDrop_controls _ q)).trans (State.xqAbt_controls _ q)).trans (State.xqEnterDiscard_controls _ q)).trans
    (State.ringBroken_commits _ q).toControls

theorem State.xqAbt_reset (s : State) (q : Nat) (b : Bool) : ((s.xqAbt q).xqQ q).inReset b = (s.xqQ q).inReset b := by
  unfold State.xqAbt
  split
  · rw [State.xqStore_xqQ]
    cases b <;> rfl
  · rfl

theorem State.xqEnterDiscard_reset (s : State) (q : Nat) (b : Bool) : ((s.xqEnterDiscard q).xqQ q).inReset b = (s.xqQ q).inReset b := by
  unfold State.xqEnterDiscard
  split
  · rw [State.xqQ_setXq]
    cases b <;> rfl
  · rfl

theorem State.xqEnterDiscard_words (s : State) (q : Nat) : ((s.xqEnterDiscard q).xqQ q).words = (s.xqQ q).words := by
  unfold State.xqEnterDiscard
  split
  · rw [State.xqQ_setXq]
  · rfl

theorem State.xqEnterDiscard_get (s : State) (q : Nat) (f : RF) : (s.xqEnterDiscard q).get f = s.get f := by
  unfold State.xqEnterDiscard
  split <;> rfl

theorem xqSts_kept {q : Nat} {f : RF} (hf : (stsKept q).contains f = true) : f ∈ stsKept q := List.contains_iff_mem.mp hf

theorem State.xqSync_flushed (s : State) (q : Nat) : (s.xqSync q).get (F.XQ_FLUSHED_count q) = s.get (F.XQ_FLUSHED_count q) :=
  s.xqSync_get q (apart_base rfl rfl rfl) (apart_base rfl rfl rfl) (apart_base rfl rfl rfl) (apart_base rfl rfl rfl) (apart_base rfl rfl rfl)

theorem State.xqSync_open_r (s : State) (q : Nat) : (s.xqSync q).get (F.XQ_STS_open_r q) = s.get (F.XQ_STS_open_r q) :=
  s.xqSync_get q rfl rfl rfl rfl rfl

/-- A flush without a ring, an offer or an open item removes and counts every word (R171). -/
theorem State.xqFlushRun_spec {s : State} {q : Nat} (hring : s.queueRing q = none) (hoffer : s.get (F.XQ_STS_offer q) = 0)
    (hopen : s.get (F.XQ_STS_open_r q) = 0) : ((s.xqFlushRun q).xqQ q).words = [] ∧
      (s.xqFlushRun q).get (F.XQ_FLUSHED_count q) = (s.get (F.XQ_FLUSHED_count q) + (s.xqQ q).words.length) % 2 ^ 32 := by
  have hcount (u : State) (v : Nat) : (u.inc (F.XQ_FLUSHED_count q) v).get (F.XQ_FLUSHED_count q) = (u.get (F.XQ_FLUSHED_count q) + v) % 2 ^ 32 :=
    State.get_inc _ _ rfl
  generalize hu : (s.setXq q { s.xqQ q with flushDue := false }).xqDrop q = u
  have hctl : s.Controls u := hu ▸ (s.setXq_controls q _).trans (State.xqDrop_controls _ q)
  have hon : (s.setXq q { s.xqQ q with flushDue := false }).on (F.XQ_STS_offer q) = false := by simp [State.on, hoffer]
  have hwords : (u.xqQ q).words = [] := by simp [← hu, State.xqDrop_xqQ, hon]
  have hflushed : u.get (F.XQ_FLUSHED_count q) = (s.get (F.XQ_FLUSHED_count q) + (s.xqQ q).words.length) % 2 ^ 32 := by
    rw [← hu, State.xqDrop, State.xqSync_flushed, hcount]
    simp [hon]
  have hno : u.xqOpenR q = none := by
    have h1 : u.get (F.XQ_STS_offer q) = 0 := (hctl.sts q _ (by simp [stsKept])).trans hoffer
    have h2 : u.get (F.XQ_STS_open_r q) = 0 := by
      rw [← hu, State.xqDrop, State.xqSync_open_r, State.get_inc_apart _ _ (apart_base rfl rfl rfl)]
      exact hopen
    simp [State.xqOpenR, State.on, h1, h2]
  have hrun : s.xqFlushRun q = u.xqEnterDiscard q := by
    rw [State.xqFlushRun, hu, State.xqAbt, hno]
    exact State.ringBroken_of_none ((State.queueRing_congr (hctl.trans (State.xqEnterDiscard_controls u q)).bind q).trans hring)
  exact ⟨by rw [hrun, State.xqEnterDiscard_words, hwords], by rw [hrun, State.xqEnterDiscard_get, hflushed]⟩

/-- The state in which a flush has been asked for (R171). -/
def State.flushAsked (s : State) (q : Nat) : State := (s.put (F.XQ_CTL_flush q) 1).put (F.XQ_STS_flushing q) 1

theorem State.xqFlush_eq {s : State} {q : Nat} (h : s.get (F.XQ_STS_flushing q) = 0) :
    s.xqFlush q = if s.on (F.XQ_STS_clk_stopped q) then (s.flushAsked q).setXq q { s.xqQ q with flushDue := true } else (s.flushAsked q).xqFlushRun q := by
  have hclk : (s.flushAsked q).on (F.XQ_STS_clk_stopped q) = s.on (F.XQ_STS_clk_stopped q) := by
    rw [State.on, State.flushAsked, State.get_put_apart _ _ rfl, State.get_put_apart _ _ (apart_base rfl rfl rfl), State.on]
  rw [State.xqFlush, if_neg (by simp [State.on, h]), ← hclk]
  rfl

theorem State.flushAsked_get (s : State) (q : Nat) : (s.flushAsked q).get (F.XQ_STS_flushing q) = 1 ∧ (s.flushAsked q).get (F.XQ_CTL_flush q) = 1 := by
  refine ⟨State.get_put_lit _ rfl, ?_⟩
  rw [State.flushAsked, State.get_put_apart _ _ (apart_base rfl rfl rfl), State.get_put_lit _ rfl]

theorem State.flushAsked_other (s : State) (q : Nat) {f : RF} (h1 : (F.XQ_CTL_flush q).apart f = true) (h2 : (F.XQ_STS_flushing q).apart f = true) :
    (s.flushAsked q).get f = s.get f := by
  rw [State.flushAsked, State.get_put_apart _ _ h2, State.get_put_apart _ _ h1]

theorem State.flushAsked_bind (s : State) (q r : Nat) : (s.flushAsked q).rd (R.XQ_BIND r) = s.rd (R.XQ_BIND r) := by
  rw [State.flushAsked, State.rd_put_ne, State.rd_put_ne]
  · simp only [F.XQ_CTL_flush, R.XQ_BIND, R.XQ_CTL]
    omega
  · simp only [F.XQ_STS_flushing, R.XQ_BIND, R.XQ_STS]
    omega

/-! ## The reset of a side (R184, R185) -/

/-- The queue of one side about to be reset, its words gone: what it was before step 6 of Table 06.6. -/
def State.sideDropped (s : State) (q : Nat) (writer : Bool) : State :=
  let s := if decide (q < 32) && ! writer then s.offerEnd q else s
  let clocked := writer == decide (q < 32)
  (s.setXq q { s.xqQ q with
    flushDue := false
    wait := if clocked && writer then [] else (s.xqQ q).wait
    got := if clocked && ! writer then [] else (s.xqQ q).got }).xqDrop q

/-- Step 6: the marker of a writer, the discard mode behind a reader. -/
def State.sideMarked (s : State) (q : Nat) (writer : Bool) : State :=
  if writer then
    let s := (s.xqAbt q).xqStore q rstMarker
    (s.setXq q { s.xqQ q with discard := false, fresh := false }).put (F.XQ_STS_open_w q) 0
  else (s.xqEnterDiscard q).put (F.XQ_STS_open_r q) 0

theorem State.xqSideReset_eq (s : State) (q : Nat) (writer : Bool) :
    s.xqSideReset q writer =
      (((((s.sideDropped q writer).sideMarked q writer).setXq q ((((s.sideDropped q writer).sideMarked q writer).xqQ q).setReset writer true)).put
        (F.XQ_STS_far_reset q) 1).raiseFree 0x0706).ringBroken q := rfl

theorem State.offerEnd_bind (s : State) (q r : Nat) : (s.offerEnd q).rd (R.XQ_BIND r) = s.rd (R.XQ_BIND r) := by
  have hregs (u : State) (ch : Chan) (n off : Nat) : (u.clearOut ch n).rd off = u.rd off := by simp only [State.rd, State.clearOut_regs]
  rw [State.offerEnd, State.rd_put_ne, hregs, hregs]
  simp only [F.XQ_STS_offer, R.XQ_BIND, R.XQ_STS]
  omega

theorem State.sideDropped_bind (s : State) (q r : Nat) (writer : Bool) : (s.sideDropped q writer).rd (R.XQ_BIND r) = s.rd (R.XQ_BIND r) := by
  unfold State.sideDropped
  refine ((State.xqDrop_controls _ q).bind r).trans ?_
  show State.rd (if _ then _ else _) _ = _
  split
  · exact s.offerEnd_bind q r
  · rfl

theorem State.sideMarked_bind (s : State) (q r : Nat) (writer : Bool) : (s.sideMarked q writer).rd (R.XQ_BIND r) = s.rd (R.XQ_BIND r) := by
  have hsts (u : State) {f : RF} (hf : f.off = R.XQ_STS q) (v : Nat) : (u.put f v).rd (R.XQ_BIND r) = u.rd (R.XQ_BIND r) := by
    rw [State.rd_put_ne]
    simp only [hf, R.XQ_BIND, R.XQ_STS]
    omega
  unfold State.sideMarked
  split
  · rw [hsts _ rfl]
    exact (((State.xqAbt_controls s q).trans (State.xqStore_controls _ q _)).trans (State.setXq_controls _ q _)).bind r
  · rw [hsts _ rfl]
    exact (State.xqEnterDiscard_controls s q).bind r

theorem State.sideDropped_reset (s : State) (q : Nat) (writer b : Bool) : ((s.sideDropped q writer).xqQ q).inReset b = (s.xqQ q).inReset b := by
  have hif (c : Bool) : (if c = true then s.offerEnd q else s).xqQ q = s.xqQ q := by
    cases c
    · rfl
    · exact s.offerEnd_xqQ q q
  unfold State.sideDropped
  simp only [State.xqDrop_xqQ, State.xqQ_setXq, hif]
  cases b <;> rfl

theorem State.sideMarked_reset (s : State) (q : Nat) (writer b : Bool) : ((s.sideMarked q writer).xqQ q).inReset b = (s.xqQ q).inReset b := by
  unfold State.sideMarked
  split
  · rw [State.put_xqQ, State.xqQ_setXq, State.xqStore_xqQ, ← State.xqAbt_reset]
    cases b <;> rfl
  · rw [State.put_xqQ, State.xqEnterDiscard_reset]

theorem State.sideMarked_last (s : State) (q : Nat) : ((s.sideMarked q true).xqQ q).words.getLast? = some rstMarker := by
  simp [State.sideMarked]

theorem Xq.inReset_setReset (x : Xq) (w b c : Bool) : (x.setReset w b).inReset c = if c = w then b else x.inReset c := by
  cases w <;> cases c <;> rfl

theorem Xq.words_setReset (x : Xq) (w b : Bool) : (x.setReset w b).words = x.words := by cases w <;> rfl

/-- The reset of a side, of a queue without a ring (R184, R185). -/
theorem completes_xqSideReset {q : Fin 64} {writer : Bool} {s : State} (hout : (s.xqQ q).inReset writer = false) (hring : s.queueRing q = none) :
    Completes (.xqSideReset q writer) s (fun t => (t.xqQ q).inReset writer = true ∧ (t.xqQ q).inReset (! writer) = (s.xqQ q).inReset (! writer) ∧
      t.get (F.XQ_STS_far_reset q) = 1 ∧ t.loggedSome 0x0706 ∧ (writer = true → (t.xqQ q).words.getLast? = some rstMarker)) := by
  generalize hu : (s.sideDropped q writer).sideMarked q writer = u
  have hbind (r : Nat) : u.rd (R.XQ_BIND r) = s.rd (R.XQ_BIND r) := hu ▸ (State.sideMarked_bind _ _ _ _).trans (State.sideDropped_bind _ _ _ _)
  have hreset (b : Bool) : (u.xqQ q).inReset b = (s.xqQ q).inReset b := hu ▸ (State.sideMarked_reset _ _ _ _).trans (State.sideDropped_reset _ _ _ _)
  have hlast : writer = true → (u.xqQ q).words.getLast? = some rstMarker := fun hw => by
    subst hw
    exact hu ▸ State.sideMarked_last _ _
  generalize hv : ((u.setXq q ((u.xqQ q).setReset writer true)).put (F.XQ_STS_far_reset q) 1).raiseFree 0x0706 = v
  have hvq : v.xqQ q = (u.xqQ q).setReset writer true := by rw [← hv, State.raiseFree_xqQ, State.put_xqQ, State.xqQ_setXq]
  have hpage (f : RF) (hf : f.off = R.XQ_STS q) (x : State) : (x.raiseFree 0x0706).get f = x.get f :=
    State.raiseFree_getKept _ _ (eventReg_of_page (hf ▸ xqReg_page q (f := f) (a := 0xA0008) hf rfl))
  have hfar : v.get (F.XQ_STS_far_reset q) = 1 := by rw [← hv, hpage _ rfl, State.get_put_lit _ rfl]
  have hlog : v.loggedSome 0x0706 := hv ▸ State.raiseFree_loggedSome _ _
  have hvring : v.queueRing q = none := by
    rw [← hring]
    refine State.queueRing_congr (fun r => ?_) q
    rw [← hv, State.raiseFree_rd _ _ (eventReg_of_page (by simp only [R.XQ_BIND]; omega)), State.rd_put_ne]
    · exact hbind r
    · simp only [F.XQ_STS_far_reset, R.XQ_BIND, R.XQ_STS]
      omega
  have hexec : exec (.xqSideReset q writer) s = .next (v.pelPushed q) := by
    show execXqSideReset q writer s = _
    rw [execXqSideReset, if_neg (by simp [hout]), State.xqSideReset_eq, hu, hv, State.ringBroken_of_none hvring]
  have hserve := v.pelPushed_commits q
  obtain ⟨p, hp⟩ := hlog
  obtain ⟨l, hl⟩ := hserve.log
  refine ⟨_, hexec, ?_, ?_, (hserve.sts q _ (by simp [stsKept])).trans hfar, ⟨p, State.logged_mono hl hp⟩, fun hw => ?_⟩
  · rw [hserve.reset, hvq, Xq.inReset_setReset, if_pos rfl]
  · rw [hserve.reset, hvq, Xq.inReset_setReset, if_neg (by cases writer <;> decide), hreset]
  · have hheld : (v.xqQ q).wReset = true := by
      rw [hvq, hw]
      rfl
    rw [hserve.held q hheld, hvq, Xq.words_setReset]
    exact hlast hw

/-- Settles O17: pause, flush and clear by the fields they write; the reset of a side by its steps. -/
theorem queuesPauseFlushClearAndReset : Obligations.QueuesPauseFlushClearAndReset := by
  unfold Obligations.QueuesPauseFlushClearAndReset
  refine ⟨?_, ?_, ?_, ?_, ?_, ?_, ?_, ?_, ?_, ?_, ?_⟩
  · intro q s hoff
    obtain ⟨hflushing, hflush⟩ := s.flushAsked_get q
    refine ⟨s.xqFlush q, rfl, ?_⟩
    rw [State.xqFlush_eq hoff]
    split
    · exact ⟨by rw [State.setXq_get, hflushing], by rw [State.setXq_get, hflush]⟩
    · have hctl := (s.flushAsked q).xqFlushRun_controls q
      exact ⟨(hctl.sts q _ (by simp [stsKept])).trans hflushing, (hctl.getCtl q rfl).trans hflush⟩
  · intro q s hoff hring hoffer hopen hclk
    refine ⟨s.xqFlush q, rfl, ?_⟩
    rw [State.xqFlush_eq hoff, if_neg (by simp [State.on, hclk])]
    obtain ⟨hwords, hcount⟩ := State.xqFlushRun_spec (s := s.flushAsked q) (q := q) ((State.queueRing_congr (s.flushAsked_bind q) q).trans hring)
      ((s.flushAsked_other q (apart_base rfl rfl rfl) rfl).trans hoffer) ((s.flushAsked_other q (apart_base rfl rfl rfl) rfl).trans hopen)
    exact ⟨hwords, by rw [hcount, State.flushAsked_other _ _ (apart_base rfl rfl rfl) (apart_base rfl rfl rfl), State.flushAsked, State.put_xqQ, State.put_xqQ]⟩
  · intro q s hoff hclk
    refine ⟨s.xqFlush q, rfl, ?_⟩
    rw [State.xqFlush_eq hoff, if_pos (by simp [State.on, hclk])]
    beta_reduce
    rw [State.xqQ_setXq, State.setXq_get]
    exact ⟨rfl, rfl, s.flushAsked_other q (apart_base rfl rfl rfl) (apart_base rfl rfl rfl)⟩
  · intro q s hclk
    exact ⟨s, if_pos (by simp [State.on, hclk]), rfl⟩
  · intro q s hflush hclk hdue
    refine ⟨_, if_neg (by simp [State.on, hflush, hclk, hdue]), ?_, State.get_put_lit _ rfl⟩
    rw [State.get_put_apart _ _ (apart_base rfl rfl rfl), State.get_put_lit _ rfl]
  · intro q s
    exact ⟨_, rfl, State.get_put_lit _ rfl, rfl⟩
  · intro q s hpause hoffer hclk
    exact ⟨_, if_pos (by simp [State.on, hpause, hoffer, hclk]), State.get_put_lit _ rfl⟩
  · intro q s
    refine ⟨_, rfl, ?_, State.get_put_lit _ rfl⟩
    rw [State.get_put_apart _ _ (apart_base rfl rfl rfl), State.get_put_lit _ rfl]
  · intro q s hpaused
    refine ⟨s.xqClrCnt q, rfl, ?_⟩
    have hdepth (u : State) (v : Nat) : (u.put (F.XQ_PUSHED_count q) v).get (F.XQ_PUSHED_count q) = v % 2 ^ 32 := State.get_put_self _ _ rfl
    rw [State.xqClrCnt, if_neg (by simp [State.on, hpaused])]
    refine ⟨?_, ?_, ?_, ?_, State.get_put_lit _ rfl, rfl⟩
    · rw [State.get_put_apart _ _ (apart_base rfl rfl rfl), State.get_put_apart _ _ (apart_base rfl rfl rfl),
        State.get_put_apart _ _ (apart_base rfl rfl rfl), State.get_put_apart _ _ (apart_base rfl rfl rfl), hdepth]
    · rw [State.get_put_apart _ _ (apart_base rfl rfl rfl), State.get_put_apart _ _ (apart_base rfl rfl rfl),
        State.get_put_apart _ _ (apart_base rfl rfl rfl), State.get_put_lit _ rfl]
    · rw [State.get_put_apart _ _ (apart_base rfl rfl rfl), State.get_put_apart _ _ (apart_base rfl rfl rfl), State.get_put_lit _ rfl]
    · rw [State.get_put_apart _ _ (apart_base rfl rfl rfl), State.get_put_lit _ rfl]
  · intro q writer s hout hring
    exact completes_xqSideReset hout hring
  · intro q writer s
    refine ⟨s.xqSideEnd q writer, rfl, ?_⟩
    beta_reduce
    rw [State.xqSideEnd, State.xqQ_setXq, Xq.inReset_setReset, Xq.inReset_setReset, Xq.words_setReset, if_pos rfl, if_neg (by cases writer <;> decide)]
    exact ⟨rfl, rfl, rfl, rfl⟩

end Sys2Proof.Machine
end

section
/-! SUPPORT. R16, R180 to R182: a clock that stops and returns, and an access that waits too long. -/

namespace Sys2Proof.Machine

theorem State.Controls.clk {s t : State} (h : s.Controls t) : t.clk = s.clk := congrArg (fun p => p.1.clk) h.rest

/-- What the queues show of stopped clocks changes no clock. -/
theorem State.clkShow_clk (s : State) : s.clkShow.clk = s.clk := by
  unfold State.clkShow
  refine foldl_kept State.clk ?_ s
  intro u q _
  dsimp only
  split
  · exact (State.xqFlushRun_controls _ q).clk
  · rfl

theorem State.wdgTurn_clk (s : State) (n k : Nat) (w : Wdg) : (s.wdgTurn n k w).clk = s.clk := by
  unfold State.wdgTurn
  dsimp only
  split <;> rfl

theorem State.wdgRestart_clk (s : State) (n k : Nat) : (s.wdgRestart n k).clk = s.clk := by
  unfold State.wdgRestart
  dsimp only
  split
  · rfl
  · exact State.wdgTurn_clk _ _ _ _

theorem State.wdgSync_clk (s : State) (n : Nat) : (s.wdgSync n).clk = s.clk := by
  unfold State.wdgSync
  exact foldl_kept State.clk (by intro u k _; exact State.wdgTurn_clk u n k _) s

theorem State.clkTaps_clk (s : State) (d : Nat) : (s.clkTaps d).clk = s.clk := by
  unfold State.clkTaps State.wdgClock
  split
  · refine foldl_kept State.clk ?_ s
    intro u n _
    rw [State.wdgSync_clk]
    refine foldl_kept State.clk ?_ u
    intro v k _
    split
    · exact State.wdgRestart_clk v n k
    · rfl
  · rfl

theorem bit_set (v : BitVec 71) (d : Fin 71) : (v ||| BitVec.ofNat 71 (2 ^ d.val)).getLsbD d = true := by
  rw [BitVec.getLsbD_or, BitVec.getLsbD_ofNat, Nat.testBit_two_pow_self]
  simp

theorem bit_cleared (v : BitVec 71) (d : Fin 71) : (v &&& ~~~ BitVec.ofNat 71 (2 ^ d.val)).getLsbD d = false := by
  rw [BitVec.getLsbD_and, BitVec.getLsbD_not, BitVec.getLsbD_ofNat, Nat.testBit_two_pow_self]
  simp

/-- The count and the capture of a hung access (R181). -/
def State.hangCaptured (s : State) (a : Access) : State :=
  if s.on F.SUP_CROSS_STS_valid then s
  else ((s.put F.SUP_CROSS_STS_valid 1).put F.SUP_CROSS_ADDR_addr a.addr).putB F.SUP_CROSS_ADDR_write a.write.isSome

theorem State.hangCaptured_spec (s : State) (a : Access) :
    (s.hangCaptured a).clk = s.clk ∧ (s.hangCaptured a).get F.SUP_CROSS_STS_hangs = s.get F.SUP_CROSS_STS_hangs ∧
    (s.hangCaptured a).get F.SUP_CROSS_CTL_force_en = s.get F.SUP_CROSS_CTL_force_en ∧ (s.hangCaptured a).get F.SUP_CROSS_STS_valid = 1 ∧
    (s.get F.SUP_CROSS_STS_valid = 0 → (s.hangCaptured a).get F.SUP_CROSS_ADDR_addr = a.addr % 2 ^ 24) := by
  have haddr (u : State) (v : Nat) : (u.put F.SUP_CROSS_ADDR_addr v).get F.SUP_CROSS_ADDR_addr = v % 2 ^ 24 := State.get_put_self _ _ rfl
  unfold State.hangCaptured
  split
  · next hv =>
    rcases s.get_bit F.SUP_CROSS_STS_valid rfl with h | h
    · simp [State.on, h] at hv
    · exact ⟨rfl, rfl, rfl, h, fun h0 => by omega⟩
  · refine ⟨rfl, ?_, ?_, ?_, fun _ => ?_⟩
    · rw [State.get_putB_apart _ _ rfl, State.get_put_apart _ _ rfl, State.get_put_apart _ _ rfl]
    · rw [State.get_putB_apart _ _ rfl, State.get_put_apart _ _ rfl, State.get_put_apart _ _ rfl]
    · rw [State.get_putB_apart _ _ rfl, State.get_put_apart _ _ rfl, State.get_put_lit _ rfl]
    · rw [State.get_putB_apart _ _ rfl, haddr]

/-- Settles O19: the stopped bit of a clock, and the count and capture of a hung access. -/
theorem stoppedClocksAreReported : Obligations.StoppedClocksAreReported := by
  unfold Obligations.StoppedClocksAreReported
  refine ⟨?_, ?_, ?_⟩
  · intro d s hrun
    refine ⟨_, if_neg (by simp [hrun]), ?_, State.raiseFree_loggedSome _ _⟩
    rw [State.clkStopped, State.raiseFree_clk, State.clkTaps_clk, State.clkShow_clk]
    exact bit_set _ d
  · intro d s hstop hwaits
    show ∃ t, execClockReturned d s = .next t ∧ _
    rw [execClockReturned, if_neg (by simp [hstop])]
    simp only [hwaits, List.filter_nil, List.foldl_nil]
    refine ⟨_, rfl, ?_, State.raiseFree_loggedSome _ _⟩
    rw [State.clkStopped, State.raiseFree_clk, State.clkTaps_clk, State.putB, State.put_clk, State.clkShow_clk]
    exact bit_cleared _ d
  · intro d a s hfind hhung hforce
    obtain ⟨hclk, hhangs, hen, hvalid, haddr⟩ := State.hangCaptured_spec
      ((s.setClk { s.clk with hung := s.clk.hung ||| BitVec.ofNat 71 (2 ^ d.val) }).sat F.SUP_CROSS_STS_hangs) a
    generalize hu : ((s.setClk { s.clk with hung := s.clk.hung ||| BitVec.ofNat 71 (2 ^ d.val) }).sat F.SUP_CROSS_STS_hangs) = u at hclk hhangs hen hvalid haddr
    have hcount : u.get F.SUP_CROSS_STS_hangs = min (s.get F.SUP_CROSS_STS_hangs + 1) 255 := by
      rw [← hu, State.get_sat _ _ rfl, State.setClk_get]
      rfl
    have hother (f : RF) (hf : F.SUP_CROSS_STS_hangs.apart f = true) : u.get f = s.get f := by
      rw [← hu, State.get_sat_apart _ _ hf, State.setClk_get]
    have hbit : u.clk.hung.getLsbD d = true := hu ▸ bit_set _ d
    have hstay : ¬ ((u.hangCaptured a).raiseFree 0x0704).on F.SUP_CROSS_CTL_force_en = true := by
      rw [State.on, State.raiseFree_getKept _ _ rfl, hen, hother _ rfl, hforce]
      decide
    have hexec : exec (.accessHang d) s = .next ((u.hangCaptured a).raiseFree 0x0704) := by
      show execAccessHang d s = _
      simp only [execAccessHang, hfind, hhung, Bool.false_eq_true, if_false, hu]
      exact congrArg Host.Outcome.next (if_neg hstay)
    refine ⟨_, hexec, ?_, ?_, State.raiseFree_loggedSome _ _, ?_, fun h0 => ?_⟩
    · rw [State.raiseFree_getKept _ _ rfl, hhangs, hcount]
    · rw [State.raiseFree_getKept _ _ rfl, hvalid]
    · rw [State.raiseFree_clk, hclk, hbit]
    · rw [State.raiseFree_getKept _ _ rfl, haddr (by rw [hother _ rfl, h0])]

end Sys2Proof.Machine
end

section

/-! SUPPORT. O27: what becomes of one frame of a load. -/

namespace Sys2Proof.Machine

/-- A frame with an illegal address, or of a region outside the load's set, is refused. -/
theorem State.loadFrame_outside (s : State) (l : Load) (addr : Nat) (f : Frame) (r : RepairRec)
    (h : l.set.getLsbD (addr / 65536 % 16) = false) :
    s.loadFrame l addr f r = ((s.put F.LDR_ERRPOS_addr addr).put F.LDR_ERRPOS_valid 1, l, 0x0D) := by
  unfold State.loadFrame
  rw [if_pos (by simp only [h, Bool.not_false, Bool.or_true])]

/-- A frame of a retired region is skipped, with event 0x0209 at the first one of the load. -/
theorem State.loadFrame_skipped (s : State) (l : Load) (addr : Nat) (f : Frame) (r : RepairRec) (hl : frameLegal addr = true)
    (h : l.set.getLsbD (addr / 65536 % 16) = true) (hr : s.regionRetired (addr / 65536 % 16) = true) :
    s.loadFrame l addr f r = (if l.skipped then s.inc F.LDR_SKIPPED_count
      else (s.inc F.LDR_SKIPPED_count).raise 0x0209 (addr / 65536 % 16), { l with skipped := true }, 0) := by
  unfold State.loadFrame
  rw [if_neg (by simp only [hl, h, Bool.not_true, Bool.or_false, Bool.false_eq_true, not_false_iff]), if_pos hr]

/-- What the one-driver table says of a frame: `none` where a segment that it drives is held already. -/
def State.frameTake (s : State) (addr : Nat) (f : Frame) : Option (SMap Nat) :=
  segsTake s.ldr.segs
    (frameSegs (addr / 65536 % 16) (addr / 256 % 256) (addr % 256) (s.frame (addr / 65536 % 16) (addr / 256 % 256) (addr % 256)))
    (frameSegs (addr / 65536 % 16) (addr / 256 % 256) (addr % 256) f)

section

variable {s : State} {l : Load} {addr : Nat} {f : Frame} (r : RepairRec) (hl : frameLegal addr = true)
  (h : l.set.getLsbD (addr / 65536 % 16) = true) (hr : s.regionRetired (addr / 65536 % 16) = false)

include hl h hr

/-- Any other frame is refused where its segments are held. -/
theorem State.loadFrame_held (hs : s.frameTake addr f = none) :
    s.loadFrame l addr f r = ((s.put F.LDR_ERRPOS_addr addr).put F.LDR_ERRPOS_valid 1, l, 0x0E) := by
  unfold State.loadFrame
  unfold State.frameTake at hs
  simp only [hl, h, hr, hs, Bool.not_true, Bool.or_false, Bool.false_eq_true, if_false]

/-- Any other frame is written where its segments are free. -/
theorem State.loadFrame_written {t : SMap Nat} (hs : s.frameTake addr f = some t) :
    ∃ flt l', s.loadFrame l addr f r =
      ((((s.setLdr { s.ldr with segs := t }).frameWrite addr f).inc F.LDR_FRAMES_count).setFlt flt, l', 0) := by
  unfold State.loadFrame
  unfold State.frameTake at hs
  simp only [hl, h, hr, hs, Bool.not_true, Bool.or_false, Bool.false_eq_true, if_false]
  exact ⟨_, _, rfl⟩

end

/-- Settles O27, by the three ways that a frame can go. -/
theorem framesAreWrittenSkippedOrRefused : Obligations.FramesAreWrittenSkippedOrRefused := by
  intro l addr f r s
  refine ⟨fun h => ?_, fun hl h hr => ?_, fun hl h hr => ?_⟩
  · rw [s.loadFrame_outside l addr f r h]
    exact ⟨rfl, by simp⟩
  · rw [s.loadFrame_skipped l addr f r hl h hr]
    have hcount : (s.inc F.LDR_SKIPPED_count).get F.LDR_SKIPPED_count = (s.get F.LDR_SKIPPED_count + 1) % 2 ^ F.LDR_SKIPPED_count.w :=
      State.get_inc _ _ rfl
    refine ⟨rfl, ?_, ?_⟩
    · dsimp only
      split <;> simp
    · dsimp only
      split
      · exact hcount
      · rw [State.raise_getKept _ _ _ rfl, hcount]
  · intro n
    change match s.frameTake addr f with | none => _ | some t => _
    cases hs : s.frameTake addr f with
    | none =>
      rw [State.loadFrame_held r hl h hr hs]
      refine ⟨rfl, by simp, ?_⟩
      rw [State.get_put_apart _ _ rfl, State.get_put_self _ _ rfl]
    | some t =>
      obtain ⟨flt, l', ht⟩ := State.loadFrame_written r hl h hr hs
      rw [ht]
      refine ⟨rfl, by simp [State.frameWrite, State.inc], by simp, ?_⟩
      rw [State.setFlt_get, State.get_inc _ _ rfl]
      simp [State.frameWrite]

end Sys2Proof.Machine

end

section

/-! SUPPORT. O48: the FIFOs of the peripherals (Table 15.7, R454 to R457). -/

namespace Sys2Proof.Machine

@[simp] theorem fifo_fifoSet {α : Type} [DecidableEq α] (m : SMap (List α)) (k : Nat) (l : List α) : fifo (fifoSet m k l) k = l :=
  SMap.get_set_same _ _ _ _

theorem State.on_of_one {s : State} {f : RF} (h : s.get f = 1) : s.on f = true := by rw [State.on, h]; rfl

theorem State.on_of_zero {s : State} {f : RF} (h : s.get f = 0) : s.on f = false := by rw [State.on, h]; rfl

theorem State.get_setPins (s : State) (p : Pins) (f : RF) : ({ s with pins := p } : State).get f = s.get f := rfl

/-! ## UART -/

theorem State.uartPush_stored {s : State} {k : Nat} (b : Byte) (h : (fifo s.pins.uartTx k).length < 64) :
    fifo (s.uartPush k b).pins.uartTx k = fifo s.pins.uartTx k ++ [b] ∧
      (s.uartPush k b).get (F.UART_STS_tx_lvl k) = (fifo s.pins.uartTx k).length + 1 := by
  have hlt : (fifo s.pins.uartTx k).length + 1 < 2 ^ (F.UART_STS_tx_lvl k).w := Nat.lt_of_le_of_lt h (show 64 < 2 ^ 7 by decide)
  unfold State.uartPush
  dsimp only
  rw [if_neg (Nat.not_le.mpr h)]
  split
  · exact ⟨by simp, by rw [State.get_put_apart _ _ rfl, State.get_put_lt _ rfl hlt]⟩
  · exact ⟨by simp, State.get_put_lt _ rfl hlt⟩

theorem State.uartPush_lost {s : State} {k : Nat} (b : Byte) (h : 64 ≤ (fifo s.pins.uartTx k).length) :
    s.uartPush k b = s.put (F.UART_STS_tx_lost k) 1 := if_pos h

theorem State.uartPop_cons {s : State} {k : Nat} {e : UartByte} {q : List UartByte} (h : fifo s.pins.uartRx k = e :: q) :
    fifo (s.uartPop k).pins.uartRx k = q ∧ (s.uartPop k).readData = BitVec.ofNat 32 (uartWord e) := by
  unfold State.uartPop
  rw [h]
  exact ⟨by simp, rfl⟩

theorem State.uartPop_nil {s : State} {k : Nat} (h : fifo s.pins.uartRx k = []) : s.uartPop k = { s with readData := 0 } := by
  unfold State.uartPop
  rw [h]

theorem uartWord_lt (e : UartByte) : uartWord e < 2 ^ 32 := by
  have hb := e.byte.isLt
  unfold uartWord
  split <;> split <;> split <;> omega

theorem completes_uartTx {k : Fin 2} {b : BitVec 8} {s : State} (h : s.barOpen (R.UART_TX k) = true) :
    ((fifo s.pins.uartTx k).length < 64 → Completes (.uartTx k b) s (fun t => fifo t.pins.uartTx k = fifo s.pins.uartTx k ++ [b] ∧
      t.get (F.UART_STS_tx_lvl k) = (fifo s.pins.uartTx k).length + 1)) ∧
    (64 ≤ (fifo s.pins.uartTx k).length → Completes (.uartTx k b) s (fun t => t.pins.uartTx = s.pins.uartTx ∧ t.get (F.UART_STS_tx_lost k) = 1)) := by
  refine ⟨fun hl => completes_bar (u := s.pinWrite.uartPush k b) rfl h (State.uartPush_stored (s := s.pinWrite) b hl), fun hl => ?_⟩
  refine completes_bar (u := s.pinWrite.uartPush k b) rfl h ?_
  rw [State.uartPush_lost (s := s.pinWrite) b hl]
  exact ⟨rfl, State.get_put_lit _ rfl⟩

theorem completes_uartByteSent {k : Fin 2} {b : BitVec 8} {q : List (BitVec 8)} {s : State} (hq : fifo s.pins.uartTx k = b :: q)
    (hb : s.get (F.UART_STS_busy k) = 1) (hl : q.length < 128) :
    Completes (.uartByteSent k) s (fun t => fifo t.pins.uartTx k = q ∧ fifo t.pins.uartSent k = fifo s.pins.uartSent k ++ [s.uartFrame k b] ∧
      t.get (F.UART_STS_tx_lvl k) = q.length ∧ (q = [] → t.get (F.UART_STS_busy k) = 0)) := by
  show ∃ t, execUartByteSent k s = .next t ∧ _
  unfold execUartByteSent
  rw [hq]
  simp only [State.on_of_one hb, Bool.not_true, Bool.false_eq_true, if_false]
  refine ⟨_, rfl, by simp [State.putB], by simp [State.putB], ?_, fun h => ?_⟩
  · rw [State.get_putB_apart _ _ rfl, State.get_put_lt _ rfl hl]
  · rw [State.get_putB _ _ rfl, h]
    rfl

theorem completes_uartByteReceived {k : Fin 2} {b : BitVec 8} {ferr perr brk : Bool} {s : State} (h : s.perRuns k = true) :
    ((fifo s.pins.uartRx k).length < 64 → Completes (.uartByteReceived k b ferr perr brk) s (fun t =>
      fifo t.pins.uartRx k = fifo s.pins.uartRx k ++ [⟨if s.on (F.UART_CFG_bits7 k) then b &&& 0x7F else b, ferr, perr && s.uartParity k, brk⟩])) ∧
    (64 ≤ (fifo s.pins.uartRx k).length → Completes (.uartByteReceived k b ferr perr brk) s (fun t => t.pins.uartRx = s.pins.uartRx ∧
      t.get (F.UART_STS_overrun k) = 1 ∧ t.logged 0x0B06 k)) := by
  refine ⟨fun hl => ?_, fun hl => ?_⟩ <;> show ∃ t, execUartByteReceived k b ferr perr brk s = .next t ∧ _ <;>
    simp only [execUartByteReceived, h, Bool.not_true, Bool.false_eq_true, if_false]
  · rw [if_neg (Nat.not_le.mpr hl)]
    exact ⟨_, rfl, by simp⟩
  · rw [if_pos hl]
    refine ⟨_, rfl, by simp, ?_, State.raise_logged _ _ _⟩
    rw [State.raise_getKept _ _ _ (eventReg_of_page (Nat.le_add_right_of_le (by decide))), State.get_put_lit _ rfl]

theorem completes_uartRx {k : Fin 2} {e : UartByte} {q : List UartByte} {s : State} (h : s.barOpen (R.UART_RX k) = true) :
    (fifo s.pins.uartRx k = e :: q → Completes (.uartRx k) s (fun t => fifo t.pins.uartRx k = q ∧ t.readData.toNat = uartWord e)) ∧
    (fifo s.pins.uartRx k = [] → Completes (.uartRx k) s (fun t => t = { s with readData := 0 })) := by
  refine ⟨fun hq => completes_bar (u := s.uartPop k) rfl h ?_, fun hq => completes_bar (u := s.uartPop k) rfl h (State.uartPop_nil hq)⟩
  obtain ⟨hf, hr⟩ := State.uartPop_cons hq
  rw [hf, hr, BitVec.toNat_ofNat, Nat.mod_eq_of_lt (uartWord_lt e)]
  exact ⟨rfl, rfl⟩

/-! ## SPI -/

theorem State.spiPush_stored {s : State} {k : Nat} (w : Word) (h : (fifo s.pins.spiTx k).length < 16) :
    fifo (s.spiPush k w).pins.spiTx k = fifo s.pins.spiTx k ++ [w] ∧
      (s.spiPush k w).get (F.SPI_STS_tx_lvl k) = (fifo s.pins.spiTx k).length + 1 := by
  have hlt : (fifo s.pins.spiTx k).length + 1 < 2 ^ (F.SPI_STS_tx_lvl k).w := Nat.lt_of_le_of_lt h (show 16 < 2 ^ 5 by decide)
  unfold State.spiPush
  dsimp only
  rw [if_neg (Nat.not_le.mpr h)]
  split
  · exact ⟨by simp, by rw [State.get_put_apart _ _ rfl, State.get_put_lt _ rfl hlt]⟩
  · exact ⟨by simp, State.get_put_lt _ rfl hlt⟩

theorem State.spiPush_lost {s : State} {k : Nat} (w : Word) (h : 16 ≤ (fifo s.pins.spiTx k).length) :
    s.spiPush k w = s.put (F.SPI_STS_tx_lost k) 1 := if_pos h

theorem State.spiPop_cons {s : State} {k : Nat} {w : Word} {q : List Word} (h : fifo s.pins.spiRx k = w :: q) :
    fifo (s.spiPop k).pins.spiRx k = q ∧ (s.spiPop k).readData = w := by
  unfold State.spiPop
  rw [h]
  dsimp only
  split <;> exact ⟨by simp, rfl⟩

theorem State.spiPop_nil {s : State} {k : Nat} (h : fifo s.pins.spiRx k = []) : s.spiPop k = { s with readData := 0 } := by
  unfold State.spiPop
  rw [h]

theorem completes_spiTx {k : Fin 2} {w : BitVec 32} {s : State} (h : s.barOpen (R.SPI_TX k) = true) :
    ((fifo s.pins.spiTx k).length < 16 → Completes (.spiTx k w) s (fun t => fifo t.pins.spiTx k = fifo s.pins.spiTx k ++ [w] ∧
      t.get (F.SPI_STS_tx_lvl k) = (fifo s.pins.spiTx k).length + 1)) ∧
    (16 ≤ (fifo s.pins.spiTx k).length → Completes (.spiTx k w) s (fun t => t.pins.spiTx = s.pins.spiTx ∧ t.get (F.SPI_STS_tx_lost k) = 1)) := by
  refine ⟨fun hl => completes_bar (u := s.pinWrite.spiPush k w) rfl h (State.spiPush_stored (s := s.pinWrite) w hl), fun hl => ?_⟩
  refine completes_bar (u := s.pinWrite.spiPush k w) rfl h ?_
  rw [State.spiPush_lost (s := s.pinWrite) w hl]
  exact ⟨rfl, State.get_put_lit _ rfl⟩

theorem completes_spiWordDone {k : Fin 2} {v w : BitVec 32} {q : List (BitVec 32)} {s : State} (hq : fifo s.pins.spiTx k = v :: q)
    (hb : s.get (F.SPI_STS_busy k) = 1) (hl : (fifo s.pins.spiRx k).length < 16) :
    Completes (.spiWordDone k w) s (fun t => fifo t.pins.spiTx k = q ∧ fifo t.pins.spiRx k = fifo s.pins.spiRx k ++ [s.spiMask k w] ∧
      t.get (F.SPI_STS_rx_lvl k) = (fifo s.pins.spiRx k).length + 1 ∧
      fifo t.pins.spiSent k = fifo s.pins.spiSent k ++ [s.spiFrame k v]) := by
  have hlt : (fifo s.pins.spiRx k).length + 1 < 2 ^ (F.SPI_STS_rx_lvl k).w := Nat.lt_of_le_of_lt hl (show 16 < 2 ^ 5 by decide)
  show ∃ t, execSpiWordDone k w s = .next t ∧ _
  unfold execSpiWordDone
  rw [hq]
  simp only [State.on_of_one hb, decide_eq_false (Nat.not_le.mpr hl), Bool.not_true, Bool.or_self, Bool.false_eq_true, if_false]
  refine ⟨_, rfl, by simp [State.putB], by simp [State.putB], ?_, by simp [State.putB]⟩
  rw [State.get_putB_apart _ _ rfl, State.get_put_lt _ rfl hlt]

theorem completes_spiRx {k : Fin 2} {w : BitVec 32} {q : List (BitVec 32)} {s : State} (h : s.barOpen (R.SPI_RX k) = true) :
    (fifo s.pins.spiRx k = w :: q → Completes (.spiRx k) s (fun t => fifo t.pins.spiRx k = q ∧ t.readData = w)) ∧
    (fifo s.pins.spiRx k = [] → Completes (.spiRx k) s (fun t => t = { s with readData := 0 })) :=
  ⟨fun hq => completes_bar (u := s.spiPop k) rfl h (State.spiPop_cons hq), fun hq => completes_bar (u := s.spiPop k) rfl h (State.spiPop_nil hq)⟩

/-! ## I2C -/

theorem State.i2cPop_cons {s : State} {k : Nat} {b : Byte} {q : List Byte} (h : fifo s.pins.i2cRx k = b :: q) :
    fifo (s.i2cPop k).pins.i2cRx k = q ∧ (s.i2cPop k).readData = b.setWidth 32 := by
  unfold State.i2cPop
  rw [h]
  exact ⟨by simp, rfl⟩

theorem State.i2cPop_nil {s : State} {k : Nat} (h : fifo s.pins.i2cRx k = []) : s.i2cPop k = { s with readData := 0 } := by
  unfold State.i2cPop
  rw [h]

/-- A command starts where the bus is free, the peripheral runs and no keeper holds one of its pins. -/
theorem State.i2cStart_runs {s : State} {k : Nat} (cmd : Word) (low : Bool) (hb : s.get (F.I2C_STS_busy k) = 0) (hr : s.perRuns (4 + k) = true)
    (hp : ∀ p ∈ s.claimPins (4 + k), s.pins.keeper.getLsbD p = false) :
    (s.i2cStart k cmd low).get (F.I2C_STS_busy k) = 1 ∧ SMap.get (fun _ => 0) (s.i2cStart k cmd low).pins.i2cCmd k = cmd ∧
      SMap.get (fun _ => 0) (s.i2cStart k cmd low).pins.i2cClears k = SMap.get (fun _ => 0) s.pins.i2cClears k + if low then 1 else 0 := by
  have hany : (s.claimPins (4 + k)).any (fun p => s.pins.keeper.getLsbD p) = false := List.any_eq_false.mpr fun p h => by simp only [hp p h, Bool.false_eq_true, not_false_iff]
  unfold State.i2cStart
  rw [if_neg (by simp only [State.on_of_zero hb, hr, hany, Bool.not_true, Bool.or_self, Bool.false_eq_true, not_false_iff])]
  refine ⟨State.get_put_lit _ rfl, ?_, ?_⟩ <;> cases low <;> simp [State.i2cClear]

theorem State.pinWrite_claimPins (s : State) (id : Nat) : s.pinWrite.claimPins id = s.claimPins id := rfl

theorem State.pinWrite_perRuns (s : State) (id : Nat) : s.pinWrite.perRuns id = s.perRuns id := rfl

theorem completes_i2cCmd {k : Fin 2} {v : BitVec 32} {low : Bool} {s : State} (h : s.barOpen (R.I2C_CMD k) = true)
    (hb : s.get (F.I2C_STS_busy k) = 0) (hr : s.perRuns (4 + k.val) = true) (hp : ∀ p ∈ s.claimPins (4 + k.val), s.pins.keeper.getLsbD p = false) :
    Completes (.i2cCmd k v low) s (fun t => t.get (F.I2C_STS_busy k) = 1 ∧ SMap.get (fun _ => 0) t.pins.i2cCmd k = v ∧
      SMap.get (fun _ => 0) t.pins.i2cClears k = SMap.get (fun _ => 0) s.pins.i2cClears k + if low then 1 else 0) :=
  completes_bar (u := s.pinWrite.i2cStart k v low) rfl h (State.i2cStart_runs (s := s.pinWrite) v low ((State.pinWrite_get _ _).trans hb)
    ((State.pinWrite_perRuns _ _).trans hr) (by rw [State.pinWrite_claimPins]; exact hp))

/-- The flags of a transaction that failed, each kept while the next is set. -/
def State.i2cFlags (s : State) (k : Nat) (nack arb timeout : Bool) : State :=
  let s := s.put (F.I2C_STS_busy k) 0
  let s := if nack then s.put (F.I2C_STS_nack k) 1 else s
  let s := if arb then s.put (F.I2C_STS_arb k) 1 else s
  if timeout then (s.put (F.I2C_STS_timeout k) 1).i2cClear k else s

theorem State.i2cClear_get (s : State) (k : Nat) (f : RF) : (s.i2cClear k).get f = s.get f := State.get_of_regs (s := s) (t := s.i2cClear k) rfl f

theorem State.i2cFlags_get (s : State) (k : Nat) (nack arb timeout : Bool) :
    let t := s.i2cFlags k nack arb timeout
    t.get (F.I2C_STS_busy k) = 0 ∧ (nack = true → t.get (F.I2C_STS_nack k) = 1) ∧ (arb = true → t.get (F.I2C_STS_arb k) = 1) ∧
      (timeout = true → t.get (F.I2C_STS_timeout k) = 1) := by
  have hput (u : State) (f : RF) (h : (f.whole && decide (1 < 2 ^ f.w)) = true) : (u.put f 1).get f = 1 := State.get_put_lit u h
  have hbusy (u : State) : (u.put (F.I2C_STS_busy k) 0).get (F.I2C_STS_busy k) = 0 := State.get_put_lit u rfl
  have hab (u : State) : (u.put (F.I2C_STS_arb k) 1).get (F.I2C_STS_busy k) = u.get (F.I2C_STS_busy k) := State.get_put_apart _ _ rfl
  have han (u : State) : (u.put (F.I2C_STS_arb k) 1).get (F.I2C_STS_nack k) = u.get (F.I2C_STS_nack k) := State.get_put_apart _ _ rfl
  have hnb (u : State) : (u.put (F.I2C_STS_nack k) 1).get (F.I2C_STS_busy k) = u.get (F.I2C_STS_busy k) := State.get_put_apart _ _ rfl
  have htb (u : State) : (u.put (F.I2C_STS_timeout k) 1).get (F.I2C_STS_busy k) = u.get (F.I2C_STS_busy k) := State.get_put_apart _ _ rfl
  have htn (u : State) : (u.put (F.I2C_STS_timeout k) 1).get (F.I2C_STS_nack k) = u.get (F.I2C_STS_nack k) := State.get_put_apart _ _ rfl
  have hta (u : State) : (u.put (F.I2C_STS_timeout k) 1).get (F.I2C_STS_arb k) = u.get (F.I2C_STS_arb k) := State.get_put_apart _ _ rfl
  refine ⟨?_, fun h => ?_, fun h => ?_, fun h => ?_⟩ <;> unfold State.i2cFlags <;> dsimp only
  · split <;> split <;> split <;> simp only [State.i2cClear_get, htb, hab, hnb, hbusy]
  · subst h
    split <;> split <;> simp only [State.i2cClear_get, htn, han, if_true, hput _ (F.I2C_STS_nack k) rfl]
  · subst h
    split <;> simp only [State.i2cClear_get, hta, if_true, hput _ (F.I2C_STS_arb k) rfl]
  · subst h
    simp only [if_true, State.i2cClear_get, hput _ (F.I2C_STS_timeout k) rfl]

theorem completes_i2cFails {k : Fin 2} {nack arb timeout : Bool} {data : List (BitVec 8)} {s : State} (hb : s.get (F.I2C_STS_busy k) = 1)
    (h : (nack || arb || timeout) = true) :
    Completes (.i2cTransactionEnd k nack arb timeout data) s (fun t => t.get (F.I2C_STS_busy k) = 0 ∧
      t.logged 0x0B07 k ∧ (nack = true → t.get (F.I2C_STS_nack k) = 1) ∧ (arb = true → t.get (F.I2C_STS_arb k) = 1) ∧
      (timeout = true → t.get (F.I2C_STS_timeout k) = 1)) := by
  have hrun : exec (.i2cTransactionEnd k nack arb timeout data) s = .next ((s.i2cFlags k nack arb timeout).raise 0x0B07 k) := by
    show execI2cTransactionEnd k nack arb timeout data s = _
    unfold execI2cTransactionEnd
    simp only [State.on_of_one hb, h, Bool.not_true, Bool.false_eq_true, if_false, if_true]
    rfl
  have hget (f : RF) (hf : f.off = R.I2C_STS k) : ((s.i2cFlags k nack arb timeout).raise 0x0B07 k).get f = (s.i2cFlags k nack arb timeout).get f :=
    State.raise_getKept _ _ _ (hf ▸ eventReg_of_page (Nat.le_add_right_of_le (by decide)))
  refine ⟨_, hrun, ?_⟩
  beta_reduce
  obtain ⟨hbusy, hnack, harb, htime⟩ := s.i2cFlags_get k nack arb timeout
  exact ⟨(hget (F.I2C_STS_busy k) rfl).trans hbusy, State.raise_logged _ _ _, fun h => (hget (F.I2C_STS_nack k) rfl).trans (hnack h),
    fun h => (hget (F.I2C_STS_arb k) rfl).trans (harb h), fun h => (hget (F.I2C_STS_timeout k) rfl).trans (htime h)⟩

theorem completes_i2cEnds {k : Fin 2} {data : List (BitVec 8)} {s : State} (hb : s.get (F.I2C_STS_busy k) = 1) :
    let cmd := SMap.get (fun _ => 0) s.pins.i2cCmd k
    let n := (cmd.extractLsb' 11 8).toNat + 1
    (cmd.getLsbD 10 = true → Completes (.i2cTransactionEnd k false false false data) s (fun t => t.get (F.I2C_STS_busy k) = 0 ∧
      fifo t.pins.i2cRx k = (fifo s.pins.i2cRx k ++ data.take n).take 256)) ∧
    (cmd.getLsbD 10 = false → Completes (.i2cTransactionEnd k false false false data) s (fun t => t.get (F.I2C_STS_busy k) = 0 ∧
      fifo t.pins.i2cTx k = (fifo s.pins.i2cTx k).drop n ∧ fifo t.pins.i2cSent k = fifo s.pins.i2cSent k ++ (fifo s.pins.i2cTx k).take n)) := by
  have hkept (u : State) (p : Pins) (f : RF) (v : Nat) (h : f.apart (F.I2C_STS_busy k) = true) :
      (({ u.put (F.I2C_STS_busy k) 0 with pins := p } : State).put f v).get (F.I2C_STS_busy k) = 0 := by
    rw [State.get_put_apart _ _ h, State.get_setPins, State.get_put_lit _ rfl]
  refine ⟨fun h => ?_, fun h => ?_⟩ <;> show ∃ t, execI2cTransactionEnd k false false false data s = .next t ∧ _ <;>
    unfold execI2cTransactionEnd <;> simp only [State.on_of_one hb, h, Bool.not_true, Bool.or_self, Bool.false_eq_true, if_false, if_true]
  · exact ⟨_, rfl, hkept _ _ _ _ rfl, by simp⟩
  · exact ⟨_, rfl, hkept _ _ _ _ rfl, by simp, by simp⟩

theorem completes_i2cRx {k : Fin 2} {b : BitVec 8} {q : List (BitVec 8)} {s : State} (h : s.barOpen (R.I2C_RX k) = true) :
    (fifo s.pins.i2cRx k = b :: q → Completes (.i2cRx k) s (fun t => fifo t.pins.i2cRx k = q ∧ t.readData = b.setWidth 32)) ∧
    (fifo s.pins.i2cRx k = [] → Completes (.i2cRx k) s (fun t => t = { s with readData := 0 })) :=
  ⟨fun hq => completes_bar (u := s.i2cPop k) rfl h (State.i2cPop_cons hq), fun hq => completes_bar (u := s.i2cPop k) rfl h (State.i2cPop_nil hq)⟩

/-! ## SSI -/

/-- A read of the position that starts holds CAD_UPD as its stamp. -/
theorem State.ssiStart_starts {s : State} {k : Nat} (hb : s.get (F.SSI_STS_busy k) = 0) (hr : s.perRuns (6 + k) = true) :
    let upd := (s.rd R.CAD_UPD_LO).toNat + 2 ^ 32 * (s.rd R.CAD_UPD_HI).toNat
    (s.ssiStart k).get (F.SSI_STS_busy k) = 1 ∧ SMap.get (fun _ => 0) (s.ssiStart k).pins.ssiBusy k = upd ∧
      (s.ssiStart k).rd (R.SSI_STAMP_LO k) = s.rd R.CAD_UPD_LO ∧ (s.ssiStart k).rd (R.SSI_STAMP_HI k) = s.rd R.CAD_UPD_HI := by
  have hlo := (s.rd R.CAD_UPD_LO).isLt
  have hhi := (s.rd R.CAD_UPD_HI).isLt
  have hne : R.SSI_STAMP_LO k ≠ R.SSI_STAMP_HI k := ne_of_base rfl rfl (by decide)
  have hsl : R.SSI_STAMP_LO k ≠ R.SSI_STS k := ne_of_base rfl rfl (by decide)
  have hsh : R.SSI_STAMP_HI k ≠ R.SSI_STS k := ne_of_base rfl rfl (by decide)
  unfold State.ssiStart
  rw [if_neg (by simp only [State.on_of_zero hb, hr, Bool.not_true, Bool.or_self, Bool.false_eq_true, not_false_iff])]
  dsimp only
  refine ⟨State.get_put_lit _ rfl, by simp, ?_, ?_⟩
  · rw [State.rd_put_ne _ _ _ _ hsl, State.rd_wr_ne _ _ _ _ hne, State.rd_wr_same]
    exact BitVec.eq_of_toNat_eq (by rw [BitVec.toNat_ofNat]; omega)
  · rw [State.rd_put_ne _ _ _ _ hsh, State.rd_wr_same]
    exact BitVec.eq_of_toNat_eq (by rw [BitVec.toNat_ofNat]; omega)

theorem completes_ssiReads {k : Fin 2} {s : State} (hb : s.get (F.SSI_STS_busy k) = 0) (hr : s.perRuns (6 + k.val) = true) :
    let upd := (s.rd R.CAD_UPD_LO).toNat + 2 ^ 32 * (s.rd R.CAD_UPD_HI).toNat
    (s.barOpen (R.SSI_CTL k) = true → Completes (.ssiTrig k) s (fun t => t.get (F.SSI_STS_busy k) = 1 ∧ SMap.get (fun _ => 0) t.pins.ssiBusy k = upd ∧
      t.rd (R.SSI_STAMP_LO k) = s.rd R.CAD_UPD_LO ∧ t.rd (R.SSI_STAMP_HI k) = s.rd R.CAD_UPD_HI)) ∧
    (s.get (F.SSI_CFG_period k) ≠ 0 → Completes (.ssiPeriod k) s (fun t => t.get (F.SSI_STS_busy k) = 1 ∧
      SMap.get (fun _ => 0) t.pins.ssiBusy k = upd ∧ t.rd (R.SSI_STAMP_LO k) = s.rd R.CAD_UPD_LO ∧ t.rd (R.SSI_STAMP_HI k) = s.rd R.CAD_UPD_HI)) :=
  ⟨fun h => completes_bar (u := s.pinWrite.ssiStart k) rfl h (State.ssiStart_starts (s := s.pinWrite) hb hr),
    fun h => ⟨_, congrArg Host.Outcome.next (if_neg h), State.ssiStart_starts hb hr⟩⟩

theorem completes_ssiReadDone {k : Fin 2} {raw : BitVec 32} {s : State} (hb : s.get (F.SSI_STS_busy k) = 1) :
    (∀ h l, (h && l) = false → Completes (.ssiReadDone k raw h l) s (fun t => t.get (F.SSI_STS_busy k) = 0 ∧ t.get (F.SSI_STS_err k) = 1 ∧
      t.logged 0x0B08 k ∧ t.rd (R.SSI_POS k) = s.rd (R.SSI_POS k))) ∧
    Completes (.ssiReadDone k raw true true) s (fun t => t.get (F.SSI_STS_busy k) = 0 ∧
      (s.get (F.SSI_CFG_gray k) = 0 → (t.rd (R.SSI_POS k)).toNat = raw.toNat % 2 ^ s.ssiBits k) ∧
      (s.get (F.SSI_CFG_gray k) = 1 → (t.rd (R.SSI_POS k)).toNat = grayToBin (s.ssiBits k) (raw.toNat % 2 ^ s.ssiBits k) % 2 ^ 32) ∧
      t.rd (R.SSI_STAMP_LO k) = s.rd (R.SSI_STAMP_LO k) ∧ t.rd (R.SSI_STAMP_HI k) = s.rd (R.SSI_STAMP_HI k)) := by
  have hps : R.SSI_POS k ≠ R.SSI_STS k := ne_of_base rfl rfl (by decide)
  have hlp : R.SSI_STAMP_LO k ≠ R.SSI_POS k := ne_of_base rfl rfl (by decide)
  have hhp : R.SSI_STAMP_HI k ≠ R.SSI_POS k := ne_of_base rfl rfl (by decide)
  have hls : R.SSI_STAMP_LO k ≠ R.SSI_STS k := ne_of_base rfl rfl (by decide)
  have hhs : R.SSI_STAMP_HI k ≠ R.SSI_STS k := ne_of_base rfl rfl (by decide)
  refine ⟨fun h l hhl => ?_, ?_⟩
  · have hev : eventReg (R.SSI_STS k) = false := eventReg_of_page (Nat.le_add_right_of_le (by decide))
    have hif : (!h || !l) = true := by rw [← Bool.not_and, hhl]; rfl
    have hevp : eventReg (R.SSI_POS k) = false := eventReg_of_page (Nat.le_add_right_of_le (by decide))
    show ∃ t, execSsiReadDone k raw h l s = .next t ∧ _
    simp only [execSsiReadDone, State.on_of_one hb, hif, Bool.not_true, Bool.false_eq_true, if_false, if_true]
    refine ⟨_, rfl, ?_, ?_, State.raise_logged _ _ _, ?_⟩
    · rw [State.raise_getKept _ _ _ hev, State.get_put_apart _ _ rfl, State.get_put_lit _ rfl]
    · rw [State.raise_getKept _ _ _ hev, State.get_put_lit _ rfl]
    · rw [State.raise_rd _ _ _ hevp, State.rd_put_ne _ _ _ _ hps, State.rd_put_ne _ _ _ _ hps]
  · have hle : raw.toNat % 2 ^ s.ssiBits k < 2 ^ 32 := Nat.lt_of_le_of_lt (Nat.mod_le _ _) raw.isLt
    show ∃ t, execSsiReadDone k raw true true s = .next t ∧ _
    simp only [execSsiReadDone, State.on_of_one hb, Bool.not_true, Bool.or_self, Bool.false_eq_true, if_false]
    have hgray : (s.put (F.SSI_STS_busy k) 0).on (F.SSI_CFG_gray k) = s.on (F.SSI_CFG_gray k) := by
      rw [State.on, State.get_put_apart _ _ (apart_base rfl rfl rfl), State.on]
    have hbits : (s.put (F.SSI_STS_busy k) 0).ssiBits k = s.ssiBits k := by
      rw [State.ssiBits, State.get_put_apart _ _ (apart_base rfl rfl rfl), State.ssiBits]
    rw [hgray, hbits]
    refine ⟨_, rfl, ?_, fun h => ?_, fun h => ?_, ?_, ?_⟩
    · rw [State.get_of_rd (s := s.put (F.SSI_STS_busy k) 0) (State.rd_wr_ne _ _ _ _ (Ne.symm hps)), State.get_put_lit _ rfl]
    · rw [State.rd_wr_same, State.on_of_zero h, if_neg Bool.false_ne_true, BitVec.toNat_ofNat, Nat.mod_eq_of_lt hle]
    · rw [State.rd_wr_same, State.on_of_one h, if_pos rfl, BitVec.toNat_ofNat]
    · rw [State.rd_wr_ne _ _ _ _ hlp, State.rd_put_ne _ _ _ _ hls]
    · rw [State.rd_wr_ne _ _ _ _ hhp, State.rd_put_ne _ _ _ _ hhs]

/-- Settles O48, FIFO by FIFO. -/
theorem peripheralsMoveBytesAndWords : Obligations.PeripheralsMoveBytesAndWords :=
  ⟨fun _ _ _ h => completes_uartTx h, fun _ _ _ _ hq hb hl => completes_uartByteSent hq hb hl, fun _ _ _ _ _ _ h => completes_uartByteReceived h,
    fun _ _ _ _ h => completes_uartRx h, fun _ _ _ h => completes_spiTx h, fun _ _ _ _ _ hq hb hl => completes_spiWordDone hq hb hl,
    fun _ _ _ _ h => completes_spiRx h, fun _ _ _ _ h hb hr hp => completes_i2cCmd h hb hr hp,
    fun _ _ _ _ _ _ hb => ⟨fun h => completes_i2cFails hb h, (completes_i2cEnds hb).1, (completes_i2cEnds hb).2⟩,
    fun _ _ _ _ h => completes_i2cRx h, fun _ _ hb hr => completes_ssiReads hb hr,
    fun _ _ h l _ hb => ⟨(completes_ssiReadDone hb).1 h l, (completes_ssiReadDone hb).2⟩⟩

end Sys2Proof.Machine

end

section

/-! SUPPORT. What an operation leaves alone: the bits of registers outside a mask, the fault log but for entries behind it, and a part of the rest
of the state. Operations chain, so that the frame of a long one is put together from those of its steps. -/

namespace Sys2Proof.Machine

/-- From one state to the other only the bits of the mask change among the registers, the fault log only grows, and the part stays. -/
structure State.Alters {β : Type} (m : Nat → Word) (part : State → β) (s t : State) : Prop where
  bit : ∀ off i, (m off).getLsbD i = false → (t.rd off).getLsbD i = (s.rd off).getLsbD i
  log : ∃ l, t.log = s.log ++ l
  part : part t = part s

theorem RF.mask_getLsbD (f : RF) (i : Nat) (hi : i < 32) : f.mask.getLsbD i = decide (f.lo ≤ i ∧ i < f.lo + f.w) := by
  rw [RF.mask, BitVec.getLsbD_ofNat, Nat.testBit_shiftLeft, Nat.testBit_two_pow_sub_one]
  simp only [hi, decide_true, Bool.true_and, ge_iff_le, ← Bool.decide_and]
  congr 1
  exact propext ⟨fun h => ⟨h.1, by omega⟩, fun h => ⟨h.1, by omega⟩⟩

/-- A write of a field leaves every bit outside the field's mask. -/
theorem RF.ins_outside (f : RF) (r : Word) (v i : Nat) (h : f.mask.getLsbD i = false) : (f.ins r v).getLsbD i = r.getLsbD i := by
  by_cases hi : i < 32
  · have hout := h
    rw [RF.mask_getLsbD f i hi, decide_eq_false_iff_not] at hout
    have hzero : (BitVec.ofNat 32 ((v % 2 ^ f.w) <<< f.lo)).getLsbD i = false := by
      rw [BitVec.getLsbD_ofNat, Nat.testBit_shiftLeft, Nat.testBit_mod_two_pow]
      by_cases hlo : f.lo ≤ i
      · have hw : ¬ i - f.lo < f.w := by omega
        simp [hw]
      · simp [hlo]
    rw [RF.ins, BitVec.getLsbD_or, BitVec.getLsbD_and, BitVec.getLsbD_not, h, hzero]
    simp [hi]
  · rw [BitVec.getLsbD_of_ge _ _ (by omega), BitVec.getLsbD_of_ge _ _ (by omega)]

/-- Two masks without a bit in common. -/
theorem BitVec.getLsbD_of_disjoint {a b : Word} (h : a &&& b = 0) (i : Nat) (ha : a.getLsbD i = true) : b.getLsbD i = false := by
  have hand : (a &&& b).getLsbD i = false := by rw [h]; simp
  rw [BitVec.getLsbD_and, ha, Bool.true_and] at hand
  exact hand

namespace State.Alters

variable {β γ : Type} {m k : Nat → Word} {part : State → β} {s t u : State}

theorem refl (m : Nat → Word) (part : State → β) (s : State) : s.Alters m part s := ⟨fun _ _ _ => rfl, ⟨[], (List.append_nil _).symm⟩, rfl⟩

theorem trans (h : s.Alters m part t) (g : t.Alters m part u) : s.Alters m part u := by
  obtain ⟨l, hl⟩ := h.log
  obtain ⟨n, hn⟩ := g.log
  exact ⟨fun off i hi => (g.bit off i hi).trans (h.bit off i hi), ⟨l ++ n, by rw [hn, hl, List.append_assoc]⟩, g.part.trans h.part⟩

theorem ite {c : Prop} [Decidable c] (h : c → s.Alters m part t) (g : ¬ c → s.Alters m part u) : s.Alters m part (if c then t else u) := by
  split
  · next hc => exact h hc
  · next hc => exact g hc

theorem foldl {α : Type} {f : State → α → State} {l : List α} (h : ∀ s : State, ∀ a ∈ l, s.Alters m part (f s a)) (s : State) :
    s.Alters m part (l.foldl f s) := by
  induction l generalizing s with
  | nil => exact refl m part s
  | cons a l ih => exact (h s a List.mem_cons_self).trans (ih (fun s b hb => h s b (List.mem_cons_of_mem a hb)) _)

/-- A wider mask and a smaller part. -/
theorem mono {q : State → γ} (h : s.Alters m part t) (hm : ∀ off i, (k off).getLsbD i = false → (m off).getLsbD i = false)
    (hq : ∀ a b, part a = part b → q a = q b) : s.Alters k q t :=
  ⟨fun off i hi => h.bit off i (hm off i hi), h.log, hq _ _ h.part⟩

theorem get (h : s.Alters m part t) {f : RF} (hf : m f.off &&& f.mask = 0) : t.get f = s.get f := by
  refine Nat.eq_of_testBit_eq fun i => ?_
  rw [State.get_testBit, State.get_testBit]
  by_cases hi : i < f.w
  · by_cases h32 : f.lo + i < 32
    · have hmask : f.mask.getLsbD (f.lo + i) = true := by
        rw [RF.mask_getLsbD f _ h32, decide_eq_true_eq]
        omega
      rw [h.bit f.off (f.lo + i) (BitVec.getLsbD_of_disjoint (BitVec.and_comm _ _ ▸ hf) _ hmask)]
    · rw [BitVec.getLsbD_of_ge _ _ (by omega), BitVec.getLsbD_of_ge _ _ (by omega)]
  · simp [hi]

/-- A register that the mask leaves whole. -/
theorem rd (h : s.Alters m part t) {off : Nat} (hf : m off = 0) : t.rd off = s.rd off :=
  BitVec.eq_of_getLsbD_eq fun i _ => h.bit off i (by rw [hf]; exact BitVec.getLsbD_zero)

theorem logged (h : s.Alters m part t) {id param : Nat} (hl : s.logged id param) : t.logged id param := by
  obtain ⟨l, hlog⟩ := h.log
  exact State.logged_mono hlog hl

theorem get_of_zero (h : s.Alters m part t) {f : RF} (hf : m f.off = 0) : t.get f = s.get f := State.get_of_rd (h.rd hf)

/-- A change of no register and of no part named. -/
theorem of_same (hregs : t.regs = s.regs) (hlog : t.log = s.log) (hpart : part t = part s) : s.Alters m part t :=
  ⟨fun off i _ => by simp only [State.rd, hregs], ⟨[], by simp [hlog]⟩, hpart⟩

theorem put {f : RF} (v : Nat) (hf : f.mask &&& ~~~ m f.off = 0) (hpart : part (s.put f v) = part s) : s.Alters m part (s.put f v) := by
  refine ⟨fun off i hi => ?_, ⟨[], by simp⟩, hpart⟩
  by_cases ho : off = f.off
  · subst ho
    by_cases h32 : i < 32
    · have hmask : f.mask.getLsbD i = false := by
        refine Bool.eq_false_iff.mpr fun ht => ?_
        have hnot := BitVec.getLsbD_of_disjoint hf i ht
        rw [BitVec.getLsbD_not, hi] at hnot
        simp [h32] at hnot
      show ((s.wr f.off (f.ins (s.rd f.off) v)).rd f.off).getLsbD i = _
      rw [State.rd_wr_same, RF.ins_outside f _ _ _ hmask]
    · rw [BitVec.getLsbD_of_ge _ _ (by omega), BitVec.getLsbD_of_ge _ _ (by omega)]
  · rw [State.rd_put_ne _ _ _ _ ho]

theorem wr {off : Nat} (v : Word) (hf : m off = BitVec.allOnes 32) (hpart : part (s.wr off v) = part s) : s.Alters m part (s.wr off v) := by
  refine ⟨fun o i hi => ?_, ⟨[], by simp⟩, hpart⟩
  by_cases ho : o = off
  · subst ho
    by_cases h32 : i < 32
    · rw [hf, BitVec.getLsbD_allOnes] at hi
      simp [h32] at hi
    · rw [BitVec.getLsbD_of_ge _ _ (by omega), BitVec.getLsbD_of_ge _ _ (by omega)]
  · rw [State.rd_wr_ne _ _ _ _ ho]

end State.Alters

/-! ## Events -/

/-- A mask that holds the registers that an event changes, and a part that it leaves alone. -/
structure Eventful {β : Type} (m : Nat → Word) (part : State → β) : Prop where
  reg : ∀ off, eventReg off = true → m off = BitVec.allOnes 32
  part : ∀ u : State, part u.sansEvent.1 = part u

theorem Eventful.part_eq {β : Type} {m : Nat → Word} {part : State → β} (h : Eventful m part) {s t : State} (ht : t.sansEvent = s.sansEvent) : part t = part s := by
  rw [← h.part t, ht, h.part s]

theorem State.raiseLim_log (s : State) (us id unit param : Nat) : ∃ l, (s.raiseLim us id unit param).log = s.log ++ l := by
  unfold State.raiseLim
  dsimp only
  split
  · exact ⟨[], (List.append_nil _).symm⟩
  · exact ⟨_, State.raise_log s id param⟩

section

variable {β : Type} {m : Nat → Word} {part : State → β} (h : Eventful m part) {s t : State}

include h

theorem State.Alters.of_event (ht : t.sansEvent = s.sansEvent) (hlog : ∃ l, t.log = s.log ++ l) : s.Alters m part t := by
  refine ⟨fun off i hi => ?_, hlog, h.part_eq ht⟩
  by_cases ho : eventReg off = true
  · by_cases h32 : i < 32
    · rw [h.reg off ho, BitVec.getLsbD_allOnes] at hi
      simp [h32] at hi
    · rw [BitVec.getLsbD_of_ge _ _ (by omega), BitVec.getLsbD_of_ge _ _ (by omega)]
  · rw [State.rd_of_sansEvent ht (Bool.eq_false_iff.mpr ho)]

theorem State.Alters.raise (id param : Nat) : s.Alters m part (s.raise id param) :=
  .of_event h (s.raise_sansEvent id param) ⟨_, State.raise_log s id param⟩

theorem State.Alters.raiseLim (us id unit param : Nat) : s.Alters m part (s.raiseLim us id unit param) :=
  .of_event h (s.raiseLim_sansEvent us id unit param) (s.raiseLim_log us id unit param)

theorem State.Alters.raiseFree (id : Nat) : s.Alters m part (s.raiseFree id) :=
  .of_event h (s.raiseFree_sansEvent id) ⟨_, State.raise_log _ _ _⟩

/-- A field within the mask, of a part that holds no register. -/
theorem State.Alters.field {f : RF} (v : Nat) (hf : f.mask &&& ~~~ m f.off = 0) : s.Alters m part (s.put f v) := by
  refine .put v hf ?_
  rw [← h.part (s.put f v), ← h.part s]
  rfl

end

end Sys2Proof.Machine

end

section

/-! SUPPORT. R231 to R248: the pads of the Spoke units, and what stops a unit. A pad that is driven, released or parked changes its own drive, its
level bit and the interlock count, and nothing else of any unit. -/

namespace Sys2Proof.Machine

@[simp] theorem State.spkU_setSpk (s : State) (u : Nat) (k : Spk) : (s.setSpk u k).spkU u = k := SMap.get_set_same _ _ _ _

theorem State.spkU_setSpk_ne (s : State) {u v : Nat} (k : Spk) (h : v ≠ u) : (s.setSpk u k).spkU v = s.spkU v := SMap.get_set_ne _ _ _ _ _ h

theorem State.spkU_congr {s t : State} (h : t.spk = s.spk) (u : Nat) : t.spkU u = s.spkU u := by simp only [State.spkU, h]

@[simp] theorem State.put_spkU (s : State) (f : RF) (v u : Nat) : (s.put f v).spkU u = s.spkU u := State.spkU_congr rfl u

/-- A mask over the registers of the Spoke pages, by their place in the page (Table 08.2), beside the registers of events. -/
def spkMask (g : Nat → Word) (off : Nat) : Word :=
  if eventReg off then BitVec.allOnes 32 else if 0x50000 ≤ off ∧ off < 0x80000 then g (off % 0x1000) else 0

theorem spkMask_at (g : Nat → Word) {off a u : Nat} (ho : off = a + 0x1000 * u) (hu : u < 48) (ha : 0x50000 ≤ a) (hb : a < 0x51000) :
    spkMask g off = g (a - 0x50000) := by
  have hev : eventReg off = false := eventReg_of_page (by omega)
  have hmod : off % 0x1000 = a - 0x50000 := by omega
  rw [spkMask, hev, if_neg Bool.false_ne_true, if_pos (by omega), hmod]

theorem spkMask_outside (g : Nat → Word) {off : Nat} (he : eventReg off = false) (h : off < 0x50000 ∨ 0x80000 ≤ off) : spkMask g off = 0 := by
  rw [spkMask, he, if_neg Bool.false_ne_true, if_neg (by omega)]

/-- The bits that pads change: the interlock count and the levels (Table 08.2). -/
def padBits : Nat → Word
  | 0x24 => 0x7FFF0000
  | 0x28 => 0x80808080
  | 0x2C => 0x80808080
  | _ => 0

/-- A unit without the drive of its pads. -/
def Spk.sansPads (k : Spk) : Spk := { k with pads := [], changed := [], delayed := [] }

/-- The state without the drive of the units' pads. -/
def State.sansPads (s : State) : State × (Nat → Spk) := ({ s.sansEvent.1 with spk := [] }, fun u => (s.spkU u).sansPads)

theorem padBits_eventful : Eventful (spkMask padBits) State.sansPads := by
  refine ⟨fun off h => ?_, fun u => rfl⟩
  rw [spkMask, if_pos h]

/-- Pads were driven, released or parked from one state to the other. -/
abbrev State.Pads (s t : State) : Prop := s.Alters (spkMask padBits) State.sansPads t

theorem State.setSpk_pads {s : State} {u : Nat} {k : Spk} (h : k.sansPads = (s.spkU u).sansPads) : s.Pads (s.setSpk u k) := by
  refine .of_same (State.setSpk_regs _ _ _) (State.setSpk_log _ _ _) (Prod.ext rfl (funext fun v => ?_))
  show ((s.setSpk u k).spkU v).sansPads = (s.spkU v).sansPads
  by_cases hv : v = u
  · rw [hv, State.spkU_setSpk, h]
  · rw [State.spkU_setSpk_ne _ _ hv]

/-! ### What pads change, in any frame that lets them

The operations on pads stay within every frame that leaves out the drive of the unit's pads, its level bits and its interlock count. -/

/-- A mask and a part that let the pads of one unit change. -/
structure PadFrame {β : Type} (m : Nat → Word) (part : State → β) (u : Nat) : Prop where
  events : Eventful m part
  unit : ∀ (s : State) (k : Spk), k.sansPads = (s.spkU u).sansPads → part (s.setSpk u k) = part s
  level : ∀ p < 8, (F.SPK_PINCFG_level u (p / 4) (p % 4)).mask &&& ~~~ m (R.SPK_PINCFG u (p / 4)) = 0
  ilk : (F.SPK_LATE_ilk u).mask &&& ~~~ m (R.SPK_LATE u) = 0

section

variable {β : Type} {m : Nat → Word} {part : State → β} {u : Nat} (h : PadFrame m part u) (s : State)

include h

theorem PadFrame.setSpk {s : State} {k : Spk} (hk : k.sansPads = (s.spkU u).sansPads) : s.Alters m part (s.setSpk u k) :=
  .of_same (State.setSpk_regs _ _ _) (State.setSpk_log _ _ _) (h.unit s k hk)

theorem PadFrame.setDelay (p v : Nat) : s.Alters m part (s.setDelay u p v) := h.setSpk rfl

theorem PadFrame.setPadAt (p v : Nat) : s.Alters m part (s.setPadAt u p v) := h.setSpk rfl

theorem PadFrame.setPad {p : Nat} (v : Pad) (hp : p < 8) : s.Alters m part (s.setPad u p v) := by
  have hlevel (t : State) (v : Nat) : t.Alters m part (t.put (F.SPK_PINCFG_level u (p / 4) (p % 4)) v) := .field h.events v (h.level p hp)
  unfold State.setPad
  dsimp only
  split
  · refine .trans (h.setSpk ?_) (hlevel _ _)
    rfl
  · refine .trans (h.setSpk ?_) (hlevel _ _)
    rfl
  · exact h.setSpk rfl

theorem PadFrame.ilkAct (q : Nat) : s.Alters m part (s.ilkAct u q) :=
  .trans (.field h.events _ h.ilk) (.raiseLim h.events _ _ _ _)

theorem PadFrame.pinOff {p : Nat} (slot : Nat) (hp : p < 8) : s.Alters m part (s.pinOff u p slot) := by
  have hset := h.setPad s (s.padFor u p false) hp
  exact .ite (fun _ => hset.trans (h.setPadAt _ _ _)) (fun _ => hset)

theorem PadFrame.pinOn {p : Nat} (slot : Nat) (both : Bool) (hp : p < 8) : s.Alters m part (s.pinOn u p slot both) := by
  have hother : (if p % 2 = 0 then p + 1 else p - 1) < 8 := by split <;> omega
  have hset (s : State) : s.Alters m part ((s.setPad u p (s.padFor u p true)).setPadAt u (8 + p) (slot + 1)) :=
    (h.setPad s _ hp).trans (h.setPadAt _ _ _)
  unfold State.pinOn
  dsimp only
  refine .ite (fun _ => .refl _ _ _) fun _ => .ite (fun _ => hset s) fun _ => .ite (fun _ => .refl _ _ _) fun _ => .ite (fun _ => ?_) fun _ =>
    .ite (fun _ => ?_) fun _ => .ite (fun _ => ?_) (fun _ => hset s)
  · exact .ite (fun _ => (h.pinOff s slot hp).trans (h.ilkAct _ _)) (fun _ => h.pinOff s slot hp)
  · refine .trans (.ite (fun _ => ?_) (fun _ => ?_)) ((h.pinOff _ slot hp).trans (h.ilkAct _ _))
    · exact h.pinOff _ slot hother
    · exact .refl _ _ _
  · exact (h.setDelay _ _ _).trans (h.ilkAct _ _)

theorem PadFrame.pinDue {p : Nat} (slot : Nat) (hp : p < 8) : s.Alters m part (s.pinDue u slot p) :=
  .ite (fun _ => .refl _ _ _) (fun _ => (h.setDelay _ _ _).trans (h.pinOn _ _ _ hp))

theorem PadFrame.pairDue {q : Nat} (slot : Nat) (hq : q < 4) : s.Alters m part (s.pairDue u slot q) := by
  unfold State.pairDue
  dsimp only
  refine .ite (fun _ => ?_) fun _ => .ite (fun _ => ?_) (fun _ => ?_)
  · exact ((h.setDelay _ _ _).trans (h.setDelay _ _ _)).trans (h.ilkAct _ _)
  · exact (h.pinDue s slot (by omega)).trans (h.pinDue _ slot (by omega))
  · exact (h.pinDue s slot (by omega)).trans (h.pinDue _ slot (by omega))

theorem PadFrame.padsDue (slot : Nat) : s.Alters m part (s.padsDue u slot) :=
  .ite (fun _ => .refl _ _ _) (fun _ => .foldl (fun s _ hq => h.pairDue s slot (List.mem_range.mp hq)) s)

theorem PadFrame.parkPin {p : Nat} (v : Pad) (hp : p < 8) : s.Alters m part (s.parkPin u p v) := by
  have hset := h.setPad s v hp
  exact .ite (fun _ => h.pinOn s _ _ hp) fun _ => .ite (fun _ => hset.trans (h.setPadAt _ _ _)) (fun _ => hset)

theorem PadFrame.parkPair {q : Nat} (hq : q < 4) : s.Alters m part (s.parkPair u q) := by
  have h0 : 2 * q < 8 := by omega
  have h1 : 2 * q + 1 < 8 := by omega
  unfold State.parkPair
  refine .ite (fun _ => ?_) fun _ => ?_
  · exact ((h.pinOff s _ h0).trans (h.pinOff _ _ h1)).trans (h.ilkAct _ _)
  · exact .ite (fun _ => (h.parkPin s _ h1).trans (h.parkPin _ _ h0)) (fun _ => (h.parkPin s _ h0).trans (h.parkPin _ _ h1))

end

/-! ### The pads of a unit -/

theorem padFrame_pads {u : Nat} (hu : u < 48) : PadFrame (spkMask padBits) State.sansPads u := by
  refine ⟨padBits_eventful, fun s k hk => (State.setSpk_pads hk).part, fun p hp => ?_, ?_⟩
  · have hmask : spkMask padBits (R.SPK_PINCFG u (p / 4)) = 0x80808080 := by
      have hcase : p / 4 = 0 ∨ p / 4 = 1 := by omega
      rcases hcase with h | h <;> rw [h]
      · exact spkMask_at padBits (a := 0x50028) (u := u) rfl hu (by decide) (by decide)
      · exact spkMask_at padBits (a := 0x5002C) (u := u) (by simp only [R.SPK_PINCFG]; omega) hu (by decide) (by decide)
    have hlo : ∀ j < 4, (⟨0, 7 + 8 * j, 1⟩ : RF).mask &&& ~~~(0x80808080 : Word) = 0 := by decide
    rw [hmask]
    exact hlo (p % 4) (by omega)
  · rw [show spkMask padBits (R.SPK_LATE u) = 0x7FFF0000 from spkMask_at padBits (a := 0x50024) (u := u) rfl hu (by decide) (by decide)]
    exact show (⟨0, 16, 15⟩ : RF).mask &&& ~~~(0x7FFF0000 : Word) = 0 by decide

section

variable (s : State) {u : Nat} (hu : u < 48)

include hu

theorem State.setPad_pads {p : Nat} (v : Pad) (hp : p < 8) : s.Pads (s.setPad u p v) := (padFrame_pads hu).setPad s v hp

theorem State.pinOff_pads {p : Nat} (slot : Nat) (hp : p < 8) : s.Pads (s.pinOff u p slot) := (padFrame_pads hu).pinOff s slot hp

theorem State.pinOn_pads {p : Nat} (slot : Nat) (both : Bool) (hp : p < 8) : s.Pads (s.pinOn u p slot both) := (padFrame_pads hu).pinOn s slot both hp

theorem State.padsDue_pads (slot : Nat) : s.Pads (s.padsDue u slot) := (padFrame_pads hu).padsDue s slot

theorem State.parkPair_pads {q : Nat} (hq : q < 4) : s.Pads (s.parkPair u q) := (padFrame_pads hu).parkPair s hq

end

/-! ## The end of a unit's work -/

/-- The bits that the end of a unit's work changes: those of pads, the queue's head and fill, and the armed and parked bits (Table 08.2). -/
def stopBits : Nat → Word
  | 0x04 => 0x1FF
  | 0x10 => BitVec.allOnes 32
  | 0x14 => BitVec.allOnes 32
  | 0x24 => 0x7FFF0000
  | 0x28 => 0x80808080
  | 0x2C => 0x80808080
  | _ => 0

/-- A unit without the drive of its pads, its queue, its ticks and its deadlines. -/
def Spk.sansWork (k : Spk) : Spk := { k.sansPads with queue := [], lateAt := none, dropped := 0, ticks := [], deadlines := [] }

/-- The state without what the end of a unit's work changes. -/
def State.sansWork (s : State) : State × (Nat → Spk) :=
  ({ s.sansEvent.1 with spk := [], fab := { s.fab with nodes := [] } }, fun u => (s.spkU u).sansWork)

theorem stopBits_eventful : Eventful (spkMask stopBits) State.sansWork := by
  refine ⟨fun off h => ?_, fun u => rfl⟩
  rw [spkMask, if_pos h]

/-- Units ended their work from one state to the other. -/
abbrev State.Stops (s t : State) : Prop := s.Alters (spkMask stopBits) State.sansWork t

theorem spkMask_mono {g h : Nat → Word} (hgh : ∀ a i, (g a).getLsbD i = false → (h a).getLsbD i = false) (off i : Nat)
    (hi : (spkMask g off).getLsbD i = false) : (spkMask h off).getLsbD i = false := by
  unfold spkMask at hi ⊢
  split
  · next he => rwa [if_pos he] at hi
  · next he =>
    rw [if_neg he] at hi
    split
    · next hp =>
      rw [if_pos hp] at hi
      exact hgh _ _ hi
    · exact BitVec.getLsbD_zero

theorem padBits_sub_stopBits (a i : Nat) (hi : (stopBits a).getLsbD i = false) : (padBits a).getLsbD i = false := by
  unfold stopBits at hi
  unfold padBits
  split <;> simp_all

theorem State.Alters.stops {s t : State} (h : s.Pads t) : s.Stops t := by
  refine h.mono (spkMask_mono padBits_sub_stopBits) fun a b hab => ?_
  have hstate : ({ a.sansEvent.1 with spk := [] } : State) = { b.sansEvent.1 with spk := [] } := congrArg Prod.fst hab
  have hspk (u : Nat) : (a.spkU u).sansPads = (b.spkU u).sansPads := congrFun (congrArg Prod.snd hab) u
  exact Prod.ext (congrArg (fun x : State => ({ x with fab := { x.fab with nodes := [] } } : State)) hstate)
    (funext fun u => congrArg (fun x : Spk => ({ x with queue := [], lateAt := none, dropped := 0, ticks := [], deadlines := [] } : Spk)) (hspk u))

theorem State.setSpk_stops {s : State} {u : Nat} {k : Spk} (h : k.sansWork = (s.spkU u).sansWork) : s.Stops (s.setSpk u k) := by
  refine .of_same (State.setSpk_regs _ _ _) (State.setSpk_log _ _ _) (Prod.ext rfl (funext fun v => ?_))
  show ((s.setSpk u k).spkU v).sansWork = (s.spkU v).sansWork
  by_cases hv : v = u
  · rw [hv, State.spkU_setSpk, h]
  · rw [State.spkU_setSpk_ne _ _ hv]

theorem State.clearOut_stops (s : State) (ch : Chan) (n : Nat) : s.Stops (s.clearOut ch n) := by
  unfold State.clearOut
  refine .foldl (fun s d _ => ?_) s
  exact .of_same rfl rfl rfl

section

variable {f : RF} {a u : Nat} (s : State) (v : Nat)

theorem State.spkField_stops (ho : f.off = a + 0x1000 * u) (hu : u < 48) (ha : 0x50000 ≤ a) (hb : a < 0x51000)
    (hf : f.mask &&& ~~~ stopBits (a - 0x50000) = 0) : s.Stops (s.put f v) :=
  .field stopBits_eventful v (by rw [spkMask_at stopBits ho hu ha hb]; exact hf)

end

theorem State.spkSync_stops (s : State) {u : Nat} (hu : u < 48) : s.Stops (s.spkSync u) := by
  have hword : (⟨0, 0, 32⟩ : RF).mask &&& ~~~ BitVec.allOnes 32 = 0 := by decide
  have hfill : (⟨0, 0, 7⟩ : RF).mask &&& ~~~ (0x1FF : Word) = 0 := by decide
  have hocc (t : State) (v : Nat) : t.Stops (t.put (F.SPK_STS_occ u) v) :=
    State.spkField_stops (f := F.SPK_STS_occ u) (a := 0x50004) t v rfl hu (by decide) (by decide) hfill
  have hlo (t : State) (v : Nat) : t.Stops (t.put (F.SPK_HEAD_LO_entry u) v) :=
    State.spkField_stops (f := F.SPK_HEAD_LO_entry u) (a := 0x50010) t v rfl hu (by decide) (by decide) hword
  have hhi (t : State) (v : Nat) : t.Stops (t.put (F.SPK_HEAD_HI_entry u) v) :=
    State.spkField_stops (f := F.SPK_HEAD_HI_entry u) (a := 0x50014) t v rfl hu (by decide) (by decide) hword
  exact ((hocc _ _).trans (hlo _ _)).trans (hhi _ _)

theorem State.armed_stops (s : State) {u : Nat} (v : Nat) (hu : u < 48) : s.Stops (s.put (F.SPK_STS_armed u) v) := by
  have hmask : (⟨0, 7, 1⟩ : RF).mask &&& ~~~ stopBits (0x50004 - 0x50000) = 0 := by decide
  exact State.spkField_stops (a := 0x50004) s v rfl hu (by decide) (by decide) hmask

theorem State.parked_stops (s : State) {u : Nat} (v : Nat) (hu : u < 48) : s.Stops (s.put (F.SPK_STS_parked u) v) := by
  have hmask : (⟨0, 8, 1⟩ : RF).mask &&& ~~~ stopBits (0x50004 - 0x50000) = 0 := by decide
  exact State.spkField_stops (a := 0x50004) s v rfl hu (by decide) (by decide) hmask

theorem State.dropAll_stops (s : State) {u : Nat} (hu : u < 48) : s.Stops (s.dropAll u) := by
  refine .trans (.trans (State.setSpk_stops ?_) (State.armed_stops _ 0 hu)) (State.spkSync_stops _ hu)
  rfl

theorem State.endTicks_stops (s : State) (u : Nat) : s.Stops (s.endTicks u) := by
  have hfold : s.Stops ((List.range 16).foldl (fun s c => s.clearOut (chTick u c) 1) s) := .foldl (fun s c _ => s.clearOut_stops _ 1) s
  refine hfold.trans (State.setSpk_stops ?_)
  have hspk := congrFun (congrArg Prod.snd hfold.part) u
  exact hspk.symm

/-- Parking a unit, and the bit that says so. -/
theorem State.spkPark_stops (s : State) {u : Nat} (hu : u < 48) : s.Stops (s.spkPark u) := by
  refine .trans (State.Alters.stops (s.padsDue_pads hu _)) (.ite (fun _ => ?_) (fun _ => .refl _ _ _))
  exact .trans (State.Alters.stops (.foldl (fun s _ hq => s.parkPair_pads hu (List.mem_range.mp hq)) _)) (State.parked_stops _ 1 hu)

theorem State.spkStop_stops (s : State) {u : Nat} (hu : u < 48) : s.Stops (s.spkStop u) :=
  ((s.dropAll_stops hu).trans (State.endTicks_stops _ u)).trans (State.spkPark_stops _ hu)

end Sys2Proof.Machine

end

section

/-! SUPPORT. O23: the queue of a Spoke unit. -/

namespace Sys2Proof.Machine

theorem State.ackIn_part {β : Type} (p : State → β) (hp : ∀ u, p u.sansTokens = p u) (s : State) (ch : Chan) (n : Nat) : p (s.ackIn ch n) = p s :=
  State.of_sansTokens (s.ackIn_sansTokens ch n) p hp

@[simp] theorem State.ackIn_spkU (s : State) (ch : Chan) (n u : Nat) : (s.ackIn ch n).spkU u = s.spkU u :=
  State.spkU_congr (State.ackIn_part State.spk (fun _ => rfl) s ch n) u

@[simp] theorem State.offerOut_spkU (s : State) (ch : Chan) (ds : List Nat) (u : Nat) : (s.offerOut ch ds).spkU u = s.spkU u :=
  State.spkU_congr (State.of_sansTokens (s.offerOut_sansTokens ch ds) State.spk fun _ => rfl) u

@[simp] theorem State.clearOut_spkU (s : State) (ch : Chan) (n u : Nat) : (s.clearOut ch n).spkU u = s.spkU u := by
  refine State.spkU_congr ?_ u
  unfold State.clearOut
  exact foldl_kept State.spk (by intro u d _; rfl) s

@[simp] theorem State.spkSync_spkU (s : State) (u v : Nat) : (s.spkSync u).spkU v = s.spkU v := State.spkU_congr rfl v

theorem State.spkSync_get (s : State) (u : Nat) {g : RF} (ho : (F.SPK_STS_occ u).apart g = true) (hl : (F.SPK_HEAD_LO_entry u).apart g = true)
    (hh : (F.SPK_HEAD_HI_entry u).apart g = true) : (s.spkSync u).get g = s.get g := by
  unfold State.spkSync
  dsimp only
  rw [State.get_put_apart _ _ hh, State.get_put_apart _ _ hl, State.get_put_apart _ _ ho]

theorem State.spkSync_armed (s : State) (u : Nat) : (s.spkSync u).get (F.SPK_STS_armed u) = s.get (F.SPK_STS_armed u) :=
  s.spkSync_get u rfl (apart_base rfl rfl rfl) (apart_base rfl rfl rfl)

/-- An armed head stays (R238). -/
theorem State.armHead_armed {s : State} {u : Nat} (h : s.get (F.SPK_STS_armed u) = 1) (n dt : Nat) : s.armHead n u dt = s := by
  cases n with
  | zero => rfl
  | succ n =>
    unfold State.armHead
    split
    · rfl
    · rw [if_pos (by simp only [State.on_of_one h, Bool.or_true, Bool.true_or])]

theorem State.armHead_empty {s : State} {u : Nat} (h : (s.spkU u).queue = []) (n dt : Nat) : s.armHead n u dt = s := by
  cases n with
  | zero => rfl
  | succ n =>
    unfold State.armHead
    split
    · rfl
    · next he => rw [h] at he; cases he

/-- An entry goes behind the queue of a unit whose head is armed. -/
theorem State.pushEntry_queued {s : State} {u : Nat} (dt : Nat) (e : BitVec 64) (hd : s.spkDrops u = false) (ha : s.get (F.SPK_STS_armed u) = 1) :
    (s.pushEntry u dt e).spkU u = { s.spkU u with written := (s.spkU u).written + 1, queue := (s.spkU u).queue ++ [e] } := by
  have harm (k : Spk) : ((s.setSpk u k).spkSync u).get (F.SPK_STS_armed u) = 1 := by rw [State.spkSync_armed, State.setSpk_get, ha]
  unfold State.pushEntry
  dsimp only
  rw [if_neg (by simp only [hd, Bool.false_eq_true, not_false_iff]), State.armHead_armed (harm _), State.spkSync_spkU, State.spkU_setSpk]

/-- A unit that drops counts the entry as written and as dropped. -/
theorem State.pushEntry_dropped {s : State} {u : Nat} (dt : Nat) (e : BitVec 64) (hd : s.spkDrops u = true) :
    (s.pushEntry u dt e).spkU u = { s.spkU u with written := (s.spkU u).written + 1, dropped := (s.spkU u).dropped + 1 } := by
  unfold State.pushEntry
  dsimp only
  rw [if_pos hd, State.spkU_setSpk]

theorem completes_spokeEreq {u : Fin 48} {dt : Fin 4000} {v : Nat} {s : State} (ht : s.spkTakes u = true) (hv : s.inValue (chEreq u) 32 = some v) :
    (s.spkDrops u = false → (s.spkU u).queue.length < 64 → (s.spkU u).queue ≠ [] → s.get (F.SPK_STS_armed u) = 1 →
      Completes (.spokeEreq u dt) s (fun t => (t.spkU u).queue = (s.spkU u).queue ++ [BitVec.ofNat 64 v] ∧
        (t.spkU u).written = (s.spkU u).written + 1 ∧ (t.spkU u).dropped = (s.spkU u).dropped)) ∧
    (s.spkDrops u = true →
      Completes (.spokeEreq u dt) s (fun t => (t.spkU u).queue = (s.spkU u).queue ∧ (t.spkU u).written = (s.spkU u).written + 1 ∧
        (t.spkU u).dropped = (s.spkU u).dropped + 1)) := by
  have hdrops : (s.ackIn (chEreq u) 32).spkDrops u = s.spkDrops u := State.ackIn_part (fun x => x.spkDrops u) (fun _ => rfl) s _ _
  refine ⟨fun hd hl _ ha => ?_, fun hd => ?_⟩ <;> show ∃ t, execSpokeEreq u dt s = .next t ∧ _ <;> unfold execSpokeEreq
  · rw [if_neg (by simp [ht, hd, hl]), hv]
    refine ⟨_, rfl, ?_⟩
    rw [State.pushEntry_queued dt _ (hdrops.trans hd) ((State.ackIn_get _ _ _ _).trans ha), State.ackIn_spkU]
    exact ⟨rfl, rfl, rfl⟩
  · rw [if_neg (by simp [ht, hd]), hv]
    refine ⟨_, rfl, ?_⟩
    rw [State.pushEntry_dropped dt _ (hdrops.trans hd), State.ackIn_spkU]
    exact ⟨rfl, rfl, rfl⟩

theorem completes_spokeEreq_retired {u : Fin 48} {dt : Fin 4000} {s : State} (h : s.spkRetired u = true) : Completes (.spokeEreq u dt) s (fun t => t = s) := by
  show ∃ t, execSpokeEreq u dt s = .next t ∧ _
  unfold execSpokeEreq
  rw [if_pos (by simp [State.spkTakes, h])]
  exact ⟨s, rfl, rfl⟩

theorem completes_spkPushHi {u : Fin 48} {dt : Fin 4000} {v : BitVec 32} {s : State} (hr : s.spkRetired u = false) (ho : s.barOpen (R.SPK_PUSH_HI u) = true)
    (ht : s.spkTakes u = true) (hd : s.spkDrops u = false) :
    ((s.spkU u).queue.length < 64 → (s.spkU u).queue ≠ [] → s.get (F.SPK_STS_armed u) = 1 →
      Completes (.spkPushHi u dt v) s (fun t => (t.spkU u).queue = (s.spkU u).queue ++ [v ++ (s.spkU u).pushLo] ∧
        (t.spkU u).written = (s.spkU u).written + 1)) ∧
    ((s.spkU u).queue.length = 64 →
      Completes (.spkPushHi u dt v) s (fun t => t.get (F.SPK_STS_push_lost u) = 1 ∧ t.spk = s.spk)) := by
  have hexec : exec (.spkPushHi u dt v) s = .next (s.bar (R.SPK_PUSH_HI u) (some v) (s.hostPush u dt v)) := by
    show execSpkPushHi u dt v s = _
    simp only [execSpkPushHi, hr, Bool.false_eq_true, if_false]
  refine ⟨fun hl _ ha => completes_bar hexec ho ?_, fun hl => completes_bar hexec ho ?_⟩ <;> unfold State.hostPush <;> dsimp only
  · rw [if_neg (by simp [ht, hd, hl]), State.pushEntry_queued dt _ hd ha]
    exact ⟨rfl, rfl⟩
  · rw [if_pos (by simp [ht, hd, hl])]
    exact ⟨State.get_put_lit _ rfl, rfl⟩

theorem completes_spokeSnap {u : Fin 48} {s : State} (hr : s.spkRetired u = false) (ho : s.barOpen (R.SPK_CTL u) = true) :
    Completes (.spokeSnap u) s (fun t => t.rd (R.SPK_WRITTEN u) = (s.spkU u).written ∧ t.rd (R.SPK_FIRED u) = (s.spkU u).fired ∧
      t.rd (R.SPK_DROPPED u) = (s.spkU u).dropped ∧ t.spk = s.spk) := by
  have hexec : exec (.spokeSnap u) s = .next (s.bar (R.SPK_CTL u) (some (s.rd (R.SPK_CTL u) ||| (F.SPK_CTL_snap u).mask)) (s.spkSnap u)) := by
    show execSpokeSnap u s = _
    simp only [execSpokeSnap, hr, Bool.false_eq_true, if_false]
  refine completes_bar hexec ho ?_
  unfold State.spkSnap
  dsimp only
  have hws : R.SPK_WRITTEN u ≠ (F.SPK_STS_occ_snap u).off := ne_of_base rfl rfl (by decide : 0x50018 ≠ 0x50004)
  have hfs : R.SPK_FIRED u ≠ (F.SPK_STS_occ_snap u).off := ne_of_base rfl rfl (by decide : 0x5001C ≠ 0x50004)
  have hds : R.SPK_DROPPED u ≠ (F.SPK_STS_occ_snap u).off := ne_of_base rfl rfl (by decide : 0x50020 ≠ 0x50004)
  have hwd : R.SPK_WRITTEN u ≠ R.SPK_DROPPED u := ne_of_base rfl rfl (by decide : 0x50018 ≠ 0x50020)
  have hwf : R.SPK_WRITTEN u ≠ R.SPK_FIRED u := ne_of_base rfl rfl (by decide : 0x50018 ≠ 0x5001C)
  have hfd : R.SPK_FIRED u ≠ R.SPK_DROPPED u := ne_of_base rfl rfl (by decide : 0x5001C ≠ 0x50020)
  refine ⟨?_, ?_, ?_, rfl⟩
  · rw [State.rd_put_ne _ _ _ _ hws, State.rd_wr_ne _ _ _ _ hwd, State.rd_wr_ne _ _ _ _ hwf, State.rd_wr_same]
  · rw [State.rd_put_ne _ _ _ _ hfs, State.rd_wr_ne _ _ _ _ hfd, State.rd_wr_same]
  · rw [State.rd_put_ne _ _ _ _ hds, State.rd_wr_same]

/-- A flush empties the queue and counts its entries as dropped. -/
theorem State.dropAll_spkU (s : State) (u : Nat) : (s.dropAll u).spkU u =
    { s.spkU u with queue := [], lateAt := none, dropped := (s.spkU u).dropped + BitVec.ofNat 32 (s.spkU u).queue.length } := by
  unfold State.dropAll
  dsimp only
  rw [State.spkSync_spkU, State.put_spkU, State.spkU_setSpk]

theorem State.endTicks_spkU (s : State) (u : Nat) : (s.endTicks u).spkU u = { s.spkU u with ticks := [], deadlines := [] } := by
  unfold State.endTicks
  dsimp only
  rw [State.spkU_setSpk]

/-- Parking leaves a unit but for its pads, and sets the parked bit of one whose outputs are on (R235). -/
theorem State.spkPark_unit (s : State) {u : Nat} (hu : u < 48) :
    ((s.spkPark u).spkU u).sansPads = (s.spkU u).sansPads ∧ ((s.spkU u).out = true → (s.spkPark u).get (F.SPK_STS_parked u) = 1) := by
  have hdue := s.padsDue_pads hu (s.updates * 32)
  have hpark (t : State) : t.Pads ((List.range 4).foldl (fun s q => s.parkPair u q) t) :=
    .foldl (fun s _ hq => s.parkPair_pads hu (List.mem_range.mp hq)) t
  have hunit {a b : State} (h : a.Pads b) : (b.spkU u).sansPads = (a.spkU u).sansPads := congrFun (congrArg Prod.snd h.part) u
  unfold State.spkPark
  dsimp only
  refine ⟨?_, fun ho => ?_⟩
  · split
    · rw [State.put_spkU, hunit (hpark _), hunit hdue]
    · exact hunit hdue
  · have hout : ((s.padsDue u (s.updates * 32)).spkU u).out = true := (congrArg Spk.out (hunit hdue)).trans ho
    rw [if_pos (by simp only [State.spkParks, hout, Bool.true_or])]
    exact State.get_put_lit _ rfl

/-- The end of a unit's work (R235). -/
theorem State.spkStop_unit (s : State) {u : Nat} (hu : u < 48) :
    let k := (s.spkStop u).spkU u
    k.queue = [] ∧ k.dropped = (s.spkU u).dropped + BitVec.ofNat 32 (s.spkU u).queue.length ∧ k.ticks = [] ∧ k.deadlines = [] ∧
      ((s.spkU u).out = true → (s.spkStop u).get (F.SPK_STS_parked u) = 1) := by
  obtain ⟨hpads, hparked⟩ := ((s.dropAll u).endTicks u).spkPark_unit hu
  rw [State.endTicks_spkU, State.dropAll_spkU] at hpads hparked
  unfold State.spkStop
  generalize hend : ((s.dropAll u).endTicks u).spkPark u = t at hpads hparked ⊢
  exact ⟨congrArg Spk.queue hpads, congrArg Spk.dropped hpads, congrArg Spk.ticks hpads, congrArg Spk.deadlines hpads, hparked⟩

theorem completes_spokeFlush {u : Fin 48} {s : State} (hr : s.spkRetired u = false) (ho : s.barOpen (R.SPK_CTL u) = true) :
    Completes (.spokeFlush u) s (fun t => (t.spkU u).queue = [] ∧
      (t.spkU u).dropped = (s.spkU u).dropped + BitVec.ofNat 32 (s.spkU u).queue.length ∧ (t.spkU u).pads = (s.spkU u).pads) := by
  have hexec : exec (.spokeFlush u) s = .next (s.bar (R.SPK_CTL u) (some (s.rd (R.SPK_CTL u) ||| (F.SPK_CTL_flush u).mask)) (s.dropAll u)) := by
    show execSpokeFlush u s = _
    simp only [execSpokeFlush, hr, Bool.false_eq_true, if_false]
  refine completes_bar hexec ho ?_
  rw [State.dropAll_spkU]
  exact ⟨rfl, rfl, rfl⟩

theorem completes_spokeDisable {u : Fin 48} {s : State} (hr : s.spkRetired u = false) (ho : s.barOpen (R.SPK_CTL u) = true) :
    Completes (.spokeDisable u) s (fun t => t.get (F.SPK_CTL_enable u) = 0 ∧ (t.spkU u).queue = [] ∧
      (t.spkU u).dropped = (s.spkU u).dropped + BitVec.ofNat 32 (s.spkU u).queue.length ∧ (t.spkU u).ticks = [] ∧ (t.spkU u).deadlines = [] ∧
      ((s.spkU u).out = true → t.get (F.SPK_STS_parked u) = 1)) := by
  have hexec : exec (.spokeDisable u) s = .next (s.bar (R.SPK_CTL u) (some (s.rd (R.SPK_CTL u) &&& 0xFFFFFFFE)) ((s.put (F.SPK_CTL_enable u) 0).spkStop u)) := by
    show execSpokeDisable u s = _
    simp only [execSpokeDisable, hr, Bool.false_eq_true, if_false]
  have hkept : spkMask stopBits (F.SPK_CTL_enable u).off = 0 := spkMask_at stopBits (a := 0x50000) (u := u) rfl u.isLt (by decide) (by decide)
  refine completes_bar hexec ho ⟨?_, ?_⟩
  · rw [(State.spkStop_stops _ u.isLt).get_of_zero hkept, State.get_put_lit _ rfl]
  · exact (s.put (F.SPK_CTL_enable u) 0).spkStop_unit u.isLt

/-- Settles O23, way in by way in and write by write. -/
theorem spokeUnitsQueueCountAndDropEntries : Obligations.SpokeUnitsQueueCountAndDropEntries :=
  ⟨fun _ _ _ _ ht hv => completes_spokeEreq ht hv, fun _ _ _ h => completes_spokeEreq_retired h,
    fun _ _ _ _ hr ho ht hd => completes_spkPushHi hr ho ht hd,
    fun _ _ hr ho => ⟨completes_spokeSnap hr ho, completes_spokeFlush hr ho, completes_spokeDisable hr ho⟩⟩

end Sys2Proof.Machine

end

section

/-! SUPPORT. O25: ticks, deadlines, samples, captures and converters. -/

namespace Sys2Proof.Machine

theorem State.clearOut_part {β : Type} (p : State → β) (hp : ∀ (u : State) (l : SMap (Option Node)), p { u with fab := { u.fab with nodes := l } } = p u)
    (s : State) (ch : Chan) (n : Nat) : p (s.clearOut ch n) = p s := by
  unfold State.clearOut
  exact foldl_kept p (by intro u d _; exact hp u _) s

theorem State.offerOut_part {β : Type} (p : State → β) (hp : ∀ u, p u.sansTokens = p u) (s : State) (ch : Chan) (ds : List Nat) :
    p (s.offerOut ch ds) = p s := State.of_sansTokens (s.offerOut_sansTokens ch ds) p hp

theorem State.clearOut_get (s : State) (ch : Chan) (n : Nat) (f : RF) : (s.clearOut ch n).get f = s.get f :=
  State.get_of_regs (State.clearOut_regs s ch n) f

theorem State.offerOut_get (s : State) (ch : Chan) (ds : List Nat) (f : RF) : (s.offerOut ch ds).get f = s.get f :=
  State.get_of_regs (State.offerOut_regs s ch ds) f

/-! ## Ticks and deadlines -/

theorem State.ticksOf_setTicks (s : State) (u k : Nat) (l : List (BitVec 2)) : (s.setTicks u k l).ticksOf u k = l := by
  simp only [State.ticksOf, State.setTicks, State.spkU_setSpk, SMap.get_set_same]

theorem State.deadlinesOf_setDeadlines (s : State) (u k : Nat) (l : List Deadline) : (s.setDeadlines u k l).deadlinesOf u k = l := by
  simp only [State.deadlinesOf, State.setDeadlines, State.spkU_setSpk, SMap.get_set_same]

theorem State.setDeadlines_get (s : State) (u k : Nat) (l : List Deadline) (f : RF) : (s.setDeadlines u k l).get f = s.get f :=
  State.setSpk_get _ _ _ f

theorem State.deadlinesOf_congr {s t : State} {u : Nat} (h : (t.spkU u).deadlines = (s.spkU u).deadlines) (k : Nat) : t.deadlinesOf u k = s.deadlinesOf u k := by
  simp only [State.deadlinesOf, h]

theorem completes_tickDeliver {u : Fin 48} {k : Fin 16} {s : State} (h : s.outTaken (chTick u k) 1 = true) :
    Completes (.tickDeliver u k) s (fun t => t.ticksOf u k = (s.ticksOf u k).tail) := by
  have hset := State.ticksOf_setTicks (s.clearOut (chTick u k) 1) u k (s.ticksOf u k).tail
  refine ⟨_, if_neg (by simp [h]), ?_⟩
  beta_reduce
  split
  · next he =>
    rw [he] at hset
    rw [he]
    exact hset
  · next v vs he =>
    rw [he] at hset
    rw [he]
    split
    · exact hset
    · rw [State.ticksOf, State.offerOut_spkU]
      exact hset

theorem slackFraction_range (sigma : Int) (d : Nat) : -32768 ≤ slackFraction sigma d ∧ slackFraction sigma d < 32768 := by
  unfold slackFraction
  dsimp only
  split
  · decide
  · split
    · decide
    · omega

/-- A signed field of 16 bits reads back what lies in its range. -/
theorem State.getS_putS (s : State) {f : RF} {v : Int} (hf : f.whole = true) (hw : f.w = 16) (hlo : -32768 ≤ v) (hhi : v < 32768) :
    (s.putS f v).getS f = v := by
  have henc : ((enc2 16 v : Nat) : Int) = v % 65536 := Int.toNat_of_nonneg (Int.emod_nonneg _ (by decide))
  have hlt : enc2 16 v < 65536 := by
    have := Int.emod_lt_of_pos v (show (0 : Int) < 65536 by decide)
    omega
  have hget : (s.put f (enc2 f.w v)).get f = enc2 16 v := by
    rw [State.get_put_self _ _ hf, hw]
    exact Nat.mod_eq_of_lt hlt
  rw [State.getS, State.putS, hget, hw]
  split
  · next h =>
    have h16 : enc2 16 v < 32768 := h
    omega
  · next h =>
    have h16 : ¬ enc2 16 v < 32768 := h
    have hpow : ((2 ^ 16 : Nat) : Int) = 65536 := rfl
    rw [hpow]
    omega

theorem State.getS_of_get {s t : State} {f : RF} (h : t.get f = s.get f) : t.getS f = s.getS f := by simp only [State.getS, h]

section

variable (s : State) {u k : Nat}

/-- A register of a unit below those of the last slacks. -/
theorem State.put_slack {f : RF} {a : Nat} (v : Nat) (hf : f.off = a + 0x1000 * u) (ha : a < 0x50040) :
    (s.put f v).getS ⟨R.SPK_SLACK u (k / 2), 16 * (k % 2), 16⟩ = s.getS ⟨R.SPK_SLACK u (k / 2), 16 * (k % 2), 16⟩ := by
  have hoff : R.SPK_SLACK u (k / 2) ≠ f.off := by simp only [R.SPK_SLACK, hf]; omega
  exact State.getS_of_get (State.get_put_off _ _ _ _ hoff)

/-- The slack of a completion, where its deadline has a distance (R249). -/
theorem State.recordSlack_slack {d : Deadline} (theta : BitVec 40) (hd : d.d ≠ 0) :
    (s.recordSlack u k d theta).getS ⟨R.SPK_SLACK u (k / 2), 16 * (k % 2), 16⟩ = slackFraction (ahead d.l theta d.dir) d.d.toNat := by
  have hwhole : (⟨R.SPK_SLACK u (k / 2), 16 * (k % 2), 16⟩ : RF).whole = true := by simp only [RF.whole, decide_eq_true_eq]; omega
  obtain ⟨hlo, hhi⟩ := slackFraction_range (ahead d.l theta d.dir) d.d.toNat
  unfold State.recordSlack
  rw [if_neg hd]
  dsimp only
  have hput := s.getS_putS hwhole rfl hlo hhi
  have hmin (t : State) (v : Nat) : (t.put (F.SPK_MON_MIN_slack u) v).getS ⟨R.SPK_SLACK u (k / 2), 16 * (k % 2), 16⟩ = t.getS _ :=
    t.put_slack v rfl (by decide)
  have hchan (t : State) (v : Nat) : (t.put (F.SPK_MON_MIN_chan u) v).getS ⟨R.SPK_SLACK u (k / 2), 16 * (k % 2), 16⟩ = t.getS _ :=
    t.put_slack v rfl (by decide)
  have hdone (t : State) : (t.inc (F.SPK_MON_CNT_done u)).getS ⟨R.SPK_SLACK u (k / 2), 16 * (k % 2), 16⟩ = t.getS _ := t.put_slack _ rfl (by decide)
  have hspk (t : State) (x : Spk) : (t.setSpk u x).getS ⟨R.SPK_SLACK u (k / 2), 16 * (k % 2), 16⟩ = t.getS _ := State.getS_of_get (State.setSpk_get _ _ _ _)
  split <;> split <;> simp only [hspk, hdone, hchan]
  · exact (hmin _ _).trans hput
  · exact (hmin _ _).trans hput
  · exact hput
  · exact hput

theorem State.recordSlack_deadlines (d : Deadline) (theta : BitVec 40) : ((s.recordSlack u k d theta).spkU u).deadlines = (s.spkU u).deadlines := by
  unfold State.recordSlack State.inc State.putS
  dsimp only
  split
  · rfl
  · split <;> split <;> simp only [State.spkU_setSpk, State.put_spkU]

end

section

variable {u : Fin 48} {k : Fin 16} {dt : Fin 4000} {s : State}

theorem completes_doneCompletion {d : Deadline} {ds : List Deadline} (ho : (s.spkU u).out = true) (hr : s.spkRetired u = false)
    (hv : (s.inValue (chDone u k) 1).isSome = true) (hh : s.halted = false) (hq : s.deadlinesOf u k = d :: ds) (hd : d.d ≠ 0) :
    Completes (.doneCompletion u k dt) s (fun t => t.deadlinesOf u k = ds ∧
      t.getS ⟨R.SPK_SLACK u (k / 2), 16 * (k % 2), 16⟩ =
        slackFraction (ahead d.l (s.estimate (s.get (F.SPK_CTL_track u)) dt) d.dir) d.d.toNat) := by
  obtain ⟨v, hv⟩ := Option.isSome_iff_exists.mp hv
  have hhalt : (s.ackIn (chDone u k) 1).halted = false := (State.ackIn_part State.halted (fun _ => rfl) s _ _).trans hh
  have hdl : (s.ackIn (chDone u k) 1).deadlinesOf u k = d :: ds := (State.deadlinesOf_congr (by rw [State.ackIn_spkU]) k).trans hq
  have hest : (s.ackIn (chDone u k) 1).estimate ((s.ackIn (chDone u k) 1).get (F.SPK_CTL_track u)) dt = s.estimate (s.get (F.SPK_CTL_track u)) dt :=
    State.ackIn_part (fun x => x.estimate (x.get (F.SPK_CTL_track u)) dt) (fun _ => rfl) s _ _
  show ∃ t, execDoneCompletion u k dt s = .next t ∧ _
  simp only [execDoneCompletion, ho, hr, hv, hhalt, hdl, hest, Bool.not_true, Bool.or_self, Bool.false_eq_true, if_false]
  refine ⟨_, rfl, ?_, State.recordSlack_slack _ _ hd⟩
  rw [State.deadlinesOf_congr (State.recordSlack_deadlines _ _ _), State.deadlinesOf_setDeadlines]

theorem completes_doneSpurious (ho : (s.spkU u).out = true) (hr : s.spkRetired u = false)
    (hv : (s.inValue (chDone u k) 1).isSome = true) (hh : s.halted = false) (hq : s.deadlinesOf u k = []) :
    Completes (.doneCompletion u k dt) s (fun t => bitOf (t.get (F.SPK_TICK_STS_spur u)) k = true) := by
  obtain ⟨v, hv⟩ := Option.isSome_iff_exists.mp hv
  have hhalt : (s.ackIn (chDone u k) 1).halted = false := (State.ackIn_part State.halted (fun _ => rfl) s _ _).trans hh
  have hdl : (s.ackIn (chDone u k) 1).deadlinesOf u k = [] := (State.deadlinesOf_congr (by rw [State.ackIn_spkU]) k).trans hq
  have hev : eventReg (F.SPK_TICK_STS_spur u).off = false := eventReg_of_page (Nat.le_add_right_of_le (by decide))
  show ∃ t, execDoneCompletion u k dt s = .next t ∧ _
  simp only [execDoneCompletion, ho, hr, hv, hhalt, hdl, Bool.not_true, Bool.or_self, Bool.false_eq_true, if_false]
  refine ⟨_, rfl, ?_⟩
  rw [State.raiseLim_getKept _ _ _ _ _ hev, State.get_put_self _ _ rfl, bitOf, Nat.testBit_mod_two_pow, Nat.testBit_or, Nat.testBit_two_pow_self,
    Bool.or_true, Bool.and_true]
  exact decide_eq_true k.isLt

theorem completes_deadlineMiss {d : Deadline} {ds : List Deadline} (hh : s.halted = false) (hq : s.deadlinesOf u k = d :: ds) (hd : d.d ≠ 0)
    (hm : d.missed = false) (hle : s.aheadFine (s.get (F.SPK_CTL_track u)) dt d.l d.dir ≤ 0)
    (hlt : -(2 ^ 38 * 16384000) < s.aheadFine (s.get (F.SPK_CTL_track u)) dt d.l d.dir) (hdir : s.movingDir (s.get (F.SPK_CTL_track u)) d.dir = true) :
    Completes (.deadlineMiss u k dt) s (fun t => t.deadlinesOf u k = { d with missed := true } :: ds ∧
      t.get (F.SPK_MON_CNT_miss u) = min (s.get (F.SPK_MON_CNT_miss u) + 1) (2 ^ (F.SPK_MON_CNT_miss u).w - 1)) := by
  have hreach : s.reaches (s.get (F.SPK_CTL_track u)) dt d = true := by
    simp only [State.reaches, decide_eq_true hle, decide_eq_true hlt, hdir, Bool.and_self]
  have hmark : markMissed (s.reaches (s.get (F.SPK_CTL_track u)) dt) (d :: ds) = some ({ d with missed := true } :: ds) := by
    rw [markMissed, if_pos ⟨hd, by rw [hm]; rfl, hreach⟩]
  have hev : eventReg (F.SPK_MON_CNT_miss u).off = false := eventReg_of_page (Nat.le_add_right_of_le (by decide))
  show ∃ t, execDeadlineMiss u k dt s = .next t ∧ _
  simp only [execDeadlineMiss, hh, hq, hmark, Bool.false_eq_true, if_false]
  refine ⟨_, rfl, ?_⟩
  have hbase : ((((s.setDeadlines u k ({ d with missed := true } :: ds)).sat (F.SPK_MON_CNT_miss u)).raiseLim 1000 0x0602 u (unitChan u k)).spkU u).deadlines =
      ((s.setDeadlines u k ({ d with missed := true } :: ds)).spkU u).deadlines := by
    rw [State.spkU_congr (State.raiseLim_spk _ _ _ _ _), State.sat, State.put_spkU]
  have hcount : (((s.setDeadlines u k ({ d with missed := true } :: ds)).sat (F.SPK_MON_CNT_miss u)).raiseLim 1000 0x0602 u (unitChan u k)).get (F.SPK_MON_CNT_miss u) =
      min (s.get (F.SPK_MON_CNT_miss u) + 1) (2 ^ (F.SPK_MON_CNT_miss u).w - 1) := by
    rw [State.raiseLim_getKept _ _ _ _ _ hev, State.get_sat _ _ rfl, State.setDeadlines_get]
  split
  · refine ⟨?_, (State.setSpk_get _ _ _ _).trans hcount⟩
    rw [State.deadlinesOf, State.spkU_setSpk]
    exact (State.deadlinesOf_congr hbase k).trans (State.deadlinesOf_setDeadlines _ _ _ _)
  · exact ⟨(State.deadlinesOf_congr hbase k).trans (State.deadlinesOf_setDeadlines _ _ _ _), hcount⟩

end

/-! ## Captures -/

theorem completes_captureEdge {u : Fin 48} {p : Fin 8} {level : Bool} {dt : Fin 4000} {s : State} (hp : s.pinOut u p = false) (ho : (s.spkU u).out = true)
    (hb : s.get (F.BANK_CFG_vio_ok (u / 6)) = 1) (hd : s.isDiff u (p / 2) = false) (hl : (s.spkU u).captures.length < 16)
    (ht : s.trkState (s.get (F.SPK_CTL_track u)) = 2)
    (hw : s.on (if level then F.SPK_PINCFG_cap_rise u (p / 4) (p % 4) else F.SPK_PINCFG_cap_fall u (p / 4) (p % 4)) = true) :
    Completes (.captureEdge u p level dt) s (fun t => t.get (F.SPK_PINCFG_level u (p / 4) (p % 4)) = level.toNat ∧
      (t.spkU u).captures = (s.spkU u).captures ++ [captureRecord (s.estimate (s.get (F.SPK_CTL_track u)) ((dt + 62) / 125 * 125)) p level true]) := by
  have hwhole (lo w : Nat) (h : lo + w ≤ 8) (off : Nat) : (⟨off, lo + 8 * (p.val % 4), w⟩ : RF).whole = true := by
    simp only [RF.whole, decide_eq_true_eq]
    omega
  have hside (lo w : Nat) (h : lo + w ≤ 7) : (F.SPK_PINCFG_level u (p / 4) (p % 4)).apart ⟨R.SPK_PINCFG u (p / 4), lo + 8 * (p.val % 4), w⟩ = true := by
    have hle : lo + 8 * (p.val % 4) + w ≤ 7 + 8 * (p.val % 4) := by omega
    simp only [RF.apart, hwhole lo w (by omega), F.SPK_PINCFG_level, hwhole 7 1 (by omega), hle, decide_true, Bool.or_true, Bool.and_true, Bool.true_or]
  have hoff {f : RF} (h : f.off < 0x50000 ∨ 0x80000 ≤ f.off ∨ f.off = R.SPK_CTL u) : (F.SPK_PINCFG_level u (p / 4) (p % 4)).apart f = true := by
    have hne : f.off ≠ R.SPK_PINCFG u (p / 4) := by
      simp only [R.SPK_CTL, R.SPK_PINCFG] at h ⊢
      omega
    simp [RF.apart, F.SPK_PINCFG_level, hne]
  generalize hv : s.putB (F.SPK_PINCFG_level u (p / 4) (p % 4)) level = v
  have hget {f : RF} (h : (F.SPK_PINCFG_level u (p / 4) (p % 4)).apart f = true) : v.get f = s.get f := hv ▸ State.get_putB_apart _ _ h
  have hlevel : v.get (F.SPK_PINCFG_level u (p / 4) (p % 4)) = level.toNat := by
    rw [← hv, State.get_putB _ _ (by rw [Bool.and_eq_true]; exact ⟨hwhole 7 1 (by omega) _, rfl⟩)]
    cases level <;> rfl
  have hrise : v.on (F.SPK_PINCFG_cap_rise u (p / 4) (p % 4)) = s.on (F.SPK_PINCFG_cap_rise u (p / 4) (p % 4)) :=
    congrArg (· != 0) (hget (hside 4 1 (by omega)))
  have hfall : v.on (F.SPK_PINCFG_cap_fall u (p / 4) (p % 4)) = s.on (F.SPK_PINCFG_cap_fall u (p / 4) (p % 4)) :=
    congrArg (· != 0) (hget (hside 5 1 (by omega)))
  have hpin : v.pinOut u p = false := (congrArg (· != 0) (hget (hside 0 1 (by omega)))).trans hp
  have hdiff : v.isDiff u (p / 2) = false := by
    rw [State.isDiff, hget (hoff (Or.inr (Or.inl (Nat.le_add_right_of_le (by decide))))), hget (hoff (Or.inr (Or.inl (Nat.le_add_right_of_le (by decide)))))]
    exact hd
  have htrack : v.get (F.SPK_CTL_track u) = s.get (F.SPK_CTL_track u) := hget (hoff (Or.inr (Or.inr rfl)))
  have hstate : v.trkState (s.get (F.SPK_CTL_track u)) = 2 := by
    have hlt : s.get (F.SPK_CTL_track u) < 8 := s.get_lt _
    refine (hget (hoff (Or.inl ?_))).trans ht
    simp only [F.CAD_TRK_STS_state, R.CAD_TRK_STS]
    omega
  have hspk : v.spkU u = s.spkU u := by rw [← hv, State.putB, State.put_spkU]
  have hest (dt : Nat) : v.estimate (s.get (F.SPK_CTL_track u)) dt = s.estimate (s.get (F.SPK_CTL_track u)) dt := by rw [← hv]; rfl
  have hwant : (if level then v.on (F.SPK_PINCFG_cap_rise u (p / 4) (p % 4)) else v.on (F.SPK_PINCFG_cap_fall u (p / 4) (p % 4))) = true := by
    rw [hrise, hfall]
    cases level <;> exact hw
  show ∃ t, execCaptureEdge u p level dt s = .next t ∧ _
  unfold execCaptureEdge
  simp only [State.on_of_one hb, hv, hdiff, hpin, htrack, hstate, hspk, hest, ho, hwant, Bool.not_true, Bool.false_and, Bool.bne_false, Bool.or_self,
    Bool.false_eq_true, if_false, Nat.not_le.mpr hl, beq_self_eq_true, Bool.true_or, if_true]
  refine ⟨_, rfl, ?_, ?_⟩
  · rw [State.setSpk_get]
    split
    · rw [State.offerOut_get, hlevel]
    · exact hlevel
  · rw [State.spkU_setSpk]

theorem completes_captureRecordTaken {u : Fin 48} {s : State} (h : s.outTaken (chCap u) 24 = true) :
    Completes (.captureRecordTaken u) s (fun t => (t.spkU u).captures = (s.spkU u).captures.tail) := by
  refine ⟨_, if_neg (by simp [h]), ?_⟩
  beta_reduce
  split
  · rw [State.spkU_setSpk]
  · rw [State.offerOut_spkU, State.spkU_setSpk]

/-! ## Converters -/

@[simp] theorem State.adcC_setAdc (s : State) (c : Nat) (a : Adc) : (s.setAdc c a).adcC c = a := SMap.get_set_same _ _ _ _

theorem State.adcC_congr {s t : State} (h : t.adc = s.adc) (c : Nat) : t.adcC c = s.adcC c := by simp only [State.adcC, h]

@[simp] theorem State.put_adcC (s : State) (f : RF) (v c : Nat) : (s.put f v).adcC c = s.adcC c := State.adcC_congr rfl c

theorem completes_socTrigger {c : Fin 8} {dt : Fin 4000} {v : Nat} {s : State} (he : s.get (F.ADC_CTL_enable c) = 1) (hs : s.get (F.ADC_CTL_soc_en c) = 1)
    (hso : s.slotOwner c = true) (ht : s.spkTakes (s.get (F.ADC_CTL_unit c)) = true)
    (hv : s.inValue (chSoc (s.get (F.ADC_CTL_unit c)) (s.get (F.ADC_CTL_slot c))) 1 = some v)
    (hh : s.get (F.ADC_STS_held c) = 0) (hb : s.get (F.ADC_STS_busy c) = 0) (ho : (s.adcC c).out = true) :
    Completes (.socTrigger c dt) s (fun t => t.get (F.ADC_STS_busy c) = 1 ∧ (t.adcC c).mux = BitVec.ofNat 2 v) := by
  have hunit : s.get (F.ADC_CTL_unit c) < 48 := by
    have h := Bool.and_eq_true_iff.mp hso
    exact of_decide_eq_true h.1
  have hadc : (s.ackIn (chSoc (s.get (F.ADC_CTL_unit c)) (s.get (F.ADC_CTL_slot c))) 1).adcC c = s.adcC c :=
    State.ackIn_part (fun x => x.adcC c) (fun _ => rfl) s _ _
  show ∃ t, execSocTrigger c s dt = .next t ∧ _
  simp only [execSocTrigger, State.on_of_one he, State.on_of_one hs, hso, ht, hv, Bool.not_true, Bool.or_self, Bool.false_eq_true, if_false]
  refine ⟨_, rfl, ?_⟩
  have hget (f : RF) := State.ackIn_get s (chSoc (s.get (F.ADC_CTL_unit c)) (s.get (F.ADC_CTL_slot c))) 1 f
  generalize s.ackIn (chSoc (s.get (F.ADC_CTL_unit c)) (s.get (F.ADC_CTL_slot c))) 1 = a at hadc hget
  simp only [State.adcTrigSoc, State.adcTrigger, State.adcOn, State.on, hget, hh, hb, he, hadc, ho, hunit, decide_true]
  exact ⟨State.get_put_lit _ rfl, by simp [State.adcStart]⟩

theorem State.resOffer_adc (s : State) (c : Nat) :
    ((s.resOffer c).adcC c).results = (s.adcC c).results ∧ ((s.resOffer c).adcC c).held = (s.adcC c).held ∧ (s.resOffer c).regs = s.regs := by
  have hoff (t : State) (ch : Chan) (ds : List Nat) : (t.offerOut ch ds).adcC c = t.adcC c := State.offerOut_part (fun x => x.adcC c) (fun _ => rfl) t ch ds
  unfold State.resOffer
  dsimp only
  split
  · exact ⟨rfl, rfl, rfl⟩
  · split
    · exact ⟨rfl, rfl, rfl⟩
    · rw [hoff, State.adcC_setAdc, State.offerOut_regs, State.setAdc_regs, State.clearOut_regs]
      exact ⟨rfl, rfl, rfl⟩

/-- The delivery of a result leaves the held trigger, and of the registers all but the count of results lost (R252). -/
theorem State.deliverResult_kept (s : State) (c : Nat) (r : BitVec 18) :
    ((s.deliverResult c r).adcC c).held = (s.adcC c).held ∧
      ∀ f : RF, (F.ADC_STS_res_ovf c).apart f = true → eventReg f.off = false → (s.deliverResult c r).get f = s.get f := by
  unfold State.deliverResult
  dsimp only
  split
  · exact ⟨rfl, fun _ _ _ => rfl⟩
  · split
    · refine ⟨?_, fun f hf he => ?_⟩
      · rw [State.adcC_congr (State.raiseLim_adc _ _ _ _ _), State.sat, State.put_adcC]
      · rw [State.raiseLim_getKept _ _ _ _ _ he, State.get_sat_apart _ _ hf]
    · obtain ⟨_, hheld, hregs⟩ := (s.setAdc c { s.adcC c with results := (s.adcC c).results ++ [r] }).resOffer_adc c
      exact ⟨by rw [hheld, State.adcC_setAdc], fun f _ _ => (State.get_of_regs hregs f).trans (State.setAdc_get _ _ _ _)⟩

/-- A conversion's code shown and its result delivered, where no trigger is held over. -/
def State.convShown (s : State) (c : Nat) (code : BitVec 16) : State :=
  let w := (s.put (F.ADC_LAST_code c) code.toNat).put (F.ADC_LAST_mux c) (s.adcC c).mux.toNat
  if w.on (F.ADC_STS_held c) then w else w.deliverResult c ((s.adcC c).mux ++ code)

/-- The held trigger starts once a conversion has ended. -/
def State.convNext (s : State) (c : Nat) : State :=
  match (s.adcC c).held with
  | none => s.put (F.ADC_STS_busy c) 0
  | some m => ((s.setAdc c { s.adcC c with held := none, heldSoc := none, mux := m }).put (F.ADC_STS_pend c) 0).put (F.ADC_STS_busy c) 1

theorem State.convShown_spec (s : State) (c : Nat) (code : BitVec 16) :
    ((s.convShown c code).adcC c).held = (s.adcC c).held ∧ (s.convShown c code).get (F.ADC_LAST_code c) = code.toNat ∧
      (s.convShown c code).get (F.ADC_LAST_mux c) = (s.adcC c).mux.toNat := by
  have hev {f : RF} (hf : f.off = R.ADC_LAST c) : eventReg f.off = false := eventReg_of_page (hf ▸ Nat.le_add_right_of_le (by decide))
  have hcode : ((s.put (F.ADC_LAST_code c) code.toNat).put (F.ADC_LAST_mux c) (s.adcC c).mux.toNat).get (F.ADC_LAST_code c) = code.toNat := by
    rw [State.get_put_apart _ _ rfl, State.get_put_lt _ rfl code.isLt]
  have hmux : ((s.put (F.ADC_LAST_code c) code.toNat).put (F.ADC_LAST_mux c) (s.adcC c).mux.toNat).get (F.ADC_LAST_mux c) = (s.adcC c).mux.toNat :=
    State.get_put_lt _ rfl (s.adcC c).mux.isLt
  obtain ⟨hheld, hget⟩ := ((s.put (F.ADC_LAST_code c) code.toNat).put (F.ADC_LAST_mux c) (s.adcC c).mux.toNat).deliverResult_kept c ((s.adcC c).mux ++ code)
  unfold State.convShown
  dsimp only
  split
  · exact ⟨by simp, hcode, hmux⟩
  · exact ⟨by rw [hheld, State.put_adcC, State.put_adcC], (hget (F.ADC_LAST_code c) (apart_base rfl rfl rfl) (hev rfl)).trans hcode,
      (hget (F.ADC_LAST_mux c) (apart_base rfl rfl rfl) (hev rfl)).trans hmux⟩

theorem State.convNext_last (s : State) (c : Nat) {f : RF} (hf : f.off = R.ADC_LAST c) : (s.convNext c).get f = s.get f := by
  have hb : (F.ADC_STS_busy c).apart f = true := apart_base rfl hf rfl
  have hp : (F.ADC_STS_pend c).apart f = true := apart_base rfl hf rfl
  unfold State.convNext
  split
  · exact State.get_put_apart _ _ hb
  · rw [State.get_put_apart _ _ hb, State.get_put_apart _ _ hp, State.setAdc_get]

theorem State.convNext_spec (s : State) (c : Nat) :
    ((s.convNext c).adcC c).held = none ∧ (s.convNext c).get (F.ADC_STS_busy c) = (if (s.adcC c).held.isSome then 1 else 0) ∧
      ∀ m, (s.adcC c).held = some m → ((s.convNext c).adcC c).mux = m := by
  unfold State.convNext
  split
  · next h =>
    rw [h]
    exact ⟨by simpa using h, State.get_put_lit _ rfl, fun m hm => by cases hm⟩
  · next m h =>
    rw [h]
    exact ⟨by simp, State.get_put_lit _ rfl, fun n hn => by simp [Option.some.inj hn]⟩

theorem completes_conversionComplete {c : Fin 8} {code : BitVec 16} {s : State} (hb : s.get (F.ADC_STS_busy c) = 1)
    (hc : s.get (F.PIN_CFG_claim (muxPin c (s.adcC c).mux.toNat)) = 7) :
    Completes (.conversionComplete c code) s (fun t => t.get (F.ADC_LAST_code c) = code.toNat ∧
      t.get (F.ADC_LAST_mux c) = (s.adcC c).mux.toNat ∧ (t.adcC c).held = none ∧
      t.get (F.ADC_STS_busy c) = (if (s.adcC c).held.isSome then 1 else 0) ∧ ∀ m, (s.adcC c).held = some m → (t.adcC c).mux = m) := by
  have hcode : s.convCode c (s.adcC c).mux.toNat code = code := if_pos hc
  have hrun : exec (.conversionComplete c code) s = .next ((s.convShown c code).convNext c) := by
    show execConversionComplete c code s = _
    unfold execConversionComplete
    rw [if_neg (by simp [State.on_of_one hb])]
    dsimp only
    rw [hcode]
    rfl
  obtain ⟨hheld, hlast, hmux⟩ := s.convShown_spec c code
  have hnext := (s.convShown c code).convNext_spec c
  rw [hheld] at hnext
  exact ⟨_, hrun, ((s.convShown c code).convNext_last c rfl).trans hlast, ((s.convShown c code).convNext_last c rfl).trans hmux, hnext⟩

theorem completes_resultTaken {c : Fin 8} {s : State} (h : s.outTaken (chRes (s.get (F.ADC_CTL_unit c)) (s.get (F.ADC_CTL_slot c))) 9 = true)
    (ho : (s.adcC c).offered = true) : Completes (.resultTaken c) s (fun t => (t.adcC c).results = (s.adcC c).results.tail) := by
  show ∃ t, execResultTaken c s = .next t ∧ _
  unfold execResultTaken
  dsimp only
  rw [if_neg (by simp [ho]), if_neg (by simpa [State.chAdc] using h)]
  refine ⟨_, rfl, ?_⟩
  rw [(State.resOffer_adc _ _).1, State.adcC_setAdc]

theorem completes_resultWaits {c : Fin 8} {s : State} (ho : (s.adcC c).offered = false) :
    Completes (.resultTaken c) s (fun t => (t.adcC c).results = (s.adcC c).results) := by
  show ∃ t, execResultTaken c s = .next t ∧ _
  unfold execResultTaken
  dsimp only
  rw [if_pos (by simp [ho])]
  exact ⟨_, rfl, (State.resOffer_adc _ _).1⟩

/-! ## Samples -/

/-- A unit that passes its sample and its misses on. -/
def Spk.passed (k : Spk) : Spk := { k with sample := none, misses := 0 }

/-- What a cluster passes on: its smallest sample, and one low one for each deadline missed. -/
def State.clusterCount (s : State) (i : Nat) : Nat :=
  (if (List.range 4).any (fun j => ! s.unitQuiet (4 * i + j) && (s.spkU (4 * i + j)).sample.isSome) then 1 else 0) +
    ((List.range 4).map (fun j => if s.unitQuiet (4 * i + j) then 0 else (s.spkU (4 * i + j)).misses)).sum

theorem State.unitQuiet_congr {s t : State} {u : Nat} (hr : t.regs = s.regs) (hq : (t.spkU u).quietUntil = (s.spkU u).quietUntil) :
    t.unitQuiet u = s.unitQuiet u := by
  have htime : t.time = s.time := by simp only [State.time, State.rd, hr]
  rw [State.unitQuiet, State.on, State.get_of_regs hr, State.get_of_regs hr, htime, hq, State.unitQuiet, State.on]

theorem drlSamples_kept (n : Nat) (v : Int) (s : State) :
    let t := (List.range n).foldl (fun s _ => s.drlSample v) s
    t.regs = s.regs ∧ t.spk = s.spk ∧ t.pwr.samples = s.pwr.samples + n := by
  induction n with
  | zero => exact ⟨rfl, rfl, rfl⟩
  | succ n ih =>
    obtain ⟨hr, hs, hn⟩ := ih
    simp only [List.range_succ, List.foldl_append, List.foldl_cons, List.foldl_nil]
    refine ⟨hr, hs, ?_⟩
    show _ + 1 = _
    rw [hn, Nat.add_assoc]

/-- Units that pass on, one after the other. -/
theorem passed_foldl (l : List Nat) (s : State) (hl : l.Nodup) :
    let t := l.foldl (fun s u => s.setSpk u (s.spkU u).passed) s
    t.regs = s.regs ∧ t.pwr = s.pwr ∧ ∀ u, t.spkU u = if u ∈ l then (s.spkU u).passed else s.spkU u := by
  induction l generalizing s with
  | nil => exact ⟨rfl, rfl, fun u => rfl⟩
  | cons v l ih =>
    obtain ⟨hv, hl⟩ := List.nodup_cons.mp hl
    obtain ⟨hr, hp, hu⟩ := ih (s.setSpk v (s.spkU v).passed) hl
    refine ⟨hr.trans (State.setSpk_regs _ _ _), hp, fun u => (hu u).trans ?_⟩
    by_cases huv : u = v
    · subst huv
      simp [hv]
    · simp [huv, State.spkU_setSpk_ne _ _ huv]

theorem foldl_add_eq_sum (f : Nat → Nat) (l : List Nat) (n : Nat) : l.foldl (fun n u => n + f u) n = n + (l.map f).sum := by
  induction l generalizing n with
  | nil => rfl
  | cons u l ih => rw [List.foldl_cons, ih, List.map_cons, List.sum_cons, Nat.add_assoc]

theorem sum_filter_not (q : Nat → Bool) (f : Nat → Nat) (l : List Nat) :
    ((l.filter (fun u => ! q u)).map f).sum = (l.map (fun u => if q u then 0 else f u)).sum := by
  induction l with
  | nil => rfl
  | cons u l ih => cases h : q u <;> simp [h, ih]

/-- The units of a cluster that pass on. -/
def State.clusterUnits (s : State) (i : Nat) : List Nat := ((List.range 4).map (4 * i + ·)).filter (fun u => ! s.unitQuiet u)

theorem State.mem_clusterUnits (s : State) (i u : Nat) : u ∈ s.clusterUnits i ↔ u / 4 = i ∧ s.unitQuiet u = false := by
  simp only [State.clusterUnits, List.mem_filter, List.mem_map, List.mem_range, Bool.not_eq_true']
  refine and_congr_left fun _ => ⟨?_, fun h => ⟨u % 4, Nat.mod_lt _ (by decide), by omega⟩⟩
  rintro ⟨j, hj, rfl⟩
  omega

theorem State.clusterUnits_nodup (s : State) (i : Nat) : (s.clusterUnits i).Nodup :=
  (List.Nodup.map (fun a b (h : 4 * i + a = 4 * i + b) => by omega) List.nodup_range).filter _

theorem State.clusterCount_eq (s : State) (i : Nat) : s.clusterCount i =
    (if (s.clusterUnits i).filterMap (fun u => (s.spkU u).sample) = [] then 0 else 1) +
      (s.clusterUnits i).foldl (fun n u => n + (s.spkU u).misses) 0 := by
  have hany : (List.range 4).any (fun j => ! s.unitQuiet (4 * i + j) && (s.spkU (4 * i + j)).sample.isSome) = true ↔
      (s.clusterUnits i).filterMap (fun u => (s.spkU u).sample) ≠ [] := by
    rw [Ne, List.filterMap_eq_nil_iff, List.any_eq_true]
    simp only [State.clusterUnits, List.mem_filter, List.mem_map, Bool.and_eq_true, not_forall, Option.isSome_iff_ne_none]
    exact ⟨fun ⟨j, hj, hq, hs⟩ => ⟨4 * i + j, ⟨⟨j, hj, rfl⟩, hq⟩, hs⟩, fun ⟨u, ⟨⟨j, hj, hu⟩, hq⟩, hs⟩ => ⟨j, hj, hu ▸ hq, hu ▸ hs⟩⟩
  rw [State.clusterCount, foldl_add_eq_sum, Nat.zero_add, State.clusterUnits, sum_filter_not, List.map_map]
  congr 1
  by_cases h : (s.clusterUnits i).filterMap (fun u => (s.spkU u).sample) = []
  · rw [if_neg fun ht => hany.mp ht h, ← State.clusterUnits, if_pos h]
  · rw [if_pos (hany.mpr h), ← State.clusterUnits, if_neg h]

/-- The smallest sample of a cluster goes to the Derailleur. -/
def State.clusterLowest (s : State) (i : Nat) (t : State) : State :=
  match (s.clusterUnits i).filterMap (fun u => (s.spkU u).sample) with
  | [] => t
  | v :: vs => t.drlSample (vs.foldl min v)

theorem State.clusterSend_eq (s : State) (i : Nat) : s.clusterSend i =
    (List.range ((s.clusterUnits i).foldl (fun n u => n + (s.spkU u).misses) 0)).foldl (fun s _ => s.drlSample (-4096))
      (s.clusterLowest i ((s.clusterUnits i).foldl (fun s u => s.setSpk u (s.spkU u).passed) s)) := rfl

theorem State.clusterLowest_spec (s : State) (i : Nat) (t : State) :
    (s.clusterLowest i t).regs = t.regs ∧ (s.clusterLowest i t).spk = t.spk ∧ (s.clusterLowest i t).pwr.samples =
      t.pwr.samples + if (s.clusterUnits i).filterMap (fun u => (s.spkU u).sample) = [] then 0 else 1 := by
  unfold State.clusterLowest
  split
  · next h => exact ⟨rfl, rfl, by rw [if_pos h]; rfl⟩
  · next h => exact ⟨rfl, rfl, by rw [if_neg (by rw [h]; exact List.cons_ne_nil _ _)]; rfl⟩

/-- A cluster's turn: its units that are not quiet pass on, any other stays (R249). -/
theorem State.clusterSend_spec (s : State) (i : Nat) :
    (s.clusterSend i).regs = s.regs ∧ (s.clusterSend i).pwr.samples = s.pwr.samples + s.clusterCount i ∧
      ∀ u, (s.clusterSend i).spkU u = if u / 4 = i ∧ s.unitQuiet u = false then (s.spkU u).passed else s.spkU u := by
  obtain ⟨hr, hp, hu⟩ := passed_foldl (s.clusterUnits i) s (s.clusterUnits_nodup i)
  obtain ⟨hlr, hls, hlp⟩ := s.clusterLowest_spec i ((s.clusterUnits i).foldl (fun s u => s.setSpk u (s.spkU u).passed) s)
  obtain ⟨hmr, hms, hmp⟩ := drlSamples_kept ((s.clusterUnits i).foldl (fun n u => n + (s.spkU u).misses) 0) (-4096)
    (s.clusterLowest i ((s.clusterUnits i).foldl (fun s u => s.setSpk u (s.spkU u).passed) s))
  rw [State.clusterSend_eq, State.clusterCount_eq]
  refine ⟨hmr.trans (hlr.trans hr), ?_, fun u => ?_⟩
  · rw [hmp, hlp, hp, Nat.add_assoc]
  · rw [State.spkU_congr (hms.trans hls), hu]
    exact if_congr (s.mem_clusterUnits i u) rfl rfl

theorem State.clusterSend_quiet_unit (s : State) (i u : Nat) : (s.clusterSend i).unitQuiet u = s.unitQuiet u := by
  obtain ⟨hr, _, hu⟩ := s.clusterSend_spec i
  refine State.unitQuiet_congr hr ?_
  rw [hu]
  split <;> rfl

theorem State.clusterSend_count (s : State) {i j : Nat} (h : j ≠ i) : (s.clusterSend i).clusterCount j = s.clusterCount j := by
  have hu {k : Nat} (hk : k ∈ List.range 4) : (s.clusterSend i).spkU (4 * j + k) = s.spkU (4 * j + k) := by
    have hlt := List.mem_range.mp hk
    rw [(s.clusterSend_spec i).2.2, if_neg (fun hc => h (by omega))]
  simp only [State.clusterCount, State.clusterSend_quiet_unit]
  congr 1
  · refine if_congr ?_ rfl rfl
    simp only [List.any_eq_true]
    exact exists_congr fun k => and_congr_right fun hk => by rw [hu hk]
  · refine congrArg List.sum (List.map_congr_left fun k hk => ?_)
    rw [hu hk]

theorem clusters_samples (l : List Nat) (s : State) (hl : l.Nodup) :
    (l.foldl (fun s i => s.clusterSend i) s).pwr.samples = s.pwr.samples + (l.map s.clusterCount).sum := by
  induction l generalizing s with
  | nil => rfl
  | cons i l ih =>
    obtain ⟨hi, hl⟩ := List.nodup_cons.mp hl
    have hmap : l.map (s.clusterSend i).clusterCount = l.map s.clusterCount :=
      List.map_congr_left fun j hj => s.clusterSend_count fun he => hi (he ▸ hj)
    rw [List.foldl_cons, ih _ hl, hmap, (s.clusterSend_spec i).2.1, List.map_cons, List.sum_cons, Nat.add_assoc]

/-- The units of all clusters. -/
theorem units_by_cluster : List.range 48 = (List.range 12).flatMap (fun i => (List.range 4).map (4 * i + ·)) := by decide

theorem sum_map_add (f g : Nat → Nat) (l : List Nat) : (l.map (fun i => f i + g i)).sum = (l.map f).sum + (l.map g).sum := by
  induction l with
  | nil => rfl
  | cons i l ih =>
    simp only [List.map_cons, List.sum_cons, ih]
    omega

theorem sum_ite_eq_length (q : Nat → Bool) (l : List Nat) : (l.map (fun i => if q i = true then 1 else 0)).sum = (l.filter q).length := by
  induction l with
  | nil => rfl
  | cons i l ih => cases h : q i <;> simp [h, ih, Nat.add_comm]

theorem completes_slackTransfer {s : State} (hh : s.halted = false) :
    Completes .slackTransfer s (fun t =>
      (∀ u : Fin 48, if s.unitQuiet u then t.spkU u = s.spkU u else (t.spkU u).sample = none ∧ (t.spkU u).misses = 0) ∧
      t.pwr.samples = s.pwr.samples +
        ((List.range 12).filter (fun i => (List.range 4).any (fun j => ! s.unitQuiet (4 * i + j) && (s.spkU (4 * i + j)).sample.isSome))).length +
        ((List.range 48).map (fun u => if s.unitQuiet u then 0 else (s.spkU u).misses)).sum) := by
  refine ⟨_, if_neg (by simp [hh]), fun u => ?_, ?_⟩
  · have hmem : u.val / 4 ∈ List.range 12 := List.mem_range.mpr (by omega)
    obtain ⟨l, hl, hturn⟩ := foldl_turn (fun t => t.spkU u) (f := fun s i => s.clusterSend i) hmem List.nodup_range
      (fun t i _ hi => by rw [(t.clusterSend_spec i).2.2, if_neg (fun hc => hi hc.1.symm)]) s
    have hbefore : (l.foldl (fun s i => s.clusterSend i) s).spkU u = s.spkU u :=
      foldl_kept (fun t => t.spkU u) (fun t i hi => by rw [(t.clusterSend_spec i).2.2, if_neg (fun hc => (hl i hi).2 hc.1.symm)]) s
    have hquiet : (l.foldl (fun s i => s.clusterSend i) s).unitQuiet u = s.unitQuiet u :=
      foldl_kept (fun t => t.unitQuiet u) (fun t i _ => t.clusterSend_quiet_unit i u) s
    have hown := (State.clusterSend_spec (l.foldl (fun s i => s.clusterSend i) s) (u / 4)).2.2 u
    rw [hquiet, hbefore] at hown
    rw [hturn, hown]
    cases hq : s.unitQuiet u
    · simp [Spk.passed]
    · simp
  · rw [clusters_samples _ _ List.nodup_range, units_by_cluster, List.map_flatMap, Nat.add_assoc, ← sum_ite_eq_length]
    unfold State.clusterCount
    rw [sum_map_add]
    simp only [List.flatMap_def, List.sum_flatten, List.map_map, Function.comp_def]

/-- Settles O25, report by report. -/
theorem monitorsCapturesAndConvertersReport : Obligations.MonitorsCapturesAndConvertersReport :=
  ⟨fun _ _ _ h => completes_tickDeliver h, fun _ _ _ _ _ _ ho hr hv hh hq hd => completes_doneCompletion ho hr hv hh hq hd,
    fun _ _ _ _ ho hr hv hh hq => completes_doneSpurious ho hr hv hh hq,
    fun _ _ _ _ _ _ hh hq hd hm hle hlt hdir => completes_deadlineMiss hh hq hd hm hle hlt hdir, fun _ hh => completes_slackTransfer hh,
    fun _ _ _ _ _ hp ho hb hd hl ht hw => completes_captureEdge hp ho hb hd hl ht hw, fun _ _ h => completes_captureRecordTaken h,
    fun _ _ _ _ he hs hso ht hv hh hb ho => completes_socTrigger he hs hso ht hv hh hb ho, fun _ _ _ hb hc => completes_conversionComplete hb hc,
    fun _ _ h ho => completes_resultTaken h ho, fun _ _ ho => completes_resultWaits ho⟩

end Sys2Proof.Machine

end

section

/-! SUPPORT. O24: an armed entry fires by its kind (R237 to R242). -/

namespace Sys2Proof.Machine

/-! ## Loops with an invariant -/

section

variable {α β : Type} {I : State → Prop} {f : State → α → State} {l : List α}

theorem foldl_inv (h : ∀ s, ∀ a ∈ l, I s → I (f s a)) (s : State) (hs : I s) : I (l.foldl f s) := by
  induction l generalizing s with
  | nil => exact hs
  | cons a l ih => exact ih (fun s b hb => h s b (List.mem_cons_of_mem a hb)) _ (h s a List.mem_cons_self hs)

theorem foldl_keeps_of_inv (p : State → β) (hI : ∀ s, ∀ a ∈ l, I s → I (f s a)) (h : ∀ s, ∀ a ∈ l, I s → p (f s a) = p s) (s : State) (hs : I s) :
    p (l.foldl f s) = p s := by
  induction l generalizing s with
  | nil => rfl
  | cons a l ih =>
    rw [List.foldl_cons, ih (fun s b hb => hI s b (List.mem_cons_of_mem a hb)) (fun s b hb => h s b (List.mem_cons_of_mem a hb)) _
      (hI s a List.mem_cons_self hs), h s a List.mem_cons_self hs]

/-- A loop over distinct places in which one place's turn sets what no other turn changes. -/
theorem foldl_sets (p : State → β) {k : α} {v : β} (hk : k ∈ l) (hl : l.Nodup) (hI : ∀ s, ∀ a ∈ l, I s → I (f s a))
    (hown : ∀ s, I s → p (f s k) = v) (h : ∀ s, ∀ a ∈ l, a ≠ k → I s → p (f s a) = p s) (s : State) (hs : I s) : p (l.foldl f s) = v := by
  obtain ⟨l₁, l₂, rfl⟩ := List.append_of_mem hk
  have hafter : ∀ a ∈ l₂, a ≠ k := fun a ha he => (List.nodup_cons.mp (List.nodup_append.mp hl).2.1).1 (he ▸ ha)
  have hbefore : I (l₁.foldl f s) := foldl_inv (fun s a ha => hI s a (by simp [ha])) s hs
  rw [List.foldl_append, List.foldl_cons,
    foldl_keeps_of_inv p (fun s a ha => hI s a (by simp [ha])) (fun s a ha => h s a (by simp [ha]) (hafter a ha)) _ (hI _ k (by simp) hbefore),
    hown _ hbefore]

end

/-! ## One pad -/

/-- A single-ended output without a partner that interlocks it, not shorted, of a bank with its supply. -/
structure State.Free (s : State) (u p : Nat) : Prop where
  out : s.pinOut u p = true
  single : s.isDiff u (p / 2) = false
  alone : s.interlocked u (p / 2) = false
  sound : s.on (F.SPK_PAD_short u p) = false
  supplied : s.on (F.BANK_CFG_vio_ok (u / 6)) = true

theorem pincfg_mask {u p : Nat} (hu : u < 48) (hp : p < 8) : spkMask stopBits (R.SPK_PINCFG u (p / 4)) = 0x80808080 := by
  have hcase : p / 4 = 0 ∨ p / 4 = 1 := by omega
  rcases hcase with h | h <;> rw [h]
  · exact spkMask_at stopBits (a := 0x50028) (u := u) rfl hu (by decide) (by decide)
  · exact spkMask_at stopBits (a := 0x5002C) (u := u) (by simp only [R.SPK_PINCFG]; omega) hu (by decide) (by decide)

theorem bank_page (a x k : Nat) (h : 0x80000 ≤ a) : 0x80000 ≤ a + x * k := Nat.le_add_right_of_le h

section

variable {β : Type} {part : State → β} {s t : State} {u p : Nat} (h : s.Alters (spkMask stopBits) part t)

include h

theorem State.Alters.pincfg (hu : u < 48) (hp : p < 8) {lo : Nat} (hlo : lo < 7) :
    t.get ⟨R.SPK_PINCFG u (p / 4), lo + 8 * (p % 4), 1⟩ = s.get ⟨R.SPK_PINCFG u (p / 4), lo + 8 * (p % 4), 1⟩ := by
  have hmask : ∀ lo < 7, ∀ j < 4, (0x80808080 : Word) &&& (⟨0, lo + 8 * j, 1⟩ : RF).mask = 0 := by decide
  refine h.get ?_
  rw [pincfg_mask hu hp]
  exact hmask lo hlo (p % 4) (by omega)

theorem State.Alters.pol (hu : u < 48) (hp : p < 8) : t.on (F.SPK_PINCFG_pol u (p / 4) (p % 4)) = s.on (F.SPK_PINCFG_pol u (p / 4) (p % 4)) :=
  congrArg (· != 0) (h.pincfg hu hp (lo := 1) (by decide))

theorem State.Alters.page {f : RF} (hf : 0x80000 ≤ f.off) : t.get f = s.get f :=
  h.get_of_zero (spkMask_outside _ (eventReg_of_page (by omega)) (Or.inr hf))

theorem State.Alters.isDiff (q : Nat) : t.isDiff u q = s.isDiff u q := by
  rw [State.isDiff, h.page (bank_page 0x90800 _ _ (by decide)), h.page (bank_page 0x90804 _ _ (by decide)), State.isDiff]

theorem State.Alters.interlocked (hu : u < 48) (q : Nat) : t.interlocked u q = s.interlocked u q := by
  have hilk : t.get (F.SPK_PAIR_ilk u) = s.get (F.SPK_PAIR_ilk u) :=
    h.get_of_zero (spkMask_at stopBits (a := 0x50030) (u := u) rfl hu (by decide) (by decide))
  rw [State.interlocked, hilk, h.isDiff, State.interlocked]

theorem State.Alters.short (hu : u < 48) (hp : p < 8) : t.on (F.SPK_PAD_short u p) = s.on (F.SPK_PAD_short u p) := by
  have hzero : ∀ p < 8, stopBits (0x80 + 4 * p) = 0 := by decide
  have hmask : spkMask stopBits (F.SPK_PAD_short u p).off = 0 := by
    rw [spkMask_at stopBits (a := 0x50080 + 4 * p) (u := u) (by simp only [F.SPK_PAD_short, R.SPK_PAD]; omega) hu (by omega) (by omega)]
    rw [show 0x50080 + 4 * p - 0x50000 = 0x80 + 4 * p by omega]
    exact hzero p hp
  exact congrArg (· != 0) (h.get_of_zero hmask)

theorem State.Alters.free (hu : u < 48) (hp : p < 8) (hs : s.Free u p) : t.Free u p :=
  ⟨(congrArg (· != 0) (h.pincfg hu hp (lo := 0) (by decide))).trans hs.out, (h.isDiff _).trans hs.single, (h.interlocked hu _).trans hs.alone,
    (h.short hu hp).trans hs.sound, (congrArg (· != 0) (h.page (bank_page 0x90800 _ _ (by decide)))).trans hs.supplied⟩

end

section

variable {s : State} {u p : Nat}

/-! What each operation on another pad leaves. -/

theorem State.setPad_pad (v : Pad) (h : s.on (F.BANK_CFG_vio_ok (u / 6)) = true) : (s.setPad u p v).pad u p = v := by
  unfold State.setPad State.pad
  simp only [h, if_true]
  split <;> simp

theorem State.setPad_pad_ne {o : Nat} (v : Pad) (h : p ≠ o) : (s.setPad u o v).pad u p = s.pad u p := by
  unfold State.setPad State.pad
  dsimp only
  split <;> simp [SMap.get_set_ne _ _ _ _ _ h]

theorem State.setPadAt_pad (k v : Nat) : (s.setPadAt u k v).pad u p = s.pad u p := by simp [State.pad, State.setPadAt]

theorem State.setDelay_pad (k v : Nat) : (s.setDelay u k v).pad u p = s.pad u p := by simp [State.pad, State.setDelay]

theorem State.ilkAct_pad (q : Nat) : (s.ilkAct u q).pad u p = s.pad u p := by
  rw [State.pad, State.ilkAct, State.spkU_congr (State.raiseLim_spk _ _ _ _ _), State.sat, State.put_spkU, State.pad]

theorem State.pinOff_pad_ne {o : Nat} (slot : Nat) (h : p ≠ o) : (s.pinOff u o slot).pad u p = s.pad u p := by
  unfold State.pinOff
  dsimp only
  split
  · rw [State.setPadAt_pad, State.setPad_pad_ne _ h]
  · exact State.setPad_pad_ne _ h

theorem State.pinOff_pad (slot : Nat) (h : s.on (F.BANK_CFG_vio_ok (u / 6)) = true) : (s.pinOff u p slot).pad u p = s.padFor u p false := by
  unfold State.pinOff
  dsimp only
  split
  · rw [State.setPadAt_pad, State.setPad_pad _ h]
  · exact State.setPad_pad _ h

/-- A pin without an interlocked partner is driven active at once. -/
theorem State.pinOn_pad (slot : Nat) (both : Bool) (h : s.Free u p) : (s.pinOn u p slot both).pad u p = s.padFor u p true := by
  unfold State.pinOn
  dsimp only
  split
  · next ha =>
    have hlevel := eq_of_beq ha
    rw [hlevel, State.padFor]
    cases s.on (F.SPK_PINCFG_pol u (p / 4) (p % 4)) <;> rfl
  · rw [if_pos (by rw [h.alone]; rfl), State.setPadAt_pad, State.setPad_pad _ h.supplied]

/-- Driving a pin touches its own pair only, and only itself where the pair does not interlock. -/
theorem State.pinOn_pad_ne {o : Nat} (slot : Nat) (both : Bool) (h : p ≠ o) (hs : s.Free u p) : (s.pinOn u o slot both).pad u p = s.pad u p := by
  have hset (t : State) (v : Pad) (k a : Nat) : ((t.setPad u o v).setPadAt u k a).pad u p = t.pad u p := by
    rw [State.setPadAt_pad, State.setPad_pad_ne _ h]
  unfold State.pinOn
  dsimp only
  by_cases hpair : o / 2 = p / 2
  · rw [if_pos (by rw [hpair, hs.alone]; rfl : (! s.interlocked u (o / 2)) = true)]
    split
    · rfl
    · exact hset _ _ _ _
  · have hother : p ≠ (if o % 2 = 0 then o + 1 else o - 1) := by split <;> omega
    generalize (if o % 2 = 0 then o + 1 else o - 1) = b at hother
    (repeat' split) <;> simp only [State.ilkAct_pad, State.setDelay_pad, State.pinOff_pad_ne _ h, State.pinOff_pad_ne _ hother, hset]

theorem State.drivePair_pad_ne {q : Nat} (level : Bool) (h : p / 2 ≠ q) : (s.drivePair u q level).pad u p = s.pad u p := by
  unfold State.drivePair
  dsimp only
  rw [State.setPad_pad_ne _ (by omega), State.setPad_pad_ne _ (by omega)]

theorem State.drivePair_pads {q : Nat} (level : Bool) (hu : u < 48) (hq : q < 4) : s.Pads (s.drivePair u q level) :=
  (s.setPad_pads hu _ (by omega)).trans (State.setPad_pads _ hu _ (by omega))

theorem State.edgePin_pads (mask levels slot : Nat) (active : Bool) (hu : u < 48) (hp : p < 8) : s.Pads (s.edgePin u mask levels slot p active) := by
  unfold State.edgePin
  dsimp only
  refine .ite (fun _ => .refl _ _ _) fun _ => .ite (fun _ => .ite (fun _ => State.drivePair_pads _ hu (by omega)) (fun _ => .refl _ _ _)) fun _ =>
    .ite (fun _ => .refl _ _ _) fun _ => .ite (fun _ => s.pinOn_pads hu _ _ hp) (fun _ => s.pinOff_pads hu _ hp)

theorem State.edgePin_pad_ne {o : Nat} (mask levels slot : Nat) (active : Bool) (h : o ≠ p) (hs : s.Free u p) :
    (s.edgePin u mask levels slot o active).pad u p = s.pad u p := by
  unfold State.edgePin
  dsimp only
  split
  · rfl
  · split
    · next hd =>
      have hpair : p / 2 ≠ o / 2 := fun he => by rw [← he, hs.single] at hd; cases hd
      split
      · exact State.drivePair_pad_ne _ hpair
      · rfl
    · generalize (if o % 2 = 0 then o + 1 else o - 1) = b
      (repeat' split)
      · rfl
      · exact State.pinOn_pad_ne _ _ (Ne.symm h) hs
      · exact State.pinOff_pad_ne _ (Ne.symm h)

/-- The turn of a pin that the entry's mask names: it acts in the pass of its own level. -/
theorem State.edgePin_own (mask levels slot : Nat) (active : Bool) (hm : bitOf mask p = true) (hs : s.Free u p) :
    (s.edgePin u mask levels slot p active).pad u p = if s.edgeActive u levels p = active then s.padFor u p active else s.pad u p := by
  unfold State.edgePin
  dsimp only
  have hdrives : s.edgeDrives u mask p = true := by simp [State.edgeDrives, hm, hs.out, hs.sound, hs.single]
  rw [if_neg (by simp [hdrives]), if_neg (by simp [hs.single])]
  by_cases ha : s.edgeActive u levels p = active
  · rw [if_neg (by simp [ha]), if_pos ha]
    cases active
    · exact State.pinOff_pad _ hs.supplied
    · exact State.pinOn_pad _ _ hs
  · rw [if_pos (by simpa using ha), if_neg ha]

end

/-! ## What fires -/

section

variable {u : Nat} (hu : u < 48)

include hu

theorem State.edgePins_pads (mask levels slot : Nat) (active : Bool) (s : State) :
    s.Pads ((List.range 8).foldl (fun s p => s.edgePin u mask levels slot p active) s) :=
  .foldl (fun _ _ hp => State.edgePin_pads mask levels slot active hu (List.mem_range.mp hp)) s

/-- EDGE drives each free output in its mask to its level. -/
theorem State.edgeFire_pad {s : State} (mask levels slot : Nat) {p : Nat} (hp : p < 8) (hm : bitOf mask p = true) (hs : s.Free u p) :
    (s.edgeFire u mask levels slot).pad u p = if bitOf levels p then .high else .low := by
  have hmem : p ∈ List.range 8 := List.mem_range.mpr hp
  let I (pol : Bool) (t : State) : Prop := t.Free u p ∧ t.on (F.SPK_PINCFG_pol u (p / 4) (p % 4)) = pol
  have hI {t v : State} {pol : Bool} (h : t.Pads v) (ht : I pol t) : I pol v :=
    ⟨h.stops.free hu hp ht.1, (h.stops.pol hu hp).trans ht.2⟩
  have hturn (pol active : Bool) (t : State) (a : Nat) (ha : a ∈ List.range 8) (ht : I pol t) : I pol (t.edgePin u mask levels slot a active) :=
    hI (State.edgePin_pads mask levels slot active hu (List.mem_range.mp ha)) ht
  have hother (pol active : Bool) (t : State) (a : Nat) (_ : a ∈ List.range 8) (hne : a ≠ p) (ht : I pol t) :
      (t.edgePin u mask levels slot a active).pad u p = t.pad u p := State.edgePin_pad_ne mask levels slot active hne ht.1
  have hact {pol : Bool} {t : State} (ht : I pol t) : t.edgeActive u levels p = (bitOf levels p != pol) := by rw [State.edgeActive, ht.2]
  have hdue : I (s.on (F.SPK_PINCFG_pol u (p / 4) (p % 4))) (s.padsDue u slot) := hI (s.padsDue_pads hu slot) ⟨hs, rfl⟩
  generalize hpol : s.on (F.SPK_PINCFG_pol u (p / 4) (p % 4)) = pol at hdue
  unfold State.edgeFire
  dsimp only
  rw [State.pad, State.put_spkU, ← State.pad]
  generalize s.padsDue u slot = t at hdue ⊢
  have hoff := hI (State.edgePins_pads hu mask levels slot false t) hdue
  cases ha : (bitOf levels p != pol)
  · have hlow : ((List.range 8).foldl (fun s p => s.edgePin u mask levels slot p false) t).pad u p = if false != pol then .high else .low :=
      foldl_sets (fun t => t.pad u p) hmem List.nodup_range (hturn pol false)
        (fun t ht => by rw [State.edgePin_own _ _ _ _ hm ht.1, hact ht, ha, if_pos rfl, State.padFor, ht.2]) (hother pol false) t hdue
    have hkeep := foldl_keeps_of_inv (fun t => t.pad u p) (f := fun s p => s.edgePin u mask levels slot p true) (hturn pol true) (fun t a hmem ht => by
      by_cases hap : a = p
      · rw [hap, State.edgePin_own _ _ _ _ hm ht.1, hact ht, ha, if_neg Bool.false_ne_true]
      · exact hother pol true t a hmem hap ht) _ hoff
    refine (hkeep.trans hlow).trans ?_
    rw [bne_eq_false_iff_eq.mp ha]
    cases pol <;> rfl
  · refine (foldl_sets (fun t => t.pad u p) (v := if true != pol then Pad.high else Pad.low) hmem List.nodup_range (hturn pol true) (fun t ht => ?_)
      (hother pol true) _ hoff).trans ?_
    · rw [State.edgePin_own _ _ _ _ hm ht.1, hact ht, ha, if_pos rfl, State.padFor, ht.2]
    · have hne : bitOf levels p = !pol := by
        revert ha
        cases bitOf levels p <;> cases pol <;> decide
      rw [hne]
      cases pol <;> rfl

theorem State.edgeFire_unit (s : State) (mask levels slot : Nat) : ((s.edgeFire u mask levels slot).spkU u).sansPads = (s.spkU u).sansPads := by
  have hall := ((s.padsDue_pads hu slot).trans (State.edgePins_pads hu mask levels slot false _)).trans (State.edgePins_pads hu mask levels slot true _)
  exact congrFun (congrArg Prod.snd hall.part) u

end

/-! ## The head of the queue -/

/-- The head taken from the queue of a unit and counted as fired. -/
def State.headFired (s : State) (u : Nat) : State :=
  let s := s.takeHead u true
  s.setSpk u { s.spkU u with firedNow := (s.spkU u).firedNow + 1 }

theorem State.headFired_unit (s : State) (u : Nat) : (s.headFired u).spkU u =
    { s.spkU u with queue := (s.spkU u).queue.tail, fired := (s.spkU u).fired + 1, lateAt := none, firedNow := (s.spkU u).firedNow + 1 } := by
  unfold State.headFired State.takeHead
  dsimp only
  rw [State.spkU_setSpk, State.spkSync_spkU, State.put_spkU, State.spkU_setSpk]
  rfl

/-- The state without events and units. -/
def State.sansUnits (s : State) : State := { s.sansEvent.1 with spk := [] }

theorem State.of_sansUnits {β : Type} {s t : State} (h : t.sansUnits = s.sansUnits) (q : State → β) (hq : ∀ x, q x.sansUnits = q x) : q t = q s := by
  rw [← hq t, h, hq s]

theorem stopBits_sansUnits : Eventful (spkMask stopBits) State.sansUnits := by
  refine ⟨fun off h => ?_, fun u => rfl⟩
  rw [spkMask, if_pos h]

theorem State.headFired_alters (s : State) {u : Nat} (hu : u < 48) : s.Alters (spkMask stopBits) State.sansUnits (s.headFired u) := by
  have hset (t : State) (k : Spk) : t.Alters (spkMask stopBits) State.sansUnits (t.setSpk u k) := .of_same rfl rfl rfl
  have hfield {f : RF} {a : Nat} (t : State) (v : Nat) (ho : f.off = a + 0x1000 * u) (ha : 0x50000 ≤ a) (hb : a < 0x51000)
      (hf : f.mask &&& ~~~ stopBits (a - 0x50000) = 0) : t.Alters (spkMask stopBits) State.sansUnits (t.put f v) :=
    .field stopBits_sansUnits v (by rw [spkMask_at stopBits ho hu ha hb]; exact hf)
  have hword : (⟨0, 0, 32⟩ : RF).mask &&& ~~~ BitVec.allOnes 32 = 0 := by decide
  have hfill : (⟨0, 0, 7⟩ : RF).mask &&& ~~~ (0x1FF : Word) = 0 := by decide
  have harm : (⟨0, 7, 1⟩ : RF).mask &&& ~~~ (0x1FF : Word) = 0 := by decide
  have hocc (t : State) (v : Nat) := hfield (f := F.SPK_STS_occ u) (a := 0x50004) t v rfl (by decide) (by decide) hfill
  have harmed (t : State) (v : Nat) := hfield (f := F.SPK_STS_armed u) (a := 0x50004) t v rfl (by decide) (by decide) harm
  have hlo (t : State) (v : Nat) := hfield (f := F.SPK_HEAD_LO_entry u) (a := 0x50010) t v rfl (by decide) (by decide) hword
  have hhi (t : State) (v : Nat) := hfield (f := F.SPK_HEAD_HI_entry u) (a := 0x50014) t v rfl (by decide) (by decide) hword
  exact ((((hset _ _).trans (harmed _ _)).trans (((hocc _ _).trans (hlo _ _)).trans (hhi _ _)))).trans (hset _ _)

section

variable {u : Fin 48} {dt : Fin 4000} {e : BitVec 64} {s : State}

/-- The instant of an armed head comes: its estimate has reached its stamp in its direction, or its late slot has come. -/
def State.Due (s : State) (u dt : Nat) (e : BitVec 64) : Prop :=
  (∃ slot, (s.spkU u).lateAt = some slot ∧ slot * 125 ≤ s.updates * 4000 + dt) ∨
    ((s.spkU u).lateAt = none ∧ s.aheadFine (s.get (F.SPK_CTL_track u)) dt (entryStamp e) (entryDir e) ≤ 0 ∧
      -(2 ^ 38 * 16384000) < s.aheadFine (s.get (F.SPK_CTL_track u)) dt (entryStamp e) (entryDir e) ∧
      s.movingDir (s.get (F.SPK_CTL_track u)) (entryDir e) = true)

theorem State.Due.fireAt (h : s.Due u dt e) : ∃ x, s.fireAt u dt e = some x := by
  unfold State.fireAt
  rcases h with ⟨slot, hl, hs⟩ | ⟨hl, hle, hlt, hdir⟩ <;> simp only [hl]
  · rw [if_pos hs]
    exact ⟨_, rfl⟩
  · rw [if_neg (by simp only [Int.not_lt.mpr hle, Int.not_le.mpr hlt, hdir]; simp)]
    exact ⟨_, rfl⟩

/-- The last entry of a queue fires by its kind, and nothing is armed after it. -/
theorem State.headInstant_fires (hq : (s.spkU u).queue = [e]) (ha : s.spkArmable u = true) (harm : s.get (F.SPK_STS_armed u) = 1)
    (hf : (s.spkU u).firedNow < 4) (hdue : s.Due u dt e) :
    ∃ slot at_, s.headInstant u (entryKind e) dt = ((s.headFired u).fireEntry u slot e).armHead 65 u at_ := by
  obtain ⟨⟨slot, at_⟩, hx⟩ := hdue.fireAt
  refine ⟨slot, at_, ?_⟩
  unfold State.headInstant
  dsimp only
  rw [State.armHead_armed harm]
  simp only [hq, ha, State.on_of_one harm, hx, Nat.not_le.mpr hf, ne_eq, not_true_eq_false, Bool.not_true, Bool.false_eq_true, or_self, if_false]
  rfl

theorem State.adcTrigEntry_started {c : Nat} (mux : BitVec 2) (slot : Nat) (he : s.get (F.ADC_CTL_enable c) = 1) (hu : s.get (F.ADC_CTL_unit c) < 48)
    (hh : s.get (F.ADC_STS_held c) = 0) (hn : (s.adcC c).held = none) (ho : (s.adcC c).out = true) :
    (s.adcTrigEntry c mux slot).get (F.ADC_STS_busy c) = 1 ∧
      (s.get (F.ADC_STS_busy c) = 0 → ((s.adcTrigEntry c mux slot).adcC c).mux = mux) ∧
      (s.get (F.ADC_STS_busy c) = 1 → (s.adcTrigEntry c mux slot).get (F.ADC_STS_pend c) = 1 ∧
        ((s.adcTrigEntry c mux slot).adcC c).held = some mux) := by
  have hon : s.adcOn c = true := by simp [State.adcOn, ho, State.on_of_one he, hu]
  have htrig : s.adcTrigEntry c mux slot = if ! s.on (F.ADC_STS_busy c) then s.adcStart c mux
      else (s.setAdc c { s.adcC c with held := some mux, heldSoc := none }).put (F.ADC_STS_pend c) 1 := by
    unfold State.adcTrigEntry State.adcTrigger
    simp [State.on_of_zero hh, hn, hon]
  rw [htrig]
  rcases s.get_bit (F.ADC_STS_busy c) rfl with hb | hb
  · rw [State.on_of_zero hb, hb]
    exact ⟨State.get_put_lit _ rfl, fun _ => by simp [State.adcStart], fun h => by cases h⟩
  · rw [State.on_of_one hb, hb]
    refine ⟨?_, fun h => (by cases h), fun _ => ⟨State.get_put_lit _ rfl, by simp⟩⟩
    exact (State.get_put_apart _ _ rfl).trans ((State.setAdc_get _ _ _ _).trans hb)

theorem State.adcTrigEntry_spkU (s : State) (c : Nat) (mux : BitVec 2) (slot v : Nat) : (s.adcTrigEntry c mux slot).spkU v = s.spkU v := by
  have hlost (t : State) : (t.trigLost c).spkU v = t.spkU v := by
    rw [State.trigLost, State.spkU_congr (State.raiseLim_spk _ _ _ _ _), State.sat, State.put_spkU]
  have hset (t : State) (a : Adc) : (t.setAdc c a).spkU v = t.spkU v := State.spkU_congr rfl v
  unfold State.adcTrigEntry State.adcTrigger State.adcStart
  dsimp only
  (repeat' split) <;> simp only [hlost, hset, State.put_spkU]

/-- The tick of an entry on a channel without a monitor and with place for it. -/
theorem State.tickFire_added (hl : (s.ticksOf u (entryArg0 e % 16)).length < 4) (hm : s.monActive u (entryArg0 e % 16) = false) :
    (s.tickFire u e).spkU u =
      { s.spkU u with
        ticks := SMap.set (fun _ => []) (s.spkU u).ticks (entryArg0 e % 16) (s.ticksOf u (entryArg0 e % 16) ++ [BitVec.ofNat 2 (entryArg0 e / 16)]) } := by
  unfold State.tickFire
  simp only [Nat.not_le.mpr hl, hm, Bool.false_eq_true, false_and, or_self, if_false]
  split
  · rw [State.setTicks, State.spkU_setSpk, State.offerOut_spkU, State.ticksOf, State.offerOut_spkU, State.ticksOf]
  · rw [State.setTicks, State.spkU_setSpk]

end

/-- Settles O24: the head is taken and counted, and its kind says what follows. -/
theorem armedEntriesFireByTheirKind : Obligations.ArmedEntriesFireByTheirKind := by
  intro u dt e s hq ha harm hf hdue
  obtain ⟨slot, at_, hrun⟩ := State.headInstant_fires hq ha harm hf hdue
  have hunit := s.headFired_unit u
  have hframe := s.headFired_alters u.isLt
  rw [hq] at hunit
  generalize s.headFired u = t at hrun hunit hframe
  have hempty {x : State} (h : (x.spkU u).queue = []) : x.armHead 65 u at_ = x := State.armHead_empty h _ _
  have hadc (c : Nat) : t.adcC c = s.adcC c := State.of_sansUnits hframe.part (fun x => x.adcC c) fun _ => rfl
  have hget {f : RF} (h : 0x80000 ≤ f.off) : t.get f = s.get f := hframe.page h
  refine ⟨fun hk => ?_, fun hk hl hm => ?_, fun hk he hun hh hn ho => ?_, fun hk => ?_⟩ <;> rw [hk] at hrun <;> simp only [State.fireEntry, hk] at hrun
  · have hpads := State.edgeFire_unit u.isLt t (entryArg0 e) (entryArg1 e) slot
    rw [hunit] at hpads
    rw [hempty (congrArg Spk.queue hpads)] at hrun
    refine ⟨_, congrArg Host.Outcome.next hrun, congrArg Spk.queue hpads, congrArg Spk.fired hpads, State.get_put_lit _ rfl, fun p hm ho hd hi hs hv => ?_⟩
    exact State.edgeFire_pad u.isLt _ _ _ p.isLt hm (hframe.free u.isLt p.isLt ⟨ho, hd, hi, hs, State.on_of_one hv⟩)
  · have hticks : t.ticksOf u (entryArg0 e % 16) = s.ticksOf u (entryArg0 e % 16) := by rw [State.ticksOf, hunit, State.ticksOf]
    have hmon : t.monActive u (entryArg0 e % 16) = false := (State.of_sansUnits hframe.part (fun x => x.monActive u (entryArg0 e % 16)) fun _ => rfl).trans hm
    have htick := State.tickFire_added (s := t) (u := u) (e := e) (by rw [hticks]; exact hl) hmon
    rw [hunit] at htick
    rw [hempty (congrArg Spk.queue htick)] at hrun
    refine ⟨_, congrArg Host.Outcome.next hrun, congrArg Spk.queue htick, congrArg Spk.fired htick, ?_⟩
    rw [State.ticksOf, htick, hticks]
    exact SMap.get_set_same _ _ _ _
  · have hspk := State.adcTrigEntry_spkU t (entryArg0 e % 8) (BitVec.ofNat 2 (entryArg0 e / 8)) slot u
    rw [hunit] at hspk
    rw [hempty (congrArg Spk.queue hspk)] at hrun
    have hctl {f : RF} {a : Nat} (h : f.off = a + 0x40 * (entryArg0 e % 8)) (hp : 0x80000 ≤ a) : t.get f = s.get f := hget (h ▸ Nat.le_add_right_of_le hp)
    have hbusy : t.get (F.ADC_STS_busy (entryArg0 e % 8)) = s.get (F.ADC_STS_busy (entryArg0 e % 8)) := hctl rfl (by decide)
    obtain ⟨hb, hmux, hheld⟩ := State.adcTrigEntry_started (s := t) (c := entryArg0 e % 8) (BitVec.ofNat 2 (entryArg0 e / 8)) slot
      ((hctl (f := F.ADC_CTL_enable _) rfl (by decide)).trans he) ((hctl (f := F.ADC_CTL_unit _) rfl (by decide)).symm ▸ hun)
      ((hctl (f := F.ADC_STS_held _) rfl (by decide)).trans hh) ((congrArg Adc.held (hadc _)).trans hn) ((congrArg Adc.out (hadc _)).trans ho)
    rw [hbusy] at hmux hheld
    exact ⟨_, congrArg Host.Outcome.next hrun, congrArg Spk.queue hspk, congrArg Spk.fired hspk, hb, hmux, hheld⟩
  · rw [hempty (congrArg Spk.queue hunit)] at hrun
    exact ⟨_, congrArg Host.Outcome.next hrun, congrArg Spk.queue hunit, congrArg Spk.fired hunit, (congrArg Spk.pads hunit).trans rfl,
      State.of_sansUnits hframe.part State.adc fun _ => rfl⟩

end Sys2Proof.Machine

end

section

/-! SUPPORT. R204 to R225: the tracks of Cadence. What is not of Cadence's page leaves it alone; an operation on one track leaves the others. -/

namespace Sys2Proof.Machine

@[simp] theorem State.trkT_setTrk (s : State) (t : Nat) (x : Trk) : (s.setTrk t x).trkT t = x := SMap.get_set_same _ _ _ _

theorem State.trkT_setTrk_ne (s : State) {t k : Nat} (x : Trk) (h : k ≠ t) : (s.setTrk t x).trkT k = s.trkT k := SMap.get_set_ne _ _ _ _ _ h

theorem State.trkT_congr {s t : State} (h : t.cad = s.cad) (k : Nat) : t.trkT k = s.trkT k := by simp only [State.trkT, h]

@[simp] theorem State.put_trkT (s : State) (f : RF) (v k : Nat) : (s.put f v).trkT k = s.trkT k := State.trkT_congr rfl k

@[simp] theorem State.putB_trkT (s : State) (f : RF) (v : Bool) (k : Nat) : (s.putB f v).trkT k = s.trkT k := State.trkT_congr rfl k

@[simp] theorem State.raise_trkT (s : State) (id param k : Nat) : (s.raise id param).trkT k = s.trkT k := State.trkT_congr (by simp) k

/-! ## Outside Cadence's page -/

/-- Every register outside Cadence's page. -/
def elsewhere (off : Nat) : Word := if 0x40000 ≤ off ∧ off < 0x50000 then 0 else BitVec.allOnes 32

theorem elsewhere_in {off : Nat} (h : 0x40000 ≤ off) (k : off < 0x50000) : elsewhere off = 0 := if_pos ⟨h, k⟩

theorem elsewhere_out {off : Nat} (h : off < 0x40000 ∨ 0x50000 ≤ off) : elsewhere off = BitVec.allOnes 32 := if_neg (by omega)

theorem elsewhere_eventful : Eventful elsewhere State.cad := by
  refine ⟨fun off h => elsewhere_out ?_, fun u => rfl⟩
  by_cases hp : 0x22000 ≤ off
  · rw [eventReg_of_page hp] at h
    cases h
  · omega

/-- Nothing of Cadence changed from one state to the other. -/
abbrev State.Elsewhere (s t : State) : Prop := s.Alters elsewhere State.cad t

theorem State.Elsewhere.trkT {s t : State} (h : s.Elsewhere t) (k : Nat) : t.trkT k = s.trkT k := State.trkT_congr h.part k

theorem State.Elsewhere.get {s t : State} (h : s.Elsewhere t) {f : RF} (hl : 0x40000 ≤ f.off) (hh : f.off < 0x50000) : t.get f = s.get f :=
  State.Alters.get_of_zero h (elsewhere_in hl hh)

theorem State.Alters.elsewhere {s t : State} (h : s.Stops t) : s.Elsewhere t := by
  refine h.mono (fun off i hi => ?_) fun a b hab => ?_
  · by_cases hp : 0x40000 ≤ off ∧ off < 0x50000
    · rw [spkMask_outside _ (eventReg_of_page (by omega)) (Or.inl hp.2)]
      exact BitVec.getLsbD_zero
    · by_cases h32 : i < 32
      · rw [elsewhere_out (by omega), BitVec.getLsbD_allOnes] at hi
        simp [h32] at hi
      · exact BitVec.getLsbD_of_ge _ _ (by omega)
  · exact congrArg (fun x : State × (Nat → Spk) => x.1.cad) hab

theorem State.trkSpokes_elsewhere (s : State) (t : Nat) : s.Elsewhere (s.trkSpokes t) :=
  State.Alters.elsewhere (.foldl (fun s _ hu => .ite (fun _ => s.spkStop_stops (List.mem_range.mp hu)) (fun _ => .refl _ _ _)) s)

/-! ## Fields of one track -/

theorem State.trkSpokes_get (s : State) (t : Nat) {f : RF} (hl : 0x40000 ≤ f.off) (hh : f.off < 0x50000) : (s.trkSpokes t).get f = s.get f :=
  (s.trkSpokes_elsewhere t).get hl hh

@[simp] theorem State.trkSpokes_trkT (s : State) (t k : Nat) : (s.trkSpokes t).trkT k = s.trkT k := (s.trkSpokes_elsewhere t).trkT k

@[simp] theorem State.trkShow_trkT (s : State) (t k : Nat) : (s.trkShow t).trkT k = s.trkT k := by
  unfold State.trkShow State.putS
  dsimp only
  simp only [State.put_trkT, State.putB_trkT]

@[simp] theorem State.setTrkState_trkT (s : State) (t v k : Nat) : (s.setTrkState t v).trkT k = s.trkT k := by
  simp only [State.setTrkState, State.putB_trkT, State.put_trkT]

section

variable (s : State) (t : Nat) {g : RF}

/-- What a track shows of itself are four fields (R210, R214). -/
theorem State.trkShow_get (ha : (F.CAD_TRK_ANG_angle t).apart g = true) (hr : (F.CAD_TRK_DREM_rem t).apart g = true)
    (hs : (F.CAD_TRK_STS_slewing t).apart g = true) (hb : (F.CAD_TRK_STS_bw_eff t).apart g = true) : (s.trkShow t).get g = s.get g := by
  unfold State.trkShow State.putS
  dsimp only
  rw [State.get_put_apart _ _ hb, State.get_putB_apart _ _ hs, State.get_put_apart _ _ hr, State.get_put_apart _ _ ha]

/-- A register of the track other than the angle, the remainder and the status. -/
theorem State.trkShow_reg {a : Nat} (hg : g.off = a + 0x80 * t) (ha : (0x40418 == a) = false) (hr : (0x40428 == a) = false) (hs : (0x4042C == a) = false) :
    (s.trkShow t).get g = s.get g :=
  s.trkShow_get t (apart_base rfl hg ha) (apart_base rfl hg hr) (apart_base rfl hg hs) (apart_base rfl hg hs)

theorem State.trkShow_sts (hg : g.off = R.CAD_TRK_STS t) (hs : (F.CAD_TRK_STS_slewing t).apart g = true) (hb : (F.CAD_TRK_STS_bw_eff t).apart g = true) :
    (s.trkShow t).get g = s.get g :=
  s.trkShow_get t (apart_base rfl hg rfl) (apart_base rfl hg rfl) hs hb

theorem State.trkShow_slewing : (s.trkShow t).get (F.CAD_TRK_STS_slewing t) = if (s.trkT t).rem ≠ 0 then 1 else 0 := by
  unfold State.trkShow
  dsimp only
  rw [State.get_put_apart _ _ rfl, State.get_putB _ _ rfl]
  by_cases h : (s.trkT t).rem = 0 <;> simp [h]

theorem cadSts_apart_trk (x : Nat) {a : Nat} (hg : g.off = a + 0x80 * t) (ha : 0x40004 < a) : (⟨R.CAD_STS, x, 1⟩ : RF).apart g = true := by
  have hne : g.off ≠ R.CAD_STS := by
    simp only [hg, R.CAD_STS]
    omega
  simp [RF.apart, hne]

theorem State.setTrkState_get {a : Nat} (v : Nat) (hg : g.off = a + 0x80 * t) (ha : 0x40004 < a) (h : (F.CAD_TRK_STS_state t).apart g = true) :
    (s.setTrkState t v).get g = s.get g := by
  unfold State.setTrkState
  rw [State.get_putB_apart _ _ (cadSts_apart_trk t _ hg ha), State.get_putB_apart _ _ (cadSts_apart_trk t _ hg ha), State.get_put_apart _ _ h]

theorem State.setTrkState_state {v : Nat} (hv : v < 8) : (s.setTrkState t v).trkState t = v := by
  unfold State.setTrkState State.trkState
  rw [State.get_putB_apart _ _ (cadSts_apart_trk t _ (a := 0x4042C) rfl (by decide)), State.get_putB_apart _ _ (cadSts_apart_trk t _ (a := 0x4042C) rfl (by decide)),
    State.get_put_lt _ rfl hv]

/-- The abort of a switch leaves the track but for its shadow. -/
theorem State.switchAbort_trkT : ((s.switchAbort t).trkT t).obs = (s.trkT t).obs ∧ ((s.switchAbort t).trkT t).slewDone = (s.trkT t).slewDone ∧
    ((s.switchAbort t).trkT t).rem = (s.trkT t).rem := by
  unfold State.switchAbort
  dsimp only
  split
  · exact ⟨rfl, rfl, rfl⟩
  · split <;> simp

theorem State.switchAbort_get (he : eventReg g.off = false) (hs : (F.CAD_TRK_STS_switching t).apart g = true) (hb : (F.CAD_TRK_SW_busy t).apart g = true)
    (hr : (F.CAD_TRK_SW_result t).apart g = true) : (s.switchAbort t).get g = s.get g := by
  unfold State.switchAbort
  dsimp only
  split
  · rfl
  · split
    · exact State.setTrk_get _ _ _ _
    · rw [State.raise_getKept _ _ _ he, State.get_put_apart _ _ hr, State.get_put_apart _ _ hb, State.get_put_apart _ _ hs, State.setTrk_get]

end

/-! ## Other tracks -/

/-- Every register outside the page of one track, but for the count of updates and the status of the PLL and the sources. -/
def besideTrk (k off : Nat) : Word :=
  if off = R.CAD_STS then 0xFFFFFF00
  else if (0x40400 + 0x80 * k ≤ off ∧ off < 0x40480 + 0x80 * k) ∨ off = R.CAD_UPD_LO ∨ off = R.CAD_UPD_HI then 0
  else BitVec.allOnes 32

/-- One track was left alone from one state to the other. -/
abbrev State.Leaves (k : Nat) (s t : State) : Prop := s.Alters (besideTrk k) (fun u => (u.cad.run, u.trkT k)) t

theorem besideTrk_own {k off a : Nat} (ho : off = a + 0x80 * k) (ha : 0x40400 ≤ a) (hb : a < 0x40480) : besideTrk k off = 0 := by
  rw [besideTrk, if_neg (by simp only [R.CAD_STS]; omega), if_pos (Or.inl (by omega))]

theorem besideTrk_other {k t off a : Nat} (ho : off = a + 0x80 * t) (ha : 0x40400 ≤ a) (hb : a < 0x40480) (h : t ≠ k) :
    besideTrk k off = BitVec.allOnes 32 := by
  rw [besideTrk, if_neg (by simp only [R.CAD_STS]; omega), if_neg (by simp only [R.CAD_UPD_LO, R.CAD_UPD_HI]; omega)]

theorem besideTrk_out {k off : Nat} (hk : k ≤ 8) (h : off < 0x40000 ∨ 0x50000 ≤ off) : besideTrk k off = BitVec.allOnes 32 := by
  rw [besideTrk, if_neg (by simp only [R.CAD_STS]; omega), if_neg (by simp only [R.CAD_UPD_LO, R.CAD_UPD_HI]; omega)]

theorem and_not_allOnes (m : Word) : m &&& ~~~ BitVec.allOnes 32 = 0 := by
  simp

theorem besideTrk_eventful {k : Nat} (hk : k ≤ 8) : Eventful (besideTrk k) (fun u => (u.cad.run, u.trkT k)) := by
  refine ⟨fun off h => besideTrk_out hk ?_, fun u => rfl⟩
  by_cases hp : 0x22000 ≤ off
  · rw [eventReg_of_page hp] at h
    cases h
  · omega

theorem State.Elsewhere.leaves {s t : State} {k : Nat} (hk : k ≤ 8) (h : s.Elsewhere t) : s.Leaves k t := by
  refine h.mono (fun off i hi => ?_) fun a b hab => ?_
  · by_cases hp : 0x40000 ≤ off ∧ off < 0x50000
    · rw [elsewhere_in hp.1 hp.2]
      exact BitVec.getLsbD_zero
    · rw [besideTrk_out hk (by omega)] at hi
      rw [elsewhere_out (by omega)]
      exact hi
  · exact Prod.ext (congrArg Cad.run hab) (State.trkT_congr hab k)

section

variable {k t : Nat} (s : State) (hk : k ≤ 8) (ht : t < 8) (h : t ≠ k)

theorem State.Leaves.own {s u : State} {f : RF} {a : Nat} (h : s.Leaves k u) (hf : f.off = a + 0x80 * k) (ha : 0x40400 ≤ a) (hb : a < 0x40480) :
    u.get f = s.get f := State.Alters.get_of_zero h (besideTrk_own hf ha hb)

theorem State.Leaves.state {s u : State} (h : s.Leaves k u) : u.trkState k = s.trkState k := h.own (a := 0x4042C) rfl (by decide) (by decide)

theorem State.Leaves.trkT {s u : State} (h : s.Leaves k u) : u.trkT k = s.trkT k := congrArg Prod.snd h.part

theorem State.Leaves.run {s u : State} (h : s.Leaves k u) : u.cad.run = s.cad.run := congrArg Prod.fst h.part

include h in
theorem State.trkField_leaves {f : RF} {a : Nat} (v : Nat) (hf : f.off = a + 0x80 * t) (ha : 0x40400 ≤ a) (hb : a < 0x40480) : s.Leaves k (s.put f v) :=
  .put v (by rw [besideTrk_other hf ha hb h, and_not_allOnes]) (by simp)

include h in
theorem State.setTrk_leaves (x : Trk) : s.Leaves k (s.setTrk t x) :=
  .of_same rfl rfl (Prod.ext rfl (State.trkT_setTrk_ne s x h.symm))

include h in
theorem State.trkShow_leaves : s.Leaves k (s.trkShow t) := by
  have hput {f : RF} {a : Nat} (u : State) (v : Nat) (hf : f.off = a + 0x80 * t) (ha : 0x40400 ≤ a) (hb : a < 0x40480) : u.Leaves k (u.put f v) :=
    u.trkField_leaves h v hf ha hb
  have hang (u : State) (v : Nat) := hput (f := F.CAD_TRK_ANG_angle t) (a := 0x40418) u v rfl (by decide) (by decide)
  have hrem (u : State) (v : Nat) := hput (f := F.CAD_TRK_DREM_rem t) (a := 0x40428) u v rfl (by decide) (by decide)
  have hslew (u : State) (v : Nat) := hput (f := F.CAD_TRK_STS_slewing t) (a := 0x4042C) u v rfl (by decide) (by decide)
  have hbw (u : State) (v : Nat) := hput (f := F.CAD_TRK_STS_bw_eff t) (a := 0x4042C) u v rfl (by decide) (by decide)
  exact (((hang _ _).trans (hrem _ _)).trans (hslew _ _)).trans (hbw _ _)

include h ht in
theorem State.setTrkState_leaves (v : Nat) : s.Leaves k (s.setTrkState t v) := by
  have hbits : ∀ t < 8, (⟨R.CAD_STS, 8 + t, 1⟩ : RF).mask &&& ~~~ (0xFFFFFF00 : Word) = 0 ∧ (⟨R.CAD_STS, 16 + t, 1⟩ : RF).mask &&& ~~~ (0xFFFFFF00 : Word) = 0 := by
    decide
  have hsts : besideTrk k R.CAD_STS = 0xFFFFFF00 := if_pos rfl
  obtain ⟨h8, h16⟩ := hbits t ht
  refine .trans (.trans (s.trkField_leaves h (f := F.CAD_TRK_STS_state t) (a := 0x4042C) v rfl (by decide) (by decide)) (.put _ ?_ (by simp))) (.put _ ?_ (by simp))
  · rw [hsts]
    exact h8
  · rw [hsts]
    exact h16

include h hk in
theorem State.switchAbort_leaves : s.Leaves k (s.switchAbort t) := by
  have hsw (u : State) (v : Nat) := u.trkField_leaves h (f := F.CAD_TRK_STS_switching t) (a := 0x4042C) v rfl (by decide) (by decide)
  have hbusy (u : State) (v : Nat) := u.trkField_leaves h (f := F.CAD_TRK_SW_busy t) (a := 0x40434) v rfl (by decide) (by decide)
  have hres (u : State) (v : Nat) := u.trkField_leaves h (f := F.CAD_TRK_SW_result t) (a := 0x40434) v rfl (by decide) (by decide)
  unfold State.switchAbort
  dsimp only
  refine .ite (fun _ => .refl _ _ _) fun _ => .ite (fun _ => State.setTrk_leaves s h _) fun _ => ?_
  exact ((((State.setTrk_leaves s h _).trans (hsw _ _)).trans (hbusy _ _)).trans (hres _ _)).trans (.raise (besideTrk_eventful hk) _ _)

include hk in
theorem State.trkSpokes_leaves (t : Nat) : s.Leaves k (s.trkSpokes t) := State.Elsewhere.leaves hk (s.trkSpokes_elsewhere t)

include h hk ht in
theorem State.trkHalt_leaves (cause : Nat) : s.Leaves k (s.trkHalt t cause) := by
  have hcause (u : State) (v : Nat) := u.trkField_leaves h (f := F.CAD_TRK_STS_halt_cause t) (a := 0x4042C) v rfl (by decide) (by decide)
  exact (((((s.setTrkState_leaves ht h 4).trans (hcause _ _)).trans (State.switchAbort_leaves _ hk h)).trans (.raise (besideTrk_eventful hk) _ _)).trans
    (State.trkSpokes_leaves _ hk t)).trans (State.trkShow_leaves _ h)

end

/-! ## A halt -/

section

variable (s : State) {t : Nat} (ht : t < 8)

include ht

theorem trk_page {a : Nat} (hb : a ≤ 0x40480) : a + 0x80 * t < 0x50000 := by omega

theorem trk_event {a off : Nat} (ho : off = a + 0x80 * t) (ha : 0x40000 ≤ a) : eventReg off = false := by
  have _ := ht
  exact eventReg_of_page (by omega)

/-- A track that halts is in HALT with its cause, and event 0x0503 names it (R218). -/
theorem State.trkHalt_spec {cause : Nat} (hc : cause < 16) :
    (s.trkHalt t cause).trkState t = 4 ∧ (s.trkHalt t cause).get (F.CAD_TRK_STS_halt_cause t) = cause ∧ (s.trkHalt t cause).logged 0x0503 t := by
  have hev : eventReg (R.CAD_TRK_STS t) = false := trk_event ht (a := 0x4042C) rfl (by decide)
  have hsts {u : State} {g : RF} (hg : g.off = R.CAD_TRK_STS t) (h3 : (F.CAD_TRK_STS_slewing t).apart g = true) (h4 : (F.CAD_TRK_STS_bw_eff t).apart g = true)
      (h5 : (F.CAD_TRK_STS_switching t).apart g = true) : ((((u.switchAbort t).raise 0x0503 t).trkSpokes t).trkShow t).get g = u.get g := by
    rw [State.trkShow_sts _ _ hg h3 h4, State.trkSpokes_get _ _ (hg ▸ Nat.le_add_right_of_le (by decide)) (hg ▸ trk_page ht (by decide)),
      State.raise_getKept _ _ _ (hg ▸ hev), State.switchAbort_get _ _ (hg ▸ hev) h5 (apart_base rfl hg rfl) (apart_base rfl hg rfl)]
  refine ⟨?_, ?_, ?_⟩
  · have hstate := hsts (u := (s.setTrkState t 4).put (F.CAD_TRK_STS_halt_cause t) cause) (g := F.CAD_TRK_STS_state t) rfl rfl rfl rfl
    exact hstate.trans ((State.get_put_apart _ _ rfl).trans (s.setTrkState_state t (by decide)))
  · have hcause := hsts (u := (s.setTrkState t 4).put (F.CAD_TRK_STS_halt_cause t) cause) (g := F.CAD_TRK_STS_halt_cause t) rfl rfl rfl rfl
    exact hcause.trans (State.get_put_lt _ rfl hc)
  · have hlog (u : State) : u.Leaves 8 ((u.trkSpokes t).trkShow t) := (u.trkSpokes_leaves (Nat.le_refl _) t).trans (State.trkShow_leaves _ (by omega))
    exact State.Alters.logged (hlog _) (State.raise_logged _ _ _)

end

theorem State.trkRuns_congr {s u : State} {k : Nat} (h : u.trkState k = s.trkState k) : u.trkRuns k = s.trkRuns k := by simp only [State.trkRuns, h]

end Sys2Proof.Machine

end

section

/-! SUPPORT. O20: what takes a track from state to state (Tables 07.3 to 07.5). -/

namespace Sys2Proof.Machine

section

variable (s : State) {t : Nat}

theorem State.trkStart_spec (h : s.trkState t = 0) (hr : s.cad.run = true) :
    (s.trkStart t).trkState t = 1 ∧ (s.trkStart t).get (F.CAD_TRK_CTL_enable t) = 1 ∧
      ∀ g : RF, g.off = R.CAD_TRK_CTL t → (F.CAD_TRK_CTL_enable t).apart g = true → (s.trkStart t).get g = s.get g := by
  have hctl {u : State} {x : Trk} {g : RF} (hg : g.off = R.CAD_TRK_CTL t) : (((u.setTrk t x).setTrkState t 1).trkShow t).get g = u.get g := by
    rw [State.trkShow_reg _ _ (a := 0x40400) hg rfl rfl rfl, State.setTrkState_get _ _ (a := 0x40400) _ hg (by decide) (apart_base rfl hg rfl), State.setTrk_get]
  unfold State.trkStart
  rw [if_neg (by simp [h, hr])]
  dsimp only
  refine ⟨?_, ?_, fun g hg ha => ?_⟩
  · exact (State.trkShow_sts _ _ (g := F.CAD_TRK_STS_state t) rfl rfl rfl).trans (State.setTrkState_state _ t (by decide))
  · rw [hctl (g := F.CAD_TRK_CTL_enable t) rfl, State.get_put_lit _ rfl]
  · rw [hctl hg, State.get_put_apart _ _ ha]

/-- A track that is off stays off. -/
theorem State.trkOff_spec (ht : t < 8) : (s.trkOff t).trkState t = 0 ∧
    ∀ g : RF, g.off = R.CAD_TRK_CTL t → (s.trkOff t).get g = s.get g := by
  unfold State.trkOff
  split
  · next h => exact ⟨h, fun _ _ => rfl⟩
  · dsimp only
    refine ⟨?_, fun g hg => ?_⟩
    · have hreg {u : State} {f : RF} {a : Nat} (v : Nat) (hf : f.off = a + 0x80 * t) (ha : (a == 0x4042C) = false) :
          (u.put f v).get (F.CAD_TRK_STS_state t) = u.get (F.CAD_TRK_STS_state t) := State.get_put_apart _ _ (apart_base hf rfl ha)
      refine (State.trkShow_sts _ _ (g := F.CAD_TRK_STS_state t) rfl rfl rfl).trans ?_
      rw [State.trkSpokes_get _ _ (Nat.le_add_right_of_le (by decide)) (trk_page ht (a := 0x4042C) (by decide)), hreg (f := F.CAD_TRK_ERR_err t) (a := 0x40424) _ rfl rfl,
        hreg (f := F.CAD_TRK_VEL_vel t) (a := 0x40420) _ rfl rfl, hreg (f := F.CAD_TRK_TURN_turn t) (a := 0x4041C) _ rfl rfl, State.setTrk_get]
      exact State.setTrkState_state _ t (by decide)
    · have hp : 0x40000 ≤ g.off := hg ▸ Nat.le_add_right_of_le (by decide)
      have hreg {u : State} {f : RF} {a : Nat} (v : Nat) (hf : f.off = a + 0x80 * t) (ha : (a == 0x40400) = false) : (u.put f v).get g = u.get g :=
        State.get_put_apart _ _ (apart_base hf hg ha)
      rw [State.trkShow_reg _ _ (a := 0x40400) hg rfl rfl rfl, State.trkSpokes_get _ _ hp (hg ▸ trk_page ht (a := 0x40400) (by decide)),
        hreg (f := F.CAD_TRK_ERR_err t) (a := 0x40424) _ rfl rfl, hreg (f := F.CAD_TRK_VEL_vel t) (a := 0x40420) _ rfl rfl,
        hreg (f := F.CAD_TRK_TURN_turn t) (a := 0x4041C) _ rfl rfl, State.setTrk_get,
        State.setTrkState_get _ _ (a := 0x40400) _ hg (by decide) (apart_base rfl hg rfl),
        State.switchAbort_get _ _ (trk_event ht (a := 0x40400) hg (by decide)) (apart_base rfl hg rfl) (apart_base rfl hg rfl) (apart_base rfl hg rfl)]

end

theorem completes_trackEnable {k : Fin 8} {v : BitVec 32} {s : State} (ho : s.barOpen (R.CAD_TRK_CTL k) = true) (h0 : s.trkState k = 0) (hr : s.cad.run = true)
    (hv : v.getLsbD 10 = false) :
    Completes (.trackEnable k v) s (fun t => t.trkState k = 1 ∧ t.get (F.CAD_TRK_CTL_enable k) = 1 ∧
      t.get (F.CAD_TRK_CTL_src k) = v.toNat / 2 % 4 ∧ t.get (F.CAD_TRK_CTL_mul k) = v.toNat / 65536) := by
  have hb0 : (v ||| 1).getLsbD 0 = true := by rw [BitVec.getLsbD_or]; simp
  have hb10 : (v ||| 1).getLsbD 10 = false := by rw [BitVec.getLsbD_or, hv]; rfl
  have hsrc : (v ||| 1).toNat / 2 = v.toNat / 2 := by
    rw [BitVec.toNat_or, ← Nat.shiftRight_one, ← Nat.shiftRight_one, Nat.shiftRight_or_distrib]
    simp
  have hmul : (v ||| 1).toNat / 65536 = v.toNat / 65536 := by
    have h16 (n : Nat) : n / 65536 = n / 2 / 32768 := by omega
    rw [h16, hsrc, ← h16]
  have hlt : v.toNat / 65536 < 2 ^ 16 := by
    have := v.isLt
    omega
  refine completes_bar (u := s.trkCtlWrite k (v ||| 1)) rfl ho ?_
  unfold State.trkCtlWrite
  simp only [h0, hb0, hb10, hsrc, hmul, if_true, Bool.not_true, Bool.false_eq_true, if_false, false_and, Bool.not_false, and_true]
  generalize hw : ((((s.put (F.CAD_TRK_CTL_bw k) ((v ||| 1).toNat / 8)).putB (F.CAD_TRK_CTL_damp k) ((v ||| 1).getLsbD 7)).putB (F.CAD_TRK_CTL_lock_wait k)
    ((v ||| 1).getLsbD 8)).put (F.CAD_TRK_CTL_src k) (v.toNat / 2)).put (F.CAD_TRK_CTL_mul k) (v.toNat / 65536) = w
  have hwstate : w.trkState k = 0 := by
    have hap {u : State} {f : RF} (v : Nat) (hf : f.off = R.CAD_TRK_CTL k) : (u.put f v).get (F.CAD_TRK_STS_state k) = u.get (F.CAD_TRK_STS_state k) :=
      State.get_put_apart _ _ (apart_base hf rfl rfl)
    rw [State.trkState, ← hw, hap _ rfl, hap _ rfl, State.putB, State.putB, hap _ rfl, hap _ rfl, hap _ rfl]
    exact h0
  have hwrun : w.cad.run = true := by rw [← hw]; simpa [State.putB] using hr
  have hwsrc : w.get (F.CAD_TRK_CTL_src k) = v.toNat / 2 % 4 := by
    rw [← hw, State.get_put_apart _ _ rfl, State.get_put_self _ _ rfl]
    rfl
  have hwmul : w.get (F.CAD_TRK_CTL_mul k) = v.toNat / 65536 := by rw [← hw, State.get_put_lt _ rfl hlt]
  obtain ⟨hstate, hen, hkeep⟩ := w.trkStart_spec hwstate hwrun
  have hre : (if (v ||| 1).getLsbD 9 = true then (w.trkStart k).trkRearm k else w.trkStart k) = w.trkStart k := by
    split
    · unfold State.trkRearm
      rw [if_pos (Or.inl (by rw [hstate]; decide))]
    · rfl
  rw [hre]
  have hshow {g : RF} (hg : g.off = R.CAD_TRK_CTL k) : ((w.trkStart k).trkShow k).get g = (w.trkStart k).get g :=
    State.trkShow_reg _ _ (a := 0x40400) hg rfl rfl rfl
  exact ⟨(State.trkShow_sts _ _ (g := F.CAD_TRK_STS_state k) rfl rfl rfl).trans hstate, (hshow rfl).trans hen,
    ((hshow rfl).trans (hkeep (F.CAD_TRK_CTL_src k) rfl rfl)).trans hwsrc, ((hshow rfl).trans (hkeep (F.CAD_TRK_CTL_mul k) rfl rfl)).trans hwmul⟩

theorem completes_trackDisable {k : Fin 8} {s : State} (ho : s.barOpen (R.CAD_TRK_CTL k) = true) :
    Completes (.trackDisable k) s (fun t => t.trkState k = 0 ∧ t.get (F.CAD_TRK_CTL_enable k) = 0) := by
  obtain ⟨hstate, hkeep⟩ := (s.put (F.CAD_TRK_CTL_enable k) 0).trkOff_spec k.isLt
  exact completes_bar (u := (s.put (F.CAD_TRK_CTL_enable k) 0).trkOff k) rfl ho
    ⟨hstate, (hkeep (F.CAD_TRK_CTL_enable k) rfl).trans (State.get_put_lit _ rfl)⟩

theorem completes_acquireComplete {k : Fin 8} {s : State} (h : s.trkState k = 1) (hg : 16 ≤ (s.trkT k).obs.good) :
    Completes (.acquireComplete k) s (fun t => t.trkState k = 2) :=
  ⟨_, congrArg Host.Outcome.next (if_pos ⟨h, hg⟩),
    (State.trkShow_sts _ _ (g := F.CAD_TRK_STS_state k) rfl rfl rfl).trans (State.setTrkState_state _ k (by decide))⟩

theorem completes_trackHalt {k : Fin 8} {s : State} (ho : s.barOpen (R.CAD_TRK_CTL k) = true) (hr : s.trkRuns k = true) :
    Completes (.trackHalt k) s (fun t => t.trkState k = 4 ∧ t.get (F.CAD_TRK_STS_halt_cause k) = 4 ∧ t.logged 0x0503 k) := by
  refine completes_bar (u := s.trkHaltReq k) rfl ho ?_
  rw [State.trkHaltReq, if_pos hr]
  exact s.trkHalt_spec k.isLt (by decide)

/-- A halt of every track that runs, seen from one of them. -/
theorem trkHalts_spec {s : State} {k cause : Nat} (hk : k < 8) (hr : s.trkRuns k = true) (hc : cause < 16) :
    let t := (List.range 8).foldl (fun s t => if s.trkRuns t then s.trkHalt t cause else s) s
    t.trkState k = 4 ∧ t.get (F.CAD_TRK_STS_halt_cause k) = cause ∧ t.logged 0x0503 k := by
  obtain ⟨l₁, l₂, hl⟩ := List.append_of_mem (List.mem_range.mpr hk)
  have hnd : (l₁ ++ k :: l₂).Nodup := hl ▸ List.nodup_range
  obtain ⟨_, h₂, hd⟩ := List.nodup_append.mp hnd
  have hlt {a : Nat} (ha : a ∈ l₁ ++ k :: l₂) : a < 8 := List.mem_range.mp (hl ▸ ha)
  have hturn (u : State) (a : Nat) (ha : a < 8) (hne : a ≠ k) : u.Leaves k (if u.trkRuns a then u.trkHalt a cause else u) :=
    .ite (fun _ => u.trkHalt_leaves (by omega) ha hne cause) (fun _ => .refl _ _ _)
  have hbefore : s.Leaves k (l₁.foldl (fun s t => if s.trkRuns t then s.trkHalt t cause else s) s) :=
    .foldl (fun u a ha => hturn u a (hlt (by simp [ha])) (hd a ha k (by simp))) s
  rw [hl, List.foldl_append, List.foldl_cons]
  generalize l₁.foldl (fun s t => if s.trkRuns t then s.trkHalt t cause else s) s = a at hbefore ⊢
  rw [if_pos ((State.trkRuns_congr hbefore.state).trans hr)]
  obtain ⟨hstate, hcause, hlog⟩ := a.trkHalt_spec hk hc
  have hafter : (a.trkHalt k cause).Leaves k (l₂.foldl (fun s t => if s.trkRuns t then s.trkHalt t cause else s) (a.trkHalt k cause)) :=
    .foldl (fun u b hb => hturn u b (hlt (by simp [hb])) (fun he => (List.nodup_cons.mp h₂).1 (he ▸ hb))) _
  exact ⟨hafter.state.trans hstate, (hafter.own (f := F.CAD_TRK_STS_halt_cause k) (a := 0x4042C) rfl (by decide) (by decide)).trans hcause,
    State.Alters.logged hafter hlog⟩

theorem trkHalts_leaves (s : State) (cause : Nat) : s.Leaves 8 ((List.range 8).foldl (fun s t => if s.trkRuns t then s.trkHalt t cause else s) s) :=
  .foldl (fun u _ ha => .ite (fun _ => u.trkHalt_leaves (Nat.le_refl _) (List.mem_range.mp ha) (Nat.ne_of_lt (List.mem_range.mp ha)) cause)
    (fun _ => .refl _ _ _)) s

theorem completes_haltAll {s : State} (ho : s.barOpen R.CAD_CTL = true) : Completes .haltAll s (fun t => ∀ k : Fin 8, s.trkRuns k = true →
    t.trkState k = 4 ∧ t.get (F.CAD_TRK_STS_halt_cause k) = 4 ∧ t.logged 0x0503 k) :=
  completes_bar (u := (List.range 8).foldl (fun s t => if s.trkRuns t then s.trkHalt t 4 else s) s) rfl ho fun k hr => trkHalts_spec k.isLt hr (by decide)

theorem completes_pllLockLost (s : State) : Completes .pllLockLost s (fun t => t.get F.CAD_STS_pll_lock = 0 ∧ t.get F.CAD_STS_pll_lost = 1 ∧ t.loggedSome 0x0501 ∧
    ∀ k : Fin 8, s.trkRuns k = true → t.trkState k = 4 ∧ t.get (F.CAD_TRK_STS_halt_cause k) = 5) := by
  let u : State := ((s.put F.CAD_STS_pll_lock 0).put F.CAD_STS_pll_lost 1).raise 0x0501 0
  have hlock : u.get F.CAD_STS_pll_lock = 0 := by
    rw [State.raise_getKept _ _ _ rfl, State.get_put_apart _ _ rfl, State.get_put_lit _ rfl]
  have hlost : u.get F.CAD_STS_pll_lost = 1 := by rw [State.raise_getKept _ _ _ rfl, State.get_put_lit _ rfl]
  have hleaves := trkHalts_leaves u 5
  have hmask : besideTrk 8 R.CAD_STS &&& F.CAD_STS_pll_lock.mask = 0 ∧ besideTrk 8 R.CAD_STS &&& F.CAD_STS_pll_lost.mask = 0 := by decide
  refine ⟨_, rfl, (State.Alters.get hleaves (f := F.CAD_STS_pll_lock) hmask.1).trans hlock, (State.Alters.get hleaves (f := F.CAD_STS_pll_lost) hmask.2).trans hlost,
    ⟨0, State.Alters.logged hleaves (State.raise_logged _ _ _)⟩, fun k hr => ?_⟩
  have hstate : u.trkState k = s.trkState k := by
    have hev : eventReg (F.CAD_TRK_STS_state k).off = false := trk_event k.isLt (a := 0x4042C) rfl (by decide)
    have h0 : F.CAD_STS_pll_lock.apart (F.CAD_TRK_STS_state k) = true := cadSts_apart_trk k 0 (a := 0x4042C) rfl (by decide)
    have h1 : F.CAD_STS_pll_lost.apart (F.CAD_TRK_STS_state k) = true := cadSts_apart_trk k 1 (a := 0x4042C) rfl (by decide)
    exact (State.raise_getKept _ _ _ hev).trans ((State.get_put_apart _ _ h1).trans (State.get_put_apart _ _ h0))
  obtain ⟨h4, hcause, _⟩ := trkHalts_spec (s := u) (cause := 5) k.isLt ((State.trkRuns_congr hstate).trans hr) (by decide)
  exact ⟨h4, hcause⟩

theorem completes_pllLocked {s : State} (h : s.mode ≠ .supervise) (hc : s.mode ≠ .cold) :
    Completes .pllLocked s (fun t => t.get F.CAD_STS_pll_lock = 1 ∧ ∀ k : Fin 8, t.trkState k = s.trkState k) :=
  ⟨_, congrArg Host.Outcome.next (if_neg (by simp [h, hc])), State.get_put_lit _ rfl,
    fun k => State.get_put_apart _ _ (cadSts_apart_trk k _ (a := 0x4042C) rfl (by decide))⟩

theorem completes_coastLimit {k : Fin 8} {s : State} (h : s.trkState k = 3) :
    (max 1 (s.get (F.CAD_TRK_COAST_angle k)) * 4096 * 2 ^ 44 ≤ (s.trkT k).coastAng →
      Completes (.coastLimit k) s (fun t => t.trkState k = 4 ∧ t.get (F.CAD_TRK_STS_halt_cause k) = 1)) ∧
    ((s.trkT k).coastAng < max 1 (s.get (F.CAD_TRK_COAST_angle k)) * 4096 * 2 ^ 44 →
      max 1 (s.get (F.CAD_TRK_LIM_coast_time k)) * 2500 ≤ (s.trkT k).coastUpd →
      Completes (.coastLimit k) s (fun t => t.trkState k = 4 ∧ t.get (F.CAD_TRK_STS_halt_cause k) = 2)) := by
  have hhalt {c : Nat} (hc : s.coastCause k = c) (h0 : c ≠ 0) (h16 : c < 16) :
      Completes (.coastLimit k) s (fun t => t.trkState k = 4 ∧ t.get (F.CAD_TRK_STS_halt_cause k) = c) := by
    obtain ⟨hstate, hcause, _⟩ := s.trkHalt_spec k.isLt h16
    exact ⟨_, congrArg Host.Outcome.next (if_neg (by rw [hc]; exact h0)), by rw [hc]; exact ⟨hstate, hcause⟩⟩
  refine ⟨fun ha => hhalt ?_ (by decide) (by decide), fun ha ht => hhalt ?_ (by decide) (by decide)⟩
  · unfold State.coastCause
    rw [if_neg (by simp [h]), if_pos ha]
  · unfold State.coastCause
    rw [if_neg (by simp [h]), if_neg (Nat.not_le.mpr ha), if_pos ht]

theorem completes_trackRearm {k : Fin 8} {s : State} (ho : s.barOpen (R.CAD_TRK_CTL k) = true) (h : s.trkState k = 4)
    (hv : s.srcValid (s.get (F.CAD_TRK_CTL_src k)) = true) (hl : s.get F.CAD_STS_pll_lock = 1) (hr : s.cad.run = true) :
    Completes (.trackRearm k) s (fun t => t.trkState k = 1 ∧ (t.trkT k).rem = 0 ∧ t.get (F.CAD_TRK_STS_slewing k) = 0 ∧
      t.get (F.CAD_TRK_STS_halt_cause k) = 0) := by
  refine completes_bar (u := s.trkRearm k) rfl ho ?_
  unfold State.trkRearm
  dsimp only
  rw [if_neg (by simp [h, hv, hr, State.on_of_one hl])]
  refine ⟨?_, ?_, ?_, ?_⟩
  · exact (State.trkShow_sts _ _ (g := F.CAD_TRK_STS_state k) rfl rfl rfl).trans (State.setTrkState_state _ k (by decide))
  · simp
  · rw [State.trkShow_slewing]
    simp
  · rw [State.trkShow_sts _ _ rfl rfl rfl, State.setTrkState_get _ _ (a := 0x4042C) _ rfl (by decide) rfl, State.get_put_lit _ rfl]

theorem completes_trackRearm_invalid {k : Fin 8} {s : State} (ho : s.barOpen (R.CAD_TRK_CTL k) = true)
    (hv : s.srcValid (s.get (F.CAD_TRK_CTL_src k)) = false) : Completes (.trackRearm k) s (fun t => t = s) :=
  completes_bar (u := s.trkRearm k) rfl ho (if_pos (by simp [hv]))

/-- Settles O20, cause by cause. -/
theorem tracksChangeStateOnTheirCauses : Obligations.TracksChangeStateOnTheirCauses :=
  ⟨fun _ _ _ ho h0 hr hv => completes_trackEnable ho h0 hr hv, fun _ _ ho => completes_trackDisable ho, fun _ _ h hg => completes_acquireComplete h hg,
    fun _ _ ho hr => completes_trackHalt ho hr, fun _ ho => completes_haltAll ho, completes_pllLockLost, fun _ h hc => completes_pllLocked h hc,
    fun _ _ h => completes_coastLimit h, fun _ _ ho h hv hl hr => completes_trackRearm ho h hv hl hr,
    fun _ _ ho _ hv => completes_trackRearm_invalid ho hv⟩

end Sys2Proof.Machine

end

section

/-! SUPPORT. O21: corrections and switches of a track, and the update of all tracks (R204 to R225). -/

namespace Sys2Proof.Machine

/-! ## Corrections -/

section

variable {s : State} {t : Nat}

/-- A correction within the largest step leaves the remainder; one beyond it leaves what exceeds the step (R221). -/
theorem State.correct_tracking {d r : Int} (hst : s.trkState t = 2 ∨ s.trkState t = 3)
    (hr : r = (s.trkT t).rem + d - (if d < -(s.get (F.CAD_TRK_STEP_step_max t) : Int) then -(s.get (F.CAD_TRK_STEP_step_max t) : Int)
      else if (s.get (F.CAD_TRK_STEP_step_max t) : Int) < d then (s.get (F.CAD_TRK_STEP_step_max t) : Int) else d))
    (hlo : -(2 ^ 39) ≤ r) (hhi : r ≤ 2 ^ 39) :
    ∃ u, s.correct t d false = some u ∧ (u.trkT t).rem = r ∧ (u.trkT t).obs.theta = (s.trkT t).obs.theta + fine (BitVec.ofInt 64 d) ∧
      ∀ g : RF, g.off = R.CAD_TRK_OFS t → u.get g = s.get g := by
  unfold State.correct
  dsimp only
  rw [if_pos hst]
  simp only [Bool.false_eq_true, false_and, if_false, ← hr]
  rw [if_neg (by omega)]
  generalize (if d < -(s.get (F.CAD_TRK_STEP_step_max t) : Int) then -(s.get (F.CAD_TRK_STEP_step_max t) : Int)
    else if (s.get (F.CAD_TRK_STEP_step_max t) : Int) < d then (s.get (F.CAD_TRK_STEP_step_max t) : Int) else d) = step
  refine ⟨_, rfl, ?_, ?_, fun g hg => ?_⟩
  · rw [State.trkShow_trkT]
    split <;> simp
  · rw [State.trkShow_trkT]
    split <;> simp
  · rw [State.trkShow_reg _ _ (a := 0x40408) hg rfl rfl rfl]
    split
    · rw [State.get_put_apart _ _ (apart_base rfl hg rfl), State.setTrk_get]
    · rw [State.setTrk_get]

/-- What an adjustment leaves of a correction that was taken (R222). -/
theorem State.trkAdjust_taken {a : BitVec 32} {u : State} (hst : s.trkState t ≠ 0) (hr : s.cad.run = true) (hc : s.correct t a.toInt false = some u) :
    ((s.trkAdjust t a).trkT t).obs.theta = (u.trkT t).obs.theta ∧ ((s.trkAdjust t a).trkT t).rem = (u.trkT t).rem ∧
      (s.trkAdjust t a).get (F.CAD_TRK_STS_slewing t) = (if (u.trkT t).rem ≠ 0 then 1 else 0) ∧
      (s.trkAdjust t a).get (F.CAD_TRK_OFS_offset t) = (u.get (F.CAD_TRK_OFS_offset t) + a.toNat) % 2 ^ 32 := by
  unfold State.trkAdjust
  rw [if_neg (by simp [hst, hr]), hc]
  dsimp only
  refine ⟨by simp, by simp, ?_, ?_⟩
  · rw [State.trkShow_slewing, State.trkT_setTrk]
  · rw [State.trkShow_reg _ _ (a := 0x40408) rfl rfl rfl rfl, State.setTrk_get, State.get_put_self _ _ rfl]
    rfl

end

section

variable {k : Fin 8} {a : BitVec 32} {s : State}

theorem completes_trackAdjust_step (ho : s.barOpen (R.CAD_TRK_ADJ k) = true) (hr : s.cad.run = true)
    (hst : s.trkState k = 2 ∨ s.trkState k = 3) (ha : a.toInt.natAbs ≤ s.get (F.CAD_TRK_STEP_step_max k)) (hrem : (s.trkT k).rem.natAbs ≤ 2 ^ 39) :
    Completes (.trackAdjust k a) s (fun t => (t.trkT k).obs.theta = (s.trkT k).obs.theta + fine (BitVec.ofInt 64 a.toInt) ∧
      (t.trkT k).rem = (s.trkT k).rem ∧ t.get (F.CAD_TRK_OFS_offset k) = (s.get (F.CAD_TRK_OFS_offset k) + a.toNat) % 2 ^ 32) := by
  obtain ⟨u, hu, hurem, htheta, hofs⟩ := State.correct_tracking (s := s) (t := k) (d := a.toInt) (r := (s.trkT k).rem) hst
    (by rw [if_neg (by omega), if_neg (by omega)]; omega) (by omega) (by omega)
  obtain ⟨h1, h2, _, h4⟩ := State.trkAdjust_taken (a := a) (by omega) hr hu
  refine completes_bar (u := s.trkAdjust k a) rfl ho ⟨h1.trans htheta, h2.trans hurem, ?_⟩
  rw [h4, hofs _ rfl]

theorem completes_trackAdjust_slew (ho : s.barOpen (R.CAD_TRK_ADJ k) = true) (hr : s.cad.run = true)
    (hst : s.trkState k = 2 ∨ s.trkState k = 3) (ha : s.get (F.CAD_TRK_STEP_step_max k) < a.toNat) (hlt : a.toNat < 2 ^ 31) (hrem : (s.trkT k).rem = 0) :
    Completes (.trackAdjust k a) s (fun t => (t.trkT k).rem = a.toNat - s.get (F.CAD_TRK_STEP_step_max k) ∧
      t.get (F.CAD_TRK_STS_slewing k) = 1) := by
  have hint : a.toInt = (a.toNat : Int) := BitVec.toInt_eq_toNat_of_lt (by omega)
  obtain ⟨u, hu, hurem, _, _⟩ := State.correct_tracking (s := s) (t := k) (d := a.toInt) (r := a.toNat - s.get (F.CAD_TRK_STEP_step_max k)) hst
    (by rw [if_neg (by omega), if_pos (by omega)]; omega) (by omega) (by omega)
  obtain ⟨_, h2, h3, _⟩ := State.trkAdjust_taken (a := a) (by omega) hr hu
  refine completes_bar (u := s.trkAdjust k a) rfl ho ⟨h2.trans hurem, ?_⟩
  rw [h3, hurem, if_pos (by omega)]

end

/-! ## Switches -/

section

variable {k : Fin 8} {v : BitVec 32} {s : State}

theorem or8_src (v : BitVec 32) : (v ||| 8).toNat % 4 = v.toNat % 4 := by
  have h : (v ||| 8).toNat % 2 ^ 2 = v.toNat % 2 ^ 2 := by
    rw [BitVec.toNat_or, Nat.or_mod_two_pow]
    simp
  exact h

theorem completes_trackSwitchGo (ho : s.barOpen (R.CAD_TRK_SW k) = true) (hr : s.cad.run = true) (hb : s.switchBusy k = false)
    (hst : s.trkState k ≠ 0) (hv : s.srcValid (v.toNat % 4) = true) :
    Completes (.trackSwitchGo k v) s (fun t => t.get (F.CAD_TRK_SW_busy k) = 1 ∧ t.get (F.CAD_TRK_STS_switching k) = 1 ∧
      t.get (F.CAD_TRK_SW_result k) = 0 ∧ t.trkState k = s.trkState k) := by
  have h3 : (v ||| 8).getLsbD 3 = true := by rw [BitVec.getLsbD_or]; simp
  have hcheck : s.switchCheck k ((v ||| 8).toNat % 4) = 0 := by
    rw [or8_src, State.switchCheck, if_neg (by simp [hst, hv]), if_neg (by simp [hb])]
  have hsw {f g : RF} (u : State) (v : Nat) (hf : f.off = R.CAD_TRK_SW k) (hg : g.off = R.CAD_TRK_STS k) : (u.put f v).get g = u.get g :=
    State.get_put_apart _ _ (apart_base hf hg rfl)
  refine completes_bar (u := s.trkSwWrite k (v ||| 8)) rfl ho ?_
  unfold State.trkSwWrite
  rw [if_neg (by simp only [h3, hr]; simp), if_neg (fun h => h hcheck)]
  unfold State.switchGo
  dsimp only
  refine ⟨?_, ?_, State.get_put_lit _ rfl, ?_⟩
  · rw [State.get_put_apart _ _ rfl, State.get_put_lit _ rfl]
  · rw [hsw _ _ rfl rfl, hsw _ _ rfl rfl, State.get_put_lit _ rfl]
  · rw [State.trkState, hsw _ _ rfl rfl, hsw _ _ rfl rfl, State.get_put_apart _ _ rfl, State.setTrk_get, hsw _ _ rfl rfl, hsw _ _ rfl rfl,
      State.putB, hsw _ _ rfl rfl, hsw _ _ rfl rfl, State.trkState]

theorem completes_trackSwitchGo_rejected (ho : s.barOpen (R.CAD_TRK_SW k) = true) (hr : s.cad.run = true)
    (h : s.srcValid (v.toNat % 4) = false ∨ s.trkState k = 0 ∨ s.switchBusy k = true) :
    Completes (.trackSwitchGo k v) s (fun t => t.get (F.CAD_TRK_SW_result k) = 3 ∧ t.logged 0x0506 k ∧ t.cad = s.cad ∧
      t.get (F.CAD_TRK_SW_busy k) = s.get (F.CAD_TRK_SW_busy k) ∧ t.get (F.CAD_TRK_SW_timeout k) = s.get (F.CAD_TRK_SW_timeout k) ∧
      t.get (F.CAD_TRK_SW_src k) = s.get (F.CAD_TRK_SW_src k)) := by
  have h3 : (v ||| 8).getLsbD 3 = true := by rw [BitVec.getLsbD_or]; simp
  have hcheck : s.switchCheck k ((v ||| 8).toNat % 4) ≠ 0 := by
    rw [or8_src, State.switchCheck]
    split
    · decide
    · next hn =>
      rw [if_pos ((h.resolve_left fun hv => hn (Or.inr (by rw [hv]; rfl))).resolve_left fun h0 => hn (Or.inl h0))]
      decide
  have hev : eventReg (R.CAD_TRK_SW k) = false := trk_event k.isLt (a := 0x40434) rfl (by decide)
  have hkeep {g : RF} (hg : g.off = R.CAD_TRK_SW k) (ha : (F.CAD_TRK_SW_result k).apart g = true) : (s.switchReject k).get g = s.get g :=
    (State.raise_getKept _ _ _ (hg ▸ hev)).trans (State.get_put_apart _ _ ha)
  refine completes_bar (u := s.trkSwWrite k (v ||| 8)) rfl ho ?_
  unfold State.trkSwWrite
  rw [if_neg (by simp only [h3, hr]; simp), if_pos hcheck]
  refine ⟨(State.raise_getKept _ _ _ hev).trans (State.get_put_lit _ rfl), State.raise_logged _ _ _, by simp [State.switchReject], hkeep rfl rfl, hkeep rfl rfl,
    hkeep rfl rfl⟩

end

section

variable {k : Fin 8} {o : Observer} {s : State}

theorem State.coastCause_lt (s : State) (t : Nat) : s.coastCause t < 16 := by
  unfold State.coastCause
  dsimp only
  split
  · decide
  · split
    · decide
    · split <;> decide

/-- A switch with alignment takes the shadow as the track's observer (R224). -/
theorem State.switchTake_aligned (s : State) (t : Nat) (o : Observer) :
    ∃ u, s.switchTake t o true = some u ∧ u.trkState t = s.trkState t ∧ u.get (F.CAD_TRK_CTL_src t) = o.src % 4 ∧ (u.trkT t).shadow = none ∧
      (u.trkT t).rem = (s.trkT t).rem := by
  unfold State.switchTake
  dsimp only
  rw [if_pos rfl]
  refine ⟨_, rfl, ?_, ?_, ?_, ?_⟩
  · refine (State.trkShow_sts _ _ (g := F.CAD_TRK_STS_state t) rfl rfl rfl).trans ?_
    rw [State.get_put_apart _ _ (apart_base rfl rfl rfl), State.get_put_apart _ _ (apart_base rfl rfl rfl), State.get_put_apart _ _ (apart_base rfl rfl rfl),
      State.get_put_apart _ _ (apart_base rfl rfl rfl), State.setTrk_get, State.trkState]
  · rw [State.trkShow_reg _ _ (a := 0x40400) rfl rfl rfl rfl, State.get_put_apart _ _ (apart_base rfl rfl rfl), State.get_put_apart _ _ (apart_base rfl rfl rfl),
      State.get_put_apart _ _ rfl, State.get_put_self _ _ rfl]
    rfl
  · simp only [State.trkShow_trkT, State.put_trkT, State.trkT_setTrk]
  · simp only [State.trkShow_trkT, State.put_trkT, State.trkT_setTrk]

theorem completes_switchAcquired (hs : (s.trkT k).shadow = some o) (hg : 16 ≤ o.good) (hret : (s.trkT k).isReturn = false)
    (ha : (s.trkT k).swAlign = true) (hst : s.trkState k = 2 ∨ s.trkState k = 3) (hc : s.coastCause k = 0) :
    Completes (.switchAcquired k) s (fun t => t.trkState k = 2 ∧ t.get (F.CAD_TRK_CTL_src k) = o.src % 4 ∧
      t.get (F.CAD_TRK_STS_switching k) = 0 ∧ (t.trkT k).shadow = none ∧ (t.trkT k).slewDone = true ∧ (t.trkT k).rem = (s.trkT k).rem) := by
  obtain ⟨u, hu, hstate, hsrc, hshadow, hrem⟩ := s.switchTake_aligned k o
  refine ⟨_, rfl, ?_⟩
  unfold State.switchAcquired
  dsimp only
  rw [hs]
  dsimp only
  rw [if_neg (Nat.not_lt.mpr hg), if_neg (by simp [hc]), if_neg (by simp [hret]), ha, hu]
  dsimp only
  have hwstate : (u.put (F.CAD_TRK_STS_switching k) 0).trkState k = s.trkState k := (State.get_put_apart _ _ rfl).trans hstate
  have hwsrc : (u.put (F.CAD_TRK_STS_switching k) 0).get (F.CAD_TRK_CTL_src k) = o.src % 4 := (State.get_put_apart _ _ (apart_base rfl rfl rfl)).trans hsrc
  have hwsw : (u.put (F.CAD_TRK_STS_switching k) 0).get (F.CAD_TRK_STS_switching k) = 0 := State.get_put_lit _ rfl
  have hwtrk : (u.put (F.CAD_TRK_STS_switching k) 0).trkT k = u.trkT k := State.put_trkT _ _ _ _
  generalize u.put (F.CAD_TRK_STS_switching k) 0 = w at hwstate hwsrc hwsw hwtrk
  rw [if_neg (by omega)]
  split
  · refine ⟨?_, ?_, ?_, by simp [hwtrk, hshadow], by simp, by simp [hwtrk, hrem]⟩
    · exact (State.setTrk_get _ _ _ _).trans (State.setTrkState_state w k (by decide))
    · rw [State.setTrk_get, State.setTrkState_get _ _ (a := 0x40400) _ rfl (by decide) (apart_base rfl rfl rfl), hwsrc]
    · rw [State.setTrk_get, State.setTrkState_get _ _ (a := 0x4042C) _ rfl (by decide) rfl, hwsw]
  · refine ⟨?_, ?_, ?_, by simp [hwtrk, hshadow], by simp, by simp [hwtrk, hrem]⟩
    · have h2 : w.trkState k = 2 := by omega
      exact (State.setTrk_get _ _ _ _).trans h2
    · rw [State.setTrk_get, hwsrc]
    · rw [State.setTrk_get, hwsw]

theorem completes_switchAcquired_coasted (hs : (s.trkT k).shadow = some o) (hg : 16 ≤ o.good) (hc : s.coastCause k ≠ 0) :
    Completes (.switchAcquired k) s (fun t => t.trkState k = 4 ∧ t.get (F.CAD_TRK_STS_halt_cause k) = s.coastCause k ∧ t.logged 0x0503 k) := by
  refine ⟨_, rfl, ?_⟩
  unfold State.switchAcquired
  dsimp only
  rw [hs]
  dsimp only
  rw [if_neg (Nat.not_lt.mpr hg), if_pos hc]
  exact s.trkHalt_spec k.isLt (s.coastCause_lt k)

theorem completes_switchAbort (hs : (s.trkT k).shadow = some o) (hret : (s.trkT k).isReturn = false)
    (ht : max 1 (s.get (F.CAD_TRK_SW_timeout k)) * 250000 ≤ (s.trkT k).swUpd) :
    Completes (.switchAbort k) s (fun t => t.get (F.CAD_TRK_SW_result k) = 2 ∧ t.get (F.CAD_TRK_SW_busy k) = 0 ∧ t.logged 0x0506 k ∧
      t.get (F.CAD_TRK_CTL_src k) = s.get (F.CAD_TRK_CTL_src k) ∧ t.trkState k = s.trkState k) := by
  have hsome : (s.trkT k).shadow.isSome = true := by rw [hs]; rfl
  have hev : eventReg (R.CAD_TRK_SW k) = false := trk_event k.isLt (a := 0x40434) rfl (by decide)
  have habort : s.switchAbort k = ((((s.setTrk k { s.trkT k with shadow := none, isReturn := false, swUpd := 0 }).put (F.CAD_TRK_STS_switching k) 0).put
      (F.CAD_TRK_SW_busy k) 0).put (F.CAD_TRK_SW_result k) 2).raise 0x0506 k := by
    unfold State.switchAbort
    dsimp only
    rw [if_neg (by simp [hs]), if_neg (by simp [hret])]
  refine ⟨_, congrArg Host.Outcome.next (if_pos ⟨hsome, by rw [hret]; rfl, ht⟩), ?_, ?_, ?_, ?_, ?_⟩
  · rw [habort, State.raise_getKept _ _ _ hev, State.get_put_lit _ rfl]
  · rw [habort, State.raise_getKept _ _ _ hev, State.get_put_apart _ _ rfl, State.get_put_lit _ rfl]
  · rw [habort]
    exact State.raise_logged _ _ _
  · exact State.switchAbort_get _ _ (trk_event k.isLt (a := 0x40400) rfl (by decide)) (apart_base rfl rfl rfl) (apart_base rfl rfl rfl) (apart_base rfl rfl rfl)
  · exact State.switchAbort_get _ _ (trk_event k.isLt (a := 0x4042C) rfl (by decide)) rfl (apart_base rfl rfl rfl) (apart_base rfl rfl rfl)

theorem completes_slewComplete (hd : (s.trkT k).slewDone = true) (hr : (s.trkT k).rem = 0) (hb : s.get (F.CAD_TRK_SW_busy k) = 1)
    (hsw : s.get (F.CAD_TRK_STS_switching k) = 0) :
    Completes (.slewComplete k) s (fun t => t.get (F.CAD_TRK_SW_busy k) = 0 ∧ t.get (F.CAD_TRK_SW_result k) = 1 ∧ t.logged 0x0505 k) := by
  have hev : eventReg (R.CAD_TRK_SW k) = false := trk_event k.isLt (a := 0x40434) rfl (by decide)
  show ∃ t, execSlewComplete k s = .next t ∧ _
  unfold execSlewComplete
  dsimp only
  rw [if_neg (by simp [hd, hr]), if_pos (by simp [State.on, hb, hsw])]
  refine ⟨_, rfl, ?_, ?_, State.raise_logged _ _ _⟩
  · rw [State.raise_getKept _ _ _ hev, State.get_put_apart _ _ rfl, State.get_put_lit _ rfl]
  · rw [State.raise_getKept _ _ _ hev, State.get_put_lit _ rfl]

end

/-! ## The update of all tracks -/

/-- What an update's later steps leave of a track: its state, the count of updates, and its estimate while it coasts. -/
structure State.Coasts (k : Nat) (s t : State) : Prop where
  state : t.trkState k = s.trkState k
  updates : t.updates = s.updates
  obs : s.trkState k = 3 → (t.trkT k).obs = (s.trkT k).obs ∧ (t.trkT k).coastUpd = (s.trkT k).coastUpd

namespace State.Coasts

variable {k : Nat} {s t u : State}

theorem refl (k : Nat) (s : State) : s.Coasts k s := ⟨rfl, rfl, fun _ => ⟨rfl, rfl⟩⟩

theorem trans (h : State.Coasts k s t) (g : State.Coasts k t u) : State.Coasts k s u := by
  refine ⟨g.state.trans h.state, g.updates.trans h.updates, fun h3 => ?_⟩
  obtain ⟨ho, hc⟩ := h.obs h3
  obtain ⟨go, gc⟩ := g.obs (h.state.trans h3)
  exact ⟨go.trans ho, gc.trans hc⟩

theorem foldl {α : Type} {f : State → α → State} {l : List α} (h : ∀ s : State, ∀ a ∈ l, State.Coasts k s (f s a)) (s : State) :
    State.Coasts k s (l.foldl f s) := by
  induction l generalizing s with
  | nil => exact refl k s
  | cons a l ih => exact (h s a List.mem_cons_self).trans (ih (fun s b hb => h s b (List.mem_cons_of_mem a hb)) _)

end State.Coasts

theorem besideTrk_updates (k : Nat) : besideTrk k R.CAD_UPD_LO = 0 ∧ besideTrk k R.CAD_UPD_HI = 0 := by
  unfold besideTrk
  exact ⟨by rw [if_neg (by decide), if_pos (Or.inr (Or.inl rfl))], by rw [if_neg (by decide), if_pos (Or.inr (Or.inr rfl))]⟩

theorem State.Leaves.updates {k : Nat} {s t : State} (h : s.Leaves k t) : t.updates = s.updates := by
  obtain ⟨hlo, hhi⟩ := besideTrk_updates k
  rw [State.updates, State.Alters.rd h hlo, State.Alters.rd h hhi, State.updates]

theorem State.Leaves.coasts {k : Nat} {s t : State} (h : s.Leaves k t) : State.Coasts k s t :=
  ⟨h.state, h.updates, fun _ => ⟨congrArg Trk.obs h.trkT, congrArg Trk.coastUpd h.trkT⟩⟩

/-! ### Pins and Spoke units -/

theorem State.put_elsewhere (s : State) {f : RF} (v : Nat) (h : 0x50000 ≤ f.off) : s.Elsewhere (s.put f v) :=
  .field elsewhere_eventful v (by rw [elsewhere_out (Or.inr h), and_not_allOnes])

theorem State.setSpk_elsewhere (s : State) (u : Nat) (k : Spk) : s.Elsewhere (s.setSpk u k) := .of_same rfl rfl rfl

theorem spk_page {a u : Nat} (h : 0x50000 ≤ a) : 0x50000 ≤ a + 0x1000 * u := Nat.le_add_right_of_le h

theorem padFrame_elsewhere (u : Nat) : PadFrame elsewhere State.cad u := by
  refine ⟨elsewhere_eventful, fun s k _ => rfl, fun p _ => ?_, ?_⟩
  · have h : elsewhere (R.SPK_PINCFG u (p / 4)) = BitVec.allOnes 32 := elsewhere_out (Or.inr (by simp only [R.SPK_PINCFG]; omega))
    rw [h, and_not_allOnes]
  · have h : elsewhere (R.SPK_LATE u) = BitVec.allOnes 32 := elsewhere_out (Or.inr (by simp only [R.SPK_LATE]; omega))
    rw [h, and_not_allOnes]

theorem State.spkSync_elsewhere (s : State) (u : Nat) : s.Elsewhere (s.spkSync u) :=
  ((s.put_elsewhere _ (spk_page (a := 0x50004) (by decide))).trans (State.put_elsewhere _ _ (spk_page (a := 0x50010) (by decide)))).trans
    (State.put_elsewhere _ _ (spk_page (a := 0x50014) (by decide)))

theorem State.takeHead_elsewhere (s : State) (u : Nat) (fired : Bool) : s.Elsewhere (s.takeHead u fired) :=
  ((s.setSpk_elsewhere u _).trans (State.put_elsewhere _ _ (spk_page (a := 0x50004) (by decide)))).trans (State.spkSync_elsewhere _ u)

theorem State.lateHead_elsewhere (s : State) (u dt : Nat) (e : BitVec 64) : s.Elsewhere (s.lateHead u dt e) := by
  have hlate := s.put_elsewhere (f := F.SPK_LATE_late u) (min (s.get (F.SPK_LATE_late u) + 1) (2 ^ (F.SPK_LATE_late u).w - 1)) (spk_page (a := 0x50024) (by decide))
  unfold State.lateHead State.sat
  dsimp only
  split
  · exact (hlate.trans (State.setSpk_elsewhere _ u _)).trans (State.put_elsewhere _ _ (spk_page (a := 0x50004) (by decide)))
  · exact hlate.trans (State.takeHead_elsewhere _ u false)
  · exact (hlate.trans (State.takeHead_elsewhere _ u false)).trans (.raiseLim elsewhere_eventful _ _ _ _)

theorem State.armHead_elsewhere (n : Nat) (s : State) (u dt : Nat) : s.Elsewhere (s.armHead n u dt) := by
  induction n generalizing s with
  | zero => exact .refl _ _ _
  | succ n ih =>
    unfold State.armHead
    split
    · exact .refl _ _ _
    · exact .ite (fun _ => .refl _ _ _) fun _ => .ite (fun _ => (s.lateHead_elsewhere u dt _).trans (ih _))
        (fun _ => s.put_elsewhere _ (spk_page (a := 0x50004) (by decide)))

theorem State.setSysPad_elsewhere (s : State) (p : Nat) (v : Pad) : s.Elsewhere (s.setSysPad p v) := by
  have hdrive (u : State) (x : Pins) : u.Elsewhere { u with pins := x } := .of_same rfl rfl rfl
  have hin (u : State) (v : Nat) : u.Elsewhere (u.put ⟨R.PIN_IN (p / 16), p % 16, 1⟩ v) := u.put_elsewhere v (Nat.le_add_right_of_le (by decide))
  unfold State.setSysPad
  dsimp only
  split
  · exact (hdrive s _).trans (hin _ _)
  · exact (hdrive s _).trans (hin _ _)
  · exact hdrive s _

theorem State.pinRefresh_elsewhere (s : State) (p : Nat) : s.Elsewhere (s.pinRefresh p) := by
  have hset := fun v => s.setSysPad_elsewhere p v
  unfold State.pinRefresh
  refine .ite (fun _ => .refl _ _ _) fun _ => .ite (fun _ => hset _) fun _ => .ite (fun _ => .refl _ _ _) fun _ => .ite (fun _ => hset _) fun _ => ?_
  split
  · exact hset _
  · exact .ite (fun _ => hset _) (fun _ => hset _)

/-! ### Sources -/

theorem besideTrk_src {k n off a : Nat} (hn : n < 4) (ho : off = a + 0x40 * n) (ha : 0x40100 ≤ a) (hb : a < 0x40140) : besideTrk k off = BitVec.allOnes 32 := by
  rw [besideTrk, if_neg (by simp only [R.CAD_STS]; omega), if_neg (by simp only [R.CAD_UPD_LO, R.CAD_UPD_HI]; omega)]

theorem State.setSrcX_leaves (s : State) {k n : Nat} (x : BitVec 76) (hn : n < 4) : s.Leaves k (s.setSrcX n x) := by
  have hhi := besideTrk_src (k := k) hn (a := 0x4011C) (off := R.CAD_SRC_POS_HI n) rfl (by decide) (by decide)
  have hlo := besideTrk_src (k := k) hn (a := 0x40118) (off := R.CAD_SRC_POS_LO n) rfl (by decide) (by decide)
  exact ((State.Alters.wr _ hhi rfl).trans (.wr _ hlo rfl)).trans (.of_same rfl rfl rfl)

theorem State.trkMeasure_leaves (s : State) {k t : Nat} (h : t ≠ k) (n : Nat) (stamp : Int) : s.Leaves k (s.trkMeasure n t stamp) := by
  unfold State.trkMeasure
  dsimp only
  split
  · exact .refl _ _ _
  · exact (s.setTrk_leaves h _).trans (State.trkShow_leaves _ h)

/-- A measurement of a source of its own leaves a coasting track's estimate: only its shadow takes it. -/
theorem State.trkMeasure_coasting (s : State) {k : Nat} (h3 : s.trkState k = 3) (n : Nat) (stamp : Int) :
    ((s.trkMeasure n k stamp).trkT k).obs = (s.trkT k).obs ∧ ((s.trkMeasure n k stamp).trkT k).coastUpd = (s.trkT k).coastUpd := by
  unfold State.trkMeasure
  simp only [h3, ne_eq, not_true_eq_false, false_and, and_false, if_false, Nat.succ_ne_zero, State.trkShow_trkT, State.trkT_setTrk]
  by_cases hc : s.get (F.CAD_TRK_CTL_src k) = n ∧ True ∧ (s.trkT k).shadow.isNone = true
  · simp only [if_pos hc]
    split <;> exact ⟨rfl, rfl⟩
  · simp only [if_neg hc]
    split
    · exact ⟨rfl, rfl⟩
    · split <;> exact ⟨rfl, rfl⟩

theorem State.trkMeasure_coasts (s : State) {k t : Nat} (ht : t < 8) (n : Nat) (stamp : Int) : State.Coasts k s (s.trkMeasure n t stamp) := by
  by_cases h : t = k
  · subst h
    refine ⟨?_, (s.trkMeasure_leaves (k := 8) (by omega) n stamp).updates, fun h3 => s.trkMeasure_coasting h3 n stamp⟩
    unfold State.trkMeasure
    dsimp only
    split
    · rfl
    · exact (State.trkShow_sts _ _ (g := F.CAD_TRK_STS_state t) rfl rfl rfl).trans (State.setTrk_get _ _ _ _)
  · exact (s.trkMeasure_leaves h n stamp).coasts

theorem State.measured_coasts (s : State) {k n : Nat} (hn : n < 4) (stamp : Nat) : State.Coasts k s (s.measured n stamp) := by
  have hsrc (u : State) (x : CadSrc) : u.Leaves k (u.setCadSrc n x) := .of_same rfl rfl rfl
  have hmeas (u : State) (v : Nat) : u.Leaves k (u.put (F.CAD_SRC_STS_meas n) v) :=
    .put v (by rw [besideTrk_src (off := (F.CAD_SRC_STS_meas n).off) (a := 0x4012C) hn rfl (by decide) (by decide), and_not_allOnes]) (by simp)
  unfold State.measured State.inc
  dsimp only
  exact (State.Leaves.coasts ((hsrc _ _).trans (hmeas _ _))).trans (.foldl (fun u t ht => u.trkMeasure_coasts (List.mem_range.mp ht) n _) _)

theorem State.freeUpdate_coasts (s : State) {k n : Nat} (hn : n < 4) : State.Coasts k s (s.freeUpdate n) := by
  unfold State.freeUpdate
  split
  · exact (s.setSrcX_leaves _ hn).coasts.trans (State.measured_coasts _ hn _)
  · exact .refl k s

/-! ### The tracks -/

theorem State.trkUpdate_leaves (s : State) {k t : Nat} (hk : k ≤ 8) (ht : t < 8) (h : t ≠ k) : s.Leaves k (s.trkUpdate t) := by
  have hovs (u : State) (v : Nat) := u.trkField_leaves h (f := F.CAD_TRK_STS_ovs t) (a := 0x4042C) v rfl (by decide) (by decide)
  unfold State.trkUpdate
  dsimp only
  split
  · exact .refl _ _ _
  · refine ((s.setTrk_leaves h _).trans (State.trkShow_leaves _ h)).trans (.ite (fun _ => ?_) fun _ => .refl _ _ _)
    exact ((hovs _ 1).trans (.raise (besideTrk_eventful hk) _ _)).trans (State.trkHalt_leaves _ hk ht h 3)

theorem State.overspeed_congr {s t : State} {k : Nat} (hlim : t.get (F.CAD_TRK_DIV_ovs k) = s.get (F.CAD_TRK_DIV_ovs k))
    (homega : (t.trkT k).obs.omega = (s.trkT k).obs.omega) : t.overspeed k = s.overspeed k := by
  unfold State.overspeed
  rw [hlim, homega]

/-- A coasting track runs on at its velocity, and the update is counted against its coasting time. -/
theorem State.trkUpdate_coasting (s : State) {k : Nat} (h3 : s.trkState k = 3) (ho : s.overspeed k = false) :
    (s.trkUpdate k).trkState k = 3 ∧ ((s.trkUpdate k).trkT k).obs = (s.trkT k).obs.advance ∧
      ((s.trkUpdate k).trkT k).coastUpd = (s.trkT k).coastUpd + 1 := by
  unfold State.trkUpdate
  simp only [h3, ne_eq, not_true_eq_false, false_and, if_false, if_true, Nat.succ_ne_zero, Nat.reduceEqDiff, not_false_eq_true, true_or, decide_true, Bool.not_true, Bool.false_eq_true]
  have hslow (x : Trk) (hx : x.obs.omega = (s.trkT k).obs.omega) : ((s.setTrk k x).trkShow k).overspeed k = false := by
    rw [← ho]
    refine State.overspeed_congr ?_ ?_
    · rw [State.trkShow_reg _ _ (a := 0x40404) rfl rfl rfl rfl, State.setTrk_get]
    · rw [State.trkShow_trkT, State.trkT_setTrk, hx]
  have hstate (x : Trk) : ((s.setTrk k x).trkShow k).trkState k = 3 :=
    ((State.trkShow_sts _ _ (g := F.CAD_TRK_STS_state k) rfl rfl rfl).trans (State.setTrk_get _ _ _ _)).trans h3
  rw [if_neg]
  · rw [State.trkShow_trkT, State.trkT_setTrk]
    refine ⟨hstate _, ?_⟩
    split <;> exact ⟨rfl, rfl⟩
  · rw [hslow _ (by dsimp only; split <;> rfl)]
    simp

/-- One turn of all tracks: the coasting one runs on, and none counts. -/
theorem State.trkUpdates_coasting (s : State) {k : Nat} (hk : k < 8) (h3 : s.trkState k = 3) (ho : s.overspeed k = false) :
    let t := (List.range 8).foldl (fun s t => s.trkUpdate t) s
    t.trkState k = 3 ∧ (t.trkT k).obs = (s.trkT k).obs.advance ∧ (t.trkT k).coastUpd = (s.trkT k).coastUpd + 1 := by
  have hlt {a : Nat} (ha : a ∈ List.range 8) : a < 8 := List.mem_range.mp ha
  have hother (u : State) (a : Nat) (ha : a ∈ List.range 8) (hne : a ≠ k) : u.Leaves k (u.trkUpdate a) := u.trkUpdate_leaves (by omega) (hlt ha) hne
  obtain ⟨l, hl, hturn⟩ := foldl_turn (f := fun s t => s.trkUpdate t) (fun u => (u.trkState k, u.trkT k)) (List.mem_range.mpr hk) List.nodup_range
    (fun u a ha hne => Prod.ext (hother u a ha hne).state (hother u a ha hne).trkT) s
  have hbefore : s.Leaves k (l.foldl (fun s t => s.trkUpdate t) s) := .foldl (fun u a ha => hother u a (hl a ha).1 (hl a ha).2) _
  have hown := State.trkUpdate_coasting _ (hbefore.state.trans h3)
    ((State.overspeed_congr (hbefore.own (a := 0x40404) rfl (by decide) (by decide)) (by rw [hbefore.trkT])).trans ho)
  rw [hbefore.trkT] at hown
  obtain ⟨hst, htrk⟩ := Prod.ext_iff.mp hturn
  dsimp only at hst htrk ⊢
  rw [hst, htrk]
  exact hown

theorem State.trkUpdates_updates (s : State) : ((List.range 8).foldl (fun s t => s.trkUpdate t) s).updates = s.updates :=
  State.Leaves.updates (k := 8) (.foldl (fun u t ht => u.trkUpdate_leaves (le_refl 8) (List.mem_range.mp ht) (by have := List.mem_range.mp ht; omega)) s)

/-- What follows the tracks in an update: the sources of type 6, the exciters' pins, the Spoke units. -/
theorem State.afterTracks_coasts (s : State) {k : Nat} (hk : k ≤ 8) :
    let a := (List.range 4).foldl (fun s n => s.freeUpdate n) s
    let b := (List.range 4).foldl (fun s k => if s.holder (28 + k) = some (16 + k) then s.pinRefresh (28 + k) else s) a
    State.Coasts k s ((b.spk.map (·.1)).foldl (fun s u => ((s.setSpk u { s.spkU u with firedNow := 0 }).padsDue u (s.updates * 32)).armHead 65 u 0) b) := by
  intro a b
  have hfree : State.Coasts k s a := .foldl (fun u n hn => u.freeUpdate_coasts (List.mem_range.mp hn)) s
  have hpins : a.Elsewhere b := .foldl (fun u n _ => .ite (fun _ => u.pinRefresh_elsewhere _) (fun _ => .refl _ _ _)) a
  have hspk (u : State) (n : Nat) : u.Elsewhere (((u.setSpk n { u.spkU n with firedNow := 0 }).padsDue n (u.updates * 32)).armHead 65 n 0) :=
    ((u.setSpk_elsewhere n _).trans ((padFrame_elsewhere n).padsDue _ _)).trans (State.armHead_elsewhere 65 _ n 0)
  exact (hfree.trans (hpins.leaves hk).coasts).trans (State.Elsewhere.leaves hk (.foldl (fun u n _ => hspk u n) b)).coasts

theorem State.updates_counted (s : State) :
    ((s.wr R.CAD_UPD_LO (BitVec.ofNat 32 (s.updates + 1))).wr R.CAD_UPD_HI (BitVec.ofNat 32 ((s.updates + 1) / 2 ^ 32))).updates =
      (s.updates + 1) % 2 ^ 64 := by
  rw [State.updates, State.rd_wr_ne _ _ _ _ (by decide), State.rd_wr_same, State.rd_wr_same, BitVec.toNat_ofNat, BitVec.toNat_ofNat]
  omega

theorem completes_trackUpdate (s : State) (hrun : s.cad.run = true) (hlock : s.get F.CAD_STS_pll_lock = 1) :
    Completes .trackUpdate s (fun t => t.updates = (s.updates + 1) % 2 ^ 64 ∧
      ∀ k : Fin 8, s.trkState k = 3 → s.overspeed k = false →
        (t.trkT k).obs.theta = (s.trkT k).obs.theta + BitVec.ofInt 113 ((s.trkT k).obs.omega * 32) ∧
        (t.trkT k).coastUpd = (s.trkT k).coastUpd + 1) := by
  refine ⟨s.cadUpdate, rfl, ?_⟩
  unfold State.cadUpdate
  rw [if_neg (by simp [hrun, State.on_of_one hlock])]
  dsimp only
  generalize hc : State.wr (s.wr R.CAD_UPD_LO _) R.CAD_UPD_HI _ = c
  refine ⟨?_, fun k h3 ho => ?_⟩
  · rw [(State.afterTracks_coasts _ (le_refl 8)).updates, State.trkUpdates_updates, ← hc, s.updates_counted]
  · have hkeep {f : RF} (hlo : f.off ≠ R.CAD_UPD_LO) (hhi : f.off ≠ R.CAD_UPD_HI) : c.get f = s.get f :=
      State.get_of_rd (by rw [← hc, State.rd_wr_ne _ _ _ _ hhi, State.rd_wr_ne _ _ _ _ hlo])
    have htrk : c.trkT k = s.trkT k := by rw [← hc]; rfl
    have hstate : c.trkState k = s.trkState k := hkeep (by simp only [F.CAD_TRK_STS_state, R.CAD_TRK_STS, R.CAD_UPD_LO]; omega)
      (by simp only [F.CAD_TRK_STS_state, R.CAD_TRK_STS, R.CAD_UPD_HI]; omega)
    have hovs : c.overspeed k = s.overspeed k :=
      State.overspeed_congr (hkeep (by simp only [F.CAD_TRK_DIV_ovs, R.CAD_TRK_DIV, R.CAD_UPD_LO]; omega)
        (by simp only [F.CAD_TRK_DIV_ovs, R.CAD_TRK_DIV, R.CAD_UPD_HI]; omega)) (by rw [htrk])
    obtain ⟨hst, hobs, hupd⟩ := State.trkUpdates_coasting c k.isLt (hstate.trans h3) (hovs.trans ho)
    obtain ⟨hobs', hupd'⟩ := (State.afterTracks_coasts ((List.range 8).foldl (fun s t => s.trkUpdate t) c) k.isLt.le).obs hst
    exact ⟨by rw [hobs', hobs, htrk]; rfl, by rw [hupd', hupd, htrk]⟩

/-- Settles O21: one update runs the tracks on, corrections step and slew, and switches go on, take effect, abort or end. -/
theorem updatesCorrectionsAndSwitchesMoveTracks : Obligations.UpdatesCorrectionsAndSwitchesMoveTracks := by
  unfold Obligations.UpdatesCorrectionsAndSwitchesMoveTracks
  exact ⟨completes_trackUpdate, fun _ _ _ => completes_trackAdjust_step, fun _ _ _ => completes_trackAdjust_slew,
    fun _ _ _ => completes_trackSwitchGo, fun _ _ _ => completes_trackSwitchGo_rejected, fun _ _ _ => completes_switchAcquired,
    fun _ _ _ => completes_switchAcquired_coasted, fun _ _ _ => completes_switchAbort, fun _ _ => completes_slewComplete⟩

end Sys2Proof.Machine

end

section

/-! SUPPORT. What the host receives: entries of rings, completions of admin commands and what they leave alone (R376 to R387). -/

namespace Sys2Proof.Machine

/-- The registers of the host interface behind its status and its event mask. -/
def hostPage (off : Nat) : Word := if 0x20008 ≤ off ∧ off < 0x30000 then BitVec.allOnes 32 else 0

theorem hostPage_in {off : Nat} (h : 0x20008 ≤ off) (h' : off < 0x30000) : hostPage off = BitVec.allOnes 32 := if_pos ⟨h, h'⟩
theorem hostPage_out {off : Nat} (h : off < 0x20008 ∨ 0x30000 ≤ off) : hostPage off = 0 := if_neg (by omega)

/-- The state without what an answer to the host or an event changes. -/
def State.sansAnswer (s : State) : State :=
  { s with
    regs := [], log := [], evtLast := [], freeCtr := 0, con := { s.con with out := [], result := 0, mbox := none }, pel := { s.pel with events := [] }
    hif := { s.hif with rings := [], writes := [], msix := [], pba := [], evtSeq := 0, evtLost := 0, running := [], finished := [] } }

/-- From one state to the other only answers and events have gone out. -/
abbrev State.Answers (s t : State) : Prop := s.Alters hostPage State.sansAnswer t

theorem hostPage_eventful : Eventful hostPage State.sansAnswer := by
  refine ⟨fun off h => hostPage_in ?_ ?_, fun u => rfl⟩
  all_goals
    simp only [eventReg, Bool.or_eq_true, beq_iff_eq, R.HIF_EVT_LOST, R.HIF_RING_STS, R.HIF_RING_CNT, R.HIF_RING_OWN] at h
    omega

theorem State.Answers.accepted {s t : State} (h : s.Answers t) : t.hif.accepted = s.hif.accepted := congrArg (fun u => u.hif.accepted) h.part
theorem State.Answers.mode {s t : State} (h : s.Answers t) : t.mode = s.mode := congrArg (fun u => u.mode) h.part

theorem State.put_answers (s : State) {f : RF} (v : Nat) (h : 0x20008 ≤ f.off) (h' : f.off < 0x30000) : s.Answers (s.put f v) :=
  .field hostPage_eventful v (by rw [hostPage_in h h', and_not_allOnes])

theorem State.print_answers (s : State) (ls : List ConOut) : s.Answers (s.print ls) := by
  unfold State.print
  split
  · exact .refl _ _ _
  · exact .of_same rfl rfl rfl

/-! ## Entries of rings -/

section

variable (s : State) {n : Nat} (hn : n < 96)

theorem State.msixSend_answers (v : Nat) : s.Answers (s.msixSend v) := by
  unfold State.msixSend
  split <;> exact .of_same rfl rfl rfl

theorem State.ringEntry_answers (n : Nat) : s.Answers (s.ringEntry n) := by
  unfold State.ringEntry
  have hset (r : Ring) : s.Answers (s.setRing n r) := .of_same rfl rfl rfl
  dsimp only
  split
  · exact (hset _).trans (State.msixSend_answers _ _)
  · exact hset _

include hn in
theorem State.ringAdvance_answers : s.Answers (s.ringAdvance n) := by
  have hsts (u : State) (lo w v : Nat) : u.Answers (u.put ⟨R.HIF_RING_STS n, lo, w⟩ v) :=
    u.put_answers v (Nat.le_add_right_of_le (by decide)) (by simp only [R.HIF_RING_STS]; omega)
  unfold State.ringAdvance State.inc
  split
  · exact (hsts _ _ _ _).trans (hsts _ _ _ _)
  · exact hsts _ _ _ _

include hn in
theorem State.ringWrite_answers (flagOff : Nat) (entry : List Byte) : s.Answers (s.ringWrite n flagOff entry) := by
  have hput (u : State) {a : Nat} {f : RF} (v : Nat) (hf : f.off = a + 0x40 * n) (ha : 0x21000 ≤ a) (hb : a < 0x21040) : u.Answers (u.put f v) :=
    u.put_answers v (by omega) (by omega)
  have hcnt (u : State) (v : Nat) := hput u (f := F.HIF_RING_CNT_count n) (a := 0x21010) v rfl (by decide) (by decide)
  have hown (u : State) (v : Nat) := hput u (f := F.HIF_RING_OWN_dev_owned n) (a := 0x21014) v rfl (by decide) (by decide)
  have hfull (u : State) (v : Nat) := hput u (f := F.HIF_RING_STS_full n) (a := 0x2100C) v rfl (by decide) (by decide)
  have hhost (u : State) (a : Nat) (e : List Byte) : u.Answers (u.hostWrite a e) := .of_same rfl rfl rfl
  unfold State.ringWrite State.putB State.inc
  dsimp only
  exact (((((hhost _ _ _).trans (State.ringAdvance_answers _ hn)).trans (hcnt _ _)).trans (hown _ _)).trans (hfull _ _)).trans
    (State.ringEntry_answers _ n)

@[simp] theorem State.msixSend_writes (v : Nat) : (s.msixSend v).hif.writes = s.hif.writes := by
  unfold State.msixSend
  split <;> rfl

@[simp] theorem State.ringEntry_writes (n : Nat) : (s.ringEntry n).hif.writes = s.hif.writes := by
  unfold State.ringEntry
  dsimp only
  split <;> simp

@[simp] theorem State.ringAdvance_hif (n : Nat) : (s.ringAdvance n).hif = s.hif := by
  unfold State.ringAdvance State.inc
  split <;> simp

/-- An entry goes to the ring's slot, with the phase in its flag byte. -/
theorem State.ringWrite_writes (n flagOff : Nat) (entry : List Byte) : (s.ringWrite n flagOff entry).hif.writes =
    s.hif.writes ++ [⟨s.slotAddr n (s.get (F.HIF_RING_STS_pos n)),
      entry.take flagOff ++ [entry.getD flagOff 0 ||| BitVec.ofNat 8 (s.get (F.HIF_RING_STS_phase n))] ++ entry.drop (flagOff + 1)⟩] := by
  simp [State.ringWrite, State.putB, State.inc, State.hostWrite]

@[simp] theorem State.ringEntry_pending_of (n : Nat) :
    (s.ringEntry n).hif.running = s.hif.running ∧ (s.ringEntry n).hif.finished = s.hif.finished := by
  unfold State.ringEntry State.msixSend
  dsimp only
  split
  · split <;> exact ⟨rfl, rfl⟩
  · exact ⟨rfl, rfl⟩

theorem State.ringWrite_running (n flagOff : Nat) (entry : List Byte) : (s.ringWrite n flagOff entry).hif.running = s.hif.running := by
  simp [State.ringWrite, State.putB, State.inc, State.hostWrite]

theorem State.ringWrite_finished (n flagOff : Nat) (entry : List Byte) : (s.ringWrite n flagOff entry).hif.finished = s.hif.finished := by
  simp [State.ringWrite, State.putB, State.inc, State.hostWrite]

end

/-! ## Completions -/

section

variable (s : State) (c : Completion)

@[simp] theorem State.print_hif (ls : List ConOut) : (s.print ls).hif = s.hif := by
  unfold State.print
  split <;> rfl

@[simp] theorem State.print_regs (ls : List ConOut) : (s.print ls).regs = s.regs := by
  unfold State.print
  split <;> rfl

theorem State.conAnswer_answers (name status detail : Nat) : s.Answers (s.conAnswer name status detail) := by
  have hresult (r : Nat) : s.Answers { s with con := { s.con with result := r } } := .of_same rfl rfl rfl
  unfold State.conAnswer
  dsimp only
  split
  · exact s.print_answers _
  · split
    · exact (hresult _).trans (State.print_answers _ _)
    · exact s.print_answers _

@[simp] theorem State.conAnswer_hif (name status detail : Nat) : (s.conAnswer name status detail).hif = s.hif := by
  unfold State.conAnswer
  dsimp only
  split
  · simp
  · split <;> simp

@[simp] theorem State.conAnswer_regs (name status detail : Nat) : (s.conAnswer name status detail).regs = s.regs := by
  unfold State.conAnswer
  dsimp only
  split
  · simp
  · split <;> simp

theorem State.deliver_answers : s.Answers (s.deliver c) := by
  have hput (u : State) {f : RF} (v : Nat) (h : 0x20008 ≤ f.off) (h' : f.off < 0x30000) : u.Answers (u.put f v) := u.put_answers v h h'
  have hrun (l : List AdminCmd) : s.Answers (s.setHif { s.hif with running := l }) := .of_same rfl rfl rfl
  have hmbox (u : State) (b : Option Nat) : u.Answers { u with con := { u.con with mbox := b } } := .of_same rfl rfl rfl
  unfold State.deliver
  dsimp only
  split
  · exact (hrun _).trans (State.ringWrite_answers _ (by decide) _ _)
  · have hregs (u : State) := ((((hput u (f := F.HIF_MBOX_CMD_busy) 0 (by decide) (by decide)).trans
      (hput _ (f := F.HIF_MBOX_CMD_status) c.status (by decide) (by decide))).trans
      (hput _ (f := F.HIF_MBOX_DET_detail) c.detail (by decide) (by decide))).trans
      (hput _ (f := F.HIF_MBOX_RES_res 0) c.res0 (by decide) (by decide))).trans (hput _ (f := F.HIF_MBOX_RES_res 1) c.res1 (by decide) (by decide))
    split
    · exact (((hrun _).trans (hregs _)).trans (hmbox _ _)).trans (State.conAnswer_answers _ _ _ _)
    · exact (hrun _).trans (hregs _)
  · exact (hrun _).trans (State.conAnswer_answers _ _ _ _)
  · exact hrun _

/-- What a delivered completion does to the host's side. -/
theorem State.deliver_hif : (s.deliver c).hif.finished = s.hif.finished ∧ (s.deliver c).hif.running = s.hif.running.filter (fun a => a.src != c.src) ∧
    ∃ ws, (s.deliver c).hif.writes = s.hif.writes ++ ws := by
  unfold State.deliver
  dsimp only
  split
  · exact ⟨State.ringWrite_finished _ _ _ _, State.ringWrite_running _ _ _ _, _, State.ringWrite_writes _ _ _ _⟩
  · split <;> exact ⟨by simp, by simp, [], by simp⟩
  · exact ⟨by simp, by simp, [], by simp⟩
  · exact ⟨rfl, rfl, [], (List.append_nil _).symm⟩

/-- The registers of the mailbox after a completion (Table 13.4). -/
theorem State.mailbox_says (status detail res0 res1 : Nat) {t : State}
    (h : t.regs = (((((s.put F.HIF_MBOX_CMD_busy 0).put F.HIF_MBOX_CMD_status status).put F.HIF_MBOX_DET_detail detail).put
      (F.HIF_MBOX_RES_res 0) res0).put (F.HIF_MBOX_RES_res 1) res1).regs) : t.says .mailbox status detail res0 res1 := by
  have hget := State.get_of_regs h
  refine ⟨?_, ?_, ?_, ?_, ?_⟩
  · rw [hget, State.get_put_apart _ _ rfl, State.get_put_apart _ _ rfl, State.get_put_apart _ _ rfl, State.get_put_apart _ _ rfl, State.get_put_lit _ rfl]
  · rw [hget, State.get_put_apart _ _ rfl, State.get_put_apart _ _ rfl, State.get_put_apart _ _ rfl, State.get_put_self _ _ rfl]
    rfl
  · rw [hget, State.get_put_apart _ _ rfl, State.get_put_apart _ _ rfl, State.get_put_self _ _ rfl]
    rfl
  · rw [hget, State.get_put_apart _ _ rfl, State.get_put_self _ _ rfl]
    rfl
  · rw [hget, State.get_put_self _ _ rfl]
    rfl

/-- A delivered completion says what it holds. -/
theorem State.deliver_says : (s.deliver c).says c.src c.status c.detail c.res0 c.res1 := by
  obtain ⟨src, due, status, detail, res0, res1⟩ := c
  cases src with
  | ring cid slot =>
    unfold State.deliver State.says
    dsimp only
    rw [State.ringWrite_writes]
    exact ⟨_, List.getLast?_concat, by simp [State.completionEntry, le], by simp [State.completionEntry, le], by simp [State.completionEntry, le],
      by simp [State.completionEntry, le]⟩
  | mailbox =>
    unfold State.deliver
    dsimp only
    split
    · exact State.mailbox_says _ _ _ _ _ (State.conAnswer_regs _ _ _ _)
    · exact State.mailbox_says _ _ _ _ _ rfl
  | console name => exact trivial
  | gone gen cid slot => exact trivial

/-! ## An accepted command -/

/-- The source of a command can be answered at once: for a ring command the completion ring has a slot (R382). -/
def State.canAnswer (s : State) (src : CmdSrc) : Prop := ∀ cid slot, src = .ring cid slot → s.ringFree 1 = true

theorem State.complete_deliver {s : State} {src : CmdSrc} (hfree : s.canAnswer src) (hfin : s.hif.finished = []) (status detail res0 res1 : Nat) :
    s.complete src status detail res0 res1 = s.deliver ⟨src, true, status, detail, res0, res1⟩ := by
  have hsame : s.setHif { s.hif with finished := [] } = s := by rw [← hfin]; rfl
  have hdel : s.deliverable ⟨src, true, status, detail, res0, res1⟩ = true := by
    cases src with
    | ring cid slot => exact hfree cid slot rfl
    | _ => rfl
  unfold State.complete
  simp only [hfin, List.filter_nil, hsame, hdel, State.completionsWait, List.any_nil, Bool.not_false, Bool.true_or, Bool.and_self, if_true]

/-- An answer given at once: it says what it holds, and leaves the rest. -/
structure State.Answered (src : CmdSrc) (status detail res0 res1 : Nat) (s t : State) : Prop where
  answer : t.says src status detail res0 res1
  rest : s.Answers t
  finished : t.hif.finished = []
  running : t.hif.running = s.hif.running.filter (fun a => a.src != src)
  writes : ∃ ws, t.hif.writes = s.hif.writes ++ ws

theorem State.complete_answered {s : State} {src : CmdSrc} (hfree : s.canAnswer src) (hfin : s.hif.finished = []) (status detail res0 res1 : Nat) :
    State.Answered src status detail res0 res1 s (s.complete src status detail res0 res1) := by
  rw [State.complete_deliver hfree hfin]
  obtain ⟨hf, hr, hw⟩ := s.deliver_hif ⟨src, true, status, detail, res0, res1⟩
  exact ⟨s.deliver_says _, s.deliver_answers _, hf.trans hfin, hr, hw⟩

/-- The state in which a command that waited alone has been taken. -/
def State.taken (s : State) : State := s.setHif { s.hif with accepted := [] }

theorem State.taken_canAnswer {s : State} {src : CmdSrc} {d : AdminDesc} (h : s.waitsFor src d) : s.taken.canAnswer src := h.2.2.2.2

/-- The only command that waits is taken, whoever may be told of it. -/
theorem State.runAccepted_alone {s : State} {src : CmdSrc} {d : AdminDesc} (hlatch : s.latched = false) (hacc : s.hif.accepted = [⟨src, d⟩])
    (hmode : s.modeStatus d = 0) {p : AdminDesc → Bool} (hp : p d = true) (f : AdminCmd → State → State) : s.runAccepted p f = .next (f ⟨src, d⟩ s.taken) := by
  have hturn : s.takeCmd p = some (⟨src, d⟩, s.taken) := by
    have hfirst : firstTurn p false [⟨src, d⟩] = some ⟨src, d⟩ := by simp [firstTurn, hp]
    unfold State.takeCmd
    rw [hacc, hfirst]
    simp [State.taken]
  have hm : s.taken.modeStatus d = 0 := hmode
  unfold State.runAccepted
  rw [hlatch]
  simp [hturn, hm]

theorem State.runAccepted_taken {s : State} {src : CmdSrc} {d : AdminDesc} (h : s.waitsFor src d) {p : AdminDesc → Bool} (hp : p d = true)
    (f : AdminCmd → State → State) : s.runAccepted p f = .next (f ⟨src, d⟩ s.taken) := by
  obtain ⟨hlatch, hacc, hmode, -, -⟩ := h
  exact State.runAccepted_alone hlatch hacc hmode hp f

/-- A command that waits alone and is answered with a state of its own. -/
theorem completes_accepted {i : Instr} {s : State} {src : CmdSrc} {d : AdminDesc} {p : AdminDesc → Bool} {f : AdminCmd → State → State} {P : State → Prop}
    (hi : exec i s = s.runAccepted p f) (h : s.waitsFor src d) (hp : p d = true) (hP : P (f ⟨src, d⟩ s.taken)) : Completes i s P :=
  ⟨_, hi.trans (State.runAccepted_taken h hp f), hP⟩

end

/-! ## Commands that answer at once (R383) -/

section

variable {src : CmdSrc} {d : AdminDesc} {s : State} (h : s.waitsFor src d)

theorem State.opHost_of (s : State) {d : AdminDesc} {op : Nat} (hop : d.op = op) (hb : s.hif.bme = true) : s.opHost op d = true := by
  simp [State.opHost, hop, hb]

/-- Bytes are written to the buffer of a command before it is answered. -/
theorem State.hostWrite_answered (u : State) (bytes : List Byte) (hfree : u.canAnswer src) (hfin : u.hif.finished = []) (status res0 : Nat) :
    let t := (u.hostWrite d.addr.toNat bytes).complete src status 0 res0 0
    t.says src status 0 res0 0 ∧ ∃ ws, t.hif.writes = u.hif.writes ++ ⟨d.addr.toNat, bytes⟩ :: ws := by
  have ha := State.complete_answered (s := u.hostWrite d.addr.toNat bytes) (src := src) hfree hfin status 0 res0 0
  obtain ⟨ws, hws⟩ := ha.writes
  exact ⟨ha.answer, ws, by rw [hws]; simp [State.hostWrite]⟩

/-- A report goes to the buffer where it fits, else its length is told. -/
theorem State.report_answered (u : State) (bytes : List Byte) (hfree : u.canAnswer src) (hfin : u.hif.finished = []) :
    (d.len.toNat < bytes.length → (u.report ⟨src, d⟩ bytes).says src 2 0 bytes.length 0) ∧
    (bytes.length ≤ d.len.toNat → (u.report ⟨src, d⟩ bytes).says src 0 0 bytes.length 0 ∧
      ∃ ws, (u.report ⟨src, d⟩ bytes).hif.writes = u.hif.writes ++ ⟨d.addr.toNat, bytes⟩ :: ws) := by
  unfold State.report
  refine ⟨fun hl => ?_, fun hl => ?_⟩
  · rw [if_pos hl]
    exact (State.complete_answered hfree hfin 2 0 _ 0).answer
  · rw [if_neg (Nat.not_lt.mpr hl)]
    exact u.hostWrite_answered bytes hfree hfin 0 _

theorem freeBytes_length (ctr n : Nat) : (freeBytes ctr n).length = n := by simp [freeBytes]

include h

theorem State.taken_answered (status detail res0 res1 : Nat) :
    State.Answered src status detail res0 res1 s.taken (s.taken.complete src status detail res0 res1) :=
  State.complete_answered (State.taken_canAnswer h) h.2.2.2.1 _ _ _ _

theorem completes_nopCommand (hop : d.op = 0x01) :
    Completes .nopCommand s (fun t => t.says src 0 0 0 0 ∧ t.hif.accepted = [] ∧ t.mode = s.mode) := by
  have ha := State.taken_answered h 0 0 0 0
  exact completes_accepted rfl h (by simp [isOp, hop]) ⟨ha.answer, ha.rest.accepted, ha.rest.mode⟩

theorem completes_query (hop : d.op = 0x02) (hb : s.hif.bme = true) :
    Completes .query s (fun t => t.says src 0 0 0 0 ∧ ∃ ws, t.hif.writes = s.hif.writes ++ ⟨d.addr.toNat, s.queryRecord⟩ :: ws) :=
  completes_accepted rfl h (s.opHost_of hop hb) (s.taken.hostWrite_answered s.queryRecord (State.taken_canAnswer h) h.2.2.2.1 0 0)

theorem completes_bistReport (hop : d.op = 0x31) (hb : s.hif.bme = true) :
    (∀ e, s.bistReport (d.arg0.getLsbD 0) d.arg1.toNat = .error e → Completes .bistReport s (fun t => t.says src e.1 e.2 0 0)) ∧
    (∀ bytes, s.bistReport (d.arg0.getLsbD 0) d.arg1.toNat = .ok bytes →
      (d.len.toNat < bytes.length → Completes .bistReport s (fun t => t.says src 2 0 bytes.length 0)) ∧
      (bytes.length ≤ d.len.toNat → Completes .bistReport s (fun t => t.says src 0 0 bytes.length 0 ∧
        ∃ ws, t.hif.writes = s.hif.writes ++ ⟨d.addr.toNat, bytes⟩ :: ws))) := by
  have hsame : s.taken.bistReport (d.arg0.getLsbD 0) d.arg1.toNat = s.bistReport (d.arg0.getLsbD 0) d.arg1.toNat := rfl
  refine ⟨fun e he => completes_accepted rfl h (s.opHost_of hop hb) ?_, fun bytes hbytes => ?_⟩
  · dsimp only
    rw [hsame, he]
    exact (State.taken_answered h e.1 e.2 0 0).answer
  · obtain ⟨hshort, hfits⟩ := s.taken.report_answered (d := d) bytes (State.taken_canAnswer h) h.2.2.2.1
    refine ⟨fun hl => completes_accepted rfl h (s.opHost_of hop hb) ?_, fun hl => completes_accepted rfl h (s.opHost_of hop hb) ?_⟩
    · dsimp only
      rw [hsame, hbytes]
      exact hshort hl
    · dsimp only
      rw [hsame, hbytes]
      exact hfits hl

theorem completes_scrubReport (hop : d.op = 0x40) (hb : s.hif.bme = true) :
    Completes .scrubReport s (fun t => ∃ bytes ws, bytes.length ≤ d.len.toNat ∧ t.says src 0 0 bytes.length 0 ∧
      t.hif.writes = s.hif.writes ++ ⟨d.addr.toNat, bytes⟩ :: ws) := by
  refine completes_accepted rfl h (s.opHost_of hop hb) ?_
  have hlen : (s.taken.scrubReport d.len.toNat).1.length ≤ d.len.toNat := by
    unfold State.scrubReport
    dsimp only
    rw [freeBytes_length]
    exact Nat.le_of_lt_succ (Nat.mod_lt _ (Nat.succ_pos _))
  obtain ⟨hsays, ws, hws⟩ := ((s.taken.scrubReport d.len.toNat).2.report_answered (d := d) _ (State.taken_canAnswer h) h.2.2.2.1).2 hlen
  exact ⟨_, ws, hlen, hsays, hws⟩

theorem completes_spareMap (hop : d.op = 0x50) (harg : d.arg0.getLsbD 1 = false) :
    let bytes := if d.arg0.getLsbD 0 then s.mapBytesInUse else s.countRecord
    s.hif.bme = true →
    (d.len.toNat < bytes.length → Completes .spareMap s (fun t => t.says src 2 0 bytes.length 0)) ∧
    (bytes.length ≤ d.len.toNat → Completes .spareMap s (fun t => t.says src 0 0 bytes.length 0 ∧
      ∃ ws, t.hif.writes = s.hif.writes ++ ⟨d.addr.toNat, bytes⟩ :: ws)) := by
  intro bytes hb
  have hp : (s.opHost 0x50 d && ! d.arg0.getLsbD 1) = true := by rw [s.opHost_of hop hb, harg]; rfl
  obtain ⟨hshort, hfits⟩ := s.taken.report_answered (d := d) bytes (State.taken_canAnswer h) h.2.2.2.1
  exact ⟨fun hl => completes_accepted rfl h hp (hshort hl), fun hl => completes_accepted rfl h hp (hfits hl)⟩

end

/-! ## The mailbox (R386) and completions that wait -/

section

theorem State.setHif_self (s : State) : s.setHif s.hif = s := rfl

/-- A command of the mailbox is answered at once, whatever waits for a ring. -/
theorem State.complete_mailbox_says (s : State) (status detail res0 res1 : Nat) :
    (s.complete .mailbox status detail res0 res1).says .mailbox status detail res0 res1 ∧
      (s.complete .mailbox status detail res0 res1).hif.accepted = s.hif.accepted := by
  have hdel (u : State) : u.deliverable ⟨.mailbox, true, status, detail, res0, res1⟩ = true := rfl
  unfold State.complete
  simp only [hdel, Bool.or_true, Bool.and_self, if_true]
  exact ⟨State.deliver_says _ ⟨.mailbox, true, status, detail, res0, res1⟩, (State.deliver_answers _ _).accepted⟩

theorem mailbox_go (op : BitVec 8) : (BitVec.ofNat 32 (op.toNat + 256)).getLsbD 8 = true := by
  rw [BitVec.getLsbD_ofNat, Nat.testBit_eq_decide_div_mod_eq]
  have := op.isLt
  simp only [decide_eq_true_eq, Bool.and_eq_true]
  omega

variable {s : State} {op : BitVec 8}

/-- The state once the opcode of a command stands in the mailbox. -/
def State.withOpcode (s : State) (op : BitVec 8) : State := s.put F.HIF_MBOX_CMD_opcode (BitVec.ofNat 32 (op.toNat + 256)).toNat

theorem State.withOpcode_mboxDesc : (s.withOpcode op).mboxDesc = { s.mboxDesc with opcode := op } := by
  have harg (k : Nat) : (s.withOpcode op).rd (R.HIF_MBOX_ARG k) = s.rd (R.HIF_MBOX_ARG k) :=
    State.rd_put_ne _ _ _ _ (by simp only [F.HIF_MBOX_CMD_opcode, R.HIF_MBOX_ARG, R.HIF_MBOX_CMD]; omega)
  have hop : BitVec.ofNat 8 ((s.withOpcode op).get F.HIF_MBOX_CMD_opcode) = op := by
    refine BitVec.eq_of_toNat_eq ?_
    rw [State.withOpcode, State.get_put_self _ _ rfl, BitVec.toNat_ofNat, BitVec.toNat_ofNat]
    have := op.isLt
    simp only [F.HIF_MBOX_CMD_opcode]
    omega
  unfold State.mboxDesc
  rw [harg, harg, harg, harg, hop]

/-- What a command must meet depends on the mode, the loads, the directory and the regions, on no register of the host interface. -/
theorem State.firstCheck_put (s : State) {f : RF} (hf : 0x20000 ≤ f.off) (hf' : f.off < 0x30000) (v : Nat) (host : Bool) (d : AdminDesc) :
    (s.put f v).firstCheck host d = s.firstCheck host d := by
  have hget (g : RF) (hg : g.off < 0x20000 ∨ 0x30000 ≤ g.off) : (s.put f v).get g = s.get g := State.get_of_rd (State.rd_put_ne _ _ _ _ (by omega))
  have hdir : (s.put f v).directory = s.directory := by
    unfold State.directory
    rw [hget _ (by decide)]
    rfl
  have hidle (m : Nat) : (s.put f v).setIdle m = s.setIdle m := by
    have hregion (n : Nat) := hget (F.REGION_PR_STS_state n) (Or.inr (Nat.le_add_right_of_le (by decide)))
    unfold State.setIdle
    simp only [hregion]
  have hmode : (s.put f v).modeStatus d = s.modeStatus d := by
    unfold State.modeStatus
    simp only [hidle]
    rfl
  have hfits : (s.put f v).entryFits d = s.entryFits d := by
    unfold State.entryFits
    rw [hdir]
  unfold State.firstCheck
  rw [hmode, hfits]
  rfl

theorem State.mboxWrite_busy (hb : s.get F.HIF_MBOX_CMD_busy = 1) :
    s.mboxWrite (BitVec.ofNat 32 (op.toNat + 256)) = s.withOpcode op := by
  have hbusy : (s.withOpcode op).on F.HIF_MBOX_CMD_busy = true := State.on_of_one (by rw [State.withOpcode, State.get_put_apart _ _ rfl, hb])
  exact if_pos (Or.inr hbusy)

theorem State.mboxWrite_go (hb : s.get F.HIF_MBOX_CMD_busy = 0) :
    s.mboxWrite (BitVec.ofNat 32 (op.toNat + 256)) =
      ((s.withOpcode op).put F.HIF_MBOX_CMD_busy 1).enroll .mailbox { s.mboxDesc with opcode := op } := by
  have hbusy : (s.withOpcode op).on F.HIF_MBOX_CMD_busy = false := State.on_of_zero (by rw [State.withOpcode, State.get_put_apart _ _ rfl, hb])
  rw [← State.withOpcode_mboxDesc]
  exact if_neg (show ¬ ((!(BitVec.ofNat 32 (op.toNat + 256)).getLsbD 8) = true ∨ (s.withOpcode op).on F.HIF_MBOX_CMD_busy = true) by rw [mailbox_go, hbusy]; decide)

theorem completes_mailboxGo (ho : s.barOpen R.HIF_MBOX_CMD = true) :
    let d : AdminDesc := { s.mboxDesc with opcode := op }
    (s.get F.HIF_MBOX_CMD_busy = 1 → Completes (.mailboxGo op) s (fun t => t.hif = s.hif ∧ t.get F.HIF_MBOX_CMD_busy = 1)) ∧
    (s.get F.HIF_MBOX_CMD_busy = 0 → (s.firstCheck false d).1 = 0 → Completes (.mailboxGo op) s (fun t =>
      t.get F.HIF_MBOX_CMD_busy = 1 ∧ t.hif.accepted = s.hif.accepted ++ [⟨.mailbox, d⟩])) ∧
    (s.get F.HIF_MBOX_CMD_busy = 0 → (s.firstCheck false d).1 ≠ 0 → Completes (.mailboxGo op) s (fun t =>
      t.says .mailbox (s.firstCheck false d).1 0 (s.firstCheck false d).2 0 ∧ t.hif.accepted = s.hif.accepted)) := by
  intro d
  have hcheck : ((s.withOpcode op).put F.HIF_MBOX_CMD_busy 1).firstCheck false d = s.firstCheck false d :=
    (State.firstCheck_put _ (by decide) (by decide) _ _ _).trans (State.firstCheck_put _ (by decide) (by decide) _ _ _)
  refine ⟨fun hb => completes_bar rfl ho ?_, fun hb hc => completes_bar rfl ho ?_, fun hb hc => completes_bar rfl ho ?_⟩
  · rw [State.mboxWrite_busy hb]
    exact ⟨rfl, (State.get_put_apart _ _ rfl).trans hb⟩
  · rw [State.mboxWrite_go hb]
    unfold State.enroll
    simp only [hcheck, d, hc, ne_eq, not_true_eq_false, if_false]
    exact ⟨(State.setHif_get _ _ _).trans (State.get_put_lit _ rfl), rfl⟩
  · rw [State.mboxWrite_go hb]
    unfold State.enroll
    simp only [hcheck, d, hc, ne_eq, not_false_eq_true, if_true]
    exact State.complete_mailbox_says _ _ _ _ _

theorem completes_adminCommandDone {c : Completion} (hf : s.hif.finished = [c]) (hr : s.hif.running = []) (hd : s.deliverable c = true) :
    Completes .adminCommandDone s (fun t => t.hif.finished = [] ∧ t.says c.src c.status c.detail c.res0 c.res1) := by
  have hsame : s.switchesDone = s := by simp [State.switchesDone, hr]
  refine ⟨(s.setHif { s.hif with finished := [] }).deliver c, ?_, ?_⟩
  · show execAdminCommandDone s = _
    unfold execAdminCommandDone
    simp [hsame, hf, hd]
  · exact ⟨(State.deliver_hif _ c).1, State.deliver_says _ c⟩

theorem completes_adminCommandDone_switch {src : CmdSrc} {d : AdminDesc} (hf : s.hif.finished = []) (hr : s.hif.running = [⟨src, d⟩]) (hop : d.op = 0x21)
    (hb : s.get (F.CAD_TRK_SW_busy (d.arg0.toNat % 8)) = 0) (hfree : ∀ cid slot, src = .ring cid slot → s.ringFree 1 = true) :
    Completes .adminCommandDone s (fun t => t.hif.running = [] ∧
      t.says src (if s.get (F.CAD_TRK_SW_result (d.arg0.toNat % 8)) = 1 then 0 else 7) 0 0 0) := by
  have hdel (u : State) (hu : u.ringFree 1 = s.ringFree 1) (c : Completion) (hc : c.src = src) : u.deliverable c = true := by
    unfold State.deliverable
    rw [hc]
    cases src with
    | ring cid slot => exact hu.trans (hfree cid slot rfl)
    | _ => rfl
  generalize hst : (if s.get (F.CAD_TRK_SW_result (d.arg0.toNat % 8)) = 1 then 0 else 7) = st
  have hdone : s.switchesDone = s.finishLater src st 0 := by
    unfold State.switchesDone
    simp [hr, hf, hop, State.on_of_zero hb, hst]
  refine ⟨((s.finishLater src st 0).setHif { (s.finishLater src st 0).hif with finished := [] }).deliver ⟨src, false, st, 0, 0, 0⟩, ?_, ?_⟩
  · show execAdminCommandDone s = _
    have hfin : (s.finishLater src st 0).hif.finished = [⟨src, false, st, 0, 0, 0⟩] := by simp [State.finishLater, hf]
    unfold execAdminCommandDone
    have hd := hdel (s.finishLater src st 0) rfl ⟨src, false, st, 0, 0, 0⟩ rfl
    simp [hdone, hfin, hd]
  · refine ⟨?_, State.deliver_says _ ⟨src, false, st, 0, 0, 0⟩⟩
    rw [(State.deliver_hif _ _).2.1]
    simp [State.finishLater, hr]

end

/-- Settles O40: the answer of each command is what its completion holds, at once or once it can be delivered. -/
theorem adminCommandsAnswer : Obligations.AdminCommandsAnswer := by
  unfold Obligations.AdminCommandsAnswer
  exact ⟨fun _ _ _ => completes_nopCommand, fun _ _ _ => completes_query, fun _ _ _ => completes_bistReport, fun _ _ _ => completes_scrubReport,
    fun _ _ _ => completes_spareMap, fun _ _ => completes_mailboxGo, fun _ _ => completes_adminCommandDone, fun _ _ _ => completes_adminCommandDone_switch⟩

end Sys2Proof.Machine

end

section

/-! SUPPORT. The rings of the host (chapter 13): what work on one ring keeps of it, and what its return of descriptors leaves. -/

namespace Sys2Proof.Machine

@[simp] theorem State.ring_setRing (s : State) (n : Nat) (r : Ring) : (s.setRing n r).ring n = r := SMap.get_set_same _ _ _ _

theorem State.ring_setRing_ne (s : State) {n m : Nat} (r : Ring) (h : m ≠ n) : (s.setRing n r).ring m = s.ring m := SMap.get_set_ne _ _ _ _ _ h

theorem State.ring_congr {s t : State} (h : t.hif = s.hif) (n : Nat) : t.ring n = s.ring n := by rw [State.ring, h, State.ring]

@[simp] theorem State.put_ring (s : State) (f : RF) (v n : Nat) : (s.put f v).ring n = s.ring n := rfl
@[simp] theorem State.setXq_ring (s : State) (q : Nat) (x : Xq) (n : Nat) : (s.setXq q x).ring n = s.ring n := rfl
@[simp] theorem State.hostWrite_ring (s : State) (a : Nat) (l : List Byte) (n : Nat) : (s.hostWrite a l).ring n = s.ring n := rfl
@[simp] theorem State.msixSend_ring (s : State) (v n : Nat) : (s.msixSend v).ring n = s.ring n := by
  unfold State.msixSend
  split <;> rfl

theorem State.ringEntry_ring_ne (s : State) {n m : Nat} (h : m ≠ n) : (s.ringEntry n).ring m = s.ring m := by
  unfold State.ringEntry
  dsimp only
  split
  · rw [State.msixSend_ring, State.ring_setRing_ne _ _ h]
  · rw [State.ring_setRing_ne _ _ h]

/-- An entry counts as not signalled yet, or all of them are (R379). -/
theorem State.ringEntry_ring (s : State) (n : Nat) : ∃ k, (s.ringEntry n).ring n = { s.ring n with unsig := k } := by
  unfold State.ringEntry
  dsimp only
  split
  · exact ⟨0, by rw [State.msixSend_ring, State.ring_setRing]⟩
  · exact ⟨_, State.ring_setRing _ _ _⟩

@[simp] theorem State.ringEntry_regs (s : State) (n : Nat) : (s.ringEntry n).regs = s.regs := by
  unfold State.ringEntry State.msixSend
  dsimp only
  split
  · split <;> rfl
  · rfl

@[simp] theorem State.ringEntry_bme (s : State) (n : Nat) : (s.ringEntry n).hif.bme = s.hif.bme := by
  unfold State.ringEntry State.msixSend
  dsimp only
  split
  · split <;> rfl
  · rfl

@[simp] theorem State.ringAdvance_ring (s : State) (n m : Nat) : (s.ringAdvance n).ring m = s.ring m := State.ring_congr (s.ringAdvance_hif n) m

theorem State.eventRing_ring (s : State) (id param : Nat) (remote : Bool) (origin : Nat) {n : Nat} (h : n ≠ 2) :
    (s.eventRing id param remote origin).ring n = s.ring n := by
  have hwrite (e : List Byte) : (s.ringWrite 2 4 e).ring n = s.ring n := by
    unfold State.ringWrite State.putB State.inc
    dsimp only
    rw [State.ringEntry_ring_ne _ h]
    simp
  unfold State.eventRing
  split
  · rfl
  · split
    · exact (State.ring_congr rfl n).trans (hwrite _)
    · rfl

/-- An event uses no ring but the third (R394). -/
theorem State.raise_ring (s : State) (id param : Nat) {n : Nat} (h : n ≠ 2) : (s.raise id param).ring n = s.ring n := by
  have hlog : (s.logAdd (.event id param)).ring n = s.ring n := rfl
  have hprint (u : State) (l : List ConOut) : (u.print l).ring n = u.ring n := State.ring_congr (by simp) n
  have hpel (u : State) (e : List (Nat × Nat)) : ({ u with pel := { u.pel with events := e } } : State).ring n = u.ring n := rfl
  unfold State.raise
  dsimp only
  rw [State.eventRing_ring _ _ _ _ _ h]
  (repeat' split) <;> simp only [hpel, hprint, hlog]

theorem State.raiseFree_ring (s : State) (id : Nat) {n : Nat} (h : n ≠ 2) : (s.raiseFree id).ring n = s.ring n := State.raise_ring _ id _ h

/-! ## Words fed to a queue -/

/-- The registers that words pushed into queues change: those of the queues, and those of events. -/
def feedReg (off : Nat) : Word := if 0xA0000 ≤ off ∧ off < 0x100000 ∨ eventReg off = true then BitVec.allOnes 32 else 0

theorem feedReg_xq {off : Nat} (h : 0xA0000 ≤ off) (h' : off < 0x100000) : feedReg off = BitVec.allOnes 32 := if_pos (Or.inl ⟨h, h'⟩)

/-- Words pushed into queues leave the other registers, and of a ring other than that of events all. -/
abbrev State.Feeds (n : Nat) (s t : State) : Prop := s.Alters feedReg (fun u => (u.hif.bme, u.ring n)) t

theorem feedReg_eventful : Eventful feedReg (fun _ : State => ()) := ⟨fun _ h => if_pos (Or.inr h), fun _ => rfl⟩

section

variable {n q : Nat} (hn : n ≠ 2) (hq : q < 64) (s : State)

include hn in
theorem State.raiseFree_feeds (id : Nat) : s.Feeds n (s.raiseFree id) := by
  have h := State.Alters.raiseFree feedReg_eventful (s := s) id
  exact ⟨h.bit, h.log, Prod.ext (by simp) (s.raiseFree_ring id hn)⟩

theorem State.setXq_feeds (q : Nat) (x : Xq) : s.Feeds n (s.setXq q x) := .of_same rfl rfl rfl

include hq in
theorem State.putXq_feeds {f : RF} {a : Nat} (v : Nat) (hf : f.off = a + 0x400 * q) (ha : 0xA0000 ≤ a) (hb : a < 0xA0400) : s.Feeds n (s.put f v) :=
  .put v (by rw [feedReg_xq (by omega) (by omega), and_not_allOnes]) rfl

include hq in
theorem State.xqSync_feeds : s.Feeds n (s.xqSync q) := by
  have hsts (u : State) (lo w v : Nat) : u.Feeds n (u.put ⟨R.XQ_STS q, lo, w⟩ v) := u.putXq_feeds hq (a := 0xA0008) v rfl (by decide) (by decide)
  unfold State.xqSync State.putB
  exact ((((hsts _ _ _ _).trans (hsts _ _ _ _)).trans (hsts _ _ _ _)).trans (hsts _ _ _ _)).trans (hsts _ _ _ _)

include hq in
theorem State.xqStore_feeds (w : XWord) : s.Feeds n (s.xqStore q w) := by
  have hput (u : State) (v : Nat) : u.Feeds n (u.put (F.XQ_PUSHED_count q) v) := u.putXq_feeds hq (a := 0xA000C) v rfl (by decide) (by decide)
  exact ((s.setXq_feeds q _).trans (hput _ _)).trans (State.xqSync_feeds hq _)

include hn hq in
theorem State.xqPush_feeds (d : BitVec 128) (sb : BitVec 16) : s.Feeds n (s.xqPush q d sb) := by
  have hput (u : State) (v : Nat) : u.Feeds n (u.put (F.XQ_DISCARD_count q) v) := u.putXq_feeds hq (a := 0xA0018) v rfl (by decide) (by decide)
  have hopen (u : State) (b : Bool) : u.Feeds n (u.putB (F.XQ_STS_open_w q) b) := u.putXq_feeds hq (a := 0xA0008) _ rfl (by decide) (by decide)
  unfold State.xqPush State.inc
  dsimp only
  split
  · refine ((s.setXq_feeds q _).trans (hput _ _)).trans (.ite (fun _ => ?_) fun _ => .refl _ _ _)
    exact State.raiseFree_feeds hn _ _
  · exact ((s.setXq_feeds q _).trans (hopen _ _)).trans (State.xqStore_feeds hq _ _)

include hn hq in
theorem State.xqDrain_feeds (k : Nat) : s.Feeds n (State.xqDrain k s q) := by
  induction k generalizing s with
  | zero => exact .refl _ _ _
  | succ k ih =>
    unfold State.xqDrain
    split
    · exact .refl _ _ _
    · exact .ite (fun _ => .refl _ _ _) fun _ => ((s.setXq_feeds q _).trans (State.xqPush_feeds hn hq _ _ _)).trans (ih _)

include hn hq in
theorem State.xqFeed_feeds (ws : List (BitVec 128 × BitVec 16)) : s.Feeds n (s.xqFeed q ws) := (s.setXq_feeds q _).trans (State.xqDrain_feeds hn hq _ _)

end

theorem State.ringQueue_lt {s : State} {n q : Nat} (h : s.ringQueue n = some q) : q < 64 := by
  have hof {base : Nat} {u : Nat × Nat × Nat} (hb : base ≤ 32) (h : s.queueOf base u = some q) : q < 64 := by
    obtain ⟨i, hi, rfl⟩ := List.mem_map.mp (List.mem_of_find?_eq_some h)
    have := List.mem_range.mp hi
    omega
  unfold State.ringQueue at h
  split at h
  · exact hof (by decide) h
  · exact hof (by decide) h

/-! ## Work on one ring -/

/-- The registers that work on ring n may change: all but its base address and its configuration. -/
def besideRing (n off : Nat) : Word := if 0x21000 + 0x40 * n ≤ off ∧ off < 0x2100C + 0x40 * n then 0 else BitVec.allOnes 32

theorem besideRing_out {n off : Nat} (h : off < 0x21000 + 0x40 * n ∨ 0x2100C + 0x40 * n ≤ off) : besideRing n off = BitVec.allOnes 32 := if_neg (by omega)

/-- Work on ring n: its configuration stays, and nothing waits for bus mastering where it is on (R374). -/
abbrev State.Works (n : Nat) (s t : State) : Prop := s.Alters (besideRing n) (fun u => (u.hif.bme, if u.hif.bme then (u.ring n).late else [])) t

theorem State.Works.bme {n : Nat} {s t : State} (h : s.Works n t) : t.hif.bme = s.hif.bme := congrArg Prod.fst h.part
theorem State.Works.late {n : Nat} {s t : State} (h : s.Works n t) (hb : s.hif.bme = true) : (t.ring n).late = (s.ring n).late := by
  have hl := congrArg Prod.snd h.part
  dsimp only at hl
  rwa [h.bme, hb, if_pos rfl, if_pos rfl] at hl

theorem State.Works.own {n : Nat} {s t : State} (h : s.Works n t) {f : RF} (hf : 0x21000 + 0x40 * n ≤ f.off) (hf' : f.off < 0x2100C + 0x40 * n) : t.get f = s.get f :=
  State.Alters.get_of_zero h (if_pos ⟨hf, hf'⟩)

theorem State.Feeds.works {n : Nat} {s t : State} (h : s.Feeds n t) (hn : 2 < n) (hn' : n < 96) : s.Works n t := by
  refine h.mono (fun off i hi => ?_) fun a b hab => ?_
  · by_cases hw : 0x21000 + 0x40 * n ≤ off ∧ off < 0x2100C + 0x40 * n
    · have hzero : feedReg off = 0 := by
        refine if_neg ?_
        simp only [eventReg, R.HIF_EVT_LOST, R.HIF_RING_STS, R.HIF_RING_CNT, R.HIF_RING_OWN, Bool.or_eq_true, beq_iff_eq]
        omega
      rw [hzero]
      exact BitVec.getLsbD_zero
    · rw [besideRing_out (by omega), BitVec.getLsbD_allOnes, decide_eq_false_iff_not] at hi
      exact BitVec.getLsbD_of_ge _ _ (by omega)
  · obtain ⟨hb, hr⟩ := Prod.ext_iff.mp hab
    dsimp only at hb hr ⊢
    rw [hb, hr]

section

variable {n : Nat} (hn : 2 < n) (hn' : n < 96) (s : State)

theorem State.putRing_works {f : RF} {a : Nat} (v : Nat) (hf : f.off = a + 0x40 * n) (ha : 0x2100C ≤ a) : s.Works n (s.put f v) :=
  .put v (by rw [besideRing_out (by omega), and_not_allOnes]) rfl

theorem State.setRing_works (r : Ring) (h : s.hif.bme = true → r.late = (s.ring n).late) : s.Works n (s.setRing n r) := by
  refine .of_same rfl rfl (Prod.ext rfl ?_)
  show (if s.hif.bme = true then ((s.setRing n r).ring n).late else []) = if s.hif.bme = true then (s.ring n).late else []
  rw [State.ring_setRing]
  split
  · next hb => exact h hb
  · rfl

theorem State.setXq_works (q : Nat) (x : Xq) : s.Works n (s.setXq q x) := .of_same rfl rfl rfl
theorem State.hostWrite_works (a : Nat) (l : List Byte) : s.Works n (s.hostWrite a l) := .of_same rfl rfl rfl

theorem State.ringEntry_works : s.Works n (s.ringEntry n) := by
  obtain ⟨k, hk⟩ := s.ringEntry_ring n
  exact .of_same (s.ringEntry_regs n) (by unfold State.ringEntry State.msixSend; dsimp only; (repeat' split) <;> rfl)
    (Prod.ext (s.ringEntry_bme n) (by dsimp only; rw [s.ringEntry_bme n, hk]))

theorem State.descReturn_works (d : DataDesc) (status : Nat) : s.Works n (s.descReturn n d status) := by
  have hcnt (u : State) (v w : Nat) : u.Works n ((u.put (F.HIF_RING_CNT_count n) v).put (F.HIF_RING_OWN_dev_owned n) w) :=
    (u.putRing_works (f := F.HIF_RING_CNT_count n) (a := 0x21010) v rfl (by decide)).trans
      (State.putRing_works _ (f := F.HIF_RING_OWN_dev_owned n) (a := 0x21014) w rfl (by decide))
  have hw (c : Bool) (a b : Nat) (x y : List Byte) : s.Works n (if c = true then s.hostWrite a x else s.hostWrite b y) :=
    .ite (fun _ => s.hostWrite_works a x) fun _ => s.hostWrite_works b y
  unfold State.descReturn State.inc
  exact .ite (fun _ => ((hw _ _ _ _ _).trans (hcnt _ _ _)).trans (State.ringEntry_works _)) fun _ => (hw _ _ _ _ _).trans (hcnt _ _ _)

theorem State.ringReturn_works (d : DataDesc) (status : Nat) : s.Works n (s.ringReturn n d status) := by
  unfold State.ringReturn
  have hset (r : Ring) (hr : r.late = (s.ring n).late) : s.Works n (s.setRing n r) := s.setRing_works r fun _ => hr
  refine .ite (fun _ => .trans (hset _ ?_) (State.descReturn_works _ d status)) fun hb => s.setRing_works _ fun hb' => absurd hb' hb
  rfl

include hn hn' in
theorem State.h2fAbandon_works : s.Works n (s.h2fAbandon n) := by
  unfold State.h2fAbandon
  split
  · exact s.setRing_works _ fun _ => rfl
  · next q hq =>
    have hset (r : Ring) (u : State) (hr : r.late = (u.ring n).late) : u.Works n (u.setRing n r) := u.setRing_works r fun _ => hr
    have hn2 : n ≠ 2 := by omega
    refine .ite (fun _ => s.setXq_works q _) fun _ => ?_
    refine .trans (.trans (s.setXq_works q _) (hset _ _ ?_)) (State.Feeds.works (State.xqFeed_feeds hn2 (State.ringQueue_lt hq) _ _) hn hn')
    rfl

theorem State.abandonIf_works (hn : 2 < n) (hn' : n < 96) : s.Works n (if isH2f n = true then s.h2fAbandon n else s) :=
  .ite (fun _ => s.h2fAbandon_works hn hn') fun _ => .refl _ _ _

include hn hn' in
theorem State.ringSettle_works (k : Nat) : s.Works n (State.ringSettle k s n) := by
  induction k generalizing s with
  | zero => exact .refl _ _ _
  | succ k ih =>
    unfold State.ringSettle
    split
    · exact .refl _ _ _
    · refine .ite (fun _ => .refl _ _ _) fun _ => ?_
      split
      · exact .refl _ _ _
      · exact ((s.abandonIf_works hn hn').trans (State.ringReturn_works _ _ _)).trans (ih _)

include hn hn' in
theorem State.f2hWord_works : s.Works n (s.f2hWord n) := by
  have hsettle (u : State) : u.Works n (u.settle n) := u.ringSettle_works hn hn' _
  have hret (u : State) (d : DataDesc) (st : Nat) : u.Works n (u.ringReturn n d st) := u.ringReturn_works d st
  have hgone (q : Nat) (x : Xq) : s.Works n (s.setXq q x) := s.setXq_works q x
  have hset (r : Ring) (u : State) (hr : r.late = (u.ring n).late) : u.Works n (u.setRing n r) := u.setRing_works r fun _ => hr
  unfold State.f2hWord
  split
  · split
    · exact .refl _ _ _
    · dsimp only
      refine .ite (fun _ => .ite (fun _ => hret _ _ _) fun _ => ((hgone _ _).trans (hret _ _ _)).trans (hsettle _)) fun _ => ?_
      refine .ite (fun _ => ((hgone _ _).trans (hret _ _ _)).trans (hsettle _)) fun _ => ?_
      refine .ite (fun _ => (hret _ _ _).trans (hsettle _)) fun _ => ?_
      refine .ite (fun _ => (((hgone _ _).trans (State.hostWrite_works _ _ _)).trans (hret _ _ _)).trans (hsettle _)) fun _ => ?_
      exact ((hgone _ _).trans (State.hostWrite_works _ _ _)).trans (hset _ _ rfl)
  · exact .refl _ _ _

end

/-! ## Descriptors returned -/

/-- The bytes that return a descriptor to its slot (Tables 13.5 and 13.7). -/
def State.slotReturn (s : State) (n : Nat) (d : DataDesc) (st : Nat) : HostWrite :=
  let tail := [(d.flags &&& 0xFD) ||| (if d.flags.getLsbD 0 then 2 else 0), d.tag.setWidth 8, BitVec.ofNat 8 st, 0] ++ le 4 d.words
  if isH2f n then ⟨s.slotAddr n d.slot + 0xC, tail⟩ else ⟨s.slotAddr n d.slot + 8, le 4 d.bytes ++ tail⟩

section

variable {n : Nat} (s : State) (d : DataDesc) (st : Nat)

theorem State.descReturn_writes : (s.descReturn n d st).hif.writes = s.hif.writes ++ [s.slotReturn n d st] := by
  unfold State.descReturn State.inc State.slotReturn
  dsimp only
  split <;> split <;> simp [State.hostWrite]

theorem State.descReturn_ring : ∃ k, (s.descReturn n d st).ring n = { s.ring n with unsig := k } := by
  have hw (c : Bool) (a b : Nat) (x y : List Byte) : (if c = true then s.hostWrite a x else s.hostWrite b y).ring n = s.ring n := by split <;> rfl
  unfold State.descReturn State.inc
  dsimp only
  split
  · obtain ⟨k, hk⟩ := State.ringEntry_ring (State.put _ (F.HIF_RING_OWN_dev_owned n) _) n
    exact ⟨k, by rw [hk]; simp [hw]⟩
  · exact ⟨(s.ring n).unsig, by simp [hw]⟩

/-- The byte that tells the status of a returned descriptor. -/
theorem State.slotReturn_status : (s.slotReturn n d st).data.getD (if isH2f n then 2 else 6) 0 = BitVec.ofNat 8 st := by
  unfold State.slotReturn
  cases isH2f n <;> rfl

theorem State.ringReturn_owned : ((s.ringReturn n d st).ring n).owned = (s.ring n).owned.tail := by
  unfold State.ringReturn
  dsimp only
  split
  · obtain ⟨k, hk⟩ := State.descReturn_ring (n := n) (s.setRing n { s.ring n with owned := (s.ring n).owned.tail }) d st
    rw [hk, State.ring_setRing]
  · rw [State.ring_setRing]

theorem State.ringReturn_writes (hb : s.hif.bme = true) : (s.ringReturn n d st).hif.writes = s.hif.writes ++ [s.slotReturn n d st] := by
  unfold State.ringReturn
  dsimp only
  rw [if_pos hb, State.descReturn_writes]
  rfl

theorem State.ringReturn_late (hb : s.hif.bme = false) : s.ringReturn n d st = s.setRing n { s.ring n with owned := (s.ring n).owned.tail, late := (s.ring n).late ++ [(d, st)] } := by
  unfold State.ringReturn
  dsimp only
  rw [if_neg (by simp [hb])]

variable {d st}

theorem State.slotReturn_works {t : State} (h : s.Works n t) : t.slotReturn n d st = s.slotReturn n d st := by
  have haddr : t.slotAddr n d.slot = s.slotAddr n d.slot := by
    unfold State.slotAddr
    rw [h.own (f := F.HIF_RING_BASE_LO_base n) (by simp only [F.HIF_RING_BASE_LO_base, R.HIF_RING_BASE_LO]; omega) (by simp only [F.HIF_RING_BASE_LO_base, R.HIF_RING_BASE_LO]; omega),
      h.own (f := F.HIF_RING_BASE_HI_base n) (by simp only [F.HIF_RING_BASE_HI_base, R.HIF_RING_BASE_HI]; omega) (by simp only [F.HIF_RING_BASE_HI_base, R.HIF_RING_BASE_HI]; omega)]
  unfold State.slotReturn
  rw [haddr]

variable (st)

theorem State.ringBackAll_works (k : Nat) : s.Works n (State.ringBackAll k s n st) := by
  induction k generalizing s with
  | zero => exact .refl _ _ _
  | succ k ih =>
    unfold State.ringBackAll
    split
    · exact .refl _ _ _
    · exact (s.ringReturn_works _ _).trans (ih _)

theorem State.ringBackAll_owned (k : Nat) (hk : (s.ring n).owned.length = k) : ((State.ringBackAll k s n st).ring n).owned = [] := by
  induction k generalizing s with
  | zero => exact List.length_eq_zero_iff.mp hk
  | succ k ih =>
    unfold State.ringBackAll
    split
    · next h => rw [h] at hk; simp at hk
    · next d ds h => exact ih _ (by rw [State.ringReturn_owned, h]; simpa [h] using hk)

theorem State.ringBackAll_writes (hb : s.hif.bme = true) (k : Nat) (hk : (s.ring n).owned.length = k) :
    (State.ringBackAll k s n st).hif.writes = s.hif.writes ++ (s.ring n).owned.map (fun d => s.slotReturn n d st) := by
  induction k generalizing s with
  | zero => rw [List.length_eq_zero_iff.mp hk]; simp [State.ringBackAll]
  | succ k ih =>
    unfold State.ringBackAll
    split
    · next h => rw [h] at hk; simp at hk
    · next d ds h =>
      have hw := s.ringReturn_works (n := n) d st
      have howned := (s.ringReturn_owned (n := n) d st).trans (congrArg List.tail h)
      rw [ih _ (hw.bme.trans hb) (by rw [howned]; simpa [h] using hk), s.ringReturn_writes d st hb, howned]
      simp [h, s.slotReturn_works hw]

/-- Without bus mastering the descriptors wait for it (R374). -/
theorem State.ringBackAll_late (hb : s.hif.bme = false) (k : Nat) (hk : (s.ring n).owned.length = k) :
    let t := State.ringBackAll k s n st
    (t.ring n).late = (s.ring n).late ++ (s.ring n).owned.map (fun d => (d, st)) ∧ t.hif.writes = s.hif.writes ∧ t.regs = s.regs := by
  induction k generalizing s with
  | zero => rw [List.length_eq_zero_iff.mp hk]; simp [State.ringBackAll]
  | succ k ih =>
    unfold State.ringBackAll
    split
    · next h => rw [h] at hk; simp at hk
    · next d ds h =>
      have hret := s.ringReturn_late (n := n) d st hb
      generalize hu : s.ringReturn n d st = u at hret
      have hring : u.ring n = { s.ring n with owned := ds, late := (s.ring n).late ++ [(d, st)] } := by rw [hret, State.ring_setRing, h]; rfl
      obtain ⟨hl, hwr, hr⟩ := ih u (by rw [hret]; exact hb) (by rw [hring]; simpa [h] using hk)
      exact ⟨by rw [hl, hring, h]; simp, by rw [hwr, hret]; rfl, by rw [hr, hret]; rfl⟩

end

end Sys2Proof.Machine

end

section

/-! The rings of the host (O37). -/

namespace Sys2Proof.Machine

/-! ## Rings enabled and disabled -/

section

variable {n : Fin 96} {v : BitVec 32} {s : State}

theorem State.enabled_bit {s : State} {n : Nat} : (s.rd (R.HIF_RING_CFG n)).getLsbD 0 = decide (s.get (F.HIF_RING_CFG_enable n) = 1) := by
  have hget : (s.rd (R.HIF_RING_CFG n)).getLsbD 0 = (s.get (F.HIF_RING_CFG_enable n)).testBit 0 := by
    rw [s.get_testBit]
    rfl
  rw [hget, Nat.testBit_zero]
  rcases s.get_bit (F.HIF_RING_CFG_enable n) rfl with h | h <;> rw [h]

theorem or_one_getLsbD (v : Word) : ((v ||| 1) &&& 0xFFFFFFDF#32 &&& ~~~ 0xE000#32).getLsbD 0 = true := by
  simp

theorem completes_ringEnable (ho : s.barOpen (R.HIF_RING_CFG n) = true) (hr : isRing n = true) (he : s.get (F.HIF_RING_CFG_enable n) = 0) :
    Completes (.ringEnable n v) s (fun t => t.rd (R.HIF_RING_CFG n) = (v ||| 1) &&& 0xFFFF1FDF ∧ t.get (F.HIF_RING_STS_pos n) = 0 ∧
      t.get (F.HIF_RING_STS_phase n) = 1 ∧ t.get (F.HIF_RING_STS_active n) = 1 ∧ (t.ring n).owned = [] ∧
      t.get (F.HIF_RING_OWN_dev_owned n) = if hostProduced n then 0 else t.ringSlots n) := by
  refine completes_bar rfl ho ?_
  have hold : (s.rd (R.HIF_RING_CFG n)).getLsbD 0 = false := by rw [State.enabled_bit, he]; rfl
  have hslots (u : State) (w : Nat) : (u.put (F.HIF_RING_OWN_dev_owned n) w).ringSlots n = u.ringSlots n := by
    unfold State.ringSlots
    rw [State.get_put_apart _ _ (apart_base rfl rfl rfl)]
  have hle (u : State) : (if hostProduced n = true then 0 else u.ringSlots n) < 2 ^ 13 := by
    split
    · decide
    · exact lt_of_le_of_lt (Nat.pow_le_pow_right (by decide) (show clamp 4 12 _ ≤ 12 by unfold clamp; (repeat' split) <;> omega)) (by decide)
  unfold State.ringCfgWrite
  simp only [hr, hold, or_one_getLsbD, Bool.not_true, Bool.false_eq_true, if_false]
  have hsts (u : State) (r : Ring) {f : RF} {w : Nat} (hf : (F.HIF_RING_STS_full n).apart f = true) (ho : (F.HIF_RING_OWN_dev_owned n).apart f = true) :
      (((u.setRing n r).put (F.HIF_RING_STS_full n) 0).put (F.HIF_RING_OWN_dev_owned n) w).get f = u.get f := by
    rw [State.get_put_apart _ _ ho, State.get_put_apart _ _ hf, State.setRing_get]
  refine ⟨?_, ?_, ?_, ?_, ?_, ?_⟩
  · have hown (u : State) (w : Nat) : (u.put (F.HIF_RING_OWN_dev_owned n) w).rd (R.HIF_RING_CFG n) = u.rd (R.HIF_RING_CFG n) :=
      State.rd_put_ne _ _ _ _ (ne_of_base (x := 0x40 * n) rfl rfl (by decide))
    have hst (u : State) (lo w x : Nat) : (u.put ⟨R.HIF_RING_STS n, lo, w⟩ x).rd (R.HIF_RING_CFG n) = u.rd (R.HIF_RING_CFG n) :=
      State.rd_put_ne _ _ _ _ (ne_of_base (x := 0x40 * n) rfl rfl (by decide))
    rw [hown, F.HIF_RING_STS_full, hst, State.setRing_rd, F.HIF_RING_STS_active, hst, F.HIF_RING_STS_phase, hst, F.HIF_RING_STS_pos, hst,
      State.rd_wr_same, BitVec.and_assoc]
    rfl
  · rw [hsts _ _ rfl (apart_base rfl rfl rfl), State.get_put_apart _ _ rfl, State.get_put_apart _ _ rfl, State.get_put_lit _ rfl]
  · rw [hsts _ _ rfl (apart_base rfl rfl rfl), State.get_put_apart _ _ rfl, State.get_put_lit _ rfl]
  · rw [hsts _ _ rfl (apart_base rfl rfl rfl), State.get_put_lit _ rfl]
  · rw [State.put_ring, State.put_ring, State.ring_setRing]
  · rw [hslots]
    exact State.get_put_lt _ rfl (hle _)

theorem completes_ringEnable_none (ho : s.barOpen (R.HIF_RING_CFG n) = true) (h : isRing n = false ∨ s.get (F.HIF_RING_CFG_enable n) = 1) :
    Completes (.ringEnable n v) s (fun t => t = s) := by
  refine completes_bar rfl ho ?_
  unfold State.ringCfgWrite
  by_cases hr : isRing n = true
  · have he : (s.rd (R.HIF_RING_CFG n)).getLsbD 0 = true := by
      rw [State.enabled_bit, h.resolve_left (by simp [hr])]
      rfl
    have hne : ¬ (v ||| 1) &&& 0xFFFFFFDF#32 &&& ~~~ 0xE000#32 = s.rd (R.HIF_RING_CFG n) &&& 0xFFFF1FDE := fun heq => by
      have hbit := congrArg (fun w => BitVec.getLsbD w 0) heq
      simp at hbit
    simp only [hr, he, hne, Bool.not_true, Bool.false_eq_true, if_false, if_true]
  · simp [Bool.eq_false_iff.mpr hr]

theorem completes_ringDisable_of (ho : s.barOpen (R.HIF_RING_CFG n) = true) (hr : isRing n = true) (he : s.get (F.HIF_RING_CFG_enable n) = 1) {P : State → Prop}
    (hP : P (s.ringDisable n)) : Completes (.ringDisable n) s P := by
  refine completes_bar rfl ho ?_
  have hold : (s.rd (R.HIF_RING_CFG n)).getLsbD 0 = true := by rw [State.enabled_bit, he]; rfl
  have heq : s.rd (R.HIF_RING_CFG n) &&& 0xFFFFFFFE &&& 0xFFFFFFDF#32 &&& ~~~ 0xE000#32 = s.rd (R.HIF_RING_CFG n) &&& 0xFFFF1FDE := by
    rw [BitVec.and_assoc, BitVec.and_assoc]
    rfl
  unfold State.ringCfgWrite
  rw [if_neg (by simp [hr]), if_pos hold, if_pos heq]
  exact hP

theorem State.ringIdle_spec {s : State} {n : Nat} (h : (s.ring n).late = []) :
    (s.ringIdle n).get (F.HIF_RING_STS_active n) = 0 ∧ (s.ringIdle n).get (F.HIF_RING_OWN_dev_owned n) = 0 ∧
      (s.ringIdle n).get (F.HIF_RING_CFG_enable n) = s.get (F.HIF_RING_CFG_enable n) ∧ (s.ringIdle n).hif = s.hif := by
  unfold State.ringIdle
  rw [if_pos (by rw [h]; rfl)]
  refine ⟨?_, State.get_put_lit _ rfl, ?_, rfl⟩
  · rw [State.get_put_apart _ _ (apart_base rfl rfl rfl), State.get_put_lit _ rfl]
  · rw [State.get_put_apart _ _ (apart_base rfl rfl rfl), State.get_put_apart _ _ (apart_base rfl rfl rfl)]

/-- What a disabled ring does first with the item it has open (R395). -/
def State.ringOpenEnd (s : State) (n : Nat) : State :=
  if isF2h n then (if s.hif.bme then (s.f2hWord n).f2hWord n else s) else if isH2f n then s.h2fAbandon n else s

theorem State.ringOpenEnd_works (s : State) {n : Nat} (hn : n < 96) : s.Works n (s.ringOpenEnd n) := by
  unfold State.ringOpenEnd
  refine .ite (fun hf => ?_) fun _ => .ite (fun hh => ?_) fun _ => .refl _ _ _
  · have h2 : 2 < n := by
      simp only [isF2h, Bool.and_eq_true, decide_eq_true_eq] at hf
      omega
    exact .ite (fun _ => (s.f2hWord_works h2 hn).trans (State.f2hWord_works h2 hn _)) fun _ => .refl _ _ _
  · have h2 : 2 < n := by
      simp only [isH2f, Bool.and_eq_true, decide_eq_true_eq] at hh
      omega
    exact s.h2fAbandon_works h2 hn

/-- A fabric-to-host ring whose queue has given no word has nothing to end. -/
theorem State.ringOpenEnd_none {s : State} {n : Nat} (hf : isF2h n = true) (h : s.hif.bme = false ∨ ∀ q, s.ringQueue n = some q → (s.xqQ q).got = []) :
    s.ringOpenEnd n = s := by
  have hword (hgot : ∀ q, s.ringQueue n = some q → (s.xqQ q).got = []) : s.f2hWord n = s := by
    unfold State.f2hWord
    split
    · next q d ds hq _ => rw [hgot q hq]
    · rfl
  unfold State.ringOpenEnd
  rw [if_pos hf]
  rcases h with hb | hgot
  · rw [hb, if_neg Bool.false_ne_true]
  · split
    · rw [hword hgot, hword hgot]
    · rfl

theorem State.ringDisable_active {s : State} {n : Nat} (h : s.get (F.HIF_RING_STS_active n) = 1) :
    let u := (s.put (F.HIF_RING_CFG_enable n) 0).ringOpenEnd n
    s.ringDisable n = (u.ringBackAll (u.ring n).owned.length n 7).ringIdle n := by
  unfold State.ringDisable
  dsimp only
  rw [if_neg (by rw [State.on_of_one ((State.get_put_apart _ _ (apart_base rfl rfl rfl)).trans h)]; decide)]
  rfl

theorem State.ringDisable_inactive {s : State} {n : Nat} (h : s.get (F.HIF_RING_STS_active n) = 0) :
    s.ringDisable n = s.put (F.HIF_RING_CFG_enable n) 0 := by
  unfold State.ringDisable
  dsimp only
  rw [if_pos (by rw [State.on_of_zero ((State.get_put_apart _ _ (apart_base rfl rfl rfl)).trans h)]; decide)]

theorem State.ringQueue_congr {s t : State} (h : ∀ q, t.rd (R.XQ_BIND q) = s.rd (R.XQ_BIND q)) (n : Nat) : t.ringQueue n = s.ringQueue n := by
  have hnames (q : Nat) : t.xqNames q = s.xqNames q := by
    unfold State.xqNames
    rw [State.get_of_rd (f := F.XQ_BIND_index q) (h q), State.get_of_rd (f := F.XQ_BIND_vc q) (h q), State.get_of_rd (f := F.XQ_BIND_kind q) (h q)]
  unfold State.ringQueue State.queueOf
  simp only [hnames]

theorem State.ringQueue_put (s : State) {f : RF} (hf : f.off < 0xA0000) (v n : Nat) : (s.put f v).ringQueue n = s.ringQueue n :=
  State.ringQueue_congr (fun q => State.rd_put_ne _ _ _ _ (by simp only [R.XQ_BIND]; omega)) n

theorem State.slotReturn_enable (s : State) (n : Nat) (d : DataDesc) (st v : Nat) :
    (s.put (F.HIF_RING_CFG_enable n) v).slotReturn n d st = s.slotReturn n d st := by
  unfold State.slotReturn State.slotAddr
  rw [State.get_put_apart _ _ (apart_base rfl rfl rfl), State.get_put_apart _ _ (apart_base rfl rfl rfl)]

theorem completes_ringDisable (ho : s.barOpen (R.HIF_RING_CFG n) = true) (hr : isRing n = true) (he : s.get (F.HIF_RING_CFG_enable n) = 1)
    (hl : (s.ring n).late = []) :
    (s.hif.bme = true → Completes (.ringDisable n) s (fun t => t.get (F.HIF_RING_CFG_enable n) = 0 ∧ t.get (F.HIF_RING_STS_active n) = 0 ∧
      (s.get (F.HIF_RING_STS_active n) = 1 → (t.ring n).owned = [] ∧ t.get (F.HIF_RING_OWN_dev_owned n) = 0) ∧
      (s.get (F.HIF_RING_STS_active n) = 1 → isF2h n = true → (∀ q, s.ringQueue n = some q → (s.xqQ q).got = []) → t.hif.writes = s.hif.writes ++ (s.ring n).owned.map (fun d =>
        ⟨s.slotAddr n d.slot + 8, le 4 d.bytes ++ [(d.flags &&& 0xFD) ||| (if d.flags.getLsbD 0 then 2 else 0), d.tag.setWidth 8, 7, 0] ++
          le 4 d.words⟩)))) ∧
    (s.hif.bme = false → s.get (F.HIF_RING_STS_active n) = 1 → isF2h n = true → (s.ring n).owned ≠ [] →
      Completes (.ringDisable n) s (fun t => t.get (F.HIF_RING_CFG_enable n) = 0 ∧ t.get (F.HIF_RING_STS_active n) = 1 ∧
        t.hif.writes = s.hif.writes ∧ (t.ring n).owned = [] ∧ (t.ring n).late = (s.ring n).owned.map (fun d => (d, 7)))) := by
  generalize hu : (s.put (F.HIF_RING_CFG_enable n) 0).ringOpenEnd n = u
  have hworks : (s.put (F.HIF_RING_CFG_enable n) 0).Works n u := hu ▸ State.ringOpenEnd_works _ n.isLt
  generalize hw : u.ringBackAll (u.ring n).owned.length n 7 = w
  have hback : u.Works n w := hw ▸ u.ringBackAll_works 7 _
  have howned : (w.ring n).owned = [] := hw ▸ u.ringBackAll_owned 7 _ rfl
  have hall : State.Works n (s.put (F.HIF_RING_CFG_enable n) 0) w := hworks.trans hback
  have hen : w.get (F.HIF_RING_CFG_enable n) = 0 :=
    (hall.own (by simp only [F.HIF_RING_CFG_enable, R.HIF_RING_CFG]; omega) (by simp only [F.HIF_RING_CFG_enable, R.HIF_RING_CFG]; omega)).trans
      (State.get_put_lit _ rfl)
  have hslot (hf : isF2h n = true) (d : DataDesc) : s.slotReturn n d 7 =
      ⟨s.slotAddr n d.slot + 8, le 4 d.bytes ++ [(d.flags &&& 0xFD) ||| (if d.flags.getLsbD 0 then 2 else 0), d.tag.setWidth 8, 7, 0] ++ le 4 d.words⟩ := by
    have hh : isH2f n = false := by
      simp only [isF2h, Bool.and_eq_true, decide_eq_true_eq] at hf
      simp only [isH2f, Bool.and_eq_false_iff, decide_eq_false_iff_not]
      omega
    unfold State.slotReturn
    rw [hh]
    simp
  refine ⟨fun hb => completes_ringDisable_of ho hr he ?_, fun hb ha hf hne => completes_ringDisable_of ho hr he ?_⟩
  · rcases s.get_bit (F.HIF_RING_STS_active n) rfl with ha | ha
    · rw [State.ringDisable_inactive ha, ha]
      exact ⟨State.get_put_lit _ rfl, (State.get_put_apart _ _ (apart_base rfl rfl rfl)).trans ha, fun h => absurd h (by decide), fun h => absurd h (by decide)⟩
    · rw [State.ringDisable_active ha, hu, hw]
      have hlate : (w.ring n).late = [] := (hall.late hb).trans hl
      obtain ⟨hact, hown, hcfg, hhif⟩ := State.ringIdle_spec hlate
      refine ⟨hcfg.trans hen, hact, fun _ => ⟨?_, hown⟩, fun _ hf hgot => ?_⟩
      · rw [State.ring_congr hhif, howned]
      · have hnone : u = s.put (F.HIF_RING_CFG_enable n) 0 :=
          hu ▸ State.ringOpenEnd_none hf (Or.inr fun q hq => hgot q ((State.ringQueue_put s (by simp only [F.HIF_RING_CFG_enable, R.HIF_RING_CFG]; omega) 0 n).symm.trans hq))
        rw [hhif, ← hw, State.ringBackAll_writes u 7 (hworks.bme.trans hb) _ rfl, hnone]
        simp only [s.slotReturn_enable, hslot hf]
        rfl
  · rw [State.ringDisable_active ha, hu, hw]
    have hnone : u = s.put (F.HIF_RING_CFG_enable n) 0 := hu ▸ State.ringOpenEnd_none hf (Or.inl hb)
    obtain ⟨hlate, hwrites, hregs⟩ := u.ringBackAll_late (n := n) 7 (hworks.bme.trans hb) _ rfl
    rw [hw] at hlate hwrites hregs
    have hlate' : (w.ring n).late = (s.ring n).owned.map (fun d => (d, 7)) := by
      rw [hlate, hnone, State.put_ring, hl, List.nil_append]
    have hidle : w.ringIdle n = w := if_neg (by rw [hlate']; simpa using hne)
    rw [hidle]
    refine ⟨hen, ?_, by rw [hwrites, hnone]; rfl, howned, hlate'⟩
    rw [State.get_of_regs hregs, hnone, State.get_put_apart _ _ (apart_base rfl rfl rfl), ha]

end

/-! ## Bus mastering -/

section

variable {s : State}

theorem State.ringsResume_none (h : ∀ n < 96, (s.ring n).late = []) : s.ringsResume = s :=
  foldl_inv (I := fun u => u = s) (fun u n hn hu => by
    subst hu
    rw [if_pos (by rw [h n (List.mem_range.mp hn)]; rfl)]) s rfl

theorem completes_busMasterEnable {b : Bool} (hd : s.hif.cfg.d3 = false) (hl : b = true → ∀ n : Fin 96, (s.ring n).late = []) :
    Completes (.busMasterEnable b) s (fun t => t = { s with hif := { s.hif with bme := b } }) := by
  refine ⟨_, rfl, ?_⟩
  have hb : (b && ! s.hif.cfg.d3) = b := by rw [hd]; simp
  rw [hb]
  show (if (b : Bool) = true then _ else _) = _
  split
  · next hb => exact State.ringsResume_none fun n hn => hl hb ⟨n, hn⟩
  · rfl

theorem completes_busMasterEnable_off {b mask : Bool} {p : Fin 3} {q : Fin 6} :
    (s.hif.cfg.d3 = true → Completes (.busMasterEnable b) s (fun t => t.hif.bme = false ∧ t.regs = s.regs)) ∧
    Completes (.busMasterEnable b (.control p q true mask)) s (fun t => t.hif.bme = false ∧ t.hif.cfg.d3 = true ∧ t.regs = s.regs) ∧
    Completes (.busMasterEnable b (.read 0)) s (fun t => t = { s with readData := 0x23601F4C }) := by
  refine ⟨fun hd => ⟨_, rfl, ?_⟩, ⟨_, rfl, ?_⟩, ⟨_, rfl, rfl⟩⟩
  · have hb : (b && ! s.hif.cfg.d3) = false := by rw [hd]; simp
    rw [hb]
    exact ⟨rfl, rfl⟩
  · have hb : (b && ! true) = false := by simp
    rw [hb]
    exact ⟨rfl, rfl, rfl⟩

/-- The descriptors that waited are returned in their order once bus mastering is on again (R374). -/
theorem State.ringLate_one {s : State} {n : Nat} {d : DataDesc} {st : Nat} (h : (s.ring n).late = [(d, st)]) :
    ((s.ringLate n).ring n).late = [] ∧ (s.ringLate n).hif.writes = s.hif.writes ++ [s.slotReturn n d st] ∧ (s.ringLate n).hif.bme = s.hif.bme ∧
      ∀ m, m ≠ n → (s.ringLate n).ring m = s.ring m := by
  have heq : s.ringLate n = (s.setRing n { s.ring n with late := [] }).descReturn n d st := by
    unfold State.ringLate
    dsimp only
    rw [h]
    rfl
  generalize hu : s.setRing n { s.ring n with late := [] } = u at heq
  obtain ⟨k, hk⟩ := u.descReturn_ring (n := n) d st
  have hring : u.ring n = { s.ring n with late := [] } := by rw [← hu, State.ring_setRing]
  refine ⟨by rw [heq, hk, hring], by rw [heq, u.descReturn_writes, ← hu]; rfl, ?_, fun m hm => ?_⟩
  · rw [heq, (u.descReturn_works (n := n) d st).bme, ← hu]
    rfl
  · have hother : u.ring m = s.ring m := by rw [← hu, State.ring_setRing_ne _ _ hm]
    have hw (c : Bool) (a b : Nat) (x y : List Byte) : (if c = true then u.hostWrite a x else u.hostWrite b y).ring m = u.ring m := by split <;> rfl
    rw [heq, ← hother]
    unfold State.descReturn State.inc
    dsimp only
    split
    · rw [State.ringEntry_ring_ne _ hm]
      simp [hw]
    · simp [hw]

theorem State.ringIdle_hif (s : State) (n : Nat) : (s.ringIdle n).hif = s.hif := by
  unfold State.ringIdle
  split <;> rfl

/-- One turn of the resumption for one ring. -/
def State.ringResume (s : State) (n : Nat) : State :=
  if (s.ring n).late.isEmpty then s
  else if (s.ringLate n).on (F.HIF_RING_CFG_enable n) then s.ringLate n else (s.ringLate n).ringIdle n

theorem State.ringResume_none {s : State} {n : Nat} (h : (s.ring n).late = []) : s.ringResume n = s := if_pos (by rw [h]; rfl)

theorem State.ringResume_hif {s : State} {n : Nat} (h : (s.ring n).late ≠ []) : (s.ringResume n).hif = (s.ringLate n).hif := by
  unfold State.ringResume
  rw [if_neg (by simpa using h)]
  split
  · rfl
  · exact State.ringIdle_hif _ n

/-- All turns before the ring that has something to return, its own, and those after it. -/
theorem State.ringsResume_hif {s : State} {n : Nat} (hn : n < 96) {d : DataDesc} {st : Nat} (h : (s.ring n).late = [(d, st)])
    (hother : ∀ m < 96, m ≠ n → (s.ring m).late = []) : s.ringsResume.hif = (s.ringLate n).hif := by
  obtain ⟨hl, -, -, hm⟩ := State.ringLate_one h
  obtain ⟨l₁, l₂, hsplit⟩ := List.append_of_mem (List.mem_range.mpr hn)
  have hmem {m : Nat} (hm : m ∈ l₁ ∨ m ∈ l₂) : m < 96 := List.mem_range.mp (by rw [hsplit]; rcases hm with h | h <;> simp [h])
  have hnodup := List.nodup_append.mp (hsplit ▸ List.nodup_range (n := 96))
  have hbefore : l₁.foldl State.ringResume s = s :=
    foldl_inv (I := fun u => u = s) (fun u m hin hu => by
      rw [hu]
      exact State.ringResume_none (hother m (hmem (Or.inl hin)) (hnodup.2.2 m hin n (by simp)))) s rfl
  have hafter (u : State) (hu : u.hif = (s.ringLate n).hif) : (l₂.foldl State.ringResume u).hif = (s.ringLate n).hif :=
    foldl_inv (I := fun u => u.hif = (s.ringLate n).hif) (fun u m hm' hu => by
      have hne : m ≠ n := fun he => (List.nodup_cons.mp hnodup.2.1).1 (he ▸ hm')
      rw [State.ringResume_none (by rw [State.ring_congr hu, hm m hne, hother m (hmem (Or.inr hm')) hne])]
      exact hu) u hu
  show ((List.range 96).foldl State.ringResume s).hif = _
  rw [hsplit, List.foldl_append, List.foldl_cons, hbefore]
  exact hafter _ (State.ringResume_hif (by rw [h]; simp))

theorem completes_busMasterEnable_late {n : Fin 96} {d : DataDesc} {st : Nat} (hd : s.hif.cfg.d3 = false) (h : (s.ring n).late = [(d, st)])
    (hother : ∀ m : Fin 96, m ≠ n → (s.ring m).late = []) :
    Completes (.busMasterEnable true) s (fun t => t.hif.bme = true ∧ (t.ring n).late = [] ∧ ∃ w, t.hif.writes = s.hif.writes ++ [w] ∧
      w.data.getD (if isH2f n then 2 else 6) 0 = BitVec.ofNat 8 st) := by
  refine ⟨_, rfl, ?_⟩
  have hb : (true && ! s.hif.cfg.d3) = true := by rw [hd]; rfl
  rw [hb]
  generalize hu : s.setHif { s.hif with bme := true } = u
  have hub : u.hif.bme = true := by rw [← hu]; rfl
  have hring (m : Nat) : u.ring m = s.ring m := by rw [← hu]; rfl
  show (fun t : State => t.hif.bme = true ∧ (t.ring n).late = [] ∧ ∃ w, t.hif.writes = s.hif.writes ++ [w] ∧ w.data.getD (if isH2f n then 2 else 6) 0 = BitVec.ofNat 8 st)
    (if u.hif.bme = true then u.ringsResume else u)
  rw [if_pos hub]
  have hlate : (u.ring n).late = [(d, st)] := (congrArg Ring.late (hring n)).trans h
  have hhif := State.ringsResume_hif n.isLt hlate fun m hm hne => (congrArg Ring.late (hring m)).trans (hother ⟨m, hm⟩ (fun he => hne (congrArg Fin.val he)))
  obtain ⟨hl, hw, hbme, -⟩ := State.ringLate_one hlate
  refine ⟨by rw [hhif, hbme, hub], by rw [State.ring_congr hhif, hl], u.slotReturn n d st, ?_, u.slotReturn_status d st⟩
  rw [hhif, hw, ← hu]
  rfl

end

/-! ## Doorbells -/

section

variable {off : BitVec 19} {v : BitVec 32} {s : State}

theorem completes_doorbell_table (hm : s.mode ≠ .cold) (hd : s.hif.cfg.d3 = false) (hlo : 0x7E000 ≤ off.toNat) (hhi : off.toNat < 0x7E400) :
    Completes (.doorbell off v) s (fun t => SMap.get (fun _ => 0) t.hif.table (off.toNat / 4 * 4) = v ∧ t.regs = s.regs ∧
      t.hif.rings = s.hif.rings) ∧
    Completes (.doorbell off v true) s (fun t => t = { s with readData := SMap.get (fun _ => 0) s.hif.table (off.toNat / 4 * 4) }) := by
  have hopen : ¬ (s.mode = .cold ∨ s.hif.cfg.d3 = true) := by simp [hm, hd]
  have hin : within 0x7E000 0x7E400 off.toNat = true := by simp [within, hlo, hhi]
  refine ⟨?_, ?_⟩
  · show ∃ t, execDoorbell off v s = .next t ∧ _
    simp only [execDoorbell, hopen, hin, if_false, if_true, Bool.false_eq_true]
    exact ⟨_, rfl, SMap.get_set_same _ _ _ _, rfl, rfl⟩
  · show ∃ t, execDoorbell off v s true = .next t ∧ _
    simp only [execDoorbell, hopen, State.bar2Read, hin, if_false, if_true]
    exact ⟨_, rfl, rfl⟩

variable {n : Fin 96}

/-- A doorbell of a ring lies below the interrupt table (Table 13.3). -/
theorem doorbell_ring (ho : off.toNat = 4096 * n.val) : within 0x7E000 0x7E400 off.toNat = false ∧ off.toNat % 4096 = 0 ∧ off.toNat / 4096 = n.val := by
  have := n.isLt
  refine ⟨?_, by omega, by omega⟩
  simp only [within, Bool.and_eq_false_iff, decide_eq_false_iff_not]
  omega

theorem completes_doorbell_of (hm : s.mode ≠ .cold) (hd : s.hif.cfg.d3 = false) (ho : off.toNat = 4096 * n.val) {P : State → Prop}
    (hP : P (s.doorbell n (v.toNat % 4096))) : Completes (.doorbell off v) s P := by
  obtain ⟨hin, hmod, hdiv⟩ := doorbell_ring ho
  have hopen : ¬ (s.mode = .cold ∨ s.hif.cfg.d3 = true) := by simp [hm, hd]
  show ∃ t, execDoorbell off v s = .next t ∧ _
  simp only [execDoorbell, hopen, hin, hmod, hdiv, if_false, if_true, Bool.false_eq_true]
  exact ⟨_, rfl, hP⟩

theorem ringSlots_le (s : State) (n : Nat) : s.ringSlots n ≤ 4096 :=
  le_of_le_of_eq (Nat.pow_le_pow_right (by decide) (show clamp 4 12 _ ≤ 12 by unfold clamp; (repeat' split) <;> omega)) (by decide : 2 ^ 12 = 4096)

theorem completes_doorbell (hm : s.mode ≠ .cold) (hd : s.hif.cfg.d3 = false) (ho : off.toNat = 4096 * n.val) (hr : isRing n = true)
    (he : s.get (F.HIF_RING_CFG_enable n) = 1) (hv : v.toNat % 4096 < s.ringSlots n) :
    (hostProduced n = true → Completes (.doorbell off v) s (fun t => (t.ring n).door = v.toNat % 4096 ∧ (t.ring n).stopped = false ∧ t.regs = s.regs)) ∧
    (hostProduced n = false → Completes (.doorbell off v) s (fun t => (t.ring n).door = v.toNat % 4096 ∧
      (s.get (F.HIF_RING_STS_pos n) < s.ringSlots n → t.get (F.HIF_RING_OWN_dev_owned n) =
        s.ringSlots n - (s.get (F.HIF_RING_STS_pos n) + s.ringSlots n - v.toNat % 4096) % s.ringSlots n))) := by
  have hopen : (! isRing n || ! s.on (F.HIF_RING_CFG_enable n) || decide (s.ringSlots n ≤ v.toNat % 4096)) = false := by
    simp [hr, State.on_of_one he, hv]
  refine ⟨fun hp => completes_doorbell_of hm hd ho ?_, fun hp => completes_doorbell_of hm hd ho ?_⟩
  · unfold State.doorbell
    rw [if_neg (by rw [hopen]; decide), if_pos hp]
    exact ⟨by rw [State.ring_setRing], by rw [State.ring_setRing], rfl⟩
  · unfold State.doorbell
    dsimp only
    rw [if_neg (by rw [hopen]; decide), if_neg (by rw [hp]; decide)]
    refine ⟨?_, fun _ => ?_⟩
    · exact (congrArg Ring.door (State.ring_setRing s n _))
    · rw [State.get_putB_apart _ _ (apart_base rfl rfl rfl), State.get_put_lt _ rfl]
      exact lt_of_le_of_lt (Nat.sub_le _ _) (lt_of_le_of_lt (ringSlots_le s n) (show 4096 < 2 ^ 13 by decide))

theorem completes_doorbell_none (ho : off.toNat = 4096 * n.val)
    (h : s.hif.cfg.d3 = true ∨ s.get (F.HIF_RING_CFG_enable n) = 0 ∨ s.ringSlots n ≤ v.toNat % 4096) :
    Completes (.doorbell off v) s (fun t => t = s) := by
  obtain ⟨hin, hmod, hdiv⟩ := doorbell_ring ho
  show ∃ t, execDoorbell off v s = .next t ∧ _
  simp only [execDoorbell, hin, hmod, hdiv, if_true, Bool.false_eq_true, if_false]
  by_cases hopen : s.mode = .cold ∨ s.hif.cfg.d3 = true
  · exact ⟨s, if_pos hopen, rfl⟩
  · obtain ⟨-, hd⟩ := not_or.mp hopen
    have hnone : s.doorbell n (v.toNat % 4096) = s := by
      refine if_pos ?_
      rcases h.resolve_left hd with he | hs
      · simp [State.on_of_zero he]
      · simp [hs]
    exact ⟨s, by rw [if_neg hopen, hnone], rfl⟩

end

/-! ## Slots taken -/

section

variable {s : State} {n : Nat}

theorem State.ringFetches_spec (h : s.ringFetches n = true) : hostProduced n = true ∧ s.hif.bme = true := by
  simp only [State.ringFetches, State.ringRuns, Bool.and_eq_true] at h
  obtain ⟨⟨⟨hp, ⟨hb, -⟩, -⟩, -⟩, -⟩ := h
  exact ⟨hp, hb⟩

theorem State.descBad_congr {t : State} (h : ∀ off, 0xA0000 ≤ off → t.rd off = s.rd off) (n : Nat) (d : DataDesc) : t.descBad n d = s.descBad n d := by
  have hq : t.ringQueue n = s.ringQueue n := State.ringQueue_congr (fun q => h _ (Nat.le_add_right_of_le (by decide))) n
  have hon (q : Nat) : t.on (F.XQ_CTL_enable q) = s.on (F.XQ_CTL_enable q) := by
    rw [State.on, State.get_of_rd (f := F.XQ_CTL_enable q) (h _ (Nat.le_add_right_of_le (by decide))), State.on]
  unfold State.descBad
  simp only [hq, hon]

/-- The position after a slot has been taken (R378). -/
theorem State.ringAdvance_pos (s : State) (n : Nat) : (s.ringAdvance n).get (F.HIF_RING_STS_pos n) =
    if s.get (F.HIF_RING_STS_pos n) + 1 = s.ringSlots n then 0 else (s.get (F.HIF_RING_STS_pos n) + 1) % 4096 := by
  unfold State.ringAdvance
  split
  · rw [State.get_put_apart _ _ rfl, State.get_put_lit _ rfl]
  · exact State.get_inc _ _ rfl

theorem State.ringAdvance_other (s : State) (n : Nat) {f : RF} (h : (F.HIF_RING_STS_pos n).apart f = true) (h' : (F.HIF_RING_STS_phase n).apart f = true) :
    (s.ringAdvance n).get f = s.get f := by
  unfold State.ringAdvance
  split
  · rw [State.get_put_apart _ _ h', State.get_put_apart _ _ h]
  · exact State.get_inc_apart _ _ h

/-- The state with the descriptor in hand, before the ring settles. -/
def State.slotHeld (s : State) (n : Nat) (d : DataDesc) : State :=
  ((s.setRing n { s.ring n with owned := (s.ring n).owned ++ [d], rereads := 0 }).ringAdvance n).inc (F.HIF_RING_OWN_dev_owned n)

theorem State.slotHeld_answers (s : State) {n : Nat} (hn : n < 96) (d : DataDesc) : s.Answers (s.slotHeld n d) := by
  have hset (r : Ring) : s.Answers (s.setRing n r) := .of_same rfl rfl rfl
  have hown (u : State) (v : Nat) : u.Answers (u.put (F.HIF_RING_OWN_dev_owned n) v) :=
    u.put_answers v (Nat.le_add_right_of_le (by decide)) (by simp only [F.HIF_RING_OWN_dev_owned, R.HIF_RING_OWN]; omega)
  exact ((hset _).trans (State.ringAdvance_answers _ hn)).trans (hown _ _)

theorem State.slotHeld_ring (s : State) (n : Nat) (d : DataDesc) :
    (s.slotHeld n d).ring n = { s.ring n with owned := (s.ring n).owned ++ [d], rereads := 0 } := by
  unfold State.slotHeld State.inc
  rw [State.put_ring, State.ringAdvance_ring, State.ring_setRing]

theorem State.slotHeld_writes (s : State) (n : Nat) (d : DataDesc) : (s.slotHeld n d).hif.writes = s.hif.writes := by
  unfold State.slotHeld State.inc
  rw [State.put_hif, State.ringAdvance_hif]
  rfl

theorem State.slotHeld_owned (s : State) (n : Nat) (d : DataDesc) :
    (s.slotHeld n d).get (F.HIF_RING_OWN_dev_owned n) = (s.get (F.HIF_RING_OWN_dev_owned n) + 1) % 2 ^ 13 := by
  unfold State.slotHeld
  have hinc (u : State) : (u.inc (F.HIF_RING_OWN_dev_owned n)).get (F.HIF_RING_OWN_dev_owned n) = (u.get (F.HIF_RING_OWN_dev_owned n) + 1) % 2 ^ 13 :=
    State.get_inc _ _ rfl
  rw [hinc, State.ringAdvance_other _ _ (apart_base rfl rfl rfl) (apart_base rfl rfl rfl), State.setRing_get]

theorem State.slotHeld_pos (s : State) (n : Nat) (d : DataDesc) : (s.slotHeld n d).get (F.HIF_RING_STS_pos n) =
    if s.get (F.HIF_RING_STS_pos n) + 1 = s.ringSlots n then 0 else (s.get (F.HIF_RING_STS_pos n) + 1) % 4096 := by
  unfold State.slotHeld
  rw [State.get_inc_apart _ _ (apart_base rfl rfl rfl), State.ringAdvance_pos, State.setRing_get]
  rfl

/-- An abandoned item that is not open leaves nothing behind but an empty wait. -/
theorem State.h2fAbandon_closed (h : (s.ring n).openItem = false) :
    (s.h2fAbandon n).hif.writes = s.hif.writes ∧ ((s.h2fAbandon n).ring n).owned = (s.ring n).owned ∧ (s.h2fAbandon n).hif.bme = s.hif.bme := by
  unfold State.h2fAbandon
  split
  · exact ⟨rfl, by rw [State.ring_setRing], rfl⟩
  · dsimp only
    rw [if_pos (by rw [State.setXq_ring, h]; rfl)]
    exact ⟨rfl, rfl, rfl⟩

theorem State.settle_kept {d : DataDesc} (ho : (s.ring n).owned = [d]) (hw : d.words = 0) (hb : s.descBad n d = none) : s.settle n = s := by
  unfold State.settle
  rw [ho]
  unfold State.ringSettle
  simp only [List.length_singleton, ho, hw, hb, ne_eq, not_true_eq_false, if_false]

theorem State.settle_bad {d : DataDesc} {st : Nat} (ho : (s.ring n).owned = [d]) (hw : d.words = 0) (hb : s.descBad n d = some st)
    (hopen : (s.ring n).openItem = false) (hbme : s.hif.bme = true) :
    ((s.settle n).ring n).owned = [] ∧ ∃ w, (s.settle n).hif.writes = s.hif.writes ++ [w] ∧ w.data.getD (if isH2f n then 2 else 6) 0 = BitVec.ofNat 8 st := by
  have heq : s.settle n = (if isH2f n then s.h2fAbandon n else s).ringReturn n d st := by
    unfold State.settle
    rw [ho]
    unfold State.ringSettle
    simp only [List.length_singleton, ho, hw, hb, ne_eq, not_true_eq_false, if_false]
    rfl
  obtain ⟨hwr, hown, hb'⟩ := State.h2fAbandon_closed hopen
  have habandon : (if isH2f n then s.h2fAbandon n else s).hif.writes = s.hif.writes ∧
      ((if isH2f n then s.h2fAbandon n else s).ring n).owned = (s.ring n).owned ∧ (if isH2f n then s.h2fAbandon n else s).hif.bme = s.hif.bme := by
    split
    · exact ⟨hwr, hown, hb'⟩
    · exact ⟨rfl, rfl, rfl⟩
  generalize (if isH2f n then s.h2fAbandon n else s) = a at heq habandon
  obtain ⟨hwr, hown, hb'⟩ := habandon
  rw [heq]
  refine ⟨by rw [State.ringReturn_owned, hown, ho]; rfl, a.slotReturn n d st, ?_, a.slotReturn_status d st⟩
  rw [State.ringReturn_writes _ _ _ (hb'.trans hbme), hwr]

variable {k : Fin 96} {raw : List (BitVec 8)}

theorem completes_descriptorFetched (hk : k.val ≠ 0) (hf : s.ringFetches k = true) (hr : (s.ring k).rereads = 0) :
    (s.slotOwned k (raw.getD 0xC 0) = true → (s.ring k).owned = [] →
      let d := dataDesc (s.get (F.HIF_RING_STS_pos k)) raw
      let d := if isF2h k then { d with flags := d.flags &&& 3 } else d
      (s.descBad k d = none → Completes (.descriptorFetched k raw) s (fun t => (t.ring k).owned = [d] ∧
        t.get (F.HIF_RING_OWN_dev_owned k) = (s.get (F.HIF_RING_OWN_dev_owned k) + 1) % 2 ^ 13 ∧ t.hif.writes = s.hif.writes ∧
        t.get (F.HIF_RING_STS_pos k) = if s.get (F.HIF_RING_STS_pos k) + 1 = s.ringSlots k then 0 else (s.get (F.HIF_RING_STS_pos k) + 1) % 4096)) ∧
      (∀ st, s.descBad k d = some st → (s.ring k).openItem = false → Completes (.descriptorFetched k raw) s (fun t => (t.ring k).owned = [] ∧
        ∃ w, t.hif.writes = s.hif.writes ++ [w] ∧ w.data.getD (if isH2f k then 2 else 6) 0 = BitVec.ofNat 8 st))) ∧
    (s.slotOwned k (raw.getD 0xC 0) = false → Completes (.descriptorFetched k raw) s (fun t => (t.ring k).rereads = 1 ∧ t.regs = s.regs)) := by
  have hgo : ¬ (k.val = 0 ∨ (! s.ringFetches k) = true ∨ (s.ring k).rereads ≠ 0) := by simp [hk, hf, hr]
  obtain ⟨-, hbme⟩ := State.ringFetches_spec hf
  refine ⟨fun ho he => ?_, fun ho => ?_⟩
  · intro d₀ d
    have hwords : d.words = 0 := by
      show (if isF2h k then _ else _ : DataDesc).words = 0
      split <;> rfl
    have hans := s.slotHeld_answers k.isLt d
    have hring := s.slotHeld_ring k d
    have howned : ((s.slotHeld k d).ring k).owned = [d] := by rw [hring, he]; rfl
    have hbad : (s.slotHeld k d).descBad k d = s.descBad k d := State.descBad_congr (fun off h => State.Alters.rd hans (hostPage_out (by omega))) k d
    have hexec : exec (.descriptorFetched k raw) s = .next ((s.slotHeld k d).settle k) := by
      show execDescriptorFetched k raw s = _
      unfold execDescriptorFetched
      rw [if_neg hgo, if_pos (show s.slotOwned k (dataFlags raw) = true from ho)]
      rfl
    refine ⟨fun hb => ⟨_, hexec, ?_⟩, fun st hb hopen => ⟨_, hexec, ?_⟩⟩
    · rw [State.settle_kept howned hwords (hbad.trans hb)]
      exact ⟨howned, s.slotHeld_owned k d, s.slotHeld_writes k d, s.slotHeld_pos k d⟩
    · obtain ⟨hown, w, hw, hst⟩ := State.settle_bad howned hwords (hbad.trans hb) (by rw [hring]; exact hopen)
        ((congrArg (fun u => u.hif.bme) hans.part).trans hbme)
      exact ⟨hown, w, by rw [hw, s.slotHeld_writes], hst⟩
  · have hexec : exec (.descriptorFetched k raw) s = .next (s.slotStale k) := by
      show execDescriptorFetched k raw s = _
      unfold execDescriptorFetched
      rw [if_neg hgo, if_neg (show ¬ s.slotOwned k (dataFlags raw) = true by rw [show s.slotOwned k (dataFlags raw) = false from ho]; decide)]
    refine ⟨_, hexec, ?_⟩
    unfold State.slotStale
    dsimp only
    rw [hr, if_neg (by decide)]
    exact ⟨by rw [State.ring_setRing], rfl⟩

theorem completes_staleRecheck (hf : s.ringFetches k = true) (hr : (s.ring k).rereads ≠ 0) (hm : k.val ≠ 0 ∨ s.mayFetch = true)
    (ho : s.slotOwned k (if k.val = 0 then raw.getD 1 0 else raw.getD 0xC 0) = false) :
    (8 ≤ (s.ring k).rereads + 1 → Completes (.staleRecheck k raw) s (fun t => (t.ring k).stopped = true ∧
      t.get (F.HIF_RING_STS_stale k) = 1 ∧ t.logged 0x0120 k)) ∧
    ((s.ring k).rereads + 1 < 8 → Completes (.staleRecheck k raw) s (fun t => (t.ring k).rereads = (s.ring k).rereads + 1 ∧ t.regs = s.regs)) := by
  have hexec : exec (.staleRecheck k raw) s = .next (s.slotStale k) := by
    show execStaleRecheck k raw s = _
    unfold execStaleRecheck
    rw [if_neg (by rcases hm with h | h <;> simp [hf, hr, h])]
    by_cases hk : k.val = 0
    · rw [if_pos hk] at ho ⊢
      rw [if_neg]
      · rw [hk]
      · rw [← hk, ho]
        decide
    · rw [if_neg hk] at ho ⊢
      rw [if_neg (show ¬ s.slotOwned k (dataFlags raw) = true by rw [show s.slotOwned k (dataFlags raw) = false from ho]; decide)]
  have hdata : k.val ≠ 2 := by
    intro h2
    have hp := (State.ringFetches_spec hf).1
    rw [h2] at hp
    exact absurd hp (by decide)
  have hev : eventReg (R.HIF_RING_STS k) = false := by
    simp only [eventReg, R.HIF_EVT_LOST, R.HIF_RING_STS, R.HIF_RING_CNT, R.HIF_RING_OWN, Bool.or_eq_false_iff, beq_eq_false_iff_ne]
    omega
  refine ⟨fun h8 => ⟨_, hexec, ?_⟩, fun h8 => ⟨_, hexec, ?_⟩⟩
  · unfold State.slotStale
    dsimp only
    rw [if_pos h8]
    refine ⟨?_, ?_, State.raise_logged _ _ _⟩
    · rw [State.raise_ring _ _ _ hdata, State.put_ring, State.ring_setRing]
    · rw [State.raise_getKept _ _ _ hev, State.get_put_lit _ rfl]
  · unfold State.slotStale
    dsimp only
    rw [if_neg (by omega)]
    exact ⟨by rw [State.ring_setRing], rfl⟩

end

/-! ## Commands of the command ring -/

section

variable {s : State}

theorem State.ringAdvance_firstCheck (s : State) {n : Nat} (hn : n < 96) (host : Bool) (d : AdminDesc) :
    (s.ringAdvance n).firstCheck host d = s.firstCheck host d := by
  have hsts (u : State) (lo w v : Nat) : (u.put ⟨R.HIF_RING_STS n, lo, w⟩ v).firstCheck host d = u.firstCheck host d :=
    u.firstCheck_put (Nat.le_add_right_of_le (by decide)) (by simp only [R.HIF_RING_STS]; omega) _ _ _
  unfold State.ringAdvance State.inc
  split
  · exact (hsts _ _ _ _).trans (hsts _ _ _ _)
  · exact hsts _ _ _ _

/-- A register that an entry of ring n does not touch. -/
theorem State.ringWrite_rd (s : State) (n flagOff : Nat) (e : List Byte) {off : Nat} (h : off ≠ R.HIF_RING_STS n) (h' : off ≠ R.HIF_RING_CNT n)
    (h'' : off ≠ R.HIF_RING_OWN n) : (s.ringWrite n flagOff e).rd off = s.rd off := by
  have hadv (u : State) : (u.ringAdvance n).rd off = u.rd off := by
    unfold State.ringAdvance State.inc
    split
    · rw [State.rd_put_ne _ _ _ _ h, State.rd_put_ne _ _ _ _ h]
    · rw [State.rd_put_ne _ _ _ _ h]
  have hentry (u : State) : (u.ringEntry n).rd off = u.rd off := by simp only [State.rd, u.ringEntry_regs n]
  unfold State.ringWrite State.putB State.inc
  dsimp only
  rw [hentry, State.rd_put_ne _ _ _ _ h, State.rd_put_ne _ _ _ _ h'', State.rd_put_ne _ _ _ _ h', hadv]
  rfl

/-- The completion of a ring command is one entry of the completion ring (R382). -/
theorem State.deliver_ring (s : State) (cid slot : Nat) (due : Bool) (status detail res0 res1 : Nat) :
    let t := s.deliver ⟨.ring cid slot, due, status, detail, res0, res1⟩
    (∃ x, t.hif.writes = s.hif.writes ++ [x] ∧ x.data.getD 0 0 = BitVec.ofNat 8 status) ∧
      ∀ off, off ≠ R.HIF_RING_STS 1 → off ≠ R.HIF_RING_CNT 1 → off ≠ R.HIF_RING_OWN 1 → t.rd off = s.rd off := by
  intro t
  refine ⟨⟨_, State.ringWrite_writes _ _ _ _, by simp [State.completionEntry, le]⟩, fun off h h' h'' => ?_⟩
  exact State.ringWrite_rd _ 1 1 _ h h' h''

theorem State.mayFetch_spec (h : s.mayFetch = true) : s.ringFetches 0 = true ∧ s.ringFree 1 = true ∧ s.completionsWait = false := by
  simp only [State.mayFetch, Bool.and_eq_true, Bool.not_eq_true'] at h
  exact ⟨h.1.1, h.1.2, h.2⟩

/-- A command of the ring is answered at once where nothing waits before it (R382). -/
theorem State.complete_ring_deliver {u : State} (hfree : u.ringFree 1 = true) (hwait : u.completionsWait = false) (cid slot status detail res0 : Nat) :
    ∃ l, u.complete (.ring cid slot) status detail res0 =
      (u.setHif { u.hif with finished := l }).deliver ⟨.ring cid slot, true, status, detail, res0, 0⟩ := by
  generalize hl : u.hif.finished.filter (fun d => d.src != .ring cid slot) = l
  have hwait' : (u.setHif { u.hif with finished := l }).completionsWait = false := by
    refine Bool.eq_false_iff.mpr fun ht => ?_
    obtain ⟨c, hc, hring⟩ := List.any_eq_true.mp ht
    rw [State.setHif_hif, ← hl] at hc
    exact Bool.eq_false_iff.mp hwait (List.any_eq_true.mpr ⟨c, (List.mem_filter.mp hc).1, hring⟩)
  have hdel : (u.setHif { u.hif with finished := l }).deliverable ⟨.ring cid slot, true, status, detail, res0, 0⟩ = true := hfree
  refine ⟨l, ?_⟩
  unfold State.complete
  simp only [hl, hdel, hwait', Bool.not_false, Bool.true_or, Bool.and_self, if_true]

/-- The slot of a command is marked as taken and counted. -/
def State.commandHeld (s : State) (flags : Byte) : State :=
  let t := (s.hostWrite (s.slotAddr 0 (s.get (F.HIF_RING_STS_pos 0)) + 1) [flags]).inc (F.HIF_RING_CNT_count 0)
  (t.setRing 0 { t.ring 0 with rereads := 0 }).ringAdvance 0

theorem State.commandHeld_get (s : State) (flags : Byte) {f : RF} (h : (F.HIF_RING_STS_pos 0).apart f = true) (h' : (F.HIF_RING_STS_phase 0).apart f = true) :
    (s.commandHeld flags).get f = (s.inc (F.HIF_RING_CNT_count 0)).get f := by
  unfold State.commandHeld
  dsimp only
  rw [State.ringAdvance_other _ _ h h', State.setRing_get]
  rfl

theorem State.commandHeld_firstCheck (s : State) (flags : Byte) (host : Bool) (d : AdminDesc) : (s.commandHeld flags).firstCheck host d = s.firstCheck host d := by
  unfold State.commandHeld
  dsimp only
  rw [State.ringAdvance_firstCheck _ (by decide)]
  exact State.firstCheck_put (s.hostWrite _ _) (by decide) (by decide) _ host d

theorem State.commandHeld_hif (s : State) (flags : Byte) : ∃ w r, (s.commandHeld flags).hif = { s.hif with writes := s.hif.writes ++ [w], rings := r } := by
  unfold State.commandHeld
  rw [State.ringAdvance_hif]
  exact ⟨_, _, rfl⟩

theorem completes_adminFetch {raw : List (BitVec 8)} (hm : s.mayFetch = true) (hr : (s.ring 0).rereads = 0) (ho : s.slotOwned 0 (raw.getD 1 0) = true) :
    let d := AdminDesc.ofBytes raw
    Completes (.adminFetch raw) s (fun t => t.get (F.HIF_RING_CNT_count 0) = (s.get (F.HIF_RING_CNT_count 0) + 1) % 2 ^ 32 ∧
      (if (s.firstCheck true d).1 = 0 then
        t.hif.accepted = s.hif.accepted ++ [⟨.ring (fieldAt raw 2 2) (s.get (F.HIF_RING_STS_pos 0)), d⟩]
      else t.hif.accepted = s.hif.accepted ∧ t.hif.running = s.hif.running.filter (fun a => a.src != .ring (fieldAt raw 2 2)
        (s.get (F.HIF_RING_STS_pos 0))) ∧ ∃ w x, t.hif.writes = s.hif.writes ++ [w, x] ∧
          x.data.getD 0 0 = BitVec.ofNat 8 (s.firstCheck true d).1)) := by
  intro d
  obtain ⟨-, hfree, hwait⟩ := State.mayFetch_spec hm
  generalize hfl : ((raw.getD 1 0 &&& 0xFD) ||| (if s.on (F.HIF_RING_STS_phase 0) then 2 else 0) : Byte) = flags
  have hexec : exec (.adminFetch raw) s = .next ((s.commandHeld flags).enroll (.ring (fieldAt raw 2 2) (s.get (F.HIF_RING_STS_pos 0))) d) := by
    show execAdminFetch raw s = _
    unfold execAdminFetch
    rw [if_neg (by simp [hm, hr]), if_pos ho, ← hfl]
    rfl
  refine ⟨_, hexec, ?_⟩
  generalize hu : s.commandHeld flags = u
  obtain ⟨w, r, hhif⟩ := hu ▸ s.commandHeld_hif flags
  have hcnt : u.get (F.HIF_RING_CNT_count 0) = (s.get (F.HIF_RING_CNT_count 0) + 1) % 2 ^ 32 := by
    rw [← hu, s.commandHeld_get flags rfl rfl]
    exact State.get_inc _ _ rfl
  have hcheck : u.firstCheck true d = s.firstCheck true d := hu ▸ s.commandHeld_firstCheck flags true d
  have hget {f : RF} (h : (F.HIF_RING_STS_pos 0).apart f = true) (h' : (F.HIF_RING_STS_phase 0).apart f = true) (h'' : (F.HIF_RING_CNT_count 0).apart f = true) :
      u.get f = s.get f := by rw [← hu, s.commandHeld_get flags h h', State.get_inc_apart _ _ h'']
  unfold State.enroll
  simp only [hcheck]
  by_cases hc : (s.firstCheck true d).1 = 0
  · simp only [hc, ne_eq, not_true_eq_false, if_false, if_true]
    exact ⟨hcnt, by rw [State.setHif_hif, hhif]⟩
  · simp only [hc, ne_eq, not_false_eq_true, if_true, if_false]
    have hufree : u.ringFree 1 = true := by
      rw [← hfree, State.ringFree, State.ringFree, State.on, State.on, State.on, hget rfl rfl rfl, hget rfl rfl rfl, hget rfl rfl rfl, hhif]
      rfl
    have huwait : u.completionsWait = false := by
      rw [← hwait, State.completionsWait, hhif, State.completionsWait]
    obtain ⟨l, hl⟩ := State.complete_ring_deliver hufree huwait (fieldAt raw 2 2) (s.get (F.HIF_RING_STS_pos 0)) (s.firstCheck true d).1 0 (s.firstCheck true d).2
    obtain ⟨⟨x, hx, hst⟩, hrd⟩ := State.deliver_ring (u.setHif { u.hif with finished := l }) (fieldAt raw 2 2) (s.get (F.HIF_RING_STS_pos 0)) true
      (s.firstCheck true d).1 0 (s.firstCheck true d).2 0
    have hans := State.deliver_answers (u.setHif { u.hif with finished := l })
      ⟨.ring (fieldAt raw 2 2) (s.get (F.HIF_RING_STS_pos 0)), true, (s.firstCheck true d).1, 0, (s.firstCheck true d).2, 0⟩
    obtain ⟨-, hrun, -⟩ := State.deliver_hif (u.setHif { u.hif with finished := l })
      ⟨.ring (fieldAt raw 2 2) (s.get (F.HIF_RING_STS_pos 0)), true, (s.firstCheck true d).1, 0, (s.firstCheck true d).2, 0⟩
    rw [hl]
    refine ⟨?_, ?_, ?_, w, x, ?_, hst⟩
    · exact (State.get_of_rd (f := F.HIF_RING_CNT_count 0) (hrd _ (by decide) (by decide) (by decide))).trans hcnt
    · rw [hans.accepted, State.setHif_hif, hhif]
    · rw [hrun, State.setHif_hif, hhif]
    · rw [hx, State.setHif_hif, hhif]
      simp

end

/-- Settles O37: how rings are enabled, disabled, moved by doorbells, and take the slots they own. -/
theorem ringsTakeTheSlotsTheyOwn : Obligations.RingsTakeTheSlotsTheyOwn := by
  unfold Obligations.RingsTakeTheSlotsTheyOwn
  exact ⟨fun _ _ _ => completes_ringEnable, fun _ _ _ => completes_ringEnable_none, fun _ _ => completes_ringDisable, fun _ _ => completes_busMasterEnable,
    fun _ _ _ _ _ => completes_busMasterEnable_off, fun _ _ _ _ hd h ho _ => completes_busMasterEnable_late hd h ho, fun _ _ _ => completes_doorbell_table,
    fun _ _ _ _ => completes_doorbell, fun _ _ _ _ => completes_doorbell_none, fun _ _ _ => completes_descriptorFetched, fun _ _ => completes_adminFetch,
    fun _ _ _ => completes_staleRecheck⟩

end Sys2Proof.Machine

end

section

/-! Words and descriptors of data rings, and errors of host accesses (O38). -/

namespace Sys2Proof.Machine

/-! ## Buffers to the fabric -/

section

variable {s : State} {q n : Nat}

/-- The clocked side of queue q takes a word: it is open, no discard runs, and nothing waits before it (R168, R383). -/
structure State.TakesWords (s : State) (q : Nat) : Prop where
  runs : s.xqStopped q = false
  clock : s.get (F.XQ_STS_clk_stopped q) = 0
  reset : (s.xqQ q).wReset = false
  discard : (s.xqQ q).discard = false

theorem State.xqStopped_congr {s t : State} (h : s.Controls t) : t.xqStopped q = s.xqStopped q := by
  unfold State.xqStopped
  rw [State.on, State.on, State.on, h.getCtl q (f := F.XQ_CTL_enable q) rfl, h.getCtl q (f := F.XQ_CTL_pause q) rfl,
    h.sts q (F.XQ_STS_flushing q) (by simp [stsKept])]
  rfl

/-- One word pushed by the clocked side that takes it. -/
theorem State.TakesWords.push (h : s.TakesWords q) (d : BitVec 128) (sb : BitVec 16) :
    (s.xqPush q d sb).TakesWords q ∧ ((s.xqPush q d sb).xqQ q).words = (s.xqQ q).words ++ [xword d sb] ∧
      ((s.xqPush q d sb).xqQ q).wait = (s.xqQ q).wait ∧ (s.xqPush q d sb).hif = s.hif ∧ (∀ r, (s.xqPush q d sb).rd (R.XQ_BIND r) = s.rd (R.XQ_BIND r)) ∧
      ∀ off, off < 0xA0000 → (s.xqPush q d sb).rd off = s.rd off := by
  have hcom := s.xqPush_commits q d sb h.reset
  have heq : s.xqPush q d sb =
      ((s.setXq q { s.xqQ q with discard := false, fresh := false }).putB (F.XQ_STS_open_w q) (! sbEoi sb)).xqStore q (xword d sb) := by
    unfold State.xqPush
    dsimp only
    rw [h.discard, Bool.false_and, if_neg Bool.false_ne_true]
  have hxq : (s.xqPush q d sb).xqQ q = { s.xqQ q with discard := false, fresh := false, words := (s.xqQ q).words ++ [xword d sb] } := by
    rw [heq, State.xqStore_xqQ]
    simp [State.putB]
  have hrd (off : Nat) (ho : off < 0xA0000) : (s.xqPush q d sb).rd off = s.rd off := by
    have hput (u : State) (f : RF) (v : Nat) (hf : 0xA0000 ≤ f.off) : (u.put f v).rd off = u.rd off := State.rd_put_ne _ _ _ _ (by omega)
    rw [heq]
    unfold State.xqStore State.xqSync State.putB State.inc
    dsimp only
    rw [hput _ _ _ (Nat.le_add_right_of_le (by decide)), hput _ _ _ (Nat.le_add_right_of_le (by decide)), hput _ _ _ (Nat.le_add_right_of_le (by decide)),
      hput _ _ _ (Nat.le_add_right_of_le (by decide)), hput _ _ _ (Nat.le_add_right_of_le (by decide)), hput _ _ _ (Nat.le_add_right_of_le (by decide)),
      State.setXq_rd, hput _ _ _ (Nat.le_add_right_of_le (by decide)), State.setXq_rd]
  refine ⟨⟨?_, ?_, by rw [hxq]; exact h.reset, by rw [hxq]⟩, by rw [hxq], by rw [hxq], ?_, hcom.bind, hrd⟩
  · rw [State.xqStopped_congr hcom.toControls, h.runs]
  · rw [hcom.sts q _ (by simp [stsKept]), h.clock]
  · rw [heq]
    simp [State.xqStore, State.xqSync, State.putB, State.inc]

theorem State.TakesWords.drain (ws : List (BitVec 128 × BitVec 16)) : ∀ {s : State}, s.TakesWords q → (s.xqQ q).wait = ws →
    (s.xqQ q).words.length + ws.length ≤ 512 →
    let t := State.xqDrain ws.length s q
    (t.xqQ q).words = (s.xqQ q).words ++ ws.map (fun w => xword w.1 w.2) ∧ (t.xqQ q).wait = [] ∧ t.hif = s.hif ∧
      (∀ r, t.rd (R.XQ_BIND r) = s.rd (R.XQ_BIND r)) ∧ ∀ off, off < 0xA0000 → t.rd off = s.rd off := by
  induction ws with
  | nil => exact fun h hw _ => ⟨by simp [State.xqDrain], hw, rfl, fun _ => rfl, fun _ _ => rfl⟩
  | cons w ws ih =>
    intro s h hw hroom
    have hset : (s.setXq q { s.xqQ q with wait := ws }).TakesWords q :=
      ⟨h.runs, h.clock, by rw [State.xqQ_setXq]; exact h.reset, by rw [State.xqQ_setXq]; exact h.discard⟩
    obtain ⟨htakes, hwords, hwait, hhif, hbind, hrd⟩ := hset.push w.1 w.2
    rw [State.xqQ_setXq] at hwords hwait
    have hlen : (s.xqQ q).words.length < 512 := by simp only [List.length_cons] at hroom; omega
    have hstep : State.xqDrain (w :: ws).length s q = State.xqDrain ws.length ((s.setXq q { s.xqQ q with wait := ws }).xqPush q w.1 w.2) q := by
      show State.xqDrain (ws.length + 1) s q = _
      rw [State.xqDrain, hw]
      exact if_neg (by rw [h.runs, State.on_of_zero h.clock, h.reset, State.xqTakes]; simp [hlen])
    obtain ⟨twords, twait, thif, tbind, trd⟩ := ih htakes hwait (by rw [hwords]; simp only [List.length_append, List.length_cons, List.length_nil] at hroom ⊢; omega)
    rw [hstep]
    refine ⟨?_, twait, thif.trans hhif, fun r => (tbind r).trans (hbind r), fun off ho => (trd off ho).trans (hrd off ho)⟩
    rw [twords, hwords]
    simp

theorem h2fWords_length (soi eoi : Bool) (tag : Nat) : ∀ (k : Nat) (first : Bool) (bs : List Byte), (bs.length + 15) / 16 = k + 1 →
    (h2fWords soi eoi tag first bs (k + 1)).length = k + 1
  | 0, first, bs, h => by
    have hlast : bs.length ≤ 16 := by omega
    simp [h2fWords, hlast]
  | k + 1, first, bs, h => by
    have hlast : ¬ bs.length ≤ 16 := by omega
    rw [h2fWords]
    simp only [hlast, decide_false, Bool.false_eq_true, if_false, List.length_cons]
    rw [h2fWords_length soi eoi tag k false (bs.drop 16) (by rw [List.length_drop]; omega)]

@[simp] theorem State.ringEntry_xq (s : State) (n : Nat) : (s.ringEntry n).xq = s.xq := by
  unfold State.ringEntry State.msixSend
  dsimp only
  split
  · split <;> rfl
  · rfl

@[simp] theorem State.ringReturn_xq (s : State) (n : Nat) (d : DataDesc) (st : Nat) : (s.ringReturn n d st).xq = s.xq := by
  have hw (u : State) (c : Bool) (a b : Nat) (x y : List Byte) : (if c = true then u.hostWrite a x else u.hostWrite b y).xq = u.xq := by split <;> rfl
  unfold State.ringReturn State.descReturn State.inc
  dsimp only
  split
  · split <;> simp [hw]
  · rfl

theorem State.settle_empty {s : State} {n : Nat} (h : (s.ring n).owned = []) : s.settle n = s := by
  unfold State.settle
  rw [h]
  rfl

/-- The descriptor of a whole buffer is returned once its last word has committed (R383). -/
theorem completes_h2fDataRead {r : Fin 32} {d : DataDesc} {data : List (BitVec 8)} (hb : s.hif.bme = true) :
    let n := 0x20 + r.val
    let ws := h2fWords (d.flags.getLsbD 2) (d.flags.getLsbD 3) d.tag.toNat true data ((d.len + 15) / 16)
    s.ringQueue n = some q → s.queueRing q = some n → (s.ring n).owned = [d] → d.words = 0 → data.length = d.len → 1 ≤ d.len →
    s.xqStopped q = false → s.get (F.XQ_STS_clk_stopped q) = 0 → (s.xqQ q).wReset = false → (s.xqQ q).wait = [] →
    (s.xqQ q).discard = false → (s.xqQ q).words.length + (d.len + 15) / 16 ≤ 512 →
    Completes (.h2fDataRead r data) s (fun t => (t.xqQ q).words = (s.xqQ q).words ++ ws.map (fun w => xword w.1 w.2) ∧
      (t.ring n).owned = [] ∧ t.hif.writes = s.hif.writes ++ [⟨s.slotAddr n d.slot + 0xC,
        [(d.flags &&& 0xFD) ||| (if d.flags.getLsbD 0 then 2 else 0), d.tag.setWidth 8, 0, 0] ++ le 4 ((d.len + 15) / 16)⟩]) := by
  intro n ws hq hqr ho hw hl h1 hrun hclk hres hwait hdis hroom
  have hlen : ws.length = (d.len + 15) / 16 := by
    obtain ⟨k, hk⟩ : ∃ k, (d.len + 15) / 16 = k + 1 := ⟨(d.len + 15) / 16 - 1, by omega⟩
    show (h2fWords _ _ _ _ _ _).length = _
    rw [hk]
    exact h2fWords_length _ _ _ k true data (by rw [hl, hk])
  have hh2f : isH2f n = true := by
    have := r.isLt
    simp only [isH2f, n, Bool.and_eq_true, decide_eq_true_eq]
    omega
  generalize he : ({ d with words := ws.length } : DataDesc) = e
  have hewords : e.words = (d.len + 15) / 16 := by rw [← he, ← hlen]
  generalize hu : s.setRing n { s.ring n with owned := [e], openItem := true, openTag := d.tag } = u
  have huxq : u.xqQ q = s.xqQ q := by rw [← hu]; rfl
  have hutakes : (u.setXq q { u.xqQ q with wait := ws }).TakesWords q := by
    rw [← hu]
    exact ⟨hrun, hclk, by rw [State.xqQ_setXq]; exact hres, by rw [State.xqQ_setXq]; exact hdis⟩
  obtain ⟨twords, twait, thif, tbind, trd⟩ := hutakes.drain ws (by rw [State.xqQ_setXq])
    (by rw [State.xqQ_setXq, huxq, hlen]; exact hroom)
  have hfeed : u.xqFeed q ws = State.xqDrain ws.length (u.setXq q { u.xqQ q with wait := ws }) q := by
    unfold State.xqFeed
    rw [huxq, hwait, List.nil_append]
  generalize hv : u.xqFeed q ws = v at *
  rw [← hfeed] at twords twait thif tbind trd
  rw [State.xqQ_setXq, huxq] at twords
  have hvring : v.ring n = { s.ring n with owned := [e], openItem := true, openTag := d.tag } := by
    rw [State.ring_congr (thif.trans rfl : v.hif = u.hif), ← hu, State.ring_setRing]
  have hvb : v.hif.bme = true := by rw [thif, State.setXq_hif, ← hu]; exact hb
  have hvq : v.queueRing q = some n := by rw [State.queueRing_congr (s := s) (fun r => by rw [tbind, State.setXq_rd, ← hu]; rfl) q, hqr]
  generalize hx : v.setRing n { v.ring n with openItem := ! e.flags.getLsbD 3 } = x
  have hsettle : v.h2fSettle q = (x.ringReturn n e 0).settle n := by
    unfold State.h2fSettle
    rw [hvq, ← hx]
    simp only [hvring, hh2f, twait, hewords, List.isEmpty_nil, Bool.not_true, Bool.or_false, Bool.false_or]
    exact if_neg (by rw [beq_iff_eq]; omega)
  have hxring : x.ring n = { v.ring n with openItem := ! e.flags.getLsbD 3 } := by rw [← hx, State.ring_setRing]
  have hempty : ((x.ringReturn n e 0).ring n).owned = [] := by rw [State.ringReturn_owned, hxring, hvring]; rfl
  have hexec : exec (.h2fDataRead r data) s = .next (x.ringReturn n e 0) := by
    show execH2fDataRead r data s = _
    unfold execH2fDataRead
    rw [if_pos hb]
    unfold State.h2fData
    simp only [show 0x20 + r.val = n from rfl, ho, hq, hw, hl, ne_eq, not_true_eq_false, or_self, if_false]
    rw [show h2fWords (d.flags.getLsbD 2) (d.flags.getLsbD 3) d.tag.toNat true data ((d.len + 15) / 16) = ws from rfl, he, hu, hv, hsettle,
      State.settle_empty hempty]
  refine ⟨_, hexec, ?_, hempty, ?_⟩
  · rw [State.xqQ, State.ringReturn_xq, ← hx]
    exact twords
  · have hbase (f : RF) (hf : f.off < 0xA0000) : x.get f = s.get f := by
      rw [← hx, State.setRing_get, State.get_of_rd (trd f.off hf), State.setXq_get, ← hu, State.setRing_get]
    have haddr : x.slotAddr n e.slot = s.slotAddr n d.slot := by
      have := r.isLt
      unfold State.slotAddr
      rw [hbase (F.HIF_RING_BASE_LO_base n) (by simp only [F.HIF_RING_BASE_LO_base, R.HIF_RING_BASE_LO, n]; omega),
        hbase (F.HIF_RING_BASE_HI_base n) (by simp only [F.HIF_RING_BASE_HI_base, R.HIF_RING_BASE_HI, n]; omega), ← he]
    have hxb : x.hif.bme = true := by rw [← hx]; exact hvb
    have hxw : x.hif.writes = s.hif.writes := by rw [← hx, State.setRing_hif, thif, State.setXq_hif, ← hu]; rfl
    rw [x.ringReturn_writes e 0 hxb, hxw]
    unfold State.slotReturn
    rw [if_pos hh2f, haddr, hewords, ← he]
    rfl

/-- The number of bytes that a word of a queue carries (Table 06.4). -/
def XWord.count (w : XWord) : Nat := if (w.sb.extractLsb' 8 4).toNat = 0 then 16 else (w.sb.extractLsb' 8 4).toNat

/-- The descriptor in hand once it holds one word more (R384). -/
def DataDesc.filled (d : DataDesc) (w : XWord) : DataDesc :=
  { d with
    flags := d.flags ||| ((if sbSoi w.sb then 4 else 0) ||| (if sbEoi w.sb then 8 else 0) ||| (if w.sb.getLsbD 4 then 0x80 else 0))
    words := d.words + 1, bytes := d.bytes + w.count, tag := sbTag w.sb }

/-- The state with a word written to the buffer. -/
def State.wordOut (s : State) (q : Nat) (d : DataDesc) (w : XWord) : State :=
  (s.setXq q { s.xqQ q with got := [] }).hostWrite (d.addr + d.bytes) (le w.count w.data.toNat)

theorem State.f2hWord_fits {d : DataDesc} {w : XWord} (hq : s.ringQueue n = some q) (ho : (s.ring n).owned = [d]) (hg : (s.xqQ q).got = [w])
    (h2 : w.sb.getLsbD 2 = false) (h3 : w.sb.getLsbD 3 = false) (hl : d.bytes + w.count ≤ d.len) :
    s.f2hWord n = if sbEoi w.sb ∨ w.sb.getLsbD 4 ∨ d.len ≤ (d.filled w).bytes then ((s.wordOut q d w).ringReturn n (d.filled w) 0).settle n
      else (s.wordOut q d w).setRing n { (s.wordOut q d w).ring n with owned := [d.filled w] } := by
  unfold State.f2hWord
  simp only [hq, ho, hg, h2, h3, Bool.false_eq_true, if_false]
  exact if_neg (show ¬ d.len < d.bytes + w.count by omega)

theorem completes_f2hWordPop {r : Fin 32} {d : DataDesc} {w : XWord} (hb : s.hif.bme = true) :
    let n := 0x40 + r.val
    let nb := if (w.sb.extractLsb' 8 4).toNat = 0 then 16 else (w.sb.extractLsb' 8 4).toNat
    s.ringQueue n = some q → (s.ring n).owned = [d] → (s.xqQ q).got = [w] → w.sb.getLsbD 2 = false → w.sb.getLsbD 3 = false →
    (sbEoi w.sb = true → d.bytes + nb ≤ d.len → Completes (.f2hWordPop r) s (fun t => (t.ring n).owned = [] ∧ (t.xqQ q).got = [] ∧
      ∃ x, t.hif.writes = s.hif.writes ++ [⟨d.addr + d.bytes, le nb w.data.toNat⟩, x] ∧ x.addr = s.slotAddr n d.slot + 8 ∧
        x.data.take 4 = le 4 (d.bytes + nb) ∧ x.data.getD 6 0 = 0)) ∧
    (sbEoi w.sb = false → w.sb.getLsbD 4 = false → d.bytes + nb < d.len → Completes (.f2hWordPop r) s (fun t => (t.xqQ q).got = [] ∧
      t.hif.writes = s.hif.writes ++ [⟨d.addr + d.bytes, le nb w.data.toNat⟩] ∧
      ∃ e, (t.ring n).owned = [e] ∧ e.bytes = d.bytes + nb ∧ e.words = d.words + 1 ∧ e.tag = sbTag w.sb)) := by
  intro n nb hq ho hg h2 h3
  have hexec : exec (.f2hWordPop r) s = .next (s.f2hWord n) := by
    show execF2hWordPop r s = _
    unfold execF2hWordPop
    rw [if_pos hb]
  have hh2f : isH2f n = false := by
    simp only [isH2f, n, Bool.and_eq_false_iff, decide_eq_false_iff_not]
    omega
  have hgot : ((s.wordOut q d w).xqQ q).got = [] := congrArg Xq.got (State.xqQ_setXq _ _ _)
  refine ⟨fun he hl => ⟨_, hexec, ?_⟩, fun he h4 hl => ⟨_, hexec, ?_⟩⟩
  · have hempty : (((s.wordOut q d w).ringReturn n (d.filled w) 0).ring n).owned = [] := by
      rw [State.ringReturn_owned]
      exact congrArg List.tail ho
    rw [State.f2hWord_fits hq ho hg h2 h3 hl, if_pos (Or.inl he), State.settle_empty hempty]
    refine ⟨hempty, by rw [State.xqQ, State.ringReturn_xq]; exact hgot, (s.wordOut q d w).slotReturn n (d.filled w) 0, ?_, ?_⟩
    · rw [State.ringReturn_writes _ _ _ (show (s.wordOut q d w).hif.bme = true from hb)]
      show (s.hif.writes ++ [_]) ++ [_] = _
      rw [List.append_assoc]
      rfl
    · unfold State.slotReturn
      rw [hh2f]
      exact ⟨rfl, rfl, rfl⟩
  · have hless : ¬ (sbEoi w.sb = true ∨ w.sb.getLsbD 4 = true ∨ d.len ≤ (d.filled w).bytes) := by
      have hle : ¬ d.len ≤ (d.filled w).bytes := Nat.not_le.mpr hl
      rw [he, h4]
      simp [hle]
    rw [State.f2hWord_fits hq ho hg h2 h3 (Nat.le_of_lt hl), if_neg hless]
    exact ⟨hgot, rfl, d.filled w, congrArg Ring.owned (State.ring_setRing _ n _), rfl, rfl, rfl⟩

end

/-! ## Messages, and accesses that fail -/

section

variable {s : State} {n : Fin 96}

theorem completes_irqCoalesceTimeout (hb : s.hif.bme = true) (hi : s.get (F.HIF_RING_CFG_irq_en n) = 1) (hc : s.get (F.HIF_RING_CFG_coal_us n) ≠ 0)
    (hu : (s.ring n).unsig ≠ 0) :
    Completes (.irqCoalesceTimeout n) s (fun t => (t.ring n).unsig = 0 ∧ t.regs = s.regs ∧
      (s.msixMasked (s.get (F.HIF_RING_CFG_vector n)) = false → t.hif.msix = s.hif.msix ++ [s.get (F.HIF_RING_CFG_vector n)]) ∧
      (s.msixMasked (s.get (F.HIF_RING_CFG_vector n)) = true → t.hif.msix = s.hif.msix ∧ s.get (F.HIF_RING_CFG_vector n) ∈ t.hif.pba)) := by
  generalize hr : s.setRing n { s.ring n with unsig := 0 } = u
  have hexec : exec (.irqCoalesceTimeout n) s = .next (u.msixSend (s.get (F.HIF_RING_CFG_vector n))) := by
    show execIrqCoalesceTimeout n s = _
    unfold execIrqCoalesceTimeout
    rw [if_neg (by simp [hb, State.on, hi, hc, hu]), hr]
  have hmask : u.msixMasked (s.get (F.HIF_RING_CFG_vector n)) = s.msixMasked (s.get (F.HIF_RING_CFG_vector n)) := by rw [← hr]; rfl
  refine ⟨_, hexec, ?_, ?_, fun hm => ?_, fun hm => ?_⟩
  · rw [State.msixSend_ring, ← hr, State.ring_setRing]
  · unfold State.msixSend
    split <;> (rw [← hr]; rfl)
  · unfold State.msixSend
    rw [hmask, hm, ← hr]
    rfl
  · unfold State.msixSend
    rw [hmask, hm, ← hr]
    exact ⟨rfl, List.mem_append_right _ (List.mem_singleton.mpr rfl)⟩

/-- The fields that an entry of the event ring changes (R394). -/
def eventFields : List RF :=
  [F.HIF_EVT_LOST_count, F.HIF_RING_STS_pos 2, F.HIF_RING_STS_phase 2, F.HIF_RING_CNT_count 2, F.HIF_RING_OWN_dev_owned 2, F.HIF_RING_STS_full 2]

theorem State.raise_get_apart (s : State) (id param : Nat) {f : RF} (h : ∀ g ∈ eventFields, g.apart f = true) : (s.raise id param).get f = s.get f := by
  have hput (u : State) {g : RF} (v : Nat) (hg : g ∈ eventFields) : (u.put g v).get f = u.get f := State.get_put_apart _ _ (h g hg)
  have hadv (u : State) : (u.ringAdvance 2).get f = u.get f :=
    State.ringAdvance_other _ _ (h _ (by simp [eventFields])) (h _ (by simp [eventFields]))
  have hentry (u : State) : (u.ringEntry 2).get f = u.get f := State.get_of_regs (u.ringEntry_regs 2) f
  have hwrite (u : State) (e : List Byte) : (u.ringWrite 2 4 e).get f = u.get f := by
    unfold State.ringWrite State.putB State.inc
    dsimp only
    rw [hentry, hput _ _ (by simp [eventFields]), hput _ _ (by simp [eventFields]), hput _ _ (by simp [eventFields]), hadv]
    rfl
  have hring (u : State) (o : Nat) : (u.eventRing id param false o).get f = u.get f := by
    unfold State.eventRing
    split
    · rfl
    · split
      · exact (State.get_of_regs (s := u.ringWrite 2 4 _) rfl f).trans (hwrite _ _)
      · exact (State.get_of_regs (s := u.inc F.HIF_EVT_LOST_count) rfl f).trans (hput _ _ (by simp [eventFields]))
  have hprint (u : State) (l : List ConOut) : (u.print l).get f = u.get f := State.get_of_regs (by simp) f
  have hpel (u : State) (e : List (Nat × Nat)) : ({ u with pel := { u.pel with events := e } } : State).get f = u.get f := rfl
  have hlog : (s.logAdd (.event id param)).get f = s.get f := rfl
  unfold State.raise
  dsimp only
  rw [hring]
  (repeat' split) <;> simp only [hpel, hprint, hlog]

theorem State.raise_dmaErr (s : State) (id param n : Nat) : (s.raise id param).get (F.HIF_RING_STS_dma_err n) = s.get (F.HIF_RING_STS_dma_err n) := by
  refine s.raise_get_apart id param fun g hg => ?_
  simp only [eventFields, List.mem_cons, List.not_mem_nil, or_false] at hg
  have hoff {a : Nat} (ha : a ≠ R.HIF_RING_STS n) {lo w : Nat} : (⟨a, lo, w⟩ : RF).apart (F.HIF_RING_STS_dma_err n) = true := by
    rw [RF.apart, Bool.or_eq_true]
    exact Or.inr (bne_iff_ne.mpr (Ne.symm ha))
  rcases hg with rfl | rfl | rfl | rfl | rfl | rfl
  · exact hoff (by simp only [R.HIF_EVT_LOST, R.HIF_RING_STS]; omega)
  · rfl
  · rfl
  · exact hoff (by simp only [R.HIF_RING_CNT, R.HIF_RING_STS]; omega)
  · exact hoff (by simp only [R.HIF_RING_OWN, R.HIF_RING_STS]; omega)
  · rfl

/-- What an error of an access shows (R390). -/
theorem State.dmaErr_spec (s : State) (n : Nat) :
    (s.dmaErr n).get (F.HIF_RING_STS_dma_err n) = 1 ∧ (s.dmaErr n).get F.HIF_STS_dma_err = 1 ∧ (s.dmaErr n).logged 0x0121 n ∧
      (s.dmaErr n).hif.bme = s.hif.bme ∧ (n ≠ 2 → (s.dmaErr n).ring n = s.ring n) := by
  have hne : (F.HIF_STS_dma_err).apart (F.HIF_RING_STS_dma_err n) = true := by
    rw [RF.apart, Bool.or_eq_true]
    refine Or.inr ?_
    simp only [F.HIF_STS_dma_err, F.HIF_RING_STS_dma_err, R.HIF_STS, R.HIF_RING_STS, bne_iff_ne]
    omega
  unfold State.dmaErr
  refine ⟨?_, ?_, State.raise_logged _ _ _, ?_, fun h => ?_⟩
  · rw [State.raise_dmaErr, State.get_put_apart _ _ hne, State.get_put_lit _ rfl]
  · rw [State.raise_getKept _ _ _ rfl, State.get_put_lit _ rfl]
  · rw [State.raise_bme]
    rfl
  · rw [State.raise_ring _ _ _ h, State.put_ring, State.put_ring]

theorem completes_dmaError_descriptor (hb : s.hif.bme = true) (hf : s.ringFetches n = true) :
    Completes (.dmaError n .descriptor) s (fun t => t.get (F.HIF_RING_STS_dma_err n) = 1 ∧ t.get F.HIF_STS_dma_err = 1 ∧
      (t.ring n).stopped = true ∧ (t.ring n).owned = (s.ring n).owned ∧ t.logged 0x0121 n) := by
  have hp := (State.ringFetches_spec hf).1
  have hn : ¬ (n.val = 1 ∨ n.val = 2) := fun h => by
    rcases h with h | h <;> (rw [h] at hp; exact absurd hp (by decide))
  obtain ⟨herr, hsts, hlog, -, hring⟩ := State.dmaErr_spec (s.setRing n { s.ring n with stopped := true, rereads := 0 }) n
  have hexec : exec (.dmaError n .descriptor) s = .next ((s.setRing n { s.ring n with stopped := true, rereads := 0 }).dmaErr n) := by
    show execDmaError n .descriptor s = _
    unfold execDmaError
    simp only [hb, hf, hn, Bool.not_true, Bool.false_eq_true, if_false]
  refine ⟨_, hexec, herr, hsts, ?_, ?_, hlog⟩
  · rw [hring (not_or.mp hn).2, State.ring_setRing]
  · rw [hring (not_or.mp hn).2, State.ring_setRing]

theorem completes_dmaError_entry (hn : n.val = 1 ∨ n.val = 2) (hr : s.ringRuns n = true) :
    Completes (.dmaError n .descriptor) s (fun t => t.get (F.HIF_RING_STS_dma_err n) = 1 ∧ t.get F.HIF_STS_dma_err = 1 ∧ t.logged 0x0121 n) := by
  have hb : s.hif.bme = true := by
    simp only [State.ringRuns, Bool.and_eq_true] at hr
    exact hr.1.1
  obtain ⟨herr, hsts, hlog, -, -⟩ := s.dmaErr_spec n
  have hexec : exec (.dmaError n .descriptor) s = .next (s.dmaErr n) := by
    show execDmaError n .descriptor s = _
    unfold execDmaError
    simp only [hb, hn, hr, Bool.not_true, Bool.false_eq_true, if_false, if_true]
  exact ⟨_, hexec, herr, hsts, hlog⟩

/-! ### An error of a buffer of a data ring -/

/-- Registers in which the return of descriptors of ring n leaves an error alone. -/
theorem State.ringReturn_dmaErr (s : State) (n : Nat) (d : DataDesc) (st : Nat) :
    (s.ringReturn n d st).get (F.HIF_RING_STS_dma_err n) = s.get (F.HIF_RING_STS_dma_err n) ∧ (s.ringReturn n d st).log = s.log := by
  have hw (u : State) (c : Bool) (a b : Nat) (x y : List Byte) : (if c = true then u.hostWrite a x else u.hostWrite b y).regs = u.regs ∧
      (if c = true then u.hostWrite a x else u.hostWrite b y).log = u.log := by split <;> exact ⟨rfl, rfl⟩
  have hcnt (u : State) (v w : Nat) : ((u.put (F.HIF_RING_CNT_count n) v).put (F.HIF_RING_OWN_dev_owned n) w).get (F.HIF_RING_STS_dma_err n) =
      u.get (F.HIF_RING_STS_dma_err n) := by
    rw [State.get_put_apart _ _ (apart_base rfl rfl rfl), State.get_put_apart _ _ (apart_base rfl rfl rfl)]
  have hentry (u : State) : (u.ringEntry n).get (F.HIF_RING_STS_dma_err n) = u.get (F.HIF_RING_STS_dma_err n) ∧ (u.ringEntry n).log = u.log := by
    refine ⟨State.get_of_regs (u.ringEntry_regs n) _, ?_⟩
    unfold State.ringEntry State.msixSend
    dsimp only
    split
    · split <;> rfl
    · rfl
  have hret (u : State) : (u.descReturn n d st).get (F.HIF_RING_STS_dma_err n) = u.get (F.HIF_RING_STS_dma_err n) ∧ (u.descReturn n d st).log = u.log := by
    unfold State.descReturn State.inc
    dsimp only
    split
    · rw [(hentry _).1, hcnt, (hentry _).2]
      exact ⟨State.get_of_regs (hw u _ _ _ _ _).1 _, (hw u _ _ _ _ _).2⟩
    · rw [hcnt]
      exact ⟨State.get_of_regs (hw u _ _ _ _ _).1 _, (hw u _ _ _ _ _).2⟩
  unfold State.ringReturn
  dsimp only
  split
  · exact ⟨(hret _).1.trans (State.setRing_get _ _ _ _), (hret _).2⟩
  · exact ⟨State.setRing_get _ _ _ _, rfl⟩

/-- An abandoned item leaves of its ring what it owns and its errors. -/
theorem State.h2fAbandon_feeds (s : State) {n : Nat} (hn : n ≠ 2) : ∃ r : Ring, r.owned = (s.ring n).owned ∧ r.late = (s.ring n).late ∧
    ((s.h2fAbandon n).ring n = r) ∧ (s.h2fAbandon n).hif.bme = s.hif.bme ∧
      s.Alters feedReg (fun _ => ()) (s.h2fAbandon n) := by
  unfold State.h2fAbandon
  split
  · exact ⟨{ s.ring n with openItem := false }, rfl, rfl, State.ring_setRing _ _ _, rfl, .of_same rfl rfl rfl⟩
  · next q hq =>
    dsimp only
    split
    · exact ⟨_, rfl, rfl, rfl, rfl, .of_same rfl rfl rfl⟩
    · generalize hu : State.setRing (s.setXq q _) n _ = u
      have hfeeds := u.xqFeed_feeds (n := n) (q := q) hn (State.ringQueue_lt hq)
      obtain ⟨hb, hr⟩ := Prod.ext_iff.mp (hfeeds [((abtMarker ((s.setXq q { s.xqQ q with wait := [] }).ring n).openTag).data,
        (abtMarker ((s.setXq q { s.xqQ q with wait := [] }).ring n).openTag).sb)]).part
      dsimp only at hb hr
      refine ⟨u.ring n, ?_, ?_, hr, ?_, ?_⟩
      · rw [← hu, State.ring_setRing]
        rfl
      · rw [← hu, State.ring_setRing]
        rfl
      · rw [hb, ← hu]
        rfl
      · exact State.Alters.trans (t := u) (.of_same (by rw [← hu]; rfl) (by rw [← hu]; rfl) rfl)
          ((hfeeds _).mono (fun _ _ h => h) fun _ _ _ => rfl)

theorem completes_dmaError_data {d : DataDesc} (hb : s.hif.bme = true) (hd : isH2f n = true ∨ isF2h n = true) (ho : (s.ring n).owned = [d]) :
    Completes (.dmaError n .data) s (fun t => t.get (F.HIF_RING_STS_dma_err n) = 1 ∧ (t.ring n).owned = [] ∧ t.logged 0x0121 n ∧
      ∃ w, t.hif.writes.getLast? = some w ∧ w.data.getD (if isH2f n then 2 else 6) 0 = 8) := by
  have hn2 : n.val ≠ 2 := fun h => by rw [h] at hd; exact absurd hd (by decide)
  have hlt := n.isLt
  obtain ⟨herr, -, hlog, hbme, hring⟩ := s.dmaErr_spec n
  generalize hu : s.dmaErr n = u at *
  generalize hv : (if isH2f n then u.h2fAbandon n else u) = v
  have hkeep : (v.ring n).owned = [d] ∧ v.hif.bme = true ∧ v.get (F.HIF_RING_STS_dma_err n) = 1 ∧ v.logged 0x0121 n := by
    rw [← hv]
    split
    · obtain ⟨r, hown, -, hr, hb', halt⟩ := u.h2fAbandon_feeds hn2
      refine ⟨by rw [hr, hown, hring hn2, ho], by rw [hb', hbme, hb], ?_, halt.logged hlog⟩
      rw [halt.get_of_zero (f := F.HIF_RING_STS_dma_err n), herr]
      refine if_neg ?_
      simp only [eventReg, F.HIF_RING_STS_dma_err, R.HIF_EVT_LOST, R.HIF_RING_STS, R.HIF_RING_CNT, R.HIF_RING_OWN, Bool.or_eq_true, beq_iff_eq]
      omega
    · exact ⟨by rw [hring hn2, ho], by rw [hbme, hb], herr, hlog⟩
  obtain ⟨hown, hvb, hverr, hvlog⟩ := hkeep
  have hempty : ((v.ringReturn n d 8).ring n).owned = [] := by rw [State.ringReturn_owned, hown]; rfl
  obtain ⟨hret, hretlog⟩ := v.ringReturn_dmaErr n d 8
  have hexec : exec (.dmaError n .data) s = .next (v.ringReturn n d 8) := by
    show execDmaError n .data s = _
    unfold execDmaError
    rw [if_neg (by simp [hb])]
    simp only [ho, hu]
    rw [hv, State.settle_empty hempty]
  refine ⟨_, hexec, hret.trans hverr, hempty, State.logged_mono (by rw [hretlog, List.append_nil]) hvlog, v.slotReturn n d 8, ?_, v.slotReturn_status d 8⟩
  rw [State.ringReturn_writes _ _ _ hvb]
  exact List.getLast?_concat

theorem completes_dmaError_buffer {c : AdminCmd} {cid slot : Nat} (hb : s.hif.bme = true) (ha : s.hif.accepted = [c]) (hsrc : c.src = .ring cid slot)
    (hh : c.d.needsHost = true) (h10 : c.d.op ≠ 0x10) (h11 : c.d.op ≠ 0x11) (hfree : s.ringFree 1 = true) (hfin : s.hif.finished = []) :
    Completes (.dmaError n .buffer) s (fun t => t.hif.accepted = [] ∧ t.get F.HIF_STS_dma_err = 1 ∧
      ∃ w, t.hif.writes.getLast? = some w ∧ w.data.getD 0 0 = 8) := by
  obtain ⟨src, d⟩ := c
  dsimp only at hsrc hh h10 h11
  subst hsrc
  have hturn : s.takeCmd (fun d => d.needsHost && d.op != 0x10 && d.op != 0x11) = some (⟨.ring cid slot, d⟩, s.taken) := by
    have hfirst : firstTurn (fun d => d.needsHost && d.op != 0x10 && d.op != 0x11) false [⟨.ring cid slot, d⟩] = some ⟨.ring cid slot, d⟩ := by
      simp [firstTurn, hh, h10, h11]
    unfold State.takeCmd
    rw [ha, hfirst]
    simp [State.taken]
  obtain ⟨-, hsts, -, hbme, -⟩ := s.taken.dmaErr_spec 0
  generalize hu : s.taken.dmaErr 0 = u at *
  have hacc : u.hif.accepted = [] := by rw [← hu, State.dmaErr, State.raise_accepted]; rfl
  have hufin : u.hif.finished = [] := by rw [← hu, State.dmaErr, State.raise_finished]; exact hfin
  have hufree : u.ringFree 1 = true := by
    have hget {f : RF} (h : f.off = R.HIF_RING_CFG 1 ∨ f.off = R.HIF_RING_STS 1 ∨ f.off = R.HIF_RING_OWN 1) : u.get f = s.get f := by
      rw [← hu, State.dmaErr, State.raise_getKept _ _ _ (by rcases h with h | h | h <;> rw [h] <;> rfl),
        State.get_of_rd (State.rd_put_ne _ _ _ _ (by rcases h with h | h | h <;> rw [h] <;> decide)),
        State.get_of_rd (State.rd_put_ne _ _ _ _ (by rcases h with h | h | h <;> rw [h] <;> decide))]
      rfl
    rw [State.ringFree, State.on, State.on, State.on, hget (Or.inl rfl), hget (Or.inr (Or.inl rfl)), hget (Or.inr (Or.inr rfl)), hbme]
    exact hfree
  have hexec : exec (.dmaError n .buffer) s = .next (u.complete (.ring cid slot) 8 0) := by
    show execDmaError n .buffer s = _
    unfold execDmaError
    rw [if_neg (by simp [hb])]
    simp only [hturn, hu]
  have hans := State.complete_answered (s := u) (src := .ring cid slot) (fun _ _ _ => hufree) hufin 8 0 0 0
  obtain ⟨w, hw, hst, -⟩ := hans.answer
  refine ⟨_, hexec, hans.rest.accepted.trans hacc, ?_, w, hw, hst⟩
  rw [State.Alters.get_of_zero hans.rest (hostPage_out (Or.inl (by decide))), hsts]

end

/-! ### The fabric cleared -/

/-- The registers of regions and of the fault tolerance, behind all others. -/
def fabricPage (off : Nat) : Word := if off < 0x100000 then 0 else BitVec.allOnes 32

/-- The state without the fabric, its books, and what the loader has of its segments. -/
def State.sansFabric (s : State) : State := { s with regs := [], fab := {}, flt := {}, ldr := { s.ldr with segs := [], load := none } }

/-- From one state to the other only the fabric and its books change. -/
abbrev State.Refabs (s t : State) : Prop := s.Alters fabricPage State.sansFabric t

section

variable (s : State)

theorem fabricPage_out {off : Nat} (h : off < 0x100000) : fabricPage off = 0 := if_pos h

theorem State.put_refabs {f : RF} (v : Nat) (h : 0x100000 ≤ f.off) : s.Refabs (s.put f v) :=
  .put v (by rw [fabricPage, if_neg (by omega), and_not_allOnes]) rfl

theorem State.putB_refabs {f : RF} (b : Bool) (h : 0x100000 ≤ f.off) : s.Refabs (s.putB f b) := s.put_refabs _ h

theorem State.booksFromMap_refabs (all : Bool) : s.Refabs (s.booksFromMap all) := .of_same rfl rfl rfl

theorem State.mapShow_refabs : s.Refabs s.mapShow := by
  have hsts (u : State) (lo w v : Nat) : u.Refabs (u.put ⟨R.FLT_MOR_STS, lo, w⟩ v) := u.put_refabs v (by show 0x100000 ≤ R.FLT_MOR_STS; decide)
  exact (((hsts _ _ _ _).trans (hsts _ _ _ _)).trans (hsts _ _ _ _)).trans (hsts _ _ _ _)

theorem State.retiredFromBooks_refabs : s.Refabs s.retiredFromBooks := by
  have hput (u : State) {f : RF} (v : Nat) (h : 0x100000 ≤ f.off) : u.Refabs (u.put f v) := u.put_refabs v h
  unfold State.retiredFromBooks
  dsimp only
  refine .trans (.trans (.trans (.trans (.trans (hput _ _ ?_) (hput _ _ ?_)) (hput _ _ ?_)) (hput _ _ ?_)) (hput _ _ ?_)) (hput _ _ ?_)
  all_goals decide

theorem State.gapsFromBooks_refabs : s.Refabs s.gapsFromBooks := by
  have hput (u : State) {f : RF} (v : Nat) (h : 0x100000 ≤ f.off) : u.Refabs (u.put f v) := u.put_refabs v h
  have hputB (u : State) {f : RF} (b : Bool) (h : 0x100000 ≤ f.off) : u.Refabs (u.putB f b) := u.putB_refabs b h
  have hcol (u : State) (n g pos : Nat) (b : Bool) : u.Refabs (u.setColGap n g pos b) :=
    (hput u _ (by simp only [F.REGION_COLMAP_gap, R.REGION_COLMAP]; omega)).trans (hputB _ _ (by simp only [F.REGION_COLMAP_ret, R.REGION_COLMAP]; omega))
  have hslice (u : State) (n c g pos : Nat) (b : Bool) : u.Refabs (u.setSliceGap n c g pos b) :=
    (hput u _ (by simp only [F.REGION_SPR_MAP_gap, R.REGION_SPR_MAP]; omega)).trans (hputB _ _ (by simp only [F.REGION_SPR_MAP_ret, R.REGION_SPR_MAP]; omega))
  have hblock (u : State) (n f q pos : Nat) (b : Bool) : u.Refabs (u.setBlockGap n f q pos b) :=
    (hput u _ (by simp only [F.REGION_FIRN_MAP_gap, R.REGION_FIRN_MAP]; omega)).trans (hputB _ _ (by simp only [F.REGION_FIRN_MAP_ret, R.REGION_FIRN_MAP]; omega))
  have hrows (u : State) : u.Refabs u.rowsShow := .of_same rfl rfl rfl
  unfold State.gapsFromBooks
  dsimp only
  refine .trans (.foldl (fun u n _ => .trans (.trans (.foldl (fun u g _ => ?_) _) (.foldl (fun u c _ => .foldl (fun u g _ => ?_) u) _))
    (.foldl (fun u f _ => .foldl (fun u q _ => ?_) u) _)) _) (hrows _)
  · split <;> exact hcol _ _ _ _ _
  · split <;> exact hslice _ _ _ _ _ _
  · split <;> exact hblock _ _ _ _ _ _

/-- The start of a full load leaves every register below those of the regions (R275). -/
theorem State.fabricClear_refabs : s.Refabs s.fabricClear := by
  have hlt (u : State) (n : Nat) : u.Refabs (u.put (F.REGION_LT_FAULT_count n) 0) := u.put_refabs 0 (Nat.le_add_right_of_le (by decide))
  have hfab (u : State) (x : Fab) : u.Refabs { u with fab := x } := .of_same rfl rfl rfl
  have hldr (u : State) : u.Refabs (u.setLdr { u.ldr with segs := [] }) := .of_same rfl rfl rfl
  have hflt (u : State) (x : Flt) : u.Refabs (u.setFlt x) := .of_same rfl rfl rfl
  unfold State.fabricClear
  dsimp only
  refine .trans (.trans (.trans (.trans (.trans (((hfab s _).trans (hldr _)).trans (hflt _ _)) (.foldl (fun u n _ => hlt u n) _)) (State.booksFromMap_refabs _ _))
    (State.mapShow_refabs _)) (State.retiredFromBooks_refabs _)) (State.gapsFromBooks_refabs _)

theorem State.ringsFollow_refabs (n : Nat) : s.Refabs (s.ringsFollow n) := by
  have hfab (u : State) (x : Fab) : u.Refabs { u with fab := x } := .of_same rfl rfl rfl
  have hiso (u : State) (v : Nat) : u.Refabs (u.put (F.REGION_ISO_STS_nbr_iso n) v) := u.put_refabs v (Nat.le_add_right_of_le (by decide))
  unfold State.ringsFollow
  refine .foldl (fun u e _ => ?_) s
  split
  · exact .refl _ _ _
  · dsimp only
    split
    · exact .refl _ _ _
    · exact ((hfab u _).trans (hiso _ _)).trans (hfab _ _)

theorem State.declaredPass_refabs (set : Nat) : s.Refabs (s.declaredPass set) := by
  have hiso (u : State) (n : Nat) (b : Bool) : u.Refabs (u.putB (F.REGION_ISO_STS_own_cut n) b) := u.putB_refabs b (Nat.le_add_right_of_le (by decide))
  exact .trans (.foldl (fun u n _ => hiso u n _) s) (.foldl (fun u n _ => u.ringsFollow_refabs n) _)

end

theorem State.ldrError_code (s : State) {code : Nat} (chunk : Nat) (h : code < 2 ^ 8) : (s.ldrError code chunk).get F.LDR_ERR_code = code := by
  unfold State.ldrError
  rw [State.logAdd_get, State.get_put_apart _ _ rfl, State.get_put_apart _ _ rfl, State.get_put_lt _ rfl h]

theorem State.ldrError_other (s : State) (code chunk : Nat) {f : RF} (h : f.off ≠ R.LDR_ERR) : (s.ldrError code chunk).get f = s.get f := by
  have hne {lo w : Nat} : (⟨R.LDR_ERR, lo, w⟩ : RF).apart f = true := by
    rw [RF.apart, Bool.or_eq_true]
    exact Or.inr (bne_iff_ne.mpr h)
  unfold State.ldrError
  exact ((State.logAdd_get _ _ _).trans (State.get_put_apart _ _ hne)).trans ((State.get_put_apart _ _ hne).trans (State.get_put_apart _ _ hne))

/-- A completion changes only registers behind those of the host interface's status. -/
theorem State.completeSrc_answers (s : State) (src : Option CmdSrc) (status detail : Nat) : s.Answers (s.completeSrc src status detail) := by
  cases src with
  | none => exact .refl _ _ _
  | some c =>
    have hfin (u : State) (l : List Completion) : u.Answers (u.setHif { u.hif with finished := l }) := .of_same rfl rfl rfl
    have hrun (u : State) (r : List AdminCmd) (l : List Completion) : u.Answers (u.setHif { u.hif with running := r, finished := l }) := .of_same rfl rfl rfl
    unfold State.completeSrc State.complete
    dsimp only
    exact .ite (fun _ => (hfin s _).trans (State.deliver_answers _ _)) fun _ => (hfin s _).trans (hrun _ _ _)

/-- A failed image that is not the golden one leaves its code, and the golden image follows (R275). -/
theorem State.imageFailed_spec (s : State) {l : Load} (hl : l.source ≠ 2) {code : Nat} (chunk : Nat) (hc : code < 2 ^ 8) :
    (s.imageFailed l code chunk).get F.LDR_ERR_code = code ∧ (s.imageFailed l code chunk).get F.HIF_STS_dma_err = s.get F.HIF_STS_dma_err := by
  have hget (f : RF) (hf : f.off = R.LDR_ERR ∨ f.off = R.HIF_STS) : (s.imageFailed l code chunk).get f = (s.ldrError code chunk).get f := by
    have hlow : f.off < 0x20008 := by rcases hf with h | h <;> rw [h] <;> decide
    have hev : eventReg f.off = false := by rcases hf with h | h <;> rw [h] <;> rfl
    have hsts : f.off ≠ R.LDR_STS := by rcases hf with h | h <;> rw [h] <;> decide
    have hput (u : State) (lo w v : Nat) : (u.put ⟨R.LDR_STS, lo, w⟩ v).get f = u.get f := State.get_of_rd (State.rd_put_ne _ _ _ _ hsts)
    unfold State.imageFailed
    dsimp only
    rw [if_neg hl, State.ldrShow, F.LDR_STS_state, hput, State.setLoad, State.setLdr_get, State.Alters.get_of_zero (State.declaredPass_refabs _ _) (fabricPage_out (by omega)),
      State.Alters.get_of_zero (State.fabricClear_refabs _) (fabricPage_out (by omega)), F.LDR_STS_fallback, hput, F.LDR_STS_source, hput,
      State.Alters.get_of_zero (State.completeSrc_answers _ _ _ _) (hostPage_out (Or.inl hlow)), State.raise_getKept _ _ _ hev, State.raise_getKept _ _ _ hev]
  exact ⟨(hget _ (Or.inl rfl)).trans (s.ldrError_code chunk hc), (hget _ (Or.inr rfl)).trans (s.ldrError_other code chunk (by decide))⟩

theorem completes_dmaError_stream {s : State} {n : Fin 96} {l : Load} (hb : s.hif.bme = true) (hl : s.ldr.load = some l) (hsrc : l.source = 3)
    (hstep : l.step ≠ .startup) (hr : l.region = false) :
    Completes (.dmaError n .stream) s (fun t => t.get F.LDR_ERR_code = 0x11 ∧ t.get F.HIF_STS_dma_err = 1) := by
  have hexec : exec (.dmaError n .stream) s = .next ((s.dmaErr 0).imageFailed l 0x11 0xFFFF) := by
    show execDmaError n .stream s = _
    unfold execDmaError
    rw [if_neg (by simp [hb])]
    simp only [hl, hsrc, hstep, ne_eq, not_false_eq_true, and_self, if_true]
    rw [State.loadFailed, if_neg (by rw [hr]; decide)]
  obtain ⟨hcode, hsts⟩ := (s.dmaErr 0).imageFailed_spec (l := l) (by rw [hsrc]; decide) (code := 0x11) 0xFFFF (by decide)
  exact ⟨_, hexec, hcode, hsts.trans (s.dmaErr_spec 0).2.1⟩

/-- Settles O38: words of data rings in their order, descriptors returned, messages sent, and failed accesses told. -/
theorem dataRingsMoveWordsAndReportErrors : Obligations.DataRingsMoveWordsAndReportErrors := by
  unfold Obligations.DataRingsMoveWordsAndReportErrors
  exact ⟨fun _ _ _ _ _ => completes_h2fDataRead, fun _ _ _ _ _ => completes_f2hWordPop, fun _ _ => completes_irqCoalesceTimeout,
    fun _ _ => completes_dmaError_descriptor, fun _ _ => completes_dmaError_entry, fun _ _ _ => completes_dmaError_data,
    fun _ _ _ => completes_dmaError_stream, fun _ _ _ _ _ => completes_dmaError_buffer⟩

end Sys2Proof.Machine

end

section

/-! SUPPORT. What the end of work leaves alone (R30, R88, R276): the entry of HOLD, the isolation of regions, resets and parked pins keep the mode
and its registers, the fuses, the settings memory, the power supply's readings and the books of the fault tolerance. -/

namespace Sys2Proof.Machine

/-- The registers that change at most: all but those of the supervisor, of Cadence's and the fault tolerance's books, and the readings of the supply
and the status of the host interface; of GRM_STS the engines that are active. -/
def workReg (off : Nat) : Word :=
  if off = R.GRM_STS then F.GRM_STS_active.mask
  else if off < 0x10000 ∨ (0x40000 ≤ off ∧ off < 0x50000) ∨ (0x2C0008 ≤ off ∧ off < 0x2D0000) ∨ (0x2E0000 ≤ off ∧ off < 0x2E0014) ∨
      off = R.PWR_PHASE ∨ (0x20000 ≤ off ∧ off < 0x20008) then 0
  else BitVec.allOnes 32

/-- What such work keeps of the rest of the state. -/
def State.sansWorks (s : State) : State :=
  { pending := s.pending, mode := s.mode, fuses := s.fuses, nor := s.nor, norSize := s.norSize, units := s.units, cad := s.cad, clk := s.clk, pwr := s.pwr
    flt := { s.flt with bad := [], index := [], corr := [], checked := [], owed := [], passStart := [], streams := [], bist := {}, tests := [] }
    ldr := { fuseBlocked := s.ldr.fuseBlocked, revoke := s.ldr.revoke, load := s.ldr.load, regionLoad := s.ldr.regionLoad }, hif := { bme := s.hif.bme, table := s.hif.table, cfg := s.hif.cfg, link := s.hif.link, accepted := s.hif.accepted, running := s.hif.running }
    readData := s.readData, frameData := s.frameData }

/-- Work ends from one state to the other. -/
abbrev State.Winds (s t : State) : Prop := s.Alters workReg State.sansWorks t

/-- The registers of the regions that only their isolation and their configuration change: states and enables of watchdogs. -/
def regionKept (off : Nat) : Bool :=
  decide (0x100000 ≤ off ∧ off < 0x200000) && (off % 0x10000 == 0xD00 || decide (0x800 ≤ off % 0x10000 ∧ off % 0x10000 < 0x900 ∧ off % 8 = 0))

/-- The registers that the end of work changes within a region at most: those of the loader and the states of the regions are not among them. -/
def clearReg (off : Nat) : Word := if (0x10000 ≤ off ∧ off < 0x20000) ∨ regionKept off = true then 0 else workReg off

/-- What the end of work within a region keeps of the rest: beside what all of it keeps the loader, set-reset and the write enables. -/
def State.sansClears (s : State) : State := { s.sansWorks with ldr := s.ldr, fab := { setReset := s.fab.setReset, wen := s.fab.wen } }

/-- Work within the regions ends from one state to the other. -/
abbrev State.Clears (s t : State) : Prop := s.Alters clearReg State.sansClears t

theorem workReg_io {off : Nat} (h : 0x10000 ≤ off) (h' : off < 0x40000) (hs : off < 0x20000 ∨ 0x20008 ≤ off) : workReg off = BitVec.allOnes 32 := by
  rw [workReg, if_neg (by simp only [R.GRM_STS]; omega), if_neg (by simp only [R.PWR_PHASE]; omega)]

theorem workReg_units {off : Nat} (h : 0x50000 ≤ off) (h' : off < 0x2C0000) : workReg off = BitVec.allOnes 32 := by
  rw [workReg, if_neg (by simp only [R.GRM_STS]; omega), if_neg (by simp only [R.PWR_PHASE]; omega)]

theorem workReg_bist {off : Nat} (h : 0x2D0000 ≤ off) (h' : off < 0x2E0000) : workReg off = BitVec.allOnes 32 := by
  rw [workReg, if_neg (by simp only [R.GRM_STS]; omega), if_neg (by simp only [R.PWR_PHASE]; omega)]

theorem workReg_eventful : Eventful workReg State.sansWorks := by
  refine ⟨fun off h => workReg_io ?_ ?_ ?_, fun u => rfl⟩
  all_goals
    simp only [eventReg, Bool.or_eq_true, beq_iff_eq, R.HIF_EVT_LOST, R.HIF_RING_STS, R.HIF_RING_CNT, R.HIF_RING_OWN] at h
    omega

theorem regionKept_iff {off : Nat} : regionKept off = true ↔
    (0x100000 ≤ off ∧ off < 0x200000) ∧ (off % 0x10000 = 0xD00 ∨ (0x800 ≤ off % 0x10000 ∧ off % 0x10000 < 0x900 ∧ off % 8 = 0)) := by
  simp only [regionKept, Bool.and_eq_true, Bool.or_eq_true, beq_iff_eq, decide_eq_true_eq]

theorem clearReg_units {off : Nat} (h : 0x50000 ≤ off) (h' : off < 0x2C0000) (hk : off < 0x100000 ∨ 0x200000 ≤ off) : clearReg off = BitVec.allOnes 32 := by
  rw [clearReg, if_neg (by rw [regionKept_iff]; omega), workReg_units h h']

/-- A register of a region's page but its state and the enables of its watchdogs. -/
theorem clearReg_region {n off a : Nat} (hn : n < 16) (hf : off = a + 0x10000 * n) (ha : 0x100000 ≤ a) (hb : a < 0x110000)
    (hk : a ≠ 0x100D00) (hw : a < 0x100800 ∨ 0x100900 ≤ a ∨ a % 8 = 4) : clearReg off = BitVec.allOnes 32 := by
  rw [clearReg, if_neg (by rw [regionKept_iff]; omega), workReg_units (by omega) (by omega)]

theorem clearReg_bist {off : Nat} (h : 0x2D0000 ≤ off) (h' : off < 0x2E0000) : clearReg off = BitVec.allOnes 32 := by
  rw [clearReg, if_neg (by rw [regionKept_iff]; omega), workReg_bist h h']

theorem clearReg_host {off : Nat} (h : 0x20008 ≤ off) (h' : off < 0x40000) : clearReg off = BitVec.allOnes 32 := by
  rw [clearReg, if_neg (by rw [regionKept_iff]; omega), workReg_io (by omega) h' (Or.inr h)]

theorem clearReg_eventful : Eventful clearReg State.sansClears := by
  refine ⟨fun off h => clearReg_host ?_ ?_, fun u => rfl⟩
  all_goals
    simp only [eventReg, Bool.or_eq_true, beq_iff_eq, R.HIF_EVT_LOST, R.HIF_RING_STS, R.HIF_RING_CNT, R.HIF_RING_OWN] at h
    omega

/-- The same without set-reset and the write enables. -/
def State.sansResets (s : State) : State := { s.sansClears with fab := {} }

/-- Work within the regions ends, some of which are put in set-reset, from one state to the other. -/
abbrev State.Resets (s t : State) : Prop := s.Alters clearReg State.sansResets t

section

variable {s t : State}

theorem State.Clears.resets (h : s.Clears t) : s.Resets t := by
  refine h.mono (fun _ _ hi => hi) fun a b hab => ?_
  unfold State.sansResets
  rw [hab]

theorem State.Resets.winds (h : s.Resets t) : s.Winds t := by
  refine h.mono (fun off i hi => ?_) fun a b hab => ?_
  · unfold clearReg
    split
    · exact BitVec.getLsbD_zero
    · exact hi
  · have hq (u : State) : u.sansWorks = { u.sansResets with
        ldr := { fuseBlocked := u.sansResets.ldr.fuseBlocked, revoke := u.sansResets.ldr.revoke, load := u.sansResets.ldr.load, regionLoad := u.sansResets.ldr.regionLoad } } := rfl
    rw [hq a, hab, ← hq b]

theorem State.Clears.winds (h : s.Clears t) : s.Winds t := State.Resets.winds (State.Clears.resets h)
theorem State.Clears.setReset (h : s.Clears t) : t.fab.setReset = s.fab.setReset := (congrArg (fun u : State => u.fab.setReset) h.part :)
theorem State.Clears.wen (h : s.Clears t) : t.fab.wen = s.fab.wen := (congrArg (fun u : State => u.fab.wen) h.part :)
theorem State.Resets.ldr (h : s.Resets t) : t.ldr = s.ldr := (congrArg State.ldr h.part :)
theorem State.Clears.ldr (h : s.Clears t) : t.ldr = s.ldr := (congrArg State.ldr h.part :)

end

/-- Beside that what commands keep of what they are still to do: nothing. -/
def State.sansEnds (s : State) : State := { s.sansWorks with hif := { s.sansWorks.hif with accepted := [], running := [] } }

/-- Work and the commands that wait for it end from one state to the other. -/
abbrev State.Ends (s t : State) : Prop := s.Alters workReg State.sansEnds t

theorem State.Winds.ends {s t : State} (h : s.Winds t) : s.Ends t := by
  refine h.mono (fun _ _ hi => hi) fun a b hab => ?_
  unfold State.sansEnds
  rw [hab]

theorem State.Answers.ends {s t : State} (h : s.Answers t) : s.Ends t := by
  refine h.mono (fun off i hi => ?_) fun a b hab => ?_
  · by_cases hp : 0x20008 ≤ off ∧ off < 0x30000
    · rw [workReg_io (by omega) (by omega) (by omega), BitVec.getLsbD_allOnes] at hi
      exact BitVec.getLsbD_of_ge _ _ (by simpa using hi)
    · rw [hostPage_out (by omega)]
      exact BitVec.getLsbD_zero
  · have hq (u : State) : u.sansEnds = u.sansAnswer.sansEnds := rfl
    rw [hq a, hab, ← hq b]

section

variable (s : State)

theorem State.put_clears {f : RF} (v : Nat) (h : clearReg f.off = BitVec.allOnes 32) : s.Clears (s.put f v) :=
  .field clearReg_eventful v (by rw [h, and_not_allOnes])

/-- A field behind the registers of Cadence and before those of the fault tolerance. -/
theorem State.putUnit_clears {f : RF} (v : Nat) (h : 0x50000 ≤ f.off) (h' : f.off < 0x2C0000) (hk : f.off < 0x100000 ∨ 0x200000 ≤ f.off) : s.Clears (s.put f v) :=
  s.put_clears v (clearReg_units h h' hk)

theorem State.wrUnit_clears {off : Nat} (v : Word) (h : 0x50000 ≤ off) (h' : off < 0x2C0000) (hk : off < 0x100000 ∨ 0x200000 ≤ off) : s.Clears (s.wr off v) :=
  .wr v (clearReg_units h h' hk) rfl

theorem State.put_winds {f : RF} (v : Nat) (h : workReg f.off = BitVec.allOnes 32) : s.Winds (s.put f v) :=
  .field workReg_eventful v (by rw [h, and_not_allOnes])

theorem State.putUnit_winds {f : RF} (v : Nat) (h : 0x50000 ≤ f.off) (h' : f.off < 0x2C0000) : s.Winds (s.put f v) := s.put_winds v (workReg_units h h')

theorem State.wrUnit_winds {off : Nat} (v : Word) (h : 0x50000 ≤ off) (h' : off < 0x2C0000) : s.Winds (s.wr off v) := .wr v (workReg_units h h') rfl

theorem State.raise_clears (id param : Nat) : s.Clears (s.raise id param) := .raise clearReg_eventful id param
theorem State.raiseLim_clears (us id unit param : Nat) : s.Clears (s.raiseLim us id unit param) := .raiseLim clearReg_eventful us id unit param
theorem State.raiseFree_clears (id : Nat) : s.Clears (s.raiseFree id) := .raiseFree clearReg_eventful id

theorem State.setXq_clears (q : Nat) (x : Xq) : s.Clears (s.setXq q x) := .of_same rfl rfl rfl
theorem State.setRing_clears (n : Nat) (r : Ring) : s.Clears (s.setRing n r) := .of_same rfl rfl rfl
theorem State.setSpk_clears (u : Nat) (k : Spk) : s.Clears (s.setSpk u k) := .of_same rfl rfl rfl
theorem State.setFab_clears (x : Fab) (hr : x.setReset = s.fab.setReset) (hw : x.wen = s.fab.wen) : s.Clears { s with fab := x } :=
  .of_same rfl rfl (by unfold State.sansClears; rw [hr, hw]; rfl)
theorem State.setLane_clears (n : Nat) (x : Lane) : s.Clears (s.setLane n x) := .of_same rfl rfl rfl
theorem State.setGrp_clears (g : Nat) (x : Grp) : s.Clears (s.setGrp g x) := .of_same rfl rfl rfl
theorem State.setBist_clears (b : Bist) : s.Clears (s.setBist b) := .of_same rfl rfl rfl

/-! ### Queues -/

/-- A mask that holds the registers of the queues, and a part that neither registers, queues nor tokens reach. -/
structure QueueFrame {β : Type} (m : Nat → Word) (part : State → β) : Prop where
  reg : ∀ off, 0xA0000 ≤ off → off < 0xB0000 → m off = BitVec.allOnes 32
  put : ∀ (u : State) (f : RF) (v : Nat), part (u.put f v) = part u
  queue : ∀ (u : State) (q : Nat) (x : Xq), part (u.setXq q x) = part u
  tokens : ∀ (u : State) (l : SMap (Option Node)), part { u with fab := { u.fab with nodes := l } } = part u

end

section

variable {β : Type} {m : Nat → Word} {part : State → β} (h : QueueFrame m part) (s : State)

include h

theorem QueueFrame.setXq (q : Nat) (x : Xq) : s.Alters m part (s.setXq q x) := .of_same rfl rfl (h.queue s q x)

theorem QueueFrame.enterDiscard (q : Nat) : s.Alters m part (s.xqEnterDiscard q) := .ite (fun _ => h.setXq s q _) fun _ => .refl _ _ _

theorem QueueFrame.clearOut (ch : Chan) (n : Nat) : s.Alters m part (s.clearOut ch n) :=
  .of_same (State.clearOut_part _ (fun _ _ => rfl) s ch n) (State.clearOut_part _ (fun _ _ => rfl) s ch n) (State.clearOut_part part h.tokens s ch n)

variable {q : Nat} (hq : q < 64)

include hq

theorem QueueFrame.field {f : RF} {a : Nat} (v : Nat) (hf : f.off = a + 0x400 * q) (ha : 0xA0000 ≤ a) (hb : a < 0xA0400) : s.Alters m part (s.put f v) :=
  .put v (by rw [h.reg f.off (by omega) (by omega), and_not_allOnes]) (h.put s f v)

theorem QueueFrame.sts (lo w v : Nat) : s.Alters m part (s.put ⟨R.XQ_STS q, lo, w⟩ v) := h.field s hq (a := 0xA0008) v rfl (by decide) (by decide)

theorem QueueFrame.sync : s.Alters m part (s.xqSync q) := by
  have hsts (u : State) (lo w v : Nat) : u.Alters m part (u.put ⟨R.XQ_STS q, lo, w⟩ v) := h.sts u hq lo w v
  exact ((((hsts _ _ _ _).trans (hsts _ _ _ _)).trans (hsts _ _ _ _)).trans (hsts _ _ _ _)).trans (hsts _ _ _ _)

theorem QueueFrame.store (w : XWord) : s.Alters m part (s.xqStore q w) := by
  have hput (u : State) (v : Nat) : u.Alters m part (u.put (F.XQ_PUSHED_count q) v) := h.field u hq (a := 0xA000C) v rfl (by decide) (by decide)
  exact ((h.setXq s q _).trans (hput _ _)).trans (h.sync _ hq)

theorem QueueFrame.abt : s.Alters m part (s.xqAbt q) := by
  unfold State.xqAbt
  split
  · exact h.store s hq _
  · exact .refl _ _ _

theorem QueueFrame.drop : s.Alters m part (s.xqDrop q) := by
  have hput (u : State) (v : Nat) : u.Alters m part (u.put (F.XQ_FLUSHED_count q) v) := h.field u hq (a := 0xA0014) v rfl (by decide) (by decide)
  exact ((h.setXq s q _).trans (hput _ _)).trans (h.sync _ hq)

theorem QueueFrame.offerEnd : s.Alters m part (s.offerEnd q) := ((h.clearOut s _ _).trans (h.clearOut _ _ _)).trans (h.sts _ hq _ _ _)

theorem QueueFrame.sideDropped (writer : Bool) : s.Alters m part (s.sideDropped q writer) :=
  .trans (.trans (.ite (fun _ => h.offerEnd s hq) fun _ => .refl _ _ _) (h.setXq _ q _)) (h.drop _ hq)

theorem QueueFrame.sideMarked (writer : Bool) : s.Alters m part (s.sideMarked q writer) := by
  have hsts (u : State) (lo w v : Nat) : u.Alters m part (u.put ⟨R.XQ_STS q, lo, w⟩ v) := h.sts u hq lo w v
  exact .ite (fun _ => ((h.abt s hq).trans (h.store _ hq _)).trans ((h.setXq _ q _).trans (hsts _ _ _ _))) fun _ => (h.enterDiscard s q).trans (hsts _ _ _ _)

/-- A side reset but for its event and for the ring behind it. -/
theorem QueueFrame.sideDone (writer : Bool) : s.Alters m part
    ((((s.sideDropped q writer).sideMarked q writer).setXq q ((((s.sideDropped q writer).sideMarked q writer).xqQ q).setReset writer true)).put (F.XQ_STS_far_reset q) 1) :=
  (((h.sideDropped s hq writer).trans (h.sideMarked _ hq writer)).trans (h.setXq _ q _)).trans (h.sts _ hq _ _ _)

end

theorem queueFrame_clears : QueueFrame clearReg State.sansClears :=
  ⟨fun _ h h' => clearReg_units (by omega) (by omega) (by omega), fun _ _ _ => rfl, fun _ _ _ => rfl, fun _ _ => rfl⟩

section

variable (s : State)

theorem State.clearOut_clears (ch : Chan) (n : Nat) : s.Clears (s.clearOut ch n) := queueFrame_clears.clearOut s ch n

section

variable {q : Nat} (hq : q < 64)

include hq

theorem State.xqPush_clears (d : BitVec 128) (sb : BitVec 16) : s.Clears (s.xqPush q d sb) := by
  have hput (u : State) (v : Nat) : u.Clears (u.put (F.XQ_DISCARD_count q) v) := queueFrame_clears.field u hq (a := 0xA0018) v rfl (by decide) (by decide)
  unfold State.xqPush State.inc State.putB
  dsimp only
  refine .ite (fun _ => ((s.setXq_clears q _).trans (hput _ _)).trans (.ite (fun _ => State.raiseFree_clears _ _) fun _ => .refl _ _ _)) fun _ => ?_
  exact ((s.setXq_clears q _).trans (queueFrame_clears.sts _ hq _ _ _)).trans (queueFrame_clears.store _ hq _)

theorem State.xqDrain_clears (k : Nat) : s.Clears (State.xqDrain k s q) := by
  induction k generalizing s with
  | zero => exact .refl _ _ _
  | succ k ih =>
    unfold State.xqDrain
    split
    · exact .refl _ _ _
    · exact .ite (fun _ => .refl _ _ _) fun _ => ((s.setXq_clears q _).trans (State.xqPush_clears _ hq _ _)).trans (ih _)

theorem State.xqFeed_clears (ws : List (BitVec 128 × BitVec 16)) : s.Clears (s.xqFeed q ws) := (s.setXq_clears q _).trans (State.xqDrain_clears _ hq _)

end

/-! ### Rings -/

section

variable {n : Nat} (hn : n < 96)

theorem State.hostWrite_clears (a : Nat) (l : List Byte) : s.Clears (s.hostWrite a l) := .of_same rfl rfl rfl

theorem State.ringEntry_clears (n : Nat) : s.Clears (s.ringEntry n) := by
  have hmsix (u : State) (v : Nat) : u.Clears (u.msixSend v) := by
    unfold State.msixSend
    split <;> exact .of_same rfl rfl rfl
  unfold State.ringEntry
  dsimp only
  exact .ite (fun _ => (s.setRing_clears n _).trans (hmsix _ _)) fun _ => s.setRing_clears n _

include hn in
theorem State.descReturn_clears (d : DataDesc) (status : Nat) : s.Clears (s.descReturn n d status) := by
  have hput (u : State) {f : RF} {a : Nat} (v : Nat) (hf : f.off = a + 0x40 * n) (ha : 0x21000 ≤ a) (hb : a < 0x21040) : u.Clears (u.put f v) :=
    u.put_clears v (clearReg_host (by omega) (by omega))
  have hcnt (u : State) (v w : Nat) : u.Clears ((u.put (F.HIF_RING_CNT_count n) v).put (F.HIF_RING_OWN_dev_owned n) w) :=
    (hput u (f := F.HIF_RING_CNT_count n) (a := 0x21010) v rfl (by decide) (by decide)).trans
      (hput _ (f := F.HIF_RING_OWN_dev_owned n) (a := 0x21014) w rfl (by decide) (by decide))
  have hw (c : Bool) (a b : Nat) (x y : List Byte) : s.Clears (if c = true then s.hostWrite a x else s.hostWrite b y) :=
    .ite (fun _ => s.hostWrite_clears a x) fun _ => s.hostWrite_clears b y
  unfold State.descReturn State.inc
  exact .ite (fun _ => ((hw _ _ _ _ _).trans (hcnt _ _ _)).trans (State.ringEntry_clears _ _)) fun _ => (hw _ _ _ _ _).trans (hcnt _ _ _)

include hn in
theorem State.ringReturn_clears (d : DataDesc) (status : Nat) : s.Clears (s.ringReturn n d status) :=
  .ite (fun _ => (s.setRing_clears n _).trans (State.descReturn_clears _ hn d status)) fun _ => s.setRing_clears n _

theorem State.h2fAbandon_clears (n : Nat) : s.Clears (s.h2fAbandon n) := by
  unfold State.h2fAbandon
  split
  · exact s.setRing_clears n _
  · next q hq =>
    exact .ite (fun _ => s.setXq_clears q _) fun _ => ((s.setXq_clears q _).trans (State.setRing_clears _ n _)).trans
      (State.xqFeed_clears _ (State.ringQueue_lt hq) _)

theorem State.abandonIf_clears (n : Nat) (c : Bool) : s.Clears (if c = true then s.h2fAbandon n else s) :=
  .ite (fun _ => s.h2fAbandon_clears n) fun _ => .refl _ _ _

include hn in
theorem State.ringSettle_clears (k : Nat) : s.Clears (State.ringSettle k s n) := by
  induction k generalizing s with
  | zero => exact .refl _ _ _
  | succ k ih =>
    unfold State.ringSettle
    split
    · exact .refl _ _ _
    · refine .ite (fun _ => .refl _ _ _) fun _ => ?_
      split
      · exact .refl _ _ _
      · exact ((s.abandonIf_clears n _).trans (State.ringReturn_clears _ hn _ _)).trans (ih _)

include hn in
theorem State.settle_clears : s.Clears (s.settle n) := s.ringSettle_clears hn _

end

theorem State.ringBroken_clears (q : Nat) : s.Clears (s.ringBroken q) := by
  unfold State.ringBroken
  split
  · exact .refl _ _ _
  · next n hn =>
    have hlt := State.queueRing_lt hn
    split
    · exact .refl _ _ _
    · exact .ite (fun _ => .refl _ _ _) fun _ =>
        ((s.abandonIf_clears n _).trans (State.ringReturn_clears _ hlt _ _)).trans (State.settle_clears _ hlt)

/-! ### Resets -/

theorem State.xqSideReset_clears {q : Nat} (hq : q < 64) (writer : Bool) : s.Clears (s.xqSideReset q writer) := by
  rw [State.xqSideReset_eq]
  exact ((queueFrame_clears.sideDone s hq writer).trans (State.raiseFree_clears _ _)).trans (State.ringBroken_clears _ q)

theorem State.regionQueueReset_clears {n : Nat} (hn : n < 16) : s.Clears (s.regionQueueReset n) := by
  refine .foldl (fun u q hq => .ite (fun _ => .refl _ _ _) fun _ => u.xqSideReset_clears ?_ _) s
  simp only [regionQueues, List.mem_cons, List.not_mem_nil, or_false] at hq
  omega

/-- A field of a region's page. -/
theorem State.putRegion_clears {n : Nat} (hn : n < 16) {f : RF} {a : Nat} (v : Nat) (hf : f.off = a + 0x10000 * n) (ha : 0x100000 ≤ a) (hb : a < 0x110000)
    (hk : a ≠ 0x100D00) (hw : a < 0x100800 ∨ 0x100900 ≤ a ∨ a % 8 = 4) : s.Clears (s.put f v) := s.put_clears v (clearReg_region hn hf ha hb hk hw)

theorem State.setWdg_clears (n k : Nat) (w : Wdg) : s.Clears (s.setWdg n k w) := .of_same rfl rfl rfl

theorem State.wdgSync_clears {n : Nat} (hn : n < 16) : s.Clears (s.wdgSync n) := by
  refine .foldl (fun u k hk => ?_) s
  have hk' := List.mem_range.mp hk
  have hsts (u : State) (lo w v : Nat) : u.Clears (u.put ⟨R.REGION_WDG_STS n k, lo, w⟩ v) :=
    u.putRegion_clears hn (a := 0x100804 + 8 * k) v (show 0x100804 + 0x10000 * n + 8 * k = _ by omega) (by omega) (by omega) (by omega) (by omega)
  have hturn (w : Wdg) : u.Clears (u.wdgTurn n k w) := by
    unfold State.wdgTurn
    exact .ite (fun _ => u.setWdg_clears n k _) fun _ => u.setWdg_clears n k _
  exact (hturn _).trans (((hsts _ _ _ _).trans (hsts _ _ _ _)).trans (hsts _ _ _ _))

/-- Every stage of a region takes its initial state. -/
def State.stagesReset (s : State) (n : Nat) : State :=
  { s with fab := { s.fab with
    setReset := s.fab.setReset ||| BitVec.ofNat 16 (2 ^ n)
    wen := s.fab.wen &&& ~~~ BitVec.ofNat 16 (2 ^ n)
    nodes := SMap.keep s.fab.nodes (fun k => k / 2 ^ 32 != n)
    joined := SMap.keep s.fab.joined (fun k => k / 8192 != n)
    stuck := SMap.keep s.fab.stuck (fun k => k / 2 ^ 32 != n)
    slices := SMap.keep s.fab.slices (fun k => k / 256 != n) } }

/-- The event counts of a region that are in flight return to their counters. -/
def State.countsBack (s : State) (n : Nat) : State :=
  (List.range 8).foldl (fun s k =>
    let x := s.evLine n k
    let busy : RF := ⟨R.REGION_EVX_STS n, 16 + k, 1⟩
    if s.on busy then
      ((s.put (F.REGION_EVX_IN_pending n k) (min 255 (s.get (F.REGION_EVX_IN_pending n k) + x.flight))).put busy 0).setEvLine n k
        { x with flight := 0 }
    else s) s

theorem State.setResetOn_eq (n : Nat) : s.setResetOn n = (((s.stagesReset n).countsBack n).regionQueueReset n).wdgSync n := rfl

/-- What follows in a region that is in set-reset. -/
theorem State.setResetRest_clears {n : Nat} (hn : n < 16) : (s.stagesReset n).Clears (s.setResetOn n) := by
  have hpend (u : State) (k : Nat) (hk : k < 8) (v : Nat) : u.Clears (u.put (F.REGION_EVX_IN_pending n k) v) :=
    u.putRegion_clears hn (a := 0x100C30 + 4 * k) v (show 0x100C30 + 0x10000 * n + 4 * k = _ by omega) (by omega) (by omega) (by omega) (by omega)
  have hbusy (u : State) (lo v : Nat) : u.Clears (u.put ⟨R.REGION_EVX_STS n, lo, 1⟩ v) :=
    u.putRegion_clears hn (a := 0x100C04) v rfl (by decide) (by decide) (by decide) (by decide)
  have hline (u : State) (k : Nat) (x : EvLine) : u.Clears (u.setEvLine n k x) := .of_same rfl rfl rfl
  have hback (u : State) : u.Clears (u.countsBack n) := by
    refine .foldl (fun t k hk => ?_) u
    exact .ite (fun _ => ((hpend t k (List.mem_range.mp hk) _).trans (hbusy _ _ _)).trans (hline _ _ _)) fun _ => .refl _ _ _
  rw [State.setResetOn_eq]
  exact ((hback _).trans (State.regionQueueReset_clears _ hn)).trans (State.wdgSync_clears _ hn)

theorem State.setResetOn_setReset {n : Nat} (hn : n < 16) : (s.setResetOn n).fab.setReset = s.fab.setReset ||| BitVec.ofNat 16 (2 ^ n) :=
  State.Clears.setReset (s.setResetRest_clears hn)

theorem State.setResetOn_wen {n : Nat} (hn : n < 16) : (s.setResetOn n).fab.wen = s.fab.wen &&& ~~~ BitVec.ofNat 16 (2 ^ n) :=
  State.Clears.wen (s.setResetRest_clears hn)

theorem State.setResetOn_resets {n : Nat} (hn : n < 16) : s.Resets (s.setResetOn n) := by
  have hstages : s.Resets (s.stagesReset n) := .of_same rfl rfl rfl
  exact hstages.trans (State.Clears.resets (s.setResetRest_clears hn))

theorem State.setResetOn_winds {n : Nat} (hn : n < 16) : s.Winds (s.setResetOn n) := State.Resets.winds (s.setResetOn_resets hn)

theorem State.vset_clears (n col off w v : Nat) : s.Clears (s.vset n col off w v) := by
  have hframe (u : State) (a : Nat) (f : Frame) : u.Clears (u.setFrame a f) := .of_same rfl rfl rfl
  unfold State.vset
  dsimp only
  exact .ite (fun _ => hframe _ _ _) fun _ => (hframe _ _ _).trans (hframe _ _ _)

theorem State.firnClear_clears (n f b : Nat) : s.Clears (s.firnClear n f b) := by
  have hmark (u : State) : u.Clears { u with fab := { u.fab with cleared := SMap.set (fun _ => false) u.fab.cleared ((n * 2 + f) * 128 + b) true } } :=
    u.setFab_clears _ rfl rfl
  have hrows : s.Clears ((List.range 512).foldl (fun s row => s.setFirnRow n f b row 0) s) := .foldl (fun u _ _ => u.vset_clears _ _ _ _ _) s
  exact hrows.trans (hmark _)

theorem State.secretClear_clears (n : Nat) : s.Clears (s.secretClear n) :=
  .foldl (fun u _ _ => .foldl (fun u _ _ => .ite (fun _ => u.firnClear_clears _ _ _) fun _ => .refl _ _ _) u) s

theorem State.setRegion_winds {n : Nat} (hn : n < 16) (st : Nat) : s.Winds (s.setRegion n st) := by
  have hsts (u : State) (lo w v : Nat) : u.Winds (u.put ⟨R.REGION_PR_STS n, lo, w⟩ v) :=
    u.putUnit_winds v (Nat.le_add_right_of_le (by decide)) (by simp only [R.REGION_PR_STS]; omega)
  have hiso (u : State) (lo w v : Nat) : u.Winds (u.put ⟨R.REGION_ISO_STS n, lo, w⟩ v) :=
    u.putUnit_winds v (Nat.le_add_right_of_le (by decide)) (by simp only [R.REGION_ISO_STS]; omega)
  exact ((hsts _ _ _ _).trans (hsts _ _ _ _)).trans (hiso _ _ _ _)

theorem State.ringsFollow_clears {n : Nat} (hn : n < 16) : s.Clears (s.ringsFollow n) := by
  have hiso (u : State) (v : Nat) : u.Clears (u.put (F.REGION_ISO_STS_nbr_iso n) v) :=
    u.putRegion_clears hn (a := 0x100A0C) v rfl (by decide) (by decide) (by decide) (by decide)
  unfold State.ringsFollow
  refine .foldl (fun u e _ => ?_) s
  split
  · exact .refl _ _ _
  · exact .ite (fun _ => .refl _ _ _) fun _ => ((u.setFab_clears _ rfl rfl).trans (hiso _ _)).trans (State.setFab_clears _ _ rfl rfl)

theorem State.allRings_clears : s.Clears s.allRings := .foldl (fun u _ hn => u.ringsFollow_clears (List.mem_range.mp hn)) s

end

end Sys2Proof.Machine

end

section

/-! SUPPORT. The entry of HOLD (R30, R32, R276, R472). -/

namespace Sys2Proof.Machine

/-! ### The steps of a lane's entry into a state -/

/-- The alignment goes where the state has none. -/
def State.alignFor (s : State) (n st : Nat) : State :=
  if st < 9 ∨ st = 12 then (s.put (F.LANE_STS_align_lock n) 0).setLane n { s.laneL n with marks := 0, both := 0 } else s

/-- The recovered clock goes where the state has none. -/
def State.cdrFor (s : State) (n st : Nat) : State := if st < 4 then s.put (F.LANE_STS_cdr_lock n) 0 else s

/-- The signal goes where the state has none. -/
def State.signalFor (s : State) (n st : Nat) : State := if st < 3 then s.put (F.LANE_STS_sig_det n) 0 else s

/-- The attempts end in READY and STANDBY. -/
def State.attemptsFor (s : State) (n st : Nat) : State :=
  if st = 9 ∨ st = 13 then ((s.put (F.LANE_STS_attempts n) 0).put (F.LANE_STS_fail_cause n) 0).setLane n { s.laneL n with fails := 0, heldFail := false } else s

/-- READY is told, and a lane that was woken wakes. -/
def State.readyFor (s : State) (n st : Nat) : State :=
  if st = 9 then
    let x := s.laneL n
    let s := (s.setLane n { x with eqQual := x.eq, slow := 0, woken := false }).raiseLim 1000 0x0801 n n
    if x.woken then s.laneAwake n else s
  else s

theorem State.laneEnter_eq (s : State) {n st : Nat} (h : s.laneState n ≠ st) :
    s.laneEnter n st = ((((((((((s.scanAbort n).put (F.LANE_STS_state n) st).alignFor n st).cdrFor n st).signalFor n st).attemptsFor n st).readyFor n st).laneShow n).pllRest
      (n / 5)).grpSync (n / 5)).portReady (n / 5) := by
  unfold State.laneEnter
  rw [if_neg h]
  rfl

theorem State.laneEnter_same (s : State) {n st : Nat} (h : s.laneState n = st) : s.laneEnter n st = s := if_pos h

section

variable (s : State)

theorem State.logAdd_clears (e : LogKind) : s.Clears (s.logAdd e) := ⟨fun _ _ _ => rfl, ⟨_, rfl⟩, rfl⟩

/-! ### Units of Spoke -/

theorem padFrame_clears {u : Nat} (hu : u < 48) : PadFrame clearReg State.sansClears u := by
  refine ⟨clearReg_eventful, fun s k _ => rfl, fun p hp => ?_, ?_⟩
  · have h : clearReg (R.SPK_PINCFG u (p / 4)) = BitVec.allOnes 32 := clearReg_units (by simp only [R.SPK_PINCFG]; omega) (by simp only [R.SPK_PINCFG]; omega) (Or.inl (by simp only [R.SPK_PINCFG]; omega))
    rw [h, and_not_allOnes]
  · have h : clearReg (R.SPK_LATE u) = BitVec.allOnes 32 := clearReg_units (by simp only [R.SPK_LATE]; omega) (by simp only [R.SPK_LATE]; omega) (Or.inl (by simp only [R.SPK_LATE]; omega))
    rw [h, and_not_allOnes]

/-- A field of a unit's page. -/
theorem State.putSpk_clears {u : Nat} (hu : u < 48) {f : RF} {a : Nat} (v : Nat) (hf : f.off = a + 0x1000 * u) (ha : 0x50000 ≤ a) (hb : a < 0x51000) :
    s.Clears (s.put f v) := s.putUnit_clears v (by omega) (by omega) (by omega)

/-- A register of a unit's page. -/
theorem State.wrSpk_clears {u : Nat} (hu : u < 48) {off a : Nat} (v : Word) (hf : off = a + 0x1000 * u) (ha : 0x50000 ≤ a) (hb : a < 0x51000) :
    s.Clears (s.wr off v) := s.wrUnit_clears v (by omega) (by omega) (by omega)

section

variable {u : Nat} (hu : u < 48)

include hu

theorem State.spkPark_clears : s.Clears (s.spkPark u) :=
  ((padFrame_clears hu).padsDue s _).trans (.ite (fun _ => .trans (.foldl (fun t _ hq => (padFrame_clears hu).parkPair t (List.mem_range.mp hq)) _)
    (State.putSpk_clears _ hu (a := 0x50004) _ rfl (by decide) (by decide))) fun _ => .refl _ _ _)

theorem State.disarm_clears : s.Clears (s.disarm u) :=
  (s.setSpk_clears u _).trans (State.putSpk_clears _ hu (a := 0x50004) _ rfl (by decide) (by decide))

theorem State.spkHold_clears : s.Clears (s.spkHold u) := (s.disarm_clears hu).trans (State.spkPark_clears _ hu)

theorem State.spkSync_clears : s.Clears (s.spkSync u) :=
  ((s.putSpk_clears hu (a := 0x50004) _ rfl (by decide) (by decide)).trans (State.putSpk_clears _ hu (a := 0x50010) _ rfl (by decide) (by decide))).trans
    (State.putSpk_clears _ hu (a := 0x50014) _ rfl (by decide) (by decide))

theorem State.spkReset_clears : s.Clears (s.spkReset u) := by
  have hput (t : State) {f : RF} {a : Nat} (v : Nat) (hf : f.off = a + 0x1000 * u) (ha : 0x50000 ≤ a) (hb : a < 0x51000) : t.Clears (t.put f v) :=
    t.putSpk_clears hu v hf ha hb
  have hwr (t : State) {off a : Nat} (v : Word) (hf : off = a + 0x1000 * u) (ha : 0x50000 ≤ a) (hb : a < 0x51000) : t.Clears (t.wr off v) :=
    t.wrSpk_clears hu v hf ha hb
  have hticks (t : State) : t.Clears (t.endTicks u) := .trans (.foldl (fun t c _ => t.clearOut_clears _ 1) t) (State.setSpk_clears _ u _)
  have hadc (t : State) (c : Nat) (x : Adc) : t.Clears (t.setAdc c x) := .of_same rfl rfl rfl
  have hres (t : State) : t.Clears (t.resDrop u) := .foldl (fun t c _ => .ite (fun _ => hadc t c _) fun _ => .refl _ _ _) t
  have hwrs (t : State) : t.Clears (((t.wr (R.SPK_WRITTEN u) 0).wr (R.SPK_FIRED u) 0).wr (R.SPK_DROPPED u) 0) :=
    ((hwr _ (a := 0x50018) _ rfl (by decide) (by decide)).trans (hwr _ (a := 0x5001C) _ rfl (by decide) (by decide))).trans
      (hwr _ (a := 0x50020) _ rfl (by decide) (by decide))
  have hlate (t : State) : t.Clears ((((t.wr (R.SPK_LATE u) 0).wr (R.SPK_MON_CNT u) 0).wr (R.SPK_TICK_STS u) 0).wr (R.SPK_MON_MIN u) 0x7FFF) :=
    (((hwr _ (a := 0x50024) _ rfl (by decide) (by decide)).trans (hwr _ (a := 0x50038) _ rfl (by decide) (by decide))).trans
      (hwr _ (a := 0x50034) _ rfl (by decide) (by decide))).trans (hwr _ (a := 0x5003C) _ rfl (by decide) (by decide))
  have hslack (t : State) (m : Nat) (hm : m < 8) : t.Clears (t.wr (R.SPK_SLACK u m) 0) :=
    t.wrUnit_clears _ (by simp only [R.SPK_SLACK]; omega) (by simp only [R.SPK_SLACK]; omega) (Or.inl (by simp only [R.SPK_SLACK]; omega))
  have hsts (t : State) : t.Clears ((t.put (F.SPK_STS_armed u) 0).put (F.SPK_STS_occ_snap u) 0) :=
    (hput _ (a := 0x50004) _ rfl (by decide) (by decide)).trans (hput _ (a := 0x50004) _ rfl (by decide) (by decide))
  unfold State.spkReset
  extract_lets a b k _ d e f g h i
  have hb : s.Clears b := (((s.spkPark_clears hu).trans (hticks _)).trans (State.clearOut_clears _ _ _)).trans (hres _)
  have hd : b.Clears d := b.setSpk_clears u _
  have he : d.Clears e := hput d (f := F.SPK_CTL_enable u) (a := 0x50000) _ rfl (by decide) (by decide)
  have hg : e.Clears g := ((hwrs e).trans (hsts f)).trans (State.spkSync_clears _ hu)
  have hi : g.Clears i := hlate g
  exact (((hb.trans hd).trans (he.trans hg)).trans hi).trans (.foldl (fun t m hm => hslack t m (List.mem_range.mp hm)) i)

end

/-! ### The rolling test -/

theorem State.putBist_clears {f : RF} (v : Nat) (h : 0x2D0000 ≤ f.off) (h' : f.off < 0x2E0000) : s.Clears (s.put f v) := s.put_clears v (clearReg_bist h h')

theorem State.bistRecord_clears (r : TestRec) (bits : List (BitVec 64)) : s.Clears (s.bistRecord r bits) := by
  have hput (u : State) {f : RF} (v : Nat) (h : 0x2D0000 ≤ f.off) (h' : f.off < 0x2E0000) : u.Clears (u.put f v) := u.putBist_clears v h h'
  have hlast (u : State) : u.Clears ((((u.put F.BIST_LAST_result r.result).put F.BIST_LAST_region r.region).put F.BIST_LAST_group (r.pos / 17)).put F.BIST_LAST_column r.pos) :=
    (((hput _ _ (by decide) (by decide)).trans (hput _ _ (by decide) (by decide))).trans (hput _ _ (by decide) (by decide))).trans (hput _ _ (by decide) (by decide))
  unfold State.bistRecord
  dsimp only
  split
  · exact (s.setBist_clears _).trans (hlast _)
  · exact hlast _

theorem State.bistCut_clears : s.Clears s.bistCut := by
  have hput (u : State) {f : RF} (v : Nat) (h : 0x2D0000 ≤ f.off) (h' : f.off < 0x2E0000) : u.Clears (u.put f v) := u.putBist_clears v h h'
  have hdraw (u : State) : u.Clears u.draw.2 := .of_same rfl rfl rfl
  unfold State.bistCut
  refine .ite (fun _ => .refl _ _ _) fun _ => ?_
  dsimp only
  exact (((((hdraw s).trans (State.setBist_clears _ _)).trans (hput _ _ (by decide) (by decide))).trans
    ((hput _ _ (by decide) (by decide)).trans (hput _ _ (by decide) (by decide)))).trans (State.bistRecord_clears _ _ _)).trans (State.raise_clears _ _ _)

theorem State.bistStop_clears : s.Clears s.bistStop :=
  (s.bistCut_clears.trans (State.setBist_clears _ _)).trans (State.putBist_clears _ _ (by decide) (by decide))

theorem State.keepTest_clears (t : TestRun) : s.Clears (s.keepTest t) := .of_same rfl rfl rfl

theorem State.completeAll_ends (l : List AdminCmd) (status detail : Nat) : s.Ends (l.foldl (fun s c => s.complete c.src status detail) s) :=
  .foldl (fun u c _ => (u.completeSrc_answers (some c.src) status detail).ends) s

theorem State.bistEnd_ends : s.Ends s.bistEnd := by
  unfold State.bistEnd
  dsimp only
  refine .trans (State.Winds.ends (State.Clears.winds (.trans ?_ (State.bistStop_clears _)))) (State.completeAll_ends _ _ _ _)
  split
  · exact s.bistCut_clears.trans (State.keepTest_clears _ _)
  · exact s.bistCut_clears

theorem State.bistLeave_clears (n : Nat) : s.Clears (s.bistLeave n) := by
  have hcut : s.Clears (s.bistCutIn n) := .ite (fun _ => s.bistCut_clears) fun _ => .refl _ _ _
  exact hcut.trans (.ite (fun _ => (State.setBist_clears _ _).trans (State.putBist_clears _ _ (by decide) (by decide))) fun _ => .refl _ _ _)

/-! ### Regions -/

theorem and_not_self (w : Word) : w &&& ~~~ w = 0 := by simp

theorem State.putGrmSts_clears (v : Nat) : s.Clears (s.put F.GRM_STS_active v) := by
  have hmask : clearReg F.GRM_STS_active.off = F.GRM_STS_active.mask := rfl
  exact .field clearReg_eventful v (by rw [hmask, and_not_self])

/-- A region leaves its test and its freeze. -/
def State.thawed (s : State) (n : Nat) : State := ((s.bistLeave n).put (F.REGION_FREEZE_freeze n) 0).put (F.REGION_FREEZE_settled n) 0

/-- The units of a region that work are reset, and its engine rests. -/
def State.unitsReset (s : State) (n : Nat) : State :=
  let s := (unitsOf n).foldl (fun s u => if s.spkRetired u then s else s.spkReset u) s
  s.put F.GRM_STS_active (clrBit (s.get F.GRM_STS_active) n)

theorem State.isolate_eq (n st : Nat) : s.isolate n st = ((((s.thawed n).setRegion n st).allRings).setResetOn n).unitsReset n := rfl

theorem State.putFreeze_clears {n : Nat} (hn : n < 16) (lo w v : Nat) : s.Clears (s.put ⟨R.REGION_FREEZE n, lo, w⟩ v) :=
  s.putRegion_clears hn (a := 0x100900) v rfl (by decide) (by decide) (by decide) (by decide)

theorem State.thawed_clears {n : Nat} (hn : n < 16) : s.Clears (s.thawed n) :=
  (s.bistLeave_clears n).trans ((State.putFreeze_clears _ hn _ _ _).trans (State.putFreeze_clears _ hn _ _ _))

theorem State.unitsReset_clears (n : Nat) : s.Clears (s.unitsReset n) := by
  have hunits (u : State) : u.Clears ((unitsOf n).foldl (fun s u => if s.spkRetired u then s else s.spkReset u) u) := by
    refine .foldl (fun t k hk => .ite (fun _ => .refl _ _ _) fun _ => t.spkReset_clears ?_) u
    exact List.mem_range.mp (List.mem_filter.mp hk).1
  exact (hunits s).trans (State.putGrmSts_clears _ _)

theorem State.isolate_winds {n : Nat} (hn : n < 16) (st : Nat) : s.Winds (s.isolate n st) := by
  rw [State.isolate_eq]
  exact ((State.Clears.winds (s.thawed_clears hn)).trans ((State.setRegion_winds _ hn st).trans (State.Clears.winds (State.allRings_clears _)))).trans
    ((State.setResetOn_winds _ hn).trans (State.Clears.winds (State.unitsReset_clears _ n)))

theorem State.putLow_winds {f : RF} (v : Nat) (h : 0x10000 ≤ f.off) (h' : f.off < 0x20000) : s.Winds (s.put f v) :=
  s.put_winds v (workReg_io h (by omega) (Or.inl h'))

theorem State.ldrError_winds (code chunk : Nat) : s.Winds (s.ldrError code chunk) := by
  have hput (u : State) (lo w v : Nat) : u.Winds (u.put ⟨R.LDR_ERR, lo, w⟩ v) :=
    u.putLow_winds v (show 0x10000 ≤ R.LDR_ERR by decide) (show R.LDR_ERR < 0x20000 by decide)
  exact ((hput _ _ _ _).trans ((hput _ _ _ _).trans (hput _ _ _ _))).trans (State.Clears.winds (State.logAdd_clears _ _))

theorem State.prError_clears (set code chunk : Nat) : s.Clears (s.prError set code chunk) := by
  refine .foldl (fun u n hn => .ite (fun _ => ?_) fun _ => .refl _ _ _) s
  have hn' := List.mem_range.mp hn
  have hput (u : State) (lo w v : Nat) : u.Clears (u.put ⟨R.REGION_PR_ERR n, lo, w⟩ v) :=
    u.putRegion_clears hn' (a := 0x100D04) v rfl (by decide) (by decide) (by decide) (by decide)
  exact (hput _ _ _ _).trans ((hput _ _ _ _).trans (hput _ _ _ _))

theorem State.ldrIdle_winds : s.Winds s.ldrIdle := s.putLow_winds _ (by decide) (by decide)

theorem State.completeSrc_ends (src : Option CmdSrc) (status detail : Nat) : s.Ends (s.completeSrc src status detail) := (s.completeSrc_answers src status detail).ends

theorem State.live_lt {set n : Nat} (h : n ∈ s.liveOf set) : n < 16 := List.mem_range.mp (List.mem_filter.mp h).1

theorem State.liveSetReset_winds (set : Nat) (f : State → Nat → State) (hf : ∀ (u : State) (n : Nat), n < 16 → u.Winds (f u n)) :
    s.Winds ((s.liveOf set).foldl (fun s n => (f s n).setResetOn n) s) :=
  .foldl (fun u n hn => (hf u n (State.live_lt _ hn)).trans (State.setResetOn_winds _ (State.live_lt _ hn))) s

theorem State.holdReset_winds : s.Winds s.holdReset :=
  (s.liveSetReset_winds 0xFFFF _ fun u _ hn => State.Clears.winds (u.putFreeze_clears hn _ _ _)).trans (State.Clears.winds (State.putGrmSts_clears _ _))

theorem State.holdFreeze_clears : s.Clears s.holdFreeze :=
  .foldl (fun u _ hn => .ite (fun _ => .refl _ _ _) fun _ => (u.putFreeze_clears (List.mem_range.mp hn) _ _ _).trans (State.wdgSync_clears _ (List.mem_range.mp hn))) s

theorem State.grmFresh_clears (n : Nat) : s.Clears (s.grmFresh n) := .of_same rfl rfl rfl

theorem State.grmHold_clears : s.Clears s.grmHold :=
  .foldl (fun u n _ => .ite (fun _ => (u.putGrmSts_clears _).trans (State.grmFresh_clears _ n)) fun _ => .refl _ _ _) s

theorem State.regionsRun_winds (set : Nat) : s.Winds (s.regionsRun set) :=
  .trans (.foldl (fun u _ hn => .ite (fun _ => u.setRegion_winds (List.mem_range.mp hn) _) fun _ => u.setRegion_winds (List.mem_range.mp hn) _) s) (State.Clears.winds (State.allRings_clears _))

theorem State.regionsFail_winds : s.Winds s.regionsFail :=
  .trans (.foldl (fun u _ hn => u.setRegion_winds (State.live_lt _ hn) 5) s) (State.Clears.winds (State.allRings_clears _))

theorem State.designRuns_winds (l : Load) : s.Winds (s.designRuns l) := by
  have himages (u : State) (m : SMap Image) : u.Winds (u.setLdr { u.ldr with images := m }) := .of_same rfl rfl rfl
  refine .trans (.trans (s.regionsRun_winds _) (.foldl (fun u n hn => ?_) _)) (himages _ _)
  have hn' := State.live_lt _ hn
  have himg (t : State) (v : Word) : t.Winds (t.wr (R.REGION_PR_IMG n) v) :=
    t.wrUnit_winds v (Nat.le_add_right_of_le (by decide)) (by simp only [R.REGION_PR_IMG]; omega)
  have hver (t : State) (v : Word) : t.Winds (t.wr (R.REGION_PR_VER n) v) :=
    t.wrUnit_winds v (Nat.le_add_right_of_le (by decide)) (by simp only [R.REGION_PR_VER]; omega)
  exact ((himg _ _).trans (hver _ _)).trans (State.putUnit_winds _ _ (Nat.le_add_right_of_le (by decide)) (by simp only [F.REGION_PR_STS_by_full, R.REGION_PR_STS]; omega))

/-- The same without the load. -/
theorem State.Winds.unload {s t : State} (h : s.Winds t) : (s.setLoad none).Winds (t.setLoad none) := by
  refine ⟨h.bit, h.log, ?_⟩
  have hq (u : State) : (u.setLoad none).sansWorks = { u.sansWorks with ldr := { u.sansWorks.ldr with load := none } } := rfl
  rw [hq s, hq t, h.part]

/-- A full load ends as if there had been none. -/
theorem State.endFullLoad_ends : (s.setLoad none).Ends s.endFullLoad := by
  have hnone (u : State) : u.Winds u.ldrNone := u.ldrIdle_winds.trans (State.putLow_winds _ _ (by decide) (by decide))
  unfold State.endFullLoad
  split
  · next hl => exact .of_same rfl rfl (by rw [State.setLoad, State.setLdr, ← hl])
  · dsimp only
    refine (State.Winds.ends (State.Winds.unload (.trans (.ite (fun _ => ?_) fun _ => ?_) (State.ldrError_winds _ _ _)))).trans (State.completeSrc_ends _ _ _ _)
    · exact (s.designRuns_winds _).trans (State.ldrIdle_winds _)
    · exact s.regionsFail_winds.trans (hnone _)

theorem State.endAskedLoads_ends : s.Ends s.endAskedLoads := by
  have hacc (l : List AdminCmd) : s.Ends (s.setHif { s.hif with accepted := l }) := .of_same rfl rfl rfl
  exact (hacc _).trans (.foldl (fun u c _ => (State.Winds.ends (State.Clears.winds (u.logAdd_clears _))).trans (State.completeSrc_ends _ (some c.src) _ _)) _)

/-! ### Pins and lanes -/

theorem State.setPins_clears (x : Pins) : s.Clears { s with pins := x } := .of_same rfl rfl rfl

theorem State.setSysPad_clears {p : Nat} (hp : p < 64) (v : Pad) : s.Clears (s.setSysPad p v) := by
  have hin (u : State) (v : Nat) : u.Clears (u.put ⟨R.PIN_IN (p / 16), p % 16, 1⟩ v) :=
    u.putUnit_clears v (Nat.le_add_right_of_le (by decide)) (by simp only [R.PIN_IN]; omega) (Or.inl (by simp only [R.PIN_IN]; omega))
  unfold State.setSysPad
  dsimp only
  split
  · exact (s.setPins_clears _).trans (hin _ _)
  · exact (s.setPins_clears _).trans (hin _ _)
  · exact s.setPins_clears _

theorem State.pinRefresh_clears {p : Nat} (hp : p < 64) : s.Clears (s.pinRefresh p) := by
  have hset := fun v => s.setSysPad_clears hp v
  unfold State.pinRefresh
  refine .ite (fun _ => .refl _ _ _) fun _ => .ite (fun _ => hset _) fun _ => .ite (fun _ => .refl _ _ _) fun _ => .ite (fun _ => hset _) fun _ => ?_
  split
  · exact hset _
  · exact .ite (fun _ => hset _) (fun _ => hset _)

theorem State.pinRefreshAll_clears : s.Clears s.pinRefreshAll := .foldl (fun u _ hp => u.pinRefresh_clears (List.mem_range.mp hp)) s

theorem State.pinsPark_clears : s.Clears s.pinsPark := (s.setPins_clears _).trans (State.pinRefreshAll_clears _)

/-- A field of a lane's page. -/
theorem State.putLane_clears {n : Nat} (hn : n < 64) {f : RF} {a : Nat} (v : Nat) (hf : f.off = a + 0x1000 * n) (ha : 0x200000 ≤ a) (hb : a < 0x201000) :
    s.Clears (s.put f v) := s.putUnit_clears v (by omega) (by omega) (by omega)

theorem State.putGrp_clears {g : Nat} (hg : g < 12) (lo w v : Nat) : s.Clears (s.put ⟨R.GRP_STS g, lo, w⟩ v) :=
  s.putUnit_clears v (Nat.le_add_right_of_le (by decide)) (by simp only [R.GRP_STS]; omega) (Or.inr (Nat.le_add_right_of_le (by decide)))

theorem State.grpSync_clears {g : Nat} (hg : g < 12) : s.Clears (s.grpSync g) :=
  ((s.putGrp_clears hg _ _ _).trans (State.putGrp_clears _ hg _ _ _)).trans (State.putGrp_clears _ hg _ _ _)

section

variable {n : Nat} (hn : n < 60)

include hn

theorem State.putLaneSts_clears (lo w v : Nat) : s.Clears (s.put ⟨R.LANE_STS n, lo, w⟩ v) :=
  s.putUnit_clears v (Nat.le_add_right_of_le (by decide)) (by simp only [R.LANE_STS]; omega) (Or.inr (Nat.le_add_right_of_le (by decide)))

theorem State.scanAbort_clears : s.Clears (s.scanAbort n) := by
  have hscan (u : State) (lo w v : Nat) : u.Clears (u.put ⟨R.LANE_ES_CTL n, lo, w⟩ v) :=
    u.putUnit_clears v (Nat.le_add_right_of_le (by decide)) (by simp only [R.LANE_ES_CTL]; omega) (Or.inr (Nat.le_add_right_of_le (by decide)))
  exact .trans (.ite (fun _ => s.setLane_clears n _) fun _ => .refl _ _ _) (.ite (fun _ => (hscan _ _ _ _).trans (hscan _ _ _ _)) fun _ => .refl _ _ _)

theorem State.alignFor_clears (st : Nat) : s.Clears (s.alignFor n st) :=
  .ite (fun _ => (s.putLaneSts_clears hn _ _ _).trans (State.setLane_clears _ n _)) fun _ => .refl _ _ _

theorem State.cdrFor_clears (st : Nat) : s.Clears (s.cdrFor n st) := .ite (fun _ => s.putLaneSts_clears hn _ _ _) fun _ => .refl _ _ _

theorem State.signalFor_clears (st : Nat) : s.Clears (s.signalFor n st) := .ite (fun _ => s.putLaneSts_clears hn _ _ _) fun _ => .refl _ _ _

theorem State.attemptsFor_clears (st : Nat) : s.Clears (s.attemptsFor n st) :=
  .ite (fun _ => ((s.putLaneSts_clears hn _ _ _).trans (State.putLaneSts_clears _ hn _ _ _)).trans (State.setLane_clears _ n _)) fun _ => .refl _ _ _

theorem State.pllRest_clears : s.Clears (s.pllRest (n / 5)) := .ite (fun _ => s.putGrp_clears (by omega) _ _ _) fun _ => .refl _ _ _

/-- A lane of a group that is no port's enters a state other than READY. -/
theorem State.laneEnter_clears (hg : isPelGrp (n / 5) = false) {st : Nat} (hst : st ≠ 9) : s.Clears (s.laneEnter n st) := by
  have hport (u : State) : u.portReady (n / 5) = u := by rw [State.portReady, hg, if_neg (by simp)]
  have hready (u : State) : u.readyFor n st = u := if_neg hst
  by_cases h : s.laneState n = st
  · rw [s.laneEnter_same h]
    exact .refl _ _ _
  · rw [s.laneEnter_eq h, hport, hready]
    exact ((((((s.scanAbort_clears hn).trans (State.putLaneSts_clears _ hn _ _ _)).trans (State.alignFor_clears _ hn st)).trans ((State.cdrFor_clears _ hn st).trans
      (State.signalFor_clears _ hn st))).trans (State.attemptsFor_clears _ hn st)).trans (State.setLane_clears _ n _)).trans
      ((State.pllRest_clears _ hn).trans (State.grpSync_clears _ (by omega)))

end

theorem State.laneOff_clears {n : Nat} (hn : n < 60) (hu : 30 ≤ n) : s.Clears (s.laneOff n) :=
  (s.setLane_clears n _).trans (State.laneEnter_clears _ hn (by simp only [isPelGrp, Bool.and_eq_false_iff, decide_eq_false_iff_not]; omega) (by decide))

theorem State.userLanesIdle_clears : s.Clears s.userLanesIdle := by
  refine .foldl (fun u i hi => ?_) s
  have hi' := List.mem_range.mp hi
  refine .trans (.foldl (fun t j hj => t.laneOff_clears ?_ ?_) u) ((State.setGrp_clears _ _ _).trans (State.putGrp_clears _ (by omega) _ _ _))
  all_goals
    have hj' := List.mem_range.mp hj
    omega

end

/-! ### The entry of HOLD -/

/-- The registers that the entry of HOLD changes at most. -/
def holdReg (off : Nat) : Word := if off = R.SUP_MODE then BitVec.allOnes 32 else workReg off

/-- What the entry of HOLD keeps of the rest of the state. -/
def State.sansHalt (s : State) : State :=
  { s.sansEnds with mode := .cold, pwr := {}, flt := { s.sansEnds.flt with repairs := [] }, ldr := { s.sansEnds.ldr with regionLoad := none } }

abbrev State.Halts (s t : State) : Prop := s.Alters holdReg State.sansHalt t

theorem State.Ends.halts {s t : State} (h : s.Ends t) : s.Halts t := by
  refine h.mono (fun off i hi => ?_) fun a b hab => ?_
  · unfold holdReg at hi
    split at hi
    · rw [BitVec.getLsbD_allOnes] at hi
      exact BitVec.getLsbD_of_ge _ _ (by simpa using hi)
    · exact hi
  · unfold State.sansHalt
    rw [hab]

theorem State.Winds.halts {s t : State} (h : s.Winds t) : s.Halts t := h.ends.halts

/-- Beside the load, which the entry of HOLD ends. -/
def State.sansHold (s : State) : State := { s.sansHalt with ldr := { s.sansHalt.ldr with load := none } }

/-- HOLD is entered from one state to the other. -/
abbrev State.Holds (s t : State) : Prop := s.Alters holdReg State.sansHold t

theorem State.Halts.holds {s t : State} (h : s.Halts t) : s.Holds t := by
  refine h.mono (fun _ _ hi => hi) fun a b hab => ?_
  unfold State.sansHold
  rw [hab]

section

variable (s : State)

theorem holdReg_eventful : Eventful holdReg State.sansHalt := by
  refine ⟨fun off h => ?_, fun u => ?_⟩
  · have hne : off ≠ R.SUP_MODE := by
      rintro rfl
      exact absurd h (by decide)
    rw [holdReg, if_neg hne]
    exact workReg_eventful.reg off h
  · rfl

theorem State.putSupMode_halts (lo w v : Nat) : s.Halts (s.put ⟨R.SUP_MODE, lo, w⟩ v) := .field holdReg_eventful v (by
  rw [show holdReg R.SUP_MODE = BitVec.allOnes 32 from rfl]
  exact and_not_allOnes _)

theorem State.isolateForLoad_halts {n : Nat} (hn : n < 16) : s.Halts (s.isolateForLoad n) := by
  have hwdg (u : State) (k : Nat) (hk : k < 32) : u.Winds (u.put (F.REGION_WDG_CTL_enable n k) 0) :=
    u.putUnit_winds _ (by simp only [F.REGION_WDG_CTL_enable, R.REGION_WDG_CTL]; omega) (by simp only [F.REGION_WDG_CTL_enable, R.REGION_WDG_CTL]; omega)
  have hsegs (u : State) (x : SMap Nat) : u.Winds (u.setLdr { u.ldr with segs := x }) := .of_same rfl rfl rfl
  have hcount (u : State) : u.Winds (u.put (F.REGION_LT_FAULT_count n) 0) :=
    u.putUnit_winds _ (Nat.le_add_right_of_le (by decide)) (by simp only [F.REGION_LT_FAULT_count, R.REGION_LT_FAULT]; omega)
  have hbooks (u : State) (f : Nat → Bool) : u.Halts (u.setFlt { u.flt with
      repairs := u.flt.repairs.filter f, index := SMap.keep u.flt.index f, corr := SMap.keep u.flt.corr f, bad := SMap.keep u.flt.bad f }) := .of_same rfl rfl rfl
  have hwdgs : s.Winds ((List.range 32).foldl (fun s k => s.put (F.REGION_WDG_CTL_enable n k) 0) s) := .foldl (fun u k hk => hwdg u k (List.mem_range.mp hk)) s
  unfold State.isolateForLoad
  extract_lets a b _ d _ f _ g
  have hab : a.Winds b := (a.isolate_winds hn 3).trans (State.Clears.winds (State.secretClear_clears _ n))
  have hcd : b.Winds f := (hsegs b _).trans (State.Clears.winds (d.setFab_clears _ rfl rfl))
  have hfg : f.Halts g := hbooks f _
  exact ((State.Winds.halts (hwdgs.trans (hab.trans hcd))).trans hfg).trans (State.Winds.halts ((hcount g).trans (State.Clears.winds (State.wdgSync_clears _ hn))))

/-- A partial fault without a region that still waits for its isolation. -/
theorem State.partialFault_winds (set : Nat) : s.Winds (s.partialFault set 0) := by
  have hfault (u : State) (n : Nat) (hn : n < 16) : u.Winds (u.put (F.REGION_PR_STS_fault n) 1) :=
    u.putUnit_winds _ (Nat.le_add_right_of_le (by decide)) (by simp only [F.REGION_PR_STS_fault, R.REGION_PR_STS]; omega)
  refine .trans (.trans (.foldl (fun u n hn => ?_) s) (State.Clears.winds (State.allRings_clears _))) (State.Clears.winds (State.raise_clears _ _ _))
  have hn' := State.live_lt _ hn
  have hno : (0 : BitVec 16).getLsbD n = false := BitVec.getLsbD_zero
  simp only [hno, Bool.false_eq_true, if_false]
  exact ((u.setRegion_winds hn' 5).trans (hfault _ n hn')).trans (State.setResetOn_winds _ hn')

theorem State.partialFault_halts (set : Nat) (waiting : BitVec 16) : s.Halts (s.partialFault set waiting) := by
  have hfault (u : State) (n : Nat) (hn : n < 16) : u.Winds (u.put (F.REGION_PR_STS_fault n) 1) :=
    u.putUnit_winds _ (Nat.le_add_right_of_le (by decide)) (by simp only [F.REGION_PR_STS_fault, R.REGION_PR_STS]; omega)
  refine .trans (.foldl (fun u n hn => ?_) s) (State.Winds.halts ((State.Clears.winds (State.allRings_clears _)).trans (State.Clears.winds (State.raise_clears _ _ _))))
  have hn' := State.live_lt _ hn
  have hiso : u.Halts (if waiting.getLsbD n = true then u.isolateForLoad n else u) := .ite (fun _ => u.isolateForLoad_halts hn') fun _ => .refl _ _ _
  refine hiso.trans ?_
  exact State.Winds.halts (((State.setRegion_winds _ hn' 5).trans (hfault _ n hn')).trans (State.setResetOn_winds _ hn'))

theorem State.endRegionLoad_halts (hold : Bool) : s.Halts (s.endRegionLoad hold) := by
  have hend (u : State) (src : Option CmdSrc) : u.Halts (((u.setRegionLoad none).ldrIdle).completeSrc src 7 0x13) := by
    have hset : u.Halts (u.setRegionLoad none) := .of_same rfl rfl rfl
    exact hset.trans (State.Ends.halts ((State.ldrIdle_winds _).ends.trans (State.completeSrc_ends _ _ _ _)))
  unfold State.endRegionLoad
  split
  · exact .refl _ _ _
  · next l _ =>
    dsimp only
    exact .trans ((State.Winds.halts ((s.ldrError_winds _ _).trans (State.Clears.winds (State.prError_clears _ _ _ _)))).trans (.ite (fun _ => State.partialFault_halts _ _ _) fun _ => .refl _ _ _)) (hend _ _)

theorem State.endActivation_ends (hold : Bool) (a : Activation) : s.Ends (s.endActivation hold a) := by
  have hback (u : State) : u.Winds ((u.liveOf a.set.toNat).foldl (fun s n => (s.setRegion n 2).setResetOn n) u) :=
    u.liveSetReset_winds _ _ fun t n hn => t.setRegion_winds hn 2
  refine .trans (State.Winds.ends (.ite (fun _ => ?_) fun _ => hback s)) (State.completeSrc_ends _ _ _ _)
  exact .trans (((s.ldrError_winds _ _).trans (State.Clears.winds (State.prError_clears _ _ _ _))).trans (State.ldrIdle_winds _)) (.ite (fun _ => State.partialFault_winds _ _) fun _ => .refl _ _ _)

theorem State.setActs_winds (l : List Activation) : s.Winds (s.setLdr { s.ldr with acts := l }) := .of_same rfl rfl rfl

theorem State.endRegions_halts (hold : Bool) : s.Halts (s.endRegions hold) :=
  ((s.endRegionLoad_halts hold).trans (State.setActs_winds _ []).halts).trans (State.Ends.halts (.foldl (fun u a _ => u.endActivation_ends hold a) _))

/-- Without a region load no repair is given up. -/
theorem State.endRegions_ends (hold : Bool) (h : s.ldr.regionLoad = none) : s.Ends (s.endRegions hold) := by
  have hnone : s.endRegionLoad hold = s := by rw [State.endRegionLoad, h]
  unfold State.endRegions
  rw [hnone]
  exact (s.setActs_winds []).ends.trans (.foldl (fun u a _ => u.endActivation_ends hold a) _)

theorem State.vcoreOff_halts : s.Halts s.vcoreOff := by
  have hpwr (p : Pwr) : s.Halts (s.setPwr p) := .of_same rfl rfl rfl
  have hput (u : State) (f : RF) (v : Nat) (h : workReg f.off = BitVec.allOnes 32) : u.Winds (u.put f v) := u.put_winds v h
  exact (hpwr _).trans (State.Winds.halts ((hput _ F.PWR_DRL_STS_vcore _ rfl).trans ((hput _ F.PWR_DRL_STS_slewing _ rfl).trans (hput _ ⟨R.PWR_RAIL, 20, 1⟩ _ rfl))))

end

/-- What the entry of HOLD leaves: the mode, its cause, the core off where it was asked, and all that work leaves alone. -/
structure State.EntersHold (cause : Nat) (vcoreOff : Bool) (s t : State) : Prop where
  mode : t.mode = .hold
  cause : t.get F.SUP_MODE_hold_cause = cause
  core : vcoreOff = true → t.pwr.on = false
  rest : s.Holds t
  unloaded : t.ldr.load = none
  repairs : s.ldr.regionLoad = none → t.flt.repairs = s.flt.repairs

end Sys2Proof.Machine

end

section

/-! SUPPORT. What HOLD is once it is entered. -/

namespace Sys2Proof.Machine

/-- What the supply's core leaves of what work leaves alone. -/
def State.sansCore (s : State) : State := { s.sansClears with pwr := {} }

abbrev State.Powers (s t : State) : Prop := s.Alters clearReg State.sansCore t

theorem State.Clears.powers {s t : State} (h : s.Clears t) : s.Powers t := by
  refine h.mono (fun _ _ hi => hi) fun a b hab => ?_
  unfold State.sansCore
  rw [hab]

theorem State.Powers.halts {s t : State} (h : s.Powers t) : s.Halts t := by
  refine h.mono (fun off i hi => ?_) fun a b hab => ?_
  · unfold clearReg
    unfold holdReg at hi
    split
    · exact BitVec.getLsbD_zero
    · split at hi
      · rw [BitVec.getLsbD_allOnes] at hi
        exact BitVec.getLsbD_of_ge _ _ (by simpa using hi)
      · exact hi
  · have hq (u : State) : u.sansHalt = { u.sansCore with mode := .cold, hif := { u.sansCore.hif with accepted := [], running := [] }, flt := { u.sansCore.flt with repairs := [] }, fab := {}, ldr := { fuseBlocked := u.sansCore.ldr.fuseBlocked, revoke := u.sansCore.ldr.revoke, load := u.sansCore.ldr.load } } := rfl
    rw [hq a, hab, ← hq b]

section

variable (s : State)

theorem State.setPwr_powers (p : Pwr) : s.Powers (s.setPwr p) := .of_same rfl rfl rfl

theorem State.putCore_powers {f : RF} (v : Nat) (h : f.off = R.PWR_DRL_STS ∨ f.off = R.PWR_RAIL) : s.Powers (s.put f v) := by
  refine State.Clears.powers (s.put_clears v ?_)
  rcases h with h | h <;> rw [h] <;> rfl

theorem State.aim_powers (want floor : Nat) : s.Powers (s.aim want floor) := by
  have hput (u : State) (lo w v : Nat) : u.Powers (u.put ⟨R.PWR_DRL_STS, lo, w⟩ v) := u.putCore_powers v (Or.inl rfl)
  unfold State.aim
  extract_lets goal a b c d
  have hab : s.Powers d := (((hput _ _ _ _).trans (hput _ _ _ _)).trans (State.setPwr_powers _ _)).trans (hput _ _ _ _)
  exact hab.trans (.ite (fun _ => (hput _ _ _ _).trans (State.Clears.powers (State.raiseLim_clears _ _ _ _ _))) fun _ => hput _ _ _ _)

theorem State.vcoreOff_powers : s.Powers s.vcoreOff :=
  (s.setPwr_powers _).trans (((State.putCore_powers _ _ (Or.inl rfl)).trans (State.putCore_powers _ _ (Or.inl rfl))).trans (State.putCore_powers _ _ (Or.inr rfl)))

theorem State.vcoreFixed_powers (code : Nat) : s.Powers (s.vcoreFixed code) :=
  .trans (.trans (.trans (.ite (fun _ => .refl _ _ _) fun _ => s.putCore_powers _ (Or.inl rfl)) (State.setPwr_powers _ _)) (State.putCore_powers _ _ (Or.inr rfl)))
    (State.aim_powers _ _ _)

theorem State.holdVcore_powers (off : Bool) : s.Powers (s.holdVcore off) := .ite (fun _ => s.vcoreOff_powers) fun _ => s.vcoreFixed_powers 20

theorem State.vcoreOff_off : s.vcoreOff.pwr.on = false := rfl

end

/-! ### What work leaves alone, by name -/

section

variable {s t : State}

theorem State.Winds.mode (h : s.Winds t) : t.mode = s.mode := (congrArg State.mode h.part :)
theorem State.Winds.pwr (h : s.Winds t) : t.pwr = s.pwr := (congrArg State.pwr h.part :)
theorem State.Winds.repairs (h : s.Winds t) : t.flt.repairs = s.flt.repairs := (congrArg (fun u : State => u.flt.repairs) h.part :)
theorem State.Winds.regionLoad (h : s.Winds t) : t.ldr.regionLoad = s.ldr.regionLoad := (congrArg (fun u : State => u.ldr.regionLoad) h.part :)
theorem State.Winds.units (h : s.Winds t) : t.units = s.units := (congrArg State.units h.part :)
theorem State.Ends.mode (h : s.Ends t) : t.mode = s.mode := (congrArg State.mode h.part :)
theorem State.Ends.repairs (h : s.Ends t) : t.flt.repairs = s.flt.repairs := (congrArg (fun u : State => u.flt.repairs) h.part :)
theorem State.Ends.regionLoad (h : s.Ends t) : t.ldr.regionLoad = s.ldr.regionLoad := (congrArg (fun u : State => u.ldr.regionLoad) h.part :)
theorem State.Powers.mode (h : s.Powers t) : t.mode = s.mode := (congrArg State.mode h.part :)
theorem State.Powers.repairs (h : s.Powers t) : t.flt.repairs = s.flt.repairs := (congrArg (fun u : State => u.flt.repairs) h.part :)
theorem State.Powers.get (h : s.Powers t) {f : RF} (hf : clearReg f.off = 0) : t.get f = s.get f := State.Alters.get_of_zero h hf

end

/-! ### The entry of HOLD from a mode with work in it -/

/-- The part of the entry before the mode changes. -/
def State.worksEnd (s : State) : State := (s.endFullLoad.endRegions true).endAskedLoads

/-- The mode and its cause. -/
def State.modeHold (s : State) (cause : Nat) : State := (s.setMode .hold).put F.SUP_MODE_hold_cause cause

/-- The regions stop. -/
def State.regionsHold (s : State) (reset : Bool) : State := (if reset then s.holdReset else s.holdFreeze.grmHold).bistEnd

/-- The core's supply. -/
def State.coreHold (s : State) (vcoreOff : Bool) : State := if s.pwr.on || ! vcoreOff then s.holdVcore vcoreOff else s

/-- Outputs and lanes stop. -/
def State.outputsHold (s : State) (loading gsr out : Bool) : State :=
  let parks := ! loading || gsr || out
  let s := if parks then (List.range 48).foldl (fun s u => s.spkHold u) s else s
  let s := if ! loading || (gsr && s.pins.conf) then s.pinsPark else s
  s.userLanesIdle

theorem State.enterHold_eq {s : State} (hcold : s.mode ≠ .cold) (hl : s.latched = false) (hhold : s.mode ≠ .hold) (cause : Nat) (setReset vcoreOff : Bool) :
    s.enterHold cause setReset vcoreOff =
      (((s.worksEnd.modeHold cause).regionsHold (setReset || s.mode == .supervise || (s.mode == .load && ! s.gsrDone))).coreHold vcoreOff).outputsHold
        (s.mode == .load) s.gsrDone s.outDone := by
  unfold State.enterHold
  rw [if_neg (by simp [hcold, hl]), if_neg hhold]
  rfl

section

variable (s : State)

theorem State.worksEnd_halts : (s.setLoad none).Halts s.worksEnd :=
  (s.endFullLoad_ends.halts.trans (State.endRegions_halts _ true)).trans (State.endAskedLoads_ends _).halts

theorem State.worksEnd_ends (h : s.ldr.regionLoad = none) : (s.setLoad none).Ends s.worksEnd :=
  (s.endFullLoad_ends.trans (State.endRegions_ends _ true (s.endFullLoad_ends.regionLoad.trans h))).trans (State.endAskedLoads_ends _)

theorem State.modeHold_halts (cause : Nat) : s.Halts (s.modeHold cause) := by
  have hput (u : State) (lo w v : Nat) : u.Halts (u.put ⟨R.SUP_MODE, lo, w⟩ v) := u.putSupMode_halts lo w v
  have hmode : s.Halts { s with mode := .hold } := .of_same rfl rfl rfl
  unfold State.modeHold State.setMode State.inc
  rw [if_pos rfl]
  exact (hmode.trans ((hput _ _ _ _).trans (hput _ _ _ _))).trans (hput _ _ _ _)

theorem State.modeHold_mode (cause : Nat) : (s.modeHold cause).mode = .hold := rfl

theorem State.modeHold_repairs (cause : Nat) : (s.modeHold cause).flt.repairs = s.flt.repairs := rfl

theorem State.modeHold_cause {cause : Nat} (h : cause < 16) : (s.modeHold cause).get F.SUP_MODE_hold_cause = cause := State.get_put_lt _ rfl h

theorem State.regionsHold_ends (reset : Bool) : s.Ends (s.regionsHold reset) :=
  .trans (State.Winds.ends (.ite (fun _ => s.holdReset_winds) fun _ => State.Clears.winds (s.holdFreeze_clears.trans (State.grmHold_clears _)))) (State.bistEnd_ends _)

theorem State.coreHold_powers (vcoreOff : Bool) : s.Powers (s.coreHold vcoreOff) := .ite (fun _ => s.holdVcore_powers vcoreOff) fun _ => .refl _ _ _

theorem State.coreHold_off : (s.coreHold true).pwr.on = false := by
  unfold State.coreHold
  split
  · rw [State.holdVcore, if_pos (by simp)]
    rfl
  · next h => simpa using h

theorem State.outputsHold_clears (loading gsr out : Bool) : s.Clears (s.outputsHold loading gsr out) := by
  unfold State.outputsHold
  exact .trans (.trans (.ite (fun _ => .foldl (fun u _ hu => u.spkHold_clears (List.mem_range.mp hu)) s) fun _ => .refl _ _ _)
    (.ite (fun _ => State.pinsPark_clears _) fun _ => .refl _ _ _)) (State.userLanesIdle_clears _)

end

theorem State.Halts.unloaded {s t : State} (h : (s.setLoad none).Halts t) : s.Holds t := by
  have hunload : s.Holds (s.setLoad none) := .of_same rfl rfl rfl
  exact hunload.trans (State.Halts.holds h)

theorem State.Halts.no_load {s t : State} (h : (s.setLoad none).Halts t) : t.ldr.load = none := (congrArg (fun u : State => u.ldr.load) h.part :)

theorem State.enterHold_spec {s : State} (hcold : s.mode ≠ .cold) (hl : s.latched = false) (hhold : s.mode ≠ .hold) {cause : Nat} (hc : cause < 16)
    (setReset vcoreOff : Bool) : State.EntersHold cause vcoreOff s (s.enterHold cause setReset vcoreOff) := by
  rw [s.enterHold_eq hcold hl hhold]
  generalize (setReset || s.mode == .supervise || (s.mode == .load && ! s.gsrDone)) = reset
  have hregions := (s.worksEnd.modeHold cause).regionsHold_ends reset
  have hcore := ((s.worksEnd.modeHold cause).regionsHold reset).coreHold_powers vcoreOff
  have hout := State.Clears.winds ((((s.worksEnd.modeHold cause).regionsHold reset).coreHold vcoreOff).outputsHold_clears (s.mode == .load) s.gsrDone s.outDone)
  have hall := (s.worksEnd_halts.trans (State.modeHold_halts _ cause)).trans ((hregions.halts.trans hcore.halts).trans hout.halts)
  refine ⟨?_, ?_, fun hoff => ?_, State.Halts.unloaded hall, State.Halts.no_load hall, fun hr => ?_⟩
  · exact hout.mode.trans (hcore.mode.trans (hregions.mode.trans rfl))
  · exact (hout.get_of_zero rfl).trans ((hcore.get rfl).trans ((hregions.get_of_zero rfl).trans (State.modeHold_cause _ hc)))
  · rw [hout.pwr, hoff]
    exact State.coreHold_off _
  · rw [hout.repairs, hcore.repairs, hregions.repairs, State.modeHold_repairs]
    exact (s.worksEnd_ends hr).repairs

end Sys2Proof.Machine

end

section

/-! PROOFS. The supply (R18, R463 to R475, Tables 16.2, 16.3 and 16.7). -/

namespace Sys2Proof.Machine

theorem State.Holds.get {s t : State} (h : s.Holds t) {f : RF} (hf : holdReg f.off = 0) : t.get f = s.get f := State.Alters.get_of_zero h hf

section

variable {s : State} (h : s.running = true)

include h

theorem State.running_latched : s.latched = false := by
  rw [State.running] at h
  cases hl : s.latched
  · rfl
  · rw [hl] at h
    simp at h

theorem State.running_mode : s.mode = .run ∨ s.mode = .limp := by
  rw [State.running, Bool.and_eq_true] at h
  simpa using h.1

theorem State.running_hot : s.mode ≠ .cold ∧ s.mode ≠ .supervise ∧ s.mode ≠ .load ∧ s.mode ≠ .hold := by
  rcases State.running_mode h with hm | hm <;> rw [hm] <;> decide

/-- A running design enters HOLD. -/
theorem State.running_enterHold {cause : Nat} (hc : cause < 16) (setReset vcoreOff : Bool) :
    State.EntersHold cause vcoreOff s (s.enterHold cause setReset vcoreOff) :=
  State.enterHold_spec (State.running_hot h).1 (State.running_latched h) (State.running_hot h).2.2.2 hc setReset vcoreOff

theorem State.running_faultHold : s.faultHold = s.enterHold 2 false false := if_pos (by rw [h]; rfl)

end

theorem State.running_congr {s t : State} (hm : t.mode = s.mode) (hp : t.pwr.holdLatch = s.pwr.holdLatch) : t.running = s.running := by
  rw [State.running, State.running, State.latched, State.latched, hm, hp]

theorem State.raiseLim_running (s : State) (us id unit param : Nat) : (s.raiseLim us id unit param).running = s.running :=
  State.running_congr (State.Winds.mode (State.Clears.winds (s.raiseLim_clears us id unit param))) (congrArg Pwr.holdLatch (State.Winds.pwr (State.Clears.winds (s.raiseLim_clears us id unit param))))

theorem State.put_running (s : State) (f : RF) (v : Nat) : (s.put f v).running = s.running := rfl

/-- A limited event keeps the supply's registers. -/
theorem State.raiseLim_get (s : State) (us id unit param : Nat) {f : RF} (hf : workReg f.off = 0) : (s.raiseLim us id unit param).get f = s.get f :=
  State.Alters.get_of_zero (State.Clears.winds (s.raiseLim_clears us id unit param)) hf

/-! ### Undervoltage, overvoltage and the hard limit -/

theorem completes_undervoltage (vin : BitVec 16) (s : State) (hr : s.running = true) (hv : vin.toNat ≤ 5600) :
    Completes (.undervoltage vin) s (fun t => t.mode = .hold ∧ t.get F.SUP_MODE_hold_cause = 3 ∧ t.pwr.on = false ∧ t.get F.PWR_VIN_vin = vin.toNat) := by
  have hmodes := State.running_hot hr
  show ∃ t, execUndervoltage vin s = .next t ∧ _
  unfold execUndervoltage
  rw [if_neg (by simp [hmodes.1, State.running_latched hr, vinUnderMv, vinTolMv]; omega)]
  dsimp only
  rw [State.put_mode, if_neg hmodes.2.1]
  have hrun : (((s.put F.PWR_VIN_vin vin.toNat).put F.PWR_STS_uv 1).raiseLim 1000 0x0A01 0 (vin.toNat / 10)).running = true := by
    rw [State.raiseLim_running, State.put_running, State.put_running, hr]
  have hhold := State.running_enterHold hrun (cause := 3) (by decide) true true
  refine ⟨_, rfl, hhold.mode, hhold.cause, hhold.core rfl, ?_⟩
  rw [State.Holds.get hhold.rest rfl, State.raiseLim_get _ _ _ _ _ rfl, State.get_put_apart _ _ rfl, State.get_put_lt _ rfl vin.isLt]

theorem completes_overvoltage (vin : BitVec 16) (s : State) (hm : s.mode ≠ .cold) (hv : 40500 ≤ vin.toNat) :
    Completes (.overvoltage vin) s (fun t => t.mode = s.mode ∧ t.get F.PWR_STS_ovp = 1 ∧ t.get F.PWR_VIN_vin = vin.toNat) := by
  show ∃ t, execOvervoltage vin s = .next t ∧ _
  unfold execOvervoltage
  rw [if_neg (by simp [hm]; omega)]
  refine ⟨_, rfl, (State.raiseLim_mode _ _ _ _ _).trans rfl, ?_, ?_⟩
  · rw [State.raiseLim_get _ _ _ _ _ rfl, State.get_put_lit _ rfl]
  · rw [State.raiseLim_get _ _ _ _ _ rfl, State.get_put_apart _ _ rfl, State.get_put_lt _ rfl vin.isLt]

theorem completes_inputHardLimit (ma : BitVec 16) (s : State) (hr : s.running = true) (hv : 11000 ≤ ma.toNat) :
    Completes (.inputHardLimit ma) s (fun t => t.mode = .hold ∧ t.get F.SUP_MODE_hold_cause = 2 ∧ t.get F.PWR_STS_hard_lim = 1 ∧
      t.get F.PWR_VIN_iin = ma.toNat) := by
  have hrun : (((s.put F.PWR_VIN_iin ma.toNat).put F.PWR_STS_hard_lim 1).raiseLim 1000 0x0A22 0 (ma.toNat / 10)).running = true := by
    rw [State.raiseLim_running, State.put_running, State.put_running, hr]
  have hhold := State.running_enterHold hrun (cause := 2) (by decide) false false
  show ∃ t, execInputHardLimit ma s = .next t ∧ _
  unfold execInputHardLimit
  rw [if_neg (by simp [(State.running_hot hr).1]; omega)]
  refine ⟨_, congrArg _ (State.running_faultHold hrun), hhold.mode, hhold.cause, ?_, ?_⟩
  · rw [State.Holds.get hhold.rest rfl, State.raiseLim_get _ _ _ _ _ rfl, State.get_put_lit _ rfl]
  · rw [State.Holds.get hhold.rest rfl, State.raiseLim_get _ _ _ _ _ rfl, State.get_put_apart _ _ rfl, State.get_put_lt _ rfl ma.isLt]

/-! ### Rails -/

theorem State.setPad_winds (s : State) {u p : Nat} (hu : u < 48) (hp : p < 8) (v : Pad) : s.Winds (s.setPad u p v) := State.Clears.winds ((padFrame_clears hu).setPad s v hp)

theorem bank_units {b u : Nat} (hb : b < 8) (h : u ∈ (List.range 6).map (6 * b + ·)) : u < 48 := by
  obtain ⟨i, hi, rfl⟩ := List.mem_map.mp h
  have := List.mem_range.mp hi
  omega

theorem State.bankCheck_winds (s : State) {b : Nat} (hb : b < 8) : s.Winds (s.bankCheck b) := by
  have hok : s.Winds (s.putB (F.BANK_CFG_vio_ok b) (s.vioGood b (s.get (F.BANK_CFG_vio b)))) :=
    s.putUnit_winds _ (Nat.le_add_right_of_le (by decide)) (by simp only [F.BANK_CFG_vio_ok, R.BANK_CFG]; omega)
  refine hok.trans (.ite (fun _ => .ite (fun _ => .refl _ _ _) fun _ => ?_) fun _ => .trans ?_ (State.Clears.winds (State.raise_clears _ _ _)))
  · exact .foldl (fun t u hu => State.Clears.winds (t.spkPark_clears (bank_units hb hu))) _
  · exact .foldl (fun t u hu => .foldl (fun x p hp => x.setPad_winds (bank_units hb hu) (List.mem_range.mp hp) _) t) _

theorem State.banksCheck_winds (s : State) : s.Winds s.banksCheck :=
  .foldl (fun u _ hb => .ite (fun _ => u.bankCheck_winds (List.mem_range.mp hb)) fun _ => .refl _ _ _) s

theorem State.toCold_mode (s : State) : s.toCold.mode = .cold := by
  unfold State.toCold
  refine (foldl_kept State.mode ?_ _).trans rfl
  intro u b _
  rfl

/-- A unit taken away is not there. -/
theorem State.setUnit_off (s : State) (u : Nat) : (s.setUnit u false).units.getLsbD (u - 1) = (s.units.getLsbD (u - 1) && ! (BitVec.ofNat 11 (2 ^ (u - 1))).getLsbD (u - 1)) := by
  have h : (s.setUnit u false).units = s.units &&& ~~~ (BitVec.ofNat 11 (2 ^ (u - 1))) := rfl
  rw [h, BitVec.getLsbD_and, BitVec.getLsbD_not]
  by_cases hu : u - 1 < 11
  · simp [hu]
  · rw [BitVec.getLsbD_of_ge s.units _ (by omega)]
    simp

theorem completes_railAux (mv : BitVec 16) (s : State) (hm : s.mode ≠ .cold) : Completes (.railOutOfWindow 0 mv) s (fun t => t.mode = .cold) := by
  show ∃ t, execRailOutOfWindow 0 mv s = .next t ∧ _
  unfold execRailOutOfWindow
  rw [if_neg hm]
  exact ⟨_, rfl, State.toCold_mode _⟩

theorem completes_rail33 (mv : BitVec 16) (s : State) (hm : s.mode ≠ .cold) :
    Completes (.railOutOfWindow 1 mv) s (fun t => t.unitOk 2 = false ∧ t.mode = s.mode) := by
  show ∃ t, execRailOutOfWindow 1 mv s = .next t ∧ _
  unfold execRailOutOfWindow
  rw [if_neg hm]
  refine ⟨_, rfl, ?_⟩
  generalize hu : (State.raiseLim (s.put ⟨R.PWR_RAIL, 16 + (1 : Fin 5), 1⟩ 0) 1000 0x0A03 1 1).setUnit 2 false = u
  have hoff : u.units.getLsbD 1 = false := by
    rw [← hu]
    exact (State.setUnit_off _ 2).trans (by rw [show (BitVec.ofNat 11 (2 ^ (2 - 1))).getLsbD (2 - 1) = true from by decide]; simp)
  have hmode : u.mode = s.mode := by
    rw [← hu]
    exact (State.raiseLim_mode _ _ _ _ _).trans rfl
  have hpads (t : State) : t.Winds ((List.range 64).foldl (fun s p => s.setSysPad p .z) t).banksCheck :=
    .trans (.foldl (fun x _ hp => State.Clears.winds (x.setSysPad_clears (List.mem_range.mp hp) _)) t) (State.banksCheck_winds _)
  have hone (t : State) (h : t.units.getLsbD 1 = false) : (t.setUnit 1 false).units.getLsbD 1 = false ∧ (t.setUnit 1 false).mode = t.mode := by
    have hunits : (t.setUnit 1 false).units = t.units &&& ~~~ (BitVec.ofNat 11 (2 ^ (1 - 1))) := rfl
    rw [hunits, BitVec.getLsbD_and, h, Bool.false_and]
    exact ⟨rfl, rfl⟩
  have hend : ∀ t : State, t.units.getLsbD 1 = false ∧ t.mode = s.mode →
      ((List.range 64).foldl (fun s p => s.setSysPad p .z) t).banksCheck.unitOk 2 = false ∧ ((List.range 64).foldl (fun s p => s.setSysPad p .z) t).banksCheck.mode = s.mode := by
    rintro t ⟨h1, h2⟩
    exact ⟨by rw [State.unitOk, (hpads t).units]; exact h1, (hpads t).mode.trans h2⟩
  apply hend
  split
  · exact ⟨(hone u hoff).1, (hone u hoff).2.trans hmode⟩
  · exact ⟨hoff, hmode⟩

theorem completes_railCore (mv : BitVec 16) (s : State) (hr : s.running = true) (hon : s.pwr.on = true) :
    Completes (.railOutOfWindow 4 mv) s (fun t => t.mode = .hold ∧ t.get F.SUP_MODE_hold_cause = 2 ∧ t.pwr.on = false) := by
  show ∃ t, execRailOutOfWindow 4 mv s = .next t ∧ _
  unfold execRailOutOfWindow
  rw [if_neg (State.running_hot hr).1]
  generalize hu : ((s.put ⟨R.PWR_RAIL, 16 + (4 : Fin 5), 1⟩ 0).put F.PWR_RAIL_vcore_mv mv.toNat).raiseLim 1000 0x0A03 4 4 = u
  have hrun : u.running = true := by rw [← hu, State.raiseLim_running, State.put_running, State.put_running, hr]
  have hmissed : u.vcoreMissed = u := if_neg (by simp [(State.running_hot hrun).2.2.1])
  have hhold := State.running_enterHold hrun (cause := 2) (by decide) true true
  have hexec : (if (s.put ⟨R.PWR_RAIL, 16 + (4 : Fin 5), 1⟩ 0).pwr.on then Host.Outcome.next (u.vcoreMissed.enterHold 2 true true) else .next (s.put ⟨R.PWR_RAIL, 16 + (4 : Fin 5), 1⟩ 0)) =
      (.next (u.enterHold 2 true true) : Out) := by
    rw [hmissed]
    exact if_pos hon
  refine ⟨u.enterHold 2 true true, ?_, hhold.mode, hhold.cause, hhold.core rfl⟩
  rw [← hexec, ← hu]
  rfl

/-- Settles O2: the supply's faults are recorded, and those that leave no supply for a design lead to HOLD. -/
theorem supplyFaultsAreRecordedAndGiveHold : Obligations.SupplyFaultsAreRecordedAndGiveHold := by
  unfold Obligations.SupplyFaultsAreRecordedAndGiveHold
  exact ⟨completes_undervoltage, completes_overvoltage, completes_inputHardLimit,
    fun mv s hm => ⟨completes_railAux mv s hm, completes_rail33 mv s hm, completes_railCore mv s⟩⟩

end Sys2Proof.Machine

end

section

/-! PROOFS. The phases of the core's converter, the input limit and the temperatures (R468, R469, R474, R475). -/

namespace Sys2Proof.Machine

/-! ### The hottest of the readings -/

theorem hottest_le {x : Int} (l : List Int) (i : Nat) {b : Int × Nat} (hb : b.1 ≤ x) (h : ∀ y ∈ l, y ≤ x) : (hottest l i b).1 ≤ x := by
  induction l generalizing i b with
  | nil => exact hb
  | cons y l ih =>
    refine ih _ ?_ fun z hz => h z (List.mem_cons_of_mem y hz)
    split
    · exact h y List.mem_cons_self
    · exact hb

theorem le_hottest (l : List Int) (i : Nat) (b : Int × Nat) : b.1 ≤ (hottest l i b).1 := by
  induction l generalizing i b with
  | nil => exact le_refl _
  | cons y l ih =>
    refine le_trans ?_ (ih (i + 1) _)
    split
    · omega
    · exact le_refl _

theorem mem_le_hottest {y : Int} {l : List Int} (i : Nat) (b : Int × Nat) (h : y ∈ l) : y ≤ (hottest l i b).1 := by
  induction l generalizing i b with
  | nil => exact absurd h List.not_mem_nil
  | cons z l ih =>
    rcases List.mem_cons.mp h with rfl | h
    · refine le_trans ?_ (le_hottest l (i + 1) _)
      split
      · exact le_refl _
      · omega
    · exact ih _ _ h

/-! ### Phases -/

/-- Adding a bit that is not set keeps a number within its width. -/
theorem add_pow_lt {a i w : Nat} (ha : a < 2 ^ w) (hi : i < w) (hbit : a.testBit i = false) : a + 2 ^ i < 2 ^ w := by
  have heven : a / 2 ^ i % 2 = 0 := by simpa [Nat.testBit_eq_decide_div_mod_eq] using hbit
  have hsplit : 2 ^ w = 2 ^ i * (2 * 2 ^ (w - i - 1)) := by
    rw [← Nat.pow_succ', ← Nat.pow_add]
    congr 1
    omega
  have hquot : a / 2 ^ i < 2 * 2 ^ (w - i - 1) := Nat.div_lt_of_lt_mul (hsplit ▸ ha)
  have hnext : (a + 2 ^ i) / 2 ^ i < 2 * 2 ^ (w - i - 1) := by
    rw [Nat.add_div_right _ (Nat.two_pow_pos i)]
    omega
  rw [hsplit, Nat.mul_comm]
  exact (Nat.div_lt_iff_lt_mul (Nat.two_pow_pos i)).mp hnext

theorem State.capUpdate_get (s : State) {f : RF} (h : F.PWR_STS_eff_cap.apart f = true) (h' : F.PWR_STS_limit.apart f = true) :
    s.capUpdate.get f = s.get f := by
  unfold State.capUpdate
  rw [State.get_put_apart _ _ h', State.get_put_apart _ _ h]

theorem State.morAdd_get (s : State) (kind inst pos cause : Nat) {f : RF} (h : f.off ≠ R.FLT_MOR_STS) : (s.morAdd kind inst pos cause).get f = s.get f := by
  have hput (u : State) (x : Flt) : ((u.setFlt x).put F.FLT_MOR_STS_pending 1).get f = u.get f :=
    (State.get_of_rd (State.rd_put_ne _ _ _ _ h)).trans (State.setFlt_get _ _ _)
  unfold State.morAdd
  split
  · split
    · exact hput _ _
    · rfl
  · exact hput _ _

theorem State.morAdd_mode (s : State) (kind inst pos cause : Nat) : (s.morAdd kind inst pos cause).mode = s.mode := by
  unfold State.morAdd
  split
  · split <;> rfl
  · rfl

theorem completes_vcorePhaseCheck (phase : Fin 10) (i : Nat) (s : State) (hact : bitOf (s.get F.PWR_PHASE_active) phase = true)
    (hfind : (List.range 10).find? (fun j => ! bitOf (s.get F.PWR_PHASE_active - 2 ^ phase.val) j &&
      ! bitOf (s.get F.PWR_PHASE_failed ||| 2 ^ phase.val) j) = some i) :
    Completes (.vcorePhaseCheck phase) s (fun t => t.mode = s.mode ∧
      t.get F.PWR_PHASE_active = s.get F.PWR_PHASE_active - 2 ^ phase.val + 2 ^ i ∧
      t.get F.PWR_PHASE_failed = s.get F.PWR_PHASE_failed ||| 2 ^ phase.val) := by
  have hi : i < 10 := List.mem_range.mp (List.mem_of_find?_eq_some hfind)
  have hfree : bitOf (s.get F.PWR_PHASE_active - 2 ^ phase.val) i = false := by
    have h := List.find?_some hfind
    simp only [Bool.and_eq_true, Bool.not_eq_true'] at h
    exact h.1
  have hlt : s.get F.PWR_PHASE_active - 2 ^ phase.val + 2 ^ i < 2 ^ 10 :=
    add_pow_lt (lt_of_le_of_lt (Nat.sub_le _ _) (State.get_lt s F.PWR_PHASE_active)) hi hfree
  have hfailed : s.get F.PWR_PHASE_failed ||| 2 ^ phase.val < 2 ^ 10 :=
    Nat.or_lt_two_pow (State.get_lt s F.PWR_PHASE_failed) (Nat.pow_lt_pow_right (by decide) phase.isLt)
  show ∃ t, execVcorePhaseCheck phase s = .next t ∧ _
  unfold execVcorePhaseCheck
  dsimp only
  rw [if_neg (by rw [hact]; decide), hfind]
  have hrest (u : State) {f : RF} (hf : workReg f.off = 0) (hne : f.off ≠ R.FLT_MOR_STS) :
      ((u.raiseLim 1000 0x0A04 0 phase).morSubstituted 7 0 phase 0x0A04).get f = u.get f := by
    rw [State.morSubstituted, State.Alters.get_of_zero (State.Clears.winds (State.raise_clears _ _ _)) hf, State.morAdd_get _ _ _ _ _ hne, State.raiseLim_get _ _ _ _ _ hf]
  refine ⟨_, rfl, ?_, ?_, ?_⟩
  · rw [State.morSubstituted, State.raise_mode, State.morAdd_mode, State.raiseLim_mode]
    rfl
  · rw [hrest _ rfl (by decide), State.get_put_lt _ rfl hlt]
  · rw [hrest _ rfl (by decide), State.get_put_apart _ _ rfl, State.get_put_apart _ _ rfl, State.get_put_lt _ rfl hfailed]

/-! ### The input limit -/

theorem completes_inputLimit_low (vin : BitVec 16) (s : State) (hm : s.mode ≠ .cold) (hv : vin.toNat < 8800) :
    Completes (.inputLimit vin) s (fun t => t.get F.PWR_STS_vin_lim = 1 ∧ t.get F.PWR_VIN_vin = vin.toNat) := by
  show ∃ t, execInputLimit vin s = .next t ∧ _
  unfold execInputLimit
  rw [if_neg hm]
  dsimp only
  rw [if_pos hv]
  refine ⟨_, rfl, ?_, ?_⟩
  · rw [State.capUpdate_get _ rfl rfl, State.get_put_lit _ rfl]
  · rw [State.capUpdate_get _ rfl rfl, State.get_put_apart _ _ rfl, State.get_put_lt _ rfl vin.isLt]

theorem completes_inputLimit_high (vin : BitVec 16) (s : State) (hm : s.mode ≠ .cold) (hv : 9000 ≤ vin.toNat) :
    Completes (.inputLimit vin) s (fun t => t.get F.PWR_STS_vin_lim = 0) := by
  show ∃ t, execInputLimit vin s = .next t ∧ _
  unfold execInputLimit
  rw [if_neg hm]
  dsimp only
  rw [if_neg (by omega), if_pos hv]
  refine ⟨_, rfl, ?_⟩
  rw [State.capUpdate_get _ rfl rfl, State.get_put_lit _ rfl]

/-! ### Temperatures -/

/-- A reading, before a second one in a row above 120 degrees gives HOLD. -/
def State.temperatures (s : State) (r : Temps) : State :=
  let h := hottest r.junction 0 (-128, 0)
  let s := ((s.putS F.PWR_TEMP_tj_max h.1).put F.PWR_TEMP_tj_region h.2).putS F.PWR_TEMP_tbase r.base
  let derate := decide (baseTerm (s.getS F.PWR_TEMP_tbase) < 65000)
  let started := derate && ! s.pwr.derating
  let s := { s with pwr := { s.pwr with junction := r.junction, hot := decide (120 < h.1), derating := derate } }
  let s := s.capUpdate
  if started then s.raiseLim 1000 0x0A12 0 (enc2 16 r.base) else s

theorem execTemperatureRead_eq (r : Temps) {s : State} (hm : s.mode ≠ .cold) :
    execTemperatureRead r s = .next (if (decide (120 < (hottest r.junction 0 (-128, 0)).1) && s.pwr.hot) &&
        ((s.temperatures r).running || decide ((s.temperatures r).mode = .load)) then
      ((s.temperatures r).raiseLim 1000 0x0A11 0 (hottest r.junction 0 (-128, 0)).2).enterHold 4 true true else s.temperatures r) := by
  unfold execTemperatureRead
  rw [if_neg hm]
  exact (apply_ite Host.Outcome.next _ _ _).symm

theorem State.temperatures_read (s : State) (r : Temps) : (s.temperatures r).mode = s.mode ∧ (s.temperatures r).pwr.holdLatch = s.pwr.holdLatch ∧
    (s.temperatures r).pwr.junction = r.junction ∧ (s.temperatures r).pwr.hot = decide (120 < (hottest r.junction 0 (-128, 0)).1) := by
  unfold State.temperatures
  dsimp only
  split
  · rw [State.raiseLim_mode, State.raiseLim_pwr]
    exact ⟨rfl, rfl, rfl, rfl⟩
  · exact ⟨rfl, rfl, rfl, rfl⟩

theorem completes_temperatureRead_cool (r : Temps) (s : State) (hm : s.mode ≠ .cold) (hcool : ∀ x ∈ r.junction, x ≤ 120) :
    Completes (.temperatureRead r) s (fun t => t.mode = s.mode ∧ t.pwr.junction = r.junction ∧ t.pwr.hot = false) := by
  obtain ⟨hmode, -, hjunction, hhot⟩ := s.temperatures_read r
  have hle : ¬ 120 < (hottest r.junction 0 (-128, 0)).1 := not_lt.mpr (hottest_le _ _ (by decide) hcool)
  refine ⟨_, execTemperatureRead_eq r hm, ?_⟩
  rw [if_neg (by simp [hle])]
  exact ⟨hmode, hjunction, hhot.trans (decide_eq_false hle)⟩

theorem completes_temperatureRead_hot (r : Temps) (s : State) (hr : s.running = true) (hh : s.pwr.hot = true) (hhot : ∃ x ∈ r.junction, 120 < x) :
    Completes (.temperatureRead r) s (fun t => t.mode = .hold ∧ t.get F.SUP_MODE_hold_cause = 4 ∧ t.pwr.on = false) := by
  obtain ⟨x, hx, hx120⟩ := hhot
  obtain ⟨hmode, hlatch, -, -⟩ := s.temperatures_read r
  have hlt : 120 < (hottest r.junction 0 (-128, 0)).1 := lt_of_lt_of_le hx120 (mem_le_hottest _ _ hx)
  have hrun : (s.temperatures r).running = true := (State.running_congr hmode hlatch).trans hr
  have hhold := State.running_enterHold ((State.raiseLim_running (s.temperatures r) 1000 0x0A11 0 (hottest r.junction 0 (-128, 0)).2).trans hrun)
    (cause := 4) (by decide) true true
  refine ⟨_, execTemperatureRead_eq r (State.running_hot hr).1, ?_⟩
  rw [if_pos (by simp [hlt, hh, hrun])]
  exact ⟨hhold.mode, hhold.cause, hhold.core rfl⟩

/-- Settles O3: phases, input limit and temperatures are tracked by their readings. -/
theorem phasesInputLimitAndTemperaturesAreTracked : Obligations.PhasesInputLimitAndTemperaturesAreTracked := by
  unfold Obligations.PhasesInputLimitAndTemperaturesAreTracked
  exact ⟨completes_vcorePhaseCheck, completes_inputLimit_low, completes_inputLimit_high, completes_temperatureRead_cool, completes_temperatureRead_hot⟩

end Sys2Proof.Machine

end

section

/-! PROOFS. Attestation and the internal test access (R420, R421, R491 to R494). -/

namespace Sys2Proof.Machine

theorem le_length (n v : Nat) : (le n v).length = n := by
  induction n generalizing v with
  | zero => rfl
  | succ n ih => rw [le, List.length_cons, ih]

theorem fit_length (n : Nat) (l : List Byte) : (fit n l).length = n := by simp [fit]

theorem State.regionHash_length (s : State) (n : Nat) : (s.regionHash n).length = 48 := by
  unfold State.regionHash
  dsimp only
  split
  · exact fit_length 48 _
  · exact fit_length 48 _

/-- The signed part of a report has the length of Table 14.15. -/
theorem State.attestBody_length (s : State) (nonce : List Byte) : (s.attestBody nonce).length = 2960 := by
  have hmap (b : Bool) (x y : List Byte) : (if b = true then fit 48 x else fit 48 y).length = 48 := by
    cases b <;> exact fit_length 48 _
  unfold State.attestBody
  cases s.ldr.full
  all_goals
    simp only [List.length_append, List.length_flatMap, le_length, fit_length, State.regionHash_length, hmap, List.map_const', List.sum_replicate,
      List.length_range, smul_eq_mul]

theorem State.attestReport_length (s : State) (nonce : List Byte) : (s.attestReport nonce).length = 6336 := by
  unfold State.attestReport
  simp only [List.length_append, State.attestBody_length, fit_length, le_length]

/-! ### The report -/

/-- An event may write the event ring; what was written stays. -/
theorem State.raise_writes (s : State) (id param : Nat) : ∃ ws, (s.raise id param).hif.writes = s.hif.writes ++ ws := by
  have hring (u : State) (remote : Bool) (origin : Nat) : ∃ ws, (u.eventRing id param remote origin).hif.writes = u.hif.writes ++ ws := by
    unfold State.eventRing
    split
    · exact ⟨[], (List.append_nil _).symm⟩
    · split
      · exact ⟨_, State.ringWrite_writes _ _ _ _⟩
      · exact ⟨[], (List.append_nil _).symm⟩
  have hprint (u : State) (ls : List ConOut) : (u.print ls).hif.writes = u.hif.writes := by rw [State.print_hif]
  unfold State.raise
  extract_lets a b _ c
  obtain ⟨ws, hws⟩ := hring c false c.origin
  refine ⟨ws, hws.trans (congrArg (· ++ ws) ?_)⟩
  have hb : b.hif.writes = a.hif.writes := by
    rw [show b = if a.on F.SUP_SVC_CFG_evt then a.print [.evt id param] else a from rfl]
    split
    · exact hprint _ _
    · rfl
  refine Eq.trans ?_ hb
  rw [show c = if b.on F.PEL_CFG_evt_fwd ∧ ¬ b.on F.PEL_ADDR_is_lead then { b with pel := { b.pel with events := b.pel.events ++ [(id, param)] } } else b from rfl]
  split <;> rfl

section

variable {s : State} {src : CmdSrc} {d : AdminDesc} {nonce : List Byte} (h : s.waitsFor src d) (hop : d.op = 0x71) (hb : s.hif.bme = true) (hn : nonce.length = 32)

include hop hb hn in
theorem attest_takes : (s.opHost 0x71 d && nonce.length == 32) = true := by
  rw [s.opHost_of hop hb, hn]
  rfl

include h hop hb hn

/-- With the fuse read path blocked no report is made (R420). -/
theorem completes_attest_blocked (hf : s.ldr.fuseBlocked = true) : Completes (.attest nonce) s (fun t => t.says src 3 2 0 0) := by
  refine completes_accepted rfl h (attest_takes hop hb hn) ?_
  dsimp only
  rw [if_pos (show s.taken.ldr.fuseBlocked = true from hf)]
  exact (State.taken_answered h 3 2 0 0).answer

theorem completes_attest_report (hf : s.ldr.fuseBlocked = false) (h7 : s.unitOk 7 = true) :
    Completes (.attest nonce) s (fun t => t.logged 0x0133 0 ∧ t.hif.finished = [⟨src, false, 0, 0, 6336, 0⟩] ∧
      ∃ ws, t.hif.writes = s.hif.writes ++ ⟨d.addr.toNat, s.attestReport nonce⟩ :: ws) := by
  refine completes_accepted rfl h (attest_takes hop hb hn) ?_
  dsimp only
  rw [if_neg (by rw [show s.taken.ldr.fuseBlocked = s.ldr.fuseBlocked from rfl, hf]; decide), if_neg (by rw [show s.taken.unitOk 7 = s.unitOk 7 from rfl, h7]; decide)]
  have hsame : s.taken.attestReport nonce = s.attestReport nonce := rfl
  rw [hsame, State.attestReport_length]
  generalize hu : (s.taken.runCmd ⟨src, d⟩).hostWrite d.addr.toNat (s.attestReport nonce) = u
  have hfin : u.hif.finished = [] := by
    rw [← hu]
    exact h.2.2.2.1
  have hwrites : u.hif.writes = s.hif.writes ++ [⟨d.addr.toNat, s.attestReport nonce⟩] := by
    rw [← hu]
    rfl
  obtain ⟨ws, hws⟩ := u.raise_writes 0x0133 0
  refine ⟨State.raise_logged _ _ _, ?_, ws, ?_⟩
  · show (u.raise 0x0133 0).hif.finished ++ _ = _
    rw [State.raise_finished, hfin]
    rfl
  · exact hws.trans (by rw [hwrites, List.append_assoc]; rfl)

end

/-! ### The internal test access -/

theorem State.Winds.fuseBlocked {s t : State} (h : s.Winds t) : t.ldr.fuseBlocked = s.ldr.fuseBlocked := (congrArg (fun u : State => u.ldr.fuseBlocked) h.part :)

theorem State.scanClear_spec (s : State) : s.scanClear.ldr.fuseBlocked = true ∧ s.scanClear.mode = s.mode := by
  have hwinds (u : State) : u.Winds ((List.range 16).foldl (fun s n => if s.regionSecret n then s.setResetOn n else s) ((List.range 16).foldl (fun s n => s.secretClear n) u)) :=
    .trans (.foldl (fun t n _ => State.Clears.winds (t.secretClear_clears n)) u) (.foldl (fun t _ hn => .ite (fun _ => t.setResetOn_winds (List.mem_range.mp hn)) fun _ => .refl _ _ _) _)
  have h := hwinds (s.setLdr { s.ldr with fuseBlocked := true })
  unfold State.scanClear
  dsimp only
  rw [h.fuseBlocked, h.mode]
  exact ⟨rfl, rfl⟩

theorem completes_tapInternalTest (s : State) (hm : s.mode = .supervise ∨ s.mode = .hold) (hc : s.fuses.testClose = false) (hl : s.latched = false) :
    Completes .tapInternalTest s (fun t => t.ldr.fuseBlocked = true ∧ t.mode = s.mode) :=
  ⟨s.scanClear, congrArg Host.Outcome.next (if_pos (by simp [hm, hc, hl])), s.scanClear_spec⟩

theorem completes_tapInternalTest_refused (s : State) (h : s.fuses.testClose = true ∨ (s.mode ≠ .supervise ∧ s.mode ≠ .hold)) :
    Completes .tapInternalTest s (fun t => t = s) := by
  refine ⟨s, congrArg Host.Outcome.next (if_neg ?_), rfl⟩
  rintro ⟨hm, hc, -⟩
  rcases h with h | ⟨h1, h2⟩
  · simp [h] at hc
  · exact hm.elim h1 h2

/-- Settles O42: a report of its fixed length goes to the buffer until an internal test has blocked the fuse read path. -/
theorem attestationReportsUntilAnInternalTestBlocksIt : Obligations.AttestationReportsUntilAnInternalTestBlocksIt := by
  unfold Obligations.AttestationReportsUntilAnInternalTestBlocksIt
  refine ⟨fun nonce src d s h hop hb hn => ⟨s.attestReport_length nonce, completes_attest_blocked h hop hb hn, completes_attest_report h hop hb hn⟩,
    fun s => ⟨completes_tapInternalTest s, completes_tapInternalTest_refused s⟩⟩

end Sys2Proof.Machine

end

section

/-! SUPPORT. A write of a register through its row of chapter 19 (R11, Table 00.2). -/

namespace Sys2Proof.Machine

/-- Bits that software writes and nothing clears take the value written. -/
theorem RegRow.written_getLsbD (r : RegRow) {m : Word} (hrw : m &&& ~~~ (BitVec.ofNat 32 r.rw) = 0) (hclear : m &&& BitVec.ofNat 32 (r.w1c ||| r.rws) = 0)
    (old v : Word) {i : Nat} (hi : m.getLsbD i = true) : (r.written old v).getLsbD i = v.getLsbD i := by
  have h32 : i < 32 := BitVec.lt_of_getLsbD hi
  have hset : (BitVec.ofNat 32 r.rw).getLsbD i = true := by simpa [h32] using BitVec.getLsbD_of_disjoint hrw i hi
  have hkeep : (BitVec.ofNat 32 (r.w1c ||| r.rws)).getLsbD i = false := BitVec.getLsbD_of_disjoint hclear i hi
  rw [RegRow.written, BitVec.getLsbD_and, BitVec.getLsbD_not, BitVec.getLsbD_and, hkeep, BitVec.getLsbD_or, BitVec.getLsbD_and, BitVec.getLsbD_not, BitVec.getLsbD_and, hset]
  simp [h32]

/-- A write of a register without a clear bit. -/
theorem State.fieldWrite_wr (s : State) {off : Nat} {r : RegRow} (hrow : regRow? off = some r) (hclear : clearOf off = none) (v : Word) :
    s.fieldWrite off v = s.wr off (r.written (s.rd off) v) := by
  have hno : clearsBy off v = false := by rw [clearsBy, hclear]
  unfold State.fieldWrite State.plainWrite
  rw [hrow, hno]
  rfl

/-- A field of the register written takes its bits of the value. -/
theorem State.fieldWrite_get (s : State) {f : RF} {r : RegRow} (hrow : regRow? f.off = some r) (hnone : clearOf f.off = none) (hf : f.whole = true)
    (hrw : f.mask &&& ~~~ (BitVec.ofNat 32 r.rw) = 0) (hclear : f.mask &&& BitVec.ofNat 32 (r.w1c ||| r.rws) = 0) (v : Word) :
    (s.fieldWrite f.off v).get f = v.toNat >>> f.lo % 2 ^ f.w := by
  have hfits : f.lo + f.w ≤ 32 := RF.fits_of_whole hf
  refine Nat.eq_of_testBit_eq fun i => ?_
  rw [State.get_testBit, s.fieldWrite_wr hrow hnone, State.rd_wr_same, Nat.testBit_mod_two_pow, Nat.testBit_shiftRight]
  by_cases hi : i < f.w
  · have hmask : f.mask.getLsbD (f.lo + i) = true := by
      rw [RF.mask_getLsbD f _ (by omega), decide_eq_true_eq]
      omega
    rw [r.written_getLsbD hrw hclear _ _ hmask, BitVec.getLsbD]
  · simp [hi]

theorem State.fieldWrite_rd_ne (s : State) {off o : Nat} {r : RegRow} (hrow : regRow? off = some r) (hnone : clearOf off = none) (v : Word) (h : o ≠ off) :
    (s.fieldWrite off v).rd o = s.rd o := by
  rw [s.fieldWrite_wr hrow hnone, State.rd_wr_ne _ _ _ _ h]

end Sys2Proof.Machine

end

section

/-! PROOFS. Lockstep pairs (R422 to R424). -/

namespace Sys2Proof.Machine

/-- The state without the fabric. -/
def State.sansWholeFab (s : State) : State := { s with fab := {} }

theorem State.sansWholeFab_of_tokens {s t : State} (h : t.sansTokens = s.sansTokens) : t.sansWholeFab = s.sansWholeFab := by
  have hq (u : State) : u.sansWholeFab = u.sansTokens.sansWholeFab := rfl
  rw [hq t, h, ← hq s]

theorem State.rejoin_sansTokens (s : State) (x : Src) : (s.rejoin x).sansTokens = s.sansTokens := by
  unfold State.rejoin
  dsimp only
  split
  · exact State.ackDone_sansTokens (State.ack_sansTokens fabricFuel) s x _
  · rfl

theorem State.tapsFree_regs (s : State) (k : Nat) : (s.tapsFree k).regs = s.regs := by
  have h : (s.tapsFree k).sansTokens = s.sansTokens := foldl_sansTokens _ (fun u p => u.rejoin_sansTokens _) _ s
  exact (congrArg State.regs h :)

theorem State.tapsTake_sansWholeFab (s : State) (t : Tile) (st : Nat) : (s.tapsTake t st).sansWholeFab = s.sansWholeFab := by
  refine foldl_kept State.sansWholeFab (fun u j _ => ?_) s
  dsimp only
  split
  · split
    · rfl
    · exact (State.sansWholeFab_of_tokens (State.ackDst_sansTokens _ _)).trans rfl
  · rfl

/-- Fields of different registers. -/
theorem apart_off {f g : RF} (h : f.off ≠ g.off) : f.apart g = true := by
  rw [RF.apart, Bool.or_eq_true]
  exact Or.inr (bne_iff_ne.mpr (Ne.symm h))

/-! ### Arming -/

theorem State.lsEnd_regs (s : State) (k : Nat) : (s.lsEnd k).regs = (s.put (F.FLT_LS_STS_comparing k) 0).regs := by
  unfold State.lsEnd
  dsimp only
  rw [State.tapsFree_regs]

theorem lsCtl_row : ∀ k : Fin 8, regRow? (R.FLT_LS_CTL k) = some ⟨0x100, 8, 0x10, 0x19042, 0x3FFFFCFF, 0x0, 0x0, 0x0, 0x0, 0x0, 0x0⟩ := by decide

theorem lsCtl_clear : ∀ k : Fin 8, clearOf (R.FLT_LS_CTL k) = none := by decide

theorem completes_lockstepArm (k : Fin 8) (v : BitVec 32) (s : State) :
    Completes (.lockstepArm k v) s (fun t => t.get (F.FLT_LS_CTL_arm k) = v.toNat % 2 ∧ t.get (F.FLT_LS_CTL_lag_tokens k) = v.toNat / 4 % 64 ∧
      t.get (F.FLT_LS_STS_comparing k) = if v.getLsbD 0 then s.get (F.FLT_LS_STS_comparing k) else 0) := by
  refine ⟨s.lsWrite k (R.FLT_LS_CTL k) v, rfl, ?_⟩
  have hctl (lo w : Nat) (hf : (⟨0, lo, w⟩ : RF).whole = true) (hrw : (⟨0, lo, w⟩ : RF).mask &&& ~~~ (BitVec.ofNat 32 0x3FFFFCFF) = 0) :
      (s.fieldWrite (R.FLT_LS_CTL k) v).get ⟨R.FLT_LS_CTL k, lo, w⟩ = v.toNat >>> lo % 2 ^ w :=
    s.fieldWrite_get (f := ⟨R.FLT_LS_CTL k, lo, w⟩) (lsCtl_row k) (lsCtl_clear k) hf hrw (by simp) v
  have harm : (s.fieldWrite (R.FLT_LS_CTL k) v).get (F.FLT_LS_CTL_arm k) = v.toNat % 2 := hctl 0 1 rfl (by decide)
  have hlag : (s.fieldWrite (R.FLT_LS_CTL k) v).get (F.FLT_LS_CTL_lag_tokens k) = v.toNat / 4 % 64 :=
    (hctl 2 6 rfl (by decide)).trans (congrArg (· % 64) (Nat.shiftRight_eq_div_pow _ 2))
  have hsts : (s.fieldWrite (R.FLT_LS_CTL k) v).get (F.FLT_LS_STS_comparing k) = s.get (F.FLT_LS_STS_comparing k) :=
    State.get_of_rd (s.fieldWrite_rd_ne (lsCtl_row k) (lsCtl_clear k) v (by simp only [F.FLT_LS_STS_comparing, R.FLT_LS_STS, R.FLT_LS_CTL]; omega))
  generalize hu : s.fieldWrite (R.FLT_LS_CTL k) v = u at harm hlag hsts
  have hon : u.on (F.FLT_LS_CTL_arm k) = v.getLsbD 0 := by
    rw [State.on, harm, BitVec.getLsbD, Nat.testBit_zero]
    rcases Nat.mod_two_eq_zero_or_one v.toNat with h | h <;> rw [h] <;> rfl
  have hends (lo w : Nat) : (u.lsEnd k).get ⟨R.FLT_LS_CTL k, lo, w⟩ = u.get ⟨R.FLT_LS_CTL k, lo, w⟩ :=
    (State.get_of_regs (u.lsEnd_regs k) _).trans (State.get_of_rd (State.rd_put_ne _ _ _ _ (by simp only [F.FLT_LS_STS_comparing, R.FLT_LS_STS, R.FLT_LS_CTL]; omega)))
  have hend : (u.lsEnd k).get (F.FLT_LS_STS_comparing k) = 0 := (State.get_of_regs (u.lsEnd_regs k) _).trans (State.get_put_lit u rfl)
  unfold State.lsWrite
  rw [hu]
  dsimp only
  rw [hon]
  cases v.getLsbD 0
  · rw [if_pos (by simp)]
    exact ⟨(hends _ _).trans harm, (hends _ _).trans hlag, hend⟩
  · rw [if_neg (by simp)]
    exact ⟨harm, hlag, hsts⟩

/-! ### The reaction -/

theorem workReg_flt {off : Nat} (h : 0x2C0008 ≤ off) (h' : off < 0x2D0000) : workReg off = 0 := by
  rw [workReg, if_neg (by simp only [R.GRM_STS]; omega), if_pos (Or.inr (Or.inr (Or.inl ⟨h, h'⟩)))]

theorem holdReg_flt {off : Nat} (h : 0x2C0008 ≤ off) (h' : off < 0x2D0000) : holdReg off = 0 := by
  rw [holdReg, if_neg (by simp only [R.SUP_MODE]; omega), workReg_flt h h']

theorem State.enterHold_latched (s : State) (h : s.latched = true) (cause : Nat) (setReset vcoreOff : Bool) : s.enterHold cause setReset vcoreOff = s := by
  unfold State.enterHold
  rw [if_pos (Or.inr h)]

/-- What a fault that gives HOLD leaves alone. -/
theorem State.faultHold_holds (s : State) : s.Holds s.faultHold := by
  unfold State.faultHold
  split
  · next h =>
    by_cases hl : s.latched = true
    · rw [s.enterHold_latched hl]
      exact .refl _ _ _
    · have hmode : s.mode ≠ .cold ∧ s.mode ≠ .hold := by
        rcases Bool.or_eq_true _ _ ▸ h with hr | hm
        · exact ⟨(State.running_hot hr).1, (State.running_hot hr).2.2.2⟩
        · have hm : s.mode = .load := by simpa using hm
          rw [hm]
          decide
      exact (State.enterHold_spec hmode.1 (by simpa using hl) hmode.2 (by decide) false false).rest
  · exact .refl _ _ _

theorem State.lsReact_holds (s : State) (k : Nat) : s.Holds (s.lsReact k) := .ite (fun _ => s.faultHold_holds) fun _ => .refl _ _ _

theorem State.lsReact_get (s : State) (k : Nat) {f : RF} (h : 0x2C0008 ≤ f.off) (h' : f.off < 0x2D0000) : (s.lsReact k).get f = s.get f :=
  State.Holds.get (s.lsReact_holds k) (holdReg_flt h h')

theorem State.lsReact_none {s : State} {k : Nat} (h : s.get (F.FLT_LS_CTL_reaction k) = 0) : s.lsReact k = s := by
  unfold State.lsReact
  rw [State.on_of_zero h]
  exact if_neg (by decide)

theorem State.lsReact_hold {s : State} {k : Nat} (h : s.get (F.FLT_LS_CTL_reaction k) = 1) (hr : s.running = true) : (s.lsReact k).mode = .hold := by
  unfold State.lsReact
  rw [State.on_of_one h, if_pos rfl, State.running_faultHold hr]
  exact (State.running_enterHold hr (by decide) false false).mode

/-! ### A group -/

/-- The state after a group is taken from both sides, before it is judged. -/
def State.lsTaken (s : State) (k tap m : Nat) : State :=
  let a := s.sideOf (2 * k) tap
  let b := s.sideOf (2 * k + 1) tap
  let key := k * 64 + tap
  let pos := (SMap.get (fun _ => {}) s.flt.ls key).pos
  let s := (s.setSide (2 * k) tap (a.drop m)).setSide (2 * k + 1) tap (b.drop m)
  let s := s.setFlt { s.flt with ls := SMap.set (fun _ => {}) s.flt.ls key ⟨pos + BitVec.ofNat 32 m⟩ }
  let s := s.inc (F.FLT_LS_STS_groups k)
  let go (s : State) (n : Nat) : State := match s.compareStage n tap with
    | some (t, st) => s.tapsTake t st
    | none => s
  go (go s (2 * k)) (2 * k + 1)

/-- The first position of a mismatch is kept. -/
def State.lsPosition (s : State) (k tap pos : Nat) : State :=
  if s.on (F.FLT_LS_STS_mismatch k) then s else (s.put (F.FLT_LS_POS_tap k) tap).put (F.FLT_LS_POS_position k) pos

theorem State.lsGroup_eq (s : State) (k tap m : Nat) :
    s.lsGroup k tap m = match firstDiff ((s.sideOf (2 * k) tap).take m) ((s.sideOf (2 * k + 1) tap).take m) with
      | none => s.lsTaken k tap m
      | some i => ((((s.lsTaken k tap m).lsPosition k tap ((SMap.get (fun _ => {}) s.flt.ls (k * 64 + tap)).pos.toNat + i)).put (F.FLT_LS_STS_mismatch k) 1).raise 0x0360 k).lsReact k := by
  unfold State.lsGroup
  rfl

/-- The state without the fabric and the positions of lockstep pairs. -/
def State.sansLs (s : State) : State := { s.sansWholeFab with flt := { s.flt with ls := [] } }

theorem State.lsTaken_sansLs (s : State) (k tap m : Nat) : (s.lsTaken k tap m).sansLs = (s.inc (F.FLT_LS_STS_groups k)).sansLs := by
  have hwhole {u v : State} (h : v.sansWholeFab = u.sansWholeFab) : v.sansLs = u.sansLs := by
    have hq (w : State) : w.sansLs = w.sansWholeFab.sansLs := rfl
    rw [hq v, h, ← hq u]
  have hgo (u : State) (n : Nat) : (match u.compareStage n tap with | some (t, st) => u.tapsTake t st | none => u : State).sansLs = u.sansLs := by
    split
    · exact hwhole (u.tapsTake_sansWholeFab _ _)
    · rfl
  unfold State.lsTaken
  extract_lets a b key pos c _ d e go
  have hinc (u : State) : (u.inc (F.FLT_LS_STS_groups k)).sansLs = u.sansLs.inc (F.FLT_LS_STS_groups k) := rfl
  have hside (u : State) (n : Nat) (l : List Nat) : (u.setSide n tap l).sansLs = u.sansLs := rfl
  have hls (u : State) (x : SMap LsTap) : (u.setFlt { u.flt with ls := x }).sansLs = u.sansLs := rfl
  have hd : d.sansLs = s.sansLs := (hls c _).trans ((hside _ _ _).trans (hside _ _ _))
  have he : e.sansLs = (s.inc (F.FLT_LS_STS_groups k)).sansLs := by rw [hinc s, ← hd, ← hinc d]
  exact ((hgo _ _).trans (hgo _ _)).trans he

section

variable {s : State} {k tap m : Nat}

theorem State.lsTaken_rd (off : Nat) : (s.lsTaken k tap m).rd off = (s.inc (F.FLT_LS_STS_groups k)).rd off :=
  (congrArg (fun u : State => u.rd off) (s.lsTaken_sansLs k tap m) :)

theorem State.lsTaken_get (f : RF) (h : (F.FLT_LS_STS_groups k).apart f = true) : (s.lsTaken k tap m).get f = s.get f :=
  (State.get_of_rd (State.lsTaken_rd _)).trans (State.get_inc_apart _ _ h)

theorem State.lsTaken_groups : (s.lsTaken k tap m).get (F.FLT_LS_STS_groups k) = (s.get (F.FLT_LS_STS_groups k) + 1) % 2 ^ 16 :=
  (State.get_of_rd (State.lsTaken_rd _)).trans (State.get_inc _ _ rfl)

theorem State.lsTaken_mode : (s.lsTaken k tap m).mode = s.mode := (congrArg State.mode (s.lsTaken_sansLs k tap m) :)

theorem State.lsTaken_log : (s.lsTaken k tap m).log = s.log := (congrArg State.log (s.lsTaken_sansLs k tap m) :)

theorem State.lsTaken_pwr : (s.lsTaken k tap m).pwr = s.pwr := (congrArg State.pwr (s.lsTaken_sansLs k tap m) :)

end

/-- A position is kept where none was. -/
theorem State.lsPosition_keeps (s : State) (k tap pos : Nat) :
    (∀ f : RF, f.off ≠ R.FLT_LS_POS k → (s.lsPosition k tap pos).get f = s.get f) ∧ (s.lsPosition k tap pos).mode = s.mode ∧ (s.lsPosition k tap pos).pwr = s.pwr ∧
      (tap < 64 → s.get (F.FLT_LS_STS_mismatch k) = 0 →
        (s.lsPosition k tap pos).get (F.FLT_LS_POS_tap k) = tap ∧ (s.lsPosition k tap pos).get (F.FLT_LS_POS_position k) = pos % 2 ^ 24) := by
  unfold State.lsPosition
  split
  · next h => exact ⟨fun _ _ => rfl, rfl, rfl, fun _ h0 => absurd h (by rw [State.on_of_zero h0]; decide)⟩
  · refine ⟨fun f hf => ?_, rfl, rfl, fun ht _ => ⟨?_, ?_⟩⟩
    · exact (State.get_of_rd (State.rd_put_ne _ _ _ _ hf)).trans (State.get_of_rd (State.rd_put_ne _ _ _ _ hf))
    · have hapart : (F.FLT_LS_POS_position k).apart (F.FLT_LS_POS_tap k) = true := rfl
      rw [State.get_put_apart _ _ hapart, State.get_put_lt _ rfl ht]
    · rw [State.get_put_self _ _ rfl]
      rfl

section

variable {s : State} {k tap m i : Nat} (hk : k < 8) (ht : tap < 64)

/-- A mismatch as it is raised, before the reaction. -/
def State.lsMismatch (s : State) (k tap m i : Nat) : State :=
  ((((s.lsTaken k tap m).lsPosition k tap ((SMap.get (fun _ => {}) s.flt.ls (k * 64 + tap)).pos.toNat + i)).put (F.FLT_LS_STS_mismatch k) 1).raise 0x0360 k)

theorem State.lsMismatch_get {f : RF} (hp : f.off ≠ R.FLT_LS_POS k) (h : 0x2C0008 ≤ f.off) (hm : (F.FLT_LS_STS_mismatch k).apart f = true) :
    (s.lsMismatch k tap m i).get f = (s.lsTaken k tap m).get f := by
  unfold State.lsMismatch
  rw [State.raise_getKept _ _ _ (eventReg_of_page (by omega)), State.get_put_apart _ _ hm, (State.lsPosition_keeps _ _ _ _).1 f hp]

include hk

theorem State.lsMismatch_mismatch : (s.lsMismatch k tap m i).get (F.FLT_LS_STS_mismatch k) = 1 := by
  unfold State.lsMismatch
  rw [State.raise_getKept _ _ _ (eventReg_of_page (by simp only [F.FLT_LS_STS_mismatch, R.FLT_LS_STS]; omega)), State.get_put_lit _ rfl]

omit hk in
theorem State.lsMismatch_mode : (s.lsMismatch k tap m i).mode = s.mode ∧ (s.lsMismatch k tap m i).pwr = s.pwr := by
  obtain ⟨-, hmode, hpwr, -⟩ := (s.lsTaken k tap m).lsPosition_keeps k tap ((SMap.get (fun _ => {}) s.flt.ls (k * 64 + tap)).pos.toNat + i)
  unfold State.lsMismatch
  rw [State.raise_mode, State.raise_pwr]
  exact ⟨hmode.trans State.lsTaken_mode, hpwr.trans State.lsTaken_pwr⟩

include ht in
theorem State.lsMismatch_position (h0 : s.get (F.FLT_LS_STS_mismatch k) = 0) : (s.lsMismatch k tap m i).get (F.FLT_LS_POS_tap k) = tap ∧
    (s.lsMismatch k tap m i).get (F.FLT_LS_POS_position k) = ((SMap.get (fun _ => {}) s.flt.ls (k * 64 + tap)).pos.toNat + i) % 2 ^ 24 := by
  have hm0 : (s.lsTaken k tap m).get (F.FLT_LS_STS_mismatch k) = 0 := (State.lsTaken_get _ rfl).trans h0
  obtain ⟨-, -, -, hpos⟩ := (s.lsTaken k tap m).lsPosition_keeps k tap ((SMap.get (fun _ => {}) s.flt.ls (k * 64 + tap)).pos.toNat + i)
  have hsts (lo w : Nat) : (F.FLT_LS_STS_mismatch k).apart ⟨R.FLT_LS_POS k, lo, w⟩ = true :=
    apart_off (by simp only [F.FLT_LS_STS_mismatch, R.FLT_LS_STS, R.FLT_LS_POS]; omega)
  have hget (lo w : Nat) : (s.lsMismatch k tap m i).get ⟨R.FLT_LS_POS k, lo, w⟩ =
      ((s.lsTaken k tap m).lsPosition k tap ((SMap.get (fun _ => {}) s.flt.ls (k * 64 + tap)).pos.toNat + i)).get ⟨R.FLT_LS_POS k, lo, w⟩ := by
    unfold State.lsMismatch
    rw [State.raise_getKept _ _ _ (eventReg_of_page (by simp only [R.FLT_LS_POS]; omega)), State.get_put_apart _ _ (hsts lo w)]
  exact ⟨(hget _ _).trans (hpos ht hm0).1, (hget _ _).trans (hpos ht hm0).2⟩

end

/-- What a group that is compared leaves. -/
theorem State.lsGroup_spec (s : State) (k : Fin 8) (tap : Fin 64) (m : Nat) : (s.lsGroup k tap m).get (F.FLT_LS_STS_groups k) = (s.get (F.FLT_LS_STS_groups k) + 1) % 2 ^ 16 ∧
    match firstDiff ((s.sideOf (2 * k.val) tap).take m) ((s.sideOf (2 * k.val + 1) tap).take m) with
    | none => (s.lsGroup k tap m).get (F.FLT_LS_STS_mismatch k) = s.get (F.FLT_LS_STS_mismatch k) ∧ (s.lsGroup k tap m).mode = s.mode ∧ (s.lsGroup k tap m).log = s.log
    | some i => (s.lsGroup k tap m).get (F.FLT_LS_STS_mismatch k) = 1 ∧ (s.lsGroup k tap m).logged 0x0360 k ∧
        (s.get (F.FLT_LS_STS_mismatch k) = 0 → (s.lsGroup k tap m).get (F.FLT_LS_POS_tap k) = tap ∧ (s.lsGroup k tap m).get (F.FLT_LS_POS_position k) =
          ((SMap.get (fun _ => {}) s.flt.ls (k.val * 64 + tap.val)).pos.toNat + i) % 2 ^ 24) ∧
        (s.get (F.FLT_LS_CTL_reaction k) = 0 → (s.lsGroup k tap m).mode = s.mode) ∧
        (s.get (F.FLT_LS_CTL_reaction k) = 1 → s.running = true → s.latched = false → (s.lsGroup k tap m).mode = .hold) := by
  have hk := k.isLt
  have hmis : (F.FLT_LS_STS_groups k).apart (F.FLT_LS_STS_mismatch k) = true := rfl
  rw [s.lsGroup_eq]
  cases firstDiff ((s.sideOf (2 * k.val) tap).take m) ((s.sideOf (2 * k.val + 1) tap).take m) with
  | none => exact ⟨State.lsTaken_groups, State.lsTaken_get _ hmis, State.lsTaken_mode, State.lsTaken_log⟩
  | some i =>
    have hreact {f : RF} (h : 0x2C0008 ≤ f.off) (h' : f.off < 0x2D0000) : ((s.lsMismatch k tap m i).lsReact k).get f = (s.lsMismatch k tap m i).get f :=
      State.lsReact_get _ _ h h'
    have hsts (lo w : Nat) : ((s.lsMismatch k tap m i).lsReact k).get ⟨R.FLT_LS_STS k, lo, w⟩ = (s.lsMismatch k tap m i).get ⟨R.FLT_LS_STS k, lo, w⟩ :=
      hreact (by simp only [R.FLT_LS_STS]; omega) (by simp only [R.FLT_LS_STS]; omega)
    have hpos (lo w : Nat) : ((s.lsMismatch k tap m i).lsReact k).get ⟨R.FLT_LS_POS k, lo, w⟩ = (s.lsMismatch k tap m i).get ⟨R.FLT_LS_POS k, lo, w⟩ :=
      hreact (by simp only [R.FLT_LS_POS]; omega) (by simp only [R.FLT_LS_POS]; omega)
    have hgroups : (s.lsMismatch k tap m i).get (F.FLT_LS_STS_groups k) = (s.lsTaken k tap m).get (F.FLT_LS_STS_groups k) :=
      State.lsMismatch_get (by simp only [F.FLT_LS_STS_groups, R.FLT_LS_STS, R.FLT_LS_POS]; omega) (by simp only [F.FLT_LS_STS_groups, R.FLT_LS_STS]; omega)
        rfl
    have hctl : (s.lsMismatch k tap m i).get (F.FLT_LS_CTL_reaction k) = s.get (F.FLT_LS_CTL_reaction k) := by
      have hne (lo w lo' w' : Nat) : (⟨R.FLT_LS_STS k, lo, w⟩ : RF).apart ⟨R.FLT_LS_CTL k, lo', w'⟩ = true :=
        apart_off (by simp only [R.FLT_LS_STS, R.FLT_LS_CTL]; omega)
      refine (State.lsMismatch_get (by simp only [R.FLT_LS_CTL, R.FLT_LS_POS]; omega) (by simp only [R.FLT_LS_CTL]; omega)
        (hne _ _ _ _)).trans (State.lsTaken_get _ (hne _ _ _ _))
    obtain ⟨hmode, hpwr⟩ := State.lsMismatch_mode (s := s) (k := k) (tap := tap) (m := m) (i := i)
    refine ⟨(hsts _ _).trans (hgroups.trans State.lsTaken_groups), (hsts _ _).trans (State.lsMismatch_mismatch hk), ?_, fun h0 => ?_, fun h0 => ?_, fun h1 hr _ => ?_⟩
    · exact State.Alters.logged (State.lsReact_holds _ k) (State.raise_logged _ _ _)
    · obtain ⟨h1, h2⟩ := State.lsMismatch_position (m := m) (i := i) hk tap.isLt h0
      exact ⟨(hpos _ _).trans h1, (hpos _ _).trans h2⟩
    · exact (congrArg State.mode (State.lsReact_none (hctl.trans h0))).trans hmode
    · exact State.lsReact_hold (hctl.trans h1) ((State.running_congr hmode (congrArg Pwr.holdLatch hpwr)).trans hr)

theorem completes_lockstepCompare (k : Fin 8) (tap : Fin 64) (s : State) (hu : s.tapUsed k tap = true) (ha : 4 ≤ (s.sideOf (2 * k.val) tap).length)
    (hb : 4 ≤ (s.sideOf (2 * k.val + 1) tap).length) : exec (.lockstepCompare k tap) s = .next (s.lsGroup k tap 4) :=
  congrArg Host.Outcome.next (if_pos ⟨hu, ha, hb⟩)

theorem completes_lockstepShortGroup (k : Fin 8) (tap : Fin 64) (s : State) (hu : s.tapUsed k tap = true)
    (h0 : 0 < min (s.sideOf (2 * k.val) tap).length (s.sideOf (2 * k.val + 1) tap).length)
    (h4 : min (s.sideOf (2 * k.val) tap).length (s.sideOf (2 * k.val + 1) tap).length < 4) :
    exec (.lockstepShortGroup k tap) s = .next (s.lsGroup k tap (min (s.sideOf (2 * k.val) tap).length (s.sideOf (2 * k.val + 1) tap).length)) :=
  congrArg Host.Outcome.next (if_pos ⟨hu, h0, h4⟩)

/-! ### The lag -/

theorem completes_lockstepLag (k : Fin 8) (tap : Fin 64) (byTime : Bool) (s : State) (hu : s.tapUsed k tap = true)
    (hfree : ∀ n : Fin 2, s.get (F.REGION_FREEZE_freeze (2 * k.val + n.val)) = 0 ∧ s.get (F.REGION_FREEZE_hold_freeze (2 * k.val + n.val)) = 0)
    (hlag : clamp 1 60 (s.get (F.FLT_LS_CTL_lag_tokens k)) < max (s.sideOf (2 * k.val) tap).length (s.sideOf (2 * k.val + 1) tap).length -
        min (s.sideOf (2 * k.val) tap).length (s.sideOf (2 * k.val + 1) tap).length ∨
      (byTime = true ∧ (s.sideOf (2 * k.val) tap).length ≠ (s.sideOf (2 * k.val + 1) tap).length)) :
    Completes (.lockstepLag k tap byTime) s (fun t => t.get (F.FLT_LS_STS_lag k) = 1 ∧ t.logged 0x0361 k) := by
  have hk := k.isLt
  have hthawed : [2 * k.val, 2 * k.val + 1].any (fun n => s.on (F.REGION_FREEZE_freeze n) || s.on (F.REGION_FREEZE_hold_freeze n)) = false := by
    have h0 : s.on (F.REGION_FREEZE_freeze (2 * k.val)) = false ∧ s.on (F.REGION_FREEZE_hold_freeze (2 * k.val)) = false :=
      ⟨State.on_of_zero (hfree 0).1, State.on_of_zero (hfree 0).2⟩
    have h1 : s.on (F.REGION_FREEZE_freeze (2 * k.val + 1)) = false ∧ s.on (F.REGION_FREEZE_hold_freeze (2 * k.val + 1)) = false :=
      ⟨State.on_of_zero (hfree 1).1, State.on_of_zero (hfree 1).2⟩
    simp [h0.1, h0.2, h1.1, h1.2]
  have hlead : (decide (clamp 1 60 (s.get (F.FLT_LS_CTL_lag_tokens k)) < max (s.sideOf (2 * k.val) tap).length (s.sideOf (2 * k.val + 1) tap).length -
      min (s.sideOf (2 * k.val) tap).length (s.sideOf (2 * k.val + 1) tap).length) ||
      (byTime && (s.sideOf (2 * k.val) tap).length != (s.sideOf (2 * k.val + 1) tap).length)) = true := by
    rcases hlag with h | ⟨h, h'⟩
    · simp [h]
    · simp [h, h']
  show ∃ t, execLockstepLag k tap byTime s = .next t ∧ _
  unfold execLockstepLag
  dsimp only
  rw [hu, hthawed, hlead, if_neg (by decide)]
  refine ⟨_, rfl, ?_, State.Alters.logged (State.lsReact_holds _ k) (State.raise_logged _ _ _)⟩
  rw [State.lsReact_get _ _ (by simp only [F.FLT_LS_STS_lag, R.FLT_LS_STS]; omega) (by simp only [F.FLT_LS_STS_lag, R.FLT_LS_STS]; omega),
    State.raise_getKept _ _ _ (eventReg_of_page (by simp only [F.FLT_LS_STS_lag, R.FLT_LS_STS]; omega)), State.get_put_lit _ rfl]

/-- Settles O46: whole and short groups are compared, the first mismatch keeps its position, and a lag is told. -/
theorem lockstepPairsAreCompared : Obligations.LockstepPairsAreCompared := by
  unfold Obligations.LockstepPairsAreCompared
  refine ⟨completes_lockstepArm, fun k tap s hu => ⟨fun ha hb => ?_, fun h0 h4 => ?_⟩, completes_lockstepLag⟩
  · exact ⟨_, completes_lockstepCompare k tap s hu ha hb, s.lsGroup_spec k tap 4⟩
  · exact ⟨_, completes_lockstepShortGroup k tap s hu h0 h4, s.lsGroup_spec k tap _⟩

end Sys2Proof.Machine

end

section

/-! PROOFS. The Groomer (R399 to R406). -/

namespace Sys2Proof.Machine

/-! ### Single bits of a count -/

theorem bitOf_setBit (v c : Nat) : bitOf (setBit v c) c = true := by
  unfold setBit
  split
  · assumption
  · next h => rw [bitOf, Nat.add_comm, Nat.testBit_two_pow_add_eq]; simpa [bitOf] using h

theorem setBit_lt {v c w : Nat} (hv : v < 2 ^ w) (hc : c < w) : setBit v c < 2 ^ w := by
  unfold setBit
  split
  · exact hv
  · next h => exact add_pow_lt hv hc (by simpa [bitOf] using h)

/-! ### Frames -/

theorem frameAddr_parts {n col minor : Nat} (hc : col < 256) (hm : minor < 256) :
    frameAddr n col minor / 65536 = n ∧ frameAddr n col minor / 256 % 256 = col ∧ frameAddr n col minor % 256 = minor := by
  unfold frameAddr
  omega

theorem frameAddr_of (a : Nat) : frameAddr (a / 65536) (a / 256 % 256) (a % 256) = a := by
  unfold frameAddr
  omega

/-- The state without tokens and frames. -/
def State.sansFrames (s : State) : State := { s.sansTokens with fab := { s.sansTokens.fab with frames := [] } }

theorem State.fabSettle_sansTokens (s : State) : s.fabSettle.sansTokens = s.sansTokens := by
  have hretree (u : State) (d : Dst) : (u.retree d).sansTokens = u.sansTokens := by
    have hite (c : Bool) (t : Tile) (l : List Dst) : (if c = true then (u.setJoined t l).ackDst d else u).sansTokens = u.sansTokens := by
      cases c
      · rfl
      · exact (State.ackDst_sansTokens _ _).trans rfl
    unfold State.retree
    split
    · exact hite _ _ _
    · rfl
  have hrejoin (u : State) (o : Option Src) : (o.elim u u.rejoin).sansTokens = u.sansTokens := by
    cases o with
    | none => rfl
    | some x => exact u.rejoin_sansTokens x
  exact (foldl_sansTokens _ hretree _ _).trans (foldl_kept State.sansTokens (fun u e _ => hrejoin u (srcAt e.1)) s)

theorem State.frameNew_frames (s : State) (a : Nat) (v : Frame) :
    (∀ x, SMap.get (fun _ => 0) (s.frameNew a v).fab.frames x = if x = a then v else SMap.get (fun _ => 0) s.fab.frames x) ∧
      (s.frameNew a v).sansFrames = s.sansFrames := by
  have hsame {u w : State} (h : w.sansTokens = u.sansTokens) : w.fab.frames = u.fab.frames ∧ w.sansFrames = u.sansFrames := by
    refine ⟨(congrArg (fun x : State => x.fab.frames) h :), ?_⟩
    have hq (x : State) : x.sansFrames = x.sansTokens.sansFrames := rfl
    rw [hq w, h, ← hq u]
  unfold State.frameNew
  split
  · next h =>
    refine ⟨fun x => ?_, rfl⟩
    split
    · next hx =>
      rw [hx, ← h, State.frame, frameAddr_of]
    · rfl
  · obtain ⟨hframes, hrest⟩ := hsame (State.fabSettle_sansTokens (s.setFrame a v))
    refine ⟨fun x => ?_, hrest.trans rfl⟩
    rw [hframes]
    split
    · next hx => rw [hx]; exact SMap.get_set_same _ _ _ _
    · next hx => exact SMap.get_set_ne _ _ _ _ _ hx

theorem State.frameNew_frame (s : State) (n c m : Nat) (v : Frame) : (s.frameNew (frameAddr n c m) v).frame n c m = v := by
  rw [State.frame, (s.frameNew_frames _ v).1, if_pos rfl]

theorem State.frameNew_same (s : State) {n c m : Nat} (hc : c < 256) (hm : m < 256) : s.frameNew (frameAddr n c m) (s.frame n c m) = s := by
  obtain ⟨h1, h2, h3⟩ := frameAddr_parts (n := n) hc hm
  unfold State.frameNew
  rw [h1, h2, h3, if_pos rfl]

section

variable (s : State) (a : Nat) (v : Frame)

@[simp] theorem State.frameNew_flt : (s.frameNew a v).flt = s.flt := (congrArg State.flt (s.frameNew_frames a v).2 :)
@[simp] theorem State.frameNew_regs : (s.frameNew a v).regs = s.regs := (congrArg State.regs (s.frameNew_frames a v).2 :)
@[simp] theorem State.frameNew_log : (s.frameNew a v).log = s.log := (congrArg State.log (s.frameNew_frames a v).2 :)
@[simp] theorem State.frameNew_mode : (s.frameNew a v).mode = s.mode := (congrArg State.mode (s.frameNew_frames a v).2 :)
@[simp] theorem State.frameNew_get (f : RF) : (s.frameNew a v).get f = s.get f := State.get_of_regs (s.frameNew_regs a v) f

end

/-! ### What an engine's step leaves alone -/

/-- The registers that the check of a frame changes at most, once the latches are rewritten and the copies have voted. -/
def groomReg (off : Nat) : Word := if off = R.GRM_CFG ∨ off = R.GRM_SELF ∨ off = R.GRM_STS ∨ off = R.FLT_MOR_STS then 0 else BitVec.allOnes 32

abbrev State.Grooms (s t : State) : Prop := s.Alters groomReg (fun _ => ()) t

theorem groomReg_eventful : Eventful groomReg (fun _ => ()) := by
  refine ⟨fun off h => if_neg ?_, fun _ => rfl⟩
  rintro (rfl | rfl | rfl | rfl) <;> exact absurd h (by decide)

section

variable (s : State)

theorem State.put_grooms {f : RF} (v : Nat) (h : groomReg f.off = BitVec.allOnes 32) : s.Grooms (s.put f v) :=
  .field groomReg_eventful v (by rw [h, and_not_allOnes])

theorem State.setFlt_grooms (x : Flt) : s.Grooms (s.setFlt x) := .of_same rfl rfl rfl

theorem State.frameNew_grooms (a : Nat) (v : Frame) : s.Grooms (s.frameNew a v) := .of_same (s.frameNew_regs a v) (s.frameNew_log a v) rfl

theorem State.sbu_grooms (n c m : Nat) (e : Frame) : s.Grooms (s.sbu n c m e) := by
  have hput (u : State) (f : RF) (v : Nat) (h : groomReg f.off = BitVec.allOnes 32) : u.Grooms (u.put f v) := u.put_grooms v h
  have hmor (u : State) (kind inst pos cause : Nat) : u.Grooms (u.morReport kind inst pos cause) := .ite (fun _ => .refl _ _ _) fun _ => u.setFlt_grooms _
  have hcount (x : Flt) (v : Nat) : s.Grooms (((s.setFlt x).put F.GRM_SBU_count v).raiseLim 1000 0x0301 n n) :=
    ((s.setFlt_grooms _).trans (hput _ F.GRM_SBU_count _ rfl)).trans (.raiseLim groomReg_eventful _ _ _ _)
  have hpersist (u : State) (a : Nat) : u.Grooms (((u.put F.GRM_PERSIST_addr a).put F.GRM_PERSIST_valid 1).raise 0x0307 n) :=
    ((hput _ F.GRM_PERSIST_addr _ rfl).trans (hput _ F.GRM_PERSIST_valid _ rfl)).trans (.raise groomReg_eventful _ _)
  unfold State.sbu State.sat
  dsimp only
  exact (hcount _ _).trans (.ite (fun _ => .refl _ _ _) fun _ => ((hpersist _ _).trans (State.setFlt_grooms _ _)).trans (.ite (fun _ => hmor _ _ _ _ _) fun _ => .refl _ _ _))

theorem State.mbu_grooms (n a : Nat) : s.Grooms (s.mbu n a) := by
  have hput (u : State) (f : RF) (v : Nat) (h : groomReg f.off = BitVec.allOnes 32) : u.Grooms (u.put f v) := u.put_grooms v h
  have hpos (u : State) : u.Grooms (((u.put F.GRM_MBU_POS_addr a).put F.GRM_MBU_POS_outcome 0).put F.GRM_MBU_POS_valid 1) :=
    ((hput _ F.GRM_MBU_POS_addr _ rfl).trans (hput _ F.GRM_MBU_POS_outcome _ rfl)).trans (hput _ F.GRM_MBU_POS_valid _ rfl)
  have hdet : s.Grooms ((s.sat F.GRM_MBU_detected).raise 0x0302 n) := (hput _ F.GRM_MBU_detected _ rfl).trans (.raise groomReg_eventful _ _)
  unfold State.mbu
  exact .ite (fun _ => .refl _ _ _) fun _ => (hdet.trans (.ite (fun _ => .refl _ _ _) fun _ => hpos _)).trans (State.setFlt_grooms _ _)

theorem State.grmPass_grooms {n : Nat} (hn : n < 16) : s.Grooms (s.grmPass n) := by
  have hput (u : State) (lo w v : Nat) : u.Grooms (u.put ⟨R.GRM_RCYC n, lo, w⟩ v) :=
    u.put_grooms v (if_neg (by simp only [R.GRM_RCYC, R.GRM_CFG, R.GRM_SELF, R.GRM_STS, R.FLT_MOR_STS]; omega))
  exact ((hput _ _ _ _).trans (hput _ _ _ _)).trans (State.setFlt_grooms _ _)

end

/-- The check of a frame once the latches are rewritten and the copies have voted. -/
def State.groomCheck (s : State) (n c m : Nat) (flips : Frame) : State :=
  let a := frameAddr n c m
  let f := s.groomBits n c m flips
  let e := SMap.get (fun _ => 0) s.flt.bad a ^^^ f
  if s.movingCol n = some c then
    (s.setFlt { s.flt with bad := SMap.set (fun _ => 0) s.flt.bad a e }).frameNew a (s.frame n c m ^^^ f)
  else if oneBit e.toNat then ((s.frameChecked n c m).frameNew a (s.frame n c m ^^^ f ^^^ e)).sbu n c m e
  else
    let s := ((s.frameChecked n c m).setFlt { (s.frameChecked n c m).flt with bad := SMap.set (fun _ => 0) s.flt.bad a e }).frameNew a
      (s.frame n c m ^^^ f)
    if e = 0 then s
    else if sureDetect e.toNat then s.mbu n a
    else
      let d := s.draw
      if d.1 % 2 = 1 then d.2.mbu n a else d.2

/-- The end of a pass. -/
def State.groomEnd (s : State) (n : Nat) (last : Bool) : State := if last && s.passFull n then s.grmPass n else s

theorem execGroomerFrameCheck_eq {n : Fin 16} {col minor : BitVec 8} {s : State} (he : s.get F.GRM_CFG_enable = 1) (ha : bitOf (s.get F.GRM_STS_active) n = true)
    (hm : minor.toNat < minorsOf col.toNat) (hd : s.frameDue n col.toNat minor.toNat = true) (flips : BitVec 4096) (out : Option (Fin 3)) (latch last : Bool) :
    exec (.groomerFrameCheck n col minor flips out latch last) s =
      .next ((((s.passBegin n false latch).groomVote n out).groomCheck n col.toNat minor.toNat flips).groomEnd n last) := by
  show execGroomerFrameCheck n col minor flips out latch last s = _
  unfold execGroomerFrameCheck
  dsimp only
  rw [if_neg (by simp [State.on_of_one he, ha, hd]; omega)]
  rfl

section

variable (s : State) {n : Nat} (hn : n < 16)

theorem State.groomCheck_grooms (c m : Nat) (flips : Frame) : s.Grooms (s.groomCheck n c m flips) := by
  have hdraw (u : State) : u.Grooms u.draw.2 := .of_same rfl rfl rfl
  have hchecked : s.Grooms (s.frameChecked n c m) := s.setFlt_grooms _
  unfold State.groomCheck
  dsimp only
  refine .ite (fun _ => (s.setFlt_grooms _).trans (State.frameNew_grooms _ _ _)) fun _ => .ite (fun _ => ?_) fun _ => .trans
    ((hchecked.trans (State.setFlt_grooms _ _)).trans (State.frameNew_grooms _ _ _)) (.ite (fun _ => .refl _ _ _) fun _ => .ite (fun _ => State.mbu_grooms _ _ _) fun _ =>
      .ite (fun _ => (hdraw _).trans (State.mbu_grooms _ _ _)) fun _ => hdraw _)
  exact (hchecked.trans (State.frameNew_grooms _ _ _)).trans (State.sbu_grooms _ _ _ _ _)

include hn in
theorem State.groomEnd_grooms (last : Bool) : s.Grooms (s.groomEnd n last) := .ite (fun _ => s.grmPass_grooms hn) fun _ => .refl _ _ _

include hn in
theorem State.groomed_grooms (c m : Nat) (flips : Frame) (last : Bool) : s.Grooms ((s.groomCheck n c m flips).groomEnd n last) :=
  (s.groomCheck_grooms c m flips).trans (State.groomEnd_grooms _ hn last)

end

end Sys2Proof.Machine

end

section

/-! PROOFS. The findings of the Groomer, repairs and overruns (R400 to R406). -/

namespace Sys2Proof.Machine

/-! ### The start of a pass -/

theorem State.latchesRewrite_get (s : State) (n : Nat) (latch : Bool) {f : RF} (hcfg : f.off ≠ R.GRM_CFG) (hsts : f.off ≠ R.GRM_STS) (hev : eventReg f.off = false)
    (hself : F.GRM_SELF_latch.apart f = true) : (s.latchesRewrite n latch).get f = s.get f := by
  have hwr (u : State) (w : Word) : (u.wr R.GRM_CFG w).get f = u.get f := State.get_of_rd (State.rd_wr_ne _ _ _ _ hcfg)
  have hput (u : State) (v : Nat) : (u.put F.GRM_STS_active v).get f = u.get f := State.get_of_rd (State.rd_put_ne _ _ _ _ hsts)
  have hite (u : State) (c : Bool) : (if c = true then u else u.put F.GRM_STS_active 0).get f = u.get f := by
    cases c
    · exact hput u 0
    · rfl
  unfold State.latchesRewrite
  dsimp only
  split
  · rw [State.raise_getKept _ _ _ hev, State.get_sat_apart _ _ hself, hite, hwr]
  · rw [hite, hwr]

theorem State.passBegin_get (s : State) (n : Nat) (latch : Bool) {f : RF} (hcfg : f.off ≠ R.GRM_CFG) (hsts : f.off ≠ R.GRM_STS) (hev : eventReg f.off = false)
    (hself : F.GRM_SELF_latch.apart f = true) : (s.passBegin n false latch).get f = s.get f := by
  unfold State.passBegin
  split
  · rfl
  · exact s.latchesRewrite_get n latch hcfg hsts hev hself

/-- A start without a latch that disagreed changes GRM_CFG and the engines that are active. -/
theorem State.passBegin_regs (s : State) (n : Nat) :
    ∃ r, s.passBegin n false false = { s with regs := r } ∧ ∀ off, off ≠ R.GRM_CFG → off ≠ R.GRM_STS → State.rd { s with regs := r } off = s.rd off := by
  by_cases h : s.passOpen n = true
  · rw [State.passBegin, if_pos h]
    exact ⟨s.regs, rfl, fun _ _ _ => rfl⟩
  · rw [State.passBegin, if_neg h, if_pos (show (!false) = true from rfl)]
    unfold State.latchesRewrite
    simp only [Bool.false_eq_true, if_false]
    split
    · exact ⟨_, rfl, fun off hc _ => State.rd_wr_ne _ _ _ _ hc⟩
    · exact ⟨_, rfl, fun off hc hs => (State.rd_put_ne (s.wr R.GRM_CFG s.heldCfg) _ _ _ hs).trans (State.rd_wr_ne _ _ _ _ hc)⟩

/-- Where the migration of a region stands, by the registers that say so. -/
theorem State.movingCol_congr {s t : State} {n : Nat} (hn : n < 16) (h : ∀ off, off ≠ R.GRM_CFG → off ≠ R.GRM_STS → t.rd off = s.rd off) : t.movingCol n = s.movingCol n := by
  have hbist (lo w : Nat) : t.get ⟨R.BIST_STS, lo, w⟩ = s.get ⟨R.BIST_STS, lo, w⟩ :=
    State.get_of_rd (h _ (show R.BIST_STS ≠ R.GRM_CFG by decide) (show R.BIST_STS ≠ R.GRM_STS by decide))
  have hgap : t.colGap n (s.get F.BIST_STS_group) = s.colGap n (s.get F.BIST_STS_group) := by
    refine State.get_of_rd (h _ ?_ ?_)
    · simp only [F.REGION_COLMAP_gap, R.REGION_COLMAP, R.GRM_CFG]; omega
    · simp only [F.REGION_COLMAP_gap, R.REGION_COLMAP, R.GRM_STS]; omega
  unfold State.movingCol F.BIST_STS_phase F.BIST_STS_region
  rw [hbist, hbist, show t.get F.BIST_STS_group = s.get F.BIST_STS_group from hbist _ _]
  dsimp only
  rw [hgap]

theorem State.passFull_congr {s t : State} {n : Nat} (hmove : t.movingCol n = s.movingCol n) (hchecked : t.flt.checked = s.flt.checked) : t.passFull n = s.passFull n := by
  unfold State.passFull
  rw [hmove, hchecked]

/-! ### What a check finds -/

section

variable {s : State} {n c m : Nat} {flips : Frame} {last : Bool} (hmove : s.movingCol n ≠ some c) (hc : c < 256) (hm : m < 256)

include hmove in
/-- A frame without an error is left. -/
theorem State.groomCheck_clean (hc : c < 256) (hm : m < 256) (hold : SMap.get (fun _ => 0) s.flt.bad (frameAddr n c m) = 0)
    (hclean : SMap.get (fun _ => 0) s.flt.bad (frameAddr n c m) ^^^ s.groomBits n c m flips = 0) :
    ∃ bad, s.groomCheck n c m flips = (s.frameChecked n c m).setFlt { (s.frameChecked n c m).flt with bad := bad } := by
  have hflips : s.groomBits n c m flips = 0 := by
    rw [hold] at hclean
    simpa using hclean
  have hzero : (0 : Frame).toNat = 0 := BitVec.toNat_zero
  have hone : oneBit (0 : Frame).toNat = false := by rw [hzero]; rfl
  have hxor : s.frame n c m ^^^ (0 : Frame) = s.frame n c m := BitVec.xor_zero
  unfold State.groomCheck
  dsimp only
  rw [if_neg hmove, hclean, hone, if_neg (by decide), if_pos rfl, hflips, hxor]
  exact ⟨_, State.frameNew_same (n := n) (((s.frameChecked n c m).setFlt _)) hc hm⟩

include hmove in
theorem State.groomCheck_one (hone : oneBit (SMap.get (fun _ => 0) s.flt.bad (frameAddr n c m) ^^^ s.groomBits n c m flips).toNat = true) :
    s.groomCheck n c m flips = ((s.frameChecked n c m).frameNew (frameAddr n c m) (s.frame n c m ^^^ SMap.get (fun _ => 0) s.flt.bad (frameAddr n c m))).sbu n c m
      (SMap.get (fun _ => 0) s.flt.bad (frameAddr n c m) ^^^ s.groomBits n c m flips) := by
  have hback (x f o : Frame) : x ^^^ f ^^^ (o ^^^ f) = x ^^^ o := by
    rw [BitVec.xor_assoc, BitVec.xor_comm o f, ← BitVec.xor_assoc f f o, BitVec.xor_self, BitVec.zero_xor]
  unfold State.groomCheck
  dsimp only
  rw [if_neg hmove, if_pos hone, hback]

include hmove in
theorem State.groomCheck_sure (hone : oneBit (SMap.get (fun _ => 0) s.flt.bad (frameAddr n c m) ^^^ s.groomBits n c m flips).toNat = false)
    (hne : SMap.get (fun _ => 0) s.flt.bad (frameAddr n c m) ^^^ s.groomBits n c m flips ≠ 0)
    (hsure : sureDetect (SMap.get (fun _ => 0) s.flt.bad (frameAddr n c m) ^^^ s.groomBits n c m flips).toNat = true) :
    s.groomCheck n c m flips = (((s.frameChecked n c m).setFlt { (s.frameChecked n c m).flt with
      bad := SMap.set (fun _ => 0) s.flt.bad (frameAddr n c m) (SMap.get (fun _ => 0) s.flt.bad (frameAddr n c m) ^^^ s.groomBits n c m flips) }).frameNew (frameAddr n c m)
        (s.frame n c m ^^^ s.groomBits n c m flips)).mbu n (frameAddr n c m) := by
  unfold State.groomCheck
  dsimp only
  rw [if_neg hmove, hone, if_neg (by decide), if_neg hne, if_pos hsure]

end

/-- What the end of a pass leaves alone. -/
theorem State.groomEnd_keeps (s : State) (n : Nat) (last : Bool) : (s.groomEnd n last).fab = s.fab ∧ (s.groomEnd n last).log = s.log ∧
    (s.groomEnd n last).flt.bad = s.flt.bad ∧ (s.groomEnd n last).flt.repairs = s.flt.repairs ∧
      ∀ f : RF, f.off ≠ R.GRM_RCYC n → (s.groomEnd n last).get f = s.get f := by
  unfold State.groomEnd
  split
  · exact ⟨rfl, rfl, rfl, rfl, fun f hf => (State.setFlt_get _ _ _).trans ((State.get_of_rd (State.rd_put_ne _ _ _ _ hf)).trans (State.get_of_rd (State.rd_put_ne _ _ _ _ hf)))⟩
  · exact ⟨rfl, rfl, rfl, rfl, fun _ _ => rfl⟩

theorem State.groomEnd_passes (s : State) (n : Nat) (last : Bool) : (s.groomEnd n last).get (F.GRM_RCYC_passes n) =
    if last && s.passFull n then (s.get (F.GRM_RCYC_passes n) + 1) % 2 ^ 16 else s.get (F.GRM_RCYC_passes n) := by
  unfold State.groomEnd
  split
  · unfold State.grmPass
    dsimp only
    rw [State.setFlt_get, State.get_inc _ _ rfl, State.get_put_apart _ _ rfl]
    rfl
  · rfl

/-- The findings that a later step of the same check leaves. -/
structure State.Finds (s t : State) : Prop where
  fab : t.fab = s.fab
  bad : t.flt.bad = s.flt.bad
  repairs : t.flt.repairs = s.flt.repairs
  count : t.get F.GRM_SBU_count = s.get F.GRM_SBU_count

theorem State.Finds.trans {s t u : State} (h : s.Finds t) (g : t.Finds u) : s.Finds u :=
  ⟨g.fab.trans h.fab, g.bad.trans h.bad, g.repairs.trans h.repairs, g.count.trans h.count⟩

theorem State.morReport_finds (s : State) (kind inst pos cause : Nat) : s.Finds (s.morReport kind inst pos cause) := by
  unfold State.morReport
  split <;> exact ⟨rfl, rfl, rfl, rfl⟩

theorem State.persist_finds (s : State) (n a : Nat) : s.Finds (((s.put F.GRM_PERSIST_addr a).put F.GRM_PERSIST_valid 1).raise 0x0307 n) := by
  refine ⟨State.raise_fab _ _ _, congrArg Flt.bad (State.raise_flt _ _ _), congrArg Flt.repairs (State.raise_flt _ _ _), ?_⟩
  rw [State.raise_getKept _ _ _ rfl, State.get_put_apart _ _ rfl, State.get_put_apart _ _ rfl]

theorem State.setCorr_finds (s : State) (x : SMap (Nat × Nat × Nat)) : s.Finds (s.setFlt { s.flt with corr := x }) := ⟨rfl, rfl, rfl, rfl⟩

/-- A single-bit error corrected is counted, and the frame has no error left. -/
theorem State.sbu_spec (s : State) (n c m : Nat) (e : Frame) : (s.sbu n c m e).fab = s.fab ∧ SMap.get (fun _ => 0) (s.sbu n c m e).flt.bad (frameAddr n c m) = 0 ∧
    (s.sbu n c m e).get F.GRM_SBU_count = min (s.get F.GRM_SBU_count + 1) (2 ^ 24 - 1) := by
  have hcount (x : Flt) : (((s.setFlt x).sat F.GRM_SBU_count).raiseLim 1000 0x0301 n n).get F.GRM_SBU_count = min (s.get F.GRM_SBU_count + 1) (2 ^ 24 - 1) := by
    rw [State.raiseLim_getKept _ _ _ _ _ rfl, State.get_sat _ _ rfl, State.setFlt_get]
    rfl
  have hfab (x : Flt) : (((s.setFlt x).sat F.GRM_SBU_count).raiseLim 1000 0x0301 n n).fab = s.fab := State.raiseLim_fab _ _ _ _ _
  have hflt (x : Flt) : (((s.setFlt x).sat F.GRM_SBU_count).raiseLim 1000 0x0301 n n).flt = x := State.raiseLim_flt _ _ _ _ _
  have hdone (u t : State) (h : u.Finds t) (hu : u.fab = s.fab ∧ SMap.get (fun _ => 0) u.flt.bad (frameAddr n c m) = 0 ∧
      u.get F.GRM_SBU_count = min (s.get F.GRM_SBU_count + 1) (2 ^ 24 - 1)) : t.fab = s.fab ∧ SMap.get (fun _ => 0) t.flt.bad (frameAddr n c m) = 0 ∧
        t.get F.GRM_SBU_count = min (s.get F.GRM_SBU_count + 1) (2 ^ 24 - 1) := by
    rw [h.fab, h.bad, h.count]
    exact hu
  have hlast (u : State) (k : Prop) [Decidable k] (x : SMap (Nat × Nat × Nat)) (a inst pos : Nat) (d : Prop) [Decidable d] :
      u.Finds (if k then u else
        if d then ((((u.put F.GRM_PERSIST_addr a).put F.GRM_PERSIST_valid 1).raise 0x0307 n).setFlt
          { (((u.put F.GRM_PERSIST_addr a).put F.GRM_PERSIST_valid 1).raise 0x0307 n).flt with corr := x }).morReport 1 inst pos 0x0307
        else (((u.put F.GRM_PERSIST_addr a).put F.GRM_PERSIST_valid 1).raise 0x0307 n).setFlt
          { (((u.put F.GRM_PERSIST_addr a).put F.GRM_PERSIST_valid 1).raise 0x0307 n).flt with corr := x }) := by
    split
    · exact ⟨rfl, rfl, rfl, rfl⟩
    · split
      · exact ((u.persist_finds n a).trans (State.setCorr_finds _ x)).trans (State.morReport_finds _ _ _ _ _)
      · exact (u.persist_finds n a).trans (State.setCorr_finds _ x)
  unfold State.sbu
  dsimp only
  refine hdone _ _ (hlast _ _ _ _ _ _ _) ⟨hfab _, ?_, hcount _⟩
  rw [hflt]
  dsimp only
  rw [SMap.get_set_same]

/-- A repair is started for an error that cannot be corrected. -/
theorem State.mbu_spec (s : State) {n a : Nat} (ha : a ∉ s.flt.repairs) : (s.mbu n a).flt = { s.flt with repairs := s.flt.repairs ++ [a] } ∧
    (s.mbu n a).logged 0x0302 n ∧ (s.mbu n a).get F.GRM_MBU_detected = min (s.get F.GRM_MBU_detected + 1) 255 ∧
    (s.get F.GRM_MBU_POS_valid = 0 → (s.mbu n a).get F.GRM_MBU_POS_addr = a % 2 ^ 20 ∧ (s.mbu n a).get F.GRM_MBU_POS_valid = 1) := by
  have hdet : ((s.sat F.GRM_MBU_detected).raise 0x0302 n).get F.GRM_MBU_detected = min (s.get F.GRM_MBU_detected + 1) 255 := by
    rw [State.raise_getKept _ _ _ rfl, State.get_sat _ _ rfl]
    rfl
  have hvalid : ((s.sat F.GRM_MBU_detected).raise 0x0302 n).get F.GRM_MBU_POS_valid = s.get F.GRM_MBU_POS_valid := by
    rw [State.raise_getKept _ _ _ rfl, State.get_sat_apart _ _ rfl]
  have hflt : ((s.sat F.GRM_MBU_detected).raise 0x0302 n).flt = s.flt := State.raise_flt _ _ _
  have hlog : ((s.sat F.GRM_MBU_detected).raise 0x0302 n).logged 0x0302 n := State.raise_logged _ _ _
  unfold State.mbu
  rw [if_neg (by simpa using ha)]
  generalize (s.sat F.GRM_MBU_detected).raise 0x0302 n = u at *
  dsimp only
  split
  · next hon =>
    rw [hflt]
    refine ⟨rfl, hlog, hdet, fun h0 => absurd hon ?_⟩
    rw [State.on_of_zero (hvalid.trans h0)]
    decide
  · refine ⟨by rw [State.put_flt, State.put_flt, State.put_flt, hflt]; rfl, hlog, ?_, fun _ => ⟨?_, ?_⟩⟩
    · rw [State.setFlt_get, State.get_put_apart _ _ rfl, State.get_put_apart _ _ rfl, State.get_put_apart _ _ rfl, hdet]
    · rw [State.setFlt_get, State.get_put_apart _ _ rfl, State.get_put_apart _ _ rfl, State.get_put_self _ _ rfl]
      rfl
    · rw [State.setFlt_get, State.get_put_lit _ rfl]

end Sys2Proof.Machine

end

section

/-! PROOFS. What the Groomer's commands do (R399 to R406). -/

namespace Sys2Proof.Machine

/-- A state in which a pass has begun without a latch that disagreed. -/
structure State.Begins (n : Nat) (s u : State) : Prop where
  fab : u.fab = s.fab
  flt : u.flt = s.flt
  log : u.log = s.log
  bits : ∀ c m flips, u.groomBits n c m flips = s.groomBits n c m flips
  move : u.movingCol n = s.movingCol n
  rd : ∀ off, off ≠ R.GRM_CFG → off ≠ R.GRM_STS → u.rd off = s.rd off

theorem State.passBegin_begins (s : State) {n : Nat} (hn : n < 16) : s.Begins n (s.passBegin n false false) := by
  obtain ⟨r, hu, hrd⟩ := s.passBegin_regs n
  rw [hu]
  exact ⟨rfl, rfl, rfl, fun _ _ _ => rfl, State.movingCol_congr hn hrd, hrd⟩

/-! ### A frame checked -/

section

variable {n : Fin 16} {col minor : BitVec 8} {flips : BitVec 4096} {last : Bool} {s : State} (he : s.get F.GRM_CFG_enable = 1)
  (ha : bitOf (s.get F.GRM_STS_active) n = true) (hm : minor.toNat < minorsOf col.toNat) (hd : s.frameDue n col.toNat minor.toNat = true)

include he ha hm hd

theorem completes_check {P : State → Prop} (out : Option (Fin 3)) (latch : Bool)
    (h : P ((((s.passBegin n false latch).groomVote n out).groomCheck n col.toNat minor.toNat flips).groomEnd n last)) :
    Completes (.groomerFrameCheck n col minor flips out latch last) s P := ⟨_, execGroomerFrameCheck_eq he ha hm hd flips out latch last, h⟩

theorem completes_check_begins {P : State → Prop} (h : ∀ u, s.Begins n u → P ((u.groomCheck n col.toNat minor.toNat flips).groomEnd n last)) :
    Completes (.groomerFrameCheck n col minor flips none false last) s P := completes_check he ha hm hd none false (h _ (s.passBegin_begins n.isLt))

/-- A latch that disagreed at the start of a pass is rewritten and reported. -/
theorem completes_check_latch (hopen : s.passOpen n = false) : Completes (.groomerFrameCheck n col minor flips none true last) s (fun t =>
    t.rd R.GRM_CFG = s.heldCfg ∧ t.get F.GRM_SELF_latch = min (s.get F.GRM_SELF_latch + 1) 255 ∧ t.logged 0x0305 n) := by
  refine completes_check he ha hm hd none true ?_
  have hbegin : (s.passBegin n false true).groomVote n none = s.latchesRewrite n true := by
    show s.passBegin n false true = _
    rw [State.passBegin, if_neg (by rw [hopen]; decide), if_pos (show (!false) = true from rfl)]
  rw [hbegin]
  have hgrooms := (s.latchesRewrite n true).groomed_grooms n.isLt col.toNat minor.toNat flips last
  have hself : groomReg R.GRM_SELF = 0 := rfl
  have hcfg : groomReg R.GRM_CFG = 0 := rfl
  have hsts (u : State) (c : Bool) : (if c = true then u else u.put F.GRM_STS_active 0).rd R.GRM_CFG = u.rd R.GRM_CFG ∧
      (if c = true then u else u.put F.GRM_STS_active 0).get F.GRM_SELF_latch = u.get F.GRM_SELF_latch := by
    cases c
    · exact ⟨State.rd_put_ne _ _ _ _ (by decide), State.get_put_apart _ _ rfl⟩
    · exact ⟨rfl, rfl⟩
  refine ⟨?_, ?_, State.Alters.logged hgrooms ?_⟩
  · rw [State.Alters.rd hgrooms hcfg, State.latchesRewrite, if_pos rfl, State.raise_rd _ _ _ rfl, State.sat, State.rd_put_ne _ _ _ _ (by decide), (hsts _ _).1,
      State.rd_wr_same]
  · rw [State.Alters.get_of_zero hgrooms hself, State.latchesRewrite, if_pos rfl, State.raise_getKept _ _ _ rfl, State.get_sat _ _ rfl, (hsts _ _).2,
      State.get_of_rd (State.rd_wr_ne _ _ _ _ (by decide))]
    rfl
  · rw [State.latchesRewrite, if_pos rfl]
    exact State.raise_logged _ _ _

/-- An outvoted copy is counted and named. -/
theorem completes_check_vote (latch : Bool) (c : Fin 3) : Completes (.groomerFrameCheck n col minor flips (some c) latch last) s (fun t => t.logged 0x0305 n ∧
    bitOf (t.get F.GRM_SELF_copies) c = true ∧ t.get F.GRM_SELF_vote = min (s.get F.GRM_SELF_vote + 1) 255) := by
  refine completes_check he ha hm hd (some c) latch ?_
  have hvote : (s.passBegin n false latch).get F.GRM_SELF_vote = s.get F.GRM_SELF_vote := s.passBegin_get n latch (by decide) (by decide) rfl rfl
  generalize s.passBegin n false latch = u at hvote
  have hgrooms := (u.groomVote n (some c)).groomed_grooms n.isLt col.toNat minor.toNat flips last
  have hself : groomReg R.GRM_SELF = 0 := rfl
  have hlt : setBit ((u.sat F.GRM_SELF_vote).get F.GRM_SELF_copies) c.val < 2 ^ 3 := setBit_lt (State.get_lt _ F.GRM_SELF_copies) c.isLt
  refine ⟨State.Alters.logged hgrooms (State.raise_logged _ _ _), ?_, ?_⟩
  · rw [State.Alters.get_of_zero hgrooms hself, State.groomVote, State.raise_getKept _ _ _ rfl,
      show u.get F.GRM_SELF_copies = (u.sat F.GRM_SELF_vote).get F.GRM_SELF_copies from (State.get_sat_apart u 1 rfl).symm, State.get_put_lt _ rfl hlt]
    exact bitOf_setBit _ _
  · rw [State.Alters.get_of_zero hgrooms hself, State.groomVote, State.raise_getKept _ _ _ rfl, State.get_put_apart _ _ rfl, State.get_sat _ _ rfl, hvote]
    rfl

section

variable (hmove : s.movingCol n ≠ some col.toNat)

include hmove

/-- A clean frame is left, and the pass that it may end is counted. -/
theorem completes_check_clean (hold : SMap.get (fun _ => 0) s.flt.bad (frameAddr n col.toNat minor.toNat) = 0)
    (hclean : SMap.get (fun _ => 0) s.flt.bad (frameAddr n col.toNat minor.toNat) ^^^ s.groomBits n col.toNat minor.toNat flips = 0) :
    Completes (.groomerFrameCheck n col minor flips none false last) s (fun t =>
      t.frame n col.toNat minor.toNat = s.frame n col.toNat minor.toNat ∧ t.log = s.log ∧
      t.get (F.GRM_RCYC_passes n) = if last && (s.frameChecked n col.toNat minor.toNat).passFull n
        then (s.get (F.GRM_RCYC_passes n) + 1) % 2 ^ 16 else s.get (F.GRM_RCYC_passes n)) := by
  refine completes_check_begins he ha hm hd fun u hu => ?_
  obtain ⟨bad, hcheck⟩ := State.groomCheck_clean (s := u) (n := n) (flips := flips) (by rw [hu.move]; exact hmove) col.isLt minor.isLt (by rw [hu.flt]; exact hold)
    (by rw [hu.flt, hu.bits]; exact hclean)
  have hpasses : u.get (F.GRM_RCYC_passes n) = s.get (F.GRM_RCYC_passes n) := by
    refine State.get_of_rd (hu.rd _ ?_ ?_)
    · simp only [F.GRM_RCYC_passes, R.GRM_RCYC, R.GRM_CFG]; omega
    · simp only [F.GRM_RCYC_passes, R.GRM_RCYC, R.GRM_STS]; omega
  have hchecked : (u.frameChecked n col.toNat minor.toNat).flt.checked = (s.frameChecked n col.toNat minor.toNat).flt.checked := by
    unfold State.frameChecked
    rw [hu.flt]
    rfl
  have hfull (x : Flt) (hx : x.checked = (s.frameChecked n col.toNat minor.toNat).flt.checked) :
      ((u.frameChecked n col.toNat minor.toNat).setFlt x).passFull n = (s.frameChecked n col.toNat minor.toNat).passFull n :=
    State.passFull_congr hu.move hx
  obtain ⟨x, hx, hcheck⟩ : ∃ x : Flt, x.checked = (u.frameChecked n col.toNat minor.toNat).flt.checked ∧
      u.groomCheck n col.toNat minor.toNat flips = (u.frameChecked n col.toNat minor.toNat).setFlt x :=
    ⟨{ (u.frameChecked n col.toNat minor.toNat).flt with bad := bad }, rfl, hcheck⟩
  rw [hcheck]
  obtain ⟨hfab, hlog, -, -, -⟩ := ((u.frameChecked n col.toNat minor.toNat).setFlt x).groomEnd_keeps n last
  refine ⟨?_, hlog.trans hu.log, ?_⟩
  · rw [State.frame, hfab, State.frame, ← hu.fab]
    rfl
  · rw [State.groomEnd_passes, hfull _ (hx.trans hchecked), State.setFlt_get,
      show (u.frameChecked n col.toNat minor.toNat).get (F.GRM_RCYC_passes n) = u.get (F.GRM_RCYC_passes n) from State.setFlt_get _ _ _, hpasses]

/-- One wrong bit is corrected and counted. -/
theorem completes_check_one (hone : oneBit (SMap.get (fun _ => 0) s.flt.bad (frameAddr n col.toNat minor.toNat) ^^^ s.groomBits n col.toNat minor.toNat flips).toNat = true) :
    Completes (.groomerFrameCheck n col minor flips none false last) s (fun t =>
      t.frame n col.toNat minor.toNat = s.frame n col.toNat minor.toNat ^^^ SMap.get (fun _ => 0) s.flt.bad (frameAddr n col.toNat minor.toNat) ∧
      SMap.get (fun _ => 0) t.flt.bad (frameAddr n col.toNat minor.toNat) = 0 ∧ t.get F.GRM_SBU_count = min (s.get F.GRM_SBU_count + 1) (2 ^ 24 - 1)) := by
  refine completes_check_begins he ha hm hd fun u hu => ?_
  have hcheck := State.groomCheck_one (s := u) (n := n) (c := col.toNat) (m := minor.toNat) (flips := flips) (by rw [hu.move]; exact hmove)
    (by rw [hu.flt, hu.bits]; exact hone)
  have hcount : u.get F.GRM_SBU_count = s.get F.GRM_SBU_count := State.get_of_rd (hu.rd _ (by decide) (by decide))
  have hframe : u.frame n col.toNat minor.toNat = s.frame n col.toNat minor.toNat := by rw [State.frame, State.frame, hu.fab]
  rw [hu.flt, hu.bits, hframe] at hcheck
  generalize s.frame n col.toNat minor.toNat ^^^ SMap.get (fun _ => 0) s.flt.bad (frameAddr n col.toNat minor.toNat) = x at hcheck ⊢
  generalize SMap.get (fun _ => 0) s.flt.bad (frameAddr n col.toNat minor.toNat) ^^^ s.groomBits n col.toNat minor.toNat flips = e at hcheck
  obtain ⟨hfab, hbad, hsbu⟩ := ((u.frameChecked n col.toNat minor.toNat).frameNew (frameAddr n col.toNat minor.toNat) x).sbu_spec n col.toNat minor.toNat e
  rw [← hcheck] at hfab hbad hsbu
  obtain ⟨hefab, -, hebad, -, heget⟩ := (u.groomCheck n col.toNat minor.toNat flips).groomEnd_keeps n last
  refine ⟨?_, by rw [hebad]; exact hbad, ?_⟩
  · rw [State.frame, hefab, hfab]
    exact State.frameNew_frame _ _ _ _ _
  · rw [heget _ (by simp only [F.GRM_SBU_count, R.GRM_SBU, R.GRM_RCYC]; omega), hsbu, State.frameNew_get, State.frameChecked, State.setFlt_get, hcount]

/-- An error that the code detects and cannot correct starts a repair. -/
theorem completes_check_sure (hone : oneBit (SMap.get (fun _ => 0) s.flt.bad (frameAddr n col.toNat minor.toNat) ^^^ s.groomBits n col.toNat minor.toNat flips).toNat = false)
    (hne : SMap.get (fun _ => 0) s.flt.bad (frameAddr n col.toNat minor.toNat) ^^^ s.groomBits n col.toNat minor.toNat flips ≠ 0)
    (hsure : sureDetect (SMap.get (fun _ => 0) s.flt.bad (frameAddr n col.toNat minor.toNat) ^^^ s.groomBits n col.toNat minor.toNat flips).toNat = true)
    (hfree : frameAddr n col.toNat minor.toNat ∉ s.flt.repairs) :
    Completes (.groomerFrameCheck n col minor flips none false last) s (fun t => t.flt.repairs = s.flt.repairs ++ [frameAddr n col.toNat minor.toNat] ∧
      SMap.get (fun _ => 0) t.flt.bad (frameAddr n col.toNat minor.toNat) =
        SMap.get (fun _ => 0) s.flt.bad (frameAddr n col.toNat minor.toNat) ^^^ s.groomBits n col.toNat minor.toNat flips ∧
      t.logged 0x0302 n ∧ t.get F.GRM_MBU_detected = min (s.get F.GRM_MBU_detected + 1) 255 ∧
      (s.get F.GRM_MBU_POS_valid = 0 → t.get F.GRM_MBU_POS_addr = frameAddr n col.toNat minor.toNat % 2 ^ 20 ∧ t.get F.GRM_MBU_POS_valid = 1)) := by
  refine completes_check_begins he ha hm hd fun u hu => ?_
  have hcheck := State.groomCheck_sure (s := u) (n := n) (c := col.toNat) (m := minor.toNat) (flips := flips) (by rw [hu.move]; exact hmove)
    (by rw [hu.flt, hu.bits]; exact hone) (by rw [hu.flt, hu.bits]; exact hne) (by rw [hu.flt, hu.bits]; exact hsure)
  rw [hu.flt, hu.bits] at hcheck
  generalize SMap.get (fun _ => 0) s.flt.bad (frameAddr n col.toNat minor.toNat) ^^^ s.groomBits n col.toNat minor.toNat flips = e at hcheck ⊢
  generalize hw : State.frameNew _ _ _ = w at hcheck
  have hflt : w.flt = { (u.frameChecked n col.toNat minor.toNat).flt with bad := SMap.set (fun _ => 0) s.flt.bad (frameAddr n col.toNat minor.toNat) e } := by
    rw [← hw, State.frameNew_flt]
    rfl
  have hrepairs : w.flt.repairs = s.flt.repairs := by
    rw [hflt, ← hu.flt]
    rfl
  have hget (f : RF) (hc : f.off ≠ R.GRM_CFG) (hs : f.off ≠ R.GRM_STS) : w.get f = s.get f := by
    rw [← hw, State.frameNew_get, State.setFlt_get, State.frameChecked, State.setFlt_get]
    exact State.get_of_rd (hu.rd _ hc hs)
  obtain ⟨hmflt, hmlog, hmdet, hmpos⟩ := w.mbu_spec (n := n) (a := frameAddr n col.toNat minor.toNat) (by rw [hrepairs]; exact hfree)
  rw [← hcheck] at hmflt hmlog hmdet hmpos
  obtain ⟨-, helog, hebad, herep, heget⟩ := (u.groomCheck n col.toNat minor.toNat flips).groomEnd_keeps n last
  have hmbu (lo wd : Nat) : ((u.groomCheck n col.toNat minor.toNat flips).groomEnd n last).get ⟨R.GRM_MBU, lo, wd⟩ = (u.groomCheck n col.toNat minor.toNat flips).get ⟨R.GRM_MBU, lo, wd⟩ :=
    heget _ (by simp only [R.GRM_MBU, R.GRM_RCYC]; omega)
  have hpos (lo wd : Nat) : ((u.groomCheck n col.toNat minor.toNat flips).groomEnd n last).get ⟨R.GRM_MBU_POS, lo, wd⟩ =
      (u.groomCheck n col.toNat minor.toNat flips).get ⟨R.GRM_MBU_POS, lo, wd⟩ := heget _ (by simp only [R.GRM_MBU_POS, R.GRM_RCYC]; omega)
  refine ⟨?_, ?_, ?_, ?_, fun h0 => ?_⟩
  · rw [herep, hmflt, ← hrepairs]
  · rw [hebad, hmflt, hflt]
    dsimp only
    rw [SMap.get_set_same]
  · unfold State.logged
    rw [helog]
    exact hmlog
  · exact (hmbu _ _).trans (hmdet.trans (by rw [hget _ (by decide) (by decide)]))
  · obtain ⟨h1, h2⟩ := hmpos ((hget _ (by decide) (by decide)).trans h0)
    exact ⟨(hpos _ _).trans h1, (hpos _ _).trans h2⟩

end

end

/-- A frame that is not due is not checked. -/
theorem completes_check_notDue (n : Fin 16) (col minor : BitVec 8) (flips : BitVec 4096) (out : Option (Fin 3)) (latch last : Bool) (s : State)
    (h : s.frameDue n col.toNat minor.toNat = false) : Completes (.groomerFrameCheck n col minor flips out latch last) s (fun t => t = s) := by
  refine ⟨s, ?_, rfl⟩
  show execGroomerFrameCheck n col minor flips out latch last s = _
  unfold execGroomerFrameCheck
  dsimp only
  rw [if_pos (by simp [h])]

/-! ### Repairs -/

theorem State.grmReact_holds (s : State) : s.Holds s.grmReact := .ite (fun _ => s.faultHold_holds) fun _ => .refl _ _ _

theorem State.faultHold_repairs (s : State) (h : s.ldr.regionLoad = none) : s.faultHold.flt.repairs = s.flt.repairs := by
  unfold State.faultHold
  split
  · next hrun =>
    by_cases hl : s.latched = true
    · rw [s.enterHold_latched hl]
    · have hmode : s.mode ≠ .cold ∧ s.mode ≠ .hold := by
        rcases Bool.or_eq_true _ _ ▸ hrun with hr | hm
        · exact ⟨(State.running_hot hr).1, (State.running_hot hr).2.2.2⟩
        · have hm : s.mode = .load := by simpa using hm
          rw [hm]
          decide
      exact (State.enterHold_spec hmode.1 (by simpa using hl) hmode.2 (by decide) false false).repairs h
  · rfl

theorem State.grmReact_none {s : State} (h : s.get F.GRM_CFG_reaction = 0) : s.grmReact = s := by
  unfold State.grmReact
  rw [State.on_of_zero h]
  exact if_neg (by decide)

theorem State.grmReact_hold {s : State} (h : s.get F.GRM_CFG_reaction = 1) (hr : s.running = true) : s.grmReact.mode = .hold ∧ s.grmReact.get F.SUP_MODE_hold_cause = 2 := by
  unfold State.grmReact
  rw [State.on_of_one h, if_pos rfl, State.running_faultHold hr]
  have hhold := State.running_enterHold hr (cause := 2) (by decide) false false
  exact ⟨hhold.mode, hhold.cause⟩

/-- The outcome of a repair stands beside the first position. -/
theorem State.repairOutcome_keeps (s : State) (a v : Nat) : (s.repairOutcome a v).flt = s.flt ∧ (s.repairOutcome a v).fab = s.fab ∧ (s.repairOutcome a v).log = s.log ∧
    (s.repairOutcome a v).mode = s.mode ∧ (s.repairOutcome a v).pwr = s.pwr ∧ (s.repairOutcome a v).ldr = s.ldr ∧
    ∀ f : RF, f.off ≠ R.GRM_MBU_POS → (s.repairOutcome a v).get f = s.get f := by
  unfold State.repairOutcome
  split
  · exact ⟨rfl, rfl, rfl, rfl, rfl, rfl, fun f hf => State.get_of_rd (State.rd_put_ne _ _ _ _ hf)⟩
  · exact ⟨rfl, rfl, rfl, rfl, rfl, rfl, fun _ _ => rfl⟩

theorem completes_mbuRepairDone (addr : BitVec 20) (s : State) (h : addr.toNat ∈ s.flt.repairs) :
    Completes (.mbuRepairDone addr) s (fun t =>
      ((s.repairFrame addr.toNat).isSome = true ∨ s.get F.GRM_CFG_reaction = 0 ∨ s.ldr.regionLoad = none →
        t.flt.repairs = s.flt.repairs.erase addr.toNat) ∧
      match s.repairFrame addr.toNat with
      | some f => SMap.get (fun _ => 0) t.fab.frames addr.toNat = f ∧ SMap.get (fun _ => 0) t.flt.bad addr.toNat = 0 ∧
          t.logged 0x0303 (addr.toNat / 65536) ∧ t.get F.GRM_MBU_repaired = min (s.get F.GRM_MBU_repaired + 1) 255 ∧ t.mode = s.mode
      | none => t.logged 0x0304 (addr.toNat / 65536) ∧ t.get F.GRM_MBU_unrepairable = min (s.get F.GRM_MBU_unrepairable + 1) 255 ∧
          (s.get F.GRM_CFG_reaction = 0 → t.mode = s.mode) ∧
          (s.get F.GRM_CFG_reaction = 1 → s.running = true → s.latched = false → t.mode = .hold ∧ t.get F.SUP_MODE_hold_cause = 2)) := by
  show ∃ t, execMbuRepairDone addr s = .next t ∧ _
  unfold execMbuRepairDone
  dsimp only
  rw [if_neg (by simpa using h)]
  cases hf : s.repairFrame addr.toNat with
  | some f =>
    refine ⟨_, rfl, ?_⟩
    generalize hx : ({ s.flt with repairs := s.flt.repairs.erase addr.toNat, bad := SMap.set (fun _ => 0) s.flt.bad addr.toNat 0 } : Flt) = x
    have hxr : x.repairs = s.flt.repairs.erase addr.toNat := by rw [← hx]
    have hxb : SMap.get (fun _ => 0) x.bad addr.toNat = 0 := by
      rw [← hx]
      dsimp only
      rw [SMap.get_set_same]
    obtain ⟨hflt, hfab, hlog, hmode, -, -, hget⟩ :=
      ((((s.setFlt x).frameNew addr.toNat f).sat F.GRM_MBU_repaired).raise 0x0303 (addr.toNat / 65536)).repairOutcome_keeps addr.toNat 1
    refine ⟨fun _ => ?_, ?_, ?_, ?_, ?_, ?_⟩
    · rw [hflt, State.raise_flt]
      exact (congrArg Flt.repairs (State.frameNew_flt _ _ _)).trans hxr
    · rw [hfab, State.raise_fab]
      exact (((s.setFlt x).frameNew_frames addr.toNat f).1 addr.toNat).trans (if_pos rfl)
    · rw [hflt, State.raise_flt]
      exact (congrArg (fun y : Flt => SMap.get (fun _ => 0) y.bad addr.toNat) (State.frameNew_flt (s.setFlt x) addr.toNat f)).trans hxb
    · unfold State.logged
      rw [hlog]
      exact State.raise_logged _ _ _
    · rw [hget _ (by decide), State.raise_getKept _ _ _ rfl, State.get_sat _ _ rfl, State.frameNew_get, State.setFlt_get]
      rfl
    · rw [hmode, State.raise_mode]
      exact State.frameNew_mode _ _ _
  | none =>
    refine ⟨_, rfl, ?_⟩
    unfold State.repairFail
    dsimp only
    generalize hx : ({ s.flt with repairs := s.flt.repairs.erase addr.toNat } : Flt) = x
    have hxr : x.repairs = s.flt.repairs.erase addr.toNat := by rw [← hx]
    obtain ⟨hflt, -, hlog, hmode, hpwr, hldr, hget⟩ :=
      (((s.setFlt x).sat F.GRM_MBU_unrepairable).raise 0x0304 (addr.toNat / 65536)).repairOutcome_keeps addr.toNat 2
    generalize hu : (((s.setFlt x).sat F.GRM_MBU_unrepairable).raise 0x0304 (addr.toNat / 65536)).repairOutcome addr.toNat 2 = u at hflt hlog hmode hpwr hldr hget
    have hurep : u.flt.repairs = s.flt.repairs.erase addr.toNat := by
      rw [hflt, State.raise_flt]
      exact hxr
    have hulog : u.logged 0x0304 (addr.toNat / 65536) := by
      unfold State.logged
      rw [hlog]
      exact State.raise_logged _ _ _
    have hucount : u.get F.GRM_MBU_unrepairable = min (s.get F.GRM_MBU_unrepairable + 1) 255 := by
      rw [hget _ (by decide), State.raise_getKept _ _ _ rfl, State.get_sat _ _ rfl, State.setFlt_get]
      rfl
    have hureact : u.get F.GRM_CFG_reaction = s.get F.GRM_CFG_reaction := by
      rw [hget _ (by decide), State.raise_getKept _ _ _ rfl, State.get_sat_apart _ _ rfl, State.setFlt_get]
    have humode : u.mode = s.mode := hmode.trans (State.raise_mode _ _ _)
    have hupwr : u.pwr = s.pwr := hpwr.trans (State.raise_pwr _ _ _)
    have huload : u.ldr = s.ldr := hldr.trans (State.raise_ldr _ _ _)
    refine ⟨fun hor => ?_, State.Alters.logged u.grmReact_holds hulog, ?_, fun h0 => ?_, fun h1 hr _ => State.grmReact_hold (hureact.trans h1) ?_⟩
    · rcases hor with h | h | h
      · simp at h
      · rw [State.grmReact_none (hureact.trans h)]
        exact hurep
      · unfold State.grmReact
        split
        · exact (u.faultHold_repairs (by rw [huload]; exact h)).trans hurep
        · exact hurep
    · rw [State.Holds.get u.grmReact_holds rfl, hucount]
    · rw [State.grmReact_none (hureact.trans h0)]
      exact humode
    · exact (State.running_congr humode (congrArg Pwr.holdLatch hupwr)).trans hr

/-! ### A pass that takes too long -/

theorem completes_scrubOverrun (n : Fin 16) (s : State) (he : s.get F.GRM_CFG_enable = 1) (ha : bitOf (s.get F.GRM_STS_active) n = true)
    (hlate : 2000 * clamp 4 8 (s.get F.GRM_CFG_period) < s.time - SMap.get (fun _ => 0) s.flt.passStart n) :
    Completes (.scrubOverrun n) s (fun t => bitOf (t.get F.GRM_STS_overrun) n = true ∧ t.logged 0x0306 n ∧ (s.get F.GRM_CFG_reaction = 0 → t.mode = s.mode)) := by
  have hlt : setBit (s.get F.GRM_STS_overrun) n < 2 ^ 16 := setBit_lt (State.get_lt s F.GRM_STS_overrun) n.isLt
  have hmask : holdReg R.GRM_STS &&& F.GRM_STS_overrun.mask = 0 := by decide
  show ∃ t, execScrubOverrun n s = .next t ∧ _
  unfold execScrubOverrun
  dsimp only
  rw [if_neg (by simp [State.on_of_one he, ha]; omega)]
  generalize hu : (s.put F.GRM_STS_overrun (setBit (s.get F.GRM_STS_overrun) n)).raise 0x0306 n = u
  have hbit : u.get F.GRM_STS_overrun = setBit (s.get F.GRM_STS_overrun) n := by rw [← hu, State.raise_getKept _ _ _ rfl, State.get_put_lt _ rfl hlt]
  have hreact : u.get F.GRM_CFG_reaction = s.get F.GRM_CFG_reaction := by rw [← hu, State.raise_getKept _ _ _ rfl, State.get_put_apart _ _ rfl]
  refine ⟨_, rfl, ?_, State.Alters.logged u.grmReact_holds ?_, fun h0 => ?_⟩
  · rw [State.Alters.get u.grmReact_holds hmask, hbit]
    exact bitOf_setBit _ _
  · rw [← hu]
    exact State.raise_logged _ _ _
  · rw [State.grmReact_none (hreact.trans h0), ← hu]
    exact State.raise_mode _ _ _

/-- Settles O43: the Groomer leaves, corrects or repairs a frame as its error is, and tells a pass that takes too long. -/
theorem theGroomerCorrectsDetectsAndRepairs : Obligations.TheGroomerCorrectsDetectsAndRepairs := by
  unfold Obligations.TheGroomerCorrectsDetectsAndRepairs
  refine ⟨fun n col minor flips latch last s he ha hm hmove hd => ⟨?_, ?_, ?_, ?_, ?_⟩, completes_check_notDue, completes_mbuRepairDone, completes_scrubOverrun⟩
  · exact completes_check_clean he ha hm hd hmove
  · exact completes_check_latch he ha hm hd
  · exact completes_check_one he ha hm hd hmove
  · exact completes_check_sure he ha hm hd hmove
  · exact completes_check_vote he ha hm hd latch

end Sys2Proof.Machine

end

section

/-! PROOFS. The link and the resets of the host interface (R312, R323, R396). -/

namespace Sys2Proof.Machine

theorem SMap.find_keep {α : Type} (m : SMap α) (p : Nat → Bool) (k : Nat) : SMap.find (SMap.keep m p) k = if p k then SMap.find m k else none := by
  induction m with
  | nil => cases p k <;> rfl
  | cons e m ih =>
    obtain ⟨j, v⟩ := e
    unfold SMap.keep at ih ⊢
    by_cases hj : j = k
    · subst hj
      cases hp : p j
      · rw [List.filter_cons_of_neg (by simp [hp]), ih, hp]
        rfl
      · rw [List.filter_cons_of_pos (by simp [hp]), if_pos rfl, SMap.find, SMap.find, if_pos rfl, if_pos rfl]
    · have hfind (l : SMap α) : SMap.find ((j, v) :: l) k = SMap.find l k := if_neg hj
      rw [hfind]
      cases hp : p j
      · rw [List.filter_cons_of_neg (by simp [hp]), ih]
      · rw [List.filter_cons_of_pos (by simp [hp]), hfind, ih]

theorem SMap.get_keep {α : Type} (d : Nat → α) (m : SMap α) (p : Nat → Bool) (k : Nat) : SMap.get d (SMap.keep m p) k = if p k then SMap.get d m k else d k := by
  rw [SMap.get, SMap.find_keep, SMap.get]
  cases p k <;> rfl

/-! ### What happens without a host behind -/

/-- The registers that change at most where Bus Master Enable is 0: not those of the rings and not HIF_STS. -/
def quietReg (off : Nat) : Word := if off = R.HIF_STS ∨ (0x21000 ≤ off ∧ off < 0x30000) then 0 else BitVec.allOnes 32

/-- What is kept beside. -/
def State.linkSide (s : State) : Mode × Bool × SMap Ring × List AdminCmd × Link × Loader := (s.mode, s.hif.bme, s.hif.rings, s.hif.accepted, s.hif.link, s.ldr)

abbrev State.Quiets (s t : State) : Prop := s.Alters quietReg State.linkSide t

theorem quietReg_beyond {off : Nat} (h : 0x30000 ≤ off) : quietReg off = BitVec.allOnes 32 := if_neg (by simp only [R.HIF_STS]; omega)

theorem State.Quiets.bme {s t : State} (h : s.Quiets t) : t.hif.bme = s.hif.bme := congrArg (fun x => x.2.1) h.part

theorem State.Quiets.rings {s t : State} (h : s.Quiets t) : t.hif.rings = s.hif.rings := congrArg (fun x => x.2.2.1) h.part

theorem queueFrame_quiets : QueueFrame quietReg State.linkSide :=
  ⟨fun _ h _ => quietReg_beyond (by omega), fun _ _ _ => rfl, fun _ _ _ => rfl, fun _ _ => rfl⟩

/-- Without Bus Master Enable an event finds no room in its ring. -/
theorem State.eventRing_quiets (s : State) (hb : s.hif.bme = false) (id param : Nat) (remote : Bool) (origin : Nat) : s.Quiets (s.eventRing id param remote origin) := by
  have hlost (u : State) (v : Nat) : u.Quiets (u.put F.HIF_EVT_LOST_count v) := .put v (by decide) rfl
  have hhif (u : State) (x : BitVec 32) : u.Quiets { u with hif := { u.hif with evtLost := x } } := .of_same rfl rfl rfl
  have hfree : s.ringFree 2 = false := by rw [State.ringFree, hb]; rfl
  unfold State.eventRing
  rw [hfree]
  exact .ite (fun _ => .refl _ _ _) fun _ => (hlost s _).trans (hhif _ _)

theorem State.raise_quiets (s : State) (hb : s.hif.bme = false) (id param : Nat) : s.Quiets (s.raise id param) := by
  have hlog (u : State) (e : LogKind) : u.Quiets (u.logAdd e) := ⟨fun _ _ _ => rfl, ⟨_, rfl⟩, rfl⟩
  have hprint (u : State) (ls : List ConOut) : u.Quiets (u.print ls) := by
    unfold State.print
    exact .ite (fun _ => .refl _ _ _) fun _ => .of_same rfl rfl rfl
  have hpel (u : State) (p : Pel) : u.Quiets { u with pel := p } := .of_same rfl rfl rfl
  unfold State.raise
  extract_lets a b _ c
  have hb' : s.Quiets b := (hlog s _).trans (.ite (fun _ => hprint a _) fun _ => .refl _ _ _)
  have hc : b.Quiets c := .ite (fun _ => hpel b _) fun _ => .refl _ _ _
  have hall : s.Quiets c := hb'.trans hc
  exact hall.trans (c.eventRing_quiets (hall.bme.trans hb) id param false c.origin)

theorem State.raiseFree_quiets (s : State) (hb : s.hif.bme = false) (id : Nat) : s.Quiets (s.raiseFree id) := by
  have hdraw : s.Quiets s.draw.2 := .of_same rfl rfl rfl
  exact hdraw.trans (State.raise_quiets s.draw.2 hb id _)

/-- A ring that owns no slot has no buffer to break off. -/
theorem State.ringBroken_empty {s : State} (hr : s.hif.rings = []) (q : Nat) : s.ringBroken q = s := by
  have hnone (n : Nat) : (s.ring n).owned = [] := by
    rw [State.ring, hr]
    rfl
  unfold State.ringBroken
  split
  · rfl
  · next n _ =>
    rw [hnone]

theorem State.xqSideReset_quiets (s : State) (hb : s.hif.bme = false) (hr : s.hif.rings = []) {q : Nat} (hq : q < 64) (writer : Bool) : s.Quiets (s.xqSideReset q writer) := by
  have hdone := queueFrame_quiets.sideDone s hq writer
  rw [State.xqSideReset_eq]
  generalize State.put _ (F.XQ_STS_far_reset q) 1 = u at hdone ⊢
  have hall : s.Quiets (u.raiseFree 0x0706) := hdone.trans (u.raiseFree_quiets ((State.Quiets.bme hdone).trans hb) _)
  rw [State.ringBroken_empty (hall.rings.trans hr)]
  exact hall

theorem State.hostSides_quiets (s : State) (hb : s.hif.bme = false) (hr : s.hif.rings = []) : s.Quiets s.hostSides := by
  unfold State.hostSides
  have hmem : ∀ q ∈ List.range 64, q < 64 := fun q hq => List.mem_range.mp hq
  revert hmem s
  generalize List.range 64 = l
  induction l with
  | nil => exact fun s _ _ _ => .refl _ _ _
  | cons q l ih =>
    intro s hb hr hmem
    have hq := hmem q List.mem_cons_self
    have hstep : s.Quiets (match s.xqBound q with
        | some (1, _, _) => (s.xqSideReset q (decide (q < 32))).xqSideEnd q (decide (q < 32))
        | _ => s) := by
      split
      · exact (s.xqSideReset_quiets hb hr hq _).trans (queueFrame_quiets.setXq _ q _)
      · exact .refl _ _ _
    rw [List.foldl_cons]
    exact hstep.trans (ih _ ((State.Quiets.bme hstep).trans hb) ((State.Quiets.rings hstep).trans hr) fun q hq => hmem q (List.mem_cons_of_mem _ hq))

/-! ### The reset of the host interface -/

theorem State.hifReset_sts (s : State) (down : Bool) (off : Nat) (h : within 0x20000 0x30000 off = true) (hne : off ≠ R.HIF_STS) :
    (s.hifReset down).rd off = regReset off := by
  unfold State.hifReset
  dsimp only
  rw [State.rd_put_ne _ _ _ _ hne, State.rd_wr_ne _ _ _ _ hne]
  show SMap.get regReset (SMap.keep s.regs (fun o => ! within 0x20000 0x30000 o)) off = _
  rw [SMap.get_keep, h]
  rfl

theorem State.hifReset_generation (s : State) (down : Bool) : (s.hifReset down).get F.HIF_STS_generation = (s.get F.HIF_STS_generation + 1) % 256 := by
  unfold State.hifReset
  dsimp only
  rw [State.get_put_self _ _ rfl]
  rfl

/-- The fields of the link stay. -/
theorem State.hifReset_link (s : State) (down : Bool) {f : RF} (ho : f.off = R.HIF_STS) (hw : f.whole = true) (hlow : f.lo + f.w ≤ 8) : (s.hifReset down).get f = s.get f := by
  have hapart : F.HIF_STS_generation.apart f = true := by
    have h8 : (F.HIF_STS_generation.whole && f.whole && (decide (F.HIF_STS_generation.lo + F.HIF_STS_generation.w ≤ f.lo) || decide (f.lo + f.w ≤ F.HIF_STS_generation.lo))) = true := by
      rw [hw, decide_eq_true (show f.lo + f.w ≤ F.HIF_STS_generation.lo from hlow), Bool.or_true]
      rfl
    rw [RF.apart, Bool.or_eq_true]
    exact Or.inl h8
  have hmask (w : Word) : (w &&& 0xFF).toNat >>> f.lo % 2 ^ f.w = w.toNat >>> f.lo % 2 ^ f.w := by
    refine Nat.eq_of_testBit_eq fun i => ?_
    rw [Nat.testBit_mod_two_pow, Nat.testBit_mod_two_pow, Nat.testBit_shiftRight, Nat.testBit_shiftRight]
    by_cases hi : i < f.w
    · have hff : (0xFF : Word).getLsbD (f.lo + i) = true := by
        have hall : ∀ j < 8, (0xFF : Word).getLsbD j = true := by decide
        exact hall _ (by omega)
      rw [← BitVec.getLsbD, BitVec.getLsbD_and, hff, Bool.and_true, BitVec.getLsbD]
    · simp [hi]
  unfold State.hifReset
  dsimp only
  rw [State.get_put_apart _ _ hapart, State.get, ho, State.rd_wr_same, hmask, State.get, ho]

/-- What the reset of the host-interface domain leaves where no load goes on. -/
structure State.HostResets (down : Bool) (param : Nat) (s t : State) : Prop where
  mode : t.mode = s.mode
  link : t.hif.link = if down then .down else s.hif.link
  accepted : t.hif.accepted.length = s.hif.accepted.length
  logged : t.logged 0x0122 param
  generation : t.get F.HIF_STS_generation = (s.get F.HIF_STS_generation + 1) % 256
  sts : ∀ f : RF, f.off = R.HIF_STS → f.whole = true → f.lo + f.w ≤ 8 → t.get f = s.get f
  rings : ∀ off, 0x21000 ≤ off → off < 0x30000 → t.rd off = regReset off

theorem State.hostReset_spec {s : State} (hload : s.ldr.load = none) (hregion : s.ldr.regionLoad = none) (param : Nat) :
    State.HostResets (param == 1) param s (s.hostReset param) := by
  have hbme : (s.hifReset (param == 1)).hif.bme = false := rfl
  have hrings : (s.hifReset (param == 1)).hif.rings = [] := rfl
  have hl : (s.hifReset (param == 1)).ldr.load = none := by
    show s.ldr.load.map _ = none
    rw [hload]
    rfl
  have hr : (s.hifReset (param == 1)).ldr.regionLoad = none := by
    show s.ldr.regionLoad.map _ = none
    rw [hregion]
    rfl
  have hsides := (s.hifReset (param == 1)).hostSides_quiets hbme hrings
  have hall : (s.hifReset (param == 1)).Quiets ((s.hifReset (param == 1)).hostSides.raise 0x0122 param) :=
    hsides.trans (State.raise_quiets _ ((State.Quiets.bme hsides).trans hbme) _ _)
  have hlogged : ((s.hifReset (param == 1)).hostSides.raise 0x0122 param).logged 0x0122 param := State.raise_logged _ _ _
  have hreset : s.hostReset param = (s.hifReset (param == 1)).hostSides.raise 0x0122 param := by
    have hldr := congrArg (fun x => x.2.2.2.2.2) hall.part
    have h1 : ((s.hifReset (param == 1)).hostSides.raise 0x0122 param).ldr.load = none := (congrArg Loader.load hldr).trans hl
    have h2 : ((s.hifReset (param == 1)).hostSides.raise 0x0122 param).ldr.regionLoad = none := (congrArg Loader.regionLoad hldr).trans hr
    unfold State.hostReset
    dsimp only
    rw [h1, h2]
  rw [hreset]
  generalize (s.hifReset (param == 1)).hostSides.raise 0x0122 param = t at *
  have hsts : quietReg R.HIF_STS = 0 := rfl
  refine ⟨congrArg (fun x => x.1) hall.part, congrArg (fun x => x.2.2.2.2.1) hall.part, ?_, hlogged, ?_, fun f ho hw hlow => ?_, fun off h h' => ?_⟩
  · have hacc := congrArg (fun x => x.2.2.2.1) hall.part
    exact (congrArg List.length hacc).trans (List.length_map _)
  · exact (State.Alters.get_of_zero hall hsts).trans (s.hifReset_generation _)
  · exact (State.Alters.get_of_zero hall (by rw [ho]; rfl)).trans (s.hifReset_link _ ho hw hlow)
  · have hz : quietReg off = 0 := if_pos (Or.inr ⟨h, h'⟩)
    refine (State.Alters.rd hall hz).trans (s.hifReset_sts _ off ?_ (by simp only [R.HIF_STS]; omega))
    simp only [within, Bool.and_eq_true, decide_eq_true_eq]
    omega

/-! ### The lanes of the link -/

section

variable (s : State)

theorem State.putBeyond_quiets {f : RF} (v : Nat) (h : 0x30000 ≤ f.off) : s.Quiets (s.put f v) := .put v (by rw [quietReg_beyond h, and_not_allOnes]) rfl

theorem State.setLane_quiets (n : Nat) (x : Lane) : s.Quiets (s.setLane n x) := .of_same rfl rfl rfl

theorem State.scanAbort_quiets (n : Nat) : s.Quiets (s.scanAbort n) := by
  have hscan (u : State) (lo w v : Nat) : u.Quiets (u.put ⟨R.LANE_ES_CTL n, lo, w⟩ v) := u.putBeyond_quiets v (Nat.le_add_right_of_le (by decide))
  exact .trans (.ite (fun _ => s.setLane_quiets n _) fun _ => .refl _ _ _) (.ite (fun _ => (hscan _ _ _ _).trans (hscan _ _ _ _)) fun _ => .refl _ _ _)

theorem State.scanAbort_hif (n : Nat) : (s.scanAbort n).hif = s.hif := by
  unfold State.scanAbort
  dsimp only
  split <;> split <;> rfl

theorem State.grpSync_quiets (g : Nat) : s.Quiets (s.grpSync g) := by
  have hput (u : State) (lo w v : Nat) : u.Quiets (u.put ⟨R.GRP_STS g, lo, w⟩ v) := u.putBeyond_quiets v (Nat.le_add_right_of_le (by decide))
  exact ((hput _ _ _ _).trans (hput _ _ _ _)).trans (hput _ _ _ _)

theorem State.pcieLanes_quiets (ready : List Nat) : s.Quiets (s.pcieLanes ready) := by
  have hsts (u : State) (n v : Nat) : u.Quiets (u.put (F.LANE_STS_state n) v) := u.putBeyond_quiets v (Nat.le_add_right_of_le (by decide))
  exact .trans (.foldl (fun u n _ => .ite (fun _ => .refl _ _ _) fun _ => (u.scanAbort_quiets n).trans (hsts _ n _)) s) (.foldl (fun u g _ => u.grpSync_quiets g) _)

theorem State.pcieLanes_hif (ready : List Nat) : (s.pcieLanes ready).hif = s.hif := by
  have hsync (u : State) : ((List.range 2).foldl (fun s g => s.grpSync g) u).hif = u.hif := by
    refine foldl_kept State.hif (fun v g _ => ?_) u
    rfl
  have hlane (u : State) (n st : Nat) : (if u.laneState n = st then u else (u.scanAbort n).put (F.LANE_STS_state n) st).hif = u.hif := by
    split
    · rfl
    · exact (State.put_hif _ _ _).trans (State.scanAbort_hif u n)
  exact (hsync _).trans (foldl_kept State.hif (fun u n _ => hlane u n _) s)

end

theorem State.Quiets.sts {s t : State} (h : s.Quiets t) (lo w : Nat) : t.get ⟨R.HIF_STS, lo, w⟩ = s.get ⟨R.HIF_STS, lo, w⟩ := State.Alters.get_of_zero h rfl

/-- The state in which the link has trained, but for what HIF_STS shows. -/
def State.linkTrained (s : State) (link : List Nat) (reversed : Bool) (inv : BitVec 8) : State :=
  let phys (i : Nat) : Nat := s.lanePhys (i / 4) (i % 4)
  let s := s.pcieLanes (link.map phys)
  let s := link.foldl (fun s i =>
    (s.putB (F.LANE_STS_pol_inv (phys i)) (inv.getLsbD i)).setLane (phys i) { s.laneL (phys i) with heldFail := false }) s
  let s := (List.range 2).foldl (fun s g => (s.putB (F.GRP_STS_reversed g) reversed).put (F.GRP_STS_pll_lock g) 1) s
  s.setHif { s.hif with link := .l0 }

theorem State.linkTrained_hif (s : State) (link : List Nat) (reversed : Bool) (inv : BitVec 8) : (s.linkTrained link reversed inv).hif = { s.hif with link := .l0 } := by
  unfold State.linkTrained
  extract_lets phys a b c
  have hb : b.hif = a.hif := by
    refine foldl_kept State.hif (fun u i _ => ?_) a
    rfl
  have hc : c.hif = b.hif := by
    refine foldl_kept State.hif (fun u g _ => ?_) b
    rfl
  have hall : c.hif = s.hif := hc.trans (hb.trans (s.pcieLanes_hif _))
  exact congrArg (fun h : Hif => { h with link := .l0 }) hall

theorem completes_pcieLinkUp (speed width : Fin 4) (s : State) (hm : s.mode ≠ .cold) (h3 : s.unitOk 3 = true) (reversed : Bool) (inv : BitVec 8)
    (hall : ∀ i ∈ linkLanes reversed (2 ^ width.val), i % 4 ∈ s.inService (i / 4)) :
    Completes (.pcieLinkUp speed width reversed inv) s (fun t => t.get F.HIF_STS_link_up = 1 ∧ t.get F.HIF_STS_speed = speed.val + 1 ∧
      t.get F.HIF_STS_width = 2 ^ width.val ∧ t.hif = { s.hif with link := .l0 }) := by
  have hlanes : (linkLanes reversed (2 ^ width.val)).all (fun i => (s.inService (i / 4)).contains (i % 4)) = true := by
    rw [List.all_eq_true]
    exact fun i hi => List.contains_iff_mem.mpr (hall i hi)
  have hexec : exec (.pcieLinkUp speed width reversed inv) s = .next ((((s.linkTrained (linkLanes reversed (2 ^ width.val)) reversed inv).put F.HIF_STS_link_up 1).put
      F.HIF_STS_speed (speed.val + 1)).put F.HIF_STS_width (2 ^ width.val)) := by
    show execPcieLinkUp speed width s reversed inv = _
    unfold execPcieLinkUp
    dsimp only
    rw [hlanes, if_neg (by simp [hm, h3])]
    rfl
  have hspeed : speed.val + 1 < 2 ^ 3 := by omega
  have hwidth : 2 ^ width.val < 2 ^ 4 := Nat.pow_lt_pow_right (by decide) width.isLt
  have hhif := s.linkTrained_hif (linkLanes reversed (2 ^ width.val)) reversed inv
  generalize s.linkTrained (linkLanes reversed (2 ^ width.val)) reversed inv = u at hexec hhif
  refine ⟨_, hexec, ?_, ?_, ?_, hhif⟩
  · rw [State.get_put_apart _ _ rfl, State.get_put_apart _ _ rfl, State.get_put_lit _ rfl]
  · rw [State.get_put_apart _ _ rfl, State.get_put_lt _ rfl hspeed]
  · rw [State.get_put_lt _ rfl hwidth]

theorem completes_pcieLinkUp_refused (speed width : Fin 4) (s : State) (reversed : Bool) (inv : BitVec 8)
    (hout : ∃ i ∈ linkLanes reversed (2 ^ width.val), i % 4 ∉ s.inService (i / 4)) : Completes (.pcieLinkUp speed width reversed inv) s (fun t => t = s) := by
  obtain ⟨i, hi, hno⟩ := hout
  have hlanes : (linkLanes reversed (2 ^ width.val)).all (fun i => (s.inService (i / 4)).contains (i % 4)) = false := by
    rw [List.all_eq_false]
    exact ⟨i, hi, by rw [List.contains_iff_mem]; exact hno⟩
  refine ⟨s, ?_, rfl⟩
  show execPcieLinkUp speed width s reversed inv = _
  unfold execPcieLinkUp
  dsimp only
  rw [hlanes, if_pos (by simp)]

theorem completes_linkDown (s : State) (hup : s.hif.link ≠ .down) (hload : s.ldr.load = none) (hregion : s.ldr.regionLoad = none) :
    Completes .linkDown s (fun t => t.hif.link = .down ∧ t.get F.HIF_STS_link_up = 0 ∧ t.get F.HIF_STS_width = 0 ∧ t.mode = s.mode ∧ t.logged 0x0122 1 ∧
      t.get F.HIF_STS_generation = (s.get F.HIF_STS_generation + 1) % 256 ∧
      (∀ n : Fin 96, t.rd (R.HIF_RING_CFG n) = regReset (R.HIF_RING_CFG n) ∧ t.rd (R.HIF_RING_STS n) = regReset (R.HIF_RING_STS n))) := by
  generalize hu : ((s.put F.HIF_STS_link_up 0).put F.HIF_STS_speed 0).put F.HIF_STS_width 0 = u
  have hup0 : u.get F.HIF_STS_link_up = 0 := by rw [← hu, State.get_put_apart _ _ rfl, State.get_put_apart _ _ rfl, State.get_put_lit _ rfl]
  have hwidth : u.get F.HIF_STS_width = 0 := by rw [← hu, State.get_put_lit _ rfl]
  have hgen : u.get F.HIF_STS_generation = s.get F.HIF_STS_generation := by
    rw [← hu, State.get_put_apart _ _ rfl, State.get_put_apart _ _ rfl, State.get_put_apart _ _ rfl]
  have hmode : u.mode = s.mode := by rw [← hu]; rfl
  have hldr : u.ldr = s.ldr := by rw [← hu]; rfl
  have hq := u.pcieLanes_quiets []
  have hexec : exec .linkDown s = .next ((u.pcieLanes []).hostReset 1) := by
    rw [← hu]
    exact if_neg hup
  generalize u.pcieLanes [] = v at hq hexec
  have hvldr : v.ldr = s.ldr := (congrArg (fun x => x.2.2.2.2.2) hq.part).trans hldr
  have hr := State.hostReset_spec (s := v) (by rw [hvldr]; exact hload) (by rw [hvldr]; exact hregion) 1
  generalize v.hostReset 1 = t at hexec hr
  refine ⟨t, hexec, hr.link, ?_, ?_, ?_, hr.logged, ?_, fun n => ⟨hr.rings _ ?_ ?_, hr.rings _ ?_ ?_⟩⟩
  · exact (hr.sts F.HIF_STS_link_up rfl rfl (by decide)).trans ((State.Quiets.sts hq _ _).trans hup0)
  · exact (hr.sts F.HIF_STS_width rfl rfl (by decide)).trans ((State.Quiets.sts hq _ _).trans hwidth)
  · exact hr.mode.trans ((congrArg (fun x => x.1) hq.part).trans hmode)
  · rw [hr.generation, show v.get F.HIF_STS_generation = u.get F.HIF_STS_generation from State.Quiets.sts hq _ _, hgen]
  all_goals
    simp only [R.HIF_RING_CFG, R.HIF_RING_STS]
    omega

theorem completes_functionLevelReset (s : State) (hm : s.mode ≠ .cold) (hload : s.ldr.load = none) (hregion : s.ldr.regionLoad = none) :
    Completes .functionLevelReset s (fun t => t.mode = s.mode ∧ t.logged 0x0122 0 ∧ t.get F.HIF_STS_link_up = s.get F.HIF_STS_link_up ∧
      t.get F.HIF_STS_generation = (s.get F.HIF_STS_generation + 1) % 256 ∧ t.hif.accepted.length = s.hif.accepted.length ∧
      (∀ n : Fin 96, t.rd (R.HIF_RING_CFG n) = regReset (R.HIF_RING_CFG n) ∧ t.rd (R.HIF_RING_STS n) = regReset (R.HIF_RING_STS n))) := by
  have hr := State.hostReset_spec hload hregion 0
  refine ⟨s.hostReset 0, congrArg Host.Outcome.next (if_neg hm), hr.mode, hr.logged, hr.sts F.HIF_STS_link_up rfl rfl (by decide), hr.generation, hr.accepted,
    fun n => ⟨hr.rings _ ?_ ?_, hr.rings _ ?_ ?_⟩⟩
  all_goals
    simp only [R.HIF_RING_CFG, R.HIF_RING_STS]
    omega

/-- Settles O39: the link comes up over lanes in service, and its loss and a reset return the rings to their reset values. -/
theorem theLinkComesUpGoesDownAndResets : Obligations.TheLinkComesUpGoesDownAndResets := by
  unfold Obligations.TheLinkComesUpGoesDownAndResets
  exact ⟨fun speed width s hm h3 reversed inv => ⟨completes_pcieLinkUp speed width s hm h3 reversed inv, completes_pcieLinkUp_refused speed width s reversed inv⟩,
    completes_linkDown, completes_functionLevelReset⟩

end Sys2Proof.Machine

end

section
/-! SUPPORT. The console (R479 to R484): what it prints while it runs, an answer ERR, and a valid line at the prompt. -/

namespace Sys2Proof.Machine

variable {s t : State}

theorem State.conLive_iff (s : State) : s.conLive = true ↔ s.mode ≠ .cold ∧ s.latched = false := by
  unfold State.conLive
  simp

theorem State.print_eq (h : s.conLive = true) (ls : List ConOut) : s.print ls = s.setCon { s.con with out := s.con.out ++ ls } := by
  obtain ⟨hmode, hlatched⟩ := s.conLive_iff.mp h
  exact if_neg (by simp [hmode, hlatched])

/-- A state without its registers and the record of the console. -/
def State.sansLine (s : State) : State := { s with regs := [], con := {} }

/-- What a line of the console leaves: everything but its own record and the register SUP_SVC_STS. -/
structure State.Prompts (s t : State) : Prop where
  rest : t.sansLine = s.sansLine
  rd : ∀ off, R.SUP_SVC_STS ≠ off → t.rd off = s.rd off

theorem State.Prompts.refl (s : State) : s.Prompts s := ⟨rfl, fun _ _ => rfl⟩

theorem State.Prompts.trans {u : State} (h : s.Prompts t) (h' : t.Prompts u) : s.Prompts u :=
  ⟨h'.rest.trans h.rest, fun o ho => (h'.rd o ho).trans (h.rd o ho)⟩

/-- What does not look at the registers or the console's record is the same. -/
theorem State.Prompts.view {α : Type} (h : s.Prompts t) (g : State → α) (hg : ∀ u : State, g u.sansLine = g u) : g t = g s :=
  (hg t).symm.trans ((congrArg g h.rest).trans (hg s))

section
variable (h : s.Prompts t)
include h

theorem State.Prompts.mode : t.mode = s.mode := h.view State.mode fun _ => rfl
theorem State.Prompts.latched : t.latched = s.latched := h.view State.latched fun _ => rfl
theorem State.Prompts.fuses : t.fuses = s.fuses := h.view State.fuses fun _ => rfl
theorem State.Prompts.fab : t.fab = s.fab := h.view State.fab fun _ => rfl
theorem State.Prompts.flt : t.flt = s.flt := h.view State.flt fun _ => rfl
theorem State.Prompts.hif : t.hif = s.hif := h.view State.hif fun _ => rfl
theorem State.Prompts.ldr : t.ldr = s.ldr := h.view State.ldr fun _ => rfl
theorem State.Prompts.pins : t.pins = s.pins := h.view State.pins fun _ => rfl
theorem State.Prompts.log : t.log = s.log := h.view State.log fun _ => rfl
theorem State.Prompts.get (f : RF) (hf : R.SUP_SVC_STS ≠ f.off) : t.get f = s.get f := State.get_of_rd (h.rd f.off hf)
theorem State.Prompts.on (f : RF) (hf : R.SUP_SVC_STS ≠ f.off) : t.on f = s.on f := by rw [State.on, h.get f hf, State.on]

theorem State.Prompts.time : t.time = s.time := by
  unfold State.time
  rw [h.rd _ (by decide), h.rd _ (by decide)]

end

theorem State.Prompts.conLive (h : s.Prompts t) : t.conLive = s.conLive := by
  unfold State.conLive
  rw [h.mode, h.latched]

theorem State.Prompts.live (h : s.Prompts t) (hlive : s.conLive = true) : t.conLive = true := h.conLive.trans hlive

theorem State.setCon_prompts (s : State) (c : Console) : s.Prompts (s.setCon c) := ⟨rfl, fun _ _ => rfl⟩

theorem State.put_prompts (s : State) {f : RF} (v : Nat) (h : f.off = R.SUP_SVC_STS) : s.Prompts (s.put f v) :=
  ⟨rfl, fun off hoff => State.rd_put_ne s f v off (h ▸ hoff.symm)⟩

theorem State.sat_prompts (s : State) {f : RF} (h : f.off = R.SUP_SVC_STS) : s.Prompts (s.sat f) := s.put_prompts _ h

theorem State.print_prompts (s : State) (ls : List ConOut) : s.Prompts (s.print ls) := by
  unfold State.print
  split
  · exact .refl s
  · exact s.setCon_prompts _

theorem State.print_con (h : s.conLive = true) (ls : List ConOut) : (s.print ls).con = { s.con with out := s.con.out ++ ls } :=
  congrArg State.con (State.print_eq h ls)

theorem State.conErr_prompts (s : State) (code : Nat) : s.Prompts (s.conErr code) := by
  unfold State.conErr
  extract_lets u
  have hu : s.Prompts u := by
    unfold u
    split
    · exact s.sat_prompts rfl
    · split
      · exact s.sat_prompts rfl
      · exact .refl s
  exact hu.trans (u.print_prompts _)

/-- ERR is counted in SUP_SVC_STS before it is printed. -/
theorem State.conErr_con (h : s.conLive = true) (code : Nat) : (s.conErr code).con = { s.con with out := s.con.out ++ [.err code] } := by
  unfold State.conErr
  extract_lets u
  have hu : s.Prompts u ∧ u.con = s.con := by
    unfold u
    split
    · exact ⟨s.sat_prompts rfl, rfl⟩
    · split
      · exact ⟨s.sat_prompts rfl, rfl⟩
      · exact ⟨.refl s, rfl⟩
  rw [State.print_con (hu.1.live h), hu.2]

theorem State.conCancel_prompts (s : State) : s.Prompts s.conCancel := (s.setCon_prompts _).trans (State.conErr_prompts _ 7)

theorem State.conCancel_con (h : s.conLive = true) : s.conCancel.con = { s.con with fuse := none, out := s.con.out ++ [.err 7] } :=
  State.conErr_con (s := s.setCon { s.con with fuse := none }) h 7

theorem State.conValid_prompts (s : State) (w : Bool) : s.Prompts (s.conValid w) :=
  (s.put_prompts _ rfl).trans (State.setCon_prompts _ _)

theorem State.conValid_con (s : State) (w : Bool) : (s.conValid w).con = { s.con with rateChanged := false } := rfl

/-- With a fuse command pending another line cancels it (R484). -/
theorem State.conRun_pending (h : s.conLive = true) (hfuse : s.con.fuse.isSome = true) (env : ConEnv) (line : List Byte) {c : ConCmd}
    (hc : ∀ v, c ≠ .confirm v) : s.conRun env line c = (s.conValid env.wrLow).conCancel := by
  unfold State.conRun
  rw [if_neg (by simp [h])]
  dsimp only
  split
  · next v => exact absurd rfl (hc v)
  · exact if_pos hfuse

/-- At the prompt a command that the strap allows does what Table 17.1 says. -/
theorem State.conRun_prompt (h : s.atPrompt) (env : ConEnv) (line : List Byte) {c : ConCmd} (hw : (c.isW && ! env.wrLow) = false)
    (hc : ∀ v, c ≠ .confirm v) : s.conRun env line c = (s.conValid env.wrLow).conDo env line c := by
  obtain ⟨hlive, hfuse⟩ := h
  unfold State.conRun
  rw [if_neg (by simp [hlive])]
  dsimp only
  split
  · next v => exact absurd rfl (hc v)
  · rw [if_neg (by rw [State.conValid_con]; simp [hfuse]), if_neg (by simp [hw])]

theorem State.conRun_confirm (h : s.conLive = true) (env : ConEnv) (line : List Byte) (v : Nat) :
    s.conRun env line (.confirm v) = (s.conValid env.wrLow).conConfirm v env.blown := by
  unfold State.conRun
  rw [if_neg (by simp [h])]

theorem State.conEcho_prompts (s : State) (line : List Byte) : s.Prompts (s.conEcho line) := by
  unfold State.conEcho
  split
  · exact s.print_prompts _
  · exact .refl s

/-- The characters of a line that ECHO sends back (R480). -/
def State.echoed (s : State) (line : List Byte) : List ConOut :=
  if s.on F.SUP_SVC_CFG_echo && ! isFuseKey line then [.echo line] else []

theorem State.conEcho_con (h : s.conLive = true) (line : List Byte) :
    (s.conEcho line).con = { s.con with out := s.con.out ++ s.echoed line } := by
  unfold State.conEcho State.echoed
  split
  · exact State.print_con h _
  · simp

theorem State.conLine_eq (h : s.conLive = true) (env : ConEnv) {line : List Byte} {c : ConCmd} (hline : parseLine line = some (.ok c)) :
    s.conLine env line = (s.conEcho line).conRun env line c := by
  unfold State.conLine
  rw [if_neg (by simp [h])]
  dsimp only
  rw [hline]

end Sys2Proof.Machine
end

section
/-! PROOFS. O54: fuses (R484). -/

namespace Sys2Proof.Machine

variable {s t : State}

/-- What CONFIRM begins with: the line is valid and the pending command is taken from the console. -/
def State.confirming (s : State) (w : Bool) : State := (s.conValid w).setCon { (s.conValid w).con with fuse := none }

theorem State.confirming_prompts (s : State) (w : Bool) : s.Prompts (s.confirming w) := (s.conValid_prompts w).trans (State.setCon_prompts _ _)

theorem State.confirming_con (s : State) (w : Bool) : (s.confirming w).con = { s.con with rateChanged := false, fuse := none } := rfl

/-- A value that fits, within 30 s, lets the pending command act. -/
theorem State.conConfirm_in_time {r : FuseReq} {v t0 : Nat} (hlive : s.conLive = true) (hfuse : s.con.fuse = some (r, v, t0))
    (htime : s.time ≤ t0 + 30000000) (env : ConEnv) (line : List Byte) :
    s.conRun env line (.confirm v) = (s.confirming env.wrLow).fuseDo r env.blown := by
  rw [State.conRun_confirm hlive]
  unfold State.conConfirm
  rw [show (s.conValid env.wrLow).con.fuse = some (r, v, t0) from hfuse]
  dsimp only
  rw [if_pos ⟨rfl, ((s.conValid_prompts env.wrLow).trans (State.setCon_prompts _ _)).time ▸ htime⟩]
  rfl

/-- Another value or a late line cancels it. -/
theorem State.conConfirm_late {r : FuseReq} {x v t0 : Nat} (hlive : s.conLive = true) (hfuse : s.con.fuse = some (r, x, t0))
    (h : x ≠ v ∨ t0 + 30000000 < s.time) (env : ConEnv) (line : List Byte) :
    s.conRun env line (.confirm v) = (s.confirming env.wrLow).conErr 7 := by
  rw [State.conRun_confirm hlive]
  unfold State.conConfirm
  rw [show (s.conValid env.wrLow).con.fuse = some (r, x, t0) from hfuse]
  dsimp only
  rw [if_neg ?_]
  · rfl
  · rintro ⟨hx, htime⟩
    have hsame := ((s.conValid_prompts env.wrLow).trans (State.setCon_prompts _ { (s.conValid env.wrLow).con with fuse := none })).time
    rw [hsame] at htime
    rcases h with hne | hlate
    · exact hne hx
    · omega

theorem State.conConfirm_none {v : Nat} (hlive : s.conLive = true) (hfuse : s.con.fuse = none) (env : ConEnv) (line : List Byte) :
    s.conRun env line (.confirm v) = (s.conValid env.wrLow).conErr 1 := by
  rw [State.conRun_confirm hlive]
  unfold State.conConfirm
  rw [show (s.conValid env.wrLow).con.fuse = none from hfuse]

/-- An answer ERR on a state that a line has led to. -/
theorem State.Prompts.printed_err {u : State} (h : s.Prompts u) (hlive : s.conLive = true) (hout : u.con.out = s.con.out) (code : Nat) :
    s.printed (u.conErr code) [.err code] ∧ (u.conErr code).fuses = s.fuses := by
  refine ⟨?_, ((u.conErr_prompts code).fuses).trans h.fuses⟩
  unfold State.printed
  rw [State.conErr_con (h.live hlive), ← hout]

theorem State.Prompts.printed_ok {u : State} (h : s.Prompts u) (hlive : s.conLive = true) (hout : u.con.out = s.con.out) (ls : List ConOut) :
    s.printed (u.print ls) ls := by
  unfold State.printed
  rw [State.print_con (h.live hlive), ← hout]

/-- A confirmed command that the fuses do not allow: ERR 03 and no fuse blown. -/
theorem State.fuseDo_refused (hmode : s.mode = .supervise ∨ s.mode = .hold) {r : FuseReq} (b : Option (List Byte))
    (h : (∃ k v, r = .hash k v ∧ s.fuses.hashProg.getLsbD k = true) ∨ (∃ k v, r = .key k v ∧ s.fuses.custProg.getLsbD k = true) ∨
      (r = .enc ∧ s.fuses.encRequired = true) ∨ (r = .close ∧ s.fuses.testClose = true)) : s.fuseDo r b = s.conErr 3 := by
  unfold State.fuseDo
  dsimp only
  rw [if_neg (fun hne => hmode.elim hne.1 hne.2)]
  rcases h with ⟨k, v, rfl, h⟩ | ⟨k, v, rfl, h⟩ | ⟨rfl, h⟩ | ⟨rfl, h⟩ <;> exact if_pos h

/-- A programmed value is shown, reported, and answered OK or, where it reads back otherwise, ERR 08. -/
def State.fuseProgrammed (s : State) (f : Fuses) (param : Nat) (good : Bool) : State :=
  let u := (s.fuseSet f).raise 0x0130 param
  if good then u.print [.ok] else u.conErr 8

theorem State.fuseDo_programmed (hmode : s.mode = .supervise ∨ s.mode = .hold) (b : List Byte) :
    (∀ k v, s.fuses.hashProg.getLsbD k = false → s.fuseDo (.hash k v) (some b) = s.fuseProgrammed { s.fuses with
      hashProg := s.fuses.hashProg ||| BitVec.ofNat 4 (2 ^ k), hashes := SMap.set (fun _ => []) s.fuses.hashes k b } k (b == v)) ∧
    (∀ k v, s.fuses.custProg.getLsbD k = false → s.fuseDo (.key k v) (some b) = s.fuseProgrammed { s.fuses with
      custProg := s.fuses.custProg ||| BitVec.ofNat 2 (2 ^ k), cust := SMap.set (fun _ => []) s.fuses.cust k b } (0x10 + k) (b == v)) ∧
    (s.fuses.encRequired = false → s.fuseDo .enc (some b) = s.fuseProgrammed { s.fuses with encRequired := true } 0x20 true) := by
  have hlegal : ¬ (s.mode ≠ .supervise ∧ s.mode ≠ .hold) := fun hne => hmode.elim hne.1 hne.2
  unfold State.fuseDo
  dsimp only
  simp only [if_neg hlegal]
  refine ⟨fun k v h => ?_, fun k v h => ?_, fun h => ?_⟩
  · rw [if_neg (by simp [h])]
    rfl
  · rw [if_neg (by simp [h])]
    rfl
  · rw [if_neg (by simp [h])]
    rfl

theorem State.fuseSet_same (s : State) (f : Fuses) : (s.fuseSet f).con = s.con ∧ (s.fuseSet f).fuses = f ∧ (s.fuseSet f).mode = s.mode ∧
    (s.fuseSet f).latched = s.latched := ⟨rfl, rfl, rfl, rfl⟩

theorem State.get_wr_ne (s : State) {f : RF} {off : Nat} (v : Word) (h : f.off ≠ off) : (s.wr off v).get f = s.get f :=
  State.get_of_rd (State.rd_wr_ne s off f.off v h)

theorem State.fuseSet_get_prog (s : State) (f : Fuses) : (s.fuseSet f).get F.SEC_FUSE_STS_hash_prog = f.hashProg.toNat := by
  unfold State.fuseSet State.fuseShow
  dsimp only
  rw [State.get_wr_ne _ _ (by decide), State.get_wr_ne _ _ (by decide), State.get_putB_apart _ _ rfl, State.get_putB_apart _ _ rfl,
    State.get_put_apart _ _ rfl, State.get_put_apart _ _ rfl]
  exact State.get_put_lt _ rfl f.hashProg.isLt

theorem State.raise_conLive (s : State) (id param : Nat) : (s.raise id param).conLive = s.conLive := by
  unfold State.conLive State.latched
  rw [State.raise_mode, State.raise_pwr]

/-- A value that reads back as asked: the fuses hold it, event 0x0130 names it and OK is the last answer. -/
theorem State.fuseProgrammed_good (hlive : s.conLive = true) (f : Fuses) (param : Nat) {good : Bool} (hgood : good = true) :
    (s.fuseProgrammed f param good).fuses = f ∧ (s.fuseProgrammed f param good).con.fuse = s.con.fuse ∧
    (s.fuseProgrammed f param good).logged 0x0130 param ∧ (s.fuseProgrammed f param good).con.out.getLast? = some .ok := by
  subst hgood
  have heq : s.fuseProgrammed f param true = ((s.fuseSet f).raise 0x0130 param).print [.ok] := rfl
  rw [heq]
  have hlive' : ((s.fuseSet f).raise 0x0130 param).conLive = true := ((s.fuseSet f).raise_conLive 0x0130 param).trans hlive
  have hp := ((s.fuseSet f).raise 0x0130 param).print_prompts [.ok]
  refine ⟨hp.fuses.trans (State.raise_fuses _ _ _), ?_, ?_, ?_⟩
  · rw [State.print_con hlive', State.raise_con_fuse]
    exact s.fuseSet_same f |>.1 ▸ rfl
  · exact State.logged_mono (l := []) (by rw [hp.log, List.append_nil]) (State.raise_logged _ _ _)
  · rw [State.print_con hlive']
    exact List.getLast?_concat

/-- A value that reads back otherwise: the fuse is blown all the same and the answer is ERR 08. -/
theorem State.fuseProgrammed_bad (hlive : s.conLive = true) (f : Fuses) (param : Nat) {good : Bool} (hgood : good = false) :
    (s.fuseProgrammed f param good).fuses = f ∧ (s.fuseProgrammed f param good).get F.SEC_FUSE_STS_hash_prog = f.hashProg.toNat ∧
    (s.fuseProgrammed f param good).con.out.getLast? = some (.err 8) := by
  subst hgood
  have heq : s.fuseProgrammed f param false = ((s.fuseSet f).raise 0x0130 param).conErr 8 := rfl
  rw [heq]
  have hlive' : ((s.fuseSet f).raise 0x0130 param).conLive = true := ((s.fuseSet f).raise_conLive 0x0130 param).trans hlive
  have hp := ((s.fuseSet f).raise 0x0130 param).conErr_prompts 8
  refine ⟨hp.fuses.trans (State.raise_fuses _ _ _), ?_, ?_⟩
  · rw [hp.get _ (by decide), State.raise_getKept _ _ _ rfl, State.fuseSet_get_prog]
  · rw [State.conErr_con hlive']
    exact List.getLast?_concat

theorem State.revokePair_con (s : State) (m : BitVec 4) : (s.revokePair m).con = s.con := by
  unfold State.revokePair
  split <;> rfl

/-- FUSE REVOKE with a new slot in its mask (R269, R484). -/
theorem State.fuseDo_revoke (hmode : s.mode = .supervise ∨ s.mode = .hold) {m : BitVec 4} (hnew : m &&& ~~~ s.fuses.revoked ≠ 0) (b : List Byte) :
    s.fuseDo (.revoke m) (some b) = if s.fuses.hashProg &&& ~~~ (s.fuses.revoked ||| m) = 0 then (s.revokePair m).conErr 3
      else ((s.revokePair m).raise 0x0130 (0x30 + m.toNat)).print [.ok] := by
  unfold State.fuseDo
  dsimp only
  rw [if_neg (fun hne => hmode.elim hne.1 hne.2), if_neg hnew]
  rfl

theorem State.fuseDo_close (hmode : s.mode = .supervise ∨ s.mode = .hold) (hopen : s.fuses.testClose = false) (b : List Byte) :
    s.fuseDo .close (some b) = ((s.fuseSet { s.fuses with testClose := true }).raiseFree 0x0131).print [.ok] := by
  unfold State.fuseDo
  dsimp only
  rw [if_neg (fun hne => hmode.elim hne.1 hne.2), if_neg (by simp [hopen])]
  rfl

/-- A print leaves what a report has logged. -/
theorem State.Prompts.logged (h : s.Prompts t) {id param : Nat} (hl : s.logged id param) : t.logged id param :=
  State.logged_mono (l := []) (by rw [h.log, List.append_nil]) hl

/-- The answer to FUSE: refused by the mode or by its argument, or waiting for its confirmation. -/
theorem State.conFuse_answers (hlive : s.conLive = true) (hfuse : s.con.fuse = none) (line : List Byte) (r : FuseReq) :
    let v := (crc32c line).toNat % 65536
    let answer : ConOut := if s.mode ≠ .supervise ∧ s.mode ≠ .hold then .err 3 else if fuseArg r then .confirm v else .err 2
    (s.conFuse line r).con.out = s.con.out ++ [answer] ∧
      (s.conFuse line r).con.fuse = (if answer = .confirm v then some (r, v, s.time) else none) ∧ s.Prompts (s.conFuse line r) := by
  unfold State.conFuse
  dsimp only
  by_cases hmode : s.mode ≠ .supervise ∧ s.mode ≠ .hold
  · simp only [if_pos hmode]
    rw [if_neg (by simp)]
    exact ⟨congrArg Console.out (State.conErr_con hlive 3), (congrArg Console.fuse (State.conErr_con hlive 3)).trans hfuse, s.conErr_prompts 3⟩
  · simp only [if_neg hmode]
    cases harg : fuseArg r
    · simp only [Bool.not_false, if_true, Bool.false_eq_true, if_false]
      rw [if_neg (by simp)]
      exact ⟨congrArg Console.out (State.conErr_con hlive 2), (congrArg Console.fuse (State.conErr_con hlive 2)).trans hfuse, s.conErr_prompts 2⟩
    · simp only [Bool.not_true, Bool.false_eq_true, if_false, if_true]
      have hp := s.setCon_prompts { s.con with fuse := some (r, (crc32c line).toNat % 65536, s.time) }
      have hcon := State.print_con (hp.live hlive) [.confirm ((crc32c line).toNat % 65536)]
      exact ⟨congrArg Console.out hcon, congrArg Console.fuse hcon, hp.trans (State.print_prompts _ _)⟩

/-- A FUSE line that the strap allows is answered, and blows nothing. -/
theorem State.conLine_fuse (hlive : s.conLive = true) {line : List Byte} {r : FuseReq} (hline : parseLine line = some (.ok (.fuse r))) :
    s.fuseAnswered (s.conLine { wrLow := true } line) line r := by
  have he := s.conEcho_prompts line
  have hecon := State.conEcho_con hlive line
  have helive := he.live hlive
  rw [State.conLine_eq hlive _ hline]
  have hv := (s.conEcho line).conValid_prompts true
  have hp := he.trans hv
  have hnot : ∀ v, ConCmd.fuse r ≠ .confirm v := fun v h => ConCmd.noConfusion h
  unfold State.fuseAnswered
  dsimp only
  by_cases hfuse : s.con.fuse.isSome = true
  · rw [State.conRun_pending helive (by rw [hecon]; exact hfuse) _ _ hnot]
    simp only [if_pos hfuse]
    have hc := State.conCancel_con (hp.live hlive)
    have hfin := hp.trans (State.conCancel_prompts _)
    refine ⟨?_, ?_, hfin.fuses, hfin.mode⟩
    · unfold State.printed
      rw [hc, State.conValid_con, hecon]
      exact List.append_assoc _ _ _
    · rw [hc, if_neg (by simp)]
  · have hnone : s.con.fuse = none := by simpa using hfuse
    rw [State.conRun_prompt ⟨helive, by rw [hecon]; exact hnone⟩ _ _ rfl hnot]
    simp only [if_neg hfuse]
    obtain ⟨hout, hpend, hdo⟩ := State.conFuse_answers (s := (s.conEcho line).conValid true) (hp.live hlive)
      (by rw [State.conValid_con, hecon]; exact hnone) line r
    have hfin := hp.trans hdo
    rw [hp.mode] at hout hpend
    rw [hp.time] at hpend
    refine ⟨?_, hpend, hfin.fuses, hfin.mode⟩
    unfold State.printed
    refine hout.trans ?_
    rw [State.conValid_con, hecon]
    exact List.append_assoc _ _ _

theorem State.fuseLine_eq {line : List Byte} {r : FuseReq} (hline : parseLine line = some (.ok (.fuse r))) {p : FuseReq → Bool} (hp : p r = true)
    (w : Bool) : s.fuseLine line w p = s.conLine { wrLow := w } line := by
  unfold State.fuseLine
  rw [hline]
  exact if_pos hp

theorem completes_fuseLine {i : Instr} {line : List Byte} {r : FuseReq} {p : FuseReq → Bool} (hexec : exec i s = .next (s.fuseLine line true p))
    (hlive : s.conLive = true) (hp : p r = true) (hline : parseLine line = some (.ok (.fuse r))) :
    Completes i s (fun t => s.fuseAnswered t line r) :=
  ⟨_, hexec, (State.fuseLine_eq hline hp true).symm ▸ State.conLine_fuse hlive hline⟩

/-- A pending command whose value comes in time, with what reads back. -/
theorem completes_confirm {r : FuseReq} {v : BitVec 16} {t0 : Nat} (hlive : s.conLive = true) (hfuse : s.con.fuse = some (r, v.toNat, t0))
    (htime : s.time ≤ t0 + 30000000) (b : Option (List Byte)) {P : State → Prop} (hP : P ((s.confirming true).fuseDo r b)) :
    Completes (.confirm v b true) s P :=
  ⟨_, rfl, (State.conConfirm_in_time hlive hfuse htime { wrLow := true, blown := b } []).symm ▸ hP⟩

/-- Settles O54: a FUSE line is answered by `conFuse`; what CONFIRM does is `fuseDo` in time, and an answer ERR without a fuse blown else. -/
theorem fusesAreBlownOnConfirmation : Obligations.FusesAreBlownOnConfirmation := by
  unfold Obligations.FusesAreBlownOnConfirmation
  refine ⟨fun line v k s hlive => ⟨completes_fuseLine rfl hlive rfl, completes_fuseLine rfl hlive rfl⟩,
    fun line m s hlive => ⟨completes_fuseLine rfl hlive rfl, completes_fuseLine rfl hlive rfl, completes_fuseLine rfl hlive rfl⟩,
    fun v r t0 s hlive hmode hfuse htime => ?_, fun v blown w s hlive => ⟨fun hnone => ?_, fun r x t0 hfuse hlate => ?_⟩,
    fun s hlive => ⟨fun hfuse => ?_, fun hfuse w => ?_⟩⟩
  · have hp := s.confirming_prompts true
    have hlive' := hp.live hlive
    have hmode' : (s.confirming true).mode = .supervise ∨ (s.confirming true).mode = .hold := hp.mode.symm ▸ hmode
    have hfuses : (s.confirming true).fuses = s.fuses := hp.fuses
    have hrefused : ∀ {r b}, (s.confirming true).fuseDo r b = (s.confirming true).conErr 3 →
        s.printed ((s.confirming true).fuseDo r b) [.err 3] ∧ ((s.confirming true).fuseDo r b).fuses = s.fuses :=
      fun h => h.symm ▸ hp.printed_err hlive rfl 3
    refine ⟨fun k b hr hfree _ => completes_confirm hlive hfuse htime _ ?_, fun k b b' hr hfree hk hne => completes_confirm hlive hfuse htime _ ?_,
      fun k b hr hset => completes_confirm hlive hfuse htime _ (hrefused (State.fuseDo_refused hmode' _ ?_)),
      fun hset => completes_confirm hlive hfuse htime _ (hrefused (State.fuseDo_refused hmode' _ ?_)),
      fun k b hr hset => completes_confirm hlive hfuse htime _ (hrefused (State.fuseDo_refused hmode' _ ?_)),
      fun k b hr hfree _ => completes_confirm hlive hfuse htime _ ?_, fun hr hfree => completes_confirm hlive hfuse htime _ ?_,
      fun m hr hnew hleft => completes_confirm hlive hfuse htime _ ?_, fun m hr hnew hleft => completes_confirm hlive hfuse htime _ ?_,
      fun hr hopen => completes_confirm hlive hfuse htime _ ?_⟩
    · subst hr
      rw [((State.fuseDo_programmed hmode' b).1 k b (hfuses.symm ▸ hfree))]
      obtain ⟨hf, hc, hl, ho⟩ := State.fuseProgrammed_good hlive' { (s.confirming true).fuses with
        hashProg := (s.confirming true).fuses.hashProg ||| BitVec.ofNat 4 (2 ^ k),
        hashes := SMap.set (fun _ => []) (s.confirming true).fuses.hashes k b } k (good := b == b) (beq_self_eq_true b)
      exact ⟨hc, ho, by rw [hf, hfuses], by rw [hf]; exact SMap.get_set_same _ _ _ _, hl⟩
    · subst hr
      rw [((State.fuseDo_programmed hmode' b').1 k b (hfuses.symm ▸ hfree))]
      obtain ⟨hf, hg, ho⟩ := State.fuseProgrammed_bad hlive' { (s.confirming true).fuses with
        hashProg := (s.confirming true).fuses.hashProg ||| BitVec.ofNat 4 (2 ^ k),
        hashes := SMap.set (fun _ => []) (s.confirming true).fuses.hashes k b' } k (good := b' == b) (by simp [hne])
      refine ⟨ho, by rw [hg, hf], ?_⟩
      rw [hf, BitVec.getLsbD_or]
      interval_cases k <;> simp
    · exact Or.inr (Or.inl ⟨k, b, hr, hfuses.symm ▸ hset⟩)
    · exact Or.inr (Or.inr (hfuses.symm ▸ hset))
    · exact Or.inl ⟨k, b, hr, hfuses.symm ▸ hset⟩
    · subst hr
      rw [((State.fuseDo_programmed hmode' b).2.1 k b (hfuses.symm ▸ hfree))]
      obtain ⟨hf, hc, hl, -⟩ := State.fuseProgrammed_good hlive' { (s.confirming true).fuses with
        custProg := (s.confirming true).fuses.custProg ||| BitVec.ofNat 2 (2 ^ k),
        cust := SMap.set (fun _ => []) (s.confirming true).fuses.cust k b } (0x10 + k) (good := b == b) (beq_self_eq_true b)
      exact ⟨hc, by rw [hf, hfuses], by rw [hf]; exact SMap.get_set_same _ _ _ _, hl⟩
    · subst hr
      rw [((State.fuseDo_programmed hmode' []).2.2 (hfuses.symm ▸ hfree))]
      obtain ⟨hf, -, hl, -⟩ := State.fuseProgrammed_good hlive' { (s.confirming true).fuses with encRequired := true } 0x20 rfl
      exact ⟨by rw [hf, hfuses], hl⟩
    · subst hr
      rw [State.fuseDo_revoke hmode' (hfuses.symm ▸ hnew), if_neg (hfuses.symm ▸ hleft)]
      have hpr := ((((s.confirming true).revokePair m).raise 0x0130 (0x30 + m.toNat)).print_prompts [.ok])
      have hrev := State.revokePair_eq (s.confirming true) m
      rw [if_neg (hfuses.symm ▸ hleft)] at hrev
      exact ⟨by rw [hpr.fuses, State.raise_fuses, hrev.1, hfuses], hpr.logged (State.raise_logged _ _ _)⟩
    · subst hr
      rw [State.fuseDo_revoke hmode' (hfuses.symm ▸ hnew), if_pos (hfuses.symm ▸ hleft)]
      have hpr := ((s.confirming true).revokePair m).conErr_prompts 3
      have hrev := State.revokePair_eq (s.confirming true) m
      rw [if_pos (hfuses.symm ▸ hleft)] at hrev
      refine ⟨by rw [hpr.fuses, hrev.1, hfuses], by rw [hpr.get _ (by decide), hrev.2], ?_⟩
      have hlive2 : ((s.confirming true).revokePair m).conLive = true := by
        unfold State.revokePair
        rw [if_pos (hfuses.symm ▸ hleft)]
        exact hlive'
      unfold State.printed
      rw [State.conErr_con hlive2, State.revokePair_con]
      rfl
    · subst hr
      rw [State.fuseDo_close hmode' (hfuses.symm ▸ hopen)]
      have hpr := ((((s.confirming true).fuseSet { (s.confirming true).fuses with testClose := true }).raiseFree 0x0131).print_prompts [.ok])
      obtain ⟨p, hl⟩ := State.raiseFree_loggedSome ((s.confirming true).fuseSet { (s.confirming true).fuses with testClose := true }) 0x0131
      exact ⟨by rw [hpr.fuses, State.raiseFree_fuses, (State.fuseSet_same _ _).2.1, hfuses], p, hpr.logged hl⟩
  · refine ⟨_, rfl, ?_⟩
    rw [State.conConfirm_none hlive hnone]
    exact (s.conValid_prompts w).printed_err hlive rfl 1
  · refine ⟨_, rfl, ?_⟩
    rw [State.conConfirm_late hlive hfuse hlate]
    have hp := s.confirming_prompts w
    exact ⟨by rw [State.conErr_con (hp.live hlive), State.confirming_con], hp.printed_err hlive rfl 7⟩
  · refine ⟨s.conCancel, congrArg (fun u => (.next u : Out)) (if_pos hfuse), ?_⟩
    exact ⟨by rw [State.conCancel_con hlive], congrArg Console.out (State.conCancel_con hlive), s.conCancel_prompts.fuses⟩
  · refine ⟨_, rfl, ?_⟩
    rw [State.conRun_pending hlive hfuse _ _ (fun v h => ConCmd.noConfusion h)]
    have hp := s.conValid_prompts w
    have hc := State.conCancel_con (hp.live hlive)
    exact ⟨by rw [hc], congrArg Console.out hc, ((hp.trans (State.conCancel_prompts _)).fuses)⟩

end Sys2Proof.Machine
end

section
/-! SUPPORT. The meter (R485 to R487) and the field tests (R488, R489, Table 17.4). -/

namespace Sys2Proof.Machine

variable {s t u : State}

/-! ## Meter -/

/-- What the meter pin is at rest (R30, COLD), and the value of its source, clipped to its range. -/
theorem meterUpdate_off (rail : BitVec 16) (h : s.mode = .cold ∨ s.latched = true) :
    exec (.meterUpdate rail) s = .next ((s.put F.SUP_MTR_STS_out_mv 0).put F.SUP_MTR_STS_code 0) := by
  show execMeterUpdate rail s = _
  unfold execMeterUpdate
  rw [if_pos h]

/-- The millivolts that the meter pin shows of a source (R486). -/
def State.meterPin (s : State) (rail : BitVec 16) : Nat :=
  if s.meterMv rail.toNat < 0 then 0 else if 2500 < s.meterMv rail.toNat then 2500 else (s.meterMv rail.toNat).toNat

theorem State.meterPin_eq (s : State) (rail : BitVec 16) : (s.meterPin rail : Int) = max 0 (min 2500 (s.meterMv rail.toNat)) := by
  unfold State.meterPin
  generalize s.meterMv rail.toNat = v
  split
  · omega
  · split <;> omega

/-- The meter in a state with a console: pin and code. -/
def State.meterShown (s : State) (rail : BitVec 16) : State :=
  (s.put F.SUP_MTR_STS_out_mv (s.meterPin rail)).put F.SUP_MTR_STS_code
    (if 0 < s.get F.SUP_MTR_CTL_src ∧ s.get F.SUP_MTR_CTL_src < 11 then 0 else s.meterPin rail / 100)

theorem meterUpdate_on (rail : BitVec 16) (hcold : s.mode ≠ .cold) (hlatched : s.latched = false) :
    exec (.meterUpdate rail) s = .next (s.meterShown rail) := by
  show execMeterUpdate rail s = _
  unfold execMeterUpdate
  rw [if_neg (by simp [hcold, hlatched])]
  rfl

theorem State.meterShown_mv (s : State) (rail : BitVec 16) : (s.meterShown rail).get F.SUP_MTR_STS_out_mv = s.meterPin rail := by
  have hle : s.meterPin rail < 2 ^ 12 := by
    have := s.meterPin_eq rail
    omega
  unfold State.meterShown
  rw [State.get_put_apart _ _ rfl]
  exact State.get_put_lt _ rfl hle

/-- Every code of Table 17.2 is shown at 100 mV a step. -/
theorem State.statusCode_le (s : State) : s.statusCode ≤ 25 := by
  have hmissing : s.get F.SUP_MODE_missing < 16 := s.get_lt _
  have hcause : s.get F.SUP_MODE_hold_cause < 16 := s.get_lt _
  unfold State.statusCode
  dsimp only
  split
  · exact Nat.zero_le _
  · split
    · omega
    · split
      · split <;> omega
      · cases s.mode <;> decide

/-! ## Tests -/

theorem State.testMeter_get (s : State) (code : Nat) : (s.testMeter code).get F.SUP_MTR_CTL_src = 0xB := State.get_put_lit s rfl

theorem State.testMeter_live (s : State) (code : Nat) : (s.testMeter code).conLive = s.conLive := rfl

theorem State.testMeter_con (s : State) (code : Nat) : (s.testMeter code).con = { s.con with result := code } := rfl

theorem State.print_get (ls : List ConOut) (f : RF) : (s.print ls).get f = s.get f := State.get_of_rd (by rw [State.rd, State.print_regs, State.rd])

/-- A test that is over at once: its result on the meter and on its line. -/
theorem State.testNow_tested (hu : u.conLive = true) (hout : u.con.out = s.con.out) (hfab : u.fab = s.fab) (good : Bool)
    (vs : List Nat) : s.testedNow (u.testNow good vs) good vs := by
  unfold State.testNow
  have hcon := State.print_con ((u.testMeter_live (if good then 23 else 24)).trans hu) (if good then [.ok] else [.values vs, .ok])
  refine ⟨?_, ?_, ?_, ?_⟩
  · rw [State.print_get]
    exact State.testMeter_get _ _
  · rw [hcon]
    rfl
  · rw [(State.print_prompts _ _).fab]
    exact hfab
  · unfold State.printed
    rw [hcon, ← hout]
    rfl

theorem State.Prompts.tested (hp : s.Prompts u) (hlive : s.conLive = true) (hout : u.con.out = s.con.out) (good : Bool) (vs : List Nat) :
    s.testedNow (u.testNow good vs) good vs :=
  State.testNow_tested (hp.live hlive) hout hp.fab good vs

/-- A longer test begins: ACCEPTED, and its name waits for its end. -/
theorem State.testLong_began (hu : u.conLive = true) (hcon : u.con.out = s.con.out ∧ u.con.tests = s.con.tests) (x : FieldTest) :
    s.testBegan (u.testLong x) x := by
  unfold State.testLong
  have hc := State.print_con ((u.testMeter_live 25).trans hu) [.accepted]
  dsimp only
  refine ⟨?_, ?_, ⟨[], ?_⟩, ?_⟩
  · show ((u.testMeter 25).print [.accepted]).get F.SUP_MTR_CTL_src = 0xB
    rw [State.print_get]
    exact State.testMeter_get _ _
  · rw [hc]
    rfl
  · rw [hc, List.append_nil, ← hcon.1]
    rfl
  · rw [hc, ← hcon.2]
    rfl

theorem completes_test {i : Instr} {env : ConEnv} {c : TestCmd} (hexec : exec i s = .next (s.conRun env [] (.test c))) (h : s.atPrompt)
    {P : State → Prop} (hP : P ((s.conValid env.wrLow).conTest env c)) : Completes i s P :=
  ⟨_, hexec, (State.conRun_prompt h env [] (c := .test c) rfl (fun _ hc => ConCmd.noConfusion hc)).symm ▸ hP⟩

/-- What a sender of a lane does not touch: the console and what lets it run. -/
def State.voice (s : State) : Console × Mode × Pwr := (s.con, s.mode, s.pwr)

theorem State.setLane_voice (s : State) (n : Nat) (x : Lane) : (s.setLane n x).voice = s.voice := rfl
theorem State.setPort_voice (s : State) (p : Nat) (x : Port) : (s.setPort p x).voice = s.voice := rfl
theorem State.put_voice (s : State) (f : RF) (v : Nat) : (s.put f v).voice = s.voice := rfl

theorem State.laneSlot_voice (s : State) (n : Nat) : (s.laneSlot n).voice = s.voice := by
  have hfiller (u : State) (m : Nat) : (u.laneFiller m).voice = u.voice := by
    unfold State.laneFiller
    split <;> rfl
  unfold State.laneSlot
  dsimp only
  split
  · rfl
  · split
    · rfl
    · refine (State.setLane_voice _ _ _).trans (foldl_kept State.voice (fun u m _ => ?_) s)
      exact (hfiller _ m).trans rfl

theorem State.portSlots_voice (k : Nat) (s : State) (p : Nat) : (State.portSlots k s p).voice = s.voice := by
  induction k generalizing s with
  | zero => rfl
  | succ k ih =>
    unfold State.portSlots
    split
    · rfl
    · next r hr =>
      obtain ⟨j, -, rfl⟩ := Option.map_eq_some_iff.mp hr
      rw [ih, State.laneSlot_voice]
      rfl

theorem State.pelSend_voice (s : State) (p type body : Nat) : (s.pelSend p type body).voice = s.voice := by
  unfold State.pelSend State.portSlotAll
  dsimp only
  split
  · refine foldl_kept State.voice (fun u k _ => ?_) s
    split
    · exact u.laneSlot_voice _
    · rfl
  · exact State.portSlots_voice 1 s p

theorem State.ledgerStart_voice (s : State) (p : Nat) : (s.ledgerStart p).voice = s.voice := by
  have hmark (u : State) : (u.pelMark p).voice = u.voice := by
    unfold State.pelMark
    dsimp only
    split
    · rw [State.pelSend_voice, State.setPort_voice]
    · rfl
  have hend (u : State) : (u.ledgerEnd p).voice = u.voice := by
    unfold State.ledgerEnd
    dsimp only
    rw [foldl_kept State.voice (fun u a _ => State.put_voice _ _ _), State.setPort_voice, State.put_voice]
  unfold State.ledgerStart
  dsimp only
  split
  · rfl
  · split
    · exact hend s
    · rw [hmark, State.setPort_voice, State.put_voice, hend]

theorem State.voice_con (h : u.voice = s.voice) : u.con = s.con := congrArg Prod.fst h
theorem State.voice_live (h : u.voice = s.voice) : u.conLive = s.conLive := by
  unfold State.conLive State.latched
  rw [show u.mode = s.mode from congrArg (·.2.1) h, show u.pwr = s.pwr from congrArg (·.2.2) h]

theorem svc_ne {a b : Nat} (h : R.SUP_SVC_STS < a) : R.SUP_SVC_STS ≠ a + b := Nat.ne_of_lt (Nat.lt_add_right b h)

section
variable (hp : s.Prompts u)
include hp

theorem State.Prompts.running : u.running = s.running := hp.view State.running fun _ => rfl
theorem State.Prompts.portUp (p : Nat) : u.portUp p = s.portUp p := by
  unfold State.portUp State.portState
  rw [hp.get _ (svc_ne (by decide)), hp.latched]

theorem State.Prompts.regionState (n : Nat) : u.regionState n = s.regionState n := hp.get (F.REGION_PR_STS_state n) (svc_ne (by decide))

theorem State.Prompts.regionRetired (n : Nat) : u.regionRetired n = s.regionRetired n := by
  unfold State.regionRetired
  rw [hp.get _ (by decide)]

theorem State.Prompts.norByte (a : Nat) : u.norByte a = s.norByte a := hp.view (fun v => v.norByte a) fun _ => rfl

theorem State.Prompts.norRead (a n : Nat) : u.norRead a n = s.norRead a n := by
  unfold State.norRead
  simp only [hp.norByte]

theorem State.Prompts.norNat (a n : Nat) : u.norNat a n = s.norNat a n := by rw [State.norNat, hp.norRead, State.norNat]

theorem State.Prompts.norOk : u.norOk = s.norOk := hp.view State.norOk fun _ => rfl

theorem State.Prompts.dirCopy (c : Nat) : u.dirCopy c = s.dirCopy c := by rw [State.dirCopy, hp.norOk, hp.norRead, State.dirCopy]

theorem State.Prompts.directory : u.directory = s.directory := by
  unfold State.directory
  rw [hp.get _ (by decide), hp.dirCopy]

theorem State.Prompts.dirEntry (type : Nat) : u.dirEntry type = s.dirEntry type := by rw [State.dirEntry, hp.directory, State.dirEntry]

theorem State.Prompts.mapAt : u.mapAt = s.mapAt := by rw [State.mapAt, hp.norOk, hp.dirEntry, State.mapAt]

theorem State.Prompts.settingsRecord (c : Nat) : u.settingsRecord c = s.settingsRecord c := by
  unfold State.settingsRecord State.settingsAt
  simp only [hp.dirEntry, hp.norOk, hp.norRead, hp.norNat]

theorem State.Prompts.mapRecord (base c : Nat) : u.mapRecord base c = s.mapRecord base c := by
  unfold State.mapRecord
  simp only [hp.norRead, hp.norNat, hp.fuses]

theorem State.Prompts.mapView : u.mapView = s.mapView := by
  unfold State.mapView
  simp only [hp.mapAt, hp.mapRecord]

theorem State.Prompts.countBooks : u.countBooks = s.countBooks := by
  have happlied : u.applied = s.applied := hp.view State.applied fun _ => rfl
  rw [State.countBooks, hp.mode, hp.mapView, happlied, State.countBooks]

theorem State.Prompts.poolCounts (k i : Nat) : u.poolCounts k i = s.poolCounts k i := by
  have hmap : (({ u with flt := { u.flt with kept := [], books := u.countBooks } } : State).grpMap i) =
      ({ s with flt := { s.flt with kept := [], books := s.countBooks } } : State).grpMap i := by
    rw [hp.countBooks]
    exact hp.view (fun v : State => ({ v with flt := { v.flt with kept := [], books := s.countBooks } } : State).grpMap i) fun _ => rfl
  unfold State.poolCounts
  dsimp only
  rw [hmap, hp.countBooks]

theorem State.Prompts.poolsBare : u.poolsBare = s.poolsBare := by
  unfold State.poolsBare
  exact List.filter_congr fun x _ => by rw [hp.regionRetired, hp.poolCounts]

theorem State.Prompts.allScrubbed : u.allScrubbed = s.allScrubbed := by
  unfold State.allScrubbed
  congr 1
  funext n
  rw [hp.regionState, hp.get _ (by decide)]

theorem State.Prompts.modeStatus (d : AdminDesc) : u.modeStatus d = s.modeStatus d := by
  have hidle (set : Nat) : u.setIdle set = s.setIdle set := by
    unfold State.setIdle
    congr 1
    funext n
    rw [hp.get _ (svc_ne (by decide))]
  have hnor : u.loadReadsNor = s.loadReadsNor := hp.view State.loadReadsNor fun _ => rfl
  have hon : u.pwr.on = s.pwr.on := hp.view (fun v => v.pwr.on) fun _ => rfl
  unfold State.modeStatus
  rw [hidle, hnor, hon, hp.running, hp.mode]

theorem State.Prompts.firstCheck (host : Bool) (d : AdminDesc) : u.firstCheck host d = s.firstCheck host d := by
  have hfits : u.entryFits d = s.entryFits d := by rw [State.entryFits, hp.directory, State.entryFits]
  have hsame : u.sameRuns d = s.sameRuns d := hp.view (fun v => v.sameRuns d) fun _ => rfl
  unfold State.firstCheck
  rw [hfits, hsame, hp.modeStatus]

end

end Sys2Proof.Machine
end

section
/-! PROOFS. O55: the meter and the field tests. -/

namespace Sys2Proof.Machine

variable {s t u : State}

/-! ## Tests with an admin command -/

theorem State.voice_runCmd (s : State) (c : AdminCmd) : (s.runCmd c).voice = s.voice := rfl

/-- A test that runs an admin command: ACCEPTED, then the command (R488). -/
theorem State.testAdmin_eq (hp : s.Prompts u) (name : Nat) {d : AdminDesc} (h : (s.firstCheck false d).1 = 0) (run : State → AdminCmd → State) :
    u.testAdmin name d run = run (((u.testMeter 25).print [.accepted]).runCmd ⟨.console name, d⟩) ⟨.console name, d⟩ := by
  unfold State.testAdmin
  dsimp only
  rw [hp.firstCheck, if_neg (by simp [h])]

/-- The state in which the command of such a test runs. -/
def State.testGoes (s : State) (w : Bool) (c : AdminCmd) : State := (((s.conValid w).testMeter 25).print [.accepted]).runCmd c

theorem State.testGoes_con (h : s.conLive = true) (w : Bool) (c : AdminCmd) :
    (s.testGoes w c).con = { s.con with out := s.con.out ++ [.accepted], rateChanged := false, result := 25 } :=
  State.print_con (((s.conValid w).testMeter_live 25).trans ((s.conValid_prompts w).live h)) [.accepted]

theorem State.testGoes_live (h : s.conLive = true) (w : Bool) (c : AdminCmd) : (s.testGoes w c).conLive = true :=
  ((State.print_prompts _ _).live (((s.conValid w).testMeter_live 25).trans ((s.conValid_prompts w).live h)))

theorem State.runCmd_get (s : State) (c : AdminCmd) (f : RF) : (s.runCmd c).get f = s.get f := rfl

theorem State.testMeter_apart (s : State) (code : Nat) {f : RF} (h : R.SUP_MTR_CTL ≠ f.off) : (s.testMeter code).get f = s.get f :=
  State.get_of_rd (State.rd_put_ne s F.SUP_MTR_CTL_src 0xB f.off h.symm)

theorem State.testGoes_regs (s : State) (w : Bool) (c : AdminCmd) {f : RF} (hsvc : R.SUP_SVC_STS ≠ f.off) (hmtr : R.SUP_MTR_CTL ≠ f.off) :
    (s.testGoes w c).get f = s.get f := by
  unfold State.testGoes
  rw [State.runCmd_get, State.print_get, State.testMeter_apart _ _ hmtr, (s.conValid_prompts w).get f hsvc]

theorem State.testGoes_rest (s : State) (w : Bool) (c : AdminCmd) : (s.testGoes w c).ldr = s.ldr ∧ (s.testGoes w c).flt = s.flt ∧
    (s.testGoes w c).mode = s.mode ∧ (s.testGoes w c).hif = { s.hif with running := s.hif.running ++ [c] } := by
  have hp := ((s.conValid w).testMeter 25).print_prompts [.accepted]
  refine ⟨hp.ldr, hp.flt, hp.mode, ?_⟩
  show ({ (((s.conValid w).testMeter 25).print [.accepted]).hif with
    running := (((s.conValid w).testMeter 25).print [.accepted]).hif.running ++ [c] } : Hif) = _
  rw [hp.hif]
  rfl

theorem State.testGoes_testable (s : State) (w : Bool) (c : AdminCmd) : (s.testGoes w c).groupTestable = s.groupTestable := by
  funext x
  have hget {f : RF} (h : R.SUP_MTR_CTL < f.off) : (s.testGoes w c).get f = s.get f :=
    s.testGoes_regs w c (Nat.ne_of_lt (Nat.lt_trans (by decide) h)) (Nat.ne_of_lt h)
  have hon {f : RF} (h : R.SUP_MTR_CTL < f.off) : (s.testGoes w c).on f = s.on f := by rw [State.on, hget h, State.on]
  unfold State.groupTestable State.regionState
  dsimp only
  rw [(s.testGoes_rest w c).1, hget (Nat.lt_add_right _ (by decide)), hon (Nat.lt_add_right _ (by decide)), hon (Nat.lt_add_right _ (by decide))]

/-- The command of TEST BIST where no group can be tested: done at once, and FAIL. -/
theorem State.complete_console (hlive : s.conLive = true) (name detail res0 : Nat) (hname : name = nameTestBist) (hdetail : 1 < detail) :
    (s.complete (.console name) 0 detail res0).con = { s.con with result := 24, out := s.con.out ++ [.doneOk name] } ∧
      (s.complete (.console name) 0 detail res0).flt = s.flt := by
  have hdel (v : State) : v.deliverable ⟨.console name, true, 0, detail, res0, 0⟩ = true := rfl
  unfold State.complete
  simp only [hdel, Bool.or_true, Bool.and_self, if_true]
  unfold State.deliver State.conAnswer
  dsimp only
  rw [if_neg (by rw [hname]; decide), if_pos (Or.inl hname), if_neg (fun hc => absurd hc.2 (by omega))]
  generalize hv : (State.setHif _ _) = v
  have hvcon : v.con = s.con := by rw [← hv]; rfl
  have hvflt : v.flt = s.flt := by rw [← hv]; rfl
  have hvlive : v.conLive = true := by rw [← hv]; exact hlive
  exact ⟨by rw [State.print_con (s := { v with con := { v.con with result := 24 } }) hvlive, ← hvcon]; rfl,
    (State.print_prompts (s := { v with con := { v.con with result := 24 } }) _).flt.trans hvflt⟩

/-- What a hard test that finds nothing leaves: the console, the mode and the host interface. -/
def State.voiceHif (s : State) : (Console × Mode × Pwr) × Hif := (s.voice, s.hif)

theorem State.setFrame_voiceHif (s : State) (a : Nat) (f : Frame) : (s.setFrame a f).voiceHif = s.voiceHif := rfl
theorem State.vset_voiceHif (s : State) (n col off w v : Nat) : (s.vset n col off w v).voiceHif = s.voiceHif := by
  unfold State.vset
  dsimp only
  by_cases hone : off % 4096 + w ≤ 4096
  · rw [if_pos hone, State.setFrame_voiceHif]
  · rw [if_neg hone, State.setFrame_voiceHif, State.setFrame_voiceHif]

theorem State.firnLost_voiceHif (s : State) (set : Nat) : (s.firnLost set).voiceHif = s.voiceHif := rfl

theorem State.secretClear_voiceHif (s : State) (n : Nat) : (s.secretClear n).voiceHif = s.voiceHif := by
  have hrow (u : State) (m f b row : Nat) (v : BitVec 72) : (u.setFirnRow m f b row v).voiceHif = u.voiceHif := by
    rw [State.setFirnRow, State.vset_voiceHif]
  have hfab (u : State) (x : Fab) : ({ u with fab := x } : State).voiceHif = u.voiceHif := rfl
  have hclear (u : State) (m f b : Nat) : (u.firnClear m f b).voiceHif = u.voiceHif := by
    unfold State.firnClear
    dsimp only
    generalize List.range 512 = rows
    refine (hfab _ _).trans (foldl_kept State.voiceHif (fun u row _ => ?_) u)
    rw [hrow]
  unfold State.secretClear
  refine foldl_kept State.voiceHif (fun u q _ => foldl_kept State.voiceHif (fun u j _ => ?_) u) s
  dsimp only
  split
  · exact hclear _ _ _ _
  · rfl

theorem State.hardTest_none (s : State) (kind set start : Nat) :
    (s.hardTest kind set start []).1.voiceHif = s.voiceHif ∧ (s.hardTest kind set start []).2.1.code = 0 ∧
      (s.hardTest kind set start []).2.2 = [] := ⟨rfl, rfl, rfl⟩

/-- A completion with status OK that waits for its answer. -/
theorem State.finishLater_ends {x v : State} (h : x.voiceHif = v.voiceHif) (src : CmdSrc) (detail res0 : Nat) :
    (x.finishLater src 0 detail res0).voice = v.voice ∧
      ∃ d, (x.finishLater src 0 detail res0).hif.finished = v.hif.finished ++ [d] ∧ d.status = 0 := by
  have hvoice : x.voice = v.voice := congrArg Prod.fst h
  have hhif : x.hif = v.hif := congrArg Prod.snd h
  exact ⟨hvoice, _, by rw [← hhif]; rfl, rfl⟩

/-- TEST HARD that finds nothing ends with status OK (Table 17.4). -/
theorem State.conTest_hard (hp : s.Prompts u) (set : Nat) (h : (s.firstCheck false (plainDesc 0x30 1 set 0 0)).1 = 0) (w : Bool) :
    let c : AdminCmd := ⟨.console nameTestHard, plainDesc 0x30 1 set 0 0⟩
    let v := ((u.testMeter 25).print [.accepted]).runCmd c
    (u.conTest { wrLow := w, found := [] } (.hard set)).voice = v.voice ∧
      ∃ d, (u.conTest { wrLow := w, found := [] } (.hard set)).hif.finished = v.hif.finished ++ [d] ∧ d.status = 0 := by
  have heq := State.testAdmin_eq hp nameTestHard h (fun s c =>
      let set := set % 65536
      let s := (s.liveOf set).foldl (fun s n => s.secretClear n) s
      let r := s.hardTest 1 ((s.liveOf set).foldl (fun a n => a + 2 ^ n) 0) s.time []
      let s := r.1.firnLost set
      let s := r.2.2.eraseDups.foldl (fun s n => s.regionOut n 0x0405) s
      s.finishLater c.src (testStatus r.2.1.code) r.2.1.code r.2.1.id)
  intro c v
  rw [show u.conTest { wrLow := w, found := [] } (.hard set) = _ from heq]
  dsimp only
  generalize hx : (v.liveOf (set % 65536)).foldl (fun s n => s.secretClear n) v = x
  have hxv : x.voiceHif = v.voiceHif := by
    rw [← hx]
    exact foldl_kept State.voiceHif (fun y n _ => y.secretClear_voiceHif n) v
  obtain ⟨hkeep, hcode, hnone⟩ := x.hardTest_none 1 ((x.liveOf (set % 65536)).foldl (fun a n => a + 2 ^ n) 0) x.time
  rw [hcode, hnone]
  exact State.finishLater_ends (((State.firnLost_voiceHif _ _).trans hkeep).trans hxv) _ _ _

/-! ## The obligation, group by group -/

theorem completes_meter {rail : BitVec 16} (hcold : s.mode ≠ .cold) (hlatched : s.latched = false) {P : State → Prop} (hP : P (s.meterShown rail)) :
    Completes (.meterUpdate rail) s P := ⟨_, meterUpdate_on rail hcold hlatched, hP⟩

theorem State.meterShown_clip (s : State) (rail : BitVec 16) {n : Nat} (h : s.meterMv rail.toNat = n) :
    (s.meterShown rail).get F.SUP_MTR_STS_out_mv = min 2500 n := by
  have heq := s.meterPin_eq rail
  rw [State.meterShown_mv]
  omega

theorem meterUpdate_clauses (rail : BitVec 16) (s : State) :
    (s.mode = .cold ∨ s.latched = true → Completes (.meterUpdate rail) s (fun t => t.get F.SUP_MTR_STS_out_mv = 0 ∧ t.get F.SUP_MTR_STS_code = 0)) ∧
    (s.mode ≠ .cold → s.latched = false →
      (s.get F.SUP_MTR_CTL_src = 0 → Completes (.meterUpdate rail) s (fun t => t.get F.SUP_MTR_STS_code = s.statusCode ∧
        t.get F.SUP_MTR_STS_out_mv = 100 * s.statusCode)) ∧
      (s.get F.SUP_MTR_CTL_src = 1 → Completes (.meterUpdate rail) s (fun t => t.get F.SUP_MTR_STS_out_mv = min 2500 (s.get F.PWR_VIN_vin / 20))) ∧
      (s.get F.SUP_MTR_CTL_src = 2 → s.get F.SUP_MTR_CTL_index < 5 → Completes (.meterUpdate rail) s (fun t =>
        t.get F.SUP_MTR_STS_out_mv = min 2500 (rail.toNat / 4))) ∧
      (s.get F.SUP_MTR_CTL_src = 4 → Completes (.meterUpdate rail) s (fun t =>
        (t.get F.SUP_MTR_STS_out_mv : Int) = max 0 (min 2500 (500 + 10 * s.getS F.PWR_TEMP_tj_max)))) ∧
      (∀ i, s.get F.SUP_MTR_CTL_src = 7 → s.get F.SUP_MTR_CTL_index = i → s.get (F.LANE_EYE_valid i) = 0 → Completes (.meterUpdate rail) s (fun t =>
        t.get F.SUP_MTR_STS_out_mv = 0))) ∧
    (∀ src, s.get F.SUP_MTR_CTL_src = src → Completes (.meterUpdate rail) s (fun t => t.get F.SUP_MTR_CTL_src = src ∧ t.mode = s.mode)) := by
  refine ⟨fun h => ⟨_, meterUpdate_off rail h, ?_, State.get_put_lit _ rfl⟩, fun hcold hlatched => ⟨fun hsrc => completes_meter hcold hlatched ?_,
    fun hsrc => completes_meter hcold hlatched (State.meterShown_clip s rail ?_),
    fun hsrc hi => completes_meter hcold hlatched (State.meterShown_clip s rail ?_), fun hsrc => completes_meter hcold hlatched ?_,
    fun i hsrc hi heye => completes_meter hcold hlatched ((State.meterShown_clip s rail (n := 0) ?_).trans (Nat.min_zero _))⟩, fun src hsrc => ?_⟩
  · rw [State.get_put_apart _ _ rfl]
    exact State.get_put_lit _ rfl
  · have hmv : s.meterMv rail.toNat = (100 * s.statusCode : Nat) := by
      unfold State.meterMv
      rw [hsrc]
      rfl
    have hpin : s.meterPin rail = 100 * s.statusCode := by
      have heq := s.meterPin_eq rail
      have hle := s.statusCode_le
      omega
    have hle := s.statusCode_le
    refine ⟨?_, (s.meterShown_mv rail).trans hpin⟩
    unfold State.meterShown
    rw [hsrc, hpin, if_neg (by decide), Nat.mul_div_cancel_left _ (by decide)]
    exact State.get_put_lt _ rfl (Nat.lt_of_le_of_lt hle (by decide))
  · unfold State.meterMv
    rw [hsrc]
    rfl
  · unfold State.meterMv
    rw [hsrc]
    exact if_pos hi
  · rw [State.meterShown_mv, State.meterPin_eq]
    unfold State.meterMv
    rw [hsrc]
    rfl
  · unfold State.meterMv
    rw [hsrc, hi]
    exact if_neg (fun h => by simp [State.on, heye] at h)
  · by_cases hoff : s.mode = .cold ∨ s.latched = true
    · exact ⟨_, meterUpdate_off rail hoff, by rw [State.get_put_apart _ _ rfl, State.get_put_apart _ _ rfl]; exact hsrc, rfl⟩
    · simp only [not_or, Bool.not_eq_true] at hoff
      exact completes_meter hoff.1 hoff.2 ⟨by rw [State.meterShown, State.get_put_apart _ _ rfl, State.get_put_apart _ _ rfl]; exact hsrc, rfl⟩

/-- A source is sound where its measurement is valid and no fault bit stands. -/
theorem State.Prompts.sourceSound (hp : s.Prompts u) (n : Nat) :
    (u.on (F.CAD_SRC_STS_valid n) && (srcFaults n).all (fun f => ! u.on f)) =
      (s.on (F.CAD_SRC_STS_valid n) && (srcFaults n).all (fun f => ! s.on f)) := by
  have hon (f : RF) (h : f.off = R.CAD_SRC_STS n) : u.on f = s.on f := hp.on f (h ▸ svc_ne (by decide))
  have hall : ∀ f ∈ srcFaults n, f.off = R.CAD_SRC_STS n := by
    intro f hf
    simp only [srcFaults, List.mem_cons, List.not_mem_nil, or_false] at hf
    rcases hf with rfl | rfl | rfl | rfl | rfl | rfl | rfl <;> rfl
  have hfaults : (srcFaults n).all (fun f => ! u.on f) = (srcFaults n).all (fun f => ! s.on f) := by
    rw [Bool.eq_iff_iff, List.all_eq_true, List.all_eq_true]
    exact forall₂_congr fun f hf => by rw [hon f (hall f hf)]
  rw [hon _ rfl, hfaults]

theorem State.Prompts.padsSound (hp : s.Prompts u) (n : Nat) :
    (u.on (F.BANK_CFG_vio_ok (n / 6)) && (List.range 8).all (fun p => ! u.on (F.SPK_PAD_short n p))) =
      (s.on (F.BANK_CFG_vio_ok (n / 6)) && (List.range 8).all (fun p => ! s.on (F.SPK_PAD_short n p))) := by
  have hpad : (fun p => ! u.on (F.SPK_PAD_short n p)) = (fun p => ! s.on (F.SPK_PAD_short n p)) := by
    funext p
    rw [hp.on (F.SPK_PAD_short n p) (svc_ne (Nat.lt_add_right _ (by decide)))]
  rw [hpad, hp.on _ (svc_ne (by decide))]

theorem State.Prompts.rd_base (hp : s.Prompts u) {a b : Nat} (h : R.SUP_SVC_STS < a) : u.rd (a + b) = s.rd (a + b) := hp.rd _ (svc_ne h)

/-- The tests that are over at once (Table 17.4). -/
theorem instantTest_clauses (w : Bool) (s : State) (h : s.atPrompt) :
    let w32 (r : Nat) : Nat := (s.rd r).toNat
    Completes (.testSup w) s (fun t => s.testedNow t (s.on F.SUP_MODE_twin_ok) [w32 R.SUP_MODE]) ∧
    Completes (.testFuse w) s (fun t => t.con.result = (if s.fuses.readGood then 23 else 24) ∧ t.fab = s.fab ∧
      s.printedFirst t [.values [w32 R.SEC_FUSE_STS]]) ∧
    (s.mode ≠ .load → Completes (.testSm w) s (fun t => s.testedNow t ((s.dirCopy 0).isSome && (s.dirCopy 1).isSome && (s.settingsRecord 0).isSome && (s.settingsRecord 1).isSome &&
      s.mapView.ok) [w32 R.LDR_STS, w32 R.FLT_MOR_STS])) ∧
    (s.mode ≠ .supervise → Completes (.testPll w) s (fun t => s.testedNow t (s.on F.CAD_STS_pll_lock && ! s.on F.CAD_STS_pll_lost) [w32 R.CAD_STS])) ∧
    (s.running = true → Completes (.testScrub w) s (fun t => s.testedNow t (s.allScrubbed && ! s.on F.GRM_STS_overrun && ! s.on F.GRM_MBU_unrepairable) [w32 R.GRM_STS, w32 R.GRM_MBU])) ∧
    (∀ k, k < 8 → s.running = true → Completes (.testLs k w) s (fun t => s.testedNow t (s.on (F.FLT_LS_STS_comparing k) && ! s.on (F.FLT_LS_STS_mismatch k) &&
      ! s.on (F.FLT_LS_STS_lag k) && ! s.on (F.FLT_LS_STS_broken k)) [w32 (R.FLT_LS_STS k)])) ∧
    (∀ n, n < 4 → s.running = true ∨ s.mode = .hold → Completes (.testSrc n w) s (fun t => s.testedNow t (s.on (F.CAD_SRC_STS_valid n) && (srcFaults n).all (fun f => ! s.on f)) [w32 (R.CAD_SRC_STS n)])) ∧
    (∀ u, u < 48 → Completes (.testPad u w) s (fun t => s.testedNow t (s.on (F.BANK_CFG_vio_ok (u / 6)) && (List.range 8).all (fun p => ! s.on (F.SPK_PAD_short u p))) (w32 (R.BANK_CFG (u / 6)) :: (List.range 8).map (fun p => w32 (R.SPK_PAD u p))))) ∧
    Completes (.testPcie w) s (fun t => s.testedNow t (s.on F.HIF_STS_link_up && s.get F.HIF_STS_width == 8 && s.get F.HIF_STS_speed == 4) [w32 R.HIF_STS]) ∧
    (∀ p, p < 4 → s.portUp p = false → Completes (.testPel p w) s (fun t => s.testedNow t false [w32 (R.PEL_PSTS p)])) ∧
    Completes (.testSpare w) s (fun t => s.testedNow t s.poolsBare.isEmpty (s.poolsBare.map (fun p => p.1 * 256 + p.2))) := by
  have hp := s.conValid_prompts w
  have hlive := h.1
  have hnow (good : Bool) (vs : List Nat) : s.testedNow ((s.conValid w).testNow good vs) good vs := hp.tested hlive rfl good vs
  dsimp only
  refine ⟨completes_test rfl h ?_, completes_test rfl h ?_, fun hm => completes_test rfl h ?_, fun hm => completes_test rfl h ?_,
    fun hr => completes_test rfl h ?_, fun k hk hr => completes_test rfl h ?_, fun n hn hr => completes_test rfl h ?_,
    fun u hu => completes_test rfl h ?_, completes_test rfl h ?_, fun p hlt hup => completes_test rfl h ?_, completes_test rfl h ?_⟩
  · rw [← hp.on F.SUP_MODE_twin_ok (by decide), ← hp.rd R.SUP_MODE (by decide)]
    exact hnow _ _
  · rw [← hp.rd R.SEC_FUSE_STS (by decide), ← hp.fuses, ← hp.fab]
    have hl := hp.live hlive
    have hpr := State.print_prompts (s.conValid w) [.values [((s.conValid w).rd R.SEC_FUSE_STS).toNat]]
    obtain ⟨-, hres, hfab, hout⟩ := State.testNow_tested (hpr.live hl) rfl rfl (s.conValid w).fuses.readGood []
    refine ⟨hres, hfab.trans hpr.fab, if (s.conValid w).fuses.readGood then [.ok] else [.values [], .ok], hout.trans ?_⟩
    rw [State.print_con hl]
    rfl
  · have hmode : ((s.conValid w).mode != .load) = true := by rw [hp.mode]; simpa using hm
    rw [← hp.dirCopy, ← hp.dirCopy, ← hp.settingsRecord, ← hp.settingsRecord, ← hp.mapView, ← hp.rd R.LDR_STS (by decide),
      ← hp.rd R.FLT_MOR_STS (by decide)]
    exact (congrArg (fun t => s.testedNow t _ _) (if_pos hmode)).mpr (hnow _ _)
  · have hmode : ((s.conValid w).mode != .supervise) = true := by rw [hp.mode]; simpa using hm
    rw [← hp.on F.CAD_STS_pll_lock (by decide), ← hp.on F.CAD_STS_pll_lost (by decide), ← hp.rd R.CAD_STS (by decide)]
    exact (congrArg (fun t => s.testedNow t _ _) (if_pos hmode)).mpr (hnow _ _)
  · have hmode : (s.conValid w).running = true := hp.running.trans hr
    rw [← hp.allScrubbed, ← hp.on F.GRM_STS_overrun (by decide), ← hp.on F.GRM_MBU_unrepairable (by decide), ← hp.rd R.GRM_STS (by decide),
      ← hp.rd R.GRM_MBU (by decide)]
    exact (congrArg (fun t => s.testedNow t _ _) (if_pos hmode)).mpr (hnow _ _)
  · have hmode : (s.conValid w).running = true := hp.running.trans hr
    have hon (f : RF) (hf : f.off = R.FLT_LS_STS k) : (s.conValid w).on f = s.on f := hp.on f (hf ▸ svc_ne (by decide))
    rw [← hon (F.FLT_LS_STS_comparing k) rfl, ← hon (F.FLT_LS_STS_mismatch k) rfl, ← hon (F.FLT_LS_STS_lag k) rfl,
      ← hon (F.FLT_LS_STS_broken k) rfl, ← hp.rd (R.FLT_LS_STS k) (svc_ne (by decide))]
    exact (congrArg (fun t => s.testedNow t _ _) ((if_pos (decide_eq_true hk)).trans (if_pos hmode))).mpr (hnow _ _)
  · have hmode : ((s.conValid w).running || (s.conValid w).mode == .hold) = true := by
      rw [hp.running, hp.mode]
      simpa using hr
    rw [← hp.sourceSound, ← hp.rd (R.CAD_SRC_STS n) (svc_ne (by decide))]
    exact (congrArg (fun t => s.testedNow t _ _) ((if_pos (decide_eq_true hn)).trans (if_pos hmode))).mpr (hnow _ _)
  · have hpads : (List.range 8).map (fun p => (s.rd (R.SPK_PAD u p)).toNat) = (List.range 8).map (fun p => ((s.conValid w).rd (R.SPK_PAD u p)).toNat) :=
      List.map_congr_left fun p _ => by rw [hp.rd (R.SPK_PAD u p) (svc_ne (Nat.lt_add_right _ (by decide)))]
    rw [← hp.padsSound, hpads, ← hp.rd (R.BANK_CFG (u / 6)) (svc_ne (by decide))]
    exact (congrArg (fun t => s.testedNow t _ _) (if_pos (decide_eq_true hu))).mpr (hnow _ _)
  · rw [← hp.on F.HIF_STS_link_up (by decide), ← hp.get F.HIF_STS_width (by decide), ← hp.get F.HIF_STS_speed (by decide), ← hp.rd R.HIF_STS (by decide)]
    exact hnow _ _
  · have hdown : (! (s.conValid w).portUp p) = true := by rw [hp.portUp, hup]; rfl
    rw [← hp.rd (R.PEL_PSTS p) (svc_ne (by decide))]
    exact (congrArg (fun t => s.testedNow t _ _) ((if_pos (decide_eq_true hlt)).trans (if_pos hdown))).mpr (hnow _ _)
  · rw [← hp.poolsBare]
    exact hnow _ _

theorem State.pullTest_closed (s : State) (p : Nat) {isOpen : Bool} (h : s.get (F.PIN_CFG_owt_en p) = 0 ∨ isOpen = false) :
    s.pullTest p isOpen = { s with pins := { s.pins with lastOpen := s.pins.lastOpen &&& ~~~ BitVec.ofNat 64 (2 ^ p) } } := by
  unfold State.pullTest
  dsimp only
  refine if_pos ?_
  rcases h with h | h
  · simp [State.on, h]
  · simp [h]

theorem testOwt_clauses (w : Bool) (s : State) (h : s.atPrompt) (p : Fin 64) :
    (s.get (F.PIN_CFG_owt_en p) = 0 → Completes (.testOwt p true w) s (fun t => t.con.result = 24 ∧
      s.printedFirst t [.values [(s.rd (R.PIN_CFG p)).toNat]])) ∧
    Completes (.testOwt p false w) s (fun t => t.con.result = 23 ∧ s.printed t [.ok] ∧ t.pins.lastOpen.getLsbD p = false) := by
  have hp := s.conValid_prompts w
  have hl := hp.live h.1
  have hpin : R.SUP_SVC_STS ≠ (F.PIN_CFG_owt_en p).off := svc_ne (by decide)
  refine ⟨fun howt => completes_test rfl h ?_, completes_test rfl h ?_⟩
  · rw [← hp.rd (R.PIN_CFG p) hpin]
    have hpull := (s.conValid w).pullTest_closed p (isOpen := true) (Or.inl ((hp.get _ hpin).trans howt))
    obtain ⟨-, hres, -, hout⟩ := State.testNow_tested (s := (s.conValid w).pullTest p true) (u := (s.conValid w).pullTest p true) (hpull ▸ hl) rfl rfl
      false [((s.conValid w).rd (R.PIN_CFG p)).toNat]
    rw [hpull] at hres hout
    refine ⟨(congrArg (fun v => (State.testNow v _ _).con.result) hpull).trans hres, [.ok], ?_⟩
    refine (congrArg (fun v => (State.testNow v _ _).con.out) hpull).trans (hout.trans ?_)
    simp only [Bool.false_eq_true, if_false, List.append_assoc, List.cons_append, List.nil_append]
    rfl
  · have hpull := (s.conValid w).pullTest_closed p (isOpen := false) (Or.inr rfl)
    have htest := State.testNow_tested (s := (s.conValid w).pullTest p false) (u := (s.conValid w).pullTest p false) (hpull ▸ hl) rfl rfl
      true [((s.conValid w).rd (R.PIN_CFG p)).toNat]
    obtain ⟨-, hres, -, hout⟩ := htest
    refine ⟨hres, hout.trans ?_, ?_⟩
    · rw [hpull]
      rfl
    · show (((s.conValid w).pullTest p false).testNow true _).pins.lastOpen.getLsbD p = false
      unfold State.testNow
      rw [(State.print_prompts _ _).pins]
      show ((s.conValid w).pullTest p false).pins.lastOpen.getLsbD p = false
      rw [hpull]
      show (_ &&& ~~~ BitVec.ofNat 64 (2 ^ (p : Nat))).getLsbD p = false
      rw [BitVec.getLsbD_and, BitVec.getLsbD_not, BitVec.getLsbD_ofNat, Nat.testBit_two_pow_self, decide_eq_true p.isLt]
      exact Bool.and_false _

/-- Tests that the mode or their argument refuses. -/
theorem refusedTest_clauses (w : Bool) (s : State) (h : s.atPrompt) :
    (∀ i ∈ [Instr.testPll w, .testScrub w, .testLs 0 w, .testSrc 0 w], s.mode = .supervise → Completes i s (fun t => s.printed t [.err 3])) ∧
    (∀ i ∈ [Instr.testLs 8 w, .testSrc 4 w, .testPad 48 w, .testLane 60 w, .testPel 4 w], Completes i s (fun t => s.printed t [.err 2])) := by
  have hp := s.conValid_prompts w
  have herr (code : Nat) : s.printed ((s.conValid w).print [.err code]) [.err code] := hp.printed_ok h.1 rfl _
  have hmode (b : Bool) (hb : b = false) (f : State → State) : s.printed ((s.conValid w).testMode b f) [.err 3] := by
    rw [hb]
    exact herr 3
  refine ⟨fun i hi hsup => ?_, fun i hi => ?_⟩
  · have hm : (s.conValid w).mode = .supervise := hp.mode.trans hsup
    have hrun : (s.conValid w).running = false := by simp [State.running, hm]
    have hls (f : State → State) : s.printed ((s.conValid w).testArg true fun v => v.testMode v.running f) [.err 3] := hmode _ hrun f
    have hsrc (f : State → State) : s.printed ((s.conValid w).testArg true fun v => v.testMode (v.running || v.mode == .hold) f) [.err 3] :=
      hmode _ (by rw [hrun, hm]; rfl) f
    simp only [List.mem_cons, List.not_mem_nil, or_false] at hi
    rcases hi with rfl | rfl | rfl | rfl
    · refine completes_test rfl h ?_
      exact hmode ((s.conValid w).mode != .supervise) (by rw [hm]; rfl) _
    · refine completes_test rfl h ?_
      exact hmode _ hrun _
    · refine completes_test rfl h ?_
      exact hls _
    · refine completes_test rfl h ?_
      exact hsrc _
  · simp only [List.mem_cons, List.not_mem_nil, or_false] at hi
    rcases hi with rfl | rfl | rfl | rfl | rfl <;> refine completes_test rfl h ?_ <;> exact herr 2

/-- The command of TEST BIST. -/
def bistTestCmd : AdminCmd := ⟨.console nameTestBist, plainDesc 0x30 0 0 0 0⟩

/-- The tests of more than 1 ms (R488). -/
theorem longTest_clauses (w : Bool) (s : State) (h : s.atPrompt) :
    (∀ g : Bool, s.mode ≠ .load → Completes (.testImage g w) s (fun t => s.testBegan t ⟨testImage, if g then 1 else 0, 0, 0⟩)) ∧
    (∀ n, n < 60 → s.laneState n = 9 → Completes (.testLane n w) s (fun t => s.testBegan t ⟨testLane, n, s.get (F.LANE_ERR_code_err n), 0⟩)) ∧
    (∀ p, p < 4 → s.portUp p = true → Completes (.testPel p w) s (fun t => s.testBegan t ⟨testPel, p, s.get (F.PEL_ERR_hop_crc p), s.get (F.PEL_ERR_stomped p)⟩)) ∧
    ((s.firstCheck false (plainDesc 0x30 0 0 0 0)).1 = 0 → (List.range 64).any s.groupTestable = true → Completes (.testBist w) s (fun t =>
      t.con.result = 25 ∧ s.printed t [.accepted] ∧ t.flt.bist.full = 1088 ∧ t.flt.bist.planned = 16384)) ∧
    ((s.firstCheck false (plainDesc 0x30 0 0 0 0)).1 = 0 → (List.range 64).any s.groupTestable = false → Completes (.testBist w) s (fun t =>
      t.con.result = 24 ∧ s.printed t [.accepted, .doneOk nameTestBist] ∧ t.flt.bist = s.flt.bist)) ∧
    (∀ set, (s.firstCheck false (plainDesc 0x30 1 set 0 0)).1 = 0 → Completes (.testHard set [] w) s (fun t => t.mode = s.mode ∧ t.con.result = 25 ∧
      s.printedFirst t [.accepted] ∧ ∃ c, t.hif.finished = s.hif.finished ++ [c] ∧ c.status = 0)) := by
  have hp := s.conValid_prompts w
  have hl := hp.live h.1
  have hbist (hcheck : (s.firstCheck false (plainDesc 0x30 0 0 0 0)).1 = 0) :
      (s.conValid w).conTest { wrLow := w } .bist = if ! (List.range 64).any s.groupTestable then
          (s.testGoes w bistTestCmd).complete (.console nameTestBist) 0 4 (match (s.testGoes w bistTestCmd).flt.bist.run with | some t => t.id | none => 0)
        else (s.testGoes w bistTestCmd).setBist { (s.testGoes w bistTestCmd).flt.bist with full := 1088, fullCode := 0, planned := 16384 } := by
    rw [← s.testGoes_testable w bistTestCmd]
    exact State.testAdmin_eq hp nameTestBist hcheck (fun s c =>
      if ! (List.range 64).any s.groupTestable then s.complete c.src 0 4 (match s.flt.bist.run with | some t => t.id | none => 0)
      else s.setBist { s.flt.bist with full := 1088, fullCode := 0, planned := 16384 })
  refine ⟨fun g hm => completes_test rfl h ?_, fun n hn hst => completes_test rfl h ?_, fun p hlt hup => completes_test rfl h ?_,
    fun hcheck hany => completes_test rfl h ?_, fun hcheck hany => completes_test rfl h ?_, fun set hcheck => completes_test rfl h ?_⟩
  · have hmode : ((s.conValid w).mode != .load) = true := by rw [hp.mode]; simpa using hm
    exact (congrArg (fun t => s.testBegan t _) (if_pos hmode)).mpr (State.testLong_began hl ⟨rfl, rfl⟩ _)
  · have hready : ((s.conValid w).laneState n == 9) = true := by
      unfold State.laneState at hst ⊢
      rw [hp.get _ (svc_ne (by decide)), hst]
      rfl
    rw [← hp.get (F.LANE_ERR_code_err n) (svc_ne (by decide))]
    exact (congrArg (fun t => s.testBegan t _) ((if_pos (decide_eq_true hn)).trans (if_pos hready))).mpr (State.testLong_began hl ⟨rfl, rfl⟩ _)
  · have hopen : ¬ (! (s.conValid w).portUp p) = true := by rw [hp.portUp, hup]; decide
    rw [← hp.get (F.PEL_ERR_hop_crc p) (svc_ne (by decide)), ← hp.get (F.PEL_ERR_stomped p) (svc_ne (by decide))]
    refine (congrArg (fun t => s.testBegan t _) ((if_pos (decide_eq_true hlt)).trans (if_neg hopen))).mpr ?_
    have hvoice := (State.ledgerStart_voice ((s.conValid w).put (F.PEL_PCTL_quiesce p) 8) p).trans (State.put_voice _ _ _)
    have hcon := State.voice_con hvoice
    exact State.testLong_began ((State.voice_live hvoice).trans hl) ⟨congrArg Console.out hcon, congrArg Console.tests hcon⟩ _
  · rw [hbist hcheck, if_neg (by rw [hany]; decide)]
    have hcon := State.testGoes_con h.1 w bistTestCmd
    exact ⟨congrArg Console.result hcon, congrArg Console.out hcon, rfl, rfl⟩
  · rw [hbist hcheck, if_pos (by rw [hany]; decide)]
    have hcon := State.testGoes_con h.1 w bistTestCmd
    obtain ⟨hdone, hflt⟩ := State.complete_console (State.testGoes_live h.1 w bistTestCmd) nameTestBist 4
      (match (s.testGoes w bistTestCmd).flt.bist.run with | some t => t.id | none => 0) rfl (by decide)
    obtain ⟨-, hflt', -⟩ := s.testGoes_rest w bistTestCmd
    refine ⟨?_, ?_, ?_⟩
    · exact congrArg Console.result hdone
    · refine (congrArg Console.out hdone).trans ?_
      rw [hcon]
      exact List.append_assoc _ _ _
    · exact congrArg Flt.bist (hflt.trans hflt')
  · obtain ⟨hvoice, d, hfin, hstatus⟩ := State.conTest_hard hp set hcheck w
    have hcon := (State.voice_con hvoice).trans (State.testGoes_con h.1 w ⟨.console nameTestHard, plainDesc 0x30 1 set 0 0⟩)
    obtain ⟨-, -, hmode, hhif⟩ := s.testGoes_rest w ⟨.console nameTestHard, plainDesc 0x30 1 set 0 0⟩
    have hfin0 : (s.testGoes w ⟨.console nameTestHard, plainDesc 0x30 1 set 0 0⟩).hif.finished = s.hif.finished := (congrArg Hif.finished hhif :)
    exact ⟨(congrArg (fun x : Console × Mode × Pwr => x.2.1) hvoice).trans hmode, congrArg Console.result hcon,
      ⟨[], (congrArg Console.out hcon).trans (List.append_nil _).symm⟩, d, hfin.trans (congrArg (· ++ [d]) hfin0), hstatus⟩

/-- The end of the oldest test that still runs (R488, R489). -/
theorem fieldTestEnd_clauses (x : FieldTest) (xs : List FieldTest) (s : State) (hlive : s.conLive = true) :
    (s.con.tests = [] → Completes .fieldTestEnd s (fun t => t = s)) ∧
    (s.con.tests = x :: xs → Completes .fieldTestEnd s (fun t => t.con.tests = xs ∧ t.regs = s.regs ∧
      t.con.result = (if (s.testResult x).1 then 23 else 24) ∧
      s.printed t ((if (s.testResult x).1 then [] else [.values (s.testResult x).2]) ++ [.doneTest x.name (s.testResult x).1]))) := by
  refine ⟨fun h => ?_, fun h => ?_⟩
  · show ∃ t, execFieldTestEnd s = .next t ∧ _
    unfold execFieldTestEnd
    rw [h]
    exact ⟨s, rfl, rfl⟩
  · show ∃ t, execFieldTestEnd s = .next t ∧ _
    unfold execFieldTestEnd
    rw [h]
    refine ⟨_, rfl, ?_⟩
    generalize (if (s.testResult x).1 = true then ([] : List ConOut) else [.values (s.testResult x).2]) ++ [.doneTest x.name (s.testResult x).1] = ls
    have hcon := State.print_con (s := s.setCon { s.con with tests := xs, result := if (s.testResult x).1 then 23 else 24 }) hlive ls
    exact ⟨congrArg Console.tests hcon, State.print_regs _ _, congrArg Console.result hcon, congrArg Console.out hcon⟩

/-- Settles O55: the meter shows its source; each test of Table 17.4 is `testNow`, `testLong` or a command of its own. -/
theorem fieldTestsReportThroughLineAndMeter : Obligations.FieldTestsReportThroughLineAndMeter := by
  unfold Obligations.FieldTestsReportThroughLineAndMeter
  refine ⟨meterUpdate_clauses, fun w s h => ?_, longTest_clauses, fieldTestEnd_clauses⟩
  obtain ⟨hsup, hfuse, hsm, hpll, hscrub, hls, hsrc, hpad, hpcie, hpel, hspare⟩ := instantTest_clauses w s h
  obtain ⟨hmode, harg⟩ := refusedTest_clauses w s h
  exact ⟨hsup, hfuse, hsm, hpll, hscrub, hls, hsrc, hpad, hpcie, hpel, hspare, fun p => (testOwt_clauses w s h p).1,
    fun p => (testOwt_clauses w s h p).2, hmode, harg⟩

end Sys2Proof.Machine
end

section
/-! PROOFS. O49 and O51: an answer to MGMT goes out on a port, and the port then serves what waits at it, so that a late MGMT frame whose turn has
come stands in the queue of MGMT frames when the command is done. -/

namespace Sys2Proof.Machine

/-- A MGMT frame of a type whose access is to SUP_SVC_CFG. -/
def lateMgmtFrame (type : Nat) : PFrame := { dst := 0, src := 0, len := 8, vc := 3, type := type, payload := le 4 R.SUP_SVC_CFG ++ le 4 0 }

/-- A module that runs with port 0 UP, one MGMT frame to take, and another at the port that waits for its turn. -/
def lateMgmt (type : Nat) : State :=
  (({ State.reset with
      mode := .run
      pel := { State.reset.pel with
        mgmt := [(0, lateMgmtFrame type)]
        ports := [(0, { todo := [⟨0, none, [], lateMgmtFrame type⟩] })] } } : State).put F.PEL_ADDR_valid 1).put (F.PEL_PSTS_state 0) 3

/-- Whether a command leaves no MGMT frame to take. -/
def leavesNoMgmt (i : Instr) (s : State) : Bool :=
  match exec i s with
  | .next t => t.pel.mgmt.isEmpty
  | _ => false

theorem leavesNoMgmt_of_completes {i : Instr} {s : State} {P : State → Prop} (h : Completes i s P) (hP : ∀ t, P t → t.pel.mgmt = []) :
    leavesNoMgmt i s = true := by
  obtain ⟨t, hexec, ht⟩ := h
  rw [leavesNoMgmt, hexec]
  simp [hP t ht]

theorem lateMgmt_read : leavesNoMgmt .mgmtRead (lateMgmt 3) = false := by decide +kernel

theorem lateMgmt_write : leavesNoMgmt .mgmtWrite (lateMgmt 4) = false := by decide +kernel

/-- Refutes O51: the answer to a READ lets a late MGMT frame in, so that MGMT frames are left to take. -/
theorem not_readsCaptureTheirCompanions : ¬ Obligations.ReadsCaptureTheirCompanions := by
  unfold Obligations.ReadsCaptureTheirCompanions
  rintro ⟨-, -, -, -, -, hmgmt⟩
  have hread := hmgmt (lateMgmtFrame 3) (lateMgmt 3) (by decide) rfl rfl (by decide) (by decide +kernel) (by decide +kernel) (by decide +kernel)
  exact absurd (leavesNoMgmt_of_completes hread fun t ht => ht.1) (by rw [lateMgmt_read]; decide)

/-- Refutes O49: the answer to a WRITE that mgmt_wr forbids lets a late MGMT frame in, so that MGMT frames are left to take. -/
theorem not_writesFollowTheFieldTypes : ¬ Obligations.WritesFollowTheFieldTypes := by
  unfold Obligations.WritesFollowTheFieldTypes
  rintro ⟨-, -, -, -, -, -, hmgmt⟩
  obtain ⟨r, hr⟩ := Option.isSome_iff_exists.mp (show (regRow? (fieldAt (lateMgmtFrame 4).payload 0 4)).isSome = true by decide +kernel)
  have hwrite := (hmgmt (lateMgmtFrame 4) r (lateMgmt 4) (by decide) rfl rfl (by decide) hr (by decide) (by decide +kernel)).2 (by decide +kernel)
  exact absurd (leavesNoMgmt_of_completes hwrite fun t ht => ht.1) (by rw [lateMgmt_write]; decide)

end Sys2Proof.Machine
end

section
/-! PROOFS. O34: a port that comes UP serves the late frames that wait at it, and the queue that one of them names need not be one of the module's:
the words that it stores are counted where its count would stand. -/

namespace Sys2Proof.Machine

/-- A frame of one word for a queue far beyond the queues there are, whose count lies at PEL_DELAY of port 0. -/
def strayFrame : LateFrame := ⟨0, some 0x780, [(0, 0)], { dst := 0, src := 0, len := 0, vc := 1, type := 0 }⟩

/-- Port 0 enabled and in INIT with the partner's INIT received, that frame waiting, no credits split, and PEL_DELAY one below its valid bit. -/
def strayPort : State :=
  (((({ State.reset with mode := .run, pel := { State.reset.pel with ports := [(0, { gotInit := true, todo := [strayFrame] })] } } : State).put
    (F.PEL_PCTL_enable 0) 1).put (F.PEL_PSTS_state 0) 2).wr (R.PEL_CRSPLIT 0) 0).wr (R.PEL_DELAY 0) 0x7FFFFFFF

theorem strayPort_delay : (match exec (.initBlockSend 0) strayPort with
    | .next t => t.get (F.PEL_DELAY_valid 0)
    | _ => 0) = 1 := by decide +kernel

/-- Refutes O34: the port is UP, and PEL_DELAY reads valid with no delay measured. -/
theorem not_portsComeUpAndAreFlushed : ¬ Obligations.PortsComeUpAndAreFlushed := by
  unfold Obligations.PortsComeUpAndAreFlushed
  rintro ⟨-, -, hinit, -⟩
  obtain ⟨t, hexec, -, hvalid⟩ := (hinit 0 strayPort (by decide +kernel)).1 rfl
  have hone := strayPort_delay
  rw [hexec] at hone
  exact absurd (hvalid.symm.trans hone) (by decide)

end Sys2Proof.Machine
end

section
/-! PROOFS. O31: the lane that leaves PLL can bring its port to INIT, which serves the late frames of the other ports; a frame that names a queue beyond
those there are is counted where the count of that queue would stand, and there the status of the group lies. -/

namespace Sys2Proof.Machine

/-- A frame of one word for a queue far beyond the queues there are, whose count lies at GRP_STS of group 2. -/
def strayGroupFrame : LateFrame := ⟨0, some 0x688, [(0, 0)], { dst := 0, src := 0, len := 0, vc := 1, type := 0 }⟩

/-- Group 2 with its four lanes READY and its spare in PLL, port 0 in TRAIN, and that frame waiting at port 1. -/
def strayGroup : State :=
  let s := (((({ State.reset with
    mode := .run, units := 0x7FF, pel := { State.reset.pel with ports := [(1, { todo := [strayGroupFrame] })] } } : State).put
      (F.PEL_PCTL_enable 0) 1).put (F.PEL_PSTS_state 0) 1).put (F.GRP_CTL_enable 2) 1).wr (R.GRP_MAP 2) 0x4688
  let s := (((s.wr (R.LANE_STS 10) 0x09).wr (R.LANE_STS 11) 0x19).wr (R.LANE_STS 12) 0x29).wr (R.LANE_STS 13) 0x39
  (s.wr (R.LANE_STS 14) 0x41).put (F.LANE_CTL_enable 14) 1

theorem strayGroup_lock : (match exec (.groupPllLock 2) strayGroup with
    | .next t => t.get (F.GRP_STS_pll_lock 2)
    | _ => 1) = 0 := by decide +kernel

/-- Refutes O31: the PLL of the group has locked, and its status reads no lock. -/
theorem not_lanesRunThroughBringUp : ¬ Obligations.LanesRunThroughBringUp := by
  unfold Obligations.LanesRunThroughBringUp
  rintro ⟨-, -, -, -, -, -, -, hlock, -⟩
  obtain ⟨t, hexec, hone, -⟩ := hlock 2 strayGroup (by decide) (fun h => absurd h (by decide))
  have hzero := strayGroup_lock
  rw [hexec] at hzero
  exact absurd (hone.symm.trans hzero) (by decide)

end Sys2Proof.Machine
end

section
/-! SUPPORT. Reads of registers (R515, R522): what a read at an offset below the pages of the units does. -/

namespace Sys2Proof.Machine

variable {s t u : State}

/-- A register of the system pages that is no first half of a pair and of which nothing has been captured reads as it stands. -/
theorem State.regRead_plain (s : State) (p : Path) {off : Nat} (hoff : off < 0x10000) (hreg : (regRow? off).isSome = true)
    (hpair : pairLow.contains off = false) (hcap : s.capOf p off = none) : s.regRead p off = { s with readData := s.rd off } := by
  have hwdg : s.wdgRead off = s := by
    unfold State.wdgRead
    dsimp only
    rw [if_neg]
    simp only [within, Bool.and_eq_true, decide_eq_true_eq]
    omega
  have hbist : s.bistRead off = s := by
    unfold State.bistRead
    rw [if_pos (Or.inl (Nat.ne_of_lt (Nat.lt_of_lt_of_le hoff (by decide))))]
  have hpin : s.pinRead off = s := by
    unfold State.pinRead
    rw [List.find?_eq_none.mpr fun x _ => ?_]
    have hne : off ≠ R.PIN_IN x := Nat.ne_of_lt (Nat.lt_of_lt_of_le hoff (Nat.le_add_right_of_le (by decide)))
    simpa using hne
  have hring : s.ringRead off = s := by
    unfold State.ringRead
    rw [if_neg (fun h => ?_)]
    rcases h with h | h <;> rw [h] at hoff <;> exact absurd hoff (by decide)
  have hang : (List.range 8).find? (fun k => off == R.CAD_TRK_ANG k) = none := by
    refine List.find?_eq_none.mpr fun k _ => ?_
    have hne : off ≠ R.CAD_TRK_ANG k := Nat.ne_of_lt (Nat.lt_of_lt_of_le hoff (Nat.le_add_right_of_le (by decide)))
    simpa using hne
  have hper : (List.range 2).find? (fun k => off == R.SSI_POS k || off == R.UART_RX k || off == R.SPI_RX k || off == R.I2C_RX k) = none := by
    refine List.find?_eq_none.mpr fun k _ => ?_
    have hssi : off ≠ R.SSI_POS k := Nat.ne_of_lt (Nat.lt_of_lt_of_le hoff (Nat.le_add_right_of_le (by decide)))
    have huart : off ≠ R.UART_RX k := Nat.ne_of_lt (Nat.lt_of_lt_of_le hoff (Nat.le_add_right_of_le (by decide)))
    have hspi : off ≠ R.SPI_RX k := Nat.ne_of_lt (Nat.lt_of_lt_of_le hoff (Nat.le_add_right_of_le (by decide)))
    have hi2c : off ≠ R.I2C_RX k := Nat.ne_of_lt (Nat.lt_of_lt_of_le hoff (Nat.le_add_right_of_le (by decide)))
    simp [hssi, huart, hspi, hi2c]
  have hlive : s.regLive off = s.rd off := by
    unfold State.regLive
    rw [if_neg]
    simp only [within, Bool.and_eq_true, decide_eq_true_eq]
    omega
  have hnone : (regRow? off).isNone = false := by
    rw [← Option.not_isSome, hreg]
    rfl
  unfold State.regRead
  rw [hwdg, hbist, hpin, hring]
  dsimp only
  rw [hnone, hpair, hang, hper, hcap, hlive]
  rfl

/-- RD of such a register prints its value (Table 17.1). -/
theorem State.access_read_plain (hcold : s.mode ≠ .cold) {off : Nat} (hoff : off < 0x10000) (hreg : (regRow? off).isSome = true)
    (hpair : pairLow.contains off = false) (hcap : s.capOf .console off = none) :
    s.access ⟨.console, off, none, some 0⟩ = ({ s with readData := s.rd off } : State).print [.values [(s.rd off).toNat], .ok] := by
  have hdom : domainOf off = none := by
    unfold domainOf within
    simp only [Bool.and_eq_true, decide_eq_true_eq]
    repeat rw [if_neg (by omega)]
  unfold State.access
  rw [if_neg hcold]
  dsimp only
  rw [hdom]
  dsimp only
  rw [if_neg (fun h => absurd h.2.1 (by decide))]
  unfold State.accessDo
  dsimp only
  rw [s.regRead_plain .console hoff hreg hpair hcap]
  rfl

end Sys2Proof.Machine
end

section
/-! PROOFS. O52: the lines of the console and its readouts. -/

namespace Sys2Proof.Machine

variable {s t u : State}

section
variable (hp : s.Prompts u)
include hp

theorem State.Prompts.statusCode : u.statusCode = s.statusCode := by
  unfold State.statusCode
  rw [hp.get F.SUP_MODE_missing (by decide), hp.get F.SUP_MODE_hold_cause (by decide), hp.mode, hp.latched]

theorem State.Prompts.statusValues : u.statusValues = s.statusValues := by
  unfold State.statusValues
  rw [hp.get F.SUP_MODE_mode (by decide), hp.get F.SUP_MODE_missing (by decide), hp.rd R.LDR_ERR (by decide), hp.rd R.PWR_STS (by decide),
    hp.statusCode, List.map_congr_left fun n _ => hp.regionState n]

theorem State.Prompts.spareValues : u.spareValues = s.spareValues := by
  unfold State.spareValues
  simp only [hp.poolCounts]

theorem State.Prompts.mapBytesInUse : u.mapBytesInUse = s.mapBytesInUse := by
  unfold State.mapBytesInUse
  simp only [hp.mapView, hp.mapAt, hp.norRead]

theorem State.Prompts.pinLevel (p : Nat) : u.pinLevel p = s.pinLevel p := by
  unfold State.pinLevel
  rw [hp.get _ (svc_ne (by decide))]

end

/-- A command at the prompt that the strap does not guard. -/
theorem completes_conRun {i : Instr} {env : ConEnv} {c : ConCmd} (hexec : exec i s = .next (s.conRun env [] c)) (h : s.atPrompt)
    (hw : c.isW = false) (hc : ∀ v, c ≠ .confirm v) {P : State → Prop} (hP : P ((s.conValid env.wrLow).conDo env [] c)) : Completes i s P :=
  ⟨_, hexec, (State.conRun_prompt h env [] (by rw [hw]; rfl) hc).symm ▸ hP⟩

/-! ## Lines -/

theorem State.conErr_syntax (s : State) (code : Nat) :
    (s.conErr code).get F.SUP_SVC_STS_syntax = if code = 0x80 then min (s.get F.SUP_SVC_STS_syntax + 1) 255 else s.get F.SUP_SVC_STS_syntax := by
  unfold State.conErr
  rw [State.print_get]
  split
  · exact State.get_sat s 1 rfl
  · split
    · exact State.get_sat_apart s 1 rfl
    · rfl

theorem State.conLine_error (h : s.atPrompt) (env : ConEnv) {line : List Byte} {code : Nat} (hline : parseLine line = some (.error code)) :
    s.conLine env line = ((s.conEcho line).putB F.SUP_SVC_STS_wr_en env.wrLow).conErr code := by
  unfold State.conLine
  rw [if_neg (by simp [h.1])]
  dsimp only
  rw [hline]
  unfold State.conBad
  have hfuse : (s.conEcho line).con.fuse = none := by rw [State.conEcho_con h.1]; exact h.2
  exact if_neg (by rw [show ((s.conEcho line).putB F.SUP_SVC_STS_wr_en env.wrLow).con.fuse = none from hfuse]; decide)

theorem conLine_clauses (line : List Byte) (env : ConEnv) (s : State) (h : s.atPrompt) :
    (parseLine line = none → Completes (.consoleLine line env) s (fun t => s.printed t (s.echoed line) ∧ t.regs = s.regs)) ∧
    (∀ code, parseLine line = some (.error code) → Completes (.consoleLine line env) s (fun t => s.printed t (s.echoed line ++ [.err code]) ∧
      t.get F.SUP_SVC_STS_syntax = if code = 0x80 then min (s.get F.SUP_SVC_STS_syntax + 1) 255 else s.get F.SUP_SVC_STS_syntax)) ∧
    (fieldsOf line = [kw ['H', 'E', 'L', 'P']] → line.length ≤ 200 → Completes (.consoleLine line env) s (fun t =>
      s.printed t (s.echoed line ++ [.help, .ok]))) ∧
    (200 < line.length → Completes (.consoleLine line env) s (fun t => s.printed t (s.echoed line ++ [.err 0x80]))) := by
  have he := s.conEcho_prompts line
  have hecon := State.conEcho_con h.1 line
  have herr {code : Nat} (hline : parseLine line = some (.error code)) : s.printed (s.conLine env line) (s.echoed line ++ [.err code]) ∧
      (s.conLine env line).get F.SUP_SVC_STS_syntax =
        if code = 0x80 then min (s.get F.SUP_SVC_STS_syntax + 1) 255 else s.get F.SUP_SVC_STS_syntax := by
    have hput : (s.conEcho line).Prompts ((s.conEcho line).putB F.SUP_SVC_STS_wr_en env.wrLow) := State.put_prompts _ _ rfl
    have hsyntax : ((s.conEcho line).putB F.SUP_SVC_STS_wr_en env.wrLow).get F.SUP_SVC_STS_syntax = s.get F.SUP_SVC_STS_syntax := by
      rw [State.get_putB_apart _ _ rfl]
      unfold State.conEcho
      split
      · exact State.print_get _ _
      · rfl
    rw [State.conLine_error h env hline, State.conErr_syntax, hsyntax]
    refine ⟨?_, rfl⟩
    unfold State.printed
    rw [State.conErr_con (hput.live (he.live h.1)), ← List.append_assoc]
    exact congrArg (· ++ [ConOut.err code]) (congrArg Console.out hecon)
  refine ⟨fun hline => ⟨_, rfl, ?_⟩, fun code hline => ⟨_, rfl, herr hline⟩, fun hhelp hlen => ⟨_, rfl, ?_⟩, fun hlen => ⟨_, rfl, (herr ?_).1⟩⟩
  · have heq : s.conLine env line = s.conEcho line := by
      unfold State.conLine
      rw [if_neg (by simp [h.1])]
      dsimp only
      rw [hline]
    rw [heq]
    refine ⟨congrArg Console.out hecon, ?_⟩
    unfold State.conEcho
    split
    · exact State.print_regs _ _
    · rfl
  · have hline : parseLine line = some (.ok .help) := by
      unfold parseLine
      rw [if_neg (by omega), hhelp]
      rfl
    have hprompt : (s.conEcho line).atPrompt := ⟨he.live h.1, by rw [hecon]; exact h.2⟩
    rw [State.conLine_eq h.1 env hline, State.conRun_prompt hprompt env line rfl fun v hc => ConCmd.noConfusion hc]
    refine (congrArg Console.out (State.print_con (((s.conEcho line).conValid_prompts env.wrLow).live (he.live h.1)) _)).trans ?_
    rw [State.conValid_con, hecon]
    exact List.append_assoc _ _ _
  · unfold parseLine
    exact if_pos hlen

/-! ## Detection, break and rate -/

theorem consoleWire_clauses (onTx : Bool) (s : State) (hlive : s.conLive = true) :
    (s.get F.SUP_SVC_STS_detected = 0 → Completes (.consolePinDetect onTx) s (fun t => t.get F.SUP_SVC_STS_detected = 1 ∧
      t.get F.SUP_SVC_STS_swapped = if onTx then 1 else 0)) ∧
    (s.get F.SUP_SVC_STS_detected = 1 → Completes (.consolePinDetect onTx) s (fun t => t = s)) ∧
    Completes .consoleBreak s (fun t => t.get F.SUP_SVC_CFG_rate = 0 ∧ t.get F.SUP_SVC_STS_detected = 0 ∧ t.con.rateChanged = false) := by
  have hexec (onTx : Bool) : exec (.consolePinDetect onTx) s = .next (if s.conLive && ! s.on F.SUP_SVC_STS_detected then
    (s.put F.SUP_SVC_STS_detected 1).putB F.SUP_SVC_STS_swapped onTx else s) := rfl
  refine ⟨fun h => ⟨_, (hexec onTx).trans (congrArg _ (if_pos (by simp [hlive, State.on, h]))), ?_, ?_⟩,
    fun h => ⟨_, (hexec onTx).trans (congrArg _ (if_neg (by simp [State.on, h]))), rfl⟩,
    ⟨(s.baudBack.put F.SUP_SVC_STS_detected 0).put F.SUP_SVC_STS_swapped 0, congrArg (fun u => (.next u : Out)) (if_pos hlive), ?_, ?_, rfl⟩⟩
  · rw [State.get_putB_apart _ _ rfl]
    exact State.get_put_lit _ rfl
  · exact State.get_putB _ _ rfl
  · rw [State.get_put_apart _ _ rfl, State.get_put_apart _ _ rfl]
    exact State.get_put_lit (f := F.SUP_SVC_CFG_rate) s rfl
  · rw [State.get_put_apart _ _ rfl]
    exact State.get_put_lit _ rfl

theorem baudRevert_clauses (s : State) :
    (s.con.rateChanged = true → Completes .baudRevert s (fun t => t.get F.SUP_SVC_CFG_rate = 0)) ∧
    (s.con.rateChanged = false → Completes .baudRevert s (fun t => t = s)) ∧
    Completes .consoleStopOutput s (fun t => t = s) := by
  refine ⟨fun h => ⟨s.baudBack, congrArg (fun u => (.next u : Out)) (if_pos h), State.get_put_lit (f := F.SUP_SVC_CFG_rate) s rfl⟩,
    fun h => ⟨s, congrArg (fun u => (.next u : Out)) (if_neg (by simp [h])), rfl⟩, ⟨s, rfl, rfl⟩⟩

/-! ## Readouts -/

theorem State.conReport_printed (hp : s.Prompts u) (hlive : s.conLive = true) (hout : u.con.out = s.con.out) (bs : List Byte) :
    s.printed (u.conReport bs) [.report bs (crc32c bs), .ok] := hp.printed_ok hlive hout _

theorem readout_clauses (w : Bool) (s : State) (h : s.atPrompt) :
    Completes (.help w) s (fun t => s.printed t [.help, .ok]) ∧
    Completes (.status w) s (fun t => s.printed t [.values s.statusValues, .ok] ∧ t.mode = s.mode) ∧
    (∀ n, Completes (.log n w) s (fun t => s.printed t [.log (s.log.drop (s.log.length - n)), .ok] ∧ t.log = s.log)) ∧
    Completes (.spare w) s (fun t => s.printed t [.values s.spareValues, .ok]) ∧
    (∀ id compat e, s.bistReport compat id = .error e → Completes (.report (.bist id compat) w) s (fun t => s.printed t [.err e.1])) ∧
    (∀ id compat bs, s.bistReport compat id = .ok bs → Completes (.report (.bist id compat) w) s (fun t =>
      s.printed t [.report bs (crc32c bs), .ok])) ∧
    Completes (.report .scrub w) s (fun t => ∃ bs, s.printed t [.report bs (crc32c bs), .ok]) ∧
    Completes (.report .map w) s (fun t => s.printed t [.report s.mapBytesInUse (crc32c s.mapBytesInUse), .ok]) := by
  have hp := s.conValid_prompts w
  have hok (ls : List ConOut) : s.printed ((s.conValid w).print ls) ls := hp.printed_ok h.1 rfl ls
  have hbist (id : Nat) (compat : Bool) : (s.conValid w).bistReport compat id = s.bistReport compat id :=
    hp.view (fun v => v.bistReport compat id) fun _ => rfl
  refine ⟨completes_conRun rfl h rfl (fun v hc => ConCmd.noConfusion hc) ?_, completes_conRun rfl h rfl (fun v hc => ConCmd.noConfusion hc) ?_,
    fun n => completes_conRun rfl h rfl (fun v hc => ConCmd.noConfusion hc) ?_, completes_conRun rfl h rfl (fun v hc => ConCmd.noConfusion hc) ?_,
    fun id compat e he => completes_conRun rfl h rfl (fun v hc => ConCmd.noConfusion hc) ?_,
    fun id compat bs hbs => completes_conRun rfl h rfl (fun v hc => ConCmd.noConfusion hc) ?_,
    completes_conRun rfl h rfl (fun v hc => ConCmd.noConfusion hc) ?_, completes_conRun rfl h rfl (fun v hc => ConCmd.noConfusion hc) ?_⟩
  · exact hok _
  · rw [← hp.statusValues]
    exact ⟨hok _, (hp.trans (State.print_prompts _ _)).mode⟩
  · rw [← hp.log]
    exact ⟨hok _, (State.print_prompts _ _).log⟩
  · rw [← hp.spareValues]
    exact hok _
  · show s.printed (match (s.conValid w).bistReport compat id with
      | .error e => (s.conValid w).conErr e.1
      | .ok bytes => (s.conValid w).conReport bytes) _
    rw [hbist, he]
    exact (hp.printed_err h.1 rfl e.1).1
  · show s.printed (match (s.conValid w).bistReport compat id with
      | .error e => (s.conValid w).conErr e.1
      | .ok bytes => (s.conValid w).conReport bytes) _
    rw [hbist, hbs]
    exact hok _
  · exact ⟨((s.conValid w).scrubReport 65536).1, congrArg Console.out (State.print_con (s := ((s.conValid w).scrubReport 65536).2) (hp.live h.1) _)⟩
  · rw [← hp.mapBytesInUse]
    exact hok _

/-- Settings of the console, of the meter, and readouts of one register. -/
theorem setting_clauses (w : Bool) (s : State) (h : s.atPrompt) :
    (∀ n, Completes (.lane n false w) s (fun t => s.printed t (if n < 60 then
      [.values [(s.rd (R.LANE_STS n)).toNat, (s.rd (R.LANE_EYE n)).toNat, (s.rd (R.LANE_ERR n)).toNat], .ok] else [.err 2]))) ∧
    (∀ p, Completes (.pin p w) s (fun t => s.printed t [.values [(s.rd (R.PIN_CFG p)).toNat, s.pinLevel p], .ok])) ∧
    (∀ src i, i < 64 → Completes (.meter src i w) s (fun t => s.printed t [.ok] ∧ t.get F.SUP_MTR_CTL_src = src.toNat ∧
      t.get F.SUP_MTR_CTL_index = i)) ∧
    (∀ off, off % 4 ≠ 0 ∨ 2 ^ 24 ≤ off → Completes (.rd off w) s (fun t => s.printed t [.err 2])) ∧
    (∀ off, off % 4 = 0 → off < 0x10000 → off ≠ R.SUP_SVC_STS → (regRow? off).isSome = true → pairLow.contains off = false → s.capOf .console off = none →
      Completes (.rd off w) s (fun t => s.printed t [.values [(s.rd off).toNat], .ok] ∧ t.rd off = s.rd off)) ∧
    (∀ rate, bauds.idxOf? rate = none → Completes (.baud rate w) s (fun t => s.printed t [.err 2])) ∧
    (∀ rate i, bauds.idxOf? rate = some i → Completes (.baud rate w) s (fun t => s.printed t [.ok] ∧ t.get F.SUP_SVC_CFG_rate = i ∧
      (s.get F.SUP_SVC_CFG_rate ≠ i → t.con.rateChanged = true))) ∧
    (∀ on : Bool, Completes (.echo on w) s (fun t => s.printed t [.ok] ∧ t.get F.SUP_SVC_CFG_echo = if on then 1 else 0)) ∧
    (∀ on : Bool, Completes (.evt on w) s (fun t => s.printed t [.ok] ∧ t.get F.SUP_SVC_CFG_evt = if on then 1 else 0)) := by
  have hp := s.conValid_prompts w
  have hlive := hp.live h.1
  have hok (ls : List ConOut) : s.printed ((s.conValid w).print ls) ls := hp.printed_ok h.1 rfl ls
  have hset (v : State) (hv : v.conLive = true) (hout : v.con.out = s.con.out) : s.printed (v.print [.ok]) [.ok] :=
    (congrArg Console.out (State.print_con hv _)).trans (congrArg (· ++ [ConOut.ok]) hout)
  refine ⟨fun n => completes_conRun rfl h rfl (fun v hc => ConCmd.noConfusion hc) ?_, fun p => completes_conRun rfl h rfl (fun v hc => ConCmd.noConfusion hc) ?_,
    fun src i hi => completes_conRun rfl h rfl (fun v hc => ConCmd.noConfusion hc) ?_, fun off hoff => completes_conRun rfl h rfl (fun v hc => ConCmd.noConfusion hc) ?_,
    fun off halign hoff hsts hreg hpair hcap => completes_conRun rfl h rfl (fun v hc => ConCmd.noConfusion hc) ?_,
    fun rate hrate => completes_conRun rfl h rfl (fun v hc => ConCmd.noConfusion hc) ?_, fun rate i hrate => completes_conRun rfl h rfl (fun v hc => ConCmd.noConfusion hc) ?_,
    fun on => completes_conRun rfl h rfl (fun v hc => ConCmd.noConfusion hc) ?_, fun on => completes_conRun rfl h rfl (fun v hc => ConCmd.noConfusion hc) ?_⟩
  · show s.printed ((s.conValid w).conLane n false) _
    unfold State.conLane
    by_cases hn : n < 60
    · rw [if_neg (by omega), if_neg (by decide), if_pos hn, ← hp.rd (R.LANE_STS n) (svc_ne (by decide)), ← hp.rd (R.LANE_EYE n) (svc_ne (by decide)),
        ← hp.rd (R.LANE_ERR n) (svc_ne (by decide))]
      exact hok _
    · rw [if_pos (by omega), if_neg hn]
      exact (hp.printed_err h.1 rfl 2).1
  · rw [← hp.rd (R.PIN_CFG p) (svc_ne (by decide)), ← hp.pinLevel]
    exact hok _
  · refine ⟨hset _ hlive rfl, ?_, ?_⟩
    · show ((((s.conValid w).put F.SUP_MTR_CTL_src src.toNat).put F.SUP_MTR_CTL_index i).print [.ok]).get F.SUP_MTR_CTL_src = src.toNat
      rw [State.print_get, State.get_put_apart _ _ rfl]
      exact State.get_put_lt _ rfl src.isLt
    · show ((((s.conValid w).put F.SUP_MTR_CTL_src src.toNat).put F.SUP_MTR_CTL_index i).print [.ok]).get F.SUP_MTR_CTL_index = i
      rw [State.print_get]
      exact State.get_put_lt _ rfl hi
  · show s.printed ((s.conValid w).conAccess off none) _
    unfold State.conAccess
    rw [if_pos hoff]
    exact (hp.printed_err h.1 rfl 2).1
  · show s.printed ((s.conValid w).conAccess off none) _ ∧ ((s.conValid w).conAccess off none).rd off = _
    have hcapv : (s.conValid w).capOf .console off = none := (hp.view (fun v => v.capOf .console off) fun _ => rfl).trans hcap
    unfold State.conAccess
    rw [if_neg (by omega), State.access_read_plain ((State.conLive_iff _).mp hlive).1 hoff hreg hpair hcapv]
    have hl : ({ s.conValid w with readData := (s.conValid w).rd off } : State).conLive = true := hlive
    rw [← hp.rd off (Ne.symm hsts)]
    exact ⟨congrArg Console.out (State.print_con hl _), (State.print_prompts _ _).rd off (Ne.symm hsts)⟩
  · show s.printed ((s.conValid w).conBaud rate) _
    unfold State.conBaud
    rw [hrate]
    exact (hp.printed_err h.1 rfl 2).1
  · show s.printed ((s.conValid w).conBaud rate) _ ∧ ((s.conValid w).conBaud rate).get _ = _ ∧ (_ → ((s.conValid w).conBaud rate).con.rateChanged = true)
    obtain ⟨hlt, -⟩ := List.findIdx?_eq_some_iff_getElem.mp hrate
    rw [← hp.get F.SUP_SVC_CFG_rate (by decide), ← State.print_get (s := s.conValid w) [.ok]]
    have hcon := State.print_con hlive [.ok]
    unfold State.conBaud
    rw [hrate]
    dsimp only
    refine ⟨?_, State.get_put_lt _ rfl (Nat.lt_trans hlt (by decide)), fun hne => ?_⟩
    · split
      · exact congrArg Console.out hcon
      · exact congrArg Console.out hcon
    · rw [if_neg hne]
      rfl
  · refine ⟨hset _ hlive rfl, ?_⟩
    show (((s.conValid w).putB F.SUP_SVC_CFG_echo on).print [.ok]).get F.SUP_SVC_CFG_echo = _
    rw [State.print_get]
    exact State.get_putB _ _ rfl
  · refine ⟨hset _ hlive rfl, ?_⟩
    show (((s.conValid w).putB F.SUP_SVC_CFG_evt on).print [.ok]).get F.SUP_SVC_CFG_evt = _
    rw [State.print_get]
    exact State.get_putB _ _ rfl

/-- Settles O52: a line is echoed and parsed; at the prompt each readout prints what `conDo` reads of the state before the line. -/
theorem consoleLinesAndReadoutsAnswer : Obligations.ConsoleLinesAndReadoutsAnswer := by
  unfold Obligations.ConsoleLinesAndReadoutsAnswer
  refine ⟨conLine_clauses, fun line env s hlive => ⟨_, rfl, if_pos (by simp [hlive])⟩, consoleWire_clauses, baudRevert_clauses, fun w s h => ?_⟩
  obtain ⟨hhelp, hstatus, hlog, hspare, hnoBist, hbist, hscrub, hmap⟩ := readout_clauses w s h
  exact ⟨hhelp, hstatus, hlog, hspare, hnoBist, hbist, hscrub, hmap, setting_clauses w s h⟩

end Sys2Proof.Machine
end

section
/-! SUPPORT. Where a lane stands when it has entered a state (Table 11.2), and what a lane sends (R328). -/

namespace Sys2Proof.Machine

variable {s t u : State}

theorem State.laneItem_regs (s : State) (n : Nat) (it : LaneItem) : (s.laneItem n it).regs = s.regs := rfl

theorem State.laneBlock_regs (s : State) (n : Nat) (ctl : Bool) (w : BitVec 64) : (s.laneBlock n ctl w).regs = s.regs := rfl

theorem State.laneFiller_regs (s : State) (n : Nat) : (s.laneFiller n).regs = s.regs := by
  unfold State.laneFiller
  split <;> rfl

theorem State.laneExit_regs (s : State) (n : Nat) : (s.laneExit n).regs = s.regs := foldl_kept State.regs (fun u _ _ => u.laneFiller_regs n) s

theorem State.laneNotices_regs (s : State) (n : Nat) (deep : Bool) : (s.laneNotices n deep).regs = s.regs := by
  refine foldl_kept State.regs (fun u _ _ => ?_) s
  split <;> rfl

/-- The state of a lane and the power state asked of it. -/
def State.standing (s : State) (n : Nat) : Nat × Nat := (s.laneState n, s.get (F.LANE_CTL_power n))

theorem State.standing_of_regs (h : t.regs = s.regs) (n : Nat) : t.standing n = s.standing n := by
  unfold State.standing State.laneState
  rw [State.get_of_regs h, State.get_of_regs h]

theorem State.put_standing (s : State) {f : RF} (v : Nat) {n : Nat} (hs : f.apart (F.LANE_STS_state n) = true)
    (hc : f.apart (F.LANE_CTL_power n) = true) : (s.put f v).standing n = s.standing n := by
  unfold State.standing State.laneState
  rw [State.get_put_apart _ _ hs, State.get_put_apart _ _ hc]

theorem State.setLane_standing (s : State) (m n : Nat) (x : Lane) : (s.setLane m x).standing n = s.standing n := rfl

/-- A field of LANE_STS beside the state leaves both. -/
theorem State.put_sts_standing (s : State) {f : RF} (v : Nat) {n : Nat} (hoff : f.off = R.LANE_STS n)
    (hs : f.apart (F.LANE_STS_state n) = true) : (s.put f v).standing n = s.standing n := by
  refine s.put_standing v hs (apart_off ?_)
  rw [hoff]
  simp only [F.LANE_CTL_power, R.LANE_STS, R.LANE_CTL]
  omega

theorem grp_apart_lane (g n lo w : Nat) :
    RF.apart ⟨R.GRP_STS g, lo, w⟩ (F.LANE_STS_state n) = true ∧ RF.apart ⟨R.GRP_STS g, lo, w⟩ (F.LANE_CTL_power n) = true := by
  refine ⟨apart_off ?_, apart_off ?_⟩
  · simp only [F.LANE_STS_state, R.GRP_STS, R.LANE_STS]
    omega
  · simp only [F.LANE_CTL_power, R.GRP_STS, R.LANE_CTL]
    omega

theorem State.alignFor_standing (s : State) (n st : Nat) : (s.alignFor n st).standing n = s.standing n := by
  unfold State.alignFor
  split
  · rw [State.setLane_standing, State.put_sts_standing _ _ rfl rfl]
  · rfl

theorem State.cdrFor_standing (s : State) (n st : Nat) : (s.cdrFor n st).standing n = s.standing n := by
  unfold State.cdrFor
  split
  · rw [State.put_sts_standing _ _ rfl rfl]
  · rfl

theorem State.signalFor_standing (s : State) (n st : Nat) : (s.signalFor n st).standing n = s.standing n := by
  unfold State.signalFor
  split
  · rw [State.put_sts_standing _ _ rfl rfl]
  · rfl

theorem State.attemptsFor_standing (s : State) (n st : Nat) : (s.attemptsFor n st).standing n = s.standing n := by
  unfold State.attemptsFor
  split
  · rw [State.setLane_standing, State.put_sts_standing _ _ rfl rfl, State.put_sts_standing _ _ rfl rfl]
  · rfl

theorem laneEvent {n : Nat} : eventReg (R.LANE_STS n) = false ∧ eventReg (R.LANE_CTL n) = false :=
  ⟨eventReg_of_page (Nat.le_add_right_of_le (by decide)), eventReg_of_page (Nat.le_add_right_of_le (by decide))⟩

theorem State.raiseLim_standing (s : State) (us id unit param n : Nat) : (s.raiseLim us id unit param).standing n = s.standing n := by
  unfold State.standing State.laneState
  rw [State.raiseLim_getKept _ _ _ _ _ laneEvent.1, State.raiseLim_getKept _ _ _ _ _ laneEvent.2]

/-- READY is kept where the lane is not asked for IDLE. -/
theorem State.readyFor_standing (s : State) (n st : Nat) (h : st = 9 → s.get (F.LANE_CTL_power n) ≠ 1) : (s.readyFor n st).standing n = s.standing n := by
  unfold State.readyFor
  split
  · next h9 =>
    have hkeep : ((s.setLane n { s.laneL n with eqQual := (s.laneL n).eq, slow := 0, woken := false }).raiseLim 1000 0x0801 n n).standing n = s.standing n :=
      (State.raiseLim_standing _ _ _ _ _ _).trans (State.setLane_standing _ _ _ _)
    dsimp only
    split
    · unfold State.laneAwake
      dsimp only
      rw [if_neg]
      · exact (State.standing_of_regs (State.laneExit_regs _ n) n).trans hkeep
      · rw [State.get_of_regs (State.laneExit_regs _ n)]
        exact fun hp => h h9 ((congrArg Prod.snd hkeep).symm.trans hp)
    · exact hkeep
  · rfl

theorem State.pllRest_standing (s : State) (n : Nat) : (s.pllRest (n / 5)).standing n = s.standing n := by
  unfold State.pllRest
  split
  · exact State.put_standing _ _ (grp_apart_lane _ n _ _).1 (grp_apart_lane _ n _ _).2
  · rfl

theorem State.grpSync_standing (s : State) (g n : Nat) : (s.grpSync g).standing n = s.standing n := by
  have hput (u : State) (lo w v : Nat) : (u.put ⟨R.GRP_STS g, lo, w⟩ v).standing n = u.standing n :=
    State.put_standing _ _ (grp_apart_lane g n _ _).1 (grp_apart_lane g n _ _).2
  unfold State.grpSync State.putB
  dsimp only
  exact (hput _ _ _ _).trans ((hput _ _ _ _).trans (hput _ _ _ _))

theorem State.scanAbort_standing (s : State) (n m : Nat) : (s.scanAbort n).standing m = s.standing m := by
  have hput (u : State) {f : RF} (v : Nat) (hoff : f.off = R.LANE_ES_CTL n) : (u.put f v).standing m = u.standing m := by
    refine u.put_standing v (apart_off ?_) (apart_off ?_) <;> rw [hoff]
    · simp only [F.LANE_STS_state, R.LANE_STS, R.LANE_ES_CTL]
      omega
    · simp only [F.LANE_CTL_power, R.LANE_CTL, R.LANE_ES_CTL]
      omega
  have hmargin : (if (s.laneL n).margin = true then s.setLane n { s.laneL n with margin := false } else s).standing m = s.standing m := by
    split
    · exact s.setLane_standing _ _ _
    · rfl
  unfold State.scanAbort
  extract_lets _ u
  have hu : u.standing m = s.standing m := hmargin
  split
  · rw [hput _ _ rfl, hput _ _ rfl, hu]
  · exact hu

/-- A lane of a group without a port stands in the state that it enters. -/
theorem State.laneEnter_standing (s : State) {n st : Nat} (hg : isPelGrp (n / 5) = false) (hst : st < 16)
    (hready : st = 9 → s.get (F.LANE_CTL_power n) ≠ 1) : (s.laneEnter n st).standing n = (st, s.get (F.LANE_CTL_power n)) := by
  by_cases h : s.laneState n = st
  · rw [s.laneEnter_same h, State.standing, h]
  · have hport (u : State) : u.portReady (n / 5) = u := by rw [State.portReady, hg, if_neg (by simp)]
    have hput : ((s.scanAbort n).put (F.LANE_STS_state n) st).standing n = (st, s.get (F.LANE_CTL_power n)) := by
      have hpower : (F.LANE_STS_state n).apart (F.LANE_CTL_power n) = true := apart_off (by
        simp only [F.LANE_CTL_power, F.LANE_STS_state, R.LANE_STS, R.LANE_CTL]
        omega)
      have hscan : (s.scanAbort n).get (F.LANE_CTL_power n) = s.get (F.LANE_CTL_power n) := congrArg Prod.snd (s.scanAbort_standing n n)
      unfold State.standing State.laneState
      rw [State.get_put_lt _ rfl hst, State.get_put_apart _ _ hpower, hscan]
    have hbefore : ((((((s.scanAbort n).put (F.LANE_STS_state n) st).alignFor n st).cdrFor n st).signalFor n st).attemptsFor n st).standing n =
        (st, s.get (F.LANE_CTL_power n)) := by
      rw [State.attemptsFor_standing, State.signalFor_standing, State.cdrFor_standing, State.alignFor_standing, hput]
    rw [s.laneEnter_eq h, hport, State.grpSync_standing, State.pllRest_standing]
    refine (State.setLane_standing _ _ _ _).trans ((State.readyFor_standing _ n st fun h9 => ?_).trans hbefore)
    exact fun hp => hready h9 ((congrArg Prod.snd hbefore).symm.trans hp)

end Sys2Proof.Machine
end

section
/-! PROOFS. O33: ready lanes carry words and measure (R309, R328 to R333). -/

namespace Sys2Proof.Machine

variable {s t u : State}

theorem State.rateMatched_plain {g : Nat} (h : s.rateMatched g = true) : isPcie g = false ∧ s.grpRaw g = false := by
  unfold State.rateMatched State.grpRaw at *
  unfold isPcie isPelGrp isUserGrp at *
  simp only [Bool.or_eq_true, Bool.and_eq_true, decide_eq_true_eq, Bool.not_eq_true', Bool.and_eq_false_iff] at h
  refine ⟨decide_eq_false (by omega), ?_⟩
  rcases h with h | h
  · rw [decide_eq_false (by omega), Bool.false_and]
  · obtain ⟨⟨hg, _⟩, hraw⟩ := h
    simpa [hg] using hraw

/-- R309: a filler block brings the elastic buffer one block nearer to its middle. -/
theorem execFillerReceived_matched (n : Fin 60) (f : Fin 33) (hm : s.rateMatched (n / 5) = true) (h9 : s.laneState n = 9) :
    Completes (.fillerReceived n f) s (fun t => t.get (F.LANE_STS_rx_pwr n) = 0 ∧
      t.get (F.LANE_RM_fill n) = (if f.val = 0 ∨ f.val = 32 then 16 else if 16 < f.val then f.val - 1 else if f.val < 16 then f.val + 1 else 16) ∧
      (16 < f.val → f.val < 32 → t.get (F.LANE_RM_CNT_deleted n) = (s.get (F.LANE_RM_CNT_deleted n) + 1) % 2 ^ (F.LANE_RM_CNT_deleted n).w) ∧
      (0 < f.val → f.val < 16 → t.get (F.LANE_RM_CNT_repeated n) = (s.get (F.LANE_RM_CNT_repeated n) + 1) % 2 ^ (F.LANE_RM_CNT_repeated n).w)) := by
  obtain ⟨hpcie, hraw⟩ := State.rateMatched_plain hm
  have hf := f.isLt
  show ∃ t, execFillerReceived n f s = .next t ∧ _
  unfold execFillerReceived
  extract_lets st v k w d
  have hv : s.put (F.LANE_STS_rx_pwr n) 0 = v := (if_pos (by simp [st, hpcie, hraw, h9])).symm
  have hvm : v.rateMatched (n / 5) = true := by
    have hctl (lo w : Nat) : v.get ⟨R.GRP_CTL (n / 5), lo, w⟩ = s.get ⟨R.GRP_CTL (n / 5), lo, w⟩ := hv ▸ State.get_put_apart s 0 (apart_off (by
      simp only [F.LANE_STS_rx_pwr, R.LANE_STS, R.GRP_CTL]
      omega))
    unfold State.rateMatched State.grpRaw State.on at *
    simp only [F.GRP_CTL_rate_match, F.GRP_CTL_pcs, hctl] at *
    exact hm
  have hpwr : v.get (F.LANE_STS_rx_pwr n) = 0 := hv ▸ State.get_put_lit s rfl
  have hdel : v.get (F.LANE_RM_CNT_deleted n) = s.get (F.LANE_RM_CNT_deleted n) := hv ▸ State.get_put_apart s 0 (apart_base rfl rfl rfl)
  have hrep : v.get (F.LANE_RM_CNT_repeated n) = s.get (F.LANE_RM_CNT_repeated n) := hv ▸ State.get_put_apart s 0 (apart_base rfl rfl rfl)
  have hfill (w : State) {k : Nat} (hk : k < 32) : (w.put (F.LANE_RM_fill n) k).get (F.LANE_RM_fill n) = k := State.get_put_lt w rfl hk
  have hafter (w : State) (k : Nat) {g : RF} (hg : (F.LANE_RM_fill n).apart g = true) : (w.put (F.LANE_RM_fill n) k).get g = w.get g :=
    State.get_put_apart w k hg
  have hpage {off : Nat} (h : 0x200000 ≤ off) : eventReg off = false := eventReg_of_page (Nat.le_trans (by decide) h)
  rw [if_neg (by simp [hvm, st, h9])]
  clear_value v
  clear hv
  by_cases hedge : f.val = 0 ∨ f.val = 32
  · rw [if_pos hedge]
    have hw16 : w.get (F.LANE_RM_fill n) = 16 := by
      rw [State.raiseLim_getKept _ _ _ _ _ (hpage (by simp only [F.LANE_RM_fill, R.LANE_RM]; omega))]
      exact hfill _ (by decide)
    have hw0 : w.get (F.LANE_STS_rx_pwr n) = 0 := by
      rw [State.raiseLim_getKept _ _ _ _ _ (hpage (by simp only [F.LANE_STS_rx_pwr, R.LANE_STS]; omega)),
        hafter _ _ (apart_base rfl rfl rfl), State.get_sat_apart _ _ (apart_base rfl rfl rfl), hpwr]
    by_cases h0 : f.val = 0
    · rw [if_pos h0, if_pos hedge]
      refine ⟨_, rfl, ?_, ?_, by omega, by omega⟩
      · rw [State.get_inc_apart _ _ (apart_base rfl rfl rfl)]
        exact hw0
      · rw [State.get_inc_apart _ _ (apart_base rfl rfl rfl)]
        exact hw16
    · rw [if_neg h0, if_pos hedge]
      exact ⟨_, rfl, hw0, hw16, by omega, by omega⟩
  · rw [if_neg hedge, if_neg hedge]
    by_cases habove : 16 < f.val
    · rw [if_pos habove, if_pos habove]
      refine ⟨_, rfl, ?_, hfill _ (by omega), fun _ _ => ?_, by omega⟩
      · rw [hafter _ _ (apart_base rfl rfl rfl), State.get_inc_apart _ _ (apart_base rfl rfl rfl), hpwr]
      · rw [hafter _ _ (apart_base rfl rfl rfl), State.get_inc _ _ rfl, hdel]
    · rw [if_neg habove, if_neg habove]
      by_cases hbelow : f.val < 16
      · rw [if_pos hbelow, if_pos hbelow]
        refine ⟨_, rfl, ?_, hfill _ (by omega), by omega, fun _ _ => ?_⟩
        · rw [hafter _ _ (apart_base rfl rfl rfl), State.get_inc_apart _ _ (apart_base rfl rfl rfl), hpwr]
        · rw [hafter _ _ (apart_base rfl rfl rfl), State.get_inc _ _ rfl, hrep]
      · rw [if_neg hbelow, if_neg hbelow]
        refine ⟨_, rfl, ?_, (hfill _ (by omega)).trans (by omega), by omega, by omega⟩
        rw [hafter _ _ (apart_base rfl rfl rfl), hpwr]

theorem State.laneL_setLane (s : State) (n : Nat) (x : Lane) : (s.setLane n x).laneL n = x := SMap.get_set_same _ _ _ _

/-- R317: a READY lane of a user group stores its words until its queue is full. -/
theorem execLaneRxWord_ready (n : Fin 60) (d : BitVec 128) (sb : BitVec 16) (s : State) (hn : 30 ≤ n.val) (h9 : s.laneState n = 9) (hk : s.laneLogical n < 4) :
    ((s.laneL n).rx.length < 64 → s.grpBonded (n / 5) = true →
      Completes (.laneRxWord n d sb) s (fun t => (t.laneL n).rx = (s.laneL n).rx ++ [(d, sb &&& 0x4000)])) ∧
    ((s.laneL n).rx.length < 64 → s.grpBonded (n / 5) = false → s.get (F.GRP_CTL_pcs (n / 5)) = 1 → s.get (F.GRP_STS_reversed (n / 5)) = 0 →
      Completes (.laneRxWord n d sb) s (fun t =>
        (t.laneL n).rx = (s.laneL n).rx ++ [(d, (sb &&& 0xCF03) ||| BitVec.ofNat 16 (4096 * s.laneLogical n))])) ∧
    (64 ≤ (s.laneL n).rx.length →
      Completes (.laneRxWord n d sb) s (fun t => t.lane = s.lane ∧
        t.get (F.LANE_ERR_rx_drop n) = min (s.get (F.LANE_ERR_rx_drop n) + 1) (2 ^ (F.LANE_ERR_rx_drop n).w - 1))) := by
  have huser : isUserGrp (n / 5) = true := decide_eq_true (by omega)
  have hopen : ¬ ((! isUserGrp (n / 5)) = true ∨ s.laneState n ≠ 9 ∨ 3 < s.laneLogical n) := by
    simp only [huser, h9]
    simp only [Bool.not_true, ne_eq, not_true_eq_false, false_or, Bool.false_eq_true]
    omega
  refine ⟨fun hroom hb => ?_, fun hroom hb hpcs hrev => ?_, fun hfull => ?_⟩
  · show ∃ t, execLaneRxWord n d sb s = .next t ∧ _
    unfold execLaneRxWord
    rw [if_neg hopen, if_neg (by omega)]
    refine ⟨_, rfl, ?_⟩
    rw [State.laneL_setLane]
    simp only [hb, or_true, if_true]
  · show ∃ t, execLaneRxWord n d sb s = .next t ∧ _
    unfold execLaneRxWord
    rw [if_neg hopen, if_neg (by omega)]
    refine ⟨_, rfl, ?_⟩
    have h8b : s.grp8b (n / 5) = true := by
      unfold State.grp8b
      rw [huser, hpcs]
      rfl
    rw [State.laneL_setLane]
    simp only [hb, h8b, State.on_of_zero hrev, true_or, if_true, Bool.false_eq_true, if_false]
  · show ∃ t, execLaneRxWord n d sb s = .next t ∧ _
    unfold execLaneRxWord
    rw [if_neg hopen, if_pos hfull]
    refine ⟨_, rfl, State.raiseLim_lane _ _ _ _ _, ?_⟩
    rw [State.raiseLim_getKept _ _ _ _ _ (eventReg_of_page (by simp only [F.LANE_ERR_rx_drop, R.LANE_ERR]; omega))]
    exact State.get_sat _ _ rfl

theorem lane_fields_apart (n : Nat) : (F.LANE_CTL_power n).apart (F.LANE_STS_state n) = true ∧ (F.LANE_STS_pwr_refused n).apart (F.LANE_STS_state n) = true := by
  refine ⟨apart_off ?_, rfl⟩
  simp only [F.LANE_CTL_power, F.LANE_STS_state, R.LANE_STS, R.LANE_CTL]
  omega

/-- R330: the power state that a READY, IDLE or DEEP lane of a user group enters. -/
theorem State.lanePower_standing (s : State) {n : Nat} {v : Nat} (hn : 30 ≤ n) (hv : v < 4) (hraw : s.grpRaw (n / 5) = false)
    (hlo : 9 ≤ s.laneState n) (hhi : s.laneState n ≤ 11) :
    (s.lanePower n v).standing n =
      (if s.laneState n = 11 ∧ v ≠ 2 then (if s.get (F.GRP_STS_pll_lock (n / 5)) = 1 then 3 else 1)
        else if v = 1 then 10 else if v = 2 then 11 else 9, v) := by
  have huser : isUserGrp (n / 5) = true := decide_eq_true (by omega)
  have hpel : isPelGrp (n / 5) = false := by
    unfold isPelGrp
    rw [decide_eq_false (p := n / 5 < 6) (by omega), Bool.and_false]
  generalize hu : s.put (F.LANE_CTL_power n) v = u
  have hstate : u.laneState n = s.laneState n := hu ▸ State.get_put_apart s v (lane_fields_apart n).1
  have hpower : u.get (F.LANE_CTL_power n) = v := hu ▸ State.get_put_lt s rfl hv
  have hlock : u.get (F.GRP_STS_pll_lock (n / 5)) = s.get (F.GRP_STS_pll_lock (n / 5)) := hu ▸ State.get_put_apart s v (apart_off (by
    simp only [F.LANE_CTL_power, F.GRP_STS_pll_lock, R.GRP_STS, R.LANE_CTL]
    omega))
  have hstand : u.standing n = (s.laneState n, v) := Prod.ext hstate hpower
  have henter {w : State} {st : Nat} (hw : w.standing n = u.standing n) (hst : st < 16) (h9 : st = 9 → v ≠ 1) :
      (w.laneEnter n st).standing n = (st, v) := by
    have hwv : w.get (F.LANE_CTL_power n) = v := congrArg Prod.snd (hw.trans hstand)
    rw [State.laneEnter_standing w hpel hst (fun h => hwv ▸ h9 h), hwv]
  unfold State.lanePower
  dsimp only
  rw [if_neg (by simp [huser, hraw, hlo, hhi]), hu]
  generalize hgoal : (if v = 1 then 10 else if v = 2 then 11 else 9) = goal
  have hgoals : v = 1 ∧ goal = 10 ∨ v = 2 ∧ goal = 11 ∨ v ≠ 1 ∧ v ≠ 2 ∧ goal = 9 := by
    split at hgoal
    · omega
    · split at hgoal <;> omega
  by_cases hsame : s.laneState n = goal
  · rw [if_pos hsame, if_neg (by omega), hstand, hsame]
  · rw [if_neg hsame]
    by_cases h9 : s.laneState n = 9
    · rw [if_pos h9, if_neg (by omega)]
      exact henter (State.standing_of_regs (State.laneNotices_regs u n _) n) (by omega) (by omega)
    · rw [if_neg h9]
      by_cases h11 : s.laneState n = 11
      · have hleave : s.laneState n = 11 ∧ v ≠ 2 := ⟨h11, by omega⟩
        rw [if_pos h11, if_pos hleave]
        have hset (x : Lane) : (u.setLane n x).get (F.GRP_STS_pll_lock (n / 5)) = s.get (F.GRP_STS_pll_lock (n / 5)) := hlock
        rcases s.get_bit (F.GRP_STS_pll_lock (n / 5)) rfl with hl | hl
        · rw [State.on_of_zero ((hset _).trans hl), if_neg (by decide), if_neg (by omega)]
          exact henter (State.setLane_standing _ _ _ _) (by omega) (by omega)
        · rw [State.on_of_one ((hset _).trans hl), if_pos rfl, if_pos hl]
          exact henter (State.setLane_standing _ _ _ _) (by omega) (by omega)
      · have hstay : ¬ (s.laneState n = 11 ∧ v ≠ 2) := fun hand => h11 hand.1
        rw [if_neg h11, if_neg hstay]
        by_cases hup : goal = 9
        · rw [if_pos hup, hup]
          exact henter (State.standing_of_regs (State.laneExit_regs u n) n) (by omega) (by omega)
        · rw [if_neg hup]
          exact henter rfl (by omega) (by omega)

theorem offLanes_laneState {m : Nat} {l : List Nat} (hm : m ∈ l) (hl : l.Nodup) (s : State) :
    (l.foldl (fun u a => if u.laneState a = 12 then u else (u.scanAbort a).put (F.LANE_STS_state a) 12) s).laneState m = 12 := by
  have hown (u : State) : (if u.laneState m = 12 then u else (u.scanAbort m).put (F.LANE_STS_state m) 12).laneState m = 12 := by
    split
    · assumption
    · exact State.get_put_lit _ rfl
  have hother (u : State) (a : Nat) (ha : a ≠ m) : (if u.laneState a = 12 then u else (u.scanAbort a).put (F.LANE_STS_state a) 12).laneState m = u.laneState m := by
    split
    · rfl
    · have hapart : (F.LANE_STS_state a).apart (F.LANE_STS_state m) = true := apart_off (by
        simp only [F.LANE_STS_state, R.LANE_STS]
        omega)
      exact (State.get_put_apart _ _ hapart).trans (congrArg Prod.fst (u.scanAbort_standing a m))
  obtain ⟨l₁, _, hturn⟩ := foldl_turn (fun u => u.laneState m) hm hl (fun u a _ ha => hother u a ha) s
  exact hturn.trans (hown _)

/-- Table 11.2: without READY lanes the lanes of PCI Express are FAILED. -/
theorem State.pcieLanes_laneState (s : State) {m : Nat} (hm : m < 10) : (s.pcieLanes []).laneState m = 12 := by
  have hsync (l : List Nat) (u : State) : (l.foldl (fun u g => u.grpSync g) u).laneState m = u.laneState m :=
    foldl_kept (fun u => u.laneState m) (fun u g _ => congrArg Prod.fst (u.grpSync_standing g m)) u
  have hnone (a : Nat) : ([] : List Nat).contains a = false := rfl
  unfold State.pcieLanes
  dsimp only
  rw [hsync]
  simp only [hnone, Bool.false_eq_true, if_false]
  exact offLanes_laneState (List.mem_range.mpr hm) List.nodup_range s

theorem State.laneState_of_regs (h : t.regs = s.regs) (n : Nat) : t.laneState n = s.laneState n := State.get_of_regs h _

theorem State.linkL1_laneState (s : State) {m : Nat} (hm : m < 10) : s.linkL1.laneState m = 12 := by
  have hput (u : State) (g v : Nat) : (u.put (F.GRP_STS_pll_lock g) v).laneState m = u.laneState m :=
    State.get_put_apart _ _ (apart_off (by
      simp only [F.GRP_STS_pll_lock, F.LANE_STS_state, R.GRP_STS, R.LANE_STS]
      omega))
  have hlanes := s.pcieLanes_laneState hm
  unfold State.linkL1
  generalize s.pcieLanes [] = u at hlanes ⊢
  dsimp only
  rw [hput, hput]
  exact (State.laneState_of_regs rfl m).trans hlanes

/-- R309: a window of a READY lane says whether its adaptation is qualified. -/
theorem execAdaptWindow_ready (n : Fin 60) (tr : Fin 101) (fillers : Bool) (s : State) (h9 : s.laneState n = 9) :
    Completes (.adaptWindow n tr fillers) s (fun t =>
      t.get (F.LANE_STS_qualified n) = (decide (30 ≤ tr.val) && (s.grpRaw (n / 5) || ! fillers)).toNat ∧
      t.get (F.LANE_STS_clamped n) = 1 - t.get (F.LANE_STS_qualified n) ∧
      (t.get (F.LANE_STS_qualified n) = 1 → (t.laneL n).eqQual = (t.laneL n).eq) ∧
      (t.get (F.LANE_STS_qualified n) = 0 → (s.laneL n).slow % 16 ≠ 15 → (t.laneL n).eq = (s.laneL n).eq)) := by
  show ∃ t, execAdaptWindow n tr fillers s = .next t ∧ _
  unfold execAdaptWindow
  rw [if_neg (not_not_intro h9)]
  extract_lets q v d
  have hq : v.get (F.LANE_STS_qualified n) = q.toNat := by
    rw [State.get_putB_apart _ _ rfl, State.get_putB _ _ rfl]
    cases q <;> rfl
  have hc : v.get (F.LANE_STS_clamped n) = 1 - q.toNat := by
    rw [State.get_putB _ _ rfl]
    cases q <;> rfl
  have hvlane : v.lane = s.lane := rfl
  clear_value v
  have hregs : d.2.regs = v.regs := rfl
  have hlane : d.2.lane = v.lane := rfl
  clear_value d
  have hdq := (State.get_of_regs hregs (F.LANE_STS_qualified n)).trans hq
  have hdc := (State.get_of_regs hregs (F.LANE_STS_clamped n)).trans hc
  have hown : d.2.laneL n = s.laneL n := by rw [State.laneL, State.laneL, hlane, hvlane]
  refine ⟨_, rfl, ?_⟩
  rw [State.laneL_setLane, State.setLane_get, State.setLane_get, hdq, hdc, hown]
  refine ⟨rfl, rfl, fun h1 => ?_, fun h0 hslow => ?_⟩
  · clear_value q
    cases q
    · cases h1
    · rfl
  · clear_value q
    cases q
    · rw [Lane.adapted, if_neg (by decide), if_neg hslow]
    · cases h0

/-- R330: a lane that is READY, IDLE or DEEP takes the power state asked of it, any other refuses it. -/
theorem execLanePowerRequest_spec (n : Fin 60) (v : BitVec 2) (s : State) :
    (30 ≤ n.val → s.grpRaw (n / 5) = false → 9 ≤ s.laneState n → s.laneState n ≤ 11 →
      Completes (.lanePowerRequest n v) s (fun t => t.laneState n =
          (if s.laneState n = 11 ∧ v ≠ 2 then (if s.get (F.GRP_STS_pll_lock (n / 5)) = 1 then 3 else 1)
            else if v = 1 then 10 else if v = 2 then 11 else 9) ∧
        t.get (F.LANE_CTL_power n) = v.toNat)) ∧
    (s.laneState n < 9 ∨ 11 < s.laneState n →
      Completes (.lanePowerRequest n v) s (fun t => t.get (F.LANE_STS_pwr_refused n) = 1 ∧ t.laneState n = s.laneState n)) := by
  refine ⟨fun hn hraw hlo hhi => ?_, fun hout => ?_⟩
  · have hstand := s.lanePower_standing hn v.isLt hraw hlo hhi
    have hone : v.toNat = 1 ↔ v = 1 := BitVec.toNat_inj (y := 1#2)
    have htwo : v.toNat = 2 ↔ v = 2 := BitVec.toNat_inj (y := 2#2)
    refine ⟨s.lanePower n v.toNat, rfl, ?_⟩
    rw [State.standing, Prod.mk.injEq] at hstand
    obtain ⟨hstate, hpower⟩ := hstand
    rw [hstate, hpower]
    simp only [ne_eq, hone, htwo, and_self]
  · refine ⟨s.lanePower n v.toNat, rfl, ?_⟩
    rw [State.lanePower, if_pos (Or.inr (Or.inr (by omega)))]
    exact ⟨State.get_put_lit _ rfl, State.get_put_apart _ _ (lane_fields_apart n).2⟩

theorem execPowerNoticeReceived_ready (n : Fin 60) (deep : Bool) (s : State) (hn : 30 ≤ n.val) (hraw : s.grpRaw (n / 5) = false)
    (hlo : 9 ≤ s.laneState n) (hhi : s.laneState n ≤ 11) :
    Completes (.powerNoticeReceived n deep) s (fun t => t.get (F.LANE_STS_rx_pwr n) = if deep then 2 else 1) := by
  show ∃ t, execPowerNoticeReceived n deep s = .next t ∧ _
  unfold execPowerNoticeReceived
  rw [if_neg (by simp [isPcie]; omega), if_neg (by simp [isUserGrp, hraw]; omega)]
  refine ⟨_, rfl, ?_⟩
  cases deep
  · exact State.get_put_lit _ rfl
  · exact State.get_put_lit _ rfl

/-- R332: a scan of a lane starts when none runs; of a lane of PCI Express in L0 the margining runs. -/
theorem execEyeScanStart_spec (n : Fin 60) (s : State) (h0 : s.get (F.LANE_ES_CTL_start n) = 0) :
    Completes (.eyeScanStart n) s (fun t => t.get (F.LANE_ES_CTL_start n) = 1 ∧ t.get (F.LANE_ES_CTL_done n) = 0) := by
  show ∃ t, execEyeScanStart n s = .next t ∧ _
  unfold execEyeScanStart State.eyeStart
  rw [if_neg (by decide), State.on_of_zero h0, if_neg (by decide)]
  exact ⟨_, rfl, (State.get_put_apart _ _ rfl).trans (State.get_put_lit _ rfl), State.get_put_lit _ rfl⟩

theorem State.setLane_margin (s : State) (n : Nat) (x : Lane) : ((s.setLane n x).laneL n).margin = x.margin ∧ (s.setLane n x).regs = s.regs :=
  ⟨congrArg Lane.margin (s.laneL_setLane n x), rfl⟩

theorem execEyeScan_margin (n : Fin 60) (e : BitVec 48) (s : State) (hn : n.val < 10) :
    (s.hif.link = .l0 → s.laneState n = 9 → s.get (F.LANE_ES_CTL_start n) = 0 →
      Completes (.eyeScanStart n true) s (fun t => (t.laneL n).margin = true ∧ t.regs = s.regs)) ∧
    ((s.laneL n).margin = true → Completes (.eyeScanDone n e) s (fun t => (t.laneL n).margin = false ∧ t.regs = s.regs)) ∧
    (s.hif.link = .l0 → Completes (.powerNoticeReceived n true) s (fun t => t.hif.link = .l1 ∧ ∀ m : Fin 10, t.laneState m = 12)) := by
  have hpcie : isPcie (n / 5) = true := decide_eq_true (by omega)
  refine ⟨fun hl h9 h0 => ?_, fun hm => ?_, fun hl => ?_⟩
  · show ∃ t, execEyeScanStart n s true = .next t ∧ _
    unfold execEyeScanStart State.marginStart
    rw [if_pos rfl, if_pos ⟨hpcie, hl, h9, by rw [State.on_of_zero h0]; rfl⟩]
    exact ⟨_, rfl, s.setLane_margin n _⟩
  · show ∃ t, execEyeScanDone n e s = .next t ∧ _
    unfold execEyeScanDone
    rw [if_pos hm]
    exact ⟨_, rfl, s.setLane_margin n _⟩
  · show ∃ t, execPowerNoticeReceived n true s = .next t ∧ _
    unfold execPowerNoticeReceived
    rw [if_pos hpcie]
    exact ⟨_, congrArg (fun u => (.next u : Out)) (if_pos ⟨rfl, hl⟩), rfl, fun m => s.linkL1_laneState m.isLt⟩

theorem execEyeScanDone_running (n : Fin 60) (e : BitVec 48) (s : State) (h1 : s.get (F.LANE_ES_CTL_start n) = 1) (hm : (s.laneL n).margin = false) :
    Completes (.eyeScanDone n e) s (fun t => t.get (F.LANE_ES_CTL_start n) = 0 ∧ t.get (F.LANE_ES_CTL_done n) = 1 ∧
      t.get (F.LANE_ES_ERR_errors n) = min (min e.toNat (2 ^ (20 + min 22 (s.get (F.LANE_ES_CTL_dwell n))))) (2 ^ 32 - 1)) := by
  have hstart : eventReg (F.LANE_ES_CTL_start n).off = false := eventReg_of_page (Nat.le_add_right_of_le (by decide))
  have hdone : eventReg (F.LANE_ES_CTL_done n).off = false := eventReg_of_page (Nat.le_add_right_of_le (by decide))
  have herr : eventReg (F.LANE_ES_ERR_errors n).off = false := eventReg_of_page (Nat.le_add_right_of_le (by decide))
  have hcap : ∀ k, min k (2 ^ 32 - 1) < 2 ^ (F.LANE_ES_ERR_errors n).w := fun k =>
    Nat.lt_of_le_of_lt (Nat.min_le_right _ _) (by show 2 ^ 32 - 1 < 2 ^ 32; decide)
  show ∃ t, execEyeScanDone n e s = .next t ∧ _
  unfold execEyeScanDone
  rw [hm, if_neg (by decide), State.on_of_one h1, if_neg (by decide)]
  extract_lets bits u
  refine ⟨_, rfl, ?_⟩
  rw [State.raiseLim_getKept _ _ _ _ _ hstart, State.raiseLim_getKept _ _ _ _ _ hdone, State.raiseLim_getKept _ _ _ _ _ herr]
  refine ⟨State.get_put_lit _ rfl, (State.get_put_apart _ _ rfl).trans (State.get_put_lit _ rfl), ?_⟩
  rw [State.get_put_apart _ _ (apart_base rfl rfl rfl), State.get_put_apart _ _ (apart_base rfl rfl rfl)]
  exact State.get_put_lt _ rfl (hcap _)

theorem execEyeMonitor_spec (n : Fin 60) (h w : BitVec 8) (s : State) :
    (s.laneState n = 9 → s.get (F.LANE_ES_CTL_start n) = 0 →
      Completes (.eyeMonitor n h w) s (fun t => t.get (F.LANE_EYE_valid n) = 1 ∧ t.get (F.LANE_EYE_height n) = h.toNat ∧
        t.get (F.LANE_EYE_width n) = w.toNat)) ∧
    (s.laneState n ≠ 9 → Completes (.eyeMonitor n h w) s (fun t => t.get (F.LANE_EYE_valid n) = 0)) := by
  refine ⟨fun h9 h0 => ?_, fun h9 => ?_⟩
  · show ∃ t, execEyeMonitor n h w s = .next t ∧ _
    unfold execEyeMonitor
    rw [if_pos ⟨h9, by rw [State.on_of_zero h0]; rfl⟩]
    refine ⟨_, rfl, State.get_put_lit _ rfl, ?_, ?_⟩
    · rw [State.get_put_apart _ _ rfl, State.get_put_apart _ _ rfl]
      exact State.get_put_lt _ rfl h.isLt
    · rw [State.get_put_apart _ _ rfl]
      exact State.get_put_lt _ rfl w.isLt
  · show ∃ t, execEyeMonitor n h w s = .next t ∧ _
    unfold execEyeMonitor
    rw [if_neg (fun hand => h9 hand.1)]
    exact ⟨_, rfl, State.get_put_lit _ rfl⟩

theorem execLaneSlip_raw (n : Fin 60) (s : State) (hraw : s.grpRaw (n / 5) = true) :
    Completes (.laneSlip n) s (fun t => (t.laneL n).slips = (s.laneL n).slips + 1 ∧ t.regs = s.regs) := by
  show ∃ t, execLaneSlip n s = .next t ∧ _
  unfold execLaneSlip State.laneSlip
  rw [if_pos hraw]
  exact ⟨_, rfl, congrArg Lane.slips (s.laneL_setLane n _), rfl⟩

theorem execLaneFailure_below (n : Fin 60) (s : State) (hn : 10 ≤ n.val) (h9 : s.laneState n = 9) (hraw : s.grpRaw (n / 5) = false) :
    Completes (.laneFailure n 0) s (fun t =>
      t.get (F.LANE_ERR_code_err n) = min (s.get (F.LANE_ERR_code_err n) + 1) (2 ^ (F.LANE_ERR_code_err n).w - 1) ∧ t.lane = s.lane) := by
  have hcond : (! isPcie (n / 5)) = true ∧ s.laneState n = 9 := ⟨by rw [isPcie, decide_eq_false (by omega)]; rfl, h9⟩
  show ∃ t, execLaneFailure n 0 s = .next t ∧ _
  unfold execLaneFailure
  dsimp only
  rw [if_neg (by simp [hraw]), if_pos (by rfl), if_pos hcond]
  exact ⟨_, rfl, State.get_sat _ _ rfl, rfl⟩

/-- Settles O33. -/
theorem readyLanesCarryWordsAndMeasure : Obligations.ReadyLanesCarryWordsAndMeasure :=
  ⟨fun n f _ => execFillerReceived_matched n f, execLaneRxWord_ready, execLaneSlip_raw, execLanePowerRequest_spec, execPowerNoticeReceived_ready,
    execAdaptWindow_ready, execLaneFailure_below, execEyeScanStart_spec, execEyeScan_margin, execEyeScanDone_running, execEyeMonitor_spec⟩

end Sys2Proof.Machine
end

section
/-! PROOFS. O45: whether a Spoke unit is retired is read from the register, and the answer to its failure records nothing where the register has it already;
nothing ties that register to the books. -/

namespace Sys2Proof.Machine

/-- The reset state with unit 0 retired in its register alone. -/
def unbooked : State := State.reset.put F.FLT_RET_SPK0_units 1

theorem unbooked_books : (match exec (.unitRetire (.spoke 0)) unbooked with
    | .next t => t.morHas 10 0 0
    | _ => true) = false := by decide +kernel

/-- Refutes O45: the books do not name the unit. -/
theorem not_moraineSubstitutesRetiresAndRecords : ¬ Obligations.MoraineSubstitutesRetiresAndRecords := by
  unfold Obligations.MoraineSubstitutesRetiresAndRecords
  rintro ⟨-, -, hspoke, -⟩
  obtain ⟨t, hexec, hbooks, -⟩ := hspoke 0 unbooked (by decide +kernel) rfl
  have hnone := unbooked_books
  rw [hexec] at hnone
  exact absurd (hbooks.symm.trans hnone) (by decide)

end Sys2Proof.Machine
end

section
/-! PROOFS. O4: the Derailleur at each of its instants (R253 to R257, R471). -/

namespace Sys2Proof.Machine

variable {s t u : State}

/-- The supply without what the Derailleur asks for and aims at. -/
def State.sansGoal (s : State) : Pwr := { s.pwr with demand := 0, goal := 0 }

theorem State.aim_goal (s : State) (want floor : Nat) : (s.aim want floor).pwr.goal = min (max want floor) s.ceiling := by
  unfold State.aim
  dsimp only
  split
  · rw [State.raiseLim_pwr]
    rfl
  · rfl

theorem State.aim_sansGoal (s : State) (want floor : Nat) : (s.aim want floor).sansGoal = s.sansGoal := by
  unfold State.aim State.sansGoal
  dsimp only
  split
  · rw [State.raiseLim_pwr]
    rfl
  · rfl

/-- What the Derailleur shows of its aim stands in one register. -/
theorem State.aim_get (s : State) (want floor : Nat) {f : RF} (hf : R.PWR_DRL_STS ≠ f.off) (he : eventReg f.off = false) :
    (s.aim want floor).get f = s.get f := by
  have hput (u : State) {g : RF} (v : Nat) (hg : g.off = R.PWR_DRL_STS) : (u.put g v).get f = u.get f :=
    State.get_put_apart u v (apart_off (by rw [hg]; exact hf))
  unfold State.aim
  extract_lets goal u src v w
  have hu : u.get f = s.get f := (hput _ _ rfl).trans (hput s _ rfl)
  have hv : v.get f = u.get f := State.get_of_regs rfl f
  have hw : w.get f = s.get f := (hput v _ rfl).trans (hv.trans hu)
  split
  · rw [State.raiseLim_getKept _ _ _ _ _ he, hput _ _ rfl, hw]
  · rw [hput _ _ rfl, hw]

theorem State.aimRun_sansGoal (s : State) : s.aimRun.sansGoal = s.sansGoal := by
  unfold State.aimRun
  split
  · exact s.aim_sansGoal _ _
  · exact s.aim_sansGoal _ _

theorem State.aimRun_get (s : State) {f : RF} (hf : R.PWR_DRL_STS ≠ f.off) (he : eventReg f.off = false) : s.aimRun.get f = s.get f := by
  unfold State.aimRun
  split
  · exact s.aim_get _ _ hf he
  · exact s.aim_get _ _ hf he

theorem State.setGoal_pwr (s : State) (demand : Nat) : (s.setGoal demand).pwr = (s.setPwr { s.pwr with demand := min 80 demand }).aimRun.pwr := by
  unfold State.setGoal
  dsimp only
  split
  · rfl
  · split <;> rfl

theorem State.setGoal_sansGoal (s : State) (demand : Nat) : (s.setGoal demand).sansGoal = s.sansGoal := by
  rw [State.sansGoal, State.setGoal_pwr]
  exact State.aimRun_sansGoal _

/-- R253: while the Derailleur is enabled the demand aims between the lower limit and the ceiling. -/
theorem State.setGoal_goal (s : State) (demand : Nat) (h : s.get F.PWR_DRL_CTL_enable = 1) :
    (s.setGoal demand).pwr.goal = min (max (min 80 demand) s.vMin) s.ceiling := by
  have hon : (s.setPwr { s.pwr with demand := min 80 demand }).on F.PWR_DRL_CTL_enable = true := State.on_of_one h
  rw [State.setGoal_pwr, State.aimRun, if_pos hon]
  exact State.aim_goal _ _ _

theorem State.setGoal_get (s : State) (demand : Nat) {f : RF} (hf : R.PWR_DRL_STS ≠ f.off) (hc : R.PWR_DRL_CNT ≠ f.off)
    (he : eventReg f.off = false) : (s.setGoal demand).get f = s.get f := by
  have haim : (s.setPwr { s.pwr with demand := min 80 demand }).aimRun.get f = s.get f := State.aimRun_get _ hf he
  unfold State.setGoal
  dsimp only
  split
  · exact (State.get_inc_apart _ _ (apart_off hc)).trans haim
  · split
    · exact (State.get_inc_apart _ _ (apart_off hc)).trans haim
    · exact haim

theorem State.ceilingMoved_sansGoal (s : State) : s.ceilingMoved.sansGoal = s.sansGoal := by
  unfold State.ceilingMoved
  dsimp only
  split
  · rfl
  · split
    · exact State.setGoal_sansGoal _ _
    · exact State.aim_sansGoal _ _ _

theorem State.ceilingMoved_get (s : State) {f : RF} (hf : R.PWR_DRL_STS ≠ f.off) (hc : R.PWR_DRL_CNT ≠ f.off)
    (he : eventReg f.off = false) : s.ceilingMoved.get f = s.get f := by
  have hput : (s.put F.PWR_DRL_STS_ceiling s.ceiling).get f = s.get f := State.get_put_apart _ _ (apart_off hf)
  unfold State.ceilingMoved
  dsimp only
  split
  · exact hput
  · split
    · exact (State.setGoal_get _ _ hf hc he).trans hput
    · exact (State.aim_get _ _ _ hf he).trans hput

/-- R255: the window closes with what it counted, and the next one is empty. -/
theorem State.closeWindow_spec (s : State) : s.closeWindow.pwr.samples = 0 ∧ s.closeWindow.pwr.smin = 32767 ∧ s.closeWindow.pwr.lowSample = false ∧
    s.closeWindow.pwr.window = s.pwr.window + 1 ∧ s.closeWindow.pwr.goal = s.pwr.goal ∧
    s.closeWindow.get F.PWR_DRL_SMIN_samples = min 65535 s.pwr.samples := by
  have hpwr : ((s.putS F.PWR_DRL_SMIN_smin s.pwr.smin).put F.PWR_DRL_SMIN_samples (min 65535 s.pwr.samples)).pwr = s.pwr := rfl
  have hmin : min 65535 s.pwr.samples < 2 ^ 16 := Nat.lt_of_le_of_lt (Nat.min_le_left _ _) (by decide)
  have hshown : ((s.putS F.PWR_DRL_SMIN_smin s.pwr.smin).put F.PWR_DRL_SMIN_samples (min 65535 s.pwr.samples)).get F.PWR_DRL_SMIN_samples =
      min 65535 s.pwr.samples := State.get_put_lt _ rfl hmin
  unfold State.closeWindow State.restartWindow
  generalize (s.putS F.PWR_DRL_SMIN_smin s.pwr.smin).put F.PWR_DRL_SMIN_samples (min 65535 s.pwr.samples) = u at hpwr hshown ⊢
  rw [← hpwr] at hshown ⊢
  exact ⟨rfl, rfl, rfl, rfl, rfl, hshown⟩

theorem State.drlRaise_goal (s : State) (h : s.get F.PWR_DRL_CTL_enable = 1) : s.drlRaise.pwr.goal =
    min (max (min 80 (s.get F.PWR_DRL_STS_vcore + max 1 (s.get F.PWR_DRL_VLIM_up_step))) s.vMin) s.ceiling :=
  (State.closeWindow_spec _).2.2.2.2.1.trans (s.setGoal_goal _ h)

theorem completes_derailleurEvaluate (s : State) (hr : s.running = true) (hlow : s.pwr.lowSample = true) (hen : s.get F.PWR_DRL_CTL_enable = 1) :
    Completes .derailleurEvaluate s (fun t => t.pwr.samples = 0 ∧ t.pwr.lowSample = false ∧
      t.pwr.goal = min (max (min 80 (s.get F.PWR_DRL_STS_vcore + max 1 (s.get F.PWR_DRL_VLIM_up_step))) s.vMin) s.ceiling) := by
  show ∃ t, execDerailleurEvaluate s = .next t ∧ _
  unfold execDerailleurEvaluate
  rw [hr, hlow, State.on_of_one hen, if_neg (by decide), if_pos (by rfl)]
  exact ⟨_, rfl, rfl, rfl, s.drlRaise_goal hen⟩

/-- The goal has moved and the window has closed, whatever the goal is. -/
theorem State.goalAndClose (s : State) (demand : Nat) : (s.setGoal demand).closeWindow.pwr.samples = 0 ∧ (s.setGoal demand).closeWindow.pwr.smin = 32767 ∧
    (s.setGoal demand).closeWindow.pwr.window = s.pwr.window + 1 ∧
    (s.setGoal demand).closeWindow.get F.PWR_DRL_SMIN_samples = min 65535 s.pwr.samples := by
  obtain ⟨hsamples, hmin, -, hwindow, -, hshown⟩ := (s.setGoal demand).closeWindow_spec
  have hkept := s.setGoal_sansGoal demand
  have hw : (s.setGoal demand).pwr.window = s.pwr.window := (congrArg Pwr.window hkept :)
  have hs : (s.setGoal demand).pwr.samples = s.pwr.samples := (congrArg Pwr.samples hkept :)
  exact ⟨hsamples, hmin, hwindow.trans (by rw [hw]), hshown.trans (by rw [hs])⟩

theorem completes_derailleurWindowEnd (s : State) (hr : s.running = true) :
    Completes .derailleurWindowEnd s (fun t => t.pwr.samples = 0 ∧ t.pwr.smin = 32767 ∧ t.pwr.window = s.pwr.window + 1 ∧
      t.get F.PWR_DRL_SMIN_samples = min 65535 s.pwr.samples) := by
  show ∃ t, execDerailleurWindowEnd s = .next t ∧ _
  unfold execDerailleurWindowEnd
  rw [hr, if_neg (by decide)]
  extract_lets lower
  split
  · exact ⟨_, rfl, s.goalAndClose _⟩
  · split
    · exact ⟨_, rfl, s.goalAndClose _⟩
    · exact ⟨_, rfl, s.goalAndClose _⟩

theorem completes_vcoreSlewStep (s : State) (h : s.pwr.on = true) :
    Completes .vcoreSlewStep s (fun t => t.get F.PWR_DRL_STS_vcore =
      (if s.get F.PWR_DRL_STS_vcore < s.pwr.goal then s.get F.PWR_DRL_STS_vcore + 1
        else if s.pwr.goal < s.get F.PWR_DRL_STS_vcore then s.get F.PWR_DRL_STS_vcore - 1 else s.get F.PWR_DRL_STS_vcore) % 128) := by
  show ∃ t, execVcoreSlewStep s = .next t ∧ _
  unfold execVcoreSlewStep
  rw [h, if_neg (by decide)]
  refine ⟨_, rfl, ?_⟩
  rw [State.get_putB_apart _ _ rfl]
  exact State.get_put_self _ _ rfl

theorem completes_capCeilingStep (pin pcore : BitVec 16) (s : State) :
    Completes (.capCeilingStep pin pcore) s (fun t => t.get F.PWR_PIN_pin = pin.toNat ∧ t.get F.PWR_PIN_pcore = pcore.toNat ∧
      (s.pwr.capCeil ≤ 80 → t.pwr.capCeil ≤ 80)) := by
  show ∃ t, execCapCeilingStep pin pcore s = .next t ∧ _
  unfold execCapCeilingStep
  extract_lets u cap mw c c'
  have hset (f : RF) : (u.setPwr { u.pwr with capCeil := c' }).get f = u.get f := rfl
  refine ⟨_, rfl, ?_, ?_, fun hc => ?_⟩
  · rw [State.ceilingMoved_get _ (by decide) (by decide) rfl, hset, State.capUpdate_get _ rfl rfl, State.get_put_apart _ _ rfl]
    exact State.get_put_lt _ rfl pin.isLt
  · rw [State.ceilingMoved_get _ (by decide) (by decide) rfl, hset, State.capUpdate_get _ rfl rfl]
    exact State.get_put_lt _ rfl pcore.isLt
  · have hmoved : (u.setPwr { u.pwr with capCeil := c' }).ceilingMoved.pwr.capCeil = c' := congrArg Pwr.capCeil (State.ceilingMoved_sansGoal _)
    have hold : c ≤ 80 := hc
    have hmin : u.vMin ≤ 80 := Nat.min_le_left _ _
    rw [hmoved]
    show (if cap < mw then max u.vMin (c - 1) else if 100 * mw < 95 * cap then min 80 (c + 1) else c) ≤ 80
    clear_value c u
    split
    · omega
    · split <;> omega

/-- R257: the thermal ceiling moves by one step, down at the limit and up well below it. -/
theorem completes_thermalCeilingStep (s : State) :
    (s.getS F.PWR_TEMP_tj_max < 82 → s.pwr.thermCeil ≤ 80 →
      Completes .thermalCeilingStep s (fun t => t.pwr.thermCeil = min 80 (s.pwr.thermCeil + 1))) ∧
    (115 ≤ s.getS F.PWR_TEMP_tj_max →
      Completes .thermalCeilingStep s (fun t => t.pwr.thermCeil = max s.vMin (s.pwr.thermCeil - 1))) := by
  have hlim : 85 ≤ clamp 85 115 (s.get F.PWR_DRL_WIN_tj_lim) ∧ clamp 85 115 (s.get F.PWR_DRL_WIN_tj_lim) ≤ 115 := by
    unfold clamp
    split
    · decide
    · split <;> omega
  have hmoved (c : Nat) : (s.setPwr { s.pwr with thermCeil := c }).ceilingMoved.pwr.thermCeil = c := congrArg Pwr.thermCeil (State.ceilingMoved_sansGoal _)
  obtain ⟨hlo, hhi⟩ := hlim
  constructor
  · intro hcool _
    show ∃ t, execThermalCeilingStep s = .next t ∧ _
    unfold execThermalCeilingStep
    refine ⟨_, rfl, (hmoved _).trans ?_⟩
    rw [if_neg (by omega), if_pos (by omega)]
  · intro hwarm
    show ∃ t, execThermalCeilingStep s = .next t ∧ _
    unfold execThermalCeilingStep
    refine ⟨_, rfl, (hmoved _).trans ?_⟩
    rw [if_pos (by omega)]

theorem completes_capUnmet (s : State) (hon : s.pwr.on = true) (hv : s.get F.PWR_DRL_STS_vcore = s.vMin) (hcap : s.effCap.1 < 10 * s.get F.PWR_PIN_pin)
    (hover : s.get F.PWR_CAP_over_act = 1) (hr : s.running = true) :
    Completes .capUnmet s (fun t => t.mode = .hold ∧ t.get F.SUP_MODE_hold_cause = 2) := by
  have hrun : (s.raiseLim 1000 0x0A21 0 0).running = true := (s.raiseLim_running _ _ _ _).trans hr
  have hact : (s.raiseLim 1000 0x0A21 0 0).on F.PWR_CAP_over_act = true := State.on_of_one ((s.raiseLim_get _ _ _ _ rfl).trans hover)
  have hhold := State.running_enterHold hrun (cause := 2) (by decide) false false
  show ∃ t, execCapUnmet s = .next t ∧ _
  unfold execCapUnmet
  rw [if_neg (by simp [hon, hv, hcap])]
  dsimp only
  rw [if_pos hact, State.running_faultHold hrun]
  exact ⟨_, rfl, hhold.mode, hhold.cause⟩

/-- Settles O4. -/
theorem derailleurMovesVcoreWithinItsLimits : Obligations.DerailleurMovesVcoreWithinItsLimits := by
  refine ⟨completes_derailleurEvaluate, completes_derailleurWindowEnd, fun s hon hlt => ?_, fun s hon hlt => ?_, completes_capCeilingStep,
    fun s => (completes_thermalCeilingStep s).1, fun s => (completes_thermalCeilingStep s).2, completes_capUnmet⟩
  · obtain ⟨t, hexec, hcore⟩ := completes_vcoreSlewStep s hon
    rw [if_pos hlt] at hcore
    exact ⟨t, hexec, hcore⟩
  · obtain ⟨t, hexec, hcore⟩ := completes_vcoreSlewStep s hon
    have hsmall : s.get F.PWR_DRL_STS_vcore < 2 ^ 7 := s.get_lt F.PWR_DRL_STS_vcore
    rw [if_neg (by omega), if_pos hlt, Nat.mod_eq_of_lt (by omega)] at hcore
    exact ⟨t, hexec, hcore⟩

end Sys2Proof.Machine
end

section
/-! PROOFS. O44: the rolling test (R407 to R414). -/

namespace Sys2Proof.Machine

variable {s t u : State}

/-! ## What an answered test leaves -/

/-- The state without answers, and of the test only the group it stands at. -/
def State.sansTest (s : State) : State :=
  { s.sansAnswer with flt := { s.flt with bist := { cur := s.flt.bist.cur } } }

/-- The registers that a result writes beside those of an answer: BIST_PAT and BIST_LAST. -/
def testReg (off : Nat) : Word := if off = R.BIST_PAT ∨ off = R.BIST_LAST then BitVec.allOnes 32 else hostPage off

/-- From one state to the other only answers, and the test beside its group. -/
abbrev State.Reports (s t : State) : Prop := s.Alters hostPage State.sansTest t

/-- Beside that the result of a test. -/
abbrev State.Tests (s t : State) : Prop := s.Alters testReg State.sansTest t

theorem State.Answers.reports (h : s.Answers t) : s.Reports t :=
  .mono h (fun _ _ hi => hi) fun a b hab => by
    have hflt : a.flt = b.flt := (congrArg State.flt hab :)
    rw [State.sansTest, State.sansTest, hab, hflt]

theorem State.Reports.tests (h : s.Reports t) : s.Tests t := by
  refine .mono h (fun off i hi => ?_) fun _ _ hab => hab
  unfold testReg at hi
  split at hi
  · next hoff => rcases hoff with rfl | rfl <;> exact BitVec.getLsbD_zero
  · exact hi

theorem State.setBist_reports (s : State) {b : Bist} (h : b.cur = s.flt.bist.cur) : s.Reports (s.setBist b) := by
  refine .of_same rfl rfl ?_
  show ({ s.sansAnswer with flt := { s.flt with bist := { cur := b.cur } } } : State) = _
  rw [h]
  rfl

theorem State.Reports.cur (h : s.Reports t) : t.flt.bist.cur = s.flt.bist.cur := congrArg (fun u => u.flt.bist.cur) h.part
theorem State.Tests.cur (h : s.Tests t) : t.flt.bist.cur = s.flt.bist.cur := congrArg (fun u => u.flt.bist.cur) h.part
theorem State.Tests.fuses (h : s.Tests t) : t.fuses = s.fuses := congrArg (fun u => u.fuses) h.part

theorem State.complete_answers (s : State) (src : CmdSrc) (status detail res0 res1 : Nat) : s.Answers (s.complete src status detail res0 res1) := by
  have hfin (u : State) (l : List Completion) : u.Answers (u.setHif { u.hif with finished := l }) := .of_same rfl rfl rfl
  have hrun (u : State) (r : List AdminCmd) (l : List Completion) : u.Answers (u.setHif { u.hif with running := r, finished := l }) := .of_same rfl rfl rfl
  unfold State.complete
  exact .ite (fun _ => (hfin s _).trans (State.deliver_answers _ _)) fun _ => (hfin s _).trans (hrun _ _ _)

theorem State.fullEnd_reports (s : State) (code : Nat) : s.Reports (s.fullEnd code) := by
  unfold State.fullEnd
  refine State.Alters.trans (s.setBist_reports (b := { s.flt.bist with full := 0, fullCode := 0, planned := 16384 }) rfl) ?_
  exact .foldl (fun u a _ => State.Answers.reports (u.complete_answers _ _ _ _ _)) _

theorem State.fullCount_reports (s : State) (code : Nat) : s.Reports (s.fullCount code) :=
  .ite (fun _ => .refl _ _ _) fun _ => .ite (fun _ => s.setBist_reports rfl) fun _ => s.fullEnd_reports _

theorem State.putTest_tests (s : State) {f : RF} (v : Nat) (h : testReg f.off = BitVec.allOnes 32) : s.Tests (s.put f v) :=
  .put v (by rw [h, and_not_allOnes]) rfl

theorem State.bistRecord_tests (s : State) (r : TestRec) (bits : List (BitVec 64)) : s.Tests (s.bistRecord r bits) := by
  have hfields (u : State) (a b c d : Nat) : u.Tests ((((u.put F.BIST_LAST_result a).put F.BIST_LAST_region b).put F.BIST_LAST_group c).put F.BIST_LAST_column d) :=
    .trans (.trans (.trans (u.putTest_tests a rfl) (State.putTest_tests _ b rfl)) (State.putTest_tests _ c rfl)) (State.putTest_tests _ d rfl)
  unfold State.bistRecord
  extract_lets b v w
  refine .trans (?_ : s.Tests v) (hfields v _ _ _ _)
  show s.Tests (match b.run with | some t => _ | none => s)
  split
  · exact State.Reports.tests (State.setBist_reports s (b := { b with run := _ }) rfl)
  · exact .refl _ _ _

/-- The columns' result is recorded, with the patterns applied. -/
theorem State.bistRecord_get (s : State) (r : TestRec) (bits : List (BitVec 64)) (hr : r.result < 2 ^ 8) :
    (s.bistRecord r bits).get F.BIST_LAST_result = r.result ∧ (s.bistRecord r bits).get F.BIST_PAT_applied = s.get F.BIST_PAT_applied := by
  have hset (b : Bist) : (s.setBist b).get F.BIST_PAT_applied = s.get F.BIST_PAT_applied := rfl
  unfold State.bistRecord
  extract_lets b v w
  have hv : v.get F.BIST_PAT_applied = s.get F.BIST_PAT_applied := by
    show (match b.run with | some t => _ | none => s : State).get _ = _
    split
    · exact hset _
    · rfl
  clear_value v
  constructor
  · rw [State.get_put_apart _ _ rfl, State.get_put_apart _ _ rfl, State.get_put_apart _ _ rfl]
    exact State.get_put_lt _ rfl hr
  · rw [State.get_put_apart _ _ rfl, State.get_put_apart _ _ rfl, State.get_put_apart _ _ rfl, State.get_put_apart _ _ rfl, hv]

theorem State.columnResult_tests (s : State) (code : Nat) (bits : List (BitVec 64)) : s.Tests (s.columnResult code bits) := by
  have hdraw : s.Tests s.draw.2 := .of_same rfl rfl rfl
  unfold State.columnResult
  extract_lets d u b cov col v w
  have hv : u.Tests v := State.Reports.tests (u.setBist_reports (b := { b with spent := b.spent + (u.time - b.testAt), retest := false }) rfl)
  have hw : v.Tests w := State.Alters.trans (v.putTest_tests _ rfl) (State.putTest_tests _ _ rfl)
  exact .trans (.trans (.trans hdraw hv) hw) (.trans (w.bistRecord_tests _ _) (State.fullCount_reports _ _).tests)

theorem State.columnResult_get (s : State) {code : Nat} (bits : List (BitVec 64)) (hc : code < 2 ^ 8) :
    (s.columnResult code bits).get F.BIST_LAST_result = code ∧ (s.columnResult code bits).get F.BIST_PAT_applied = s.flt.bist.tPlanned % 2 ^ 17 := by
  unfold State.columnResult
  extract_lets d u b cov col v w
  have hw : w.get F.BIST_PAT_applied = b.tPlanned % 2 ^ 17 := (State.get_put_apart _ _ rfl).trans (State.get_put_self v b.tPlanned rfl)
  clear_value w
  obtain ⟨hresult, happlied⟩ := w.bistRecord_get ⟨1, w.get F.BIST_STS_region, col, b.tPlanned, b.tPlanned, true, cov, code⟩ bits hc
  have hlast : hostPage F.BIST_LAST_result.off = 0 := rfl
  have hpat : hostPage F.BIST_PAT_applied.off = 0 := rfl
  exact ⟨(State.Alters.get_of_zero (State.fullCount_reports _ code) hlast).trans hresult,
    (State.Alters.get_of_zero (State.fullCount_reports _ code) hpat).trans (happlied.trans hw)⟩

/-! ## Groups -/

/-- Only the records of the run differ. -/
def State.Skips (s t : State) : Prop := ∃ r, t = s.setBist { s.flt.bist with run := r }

theorem State.bistSkip_skips (s : State) (x : Nat) : s.Skips (s.bistSkip x) := by
  unfold State.bistSkip
  dsimp only
  split
  · exact ⟨s.flt.bist.run, rfl⟩
  · exact ⟨_, rfl⟩

theorem State.bistSkipTo_skips (s : State) (x : Nat) : s.Skips (s.bistSkipTo x) := by
  have hall (l : List Nat) (f : State → Nat → Nat) (u : State) : u.Skips (l.foldl (fun t i => t.bistSkip (f s i)) u) := by
    induction l generalizing u with
    | nil => exact ⟨u.flt.bist.run, rfl⟩
    | cons i l ih =>
      obtain ⟨r, hr⟩ := u.bistSkip_skips (f s i)
      obtain ⟨q, hq⟩ := ih (u.bistSkip (f s i))
      exact ⟨q, by rw [List.foldl_cons, hq, hr]; rfl⟩
  exact hall _ (fun s i => s.flt.bist.cur + i) s

theorem State.Skips.logged_iff (h : s.Skips t) (id param : Nat) : t.logged id param ↔ s.logged id param := by
  obtain ⟨r, rfl⟩ := h
  exact Iff.rfl

theorem State.Skips.regs (h : s.Skips t) : t.regs = s.regs := by
  obtain ⟨r, rfl⟩ := h
  rfl

/-- R409: the group is done, and the next one follows. -/
theorem State.groupDone_spec (s : State) : s.groupDone.flt.bist.cur = s.flt.bist.cur + 1 ∧ s.groupDone.get F.BIST_STS_phase = 0 ∧
    (∀ f : RF, F.BIST_STS_phase.apart f = true → s.groupDone.get f = s.get f) ∧ s.groupDone.log = s.log ∧ s.groupDone.fab = s.fab := by
  obtain ⟨r, hr⟩ := s.bistSkip_skips s.flt.bist.cur
  unfold State.groupDone
  rw [hr]
  refine ⟨rfl, State.get_put_lit _ rfl, fun f hf => ?_, rfl, rfl⟩
  rw [State.get_put_apart _ _ hf]
  rfl

/-! ## Gaps -/

theorem colmap_whole {n g : Nat} (hg : g < 4) : (F.REGION_COLMAP_gap n g).whole = true ∧
    ((F.REGION_COLMAP_ret n g).whole && decide (1 < 2 ^ (F.REGION_COLMAP_ret n g).w)) = true ∧
    (F.REGION_COLMAP_ret n g).apart (F.REGION_COLMAP_gap n g) = true := by
  rcases (by omega : g = 0 ∨ g = 1 ∨ g = 2 ∨ g = 3) with rfl | rfl | rfl | rfl
  · exact ⟨rfl, rfl, rfl⟩
  · exact ⟨rfl, rfl, rfl⟩
  · exact ⟨rfl, rfl, rfl⟩
  · exact ⟨rfl, rfl, rfl⟩

theorem State.setColGap_spec (s : State) (n : Nat) {g : Nat} (pos : Nat) (ret : Bool) (hg : g < 4) (hpos : pos < 32) :
    (s.setColGap n g pos ret).colGap n g = pos ∧ (s.setColGap n g pos ret).get (F.REGION_COLMAP_ret n g) = if ret then 1 else 0 := by
  obtain ⟨hgap, hret, hapart⟩ := colmap_whole (n := n) hg
  refine ⟨?_, State.get_putB _ _ hret⟩
  unfold State.setColGap State.colGap
  rw [State.get_putB_apart _ _ hapart]
  exact State.get_put_lt _ hgap hpos

theorem State.setColGap_get (s : State) {n : Nat} (g pos : Nat) (ret : Bool) {f : RF} (hf : R.REGION_COLMAP n ≠ f.off) :
    (s.setColGap n g pos ret).get f = s.get f := by
  unfold State.setColGap
  rw [State.get_putB_apart _ _ (apart_off hf), State.get_put_apart _ _ (apart_off hf)]

/-- The gap stands at its new column, and no frame of a used column and no cell has changed. -/
theorem State.gapMove_spec (s : State) (n : Nat) {g pos : Nat} (ret : Bool) (hg : g < 4) (hpos : pos < 32) :
    (s.gapMove n g pos ret).colGap n g = pos ∧ (∀ f : RF, R.REGION_COLMAP n ≠ f.off → (s.gapMove n g pos ret).get f = s.get f) ∧
    (s.gapMove n g pos ret).fab.frames = s.fab.frames ∧ (s.gapMove n g pos ret).fab.nodes = s.fab.nodes ∧
    (s.gapMove n g pos ret).flt.bist = s.flt.bist := by
  have hkeep (u : State) (c p : Nat) : (u.gapKeep n c p).regs = u.regs ∧ (u.gapKeep n c p).fab.frames = u.fab.frames ∧
      (u.gapKeep n c p).fab.nodes = u.fab.nodes ∧ (u.gapKeep n c p).flt = u.flt := by
    unfold State.gapKeep
    dsimp only
    split
    · exact ⟨rfl, rfl, rfl, rfl⟩
    · exact ⟨rfl, rfl, rfl, rfl⟩
  unfold State.gapMove
  extract_lets gap c v
  have hv : v.regs = s.regs ∧ v.fab.frames = s.fab.frames ∧ v.fab.nodes = s.fab.nodes ∧ v.flt = s.flt := by
    show (if pos = gap then s else _ : State).regs = _ ∧ (if pos = gap then s else _ : State).fab.frames = _ ∧
      (if pos = gap then s else _ : State).fab.nodes = _ ∧ (if pos = gap then s else _ : State).flt = _
    split
    · exact ⟨rfl, rfl, rfl, rfl⟩
    · exact hkeep (s.gapClear n (17 * g + gap)) _ _
  clear_value v
  obtain ⟨hregs, hframes, hnodes, hflt⟩ := hv
  have howes (u : State) (lo hi : Nat) : (u.owesCheck n lo hi).regs = u.regs ∧ (u.owesCheck n lo hi).fab = u.fab ∧
      (u.owesCheck n lo hi).flt.bist = u.flt.bist := ⟨rfl, rfl, rfl⟩
  obtain ⟨horegs, hofab, hobist⟩ := howes (v.setColGap n g pos ret) (16 * g + min pos gap) (16 * g + max pos gap)
  refine ⟨?_, fun f hf => ?_, ?_, ?_, ?_⟩
  · exact (State.get_of_regs horegs _).trans (v.setColGap_spec n pos ret hg hpos).1
  · exact (State.get_of_regs horegs _).trans ((v.setColGap_get g pos ret hf).trans (State.get_of_regs hregs f))
  · rw [hofab]
    exact hframes
  · rw [hofab]
    exact hnodes
  · rw [hobist]
    exact congrArg Flt.bist hflt

/-! ## A column that has failed -/

theorem State.morSubstituted_spec (s : State) (kind inst pos cause : Nat) : (s.morSubstituted kind inst pos cause).logged 0x0C01 inst ∧
    (s.morSubstituted kind inst pos cause).flt.bist = s.flt.bist ∧
    (∀ f : RF, f.off ≠ R.FLT_MOR_STS → eventReg f.off = false → (s.morSubstituted kind inst pos cause).get f = s.get f) ∧
    (∀ id param, s.logged id param → (s.morSubstituted kind inst pos cause).logged id param) := by
  have hbist : (s.morAdd kind inst pos cause).flt.bist = s.flt.bist := by
    unfold State.morAdd
    dsimp only
    split
    · split <;> rfl
    · rfl
  have hlog : (s.morAdd kind inst pos cause).log = s.log := by
    unfold State.morAdd
    dsimp only
    split
    · split <;> rfl
    · rfl
  unfold State.morSubstituted
  refine ⟨State.raise_logged _ _ _, ?_, fun f hf he => ?_, fun id param h => ?_⟩
  · rw [State.raise_flt, hbist]
  · rw [State.raise_getKept _ _ _ he, State.morAdd_get _ _ _ _ _ hf]
  · exact State.logged_mono ((State.raise_log (s.morAdd kind inst pos cause) 0x0C01 inst).trans (by rw [hlog])) h

theorem colmap_clear (n : Nat) {off : Nat} (h : off < 0x100000 ∨ 0x200000 ≤ off) (hn : n < 16) : R.REGION_COLMAP n ≠ off := by
  simp only [R.REGION_COLMAP]
  omega

/-- R410: the gap of the group stands at the column that failed, for good. -/
theorem State.columnRetire_spec (s : State) (bits : List (BitVec 64)) :
    (s.columnRetire bits).get F.BIST_STS_phase = 0 ∧ (s.columnRetire bits).logged 0x0C01 (s.get F.BIST_STS_region) ∧
    (s.columnRetire bits).get (F.REGION_COLMAP_ret (s.get F.BIST_STS_region) (s.get F.BIST_STS_group)) = 1 ∧
    (s.columnRetire bits).colGap (s.get F.BIST_STS_region) (s.get F.BIST_STS_group) = s.get F.BIST_STS_column % 17 ∧
    (s.columnRetire bits).get F.BIST_LAST_result = 1 ∧ (s.columnRetire bits).flt.bist.cur = s.flt.bist.cur + 1 ∧
    (∀ id param, s.logged id param → (s.columnRetire bits).logged id param) := by
  have hn : s.get F.BIST_STS_region < 16 := s.get_lt F.BIST_STS_region
  have hg : s.get F.BIST_STS_group < 4 := s.get_lt F.BIST_STS_group
  have htests : s.Tests (s.columnResult 1 bits) := s.columnResult_tests 1 bits
  have hlast : (s.columnResult 1 bits).get F.BIST_LAST_result = 1 := (s.columnResult_get bits (by decide)).1
  unfold State.columnRetire
  dsimp only
  generalize s.get F.BIST_STS_region = n at hn ⊢
  generalize s.get F.BIST_STS_group = g at hg ⊢
  generalize s.get F.BIST_STS_column = p
  generalize s.columnResult 1 bits = u at htests hlast ⊢
  generalize hv : u.setColGap n g (p % 17) true = v
  obtain ⟨hgap, hret⟩ := u.setColGap_spec n (p % 17) true hg (by omega)
  have hvlast : v.get F.BIST_LAST_result = 1 := hv ▸ (u.setColGap_get g (p % 17) true (colmap_clear n (Or.inr (by decide)) hn)).trans hlast
  have hvcur : v.flt.bist.cur = s.flt.bist.cur := hv ▸ htests.cur
  have hvlog (id param : Nat) (h : s.logged id param) : v.logged id param := hv ▸ State.Alters.logged htests h
  rw [hv] at hgap hret
  obtain ⟨hmoved, hmbist, hmget, hmlog⟩ := v.morSubstituted_spec 1 n p 0x0402
  generalize v.morSubstituted 1 n p 0x0402 = w at hmoved hmbist hmget hmlog ⊢
  obtain ⟨hcur, hphase, hget, hlog, -⟩ := w.groupDone_spec
  have hregion (lo k : Nat) : w.groupDone.get ⟨R.REGION_COLMAP n, lo, k⟩ = v.get ⟨R.REGION_COLMAP n, lo, k⟩ := by
    have hne : R.REGION_COLMAP n ≠ R.FLT_MOR_STS := colmap_clear n (Or.inr (by decide)) hn
    have hev : eventReg (R.REGION_COLMAP n) = false := eventReg_of_page (by simp only [R.REGION_COLMAP]; omega)
    rw [hget _ (apart_off (colmap_clear n (Or.inr (by decide)) hn).symm), hmget _ hne hev]
  refine ⟨hphase, ?_, ?_, ?_, ?_, ?_, fun id param h => ?_⟩
  · exact State.logged_mono (l := []) (by simp [hlog]) hmoved
  · exact (hregion _ _).trans hret
  · exact (hregion _ _).trans hgap
  · rw [hget _ rfl, hmget _ (by decide) rfl, hvlast]
  · rw [hcur, hmbist, hvcur]
  · exact State.logged_mono (l := []) (by simp [hlog]) (hmlog _ _ (hvlog _ _ h))

end Sys2Proof.Machine
end

section
/-! PROOFS. O44: the instants of the rolling test. -/

namespace Sys2Proof.Machine

variable {s t u : State}

theorem State.Skips.running (h : s.Skips t) : t.running = s.running := by
  obtain ⟨r, rfl⟩ := h
  rfl

theorem State.nextGroup_lt {x : Nat} (h : s.nextGroup = some x) : x < 64 := List.mem_range.mp (List.mem_of_find?_eq_some h)

theorem State.colGap_of_regs (h : t.regs = s.regs) (n g : Nat) : t.colGap n g = s.colGap n g := State.get_of_regs h _

theorem State.putSts_colGap (s : State) {n : Nat} (g : Nat) (lo w v : Nat) (hn : n < 16) : (s.put ⟨R.BIST_STS, lo, w⟩ v).colGap n g = s.colGap n g :=
  State.get_put_apart _ _ (apart_off (colmap_clear n (Or.inr (by show 0x200000 ≤ R.BIST_STS; decide)) hn).symm)

/-- R407: the group that the test takes. -/
theorem execColumnTestStart_some (hr : s.running = true) (hen : s.get F.BIST_CTL_enable = 1) (hph : s.get F.BIST_STS_phase = 0)
    (hopen : s.flt.bist.open_ = true) (hduty : s.dutyAllows = true) {x : Nat} (hx : s.nextGroup = some x) :
    (s.colGap (x / 4) (x % 4) ≠ 16 → ¬ (x = s.flt.bist.cur ∧ s.flt.bist.begun = true) →
      Completes .columnTestStart s (fun t => t.get F.BIST_STS_phase = 5 ∧ t.get F.BIST_STS_region = x / 4 ∧ t.get F.BIST_STS_group = x % 4)) ∧
    (s.colGap (x / 4) (x % 4) = 16 ∨ (x = s.flt.bist.cur ∧ s.flt.bist.begun = true) →
      Completes .columnTestStart s (fun t => t.get F.BIST_STS_phase = 1 ∧ t.get F.BIST_STS_region = x / 4 ∧
      t.get F.BIST_STS_group = x % 4 ∧ t.get F.BIST_STS_column = 17 * (x % 4) + s.colGap (x / 4) (x % 4) ∧ t.get F.BIST_PAT_applied = 0)) := by
  have hlt := State.nextGroup_lt hx
  obtain ⟨r, hskip⟩ := s.bistSkipTo_skips x
  have hbist (u : State) (b : Bist) (f : RF) : (u.setBist b).get f = u.get f := rfl
  have hgapLt : s.colGap (x / 4) (x % 4) < 32 := s.get_lt _
  generalize hu : s.setBist { s.flt.bist with run := r } = u at hskip
  have hcur : u.flt.bist.cur = s.flt.bist.cur := hu ▸ rfl
  have hbegun : u.flt.bist.begun = s.flt.bist.begun := hu ▸ rfl
  have hregs : u.regs = s.regs := hu ▸ rfl
  generalize hw : (u.put F.BIST_STS_region (x / 4)).put F.BIST_STS_group (x % 4) = w
  have hregion : w.get F.BIST_STS_region = x / 4 := by
    rw [← hw, State.get_put_apart _ _ rfl]
    exact State.get_put_lt _ rfl (by show x / 4 < 2 ^ 4; omega)
  have hgroup : w.get F.BIST_STS_group = x % 4 := by
    rw [← hw]
    exact State.get_put_lt _ rfl (by show x % 4 < 2 ^ 2; omega)
  have hgap : w.colGap (x / 4) (x % 4) = s.colGap (x / 4) (x % 4) := by
    rw [← hw]
    exact (State.putSts_colGap _ _ _ _ _ (by omega)).trans ((State.putSts_colGap _ _ _ _ _ (by omega)).trans (State.colGap_of_regs hregs _ _))
  have hgo : ¬ (! s.running || ! s.on F.BIST_CTL_enable || s.on F.BIST_STS_phase || ! s.flt.bist.open_ || ! s.dutyAllows) = true := by
    rw [hr, State.on_of_one hen, State.on_of_zero hph, hopen, hduty]
    decide
  constructor
  · intro h16 hfirst
    show ∃ t, execColumnTestStart s = .next t ∧ _
    unfold execColumnTestStart
    rw [if_neg hgo, hx]
    dsimp only
    rw [hskip, hw, hgap, hcur, hbegun, if_pos (by simp only [Bool.and_eq_true, Bool.not_eq_true', Bool.and_eq_false_iff, beq_eq_false_iff_ne, bne_iff_ne]; exact ⟨by
      by_cases hxc : x = s.flt.bist.cur
      · exact Or.inr (by simpa [hxc] using hfirst)
      · exact Or.inl hxc, h16⟩)]
    refine ⟨_, rfl, State.get_put_lit _ rfl, ?_, ?_⟩
    · rw [State.get_put_apart _ _ rfl, hbist, hregion]
    · rw [State.get_put_apart _ _ rfl, hbist, hgroup]
  · intro hready
    have hnot : ¬ ((! (x == s.flt.bist.cur && s.flt.bist.begun)) && s.colGap (x / 4) (x % 4) != 16) = true := by
      rcases hready with h | ⟨h, h'⟩
      · simp [h]
      · simp [h, h']
    show ∃ t, execColumnTestStart s = .next t ∧ _
    unfold execColumnTestStart
    rw [if_neg hgo, hx]
    dsimp only
    rw [hskip, hw, hgap, hcur, hbegun, if_neg hnot]
    generalize hv : (w.gapClear (x / 4) (17 * (x % 4) + s.colGap (x / 4) (x % 4))).setBist _ = v
    have hvregs : v.regs = w.regs := hv ▸ rfl
    refine ⟨_, rfl, ?_, ?_, ?_, ?_, ?_⟩
    · rw [State.get_put_apart _ _ rfl, State.get_put_apart _ _ rfl, State.get_put_apart _ _ rfl]
      exact State.get_put_lit _ rfl
    · rw [State.get_put_apart _ _ rfl, State.get_put_apart _ _ rfl, State.get_put_apart _ _ rfl, State.get_put_apart _ _ rfl, State.get_of_regs hvregs, hregion]
    · rw [State.get_put_apart _ _ rfl, State.get_put_apart _ _ rfl, State.get_put_apart _ _ rfl, State.get_put_apart _ _ rfl, State.get_of_regs hvregs, hgroup]
    · rw [State.get_put_apart _ _ rfl, State.get_put_apart _ _ rfl]
      exact State.get_put_lt _ rfl (by show _ < 2 ^ 7; omega)
    · rw [State.get_put_apart _ _ rfl]
      exact State.get_put_lit _ rfl

/-- R409: after the last group the pass ends, and the next one begins. -/
theorem execColumnTestStart_none (hr : s.running = true) (hen : s.get F.BIST_CTL_enable = 1) (hph : s.get F.BIST_STS_phase = 0)
    (hopen : s.flt.bist.open_ = true) (hduty : s.dutyAllows = true) (hx : s.nextGroup = none) (hcur : s.flt.bist.cur ≠ 0) :
    Completes .columnTestStart s (fun t => t.loggedSome 0x0401 ∧ t.flt.bist.cur = 0 ∧
      t.flt.bist.open_ = true ∧ t.get F.BIST_PASS_passes = (s.get F.BIST_PASS_passes + 1) % 2 ^ 16) := by
  have hgo : ¬ (! s.running || ! s.on F.BIST_CTL_enable || s.on F.BIST_STS_phase || ! s.flt.bist.open_ || ! s.dutyAllows) = true := by
    rw [hr, State.on_of_one hen, State.on_of_zero hph, hopen, hduty]
    decide
  have hskip := (s.bistSkipTo_skips 64).regs
  show ∃ t, execColumnTestStart s = .next t ∧ _
  unfold execColumnTestStart
  rw [if_neg hgo, hx]
  dsimp only
  rw [if_pos hcur]
  unfold State.bistPassEnd
  extract_lets u b v w
  have hv : v.regs = s.regs := by
    refine Eq.trans ?_ hskip
    show (match b.run with | some t => _ | none => u : State).regs = u.regs
    split <;> rfl
  have hpasses : w.get F.BIST_PASS_passes = (s.get F.BIST_PASS_passes + 1) % 2 ^ 16 := by
    refine (State.raiseFree_getKept _ _ rfl).trans ((State.get_put_apart _ _ rfl).trans ((State.get_inc v 1 rfl).trans ?_))
    rw [State.get_of_regs hv]
    rfl
  have hlogged : w.loggedSome 0x0401 := State.raiseFree_loggedSome _ _
  clear_value w
  have hpass : w.bistPass.regs = w.regs ∧ w.bistPass.log = w.log ∧ w.bistPass.flt.bist.cur = 0 ∧ w.bistPass.flt.bist.open_ = true := ⟨rfl, rfl, rfl, rfl⟩
  obtain ⟨hpregs, hplog, hpcur, hpopen⟩ := hpass
  obtain ⟨p, hp⟩ := hlogged
  exact ⟨_, rfl, ⟨p, State.logged_mono (l := []) (by simp [hplog]) hp⟩, hpcur, hpopen, (State.get_of_regs hpregs _).trans hpasses⟩

/-- R408 to R410: the result of the test of a column. -/
theorem execColumnTestDone_spec (s : State) (h1 : s.get F.BIST_STS_phase = 1) :
    let n := s.get F.BIST_STS_region
    let g := s.get F.BIST_STS_group
    Completes (.columnTestDone true) s (fun t => t.get F.BIST_STS_phase = (if s.colGap n g = 0 then 5 else 2) ∧
      t.get F.BIST_LAST_result = 0 ∧ t.get F.BIST_PAT_applied = s.flt.bist.tPlanned % 2 ^ 17 ∧ t.colGap n g = s.colGap n g) ∧
    (s.flt.bist.retest = false → Completes (.columnTestDone false) s (fun t => t.flt.bist.retest = true ∧ t.get F.BIST_STS_phase = 1 ∧
      t.log = s.log)) ∧
    (s.flt.bist.retest = true → s.get F.BIST_CTL_diag_en = 1 → s.fuses.testClose = false →
      Completes (.columnTestDone false) s (fun t => t.get F.BIST_STS_phase = 6 ∧ t.logged 0x0402 n)) ∧
    (s.flt.bist.retest = true → s.get F.BIST_CTL_diag_en = 0 ∨ s.fuses.testClose = true →
      Completes (.columnTestDone false) s (fun t => t.get F.BIST_STS_phase = 0 ∧ t.logged 0x0402 n ∧ t.logged 0x0C01 n ∧
        t.get (F.REGION_COLMAP_ret n g) = 1 ∧ t.colGap n g = s.get F.BIST_STS_column % 17 ∧ t.flt.bist.cur = s.flt.bist.cur + 1)) := by
  have hn : s.get F.BIST_STS_region < 16 := s.get_lt F.BIST_STS_region
  dsimp only
  refine ⟨?_, fun hre => ?_, fun hre hdiag hclose => ?_, fun hre hdiag => ?_⟩
  · have htests := s.columnResult_tests 0 []
    obtain ⟨hlast, happlied⟩ := s.columnResult_get [] (code := 0) (by decide)
    show ∃ t, execColumnTestDone true s = .next t ∧ _
    unfold execColumnTestDone
    rw [if_neg (not_not_intro h1)]
    dsimp only
    rw [if_neg (by simp), if_neg (by simp)]
    generalize s.columnResult 0 [] = u at htests hlast happlied ⊢
    have hgroup : u.get F.BIST_STS_group = s.get F.BIST_STS_group := State.Alters.get_of_zero htests rfl
    have hgap (g : Nat) : u.colGap (s.get F.BIST_STS_region) g = s.colGap (s.get F.BIST_STS_region) g := by
      refine State.Alters.get_of_zero htests ?_
      show testReg (R.REGION_COLMAP _) = 0
      unfold testReg
      rw [if_neg, hostPage_out (Or.inr (by simp only [R.REGION_COLMAP]; omega))]
      exact not_or.mpr ⟨colmap_clear _ (Or.inr (by decide)) hn, colmap_clear _ (Or.inr (by decide)) hn⟩
    rw [hgroup, hgap]
    split
    · refine ⟨_, rfl, State.get_put_lit _ rfl, ?_, ?_, ?_⟩
      · rw [State.get_put_apart _ _ rfl, hlast]
      · rw [State.get_put_apart _ _ rfl, happlied]
      · rw [← hgap]
        exact State.putSts_colGap _ _ _ _ _ hn
    · refine ⟨_, rfl, State.get_put_lit _ rfl, ?_, ?_, ?_⟩
      · rw [State.get_put_apart _ _ rfl, hlast]
      · rw [State.get_put_apart _ _ rfl, happlied]
      · rw [← hgap]
        exact State.putSts_colGap _ _ _ _ _ hn
  · have hphase (b : Bist) : (s.setBist b).get F.BIST_STS_phase = 1 := h1
    show ∃ t, execColumnTestDone false s = .next t ∧ _
    unfold execColumnTestDone
    rw [if_neg (not_not_intro h1)]
    dsimp only
    rw [if_pos (by simp [hre])]
    refine ⟨_, rfl, rfl, ?_, rfl⟩
    rw [State.get_put_apart _ _ rfl, State.get_put_apart _ _ rfl, hphase]
  · show ∃ t, execColumnTestDone false s = .next t ∧ _
    unfold execColumnTestDone
    rw [if_neg (not_not_intro h1)]
    dsimp only
    rw [if_neg (by simp [hre]), if_pos (by simp)]
    have hd : (s.raise 0x0402 (s.get F.BIST_STS_region)).on F.BIST_CTL_diag_en = true := State.on_of_one ((State.raise_getKept _ _ _ rfl).trans hdiag)
    rw [hd, State.raise_fuses, hclose]
    refine ⟨_, rfl, State.get_put_lit _ rfl, ?_⟩
    exact State.logged_mono (l := []) (by simp) (State.raise_logged s 0x0402 (s.get F.BIST_STS_region))
  · have hlogged := State.raise_logged s 0x0402 (s.get F.BIST_STS_region)
    have hd : ((s.raise 0x0402 (s.get F.BIST_STS_region)).on F.BIST_CTL_diag_en && ! (s.raise 0x0402 (s.get F.BIST_STS_region)).fuses.testClose) = false := by
      rcases hdiag with h | h
      · rw [State.on_of_zero ((State.raise_getKept _ _ _ rfl).trans h), Bool.false_and]
      · rw [State.raise_fuses, h, Bool.not_true, Bool.and_false]
    show ∃ t, execColumnTestDone false s = .next t ∧ _
    unfold execColumnTestDone
    rw [if_neg (not_not_intro h1)]
    dsimp only
    rw [if_neg (by simp [hre]), if_pos (by simp), hd, if_neg (by decide)]
    have hget (f : RF) (he : eventReg f.off = false) := s.raise_getKept 0x0402 (s.get F.BIST_STS_region) (f := f) he
    have hcur0 : (s.raise 0x0402 (s.get F.BIST_STS_region)).flt.bist.cur = s.flt.bist.cur := by rw [State.raise_flt]
    obtain ⟨hphase, hsub, hret, hgap, -, hcur, hlog⟩ := (s.raise 0x0402 (s.get F.BIST_STS_region)).columnRetire_spec []
    rw [hget F.BIST_STS_region rfl] at hsub hret hgap
    rw [hget F.BIST_STS_group rfl] at hret hgap
    rw [hget F.BIST_STS_column rfl] at hgap
    rw [hcur0] at hcur
    exact ⟨_, rfl, hphase, hlog _ _ hlogged, hsub, hret, hgap, hcur⟩

theorem execColumnDiagnosisDone_spec (row : Fin 72) (cell : Fin 32) (bit : Fin 112) (s : State) (h6 : s.get F.BIST_STS_phase = 6) :
    Completes (.columnDiagnosisDone row cell bit) s (fun t => t.get F.BIST_STS_phase = 0 ∧ t.logged 0x0C01 (s.get F.BIST_STS_region) ∧
      t.get (F.REGION_COLMAP_ret (s.get F.BIST_STS_region) (s.get F.BIST_STS_group)) = 1 ∧ t.get F.BIST_LAST_result = 1) := by
  show ∃ t, execColumnDiagnosisDone row cell bit s = .next t ∧ _
  unfold execColumnDiagnosisDone
  rw [if_neg (not_not_intro h6)]
  dsimp only
  obtain ⟨hphase, hsub, hret, -, hlast, -, -⟩ := s.columnRetire_spec [BitVec.ofNat 64 (s.get F.BIST_STS_region + s.get F.BIST_STS_column * 2 ^ 6 +
    row.val * 2 ^ 13 + cell.val * 2 ^ 20 + bit.val * 2 ^ 48)]
  exact ⟨_, rfl, hphase, hsub, hret, hlast⟩

/-! ## The gap moves on -/

theorem State.frozen_eq (s : State) (n : Nat) : s.frozen n = false ↔ s.get (F.REGION_FREEZE_freeze n) = 0 ∧ s.get (F.REGION_FREEZE_hold_freeze n) = 0 := by
  unfold State.frozen
  rw [Bool.or_eq_false_iff]
  have hoff (f : RF) (hf : f.w = 1) : s.on f = false ↔ s.get f = 0 := by
    rcases s.get_bit f hf with h | h
    · simp [State.on_of_zero h, h]
    · simp [State.on_of_one h, h]
  rw [hoff _ rfl, hoff _ rfl]

theorem execMigrationCopyDone_spec (s : State) :
    let still := s.get (F.REGION_FREEZE_freeze (s.get F.BIST_STS_region)) = 0 ∧ s.get (F.REGION_FREEZE_hold_freeze (s.get F.BIST_STS_region)) = 0
    (¬ still → Completes .migrationCopyDone s (fun t => t = s) ∧ Completes .migration s (fun t => t = s)) ∧
    (still → s.get F.BIST_STS_phase = 2 → Completes .migrationCopyDone s (fun t => t.get F.BIST_STS_phase = 3 ∧ t.flt.bist.waiting = true)) ∧
    (still → s.get F.BIST_STS_phase = 5 → Completes .migrationCopyDone s (fun t => t.get F.BIST_STS_phase = 5 ∧ t.flt.bist.waiting = true)) := by
  dsimp only
  rw [← State.frozen_eq]
  refine ⟨fun hfrozen => ?_, fun hstill h2 => ?_, fun hstill h5 => ?_⟩
  · rw [Bool.not_eq_false] at hfrozen
    constructor
    · show ∃ t, execMigrationCopyDone s = .next t ∧ _
      unfold execMigrationCopyDone
      rw [if_pos hfrozen]
      exact ⟨_, rfl, rfl⟩
    · show ∃ t, execMigration s = .next t ∧ _
      unfold execMigration
      rw [if_pos (Or.inr (Or.inr (Or.inl hfrozen)))]
      exact ⟨_, rfl, rfl⟩
  · show ∃ t, execMigrationCopyDone s = .next t ∧ _
    unfold execMigrationCopyDone
    rw [hstill, if_neg (by decide), if_pos h2]
    exact ⟨_, rfl, State.get_put_lit _ rfl, rfl⟩
  · have hset (b : Bist) : (s.setBist b).get F.BIST_STS_phase = 5 := h5
    show ∃ t, execMigrationCopyDone s = .next t ∧ _
    unfold execMigrationCopyDone
    rw [hstill, if_neg (by decide), if_neg (by omega)]
    by_cases hw : s.flt.bist.waiting = true
    · rw [if_neg (by simp [hw])]
      exact ⟨_, rfl, h5, hw⟩
    · rw [if_pos (by simp [hw, h5])]
      exact ⟨_, rfl, hset _, rfl⟩

/-- R411: the gap moves by a column when the window is open and the region runs. -/
theorem execMigration_spec (s : State) (hwait : s.flt.bist.waiting = true) (hopen : s.windowOpen (s.get F.BIST_STS_region) 3 = true)
    (hfree : s.get (F.REGION_FREEZE_freeze (s.get F.BIST_STS_region)) = 0) (hhold : s.get (F.REGION_FREEZE_hold_freeze (s.get F.BIST_STS_region)) = 0) :
    let n := s.get F.BIST_STS_region
    let g := s.get F.BIST_STS_group
    (s.get F.BIST_STS_phase = 3 → Completes .migration s (fun t => t.colGap n g = s.colGap n g - 1 ∧ t.get F.BIST_STS_phase = 0 ∧
      t.flt.bist.waiting = false ∧ t.fab.frames = s.fab.frames ∧ t.fab.nodes = s.fab.nodes)) ∧
    (s.get F.BIST_STS_phase = 5 → s.colGap n g < 16 → Completes .migration s (fun t => t.colGap n g = s.colGap n g + 1 ∧
      t.get F.BIST_STS_phase = (if s.colGap n g + 1 = 16 then 0 else 5) ∧ t.fab.frames = s.fab.frames ∧ t.fab.nodes = s.fab.nodes)) := by
  have hn : s.get F.BIST_STS_region < 16 := s.get_lt F.BIST_STS_region
  have hg : s.get F.BIST_STS_group < 4 := s.get_lt F.BIST_STS_group
  have hgapLt : s.colGap (s.get F.BIST_STS_region) (s.get F.BIST_STS_group) < 32 := s.get_lt _
  have hgo (h : s.get F.BIST_STS_phase = 3 ∨ s.get F.BIST_STS_phase = 5) : ¬ ((s.get F.BIST_STS_phase ≠ 3 ∧ s.get F.BIST_STS_phase ≠ 5) ∨
      (! s.flt.bist.waiting) = true ∨ s.frozen (s.get F.BIST_STS_region) = true ∨ (! s.windowOpen (s.get F.BIST_STS_region) 3) = true) := by
    rw [hwait, hopen, (s.frozen_eq _).mpr ⟨hfree, hhold⟩]
    rcases h with h | h <;> simp [h]
  have hset (u : State) (b : Bist) : (u.setBist b).regs = u.regs ∧ (u.setBist b).fab = u.fab := ⟨rfl, rfl⟩
  dsimp only
  refine ⟨fun h3 => ?_, fun h5 hlt => ?_⟩
  · show ∃ t, execMigration s = .next t ∧ _
    unfold execMigration
    dsimp only
    rw [if_neg (hgo (Or.inl h3)), if_pos h3]
    generalize s.get F.BIST_STS_region = n at *
    generalize s.get F.BIST_STS_group = g at *
    obtain ⟨hgap, -, hframes, hnodes, -⟩ := s.gapMove_spec n false hg (pos := s.colGap n g - 1) (by omega)
    generalize s.gapMove n g (s.colGap n g - 1) false = u at hgap hframes hnodes ⊢
    refine ⟨_, rfl, ?_, State.get_put_lit _ rfl, rfl, hframes, hnodes⟩
    exact (State.putSts_colGap _ _ _ _ _ hn).trans ((State.colGap_of_regs (hset u _).1 n g).trans hgap)
  · show ∃ t, execMigration s = .next t ∧ _
    unfold execMigration
    dsimp only
    rw [if_neg (hgo (Or.inr h5)), if_neg (by omega)]
    generalize s.get F.BIST_STS_region = n at *
    generalize s.get F.BIST_STS_group = g at *
    obtain ⟨hgap, hget, hframes, hnodes, -⟩ := s.gapMove_spec n false hg (pos := s.colGap n g + 1) (by omega)
    generalize s.gapMove n g (s.colGap n g + 1) false = u at hgap hget hframes hnodes ⊢
    generalize hv : u.setBist { s.flt.bist with waiting := false } = v
    obtain ⟨hvregs, hvfab⟩ : v.regs = u.regs ∧ v.fab = u.fab := hv ▸ hset u _
    have hvgap : v.colGap n g = s.colGap n g + 1 := (State.colGap_of_regs hvregs n g).trans hgap
    have hvphase : v.get F.BIST_STS_phase = 5 := (State.get_of_regs hvregs _).trans ((hget _ (colmap_clear n (Or.inr (by decide)) hn)).trans h5)
    rw [← hvfab] at hframes hnodes
    rw [hvgap]
    by_cases h16 : s.colGap n g + 1 = 16
    · rw [if_neg (not_not_intro h16), if_pos h16]
      split
      · obtain ⟨-, hphase, hkept, -, hfab⟩ := v.groupDone_spec
        refine ⟨_, rfl, ?_, hphase, ?_, ?_⟩
        · rw [State.colGap, hkept _ (apart_off (colmap_clear n (Or.inr (by decide)) hn).symm)]
          exact hvgap
        · rw [hfab, hframes]
        · rw [hfab, hnodes]
      · refine ⟨_, rfl, ?_, State.get_put_lit _ rfl, hframes, hnodes⟩
        exact (State.putSts_colGap _ _ _ _ _ hn).trans ((State.colGap_of_regs (hset v _).1 n g).trans hvgap)
    · rw [if_pos h16, if_neg h16]
      exact ⟨_, rfl, hvgap, hvphase, hframes, hnodes⟩

theorem execWindowWaitExpiry_spec (n : Fin 16) (s : State) (hwait : s.flt.bist.waiting = true) (hn : s.get F.BIST_STS_region = n)
    (hclosed : s.windowOpen n 3 = false) :
    Completes (.windowWaitExpiry n) s (fun t => t.get F.BIST_WAIT_count = min (s.get F.BIST_WAIT_count + 1) (2 ^ 16 - 1) ∧ t.logged 0x0404 n) := by
  show ∃ t, execWindowWaitExpiry n s = .next t ∧ _
  unfold execWindowWaitExpiry
  rw [hwait, hn, hclosed]
  refine ⟨_, congrArg (fun u => (.next u : Out)) (if_pos (by simp)), ?_, State.raise_logged _ _ _⟩
  rw [State.raise_getKept _ _ _ rfl]
  exact State.get_sat _ _ rfl

/-- Settles O44. -/
theorem theRollingTestMovesTheGap : Obligations.TheRollingTestMovesTheGap :=
  ⟨fun _ hr hen hph hopen hduty => ⟨fun _ hx => (execColumnTestStart_some hr hen hph hopen hduty hx).1,
      fun _ hx => (execColumnTestStart_some hr hen hph hopen hduty hx).2, execColumnTestStart_none hr hen hph hopen hduty⟩,
    execColumnTestDone_spec, execColumnDiagnosisDone_spec, execMigrationCopyDone_spec, execMigration_spec, execWindowWaitExpiry_spec⟩

end Sys2Proof.Machine
end

section
/-! SUPPORT. What the service of the ports leaves alone (R341 to R349): of the registers it writes those of events, the counts and the status of a queue,
and the frames sent by a port; a late frame may name a queue at any place. -/

namespace Sys2Proof.Machine

variable {s t u : State}

/-- A register at the place of the status, the words pushed or the words discarded of a queue. -/
def queuePlace (off : Nat) : Bool := decide (0xA0000 ≤ off) && (off % 0x400 == 8 || off % 0x400 == 0xC || off % 0x400 == 0x18)

/-- The registers that the service of the ports may write. -/
def serveReg (off : Nat) : Word :=
  if queuePlace off ∨ (0x280000 ≤ off ∧ off % 0x1000 = 0x34) ∨ (0x20008 ≤ off ∧ off < 0x30000) then BitVec.allOnes 32 else 0

/-- The registers that a flush of a port may write beside these: the pages of the ports. -/
def flushReg (off : Nat) : Word := if 0x280000 ≤ off ∧ off % 0x1000 < 0x40 then BitVec.allOnes 32 else serveReg off

/-- The state but for what is sent, the queues, and events; of lanes and groups all but their place in the stream. -/
def State.sansServe (s : State) : State × (Nat → Lane) × (Nat → Grp) :=
  ({ s with
      regs := [], xq := [], log := [], con := { s.con with out := [] }, lane := [], grp := [], evtLast := [], freeCtr := 0
      pel := { s.pel with ports := [], sent := [], mgmt := [], events := [] }
      hif := { s.hif with rings := [], writes := [], msix := [], pba := [], evtSeq := 0, evtLost := 0 } },
    fun n => { s.laneL n with slot := 0, out := [], scr := 0 }, fun g => { s.grpG g with txNext := 0 })

/-- The service of ports leads from one state to the other. -/
abbrev State.Serves (s t : State) : Prop := s.Alters serveReg State.sansServe t

/-- Beside that the flush of ports. -/
abbrev State.Flushes (s t : State) : Prop := s.Alters flushReg State.sansServe t

theorem serveReg_in {off : Nat} (h : queuePlace off = true ∨ (0x280000 ≤ off ∧ off % 0x1000 = 0x34) ∨ (0x20008 ≤ off ∧ off < 0x30000)) :
    serveReg off = BitVec.allOnes 32 := if_pos h

theorem serveReg_out {off : Nat} (h : off < 0x20008 ∨ 0x30000 ≤ off) (hq : queuePlace off = false) (hp : off < 0x280000 ∨ off % 0x1000 ≠ 0x34) :
    serveReg off = 0 := by
  refine if_neg ?_
  rw [hq]
  simp only [Bool.false_eq_true, false_or]
  omega

theorem queuePlace_off {off : Nat} (h : off < 0xA0000 ∨ off % 0x400 ≠ 8 ∧ off % 0x400 ≠ 0xC ∧ off % 0x400 ≠ 0x18) : queuePlace off = false := by
  unfold queuePlace
  rcases h with h | ⟨h8, hc, h18⟩
  · rw [decide_eq_false (by omega), Bool.false_and]
  · simp [h8, hc, h18]

theorem queuePlace_on {off : Nat} (h : 0xA0000 ≤ off) (h' : off % 0x400 = 8 ∨ off % 0x400 = 0xC ∨ off % 0x400 = 0x18) : queuePlace off = true := by
  unfold queuePlace
  rcases h' with h' | h' | h' <;> simp [h, h']

theorem flushReg_out {off : Nat} (h : off < 0x20008 ∨ 0x30000 ≤ off) (hq : queuePlace off = false) (hp : off < 0x280000 ∨ 0x40 ≤ off % 0x1000) :
    flushReg off = 0 := by
  unfold flushReg
  rw [if_neg (by omega)]
  exact serveReg_out h hq (by omega)

theorem serveReg_eventful : Eventful serveReg State.sansServe := by
  refine ⟨fun off h => serveReg_in (Or.inr (Or.inr ?_)), fun u => rfl⟩
  simp only [eventReg, Bool.or_eq_true, beq_iff_eq, R.HIF_EVT_LOST, R.HIF_RING_STS, R.HIF_RING_CNT, R.HIF_RING_OWN] at h
  omega

theorem flushReg_eventful : Eventful flushReg State.sansServe := by
  refine ⟨fun off h => ?_, fun u => rfl⟩
  unfold flushReg
  split
  · rfl
  · exact serveReg_eventful.reg off h

theorem State.Serves.flushes (h : s.Serves t) : s.Flushes t := by
  refine .mono h (fun off i hi => ?_) fun _ _ hab => hab
  unfold flushReg at hi
  by_cases hp : 0x280000 ≤ off ∧ off % 0x1000 < 0x40
  · rw [if_pos hp, BitVec.getLsbD_allOnes, decide_eq_false_iff_not] at hi
    exact BitVec.getLsbD_of_ge _ _ (by omega)
  · rwa [if_neg hp] at hi

/-! ### What it leaves -/

theorem State.Flushes.mode (h : s.Flushes t) : t.mode = s.mode := congrArg (fun u => u.1.mode) h.part
theorem State.Flushes.pwr (h : s.Flushes t) : t.pwr = s.pwr := congrArg (fun u => u.1.pwr) h.part
theorem State.Flushes.ldr (h : s.Flushes t) : t.ldr = s.ldr := congrArg (fun u => u.1.ldr) h.part
theorem State.Flushes.flt (h : s.Flushes t) : t.flt = s.flt := congrArg (fun u => u.1.flt) h.part
theorem State.Flushes.fab (h : s.Flushes t) : t.fab = s.fab := congrArg (fun u => u.1.fab) h.part
theorem State.Flushes.lane (h : s.Flushes t) (n : Nat) : { t.laneL n with slot := 0, out := [], scr := 0 } = { s.laneL n with slot := 0, out := [], scr := 0 } :=
  congrFun (congrArg (fun u => u.2.1) h.part) n
theorem State.Flushes.grp (h : s.Flushes t) (g : Nat) : { t.grpG g with txNext := 0 } = { s.grpG g with txNext := 0 } :=
  congrFun (congrArg (fun u => u.2.2) h.part) g

/-! ### Queues -/

theorem State.putQueue_serves (s : State) {f : RF} {a q : Nat} (v : Nat) (hf : f.off = a + 0x400 * q) (ha : a = 0xA0008 ∨ a = 0xA000C ∨ a = 0xA0018) :
    s.Serves (s.put f v) :=
  .field serveReg_eventful v (by rw [serveReg_in (Or.inl (queuePlace_on (by omega) (by omega))), and_not_allOnes])

theorem State.setXq_serves (s : State) (q : Nat) (x : Xq) : s.Serves (s.setXq q x) := .of_same rfl rfl rfl

theorem State.xqSync_serves (s : State) (q : Nat) : s.Serves (s.xqSync q) := by
  have hsts (u : State) (lo w v : Nat) : u.Serves (u.put ⟨R.XQ_STS q, lo, w⟩ v) := u.putQueue_serves (a := 0xA0008) (q := q) v rfl (by decide)
  exact ((((hsts _ _ _ _).trans (hsts _ _ _ _)).trans (hsts _ _ _ _)).trans (hsts _ _ _ _)).trans (hsts _ _ _ _)

theorem State.xqStore_serves (s : State) (q : Nat) (w : XWord) : s.Serves (s.xqStore q w) := by
  have hput (u : State) (v : Nat) : u.Serves (u.put (F.XQ_PUSHED_count q) v) := u.putQueue_serves (a := 0xA000C) (q := q) v rfl (by decide)
  exact ((s.setXq_serves q _).trans (hput _ _)).trans (State.xqSync_serves _ q)

theorem State.xqPush_serves (s : State) (q : Nat) (d : BitVec 128) (sb : BitVec 16) : s.Serves (s.xqPush q d sb) := by
  have hput (u : State) (v : Nat) : u.Serves (u.put (F.XQ_DISCARD_count q) v) := u.putQueue_serves (a := 0xA0018) (q := q) v rfl (by decide)
  have hopen (u : State) (b : Bool) : u.Serves (u.putB (F.XQ_STS_open_w q) b) := State.putQueue_serves u (a := 0xA0008) (q := q) _ rfl (by decide)
  unfold State.xqPush
  refine .ite (fun _ => ((s.setXq_serves q _).trans (hput _ _)).trans (.ite (fun _ => .raiseFree serveReg_eventful _) fun _ => .refl _ _ _)) fun _ => ?_
  exact ((s.setXq_serves q _).trans (hopen _ _)).trans (State.xqStore_serves _ q _)

theorem State.xqDrain_serves (q k : Nat) (s : State) : s.Serves (State.xqDrain k s q) := by
  induction k generalizing s with
  | zero => exact .refl _ _ _
  | succ k ih =>
    unfold State.xqDrain
    split
    · exact .refl _ _ _
    · exact .ite (fun _ => .refl _ _ _) fun _ => ((s.setXq_serves q _).trans (State.xqPush_serves _ q _ _)).trans (ih _)

theorem State.xqFeed_serves (s : State) (q : Nat) (ws : List (BitVec 128 × BitVec 16)) : s.Serves (s.xqFeed q ws) :=
  (s.setXq_serves q _).trans (State.xqDrain_serves q _ _)

/-! ### Lanes -/

theorem State.setLane_serves (s : State) (n : Nat) {x : Lane} (h : { x with slot := 0, out := [], scr := 0 } = { s.laneL n with slot := 0, out := [], scr := 0 }) :
    s.Serves (s.setLane n x) := by
  refine .of_same rfl rfl (Prod.ext rfl (Prod.ext (funext fun m => ?_) rfl))
  show ({ (SMap.get (fun _ => ({} : Lane)) (s.setLane n x).lane m) with slot := 0, out := [], scr := 0 } : Lane) = { s.laneL m with slot := 0, out := [], scr := 0 }
  by_cases hm : m = n
  · subst hm
    rw [State.setLane_lane, SMap.get_set_same]
    exact h
  · rw [State.setLane_lane, SMap.get_set_ne _ _ _ _ _ hm]
    rfl

theorem State.setGrp_serves (s : State) (g : Nat) {x : Grp} (h : { x with txNext := 0 } = { s.grpG g with txNext := 0 }) : s.Serves (s.setGrp g x) := by
  refine .of_same rfl rfl (Prod.ext rfl (Prod.ext rfl (funext fun m => ?_)))
  show ({ (SMap.get (fun _ => ({} : Grp)) (s.setGrp g x).grp m) with txNext := 0 } : Grp) = { s.grpG m with txNext := 0 }
  by_cases hm : m = g
  · subst hm
    rw [State.setGrp_grp, SMap.get_set_same]
    exact h
  · rw [State.setGrp_grp, SMap.get_set_ne _ _ _ _ _ hm]
    rfl

theorem State.laneFiller_serves (s : State) (n : Nat) : s.Serves (s.laneFiller n) := by
  have hout (u : State) (l : List LaneOut) : u.Serves (u.setLane n { u.laneL n with out := l }) := u.setLane_serves n rfl
  have hscr (u : State) (k : BitVec 58) : u.Serves (u.setLane n { u.laneL n with scr := k }) := u.setLane_serves n rfl
  unfold State.laneFiller
  split
  · exact (hout s _).trans (hout _ _)
  · exact (hscr s _).trans (hout _ _)

theorem State.laneSlot_serves (s : State) (n : Nat) : s.Serves (s.laneSlot n) := by
  have hslot (u : State) (m k : Nat) : u.Serves (u.setLane m { u.laneL m with slot := k }) := u.setLane_serves m rfl
  unfold State.laneSlot
  dsimp only
  refine .ite (fun _ => .refl _ _ _) fun _ => .ite (fun _ => hslot s n _) fun _ => ?_
  exact State.Alters.trans (.foldl (fun u m _ => (hslot u m 0).trans (State.laneFiller_serves _ m)) s) (hslot _ n 1)

theorem State.portSlots_serves (p k : Nat) (s : State) : s.Serves (State.portSlots k s p) := by
  induction k generalizing s with
  | zero => exact .refl _ _ _
  | succ k ih =>
    unfold State.portSlots
    split
    · exact .refl _ _ _
    · next r hr =>
      have hlane : s.Serves r.2 := by
        unfold State.portLane at hr
        obtain ⟨k, _, rfl⟩ := Option.map_eq_some_iff.mp hr
        exact s.setGrp_serves _ rfl
      exact (hlane.trans (State.laneSlot_serves _ _)).trans (ih _)

theorem State.portSlotAll_serves (s : State) (p : Nat) : s.Serves (s.portSlotAll p) :=
  .foldl (fun u _ _ => .ite (fun _ => u.laneSlot_serves _) fun _ => .refl _ _ _) s

/-! ### Ports -/

theorem State.setPort_serves (s : State) (p : Nat) (x : Port) : s.Serves (s.setPort p x) := .of_same rfl rfl rfl
theorem State.setSent_serves (s : State) (l : List PelSent) : s.Serves (s.setPel { s.pel with sent := l }) := .of_same rfl rfl rfl
theorem State.setMgmt_serves (s : State) (l : List (Nat × PFrame)) : s.Serves (s.setPel { s.pel with mgmt := l }) := .of_same rfl rfl rfl

theorem State.pelSend_serves (s : State) (p type body : Nat) : s.Serves (s.pelSend p type body) :=
  State.Alters.trans (.ite (fun _ => s.portSlotAll_serves p) fun _ => State.portSlots_serves p 1 s) (State.setSent_serves _ _)

theorem State.pelCredit_serves (s : State) (p : Nat) : s.Serves (s.pelCredit p) := (s.setPort_serves p _).trans (State.pelSend_serves _ _ _ _)

theorem State.pelFree_serves (s : State) (p v cost : Nat) : s.Serves (s.pelFree p v cost) :=
  .ite (fun _ => (s.setPort_serves p _).trans (State.pelCredit_serves _ _)) fun _ => s.setPort_serves p _

theorem State.bufLeave_serves (s : State) (p id : Nat) : s.Serves (s.bufLeave p id) := by
  unfold State.bufLeave
  dsimp only
  split
  · exact .refl _ _ _
  · exact .ite (fun _ => s.setPort_serves p _) fun _ => (s.setPort_serves p _).trans (State.pelFree_serves _ _ _ _)

theorem State.pelDrained_serves (s : State) (q : Nat) : s.Serves (s.pelDrained q) :=
  .foldl (fun u p _ => .ite (fun _ => State.Alters.trans (u.setPort_serves p _) (.foldl (fun v _ _ => v.bufLeave_serves p _) _)) fun _ => .refl _ _ _) s

theorem State.pelDeliver_serves (s : State) (p q id : Nat) (ws : List (BitVec 128 × BitVec 16)) : s.Serves (s.pelDeliver p q id ws) :=
  ((s.xqFeed_serves q ws).trans (State.setPort_serves _ p _)).trans (State.pelDrained_serves _ q)

theorem State.pelTake_serves (s : State) (p : Nat) (t : LateFrame) : s.Serves (s.pelTake p t) := by
  unfold State.pelTake
  dsimp only
  split
  · exact (s.setPort_serves p _).trans (State.pelDeliver_serves _ _ _ _ _)
  · exact ((s.setPort_serves p _).trans (State.setMgmt_serves _ _)).trans (State.bufLeave_serves _ _ _)

theorem State.pelMark_serves (s : State) (p : Nat) : s.Serves (s.pelMark p) :=
  .ite (fun _ => (s.setPort_serves p _).trans (State.pelSend_serves _ _ _ _)) fun _ => .refl _ _ _

theorem State.pelRecord_serves (s : State) (p type : Nat) (f : PFrame) (stomped : Bool) : s.Serves (s.pelRecord p type f stomped) :=
  State.Alters.trans (State.portSlots_serves p _ s) (State.setSent_serves _ _)

theorem State.incTx_serves (s : State) (p : Nat) : s.Serves (s.inc (F.PEL_FRAMES_TX_count p)) := by
  have hoff : (F.PEL_FRAMES_TX_count p).off = 0x280034 + 0x1000 * p := rfl
  exact .field serveReg_eventful _ (by rw [serveReg_in (Or.inr (Or.inl (by omega))), and_not_allOnes])

theorem State.pelFinish_serves (s : State) (p : Nat) (f : PFrame) (stomped : Bool) : s.Serves (s.pelFinish p f stomped) :=
  (((s.setPort_serves p _).trans (State.pelRecord_serves _ _ _ _ _)).trans (State.incTx_serves _ p)).trans (State.pelMark_serves _ p)

theorem State.leaveHeld_serves (s : State) (t : TxFrame) : s.Serves (s.leaveHeld t) := by
  unfold State.leaveHeld
  split
  · exact s.bufLeave_serves _ _
  · exact .refl _ _ _

theorem State.pelGo_serves (s : State) (p v : Nat) (t : TxFrame) : s.Serves (s.pelGo p v t) :=
  (((s.setPort_serves p _).trans (State.setPort_serves _ p _)).trans (State.pelFinish_serves _ _ _ _)).trans (State.leaveHeld_serves _ t)

theorem State.pelServe_serves (p k : Nat) (s : State) : s.Serves (State.pelServe k s p) := by
  induction k generalizing s with
  | zero => exact .refl _ _ _
  | succ k ih =>
    unfold State.pelServe
    split
    · exact (State.pelTake_serves _ _ _).trans (ih _)
    · split
      · exact (State.pelGo_serves _ _ _ _).trans (ih _)
      · exact .refl _ _ _

theorem State.serve_serves (s : State) (p : Nat) : s.Serves (s.serve p) := State.pelServe_serves p _ s

theorem State.enqueue_serves (s : State) (p : Nat) (t : TxFrame) : s.Serves (s.enqueue p t) := (s.setPort_serves p _).trans (State.serve_serves _ p)

/-! ### Flushes -/

theorem State.putPort_flushes (s : State) {f : RF} {a p : Nat} (v : Nat) (hf : f.off = a + 0x1000 * p) (ha : 0x280000 ≤ a) (hb : a < 0x280040) :
    s.Flushes (s.put f v) := by
  have hreg : flushReg f.off = BitVec.allOnes 32 := if_pos (by omega)
  exact .field flushReg_eventful v (by rw [hreg, and_not_allOnes])

theorem State.pelDrop_flushes (s : State) (p : Nat) : s.Flushes (s.pelDrop p) :=
  State.Alters.trans (s.putPort_flushes (a := 0x280014) (p := p) _ rfl (by decide) (by decide)) (.raiseLim flushReg_eventful _ _ _ _)

theorem State.pelWrap_flushes (s : State) (p : Nat) : s.Flushes (s.pelWrap p) :=
  State.Alters.trans (s.putPort_flushes (a := 0x280004) (p := p) 1 rfl (by decide) (by decide))
    (.ite (fun _ => .refl _ _ _) fun _ => State.Alters.trans (State.setPort_serves _ p _).flushes (.raiseLim flushReg_eventful _ _ _ _))

theorem State.ledgerEnd_flushes (s : State) (p : Nat) : s.Flushes (s.ledgerEnd p) := by
  have hledger (u : State) (v : Nat) (hv : v < 4) : u.Flushes (u.put (F.PEL_LEDGER_valid p v) 0) :=
    u.putPort_flushes (a := 0x280020 + 4 * v) (p := p) 0 (by simp only [F.PEL_LEDGER_valid, R.PEL_LEDGER]; omega) (by omega) (by omega)
  have hctl : s.Flushes (s.put (F.PEL_PCTL_ledger p) 0) := s.putPort_flushes (a := 0x280000) (p := p) 0 rfl (by decide) (by decide)
  have hport (u : State) (x : Port) : u.Flushes (u.setPort p x) := State.Serves.flushes (u.setPort_serves p x)
  unfold State.ledgerEnd
  exact State.Alters.trans (State.Alters.trans hctl (hport _ _)) (.foldl (fun u v hv => hledger u v (List.mem_range.mp hv)) _)

theorem State.cutStomp_flushes (s : State) (q p : Nat) : s.Flushes (s.cutStomp q p) := by
  unfold State.cutStomp
  split
  · exact .refl _ _ _
  · refine .ite (fun _ => ?_) fun _ => .refl _ _ _
    exact (State.Serves.flushes (((s.setPort_serves q _).trans (State.pelFinish_serves _ _ _ _)).trans (State.bufLeave_serves _ _ _))).trans (State.pelDrop_flushes _ p)

theorem State.flushStalled_flushes (s : State) (p : Nat) (e : Nat × Nat) : s.Flushes (s.flushStalled p e) := by
  unfold State.flushStalled
  dsimp only
  exact State.Alters.trans ((s.setXq_serves e.1 _).flushes.trans (State.pelDrop_flushes _ p))
    (.ite (fun _ => (State.xqFeed_serves _ _ _).flushes) fun _ => .refl _ _ _)

theorem State.flushWaiting_flushes (s : State) (p : Nat) (t : TxFrame) : s.Flushes (s.flushWaiting p t) :=
  .ite (fun _ => (s.pelWrap_flushes p).trans (State.enqueue_serves _ _ _).flushes) fun _ =>
    (s.pelDrop_flushes p).trans (State.leaveHeld_serves _ t).flushes

/-- What a flush puts in order at the port itself. -/
theorem State.pelFlush_flushes (s : State) (p st : Nat) : s.Flushes (s.pelFlush p st) := by
  have hport (u : State) (e : Nat) (x : Port) : u.Flushes (u.setPort e x) := State.Serves.flushes (u.setPort_serves e x)
  have hfinish (u : State) (e : Nat) (f : PFrame) (b : Bool) : u.Flushes (u.pelFinish e f b) := State.Serves.flushes (u.pelFinish_serves e f b)
  have hfeed (u : State) (q : Nat) (ws : List (BitVec 128 × BitVec 16)) : u.Flushes (u.xqFeed q ws) := State.Serves.flushes (u.xqFeed_serves q ws)
  have hserve (u : State) : u.Flushes (u.serve 0) := State.Serves.flushes (u.serve_serves 0)
  have hfield (u : State) {f : RF} {a : Nat} (v : Nat) (hf : f.off = a + 0x1000 * p) (ha : a = 0x280000 ∨ a = 0x280004) : u.Flushes (u.put f v) :=
    u.putPort_flushes v hf (by omega) (by omega)
  unfold State.pelFlush
  extract_lets s1 ws src s2 s3 s4 r s5 s6 s7 gone s8 x s9 s10
  have h1 : s.Flushes s1 := .foldl (fun u q _ => u.cutStomp_flushes q p) s
  have h3 : s1.Flushes s3 := State.Alters.trans (hport s1 p _) (hfield s2 st rfl (Or.inr rfl))
  have h4 : s3.Flushes s4 := .foldl (fun u t _ => u.flushWaiting_flushes p t) s3
  have h5 : s4.Flushes s5 := by
    clear_value r
    cases r with
    | none => exact .refl _ _ _
    | some r =>
      have hcut (f : PFrame) : s4.Flushes (r.cut.foldl (fun u e => u.pelFinish e f true) s4) := .foldl (fun u e _ => hfinish u e f true) s4
      have hopen (u : State) : u.Flushes (match r.queue with
          | some q => if r.opened then u.xqFeed q [((0 : BitVec 128), (abtMarker (BitVec.ofNat 4 r.f.type)).sb)] else u
          | none => u) := by
        split
        · exact .ite (fun _ => hfeed _ _ _) fun _ => .refl _ _ _
        · exact .refl _ _ _
      exact (hcut { r.f with wrapped := r.f.wrapped || r.turned }).trans ((hopen _).trans (State.pelDrop_flushes _ p))
  have h6 : s5.Flushes s6 := .foldl (fun u e _ => u.flushStalled_flushes p e) s5
  have h7 : s6.Flushes s7 := .foldl (fun u _ _ => u.pelDrop_flushes p) s6
  have h8 : s7.Flushes s8 := .foldl (fun u e _ => State.Alters.trans (hport u e _) (.foldl (fun v _ _ => v.pelDrop_flushes p) _)) s7
  have h10 : s8.Flushes s10 := State.Alters.trans (hport s8 p _) (State.ledgerEnd_flushes _ p)
  have hend (u : State) : u.Flushes ((if st = 2 then u.put (F.PEL_PCTL_flush p) 0 else u).serve 0) :=
    State.Alters.trans (.ite (fun _ => hfield u 0 rfl (Or.inl rfl)) fun _ => .refl _ _ _) (hserve _)
  exact h1.trans (h3.trans (h4.trans (h5.trans (h6.trans (h7.trans (h8.trans (h10.trans (hend s10))))))))

theorem State.portReady_flushes (s : State) (g : Nat) : s.Flushes (s.portReady g) := by
  have hlanes (p v : Nat) : s.Flushes (s.put (F.PEL_PSTS_lanes p) v) := s.putPort_flushes (a := 0x280004) (p := p) v rfl (by decide) (by decide)
  exact .ite (fun _ => (hlanes _ _).trans (State.pelFlush_flushes _ _ _)) fun _ => .refl _ _ _

/-! ### Frames of the network -/

theorem State.mgmtOut_serves (s : State) (p dst type : Nat) (payload : List Byte) : s.Serves (s.mgmtOut p dst type payload) :=
  .ite (fun _ => .refl _ _ _) fun _ => s.enqueue_serves _ _

theorem State.pelSendFrame_flushes (s : State) (cnt : Nat) (f : PFrame) : s.Flushes (s.pelSendFrame cnt f) := by
  unfold State.pelSendFrame
  dsimp only
  split
  · exact s.pelDrop_flushes cnt
  · refine State.Alters.trans ?_ (.foldl (fun u p _ => (u.enqueue_serves p _).flushes) _)
    split
    · exact s.pelWrap_flushes _
    · exact .refl _ _ _

theorem State.mgmtSend_flushes (s : State) (dst type : Nat) (payload : List Byte) : s.Flushes (s.mgmtSend dst type payload) :=
  .ite (fun _ => .refl _ _ _) fun _ => s.pelSendFrame_flushes _ _

end Sys2Proof.Machine
end

section
/-! SUPPORT. What the entry of a lane into a state leaves alone, in any group (Table 11.2): the logical place of every lane, the state of the other lanes, the
map of the groups and their substitutions. -/

namespace Sys2Proof.Machine

variable {s t u : State}

/-- The registers that the entry of lane n into a state may write: its status but for its logical place, its scan, the status of its group, and those of a flush. -/
def enterReg (n off : Nat) : Word :=
  if off = R.LANE_STS n then ~~~ (RF.mask ⟨0, 4, 3⟩) else if off = R.LANE_ES_CTL n ∨ off = R.GRP_STS (n / 5) then BitVec.allOnes 32 else flushReg off

/-- The state beside queues, ports and events; of a lane the taps it has stored, of a group its substitutions. -/
def State.sansEnter (s : State) : State × (Nat → Option (BitVec 15)) × (Nat → Option Subst × List Nat) :=
  (s.sansServe.1, fun n => (s.laneL n).stored, fun g => ((s.grpG g).sub, (s.grpG g).waiting))

/-- The entry of lane n into a state leads from one state to the other. -/
abbrev State.Enters (n : Nat) (s t : State) : Prop := s.Alters (enterReg n) State.sansEnter t

theorem enterReg_eventful (n : Nat) : Eventful (enterReg n) State.sansEnter := by
  refine ⟨fun off h => ?_, fun u => rfl⟩
  have hoff : off < 0x30000 := Decidable.byContradiction fun hge => by
    rw [eventReg_of_page (Nat.le_trans (by decide) (Nat.not_lt.mp hge))] at h
    cases h
  have hsts : off ≠ R.LANE_STS n := by
    simp only [R.LANE_STS]
    omega
  have hother : ¬ (off = R.LANE_ES_CTL n ∨ off = R.GRP_STS (n / 5)) := by
    simp only [R.LANE_ES_CTL, R.GRP_STS]
    omega
  rw [enterReg, if_neg hsts, if_neg hother]
  exact flushReg_eventful.reg off h

theorem State.Flushes.enters (h : s.Flushes t) {n : Nat} (hn : n < 128) : s.Enters n t := by
  refine .mono h (fun off i hi => ?_) fun a b hab => ?_
  · unfold enterReg at hi
    by_cases hsts : off = R.LANE_STS n
    · rw [hsts, flushReg_out (Or.inr (by simp only [R.LANE_STS]; omega)) (queuePlace_off (Or.inr (by simp only [R.LANE_STS]; omega)))
        (Or.inl (by simp only [R.LANE_STS]; omega))]
      exact BitVec.getLsbD_zero
    · rw [if_neg hsts] at hi
      by_cases hother : off = R.LANE_ES_CTL n ∨ off = R.GRP_STS (n / 5)
      · rw [if_pos hother, BitVec.getLsbD_allOnes, decide_eq_false_iff_not] at hi
        exact BitVec.getLsbD_of_ge _ _ (by omega)
      · rwa [if_neg hother] at hi
  · refine Prod.ext (congrArg (fun x => x.1) hab :) (Prod.ext (funext fun m => ?_) (funext fun g => ?_))
    · exact (congrArg Lane.stored (congrFun (congrArg (fun x => x.2.1) hab) m) :)
    · have hg := congrFun (congrArg (fun x => x.2.2) hab) g
      exact Prod.ext (congrArg Grp.sub hg :) (congrArg Grp.waiting hg :)

theorem State.putSts_enters (s : State) {n : Nat} (lo w v : Nat) (h : RF.mask ⟨0, lo, w⟩ &&& RF.mask ⟨0, 4, 3⟩ = 0) :
    s.Enters n (s.put ⟨R.LANE_STS n, lo, w⟩ v) := by
  have hreg : enterReg n (R.LANE_STS n) = ~~~ (RF.mask ⟨0, 4, 3⟩) := if_pos rfl
  refine .field (enterReg_eventful n) v ?_
  rw [hreg, BitVec.not_not]
  exact h

theorem State.putScan_enters (s : State) {n : Nat} (lo w v : Nat) : s.Enters n (s.put ⟨R.LANE_ES_CTL n, lo, w⟩ v) := by
  have hreg : enterReg n (R.LANE_ES_CTL n) = BitVec.allOnes 32 := by
    rw [enterReg, if_neg (by simp only [R.LANE_ES_CTL, R.LANE_STS]; omega), if_pos (Or.inl rfl)]
  exact .field (enterReg_eventful n) v (by rw [hreg, and_not_allOnes])

theorem State.putGrpSts_enters (s : State) {n : Nat} (lo w v : Nat) : s.Enters n (s.put ⟨R.GRP_STS (n / 5), lo, w⟩ v) := by
  have hreg : enterReg n (R.GRP_STS (n / 5)) = BitVec.allOnes 32 := by
    rw [enterReg, if_neg (by simp only [R.GRP_STS, R.LANE_STS]; omega), if_pos (Or.inr rfl)]
  exact .field (enterReg_eventful n) v (by rw [hreg, and_not_allOnes])

/-- A lane changed beside its stored taps. -/
theorem State.setLane_enters (s : State) (n m : Nat) {x : Lane} (h : x.stored = (s.laneL m).stored) : s.Enters n (s.setLane m x) := by
  refine .of_same rfl rfl (Prod.ext rfl (Prod.ext (funext fun k => ?_) rfl))
  show (SMap.get (fun _ => ({} : Lane)) (s.setLane m x).lane k).stored = (s.laneL k).stored
  by_cases hk : k = m
  · subst hk
    rw [State.setLane_lane, SMap.get_set_same]
    exact h
  · rw [State.setLane_lane, SMap.get_set_ne _ _ _ _ _ hk]
    rfl

theorem State.scanAbort_enters (s : State) (n : Nat) : s.Enters n (s.scanAbort n) := by
  have hmargin (b : Bool) : s.Enters n (s.setLane n { s.laneL n with margin := b }) := s.setLane_enters n n rfl
  have hscan (u : State) (lo w v : Nat) : u.Enters n (u.put ⟨R.LANE_ES_CTL n, lo, w⟩ v) := u.putScan_enters lo w v
  unfold State.scanAbort
  exact State.Alters.trans (.ite (fun _ => hmargin false) fun _ => .refl _ _ _) (.ite (fun _ => (hscan _ _ _ _).trans (hscan _ _ _ _)) fun _ => .refl _ _ _)

theorem State.alignFor_enters (s : State) (n st : Nat) : s.Enters n (s.alignFor n st) :=
  .ite (fun _ => (s.putSts_enters _ _ _ (by decide)).trans (State.setLane_enters _ n n rfl)) fun _ => .refl _ _ _

theorem State.attemptsFor_enters (s : State) (n st : Nat) : s.Enters n (s.attemptsFor n st) :=
  .ite (fun _ => ((s.putSts_enters _ _ _ (by decide)).trans (State.putSts_enters _ _ _ _ (by decide))).trans (State.setLane_enters _ n n rfl)) fun _ => .refl _ _ _

theorem State.laneNotices_serves (s : State) (n : Nat) (deep : Bool) : s.Serves (s.laneNotices n deep) := by
  have hout (u : State) (l : List LaneOut) : u.Serves (u.setLane n { u.laneL n with out := l }) := u.setLane_serves n rfl
  have hscr (u : State) (k : BitVec 58) : u.Serves (u.setLane n { u.laneL n with scr := k }) := u.setLane_serves n rfl
  exact .foldl (fun u _ _ => .ite (fun _ => (hout u _).trans (hout _ _)) fun _ => (hscr u _).trans (hout _ _)) s

theorem State.laneExit_serves (s : State) (n : Nat) : s.Serves (s.laneExit n) := .foldl (fun u _ _ => u.laneFiller_serves n) s

theorem State.laneAwake_enters (s : State) {n : Nat} (hn : n < 128) : s.Enters n (s.laneAwake n) :=
  State.Alters.trans ((s.laneExit_serves n).flushes.enters hn)
    (.ite (fun _ => State.Alters.trans ((State.laneNotices_serves _ n false).flushes.enters hn) (State.putSts_enters _ _ _ _ (by decide))) fun _ => .refl _ _ _)

theorem State.readyFor_enters (s : State) {n : Nat} (hn : n < 128) (st : Nat) : s.Enters n (s.readyFor n st) := by
  have hset (q : List Int) (k : Nat) (b : Bool) : s.Enters n (s.setLane n { s.laneL n with eqQual := q, slow := k, woken := b }) := s.setLane_enters n n rfl
  have hready : s.Enters n ((s.setLane n { s.laneL n with eqQual := (s.laneL n).eq, slow := 0, woken := false }).raiseLim 1000 0x0801 n n) :=
    State.Alters.trans (hset _ _ _) (State.Alters.raiseLim (enterReg_eventful n) 1000 0x0801 n n)
  unfold State.readyFor
  extract_lets x u
  have hu : s.Enters n u := hready
  clear_value u
  exact .ite (fun _ => .ite (fun _ => hu.trans (State.laneAwake_enters _ hn)) fun _ => hu) fun _ => .refl _ _ _

/-- Table 11.2: what the entry of a lane into a state changes. -/
theorem State.laneEnter_enters (s : State) {n : Nat} (hn : n < 128) (st : Nat) : s.Enters n (s.laneEnter n st) := by
  by_cases h : s.laneState n = st
  · rw [s.laneEnter_same h]
    exact .refl _ _ _
  · have hsts (u : State) (lo w v : Nat) (hm : RF.mask ⟨0, lo, w⟩ &&& RF.mask ⟨0, 4, 3⟩ = 0) : u.Enters n (u.put ⟨R.LANE_STS n, lo, w⟩ v) := u.putSts_enters lo w v hm
    have hgrp (u : State) (lo w v : Nat) : u.Enters n (u.put ⟨R.GRP_STS (n / 5), lo, w⟩ v) := u.putGrpSts_enters lo w v
    have hcdr (u : State) : u.Enters n (u.cdrFor n st) := .ite (fun _ => hsts u _ _ _ (by decide)) fun _ => .refl _ _ _
    have hsignal (u : State) : u.Enters n (u.signalFor n st) := .ite (fun _ => hsts u _ _ _ (by decide)) fun _ => .refl _ _ _
    have hpll (u : State) : u.Enters n (u.pllRest (n / 5)) := .ite (fun _ => hgrp u _ _ _) fun _ => .refl _ _ _
    have hsync (u : State) : u.Enters n (u.grpSync (n / 5)) := State.Alters.trans (State.Alters.trans (hgrp u _ _ _) (hgrp _ _ _ _)) (hgrp _ _ _ _)
    have hport (u : State) : u.Enters n (u.portReady (n / 5)) := (u.portReady_flushes (n / 5)).enters hn
    have hshow (u : State) : u.Enters n (u.laneShow n) := u.setLane_enters n n rfl
    have hready (u : State) : u.Enters n (((u.attemptsFor n st).readyFor n st).laneShow n) :=
      (u.attemptsFor_enters n st).trans ((State.readyFor_enters _ hn st).trans (hshow _))
    have hgroup (u : State) : u.Enters n (((u.pllRest (n / 5)).grpSync (n / 5)).portReady (n / 5)) := (hpll u).trans ((hsync _).trans (hport _))
    have hstate : s.Enters n ((s.scanAbort n).put (F.LANE_STS_state n) st) := (s.scanAbort_enters n).trans (hsts _ 0 4 st (by decide))
    have hlocks (u : State) : u.Enters n (((u.alignFor n st).cdrFor n st).signalFor n st) := (u.alignFor_enters n st).trans ((hcdr _).trans (hsignal _))
    rw [s.laneEnter_eq h]
    exact hstate.trans ((hlocks _).trans ((hready _).trans (hgroup _)))

end Sys2Proof.Machine
end

section
/-! SUPPORT. Where a lane stands when it has entered a state, in any group, and what the retirement of a unit does to the mode (R428). -/

namespace Sys2Proof.Machine

variable {s t u : State}

/-! ## What an entry leaves -/

theorem enterReg_out {n off : Nat} (hsts : off ≠ R.LANE_STS n) (hscan : off ≠ R.LANE_ES_CTL n) (hgrp : off ≠ R.GRP_STS (n / 5)) : enterReg n off = flushReg off := by
  rw [enterReg, if_neg hsts, if_neg (not_or.mpr ⟨hscan, hgrp⟩)]

theorem flushReg_lane {off m : Nat} (hm : m < 128) (h : off = R.LANE_STS m ∨ off = R.LANE_CTL m ∨ off = R.GRP_MAP m ∨ off = R.GRP_CTL m) (hg : off < 0x280000) :
    flushReg off = 0 := by
  simp only [R.LANE_STS, R.LANE_CTL, R.GRP_MAP, R.GRP_CTL] at h
  refine flushReg_out (Or.inr (by omega)) (queuePlace_off (Or.inr ⟨?_, ?_, ?_⟩)) (Or.inl hg)
  · omega
  · omega
  · omega

theorem State.Flushes.standing (h : s.Flushes t) {n : Nat} (hn : n < 128) : t.standing n = s.standing n := by
  unfold State.standing State.laneState
  rw [State.Alters.get_of_zero h (flushReg_lane hn (Or.inl rfl) (by simp only [F.LANE_STS_state, R.LANE_STS]; omega)),
    State.Alters.get_of_zero h (flushReg_lane hn (Or.inr (Or.inl rfl)) (by simp only [F.LANE_CTL_power, R.LANE_CTL]; omega))]

theorem State.Enters.standing {n m : Nat} (h : State.Enters n s t) (hm : m < 128) (hne : m ≠ n) : t.standing m = s.standing m := by
  unfold State.standing State.laneState
  have hsts : enterReg n (F.LANE_STS_state m).off = 0 := by
    rw [enterReg_out (by simp only [F.LANE_STS_state, R.LANE_STS]; omega) (by simp only [F.LANE_STS_state, R.LANE_STS, R.LANE_ES_CTL]; omega)
      (by simp only [F.LANE_STS_state, R.LANE_STS, R.GRP_STS]; omega)]
    exact flushReg_lane hm (Or.inl rfl) (by simp only [F.LANE_STS_state, R.LANE_STS]; omega)
  have hctl : enterReg n (F.LANE_CTL_power m).off = 0 := by
    rw [enterReg_out (by simp only [F.LANE_CTL_power, R.LANE_CTL, R.LANE_STS]; omega) (by simp only [F.LANE_CTL_power, R.LANE_CTL, R.LANE_ES_CTL]; omega)
      (by simp only [F.LANE_CTL_power, R.LANE_CTL, R.GRP_STS]; omega)]
    exact flushReg_lane hm (Or.inr (Or.inl rfl)) (by simp only [F.LANE_CTL_power, R.LANE_CTL]; omega)
  rw [State.Alters.get_of_zero h hsts, State.Alters.get_of_zero h hctl]

/-- The logical place of a lane stays, that of the lane itself too. -/
theorem State.Enters.logical {n m : Nat} (h : State.Enters n s t) (hm : m < 128) : t.laneLogical m = s.laneLogical m := by
  by_cases hne : m = n
  · subst hne
    refine State.Alters.get h ?_
    have hreg : enterReg m (F.LANE_STS_logical m).off = ~~~ (RF.mask ⟨0, 4, 3⟩) := if_pos rfl
    rw [hreg]
    exact (by decide : ~~~ (RF.mask ⟨0, 4, 3⟩) &&& RF.mask ⟨0, 4, 3⟩ = 0)
  · refine State.Alters.get_of_zero h ?_
    rw [enterReg_out (by simp only [F.LANE_STS_logical, R.LANE_STS]; omega) (by simp only [F.LANE_STS_logical, R.LANE_STS, R.LANE_ES_CTL]; omega)
      (by simp only [F.LANE_STS_logical, R.LANE_STS, R.GRP_STS]; omega)]
    exact flushReg_lane hm (Or.inl rfl) (by simp only [F.LANE_STS_logical, R.LANE_STS]; omega)

theorem State.Enters.map {n g : Nat} (h : State.Enters n s t) (hg : g < 64) {f : RF} (hf : f.off = R.GRP_MAP g) : t.get f = s.get f := by
  refine State.Alters.get_of_zero h ?_
  rw [hf, enterReg_out (by simp only [R.GRP_MAP, R.LANE_STS]; omega) (by simp only [R.GRP_MAP, R.LANE_ES_CTL]; omega) (by simp only [R.GRP_MAP, R.GRP_STS]; omega)]
  exact flushReg_lane (m := g) (by omega) (Or.inr (Or.inr (Or.inl rfl))) (by simp only [R.GRP_MAP]; omega)

theorem State.Enters.sub {n : Nat} (h : State.Enters n s t) (g : Nat) : (t.grpG g).sub = (s.grpG g).sub ∧ (t.grpG g).waiting = (s.grpG g).waiting := by
  have hg := congrFun (congrArg (fun x => x.2.2) h.part) g
  exact ⟨(congrArg Prod.fst hg :), (congrArg Prod.snd hg :)⟩

theorem State.Enters.mode {n : Nat} (h : State.Enters n s t) : t.mode = s.mode := congrArg (fun x => x.1.mode) h.part
theorem State.Enters.pwr {n : Nat} (h : State.Enters n s t) : t.pwr = s.pwr := congrArg (fun x => x.1.pwr) h.part

/-! ## The state entered -/

theorem State.laneAwake_standing (s : State) (n : Nat) : (s.laneAwake n).standing n =
    (if s.get (F.LANE_CTL_power n) = 1 then 10 else s.laneState n, s.get (F.LANE_CTL_power n)) := by
  have hexit := (s.laneExit n).standing_of_regs (State.laneNotices_regs (s.laneExit n) n false) n
  have hs := State.standing_of_regs (s.laneExit_regs n) n
  have hpower : (s.laneExit n).get (F.LANE_CTL_power n) = s.get (F.LANE_CTL_power n) := congrArg Prod.snd hs
  unfold State.laneAwake
  dsimp only
  rw [hpower]
  split
  · have hput (u : State) : (u.put (F.LANE_STS_state n) 10).standing n = (10, u.get (F.LANE_CTL_power n)) :=
      Prod.ext (State.get_put_lit _ rfl) (State.get_put_apart _ _ (apart_off (by
        simp only [F.LANE_STS_state, F.LANE_CTL_power, R.LANE_STS, R.LANE_CTL]
        omega)))
    rw [hput]
    exact congrArg _ ((congrArg Prod.snd hexit :).trans hpower)
  · exact hs

theorem State.readyFor_stands (s : State) (n st : Nat) : (s.readyFor n st).standing n =
    (if st = 9 ∧ (s.laneL n).woken = true ∧ s.get (F.LANE_CTL_power n) = 1 then 10 else s.laneState n, s.get (F.LANE_CTL_power n)) := by
  unfold State.readyFor
  extract_lets x u
  have hu : u.standing n = s.standing n := (State.raiseLim_standing _ _ _ _ _ _).trans (State.setLane_standing _ _ _ _)
  have hpower : u.get (F.LANE_CTL_power n) = s.get (F.LANE_CTL_power n) := congrArg Prod.snd hu
  have hstate : u.laneState n = s.laneState n := congrArg Prod.fst hu
  clear_value u
  by_cases h9 : st = 9
  · rw [if_pos h9]
    by_cases hw : (s.laneL n).woken = true
    · rw [if_pos hw, State.laneAwake_standing, hpower, hstate]
      simp only [h9, hw, true_and]
    · rw [if_neg hw, if_neg (fun hand => hw hand.2.1)]
      exact hu
  · rw [if_neg h9, if_neg (fun hand => h9 hand.1)]
    rfl

theorem State.setLane_woken (s : State) (n : Nat) {x : Lane} (h : x.woken = (s.laneL n).woken) : ((s.setLane n x).laneL n).woken = (s.laneL n).woken := by
  rw [State.laneL_setLane, h]

/-- The steps before READY is told leave a lane woken. -/
theorem State.beforeReady_woken (s : State) (n st : Nat) :
    (((((((s.scanAbort n).put (F.LANE_STS_state n) st).alignFor n st).cdrFor n st).signalFor n st).attemptsFor n st).laneL n).woken = (s.laneL n).woken := by
  have hscan : ((s.scanAbort n).laneL n).woken = (s.laneL n).woken := by
    unfold State.scanAbort
    extract_lets src u
    have hu : (u.laneL n).woken = (s.laneL n).woken := by
      show ((if (s.laneL n).margin = true then s.setLane n { src with margin := false } else s : State).laneL n).woken = _
      split
      · exact s.setLane_woken n rfl
      · rfl
    clear_value u
    split
    · exact hu
    · exact hu
  have halign (u : State) : ((u.alignFor n st).laneL n).woken = (u.laneL n).woken := by
    unfold State.alignFor
    split
    · exact State.setLane_woken _ n rfl
    · rfl
  have hcdr (u : State) : ((u.cdrFor n st).laneL n).woken = (u.laneL n).woken := by
    unfold State.cdrFor
    split <;> rfl
  have hsignal (u : State) : ((u.signalFor n st).laneL n).woken = (u.laneL n).woken := by
    unfold State.signalFor
    split <;> rfl
  have hattempts (u : State) : ((u.attemptsFor n st).laneL n).woken = (u.laneL n).woken := by
    unfold State.attemptsFor
    split
    · exact State.setLane_woken _ n rfl
    · rfl
  rw [hattempts, hsignal, hcdr, halign]
  exact hscan

/-- Table 11.2: a lane stands in the state that it has entered, a woken one that is asked for IDLE in IDLE. -/
theorem State.laneEnter_stands (s : State) {n st : Nat} (hn : n < 128) (hst : st < 16) (h : s.laneState n ≠ st) :
    (s.laneEnter n st).standing n =
      (if st = 9 ∧ (s.laneL n).woken = true ∧ s.get (F.LANE_CTL_power n) = 1 then 10 else st, s.get (F.LANE_CTL_power n)) := by
  have hput : ((s.scanAbort n).put (F.LANE_STS_state n) st).standing n = (st, s.get (F.LANE_CTL_power n)) := by
    have hpower : (F.LANE_STS_state n).apart (F.LANE_CTL_power n) = true := apart_off (by
      simp only [F.LANE_CTL_power, F.LANE_STS_state, R.LANE_STS, R.LANE_CTL]
      omega)
    have hscan : (s.scanAbort n).get (F.LANE_CTL_power n) = s.get (F.LANE_CTL_power n) := congrArg Prod.snd (s.scanAbort_standing n n)
    unfold State.standing State.laneState
    rw [State.get_put_lt _ rfl hst, State.get_put_apart _ _ hpower, hscan]
  have hbefore : ((((((s.scanAbort n).put (F.LANE_STS_state n) st).alignFor n st).cdrFor n st).signalFor n st).attemptsFor n st).standing n =
      (st, s.get (F.LANE_CTL_power n)) := by
    rw [State.attemptsFor_standing, State.signalFor_standing, State.cdrFor_standing, State.alignFor_standing, hput]
  have hwoken := s.beforeReady_woken n st
  have hport (u : State) : (u.portReady (n / 5)).standing n = u.standing n := (u.portReady_flushes (n / 5)).standing hn
  rw [s.laneEnter_eq h]
  generalize (((((s.scanAbort n).put (F.LANE_STS_state n) st).alignFor n st).cdrFor n st).signalFor n st).attemptsFor n st = u at hbefore hwoken ⊢
  have hstate : u.laneState n = st := congrArg Prod.fst hbefore
  have hpower : u.get (F.LANE_CTL_power n) = s.get (F.LANE_CTL_power n) := congrArg Prod.snd hbefore
  rw [hport, State.grpSync_standing, State.pllRest_standing]
  refine (State.setLane_standing _ _ _ _).trans ((u.readyFor_stands n st).trans ?_)
  rw [hwoken, hstate, hpower]

end Sys2Proof.Machine
end

section
/-! SUPPORT. What an enumeration and the retirement of a unit leave alone (R352, R428). -/

namespace Sys2Proof.Machine

variable {s t u : State}

/-! ## Enumeration -/

/-- The registers that an enumeration may write: those of a flush, and PEL_ADDR. -/
def enrolReg (off : Nat) : Word := if off = R.PEL_ADDR then BitVec.allOnes 32 else flushReg off

/-- The state beside queues, ports, events and the enumeration. -/
def State.sansEnrol (s : State) : State × (Nat → Lane) × (Nat → Grp) :=
  ({ s.sansServe.1 with pel := { s.sansServe.1.pel with en := none } }, s.sansServe.2)

/-- An enumeration leads from one state to the other. -/
abbrev State.Enrols (s t : State) : Prop := s.Alters enrolReg State.sansEnrol t

theorem enrolReg_eventful : Eventful enrolReg State.sansEnrol := by
  refine ⟨fun off h => ?_, fun u => rfl⟩
  unfold enrolReg
  split
  · rfl
  · exact flushReg_eventful.reg off h

theorem State.Flushes.enrols (h : s.Flushes t) : s.Enrols t := by
  refine .mono h (fun off i hi => ?_) fun a b hab => ?_
  · unfold enrolReg at hi
    by_cases hoff : off = R.PEL_ADDR
    · rw [hoff]
      exact BitVec.getLsbD_zero
    · rwa [if_neg hoff] at hi
  · unfold State.sansEnrol
    rw [hab]

theorem State.setEn_enrols (s : State) (e : Option Enumr) : s.Enrols (s.setPel { s.pel with en := e }) := .of_same rfl rfl rfl

theorem State.enumStep_enrols (s : State) : s.Enrols s.enumStep := by
  have hout (u : State) (p dst type : Nat) (l : List Byte) : u.Enrols (u.mgmtOut p dst type l) := (u.mgmtOut_serves p dst type l).flushes.enrols
  have hsend (u : State) (dst type : Nat) (l : List Byte) : u.Enrols (u.mgmtSend dst type l) := (u.mgmtSend_flushes dst type l).enrols
  have hmembers (u : State) (v : Nat) : u.Enrols (u.put F.PEL_ADDR_members v) := .field enrolReg_eventful v rfl
  unfold State.enumStep
  split
  · exact .refl _ _ _
  · split
    · exact (s.setEn_enrols _).trans (hout _ _ _ _ _)
    · dsimp only
      split
      · exact (s.setEn_enrols _).trans (hout _ _ _ _ _)
      · exact State.Alters.trans (((s.setEn_enrols _).trans (hmembers _ _)).trans (hsend _ _ _ _)) (.raiseLim enrolReg_eventful _ _ _ _)

theorem State.pelEnumerate_enrols (s : State) : s.Enrols s.pelEnumerate :=
  .ite (fun _ => .refl _ _ _) fun _ => (s.setEn_enrols _).trans (State.enumStep_enrols _)

theorem State.Enrols.mode (h : s.Enrols t) : t.mode = s.mode := congrArg (fun x => x.1.mode) h.part
theorem State.Enrols.ldr (h : s.Enrols t) : t.ldr = s.ldr := congrArg (fun x => x.1.ldr) h.part
theorem State.Enrols.pwr (h : s.Enrols t) : t.pwr = s.pwr := congrArg (fun x => x.1.pwr) h.part

/-! ## Retirement -/

/-- The registers that the retirement of a unit may write. -/
def retireReg (off : Nat) : Word := if off < 0x30000 ∨ 0x280000 ≤ off then BitVec.allOnes 32 else flushReg off

/-- The state beside mode, supply, host and network; of a lane the taps it has stored, of a group its substitutions. -/
def State.sansRetire (s : State) : State × (Nat → Option (BitVec 15)) × (Nat → Option Subst × List Nat) :=
  ({ s.sansServe.1 with
      mode := .cold, pwr := {}, hif := { link := s.hif.link }, pel := {}, flt := {}, con := {} },
    fun n => (s.laneL n).stored, fun g => ((s.grpG g).sub, (s.grpG g).waiting))

/-- The retirement of a unit leads from one state to the other. -/
abbrev State.Retires (s t : State) : Prop := s.Alters retireReg State.sansRetire t

theorem retireReg_eventful : Eventful retireReg State.sansRetire := by
  refine ⟨fun off h => ?_, fun u => rfl⟩
  unfold retireReg
  split
  · rfl
  · exact flushReg_eventful.reg off h

theorem State.Enrols.retires (h : s.Enrols t) : s.Retires t := by
  refine .mono h (fun off i hi => ?_) fun a b hab => ?_
  · unfold retireReg at hi
    by_cases hoff : off < 0x30000 ∨ 0x280000 ≤ off
    · rw [if_pos hoff, BitVec.getLsbD_allOnes, decide_eq_false_iff_not] at hi
      exact BitVec.getLsbD_of_ge _ _ (by omega)
    · rw [if_neg hoff] at hi
      have hne : off ≠ R.PEL_ADDR := fun he => hoff (Or.inr (by rw [he]; decide))
      rwa [enrolReg, if_neg hne]
  · refine Prod.ext ?_ (Prod.ext (funext fun m => ?_) (funext fun g => ?_))
    · exact (congrArg (fun x => { x.1 with mode := .cold, pwr := {}, hif := { link := x.1.hif.link }, pel := {}, flt := {}, con := {} }) hab :)
    · exact (congrArg Lane.stored (congrFun (congrArg (fun x => x.2.1) hab) m) :)
    · have hg := congrFun (congrArg (fun x => x.2.2) hab) g
      exact Prod.ext (congrArg Grp.sub hg :) (congrArg Grp.waiting hg :)

theorem State.Answers.retires (h : s.Answers t) : s.Retires t := by
  refine .mono h (fun off i hi => ?_) fun a b hab => ?_
  · by_cases hoff : off < 0x30000
    · rw [retireReg, if_pos (Or.inl hoff), BitVec.getLsbD_allOnes, decide_eq_false_iff_not] at hi
      exact BitVec.getLsbD_of_ge _ _ (by omega)
    · rw [hostPage_out (Or.inr (Nat.not_lt.mp hoff))]
      exact BitVec.getLsbD_zero
  · show a.sansAnswer.sansRetire = b.sansAnswer.sansRetire
    rw [hab]

theorem State.put_retires (s : State) {f : RF} (v : Nat) (h : f.off < 0x30000 ∨ 0x280000 ≤ f.off) : s.Retires (s.put f v) := by
  have hreg : retireReg f.off = BitVec.allOnes 32 := if_pos h
  exact .field retireReg_eventful v (by rw [hreg, and_not_allOnes])

theorem State.setPwr_retires (s : State) (p : Pwr) : s.Retires (s.setPwr p) := .of_same rfl rfl rfl

theorem State.setMode_retires (s : State) (m : Mode) : s.Retires (s.setMode m) := by
  have hmode : s.Retires { s with mode := m } := .of_same rfl rfl rfl
  have hput (u : State) {f : RF} (v : Nat) (hf : f.off < 0x30000) : u.Retires (u.put f v) := u.put_retires v (Or.inl hf)
  unfold State.setMode State.inc
  dsimp only
  exact State.Alters.trans ((hmode.trans (hput _ _ (by decide))).trans (hput _ _ (by decide))) (.ite (fun _ => .refl _ _ _) fun _ => hput _ _ (by decide))

theorem State.aim_retires (s : State) (want floor : Nat) : s.Retires (s.aim want floor) := by
  have hput (u : State) (lo w v : Nat) : u.Retires (u.put ⟨R.PWR_DRL_STS, lo, w⟩ v) := u.put_retires v (Or.inr (by show 0x280000 ≤ R.PWR_DRL_STS; decide))
  have hgoal (u : State) (g : Nat) : u.Retires (u.setPwr { u.pwr with goal := g }) := u.setPwr_retires _
  unfold State.aim
  extract_lets goal u src v w
  have hu : s.Retires u := (hput s _ _ _).trans (hput _ _ _ _)
  have hw : v.Retires w := hput v _ _ _
  have hv : u.Retires v := hgoal u goal
  exact (hu.trans (hv.trans hw)).trans (.ite (fun _ => State.Alters.trans (hput w _ _ _) (.raiseLim retireReg_eventful _ _ _ _)) fun _ => hput w _ _ _)

theorem State.drlStart_retires (s : State) : s.Retires s.drlStart := by
  unfold State.drlStart State.restartWindow State.aimRun
  exact State.Alters.trans ((s.setPwr_retires _).trans (State.setPwr_retires _ _)) (.ite (fun _ => State.aim_retires _ _ _) fun _ => State.aim_retires _ _ _)

theorem State.endAskedLoads_retires (s : State) : s.Retires s.endAskedLoads := by
  have hlog (u : State) (e : LogKind) : u.Retires (u.logAdd e) := ⟨fun _ _ _ => rfl, ⟨_, rfl⟩, rfl⟩
  have hhif (l : List AdminCmd) : s.Retires (s.setHif { s.hif with accepted := l }) := .of_same rfl rfl rfl
  unfold State.endAskedLoads
  exact State.Alters.trans (hhif _) (.foldl (fun u c _ => (hlog u _).trans (State.complete_answers _ _ _ _ _ _).retires) _)

theorem State.retireMode_retires (s : State) : s.Retires s.retireMode :=
  .ite (fun _ => ((s.endAskedLoads_retires.trans (State.setMode_retires _ _)).trans (State.drlStart_retires _)).trans (State.pelEnumerate_enrols _).retires) fun _ =>
    .refl _ _ _

theorem State.aimRun_mode (s : State) : s.aimRun.mode = s.mode := by
  have haim (want floor : Nat) : (s.aim want floor).mode = s.mode := by
    unfold State.aim
    dsimp only
    split
    · exact State.raiseLim_mode _ _ _ _ _
    · rfl
  unfold State.aimRun
  split
  · exact haim _ _
  · exact haim _ _

theorem State.setMode_mode (s : State) (m : Mode) : (s.setMode m).mode = m := by
  unfold State.setMode
  dsimp only
  split <;> rfl

/-- R428: a unit retired in RUN takes the module to LIMP. -/
theorem State.retireMode_mode (s : State) (hm : s.mode = .run) (hl : s.latched = false) : s.retireMode.mode = .limp := by
  unfold State.retireMode
  rw [if_pos ⟨hm, by rw [hl]; rfl⟩, (State.pelEnumerate_enrols _).mode, State.drlStart, State.aimRun_mode]
  exact State.setMode_mode _ _

end Sys2Proof.Machine
end

section
/-! PROOFS. O32: the map of a group can name a lane of the next group as the spare (three bits for five lanes), and whether a raw lane is aligned is then
asked of that group. -/

namespace Sys2Proof.Machine

/-- Group 6 with a raw link, whose lane 0 is being replaced by lane 35, the first of group 7; that lane is in ALIGN and has its training word. -/
def strayedSpare : State :=
  let s := ((State.reset.put (F.GRP_CTL_pcs 6) 2).put (F.GRP_MAP_phys 6 0) 5).put (F.LANE_STS_state 35) 7
  (s.setLane 35 { partner := some default }).setGrp 6 { sub := some { k := 0, old := 0, declared := true, ack := true } }

theorem strayedSpare_sub : (match exec (.substitutionSwitch 6) strayedSpare with
    | .next t => (t.grpG 6).sub.isSome
    | _ => false) = true := by decide +kernel

/-- Refutes O32: the substitution stays. -/
theorem not_failedLanesAreReplacedBySpares : ¬ Obligations.FailedLanesAreReplacedBySpares := by
  unfold Obligations.FailedLanesAreReplacedBySpares
  rintro ⟨-, hsub, -⟩
  obtain ⟨hswitch, -⟩ := hsub 6 { k := 0, old := 0, declared := true, ack := true } strayedSpare rfl rfl (by decide) (by decide)
  obtain ⟨t, hexec, hnone, -⟩ := (hswitch rfl rfl (by decide +kernel) (Or.inr (by decide +kernel))).1 (by decide +kernel)
  have hkept := strayedSpare_sub
  rw [hexec] at hkept
  have hsome : (t.grpG 6).sub.isSome = true := hkept
  have hgone : (t.grpG 6).sub = none := hnone
  rw [hgone] at hsome
  cases hsome

end Sys2Proof.Machine
end

section
/-! PROOFS. The phases of the start of a design, up to RUN (O28; R283 to R292). -/

namespace Sys2Proof.Machine

variable {s t u : State}

/-! ## A phase is shown -/

theorem State.phaseShow_get (s : State) (l : Load) (code : Nat) {f : RF} (hf : f.off = R.LDR_STS) : (s.phaseShow l code).get f =
    (s.put F.LDR_STS_phases (setBit (s.get F.LDR_STS_phases) code)).get f := by
  unfold State.phaseShow
  dsimp only
  split
  · exact State.get_of_rd (State.rd_wr_ne _ _ _ _ (by rw [hf]; decide))
  · rfl

theorem State.phaseShow_shown (s : State) (l : Load) {code : Nat} (hc : code < 4) : bitOf ((s.phaseShow l code).get F.LDR_STS_phases) code = true := by
  rw [s.phaseShow_get l code rfl, State.get_put_lt _ rfl (setBit_lt (State.get_lt s _) hc)]
  exact bitOf_setBit _ _

theorem State.phaseShow_fab (s : State) (l : Load) (code : Nat) : (s.phaseShow l code).fab = s.fab := by
  unfold State.phaseShow
  dsimp only
  split <;> rfl

theorem State.lockEnd_waits (s : State) {l : Load} (h : l.image.waits.getD l.pos 0 ≠ 0) : s.lockEnd l = (s.phaseShow l 0).setLoad (some { l with phaseDone := true }) :=
  if_neg h

theorem completes_lockPhaseComplete {l : Load} {s : State} (hl : s.lockLoad = some l) (hw : l.image.waits.getD l.pos 0 ≠ 0) (hd : s.lockDone (lockGroups l.settings) = true) :
    Completes .lockPhaseComplete s (fun t => t.ldr.load = some { l with phaseDone := true } ∧ bitOf (t.get F.LDR_STS_phases) 0 = true) := by
  show ∃ t, execLockPhaseComplete s = .next t ∧ _
  unfold execLockPhaseComplete
  rw [hl]
  dsimp only
  rw [if_pos hd, s.lockEnd_waits hw]
  exact ⟨_, rfl, rfl, s.phaseShow_shown l (by decide)⟩

theorem completes_lockTimeout {l : Load} {s : State} (hl : s.lockLoad = some l) (hw : l.image.waits.getD l.pos 0 ≠ 0) :
    Completes .lockTimeout s (fun t => t.ldr.load = some { l with phaseDone := true } ∧ bitOf (t.get F.LDR_STS_phases) 0 = true ∧
      t.get F.LDR_STS_lock_late = 1 ∧ t.loggedSome 0x0207) := by
  show ∃ t, execLockTimeout s = .next t ∧ _
  unfold execLockTimeout
  rw [hl]
  dsimp only
  have hlate : ((s.put F.LDR_STS_lock_late 1).raiseFree 0x0207).get F.LDR_STS_lock_late = 1 := by
    rw [State.raiseFree_getKept _ _ rfl, State.get_put_lit s rfl]
  have hlog : ((s.put F.LDR_STS_lock_late 1).raiseFree 0x0207).loggedSome 0x0207 := State.raiseFree_loggedSome _ _
  generalize (s.put F.LDR_STS_lock_late 1).raiseFree 0x0207 = u at hlate hlog ⊢
  rw [u.lockEnd_waits hw]
  refine ⟨_, rfl, rfl, u.phaseShow_shown l (by decide), ?_, ?_⟩
  · show (u.phaseShow l 0).get F.LDR_STS_lock_late = 1
    rw [u.phaseShow_get l 0 rfl, State.get_put_apart u _ rfl, hlate]
  · obtain ⟨param, hparam⟩ := hlog
    refine ⟨param, ?_⟩
    show (u.phaseShow l 0).logged 0x0207 param
    unfold State.phaseShow
    dsimp only
    split
    · exact hparam
    · exact hparam

/-! ## Set-reset is released, and writes enabled -/

/-- The bits of a list of regions, beside those of a set. -/
theorem getLsbD_foldl_or (l : List Nat) (b : BitVec 16) (n : Fin 16) :
    (l.foldl (fun a m => a ||| BitVec.ofNat 16 (2 ^ m)) b).getLsbD n = (b.getLsbD n || decide (n.val ∈ l)) := by
  induction l generalizing b with
  | nil => simp
  | cons m ms ih =>
    have hbit : (BitVec.ofNat 16 (2 ^ m)).getLsbD n = decide (n.val = m) := by
      rw [BitVec.getLsbD_ofNat, Nat.testBit_two_pow]
      simp [n.isLt, eq_comm]
    rw [List.foldl_cons, ih, BitVec.getLsbD_or, hbit, Bool.or_assoc, ← Bool.decide_or]
    simp only [List.mem_cons]

/-- The set-reset of the regions, and the loader. -/
def State.gate (s : State) : BitVec 16 × Loader := (s.fab.setReset, s.ldr)

theorem State.gate_of_sansTokens (h : t.sansTokens = s.sansTokens) : t.gate = s.gate := State.of_sansTokens h State.gate fun _ => rfl

theorem State.setXq_gate (s : State) (q : Nat) (x : Xq) : (s.setXq q x).gate = s.gate := rfl
theorem State.setWdg_gate (s : State) (n k : Nat) (w : Wdg) : (s.setWdg n k w).gate = s.gate := rfl
theorem State.putB_gate (s : State) (f : RF) (b : Bool) : (s.putB f b).gate = s.gate := rfl

theorem State.regionQueueEnd_gate (s : State) (n : Nat) : (s.regionQueueEnd n).gate = s.gate := foldl_kept State.gate (fun u _ _ => u.setXq_gate _ _) s

theorem State.wdgSync_gate (s : State) (n : Nat) : (s.wdgSync n).gate = s.gate :=
  foldl_kept State.gate (fun u k _ => (show ((u.wdgTurn n k (u.wdgAt n k)).wdgShow n k).gate = (u.wdgTurn n k (u.wdgAt n k)).gate from rfl).trans
    (State.gate_of_sansTokens (u.wdgTurn_sansTokens _ _ _))) s

theorem State.tapsBegin_gate (s : State) (k : Nat) : (s.tapsBegin k).gate = s.gate := by
  refine foldl_kept State.gate (fun u p _ => foldl_kept State.gate (fun v j _ => ?_) u) s
  dsimp only
  split
  · split
    · rfl
    · exact (State.gate_of_sansTokens (State.ackDst_sansTokens _ _)).trans rfl
  · rfl

theorem State.fabRelease_gate (s : State) (set : BitVec 16) : (s.fabRelease set).gate = (s.fab.setReset &&& ~~~ set, s.ldr) := by
  unfold State.fabRelease
  extract_lets xs toks gs v src w
  have hack (l : List Dst) : (l.foldl (fun s d => if s.offeredAt d then s.ackDst d else s) w).gate = w.gate := by
    refine foldl_kept State.gate (fun u d _ => ?_) w
    split
    · exact State.gate_of_sansTokens (u.ackDst_sansTokens d)
    · rfl
  have hnode : (xs.foldl (fun u x => u.setNode x ((u.stageInit x).getD {})) s).gate = s.gate := by
    refine foldl_kept State.gate (fun u x _ => ?_) s
    rfl
  change v.gate = s.gate at hnode
  rw [hack]
  exact (congrArg (fun g => (g.1 &&& ~~~ set, g.2)) hnode :)

theorem State.setResetOff_gate (s : State) (set : BitVec 16) : (s.setResetOff set).gate = (s.fab.setReset &&& ~~~ set, s.ldr) := by
  unfold State.setResetOff
  refine (foldl_kept State.gate (fun u k _ => ?_) _).trans ((foldl_kept State.gate (fun u n _ => ?_) _).trans (s.fabRelease_gate set))
  · dsimp only
    split
    · exact State.tapsBegin_gate _ _
    · rfl
  · dsimp only
    split
    · exact (State.wdgSync_gate _ _).trans ((State.regionQueueEnd_gate _ _).trans (foldl_kept State.gate (fun v k _ => v.setWdg_gate n k _) u))
    · rfl

theorem State.setResetOff_released (s : State) (l : List Nat) {n : Fin 16} (hn : n.val ∈ l) :
    (s.setResetOff (l.foldl (fun a m => a ||| BitVec.ofNat 16 (2 ^ m)) 0)).fab.setReset.getLsbD n = false := by
  rw [show (s.setResetOff (l.foldl (fun a m => a ||| BitVec.ofNat 16 (2 ^ m)) 0)).fab.setReset =
    s.fab.setReset &&& ~~~ (l.foldl (fun a m => a ||| BitVec.ofNat 16 (2 ^ m)) 0) from congrArg Prod.fst (s.setResetOff_gate _)]
  rw [BitVec.getLsbD_and, BitVec.getLsbD_not, getLsbD_foldl_or, decide_eq_true hn]
  simp

/-- A phase with a wait after it: what it does, shown, and the wait. -/
theorem State.phases_waits (s : State) (k : Nat) {l : Load} {code : Nat} (hpos : l.pos < 4) (hcode : phaseAt l.order l.pos = code) (hne : code ≠ 0)
    (hw : l.image.waits.getD l.pos 0 ≠ 0) : s.phases (k + 1) l =
      ((if code = 1 then s.outPhase l.settings else if code = 2 then s.gsrPhase l else s.wenPhase l.set.toNat).phaseShow l code).setLoad (some { l with phaseDone := true }) := by
  unfold State.phases
  rw [if_neg (Nat.not_le.mpr hpos), hcode]
  dsimp only
  rw [if_neg hne, if_neg hw]

/-- The load of a design behind the wait of its last phase. -/
def Load.onward (l : Load) : Load := { l with pos := l.pos + 1, phaseDone := false }

theorem execPhaseWaitExpiry_eq {l : Load} (hl : s.ldr.load = some l) (hlat : s.latched = false) (hs : l.step = .startup) (hd : l.phaseDone = true) :
    execPhaseWaitExpiry s = .next (s.phases 4 l.onward) := by
  have hfull : s.fullLoad = some l := by
    unfold State.fullLoad
    rw [hlat]
    exact hl
  unfold execPhaseWaitExpiry
  rw [hfull]
  dsimp only
  rw [if_neg (by rw [hs, hd]; decide)]
  rfl

theorem Load.onward_done {l : Load} (hd : l.phaseDone = true) : { l.onward with phaseDone := true } = { l with pos := l.pos + 1 } := by
  unfold Load.onward
  rw [← hd]

section

variable {l : Load} (hl : s.ldr.load = some l) (hlat : s.latched = false) (hs : l.step = .startup) (hd : l.phaseDone = true)

include hl hlat hs hd

theorem completes_wenPhase (hpos : l.pos < 3) (hcode : phaseAt l.order (l.pos + 1) = 3) (hw : l.image.waits.getD (l.pos + 1) 0 ≠ 0) :
    Completes .phaseWaitExpiry s (fun t => bitOf (t.get F.LDR_STS_phases) 3 = true ∧ t.ldr.load = some { l with pos := l.pos + 1 } ∧
      ∀ n : Fin 16, n.val ∈ s.liveOf l.set.toNat → t.fab.wen.getLsbD n = true) := by
  show ∃ t, execPhaseWaitExpiry s = .next t ∧ _
  rw [execPhaseWaitExpiry_eq hl hlat hs hd,
    s.phases_waits 3 (l := l.onward) (code := 3) (by show l.pos + 1 < 4; omega) hcode (by decide) hw, if_neg (by decide), if_neg (by decide), Load.onward_done hd]
  refine ⟨_, rfl, State.phaseShow_shown _ _ (by decide), rfl, fun n hn => ?_⟩
  show ((s.wenPhase l.set.toNat).phaseShow l.onward 3).fab.wen.getLsbD n = true
  rw [State.phaseShow_fab]
  show ((s.liveOf l.set.toNat).foldl (fun a n => a ||| BitVec.ofNat 16 (2 ^ n)) s.fab.wen).getLsbD n = true
  rw [getLsbD_foldl_or, decide_eq_true hn, Bool.or_true]

theorem completes_gsrPhase (hpos : l.pos < 3) (hcode : phaseAt l.order (l.pos + 1) = 2) (hw : l.image.waits.getD (l.pos + 1) 0 ≠ 0) :
    Completes .phaseWaitExpiry s (fun t => bitOf (t.get F.LDR_STS_phases) 2 = true ∧ t.ldr.load = some { l with pos := l.pos + 1 } ∧
      ∀ n : Fin 16, n.val ∈ s.liveOf l.set.toNat → t.fab.setReset.getLsbD n = false) := by
  show ∃ t, execPhaseWaitExpiry s = .next t ∧ _
  rw [execPhaseWaitExpiry_eq hl hlat hs hd,
    s.phases_waits 3 (l := l.onward) (code := 2) (by show l.pos + 1 < 4; omega) hcode (by decide) hw, if_neg (by decide), if_pos rfl, Load.onward_done hd]
  refine ⟨_, rfl, State.phaseShow_shown _ _ (by decide), rfl, fun n hn => ?_⟩
  show ((s.gsrPhase l.onward).phaseShow l.onward 2).fab.setReset.getLsbD n = false
  rw [State.phaseShow_fab]
  exact State.setResetOff_released _ _ hn

end

/-! ## The module enters RUN -/

/-- What a start goes on to do: mode and loader stay. -/
abbrev State.Hums (s t : State) : Prop := s.Alters (fun _ => BitVec.allOnes 32) (fun u => (u.mode, u.ldr)) t

theorem hums_eventful : Eventful (fun _ => BitVec.allOnes 32) (fun u : State => (u.mode, u.ldr)) := ⟨fun _ _ => rfl, fun _ => rfl⟩

theorem State.Hums.of_alters {β : Type} {m : Nat → Word} {part : State → β} (h : s.Alters m part t)
    (hp : ∀ a b : State, part a = part b → (a.mode, a.ldr) = (b.mode, b.ldr)) : s.Hums t := by
  refine .mono h (fun off i hi => ?_) hp
  rw [BitVec.getLsbD_allOnes, decide_eq_false_iff_not] at hi
  exact BitVec.getLsbD_of_ge _ _ (by omega)

theorem State.Enters.hums {n : Nat} (h : s.Enters n t) : s.Hums t :=
  .of_alters h fun _ _ hab => (congrArg (fun x => (x.1.mode, x.1.ldr)) hab :)
theorem State.Enrols.hums (h : s.Enrols t) : s.Hums t := .of_alters h fun _ _ hab => (congrArg (fun x => (x.1.mode, x.1.ldr)) hab :)
theorem State.Answers.hums (h : s.Answers t) : s.Hums t := .of_alters h fun _ _ hab => (congrArg (fun x => (x.mode, x.ldr)) hab :)

theorem State.put_hums (s : State) (f : RF) (v : Nat) : s.Hums (s.put f v) := .field hums_eventful v (and_not_allOnes _)
theorem State.setFlt_hums (s : State) (x : Flt) : s.Hums (s.setFlt x) := .of_same rfl rfl rfl
theorem State.setLane_hums (s : State) (n : Nat) (x : Lane) : s.Hums (s.setLane n x) := .of_same rfl rfl rfl
theorem State.setGrp_hums (s : State) (n : Nat) (x : Grp) : s.Hums (s.setGrp n x) := .of_same rfl rfl rfl

theorem State.laneStart_hums (s : State) {n : Nat} (hn : n < 128) : s.Hums (s.laneStart n) := by
  unfold State.laneStart
  exact State.Alters.trans (s.setLane_hums n _) (.ite (fun _ => (State.laneEnter_enters _ hn 2).hums) fun _ => (State.laneEnter_enters _ hn 1).hums)

theorem State.grpEnable_hums (s : State) {g : Nat} (hg : g < 12) : s.Hums (s.grpEnable g) := by
  refine .trans ((s.put_hums _ _).trans (State.setGrp_hums _ _ _)) (.foldl (fun u i hi => .ite (fun _ => u.laneStart_hums ?_) fun _ => .refl _ _ _) _)
  have hi5 := List.mem_range.mp hi
  show 5 * g + i < 128
  omega

theorem State.drlStart_hums (s : State) : s.Hums s.drlStart := by
  have hpwr (u : State) (p : Pwr) : u.Hums (u.setPwr p) := .of_same rfl rfl rfl
  have haim (u : State) (want floor : Nat) : u.Hums (u.aim want floor) := by
    unfold State.aim
    extract_lets goal v src w x
    have hv : u.Hums v := (u.put_hums _ _).trans (State.put_hums _ _ _)
    have hw : v.Hums w := .of_same rfl rfl rfl
    have hx : w.Hums x := w.put_hums _ _
    exact (hv.trans (hw.trans hx)).trans (.ite (fun _ => State.Alters.trans (x.put_hums _ _) (.raiseLim hums_eventful _ _ _ _)) fun _ => x.put_hums _ _)
  unfold State.drlStart State.restartWindow State.aimRun
  exact State.Alters.trans ((hpwr _ _).trans (hpwr _ _)) (.ite (fun _ => haim _ _ _) fun _ => haim _ _ _)

theorem State.bistPass_hums (s : State) : s.Hums s.bistPass := (s.setFlt_hums _).trans (State.setFlt_hums _ _)

theorem State.completeSrc_hums (s : State) (src : Option CmdSrc) (status detail : Nat) : s.Hums (s.completeSrc src status detail) :=
  (s.completeSrc_answers src status detail).hums

theorem State.Holds.anyRetired (h : s.Holds t) : t.anyRetired = s.anyRetired := by
  have hget {f : RF} (hf : holdReg f.off = 0) : t.get f = s.get f := h.get_of_zero hf
  have happlied : t.applied = s.applied := (congrArg (fun x => x.flt.kept ++ x.flt.books) h.part :)
  have hmor (kind g : Nat) : t.morOf kind g = s.morOf kind g := by
    unfold State.morOf
    rw [happlied]
  have hgrp (g : Nat) : t.grpRetired g = s.grpRetired g := by
    unfold State.grpRetired State.grpMap
    rw [hmor, hmor]
  unfold State.anyRetired
  rw [hget (f := F.FLT_RET_REG_regions) rfl, hget (f := F.FLT_RET_SPK0_units) rfl, hget (f := F.FLT_RET_SPK1_units) rfl, hget (f := F.FLT_RET_MISC_ports) rfl,
    hget (f := F.FLT_RET_MISC_phases) rfl]
  simp only [hgrp]

theorem State.enterRun_spec (s : State) (l : Load) : (s.enterRun l).mode = (if s.anyRetired then .limp else .run) ∧ (s.enterRun l).ldr.load = none ∧
    (s.enterRun l).loggedSome 0x0202 ∧ (s.enterRun l).ldr.full = some l.image := by
  unfold State.enterRun
  extract_lets set a b c d src e f g h i j groups k m
  have hput (u : State) {r : RF} (v : Nat) (hr : 0x10000 ≤ r.off) (hr' : r.off < 0x20000) : u.Winds (u.put r v) := u.putLow_winds v hr hr'
  have hwr (u : State) {off : Nat} (v : Word) (hr : 0x10000 ≤ off) (hr' : off < 0x20000) : u.Winds (u.wr off v) := .wr v (workReg_io hr (by omega) (Or.inl hr')) rfl
  have ha : s.Winds a := s.designRuns_winds l
  have hb : a.Winds b := State.Alters.trans ((hput a _ (by decide) (by decide)).trans (hput _ _ (by decide) (by decide)))
    ((hput _ _ (by decide) (by decide)).trans (hput _ _ (by decide) (by decide)))
  have hc : b.Winds c := (hwr b _ (by decide) (by decide)).trans (hwr _ _ (by decide) (by decide))
  have hd : c.Winds d := .ite (fun _ => .refl _ _ _) fun _ =>
    ((hput c _ (by decide) (by decide)).trans (hput _ _ (by decide) (by decide))).trans (hput _ _ (by decide) (by decide))
  have he : d.Holds e := .of_same rfl rfl rfl
  have hretired : e.anyRetired = s.anyRetired := State.Holds.anyRetired ((State.Halts.holds (State.Winds.halts (ha.trans (hb.trans (hc.trans hd))))).trans he)
  have hmode : f.mode = if s.anyRetired then .limp else .run := (State.setMode_mode _ _).trans (by rw [hretired])
  have hload : f.ldr.load = none ∧ f.ldr.full = some l.image := by
    have hldr : f.ldr = e.ldr := by
      show (State.setMode e _).ldr = e.ldr
      unfold State.setMode
      dsimp only
      split <;> rfl
    rw [hldr]
    exact ⟨rfl, rfl⟩
  have hg : f.Hums g := (f.put_hums _ _).trans (.raise hums_eventful _ _)
  have hlog : g.loggedSome 0x0202 := ⟨_, State.raise_logged _ _ _⟩
  have hh : g.Hums h := g.drlStart_hums.trans (State.put_hums _ _ _)
  have hi : h.Hums i := .foldl (fun u n _ => u.setFlt_hums _) h
  have hj : i.Hums j := .ite (fun _ => i.bistPass_hums) fun _ => .refl _ _ _
  have hk : j.Hums k := .foldl (fun u g hg => .ite (fun _ => .refl _ _ _) fun _ => .ite (fun _ => u.grpEnable_hums (List.mem_range.mp hg)) fun _ => .refl _ _ _) j
  have hm : k.Hums m := k.pelEnumerate_enrols.hums
  have hend : g.Hums (m.completeSrc l.src (if l.store && !l.storeOk then 8 else 0) (if l.store && !l.storeOk then 0x0100 else 0)) :=
    hh.trans (hi.trans (hj.trans (hk.trans (hm.trans (m.completeSrc_hums _ _ _)))))
  have hpart := congrArg Prod.fst (hg.trans hend).part
  have hldr := congrArg Prod.snd (hg.trans hend).part
  obtain ⟨param, hparam⟩ := hlog
  exact ⟨hpart.trans hmode, (congrArg Loader.load hldr).trans hload.1, ⟨param, hend.logged hparam⟩, (congrArg Loader.full hldr).trans hload.2⟩

theorem completes_lastWait {l : Load} (hl : s.ldr.load = some l) (hlat : s.latched = false) (hs : l.step = .startup) (hd : l.phaseDone = true) (hpos : l.pos = 3) :
    Completes .phaseWaitExpiry s (fun t => t.mode = (if s.anyRetired then .limp else .run) ∧ t.ldr.load = none ∧ t.loggedSome 0x0202 ∧
      t.ldr.full = some l.image) := by
  show ∃ t, execPhaseWaitExpiry s = .next t ∧ _
  rw [execPhaseWaitExpiry_eq hl hlat hs hd]
  have hrun : s.phases 4 l.onward = s.enterRun l.onward := by
    unfold State.phases
    exact if_pos (by show 4 ≤ l.pos + 1; omega)
  rw [hrun]
  exact ⟨_, rfl, s.enterRun_spec l.onward⟩

/-- Settles O28: the LOCK phase and the phases behind it are shown, set-reset is released and writes enabled for the live regions, and the last wait takes
the module to RUN, or to LIMP where a unit is retired. -/
theorem startUpPhasesLeadToRun : Obligations.StartUpPhasesLeadToRun := by
  unfold Obligations.StartUpPhasesLeadToRun
  exact ⟨fun _ _ hl hw => ⟨completes_lockPhaseComplete hl hw, completes_lockTimeout hl hw⟩, fun _ _ hl hlat hs hd =>
    ⟨completes_wenPhase hl hlat hs hd, fun hpos hcode hw _ => completes_gsrPhase hl hlat hs hd hpos hcode hw, completes_lastWait hl hlat hs hd⟩⟩

end Sys2Proof.Machine
end

section
/-! SUPPORT. The claims of the system pins (R440, R446, Table 15.2). -/

namespace Sys2Proof.Machine

variable {s t u : State}

/-! ## The claims in their order -/

/-- What a run of claims adds: pins taken and claims lost, each by a peripheral of the run that claims the pin. -/
theorem State.claims_add (s : State) (l : List Nat) (acc : List (Nat × Nat) × List (Nat × Nat)) :
    (∃ more, (l.foldl s.claimStep acc).1 = acc.1 ++ more ∧ ∀ x ∈ more, x.2 ∈ l ∧ x.1 ∈ s.claimPins x.2) ∧
    ∃ lost, (l.foldl s.claimStep acc).2 = acc.2 ++ lost ∧ ∀ x ∈ lost, x.1 ∈ l := by
  induction l generalizing acc with
  | nil => exact ⟨⟨[], by simp⟩, [], by simp⟩
  | cons i l ih =>
    obtain ⟨⟨more, hmore, hin⟩, lost, hlost, hout⟩ := ih (s.claimStep acc i)
    rw [List.foldl_cons, hmore, hlost]
    unfold State.claimStep
    dsimp only
    split
    · next p _ =>
      refine ⟨⟨more, rfl, fun x hx => ⟨List.mem_cons_of_mem _ (hin x hx).1, (hin x hx).2⟩⟩, [(i, p)] ++ lost, List.append_assoc _ _ _, fun x hx => ?_⟩
      rcases List.mem_append.mp hx with hx | hx
      · rw [List.mem_singleton.mp hx]
        exact List.mem_cons_self
      · exact List.mem_cons_of_mem _ (hout x hx)
    · refine ⟨⟨_, List.append_assoc _ _ _, fun x hx => ?_⟩, lost, rfl, fun x hx => List.mem_cons_of_mem _ (hout x hx)⟩
      rcases List.mem_append.mp hx with hx | hx
      · obtain ⟨q, hq, rfl⟩ := List.mem_map.mp hx
        exact ⟨List.mem_cons_self, hq⟩
      · exact ⟨List.mem_cons_of_mem _ (hin x hx).1, (hin x hx).2⟩

/-- A claim of which no pin is taken before it or locked is met, and is not lost. -/
theorem State.claims_met {order : List Nat} (hnd : order.Nodup) {id : Nat} (hid : id ∈ order)
    (hfree : ∀ q ∈ s.claimPins id, s.pinLocked q = false ∧ ∀ j ∈ order, order.idxOf j < order.idxOf id → q ∉ s.claimPins j) :
    (∀ p ∈ s.claimPins id, ((order.foldl s.claimStep ([], [])).1.find? (fun x => x.1 == p)) = some (p, id)) ∧
    ∀ x ∈ (order.foldl s.claimStep ([], [])).2, x.1 ≠ id := by
  obtain ⟨pre, post, hsplit⟩ := List.append_of_mem hid
  have hnodup : (pre ++ id :: post).Nodup := hsplit ▸ hnd
  obtain ⟨_, hcons, hpre⟩ := List.nodup_append.mp hnodup
  have hnot : id ∉ pre := fun h => hpre id h id List.mem_cons_self rfl
  have hpost : id ∉ post := (List.nodup_cons.mp hcons).1
  have hbefore (j : Nat) (hj : j ∈ pre) : j ∈ order ∧ order.idxOf j < order.idxOf id := by
    rw [hsplit, List.idxOf_append_of_mem hj, List.idxOf_append_of_notMem hnot, List.idxOf_cons_self]
    exact ⟨List.mem_append_left _ hj, Nat.lt_of_lt_of_le (List.idxOf_lt_length_of_mem hj) (Nat.le_add_right _ _)⟩
  obtain ⟨⟨more, hmore, hin⟩, lost, hlost, hout⟩ := s.claims_add pre ([], [])
  have htaken (q : Nat) (hq : q ∈ s.claimPins id) (x : Nat × Nat) (hx : x ∈ more) : x.1 ≠ q := by
    intro he
    obtain ⟨hj, hlt⟩ := hbefore x.2 (hin x hx).1
    exact (hfree q hq).2 x.2 hj hlt (he ▸ (hin x hx).2)
  have hfirst : s.firstLost more id (s.claimPins id) = none := by
    refine List.find?_eq_none.mpr fun q hq => ?_
    rw [(hfree q hq).1, Bool.false_and, Bool.or_false, List.any_eq_true]
    rintro ⟨x, hx, he⟩
    exact htaken q hq x hx (beq_iff_eq.mp he)
  have hstep : s.claimStep (pre.foldl s.claimStep ([], [])) id = (more ++ (s.claimPins id).map (fun p => (p, id)), lost) := by
    have hacc : pre.foldl s.claimStep ([], []) = (more, lost) := Prod.ext hmore hlost
    rw [hacc]
    unfold State.claimStep
    dsimp only
    rw [hfirst]
  have hall : order.foldl s.claimStep ([], []) = post.foldl s.claimStep (more ++ (s.claimPins id).map (fun p => (p, id)), lost) := by
    rw [hsplit, List.foldl_append, List.foldl_cons, hstep]
  obtain ⟨⟨rest, hrest, _⟩, others, hothers, hnew⟩ := s.claims_add post (more ++ (s.claimPins id).map (fun p => (p, id)), lost)
  rw [hall, hrest, hothers]
  refine ⟨fun p hp => ?_, fun x hx => ?_⟩
  · have hnone : more.find? (fun x => x.1 == p) = none :=
      List.find?_eq_none.mpr fun x hx he => htaken p hp x hx (beq_iff_eq.mp he)
    have hsome : ((s.claimPins id).map (fun q => (q, id))).find? (fun x => x.1 == p) = some (p, id) := by
      rw [List.find?_map]
      have hfind : (s.claimPins id).find? (fun q => q == p) = some p := by
        obtain ⟨q, hq⟩ := Option.isSome_iff_exists.mp (List.find?_isSome (p := fun q => q == p) |>.mpr ⟨p, hp, beq_self_eq_true p⟩)
        rw [hq, beq_iff_eq.mp (List.find?_some (p := fun q => q == p) hq)]
      exact congrArg (Option.map fun q => (q, id)) hfind
    rw [List.find?_append, List.find?_append, hnone, hsome]
    rfl
  · rcases List.mem_append.mp hx with hx | hx
    · exact fun he => hnot (he ▸ hout x hx)
    · exact fun he => hpost (he ▸ hnew x hx)

/-! ## A pin changes its claim -/

theorem claim_apart_locked (q p : Nat) : (F.PIN_CFG_claim q).apart (F.PIN_CFG_locked p) = true := by
  by_cases h : q = p
  · subst h
    rfl
  · exact apart_off (by simp only [F.PIN_CFG_locked, F.PIN_CFG_claim, R.PIN_CFG]; omega)

theorem pinIn_apart_locked {p : Nat} (hp : p < 64) (q lo : Nat) : (⟨R.PIN_IN q, lo, 1⟩ : RF).apart (F.PIN_CFG_locked p) = true :=
  apart_off (by simp only [F.PIN_CFG_locked, R.PIN_CFG, R.PIN_IN]; omega)

theorem State.holder_of_pins (h : t.pins.holder = s.pins.holder) (p : Nat) : t.holder p = s.holder p := by
  unfold State.holder
  rw [h]

/-- The pins after a change of a claim: the code in PIN_CFG, the holder, and the level of an analog input. -/
theorem State.pinClaim_eq (s : State) (p id : Nat) : ∃ x : Pins, x.holder = SMap.set (fun _ => 0) s.pins.holder p (if id = 33 then 0 else id + 1) ∧
    x.losing = s.pins.losing ∧ s.pinClaim p id = (if claimCode id = 7 ∧ id = 32 then
      ({ s.put (F.PIN_CFG_claim p) (if id = 33 then 0 else claimCode id) with pins := x } : State).put ⟨R.PIN_IN (p / 16), p % 16, 1⟩ 0
    else { s.put (F.PIN_CFG_claim p) (if id = 33 then 0 else claimCode id) with pins := x }) := by
  refine ⟨_, ?_, ?_, rfl⟩
  · rfl
  · rfl

theorem State.pinClaim_pins (s : State) (p id : Nat) : (s.pinClaim p id).pins.holder = SMap.set (fun _ => 0) s.pins.holder p (if id = 33 then 0 else id + 1) ∧
    (s.pinClaim p id).pins.losing = s.pins.losing ∧ (s.pinClaim p id).log = s.log := by
  obtain ⟨x, hholder, hlosing, heq⟩ := s.pinClaim_eq p id
  rw [heq]
  split
  · exact ⟨hholder, hlosing, rfl⟩
  · exact ⟨hholder, hlosing, rfl⟩

theorem State.pinClaim_holder (s : State) (p : Nat) {id : Nat} : (s.pinClaim p id).holder p = if id = 33 then none else some id := by
  unfold State.holder
  rw [(s.pinClaim_pins p id).1, SMap.get_set_same]
  by_cases h : id = 33
  · rw [if_pos h, if_pos h]
  · rw [if_neg h, if_neg h]

theorem State.pinClaim_holder_ne (s : State) {p q : Nat} (id : Nat) (h : p ≠ q) : (s.pinClaim q id).holder p = s.holder p := by
  unfold State.holder
  rw [(s.pinClaim_pins q id).1, SMap.get_set_ne _ _ _ _ _ h]

/-- The registers that a change of a claim may write: the configuration of the pin and the levels read. -/
theorem State.pinClaim_get (s : State) (q id : Nat) {f : RF} (hcfg : (F.PIN_CFG_claim q).apart f = true)
    (hin : (⟨R.PIN_IN (q / 16), q % 16, 1⟩ : RF).apart f = true) : (s.pinClaim q id).get f = s.get f := by
  obtain ⟨x, _, _, heq⟩ := s.pinClaim_eq q id
  have hset (v : Nat) : ({ s.put (F.PIN_CFG_claim q) v with pins := x } : State).get f = s.get f :=
    (State.get_of_regs rfl f).trans (State.get_put_apart s v hcfg)
  rw [heq]
  split
  · rw [State.get_put_apart _ _ hin, hset]
  · exact hset _

theorem State.pinClaim_locked (s : State) {p : Nat} (hp : p < 64) (q id : Nat) : (s.pinClaim q id).pinLocked p = s.pinLocked p :=
  congrArg (· != 0) (s.pinClaim_get q id (claim_apart_locked q p) (pinIn_apart_locked hp _ _))

/-! ## The evaluation -/

/-- The pins taken: by the claims in their order, and by the analog inputs. -/
def State.claimsTaken (s : State) : List (Nat × Nat) :=
  (claimOrder.foldl s.claimStep ([], [])).1 ++ s.anaClaims (claimOrder.foldl s.claimStep ([], [])).1

/-- The claims lost, each with the pin that it could not take. -/
def State.claimsGone (s : State) : List (Nat × Nat) := (claimOrder.foldl s.claimStep ([], [])).2

/-- The bits of the claims lost. -/
def goneBits (l : List (Nat × Nat)) : BitVec 20 := l.foldl (fun m x => m ||| BitVec.ofNat 20 (2 ^ x.1)) 0

/-- The claims judged, before a pin changes hands: what is lost is shown and the channels of excitation follow. -/
def State.judged (s : State) : State :=
  let t := s.claimsGone.foldl (fun t l => t.claimLost l) s
  let t := { t with pins := { t.pins with losing := goneBits s.claimsGone } }
  (List.range 4).foldl (fun t k => t.put ⟨R.PER_EN, 16 + k, 1⟩ (if s.claimsTaken.any (fun x => x.2 == 16 + k) then 1 else 0)) t

/-- A pin is given to the claim that has taken it, but for a locked one. -/
def handPin (taken : List (Nat × Nat)) (t : State) (p : Nat) : State :=
  let want := (taken.find? (fun x => x.1 == p)).map (·.2)
  if t.pinLocked p || want == t.holder p then t else t.pinClaim p (want.getD 33)

theorem State.claimsNow_eq (s : State) : s.claimsNow = (List.range 64).foldl (handPin s.claimsTaken) s.judged := rfl

theorem getLsbD_goneBits (l : List (Nat × Nat)) {n : Nat} (hn : n < 20) : (goneBits l).getLsbD n = l.any (fun x => x.1 == n) := by
  have hfold (b : BitVec 20) : (l.foldl (fun m x => m ||| BitVec.ofNat 20 (2 ^ x.1)) b).getLsbD n = (b.getLsbD n || l.any (fun x => x.1 == n)) := by
    induction l generalizing b with
    | nil => simp
    | cons x l ih =>
      have hbit : (BitVec.ofNat 20 (2 ^ x.1)).getLsbD n = (x.1 == n) := by
        rw [BitVec.getLsbD_ofNat, Nat.testBit_two_pow]
        simp [hn, beq_eq_decide]
      rw [List.foldl_cons, ih, BitVec.getLsbD_or, hbit, List.any_cons, Bool.or_assoc]
  exact (hfold 0).trans (by simp)

/-- What a claim lost leaves: the pins, and every register beside PER_CONFLICT and those of events. -/
theorem State.claimLost_pins (s : State) (x : Nat × Nat) : (s.claimLost x).pins = s.pins ∧ ∃ l, (s.claimLost x).log = s.log ++ l := by
  unfold State.claimLost
  dsimp only
  split
  · exact ⟨rfl, [], (List.append_nil _).symm⟩
  · exact ⟨State.raise_pins _ _ _, _, State.raise_log _ _ _⟩

theorem State.claimLost_get (s : State) (x : Nat × Nat) {f : RF} (hf : F.PER_CONFLICT_lost.apart f = true) (he : eventReg f.off = false) :
    (s.claimLost x).get f = s.get f := by
  unfold State.claimLost
  dsimp only
  split
  · rfl
  · rw [State.raise_getKept _ _ _ he, State.get_put_apart _ _ hf]

theorem State.claimLost_conflict (s : State) {x : Nat × Nat} (hx : x.1 < 20) {n : Nat} :
    bitOf ((s.claimLost x).get F.PER_CONFLICT_lost) n = (bitOf (s.get F.PER_CONFLICT_lost) n || (! s.pins.losing.getLsbD x.1 && x.1 == n)) := by
  unfold State.claimLost
  dsimp only
  split
  · next h =>
    rw [h]
    simp
  · next h =>
    have hlt : s.get F.PER_CONFLICT_lost ||| 2 ^ x.1 < 2 ^ 20 := Nat.or_lt_two_pow (State.get_lt s _) (Nat.pow_lt_pow_right (by decide) hx)
    rw [State.raise_getKept _ _ _ rfl, State.get_put_lt _ rfl hlt, bitOf, Nat.testBit_or, Nat.testBit_two_pow, Bool.eq_false_iff.mpr h]
    simp [bitOf, beq_eq_decide]

/-- The claims lost, shown. -/
theorem State.claimsLost_spec (s : State) (l : List (Nat × Nat)) (hl : ∀ x ∈ l, x.1 < 20) : (l.foldl (fun t x => t.claimLost x) s).pins = s.pins ∧
    ∀ x ∈ l, s.pins.losing.getLsbD x.1 = false → bitOf ((l.foldl (fun t x => t.claimLost x) s).get F.PER_CONFLICT_lost) x.1 = true ∧
      (l.foldl (fun t x => t.claimLost x) s).logged 0x0B01 (x.1 * 256 + x.2) := by
  have hpins (l : List (Nat × Nat)) (t : State) : (l.foldl (fun t x => t.claimLost x) t).pins = t.pins := foldl_kept State.pins (fun u x _ => (u.claimLost_pins x).1) t
  have hkept (l : List (Nat × Nat)) (hl : ∀ x ∈ l, x.1 < 20) (t : State) (n : Nat) (h : bitOf (t.get F.PER_CONFLICT_lost) n = true) :
      bitOf ((l.foldl (fun t x => t.claimLost x) t).get F.PER_CONFLICT_lost) n = true := by
    induction l generalizing t with
    | nil => exact h
    | cons y l ih =>
      refine ih (fun z hz => hl z (List.mem_cons_of_mem _ hz)) _ ?_
      rw [t.claimLost_conflict (hl y List.mem_cons_self), h, Bool.true_or]
  have hlog (l : List (Nat × Nat)) (t : State) : ∃ e, (l.foldl (fun t x => t.claimLost x) t).log = t.log ++ e := by
    induction l generalizing t with
    | nil => exact ⟨[], (List.append_nil _).symm⟩
    | cons y l ih =>
      obtain ⟨e, he⟩ := ih (t.claimLost y)
      obtain ⟨d, hd⟩ := (t.claimLost_pins y).2
      exact ⟨d ++ e, by rw [List.foldl_cons, he, hd, List.append_assoc]⟩
  refine ⟨hpins l s, fun x hx hlose => ?_⟩
  obtain ⟨pre, post, rfl⟩ := List.append_of_mem hx
  rw [List.foldl_append, List.foldl_cons]
  have hquiet : (pre.foldl (fun t x => t.claimLost x) s).pins.losing.getLsbD x.1 = false := by rw [hpins]; exact hlose
  generalize pre.foldl (fun t x => t.claimLost x) s = u at hquiet ⊢
  have hx20 : x.1 < 20 := hl x hx
  refine ⟨hkept post (fun y hy => hl y (by simp [hy])) _ _ ?_, ?_⟩
  · rw [u.claimLost_conflict hx20, hquiet]
    simp
  · obtain ⟨e, he⟩ := hlog post (u.claimLost x)
    refine State.logged_mono he ?_
    unfold State.claimLost
    dsimp only
    rw [if_neg (by rw [hquiet]; decide)]
    exact State.raise_logged _ _ _

/-! ## The pins handed over -/

/-- The channels of excitation in PER_EN follow their claims; nothing else does. -/
theorem State.putPwm_kept (u : State) (l : List Nat) (g : Nat → Nat) : (l.foldl (fun t k => t.put ⟨R.PER_EN, 16 + k, 1⟩ (g k)) u).pins = u.pins ∧
    (l.foldl (fun t k => t.put ⟨R.PER_EN, 16 + k, 1⟩ (g k)) u).log = u.log ∧
    ∀ f : RF, f.off ≠ R.PER_EN → (l.foldl (fun t k => t.put ⟨R.PER_EN, 16 + k, 1⟩ (g k)) u).get f = u.get f := by
  refine ⟨foldl_kept State.pins ?_ u, foldl_kept State.log ?_ u, fun f hf => foldl_kept (fun t => t.get f) ?_ u⟩
  · exact fun v _ _ => v.put_pins _ _
  · exact fun v _ _ => v.put_log _ _
  · exact fun v k _ => v.get_put_apart _ (apart_off (Ne.symm hf))

theorem State.judged_pins (s : State) : s.judged.pins = { s.pins with losing := goneBits s.claimsGone } := by
  have hlost : (s.claimsGone.foldl (fun t x => t.claimLost x) s).pins = s.pins := foldl_kept State.pins (fun u x _ => (u.claimLost_pins x).1) s
  unfold State.judged
  dsimp only
  rw [(State.putPwm_kept _ _ _).1]
  show ({ (s.claimsGone.foldl (fun t x => t.claimLost x) s).pins with losing := goneBits s.claimsGone } : Pins) = _
  rw [hlost]

theorem State.judged_get (s : State) {f : RF} (hc : F.PER_CONFLICT_lost.apart f = true) (he : eventReg f.off = false) (hp : f.off ≠ R.PER_EN) :
    s.judged.get f = s.get f := by
  have hlost : (s.claimsGone.foldl (fun t x => t.claimLost x) s).get f = s.get f := foldl_kept (fun t => t.get f) (fun u x _ => u.claimLost_get x hc he) s
  unfold State.judged
  dsimp only
  rw [(State.putPwm_kept _ _ _).2.2 f hp]
  exact (State.get_of_regs rfl f).trans hlost

theorem State.judged_lost (s : State) {x : Nat × Nat} (hx : x ∈ s.claimsGone) (hlose : s.pins.losing.getLsbD x.1 = false) :
    bitOf (s.judged.get F.PER_CONFLICT_lost) x.1 = true ∧ s.judged.logged 0x0B01 (x.1 * 256 + x.2) := by
  have hin : ∀ y ∈ s.claimsGone, y.1 < 20 := by
    obtain ⟨_, lost, hlost, hmem⟩ := s.claims_add claimOrder ([], [])
    intro y hy
    have hy' : y.1 ∈ claimOrder := hmem y (by rw [State.claimsGone, hlost, List.nil_append] at hy; exact hy)
    exact (by decide : ∀ i ∈ claimOrder, i < 20) _ hy'
  obtain ⟨hconflict, hlogged⟩ := (s.claimsLost_spec s.claimsGone hin).2 x hx hlose
  unfold State.judged
  dsimp only
  refine ⟨?_, State.logged_mono (l := []) ?_ hlogged⟩
  · rw [(State.putPwm_kept _ _ _).2.2 _ (by decide)]
    exact hconflict
  · rw [(State.putPwm_kept _ _ _).2.1, List.append_nil]

section

variable (taken : List (Nat × Nat))

theorem handPin_holder_ne (t : State) {p q : Nat} (h : p ≠ q) : (handPin taken t q).holder p = t.holder p := by
  unfold handPin
  dsimp only
  split
  · rfl
  · exact t.pinClaim_holder_ne _ h

theorem handPin_get (t : State) (q : Nat) {f : RF} (hcfg : (F.PIN_CFG_claim q).apart f = true)
    (hin : (⟨R.PIN_IN (q / 16), q % 16, 1⟩ : RF).apart f = true) : (handPin taken t q).get f = t.get f := by
  unfold handPin
  dsimp only
  split
  · rfl
  · exact t.pinClaim_get _ _ hcfg hin

theorem handPin_kept (t : State) (q : Nat) : (handPin taken t q).pins.losing = t.pins.losing ∧ (handPin taken t q).log = t.log := by
  unfold handPin
  dsimp only
  split
  · exact ⟨rfl, rfl⟩
  · exact (t.pinClaim_pins _ _).2

/-- An unlocked pin goes to the claim that has taken it. -/
theorem handPin_holder (t : State) {p : Nat} (hl : t.pinLocked p = false) {want : Option Nat} (hw : (taken.find? (fun x => x.1 == p)).map (·.2) = want)
    (h33 : want ≠ some 33) : (handPin taken t p).holder p = want := by
  unfold handPin
  rw [hw, hl]
  dsimp only
  split
  · next h =>
    rw [Bool.false_or] at h
    exact (beq_iff_eq.mp h).symm
  · rw [t.pinClaim_holder]
    cases want with
    | none => rfl
    | some id =>
      have hid : id ≠ 33 := fun h => h33 (congrArg some h)
      exact if_neg hid

end

theorem State.perKick_kept (s : State) : s.perKick.pins = s.pins ∧ s.perKick.log = s.log := by
  refine ⟨foldl_kept State.pins (fun u k _ => ?_) s, foldl_kept State.log (fun u k _ => ?_) s⟩
  · dsimp only
    split
    · split <;> rfl
    · split <;> rfl
  · dsimp only
    split
    · split <;> rfl
    · split <;> rfl

theorem State.perKick_conflict (s : State) : s.perKick.get F.PER_CONFLICT_lost = s.get F.PER_CONFLICT_lost := by
  have hu (u : State) (k : Nat) : (u.put (F.UART_STS_busy k) 1).get F.PER_CONFLICT_lost = u.get F.PER_CONFLICT_lost :=
    u.get_put_apart _ (apart_off (by simp only [F.UART_STS_busy, F.PER_CONFLICT_lost, R.UART_STS, R.PER_CONFLICT]; omega))
  have hs (u : State) (k : Nat) : (u.put (F.SPI_STS_busy k) 1).get F.PER_CONFLICT_lost = u.get F.PER_CONFLICT_lost :=
    u.get_put_apart _ (apart_off (by simp only [F.SPI_STS_busy, F.PER_CONFLICT_lost, R.SPI_STS, R.PER_CONFLICT]; omega))
  refine foldl_kept (fun u => u.get F.PER_CONFLICT_lost) (fun u k _ => ?_) s
  dsimp only
  split
  · split
    · rw [hs, hu]
    · rw [hu]
  · split
    · rw [hs]
    · rfl

/-- Where a claim has taken a pin, or none has: the pin's holder after the evaluation, unless it is locked. -/
theorem State.evalClaims_holder (s : State) {p : Nat} (hp : p < 64) (hconf : s.pins.conf = true) (hl : s.pinLocked p = false) {want : Option Nat}
    (hw : (s.claimsTaken.find? (fun x => x.1 == p)).map (·.2) = want) (h33 : want ≠ some 33) : s.evalClaims.holder p = want := by
  have hlocked (t : State) (l : List Nat) : (l.foldl (handPin s.claimsTaken) t).pinLocked p = t.pinLocked p :=
    foldl_kept (fun t => t.pinLocked p) (fun u q _ => congrArg (· != 0) (handPin_get _ u q (claim_apart_locked q p) (pinIn_apart_locked hp _ _))) t
  have hjudged : s.judged.pinLocked p = false := by
    refine Eq.trans (congrArg (· != 0) (s.judged_get ?_ ?_ ?_)) hl
    · exact apart_off (by simp only [F.PIN_CFG_locked, F.PER_CONFLICT_lost, R.PIN_CFG, R.PER_CONFLICT]; omega)
    · exact eventReg_of_page (by simp only [F.PIN_CFG_locked, R.PIN_CFG]; omega)
    · simp only [F.PIN_CFG_locked, R.PIN_CFG, R.PER_EN]
      omega
  obtain ⟨l, _, hturn⟩ := foldl_turn (fun t : State => t.holder p) (f := handPin s.claimsTaken) (l := List.range 64) (k := p) (List.mem_range.mpr hp) List.nodup_range
    (fun t q _ hq => handPin_holder_ne _ t (Ne.symm hq)) s.judged
  unfold State.evalClaims
  rw [if_pos hconf, State.holder_of_pins (congrArg Pins.holder (State.perKick_kept _).1), s.claimsNow_eq]
  exact hturn.trans (handPin_holder _ _ ((hlocked _ l).trans hjudged) hw h33)

/-- The losers after the evaluation, and what has been shown of them. -/
theorem State.evalClaims_losing (s : State) (hconf : s.pins.conf = true) : s.evalClaims.pins.losing = goneBits s.claimsGone := by
  have hlosing : ((List.range 64).foldl (handPin s.claimsTaken) s.judged).pins.losing = s.judged.pins.losing :=
    foldl_kept (fun t : State => t.pins.losing) (fun u q _ => (handPin_kept _ u q).1) _
  unfold State.evalClaims
  rw [if_pos hconf, (State.perKick_kept _).1, s.claimsNow_eq, hlosing, s.judged_pins]

theorem State.evalClaims_lost (s : State) (hconf : s.pins.conf = true) {x : Nat × Nat} (hx : x ∈ s.claimsGone) (hlose : s.pins.losing.getLsbD x.1 = false) :
    bitOf (s.evalClaims.get F.PER_CONFLICT_lost) x.1 = true ∧ s.evalClaims.logged 0x0B01 (x.1 * 256 + x.2) := by
  obtain ⟨hconflict, hlogged⟩ := s.judged_lost hx hlose
  have hget : ((List.range 64).foldl (handPin s.claimsTaken) s.judged).get F.PER_CONFLICT_lost = s.judged.get F.PER_CONFLICT_lost := by
    refine foldl_kept (fun t : State => t.get F.PER_CONFLICT_lost) (fun u q hq => handPin_get _ u q (apart_off ?_) (apart_off ?_)) _
    · have := List.mem_range.mp hq
      simp only [F.PIN_CFG_claim, F.PER_CONFLICT_lost, R.PIN_CFG, R.PER_CONFLICT]
      omega
    · have := List.mem_range.mp hq
      simp only [F.PER_CONFLICT_lost, R.PIN_IN, R.PER_CONFLICT]
      omega
  have hlog : ((List.range 64).foldl (handPin s.claimsTaken) s.judged).log = s.judged.log := foldl_kept State.log (fun u q _ => (handPin_kept _ u q).2) _
  unfold State.evalClaims
  rw [if_pos hconf, State.perKick_conflict, s.claimsNow_eq, hget]
  refine ⟨hconflict, State.logged_mono (l := []) ?_ hlogged⟩
  rw [(State.perKick_kept _).2, hlog, List.append_nil]

end Sys2Proof.Machine
end

section
/-! SUPPORT. What drives a system pin (R438 to R448), and the clauses of O47 about claims, switches and commands. -/

namespace Sys2Proof.Machine

variable {s t u : State}

/-! ## The claims -/

theorem State.claimPins_lt (s : State) {id p : Nat} (h : p ∈ s.claimPins id) : p < 64 := by
  have hite (c : Prop) [Decidable c] (l : List Nat) (hl : ∀ q ∈ l, q < 64) (h : p ∈ if c then l else []) : p < 64 := by
    split at h
    · exact hl p h
    · exact absurd h List.not_mem_nil
  have hqei (u : Nat) (hu : u < 4) (h : p ∈ s.qeiPins u) : p < 64 := by
    unfold State.qeiPins at h
    dsimp only at h
    rcases List.mem_append.mp h with h | h
    · rcases List.mem_append.mp h with h | h
      · exact hite _ _ (by simp; omega) h
      · exact hite _ _ (by simp; omega) h
    · exact hite _ _ (by simp; omega) h
  unfold State.claimPins at h
  dsimp only at h
  split at h
  case h_1 | h_2 | h_3 | h_4 | h_5 | h_6 | h_7 | h_8 => exact hite _ _ (by decide) h
  case h_9 | h_10 | h_11 | h_12 => exact hqei _ (by decide) h
  case h_13 =>
    split at h
    · rw [List.mem_singleton.mp h]
      omega
    · exact absurd h List.not_mem_nil

theorem completes_claimMet {id p : Nat} {s : State} (hconf : s.pins.conf = true) (hid : id ∈ claimOrder) (hp : p ∈ s.claimPins id)
    (hfree : ∀ q ∈ s.claimPins id, s.pinLocked q = false ∧ ∀ j ∈ claimOrder, claimOrder.idxOf j < claimOrder.idxOf id → q ∉ s.claimPins j) :
    Completes .pinClaimEvaluate s (fun t => t.holder p = some id ∧ t.pins.losing.getLsbD id = false) := by
  obtain ⟨htaken, hgone⟩ := State.claims_met (by decide) hid hfree
  have hid20 : id < 20 := (by decide : ∀ i ∈ claimOrder, i < 20) id hid
  refine ⟨_, rfl, s.evalClaims_holder (s.claimPins_lt hp) hconf (hfree p hp).1 ?_ (fun h => absurd (Option.some.inj h) (by omega)), ?_⟩
  · rw [State.claimsTaken, List.find?_append, htaken p hp]
    rfl
  · rw [s.evalClaims_losing hconf, getLsbD_goneBits _ hid20, Bool.eq_false_iff]
    intro h
    obtain ⟨x, hx, he⟩ := List.any_eq_true.mp h
    exact hgone x hx (beq_iff_eq.mp he)

theorem completes_unclaimed {p : Fin 64} {s : State} (hconf : s.pins.conf = true) (hl : s.pinLocked p = false) (hana : s.get (F.PIN_CFG_ana p) = 0)
    (hfree : ∀ id ∈ claimOrder, p.val ∉ s.claimPins id) : Completes .pinClaimEvaluate s (fun t => t.holder p = none) := by
  refine ⟨_, rfl, s.evalClaims_holder p.isLt hconf hl (want := none) ?_ (fun h => nomatch h)⟩
  obtain ⟨⟨more, hmore, hin⟩, _⟩ := s.claims_add claimOrder ([], [])
  have hnone : s.claimsTaken.find? (fun x => x.1 == p.val) = none := by
    refine List.find?_eq_none.mpr fun x hx he => ?_
    have hxp : x.1 = p.val := beq_iff_eq.mp he
    unfold State.claimsTaken at hx
    rcases List.mem_append.mp hx with hx | hx
    · rw [hmore, List.nil_append] at hx
      exact hfree x.2 (hin x hx).1 (hxp ▸ (hin x hx).2)
    · obtain ⟨q, hq, rfl⟩ := List.mem_map.mp hx
      have hon := (List.mem_filter.mp hq).2
      rw [show q = p.val from hxp, State.on, hana] at hon
      exact absurd hon (by simp)
  rw [hnone]
  rfl

/-- R440: I2C block 1 loses its pins to the index input of quadrature unit 3. -/
theorem completes_claimLost {s : State} (hconf : s.pins.conf = true) (h42 : 42 ∈ s.claimPins 11) (hl : ∀ q ∈ s.claimPins 11, s.pinLocked q = false)
    (hen : bitOf (s.get F.PER_EN_en) 5 = true) (hlose : s.pins.losing.getLsbD 5 = false) :
    Completes .pinClaimEvaluate s (fun t => bitOf (t.get F.PER_CONFLICT_lost) 5 = true ∧ t.pins.losing.getLsbD 5 = true ∧ t.logged 0x0B01 (5 * 256 + 42)) := by
  have hite (c : Prop) [Decidable c] {l : List Nat} {q : Nat} (h : q ∈ if c then l else []) : q ∈ l := by
    split at h
    · exact h
    · exact absurd h List.not_mem_nil
  have hqei (u q : Nat) (h : q ∈ s.qeiPins u) : 32 + 3 * u ≤ q ∧ q < 35 + 3 * u := by
    unfold State.qeiPins at h
    dsimp only at h
    rcases List.mem_append.mp h with h | h
    · rcases List.mem_append.mp h with h | h
      · have := List.mem_singleton.mp (hite _ h)
        omega
      · have := List.mem_singleton.mp (hite _ h)
        omega
    · have := List.mem_singleton.mp (hite _ h)
      omega
  have hfree : ∀ q ∈ s.claimPins 11, s.pinLocked q = false ∧
      ∀ j ∈ [8, 9, 10, 11, 6, 7, 16, 17, 18, 19, 4], [8, 9, 10, 11, 6, 7, 16, 17, 18, 19, 4].idxOf j < [8, 9, 10, 11, 6, 7, 16, 17, 18, 19, 4].idxOf 11 → q ∉ s.claimPins j := by
    refine fun q hq => ⟨hl q hq, fun j hj hlt hqj => ?_⟩
    have hj3 : j = 8 ∨ j = 9 ∨ j = 10 := (by decide : ∀ j ∈ [8, 9, 10, 11, 6, 7, 16, 17, 18, 19, 4],
      [8, 9, 10, 11, 6, 7, 16, 17, 18, 19, 4].idxOf j < [8, 9, 10, 11, 6, 7, 16, 17, 18, 19, 4].idxOf 11 → j = 8 ∨ j = 9 ∨ j = 10) j hj hlt
    have h11 := hqei 3 q hq
    rcases hj3 with rfl | rfl | rfl
    · have := hqei 0 q hqj
      omega
    · have := hqei 1 q hqj
      omega
    · have := hqei 2 q hqj
      omega
  have hmet := (State.claims_met (order := [8, 9, 10, 11, 6, 7, 16, 17, 18, 19, 4]) (by decide) (by decide) hfree).1 42 h42
  have hgone : (5, 42) ∈ s.claimsGone := by
    have hsplit : claimOrder = [8, 9, 10, 11, 6, 7, 16, 17, 18, 19, 4] ++ 5 :: [2, 3, 0, 1] := rfl
    rw [State.claimsGone, hsplit, List.foldl_append, List.foldl_cons]
    generalize [8, 9, 10, 11, 6, 7, 16, 17, 18, 19, 4].foldl s.claimStep ([], []) = acc at hmet ⊢
    have hfirst : s.firstLost acc.1 5 (s.claimPins 5) = some 42 := by
      have hpins : s.claimPins 5 = [42, 43] := if_pos hen
      have htaken : acc.1.any (fun x => x.1 == 42) = true := List.any_eq_true.mpr ⟨_, List.mem_of_find?_eq_some hmet, rfl⟩
      rw [hpins, State.firstLost, List.find?_cons_of_pos]
      rw [htaken, Bool.true_or]
    have hstep : s.claimStep acc 5 = (acc.1, acc.2 ++ [(5, 42)]) := by
      unfold State.claimStep
      dsimp only
      rw [hfirst]
    obtain ⟨_, lost, hlost, _⟩ := s.claims_add [2, 3, 0, 1] (s.claimStep acc 5)
    rw [hlost, hstep]
    exact List.mem_append_left _ (List.mem_append_right _ (List.mem_singleton.mpr rfl))
  obtain ⟨hconflict, hlogged⟩ := s.evalClaims_lost hconf hgone hlose
  refine ⟨_, rfl, hconflict, ?_, hlogged⟩
  rw [s.evalClaims_losing hconf, getLsbD_goneBits _ (by decide)]
  exact List.any_eq_true.mpr ⟨_, hgone, rfl⟩

theorem completes_claimsAtReset {s : State} (hconf : s.pins.conf = false) : Completes .pinClaimEvaluate s (fun t => t = s) :=
  ⟨_, rfl, if_neg (by rw [hconf]; decide)⟩

/-! ## What a pin drives -/

/-- The registers that follow a pad: the levels read at the pins. -/
def levelReg (off : Nat) : Word := if 0x90100 ≤ off ∧ off < 0x90110 then BitVec.allOnes 32 else 0

/-- Pads change from one state to the other. -/
abbrev State.Levels (s t : State) : Prop := s.Alters levelReg (fun u => ({ u with regs := [], pins := { u.pins with drive := [] } } : State)) t

theorem levelReg_out {off : Nat} (h : off < 0x90100 ∨ 0x90110 ≤ off) : levelReg off = 0 := if_neg (by omega)

/-- A pad and its level. -/
theorem State.setSysPad_eq (s : State) (p : Nat) (v : Pad) : ∃ x : Pins,
    x = { s.pins with drive := SMap.set (fun _ => .z) s.pins.drive p (if s.unitOk 2 then v else .z) } ∧
    s.setSysPad p v = match (if s.unitOk 2 then v else .z) with
      | .low => ({ s with pins := x } : State).put ⟨R.PIN_IN (p / 16), p % 16, 1⟩ 0
      | .high => ({ s with pins := x } : State).put ⟨R.PIN_IN (p / 16), p % 16, 1⟩ 1
      | .z => { s with pins := x } := ⟨_, rfl, rfl⟩

theorem State.setSysPad_pins (s : State) (p : Nat) (v : Pad) :
    (s.setSysPad p v).pins = { s.pins with drive := SMap.set (fun _ => .z) s.pins.drive p (if s.unitOk 2 then v else .z) } := by
  obtain ⟨x, hx, heq⟩ := s.setSysPad_eq p v
  rw [heq, ← hx]
  split <;> rfl

theorem State.setSysPad_drive (s : State) (p : Nat) (v : Pad) : SMap.get (fun _ => .z) (s.setSysPad p v).pins.drive p = if s.unitOk 2 then v else .z := by
  rw [s.setSysPad_pins]
  exact SMap.get_set_same _ _ _ _

theorem State.setSysPad_levels (s : State) {p : Nat} (hp : p < 64) (v : Pad) : s.Levels (s.setSysPad p v) := by
  have hin (u : State) (v : Nat) : u.Levels (u.put ⟨R.PIN_IN (p / 16), p % 16, 1⟩ v) := by
    have hreg : levelReg (R.PIN_IN (p / 16)) = BitVec.allOnes 32 := if_pos (by simp only [R.PIN_IN]; omega)
    exact .put v (by rw [hreg, and_not_allOnes]) rfl
  obtain ⟨x, hx, heq⟩ := s.setSysPad_eq p v
  have hpins : s.Levels { s with pins := x } := by
    rw [hx]
    exact .of_same rfl rfl rfl
  rw [heq]
  split
  · exact hpins.trans (hin _ _)
  · exact hpins.trans (hin _ _)
  · exact hpins

theorem State.pinRefresh_levels (s : State) {p : Nat} (hp : p < 64) : s.Levels (s.pinRefresh p) := by
  have hset := fun v => s.setSysPad_levels hp v
  unfold State.pinRefresh
  refine .ite (fun _ => .refl _ _ _) fun _ => .ite (fun _ => hset _) fun _ => .ite (fun _ => .refl _ _ _) fun _ => .ite (fun _ => hset _) fun _ => ?_
  split
  · exact hset _
  · exact .ite (fun _ => hset _) (fun _ => hset _)

theorem State.Levels.keeper (h : s.Levels t) : t.pins.keeper = s.pins.keeper := congrArg (fun u => u.pins.keeper) h.part
theorem State.Levels.lockArmed (h : s.Levels t) : t.pins.lockArmed = s.pins.lockArmed := congrArg (fun u => u.pins.lockArmed) h.part

/-! ## A switch of a pin's function -/

/-- A pin that leaves its keeper (R447). -/
def State.unkept (s : State) (p : Nat) : State := { s with pins := { s.pins with keeper := s.pins.keeper &&& ~~~ (BitVec.ofNat 64 (2 ^ p)) } }

theorem State.unkept_keeper (s : State) (p : Fin 64) : (s.unkept p).pins.keeper.getLsbD p = false := by
  have hbit : (BitVec.ofNat 64 (2 ^ p.val)).getLsbD p = true := by
    rw [BitVec.getLsbD_ofNat, Nat.testBit_two_pow]
    simp [p.isLt]
  show (s.pins.keeper &&& ~~~ (BitVec.ofNat 64 (2 ^ p.val))).getLsbD p = false
  rw [BitVec.getLsbD_and, BitVec.getLsbD_not, hbit]
  simp

theorem State.i2cClear_kept (s : State) (k : Nat) : (s.i2cClear k).pins.keeper = s.pins.keeper ∧ (s.i2cClear k).pins.drive = s.pins.drive := ⟨rfl, rfl⟩

/-- The switch hands the pad to what commands it; the bus clear of an I2C block changes no pad. -/
theorem completes_pinSwitched {p : Fin 64} {s : State} (hk : s.pins.keeper.getLsbD p = true) {P : State → Prop}
    (hP : ∀ t, t.pins.keeper = ((s.unkept p).pinRefresh p).pins.keeper → t.pins.drive = ((s.unkept p).pinRefresh p).pins.drive → P t) :
    Completes (.pinFunctionSwitch p) s P := by
  show ∃ t, execPinFunctionSwitch p s = .next t ∧ _
  unfold execPinFunctionSwitch
  rw [if_neg (by rw [hk]; decide)]
  dsimp only
  refine ⟨_, rfl, ?_⟩
  change P (if (!((s.unkept p).pinRefresh p).pins.conf) = true then (s.unkept p).pinRefresh p else _)
  split
  · exact hP _ rfl rfl
  · split
    · split
      · exact hP _ (State.i2cClear_kept _ _).1 (State.i2cClear_kept _ _).2
      · exact hP _ rfl rfl
    · split
      · exact hP _ (State.i2cClear_kept _ _).1 (State.i2cClear_kept _ _).2
      · exact hP _ rfl rfl
    · exact hP _ rfl rfl

theorem completes_pinSwitch {p : Fin 64} {s : State} (hk : s.pins.keeper.getLsbD p = true) :
    Completes (.pinFunctionSwitch p) s (fun t => t.pins.keeper.getLsbD p = false ∧ (s.get (F.PIN_CFG_short p) = 0 → s.pins.parked = false →
      s.pins.conf = true → s.holder p = none → s.unitOk 2 = true → s.excStopped p = false → SMap.get (fun _ => .z) t.pins.drive p = s.gpioPad p)) := by
  refine completes_pinSwitched hk fun t hkeeper hdrive => ⟨?_, fun hshort hpark hconf hhold hunit hexc => ?_⟩
  · rw [hkeeper, (State.pinRefresh_levels _ p.isLt).keeper]
    exact s.unkept_keeper p
  · have hrefresh : (s.unkept p).pinRefresh p = (s.unkept p).setSysPad p (s.gpioPad p) := by
      have hpark' : (s.unkept p).pins.parked = false := hpark
      have hconf' : (s.unkept p).pins.conf = true := hconf
      have hshort' : (s.unkept p).on (F.PIN_CFG_short p) = false := by
        rw [State.on, show (s.unkept p).get (F.PIN_CFG_short p) = 0 from (State.get_of_regs rfl _).trans hshort]
        rfl
      have hhold' : (s.unkept p).holder p = none := hhold
      have hexc' : (s.unkept p).excStopped p = false := hexc
      unfold State.pinRefresh
      rw [if_neg (by rw [s.unkept_keeper p]; decide), if_neg (by rw [hconf']; decide), if_neg (by rw [hshort']; decide),
        if_neg (by rw [hpark', Bool.false_and, Bool.false_and]; decide), hhold']
      dsimp only
      rw [if_neg (by rw [hexc']; decide)]
      rfl
    rw [hdrive, hrefresh, State.setSysPad_drive]
    exact if_pos hunit

theorem completes_pinSwitchExc {k : Fin 4} {p : Fin 64} {s : State} (hp : p.val = 28 + k.val) (hk : s.pins.keeper.getLsbD p = true)
    (hhold : s.holder p = some (16 + k.val)) (hconf : s.pins.conf = true) (hlat : s.latched = false) (hunit : s.unitOk 2 = true)
    (hshort : s.get (F.PIN_CFG_short p) = 0) : Completes (.pinFunctionSwitch p) s (fun t => SMap.get (fun _ => .z) t.pins.drive p = s.excPad k) := by
  refine completes_pinSwitched hk fun t _ hdrive => ?_
  have hrefresh : (s.unkept p).pinRefresh p = (s.unkept p).setSysPad p (s.excPad k) := by
    have hconf' : (s.unkept p).pins.conf = true := hconf
    have hlat' : (s.unkept p).latched = false := hlat
    have hshort' : (s.unkept p).on (F.PIN_CFG_short p) = false := by
      rw [State.on, show (s.unkept p).get (F.PIN_CFG_short p) = 0 from (State.get_of_regs rfl _).trans hshort]
      rfl
    have hhold' : (s.unkept p).holder p = some (16 + k.val) := hhold
    have hband : (decide (16 ≤ 16 + k.val) && decide (16 + k.val < 20)) = true := by
      rw [decide_eq_true (Nat.le_add_right _ _), decide_eq_true (by omega), Bool.and_self]
    unfold State.pinRefresh
    rw [if_neg (by rw [s.unkept_keeper p]; decide), if_neg (by rw [hconf']; decide), if_neg (by rw [hshort']; decide), hhold', hlat']
    rw [if_neg ?stays]
    case stays =>
      rw [Option.elim_some, hband]
      simp
    dsimp only
    rw [if_pos ⟨Nat.le_add_right _ _, by omega⟩, Nat.add_sub_cancel_left]
    rfl
  rw [hdrive, hrefresh, State.setSysPad_drive]
  exact if_pos hunit

end Sys2Proof.Machine
end

section
/-! SUPPORT. What the tracks do with a measurement, a lost source or a homed one leaves the sources alone (R204, R213, R216, R219). -/

namespace Sys2Proof.Machine

variable {s t u : State}

/-! ## The tracks -/

/-- The registers of the tracks, and those of events. -/
def trackReg (off : Nat) : Word := if (0x40400 ≤ off ∧ off < 0x40800) ∨ eventReg off then BitVec.allOnes 32 else if off = R.CAD_STS then 0xFFFFFF00 else 0

/-- The state beside the tracks and events. -/
def State.sansTracks (s : State) : State := { s.sansEvent.1 with cad := { s.cad with trks := [] } }

/-- The tracks move from one state to the other. -/
abbrev State.Tracks (s t : State) : Prop := s.Alters trackReg State.sansTracks t

theorem trackReg_eventful : Eventful trackReg State.sansTracks := ⟨fun _ h => if_pos (Or.inr h), fun _ => rfl⟩

theorem trackReg_trk {off : Nat} (h : 0x40400 ≤ off) (h' : off < 0x40800) : trackReg off = BitVec.allOnes 32 := if_pos (Or.inl ⟨h, h'⟩)

theorem trackReg_out {off : Nat} (h : 0x40000 ≤ off) (h' : off < 0x40400 ∨ 0x40800 ≤ off) (hs : off ≠ R.CAD_STS) : trackReg off = 0 := by
  have hev : ¬ (eventReg off = true) := by
    rw [eventReg_of_page (by omega)]
    decide
  rw [trackReg, if_neg (not_or.mpr ⟨by omega, hev⟩), if_neg hs]

theorem State.setTrk_tracks (s : State) (k : Nat) (x : Trk) : s.Tracks (s.setTrk k x) := .of_same rfl rfl rfl

section

variable (s : State) {k : Nat} (hk : k < 8)

include hk

/-- A field of a track's page. -/
theorem State.putTrk_tracks {f : RF} {a : Nat} (v : Nat) (hf : f.off = a + 0x80 * k) (ha : 0x40400 ≤ a) (hb : a < 0x40480) : s.Tracks (s.put f v) :=
  .field trackReg_eventful v (by rw [trackReg_trk (by omega) (by omega), and_not_allOnes])

theorem State.trkShow_tracks : s.Tracks (s.trkShow k) := by
  have hang (u : State) (v : Nat) := u.putTrk_tracks hk (f := F.CAD_TRK_ANG_angle k) (a := 0x40418) v rfl (by decide) (by decide)
  have hrem (u : State) (v : Nat) := u.putTrk_tracks hk (f := F.CAD_TRK_DREM_rem k) (a := 0x40428) v rfl (by decide) (by decide)
  have hslew (u : State) (v : Nat) := u.putTrk_tracks hk (f := F.CAD_TRK_STS_slewing k) (a := 0x4042C) v rfl (by decide) (by decide)
  have hbw (u : State) (v : Nat) := u.putTrk_tracks hk (f := F.CAD_TRK_STS_bw_eff k) (a := 0x4042C) v rfl (by decide) (by decide)
  exact (((hang _ _).trans (hrem _ _)).trans (hslew _ _)).trans (hbw _ _)

theorem State.setTrkState_tracks (v : Nat) : s.Tracks (s.setTrkState k v) := by
  have hbits : ∀ t < 8, (⟨R.CAD_STS, 8 + t, 1⟩ : RF).mask &&& ~~~ (0xFFFFFF00 : Word) = 0 ∧ (⟨R.CAD_STS, 16 + t, 1⟩ : RF).mask &&& ~~~ (0xFFFFFF00 : Word) = 0 := by
    decide
  have hsts : trackReg R.CAD_STS = 0xFFFFFF00 := by decide
  obtain ⟨h8, h16⟩ := hbits k hk
  have hput (u : State) (lo : Nat) (v : Nat) (h : (⟨R.CAD_STS, lo, 1⟩ : RF).mask &&& ~~~ (0xFFFFFF00 : Word) = 0) : u.Tracks (u.put ⟨R.CAD_STS, lo, 1⟩ v) :=
    .field trackReg_eventful v (by rw [hsts]; exact h)
  exact ((s.putTrk_tracks hk (f := F.CAD_TRK_STS_state k) (a := 0x4042C) v rfl (by decide) (by decide)).trans (hput _ _ _ h8)).trans (hput _ _ _ h16)

theorem State.trkCoast_tracks : s.Tracks (s.trkCoast k) := (s.setTrkState_tracks hk 3).trans (State.setTrk_tracks _ _ _)

theorem State.switchAbort_tracks : s.Tracks (s.switchAbort k) := by
  have hsw (u : State) (v : Nat) := u.putTrk_tracks hk (f := F.CAD_TRK_STS_switching k) (a := 0x4042C) v rfl (by decide) (by decide)
  have hbusy (u : State) (v : Nat) := u.putTrk_tracks hk (f := F.CAD_TRK_SW_busy k) (a := 0x40434) v rfl (by decide) (by decide)
  have hres (u : State) (v : Nat) := u.putTrk_tracks hk (f := F.CAD_TRK_SW_result k) (a := 0x40434) v rfl (by decide) (by decide)
  unfold State.switchAbort
  dsimp only
  refine .ite (fun _ => .refl _ _ _) fun _ => .ite (fun _ => s.setTrk_tracks k _) fun _ => ?_
  exact ((((s.setTrk_tracks k _).trans (hsw _ _)).trans (hbusy _ _)).trans (hres _ _)).trans (.raise trackReg_eventful _ _)

theorem State.trkMeasure_tracks (n : Nat) (stamp : Int) : s.Tracks (s.trkMeasure n k stamp) := by
  unfold State.trkMeasure
  dsimp only
  exact .ite (fun _ => .refl _ _ _) fun _ => (s.setTrk_tracks k _).trans (State.trkShow_tracks _ hk)

theorem State.correct_tracks (d : Int) (switch : Bool) {v : State} (h : s.correct k d switch = some v) : s.Tracks v := by
  have hstep (u : State) (v : Nat) := u.putTrk_tracks hk (f := F.CAD_TRK_STS_step k) (a := 0x4042C) v rfl (by decide) (by decide)
  unfold State.correct at h
  extract_lets x st move lim step r w at h
  by_cases hst : st = 2 ∨ st = 3
  · rw [if_pos hst] at h
    by_cases hr : r < -(2 ^ 39) ∨ 2 ^ 39 < r
    · rw [if_pos hr] at h
      cases h
    · rw [if_neg hr] at h
      rw [← Option.some.inj h]
      have hw : s.Tracks w := s.setTrk_tracks k _
      exact State.Alters.trans (hw.trans (.ite (fun _ => hstep _ _) fun _ => .refl _ _ _)) (State.trkShow_tracks _ hk)
  · rw [if_neg hst] at h
    rw [← Option.some.inj h]
    exact (s.setTrk_tracks k _).trans (State.trkShow_tracks _ hk)

end

theorem State.tracksLose_tracks (s : State) (n : Nat) (lost : Bool) : s.Tracks (s.tracksLose n lost) := by
  refine .foldl (fun u k hk8 => ?_) s
  have hk := List.mem_range.mp hk8
  have hlost (u : State) := u.putTrk_tracks hk (f := F.CAD_TRK_STS_lost k) (a := 0x4042C) 1 rfl (by decide) (by decide)
  extract_lets x a b
  have ha : u.Tracks a := by
    simp only [a]
    split
    · exact .ite (fun _ => u.switchAbort_tracks hk) fun _ => .refl _ _ _
    · exact .refl _ _ _
  have hb : a.Tracks b := .ite (fun _ => hlost a) fun _ => .refl _ _ _
  refine ha.trans (.ite (fun _ => .refl _ _ _) fun _ => hb.trans ?_)
  split
  · exact b.setTrk_tracks k _
  · exact b.trkCoast_tracks hk
  · exact .refl _ _ _

theorem State.homeTracks_tracks (s : State) (n : Nat) (old : BitVec 76) : s.Tracks (s.homeTracks n old) := by
  refine .foldl (fun u k hk => ?_) s
  dsimp only
  refine .ite (fun _ => ?_) fun _ => .refl _ _ _
  cases h : u.correct k _ false with
  | none => exact .refl _ _ _
  | some v => exact u.correct_tracks (List.mem_range.mp hk) _ _ h

/-! ### What they leave -/

theorem State.Tracks.cadSrc (h : s.Tracks t) (n : Nat) : t.cadSrc n = s.cadSrc n := congrArg (fun u => u.cadSrc n) h.part

theorem State.Tracks.rd_src (h : s.Tracks t) {off a n : Nat} (hn : n < 4) (ho : off = a + 0x40 * n) (ha : 0x40100 ≤ a) (hb : a < 0x40140) : t.rd off = s.rd off :=
  h.rd (trackReg_out (by omega) (by omega) (by simp only [R.CAD_STS]; omega))

theorem State.Tracks.get_src (h : s.Tracks t) {f : RF} {a n : Nat} (hn : n < 4) (ho : f.off = a + 0x40 * n) (ha : 0x40100 ≤ a) (hb : a < 0x40140) : t.get f = s.get f :=
  State.get_of_rd (State.Tracks.rd_src h hn ho ha hb)

theorem State.Tracks.srcX (h : s.Tracks t) {n : Nat} (hn : n < 4) : t.srcX n = s.srcX n := by
  unfold State.srcX
  rw [State.Tracks.rd_src h hn (off := R.CAD_SRC_POS_HI n) (a := 0x4011C) rfl (by decide) (by decide),
    State.Tracks.rd_src h hn (off := R.CAD_SRC_POS_LO n) (a := 0x40118) rfl (by decide) (by decide), State.Tracks.cadSrc h]

end Sys2Proof.Machine
end

section
/-! PROOFS. System pins and banks (O47; R440 to R453). -/

namespace Sys2Proof.Machine

variable {s t u : State}

/-! ## Commands of the pins -/

theorem State.setPinOut_spec (s : State) {port v : Nat} (hp : port < 4) (hv : v < 2 ^ 16) : (s.setPinOut port v).get (F.PIN_OUT_out port) = v ∧
    (s.setPinOut port v).pins.lockArmed = s.pins.lockArmed := by
  have hfold : (s.put (F.PIN_OUT_out port) v).Levels (s.setPinOut port v) :=
    .foldl (fun u n hn => u.pinRefresh_levels (by have := List.mem_range.mp hn; omega)) _
  refine ⟨?_, (State.Levels.lockArmed hfold).trans rfl⟩
  rw [State.Alters.get_of_zero hfold (levelReg_out (Or.inr (Nat.le_add_right _ _))), State.get_put_lt _ rfl hv]

theorem completes_pinSet (port : Fin 4) (mask : BitVec 16) (s : State) :
    (s.barOpen (R.PIN_SET port) = true → Completes (.pinSet port mask) s (fun t => t.get (F.PIN_OUT_out port) = s.get (F.PIN_OUT_out port) ||| mask.toNat ∧
      t.pins.lockArmed = none)) ∧
    (s.barOpen (R.PIN_CLR port) = true → Completes (.pinClr port mask) s (fun t => t.get (F.PIN_OUT_out port) = s.get (F.PIN_OUT_out port) &&& (~~~ mask).toNat ∧
      t.pins.lockArmed = none)) := by
  have hlt : s.get (F.PIN_OUT_out port) < 2 ^ 16 := s.get_lt _
  refine ⟨fun ho => completes_bar rfl ho ?_, fun ho => completes_bar rfl ho ?_⟩
  · exact s.pinWrite.setPinOut_spec port.isLt (Nat.or_lt_two_pow hlt mask.isLt)
  · exact s.pinWrite.setPinOut_spec port.isLt (Nat.and_lt_two_pow _ (~~~ mask).isLt)

/-- Pins locked one after the other. -/
theorem State.lockPins_get (l : List Nat) (s : State) (p : Nat) :
    (l.foldl (fun t p => t.put (F.PIN_CFG_locked p) 1) s).get (F.PIN_CFG_locked p) = if p ∈ l then 1 else s.get (F.PIN_CFG_locked p) := by
  induction l generalizing s with
  | nil => simp
  | cons q l ih =>
    rw [List.foldl_cons, ih]
    by_cases hpl : p ∈ l
    · rw [if_pos hpl, if_pos (List.mem_cons_of_mem _ hpl)]
    · rw [if_neg hpl]
      by_cases hpq : p = q
      · subst hpq
        rw [State.get_put_lit s rfl, if_pos List.mem_cons_self]
      · rw [State.get_put_apart s _ (apart_off (by simp only [F.PIN_CFG_locked, R.PIN_CFG]; omega)), if_neg (by simp [hpq, hpl])]

theorem completes_pinLock (port : Fin 4) (mask : BitVec 16) (s : State) (ho : s.barOpen (R.PIN_LOCK port) = true) :
    Completes (.pinLockFirst port) s (fun t => t.pins.lockArmed = some port.val ∧ t.regs = s.regs) ∧
    (s.pins.lockArmed = some port.val → Completes (.pinLockSecond port mask) s (fun t => t.pins.lockArmed = none ∧ ∀ n : Fin 16,
      t.pinLocked (16 * port.val + n.val) = (mask.getLsbD n || s.pinLocked (16 * port.val + n.val)))) ∧
    (s.pins.lockArmed ≠ some port.val → Completes (.pinLockSecond port mask) s (fun t => t.pins.lockArmed = none ∧ t.regs = s.regs)) ∧
    Completes .pinLockTimeout s (fun t => t.pins.lockArmed = none ∧ t.regs = s.regs) := by
  refine ⟨completes_bar (u := s.lockFirst port) rfl ho ⟨rfl, rfl⟩, fun harm => completes_bar (u := s.lockSecond port mask.toNat) rfl ho ?_,
    fun harm => completes_bar (u := s.lockSecond port mask.toNat) rfl ho ?_, ⟨_, rfl, rfl, rfl⟩⟩
  · unfold State.lockSecond
    rw [if_neg (not_not_intro harm)]
    refine ⟨rfl, fun n => ?_⟩
    have hmem : 16 * port.val + n.val ∈ ((List.range 16).filter (bitOf mask.toNat ·)).map (16 * port.val + ·) ↔ mask.getLsbD n = true := by
      simp [bitOf, BitVec.getLsbD, n.isLt]
    show (((((List.range 16).filter (bitOf mask.toNat ·)).map (16 * port.val + ·)).foldl (fun t p => t.put (F.PIN_CFG_locked p) 1) s).get
      (F.PIN_CFG_locked (16 * port.val + n.val)) != 0) = _
    rw [State.lockPins_get]
    by_cases hbit : mask.getLsbD n = true
    · rw [if_pos (hmem.mpr hbit), hbit]
      rfl
    · rw [if_neg (fun h => hbit (hmem.mp h)), Bool.eq_false_iff.mpr hbit]
      rfl
  · unfold State.lockSecond
    rw [if_pos harm]
    exact ⟨rfl, rfl⟩

theorem completes_pinIrq (n : Fin 16) (rising : Bool) (s : State) (hana : s.pinAnalog (16 * s.get (F.PIN_IRQ_SEL_port n) + n.val) = false) :
    Completes (.pinIrqEdge n rising) s (fun t => bitOf (t.get (F.PIN_IN_level (s.get (F.PIN_IRQ_SEL_port n)))) n = rising ∧ bitOf (t.get F.PIN_IRQ_STS_line) n =
      (bitOf (s.get F.PIN_IRQ_STS_line) n || (if rising then s.get (F.PIN_IRQ_EDGE_edge n) % 2 == 1 else decide (2 ≤ s.get (F.PIN_IRQ_EDGE_edge n))))) := by
  show ∃ t, execPinIrqEdge n rising s = .next t ∧ _
  unfold execPinIrqEdge
  have hport : s.get (F.PIN_IRQ_SEL_port n) < 4 := s.get_lt _
  generalize s.get (F.PIN_IRQ_SEL_port n) = port at hana hport ⊢
  dsimp only
  rw [if_neg (by rw [hana]; decide)]
  have hin (v : Nat) : (s.put ⟨R.PIN_IN port, n, 1⟩ v).get (F.PIN_IRQ_EDGE_edge n) = s.get (F.PIN_IRQ_EDGE_edge n) ∧
      (s.put ⟨R.PIN_IN port, n, 1⟩ v).get F.PIN_IRQ_STS_line = s.get F.PIN_IRQ_STS_line :=
    ⟨s.get_put_apart v (apart_off (by simp only [F.PIN_IRQ_EDGE_edge, R.PIN_IN, R.PIN_IRQ_EDGE]; omega)),
      s.get_put_apart v (apart_off (by simp only [F.PIN_IRQ_STS_line, R.PIN_IN, R.PIN_IRQ_STS]; omega))⟩
  have hlevel : bitOf ((s.put ⟨R.PIN_IN port, n, 1⟩ (if rising then 1 else 0)).get (F.PIN_IN_level port)) n = rising :=
    s.get_put_bit (f := F.PIN_IN_level port) (g := ⟨R.PIN_IN port, n, 1⟩) (k := n) rfl (Nat.zero_add _).symm rfl n.isLt (by simp [RF.whole]; omega) rising
  have hkind (v : Nat) : (s.put ⟨R.PIN_IN port, n, 1⟩ v).get (F.PIN_IRQ_EDGE_edge n) = s.get (F.PIN_IRQ_EDGE_edge n) := (hin v).1
  obtain ⟨_, hsts⟩ := hin (if rising then 1 else 0)
  rw [hkind]
  generalize s.put ⟨R.PIN_IN port, n, 1⟩ (if rising then 1 else 0) = u at hlevel hsts ⊢
  have hapart : F.PIN_IRQ_STS_line.apart (F.PIN_IN_level port) = true := apart_off (by simp only [F.PIN_IRQ_STS_line, F.PIN_IN_level, R.PIN_IN, R.PIN_IRQ_STS]; omega)
  have hlt : u.get F.PIN_IRQ_STS_line ||| 2 ^ n.val < 2 ^ 16 := Nat.or_lt_two_pow (u.get_lt _) (Nat.pow_lt_pow_right (by decide) n.isLt)
  by_cases hfire : if rising = true then s.get (F.PIN_IRQ_EDGE_edge n) % 2 = 1 else 2 ≤ s.get (F.PIN_IRQ_EDGE_edge n)
  · rw [if_pos hfire]
    refine ⟨_, rfl, ?_, ?_⟩
    · rw [State.raiseLim_getKept _ _ _ _ _ (eventReg_of_page (by simp only [F.PIN_IN_level, R.PIN_IN]; omega)), State.get_put_apart u _ hapart]
      exact hlevel
    · rw [State.raiseLim_getKept _ _ _ _ _ rfl, State.get_put_lt u rfl hlt, hsts, bitOf, Nat.testBit_or, Nat.testBit_two_pow]
      cases rising
      · simpa [bitOf] using Or.inr hfire
      · simpa [bitOf] using Or.inr hfire
  · rw [if_neg hfire]
    refine ⟨_, rfl, hlevel, ?_⟩
    rw [hsts]
    cases rising
    · have hlow : ¬ 2 ≤ s.get (F.PIN_IRQ_EDGE_edge n) := by simpa using hfire
      simp [hlow]
    · have heven : ¬ s.get (F.PIN_IRQ_EDGE_edge n) % 2 = 1 := by simpa using hfire
      simp [heven]

/-! ## Shorts -/

theorem completes_shortSystem (pin : Fin 384) (sensed : Bool) (s : State) : let p := pin.val % 64
    (s.sysShort p sensed = true → Completes (.shortDetect false pin sensed) s (fun t => t.get (F.PIN_CFG_short p) = 1 ∧
      SMap.get (fun _ => .z) t.pins.drive p = (if s.unitOk 2 then shortPad (s.sysPark p) sensed else .z))) ∧
    (s.sysShort p sensed = false → Completes (.shortDetect false pin sensed) s (fun t => t = s)) := by
  intro p
  have hp : p < 64 := Nat.mod_lt _ (by decide)
  refine ⟨fun h => ?_, fun h => ?_⟩
  · show ∃ t, execShortDetect false pin sensed s = .next t ∧ _
    unfold execShortDetect
    dsimp only
    rw [if_neg (by decide), if_neg (by rw [h]; decide)]
    have hpark : ((s.put (F.PIN_CFG_short p) 1).put ⟨R.PIN_IN (p / 16), p % 16, 1⟩ (if sensed then 1 else 0)).sysPark p = s.sysPark p := by
      have hget : ((s.put (F.PIN_CFG_short p) 1).put ⟨R.PIN_IN (p / 16), p % 16, 1⟩ (if sensed then 1 else 0)).get (F.PIN_CFG_park p) = s.get (F.PIN_CFG_park p) := by
        rw [State.get_put_apart _ _ (apart_off (by simp only [F.PIN_CFG_park, R.PIN_CFG, R.PIN_IN]; omega)), State.get_put_apart s _ rfl]
      unfold State.sysPark
      rw [hget]
      rfl
    have hshort : ((s.put (F.PIN_CFG_short p) 1).put ⟨R.PIN_IN (p / 16), p % 16, 1⟩ (if sensed then 1 else 0)).get (F.PIN_CFG_short p) = 1 := by
      rw [State.get_put_apart _ _ (apart_off (by simp only [F.PIN_CFG_short, R.PIN_CFG, R.PIN_IN]; omega)), State.get_put_lit s rfl]
    have hunits : ((s.put (F.PIN_CFG_short p) 1).put ⟨R.PIN_IN (p / 16), p % 16, 1⟩ (if sensed then 1 else 0)).units = s.units := rfl
    generalize (s.put (F.PIN_CFG_short p) 1).put ⟨R.PIN_IN (p / 16), p % 16, 1⟩ (if sensed then 1 else 0) = u at hpark hshort hunits ⊢
    have hpage : eventReg (F.PIN_CFG_short p).off = false := eventReg_of_page (by simp only [F.PIN_CFG_short, R.PIN_CFG]; omega)
    have hout : levelReg (F.PIN_CFG_short p).off = 0 := levelReg_out (by simp only [F.PIN_CFG_short, R.PIN_CFG]; omega)
    refine ⟨_, rfl, ?_, ?_⟩
    · rw [State.raiseLim_getKept _ _ _ _ _ hpage, State.Alters.get_of_zero (u.setSysPad_levels hp _) hout, hshort]
    · rw [State.raiseLim_pins, State.setSysPad_drive, hpark]
      unfold State.unitOk
      rw [hunits]
  · show ∃ t, execShortDetect false pin sensed s = .next t ∧ _
    unfold execShortDetect
    dsimp only
    rw [if_neg (by decide), if_pos (by rw [h]; rfl)]
    exact ⟨_, rfl, rfl⟩

/-- A register of the unit's page that no pad changes. -/
theorem State.parkPin_short {u p : Nat} (hu : u < 48) (hp : p < 8) (s : State) (v : Pad) (q : Nat) (hq : q < 8) : (s.parkPin u p v).get (F.SPK_PAD_short u q) = s.get (F.SPK_PAD_short u q) := by
  refine State.Alters.get_of_zero ((padFrame_pads hu).parkPin s v hp) ?_
  rw [spkMask_at padBits (a := 0x50080 + 4 * q) (u := u) (by simp only [F.SPK_PAD_short, R.SPK_PAD]; omega) hu (by omega) (by omega)]
  exact (by decide : ∀ q < 8, padBits (0x50080 + 4 * q - 0x50000) = 0) q hq

theorem State.parkPin_pad {u p : Nat} (s : State) (v : Pad) (hilk : s.interlocked u (p / 2) = false) (hvio : s.on (F.BANK_CFG_vio_ok (u / 6)) = true) :
    (s.parkPin u p v).pad u p = v := by
  unfold State.parkPin
  dsimp only
  split
  · next h =>
    unfold State.pinOn
    dsimp only
    split
    · next hact =>
      rw [h.2]
      unfold State.padFor
      unfold State.pinActive at hact
      rw [beq_iff_eq.mp hact]
      cases s.on (F.SPK_PINCFG_pol u (p / 4) (p % 4)) <;> rfl
    · rw [if_pos (by rw [hilk]; rfl), State.setPadAt_pad, State.setPad_pad _ hvio, h.2]
  · split
    · rw [State.setPadAt_pad, State.setPad_pad _ hvio]
    · exact State.setPad_pad _ hvio

/-- A short at a pin that is no half of an interlocked or differential pair, where the bank is within its window: what is recorded, and where the pin parks. -/
theorem State.fabricShort_spec (s : State) {u p : Nat} (hu : u < 48) (hp : p < 8) (sensed : Bool) : (s.fabricShort u p sensed).get (F.SPK_PAD_short u p) = 1 ∧
    (s.interlocked u (p / 2) = false → s.get (F.BANK_CFG_vio_ok (u / 6)) = 1 → (s.fabricShort u p sensed).pad u p = shortPad (s.parkPad u p) sensed) := by
  have hpage : eventReg (F.SPK_PAD_short u p).off = false := eventReg_of_page (by simp only [F.SPK_PAD_short, R.SPK_PAD]; omega)
  unfold State.fabricShort
  extract_lets park k a b pin
  have ha {f : RF} : a.get f = s.get f := State.get_of_regs (State.setSpk_regs _ _ _) f
  have hshort : b.get (F.SPK_PAD_short u p) = 1 := by
    rw [show b = (a.put (F.SPK_PAD_short u p) 1).parkPin u p park from rfl, State.parkPin_short hu hp _ _ _ hp, State.get_put_lit a rfl]
  refine ⟨(State.raiseLim_getKept _ _ _ _ _ hpage).trans hshort, fun hilk hvio => ?_⟩
  have hpad : (b.raiseLim 1000 0x0B03 pin pin).pad u p = b.pad u p := by
    unfold State.pad
    rw [State.spkU_congr (State.raiseLim_spk _ _ _ _ _)]
  rw [hpad]
  have hbank {f : RF} (hf : 0x90000 ≤ f.off) : (a.put (F.SPK_PAD_short u p) 1).get f = s.get f := by
    rw [State.get_put_apart a _ (apart_off (by simp only [F.SPK_PAD_short, R.SPK_PAD]; omega)), ha]
  refine State.parkPin_pad _ park ?_ ?_
  · have hpair : (a.put (F.SPK_PAD_short u p) 1).get (F.SPK_PAIR_ilk u) = s.get (F.SPK_PAIR_ilk u) := by
      rw [State.get_put_apart a _ (apart_off (by simp only [F.SPK_PAD_short, F.SPK_PAIR_ilk, R.SPK_PAD, R.SPK_PAIR]; omega)), ha]
    unfold State.interlocked State.isDiff at hilk ⊢
    rw [hpair, hbank (Nat.le_add_right_of_le (by decide)), hbank (Nat.le_add_right_of_le (by decide))]
    exact hilk
  · rw [State.on, hbank (Nat.le_add_right_of_le (by decide)), hvio]
    rfl

/-- A short leaves the registers of its bank and the rest of the flags of its unit. -/
theorem State.fabricShort_bank (s : State) {u p : Nat} (hu : u < 48) (hp : p < 8) (sensed : Bool) {f : RF} (hf : 0x90000 ≤ f.off) :
    (s.fabricShort u p sensed).get f = s.get f := by
  have hpage : eventReg f.off = false := eventReg_of_page (by omega)
  unfold State.fabricShort
  extract_lets park k a b pin
  rw [State.raiseLim_getKept _ _ _ _ _ hpage]
  refine Eq.trans (State.Alters.get_of_zero ((padFrame_pads hu).parkPin _ _ hp) (spkMask_outside _ hpage (Or.inr (by omega)))) ?_
  rw [State.get_put_apart a _ (apart_off (by simp only [F.SPK_PAD_short, R.SPK_PAD]; omega))]
  exact State.get_of_regs (State.setSpk_regs _ _ _) f

/-- The unit and the pin of a fabric pin's number. -/
theorem fabricPin_unit (pin : Fin 384) : (6 * (pin / 48) + pin % 48 / 8).val = 6 * (pin.val / 48) + pin.val % 48 / 8 := by
  have h48 : ((48 : Fin 384) : Nat) = 48 := rfl
  have h8 : ((8 : Fin 384) : Nat) = 8 := rfl
  have h6 : ((6 : Fin 384) : Nat) = 6 := rfl
  simp only [Fin.val_add, Fin.val_mul, Fin.div_val, Fin.mod_val, h48, h8, h6]
  omega

theorem completes_shortFabric (pin : Fin 384) (sensed : Bool) (s : State) : let u := 6 * (pin.val / 48) + (pin.val % 48) / 8
    let q := pin.val % 8
    shortAgainst (s.pad u q) sensed = true → (s.isDiff u (q / 2) = true → s.pad u (q / 2 * 2) ≠ .z) → Completes (.shortDetect true pin sensed) s (fun t =>
      t.get (F.SPK_PAD_short u q) = 1 ∧ (s.interlocked u (q / 2) = false → s.isDiff u (q / 2) = false → s.get (F.BANK_CFG_vio_ok (u / 6)) = 1 →
        t.pad u q = shortPad (s.parkPad u q) sensed)) := by
  intro u q hshort hpair
  have hu : u < 48 := by omega
  have hq : q < 8 := Nat.mod_lt _ (by decide)
  show ∃ t, execShortDetect true pin sensed s = .next t ∧ _
  unfold execShortDetect
  dsimp only
  rw [fabricPin_unit]
  change ∃ t, (if true = true then (if s.pad u (if s.isDiff u (q / 2) then q / 2 * 2 else q) = .z ∨
    ((if s.isDiff u (q / 2) then q / 2 * 2 else q) = q ∧ (!shortAgainst (s.pad u q) sensed) = true) then _ else _) else _ : Out) = .next t ∧ _
  have hdriven : s.pad u q ≠ .z := by
    intro h
    rw [h] at hshort
    cases hshort
  have hgo : ¬ (s.pad u (if s.isDiff u (q / 2) then q / 2 * 2 else q) = .z ∨ ((if s.isDiff u (q / 2) then q / 2 * 2 else q) = q ∧ (!shortAgainst (s.pad u q) sensed) = true)) := by
    rw [hshort]
    rintro (h | h)
    · split at h
      · next hd => exact hpair hd h
      · exact hdriven h
    · exact absurd h.2 (by decide)
  rw [if_pos rfl, if_neg hgo]
  obtain ⟨hrec, hpark⟩ := s.fabricShort_spec hu hq sensed
  have hdiff : (s.fabricShort u q sensed).isDiff u (q / 2) = s.isDiff u (q / 2) := by
    unfold State.isDiff
    rw [s.fabricShort_bank hu hq sensed (Nat.le_add_right_of_le (by decide)), s.fabricShort_bank hu hq sensed (Nat.le_add_right_of_le (by decide))]
  refine ⟨_, rfl, ?_, fun hilk hsingle hvio => ?_⟩
  · split
    · have hother : (if q % 2 = 0 then q + 1 else q - 1) < 8 := by split <;> omega
      have hne : (F.SPK_PAD_short u (if q % 2 = 0 then q + 1 else q - 1)).apart (F.SPK_PAD_short u q) = true :=
        apart_off (by simp only [F.SPK_PAD_short, R.SPK_PAD]; split <;> omega)
      rw [State.parkPin_short hu hother _ _ _ hq, State.get_put_apart _ _ hne, State.get_of_regs (State.setSpk_regs _ _ _)]
      exact hrec
    · exact hrec
  · rw [if_neg (by rw [hdiff, hsingle]; decide)]
    exact hpark hilk hvio

/-! ## Open wires -/

/-- The registers of Cadence, and those of events. -/
def cadReg (off : Nat) : Word := if (0x40000 ≤ off ∧ off < 0x50000) ∨ eventReg off then BitVec.allOnes 32 else 0

/-- Cadence changes from one state to the other. -/
abbrev State.Cads (s t : State) : Prop := s.Alters cadReg (fun u => ({ u.sansEvent.1 with cad := {} } : State)) t

theorem cadReg_eventful : Eventful cadReg (fun u => ({ u.sansEvent.1 with cad := {} } : State)) := ⟨fun _ h => if_pos (Or.inr h), fun _ => rfl⟩

theorem cadReg_in {off : Nat} (h : 0x40000 ≤ off) (h' : off < 0x50000) : cadReg off = BitVec.allOnes 32 := if_pos (Or.inl ⟨h, h'⟩)

theorem State.Tracks.cads (h : s.Tracks t) : s.Cads t := by
  refine .mono h (fun off i hi => ?_) fun a b hab => (congrArg (fun x => ({ x with cad := {} } : State)) hab :)
  unfold cadReg at hi
  unfold trackReg
  by_cases hin : (0x40000 ≤ off ∧ off < 0x50000) ∨ eventReg off = true
  · rw [if_pos hin, BitVec.getLsbD_allOnes, decide_eq_false_iff_not] at hi
    exact BitVec.getLsbD_of_ge _ _ (by omega)
  · have hsts : off ≠ R.CAD_STS := fun h => hin (Or.inl (by rw [h]; decide))
    rw [if_neg (fun h => hin (h.imp_left fun h => ⟨by omega, by omega⟩)), if_neg hsts]
    exact BitVec.getLsbD_zero

theorem State.putCad_cads (s : State) {f : RF} (v : Nat) (h : 0x40000 ≤ f.off) (h' : f.off < 0x50000) : s.Cads (s.put f v) :=
  .field cadReg_eventful v (by rw [cadReg_in h h', and_not_allOnes])

theorem State.sourceLost_cads (s : State) {n : Nat} (hn : n < 4) : s.Cads (s.sourceLost n) := by
  have hsts (u : State) (f : RF) (hf : f.off = R.CAD_SRC_STS n) (v : Nat) : u.Cads (u.put f v) :=
    u.putCad_cads v (by rw [hf]; exact Nat.le_add_right_of_le (by decide)) (by rw [hf, R.CAD_SRC_STS]; omega)
  have hcad (u : State) (lo v : Nat) : u.Cads (u.put ⟨R.CAD_STS, lo, 1⟩ v) := u.putCad_cads v (by show 0x40000 ≤ R.CAD_STS; decide) (by show R.CAD_STS < 0x50000; decide)
  have hsrc (u : State) (x : CadSrc) : u.Cads (u.setCadSrc n x) := .of_same rfl rfl rfl
  unfold State.sourceLost State.setValid
  dsimp only
  have hmarked (u : State) := hsts u (F.CAD_SRC_STS_lost n) rfl 1
  exact State.Alters.trans ((((hsts s (F.CAD_SRC_STS_valid n) rfl _).trans (hcad _ _ _)).trans (hmarked _)).trans ((hsrc _ _).trans (State.tracksLose_tracks _ n true).cads))
    (.raise cadReg_eventful _ _)

theorem State.openInput_cads (s : State) (p : Nat) : s.Cads (s.openInput p) :=
  .foldl (fun u _ hn => .ite (fun _ => u.sourceLost_cads (List.mem_range.mp hn)) fun _ => .refl _ _ _) s

/-- A pull test's view of a pin: its configuration, whether it is driven or kept, and what the last test found. -/
def State.pullView (s : State) (p : Nat) : Word × Bool × Bool × Bool := (s.rd (R.PIN_CFG p), s.sysDriven p, s.pins.keeper.getLsbD p, s.pins.lastOpen.getLsbD p)

/-- Whether a pin is driven is a matter of its own registers and claims. -/
theorem State.sysDriven_congr {p : Nat} (hpins : ({ t.pins with lastOpen := 0 } : Pins) = { s.pins with lastOpen := 0 }) (hunits : t.units = s.units)
    (hrd : ∀ off, off = R.PIN_CFG p ∨ 0x90100 ≤ off → t.rd off = s.rd off) : t.sysDriven p = s.sysDriven p := by
  have hdrive : t.pins.drive = s.pins.drive := (congrArg Pins.drive hpins :)
  have hconf : t.pins.conf = s.pins.conf := (congrArg Pins.conf hpins :)
  have hparked : t.pins.parked = s.pins.parked := (congrArg Pins.parked hpins :)
  have hkeeper : t.pins.keeper = s.pins.keeper := (congrArg Pins.keeper hpins :)
  have hholder : t.holder p = s.holder p := State.holder_of_pins (congrArg Pins.holder hpins :) p
  have hinput : t.claimIsInput p = s.claimIsInput p := by
    unfold State.claimIsInput
    rw [hholder]
  have hunit : t.unitOk 2 = s.unitOk 2 := by
    unfold State.unitOk
    rw [hunits]
  have hshort : t.on (F.PIN_CFG_short p) = s.on (F.PIN_CFG_short p) := congrArg (· != 0) (State.get_of_rd (hrd _ (Or.inl rfl)))
  have hi2c (k : Nat) : t.on (F.I2C_STS_busy k) = s.on (F.I2C_STS_busy k) :=
    congrArg (· != 0) (State.get_of_rd (hrd _ (Or.inr (Nat.le_add_right_of_le (by decide)))))
  unfold State.sysDriven State.perDrives
  simp only [hdrive, hconf, hparked, hkeeper, hholder, hinput, hunit, hshort, hi2c]

/-- The state with other findings of the last pull test. -/
def State.found (s : State) (x : BitVec 64) : State := { s with pins := { s.pins with lastOpen := x } }

/-- A pull test of a pin (R449): nothing found, or an open wire, which is recorded where it was found before. -/
theorem State.pullTest_eq (s : State) (p : Nat) (isOpen : Bool) : s.pullTest p isOpen =
    if ! s.on (F.PIN_CFG_owt_en p) || s.sysDriven p || s.pins.keeper.getLsbD p || ! isOpen then s.found (s.pins.lastOpen &&& ~~~ BitVec.ofNat 64 (2 ^ p))
    else if s.pins.lastOpen.getLsbD p && ! (s.found (s.pins.lastOpen ||| BitVec.ofNat 64 (2 ^ p))).on (F.PIN_CFG_open p) then
      (((s.found (s.pins.lastOpen ||| BitVec.ofNat 64 (2 ^ p))).put (F.PIN_CFG_open p) 1).raise 0x0B04 p).openInput p
    else s.found (s.pins.lastOpen ||| BitVec.ofNat 64 (2 ^ p)) := rfl

/-- What a record of an open wire leaves. -/
theorem State.openRecord_rest (u : State) (p : Nat) : let t := ((u.put (F.PIN_CFG_open p) 1).raise 0x0B04 p).openInput p
    t.pins = u.pins ∧ t.units = u.units ∧ (∀ off, 0x50000 ≤ off → off ≠ R.PIN_CFG p → t.rd off = u.rd off) ∧ (∃ l, t.log = u.log ++ l) ∧
      t.get (F.PIN_CFG_open p) = 1 ∧ t.logged 0x0B04 p := by
  intro t
  have hin : ((u.put (F.PIN_CFG_open p) 1).raise 0x0B04 p).Cads t := State.openInput_cads _ p
  have hout {off : Nat} (ho : 0x50000 ≤ off) : cadReg off = 0 := by
    refine if_neg (not_or.mpr ⟨by omega, ?_⟩)
    rw [eventReg_of_page (by omega)]
    decide
  have h : (u.put (F.PIN_CFG_open p) 1).Cads t := State.Alters.trans (.raise cadReg_eventful _ _) hin
  have hlogged : t.logged 0x0B04 p := State.Alters.logged hin (State.raise_logged _ _ _)
  clear_value t
  have hpins : t.pins = (u.put (F.PIN_CFG_open p) 1).pins := (congrArg State.pins h.part :)
  have hunits : t.units = (u.put (F.PIN_CFG_open p) 1).units := (congrArg State.units h.part :)
  refine ⟨hpins, hunits, fun off ho hne => ?_, h.log, ?_, hlogged⟩
  · exact (h.rd (hout ho)).trans (State.rd_put_ne _ _ _ _ hne)
  · rw [h.get_of_zero (hout (Nat.le_add_right_of_le (by decide))), State.get_put_lit u rfl]

theorem getLsbD_bit64 (p q : Nat) (hq : q < 64) : (BitVec.ofNat 64 (2 ^ p)).getLsbD q = decide (p = q) := by
  rw [BitVec.getLsbD_ofNat, Nat.testBit_two_pow]
  simp [hq]

/-- A pull test of another pin leaves a pin as it stands. -/
theorem State.pullTest_view (s : State) {p q : Nat} (hp : p < 64) (hq : q < 64) (hne : p ≠ q) (isOpen : Bool) : (s.pullTest p isOpen).pullView q = s.pullView q ∧
    ∃ l, (s.pullTest p isOpen).log = s.log ++ l := by
  have hview {t u : State} (hpins : t.pins = u.pins) (hunits : t.units = u.units) (hrd : ∀ off, 0x50000 ≤ off → off ≠ R.PIN_CFG p → t.rd off = u.rd off) :
      t.pullView q = u.pullView q := by
    have hcfg : R.PIN_CFG q ≠ R.PIN_CFG p := by
      simp only [R.PIN_CFG]
      omega
    have hdriven : t.sysDriven q = u.sysDriven q := by
      refine State.sysDriven_congr (by rw [hpins]) hunits fun off ho => hrd off ?_ ?_
      · simp only [R.PIN_CFG] at ho
        omega
      · simp only [R.PIN_CFG] at ho ⊢
        omega
    unfold State.pullView
    rw [hrd (R.PIN_CFG q) (Nat.le_add_right_of_le (by decide)) hcfg, hdriven, hpins]
  have hfound (x : BitVec 64) (hx : x.getLsbD q = s.pins.lastOpen.getLsbD q) : (s.found x).pullView q = s.pullView q := by
    have hdriven : (s.found x).sysDriven q = s.sysDriven q := State.sysDriven_congr rfl rfl fun _ _ => rfl
    unfold State.pullView
    rw [hdriven, show (s.found x).pins.lastOpen.getLsbD q = s.pins.lastOpen.getLsbD q from hx]
    rfl
  have hclear : (s.pins.lastOpen &&& ~~~ BitVec.ofNat 64 (2 ^ p)).getLsbD q = s.pins.lastOpen.getLsbD q := by
    rw [BitVec.getLsbD_and, BitVec.getLsbD_not, getLsbD_bit64 p q hq]
    simp [hne, hq]
  have hset : (s.pins.lastOpen ||| BitVec.ofNat 64 (2 ^ p)).getLsbD q = s.pins.lastOpen.getLsbD q := by
    rw [BitVec.getLsbD_or, getLsbD_bit64 p q hq]
    simp [hne]
  rw [s.pullTest_eq]
  split
  · exact ⟨hfound _ hclear, [], (List.append_nil _).symm⟩
  · split
    · obtain ⟨hpins, hunits, hrd, hlog, _⟩ := (s.found (s.pins.lastOpen ||| BitVec.ofNat 64 (2 ^ p))).openRecord_rest p
      exact ⟨(hview hpins hunits hrd).trans (hfound _ hset), hlog⟩
    · exact ⟨hfound _ hset, [], (List.append_nil _).symm⟩

/-- A pull test of a pin that takes part. -/
theorem State.pullTest_own (s : State) {p : Nat} (hp : p < 64) (isOpen : Bool) (hen : s.get (F.PIN_CFG_owt_en p) = 1) (hdriven : s.sysDriven p = false)
    (hkept : s.pins.keeper.getLsbD p = false) : (s.pullTest p isOpen).pins.lastOpen.getLsbD p = isOpen ∧
      (isOpen = true → s.pins.lastOpen.getLsbD p = true → (s.pullTest p isOpen).get (F.PIN_CFG_open p) = 1 ∧
        (s.get (F.PIN_CFG_open p) = 0 → (s.pullTest p isOpen).logged 0x0B04 p)) := by
  have hon : s.on (F.PIN_CFG_owt_en p) = true := State.on_of_one hen
  rw [s.pullTest_eq, hon, hdriven, hkept]
  cases isOpen
  · refine ⟨?_, fun h => nomatch h⟩
    show (s.pins.lastOpen &&& ~~~ BitVec.ofNat 64 (2 ^ p)).getLsbD p = false
    rw [BitVec.getLsbD_and, BitVec.getLsbD_not, getLsbD_bit64 p p hp]
    simp
  · have hset : (s.pins.lastOpen ||| BitVec.ofNat 64 (2 ^ p)).getLsbD p = true := by
      rw [BitVec.getLsbD_or, getLsbD_bit64 p p hp]
      simp
    rw [if_neg (by decide)]
    have hopen : (s.found (s.pins.lastOpen ||| BitVec.ofNat 64 (2 ^ p))).get (F.PIN_CFG_open p) = s.get (F.PIN_CFG_open p) := rfl
    have hfound : (s.found (s.pins.lastOpen ||| BitVec.ofNat 64 (2 ^ p))).pins.lastOpen.getLsbD p = true := hset
    generalize s.found (s.pins.lastOpen ||| BitVec.ofNat 64 (2 ^ p)) = u at hopen hfound ⊢
    obtain ⟨hpins, _, _, _, hone, hlogged⟩ := u.openRecord_rest p
    split
    · exact ⟨(congrArg (fun x => x.lastOpen.getLsbD p) hpins).trans hfound, fun _ _ => ⟨hone, fun _ => hlogged⟩⟩
    · next hno =>
      refine ⟨hfound, fun _ hlast => ?_⟩
      rw [hlast, Bool.true_and, State.on, hopen] at hno
      rcases s.get_bit (F.PIN_CFG_open p) rfl with h | h
      · exact absurd (by rw [h]; rfl) hno
      · exact ⟨hopen.trans h, fun h0 => absurd (h.symm.trans h0) (by decide)⟩

theorem completes_openWire (found : BitVec 64) (p : Fin 64) (s : State) (hen : s.get (F.PIN_CFG_owt_en p) = 1) (hdriven : s.sysDriven p = false)
    (hkept : s.pins.keeper.getLsbD p = false) : Completes (.openWireTest found) s (fun t => t.pins.lastOpen.getLsbD p = found.getLsbD p ∧
      (found.getLsbD p = true → s.pins.lastOpen.getLsbD p = true → t.get (F.PIN_CFG_open p) = 1 ∧ (s.get (F.PIN_CFG_open p) = 0 → t.logged 0x0B04 p))) := by
  refine ⟨_, rfl, ?_⟩
  obtain ⟨pre, post, hsplit⟩ := List.append_of_mem (List.mem_range.mpr p.isLt)
  have hnodup : (pre ++ p.val :: post).Nodup := hsplit ▸ List.nodup_range
  obtain ⟨_, hcons, hpre⟩ := List.nodup_append.mp hnodup
  have hlt (a : Nat) (ha : a ∈ pre ++ p.val :: post) : a < 64 := List.mem_range.mp (hsplit ▸ ha)
  have hview (l : List Nat) (u : State) (hl : ∀ a ∈ l, a < 64 ∧ a ≠ p.val) :
      (l.foldl (fun s q => s.pullTest q (found.getLsbD q)) u).pullView p = u.pullView p :=
    foldl_kept (fun u => u.pullView p) (fun v a ha => (v.pullTest_view (hl a ha).1 p.isLt (hl a ha).2 _).1) u
  have hlog (l : List Nat) (u : State) (hl : ∀ a ∈ l, a < 64 ∧ a ≠ p.val) : ∃ e, (l.foldl (fun s q => s.pullTest q (found.getLsbD q)) u).log = u.log ++ e := by
    induction l generalizing u with
    | nil => exact ⟨[], (List.append_nil _).symm⟩
    | cons a l ih =>
      obtain ⟨e, he⟩ := ih (u.pullTest a (found.getLsbD a)) fun b hb => hl b (List.mem_cons_of_mem _ hb)
      obtain ⟨d, hd⟩ := (u.pullTest_view (hl a List.mem_cons_self).1 p.isLt (hl a List.mem_cons_self).2 (found.getLsbD a)).2
      exact ⟨d ++ e, by rw [List.foldl_cons, he, hd, List.append_assoc]⟩
  rw [hsplit, List.foldl_append, List.foldl_cons]
  have hbefore := hview pre s fun a ha => ⟨hlt a (List.mem_append_left _ ha), hpre a ha _ List.mem_cons_self⟩
  generalize pre.foldl (fun s q => s.pullTest q (found.getLsbD q)) s = u at hbefore ⊢
  have hcfg : u.rd (R.PIN_CFG p) = s.rd (R.PIN_CFG p) := congrArg (fun x => x.1) hbefore
  have hopen : u.get (F.PIN_CFG_open p) = s.get (F.PIN_CFG_open p) := State.get_of_rd hcfg
  obtain ⟨hlast, hfound⟩ := u.pullTest_own p.isLt (found.getLsbD p) ((State.get_of_rd hcfg).trans hen) ((congrArg (fun x => x.2.1) hbefore).trans hdriven)
    ((congrArg (fun x => x.2.2.1) hbefore).trans hkept)
  have hpost : ∀ a ∈ post, a < 64 ∧ a ≠ p.val := fun a ha =>
    ⟨hlt a (List.mem_append_right _ (List.mem_cons_of_mem _ ha)), fun he => (List.nodup_cons.mp hcons).1 (he ▸ ha)⟩
  have hafter := hview post (u.pullTest p (found.getLsbD p)) hpost
  obtain ⟨e, he⟩ := hlog post (u.pullTest p (found.getLsbD p)) hpost
  have hcfg' : (post.foldl (fun s q => s.pullTest q (found.getLsbD q)) (u.pullTest p (found.getLsbD p))).rd (R.PIN_CFG p) =
      (u.pullTest p (found.getLsbD p)).rd (R.PIN_CFG p) := congrArg (fun x => x.1) hafter
  refine ⟨(congrArg (fun x => x.2.2.2) hafter).trans hlast, fun hf hs => ?_⟩
  obtain ⟨hone, hlogged⟩ := hfound hf ((congrArg (fun x => x.2.2.2) hbefore).trans hs)
  exact ⟨(State.get_of_rd (f := F.PIN_CFG_open p) hcfg').trans hone, fun h0 => State.logged_mono he (hlogged (hopen.trans h0))⟩

/-! ## The supply of a bank -/

theorem bankSupply_units {b u : Nat} (hb : b < 8) (h : u ∈ (List.range 6).map (6 * b + ·)) : u < 48 := by
  obtain ⟨i, hi, rfl⟩ := List.mem_map.mp h
  have := List.mem_range.mp hi
  omega

/-- Pads brought to high impedance one after the other. -/
theorem State.padsOff_pad {l : List Nat} {u p : Nat} (hp : p < 8) (s : State) (h : u ∈ l ∨ s.pad u p = .z) :
    (l.foldl (fun s u => (List.range 8).foldl (fun s p => s.setPad u p .z) s) s).pad u p = .z := by
  have hset (v : State) (w q : Nat) : (v.setPad w q .z).pad w q = .z := by
    unfold State.setPad State.pad
    simp
  have hother (v : State) (w q : Nat) (h : v.pad u p = .z) : (v.setPad w q .z).pad u p = .z := by
    by_cases hw : u = w
    · subst hw
      by_cases hq : p = q
      · subst hq
        exact hset v u p
      · rw [State.setPad_pad_ne _ hq, h]
    · unfold State.setPad State.pad
      simp only [ite_self]
      rw [State.spkU_setSpk_ne _ _ hw]
      exact h
  have hunit (v : State) (m : List Nat) (w : Nat) (h : v.pad u p = .z ∨ (w = u ∧ p ∈ m)) : (m.foldl (fun s p => s.setPad w p .z) v).pad u p = .z := by
    induction m generalizing v with
    | nil => exact h.resolve_right fun h => absurd h.2 List.not_mem_nil
    | cons q m ih =>
      refine ih _ ?_
      rcases h with h | ⟨hw, hq⟩
      · exact Or.inl (hother v w q h)
      · rcases List.mem_cons.mp hq with rfl | hq
        · exact Or.inl (by rw [hw]; exact hset v u p)
        · exact Or.inr ⟨hw, hq⟩
  induction l generalizing s with
  | nil => exact h.resolve_left List.not_mem_nil
  | cons w l ih =>
    refine ih _ ?_
    rcases h with h | h
    · rcases List.mem_cons.mp h with rfl | h
      · exact Or.inr (hunit s _ _ (Or.inr ⟨rfl, List.mem_range.mpr hp⟩))
      · exact Or.inl h
    · exact Or.inr (hunit s _ _ (Or.inl h))

theorem completes_bankSupply (b : Fin 8) (mv : BitVec 12) (s : State) (hm : s.mode ≠ .cold) : Completes (.bankSupplyChange b mv) s (fun t =>
    t.get (F.BANK_CFG_vio b) = mv.toNat ∧ t.get (F.BANK_CFG_vio_ok b) = (if s.vioGood b mv.toNat then 1 else 0) ∧
    (s.vioGood b mv.toNat = false → t.logged 0x0B05 b ∧ ∀ (i : Fin 6) (p : Fin 8), t.pad (6 * b.val + i.val) p = .z)) := by
  refine ⟨_, rfl, ?_⟩
  unfold State.bankSupply
  dsimp only
  rw [if_neg (show (s.put (F.BANK_CFG_vio b) mv.toNat).mode ≠ .cold from hm)]
  have hvio : (s.put (F.BANK_CFG_vio b) mv.toNat).get (F.BANK_CFG_vio b) = mv.toNat := State.get_put_lt s rfl mv.isLt
  have hgood : (s.put (F.BANK_CFG_vio b) mv.toNat).vioGood b mv.toNat = s.vioGood b mv.toNat := by
    unfold State.vioGood State.on
    rw [State.get_put_apart s _ rfl, State.get_put_apart s _ rfl]
    rfl
  generalize s.put (F.BANK_CFG_vio b) mv.toNat = u at hvio hgood ⊢
  unfold State.bankCheck
  dsimp only
  rw [hvio, hgood]
  have hok : (u.putB (F.BANK_CFG_vio_ok b) (s.vioGood b mv.toNat)).get (F.BANK_CFG_vio_ok b) = if s.vioGood b mv.toNat then 1 else 0 := State.get_putB u _ rfl
  have hkept : (u.putB (F.BANK_CFG_vio_ok b) (s.vioGood b mv.toNat)).get (F.BANK_CFG_vio b) = mv.toNat := (State.get_putB_apart u _ rfl).trans hvio
  generalize u.putB (F.BANK_CFG_vio_ok b) (s.vioGood b mv.toNat) = v at hok hkept ⊢
  have hpage : eventReg (R.BANK_CFG b) = false := eventReg_of_page (Nat.le_add_right_of_le (by decide))
  have hout (g : Nat → Word) : spkMask g (R.BANK_CFG b) = 0 := spkMask_outside g hpage (Or.inr (Nat.le_add_right_of_le (by decide)))
  cases hg : s.vioGood b mv.toNat
  · rw [hg] at hok
    have hpads : v.Pads (((List.range 6).map (6 * b.val + ·)).foldl (fun s u => (List.range 8).foldl (fun s p => s.setPad u p .z) s) v) :=
      .foldl (fun w u hu => .foldl (fun x p hp => x.setPad_pads (bankSupply_units b.isLt hu) _ (List.mem_range.mp hp)) w) v
    rw [if_neg (by decide), if_neg (by decide)]
    refine ⟨?_, ?_, fun _ => ⟨State.raise_logged _ _ _, fun i p => ?_⟩⟩
    · exact (State.raise_getKept (f := F.BANK_CFG_vio b) _ _ _ hpage).trans ((hpads.get_of_zero (hout _)).trans hkept)
    · exact (State.raise_getKept (f := F.BANK_CFG_vio_ok b) _ _ _ hpage).trans ((hpads.get_of_zero (hout _)).trans hok)
    · unfold State.pad
      rw [State.spkU_congr (State.raise_spk _ _ _)]
      exact State.padsOff_pad p.isLt v (Or.inl (List.mem_map.mpr ⟨i.val, List.mem_range.mpr i.isLt, rfl⟩))
  · rw [hg] at hok
    have hparks : v.Stops (((List.range 6).map (6 * b.val + ·)).foldl (fun s u => s.spkPark u) v) :=
      .foldl (fun w u hu => w.spkPark_stops (bankSupply_units b.isLt hu)) v
    rw [if_pos rfl, if_pos rfl]
    split
    · exact ⟨hkept, hok, fun h => nomatch h⟩
    · exact ⟨(hparks.get_of_zero (hout _)).trans hkept, (hparks.get_of_zero (hout _)).trans hok, fun h => nomatch h⟩

theorem completes_bankSupplyCold (b : Fin 8) (mv : BitVec 12) (s : State) (hm : s.mode = .cold) : Completes (.bankSupplyChange b mv) s (fun t =>
    t.get (F.BANK_CFG_vio b) = mv.toNat ∧ t.log = s.log) := by
  refine ⟨_, rfl, ?_⟩
  unfold State.bankSupply
  dsimp only
  rw [if_pos (show (s.put (F.BANK_CFG_vio b) mv.toNat).mode = .cold from hm)]
  exact ⟨State.get_put_lt s rfl mv.isLt, rfl⟩

/-- Settles O47: claims are met in their order, a switch hands the pad over, commands and locks act where their register is open, and shorts, open wires and the
supply of a bank are recorded. -/
theorem pinsAreClaimedDrivenAndProtected : Obligations.PinsAreClaimedDrivenAndProtected := by
  unfold Obligations.PinsAreClaimedDrivenAndProtected
  exact ⟨fun _ _ _ hconf hid hp hfree => completes_claimMet hconf hid hp hfree, fun _ _ hconf hl hana hfree => completes_unclaimed hconf hl hana hfree,
    fun _ hconf h42 hl hen hlose => completes_claimLost hconf h42 hl hen hlose, fun _ _ hk => completes_pinSwitch hk,
    fun _ _ _ hp hk hhold hconf hlat hunit hshort => completes_pinSwitchExc hp hk hhold hconf hlat hunit hshort, fun _ hconf => completes_claimsAtReset hconf,
    completes_pinSet, completes_pinLock, completes_pinIrq,
    fun pin sensed s => ⟨(completes_shortSystem pin sensed s).1, (completes_shortSystem pin sensed s).2, completes_shortFabric pin sensed s⟩,
    completes_openWire, completes_bankSupply, completes_bankSupplyCold⟩

end Sys2Proof.Machine
end

section
/-! SUPPORT. O22: how a source keeps its position, takes a measurement or fails one, and is lost (R192, R195 to R197, R202, R215, R216). -/

namespace Sys2Proof.Machine

/-! ## The position of a source -/

@[simp] theorem State.cadSrc_setCadSrc (s : State) (n : Nat) (x : CadSrc) : (s.setCadSrc n x).cadSrc n = x := SMap.get_set_same _ _ _ _

theorem State.cadSrc_congr {s t : State} (h : t.cad = s.cad) (n : Nat) : t.cadSrc n = s.cadSrc n := by simp only [State.cadSrc, h]

@[simp] theorem State.put_cadSrc (s : State) (f : RF) (v n : Nat) : (s.put f v).cadSrc n = s.cadSrc n := State.cadSrc_congr rfl n

@[simp] theorem State.putB_cadSrc (s : State) (f : RF) (b : Bool) (n : Nat) : (s.putB f b).cadSrc n = s.cadSrc n := State.cadSrc_congr rfl n

@[simp] theorem State.wr_cadSrc (s : State) (off : Nat) (v : Word) (n : Nat) : (s.wr off v).cadSrc n = s.cadSrc n := State.cadSrc_congr rfl n

@[simp] theorem State.raise_cadSrc (s : State) (id param n : Nat) : (s.raise id param).cadSrc n = s.cadSrc n :=
  congrArg (fun u => u.1.cadSrc n) (s.raise_sansEvent id param)

theorem append_hi (h f : BitVec 32) (l : BitVec 12) : (h ++ f ++ l).extractLsb' 44 32 = h := by
  refine BitVec.eq_of_getLsbD_eq fun i hi => ?_
  rw [BitVec.getLsbD_extractLsb', BitVec.getLsbD_append, if_neg (by omega), BitVec.getLsbD_append, if_neg (by omega)]
  simp only [hi, decide_true, Bool.true_and]
  exact congrArg h.getLsbD (by omega)

theorem append_mid (h f : BitVec 32) (l : BitVec 12) : (h ++ f ++ l).extractLsb' 12 32 = f := by
  refine BitVec.eq_of_getLsbD_eq fun i hi => ?_
  rw [BitVec.getLsbD_extractLsb', BitVec.getLsbD_append, if_neg (by omega), BitVec.getLsbD_append, if_pos (by omega)]
  simp only [hi, decide_true, Bool.true_and]
  exact congrArg f.getLsbD (by omega)

theorem append_parts (x : BitVec 76) : x.extractLsb' 44 32 ++ x.extractLsb' 12 32 ++ x.extractLsb' 0 12 = x := by
  refine BitVec.eq_of_getLsbD_eq fun i hi => ?_
  by_cases h12 : i < 12
  · rw [BitVec.getLsbD_append, if_pos h12, BitVec.getLsbD_extractLsb']
    simp [h12]
  · rw [BitVec.getLsbD_append, if_neg h12]
    by_cases h44 : i - 12 < 32
    · rw [BitVec.getLsbD_append, if_pos h44, BitVec.getLsbD_extractLsb']
      simp only [h44, decide_true, Bool.true_and]
      exact congrArg x.getLsbD (by omega)
    · rw [BitVec.getLsbD_append, if_neg h44, BitVec.getLsbD_extractLsb']
      simp only [show i - 12 - 32 < 32 by omega, decide_true, Bool.true_and]
      exact congrArg x.getLsbD (by omega)

theorem pos_ne (n : Nat) : R.CAD_SRC_POS_HI n ≠ R.CAD_SRC_POS_LO n := by
  simp only [R.CAD_SRC_POS_HI, R.CAD_SRC_POS_LO]
  omega

section

variable (s : State) (n : Nat) (x : BitVec 76)

theorem State.setSrcX_lo : (s.setSrcX n x).rd (R.CAD_SRC_POS_LO n) = x.extractLsb' 12 32 := State.rd_wr_same _ _ _

theorem State.setSrcX_hi : (s.setSrcX n x).rd (R.CAD_SRC_POS_HI n) = x.extractLsb' 44 32 :=
  (State.rd_wr_ne _ _ _ _ (pos_ne n)).trans (State.rd_wr_same _ _ _)

theorem State.setSrcX_rd {off : Nat} (hh : off ≠ R.CAD_SRC_POS_HI n) (hl : off ≠ R.CAD_SRC_POS_LO n) : (s.setSrcX n x).rd off = s.rd off :=
  (State.rd_wr_ne _ _ _ _ hl).trans (State.rd_wr_ne _ _ _ _ hh)

theorem State.setSrcX_get {f : RF} {a : Nat} (hf : f.off = a + 0x40 * n) (hh : a ≠ 0x4011C) (hl : a ≠ 0x40118) : (s.setSrcX n x).get f = s.get f :=
  State.get_of_rd (s.setSrcX_rd n x (by simp only [hf, R.CAD_SRC_POS_HI]; omega) (by simp only [hf, R.CAD_SRC_POS_LO]; omega))

theorem State.setSrcX_cadSrc : (s.setSrcX n x).cadSrc n = { s.cadSrc n with low := x.extractLsb' 0 12 } := State.cadSrc_setCadSrc _ _ _

theorem State.srcX_setSrcX : (s.setSrcX n x).srcX n = x := by
  rw [State.srcX, State.setSrcX_hi, State.setSrcX_lo, State.setSrcX_cadSrc, append_parts]

end

theorem State.srcX_congr {s t : State} {n : Nat} (hh : t.rd (R.CAD_SRC_POS_HI n) = s.rd (R.CAD_SRC_POS_HI n))
    (hl : t.rd (R.CAD_SRC_POS_LO n) = s.rd (R.CAD_SRC_POS_LO n)) (hc : (t.cadSrc n).low = (s.cadSrc n).low) : t.srcX n = s.srcX n := by
  rw [State.srcX, hh, hl, hc, State.srcX]

/-- What a source holds in itself leaves its position, but for the lowest bits of it. -/
theorem State.srcX_setCadSrc (s : State) (n : Nat) {x : CadSrc} (h : x.low = (s.cadSrc n).low) : (s.setCadSrc n x).srcX n = s.srcX n :=
  State.srcX_congr rfl rfl (by rw [State.cadSrc_setCadSrc, h])

theorem State.srcX_hi (s : State) (n : Nat) : (s.srcX n).extractLsb' 44 32 = s.rd (R.CAD_SRC_POS_HI n) := append_hi _ _ _

theorem State.srcX_mid (s : State) (n : Nat) : (s.srcX n).extractLsb' 12 32 = s.rd (R.CAD_SRC_POS_LO n) := append_mid _ _ _

/-! ## A measurement -/

theorem State.srcX_put_ne (s : State) {f : RF} {n : Nat} (v : Nat) (hh : R.CAD_SRC_POS_HI n ≠ f.off) (hl : R.CAD_SRC_POS_LO n ≠ f.off) : (s.put f v).srcX n = s.srcX n :=
  State.srcX_congr (State.rd_put_ne _ _ _ _ hh) (State.rd_put_ne _ _ _ _ hl) (congrArg CadSrc.low (s.put_cadSrc f v n))

theorem State.srcX_raise (s : State) (id param n : Nat) : (s.raise id param).srcX n = s.srcX n := by
  have hpos {off : Nat} (h : 0x22000 ≤ off) : (s.raise id param).rd off = s.rd off := State.rd_of_sansEvent (s.raise_sansEvent id param) (eventReg_of_page h)
  exact State.srcX_congr (hpos (Nat.le_add_right_of_le (by decide))) (hpos (Nat.le_add_right_of_le (by decide))) (congrArg CadSrc.low (s.raise_cadSrc id param n))

section

variable (s : State) {n : Nat} (hn : n < 4)

include hn

/-- A field of the source beside its position. -/
theorem State.srcX_putField {f : RF} {a : Nat} (v : Nat) (hf : f.off = a + 0x40 * n) (hh : a ≠ 0x4011C) (hl : a ≠ 0x40118) : (s.put f v).srcX n = s.srcX n := by
  have _ := hn
  exact s.srcX_put_ne v (by simp only [hf, R.CAD_SRC_POS_HI]; omega) (by simp only [hf, R.CAD_SRC_POS_LO]; omega)

/-- A measurement is counted, in the source and in its status, before the tracks take it. -/
theorem State.measured_spec (stamp : Nat) :
    (s.measured n stamp).srcX n = s.srcX n ∧ (s.measured n stamp).rd (R.CAD_SRC_POS_LO n) = s.rd (R.CAD_SRC_POS_LO n) ∧
      (s.measured n stamp).rd (R.CAD_SRC_POS_HI n) = s.rd (R.CAD_SRC_POS_HI n) ∧
      ∃ p, (s.measured n stamp).cadSrc n = { s.cadSrc n with good := (s.cadSrc n).good + 1, bad := 0, m0 := (s.cadSrc n).m1, m1 := some p } := by
  unfold State.measured
  extract_lets x at0 at1 y u
  have hframe : u.Tracks ((List.range 8).foldl (fun s t => s.trkMeasure n t at1) u) := .foldl (fun v t ht => v.trkMeasure_tracks (List.mem_range.mp ht) n at1) u
  have hne : R.CAD_SRC_POS_LO n ≠ (F.CAD_SRC_STS_meas n).off ∧ R.CAD_SRC_POS_HI n ≠ (F.CAD_SRC_STS_meas n).off := by
    simp only [R.CAD_SRC_POS_LO, R.CAD_SRC_POS_HI, F.CAD_SRC_STS_meas, R.CAD_SRC_STS]
    omega
  refine ⟨?_, ?_, ?_, (s.srcX n, at1), ?_⟩
  · refine (State.Tracks.srcX hframe hn).trans ((State.srcX_putField _ hn (a := 0x4012C) _ rfl (by decide) (by decide)).trans ?_)
    exact s.srcX_setCadSrc n rfl
  · exact (State.Tracks.rd_src hframe hn (a := 0x40118) rfl (by decide) (by decide)).trans (State.rd_put_ne _ _ _ _ hne.1)
  · exact (State.Tracks.rd_src hframe hn (a := 0x4011C) rfl (by decide) (by decide)).trans (State.rd_put_ne _ _ _ _ hne.2)
  · exact (State.Tracks.cadSrc hframe n).trans ((State.put_cadSrc _ _ _ _).trans (State.cadSrc_setCadSrc s n y))

/-- A measurement that fails is counted, and touches the tracks alone. -/
theorem State.measureFailed_tracks : (s.setCadSrc n { s.cadSrc n with good := 0, bad := (s.cadSrc n).bad + 1 }).Tracks (s.measureFailed n) := by
  have _ := hn
  unfold State.measureFailed
  dsimp only
  refine .foldl (fun u t _ => ?_) _
  split
  · exact .ite (fun _ => .ite (fun _ => u.setTrk_tracks t _) fun _ => u.setTrk_tracks t _) fun _ => .refl _ _ _
  · exact .refl _ _ _

theorem State.measureFailed_spec :
    (s.measureFailed n).srcX n = s.srcX n ∧ (s.measureFailed n).cadSrc n = { s.cadSrc n with good := 0, bad := (s.cadSrc n).bad + 1 } ∧
      ∀ f : RF, f.off = R.CAD_SRC_STS n → (s.measureFailed n).get f = s.get f := by
  have hframe := s.measureFailed_tracks hn
  refine ⟨(State.Tracks.srcX hframe hn).trans (s.srcX_setCadSrc n rfl), (State.Tracks.cadSrc hframe n).trans (State.cadSrc_setCadSrc _ _ _), fun f hf => ?_⟩
  exact (State.Tracks.get_src hframe hn (a := 0x4012C) (hf.trans rfl) (by decide) (by decide)).trans (State.setCadSrc_get _ _ _ _)

/-! ## Edges and pulses -/

/-- What an edge is judged by. -/
def State.srcPlace (s : State) (n : Nat) : BitVec 76 × BitVec 2 × Nat := (s.srcX n, (s.cadSrc n).ab, (s.cadSrc n).good)

theorem State.srcPlace_putField {f : RF} {a : Nat} (v : Nat) (hf : f.off = a + 0x40 * n) (hh : a ≠ 0x4011C) (hl : a ≠ 0x40118) : (s.put f v).srcPlace n = s.srcPlace n := by
  rw [State.srcPlace, State.srcX_putField s hn v hf hh hl, State.put_cadSrc, State.srcPlace]

theorem State.srcPlace_setCadSrc {x : CadSrc} (hl : x.low = (s.cadSrc n).low) (ha : x.ab = (s.cadSrc n).ab) (hg : x.good = (s.cadSrc n).good) :
    (s.setCadSrc n x).srcPlace n = s.srcPlace n := by
  have _ := hn
  rw [State.srcPlace, s.srcX_setCadSrc n hl, State.cadSrc_setCadSrc, ha, hg, State.srcPlace]

theorem State.dirCheck_srcPlace (up : Bool) : (s.dirCheck n up).srcPlace n = s.srcPlace n := by
  unfold State.dirCheck
  extract_lets x run u
  have hu : u.srcPlace n = s.srcPlace n := s.srcPlace_setCadSrc hn rfl rfl rfl
  split
  · rfl
  · split
    · refine Eq.trans ?_ ((State.srcPlace_putField u hn (f := F.CAD_SRC_STS_dir_err n) (a := 0x4012C) 1 rfl (by decide) (by decide)).trans hu)
      rw [State.srcPlace, State.srcX_raise, State.raise_cadSrc, State.srcPlace]
    · exact hu

/-- An edge or a pulse moves the position by one period, in the direction that dir_inv names. -/
theorem State.digitalEdge_spec (up : Bool) (stamp : Nat) :
    (s.digitalEdge n up stamp).srcPlace n = (if up = true ↔ s.get (F.CAD_SRC_CTL_dir_inv n) = 0 then s.srcX n + BitVec.ofNat 76 (2 ^ 44)
      else s.srcX n - BitVec.ofNat 76 (2 ^ 44), (s.cadSrc n).ab, (s.cadSrc n).good + 1) := by
  unfold State.digitalEdge
  extract_lets dir a b x gap c d
  have hx : a.srcX n = if up = true ↔ s.get (F.CAD_SRC_CTL_dir_inv n) = 0 then s.srcX n + BitVec.ofNat 76 (2 ^ 44) else s.srcX n - BitVec.ofNat 76 (2 ^ 44) := by
    simp only [a, State.srcX_setSrcX]
    refine if_congr ?_ rfl rfl
    rcases s.get_bit (F.CAD_SRC_CTL_dir_inv n) rfl with h | h
    · simp [dir, h, State.on_of_zero h]
    · simp [dir, h, State.on_of_one h]
  have ha : a.srcPlace n = (a.srcX n, (s.cadSrc n).ab, (s.cadSrc n).good) := by rw [State.srcPlace, State.setSrcX_cadSrc]
  have hc : c.srcPlace n = b.srcPlace n := by
    simp only [c]
    split
    · rfl
    · exact State.srcPlace_putField b hn (a := 0x4012C) _ rfl (by decide) (by decide)
  have hd : d.srcPlace n = c.srcPlace n := by
    have hcb : c.cadSrc n = b.cadSrc n := by
      simp only [c]
      split
      · rfl
      · exact State.putB_cadSrc _ _ _ _
    have hxb : x = c.cadSrc n := hcb.symm
    exact c.srcPlace_setCadSrc hn (by rw [hxb]) (by rw [hxb]) (by rw [hxb])
  obtain ⟨hmx, _, _, p, hmc⟩ := State.measured_spec d hn stamp
  have hpd : d.srcPlace n = (a.srcX n, (s.cadSrc n).ab, (s.cadSrc n).good) := hd.trans (hc.trans ((State.dirCheck_srcPlace a hn dir).trans ha))
  rw [State.srcPlace, hmx, hmc, ← hx]
  obtain ⟨h1, h23⟩ := Prod.mk.inj hpd
  obtain ⟨h2, h3⟩ := Prod.mk.inj h23
  exact Prod.ext h1 (Prod.ext h2 (congrArg (· + 1) h3))

end

/-! ## A lost source -/

/-- One track leaves a source that is lost or stopped. -/
def State.trackLoses (s : State) (n : Nat) (lost : Bool) (t : Nat) : State :=
  let s := match (s.trkT t).shadow with
    | some o => if o.src = n then s.switchAbort t else s
    | none => s
  if s.get (F.CAD_TRK_CTL_src t) ≠ n ∨ s.trkState t = 0 then s
  else
    let s := if lost then s.put (F.CAD_TRK_STS_lost t) 1 else s
    match s.trkState t with
    | 1 => s.setTrk t { s.trkT t with obs := { (s.trkT t).obs with good := 0 } }
    | 2 => s.trkCoast t
    | _ => s

theorem State.tracksLose_eq (s : State) (n : Nat) (lost : Bool) : s.tracksLose n lost = (List.range 8).foldl (fun s t => s.trackLoses n lost t) s := rfl

theorem State.trackLoses_leaves (s : State) {k t : Nat} (hk : k ≤ 8) (ht : t < 8) (h : t ≠ k) (n : Nat) (lost : Bool) : s.Leaves k (s.trackLoses n lost t) := by
  unfold State.trackLoses
  extract_lets a b
  have ha : s.Leaves k a := by
    simp only [a]
    split
    · exact .ite (fun _ => s.switchAbort_leaves hk h) fun _ => .refl _ _ _
    · exact .refl _ _ _
  have hb : a.Leaves k b := .ite (fun _ => a.trkField_leaves h (a := 0x4042C) 1 rfl (by decide) (by decide)) fun _ => .refl _ _ _
  refine ha.trans (.ite (fun _ => .refl _ _ _) fun _ => hb.trans ?_)
  split
  · exact b.setTrk_leaves h _
  · exact (b.setTrkState_leaves ht h 3).trans (State.setTrk_leaves _ h _)
  · exact .refl _ _ _

theorem State.trackLoses_coast (s : State) {n k : Nat} (hk : k < 8) (lost : Bool) (hsrc : s.get (F.CAD_TRK_CTL_src k) = n) (h2 : s.trkState k = 2) :
    (s.trackLoses n lost k).trkState k = 3 ∧ (lost = true → (s.trackLoses n lost k).get (F.CAD_TRK_STS_lost k) = 1) := by
  unfold State.trackLoses
  extract_lets a b
  have ha : a.get (F.CAD_TRK_CTL_src k) = n ∧ a.trkState k = 2 := by
    simp only [a]
    split
    · split
      · exact ⟨(s.switchAbort_get k (trk_event hk (a := 0x40400) rfl (by decide)) (apart_base rfl rfl rfl) (apart_base rfl rfl rfl) (apart_base rfl rfl rfl)).trans hsrc,
          (s.switchAbort_get k (g := F.CAD_TRK_STS_state k) (trk_event hk (a := 0x4042C) rfl (by decide)) rfl (apart_base rfl rfl rfl) (apart_base rfl rfl rfl)).trans h2⟩
      · exact ⟨hsrc, h2⟩
    · exact ⟨hsrc, h2⟩
  have hb : b.trkState k = 2 ∧ (lost = true → b.get (F.CAD_TRK_STS_lost k) = 1) := by
    simp only [b]
    split
    · exact ⟨(State.get_put_apart a _ rfl).trans ha.2, fun _ => State.get_put_lit a rfl⟩
    · next hl => exact ⟨ha.2, fun h => absurd h hl⟩
  rw [if_neg (not_or.mpr ⟨not_not.mpr ha.1, by rw [ha.2]; decide⟩)]
  clear_value b
  rw [hb.1]
  exact ⟨(State.setTrk_get _ _ _ _).trans (b.setTrkState_state k (by decide)),
    fun hl => (State.setTrk_get _ _ _ _).trans ((b.setTrkState_get k (a := 0x4042C) 3 rfl (by decide) rfl).trans (hb.2 hl))⟩

/-- A track in TRACK on a source that goes coasts. -/
theorem State.tracksLose_coast (s : State) {n k : Nat} (hk : k < 8) (lost : Bool) (hsrc : s.get (F.CAD_TRK_CTL_src k) = n) (h2 : s.trkState k = 2) :
    (s.tracksLose n lost).trkState k = 3 ∧ (lost = true → (s.tracksLose n lost).get (F.CAD_TRK_STS_lost k) = 1) := by
  have hother (u : State) (t : Nat) (ht : t ∈ List.range 8) (h : t ≠ k) : u.Leaves k (u.trackLoses n lost t) :=
    u.trackLoses_leaves hk.le (List.mem_range.mp ht) h n lost
  obtain ⟨l, hl, heq⟩ := foldl_turn (f := fun s t => s.trackLoses n lost t) (fun u => (u.trkState k, u.get (F.CAD_TRK_STS_lost k))) (List.mem_range.mpr hk)
    List.nodup_range (fun u t ht h => Prod.ext (hother u t ht h).state ((hother u t ht h).own (f := F.CAD_TRK_STS_lost k) (a := 0x4042C) rfl (by decide) (by decide))) s
  have hbefore : s.Leaves k (l.foldl (fun s t => s.trackLoses n lost t) s) := .foldl (fun u t ht => hother u t (hl t ht).1 (hl t ht).2) s
  obtain ⟨h3, hlost⟩ := State.trackLoses_coast (l.foldl (fun s t => s.trackLoses n lost t) s) hk lost
    ((hbefore.own (f := F.CAD_TRK_CTL_src k) (a := 0x40400) rfl (by decide) (by decide)).trans hsrc) (hbefore.state.trans h2)
  obtain ⟨hstate, hreg⟩ := Prod.mk.inj heq
  rw [State.tracksLose_eq]
  exact ⟨hstate.trans h3, fun h => hreg.trans (hlost h)⟩

theorem cadSts_apart_src (n x : Nat) {g : RF} {a : Nat} (hg : g.off = a + 0x40 * n) (ha : 0x40004 < a) : (⟨R.CAD_STS, x, 1⟩ : RF).apart g = true := by
  refine apart_off ?_
  simp only [hg, R.CAD_STS]
  omega

section

variable (s : State) {n : Nat} (hn : n < 4) (v : Bool)

include hn

theorem State.setValid_get {g : RF} {a : Nat} (hg : g.off = a + 0x40 * n) (ha : 0x40004 < a) (h : (F.CAD_SRC_STS_valid n).apart g = true) :
    (s.setValid n v).get g = s.get g := by
  have _ := hn
  rw [State.setValid, State.get_putB_apart _ _ (cadSts_apart_src n _ hg ha), State.get_putB_apart _ _ h]

theorem State.setValid_srcValid : (s.setValid n v).srcValid n = v := by
  have _ := hn
  rw [State.srcValid, State.setValid, State.on, State.get_putB_apart _ _ (cadSts_apart_src n _ (a := 0x4012C) rfl (by decide)), State.get_putB _ _ rfl]
  cases v <;> rfl

theorem State.setValid_trk {k : Nat} {g : RF} {a : Nat} (hg : g.off = a + 0x80 * k) (ha : 0x40400 ≤ a) : (s.setValid n v).get g = s.get g := by
  rw [State.setValid, State.get_putB_apart _ _ (cadSts_apart_trk k _ hg (by omega)), State.get_putB_apart _ _ (apart_off ?_)]
  simp only [hg, F.CAD_SRC_STS_valid, R.CAD_SRC_STS]
  omega

theorem State.setValid_srcX : (s.setValid n v).srcX n = s.srcX n := by
  have hsts : R.CAD_SRC_POS_HI n ≠ R.CAD_STS ∧ R.CAD_SRC_POS_LO n ≠ R.CAD_STS := by
    simp only [R.CAD_SRC_POS_HI, R.CAD_SRC_POS_LO, R.CAD_STS]
    omega
  exact (State.srcX_put_ne _ _ hsts.1 hsts.2).trans (State.srcX_putField s hn _ (a := 0x4012C) rfl (by decide) (by decide))

end

section

variable (s : State) {n : Nat} (hn : n < 4)

include hn

/-- A source lost shows it, and the tracks that follow it coast. -/
theorem State.sourceLost_spec : (s.sourceLost n).srcX n = s.srcX n ∧ ((s.sourceLost n).cadSrc n).ab = (s.cadSrc n).ab ∧ (s.sourceLost n).srcValid n = false ∧
    (s.sourceLost n).get (F.CAD_SRC_STS_lost n) = 1 ∧ (s.sourceLost n).get (F.CAD_SRC_STS_illegal n) = s.get (F.CAD_SRC_STS_illegal n) ∧
    (s.sourceLost n).logged 0x0502 n ∧ (∃ l, (s.sourceLost n).log = s.log ++ l) ∧
    ∀ k < 8, s.get (F.CAD_TRK_CTL_src k) = n → s.trkState k = 2 →
      (s.sourceLost n).trkState k = 3 ∧ (s.sourceLost n).get (F.CAD_TRK_STS_lost k) = 1 := by
  unfold State.sourceLost
  extract_lets u y v
  have hx : v.srcX n = s.srcX n :=
    (u.srcX_setCadSrc n (x := { y with good := 0, m0 := none, m1 := none }) rfl).trans ((State.srcX_putField _ hn (a := 0x4012C) _ rfl (by decide) (by decide)).trans (s.setValid_srcX hn false))
  have hvalid : v.srcValid n = false := by
    have hget : v.get (F.CAD_SRC_STS_valid n) = (s.setValid n false).get (F.CAD_SRC_STS_valid n) := (State.setCadSrc_get _ _ _ _).trans (State.get_put_apart _ _ rfl)
    rw [State.srcValid, State.on, hget]
    exact s.setValid_srcValid hn false
  have hlost : v.get (F.CAD_SRC_STS_lost n) = 1 := (State.setCadSrc_get _ _ _ _).trans (State.get_put_lit _ rfl)
  have hill : v.get (F.CAD_SRC_STS_illegal n) = s.get (F.CAD_SRC_STS_illegal n) :=
    (State.setCadSrc_get _ _ _ _).trans ((State.get_put_apart _ _ rfl).trans (s.setValid_get hn false (a := 0x4012C) rfl (by decide) rfl))
  have hcad : u.cadSrc n = s.cadSrc n := by simp only [u, State.setValid, State.put_cadSrc, State.putB_cadSrc]
  have hown : (v.cadSrc n).ab = (u.cadSrc n).ab := by simp only [v, State.cadSrc_setCadSrc, y]
  have hab : (v.cadSrc n).ab = (s.cadSrc n).ab := hown.trans (congrArg CadSrc.ab hcad)
  have htrk {g : RF} {a k : Nat} (hg : g.off = a + 0x80 * k) (ha : 0x40400 ≤ a) : v.get g = s.get g := by
    refine (State.setCadSrc_get _ _ _ _).trans ((State.get_put_apart _ _ (apart_off ?_)).trans (s.setValid_trk hn false hg ha))
    simp only [hg, F.CAD_SRC_STS_lost, R.CAD_SRC_STS]
    omega
  have hlog : v.log = s.log := by
    simp only [v, State.setCadSrc, u, State.setValid, State.putB, State.put_log]
  clear_value v
  have hframe := v.tracksLose_tracks n true
  have hsts {f : RF} (hf : f.off = R.CAD_SRC_STS n) : ((v.tracksLose n true).raise 0x0502 n).get f = v.get f :=
    (State.raise_getKept _ _ _ (eventReg_of_page (hf ▸ Nat.le_add_right_of_le (by decide)))).trans
      (State.Tracks.get_src hframe hn (a := 0x4012C) (hf.trans rfl) (by decide) (by decide))
  refine ⟨?_, ?_, ?_, (hsts rfl).trans hlost, (hsts rfl).trans hill, State.raise_logged _ _ _, ?_, fun k hk hsrc h2 => ?_⟩
  · rw [State.srcX_raise, State.Tracks.srcX hframe hn, hx]
  · rw [State.raise_cadSrc, State.Tracks.cadSrc hframe, hab]
  · rw [State.srcValid, State.on, hsts rfl]
    exact hvalid
  · obtain ⟨l, hl⟩ := hframe.log
    exact ⟨_, by rw [State.raise_log, hl, hlog, List.append_assoc]⟩
  · obtain ⟨h3, h1⟩ := v.tracksLose_coast hk true ((htrk (g := F.CAD_TRK_CTL_src k) (a := 0x40400) rfl (by decide)).trans hsrc)
      ((htrk (g := F.CAD_TRK_STS_state k) (a := 0x4042C) rfl (by decide)).trans h2)
    have hev : eventReg (R.CAD_TRK_STS k) = false := trk_event hk (a := 0x4042C) rfl (by decide)
    exact ⟨(State.raise_getKept (f := F.CAD_TRK_STS_state k) _ _ _ hev).trans h3, (State.raise_getKept (f := F.CAD_TRK_STS_lost k) _ _ _ hev).trans (h1 rfl)⟩

end

end Sys2Proof.Machine
end

section
/-! SUPPORT. O22: the quadrature, index, vector and mains measurements of a source, and its enabling (R191 to R199, R211, R219). -/

namespace Sys2Proof.Machine

/-! ## Quadrature and pulses -/

theorem quadPlace_lt : ∀ x : BitVec 2, quadPlace x < 4 := by decide

theorem quadPlace_inj : ∀ x y : BitVec 2, quadPlace x = quadPlace y → x = y := by decide

theorem levels_eq (a b : Bool) : BitVec.ofNat 2 ((if a then 1 else 0) + (if b then 2 else 0)) = BitVec.ofNat 2 (a.toNat + 2 * b.toNat) := by
  cases a <;> cases b <;> rfl

/-- The next position of a source in a direction. -/
def State.srcNext (s : State) (n : Nat) (up : Bool) : BitVec 76 :=
  if up = true ↔ s.get (F.CAD_SRC_CTL_dir_inv n) = 0 then s.srcX n + BitVec.ofNat 76 (2 ^ 44) else s.srcX n - BitVec.ofNat 76 (2 ^ 44)

/-- The step from the levels of a source to others. -/
def State.quadStep (s : State) (n : Nat) (ab : BitVec 2) : Nat := (quadPlace ab + 4 - quadPlace (s.cadSrc n).ab) % 4

theorem State.quadIllegal_spec (s : State) {n : Nat} (hn : n < 4) {u : State} (hu : u = if s.srcValid n then s.sourceLost n else s) :
    u.srcX n = s.srcX n ∧ (u.cadSrc n).ab = (s.cadSrc n).ab ∧ u.get (F.CAD_SRC_STS_illegal n) = s.get (F.CAD_SRC_STS_illegal n) ∧ u.srcValid n = false ∧
      ∃ l, u.log = s.log ++ l := by
  rw [hu]
  cases hv : s.srcValid n
  · exact ⟨rfl, rfl, rfl, hv, [], (List.append_nil _).symm⟩
  · obtain ⟨hx, hab, hval, _, hill, _, hlog, _⟩ := s.sourceLost_spec hn
    exact ⟨hx, hab, hill, hval, hlog⟩

theorem completes_quadEdge (n : Fin 4) (a b : Bool) (stamp : BitVec 64) (s : State) (h0 : s.srcIs n 0 = true) (hq : s.qeiLost n = false) :
    Completes (.quadEdge n a b stamp) s (fun t =>
      (t.cadSrc n).ab = BitVec.ofNat 2 (a.toNat + 2 * b.toNat) ∧
      (s.quadStep n (BitVec.ofNat 2 (a.toNat + 2 * b.toNat)) = 0 ∨ s.quadStep n (BitVec.ofNat 2 (a.toNat + 2 * b.toNat)) = 2 → t.srcX n = s.srcX n) ∧
      (s.quadStep n (BitVec.ofNat 2 (a.toNat + 2 * b.toNat)) = 1 → t.srcX n = s.srcNext n true) ∧
      (s.quadStep n (BitVec.ofNat 2 (a.toNat + 2 * b.toNat)) = 3 → t.srcX n = s.srcNext n false) ∧
      (s.quadStep n (BitVec.ofNat 2 (a.toNat + 2 * b.toNat)) = 2 → t.get (F.CAD_SRC_STS_illegal n) = 1 ∧ t.srcValid n = false ∧ t.logged 0x050B n)) := by
  show ∃ t, execQuadEdge n a b stamp s = .next t ∧ _
  unfold execQuadEdge
  rw [if_neg (by simp [h0, hq])]
  dsimp only
  rw [levels_eq]
  generalize hab : BitVec.ofNat 2 (a.toNat + 2 * b.toNat) = ab
  have hlt : s.quadStep n ab < 4 := Nat.mod_lt _ (by decide)
  have hplace : (s.setCadSrc n { s.cadSrc n with ab := ab }).srcX n = s.srcX n := s.srcX_setCadSrc n rfl
  have hown : ((s.setCadSrc n { s.cadSrc n with ab := ab }).cadSrc n).ab = ab := by rw [State.cadSrc_setCadSrc]
  have hedge (up : Bool) := (s.setCadSrc n { s.cadSrc n with ab := ab }).digitalEdge_spec n.isLt up stamp.toNat
  rw [hplace, hown] at hedge
  simp only [State.quadStep] at hlt ⊢
  generalize hk : (quadPlace ab + 4 - quadPlace (s.cadSrc n).ab) % 4 = k at hlt ⊢
  rcases (by omega : k = 0 ∨ k = 1 ∨ k = 2 ∨ k = 3) with rfl | rfl | rfl | rfl
  · have hsame : (s.cadSrc n).ab = ab := by
      refine quadPlace_inj _ _ ?_
      have h1 := quadPlace_lt ab
      have h2 := quadPlace_lt (s.cadSrc n).ab
      omega
    exact ⟨_, rfl, hsame, fun _ => rfl, by simp, by simp, by simp⟩
  · obtain ⟨hx, hrest⟩ := Prod.mk.inj (hedge true)
    obtain ⟨hkept, _⟩ := Prod.mk.inj hrest
    exact ⟨_, rfl, hkept, by simp, fun _ => hx, by simp, by simp⟩
  · refine ⟨_, rfl, ?_⟩
    have hx2 : (((s.setCadSrc n { s.cadSrc n with ab := ab }).put (F.CAD_SRC_STS_illegal n) 1).raise 0x050B n).srcX n = s.srcX n :=
      (State.srcX_raise _ _ _ _).trans ((State.srcX_putField _ n.isLt (a := 0x4012C) _ rfl (by decide) (by decide)).trans hplace)
    have hab2 : ((((s.setCadSrc n { s.cadSrc n with ab := ab }).put (F.CAD_SRC_STS_illegal n) 1).raise 0x050B n).cadSrc n).ab = ab := by
      rw [State.raise_cadSrc, State.put_cadSrc, hown]
    have hill : (((s.setCadSrc n { s.cadSrc n with ab := ab }).put (F.CAD_SRC_STS_illegal n) 1).raise 0x050B n).get (F.CAD_SRC_STS_illegal n) = 1 :=
      (State.raise_getKept _ _ _ (eventReg_of_page (Nat.le_add_right_of_le (by decide)))).trans (State.get_put_lit _ rfl)
    have hlogged : (((s.setCadSrc n { s.cadSrc n with ab := ab }).put (F.CAD_SRC_STS_illegal n) 1).raise 0x050B n).logged 0x050B n := State.raise_logged _ _ _
    generalize ((s.setCadSrc n { s.cadSrc n with ab := ab }).put (F.CAD_SRC_STS_illegal n) 1).raise 0x050B n = v at hx2 hab2 hill hlogged ⊢
    obtain ⟨gx, gab, gill, gval, l, glog⟩ := v.quadIllegal_spec n.isLt rfl
    exact ⟨gab.trans hab2, fun _ => gx.trans hx2, by simp, by simp, fun _ => ⟨gill.trans hill, gval, State.logged_mono glog hlogged⟩⟩
  · obtain ⟨hx, hrest⟩ := Prod.mk.inj (hedge false)
    obtain ⟨hkept, _⟩ := Prod.mk.inj hrest
    exact ⟨_, rfl, hkept, by simp, by simp, fun _ => hx, by simp⟩

theorem completes_pulseEdge (n : Fin 4) (stamp : BitVec 64) (s : State) (h4 : s.srcIs n 4 = true) (hq : s.qeiLost n = false) :
    Completes (.pulseEdge n stamp) s (fun t => t.srcX n = s.srcNext n true ∧ (t.cadSrc n).good = (s.cadSrc n).good + 1) := by
  refine ⟨_, rfl, ?_⟩
  rw [if_pos (by simp [h4, hq])]
  obtain ⟨hx, hrest⟩ := Prod.mk.inj (s.digitalEdge_spec n.isLt true stamp.toNat)
  exact ⟨hx, (Prod.mk.inj hrest).2⟩

theorem completes_edgesLost (n : Fin 4) (a b : Bool) (stamp : BitVec 64) (s : State) (hq : s.qeiLost n = true) :
    Completes (.quadEdge n a b stamp) s (fun t => t = s) ∧ Completes (.pulseEdge n stamp) s (fun t => t = s) ∧ Completes (.indexEdge n) s (fun t => t = s) := by
  refine ⟨⟨s, ?_, rfl⟩, ⟨_, rfl, ?_⟩, ⟨s, ?_, rfl⟩⟩
  · exact if_pos (by simp [hq])
  · exact if_neg (by simp [hq])
  · exact if_pos (by simp [hq])

/-! ## The index -/

theorem extract_home (h : BitVec 32) (x : BitVec 76) : (h ++ x.extractLsb' 0 44).extractLsb' 44 32 = h ∧
    (h ++ x.extractLsb' 0 44).extractLsb' 12 32 = x.extractLsb' 12 32 := by
  constructor
  · refine BitVec.eq_of_getLsbD_eq fun i hi => ?_
    rw [BitVec.getLsbD_extractLsb', BitVec.getLsbD_append, if_neg (by omega)]
    simp only [hi, decide_true, Bool.true_and]
    exact congrArg h.getLsbD (by omega)
  · refine BitVec.eq_of_getLsbD_eq fun i hi => ?_
    rw [BitVec.getLsbD_extractLsb', BitVec.getLsbD_append, if_pos (by omega), BitVec.getLsbD_extractLsb', BitVec.getLsbD_extractLsb']
    simp only [hi, decide_true, Bool.true_and, show 12 + i < 44 by omega, Nat.zero_add]

theorem completes_indexEdge_homes (n : Fin 4) (s : State) (hen : s.get (F.CAD_SRC_CTL_enable n) = 1) (hz : s.get (F.CAD_SRC_CTL_z_en n) = 1)
    (hd : s.srcDigital n = true) (hq : s.qeiLost n = false) (hhome : s.get (F.CAD_SRC_CTL_z_home n) = 1) (hnot : s.get (F.CAD_SRC_STS_homed n) = 0) :
    Completes (.indexEdge n) s (fun t => t.rd (R.CAD_SRC_ZCAP n) = s.rd (R.CAD_SRC_POS_HI n) ∧ t.rd (R.CAD_SRC_POS_HI n) = s.rd (R.CAD_SRC_ZHOME n) ∧
      t.rd (R.CAD_SRC_POS_LO n) = s.rd (R.CAD_SRC_POS_LO n) ∧ t.get (F.CAD_SRC_STS_homed n) = 1 ∧ t.logged 0x0508 n) := by
  show ∃ t, execIndexEdge n s = .next t ∧ _
  unfold execIndexEdge
  rw [if_neg (by simp [State.on_of_one hen, State.on_of_one hz, hd, hq])]
  extract_lets old hi x a home b moved y c d
  have hcap {f : RF} {k : Nat} (hf : f.off = k + 0x40 * n.val) (hk : k ≠ 0x40124) : a.get f = s.get f :=
    State.get_wr_ne _ _ (by simp only [hf, R.CAD_SRC_ZCAP]; omega)
  rw [if_pos (by
    rw [State.on_of_one ((hcap (f := F.CAD_SRC_CTL_z_home n) (k := 0x40100) rfl (by decide)).trans hhome),
      State.on_of_zero ((hcap (f := F.CAD_SRC_STS_homed n) (k := 0x4012C) rfl (by decide)).trans hnot)]
    exact ⟨rfl, rfl⟩)]
  refine ⟨_, rfl, ?_⟩
  have hsts {off : Nat} (h : off ≠ R.CAD_SRC_STS n) : c.rd off = b.rd off := (State.setCadSrc_rd _ _ _ _).trans (State.rd_put_ne _ _ _ _ h)
  have hne : R.CAD_SRC_ZCAP n ≠ R.CAD_SRC_POS_HI n ∧ R.CAD_SRC_ZCAP n ≠ R.CAD_SRC_POS_LO n ∧ R.CAD_SRC_ZCAP n ≠ R.CAD_SRC_STS n ∧
      R.CAD_SRC_POS_HI n ≠ R.CAD_SRC_STS n ∧ R.CAD_SRC_POS_LO n ≠ R.CAD_SRC_STS n ∧ R.CAD_SRC_ZHOME n ≠ R.CAD_SRC_ZCAP n := by
    simp only [R.CAD_SRC_ZCAP, R.CAD_SRC_POS_HI, R.CAD_SRC_POS_LO, R.CAD_SRC_STS, R.CAD_SRC_ZHOME]
    omega
  obtain ⟨hzh, hzl, hzs, hhs, hls, hhz⟩ := hne
  have hzcap : c.rd (R.CAD_SRC_ZCAP n) = s.rd (R.CAD_SRC_POS_HI n) :=
    (hsts hzs).trans ((State.setSrcX_rd a n _ hzh hzl).trans ((State.rd_wr_same _ _ _).trans (s.srcX_hi n)))
  have hphi : c.rd (R.CAD_SRC_POS_HI n) = s.rd (R.CAD_SRC_ZHOME n) := by
    refine (hsts hhs).trans ((State.setSrcX_hi _ _ _).trans ((extract_home _ _).1.trans ?_))
    exact State.rd_wr_ne _ _ _ _ hhz
  have hplo : c.rd (R.CAD_SRC_POS_LO n) = s.rd (R.CAD_SRC_POS_LO n) :=
    (hsts hls).trans ((State.setSrcX_lo _ _ _).trans ((extract_home _ _).2.trans (s.srcX_mid n)))
  have hhomed : c.get (F.CAD_SRC_STS_homed n) = 1 := (State.setCadSrc_get _ _ _ _).trans (State.get_put_lit _ rfl)
  clear_value c
  have hframe := c.homeTracks_tracks n old
  have hrd {off : Nat} {k : Nat} (ho : off = k + 0x40 * n.val) (hk : 0x40100 ≤ k) (hb : k < 0x40140) : ((c.homeTracks n old).raise 0x0508 n).rd off = c.rd off :=
    (State.rd_of_sansEvent (State.raise_sansEvent _ _ _) (eventReg_of_page (by omega))).trans (State.Tracks.rd_src hframe n.isLt ho hk hb)
  exact ⟨(hrd (k := 0x40124) rfl (by decide) (by decide)).trans hzcap, (hrd (k := 0x4011C) rfl (by decide) (by decide)).trans hphi,
    (hrd (k := 0x40118) rfl (by decide) (by decide)).trans hplo,
    (State.get_of_rd (f := F.CAD_SRC_STS_homed n) (hrd (k := 0x4012C) rfl (by decide) (by decide))).trans hhomed, State.raise_logged _ _ _⟩

theorem completes_indexEdge_stays (n : Fin 4) (s : State) (hen : s.get (F.CAD_SRC_CTL_enable n) = 1) (hz : s.get (F.CAD_SRC_CTL_z_en n) = 1)
    (hd : s.srcDigital n = true) (hq : s.qeiLost n = false) (hno : s.get (F.CAD_SRC_CTL_z_home n) = 0 ∨ s.get (F.CAD_SRC_STS_homed n) = 1) :
    Completes (.indexEdge n) s (fun t => t.rd (R.CAD_SRC_ZCAP n) = s.rd (R.CAD_SRC_POS_HI n) ∧ t.srcX n = s.srcX n ∧
      (t.cadSrc n).zLast = some (s.rd (R.CAD_SRC_POS_HI n))) := by
  show ∃ t, execIndexEdge n s = .next t ∧ _
  unfold execIndexEdge
  rw [if_neg (by simp [State.on_of_one hen, State.on_of_one hz, hd, hq])]
  extract_lets old hi x a home b moved y c d per
  have hcap {f : RF} {k : Nat} (hf : f.off = k + 0x40 * n.val) (hk : k ≠ 0x40124) : a.get f = s.get f :=
    State.get_wr_ne _ _ (by simp only [hf, R.CAD_SRC_ZCAP]; omega)
  rw [if_neg (by
    rcases hno with h | h
    · rw [State.on_of_zero ((hcap (f := F.CAD_SRC_CTL_z_home n) (k := 0x40100) rfl (by decide)).trans h)]
      simp
    · rw [State.on_of_one ((hcap (f := F.CAD_SRC_STS_homed n) (k := 0x4012C) rfl (by decide)).trans h)]
      simp)]
  have hne : R.CAD_SRC_POS_HI n ≠ R.CAD_SRC_ZCAP n ∧ R.CAD_SRC_POS_LO n ≠ R.CAD_SRC_ZCAP n ∧ R.CAD_SRC_ZCAP n ≠ R.CAD_SRC_STS n := by
    simp only [R.CAD_SRC_ZCAP, R.CAD_SRC_POS_HI, R.CAD_SRC_POS_LO, R.CAD_SRC_STS]
    omega
  have hax : a.srcX n = s.srcX n := State.srcX_congr (State.rd_wr_ne _ _ _ _ hne.1) (State.rd_wr_ne _ _ _ _ hne.2.1) (congrArg CadSrc.low (s.wr_cadSrc _ _ _))
  have hlow : x.low = (a.cadSrc n).low := congrArg CadSrc.low (s.wr_cadSrc (R.CAD_SRC_ZCAP n) hi n).symm
  have hdx : d.srcX n = s.srcX n := (a.srcX_setCadSrc n (x := { x with zLast := some hi }) hlow).trans hax
  have hdz : d.rd (R.CAD_SRC_ZCAP n) = s.rd (R.CAD_SRC_POS_HI n) := (State.setCadSrc_rd _ _ _ _).trans ((State.rd_wr_same _ _ _).trans (s.srcX_hi n))
  have hdl : (d.cadSrc n).zLast = some (s.rd (R.CAD_SRC_POS_HI n)) := by
    rw [← s.srcX_hi n]
    simp only [d, State.cadSrc_setCadSrc, hi, old]
  clear_value d
  have herr : ((d.put (F.CAD_SRC_STS_z_err n) 1).raise 0x050A n).rd (R.CAD_SRC_ZCAP n) = s.rd (R.CAD_SRC_POS_HI n) ∧
      ((d.put (F.CAD_SRC_STS_z_err n) 1).raise 0x050A n).srcX n = s.srcX n ∧
      (((d.put (F.CAD_SRC_STS_z_err n) 1).raise 0x050A n).cadSrc n).zLast = some (s.rd (R.CAD_SRC_POS_HI n)) := by
    refine ⟨?_, ?_, ?_⟩
    · exact (State.rd_of_sansEvent (State.raise_sansEvent _ _ _) (eventReg_of_page (Nat.le_add_right_of_le (by decide)))).trans ((State.rd_put_ne _ _ _ _ hne.2.2).trans hdz)
    · exact (State.srcX_raise _ _ _ _).trans ((State.srcX_putField d n.isLt (a := 0x4012C) _ rfl (by decide) (by decide)).trans hdx)
    · rw [State.raise_cadSrc, State.put_cadSrc, hdl]
  cases x.zLast with
  | none => exact ⟨_, rfl, hdz, hdx, hdl⟩
  | some z =>
    refine ⟨_, rfl, ?_⟩
    generalize (if per ≤ (hi - z).toInt.natAbs then (hi - z).toInt.natAbs - per else per - (hi - z).toInt.natAbs) = away
    split
    · exact herr
    · exact ⟨hdz, hdx, hdl⟩

/-! ## Vectors -/

/-- How far a fraction lies from the last one. -/
def fracJump (o : Option (BitVec 32)) (frac : BitVec 32) : Nat :=
  match o with
  | none => 0
  | some f => (frac - f).toInt.natAbs

theorem State.unwrapX_lo (s : State) (n : Nat) (frac : BitVec 32) : (s.unwrapX n frac).rd (R.CAD_SRC_POS_LO n) = frac :=
  (State.setSrcX_lo _ _ _).trans (append_mid _ _ _)

theorem State.unwrapX_cadSrc (s : State) (n : Nat) (frac : BitVec 32) : ∃ l, (s.unwrapX n frac).cadSrc n = { s.cadSrc n with low := l } :=
  ⟨_, State.setSrcX_cadSrc _ _ _⟩

/-- A vector that is refused shows the bit of its reason, and counts as a failed measurement. -/
theorem State.vectorFails_spec (s : State) {n : Nat} (hn : n < 4) {f : RF} (hf : f.off = R.CAD_SRC_STS n) (h1 : (f.whole && decide (1 < 2 ^ f.w)) = true) :
    (((s.put f 1).raise 0x050C n).measureFailed n).srcX n = s.srcX n ∧ (((s.put f 1).raise 0x050C n).measureFailed n).get f = 1 ∧
      (((s.put f 1).raise 0x050C n).measureFailed n).logged 0x050C n ∧ ((((s.put f 1).raise 0x050C n).measureFailed n).cadSrc n).bad = (s.cadSrc n).bad + 1 := by
  have hx : ((s.put f 1).raise 0x050C n).srcX n = s.srcX n :=
    (State.srcX_raise _ _ _ _).trans (s.srcX_putField hn (a := 0x4012C) 1 (hf.trans rfl) (by decide) (by decide))
  have hone : ((s.put f 1).raise 0x050C n).get f = 1 :=
    (State.raise_getKept _ _ _ (eventReg_of_page (hf ▸ Nat.le_add_right_of_le (by decide)))).trans (State.get_put_lit s h1)
  have hbad : ((s.put f 1).raise 0x050C n).cadSrc n = s.cadSrc n := (State.raise_cadSrc _ _ _ _).trans (State.put_cadSrc _ _ _ _)
  have hlogged : ((s.put f 1).raise 0x050C n).logged 0x050C n := State.raise_logged _ _ _
  generalize (s.put f 1).raise 0x050C n = u at hx hone hbad hlogged ⊢
  obtain ⟨hmx, hmc, hmf⟩ := u.measureFailed_spec hn
  obtain ⟨l, hl⟩ := (u.measureFailed_tracks hn).log
  exact ⟨hmx.trans hx, (hmf f hf).trans hone, State.logged_mono (hl.trans (congrArg (· ++ l) (State.setCadSrc_log _ _ _))) hlogged, by rw [hmc, hbad]⟩

/-- A vector outside the limits of its amplitude fails, and so does one a quarter of a turn or more from the last; any other is the new fraction. -/
theorem State.vectorMeasure_spec (s : State) {n : Nat} (hn : n < 4) (num den : Nat) (frac : BitVec 32) (stamp : Nat) :
    if num < (256 * s.get (F.CAD_SRC_LOSS_lo n)) ^ 2 * den ∨ (256 * s.get (F.CAD_SRC_LOSS_hi n)) ^ 2 * den < num then
      (s.vectorMeasure n num den frac stamp).srcX n = s.srcX n ∧ (s.vectorMeasure n num den frac stamp).get (F.CAD_SRC_STS_amp_fault n) = 1 ∧
        (s.vectorMeasure n num den frac stamp).logged 0x050C n ∧ ((s.vectorMeasure n num den frac stamp).cadSrc n).bad = (s.cadSrc n).bad + 1
    else if 2 ^ 30 ≤ fracJump (s.cadSrc n).frac frac then
      (s.vectorMeasure n num den frac stamp).srcX n = s.srcX n ∧ (s.vectorMeasure n num den frac stamp).get (F.CAD_SRC_STS_unwrap n) = 1 ∧
        (s.vectorMeasure n num den frac stamp).logged 0x050C n
    else (s.vectorMeasure n num den frac stamp).rd (R.CAD_SRC_POS_LO n) = frac ∧ ((s.vectorMeasure n num den frac stamp).cadSrc n).frac = some frac ∧
      ((s.vectorMeasure n num den frac stamp).cadSrc n).good = (s.cadSrc n).good + 1 := by
  unfold State.vectorMeasure
  extract_lets lo hi x jump u
  rw [pow_two, pow_two]
  have hux : u.srcX n = s.srcX n := s.srcX_setCadSrc n rfl
  have huc : u.cadSrc n = { x with frac := some frac } := State.cadSrc_setCadSrc _ _ _
  have hjump : fracJump (s.cadSrc n).frac frac = jump := rfl
  clear_value u
  by_cases hamp : num < lo * lo * den ∨ hi * hi * den < num
  · rw [if_pos hamp, if_pos hamp]
    exact s.vectorFails_spec hn rfl rfl
  · rw [if_neg hamp, if_neg hamp, hjump]
    by_cases hj : 2 ^ 30 ≤ jump
    · rw [if_pos hj, if_pos hj]
      obtain ⟨hfx, hff, hfl, _⟩ := u.vectorFails_spec hn (f := F.CAD_SRC_STS_unwrap n) rfl rfl
      exact ⟨hfx.trans hux, hff, hfl⟩
    · rw [if_neg hj, if_neg hj]
      obtain ⟨_, hlo, _, p, hc⟩ := State.measured_spec (u.unwrapX n frac) hn stamp
      obtain ⟨l, hl⟩ := u.unwrapX_cadSrc n frac
      rw [hl, huc] at hc
      exact ⟨hlo.trans (u.unwrapX_lo n frac), by rw [hc], by rw [hc]⟩

theorem State.srcIs_unique {s : State} {n a b : Nat} (h : s.srcIs n a = true) (hab : a ≠ b) : s.srcIs n b = false := by
  unfold State.srcIs at *
  obtain ⟨_, ht⟩ := Bool.and_eq_true_iff.mp h
  rw [eq_of_beq ht, beq_eq_false_iff_ne.mpr hab, Bool.and_false]

/-- What a vector source takes of the two levels: amplitude, its unit, and angle. -/
theorem exec_analogMeasurement (n : Fin 4) (a b : BitVec 16) (neg : Bool) (stamp : BitVec 64) (type : Nat) (s : State) (h : s.srcIs n type = true)
    (ht : type = 1 ∨ type = 2 ∨ (type = 3 ∧ s.get (F.CAD_SRC_ANA_b_en n) = 1)) :
    ∃ (u v : Int), u = (if type = 2 ∧ neg = true then -1 else 1) * s.levelA n a ∧ v = (if type = 2 ∧ neg = true then -1 else 1) * s.levelB n b ∧
      execAnalogMeasurement n a b neg stamp s =
        .next (s.vectorMeasure n (if type = 3 then (4 * (u * u + u * v + v * v)).natAbs else (u * u + v * v).natAbs) (if type = 3 then 9 else 1)
          (if type = 3 then mainsAngle u v else vectorAngle v u) stamp.toNat) := by
  refine ⟨_, _, rfl, rfl, ?_⟩
  unfold execAnalogMeasurement
  rcases ht with rfl | rfl | ⟨rfl, hb⟩
  · simp [h]
  · rw [if_neg (by simp [State.srcIs_unique h]), if_pos h]
    cases neg <;> simp
  · rw [if_neg (by simp [State.srcIs_unique h]), if_neg (by simp [State.srcIs_unique h]), if_pos ⟨h, State.on_of_one hb⟩]
    simp

end Sys2Proof.Machine
end

section
/-! SUPPORT. O22: single-phase mains, and the enabling and the return of a source (R191, R193, R199, R211, R219). -/

namespace Sys2Proof.Machine

/-! ## Single-phase mains -/

/-- A sample kept for the next one. -/
def State.keepSample (s : State) (n : Nat) (v : Int) (stamp : Int) : State := s.setCadSrc n { s.cadSrc n with sample := some (v, stamp) }

section

variable (s : State) (n : Nat) (v stamp : Int)

theorem State.keepSample_rd (off : Nat) : (s.keepSample n v stamp).rd off = s.rd off := State.setCadSrc_rd _ _ _ _

theorem State.keepSample_srcX : (s.keepSample n v stamp).srcX n = s.srcX n := s.srcX_setCadSrc n rfl

theorem State.keepSample_bad : ((s.keepSample n v stamp).cadSrc n).bad = (s.cadSrc n).bad := by
  rw [State.keepSample, State.cadSrc_setCadSrc]

theorem State.keepSample_good : ((s.keepSample n v stamp).cadSrc n).good = (s.cadSrc n).good := by
  rw [State.keepSample, State.cadSrc_setCadSrc]

theorem State.keepSample_sample : ((s.keepSample n v stamp).cadSrc n).sample = some (v, stamp) := congrArg CadSrc.sample (State.cadSrc_setCadSrc _ _ _)

end

theorem State.sampleExempt_spec (s : State) {n : Nat} (hn : n < 4) (frac : BitVec 32) (stamp : Nat) :
    ((s.sampleExempt n frac stamp).cadSrc n).bad = (s.cadSrc n).bad ∧ ((s.sampleExempt n frac stamp).cadSrc n).good = (s.cadSrc n).good ∧
      (s.sampleExempt n frac stamp).rd (R.CAD_SRC_POS_LO n) = frac := by
  obtain ⟨_, hlo, _⟩ := State.measured_spec (s.unwrapX n frac) hn stamp
  unfold State.sampleExempt
  extract_lets c t
  refine ⟨?_, ?_, (State.setCadSrc_rd _ _ _ _).trans (hlo.trans (s.unwrapX_lo n frac))⟩
  · rw [State.cadSrc_setCadSrc]
  · rw [State.cadSrc_setCadSrc]

theorem completes_mainsPredicted (n : Fin 4) (code : BitVec 16) (stamp : BitVec 64) (k : Nat) (s : State) (h3 : s.srcIs n 3 = true)
    (hb : s.get (F.CAD_SRC_ANA_b_en n) = 0)
    (hk : (List.range 8).find? (fun k => s.get (F.CAD_TRK_CTL_src k) = n.val ∧ 2 ≤ s.trkState k) = some k) :
    Completes (.mainsSingleSample n code stamp) s (fun t =>
      if (Config.mainsPredicted n (s.angleAt k stamp.toNat)).natAbs < 256 * s.get (F.CAD_SRC_LOSS_hi n) then
        (t.cadSrc n).bad = (s.cadSrc n).bad ∧ (t.cadSrc n).good = (s.cadSrc n).good ∧
          t.rd (R.CAD_SRC_POS_LO n) = Config.mainsFraction (s.levelA n code) (s.angleAt k stamp.toNat)
      else if 256 * s.get (F.CAD_SRC_LOSS_hi n) < (s.levelA n code - Config.mainsPredicted n (s.angleAt k stamp.toNat)).natAbs then
        t.srcX n = s.srcX n ∧ (t.cadSrc n).bad = (s.cadSrc n).bad + 1 ∧ (t.cadSrc n).good = 0
      else t.rd (R.CAD_SRC_POS_LO n) = Config.mainsFraction (s.levelA n code) (s.angleAt k stamp.toNat)) := by
  have hk8 : k ≠ 8 := (List.mem_range.mp (List.mem_of_find?_eq_some hk)).ne
  show ∃ t, execMainsSingleSample n code stamp s = .next t ∧ _
  unfold execMainsSingleSample
  rw [if_neg (by simp [h3, State.on_of_zero hb]), hk, Option.getD_some]
  extract_lets v tr keep lim angle pred
  rw [if_neg hk8]
  have hkeep (u : State) : keep u = u.keepSample n v stamp.toNat := rfl
  have hv : s.levelA n code = v := rfl
  have hangle : s.angleAt k stamp.toNat = angle := rfl
  have hpred : Config.mainsPredicted n angle = pred := rfl
  have hlim : 256 * s.get (F.CAD_SRC_LOSS_hi n) = lim := rfl
  clear_value keep v angle pred lim
  rw [hv, hangle, hpred, hlim]
  by_cases hp : pred.natAbs < lim
  · rw [if_pos hp, hkeep]
    refine ⟨_, rfl, ?_⟩
    obtain ⟨hbad, hgood, hlo⟩ := s.sampleExempt_spec n.isLt (Config.mainsFraction v angle) stamp.toNat
    rw [if_pos hp, State.keepSample_bad, State.keepSample_good, State.keepSample_rd]
    exact ⟨hbad, hgood, hlo⟩
  · rw [if_neg hp]
    by_cases hl : lim < (v - pred).natAbs
    · rw [if_pos hl, hkeep]
      refine ⟨_, rfl, ?_⟩
      obtain ⟨hx, hc, _⟩ := s.measureFailed_spec n.isLt
      rw [if_neg hp, if_pos hl, State.keepSample_srcX, State.keepSample_bad, State.keepSample_good, hx, hc]
      exact ⟨rfl, rfl, rfl⟩
    · rw [if_neg hl, hkeep]
      refine ⟨_, rfl, ?_⟩
      obtain ⟨_, hlo, _⟩ := State.measured_spec (s.unwrapX n (Config.mainsFraction v angle)) n.isLt stamp.toNat
      rw [if_neg hp, if_neg hl, State.keepSample_rd]
      exact hlo.trans (s.unwrapX_lo n _)

theorem append44_hi (h : BitVec 32) (l : BitVec 44) : (h ++ l).extractLsb' 44 32 = h := by
  refine BitVec.eq_of_getLsbD_eq fun i hi => ?_
  rw [BitVec.getLsbD_extractLsb', BitVec.getLsbD_append, if_neg (by omega)]
  simp only [hi, decide_true, Bool.true_and]
  exact congrArg h.getLsbD (by omega)

theorem append44_lo (h : BitVec 32) (l : BitVec 44) : (h ++ l).extractLsb' 12 32 = l.extractLsb' 12 32 := by
  refine BitVec.eq_of_getLsbD_eq fun i hi => ?_
  rw [BitVec.getLsbD_extractLsb', BitVec.getLsbD_append, if_pos (by omega), BitVec.getLsbD_extractLsb']

theorem State.srcX_half (s : State) (n : Nat) : (s.srcX n).getLsbD 43 = (s.rd (R.CAD_SRC_POS_LO n)).getLsbD 31 := by
  rw [← s.srcX_mid n, BitVec.getLsbD_extractLsb']
  simp

theorem State.crossX_rising (s : State) (n : Nat) : (s.crossX n true).rd (R.CAD_SRC_POS_LO n) = 0 ∧
    (s.crossX n true).rd (R.CAD_SRC_POS_HI n) =
      if (s.rd (R.CAD_SRC_POS_LO n)).getLsbD 31 = true then s.rd (R.CAD_SRC_POS_HI n) + 1 else s.rd (R.CAD_SRC_POS_HI n) := by
  unfold State.crossX
  extract_lets x hi half
  refine ⟨(State.setSrcX_lo _ _ _).trans ((append44_lo _ _).trans (by decide)), (State.setSrcX_hi _ _ _).trans ((append44_hi _ _).trans ?_)⟩
  rw [← s.srcX_half n, ← s.srcX_hi n, Bool.true_and]

theorem State.crossX_falling (s : State) (n : Nat) : (s.crossX n false).rd (R.CAD_SRC_POS_LO n) = BitVec.ofNat 32 (2 ^ 31) :=
  (State.setSrcX_lo _ _ _).trans ((append44_lo _ _).trans (by decide))

theorem completes_mainsCrossing (n : Fin 4) (code : BitVec 16) (stamp : BitVec 64) (u at0 : Int) (s : State) (h3 : s.srcIs n 3 = true)
    (hb : s.get (F.CAD_SRC_ANA_b_en n) = 0)
    (hk : (List.range 8).find? (fun k => s.get (F.CAD_TRK_CTL_src k) = n.val ∧ 2 ≤ s.trkState k) = none) (hs : (s.cadSrc n).sample = some (u, at0)) :
    Completes (.mainsSingleSample n code stamp) s (fun t => (t.cadSrc n).sample = some (s.levelA n code, (stamp.toNat : Int)) ∧
      (u < 0 ∧ 0 ≤ s.levelA n code → t.rd (R.CAD_SRC_POS_LO n) = 0 ∧ t.rd (R.CAD_SRC_POS_HI n) =
        if (s.rd (R.CAD_SRC_POS_LO n)).getLsbD 31 = true then s.rd (R.CAD_SRC_POS_HI n) + 1 else s.rd (R.CAD_SRC_POS_HI n)) ∧
      (0 ≤ u ∧ s.levelA n code < 0 → t.rd (R.CAD_SRC_POS_LO n) = BitVec.ofNat 32 (2 ^ 31)) ∧
      ((u < 0 ↔ s.levelA n code < 0) → t.srcX n = s.srcX n)) := by
  show ∃ t, execMainsSingleSample n code stamp s = .next t ∧ _
  unfold execMainsSingleSample
  rw [if_neg (by simp [h3, State.on_of_zero hb]), hk, Option.getD_none]
  extract_lets v tr keep lim angle pred
  have hkeep (u : State) : keep u = u.keepSample n v stamp.toNat := rfl
  clear_value keep
  rw [if_pos rfl, hkeep]
  refine ⟨_, rfl, State.keepSample_sample _ _ _ _, ?_⟩
  rw [State.keepSample_rd, State.keepSample_rd, State.keepSample_srcX]
  unfold State.zeroCross
  rw [hs]
  dsimp only
  have hv : s.levelA n code = v := rfl
  rw [hv]
  by_cases hup : u < 0 ∧ 0 ≤ v
  · rw [if_pos hup]
    obtain ⟨_, hlo, hhi, _⟩ := State.measured_spec (s.crossX n true) n.isLt (at0 + ((stamp.toNat : Int) - at0) * u.natAbs / (max 1 (u.natAbs + v.natAbs) : Nat)).toNat
    obtain ⟨hxlo, hxhi⟩ := s.crossX_rising n
    exact ⟨fun _ => ⟨hlo.trans hxlo, hhi.trans hxhi⟩, fun h => absurd h.1 (by omega), fun h => absurd h (by omega)⟩
  · rw [if_neg hup]
    by_cases hdown : 0 ≤ u ∧ v < 0
    · rw [if_pos hdown]
      obtain ⟨_, hlo, _⟩ := State.measured_spec (s.crossX n false) n.isLt (at0 + ((stamp.toNat : Int) - at0) * u.natAbs / (max 1 (u.natAbs + v.natAbs) : Nat)).toNat
      exact ⟨fun h => absurd h hup, fun _ => hlo.trans (s.crossX_falling n), fun h => absurd h (by omega)⟩
    · rw [if_neg hdown]
      exact ⟨fun h => absurd h hup, fun h => absurd h hdown, fun _ => rfl⟩

theorem State.srcIs_iff {s : State} {n type : Nat} : s.srcIs n type = true ↔ s.get (F.CAD_SRC_CTL_enable n) = 1 ∧ s.get (F.CAD_SRC_CTL_type n) = type := by
  rw [State.srcIs, Bool.and_eq_true, beq_iff_eq]
  rcases s.get_bit (F.CAD_SRC_CTL_enable n) rfl with h | h
  · rw [State.on_of_zero h, h]
    simp
  · rw [State.on_of_one h, h]
    simp

theorem completes_analogSourceTrigger (n : Fin 4) (s : State) (h3 : s.srcIs n 3 = true) (hb : s.get (F.CAD_SRC_ANA_b_en n) = 0)
    (hon : s.adcOn (s.get (F.CAD_SRC_ANA_conv_a n)) = true) (hfree : s.get (F.ADC_STS_busy (s.get (F.CAD_SRC_ANA_conv_a n))) = 0) :
    Completes (.analogSourceTrigger n) s (fun t => t.get (F.ADC_STS_busy (s.get (F.CAD_SRC_ANA_conv_a n))) = 1 ∧ t.cad = s.cad) := by
  obtain ⟨hen, hty⟩ := State.srcIs_iff.mp h3
  have hconvs : s.srcConvs n = [s.get (F.CAD_SRC_ANA_conv_a n)] := by
    unfold State.srcConvs
    rw [hty, State.on_of_zero hb]
    simp
  show ∃ t, execAnalogSourceTrigger n s = .next t ∧ _
  unfold execAnalogSourceTrigger
  rw [if_neg (by simp [State.on_of_one hen]), hconvs]
  refine ⟨_, rfl, ?_⟩
  show (s.adcTrigger (s.get (F.CAD_SRC_ANA_conv_a n)) (BitVec.ofNat 2 (s.get (F.CAD_SRC_ANA_mux_a n))) none).get _ = 1 ∧
    (s.adcTrigger (s.get (F.CAD_SRC_ANA_conv_a n)) (BitVec.ofNat 2 (s.get (F.CAD_SRC_ANA_mux_a n))) none).cad = s.cad
  rw [State.adcTrigger, if_neg (by simp [hon]), if_pos (by simp [State.on_of_zero hfree])]
  exact ⟨State.get_put_lit _ rfl, rfl⟩

/-! ## Enable and disable -/

theorem State.adcHeld_get (s : State) {f : RF} (h : f.off < 0x80000) : s.adcHeld.get f = s.get f := by
  unfold State.adcHeld
  dsimp only
  refine foldl_kept (fun u => u.get f) (fun u c _ => State.get_putB_apart u _ (apart_off ?_)) s
  simp only [F.ADC_STS_held, R.ADC_STS]
  omega

theorem srcPage_lt {n a : Nat} (hn : n < 4) (ha : a < 0x40140) : a + 0x40 * n < 0x80000 := by omega

/-- What a write of a source's control leaves of it: the enable bit is cleared, the type taken. -/
theorem ctlWord_fields {n : Nat} (v : BitVec 32) (s : State) :
    (s.wr (R.CAD_SRC_CTL n) ((v ||| 1) &&& 0x00FFFFFE)).get (F.CAD_SRC_CTL_enable n) = 0 ∧
      (s.wr (R.CAD_SRC_CTL n) ((v ||| 1) &&& 0x00FFFFFE)).get (F.CAD_SRC_CTL_type n) = v.toNat / 2 % 8 ∧ (v ||| 1).getLsbD 0 = true ∧
      (v ||| 1).toNat / 2 % 8 = v.toNat / 2 % 8 := by
  have hmask : ∀ i < 3, (0x00FFFFFE : BitVec 32).getLsbD (1 + i) = true ∧ (1 : BitVec 32).getLsbD (1 + i) = false := by decide
  have hbits (x : BitVec 32) (i : Nat) : (x.toNat / 2 % 8).testBit i = (decide (i < 3) && x.getLsbD (1 + i)) := by
    rw [show (8 : Nat) = 2 ^ 3 from rfl, Nat.testBit_mod_two_pow, ← Nat.shiftRight_one, Nat.testBit_shiftRight]
    rfl
  refine ⟨Nat.eq_of_testBit_eq fun i => ?_, Nat.eq_of_testBit_eq fun i => ?_, by rw [BitVec.getLsbD_or]; simp, Nat.eq_of_testBit_eq fun i => ?_⟩
  · rw [State.get_testBit, Nat.zero_testBit]
    show (decide (i < 1) && ((s.wr (R.CAD_SRC_CTL n) _).rd (R.CAD_SRC_CTL n)).getLsbD (0 + i)) = false
    by_cases h : i < 1
    · obtain rfl : i = 0 := by omega
      rw [State.rd_wr_same, BitVec.getLsbD_and]
      simp
    · simp [h]
  · rw [State.get_testBit, hbits]
    show (decide (i < 3) && ((s.wr (R.CAD_SRC_CTL n) _).rd (R.CAD_SRC_CTL n)).getLsbD (1 + i)) = _
    by_cases h : i < 3
    · rw [State.rd_wr_same, BitVec.getLsbD_and, BitVec.getLsbD_or, (hmask i h).1, (hmask i h).2, Bool.or_false, Bool.and_true]
    · simp [h]
  · rw [hbits, hbits, BitVec.getLsbD_or]
    by_cases h : i < 3
    · rw [(hmask i h).2, Bool.or_false]
    · simp [h]

/-- A source whose type has no converter starts, and keeps its type. -/
theorem State.srcStart_spec (s : State) {n : Nat} (hn : n < 4) (hoff : s.get (F.CAD_SRC_CTL_enable n) = 0) (hrun : s.cad.run = true)
    (ht : s.get (F.CAD_SRC_CTL_type n) = 0 ∨ s.get (F.CAD_SRC_CTL_type n) = 4 ∨ s.get (F.CAD_SRC_CTL_type n) = 6) :
    (s.srcStart n).get (F.CAD_SRC_CTL_enable n) = 1 ∧ (s.srcStart n).srcValid n = true ∧
      (s.srcStart n).get (F.CAD_SRC_CTL_type n) = s.get (F.CAD_SRC_CTL_type n) := by
  have hconvs : s.srcConvs n = [] := by
    unfold State.srcConvs
    rcases ht with h | h | h <;> rw [h] <;> rfl
  have hno : s.srcConflict n = false := by
    unfold State.srcConflict
    rw [hconvs]
    simp
  unfold State.srcStart
  rw [if_neg (by rw [State.on_of_zero hoff, hrun]; rcases ht with h | h | h <;> rw [h] <;> decide), if_neg (by rw [hno]; decide)]
  extract_lets base lvl x u v w
  have hx {f : RF} (hf : f.off = R.CAD_SRC_CTL n) : v.get f = s.get f := by
    simp only [v]
    split
    · exact (State.setSrcX_get u n _ (a := 0x40100) hf (by decide) (by decide)).trans (State.setCadSrc_get _ _ _ _)
    · exact State.setCadSrc_get _ _ _ _
  have hend {f : RF} (hf : f.off = R.CAD_SRC_CTL n) : ((w.setValid n true).adcHeld).get f = w.get f :=
    (State.adcHeld_get _ (hf ▸ srcPage_lt hn (by decide))).trans (State.setValid_get w hn true (a := 0x40100) hf (by decide) (apart_base rfl hf rfl))
  have hw {f : RF} (hf : f.off = R.CAD_SRC_CTL n) : w.get f = (v.put (F.CAD_SRC_CTL_enable n) 1).get f :=
    (State.get_put_apart _ _ (apart_base (a := 0x4012C) rfl hf rfl)).trans (State.get_put_apart _ _ (apart_base (a := 0x4012C) rfl hf rfl))
  refine ⟨(hend rfl).trans ((hw rfl).trans (State.get_put_lit _ rfl)), ?_, (hend rfl).trans ((hw rfl).trans ((State.get_put_apart _ _ rfl).trans (hx rfl)))⟩
  rw [State.srcValid, State.on, State.adcHeld_get _ (srcPage_lt (a := 0x4012C) hn (by decide))]
  exact State.setValid_srcValid w hn true

theorem completes_sourceEnable (n : Fin 4) (v : BitVec 32) (s : State) (ho : s.barOpen (R.CAD_SRC_CTL n) = true) (hoff : s.get (F.CAD_SRC_CTL_enable n) = 0)
    (hrun : s.cad.run = true) (ht : v.toNat / 2 % 8 = 0 ∨ v.toNat / 2 % 8 = 4 ∨ v.toNat / 2 % 8 = 6) :
    Completes (.sourceEnable n v) s (fun t => t.get (F.CAD_SRC_CTL_enable n) = 1 ∧ t.srcValid n = true ∧ t.get (F.CAD_SRC_CTL_type n) = v.toNat / 2 % 8) := by
  refine completes_bar (u := s.srcCtlWrite n (v ||| 1)) rfl ho ?_
  obtain ⟨hen, hty, hbit, hseven⟩ := ctlWord_fields (n := n) v s
  unfold State.srcCtlWrite
  rw [if_neg (by simp [State.on_of_zero hoff]), if_neg (by rw [hseven]; omega)]
  extract_lets old t u
  rw [if_neg (by rw [hbit, hrun]; decide)]
  obtain ⟨hen', hval, hty'⟩ := t.srcStart_spec n.isLt hen hrun (by rw [hty]; exact ht)
  rw [if_pos (State.on_of_one hen')]
  exact ⟨hen', hval, hty'.trans hty⟩

theorem completes_sourceDisable (n : Fin 4) (s : State) (ho : s.barOpen (R.CAD_SRC_CTL n) = true) (hon : s.get (F.CAD_SRC_CTL_enable n) = 1) :
    Completes (.sourceDisable n) s (fun t => t.get (F.CAD_SRC_CTL_enable n) = 0 ∧ t.srcValid n = false ∧
      ∀ k : Fin 8, s.get (F.CAD_TRK_CTL_src k) = n → s.trkState k = 2 → t.trkState k = 3) := by
  refine completes_bar (u := s.srcStop n) rfl ho ?_
  unfold State.srcStop
  rw [if_neg (by simp [State.on_of_one hon])]
  have hen : ((s.put (F.CAD_SRC_CTL_enable n) 0).setValid n false).get (F.CAD_SRC_CTL_enable n) = 0 :=
    (State.setValid_get _ n.isLt false (a := 0x40100) rfl (by decide) (apart_base rfl rfl rfl)).trans (State.get_put_lit _ rfl)
  have hval := State.setValid_srcValid (s.put (F.CAD_SRC_CTL_enable n) 0) n.isLt false
  have htrk {g : RF} {a k : Nat} (hg : g.off = a + 0x80 * k) (ha : 0x40400 ≤ a) : ((s.put (F.CAD_SRC_CTL_enable n) 0).setValid n false).get g = s.get g := by
    refine (State.setValid_trk _ n.isLt false hg ha).trans (State.get_put_apart _ _ (apart_off ?_))
    simp only [hg, F.CAD_SRC_CTL_enable, R.CAD_SRC_CTL]
    omega
  generalize (s.put (F.CAD_SRC_CTL_enable n) 0).setValid n false = u at hen hval htrk ⊢
  have hframe := u.tracksLose_tracks n false
  refine ⟨?_, ?_, fun k hsrc h2 => ?_⟩
  · rw [State.adcHeld_get _ (srcPage_lt (a := 0x40100) n.isLt (by decide)), State.Tracks.get_src hframe n.isLt (a := 0x40100) rfl (by decide) (by decide), hen]
  · rw [State.srcValid, State.on, State.adcHeld_get _ (srcPage_lt (a := 0x4012C) n.isLt (by decide)),
      State.Tracks.get_src hframe n.isLt (a := 0x4012C) rfl (by decide) (by decide)]
    exact hval
  · have hlt : (F.CAD_TRK_STS_state k).off < 0x80000 := by
      simp only [F.CAD_TRK_STS_state, R.CAD_TRK_STS]
      omega
    rw [State.trkState, State.adcHeld_get _ hlt]
    exact (u.tracksLose_coast k.isLt false ((htrk (g := F.CAD_TRK_CTL_src k) (a := 0x40400) rfl (by decide)).trans hsrc)
      ((htrk (g := F.CAD_TRK_STS_state k) (a := 0x4042C) rfl (by decide)).trans h2)).1

/-! ## Loss and return -/

theorem completes_sourceLost (n : Fin 4) (s : State) (hv : s.srcValid n = true) (h1 : s.srcIs n 1 = true) (hbad : (s.cadSrc n).bad ≠ 0) (hin : s.lossInTime n = true) :
    Completes (.sourceLost n) s (fun t => t.srcValid n = false ∧ t.get (F.CAD_SRC_STS_lost n) = 1 ∧ t.logged 0x0502 n ∧
      ∀ k : Fin 8, s.get (F.CAD_TRK_CTL_src k) = n → s.trkState k = 2 → t.trkState k = 3 ∧ t.get (F.CAD_TRK_STS_lost k) = 1) := by
  obtain ⟨_, hty⟩ := State.srcIs_iff.mp h1
  have hdig : s.srcDigital n = false := by rw [State.srcDigital, hty]; rfl
  show ∃ t, execSourceLost n s = .next t ∧ _
  unfold execSourceLost
  dsimp only
  rw [hty, hv, hdig, if_neg (by decide), if_neg (by simp), if_neg (by simp [hbad]), if_neg (by simp [hin])]
  obtain ⟨_, _, hval, hlost, _, hlogged, _, hcoast⟩ := s.sourceLost_spec n.isLt
  exact ⟨_, rfl, hval, hlost, hlogged, fun k => hcoast k k.isLt⟩

/-- Every register outside the pages of the sources. -/
def besideSrcs (off : Nat) : Word := if 0x40100 ≤ off ∧ off < 0x40200 then 0 else BitVec.allOnes 32

/-- The pages of the sources stay from one state to the other. -/
abbrev State.SrcsStay (s t : State) : Prop := s.Alters besideSrcs (fun _ => ()) t

theorem besideSrcs_of {m : Nat → Word} (h : ∀ off, 0x40100 ≤ off → off < 0x40200 → m off = 0) (off i : Nat) (hi : (besideSrcs off).getLsbD i = false) :
    (m off).getLsbD i = false := by
  by_cases hin : 0x40100 ≤ off ∧ off < 0x40200
  · rw [h off hin.1 hin.2]
    exact BitVec.getLsbD_zero
  · rw [besideSrcs, if_neg hin, BitVec.getLsbD_allOnes, decide_eq_false_iff_not] at hi
    exact BitVec.getLsbD_of_ge _ _ (by omega)

theorem State.Tracks.srcsStay {s t : State} (h : s.Tracks t) : s.SrcsStay t :=
  h.mono (besideSrcs_of fun off hl hh => trackReg_out (by omega) (by omega) (by simp only [R.CAD_STS]; omega)) fun _ _ _ => rfl

theorem State.Elsewhere.srcsStay {s t : State} (h : s.Elsewhere t) : s.SrcsStay t :=
  h.mono (besideSrcs_of fun off hl hh => elsewhere_in (by omega) (by omega)) fun _ _ _ => rfl

section

variable (s : State) {k : Nat} (hk : k < 8)

include hk

theorem State.switchTake_tracks (o : Observer) (align : Bool) {v : State} (h : s.switchTake k o align = some v) : s.Tracks v := by
  unfold State.switchTake at h
  extract_lets x near diff d dd target turns bound ofs o' at h
  have hbound (u : State) (o : Observer) : u.Tracks ((bound u o).trkShow k) := by
    have hput {f : RF} {a : Nat} (u : State) (v : Nat) (hf : f.off = a + 0x80 * k) (ha : 0x40400 ≤ a) (hb : a < 0x40480) : u.Tracks (u.put f v) :=
      u.putTrk_tracks hk v hf ha hb
    exact (((((u.setTrk_tracks k _).trans (hput (f := F.CAD_TRK_CTL_src k) (a := 0x40400) _ _ rfl (by decide) (by decide))).trans
      (hput (f := F.CAD_TRK_CTL_mul k) (a := 0x40400) _ _ rfl (by decide) (by decide))).trans
      (hput (f := F.CAD_TRK_DIV_div k) (a := 0x40404) _ _ rfl (by decide) (by decide))).trans
      (hput (f := F.CAD_TRK_OFS_offset k) (a := 0x40408) _ _ rfl (by decide) (by decide))).trans (State.trkShow_tracks _ hk)
  clear_value bound
  cases align with
  | true =>
    rw [if_pos rfl] at h
    rw [← Option.some.inj h]
    exact hbound _ _
  | false =>
    rw [if_neg (by decide)] at h
    cases hc : s.correct k d (! x.isReturn) with
    | none =>
      rw [hc] at h
      cases h
    | some w =>
      rw [hc] at h
      rw [← Option.some.inj h]
      exact (s.correct_tracks hk _ _ hc).trans (hbound _ _)

theorem State.trkHalt_srcsStay (cause : Nat) : s.SrcsStay (s.trkHalt k cause) := by
  have hcause (u : State) (v : Nat) := u.putTrk_tracks hk (f := F.CAD_TRK_STS_halt_cause k) (a := 0x4042C) v rfl (by decide) (by decide)
  have hhead : s.Tracks ((((s.setTrkState k 4).put (F.CAD_TRK_STS_halt_cause k) cause).switchAbort k).raise 0x0503 k) :=
    (((s.setTrkState_tracks hk 4).trans (hcause _ _)).trans (State.switchAbort_tracks _ hk)).trans (.raise trackReg_eventful _ _)
  exact ((State.Tracks.srcsStay hhead).trans (State.Elsewhere.srcsStay (State.trkSpokes_elsewhere _ k))).trans (State.Tracks.srcsStay (State.trkShow_tracks _ hk))

theorem State.switchAcquired_srcsStay : s.SrcsStay (s.switchAcquired k) := by
  have hput {f : RF} {a : Nat} (u : State) (v : Nat) (hf : f.off = a + 0x80 * k) (ha : 0x40400 ≤ a) (hb : a < 0x40480) : u.Tracks (u.put f v) :=
    u.putTrk_tracks hk v hf ha hb
  unfold State.switchAcquired
  dsimp only
  split
  · exact .refl _ _ _
  · next o _ =>
    refine .ite (fun _ => .refl _ _ _) fun _ => .ite (fun _ => s.trkHalt_srcsStay hk _) fun _ => .ite (fun _ => .ite (fun _ => .refl _ _ _) fun _ => ?_) fun _ => ?_
    · split
      · exact State.Tracks.srcsStay (s.setTrk_tracks k _)
      · next v hv =>
        exact State.Tracks.srcsStay ((s.switchTake_tracks hk _ _ hv).trans (((v.setTrkState_tracks hk 2).trans (State.setTrk_tracks _ k _)).trans (.raise trackReg_eventful _ _)))
    · split
      · exact State.Tracks.srcsStay (s.switchAbort_tracks hk)
      · next v hv =>
        refine State.Tracks.srcsStay ((s.switchTake_tracks hk _ _ hv).trans
          ((hput (f := F.CAD_TRK_STS_switching k) (a := 0x4042C) v 0 rfl (by decide) (by decide)).trans (.ite (fun _ => ?_) fun _ => ?_)))
        · exact ((hput (f := F.CAD_TRK_SW_busy k) (a := 0x40434) _ 0 rfl (by decide) (by decide)).trans
            (hput (f := F.CAD_TRK_SW_result k) (a := 0x40434) _ 1 rfl (by decide) (by decide))).trans (.raise trackReg_eventful _ _)
        · exact State.Alters.trans (.ite (fun _ => State.setTrkState_tracks _ hk 2) fun _ => .refl _ _ _) (State.setTrk_tracks _ k _)

end

theorem completes_sourceReturn (n : Fin 4) (s : State) (hv : s.srcValid n = false) (hen : s.get (F.CAD_SRC_CTL_enable n) = 1) (hg : 16 ≤ (s.cadSrc n).good) :
    Completes (.sourceReturn n) s (fun t => t.srcValid n = true) := by
  show ∃ t, execSourceReturn n s = .next t ∧ _
  unfold execSourceReturn
  dsimp only
  rw [if_neg (by rw [hv, State.on_of_one hen]; split <;> simp <;> omega)]
  refine ⟨_, rfl, ?_⟩
  have hframe : (s.setValid n true).SrcsStay ((List.range 8).foldl (fun s t => if s.trkState t = 3 ∧ (s.trkT t).isReturn then s.switchAcquired t else s) (s.setValid n true)) :=
    .foldl (fun u k hk => .ite (fun _ => u.switchAcquired_srcsStay (List.mem_range.mp hk)) fun _ => .refl _ _ _) _
  have hsts : besideSrcs (F.CAD_SRC_STS_valid n).off = 0 := if_pos (by simp only [F.CAD_SRC_STS_valid, R.CAD_SRC_STS]; omega)
  rw [State.srcValid, State.on, hframe.get_of_zero hsts]
  exact s.setValid_srcValid n.isLt true

end Sys2Proof.Machine
end

section
/-! PROOFS. O22: the sources of Cadence (chapter 07). -/

namespace Sys2Proof.Machine

theorem quadStep_of_place {s : State} {n k : Nat} {ab : BitVec 2} (hk : k < 4) (h : quadPlace ab = (quadPlace (s.cadSrc n).ab + k) % 4) : s.quadStep n ab = k := by
  have := quadPlace_lt (s.cadSrc n).ab
  rw [State.quadStep, h]
  omega

theorem State.srcNext_plain {s : State} {n : Nat} (h : s.get (F.CAD_SRC_CTL_dir_inv n) = 0) : s.srcNext n true = s.srcX n + BitVec.ofNat 76 (2 ^ 44) :=
  if_pos (iff_of_true rfl h)

theorem State.srcNext_inverted {s : State} {n : Nat} (h : s.get (F.CAD_SRC_CTL_dir_inv n) ≠ 0) : s.srcNext n true = s.srcX n - BitVec.ofNat 76 (2 ^ 44) :=
  if_neg fun hi => h (hi.mp rfl)

theorem Completes.mono {i : Instr} {s : State} {P Q : State → Prop} (h : Completes i s P) (hpq : ∀ t, P t → Q t) : Completes i s Q := by
  obtain ⟨t, ht, hp⟩ := h
  exact ⟨t, ht, hpq t hp⟩

theorem completes_quadEdge_forward (n : Fin 4) (a b : Bool) (stamp : BitVec 64) (s : State) (h0 : s.srcIs n 0 = true) (hq : s.qeiLost n = false)
    (hp : quadPlace (BitVec.ofNat 2 (a.toNat + 2 * b.toNat)) = (quadPlace (s.cadSrc n).ab + 1) % 4) (hd : s.get (F.CAD_SRC_CTL_dir_inv n) = 0) :
    Completes (.quadEdge n a b stamp) s (fun t => t.srcX n = s.srcX n + BitVec.ofNat 76 (2 ^ 44)) :=
  (completes_quadEdge n a b stamp s h0 hq).mono fun _ ⟨_, _, hone, _⟩ => (hone (quadStep_of_place (by decide) hp)).trans (State.srcNext_plain hd)

theorem completes_quadEdge_illegal (n : Fin 4) (a b : Bool) (stamp : BitVec 64) (s : State) (h0 : s.srcIs n 0 = true) (hq : s.qeiLost n = false)
    (hp : quadPlace (BitVec.ofNat 2 (a.toNat + 2 * b.toNat)) = (quadPlace (s.cadSrc n).ab + 2) % 4) :
    Completes (.quadEdge n a b stamp) s (fun t => t.srcX n = s.srcX n ∧ t.get (F.CAD_SRC_STS_illegal n) = 1 ∧ t.srcValid n = false ∧ t.logged 0x050B n) :=
  (completes_quadEdge n a b stamp s h0 hq).mono fun _ ⟨_, hstay, _, _, htwo⟩ =>
    ⟨hstay (Or.inr (quadStep_of_place (by decide) hp)), htwo (quadStep_of_place (by decide) hp)⟩

/-- The steps of a quadrature source, by the order of its levels. -/
theorem completes_quadEdge_steps (n : Fin 4) (a b : Bool) (stamp : BitVec 64) (s : State) (h0 : s.srcIs n 0 = true) (hq : s.qeiLost n = false) :
    Completes (.quadEdge n a b stamp) s (fun t =>
      (t.cadSrc n).ab = BitVec.ofNat 2 (a.toNat + 2 * b.toNat) ∧
      (s.quadStep n (BitVec.ofNat 2 (a.toNat + 2 * b.toNat)) = 0 ∨ s.quadStep n (BitVec.ofNat 2 (a.toNat + 2 * b.toNat)) = 2 → t.srcX n = s.srcX n) ∧
      (s.quadStep n (BitVec.ofNat 2 (a.toNat + 2 * b.toNat)) = 1 ∨ s.quadStep n (BitVec.ofNat 2 (a.toNat + 2 * b.toNat)) = 3 →
        t.srcX n = if s.quadStep n (BitVec.ofNat 2 (a.toNat + 2 * b.toNat)) = 1 ↔ s.get (F.CAD_SRC_CTL_dir_inv n) = 0 then s.srcX n + BitVec.ofNat 76 (2 ^ 44)
          else s.srcX n - BitVec.ofNat 76 (2 ^ 44)) ∧
      (s.quadStep n (BitVec.ofNat 2 (a.toNat + 2 * b.toNat)) = 2 → t.get (F.CAD_SRC_STS_illegal n) = 1 ∧ t.srcValid n = false ∧ t.logged 0x050B n)) := by
  refine (completes_quadEdge n a b stamp s h0 hq).mono fun t ⟨hab, hstay, hone, hthree, htwo⟩ => ⟨hab, hstay, fun h => ?_, htwo⟩
  rcases h with h | h
  · rw [hone h, h, State.srcNext]
    simp
  · rw [hthree h, h, State.srcNext]
    simp

theorem completes_pulseEdge_inverted (n : Fin 4) (stamp : BitVec 64) (s : State) (h4 : s.srcIs n 4 = true) (hq : s.qeiLost n = false)
    (hd : s.get (F.CAD_SRC_CTL_dir_inv n) = 1) :
    Completes (.pulseEdge n stamp) s (fun t => t.srcX n = s.srcX n - BitVec.ofNat 76 (2 ^ 44) ∧ (t.cadSrc n).good = (s.cadSrc n).good + 1) :=
  (completes_pulseEdge n stamp s h4 hq).mono fun _ ⟨hx, hg⟩ => ⟨hx.trans (State.srcNext_inverted (by rw [hd]; decide)), hg⟩

theorem completes_pulseEdge_plain (n : Fin 4) (stamp : BitVec 64) (s : State) (h4 : s.srcIs n 4 = true) (hq : s.qeiLost n = false)
    (hd : s.get (F.CAD_SRC_CTL_dir_inv n) = 0) :
    Completes (.pulseEdge n stamp) s (fun t => t.srcX n = s.srcX n + BitVec.ofNat 76 (2 ^ 44) ∧ (t.cadSrc n).good = (s.cadSrc n).good + 1) :=
  (completes_pulseEdge n stamp s h4 hq).mono fun _ ⟨hx, hg⟩ => ⟨hx.trans (State.srcNext_plain hd), hg⟩

theorem completes_pulseEdge_moves (n : Fin 4) (stamp : BitVec 64) (s : State) (h4 : s.srcIs n 4 = true) (hq : s.qeiLost n = false) :
    Completes (.pulseEdge n stamp) s (fun t => t.srcX n = if s.get (F.CAD_SRC_CTL_dir_inv n) = 0 then s.srcX n + BitVec.ofNat 76 (2 ^ 44)
      else s.srcX n - BitVec.ofNat 76 (2 ^ 44)) := by
  refine (completes_pulseEdge n stamp s h4 hq).mono fun t ⟨hx, _⟩ => ?_
  split
  · next h => exact hx.trans (State.srcNext_plain h)
  · next h => exact hx.trans (State.srcNext_inverted h)

theorem completes_indexEdge (n : Fin 4) (s : State) (hen : s.get (F.CAD_SRC_CTL_enable n) = 1) (hz : s.get (F.CAD_SRC_CTL_z_en n) = 1)
    (hd : s.srcDigital n = true) (hq : s.qeiLost n = false) :
    Completes (.indexEdge n) s (fun t => t.rd (R.CAD_SRC_ZCAP n) = s.rd (R.CAD_SRC_POS_HI n) ∧
      (s.get (F.CAD_SRC_CTL_z_home n) = 1 → s.get (F.CAD_SRC_STS_homed n) = 0 →
        t.rd (R.CAD_SRC_POS_HI n) = s.rd (R.CAD_SRC_ZHOME n) ∧ t.rd (R.CAD_SRC_POS_LO n) = s.rd (R.CAD_SRC_POS_LO n) ∧
        t.get (F.CAD_SRC_STS_homed n) = 1 ∧ t.logged 0x0508 n)) := by
  by_cases h : s.get (F.CAD_SRC_CTL_z_home n) = 1 ∧ s.get (F.CAD_SRC_STS_homed n) = 0
  · exact (completes_indexEdge_homes n s hen hz hd hq h.1 h.2).mono fun _ ⟨hcap, hrest⟩ => ⟨hcap, fun _ _ => hrest⟩
  · have hno : s.get (F.CAD_SRC_CTL_z_home n) = 0 ∨ s.get (F.CAD_SRC_STS_homed n) = 1 := by
      rcases s.get_bit (F.CAD_SRC_CTL_z_home n) rfl with hh | hh
      · exact Or.inl hh
      · exact Or.inr ((s.get_bit (F.CAD_SRC_STS_homed n) rfl).resolve_left fun h0 => h ⟨hh, h0⟩)
    exact (completes_indexEdge_stays n s hen hz hd hq hno).mono fun _ ⟨hcap, _⟩ => ⟨hcap, fun h1 h0 => absurd ⟨h1, h0⟩ h⟩

theorem completes_analogFirst (n : Fin 4) (a b : BitVec 16) (neg : Bool) (stamp : BitVec 64) (s : State) (h1 : s.srcIs n 1 = true) (hf : (s.cadSrc n).frac = none) :
    Completes (.analogMeasurement n a b neg stamp) s (fun t =>
      if (s.levelA n a * s.levelA n a + s.levelB n b * s.levelB n b).natAbs < (256 * s.get (F.CAD_SRC_LOSS_lo n)) ^ 2 ∨
          (256 * s.get (F.CAD_SRC_LOSS_hi n)) ^ 2 < (s.levelA n a * s.levelA n a + s.levelB n b * s.levelB n b).natAbs then
        t.srcX n = s.srcX n ∧ t.get (F.CAD_SRC_STS_amp_fault n) = 1 ∧ t.logged 0x050C n
      else t.rd (R.CAD_SRC_POS_LO n) = vectorAngle (s.levelB n b) (s.levelA n a)) := by
  obtain ⟨u, v, hu, hv, hexec⟩ := exec_analogMeasurement n a b neg stamp 1 s h1 (Or.inl rfl)
  have hu : u = s.levelA n a := by simpa using hu
  have hv : v = s.levelB n b := by simpa using hv
  rw [← hu, ← hv]
  refine ⟨_, hexec, ?_⟩
  rw [if_neg (by decide), if_neg (by decide), if_neg (by decide)]
  have hspec := s.vectorMeasure_spec n.isLt (u * u + v * v).natAbs 1 (vectorAngle v u) stamp.toNat
  rw [mul_one, mul_one] at hspec
  split
  · next h =>
    rw [if_pos h] at hspec
    obtain ⟨hx, hamp, hlog, _⟩ := hspec
    exact ⟨hx, hamp, hlog⟩
  · next h =>
    rw [if_neg h, hf, if_neg (show ¬ 2 ^ 30 ≤ fracJump none (vectorAngle v u) by simp [fracJump])] at hspec
    exact hspec.1

theorem completes_analogMeasurement (n : Fin 4) (a b : BitVec 16) (neg : Bool) (stamp : BitVec 64) (type : Nat) (s : State) (h : s.srcIs n type = true)
    (ht : type = 1 ∨ type = 2 ∨ (type = 3 ∧ s.get (F.CAD_SRC_ANA_b_en n) = 1)) :
    Completes (.analogMeasurement n a b neg stamp) s (fun t =>
      let g : Int := if type = 2 ∧ neg = true then -1 else 1
      let u := g * s.levelA n a
      let v := g * s.levelB n b
      let amp := if type = 3 then (4 * (u * u + u * v + v * v)).natAbs else (u * u + v * v).natAbs
      let den := if type = 3 then 9 else 1
      let angle := if type = 3 then mainsAngle u v else vectorAngle v u
      if amp < (256 * s.get (F.CAD_SRC_LOSS_lo n)) ^ 2 * den ∨ (256 * s.get (F.CAD_SRC_LOSS_hi n)) ^ 2 * den < amp then
        t.srcX n = s.srcX n ∧ t.get (F.CAD_SRC_STS_amp_fault n) = 1 ∧ t.logged 0x050C n ∧ (t.cadSrc n).bad = (s.cadSrc n).bad + 1
      else if 2 ^ 30 ≤ fracJump (s.cadSrc n).frac angle then t.srcX n = s.srcX n ∧ t.get (F.CAD_SRC_STS_unwrap n) = 1 ∧ t.logged 0x050C n
      else t.rd (R.CAD_SRC_POS_LO n) = angle ∧ (t.cadSrc n).frac = some angle ∧ (t.cadSrc n).good = (s.cadSrc n).good + 1) := by
  obtain ⟨u, v, hu, hv, hexec⟩ := exec_analogMeasurement n a b neg stamp type s h ht
  dsimp only
  rw [← hu, ← hv]
  exact ⟨_, hexec, s.vectorMeasure_spec n.isLt _ _ _ stamp.toNat⟩

/-- Settles O22: a source moves with its edges, takes or refuses its vectors and samples, and is enabled, lost and valid again. -/
theorem sourcesMeasureLoseAndReturn : Obligations.SourcesMeasureLoseAndReturn := by
  unfold Obligations.SourcesMeasureLoseAndReturn
  exact ⟨completes_sourceEnable, completes_sourceDisable, completes_quadEdge_forward,
    fun n a b stamp s h0 hq hp _ => completes_quadEdge_illegal n a b stamp s h0 hq hp, completes_pulseEdge_moves, completes_indexEdge,
    completes_analogFirst, completes_mainsPredicted, completes_mainsCrossing, completes_analogSourceTrigger, completes_sourceLost, completes_sourceReturn,
    completes_quadEdge_steps, completes_pulseEdge_plain, completes_pulseEdge_inverted,
    fun n s hen hz hd hq => ⟨completes_indexEdge_stays n s hen hz hd hq,
      fun hh h0 => (completes_indexEdge_homes n s hen hz hd hq hh h0).mono fun _ ⟨hcap, hhi, _, hhomed, hlog⟩ => ⟨hcap, hhi, hhomed, hlog⟩⟩,
    completes_analogMeasurement, completes_edgesLost⟩

end Sys2Proof.Machine
end

section
/-! SUPPORT. What the entry of SUPERVISE leaves alone (R25, R33, R338, R520): the time, the cause and the count of resets, the status of the host interface, the
units, the settings memory and the commands that wait, while the settings of the Peloton ports are written. -/

namespace Sys2Proof.Machine

variable {s t u : State}

/-- Every register but SUP_TIME, SUP_RESET and HIF_STS. -/
def bootReg (off : Nat) : Word :=
  if off = R.SUP_TIME_LO ∨ off = R.SUP_TIME_HI ∨ off = R.SUP_RESET ∨ off = R.HIF_STS then 0 else BitVec.allOnes 32

/-- Mode, units, settings memory, load and the commands of the host. -/
def State.bootPart (s : State) : Mode × BitVec 11 × SMap Byte × Loader × List AdminCmd × List AdminCmd :=
  (s.mode, s.units, s.nor, s.ldr, s.hif.accepted, s.hif.running)

/-- The settings are written, or the media read, from one state to the other. -/
abbrev State.Boots (s t : State) : Prop := s.Alters bootReg State.bootPart t

theorem bootReg_high {off : Nat} (h : 0x20008 ≤ off) : bootReg off = BitVec.allOnes 32 :=
  if_neg (by simp only [R.SUP_TIME_LO, R.SUP_TIME_HI, R.SUP_RESET, R.HIF_STS]; omega)

theorem boots_eventful : Eventful bootReg State.bootPart := by
  refine ⟨fun off h => bootReg_high ?_, fun u => rfl⟩
  simp only [eventReg, Bool.or_eq_true, beq_iff_eq, R.HIF_EVT_LOST, R.HIF_RING_STS, R.HIF_RING_CNT, R.HIF_RING_OWN] at h
  omega

theorem State.Boots.of_alters {β : Type} {m : Nat → Word} {part : State → β} (h : s.Alters m part t) (hm : ∀ off, off < 0x20008 → m off = 0)
    (hp : ∀ a b, part a = part b → a.bootPart = b.bootPart) : s.Boots t := by
  refine h.mono (fun off i hi => ?_) hp
  by_cases hoff : off < 0x20008
  · rw [hm off hoff]
    exact BitVec.getLsbD_zero
  · rw [bootReg_high (by omega), BitVec.getLsbD_allOnes, decide_eq_false_iff_not] at hi
    exact BitVec.getLsbD_of_ge _ _ (by omega)

theorem flushReg_low {off : Nat} (h : off < 0x20008) : flushReg off = 0 := flushReg_out (Or.inl h) (queuePlace_off (Or.inl (by omega))) (Or.inl (by omega))

theorem State.Flushes.boots (h : s.Flushes t) : s.Boots t :=
  State.Boots.of_alters h (fun _ => flushReg_low) fun _ _ hab => (congrArg (fun x => x.1.bootPart) hab :)

theorem State.Serves.boots (h : s.Serves t) : s.Boots t := State.Flushes.boots (State.Serves.flushes h)

theorem State.Enters.boots {n : Nat} (h : s.Enters n t) : s.Boots t := by
  refine State.Boots.of_alters h (fun off hoff => ?_) fun _ _ hab => (congrArg (fun x => x.1.bootPart) hab :)
  rw [enterReg, if_neg (by simp only [R.LANE_STS]; omega), if_neg (by simp only [R.LANE_ES_CTL, R.GRP_STS]; omega), flushReg_low hoff]

theorem State.Enrols.boots (h : s.Enrols t) : s.Boots t := by
  refine State.Boots.of_alters h (fun off hoff => ?_) fun _ _ hab => (congrArg (fun x => x.1.bootPart) hab :)
  rw [enrolReg, if_neg (by simp only [R.PEL_ADDR]; omega), flushReg_low hoff]

theorem State.Boots.mode (h : s.Boots t) : t.mode = s.mode := (congrArg Prod.fst h.part :)

theorem foldl_boots {α : Type} {f : State → α → State} {l : List α} (h : ∀ u : State, u.mode = .supervise → ∀ a ∈ l, u.Boots (f u a)) (s : State)
    (hs : s.mode = .supervise) : s.Boots (l.foldl f s) := by
  induction l generalizing s with
  | nil => exact .refl _ _ _
  | cons a l ih =>
    have ha := h s hs a List.mem_cons_self
    exact ha.trans (ih (fun u hu b hb => h u hu b (List.mem_cons_of_mem a hb)) _ ((State.Boots.mode ha).trans hs))

section

variable (s : State)

theorem State.put_boots {f : RF} (v : Nat) (h : bootReg f.off = BitVec.allOnes 32) : s.Boots (s.put f v) := .field boots_eventful v (by rw [h, and_not_allOnes])

theorem State.putHigh_boots {f : RF} (v : Nat) (h : 0x20008 ≤ f.off) : s.Boots (s.put f v) := s.put_boots v (bootReg_high h)

theorem State.wr_boots {off : Nat} (v : Word) (h : bootReg off = BitVec.allOnes 32) : s.Boots (s.wr off v) := .wr v h rfl

theorem State.raise_boots (id param : Nat) : s.Boots (s.raise id param) := .raise boots_eventful id param
theorem State.raiseLim_boots (us id unit param : Nat) : s.Boots (s.raiseLim us id unit param) := .raiseLim boots_eventful us id unit param

theorem State.setLane_boots (n : Nat) (x : Lane) : s.Boots (s.setLane n x) := .of_same rfl rfl rfl
theorem State.setGrp_boots (g : Nat) (x : Grp) : s.Boots (s.setGrp g x) := .of_same rfl rfl rfl
theorem State.setFlt_boots (x : Flt) : s.Boots (s.setFlt x) := .of_same rfl rfl rfl
theorem State.setPort_boots (p : Nat) (x : Port) : s.Boots (s.setPort p x) := .of_same rfl rfl rfl

/-! ## Lanes -/

theorem State.putLane_boots {n : Nat} {f : RF} {a : Nat} (v : Nat) (hf : f.off = a + 0x1000 * n) (ha : 0x20008 ≤ a) : s.Boots (s.put f v) := s.putHigh_boots v (by omega)

theorem State.grpSync_boots (g : Nat) : s.Boots (s.grpSync g) := by
  have hput (u : State) (lo w v : Nat) : u.Boots (u.put ⟨R.GRP_STS g, lo, w⟩ v) := u.putHigh_boots v (Nat.le_add_right_of_le (by decide))
  exact ((hput _ _ _ _).trans (hput _ _ _ _)).trans (hput _ _ _ _)

theorem State.laneStart_boots {n : Nat} (hn : n < 128) : s.Boots (s.laneStart n) := by
  unfold State.laneStart
  exact State.Alters.trans (s.setLane_boots n _) (.ite (fun _ => State.Enters.boots (State.laneEnter_enters _ hn 2)) fun _ => State.Enters.boots (State.laneEnter_enters _ hn 1))

theorem State.laneOff_boots {n : Nat} (hn : n < 128) : s.Boots (s.laneOff n) := (s.setLane_boots n _).trans (State.Enters.boots (State.laneEnter_enters _ hn 0))

theorem State.morAdd_boots (kind inst pos cause : Nat) : s.Boots (s.morAdd kind inst pos cause) := by
  have hadd (l : List MapEntry) : s.Boots ((s.setFlt { s.flt with books := l }).put F.FLT_MOR_STS_pending 1) :=
    (s.setFlt_boots _).trans (State.putHigh_boots _ _ (by decide))
  unfold State.morAdd
  exact .ite (fun _ => .ite (fun _ => hadd _) fun _ => .refl _ _ _) fun _ => hadd _

theorem State.morSubstituted_boots (kind inst pos cause : Nat) : s.Boots (s.morSubstituted kind inst pos cause) :=
  (s.morAdd_boots _ _ _ _).trans (State.raise_boots _ _ _)

theorem State.morRetired_boots (kind inst pos cause : Nat) : s.Boots (s.morRetired kind inst pos cause) := (s.morAdd_boots _ _ _ _).trans (State.raise_boots _ _ _)

theorem State.oldRetire_boots (g old : Nat) : s.Boots (s.oldRetire g old) :=
  (s.putLane_boots (n := 5 * g + old) (a := 0x200004) _ rfl (by decide)).trans (State.morAdd_boots _ _ _ _ _)

theorem State.laneMove_boots (g k spare : Nat) : s.Boots (s.laneMove g k spare) := by
  have hmap (u : State) (lo w v : Nat) : u.Boots (u.put ⟨R.GRP_MAP g, lo, w⟩ v) := u.putHigh_boots v (Nat.le_add_right_of_le (by decide))
  exact ((hmap _ _ _ _).trans (State.putLane_boots _ (n := 5 * g + spare) (a := 0x200004) _ rfl (by decide))).trans (hmap _ _ _ _)

theorem State.substKeep_boots (g : Nat) : s.Boots (s.substKeep g) := by
  unfold State.substKeep
  split
  · exact .refl _ _ _
  · refine .ite (fun _ => .refl _ _ _) fun _ => State.Alters.trans (.ite (fun _ => s.oldRetire_boots _ _) fun _ => .refl _ _ _) (State.setGrp_boots _ _ _)

theorem State.putPel_boots {f : RF} {p a : Nat} (v : Nat) (hf : f.off = a + 0x1000 * p) (ha : 0x20008 ≤ a) : s.Boots (s.put f v) := s.putHigh_boots v (by omega)

theorem State.pelStripe_boots (p mask : Nat) : s.Boots (s.pelStripe p mask) :=
  ((State.Serves.boots (s.pelSend_serves _ _ _)).trans (State.putPel_boots _ (a := 0x280004) (p := p) _ rfl (by decide))).trans (State.raiseLim_boots _ _ _ _ _)

theorem State.pelFault_boots (p : Nat) : s.Boots (s.pelFault p) :=
  ((State.Flushes.boots (s.pelFlush_flushes _ _)).trans (State.putPel_boots _ (a := 0x280004) (p := p) _ rfl (by decide))).trans (State.raiseLim_boots _ _ _ _ _)

theorem State.pelLaneLost_boots (p k : Nat) : s.Boots (s.pelLaneLost p k) := by
  have hlanes (u : State) (v : Nat) : u.Boots (u.put (F.PEL_PSTS_lanes p) v) := u.putPel_boots (a := 0x280004) (p := p) v rfl (by decide)
  unfold State.pelLaneLost State.ledgerBreak
  dsimp only
  refine .ite (fun _ => .refl _ _ _) fun _ => .ite (fun _ => (s.pelFault_boots p).trans (hlanes _ _)) fun _ => .ite (fun _ => ?_) fun _ => hlanes _ _
  exact State.Alters.trans (.ite (fun _ => State.Flushes.boots (s.ledgerEnd_flushes p)) fun _ => .refl _ _ _) (State.pelStripe_boots _ _ _)

theorem State.pelLaneBack_boots (p k : Nat) : s.Boots (s.pelLaneBack p k) := .ite (fun _ => s.pelStripe_boots _ _) fun _ => .refl _ _ _

theorem State.portRetire_boots (p cause : Nat) : s.Boots (s.portRetire p cause) := by
  unfold State.portRetire
  exact (State.Alters.trans (.ite (fun _ => .refl _ _ _) fun _ => State.Flushes.boots (s.pelFlush_flushes _ _)) (State.morRetired_boots _ _ _ _ _)).trans
    (State.putHigh_boots _ _ (by decide))

variable {g : Nat} (hg : isPelGrp g = true) {s}

include hg in
theorem pelGrp_bounds : 2 ≤ g ∧ g < 6 := by
  unfold isPelGrp at hg
  obtain ⟨h2, h6⟩ := Bool.and_eq_true_iff.mp hg
  exact ⟨of_decide_eq_true h2, of_decide_eq_true h6⟩

theorem State.retireMode_supervise (h : s.mode = .supervise) : s.retireMode = s := if_neg (by rw [h]; simp)

include hg in
theorem State.laneRetire_boots (k : Nat) (h : s.mode = .supervise) : s.Boots (s.laneRetire g k) := by
  obtain ⟨h2, h6⟩ := pelGrp_bounds hg
  have huser : isUserGrp g = false := decide_eq_false (by omega)
  unfold State.laneRetire
  extract_lets n a b c
  have ha : s.Boots a := ((s.putLane_boots (n := n) (a := 0x200004) _ rfl (by decide)).trans (State.morRetired_boots _ _ _ _ _)).trans (State.raiseLim_boots _ _ _ _ _)
  have hb : a.Boots b := a.grpSync_boots g
  have hc : b.Boots c := by
    simp only [c, huser, hg, if_true, Bool.false_eq_true, if_false]
    exact .ite (fun _ => b.portRetire_boots _ _) fun _ => State.Flushes.boots (b.portReady_flushes g)
  have hsc := (ha.trans hb).trans hc
  rw [State.retireMode_supervise ((State.Boots.mode hsc).trans h)]
  exact hsc

include hg in
theorem State.laneAnswer_boots (k : Nat) (h : s.mode = .supervise) : s.Boots (s.laneAnswer g k) := by
  obtain ⟨h2, h6⟩ := pelGrp_bounds hg
  unfold State.laneAnswer
  dsimp only
  refine .ite (fun _ => .refl _ _ _) fun _ => .ite (fun _ => s.setGrp_boots _ _) fun _ => ?_
  split
  · exact State.laneRetire_boots hg k h
  · next sp hsp =>
    have hlt : sp < 128 := by
      unfold State.spareLane at hsp
      split at hsp
      · cases hsp
      · cases hsp
        have hspare := s.get_lt (F.GRP_MAP_spare g)
        have hw : s.get (F.GRP_MAP_spare g) < 8 := hspare
        omega
    refine .ite (fun _ => State.laneRetire_boots hg k h) fun _ => ?_
    exact (((s.laneMove_boots _ _ _).trans (State.setGrp_boots _ _ _)).trans (State.laneStart_boots _ hlt)).trans (State.setLane_boots _ _ _)

include hg in
theorem State.laneWaiters_boots (h : s.mode = .supervise) : s.Boots (s.laneWaiters g) :=
  (s.setGrp_boots _ _).trans (foldl_boots (fun _ hu k _ => State.laneAnswer_boots hg k hu) _ h)

include hg in
theorem State.substDone_boots (h : s.mode = .supervise) : s.Boots (s.substDone g) := by
  unfold State.substDone
  split
  · exact .refl _ _ _
  · next x _ =>
    extract_lets n a b y c d e
    have ha : s.Boots a := (s.morSubstituted_boots _ _ _ _).trans (State.raiseLim_boots _ _ _ _ _)
    have hb : a.Boots b := .ite (fun _ => a.oldRetire_boots _ _) fun _ => .refl _ _ _
    have hc : b.Boots c := b.setGrp_boots _ _
    have hd : c.Boots d := c.grpSync_boots g
    have he : d.Boots e := .ite (fun _ => d.pelLaneBack_boots _ _) fun _ => .refl _ _ _
    have hse := ha.trans (hb.trans (hc.trans (hd.trans he)))
    exact hse.trans (State.laneWaiters_boots hg ((State.Boots.mode hse).trans h))

include hg in
theorem State.keptDone_boots (h : s.mode = .supervise) : s.Boots (s.keptDone g) := .ite (fun _ => State.substDone_boots hg h) fun _ => .refl _ _ _

variable {n : Nat} (hn : isPelGrp (n / 5) = true)

include hn

theorem pelLane_lt : n < 128 := by
  have := pelGrp_bounds hn
  omega

theorem State.alignDone_boots (h : s.mode = .supervise) : s.Boots (s.alignDone n) := by
  have hlt := pelLane_lt hn
  unfold State.alignDone
  refine .ite (fun _ => .refl _ _ _) fun _ => .ite (fun _ => ?_) fun _ => ?_
  · exact (State.Enters.boots (s.laneEnter_enters hlt 8)).trans (State.putLane_boots _ (n := n) (a := 0x200004) _ rfl (by decide))
  · have hnine := State.Enters.boots (s.laneEnter_enters hlt 9)
    exact hnine.trans (State.keptDone_boots hn ((State.Boots.mode hnine).trans h))

theorem State.laneRestart_boots : s.Boots (s.laneRestart n) := by
  have hlt := pelLane_lt hn
  unfold State.laneRestart
  extract_lets a b
  have ha : s.Boots a := .ite (fun _ => s.substKeep_boots _) fun _ => .refl _ _ _
  have hb : a.Boots b := (a.putLane_boots (n := n) (a := 0x200004) _ rfl (by decide)).trans (State.putLane_boots _ (n := n) (a := 0x200004) _ rfl (by decide))
  exact .ite (fun _ => .refl _ _ _) fun _ => (ha.trans hb).trans ((b.setLane_boots _ _).trans (State.laneStart_boots _ hlt))

theorem State.laneDisable_boots : s.Boots (s.laneDisable n) := by
  unfold State.laneDisable
  extract_lets g a
  have ha : s.Boots a := .ite (fun _ => s.pelLaneLost_boots _ _) fun _ => .refl _ _ _
  exact ha.trans (a.laneOff_boots (pelLane_lt hn))

theorem State.lanePower_boots (v : Nat) : s.Boots (s.lanePower n v) := by
  have huser : isUserGrp (n / 5) = false := decide_eq_false (by have := pelGrp_bounds hn; omega)
  unfold State.lanePower
  dsimp only
  rw [if_pos (by rw [huser]; exact Or.inl rfl)]
  exact s.putLane_boots (n := n) (a := 0x200004) 1 rfl (by decide)

theorem State.laneSubstitute_boots : s.Boots (s.laneSubstitute n) := by
  have hpel := pelGrp_bounds hn
  unfold State.laneSubstitute
  dsimp only
  split
  · exact .refl _ _ _
  · next sp hsp =>
    have hlt : sp < 128 := by
      unfold State.spareLane at hsp
      split at hsp
      · cases hsp
      · cases hsp
        have hw : s.get (F.GRP_MAP_spare (n / 5)) < 8 := s.get_lt (F.GRP_MAP_spare (n / 5))
        omega
    refine .ite (fun _ => .refl _ _ _) fun _ => ?_
    exact (((s.laneMove_boots _ _ _).trans (State.morSubstituted_boots _ _ _ _ _)).trans (State.oldRetire_boots _ _ _)).trans (State.laneStart_boots _ hlt)

end

theorem State.portTrain_boots (s : State) (g : Nat) : s.Boots (s.portTrain g) :=
  .ite (fun _ => s.putPel_boots (a := 0x280004) (p := g - 2) 1 rfl (by decide)) fun _ => .refl _ _ _

theorem State.grpStart_boots (s : State) {g : Nat} (hg : g < 25) : s.Boots (s.grpStart g) := by
  refine .foldl (fun u i hi => ?_) s
  have := List.mem_range.mp hi
  exact .ite (fun _ => u.laneStart_boots (by omega)) fun _ => .refl _ _ _

theorem State.grpRestart_boots (s : State) {g : Nat} (hg : isPelGrp g = true) : s.Boots (s.grpRestart g) := by
  unfold State.grpRestart
  refine .ite (fun _ => .refl _ _ _) fun _ => (State.Alters.trans (s.substKeep_boots g) (.foldl (fun u i hi => ?_) _)).trans (State.portTrain_boots _ _)
  have := List.mem_range.mp hi
  exact State.laneRestart_boots (by rw [show (5 * g + i) / 5 = g by omega]; exact hg)

theorem State.eyeStart_boots (s : State) (n : Nat) : s.Boots (s.eyeStart n) :=
  .ite (fun _ => .refl _ _ _) fun _ => (s.putLane_boots (n := n) (a := 0x200018) _ rfl (by decide)).trans (State.putLane_boots _ (n := n) (a := 0x200018) _ rfl (by decide))

end Sys2Proof.Machine
end

section
/-! SUPPORT. The settings of the Peloton ports and lanes, and the entry of SUPERVISE (R265, R336, R339, R478). -/

namespace Sys2Proof.Machine

variable {s t u : State}

/-! ## Ports -/

section

variable (s : State) {p : Nat}

theorem State.phaseOut_boots (f : PFrame) : s.Boots (s.phaseOut p f) := by
  unfold State.phaseOut State.inc
  dsimp only
  refine .ite (fun _ => .refl _ _ _) fun _ => .ite (fun _ => s.setPort_boots _ _) fun _ => .ite (fun _ => .refl _ _ _) fun _ => ?_
  exact ((s.setPort_boots _ _).trans (State.Serves.boots (State.pelRecord_serves _ _ _ _ _))).trans (State.putPel_boots _ (a := 0x280034) (p := p) _ rfl (by decide))

theorem State.serve_boots : s.Boots (s.serve p) := State.Serves.boots (s.serve_serves p)

theorem State.holdRelease_boots : s.Boots (s.holdRelease p) := by
  unfold State.holdRelease
  dsimp only
  exact .ite (fun _ => (s.setPort_boots _ _).trans (State.serve_boots _)) fun _ =>
    ((s.setPort_boots _ _).trans (.foldl (fun u f _ => u.phaseOut_boots f) _)).trans (State.serve_boots _)

theorem State.portEnable_boots (hp : p < 4) : s.Boots (s.portEnable p) := by
  have hctl := s.putPel_boots (f := F.PEL_PCTL_enable p) (a := 0x280000) (p := p) 1 rfl (by decide)
  unfold State.portEnable
  refine .ite (fun _ => .refl _ _ _) fun _ => .ite (fun _ => hctl) fun _ => ?_
  exact (hctl.trans (State.putPel_boots _ (a := 0x280004) (p := p) _ rfl (by decide))).trans (State.grpStart_boots _ (by omega))

theorem State.portDisable_boots (hp : p < 4) : s.Boots (s.portDisable p) := by
  have hctl := s.putPel_boots (f := F.PEL_PCTL_enable p) (a := 0x280000) (p := p) 0 rfl (by decide)
  unfold State.portDisable
  refine State.Alters.trans (State.Alters.trans (hctl.trans (.ite (fun _ => .refl _ _ _) fun _ => State.Flushes.boots (State.pelFlush_flushes _ _ _)))
    (State.putPel_boots _ (a := 0x280004) (p := p) _ rfl (by decide))) (.foldl (fun u i hi => .ite (fun _ => .refl _ _ _) fun _ => u.laneOff_boots ?_) _)
  have := List.mem_range.mp hi
  omega

theorem State.ledgerStart_boots : s.Boots (s.ledgerStart p) := by
  unfold State.ledgerStart
  refine .ite (fun _ => .refl _ _ _) fun _ => .ite (fun _ => State.Flushes.boots (s.ledgerEnd_flushes p)) fun _ => ?_
  exact ((State.Flushes.boots (s.ledgerEnd_flushes p)).trans (State.putPel_boots _ (f := F.PEL_PCTL_ledger p) (a := 0x280000) (p := p) 1 rfl (by decide))).trans
    ((State.setPort_boots _ _ _).trans (State.Serves.boots (State.pelMark_serves _ _)))

theorem State.flushWrite_boots : s.Boots (s.flushWrite p) := by
  have hctl := s.putPel_boots (f := F.PEL_PCTL_flush p) (a := 0x280000) (p := p) 1 rfl (by decide)
  exact .ite (fun _ => hctl.trans (State.Flushes.boots (State.pelFlush_flushes _ _ _))) fun _ => hctl

theorem State.handbackWrite_boots : s.Boots s.handbackWrite := .ite (fun _ => State.Flushes.boots (s.mgmtSend_flushes _ _ _)) fun _ => .refl _ _ _

end

/-! ## Writes -/

section

variable (s : State) {off : Nat} (v : Word)

theorem clearOf_high {b : Nat} {fs : List RF} (h : 0x200000 ≤ off) (hc : clearOf off = some (b, fs)) : ∀ f ∈ fs, 0x200000 ≤ f.off := by
  have hlow {a c : Nat} (hc : c ≤ 0x200000) : within a c off = false := by simp [within]; omega
  have hsvc : off ≠ R.SUP_SVC_STS := by simp only [R.SUP_SVC_STS]; omega
  unfold clearOf at hc
  rw [if_neg hsvc, hlow (by decide), hlow (by decide), hlow (by decide), hlow (by decide)] at hc
  simp only [Bool.false_eq_true, if_false] at hc
  have hpage (a b x : Nat) (ha : 0x200000 ≤ a) : 0x200000 ≤ a + b * x := Nat.le_add_right_of_le ha
  split at hc
  · split at hc
    · cases hc
      simp only [List.forall_mem_cons, List.not_mem_nil, false_implies, implies_true, and_true]
      exact ⟨hpage _ _ _ (by decide), hpage _ _ _ (by decide), hpage _ _ _ (by decide), hpage _ _ _ (by decide)⟩
    · cases hc
  · split at hc
    · split at hc
      · cases hc
        simp only [List.forall_mem_cons, List.not_mem_nil, false_implies, implies_true, and_true]
        exact ⟨hpage _ _ _ (by decide), hpage _ _ _ (by decide), hpage _ _ _ (by decide), hpage _ _ _ (by decide)⟩
      · cases hc
    · split at hc
      · cases hc
        decide
      · split at hc
        · cases hc
          decide
        · split at hc
          · cases hc
            decide
          · cases hc

theorem State.clearCounts_boots (h : 0x200000 ≤ off) : s.Boots (s.clearCounts off) := by
  unfold State.clearCounts
  split
  · exact .refl _ _ _
  · next b fs hc =>
    have hspk : (within 0x50000 0x80000 off && decide (off % 0x1000 = 0x3C)) = false := by
      rw [show within 0x50000 0x80000 off = false by simp [within]; omega, Bool.false_and]
    dsimp only
    rw [hspk, if_neg (by decide)]
    exact .foldl (fun u f hf => u.putHigh_boots 0 (Nat.le_trans (by decide) (clearOf_high h hc f hf))) s

theorem State.plainWrite_boots (h : 0x200000 ≤ off) : s.Boots (s.plainWrite off v) := by
  unfold State.plainWrite
  split
  · exact .refl _ _ _
  · exact s.wr_boots _ (bootReg_high (by omega))

theorem State.fieldWrite_boots (h : 0x200000 ≤ off) : s.Boots (s.fieldWrite off v) :=
  .ite (fun _ => (s.plainWrite_boots v h).trans (State.clearCounts_boots _ h)) fun _ => s.plainWrite_boots v h

theorem State.retiredWrite_boots (h : 0x200000 ≤ off) : s.Boots (s.retiredWrite off v) := by
  unfold State.retiredWrite
  split
  · exact .refl _ _ _
  · have hwr (w : Word) := s.wr_boots (off := off) w (bootReg_high (by omega))
    exact .ite (fun _ => (hwr _).trans (State.clearCounts_boots _ h)) fun _ => hwr _

theorem State.grpWrite_boots {g : Nat} (hg : isPelGrp g = true) (h : 0x200000 ≤ off) : s.Boots (s.grpWrite g off v) := by
  have huser : isUserGrp g = false := decide_eq_false (by have := pelGrp_bounds hg; omega)
  unfold State.grpWrite
  dsimp only
  rw [huser, Bool.not_false, Bool.true_or, if_pos rfl]
  exact .ite (fun _ => .ite (fun _ => s.grpRestart_boots hg) fun _ => .refl _ _ _) fun _ => .ite (fun _ => .refl _ _ _) fun _ => s.fieldWrite_boots v h

variable {s}

theorem State.laneWrite_boots {n : Nat} (hn : isPelGrp (n / 5) = true) (h : 0x200000 ≤ off) (hs : s.mode = .supervise) : s.Boots (s.laneWrite n off v) := by
  have hpel := pelGrp_bounds hn
  unfold State.laneWrite
  extract_lets g pw ask keep a b c d e f
  have ha : s.Boots a := s.plainWrite_boots _ h
  have hb : a.Boots b := .ite (fun _ => a.grpStart_boots (by omega)) fun _ => .ite (fun _ => State.laneDisable_boots hn) fun _ => .refl _ _ _
  have hc : b.Boots c := .ite (fun _ => State.lanePower_boots hn _) fun _ => .refl _ _ _
  have hd : c.Boots d := .ite (fun _ => (State.laneRestart_boots hn).trans (State.portTrain_boots _ _)) fun _ => .refl _ _ _
  have he : d.Boots e := .ite (fun _ => .ite (fun _ => d.setLane_boots _ _) fun _ => .refl _ _ _) fun _ => .refl _ _ _
  have hse := ha.trans (hb.trans (hc.trans (hd.trans he)))
  have hf : e.Boots f := .ite (fun _ => .ite (fun _ => State.alignDone_boots hn ((State.Boots.mode hse).trans hs)) fun _ => .refl _ _ _) fun _ => .refl _ _ _
  refine .ite (fun _ => ?_) fun _ => .ite (fun _ => s.fieldWrite_boots _ h) fun _ => .ite (fun _ => ?_) fun _ => s.fieldWrite_boots _ h
  · exact (hse.trans hf).trans (.ite (fun _ => State.laneSubstitute_boots hn) fun _ => .refl _ _ _)
  · exact State.Alters.trans (s.plainWrite_boots v h) (.ite (fun _ => State.eyeStart_boots _ _) fun _ => .refl _ _ _)

theorem State.pelWrite_boots {p : Nat} (hp : p < 4) (h : 0x200000 ≤ off) : s.Boots (s.pelWrite p off v) := by
  unfold State.pelWrite
  refine .ite (fun _ => ?_) fun _ => .ite (fun _ => .ite (fun _ => .refl _ _ _) fun _ => s.fieldWrite_boots v h) fun _ =>
    .ite (fun _ => s.fieldWrite_boots _ h) fun _ => .ite (fun _ => ?_) fun _ => s.fieldWrite_boots v h
  · extract_lets a b c d
    have ha : s.Boots a := s.plainWrite_boots _ h
    have hb : a.Boots b := a.holdRelease_boots
    have hc : b.Boots c := .ite (fun _ => b.portEnable_boots hp) fun _ => .ite (fun _ => b.portDisable_boots hp) fun _ => .refl _ _ _
    have hd : c.Boots d := .ite (fun _ => c.ledgerStart_boots) fun _ => .refl _ _ _
    exact (ha.trans (hb.trans (hc.trans hd))).trans (.ite (fun _ => d.flushWrite_boots) fun _ => .refl _ _ _)
  · exact State.Alters.trans (.ite (fun _ => State.Enrols.boots s.pelEnumerate_enrols) fun _ => .refl _ _ _)
      (.ite (fun _ => State.handbackWrite_boots _) fun _ => .refl _ _ _)

/-- A register that the supervisor writes from the settings. -/
theorem State.regWrite_boots (h : 0x200000 ≤ off) (hhigh : off < 0x290000 ∨ off = R.PWR_CAP) (hgrp : off < 0x280000 → isPelGrp (offGroup off) = true)
    (hs : s.mode = .supervise) : s.Boots (s.regWrite off v) := by
  have hlow {a c : Nat} (hc : c ≤ 0x200000) : within a c off = false := by simp [within]; omega
  have hcap : R.PWR_CAP = 0x2E0000 := rfl
  have hup {a c : Nat} (ha : 0x290000 ≤ a) (hc : c ≤ 0x2E0000) : within a c off = false := by
    simp [within]
    omega
  have hsvc : off ≠ R.SUP_SVC_CFG := by simp only [R.SUP_SVC_CFG]; omega
  unfold State.regWrite
  rw [hlow (a := 0x10000) (by decide), hlow (a := 0x90000) (by decide), hlow (a := 0x20000) (by decide), hlow (a := 0x40000) (by decide),
    hlow (a := 0x50000) (by decide), hlow (a := 0x80000) (by decide), hlow (a := 0xA0000) (by decide), hlow (a := 0x100000) (by decide),
    hup (a := 0x2C0100) (by decide) (by decide), hup (a := 0x2D0000) (by decide) (by decide), if_neg hsvc]
  simp only [Bool.false_eq_true, if_false]
  refine .ite (fun _ => .refl _ _ _) fun _ => .ite (fun _ => s.retiredWrite_boots v h) fun _ => .ite (fun hl => ?_) fun hl => .ite (fun hl => ?_) fun _ =>
    .ite (fun hl => ?_) fun _ => s.fieldWrite_boots v h
  · have hin : 0x200000 ≤ off ∧ off < 0x23C000 := by simpa [within] using hl
    have hgroup : offGroup off = pageSlot 0x200000 0x1000 off / 5 := by
      unfold offGroup
      rw [if_neg (by simp [within]; omega), if_pos hl]
    exact State.laneWrite_boots v (hgroup ▸ hgrp (by omega)) h hs
  · have hin : 0x240000 ≤ off ∧ off < 0x24C000 := by simpa [within] using hl
    have hgroup : offGroup off = pageSlot 0x240000 0x1000 off := if_pos hl
    exact s.grpWrite_boots v (hgroup ▸ hgrp (by omega)) h
  · have hin : 0x280000 ≤ off ∧ off < 0x284000 := by simpa [within] using hl
    refine State.pelWrite_boots v ?_ h
    unfold pageSlot
    omega

end

theorem State.applyList_boots (s : State) {l : List (Nat × Word)} {q : Nat → Bool}
    (h : ∀ off, q off = true → 0x200000 ≤ off ∧ (off < 0x290000 ∨ off = R.PWR_CAP) ∧ (off < 0x280000 → isPelGrp (offGroup off) = true)) (hs : s.mode = .supervise) :
    s.Boots (s.applyList l q) := by
  refine foldl_boots (fun u hu e he => ?_) s hs
  obtain ⟨hlo, hhi, hg⟩ := h e.1 (List.mem_filter.mp he).2
  exact State.regWrite_boots e.2 hlo hhi hg hu

theorem pelOff_bounds {off : Nat} (h : isPelGrp (offGroup off) = true) : 0x200000 ≤ off ∧ off < 0x24C000 := by
  unfold offGroup at h
  by_cases hg : within 0x240000 0x24C000 off = true
  · have : 0x240000 ≤ off ∧ off < 0x24C000 := by simpa [within] using hg
    omega
  · rw [if_neg hg] at h
    by_cases hl : within 0x200000 0x23C000 off = true
    · have : 0x200000 ≤ off ∧ off < 0x23C000 := by simpa [within] using hl
      omega
    · rw [if_neg hl] at h
      cases h

theorem State.superviseSettings_boots (s : State) (hs : s.mode = .supervise) : s.Boots s.superviseSettings := by
  unfold State.superviseSettings
  extract_lets l a ports b c
  have ha : s.Boots a := s.applyList_boots (fun off h => ⟨(pelOff_bounds h).1, Or.inl (Nat.lt_trans (pelOff_bounds h).2 (by decide)), fun _ => h⟩) hs
  have hb : a.Boots b := a.applyList_boots (fun off h => by
    have hin : 0x280000 ≤ off ∧ off < 0x290000 := by simpa [within] using h
    exact ⟨by omega, Or.inl hin.2, fun hlt => absurd hlt (by omega)⟩) ((State.Boots.mode ha).trans hs)
  have hcap : b.Boots (b.applyList (listEntries l 6) fun o => o == R.PWR_CAP) := b.applyList_boots (fun off h => by
    have heq : off = R.PWR_CAP := beq_iff_eq.mp h
    exact ⟨by rw [heq]; decide, Or.inr heq, fun hlt => absurd hlt (by rw [heq]; decide)⟩) ((State.Boots.mode (ha.trans hb)).trans hs)
  have hupd (u : State) : u.Boots u.capUpdate := (u.putHigh_boots _ (by decide)).trans (State.putHigh_boots _ _ (by decide))
  exact ((ha.trans hb).trans (hcap.trans (hupd _))).trans (.foldl (fun u p _ => State.Flushes.boots (u.portReady_flushes _)) c)

/-! ## Straps, media and roles -/

section

variable (s : State)

theorem State.putB_boots {f : RF} (b : Bool) (h : bootReg f.off = BitVec.allOnes 32) : s.Boots (s.putB f b) := s.put_boots _ h

theorem State.fuseShow_boots : s.Boots s.fuseShow := by
  have hput (u : State) {f : RF} (v : Nat) (h : bootReg f.off = BitVec.allOnes 32) : u.Boots (u.put f v) := u.put_boots v h
  have hwr (u : State) {off : Nat} (v : Word) (h : bootReg off = BitVec.allOnes 32) : u.Boots (u.wr off v) := u.wr_boots v h
  exact ((((((hput _ _ rfl).trans (hput _ _ rfl)).trans (hput _ _ rfl)).trans (hput _ _ rfl)).trans (hput _ _ rfl)).trans (hwr _ _ rfl)).trans (hwr _ _ rfl)

theorem State.readMedia_boots : s.Boots s.readMedia := by
  have hput (u : State) {f : RF} (v : Nat) (h : bootReg f.off = BitVec.allOnes 32) : u.Boots (u.put f v) := u.put_boots v h
  have hraise (u : State) (c : Bool) (id param : Nat) : u.Boots (if c = true then u.raise id param else u) := .ite (fun _ => u.raise_boots _ _) fun _ => .refl _ _ _
  unfold State.readMedia
  exact ((((hput _ _ rfl).trans (hput _ _ rfl)).trans (hraise _ _ _ _)).trans ((hput _ _ rfl).trans (hput _ _ rfl))).trans (hraise _ _ _ _)

theorem State.mapShow_boots : s.Boots s.mapShow := by
  have hput (u : State) {f : RF} (v : Nat) (h : bootReg f.off = BitVec.allOnes 32) : u.Boots (u.put f v) := u.put_boots v h
  exact ((hput _ _ rfl).trans (hput _ _ rfl)).trans ((hput _ _ rfl).trans (hput _ _ rfl))

theorem State.retiredFromBooks_boots : s.Boots s.retiredFromBooks := by
  have hput (u : State) {f : RF} (v : Nat) (h : bootReg f.off = BitVec.allOnes 32) : u.Boots (u.put f v) := u.put_boots v h
  exact (((hput _ _ rfl).trans (hput _ _ rfl)).trans (hput _ _ rfl)).trans (((hput _ _ rfl).trans (hput _ _ rfl)).trans (hput _ _ rfl))

theorem State.pcieLanes_boots (ready : List Nat) : s.Boots (s.pcieLanes ready) := by
  refine State.Alters.trans (.foldl (fun u n _ => .ite (fun _ => .refl _ _ _) fun _ => ?_) s) (.foldl (fun u g _ => u.grpSync_boots g) _)
  exact (State.Enters.boots (u.scanAbort_enters n)).trans (State.putLane_boots _ (n := n) (a := 0x200004) _ rfl (by decide))

theorem State.grpApply_boots (g : Nat) : s.Boots (s.grpApply g) := by
  have hmap (u : State) (lo w v : Nat) : u.Boots (u.put ⟨R.GRP_MAP g, lo, w⟩ v) := u.putHigh_boots v (Nat.le_add_right_of_le (by decide))
  have hlane (u : State) (n v : Nat) : u.Boots (u.put (F.LANE_STS_logical n) v) := u.putLane_boots (n := n) (a := 0x200004) v rfl (by decide)
  unfold State.grpApply
  exact State.Alters.trans (State.Alters.trans (State.Alters.trans (.foldl (fun u k _ => hmap u _ _ _) s) ((hmap _ _ _ _).trans (hmap _ _ _ _)))
    (.foldl (fun u i _ => hlane u _ _) _)) (State.grpSync_boots _ g)

theorem State.groupRoles_boots : s.Boots s.groupRoles := by
  have hgrp (u : State) {f : RF} {a g : Nat} (v : Nat) (hf : f.off = a + 0x1000 * g) (ha : 0x20008 ≤ a) : u.Boots (u.put f v) := u.putHigh_boots v (by omega)
  unfold State.groupRoles
  extract_lets a b c
  have ha : s.Boots a := .foldl (fun u g _ => ((hgrp u (f := F.GRP_CTL_enable g) (a := R.GRP_CTL 0) (g := g) _ (by simp [F.GRP_CTL_enable, R.GRP_CTL]) (by decide)).trans
    (hgrp _ (f := F.GRP_RATE_rate g) (a := R.GRP_RATE 0) (g := g) _ (by simp [F.GRP_RATE_rate, R.GRP_RATE]) (by decide))).trans
    (hgrp _ (f := F.GRP_REF_ref_khz g) (a := R.GRP_REF 0) (g := g) _ (by simp [F.GRP_REF_ref_khz, R.GRP_REF]) (by decide))) s
  have hb : a.Boots b := .foldl (fun u p _ => (u.wr_boots _ (bootReg_high (Nat.le_add_right_of_le (by decide)))).trans
    (hgrp _ (f := F.GRP_RATE_rate (p + 2)) (a := R.GRP_RATE 0) (g := p + 2) _ (by simp [F.GRP_RATE_rate, R.GRP_RATE]) (by decide))) a
  have hc : b.Boots c := .ite (fun _ => .refl _ _ _) fun _ => b.pcieLanes_boots _
  exact (ha.trans (hb.trans hc)).trans (.foldl (fun u g _ => u.grpApply_boots g) c)

theorem State.strapPulls_boots : s.Boots s.strapPulls :=
  .foldl (fun u k _ => .foldl (fun w p _ => w.putHigh_boots _ (by simp only [F.SPK_PAD_pull, R.SPK_PAD]; omega)) u) s

end

end Sys2Proof.Machine
end

section
/-! SUPPORT. What SUPERVISE leads to (R19, R23, R25, R29): SUPERVISE itself, HOLD or LOAD, with what its entry leaves alone. -/

namespace Sys2Proof.Machine

variable {s t u : State}

/-- No load goes on and no command waits. -/
def State.unloaded (s : State) : Prop :=
  s.ldr.load = none ∧ s.ldr.regionLoad = none ∧ s.ldr.acts = [] ∧ s.hif.accepted = [] ∧ s.hif.running = []

/-- What is left once SUPERVISE has gone on to where it leads. -/
structure State.Supervised (s t : State) : Prop where
  mode : t.mode = .supervise ∨ t.mode = .hold ∨ t.mode = .load
  units : t.units = s.units
  nor : t.nor = s.nor
  kept : ∀ off, bootReg off = 0 → t.rd off = s.rd off
  free : s.unloaded → t.hif.accepted = [] ∧ t.hif.running = []

theorem bootReg_offsets {off : Nat} (h : bootReg off = 0) : off = R.SUP_TIME_LO ∨ off = R.SUP_TIME_HI ∨ off = R.SUP_RESET ∨ off = R.HIF_STS := by
  unfold bootReg at h
  split at h
  · assumption
  · exact absurd h (by decide)

theorem workReg_boot {off : Nat} (h : bootReg off = 0) : workReg off = 0 ∧ holdReg off = 0 ∧ off ≠ R.SUP_MODE ∧ off ≠ R.LDR_STS := by
  rcases bootReg_offsets h with rfl | rfl | rfl | rfl <;> exact ⟨rfl, rfl, by decide, by decide⟩

theorem State.Winds.waiting (h : s.Winds t) : t.hif.accepted = s.hif.accepted ∧ t.hif.running = s.hif.running :=
  ⟨(congrArg (fun u : State => u.hif.accepted) h.part :), (congrArg (fun u : State => u.hif.running) h.part :)⟩

theorem State.Powers.waiting (h : s.Powers t) : t.hif.accepted = s.hif.accepted ∧ t.hif.running = s.hif.running :=
  ⟨(congrArg (fun u : State => u.hif.accepted) h.part :), (congrArg (fun u : State => u.hif.running) h.part :)⟩

theorem State.Supervised.of_winds (hm : s.mode = .supervise) (h : s.Winds t) : s.Supervised t :=
  ⟨Or.inl ((State.Winds.mode h).trans hm), State.Winds.units h, (congrArg State.nor h.part :), fun _ hoff => h.rd (workReg_boot hoff).1,
    fun ⟨_, _, _, ha, hr⟩ => ⟨(State.Winds.waiting h).1.trans ha, (State.Winds.waiting h).2.trans hr⟩⟩

/-! ## HOLD -/

theorem State.endRegions_idle (h : s.unloaded) (hold : Bool) : s.endRegions hold = s.setLdr { s.ldr with acts := [] } := by
  obtain ⟨_, hregion, hacts, _, _⟩ := h
  have hnone : s.endRegionLoad hold = s := by rw [State.endRegionLoad, hregion]
  unfold State.endRegions
  rw [hnone, hacts]
  rfl

theorem State.worksEnd_idle (h : s.unloaded) : s.worksEnd.hif.accepted = [] ∧ s.worksEnd.hif.running = [] := by
  have hfull : s.endFullLoad = s := by rw [State.endFullLoad, h.1]
  unfold State.worksEnd
  rw [hfull, s.endRegions_idle h]
  obtain ⟨_, _, _, ha, hr⟩ := h
  unfold State.endAskedLoads
  dsimp only
  have hset : (s.setLdr { s.ldr with acts := [] }).hif = s.hif := rfl
  rw [hset, ha]
  exact ⟨rfl, hr⟩

/-- Without a command that runs the end of a test answers none. -/
theorem State.bistEnd_winds (h : s.hif.running = []) : s.Winds s.bistEnd := by
  unfold State.bistEnd
  extract_lets a b c l
  have hb : s.Winds b := by
    simp only [b]
    split
    · exact State.Clears.winds (s.bistCut_clears.trans (State.keepTest_clears _ _))
    · exact State.Clears.winds s.bistCut_clears
  have hc : s.Winds c := hb.trans (State.Clears.winds (State.bistStop_clears b))
  have hl : l = [] := by simp only [l, (State.Winds.waiting hc).2, h, List.filter_nil]
  rw [hl]
  exact hc

theorem State.enterHold_supervised (hm : s.mode = .supervise) {cause : Nat} (hc : cause < 16) : s.Supervised (s.enterHold cause false false) := by
  by_cases hl : s.latched = true
  · rw [show s.enterHold cause false false = s from if_pos (Or.inr hl)]
    exact .of_winds hm (.refl _ _ _)
  · have hlat : s.latched = false := Bool.eq_false_iff.mpr hl
    have hhold := State.enterHold_spec (s := s) (by rw [hm]; decide) hlat (by rw [hm]; decide) hc false false
    have hrest := hhold.rest
    refine ⟨Or.inr (Or.inl hhold.mode), (congrArg State.units hrest.part :), (congrArg State.nor hrest.part :), fun _ hoff => hrest.rd (workReg_boot hoff).2.1, fun hidle => ?_⟩
    rw [s.enterHold_eq (by rw [hm]; decide) hlat (by rw [hm]; decide)]
    generalize (false || s.mode == .supervise || (s.mode == .load && ! s.gsrDone)) = reset
    obtain ⟨ha, hr⟩ := s.worksEnd_idle hidle
    have hmode : (s.worksEnd.modeHold cause).hif = s.worksEnd.hif := rfl
    have hgone : (s.worksEnd.modeHold cause).Winds ((s.worksEnd.modeHold cause).regionsHold reset) := by
      have hfirst : (s.worksEnd.modeHold cause).Winds (if reset then (s.worksEnd.modeHold cause).holdReset else (s.worksEnd.modeHold cause).holdFreeze.grmHold) :=
        .ite (fun _ => State.holdReset_winds _) fun _ => State.Clears.winds ((State.holdFreeze_clears _).trans (State.grmHold_clears _))
      exact hfirst.trans (State.bistEnd_winds ((State.Winds.waiting hfirst).2.trans (hmode ▸ hr)))
    obtain ⟨ga, gr⟩ := State.Winds.waiting hgone
    obtain ⟨ca, cr⟩ := State.Powers.waiting (((s.worksEnd.modeHold cause).regionsHold reset).coreHold_powers false)
    obtain ⟨oa, or⟩ := State.Winds.waiting (State.Clears.winds ((((s.worksEnd.modeHold cause).regionsHold reset).coreHold false).outputsHold_clears (s.mode == .load) s.gsrDone s.outDone))
    exact ⟨oa.trans (ca.trans (ga.trans (hmode ▸ ha))), or.trans (cr.trans (gr.trans (hmode ▸ hr)))⟩

/-! ## The autoload -/

theorem State.loadRefused_winds (s : State) : s.Winds s.loadRefused := (s.ldrError_winds _ _).trans (State.Clears.winds (State.raise_clears _ _ _))

theorem State.setMode_rd (s : State) (m : Mode) {off : Nat} (h : off ≠ R.SUP_MODE) : (s.setMode m).rd off = s.rd off := by
  unfold State.setMode State.inc
  dsimp only
  split
  · rw [State.rd_put_ne _ _ _ _ h, State.rd_put_ne _ _ _ _ h]
    rfl
  · rw [State.rd_put_ne _ _ _ _ h, State.rd_put_ne _ _ _ _ h, State.rd_put_ne _ _ _ _ h]
    rfl

/-- The entry into LOAD for a full load, once the region commands have ended. -/
theorem State.beginFull_begins (s : State) {source : BitVec 2} {store : Bool} {src : Option CmdSrc} (hl : s.latched = false) (hm : s.loadMissing (source == 3) = false) :
    ∃ l, s.beginFull source store src = (((s.endRegions false).setMode .load).put F.LDR_STS_phases 0).setLoad (some l) ∧ l.step = .entered ∧ l.src = src ∧
      l.source = source := by
  unfold State.beginFull
  rw [if_neg (Bool.eq_false_iff.mp hl), if_neg (Bool.eq_false_iff.mp hm)]
  exact ⟨_, rfl, rfl, rfl, rfl⟩

theorem State.beginFull_supervised (hm : s.mode = .supervise) : s.Supervised (s.beginFull 1 false none) := by
  by_cases hl : s.latched = true
  · rw [show s.beginFull 1 false none = s from if_pos hl]
    exact .of_winds hm (.refl _ _ _)
  · by_cases hmiss : s.loadMissing ((1 : BitVec 2) == 3) = true
    · have href : s.beginFull 1 false none = s.loadRefused := by
        unfold State.beginFull
        rw [if_neg hl, if_pos hmiss]
        rfl
      rw [href]
      exact .of_winds hm s.loadRefused_winds
    · obtain ⟨l, heq, _⟩ := s.beginFull_begins (source := 1) (store := false) (src := none) (Bool.eq_false_iff.mpr hl) (Bool.eq_false_iff.mpr hmiss)
      have hend := State.Halts.holds (s.endRegions_halts false)
      have hidle (h : s.unloaded) : (s.endRegions false).hif = s.hif := by rw [s.endRegions_idle h]; rfl
      rw [heq]
      generalize s.endRegions false = w at hend hidle ⊢
      have hset : (w.setMode .load).units = w.units ∧ (w.setMode .load).nor = w.nor ∧ (w.setMode .load).hif = w.hif := ⟨rfl, rfl, rfl⟩
      have hmode : (w.setMode .load).mode = .load := w.setMode_mode .load
      have hrd {off : Nat} (h : off ≠ R.SUP_MODE) : (w.setMode .load).rd off = w.rd off := w.setMode_rd .load h
      generalize w.setMode .load = v at hset hmode hrd ⊢
      obtain ⟨hunits, hnor, hhif⟩ := hset
      refine ⟨Or.inr (Or.inr hmode), hunits.trans (congrArg State.units hend.part :), hnor.trans (congrArg State.nor hend.part :), fun off hoff => ?_, fun h => ?_⟩
      · obtain ⟨_, hh, hsup, hldr⟩ := workReg_boot hoff
        exact (State.rd_put_ne _ _ _ _ hldr).trans ((hrd hsup).trans (hend.rd hh))
      · obtain ⟨_, _, _, ha, hr⟩ := id h
        show v.hif.accepted = [] ∧ v.hif.running = []
        rw [hhif, hidle h]
        exact ⟨ha, hr⟩

/-! ## SUPERVISE -/

theorem State.Supervised.of_boots (h : s.Boots t) (g : t.Supervised u) : s.Supervised u := by
  have hp := h.part
  refine ⟨g.mode, g.units.trans (congrArg (fun x => x.2.1) hp :), g.nor.trans (congrArg (fun x => x.2.2.1) hp :), fun off hoff => (g.kept off hoff).trans (h.rd hoff), fun hi => ?_⟩
  obtain ⟨hload, hregion, hacts, ha, hr⟩ := hi
  have hldr : t.ldr = s.ldr := (congrArg (fun x => x.2.2.2.1) hp :)
  exact g.free ⟨by rw [hldr, hload], by rw [hldr, hregion], by rw [hldr, hacts], (congrArg (fun x => x.2.2.2.2.1) hp :).trans ha, (congrArg (fun x => x.2.2.2.2.2) hp :).trans hr⟩

theorem State.supervise_spec (s : State) (cold good : Bool) : ({ s with mode := .supervise } : State).Supervised (s.supervise cold good) := by
  unfold State.supervise
  extract_lets a b c d out e f none
  have hm : a.mode = .supervise := rfl
  have hput (u : State) (v : Nat) (lo w : Nat) : u.Boots (u.put ⟨R.SUP_MODE, lo, w⟩ v) := u.put_boots v rfl
  have hb : a.Boots b := (hput a _ _ _).trans (hput _ _ _ _)
  have hc : b.Boots c := (b.fuseShow_boots.trans (State.readMedia_boots _)).trans (State.mapShow_boots _)
  have hd : c.Boots d := .ite (fun _ => (c.setFlt_boots _).trans (State.retiredFromBooks_boots _)) fun _ => .refl _ _ _
  have he : d.Boots e := .ite (fun _ => (hput _ _ _ _).trans (hput _ _ _ _)) fun _ => .refl _ _ _
  have hroles : a.Boots e.groupRoles.strapPulls := ((hb.trans hc).trans (hd.trans he)).trans (e.groupRoles_boots.trans (State.strapPulls_boots _))
  have hf : a.Boots f := hroles.trans (State.superviseSettings_boots _ ((State.Boots.mode hroles).trans hm))
  have hmf : f.mode = .supervise := (State.Boots.mode hf).trans hm
  clear_value f
  have hlog (k : LogKind) : f.Boots (f.logAdd k) := ⟨fun _ _ _ => rfl, ⟨_, rfl⟩, rfl⟩
  split
  · have hg : f.Boots (if autoloadOn f.settings ∧ ! none then f.logAdd (.outranked Mode.load.code) else f) := .ite (fun _ => hlog _) fun _ => .refl _ _ _
    exact .of_boots (hf.trans hg) (State.enterHold_supervised ((State.Boots.mode hg).trans hmf) (by decide))
  · split
    · exact .of_boots hf (State.enterHold_supervised hmf (by decide))
    · split
      · exact .of_boots hf (State.beginFull_supervised hmf)
      · exact .of_boots hf (.of_winds hmf (.refl _ _ _))

end Sys2Proof.Machine
end

section
/-! SUPPORT. COLD, and the start from it (R18, R19, R23, R464). -/

namespace Sys2Proof.Machine

variable {s t u : State}

/-! ## The log of an answer -/

@[simp] theorem State.msixSend_log (s : State) (v : Nat) : (s.msixSend v).log = s.log := by
  unfold State.msixSend
  split <;> rfl

@[simp] theorem State.ringEntry_log (s : State) (n : Nat) : (s.ringEntry n).log = s.log := by
  unfold State.ringEntry
  dsimp only
  split
  · exact State.msixSend_log _ _
  · rfl

@[simp] theorem State.ringAdvance_log (s : State) (n : Nat) : (s.ringAdvance n).log = s.log := by
  unfold State.ringAdvance
  split <;> rfl

theorem State.ringWrite_log (s : State) (n flagOff : Nat) (entry : List Byte) : (s.ringWrite n flagOff entry).log = s.log := by
  unfold State.ringWrite
  dsimp only
  rw [State.ringEntry_log]
  exact State.ringAdvance_log _ n

@[simp] theorem State.print_log (s : State) (ls : List ConOut) : (s.print ls).log = s.log := by
  unfold State.print
  split <;> rfl

theorem State.conAnswer_log (s : State) (name status detail : Nat) : (s.conAnswer name status detail).log = s.log := by
  unfold State.conAnswer
  dsimp only
  split
  · exact s.print_log _
  · rw [State.print_log]
    split <;> rfl

/-- An answer is no entry of the fault log. -/
theorem State.deliver_log (s : State) (c : Completion) : (s.deliver c).log = s.log := by
  unfold State.deliver
  dsimp only
  split
  · exact State.ringWrite_log _ _ _ _
  · split
    · exact State.conAnswer_log _ _ _ _
    · rfl
  · exact State.conAnswer_log _ _ _ _
  · rfl

theorem State.complete_log (s : State) (src : CmdSrc) (status detail res0 res1 : Nat) : (s.complete src status detail res0 res1).log = s.log := by
  unfold State.complete
  rw [apply_ite State.log, State.deliver_log]
  exact ite_self _

/-! ## The loads asked for -/

theorem State.time_of_rd (h : ∀ off, off < 0x20000 → t.rd off = s.rd off) : t.time = s.time := by
  rw [State.time, h R.SUP_TIME_LO (by decide), h R.SUP_TIME_HI (by decide), State.time]

theorem State.Answers.rd_out (h : s.Answers t) {off : Nat} (ho : off < 0x20008 ∨ 0x30000 ≤ off) : t.rd off = s.rd off := h.rd (hostPage_out ho)

/-- A load asked for is recorded as outranked and answered. -/
theorem State.outranked_answers (s : State) (c : AdminCmd) : s.Answers ((s.logAdd (.outranked Mode.load.code)).complete c.src 7 0x13) := by
  have hlog : s.Answers (s.logAdd (.outranked Mode.load.code)) := ⟨fun _ _ _ => rfl, ⟨_, rfl⟩, rfl⟩
  exact hlog.trans (State.complete_answers _ _ _ _ _ _)

theorem State.outranked_log (l : List AdminCmd) (s : State) :
    (l.foldl (fun u c => (u.logAdd (.outranked Mode.load.code)).complete c.src 7 0x13) s).log = s.log ++ l.map fun _ => ⟨.outranked 2, s.time⟩ := by
  induction l generalizing s with
  | nil => simp
  | cons c l ih =>
    have htime := State.time_of_rd (s := s) fun off ho => (s.outranked_answers c).rd_out (Or.inl (Nat.lt_trans ho (by decide)))
    rw [List.foldl_cons, ih, htime, State.complete_log, List.map_cons, List.append_cons]
    rfl

/-- The state without the loads that its host has asked for. -/
def State.sansAsked (s : State) : State := s.setHif { s.hif with accepted := s.hif.accepted.filter fun c => ! (c.d.opcode == 0x10) }

theorem State.endAskedLoads_eq (s : State) : s.endAskedLoads =
    (s.hif.accepted.filter fun c => c.d.opcode == 0x10).foldl (fun u c => (u.logAdd (.outranked Mode.load.code)).complete c.src 7 0x13) s.sansAsked := rfl

theorem State.endAskedLoads_log (s : State) :
    s.endAskedLoads.log = s.log ++ (s.hif.accepted.filter fun c => c.d.opcode == 0x10).map fun _ => ⟨.outranked 2, s.time⟩ := by
  rw [s.endAskedLoads_eq, State.outranked_log]
  rfl

theorem State.endAskedLoads_answers (s : State) : s.sansAsked.Answers s.endAskedLoads := by
  rw [s.endAskedLoads_eq]
  exact .foldl (fun u c _ => u.outranked_answers c) _

/-! ## COLD -/

theorem State.toCold_kept {β : Type} (p : State → β) (hp : ∀ (u : State) (b v : Nat), p (u.put (F.BANK_CFG_vio b) v) = p u) (s : State) :
    p s.toCold = p { State.reset with
      pending := s.endAskedLoads.pending, fuses := s.endAskedLoads.fuses, nor := s.endAskedLoads.nor, norSize := s.endAskedLoads.norSize
      log := s.endAskedLoads.log, con := { ({} : Console) with out := s.endAskedLoads.con.out }
      hif := { ({} : Hif) with writes := s.endAskedLoads.hif.writes, msix := s.endAskedLoads.hif.msix }
      pel := { ({} : Pel) with sent := s.endAskedLoads.pel.sent }, lane := s.endAskedLoads.laneSent false
      readData := s.endAskedLoads.readData, frameData := s.endAskedLoads.frameData, freeCtr := s.endAskedLoads.freeCtr } :=
  foldl_kept p (fun u b _ => hp u b _) _

theorem State.toCold_fuses (s : State) : s.toCold.fuses = s.fuses :=
  (State.toCold_kept State.fuses (fun _ _ _ => rfl) s).trans (congrArg State.fuses s.endAskedLoads_answers.part :)

theorem State.toCold_nor (s : State) : s.toCold.nor = s.nor :=
  (State.toCold_kept State.nor (fun _ _ _ => rfl) s).trans (congrArg State.nor s.endAskedLoads_answers.part :)

theorem State.toCold_log (s : State) :
    s.toCold.log = s.log ++ (s.hif.accepted.filter fun c => c.d.opcode == 0x10).map fun _ => ⟨.outranked 2, s.time⟩ :=
  (State.toCold_kept State.log (fun _ _ _ => rfl) s).trans s.endAskedLoads_log

theorem State.toCold_works (s : State) : s.toCold.ldr = {} ∧ s.toCold.hif.accepted = [] ∧ s.toCold.hif.running = [] :=
  ⟨State.toCold_kept State.ldr (fun _ _ _ => rfl) s, State.toCold_kept (fun u => u.hif.accepted) (fun _ _ _ => rfl) s,
    State.toCold_kept (fun u => u.hif.running) (fun _ _ _ => rfl) s⟩

theorem State.toCold_rd (s : State) {off : Nat} (h : ∀ b : Fin 8, off ≠ R.BANK_CFG b) : s.toCold.rd off = regReset off := by
  unfold State.toCold
  refine (foldl_kept (fun u => u.rd off) (fun u b hb => ?_) _).trans rfl
  exact State.rd_put_ne _ _ _ _ (h ⟨b, List.mem_range.mp hb⟩)

/-- The supply of a bank stays. -/
theorem State.toCold_vio (s : State) (b : Fin 8) : s.toCold.get (F.BANK_CFG_vio b) = s.get (F.BANK_CFG_vio b) := by
  have hne {a : Nat} (h : a ≠ b.val) : (F.BANK_CFG_vio a).apart (F.BANK_CFG_vio b) = true := apart_off (by simp only [F.BANK_CFG_vio, R.BANK_CFG]; omega)
  unfold State.toCold
  dsimp only
  obtain ⟨l, -, hl⟩ := foldl_turn (fun u : State => u.get (F.BANK_CFG_vio b)) (List.mem_range.mpr b.isLt) List.nodup_range
    (fun u a _ ha => State.get_put_apart u (s.endAskedLoads.get (F.BANK_CFG_vio a)) (hne ha)) _
  refine hl.trans ?_
  rw [State.get_put_lt _ rfl (State.get_lt _ _)]
  exact State.get_of_rd ((s.endAskedLoads_answers.rd_out (Or.inr (Nat.le_add_right_of_le (by decide)))).trans rfl)

theorem completes_vinStop (vin : BitVec 16) (s : State) (hv : vin.toNat ≤ 4900) :
    Completes (.vinStop vin) s (fun t => t.mode = .cold ∧ t.fuses = s.fuses ∧ t.nor = s.nor ∧
      (∀ off, (∀ b : Fin 8, off ≠ R.BANK_CFG b) → t.rd off = regReset off) ∧
      (∀ b : Fin 8, t.get (F.BANK_CFG_vio b) = s.get (F.BANK_CFG_vio b)) ∧
      t.log = s.log ++ (s.hif.accepted.filter (fun c => c.d.opcode == 0x10)).map (fun _ => ⟨.outranked 2, s.time⟩)) :=
  ⟨_, congrArg Host.Outcome.next (if_pos hv), s.toCold_mode, s.toCold_fuses, s.toCold_nor, fun _ h => s.toCold_rd h, s.toCold_vio, s.toCold_log⟩

theorem completes_vinStop_above (vin : BitVec 16) (s : State) (hv : 4900 < vin.toNat) : Completes (.vinStop vin) s (fun t => t = s) :=
  ⟨_, congrArg Host.Outcome.next (if_neg (Nat.not_le.mpr hv)), rfl⟩

theorem completes_undervoltage_above (vin : BitVec 16) (s : State) (hv : 5600 < vin.toNat) : Completes (.undervoltage vin) s (fun t => t = s) :=
  ⟨_, if_pos (Or.inr (Or.inr hv)), rfl⟩

/-! ## VIN_START -/

theorem getLsbD_unless (c : Bool) (x m : BitVec 11) (u : Fin 11) : (if c then x else x &&& ~~~ m).getLsbD u = (x.getLsbD u && (c || ! m.getLsbD u)) := by
  cases c
  · simp
  · simp

/-- The units that the rails and the strap leave. -/
theorem unitsWorking_eq (p : PowerUp) :
    let a := if p.rail33 then p.units else p.units &&& ~~~ 2
    let b := if p.rail09 && p.rail12 then a else a &&& ~~~ 0x40C
    unitsWorking p = if ! p.vsel || b.getLsbD 1 then b else b &&& ~~~ 1 := by
  intro a b
  show (if (p.vsel && ! b.getLsbD 1) = true then b &&& ~~~ 1 else b) = _
  cases p.vsel
  · rfl
  · cases b.getLsbD 1
    · rfl
    · rfl

theorem unitsWorking_getLsbD (p : PowerUp) (u : Fin 11) : (unitsWorking p).getLsbD u = (p.units.getLsbD u && (u.val != 1 || p.rail33) &&
    (! [2, 3, 10].contains u.val || (p.rail09 && p.rail12)) && (u.val != 0 || ! p.vsel || (p.units.getLsbD 1 && p.rail33))) := by
  have h0 : ∀ u : Fin 11, (! (1 : BitVec 11).getLsbD u) = (u.val != 0) := by decide
  have h1 : ∀ u : Fin 11, (! (2 : BitVec 11).getLsbD u) = (u.val != 1) := by decide
  have hlane : ∀ u : Fin 11, (! (0x40C : BitVec 11).getLsbD u) = ! [2, 3, 10].contains u.val := by decide
  have hone := fun (c : Bool) (x m : BitVec 11) => getLsbD_unless c x m 1
  rw [unitsWorking_eq, getLsbD_unless, getLsbD_unless, getLsbD_unless, h0, h1, hlane]
  have hpmic : (if (p.rail09 && p.rail12) = true then (if p.rail33 = true then p.units else p.units &&& ~~~ 2)
      else (if p.rail33 = true then p.units else p.units &&& ~~~ 2) &&& ~~~ 0x40C).getLsbD 1 = (p.units.getLsbD 1 && p.rail33) := by
    refine (hone _ _ _).trans ?_
    rw [show (! (0x40C : BitVec 11).getLsbD (1 : Fin 11)) = true from rfl, Bool.or_true, Bool.and_true]
    refine (hone _ _ _).trans ?_
    rw [show (! (2 : BitVec 11).getLsbD (1 : Fin 11)) = false from rfl, Bool.or_false]
    rfl
  rw [hpmic, Bool.or_comm p.rail33, Bool.or_comm (p.rail09 && p.rail12), Bool.or_comm _ (u.val != 0), Bool.or_assoc]

theorem padFrame_boots {u : Nat} (hu : u < 48) : PadFrame bootReg State.bootPart u := by
  refine ⟨boots_eventful, fun s k _ => rfl, fun p hp => ?_, ?_⟩
  · rw [bootReg_high (by simp only [R.SPK_PINCFG]; omega), and_not_allOnes]
  · rw [bootReg_high (by simp only [R.SPK_LATE]; omega), and_not_allOnes]

section

variable {β : Type} {m : Nat → Word} {part : State → β} (hpad : ∀ u < 48, PadFrame m part u) (hsts : ∀ u < 48, m (R.SPK_STS u) = BitVec.allOnes 32)

include hpad hsts

theorem State.spkPark_alters (s : State) {u : Nat} (hu : u < 48) : s.Alters m part (s.spkPark u) := by
  have hpairs (w : State) : w.Alters m part ((List.range 4).foldl (fun w q => w.parkPair u q) w) := .foldl (fun t q hq => (hpad u hu).parkPair t (List.mem_range.mp hq)) w
  have hput (w : State) : w.Alters m part (w.put (F.SPK_STS_parked u) 1) := .field (hpad u hu).events _ (by rw [show (F.SPK_STS_parked u).off = R.SPK_STS u from rfl, hsts u hu, and_not_allOnes])
  unfold State.spkPark
  exact ((hpad u hu).padsDue s _).trans (.ite (fun _ => (hpairs _).trans (hput _)) fun _ => .refl _ _ _)

variable (hcfg : ∀ b < 8, m (R.BANK_CFG b) = BitVec.allOnes 32)

include hcfg

theorem State.bankCheck_alters (s : State) {b : Nat} (hb : b < 8) : s.Alters m part (s.bankCheck b) := by
  have hev := (hpad 0 (by decide)).events
  have hok (v : Nat) : s.Alters m part (s.put (F.BANK_CFG_vio_ok b) v) := .field hev v (by rw [show (F.BANK_CFG_vio_ok b).off = R.BANK_CFG b from rfl, hcfg b hb, and_not_allOnes])
  refine (hok _).trans (.ite (fun _ => .ite (fun _ => .refl _ _ _) fun _ => ?_) fun _ => .trans ?_ (.raise hev _ _))
  · exact .foldl (fun t u hu => State.spkPark_alters hpad hsts t (bank_units hb hu)) _
  · exact .foldl (fun t u hu => .foldl (fun x p hp => (hpad u (bank_units hb hu)).setPad x .z (List.mem_range.mp hp)) t) _

theorem State.banksCheck_alters (s : State) : s.Alters m part s.banksCheck :=
  .foldl (fun u _ hb => .ite (fun _ => State.bankCheck_alters hpad hsts hcfg u (List.mem_range.mp hb)) fun _ => .refl _ _ _) s

end

theorem State.banksCheck_boots (s : State) : s.Boots s.banksCheck :=
  State.banksCheck_alters (fun _ hu => padFrame_boots hu) (fun u _ => bootReg_high (by simp only [R.SPK_STS]; omega))
    (fun b _ => bootReg_high (by simp only [R.BANK_CFG]; omega)) s

theorem State.strapsTaken_boots (s : State) (p : PowerUp) : s.Boots (s.strapsTaken p) := by
  have hput (u : State) {f : RF} (v : Nat) (h : bootReg f.off = BitVec.allOnes 32) : u.Boots (u.put f v) := u.put_boots v h
  have hpel (u : State) (x : Pel) : u.Boots (u.setPel x) := .of_same rfl rfl rfl
  unfold State.strapsTaken State.putB
  exact ((((((hput _ _ rfl).trans (hput _ _ rfl)).trans ((hput _ _ rfl).trans (hput _ _ rfl))).trans (hpel _ _)).trans (hput _ _ rfl)).trans (hput _ _ rfl)).trans
    (State.banksCheck_boots _)

theorem State.Boots.boot (h : s.Boots t) : t.mode = s.mode ∧ t.units = s.units ∧ t.nor = s.nor :=
  ⟨(congrArg Prod.fst h.part :), (congrArg (fun x => x.2.1) h.part :), (congrArg (fun x => x.2.2.1) h.part :)⟩

theorem State.Supervised.not_cold (h : s.Supervised t) : t.mode ≠ .cold := by
  rcases h.mode with h | h | h
  · rw [h]
    decide
  · rw [h]
    decide
  · rw [h]
    decide

theorem State.supervise_supervised (s : State) (hm : s.mode = .supervise) (cold good : Bool) : s.Supervised (s.supervise cold good) := by
  have h := s.supervise_spec cold good
  have hsame : ({ s with mode := .supervise } : State) = s := by rw [← hm]
  rwa [hsame] at h

theorem State.poweredUp_boot (c : State) (p : PowerUp) :
    (c.poweredUp p).mode = .supervise ∧ (c.poweredUp p).nor = c.nor ∧ (c.poweredUp p).units = unitsWorking p ∧ ∀ off, (c.poweredUp p).rd off = c.rd off :=
  ⟨rfl, rfl, rfl, fun _ => rfl⟩

/-- What the way from COLD to SUPERVISE and on leaves. -/
theorem State.started_spec (c : State) (p : PowerUp) (hrd : ∀ off, (∀ b : Fin 8, off ≠ R.BANK_CFG b) → c.rd off = regReset off) :
    (((c.poweredUp p).strapsTaken p).supervise true p.good).mode ≠ .cold ∧ (((c.poweredUp p).strapsTaken p).supervise true p.good).time = 0 ∧
      (((c.poweredUp p).strapsTaken p).supervise true p.good).nor = c.nor ∧
      (((c.poweredUp p).strapsTaken p).supervise true p.good).units = unitsWorking p := by
  obtain ⟨hmode, hnor, hunits, hregs⟩ := c.poweredUp_boot p
  have hstraps := (c.poweredUp p).strapsTaken_boots p
  generalize c.poweredUp p = a at *
  have hsup := (a.strapsTaken p).supervise_supervised ((State.Boots.boot hstraps).1.trans hmode) true p.good
  generalize a.strapsTaken p = b at *
  have hreset {off : Nat} (ho : bootReg off = 0) (hb : ∀ b : Fin 8, off ≠ R.BANK_CFG b) : b.rd off = regReset off :=
    (hstraps.rd ho).trans ((hregs off).trans (hrd off hb))
  have hlo : regReset R.SUP_TIME_LO = 0 := by decide
  have hhi : regReset R.SUP_TIME_HI = 0 := by decide
  refine ⟨hsup.not_cold, ?_, hsup.nor.trans ((State.Boots.boot hstraps).2.2.trans hnor), hsup.units.trans ((State.Boots.boot hstraps).2.1.trans hunits)⟩
  rw [State.time, hsup.kept R.SUP_TIME_LO rfl, hsup.kept R.SUP_TIME_HI rfl, hreset rfl (by decide), hreset rfl (by decide), hlo, hhi]
  rfl

theorem completes_vinStart (p : PowerUp) (s : State) (hm : s.mode = .cold) (hv : 5600 ≤ p.vin) :
    Completes (.vinStart p) s (fun t => t.mode ≠ .cold ∧ t.time = 0 ∧ t.nor = s.nor ∧
      ∀ u : Fin 11, t.units.getLsbD u = (p.units.getLsbD u && (u.val != 1 || p.rail33) &&
        (! [2, 3, 10].contains u.val || (p.rail09 && p.rail12)) && (u.val != 0 || ! p.vsel || (p.units.getLsbD 1 && p.rail33)))) := by
  have hrd (off : Nat) (h : ∀ b : Fin 8, off ≠ R.BANK_CFG b) := s.toCold_rd h
  have hnor := s.toCold_nor
  have hexec : exec (.vinStart p) s = .next (((s.toCold.poweredUp p).strapsTaken p).supervise true p.good) := by
    show execVinStart p s = _
    refine if_neg ?_
    rintro (h | h)
    · exact h hm
    · simp only [vinTolMv, vinStartMv] at h
      omega
  generalize s.toCold = c at hrd hnor hexec
  obtain ⟨hmode, htime, hkept, hunits⟩ := c.started_spec p hrd
  exact ⟨_, hexec, hmode, htime, hkept.trans hnor, fun u => by rw [hunits, unitsWorking_getLsbD]⟩

theorem completes_vinStart_below (p : PowerUp) (s : State) (hv : p.vin < 5600) : Completes (.vinStart p) s (fun t => t = s) := by
  refine ⟨_, if_pos (Or.inr ?_), rfl⟩
  simp only [vinTolMv, vinStartMv]
  omega

end Sys2Proof.Machine
end

section
/-! SUPPORT. What a warm reset leaves (R25, R520). -/

namespace Sys2Proof.Machine

variable {s t u : State}

/-- What a warm reset with a cause leads to. -/
structure State.Restarted (cause : Nat) (s t : State) : Prop where
  cause : t.get F.SUP_RESET_cause = cause
  warm : t.get F.SUP_RESET_warm = min 255 (s.get F.SUP_RESET_warm + 1)
  generation : t.get F.HIF_STS_generation = (s.get F.HIF_STS_generation + 1) % 256
  accepted : t.hif.accepted = []
  running : t.hif.running = []

/-- The clocks of queues that hold nothing are shown. -/
theorem State.clkShow_boots (h : s.xq = []) : s.Boots s.clkShow := by
  unfold State.clkShow
  generalize List.range 64 = l
  induction l generalizing s with
  | nil => exact .refl _ _ _
  | cons q l ih =>
    have hput : s.Boots (s.putB (F.XQ_STS_clk_stopped q) ((s.xqDomain q).any s.clkStopped)) := s.putHigh_boots _ (Nat.le_add_right_of_le (by decide))
    have hxq : (s.putB (F.XQ_STS_clk_stopped q) ((s.xqDomain q).any s.clkStopped)).xq = [] := h
    rw [List.foldl_cons]
    dsimp only
    generalize s.putB (F.XQ_STS_clk_stopped q) ((s.xqDomain q).any s.clkStopped) = a at hput hxq ⊢
    have hdue : (a.xqQ q).flushDue = false := by
      rw [State.xqQ, hxq]
      rfl
    rw [if_neg (by rw [hdue]; simp)]
    exact hput.trans (ih hxq)

theorem padFrame_xq {u : Nat} : PadFrame (fun _ => BitVec.allOnes 32) State.xq u :=
  ⟨⟨fun _ _ => rfl, fun _ => rfl⟩, fun _ _ _ => rfl, fun _ _ => and_not_allOnes _, and_not_allOnes _⟩

theorem State.banksCheck_xq (s : State) : s.banksCheck.xq = s.xq :=
  (State.banksCheck_alters (fun _ _ => padFrame_xq) (fun _ _ => rfl) (fun _ _ => rfl) s).part

theorem State.vcoreOff_boots (s : State) : s.Boots s.vcoreOff := by
  have hset : s.Boots (s.setPwr { s.pwr with on := false, goal := 0 }) := .of_same rfl rfl rfl
  exact ((hset.trans (State.putHigh_boots _ _ (by decide))).trans (State.putHigh_boots _ _ (by decide))).trans (State.putHigh_boots _ _ (by decide))

/-- The reset state with its counts set goes on from SUPERVISE. -/
theorem State.restart_spec {b : State} (hm : b.mode = .supervise) (hxq : b.xq = []) (hwork : b.unloaded) {cause warm gen : Nat} (hc : cause < 4) (hw : warm < 256) :
    let a := ((b.put F.HIF_STS_generation gen).put F.SUP_RESET_cause cause).put F.SUP_RESET_warm warm
    let t := ((((a.put F.SUP_MODE_transitions 0).put F.SUP_MODE_hold_cause 0).put F.SUP_MODE_in_transition 0).banksCheck.clkShow.vcoreOff).supervise false true
    t.get F.SUP_RESET_cause = cause ∧ t.get F.SUP_RESET_warm = warm ∧ t.get F.HIF_STS_generation = gen % 256 ∧ t.hif.accepted = [] ∧ t.hif.running = [] := by
  intro a t
  have hcause : a.get F.SUP_RESET_cause = cause := (State.get_put_apart _ _ rfl).trans (State.get_put_lt _ rfl hc)
  have hwarm : a.get F.SUP_RESET_warm = warm := State.get_put_lt _ rfl hw
  have hgen : a.get F.HIF_STS_generation = gen % 256 := (State.get_put_apart _ _ rfl).trans ((State.get_put_apart _ _ rfl).trans (State.get_put_self _ _ rfl))
  have ha : a.mode = .supervise ∧ a.xq = [] ∧ a.unloaded := ⟨hm, hxq, hwork⟩
  clear_value a
  obtain ⟨hmode, hq, hidle⟩ := ha
  have hput (u : State) (lo w v : Nat) : u.Boots (u.put ⟨R.SUP_MODE, lo, w⟩ v) ∧ (u.put ⟨R.SUP_MODE, lo, w⟩ v).xq = u.xq := ⟨u.put_boots v rfl, rfl⟩
  have hmodes : a.Boots (((a.put F.SUP_MODE_transitions 0).put F.SUP_MODE_hold_cause 0).put F.SUP_MODE_in_transition 0) :=
    ((hput _ _ _ _).1.trans (hput _ _ _ _).1).trans (hput _ _ _ _).1
  have hbanks := hmodes.trans (State.banksCheck_boots _)
  have hclk := hbanks.trans (State.clkShow_boots ((State.banksCheck_xq _).trans hq))
  have hall := hclk.trans (State.vcoreOff_boots _)
  have hsup := State.Supervised.of_boots hall (State.supervise_supervised _ ((State.Boots.mode hall).trans hmode) false true)
  have hreset := hsup.kept R.SUP_RESET rfl
  exact ⟨(State.get_of_rd hreset).trans hcause, (State.get_of_rd hreset).trans hwarm, (State.get_of_rd (hsup.kept R.HIF_STS rfl)).trans hgen, hsup.free hidle⟩

theorem State.warmReset_spec (s : State) {cause : Nat} (hc : cause < 4) : s.Restarted cause (s.warmReset cause) := by
  have hclear : s.Winds ((List.range 16).foldl (fun s n => s.secretClear n) s) := .foldl (fun u n _ => State.Clears.winds (u.secretClear_clears n)) s
  have hwarm := State.get_of_rd (f := F.SUP_RESET_warm) (hclear.rd rfl)
  have hgen := State.get_of_rd (f := F.HIF_STS_generation) (hclear.rd rfl)
  unfold State.warmReset
  extract_lets a warm gen cold con hif ldr fab clk pwr pins pel flt b c d
  have hb : b.mode = .supervise ∧ b.xq = [] ∧ b.unloaded := ⟨rfl, rfl, rfl, rfl, rfl, rfl, rfl⟩
  have hw : warm = min 255 (s.get F.SUP_RESET_warm + 1) := by simp only [warm, a, hwarm]
  have hg : gen = s.get F.HIF_STS_generation + 1 := by simp only [gen, a, hgen]
  have hspec := State.restart_spec hb.1 hb.2.1 hb.2.2 (gen := gen) hc (Nat.lt_succ_of_le (Nat.le_trans (Nat.le_of_eq hw) (Nat.min_le_left _ _)))
  obtain ⟨h1, h2, h3, h4, h5⟩ := hspec
  exact ⟨h1, h2.trans hw, h3.trans (by rw [hg]), h4, h5⟩

end Sys2Proof.Machine
end

section
/-! PROOFS. The supply and the supervisor (chapters 01 and 16). -/

namespace Sys2Proof.Machine

variable {s t u : State}

theorem completes_autoRestart (vin : BitVec 16) (s : State) (hm : s.mode = .hold) (hcause : s.get F.SUP_MODE_hold_cause = 3) (hauto : s.autoRestart = true)
    (hl : s.latched = false) (hv : 5600 ≤ vin.toNat) :
    Completes (.autoRestart vin) s (fun t => t.get F.SUP_RESET_cause = 3 ∧ t.get F.SUP_RESET_warm = min 255 (s.get F.SUP_RESET_warm + 1)) := by
  have hspec := (s.put F.PWR_VIN_vin vin.toNat).warmReset_spec (cause := 3) (by decide)
  have hstart : vinStartMv ≤ vin.toNat + vinTolMv := by
    simp only [vinStartMv, vinTolMv]
    omega
  refine ⟨_, if_pos ⟨hm, hcause, hauto, by rw [hl]; rfl, hstart⟩, hspec.cause, hspec.warm.trans ?_⟩
  rw [State.get_put_apart _ _ rfl]

theorem completes_supervisorFailover (s : State) (hm : s.mode ≠ .cold) (hl : s.latched = false) (htwin : s.get F.SUP_MODE_twin_ok = 1) :
    Completes .supervisorFailover s (fun t => t.get F.SUP_MODE_active_half = 1 - s.get F.SUP_MODE_active_half ∧
      t.get F.SUP_MODE_twin_ok = 0 ∧ t.logged 0x0101 (s.get F.SUP_MODE_active_half) ∧ t.mode = s.mode) := by
  show ∃ t, execSupervisorFailover s = .next t ∧ _
  unfold execSupervisorFailover
  rw [if_neg (by simp [hm, hl, State.on_of_one htwin])]
  extract_lets h a b
  have hhalf : a.get F.SUP_MODE_active_half = 1 - s.get F.SUP_MODE_active_half := by
    refine (State.get_put_apart _ _ rfl).trans (State.get_put_lt _ rfl ?_)
    show 1 - _ < 2
    omega
  have htwo : a.get F.SUP_MODE_twin_ok = 0 := State.get_put_lit _ rfl
  have hmode : b.mode = s.mode := rfl
  have hb (f : RF) (hf : f.off = R.SUP_MODE) : b.get f = a.get f := State.get_put_apart _ _ (apart_off (by rw [hf]; decide))
  clear_value b
  clear_value a
  have hkept (f : RF) (hf : f.off = R.SUP_MODE) : ((b.raise 0x0101 h).morSubstituted 8 0 h 0x0101).get f = a.get f :=
    ((State.morSubstituted_spec _ _ _ _ _).2.2.1 f (by rw [hf]; decide) (by rw [hf]; rfl)).trans ((b.raise_getKept _ _ (by rw [hf]; rfl)).trans (hb f hf))
  refine ⟨_, rfl, (hkept _ rfl).trans hhalf, (hkept _ rfl).trans htwo, (State.morSubstituted_spec _ _ _ _ _).2.2.2 _ _ (State.raise_logged _ _ _), ?_⟩
  exact (State.Boots.mode (State.morSubstituted_boots _ _ _ _ _)).trans ((State.raise_mode _ _ _).trans hmode)

theorem State.setPwr_latch (s : State) (p : Pwr) : (s.setPwr p).mode = s.mode ∧ (s.setPwr p).latched = p.holdLatch := ⟨rfl, rfl⟩

/-- What the hold latch has parked. -/
theorem State.parked_spec (b : State) : ((b.pinsPark).userLanesIdle.put F.SUP_MTR_STS_out_mv 0).latched = b.latched ∧
    ((b.pinsPark).userLanesIdle.put F.SUP_MTR_STS_out_mv 0).get F.SUP_MTR_STS_out_mv = 0 ∧ ((b.pinsPark).userLanesIdle.put F.SUP_MTR_STS_out_mv 0).mode = b.mode := by
  have hpark : b.Winds b.pinsPark.userLanesIdle := State.Clears.winds (b.pinsPark_clears.trans (State.userLanesIdle_clears _))
  generalize b.pinsPark.userLanesIdle = c at hpark ⊢
  have hpwr : c.pwr = b.pwr := (congrArg State.pwr hpark.part :)
  have hmode : c.mode = b.mode := State.Winds.mode hpark
  exact ⟨congrArg Pwr.holdLatch hpwr, State.get_put_lit _ rfl, hmode⟩

theorem completes_lastSupervisorFail (s : State) (hm : s.mode ≠ .cold) (htwin : s.get F.SUP_MODE_twin_ok = 0) :
    Completes .lastSupervisorFail s (fun t => t.latched = true ∧ t.get F.SUP_MTR_STS_out_mv = 0 ∧ t.mode = s.mode) := by
  show ∃ t, execLastSupervisorFail s = .next t ∧ _
  unfold execLastSupervisorFail
  rw [if_neg (by simp [hm, State.on_of_zero htwin])]
  extract_lets a pwr b
  have ha : s.Winds a := .foldl (fun u p hp => State.Clears.winds (u.spkHold_clears (List.mem_range.mp hp))) s
  have hfreeze : a.Winds a.holdFreeze := State.Clears.winds a.holdFreeze_clears
  have hb : b.mode = a.holdFreeze.mode ∧ b.latched = true := a.holdFreeze.setPwr_latch { pwr with holdLatch := true }
  clear_value b
  obtain ⟨hlatch, hmeter, hmode⟩ := b.parked_spec
  exact ⟨_, rfl, hlatch.trans hb.2, hmeter, hmode.trans (hb.1.trans ((State.Winds.mode hfreeze).trans (State.Winds.mode ha)))⟩

/-- Settles O1: the start takes the supply and leaves what COLD kept, the stop leaves nothing readable, a restart is a warm reset, and a half takes over. -/
theorem theModuleStartsStopsRestartsAndFailsOver : Obligations.TheModuleStartsStopsRestartsAndFailsOver :=
  ⟨fun p s hm => ⟨completes_vinStart p s hm, completes_vinStart_below p s⟩,
    fun vin s => ⟨completes_vinStop vin s, completes_vinStop_above vin s, completes_undervoltage_above vin s⟩,
    completes_autoRestart, completes_supervisorFailover, completes_lastSupervisorFail⟩

end Sys2Proof.Machine
end

section
/-! PROOFS. Admin commands that load, change the mode or restart the module (R25, R383, R387). -/

namespace Sys2Proof.Machine

variable {s t u : State} {src : CmdSrc} {d : AdminDesc}

/-! ## Answers after other work -/

/-- What a command needs to be answered at once is unchanged. -/
theorem State.canAnswer_congr (hb : u.hif.bme = s.hif.bme) (hr : ∀ off, off = R.HIF_RING_CFG 1 ∨ off = R.HIF_RING_STS 1 ∨ off = R.HIF_RING_OWN 1 → u.rd off = s.rd off)
    (h : s.canAnswer src) : u.canAnswer src := by
  intro cid slot hsrc
  rw [← h cid slot hsrc, State.ringFree, State.ringFree, State.on, State.on, State.on, State.on, State.on, State.on, hb,
    State.get_of_rd (f := F.HIF_RING_CFG_enable 1) (hr _ (Or.inl rfl)), State.get_of_rd (f := F.HIF_RING_STS_active 1) (hr _ (Or.inr (Or.inl rfl))),
    State.get_of_rd (f := F.HIF_RING_OWN_dev_owned 1) (hr _ (Or.inr (Or.inr rfl)))]

theorem State.raise_canAnswer (id param : Nat) (h : s.canAnswer src) : (s.raise id param).canAnswer src :=
  State.canAnswer_congr (State.raise_bme _ _ _) (fun off ho => State.raise_rd _ _ _ (by rcases ho with rfl | rfl | rfl <;> rfl)) h

theorem State.put_canAnswer {f : RF} (v : Nat) (hf : f.off < 0x21000 ∨ 0x22800 ≤ f.off) (h : s.canAnswer src) : (s.put f v).canAnswer src := by
  refine State.canAnswer_congr (s := s) rfl (fun off ho => State.rd_put_ne _ _ _ _ ?_) h
  have : off = 0x21048 ∨ off = 0x2104C ∨ off = 0x21054 := ho
  omega

/-- A command that waits alone and whose operands are refused is answered INVALID. -/
theorem State.runAccepted_bad (h : s.waitsFor src d) {p : AdminDesc → Bool} (hp : p d = true) (f : AdminCmd → State → State) :
    s.runAccepted p f true = .next (s.taken.complete src 2 0) := by
  obtain ⟨hlatch, hacc, hmode, -, -⟩ := h
  have hturn : s.takeCmd p = some (⟨src, d⟩, s.taken) := by
    have hfirst : firstTurn p false [⟨src, d⟩] = some ⟨src, d⟩ := by simp [firstTurn, hp]
    unfold State.takeCmd
    rw [hacc, hfirst]
    simp [State.taken]
  unfold State.runAccepted
  rw [hlatch]
  simp [hturn]

/-! ## LOAD_FULL -/

theorem State.setMode_field (s : State) (m : Mode) : (s.setMode m).get F.SUP_MODE_mode = m.code := by
  have hcode : m.code < 2 ^ F.SUP_MODE_mode.w := by cases m <;> decide
  have hmode : ({ s with mode := m }.put F.SUP_MODE_mode m.code).get F.SUP_MODE_mode = m.code := State.get_put_lt _ rfl hcode
  unfold State.setMode
  dsimp only
  split
  · exact (State.get_inc_apart _ _ rfl).trans hmode
  · exact (State.get_put_apart _ _ rfl).trans ((State.get_inc_apart _ _ rfl).trans hmode)

theorem State.loadRefused_mode (s : State) : s.loadRefused.mode = s.mode := State.raise_mode _ _ _

theorem State.loadRefused_canAnswer (h : s.canAnswer src) : s.loadRefused.canAnswer src := by
  have hput : (((s.put F.LDR_ERR_code 0x14).put F.LDR_ERR_status (codeStatus 0x14)).put F.LDR_ERR_chunk 0xFFFF).canAnswer src :=
    State.put_canAnswer (f := F.LDR_ERR_chunk) _ (Or.inl (by decide)) (State.put_canAnswer _ (Or.inl (by decide)) (State.put_canAnswer _ (Or.inl (by decide)) h))
  unfold State.loadRefused State.ldrError
  generalize ((s.put F.LDR_ERR_code 0x14).put F.LDR_ERR_status (codeStatus 0x14)).put F.LDR_ERR_chunk 0xFFFF = a at hput ⊢
  exact State.raise_canAnswer _ _ (State.canAnswer_congr rfl (fun _ _ => rfl) hput)

theorem State.loadRefused_finished (s : State) : s.loadRefused.hif.finished = s.hif.finished := State.raise_finished _ _ _

/-- The source of a load that LDR_STS shows for the one that a command names. -/
def loadSource (d : AdminDesc) : BitVec 2 := if d.source == 0 then 3 else BitVec.ofNat 2 d.source

theorem loadSource_toNat (d : AdminDesc) : (loadSource d).toNat = if d.source = 0 then 3 else d.source := by
  have hlt : d.source < 4 := Nat.mod_lt _ (by decide)
  unfold loadSource
  by_cases h0 : d.source = 0
  · simp [h0]
  · simp [h0, Nat.mod_eq_of_lt hlt]

theorem loadSource_host (h3 : d.source ≠ 3) : (loadSource d == 3) = (d.source == 0) := by
  have h : loadSource d = 3 ↔ d.source = 0 := by
    rw [← BitVec.toNat_inj, loadSource_toNat]
    split
    · simp [*]
    · simp [*]
  rw [Bool.eq_iff_iff, beq_iff_eq, beq_iff_eq, h]

section

variable (list : List Byte) (h : s.waitsFor src d) (hop : d.op = 0x10) (hstore : d.store = false) (hbme : d.source = 0 → s.hif.bme = true)

theorem loadFull_turn (s : State) (hop : d.op = 0x10) (hbme : d.source = 0 → s.hif.bme = true) : (isOp 0x10 d && (d.source != 0 || s.hif.bme)) = true := by
  by_cases h0 : d.source = 0
  · simp [isOp, hop, hbme h0]
  · simp [isOp, hop, h0]

include h hop hbme

theorem completes_loadFull_badList (h0 : d.source = 0) (hlist : hostList d list = none) :
    Completes (.loadFull list) s (fun t => t.says src 2 0 0 0 ∧ t.mode = s.mode) := by
  refine completes_accepted rfl h (loadFull_turn s hop hbme) ?_
  dsimp only
  rw [h0, beq_self_eq_true, if_pos rfl, hlist]
  have ha := State.taken_answered h 2 0 0 0
  exact ⟨ha.answer, ha.rest.mode⟩

/-- What a load from a known length goes on to. -/
theorem loadFull_known (hstore : d.store = false) (hlen : d.source ≠ 0 ∨ (hostList d list).isSome = true) {P : State → Prop}
    (hP : P (if s.loadMissing (d.source == 0) then s.taken.loadRefused.complete src 3 0x14
      else (s.taken.runCmd ⟨src, d⟩).beginFull (if d.source == 0 then 3 else BitVec.ofNat 2 d.source) d.store (some src))) :
    Completes (.loadFull list) s P := by
  refine completes_accepted rfl h (loadFull_turn s hop hbme) ?_
  dsimp only
  have hsome : ∃ n, (if (d.source == 0) = true then hostList d list else some 0) = some n := by
    rcases hlen with h0 | hl
    · rw [if_neg (by simp [h0])]
      exact ⟨0, rfl⟩
    · split
      · exact Option.isSome_iff_exists.mp hl
      · exact ⟨0, rfl⟩
  obtain ⟨n, hn⟩ := hsome
  rw [hn]
  dsimp only
  rw [hstore, Bool.false_and, if_neg Bool.false_ne_true]
  rw [hstore] at hP
  exact hP

theorem completes_loadFull_missing (hstore : d.store = false) (hlen : d.source ≠ 0 ∨ (hostList d list).isSome = true) (hmiss : s.loadMissing (d.source == 0) = true) :
    Completes (.loadFull list) s (fun t => t.says src 3 0x14 0 0 ∧ t.mode = s.mode) := by
  refine loadFull_known list h hop hbme hstore hlen ?_
  rw [if_pos hmiss]
  have ha := State.complete_answered (State.loadRefused_canAnswer (State.taken_canAnswer h)) (s.taken.loadRefused_finished.trans h.2.2.2.1) 3 0x14 0 0
  have hmode := ha.rest.mode.trans s.taken.loadRefused_mode
  exact ⟨ha.answer, hmode⟩

theorem completes_loadFull_begins (hstore : d.store = false) (h3 : d.source ≠ 3) (hlen : d.source ≠ 0 ∨ (hostList d list).isSome = true)
    (hmiss : s.loadMissing (d.source == 0) = false) :
    Completes (.loadFull list) s (fun t => t.mode = .load ∧ t.get F.SUP_MODE_mode = 2 ∧
        ∃ l, t.ldr.load = some l ∧ l.step = .entered ∧ l.src = some src ∧ l.source.toNat = if d.source = 0 then 3 else d.source) := by
  refine loadFull_known list h hop hbme hstore hlen ?_
  rw [if_neg (by rw [hmiss]; decide)]
  have hmiss' : (s.taken.runCmd ⟨src, d⟩).loadMissing (loadSource d == 3) = false := by
    rw [loadSource_host h3]
    exact hmiss
  obtain ⟨l, heq, hstep, hsrc, hso⟩ := (s.taken.runCmd ⟨src, d⟩).beginFull_begins (source := loadSource d) (store := d.store) (src := some src) h.1 hmiss'
  rw [show (if (d.source == 0) = true then 3 else BitVec.ofNat 2 d.source) = loadSource d from rfl, heq]
  generalize (s.taken.runCmd ⟨src, d⟩).endRegions false = v
  have hmode := State.setMode_mode v .load
  have hfield := State.setMode_field v .load
  generalize v.setMode .load = w at hmode hfield ⊢
  exact ⟨hmode, (State.get_put_apart w _ rfl).trans hfield, l, rfl, hstep, hsrc, (congrArg BitVec.toNat hso).trans (loadSource_toNat d)⟩

end

end Sys2Proof.Machine
end

section
/-! SUPPORT. What leaves the answer of a waiting command possible: every operation but one on the completion ring (R382). -/

namespace Sys2Proof.Machine

variable {s t u : State} {src : CmdSrc} {d : AdminDesc}

/-- Every register but those of the completion ring. -/
def ringReg (off : Nat) : Word := if off = R.HIF_RING_CFG 1 ∨ off = R.HIF_RING_STS 1 ∨ off = R.HIF_RING_OWN 1 then 0 else BitVec.allOnes 32

/-- Bus mastering and the completions that wait. -/
def State.ringPart (s : State) : Bool × List Completion := (s.hif.bme, s.hif.finished)

/-- An answer that was possible stays possible. -/
abbrev State.Awaits (s t : State) : Prop := s.Alters ringReg State.ringPart t

theorem ringReg_out {off : Nat} (h : off < 0x21000 ∨ 0x21080 ≤ off) : ringReg off = BitVec.allOnes 32 :=
  if_neg (by simp only [R.HIF_RING_CFG, R.HIF_RING_STS, R.HIF_RING_OWN]; omega)

theorem ringReg_offsets {off : Nat} (h : ringReg off = 0) : off = R.HIF_RING_CFG 1 ∨ off = R.HIF_RING_STS 1 ∨ off = R.HIF_RING_OWN 1 := by
  unfold ringReg at h
  split at h
  · assumption
  · exact absurd h (by decide)

theorem awaits_eventful : Eventful ringReg State.ringPart := by
  refine ⟨fun off h => if_neg ?_, fun u => rfl⟩
  rintro (rfl | rfl | rfl)
  · exact absurd h (by decide)
  · exact absurd h (by decide)
  · exact absurd h (by decide)

theorem State.Awaits.canAnswer (h : s.Awaits t) (hs : s.canAnswer src) : t.canAnswer src :=
  State.canAnswer_congr (congrArg Prod.fst h.part :) (fun _ ho => h.rd (if_pos ho)) hs

theorem State.Awaits.finished (h : s.Awaits t) : t.hif.finished = s.hif.finished := (congrArg Prod.snd h.part :)

/-- A command that is taken is answered once its work is done. -/
theorem State.Awaits.answered (h : s.Awaits t) (hs : s.canAnswer src) (hf : s.hif.finished = []) (status detail res0 res1 : Nat) :
    State.Answered src status detail res0 res1 t (t.complete src status detail res0 res1) :=
  State.complete_answered (State.Awaits.canAnswer h hs) ((State.Awaits.finished h).trans hf) _ _ _ _

theorem State.Awaits.of_alters {β : Type} {m : Nat → Word} {part : State → β} (h : s.Alters m part t) (hm : ∀ off, ringReg off = 0 → m off = 0)
    (hp : ∀ a b, part a = part b → a.ringPart = b.ringPart) : s.Awaits t := by
  refine h.mono (fun off i hi => ?_) hp
  by_cases h0 : ringReg off = 0
  · rw [hm off h0]
    exact BitVec.getLsbD_zero
  · rw [ringReg, if_neg (fun ho => h0 (if_pos ho)), BitVec.getLsbD_allOnes, decide_eq_false_iff_not] at hi
    exact BitVec.getLsbD_of_ge _ _ (by omega)

theorem State.Stops.awaits (h : s.Stops t) : s.Awaits t := by
  refine State.Awaits.of_alters h (fun off h0 => ?_) fun _ _ hab => (congrArg (fun x => x.1.ringPart) hab :)
  rcases ringReg_offsets h0 with rfl | rfl | rfl
  · rfl
  · rfl
  · rfl

section

variable (s : State)

theorem State.putOut_awaits {f : RF} (v : Nat) (h : f.off < 0x21000 ∨ 0x21080 ≤ f.off) : s.Awaits (s.put f v) :=
  .field awaits_eventful v (by rw [ringReg_out h, and_not_allOnes])

theorem State.raise_awaits (id param : Nat) : s.Awaits (s.raise id param) := .raise awaits_eventful id param
theorem State.raiseFree_awaits (id : Nat) : s.Awaits (s.raiseFree id) := .raiseFree awaits_eventful id
theorem State.setTrk_awaits (k : Nat) (x : Trk) : s.Awaits (s.setTrk k x) := .of_same rfl rfl rfl
theorem State.setFlt_awaits (x : Flt) : s.Awaits (s.setFlt x) := .of_same rfl rfl rfl

/-! ## Tracks -/

/-- A field of a track's page. -/
theorem State.putTrk_awaits {f : RF} {k a : Nat} (v : Nat) (hf : f.off = a + 0x80 * k) (ha : 0x40400 ≤ a) : s.Awaits (s.put f v) := s.putOut_awaits v (by omega)

variable (k : Nat)

theorem State.trkShow_awaits : s.Awaits (s.trkShow k) := by
  have hput (u : State) (a lo w v : Nat) (h : 0x40400 ≤ a := by decide) : u.Awaits (u.put ⟨a + 0x80 * k, lo, w⟩ v) := u.putTrk_awaits v rfl h
  exact ((hput s 0x40418 _ _ _).trans (hput _ 0x40428 _ _ _)).trans ((hput _ 0x4042C _ _ _).trans (hput _ 0x4042C _ _ _))

theorem State.setTrkState_awaits (v : Nat) : s.Awaits (s.setTrkState k v) := by
  have hsts (u : State) (lo w v : Nat) : u.Awaits (u.put ⟨R.CAD_STS, lo, w⟩ v) := u.putOut_awaits v (Or.inr (show 0x21080 ≤ R.CAD_STS by decide))
  exact ((s.putTrk_awaits (k := k) (a := 0x4042C) v rfl (by decide)).trans (hsts _ _ _ _)).trans (hsts _ _ _ _)

theorem State.switchAbort_awaits : s.Awaits (s.switchAbort k) := by
  have hput (u : State) (a lo w v : Nat) (h : 0x40400 ≤ a := by decide) : u.Awaits (u.put ⟨a + 0x80 * k, lo, w⟩ v) := u.putTrk_awaits v rfl h
  refine .ite (fun _ => .refl _ _ _) fun _ => .ite (fun _ => s.setTrk_awaits k _) fun _ => ?_
  exact ((s.setTrk_awaits k _).trans (hput _ 0x4042C _ _ _)).trans (((hput _ 0x40434 _ _ _).trans (hput _ 0x40434 _ _ _)).trans (State.raise_awaits _ _ _))

theorem State.trkSpokes_awaits : s.Awaits (s.trkSpokes k) :=
  State.Stops.awaits (.foldl (fun s _ hu => .ite (fun _ => s.spkStop_stops (List.mem_range.mp hu)) (fun _ => .refl _ _ _)) s)

theorem State.trkOff_awaits : s.Awaits (s.trkOff k) := by
  have hput (u : State) (a lo w v : Nat) (h : 0x40400 ≤ a := by decide) : u.Awaits (u.put ⟨a + 0x80 * k, lo, w⟩ v) := u.putTrk_awaits v rfl h
  unfold State.trkOff
  extract_lets a b c
  have ha : s.Awaits a := s.switchAbort_awaits k
  have hb : a.Awaits b := (a.setTrkState_awaits k 0).trans (State.setTrk_awaits _ _ _)
  have hc : b.Awaits c := ((hput _ 0x4041C _ _ _).trans (hput _ 0x40420 _ _ _)).trans (hput _ 0x40424 _ _ _)
  exact .ite (fun _ => .refl _ _ _) fun _ => ((ha.trans hb).trans hc).trans ((c.trkSpokes_awaits k).trans (State.trkShow_awaits _ k))

theorem State.trkHaltReq_awaits : s.Awaits (s.trkHaltReq k) := by
  refine .ite (fun _ => ?_) fun _ => .refl _ _ _
  have hcause := (s.setTrkState_awaits k 4).trans (State.putTrk_awaits _ (f := F.CAD_TRK_STS_halt_cause k) (k := k) (a := 0x4042C) 4 rfl (by decide))
  exact (hcause.trans ((State.switchAbort_awaits _ k).trans (State.raise_awaits _ _ _))).trans ((State.trkSpokes_awaits _ k).trans (State.trkShow_awaits _ k))

theorem State.trkRearm_awaits : s.Awaits (s.trkRearm k) := by
  refine .ite (fun _ => .refl _ _ _) fun _ => ?_
  exact ((s.setTrk_awaits k _).trans (State.putTrk_awaits _ (f := F.CAD_TRK_STS_halt_cause k) (k := k) (a := 0x4042C) 0 rfl (by decide))).trans
    ((State.setTrkState_awaits _ k 1).trans (State.trkShow_awaits _ k))

/-- The control register of a track that is not OFF. -/
theorem State.trkCtlWrite_awaits (v : Word) (h : s.trkState k ≠ 0) : s.Awaits (s.trkCtlWrite k v) := by
  have hctl (u : State) (lo w v : Nat) : u.Awaits (u.put ⟨R.CAD_TRK_CTL k, lo, w⟩ v) := u.putTrk_awaits (k := k) (a := 0x40400) v rfl (by decide)
  unfold State.trkCtlWrite
  extract_lets off a b c e f
  have ha : s.Awaits a := ((hctl _ _ _ _).trans (hctl _ _ _ _)).trans (hctl _ _ _ _)
  have hb : b = a := if_neg h
  have hc : c = b := if_neg h
  have he : c.Awaits e := .ite (fun _ => c.trkHaltReq_awaits k) fun _ => .refl _ _ _
  have hf : e.Awaits f := .ite (fun _ => e.trkRearm_awaits k) fun _ => .refl _ _ _
  rw [hb] at hc
  rw [hc] at he
  refine .ite (fun _ => ?_) fun _ => (ha.trans (he.trans hf)).trans (f.trkShow_awaits k)
  rw [hb]
  exact (ha.trans (hctl _ _ _ _)).trans (State.trkOff_awaits _ k)

variable {off : Nat} {v : Word}

/-- A discarded write of an enabled source. -/
theorem State.cadSrcWrite_discarded {n : Nat} (hon : s.on (F.CAD_SRC_CTL_enable n) = true)
    (h : (off = R.CAD_SRC_CTL n ∧ v.getLsbD 0 = true) ∨ off = R.CAD_SRC_ANA n ∨ off = R.CAD_SRC_EXC n ∨ off = R.CAD_SRC_LOSS n) : s.cadSrcWrite n off v = s := by
  have hapart : R.CAD_SRC_ANA n ≠ R.CAD_SRC_CTL n ∧ R.CAD_SRC_EXC n ≠ R.CAD_SRC_CTL n ∧ R.CAD_SRC_LOSS n ≠ R.CAD_SRC_CTL n := by
    simp only [R.CAD_SRC_ANA, R.CAD_SRC_EXC, R.CAD_SRC_LOSS, R.CAD_SRC_CTL]
    omega
  unfold State.cadSrcWrite
  rcases h with ⟨rfl, hv⟩ | h
  · rw [if_pos rfl, State.srcCtlWrite, if_pos hon, if_pos hv]
  · rw [if_neg (by rcases h with rfl | rfl | rfl; exacts [hapart.1, hapart.2.1, hapart.2.2]), if_pos ⟨h, hon⟩]

/-- A discarded write of a track that is not OFF. -/
theorem State.cadTrkWrite_awaits (hst : s.trkState k ≠ 0) (h : off = R.CAD_TRK_CTL k ∨ off = R.CAD_TRK_OFS k ∨ off = R.CAD_TRK_DIV k) :
    s.Awaits (s.cadTrkWrite k off v) := by
  have hapart : R.CAD_TRK_OFS k ≠ R.CAD_TRK_CTL k ∧ R.CAD_TRK_OFS k ≠ R.CAD_TRK_ADJ k ∧ R.CAD_TRK_OFS k ≠ R.CAD_TRK_SW k ∧
      R.CAD_TRK_DIV k ≠ R.CAD_TRK_CTL k ∧ R.CAD_TRK_DIV k ≠ R.CAD_TRK_ADJ k ∧ R.CAD_TRK_DIV k ≠ R.CAD_TRK_SW k ∧ R.CAD_TRK_DIV k ≠ R.CAD_TRK_OFS k := by
    simp only [R.CAD_TRK_OFS, R.CAD_TRK_CTL, R.CAD_TRK_ADJ, R.CAD_TRK_SW, R.CAD_TRK_DIV]
    omega
  obtain ⟨h1, h2, h3, h4, h5, h6, h7⟩ := hapart
  unfold State.cadTrkWrite
  dsimp only
  rcases h with rfl | rfl | rfl
  · rw [if_pos rfl]
    exact s.trkCtlWrite_awaits k v hst
  · rw [if_neg h1, if_neg h2, if_neg h3, if_pos rfl, if_neg hst]
    exact .refl _ _ _
  · rw [if_neg h4, if_neg h5, if_neg h6, if_neg h7, if_pos rfl, if_neg hst]
    exact s.putTrk_awaits (k := k) (a := 0x40404) _ rfl (by decide)

/-- A write of which Cadence discards a part. -/
theorem State.cadWrite_awaits (h : s.cadDiscards off v = true) : s.Awaits (s.cadWrite off v) := by
  unfold State.cadDiscards at h
  unfold State.cadWrite
  by_cases hsrc : within 0x40100 0x40200 off = true
  · have hctl : off ≠ R.CAD_CTL := by
      rintro rfl
      exact absurd hsrc (by decide)
    rw [if_pos hsrc] at h
    rw [if_neg hctl, if_pos hsrc]
    obtain ⟨hon, hoff⟩ := Bool.and_eq_true_iff.mp h
    rw [State.cadSrcWrite_discarded s hon (by simpa [or_assoc] using hoff)]
    exact .refl _ _ _
  · rw [if_neg hsrc] at h
    by_cases htrk : within 0x40400 0x40800 off = true
    · have hctl : off ≠ R.CAD_CTL := by
        rintro rfl
        exact absurd htrk (by decide)
      rw [if_pos htrk] at h
      rw [if_neg hctl, if_neg hsrc, if_pos htrk]
      obtain ⟨hst, hoff⟩ := Bool.and_eq_true_iff.mp h
      refine s.cadTrkWrite_awaits _ (bne_iff_ne.mp hst) ?_
      simp only [Bool.or_eq_true, Bool.and_eq_true, beq_iff_eq] at hoff
      rcases hoff with (⟨h, -⟩ | h) | ⟨h, -⟩
      · exact Or.inl h
      · exact Or.inr (Or.inl h)
      · exact Or.inr (Or.inr h)
    · rw [if_neg htrk] at h
      cases h

end

end Sys2Proof.Machine
end

section
/-! PROOFS. Admin commands that change the mode, write the Cadence table, switch a source, test and clear the repair map (R383 to R387, R410 to R418, R431). -/

namespace Sys2Proof.Machine

variable {s t u : State} {src : CmdSrc} {d : AdminDesc}

/-! ## MODE_REQUEST -/

/-- The mode that SUP_MODE shows in HOLD. -/
theorem State.enterHold_field (hcold : s.mode ≠ .cold) (hl : s.latched = false) (hhold : s.mode ≠ .hold) (cause : Nat) (setReset vcoreOff : Bool) :
    (s.enterHold cause setReset vcoreOff).get F.SUP_MODE_mode = 5 := by
  rw [s.enterHold_eq hcold hl hhold]
  generalize (setReset || s.mode == .supervise || (s.mode == .load && ! s.gsrDone)) = reset
  have hregions := (s.worksEnd.modeHold cause).regionsHold_ends reset
  have hcore := ((s.worksEnd.modeHold cause).regionsHold reset).coreHold_powers vcoreOff
  have hout := State.Clears.winds ((((s.worksEnd.modeHold cause).regionsHold reset).coreHold vcoreOff).outputsHold_clears (s.mode == .load) s.gsrDone s.outDone)
  refine (hout.get_of_zero rfl).trans ((hcore.get rfl).trans ((hregions.get_of_zero rfl).trans ?_))
  exact (State.get_put_apart _ _ rfl).trans (State.setMode_field _ .hold)

/-- Registers outside the host interface stay when every command is answered. -/
theorem State.abortAll_rd (s : State) {off : Nat} (ho : off < 0x20008 ∨ 0x30000 ≤ off) : s.abortAll.rd off = s.rd off :=
  foldl_kept (fun u : State => u.rd off) (fun u c _ => (u.complete_answers c 7 0 0 0).rd_out ho) _

section

variable (h : s.waitsFor src d)

include h

theorem completes_modeRequestHold (hop : d.op = 0x70) (ha : d.arg0.toNat % 8 = 1) (hr : s.running = true) :
    Completes .modeRequestHold s (fun t => t.mode = .hold ∧ t.get F.SUP_MODE_hold_cause = 1 ∧ t.get F.SUP_MODE_mode = 5) := by
  have hrun : s.taken.running = true := hr
  obtain ⟨hcold, hsup⟩ := State.running_hot hr
  have hmode : s.taken.mode ≠ .hold := by
    intro hm
    rw [State.running, show s.mode = .hold from hm] at hr
    cases hr
  have hhold := State.running_enterHold hrun (cause := 1) (by decide) false false
  have hfield := State.enterHold_field (s := s.taken) hcold h.1 hmode 1 false false
  refine completes_accepted rfl h (by simp [isOp, hop, ha]) ?_
  generalize s.taken.enterHold 1 false false = a at hhold hfield
  have hans := a.complete_answers src 0 0 0 0
  have hkept (f : RF) (hf : f.off = R.SUP_MODE) : (a.complete src 0 0 0 0).get f = a.get f := State.get_of_rd (hans.rd_out (Or.inl (by rw [hf]; decide)))
  exact ⟨hans.mode.trans hhold.mode, (hkept _ rfl).trans hhold.cause, (hkept _ rfl).trans hfield⟩

theorem completes_modeRequestRestart (hop : d.op = 0x70) (ha : d.arg0.toNat % 8 = 2) :
    Completes .modeRequestRestart s (fun t => t.get F.SUP_RESET_cause = 1 ∧
      t.get F.SUP_RESET_warm = min 255 (s.get F.SUP_RESET_warm + 1) ∧ t.get F.HIF_STS_generation = (s.get F.HIF_STS_generation + 1) % 256 ∧
      t.hif.accepted = [] ∧ t.hif.running = []) := by
  have hkept (f : RF) (hf : f.off < 0x20008) : (s.taken.complete src 0 0).abortAll.get f = s.get f :=
    State.get_of_rd ((State.abortAll_rd _ (Or.inl hf)).trans ((s.taken.complete_answers src 0 0 0 0).rd_out (Or.inl hf)))
  have hspec := ((s.taken.complete src 0 0).abortAll).warmReset_spec (cause := 1) (by decide)
  refine completes_accepted rfl h (by simp [isOp, hop, ha]) ⟨hspec.cause, hspec.warm.trans ?_, hspec.generation.trans ?_, hspec.accepted, hspec.running⟩
  · rw [hkept _ (by decide)]
  · rw [hkept _ (by decide)]

/-! ## CAD_TABLE_WRITE -/

variable (data : List Byte)

theorem completes_cadTable_bad (hop : d.op = 0x20) (hb : s.hif.bme = true) (hlen : d.len.toNat = data.length)
    (hbad : ∃ e ∈ tableEntries data, e.1 % 4 ≠ 0 ∨ 0x1000 ≤ e.1) :
    Completes (.cadTableWrite data) s (fun t => t.says src 2 0 0 0 ∧ t.cad = s.cad ∧ t.rd R.CAD_STS = s.rd R.CAD_STS) := by
  have htrue : tableBad (tableEntries data) = true := by simpa [tableBad] using hbad
  have ha := State.taken_answered h 2 0 0 0
  refine ⟨_, ?_, ha.answer, (congrArg State.cad ha.rest.part :), ha.rest.rd_out (Or.inr (by decide))⟩
  show State.runAccepted s _ _ (tableBad (tableEntries data)) = _
  rw [htrue]
  exact State.runAccepted_bad h (by simp [s.opHost_of hop hb, hlen]) _

/-- A table whose entries are all of Cadence is written, in order. -/
theorem cadTable_written (hop : d.op = 0x20) (hb : s.hif.bme = true) (hlen : d.len.toNat = data.length) (hgood : ∀ e ∈ tableEntries data, e.1 % 4 = 0 ∧ e.1 < 0x1000)
    {P : State → Prop} (hP : let r := (tableEntries data).foldl State.tableEntry (s.taken, 0, 0); P (r.1.complete src 0 0 r.2.1 r.2.2)) :
    Completes (.cadTableWrite data) s P := by
  have hfalse : tableBad (tableEntries data) = false := by
    unfold tableBad
    rw [List.any_eq_false]
    intro e he
    obtain ⟨h4, hlt⟩ := hgood e he
    simp [h4, hlt]
  refine ⟨_, ?_, hP⟩
  show State.runAccepted s _ _ (tableBad (tableEntries data)) = _
  rw [hfalse]
  exact State.runAccepted_taken h (by simp [s.opHost_of hop hb, hlen]) _

theorem completes_cadTable_good (hop : d.op = 0x20) (hb : s.hif.bme = true) (hlen : d.len.toNat = data.length)
    (hgood : ∀ e ∈ tableEntries data, e.1 % 4 = 0 ∧ e.1 < 0x1000) :
    let r := (tableEntries data).foldl State.tableEntry (s.taken, 0, 0)
    Completes (.cadTableWrite data) s (fun t => t.cad = r.1.cad ∧ ∀ off, 0x40000 ≤ off → off < 0x41000 → t.rd off = r.1.rd off) := by
  intro r
  have ha := r.1.complete_answers src 0 0 r.2.1 r.2.2
  exact cadTable_written h data hop hb hlen hgood ⟨(congrArg State.cad ha.part :), fun off h1 _ => ha.rd_out (Or.inr (by omega))⟩

theorem completes_cadTable_discarded (hop : d.op = 0x20) (hb : s.hif.bme = true) (hlen : d.len.toNat = data.length) {off : Nat} {v : Word}
    (hdata : tableEntries data = [(off, v)]) (h4 : off % 4 = 0) (hlt : off < 0x1000) (hdis : s.cadDiscards (0x40000 + off) v = true) :
    Completes (.cadTableWrite data) s (fun t => t.says src 0 0 0 1 ∧ t.cad = (s.taken.cadWrite (0x40000 + off) v).cad) := by
  have htaken : s.taken.cadDiscards (0x40000 + off) v = true := hdis
  refine cadTable_written h data hop hb hlen (by rw [hdata]; simp [h4, hlt]) ?_
  have hentry : (tableEntries data).foldl State.tableEntry (s.taken, 0, 0) = (s.taken.cadWrite (0x40000 + off) v, 0, 1) := by
    rw [hdata, List.foldl_cons, List.foldl_nil, State.tableEntry]
    exact if_pos htaken
  rw [hentry]
  have ha := State.Awaits.answered (s.taken.cadWrite_awaits htaken) (State.taken_canAnswer h) h.2.2.2.1 0 0 0 1
  exact ⟨ha.answer, (congrArg State.cad ha.rest.part :)⟩

end

end Sys2Proof.Machine
end

section
/-! PROOFS. Admin commands that switch a source, test and clear the repair map (R410 to R418, R431). -/

namespace Sys2Proof.Machine

variable {s t u : State} {src : CmdSrc} {d : AdminDesc}

/-! ## Frames of the tests and of the map -/

section

variable (s : State)

theorem State.vset_awaits (n col off w v : Nat) : s.Awaits (s.vset n col off w v) := by
  have hframe (u : State) (a : Nat) (f : Frame) : u.Awaits (u.setFrame a f) := .of_same rfl rfl rfl
  unfold State.vset
  dsimp only
  exact .ite (fun _ => hframe _ _ _) fun _ => (hframe _ _ _).trans (hframe _ _ _)

theorem State.firnClear_awaits (n f b : Nat) : s.Awaits (s.firnClear n f b) := by
  have hfab (u : State) (x : Fab) : u.Awaits { u with fab := x } := .of_same rfl rfl rfl
  exact .trans (.foldl (fun u _ _ => u.vset_awaits _ _ _ _ _) s) (hfab _ _)

theorem State.secretClear_awaits (n : Nat) : s.Awaits (s.secretClear n) :=
  .foldl (fun u _ _ => .foldl (fun u _ _ => .ite (fun _ => u.firnClear_awaits _ _ _) fun _ => .refl _ _ _) u) s

theorem State.mapErase_awaits (base : Nat) : s.Awaits (s.mapErase base) := by
  have herase (u : State) (a n : Nat) : u.Awaits (u.norErase a n) := .of_same rfl rfl rfl
  have hmor (u : State) (lo w v : Nat) : u.Awaits (u.put ⟨R.FLT_MOR_STS, lo, w⟩ v) := u.putOut_awaits v (Or.inr (show 0x21080 ≤ R.FLT_MOR_STS by decide))
  have hshow (u : State) : u.Awaits u.mapShow := ((hmor u _ _ _).trans (hmor _ _ _ _)).trans ((hmor _ _ _ _).trans (hmor _ _ _ _))
  exact ((herase s base 0x20000).trans (State.setFlt_awaits _ _)).trans (((hmor _ _ _ _).trans (hshow _)).trans (State.raiseFree_awaits _ _))

theorem State.mapErase_nor (base : Nat) : (s.mapErase base).nor = (s.norErase base 0x20000).nor ∧ (s.mapErase base).norSize = s.norSize :=
  ⟨State.raiseFree_nor _ _, State.raiseFree_norSize _ _⟩

/-- An erased byte reads 0xFF. -/
theorem State.norErase_byte (a n k : Nat) : (s.norErase a n).norByte k = if k < a ∨ a + n ≤ k then s.norByte k else 0xFF := by
  have hget : SMap.get (fun _ => 0xFF) (s.norErase a n).nor k = if k < a ∨ a + n ≤ k then SMap.get (fun _ => 0xFF) s.nor k else 0xFF := by
    have hnor : (s.norErase a n).nor = SMap.keep s.nor (fun k => decide (k < a) || decide (a + n ≤ k)) := rfl
    rw [hnor, SMap.get_keep]
    by_cases hk : k < a ∨ a + n ≤ k
    · rw [if_pos hk, if_pos (by simpa using hk)]
    · rw [if_neg hk, if_neg (by simpa using hk)]
  rw [State.norByte, hget, State.norByte]
  have hsize : (s.norErase a n).norSize = s.norSize := rfl
  rw [hsize]
  by_cases hk : k < a ∨ a + n ≤ k
  · rw [if_pos hk, if_pos hk]
  · rw [if_neg hk, if_neg hk, ite_self]

theorem State.norByte_congr (hn : t.nor = s.nor) (hs : t.norSize = s.norSize) (a : Nat) : t.norByte a = s.norByte a := by
  rw [State.norByte, hn, hs, State.norByte]

theorem State.switchReject_spec (k : Nat) : s.Awaits (s.switchReject k) ∧ (s.switchReject k).get (F.CAD_TRK_SW_result k) = 3 ∧ (s.switchReject k).logged 0x0506 k := by
  have hput : s.Awaits (s.put (F.CAD_TRK_SW_result k) 3) := s.putTrk_awaits (k := k) (a := 0x40434) 3 rfl (by decide)
  refine ⟨hput.trans (State.raise_awaits _ _ _), ?_, State.raise_logged _ _ _⟩
  exact (State.raise_getKept _ _ _ (eventReg_of_page (Nat.le_add_right_of_le (by decide)))).trans (State.get_put_lit _ rfl)

end

/-- The operands of a switch in its registers. -/
def State.switchOperands (s : State) (k a m v o : Nat) : State :=
  (((((s.put (F.CAD_TRK_SW_src k) (a / 8)).put (F.CAD_TRK_SW_align k) (a / 32)).put (F.CAD_TRK_SW_timeout k) (a / 256)).put (F.CAD_TRK_SW_mul k) m).put
    (F.CAD_TRK_SWDIV_div k) v).put (F.CAD_TRK_SWOFS_offset k) o

theorem State.switchOperands_eq (s : State) (k a m v o : Nat) :
    (((((s.put (F.CAD_TRK_SW_src k) (a / 8)).put (F.CAD_TRK_SW_align k) (a / 32)).put (F.CAD_TRK_SW_timeout k) (a / 256)).put (F.CAD_TRK_SW_mul k) m).put
      (F.CAD_TRK_SWDIV_div k) v).put (F.CAD_TRK_SWOFS_offset k) o = s.switchOperands k a m v o := rfl

theorem State.switchOperands_hif (s : State) (k a m v o : Nat) : (s.switchOperands k a m v o).hif = s.hif := rfl

theorem State.switchOperands_spec (s : State) (k a m v o : Nat) :
    (s.switchOperands k a m v o).get (F.CAD_TRK_SW_src k) = a / 8 % 4 ∧ (s.switchOperands k a m v o).get (F.CAD_TRK_SW_mul k) = m % 2 ^ 16 ∧
    (s.switchOperands k a m v o).get (F.CAD_TRK_SWDIV_div k) = v % 2 ^ 24 ∧ (s.switchOperands k a m v o).get (F.CAD_TRK_SWOFS_offset k) = o % 2 ^ 32 := by
  have hdiv : (F.CAD_TRK_SWOFS_offset k).apart (F.CAD_TRK_SWDIV_div k) = true := apart_base rfl rfl rfl
  have hofs (f : RF) (hf : f.off = R.CAD_TRK_SW k) : (F.CAD_TRK_SWOFS_offset k).apart f = true ∧ (F.CAD_TRK_SWDIV_div k).apart f = true :=
    ⟨apart_base rfl hf rfl, apart_base rfl hf rfl⟩
  unfold State.switchOperands
  refine ⟨?_, ?_, ?_, State.get_put_self _ _ rfl⟩
  · rw [State.get_put_apart _ _ (hofs _ rfl).1, State.get_put_apart _ _ (hofs _ rfl).2, State.get_put_apart _ _ rfl, State.get_put_apart _ _ rfl,
      State.get_put_apart _ _ rfl]
    exact State.get_put_self _ _ rfl
  · rw [State.get_put_apart _ _ (hofs _ rfl).1, State.get_put_apart _ _ (hofs _ rfl).2]
    exact State.get_put_self _ _ rfl
  · rw [State.get_put_apart _ _ hdiv]
    exact State.get_put_self _ _ rfl

/-- The observer that a switch starts. -/
def State.switchShadow (s : State) (k : Nat) : Observer :=
  { src := s.get (F.CAD_TRK_SW_src k), mul := s.get (F.CAD_TRK_SW_mul k), div := s.get (F.CAD_TRK_SWDIV_div k)
    ofs := BitVec.ofNat 32 (s.get (F.CAD_TRK_SWOFS_offset k)) }

theorem State.runCmd_trkT (s : State) (c : AdminCmd) (k : Nat) : (s.runCmd c).trkT k = s.trkT k := rfl
theorem State.runCmd_running (s : State) (c : AdminCmd) : (s.runCmd c).hif.running = s.hif.running ++ [c] := rfl

/-- A switch that goes shows itself busy and has a shadow with its operands, and its command runs. -/
theorem State.switchGo_runs (s : State) (k : Nat) (c : AdminCmd) : ((s.switchGo k).runCmd c).get (F.CAD_TRK_SW_busy k) = 1 ∧
    ((s.switchGo k).runCmd c).hif.running = s.hif.running ++ [c] ∧ (((s.switchGo k).runCmd c).trkT k).shadow = some (s.switchShadow k) := by
  have hgo : (s.switchGo k).get (F.CAD_TRK_SW_busy k) = 1 := (State.get_put_apart _ _ rfl).trans (State.get_put_lit _ rfl)
  have hhif : (s.switchGo k).hif = s.hif := rfl
  refine ⟨((s.switchGo k).runCmd_get c _).trans hgo, ?_, ?_⟩
  · rw [State.runCmd_running, hhif]
  · rw [State.runCmd_trkT]
    unfold State.switchGo
    simp only [State.put_trkT, State.trkT_setTrk]
    rfl

theorem State.switchOperands_shadow (s : State) (k : Nat) (a m v : Nat) (o : Word) : ((s.switchOperands k a m v o.toNat).switchShadow k).src = a / 8 % 4 ∧
    ((s.switchOperands k a m v o.toNat).switchShadow k).mul = m % 2 ^ 16 ∧ ((s.switchOperands k a m v o.toNat).switchShadow k).div = v % 2 ^ 24 ∧
    ((s.switchOperands k a m v o.toNat).switchShadow k).ofs = o := by
  obtain ⟨hsrc, hmul, hdiv, hofs⟩ := s.switchOperands_spec k a m v o.toNat
  refine ⟨hsrc, hmul, hdiv, ?_⟩
  rw [State.switchShadow, hofs, Nat.mod_eq_of_lt o.isLt, BitVec.ofNat_toNat, BitVec.setWidth_eq]

/-! ## SPARE_MAP with the reset bit -/

section

variable (h : s.waitsFor src d)

include h

theorem completes_spareMapReset (ok : Bool) {base : Nat} (hop : d.op = 0x50) (hreset : d.arg0.getLsbD 1 = true) (hmap : s.mapAt = some base) :
    Completes (.spareMapReset ok) s (fun t => t.says src (if ok then 0 else 8) 0 0 0 ∧
      (ok = true → t.loggedSome 0x0C04 ∧ ∀ a, base ≤ a → a < base + 0x20000 → t.norByte a = 0xFF) ∧ (ok = false → t.nor = s.nor)) := by
  have htaken : s.taken.mapAt = some base := hmap
  refine completes_accepted rfl h (by simp [isOp, hop, hreset]) ?_
  dsimp only
  rw [htaken]
  cases ok with
  | false =>
    have ha := State.taken_answered h 8 0 0 0
    exact ⟨ha.answer, fun hf => absurd hf (by decide), fun _ => (congrArg State.nor ha.rest.part :)⟩
  | true =>
    have ha := State.Awaits.answered (s.taken.mapErase_awaits base) (State.taken_canAnswer h) h.2.2.2.1 0 0 0 0
    obtain ⟨hnor, hsize⟩ := s.taken.mapErase_nor base
    have hlog : (s.taken.mapErase base).loggedSome 0x0C04 := State.raiseFree_loggedSome _ _
    refine ⟨ha.answer, fun _ => ⟨?_, fun a h1 h2 => ?_⟩, fun hf => absurd hf (by decide)⟩
    · obtain ⟨p, hp⟩ := hlog
      exact ⟨p, State.Alters.logged ha.rest hp⟩
    · have hbyte := s.taken.norErase_byte base 0x20000 a
      rw [if_neg (by omega)] at hbyte
      have hsz : (s.taken.norErase base 0x20000).norSize = s.taken.norSize := rfl
      have hn : ((s.taken.mapErase base).complete src 0 0 0 0).nor = (s.taken.norErase base 0x20000).nor := (congrArg State.nor ha.rest.part :).trans hnor
      exact (State.norByte_congr _ hn ((congrArg State.norSize ha.rest.part :).trans (hsize.trans hsz.symm)) a).trans hbyte

/-! ## CAD_SOURCE_SWITCH -/

/-- A rejected switch is answered with its status. -/
theorem switchRejected_answered (k status : Nat) : ((s.taken.switchReject k).complete src status 0).says src status 0 0 0 ∧
    ((s.taken.switchReject k).complete src status 0).get (F.CAD_TRK_SW_result k) = 3 ∧ ((s.taken.switchReject k).complete src status 0).logged 0x0506 k := by
  obtain ⟨hwait, hres, hlog⟩ := s.taken.switchReject_spec k
  have ha := State.Awaits.answered hwait (State.taken_canAnswer h) h.2.2.2.1 status 0 0 0
  exact ⟨ha.answer, (State.get_of_rd (ha.rest.rd_out (Or.inr (Nat.le_add_right_of_le (by decide))))).trans hres, State.Alters.logged ha.rest hlog⟩

theorem completes_cadSwitch_busy (hop : d.op = 0x21) (hb : s.switchBusy (d.arg0.toNat % 8) = true) :
    Completes .cadSourceSwitch s (fun t => t.says src 6 0 0 0 ∧ t.get (F.CAD_TRK_SW_result (d.arg0.toNat % 8)) = 3 ∧ t.logged 0x0506 (d.arg0.toNat % 8)) := by
  have hbusy : s.taken.switchBusy (d.arg0.toNat % 8) = true := hb
  refine completes_accepted rfl h (by simp [isOp, hop]) ?_
  dsimp only
  rw [if_pos hbusy]
  exact switchRejected_answered h _ 6

theorem completes_cadSwitch_bad (hop : d.op = 0x21) (hb : s.switchBusy (d.arg0.toNat % 8) = false)
    (hbad : s.trkState (d.arg0.toNat % 8) = 0 ∨ s.srcValid (d.arg0.toNat / 8 % 4) = false) :
    Completes .cadSourceSwitch s (fun t => t.says src 3 0 0 0 ∧ t.get (F.CAD_TRK_SW_result (d.arg0.toNat % 8)) = 3 ∧ t.logged 0x0506 (d.arg0.toNat % 8)) := by
  have hbusy : s.taken.switchBusy (d.arg0.toNat % 8) = false := hb
  have hcheck : s.taken.switchCheck (d.arg0.toNat % 8) (d.arg0.toNat / 8 % 4) = 1 := by
    refine if_pos ?_
    rcases hbad with h0 | hv
    · exact Or.inl h0
    · exact Or.inr (by rw [show s.taken.srcValid (d.arg0.toNat / 8 % 4) = false from hv]; rfl)
  refine completes_accepted rfl h (by simp [isOp, hop]) ?_
  dsimp only
  rw [if_neg (by rw [hbusy]; decide), if_pos (by rw [hcheck]; decide)]
  exact switchRejected_answered h _ 3

theorem completes_cadSwitch_goes (hop : d.op = 0x21) (hb : s.switchBusy (d.arg0.toNat % 8) = false) (hst : s.trkState (d.arg0.toNat % 8) ≠ 0)
    (hv : s.srcValid (d.arg0.toNat / 8 % 4) = true) :
    Completes .cadSourceSwitch s (fun t => t.get (F.CAD_TRK_SW_busy (d.arg0.toNat % 8)) = 1 ∧ t.hif.running = s.hif.running ++ [⟨src, d⟩] ∧
      ∃ o, (t.trkT (d.arg0.toNat % 8)).shadow = some o ∧ o.src = d.arg0.toNat / 8 % 4 ∧ o.mul = d.arg1.toNat % 2 ^ 16 ∧ o.div = d.arg2.toNat % 2 ^ 24 ∧ o.ofs = d.arg3) := by
  have hbusy : s.taken.switchBusy (d.arg0.toNat % 8) = false := hb
  have hcheck : s.taken.switchCheck (d.arg0.toNat % 8) (d.arg0.toNat / 8 % 4) = 0 := by
    have hval : s.taken.srcValid (d.arg0.toNat / 8 % 4) = true := hv
    refine (if_neg ?_).trans (if_neg (by rw [hbusy]; decide))
    rintro (h0 | hn)
    · exact hst h0
    · rw [hval] at hn
      cases hn
  refine completes_accepted rfl h (by simp [isOp, hop]) ?_
  dsimp only
  rw [if_neg (by rw [hbusy]; decide), if_neg (by rw [hcheck]; decide)]
  generalize d.arg0.toNat % 8 = k
  rw [s.taken.switchOperands_eq]
  obtain ⟨hbusy', hrun, hshadow⟩ := (s.taken.switchOperands k d.arg0.toNat d.arg1.toNat d.arg2.toNat d.arg3.toNat).switchGo_runs k ⟨src, d⟩
  exact ⟨hbusy', hrun, _, hshadow, s.taken.switchOperands_shadow k _ _ _ _⟩


end

end Sys2Proof.Machine
end

section
/-! PROOFS. The admin command BIST_RUN (R410 to R415). -/

namespace Sys2Proof.Machine

variable {s t u : State} {src : CmdSrc} {d : AdminDesc}

/-- A test that finds nothing ends with code 0, and takes no region out. -/
theorem State.hardTest_clean (s : State) (kind set start : Nat) : (s.hardTest kind set start []).2.1.code = 0 ∧ (s.hardTest kind set start []).2.2 = [] ∧
    (s.hardTest kind set start []).1.mode = s.mode ∧ (s.hardTest kind set start []).1.hif = s.hif := ⟨rfl, rfl, rfl, rfl⟩

theorem State.firnLost_kept (s : State) (set : Nat) : (s.firnLost set).mode = s.mode ∧ (s.firnLost set).hif = s.hif := ⟨rfl, rfl⟩

theorem State.finishLater_kept (s : State) (src : CmdSrc) (status detail res0 : Nat) : (s.finishLater src status detail res0).mode = s.mode ∧
    (s.finishLater src status detail res0).hif.finished = s.hif.finished ++ [⟨src, false, status, detail, res0, 0⟩] := ⟨rfl, rfl⟩

/-- The state that a test of regions without a fault leaves. -/
theorem State.cleanTest_kept (s : State) (src : CmdSrc) (kind set start lost : Nat) :
    let r := s.hardTest kind set start []
    let t := (r.2.2.eraseDups.foldl (fun s n => s.regionOut n 0x0405) (r.1.firnLost lost)).finishLater src (testStatus r.2.1.code) r.2.1.code r.2.1.id
    t.mode = s.mode ∧ ∃ id, t.hif.finished = s.hif.finished ++ [⟨src, false, 0, 0, id, 0⟩] := by
  intro r t
  obtain ⟨hcode, hout, hmode, hhif⟩ := s.hardTest_clean kind set start
  have ht : t = (r.1.firnLost lost).finishLater src 0 0 r.2.1.id := by
    simp only [t, r, hcode, hout]
    rfl
  obtain ⟨hm, hf⟩ := (r.1.firnLost lost).finishLater_kept src 0 0 r.2.1.id
  obtain ⟨hlm, hlh⟩ := r.1.firnLost_kept lost
  rw [ht]
  exact ⟨hm.trans (hlm.trans hmode), _, hf.trans (by rw [hlh, hhif])⟩

/-- The contents of regions are cleared before a test of them. -/
theorem secretsClear_kept (l : List Nat) (s : State) : (l.foldl (fun s n => s.secretClear n) s).mode = s.mode ∧
    (l.foldl (fun s n => s.secretClear n) s).hif.finished = s.hif.finished := by
  have hw : s.Winds (l.foldl (fun s n => s.secretClear n) s) := .foldl (fun u n _ => State.Clears.winds (u.secretClear_clears n)) s
  have ha : s.Awaits (l.foldl (fun s n => s.secretClear n) s) := .foldl (fun u n _ => u.secretClear_awaits n) s
  exact ⟨State.Winds.mode hw, State.Awaits.finished ha⟩

section

variable (h : s.waitsFor src d) (hop : d.op = 0x30)

include h hop

theorem completes_bistRun_none (found : List TestFault) (h0 : d.source = 0) (hnone : (List.range 64).any s.groupTestable = false) :
    Completes (.bistRun found) s (fun t => t.says src 0 4 (match s.flt.bist.run with | some r => r.id | none => 0) 0) := by
  have htaken : (List.range 64).any s.taken.groupTestable = false := hnone
  refine completes_accepted rfl h (by simp [isOp, hop]) ?_
  dsimp only
  rw [if_pos h0, htaken, if_pos (by decide)]
  exact (State.taken_answered h 0 4 _ 0).answer

theorem completes_bistRun_plan (found : List TestFault) (h0 : d.source = 0) (hsome : (List.range 64).any s.groupTestable = true) :
    Completes (.bistRun found) s (fun t => t.hif.running = s.hif.running ++ [⟨src, d⟩] ∧ t.flt.bist.full = 1088 ∧
      t.flt.bist.planned = if d.arg2 = 0 then 16384 else d.arg2.toNat) := by
  have htaken : (List.range 64).any s.taken.groupTestable = true := hsome
  have hzero : (d.arg2.toNat = 0) = (d.arg2 = 0) := propext ⟨fun h => BitVec.eq_of_toNat_eq h, fun h => by rw [h]; rfl⟩
  refine completes_accepted rfl h (by simp [isOp, hop]) ?_
  dsimp only
  rw [if_pos h0, htaken, if_neg (by decide)]
  exact ⟨rfl, rfl, if_congr (Iff.of_eq hzero) rfl rfl⟩

theorem completes_bistRun_regions (h0 : d.source ≠ 0) :
    Completes (.bistRun []) s (fun t => t.mode = s.mode ∧ ∃ c, t.hif.finished = [c] ∧ c.src = src ∧ c.status = 0) := by
  refine completes_accepted rfl h (by simp [isOp, hop]) ?_
  dsimp only
  rw [if_neg h0]
  obtain ⟨hmode, hfin⟩ := secretsClear_kept (s.taken.liveOf (d.arg1.toNat % 65536)) (s.taken.runCmd ⟨src, d⟩)
  generalize (s.taken.liveOf (d.arg1.toNat % 65536)).foldl (fun s n => s.secretClear n) (s.taken.runCmd ⟨src, d⟩) = a at hmode hfin ⊢
  obtain ⟨htm, id, htf⟩ := a.cleanTest_kept src 1 ((a.liveOf (d.arg1.toNat % 65536)).foldl (fun a n => a + 2 ^ n) 0) a.time (d.arg1.toNat % 65536)
  have hempty : a.hif.finished = [] := hfin.trans h.2.2.2.1
  rw [hempty, List.nil_append] at htf
  exact ⟨htm.trans hmode, _, htf, rfl, rfl⟩

end

end Sys2Proof.Machine
end

section
/-! SUPPORT. The settings memory: what a read of it depends on, and what a settings record holds once it is written or erased (R264, R265, R421). -/

namespace Sys2Proof.Machine

variable {s t u : State}

/-! ## Reads of the settings memory -/

theorem State.norRead_congr {a n : Nat} (h : ∀ i < n, t.norByte (a + i) = s.norByte (a + i)) : t.norRead a n = s.norRead a n :=
  List.map_congr_left fun i hi => h i (List.mem_range.mp hi)

theorem State.norNat_congr {a n : Nat} (h : ∀ i < n, t.norByte (a + i) = s.norByte (a + i)) : t.norNat a n = s.norNat a n := by
  rw [State.norNat, State.norRead_congr h, State.norNat]

/-- The directory lies below the first 128 KiB. -/
theorem State.settingsAt_congr (hok : t.norOk = s.norOk) (hdir : t.get F.LDR_STS_dir_copy = s.get F.LDR_STS_dir_copy)
    (hlow : ∀ o < 0x20000, t.norByte o = s.norByte o) : t.settingsAt = s.settingsAt := by
  have hcopy : t.dirCopy (s.get F.LDR_STS_dir_copy) = s.dirCopy (s.get F.LDR_STS_dir_copy) := by
    have hbit : s.get F.LDR_STS_dir_copy < 2 := s.get_lt F.LDR_STS_dir_copy
    unfold State.dirCopy
    rw [hok, State.norRead_congr fun i hi => hlow _ (by omega)]
  rw [State.settingsAt, State.dirEntry, State.directory, hdir, hcopy]
  rfl

/-- A settings record lies within its copy. -/
theorem State.settingsRecord_congr (hok : t.norOk = s.norOk) (hat : t.settingsAt = s.settingsAt) {base c : Nat} (hb : s.settingsAt = some base)
    (hbytes : ∀ i < 0x10000, t.norByte (base + 0x10000 * c + i) = s.norByte (base + 0x10000 * c + i)) : t.settingsRecord c = s.settingsRecord c := by
  have hnat {k : Nat} (hk : k + 4 ≤ 0x10000) : t.norNat (base + 0x10000 * c + k) 4 = s.norNat (base + 0x10000 * c + k) 4 := by
    refine State.norNat_congr fun i hi => ?_
    rw [Nat.add_assoc _ k i]
    exact hbytes _ (by omega)
  unfold State.settingsRecord
  rw [hat, hb]
  dsimp only
  rw [hok, hnat (k := 8) (by decide), show t.norNat (base + 0x10000 * c) 4 = s.norNat (base + 0x10000 * c) 4 from hnat (k := 0) (by decide)]
  generalize s.norNat (base + 0x10000 * c + 8) 4 = n
  by_cases hn : 65520 < n
  · rw [if_pos (Or.inr (Or.inr hn)), if_pos (Or.inr (Or.inr hn))]
  · have hread : t.norRead (base + 0x10000 * c + 16) n = s.norRead (base + 0x10000 * c + 16) n := by
      refine State.norRead_congr fun i hi => ?_
      rw [Nat.add_assoc _ 16 i]
      exact hbytes _ (by omega)
    rw [hnat (k := 4) (by decide), hnat (k := 12) (by decide), hread]

/-! ## A record -/

theorem leNat_le (n v : Nat) : leNat (le n v) = v % 256 ^ n := by
  induction n generalizing v with
  | zero => simp [le, leNat, Nat.mod_one]
  | succ n ih =>
    rw [le, leNat, ih, BitVec.toNat_ofNat, show 256 ^ (n + 1) = 256 * 256 ^ n from Nat.pow_succ', Nat.mod_mul]

/-- Bytes that stand at an address. -/
def State.holdsAt (s : State) (a : Nat) (l : List Byte) : Prop := ∀ i (h : i < l.length), s.norByte (a + i) = l[i]

theorem State.holdsAt.read {a : Nat} {l : List Byte} (h : s.holdsAt a l) (k m : Nat) (hk : k + m ≤ l.length) : s.norRead (a + k) m = (l.drop k).take m := by
  refine List.ext_getElem ?_ fun i h1 h2 => ?_
  · simp only [State.norRead, List.length_map, List.length_range, List.length_take, List.length_drop]
    omega
  · have hi : i < m := by simpa [State.norRead] using h1
    simp only [State.norRead, List.getElem_map, List.getElem_range, List.getElem_take, List.getElem_drop]
    rw [Nat.add_assoc]
    exact h (k + i) (by omega)

theorem settingsBytes_length (seq : Nat) (body : List Byte) : (settingsBytes seq body).length = 16 + body.length := by
  simp only [settingsBytes, List.length_append, le_length]

/-- A whole record is one. -/
theorem State.holdsAt.record {base c seq : Nat} {body : List Byte} (h : s.holdsAt (base + 0x10000 * c) (settingsBytes seq body)) (hat : s.settingsAt = some base)
    (hok : s.norOk = true) (hlen : body.length ≤ 65520) (hsec : (sectionsOf body.length body).isSome = true) : (s.settingsRecord c).isSome = true := by
  have hread (k m : Nat) (hk : k + m ≤ 16 + body.length) := h.read k m (by rw [settingsBytes_length]; exact hk)
  have hmagic : s.norNat (base + 0x10000 * c) 4 = 0x6A5C5E77 := by
    rw [State.norNat, show s.norRead (base + 0x10000 * c) 4 = le 4 0x6A5C5E77 from hread 0 4 (by omega), leNat_le]
    rfl
  have hn : s.norNat (base + 0x10000 * c + 8) 4 = body.length := by
    rw [State.norNat, show s.norRead (base + 0x10000 * c + 8) 4 = le 4 body.length from hread 8 4 (by omega), leNat_le]
    exact Nat.mod_eq_of_lt (by omega)
  have hcrc : s.norNat (base + 0x10000 * c + 12) 4 = (crc32c body).toNat := by
    rw [State.norNat, show s.norRead (base + 0x10000 * c + 12) 4 = le 4 (crc32c body).toNat from hread 12 4 (by omega), leNat_le]
    exact Nat.mod_eq_of_lt (crc32c body).isLt
  have hbody : s.norRead (base + 0x10000 * c + 16) body.length = body := (hread 16 body.length (Nat.le_refl _)).trans List.take_length
  unfold State.settingsRecord
  rw [hat]
  dsimp only
  rw [hok, hn, hmagic, hbody, hcrc, if_neg (by simp; omega), if_neg (by simp), Option.isSome_map]
  exact hsec

/-- An erased record is none. -/
theorem State.settingsRecord_erased {base c : Nat} (hat : s.settingsAt = some base) (h : ∀ i < 4, s.norByte (base + 0x10000 * c + i) = 0xFF) : s.settingsRecord c = none := by
  have hread : s.norRead (base + 0x10000 * c) 4 = (List.range 4).map fun _ => 0xFF := List.map_congr_left fun i hi => h i (List.mem_range.mp hi)
  have hmagic : s.norNat (base + 0x10000 * c) 4 ≠ 0x6A5C5E77 := by
    rw [State.norNat, hread]
    decide
  unfold State.settingsRecord
  rw [hat]
  exact if_pos (Or.inr (Or.inl hmagic))

end Sys2Proof.Machine
end

section
/-! SUPPORT. A store of the settings (R264, R421). -/

namespace Sys2Proof.Machine

variable {s t u : State} {src : CmdSrc} {d : AdminDesc}

/-! ## A stored record -/

/-- The copy of the settings erased and written. -/
def State.settingsPut (s : State) (a : Nat) (bytes : List Byte) : State := (s.norErase a 0x10000).norWrite a bytes

section

variable (s : State) (a : Nat) (bytes : List Byte)

theorem State.norWrite_kept (l : List Byte) (s : State) (a : Nat) :
    (s.norWrite a l).regs = s.regs ∧ (s.norWrite a l).units = s.units ∧ (s.norWrite a l).norSize = s.norSize ∧ (s.norWrite a l).hif = s.hif := by
  induction l generalizing s a with
  | nil => exact ⟨rfl, rfl, rfl, rfl⟩
  | cons b l ih => exact ih _ _

theorem State.settingsPut_kept : (s.settingsPut a bytes).regs = s.regs ∧ (s.settingsPut a bytes).units = s.units ∧ (s.settingsPut a bytes).norSize = s.norSize ∧
    (s.settingsPut a bytes).hif = s.hif := (s.norErase a 0x10000).norWrite_kept bytes a

theorem State.settingsPut_outside (hl : bytes.length ≤ 0x10000) {o : Nat} (ho : o < a ∨ a + 0x10000 ≤ o) : (s.settingsPut a bytes).norByte o = s.norByte o := by
  have herase : (s.norErase a 0x10000).norByte o = s.norByte o := (s.norErase_byte a 0x10000 o).trans (if_pos ho)
  rcases ho with h | h
  · exact (State.norWrite_before _ _ _ _ h).trans herase
  · exact (State.norWrite_after _ _ _ _ (by omega)).trans herase

theorem State.settingsPut_holds (hs : a + bytes.length ≤ s.norSize) : (s.settingsPut a bytes).holdsAt a bytes :=
  fun i h => State.norWrite_read bytes _ a i h (show a + i < s.norSize by omega)

/-- Nothing is written where the write fails. -/
theorem State.settingsPut_erased {i : Nat} (h : i < 0x10000) : (s.settingsPut a []).norByte (a + i) = 0xFF :=
  (s.norErase_byte a 0x10000 (a + i)).trans (if_neg (by omega))

end

/-- The part of a store before LDR_STS shows it. -/
theorem State.settingsStore_eq (s : State) (base : Nat) (body : List Byte) (ok : Bool) :
    let c := s.get F.LDR_STS_set_copy
    let seq := match s.settingsRecord c with | some r => r.1 | none => 0
    let u := s.settingsPut (base + 0x10000 * (1 - c)) (if ok then settingsBytes (seq + 1) body else [])
    s.settingsStore base body ok = (if ok then u.put F.LDR_STS_set_copy (1 - c) else u).setSingle := by
  cases ok <;> rfl

/-- The copy in use stays, wherever the directory does. -/
theorem State.settingsPut_other {c : Nat} {bytes : List Byte} (hat : s.settingsAt = some base) (hbase : 0x20000 ≤ base) (hl : bytes.length ≤ 0x10000) (hc : c < 2)
    (hu : u.norOk = s.norOk ∧ u.get F.LDR_STS_dir_copy = s.get F.LDR_STS_dir_copy ∧ ∀ o, u.norByte o = (s.settingsPut (base + 0x10000 * (1 - c)) bytes).norByte o) :
    u.settingsAt = some base ∧ u.settingsRecord c = s.settingsRecord c := by
  obtain ⟨hok, hdir, hbytes⟩ := hu
  have hout {o : Nat} (ho : o < base + 0x10000 * (1 - c) ∨ base + 0x10000 * (1 - c) + 0x10000 ≤ o) : u.norByte o = s.norByte o :=
    (hbytes o).trans (State.settingsPut_outside _ _ _ hl ho)
  have hset : u.settingsAt = s.settingsAt := State.settingsAt_congr hok hdir fun o ho => hout (Or.inl (by omega))
  exact ⟨hset.trans hat, State.settingsRecord_congr hok hset hat fun i hi => hout (by omega)⟩

theorem State.setSingle_spec (s : State) : s.setSingle.get F.LDR_STS_set_single = (if (s.settingsRecord 0).isSome != (s.settingsRecord 1).isSome then 1 else 0) ∧
    s.setSingle.get F.LDR_STS_set_copy = s.get F.LDR_STS_set_copy ∧ s.setSingle.nor = s.nor ∧ s.setSingle.norSize = s.norSize ∧ s.setSingle.hif = s.hif :=
  ⟨State.get_putB _ _ rfl, State.get_putB_apart _ _ rfl, rfl, rfl, rfl⟩

/-- One record of two, told by the copy that is known. -/
theorem State.single_of (s : State) {c : Nat} (hc : c < 2) : ((s.settingsRecord 0).isSome != (s.settingsRecord 1).isSome) =
    ((s.settingsRecord c).isSome != (s.settingsRecord (1 - c)).isSome) := by
  obtain rfl | rfl : c = 0 ∨ c = 1 := by omega
  · rfl
  · exact Bool.xor_comm _ _

section

variable {base c : Nat} {body : List Byte} (hat : s.settingsAt = some base) (hc : s.get F.LDR_STS_set_copy = c)

include hat hc

/-- A store that succeeds. -/
theorem State.settingsStore_done (hok : s.norOk = true) (hsize : base + 0x20000 ≤ s.norSize) (hlen : body.length ≤ 65520) (hsec : (sectionsOf body.length body).isSome = true) :
    let seq := match s.settingsRecord c with | some r => r.1 | none => 0
    let t := s.settingsStore base body true
    t.get F.LDR_STS_set_copy = 1 - c ∧ (0x20000 ≤ base → t.get F.LDR_STS_set_single = if (s.settingsRecord c).isSome then 0 else 1) ∧
      t.norRead (base + 0x10000 * (1 - c)) (16 + body.length) = settingsBytes (seq + 1) body ∧ t.hif = s.hif := by
  intro seq t
  have hbit : c < 2 := hc ▸ s.get_lt F.LDR_STS_set_copy
  have ht : t = ((s.settingsPut (base + 0x10000 * (1 - c)) (settingsBytes (seq + 1) body)).put F.LDR_STS_set_copy (1 - c)).setSingle := by
    simp only [t, seq, ← hc]
    exact s.settingsStore_eq base body true
  have hbytes : (settingsBytes (seq + 1) body).length = 16 + body.length := settingsBytes_length _ _
  have hholds := s.settingsPut_holds (base + 0x10000 * (1 - c)) (settingsBytes (seq + 1) body) (by omega)
  obtain ⟨hregs, hunits, hnsize, hhif⟩ := s.settingsPut_kept (base + 0x10000 * (1 - c)) (settingsBytes (seq + 1) body)
  have hother (u : State) := State.settingsPut_other (u := u) (c := c) (bytes := settingsBytes (seq + 1) body) hat
  rw [ht]
  clear_value t seq
  generalize s.settingsPut (base + 0x10000 * (1 - c)) (settingsBytes (seq + 1) body) = u at *
  have hput : (u.put F.LDR_STS_set_copy (1 - c)).norOk = s.norOk ∧ (u.put F.LDR_STS_set_copy (1 - c)).get F.LDR_STS_dir_copy = s.get F.LDR_STS_dir_copy ∧
      ∀ o, (u.put F.LDR_STS_set_copy (1 - c)).norByte o = u.norByte o := by
    refine ⟨?_, (State.get_put_apart _ _ rfl).trans (State.get_of_regs hregs _), fun _ => rfl⟩
    show u.units.getLsbD _ = s.units.getLsbD _
    rw [hunits]
  have hcopy : (u.put F.LDR_STS_set_copy (1 - c)).get F.LDR_STS_set_copy = 1 - c := State.get_put_lt _ rfl (show 1 - c < 2 by omega)
  have hvholds : (u.put F.LDR_STS_set_copy (1 - c)).holdsAt (base + 0x10000 * (1 - c)) (settingsBytes (seq + 1) body) := hholds
  have hvhif : (u.put F.LDR_STS_set_copy (1 - c)).hif = u.hif := rfl
  generalize u.put F.LDR_STS_set_copy (1 - c) = v at hput hcopy hvholds hvhif ⊢
  obtain ⟨hsingle, hkept, hnor, hsz, hh⟩ := v.setSingle_spec
  refine ⟨hkept.trans hcopy, fun hbase => ?_, ?_, hh.trans (hvhif.trans hhif)⟩
  · obtain ⟨hvat, hold⟩ := hother v hbase (by omega) hbit hput
    have hnew := hvholds.record hvat (hput.1.trans hok) hlen hsec
    rw [hsingle, v.single_of hbit, hold, hnew]
    cases (s.settingsRecord c).isSome <;> rfl
  · have hread : v.setSingle.norRead (base + 0x10000 * (1 - c)) (16 + body.length) = v.norRead (base + 0x10000 * (1 - c)) (16 + body.length) :=
      State.norRead_congr fun i _ => State.norByte_congr _ hnor hsz _
    rw [hread]
    exact (hvholds.read 0 (16 + body.length) (by omega)).trans (by rw [List.drop_zero, ← hbytes, List.take_length])

/-- A store that fails leaves the copy erased. -/
theorem State.settingsStore_failed : let t := s.settingsStore base body false
    t.get F.LDR_STS_set_copy = c ∧ (0x20000 ≤ base → t.get F.LDR_STS_set_single = if (s.settingsRecord c).isSome then 1 else 0) ∧ t.hif = s.hif := by
  intro t
  have hbit : c < 2 := hc ▸ s.get_lt F.LDR_STS_set_copy
  have ht : t = (s.settingsPut (base + 0x10000 * (1 - c)) []).setSingle := by
    simp only [t, ← hc]
    exact s.settingsStore_eq base body false
  have herased (i : Nat) (hi : i < 4) := s.settingsPut_erased (base + 0x10000 * (1 - c)) (i := i) (by omega)
  obtain ⟨hregs, hunits, hnsize, hhif⟩ := s.settingsPut_kept (base + 0x10000 * (1 - c)) []
  have hother (u : State) := State.settingsPut_other (u := u) (c := c) (bytes := []) hat
  rw [ht]
  clear_value t
  generalize s.settingsPut (base + 0x10000 * (1 - c)) [] = u at *
  obtain ⟨hsingle, hkept, -, -, hh⟩ := u.setSingle_spec
  refine ⟨hkept.trans ((State.get_of_regs hregs _).trans hc), fun hbase => ?_, hh.trans hhif⟩
  have huok : u.norOk = s.norOk := by
    show u.units.getLsbD _ = s.units.getLsbD _
    rw [hunits]
  obtain ⟨huat, hold⟩ := hother u hbase (by simp) hbit ⟨huok, State.get_of_regs hregs _, fun _ => rfl⟩
  rw [hsingle, u.single_of hbit, hold, State.settingsRecord_erased huat herased]
  cases (s.settingsRecord c).isSome <;> rfl

end

end Sys2Proof.Machine
end

section
/-! PROOFS. The admin command SETTINGS_WRITE (R421), and the commands that act on the module. -/

namespace Sys2Proof.Machine

variable {s : State} {src : CmdSrc} {d : AdminDesc}

/-- A command whose completion is held. -/
theorem State.runLater_kept (s : State) (c : AdminCmd) (status : Nat) (hf : s.hif.finished = []) :
    ((s.runCmd c).finishLater c.src status 0).regs = s.regs ∧ ((s.runCmd c).finishLater c.src status 0).nor = s.nor ∧
    ((s.runCmd c).finishLater c.src status 0).norSize = s.norSize ∧ ((s.runCmd c).finishLater c.src status 0).hif.finished = [⟨c.src, false, status, 0, 0, 0⟩] := by
  refine ⟨rfl, rfl, rfl, ?_⟩
  show s.hif.finished ++ _ = _
  rw [hf]
  rfl

section

variable (data : List Byte) (h : s.waitsFor src d) (hop : d.op = 0x60) (hb : s.hif.bme = true) (hlen : d.len.toNat = data.length)

theorem settingsWrite_turn (s : State) (hop : d.op = 0x60) (hb : s.hif.bme = true) (hlen : d.len.toNat = data.length) :
    (s.opHost 0x60 d && d.len.toNat == data.length) = true := by simp [s.opHost_of hop hb, hlen]

/-- A refused write is answered and stores nothing. -/
theorem settingsWrite_refused (h : s.waitsFor src d) (status : Nat) : (s.taken.complete src status 0 0 0).says src status 0 0 0 ∧ (s.taken.complete src status 0 0 0).nor = s.nor := by
  have ha := State.taken_answered h status 0 0 0
  exact ⟨ha.answer, (congrArg State.nor ha.rest.part :)⟩

include h hop hb hlen

/-- A record of settings with a place to stand is stored. -/
theorem settingsWrite_stores (ok : Bool) {base : Nat} (h0 : d.source = 0) (hat : s.settingsAt = some base) (hsec : (sectionsOf data.length data).isSome = true)
    (hok : s.norOk = true) {P : State → Prop}
    (hP : P (((s.taken.settingsStore base data ok).runCmd ⟨src, d⟩).finishLater src (if ok then 0 else 8) 0)) : Completes (.settingsWrite data ok) s P := by
  have htat : s.taken.settingsAt = some base := hat
  have htok : s.taken.norOk = true := hok
  obtain ⟨l, hl⟩ := Option.isSome_iff_exists.mp hsec
  refine completes_accepted rfl h (settingsWrite_turn data s hop hb hlen) ?_
  rw [← Bool.and_true ok] at hP
  simp only [h0, htat, hl, htok]
  exact hP

theorem completes_settingsWrite_done {base : Nat} (h0 : d.source = 0) (hat : s.settingsAt = some base) (hsec : (sectionsOf data.length data).isSome = true)
    (hok : s.norOk = true) (hmax : data.length ≤ 65520) (hsize : base + 0x20000 ≤ s.norSize) :
    let c := s.get F.LDR_STS_set_copy
    let seq := match s.settingsRecord c with | some r => r.1 | none => 0
    Completes (.settingsWrite data true) s (fun t => t.get F.LDR_STS_set_copy = 1 - c ∧
      (0x20000 ≤ base → t.get F.LDR_STS_set_single = if (s.settingsRecord c).isSome then 0 else 1) ∧
      t.hif.finished = [⟨src, false, 0, 0, 0, 0⟩] ∧
      t.norRead (base + 0x10000 * (1 - c)) (16 + data.length) = settingsBytes (seq + 1) data) := by
  intro c seq
  have htat : s.taken.settingsAt = some base := hat
  have htok : s.taken.norOk = true := hok
  obtain ⟨hcopy, hsingle, hread, hhif⟩ := State.settingsStore_done (s := s.taken) (c := c) (body := data) htat rfl htok hsize hmax hsec
  refine settingsWrite_stores data h hop hb hlen true h0 hat hsec hok ?_
  generalize s.taken.settingsStore base data true = u at hcopy hsingle hread hhif ⊢
  obtain ⟨hregs, hnor, hns, hfin⟩ := u.runLater_kept ⟨src, d⟩ 0 ((congrArg Hif.finished hhif).trans h.2.2.2.1)
  exact ⟨(State.get_of_regs hregs _).trans hcopy, fun hbase => (State.get_of_regs hregs _).trans (hsingle hbase), hfin,
    (State.norRead_congr fun i _ => State.norByte_congr _ hnor hns _).trans hread⟩

theorem completes_settingsWrite_failed {base : Nat} (h0 : d.source = 0) (hat : s.settingsAt = some base) (hsec : (sectionsOf data.length data).isSome = true)
    (hok : s.norOk = true) :
    let c := s.get F.LDR_STS_set_copy
    Completes (.settingsWrite data false) s (fun t => t.get F.LDR_STS_set_copy = c ∧ t.hif.finished = [⟨src, false, 8, 0, 0, 0⟩] ∧
      (0x20000 ≤ base → t.get F.LDR_STS_set_single = if (s.settingsRecord c).isSome then 1 else 0)) := by
  intro c
  have htat : s.taken.settingsAt = some base := hat
  obtain ⟨hcopy, hsingle, hhif⟩ := State.settingsStore_failed (s := s.taken) (c := c) (body := data) htat rfl
  refine settingsWrite_stores data h hop hb hlen false h0 hat hsec hok ?_
  generalize s.taken.settingsStore base data false = u at hcopy hsingle hhif ⊢
  obtain ⟨hregs, -, -, hfin⟩ := u.runLater_kept ⟨src, d⟩ 8 ((congrArg Hif.finished hhif).trans h.2.2.2.1)
  exact ⟨(State.get_of_regs hregs _).trans hcopy, hfin, fun hbase => (State.get_of_regs hregs _).trans (hsingle hbase)⟩

theorem completes_settingsWrite_nowhere (ok : Bool) (h0 : d.source = 0) (hbad : s.settingsAt = none ∨ sectionsOf data.length data = none) :
    Completes (.settingsWrite data ok) s (fun t => t.says src 2 0 0 0 ∧ t.nor = s.nor) := by
  refine completes_accepted rfl h (settingsWrite_turn data s hop hb hlen) ?_
  simp only [h0]
  have htat : s.taken.settingsAt = s.settingsAt := rfl
  rw [htat]
  rcases hbad with hnone | hnone
  · rw [hnone]
    exact settingsWrite_refused h 2
  · rw [hnone]
    cases s.settingsAt with
    | none => exact settingsWrite_refused h 2
    | some base => exact settingsWrite_refused h 2

theorem completes_settingsWrite_raw (ok : Bool) (h1 : d.source = 1) (hbad : s.rawStatus d.arg1.toNat data.length ≠ 0) :
    Completes (.settingsWrite data ok) s (fun t => t.says src (s.rawStatus d.arg1.toNat data.length) 0 0 0 ∧ t.nor = s.nor) := by
  have htaken : s.taken.rawStatus d.arg1.toNat data.length = s.rawStatus d.arg1.toNat data.length := rfl
  refine completes_accepted rfl h (settingsWrite_turn data s hop hb hlen) ?_
  simp only [h1, htaken, if_pos hbad]
  exact settingsWrite_refused h _

theorem completes_settingsWrite_dir (ok : Bool) (h2 : d.source = 2) (hbad : data.length % 32 ≠ 0) :
    Completes (.settingsWrite data ok) s (fun t => t.says src 2 0 0 0 ∧ t.nor = s.nor) := by
  refine completes_accepted rfl h (settingsWrite_turn data s hop hb hlen) ?_
  simp only [h2, if_pos (Or.inl hbad)]
  exact settingsWrite_refused h 2

end

/-- Settles O41: each command answers or goes on with its work, as its operands and what they name allow. -/
theorem adminCommandsActOnTheModule : Obligations.AdminCommandsActOnTheModule :=
  ⟨fun list _ _ _ h hop hstore h3 hb => ⟨completes_loadFull_badList list h hop hb, fun hlen =>
      ⟨completes_loadFull_missing list h hop hb hstore hlen, completes_loadFull_begins list h hop hb hstore h3 hlen⟩⟩,
    fun data _ _ _ h hop hb hlen => ⟨completes_cadTable_bad h data hop hb hlen, completes_cadTable_good h data hop hb hlen,
      fun _ _ hdata h4 hlt hdis => completes_cadTable_discarded h data hop hb hlen hdata h4 hlt hdis⟩,
    fun _ _ _ h hop => ⟨completes_cadSwitch_busy h hop, completes_cadSwitch_bad h hop, completes_cadSwitch_goes h hop⟩,
    fun found _ _ _ h hop => ⟨completes_bistRun_none h hop found, completes_bistRun_plan h hop found, completes_bistRun_regions h hop⟩,
    fun ok _ _ _ _ h hop hreset hmap => completes_spareMapReset h ok hop hreset hmap,
    fun data _ _ _ h hop hb hlen => ⟨fun _ h0 hat hsec hok hmax hsize _ =>
        ⟨completes_settingsWrite_done data h hop hb hlen h0 hat hsec hok hmax hsize, completes_settingsWrite_failed data h hop hb hlen h0 hat hsec hok⟩,
      completes_settingsWrite_nowhere data h hop hb hlen, completes_settingsWrite_raw data h hop hb hlen, completes_settingsWrite_dir data h hop hb hlen⟩,
    fun _ _ _ h hop => ⟨completes_modeRequestHold h hop, completes_modeRequestRestart h hop⟩⟩

end Sys2Proof.Machine
end

section

/-! SUPPORT. The states of the regions (Table 10.1), and their set-reset (R41, R131): what setting one leaves of the others. -/

namespace Sys2Proof.Machine

/-- The registers that change with the state of a region: beside those of the end of work the states themselves. -/
def markReg (off : Nat) : Word := if (0x100000 ≤ off ∧ off < 0x200000) ∧ off % 0x10000 = 0xD00 then BitVec.allOnes 32 else clearReg off

/-- Regions take their states from one state to the other. -/
abbrev State.Marks (s t : State) : Prop := s.Alters markReg State.sansResets t

theorem markReg_sts {n : Nat} (hn : n < 16) : markReg (R.REGION_PR_STS n) = BitVec.allOnes 32 := by
  refine if_pos ⟨⟨Nat.le_add_right_of_le (by decide), ?_⟩, ?_⟩ <;> (simp only [R.REGION_PR_STS]; omega)

theorem clearReg_ldr {off : Nat} (h : 0x10000 ≤ off) (h' : off < 0x20000) : clearReg off = 0 := if_pos (Or.inl ⟨h, h'⟩)

theorem markReg_ldr {off : Nat} (h : 0x10000 ≤ off) (h' : off < 0x20000) : markReg off = 0 := by
  rw [markReg, if_neg (by omega), clearReg_ldr h h']

theorem clearReg_sts {n : Nat} (hn : n < 16) : clearReg (R.REGION_PR_STS n) = 0 := by
  rw [clearReg, if_pos (Or.inr ?_)]
  simp only [regionKept_iff, R.REGION_PR_STS]
  omega

theorem markReg_wdg {n k : Nat} (hn : n < 16) (hk : k < 32) : markReg (R.REGION_WDG_CTL n k) = 0 := by
  rw [markReg, if_neg (by simp only [R.REGION_WDG_CTL]; omega), clearReg, if_pos (Or.inr ?_)]
  simp only [regionKept_iff, R.REGION_WDG_CTL]
  omega

theorem markReg_flt {off : Nat} (h : 0x2C0008 ≤ off) (h' : off < 0x2D0000) : markReg off = 0 := by
  rw [markReg, if_neg (by omega), clearReg, if_neg (by rw [regionKept_iff]; omega), workReg_flt h h']

theorem markReg_eventful : Eventful markReg State.sansResets := by
  refine ⟨fun off h => ?_, fun u => rfl⟩
  have hoff : off < 0x22000 := by
    by_contra hp
    rw [eventReg_of_page (by omega)] at h
    cases h
  rw [markReg, if_neg (by omega), clearReg_eventful.reg off h]

section

variable {s t : State}

theorem State.Resets.marks (h : s.Resets t) : s.Marks t := by
  refine h.mono (fun off i hi => ?_) fun _ _ hab => hab
  unfold markReg at hi
  split at hi
  · rw [BitVec.getLsbD_allOnes] at hi
    exact BitVec.getLsbD_of_ge _ _ (by simpa using hi)
  · exact hi

theorem State.Clears.marks (h : s.Clears t) : s.Marks t := State.Resets.marks (State.Clears.resets h)

theorem State.Marks.ldr (h : s.Marks t) : t.ldr = s.ldr := (congrArg State.ldr h.part :)

theorem State.Marks.low (h : s.Marks t) {f : RF} (hl : 0x10000 ≤ f.off) (hh : f.off < 0x20000) : t.get f = s.get f := h.get_of_zero (markReg_ldr hl hh)

theorem State.Marks.retired (h : s.Marks t) (n : Nat) : t.regionRetired n = s.regionRetired n := by
  unfold State.regionRetired
  rw [h.get_of_zero (f := F.FLT_RET_REG_regions) (markReg_flt (by decide) (by decide))]

theorem State.Marks.liveOf (h : s.Marks t) (set : Nat) : t.liveOf set = s.liveOf set := by
  unfold State.liveOf
  exact List.filter_congr fun n _ => by rw [State.Marks.retired h]

theorem State.Resets.regionState (h : s.Resets t) {n : Nat} (hn : n < 16) : t.regionState n = s.regionState n := h.get_of_zero (clearReg_sts hn)

theorem State.Clears.regionState (h : s.Clears t) {n : Nat} (hn : n < 16) : t.regionState n = s.regionState n := h.get_of_zero (clearReg_sts hn)

end

theorem State.mem_liveOf {s : State} {set n : Nat} : n ∈ s.liveOf set ↔ n < 16 ∧ bitOf set n = true ∧ s.regionRetired n = false := by
  rw [State.liveOf, List.mem_filter, List.mem_range, Bool.and_eq_true, Bool.not_eq_true']

theorem State.mem_live (s : State) {n : Nat} (hn : n < 16) : n ∈ s.liveOf 0xFFFF ↔ s.regionRetired n = false := by
  have hall : ∀ n < 16, bitOf 0xFFFF n = true := by decide
  rw [State.mem_liveOf, and_iff_right hn, and_iff_right (hall n hn)]

theorem State.liveOf_nodup (s : State) (set : Nat) : (s.liveOf set).Nodup := List.nodup_range.filter _

section

variable (s : State)

theorem State.putPrSts_marks {n : Nat} (hn : n < 16) (lo w v : Nat) : s.Marks (s.put ⟨R.REGION_PR_STS n, lo, w⟩ v) :=
  .field markReg_eventful v (by rw [markReg_sts hn, and_not_allOnes])

theorem State.putIso_clears {n : Nat} (hn : n < 16) (lo w v : Nat) : s.Clears (s.put ⟨R.REGION_ISO_STS n, lo, w⟩ v) :=
  s.putRegion_clears hn (a := 0x100A0C) v rfl (by decide) (by decide) (by decide) (by decide)

theorem State.setRegion_marks {n : Nat} (hn : n < 16) (st : Nat) : s.Marks (s.setRegion n st) :=
  ((s.putPrSts_marks hn _ _ _).trans (State.putPrSts_marks _ hn _ _ _)).trans (State.Clears.marks (State.putIso_clears _ hn _ _ _))

@[simp] theorem State.setRegion_fab (n st : Nat) : (s.setRegion n st).fab = s.fab := rfl

theorem prSts_ne {n m : Nat} (h : m ≠ n) : R.REGION_PR_STS n ≠ R.REGION_PR_STS m := by
  simp only [R.REGION_PR_STS]
  omega

theorem State.putPrSts_other {n m : Nat} (h : m ≠ n) (lo w v : Nat) : (s.put ⟨R.REGION_PR_STS n, lo, w⟩ v).regionState m = s.regionState m :=
  State.get_put_apart s v (apart_off (prSts_ne h))

theorem State.setRegion_other {n m st : Nat} (hm : m < 16) (hn : n < 16) (h : m ≠ n) : (s.setRegion n st).regionState m = s.regionState m := by
  unfold State.setRegion
  exact (State.Clears.regionState (State.putIso_clears _ hn _ _ _) hm).trans ((State.putPrSts_other _ h _ _ _).trans (State.putPrSts_other _ h _ _ _))

theorem State.setRegion_self {n st : Nat} (hn : n < 16) (hst : st < 8) : (s.setRegion n st).regionState n = st := by
  unfold State.setRegion
  refine (State.Clears.regionState (State.putIso_clears _ hn _ _ _) hn).trans ?_
  exact (State.get_put_apart _ _ rfl).trans (State.get_put_lt _ rfl hst)

theorem regionBit (n : Nat) {m : Nat} (hm : m < 16) : (BitVec.ofNat 16 (2 ^ n)).getLsbD m = decide (m = n) := by
  rw [BitVec.getLsbD_ofNat, Nat.testBit_two_pow]
  simp [hm, eq_comm]

/-- Set-reset asserted in one region, seen from any. -/
theorem State.setResetOn_at {n m : Nat} (hn : n < 16) (hm : m < 16) :
    (s.setResetOn n).fab.setReset.getLsbD m = (s.fab.setReset.getLsbD m || decide (m = n)) := by
  rw [s.setResetOn_setReset hn, BitVec.getLsbD_or, regionBit n hm]

theorem State.setResetOn_wenAt {n m : Nat} (hn : n < 16) (hm : m < 16) : (s.setResetOn n).fab.wen.getLsbD m = (s.fab.wen.getLsbD m && ! decide (m = n)) := by
  rw [s.setResetOn_wen hn, BitVec.getLsbD_and, BitVec.getLsbD_not, regionBit n hm]
  simp [hm]

/-! ### The isolation of one region -/

theorem State.isolate_after {n : Nat} (hn : n < 16) (st : Nat) : ((s.thawed n).setRegion n st).Resets (s.isolate n st) := by
  rw [State.isolate_eq]
  exact ((State.Clears.resets (State.allRings_clears _)).trans (State.setResetOn_resets _ hn)).trans (State.Clears.resets (State.unitsReset_clears _ n))

theorem State.isolate_marks {n : Nat} (hn : n < 16) (st : Nat) : s.Marks (s.isolate n st) :=
  ((State.Clears.marks (s.thawed_clears hn)).trans (State.setRegion_marks _ hn st)).trans (State.Resets.marks (s.isolate_after hn st))

theorem State.isolate_self {n st : Nat} (hn : n < 16) (hst : st < 8) : (s.isolate n st).regionState n = st :=
  (State.Resets.regionState (s.isolate_after hn st) hn).trans (State.setRegion_self _ hn hst)

theorem State.isolate_other {n m : Nat} (st : Nat) (hn : n < 16) (hm : m < 16) (h : m ≠ n) : (s.isolate n st).regionState m = s.regionState m :=
  (State.Resets.regionState (s.isolate_after hn st) hm).trans ((State.setRegion_other _ hm hn h).trans (State.Clears.regionState (s.thawed_clears hn) hm))

theorem State.isolate_setReset {n m : Nat} (st : Nat) (hn : n < 16) (hm : m < 16) :
    (s.isolate n st).fab.setReset.getLsbD m = (s.fab.setReset.getLsbD m || decide (m = n)) := by
  rw [State.isolate_eq, State.Clears.setReset (State.unitsReset_clears _ n), State.setResetOn_at _ hn hm, State.Clears.setReset (State.allRings_clears _),
    State.setRegion_fab, State.Clears.setReset (s.thawed_clears hn)]

end

/-! ### Loops over regions -/

section

variable {f : State → Nat → State} {st : Nat}

/-- Each region of a list takes one state, and the others stay. -/
theorem regions_take (hself : ∀ (u : State) (n : Nat), n < 16 → (f u n).regionState n = st)
    (hother : ∀ (u : State) (n m : Nat), n < 16 → m < 16 → m ≠ n → (f u n).regionState m = u.regionState m) {l : List Nat} (hl : ∀ n ∈ l, n < 16) (s : State)
    {m : Nat} (hm : m < 16) : (l.foldl f s).regionState m = if m ∈ l then st else s.regionState m := by
  induction l generalizing s with
  | nil => simp
  | cons n l ih =>
    have hn := hl n List.mem_cons_self
    rw [List.foldl_cons, ih fun k hk => hl k (List.mem_cons_of_mem n hk)]
    by_cases hmem : m ∈ l
    · rw [if_pos hmem, if_pos (List.mem_cons_of_mem n hmem)]
    · rw [if_neg hmem]
      by_cases he : m = n
      · rw [he, if_pos List.mem_cons_self]
        exact hself s n hn
      · rw [hother s n m hn hm he, if_neg (by simp [he, hmem])]

/-- Set-reset is asserted in the regions of a list. -/
theorem regions_reset (hbit : ∀ (u : State) (n m : Nat), n < 16 → m < 16 → (f u n).fab.setReset.getLsbD m = (u.fab.setReset.getLsbD m || decide (m = n)))
    {l : List Nat} (hl : ∀ n ∈ l, n < 16) (s : State) {m : Nat} (hm : m < 16) :
    (l.foldl f s).fab.setReset.getLsbD m = (s.fab.setReset.getLsbD m || decide (m ∈ l)) := by
  induction l generalizing s with
  | nil => simp
  | cons n l ih =>
    rw [List.foldl_cons, ih fun k hk => hl k (List.mem_cons_of_mem n hk), hbit s n m (hl n List.mem_cons_self) hm]
    simp [Bool.or_assoc]

end

end Sys2Proof.Machine

end

section

/-! SUPPORT. What the start of a full load leaves alone (R278, R289): the registers of the loader, and whether Cadence runs but for its stop. -/

namespace Sys2Proof.Machine

/-- Every register but the loader's. -/
def loadReg (off : Nat) : Word := if 0x10000 ≤ off ∧ off < 0x20000 then 0 else BitVec.allOnes 32

/-- Work ends at the start of a load from one state to the other, while Cadence runs on or rests. -/
abbrev State.Loads (s t : State) : Prop := s.Alters loadReg (fun u => u.cad.run) t

/-- The same where Cadence may stop. -/
abbrev State.Logs (s t : State) : Prop := s.Alters loadReg (fun _ => ()) t

theorem loadReg_in {off : Nat} (h : 0x10000 ≤ off) (h' : off < 0x20000) : loadReg off = 0 := if_pos ⟨h, h'⟩

theorem loadReg_out {off : Nat} (h : off < 0x10000 ∨ 0x20000 ≤ off) : loadReg off = BitVec.allOnes 32 := if_neg (by omega)

theorem loadReg_eventful : Eventful loadReg (fun u : State => u.cad.run) := by
  refine ⟨fun off h => loadReg_out ?_, fun u => rfl⟩
  simp only [eventReg, Bool.or_eq_true, beq_iff_eq, R.HIF_EVT_LOST, R.HIF_RING_STS, R.HIF_RING_CNT, R.HIF_RING_OWN] at h
  omega

section

variable {s t : State}

theorem State.Loads.logs (h : s.Loads t) : s.Logs t := h.mono (fun _ _ hi => hi) fun _ _ _ => rfl

theorem State.Logs.low (h : s.Logs t) {f : RF} (hl : 0x10000 ≤ f.off) (hh : f.off < 0x20000) : t.get f = s.get f := h.get_of_zero (loadReg_in hl hh)

/-- A frame that leaves the loader's registers and the run of Cadence. -/
theorem loads_of {β : Type} {m : Nat → Word} {part : State → β} (h : s.Alters m part t) (hm : ∀ off, 0x10000 ≤ off → off < 0x20000 → m off = 0)
    (hq : ∀ a b : State, part a = part b → a.cad.run = b.cad.run) : s.Loads t := by
  refine h.mono (fun off i hi => ?_) hq
  by_cases hp : 0x10000 ≤ off ∧ off < 0x20000
  · rw [hm off hp.1 hp.2]
    exact BitVec.getLsbD_zero
  · rw [loadReg_out (by omega), BitVec.getLsbD_allOnes] at hi
    exact BitVec.getLsbD_of_ge _ _ (by simpa using hi)

theorem State.Marks.loads (h : s.Marks t) : s.Loads t := loads_of h (fun _ hl hh => markReg_ldr hl hh) fun _ _ hab => (congrArg (fun u : State => u.cad.run) hab :)

theorem State.Clears.loads (h : s.Clears t) : s.Loads t := State.Marks.loads (State.Clears.marks h)

theorem State.Powers.loads (h : s.Powers t) : s.Loads t := loads_of h (fun _ hl hh => clearReg_ldr hl hh) fun _ _ hab => (congrArg (fun u : State => u.cad.run) hab :)

theorem State.Answers.loads (h : s.Answers t) : s.Loads t :=
  loads_of h (fun _ _ hh => hostPage_out (Or.inl (by omega))) fun _ _ hab => (congrArg (fun u : State => u.cad.run) hab :)

theorem State.Refabs.loads (h : s.Refabs t) : s.Loads t :=
  loads_of h (fun _ _ hh => fabricPage_out (by omega)) fun _ _ hab => (congrArg (fun u : State => u.cad.run) hab :)

theorem eventReg_low {off : Nat} (h : off < 0x20008) : eventReg off = false := by
  simp only [eventReg, Bool.or_eq_false_iff, beq_eq_false_iff_ne, R.HIF_EVT_LOST, R.HIF_RING_STS, R.HIF_RING_CNT, R.HIF_RING_OWN]
  omega

theorem State.Tracks.loads (h : s.Tracks t) : s.Loads t := by
  refine loads_of h (fun off hl hh => ?_) fun _ _ hab => (congrArg (fun u : State => u.cad.run) hab :)
  rw [trackReg, if_neg (by rw [eventReg_low (by omega)]; simp; omega), if_neg (by simp only [R.CAD_STS]; omega)]

theorem State.Stops.loads (h : s.Stops t) : s.Loads t :=
  loads_of h (fun _ _ hh => spkMask_outside _ (eventReg_low (by omega)) (Or.inl (by omega))) fun _ _ hab =>
    (congrArg (fun x : State × (Nat → Spk) => x.1.cad.run) hab :)

end

section

variable (s : State)

theorem State.put_loads {f : RF} (v : Nat) (h : f.off < 0x10000 ∨ 0x20000 ≤ f.off) : s.Loads (s.put f v) :=
  .field loadReg_eventful v (by rw [loadReg_out h, and_not_allOnes])

theorem State.raise_loads (id param : Nat) : s.Loads (s.raise id param) := .raise loadReg_eventful id param

theorem State.setFlt_loads (x : Flt) : s.Loads (s.setFlt x) := .of_same rfl rfl rfl

theorem State.setFab_loads (x : Fab) : s.Loads { s with fab := x } := .of_same rfl rfl rfl

theorem State.setPins_loads (x : Pins) : s.Loads { s with pins := x } := .of_same rfl rfl rfl

/-! ### Tests, pairs and pads -/

theorem State.bistEnd_loads : s.Loads s.bistEnd := by
  unfold State.bistEnd
  dsimp only
  refine .trans (State.Clears.loads (.trans ?_ (State.bistStop_clears _))) (.foldl (fun u c _ => State.Answers.loads (u.completeSrc_answers (some c.src) _ _)) _)
  split
  · exact s.bistCut_clears.trans (State.keepTest_clears _ _)
  · exact s.bistCut_clears

theorem State.tapsFree_loads (k : Nat) : s.Loads (s.tapsFree k) := by
  have h : (s.tapsFree k).sansTokens = s.sansTokens := foldl_sansTokens _ (fun u p => u.rejoin_sansTokens _) _ s
  exact .of_same (congrArg State.regs h :) (congrArg State.log h :) (congrArg (fun u : State => u.cad.run) h :)

theorem State.lsEnd_loads (k : Nat) : s.Loads (s.lsEnd k) :=
  ((s.put_loads (f := F.FLT_LS_STS_comparing k) 0 (Or.inr (Nat.le_add_right_of_le (by decide)))).trans (State.setFab_loads _ _)).trans (State.tapsFree_loads _ k)

theorem State.loadQuiets_loads : s.Loads s.loadQuiets := by
  have hfreeze (u : State) (n lo w v : Nat) : u.Loads (u.put ⟨R.REGION_FREEZE n, lo, w⟩ v) := u.put_loads v (Or.inr (Nat.le_add_right_of_le (by decide)))
  have hwdg (u : State) (n k : Nat) : u.Loads (u.put (F.REGION_WDG_CTL_enable n k) 0) :=
    u.put_loads 0 (Or.inr (Nat.le_add_right_of_le (Nat.le_add_right_of_le (by decide))))
  refine .trans (.foldl (fun u n _ => ?_) s) (.foldl (fun u k _ => u.lsEnd_loads k) _)
  exact (((hfreeze u n _ _ _).trans (hfreeze _ n _ _ _)).trans (hfreeze _ n _ _ _)).trans (.foldl (fun x k _ => hwdg x n k) _)

theorem padFrame_loads {u : Nat} : PadFrame loadReg (fun x : State => x.cad.run) u := by
  refine ⟨loadReg_eventful, fun _ _ _ => rfl, fun p _ => ?_, ?_⟩
  · rw [loadReg_out (Or.inr (by simp only [R.SPK_PINCFG]; omega)), and_not_allOnes]
  · rw [loadReg_out (Or.inr (by simp only [R.SPK_LATE]; omega)), and_not_allOnes]

theorem State.padsAway_loads : s.Loads s.padsAway := by
  have hadc : s.Loads { s with adc := [] } := .of_same rfl rfl rfl
  have hspk (u : State) (k : Nat) (x : Spk) : u.Loads (u.setSpk k x) := .of_same rfl rfl rfl
  exact hadc.trans (.foldl (fun u k _ => .trans (.foldl (fun x p hp => padFrame_loads.setPad x .z (List.mem_range.mp hp)) u) (hspk _ k _)) _)

/-! ### Cadence -/

theorem State.trkSpokes_loads (k : Nat) : s.Loads (s.trkSpokes k) :=
  .foldl (fun u _ hu => .ite (fun _ => State.Stops.loads (u.spkStop_stops (List.mem_range.mp hu))) fun _ => .refl _ _ _) s

theorem State.trkOff_loads {k : Nat} (hk : k < 8) : s.Loads (s.trkOff k) := by
  have hput (u : State) {f : RF} (v : Nat) (h : 0x40400 ≤ f.off) : u.Loads (u.put f v) := u.put_loads v (Or.inr (by omega))
  have hzero (u : State) : u.Loads (((u.put (F.CAD_TRK_TURN_turn k) 0).put (F.CAD_TRK_VEL_vel k) 0).put (F.CAD_TRK_ERR_err k) 0) :=
    ((hput u _ (Nat.le_add_right_of_le (by decide))).trans (hput _ _ (Nat.le_add_right_of_le (by decide)))).trans (hput _ _ (Nat.le_add_right_of_le (by decide)))
  unfold State.trkOff
  split
  · exact .refl _ _ _
  · extract_lets a b c
    have ha : s.Tracks a := s.switchAbort_tracks hk
    have hb : a.Tracks b := (a.setTrkState_tracks hk 0).trans (State.setTrk_tracks _ k _)
    exact ((State.Tracks.loads (ha.trans hb)).trans (hzero b)).trans ((State.trkSpokes_loads c k).trans (State.Tracks.loads (State.trkShow_tracks _ hk)))

theorem State.srcStop_loads (n : Nat) : s.Loads (s.srcStop n) := by
  have hput (u : State) {f : RF} (v : Nat) (h : 0x40000 ≤ f.off) : u.Loads (u.put f v) := u.put_loads v (Or.inr (by omega))
  have hvalid (u : State) (v : Bool) : u.Loads (u.setValid n v) :=
    (hput u _ (Nat.le_add_right_of_le (by decide))).trans (hput _ _ (show 0x40000 ≤ R.CAD_STS by decide))
  have hheld (u : State) : u.Loads u.adcHeld := .foldl (fun x _ _ => hput x _ (Nat.le_add_right_of_le (by decide))) u
  refine .ite (fun _ => .refl _ _ _) fun _ => ?_
  exact (((hput s _ (Nat.le_add_right_of_le (by decide))).trans (hvalid _ _)).trans (State.Tracks.loads (State.tracksLose_tracks _ n false))).trans (hheld _)

/-- The tracks and the sources stop. -/
def State.cadRest (s : State) : State :=
  (List.range 4).foldl (fun s n => s.srcStop n)
    ((List.range 8).foldl (fun s t => (((s.put (F.CAD_TRK_CTL_enable t) 0).trkOff t).setTrk t {}).put (F.CAD_TRK_SW_busy t) 0) s)

/-- Cadence runs no more. -/
def State.runStop (s : State) : State := { s with cad := { s.cad with run := false } }

theorem State.cadStop_eq : s.cadStop = s.cadRest.runStop := by
  unfold State.cadStop State.cadRest State.runStop
  rfl

theorem State.trackStop_loads {k : Nat} (hk : k < 8) : s.Loads ((((s.put (F.CAD_TRK_CTL_enable k) 0).trkOff k).setTrk k {}).put (F.CAD_TRK_SW_busy k) 0) := by
  have hput (u : State) {f : RF} (v : Nat) (h : 0x40400 ≤ f.off) : u.Loads (u.put f v) := u.put_loads v (Or.inr (by omega))
  have htrk (u : State) (x : Trk) : u.Loads (u.setTrk k x) := .of_same rfl rfl rfl
  exact ((hput s _ (Nat.le_add_right_of_le (by decide))).trans (State.trkOff_loads _ hk)).trans ((htrk _ _).trans (hput _ _ (Nat.le_add_right_of_le (by decide))))

theorem State.cadRest_loads : s.Loads s.cadRest :=
  .trans (.foldl (fun u _ hk => u.trackStop_loads (List.mem_range.mp hk)) s) (.foldl (fun u n _ => u.srcStop_loads n) _)

theorem State.runStop_logs : s.Logs s.runStop := .of_same rfl rfl rfl

theorem State.runStop_run : s.runStop.cad.run = false := rfl

theorem State.cadStop_logs : s.Logs s.cadStop := by
  rw [State.cadStop_eq]
  exact (State.Loads.logs s.cadRest_loads).trans (State.runStop_logs _)

/-! ### The parts of the start -/

theorem State.pinsDefault_loads : s.Loads s.pinsDefault := by
  have hput (u : State) {f : RF} (v : Nat) (h : 0x90000 ≤ f.off) : u.Loads (u.put f v) := u.put_loads v (Or.inr (by omega))
  have hpin (u : State) (p : Nat) : u.Loads (u.pinRelease p) :=
    .ite (fun _ => .refl _ _ _) fun _ => (hput u _ (Nat.le_add_right_of_le (by decide))).trans (State.setPins_loads _ _)
  have hper (u : State) (lo v : Nat) : u.Loads (u.put ⟨R.PER_EN, lo, 1⟩ v) := hput u v (show 0x90000 ≤ R.PER_EN by decide)
  exact (((State.Alters.foldl (fun u p _ => hpin u p) s).trans (.foldl (fun u k _ => hper u _ _) _)).trans (State.setPins_loads _ _)).trans
    (State.Clears.loads (State.pinRefreshAll_clears _))

/-- What parks before Cadence stops. -/
def State.unitsPark (s : State) : State :=
  (List.range 8).foldl (fun s c => (s.put (F.ADC_STS_busy c) 0).put (F.ADC_STS_pend c) 0) ((List.range 48).foldl (fun s u => s.spkReset u) s).padsAway

/-- What parks behind it. -/
def State.pinsAway (s : State) : State := (((s.pinsDefault).userLanesIdle).vcoreFixed 40).put F.GRM_STS_active 0

theorem State.loadParks_eq : s.loadParks = s.unitsPark.cadStop.pinsAway := rfl

theorem State.unitsPark_loads : s.Loads s.unitsPark := by
  have hput (u : State) (c lo v : Nat) : u.Loads (u.put ⟨R.ADC_STS c, lo, 1⟩ v) := u.put_loads v (Or.inr (Nat.le_add_right_of_le (by decide)))
  exact ((State.Alters.foldl (fun u k hk => State.Clears.loads (u.spkReset_clears (List.mem_range.mp hk))) s).trans (State.padsAway_loads _)).trans
    (.foldl (fun u c _ => (hput u c _ _).trans (hput _ c _ _)) _)

theorem State.pinsAway_loads : s.Loads s.pinsAway :=
  ((s.pinsDefault_loads.trans (State.Clears.loads (State.userLanesIdle_clears _))).trans (State.Powers.loads (State.vcoreFixed_powers _ 40))).trans
    (State.Clears.loads (State.putGrmSts_clears _ 0))

theorem State.loadParks_logs : s.Logs s.loadParks := by
  rw [State.loadParks_eq]
  exact ((State.Loads.logs s.unitsPark_loads).trans (State.cadStop_logs _)).trans (State.Loads.logs (State.pinsAway_loads _))

theorem State.loadParks_run : s.loadParks.cad.run = false := by
  rw [State.loadParks_eq, (State.pinsAway_loads _).part, State.cadStop_eq, State.runStop_run]

/-! ### The fabric -/

theorem State.spokeRetire_loads {u : Nat} (hu : u < 48) (cause : Nat) : s.Loads (s.spokeRetire u cause) ∧ (s.spokeRetire u cause).ldr = s.ldr := by
  have hput (x : State) {f : RF} (v : Nat) (h : 0x2C0000 ≤ f.off) : x.Loads (x.put f v) ∧ (x.put f v).ldr = x.ldr := ⟨x.put_loads v (Or.inr (by omega)), rfl⟩
  have hadd (x : State) : x.Loads (x.morAdd 10 0 u cause) ∧ (x.morAdd 10 0 u cause).ldr = x.ldr := by
    unfold State.morAdd
    rw [if_neg (show ¬ (10 = 5) by decide)]
    split
    · exact ⟨.refl _ _ _, rfl⟩
    · exact ⟨(x.setFlt_loads _).trans (hput _ _ (by decide)).1, rfl⟩
  have hraise (x : State) : x.Loads (x.raise 0x0C02 0) ∧ (x.raise 0x0C02 0).ldr = x.ldr := ⟨x.raise_loads _ _, by simp⟩
  have hhold := s.spkHold_clears hu
  unfold State.spokeRetire
  split
  · exact ⟨.refl _ _ _, rfl⟩
  · extract_lets r
    have hr : s.Loads r ∧ r.ldr = s.ldr :=
      ⟨((State.Clears.loads hhold).trans (hadd _).1).trans (hraise _).1, ((hraise _).2.trans (hadd _).2).trans (State.Clears.ldr hhold)⟩
    split
    · exact ⟨hr.1.trans (hput r _ (by decide)).1, hr.2⟩
    · exact ⟨hr.1.trans (hput r _ (by decide)).1, hr.2⟩

end

end Sys2Proof.Machine

end

section

/-! SUPPORT. The start of a full load clears the fabric and puts every region in set-reset (R278, R289, R290). -/

namespace Sys2Proof.Machine

/-- What the clearing of the fabric leaves of the one-driver table and of the tokens. -/
def State.cleared (s : State) : SMap Nat × SMap (Option Node) := (s.ldr.segs, s.fab.nodes)

section

variable (s : State)

theorem State.gapsFromBooks_cleared : s.gapsFromBooks.cleared = s.cleared := by
  have hcol (u : State) (n g pos : Nat) (b : Bool) : (u.setColGap n g pos b).cleared = u.cleared := rfl
  have hslice (u : State) (n c g pos : Nat) (b : Bool) : (u.setSliceGap n c g pos b).cleared = u.cleared := rfl
  have hblock (u : State) (n f q pos : Nat) (b : Bool) : (u.setBlockGap n f q pos b).cleared = u.cleared := rfl
  have hrows (u : State) : u.rowsShow.cleared = u.cleared := rfl
  unfold State.gapsFromBooks
  dsimp only
  rw [hrows]
  refine foldl_kept State.cleared (fun u n _ => ?_) s
  refine (foldl_kept State.cleared (fun x f _ => foldl_kept State.cleared (fun y q _ => ?_) x) _).trans
    ((foldl_kept State.cleared (fun x c _ => foldl_kept State.cleared (fun y g _ => ?_) x) _).trans (foldl_kept State.cleared (fun x g _ => ?_) u))
  · split <;> exact hblock _ _ _ _ _ _
  · split <;> exact hslice _ _ _ _ _ _
  · split <;> exact hcol _ _ _ _ _

theorem State.fabricClear_cleared : s.fabricClear.cleared = ([], []) := by
  have hbooks (u : State) : (u.booksFromMap false).cleared = u.cleared := rfl
  have hshow (u : State) : u.mapShow.cleared = u.cleared := rfl
  have hret (u : State) : u.retiredFromBooks.cleared = u.cleared := rfl
  have hput (u : State) (n : Nat) : (u.put (F.REGION_LT_FAULT_count n) 0).cleared = u.cleared := rfl
  unfold State.fabricClear
  extract_lets _ a _ b _ c d
  have hd : d.cleared = c.cleared := foldl_kept State.cleared (fun u n _ => hput u n) c
  rw [State.gapsFromBooks_cleared, hret, hshow, hbooks, hd]
  rfl

/-! ### One region, as the start leaves it -/

/-- The state of a region, its set-reset and its write enable. -/
def State.posture (s : State) (m : Nat) : Nat × Bool × Bool := (s.regionState m, s.fab.setReset.getLsbD m, s.fab.wen.getLsbD m)

variable {m n st : Nat}

theorem State.resetIn_self (hn : n < 16) (hst : st < 8) : ((s.setRegion n st).setResetOn n).posture n = (st, true, false) := by
  rw [State.posture, State.Resets.regionState (State.setResetOn_resets _ hn) hn, State.setRegion_self _ hn hst, State.setResetOn_at _ hn hn, State.setResetOn_wenAt _ hn hn]
  simp

theorem State.resetIn_other (hn : n < 16) (hm : m < 16) (h : m ≠ n) : ((s.setRegion n st).setResetOn n).posture m = s.posture m := by
  rw [State.posture, State.Resets.regionState (State.setResetOn_resets _ hn) hm, State.setRegion_other _ hm hn h, State.setResetOn_at _ hn hm,
    State.setResetOn_wenAt _ hn hm]
  simp [h, State.posture]

theorem State.resetIn_marks (hn : n < 16) : s.Marks ((s.setRegion n st).setResetOn n) :=
  (s.setRegion_marks hn st).trans (State.Resets.marks (State.setResetOn_resets _ hn))

/-! ### All regions -/

/-- The regions that are in service are LOADING, in set-reset. -/
def State.liveLoading (s : State) : State := (s.liveOf 0xFFFF).foldl (fun s n => (s.setRegion n 3).setResetOn n) s

/-- A retired region reads RETIRED, in set-reset. -/
def State.retiredShow (s : State) (n : Nat) : State := if s.regionRetired n then (s.setRegion n 6).setResetOn n else s

/-- The regions count their loads anew, and those that are not in service read RETIRED. -/
def State.loadsZero (s : State) (n : Nat) : State := (s.retiredShow n).put (F.REGION_PR_STS_loads n) 0

/-- The Spoke units are retired where unit 9 is missing. -/
def State.spokesMissing (s : State) : State := if s.unitUp 9 then s else (List.range 48).foldl (fun s u => s.spokeRetire u 0) s

theorem State.loadRegions_eq : s.loadRegions = (List.range 16).foldl State.loadsZero s.fabricClear.spokesMissing.liveLoading := rfl

theorem State.spokesMissing_loads : s.Loads s.spokesMissing :=
  .ite (fun _ => .refl _ _ _) fun _ => .foldl (fun u _ hu => (u.spokeRetire_loads (List.mem_range.mp hu) 0).1) s

theorem State.spokesMissing_ldr : s.spokesMissing.ldr = s.ldr := by
  unfold State.spokesMissing
  split
  · rfl
  · exact foldl_kept State.ldr (fun u _ hu => (u.spokeRetire_loads (List.mem_range.mp hu) 0).2) s

theorem State.liveLoading_marks : s.Marks s.liveLoading := .foldl (fun u _ hn => u.resetIn_marks (State.live_lt _ hn)) s

theorem State.retiredShow_marks (hn : n < 16) : s.Marks (s.retiredShow n) := .ite (fun _ => s.resetIn_marks hn) fun _ => .refl _ _ _

theorem State.loadsZero_marks (hn : n < 16) : s.Marks (s.loadsZero n) := (s.retiredShow_marks hn).trans (State.putPrSts_marks _ hn _ _ _)

theorem State.putLoads_posture (hn : n < 16) (v : Nat) : (s.put (F.REGION_PR_STS_loads n) v).posture m = s.posture m := by
  have hstate : (s.put (F.REGION_PR_STS_loads n) v).regionState m = s.regionState m := by
    by_cases h : m = n
    · subst h
      exact State.get_put_apart _ _ rfl
    · exact s.putPrSts_other h _ _ _
  rw [State.posture, hstate]
  rfl

/-- A region in service after the first loop. -/
theorem State.liveLoading_at (hm : m < 16) (h : s.regionRetired m = false) : s.liveLoading.posture m = (3, true, false) := by
  obtain ⟨l, -, hl⟩ := foldl_turn (fun u => u.posture m) ((s.mem_live hm).mpr h) (s.liveOf_nodup _)
    (fun u a ha hne => u.resetIn_other (st := 3) (State.live_lt _ ha) hm (Ne.symm hne)) s
  exact hl.trans (State.resetIn_self _ hm (by decide))

theorem State.loadsZero_other (hn : n < 16) (hm : m < 16) (h : m ≠ n) : (s.loadsZero n).posture m = s.posture m := by
  unfold State.loadsZero State.retiredShow
  rw [State.putLoads_posture _ hn]
  split
  · exact s.resetIn_other hn hm h
  · rfl

/-- Every region after both loops. -/
theorem State.loadsZero_at (hm : m < 16) (h : s.regionRetired m = false → s.posture m = (3, true, false)) :
    ((List.range 16).foldl State.loadsZero s).posture m = (if s.regionRetired m then 6 else 3, true, false) := by
  obtain ⟨l, hl, heq⟩ := foldl_turn (fun u => u.posture m) (List.mem_range.mpr hm) List.nodup_range
    (fun u a ha hne => u.loadsZero_other (List.mem_range.mp ha) hm (Ne.symm hne)) s
  refine heq.trans ?_
  have hmarks : s.Marks (l.foldl State.loadsZero s) := .foldl (fun u a ha => u.loadsZero_marks (List.mem_range.mp (hl a ha).1)) s
  have hkept : (l.foldl State.loadsZero s).posture m = s.posture m :=
    foldl_kept (fun u => u.posture m) (fun u a ha => u.loadsZero_other (List.mem_range.mp (hl a ha).1) hm (Ne.symm (hl a ha).2)) s
  show State.posture (State.put _ _ _) m = _
  rw [State.putLoads_posture _ hm, State.retiredShow, State.Marks.retired hmarks]
  by_cases hr : s.regionRetired m = true
  · rw [if_pos hr, if_pos hr]
    exact State.resetIn_self _ hm (by decide)
  · rw [if_neg hr, if_neg hr, hkept]
    exact h (by simpa using hr)

/-- The fabric as a full load finds it once it has begun. -/
structure State.Begun (t : State) : Prop where
  segs : t.ldr.segs = []
  posture : ∀ m < 16, t.posture m = (if t.regionRetired m then 6 else 3, true, false)

theorem State.loadRegions_spec : s.Loads s.loadRegions ∧ State.Begun s.loadRegions := by
  have hspokes := s.fabricClear.spokesMissing_loads
  have hlive := s.fabricClear.spokesMissing.liveLoading_marks
  have hzero : s.fabricClear.spokesMissing.liveLoading.Marks s.loadRegions := by
    rw [State.loadRegions_eq]
    exact .foldl (fun u _ hn => u.loadsZero_marks (List.mem_range.mp hn)) _
  refine ⟨((State.Refabs.loads s.fabricClear_refabs).trans hspokes).trans ((State.Marks.loads hlive).trans (State.Marks.loads hzero)), ?_, fun m hm => ?_⟩
  · rw [State.Marks.ldr hzero, State.Marks.ldr hlive, State.spokesMissing_ldr]
    exact congrArg Prod.fst s.fabricClear_cleared
  · rw [State.Marks.retired hzero, State.loadRegions_eq]
    exact State.loadsZero_at _ hm fun h => State.liveLoading_at _ hm ((State.Marks.retired hlive m).symm.trans h)

/-- What keeps the regions as they have begun. -/
theorem State.Clears.begun {s t : State} (h : s.Clears t) (hb : State.Begun s) : State.Begun t := by
  refine ⟨(congrArg Loader.segs (State.Clears.ldr h)).trans hb.segs, fun m hm => ?_⟩
  rw [State.Marks.retired (State.Clears.marks h), ← hb.posture m hm, State.posture, State.Clears.regionState h hm, State.Clears.setReset h, State.Clears.wen h]
  rfl

end

end Sys2Proof.Machine

end

section

/-! SUPPORT. What a failed image leaves (R280), and what the records of a chunk keep of the load (R272, R278). -/

namespace Sys2Proof.Machine

/-! ### Failed images -/

theorem State.fabricClear_nodes (s : State) : s.fabricClear.fab.nodes = [] := congrArg Prod.snd s.fabricClear_cleared

/-- Where there is no token none comes with the rings. -/
theorem State.ringsFollow_nodes (s : State) (n : Nat) (h : s.fab.nodes = []) : (s.ringsFollow n).fab.nodes = [] := by
  have hwithdrawn (u : State) (e : Nat) (hu : u.fab.nodes = []) : (u.withdrawn n e).fab.nodes = [] := by
    show List.map _ u.fab.nodes = []
    rw [hu]
    rfl
  unfold State.ringsFollow
  generalize List.range 4 = l
  induction l generalizing s with
  | nil => exact h
  | cons e l ih =>
    rw [List.foldl_cons]
    refine ih _ ?_
    split
    · exact h
    · dsimp only
      split
      · exact h
      · show List.map _ (SMap.keep (s.withdrawn n e).fab.nodes _) = []
        rw [hwithdrawn s e h]
        rfl

theorem State.declaredPass_nodes (s : State) (set : Nat) (h : s.fab.nodes = []) : (s.declaredPass set).fab.nodes = [] := by
  have hall (u : State) (l : List Nat) (hu : u.fab.nodes = []) : (l.foldl (fun s n => s.ringsFollow n) u).fab.nodes = [] := by
    induction l generalizing u with
    | nil => exact hu
    | cons n l ih => exact ih _ (u.ringsFollow_nodes n hu)
  have hcut (l : List Nat) : (l.foldl (fun (s : State) n => s.putB (F.REGION_ISO_STS_own_cut n) (! bitOf set n)) s).fab = s.fab := by
    have hput (u : State) (n : Nat) : (u.putB (F.REGION_ISO_STS_own_cut n) (! bitOf set n)).fab = u.fab := rfl
    exact foldl_kept State.fab (fun u n _ => hput u n) s
  exact hall _ _ (by rw [hcut, h])

/-- A failed image of a host or of slot A: its error is shown, and the golden image is loaded next into an empty fabric. -/
structure State.FallsBack (c i : Nat) (t : State) : Prop where
  code : t.get F.LDR_ERR_code = c % 256
  status : t.get F.LDR_ERR_status = codeStatus c
  chunk : t.get F.LDR_ERR_chunk = i % 65536
  source : t.get F.LDR_STS_source = 2
  fallback : t.get F.LDR_STS_fallback = 1
  nodes : t.fab.nodes = []

theorem codeStatus_lt (code : Nat) : codeStatus code < 256 := by
  unfold codeStatus
  split <;> decide

theorem State.ldrError_shows (s : State) (code chunk : Nat) : (s.ldrError code chunk).get F.LDR_ERR_code = code % 256 ∧
    (s.ldrError code chunk).get F.LDR_ERR_status = codeStatus code ∧ (s.ldrError code chunk).get F.LDR_ERR_chunk = chunk % 65536 := by
  unfold State.ldrError
  refine ⟨?_, ?_, ?_⟩
  · rw [State.logAdd_get, State.get_put_apart _ _ rfl, State.get_put_apart _ _ rfl, State.get_put_self _ _ rfl]
    rfl
  · rw [State.logAdd_get, State.get_put_apart _ _ rfl, State.get_put_lt _ rfl (codeStatus_lt code)]
  · rw [State.logAdd_get, State.get_put_self _ _ rfl]
    rfl

theorem State.imageFailed_fallsBack (s : State) {l : Load} (hl : l.source ≠ 2) (code chunk : Nat) : State.FallsBack code chunk (s.imageFailed l code chunk) := by
  unfold State.imageFailed
  extract_lets a b c d g
  rw [if_neg hl]
  have hlow (f : RF) (hf : 0x10000 ≤ f.off) (hf' : f.off < 0x20000) : ((d.fabricClear.declaredPass 0).setLoad (some g)).get f = d.get f := by
    rw [State.setLoad, State.setLdr_get, State.Alters.get_of_zero (State.declaredPass_refabs _ _) (fabricPage_out (by omega)),
      State.Alters.get_of_zero (State.fabricClear_refabs _) (fabricPage_out (by omega))]
  have hbc : a.Loads c := ((a.raise_loads _ _).trans (State.raise_loads _ _ _)).trans (State.Answers.loads (b.completeSrc_answers _ _ _))
  have herr (f : RF) (hf : f.off = R.LDR_ERR) : (((d.fabricClear.declaredPass 0).setLoad (some g)).ldrShow g).get f = a.get f := by
    have hr : R.LDR_STS ≠ f.off := by rw [hf]; decide
    rw [State.ldrShow, State.get_put_apart _ _ (apart_off hr), hlow f (by rw [hf]; decide) (by rw [hf]; decide)]
    exact (State.get_put_apart _ _ (apart_off hr)).trans ((State.get_put_apart _ _ (apart_off hr)).trans
      (State.Logs.low (State.Loads.logs hbc) (by rw [hf]; decide) (by rw [hf]; decide)))
  have hsts (f : RF) (hf : f.off = R.LDR_STS) (ha : F.LDR_STS_state.apart f = true) :
      (((d.fabricClear.declaredPass 0).setLoad (some g)).ldrShow g).get f = d.get f := by
    rw [State.ldrShow, State.get_put_apart _ _ ha]
    exact hlow f (by rw [hf]; decide) (by rw [hf]; decide)
  obtain ⟨hcode, hstatus, hchunk⟩ := s.ldrError_shows code chunk
  refine ⟨(herr _ rfl).trans hcode, (herr _ rfl).trans hstatus, (herr _ rfl).trans hchunk, (hsts _ rfl rfl).trans ?_, (hsts _ rfl rfl).trans ?_, ?_⟩
  · exact (State.get_put_apart _ _ rfl).trans (State.get_put_lit _ rfl)
  · exact State.get_put_lit _ rfl
  · exact State.declaredPass_nodes _ _ d.fabricClear_nodes

/-! ### The load as records leave it -/

/-- What no record changes of a load. -/
def Load.origin (l : Load) : Bool × BitVec 2 × List Byte × List Byte := (l.region, l.source, l.key, l.nonce)

theorem State.loadFrame_origin (s : State) (l : Load) (addr : Nat) (f : Frame) (r : RepairRec) : (s.loadFrame l addr f r).2.1.origin = l.origin := by
  have hcrc (x : SMap (BitVec 32)) : ({ l with crc := x } : Load).origin = l.origin := rfl
  unfold State.loadFrame
  extract_lets n col minor
  split
  · rfl
  · split
    · rfl
    · split
      · rfl
      · exact hcrc _

theorem State.loadMinors_origin (k : Nat) (s : State) (l : Load) (top m : Nat) (f : Frame) (r : RepairRec) : (State.loadMinors k s l top m f r).2.1.origin = l.origin := by
  induction k generalizing s l m with
  | zero => rfl
  | succ k ih =>
    unfold State.loadMinors
    dsimp only
    split
    · rfl
    · split
      · exact s.loadFrame_origin l _ f r
      · exact (ih _ _ _).trans (s.loadFrame_origin l _ f r)

theorem State.loadRecords_origin (fuel : Nat) (s : State) (l : Load) (bs : List Byte) (i at_ : Nat) (isLast : Bool) :
    (State.loadRecords fuel s l bs i at_ isLast).2.1.origin = l.origin := by
  induction fuel generalizing s l bs at_ with
  | zero => rfl
  | succ fuel ih =>
    unfold State.loadRecords
    extract_lets wait w addr count rest
    have hwait : wait.2.1.origin = l.origin := by
      simp only [wait]
      split <;> rfl
    have hgo (a : State × Load × Nat) (bs : List Byte) (ha : a.2.1.origin = l.origin) :
        (if a.2.2 ≠ 0 then a else State.loadRecords fuel a.1 a.2.1 bs i i isLast).2.1.origin = l.origin := by
      split
      · exact ha
      · exact (ih _ _ _ _).trans ha
    split
    · split <;> rfl
    · split
      · exact hwait
      · split
        · split
          · rfl
          · split
            · exact hwait
            · exact hgo _ _ (State.loadFrame_origin _ _ _ _ _)
        · split
          · rfl
          · exact hgo _ _ (State.loadMinors_origin _ _ _ _ _ _ _)
        · exact hgo _ _ (State.loadMinors_origin _ _ _ _ _ _ _)
        · split
          · rfl
          · split
            · rfl
            · exact ih _ _ _ _
        · split <;> rfl
        · rfl

end Sys2Proof.Machine

end

section

/-! PROOFS. Full loads (R278 to R282, R289, R374). -/

namespace Sys2Proof.Machine

section

variable {s : State} {l : Load} (hl : s.ldr.load = some l)

theorem State.fullLoad_eq (hlat : s.latched = false) : s.fullLoad = s.ldr.load := by rw [State.fullLoad, hlat, if_neg (by decide)]

/-! ### The start -/

/-- What the start shows before the fabric is cleared. -/
def State.startShown (s : State) (l : Load) : State :=
  let s := (s.skipEvents l.settings).raise 0x0201 l.source.toNat
  let s := (s.put F.LDR_STS_source l.source.toNat).put F.LDR_STS_fallback 0
  ((s.put F.LDR_STS_phases 0).put F.LDR_FRAMES_count 0).put F.LDR_SKIPPED_count 0

/-- A load that has begun awaits its manifest. -/
def Load.begun (l : Load) : Load := { l with step := .manifest }

include hl in
theorem execFullLoadStart_eq (hlat : s.latched = false) (hstep : l.step = .entered) :
    execFullLoadStart s = .next ((((s.startShown l).bistEnd.loadQuiets.loadParks.loadRegions.allRings).setLoad (some l.begun)).ldrShow l.begun) := by
  unfold execFullLoadStart
  rw [State.fullLoad_eq hlat, hl]
  exact if_neg (not_not_intro hstep)

theorem State.startShown_shows (s : State) (l : Load) : (s.startShown l).get F.LDR_STS_phases = 0 ∧ (s.startShown l).get F.LDR_FRAMES_count = 0 ∧
    (s.startShown l).get F.LDR_STS_source = l.source.toNat ∧ (s.startShown l).logged 0x0201 l.source.toNat := by
  unfold State.startShown
  extract_lets a b
  have hlog : a.logged 0x0201 l.source.toNat := State.raise_logged _ _ _
  refine ⟨?_, ?_, ?_, hlog⟩
  · exact (State.get_put_apart _ _ rfl).trans ((State.get_put_apart _ _ rfl).trans (State.get_put_lit _ rfl))
  · exact (State.get_put_apart _ _ rfl).trans (State.get_put_lit _ rfl)
  · exact (State.get_put_apart _ _ rfl).trans ((State.get_put_apart _ _ rfl).trans ((State.get_put_apart _ _ rfl).trans ((State.get_put_apart _ _ rfl).trans
      (State.get_put_lt _ rfl l.source.isLt))))

/-- The state that the start leaves. -/
def State.startEnd (s : State) (l : Load) : State := (s.setLoad (some l.begun)).ldrShow l.begun

theorem State.startEnd_get (s : State) (l : Load) {f : RF} (hf : F.LDR_STS_state.apart f = true) : (s.startEnd l).get f = s.get f := by
  rw [State.startEnd, State.ldrShow, State.get_put_apart _ _ hf, State.setLoad, State.setLdr_get]

theorem State.startEnd_load (s : State) (l : Load) : (s.startEnd l).ldr.load = some { l with step := .manifest } := rfl

theorem State.startEnd_kept (s : State) (l : Load) : (s.startEnd l).ldr.segs = s.ldr.segs ∧ (s.startEnd l).fab = s.fab ∧ (s.startEnd l).cad = s.cad ∧
    (s.startEnd l).log = s.log := ⟨rfl, rfl, rfl, rfl⟩

theorem State.startEnd_regions (s : State) (l : Load) (hb : State.Begun s) {n : Nat} (hn : n < 16) :
    (s.startEnd l).regionState n = if (s.startEnd l).regionRetired n then 6 else 3 := by
  have hr : (s.startEnd l).regionRetired n = s.regionRetired n := by
    rw [State.regionRetired, State.regionRetired, s.startEnd_get l rfl]
  have hstate : (s.startEnd l).regionState n = s.regionState n :=
    s.startEnd_get l (apart_off (by simp only [F.LDR_STS_state, R.LDR_STS, F.REGION_PR_STS_state, R.REGION_PR_STS]; omega))
  rw [hr, hstate]
  exact congrArg Prod.fst (hb.posture n hn)

theorem State.Begun.reset {s : State} (hb : State.Begun s) : s.fab.setReset = 0xFFFF ∧ s.fab.wen = 0 := by
  have hones : ∀ i < 16, (0xFFFF : BitVec 16).getLsbD i = true := by decide
  refine ⟨BitVec.eq_of_getLsbD_eq fun i hi => ?_, BitVec.eq_of_getLsbD_eq fun i hi => ?_⟩
  · exact (congrArg (fun x : Nat × Bool × Bool => x.2.1) (hb.posture i hi)).trans (hones i hi).symm
  · exact (congrArg (fun x : Nat × Bool × Bool => x.2.2) (hb.posture i hi)).trans BitVec.getLsbD_zero.symm

/-- The start before its load is shown. -/
def State.startFabric (s : State) (l : Load) : State := (s.startShown l).bistEnd.loadQuiets.loadParks.loadRegions.allRings

theorem State.startFabric_spec (s : State) (l : Load) : (s.startShown l).Logs (s.startFabric l) ∧ State.Begun (s.startFabric l) ∧ (s.startFabric l).cad.run = false := by
  unfold State.startFabric
  have hparks := (State.Loads.logs ((s.startShown l).bistEnd_loads.trans (State.loadQuiets_loads _))).trans (State.loadParks_logs _)
  have hrun := (s.startShown l).bistEnd.loadQuiets.loadParks_run
  generalize (s.startShown l).bistEnd.loadQuiets.loadParks = u at hparks hrun
  obtain ⟨hregions, hbegun⟩ := u.loadRegions_spec
  have hrings := u.loadRegions.allRings_clears
  exact ⟨hparks.trans (State.Loads.logs (hregions.trans (State.Clears.loads hrings))), State.Clears.begun hrings hbegun,
    (State.Clears.loads hrings).part.trans (hregions.part.trans hrun)⟩

include hl in
theorem completes_fullLoadStart (hstep : l.step = .entered) (hlat : s.latched = false) :
    Completes .fullLoadStart s (fun t => t.ldr.load = some { l with step := .manifest } ∧ t.get F.LDR_STS_phases = 0 ∧
      t.ldr.segs = [] ∧ t.fab.setReset = 0xFFFF ∧ t.fab.wen = 0 ∧ t.cad.run = false ∧ t.get F.LDR_FRAMES_count = 0 ∧
      t.get F.LDR_STS_source = l.source.toNat ∧ t.loggedSome 0x0201 ∧
      ∀ n : Fin 16, t.regionState n = if t.regionRetired n then 6 else 3) := by
  obtain ⟨hphases, hcount, hsource, hlog⟩ := s.startShown_shows l
  obtain ⟨hlogs, hbegun, hrun⟩ := s.startFabric_spec l
  have hexec : execFullLoadStart s = .next ((s.startFabric l).startEnd l) := execFullLoadStart_eq hl hlat hstep
  generalize s.startFabric l = v at hlogs hbegun hrun hexec
  obtain ⟨hsegs, hfab, hcad, htlog⟩ := v.startEnd_kept l
  obtain ⟨hset, hwen⟩ := hbegun.reset
  have hlow {f : RF} (hf : F.LDR_STS_state.apart f = true) (hp : 0x10000 ≤ f.off) (hq : f.off < 0x20000) : (v.startEnd l).get f = (s.startShown l).get f :=
    (v.startEnd_get l hf).trans (State.Logs.low hlogs hp hq)
  refine ⟨_, hexec, v.startEnd_load l, (hlow rfl (by decide) (by decide)).trans hphases, hsegs.trans hbegun.segs, ?_, ?_, ?_,
    (hlow rfl (by decide) (by decide)).trans hcount, (hlow rfl (by decide) (by decide)).trans hsource, ⟨l.source.toNat, ?_⟩,
    fun n => v.startEnd_regions l hbegun n.isLt⟩
  · rw [hfab, hset]
  · rw [hfab, hwen]
  · rw [hcad, hrun]
  · exact State.logged_mono (htlog.trans (List.append_nil _).symm) (hlogs.logged hlog)

/-! ### The self-test -/

include hl in
theorem completes_startupSelftest (wrOk : Bool) (hlat : s.latched = false) (hstep : l.step ≠ .entered) (hself : l.selftest = false) (hmap : s.mapView.ok = true) :
    Completes (.startupSelftestDone [] wrOk) s (fun t => t.ldr.load = some { l with selftest := true } ∧ t.mode = s.mode) := by
  have hmode (n : List Nat) : (n.foldl (fun s n => s.secretClear n) s).mode = s.mode := (secretsClear_kept n s).1
  show ∃ t, execStartupSelftestDone [] wrOk s = .next t ∧ _
  unfold execStartupSelftestDone
  rw [State.fullLoad_eq hlat, hl]
  dsimp only
  rw [if_neg (by simp [hself, hstep])]
  generalize hc : (s.liveOf 0xFFFF).foldl (fun s n => s.secretClear n) s = c
  have hcm : c.mode = s.mode := hc ▸ hmode _
  generalize (c.liveOf 0xFFFF).foldl (fun a n => a + 2 ^ n) 0 = live
  obtain ⟨-, hout, htm, -⟩ := c.hardTest_clean 2 live l.started
  rw [hout, hmap, if_neg (by simp)]
  exact ⟨_, rfl, rfl, htm.trans hcm⟩

/-- A full load that fails before its set-reset is released ends in HOLD. -/
theorem State.fullFails_spec {s : State} (hm : s.mode = .load) (hlat : s.latched = false) (l : Load) (code : Nat) {hold : Nat} (hc : hold < 16) :
    (s.fullFails l code hold).mode = .hold ∧ (s.fullFails l code hold).get F.SUP_MODE_hold_cause = hold ∧ (s.fullFails l code hold).ldr.load = none := by
  have hregions := s.regionsFail_winds
  unfold State.fullFails
  extract_lets r
  have hr : r.mode = s.mode ∧ r.pwr = s.pwr := ⟨(show r.mode = s.regionsFail.mode from rfl).trans (State.Winds.mode hregions), (show r.pwr = s.regionsFail.pwr from rfl).trans (State.Winds.pwr hregions)⟩
  have hans := r.completeSrc_answers l.src (codeStatus code) code
  have hmode : (r.completeSrc l.src (codeStatus code) code).mode = .load := (State.Ends.mode hans.ends).trans (hr.1.trans hm)
  have hpwr : (r.completeSrc l.src (codeStatus code) code).latched = false := by
    have hp : (r.completeSrc l.src (codeStatus code) code).pwr = r.pwr := (congrArg State.pwr hans.part :)
    rw [State.latched, hp, hr.2]
    exact hlat
  have hhold := State.enterHold_spec (by rw [hmode]; decide) hpwr (by rw [hmode]; decide) hc true false
  exact ⟨hhold.mode, hhold.cause, hhold.unloaded⟩

include hl in
theorem completes_startupSelftest_fails (wrOk : Bool) (hlat : s.latched = false) (hstep : l.step ≠ .entered) (hself : l.selftest = false)
    (hmap : s.mapView.ok = false) (hm : s.mode = .load) :
    Completes (.startupSelftestDone [] wrOk) s (fun t => t.mode = .hold ∧ t.get F.SUP_MODE_hold_cause = 6 ∧ t.ldr.load = none) := by
  have hclear (n : List Nat) : s.Winds (n.foldl (fun s n => s.secretClear n) s) := .foldl (fun u n _ => State.Clears.winds (u.secretClear_clears n)) s
  show ∃ t, execStartupSelftestDone [] wrOk s = .next t ∧ _
  unfold execStartupSelftestDone
  rw [State.fullLoad_eq hlat, hl]
  dsimp only
  rw [if_neg (by simp [hself, hstep])]
  generalize hc : (s.liveOf 0xFFFF).foldl (fun s n => s.secretClear n) s = c
  have hcw : s.Winds c := hc ▸ hclear _
  generalize (c.liveOf 0xFFFF).foldl (fun a n => a + 2 ^ n) 0 = live
  obtain ⟨-, hout, htm, -⟩ := c.hardTest_clean 2 live l.started
  have htp : (c.hardTest 2 live l.started []).1.pwr = c.pwr := rfl
  generalize (c.hardTest 2 live l.started []).1 = d at htm htp
  rw [hmap, if_pos (by simp)]
  have hd : (d.ldrError 0x12 0xFFFF).mode = .load ∧ (d.ldrError 0x12 0xFFFF).latched = false := by
    refine ⟨htm.trans ((State.Winds.mode hcw).trans hm), ?_⟩
    show d.pwr.holdLatch = false
    rw [htp, State.Winds.pwr hcw]
    exact hlat
  exact ⟨_, rfl, State.fullFails_spec hd.1 hd.2 l 0x12 (by decide)⟩

/-! ### The manifest -/

theorem manifestCode_lt (f : Fuses) (v : ManView) (region : Bool) (set : Nat) : manifestCode f v region set < 256 := by
  unfold manifestCode
  iterate 9
    split
    · decide
  decide

include hl in
theorem completes_manifestVerified (h : List Byte) (hlat : s.latched = false) (hstep : l.step = .manifest) (hpll : s.get F.CAD_STS_pll_lock = 1)
    (hsrc : l.source = 3) (hregion : l.region = false) (hstore : l.store = false) (hbme : s.hif.bme = true) (hlen : 5696 ≤ h.length) :
    Completes (.manifestVerified (some h)) s (fun t =>
      let v : ManView := ⟨h.take 64, slice h 64 5632⟩
      let code := manifestCode s.fuseView v false l.set.toNat
      if code = 0 then t.ldr.load = some { l.accept s.fuseView v with base := 0 } ∧ t.mode = s.mode
      else t.get F.LDR_ERR_code = code ∧ t.get F.LDR_ERR_status = codeStatus code ∧ t.get F.LDR_STS_source = 2 ∧
        t.get F.LDR_STS_fallback = 1 ∧ t.fab.nodes = []) := by
  have hload : s.manifestLoad = some l := by
    rw [State.manifestLoad, State.fullLoad_eq hlat, hl]
    exact if_pos ⟨hstep, State.on_of_one hpll⟩
  show ∃ t, execManifestVerified (some h) s = .next t ∧ _
  unfold execManifestVerified
  rw [hload]
  dsimp only
  rw [if_pos hsrc, if_pos hsrc]
  dsimp only
  rw [if_neg (by rw [hbme]; simp), if_pos hsrc, if_neg (show ¬ h.length < 5696 by omega), hregion]
  have haccept : (l.accept s.fuseView ⟨h.take 64, slice h 64 5632⟩).region = false ∧ (l.accept s.fuseView ⟨h.take 64, slice h 64 5632⟩).store = false :=
    ⟨hregion, hstore⟩
  generalize l.accept s.fuseView ⟨h.take 64, slice h 64 5632⟩ = m at haccept
  have hlt := manifestCode_lt s.fuseView ⟨h.take 64, slice h 64 5632⟩ false l.set.toNat
  by_cases hcode : manifestCode s.fuseView ⟨h.take 64, slice h 64 5632⟩ false l.set.toNat = 0
  · rw [if_neg (not_not_intro hcode), haccept.2, if_neg Bool.false_ne_true]
    dsimp only
    rw [haccept.1, if_neg Bool.false_ne_true, State.keepLoad]
    dsimp only
    rw [if_neg Bool.false_ne_true]
    refine ⟨_, rfl, ?_⟩
    rw [if_pos hcode]
    exact ⟨rfl, (congrArg State.mode (State.declaredPass_refabs _ _).part :)⟩
  · have hfall := s.imageFailed_fallsBack (l := l) (by rw [hsrc]; decide) (manifestCode s.fuseView ⟨h.take 64, slice h 64 5632⟩ false l.set.toNat) 0xFFFF
    rw [if_pos hcode, State.loadFailed, if_neg (by rw [hregion]; decide)]
    refine ⟨_, rfl, ?_⟩
    rw [if_neg hcode]
    exact ⟨hfall.code.trans (Nat.mod_eq_of_lt hlt), hfall.status, hfall.source, hfall.fallback, hfall.nodes⟩

/-! ### A chunk -/

include hl in
theorem completes_chunkReceived (raw : List Byte) (hlat : s.latched = false) (hstep : l.step = .stream) (hself : l.selftest = true) (hsrc : l.source = 3)
    (hregion : l.region = false) (hstore : l.store = false) (hstreams : SMap.get (fun _ => none) s.flt.streams l.base = none) (hnext : l.next + 1 < l.chunks)
    (hn : l.next < 65535) (hbme : s.hif.bme = true) :
    Completes (.chunkReceived (some raw)) s (fun t =>
      let c := l.chunkCheck raw
      let bs := l.carry ++ c.2.take (c.2.length - 48)
      let r := s.loadRecords (bs.length + 2) l bs l.next (if l.carry.isEmpty then l.next else l.carryChunk) false
      let code := if c.1 ≠ 0 then c.1 else r.2.2
      if code = 0 then ∃ m, t.ldr.load = some m ∧ m.next = l.next + 1 ∧ m.expect = c.2.drop (c.2.length - 48) ∧
        m.key = (segmentKey r.2.1.key l.next r.2.1.nonce).1 ∧ t.fab = r.1.fab
      else t.get F.LDR_ERR_code = code % 256 ∧ t.get F.LDR_ERR_chunk = l.next ∧ t.get F.LDR_STS_fallback = 1) := by
  have hload : s.chunkLoad = some l := by
    rw [State.chunkLoad, State.fullLoad_eq hlat, hl]
    exact if_pos ⟨hstep, hself⟩
  have hchunk : l.next % 65536 = l.next := Nat.mod_eq_of_lt (by omega)
  show ∃ t, execChunkReceived (some raw) s = .next t ∧ _
  unfold execChunkReceived
  rw [hload]
  dsimp only
  rw [if_pos hsrc, if_neg (by rw [hbme]; decide)]
  by_cases hc : (l.chunkCheck raw).1 = 0
  · rw [if_pos hc, if_neg (not_not_intro hc), State.chunkGood, hstore, if_neg Bool.false_ne_true]
    dsimp only
    rw [hstreams, decide_eq_false (by omega)]
    dsimp only
    generalize (l.carry ++ (l.chunkCheck raw).2.take ((l.chunkCheck raw).2.length - 48)) = bs
    have horigin := State.loadRecords_origin (bs.length + 2) s l bs l.next (if l.carry.isEmpty then l.next else l.carryChunk) false
    generalize State.loadRecords (bs.length + 2) s l bs l.next (if l.carry.isEmpty then l.next else l.carryChunk) false = r at horigin
    simp only [Load.origin, Prod.mk.injEq] at horigin
    obtain ⟨hr, hs3, hkey, hnonce⟩ := horigin
    by_cases hr0 : r.2.2 = 0
    · rw [if_neg (not_not_intro hr0), if_pos Bool.not_false, State.keepLoad, if_neg (by show ¬ r.2.1.region = true; rw [hr, hregion]; decide)]
      refine ⟨_, rfl, ?_⟩
      rw [if_pos hr0]
      exact ⟨_, rfl, rfl, rfl, by rw [hkey, hnonce], rfl⟩
    · have hfall := r.1.imageFailed_fallsBack (l := r.2.1) (by rw [hs3, hsrc]; decide) r.2.2 l.next
      rw [if_pos hr0, State.loadFailed, if_neg (by rw [hr, hregion]; decide)]
      refine ⟨_, rfl, ?_⟩
      rw [if_neg hr0]
      exact ⟨hfall.code, hfall.chunk.trans hchunk, hfall.fallback⟩
  · have hfall := s.imageFailed_fallsBack (l := l) (by rw [hsrc]; decide) (l.chunkCheck raw).1 l.next
    rw [if_neg hc, if_pos hc, State.loadFailed, if_neg (by rw [hregion]; decide)]
    refine ⟨_, rfl, ?_⟩
    rw [if_neg hc]
    exact ⟨hfall.code, hfall.chunk.trans hchunk, hfall.fallback⟩

/-! ### Without Bus Master Enable -/

include hl in
theorem State.manifestLoad_host (h : s.manifestLoad = some m) : m = l := by
  unfold State.manifestLoad State.fullLoad State.partLoad at h
  by_cases hlat : s.latched = true
  · simp only [hlat, if_true] at h
    cases h
  · simp only [hlat, hl, Bool.false_eq_true, if_false] at h
    split at h
    · exact (Option.some.inj h).symm
    · cases h

include hl in
theorem State.chunkLoad_host (h : s.chunkLoad = some m) : m = l := by
  unfold State.chunkLoad State.fullLoad State.partLoad at h
  by_cases hlat : s.latched = true
  · simp only [hlat, if_true] at h
    cases h
  · simp only [hlat, hl, Bool.false_eq_true, if_false] at h
    split at h
    · exact (Option.some.inj h).symm
    · cases h

include hl in
theorem completes_manifestWaits (h : Option (List Byte)) (hsrc : l.source = 3) (hbme : s.hif.bme = false) : Completes (.manifestVerified h) s (fun t => t = s) := by
  refine ⟨s, ?_, rfl⟩
  show execManifestVerified h s = _
  unfold execManifestVerified
  split
  · rfl
  · next m hm =>
    rw [State.manifestLoad_host hl hm]
    dsimp only
    rw [if_pos hsrc, if_pos hsrc]
    cases h with
    | none => rfl
    | some h =>
      dsimp only
      exact if_pos ⟨hsrc, by rw [hbme]; rfl⟩

include hl in
theorem completes_chunkWaits (h : Option (List Byte)) (hsrc : l.source = 3) (hbme : s.hif.bme = false) : Completes (.chunkReceived h) s (fun t => t = s) := by
  refine ⟨s, ?_, rfl⟩
  show execChunkReceived h s = _
  unfold execChunkReceived
  split
  · rfl
  · next m hm =>
    rw [State.chunkLoad_host hl hm, if_pos hsrc]
    cases h with
    | none => rfl
    | some h => exact if_pos (by rw [hbme]; rfl)

end

/-- Settles O26: the start clears the fabric and puts all regions in set-reset, the self-test, manifests and chunks go on or fail, and the host's bytes
wait for Bus Master Enable. -/
theorem fullLoadsClearTheFabricAndCheckWhatTheyTake : Obligations.FullLoadsClearTheFabricAndCheckWhatTheyTake := by
  unfold Obligations.FullLoadsClearTheFabricAndCheckWhatTheyTake
  exact ⟨fun _ _ hl hstep hlat => completes_fullLoadStart hl hstep hlat,
    fun _ wrOk _ hl hlat hstep hself => ⟨completes_startupSelftest hl wrOk hlat hstep hself, completes_startupSelftest_fails hl wrOk hlat hstep hself⟩,
    fun _ h _ hl => completes_manifestVerified hl h, fun _ raw _ hl => completes_chunkReceived hl raw,
    fun _ h _ hl hsrc hbme => ⟨completes_manifestWaits hl h hsrc hbme, completes_chunkWaits hl h hsrc hbme⟩⟩

end Sys2Proof.Machine

end

section

/-! SUPPORT. The entry of HOLD releases no region from set-reset (R30, R306). -/

namespace Sys2Proof.Machine

/-- Every region in set-reset is so still. -/
def State.Grows (s t : State) : Prop := ∀ n < 16, s.fab.setReset.getLsbD n = true → t.fab.setReset.getLsbD n = true

section

variable {s t u : State}

theorem State.Grows.refl (s : State) : s.Grows s := fun _ _ h => h

theorem State.Grows.trans (h : s.Grows t) (g : t.Grows u) : s.Grows u := fun n hn hs => g n hn (h n hn hs)

theorem State.Grows.ite {c : Prop} [Decidable c] (h : c → s.Grows t) (g : ¬ c → s.Grows u) : s.Grows (if c then t else u) := by
  split
  · next hc => exact h hc
  · next hc => exact g hc

theorem State.Grows.foldl {α : Type} {f : State → α → State} {l : List α} (h : ∀ s : State, ∀ a ∈ l, s.Grows (f s a)) (s : State) : s.Grows (l.foldl f s) := by
  induction l generalizing s with
  | nil => exact .refl s
  | cons a l ih => exact (h s a List.mem_cons_self).trans (ih (fun s b hb => h s b (List.mem_cons_of_mem a hb)) _)

theorem State.Grows.of_fab (h : t.fab.setReset = s.fab.setReset) : s.Grows t := fun _ _ hs => h ▸ hs

theorem State.Clears.grows (h : s.Clears t) : s.Grows t := .of_fab (State.Clears.setReset h)

theorem State.Powers.grows (h : s.Powers t) : s.Grows t := .of_fab (congrArg (fun u : State => u.fab.setReset) h.part :)

theorem State.Answers.fab (h : s.Answers t) : t.fab = s.fab := (congrArg State.fab h.part :)

theorem State.Answers.grows (h : s.Answers t) : s.Grows t := .of_fab (congrArg Fab.setReset (State.Answers.fab h))

end

section

variable (s : State)

theorem State.setResetOn_grows {n : Nat} (hn : n < 16) : s.Grows (s.setResetOn n) := fun m hm h => by rw [State.setResetOn_at _ hn hm, h, Bool.true_or]

theorem State.isolate_grows {n : Nat} (hn : n < 16) (st : Nat) : s.Grows (s.isolate n st) := fun m hm h => by
  rw [State.isolate_setReset _ st hn hm, h, Bool.true_or]

theorem State.setRegion_grows (n st : Nat) : s.Grows (s.setRegion n st) := .of_fab rfl

theorem State.put_grows (f : RF) (v : Nat) : s.Grows (s.put f v) := .of_fab rfl

theorem State.setLdr_grows (x : Loader) : s.Grows (s.setLdr x) := .of_fab rfl

theorem State.setFlt_grows (x : Flt) : s.Grows (s.setFlt x) := .of_fab rfl

theorem State.ldrError_grows (code chunk : Nat) : s.Grows (s.ldrError code chunk) := .of_fab rfl

theorem State.setLoad_grows (l : Option Load) : s.Grows (s.setLoad l) := .of_fab rfl

theorem State.setRegionLoad_grows (l : Option Load) : s.Grows (s.setRegionLoad l) := .of_fab rfl

theorem State.ldrIdle_grows : s.Grows s.ldrIdle := s.put_grows _ _

theorem State.ldrNone_grows : s.Grows s.ldrNone := s.ldrIdle_grows.trans (State.put_grows _ _ _)

theorem State.completeSrc_grows (src : Option CmdSrc) (status detail : Nat) : s.Grows (s.completeSrc src status detail) :=
  State.Answers.grows (s.completeSrc_answers src status detail)

/-- What follows the isolation of a region for a load. -/
def State.regionErased (s : State) (n : Nat) : State :=
  let s := s.setLdr { s.ldr with segs := SMap.keep s.ldr.segs (fun k => k / 32768 != n) }
  let s := { s with fab := { s.fab with
    frames := SMap.keep s.fab.frames (fun a => a / 65536 != n)
    ltOff := SMap.keep s.fab.ltOff (fun k => k / 32768 != n)
    gapFrames := SMap.keep s.fab.gapFrames (fun a => a / 65536 != n)
    rowErr := SMap.keep s.fab.rowErr (fun k => k / (256 * 512) != n) } }
  s.setFlt { s.flt with
    repairs := s.flt.repairs.filter (fun a => a / 65536 != n)
    index := SMap.keep s.flt.index (fun a => a / 65536 != n)
    corr := SMap.keep s.flt.corr (fun a => a / 65536 != n)
    bad := SMap.keep s.flt.bad (fun a => a / 65536 != n) }

/-- The watchdogs of a region disabled. -/
def State.wdgsOff (s : State) (n : Nat) : State := (List.range 32).foldl (fun s k => s.put (F.REGION_WDG_CTL_enable n k) 0) s

theorem State.isolateForLoad_eq (n : Nat) :
    s.isolateForLoad n = (((((s.wdgsOff n).isolate n 3).secretClear n).regionErased n).put (F.REGION_LT_FAULT_count n) 0).wdgSync n := rfl

theorem State.isolateForLoad_grows {n : Nat} (hn : n < 16) : s.Grows (s.isolateForLoad n) := by
  have herase (u : State) : u.Grows (u.regionErased n) := .of_fab rfl
  rw [State.isolateForLoad_eq]
  have hwdgs : s.Grows (s.wdgsOff n) := .foldl (fun u _ _ => u.put_grows _ _) s
  exact (((hwdgs.trans (State.isolate_grows _ hn 3)).trans (State.Clears.grows (State.secretClear_clears _ n))).trans (herase _)).trans
    ((State.put_grows _ _ _).trans (State.Clears.grows (State.wdgSync_clears _ hn)))

theorem State.partialFault_grows (set : Nat) (waiting : BitVec 16) : s.Grows (s.partialFault set waiting) := by
  refine .trans (.foldl (fun u n hn => ?_) s) (State.Clears.grows ((State.allRings_clears _).trans (State.raise_clears _ _ _)))
  have hn' := State.live_lt _ hn
  have hiso : u.Grows (if waiting.getLsbD n = true then u.isolateForLoad n else u) := .ite (fun _ => u.isolateForLoad_grows hn') fun _ => .refl _
  exact hiso.trans (((State.setRegion_grows _ n 5).trans (State.put_grows _ _ _)).trans (State.setResetOn_grows _ hn'))

theorem State.endRegionLoad_grows (hold : Bool) : s.Grows (s.endRegionLoad hold) := by
  have hend (u : State) (src : Option CmdSrc) : u.Grows (((u.setRegionLoad none).ldrIdle).completeSrc src 7 0x13) :=
    ((u.setRegionLoad_grows none).trans (State.ldrIdle_grows _)).trans (State.completeSrc_grows _ _ _ _)
  unfold State.endRegionLoad
  split
  · exact .refl _
  · dsimp only
    exact (((s.ldrError_grows _ _).trans (State.Clears.grows (State.prError_clears _ _ _ _))).trans (.ite (fun _ => State.partialFault_grows _ _ _) fun _ => .refl _)).trans
      (hend _ _)

theorem State.endActivation_grows (hold : Bool) (a : Activation) : s.Grows (s.endActivation hold a) := by
  have hload (u : State) : u.Grows (((u.ldrError 0x13 0xFFFF).prError a.set.toNat 0x13 0xFFFF).ldrIdle) :=
    ((u.ldrError_grows _ _).trans (State.Clears.grows (State.prError_clears _ _ _ _))).trans (State.put_grows _ _ _)
  have hback (u : State) : u.Grows ((u.liveOf a.set.toNat).foldl (fun s n => (s.setRegion n 2).setResetOn n) u) :=
    .foldl (fun x n hn => (x.setRegion_grows n 2).trans (State.setResetOn_grows _ (State.live_lt _ hn))) u
  exact .trans (.ite (fun _ => (hload s).trans (.ite (fun _ => State.partialFault_grows _ _ _) fun _ => .refl _)) fun _ => hback s) (State.completeSrc_grows _ _ _ _)

theorem State.endRegions_grows (hold : Bool) : s.Grows (s.endRegions hold) :=
  ((s.endRegionLoad_grows hold).trans (State.setLdr_grows _ _)).trans (.foldl (fun u a _ => u.endActivation_grows hold a) _)

theorem State.endFullLoad_grows : s.Grows s.endFullLoad := by
  have hset (u : State) (n st : Nat) : u.Grows (u.setRegion n st) := u.setRegion_grows n st
  have hrun (u : State) (set : Nat) : u.Grows (u.regionsRun set) :=
    .trans (.foldl (fun x n _ => .ite (fun _ => hset x n _) fun _ => hset x n _) u) (State.Clears.grows (State.allRings_clears _))
  have hfail (u : State) : u.Grows u.regionsFail := .trans (.foldl (fun x n _ => hset x n _) u) (State.Clears.grows (State.allRings_clears _))
  have himage (u : State) (n : Nat) (v w : Word) : u.Grows (((u.wr (R.REGION_PR_IMG n) v).wr (R.REGION_PR_VER n) w).put (F.REGION_PR_STS_by_full n) 1) := .of_fab rfl
  have hdesign (u : State) (l : Load) : u.Grows (u.designRuns l) :=
    ((hrun u _).trans (.foldl (fun x n _ => himage x n _ _) _)).trans (State.setLdr_grows _ _)
  unfold State.endFullLoad
  split
  · exact .refl _
  · extract_lets b
    have hb : s.Grows b := .ite (fun _ => (hdesign s _).trans (State.ldrIdle_grows _)) fun _ => (hfail s).trans (State.ldrNone_grows _)
    exact ((hb.trans (State.ldrError_grows _ _ _)).trans (State.setLoad_grows _ _)).trans (State.completeSrc_grows _ _ _ _)

theorem State.bistEnd_grows : s.Grows s.bistEnd := by
  unfold State.bistEnd
  dsimp only
  refine .trans (State.Clears.grows (.trans ?_ (State.bistStop_clears _))) (.foldl (fun u c _ => u.completeSrc_grows (some c.src) _ _) _)
  split
  · exact s.bistCut_clears.trans (State.keepTest_clears _ _)
  · exact s.bistCut_clears

theorem State.worksEnd_grows : s.Grows s.worksEnd := by
  have hasked (u : State) : u.Grows u.endAskedLoads :=
    .trans (t := u.setHif { u.hif with accepted := u.hif.accepted.filter (fun c => ! (c.d.opcode == 0x10)) }) (.of_fab rfl)
      (.foldl (fun x c _ => .trans (t := x.logAdd (.outranked Mode.load.code)) (.of_fab rfl) (State.completeSrc_grows _ (some c.src) _ _)) _)
  exact (s.endFullLoad_grows.trans (State.endRegions_grows _ true)).trans (hasked _)

theorem State.regionsHold_grows (reset : Bool) : s.Grows (s.regionsHold reset) := by
  have hreset (u : State) : u.Grows u.holdReset :=
    .trans (.foldl (fun x n hn => (x.put_grows _ _).trans (State.setResetOn_grows _ (State.live_lt _ hn))) u) (State.put_grows _ _ _)
  exact .trans (.ite (fun _ => hreset s) fun _ => State.Clears.grows (s.holdFreeze_clears.trans (State.grmHold_clears _))) (State.bistEnd_grows _)

theorem State.modeHold_fab (cause : Nat) : (s.modeHold cause).fab = s.fab := rfl

/-- The first entry of HOLD. -/
theorem State.enterHold_grows (hcold : s.mode ≠ .cold) (hl : s.latched = false) (hhold : s.mode ≠ .hold) (cause : Nat) (setReset vcoreOff : Bool) :
    s.Grows (s.enterHold cause setReset vcoreOff) := by
  rw [State.enterHold_eq hcold hl hhold]
  have hmode : s.worksEnd.Grows (s.worksEnd.modeHold cause) := .of_fab (congrArg Fab.setReset (s.worksEnd.modeHold_fab cause))
  exact ((s.worksEnd_grows.trans hmode).trans (State.regionsHold_grows _ _)).trans
    ((State.Powers.grows (State.coreHold_powers _ _)).trans (State.Clears.grows (State.outputsHold_clears _ _ _ _)))

theorem State.faultHold_grows : s.Grows s.faultHold := by
  unfold State.faultHold
  split
  · next h =>
    by_cases hl : s.latched = true
    · rw [s.enterHold_latched hl]
      exact .refl _
    · have hmode : s.mode ≠ .cold ∧ s.mode ≠ .hold := by
        rcases Bool.or_eq_true _ _ ▸ h with hr | hm
        · exact ⟨(State.running_hot hr).1, (State.running_hot hr).2.2.2⟩
        · have hm : s.mode = .load := by simpa using hm
          rw [hm]
          decide
      exact s.enterHold_grows hmode.1 (by simpa using hl) hmode.2 2 false false
  · exact .refl _

/-! ### Repairs that are given up -/

end

/-- The fault log only grows. -/
abbrev State.Tells (s t : State) : Prop := s.Alters (fun _ => BitVec.allOnes 32) (fun _ => ()) t

theorem State.Holds.tells {s t : State} (h : s.Holds t) : s.Tells t := by
  refine h.mono (fun off i hi => ?_) fun _ _ _ => rfl
  rw [BitVec.getLsbD_allOnes] at hi
  exact BitVec.getLsbD_of_ge _ _ (by simpa using hi)

theorem tells_eventful : Eventful (fun _ => BitVec.allOnes 32) (fun _ : State => ()) := ⟨fun _ _ => rfl, fun _ => rfl⟩

section

variable (s : State)

theorem State.repairFail_grows (a : Nat) : s.Grows (s.repairFail a) ∧ s.Tells (s.repairFail a) := by
  have hput (u : State) (f : RF) (v : Nat) : u.Tells (u.put f v) := .field tells_eventful v (and_not_allOnes _)
  have hflt (u : State) (x : Flt) : u.Tells (u.setFlt x) := .of_same rfl rfl rfl
  have hout (u : State) : u.Tells (u.repairOutcome a 2) := .ite (fun _ => hput u _ _) fun _ => .refl _ _ _
  unfold State.repairFail
  extract_lets _ u
  generalize hw : ((u.sat F.GRM_MBU_unrepairable).raise 0x0304 (a / 65536)).repairOutcome a 2 = w
  have hwt : s.Tells w := hw ▸ (((hflt s _).trans (hput u _ _)).trans (.raise tells_eventful _ _)).trans (hout _)
  have hwg : s.Grows w := by
    obtain ⟨-, hfab, -⟩ := ((u.sat F.GRM_MBU_unrepairable).raise 0x0304 (a / 65536)).repairOutcome_keeps a 2
    refine .of_fab ?_
    rw [← hw, hfab, State.raise_fab]
    rfl
  exact ⟨hwg.trans (.ite (fun _ => w.faultHold_grows) fun _ => .refl _), hwt.trans (State.Holds.tells w.grmReact_holds)⟩

theorem State.repairsFail_grows (n : Nat) : s.Grows (s.repairsFail n) ∧ s.Tells (s.repairsFail n) :=
  ⟨.foldl (fun u a _ => (u.repairFail_grows a).1) s, .foldl (fun u a _ => (u.repairFail_grows a).2) s⟩

/-- Without a repair in a region none is given up. -/
theorem State.repairsFail_none {n : Nat} (h : ∀ a ∈ s.flt.repairs, a / 65536 ≠ n) : s.repairsFail n = s := by
  have hnone : s.flt.repairs.filter (fun a => a / 65536 == n) = [] := List.filter_eq_nil_iff.mpr fun a ha => by simpa using h a ha
  rw [State.repairsFail, hnone]
  rfl

end

end Sys2Proof.Machine

end

section

/-! PROOFS. Regions loaded, isolated and activated (chapter 10: R297 to R306). -/

namespace Sys2Proof.Machine

section

variable {s : State} {src : CmdSrc} {d : AdminDesc}

/-! ### The commands -/

/-- A command for regions of a running design is taken. -/
theorem completes_regionCmd {i : Instr} {p : AdminDesc → Bool} {f : AdminCmd → State → State} {P : State → Prop} (hi : exec i s = s.runAccepted p f)
    (hrun : s.running = true) (hacc : s.hif.accepted = [⟨src, d⟩]) (hop : d.op = 0x11 ∨ d.op = 0x12 ∨ d.op = 0x13) (hp : p d = true)
    (hP : P (f ⟨src, d⟩ s.taken)) : Completes i s P := by
  have hmode : s.modeStatus d = 0 := by
    have hload := (State.running_hot hrun).2.2.1
    unfold State.modeStatus
    rcases hop with h | h | h <;> simp [h, hrun, hload]
  exact ⟨_, hi.trans (State.runAccepted_alone (State.running_latched hrun) hacc hmode hp f), hP⟩

theorem adminSet_lt (d : AdminDesc) : d.set < 65536 := Nat.mod_lt _ (by decide)

section

variable (hrun : s.running = true) (hacc : s.hif.accepted = [⟨src, d⟩]) (hcmp : s.setCompares d.set = false)

include hrun hacc hcmp

theorem completes_loadPartial (hop : d.op = 0x11) (hfrom : d.fromEntry = true) (hloads : s.regionLoads = false) (hin : s.setIn d.set [0, 1, 2, 5] = true)
    (hunit : s.unitOk 7 = true) :
    Completes (.loadPartial []) s (fun t => t.logged 0x0210 d.set ∧ t.get F.LDR_STS_state = 7 ∧
      ∃ l, t.ldr.regionLoad = some l ∧ l.step = .manifest ∧ l.set.toNat = d.set ∧ l.activate = d.arg0.getLsbD 16 ∧ l.src = some src) := by
  refine completes_regionCmd rfl hrun hacc (Or.inl hop) (by simp [isOp, hop, hfrom]) ?_
  have hloads' : s.taken.regionLoads = false := hloads
  have hin' : s.taken.setIn d.set [0, 1, 2, 5] = true := hin
  have hcmp' : s.taken.setCompares d.set = false := hcmp
  have hunit' : s.taken.unitOk 7 = true := hunit
  dsimp only
  rw [hfrom, if_neg (by simp), hloads', if_neg Bool.false_ne_true, hin', hcmp', if_neg (by simp), hunit', if_neg (by simp)]
  generalize (s.taken.skipEvents s.taken.settings) = u
  refine ⟨?_, ?_, _, rfl, rfl, Nat.mod_eq_of_lt (adminSet_lt d), rfl, rfl⟩
  · exact State.raise_logged _ _ _
  · rw [State.setRegionLoad, State.setLdr_get, State.get_put_apart _ _ rfl, State.get_put_apart _ _ rfl, State.get_put_lit _ rfl]

theorem completes_activateRegion (hop : d.op = 0x12) (hin : s.setIn d.set [2] = true) (hloads : s.setLoads d.set = false) (hstart : s.sameStart d.set = true) :
    Completes .activateRegion s (fun t => ∀ n : Fin 16, n.val ∈ s.liveOf d.set → t.regionState n = 4) := by
  refine completes_regionCmd rfl hrun hacc (Or.inr (Or.inl hop)) (by simp [isOp, hop]) ?_
  have hloads' : s.taken.setLoads d.set = false := hloads
  have hin' : s.taken.setIn d.set [2] = true := hin
  have hcmp' : s.taken.setCompares d.set = false := hcmp
  have hstart' : s.taken.sameStart d.set = true := hstart
  dsimp only
  rw [hloads', hin', hcmp', if_neg (by simp), hstart', if_neg (by simp)]
  intro n hn
  have hlive : s.taken.liveOf d.set = s.liveOf d.set := rfl
  rw [hlive]
  have hphases (u : State) (n m : Nat) (v : Nat) : (u.put (F.REGION_PR_STS_phases n) v).regionState m = u.regionState m := by
    by_cases h : m = n
    · subst h
      exact State.get_put_apart _ _ rfl
    · exact u.putPrSts_other h _ _ _
  have htake := regions_take (f := fun s n => (s.setRegion n 4).put (F.REGION_PR_STS_phases n) 0) (st := 4)
    (fun u n hn => (hphases _ n n 0).trans (u.setRegion_self hn (by decide)))
    (fun u n m hn hm hne => (hphases _ n m 0).trans (u.setRegion_other hm hn hne)) (l := s.liveOf d.set) (fun _ h => State.live_lt _ h) s.taken n.isLt
  exact htake.trans (if_pos hn)

omit hcmp in
theorem completes_isolateRefused (hop : d.op = 0x13) (hno : s.setIn d.set [1] = false ∨ s.setLoads d.set = true) (hsrc : src = .mailbox)
    (hmove : ∀ n : Fin 16, s.get (F.REGION_COLMAP_moving n) = 0) :
    Completes .isolateRegion s (fun t => t.get F.HIF_MBOX_CMD_status = 3 ∧ t.get F.HIF_MBOX_CMD_busy = 0 ∧ t.fab = s.fab) := by
  have hoff : ∀ n ∈ List.range 16, (!bitOf d.set n || !s.on (F.REGION_COLMAP_moving n)) = true := fun n hn => by
    rw [State.on_of_zero (hmove ⟨n, List.mem_range.mp hn⟩)]
    simp
  refine completes_regionCmd rfl hrun hacc (Or.inr (Or.inr hop)) (by simp [isOp, hop, List.all_eq_true.mpr hoff]) ?_
  dsimp only
  have hrefused : (!s.taken.setIn d.set [1] || s.taken.setCompares d.set || s.taken.setLoads d.set) = true := by
    show (!s.setIn d.set [1] || s.setCompares d.set || s.setLoads d.set) = true
    rcases hno with h | h <;> simp [h]
  rw [if_pos hrefused, hsrc]
  obtain ⟨hsays, -⟩ := s.taken.complete_mailbox_says 3 0 0 0
  obtain ⟨hbusy, hstatus, -⟩ := hsays
  exact ⟨hstatus, hbusy, (State.Answers.fab (s.taken.completeSrc_answers (some .mailbox) 3 0)).trans rfl⟩

/-- The regions of a set are isolated by command. -/
def State.isolated (s : State) (set : Nat) : State := (s.liveOf set).foldl (fun s n => (s.isolate n 2).isoSince n) s

omit hrun hacc hcmp in
theorem State.isolated_spec (s : State) (set : Nat) : (∀ n < 16, n ∈ s.liveOf set → (s.isolated set).regionState n = 2 ∧ (s.isolated set).fab.setReset.getLsbD n = true) ∧
    (s.isolated set).flt.repairs = s.flt.repairs := by
  have hlt : ∀ n ∈ s.liveOf set, n < 16 := fun _ h => State.live_lt _ h
  have hstate (n : Nat) (hn : n < 16) := regions_take (f := fun s n => (s.isolate n 2).isoSince n) (st := 2) (fun u n hn => u.isolate_self hn (by decide))
    (fun u n m hn hm hne => u.isolate_other 2 hn hm hne) hlt s hn
  have hreset (n : Nat) (hn : n < 16) := regions_reset (f := fun s n => (s.isolate n 2).isoSince n) (fun u n m hn hm => u.isolate_setReset 2 hn hm) hlt s hn
  refine ⟨fun n hn hmem => ⟨(hstate n hn).trans (if_pos hmem), (hreset n hn).trans (by simp [hmem])⟩, ?_⟩
  refine foldl_kept (fun u => u.flt.repairs) (fun u n hn => ?_) s
  exact (congrArg (fun x : State => x.flt.repairs) (u.isolate_marks (hlt n hn) 2).part :)

theorem completes_isolateRegion (hop : d.op = 0x13) (hin : s.setIn d.set [1] = true) (hloads : s.setLoads d.set = false)
    (hmove : ∀ n : Fin 16, s.get (F.REGION_COLMAP_moving n) = 0) :
    Completes .isolateRegion s (fun t => t.logged 0x0213 d.set ∧ (∀ n : Fin 16, n.val ∈ s.liveOf d.set → t.fab.setReset.getLsbD n = true) ∧
      ((∀ a ∈ s.flt.repairs, bitOf d.set (a / 65536) = false) → ∀ n : Fin 16, n.val ∈ s.liveOf d.set → t.regionState n = 2)) := by
  have hoff : ∀ n ∈ List.range 16, (!bitOf d.set n || !s.on (F.REGION_COLMAP_moving n)) = true := fun n hn => by
    rw [State.on_of_zero (hmove ⟨n, List.mem_range.mp hn⟩)]
    simp
  refine completes_regionCmd rfl hrun hacc (Or.inr (Or.inr hop)) (by simp [isOp, hop, List.all_eq_true.mpr hoff]) ?_
  dsimp only
  have hgo : (!s.taken.setIn d.set [1] || s.taken.setCompares d.set || s.taken.setLoads d.set) = false := by
    show (!s.setIn d.set [1] || s.setCompares d.set || s.setLoads d.set) = false
    simp [hin, hcmp, hloads]
  rw [hgo, if_neg Bool.false_ne_true]
  obtain ⟨hregions, hrep⟩ := s.taken.isolated_spec d.set
  have hfold : (s.taken.liveOf d.set).foldl (fun s n => (s.isolate n 2).isoSince n) s.taken = s.taken.isolated d.set := rfl
  have hlive : s.taken.liveOf d.set = s.liveOf d.set := rfl
  rw [hlive] at hregions
  rw [hfold]
  generalize s.taken.isolated d.set = u at hregions hrep
  have hans := (u.raise 0x0213 d.set).completeSrc_answers (some src) 0 0
  have hev := State.raise_clears u 0x0213 d.set
  generalize hw : (u.raise 0x0213 d.set).complete src 0 0 = w
  replace hans : (u.raise 0x0213 d.set).Answers w := hw ▸ hans
  have hlog : w.logged 0x0213 d.set := hans.logged (State.raise_logged _ _ _)
  have hgrow : u.Grows w := (State.Clears.grows hev).trans (State.Answers.grows hans)
  have hend : w.Grows ((List.range 16).foldl (fun s n => if bitOf d.set n then s.repairsFail n else s) w) ∧
      w.Tells ((List.range 16).foldl (fun s n => if bitOf d.set n then s.repairsFail n else s) w) :=
    ⟨.foldl (fun x n _ => .ite (fun _ => (x.repairsFail_grows n).1) fun _ => .refl _) w,
      .foldl (fun x n _ => .ite (fun _ => (x.repairsFail_grows n).2) fun _ => .refl _ _ _) w⟩
  refine ⟨hend.2.logged hlog, fun n hn => hend.1 n n.isLt (hgrow n n.isLt (hregions n n.isLt hn).2), fun hnone n hn => ?_⟩
  have hwrep : w.flt.repairs = s.flt.repairs :=
    ((congrArg (fun x : State => x.flt.repairs) hans.part :).trans (congrArg (fun x : State => x.flt.repairs) hev.part :)).trans hrep
  have hidle (l : List Nat) : l.foldl (fun s n => if bitOf d.set n then s.repairsFail n else s) w = w := by
    induction l with
    | nil => rfl
    | cons n l ih =>
      rw [List.foldl_cons]
      split
      · next hbit =>
        rw [w.repairsFail_none fun a ha he => by
          have h := hnone a (hwrep ▸ ha)
          rw [he, hbit] at h
          cases h]
        exact ih
      · exact ih
  rw [hidle]
  have hwstate : w.regionState n = u.regionState n :=
    (hans.get_of_zero (hostPage_out (Or.inr (Nat.le_add_right_of_le (by decide))))).trans (State.Clears.regionState hev n.isLt)
  exact hwstate.trans (hregions n n.isLt hn).1

end

/-! ### The isolation of one region for a load -/

theorem State.wdgsOff_zero (s : State) (n : Nat) {k : Nat} (hk : k < 32) : (s.wdgsOff n).get (F.REGION_WDG_CTL_enable n k) = 0 := by
  have hne (a : Nat) (h : a ≠ k) : R.REGION_WDG_CTL n a ≠ R.REGION_WDG_CTL n k := by
    simp only [R.REGION_WDG_CTL]
    omega
  obtain ⟨l, -, hl⟩ := foldl_turn (fun u => u.get (F.REGION_WDG_CTL_enable n k)) (f := fun s k => s.put (F.REGION_WDG_CTL_enable n k) 0) (List.mem_range.mpr hk)
    List.nodup_range (fun u a _ ha => State.get_put_apart u 0 (apart_off (hne a ha))) s
  exact hl.trans (State.get_put_lit _ rfl)

theorem State.wdgsOff_kept (s : State) (n : Nat) : (s.wdgsOff n).fab = s.fab ∧ (s.wdgsOff n).ldr = s.ldr := by
  have hput (u : State) (k : Nat) : (fun x : State => (x.fab, x.ldr)) (u.put (F.REGION_WDG_CTL_enable n k) 0) = (u.fab, u.ldr) := rfl
  have h := foldl_kept (fun x : State => (x.fab, x.ldr)) (l := List.range 32) (fun u k _ => hput u k) s
  exact Prod.mk.inj h

theorem State.wdgSync_frames (s : State) (n : Nat) : (s.wdgSync n).fab.frames = s.fab.frames := by
  have hshow (u : State) (k : Nat) : (u.wdgShow n k).fab.frames = u.fab.frames := rfl
  have hturn (u : State) (k : Nat) : (u.wdgTurn n k (u.wdgAt n k)).fab.frames = u.fab.frames :=
    State.of_sansTokens (u.wdgTurn_sansTokens _ _ _) (fun x => x.fab.frames) fun _ => rfl
  exact foldl_kept (fun x : State => x.fab.frames) (fun u k _ => (hshow _ k).trans (hturn u k)) s

/-- What the isolation of a region for a load leaves. -/
structure State.Vacant (n : Nat) (t : State) : Prop where
  state : t.regionState n = 3
  reset : t.fab.setReset.getLsbD n = true
  frames : t.fab.frames.all (fun e => e.1 / 65536 != n) = true
  wdgs : ∀ k < 32, t.get (F.REGION_WDG_CTL_enable n k) = 0

theorem State.Vacant.congr {n : Nat} {t u : State} (h : State.Vacant n t) (hregs : u.regs = t.regs) (hfab : u.fab = t.fab) : State.Vacant n u :=
  ⟨(State.get_of_regs hregs _).trans h.state, hfab ▸ h.reset, hfab ▸ h.frames, fun k hk => (State.get_of_regs hregs _).trans (h.wdgs k hk)⟩

theorem State.setRegionLoad_kept (s : State) (l : Option Load) : (s.setRegionLoad l).regs = s.regs ∧ (s.setRegionLoad l).fab = s.fab ∧
    (s.setRegionLoad l).ldr.regionLoad = l := ⟨rfl, rfl, rfl⟩

theorem State.isolateForLoad_vacant (s : State) {n : Nat} (hn : n < 16) : State.Vacant n (s.isolateForLoad n) := by
  rw [State.isolateForLoad_eq]
  have hoff := fun k (hk : k < 32) => s.wdgsOff_zero n hk
  generalize s.wdgsOff n = a at hoff
  have hiso := a.isolate_marks hn 3
  have hself : (a.isolate n 3).regionState n = 3 := a.isolate_self hn (by decide)
  have hreset : (a.isolate n 3).fab.setReset.getLsbD n = true := by simp [a.isolate_setReset 3 hn hn]
  generalize a.isolate n 3 = b at hiso hself hreset
  have hclear := b.secretClear_clears n
  generalize b.secretClear n = c at hclear
  have herase : (c.regionErased n).regs = c.regs ∧ (c.regionErased n).fab.setReset = c.fab.setReset ∧
      (c.regionErased n).fab.frames = SMap.keep c.fab.frames (fun a => a / 65536 != n) := ⟨rfl, rfl, rfl⟩
  generalize c.regionErased n = e at herase
  obtain ⟨hregs, hset, hframes⟩ := herase
  have hcount : e.Clears (e.put (F.REGION_LT_FAULT_count n) 0) := e.putRegion_clears hn (a := 0x100A08) 0 rfl (by decide) (by decide) (by decide) (by decide)
  have hend : e.Clears ((e.put (F.REGION_LT_FAULT_count n) 0).wdgSync n) := hcount.trans (State.wdgSync_clears _ hn)
  refine ⟨?_, ?_, ?_, fun k hk => ?_⟩
  · rw [State.Clears.regionState hend hn, State.regionState, State.get_of_regs hregs]
    exact (State.Clears.regionState hclear hn).trans hself
  · rw [State.Clears.setReset hend, hset, State.Clears.setReset hclear, hreset]
  · have hput : (e.put (F.REGION_LT_FAULT_count n) 0).fab.frames = e.fab.frames := rfl
    rw [State.wdgSync_frames, hput, hframes]
    exact List.all_eq_true.mpr fun x hx => (List.mem_filter.mp hx).2
  · have hzero : markReg (R.REGION_WDG_CTL n k) = 0 := markReg_wdg hn hk
    rw [State.Alters.get_of_zero (State.Clears.marks hend) hzero, State.get_of_regs hregs, State.Alters.get_of_zero (State.Clears.marks hclear) hzero,
      State.Alters.get_of_zero hiso hzero]
    exact hoff k hk

/-- A load once one of its regions has been isolated. -/
def Load.released (l : Load) (s : State) (n : Nat) : Load :=
  { l with
    waiting := l.waiting &&& ~~~ BitVec.ofNat 16 (2 ^ n)
    step := if (s.liveOf (l.waiting &&& ~~~ BitVec.ofNat 16 (2 ^ n)).toNat).isEmpty then .stream else .isolate }

theorem completes_regionIsolateStep (n : Fin 16) (l : Load) (hl : s.ldr.regionLoad = some l) (hlat : s.latched = false) (hstep : l.step = .isolate)
    (hwait : l.waiting.getLsbD n = true) (hmove : s.get (F.REGION_COLMAP_moving n) = 0) (hret : s.regionRetired n = false) :
    Completes (.regionIsolateStep n) s (fun t => t.regionState n = 3 ∧ t.fab.setReset.getLsbD n = true ∧
      (t.fab.frames.all (fun e => e.1 / 65536 != n)) = true ∧ (∀ k : Fin 32, t.get (F.REGION_WDG_CTL_enable n k) = 0) ∧
      ∃ m, t.ldr.regionLoad = some m ∧ m.waiting.getLsbD n = false) := by
  have hload : s.partLoad = some l := by rw [State.partLoad, hlat, if_neg Bool.false_ne_true, hl]
  show ∃ t, execRegionIsolateStep n s = .next t ∧ _
  unfold execRegionIsolateStep
  rw [hload]
  dsimp only
  rw [if_neg (by simp [hstep, hwait, State.on_of_zero hmove]), hret, if_neg Bool.false_ne_true]
  have hv := s.isolateForLoad_vacant n.isLt
  generalize s.isolateForLoad n = v at hv
  obtain ⟨hregs, hfab, hload⟩ := v.setRegionLoad_kept (some (l.released v n))
  have ht := hv.congr hregs hfab
  refine ⟨v.setRegionLoad (some (l.released v n)), rfl, ht.state, ht.reset, ht.frames, fun k => ht.wdgs k k.isLt, _, hload, ?_⟩
  show (l.waiting &&& ~~~ BitVec.ofNat 16 (2 ^ n.val)).getLsbD n = false
  rw [BitVec.getLsbD_and, BitVec.getLsbD_not, regionBit n.val n.isLt]
  simp

/-! ### The start-up of regions -/

/-- A start-up that ends. -/
def State.actEnds (s : State) : State := s.setLdr { s.ldr with acts := [] }

/-- One region of the set as its start-up ends. -/
def State.regionEnds (s : State) (a : Activation) (n : Nat) : State :=
  let s := s.wr (R.REGION_PR_TIME n) (BitVec.ofNat 32 (s.time - SMap.get (fun _ => 0) s.ldr.isoAt n))
  let s := if a.byLoad then s.inc (F.REGION_PR_STS_loads n) else s
  let s := s.spokesQuiet n
  let s := if s.grmRuns then s.put F.GRM_STS_active (setBit (s.get F.GRM_STS_active) n) else s
  (s.grmFresh n).wdgSync n

theorem State.regionEnds_kept (s : State) (a : Activation) {n m : Nat} (hn : n < 16) (hm : m < 16) :
    (s.regionEnds a n).regionState m = s.regionState m ∧ (s.regionEnds a n).ldr = s.ldr := by
  have htime (u : State) (v : Word) : u.Clears (u.wr (R.REGION_PR_TIME n) v) :=
    .wr v (clearReg_region hn (a := 0x100D10) rfl (by decide) (by decide) (by decide) (by decide)) rfl
  have hloads (u : State) (v : Nat) : (u.put (F.REGION_PR_STS_loads n) v).regionState m = u.regionState m := by
    by_cases h : m = n
    · subst h
      exact State.get_put_apart _ _ rfl
    · exact u.putPrSts_other h _ _ _
  have hquiet (u : State) : u.Clears (u.spokesQuiet n) := .foldl (fun x k _ => x.setSpk_clears k _) u
  unfold State.regionEnds
  extract_lets b c e f
  have hb : s.Clears b := htime s _
  have hc : c.regionState m = b.regionState m ∧ c.ldr = b.ldr := by
    simp only [c]
    split
    · exact ⟨hloads b _, rfl⟩
    · exact ⟨rfl, rfl⟩
  have hf : c.Clears f := (hquiet c).trans (.ite (fun _ => State.putGrmSts_clears _ _) fun _ => .refl _ _ _)
  have hend : c.Clears ((f.grmFresh n).wdgSync n) := hf.trans ((f.grmFresh_clears n).trans (State.wdgSync_clears _ hn))
  exact ⟨(State.Clears.regionState hend hm).trans (hc.1.trans (State.Clears.regionState hb hm)), (State.Clears.ldr hend).trans (hc.2.trans (State.Clears.ldr hb))⟩

theorem State.deIsolate_spec (s : State) (a : Activation) : (s.deIsolate a).ldr.acts = s.ldr.acts ∧ (s.deIsolate a).logged 0x0211 a.set.toNat ∧
    ∀ n < 16, n ∈ s.liveOf a.set.toNat → (s.deIsolate a).regionState n = 1 := by
  unfold State.deIsolate
  extract_lets live b c d e
  have hlt : ∀ n ∈ live, n < 16 := fun _ h => State.live_lt _ h
  have hbl : b.ldr = s.ldr := by
    have hone (u : State) (n : Nat) : (u.setRegion n 1).ldr = u.ldr := rfl
    have hset : (live.foldl (fun s n => s.setRegion n 1) s).ldr = s.ldr := foldl_kept State.ldr (fun u n _ => hone u n) s
    exact (State.Clears.ldr (State.allRings_clears _)).trans hset
  have hbs (n : Nat) (hn : n < 16) (hmem : n ∈ live) : b.regionState n = 1 := by
    refine (State.Clears.regionState (State.allRings_clears _) hn).trans ?_
    exact (regions_take (f := fun s n => s.setRegion n 1) (st := 1) (fun u n hn => u.setRegion_self hn (by decide))
      (fun u n m hn hm hne => u.setRegion_other hm hn hne) hlt s hn).trans (if_pos hmem)
  have hcs (n : Nat) (hn : n < 16) : c.regionState n = b.regionState n :=
    foldl_kept (fun u => u.regionState n) (f := fun s n => s.regionEnds a n) (fun u k hk => (u.regionEnds_kept a (hlt k hk) hn).1) b
  have hcl : c.ldr = b.ldr := foldl_kept State.ldr (f := fun s n => s.regionEnds a n) (fun u k hk => (u.regionEnds_kept a (hlt k hk) (m := 0) (by decide)).2) b
  have hd : c.Clears d := c.raise_clears _ _
  have he : d.Winds e := .ite (fun _ => State.Alters.trans (State.Clears.winds (d.prError_clears _ _ _)) (State.ldrIdle_winds _)) fun _ => .refl _ _ _
  have hes (n : Nat) (hn : n < 16) : e.regionState n = d.regionState n := by
    simp only [e]
    split
    · have hidle (u : State) : u.ldrIdle.regionState n = u.regionState n :=
        State.get_put_apart _ _ (apart_off (by simp only [F.LDR_STS_state, R.LDR_STS, F.REGION_PR_STS_state, R.REGION_PR_STS]; omega))
      exact (hidle _).trans (State.Clears.regionState (d.prError_clears _ _ _) hn)
    · rfl
  have hel : e.ldr.acts = d.ldr.acts := by
    simp only [e]
    split
    · have hidle (u : State) : u.ldrIdle.ldr = u.ldr := rfl
      exact congrArg Loader.acts ((hidle _).trans (State.Clears.ldr (d.prError_clears _ _ _)))
    · rfl
  have hans := e.completeSrc_answers a.src 0 0
  refine ⟨?_, hans.logged (he.logged (State.raise_logged _ _ _)), fun n hn hmem => ?_⟩
  · have hl : (e.completeSrc a.src 0 0).ldr = e.ldr := (congrArg State.ldr hans.part :)
    rw [hl, hel, State.Clears.ldr hd, hcl, hbl]
  · have hs : (e.completeSrc a.src 0 0).regionState n = e.regionState n := hans.get_of_zero (hostPage_out (Or.inr (Nat.le_add_right_of_le (by decide))))
    rw [hs, hes n hn, State.Clears.regionState hd hn, hcs n hn, hbs n hn hmem]

section

variable {a : Activation} (ha : s.ldr.acts = [a]) (hlat : s.latched = false)

include ha hlat

theorem completes_activationEnds (late : Bool) (hd : a.phaseDone = true) (hpos : a.pos = 3) :
    Completes (.regionPhaseAdvance a.set late) s (fun t => t.ldr.acts = [] ∧ t.logged 0x0211 a.set.toNat ∧
      ∀ n : Fin 16, n.val ∈ s.liveOf a.set.toNat → t.regionState n = 1) := by
  show ∃ t, execRegionPhaseAdvance a.set late s = .next t ∧ _
  unfold execRegionPhaseAdvance
  rw [hlat, if_neg Bool.false_ne_true, ha, List.find?_cons_of_pos (by simp)]
  dsimp only
  rw [if_pos hd, State.actKeep, if_pos (by show 4 ≤ a.pos + 1; omega), ha]
  have herase : [a].erase a = [] := by simp
  rw [herase]
  obtain ⟨hacts, hlog, hstate⟩ := (s.setLdr { s.ldr with acts := [] }).deIsolate_spec { a with pos := a.pos + 1, phaseDone := false }
  exact ⟨_, rfl, hacts.trans rfl, hlog, fun n hn => hstate n n.isLt hn⟩

theorem completes_activationReleases (late : Bool) (hd : a.phaseDone = false) (hcode : phaseAt (orderInForce a.image.order a.settings) a.pos = 2)
    (hw : a.image.waits.getD a.pos 0 ≠ 0) (hpos : a.pos < 4) :
    Completes (.regionPhaseAdvance a.set late) s (fun t => t.ldr.acts = [{ a with phaseDone := true }] ∧
      ∀ n : Fin 16, n.val ∈ s.liveOf a.set.toNat → t.fab.setReset.getLsbD n = false) := by
  show ∃ t, execRegionPhaseAdvance a.set late s = .next t ∧ _
  unfold execRegionPhaseAdvance
  rw [hlat, if_neg Bool.false_ne_true, ha, List.find?_cons_of_pos (by simp)]
  dsimp only
  rw [hd, if_neg Bool.false_ne_true, hcode, if_neg (by simp), if_neg (show ¬ (2 = 0 ∧ (!s.lockDone 0) = true) from fun h => absurd h.1 (by decide)), if_neg hw, State.actKeep, if_neg (by show ¬ 4 ≤ a.pos; omega)]
  have hphase : (s.regionPhase a 2).gate = (s.setResetOff ((s.liveOf a.set.toNat).foldl (fun b n => b ||| BitVec.ofNat 16 (2 ^ n)) 0)).gate :=
    foldl_kept State.gate (fun u n _ => show (u.put _ _).gate = u.gate from rfl) _
  have hfab : (s.regionPhase a 2).fab.setReset = (s.setResetOff ((s.liveOf a.set.toNat).foldl (fun b n => b ||| BitVec.ofNat 16 (2 ^ n)) 0)).fab.setReset :=
    congrArg Prod.fst hphase
  have hldr : (s.regionPhase a 2).ldr = s.ldr := congrArg Prod.snd (hphase.trans (s.setResetOff_gate _))
  generalize s.regionPhase a 2 = u at hfab hldr
  refine ⟨_, rfl, ?_, fun n hn => ?_⟩
  · show u.ldr.acts.map _ = _
    rw [hldr, ha]
    simp
  · show u.fab.setReset.getLsbD n = false
    rw [hfab]
    exact s.setResetOff_released _ hn

end

end

/-- Settles O29: regions are loaded, isolated and activated on command, isolated for a load, and start up phase by phase. -/
theorem regionsAreLoadedIsolatedAndActivated : Obligations.RegionsAreLoadedIsolatedAndActivated := by
  unfold Obligations.RegionsAreLoadedIsolatedAndActivated
  exact ⟨fun _ _ _ hrun hacc hcmp => ⟨completes_loadPartial hrun hacc hcmp, completes_isolateRegion hrun hacc hcmp, completes_activateRegion hrun hacc hcmp,
      completes_isolateRefused hrun hacc⟩,
    fun n l _ hl hlat hstep hwait => completes_regionIsolateStep n l hl hlat hstep hwait,
    fun _ late _ ha hlat => ⟨completes_activationEnds ha hlat late, completes_activationReleases ha hlat late⟩⟩

end Sys2Proof.Machine

end
